-- ==== Sys2Proof/Word.lean ====
section
/-!
DEFINITION. Word types and their plainest arithmetic (spec 00_scope, "Numbers and units" and R5, R6).
A register is a 32-bit word, memory is bytes, fusion and solver data are binary64 bit patterns,
a short stamp is 48 bits (R11).
-/
namespace Sys2Proof

/-- A register word. -/
abbrev Word := BitVec 32
/-- A byte. -/
abbrev Byte := BitVec 8
/-- A 64-bit register or the bit pattern of a binary64 value (R6). -/
abbrev Word64 := BitVec 64
/-- A short stamp: the low 48 bits of device nanoseconds (R11). -/
abbrev Stamp := BitVec 48

end Sys2Proof
end

