-- ==== Sys2Proof/Parts.lean ====
section
/-!
DEFINITION. Parts of the state that travel from one unit to its partner: a track's filter, station-keeping's state, a
capability record, a command frame, and the checkpoint that carries them (R185). They stand before the commands because a
received checkpoint is an operand of one.
-/
namespace Sys2Proof.Machine

/-- A track's hidden state (R85, R86): filter covariance, hits of the last return-bearing snaps (newest first), and those
since its creation. -/
structure Trk where
  p : List (List Word64)
  win : List Bool
  age : Nat
  deriving DecidableEq, Repr

/-- A latched request (R96): what SK_CMD said, and whether a Command Port operation waits for it (R96). -/
structure SkReq where
  op : Nat
  mode : Nat
  keep : Bool
  cp : Bool
  deriving DecidableEq, Repr

/-- A straight run of the reference position: its direction and speed, its target, whether it is a halt (R99, R100), and the SPEED
of its leg, +∞ outside a track; and whether its first step still has to take the component of the velocity along the line (R106). -/
structure SkRun where
  dir : List Word64
  v : Word64
  dest : List Word64
  halt : Bool
  vLeg : Word64
  aim : Bool
  deriving DecidableEq, Repr

/-- Station-keeping's hidden state. -/
structure Sk where
  req : Option SkReq
  /-- RES of the latest request taken for a Command Port operation (R96). -/
  taken : Option Nat
  /-- The stake in local NED and its heading; it waits for the next snap to become the origin (R97). -/
  stake : List Word64
  stakePsi : Word64
  stakeDue : Bool
  /-- The reference position, heading, its target and its rate (R99). -/
  ref : List Word64
  psi : Word64
  psiTo : Word64
  rr : Word64
  run : SkRun
  /-- The envelope segment of a move or leg: start and end (R107). -/
  segFrom : List Word64
  segTo : List Word64
  /-- The end waypoint of the present leg is the last (R100). -/
  legLast : Bool
  /-- The heading at entry to FOLLOW_TARGET (R101). -/
  psiIn : Word64
  /-- The tick stamp of the previous release. -/
  lastRel : Nat
  integ : List Word64
  sat : List Bool
  /-- The blend of R106: the demands before it, the DOFs blended, releases made. -/
  blend : Option (List Word64 × List Bool × Nat)
  /-- The wind filter of R104 and the environment filter of R102. -/
  wind : List Word64
  wv : List Word64
  /-- Joystick: the latest write (R105), the present demand, a running ramp: from what, since when. -/
  joyAt : Nat
  joy : List Word64
  joyRamp : Option (List Word64 × Nat)
  deriving DecidableEq, Repr

/-- A received record of a sender (R145 to R147): sender, kind, stamp, words. -/
structure InRec where
  node : Nat
  kind : Nat
  stamp : Stamp
  words : List Word
  deriving DecidableEq, Repr

/-- A command for one output (R144, R263): node, index, kind, three binary32 values. -/
structure Cmd where
  node : Nat
  idx : Nat
  kind : Nat
  v0 : Word
  v1 : Word
  v2 : Word
  deriving DecidableEq, Repr

/-- The estimator's part of a checkpoint (R77): state, covariance, initialised, settled, since when DR runs, the snap
instant the state belongs to, consecutive snaps of the better condition, the condition of the latest snap; whether station-keeping
has loaded an origin, and the origin in force before (R58, R108). -/
structure EstCk where
  x : List Word64
  p : List (List Word64)
  inited : Bool
  settled : Bool
  drAt : Option Nat
  lastSnap : Nat
  upCnt : Nat
  cond : Nat
  orgValid : Bool
  org : Option (List Word64)
  deriving DecidableEq, Repr

/-- A checkpoint's content (R185). The spec names the content and no layout of its bytes (log entry 30). `regs` holds
the registers of the listed content, `rejected` the rejected streams, `weights` the taut-wire weights, `trks` and
`lastPass` the tracks' filters with the snap of their latest pass, `theta` the previous azimuth commands, `records` and `env` the capability records held
and the envelopes latched at the snap, `cmds` the frames launched in the cycle to other nodes with their AUTH and REP flags, `image`
instance data and I/O images of marked tasks. -/
structure Ckpt where
  cyc : Word
  term : Word
  src : Nat
  regs : List (Nat × Word)
  est : EstCk
  rejected : List Nat
  weights : List (Nat × Word64 × Word64)
  trks : List Trk
  lastPass : Nat
  sk : Sk
  theta : List Word64
  records : List InRec
  env : List InRec
  envAt : Nat
  cmds : List Cmd
  auth : Bool
  rep : Bool
  image : List (Nat × Byte)
  deriving DecidableEq, Repr

/-- A position solved at an epoch (R222, R231): the antenna, the five values of R35, whether it is a carrier-phase solution with
corrections, and the ratio of its integer ambiguities' test with GLONASS in the fix and without it. -/
structure GnPos where
  ant : Fin 2
  vals : List Word64
  carrier : Bool
  ratio : Word64
  ratioNoGlo : Word64
  deriving DecidableEq, Repr

/-- What a tracking channel measured at an epoch (R227): the GLONASS slot, FLAGS, pseudorange, carrier phase, Doppler, lock time. -/
structure ObsIn where
  ch : Nat
  slot : Byte
  flags : Byte
  range : Word64
  phase : Word64
  dop : Word
  lock : Word
  deriving DecidableEq, Repr

/-- What the receiver measures and solves at an epoch (R222 to R232; log entry 36): positions; the baseline's azimuth and
length in mm where the integer fix of moving-baseline carrier phase is found; per antenna the Doppler velocity (speed, course);
per antenna the satellites with carrier lock since the previous epoch and the time-differenced carrier-phase velocity (three
components and sigma); TAI of the epoch; the satellites used of GPS, Galileo, BeiDou and GLONASS; their offsets to GPS time; per
channel its C/N0; the channels' observations; the receiver clock's offset to GPS time and its drift; and GLONASS's biases, one per
frequency channel from -7 to +6 (R230). -/
structure GnssEpoch where
  pos : List GnPos
  hdg : Option (Word64 × Nat)
  vel : List (Nat × List Word64)
  tdcp : List (Nat × Nat × List Word64)
  tai : Option Word64
  sats : List Nat
  iso : List Word
  chans : List (Nat × Nat)
  obs : List ObsIn
  clk : Word64 × Word64
  bias : List Word
  deriving DecidableEq, Repr

/-- The largest peak of a search (R224): code phase in 1/16 chip, Doppler in Hz, C/N0 in dB-Hz, and by how many dB it
exceeds the largest peak outside one chip of it; and the first bytes of the snapshot. -/
structure AcqPeak where
  code : BitVec 14
  dop : Word
  cn0 : Byte
  margin : Byte
  snap : List Byte
  deriving DecidableEq, Repr

/-- A demodulated message unit (R228, R229): system, SV, message, antenna, band, unit number, data bits, how long ago its first bit
arrived, the data, its check bits among them; the issue of the ephemeris it completes, the GPS-Galileo offset it
gives, the GPS UTC parameters it gives (TAI minus UTC in force, the leap pending: 0 none, 1 insert, 2 delete, and how many UTC
midnights ahead it lies, 1 the next), and whether it completes an almanac. -/
structure WordUnit where
  sys : Byte
  sv : Byte
  msg : Fin 8
  ant : Bool
  band : Bool
  unit : BitVec 16
  nbits : BitVec 16
  ago : Nat
  data : List Byte
  eph : Option Nat
  ggto : Option Word
  utc : Option (Byte × Fin 3 × Nat)
  almanac : Bool
  deriving DecidableEq, Repr

/-- A received Announce (R248): the sender's port identity, the grandmaster's identity, priorities, class, accuracy and variance,
stepsRemoved, currentUtcOffset with its flag, and the leap flags (0 none, 1 leap61, 2 leap59). -/
structure AnnMsg where
  src : BitVec 80
  gm : Word64
  prio1 : Byte
  cls : Byte
  acc : Byte
  var : BitVec 16
  prio2 : Byte
  steps : BitVec 16
  utc : BitVec 16
  utcValid : Bool
  leap : Fin 3
  deriving DecidableEq, Repr

end Sys2Proof.Machine
end

