-- ==== Sys2Proof/Syntax.lean ====
section
/-!
DEFINITION. The commands the block takes, one constructor per row of spec/opcode_table.json, with the operands each
needs: which domain writes (R14, R338), which instance of a unit is meant, the value written, or what arrives from
outside (frames as bytes, measured facts as values). Log entry 1 says how the operands were chosen.
-/
namespace Sys2Proof

/-- An I/O map entry (R301): address, offset in the task's image, direction (true: output), MODE, task, length in bytes. -/
structure IoEnt where
  addr : BitVec 40
  ofs : BitVec 20
  out : Bool
  mode : Bool
  task : Fin 16
  len : BitVec 16
  deriving DecidableEq, Repr

/-- A symbol entry (R301): symbol ID, address within its area, area (false instance, true I/O image), size as log2, SAFE tag,
type class, type signature. -/
structure SymEnt where
  ident : Word
  addr : BitVec 24
  area : Bool
  size : Fin 4
  safe : Bool
  cls : BitVec 4
  sig : Word
  deriving DecidableEq, Repr

/-- A carry map entry (R301): old offset, new offset, length, INIT or COPY. -/
structure CarryEnt where
  old : Word
  new : Word
  len : BitVec 24
  init : Bool
  deriving DecidableEq, Repr

/-- A task table entry (R301): BE_TCFG and BE_TPH values, entry address, instance area, input and output image, each as
offset in its area and size. -/
structure TaskDef where
  cfg : Word
  ph : Word
  entry : BitVec 17
  inst : Nat × Nat
  inp : Nat × Nat
  outp : Nat × Nat
  deriving DecidableEq, Repr

/-- A program section (R301), decoded: PSIG and carry base PSIG, 16 tasks, code per engine, instance initial data with the
size of its global area; the I/O map, symbol table and carry map as their bytes, which Decode.lean reads. The spec fixes no byte
layout of the header and the task table (log entry 39). -/
structure ProgSet where
  psig : Word
  base : Word
  tasks : List TaskDef
  code : List (List Byte)
  init : List Byte
  globalLen : Nat
  ioBytes : List (BitVec 8)
  symBytes : List (BitVec 8)
  carryBytes : List (BitVec 8)
  deriving DecidableEq, Repr

/-- The decoded content of a verified image (R347): the two signatures, the AUTORUN flag, the node tree as node IDs with their
personas, the system section, the register configuration, the GNSS section and the safety parameter block as address and value
pairs, and the program section. The spec fixes no byte layout inside these sections (log entry 39). -/
structure ImageCfg where
  psig : Word
  zalSig : Word
  autorun : Bool
  tree : List (Nat × Nat)
  sysRegs : List (Nat × Word)
  regs : List (Nat × Word)
  gnss : List (Nat × Word)
  kz : List (Nat × Word)
  prog : ProgSet
  deriving DecidableEq, Repr

/-- The four permission domains (R14, R338). -/
inductive Dom where
  | host | svc | safe | block
  deriving DecidableEq, Repr


/-- A complete NMEA 2000 message (R44): PGN, sender's address, data bytes. -/
structure PgnMsg where
  pgn : Nat
  sa : Byte
  data : List Byte
  deriving DecidableEq, Repr

/-- A Zaley HELLO (R47, R265). -/
structure Hello where
  src : Fin 512
  mac : BitVec 48
  persona : Fin 4
  level : Fin 4
  parent : Fin 512
  ha : Fin 8
  sig : Word
  deriving DecidableEq, Repr

/-- A check point of a running job (R111): whether it is a panel of its first factorisation or the end of an iteration, and
the scratch errors met on the way to it, corrected ones and an uncorrectable one (R110). -/
structure CheckPoint where
  panel : Bool
  corr : Nat
  ecc : Bool
  deriving DecidableEq, Repr

/-- What the balls of an encoder channel brought since the last lattice evaluation (R203): the levels of A and B one after the
other, and the data bits of the SSI frame that ended, first bit first. -/
structure EncIn where
  ab : List (Bool × Bool)
  frame : Option (List Bool)
  deriving DecidableEq, Repr

/-- What the lattice's own inputs give at an evaluation (R202, R203, R206, R209, R212): the balls of the encoder channels, the
readback levels of the safe outputs, the bits the modulator clock sampled at the ball of the rate input since the last
evaluation, oldest first, and whether the safety core reads a safe input otherwise. -/
structure LatIn where
  enc : List EncIn
  rb : BitVec 16
  rate : List Bool
  siDiff : Bool
  deriving DecidableEq, Repr


/-- The commands: one constructor per row of the opcode table: block code first, the rest as the table orders them. -/
inductive Instr where
  /-- TASK_TRAP (R286). A trap ends the run with no output copy and puts the task in FAULT. -/
  | taskTrap (e : Fin 8) (cause : Fin 3) (corr : Nat)
  /-- NOP (R310). Does nothing. -/
  | nop (e : Fin 8)
  /-- ADD (R310). Saturating integer addition. -/
  | add (e : Fin 8) (d a b : BitVec 5)
  /-- SUB (R310). Saturating integer subtraction. -/
  | sub (e : Fin 8) (d a b : BitVec 5)
  /-- ADDW (R310). Wrapping integer addition. -/
  | addw (e : Fin 8) (d a b : BitVec 5)
  /-- SUBW (R310). Wrapping integer subtraction. -/
  | subw (e : Fin 8) (d a b : BitVec 5)
  /-- MUL (R310). Saturating integer multiplication. -/
  | mul (e : Fin 8) (d a b : BitVec 5)
  /-- MULW (R310). Low 64 bits of an integer product. -/
  | mulw (e : Fin 8) (d a b : BitVec 5)
  /-- DIV (R310). Signed truncating division, with defined results for a zero divisor. -/
  | divS (e : Fin 8) (d a b : BitVec 5)
  /-- DIVU (R310). Unsigned division. -/
  | divu (e : Fin 8) (d a b : BitVec 5)
  /-- MOD (R310). Signed remainder. -/
  | modS (e : Fin 8) (d a b : BitVec 5)
  /-- NEG (R310). Saturating negation. -/
  | negS (e : Fin 8) (d a : BitVec 5)
  /-- ABS (R310). Saturating absolute value. -/
  | absS (e : Fin 8) (d a : BitVec 5)
  /-- MIN (R310). Signed minimum. -/
  | minS (e : Fin 8) (d a b : BitVec 5)
  /-- MAX (R310). Signed maximum. -/
  | maxS (e : Fin 8) (d a b : BitVec 5)
  /-- LIMIT (R310). Clamps A between B and C. -/
  | limitS (e : Fin 8) (d a b c : BitVec 5)
  /-- AND (R310). Bitwise and. -/
  | andB (e : Fin 8) (d a b : BitVec 5)
  /-- OR (R310). Bitwise or. -/
  | orB (e : Fin 8) (d a b : BitVec 5)
  /-- XOR (R310). Bitwise exclusive or. -/
  | xorB (e : Fin 8) (d a b : BitVec 5)
  /-- NOT (R310). Bitwise not. -/
  | notB (e : Fin 8) (d a : BitVec 5)
  /-- SHL (R310). Shift left. -/
  | shl (e : Fin 8) (d a b : BitVec 5)
  /-- SHR (R310). Logical shift right. -/
  | shr (e : Fin 8) (d a b : BitVec 5)
  /-- SAR (R310). Arithmetic shift right. -/
  | sar (e : Fin 8) (d a b : BitVec 5)
  /-- ROL (R310). Rotate left. -/
  | rol (e : Fin 8) (d a b : BitVec 5)
  /-- ROR (R310). Rotate right. -/
  | ror (e : Fin 8) (d a b : BitVec 5)
  /-- SATN (R310). Saturates A to a narrower width. -/
  | satn (e : Fin 8) (d a : BitVec 5) (sub : BitVec 4)
  /-- SEXT (R310). Sign-extends A. -/
  | sext (e : Fin 8) (d a : BitVec 5) (sub : BitVec 4)
  /-- ZEXT (R310). Zero-extends A. -/
  | zext (e : Fin 8) (d a : BitVec 5) (sub : BitVec 4)
  /-- BITX (R310). Extracts one bit. -/
  | bitx (e : Fin 8) (d a b : BitVec 5)
  /-- BITS (R310). Sets or clears one bit. -/
  | bits (e : Fin 8) (d a b c : BitVec 5)
  /-- SEL (R310). Selects B or A by C. -/
  | selB (e : Fin 8) (d a b c : BitVec 5)
  /-- CEQ (R310). Compares for equality. -/
  | ceq (e : Fin 8) (d a b : BitVec 5)
  /-- CNE (R310). Compares for inequality. -/
  | cne (e : Fin 8) (d a b : BitVec 5)
  /-- CLT (R310). Signed less-than compare. -/
  | clt (e : Fin 8) (d a b : BitVec 5)
  /-- CLE (R310). Signed less-or-equal compare. -/
  | cle (e : Fin 8) (d a b : BitVec 5)
  /-- CLTU (R310). Unsigned less-than compare. -/
  | cltu (e : Fin 8) (d a b : BitVec 5)
  /-- CLEU (R310). Unsigned less-or-equal compare. -/
  | cleu (e : Fin 8) (d a b : BitVec 5)
  /-- ADDI (R310). Saturating addition of an immediate. -/
  | addi (e : Fin 8) (d a : BitVec 5) (imm : BitVec 14)
  /-- ANDI (R310). And with an immediate. -/
  | andi (e : Fin 8) (d a : BitVec 5) (imm : BitVec 14)
  /-- ORI (R310). Or with an immediate. -/
  | ori (e : Fin 8) (d a : BitVec 5) (imm : BitVec 14)
  /-- XORI (R310). Exclusive or with an immediate. -/
  | xori (e : Fin 8) (d a : BitVec 5) (imm : BitVec 14)
  /-- SHLI (R310). Shift left by an immediate. -/
  | shli (e : Fin 8) (d a : BitVec 5) (imm : BitVec 14)
  /-- SHRI (R310). Logical shift right by an immediate. -/
  | shri (e : Fin 8) (d a : BitVec 5) (imm : BitVec 14)
  /-- SARI (R310). Arithmetic shift right by an immediate. -/
  | sari (e : Fin 8) (d a : BitVec 5) (imm : BitVec 14)
  /-- CEQI (R310). Compares for equality with an immediate. -/
  | ceqi (e : Fin 8) (d a : BitVec 5) (imm : BitVec 14)
  /-- CLTI (R310). Signed less-than compare with an immediate. -/
  | clti (e : Fin 8) (d a : BitVec 5) (imm : BitVec 14)
  /-- MOVI (R310). Loads a sign-extended immediate into a register. -/
  | movi (e : Fin 8) (a : BitVec 5) (imm : BitVec 19)
  /-- LDK (R310). Loads a 64-bit constant from code SRAM. -/
  | ldk (e : Fin 8) (a : BitVec 5) (imm : BitVec 19)
  /-- FADD (R311). Floating-point addition. -/
  | fadd (e : Fin 8) (d a b : BitVec 5)
  /-- FSUB (R311). Floating-point subtraction. -/
  | fsub (e : Fin 8) (d a b : BitVec 5)
  /-- FMUL (R311). Floating-point multiplication. -/
  | fmul (e : Fin 8) (d a b : BitVec 5)
  /-- FDIV (R311). Floating-point division. -/
  | fdiv (e : Fin 8) (d a b : BitVec 5)
  /-- FSQRT (R311). Floating-point square root. -/
  | fsqrt (e : Fin 8) (d a : BitVec 5)
  /-- FMA (R311). Fused multiply-add. -/
  | fma (e : Fin 8) (d a b c : BitVec 5)
  /-- FNMS (R311). Fused negative multiply-subtract. -/
  | fnms (e : Fin 8) (d a b c : BitVec 5)
  /-- FABS (R311). Clears the sign bit. -/
  | fabs (e : Fin 8) (d a : BitVec 5)
  /-- FNEG (R311). Inverts the sign bit. -/
  | fneg (e : Fin 8) (d a : BitVec 5)
  /-- FMIN (R311). Floating-point minimum. -/
  | fmin (e : Fin 8) (d a b : BitVec 5)
  /-- FMAX (R311). Floating-point maximum. -/
  | fmax (e : Fin 8) (d a b : BitVec 5)
  /-- FLIMIT (R311). Floating-point clamp. -/
  | flimit (e : Fin 8) (d a b c : BitVec 5)
  /-- FCEQ (R311). Floating-point equality compare. -/
  | fceq (e : Fin 8) (d a b : BitVec 5)
  /-- FCLT (R311). Floating-point less-than compare. -/
  | fclt (e : Fin 8) (d a b : BitVec 5)
  /-- FCLE (R311). Floating-point less-or-equal compare. -/
  | fcle (e : Fin 8) (d a b : BitVec 5)
  /-- FCUN (R311). Tests whether either operand is NaN. -/
  | fcun (e : Fin 8) (d a b : BitVec 5)
  /-- ITOF (R311). Converts a signed integer to binary64. -/
  | itof (e : Fin 8) (d a : BitVec 5)
  /-- FTOI (R311). Converts binary64 to a saturating signed integer. -/
  | ftoi (e : Fin 8) (d a : BitVec 5)
  /-- FRND (R311). Rounds to an integral value in a chosen mode. -/
  | frnd (e : Fin 8) (d a : BitVec 5) (sub : BitVec 4)
  /-- F32 (R311). Rounds to binary32 and widens back. -/
  | f32 (e : Fin 8) (d a : BitVec 5)
  /-- LD8S (R312). Loads one byte, sign-extended. -/
  | ld8s (e : Fin 8) (d x : BitVec 5) (sp : BitVec 2) (disp : BitVec 12)
  /-- LD8U (R312). Loads one byte, zero-extended. -/
  | ld8u (e : Fin 8) (d x : BitVec 5) (sp : BitVec 2) (disp : BitVec 12)
  /-- LD16S (R312). Loads two bytes, sign-extended. -/
  | ld16s (e : Fin 8) (d x : BitVec 5) (sp : BitVec 2) (disp : BitVec 12)
  /-- LD16U (R312). Loads two bytes, zero-extended. -/
  | ld16u (e : Fin 8) (d x : BitVec 5) (sp : BitVec 2) (disp : BitVec 12)
  /-- LD32S (R312). Loads four bytes, sign-extended. -/
  | ld32s (e : Fin 8) (d x : BitVec 5) (sp : BitVec 2) (disp : BitVec 12)
  /-- LD32U (R312). Loads four bytes, zero-extended. -/
  | ld32u (e : Fin 8) (d x : BitVec 5) (sp : BitVec 2) (disp : BitVec 12)
  /-- LD64 (R312). Loads eight bytes. -/
  | ld64 (e : Fin 8) (d x : BitVec 5) (sp : BitVec 2) (disp : BitVec 12)
  /-- LDF32 (R312). Loads a binary32 and widens it to binary64. -/
  | ldf32 (e : Fin 8) (d x : BitVec 5) (sp : BitVec 2) (disp : BitVec 12)
  /-- ST8 (R312). Stores one byte. -/
  | st8 (e : Fin 8) (d x : BitVec 5) (sp : BitVec 2) (disp : BitVec 12)
  /-- ST16 (R312). Stores two bytes. -/
  | st16 (e : Fin 8) (d x : BitVec 5) (sp : BitVec 2) (disp : BitVec 12)
  /-- ST32 (R312). Stores four bytes. -/
  | st32 (e : Fin 8) (d x : BitVec 5) (sp : BitVec 2) (disp : BitVec 12)
  /-- ST64 (R312). Stores eight bytes. -/
  | st64 (e : Fin 8) (d x : BitVec 5) (sp : BitVec 2) (disp : BitVec 12)
  /-- STF32 (R312). Stores a value rounded to binary32. -/
  | stf32 (e : Fin 8) (d x : BitVec 5) (sp : BitVec 2) (disp : BitVec 12)
  /-- LEA (R312). Computes an instance address. -/
  | lea (e : Fin 8) (d x : BitVec 5) (sp : BitVec 2) (disp : BitVec 12)
  /-- BR (R313). Branches unconditionally. -/
  | br (e : Fin 8) (imm : BitVec 19)
  /-- BZ (R313). Branches when the register is zero. -/
  | bz (e : Fin 8) (a : BitVec 5) (imm : BitVec 19)
  /-- BNZ (R313). Branches when the register is not zero. -/
  | bnz (e : Fin 8) (a : BitVec 5) (imm : BitVec 19)
  /-- CALL (R313). Pushes the return and calls a function. -/
  | call (e : Fin 8) (imm : BitVec 19)
  /-- CALLB (R313). Calls a block with a new instance pointer. -/
  | callb (e : Fin 8) (a : BitVec 5) (imm : BitVec 19)
  /-- RET (R313). Pops PC and IPTR. -/
  | ret (e : Fin 8)
  /-- END (R313). Ends the run and starts the output copy. -/
  | endRun (e : Fin 8)
  /-- RDST (R313). Reads BSTAT into a register. -/
  | rdst (e : Fin 8) (d : BitVec 5)
  /-- CLRST (R313). Clears the sticky SAT and INV bits. -/
  | clrst (e : Fin 8)
  /-- TON (R316). Evaluates an on-delay timer instance. -/
  | ton (e : Fin 8) (a : BitVec 5)
  /-- TOF (R316). Evaluates an off-delay timer instance. -/
  | tof (e : Fin 8) (a : BitVec 5)
  /-- TP (R316). Evaluates a pulse timer instance. -/
  | tp (e : Fin 8) (a : BitVec 5)
  /-- R_TRIG (R317). Detects a rising edge. -/
  | rTrig (e : Fin 8) (a : BitVec 5)
  /-- F_TRIG (R317). Detects a falling edge. -/
  | fTrig (e : Fin 8) (a : BitVec 5)
  /-- CTU (R317). Evaluates an up-counter. -/
  | ctu (e : Fin 8) (a : BitVec 5)
  /-- CTD (R317). Evaluates a down-counter. -/
  | ctd (e : Fin 8) (a : BitVec 5)
  /-- CTUD (R317). Evaluates an up-down counter. -/
  | ctud (e : Fin 8) (a : BitVec 5)
  /-- SR (R315). Evaluates a set-dominant bistable. -/
  | srBlock (e : Fin 8) (a : BitVec 5)
  /-- RS (R315). Evaluates a reset-dominant bistable. -/
  | rsBlock (e : Fin 8) (a : BitVec 5)
  /-- SIN (R315). Library sine. -/
  | sinF (e : Fin 8) (a : BitVec 5)
  /-- COS (R315). Library cosine. -/
  | cosF (e : Fin 8) (a : BitVec 5)
  /-- TAN (R315). Library tangent. -/
  | tanF (e : Fin 8) (a : BitVec 5)
  /-- ASIN (R315). Library arcsine. -/
  | asinF (e : Fin 8) (a : BitVec 5)
  /-- ACOS (R315). Library arccosine. -/
  | acosF (e : Fin 8) (a : BitVec 5)
  /-- ATAN (R315). Library arctangent. -/
  | atanF (e : Fin 8) (a : BitVec 5)
  /-- ATAN2 (R315). Library two-argument arctangent. -/
  | atan2F (e : Fin 8) (a : BitVec 5)
  /-- EXP (R315). Library exponential. -/
  | expF (e : Fin 8) (a : BitVec 5)
  /-- LN (R315). Library natural logarithm. -/
  | lnF (e : Fin 8) (a : BitVec 5)
  /-- LOG (R315). Library base-10 logarithm. -/
  | logF (e : Fin 8) (a : BitVec 5)
  /-- EXPT (R315). Library power function. -/
  | exptF (e : Fin 8) (a : BitVec 5)
  /-- REGISTER_WRITE (R14). A write to a register that has no row of its own is checked against the writing domain, reserved bits and any key, and is then applied or discarded. -/
  | registerWrite (d : Dom) (a : BitVec 40) (v : Word)
  /-- READ_TO_CLEAR (R13). A read of an RC field returns its value and clears it, with a coinciding event kept afterwards. -/
  | readToClear (d : Dom) (a : BitVec 40)
  /-- CYCLE_TICK (R17). Device time reaches a multiple of T_DP, so the cycle tick falls and SYS_CYC_NUM and the tick stamp are updated. -/
  | cycleTick
  /-- CHECKPOINT_ABANDON (R26). A checkpoint not complete at the next tick is abandoned and CKPT_FAIL sets. -/
  | checkpointAbandon
  /-- PROJECTION_PHASE (R60). At the PH_PROJ instant the projection batch starts as one C1 job. -/
  | projectionPhase
  /-- ESTIMATOR_START (R67). At PH_EST, or at batch completion if that is later, the time update starts as the first KF_UPDATE job. -/
  | estimatorStart
  /-- ESTIMATE_PUBLISH (R21). At PH_SK the estimator publishes FE_EST_OUT and aborts unfinished updates, setting EST_SHORT. -/
  | estimatePublish
  /-- QP_LAUNCH (R133). At PH_QP the master latches its allocation inputs and launches pass 0 of the QP chain. -/
  | qpLaunch
  /-- COMMAND_LAUNCH (R25). At PH_LAUNCH the staged command frames are launched, or the previous commands are sent again with OUT_MISS. -/
  | commandLaunch
  /-- OUTPUT_MISS_DEMOTE (R25). When MISS_MAX consecutive output misses are reached, the MASTER stops its heartbeats and enters DEMOTED. -/
  | outputMissDemote
  /-- CHECKPOINT_SEND (R184). At PH_CKPT the ACTIVE unit sends its checkpoint on P2 as a run of frames. -/
  | checkpointSend
  /-- ASSIGN_LAUNCH (R89). At PH_CKPT of a return-bearing cycle in ASSIGN mode, the tracker builds the cost matrix and launches an ASSIGN job. -/
  | assignLaunch
  /-- RUN_START (R27). A 0 to 1 write of SYS_CYC_CTRL.RUN applies the held writes, runs the configuration check, and starts the cycle or sets CFGERR. -/
  | runStart (d : Dom)
  /-- RUN_STOP (R130). Writing RUN to 0 stops the cycle and ends internal-unit jobs ABORTED with reason STOP. -/
  | runStop (d : Dom)
  /-- HEAD_LAUNCH (R29). At its launch instant a head launches its children's commands or writes its setpoints, repeating them on a miss. -/
  | headLaunch
  /-- HEAD_STOP (R30). After MISS_MAX consecutive misses a head stops launching and writing setpoints. -/
  | headStop
  /-- SENTENCE_RECEIVE (R40). A complete IEC 61162-1 sentence is checked, parsed and delivered to every matching stream. -/
  | sentenceReceive (p : Fin 16) (b : List Byte) (ago : Nat)
  /-- GST_MERGE_EXPIRE (R41). A GST with no matching position sample within 100 ms is no longer merged. -/
  | gstMergeExpire
  /-- BINARY_FRAME_RECEIVE (R46). A Xedigan binary sensor frame is CRC-checked, validated and delivered as queue entries. -/
  | binaryFrameReceive (p : Fin 16) (b : List Byte) (ago : Nat)
  /-- RTCM_FRAME_RECEIVE (R45). An RTCM 10403.3 frame is checked and its supported messages are passed to the GNSS receiver. -/
  | rtcmFrameReceive (p : Fin 16) (b : List Byte) (ago : Nat)
  /-- PGN_RECEIVE (R44). A complete NMEA 2000 message is matched to streams by its sender's NAME and parsed. -/
  | pgnReceive (c : Fin 4) (x : PgnMsg) (ago : Nat)
  /-- FAST_PACKET_TIMEOUT (R44). A fast packet still incomplete 750 ms after its first frame is discarded and counts INVALID. -/
  | fastPacketTimeout
  /-- ISO_REQUEST_RECEIVE (R44). An ISO request on PGN 59904 for address claim is answered with the controller's claim. -/
  | isoRequestReceive (c : Fin 4) (dst : Byte) (pgn : Nat)
  /-- ADDRESS_CLAIM_RECEIVE (R282). An address claim on PGN 60928 updates the NAME table entry's address and PRESENT. -/
  | addressClaimReceive (c : Fin 4) (name : Word64) (sa : Byte)
  /-- UDPBC_DATAGRAM (R43). An IEC 61162-450 datagram is deduplicated, and its sentences are parsed into the flow's streams. -/
  | udpbcDatagram (p : Fin 2) (group : Fin 16) (binaryKind : Bool) (src : Word64) (line : Nat) (c : Option Int) (xs : List (List Byte)) (ago : Nat)
  /-- FLOW_DATAGRAM (R267). A UDP datagram matching a KIND 1 or 2 flow is taken as binary sensor frames or RTCM frames. -/
  | flowDatagram (p : Fin 2) (udp : BitVec 16) (ip : Word) (fs : List (List Byte)) (ago : Nat)
  /-- STREAM_ENABLE (R34). Setting FE_SC_CFG.EN enables the stream and puts its offset tracker in LEARNING. -/
  | streamEnable (d : Dom) (n : Fin 128) (v : Word)
  /-- STREAM_DISABLE (R34). Clearing EN flushes the ingress queue, clears the rejection counters and makes the stream ABSENT at the next snap. -/
  | streamDisable (d : Dom) (n : Fin 128) (v : Word)
  /-- OFSCFG_WRITE (R54). A write to FE_SC_OFSCFG restarts learning, as if OWNSTAMP had gone from 0 to 1. -/
  | ofscfgWrite (d : Dom) (n : Fin 128) (v : Word)
  /-- FE_SC_OFSL_READ (R54). Reading FE_SC_OFSL returns the low word of OFS and latches the high word. -/
  | feScOfslRead (n : Fin 128)
  /-- UART_CHARACTER_RECEIVE (R42). A character arrives on a UART, is checked for framing and parity, and goes to the parser or the raw FIFO. -/
  | uartCharacterReceive (p : Fin 16) (ch : Byte) (ferr perr : Bool)
  /-- UART_BREAK (R42). A line held low for longer than one frame sets BRK and discards the sentence or frame in progress. -/
  | uartBreak (p : Fin 16)
  /-- UART_DATA_READ (R42). A read of UART_DATA pops the raw receive FIFO and sets VALID. -/
  | uartDataRead (p : Fin 16)
  /-- UART_DATA_WRITE (R42). A write of UART_DATA pushes a byte into the transmit FIFO, or is discarded when the FIFO is full. -/
  | uartDataWrite (d : Dom) (p : Fin 16) (v : Word)
  /-- HELLO_RECEIVE (R47). A Zaley HELLO updates the peer table and admits, refuses or refreshes the peer. -/
  | helloReceive (p : Fin 4) (b : List Byte)
  /-- HELLO_SEND (R258). Every 100 ms each plant port sends a HELLO frame to all devices. -/
  | helloSend (p : Fin 4)
  /-- PEER_DETACH (R47). An admitted peer with no HELLO for 350 ms is DETACHED, and its streams set GONEF. -/
  | peerDetach (n : Fin 512)
  /-- COMMISSION_WRITE (R48). A write to COMMISSION is judged against RUN, and a 1 to 0 change detaches the peers admitted with SIGMATCH 0. -/
  | commissionWrite (d : Dom) (v : Word)
  /-- FD_COMMIT_WRITE (R57). Writing a stream ID to FP_FD_COMMIT marks that stream's shadow descriptor for the next snap. -/
  | fdCommitWrite (d : Dom) (v : Word)
  /-- DR_EXPIRE (R74). The dead-reckoning timer passing DR_MAX turns Q2 into Q3 or Q4. -/
  | drExpire
  /-- QUALITY_UPGRADE (R74). The QUP_N-th consecutive snap with a better condition raises the quality. -/
  | qualityUpgrade
  /-- RESET_EST (R75). Writing 1 to RESET_EST makes the estimator uninitialised at Q4 from the next snap. -/
  | resetEst (d : Dom)
  /-- SURVEY_EPOCH_STORE (R79). Every DECIM-th snap while recording at Q0 or Q1 stores one epoch in the DRAM buffer. -/
  | surveyEpochStore
  /-- SURVEY_REC_WRITE (R79). Writing REC from 0 to 1 discards the stored epochs and any proposal, and starts recording. -/
  | surveyRecWrite (d : Dom) (v : Word)
  /-- SURVEY_RESUBMIT (R80). A survey linearisation refused with REFUSED_FULL is submitted again at the next cycle. -/
  | surveyResubmit
  /-- SURVEY_TIMEOUT (R80). With no proposal after 3 s, SURVEY_RUN answers TIMEOUT and PSTATE returns to NONE. -/
  | surveyTimeout
  /-- TRACK_COAST_EXPIRE (R85). A confirmed or coasting track with no hit for COAST_MS is freed. -/
  | trackCoastExpire (j : Fin 64)
  /-- FORCE_ASSIGN (R88). Writing 1 to TRK_CTRL.FORCE_ASSIGN enters ASSIGN mode at the next snap with cause 5. -/
  | forceAssign (d : Dom)
  /-- TRACKER_ENABLE (R88). Writing TRK_CTRL.EN from 0 to 1 enters ASSIGN mode with cause 1. -/
  | trackerEnable (d : Dom) (v : Word)
  /-- SK_CMD_MODE (R96). Writing SK_CMD with OP 1 latches a mode request. -/
  | skCmdMode (d : Dom) (mode : BitVec 3) (keep : Bool)
  /-- SK_CMD_STAKE_HERE (R96). Writing SK_CMD with OP 2 latches a STAKE_HERE request. -/
  | skCmdStakeHere (d : Dom)
  /-- SK_CMD_MOVE (R96). Writing SK_CMD with OP 3 latches a MOVE request to the target registers. -/
  | skCmdMove (d : Dom)
  /-- SK_CMD_HALT_MOVE (R96). Writing SK_CMD with OP 4 latches a HALT_MOVE request. -/
  | skCmdHaltMove (d : Dom)
  /-- JOYSTICK_WRITE (R105). A finite write of SK_JOY_X, Y or N restarts the joystick timer and clears JOY_STALE. -/
  | joystickWrite (d : Dom) (i : Fin 3) (v : Word)
  /-- JOYSTICK_TIMEOUT (R105). No joystick write for JOY_TMO_MS sets JOY_STALE and ramps the J DOFs to zero. -/
  | joystickTimeout
  /-- JOB_SUBMIT (R113). A write of JF_SUBL submits a descriptor, which is read, checked and admitted, refused or dropped. -/
  | jobSubmit (d : Dom) (x : Fin 11) (v : Word)
  /-- SUBMIT_HOLD_RELEASE (R114). A submission held on a full queue is taken when an entry frees. -/
  | submitHoldRelease
  /-- JOB_DISPATCH (R127). A waiting job is dispatched to a free lane group or engine by class, deadline and order. -/
  | jobDispatch
  /-- JOB_CHECK_POINT (R118). A running job reaches a check point, where its deadline, convergence and pending aborts are tested. -/
  | jobCheckPoint (i : Nat) (c : CheckPoint)
  /-- JOB_RESUME (R127). A suspended job resumes after its lane groups have been idle for IDLE_US. -/
  | jobResume (i : Nat) (corr : Nat) (ecc : Bool)
  /-- JOB_COMPLETE (R116). A job finishes and its completion record is written, with VALID last. -/
  | jobComplete (i : Nat) (corr : Nat) (ecc : Bool)
  /-- JOB_DELAYED (R122). A job whose deadline passes before it is dispatched or resumed ends without running. -/
  | jobDelayed (i : Nat) (corr : Nat) (ecc : Bool)
  /-- KF_DEADLINE_ABORT (R121). A KF_UPDATE whose deadline passes stops at once and ends ABORTED with reason DEADLINE. -/
  | kfDeadlineAbort (i : Nat)
  /-- JOB_ABORT (R129). A write of JF_ABORT aborts a job, and JF_ABRES reports the outcome. -/
  | jobAbort (d : Dom) (v : Word) (corr : Nat) (ecc : Bool)
  /-- ALC_COMMIT_WRITE (R149). Writing a slot number to ALC_COMMIT marks that slot's shadow for copy at the next latch. -/
  | alcCommitWrite (d : Dom) (v : Word)
  /-- SRV_ENABLE (R157). An ENABLE request to SRV_LREQ is judged and takes the loop to LOOP_OPEN at the next period start. -/
  | srvEnable (d : Dom) (n : Fin 24)
  /-- SRV_DISABLE (R157). A DISABLE request writes SAFE_OUT once and takes the loop to DISABLED. -/
  | srvDisable (d : Dom) (n : Fin 24)
  /-- SRV_OPEN (R157). An OPEN request takes the loop to LOOP_OPEN with OPEN_OUT set. -/
  | srvOpen (d : Dom) (n : Fin 24)
  /-- SRV_CLOSE (R157). A CLOSE request closes the loop at the period start if its feedback is valid. -/
  | srvClose (d : Dom) (n : Fin 24)
  /-- SRV_COMMIT (R158). A COMMIT request checks the shadow coefficient set and copies it at the next period start. -/
  | srvCommit (d : Dom) (n : Fin 24)
  /-- SERVO_PERIOD_START (R150). At a loop's period start, pending requests, commits and new setpoints are applied. -/
  | servoPeriodStart (n : Fin 24)
  /-- SERVO_OUTPUT (R151). At OUT_PH the loop latches its feedback, computes the law and writes its output. -/
  | servoOutput (n : Fin 24) (moved : List (Fin 12 × Int))
  /-- SERVO_TICK (R152). At each 125 µs servo tick, loops take command entries whose take time has come. -/
  | servoTick
  /-- FB_HOLD_EXPIRE (R157). A loop in HOLD for FB_HOLD periods goes to FAULT with SAFE_OUT. -/
  | fbHoldExpire (n : Fin 24)
  /-- SETPOINT_TIMEOUT (R153). No entry taken for SP_TMO_MS sets SP_STALE and holds the setpoint or applies SAFE_SP. -/
  | setpointTimeout (n : Fin 24)
  /-- PLAUSIBILITY_MISMATCH (R160). A model mismatch for PL_N periods sets PLAUS and may trip the loop to FAULT. -/
  | plausibilityMismatch (n : Fin 24) (moved : List (Fin 12 × Int))
  /-- INJ_GO (R161). Writing INJ_GO starts an injection at the next period start, or refuses it with INJ_REF. -/
  | injGo (d : Dom) (n : Fin 24)
  /-- INJ_STOP (R161). Writing INJ_STOP ends the running injection. -/
  | injStop (d : Dom) (n : Fin 24)
  /-- INJECTION_TSTART (R161). An injection with START 1 begins at the first period start at or after TSTART. -/
  | injectionTstart (n : Fin 24)
  /-- INJECTION_END (R161). An injection ends after DUR periods. -/
  | injectionEnd (n : Fin 24)
  /-- CAPTURE_ARM (R162). Arming a capture unit checks its channels and starts pre-trigger recording. -/
  | captureArm (d : Dom) (u : Fin 2)
  /-- CAPTURE_ABORT (R162). Writing ABORT stops the capture unit. -/
  | captureAbort (d : Dom) (u : Fin 2)
  /-- CAPTURE_TRIGGER (R162). The capture trigger condition occurs, and recording of the post-trigger samples starts. -/
  | captureTrigger (u : Fin 2)
  /-- CAPTURE_COMPLETE (R162). A capture completes and is copied to a DRAM slot or held in the buffer. -/
  | captureComplete (u : Fin 2)
  /-- SRV_TBL_DATA_ACCESS (R155). An access to SRV_TBL_DATA reads or writes one table entry and increments IDX. -/
  | srvTblDataAccess (wr : Option (Dom × Word))
  /-- ENCODER_ILLEGAL_TRANSITION (R163). An illegal quadrature transition counts ERR_CNT and invalidates the channel until the next latch. -/
  | encoderIllegalTransition (c : Fin 12)
  /-- ENCODER_INDEX_PULSE (R163). An index pulse with IDX_CLR set clears the position. -/
  | encoderIndexPulse (c : Fin 12)
  /-- SSI_FRAME (R163). An SSI frame starts at SSI_PH after a period start and reads the position, or counts an error. -/
  | ssiFrame (c : Fin 12) (data : Word) (parityBad errBit : Bool)
  /-- ENCODER_CONFIG_WRITE (R163). A write to ENC_CFG, ENC_PH or ENC_CPR takes effect at once and invalidates the channel for one latch. -/
  | encoderConfigWrite (d : Dom) (c : Fin 12) (r : Fin 3) (v : Word)
  /-- DSF_OUTPUT_SAMPLE (R165). A decimation chain produces an output sample with its stamp and proofing state. -/
  | dsfOutputSample (n : Fin 24) (own pair : List Bool)
  /-- PROOFING_DONE (R168). The proofing count of a channel runs out and the channel becomes proofed. -/
  | proofingDone (n : Fin 24) (own pair : List Bool)
  /-- RMS_BLOCK_END (R170). The end of an RMS block updates RMS. -/
  | rmsBlockEnd (n : Fin 24) (own pair : List Bool)
  /-- DATA_STUCK (R168). No data transition for 1024 modulator clocks sets STUCK and unproofs the channel. -/
  | dataStuck (n : Fin 24)
  /-- DATA_ACTIVE (R168). Data activity returning after STUCK starts a proofing count. -/
  | dataActive (n : Fin 24)
  /-- DSF_ENABLE (R168). Setting DSF_CFG.EN starts the channel and its proofing count. -/
  | dsfEnable (d : Dom) (n : Fin 24)
  /-- DSF_SRC_CHANGE (R177). Changing SRC while enabled restarts proofing and ends any bank swap. -/
  | dsfSrcChange (d : Dom) (n : Fin 24) (src : Fin 4)
  /-- DSF_ENSET_WRITE (R172). A DSF_ENSET mask enables the named channels on one common modulator clock edge. -/
  | dsfEnsetWrite (d : Dom) (v : Word)
  /-- SYNC_BALL_EDGE (R173). A rising edge on the SYNC ball with BALL_EN set causes a SYNC reset. -/
  | syncBallEdge
  /-- SYNC_ARM (R173). Writing ARM arms a SYNC at DSF_SYNC_AT, or refuses it with ARM_LATE. -/
  | syncArm (d : Dom)
  /-- SYNC_AT_REACHED (R173). Device time reaches an armed DSF_SYNC_AT and a SYNC reset occurs. -/
  | syncAtReached
  /-- BANK_REQUEST (R175). A DSF_BANKREQ write starts a bank swap, is queued or is a no-op. -/
  | bankRequest (d : Dom) (n : Fin 24) (bank : Bool)
  /-- PRIME_END (R175). The priming count ends, so the channel is proofed and FADE starts. -/
  | primeEnd (n : Fin 24) (own pair : List Bool)
  /-- FADE_END (R176). FADE ends, the target bank becomes active, and any queued request is taken. -/
  | fadeEnd (n : Fin 24) (own pair : List Bool)
  /-- COEF_WRITE (R174). A write of DSF_COEF_DATA loads a coefficient into an idle bank, or is discarded. -/
  | coefWrite (d : Dom) (v : Word)
  /-- DSF_TSL_READ (R167). Reading DSF_TSL returns the stamp's low word and latches its high word. -/
  | dsfTslRead (n : Fin 24)
  /-- HEARTBEAT_SEND (R181). Every 4 µs a unit sends a heartbeat on each guy line. -/
  | heartbeatSend
  /-- HEARTBEAT_RECEIVE (R181). A heartbeat block arrives and is validated, updating the partner state and the term. -/
  | heartbeatReceive (line : Fin 2) (b : BitVec 72)
  /-- HEARTBEAT_PERIOD_END (R183). At the end of each 4 µs period each line is judged silent or not. -/
  | heartbeatPeriodEnd
  /-- LINE_LOST (R183). A third consecutive silent period loses a line and sets LINE_LOST. -/
  | lineLost (line : Fin 2)
  /-- LINE_RETURN (R183). RET_N consecutive live periods return a lost line, and can bring ISOLATED back to ACTIVE. -/
  | lineReturn (line : Fin 2)
  /-- BOTH_LINES_SILENT (R180). Both lines silent for three periods makes the unit seize, block its seizure or become ISOLATED, by its state. -/
  | bothLinesSilent
  /-- FIRST_CYCLE (R194). The first tick at or after t_d + 50 µs starts the seized unit's first cycle, as ACTIVE or ISOLATED. -/
  | firstCycle
  /-- CHECKPOINT_FRAME_RECEIVE (R184). A checkpoint frame arrives in the standby's receive buffer. -/
  | checkpointFrameReceive (hb : BitVec 72) (frag nfrag : Nat) (cyc : Word) (total ns : Nat) (cut crc : Bool) (data : Machine.Ckpt)
  /-- TERM_RELAY (R190). After its AON write, a HEAD that raised its gate sends a TERM frame to its children. -/
  | termRelay
  /-- HA_CTRL_GO_ACTIVE (R195). A keyed GO_ACTIVE write to HA_CTRL is judged and starts a seizure. -/
  | haCtrlGoActive (d : Dom) (key : BitVec 16)
  /-- HA_CTRL_DEMOTE (R195). A keyed DEMOTE write to HA_CTRL demotes the ACTIVE unit for a planned handover. -/
  | haCtrlDemote (d : Dom) (key : BitVec 16)
  /-- HA_CTRL_REJOIN (R195). A keyed REJOIN write to HA_CTRL moves a DEMOTED unit to BIVOUAC or ISOLATED. -/
  | haCtrlRejoin (d : Dom) (key : BitVec 16)
  /-- PAIR_EN_WRITE (R179). A change of HA_CFG.PAIR_EN while RUN is 0 moves the unit to ISOLATED or BIVOUAC. -/
  | pairEnWrite (d : Dom) (en : Bool)
  /-- HA_TDL_READ (R188). Reading HA_TDL returns the low word of t_d and latches its high word. -/
  | haTdlRead
  /-- HA_LHBL_READ (R188). Reading HA_LHBL returns the last heartbeat stamp's low word and latches its high word. -/
  | haLhblRead
  /-- GNSS_REFRESH (R196). Every REFRESH_MIN minutes in bivouac the GNSS domains are powered to renew the ephemerides. -/
  | gnssRefresh
  /-- GNSS_REFRESH_END (R196). After 60 s of refresh the GNSS domains power down again. -/
  | gnssRefreshEnd
  /-- LATTICE_EVALUATION (R209). Every 10 µs the lattice evaluates its output checks, faults and sectors, and drives its switches. -/
  | latticeEvaluation (x : LatIn)
  /-- CHANNEL_TRIP (R211). A violation held for SLT_MS or SSE_MS trips the channel and opens the outputs in its SO_MASK. -/
  | channelTrip (c : Fin 24) (x : LatIn)
  /-- DEGRADED_TIMEOUT (R200). The degraded timer reaching DEG_MAX_S takes the lattice to WITHDRAWN. -/
  | degradedTimeout
  /-- DEGRADED_CLEAR (R200). No fault active for CLR_MS returns the lattice from DEGRADED to ARMED. -/
  | degradedClear
  /-- AUTOARM (R200). In OFF with AUTOARM set, ARM_READY becoming true arms the lattice. -/
  | autoarm
  /-- ARM (R219). An ARM request in SYS_SAFE_REQ is judged by the safety core and arms the lattice. -/
  | armLattice (d : Dom) (key : BitVec 16)
  /-- WITHDRAW (R219). A WITHDRAW request is accepted and takes the lattice to WITHDRAWN. -/
  | withdraw (d : Dom) (key : BitVec 16)
  /-- CLEAR_TRIP (R219). A CLEAR_TRIP request clears a channel's trip once its violations are clear. -/
  | clearTrip (d : Dom) (key : BitVec 16) (c : Fin 24)
  /-- CLEAR_FAULTS (R219). A CLEAR_FAULTS request in OFF or WITHDRAWN clears the latched faults whose condition has gone. -/
  | clearFaults (d : Dom) (key : BitVec 16)
  /-- SAFETY_CORE_HEARTBEAT (R201). A safety core heartbeat reaches the lattice and sets SC_ALIVE. -/
  | safetyCoreHeartbeat
  /-- SAFETY_CORE_TIMEOUT (R201). No safety core heartbeat for 300 µs latches SCWD and withdraws authority. -/
  | safetyCoreTimeout
  /-- DISAGREE_FAULT (R201). A difference in verdict between lattice and safety core for CMP_MS raises DISAGREE. -/
  | disagreeFault (x : LatIn)
  /-- READBACK_FAULT (R201). An output that reads back wrong for 50 µs latches READBACK and opens its switches. -/
  | readbackFault (x : LatIn)
  /-- OSC_FAULT (R201). SAFE_OSC and CLK_GN differing by more than 1 % over 1 ms latches OSC. -/
  | oscFault
  /-- OFF_PULSE_TEST (R216). In each 250 ms frame an energised output is pulsed low and its readback is checked. -/
  | offPulseTest (k : Fin 16) (low high : Bool)
  /-- SAFE_INPUT_CHANGE (R206). A safe input level held for 2 ms changes sector conditions and pair activity. -/
  | safeInputChange (i : Fin 16) (level : Bool)
  /-- SIDISC_FAULT (R215). A safe-input pair that is discrepant for DISC_MS raises SIDISC. -/
  | sidiscFault (p : Fin 8)
  /-- SRT_BLOCK (R212). Each 1 ms block of rate-gyro samples is compared with SRT_LIM. -/
  | srtBlock
  /-- SRT_TRIP (R212). A rate above SRT_LIM in every block for SRT_MS withdraws all authority. -/
  | srtTrip
  /-- SPE_TRIP (R213). e above SPE_RTRIP at SPE_N consecutive publications withdraws all authority. -/
  | speTrip
  /-- GRACE_END (R208). GRACE_MS after a tightening, the output checks take the tightened limit. -/
  | graceEnd (c : Fin 24)
  /-- SAFETY_PARAM_LOAD (R218). The safety core writes the safety parameter block into the KZ registers in OFF or WITHDRAWN. -/
  | safetyParamLoad
  /-- AUTH_TIMEOUT (R198). AUTH_TMO_MS after the last accepted command frame, a HEAD or NODE loses entitlement. -/
  | authTimeout
  /-- GNSS_EPOCH (R222). At a measurement epoch the receiver solves and writes its internal stream entries. -/
  | gnssEpoch (g : Machine.GnssEpoch)
  /-- ACQ_REQUEST (R225). A GO write to GN_ACQ_REQ queues a search, or refuses it. -/
  | acqRequest (d : Dom) (v : Word)
  /-- AUTO_SEARCH (R225). Under AUTO the tracking sequencer plans and starts a search of its own. -/
  | autoSearch (req dop : Word)
  /-- ACQ_COMPLETE (R224). A search completes with FOUND or NOT_FOUND, and a success hands over to a channel. -/
  | acqComplete (k : Machine.AcqPeak)
  /-- CHANNEL_ASSIGN (R226). A write of GN_CHn CTRL assigns a channel, or is discarded while it tracks. -/
  | channelAssign (d : Dom) (n : Fin 192) (v : Word)
  /-- CHANNEL_LOST_RELEASE (R226). Under AUTO a LOST channel is released after 2 s. -/
  | channelLostRelease (n : Fin 192)
  /-- WORD_RECORD (R228). A demodulated message unit is checked and written as a word record. -/
  | wordRecord (u : Machine.WordUnit)
  /-- ANTENNA_SHORT (R221). Antenna current above 120 mA for 10 µs opens the bias switch and sets SHORT. -/
  | antennaShort (a : Fin 2) (ma : Byte)
  /-- WINDBREAK_SEARCH (R233). Every 10 ms each auto windbreak searches for a narrowband line and locks or releases. -/
  | windbreakSearch (lines : List (Fin 4 × Int × Nat))
  /-- JAMMING_INDICATOR (R234). Every 10 ms each path computes its jamming indicator JI. -/
  | jammingIndicator (levels : List (Int × Int))
  /-- JI_CAL (R234). Writing CAL captures the present noise floor and gain as the quiet values. -/
  | jiCal (d : Dom)
  /-- GNSS_TIME_SOLUTION (R235). A GNSS time solution moves GN_TQ under its offset rules. -/
  | gnssTimeSolution (ofs : Int) (sigma : Nat)
  /-- GNSS_TIME_LOSS (R235). No time solution for LOSS_MS takes GN_TQ to HOLDOVER. -/
  | gnssTimeLoss
  /-- GNSS_SLEEP (R237). Writing GN_CFG.EN to 0 powers GNBB and GNRF down. -/
  | gnssSleep (d : Dom) (v : Word)
  /-- REFERENCE_OFFSET (R243). A reference delivers an offset, which disciplines, slews, refuses or changes the reference. -/
  | referenceOffset (ptp : Bool) (ofs : Int) (sigma : Nat)
  /-- REFERENCE_LOSS (R243). No offset from the reference in use for LOSS_MS takes the time base to HOLDOVER. -/
  | referenceLoss
  /-- SLEW_END (R243). The remaining offset of a slew reaches 20 ns and the time base becomes LOCKED. -/
  | slewEnd
  /-- TIME_STEP_BY_OFFSET (R244). A keyed TIME_STEP write with MODE 1 steps the count by the negated TIME_OFS, or is refused. -/
  | timeStepByOffset (d : Dom) (key : BitVec 16)
  /-- TIME_STEP_TO_SET (R244). A keyed TIME_STEP write with MODE 2 sets the count to TIME_SET, or is refused. -/
  | timeStepToSet (d : Dom) (key : BitVec 16)
  /-- PRI_CLEAR (R243). Writing TIME_REF.PRI to 0 takes the time base to FREERUN. -/
  | priClear (d : Dom)
  /-- TIME_INC_WRITE (R242). A write of TIME_INC while PRI is 0 sets the increment, clamped to its range. -/
  | timeIncWrite (d : Dom) (hi : Bool) (v : Word)
  /-- TIME_NOW_READ (R240). Reading TIME_NOWL returns the low count and latches the high count and the fraction. -/
  | timeNowRead
  /-- SYS_CYC_T0L_READ (R17). Reading SYS_CYC_T0L returns the tick stamp's low word and latches T0_HI. -/
  | sysCycT0lRead
  /-- TAI_UTC_WRITE (R247). A write of TIME_LEAP sets TAI_UTC when no reference has given a value. -/
  | taiUtcWrite (d : Dom) (v : Word)
  /-- LEAP_SECOND (R247). At the UTC midnight of a pending leap second, TAI_UTC changes. -/
  | leapSecond
  /-- PTP_SYNC_RECEIVE (R241). A PTP Sync is received on a slave port and yields an offset when one-step. -/
  | ptpSyncReceive (p : Fin 2) (seq : BitVec 16) (twoStep : Bool) (origin : Int)
  /-- PTP_FOLLOW_UP_RECEIVE (R241). A Follow_Up completes a two-step Sync and yields its offset. -/
  | ptpFollowUpReceive (p : Fin 2) (seq : BitVec 16) (origin : Int)
  /-- PTP_DELAY_REQ_RECEIVE (R248). A Delay_Req received on a master port is answered with a Delay_Resp. -/
  | ptpDelayReqReceive (p : Fin 2) (seq : BitVec 16) (corr : Int) (src : BitVec 80)
  /-- PTP_DELAY_RESP_RECEIVE (R241). A Delay_Resp completes an E2E delay measurement. -/
  | ptpDelayRespReceive (p : Fin 2) (seq : BitVec 16) (t4 : Int)
  /-- PTP_PDELAY_REQ_RECEIVE (R248). A Pdelay_Req is answered with a one-step Pdelay_Resp. -/
  | ptpPdelayReqReceive (p : Fin 2) (seq : BitVec 16) (corr : Int) (src : BitVec 80)
  /-- PTP_PDELAY_RESP_RECEIVE (R241). A Pdelay_Resp received advances a P2P delay measurement. -/
  | ptpPdelayRespReceive (p : Fin 2) (seq : BitVec 16) (twoStep : Bool) (t2 turn : Int)
  /-- PTP_PDELAY_RESP_FOLLOW_UP_RECEIVE (R241). A Pdelay_Resp_Follow_Up completes a two-step P2P delay measurement. -/
  | ptpPdelayRespFollowUpReceive (p : Fin 2) (seq : BitVec 16) (t3 : Int)
  /-- PTP_ANNOUNCE_RECEIVE (R248). An Announce feeds the BMCA and the leap-second and accuracy values. -/
  | ptpAnnounceReceive (p : Fin 2) (m : Machine.AnnMsg)
  /-- PTP_UNSUPPORTED_MESSAGE (R248). An unsupported PTP message is dropped and counted in UNSUP. -/
  | ptpUnsupportedMessage (p : Fin 2)
  /-- PTP_SYNC_SEND (R249). A master port sends a one-step Sync at its LOG_SYNC interval. -/
  | ptpSyncSend (p : Fin 2)
  /-- PTP_ANNOUNCE_SEND (R249). A master port sends an Announce at its LOG_ANN interval. -/
  | ptpAnnounceSend (p : Fin 2)
  /-- PTP_DELAY_REQ_SEND (R248). A slave port sends a Delay_Req at its LOG_DELAY interval. -/
  | ptpDelayReqSend (p : Fin 2)
  /-- PTP_PDELAY_REQ_SEND (R248). A P2P port sends a Pdelay_Req at its interval. -/
  | ptpPdelayReqSend (p : Fin 2)
  /-- SCHEDULED_LAUNCH (R250). A TX entry's launch time comes and its frame is sent, or is handled as late. -/
  | scheduledLaunch (p : Fin 5)
  /-- PPS_EDGE (R252). A PPS output raises its leading edge at a period boundary plus OFS_NS. -/
  | ppsEdge (k : Fin 2)
  /-- PPS_PULSE_END (R252). A PPS pulse ends after WIDTH_US of elapsed ticks. -/
  | ppsPulseEnd (k : Fin 2)
  /-- TIME_CAPTURE_EDGE (R253). An edge on a TCAP input is stamped into its FIFO, or dropped when the FIFO is full. -/
  | timeCaptureEdge (n : Fin 4) (rising : Bool) (fine : Fin 8) (lasts : Nat)
  /-- CAP_TSL_READ (R253). Reading CAP_TSL pops the oldest stamp and latches its upper half. -/
  | capTslRead (n : Fin 4)
  /-- TWIN_COPY_RECEIVE (R260). A copy of a twin frame passes its checks and opens or matches a pending entry. -/
  | twinCopyReceive (p : Fin 4) (b : List Byte)
  /-- TWIN_WIN_EXPIRE (R261). A pending entry without a mate at TWIN_WIN is accepted single-channel. -/
  | twinWinExpire
  /-- ZAL_SYNC_GO (R265). Writing ZAL_SYNCH with GO sends a SYNC frame and arms the sender's own chain. -/
  | zalSyncGo (d : Dom) (hi : BitVec 16) (dst : BitVec 10)
  /-- TELEMETRY_SEND (R269). Every PERIOD cycles a telemetry set reads its list and sends a TELEM frame. -/
  | telemetrySend (k : Fin 8)
  /-- TX_TAIL_WRITE (R268). Advancing TAIL hands SVC's transmit descriptors to the port, which sends them and writes their status back. -/
  | txTailWrite (d : Dom) (p : Fin 5) (tail : BitVec 12)
  /-- ARP_REQUEST (R255). An ARP request for NET_IP is answered. -/
  | arpRequest (p : Fin 5) (ip : Word)
  /-- LINK_CHANGE (R369). A port's link goes up or down and NET_STAT changes. -/
  | linkChange (p : Fin 5) (up : Bool) (speed : Fin 3)
  /-- CAN_ENABLE (R271). A 0 to 1 write of CAN_CFG.EN checks the configuration, starts the controller and sends an ISO request in the NMEA 2000 profile. -/
  | canEnable (d : Dom) (c : Fin 4) (v : Word)
  /-- CAN_COLUMN_OPEN (R276). A schedule-matrix column opens and its enabled cell offers its buffer for transmission. -/
  | canColumnOpen (c : Fin 4) (idle : Nat)
  /-- CAN_ATTEMPT_END (R276). A transmit attempt succeeds or fails, and the slot retries or ends with a status. -/
  | canAttemptEnd (c : Fin 4) (dur : Nat) (how : Fin 5)
  /-- CAN_FRAME_RECEIVE (R273). A received data frame goes to the first matching RX buffer, or counts NOMATCH. -/
  | canFrameReceive (c : Fin 4) (ident : BitVec 29) (ide fdf : Bool) (data : List Byte) (ago : Nat)
  /-- CAN_REMOTE_FRAME_RECEIVE (R270). A remote frame is received. -/
  | canRemoteFrameReceive (c : Fin 4) (ident : BitVec 29) (ide : Bool) (dlc : Fin 16) (ago : Nat)
  /-- CAN_RX_STATUS_READ (R273). Reading a buffer's status word after RECEIVED marks the frame read. -/
  | canRxStatusRead (c : Fin 4) (b : Fin 64)
  /-- CAN_TXREQ (R277). Writing CAN_TXREQ requests an event buffer in the next free column. -/
  | canTxreq (d : Dom) (c : Fin 4) (b : Fin 64)
  /-- CAN_CANCEL (R280). Writing CAN_CANCEL cancels a buffer's pending slot or event request. -/
  | canCancel (d : Dom) (c : Fin 4) (b : Fin 64)
  /-- BUS_OFF_RECOVERY (R270). 128 occurrences of 11 recessive bits end bus-off automatically. -/
  | busOffRecovery (c : Fin 4)
  /-- REFERENCE_FRAME_RECEIVE (R278). With REF_MODE 2, a matching reference frame starts the basic cycle and sets the row. -/
  | referenceFrameReceive (c : Fin 4) (data : List Byte) (ago : Nat)
  /-- REF_LOST (R278). No reference for 2 × BC_US stops scheduled sends and sets REF_LOST. -/
  | refLost (c : Fin 4)
  /-- TASK_RELEASE (R287). A task's release instant comes and its input copy starts, or the release is skipped. -/
  | taskRelease (n : Fin 16)
  /-- INPUT_COPY_DONE (R288). A task's input copy completes and the task becomes ready, preempting if its priority is higher. -/
  | inputCopyDone (n : Fin 16) (k : Nat)
  /-- OUTPUT_COPY_DONE (R289). A task's output copy completes and the task is idle. -/
  | outputCopyDone (n : Fin 16) (k corr : Nat)
  /-- TASK_ENABLE (R286). Writing BE_TCFG.EN from 0 to 1 clears FAULT and starts releases. -/
  | taskEnable (d : Dom) (n : Fin 16)
  /-- BE_TRELL_READ (R291). Reading BE_TRELL returns the release stamp's low word and latches its high word. -/
  | beTrellRead (n : Fin 16)
  /-- ACTIVATION_SWITCH (R294). At the first instant that allows it, the engines, areas and task table switch to the staged set. -/
  | activationSwitch
  /-- ACTIVATION_TIMEOUT (R294). No switch within 2 × T_DP of acceptance abandons the activation. -/
  | activationTimeout
  /-- FOP_SET (R299). A keyed BE_FOP write with OP SET forces a variable, or is refused. -/
  | fopSet (d : Dom) (key : BitVec 16)
  /-- FOP_CLEAR (R299). A keyed BE_FOP write with OP CLEAR removes a force. -/
  | fopClear (d : Dom) (key : BitVec 16)
  /-- FOP_CLEAR_ALL (R299). A keyed BE_FOP write with OP CLEAR_ALL removes every force. -/
  | fopClearAll (d : Dom) (key : BitVec 16)
  /-- PACKET_RECEIVE (R326). A Command Port packet completes and is checked, deduplicated, and executed or answered BUSY. -/
  | packetReceive (t : Fin 3) (via : Fin 5) (src : BitVec 48) (b : List Byte)
  /-- UART_GAP_TIMEOUT (R320). A gap of more than 10 character times inside a UART packet discards it. -/
  | uartGapTimeout
  /-- SPI_CS_RISE (R319). A rise of CP_nCS discards a packet in progress, or makes an unfinished reply be sent again. -/
  | spiCsRise (sent : Nat)
  /-- PING (R328). Returns the payload bytes. -/
  | ping (t : Fin 3) (src : BitVec 48) (seq : Byte) (data : List Byte)
  /-- IDENTIFY (R328). Returns the identity, persona, firmware, slot and signatures. -/
  | identify (t : Fin 3) (src : BitVec 48) (seq : Byte)
  /-- STATUS (R328). Returns the cycle, pair, lattice, quality, mode and time status. -/
  | status (t : Fin 3) (src : BitVec 48) (seq : Byte)
  /-- RD (R328). Reads COUNT register words. -/
  | rdWords (t : Fin 3) (src : BitVec 48) (seq : Byte) (a : BitVec 40) (n : Byte)
  /-- WR (R329). Writes COUNT words in order, stopping at the first discard. -/
  | wrWords (t : Fin 3) (src : BitVec 48) (seq : Byte) (a : BitVec 40) (n : Byte) (w : List Word)
  /-- RMW (R328). Reads, masks and writes one word indivisibly. -/
  | rmw (t : Fin 3) (src : BitVec 48) (seq : Byte) (a : BitVec 40) (mask v : Word)
  /-- GN_CONFIG (R330). Writes a GN register and keeps the value in the GNSS keep memory. -/
  | gnConfig (t : Fin 3) (src : BitVec 48) (seq : Byte) (a : BitVec 40) (v : Word)
  /-- IMG_BEGIN (R331). Empties the image staging buffer. -/
  | imgBegin (t : Fin 3) (src : BitVec 48) (seq : Byte) (size : Word)
  /-- IMG_DATA (R331). Writes image bytes at an offset. -/
  | imgData (t : Fin 3) (src : BitVec 48) (seq : Byte) (ofs : Word) (b : List Byte)
  /-- IMG_COMMIT (R331). Verifies the staged image and writes the program set into the inactive halves. -/
  | imgCommit (t : Fin 3) (src : BitVec 48) (seq : Byte)
  /-- IMG_ACTIVATE (R331). Makes the committed program set active through an online change. -/
  | imgActivate (t : Fin 3) (src : BitVec 48) (seq : Byte)
  /-- IMG_FLASH (R331). Writes one sector of the committed image to a flash slot. -/
  | imgFlash (t : Fin 3) (src : BitVec 48) (seq : Byte) (slot : Byte) (sec : BitVec 16)
  /-- IMG_STATUS (R328). Returns the state of the image staging. -/
  | imgStatus (t : Fin 3) (src : BitVec 48) (seq : Byte)
  /-- OTP_READ (R328). Reads OTP bytes. -/
  | otpRead (t : Fin 3) (src : BitVec 48) (seq : Byte) (ofs n : BitVec 16)
  /-- OTP_STAGE (R332). Edits the staging copy of the configuration block. -/
  | otpStage (t : Fin 3) (src : BitVec 48) (seq : Byte) (ofs : BitVec 16) (b : List Byte)
  /-- OTP_BURN (R332). Burns the staging copy as a new generation. -/
  | otpBurn (t : Fin 3) (src : BitVec 48) (seq : Byte) (key : BitVec 16) (gen : Byte) (crc : Word)
  /-- OTP_REVOKE (R344). Burns the revocation byte of an image key. -/
  | otpRevoke (t : Fin 3) (src : BitVec 48) (seq : Byte) (key : BitVec 16) (k : Byte)
  /-- SK_MODE (R333). Requests a station-keeping mode and waits for its result. -/
  | skMode (t : Fin 3) (src : BitVec 48) (seq : Byte) (mode keep : Byte)
  /-- SK_STAKE_HERE (R333). Requests a stake at the present position. -/
  | skStakeHere (t : Fin 3) (src : BitVec 48) (seq : Byte)
  /-- SK_MOVE (R333). Requests a move to a target. -/
  | skMove (t : Fin 3) (src : BitVec 48) (seq : Byte) (dn de psi : Word64)
  /-- SK_HALT (R333). Requests a halt of the move. -/
  | skHalt (t : Fin 3) (src : BitVec 48) (seq : Byte)
  /-- SK_JOY (R333). Writes the three joystick registers. -/
  | skJoy (t : Fin 3) (src : BitVec 48) (seq : Byte) (x y n : Word)
  /-- SURVEY_REC (R333). Writes FE_SURV_CTRL to start or stop recording. -/
  | surveyRec (t : Fin 3) (src : BitVec 48) (seq : Byte) (rec' : Byte) (decim : BitVec 16)
  /-- SURVEY_RUN (R80). Runs the survey adjustment and returns its statistics. -/
  | surveyRun (t : Fin 3) (src : BitVec 48) (seq : Byte)
  /-- SURVEY_COMMIT (R81). Commits the proposed descriptors and biases. -/
  | surveyCommit (t : Fin 3) (src : BitVec 48) (seq : Byte)
  /-- SURVEY_DISCARD (R81). Discards the proposal. -/
  | surveyDiscard (t : Fin 3) (src : BitVec 48) (seq : Byte)
  /-- SURVEY_STATUS (R328). Returns FE_SURV_STAT. -/
  | surveyStatus (t : Fin 3) (src : BitVec 48) (seq : Byte)
  /-- SELFTEST (R334). Runs the selected self-tests and triggers ASSIGN mode. -/
  | selftest (t : Fin 3) (src : BitVec 48) (seq : Byte) (mask : BitVec 16)
  /-- SELFTEST_LAST (R328). Returns the last self-test's mask and results. -/
  | selftestLast (t : Fin 3) (src : BitVec 48) (seq : Byte)
  /-- TIME_GET (R328). Returns the device time and its quality from one latch. -/
  | timeGet (t : Fin 3) (src : BitVec 48) (seq : Byte)
  /-- TIME_STEP (R335). Writes TIME_SET and TIME_STEP to step device time. -/
  | timeStep (t : Fin 3) (src : BitVec 48) (seq : Byte) (mode : Byte) (set : Word64)
  /-- TIME_LEAP (R335). Writes the leap-second count. -/
  | timeLeap (t : Fin 3) (src : BitVec 48) (seq : Byte) (v : Byte)
  /-- GO_ACTIVE (R335). Makes the keyed GO_ACTIVE write to HA_CTRL. -/
  | goActive (t : Fin 3) (src : BitVec 48) (seq : Byte) (key : BitVec 16)
  /-- DEMOTE (R335). Makes the keyed DEMOTE write to HA_CTRL. -/
  | demote (t : Fin 3) (src : BitVec 48) (seq : Byte) (key : BitVec 16)
  /-- REJOIN (R335). Makes the keyed REJOIN write to HA_CTRL. -/
  | rejoin (t : Fin 3) (src : BitVec 48) (seq : Byte) (key : BitVec 16)
  /-- PAIR_STATUS (R328). Returns the pair state, term and checkpoint cycle. -/
  | pairStatus (t : Fin 3) (src : BitVec 48) (seq : Byte)
  /-- REC_READ (R335). Reads whole records from the recorder cursor and advances it. -/
  | recRead (t : Fin 3) (src : BitVec 48) (seq : Byte)
  /-- REC_CLEAR (R335). Makes the keyed clearing of the recorder store. -/
  | recClear (t : Fin 3) (src : BitVec 48) (seq : Byte) (key : BitVec 16)
  /-- FORCE_SET (R335). Forces a variable to a value. -/
  | forceSet (t : Fin 3) (src : BitVec 48) (seq : Byte) (ident : Word) (v : Word64)
  /-- FORCE_CLEAR (R335). Clears one force. -/
  | forceClear (t : Fin 3) (src : BitVec 48) (seq : Byte) (ident : Word)
  /-- FORCE_CLEAR_ALL (R335). Clears every force. -/
  | forceClearAll (t : Fin 3) (src : BitVec 48) (seq : Byte)
  /-- FORCE_LIST (R328). Returns force entries from START. -/
  | forceList (t : Fin 3) (src : BitVec 48) (seq : Byte) (start : Byte)
  /-- RESET (R335). Answers OK and then makes a soft reset, or answers NOT_NOW while RUN is 1. -/
  | resetDevice (t : Fin 3) (src : BitVec 48) (seq : Byte) (key : BitVec 16) (force : Byte)
  /-- BOOT_START (R350). Reset release samples the straps, loads the OTP and locks the PLLs, then evaluates MATCH. -/
  | bootStart (straps : BitVec 2) (vpp : Bool)
  /-- SLOT_VERIFY (R348). A slot read completes and its image is verified step by step. -/
  | slotVerify (us : Fin 3001) (fw1 fw2 : Bool) (img : ImageCfg)
  /-- FIRMWARE_START (R350). The firmware starts on the service and safety cores. -/
  | firmwareStart
  /-- SECTIONS_APPLIED (R349). Every section is applied, DONE and GOOD set, and AUTORUN may write RUN. -/
  | sectionsApplied
  /-- REFCLK_WINDOW (R354). Each 10 µs SAFE_OSC window of REFCLK edges sets or clears REF_BAD. -/
  | refclkWindow (edges : Nat)
  /-- SAFE_OSC_WINDOW (R355). Each 1 ms CLK_GN window of SAFE_OSC cycles may set SOSC_BAD. -/
  | safeOscWindow (cycles : Nat)
  /-- DOMAIN_POWER_REQUEST (R356). A write of PWR_DOM_REQ powers domains up or down, or is refused whole. -/
  | domainPowerRequest (d : Dom) (v : Word)
  /-- DOMAIN_ON (R357). A domain finishes powering up, restores its classes and releases its isolation. -/
  | domainOn (d : Fin 14)
  /-- DEEP_ENTRY (R361). A keyed write of PWR_CTRL.DEEP powers every domain but AON down, or is refused. -/
  | deepEntry (d : Dom) (v : Word)
  /-- DEEP_WAKE (R361). A wake source ends DEEP with a reset of kind DEEP wake. -/
  | deepWake (src : Fin 3)
  /-- POWER_ON_RESET (R362). VDD_AON below 0.65 V resets the device. -/
  | powerOnReset
  /-- BROWN_OUT_RESET (R362). VDD_CORE or VDD_SRAM below its threshold resets the device. -/
  | brownOutReset
  /-- PIN_RESET (R362). nRESET held low resets the device. -/
  | pinReset (ns : Nat)
  /-- PARTNER_FORCED_RESET (R362). PRST_IN driven low by the partner resets the device as a pin reset. -/
  | partnerForcedReset (ns : Nat)
  /-- WATCHDOG_EXPIRE (R366). The service watchdog expires and makes a watchdog reset. -/
  | watchdogExpire
  /-- WATCHDOG_KICK (R366). An SVC write to RST_KICK reloads the watchdog, or expires it on a wrong value. -/
  | watchdogKick (d : Dom) (v : Word)
  /-- SOFT_RESET (R362). A keyed write of RST_SOFT makes a soft reset. -/
  | softReset (d : Dom) (v : Word)
  /-- PARTNER_RESET (R367). A keyed write of RST_PFORCE drives PRST_OUT low for 100 µs, or is refused. -/
  | partnerReset (d : Dom) (v : Word)
  /-- INTERRUPT_ARRIVAL (R368). A source arrives, is counted and is enqueued in its target's ring, or dropped. -/
  | interruptArrival (n : Fin 512) (info : Word)
  /-- INTERRUPT_ENTRY (R372). A processor with IE set takes its asserted line, and IE is cleared. -/
  | interruptEntry (x : Fin 10)
  /-- IC_CLAIM (R373). A read of IC_CLAIM claims the oldest record of the highest pending level and pushes the level. -/
  | icClaim (x : Fin 10) (m : Fin 11)
  /-- IC_COMPLETE (R375). A write of IC_COMPLETE frees the claimed record and pops the level stack. -/
  | icComplete (x : Fin 10) (m : Fin 11)
  /-- IC_SWSET (R375). A write of IC_SWSET causes one arrival of a software source. -/
  | icSwset (d : Dom) (v : Word)
  /-- LOAF_WRITE_END (R381). A loaf's write ends, and a follow-on loaf is triggered for the coalesced triggers. -/
  | loafWriteEnd
  /-- REC_NEXT (R383). Writing NEXT moves the recorder cursor to the next surviving record. -/
  | recNext (d : Dom)
  /-- REC_CUR_WRITE (R383). Writing REC_CUR moves the window to the lowest surviving record at or above it. -/
  | recCurWrite (d : Dom) (v : Word)
  /-- REC_CLR_CLEAR (R384). A keyed CLEAR write to REC_CLR frees every record, or is refused while RUN is 1. -/
  | recClrClear (d : Dom) (v : Word)
  /-- COUNTER_OVERFLOW (R388). A performance counter overflows, sets its PMU_OVF bit and may raise source 313 or carry. -/
  | counterOverflow (n : Fin 256)
  /-- PMU_FREEZE (R389). Writing FREEZE to 1 stops every counter. -/
  | pmuFreeze (d : Dom)
  /-- PMU_UNFREEZE (R389). Writing FREEZE to 0 resumes counting. -/
  | pmuUnfreeze (d : Dom)
  /-- PMU_SNAP (R390). Writing SNAP copies all counters into the shadow bank. -/
  | pmuSnap (d : Dom)
  /-- PMU_COUNTER_READ (R391). Reading PMU_CNTLn or PMU_SHLn latches the upper half, or returns 0 to BLOCK while PMU_USER is 0. -/
  | pmuCounterRead (d : Dom) (n : Fin 256) (shadowBank : Bool)
  /-- SCRUB_BURST (R405). The scrubber reads a DRAM burst and corrects a single-bit error. -/
  | scrubBurst (corrected : Bool)
  /-- SCRUB_CAP_APPLY (R405). A new SYS_SCRUB.CAP takes effect at the next 1 ms boundary. -/
  | scrubCapApply
  /-- SELFTEST_COMPLETE (R334). The self-tests started by SELFTEST finish, the reply with PASS and FAIL is queued, and the tracker enters ASSIGN mode with cause 2. -/
  | selftestComplete (fail : BitVec 16)
  /-- IMG_COMMIT_COMPLETE (R331). Verification of the staged image and the write of its program set into the inactive halves finish, and the reply is queued. -/
  | imgCommitComplete (fw1 fw2 : Bool) (img : ImageCfg)
  /-- IMG_FLASH_COMPLETE (R331). The write of one 64 KiB sector into a flash slot finishes and the reply is queued. -/
  | imgFlashComplete
  /-- OTP_BURN_COMPLETE (R332). The burn of a configuration generation and its read-back finish, and the reply is OK or INTERNAL. -/
  | otpBurnComplete (read : List Byte)
  /-- OTP_REVOKE_COMPLETE (R344). The burn and read-back of a revocation byte finish, and the reply is OK or INTERNAL. -/
  | otpRevokeComplete (read : Byte)
  /-- CHECKPOINT_SEND_COMPLETE (R184). The last checkpoint frame leaves P2, HA_CKCYC and HA_CKSIZE take the completed checkpoint, and heartbeat frames resume on P2. -/
  | checkpointSendComplete
  /-- ANTENNA_OPEN (R221). Antenna bias current falls below 2 mA, or rises above it again, so OPEN sets or clears and the GN antenna interrupt source is raised. -/
  | antennaOpen (a : Fin 2) (ma : Byte)
  /-- CHANNEL_PULL_IN_LOCK (R226). A GNSS channel in PULL_IN reaches frequency and phase lock and enters TRACK. -/
  | channelPullInLock (n : Fin 192)
  /-- CHANNEL_LOCK_LOST (R226). A tracking GNSS channel loses lock and enters LOST. -/
  | channelLockLost (n : Fin 192)
  /-- PTP_ANNOUNCE_RECEIPT_TIMEOUT (R248). A PTP port receives no Announce within the default BMCA's receipt timeout and re-runs the state decision, for example from LISTENING or SLAVE to MASTER. -/
  | ptpAnnounceReceiptTimeout (p : Fin 2)
  /-- CAN_BUS_ERROR (R270). An ISO 11898-1 error detected while receiving a frame sends an error flag, raises REC, counts BUSERR, and may change the error state. -/
  | canBusError (c : Fin 4) (dominant : Bool)
  /-- PRST_OUT_PULSE_END (R367). After 100 µs PRST_OUT is released high, which ends the partner's forced reset. -/
  | prstOutPulseEnd
  deriving DecidableEq, Repr

end Sys2Proof
end

