-- ==== Sys2Proof/Decode.lean ====
section
/-!
DEFINITION. Words. No row of the opcode table gives bits, so no word spells a command there. Block code has words of its
own (18_block_code R307): the instruction a 32-bit word of an engine's code SRAM spells, and the word of an instruction.
-/
namespace Sys2Proof

/-- The command a word spells by the table's bits: no row of the table gives any. -/
def decodeTableWord (_nbits _w : Nat) : Option Instr := none

/-! The tables of a program section, little-endian (R301). -/

/-- A little-endian number. -/
def leValue (l : List Byte) : Nat := l.foldr (fun b n => b.toNat + 256 * n) 0

/-- The first n entries of a table, each as a number; a rest shorter than an entry is none. -/
def tableEntries (size : Nat) : Nat → List Byte → List Nat
  | 0, _ => []
  | n + 1, l => if (l.take size).length < size then [] else leValue (l.take size) :: tableEntries size n (l.drop size)

/-- Bits [lo + w - 1 : lo] of an entry. -/
def entryField (v lo w : Nat) : BitVec w := BitVec.ofNat w (v / 2 ^ lo)

/-- An I/O map entry of 16 bytes. -/
def ioEntOf (v : Nat) : IoEnt :=
  { addr := entryField v 0 40, ofs := entryField v 64 20, out := entryField v 84 1 == 1, mode := entryField v 85 1 == 1,
    task := (entryField v 92 4).toFin, len := entryField v 96 16 }

/-- A symbol entry of 16 bytes. -/
def symEntOf (v : Nat) : SymEnt :=
  { ident := entryField v 0 32, addr := entryField v 32 24, area := entryField v 56 1 == 1, size := (entryField v 57 2).toFin,
    safe := entryField v 59 1 == 1, cls := entryField v 60 4, sig := entryField v 64 32 }

/-- A carry map entry of 12 bytes. -/
def carryEntOf (v : Nat) : CarryEnt :=
  { old := entryField v 0 32, new := entryField v 32 32, len := entryField v 64 24, init := entryField v 95 1 == 1 }

/-- The I/O map: at most 4096 entries. -/
def ProgSet.iomap (p : ProgSet) : List IoEnt := (tableEntries 16 4096 p.ioBytes).map ioEntOf
/-- The symbol table: at most 16,384 entries. -/
def ProgSet.syms (p : ProgSet) : List SymEnt := (tableEntries 16 16384 p.symBytes).map symEntOf
/-- The carry map: at most 16,384 entries. -/
def ProgSet.carry (p : ProgSet) : List CarryEnt := (tableEntries 12 16384 p.carryBytes).map carryEntOf

/-! Fields of a block code word (R307). -/

/-- Bits [31:24]: the opcode. -/
def wOp (w : Word) : BitVec 8 := w.extractLsb' 24 8
/-- Bits [23:19]: D of formats R, I and M, A of format J. -/
def wD (w : Word) : BitVec 5 := w.extractLsb' 19 5
/-- Bits [18:14]: A, or X of format M. -/
def wA (w : Word) : BitVec 5 := w.extractLsb' 14 5
/-- Bits [13:9]: B. -/
def wB (w : Word) : BitVec 5 := w.extractLsb' 9 5
/-- Bits [8:4]: C. -/
def wC (w : Word) : BitVec 5 := w.extractLsb' 4 5
/-- Bits [3:0]: SUB. -/
def wSub (w : Word) : BitVec 4 := w.extractLsb' 0 4
/-- Bits [13:0]: IMM14. -/
def wImm14 (w : Word) : BitVec 14 := w.extractLsb' 0 14
/-- Bits [13:12]: SP of format M. -/
def wSp (w : Word) : BitVec 2 := w.extractLsb' 12 2
/-- Bits [11:0]: DISP of format M. -/
def wDisp (w : Word) : BitVec 12 := w.extractLsb' 0 12
/-- Bits [18:0]: IMM19 of format J. -/
def wImm19 (w : Word) : BitVec 19 := w.extractLsb' 0 19

/-- A word of format R. -/
def wordR (op : BitVec 8) (d a b c : BitVec 5) (sub : BitVec 4) : Word := op ++ (d ++ (a ++ (b ++ (c ++ sub))))
/-- A word of format I. -/
def wordI (op : BitVec 8) (d a : BitVec 5) (imm : BitVec 14) : Word := op ++ (d ++ (a ++ imm))
/-- A word of format M. -/
def wordM (op : BitVec 8) (d x : BitVec 5) (sp : BitVec 2) (disp : BitVec 12) : Word := op ++ (d ++ (x ++ (sp ++ disp)))
/-- A word of format J. -/
def wordJ (op : BitVec 8) (a : BitVec 5) (imm : BitVec 19) : Word := op ++ (a ++ imm)

/-- The library entry a SYS number names (R315). -/
def beDecodeSys (e : Fin 8) (a : BitVec 5) (k : Nat) : Option Instr :=
  match k with
  | 0 => some (.ton e a)
  | 1 => some (.tof e a)
  | 2 => some (.tp e a)
  | 3 => some (.rTrig e a)
  | 4 => some (.fTrig e a)
  | 5 => some (.ctu e a)
  | 6 => some (.ctd e a)
  | 7 => some (.ctud e a)
  | 8 => some (.srBlock e a)
  | 9 => some (.rsBlock e a)
  | 32 => some (.sinF e a)
  | 33 => some (.cosF e a)
  | 34 => some (.tanF e a)
  | 35 => some (.asinF e a)
  | 36 => some (.acosF e a)
  | 37 => some (.atanF e a)
  | 38 => some (.atan2F e a)
  | 39 => some (.expF e a)
  | 40 => some (.lnF e a)
  | 41 => some (.logF e a)
  | 42 => some (.exptF e a)
  | _ => none

/-- The instruction a word spells on an engine (R307, R310 to R315); none where it traps with TRAP 1: an opcode or SYS number
that is not in the tables, an unused field that is not 0. -/
def beDecode (e : Fin 8) (w : Word) : Option Instr :=
  match (wOp w).toNat with
  | 0x00 => if wD w = 0 && wA w = 0 && wB w = 0 && wC w = 0 && wSub w = 0 then some (.nop e) else none
  | 0x10 => if wC w = 0 && wSub w = 0 then some (.add e (wD w) (wA w) (wB w)) else none
  | 0x11 => if wC w = 0 && wSub w = 0 then some (.sub e (wD w) (wA w) (wB w)) else none
  | 0x12 => if wC w = 0 && wSub w = 0 then some (.addw e (wD w) (wA w) (wB w)) else none
  | 0x13 => if wC w = 0 && wSub w = 0 then some (.subw e (wD w) (wA w) (wB w)) else none
  | 0x14 => if wC w = 0 && wSub w = 0 then some (.mul e (wD w) (wA w) (wB w)) else none
  | 0x15 => if wC w = 0 && wSub w = 0 then some (.mulw e (wD w) (wA w) (wB w)) else none
  | 0x16 => if wC w = 0 && wSub w = 0 then some (.divS e (wD w) (wA w) (wB w)) else none
  | 0x17 => if wC w = 0 && wSub w = 0 then some (.divu e (wD w) (wA w) (wB w)) else none
  | 0x18 => if wC w = 0 && wSub w = 0 then some (.modS e (wD w) (wA w) (wB w)) else none
  | 0x19 => if wB w = 0 && wC w = 0 && wSub w = 0 then some (.negS e (wD w) (wA w)) else none
  | 0x1A => if wB w = 0 && wC w = 0 && wSub w = 0 then some (.absS e (wD w) (wA w)) else none
  | 0x1B => if wC w = 0 && wSub w = 0 then some (.minS e (wD w) (wA w) (wB w)) else none
  | 0x1C => if wC w = 0 && wSub w = 0 then some (.maxS e (wD w) (wA w) (wB w)) else none
  | 0x1D => if wSub w = 0 then some (.limitS e (wD w) (wA w) (wB w) (wC w)) else none
  | 0x20 => if wC w = 0 && wSub w = 0 then some (.andB e (wD w) (wA w) (wB w)) else none
  | 0x21 => if wC w = 0 && wSub w = 0 then some (.orB e (wD w) (wA w) (wB w)) else none
  | 0x22 => if wC w = 0 && wSub w = 0 then some (.xorB e (wD w) (wA w) (wB w)) else none
  | 0x23 => if wB w = 0 && wC w = 0 && wSub w = 0 then some (.notB e (wD w) (wA w)) else none
  | 0x24 => if wC w = 0 && wSub w = 0 then some (.shl e (wD w) (wA w) (wB w)) else none
  | 0x25 => if wC w = 0 && wSub w = 0 then some (.shr e (wD w) (wA w) (wB w)) else none
  | 0x26 => if wC w = 0 && wSub w = 0 then some (.sar e (wD w) (wA w) (wB w)) else none
  | 0x27 => if wC w = 0 && wSub w = 0 then some (.rol e (wD w) (wA w) (wB w)) else none
  | 0x28 => if wC w = 0 && wSub w = 0 then some (.ror e (wD w) (wA w) (wB w)) else none
  | 0x29 => if wB w = 0 && wC w = 0 && (wSub w).extractLsb' 2 1 = 0 then some (.satn e (wD w) (wA w) (wSub w)) else none
  | 0x2A => if wB w = 0 && wC w = 0 && (wSub w).extractLsb' 2 2 = 0 then some (.sext e (wD w) (wA w) (wSub w)) else none
  | 0x2B => if wB w = 0 && wC w = 0 && (wSub w).extractLsb' 2 2 = 0 then some (.zext e (wD w) (wA w) (wSub w)) else none
  | 0x2C => if wC w = 0 && wSub w = 0 then some (.bitx e (wD w) (wA w) (wB w)) else none
  | 0x2D => if wSub w = 0 then some (.bits e (wD w) (wA w) (wB w) (wC w)) else none
  | 0x2E => if wSub w = 0 then some (.selB e (wD w) (wA w) (wB w) (wC w)) else none
  | 0x30 => if wC w = 0 && wSub w = 0 then some (.ceq e (wD w) (wA w) (wB w)) else none
  | 0x31 => if wC w = 0 && wSub w = 0 then some (.cne e (wD w) (wA w) (wB w)) else none
  | 0x32 => if wC w = 0 && wSub w = 0 then some (.clt e (wD w) (wA w) (wB w)) else none
  | 0x33 => if wC w = 0 && wSub w = 0 then some (.cle e (wD w) (wA w) (wB w)) else none
  | 0x34 => if wC w = 0 && wSub w = 0 then some (.cltu e (wD w) (wA w) (wB w)) else none
  | 0x35 => if wC w = 0 && wSub w = 0 then some (.cleu e (wD w) (wA w) (wB w)) else none
  | 0x40 => some (.addi e (wD w) (wA w) (wImm14 w))
  | 0x41 => some (.andi e (wD w) (wA w) (wImm14 w))
  | 0x42 => some (.ori e (wD w) (wA w) (wImm14 w))
  | 0x43 => some (.xori e (wD w) (wA w) (wImm14 w))
  | 0x44 => some (.shli e (wD w) (wA w) (wImm14 w))
  | 0x45 => some (.shri e (wD w) (wA w) (wImm14 w))
  | 0x46 => some (.sari e (wD w) (wA w) (wImm14 w))
  | 0x47 => some (.ceqi e (wD w) (wA w) (wImm14 w))
  | 0x48 => some (.clti e (wD w) (wA w) (wImm14 w))
  | 0x4C => some (.movi e (wD w) (wImm19 w))
  | 0x4D => some (.ldk e (wD w) (wImm19 w))
  | 0x50 => if wC w = 0 && wSub w = 0 then some (.fadd e (wD w) (wA w) (wB w)) else none
  | 0x51 => if wC w = 0 && wSub w = 0 then some (.fsub e (wD w) (wA w) (wB w)) else none
  | 0x52 => if wC w = 0 && wSub w = 0 then some (.fmul e (wD w) (wA w) (wB w)) else none
  | 0x53 => if wC w = 0 && wSub w = 0 then some (.fdiv e (wD w) (wA w) (wB w)) else none
  | 0x54 => if wB w = 0 && wC w = 0 && wSub w = 0 then some (.fsqrt e (wD w) (wA w)) else none
  | 0x55 => if wSub w = 0 then some (.fma e (wD w) (wA w) (wB w) (wC w)) else none
  | 0x56 => if wSub w = 0 then some (.fnms e (wD w) (wA w) (wB w) (wC w)) else none
  | 0x57 => if wB w = 0 && wC w = 0 && wSub w = 0 then some (.fabs e (wD w) (wA w)) else none
  | 0x58 => if wB w = 0 && wC w = 0 && wSub w = 0 then some (.fneg e (wD w) (wA w)) else none
  | 0x59 => if wC w = 0 && wSub w = 0 then some (.fmin e (wD w) (wA w) (wB w)) else none
  | 0x5A => if wC w = 0 && wSub w = 0 then some (.fmax e (wD w) (wA w) (wB w)) else none
  | 0x5B => if wSub w = 0 then some (.flimit e (wD w) (wA w) (wB w) (wC w)) else none
  | 0x5C => if wC w = 0 && wSub w = 0 then some (.fceq e (wD w) (wA w) (wB w)) else none
  | 0x5D => if wC w = 0 && wSub w = 0 then some (.fclt e (wD w) (wA w) (wB w)) else none
  | 0x5E => if wC w = 0 && wSub w = 0 then some (.fcle e (wD w) (wA w) (wB w)) else none
  | 0x5F => if wC w = 0 && wSub w = 0 then some (.fcun e (wD w) (wA w) (wB w)) else none
  | 0x60 => if wB w = 0 && wC w = 0 && wSub w = 0 then some (.itof e (wD w) (wA w)) else none
  | 0x61 => if wB w = 0 && wC w = 0 && wSub w = 0 then some (.ftoi e (wD w) (wA w)) else none
  | 0x62 => if wB w = 0 && wC w = 0 && (wSub w).extractLsb' 2 2 = 0 then some (.frnd e (wD w) (wA w) (wSub w)) else none
  | 0x63 => if wB w = 0 && wC w = 0 && wSub w = 0 then some (.f32 e (wD w) (wA w)) else none
  | 0x70 => some (.ld8s e (wD w) (wA w) (wSp w) (wDisp w))
  | 0x71 => some (.ld8u e (wD w) (wA w) (wSp w) (wDisp w))
  | 0x72 => some (.ld16s e (wD w) (wA w) (wSp w) (wDisp w))
  | 0x73 => some (.ld16u e (wD w) (wA w) (wSp w) (wDisp w))
  | 0x74 => some (.ld32s e (wD w) (wA w) (wSp w) (wDisp w))
  | 0x75 => some (.ld32u e (wD w) (wA w) (wSp w) (wDisp w))
  | 0x76 => some (.ld64 e (wD w) (wA w) (wSp w) (wDisp w))
  | 0x77 => some (.ldf32 e (wD w) (wA w) (wSp w) (wDisp w))
  | 0x78 => some (.st8 e (wD w) (wA w) (wSp w) (wDisp w))
  | 0x79 => some (.st16 e (wD w) (wA w) (wSp w) (wDisp w))
  | 0x7A => some (.st32 e (wD w) (wA w) (wSp w) (wDisp w))
  | 0x7B => some (.st64 e (wD w) (wA w) (wSp w) (wDisp w))
  | 0x7C => some (.stf32 e (wD w) (wA w) (wSp w) (wDisp w))
  | 0x7D => some (.lea e (wD w) (wA w) (wSp w) (wDisp w))
  | 0x80 => if wD w = 0 then some (.br e (wImm19 w)) else none
  | 0x81 => some (.bz e (wD w) (wImm19 w))
  | 0x82 => some (.bnz e (wD w) (wImm19 w))
  | 0x83 => if wD w = 0 then some (.call e (wImm19 w)) else none
  | 0x84 => some (.callb e (wD w) (wImm19 w))
  | 0x85 => if wD w = 0 && wImm19 w = 0 then some (.ret e) else none
  | 0x86 => beDecodeSys e (wD w) (wImm19 w).toNat
  | 0x87 => if wD w = 0 && wImm19 w = 0 then some (.endRun e) else none
  | 0x90 => if wA w = 0 && wB w = 0 && wC w = 0 && wSub w = 0 then some (.rdst e (wD w)) else none
  | 0x91 => if wD w = 0 && wA w = 0 && wB w = 0 && wC w = 0 && wSub w = 0 then some (.clrst e) else none
  | _ => none

/-- The word of a block code instruction; none for every other command (R307, R310 to R315). -/
def beEncode : Instr → Option Word
  | .nop _ => some (wordR 0x00#8 0 0 0 0 0)
  | .add _ d a b => some (wordR 0x10#8 d a b 0 0)
  | .sub _ d a b => some (wordR 0x11#8 d a b 0 0)
  | .addw _ d a b => some (wordR 0x12#8 d a b 0 0)
  | .subw _ d a b => some (wordR 0x13#8 d a b 0 0)
  | .mul _ d a b => some (wordR 0x14#8 d a b 0 0)
  | .mulw _ d a b => some (wordR 0x15#8 d a b 0 0)
  | .divS _ d a b => some (wordR 0x16#8 d a b 0 0)
  | .divu _ d a b => some (wordR 0x17#8 d a b 0 0)
  | .modS _ d a b => some (wordR 0x18#8 d a b 0 0)
  | .negS _ d a => some (wordR 0x19#8 d a 0 0 0)
  | .absS _ d a => some (wordR 0x1A#8 d a 0 0 0)
  | .minS _ d a b => some (wordR 0x1B#8 d a b 0 0)
  | .maxS _ d a b => some (wordR 0x1C#8 d a b 0 0)
  | .limitS _ d a b c => some (wordR 0x1D#8 d a b c 0)
  | .andB _ d a b => some (wordR 0x20#8 d a b 0 0)
  | .orB _ d a b => some (wordR 0x21#8 d a b 0 0)
  | .xorB _ d a b => some (wordR 0x22#8 d a b 0 0)
  | .notB _ d a => some (wordR 0x23#8 d a 0 0 0)
  | .shl _ d a b => some (wordR 0x24#8 d a b 0 0)
  | .shr _ d a b => some (wordR 0x25#8 d a b 0 0)
  | .sar _ d a b => some (wordR 0x26#8 d a b 0 0)
  | .rol _ d a b => some (wordR 0x27#8 d a b 0 0)
  | .ror _ d a b => some (wordR 0x28#8 d a b 0 0)
  | .satn _ d a sub => some (wordR 0x29#8 d a 0 0 sub)
  | .sext _ d a sub => some (wordR 0x2A#8 d a 0 0 sub)
  | .zext _ d a sub => some (wordR 0x2B#8 d a 0 0 sub)
  | .bitx _ d a b => some (wordR 0x2C#8 d a b 0 0)
  | .bits _ d a b c => some (wordR 0x2D#8 d a b c 0)
  | .selB _ d a b c => some (wordR 0x2E#8 d a b c 0)
  | .ceq _ d a b => some (wordR 0x30#8 d a b 0 0)
  | .cne _ d a b => some (wordR 0x31#8 d a b 0 0)
  | .clt _ d a b => some (wordR 0x32#8 d a b 0 0)
  | .cle _ d a b => some (wordR 0x33#8 d a b 0 0)
  | .cltu _ d a b => some (wordR 0x34#8 d a b 0 0)
  | .cleu _ d a b => some (wordR 0x35#8 d a b 0 0)
  | .addi _ d a imm => some (wordI 0x40#8 d a imm)
  | .andi _ d a imm => some (wordI 0x41#8 d a imm)
  | .ori _ d a imm => some (wordI 0x42#8 d a imm)
  | .xori _ d a imm => some (wordI 0x43#8 d a imm)
  | .shli _ d a imm => some (wordI 0x44#8 d a imm)
  | .shri _ d a imm => some (wordI 0x45#8 d a imm)
  | .sari _ d a imm => some (wordI 0x46#8 d a imm)
  | .ceqi _ d a imm => some (wordI 0x47#8 d a imm)
  | .clti _ d a imm => some (wordI 0x48#8 d a imm)
  | .movi _ a imm => some (wordJ 0x4C#8 a imm)
  | .ldk _ a imm => some (wordJ 0x4D#8 a imm)
  | .fadd _ d a b => some (wordR 0x50#8 d a b 0 0)
  | .fsub _ d a b => some (wordR 0x51#8 d a b 0 0)
  | .fmul _ d a b => some (wordR 0x52#8 d a b 0 0)
  | .fdiv _ d a b => some (wordR 0x53#8 d a b 0 0)
  | .fsqrt _ d a => some (wordR 0x54#8 d a 0 0 0)
  | .fma _ d a b c => some (wordR 0x55#8 d a b c 0)
  | .fnms _ d a b c => some (wordR 0x56#8 d a b c 0)
  | .fabs _ d a => some (wordR 0x57#8 d a 0 0 0)
  | .fneg _ d a => some (wordR 0x58#8 d a 0 0 0)
  | .fmin _ d a b => some (wordR 0x59#8 d a b 0 0)
  | .fmax _ d a b => some (wordR 0x5A#8 d a b 0 0)
  | .flimit _ d a b c => some (wordR 0x5B#8 d a b c 0)
  | .fceq _ d a b => some (wordR 0x5C#8 d a b 0 0)
  | .fclt _ d a b => some (wordR 0x5D#8 d a b 0 0)
  | .fcle _ d a b => some (wordR 0x5E#8 d a b 0 0)
  | .fcun _ d a b => some (wordR 0x5F#8 d a b 0 0)
  | .itof _ d a => some (wordR 0x60#8 d a 0 0 0)
  | .ftoi _ d a => some (wordR 0x61#8 d a 0 0 0)
  | .frnd _ d a sub => some (wordR 0x62#8 d a 0 0 sub)
  | .f32 _ d a => some (wordR 0x63#8 d a 0 0 0)
  | .ld8s _ d x sp disp => some (wordM 0x70#8 d x sp disp)
  | .ld8u _ d x sp disp => some (wordM 0x71#8 d x sp disp)
  | .ld16s _ d x sp disp => some (wordM 0x72#8 d x sp disp)
  | .ld16u _ d x sp disp => some (wordM 0x73#8 d x sp disp)
  | .ld32s _ d x sp disp => some (wordM 0x74#8 d x sp disp)
  | .ld32u _ d x sp disp => some (wordM 0x75#8 d x sp disp)
  | .ld64 _ d x sp disp => some (wordM 0x76#8 d x sp disp)
  | .ldf32 _ d x sp disp => some (wordM 0x77#8 d x sp disp)
  | .st8 _ d x sp disp => some (wordM 0x78#8 d x sp disp)
  | .st16 _ d x sp disp => some (wordM 0x79#8 d x sp disp)
  | .st32 _ d x sp disp => some (wordM 0x7A#8 d x sp disp)
  | .st64 _ d x sp disp => some (wordM 0x7B#8 d x sp disp)
  | .stf32 _ d x sp disp => some (wordM 0x7C#8 d x sp disp)
  | .lea _ d x sp disp => some (wordM 0x7D#8 d x sp disp)
  | .br _ imm => some (wordJ 0x80#8 0 imm)
  | .bz _ a imm => some (wordJ 0x81#8 a imm)
  | .bnz _ a imm => some (wordJ 0x82#8 a imm)
  | .call _ imm => some (wordJ 0x83#8 0 imm)
  | .callb _ a imm => some (wordJ 0x84#8 a imm)
  | .ret _ => some (wordJ 0x85#8 0 0)
  | .endRun _ => some (wordJ 0x87#8 0 0)
  | .rdst _ d => some (wordR 0x90#8 d 0 0 0 0)
  | .clrst _ => some (wordR 0x91#8 0 0 0 0 0)
  | .ton _ a => some (wordJ 0x86#8 a 0)
  | .tof _ a => some (wordJ 0x86#8 a 1)
  | .tp _ a => some (wordJ 0x86#8 a 2)
  | .rTrig _ a => some (wordJ 0x86#8 a 3)
  | .fTrig _ a => some (wordJ 0x86#8 a 4)
  | .ctu _ a => some (wordJ 0x86#8 a 5)
  | .ctd _ a => some (wordJ 0x86#8 a 6)
  | .ctud _ a => some (wordJ 0x86#8 a 7)
  | .srBlock _ a => some (wordJ 0x86#8 a 8)
  | .rsBlock _ a => some (wordJ 0x86#8 a 9)
  | .sinF _ a => some (wordJ 0x86#8 a 32)
  | .cosF _ a => some (wordJ 0x86#8 a 33)
  | .tanF _ a => some (wordJ 0x86#8 a 34)
  | .asinF _ a => some (wordJ 0x86#8 a 35)
  | .acosF _ a => some (wordJ 0x86#8 a 36)
  | .atanF _ a => some (wordJ 0x86#8 a 37)
  | .atan2F _ a => some (wordJ 0x86#8 a 38)
  | .expF _ a => some (wordJ 0x86#8 a 39)
  | .lnF _ a => some (wordJ 0x86#8 a 40)
  | .logF _ a => some (wordJ 0x86#8 a 41)
  | .exptF _ a => some (wordJ 0x86#8 a 42)
  | _ => none

end Sys2Proof
end

