-- ==== Sys2Proof/Config.lean ====
section
/-!
DEFINITION. The values the spec leaves open. Each is opaque: nothing can be proved about the value itself,
so a claim that mentions one holds whatever it is. Each has a row in notes/assumptions.
-/
namespace Sys2Proof

/-- A fresh open value: the n-th one a run draws (log entry 2). -/
opaque Config.freeValue : Nat → BitVec 64

/-- Which of the binary64 values within 1 ulp of a function's exact value comes out, by SYS number and arguments; the spec gives the
bound alone (R315; log entry 3). -/
opaque Config.ulpPick : Nat → BitVec 64 → BitVec 64 → Nat

/-- Is the sum of squares in the standard deviation of n PTP offsets divided by n - 1 (else by n)? The spec does not say (R243;
log entry 14). -/
opaque Config.offsLess : Nat → Bool
/-- Is the sigma of a PTP reference rounded up where its square is no square (R243; log entry 14)? -/
opaque Config.sigmaUp : Nat → Bool

/-- How far the loop moves its frequency towards the measured one, in 1/65536, taken modulo 65537: by TIME_REF.BW and an open value
(R242; log entry 12). -/
opaque Config.loopGain : Nat → BitVec 64 → Nat
/-- The loop's phase term before its limit, in 2^-32 ns: by TIME_REF.BW, the offset and an open value (R242; log entry 12). -/
opaque Config.loopPhase : Nat → Int → BitVec 64 → Int

/-- Does a stream take its samples from a Zaley peer, by the peer's node ID (R47)? No source kind names a peer, so the
relation is open (log entry 16). -/
opaque Config.peerStream : Nat → Nat → Bool

/-- The integration of a vector field over an interval in s, from a point; the spec gives the differential equations of R64 and no
integration rule (log entry 22). -/
opaque Config.flow : (List (BitVec 64) → List (BitVec 64)) → BitVec 64 → List (BitVec 64) → List (BitVec 64)

/-- The transition over an interval of a linear system with a matrix, and the covariance that white noise of given intensities on
its states adds: the spec names no discretisation (R64; log entry 22). -/
opaque Config.transition : List (List (BitVec 64)) → BitVec 64 → List (List (BitVec 64))
opaque Config.walk : List (List (BitVec 64)) → List (BitVec 64) → BitVec 64 → List (List (BitVec 64))

/-- The height an RMC sentence's position carries: the sentence has none, the spec states none (R40; log entry 176). -/
opaque Config.rmcHeight : List (BitVec 8) → BitVec 64

/-- The address a controller claims first in the NMEA 2000 profile; the spec states none (R44; log entry 184). -/
opaque Config.n2kAddress : Nat → BitVec 8

/-- The initial value and variance of the states for which R75 states none, by index (log entry 23). -/
opaque Config.initState : Nat → BitVec 64
opaque Config.initVar : Nat → BitVec 64

/-- The sigma of a fixed-target track's velocity, from the covariance of its filter: R78 weights points by it and states none
(log entry 194). -/
opaque Config.pointSigma : List (List (BitVec 64)) → BitVec 64

/-- A linearisation of the survey adjustment: the epochs as stored, the descriptors and biases in force, and the corrections of the
poses so far give the columns of the normal matrix, the right side, and the weighted RMS residual. R80 names the unknowns and
the method and states no residual equations (log entry 195). -/
opaque Config.surveySystem : List (List (BitVec 8)) → List (Nat × List (BitVec 64) × List (BitVec 64)) → List (BitVec 64) →
    List (List (Nat × BitVec 64)) × List (BitVec 64) × BitVec 64

/-- The geodetic position (latitude, longitude, height) of an earth-centred point on WGS 84, exact but for the rounding of
its last operation, which is open (R97; log entry 25). -/
opaque Config.geodetic : List (BitVec 64) → List (BitVec 64)

/-- Does a fixed-point n / d that is not exact round up? The spec names the formats and no rounding rule (R6, R154, R166; log
entry 27). -/
opaque Config.fxUp : Int → Nat → Bool

/-- What a conversion gives of a binary32 or binary64 that is no number; the spec states no result (R153, R154; log entry 27). -/
opaque Config.fxNaN : Int → Int

/-- The feedback taps of the maximal-length sequence of N bits; the spec names no polynomial (R161; log entry 28). -/
opaque Config.prbsTaps : Nat → Nat
/-- Bit k of a sequence of an N outside 7 to 31, for which the spec names none (R161; log entry 28). -/
opaque Config.prbsBit : Nat → Nat → Bool

/-- Does the RMS detector round a root of sum / n up that is no integer (R170; log entry 29)? -/
opaque Config.rmsUp : Nat → Nat → Bool

/-- How the edges of CLK_IO and of the modulator clock, which divides it by four, lie to the ticks of CLK_GN, in half ns: all divide one
root and hold a fixed phase, which the spec does not give (R172, R173, R352; log entry 207). -/
opaque Config.ioPhase : Nat

/-- The ones density a bitstream output has of a value beyond ±1.0 of full scale, in 1 / (20 × 2^31); the spec states none (R178;
log entry 210). -/
opaque Config.onesOver : Int → Nat

/-- Which bit of each four is 0 in the test pattern of density 0.75, taken modulo 4; the spec gives the density (R164; log
entry 208). -/
opaque Config.testZero : Nat → Nat

/-- The quiet noise floor and gain of a GNSS path from its OTP trim, in dB; the spec gives no layout of the trim (R234; log
entry 35). -/
opaque Config.quietTrim : Nat → Int × Int

/-- A division by zero in the Solver Array: its numerator gives the result. The spec states none (R111's residual with
Aᵀb = 0, a regularised pivot that underflows to 0; log entry 168). -/
opaque Config.zeroDivide : BitVec 64 → BitVec 64

/-- Does the firmware of SVC (0) or SAFE (1) enter DOZE at an instant? The spec gives no condition (R359; log entry 221). -/
opaque Config.fwDozes : Nat → Nat → Bool

/-- The most rows of a supernode front that a pattern of the normal equations has (its column starts and row indices, as they lie in
memory): the spec gives the limit and no elimination order (R111; log entry 244). -/
opaque Config.frontRows : List (BitVec 8) → Nat
/-- The bytes of the factor that an LSQ_SPARSE job keeps behind its output, by its matrix and the panels done; the spec gives no layout
and no size (R407; log entry 228). -/
opaque Config.factorBytes : List (List (Nat × BitVec 64)) → Nat → List (BitVec 8)

/-- The version the boot ROM reports; the spec states none (R351; log entry 51). -/
opaque Config.romVersion : BitVec 32
/-- The version of the firmware in an image, by the image's PSIG and ZAL_SIG; the spec places it nowhere (R328; log entry 51). -/
opaque Config.fwVersion : BitVec 32 → BitVec 32 → BitVec 32

end Sys2Proof
end

