-- ==== Sys2Proof/Machine/Float.lean ====
section
/-!
DEFINITION. IEEE 754-2019 binary64 and binary32 arithmetic, written over exact natural and integer arithmetic
(spec 00_scope R6; 18_block_code R311: round to nearest, ties to even, subnormals in full, default NaN).
A finite value is (-1)^sign * mant * 2^exp; every operation computes the exact result, then rounds once.
-/
namespace Sys2Proof.Machine

/-- A binary format: precision in bits, exponent width. -/
structure Fmt where
  prec : Nat
  ebits : Nat
  deriving DecidableEq, Repr

/-- binary64. -/
def fmt64 : Fmt := ⟨53, 11⟩
/-- binary32. -/
def fmt32 : Fmt := ⟨24, 8⟩

/-- The exponent bias of a format. -/
def Fmt.bias (f : Fmt) : Nat := 2 ^ (f.ebits - 1) - 1

/-- An unpacked floating-point value. `fin s m e` is (-1)^s * m * 2^e (m = 0: a signed zero). -/
inductive Unp where
  | nan
  | inf (s : Bool)
  | fin (s : Bool) (m : Nat) (e : Int)
  deriving DecidableEq, Repr

/-- The exceptions an operation raises (R311: overflow sets SAT; invalid and division by zero set INV). -/
structure FFlags where
  ovf : Bool
  inv : Bool
  deriving DecidableEq, Repr

/-- No exception. -/
def noF : FFlags := ⟨false, false⟩

/-- Unpack a bit pattern of format f. -/
def unpack (f : Fmt) (bits : Nat) : Unp :=
  let mb := f.prec - 1
  let s := (bits / 2 ^ (mb + f.ebits)) % 2 == 1
  let e := (bits / 2 ^ mb) % 2 ^ f.ebits
  let m := bits % 2 ^ mb
  if e == 2 ^ f.ebits - 1 then (if m == 0 then .inf s else .nan)
  else if e == 0 then .fin s m (1 - (f.bias : Int) - (mb : Int))
  else .fin s (m + 2 ^ mb) ((e : Int) - (f.bias : Int) - (mb : Int))

/-- The sign bit in place. -/
def signBit (f : Fmt) (s : Bool) : Nat := if s then 2 ^ (f.prec - 1 + f.ebits) else 0

/-- The bit pattern of an infinity. -/
def infBits (f : Fmt) (s : Bool) : Nat := signBit f s + (2 ^ f.ebits - 1) * 2 ^ (f.prec - 1)

/-- The default NaN: quiet, positive, payload 0 (R311). -/
def nanBits (f : Fmt) : Nat := (2 ^ f.ebits - 1) * 2 ^ (f.prec - 1) + 2 ^ (f.prec - 2)

/-- Round (-1)^s * m * 2^e to format f, nearest even, and pack it; the flag says overflow.
When the exact value lies strictly between m and m+1 units of 2^e, `sticky` is set. -/
def roundPack (f : Fmt) (s : Bool) (m : Nat) (e : Int) (sticky : Bool) : Nat × Bool :=
  let m2 := 2 * m + (if sticky then 1 else 0)
  let e2 := e - 1
  if m2 == 0 then (signBit f s, false) else
  let top : Int := (Nat.log2 m2 : Int) + e2
  let emin : Int := 1 - (f.bias : Int)
  let q : Int := max (top - ((f.prec : Int) - 1)) (emin - ((f.prec : Int) - 1))
  let r : Nat :=
    if q ≤ e2 then m2 * 2 ^ (e2 - q).toNat
    else
      let sh := (q - e2).toNat
      let hi := m2 / 2 ^ sh
      let rem := m2 % 2 ^ sh
      let half := 2 ^ (sh - 1)
      if rem > half || (rem == half && hi % 2 == 1) then hi + 1 else hi
  let mb := f.prec - 1
  let body : Nat :=
    if r < 2 ^ mb then r
    else ((q + (f.prec : Int) - 1 + (f.bias : Int)).toNat) * 2 ^ mb + (r - 2 ^ mb)
  if body ≥ (2 ^ f.ebits - 1) * 2 ^ mb then (infBits f s, true) else (signBit f s + body, false)

/-- Pack an unpacked value (rounding it). -/
def pack (f : Fmt) : Unp → Nat × Bool
  | .nan => (nanBits f, false)
  | .inf s => (infBits f s, false)
  | .fin s m e => roundPack f s m e false

/-- Exact sum of two finite values, as (sign, mantissa, exponent); an exact zero of opposite signs is +0. -/
def sumExact (s1 : Bool) (m1 : Nat) (e1 : Int) (s2 : Bool) (m2 : Nat) (e2 : Int) : Bool × Nat × Int :=
  let e := min e1 e2
  let a : Int := (m1 * 2 ^ (e1 - e).toNat : Nat)
  let b : Int := (m2 * 2 ^ (e2 - e).toNat : Nat)
  let v := (if s1 then -a else a) + (if s2 then -b else b)
  if v == 0 then (s1 && s2, 0, e) else (decide (v < 0), v.natAbs, e)

/-- The exception flags of a packed result. -/
def mkF (r : Nat × Bool) : Word64 × FFlags := (BitVec.ofNat 64 r.1, ⟨r.2, false⟩)

/-- The default NaN of binary64. -/
def nan64 : Word64 := 0x7FF8000000000000#64
/-- +0.0 -/
def zero64 : Word64 := 0#64
/-- 1.0 -/
def one64 : Word64 := 0x3FF0000000000000#64
/-- +infinity -/
def inf64 : Word64 := 0x7FF0000000000000#64

/-- An invalid operation: the default NaN with INV. -/
def invalid64 : Word64 × FFlags := (nan64, ⟨false, true⟩)

/-- Unpack a binary64 bit pattern. -/
def up (x : Word64) : Unp := unpack fmt64 x.toNat

/-- Addition of unpacked values. -/
def addU : Unp → Unp → Word64 × FFlags
  | .nan, _ => (nan64, noF)
  | _, .nan => (nan64, noF)
  | .inf s, .inf t => if s == t then (BitVec.ofNat 64 (infBits fmt64 s), noF) else invalid64
  | .inf s, .fin .. => (BitVec.ofNat 64 (infBits fmt64 s), noF)
  | .fin .., .inf t => (BitVec.ofNat 64 (infBits fmt64 t), noF)
  | .fin s1 m1 e1, .fin s2 m2 e2 =>
    let r := sumExact s1 m1 e1 s2 m2 e2
    mkF (roundPack fmt64 r.1 r.2.1 r.2.2 false)

/-- The negative of an unpacked value. -/
def negU : Unp → Unp
  | .nan => .nan
  | .inf s => .inf (!s)
  | .fin s m e => .fin (!s) m e

/-- Exact product of unpacked values; none when invalid (0 * inf). -/
def mulExact : Unp → Unp → Option Unp
  | .nan, _ => some .nan
  | _, .nan => some .nan
  | .inf s, .inf t => some (.inf (s != t))
  | .inf s, .fin t m _ => if m == 0 then none else some (.inf (s != t))
  | .fin t m _, .inf s => if m == 0 then none else some (.inf (s != t))
  | .fin s1 m1 e1, .fin s2 m2 e2 => some (.fin (s1 != s2) (m1 * m2) (e1 + e2))

/-- FADD with flags. -/
def faddF (a b : Word64) : Word64 × FFlags := addU (up a) (up b)
/-- FSUB with flags. -/
def fsubF (a b : Word64) : Word64 × FFlags := addU (up a) (negU (up b))
/-- FMUL with flags. -/
def fmulF (a b : Word64) : Word64 × FFlags :=
  match mulExact (up a) (up b) with
  | none => invalid64
  | some u => mkF (pack fmt64 u)
/-- a * b + c rounded once, with flags. -/
def fmaF (a b c : Word64) : Word64 × FFlags :=
  match mulExact (up a) (up b) with
  | none => if up c == .nan then (nan64, noF) else invalid64
  | some u => addU u (up c)
/-- c - a * b rounded once, with flags. -/
def fnmsF (a b c : Word64) : Word64 × FFlags :=
  match mulExact (up a) (up b) with
  | none => if up c == .nan then (nan64, noF) else invalid64
  | some u => addU (up c) (negU u)

/-- FDIV with flags: a finite non-zero value divided by zero sets INV and gives an infinity (R311). -/
def fdivF (a b : Word64) : Word64 × FFlags :=
  match up a, up b with
  | .nan, _ => (nan64, noF)
  | _, .nan => (nan64, noF)
  | .inf _, .inf _ => invalid64
  | .inf s, .fin t _ _ => (BitVec.ofNat 64 (infBits fmt64 (s != t)), noF)
  | .fin s _ _, .inf t => (BitVec.ofNat 64 (signBit fmt64 (s != t)), noF)
  | .fin s m1 e1, .fin t m2 e2 =>
    if m2 == 0 then
      (if m1 == 0 then invalid64 else (BitVec.ofNat 64 (infBits fmt64 (s != t)), ⟨false, true⟩))
    else
      let n := m1 * 2 ^ 118
      mkF (roundPack fmt64 (s != t) (n / m2) (e1 - e2 - 118) (n % m2 != 0))

/-- Integer square root by binary digits, from the top bit down. -/
def isqrtAux (n : Nat) : Nat → Nat → Nat
  | 0, r => r
  | k + 1, r =>
    let c := r + 2 ^ k
    if c * c ≤ n then isqrtAux n k c else isqrtAux n k r

/-- Integer square root of a number below 2^256. -/
def isqrt (n : Nat) : Nat := isqrtAux n 128 0

/-- FSQRT with flags: INV for A < 0 (R311). -/
def fsqrtF (a : Word64) : Word64 × FFlags :=
  match up a with
  | .nan => (nan64, noF)
  | .inf false => (inf64, noF)
  | .inf true => invalid64
  | .fin s m e =>
    if m == 0 then (a, noF)
    else if s then invalid64
    else
      let odd := e % 2 != 0
      let e' := if odd then e - 1 else e
      let n := (if odd then 2 * m else m) * 2 ^ 120
      let r := isqrt n
      mkF (roundPack fmt64 false r ((e' - 120) / 2) (r * r != n))

/-- binary64 addition. -/
def fadd (a b : Word64) : Word64 := (faddF a b).1
/-- binary64 subtraction. -/
def fsub (a b : Word64) : Word64 := (fsubF a b).1
/-- binary64 multiplication. -/
def fmul (a b : Word64) : Word64 := (fmulF a b).1
/-- binary64 division. -/
def fdiv (a b : Word64) : Word64 := (fdivF a b).1
/-- binary64 square root. -/
def fsqrt (a : Word64) : Word64 := (fsqrtF a).1
/-- Clears the sign bit. -/
def fabs (a : Word64) : Word64 := a &&& 0x7FFFFFFFFFFFFFFF#64
/-- Inverts the sign bit. -/
def fneg (a : Word64) : Word64 := a ^^^ 0x8000000000000000#64

/-- Is the pattern a NaN? -/
def fisNaN (a : Word64) : Bool := up a == .nan
/-- Is the pattern finite? -/
def fisFin (a : Word64) : Bool :=
  match up a with
  | .fin .. => true
  | _ => false
/-- The sign bit. -/
def fsign (a : Word64) : Bool := a.getMsbD 0

/-- The order key of a non-NaN pattern: equal for -0 and +0. -/
def forderKey (a : Word64) : Int :=
  let m : Int := (a &&& 0x7FFFFFFFFFFFFFFF#64).toNat
  if fsign a then -m else m

/-- a < b; false with a NaN. -/
def flt (a b : Word64) : Bool := !fisNaN a && !fisNaN b && decide (forderKey a < forderKey b)
/-- a ≤ b; false with a NaN. -/
def fle (a b : Word64) : Bool := !fisNaN a && !fisNaN b && decide (forderKey a ≤ forderKey b)
/-- a = b; false with a NaN. -/
def feq (a b : Word64) : Bool := !fisNaN a && !fisNaN b && decide (forderKey a = forderKey b)

/-- FMIN: a NaN operand is ignored, both NaN give NaN, -0 < +0 (R311). -/
def fmin (a b : Word64) : Word64 :=
  if fisNaN a then (if fisNaN b then nan64 else b)
  else if fisNaN b then a
  else if forderKey a = forderKey b then (if fsign a then a else b)
  else if flt a b then a else b
/-- FMAX, as FMIN. -/
def fmax (a b : Word64) : Word64 :=
  if fisNaN a then (if fisNaN b then nan64 else b)
  else if fisNaN b then a
  else if forderKey a = forderKey b then (if fsign a then b else a)
  else if flt a b then b else a

/-- The binary64 nearest an integer times a power of two. -/
def fofIntE (v : Int) (e : Int) : Word64 :=
  BitVec.ofNat 64 (roundPack fmt64 (decide (v < 0)) v.natAbs e false).1
/-- The binary64 nearest an integer. -/
def fofInt (v : Int) : Word64 := fofIntE v 0
/-- The binary64 nearest a natural number. -/
def fofNat (v : Nat) : Word64 := fofInt v
/-- The binary64 nearest n / d. -/
def fofRat (n : Int) (d : Nat) : Word64 := fdiv (fofInt n) (fofNat d)

/-- Rounding modes of FRND (R311). -/
inductive RMode where
  | nearest | zero | down | up
  deriving DecidableEq, Repr

/-- (-1)^s * m * 2^e rounded to an integer under a mode. -/
def roundInt (mode : RMode) (s : Bool) (m : Nat) (e : Int) : Int :=
  let v : Nat :=
    if 0 ≤ e then m * 2 ^ e.toNat
    else
      let sh := (-e).toNat
      let hi := m / 2 ^ sh
      let rem := m % 2 ^ sh
      let half := 2 ^ (sh - 1)
      match mode with
      | .nearest => if rem > half || (rem == half && hi % 2 == 1) then hi + 1 else hi
      | .zero => hi
      | .down => if s && rem != 0 then hi + 1 else hi
      | .up => if !s && rem != 0 then hi + 1 else hi
  if s then -(v : Int) else v

/-- FRND: an integral binary64; the sign of a zero result is the operand's. -/
def frnd (mode : RMode) (a : Word64) : Word64 :=
  match up a with
  | .nan => nan64
  | .inf _ => a
  | .fin s m e =>
    if 0 ≤ e then a
    else
      let v := roundInt mode s m e
      if v == 0 then BitVec.ofNat 64 (signBit fmt64 s) else fofInt v

/-- The integer a finite value rounds to; 0 for a NaN or an infinity. -/
def ftoInt (mode : RMode) (a : Word64) : Int :=
  match up a with
  | .fin s m e => roundInt mode s m e
  | _ => 0

/-- Clamp an integer into [lo, hi]. -/
def clampI (lo hi v : Int) : Int := max lo (min hi v)

/-- Saturating conversion to a w-bit signed integer, as FTOI does (R311); the flags say out of range and NaN. -/
def ftoSat (w : Nat) (mode : RMode) (a : Word64) : Int × FFlags :=
  match up a with
  | .nan => (0, ⟨false, true⟩)
  | .inf s => (if s then -(2 ^ (w - 1) : Nat) else ((2 ^ (w - 1) : Nat) : Int) - 1, ⟨true, false⟩)
  | .fin s m e =>
    let v := roundInt mode s m e
    let r := clampI (-((2 ^ (w - 1) : Nat) : Int)) (((2 ^ (w - 1) : Nat) : Int) - 1) v
    (r, ⟨decide (r ≠ v), false⟩)

/-- binary64 rounded to binary32, with the overflow flag. -/
def f64to32F (a : Word64) : Word × FFlags :=
  let r := pack fmt32 (up a)
  (BitVec.ofNat 32 r.1, ⟨r.2, false⟩)
/-- binary64 rounded to binary32. -/
def f64to32 (a : Word64) : Word := (f64to32F a).1
/-- binary32 widened to binary64, exactly; a NaN gives the default NaN. -/
def f32to64 (a : Word) : Word64 := BitVec.ofNat 64 (pack fmt64 (unpack fmt32 a.toNat)).1

/-- binary64 raised to a natural power, by repeated multiplication. -/
def fpowNat (a : Word64) : Nat → Word64
  | 0 => one64
  | n + 1 => fmul (fpowNat a n) a

/-- Sum of a list, left to right. -/
def fsum (l : List Word64) : Word64 := l.foldl fadd zero64
/-- Inner product, left to right. -/
def fdot (a b : List Word64) : Word64 := fsum (List.zipWith fmul a b)

end Sys2Proof.Machine
end

