-- ==== Sys2Proof/Machine/Regs.lean ====
section
/-!
DEFINITION. The register map: every register the spec's tables name, its address, its fields, who may write it,
its power domain, its access codes (R13), its retention classes (R16, R365) and its reset word.
The names are the spec's, with the instance number as argument; a binary64 register is two words, low first (R56).
Names the spec leaves out (a register given by offset only) are the model's: assumption log entry 5.
-/
namespace Sys2Proof.Machine

/-- A field of a register: word address, lowest bit, width. -/
structure Fld where
  addr : Nat
  lo : Nat
  w : Nat
  deriving DecidableEq, Repr

/-- One row of the register map. `dims` lists (instances, stride), outermost first. The masks say which bits are
RW, W1C, RC, WO and WK (the rest are RO or reserved), and which are class A, S and O (the rest are class V). -/
structure RegDesc where
  base : Nat
  dims : List (Nat × Nat)
  writers : Nat
  clearers : Nat
  dom : Nat
  reset : Nat
  rw : Nat
  w1c : Nat
  rc : Nat
  wo : Nat
  wk : Nat
  clsA : Nat
  clsS : Nat
  clsO : Nat
  deriving DecidableEq, Repr


/-! SYS (00_scope, R2). -/
/-- SYS_ID. -/
def R.SYS_ID : Nat := 0x40000000
def F.SYS_ID_PART : Fld := ⟨R.SYS_ID, 16, 16⟩
def F.SYS_ID_SREV : Fld := ⟨R.SYS_ID, 8, 8⟩
/-- SYS_PERSONA. -/
def R.SYS_PERSONA : Nat := 0x40000004
def F.SYS_PERSONA_PERSONA : Fld := ⟨R.SYS_PERSONA, 0, 2⟩
def F.SYS_PERSONA_STRAP : Fld := ⟨R.SYS_PERSONA, 2, 2⟩
def F.SYS_PERSONA_MATCH : Fld := ⟨R.SYS_PERSONA, 4, 1⟩
def F.SYS_PERSONA_NODE_ID : Fld := ⟨R.SYS_PERSONA, 16, 9⟩

/-! SYS (20_map_otp_boot, R349). -/
/-- SYS_BOOT. -/
def R.SYS_BOOT : Nat := 0x40000008
def F.SYS_BOOT_SLOT : Fld := ⟨R.SYS_BOOT, 0, 2⟩
def F.SYS_BOOT_DONE : Fld := ⟨R.SYS_BOOT, 2, 1⟩
def F.SYS_BOOT_GOOD : Fld := ⟨R.SYS_BOOT, 3, 1⟩
def F.SYS_BOOT_AFAIL : Fld := ⟨R.SYS_BOOT, 4, 3⟩
def F.SYS_BOOT_BFAIL : Fld := ⟨R.SYS_BOOT, 7, 3⟩
def F.SYS_BOOT_BOOT_TRY : Fld := ⟨R.SYS_BOOT, 10, 2⟩
def F.SYS_BOOT_OTP_NOGEN : Fld := ⟨R.SYS_BOOT, 12, 1⟩
/-- SYS_BOOTCNT. -/
def R.SYS_BOOTCNT : Nat := 0x4000000C
def F.SYS_BOOTCNT_COUNT : Fld := ⟨R.SYS_BOOTCNT, 0, 16⟩
/-- SYS_KEYERR. -/
def R.SYS_KEYERR : Nat := 0x40000010
def F.SYS_KEYERR_COUNT : Fld := ⟨R.SYS_KEYERR, 0, 8⟩
/-- SYS_BUSERR. -/
def R.SYS_BUSERR : Nat := 0x40000014
def F.SYS_BUSERR_COUNT : Fld := ⟨R.SYS_BUSERR, 0, 8⟩

/-! SYS (01_one_cycle, R27). -/
/-- SYS_CYC_CTRL. -/
def R.SYS_CYC_CTRL : Nat := 0x40000100
def F.SYS_CYC_CTRL_RUN : Fld := ⟨R.SYS_CYC_CTRL, 0, 1⟩
def F.SYS_CYC_CTRL_CFGERR : Fld := ⟨R.SYS_CYC_CTRL, 1, 1⟩
def F.SYS_CYC_CTRL_CFGWHY : Fld := ⟨R.SYS_CYC_CTRL, 2, 3⟩
def F.SYS_CYC_CTRL_MISS_MAX : Fld := ⟨R.SYS_CYC_CTRL, 8, 4⟩
/-- SYS_CYC_PERIOD. -/
def R.SYS_CYC_PERIOD : Nat := 0x40000104
def F.SYS_CYC_PERIOD_PERIOD_US : Fld := ⟨R.SYS_CYC_PERIOD, 0, 17⟩
/-- SYS_CYC_PHA. -/
def R.SYS_CYC_PHA : Nat := 0x40000108
def F.SYS_CYC_PHA_PH_PROJ : Fld := ⟨R.SYS_CYC_PHA, 0, 14⟩
def F.SYS_CYC_PHA_PH_EST : Fld := ⟨R.SYS_CYC_PHA, 16, 14⟩
/-- SYS_CYC_PHB. -/
def R.SYS_CYC_PHB : Nat := 0x4000010C
def F.SYS_CYC_PHB_PH_SK : Fld := ⟨R.SYS_CYC_PHB, 0, 14⟩
def F.SYS_CYC_PHB_PH_QP : Fld := ⟨R.SYS_CYC_PHB, 16, 14⟩
/-- SYS_CYC_PHC. -/
def R.SYS_CYC_PHC : Nat := 0x40000110
def F.SYS_CYC_PHC_PH_LAUNCH : Fld := ⟨R.SYS_CYC_PHC, 0, 14⟩
def F.SYS_CYC_PHC_PH_CKPT : Fld := ⟨R.SYS_CYC_PHC, 16, 14⟩
/-- SYS_CYC_DLQP. -/
def R.SYS_CYC_DLQP : Nat := 0x40000114
def F.SYS_CYC_DLQP_DL_QP : Fld := ⟨R.SYS_CYC_DLQP, 0, 17⟩
/-- SYS_CYC_NUM. -/
def R.SYS_CYC_NUM : Nat := 0x40000118
def F.SYS_CYC_NUM_NUM : Fld := ⟨R.SYS_CYC_NUM, 0, 32⟩
/-- SYS_CYC_STAT. -/
def R.SYS_CYC_STAT : Nat := 0x4000011C
def F.SYS_CYC_STAT_EST_SHORT : Fld := ⟨R.SYS_CYC_STAT, 0, 1⟩
def F.SYS_CYC_STAT_DEM_OLD : Fld := ⟨R.SYS_CYC_STAT, 1, 1⟩
def F.SYS_CYC_STAT_QP_DL : Fld := ⟨R.SYS_CYC_STAT, 2, 1⟩
def F.SYS_CYC_STAT_OUT_MISS : Fld := ⟨R.SYS_CYC_STAT, 3, 1⟩
def F.SYS_CYC_STAT_CKPT_FAIL : Fld := ⟨R.SYS_CYC_STAT, 4, 1⟩
/-- SYS_CYC_T0L. -/
def R.SYS_CYC_T0L : Nat := 0x40000120
def F.SYS_CYC_T0L_T0_LO : Fld := ⟨R.SYS_CYC_T0L, 0, 32⟩
/-- SYS_CYC_T0H. -/
def R.SYS_CYC_T0H : Nat := 0x40000124
def F.SYS_CYC_T0H_T0_HI : Fld := ⟨R.SYS_CYC_T0H, 0, 16⟩
/-- SYS_CYC_CNT. -/
def R.SYS_CYC_CNT : Nat := 0x40000128
def F.SYS_CYC_CNT_OUT_MISS_CNT : Fld := ⟨R.SYS_CYC_CNT, 0, 8⟩
def F.SYS_CYC_CNT_EST_SHORT_CNT : Fld := ⟨R.SYS_CYC_CNT, 8, 8⟩
def F.SYS_CYC_CNT_QP_DL_CNT : Fld := ⟨R.SYS_CYC_CNT, 16, 8⟩
def F.SYS_CYC_CNT_CKPT_FAIL_CNT : Fld := ⟨R.SYS_CYC_CNT, 24, 8⟩

/-! SYS (12_kazso_lattice, R219). -/
/-- SYS_SAFE_REQ. -/
def R.SYS_SAFE_REQ : Nat := 0x40000200
def F.SYS_SAFE_REQ_REQ : Fld := ⟨R.SYS_SAFE_REQ, 0, 4⟩
def F.SYS_SAFE_REQ_CH : Fld := ⟨R.SYS_SAFE_REQ, 4, 5⟩
/-- SYS_SAFE_RES. -/
def R.SYS_SAFE_RES : Nat := 0x40000204
def F.SYS_SAFE_RES_DONE : Fld := ⟨R.SYS_SAFE_RES, 0, 1⟩
def F.SYS_SAFE_RES_REFUSED : Fld := ⟨R.SYS_SAFE_RES, 1, 1⟩

/-! SYS (26_errata, R405). -/
/-- SYS_SCRUB. -/
def R.SYS_SCRUB : Nat := 0x40000300
def F.SYS_SCRUB_CAP : Fld := ⟨R.SYS_SCRUB, 0, 8⟩
def F.SYS_SCRUB_PASS : Fld := ⟨R.SYS_SCRUB, 8, 1⟩

/-! CLK (21_clocks_power_reset, R354). -/
/-- CLK_STAT. -/
def R.CLK_STAT : Nat := 0x40010000
def F.CLK_STAT_PLL0_LOCK : Fld := ⟨R.CLK_STAT, 0, 1⟩
def F.CLK_STAT_PLL1_LOCK : Fld := ⟨R.CLK_STAT, 1, 1⟩
def F.CLK_STAT_REF_BAD : Fld := ⟨R.CLK_STAT, 2, 1⟩
def F.CLK_STAT_SOSC_BAD : Fld := ⟨R.CLK_STAT, 3, 1⟩
def F.CLK_STAT_REF_LOSS_CNT : Fld := ⟨R.CLK_STAT, 8, 8⟩

/-! PWR (21_clocks_power_reset, R356). -/
/-- PWR_DOM_REQ. -/
def R.PWR_DOM_REQ : Nat := 0x40010100
def F.PWR_DOM_REQ_REQ : Fld := ⟨R.PWR_DOM_REQ, 0, 14⟩
/-- PWR_DOM_STAT. -/
def R.PWR_DOM_STAT : Nat := 0x40010104
def F.PWR_DOM_STAT_ON : Fld := ⟨R.PWR_DOM_STAT, 0, 14⟩
/-- PWR_CTRL. -/
def R.PWR_CTRL : Nat := 0x40010108
def F.PWR_CTRL_DEEP : Fld := ⟨R.PWR_CTRL, 0, 1⟩
/-- PWR_STAT. -/
def R.PWR_STAT : Nat := 0x4001010C
def F.PWR_STAT_REFUSED : Fld := ⟨R.PWR_STAT, 0, 1⟩
def F.PWR_STAT_RESTORING : Fld := ⟨R.PWR_STAT, 1, 1⟩
def F.PWR_STAT_DOZE : Fld := ⟨R.PWR_STAT, 2, 10⟩
def F.PWR_STAT_PWR_OFFACC : Fld := ⟨R.PWR_STAT, 16, 16⟩
/-- PWR_WAKE. -/
def R.PWR_WAKE : Nat := 0x40010110
def F.PWR_WAKE_WAKE_PIN : Fld := ⟨R.PWR_WAKE, 0, 1⟩
def F.PWR_WAKE_WAKE_CS : Fld := ⟨R.PWR_WAKE, 1, 1⟩
def F.PWR_WAKE_WAKE_AT : Fld := ⟨R.PWR_WAKE, 2, 1⟩
/-- PWR_WAKEATL. -/
def R.PWR_WAKEATL : Nat := 0x40010114
def F.PWR_WAKEATL_AT : Fld := ⟨R.PWR_WAKEATL, 0, 32⟩
/-- PWR_WAKEATH. -/
def R.PWR_WAKEATH : Nat := 0x40010118
def F.PWR_WAKEATH_AT : Fld := ⟨R.PWR_WAKEATH, 0, 16⟩

/-! RST (21_clocks_power_reset, R362). -/
/-- RST_CAUSE. -/
def R.RST_CAUSE : Nat := 0x40010200
def F.RST_CAUSE_LAST : Fld := ⟨R.RST_CAUSE, 0, 3⟩
def F.RST_CAUSE_SEEN : Fld := ⟨R.RST_CAUSE, 8, 7⟩
/-- RST_WDOG. -/
def R.RST_WDOG : Nat := 0x40010204
def F.RST_WDOG_WD_MS : Fld := ⟨R.RST_WDOG, 0, 16⟩
/-- RST_KICK. -/
def R.RST_KICK : Nat := 0x40010208
def F.RST_KICK_KICK : Fld := ⟨R.RST_KICK, 0, 32⟩
/-- RST_SOFT. -/
def R.RST_SOFT : Nat := 0x4001020C
def F.RST_SOFT_GO : Fld := ⟨R.RST_SOFT, 0, 1⟩
/-- RST_PFORCE. -/
def R.RST_PFORCE : Nat := 0x40010210
def F.RST_PFORCE_GO : Fld := ⟨R.RST_PFORCE, 0, 1⟩

/-! OTP (20_map_otp_boot, R340). -/
/-- OTP_STAT. -/
def R.OTP_STAT : Nat := 0x40020000
def F.OTP_STAT_GEN : Fld := ⟨R.OTP_STAT, 0, 2⟩
def F.OTP_STAT_GVALID : Fld := ⟨R.OTP_STAT, 2, 4⟩
def F.OTP_STAT_GBURNED : Fld := ⟨R.OTP_STAT, 6, 4⟩
def F.OTP_STAT_KEYSET : Fld := ⟨R.OTP_STAT, 10, 4⟩
def F.OTP_STAT_REVOKED : Fld := ⟨R.OTP_STAT, 14, 4⟩
def F.OTP_STAT_VPP : Fld := ⟨R.OTP_STAT, 18, 1⟩
/-- OTP_UIDL. -/
def R.OTP_UIDL : Nat := 0x40020010
def F.OTP_UIDL_UID_LO : Fld := ⟨R.OTP_UIDL, 0, 32⟩
/-- OTP_UIDH. -/
def R.OTP_UIDH : Nat := 0x40020014
def F.OTP_UIDH_UID_HI : Fld := ⟨R.OTP_UIDH, 0, 32⟩
/-- OTP_CFG. -/
def R.OTP_CFG (n : Nat) : Nat := 0x40020200 + n * 0x4
def F.OTP_CFG_CFG (n : Nat) : Fld := ⟨R.OTP_CFG n, 0, 32⟩

/-! CP (19_command_port, R318). -/
/-- CP_CFG. -/
def R.CP_CFG : Nat := 0x40030000
def F.CP_CFG_BAUD : Fld := ⟨R.CP_CFG, 0, 22⟩
/-- CP_STAT. -/
def R.CP_STAT : Nat := 0x40030004
def F.CP_STAT_BUSY : Fld := ⟨R.CP_STAT, 0, 1⟩
def F.CP_STAT_OP7 : Fld := ⟨R.CP_STAT, 1, 1⟩
def F.CP_STAT_TRANSPORT : Fld := ⟨R.CP_STAT, 2, 2⟩
def F.CP_STAT_OP : Fld := ⟨R.CP_STAT, 8, 8⟩
def F.CP_STAT_ELAPSED_MS : Fld := ⟨R.CP_STAT, 16, 16⟩
/-- CP_CNT0. -/
def R.CP_CNT0 : Nat := 0x40030008
def F.CP_CNT0_HDR_ERR : Fld := ⟨R.CP_CNT0, 0, 8⟩
def F.CP_CNT0_BAD_CRC : Fld := ⟨R.CP_CNT0, 8, 8⟩
def F.CP_CNT0_BUSY_SENT : Fld := ⟨R.CP_CNT0, 16, 8⟩
def F.CP_CNT0_DUP : Fld := ⟨R.CP_CNT0, 24, 8⟩
/-- CP_CNT1. -/
def R.CP_CNT1 : Nat := 0x4003000C
def F.CP_CNT1_GAP : Fld := ⟨R.CP_CNT1, 0, 8⟩
def F.CP_CNT1_ABORT : Fld := ⟨R.CP_CNT1, 8, 8⟩
def F.CP_CNT1_UDP_LEN : Fld := ⟨R.CP_CNT1, 16, 8⟩
def F.CP_CNT1_REPLY_IN : Fld := ⟨R.CP_CNT1, 24, 8⟩

/-! IC (22_interrupts, R368). -/
/-- IC_CLAIM. -/
def R.IC_CLAIM (x : Nat) : Nat := 0x40040000 + x * 0x100
def F.IC_CLAIM_LEVEL (x : Nat) : Fld := ⟨R.IC_CLAIM x, 0, 3⟩
def F.IC_CLAIM_VALID (x : Nat) : Fld := ⟨R.IC_CLAIM x, 3, 1⟩
def F.IC_CLAIM_INDEX (x : Nat) : Fld := ⟨R.IC_CLAIM x, 4, 12⟩
def F.IC_CLAIM_SRC (x : Nat) : Fld := ⟨R.IC_CLAIM x, 16, 9⟩
def F.IC_CLAIM_MASKED_LATE (x : Nat) : Fld := ⟨R.IC_CLAIM x, 25, 1⟩
/-- IC_COMPLETE. -/
def R.IC_COMPLETE (x : Nat) : Nat := 0x40040004 + x * 0x100
/-- IC_LEVEL. -/
def R.IC_LEVEL (x : Nat) : Nat := 0x40040008 + x * 0x100
def F.IC_LEVEL_CUR (x : Nat) : Fld := ⟨R.IC_LEVEL x, 0, 3⟩
def F.IC_LEVEL_DEPTH (x : Nat) : Fld := ⟨R.IC_LEVEL x, 4, 4⟩
def F.IC_LEVEL_LINE (x : Nat) : Fld := ⟨R.IC_LEVEL x, 8, 1⟩
/-- IC_PIE. -/
def R.IC_PIE (x : Nat) : Nat := 0x4004000C + x * 0x100
def F.IC_PIE_IE (x : Nat) : Fld := ⟨R.IC_PIE x, 0, 1⟩
/-- IC_PERR. -/
def R.IC_PERR (x : Nat) : Nat := 0x40040010 + x * 0x100
def F.IC_PERR_CPL_EMPTY (x : Nat) : Fld := ⟨R.IC_PERR x, 0, 8⟩
def F.IC_PERR_CLAIM_NONE (x : Nat) : Fld := ⟨R.IC_PERR x, 8, 8⟩
def F.IC_PERR_RING_CFG (x : Nat) : Fld := ⟨R.IC_PERR x, 16, 8⟩
def F.IC_PERR_CHAIN (x : Nat) : Fld := ⟨R.IC_PERR x, 24, 8⟩
/-- RING_BL. -/
def R.RING_BL (x l : Nat) : Nat := 0x40040040 + x * 0x100 + l * 0x10
def F.RING_BL_BASE_LO (x l : Nat) : Fld := ⟨R.RING_BL x l, 0, 32⟩
/-- RING_BH. -/
def R.RING_BH (x l : Nat) : Nat := 0x40040044 + x * 0x100 + l * 0x10
def F.RING_BH_BASE_HI (x l : Nat) : Fld := ⟨R.RING_BH x l, 0, 8⟩
def F.RING_BH_SIZE_LOG2 (x l : Nat) : Fld := ⟨R.RING_BH x l, 8, 4⟩
def F.RING_BH_EN (x l : Nat) : Fld := ⟨R.RING_BH x l, 12, 1⟩
/-- RING_IDX. -/
def R.RING_IDX (x l : Nat) : Nat := 0x40040048 + x * 0x100 + l * 0x10
def F.RING_IDX_HEAD (x l : Nat) : Fld := ⟨R.RING_IDX x l, 0, 13⟩
def F.RING_IDX_TAIL (x l : Nat) : Fld := ⟨R.RING_IDX x l, 16, 13⟩
/-- RING_OVF. -/
def R.RING_OVF (x l : Nat) : Nat := 0x4004004C + x * 0x100 + l * 0x10
def F.RING_OVF_OVF (x l : Nat) : Fld := ⟨R.RING_OVF x l, 0, 16⟩
/-- IC_SWINFO. -/
def R.IC_SWINFO : Nat := 0x40040F00
def F.IC_SWINFO_INFO : Fld := ⟨R.IC_SWINFO, 0, 32⟩
/-- IC_SWSET. -/
def R.IC_SWSET : Nat := 0x40040F04
def F.IC_SWSET_N : Fld := ⟨R.IC_SWSET, 0, 3⟩
def F.IC_SWSET_POLL : Fld := ⟨R.IC_SWSET, 3, 1⟩
/-- IC_SRC. -/
def R.IC_SRC (n : Nat) : Nat := 0x40041000 + n * 0x4
def F.IC_SRC_PRIO (n : Nat) : Fld := ⟨R.IC_SRC n, 0, 3⟩
def F.IC_SRC_MASK (n : Nat) : Fld := ⟨R.IC_SRC n, 3, 1⟩
def F.IC_SRC_TARGET (n : Nat) : Fld := ⟨R.IC_SRC n, 4, 4⟩
/-- IC_CNT. -/
def R.IC_CNT (n : Nat) : Nat := 0x40041800 + n * 0x4
def F.IC_CNT_COUNT (n : Nat) : Fld := ⟨R.IC_CNT n, 0, 8⟩
def F.IC_CNT_LOST (n : Nat) : Fld := ⟨R.IC_CNT n, 8, 1⟩

/-! REC (23_recorder, R383). -/
/-- REC_STAT. -/
def R.REC_STAT : Nat := 0x40050000
def F.REC_STAT_FILL : Fld := ⟨R.REC_STAT, 0, 17⟩
def F.REC_STAT_BUSY : Fld := ⟨R.REC_STAT, 17, 1⟩
/-- REC_SEQ. -/
def R.REC_SEQ : Nat := 0x40050004
def F.REC_SEQ_NEXT : Fld := ⟨R.REC_SEQ, 0, 32⟩
/-- REC_CUR. -/
def R.REC_CUR : Nat := 0x40050008
def F.REC_CUR_SEQ : Fld := ⟨R.REC_CUR, 0, 32⟩
/-- REC_CTL. -/
def R.REC_CTL : Nat := 0x4005000C
def F.REC_CTL_NEXT : Fld := ⟨R.REC_CTL, 0, 1⟩
def F.REC_CTL_PAGE : Fld := ⟨R.REC_CTL, 1, 1⟩
def F.REC_CTL_WVALID : Fld := ⟨R.REC_CTL, 2, 1⟩
def F.REC_CTL_CLR_REF : Fld := ⟨R.REC_CTL, 3, 1⟩
/-- REC_CLR. -/
def R.REC_CLR : Nat := 0x40050010
def F.REC_CLR_CLEAR : Fld := ⟨R.REC_CLR, 0, 1⟩
/-- REC_DROP0. -/
def R.REC_DROP0 : Nat := 0x40050014
def F.REC_DROP0_DROP0 : Fld := ⟨R.REC_DROP0, 0, 8⟩
def F.REC_DROP0_DROP1 : Fld := ⟨R.REC_DROP0, 8, 8⟩
def F.REC_DROP0_DROP2 : Fld := ⟨R.REC_DROP0, 16, 8⟩
def F.REC_DROP0_DROP3 : Fld := ⟨R.REC_DROP0, 24, 8⟩
/-- REC_DROP1. -/
def R.REC_DROP1 : Nat := 0x40050018
def F.REC_DROP1_DROP4 : Fld := ⟨R.REC_DROP1, 0, 8⟩
def F.REC_DROP1_DROP5 : Fld := ⟨R.REC_DROP1, 8, 8⟩
def F.REC_DROP1_DROP6 : Fld := ⟨R.REC_DROP1, 16, 8⟩
def F.REC_DROP1_DROP7 : Fld := ⟨R.REC_DROP1, 24, 8⟩
/-- REC_CNT. -/
def R.REC_CNT : Nat := 0x4005001C
def F.REC_CNT_COALESCED : Fld := ⟨R.REC_CNT, 0, 16⟩
def F.REC_CNT_SKIPPED : Fld := ⟨R.REC_CNT, 16, 8⟩
def F.REC_CNT_ARCH_MISS : Fld := ⟨R.REC_CNT, 24, 8⟩
/-- REC_ARCH_CFG. -/
def R.REC_ARCH_CFG : Nat := 0x40050020
def F.REC_ARCH_CFG_EN : Fld := ⟨R.REC_ARCH_CFG, 0, 1⟩
def F.REC_ARCH_CFG_SIZE_LOG2 : Fld := ⟨R.REC_ARCH_CFG, 1, 5⟩
/-- REC_ARCH_BL. -/
def R.REC_ARCH_BL : Nat := 0x40050024
def F.REC_ARCH_BL_BASE : Fld := ⟨R.REC_ARCH_BL, 0, 32⟩
/-- REC_ARCH_BH. -/
def R.REC_ARCH_BH : Nat := 0x40050028
def F.REC_ARCH_BH_BASE : Fld := ⟨R.REC_ARCH_BH, 0, 8⟩
/-- REC_ARCH_WIDX. -/
def R.REC_ARCH_WIDX : Nat := 0x4005002C
def F.REC_ARCH_WIDX_WIDX : Fld := ⟨R.REC_ARCH_WIDX, 0, 25⟩
/-- REC_WIN. -/
def R.REC_WIN (k : Nat) : Nat := 0x40050100 + k * 0x4
def F.REC_WIN_DATA (k : Nat) : Fld := ⟨R.REC_WIN k, 0, 32⟩
/-- REC_EVCFG. -/
def R.REC_EVCFG (w : Nat) : Nat := 0x40051000 + w * 0x4
def F.REC_EVCFG_SEV0 (w : Nat) : Fld := ⟨R.REC_EVCFG w, 0, 3⟩
def F.REC_EVCFG_OFF0 (w : Nat) : Fld := ⟨R.REC_EVCFG w, 3, 1⟩
def F.REC_EVCFG_LIST0 (w : Nat) : Fld := ⟨R.REC_EVCFG w, 4, 3⟩
def F.REC_EVCFG_SEV1 (w : Nat) : Fld := ⟨R.REC_EVCFG w, 8, 3⟩
def F.REC_EVCFG_OFF1 (w : Nat) : Fld := ⟨R.REC_EVCFG w, 11, 1⟩
def F.REC_EVCFG_LIST1 (w : Nat) : Fld := ⟨R.REC_EVCFG w, 12, 3⟩
def F.REC_EVCFG_SEV2 (w : Nat) : Fld := ⟨R.REC_EVCFG w, 16, 3⟩
def F.REC_EVCFG_OFF2 (w : Nat) : Fld := ⟨R.REC_EVCFG w, 19, 1⟩
def F.REC_EVCFG_LIST2 (w : Nat) : Fld := ⟨R.REC_EVCFG w, 20, 3⟩
def F.REC_EVCFG_SEV3 (w : Nat) : Fld := ⟨R.REC_EVCFG w, 24, 3⟩
def F.REC_EVCFG_OFF3 (w : Nat) : Fld := ⟨R.REC_EVCFG w, 27, 1⟩
def F.REC_EVCFG_LIST3 (w : Nat) : Fld := ⟨R.REC_EVCFG w, 28, 3⟩
/-- REC_LIST. -/
def R.REC_LIST (l k : Nat) : Nat := 0x40052000 + l * 0x100 + k * 0x4
def F.REC_LIST_OFS (l k : Nat) : Fld := ⟨R.REC_LIST l k, 0, 20⟩
def F.REC_LIST_EN (l k : Nat) : Fld := ⟨R.REC_LIST l k, 31, 1⟩

/-! PMU (24_counters, R386). -/
/-- PMU_CTL. -/
def R.PMU_CTL : Nat := 0x40060000
def F.PMU_CTL_FREEZE : Fld := ⟨R.PMU_CTL, 0, 1⟩
def F.PMU_CTL_SNAP : Fld := ⟨R.PMU_CTL, 1, 1⟩
def F.PMU_CTL_SNAP_TICK : Fld := ⟨R.PMU_CTL, 2, 1⟩
def F.PMU_CTL_PMU_USER : Fld := ⟨R.PMU_CTL, 3, 1⟩
/-- PMU_STAT. -/
def R.PMU_STAT : Nat := 0x40060004
def F.PMU_STAT_SNAP_SEQ : Fld := ⟨R.PMU_STAT, 0, 16⟩
def F.PMU_STAT_UDENY : Fld := ⟨R.PMU_STAT, 16, 1⟩
/-- PMU_OVF. -/
def R.PMU_OVF (w : Nat) : Nat := 0x40060010 + w * 0x4
def F.PMU_OVF_OVF (w : Nat) : Fld := ⟨R.PMU_OVF w, 0, 32⟩
/-- PMU_CFG. -/
def R.PMU_CFG (n : Nat) : Nat := 0x40060400 + n * 0x4
def F.PMU_CFG_CHAIN (n : Nat) : Fld := ⟨R.PMU_CFG n, 0, 1⟩
def F.PMU_CFG_IRQ (n : Nat) : Fld := ⟨R.PMU_CFG n, 1, 1⟩
def F.PMU_CFG_OCC_MODE (n : Nat) : Fld := ⟨R.PMU_CFG n, 2, 1⟩
def F.PMU_CFG_THRESH (n : Nat) : Fld := ⟨R.PMU_CFG n, 8, 12⟩
/-- PMU_CNTL. -/
def R.PMU_CNTL (n : Nat) : Nat := 0x40061000 + n * 0x8
def F.PMU_CNTL_CNT_LO (n : Nat) : Fld := ⟨R.PMU_CNTL n, 0, 32⟩
/-- PMU_CNTH. -/
def R.PMU_CNTH (n : Nat) : Nat := 0x40061004 + n * 0x8
def F.PMU_CNTH_CNT_HI (n : Nat) : Fld := ⟨R.PMU_CNTH n, 0, 16⟩
/-- PMU_SHL. -/
def R.PMU_SHL (n : Nat) : Nat := 0x40062000 + n * 0x8
def F.PMU_SHL_SH_LO (n : Nat) : Fld := ⟨R.PMU_SHL n, 0, 32⟩
/-- PMU_SHH. -/
def R.PMU_SHH (n : Nat) : Nat := 0x40062004 + n * 0x8
def F.PMU_SHH_SH_HI (n : Nat) : Fld := ⟨R.PMU_SHH n, 0, 16⟩

/-! TIME (14_time, R239). -/
/-- TIME_NOWL. -/
def R.TIME_NOWL : Nat := 0x40070000
def F.TIME_NOWL_NOW_LO : Fld := ⟨R.TIME_NOWL, 0, 32⟩
/-- TIME_NOWH. -/
def R.TIME_NOWH : Nat := 0x40070004
def F.TIME_NOWH_NOW_HI : Fld := ⟨R.TIME_NOWH, 0, 32⟩
/-- TIME_NOWF. -/
def R.TIME_NOWF : Nat := 0x40070008
def F.TIME_NOWF_FRAC : Fld := ⟨R.TIME_NOWF, 0, 32⟩
/-- TIME_INCL. -/
def R.TIME_INCL : Nat := 0x40070010
def F.TIME_INCL_INC_FRAC : Fld := ⟨R.TIME_INCL, 0, 32⟩
/-- TIME_INCH. -/
def R.TIME_INCH : Nat := 0x40070014
def F.TIME_INCH_INC_NS : Fld := ⟨R.TIME_INCH, 0, 8⟩
/-- TIME_REF. -/
def R.TIME_REF : Nat := 0x40070020
def F.TIME_REF_PRI : Fld := ⟨R.TIME_REF, 0, 2⟩
def F.TIME_REF_SEC : Fld := ⟨R.TIME_REF, 2, 2⟩
def F.TIME_REF_BW : Fld := ⟨R.TIME_REF, 4, 4⟩
def F.TIME_REF_JUMP_US : Fld := ⟨R.TIME_REF, 16, 16⟩
/-- TIME_STAT. -/
def R.TIME_STAT : Nat := 0x40070024
def F.TIME_STAT_TQ : Fld := ⟨R.TIME_STAT, 0, 3⟩
def F.TIME_STAT_SRC : Fld := ⟨R.TIME_STAT, 3, 2⟩
def F.TIME_STAT_JUMP_REF : Fld := ⟨R.TIME_STAT, 5, 1⟩
def F.TIME_STAT_CONT : Fld := ⟨R.TIME_STAT, 6, 1⟩
def F.TIME_STAT_INC_CLAMP : Fld := ⟨R.TIME_STAT, 7, 1⟩
def F.TIME_STAT_STEP_CNT : Fld := ⟨R.TIME_STAT, 8, 8⟩
/-- TIME_ACC. -/
def R.TIME_ACC : Nat := 0x40070028
def F.TIME_ACC_ACC_NS : Fld := ⟨R.TIME_ACC, 0, 32⟩
/-- TIME_OFS. -/
def R.TIME_OFS : Nat := 0x4007002C
def F.TIME_OFS_OFS_NS : Fld := ⟨R.TIME_OFS, 0, 32⟩
/-- TIME_HOLD. -/
def R.TIME_HOLD : Nat := 0x40070030
def F.TIME_HOLD_HOLD_DRIFT : Fld := ⟨R.TIME_HOLD, 0, 16⟩
def F.TIME_HOLD_LOSS_MS : Fld := ⟨R.TIME_HOLD, 16, 16⟩
/-- TIME_LEAP. -/
def R.TIME_LEAP : Nat := 0x40070034
def F.TIME_LEAP_TAI_UTC : Fld := ⟨R.TIME_LEAP, 0, 8⟩
def F.TIME_LEAP_VALID : Fld := ⟨R.TIME_LEAP, 8, 1⟩
def F.TIME_LEAP_PEND : Fld := ⟨R.TIME_LEAP, 9, 2⟩
/-- TIME_HSPEC. -/
def R.TIME_HSPEC : Nat := 0x40070038
def F.TIME_HSPEC_HOLD_SPEC_NS : Fld := ⟨R.TIME_HSPEC, 0, 32⟩
/-- TIME_STEP. -/
def R.TIME_STEP : Nat := 0x40070040
def F.TIME_STEP_MODE : Fld := ⟨R.TIME_STEP, 0, 2⟩
def F.TIME_STEP_SRES : Fld := ⟨R.TIME_STEP, 2, 1⟩
/-- TIME_SETL. -/
def R.TIME_SETL : Nat := 0x40070044
def F.TIME_SETL_SET : Fld := ⟨R.TIME_SETL, 0, 32⟩
/-- TIME_SETH. -/
def R.TIME_SETH : Nat := 0x40070048
def F.TIME_SETH_SET : Fld := ⟨R.TIME_SETH, 0, 32⟩
/-- TIME_PPS_CFG. -/
def R.TIME_PPS_CFG (k : Nat) : Nat := 0x40070060 + k * 0x8
def F.TIME_PPS_CFG_EN (k : Nat) : Fld := ⟨R.TIME_PPS_CFG k, 0, 1⟩
def F.TIME_PPS_CFG_PER (k : Nat) : Fld := ⟨R.TIME_PPS_CFG k, 1, 2⟩
def F.TIME_PPS_CFG_POL (k : Nat) : Fld := ⟨R.TIME_PPS_CFG k, 3, 1⟩
def F.TIME_PPS_CFG_WIDTH_US (k : Nat) : Fld := ⟨R.TIME_PPS_CFG k, 4, 28⟩
/-- TIME_PPS_OFS. -/
def R.TIME_PPS_OFS (k : Nat) : Nat := 0x40070064 + k * 0x8
def F.TIME_PPS_OFS_OFS_NS (k : Nat) : Fld := ⟨R.TIME_PPS_OFS k, 0, 32⟩
/-- TCAP_CFG. -/
def R.TCAP_CFG (n : Nat) : Nat := 0x40070080 + n * 0x10
def F.TCAP_CFG_EDGE (n : Nat) : Fld := ⟨R.TCAP_CFG n, 0, 2⟩
def F.TCAP_CFG_IRQ_EN (n : Nat) : Fld := ⟨R.TCAP_CFG n, 2, 1⟩
/-- TCAP_ST. -/
def R.TCAP_ST (n : Nat) : Nat := 0x40070084 + n * 0x10
def F.TCAP_ST_FILL (n : Nat) : Fld := ⟨R.TCAP_ST n, 0, 4⟩
def F.TCAP_ST_OVF_CNT (n : Nat) : Fld := ⟨R.TCAP_ST n, 4, 8⟩
/-- TCAP_TSL. -/
def R.TCAP_TSL (n : Nat) : Nat := 0x40070088 + n * 0x10
def F.TCAP_TSL_TS_LO (n : Nat) : Fld := ⟨R.TCAP_TSL n, 0, 32⟩
/-- TCAP_TSH. -/
def R.TCAP_TSH (n : Nat) : Nat := 0x4007008C + n * 0x10
def F.TCAP_TSH_TS_HI (n : Nat) : Fld := ⟨R.TCAP_TSH n, 0, 16⟩
def F.TCAP_TSH_FINE (n : Nat) : Fld := ⟨R.TCAP_TSH n, 16, 5⟩
def F.TCAP_TSH_VALID (n : Nat) : Fld := ⟨R.TCAP_TSH n, 21, 1⟩
/-- TIME_LCH. -/
def R.TIME_LCH : Nat := 0x400700C0
def F.TIME_LCH_LATE_POLICY : Fld := ⟨R.TIME_LCH, 0, 5⟩
def F.TIME_LCH_LATE_TOL_US : Fld := ⟨R.TIME_LCH, 16, 16⟩
/-- TIME_LCNT. -/
def R.TIME_LCNT (p : Nat) : Nat := 0x400700C4 + p * 0x4
def F.TIME_LCNT_LATE_SENT (p : Nat) : Fld := ⟨R.TIME_LCNT p, 0, 16⟩
def F.TIME_LCNT_LATE_DROP (p : Nat) : Fld := ⟨R.TIME_LCNT p, 16, 16⟩
/-- TIME_PTP. -/
def R.TIME_PTP : Nat := 0x40070100
def F.TIME_PTP_ROLE : Fld := ⟨R.TIME_PTP, 0, 2⟩
def F.TIME_PTP_DOMAIN : Fld := ⟨R.TIME_PTP, 2, 7⟩
def F.TIME_PTP_PRIO1 : Fld := ⟨R.TIME_PTP, 16, 8⟩
def F.TIME_PTP_PRIO2 : Fld := ⟨R.TIME_PTP, 24, 8⟩
/-- TIME_PTP_CFG. -/
def R.TIME_PTP_CFG (p : Nat) : Nat := 0x40070120 + p * 0x20
def F.TIME_PTP_CFG_UDP (p : Nat) : Fld := ⟨R.TIME_PTP_CFG p, 0, 1⟩
def F.TIME_PTP_CFG_P2P (p : Nat) : Fld := ⟨R.TIME_PTP_CFG p, 1, 1⟩
def F.TIME_PTP_CFG_SLAVE_ONLY (p : Nat) : Fld := ⟨R.TIME_PTP_CFG p, 2, 1⟩
def F.TIME_PTP_CFG_LOG_SYNC (p : Nat) : Fld := ⟨R.TIME_PTP_CFG p, 8, 8⟩
def F.TIME_PTP_CFG_LOG_ANN (p : Nat) : Fld := ⟨R.TIME_PTP_CFG p, 16, 8⟩
def F.TIME_PTP_CFG_LOG_DELAY (p : Nat) : Fld := ⟨R.TIME_PTP_CFG p, 24, 8⟩
/-- TIME_PTP_ST. -/
def R.TIME_PTP_ST (p : Nat) : Nat := 0x40070124 + p * 0x20
def F.TIME_PTP_ST_PSTATE (p : Nat) : Fld := ⟨R.TIME_PTP_ST p, 0, 3⟩
/-- TIME_PTP_ASYM. -/
def R.TIME_PTP_ASYM (p : Nat) : Nat := 0x40070128 + p * 0x20
def F.TIME_PTP_ASYM_ASYM_NS (p : Nat) : Fld := ⟨R.TIME_PTP_ASYM p, 0, 32⟩
/-- TIME_PTP_MPD. -/
def R.TIME_PTP_MPD (p : Nat) : Nat := 0x4007012C + p * 0x20
def F.TIME_PTP_MPD_MPD_NS (p : Nat) : Fld := ⟨R.TIME_PTP_MPD p, 0, 32⟩
/-- PTP_CNT. -/
def R.PTP_CNT (p : Nat) : Nat := 0x40070130 + p * 0x20
def F.PTP_CNT_UNSUP (p : Nat) : Fld := ⟨R.PTP_CNT p, 0, 16⟩
def F.PTP_CNT_SYNC_LOST (p : Nat) : Fld := ⟨R.PTP_CNT p, 16, 16⟩

/-! NET (15_networks_cascade, R254). -/
/-- NET_CFG. -/
def R.NET_CFG (p : Nat) : Nat := 0x40080000 + p * 0x1000
def F.NET_CFG_EN (p : Nat) : Fld := ⟨R.NET_CFG p, 0, 1⟩
def F.NET_CFG_IFACE (p : Nat) : Fld := ⟨R.NET_CFG p, 1, 1⟩
def F.NET_CFG_AN_EN (p : Nat) : Fld := ⟨R.NET_CFG p, 2, 1⟩
def F.NET_CFG_VLAN_EN (p : Nat) : Fld := ⟨R.NET_CFG p, 3, 1⟩
def F.NET_CFG_RING (p : Nat) : Fld := ⟨R.NET_CFG p, 4, 1⟩
def F.NET_CFG_CP_EN (p : Nat) : Fld := ⟨R.NET_CFG p, 5, 1⟩
def F.NET_CFG_VID (p : Nat) : Fld := ⟨R.NET_CFG p, 16, 12⟩
def F.NET_CFG_PCP (p : Nat) : Fld := ⟨R.NET_CFG p, 28, 3⟩
/-- NET_STAT. -/
def R.NET_STAT (p : Nat) : Nat := 0x40080004 + p * 0x1000
def F.NET_STAT_LINK (p : Nat) : Fld := ⟨R.NET_STAT p, 0, 1⟩
def F.NET_STAT_SPEED (p : Nat) : Fld := ⟨R.NET_STAT p, 1, 2⟩
/-- NET_CNT0. -/
def R.NET_CNT0 (p : Nat) : Nat := 0x40080008 + p * 0x1000
def F.NET_CNT0_FCS_ERR (p : Nat) : Fld := ⟨R.NET_CNT0 p, 0, 8⟩
def F.NET_CNT0_RX_OVF (p : Nat) : Fld := ⟨R.NET_CNT0 p, 8, 8⟩
def F.NET_CNT0_UNSUP (p : Nat) : Fld := ⟨R.NET_CNT0 p, 16, 8⟩
def F.NET_CNT0_NOT_SENT (p : Nat) : Fld := ⟨R.NET_CNT0 p, 24, 8⟩
/-- NET_IP. -/
def R.NET_IP (p : Nat) : Nat := 0x4008000C + p * 0x1000
def F.NET_IP_ADDR (p : Nat) : Fld := ⟨R.NET_IP p, 0, 32⟩
/-- NET_MASK. -/
def R.NET_MASK (p : Nat) : Nat := 0x40080010 + p * 0x1000
def F.NET_MASK_MASK (p : Nat) : Fld := ⟨R.NET_MASK p, 0, 32⟩
/-- NET_TXRL. -/
def R.NET_TXRL (p : Nat) : Nat := 0x40080020 + p * 0x1000
def F.NET_TXRL_BASE_LO (p : Nat) : Fld := ⟨R.NET_TXRL p, 0, 32⟩
/-- NET_TXRH. -/
def R.NET_TXRH (p : Nat) : Nat := 0x40080024 + p * 0x1000
def F.NET_TXRH_BASE_HI (p : Nat) : Fld := ⟨R.NET_TXRH p, 0, 8⟩
def F.NET_TXRH_SIZE_LOG2 (p : Nat) : Fld := ⟨R.NET_TXRH p, 8, 4⟩
/-- NET_TXT. -/
def R.NET_TXT (p : Nat) : Nat := 0x40080028 + p * 0x1000
def F.NET_TXT_TAIL (p : Nat) : Fld := ⟨R.NET_TXT p, 0, 12⟩
def F.NET_TXT_HEAD (p : Nat) : Fld := ⟨R.NET_TXT p, 16, 12⟩
/-- NET_FLOW_CFG. -/
def R.NET_FLOW_CFG (n : Nat) : Nat := 0x40088000 + n * 0x10
def F.NET_FLOW_CFG_EN (n : Nat) : Fld := ⟨R.NET_FLOW_CFG n, 0, 1⟩
def F.NET_FLOW_CFG_KIND (n : Nat) : Fld := ⟨R.NET_FLOW_CFG n, 1, 2⟩
def F.NET_FLOW_CFG_PORTS (n : Nat) : Fld := ⟨R.NET_FLOW_CFG n, 3, 2⟩
def F.NET_FLOW_CFG_GROUP (n : Nat) : Fld := ⟨R.NET_FLOW_CFG n, 5, 4⟩
def F.NET_FLOW_CFG_UDP_PORT (n : Nat) : Fld := ⟨R.NET_FLOW_CFG n, 16, 16⟩
/-- NET_FLOW_SRC0. -/
def R.NET_FLOW_SRC0 (n : Nat) : Nat := 0x40088004 + n * 0x10
def F.NET_FLOW_SRC0_SRC (n : Nat) : Fld := ⟨R.NET_FLOW_SRC0 n, 0, 32⟩
/-- NET_FLOW_SRC1. -/
def R.NET_FLOW_SRC1 (n : Nat) : Nat := 0x40088008 + n * 0x10
def F.NET_FLOW_SRC1_SRC (n : Nat) : Fld := ⟨R.NET_FLOW_SRC1 n, 0, 32⟩
/-- NET_FLOW_IP. -/
def R.NET_FLOW_IP (n : Nat) : Nat := 0x4008800C + n * 0x10
def F.NET_FLOW_IP_IP (n : Nat) : Fld := ⟨R.NET_FLOW_IP n, 0, 32⟩

/-! TWIN (15_networks_cascade, R260). -/
/-- TWIN_CFG. -/
def R.TWIN_CFG : Nat := 0x40090000
def F.TWIN_CFG_WIN_US : Fld := ⟨R.TWIN_CFG, 0, 14⟩
/-- TWIN_STAT. -/
def R.TWIN_STAT : Nat := 0x40090004
def F.TWIN_STAT_PEND : Fld := ⟨R.TWIN_STAT, 0, 7⟩
/-- TWIN_CNT0. -/
def R.TWIN_CNT0 : Nat := 0x40090008
def F.TWIN_CNT0_SINGLE : Fld := ⟨R.TWIN_CNT0, 0, 8⟩
def F.TWIN_CNT0_DISC : Fld := ⟨R.TWIN_CNT0, 8, 8⟩
def F.TWIN_CNT0_STALE_COPY : Fld := ⟨R.TWIN_CNT0, 16, 8⟩
def F.TWIN_CNT0_CRC_ERR : Fld := ⟨R.TWIN_CNT0, 24, 8⟩
/-- TWIN_CNT1. -/
def R.TWIN_CNT1 : Nat := 0x4009000C
def F.TWIN_CNT1_SAFE_ERR : Fld := ⟨R.TWIN_CNT1, 0, 8⟩
def F.TWIN_CNT1_NOT_ALLOWED : Fld := ⟨R.TWIN_CNT1, 8, 8⟩
def F.TWIN_CNT1_PEND_OVF : Fld := ⟨R.TWIN_CNT1, 16, 8⟩
def F.TWIN_CNT1_NOT_SENT : Fld := ⟨R.TWIN_CNT1, 24, 8⟩
/-- TWIN_EVT. -/
def R.TWIN_EVT : Nat := 0x40090010
def F.TWIN_EVT_SINGLE : Fld := ⟨R.TWIN_EVT, 0, 1⟩
def F.TWIN_EVT_DISC : Fld := ⟨R.TWIN_EVT, 1, 1⟩
def F.TWIN_EVT_SAFE_ERR : Fld := ⟨R.TWIN_EVT, 2, 1⟩

/-! ZAL (15_networks_cascade, R264). -/
/-- ZAL_TREE. -/
def R.ZAL_TREE : Nat := 0x400A0000
def F.ZAL_TREE_LEVEL : Fld := ⟨R.ZAL_TREE, 0, 2⟩
def F.ZAL_TREE_PARENT : Fld := ⟨R.ZAL_TREE, 2, 9⟩
/-- ZAL_SYNCL. -/
def R.ZAL_SYNCL : Nat := 0x400A0010
def F.ZAL_SYNCL_AT_LO : Fld := ⟨R.ZAL_SYNCL, 0, 32⟩
/-- ZAL_SYNCH. -/
def R.ZAL_SYNCH : Nat := 0x400A0014
def F.ZAL_SYNCH_AT_HI : Fld := ⟨R.ZAL_SYNCH, 0, 16⟩
def F.ZAL_SYNCH_DST : Fld := ⟨R.ZAL_SYNCH, 16, 10⟩
def F.ZAL_SYNCH_GO : Fld := ⟨R.ZAL_SYNCH, 31, 1⟩
/-- ZAL_DISC_CTRL. -/
def R.ZAL_DISC_CTRL : Nat := 0x400A0040
def F.ZAL_DISC_CTRL_COMMISSION : Fld := ⟨R.ZAL_DISC_CTRL, 0, 1⟩
def F.ZAL_DISC_CTRL_HELLO_EN : Fld := ⟨R.ZAL_DISC_CTRL, 1, 1⟩
/-- ZAL_SIG. -/
def R.ZAL_SIG : Nat := 0x400A0044
def F.ZAL_SIG_SIG : Fld := ⟨R.ZAL_SIG, 0, 32⟩
/-- ZAL_PEER_SEL. -/
def R.ZAL_PEER_SEL : Nat := 0x400A0048
def F.ZAL_PEER_SEL_NODE : Fld := ⟨R.ZAL_PEER_SEL, 0, 9⟩
/-- ZAL_PEER_STAT. -/
def R.ZAL_PEER_STAT : Nat := 0x400A004C
def F.ZAL_PEER_STAT_STATE : Fld := ⟨R.ZAL_PEER_STAT, 0, 2⟩
def F.ZAL_PEER_STAT_SIGMATCH : Fld := ⟨R.ZAL_PEER_STAT, 2, 1⟩
def F.ZAL_PEER_STAT_PERSONA : Fld := ⟨R.ZAL_PEER_STAT, 3, 2⟩
def F.ZAL_PEER_STAT_LEVEL : Fld := ⟨R.ZAL_PEER_STAT, 5, 2⟩
def F.ZAL_PEER_STAT_PARENT : Fld := ⟨R.ZAL_PEER_STAT, 7, 9⟩
def F.ZAL_PEER_STAT_LAST_MS : Fld := ⟨R.ZAL_PEER_STAT, 16, 16⟩
/-- ZAL_DISC_EVT. -/
def R.ZAL_DISC_EVT : Nat := 0x400A0050
def F.ZAL_DISC_EVT_ADMIT : Fld := ⟨R.ZAL_DISC_EVT, 0, 1⟩
def F.ZAL_DISC_EVT_REFUSE : Fld := ⟨R.ZAL_DISC_EVT, 1, 1⟩
def F.ZAL_DISC_EVT_DETACH : Fld := ⟨R.ZAL_DISC_EVT, 2, 1⟩
def F.ZAL_DISC_EVT_ID_CLASH : Fld := ⟨R.ZAL_DISC_EVT, 3, 1⟩
/-- ZAL_PRESENT. -/
def R.ZAL_PRESENT (k : Nat) : Nat := 0x400A0080 + k * 0x4
def F.ZAL_PRESENT_PRESENT (k : Nat) : Fld := ⟨R.ZAL_PRESENT k, 0, 32⟩
/-- ZAL_TLM_CFG. -/
def R.ZAL_TLM_CFG (k : Nat) : Nat := 0x400A0100 + k * 0x10
def F.ZAL_TLM_CFG_EN (k : Nat) : Fld := ⟨R.ZAL_TLM_CFG k, 0, 1⟩
def F.ZAL_TLM_CFG_PORTS (k : Nat) : Fld := ⟨R.ZAL_TLM_CFG k, 1, 2⟩
def F.ZAL_TLM_CFG_COUNT (k : Nat) : Fld := ⟨R.ZAL_TLM_CFG k, 3, 7⟩
def F.ZAL_TLM_CFG_PERIOD (k : Nat) : Fld := ⟨R.ZAL_TLM_CFG k, 16, 16⟩
/-- ZAL_TLM_LISTL. -/
def R.ZAL_TLM_LISTL (k : Nat) : Nat := 0x400A0104 + k * 0x10
def F.ZAL_TLM_LISTL_LIST_LO (k : Nat) : Fld := ⟨R.ZAL_TLM_LISTL k, 0, 32⟩
/-- ZAL_TLM_LISTH. -/
def R.ZAL_TLM_LISTH (k : Nat) : Nat := 0x400A0108 + k * 0x10
def F.ZAL_TLM_LISTH_LIST_HI (k : Nat) : Fld := ⟨R.ZAL_TLM_LISTH k, 0, 8⟩
/-- ZAL_TLM_PH. -/
def R.ZAL_TLM_PH (k : Nat) : Nat := 0x400A010C + k * 0x10
def F.ZAL_TLM_PH_PH_US (k : Nat) : Fld := ⟨R.ZAL_TLM_PH k, 0, 16⟩

/-! CAN (16_can, R270). -/
/-- CAN_CFG. -/
def R.CAN_CFG (c : Nat) : Nat := 0x400B0000 + c * 0x1000
def F.CAN_CFG_EN (c : Nat) : Fld := ⟨R.CAN_CFG c, 0, 1⟩
def F.CAN_CFG_MODE (c : Nat) : Fld := ⟨R.CAN_CFG c, 1, 2⟩
def F.CAN_CFG_FD_EN (c : Nat) : Fld := ⟨R.CAN_CFG c, 3, 1⟩
def F.CAN_CFG_PROFILE (c : Nat) : Fld := ⟨R.CAN_CFG c, 4, 1⟩
def F.CAN_CFG_TRIPLE (c : Nat) : Fld := ⟨R.CAN_CFG c, 5, 1⟩
def F.CAN_CFG_AUTO_REC (c : Nat) : Fld := ⟨R.CAN_CFG c, 6, 1⟩
def F.CAN_CFG_REF_MODE (c : Nat) : Fld := ⟨R.CAN_CFG c, 7, 2⟩
def F.CAN_CFG_REF_BUF (c : Nat) : Fld := ⟨R.CAN_CFG c, 9, 6⟩
/-- CAN_NBT. -/
def R.CAN_NBT (c : Nat) : Nat := 0x400B0004 + c * 0x1000
def F.CAN_NBT_NBRP (c : Nat) : Fld := ⟨R.CAN_NBT c, 0, 8⟩
def F.CAN_NBT_NTSEG1 (c : Nat) : Fld := ⟨R.CAN_NBT c, 8, 9⟩
def F.CAN_NBT_NTSEG2 (c : Nat) : Fld := ⟨R.CAN_NBT c, 17, 7⟩
def F.CAN_NBT_NSJW (c : Nat) : Fld := ⟨R.CAN_NBT c, 24, 7⟩
/-- CAN_DBT. -/
def R.CAN_DBT (c : Nat) : Nat := 0x400B0008 + c * 0x1000
def F.CAN_DBT_DBRP (c : Nat) : Fld := ⟨R.CAN_DBT c, 0, 5⟩
def F.CAN_DBT_DTSEG1 (c : Nat) : Fld := ⟨R.CAN_DBT c, 5, 6⟩
def F.CAN_DBT_DTSEG2 (c : Nat) : Fld := ⟨R.CAN_DBT c, 11, 5⟩
def F.CAN_DBT_DSJW (c : Nat) : Fld := ⟨R.CAN_DBT c, 16, 4⟩
def F.CAN_DBT_TDC_EN (c : Nat) : Fld := ⟨R.CAN_DBT c, 20, 1⟩
def F.CAN_DBT_TDCO (c : Nat) : Fld := ⟨R.CAN_DBT c, 21, 7⟩
/-- CAN_SCH. -/
def R.CAN_SCH (c : Nat) : Nat := 0x400B000C + c * 0x1000
def F.CAN_SCH_BC_US (c : Nat) : Fld := ⟨R.CAN_SCH c, 0, 16⟩
def F.CAN_SCH_NROW (c : Nat) : Fld := ⟨R.CAN_SCH c, 16, 7⟩
def F.CAN_SCH_RETRY_MAX (c : Nat) : Fld := ⟨R.CAN_SCH c, 23, 5⟩
/-- CAN_STAT. -/
def R.CAN_STAT (c : Nat) : Nat := 0x400B0010 + c * 0x1000
def F.CAN_STAT_ESTATE (c : Nat) : Fld := ⟨R.CAN_STAT c, 0, 2⟩
def F.CAN_STAT_LONELY (c : Nat) : Fld := ⟨R.CAN_STAT c, 2, 1⟩
def F.CAN_STAT_CFGERR (c : Nat) : Fld := ⟨R.CAN_STAT c, 3, 1⟩
def F.CAN_STAT_REF_LOST (c : Nat) : Fld := ⟨R.CAN_STAT c, 4, 1⟩
def F.CAN_STAT_TEC (c : Nat) : Fld := ⟨R.CAN_STAT c, 16, 8⟩
def F.CAN_STAT_REC (c : Nat) : Fld := ⟨R.CAN_STAT c, 24, 8⟩
/-- CAN_CNT. -/
def R.CAN_CNT (c : Nat) : Nat := 0x400B0014 + c * 0x1000
def F.CAN_CNT_ACKERR (c : Nat) : Fld := ⟨R.CAN_CNT c, 0, 8⟩
def F.CAN_CNT_BUSERR (c : Nat) : Fld := ⟨R.CAN_CNT c, 8, 8⟩
def F.CAN_CNT_NOMATCH (c : Nat) : Fld := ⟨R.CAN_CNT c, 16, 8⟩
def F.CAN_CNT_BUSOFF (c : Nat) : Fld := ⟨R.CAN_CNT c, 24, 8⟩
/-- CAN_TXREQ. -/
def R.CAN_TXREQ (c : Nat) : Nat := 0x400B0018 + c * 0x1000
def F.CAN_TXREQ_BUF (c : Nat) : Fld := ⟨R.CAN_TXREQ c, 0, 6⟩
/-- CAN_CANCEL. -/
def R.CAN_CANCEL (c : Nat) : Nat := 0x400B001C + c * 0x1000
def F.CAN_CANCEL_BUF (c : Nat) : Fld := ⟨R.CAN_CANCEL c, 0, 6⟩
/-- CAN_COLT. -/
def R.CAN_COLT (c j : Nat) : Nat := 0x400B0100 + c * 0x1000 + j * 0x4
def F.CAN_COLT_COL_T (c j : Nat) : Fld := ⟨R.CAN_COLT c j, 0, 16⟩
/-- CAN_NAMEL. -/
def R.CAN_NAMEL (c n : Nat) : Nat := 0x400B0200 + c * 0x1000 + n * 0x10
def F.CAN_NAMEL_NAME_LO (c n : Nat) : Fld := ⟨R.CAN_NAMEL c n, 0, 32⟩
/-- CAN_NAMEH. -/
def R.CAN_NAMEH (c n : Nat) : Nat := 0x400B0204 + c * 0x1000 + n * 0x10
def F.CAN_NAMEH_NAME_HI (c n : Nat) : Fld := ⟨R.CAN_NAMEH c n, 0, 32⟩
/-- CAN_NAMEST. -/
def R.CAN_NAMEST (c n : Nat) : Nat := 0x400B0208 + c * 0x1000 + n * 0x10
def F.CAN_NAMEST_EN (c n : Nat) : Fld := ⟨R.CAN_NAMEST c n, 0, 1⟩
def F.CAN_NAMEST_PRESENT (c n : Nat) : Fld := ⟨R.CAN_NAMEST c n, 1, 1⟩
def F.CAN_NAMEST_SA (c n : Nat) : Fld := ⟨R.CAN_NAMEST c n, 8, 8⟩
/-- CAN_CELL. -/
def R.CAN_CELL (c k : Nat) : Nat := 0x400B0800 + c * 0x1000 + k * 0x4
def F.CAN_CELL_CELLS (c k : Nat) : Fld := ⟨R.CAN_CELL c k, 0, 32⟩
/-- CAN_BCFG. -/
def R.CAN_BCFG (c b : Nat) : Nat := 0x400B8000 + c * 0x2000 + b * 0x80
def F.CAN_BCFG_EN (c b : Nat) : Fld := ⟨R.CAN_BCFG c b, 0, 1⟩
def F.CAN_BCFG_DIR (c b : Nat) : Fld := ⟨R.CAN_BCFG c b, 1, 1⟩
def F.CAN_BCFG_IDE (c b : Nat) : Fld := ⟨R.CAN_BCFG c b, 2, 1⟩
def F.CAN_BCFG_FDF (c b : Nat) : Fld := ⟨R.CAN_BCFG c b, 3, 1⟩
def F.CAN_BCFG_BRS (c b : Nat) : Fld := ⟨R.CAN_BCFG c b, 4, 1⟩
def F.CAN_BCFG_EVT (c b : Nat) : Fld := ⟨R.CAN_BCFG c b, 5, 1⟩
def F.CAN_BCFG_DLC (c b : Nat) : Fld := ⟨R.CAN_BCFG c b, 6, 4⟩
def F.CAN_BCFG_DOFS (c b : Nat) : Fld := ⟨R.CAN_BCFG c b, 10, 6⟩
/-- CAN_BID. -/
def R.CAN_BID (c b : Nat) : Nat := 0x400B8004 + c * 0x2000 + b * 0x80
def F.CAN_BID_ID (c b : Nat) : Fld := ⟨R.CAN_BID c b, 0, 29⟩
/-- CAN_BMASK. -/
def R.CAN_BMASK (c b : Nat) : Nat := 0x400B8008 + c * 0x2000 + b * 0x80
def F.CAN_BMASK_MASK (c b : Nat) : Fld := ⟨R.CAN_BMASK c b, 0, 29⟩
/-- CAN_BST. -/
def R.CAN_BST (c b : Nat) : Nat := 0x400B800C + c * 0x2000 + b * 0x80
def F.CAN_BST_CODE (c b : Nat) : Fld := ⟨R.CAN_BST c b, 0, 4⟩
def F.CAN_BST_ENDBY (c b : Nat) : Fld := ⟨R.CAN_BST c b, 4, 1⟩
def F.CAN_BST_TRIES (c b : Nat) : Fld := ⟨R.CAN_BST c b, 5, 6⟩
def F.CAN_BST_FT_NS (c b : Nat) : Fld := ⟨R.CAN_BST c b, 11, 21⟩
/-- CAN_BSTAMPL. -/
def R.CAN_BSTAMPL (c b : Nat) : Nat := 0x400B8010 + c * 0x2000 + b * 0x80
def F.CAN_BSTAMPL_STAMP_LO (c b : Nat) : Fld := ⟨R.CAN_BSTAMPL c b, 0, 32⟩
/-- CAN_BSTAMPH. -/
def R.CAN_BSTAMPH (c b : Nat) : Nat := 0x400B8014 + c * 0x2000 + b * 0x80
def F.CAN_BSTAMPH_STAMP_HI (c b : Nat) : Fld := ⟨R.CAN_BSTAMPH c b, 0, 16⟩
/-- CAN_BDATA. -/
def R.CAN_BDATA (c b i : Nat) : Nat := 0x400B8040 + c * 0x2000 + b * 0x80 + i * 0x4
def F.CAN_BDATA_DATA (c b i : Nat) : Fld := ⟨R.CAN_BDATA c b i, 0, 32⟩

/-! UART (02_streams, R42). -/
/-- UART_CFG. -/
def R.UART_CFG (p : Nat) : Nat := 0x400C0000 + p * 0x100
def F.UART_CFG_EN (p : Nat) : Fld := ⟨R.UART_CFG p, 0, 1⟩
def F.UART_CFG_PARSE (p : Nat) : Fld := ⟨R.UART_CFG p, 1, 2⟩
def F.UART_CFG_BITS7 (p : Nat) : Fld := ⟨R.UART_CFG p, 3, 1⟩
def F.UART_CFG_PAR (p : Nat) : Fld := ⟨R.UART_CFG p, 4, 2⟩
def F.UART_CFG_STOP2 (p : Nat) : Fld := ⟨R.UART_CFG p, 6, 1⟩
def F.UART_CFG_DIV (p : Nat) : Fld := ⟨R.UART_CFG p, 8, 20⟩
/-- UART_STAT. -/
def R.UART_STAT (p : Nat) : Nat := 0x400C0004 + p * 0x100
def F.UART_STAT_FERR (p : Nat) : Fld := ⟨R.UART_STAT p, 0, 1⟩
def F.UART_STAT_PERR (p : Nat) : Fld := ⟨R.UART_STAT p, 1, 1⟩
def F.UART_STAT_OVR (p : Nat) : Fld := ⟨R.UART_STAT p, 2, 1⟩
def F.UART_STAT_BRK (p : Nat) : Fld := ⟨R.UART_STAT p, 3, 1⟩
def F.UART_STAT_RXACT (p : Nat) : Fld := ⟨R.UART_STAT p, 4, 1⟩
def F.UART_STAT_RXFILL (p : Nat) : Fld := ⟨R.UART_STAT p, 8, 9⟩
def F.UART_STAT_TXFILL (p : Nat) : Fld := ⟨R.UART_STAT p, 17, 9⟩
/-- UART_CNT. -/
def R.UART_CNT (p : Nat) : Nat := 0x400C0008 + p * 0x100
def F.UART_CNT_CHARS (p : Nat) : Fld := ⟨R.UART_CNT p, 0, 16⟩
def F.UART_CNT_ERRS (p : Nat) : Fld := ⟨R.UART_CNT p, 16, 8⟩
/-- UART_DATA. -/
def R.UART_DATA (p : Nat) : Nat := 0x400C000C + p * 0x100
def F.UART_DATA_DATA (p : Nat) : Fld := ⟨R.UART_DATA p, 0, 8⟩
def F.UART_DATA_VALID (p : Nat) : Fld := ⟨R.UART_DATA p, 8, 1⟩

/-! DSF (10_field_filters, R164). -/
/-- DSF_CFG. -/
def R.DSF_CFG (n : Nat) : Nat := 0x400D0000 + n * 0x80
def F.DSF_CFG_EN (n : Nat) : Fld := ⟨R.DSF_CFG n, 0, 1⟩
def F.DSF_CFG_SRC (n : Nat) : Fld := ⟨R.DSF_CFG n, 1, 2⟩
def F.DSF_CFG_R1 (n : Nat) : Fld := ⟨R.DSF_CFG n, 3, 8⟩
def F.DSF_CFG_DA (n : Nat) : Fld := ⟨R.DSF_CFG n, 11, 2⟩
def F.DSF_CFG_DB (n : Nat) : Fld := ⟨R.DSF_CFG n, 13, 2⟩
def F.DSF_CFG_NA (n : Nat) : Fld := ⟨R.DSF_CFG n, 15, 6⟩
def F.DSF_CFG_NB (n : Nat) : Fld := ⟨R.DSF_CFG n, 21, 7⟩
/-- DSF_PROOF. -/
def R.DSF_PROOF (n : Nat) : Nat := 0x400D0004 + n * 0x80
def F.DSF_PROOF_SETTLE (n : Nat) : Fld := ⟨R.DSF_PROOF n, 0, 16⟩
def F.DSF_PROOF_FILL (n : Nat) : Fld := ⟨R.DSF_PROOF n, 16, 16⟩
/-- DSF_DELAY. -/
def R.DSF_DELAY (n : Nat) : Nat := 0x400D0008 + n * 0x80
def F.DSF_DELAY_DELAY (n : Nat) : Fld := ⟨R.DSF_DELAY n, 0, 16⟩
/-- DSF_STAT. -/
def R.DSF_STAT (n : Nat) : Nat := 0x400D000C + n * 0x80
def F.DSF_STAT_PROOFED (n : Nat) : Fld := ⟨R.DSF_STAT n, 0, 1⟩
def F.DSF_STAT_STUCK (n : Nat) : Fld := ⟨R.DSF_STAT n, 1, 1⟩
def F.DSF_STAT_ALIGNED (n : Nat) : Fld := ⟨R.DSF_STAT n, 2, 1⟩
def F.DSF_STAT_SAT (n : Nat) : Fld := ⟨R.DSF_STAT n, 3, 1⟩
def F.DSF_STAT_THR (n : Nat) : Fld := ⟨R.DSF_STAT n, 4, 2⟩
def F.DSF_STAT_PCOUNT (n : Nat) : Fld := ⟨R.DSF_STAT n, 16, 16⟩
/-- DSF_OUT. -/
def R.DSF_OUT (n : Nat) : Nat := 0x400D0010 + n * 0x80
def F.DSF_OUT_SAMPLE (n : Nat) : Fld := ⟨R.DSF_OUT n, 0, 24⟩
def F.DSF_OUT_PROOFED (n : Nat) : Fld := ⟨R.DSF_OUT n, 24, 1⟩
/-- DSF_TSL. -/
def R.DSF_TSL (n : Nat) : Nat := 0x400D0014 + n * 0x80
def F.DSF_TSL_TS_LO (n : Nat) : Fld := ⟨R.DSF_TSL n, 0, 32⟩
/-- DSF_TSH. -/
def R.DSF_TSH (n : Nat) : Nat := 0x400D0018 + n * 0x80
def F.DSF_TSH_TS_HI (n : Nat) : Fld := ⟨R.DSF_TSH n, 0, 16⟩
/-- DSF_BANKREQ. -/
def R.DSF_BANKREQ (n : Nat) : Nat := 0x400D001C + n * 0x80
def F.DSF_BANKREQ_BANK (n : Nat) : Fld := ⟨R.DSF_BANKREQ n, 0, 1⟩
/-- DSF_BANKSTAT. -/
def R.DSF_BANKSTAT (n : Nat) : Nat := 0x400D0020 + n * 0x80
def F.DSF_BANKSTAT_ACTIVE (n : Nat) : Fld := ⟨R.DSF_BANKSTAT n, 0, 1⟩
def F.DSF_BANKSTAT_PHASE (n : Nat) : Fld := ⟨R.DSF_BANKSTAT n, 1, 2⟩
def F.DSF_BANKSTAT_FADING (n : Nat) : Fld := ⟨R.DSF_BANKSTAT n, 3, 1⟩
def F.DSF_BANKSTAT_QVALID (n : Nat) : Fld := ⟨R.DSF_BANKSTAT n, 4, 1⟩
def F.DSF_BANKSTAT_QBANK (n : Nat) : Fld := ⟨R.DSF_BANKSTAT n, 5, 1⟩
def F.DSF_BANKSTAT_FADE (n : Nat) : Fld := ⟨R.DSF_BANKSTAT n, 6, 9⟩
/-- DSF_THRHI. -/
def R.DSF_THRHI (n : Nat) : Nat := 0x400D0024 + n * 0x80
def F.DSF_THRHI_THR (n : Nat) : Fld := ⟨R.DSF_THRHI n, 0, 24⟩
/-- DSF_THRLO. -/
def R.DSF_THRLO (n : Nat) : Nat := 0x400D0028 + n * 0x80
def F.DSF_THRLO_THR (n : Nat) : Fld := ⟨R.DSF_THRLO n, 0, 24⟩
/-- DSF_THRCFG. -/
def R.DSF_THRCFG (n : Nat) : Nat := 0x400D002C + n * 0x80
def F.DSF_THRCFG_HYST (n : Nat) : Fld := ⟨R.DSF_THRCFG n, 0, 24⟩
def F.DSF_THRCFG_EN_HI (n : Nat) : Fld := ⟨R.DSF_THRCFG n, 24, 1⟩
def F.DSF_THRCFG_EN_LO (n : Nat) : Fld := ⟨R.DSF_THRCFG n, 25, 1⟩
/-- DSF_PEAK. -/
def R.DSF_PEAK (n : Nat) : Nat := 0x400D0030 + n * 0x80
def F.DSF_PEAK_PEAK (n : Nat) : Fld := ⟨R.DSF_PEAK n, 0, 24⟩
/-- DSF_RMS. -/
def R.DSF_RMS (n : Nat) : Nat := 0x400D0034 + n * 0x80
def F.DSF_RMS_RMS (n : Nat) : Fld := ⟨R.DSF_RMS n, 0, 24⟩
/-- DSF_ENV. -/
def R.DSF_ENV (n : Nat) : Nat := 0x400D0038 + n * 0x80
def F.DSF_ENV_ENV (n : Nat) : Fld := ⟨R.DSF_ENV n, 0, 24⟩
/-- DSF_DETCFG. -/
def R.DSF_DETCFG (n : Nat) : Nat := 0x400D003C + n * 0x80
def F.DSF_DETCFG_RMS_W (n : Nat) : Fld := ⟨R.DSF_DETCFG n, 0, 4⟩
def F.DSF_DETCFG_DECAY (n : Nat) : Fld := ⟨R.DSF_DETCFG n, 4, 4⟩
def F.DSF_DETCFG_STRM_DIV (n : Nat) : Fld := ⟨R.DSF_DETCFG n, 16, 16⟩
/-- DSF_SCALE. -/
def R.DSF_SCALE (n : Nat) : Nat := 0x400D0040 + n * 0x80
def F.DSF_SCALE_SCALE (n : Nat) : Fld := ⟨R.DSF_SCALE n, 0, 32⟩
/-- DSF_CNT. -/
def R.DSF_CNT (n : Nat) : Nat := 0x400D0044 + n * 0x80
def F.DSF_CNT_QREPL (n : Nat) : Fld := ⟨R.DSF_CNT n, 0, 8⟩
def F.DSF_CNT_NOOP (n : Nat) : Fld := ⟨R.DSF_CNT n, 8, 8⟩
def F.DSF_CNT_THR_EVT (n : Nat) : Fld := ⟨R.DSF_CNT n, 16, 8⟩
def F.DSF_CNT_COEF_DISC (n : Nat) : Fld := ⟨R.DSF_CNT n, 24, 8⟩
/-- DSF_BOUT_CFG. -/
def R.DSF_BOUT_CFG (k : Nat) : Nat := 0x400DE000 + k * 0x10
def F.DSF_BOUT_CFG_EN (k : Nat) : Fld := ⟨R.DSF_BOUT_CFG k, 0, 1⟩
def F.DSF_BOUT_CFG_DRIVER (k : Nat) : Fld := ⟨R.DSF_BOUT_CFG k, 1, 2⟩
def F.DSF_BOUT_CFG_LOOP (k : Nat) : Fld := ⟨R.DSF_BOUT_CFG k, 3, 5⟩
/-- DSF_BOUT_VAL. -/
def R.DSF_BOUT_VAL (k : Nat) : Nat := 0x400DE004 + k * 0x10
def F.DSF_BOUT_VAL_VAL (k : Nat) : Fld := ⟨R.DSF_BOUT_VAL k, 0, 24⟩
/-- DSF_COEF_SEL. -/
def R.DSF_COEF_SEL : Nat := 0x400DF000
def F.DSF_COEF_SEL_CH : Fld := ⟨R.DSF_COEF_SEL, 0, 5⟩
def F.DSF_COEF_SEL_BANK : Fld := ⟨R.DSF_COEF_SEL, 5, 1⟩
def F.DSF_COEF_SEL_STAGE : Fld := ⟨R.DSF_COEF_SEL, 6, 1⟩
def F.DSF_COEF_SEL_IDX : Fld := ⟨R.DSF_COEF_SEL, 8, 7⟩
/-- DSF_COEF_DATA. -/
def R.DSF_COEF_DATA : Nat := 0x400DF004
def F.DSF_COEF_DATA_COEF : Fld := ⟨R.DSF_COEF_DATA, 0, 24⟩
/-- DSF_SYNC_CTRL. -/
def R.DSF_SYNC_CTRL : Nat := 0x400DF100
def F.DSF_SYNC_CTRL_BALL_EN : Fld := ⟨R.DSF_SYNC_CTRL, 0, 1⟩
def F.DSF_SYNC_CTRL_ARM : Fld := ⟨R.DSF_SYNC_CTRL, 1, 1⟩
def F.DSF_SYNC_CTRL_ARMED : Fld := ⟨R.DSF_SYNC_CTRL, 2, 1⟩
def F.DSF_SYNC_CTRL_ARM_LATE : Fld := ⟨R.DSF_SYNC_CTRL, 3, 1⟩
def F.DSF_SYNC_CTRL_SYNC_CNT : Fld := ⟨R.DSF_SYNC_CTRL, 16, 16⟩
/-- DSF_SYNC_ATL. -/
def R.DSF_SYNC_ATL : Nat := 0x400DF104
def F.DSF_SYNC_ATL_AT : Fld := ⟨R.DSF_SYNC_ATL, 0, 32⟩
/-- DSF_SYNC_ATH. -/
def R.DSF_SYNC_ATH : Nat := 0x400DF108
def F.DSF_SYNC_ATH_AT : Fld := ⟨R.DSF_SYNC_ATH, 0, 16⟩
/-- DSF_ENSET. -/
def R.DSF_ENSET : Nat := 0x400DF120
def F.DSF_ENSET_MASK : Fld := ⟨R.DSF_ENSET, 0, 24⟩

/-! SRV (09_thruster_servo, R150). -/
/-- SRV_LREQ. -/
def R.SRV_LREQ (n : Nat) : Nat := 0x400E0000 + n * 0x200
def F.SRV_LREQ_OP (n : Nat) : Fld := ⟨R.SRV_LREQ n, 0, 3⟩
/-- SRV_LSTAT. -/
def R.SRV_LSTAT (n : Nat) : Nat := 0x400E0004 + n * 0x200
def F.SRV_LSTAT_STATE (n : Nat) : Fld := ⟨R.SRV_LSTAT n, 0, 3⟩
def F.SRV_LSTAT_LRES (n : Nat) : Fld := ⟨R.SRV_LSTAT n, 3, 3⟩
def F.SRV_LSTAT_PEND (n : Nat) : Fld := ⟨R.SRV_LSTAT n, 6, 1⟩
def F.SRV_LSTAT_SP_STALE (n : Nat) : Fld := ⟨R.SRV_LSTAT n, 7, 1⟩
def F.SRV_LSTAT_FB_OK (n : Nat) : Fld := ⟨R.SRV_LSTAT n, 8, 1⟩
def F.SRV_LSTAT_INJ_RUN (n : Nat) : Fld := ⟨R.SRV_LSTAT n, 9, 1⟩
def F.SRV_LSTAT_INJ_REF (n : Nat) : Fld := ⟨R.SRV_LSTAT n, 10, 1⟩
def F.SRV_LSTAT_FCAUSE (n : Nat) : Fld := ⟨R.SRV_LSTAT n, 11, 2⟩
def F.SRV_LSTAT_SAT (n : Nat) : Fld := ⟨R.SRV_LSTAT n, 16, 8⟩
def F.SRV_LSTAT_PLAUS (n : Nat) : Fld := ⟨R.SRV_LSTAT n, 24, 1⟩
/-- SRV_LCFG. -/
def R.SRV_LCFG (n : Nat) : Nat := 0x400E0008 + n * 0x200
def F.SRV_LCFG_RATE (n : Nat) : Fld := ⟨R.SRV_LCFG n, 0, 3⟩
def F.SRV_LCFG_QF (n : Nat) : Fld := ⟨R.SRV_LCFG n, 3, 5⟩
def F.SRV_LCFG_GQF (n : Nat) : Fld := ⟨R.SRV_LCFG n, 8, 5⟩
def F.SRV_LCFG_WRAP (n : Nat) : Fld := ⟨R.SRV_LCFG n, 13, 1⟩
def F.SRV_LCFG_SP_SRC (n : Nat) : Fld := ⟨R.SRV_LCFG n, 14, 2⟩
def F.SRV_LCFG_MAP (n : Nat) : Fld := ⟨R.SRV_LCFG n, 16, 1⟩
def F.SRV_LCFG_CMD_IDX (n : Nat) : Fld := ⟨R.SRV_LCFG n, 17, 5⟩
def F.SRV_LCFG_CMD_COMP (n : Nat) : Fld := ⟨R.SRV_LCFG n, 22, 1⟩
def F.SRV_LCFG_CASC (n : Nat) : Fld := ⟨R.SRV_LCFG n, 23, 5⟩
def F.SRV_LCFG_SP_TMO_ACT (n : Nat) : Fld := ⟨R.SRV_LCFG n, 28, 1⟩
/-- SRV_LIO. -/
def R.SRV_LIO (n : Nat) : Nat := 0x400E000C + n * 0x200
def F.SRV_LIO_FB_KIND (n : Nat) : Fld := ⟨R.SRV_LIO n, 0, 2⟩
def F.SRV_LIO_FB_IDX (n : Nat) : Fld := ⟨R.SRV_LIO n, 2, 5⟩
def F.SRV_LIO_OUT_KIND (n : Nat) : Fld := ⟨R.SRV_LIO n, 7, 2⟩
def F.SRV_LIO_OUT_IDX (n : Nat) : Fld := ⟨R.SRV_LIO n, 9, 8⟩
def F.SRV_LIO_SPD_AVG (n : Nat) : Fld := ⟨R.SRV_LIO n, 17, 4⟩
/-- SRV_LPH. -/
def R.SRV_LPH (n : Nat) : Nat := 0x400E0010 + n * 0x200
def F.SRV_LPH_OUT_PH (n : Nat) : Fld := ⟨R.SRV_LPH n, 0, 20⟩
/-- SRV_LTMO. -/
def R.SRV_LTMO (n : Nat) : Nat := 0x400E0014 + n * 0x200
def F.SRV_LTMO_SP_TMO_MS (n : Nat) : Fld := ⟨R.SRV_LTMO n, 0, 16⟩
def F.SRV_LTMO_FB_HOLD (n : Nat) : Fld := ⟨R.SRV_LTMO n, 16, 8⟩
/-- SRV_LTBL. -/
def R.SRV_LTBL (n : Nat) : Nat := 0x400E0018 + n * 0x200
def F.SRV_LTBL_FR_ENC (n : Nat) : Fld := ⟨R.SRV_LTBL n, 0, 4⟩
def F.SRV_LTBL_COG_ENC (n : Nat) : Fld := ⟨R.SRV_LTBL n, 4, 4⟩
def F.SRV_LTBL_POLES (n : Nat) : Fld := ⟨R.SRV_LTBL n, 8, 8⟩
/-- SRV_LPL. -/
def R.SRV_LPL (n : Nat) : Nat := 0x400E001C + n * 0x200
def F.SRV_LPL_PL_EN (n : Nat) : Fld := ⟨R.SRV_LPL n, 0, 1⟩
def F.SRV_LPL_PL_SRC (n : Nat) : Fld := ⟨R.SRV_LPL n, 1, 1⟩
def F.SRV_LPL_PL_TRIP (n : Nat) : Fld := ⟨R.SRV_LPL n, 2, 1⟩
def F.SRV_LPL_PL_N (n : Nat) : Fld := ⟨R.SRV_LPL n, 16, 16⟩
/-- SRV_KP. -/
def R.SRV_KP (n : Nat) : Nat := 0x400E0020 + n * 0x200
def F.SRV_KP (n : Nat) : Fld := ⟨R.SRV_KP n, 0, 32⟩
/-- SRV_KI. -/
def R.SRV_KI (n : Nat) : Nat := 0x400E0024 + n * 0x200
def F.SRV_KI (n : Nat) : Fld := ⟨R.SRV_KI n, 0, 32⟩
/-- SRV_KD. -/
def R.SRV_KD (n : Nat) : Nat := 0x400E0028 + n * 0x200
def F.SRV_KD (n : Nat) : Fld := ⟨R.SRV_KD n, 0, 32⟩
/-- SRV_DF. -/
def R.SRV_DF (n : Nat) : Nat := 0x400E002C + n * 0x200
def F.SRV_DF (n : Nat) : Fld := ⟨R.SRV_DF n, 0, 32⟩
/-- SRV_KFF. -/
def R.SRV_KFF (n : Nat) : Nat := 0x400E0030 + n * 0x200
def F.SRV_KFF (n : Nat) : Fld := ⟨R.SRV_KFF n, 0, 32⟩
/-- SRV_IMAX. -/
def R.SRV_IMAX (n : Nat) : Nat := 0x400E0034 + n * 0x200
def F.SRV_IMAX (n : Nat) : Fld := ⟨R.SRV_IMAX n, 0, 32⟩
/-- SRV_OMIN. -/
def R.SRV_OMIN (n : Nat) : Nat := 0x400E0038 + n * 0x200
def F.SRV_OMIN (n : Nat) : Fld := ⟨R.SRV_OMIN n, 0, 32⟩
/-- SRV_OMAX. -/
def R.SRV_OMAX (n : Nat) : Nat := 0x400E003C + n * 0x200
def F.SRV_OMAX (n : Nat) : Fld := ⟨R.SRV_OMAX n, 0, 32⟩
/-- SRV_SP_RATE. -/
def R.SRV_SP_RATE (n : Nat) : Nat := 0x400E0040 + n * 0x200
def F.SRV_SP_RATE (n : Nat) : Fld := ⟨R.SRV_SP_RATE n, 0, 32⟩
/-- SRV_WRAP_SPAN. -/
def R.SRV_WRAP_SPAN (n : Nat) : Nat := 0x400E0044 + n * 0x200
def F.SRV_WRAP_SPAN (n : Nat) : Fld := ⟨R.SRV_WRAP_SPAN n, 0, 32⟩
/-- SRV_SAFE_OUT. -/
def R.SRV_SAFE_OUT (n : Nat) : Nat := 0x400E0048 + n * 0x200
def F.SRV_SAFE_OUT (n : Nat) : Fld := ⟨R.SRV_SAFE_OUT n, 0, 32⟩
/-- SRV_SAFE_SP. -/
def R.SRV_SAFE_SP (n : Nat) : Nat := 0x400E004C + n * 0x200
def F.SRV_SAFE_SP (n : Nat) : Fld := ⟨R.SRV_SAFE_SP n, 0, 32⟩
/-- SRV_FR_DB. -/
def R.SRV_FR_DB (n : Nat) : Nat := 0x400E0050 + n * 0x200
def F.SRV_FR_DB (n : Nat) : Fld := ⟨R.SRV_FR_DB n, 0, 32⟩
/-- SRV_SP_GAIN. -/
def R.SRV_SP_GAIN (n : Nat) : Nat := 0x400E0054 + n * 0x200
def F.SRV_SP_GAIN (n : Nat) : Fld := ⟨R.SRV_SP_GAIN n, 0, 32⟩
/-- SRV_SP_OFS. -/
def R.SRV_SP_OFS (n : Nat) : Nat := 0x400E0058 + n * 0x200
def F.SRV_SP_OFS (n : Nat) : Fld := ⟨R.SRV_SP_OFS n, 0, 32⟩
/-- SRV_FB_GAIN. -/
def R.SRV_FB_GAIN (n : Nat) : Nat := 0x400E005C + n * 0x200
def F.SRV_FB_GAIN (n : Nat) : Fld := ⟨R.SRV_FB_GAIN n, 0, 32⟩
/-- SRV_PL_A. -/
def R.SRV_PL_A (n : Nat) : Nat := 0x400E0060 + n * 0x200
def F.SRV_PL_A (n : Nat) : Fld := ⟨R.SRV_PL_A n, 0, 32⟩
/-- SRV_PL_B. -/
def R.SRV_PL_B (n : Nat) : Nat := 0x400E0064 + n * 0x200
def F.SRV_PL_B (n : Nat) : Fld := ⟨R.SRV_PL_B n, 0, 32⟩
/-- SRV_PL_TOL. -/
def R.SRV_PL_TOL (n : Nat) : Nat := 0x400E0068 + n * 0x200
def F.SRV_PL_TOL (n : Nat) : Fld := ⟨R.SRV_PL_TOL n, 0, 32⟩
/-- SRV_SP. -/
def R.SRV_SP (n : Nat) : Nat := 0x400E0080 + n * 0x200
def F.SRV_SP (n : Nat) : Fld := ⟨R.SRV_SP n, 0, 32⟩
/-- SRV_OPEN_OUT. -/
def R.SRV_OPEN_OUT (n : Nat) : Nat := 0x400E0084 + n * 0x200
def F.SRV_OPEN_OUT (n : Nat) : Fld := ⟨R.SRV_OPEN_OUT n, 0, 32⟩
/-- SRV_LIM. -/
def R.SRV_LIM (n : Nat) : Nat := 0x400E0088 + n * 0x200
def F.SRV_LIM (n : Nat) : Fld := ⟨R.SRV_LIM n, 0, 32⟩
/-- SRV_FB. -/
def R.SRV_FB (n : Nat) : Nat := 0x400E008C + n * 0x200
def F.SRV_FB (n : Nat) : Fld := ⟨R.SRV_FB n, 0, 32⟩
/-- SRV_E. -/
def R.SRV_E (n : Nat) : Nat := 0x400E0090 + n * 0x200
def F.SRV_E (n : Nat) : Fld := ⟨R.SRV_E n, 0, 32⟩
/-- SRV_U. -/
def R.SRV_U (n : Nat) : Nat := 0x400E0094 + n * 0x200
def F.SRV_U (n : Nat) : Fld := ⟨R.SRV_U n, 0, 32⟩
/-- SRV_I. -/
def R.SRV_I (n : Nat) : Nat := 0x400E0098 + n * 0x200
def F.SRV_I (n : Nat) : Fld := ⟨R.SRV_I n, 0, 32⟩
/-- SRV_YM. -/
def R.SRV_YM (n : Nat) : Nat := 0x400E009C + n * 0x200
def F.SRV_YM (n : Nat) : Fld := ⟨R.SRV_YM n, 0, 32⟩
/-- SRV_RAW. -/
def R.SRV_RAW (n : Nat) : Nat := 0x400E00A0 + n * 0x200
def F.SRV_RAW (n : Nat) : Fld := ⟨R.SRV_RAW n, 0, 32⟩
/-- SRV_LCNT. -/
def R.SRV_LCNT (n : Nat) : Nat := 0x400E00A4 + n * 0x200
def F.SRV_LCNT_HOLD_CNT (n : Nat) : Fld := ⟨R.SRV_LCNT n, 0, 8⟩
def F.SRV_LCNT_PLAUS_CNT (n : Nat) : Fld := ⟨R.SRV_LCNT n, 8, 8⟩
def F.SRV_LCNT_STALE_CNT (n : Nat) : Fld := ⟨R.SRV_LCNT n, 16, 8⟩
def F.SRV_LCNT_NAN_CNT (n : Nat) : Fld := ⟨R.SRV_LCNT n, 24, 8⟩
/-- SRV_INJ_CFG. -/
def R.SRV_INJ_CFG (n : Nat) : Nat := 0x400E0100 + n * 0x200
def F.SRV_INJ_CFG_WAVE (n : Nat) : Fld := ⟨R.SRV_INJ_CFG n, 0, 2⟩
def F.SRV_INJ_CFG_POINT (n : Nat) : Fld := ⟨R.SRV_INJ_CFG n, 2, 1⟩
def F.SRV_INJ_CFG_START (n : Nat) : Fld := ⟨R.SRV_INJ_CFG n, 3, 1⟩
def F.SRV_INJ_CFG_PRBS_N (n : Nat) : Fld := ⟨R.SRV_INJ_CFG n, 4, 5⟩
def F.SRV_INJ_CFG_HOLD (n : Nat) : Fld := ⟨R.SRV_INJ_CFG n, 16, 16⟩
/-- SRV_INJ_CTRL. -/
def R.SRV_INJ_CTRL (n : Nat) : Nat := 0x400E0104 + n * 0x200
def F.SRV_INJ_CTRL_INJ_GO (n : Nat) : Fld := ⟨R.SRV_INJ_CTRL n, 0, 1⟩
def F.SRV_INJ_CTRL_INJ_STOP (n : Nat) : Fld := ⟨R.SRV_INJ_CTRL n, 1, 1⟩
/-- SRV_INJ_AMP. -/
def R.SRV_INJ_AMP (n : Nat) : Nat := 0x400E0108 + n * 0x200
def F.SRV_INJ_AMP (n : Nat) : Fld := ⟨R.SRV_INJ_AMP n, 0, 32⟩
/-- SRV_INJ_F0. -/
def R.SRV_INJ_F0 (n : Nat) : Nat := 0x400E010C + n * 0x200
def F.SRV_INJ_F0 (n : Nat) : Fld := ⟨R.SRV_INJ_F0 n, 0, 32⟩
/-- SRV_INJ_F1. -/
def R.SRV_INJ_F1 (n : Nat) : Nat := 0x400E0110 + n * 0x200
def F.SRV_INJ_F1 (n : Nat) : Fld := ⟨R.SRV_INJ_F1 n, 0, 32⟩
/-- SRV_INJ_DUR. -/
def R.SRV_INJ_DUR (n : Nat) : Nat := 0x400E0114 + n * 0x200
def F.SRV_INJ_DUR (n : Nat) : Fld := ⟨R.SRV_INJ_DUR n, 0, 32⟩
/-- SRV_INJ_TSL. -/
def R.SRV_INJ_TSL (n : Nat) : Nat := 0x400E0118 + n * 0x200
def F.SRV_INJ_TSL (n : Nat) : Fld := ⟨R.SRV_INJ_TSL n, 0, 32⟩
/-- SRV_INJ_TSH. -/
def R.SRV_INJ_TSH (n : Nat) : Nat := 0x400E011C + n * 0x200
def F.SRV_INJ_TSH_V (n : Nat) : Fld := ⟨R.SRV_INJ_TSH n, 0, 16⟩
/-- SRV_INJ_EL. -/
def R.SRV_INJ_EL (n : Nat) : Nat := 0x400E0120 + n * 0x200
def F.SRV_INJ_EL_ELAPSED (n : Nat) : Fld := ⟨R.SRV_INJ_EL n, 0, 32⟩
/-- SRV_TBL_SEL. -/
def R.SRV_TBL_SEL : Nat := 0x400EF000
def F.SRV_TBL_SEL_LOOP : Fld := ⟨R.SRV_TBL_SEL, 0, 5⟩
def F.SRV_TBL_SEL_TBL : Fld := ⟨R.SRV_TBL_SEL, 5, 1⟩
def F.SRV_TBL_SEL_IDX : Fld := ⟨R.SRV_TBL_SEL, 16, 10⟩
/-- SRV_TBL_DATA. -/
def R.SRV_TBL_DATA : Nat := 0x400EF004
def F.SRV_TBL_DATA_VALUE : Fld := ⟨R.SRV_TBL_DATA, 0, 32⟩
/-- CAP_CH. -/
def R.CAP_CH (u : Nat) : Nat := 0x400EF040 + u * 0x40
def F.CAP_CH_CH0 (u : Nat) : Fld := ⟨R.CAP_CH u, 0, 8⟩
def F.CAP_CH_CH1 (u : Nat) : Fld := ⟨R.CAP_CH u, 8, 8⟩
def F.CAP_CH_CH2 (u : Nat) : Fld := ⟨R.CAP_CH u, 16, 8⟩
def F.CAP_CH_CH3 (u : Nat) : Fld := ⟨R.CAP_CH u, 24, 8⟩
/-- CAP_CFG. -/
def R.CAP_CFG (u : Nat) : Nat := 0x400EF044 + u * 0x40
def F.CAP_CFG_NCH (u : Nat) : Fld := ⟨R.CAP_CFG u, 0, 2⟩
def F.CAP_CFG_DECIM (u : Nat) : Fld := ⟨R.CAP_CFG u, 2, 8⟩
def F.CAP_CFG_TRIG (u : Nat) : Fld := ⟨R.CAP_CFG u, 10, 3⟩
def F.CAP_CFG_TLOOP (u : Nat) : Fld := ⟨R.CAP_CFG u, 13, 5⟩
def F.CAP_CFG_DDR_EN (u : Nat) : Fld := ⟨R.CAP_CFG u, 18, 1⟩
def F.CAP_CFG_NSLOT (u : Nat) : Fld := ⟨R.CAP_CFG u, 19, 4⟩
/-- CAP_LEN. -/
def R.CAP_LEN (u : Nat) : Nat := 0x400EF048 + u * 0x40
def F.CAP_LEN_LEN (u : Nat) : Fld := ⟨R.CAP_LEN u, 0, 17⟩
/-- CAP_PRE. -/
def R.CAP_PRE (u : Nat) : Nat := 0x400EF04C + u * 0x40
def F.CAP_PRE_PRE (u : Nat) : Fld := ⟨R.CAP_PRE u, 0, 16⟩
/-- CAP_TTL. -/
def R.CAP_TTL (u : Nat) : Nat := 0x400EF050 + u * 0x40
def F.CAP_TTL_TTIME_LO (u : Nat) : Fld := ⟨R.CAP_TTL u, 0, 32⟩
/-- CAP_TTH. -/
def R.CAP_TTH (u : Nat) : Nat := 0x400EF054 + u * 0x40
def F.CAP_TTH_TTIME_HI (u : Nat) : Fld := ⟨R.CAP_TTH u, 0, 16⟩
/-- CAP_DDRL. -/
def R.CAP_DDRL (u : Nat) : Nat := 0x400EF058 + u * 0x40
def F.CAP_DDRL_CAP_DDR_LO (u : Nat) : Fld := ⟨R.CAP_DDRL u, 0, 32⟩
/-- CAP_DDRH. -/
def R.CAP_DDRH (u : Nat) : Nat := 0x400EF05C + u * 0x40
def F.CAP_DDRH_CAP_DDR_HI (u : Nat) : Fld := ⟨R.CAP_DDRH u, 0, 8⟩
/-- CAP_CTRL. -/
def R.CAP_CTRL (u : Nat) : Nat := 0x400EF060 + u * 0x40
def F.CAP_CTRL_ARM (u : Nat) : Fld := ⟨R.CAP_CTRL u, 0, 1⟩
def F.CAP_CTRL_ABORT (u : Nat) : Fld := ⟨R.CAP_CTRL u, 1, 1⟩
/-- CAP_STAT. -/
def R.CAP_STAT (u : Nat) : Nat := 0x400EF064 + u * 0x40
def F.CAP_STAT_STATE (u : Nat) : Fld := ⟨R.CAP_STAT u, 0, 2⟩
def F.CAP_STAT_BADCFG (u : Nat) : Fld := ⟨R.CAP_STAT u, 2, 1⟩
def F.CAP_STAT_SLOT (u : Nat) : Fld := ⟨R.CAP_STAT u, 3, 4⟩
/-- SRV_CAP_WIN. -/
def R.SRV_CAP_WIN (u : Nat) : Nat := 0x400EF068 + u * 0x40
def F.SRV_CAP_WIN_PAGE (u : Nat) : Fld := ⟨R.SRV_CAP_WIN u, 0, 16⟩
/-- SRV_CAP_DATA. -/
def R.SRV_CAP_DATA (u k : Nat) : Nat := 0x400EF800 + u * 0x400 + k * 0x4
def F.SRV_CAP_DATA (u k : Nat) : Fld := ⟨R.SRV_CAP_DATA u k, 0, 32⟩
/-- CMD_VAL0. -/
def R.CMD_VAL0 (k : Nat) : Nat := 0x400EF400 + k * 0x10
def F.CMD_VAL0 (k : Nat) : Fld := ⟨R.CMD_VAL0 k, 0, 32⟩
/-- CMD_VAL1. -/
def R.CMD_VAL1 (k : Nat) : Nat := 0x400EF404 + k * 0x10
def F.CMD_VAL1 (k : Nat) : Fld := ⟨R.CMD_VAL1 k, 0, 32⟩
/-- CMD_TAKEL. -/
def R.CMD_TAKEL (k : Nat) : Nat := 0x400EF408 + k * 0x10
def F.CMD_TAKEL_TAKE_LO (k : Nat) : Fld := ⟨R.CMD_TAKEL k, 0, 32⟩
/-- CMD_TAKEH. -/
def R.CMD_TAKEH (k : Nat) : Nat := 0x400EF40C + k * 0x10
def F.CMD_TAKEH_TAKE_HI (k : Nat) : Fld := ⟨R.CMD_TAKEH k, 0, 16⟩
def F.CMD_TAKEH_VALID (k : Nat) : Fld := ⟨R.CMD_TAKEH k, 16, 1⟩
def F.CMD_TAKEH_REP (k : Nat) : Fld := ⟨R.CMD_TAKEH k, 17, 1⟩

/-! ENC (09_thruster_servo, R163). -/
/-- ENC_CFG. -/
def R.ENC_CFG (c : Nat) : Nat := 0x400EC000 + c * 0x40
def F.ENC_CFG_EN (c : Nat) : Fld := ⟨R.ENC_CFG c, 0, 1⟩
def F.ENC_CFG_MODE (c : Nat) : Fld := ⟨R.ENC_CFG c, 1, 1⟩
def F.ENC_CFG_GLITCH (c : Nat) : Fld := ⟨R.ENC_CFG c, 2, 4⟩
def F.ENC_CFG_IDX_CLR (c : Nat) : Fld := ⟨R.ENC_CFG c, 6, 1⟩
def F.ENC_CFG_BITS (c : Nat) : Fld := ⟨R.ENC_CFG c, 7, 6⟩
def F.ENC_CFG_GRAY (c : Nat) : Fld := ⟨R.ENC_CFG c, 13, 1⟩
def F.ENC_CFG_PAR (c : Nat) : Fld := ⟨R.ENC_CFG c, 14, 2⟩
def F.ENC_CFG_ERRBIT (c : Nat) : Fld := ⟨R.ENC_CFG c, 16, 6⟩
def F.ENC_CFG_SSI_DIV (c : Nat) : Fld := ⟨R.ENC_CFG c, 22, 8⟩
/-- ENC_PH. -/
def R.ENC_PH (c : Nat) : Nat := 0x400EC004 + c * 0x40
def F.ENC_PH_RATE (c : Nat) : Fld := ⟨R.ENC_PH c, 0, 3⟩
def F.ENC_PH_SSI_PH (c : Nat) : Fld := ⟨R.ENC_PH c, 3, 17⟩
/-- ENC_CPR. -/
def R.ENC_CPR (c : Nat) : Nat := 0x400EC008 + c * 0x40
def F.ENC_CPR_CPR (c : Nat) : Fld := ⟨R.ENC_CPR c, 0, 32⟩
/-- ENC_POS. -/
def R.ENC_POS (c : Nat) : Nat := 0x400EC00C + c * 0x40
def F.ENC_POS_POS (c : Nat) : Fld := ⟨R.ENC_POS c, 0, 32⟩
/-- ENC_CNT. -/
def R.ENC_CNT (c : Nat) : Nat := 0x400EC010 + c * 0x40
def F.ENC_CNT_ERR_CNT (c : Nat) : Fld := ⟨R.ENC_CNT c, 0, 16⟩
def F.ENC_CNT_LATE_CNT (c : Nat) : Fld := ⟨R.ENC_CNT c, 16, 16⟩

/-! FE (04_estimator, R62). -/
/-- FE_EST_CTRL. -/
def R.FE_EST_CTRL : Nat := 0x40100000
def F.FE_EST_CTRL_RESET_EST : Fld := ⟨R.FE_EST_CTRL, 0, 1⟩
def F.FE_EST_CTRL_BIAS_FREEZE : Fld := ⟨R.FE_EST_CTRL, 1, 1⟩
def F.FE_EST_CTRL_WAVE_EN : Fld := ⟨R.FE_EST_CTRL, 2, 1⟩
/-- FE_EST_STAT. -/
def R.FE_EST_STAT : Nat := 0x40100004
def F.FE_EST_STAT_QUAL : Fld := ⟨R.FE_EST_STAT, 0, 3⟩
def F.FE_EST_STAT_INIT : Fld := ⟨R.FE_EST_STAT, 3, 1⟩
def F.FE_EST_STAT_POS_RESET : Fld := ⟨R.FE_EST_STAT, 4, 1⟩
def F.FE_EST_STAT_BIAS_CUT : Fld := ⟨R.FE_EST_STAT, 5, 1⟩
def F.FE_EST_STAT_MDL_BAD : Fld := ⟨R.FE_EST_STAT, 6, 1⟩
def F.FE_EST_STAT_VG_BAD : Fld := ⟨R.FE_EST_STAT, 7, 1⟩
def F.FE_EST_STAT_VOTE_LOW : Fld := ⟨R.FE_EST_STAT, 8, 1⟩
def F.FE_EST_STAT_PCLS : Fld := ⟨R.FE_EST_STAT, 9, 3⟩
def F.FE_EST_STAT_HDG : Fld := ⟨R.FE_EST_STAT, 12, 1⟩
def F.FE_EST_STAT_QUPCNT : Fld := ⟨R.FE_EST_STAT, 13, 8⟩
/-- FE_DRCFG. -/
def R.FE_DRCFG : Nat := 0x40100008
def F.FE_DRCFG_DR_MAX : Fld := ⟨R.FE_DRCFG, 0, 10⟩
def F.FE_DRCFG_QUP_N : Fld := ⟨R.FE_DRCFG, 16, 8⟩
/-- FE_DRSTAT. -/
def R.FE_DRSTAT : Nat := 0x4010000C
def F.FE_DRSTAT_DR_MS : Fld := ⟨R.FE_DRSTAT, 0, 20⟩
/-- FE_EGO_CFG. -/
def R.FE_EGO_CFG : Nat := 0x40100010
def F.FE_EGO_CFG_OUT_ID : Fld := ⟨R.FE_EGO_CFG, 0, 7⟩
def F.FE_EGO_CFG_TDCP_EN : Fld := ⟨R.FE_EGO_CFG, 7, 1⟩
def F.FE_EGO_CFG_TRK_EN : Fld := ⟨R.FE_EGO_CFG, 8, 1⟩
/-- FE_EGO_STAT. -/
def R.FE_EGO_STAT : Nat := 0x40100014
def F.FE_EGO_STAT_NPTS : Fld := ⟨R.FE_EGO_STAT, 0, 8⟩
def F.FE_EGO_STAT_EGO_VALID : Fld := ⟨R.FE_EGO_STAT, 8, 1⟩
/-- FE_SURV_CTRL. -/
def R.FE_SURV_CTRL : Nat := 0x40100018
def F.FE_SURV_CTRL_DECIM : Fld := ⟨R.FE_SURV_CTRL, 0, 16⟩
def F.FE_SURV_CTRL_REC : Fld := ⟨R.FE_SURV_CTRL, 16, 1⟩
/-- FE_SURV_STAT. -/
def R.FE_SURV_STAT : Nat := 0x4010001C
def F.FE_SURV_STAT_EPOCHS : Fld := ⟨R.FE_SURV_STAT, 0, 13⟩
def F.FE_SURV_STAT_FULL : Fld := ⟨R.FE_SURV_STAT, 13, 1⟩
def F.FE_SURV_STAT_PSTATE : Fld := ⟨R.FE_SURV_STAT, 14, 2⟩
def F.FE_SURV_STAT_STALE_PROP : Fld := ⟨R.FE_SURV_STAT, 16, 1⟩
def F.FE_SURV_STAT_UNOBS : Fld := ⟨R.FE_SURV_STAT, 17, 1⟩
/-- FE_SURV_RES. -/
def R.FE_SURV_RES : Nat := 0x40100020
def F.FE_SURV_RES_EPOCHS_USED : Fld := ⟨R.FE_SURV_RES, 0, 13⟩
def F.FE_SURV_RES_ITER : Fld := ⟨R.FE_SURV_RES, 16, 3⟩
/-- FE_SURV_RMS. -/
def R.FE_SURV_RMS : Nat := 0x40100024
def F.FE_SURV_RMS_RMS : Fld := ⟨R.FE_SURV_RMS, 0, 32⟩
/-- FE_SURV_BUFL. -/
def R.FE_SURV_BUFL : Nat := 0x40100028
def F.FE_SURV_BUFL_BUF_LO : Fld := ⟨R.FE_SURV_BUFL, 0, 32⟩
/-- FE_SURV_BUFH. -/
def R.FE_SURV_BUFH : Nat := 0x4010002C
def F.FE_SURV_BUFH_BUF_HI : Fld := ⟨R.FE_SURV_BUFH, 0, 8⟩
/-- FE_VGRP_LIM. -/
def R.FE_VGRP_LIM (g : Nat) : Nat := 0x40100040 + g * 0x4
def F.FE_VGRP_LIM_LIM (g : Nat) : Fld := ⟨R.FE_VGRP_LIM g, 0, 24⟩
/-- FE_MDL_M. -/
def R.FE_MDL_M (i : Nat) : Nat := 0x40100100 + i * 0x8
/-- FE_MDL_D. -/
def R.FE_MDL_D (i : Nat) : Nat := 0x40100118 + i * 0x8
/-- FE_MDL_TB. -/
def R.FE_MDL_TB (i : Nat) : Nat := 0x40100130 + i * 0x8
/-- FE_MDL_QB. -/
def R.FE_MDL_QB (i : Nat) : Nat := 0x40100148 + i * 0x8
/-- FE_MDL_W0. -/
def R.FE_MDL_W0 (i : Nat) : Nat := 0x40100160 + i * 0x8
/-- FE_MDL_ZETA. -/
def R.FE_MDL_ZETA (i : Nat) : Nat := 0x40100178 + i * 0x8
/-- FE_MDL_KW. -/
def R.FE_MDL_KW (i : Nat) : Nat := 0x40100190 + i * 0x8
/-- FE_MDL_KW_PSI. -/
def R.FE_MDL_KW_PSI : Nat := 0x401001A0
/-- FE_MDL_QNU. -/
def R.FE_MDL_QNU (i : Nat) : Nat := 0x401001A8 + i * 0x8
/-- FE_MDL_QNU_R. -/
def R.FE_MDL_QNU_R : Nat := 0x401001B8
/-- FE_MDL_P0_POS. -/
def R.FE_MDL_P0_POS : Nat := 0x401001C0
/-- FE_MDL_P0_PSI. -/
def R.FE_MDL_P0_PSI : Nat := 0x401001C8
/-- FE_OUT_CYC. -/
def R.FE_OUT_CYC : Nat := 0x40100200
def F.FE_OUT_CYC_CYC : Fld := ⟨R.FE_OUT_CYC, 0, 32⟩
/-- FE_OUT_Q. -/
def R.FE_OUT_Q : Nat := 0x40100204
def F.FE_OUT_Q_QUAL : Fld := ⟨R.FE_OUT_Q, 0, 3⟩
def F.FE_OUT_Q_INIT : Fld := ⟨R.FE_OUT_Q, 3, 1⟩
/-- FE_OUT_EST. -/
def R.FE_OUT_EST (i : Nat) : Nat := 0x40100208 + i * 0x8
/-- FE_OUT_SIG. -/
def R.FE_OUT_SIG (i : Nat) : Nat := 0x40100238 + i * 0x8
/-- FE_OUT_SNAPL. -/
def R.FE_OUT_SNAPL : Nat := 0x40100250
def F.FE_OUT_SNAPL_SNAP_LO : Fld := ⟨R.FE_OUT_SNAPL, 0, 32⟩
/-- FE_OUT_SNAPH. -/
def R.FE_OUT_SNAPH : Nat := 0x40100254
def F.FE_OUT_SNAPH_SNAP_HI : Fld := ⟨R.FE_OUT_SNAPH, 0, 16⟩
/-- FE_OUT_B. -/
def R.FE_OUT_B (i : Nat) : Nat := 0x40100260 + i * 0x8
/-- FE_OUT_CYC2. -/
def R.FE_OUT_CYC2 : Nat := 0x40100278
def F.FE_OUT_CYC2_CYC2 : Fld := ⟨R.FE_OUT_CYC2, 0, 32⟩
/-- FE_MN_SIG. -/
def R.FE_MN_SIG (n : Nat) : Nat := 0x40101000 + n * 0x20
/-- FE_MN_CFG. -/
def R.FE_MN_CFG (n : Nat) : Nat := 0x40101008 + n * 0x20
def F.FE_MN_CFG_NBIAS (n : Nat) : Fld := ⟨R.FE_MN_CFG n, 0, 2⟩
def F.FE_MN_CFG_SURV (n : Nat) : Fld := ⟨R.FE_MN_CFG n, 2, 1⟩
def F.FE_MN_CFG_BIAS_IDX (n : Nat) : Fld := ⟨R.FE_MN_CFG n, 8, 7⟩
def F.FE_MN_CFG_BIAS_CUT (n : Nat) : Fld := ⟨R.FE_MN_CFG n, 15, 1⟩
/-- FE_MN_D2. -/
def R.FE_MN_D2 (n : Nat) : Nat := 0x4010100C + n * 0x20
def F.FE_MN_D2_D2 (n : Nat) : Fld := ⟨R.FE_MN_D2 n, 0, 32⟩
/-- FE_MN_CNT. -/
def R.FE_MN_CNT (n : Nat) : Nat := 0x40101010 + n * 0x20
def F.FE_MN_CNT_FAILRUN (n : Nat) : Fld := ⟨R.FE_MN_CNT n, 0, 8⟩
def F.FE_MN_CNT_OKRUN (n : Nat) : Fld := ⟨R.FE_MN_CNT n, 8, 8⟩
def F.FE_MN_CNT_REJ_CNT (n : Nat) : Fld := ⟨R.FE_MN_CNT n, 16, 8⟩
def F.FE_MN_CNT_VOTEFAIL (n : Nat) : Fld := ⟨R.FE_MN_CNT n, 24, 8⟩
/-- FE_MN_ACC. -/
def R.FE_MN_ACC (n : Nat) : Nat := 0x40101014 + n * 0x20
def F.FE_MN_ACC_ACCEPT (n : Nat) : Fld := ⟨R.FE_MN_ACC n, 0, 16⟩
def F.FE_MN_ACC_GATEFAIL (n : Nat) : Fld := ⟨R.FE_MN_ACC n, 16, 16⟩
/-- FE_MN_BQ. -/
def R.FE_MN_BQ (n : Nat) : Nat := 0x40101018 + n * 0x20
def F.FE_MN_BQ_BQ (n : Nat) : Fld := ⟨R.FE_MN_BQ n, 0, 32⟩

/-! FE (02_streams, R33). -/
/-- FE_SC_CFG. -/
def R.FE_SC_CFG (n : Nat) : Nat := 0x40110000 + n * 0x100
def F.FE_SC_CFG_EN (n : Nat) : Fld := ⟨R.FE_SC_CFG n, 0, 1⟩
def F.FE_SC_CFG_TYPE (n : Nat) : Fld := ⟨R.FE_SC_CFG n, 1, 7⟩
def F.FE_SC_CFG_SRC_KIND (n : Nat) : Fld := ⟨R.FE_SC_CFG n, 8, 4⟩
def F.FE_SC_CFG_SRC_PORT (n : Nat) : Fld := ⟨R.FE_SC_CFG n, 12, 8⟩
def F.FE_SC_CFG_TARGET (n : Nat) : Fld := ⟨R.FE_SC_CFG n, 20, 7⟩
def F.FE_SC_CFG_OWNSTAMP (n : Nat) : Fld := ⟨R.FE_SC_CFG n, 27, 1⟩
def F.FE_SC_CFG_NOSUM_OK (n : Nat) : Fld := ⟨R.FE_SC_CFG n, 28, 1⟩
/-- FE_SC_MATCH. -/
def R.FE_SC_MATCH (n : Nat) : Nat := 0x40110004 + n * 0x100
def F.FE_SC_MATCH_SEL (n : Nat) : Fld := ⟨R.FE_SC_MATCH n, 0, 8⟩
def F.FE_SC_MATCH_INST (n : Nat) : Fld := ⟨R.FE_SC_MATCH n, 8, 8⟩
def F.FE_SC_MATCH_TALKER (n : Nat) : Fld := ⟨R.FE_SC_MATCH n, 16, 16⟩
/-- FE_SC_AGE. -/
def R.FE_SC_AGE (n : Nat) : Nat := 0x40110008 + n * 0x100
def F.FE_SC_AGE_AGE_WARN (n : Nat) : Fld := ⟨R.FE_SC_AGE n, 0, 16⟩
def F.FE_SC_AGE_AGE_STALE (n : Nat) : Fld := ⟨R.FE_SC_AGE n, 16, 16⟩
/-- FE_SC_GATE. -/
def R.FE_SC_GATE (n : Nat) : Nat := 0x4011000C + n * 0x100
def F.FE_SC_GATE_GATE (n : Nat) : Fld := ⟨R.FE_SC_GATE n, 0, 8⟩
def F.FE_SC_GATE_VGRP (n : Nat) : Fld := ⟨R.FE_SC_GATE n, 8, 5⟩
def F.FE_SC_GATE_N_REJ (n : Nat) : Fld := ⟨R.FE_SC_GATE n, 16, 5⟩
def F.FE_SC_GATE_N_OK (n : Nat) : Fld := ⟨R.FE_SC_GATE n, 24, 6⟩
/-- FE_SC_STAT. -/
def R.FE_SC_STAT (n : Nat) : Nat := 0x40110010 + n * 0x100
def F.FE_SC_STAT_STATE (n : Nat) : Fld := ⟨R.FE_SC_STAT n, 0, 3⟩
def F.FE_SC_STAT_AGEDF (n : Nat) : Fld := ⟨R.FE_SC_STAT n, 3, 1⟩
def F.FE_SC_STAT_STALEF (n : Nat) : Fld := ⟨R.FE_SC_STAT n, 4, 1⟩
def F.FE_SC_STAT_SKEWF (n : Nat) : Fld := ⟨R.FE_SC_STAT n, 5, 1⟩
def F.FE_SC_STAT_REJF (n : Nat) : Fld := ⟨R.FE_SC_STAT n, 6, 1⟩
def F.FE_SC_STAT_GONEF (n : Nat) : Fld := ⟨R.FE_SC_STAT n, 7, 1⟩
def F.FE_SC_STAT_QFILL (n : Nat) : Fld := ⟨R.FE_SC_STAT n, 8, 5⟩
def F.FE_SC_STAT_SEQ (n : Nat) : Fld := ⟨R.FE_SC_STAT n, 16, 16⟩
/-- FE_SC_CNT. -/
def R.FE_SC_CNT (n : Nat) : Nat := 0x40110014 + n * 0x100
def F.FE_SC_CNT_BADSUM (n : Nat) : Fld := ⟨R.FE_SC_CNT n, 0, 8⟩
def F.FE_SC_CNT_INVALID (n : Nat) : Fld := ⟨R.FE_SC_CNT n, 8, 8⟩
def F.FE_SC_CNT_QOVF (n : Nat) : Fld := ⟨R.FE_SC_CNT n, 16, 8⟩
def F.FE_SC_CNT_SUPERSEDED (n : Nat) : Fld := ⟨R.FE_SC_CNT n, 24, 8⟩

/-! FE (03_projection_alignment, R53). -/
/-- FE_SC_LATE. -/
def R.FE_SC_LATE (n : Nat) : Nat := 0x40110018 + n * 0x100
def F.FE_SC_LATE_LATE_CNT (n : Nat) : Fld := ⟨R.FE_SC_LATE n, 0, 16⟩
def F.FE_SC_LATE_LAST_US (n : Nat) : Fld := ⟨R.FE_SC_LATE n, 16, 14⟩
def F.FE_SC_LATE_CRUMB_EN (n : Nat) : Fld := ⟨R.FE_SC_LATE n, 31, 1⟩
/-- FE_SC_AGEN. -/
def R.FE_SC_AGEN (n : Nat) : Nat := 0x4011001C + n * 0x100
def F.FE_SC_AGEN_AGE_US (n : Nat) : Fld := ⟨R.FE_SC_AGEN n, 0, 32⟩
/-- FE_SC_OFSL. -/
def R.FE_SC_OFSL (n : Nat) : Nat := 0x40110020 + n * 0x100
def F.FE_SC_OFSL_OFS_LO (n : Nat) : Fld := ⟨R.FE_SC_OFSL n, 0, 32⟩
/-- FE_SC_OFSH. -/
def R.FE_SC_OFSH (n : Nat) : Nat := 0x40110024 + n * 0x100
def F.FE_SC_OFSH_OFS_HI (n : Nat) : Fld := ⟨R.FE_SC_OFSH n, 0, 32⟩
/-- FE_SC_OFSCFG. -/
def R.FE_SC_OFSCFG (n : Nat) : Nat := 0x40110028 + n * 0x100
def F.FE_SC_OFSCFG_LEARN_N (n : Nat) : Fld := ⟨R.FE_SC_OFSCFG n, 0, 5⟩
def F.FE_SC_OFSCFG_TAU (n : Nat) : Fld := ⟨R.FE_SC_OFSCFG n, 5, 4⟩
def F.FE_SC_OFSCFG_PER_US (n : Nat) : Fld := ⟨R.FE_SC_OFSCFG n, 12, 20⟩
/-- FE_SC_OFSSTAT. -/
def R.FE_SC_OFSSTAT (n : Nat) : Nat := 0x4011002C + n * 0x100
def F.FE_SC_OFSSTAT_LSTATE (n : Nat) : Fld := ⟨R.FE_SC_OFSSTAT n, 0, 2⟩
def F.FE_SC_OFSSTAT_LCOUNT (n : Nat) : Fld := ⟨R.FE_SC_OFSSTAT n, 2, 5⟩
def F.FE_SC_OFSSTAT_SKEW_CNT (n : Nat) : Fld := ⟨R.FE_SC_OFSSTAT n, 8, 8⟩
/-- FE_SC_PER. -/
def R.FE_SC_PER (n : Nat) : Nat := 0x40110030 + n * 0x100
def F.FE_SC_PER_PER_US_USED (n : Nat) : Fld := ⟨R.FE_SC_PER n, 0, 20⟩
/-- FE_SC_DEV. -/
def R.FE_SC_DEV (n : Nat) : Nat := 0x40110034 + n * 0x100
def F.FE_SC_DEV_DEV_US (n : Nat) : Fld := ⟨R.FE_SC_DEV n, 0, 32⟩
/-- FE_SC_FDL. -/
def R.FE_SC_FDL (n i : Nat) : Nat := 0x40110040 + n * 0x100 + i * 0x8
/-- FE_SC_FDC. -/
def R.FE_SC_FDC (n i : Nat) : Nat := 0x40110058 + n * 0x100 + i * 0x8

/-! FP (03_projection_alignment, R57). -/
/-- FP_ATT. -/
def R.FP_ATT : Nat := 0x40120004
def F.FP_ATT_RP_ID1 : Fld := ⟨R.FP_ATT, 0, 7⟩
def F.FP_ATT_RP_ID2 : Fld := ⟨R.FP_ATT, 8, 7⟩
def F.FP_ATT_HD_ID1 : Fld := ⟨R.FP_ATT, 16, 7⟩
def F.FP_ATT_HD_ID2 : Fld := ⟨R.FP_ATT, 24, 7⟩
/-- FP_FD_COMMIT. -/
def R.FP_FD_COMMIT : Nat := 0x40120008
def F.FP_FD_COMMIT_STREAM : Fld := ⟨R.FP_FD_COMMIT, 0, 7⟩
/-- FP_STAT. -/
def R.FP_STAT : Nat := 0x4012000C
def F.FP_STAT_RP_NONE : Fld := ⟨R.FP_STAT, 0, 1⟩
def F.FP_STAT_HD_EST : Fld := ⟨R.FP_STAT, 1, 1⟩
def F.FP_STAT_HD_NONE : Fld := ⟨R.FP_STAT, 2, 1⟩
def F.FP_STAT_ORG_VALID : Fld := ⟨R.FP_STAT, 3, 1⟩
def F.FP_STAT_FD_BAD : Fld := ⟨R.FP_STAT, 4, 1⟩
def F.FP_STAT_XC_BAD : Fld := ⟨R.FP_STAT, 5, 1⟩
def F.FP_STAT_XC_OVF : Fld := ⟨R.FP_STAT, 6, 1⟩
def F.FP_STAT_FD_BADID : Fld := ⟨R.FP_STAT, 8, 7⟩
def F.FP_STAT_UNPROJ : Fld := ⟨R.FP_STAT, 16, 8⟩
def F.FP_STAT_RET_DROP : Fld := ⟨R.FP_STAT, 24, 8⟩
/-- FP_BATCH. -/
def R.FP_BATCH : Nat := 0x40120010
def F.FP_BATCH_COUNT : Fld := ⟨R.FP_BATCH, 0, 12⟩
def F.FP_BATCH_DUR_NS : Fld := ⟨R.FP_BATCH, 16, 16⟩
/-- FP_XC_LIM. -/
def R.FP_XC_LIM : Nat := 0x40120014
def F.FP_XC_LIM_LIM_MM : Fld := ⟨R.FP_XC_LIM, 0, 24⟩
/-- FP_ORG. -/
def R.FP_ORG (i : Nat) : Nat := 0x40120020 + i * 0x8
/-- FP_XC. -/
def R.FP_XC (k : Nat) : Nat := 0x40120100 + k * 0x10
def F.FP_XC_SRC (k : Nat) : Fld := ⟨R.FP_XC k, 0, 7⟩
def F.FP_XC_TGT (k : Nat) : Fld := ⟨R.FP_XC k, 8, 7⟩
def F.FP_XC_VALID (k : Nat) : Fld := ⟨R.FP_XC k, 15, 1⟩
def F.FP_XC_DIFF (k : Nat) : Fld := ⟨R.FP_XC k, 16, 1⟩
def F.FP_XC_OVER (k : Nat) : Fld := ⟨R.FP_XC k, 17, 1⟩
/-- FP_XCX. -/
def R.FP_XCX (k : Nat) : Nat := 0x40120104 + k * 0x10
def F.FP_XCX (k : Nat) : Fld := ⟨R.FP_XCX k, 0, 32⟩
/-- FP_XCY. -/
def R.FP_XCY (k : Nat) : Nat := 0x40120108 + k * 0x10
def F.FP_XCY (k : Nat) : Fld := ⟨R.FP_XCY k, 0, 32⟩
/-- FP_XCZ. -/
def R.FP_XCZ (k : Nat) : Nat := 0x4012010C + k * 0x10
def F.FP_XCZ (k : Nat) : Fld := ⟨R.FP_XCZ k, 0, 32⟩

/-! TRK (05_reference_targets, R82). -/
/-- TRK_CTRL. -/
def R.TRK_CTRL : Nat := 0x40130000
def F.TRK_CTRL_EN : Fld := ⟨R.TRK_CTRL, 0, 1⟩
def F.TRK_CTRL_FORCE_ASSIGN : Fld := ⟨R.TRK_CTRL, 1, 1⟩
def F.TRK_CTRL_GATE : Fld := ⟨R.TRK_CTRL, 8, 8⟩
def F.TRK_CTRL_RGATE : Fld := ⟨R.TRK_CTRL, 16, 8⟩
/-- TRK_CFG. -/
def R.TRK_CFG : Nat := 0x40130004
def F.TRK_CFG_CONF_M : Fld := ⟨R.TRK_CFG, 0, 3⟩
def F.TRK_CFG_CONF_N : Fld := ⟨R.TRK_CFG, 3, 3⟩
def F.TRK_CFG_MISS_MAX : Fld := ⟨R.TRK_CFG, 8, 4⟩
def F.TRK_CFG_QMIN : Fld := ⟨R.TRK_CFG, 16, 8⟩
/-- TRK_TIME. -/
def R.TRK_TIME : Nat := 0x40130008
def F.TRK_TIME_COAST_MS : Fld := ⟨R.TRK_TIME, 0, 16⟩
def F.TRK_TIME_BIND_CM : Fld := ⟨R.TRK_TIME, 16, 16⟩
/-- TRK_DL. -/
def R.TRK_DL : Nat := 0x4013000C
def F.TRK_DL_GUARD_US : Fld := ⟨R.TRK_DL, 0, 16⟩
/-- TRK_SIGR. -/
def R.TRK_SIGR : Nat := 0x40130010
/-- TRK_SIGA. -/
def R.TRK_SIGA : Nat := 0x40130018
/-- TRK_QACC_FIX. -/
def R.TRK_QACC_FIX : Nat := 0x40130020
/-- TRK_QACC_MOV. -/
def R.TRK_QACC_MOV : Nat := 0x40130028
/-- TRK_SIGV0. -/
def R.TRK_SIGV0 : Nat := 0x40130030
/-- TRK_STAT. -/
def R.TRK_STAT : Nat := 0x40130040
def F.TRK_STAT_MODE : Fld := ⟨R.TRK_STAT, 0, 1⟩
def F.TRK_STAT_CAUSE : Fld := ⟨R.TRK_STAT, 1, 3⟩
def F.TRK_STAT_NCONF : Fld := ⟨R.TRK_STAT, 8, 7⟩
def F.TRK_STAT_NTENT : Fld := ⟨R.TRK_STAT, 16, 7⟩
def F.TRK_STAT_HIGH : Fld := ⟨R.TRK_STAT, 24, 7⟩
/-- TRK_CNT. -/
def R.TRK_CNT : Nat := 0x40130044
def F.TRK_CNT_NOSLOT : Fld := ⟨R.TRK_CNT, 0, 8⟩
def F.TRK_CNT_LOWQ : Fld := ⟨R.TRK_CNT, 8, 8⟩
def F.TRK_CNT_AS_RUNS : Fld := ⟨R.TRK_CNT, 16, 8⟩
def F.TRK_CNT_AS_FAIL : Fld := ⟨R.TRK_CNT, 24, 8⟩
/-- TRK_SEQ. -/
def R.TRK_SEQ : Nat := 0x40130048
def F.TRK_SEQ_SEQ : Fld := ⟨R.TRK_SEQ, 0, 32⟩
/-- TGT_CFG. -/
def R.TGT_CFG (k : Nat) : Nat := 0x40131000 + k * 0x20
def F.TGT_CFG_EN (k : Nat) : Fld := ⟨R.TGT_CFG k, 0, 1⟩
def F.TGT_CFG_KIND (k : Nat) : Fld := ⟨R.TGT_CFG k, 1, 1⟩
def F.TGT_CFG_SURV (k : Nat) : Fld := ⟨R.TGT_CFG k, 2, 1⟩
def F.TGT_CFG_CODE (k : Nat) : Fld := ⟨R.TGT_CFG k, 8, 24⟩
/-- TGT_SIG. -/
def R.TGT_SIG (k : Nat) : Nat := 0x40131004 + k * 0x20
def F.TGT_SIG_SIG (k : Nat) : Fld := ⟨R.TGT_SIG k, 0, 32⟩
/-- TGT_POS. -/
def R.TGT_POS (k i : Nat) : Nat := 0x40131008 + k * 0x20 + i * 0x8
/-- TK_ST. -/
def R.TK_ST (j : Nat) : Nat := 0x40132000 + j * 0x80
def F.TK_ST_STATE (j : Nat) : Fld := ⟨R.TK_ST j, 0, 3⟩
def F.TK_ST_BOUND (j : Nat) : Fld := ⟨R.TK_ST j, 3, 1⟩
def F.TK_ST_TGT (j : Nat) : Fld := ⟨R.TK_ST j, 4, 6⟩
def F.TK_ST_NEW (j : Nat) : Fld := ⟨R.TK_ST j, 10, 1⟩
def F.TK_ST_SRC (j : Nat) : Fld := ⟨R.TK_ST j, 12, 7⟩
def F.TK_ST_MISS (j : Nat) : Fld := ⟨R.TK_ST j, 20, 4⟩
def F.TK_ST_HITS (j : Nat) : Fld := ⟨R.TK_ST j, 24, 3⟩
/-- TK_CODE. -/
def R.TK_CODE (j : Nat) : Nat := 0x40132004 + j * 0x80
def F.TK_CODE_CODE (j : Nat) : Fld := ⟨R.TK_CODE j, 0, 24⟩
/-- TK_LASTL. -/
def R.TK_LASTL (j : Nat) : Nat := 0x40132008 + j * 0x80
def F.TK_LASTL_LAST_LO (j : Nat) : Fld := ⟨R.TK_LASTL j, 0, 32⟩
/-- TK_LASTH. -/
def R.TK_LASTH (j : Nat) : Nat := 0x4013200C + j * 0x80
def F.TK_LASTH_LAST_HI (j : Nat) : Fld := ⟨R.TK_LASTH j, 0, 16⟩
/-- TK_X. -/
def R.TK_X (j i : Nat) : Nat := 0x40132010 + j * 0x80 + i * 0x8
/-- TK_SIG. -/
def R.TK_SIG (j i : Nat) : Nat := 0x40132040 + j * 0x80 + i * 0x4
def F.TK_SIG_SIG (j i : Nat) : Fld := ⟨R.TK_SIG j i, 0, 32⟩

/-! JF (07_solver_array, R109). -/
/-- JF_CFG. -/
def R.JF_CFG : Nat := 0x40140000
def F.JF_CFG_C2_QUOTA : Fld := ⟨R.JF_CFG, 0, 5⟩
def F.JF_CFG_C3_QUOTA : Fld := ⟨R.JF_CFG, 8, 4⟩
def F.JF_CFG_GUARD_US : Fld := ⟨R.JF_CFG, 16, 16⟩
/-- JF_PIV. -/
def R.JF_PIV : Nat := 0x40140004
def F.JF_PIV_EPS_SH : Fld := ⟨R.JF_PIV, 0, 7⟩
def F.JF_PIV_REG_SH : Fld := ⟨R.JF_PIV, 8, 7⟩
/-- JF_RHO. -/
def R.JF_RHO : Nat := 0x40140008
/-- JF_RESUME. -/
def R.JF_RESUME : Nat := 0x40140010
def F.JF_RESUME_IDLE_US : Fld := ⟨R.JF_RESUME, 0, 8⟩
/-- JF_OCC. -/
def R.JF_OCC : Nat := 0x40140020
def F.JF_OCC_C0 : Fld := ⟨R.JF_OCC, 0, 3⟩
def F.JF_OCC_C1 : Fld := ⟨R.JF_OCC, 8, 5⟩
def F.JF_OCC_C2 : Fld := ⟨R.JF_OCC, 16, 5⟩
def F.JF_OCC_C3 : Fld := ⟨R.JF_OCC, 24, 4⟩
/-- JF_QLEN. -/
def R.JF_QLEN : Nat := 0x40140024
def F.JF_QLEN_Q0 : Fld := ⟨R.JF_QLEN, 0, 7⟩
def F.JF_QLEN_Q1 : Fld := ⟨R.JF_QLEN, 8, 7⟩
def F.JF_QLEN_Q2 : Fld := ⟨R.JF_QLEN, 16, 7⟩
def F.JF_QLEN_Q3 : Fld := ⟨R.JF_QLEN, 24, 7⟩
/-- JF_CNT0. -/
def R.JF_CNT0 : Nat := 0x40140028
def F.JF_CNT0_REF_QUOTA : Fld := ⟨R.JF_CNT0, 0, 8⟩
def F.JF_CNT0_REF_GUARD : Fld := ⟨R.JF_CNT0, 8, 8⟩
def F.JF_CNT0_DELAYED : Fld := ⟨R.JF_CNT0, 16, 8⟩
def F.JF_CNT0_ABORTED : Fld := ⟨R.JF_CNT0, 24, 8⟩
/-- JF_CNT1. -/
def R.JF_CNT1 : Nat := 0x4014002C
def F.JF_CNT1_DL : Fld := ⟨R.JF_CNT1, 0, 8⟩
def F.JF_CNT1_DLMF : Fld := ⟨R.JF_CNT1, 8, 8⟩
def F.JF_CNT1_HOLD : Fld := ⟨R.JF_CNT1, 16, 8⟩
def F.JF_CNT1_PREEMPT : Fld := ⟨R.JF_CNT1, 24, 8⟩
/-- JF_WAITMAX. -/
def R.JF_WAITMAX (c : Nat) : Nat := 0x40140030 + c * 0x4
def F.JF_WAITMAX_MAX_NS (c : Nat) : Fld := ⟨R.JF_WAITMAX c, 0, 32⟩
/-- JF_ABORT. -/
def R.JF_ABORT : Nat := 0x40140040
def F.JF_ABORT_TAG : Fld := ⟨R.JF_ABORT, 0, 16⟩
def F.JF_ABORT_PROC : Fld := ⟨R.JF_ABORT, 16, 4⟩
/-- JF_ABRES. -/
def R.JF_ABRES : Nat := 0x40140044
def F.JF_ABRES_RESULT : Fld := ⟨R.JF_ABRES, 0, 2⟩
/-- JF_SUBL. -/
def R.JF_SUBL (x : Nat) : Nat := 0x40140100 + x * 0x10
def F.JF_SUBL_ADDR_LO (x : Nat) : Fld := ⟨R.JF_SUBL x, 0, 32⟩
/-- JF_SUBH. -/
def R.JF_SUBH (x : Nat) : Nat := 0x40140104 + x * 0x10
def F.JF_SUBH_ADDR_HI (x : Nat) : Fld := ⟨R.JF_SUBH x, 0, 8⟩
/-- JF_SUBRES. -/
def R.JF_SUBRES (x : Nat) : Nat := 0x40140108 + x * 0x10
def F.JF_SUBRES_RESULT (x : Nat) : Fld := ⟨R.JF_SUBRES x, 0, 2⟩
def F.JF_SUBRES_TAG (x : Nat) : Fld := ⟨R.JF_SUBRES x, 16, 16⟩

/-! SA (07_solver_array, R108). -/
/-- SA_SEQSTAT. -/
def R.SA_SEQSTAT (s : Nat) : Nat := 0x40150000 + s * 0x4
def F.SA_SEQSTAT_BUSY (s : Nat) : Fld := ⟨R.SA_SEQSTAT s, 0, 1⟩
def F.SA_SEQSTAT_GANGED (s : Nat) : Fld := ⟨R.SA_SEQSTAT s, 1, 1⟩
def F.SA_SEQSTAT_SUSP (s : Nat) : Fld := ⟨R.SA_SEQSTAT s, 2, 1⟩
def F.SA_SEQSTAT_KIND (s : Nat) : Fld := ⟨R.SA_SEQSTAT s, 4, 4⟩
def F.SA_SEQSTAT_CLASS (s : Nat) : Fld := ⟨R.SA_SEQSTAT s, 8, 2⟩
def F.SA_SEQSTAT_PROC (s : Nat) : Fld := ⟨R.SA_SEQSTAT s, 10, 4⟩
def F.SA_SEQSTAT_TAG (s : Nat) : Fld := ⟨R.SA_SEQSTAT s, 16, 16⟩
/-- SA_ECC. -/
def R.SA_ECC : Nat := 0x40150010
def F.SA_ECC_CORR : Fld := ⟨R.SA_ECC, 0, 16⟩
def F.SA_ECC_UNCORR : Fld := ⟨R.SA_ECC, 16, 8⟩

/-! ALC (08_allocation, R131). -/
/-- ALC_CTRL. -/
def R.ALC_CTRL : Nat := 0x40160000
def F.ALC_CTRL_EN : Fld := ⟨R.ALC_CTRL, 0, 1⟩
def F.ALC_CTRL_LAT_MARGIN_MRAD : Fld := ⟨R.ALC_CTRL, 8, 8⟩
def F.ALC_CTRL_MSHARE : Fld := ⟨R.ALC_CTRL, 16, 8⟩
def F.ALC_CTRL_NV : Fld := ⟨R.ALC_CTRL, 24, 4⟩
/-- ALC_TIER. -/
def R.ALC_TIER : Nat := 0x40160004
def F.ALC_TIER_T_SURGE : Fld := ⟨R.ALC_TIER, 0, 2⟩
def F.ALC_TIER_T_SWAY : Fld := ⟨R.ALC_TIER, 2, 2⟩
def F.ALC_TIER_T_YAW : Fld := ⟨R.ALC_TIER, 4, 2⟩
def F.ALC_TIER_T_ROLL : Fld := ⟨R.ALC_TIER, 6, 2⟩
def F.ALC_TIER_T_PITCH : Fld := ⟨R.ALC_TIER, 8, 2⟩
/-- ALC_COMMIT. -/
def R.ALC_COMMIT : Nat := 0x40160008
def F.ALC_COMMIT_SLOT : Fld := ⟨R.ALC_COMMIT, 0, 6⟩
/-- ALC_STAT. -/
def R.ALC_STAT : Nat := 0x4016000C
def F.ALC_STAT_SF : Fld := ⟨R.ALC_STAT, 0, 1⟩
def F.ALC_STAT_CUT : Fld := ⟨R.ALC_STAT, 1, 1⟩
def F.ALC_STAT_CUT_PASS : Fld := ⟨R.ALC_STAT, 2, 3⟩
def F.ALC_STAT_LAT_FAIL : Fld := ⟨R.ALC_STAT, 5, 1⟩
def F.ALC_STAT_RATE_VIOL : Fld := ⟨R.ALC_STAT, 6, 1⟩
def F.ALC_STAT_STALE : Fld := ⟨R.ALC_STAT, 7, 1⟩
def F.ALC_STAT_PASSES : Fld := ⟨R.ALC_STAT, 8, 3⟩
def F.ALC_STAT_LAST_STATUS : Fld := ⟨R.ALC_STAT, 11, 3⟩
/-- ALC_CNT. -/
def R.ALC_CNT : Nat := 0x40160010
def F.ALC_CNT_SF_CYC : Fld := ⟨R.ALC_CNT, 0, 16⟩
def F.ALC_CNT_CUT_CNT : Fld := ⟨R.ALC_CNT, 16, 8⟩
def F.ALC_CNT_LATF_CNT : Fld := ⟨R.ALC_CNT, 24, 8⟩
/-- ALC_TIME. -/
def R.ALC_TIME : Nat := 0x40160014
def F.ALC_TIME_CHAIN_US : Fld := ⟨R.ALC_TIME, 0, 16⟩
/-- ALC_SW. -/
def R.ALC_SW : Nat := 0x40160018
/-- ALC_SCALE_F. -/
def R.ALC_SCALE_F (d : Nat) : Nat := 0x40160020 + d * 0x8
/-- ALC_SCALE_M. -/
def R.ALC_SCALE_M (d : Nat) : Nat := 0x40160030 + d * 0x8
/-- ALC_SFTOL_F. -/
def R.ALC_SFTOL_F (d : Nat) : Nat := 0x40160048 + d * 0x4
def F.ALC_SFTOL_F (d : Nat) : Fld := ⟨R.ALC_SFTOL_F d, 0, 32⟩
/-- ALC_SFTOL_M. -/
def R.ALC_SFTOL_M (d : Nat) : Nat := 0x40160050 + d * 0x4
def F.ALC_SFTOL_M (d : Nat) : Fld := ⟨R.ALC_SFTOL_M d, 0, 32⟩
/-- ALC_REF. -/
def R.ALC_REF (i : Nat) : Nat := 0x40160060 + i * 0x8
/-- ALC_OUT_CYC. -/
def R.ALC_OUT_CYC : Nat := 0x40160100
def F.ALC_OUT_CYC_CYC : Fld := ⟨R.ALC_OUT_CYC, 0, 32⟩
/-- ALC_OUT_SFD. -/
def R.ALC_OUT_SFD : Nat := 0x40160104
def F.ALC_OUT_SFD_SFD : Fld := ⟨R.ALC_OUT_SFD, 0, 5⟩
/-- ALC_OUT_SF. -/
def R.ALC_OUT_SF (d : Nat) : Nat := 0x40160108 + d * 0x8
/-- ALC_OUT_BINDA. -/
def R.ALC_OUT_BINDA (d : Nat) : Nat := 0x40160130 + d * 0x8
def F.ALC_OUT_BINDA_BIND0 (d : Nat) : Fld := ⟨R.ALC_OUT_BINDA d, 0, 16⟩
def F.ALC_OUT_BINDA_BIND1 (d : Nat) : Fld := ⟨R.ALC_OUT_BINDA d, 16, 16⟩
/-- ALC_OUT_BINDB. -/
def R.ALC_OUT_BINDB (d : Nat) : Nat := 0x40160134 + d * 0x8
def F.ALC_OUT_BINDB_BIND2 (d : Nat) : Fld := ⟨R.ALC_OUT_BINDB d, 0, 16⟩
def F.ALC_OUT_BINDB_BIND3 (d : Nat) : Fld := ⟨R.ALC_OUT_BINDB d, 16, 16⟩
/-- ALC_OUT_NB. -/
def R.ALC_OUT_NB : Nat := 0x40160158
def F.ALC_OUT_NB_NB : Fld := ⟨R.ALC_OUT_NB, 0, 20⟩
/-- ALC_OUT_CYC2. -/
def R.ALC_OUT_CYC2 : Nat := 0x4016015C
def F.ALC_OUT_CYC2_CYC2 : Fld := ⟨R.ALC_OUT_CYC2, 0, 32⟩
/-- ALC_ENV. -/
def R.ALC_ENV (w : Nat) : Nat := 0x40160200 + w * 0x4
def F.ALC_ENV (w : Nat) : Fld := ⟨R.ALC_ENV w, 0, 32⟩
/-- ALC_SLOT. -/
def R.ALC_SLOT (k : Nat) : Nat := 0x40161000 + k * 0x100
def F.ALC_SLOT_EN (k : Nat) : Fld := ⟨R.ALC_SLOT k, 0, 1⟩
def F.ALC_SLOT_TYPE (k : Nat) : Fld := ⟨R.ALC_SLOT k, 1, 3⟩
def F.ALC_SLOT_DEST_NODE (k : Nat) : Fld := ⟨R.ALC_SLOT k, 4, 9⟩
def F.ALC_SLOT_DEST_IDX (k : Nat) : Fld := ⟨R.ALC_SLOT k, 13, 5⟩
def F.ALC_SLOT_NSECT (k : Nat) : Fld := ⟨R.ALC_SLOT k, 18, 4⟩
def F.ALC_SLOT_NV_MAX (k : Nat) : Fld := ⟨R.ALC_SLOT k, 22, 5⟩
/-- ALC_SLOT_ST. -/
def R.ALC_SLOT_ST (k : Nat) : Nat := 0x40161004 + k * 0x100
def F.ALC_SLOT_ST_STALE (k : Nat) : Fld := ⟨R.ALC_SLOT_ST k, 0, 1⟩
def F.ALC_SLOT_ST_RATE_DROP (k : Nat) : Fld := ⟨R.ALC_SLOT_ST k, 1, 1⟩
def F.ALC_SLOT_ST_PREV_EXCL (k : Nat) : Fld := ⟨R.ALC_SLOT_ST k, 2, 1⟩
def F.ALC_SLOT_ST_LAT_REFUSED (k : Nat) : Fld := ⟨R.ALC_SLOT_ST k, 3, 1⟩
/-- ALC_SLOT_P. -/
def R.ALC_SLOT_P (k i : Nat) : Nat := 0x40161008 + k * 0x100 + i * 0x8
/-- ALC_SLOT_SECT. -/
def R.ALC_SLOT_SECT (k i : Nat) : Nat := 0x40161060 + k * 0x100 + i * 0x4
def F.ALC_SLOT_SECT (k i : Nat) : Fld := ⟨R.ALC_SLOT_SECT k i, 0, 32⟩
/-- ALC_SLOT_PV. -/
def R.ALC_SLOT_PV (k i : Nat) : Nat := 0x40161080 + k * 0x100 + i * 0x4
def F.ALC_SLOT_PV (k i : Nat) : Fld := ⟨R.ALC_SLOT_PV k i, 0, 32⟩
/-- ALC_SLOT_U. -/
def R.ALC_SLOT_U (k i : Nat) : Nat := 0x401610C0 + k * 0x100 + i * 0x8
/-- ALC_LREC. -/
def R.ALC_LREC (k w : Nat) : Nat := 0x40164000 + k * 0x100 + w * 0x4
def F.ALC_LREC (k w : Nat) : Fld := ⟨R.ALC_LREC k w, 0, 32⟩

/-! SK (06_station_keeping, R92). -/
/-- SK_CMD. -/
def R.SK_CMD : Nat := 0x40170000
def F.SK_CMD_OP : Fld := ⟨R.SK_CMD, 0, 4⟩
def F.SK_CMD_MODE : Fld := ⟨R.SK_CMD, 4, 3⟩
def F.SK_CMD_KEEP : Fld := ⟨R.SK_CMD, 7, 1⟩
/-- SK_STAT. -/
def R.SK_STAT : Nat := 0x40170004
def F.SK_STAT_MODE : Fld := ⟨R.SK_STAT, 0, 3⟩
def F.SK_STAT_PREV : Fld := ⟨R.SK_STAT, 3, 3⟩
def F.SK_STAT_RES : Fld := ⟨R.SK_STAT, 6, 4⟩
def F.SK_STAT_FALLBACK : Fld := ⟨R.SK_STAT, 10, 1⟩
def F.SK_STAT_MOVING : Fld := ⟨R.SK_STAT, 11, 1⟩
def F.SK_STAT_JOY_STALE : Fld := ⟨R.SK_STAT, 12, 1⟩
def F.SK_STAT_BLEND : Fld := ⟨R.SK_STAT, 13, 1⟩
def F.SK_STAT_STAKE_VALID : Fld := ⟨R.SK_STAT, 14, 1⟩
def F.SK_STAT_WIND_NONE : Fld := ⟨R.SK_STAT, 15, 1⟩
def F.SK_STAT_WPT : Fld := ⟨R.SK_STAT, 16, 5⟩
/-- SK_CFG. -/
def R.SK_CFG : Nat := 0x40170008
def F.SK_CFG_DOF_EN : Fld := ⟨R.SK_CFG, 0, 5⟩
def F.SK_CFG_BIAS_FF : Fld := ⟨R.SK_CFG, 5, 1⟩
/-- SK_TIME. -/
def R.SK_TIME : Nat := 0x4017000C
def F.SK_TIME_BUMP_MS : Fld := ⟨R.SK_TIME, 0, 16⟩
def F.SK_TIME_JOY_TMO_MS : Fld := ⟨R.SK_TIME, 16, 16⟩
/-- SK_WIND. -/
def R.SK_WIND : Nat := 0x40170010
def F.SK_WIND_ID1 : Fld := ⟨R.SK_WIND, 0, 7⟩
def F.SK_WIND_WFF_EN : Fld := ⟨R.SK_WIND, 7, 1⟩
def F.SK_WIND_ID2 : Fld := ⟨R.SK_WIND, 8, 7⟩
def F.SK_WIND_TAU_DS : Fld := ⟨R.SK_WIND, 16, 16⟩
/-- SK_FOLLOW. -/
def R.SK_FOLLOW : Nat := 0x40170014
def F.SK_FOLLOW_TRK : Fld := ⟨R.SK_FOLLOW, 0, 6⟩
def F.SK_FOLLOW_HDG_MODE : Fld := ⟨R.SK_FOLLOW, 6, 1⟩
/-- SK_WV. -/
def R.SK_WV : Nat := 0x40170018
def F.SK_WV_DEAD_MRAD : Fld := ⟨R.SK_WV, 0, 16⟩
def F.SK_WV_TAU_S : Fld := ⟨R.SK_WV, 16, 16⟩
/-- SK_CNT. -/
def R.SK_CNT : Nat := 0x4017001C
def F.SK_CNT_OVERWR : Fld := ⟨R.SK_CNT, 0, 8⟩
def F.SK_CNT_FALLS : Fld := ⟨R.SK_CNT, 8, 8⟩
def F.SK_CNT_REFUSED : Fld := ⟨R.SK_CNT, 16, 8⟩
/-- SK_TGT_D. -/
def R.SK_TGT_D (i : Nat) : Nat := 0x40170020 + i * 0x8
/-- SK_TGT_PSI. -/
def R.SK_TGT_PSI : Nat := 0x40170030
/-- SK_FOL_D. -/
def R.SK_FOL_D (i : Nat) : Nat := 0x40170038 + i * 0x8
/-- SK_RM_VMAX. -/
def R.SK_RM_VMAX : Nat := 0x40170048
/-- SK_RM_AMAX. -/
def R.SK_RM_AMAX : Nat := 0x40170050
/-- SK_RM_RMAX. -/
def R.SK_RM_RMAX : Nat := 0x40170058
/-- SK_RM_RAMAX. -/
def R.SK_RM_RAMAX : Nat := 0x40170060
/-- SK_MOVE_MAX. -/
def R.SK_MOVE_MAX : Nat := 0x40170068
/-- SK_JOY. -/
def R.SK_JOY (i : Nat) : Nat := 0x40170070 + i * 0x4
def F.SK_JOY (i : Nat) : Fld := ⟨R.SK_JOY i, 0, 32⟩
/-- SK_STAKE. -/
def R.SK_STAKE (i : Nat) : Nat := 0x40170180 + i * 0x8
/-- SK_OUT_CYC. -/
def R.SK_OUT_CYC : Nat := 0x40170200
def F.SK_OUT_CYC_CYC : Fld := ⟨R.SK_OUT_CYC, 0, 32⟩
/-- SK_OUT_FL. -/
def R.SK_OUT_FL : Nat := 0x40170204
def F.SK_OUT_FL_MODE : Fld := ⟨R.SK_OUT_FL, 0, 3⟩
def F.SK_OUT_FL_DOF_ON : Fld := ⟨R.SK_OUT_FL, 3, 5⟩
def F.SK_OUT_FL_ENV_VALID : Fld := ⟨R.SK_OUT_FL, 8, 1⟩
def F.SK_OUT_FL_AUTH_REQ : Fld := ⟨R.SK_OUT_FL, 9, 1⟩
def F.SK_OUT_FL_MOVING : Fld := ⟨R.SK_OUT_FL, 10, 1⟩
/-- SK_OUT_DEM. -/
def R.SK_OUT_DEM (d : Nat) : Nat := 0x40170208 + d * 0x8
/-- SK_OUT_REF. -/
def R.SK_OUT_REF (i : Nat) : Nat := 0x40170230 + i * 0x8
/-- SK_OUT_ENV. -/
def R.SK_OUT_ENV (i : Nat) : Nat := 0x40170248 + i * 0x8
/-- SK_OUT_CYC2. -/
def R.SK_OUT_CYC2 : Nat := 0x40170268
def F.SK_OUT_CYC2_CYC2 : Fld := ⟨R.SK_OUT_CYC2, 0, 32⟩
/-- SK_G. -/
def R.SK_G (d i : Nat) : Nat := 0x40170400 + d * 0x40 + i * 0x8
/-- SK_WCOEF. -/
def R.SK_WCOEF (i : Nat) : Nat := 0x40170600 + i * 0x4
def F.SK_WCOEF (i : Nat) : Fld := ⟨R.SK_WCOEF i, 0, 32⟩
/-- SK_WPT. -/
def R.SK_WPT (w i : Nat) : Nat := 0x40170800 + w * 0x20 + i * 0x8
/-- SK_WPT_SPEED. -/
def R.SK_WPT_SPEED (w : Nat) : Nat := 0x40170810 + w * 0x20
def F.SK_WPT_SPEED (w : Nat) : Fld := ⟨R.SK_WPT_SPEED w, 0, 32⟩
/-- SK_WPT_HDG. -/
def R.SK_WPT_HDG (w : Nat) : Nat := 0x40170814 + w * 0x20
def F.SK_WPT_HDG (w : Nat) : Fld := ⟨R.SK_WPT_HDG w, 0, 32⟩
/-- SK_WPT_LAST. -/
def R.SK_WPT_LAST (w : Nat) : Nat := 0x40170818 + w * 0x20
def F.SK_WPT_LAST_LAST (w : Nat) : Fld := ⟨R.SK_WPT_LAST w, 0, 1⟩

/-! BE (17_block_runtime, R287). -/
/-- BE_CTRL. -/
def R.BE_CTRL : Nat := 0x40180000
def F.BE_CTRL_EN : Fld := ⟨R.BE_CTRL, 0, 1⟩
/-- BE_ACT. -/
def R.BE_ACT : Nat := 0x40180004
def F.BE_ACT_ASTATE : Fld := ⟨R.BE_ACT, 0, 2⟩
def F.BE_ACT_ARES : Fld := ⟨R.BE_ACT, 2, 2⟩
def F.BE_ACT_REINIT_N : Fld := ⟨R.BE_ACT, 8, 8⟩
def F.BE_ACT_FDROP_N : Fld := ⟨R.BE_ACT, 16, 8⟩
/-- BE_ACTT. -/
def R.BE_ACTT : Nat := 0x40180008
def F.BE_ACTT_SW_NS : Fld := ⟨R.BE_ACTT, 0, 16⟩
def F.BE_ACTT_WAIT : Fld := ⟨R.BE_ACTT, 16, 16⟩
/-- BE_PROG. -/
def R.BE_PROG : Nat := 0x4018000C
def F.BE_PROG_PSIG : Fld := ⟨R.BE_PROG, 0, 32⟩
/-- BE_ENG. -/
def R.BE_ENG (e : Nat) : Nat := 0x40180010 + e * 0x4
def F.BE_ENG_TASK (e : Nat) : Fld := ⟨R.BE_ENG e, 0, 5⟩
def F.BE_ENG_LOAD (e : Nat) : Fld := ⟨R.BE_ENG e, 8, 8⟩
def F.BE_ENG_HALF (e : Nat) : Fld := ⟨R.BE_ENG e, 16, 1⟩
/-- BE_ENGB. -/
def R.BE_ENGB (e : Nat) : Nat := 0x40180020 + e * 0x4
def F.BE_ENGB_TASK (e : Nat) : Fld := ⟨R.BE_ENGB e, 0, 5⟩
def F.BE_ENGB_LOAD (e : Nat) : Fld := ⟨R.BE_ENGB e, 8, 8⟩
def F.BE_ENGB_HALF (e : Nat) : Fld := ⟨R.BE_ENGB e, 16, 1⟩
/-- BE_ECC. -/
def R.BE_ECC : Nat := 0x40180030
def F.BE_ECC_CORR : Fld := ⟨R.BE_ECC, 0, 16⟩
def F.BE_ECC_UNCORR : Fld := ⟨R.BE_ECC, 16, 8⟩
/-- BE_FNAME. -/
def R.BE_FNAME : Nat := 0x40180040
def F.BE_FNAME_ID : Fld := ⟨R.BE_FNAME, 0, 32⟩
/-- BE_FVALL. -/
def R.BE_FVALL : Nat := 0x40180044
def F.BE_FVALL_VAL : Fld := ⟨R.BE_FVALL, 0, 32⟩
/-- BE_FVALH. -/
def R.BE_FVALH : Nat := 0x40180048
def F.BE_FVALH_VAL : Fld := ⟨R.BE_FVALH, 0, 32⟩
/-- BE_FOP. -/
def R.BE_FOP : Nat := 0x4018004C
def F.BE_FOP_OP : Fld := ⟨R.BE_FOP, 0, 2⟩
/-- BE_FRES. -/
def R.BE_FRES : Nat := 0x40180050
def F.BE_FRES_RES : Fld := ⟨R.BE_FRES, 0, 3⟩
def F.BE_FRES_NFORCE : Fld := ⟨R.BE_FRES, 8, 9⟩
/-- BE_TCFG. -/
def R.BE_TCFG (n : Nat) : Nat := 0x40180100 + n * 0x20
def F.BE_TCFG_EN (n : Nat) : Fld := ⟨R.BE_TCFG n, 0, 1⟩
def F.BE_TCFG_BASE (n : Nat) : Fld := ⟨R.BE_TCFG n, 1, 1⟩
def F.BE_TCFG_ACT_ONLY (n : Nat) : Fld := ⟨R.BE_TCFG n, 2, 1⟩
def F.BE_TCFG_CKPT (n : Nat) : Fld := ⟨R.BE_TCFG n, 3, 1⟩
def F.BE_TCFG_PRIO (n : Nat) : Fld := ⟨R.BE_TCFG n, 4, 4⟩
def F.BE_TCFG_ENG (n : Nat) : Fld := ⟨R.BE_TCFG n, 8, 3⟩
def F.BE_TCFG_PH_SEL (n : Nat) : Fld := ⟨R.BE_TCFG n, 11, 1⟩
def F.BE_TCFG_MULT (n : Nat) : Fld := ⟨R.BE_TCFG n, 16, 16⟩
/-- BE_TPH. -/
def R.BE_TPH (n : Nat) : Nat := 0x40180104 + n * 0x20
def F.BE_TPH_PHASE (n : Nat) : Fld := ⟨R.BE_TPH n, 0, 16⟩
/-- BE_TSTAT. -/
def R.BE_TSTAT (n : Nat) : Nat := 0x40180108 + n * 0x20
def F.BE_TSTAT_STATE (n : Nat) : Fld := ⟨R.BE_TSTAT n, 0, 3⟩
def F.BE_TSTAT_TRAP (n : Nat) : Fld := ⟨R.BE_TSTAT n, 3, 3⟩
/-- BE_TOVR. -/
def R.BE_TOVR (n : Nat) : Nat := 0x4018010C + n * 0x20
def F.BE_TOVR_OVR_CNT (n : Nat) : Fld := ⟨R.BE_TOVR n, 0, 16⟩
/-- BE_TRUN. -/
def R.BE_TRUN (n : Nat) : Nat := 0x40180110 + n * 0x20
def F.BE_TRUN_LAST_US (n : Nat) : Fld := ⟨R.BE_TRUN n, 0, 16⟩
def F.BE_TRUN_MAX_US (n : Nat) : Fld := ⟨R.BE_TRUN n, 16, 16⟩
/-- BE_TRELL. -/
def R.BE_TRELL (n : Nat) : Nat := 0x40180114 + n * 0x20
def F.BE_TRELL_REL_LO (n : Nat) : Fld := ⟨R.BE_TRELL n, 0, 32⟩
/-- BE_TRELH. -/
def R.BE_TRELH (n : Nat) : Nat := 0x40180118 + n * 0x20
def F.BE_TRELH_REL_HI (n : Nat) : Fld := ⟨R.BE_TRELH n, 0, 16⟩
/-- BE_TBSTAT. -/
def R.BE_TBSTAT (n : Nat) : Nat := 0x4018011C + n * 0x20
def F.BE_TBSTAT_SAT (n : Nat) : Fld := ⟨R.BE_TBSTAT n, 0, 1⟩
def F.BE_TBSTAT_INV (n : Nat) : Fld := ⟨R.BE_TBSTAT n, 1, 1⟩
/-- BE_FE_ID. -/
def R.BE_FE_ID (f : Nat) : Nat := 0x40181000 + f * 0x10
def F.BE_FE_ID_ID (f : Nat) : Fld := ⟨R.BE_FE_ID f, 0, 32⟩
/-- BE_FE_AD. -/
def R.BE_FE_AD (f : Nat) : Nat := 0x40181004 + f * 0x10
def F.BE_FE_AD_USED (f : Nat) : Fld := ⟨R.BE_FE_AD f, 0, 1⟩
def F.BE_FE_AD_AREA (f : Nat) : Fld := ⟨R.BE_FE_AD f, 1, 1⟩
def F.BE_FE_AD_SIZE (f : Nat) : Fld := ⟨R.BE_FE_AD f, 2, 2⟩
def F.BE_FE_AD_ADDR (f : Nat) : Fld := ⟨R.BE_FE_AD f, 8, 24⟩
/-- BE_FE_VL. -/
def R.BE_FE_VL (f : Nat) : Nat := 0x40181008 + f * 0x10
def F.BE_FE_VL_VAL (f : Nat) : Fld := ⟨R.BE_FE_VL f, 0, 32⟩
/-- BE_FE_VH. -/
def R.BE_FE_VH (f : Nat) : Nat := 0x4018100C + f * 0x10
def F.BE_FE_VH_VAL (f : Nat) : Fld := ⟨R.BE_FE_VH f, 0, 32⟩

/-! GN (13_gnss, R220). -/
/-- GN_CFG. -/
def R.GN_CFG : Nat := 0x40200000
def F.GN_CFG_EN : Fld := ⟨R.GN_CFG, 0, 1⟩
def F.GN_CFG_SYS_EN : Fld := ⟨R.GN_CFG, 1, 4⟩
def F.GN_CFG_BAND_EN : Fld := ⟨R.GN_CFG, 5, 2⟩
def F.GN_CFG_ANT1_EN : Fld := ⟨R.GN_CFG, 7, 1⟩
def F.GN_CFG_RTK_EN : Fld := ⟨R.GN_CFG, 8, 1⟩
def F.GN_CFG_HDG_EN : Fld := ⟨R.GN_CFG, 9, 1⟩
def F.GN_CFG_GGTO_USE : Fld := ⟨R.GN_CFG, 10, 1⟩
def F.GN_CFG_AUTO : Fld := ⟨R.GN_CFG, 11, 1⟩
def F.GN_CFG_ELEV_MASK : Fld := ⟨R.GN_CFG, 12, 10⟩
/-- GN_EPOCH. -/
def R.GN_EPOCH : Nat := 0x40200004
def F.GN_EPOCH_RATE : Fld := ⟨R.GN_EPOCH, 0, 3⟩
def F.GN_EPOCH_EPOCH_PH : Fld := ⟨R.GN_EPOCH, 4, 20⟩
/-- GN_STAT. -/
def R.GN_STAT : Nat := 0x40200008
def F.GN_STAT_FIX : Fld := ⟨R.GN_STAT, 0, 3⟩
def F.GN_STAT_HDG_FIX : Fld := ⟨R.GN_STAT, 3, 1⟩
def F.GN_STAT_HOT : Fld := ⟨R.GN_STAT, 4, 1⟩
def F.GN_STAT_CORR_OK : Fld := ⟨R.GN_STAT, 5, 1⟩
def F.GN_STAT_NSV : Fld := ⟨R.GN_STAT, 8, 8⟩
def F.GN_STAT_NCH : Fld := ⟨R.GN_STAT, 16, 8⟩
/-- GN_ANT. -/
def R.GN_ANT (a : Nat) : Nat := 0x40200010 + a * 0x4
def F.GN_ANT_BIAS_EN (a : Nat) : Fld := ⟨R.GN_ANT a, 0, 1⟩
def F.GN_ANT_OPEN (a : Nat) : Fld := ⟨R.GN_ANT a, 1, 1⟩
def F.GN_ANT_SHORT (a : Nat) : Fld := ⟨R.GN_ANT a, 2, 1⟩
def F.GN_ANT_I_MA (a : Nat) : Fld := ⟨R.GN_ANT a, 8, 8⟩
/-- GN_JI. -/
def R.GN_JI (p : Nat) : Nat := 0x40200020 + p * 0x4
def F.GN_JI_JI (p : Nat) : Fld := ⟨R.GN_JI p, 0, 8⟩
def F.GN_JI_NR_DB (p : Nat) : Fld := ⟨R.GN_JI p, 8, 8⟩
def F.GN_JI_AR_DB (p : Nat) : Fld := ⟨R.GN_JI p, 16, 8⟩
/-- GN_JICFG. -/
def R.GN_JICFG : Nat := 0x40200030
def F.GN_JICFG_JI_WARN : Fld := ⟨R.GN_JICFG, 0, 8⟩
def F.GN_JICFG_CAL : Fld := ⟨R.GN_JICFG, 8, 1⟩
/-- GN_TQ. -/
def R.GN_TQ : Nat := 0x40200040
def F.GN_TQ_TQ : Fld := ⟨R.GN_TQ, 0, 3⟩
def F.GN_TQ_TIME_JUMP_REFUSED : Fld := ⟨R.GN_TQ, 3, 1⟩
/-- GN_TACC. -/
def R.GN_TACC : Nat := 0x40200044
def F.GN_TACC_ACC_NS : Fld := ⟨R.GN_TACC, 0, 32⟩
/-- GN_TOFS. -/
def R.GN_TOFS : Nat := 0x40200048
def F.GN_TOFS_OFS_NS : Fld := ⟨R.GN_TOFS, 0, 32⟩
/-- GN_HOLD. -/
def R.GN_HOLD : Nat := 0x4020004C
def F.GN_HOLD_HOLD_DRIFT : Fld := ⟨R.GN_HOLD, 0, 16⟩
def F.GN_HOLD_LOSS_MS : Fld := ⟨R.GN_HOLD, 16, 16⟩
/-- GN_ISO. -/
def R.GN_ISO (i : Nat) : Nat := 0x40200050 + i * 0x4
def F.GN_ISO (i : Nat) : Fld := ⟨R.GN_ISO i, 0, 32⟩
/-- GN_HDG. -/
def R.GN_HDG : Nat := 0x40200060
def F.GN_HDG_BL_MM : Fld := ⟨R.GN_HDG, 0, 16⟩
def F.GN_HDG_TOL_MM : Fld := ⟨R.GN_HDG, 16, 16⟩
/-- GN_WB_CFG. -/
def R.GN_WB_CFG (q : Nat) : Nat := 0x40200100 + q * 0x10
def F.GN_WB_CFG_MODE (q : Nat) : Fld := ⟨R.GN_WB_CFG q, 0, 2⟩
def F.GN_WB_CFG_DET_DB (q : Nat) : Fld := ⟨R.GN_WB_CFG q, 2, 6⟩
def F.GN_WB_CFG_WIDTH_KHZ (q : Nat) : Fld := ⟨R.GN_WB_CFG q, 8, 11⟩
def F.GN_WB_CFG_SPAN_KHZ (q : Nat) : Fld := ⟨R.GN_WB_CFG q, 19, 13⟩
/-- GN_WB_CTR. -/
def R.GN_WB_CTR (q : Nat) : Nat := 0x40200104 + q * 0x10
def F.GN_WB_CTR_CTR_KHZ (q : Nat) : Fld := ⟨R.GN_WB_CTR q, 0, 32⟩
/-- GN_WB_ST. -/
def R.GN_WB_ST (q : Nat) : Nat := 0x40200108 + q * 0x10
def F.GN_WB_ST_LOCKED (q : Nat) : Fld := ⟨R.GN_WB_ST q, 0, 1⟩
/-- GN_WB_FREQ. -/
def R.GN_WB_FREQ (q : Nat) : Nat := 0x4020010C + q * 0x10
def F.GN_WB_FREQ_FREQ_KHZ (q : Nat) : Fld := ⟨R.GN_WB_FREQ q, 0, 32⟩
/-- GN_ACQ_REQ. -/
def R.GN_ACQ_REQ : Nat := 0x40200200
def F.GN_ACQ_REQ_SYS : Fld := ⟨R.GN_ACQ_REQ, 0, 2⟩
def F.GN_ACQ_REQ_SV : Fld := ⟨R.GN_ACQ_REQ, 2, 8⟩
def F.GN_ACQ_REQ_SIG : Fld := ⟨R.GN_ACQ_REQ, 10, 4⟩
def F.GN_ACQ_REQ_ANT : Fld := ⟨R.GN_ACQ_REQ, 14, 1⟩
def F.GN_ACQ_REQ_COH_MS : Fld := ⟨R.GN_ACQ_REQ, 15, 4⟩
def F.GN_ACQ_REQ_NCOH : Fld := ⟨R.GN_ACQ_REQ, 19, 7⟩
def F.GN_ACQ_REQ_GO : Fld := ⟨R.GN_ACQ_REQ, 31, 1⟩
/-- GN_ACQ_DOP. -/
def R.GN_ACQ_DOP : Nat := 0x40200204
def F.GN_ACQ_DOP_CTR_HZ : Fld := ⟨R.GN_ACQ_DOP, 0, 16⟩
def F.GN_ACQ_DOP_SPAN_HZ : Fld := ⟨R.GN_ACQ_DOP, 16, 16⟩
/-- GN_ACQ_RES. -/
def R.GN_ACQ_RES : Nat := 0x40200208
def F.GN_ACQ_RES_RES : Fld := ⟨R.GN_ACQ_RES, 0, 2⟩
def F.GN_ACQ_RES_CODE_PH : Fld := ⟨R.GN_ACQ_RES, 2, 14⟩
def F.GN_ACQ_RES_CN0 : Fld := ⟨R.GN_ACQ_RES, 16, 8⟩
def F.GN_ACQ_RES_QLEN : Fld := ⟨R.GN_ACQ_RES, 24, 8⟩
/-- GN_ACQ_RDOP. -/
def R.GN_ACQ_RDOP : Nat := 0x4020020C
def F.GN_ACQ_RDOP_DOP_HZ : Fld := ⟨R.GN_ACQ_RDOP, 0, 32⟩
/-- GN_ACQ_MIN. -/
def R.GN_ACQ_MIN : Nat := 0x40200210
def F.GN_ACQ_MIN_ACQ_MIN : Fld := ⟨R.GN_ACQ_MIN, 0, 8⟩
/-- GN_ACQBUFL. -/
def R.GN_ACQBUFL : Nat := 0x40200214
def F.GN_ACQBUFL_BUF_LO : Fld := ⟨R.GN_ACQBUFL, 0, 32⟩
/-- GN_ACQBUFH. -/
def R.GN_ACQBUFH : Nat := 0x40200218
def F.GN_ACQBUFH_BUF_HI : Fld := ⟨R.GN_ACQBUFH, 0, 8⟩
/-- GN_OBS. -/
def R.GN_OBS : Nat := 0x40200220
def F.GN_OBS_EN : Fld := ⟨R.GN_OBS, 0, 1⟩
def F.GN_OBS_RING_LOG2 : Fld := ⟨R.GN_OBS, 1, 5⟩
/-- GN_OBS_BL. -/
def R.GN_OBS_BL : Nat := 0x40200224
def F.GN_OBS_BL_BASE_LO : Fld := ⟨R.GN_OBS_BL, 0, 32⟩
/-- GN_OBS_BH. -/
def R.GN_OBS_BH : Nat := 0x40200228
def F.GN_OBS_BH_BASE_HI : Fld := ⟨R.GN_OBS_BH, 0, 8⟩
/-- GN_OBS_WIDX. -/
def R.GN_OBS_WIDX : Nat := 0x4020022C
def F.GN_OBS_WIDX_WIDX : Fld := ⟨R.GN_OBS_WIDX, 0, 20⟩
/-- GN_WREC. -/
def R.GN_WREC : Nat := 0x40200230
def F.GN_WREC_EN : Fld := ⟨R.GN_WREC, 0, 1⟩
def F.GN_WREC_RING_LOG2 : Fld := ⟨R.GN_WREC, 1, 5⟩
/-- GN_WREC_BL. -/
def R.GN_WREC_BL : Nat := 0x40200234
def F.GN_WREC_BL_BASE_LO : Fld := ⟨R.GN_WREC_BL, 0, 32⟩
/-- GN_WREC_BH. -/
def R.GN_WREC_BH : Nat := 0x40200238
def F.GN_WREC_BH_BASE_HI : Fld := ⟨R.GN_WREC_BH, 0, 8⟩
/-- GN_WREC_WIDX. -/
def R.GN_WREC_WIDX : Nat := 0x4020023C
def F.GN_WREC_WIDX_WIDX : Fld := ⟨R.GN_WREC_WIDX, 0, 20⟩
/-- GN_CH_CTRL. -/
def R.GN_CH_CTRL (n : Nat) : Nat := 0x40201000 + n * 0x10
def F.GN_CH_CTRL_EN (n : Nat) : Fld := ⟨R.GN_CH_CTRL n, 0, 1⟩
def F.GN_CH_CTRL_SYS (n : Nat) : Fld := ⟨R.GN_CH_CTRL n, 1, 2⟩
def F.GN_CH_CTRL_SV (n : Nat) : Fld := ⟨R.GN_CH_CTRL n, 3, 8⟩
def F.GN_CH_CTRL_SIG (n : Nat) : Fld := ⟨R.GN_CH_CTRL n, 11, 4⟩
def F.GN_CH_CTRL_ANT (n : Nat) : Fld := ⟨R.GN_CH_CTRL n, 15, 1⟩
def F.GN_CH_CTRL_SP (n : Nat) : Fld := ⟨R.GN_CH_CTRL n, 16, 5⟩
def F.GN_CH_CTRL_MP_MODE (n : Nat) : Fld := ⟨R.GN_CH_CTRL n, 21, 1⟩
/-- GN_CH_STAT. -/
def R.GN_CH_STAT (n : Nat) : Nat := 0x40201004 + n * 0x10
def F.GN_CH_STAT_STATE (n : Nat) : Fld := ⟨R.GN_CH_STAT n, 0, 2⟩
def F.GN_CH_STAT_CN0 (n : Nat) : Fld := ⟨R.GN_CH_STAT n, 16, 16⟩

/-! KZ (12_kazso_lattice, R197). -/
/-- KZ_STAT. -/
def R.KZ_STAT : Nat := 0x40300000
def F.KZ_STAT_STATE : Fld := ⟨R.KZ_STAT, 0, 2⟩
def F.KZ_STAT_ARM_READY : Fld := ⟨R.KZ_STAT, 2, 1⟩
def F.KZ_STAT_SPE_AVAIL : Fld := ⟨R.KZ_STAT, 3, 1⟩
def F.KZ_STAT_SC_ALIVE : Fld := ⟨R.KZ_STAT, 4, 1⟩
def F.KZ_STAT_WHY : Fld := ⟨R.KZ_STAT, 5, 3⟩
def F.KZ_STAT_SO_ON : Fld := ⟨R.KZ_STAT, 16, 16⟩
/-- KZ_FAULT. -/
def R.KZ_FAULT : Nat := 0x40300004
def F.KZ_FAULT_ACTIVE : Fld := ⟨R.KZ_FAULT, 0, 10⟩
def F.KZ_FAULT_SEEN : Fld := ⟨R.KZ_FAULT, 16, 10⟩
/-- KZ_SLTV. -/
def R.KZ_SLTV : Nat := 0x40300008
def F.KZ_SLTV_V : Fld := ⟨R.KZ_SLTV, 0, 24⟩
/-- KZ_SSEV. -/
def R.KZ_SSEV : Nat := 0x4030000C
def F.KZ_SSEV_V : Fld := ⟨R.KZ_SSEV, 0, 24⟩
/-- KZ_TRIP. -/
def R.KZ_TRIP : Nat := 0x40300010
def F.KZ_TRIP_TRIP : Fld := ⟨R.KZ_TRIP, 0, 24⟩
/-- KZ_FUNC. -/
def R.KZ_FUNC : Nat := 0x40300014
def F.KZ_FUNC_SRT_V : Fld := ⟨R.KZ_FUNC, 0, 1⟩
def F.KZ_FUNC_SPE_V : Fld := ⟨R.KZ_FUNC, 1, 1⟩
def F.KZ_FUNC_SPE_WARN : Fld := ⟨R.KZ_FUNC, 2, 1⟩
/-- KZ_DEG. -/
def R.KZ_DEG : Nat := 0x40300018
def F.KZ_DEG_DEG_MS : Fld := ⟨R.KZ_DEG, 0, 19⟩
/-- KZ_CFG. -/
def R.KZ_CFG : Nat := 0x40300020
def F.KZ_CFG_DEG_MAX_S : Fld := ⟨R.KZ_CFG, 0, 9⟩
def F.KZ_CFG_AUTOARM : Fld := ⟨R.KZ_CFG, 9, 1⟩
def F.KZ_CFG_SO_EN : Fld := ⟨R.KZ_CFG, 16, 16⟩
/-- KZ_TIME. -/
def R.KZ_TIME : Nat := 0x40300024
def F.KZ_TIME_GRACE_MS : Fld := ⟨R.KZ_TIME, 0, 16⟩
def F.KZ_TIME_CLR_MS : Fld := ⟨R.KZ_TIME, 16, 16⟩
/-- KZ_PERS. -/
def R.KZ_PERS : Nat := 0x40300028
def F.KZ_PERS_SLT_MS : Fld := ⟨R.KZ_PERS, 0, 8⟩
def F.KZ_PERS_SSE_MS : Fld := ⟨R.KZ_PERS, 8, 8⟩
def F.KZ_PERS_SRT_MS : Fld := ⟨R.KZ_PERS, 16, 8⟩
def F.KZ_PERS_CMP_MS : Fld := ⟨R.KZ_PERS, 24, 8⟩
/-- KZ_OPT. -/
def R.KZ_OPT : Nat := 0x4030002C
def F.KZ_OPT_OPT_US : Fld := ⟨R.KZ_OPT, 0, 10⟩
def F.KZ_OPT_OPT_EN : Fld := ⟨R.KZ_OPT, 16, 16⟩
/-- KZ_AUTH. -/
def R.KZ_AUTH : Nat := 0x40300030
def F.KZ_AUTH_AUTH_TMO_MS : Fld := ⟨R.KZ_AUTH, 0, 16⟩
def F.KZ_AUTH_SPE_EN : Fld := ⟨R.KZ_AUTH, 16, 1⟩
def F.KZ_AUTH_SPE_N : Fld := ⟨R.KZ_AUTH, 24, 8⟩
/-- KZ_SRT. -/
def R.KZ_SRT : Nat := 0x40300034
def F.KZ_SRT_LCH : Fld := ⟨R.KZ_SRT, 0, 5⟩
def F.KZ_SRT_SCCH : Fld := ⟨R.KZ_SRT, 5, 5⟩
def F.KZ_SRT_SRT_EN : Fld := ⟨R.KZ_SRT, 10, 1⟩
/-- KZ_SRT_LIM. -/
def R.KZ_SRT_LIM : Nat := 0x40300040
def F.KZ_SRT_LIM : Fld := ⟨R.KZ_SRT_LIM, 0, 32⟩
/-- KZ_SRT_GAIN. -/
def R.KZ_SRT_GAIN : Nat := 0x40300044
def F.KZ_SRT_GAIN : Fld := ⟨R.KZ_SRT_GAIN, 0, 32⟩
/-- KZ_SRT_OFS. -/
def R.KZ_SRT_OFS : Nat := 0x40300048
def F.KZ_SRT_OFS : Fld := ⟨R.KZ_SRT_OFS, 0, 32⟩
/-- KZ_SPE_RWARN. -/
def R.KZ_SPE_RWARN : Nat := 0x4030004C
def F.KZ_SPE_RWARN : Fld := ⟨R.KZ_SPE_RWARN, 0, 32⟩
/-- KZ_SPE_RTRIP. -/
def R.KZ_SPE_RTRIP : Nat := 0x40300050
def F.KZ_SPE_RTRIP : Fld := ⟨R.KZ_SPE_RTRIP, 0, 32⟩
/-- KZ_SPE_K. -/
def R.KZ_SPE_K : Nat := 0x40300054
def F.KZ_SPE_K : Fld := ⟨R.KZ_SPE_K, 0, 32⟩
/-- KZ_SI. -/
def R.KZ_SI (p : Nat) : Nat := 0x40300060 + p * 0x4
def F.KZ_SI_MODE (p : Nat) : Fld := ⟨R.KZ_SI p, 0, 2⟩
def F.KZ_SI_DISC_MS (p : Nat) : Fld := ⟨R.KZ_SI p, 8, 8⟩
def F.KZ_SI_INH_MASK (p : Nat) : Fld := ⟨R.KZ_SI p, 16, 16⟩
/-- KZ_SISTAT. -/
def R.KZ_SISTAT : Nat := 0x40300080
def F.KZ_SISTAT_LEVEL : Fld := ⟨R.KZ_SISTAT, 0, 16⟩
def F.KZ_SISTAT_PACT : Fld := ⟨R.KZ_SISTAT, 16, 8⟩
def F.KZ_SISTAT_PDISC : Fld := ⟨R.KZ_SISTAT, 24, 8⟩
/-- KZ_CH. -/
def R.KZ_CH (c : Nat) : Nat := 0x40300100 + c * 0x40
def F.KZ_CH_EN (c : Nat) : Fld := ⟨R.KZ_CH c, 0, 1⟩
def F.KZ_CH_KIND (c : Nat) : Fld := ⟨R.KZ_CH c, 1, 2⟩
def F.KZ_CH_OUTCHK (c : Nat) : Fld := ⟨R.KZ_CH c, 3, 1⟩
def F.KZ_CH_OUT_IDX (c : Nat) : Fld := ⟨R.KZ_CH c, 4, 5⟩
def F.KZ_CH_ENC (c : Nat) : Fld := ⟨R.KZ_CH c, 9, 4⟩
def F.KZ_CH_OUT_SRC (c : Nat) : Fld := ⟨R.KZ_CH c, 13, 1⟩
def F.KZ_CH_SO_MASK (c : Nat) : Fld := ⟨R.KZ_CH c, 16, 16⟩
/-- KZ_FREF. -/
def R.KZ_FREF (c : Nat) : Nat := 0x40300104 + c * 0x40
def F.KZ_FREF (c : Nat) : Fld := ⟨R.KZ_FREF c, 0, 32⟩
/-- KZ_SLT. -/
def R.KZ_SLT (c : Nat) : Nat := 0x40300108 + c * 0x40
def F.KZ_SLT (c : Nat) : Fld := ⟨R.KZ_SLT c, 0, 32⟩
/-- KZ_SLT_DEG. -/
def R.KZ_SLT_DEG (c : Nat) : Nat := 0x4030010C + c * 0x40
def F.KZ_SLT_DEG (c : Nat) : Fld := ⟨R.KZ_SLT_DEG c, 0, 32⟩
/-- KZ_SSE_THR. -/
def R.KZ_SSE_THR (c : Nat) : Nat := 0x40300110 + c * 0x40
def F.KZ_SSE_THR (c : Nat) : Fld := ⟨R.KZ_SSE_THR c, 0, 32⟩
/-- KZ_LIM. -/
def R.KZ_LIM (c : Nat) : Nat := 0x40300114 + c * 0x40
def F.KZ_LIM_OUT_LIM (c : Nat) : Fld := ⟨R.KZ_LIM c, 0, 16⟩
def F.KZ_LIM_OUT_DEG (c : Nat) : Fld := ⟨R.KZ_LIM c, 16, 16⟩
/-- KZ_OTHR. -/
def R.KZ_OTHR (c : Nat) : Nat := 0x40300118 + c * 0x40
def F.KZ_OTHR_SSE_OTHR (c : Nat) : Fld := ⟨R.KZ_OTHR c, 0, 16⟩
def F.KZ_OTHR_AZ_OFS (c : Nat) : Fld := ⟨R.KZ_OTHR c, 16, 16⟩
/-- KZ_ENC. -/
def R.KZ_ENC (c : Nat) : Nat := 0x4030011C + c * 0x40
def F.KZ_ENC_EMODE (c : Nat) : Fld := ⟨R.KZ_ENC c, 0, 1⟩
def F.KZ_ENC_BITS (c : Nat) : Fld := ⟨R.KZ_ENC c, 1, 6⟩
def F.KZ_ENC_GRAY (c : Nat) : Fld := ⟨R.KZ_ENC c, 7, 1⟩
def F.KZ_ENC_SSI_DIV (c : Nat) : Fld := ⟨R.KZ_ENC c, 8, 8⟩
def F.KZ_ENC_CPR_LOG2 (c : Nat) : Fld := ⟨R.KZ_ENC c, 16, 5⟩
/-- KZ_SECT. -/
def R.KZ_SECT (c s : Nat) : Nat := 0x40300120 + c * 0x40 + s * 0x4
def F.KZ_SECT_START (c s : Nat) : Fld := ⟨R.KZ_SECT c s, 0, 16⟩
def F.KZ_SECT_END (c s : Nat) : Fld := ⟨R.KZ_SECT c s, 16, 16⟩
/-- KZ_COND. -/
def R.KZ_COND (c : Nat) : Nat := 0x40300130 + c * 0x40
def F.KZ_COND_COND0 (c : Nat) : Fld := ⟨R.KZ_COND c, 0, 2⟩
def F.KZ_COND_SI0 (c : Nat) : Fld := ⟨R.KZ_COND c, 2, 4⟩
def F.KZ_COND_COND1 (c : Nat) : Fld := ⟨R.KZ_COND c, 8, 2⟩
def F.KZ_COND_SI1 (c : Nat) : Fld := ⟨R.KZ_COND c, 10, 4⟩
def F.KZ_COND_COND2 (c : Nat) : Fld := ⟨R.KZ_COND c, 16, 2⟩
def F.KZ_COND_SI2 (c : Nat) : Fld := ⟨R.KZ_COND c, 18, 4⟩
def F.KZ_COND_COND3 (c : Nat) : Fld := ⟨R.KZ_COND c, 24, 2⟩
def F.KZ_COND_SI3 (c : Nat) : Fld := ⟨R.KZ_COND c, 26, 4⟩
/-- KZ_CST. -/
def R.KZ_CST (c : Nat) : Nat := 0x40300134 + c * 0x40
def F.KZ_CST_ACTIVE (c : Nat) : Fld := ⟨R.KZ_CST c, 0, 4⟩
def F.KZ_CST_GRACE (c : Nat) : Fld := ⟨R.KZ_CST c, 4, 4⟩
def F.KZ_CST_SLT_GRACE (c : Nat) : Fld := ⟨R.KZ_CST c, 8, 1⟩
def F.KZ_CST_AZ (c : Nat) : Fld := ⟨R.KZ_CST c, 16, 16⟩
/-- KZ_SLT_NOW. -/
def R.KZ_SLT_NOW (c : Nat) : Nat := 0x40300138 + c * 0x40
def F.KZ_SLT_NOW (c : Nat) : Fld := ⟨R.KZ_SLT_NOW c, 0, 32⟩
/-- KZ_CCNT. -/
def R.KZ_CCNT (c : Nat) : Nat := 0x4030013C + c * 0x40
def F.KZ_CCNT_REFUSE (c : Nat) : Fld := ⟨R.KZ_CCNT c, 0, 16⟩
def F.KZ_CCNT_ENTRY_REF (c : Nat) : Fld := ⟨R.KZ_CCNT c, 16, 16⟩

/-! HA (11_partner_pair, R178). -/
/-- HA_CTRL. -/
def R.HA_CTRL : Nat := 0x40310000
def F.HA_CTRL_GO_ACTIVE : Fld := ⟨R.HA_CTRL, 0, 1⟩
def F.HA_CTRL_REJOIN : Fld := ⟨R.HA_CTRL, 1, 1⟩
def F.HA_CTRL_DEMOTE : Fld := ⟨R.HA_CTRL, 2, 1⟩
/-- HA_CFG. -/
def R.HA_CFG : Nat := 0x40310004
def F.HA_CFG_PAIR_EN : Fld := ⟨R.HA_CFG, 0, 1⟩
def F.HA_CFG_GN_BIV : Fld := ⟨R.HA_CFG, 1, 1⟩
def F.HA_CFG_CKPT_MAXAGE : Fld := ⟨R.HA_CFG, 4, 4⟩
def F.HA_CFG_RET_N : Fld := ⟨R.HA_CFG, 8, 8⟩
def F.HA_CFG_REFRESH_MIN : Fld := ⟨R.HA_CFG, 16, 16⟩
/-- HA_STAT. -/
def R.HA_STAT : Nat := 0x40310008
def F.HA_STAT_STATE : Fld := ⟨R.HA_STAT, 0, 3⟩
def F.HA_STAT_PSTATE : Fld := ⟨R.HA_STAT, 3, 3⟩
def F.HA_STAT_LINE_A : Fld := ⟨R.HA_STAT, 6, 1⟩
def F.HA_STAT_LINE_B : Fld := ⟨R.HA_STAT, 7, 1⟩
def F.HA_STAT_CKPT_VALID : Fld := ⟨R.HA_STAT, 8, 1⟩
def F.HA_STAT_PCKOK : Fld := ⟨R.HA_STAT, 9, 1⟩
def F.HA_STAT_SEIZE_BLK : Fld := ⟨R.HA_STAT, 10, 1⟩
def F.HA_STAT_DEM_CAUSE : Fld := ⟨R.HA_STAT, 11, 3⟩
def F.HA_STAT_CRES : Fld := ⟨R.HA_STAT, 16, 3⟩
/-- HA_TERM. -/
def R.HA_TERM : Nat := 0x4031000C
def F.HA_TERM_TERM : Fld := ⟨R.HA_TERM, 0, 32⟩
/-- HA_TERMSRC. -/
def R.HA_TERMSRC : Nat := 0x40310010
def F.HA_TERMSRC_SRC : Fld := ⟨R.HA_TERMSRC, 0, 9⟩
/-- HA_CKCYC. -/
def R.HA_CKCYC : Nat := 0x40310014
def F.HA_CKCYC_CYC : Fld := ⟨R.HA_CKCYC, 0, 32⟩
/-- HA_CKSIZE. -/
def R.HA_CKSIZE : Nat := 0x40310018
def F.HA_CKSIZE_BYTES : Fld := ⟨R.HA_CKSIZE, 0, 19⟩
/-- HA_CNT0. -/
def R.HA_CNT0 : Nat := 0x4031001C
def F.HA_CNT0_SEIZE_CNT : Fld := ⟨R.HA_CNT0, 0, 8⟩
def F.HA_CNT0_LOSS_A : Fld := ⟨R.HA_CNT0, 8, 8⟩
def F.HA_CNT0_LOSS_B : Fld := ⟨R.HA_CNT0, 16, 8⟩
def F.HA_CNT0_CKPT_BAD : Fld := ⟨R.HA_CNT0, 24, 8⟩
/-- HA_CNT1. -/
def R.HA_CNT1 : Nat := 0x40310020
def F.HA_CNT1_OLD_TERM : Fld := ⟨R.HA_CNT1, 0, 16⟩
def F.HA_CNT1_CLASH : Fld := ⟨R.HA_CNT1, 16, 8⟩
def F.HA_CNT1_DEM_CNT : Fld := ⟨R.HA_CNT1, 24, 8⟩
/-- HA_EVT. -/
def R.HA_EVT : Nat := 0x40310024
def F.HA_EVT_SEIZED : Fld := ⟨R.HA_EVT, 0, 1⟩
def F.HA_EVT_DEMOTED : Fld := ⟨R.HA_EVT, 1, 1⟩
def F.HA_EVT_LINE_LOST : Fld := ⟨R.HA_EVT, 2, 1⟩
def F.HA_EVT_LINE_BACK : Fld := ⟨R.HA_EVT, 3, 1⟩
def F.HA_EVT_ISOLATED : Fld := ⟨R.HA_EVT, 4, 1⟩
def F.HA_EVT_TERM_UP : Fld := ⟨R.HA_EVT, 5, 1⟩
def F.HA_EVT_CLASH : Fld := ⟨R.HA_EVT, 6, 1⟩
def F.HA_EVT_SEIZE_BLK : Fld := ⟨R.HA_EVT, 7, 1⟩
/-- HA_TDL. -/
def R.HA_TDL : Nat := 0x40310028
def F.HA_TDL_TD_LO : Fld := ⟨R.HA_TDL, 0, 32⟩
/-- HA_TDH. -/
def R.HA_TDH : Nat := 0x4031002C
def F.HA_TDH_TD_HI : Fld := ⟨R.HA_TDH, 0, 16⟩
/-- HA_LHBL. -/
def R.HA_LHBL : Nat := 0x40310030
def F.HA_LHBL_LHB_LO : Fld := ⟨R.HA_LHBL, 0, 32⟩
/-- HA_LHBH. -/
def R.HA_LHBH : Nat := 0x40310034
def F.HA_LHBH_LHB_HI : Fld := ⟨R.HA_LHBH, 0, 16⟩

/-! IO (25_pins_electrical, R403). -/
/-- IO_GPIO_DIR. -/
def R.IO_GPIO_DIR : Nat := 0x40320000
def F.IO_GPIO_DIR_DIR : Fld := ⟨R.IO_GPIO_DIR, 0, 32⟩
/-- IO_GPIO_OUT. -/
def R.IO_GPIO_OUT : Nat := 0x40320004
def F.IO_GPIO_OUT_OUT : Fld := ⟨R.IO_GPIO_OUT, 0, 32⟩
/-- IO_GPIO_IN. -/
def R.IO_GPIO_IN : Nat := 0x40320008
def F.IO_GPIO_IN_IN : Fld := ⟨R.IO_GPIO_IN, 0, 32⟩
/-- IO_TEMP. -/
def R.IO_TEMP : Nat := 0x40320010
def F.IO_TEMP_TJ : Fld := ⟨R.IO_TEMP, 0, 12⟩
def F.IO_TEMP_HOT : Fld := ⟨R.IO_TEMP, 12, 1⟩

/-! The table, by 64 KiB page. -/
/-- The rows of page 0x4000. -/
def regPage4000_0 : List RegDesc := [
  ⟨0x40000000, [], 0, 0, 1, 0x4812A100, 0x0, 0x0, 0x0, 0x0, 0x0, 0x0, 0x0, 0x0⟩,
  ⟨0x40000004, [], 0, 0, 1, 0x3, 0x0, 0x0, 0x0, 0x0, 0x0, 0x0, 0x0, 0x1FF0003⟩,
  ⟨0x40000008, [], 0, 0, 1, 0x2, 0x0, 0x0, 0x0, 0x0, 0x0, 0xC00, 0x0, 0x0⟩,
  ⟨0x4000000C, [], 0, 0, 1, 0x0, 0x0, 0x0, 0x0, 0x0, 0x0, 0xFFFF, 0x0, 0x0⟩,
  ⟨0x40000010, [], 0, 0, 1, 0x0, 0x0, 0x0, 0xFF, 0x0, 0x0, 0x0, 0x0, 0x0⟩,
  ⟨0x40000014, [], 0, 0, 1, 0x0, 0x0, 0x0, 0xFF, 0x0, 0x0, 0x0, 0x0, 0x0⟩,
  ⟨0x40000100, [], 3, 3, 1, 0x300, 0xF01, 0x0, 0x0, 0x0, 0x0, 0x0, 0x0, 0x0⟩,
  ⟨0x40000104, [], 3, 3, 1, 0x2710, 0x1FFFF, 0x0, 0x0, 0x0, 0x0, 0x0, 0x0, 0x0⟩,
  ⟨0x40000108, [], 3, 3, 1, 0x12C0032, 0x3FFF3FFF, 0x0, 0x0, 0x0, 0x0, 0x0, 0x0, 0x0⟩,
  ⟨0x4000010C, [], 3, 3, 1, 0x8980708, 0x3FFF3FFF, 0x0, 0x0, 0x0, 0x0, 0x0, 0x0, 0x0⟩,
  ⟨0x40000110, [], 3, 3, 1, 0x11F81194, 0x3FFF3FFF, 0x0, 0x0, 0x0, 0x0, 0x0, 0x0, 0x0⟩,
  ⟨0x40000114, [], 3, 3, 1, 0x708, 0x1FFFF, 0x0, 0x0, 0x0, 0x0, 0x0, 0x0, 0x0⟩,
  ⟨0x40000118, [], 0, 0, 1, 0x0, 0x0, 0x0, 0x0, 0x0, 0x0, 0x0, 0x0, 0x0⟩,
  ⟨0x4000011C, [], 0, 7, 1, 0x0, 0x0, 0x1F, 0x0, 0x0, 0x0, 0x0, 0x0, 0x0⟩,
  ⟨0x40000120, [], 0, 0, 1, 0x0, 0x0, 0x0, 0x0, 0x0, 0x0, 0x0, 0x0, 0x0⟩,
  ⟨0x40000124, [], 0, 0, 1, 0x0, 0x0, 0x0, 0x0, 0x0, 0x0, 0x0, 0x0, 0x0⟩,
  ⟨0x40000128, [], 0, 0, 1, 0x0, 0x0, 0x0, 0xFFFFFFFF, 0x0, 0x0, 0x0, 0x0, 0x0⟩,
  ⟨0x40000200, [], 3, 3, 1, 0x0, 0x0, 0x0, 0x0, 0x0, 0xFFFFFFFF, 0x0, 0x0, 0x0⟩,
  ⟨0x40000204, [], 0, 0, 1, 0x0, 0x0, 0x0, 0x0, 0x0, 0x0, 0x0, 0x0, 0x0⟩,
  ⟨0x40000300, [], 3, 3, 13, 0x0, 0xFF, 0x0, 0x0, 0x0, 0x0, 0x0, 0x0, 0x0⟩]
def regPage4000 : List RegDesc := regPage4000_0
/-- The rows of page 0x4001. -/
def regPage4001_0 : List RegDesc := [
  ⟨0x40010000, [], 0, 0, 1, 0x0, 0x0, 0x0, 0xFF00, 0x0, 0x0, 0x0, 0x0, 0x0⟩,
  ⟨0x40010100, [], 7, 7, 1, 0x393F, 0x3FFF, 0x0, 0x0, 0x0, 0x0, 0x0, 0x0, 0x0⟩,
  ⟨0x40010104, [], 0, 0, 1, 0x0, 0x0, 0x0, 0x0, 0x0, 0x0, 0x0, 0x0, 0x0⟩,
  ⟨0x40010108, [], 3, 3, 1, 0x0, 0x0, 0x0, 0x0, 0x0, 0xFFFFFFFF, 0x0, 0x0, 0x0⟩,
  ⟨0x4001010C, [], 0, 7, 1, 0x0, 0x0, 0x1, 0xFFFF0000, 0x0, 0x0, 0x0, 0x0, 0x0⟩,
  ⟨0x40010110, [], 3, 3, 1, 0x0, 0x7, 0x0, 0x0, 0x0, 0x0, 0x7, 0x0, 0x0⟩,
  ⟨0x40010114, [], 3, 3, 1, 0x0, 0xFFFFFFFF, 0x0, 0x0, 0x0, 0x0, 0xFFFFFFFF, 0x0, 0x0⟩,
  ⟨0x40010118, [], 3, 3, 1, 0x0, 0xFFFF, 0x0, 0x0, 0x0, 0x0, 0xFFFF, 0x0, 0x0⟩,
  ⟨0x40010200, [], 0, 0, 1, 0x100, 0x0, 0x0, 0x7F00, 0x0, 0x0, 0x7F07, 0x0, 0x0⟩,
  ⟨0x40010204, [], 2, 2, 1, 0x1F4, 0xFFFF, 0x0, 0x0, 0x0, 0x0, 0x0, 0x0, 0x0⟩,
  ⟨0x40010208, [], 2, 2, 1, 0x0, 0x0, 0x0, 0x0, 0xFFFFFFFF, 0x0, 0x0, 0x0, 0x0⟩,
  ⟨0x4001020C, [], 2, 2, 1, 0x0, 0x0, 0x0, 0x0, 0x0, 0xFFFFFFFF, 0x0, 0x0, 0x0⟩,
  ⟨0x40010210, [], 3, 3, 1, 0x0, 0x0, 0x0, 0x0, 0x0, 0xFFFFFFFF, 0x0, 0x0, 0x0⟩]
def regPage4001 : List RegDesc := regPage4001_0
/-- The rows of page 0x4002. -/
def regPage4002_0 : List RegDesc := [
  ⟨0x40020000, [], 0, 0, 1, 0x0, 0x0, 0x0, 0x0, 0x0, 0x0, 0x0, 0x0, 0x3FFFF⟩,
  ⟨0x40020010, [], 0, 0, 1, 0x0, 0x0, 0x0, 0x0, 0x0, 0x0, 0x0, 0x0, 0xFFFFFFFF⟩,
  ⟨0x40020014, [], 0, 0, 1, 0x0, 0x0, 0x0, 0x0, 0x0, 0x0, 0x0, 0x0, 0xFFFFFFFF⟩,
  ⟨0x40020200, [(128, 0x4)], 0, 0, 1, 0x0, 0x0, 0x0, 0x0, 0x0, 0x0, 0x0, 0x0, 0xFFFFFFFF⟩]
def regPage4002 : List RegDesc := regPage4002_0
/-- The rows of page 0x4003. -/
def regPage4003_0 : List RegDesc := [
  ⟨0x40030000, [], 3, 3, 1, 0x1C200, 0x3FFFFF, 0x0, 0x0, 0x0, 0x0, 0x0, 0x0, 0x0⟩,
  ⟨0x40030004, [], 0, 0, 1, 0x0, 0x0, 0x0, 0x0, 0x0, 0x0, 0x0, 0x0, 0x0⟩,
  ⟨0x40030008, [], 0, 0, 1, 0x0, 0x0, 0x0, 0xFFFFFFFF, 0x0, 0x0, 0x0, 0x0, 0x0⟩,
  ⟨0x4003000C, [], 0, 0, 1, 0x0, 0x0, 0x0, 0xFFFFFFFF, 0x0, 0x0, 0x0, 0x0, 0x0⟩]
def regPage4003 : List RegDesc := regPage4003_0
/-- The rows of page 0x4004. -/
def regPage4004_0 : List RegDesc := [
  ⟨0x40040000, [(10, 0x100)], 0, 0, 1, 0x0, 0x0, 0x0, 0x0, 0x0, 0x0, 0x0, 0x0, 0x0⟩,
  ⟨0x40040004, [(10, 0x100)], 6, 6, 1, 0x0, 0x0, 0x0, 0x0, 0xFFFFFFFF, 0x0, 0x0, 0x0, 0x0⟩,
  ⟨0x40040008, [(10, 0x100)], 0, 0, 1, 0x0, 0x0, 0x0, 0x0, 0x0, 0x0, 0x0, 0x0, 0x0⟩,
  ⟨0x4004000C, [(10, 0x100)], 6, 6, 1, 0x0, 0x1, 0x0, 0x0, 0x0, 0x0, 0x0, 0x0, 0x0⟩,
  ⟨0x40040010, [(10, 0x100)], 0, 0, 1, 0x0, 0x0, 0x0, 0xFFFFFFFF, 0x0, 0x0, 0x0, 0x0, 0x0⟩,
  ⟨0x40040040, [(10, 0x100), (8, 0x10)], 6, 6, 1, 0x0, 0xFFFFFFFF, 0x0, 0x0, 0x0, 0x0, 0x0, 0x0, 0x0⟩,
  ⟨0x40040044, [(10, 0x100), (8, 0x10)], 6, 6, 1, 0x400, 0x1FFF, 0x0, 0x0, 0x0, 0x0, 0x0, 0x0, 0x0⟩,
  ⟨0x40040048, [(10, 0x100), (8, 0x10)], 0, 0, 1, 0x0, 0x0, 0x0, 0x0, 0x0, 0x0, 0x0, 0x0, 0x0⟩,
  ⟨0x4004004C, [(10, 0x100), (8, 0x10)], 0, 0, 1, 0x0, 0x0, 0x0, 0xFFFF, 0x0, 0x0, 0x0, 0x0, 0x0⟩,
  ⟨0x40040F00, [], 7, 7, 1, 0x0, 0xFFFFFFFF, 0x0, 0x0, 0x0, 0x0, 0x0, 0x0, 0x0⟩,
  ⟨0x40040F04, [], 7, 7, 1, 0x0, 0x0, 0x0, 0x0, 0xF, 0x0, 0x0, 0x0, 0x0⟩,
  ⟨0x40041000, [(512, 0x4)], 7, 7, 1, 0x0, 0xFF, 0x0, 0x0, 0x0, 0x0, 0x0, 0x0, 0x0⟩,
  ⟨0x40041800, [(512, 0x4)], 0, 0, 1, 0x0, 0x0, 0x0, 0xFF, 0x0, 0x0, 0x0, 0x0, 0x0⟩]
def regPage4004 : List RegDesc := regPage4004_0
/-- The rows of page 0x4005. -/
def regPage4005_0 : List RegDesc := [
  ⟨0x40050000, [], 0, 0, 0, 0x0, 0x0, 0x0, 0x0, 0x0, 0x0, 0x3FFFF, 0x0, 0x0⟩,
  ⟨0x40050004, [], 0, 0, 0, 0x0, 0x0, 0x0, 0x0, 0x0, 0x0, 0xFFFFFFFF, 0x0, 0x0⟩,
  ⟨0x40050008, [], 3, 3, 0, 0x0, 0xFFFFFFFF, 0x0, 0x0, 0x0, 0x0, 0xFFFFFFFF, 0x0, 0x0⟩,
  ⟨0x4005000C, [], 3, 7, 0, 0x0, 0x2, 0x8, 0x0, 0x1, 0x0, 0xF, 0x0, 0x0⟩,
  ⟨0x40050010, [], 3, 3, 0, 0x0, 0x0, 0x0, 0x0, 0x0, 0xFFFFFFFF, 0xFFFFFFFF, 0x0, 0x0⟩,
  ⟨0x40050014, [], 0, 0, 0, 0x0, 0x0, 0x0, 0xFFFFFFFF, 0x0, 0x0, 0xFFFFFFFF, 0x0, 0x0⟩,
  ⟨0x40050018, [], 0, 0, 0, 0x0, 0x0, 0x0, 0xFFFFFFFF, 0x0, 0x0, 0xFFFFFFFF, 0x0, 0x0⟩,
  ⟨0x4005001C, [], 0, 0, 0, 0x0, 0x0, 0x0, 0xFFFFFFFF, 0x0, 0x0, 0xFFFFFFFF, 0x0, 0x0⟩,
  ⟨0x40050020, [], 3, 3, 0, 0x14, 0x3F, 0x0, 0x0, 0x0, 0x0, 0x0, 0x0, 0x0⟩,
  ⟨0x40050024, [], 3, 3, 0, 0x0, 0xFFFFFFFF, 0x0, 0x0, 0x0, 0x0, 0x0, 0x0, 0x0⟩,
  ⟨0x40050028, [], 3, 3, 0, 0x0, 0xFF, 0x0, 0x0, 0x0, 0x0, 0x0, 0x0, 0x0⟩,
  ⟨0x4005002C, [], 0, 0, 0, 0x0, 0x0, 0x0, 0x0, 0x0, 0x0, 0x0, 0x0, 0x0⟩,
  ⟨0x40050100, [(64, 0x4)], 0, 0, 0, 0x0, 0x0, 0x0, 0x0, 0x0, 0x0, 0xFFFFFFFF, 0x0, 0x0⟩,
  ⟨0x40051000, [(256, 0x4)], 7, 7, 0, 0x0, 0x7F7F7F7F, 0x0, 0x0, 0x0, 0x0, 0x7F7F7F7F, 0x0, 0x0⟩,
  ⟨0x40052000, [(8, 0x100), (64, 0x4)], 3, 3, 0, 0x0, 0x800FFFFF, 0x0, 0x0, 0x0, 0x0, 0x800FFFFF, 0x0, 0x0⟩]
def regPage4005 : List RegDesc := regPage4005_0
/-- The rows of page 0x4006. -/
def regPage4006_0 : List RegDesc := [
  ⟨0x40060000, [], 3, 3, 1, 0x0, 0xD, 0x0, 0x0, 0x2, 0x0, 0x0, 0x0, 0x0⟩,
  ⟨0x40060004, [], 0, 7, 1, 0x0, 0x0, 0x10000, 0x0, 0x0, 0x0, 0x0, 0x0, 0x0⟩,
  ⟨0x40060010, [(8, 0x4)], 0, 7, 1, 0x0, 0x0, 0xFFFFFFFF, 0x0, 0x0, 0x0, 0x0, 0x0, 0x0⟩,
  ⟨0x40060400, [(256, 0x4)], 3, 3, 1, 0x0, 0xFFF07, 0x0, 0x0, 0x0, 0x0, 0x0, 0x0, 0x0⟩,
  ⟨0x40061000, [(256, 0x8)], 3, 3, 1, 0x0, 0xFFFFFFFF, 0x0, 0x0, 0x0, 0x0, 0x0, 0x0, 0x0⟩,
  ⟨0x40061004, [(256, 0x8)], 3, 3, 1, 0x0, 0xFFFF, 0x0, 0x0, 0x0, 0x0, 0x0, 0x0, 0x0⟩,
  ⟨0x40062000, [(256, 0x8)], 0, 0, 1, 0x0, 0x0, 0x0, 0x0, 0x0, 0x0, 0x0, 0x0, 0x0⟩,
  ⟨0x40062004, [(256, 0x8)], 0, 0, 1, 0x0, 0x0, 0x0, 0x0, 0x0, 0x0, 0x0, 0x0, 0x0⟩]
def regPage4006 : List RegDesc := regPage4006_0
/-- The rows of page 0x4007. -/
def regPage4007_0 : List RegDesc := [
  ⟨0x40070000, [], 0, 0, 11, 0x0, 0x0, 0x0, 0x0, 0x0, 0x0, 0x0, 0x0, 0x0⟩,
  ⟨0x40070004, [], 0, 0, 11, 0x0, 0x0, 0x0, 0x0, 0x0, 0x0, 0x0, 0x0, 0x0⟩,
  ⟨0x40070008, [], 0, 0, 11, 0x0, 0x0, 0x0, 0x0, 0x0, 0x0, 0x0, 0x0, 0x0⟩,
  ⟨0x40070010, [], 3, 3, 11, 0x0, 0xFFFFFFFF, 0x0, 0x0, 0x0, 0x0, 0x0, 0x0, 0x0⟩,
  ⟨0x40070014, [], 3, 3, 11, 0xA, 0xFF, 0x0, 0x0, 0x0, 0x0, 0x0, 0x0, 0x0⟩,
  ⟨0x40070020, [], 3, 3, 11, 0xA0049, 0xFFFF00FF, 0x0, 0x0, 0x0, 0x0, 0x0, 0x0, 0x0⟩,
  ⟨0x40070024, [], 0, 7, 11, 0x0, 0x0, 0xA0, 0xFF00, 0x0, 0x0, 0x40, 0xFF3F, 0x0⟩,
  ⟨0x40070028, [], 0, 0, 11, 0xFFFFFFFF, 0x0, 0x0, 0x0, 0x0, 0x0, 0x0, 0xFFFFFFFF, 0x0⟩,
  ⟨0x4007002C, [], 0, 0, 11, 0x0, 0x0, 0x0, 0x0, 0x0, 0x0, 0x0, 0xFFFFFFFF, 0x0⟩,
  ⟨0x40070030, [], 3, 3, 11, 0x3E80064, 0xFFFFFFFF, 0x0, 0x0, 0x0, 0x0, 0x0, 0xFFFFFFFF, 0x0⟩,
  ⟨0x40070034, [], 3, 3, 11, 0x25, 0xFF, 0x0, 0x0, 0x0, 0x0, 0x0, 0x7FF, 0x0⟩,
  ⟨0x40070038, [], 3, 3, 11, 0x3E8, 0xFFFFFFFF, 0x0, 0x0, 0x0, 0x0, 0x0, 0x0, 0x0⟩,
  ⟨0x40070040, [], 3, 3, 11, 0x0, 0x0, 0x0, 0x0, 0x0, 0xFFFFFFFB, 0x0, 0x0, 0x0⟩,
  ⟨0x40070044, [], 3, 3, 11, 0x0, 0xFFFFFFFF, 0x0, 0x0, 0x0, 0x0, 0x0, 0x0, 0x0⟩,
  ⟨0x40070048, [], 3, 3, 11, 0x0, 0xFFFFFFFF, 0x0, 0x0, 0x0, 0x0, 0x0, 0x0, 0x0⟩,
  ⟨0x40070060, [(2, 0x8)], 3, 3, 11, 0x186A00, 0xFFFFFFFF, 0x0, 0x0, 0x0, 0x0, 0x0, 0x0, 0x0⟩,
  ⟨0x40070064, [(2, 0x8)], 3, 3, 11, 0x0, 0xFFFFFFFF, 0x0, 0x0, 0x0, 0x0, 0x0, 0x0, 0x0⟩,
  ⟨0x40070080, [(4, 0x10)], 3, 3, 11, 0x0, 0x7, 0x0, 0x0, 0x0, 0x0, 0x0, 0x0, 0x0⟩,
  ⟨0x40070084, [(4, 0x10)], 0, 0, 11, 0x0, 0x0, 0x0, 0xFF0, 0x0, 0x0, 0x0, 0x0, 0x0⟩,
  ⟨0x40070088, [(4, 0x10)], 0, 0, 11, 0x0, 0x0, 0x0, 0x0, 0x0, 0x0, 0x0, 0x0, 0x0⟩,
  ⟨0x4007008C, [(4, 0x10)], 0, 0, 11, 0x0, 0x0, 0x0, 0x0, 0x0, 0x0, 0x0, 0x0, 0x0⟩,
  ⟨0x400700C0, [], 3, 3, 11, 0x640000, 0xFFFF001F, 0x0, 0x0, 0x0, 0x0, 0x0, 0x0, 0x0⟩,
  ⟨0x400700C4, [(5, 0x4)], 0, 0, 11, 0x0, 0x0, 0x0, 0xFFFFFFFF, 0x0, 0x0, 0x0, 0x0, 0x0⟩,
  ⟨0x40070100, [], 3, 3, 11, 0x80800000, 0xFFFF01FF, 0x0, 0x0, 0x0, 0x0, 0x0, 0x0, 0x0⟩,
  ⟨0x40070120, [(2, 0x20)], 3, 3, 11, 0x1FD00, 0xFFFFFF07, 0x0, 0x0, 0x0, 0x0, 0x0, 0x0, 0x0⟩,
  ⟨0x40070124, [(2, 0x20)], 0, 0, 11, 0x0, 0x0, 0x0, 0x0, 0x0, 0x0, 0x0, 0x0, 0x0⟩,
  ⟨0x40070128, [(2, 0x20)], 3, 3, 11, 0x0, 0xFFFFFFFF, 0x0, 0x0, 0x0, 0x0, 0x0, 0x0, 0x0⟩,
  ⟨0x4007012C, [(2, 0x20)], 0, 0, 11, 0x0, 0x0, 0x0, 0x0, 0x0, 0x0, 0x0, 0x0, 0x0⟩,
  ⟨0x40070130, [(2, 0x20)], 0, 0, 11, 0x0, 0x0, 0x0, 0xFFFFFFFF, 0x0, 0x0, 0x0, 0x0, 0x0⟩]
def regPage4007 : List RegDesc := regPage4007_0
/-- The rows of page 0x4008. -/
def regPage4008_0 : List RegDesc := [
  ⟨0x40080000, [(4, 0x1000)], 3, 3, 11, 0x70000004, 0x7FFF003F, 0x0, 0x0, 0x0, 0x0, 0x0, 0x0, 0x0⟩,
  ⟨0x40084000, [], 3, 3, 11, 0x70000024, 0x7FFF003F, 0x0, 0x0, 0x0, 0x0, 0x0, 0x0, 0x0⟩,
  ⟨0x40080004, [(5, 0x1000)], 0, 0, 11, 0x0, 0x0, 0x0, 0x0, 0x0, 0x0, 0x0, 0x0, 0x0⟩,
  ⟨0x40080008, [(5, 0x1000)], 0, 0, 11, 0x0, 0x0, 0x0, 0xFFFFFFFF, 0x0, 0x0, 0x0, 0x0, 0x0⟩,
  ⟨0x4008000C, [(5, 0x1000)], 3, 3, 11, 0x0, 0xFFFFFFFF, 0x0, 0x0, 0x0, 0x0, 0x0, 0x0, 0x0⟩,
  ⟨0x40080010, [(5, 0x1000)], 3, 3, 11, 0x0, 0xFFFFFFFF, 0x0, 0x0, 0x0, 0x0, 0x0, 0x0, 0x0⟩,
  ⟨0x40080020, [(5, 0x1000)], 3, 3, 11, 0x0, 0xFFFFFFFF, 0x0, 0x0, 0x0, 0x0, 0x0, 0x0, 0x0⟩,
  ⟨0x40080024, [(5, 0x1000)], 3, 3, 11, 0x400, 0xFFF, 0x0, 0x0, 0x0, 0x0, 0x0, 0x0, 0x0⟩,
  ⟨0x40080028, [(5, 0x1000)], 2, 2, 11, 0x0, 0xFFF, 0x0, 0x0, 0x0, 0x0, 0x0, 0x0, 0x0⟩,
  ⟨0x40088000, [(16, 0x10)], 3, 3, 11, 0x18, 0xFFFF01FF, 0x0, 0x0, 0x0, 0x0, 0x0, 0x0, 0x0⟩,
  ⟨0x40088004, [(16, 0x10)], 3, 3, 11, 0x0, 0xFFFFFFFF, 0x0, 0x0, 0x0, 0x0, 0x0, 0x0, 0x0⟩,
  ⟨0x40088008, [(16, 0x10)], 3, 3, 11, 0x0, 0xFFFFFFFF, 0x0, 0x0, 0x0, 0x0, 0x0, 0x0, 0x0⟩,
  ⟨0x4008800C, [(16, 0x10)], 3, 3, 11, 0x0, 0xFFFFFFFF, 0x0, 0x0, 0x0, 0x0, 0x0, 0x0, 0x0⟩]
def regPage4008 : List RegDesc := regPage4008_0
/-- The rows of page 0x4009. -/
def regPage4009_0 : List RegDesc := [
  ⟨0x40090000, [], 3, 3, 11, 0x7D0, 0x3FFF, 0x0, 0x0, 0x0, 0x0, 0x0, 0x0, 0x0⟩,
  ⟨0x40090004, [], 0, 0, 11, 0x0, 0x0, 0x0, 0x0, 0x0, 0x0, 0x0, 0x0, 0x0⟩,
  ⟨0x40090008, [], 0, 0, 11, 0x0, 0x0, 0x0, 0xFFFFFFFF, 0x0, 0x0, 0x0, 0x0, 0x0⟩,
  ⟨0x4009000C, [], 0, 0, 11, 0x0, 0x0, 0x0, 0xFFFFFFFF, 0x0, 0x0, 0x0, 0x0, 0x0⟩,
  ⟨0x40090010, [], 0, 7, 11, 0x0, 0x0, 0x7, 0x0, 0x0, 0x0, 0x0, 0x0, 0x0⟩]
def regPage4009 : List RegDesc := regPage4009_0
/-- The rows of page 0x400A. -/
def regPage400A_0 : List RegDesc := [
  ⟨0x400A0000, [], 3, 3, 11, 0x0, 0x7FF, 0x0, 0x0, 0x0, 0x0, 0x0, 0x0, 0x0⟩,
  ⟨0x400A0010, [], 3, 3, 11, 0x0, 0xFFFFFFFF, 0x0, 0x0, 0x0, 0x0, 0x0, 0x0, 0x0⟩,
  ⟨0x400A0014, [], 3, 3, 11, 0x3FF0000, 0x3FFFFFF, 0x0, 0x0, 0x80000000, 0x0, 0x0, 0x0, 0x0⟩,
  ⟨0x400A0040, [], 3, 3, 11, 0x2, 0x3, 0x0, 0x0, 0x0, 0x0, 0x0, 0x0, 0x0⟩,
  ⟨0x400A0044, [], 0, 0, 11, 0x0, 0x0, 0x0, 0x0, 0x0, 0x0, 0x0, 0x0, 0x0⟩,
  ⟨0x400A0048, [], 3, 3, 11, 0x0, 0x1FF, 0x0, 0x0, 0x0, 0x0, 0x0, 0x0, 0x0⟩,
  ⟨0x400A004C, [], 0, 0, 11, 0xFFFF0000, 0x0, 0x0, 0x0, 0x0, 0x0, 0x0, 0x0, 0x0⟩,
  ⟨0x400A0050, [], 0, 7, 11, 0x0, 0x0, 0xF, 0x0, 0x0, 0x0, 0x0, 0x0, 0x0⟩,
  ⟨0x400A0080, [(16, 0x4)], 0, 0, 11, 0x0, 0x0, 0x0, 0x0, 0x0, 0x0, 0x0, 0x0, 0x0⟩,
  ⟨0x400A0100, [(8, 0x10)], 3, 3, 11, 0xA000A, 0xFFFF03FF, 0x0, 0x0, 0x0, 0x0, 0x0, 0x0, 0x0⟩,
  ⟨0x400A0104, [(8, 0x10)], 3, 3, 11, 0x0, 0xFFFFFFFF, 0x0, 0x0, 0x0, 0x0, 0x0, 0x0, 0x0⟩,
  ⟨0x400A0108, [(8, 0x10)], 3, 3, 11, 0x0, 0xFF, 0x0, 0x0, 0x0, 0x0, 0x0, 0x0, 0x0⟩,
  ⟨0x400A010C, [(8, 0x10)], 3, 3, 11, 0x1388, 0xFFFF, 0x0, 0x0, 0x0, 0x0, 0x0, 0x0, 0x0⟩]
def regPage400A : List RegDesc := regPage400A_0
/-- The rows of page 0x400B. -/
def regPage400B_0 : List RegDesc := [
  ⟨0x400B0000, [(4, 0x1000)], 3, 3, 12, 0x40, 0x7FFF, 0x0, 0x0, 0x0, 0x0, 0x0, 0x0, 0x0⟩,
  ⟨0x400B0004, [(4, 0x1000)], 3, 3, 12, 0x10203F02, 0x7FFFFFFF, 0x0, 0x0, 0x0, 0x0, 0x0, 0x0, 0x0⟩,
  ⟨0x400B0008, [(4, 0x1000)], 3, 3, 12, 0x41843E1, 0xFFFFFFF, 0x0, 0x0, 0x0, 0x0, 0x0, 0x0, 0x0⟩,
  ⟨0x400B000C, [(4, 0x1000)], 3, 3, 12, 0x38103E8, 0xFFFFFFF, 0x0, 0x0, 0x0, 0x0, 0x0, 0x0, 0x0⟩,
  ⟨0x400B0010, [(4, 0x1000)], 0, 7, 12, 0x0, 0x0, 0x4, 0x0, 0x0, 0x0, 0x0, 0x0, 0x0⟩,
  ⟨0x400B0014, [(4, 0x1000)], 0, 0, 12, 0x0, 0x0, 0x0, 0xFFFFFFFF, 0x0, 0x0, 0x0, 0x0, 0x0⟩,
  ⟨0x400B0018, [(4, 0x1000)], 11, 11, 12, 0x0, 0x0, 0x0, 0x0, 0x3F, 0x0, 0x0, 0x0, 0x0⟩,
  ⟨0x400B001C, [(4, 0x1000)], 11, 11, 12, 0x0, 0x0, 0x0, 0x0, 0x3F, 0x0, 0x0, 0x0, 0x0⟩,
  ⟨0x400B0100, [(4, 0x1000), (32, 0x4)], 3, 3, 12, 0x0, 0xFFFF, 0x0, 0x0, 0x0, 0x0, 0x0, 0x0, 0x0⟩,
  ⟨0x400B0200, [(4, 0x1000), (32, 0x10)], 3, 3, 12, 0x0, 0xFFFFFFFF, 0x0, 0x0, 0x0, 0x0, 0x0, 0x0, 0x0⟩,
  ⟨0x400B0204, [(4, 0x1000), (32, 0x10)], 3, 3, 12, 0x0, 0xFFFFFFFF, 0x0, 0x0, 0x0, 0x0, 0x0, 0x0, 0x0⟩,
  ⟨0x400B0208, [(4, 0x1000), (32, 0x10)], 3, 3, 12, 0xFF00, 0x1, 0x0, 0x0, 0x0, 0x0, 0x0, 0x0, 0x0⟩,
  ⟨0x400B0800, [(4, 0x1000), (512, 0x4)], 3, 3, 12, 0x0, 0xFFFFFFFF, 0x0, 0x0, 0x0, 0x0, 0x0, 0x0, 0x0⟩,
  ⟨0x400B8000, [(4, 0x2000), (64, 0x80)], 3, 3, 12, 0x0, 0xFFFF, 0x0, 0x0, 0x0, 0x0, 0x0, 0x0, 0x0⟩,
  ⟨0x400B8004, [(4, 0x2000), (64, 0x80)], 3, 3, 12, 0x0, 0x1FFFFFFF, 0x0, 0x0, 0x0, 0x0, 0x0, 0x0, 0x0⟩,
  ⟨0x400B8008, [(4, 0x2000), (64, 0x80)], 3, 3, 12, 0x0, 0x1FFFFFFF, 0x0, 0x0, 0x0, 0x0, 0x0, 0x0, 0x0⟩,
  ⟨0x400B800C, [(4, 0x2000), (64, 0x80)], 0, 0, 12, 0x0, 0x0, 0x0, 0x0, 0x0, 0x0, 0x0, 0x0, 0x0⟩,
  ⟨0x400B8010, [(4, 0x2000), (64, 0x80)], 0, 0, 12, 0x0, 0x0, 0x0, 0x0, 0x0, 0x0, 0x0, 0x0, 0x0⟩,
  ⟨0x400B8014, [(4, 0x2000), (64, 0x80)], 0, 0, 12, 0x0, 0x0, 0x0, 0x0, 0x0, 0x0, 0x0, 0x0, 0x0⟩,
  ⟨0x400B8040, [(4, 0x2000), (64, 0x80), (16, 0x4)], 11, 11, 12, 0x0, 0xFFFFFFFF, 0x0, 0x0, 0x0, 0x0, 0x0, 0x0, 0x0⟩]
def regPage400B : List RegDesc := regPage400B_0
/-- The rows of page 0x400C. -/
def regPage400C_0 : List RegDesc := [
  ⟨0x400C0000, [(16, 0x100)], 3, 3, 12, 0x2B6700, 0xFFFFF7F, 0x0, 0x0, 0x0, 0x0, 0x0, 0x0, 0x0⟩,
  ⟨0x400C0004, [(16, 0x100)], 0, 7, 12, 0x0, 0x0, 0xF, 0x0, 0x0, 0x0, 0x0, 0x0, 0x0⟩,
  ⟨0x400C0008, [(16, 0x100)], 0, 0, 12, 0x0, 0x0, 0x0, 0xFFFFFF, 0x0, 0x0, 0x0, 0x0, 0x0⟩,
  ⟨0x400C000C, [(16, 0x100)], 2, 2, 12, 0x0, 0xFF, 0x0, 0x0, 0x0, 0x0, 0x0, 0x0, 0x0⟩]
def regPage400C : List RegDesc := regPage400C_0
/-- The rows of page 0x400D. -/
def regPage400D_0 : List RegDesc := [
  ⟨0x400D0000, [(24, 0x80)], 3, 3, 12, 0x200, 0xFFFFFFF, 0x0, 0x0, 0x0, 0x0, 0x0, 0x0, 0x0⟩,
  ⟨0x400D0004, [(24, 0x80)], 3, 3, 12, 0x8, 0xFFFF, 0x0, 0x0, 0x0, 0x0, 0x0, 0x0, 0x0⟩,
  ⟨0x400D0008, [(24, 0x80)], 3, 3, 12, 0x0, 0xFFFF, 0x0, 0x0, 0x0, 0x0, 0x0, 0x0, 0x0⟩,
  ⟨0x400D000C, [(24, 0x80)], 0, 7, 12, 0x0, 0x0, 0x8, 0x0, 0x0, 0x0, 0x0, 0x0, 0x0⟩,
  ⟨0x400D0010, [(24, 0x80)], 0, 0, 12, 0x0, 0x0, 0x0, 0x0, 0x0, 0x0, 0x0, 0x0, 0x0⟩,
  ⟨0x400D0014, [(24, 0x80)], 0, 0, 12, 0x0, 0x0, 0x0, 0x0, 0x0, 0x0, 0x0, 0x0, 0x0⟩,
  ⟨0x400D0018, [(24, 0x80)], 0, 0, 12, 0x0, 0x0, 0x0, 0x0, 0x0, 0x0, 0x0, 0x0, 0x0⟩,
  ⟨0x400D001C, [(24, 0x80)], 11, 11, 12, 0x0, 0x0, 0x0, 0x0, 0x1, 0x0, 0x0, 0x0, 0x0⟩,
  ⟨0x400D0020, [(24, 0x80)], 3, 3, 12, 0x800, 0x7FC0, 0x0, 0x0, 0x0, 0x0, 0x0, 0x0, 0x0⟩,
  ⟨0x400D0024, [(24, 0x80)], 3, 3, 12, 0x7FFFFF, 0xFFFFFF, 0x0, 0x0, 0x0, 0x0, 0x0, 0x0, 0x0⟩,
  ⟨0x400D0028, [(24, 0x80)], 3, 3, 12, 0x800000, 0xFFFFFF, 0x0, 0x0, 0x0, 0x0, 0x0, 0x0, 0x0⟩,
  ⟨0x400D002C, [(24, 0x80)], 3, 3, 12, 0x0, 0x3FFFFFF, 0x0, 0x0, 0x0, 0x0, 0x0, 0x0, 0x0⟩,
  ⟨0x400D0030, [(24, 0x80)], 0, 0, 12, 0x0, 0x0, 0x0, 0xFFFFFF, 0x0, 0x0, 0x0, 0x0, 0x0⟩,
  ⟨0x400D0034, [(24, 0x80)], 0, 0, 12, 0x0, 0x0, 0x0, 0x0, 0x0, 0x0, 0x0, 0x0, 0x0⟩,
  ⟨0x400D0038, [(24, 0x80)], 0, 0, 12, 0x0, 0x0, 0x0, 0x0, 0x0, 0x0, 0x0, 0x0, 0x0⟩,
  ⟨0x400D003C, [(24, 0x80)], 3, 3, 12, 0x10086, 0xFFFF00FF, 0x0, 0x0, 0x0, 0x0, 0x0, 0x0, 0x0⟩,
  ⟨0x400D0040, [(24, 0x80)], 3, 3, 12, 0x3F800000, 0xFFFFFFFF, 0x0, 0x0, 0x0, 0x0, 0x0, 0x0, 0x0⟩,
  ⟨0x400D0044, [(24, 0x80)], 0, 0, 12, 0x0, 0x0, 0x0, 0xFFFFFFFF, 0x0, 0x0, 0x0, 0x0, 0x0⟩,
  ⟨0x400DE000, [(24, 0x10)], 3, 3, 12, 0x0, 0x1, 0x0, 0x0, 0x0, 0x0, 0x0, 0x0, 0x0⟩,
  ⟨0x400DE004, [(24, 0x10)], 11, 11, 12, 0x0, 0xFFFFFF, 0x0, 0x0, 0x0, 0x0, 0x0, 0x0, 0x0⟩,
  ⟨0x400DF000, [], 3, 3, 12, 0x0, 0x7F7F, 0x0, 0x0, 0x0, 0x0, 0x0, 0x0, 0x0⟩,
  ⟨0x400DF004, [], 3, 3, 12, 0x0, 0xFFFFFF, 0x0, 0x0, 0x0, 0x0, 0x0, 0x0, 0x0⟩,
  ⟨0x400DF100, [], 3, 3, 12, 0x0, 0x1, 0x8, 0xFFFF0000, 0x2, 0x0, 0x0, 0x0, 0x0⟩,
  ⟨0x400DF104, [], 3, 3, 12, 0x0, 0xFFFFFFFF, 0x0, 0x0, 0x0, 0x0, 0x0, 0x0, 0x0⟩,
  ⟨0x400DF108, [], 3, 3, 12, 0x0, 0xFFFF, 0x0, 0x0, 0x0, 0x0, 0x0, 0x0, 0x0⟩,
  ⟨0x400DF120, [], 3, 3, 12, 0x0, 0x0, 0x0, 0x0, 0xFFFFFF, 0x0, 0x0, 0x0, 0x0⟩]
def regPage400D : List RegDesc := regPage400D_0
/-- The rows of page 0x400E. -/
def regPage400E_0 : List RegDesc := [
  ⟨0x400E0000, [(24, 0x200)], 3, 3, 8, 0x0, 0x0, 0x0, 0x0, 0x7, 0x0, 0x0, 0x0, 0x0⟩,
  ⟨0x400E0004, [(24, 0x200)], 0, 7, 8, 0x0, 0x0, 0x1FF0400, 0x0, 0x0, 0x0, 0x0, 0x0, 0x0⟩,
  ⟨0x400E0008, [(24, 0x200)], 3, 3, 8, 0x1081, 0x1FFFFFFF, 0x0, 0x0, 0x0, 0x0, 0x0, 0x0, 0x0⟩,
  ⟨0x400E000C, [(24, 0x200)], 3, 3, 8, 0x20000, 0x1FFFFF, 0x0, 0x0, 0x0, 0x0, 0x0, 0x0, 0x0⟩,
  ⟨0x400E0010, [(24, 0x200)], 3, 3, 8, 0x1770, 0xFFFFF, 0x0, 0x0, 0x0, 0x0, 0x0, 0x0, 0x0⟩,
  ⟨0x400E0014, [(24, 0x200)], 3, 3, 8, 0x80032, 0xFFFFFF, 0x0, 0x0, 0x0, 0x0, 0x0, 0x0, 0x0⟩,
  ⟨0x400E0018, [(24, 0x200)], 3, 3, 8, 0x1FF, 0xFFFF, 0x0, 0x0, 0x0, 0x0, 0x0, 0x0, 0x0⟩,
  ⟨0x400E001C, [(24, 0x200)], 3, 3, 8, 0x1900000, 0xFFFF0007, 0x0, 0x0, 0x0, 0x0, 0x0, 0x0, 0x0⟩,
  ⟨0x400E0020, [(24, 0x200)], 3, 3, 8, 0x0, 0xFFFFFFFF, 0x0, 0x0, 0x0, 0x0, 0x0, 0x0, 0x0⟩,
  ⟨0x400E0024, [(24, 0x200)], 3, 3, 8, 0x0, 0xFFFFFFFF, 0x0, 0x0, 0x0, 0x0, 0x0, 0x0, 0x0⟩,
  ⟨0x400E0028, [(24, 0x200)], 3, 3, 8, 0x0, 0xFFFFFFFF, 0x0, 0x0, 0x0, 0x0, 0x0, 0x0, 0x0⟩,
  ⟨0x400E002C, [(24, 0x200)], 3, 3, 8, 0x0, 0xFFFFFFFF, 0x0, 0x0, 0x0, 0x0, 0x0, 0x0, 0x0⟩,
  ⟨0x400E0030, [(24, 0x200)], 3, 3, 8, 0x0, 0xFFFFFFFF, 0x0, 0x0, 0x0, 0x0, 0x0, 0x0, 0x0⟩,
  ⟨0x400E0034, [(24, 0x200)], 3, 3, 8, 0x0, 0xFFFFFFFF, 0x0, 0x0, 0x0, 0x0, 0x0, 0x0, 0x0⟩,
  ⟨0x400E0038, [(24, 0x200)], 3, 3, 8, 0x0, 0xFFFFFFFF, 0x0, 0x0, 0x0, 0x0, 0x0, 0x0, 0x0⟩,
  ⟨0x400E003C, [(24, 0x200)], 3, 3, 8, 0x0, 0xFFFFFFFF, 0x0, 0x0, 0x0, 0x0, 0x0, 0x0, 0x0⟩,
  ⟨0x400E0040, [(24, 0x200)], 3, 3, 8, 0x7FFFFFFF, 0xFFFFFFFF, 0x0, 0x0, 0x0, 0x0, 0x0, 0x0, 0x0⟩,
  ⟨0x400E0044, [(24, 0x200)], 3, 3, 8, 0x0, 0xFFFFFFFF, 0x0, 0x0, 0x0, 0x0, 0x0, 0x0, 0x0⟩,
  ⟨0x400E0048, [(24, 0x200)], 3, 3, 8, 0x0, 0xFFFFFFFF, 0x0, 0x0, 0x0, 0x0, 0x0, 0x0, 0x0⟩,
  ⟨0x400E004C, [(24, 0x200)], 3, 3, 8, 0x0, 0xFFFFFFFF, 0x0, 0x0, 0x0, 0x0, 0x0, 0x0, 0x0⟩,
  ⟨0x400E0050, [(24, 0x200)], 3, 3, 8, 0x0, 0xFFFFFFFF, 0x0, 0x0, 0x0, 0x0, 0x0, 0x0, 0x0⟩,
  ⟨0x400E0054, [(24, 0x200)], 3, 3, 8, 0x3F800000, 0xFFFFFFFF, 0x0, 0x0, 0x0, 0x0, 0x0, 0x0, 0x0⟩,
  ⟨0x400E0058, [(24, 0x200)], 3, 3, 8, 0x0, 0xFFFFFFFF, 0x0, 0x0, 0x0, 0x0, 0x0, 0x0, 0x0⟩,
  ⟨0x400E005C, [(24, 0x200)], 3, 3, 8, 0x3F800000, 0xFFFFFFFF, 0x0, 0x0, 0x0, 0x0, 0x0, 0x0, 0x0⟩,
  ⟨0x400E0060, [(24, 0x200)], 3, 3, 8, 0x0, 0xFFFFFFFF, 0x0, 0x0, 0x0, 0x0, 0x0, 0x0, 0x0⟩,
  ⟨0x400E0064, [(24, 0x200)], 3, 3, 8, 0x0, 0xFFFFFFFF, 0x0, 0x0, 0x0, 0x0, 0x0, 0x0, 0x0⟩,
  ⟨0x400E0068, [(24, 0x200)], 3, 3, 8, 0x0, 0xFFFFFFFF, 0x0, 0x0, 0x0, 0x0, 0x0, 0x0, 0x0⟩,
  ⟨0x400E0080, [(24, 0x200)], 11, 11, 8, 0x0, 0xFFFFFFFF, 0x0, 0x0, 0x0, 0x0, 0x0, 0x0, 0x0⟩,
  ⟨0x400E0084, [(24, 0x200)], 11, 11, 8, 0x0, 0xFFFFFFFF, 0x0, 0x0, 0x0, 0x0, 0x0, 0x0, 0x0⟩,
  ⟨0x400E0088, [(24, 0x200)], 0, 0, 8, 0x0, 0x0, 0x0, 0x0, 0x0, 0x0, 0x0, 0x0, 0x0⟩,
  ⟨0x400E008C, [(24, 0x200)], 0, 0, 8, 0x0, 0x0, 0x0, 0x0, 0x0, 0x0, 0x0, 0x0, 0x0⟩,
  ⟨0x400E0090, [(24, 0x200)], 0, 0, 8, 0x0, 0x0, 0x0, 0x0, 0x0, 0x0, 0x0, 0x0, 0x0⟩,
  ⟨0x400E0094, [(24, 0x200)], 0, 0, 8, 0x0, 0x0, 0x0, 0x0, 0x0, 0x0, 0x0, 0x0, 0x0⟩,
  ⟨0x400E0098, [(24, 0x200)], 0, 0, 8, 0x0, 0x0, 0x0, 0x0, 0x0, 0x0, 0x0, 0x0, 0x0⟩,
  ⟨0x400E009C, [(24, 0x200)], 0, 0, 8, 0x0, 0x0, 0x0, 0x0, 0x0, 0x0, 0x0, 0x0, 0x0⟩,
  ⟨0x400E00A0, [(24, 0x200)], 0, 0, 8, 0x0, 0x0, 0x0, 0x0, 0x0, 0x0, 0x0, 0x0, 0x0⟩,
  ⟨0x400E00A4, [(24, 0x200)], 0, 0, 8, 0x0, 0x0, 0x0, 0xFFFFFFFF, 0x0, 0x0, 0x0, 0x0, 0x0⟩,
  ⟨0x400E0100, [(24, 0x200)], 3, 3, 8, 0x10090, 0xFFFF01FF, 0x0, 0x0, 0x0, 0x0, 0x0, 0x0, 0x0⟩,
  ⟨0x400E0104, [(24, 0x200)], 3, 3, 8, 0x0, 0x0, 0x0, 0x0, 0x3, 0x0, 0x0, 0x0, 0x0⟩,
  ⟨0x400E0108, [(24, 0x200)], 3, 3, 8, 0x0, 0xFFFFFFFF, 0x0, 0x0, 0x0, 0x0, 0x0, 0x0, 0x0⟩]
def regPage400E_1 : List RegDesc := [
  ⟨0x400E010C, [(24, 0x200)], 3, 3, 8, 0x0, 0xFFFFFFFF, 0x0, 0x0, 0x0, 0x0, 0x0, 0x0, 0x0⟩,
  ⟨0x400E0110, [(24, 0x200)], 3, 3, 8, 0x0, 0xFFFFFFFF, 0x0, 0x0, 0x0, 0x0, 0x0, 0x0, 0x0⟩,
  ⟨0x400E0114, [(24, 0x200)], 3, 3, 8, 0x0, 0xFFFFFFFF, 0x0, 0x0, 0x0, 0x0, 0x0, 0x0, 0x0⟩,
  ⟨0x400E0118, [(24, 0x200)], 3, 3, 8, 0x0, 0xFFFFFFFF, 0x0, 0x0, 0x0, 0x0, 0x0, 0x0, 0x0⟩,
  ⟨0x400E011C, [(24, 0x200)], 3, 3, 8, 0x0, 0xFFFF, 0x0, 0x0, 0x0, 0x0, 0x0, 0x0, 0x0⟩,
  ⟨0x400E0120, [(24, 0x200)], 0, 0, 8, 0x0, 0x0, 0x0, 0x0, 0x0, 0x0, 0x0, 0x0, 0x0⟩,
  ⟨0x400EF000, [], 3, 3, 8, 0x0, 0x3FF003F, 0x0, 0x0, 0x0, 0x0, 0x0, 0x0, 0x0⟩,
  ⟨0x400EF004, [], 3, 3, 8, 0x0, 0xFFFFFFFF, 0x0, 0x0, 0x0, 0x0, 0x0, 0x0, 0x0⟩,
  ⟨0x400EF040, [(2, 0x40)], 3, 3, 8, 0x0, 0xFFFFFFFF, 0x0, 0x0, 0x0, 0x0, 0x0, 0x0, 0x0⟩,
  ⟨0x400EF044, [(2, 0x40)], 3, 3, 8, 0x4, 0x7FFFFF, 0x0, 0x0, 0x0, 0x0, 0x0, 0x0, 0x0⟩,
  ⟨0x400EF048, [(2, 0x40)], 3, 3, 8, 0x4000, 0x1FFFF, 0x0, 0x0, 0x0, 0x0, 0x0, 0x0, 0x0⟩,
  ⟨0x400EF04C, [(2, 0x40)], 3, 3, 8, 0x0, 0xFFFF, 0x0, 0x0, 0x0, 0x0, 0x0, 0x0, 0x0⟩,
  ⟨0x400EF050, [(2, 0x40)], 3, 3, 8, 0x0, 0xFFFFFFFF, 0x0, 0x0, 0x0, 0x0, 0x0, 0x0, 0x0⟩,
  ⟨0x400EF054, [(2, 0x40)], 3, 3, 8, 0x0, 0xFFFF, 0x0, 0x0, 0x0, 0x0, 0x0, 0x0, 0x0⟩,
  ⟨0x400EF058, [(2, 0x40)], 3, 3, 8, 0x0, 0xFFFFFFFF, 0x0, 0x0, 0x0, 0x0, 0x0, 0x0, 0x0⟩,
  ⟨0x400EF05C, [(2, 0x40)], 3, 3, 8, 0x0, 0xFF, 0x0, 0x0, 0x0, 0x0, 0x0, 0x0, 0x0⟩,
  ⟨0x400EF060, [(2, 0x40)], 3, 3, 8, 0x0, 0x0, 0x0, 0x0, 0x3, 0x0, 0x0, 0x0, 0x0⟩,
  ⟨0x400EF064, [(2, 0x40)], 0, 0, 8, 0x0, 0x0, 0x0, 0x0, 0x0, 0x0, 0x0, 0x0, 0x0⟩,
  ⟨0x400EF068, [(2, 0x40)], 3, 3, 8, 0x0, 0xFFFF, 0x0, 0x0, 0x0, 0x0, 0x0, 0x0, 0x0⟩,
  ⟨0x400EF800, [(2, 0x400), (256, 0x4)], 0, 0, 8, 0x0, 0x0, 0x0, 0x0, 0x0, 0x0, 0x0, 0x0, 0x0⟩,
  ⟨0x400EF400, [(24, 0x10)], 0, 0, 8, 0x0, 0x0, 0x0, 0x0, 0x0, 0x0, 0x0, 0x0, 0x0⟩,
  ⟨0x400EF404, [(24, 0x10)], 0, 0, 8, 0x0, 0x0, 0x0, 0x0, 0x0, 0x0, 0x0, 0x0, 0x0⟩,
  ⟨0x400EF408, [(24, 0x10)], 0, 0, 8, 0x0, 0x0, 0x0, 0x0, 0x0, 0x0, 0x0, 0x0, 0x0⟩,
  ⟨0x400EF40C, [(24, 0x10)], 0, 0, 8, 0x0, 0x0, 0x0, 0x0, 0x0, 0x0, 0x0, 0x0, 0x0⟩,
  ⟨0x400EC000, [(12, 0x40)], 3, 3, 12, 0x1C00C88, 0x3FFFFFFF, 0x0, 0x0, 0x0, 0x0, 0x0, 0x0, 0x0⟩,
  ⟨0x400EC004, [(12, 0x40)], 3, 3, 12, 0x1, 0xFFFFF, 0x0, 0x0, 0x0, 0x0, 0x0, 0x0, 0x0⟩,
  ⟨0x400EC008, [(12, 0x40)], 3, 3, 12, 0x10000, 0xFFFFFFFF, 0x0, 0x0, 0x0, 0x0, 0x0, 0x0, 0x0⟩,
  ⟨0x400EC00C, [(12, 0x40)], 0, 0, 12, 0x0, 0x0, 0x0, 0x0, 0x0, 0x0, 0x0, 0x0, 0x0⟩,
  ⟨0x400EC010, [(12, 0x40)], 0, 0, 12, 0x0, 0x0, 0x0, 0xFFFFFFFF, 0x0, 0x0, 0x0, 0x0, 0x0⟩]
def regPage400E : List RegDesc := regPage400E_0 ++ regPage400E_1
/-- The rows of page 0x4010. -/
def regPage4010_0 : List RegDesc := [
  ⟨0x40100000, [], 3, 3, 7, 0x4, 0x6, 0x0, 0x0, 0x1, 0x0, 0x0, 0x0, 0x0⟩,
  ⟨0x40100004, [], 0, 7, 7, 0x4, 0x0, 0x1B0, 0x0, 0x0, 0x0, 0x0, 0x0, 0x0⟩,
  ⟨0x40100008, [], 3, 3, 7, 0xA0078, 0xFF03FF, 0x0, 0x0, 0x0, 0x0, 0x0, 0x0, 0x0⟩,
  ⟨0x4010000C, [], 0, 0, 7, 0x0, 0x0, 0x0, 0x0, 0x0, 0x0, 0x0, 0x0, 0x0⟩,
  ⟨0x40100010, [], 3, 3, 7, 0x180, 0x1FF, 0x0, 0x0, 0x0, 0x0, 0x0, 0x0, 0x0⟩,
  ⟨0x40100014, [], 0, 0, 7, 0x0, 0x0, 0x0, 0x0, 0x0, 0x0, 0x0, 0x0, 0x0⟩,
  ⟨0x40100018, [], 3, 3, 7, 0x64, 0x1FFFF, 0x0, 0x0, 0x0, 0x0, 0x0, 0x0, 0x0⟩,
  ⟨0x4010001C, [], 0, 0, 7, 0x0, 0x0, 0x0, 0x0, 0x0, 0x0, 0x0, 0x0, 0x0⟩,
  ⟨0x40100020, [], 0, 0, 7, 0x0, 0x0, 0x0, 0x0, 0x0, 0x0, 0x0, 0x0, 0x0⟩,
  ⟨0x40100024, [], 0, 0, 7, 0x0, 0x0, 0x0, 0x0, 0x0, 0x0, 0x0, 0x0, 0x0⟩,
  ⟨0x40100028, [], 3, 3, 7, 0x0, 0xFFFFFFFF, 0x0, 0x0, 0x0, 0x0, 0x0, 0x0, 0x0⟩,
  ⟨0x4010002C, [], 3, 3, 7, 0x0, 0xFF, 0x0, 0x0, 0x0, 0x0, 0x0, 0x0, 0x0⟩,
  ⟨0x40100044, [(31, 0x4)], 3, 3, 7, 0x2710, 0xFFFFFF, 0x0, 0x0, 0x0, 0x0, 0x0, 0x0, 0x0⟩,
  ⟨0x40100100, [(3, 0x8)], 3, 3, 7, 0x0, 0xFFFFFFFF, 0x0, 0x0, 0x0, 0x0, 0x0, 0x0, 0x0⟩,
  ⟨0x40100104, [(3, 0x8)], 3, 3, 7, 0x0, 0xFFFFFFFF, 0x0, 0x0, 0x0, 0x0, 0x0, 0x0, 0x0⟩,
  ⟨0x40100118, [(3, 0x8)], 3, 3, 7, 0x0, 0xFFFFFFFF, 0x0, 0x0, 0x0, 0x0, 0x0, 0x0, 0x0⟩,
  ⟨0x4010011C, [(3, 0x8)], 3, 3, 7, 0x0, 0xFFFFFFFF, 0x0, 0x0, 0x0, 0x0, 0x0, 0x0, 0x0⟩,
  ⟨0x40100130, [(3, 0x8)], 3, 3, 7, 0x0, 0xFFFFFFFF, 0x0, 0x0, 0x0, 0x0, 0x0, 0x0, 0x0⟩,
  ⟨0x40100134, [(3, 0x8)], 3, 3, 7, 0x408F4000, 0xFFFFFFFF, 0x0, 0x0, 0x0, 0x0, 0x0, 0x0, 0x0⟩,
  ⟨0x40100148, [(3, 0x8)], 3, 3, 7, 0x0, 0xFFFFFFFF, 0x0, 0x0, 0x0, 0x0, 0x0, 0x0, 0x0⟩,
  ⟨0x4010014C, [(3, 0x8)], 3, 3, 7, 0x0, 0xFFFFFFFF, 0x0, 0x0, 0x0, 0x0, 0x0, 0x0, 0x0⟩,
  ⟨0x40100160, [(3, 0x8)], 3, 3, 7, 0xA29C779A, 0xFFFFFFFF, 0x0, 0x0, 0x0, 0x0, 0x0, 0x0, 0x0⟩,
  ⟨0x40100164, [(3, 0x8)], 3, 3, 7, 0x3FECB923, 0xFFFFFFFF, 0x0, 0x0, 0x0, 0x0, 0x0, 0x0, 0x0⟩,
  ⟨0x40100178, [(3, 0x8)], 3, 3, 7, 0x9999999A, 0xFFFFFFFF, 0x0, 0x0, 0x0, 0x0, 0x0, 0x0, 0x0⟩,
  ⟨0x4010017C, [(3, 0x8)], 3, 3, 7, 0x3FB99999, 0xFFFFFFFF, 0x0, 0x0, 0x0, 0x0, 0x0, 0x0, 0x0⟩,
  ⟨0x40100190, [(2, 0x8)], 3, 3, 7, 0x9999999A, 0xFFFFFFFF, 0x0, 0x0, 0x0, 0x0, 0x0, 0x0, 0x0⟩,
  ⟨0x40100194, [(2, 0x8)], 3, 3, 7, 0x3FB99999, 0xFFFFFFFF, 0x0, 0x0, 0x0, 0x0, 0x0, 0x0, 0x0⟩,
  ⟨0x401001A0, [], 3, 3, 7, 0xD2F1A9FC, 0xFFFFFFFF, 0x0, 0x0, 0x0, 0x0, 0x0, 0x0, 0x0⟩,
  ⟨0x401001A4, [], 3, 3, 7, 0x3F60624D, 0xFFFFFFFF, 0x0, 0x0, 0x0, 0x0, 0x0, 0x0, 0x0⟩,
  ⟨0x401001A8, [(2, 0x8)], 3, 3, 7, 0x47AE147B, 0xFFFFFFFF, 0x0, 0x0, 0x0, 0x0, 0x0, 0x0, 0x0⟩,
  ⟨0x401001AC, [(2, 0x8)], 3, 3, 7, 0x3F847AE1, 0xFFFFFFFF, 0x0, 0x0, 0x0, 0x0, 0x0, 0x0, 0x0⟩,
  ⟨0x401001B8, [], 3, 3, 7, 0xEB1C432D, 0xFFFFFFFF, 0x0, 0x0, 0x0, 0x0, 0x0, 0x0, 0x0⟩,
  ⟨0x401001BC, [], 3, 3, 7, 0x3F2A36E2, 0xFFFFFFFF, 0x0, 0x0, 0x0, 0x0, 0x0, 0x0, 0x0⟩,
  ⟨0x401001C0, [], 3, 3, 7, 0x0, 0xFFFFFFFF, 0x0, 0x0, 0x0, 0x0, 0x0, 0x0, 0x0⟩,
  ⟨0x401001C4, [], 3, 3, 7, 0x40240000, 0xFFFFFFFF, 0x0, 0x0, 0x0, 0x0, 0x0, 0x0, 0x0⟩,
  ⟨0x401001C8, [], 3, 3, 7, 0x9999999A, 0xFFFFFFFF, 0x0, 0x0, 0x0, 0x0, 0x0, 0x0, 0x0⟩,
  ⟨0x401001CC, [], 3, 3, 7, 0x3FB99999, 0xFFFFFFFF, 0x0, 0x0, 0x0, 0x0, 0x0, 0x0, 0x0⟩,
  ⟨0x40100200, [], 0, 0, 7, 0x0, 0x0, 0x0, 0x0, 0x0, 0x0, 0x0, 0x0, 0x0⟩,
  ⟨0x40100204, [], 0, 0, 7, 0x4, 0x0, 0x0, 0x0, 0x0, 0x0, 0x0, 0x0, 0x0⟩,
  ⟨0x40100208, [(6, 0x8)], 0, 0, 7, 0x0, 0x0, 0x0, 0x0, 0x0, 0x0, 0x0, 0x0, 0x0⟩]
def regPage4010_1 : List RegDesc := [
  ⟨0x4010020C, [(6, 0x8)], 0, 0, 7, 0x0, 0x0, 0x0, 0x0, 0x0, 0x0, 0x0, 0x0, 0x0⟩,
  ⟨0x40100238, [(3, 0x8)], 0, 0, 7, 0x0, 0x0, 0x0, 0x0, 0x0, 0x0, 0x0, 0x0, 0x0⟩,
  ⟨0x4010023C, [(3, 0x8)], 0, 0, 7, 0x0, 0x0, 0x0, 0x0, 0x0, 0x0, 0x0, 0x0, 0x0⟩,
  ⟨0x40100250, [], 0, 0, 7, 0x0, 0x0, 0x0, 0x0, 0x0, 0x0, 0x0, 0x0, 0x0⟩,
  ⟨0x40100254, [], 0, 0, 7, 0x0, 0x0, 0x0, 0x0, 0x0, 0x0, 0x0, 0x0, 0x0⟩,
  ⟨0x40100260, [(3, 0x8)], 0, 0, 7, 0x0, 0x0, 0x0, 0x0, 0x0, 0x0, 0x0, 0x0, 0x0⟩,
  ⟨0x40100264, [(3, 0x8)], 0, 0, 7, 0x0, 0x0, 0x0, 0x0, 0x0, 0x0, 0x0, 0x0, 0x0⟩,
  ⟨0x40100278, [], 0, 0, 7, 0x0, 0x0, 0x0, 0x0, 0x0, 0x0, 0x0, 0x0, 0x0⟩,
  ⟨0x40101020, [(127, 0x20)], 3, 3, 7, 0x0, 0xFFFFFFFF, 0x0, 0x0, 0x0, 0x0, 0x0, 0x0, 0x0⟩,
  ⟨0x40101024, [(127, 0x20)], 3, 3, 7, 0x3FF00000, 0xFFFFFFFF, 0x0, 0x0, 0x0, 0x0, 0x0, 0x0, 0x0⟩,
  ⟨0x40101028, [(127, 0x20)], 3, 3, 7, 0x0, 0x7, 0x0, 0x0, 0x0, 0x0, 0x0, 0x0, 0x0⟩,
  ⟨0x4010102C, [(127, 0x20)], 0, 0, 7, 0x0, 0x0, 0x0, 0x0, 0x0, 0x0, 0x0, 0x0, 0x0⟩,
  ⟨0x40101030, [(127, 0x20)], 0, 0, 7, 0x0, 0x0, 0x0, 0xFFFF0000, 0x0, 0x0, 0x0, 0x0, 0x0⟩,
  ⟨0x40101034, [(127, 0x20)], 0, 0, 7, 0x0, 0x0, 0x0, 0xFFFFFFFF, 0x0, 0x0, 0x0, 0x0, 0x0⟩,
  ⟨0x40101038, [(127, 0x20)], 3, 3, 7, 0x0, 0xFFFFFFFF, 0x0, 0x0, 0x0, 0x0, 0x0, 0x0, 0x0⟩]
def regPage4010 : List RegDesc := regPage4010_0 ++ regPage4010_1
/-- The rows of page 0x4011. -/
def regPage4011_0 : List RegDesc := [
  ⟨0x40110100, [(127, 0x100)], 3, 3, 7, 0x8000000, 0x1FFFFFFF, 0x0, 0x0, 0x0, 0x0, 0x0, 0x0, 0x0⟩,
  ⟨0x40110104, [(127, 0x100)], 3, 3, 7, 0x0, 0xFFFFFFFF, 0x0, 0x0, 0x0, 0x0, 0x0, 0x0, 0x0⟩,
  ⟨0x40110108, [(127, 0x100)], 3, 3, 7, 0x3E800FA, 0xFFFFFFFF, 0x0, 0x0, 0x0, 0x0, 0x0, 0x0, 0x0⟩,
  ⟨0x4011010C, [(127, 0x100)], 3, 3, 7, 0x14050040, 0x3F1F1FFF, 0x0, 0x0, 0x0, 0x0, 0x0, 0x0, 0x0⟩,
  ⟨0x40110110, [(127, 0x100)], 0, 0, 7, 0x0, 0x0, 0x0, 0x0, 0x0, 0x0, 0x0, 0x0, 0x0⟩,
  ⟨0x40110114, [(127, 0x100)], 0, 0, 7, 0x0, 0x0, 0x0, 0xFFFFFFFF, 0x0, 0x0, 0x0, 0x0, 0x0⟩,
  ⟨0x40110118, [(127, 0x100)], 3, 3, 7, 0x0, 0x80000000, 0x0, 0xFFFF, 0x0, 0x0, 0x0, 0x0, 0x0⟩,
  ⟨0x4011011C, [(127, 0x100)], 0, 0, 7, 0xFFFFFFFF, 0x0, 0x0, 0x0, 0x0, 0x0, 0x0, 0x0, 0x0⟩,
  ⟨0x40110120, [(127, 0x100)], 0, 0, 7, 0x0, 0x0, 0x0, 0x0, 0x0, 0x0, 0x0, 0x0, 0x0⟩,
  ⟨0x40110124, [(127, 0x100)], 0, 0, 7, 0x0, 0x0, 0x0, 0x0, 0x0, 0x0, 0x0, 0x0, 0x0⟩,
  ⟨0x40110128, [(127, 0x100)], 3, 3, 7, 0xD0, 0xFFFFF1FF, 0x0, 0x0, 0x0, 0x0, 0x0, 0x0, 0x0⟩,
  ⟨0x4011012C, [(127, 0x100)], 0, 0, 7, 0x0, 0x0, 0x0, 0xFF00, 0x0, 0x0, 0x0, 0x0, 0x0⟩,
  ⟨0x40110130, [(127, 0x100)], 0, 0, 7, 0x0, 0x0, 0x0, 0x0, 0x0, 0x0, 0x0, 0x0, 0x0⟩,
  ⟨0x40110134, [(127, 0x100)], 0, 0, 7, 0x0, 0x0, 0x0, 0x0, 0x0, 0x0, 0x0, 0x0, 0x0⟩,
  ⟨0x40110140, [(127, 0x100), (3, 0x8)], 3, 3, 7, 0x0, 0xFFFFFFFF, 0x0, 0x0, 0x0, 0x0, 0x0, 0x0, 0x0⟩,
  ⟨0x40110144, [(127, 0x100), (3, 0x8)], 3, 3, 7, 0x0, 0xFFFFFFFF, 0x0, 0x0, 0x0, 0x0, 0x0, 0x0, 0x0⟩,
  ⟨0x40110158, [(127, 0x100), (3, 0x20)], 3, 3, 7, 0x0, 0xFFFFFFFF, 0x0, 0x0, 0x0, 0x0, 0x0, 0x0, 0x0⟩,
  ⟨0x4011015C, [(127, 0x100), (3, 0x20)], 3, 3, 7, 0x3FF00000, 0xFFFFFFFF, 0x0, 0x0, 0x0, 0x0, 0x0, 0x0, 0x0⟩,
  ⟨0x40110158, [(127, 0x100), (9, 0x8)], 3, 3, 7, 0x0, 0xFFFFFFFF, 0x0, 0x0, 0x0, 0x0, 0x0, 0x0, 0x0⟩,
  ⟨0x4011015C, [(127, 0x100), (9, 0x8)], 3, 3, 7, 0x0, 0xFFFFFFFF, 0x0, 0x0, 0x0, 0x0, 0x0, 0x0, 0x0⟩]
def regPage4011 : List RegDesc := regPage4011_0
/-- The rows of page 0x4012. -/
def regPage4012_0 : List RegDesc := [
  ⟨0x40120004, [], 3, 3, 7, 0x0, 0x7F7F7F7F, 0x0, 0x0, 0x0, 0x0, 0x0, 0x0, 0x0⟩,
  ⟨0x40120008, [], 3, 3, 7, 0x0, 0x0, 0x0, 0x0, 0x7F, 0x0, 0x0, 0x0, 0x0⟩,
  ⟨0x4012000C, [], 0, 3, 7, 0x0, 0x0, 0x70, 0xFFFF0000, 0x0, 0x0, 0x0, 0x0, 0x0⟩,
  ⟨0x40120010, [], 0, 0, 7, 0x0, 0x0, 0x0, 0x0, 0x0, 0x0, 0x0, 0x0, 0x0⟩,
  ⟨0x40120014, [], 3, 3, 7, 0x3E8, 0xFFFFFF, 0x0, 0x0, 0x0, 0x0, 0x0, 0x0, 0x0⟩,
  ⟨0x40120020, [(3, 0x8)], 0, 0, 7, 0x0, 0x0, 0x0, 0x0, 0x0, 0x0, 0x0, 0x0, 0x0⟩,
  ⟨0x40120024, [(3, 0x8)], 0, 0, 7, 0x0, 0x0, 0x0, 0x0, 0x0, 0x0, 0x0, 0x0, 0x0⟩,
  ⟨0x40120100, [(16, 0x10)], 0, 0, 7, 0x0, 0x0, 0x0, 0x0, 0x0, 0x0, 0x0, 0x0, 0x0⟩,
  ⟨0x40120104, [(16, 0x10)], 0, 0, 7, 0x0, 0x0, 0x0, 0x0, 0x0, 0x0, 0x0, 0x0, 0x0⟩,
  ⟨0x40120108, [(16, 0x10)], 0, 0, 7, 0x0, 0x0, 0x0, 0x0, 0x0, 0x0, 0x0, 0x0, 0x0⟩,
  ⟨0x4012010C, [(16, 0x10)], 0, 0, 7, 0x0, 0x0, 0x0, 0x0, 0x0, 0x0, 0x0, 0x0, 0x0⟩]
def regPage4012 : List RegDesc := regPage4012_0
/-- The rows of page 0x4013. -/
def regPage4013_0 : List RegDesc := [
  ⟨0x40130000, [], 3, 3, 7, 0x642C00, 0xFFFF01, 0x0, 0x0, 0x2, 0x0, 0x0, 0x0, 0x0⟩,
  ⟨0x40130004, [], 3, 3, 7, 0xA052B, 0xFF0F3F, 0x0, 0x0, 0x0, 0x0, 0x0, 0x0, 0x0⟩,
  ⟨0x40130008, [], 3, 3, 7, 0xC807D0, 0xFFFFFFFF, 0x0, 0x0, 0x0, 0x0, 0x0, 0x0, 0x0⟩,
  ⟨0x4013000C, [], 3, 3, 7, 0x12C, 0xFFFF, 0x0, 0x0, 0x0, 0x0, 0x0, 0x0, 0x0⟩,
  ⟨0x40130010, [], 3, 3, 7, 0x9999999A, 0xFFFFFFFF, 0x0, 0x0, 0x0, 0x0, 0x0, 0x0, 0x0⟩,
  ⟨0x40130014, [], 3, 3, 7, 0x3FA99999, 0xFFFFFFFF, 0x0, 0x0, 0x0, 0x0, 0x0, 0x0, 0x0⟩,
  ⟨0x40130018, [], 3, 3, 7, 0xD2F1A9FC, 0xFFFFFFFF, 0x0, 0x0, 0x0, 0x0, 0x0, 0x0, 0x0⟩,
  ⟨0x4013001C, [], 3, 3, 7, 0x3F60624D, 0xFFFFFFFF, 0x0, 0x0, 0x0, 0x0, 0x0, 0x0, 0x0⟩,
  ⟨0x40130020, [], 3, 3, 7, 0x9999999A, 0xFFFFFFFF, 0x0, 0x0, 0x0, 0x0, 0x0, 0x0, 0x0⟩,
  ⟨0x40130024, [], 3, 3, 7, 0x3FA99999, 0xFFFFFFFF, 0x0, 0x0, 0x0, 0x0, 0x0, 0x0, 0x0⟩,
  ⟨0x40130028, [], 3, 3, 7, 0x0, 0xFFFFFFFF, 0x0, 0x0, 0x0, 0x0, 0x0, 0x0, 0x0⟩,
  ⟨0x4013002C, [], 3, 3, 7, 0x3FE00000, 0xFFFFFFFF, 0x0, 0x0, 0x0, 0x0, 0x0, 0x0, 0x0⟩,
  ⟨0x40130030, [], 3, 3, 7, 0x0, 0xFFFFFFFF, 0x0, 0x0, 0x0, 0x0, 0x0, 0x0, 0x0⟩,
  ⟨0x40130034, [], 3, 3, 7, 0x3FF00000, 0xFFFFFFFF, 0x0, 0x0, 0x0, 0x0, 0x0, 0x0, 0x0⟩,
  ⟨0x40130040, [], 0, 0, 7, 0x3, 0x0, 0x0, 0x0, 0x0, 0x0, 0x0, 0x0, 0x0⟩,
  ⟨0x40130044, [], 0, 0, 7, 0x0, 0x0, 0x0, 0xFFFFFFFF, 0x0, 0x0, 0x0, 0x0, 0x0⟩,
  ⟨0x40130048, [], 0, 0, 7, 0x0, 0x0, 0x0, 0x0, 0x0, 0x0, 0x0, 0x0, 0x0⟩,
  ⟨0x40131000, [(64, 0x20)], 3, 3, 7, 0x0, 0xFFFFFF07, 0x0, 0x0, 0x0, 0x0, 0x0, 0x0, 0x0⟩,
  ⟨0x40131004, [(64, 0x20)], 3, 3, 7, 0x0, 0xFFFFFFFF, 0x0, 0x0, 0x0, 0x0, 0x0, 0x0, 0x0⟩,
  ⟨0x40131008, [(64, 0x20), (3, 0x8)], 3, 3, 7, 0x0, 0xFFFFFFFF, 0x0, 0x0, 0x0, 0x0, 0x0, 0x0, 0x0⟩,
  ⟨0x4013100C, [(64, 0x20), (3, 0x8)], 3, 3, 7, 0x0, 0xFFFFFFFF, 0x0, 0x0, 0x0, 0x0, 0x0, 0x0, 0x0⟩,
  ⟨0x40132000, [(64, 0x80)], 0, 0, 7, 0x0, 0x0, 0x0, 0x0, 0x0, 0x0, 0x0, 0x0, 0x0⟩,
  ⟨0x40132004, [(64, 0x80)], 0, 0, 7, 0x0, 0x0, 0x0, 0x0, 0x0, 0x0, 0x0, 0x0, 0x0⟩,
  ⟨0x40132008, [(64, 0x80)], 0, 0, 7, 0x0, 0x0, 0x0, 0x0, 0x0, 0x0, 0x0, 0x0, 0x0⟩,
  ⟨0x4013200C, [(64, 0x80)], 0, 0, 7, 0x0, 0x0, 0x0, 0x0, 0x0, 0x0, 0x0, 0x0, 0x0⟩,
  ⟨0x40132010, [(64, 0x80), (6, 0x8)], 0, 0, 7, 0x0, 0x0, 0x0, 0x0, 0x0, 0x0, 0x0, 0x0, 0x0⟩,
  ⟨0x40132014, [(64, 0x80), (6, 0x8)], 0, 0, 7, 0x0, 0x0, 0x0, 0x0, 0x0, 0x0, 0x0, 0x0, 0x0⟩,
  ⟨0x40132040, [(64, 0x80), (3, 0x4)], 0, 0, 7, 0x0, 0x0, 0x0, 0x0, 0x0, 0x0, 0x0, 0x0, 0x0⟩]
def regPage4013 : List RegDesc := regPage4013_0
/-- The rows of page 0x4014. -/
def regPage4014_0 : List RegDesc := [
  ⟨0x40140000, [], 3, 3, 6, 0x3E80C14, 0xFFFF0F1F, 0x0, 0x0, 0x0, 0x0, 0x0, 0x0, 0x0⟩,
  ⟨0x40140004, [], 3, 3, 6, 0x1428, 0x7F7F, 0x0, 0x0, 0x0, 0x0, 0x0, 0x0, 0x0⟩,
  ⟨0x40140008, [], 3, 3, 6, 0x0, 0xFFFFFFFF, 0x0, 0x0, 0x0, 0x0, 0x0, 0x0, 0x0⟩,
  ⟨0x4014000C, [], 3, 3, 6, 0x412E8480, 0xFFFFFFFF, 0x0, 0x0, 0x0, 0x0, 0x0, 0x0, 0x0⟩,
  ⟨0x40140010, [], 3, 3, 6, 0xA, 0xFF, 0x0, 0x0, 0x0, 0x0, 0x0, 0x0, 0x0⟩,
  ⟨0x40140020, [], 0, 0, 6, 0x0, 0x0, 0x0, 0x0, 0x0, 0x0, 0x0, 0x0, 0x0⟩,
  ⟨0x40140024, [], 0, 0, 6, 0x0, 0x0, 0x0, 0x0, 0x0, 0x0, 0x0, 0x0, 0x0⟩,
  ⟨0x40140028, [], 0, 0, 6, 0x0, 0x0, 0x0, 0xFFFFFFFF, 0x0, 0x0, 0x0, 0x0, 0x0⟩,
  ⟨0x4014002C, [], 0, 0, 6, 0x0, 0x0, 0x0, 0xFFFFFFFF, 0x0, 0x0, 0x0, 0x0, 0x0⟩,
  ⟨0x40140030, [(4, 0x4)], 0, 0, 6, 0x0, 0x0, 0x0, 0xFFFFFFFF, 0x0, 0x0, 0x0, 0x0, 0x0⟩,
  ⟨0x40140040, [], 15, 15, 6, 0x0, 0x0, 0x0, 0x0, 0xFFFFF, 0x0, 0x0, 0x0, 0x0⟩,
  ⟨0x40140044, [], 0, 0, 6, 0x0, 0x0, 0x0, 0x0, 0x0, 0x0, 0x0, 0x0, 0x0⟩,
  ⟨0x40140100, [(11, 0x10)], 15, 15, 6, 0x0, 0x0, 0x0, 0x0, 0xFFFFFFFF, 0x0, 0x0, 0x0, 0x0⟩,
  ⟨0x40140104, [(11, 0x10)], 15, 15, 6, 0x0, 0xFF, 0x0, 0x0, 0x0, 0x0, 0x0, 0x0, 0x0⟩,
  ⟨0x40140108, [(11, 0x10)], 0, 0, 6, 0x0, 0x0, 0x0, 0x0, 0x0, 0x0, 0x0, 0x0, 0x0⟩]
def regPage4014 : List RegDesc := regPage4014_0
/-- The rows of page 0x4015. -/
def regPage4015_0 : List RegDesc := [
  ⟨0x40150000, [(4, 0x4)], 0, 0, 6, 0x0, 0x0, 0x0, 0x0, 0x0, 0x0, 0x0, 0x0, 0x0⟩,
  ⟨0x40150010, [], 0, 0, 6, 0x0, 0x0, 0x0, 0xFFFFFF, 0x0, 0x0, 0x0, 0x0, 0x0⟩]
def regPage4015 : List RegDesc := regPage4015_0
/-- The rows of page 0x4016. -/
def regPage4016_0 : List RegDesc := [
  ⟨0x40160000, [], 3, 3, 6, 0x400900, 0xFFFFF01, 0x0, 0x0, 0x0, 0x0, 0x0, 0x0, 0x0⟩,
  ⟨0x40160004, [], 3, 3, 6, 0x3C6, 0x3FF, 0x0, 0x0, 0x0, 0x0, 0x0, 0x0, 0x0⟩,
  ⟨0x40160008, [], 3, 3, 6, 0x0, 0x0, 0x0, 0x0, 0x3F, 0x0, 0x0, 0x0, 0x0⟩,
  ⟨0x4016000C, [], 0, 7, 6, 0x0, 0x0, 0x60, 0x0, 0x0, 0x0, 0x0, 0x0, 0x0⟩,
  ⟨0x40160010, [], 0, 0, 6, 0x0, 0x0, 0x0, 0xFFFFFFFF, 0x0, 0x0, 0x0, 0x0, 0x0⟩,
  ⟨0x40160014, [], 0, 0, 6, 0x0, 0x0, 0x0, 0x0, 0x0, 0x0, 0x0, 0x0, 0x0⟩,
  ⟨0x40160018, [], 3, 3, 6, 0x0, 0xFFFFFFFF, 0x0, 0x0, 0x0, 0x0, 0x0, 0x0, 0x0⟩,
  ⟨0x4016001C, [], 3, 3, 6, 0x412E8480, 0xFFFFFFFF, 0x0, 0x0, 0x0, 0x0, 0x0, 0x0, 0x0⟩,
  ⟨0x40160020, [(2, 0x8)], 3, 3, 6, 0x0, 0xFFFFFFFF, 0x0, 0x0, 0x0, 0x0, 0x0, 0x0, 0x0⟩,
  ⟨0x40160024, [(2, 0x8)], 3, 3, 6, 0x412E8480, 0xFFFFFFFF, 0x0, 0x0, 0x0, 0x0, 0x0, 0x0, 0x0⟩,
  ⟨0x40160030, [(3, 0x8)], 3, 3, 6, 0x0, 0xFFFFFFFF, 0x0, 0x0, 0x0, 0x0, 0x0, 0x0, 0x0⟩,
  ⟨0x40160034, [(3, 0x8)], 3, 3, 6, 0x4187D784, 0xFFFFFFFF, 0x0, 0x0, 0x0, 0x0, 0x0, 0x0, 0x0⟩,
  ⟨0x40160048, [(2, 0x4)], 3, 3, 6, 0x447A0000, 0xFFFFFFFF, 0x0, 0x0, 0x0, 0x0, 0x0, 0x0, 0x0⟩,
  ⟨0x40160050, [(3, 0x4)], 3, 3, 6, 0x47435000, 0xFFFFFFFF, 0x0, 0x0, 0x0, 0x0, 0x0, 0x0, 0x0⟩,
  ⟨0x40160060, [(3, 0x8)], 3, 3, 6, 0x0, 0xFFFFFFFF, 0x0, 0x0, 0x0, 0x0, 0x0, 0x0, 0x0⟩,
  ⟨0x40160064, [(3, 0x8)], 3, 3, 6, 0x0, 0xFFFFFFFF, 0x0, 0x0, 0x0, 0x0, 0x0, 0x0, 0x0⟩,
  ⟨0x40160100, [], 0, 0, 6, 0x0, 0x0, 0x0, 0x0, 0x0, 0x0, 0x0, 0x0, 0x0⟩,
  ⟨0x40160104, [], 0, 0, 6, 0x0, 0x0, 0x0, 0x0, 0x0, 0x0, 0x0, 0x0, 0x0⟩,
  ⟨0x40160108, [(5, 0x8)], 0, 0, 6, 0x0, 0x0, 0x0, 0x0, 0x0, 0x0, 0x0, 0x0, 0x0⟩,
  ⟨0x4016010C, [(5, 0x8)], 0, 0, 6, 0x0, 0x0, 0x0, 0x0, 0x0, 0x0, 0x0, 0x0, 0x0⟩,
  ⟨0x40160130, [(5, 0x8)], 0, 0, 6, 0xFFFFFFFF, 0x0, 0x0, 0x0, 0x0, 0x0, 0x0, 0x0, 0x0⟩,
  ⟨0x40160134, [(5, 0x8)], 0, 0, 6, 0xFFFFFFFF, 0x0, 0x0, 0x0, 0x0, 0x0, 0x0, 0x0, 0x0⟩,
  ⟨0x40160158, [], 0, 0, 6, 0x0, 0x0, 0x0, 0x0, 0x0, 0x0, 0x0, 0x0, 0x0⟩,
  ⟨0x4016015C, [], 0, 0, 6, 0x0, 0x0, 0x0, 0x0, 0x0, 0x0, 0x0, 0x0, 0x0⟩,
  ⟨0x40160200, [(40, 0x4)], 0, 0, 6, 0x0, 0x0, 0x0, 0x0, 0x0, 0x0, 0x0, 0x0, 0x0⟩,
  ⟨0x40161000, [(48, 0x100)], 3, 3, 6, 0x0, 0x7FFFFFF, 0x0, 0x0, 0x0, 0x0, 0x0, 0x0, 0x0⟩,
  ⟨0x40161004, [(48, 0x100)], 0, 0, 6, 0x0, 0x0, 0x0, 0x0, 0x0, 0x0, 0x0, 0x0, 0x0⟩,
  ⟨0x40161008, [(48, 0x100), (11, 0x8)], 3, 3, 6, 0x0, 0xFFFFFFFF, 0x0, 0x0, 0x0, 0x0, 0x0, 0x0, 0x0⟩,
  ⟨0x4016100C, [(48, 0x100), (11, 0x8)], 3, 3, 6, 0x0, 0xFFFFFFFF, 0x0, 0x0, 0x0, 0x0, 0x0, 0x0, 0x0⟩,
  ⟨0x40161060, [(48, 0x100), (8, 0x4)], 3, 3, 6, 0x0, 0xFFFFFFFF, 0x0, 0x0, 0x0, 0x0, 0x0, 0x0, 0x0⟩,
  ⟨0x40161080, [(48, 0x100), (16, 0x4)], 3, 3, 6, 0x0, 0xFFFFFFFF, 0x0, 0x0, 0x0, 0x0, 0x0, 0x0, 0x0⟩,
  ⟨0x401610C0, [(48, 0x100), (3, 0x8)], 0, 0, 6, 0x0, 0x0, 0x0, 0x0, 0x0, 0x0, 0x0, 0x0, 0x0⟩,
  ⟨0x401610C4, [(48, 0x100), (3, 0x8)], 0, 0, 6, 0x0, 0x0, 0x0, 0x0, 0x0, 0x0, 0x0, 0x0, 0x0⟩,
  ⟨0x40164000, [(48, 0x100), (64, 0x4)], 0, 0, 6, 0x0, 0x0, 0x0, 0x0, 0x0, 0x0, 0x0, 0x0, 0x0⟩]
def regPage4016 : List RegDesc := regPage4016_0
/-- The rows of page 0x4017. -/
def regPage4017_0 : List RegDesc := [
  ⟨0x40170000, [], 11, 11, 2, 0x0, 0x0, 0x0, 0x0, 0xFF, 0x0, 0x0, 0x0, 0x0⟩,
  ⟨0x40170004, [], 0, 3, 2, 0x1000, 0x0, 0x400, 0x0, 0x0, 0x0, 0x0, 0x0, 0x0⟩,
  ⟨0x40170008, [], 3, 3, 2, 0x27, 0x3F, 0x0, 0x0, 0x0, 0x0, 0x0, 0x0, 0x0⟩,
  ⟨0x4017000C, [], 3, 3, 2, 0x1F407D0, 0xFFFFFFFF, 0x0, 0x0, 0x0, 0x0, 0x0, 0x0, 0x0⟩,
  ⟨0x40170010, [], 3, 3, 2, 0x320000, 0xFFFF7FFF, 0x0, 0x0, 0x0, 0x0, 0x0, 0x0, 0x0⟩,
  ⟨0x40170014, [], 11, 11, 2, 0x0, 0x7F, 0x0, 0x0, 0x0, 0x0, 0x0, 0x0, 0x0⟩,
  ⟨0x40170018, [], 3, 3, 2, 0x3C0057, 0xFFFFFFFF, 0x0, 0x0, 0x0, 0x0, 0x0, 0x0, 0x0⟩,
  ⟨0x4017001C, [], 0, 0, 2, 0x0, 0x0, 0x0, 0xFFFFFF, 0x0, 0x0, 0x0, 0x0, 0x0⟩,
  ⟨0x40170020, [(2, 0x8)], 11, 11, 2, 0x0, 0xFFFFFFFF, 0x0, 0x0, 0x0, 0x0, 0x0, 0x0, 0x0⟩,
  ⟨0x40170024, [(2, 0x8)], 11, 11, 2, 0x0, 0xFFFFFFFF, 0x0, 0x0, 0x0, 0x0, 0x0, 0x0, 0x0⟩,
  ⟨0x40170030, [], 11, 11, 2, 0x0, 0xFFFFFFFF, 0x0, 0x0, 0x0, 0x0, 0x0, 0x0, 0x0⟩,
  ⟨0x40170034, [], 11, 11, 2, 0x7FF80000, 0xFFFFFFFF, 0x0, 0x0, 0x0, 0x0, 0x0, 0x0, 0x0⟩,
  ⟨0x40170038, [(2, 0x8)], 11, 11, 2, 0x0, 0xFFFFFFFF, 0x0, 0x0, 0x0, 0x0, 0x0, 0x0, 0x0⟩,
  ⟨0x4017003C, [(2, 0x8)], 11, 11, 2, 0x0, 0xFFFFFFFF, 0x0, 0x0, 0x0, 0x0, 0x0, 0x0, 0x0⟩,
  ⟨0x40170048, [], 3, 3, 2, 0x33333333, 0xFFFFFFFF, 0x0, 0x0, 0x0, 0x0, 0x0, 0x0, 0x0⟩,
  ⟨0x4017004C, [], 3, 3, 2, 0x3FD33333, 0xFFFFFFFF, 0x0, 0x0, 0x0, 0x0, 0x0, 0x0, 0x0⟩,
  ⟨0x40170050, [], 3, 3, 2, 0x47AE147B, 0xFFFFFFFF, 0x0, 0x0, 0x0, 0x0, 0x0, 0x0, 0x0⟩,
  ⟨0x40170054, [], 3, 3, 2, 0x3F947AE1, 0xFFFFFFFF, 0x0, 0x0, 0x0, 0x0, 0x0, 0x0, 0x0⟩,
  ⟨0x40170058, [], 3, 3, 2, 0x1EB851EC, 0xFFFFFFFF, 0x0, 0x0, 0x0, 0x0, 0x0, 0x0, 0x0⟩,
  ⟨0x4017005C, [], 3, 3, 2, 0x3F91EB85, 0xFFFFFFFF, 0x0, 0x0, 0x0, 0x0, 0x0, 0x0, 0x0⟩,
  ⟨0x40170060, [], 3, 3, 2, 0xD2F1A9FC, 0xFFFFFFFF, 0x0, 0x0, 0x0, 0x0, 0x0, 0x0, 0x0⟩,
  ⟨0x40170064, [], 3, 3, 2, 0x3F60624D, 0xFFFFFFFF, 0x0, 0x0, 0x0, 0x0, 0x0, 0x0, 0x0⟩,
  ⟨0x40170068, [], 3, 3, 2, 0x0, 0xFFFFFFFF, 0x0, 0x0, 0x0, 0x0, 0x0, 0x0, 0x0⟩,
  ⟨0x4017006C, [], 3, 3, 2, 0x407F4000, 0xFFFFFFFF, 0x0, 0x0, 0x0, 0x0, 0x0, 0x0, 0x0⟩,
  ⟨0x40170070, [(3, 0x4)], 11, 11, 2, 0x0, 0xFFFFFFFF, 0x0, 0x0, 0x0, 0x0, 0x0, 0x0, 0x0⟩,
  ⟨0x40170180, [(3, 0x8)], 0, 0, 2, 0x0, 0x0, 0x0, 0x0, 0x0, 0x0, 0x0, 0x0, 0x0⟩,
  ⟨0x40170184, [(3, 0x8)], 0, 0, 2, 0x0, 0x0, 0x0, 0x0, 0x0, 0x0, 0x0, 0x0, 0x0⟩,
  ⟨0x40170200, [], 0, 0, 2, 0x0, 0x0, 0x0, 0x0, 0x0, 0x0, 0x0, 0x0, 0x0⟩,
  ⟨0x40170204, [], 0, 0, 2, 0x0, 0x0, 0x0, 0x0, 0x0, 0x0, 0x0, 0x0, 0x0⟩,
  ⟨0x40170208, [(5, 0x8)], 0, 0, 2, 0x0, 0x0, 0x0, 0x0, 0x0, 0x0, 0x0, 0x0, 0x0⟩,
  ⟨0x4017020C, [(5, 0x8)], 0, 0, 2, 0x0, 0x0, 0x0, 0x0, 0x0, 0x0, 0x0, 0x0, 0x0⟩,
  ⟨0x40170230, [(3, 0x8)], 0, 0, 2, 0x0, 0x0, 0x0, 0x0, 0x0, 0x0, 0x0, 0x0, 0x0⟩,
  ⟨0x40170234, [(3, 0x8)], 0, 0, 2, 0x0, 0x0, 0x0, 0x0, 0x0, 0x0, 0x0, 0x0, 0x0⟩,
  ⟨0x40170248, [(4, 0x8)], 0, 0, 2, 0x0, 0x0, 0x0, 0x0, 0x0, 0x0, 0x0, 0x0, 0x0⟩,
  ⟨0x4017024C, [(4, 0x8)], 0, 0, 2, 0x0, 0x0, 0x0, 0x0, 0x0, 0x0, 0x0, 0x0, 0x0⟩,
  ⟨0x40170268, [], 0, 0, 2, 0x0, 0x0, 0x0, 0x0, 0x0, 0x0, 0x0, 0x0, 0x0⟩,
  ⟨0x40170400, [(5, 0x40), (6, 0x8)], 3, 3, 2, 0x0, 0xFFFFFFFF, 0x0, 0x0, 0x0, 0x0, 0x0, 0x0, 0x0⟩,
  ⟨0x40170404, [(5, 0x40), (6, 0x8)], 3, 3, 2, 0x0, 0xFFFFFFFF, 0x0, 0x0, 0x0, 0x0, 0x0, 0x0, 0x0⟩,
  ⟨0x40170600, [(108, 0x4)], 3, 3, 2, 0x0, 0xFFFFFFFF, 0x0, 0x0, 0x0, 0x0, 0x0, 0x0, 0x0⟩,
  ⟨0x40170800, [(32, 0x20), (2, 0x8)], 11, 11, 2, 0x0, 0xFFFFFFFF, 0x0, 0x0, 0x0, 0x0, 0x0, 0x0, 0x0⟩]
def regPage4017_1 : List RegDesc := [
  ⟨0x40170804, [(32, 0x20), (2, 0x8)], 11, 11, 2, 0x0, 0xFFFFFFFF, 0x0, 0x0, 0x0, 0x0, 0x0, 0x0, 0x0⟩,
  ⟨0x40170810, [(32, 0x20)], 11, 11, 2, 0x0, 0xFFFFFFFF, 0x0, 0x0, 0x0, 0x0, 0x0, 0x0, 0x0⟩,
  ⟨0x40170814, [(32, 0x20)], 11, 11, 2, 0x7FC00000, 0xFFFFFFFF, 0x0, 0x0, 0x0, 0x0, 0x0, 0x0, 0x0⟩,
  ⟨0x40170818, [(32, 0x20)], 11, 11, 2, 0x0, 0x1, 0x0, 0x0, 0x0, 0x0, 0x0, 0x0, 0x0⟩]
def regPage4017 : List RegDesc := regPage4017_0 ++ regPage4017_1
/-- The rows of page 0x4018. -/
def regPage4018_0 : List RegDesc := [
  ⟨0x40180000, [], 3, 3, 2, 0x0, 0x1, 0x0, 0x0, 0x0, 0x0, 0x0, 0x0, 0x0⟩,
  ⟨0x40180004, [], 0, 0, 2, 0x0, 0x0, 0x0, 0x0, 0x0, 0x0, 0x0, 0x0, 0x0⟩,
  ⟨0x40180008, [], 0, 0, 2, 0x0, 0x0, 0x0, 0x0, 0x0, 0x0, 0x0, 0x0, 0x0⟩,
  ⟨0x4018000C, [], 0, 0, 2, 0x0, 0x0, 0x0, 0x0, 0x0, 0x0, 0x0, 0x0, 0x0⟩,
  ⟨0x40180010, [(4, 0x4)], 0, 0, 2, 0x1F, 0x0, 0x0, 0x0, 0x0, 0x0, 0x0, 0x0, 0x0⟩,
  ⟨0x40180020, [(4, 0x4)], 0, 0, 3, 0x1F, 0x0, 0x0, 0x0, 0x0, 0x0, 0x0, 0x0, 0x0⟩,
  ⟨0x40180030, [], 0, 0, 2, 0x0, 0x0, 0x0, 0xFFFFFF, 0x0, 0x0, 0x0, 0x0, 0x0⟩,
  ⟨0x40180040, [], 3, 3, 2, 0x0, 0xFFFFFFFF, 0x0, 0x0, 0x0, 0x0, 0x0, 0x0, 0x0⟩,
  ⟨0x40180044, [], 3, 3, 2, 0x0, 0xFFFFFFFF, 0x0, 0x0, 0x0, 0x0, 0x0, 0x0, 0x0⟩,
  ⟨0x40180048, [], 3, 3, 2, 0x0, 0xFFFFFFFF, 0x0, 0x0, 0x0, 0x0, 0x0, 0x0, 0x0⟩,
  ⟨0x4018004C, [], 3, 3, 2, 0x0, 0x0, 0x0, 0x0, 0x0, 0xFFFFFFFF, 0x0, 0x0, 0x0⟩,
  ⟨0x40180050, [], 0, 0, 2, 0x0, 0x0, 0x0, 0x0, 0x0, 0x0, 0x0, 0x0, 0x0⟩,
  ⟨0x40180100, [(16, 0x20)], 3, 3, 2, 0x10000, 0xFFFF0FF7, 0x0, 0x0, 0x0, 0x0, 0x0, 0x0, 0x0⟩,
  ⟨0x40180104, [(16, 0x20)], 3, 3, 2, 0x0, 0xFFFF, 0x0, 0x0, 0x0, 0x0, 0x0, 0x0, 0x0⟩,
  ⟨0x40180108, [(16, 0x20)], 0, 0, 2, 0x0, 0x0, 0x0, 0x0, 0x0, 0x0, 0x0, 0x0, 0x0⟩,
  ⟨0x4018010C, [(16, 0x20)], 0, 0, 2, 0x0, 0x0, 0x0, 0xFFFF, 0x0, 0x0, 0x0, 0x0, 0x0⟩,
  ⟨0x40180110, [(16, 0x20)], 0, 0, 2, 0x0, 0x0, 0x0, 0xFFFF0000, 0x0, 0x0, 0x0, 0x0, 0x0⟩,
  ⟨0x40180114, [(16, 0x20)], 0, 0, 2, 0x0, 0x0, 0x0, 0x0, 0x0, 0x0, 0x0, 0x0, 0x0⟩,
  ⟨0x40180118, [(16, 0x20)], 0, 0, 2, 0x0, 0x0, 0x0, 0x0, 0x0, 0x0, 0x0, 0x0, 0x0⟩,
  ⟨0x4018011C, [(16, 0x20)], 0, 0, 2, 0x0, 0x0, 0x0, 0x0, 0x0, 0x0, 0x0, 0x0, 0x0⟩,
  ⟨0x40181000, [(256, 0x10)], 0, 0, 2, 0x0, 0x0, 0x0, 0x0, 0x0, 0x0, 0x0, 0x0, 0x0⟩,
  ⟨0x40181004, [(256, 0x10)], 0, 0, 2, 0x0, 0x0, 0x0, 0x0, 0x0, 0x0, 0x0, 0x0, 0x0⟩,
  ⟨0x40181008, [(256, 0x10)], 0, 0, 2, 0x0, 0x0, 0x0, 0x0, 0x0, 0x0, 0x0, 0x0, 0x0⟩,
  ⟨0x4018100C, [(256, 0x10)], 0, 0, 2, 0x0, 0x0, 0x0, 0x0, 0x0, 0x0, 0x0, 0x0, 0x0⟩]
def regPage4018 : List RegDesc := regPage4018_0
/-- The rows of page 0x4020. -/
def regPage4020_0 : List RegDesc := [
  ⟨0x40200000, [], 3, 3, 9, 0xAFFFF, 0x3FFFFF, 0x0, 0x0, 0x0, 0x0, 0x0, 0x0, 0x0⟩,
  ⟨0x40200004, [], 3, 3, 9, 0xFA03, 0xFFFFF7, 0x0, 0x0, 0x0, 0x0, 0x0, 0x0, 0x0⟩,
  ⟨0x40200008, [], 0, 0, 9, 0x0, 0x0, 0x0, 0x0, 0x0, 0x0, 0x0, 0x0, 0x0⟩,
  ⟨0x40200010, [(2, 0x4)], 3, 3, 10, 0x0, 0x1, 0x0, 0x0, 0x0, 0x0, 0x0, 0x0, 0x0⟩,
  ⟨0x40200020, [(4, 0x4)], 0, 0, 10, 0x0, 0x0, 0x0, 0x0, 0x0, 0x0, 0x0, 0x0, 0x0⟩,
  ⟨0x40200030, [], 3, 3, 10, 0x50, 0xFF, 0x0, 0x0, 0x100, 0x0, 0x0, 0x0, 0x0⟩,
  ⟨0x40200040, [], 0, 7, 9, 0x0, 0x0, 0x8, 0x0, 0x0, 0x0, 0x0, 0xF, 0x0⟩,
  ⟨0x40200044, [], 0, 0, 9, 0xFFFFFFFF, 0x0, 0x0, 0x0, 0x0, 0x0, 0x0, 0xFFFFFFFF, 0x0⟩,
  ⟨0x40200048, [], 0, 0, 9, 0x0, 0x0, 0x0, 0x0, 0x0, 0x0, 0x0, 0xFFFFFFFF, 0x0⟩,
  ⟨0x4020004C, [], 3, 3, 9, 0x3E80064, 0xFFFFFFFF, 0x0, 0x0, 0x0, 0x0, 0x0, 0xFFFFFFFF, 0x0⟩,
  ⟨0x40200050, [(3, 0x4)], 0, 0, 9, 0x0, 0x0, 0x0, 0x0, 0x0, 0x0, 0x0, 0x0, 0x0⟩,
  ⟨0x40200060, [], 3, 3, 9, 0x140000, 0xFFFFFFFF, 0x0, 0x0, 0x0, 0x0, 0x0, 0x0, 0x0⟩,
  ⟨0x40200100, [(16, 0x10)], 3, 3, 10, 0x3E80323C, 0xFFFFFFFF, 0x0, 0x0, 0x0, 0x0, 0x0, 0x0, 0x0⟩,
  ⟨0x40200104, [(16, 0x10)], 3, 3, 10, 0x0, 0xFFFFFFFF, 0x0, 0x0, 0x0, 0x0, 0x0, 0x0, 0x0⟩,
  ⟨0x40200108, [(16, 0x10)], 0, 0, 10, 0x0, 0x0, 0x0, 0x0, 0x0, 0x0, 0x0, 0x0, 0x0⟩,
  ⟨0x4020010C, [(16, 0x10)], 0, 0, 10, 0x0, 0x0, 0x0, 0x0, 0x0, 0x0, 0x0, 0x0, 0x0⟩,
  ⟨0x40200200, [], 3, 3, 9, 0x508000, 0x3FFFFFF, 0x0, 0x0, 0x80000000, 0x0, 0x0, 0x0, 0x0⟩,
  ⟨0x40200204, [], 3, 3, 9, 0x27100000, 0xFFFFFFFF, 0x0, 0x0, 0x0, 0x0, 0x0, 0x0, 0x0⟩,
  ⟨0x40200208, [], 0, 0, 9, 0x0, 0x0, 0x0, 0x0, 0x0, 0x0, 0x0, 0x0, 0x0⟩,
  ⟨0x4020020C, [], 0, 0, 9, 0x0, 0x0, 0x0, 0x0, 0x0, 0x0, 0x0, 0x0, 0x0⟩,
  ⟨0x40200210, [], 3, 3, 9, 0x1E, 0xFF, 0x0, 0x0, 0x0, 0x0, 0x0, 0x0, 0x0⟩,
  ⟨0x40200214, [], 3, 3, 9, 0x0, 0xFFFFFFFF, 0x0, 0x0, 0x0, 0x0, 0x0, 0x0, 0x0⟩,
  ⟨0x40200218, [], 3, 3, 9, 0x0, 0xFF, 0x0, 0x0, 0x0, 0x0, 0x0, 0x0, 0x0⟩,
  ⟨0x40200220, [], 3, 3, 9, 0x18, 0x3F, 0x0, 0x0, 0x0, 0x0, 0x0, 0x0, 0x0⟩,
  ⟨0x40200224, [], 3, 3, 9, 0x0, 0xFFFFFFFF, 0x0, 0x0, 0x0, 0x0, 0x0, 0x0, 0x0⟩,
  ⟨0x40200228, [], 3, 3, 9, 0x0, 0xFF, 0x0, 0x0, 0x0, 0x0, 0x0, 0x0, 0x0⟩,
  ⟨0x4020022C, [], 0, 0, 9, 0x0, 0x0, 0x0, 0x0, 0x0, 0x0, 0x0, 0x0, 0x0⟩,
  ⟨0x40200230, [], 3, 3, 9, 0x18, 0x3F, 0x0, 0x0, 0x0, 0x0, 0x0, 0x0, 0x0⟩,
  ⟨0x40200234, [], 3, 3, 9, 0x0, 0xFFFFFFFF, 0x0, 0x0, 0x0, 0x0, 0x0, 0x0, 0x0⟩,
  ⟨0x40200238, [], 3, 3, 9, 0x0, 0xFF, 0x0, 0x0, 0x0, 0x0, 0x0, 0x0, 0x0⟩,
  ⟨0x4020023C, [], 0, 0, 9, 0x0, 0x0, 0x0, 0x0, 0x0, 0x0, 0x0, 0x0, 0x0⟩,
  ⟨0x40201000, [(192, 0x10)], 3, 3, 9, 0x240000, 0x3FFFFF, 0x0, 0x0, 0x0, 0x0, 0x0, 0x0, 0x0⟩,
  ⟨0x40201004, [(192, 0x10)], 0, 0, 9, 0x0, 0x0, 0x0, 0x0, 0x0, 0x0, 0x0, 0x0, 0x0⟩]
def regPage4020 : List RegDesc := regPage4020_0
/-- The rows of page 0x4030. -/
def regPage4030_0 : List RegDesc := [
  ⟨0x40300000, [], 0, 0, 5, 0x0, 0x0, 0x0, 0x0, 0x0, 0x0, 0x0, 0x0, 0x0⟩,
  ⟨0x40300004, [], 0, 4, 5, 0x0, 0x0, 0x3FF0000, 0x0, 0x0, 0x0, 0x0, 0x0, 0x0⟩,
  ⟨0x40300008, [], 0, 0, 5, 0x0, 0x0, 0x0, 0x0, 0x0, 0x0, 0x0, 0x0, 0x0⟩,
  ⟨0x4030000C, [], 0, 0, 5, 0x0, 0x0, 0x0, 0x0, 0x0, 0x0, 0x0, 0x0, 0x0⟩,
  ⟨0x40300010, [], 0, 0, 5, 0x0, 0x0, 0x0, 0x0, 0x0, 0x0, 0x0, 0x0, 0x0⟩,
  ⟨0x40300014, [], 0, 4, 5, 0x0, 0x0, 0x4, 0x0, 0x0, 0x0, 0x0, 0x0, 0x0⟩,
  ⟨0x40300018, [], 0, 0, 5, 0x0, 0x0, 0x0, 0x0, 0x0, 0x0, 0x0, 0x0, 0x0⟩,
  ⟨0x40300020, [], 4, 4, 5, 0x21E, 0xFFFF03FF, 0x0, 0x0, 0x0, 0x0, 0x0, 0x0, 0x0⟩,
  ⟨0x40300024, [], 4, 4, 5, 0x7D00BB8, 0xFFFFFFFF, 0x0, 0x0, 0x0, 0x0, 0x0, 0x0, 0x0⟩,
  ⟨0x40300028, [], 4, 4, 5, 0x32C86464, 0xFFFFFFFF, 0x0, 0x0, 0x0, 0x0, 0x0, 0x0, 0x0⟩,
  ⟨0x4030002C, [], 4, 4, 5, 0xFFFF00C8, 0xFFFF03FF, 0x0, 0x0, 0x0, 0x0, 0x0, 0x0, 0x0⟩,
  ⟨0x40300030, [], 4, 4, 5, 0xA000032, 0xFF01FFFF, 0x0, 0x0, 0x0, 0x0, 0x0, 0x0, 0x0⟩,
  ⟨0x40300034, [], 4, 4, 5, 0x0, 0x7FF, 0x0, 0x0, 0x0, 0x0, 0x0, 0x0, 0x0⟩,
  ⟨0x40300040, [], 4, 4, 5, 0x3DB2CA58, 0xFFFFFFFF, 0x0, 0x0, 0x0, 0x0, 0x0, 0x0, 0x0⟩,
  ⟨0x40300044, [], 4, 4, 5, 0x0, 0xFFFFFFFF, 0x0, 0x0, 0x0, 0x0, 0x0, 0x0, 0x0⟩,
  ⟨0x40300048, [], 4, 4, 5, 0x0, 0xFFFFFFFF, 0x0, 0x0, 0x0, 0x0, 0x0, 0x0, 0x0⟩,
  ⟨0x4030004C, [], 4, 4, 5, 0x41200000, 0xFFFFFFFF, 0x0, 0x0, 0x0, 0x0, 0x0, 0x0, 0x0⟩,
  ⟨0x40300050, [], 4, 4, 5, 0x41A00000, 0xFFFFFFFF, 0x0, 0x0, 0x0, 0x0, 0x0, 0x0, 0x0⟩,
  ⟨0x40300054, [], 4, 4, 5, 0x40400000, 0xFFFFFFFF, 0x0, 0x0, 0x0, 0x0, 0x0, 0x0, 0x0⟩,
  ⟨0x40300060, [(8, 0x4)], 4, 4, 5, 0x1400, 0xFFFFFF03, 0x0, 0x0, 0x0, 0x0, 0x0, 0x0, 0x0⟩,
  ⟨0x40300080, [], 0, 0, 5, 0x0, 0x0, 0x0, 0x0, 0x0, 0x0, 0x0, 0x0, 0x0⟩,
  ⟨0x40300100, [(24, 0x40)], 4, 4, 5, 0x1E00, 0xFFFF3FFF, 0x0, 0x0, 0x0, 0x0, 0x0, 0x0, 0x0⟩,
  ⟨0x40300104, [(24, 0x40)], 4, 4, 5, 0x0, 0xFFFFFFFF, 0x0, 0x0, 0x0, 0x0, 0x0, 0x0, 0x0⟩,
  ⟨0x40300108, [(24, 0x40)], 4, 4, 5, 0x0, 0xFFFFFFFF, 0x0, 0x0, 0x0, 0x0, 0x0, 0x0, 0x0⟩,
  ⟨0x4030010C, [(24, 0x40)], 4, 4, 5, 0x0, 0xFFFFFFFF, 0x0, 0x0, 0x0, 0x0, 0x0, 0x0, 0x0⟩,
  ⟨0x40300110, [(24, 0x40)], 4, 4, 5, 0x0, 0xFFFFFFFF, 0x0, 0x0, 0x0, 0x0, 0x0, 0x0, 0x0⟩,
  ⟨0x40300114, [(24, 0x40)], 4, 4, 5, 0x0, 0xFFFFFFFF, 0x0, 0x0, 0x0, 0x0, 0x0, 0x0, 0x0⟩,
  ⟨0x40300118, [(24, 0x40)], 4, 4, 5, 0x0, 0xFFFFFFFF, 0x0, 0x0, 0x0, 0x0, 0x0, 0x0, 0x0⟩,
  ⟨0x4030011C, [(24, 0x40)], 4, 4, 5, 0x100722, 0x1FFFFF, 0x0, 0x0, 0x0, 0x0, 0x0, 0x0, 0x0⟩,
  ⟨0x40300120, [(24, 0x40), (4, 0x4)], 4, 4, 5, 0x0, 0xFFFFFFFF, 0x0, 0x0, 0x0, 0x0, 0x0, 0x0, 0x0⟩,
  ⟨0x40300130, [(24, 0x40)], 4, 4, 5, 0x0, 0x3F3F3F3F, 0x0, 0x0, 0x0, 0x0, 0x0, 0x0, 0x0⟩,
  ⟨0x40300134, [(24, 0x40)], 0, 0, 5, 0x0, 0x0, 0x0, 0x0, 0x0, 0x0, 0x0, 0x0, 0x0⟩,
  ⟨0x40300138, [(24, 0x40)], 0, 0, 5, 0x7F800000, 0x0, 0x0, 0x0, 0x0, 0x0, 0x0, 0x0, 0x0⟩,
  ⟨0x4030013C, [(24, 0x40)], 0, 0, 5, 0x0, 0x0, 0x0, 0xFFFFFFFF, 0x0, 0x0, 0x0, 0x0, 0x0⟩]
def regPage4030 : List RegDesc := regPage4030_0
/-- The rows of page 0x4031. -/
def regPage4031_0 : List RegDesc := [
  ⟨0x40310000, [], 3, 3, 11, 0x0, 0x0, 0x0, 0x0, 0x0, 0xFFFFFFFF, 0x0, 0x0, 0x0⟩,
  ⟨0x40310004, [], 3, 3, 11, 0xD21023, 0xFFFFFFF3, 0x0, 0x0, 0x0, 0x0, 0x0, 0x0, 0x0⟩,
  ⟨0x40310008, [], 0, 0, 11, 0x38, 0x0, 0x0, 0x0, 0x0, 0x0, 0x0, 0x0, 0x0⟩,
  ⟨0x4031000C, [], 0, 0, 0, 0x0, 0x0, 0x0, 0x0, 0x0, 0x0, 0xFFFFFFFF, 0x0, 0x0⟩,
  ⟨0x40310010, [], 0, 0, 0, 0x0, 0x0, 0x0, 0x0, 0x0, 0x0, 0x1FF, 0x0, 0x0⟩,
  ⟨0x40310014, [], 0, 0, 11, 0x0, 0x0, 0x0, 0x0, 0x0, 0x0, 0x0, 0x0, 0x0⟩,
  ⟨0x40310018, [], 0, 0, 11, 0x0, 0x0, 0x0, 0x0, 0x0, 0x0, 0x0, 0x0, 0x0⟩,
  ⟨0x4031001C, [], 0, 0, 11, 0x0, 0x0, 0x0, 0xFFFFFFFF, 0x0, 0x0, 0x0, 0x0, 0x0⟩,
  ⟨0x40310020, [], 0, 0, 11, 0x0, 0x0, 0x0, 0xFFFFFFFF, 0x0, 0x0, 0x0, 0x0, 0x0⟩,
  ⟨0x40310024, [], 0, 7, 11, 0x0, 0x0, 0xFF, 0x0, 0x0, 0x0, 0x0, 0x0, 0x0⟩,
  ⟨0x40310028, [], 0, 0, 11, 0x0, 0x0, 0x0, 0x0, 0x0, 0x0, 0x0, 0x0, 0x0⟩,
  ⟨0x4031002C, [], 0, 0, 11, 0x0, 0x0, 0x0, 0x0, 0x0, 0x0, 0x0, 0x0, 0x0⟩,
  ⟨0x40310030, [], 0, 0, 11, 0x0, 0x0, 0x0, 0x0, 0x0, 0x0, 0x0, 0x0, 0x0⟩,
  ⟨0x40310034, [], 0, 0, 11, 0x0, 0x0, 0x0, 0x0, 0x0, 0x0, 0x0, 0x0, 0x0⟩]
def regPage4031 : List RegDesc := regPage4031_0
/-- The rows of page 0x4032. -/
def regPage4032_0 : List RegDesc := [
  ⟨0x40320000, [], 3, 3, 12, 0x0, 0xFFFFFFFF, 0x0, 0x0, 0x0, 0x0, 0x0, 0x0, 0x0⟩,
  ⟨0x40320004, [], 11, 11, 12, 0x0, 0xFFFFFFFF, 0x0, 0x0, 0x0, 0x0, 0x0, 0x0, 0x0⟩,
  ⟨0x40320008, [], 0, 0, 12, 0x0, 0x0, 0x0, 0x0, 0x0, 0x0, 0x0, 0x0, 0x0⟩,
  ⟨0x40320010, [], 0, 0, 1, 0x0, 0x0, 0x0, 0x0, 0x0, 0x0, 0x0, 0x0, 0x0⟩]
def regPage4032 : List RegDesc := regPage4032_0

/-- The rows of the page that holds an address. -/
def regPage (a : Nat) : List RegDesc :=
  match a / 0x10000 with
  | 0x4000 => regPage4000
  | 0x4001 => regPage4001
  | 0x4002 => regPage4002
  | 0x4003 => regPage4003
  | 0x4004 => regPage4004
  | 0x4005 => regPage4005
  | 0x4006 => regPage4006
  | 0x4007 => regPage4007
  | 0x4008 => regPage4008
  | 0x4009 => regPage4009
  | 0x400A => regPage400A
  | 0x400B => regPage400B
  | 0x400C => regPage400C
  | 0x400D => regPage400D
  | 0x400E => regPage400E
  | 0x4010 => regPage4010
  | 0x4011 => regPage4011
  | 0x4012 => regPage4012
  | 0x4013 => regPage4013
  | 0x4014 => regPage4014
  | 0x4015 => regPage4015
  | 0x4016 => regPage4016
  | 0x4017 => regPage4017
  | 0x4018 => regPage4018
  | 0x4020 => regPage4020
  | 0x4030 => regPage4030
  | 0x4031 => regPage4031
  | 0x4032 => regPage4032
  | _ => []

/-- Does an offset fall on an instance of the dimensions? -/
def matchDims : List (Nat × Nat) → Nat → Bool
  | [], off => off == 0
  | (c, st) :: ds, off => decide (off / st < c) && matchDims ds (off % st)

/-- The row of the register map at a word address. -/
def regDesc (a : Nat) : Option RegDesc :=
  (regPage a).find? fun d => decide (d.base ≤ a) && matchDims d.dims (a - d.base)

/-- The reset SEV of event e (R379). -/
def evSevReset (e : Nat) : Nat :=
  if e ≤ 4 || e == 641 then 7
  else if 8 ≤ e && e ≤ 15 then 6
  else if 16 ≤ e && e ≤ 29 then 5
  else if e == 163 || e == 164 || (168 ≤ e && e ≤ 231) then 4
  else if (160 ≤ e && e ≤ 162) || (288 ≤ e && e ≤ 310) || e == 640 then 3
  else if (33 ≤ e && e ≤ 159) || (232 ≤ e && e ≤ 287) || e == 312 || e == 313 then 2
  else if 504 ≤ e && e ≤ 639 then 1
  else 0

/-- The reset configuration byte of event e: SEV, and OFF 1 for a reserved code (R379). -/
def evcfgByte (e : Nat) : Nat := if evSevReset e == 0 then 8 else evSevReset e

/-- The reset word of REC_EVCFGw. -/
def evcfgWord (w : Nat) : Nat :=
  evcfgByte (4 * w) + 0x100 * evcfgByte (4 * w + 1) + 0x10000 * evcfgByte (4 * w + 2)
    + 0x1000000 * evcfgByte (4 * w + 3)

/-- What the GNSS unit holds in TYPE of streams 1 to 8 (R222). -/
def gnssType : Nat → Nat
  | 1 => 1 | 2 => 1 | 3 => 4 | 4 => 7 | 5 => 7 | 6 => 9 | _ => 0

/-- The reset word of the register at an address; 0 where there is none. TYPE, SRC_KIND and SRC_PORT of contexts 1 to 8 are the
GNSS unit's from reset on: SRC_KIND 5, port n - 1 (R33, R222; log entry 185). -/
def resetWord (a : Nat) : Word :=
  if 0x40051000 ≤ a && a < 0x40051400 then BitVec.ofNat 32 (evcfgWord ((a - 0x40051000) / 4))
  else if 0x40110100 ≤ a && a ≤ 0x40110800 && a % 0x100 = 0 then
    let n := a / 0x100 % 0x10
    BitVec.ofNat 32 (0x8000000 + 2 * gnssType n + 0x500 + 0x1000 * (n - 1))
  else
    match regDesc a with
    | some d => BitVec.ofNat 32 d.reset
    | none => 0

end Sys2Proof.Machine
end

