-- ==== Sys2Proof/Machine/State.lean ====
section
/-!
DEFINITION. The state of the block: the register file, the shadow copies, memory, device time, the hidden state of
every unit, what has left the device, and the queue of waiting commands. Plain data throughout.
-/
namespace Sys2Proof.Machine

/-- A register file: (word address, word), addresses strictly rising, no entry equal to the address's reset word. -/
abbrev RegFile := List (Nat × Word)
/-- Memory: (address, byte), addresses strictly rising, no entry equal to 0 (log entry 4). -/
abbrev Memory := List Host.Cell

/-- What leaves the device: frames, characters, levels, replies. Newest first (log entry 6). -/
inductive Output where
  /-- An Ethernet frame: port, destination and source address, EtherType with the 802.1Q tag above bit 16 if it has one, data, the
  stamp of its SFD. A kind below 0x600 is the protocol of an IPv4 packet (17 UDP, 2 IGMP), its data from behind the IPv4 header; kind
  0 is a whole frame that software built. -/
  | net (port dst src kind : Nat) (bytes : List Byte) (sfd : Stamp)
  /-- A heartbeat block on a guy line (0 A, 1 B). -/
  | heartbeat (line : Nat) (bytes : List Byte)
  /-- A checkpoint frame on P2 (R184, R266): the first 0x18 bytes of its data field, the bytes of checkpoint data behind them, and with
  the last frame the content of all (log entry 30). -/
  | checkpoint (head : List Byte) (size : Nat) (data : Option Ckpt)
  /-- A CAN data frame: controller, identifier, IDE, FDF, BRS, ESI, data (R270). -/
  | can (c ident : Nat) (ide fdf brs esi : Bool) (bytes : List Byte)
  /-- A character on a UART. -/
  | uart (p : Nat) (ch : Byte)
  /-- A Command Port reply: transport (0 SPI, 1 UART, 2 UDP), the source it answers on UDP, bytes. -/
  | reply (transport src : Nat) (bytes : List Byte)
  /-- A level on a ball: ball group (1 PPS, 3 PRST_OUT, 4 safe output, 5 GPIO), index, level (2 where it is no longer driven). -/
  | pin (group index level : Nat)
  /-- The ones density of a bitstream output, over 20 × 2^31, from an instant in half ns on (R178). -/
  | ones (index density at' : Nat)
  /-- A value on a thruster output: kind (1 bitstream, 2 CAN buffer), index, value. -/
  | drive (kind index : Nat) (v : Word)
  deriving DecidableEq, Repr

/-! Time base (14_time). -/

/-- A time reference (R241): its latest offset in ns, when, whether refused, its sigma in ns; where the loop measures its
frequency from (R242): an offset, the count then in 2^-32 ns, the ticks counted then. -/
structure RefSt where
  ofs : Int
  since : Option Nat
  refused : Bool
  sigma : Nat
  mark : Option (Int × Nat × Nat)
  deriving DecidableEq, Repr

/-- A PTP port's hidden state (R241, R248). -/
structure PtpPort where
  /-- Two-step Sync waiting for its Follow_Up: sequence, arrival time. -/
  syncWait : Option (Nat × Nat)
  /-- Outstanding Delay_Req: sequence, egress time. -/
  dreq : Option (Nat × Nat)
  /-- The last Sync's origin time and arrival (for the delay computation). -/
  lastSync : Option (Nat × Nat)
  /-- Outstanding Pdelay_Req: sequence, t1. -/
  pdreq : Option (Nat × Nat)
  /-- Two-step Pdelay: sequence, t1, t2, t4. -/
  pdwait : Option (Nat × Nat × Nat × Nat)
  /-- A delay measurement has completed since the port entered SLAVE. -/
  mpdKnown : Bool
  /-- The last 16 offsets, newest first. -/
  offs : List Int
  /-- Per sender the latest Announce, when it arrived, and when the one before it did (R248). -/
  anns : List (AnnMsg × Nat × Option Nat)
  /-- The latest Announce of the port's master (R243, R249). -/
  master : Option AnnMsg
  lastAnn : Nat
  lastSyncAt : Nat
  seqSync : Nat
  seqAnn : Nat
  seqDreq : Nat
  seqPd : Nat
  deriving DecidableEq, Repr

/-- A PPS output (R252): whether a pulse is up and its ticks left; the count of the latest edge; the count a step set, after
which no edge comes for half a period; whether the next edge is late by erratum XE-01. -/
structure Pps where
  high : Bool
  ticks : Nat
  last : Option Nat
  step : Option Nat
  late : Bool
  deriving DecidableEq, Repr

/-- Device time and what disciplines it. -/
structure TimeBase where
  /-- The 64-bit ns count at the present instant and the 32-bit fraction at the latest tick (R10, R239). -/
  count : BitVec 64
  frac : BitVec 32
  /-- The ns of the count that have passed since the latest tick (log entry 231), and the ticks so far. -/
  sub : Nat
  ticks : Nat
  /-- The count at the latest tick (R17). -/
  t0 : Nat
  gnss : RefSt
  ptp : RefSt
  /-- Remaining offset of a running slew, in 2^-32 ns. -/
  slewRem : Int
  /-- The increment without the phase term, and the phase term added to it, in 2^-32 ns (R242). -/
  freq : Int
  phase : Int
  /-- TIME_OFS measured since the last step (R244). -/
  measured : Bool
  /-- sigma at the last measurement, and its time (ACC in HOLDOVER). -/
  sigmaLast : Nat
  sigmaAt : Nat
  ports : List PtpPort
  pps : List Pps
  /-- Capture FIFOs, oldest first: (stamp, fine). -/
  tcap : List (List (Stamp × Nat))
  /-- Per input the last stamped edge (edges closer than 100 ns give one stamp) and the last edge of all, in 1/4 ns (R253). -/
  tcapLast : List (Option Nat)
  tcapEdge : List (Option Nat)
  /-- UTC midnight of the pending leap second, as a device-time count. -/
  leapAt : Nat
  /-- Some reference has given TAI_UTC since reset (R247). -/
  leapRef : Bool
  /-- The service watchdog: ns left, when running (R366). -/
  wdog : Option Nat
  deriving DecidableEq, Repr

/-! Recorder (23_recorder). -/

/-- A record in the store (R376). -/
structure Rec where
  seq : BitVec 32
  kind : Nat
  sev : Nat
  snapbad : Bool
  stamp : Stamp
  evt : Nat
  cause : Word
  data : Word
  cyc : Word
  node : Nat
  vals : List Word
  deriving DecidableEq, Repr

/-- Triggers coalesced while a loaf is written (R381): first event, greatest SEV, number. -/
structure Coal where
  evt : Nat
  sev : Nat
  num : Nat
  cause : Word
  deriving DecidableEq, Repr

/-- The recorder's hidden state. -/
structure Recorder where
  /-- The store, oldest first. -/
  recs : List Rec
  /-- SEQ of the loaf being written. -/
  writing : Option (BitVec 32)
  /-- The loaf being written is a follow-on loaf. -/
  followOn : Bool
  coal : Option Coal
  /-- A clear met the loaf being written: it is freed when its write ends (R384). -/
  clearWriting : Bool
  deriving DecidableEq, Repr

/-! Interrupt controller (22_interrupts). -/

/-- A ring (R371): head, tail modulo 2 × size, sequence, the claimed record's place. -/
structure Ring where
  seq : Byte
  /-- Sources in the ring, oldest first, with the time of enqueue; claimed ones stay until completed. -/
  held : List (Nat × Nat)
  claimed : Bool
  deriving DecidableEq, Repr

/-- A processor's interrupt state (R370). -/
structure Proc where
  stack : List Nat
  rings : List Ring
  doze : Bool
  /-- The processor took its line and has not set IE since. -/
  entered : Bool
  deriving DecidableEq, Repr

/-- The controller's hidden state: the processors, and when each source's MASK last went 0 to 1. -/
structure Ic where
  procs : List Proc
  maskAt : List (Nat × Nat)
  deriving DecidableEq, Repr

/-! Clocks, power, reset, boot, OTP (20, 21). -/

/-- The reset kinds in the order of R364, from the one that loses most. -/
inductive ResetKind where
  | powerOn | brownOut | pin | partner | watchdog | soft | deepWake
  deriving DecidableEq, Repr

/-- How far boot has come (R350). -/
inductive BootStage where
  | held | straps | boot | verified | firmware | done
  deriving DecidableEq, Repr

/-- Clock, power and boot state. -/
structure Power where
  /-- Consecutive good REFCLK windows (R354). -/
  goodWin : Nat
  /-- REFCLK is running, so the AON shadow counts (R246). -/
  refRuns : Bool
  /-- Domains powering up, with the instant each reaches ON (R350, R357). -/
  rising : List (Nat × Nat)
  /-- Until when the service firmware rewrites registers of a domain that reached ON (R358). -/
  restoreEnd : Nat
  deep : Bool
  /-- A device reset is asserted, of this kind. -/
  inReset : Option ResetKind
  /-- Device time when the reset was asserted (R362). -/
  heldAt : Nat
  stage : BootStage
  /-- Slot B: tried first at this boot, and once firmware has started, the slot it started from (R349). -/
  slotB : Bool
  /-- The slot that passed: 0 A, 1 B, 2 none. -/
  bootSlot : Nat
  /-- PRST_OUT driven low. -/
  prst : Bool
  image : ImageCfg
  deriving DecidableEq, Repr

/-- OTP array, flash and image staging (19_command_port, 20_map_otp_boot): OTP bytes that are not 0, the staging copy of the
configuration block, flash bytes that are not 0xFF by flash offset; the size an IMG_BEGIN gave (none: empty), the bytes
received, the staging buffer's bytes that are not 0xFF; the committed image's bytes and size with its PSIG. -/
structure Nvm where
  otp : List Host.Cell
  otpStage : List Host.Cell
  flash : List Host.Cell
  imgSize : Option Nat
  imgRecv : Nat
  imgBuf : List Host.Cell
  imgOpen : Bool
  commit : Option (List Host.Cell × Nat × Word)
  deriving DecidableEq, Repr

/-! Streams and the fusion engine (02 to 05). -/

/-- A queue entry of 64 bytes (R36). -/
structure Entry where
  arr : Stamp
  stamp : Stamp
  typ : Nat
  flags : Nat
  srcTime : BitVec 64
  vals : List Word64
  qual : Word
  seq : BitVec 16
  deriving DecidableEq, Repr

/-- An offset tracker (R54). -/
structure Tracker where
  m : Int
  mx : Int
  a0 : Int
  ofs : Int
  perLearned : Nat
  deriving DecidableEq, Repr

/-- A stream context's hidden state. -/
structure Stream where
  queue : List Entry
  /-- The latched sample, its sample stamp (R49), and whether it is new in the cycle image (R52). -/
  latched : Option Entry
  latchedAt : Stamp
  latchedNew : Bool
  /-- The returns latched at the snap (R38). -/
  returns : List (Entry × Stamp)
  seq : BitVec 16
  firstSnap : Bool
  trk : Tracker
  fdMark : Bool
  /-- Rejected (R71). -/
  rejected : Bool
  /-- Taut-wire weight set (R72): north, east. -/
  weight : Option (Word64 × Word64)
  /-- FE_SC_CFG in the cycle image; EN was cleared since that snap (R34). -/
  cfg : Word
  cut : Bool
  /-- Reference-bias states granted at the start of RUN (R63). -/
  nbias : Nat
  deriving DecidableEq, Repr

/-- A GST waiting to be merged (R41): source (kind, port), talker, arrival, UTC of fix (time of day), whether it carried a checksum,
the two sigmas. -/
structure GstWait where
  kind : Nat
  port : Nat
  talker : BitVec 16
  arr : Int
  utc : Option Int
  sum : Bool
  sig : List Word64
  deriving DecidableEq, Repr

/-- A UART's hidden state (R42). -/
structure Uart where
  rx : List Byte
  /-- The transmit FIFO: each character and the instant it has left. -/
  tx : List (Byte × Nat)
  /-- The sentence or frame in progress, the instant of its first start bit, whether a bad character was dropped from it. -/
  part : List Byte
  partAt : Nat
  partBad : Bool
  lastChar : Nat
  deriving DecidableEq, Repr

/-- A Zaley peer (R47). -/
structure Peer where
  node : Nat
  state : Nat
  sigMatch : Bool
  persona : Nat
  level : Nat
  parent : Nat
  mac : Nat
  last : Nat
  deriving DecidableEq, Repr

/-- A fast packet under assembly (R44): controller, sender, PGN, packet number, next frame, length, the instant of its first frame
and that frame's stamp, the bytes so far. -/
structure FastPkt where
  ctl : Nat
  sa : Nat
  pgn : Nat
  seq : Nat
  next : Nat
  len : Nat
  start : Nat
  arr : Stamp
  data : List Byte
  deriving DecidableEq, Repr

/-- Streams, UARTs, discovery. -/
structure Fe where
  streams : List Stream
  gst : List GstWait
  /-- Datagrams and frames of the last 100 ms (R43, R267): (kind, source, counter), when. -/
  dedupe : List ((Nat × Nat × Nat) × Nat)
  uarts : List Uart
  peers : List Peer
  fast : List FastPkt
  deriving DecidableEq, Repr

/-- A projected measurement of the cycle image (R59). -/
structure Proj where
  stream : Nat
  typ : Nat
  isNew : Bool
  vals : List Word64
  deriving DecidableEq, Repr

/-- A projected return (R59, R82): its NED and body vectors relative to the CO, the NED unit vector of its line of sight, range,
code, quality, stamp. -/
structure Ret where
  stream : Nat
  code : Nat
  qual : Nat
  ned : List Word64
  body : List Word64
  los : List Word64
  rng : Word64
  stamp : Stamp
  deriving DecidableEq, Repr

/-- One measurement update of a cycle (R67): stream, type, the measured value, its sigmas. -/
structure Upd where
  stream : Nat
  typ : Nat
  y : List Word64
  sig : List Word64
  deriving DecidableEq, Repr

/-- The estimator (R62 to R78). -/
structure Est where
  x : List Word64
  p : List (List Word64)
  inited : Bool
  resetReq : Bool
  /-- A position reset is due at this cycle's updates, and one has been made in this stay in Q3 or Q4 (R75). -/
  posReset : Bool
  settled : Bool
  /-- When DR began (R74), and the last snap instant the state was propagated to. -/
  drAt : Option Nat
  lastSnap : Nat
  /-- Consecutive snaps of the better condition. -/
  upCnt : Nat
  /-- The step the condition of the latest snap gives. -/
  cond : Nat
  /-- The time update is running; the updates still to do, the first one running. -/
  timeUpd : Bool
  todo : List Upd
  /-- The estimator has work this cycle that PH_SK has not ended. -/
  running : Bool
  projDone : Bool
  proj : List Proj
  rets : List Ret
  /-- Roll, pitch, heading, roll rate, pitch rate and rate of turn of the batch; is there a heading? -/
  att : List Word64
  hdOk : Bool
  /-- The origin before station-keeping loads one (R58). -/
  org : Option (List Word64)
  /-- The published estimate of the previous cycle is valid; its N and E at this snap (R84). -/
  published : Bool
  pubPrev : Option (List Word64)
  /-- Force the allocation produced in the previous cycle (R64). -/
  tau : List Word64
  /-- Point velocities of TDCP: antenna, velocity in NED, sigma (R78, R223). -/
  tdcp : List (Nat × List Word64)
  /-- Body positions of the fixed-target tracks at a snap, and its instant (R78). -/
  fixPrev : List (Nat × List Word64)
  fixAt : Nat
  /-- The rate of turn and its sigma that the running ego-motion solution takes from a ROT stream (R78). -/
  egoRot : Option (Word64 × Word64)
  /-- The sigmas of the latest ego-motion solutions, by their samples' SRC_TIME (R66). -/
  egoSig : List (BitVec 64 × List Word64)
  deriving DecidableEq, Repr

/-- Survey adjustment (R79 to R81): snaps counted towards the next epoch, since when a run goes on, whether its job waits to be
submitted again and the cycle of its refusal, linearisations done; the values the run began from (stream, its twelve descriptor values, its bias values), the
sum of the corrections per unknown, the unknowns found unobservable; the proposal; the biases that the next snap sets. -/
structure Survey where
  decim : Nat
  runAt : Option Nat
  again : Bool
  againCyc : Word
  lin : Nat
  base : List (Nat × List Word64 × List Word64)
  corr : List Word64
  unobs : List Nat
  prop : List (Nat × List Word64 × List Word64)
  due : List (Nat × List Word64)
  deriving DecidableEq, Repr

/-- The tracker (05). -/
structure Track where
  tracks : List Trk
  /-- The pass of this cycle is one in ASSIGN mode (R88, R89). -/
  passAssign : Bool
  /-- A cost matrix of this cycle waits for its launch at PH_CKPT (R89). -/
  asReady : Bool
  /-- NN mode begins at the next snap (R90). -/
  toNn : Bool
  /-- The rows and returns of the assignment being prepared or running: track or 64 + entry. -/
  rows : List Nat
  cols : List Ret
  /-- The CO positions tracks gave at this snap: stream, (N, E), sigmas (R91). -/
  yields : List Upd
  /-- The latest of them per stream, the lowest track's (R70). -/
  latest : List Upd
  lastPass : Nat
  deriving DecidableEq, Repr

/-! Jobs (07). -/

/-- A number of the solver: a binary64, and whether it or a value it was computed from saturated (R124). -/
structure SNum where
  v : Word64
  sat : Bool
  deriving DecidableEq, Repr

/-- A QP_ACTIVE problem (R111): H by rows, f, the rows (coefficients · x at most the bound, the first `neq` equal to it), and
the bounds of the variables, where one stands. -/
structure QpProb where
  h : List (List Word64)
  f : List Word64
  rows : List (List (Nat × Word64) × Word64)
  neq : Nat
  lo : List (Option Word64)
  hi : List (Option Word64)
  deriving DecidableEq, Repr

/-- The operands of a job as it loaded them (R110, R111): LSQ_DENSE the columns of A, and b; LSQ_SPARSE the columns of AᵀA by
row, and Aᵀb; QP_ACTIVE; ASSIGN the costs by rows and the unassigned costs; KF_UPDATE x, P, H, innovation and noise, or with no
innovation Φ and Q in place of H and noise. Kinds 6 and 7, and a job not yet dispatched, hold none. -/
inductive Prob where
  | empty
  | lsq (a : List (List Word64)) (b : List Word64)
  | normal (a : List (List (Nat × Word64))) (b : List Word64)
  | qp (q : QpProb)
  | assign (cost : List (List Word64)) (un : List Word64)
  | kf (x : List Word64) (p h : List (List Word64)) (nu : List Word64) (r : List (List Word64))
  deriving DecidableEq, Repr

/-- Where a solver stands: the point; the multipliers of the last active-set step by constraint, or an auction's prices by
column; the working set; the column each row of an auction holds. -/
structure Sol where
  x : List SNum
  lam : List (Nat × SNum)
  work : List Nat
  own : List (Option Nat)
  deriving DecidableEq, Repr

/-- An iterate of a job: its number, merit, residual and output words, the multipliers by constraint and the working set,
whether a saturated value reached it (R117, R124). -/
structure Iter where
  k : Nat
  merit : Word64
  resid : Word64
  x : List Word64
  lam : List (Nat × Word64)
  act : List Nat
  sat : Bool
  deriving DecidableEq, Repr

/-- A job of the fabric (R109 to R130). -/
structure Job where
  ident : Nat
  /-- Submit index, 15 for an internal unit. -/
  proc : Nat
  /-- The internal unit's purpose: 0 software, 1 estimator, 2 tracker pass, 3 track assignment, 4 ego-motion, 5 survey,
  6 allocation, 7 projection. -/
  unit : Nat
  tag : Nat
  kind : Nat
  cls : Nat
  conv : Nat
  iters : Nat
  iterMin : Nat
  tol : Word64
  aux : Word
  deadline : Stamp
  hasDl : Bool
  inAddr : Nat
  outAddr : Nat
  recAddr : Nat
  stAddr : Option Nat
  starter : Option (List Word64)
  irq : Bool
  dimN : Nat
  dimM : Nat
  /-- 0 waiting for a slot, 1 admitted, waiting for a unit, 2 running, 3 suspended. -/
  status : Nat
  waited : Bool
  submitAt : Nat
  firstAt : Option Nat
  lanes : List Nat
  done : Nat
  nreg : Nat
  npre : Nat
  ranNs : Nat
  sinceAt : Nat
  best : Option Iter
  /-- Flags of the record gathered so far. -/
  flags : Nat
  /-- Suspended or ended inside a factorisation; panels of the first factorisation done. -/
  atPanel : Bool
  panels : Nat
  /-- An abort is pending: its reason. -/
  abort : Option Nat
  /-- The outcome a check point found: status, reason. -/
  ending : Option (Nat × Nat)
  /-- EPS_SH, REG_SH and RHO as they stood at its admission (07, registers). -/
  epsSh : Nat
  regSh : Nat
  rho : Word64
  /-- Its operands, those that its first factorisation was made of, where its solver stands, and the columns that received a
  regularised pivot. -/
  prob : Prob
  fact : Prob
  sol : Sol
  reg : List Nat
  deriving DecidableEq, Repr

/-- A submission held on a full queue (R114): through a submit index with its descriptor's address, or an internal unit's. -/
inductive Held where
  | bus (x a : Nat)
  | port (j : Job)
  deriving DecidableEq, Repr

/-- The job fabric. -/
structure Jobs where
  /-- Jobs in submission order. -/
  jobs : List Job
  nextId : Nat
  /-- Submissions held on a full queue, oldest first (R114). -/
  held : List Held
  /-- Since when each lane group has been idle. -/
  idleAt : List Nat
  /-- The latest record each internal unit received through its own port (R115; log entry 167): unit, its 32 bytes. -/
  inRecs : List (Nat × List Byte)
  deriving DecidableEq, Repr

/-! Allocation (08). -/

/-- A term of an objective: half the weight times the square of (coefficients · u − target). -/
structure QTerm where
  w : Word64
  coef : List (Nat × Word64)
  target : Word64
  deriving DecidableEq, Repr

/-- A row of a problem: coefficients · u at most (or equal to) the bound, and its constraint ID (R143). -/
structure QRow where
  coef : List (Nat × Word64)
  bound : Word64
  ident : BitVec 16
  deriving DecidableEq, Repr

/-- A problem of the chain in scaled units (R138 to R140): variables with slacks, objective, rows, equalities, lower and
upper bounds, starter. -/
structure Qp where
  n : Nat
  terms : List QTerm
  rows : List QRow
  eqs : List QRow
  lo : List (Word64 × BitVec 16)
  hi : List (Word64 × BitVec 16)
  start : List Word64
  deriving DecidableEq, Repr

/-- A row of a slot's region in newtons: coefficients · F at most `hi`. -/
structure LRow where
  coef : List Word64
  hi : Word64
  ident : BitVec 16
  deriving DecidableEq, Repr

/-- A latched slot (R133 to R136): slot and type, its output, scale and FMAX, why it is fixed at zero (kind 9 index), the
previous azimuth, whether it lies outside every allowed arc and the turn R144 then makes, the previous staged force, the
working arc (start, length), the rows of cone, capacity and rate, the bounds with their IDs, the bounds without rate
narrowing, the envelope polygon, and what the staging check compares with: the SLT and sectors of the record. -/
structure ASlot where
  k : Nat
  typ : Nat
  node : Nat
  idx : Nat
  scale : Word64
  fmax : Word64
  fix : Option Nat
  th : Word64
  excl : Bool
  turn : Word64
  fp : List Word64
  w : Option (Word64 × Word64)
  cone : List LRow
  mag : List LRow
  rate : List LRow
  lo : List (Word64 × BitVec 16)
  hi : List (Word64 × BitVec 16)
  hardLo : List Word64
  hardHi : List Word64
  poly : List (List Word64)
  slt : Word
  sects : List (Word × Word)
  deriving DecidableEq, Repr

/-- Allocation's hidden state: slots marked by ALC_COMMIT; previous azimuth commands; the records held and the envelopes
latched at the snap, with its instant; the latched slots, demand and enabled DOFs; the running pass (0, tiers 1 to 4,
final 5), passes so far, the problem, values fixed by earlier tiers, binding IDs found per DOF; the chain runs, since when;
the force frame last accepted (CYC and term), whether one was accepted in this cycle, and its force; the staged and the
previous commands, and the AUTH flag the latter carried; consecutive misses; a head's stop (R30); what was done in this
cycle: launched, the commands then sent to other nodes and whether flagged as repeated (R185), envelope published; and the
shortfall of the latest chain. -/
structure Alc where
  marks : List Nat
  theta : List Word64
  records : List InRec
  envSnap : List InRec
  envAt : Nat
  slots : List ASlot
  tau : List Word64
  dofs : List Nat
  pass : Nat
  count : Nat
  qp : Option Qp
  fixed : List (Nat × Word64)
  binds : List (Nat × List (BitVec 16))
  running : Bool
  latchAt : Nat
  acc : Option (Word × Word)
  accNow : Bool
  force : List Word64
  staged : List Cmd
  stagedOk : Bool
  previous : List Cmd
  prevAuth : Bool
  misses : Nat
  stopped : Bool
  launched : Bool
  sent : List Cmd
  rep : Bool
  envDone : Bool
  sf : List Word64
  deriving DecidableEq, Repr

/-! Servo, encoders, capture (09). -/

/-- An injection's parameters, latched at its start (R161). -/
structure Inj where
  wave : Nat
  point : Nat
  prbsN : Nat
  hold : Nat
  amp : Int
  f0 : Word
  f1 : Word
  dur : Nat
  deriving DecidableEq, Repr

/-- A servo loop's hidden state. -/
structure Loop where
  /-- Pending state request (1 ENABLE, 2 DISABLE, 3 OPEN, 4 CLOSE) and pending COMMIT (R158). -/
  pend : Option Nat
  commitPend : Bool
  /-- The instant of the latest period start. -/
  perAt : Nat
  /-- The period start whose output has been written (R151), and whether SAFE_OUT of a DISABLE is still to be written (R157). -/
  outAt : Option Nat
  offDue : Bool
  /-- The open output and register setpoint applied at the latest period start. -/
  openOut : Int
  sp : Int
  lim : Int
  fb : Int
  integ : Int
  d : Int
  /-- The latest output and its instant, and the one before (R153); the feedback of the latch before (R160). -/
  u : Int
  uAt : Nat
  uOld : Int
  fbPrev : Int
  /-- The feedback source changed since the latest latch; a plausibility trip waits for the period start (R157, R159). -/
  fbNew : Bool
  tripDue : Bool
  ym : Int
  plausN : Nat
  holdN : Nat
  /-- When an entry was last taken, and an entry whose tick came and that waits for this slower loop (R152). -/
  spAt : Nat
  due : Option Nat
  /-- The sticky flags as last set, and whether one was cleared since the source was raised (R156). -/
  flagSeen : Nat
  flagArm : Bool
  /-- A running injection, its periods so far; one armed and waiting. -/
  inj : Option Inj
  injK : Nat
  injArmed : Bool
  injVal : Int
  /-- Positions at the latest latches, newest first, with their validity (R159). -/
  avg : List (Int × Bool)
  /-- Active and shadow tables (R155). -/
  fric : List (Nat × Word)
  cog : List (Nat × Word)
  fricSh : List (Nat × Word)
  cogSh : List (Nat × Word)
  deriving DecidableEq, Repr

/-- A capture unit (R162): the samples of each channel, newest last; triggered?; periods counted per channel; the next
slot; the buffer held. -/
structure Capture where
  chans : List (List Word)
  trig : Bool
  post : List Nat
  count : List Nat
  slot : Nat
  buf : List Word
  deriving DecidableEq, Repr

/-- An encoder's latest SSI frame (R163): its start and end, and whether it has counted LATE_CNT. -/
structure Ssi where
  start : Nat
  till : Nat
  late : Bool
  deriving DecidableEq, Repr

/-- The servo engine: loops, capture units, per encoder the loops (a bit each) whose next latch finds it invalid (R163), per command
entry when it was written and whether its first tick lies ahead (R152), the latest servo tick, per encoder its latest SSI
frame. -/
structure Servo where
  loops : List Loop
  caps : List Capture
  encs : List Nat
  entries : List (Nat × Bool)
  tickAt : Nat
  ssi : List (Option Ssi)
  deriving DecidableEq, Repr

/-! Filter chain (10). -/

/-- A filter channel's hidden state (R165, R173 to R176). -/
structure Dsf where
  /-- Coefficients of banks A and B: key IDX + 128 × STAGE. -/
  bankA : List (Nat × Word)
  bankB : List (Nat × Word)
  /-- The latest bits, newest first; FIR delay lines of stage A and B, per bank, newest first. -/
  bits : List Bool
  lineA : List (List Int)
  lineB : List (List Int)
  /-- Sinc outputs the detectors still skip; squares summed and counted in the running RMS block. -/
  skip : Nat
  rmsSum : Nat
  rmsN : Nat
  /-- Proofed samples since the last stream entry. -/
  div : Nat
  /-- The instant of the next output sample, in half ns. -/
  nextAt : Nat
  /-- A bank request not yet taken, and the samples of a fade. -/
  req : Option Bool
  fadeK : Nat
  /-- A threshold was written while unproofed (erratum XE-04). -/
  xe04 : Bool
  /-- Bits [47:32] of the latest sample's stamp (R167). -/
  tsHi : BitVec 16
  /-- Proofing samples left (R168); bits of the test pattern taken (R164). -/
  left : Nat
  pat : Nat
  /-- The ones density of bitstream output n, over 20 × 2^31 (R178). -/
  ones : Nat
  deriving DecidableEq, Repr

/-! Pair (11). -/

/-- A guy line: the spans in which valid heartbeats arrived or were in flight, whether it is live, consecutive silent
periods, consecutive periods not silent since it was lost (R183). -/
structure Line where
  heard : List (Nat × Nat)
  live : Bool
  silent : Nat
  back : Nat
  deriving DecidableEq, Repr

/-- A checkpoint being sent (R184, R266): cycle, size, the start of its first frame, its last frame's end, frames that have started,
whether P2 carries them, content. -/
structure CkSend where
  cyc : Word
  total : Nat
  start : Nat
  till : Nat
  sent : Nat
  up : Bool
  data : Ckpt
  deriving DecidableEq, Repr

/-- The partner pair's hidden state: the lines; the start of the period now judged; consecutive periods silent on both
lines; when a valid heartbeat last showed a driving partner; the last valid heartbeat, and the term it carried; t_d and the upper halves of the two
stamps; the checkpoint held with its size, the one under reception (cycle, next frame), the one being sent;
heartbeat sequence; GNSS refresh; AUTH_REQ of the checkpoint loaded at a seizure (R198); a first cycle is due that
resumes (R194); a TERM relay is due (R190). -/
structure Ha where
  lines : List Line
  perAt : Option Nat
  bothN : Nat
  pDriveAt : Option Nat
  lastHb : Nat
  pTerm : Option (Word × Nat)
  tdAt : Nat
  tdHi : BitVec 16
  lhbHi : BitVec 16
  ckHeld : Option (Ckpt × Nat)
  ckRecv : Option (Word × Nat)
  ckSkip : Option Word
  ckSend : Option CkSend
  seq : Byte
  refreshAt : Nat
  refreshing : Bool
  ckAuth : Bool
  resume : Bool
  relayDue : Option Nat
  holdTx : Bool
  deriving DecidableEq, Repr

/-! Lattice (12). -/

/-- A check channel (R208, R211): ns of violation seen without a gap, SLT and SSE, by the lattice and by the safety core;
since when each sector and the output limit are in grace; evaluations with an invalid receiver. -/
structure KzCh where
  sltL : Nat
  sltC : Nat
  sseL : Nat
  sseC : Nat
  graceAt : List (Option Nat)
  sltGraceAt : Option Nat
  encBad : Nat
  /-- The encoder receiver (R203): its position, whether it is valid, and the last levels of A and B. -/
  pos : Nat
  posOk : Bool
  ab : Option (Bool × Bool)
  deriving DecidableEq, Repr

/-- The lattice's and the safety core's hidden state. -/
structure Kz where
  chans : List KzCh
  /-- Lattice and safety-core switches, per output: closed? -/
  swL : List Bool
  swC : List Bool
  /-- The latest twin frame for this device was accepted single-channel; faults latched; the readback condition, per output
  its ns and the outputs it opened (R201). -/
  single : Bool
  latched : Nat
  rbNs : List Nat
  rbOut : Nat
  /-- When DEGRADED began, and since when no fault is active (R200). -/
  degAt : Nat
  clrAt : Nat
  /-- The latest accepted command frame: when, and its AUTH bit (R198). -/
  authAt : Option Nat
  lastAuth : Bool
  /-- The latest safety core heartbeat. -/
  scAt : Nat
  /-- ns of differing verdicts; ns all outputs in use have read back low; a differing rate verdict. -/
  cmpNs : Nat
  lowNs : Nat
  srtDiff : Bool
  /-- Since when each pair is discrepant (R215). -/
  discAt : List (Option Nat)
  /-- Blocks of rate above the limit, by the lattice and by the core (R212); publications above SPE_RTRIP (R213). -/
  srtL : Nat
  srtC : Nat
  speN : Nat
  /-- The rate input (R201, R212): its latest bits, newest first; clocks since the last decimation, since the last transition
  and beyond ±0.95 of full scale; the sum and number of the decimated samples of the running block; the last block's mean. -/
  rBits : List Bool
  rPhase : Nat
  rStill : Nat
  rOver : Nat
  rSum : Int
  rN : Nat
  rAvg : Int
  /-- The first frame of off-pulses after arming, with the outputs that have still to pass in it (R216); the safety parameter block
  last written (R218). -/
  optFirst : Option (Nat × Nat)
  block : List (Nat × Word)
  deriving DecidableEq, Repr

/-! GNSS (13). -/

/-- The receiver's state beyond the registers: per path the quiet floor and gain of the last JI_CAL, dB (R234), the
present ones, whether the next rise through JI_WARN raises its source; queued searches as request and Doppler words, the one
running with its start and whether the sequencer planned it (R224, R225); since when each LOST channel is lost (R226); the
keep memory: settings of GN_CONFIG, ephemerides in use as (system, SV, issue), whether an almanac is held (R228, R237); the
broadcast GPS-Galileo offset and when it came (R230); the last time solution and its sigma (R235); when the receiver went to
sleep; the last position and velocity, the inter-system offsets and the clock model of the keep memory (R237): the receiver clock's
offset and drift and GLONASS's biases (R230); the latest supported RTCM messages: number, arrival, bytes (R45); a refused time
solution later than the last one, with its sigma (R235); the latest search of the windbreaks and computation of the indicators
(R233, R234). -/
structure Gnss where
  quiet : List (Option (Int × Int))
  level : List (Int × Int)
  jiArmed : List Bool
  acq : List (Word × Word)
  searching : Option (Word × Word × Nat × Bool)
  lostAt : List (Nat × Nat)
  keep : List (Nat × Word)
  eph : List (Nat × Nat × Nat)
  almanac : Bool
  ggto : Option (Word × Nat)
  solAt : Nat
  sigma : Nat
  sleepAt : Option Nat
  lastPos : List Word64
  lastVel : List Word64
  iso : List Word
  corr : List (Nat × Nat × List Byte)
  clk : Word64 × Word64
  bias : List Word
  refused : Option (Nat × Nat)
  wbAt : Nat
  jiAt : Nat
  deriving DecidableEq, Repr

/-! Networks (15). -/

/-- What a frame takes with it as it leaves (R249): nothing; a Sync its originTimestamp; a Pdelay_Resp the time since its request came
in its correctionField, on top of the request's (in 2^-16 ns); a Delay_Req or Pdelay_Req its egress time, which its port keeps; a
Command Port reply the source it answers. -/
inductive TxFill where
  | none
  | sync
  | pdResp (rx : Nat) (corr : Int)
  | dreq (seq : Nat)
  | pdreq (seq : Nat)
  | reply (src : Nat)
  deriving DecidableEq, Repr

/-- A transmit queue entry: launch time if any, whether it is the one the copies of a twin frame share, destination, kind as in
Output.net, bytes, the software descriptor whose status is written back, from when on it may start, what it takes as it leaves (R249,
R250, R258, R268). -/
structure TxEnt where
  launch : Option Stamp
  auto : Bool
  dst : Nat
  kind : Nat
  bytes : List Byte
  desc : Option Nat
  since : Nat
  fill : TxFill
  deriving DecidableEq, Repr

/-- A pending twin entry (R260, R261): the frame's source, BOOT and SEQ, its bytes, the network of its first copy (0 A,
1 B), when it opened, TWIN_WIN, whether the gate discarded it, whether it was delivered on its first copy. -/
structure TwinPend where
  src : Nat
  boot : Nat
  seq : Nat
  bytes : List Byte
  net : Nat
  openAt : Nat
  win : Nat
  dead : Bool
  done : Bool
  deriving DecidableEq, Repr

/-- The plant networks' hidden state: transmit queues, when each port's transmitter is free, pending twin entries, the
recorded (source, BOOT, SEQ), the twin sequence, the cycle each telemetry set last went out in, when each port's next HELLO is due
(R258). -/
structure Net where
  tx : List (List TxEnt)
  busy : List Nat
  twin : List TwinPend
  seen : List (Nat × Nat × Nat)
  seq : BitVec 32
  tlmAt : List (Option Word)
  helloAt : List (Option Nat)
  deriving DecidableEq, Repr

/-! CAN (16). -/

/-- A slot in progress (R276): its buffer, when its window ends, attempts so far, the SOF of the attempt under way, the
payload once copied (R274), the last failure (1 acknowledge, 2 lost arbitration, 3 other), a cancel that came too late to
stop the attempt (R280), and the reference's row byte (R278). -/
structure CanSlot where
  buf : Nat
  winEnd : Nat
  tries : Nat
  sof : Option Nat
  copy : Option (List Byte)
  fail : Nat
  late : Bool
  refRow : Option Nat
  deriving DecidableEq, Repr

/-- A controller's hidden state: the slot in progress, requested event buffers, acknowledge errors in a row with no frame
received (R279), buffers whose frame was not read, the address this unit holds (R282), the column opening last handled, the
foreign reference's instant and row (R278), whether bus-off recovery may run (R270), the matrix words the running basic cycle
still uses: address, start of the cycle, word; and whether the claim and request of a start wait for the recovery (R282). -/
structure Can where
  slot : Option CanSlot
  evReq : List Nat
  ackRun : Nat
  unread : List Nat
  sa : Nat
  colAt : Option Nat
  refAt : Nat
  refRow : Option Nat
  recover : Bool
  held : List (Nat × Nat × Word)
  greet : Bool
  deriving DecidableEq, Repr

/-! Block Engines (17, 18). -/

/-- A task's running context (R302). -/
structure Ctx where
  g : List Word64
  iptr : BitVec 24
  pc : BitVec 17
  sat : Bool
  inv : Bool
  stack : List (BitVec 17 × BitVec 24)
  deriving DecidableEq, Repr

/-- A task's hidden state: its context, the instant of the latest release handled since EN, taken or skipped, the short stamp
of the latest release taken and its instant, whether its run has begun, whether its next output copy is the first (R289), and
what each MODE 1 entry wrote last, by its place in the I/O map. -/
structure Task where
  ctx : Ctx
  handled : Option Nat
  stamp : Stamp
  relAt : Nat
  begun : Bool
  first : Bool
  last : List (Nat × List Byte)
  deriving DecidableEq, Repr

/-- A copy the image mover has to make (R289): when it was requested, its task's PRIO, the task, its direction, the entries left with
their places in the map, and whether the mover is at it. -/
structure Copy where
  req : Nat
  prio : Nat
  task : Nat
  out : Bool
  left : List (IoEnt × Nat)
  begun : Bool
  deriving DecidableEq, Repr

/-- A force (R298): its entry of the force table, symbol ID, area, log2 size, type class, address, value. -/
structure Force where
  slot : Nat
  ident : Word
  area : Bool
  size : Nat
  cls : BitVec 4
  addr : Nat
  val : Word64
  deriving DecidableEq, Repr

/-- The block runtime: the tasks, the active program set, a committed one that waits in the inactive halves, the image content
it came with, the active area, copies requested and when the mover is free, the forces, since when an activation waits, since when
the switch runs, the force requests written during it (operation, symbol ID, value),
intervals the engines have spent running (engine, from, to), and since when each engine runs. -/
structure Be where
  tasks : List Task
  set : ProgSet
  staged : Option ProgSet
  stagedImg : Option ImageCfg
  area : Nat
  copies : List Copy
  moverAt : Nat
  forces : List Force
  actAt : Option Nat
  swAt : Option Nat
  fops : List (Nat × Word × Word64)
  runs : List (Nat × Nat × Nat)
  since : List (Option Nat)
  deriving DecidableEq, Repr

/-! Command Port (19). -/

/-- A transport's hidden state: the bytes of a packet under reception; the request last answered (SEQ, opcode, FLAGS,
CRC-32C, and on UDP the source) with its reply (R325); replies waiting to be clocked out on SPI (R319). -/
structure CpRx where
  part : List Byte
  lastKey : Option (List Nat)
  lastReply : List Byte
  waiting : List (List Byte)
  deriving DecidableEq, Repr

/-- The operation that runs (R326): opcode, transport, the Ethernet port and the source of a UDP request, SEQ, the key of R325,
payload, when it was taken; and for a station-keeping operation whether another request replaced its own (R333). -/
structure CpOp where
  op : Nat
  transport : Nat
  via : Nat
  src : Nat
  seq : Nat
  key : List Nat
  payload : List Byte
  startAt : Nat
  replaced : Bool
  deriving DecidableEq, Repr

/-- The Command Port's hidden state: receivers, the running operation, the last self-test's mask and results (R334), and whether a
soft reset follows once its reply has left (R335). -/
structure Cp where
  rx : List CpRx
  op : Option CpOp
  stMask : Nat
  stPass : Nat
  stFail : Nat
  resetDue : Bool
  deriving DecidableEq, Repr

/-- Scrubber (26_errata R405): the next burst of the pass, the cap in effect, the instant of the latest burst and how many came in
its millisecond. -/
structure Scrub where
  pos : Nat
  cap : Nat
  last : Option Nat
  inMs : Nat
  deriving DecidableEq, Repr

/-- The state of the block. -/
structure State where
  regs : RegFile
  shadow : RegFile
  mem : Memory
  time : TimeBase
  recd : Recorder
  ic : Ic
  pwr : Power
  nvm : Nvm
  fe : Fe
  est : Est
  surv : Survey
  trk : Track
  sk : Sk
  jobs : Jobs
  alc : Alc
  srv : Servo
  dsf : List Dsf
  /-- The CLK_IO edge of the last SYNC reset, in half ns (R173). -/
  syncEdge : Option Nat
  ha : Ha
  kz : Kz
  gn : Gnss
  net : Net
  can : List Can
  be : Be
  cp : Cp
  scrub : Scrub
  /-- How far the cycle has come: 0 no cycle work, 1 snap taken, 2 batch submitted, 3 batch done, 4 estimator started,
  5 estimate published. -/
  cyc : Nat
  /-- Latched high halves of PMU counters read (R391) stand in the registers; this is the free-value counter. -/
  freeCount : Nat
  out : List Output
  pending : List Instr
  deriving DecidableEq, Repr

/-- Why a step may fault. No command of this model faults. -/
inductive Fault where
  /-- Raised by no command (safe): the block's own spec describes no stop. -/
  | none
  deriving DecidableEq, Repr

/-- Why a command may be refused. -/
inductive Refusal where
  /-- Raised by the dispatcher for a command whose meaning is not written (safe: the machine stops). -/
  | notModelled (mnemonic : String)
  deriving DecidableEq, Repr

/-! The values every unit starts with after reset. -/

def RefSt.init : RefSt := ⟨0, none, false, 0, none⟩
def PtpPort.init : PtpPort := ⟨none, none, none, none, none, false, [], [], none, 0, 0, 0, 0, 0, 0⟩
def Pps.init : Pps := ⟨false, 0, none, none, false⟩
def TimeBase.init : TimeBase :=
  { count := 0, frac := 0, sub := 0, ticks := 0, t0 := 0, gnss := .init, ptp := .init, slewRem := 0, freq := 0x0A00000000, phase := 0,
    measured := false,
    sigmaLast := 0, sigmaAt := 0, ports := [.init, .init], pps := [.init, .init],
    tcap := [[], [], [], []], tcapLast := [none, none, none, none], tcapEdge := [none, none, none, none], leapAt := 0, leapRef := false,
    wdog := none }
def Recorder.init : Recorder := ⟨[], none, false, none, false⟩
def Ring.init : Ring := ⟨0, [], false⟩
def Proc.init : Proc := ⟨[], List.replicate 8 .init, false, false⟩
def Ic.init : Ic := ⟨List.replicate 10 .init, []⟩
def taskDefNone : TaskDef := ⟨0x00010000, 0, 0, (0, 0), (0, 0), (0, 0)⟩
def progSetNone : ProgSet := ⟨0, 0, List.replicate 16 taskDefNone, List.replicate 8 [], [], 0, [], [], []⟩
def imageNone : ImageCfg := ⟨0, 0, false, [], [], [], [], [], progSetNone⟩
def Power.init : Power :=
  { goodWin := 0, refRuns := true, rising := [], restoreEnd := 0, deep := false, inReset := none, heldAt := 0, stage := .held, slotB := false,
    bootSlot := 2, prst := false, image := imageNone }
def Nvm.init : Nvm := ⟨[], [], [], none, 0, [], false, none⟩
def Entry.init : Entry := ⟨0, 0, 0, 0, 0, [], 0, 0⟩
def Tracker.init : Tracker := ⟨0, 0, 0, 0, 0⟩
def Stream.init : Stream :=
  { queue := [], latched := none, latchedAt := 0, latchedNew := false, returns := [], seq := 0, firstSnap := false, trk := .init, fdMark := false, rejected := false, weight := none, cfg := 0, cut := false, nbias := 0 }
def Uart.init : Uart := ⟨[], [], [], 0, false, 0⟩
def Fe.init : Fe :=
  { streams := List.replicate 128 .init, gst := [], dedupe := [], uarts := List.replicate 16 .init, peers := [], fast := [] }
def Est.init : Est :=
  { x := [], p := [], inited := false, resetReq := false, posReset := false, settled := false, drAt := none, lastSnap := 0, upCnt := 0, cond := 4,
    timeUpd := false, todo := [], running := false, projDone := false, proj := [], rets := [], att := [], hdOk := false,
    org := none, published := false, pubPrev := none, tau := [0, 0, 0], tdcp := [], fixPrev := [], fixAt := 0, egoRot := none,
    egoSig := [] }
def Survey.init : Survey := ⟨0, none, false, 0, 0, [], [], [], [], []⟩
def Trk.init : Trk := ⟨[], [], 0⟩
def Track.init : Track := ⟨List.replicate 64 .init, true, false, false, [], [], [], [], 0⟩
def SkRun.init : SkRun := ⟨[0, 0], 0, [0, 0], false, 0x7FF0000000000000, false⟩
def Sk.init : Sk :=
  { req := none, taken := none, stake := [0, 0], stakePsi := 0, stakeDue := false, ref := [0, 0], psi := 0, psiTo := 0,
    rr := 0, run := .init, segFrom := [0, 0], segTo := [0, 0], legLast := false, psiIn := 0, lastRel := 0, integ := [0, 0, 0],
    sat := [false, false, false], blend := none, wind := [0, 0, 0], wv := [], joyAt := 0, joy := [0, 0, 0],
    joyRamp := none }
def Sol.init : Sol := ⟨[], [], [], []⟩
def Jobs.init : Jobs := ⟨[], 1, [], [0, 0, 0, 0], []⟩
def Alc.init : Alc :=
  { marks := [], theta := List.replicate 48 0, records := [], envSnap := [], envAt := 0, slots := [], tau := [], dofs := [],
    pass := 0, count := 0, qp := none, fixed := [], binds := [], running := false, latchAt := 0, acc := none, accNow := false,
    force := [0, 0, 0], staged := [], stagedOk := false, previous := [], prevAuth := false, misses := 0, stopped := false,
    launched := false, sent := [], rep := false, envDone := false, sf := [0, 0, 0, 0, 0] }
def Loop.init : Loop :=
  { pend := none, commitPend := false, perAt := 0, outAt := none, offDue := false, openOut := 0, sp := 0, lim := 0, fb := 0, integ := 0, d := 0, u := 0,
    uAt := 0, uOld := 0, fbPrev := 0, fbNew := false, tripDue := false,
    ym := 0, plausN := 0, holdN := 0, spAt := 0, due := none, flagSeen := 0, flagArm := true, inj := none, injK := 0, injArmed := false, injVal := 0,
    avg := [], fric := [], cog := [], fricSh := [], cogSh := [] }
def Servo.init : Servo :=
  ⟨List.replicate 24 .init, List.replicate 2 ⟨[], false, [], [], 0, []⟩, List.replicate 12 0, List.replicate 24 (0, false), 0, List.replicate 12 none⟩
def Dsf.init : Dsf := ⟨[], [], [], [[], []], [[], []], 3, 0, 0, 0, 0, none, 0, false, 0, 0, 0, 10 * 2 ^ 31⟩
def Ha.init : Ha :=
  { lines := [⟨[], false, 0, 0⟩, ⟨[], false, 0, 0⟩], perAt := none, bothN := 0, pDriveAt := none, lastHb := 0, pTerm := none, tdAt := 0,
    tdHi := 0, lhbHi := 0, ckHeld := none, ckRecv := none, ckSkip := none, ckSend := none, seq := 0, refreshAt := 0, refreshing := false,
    ckAuth := false, resume := false, relayDue := none, holdTx := false }
def KzCh.init : KzCh := ⟨0, 0, 0, 0, [none, none, none, none], none, 0, 0, false, none⟩
def Kz.init : Kz :=
  { chans := List.replicate 24 .init, swL := List.replicate 16 false, swC := List.replicate 16 false, single := false,
    latched := 0, rbNs := List.replicate 16 0, rbOut := 0, degAt := 0, clrAt := 0, authAt := none, lastAuth := false,
    scAt := 0, cmpNs := 0, lowNs := 0, srtDiff := false, discAt := List.replicate 8 none, srtL := 0, srtC := 0, speN := 0,
    rBits := [], rPhase := 0, rStill := 0, rOver := 0, rSum := 0, rN := 0, rAvg := 0, optFirst := none, block := [] }
def Gnss.init : Gnss :=
  { quiet := [none, none, none, none], level := [(0, 0), (0, 0), (0, 0), (0, 0)], jiArmed := [true, true, true, true],
    acq := [], searching := none, lostAt := [], keep := [], eph := [], almanac := false, ggto := none, solAt := 0, sigma := 0,
    sleepAt := none, lastPos := [], lastVel := [], iso := [], corr := [], clk := (0, 0), bias := [], refused := none,
    wbAt := 0, jiAt := 0 }
def Net.init : Net := ⟨List.replicate 5 [], List.replicate 5 0, [], [], 0, List.replicate 8 none, List.replicate 4 none⟩
def Can.init : Can := ⟨none, [], 0, [], 255, none, 0, none, false, [], false⟩
def Ctx.init : Ctx := ⟨List.replicate 32 0, 0, 0, false, false, []⟩
def Task.init : Task := ⟨.init, none, 0, 0, false, true, []⟩
def Be.init : Be :=
  { tasks := List.replicate 16 .init, set := progSetNone, staged := none, stagedImg := none, area := 0, copies := [],
    moverAt := 0, forces := [], actAt := none, swAt := none, fops := [], runs := [], since := List.replicate 8 none }
def Cp.init : Cp := ⟨List.replicate 3 ⟨[], none, [], []⟩, none, 0, 0, 0, false⟩

/-- The machine right after reset: a power-on reset of a blank part (R342, R365). Every register reads its reset word,
memory lists nothing, every unit's hidden state is at rest and the queue is empty. -/
def State.reset : State :=
  { regs := [], shadow := [], mem := [], time := .init, recd := .init, ic := .init, pwr := .init, nvm := .init, fe := .init,
    est := .init, surv := .init, trk := .init, sk := .init, jobs := .init, alc := .init, srv := .init,
    dsf := List.replicate 24 .init, syncEdge := none, ha := .init, kz := .init, gn := .init, net := .init, can := List.replicate 4 .init,
    be := .init, cp := .init, scrub := ⟨0, 0, none, 0⟩, cyc := 0, freeCount := 0, out := [], pending := [] }

end Sys2Proof.Machine
end

