-- ==== Sys2Proof/Machine/Ops.lean ====
section
/-!
DEFINITION. The named operations: canonical sparse maps, registers and their fields, shadow copies, memory and its
regions, device time, free values, output. Everything a meaning does goes through these.
-/
namespace Sys2Proof.Machine

/-- A state with these commands waiting. -/
def State.requeue (t : State) (l : List Instr) : State := { t with pending := l }

/-- A command ends: its effect on everything but the queue stands. Which commands wait is the senders' and the step's affair,
no command's. -/
def State.ends (s t : State) : Host.Outcome State Fault Refusal := .next (t.requeue s.pending)

/-! Canonical sparse maps. -/

/-- The value at a key, or the value an unlisted key has. -/
def mapGet {α : Type} (dflt : Nat → α) (k : Nat) : List (Nat × α) → α
  | [] => dflt k
  | (k', v) :: t => if k = k' then v else mapGet dflt k t

/-- Remove a key. -/
def mapErase {α : Type} (k : Nat) : List (Nat × α) → List (Nat × α)
  | [] => []
  | (k', v') :: t => if k = k' then mapErase k t else (k', v') :: mapErase k t

/-- Put an entry at its place. -/
def mapPut {α : Type} (k : Nat) (v : α) : List (Nat × α) → List (Nat × α)
  | [] => [(k, v)]
  | (k', v') :: t =>
    if k < k' then (k, v) :: (k', v') :: t else if k = k' then (k, v) :: t else (k', v') :: mapPut k v t

/-- Write a key: keys stay strictly rising, and an entry equal to its default is not listed. -/
def mapSet {α : Type} [DecidableEq α] (dflt : Nat → α) (k : Nat) (v : α) (l : List (Nat × α)) : List (Nat × α) :=
  if v = dflt k then mapErase k l else mapPut k v l

/-- The canonical form: keys strictly rising from a bound, no entry equal to its default. -/
def mapWfFrom {α : Type} [DecidableEq α] (dflt : Nat → α) (lo : Nat) : List (Nat × α) → Bool
  | [] => true
  | (k, v) :: t => decide (lo ≤ k) && decide (v ≠ dflt k) && mapWfFrom dflt (k + 1) t

/-- The canonical form of a whole map. -/
def mapWf {α : Type} [DecidableEq α] (dflt : Nat → α) (l : List (Nat × α)) : Bool := mapWfFrom dflt 0 l

/-- Rewrite every entry, dropping those that become their default. -/
def mapUpdate {α : Type} [DecidableEq α] (dflt : Nat → α) (f : Nat → α → α) (l : List (Nat × α)) :
    List (Nat × α) :=
  l.filterMap fun e => if f e.1 e.2 = dflt e.1 then none else some (e.1, f e.1 e.2)

/-- The number whose bit k says whether f holds of k. -/
def bitsOf (n : Nat) (f : Nat → Bool) : Nat := ((List.range n).filter f).foldl (fun v k => v + 2 ^ k) 0

/-- Replace one element of a list by a function of it. -/
def modAt {α : Type} (n : Nat) (f : α → α) : List α → List α
  | [] => []
  | a :: t => match n with
    | 0 => f a :: t
    | k + 1 => a :: modAt k f t

/-- Replace element n of a list by a function of it; a list that ends before it reads d there, and is filled up with d. -/
def padMod {α : Type} (d : α) (n : Nat) (f : α → α) (l : List α) : List α :=
  match n, l with
  | 0, [] => [f d]
  | 0, a :: t => f a :: t
  | n + 1, [] => d :: padMod d n f []
  | n + 1, a :: t => a :: padMod d n f t

/-! Registers. -/

/-- The stored word of a register (R13 to R16); its reset word where nothing else was stored. -/
def State.word (s : State) (a : Nat) : Word := mapGet resetWord a s.regs

/-- Store a register word. -/
def State.setWord (s : State) (a : Nat) (v : Word) : State :=
  { s with regs := mapSet resetWord a v s.regs }

/-- The stored word of a shadow copy. -/
def State.shWord (s : State) (a : Nat) : Word := mapGet resetWord a s.shadow

/-- Store a word of the shadow copy. -/
def State.setShWord (s : State) (a : Nat) (v : Word) : State :=
  { s with shadow := mapSet resetWord a v s.shadow }

/-- The bits a field covers. -/
def Fld.mask (f : Fld) : Word := BitVec.ofNat 32 ((2 ^ f.w - 1) * 2 ^ f.lo)

/-- A field of a word. -/
def Fld.of (f : Fld) (w : Word) : Nat := (w.toNat / 2 ^ f.lo) % 2 ^ f.w

/-- A word with a field replaced (the value taken modulo the field's width). -/
def Fld.into (f : Fld) (v : Nat) (w : Word) : Word :=
  (w &&& ~~~ f.mask) ||| BitVec.ofNat 32 ((v % 2 ^ f.w) * 2 ^ f.lo)

/-- Read a register field. -/
def State.get (s : State) (f : Fld) : Nat := f.of (s.word f.addr)

/-- Write a register field. -/
def State.set (s : State) (f : Fld) (v : Nat) : State := s.setWord f.addr (f.into v (s.word f.addr))

/-- A number with one bit set. -/
def setBit (k n : Nat) : Nat := if n / 2 ^ k % 2 = 1 then n else n + 2 ^ k

/-- Read a one-bit field. -/
def State.flag (s : State) (f : Fld) : Bool := s.get f != 0

/-- Write a one-bit field. -/
def State.setFlag (s : State) (f : Fld) (b : Bool) : State := s.set f (if b then 1 else 0)

/-- Increment a counter field, saturating at its greatest value. -/
def State.bumpBy (s : State) (f : Fld) (n : Nat) : State := s.set f (min (2 ^ f.w - 1) (s.get f + n))

/-- Increment a counter field by one, saturating. -/
def State.bump (s : State) (f : Fld) : State := s.bumpBy f 1

/-- Read a field of the shadow copy. -/
def State.getSh (s : State) (f : Fld) : Nat := f.of (s.shWord f.addr)

/-- A binary64 register: two words, low word at the lower address (R56). -/
def State.get64 (s : State) (a : Nat) : Word64 := (s.word (a + 4)) ++ (s.word a)

/-- Write a binary64 register. -/
def State.set64 (s : State) (a : Nat) (v : Word64) : State :=
  (s.setWord a (v.truncate 32)).setWord (a + 4) ((v >>> 32).truncate 32)

/-- A register read as a signed 32-bit number. -/
def State.geti (s : State) (a : Nat) : Int := (s.word a).toInt

/-- Store a signed number in a register, saturating at 32 bits. -/
def State.seti (s : State) (a : Nat) (v : Int) : State :=
  s.setWord a (BitVec.ofInt 32 (max (-2147483648) (min 2147483647 v)))

/-- A register's word as its shadow copy would leave it: the bits software writes from the shadow, the others active. -/
def State.shadowed (s : State) (a : Nat) : Word :=
  match regDesc a with
  | none => s.word a
  | some r =>
    let m := BitVec.ofNat 32 r.rw
    (s.shWord a &&& m) ||| (s.word a &&& ~~~ m)

/-- Copy the shadow words of a list of addresses into the active registers. -/
def State.commitShadow (s : State) (as : List Nat) : State :=
  as.foldl (fun t a => t.setWord a (t.shadowed a)) s

/-- The word addresses from a base, n of them. -/
def wordsFrom (base n : Nat) : List Nat := (List.range n).map fun i => base + 4 * i

/-! Device time. -/

/-- The device-time count in ns (R10). -/
def State.now (s : State) : Nat := s.time.count.toNat

/-- The short stamp of the present (R11). -/
def State.stamp (s : State) : Stamp := s.time.count.truncate 48

/-- The short stamp of a count. -/
def stampOf (n : Nat) : Stamp := BitVec.ofNat 48 n

/-- a later than b is positive: the signed 48-bit difference of two short stamps (R12). -/
def sdiff (a b : Stamp) : Int := (a - b).toInt

/-- TIME_INC as one 40-bit number: ns in [39:32], fraction below (R239). -/
def State.timeInc (s : State) : Nat := s.get F.TIME_INCL_INC_FRAC + 2 ^ 32 * s.get F.TIME_INCH_INC_NS

/-- The count and fraction at the latest tick, as one number in 2^-32 ns (R239). -/
def State.fine (s : State) : Nat := (s.now - s.time.sub) * 2 ^ 32 + s.time.frac.toNat

/-- The next multiple of a period after an instant. -/
def nextMultiple (t p : Nat) : Nat := if p = 0 then t else (t / p + 1) * p

/-! Free values and output. -/

/-- The next free value (Config.freeValue). -/
def State.free (s : State) : Word64 := Config.freeValue s.freeCount

/-- Go on to the next free value. -/
def State.drawn (s : State) : State := { s with freeCount := s.freeCount + 1 }

/-- Something leaves the device. -/
def State.emit (s : State) (o : Output) : State := { s with out := o :: s.out }

/-! Persona, mode, domains. -/

/-- SYS_PERSONA.PERSONA: 0 MASTER, 1 HEAD, 2 NODE (R2). -/
def State.persona (s : State) : Nat := s.get F.SYS_PERSONA_PERSONA
/-- SYS_PERSONA.MATCH: the persona is in effect (R3). -/
def State.matched (s : State) : Bool := s.flag F.SYS_PERSONA_MATCH
def State.isMaster (s : State) : Bool := s.matched && s.persona == 0
def State.isHead (s : State) : Bool := s.matched && s.persona == 1
def State.isNode (s : State) : Bool := s.matched && s.persona == 2
/-- The node ID (R2). -/
def State.nodeId (s : State) : Nat := s.get F.SYS_PERSONA_NODE_ID
/-- SYS_CYC_CTRL.RUN. -/
def State.run (s : State) : Bool := s.flag F.SYS_CYC_CTRL_RUN
/-- HA_STAT.STATE: 0 BIVOUAC, 1 SEIZING, 2 ACTIVE, 3 ISOLATED, 4 DEMOTED. -/
def State.haState (s : State) : Nat := s.get F.HA_STAT_STATE
/-- A MASTER drives: ACTIVE or ISOLATED, in which the cycle runs (R19, R179, R180). -/
def State.drives (s : State) : Bool := s.isMaster && (s.haState == 2 || s.haState == 3)
/-- SYS_CYC_NUM. -/
def State.cycNum (s : State) : Word := s.word R.SYS_CYC_NUM
/-- T_DP in ns (R27). -/
def State.tDp (s : State) : Nat := s.get F.SYS_CYC_PERIOD_PERIOD_US * 1000
/-- The phase time of a phase register's value: PH × T_DP / 10000, in ns, rounded down (R20). -/
def State.phase (s : State) (ph : Nat) : Nat := ph * s.get F.SYS_CYC_PERIOD_PERIOD_US * 1000 / 10000
/-- The instant of the latest tick (R17). -/
def State.t0 (s : State) : Nat := s.time.t0
/-- The phase instants of the current cycle (R19). -/
def State.atProj (s : State) : Nat := s.t0 + s.phase (s.get F.SYS_CYC_PHA_PH_PROJ)
def State.atEst (s : State) : Nat := s.t0 + s.phase (s.get F.SYS_CYC_PHA_PH_EST)
def State.atSk (s : State) : Nat := s.t0 + s.phase (s.get F.SYS_CYC_PHB_PH_SK)
def State.atQp (s : State) : Nat := s.t0 + s.phase (s.get F.SYS_CYC_PHB_PH_QP)
def State.atQpDl (s : State) : Nat := s.atQp + s.get F.SYS_CYC_DLQP_DL_QP * 1000
def State.atLaunch (s : State) : Nat := s.t0 + s.phase (s.get F.SYS_CYC_PHC_PH_LAUNCH)
def State.atCkpt (s : State) : Nat := s.t0 + s.phase (s.get F.SYS_CYC_PHC_PH_CKPT)

/-- A power domain is ON (R357); AON always; SVC but in DEEP and while a device reset is asserted (R356, R362). -/
def State.domOn (s : State) (d : Nat) : Bool :=
  if d = 0 then true else if d = 1 then !s.pwr.deep && s.pwr.inReset.isNone else (s.get F.PWR_DOM_STAT_ON / 2 ^ d) % 2 == 1

/-! Memory (R336 to R339, R406). -/

/-- Memory reads 0 where nothing was written (log entry 4). -/
def memDefault (_ : Nat) : Byte := 0

/-- The canonical form of memory. -/
def Memory.wf (m : Memory) : Bool := mapWf memDefault m

/-- One byte of memory. -/
def State.byte (s : State) (a : Nat) : Byte := mapGet memDefault a s.mem

/-- Store one byte of memory. -/
def State.setByte (s : State) (a : Nat) (b : Byte) : State := { s with mem := mapSet memDefault a b s.mem }

/-- n bytes from an address. -/
def State.bytes (s : State) (a n : Nat) : List Byte := (List.range n).map fun i => s.byte (a + i)

/-- A little-endian number (R5). -/
def leNat : List Byte → Nat
  | [] => 0
  | b :: t => b.toNat + 256 * leNat t

/-- n little-endian bytes of a number (R5). -/
def leBytes : Nat → Nat → List Byte
  | 0, _ => []
  | n + 1, v => BitVec.ofNat 8 v :: leBytes n (v / 256)

/-- n big-endian bytes of a number, network byte order. -/
def beBytes (n v : Nat) : List Byte := (leBytes n v).reverse

/-- A little-endian number of n bytes in memory. -/
def State.ld (s : State) (a n : Nat) : Nat := leNat (s.bytes a n)

/-- Store bytes from an address. -/
def State.storeBytes (s : State) (a : Nat) : List Byte → State
  | [] => s
  | b :: t => (s.setByte a b).storeBytes (a + 1) t

/-- Store a little-endian number of n bytes. -/
def State.st (s : State) (a n v : Nat) : State := s.storeBytes a (leBytes n v)

/-- The size of the installed DRAM, from DRAM_SIZE in the configuration block (R341): 0 none, 1 to 4 for 1 to 8 GiB. -/
def State.dramBytes (s : State) : Nat :=
  let c := (s.word (R.OTP_CFG 11)).toNat % 256
  if c = 0 then 0 else if c ≤ 4 then 2 ^ (29 + c) else 0

/-- The regions of the map (R336). -/
inductive Region where
  | rom | inst | image | sram | code | regs | dramRes | dramUser | unmapped
  deriving DecidableEq, Repr

/-- The region an address lies in (R336). -/
def State.region (s : State) (a : Nat) : Region :=
  if a < 0x10000 then .rom
  else if 0x1000000 ≤ a && a < 0x1400000 then .inst
  else if 0x1400000 ≤ a && a < 0x1500000 then .image
  else if 0x1500000 ≤ a && a < 0x1600000 then .sram
  else if 0x1600000 ≤ a && a < 0x1800000 then .code
  else if 0x40000000 ≤ a && a < 0x40400000 then .regs
  else if 0x100000000 ≤ a && a < 0x104000000 && a - 0x100000000 < s.dramBytes then .dramRes
  else if 0x104000000 ≤ a && a < 0x300000000 && a - 0x100000000 < s.dramBytes then .dramUser
  else .unmapped

/-- The power domain of a region's memory (R365); registers have their own. -/
def regionDom (r : Region) (a : Nat) : Nat :=
  match r with
  | .rom => 1
  | .inst => 2
  | .image => 2
  | .sram => 1
  | .code => if a < 0x1700000 then 2 else 3
  | .regs => 1
  | .dramRes => 13
  | .dramUser => 13
  | .unmapped => 0

/-- May a domain read a region (R339)? -/
def mayRead (d : Dom) (r : Region) : Bool :=
  match r, d with
  | .rom, .svc => true
  | .rom, _ => false
  | .inst, .block => false
  | .inst, _ => true
  | .image, .block => false
  | .image, _ => true
  | .sram, .block => false
  | .sram, _ => true
  | .code, .host => true
  | .code, .svc => true
  | .code, _ => false
  | .dramRes, .host => true
  | .dramRes, .svc => true
  | .dramRes, _ => false
  | .dramUser, .block => false
  | .dramUser, _ => true
  | .regs, _ => true
  | .unmapped, _ => false

/-- May a domain write a region's memory (R339)? -/
def mayWrite (d : Dom) (r : Region) : Bool :=
  match r, d with
  | .inst, .host => true
  | .inst, .svc => true
  | .image, .host => true
  | .image, .svc => true
  | .sram, .host => true
  | .sram, .svc => true
  | .sram, .safe => true
  | .code, .svc => true
  | .dramRes, .svc => true
  | .dramUser, .host => true
  | .dramUser, .svc => true
  | .regs, _ => true
  | _, _ => false

/-- Lies a whole block inside on-chip SRAM of the general kind, or inside DRAM? (R112, R371) -/
def State.inSramOrDram (s : State) (a n : Nat) : Bool :=
  (0x1500000 ≤ a && a + n ≤ 0x1600000) || (0x100000000 ≤ a && a + n ≤ 0x100000000 + s.dramBytes)

/-- A binary64 in memory. -/
def State.ld64 (s : State) (a : Nat) : Word64 := BitVec.ofNat 64 (s.ld a 8)
/-- Store a binary64. -/
def State.st64 (s : State) (a : Nat) (v : Word64) : State := s.st a 8 v.toNat

/-! Writes and their status (R14, R324, R329). -/

/-- The status a Command Port operation, or a register write, ends with (R324). -/
inductive CpSt where
  | ok | busy | badCrc | badOpcode | badParam | denied | notNow | timeout | partly | safetyRefused | loopClosed | internal
  deriving DecidableEq, Repr

/-- The status byte (R324). -/
def CpSt.code : CpSt → Nat
  | .ok => 0 | .busy => 1 | .badCrc => 2 | .badOpcode => 3 | .badParam => 4 | .denied => 5 | .notNow => 6
  | .timeout => 7 | .partly => 8 | .safetyRefused => 9 | .loopClosed => 10 | .internal => 15

/-- The bit of a domain in a writers mask. -/
def domBit : Dom → Nat
  | .host => 1 | .svc => 2 | .safe => 4 | .block => 8

/-- Is a domain in a writers mask? -/
def domIn (d : Dom) (m : Nat) : Bool := (m / domBit d) % 2 == 1

/-- An access to a domain that is not ON counts in PWR_OFFACC, whoever makes it (R357); the counter lies in SVC. -/
def State.offAccess (s : State) (p : Nat) : State := if s.domOn p || !s.domOn 1 then s else s.bump F.PWR_STAT_PWR_OFFACC

/-- A write reaches a register's unit only when the writer is named for it (R14) and its domain is ON (R357, R329). -/
def State.writeGuard (s : State) (d : Dom) (a : Nat) (f : State → State × CpSt) : State × CpSt :=
  match regDesc a with
  | none => (s, .ok)
  | some r =>
    if !(domIn d r.writers || domIn d r.clearers) then (s.offAccess r.dom, .denied)
    else if s.domOn r.dom then f s
    else (s.offAccess r.dom, .notNow)

/-- An access reaches a unit of domain d only when the domain is ON; otherwise it counts in PWR_OFFACC (R357). -/
def State.inDomain (s : State) (d : Nat) (f : State → State) : State :=
  if s.domOn d then f s else s.offAccess d

/-- A keyed write: bits [31:16] must be 0x5AFE, or SYS_KEYERR counts and the write is discarded (R13, R14). -/
def State.keyGuard (s : State) (v : Word) (f : State → State × CpSt) : State × CpSt :=
  if v.toNat / 65536 = 0x5AFE then f s else (s.bump F.SYS_KEYERR_COUNT, .denied)

/-- What a plain write leaves in a register: RW bits taken, W1C bits cleared by a 1, each only for a domain named
for it; RO, RC and reserved bits unchanged, WO and WK bits stored nowhere (R13, R14). -/
def writtenWord (r : RegDesc) (d : Dom) (old v : Word) : Word :=
  let rw : Word := if domIn d r.writers then BitVec.ofNat 32 r.rw else 0
  let cl : Word := if domIn d r.clearers then BitVec.ofNat 32 r.w1c else 0
  ((old &&& ~~~ rw) ||| (v &&& rw)) &&& ~~~ (v &&& cl)

/-- A plain register write (R13, R14). -/
def State.plainWrite (s : State) (d : Dom) (a : Nat) (v : Word) : State × CpSt :=
  match regDesc a with
  | none => (s, .ok)
  | some r => s.writeGuard d a fun s => (s.setWord a (writtenWord r d (s.word a) v), .ok)

/-- A write that goes to the shadow copy, to take effect later. -/
def State.shadowWrite (s : State) (d : Dom) (a : Nat) (v : Word) : State × CpSt :=
  match regDesc a with
  | none => (s, .ok)
  | some r => s.writeGuard d a fun s => (s.setShWord a (writtenWord r d (s.shWord a) v), .ok)

/-! CRC-32C, as the spec's frames, images and checkpoints use it. -/

/-- One bit of CRC-32C, reflected polynomial 0x82F63B78. -/
def crcBit (c : BitVec 32) : BitVec 32 :=
  if c.getLsbD 0 then (c >>> 1) ^^^ 0x82F63B78#32 else c >>> 1

/-- One byte of CRC-32C. -/
def crcByte (c : BitVec 32) (b : Byte) : BitVec 32 :=
  let c := c ^^^ b.zeroExtend 32
  crcBit (crcBit (crcBit (crcBit (crcBit (crcBit (crcBit (crcBit c)))))))

/-- CRC-32C of bytes. -/
def crc32c (l : List Byte) : Word := ~~~ (l.foldl crcByte 0xFFFFFFFF#32)

/-! Bytes of sparse stores. -/

/-- n bytes from address a of a store whose entries rise, all at or above a. -/
def rangeFrom (d : Byte) (a : Nat) : Nat → List Host.Cell → List Byte
  | 0, _ => []
  | n + 1, [] => d :: rangeFrom d (a + 1) n []
  | n + 1, (k, v) :: t => if k = a then v :: rangeFrom d (a + 1) n t else d :: rangeFrom d (a + 1) n ((k, v) :: t)

/-- n bytes from address a of a store. -/
def storeRange (d : Byte) (l : List Host.Cell) (a n : Nat) : List Byte := rangeFrom d a n (l.dropWhile fun c => decide (c.1 < a))

/-- Write bytes from address a of a store whose unlisted bytes read d. -/
def storePut (d : Byte) (l : List Host.Cell) (a : Nat) (b : List Byte) : List Host.Cell :=
  b.zipIdx.foldl (fun m x => mapSet (fun _ => d) (a + x.2) x.1 m) l

end Sys2Proof.Machine
end

