-- ==== Sys2Proof/Machine/Pmu.lean ====
section
/-!
DEFINITION. The performance counters: adding, chaining, overflow, snapshot (24_counters R386 to R390). The time-driven
counts and the overflow interrupt follow in Events.
-/
namespace Sys2Proof.Machine

/-- A counter's 48 bits. The upper half stands in the hidden copy of PMU_CNTHn, whose register shows what the last read of
PMU_CNTLn latched (R391). -/
def State.pmuVal (s : State) (n : Nat) : Nat :=
  (s.word (R.PMU_CNTL n)).toNat + 2 ^ 32 * (s.shWord (R.PMU_CNTH n)).toNat

/-- Store a counter's 48 bits. -/
def State.pmuPut (s : State) (n v : Nat) : State :=
  (s.setWord (R.PMU_CNTL n) (BitVec.ofNat 32 v)).setShWord (R.PMU_CNTH n) (BitVec.ofNat 32 (v / 2 ^ 32 % 2 ^ 16))

/-- Add to a counter; an overflow carries into the next one of a chain, or sets its bit in PMU_OVF (R387, R388). The
second component lists the overflows that raise source 313. -/
def State.pmuAddAt (s : State) (n k : Nat) : Nat → State × List Nat
  | 0 => (s, [])
  | f + 1 =>
    let v := s.pmuVal n + k
    let s := s.pmuPut n (v % 2 ^ 48)
    if v / 2 ^ 48 = 0 then (s, [])
    else if s.flag (F.PMU_CFG_CHAIN n) && decide (n < 255) then s.pmuAddAt (n + 1) (v / 2 ^ 48) f
    else
      (s.setWord (R.PMU_OVF (n / 32)) (s.word (R.PMU_OVF (n / 32)) ||| BitVec.ofNat 32 (2 ^ (n % 32))),
       if s.flag (F.PMU_CFG_IRQ n) then [n] else [])

/-- Add to the counter of an event: none while FREEZE is 1 (R389), and the upper counter of a pair counts no event of its
own (R387). -/
def State.pmuRaw (s : State) (n k : Nat) : State × List Nat :=
  if k = 0 || s.flag F.PMU_CTL_FREEZE || (decide (0 < n) && s.flag (F.PMU_CFG_CHAIN (n - 1))) then (s, [])
  else s.pmuAddAt n k 256

/-- A snapshot (R390). -/
def State.pmuSnap (s : State) : State :=
  let s := (List.range 256).foldl (fun t n =>
    (t.setWord (R.PMU_SHL n) (t.word (R.PMU_CNTL n))).setShWord (R.PMU_SHH n) (t.shWord (R.PMU_CNTH n))) s
  s.set F.PMU_STAT_SNAP_SEQ (s.get F.PMU_STAT_SNAP_SEQ + 1)

/-- A write of a counter: discarded unless FREEZE is 1 (R389). -/
def pmuCntWrite (s : State) (d : Dom) (a : Nat) (v : Word) : State × CpSt :=
  s.writeGuard d a fun s =>
    if !s.flag F.PMU_CTL_FREEZE then (s, .notNow)
    else
      let v := if a % 8 = 4 then v &&& 0xFFFF#32 else v
      let s := s.setWord a v
      (if a % 8 = 4 then s.setShWord a v else s, .ok)

/-- A read of PMU_CNTLn or PMU_SHLn latches the upper half of the same value (R391). -/
def State.pmuLatch (s : State) (a : Nat) : State := s.setWord (a + 4) (s.shWord (a + 4))

/-- A BLOCK read of a PMU register returns 0 while PMU_USER is 0, and sets UDENY (R391). -/
def State.pmuRead (s : State) (d : Dom) (a : Nat) : State × Word :=
  if d = .block && !s.flag F.PMU_CTL_PMU_USER then (s.setFlag F.PMU_STAT_UDENY true, 0)
  else
    let s := if 0x40061000 ≤ a && a < 0x40062800 && a % 8 = 0 then s.pmuLatch a else s
    (s, s.word a)

/-- PMU_COUNTER_READ: a read of PMU_CNTLn, or of PMU_SHLn (R391). -/
def execPmuCounterRead (d : Dom) (n : Fin 256) (shadowBank : Bool) (s : State) : Host.Outcome State Fault Refusal :=
  let a := if shadowBank then R.PMU_SHL n.val else R.PMU_CNTL n.val
  s.ends (s.inDomain 1 fun s => (s.pmuRead d a).1)

end Sys2Proof.Machine
end

