-- ==== Sys2Proof/Machine/Events.lean ====
section
/-!
DEFINITION. The interrupt controller and the event recorder (22_interrupts R368 to R375, 23_recorder R376 to R385):
an event of a unit makes one arrival and, where its chapter says so, writes a crumb or a loaf.
-/
namespace Sys2Proof.Machine

/-- What an event writes in the recorder. -/
inductive RecKind where
  | none | crumb | loaf
  deriving DecidableEq, Repr

/-! Interrupt controller. -/

/-- The default processor. -/
def procDflt : Proc := .init

/-- Processor x. -/
def State.proc (s : State) (x : Nat) : Proc := s.ic.procs.getD x procDflt

/-- Change processor x. -/
def State.modProc (s : State) (x : Nat) (f : Proc → Proc) : State :=
  { s with ic := { s.ic with procs := padMod procDflt x f s.ic.procs } }

/-- Ring L of processor x. -/
def State.ring (s : State) (x l : Nat) : Ring := (s.proc x).rings.getD l ⟨0, [], false⟩

/-- Change ring L of processor x. -/
def State.modRing (s : State) (x l : Nat) (f : Ring → Ring) : State :=
  s.modProc x fun p => { p with rings := padMod ⟨0, [], false⟩ l f p.rings }

/-- Records of a ring not yet claimed. -/
def Ring.unclaimed (r : Ring) : Nat := if r.claimed then r.held.length - 1 else r.held.length

/-- The highest level above `cur` whose ring holds an unclaimed record (R373). -/
def State.topLevel (s : State) (x cur : Nat) : Option Nat :=
  (List.range 8).reverse.find? fun l => decide (cur < l) && decide (0 < (s.ring x l).unclaimed)

/-- Show the line and the stack depth of processor x (R372). -/
def State.refreshLine (s : State) (x : Nat) : State :=
  let s := s.setFlag (F.IC_LEVEL_LINE x) (s.topLevel x (s.get (F.IC_LEVEL_CUR x))).isSome
  s.set (F.IC_LEVEL_DEPTH x) (s.proc x).stack.length

/-- The processor a source targets; 10 to 15 read as 0 (R370). -/
def State.icTarget (s : State) (n : Nat) : Nat :=
  let t := s.get (F.IC_SRC_TARGET n)
  if t < 10 then t else 0

/-- The ring's base address. -/
def State.ringBase (s : State) (x l : Nat) : Nat := s.get (F.RING_BL_BASE_LO x l) + 2 ^ 32 * s.get (F.RING_BH_BASE_HI x l)

/-- The ring's size in records. -/
def State.ringSize (s : State) (x l : Nat) : Nat := 2 ^ s.get (F.RING_BH_SIZE_LOG2 x l)

/-- The 16 bytes of a ring record (R371). -/
def ringRecord (src level : Nat) (posted lost sat : Bool) (count : Nat) (seq : Byte) (st : Stamp) (info : Word) :
    List Byte :=
  leBytes 4 (src + 2 ^ 9 * level + (if posted then 2 ^ 13 else 0) + (if lost then 2 ^ 14 else 0)
      + (if sat then 2 ^ 15 else 0) + 2 ^ 16 * count + 2 ^ 24 * seq.toNat)
    ++ leBytes 4 (st.toNat % 2 ^ 32) ++ leBytes 4 (st.toNat / 2 ^ 32) ++ leBytes 4 info.toNat

/-- A processor goes into DOZE or wakes, and PWR_STAT.DOZE shows it (R359, R360). -/
def State.setDoze (s : State) (x : Nat) (on : Bool) : State :=
  (s.modProc x fun p => { p with doze := on }).set ⟨R.PWR_STAT, 2 + x, 1⟩ (if on then 1 else 0)

/-- Write one record in ring L of processor x, or drop it (R371). A wake from DOZE follows (R360). -/
def State.enqueue (s : State) (x l n : Nat) (info : Word) (posted sat : Bool) : State :=
  if !s.flag (F.RING_BH_EN x l) || decide (s.ringSize x l ≤ (s.ring x l).held.length) then
    ((s.bump (F.RING_OVF_OVF x l)).setFlag (F.IC_CNT_LOST n) true).pmuRaw 193 1 |>.1
  else
    let tail := s.get (F.RING_IDX_TAIL x l)
    let size := s.ringSize x l
    let bytes := ringRecord n l posted (s.flag (F.IC_CNT_LOST n)) sat (s.get (F.IC_CNT_COUNT n)) (s.ring x l).seq s.stamp info
    let s := s.storeBytes (s.ringBase x l + 16 * (tail % size)) bytes
    let s := s.set (F.RING_IDX_TAIL x l) ((tail + 1) % (2 * size))
    let now := s.now
    let s := s.modRing x l fun r => { r with seq := r.seq + 1, held := r.held ++ [(n, now)] }
    let s := s.setFlag (F.IC_CNT_LOST n) false
    let s := if (s.proc x).doze then s.setDoze x false else s
    ((s.refreshLine x).pmuRaw 192 1).1

/-- Is a source number assigned (R369)? A reserved source never arrives. -/
def icAssigned (n : Nat) : Bool :=
  n ≤ 4 || (8 ≤ n && n ≤ 29) || (33 ≤ n && n ≤ 164) || (168 ≤ n && n ≤ 178) || (184 ≤ n && n ≤ 286)
    || (288 ≤ n && n ≤ 310) || n == 312 || n == 313 || (504 ≤ n && n ≤ 511)

/-- One arrival of a source: counted always, enqueued under R368; a posted record with POLL goes to ring 0 (R375). -/
def State.arriveG (s : State) (n : Nat) (info : Word) (posted poll : Bool) : State :=
  if !icAssigned n then s
  else
    let sat := s.get (F.IC_CNT_COUNT n) == 255
    let s := s.bump (F.IC_CNT_COUNT n)
    let prio := s.get (F.IC_SRC_PRIO n)
    let x := s.icTarget n
    if prio == 0 then (if posted && poll then s.enqueue x 0 n info posted sat else s)
    else if s.flag (F.IC_SRC_MASK n) then s
    else s.enqueue x prio n info posted sat

/-- One arrival of a unit's source (R368). -/
def State.arrive (s : State) (n : Nat) (info : Word) : State := s.arriveG n info false false

/-! Performance counters and time (24_counters). -/

/-- One occurrence of a counted event, with its overflow interrupt (R386, R388). -/
def State.pmu (s : State) (n : Nat) : State :=
  let r := s.pmuRaw n 1
  r.2.foldl (fun t c => t.arrive 313 (BitVec.ofNat 32 c)) r.1

/-- The occupancy values: counters 32 to 36 of the fabric, 37 to 40 of its queues, 176 of GNSS channels in TRACK, 194 to 203
of the interrupt lines (R386). No frame waits in a receive buffer (log entry 34), so 80 to 84 stay 0. -/
def State.occupancy (s : State) : List (Nat × Nat) :=
  let occ := (s.word R.JF_OCC).toNat
  let q := (s.word R.JF_QLEN).toNat
  [(32, (s.word (R.SA_SEQSTAT 0)).toNat % 2), (33, (s.word (R.SA_SEQSTAT 1)).toNat % 2),
   (34, (s.word (R.SA_SEQSTAT 2)).toNat % 2), (35, (s.word (R.SA_SEQSTAT 3)).toNat % 2),
   (36, occ % 256 + occ / 2 ^ 8 % 256 + occ / 2 ^ 16 % 256 + occ / 2 ^ 24),
   (37, q % 256), (38, q / 2 ^ 8 % 256), (39, q / 2 ^ 16 % 256), (40, q / 2 ^ 24),
   (176, if s.domOn 9 then ((List.range 192).filter fun k => s.get (F.GN_CH_STAT_STATE k) == 2).length else 0)]
  ++ (List.range 10).map fun x => (194 + x, s.get (F.IC_LEVEL_LINE x))

/-- What the counters add while device time runs from one count to a later one: the CLK_FAB cycles, the CLK_GN ticks and
every occupancy, constant over the span (R386; log entry 34). -/
def State.pmuSpan (s : State) (t0 t1 ticks : Nat) : State :=
  let cyc := t1 * 3 / 5 - t0 * 3 / 5
  let add := s.occupancy.map fun o =>
    (o.1, if s.flag (F.PMU_CFG_OCC_MODE o.1) then (if s.get (F.PMU_CFG_THRESH o.1) < o.2 then cyc else 0) else o.2 * cyc)
  ([(0, cyc), (1, ticks)] ++ add).foldl (fun (t : State) (e : Nat × Nat) =>
    let r := t.pmuRaw e.1 e.2
    r.2.foldl (fun t c => t.arrive 313 (BitVec.ofNat 32 c)) r.1) s

/-- What remains of a slew's offset after some ticks, each of which applies the phase term: not below 20 ns, where the slew ends
(R243). -/
def slewLeft (rem phase : Int) (ticks : Nat) : Int :=
  let lim : Int := 20 * 2 ^ 32
  if (rem.natAbs : Int) ≤ lim then rem
  else if 0 < rem then max lim (rem + ticks * phase)
  else min (-lim) (rem + ticks * phase)

/-- PPS pulses some ticks later: their widths count elapsed ticks (R252). -/
def ppsRun (l : List Pps) (ticks : Nat) : List Pps := l.map fun (p : Pps) => { p with ticks := p.ticks - ticks }

/-- What is left of the service watchdog some ns later: it stands still while SVC is in DOZE (R366). -/
def State.wdogLeft (s : State) (ns : Nat) : Option Nat := if (s.proc 0).doze then s.time.wdog else s.time.wdog.map (· - ns)

/-- What a tick adds: TIME_INC; while NET is not ON the AON shadow counts instead, 100 ns an edge of REFCLK, uncorrected (R239,
R246). -/
def State.tickInc (s : State) : Nat := if s.domOn 11 then s.timeInc else 100 * 2 ^ 32

/-- The count and fraction k ticks from the latest one. -/
def State.fineAfter (s : State) (k : Nat) : Nat := s.fine + k * s.tickInc

/-- Does the count run? The shadow that counts while NET is not ON holds its value while REFCLK is stopped (R246). -/
def State.timeRuns (s : State) : Bool := s.domOn 11 || s.pwr.refRuns

/-- k ticks pass, and then some ns more: the count is the sum of R239, a slew goes on, PPS pulses and the watchdog count down. -/
def State.runTicks (s : State) (k rest : Nat) : State :=
  let f := s.fineAfter k
  let n := f / 2 ^ 32 + rest
  let old := s.now
  let gn := if s.domOn 11 then k else n / 10 - old / 10
  let s := s.pmuSpan old n gn
  let left := s.wdogLeft (n - old)
  { s with time := { s.time with count := BitVec.ofNat 64 n, frac := BitVec.ofNat 32 f, sub := rest, ticks := s.time.ticks + k,
                                 slewRem := slewLeft s.time.slewRem s.time.phase k, pps := ppsRun s.time.pps k, wdog := left } }

/-- The ticks that come until device time reaches a count. -/
def State.ticksTo (s : State) (n : Nat) : Nat := (n * 2 ^ 32 - s.fine) / s.tickInc

/-- Let device time run on to a count, when that lies ahead (log entries 7, 231). -/
def State.advanceTo (s : State) (n : Nat) : State :=
  if n ≤ s.now || !s.timeRuns then s
  else
    let k := s.ticksTo n
    s.runTicks k (n - s.fineAfter k / 2 ^ 32)

/-- Let device time run on by some ns. -/
def State.advanceBy (s : State) (n : Nat) : State := s.advanceTo (s.now + n)

/-- Let device time run on until k more ticks have come. -/
def State.advanceTicks (s : State) (k : Nat) : State := s.advanceTo ((s.fineAfter k + (2 ^ 32 - 1)) / 2 ^ 32)

/-- COUNTER_OVERFLOW: counter n overflows (R387, R388). Counters 0 and 1 get there by time running on, another by one
more occurrence of its event. -/
def execCounterOverflow (n : Fin 256) (s : State) : Host.Outcome State Fault Refusal :=
  let left := 2 ^ 48 - s.pmuVal n.val
  s.ends (
    if s.flag F.PMU_CTL_FREEZE then s
    else if n.val = 0 then s.advanceBy (left * 5 / 3 + 1)
    else if n.val = 1 then (if s.domOn 11 then s.advanceTicks left else s.advanceBy (left * 10))
    else if left = 1 then s.pmu n.val
    else s)

/-! Freeze and snapshot writes. -/

/-- Erratum XE-06: the upper counter of a chained pair freezes one cycle after the lower one. Where the lower one froze at its last
value, an event of that cycle, which the spec leaves open, carries into the upper one alone (log entry 158). -/
def State.freezeSlip (s : State) (n : Nat) : State :=
  let pair := s.flag (F.PMU_CFG_CHAIN n) && (n = 0 || !s.flag (F.PMU_CFG_CHAIN (n - 1)))
  if !pair || s.pmuVal n ≠ 2 ^ 48 - 1 then s
  else
    let r := if s.free.getLsbD 0 then s.pmuAddAt (n + 1) 1 256 else (s, [])
    (r.2.foldl (fun t c => t.arrive 313 (BitVec.ofNat 32 c)) r.1).drawn

/-- A write of PMU_CTL: SNAP takes a snapshot, which has a pending carry right (R389, R390); FREEZE 0 to 1 freezes (XE-06). -/
def pmuCtlWrite (s : State) (d : Dom) (v : Word) : State × CpSt :=
  s.writeGuard d R.PMU_CTL fun s =>
    let froze := s.flag F.PMU_CTL_FREEZE
    let s := s.setWord R.PMU_CTL (v &&& 0xD#32)
    let s := if F.PMU_CTL_SNAP.of v = 1 then s.pmuSnap else s
    (if !froze && s.flag F.PMU_CTL_FREEZE then (List.range 255).foldl (fun t n => t.freezeSlip n) s else s, .ok)

/-- PMU_FREEZE: a write of PMU_CTL with FREEZE 1, its other fields unchanged (R389). -/
def execPmuFreeze (d : Dom) (s : State) : Host.Outcome State Fault Refusal :=
  s.ends (pmuCtlWrite s d (s.word R.PMU_CTL ||| 1#32)).1

/-- PMU_UNFREEZE: a write of PMU_CTL with FREEZE 0, its other fields unchanged (R389). -/
def execPmuUnfreeze (d : Dom) (s : State) : Host.Outcome State Fault Refusal :=
  s.ends (pmuCtlWrite s d (s.word R.PMU_CTL &&& 0xFFFFFFFE#32)).1

/-- PMU_SNAP: a write of SNAP, the other fields unchanged (R390). -/
def execPmuSnap (d : Dom) (s : State) : Host.Outcome State Fault Refusal :=
  s.ends (pmuCtlWrite s d (s.word R.PMU_CTL ||| 2#32)).1

/-! Recorder. -/

/-- Slots of 32 bytes a record takes (R377). -/
def recSlots (nreg : Nat) : Nat := 1 + (nreg + 7) / 8

/-- Slots in use. -/
def usedSlots (l : List Rec) : Nat := (l.map fun r => recSlots r.vals.length).foldl (· + ·) 0

/-- The bytes of a record (R376). -/
def recBytes (r : Rec) : List Byte :=
  leBytes 4 (r.kind + 4 * r.sev + (if r.snapbad then 32 else 0) + 256 * r.vals.length)
    ++ leBytes 4 r.seq.toNat ++ leBytes 6 r.stamp.toNat ++ leBytes 2 r.evt
    ++ leBytes 4 r.cause.toNat ++ leBytes 4 r.data.toNat ++ leBytes 4 r.cyc.toNat ++ leBytes 4 r.node
    ++ (r.vals.map fun v => leBytes 4 v.toNat).flatten

/-- The surviving record with the lowest SEQ not below `cur`, by signed difference (R383). -/
def recAtOrAbove (l : List Rec) (cur : BitVec 32) : Option Rec :=
  l.foldl (fun (b : Option Rec) r =>
    if (r.seq - cur).toInt < 0 then b
    else match b with
      | some b' => if (r.seq - cur).toNat < (b'.seq - cur).toNat then some r else some b'
      | none => some r) none

/-- Show the window: WVALID, and REC_CUR moved to the record shown (R383). -/
def State.refreshWindow (s : State) : State :=
  match recAtOrAbove s.recd.recs (s.word R.REC_CUR) with
  | some r => (s.setWord R.REC_CUR r.seq).setFlag F.REC_CTL_WVALID true
  | none => s.setFlag F.REC_CTL_WVALID false

/-- After records were freed: SKIPPED when the record at REC_CUR is gone, then the window and FILL (R383). -/
def State.afterFree (s : State) (before : List Rec) : State :=
  let cur := s.word R.REC_CUR
  let was := before.any fun r => r.seq == cur
  let is' := s.recd.recs.any fun r => r.seq == cur
  let s := if was && !is' then s.bump F.REC_CNT_SKIPPED else s
  (s.refreshWindow).set F.REC_STAT_FILL (usedSlots s.recd.recs)

/-- One word of the recorder's window (R383). -/
def State.recWin (s : State) (k : Nat) : Word :=
  match (if s.flag F.REC_CTL_WVALID then recAtOrAbove s.recd.recs (s.word R.REC_CUR) else none) with
  | none => 0
  | some r =>
    let off := 4 * k + (if s.flag F.REC_CTL_PAGE then 256 else 0)
    BitVec.ofNat 32 (leNat ((recBytes r).drop off |>.take 4))

/-- Milliseconds since an instant, saturating. -/
def State.msSince (s : State) (t w : Nat) : Nat := min (2 ^ w - 1) ((s.now - t) / 1000000)

/-- A peer of the table, UNKNOWN when not listed (R47). -/
def State.peer (s : State) (n : Nat) : Peer :=
  (s.fe.peers.find? fun p => p.node == n).getD ⟨n, 0, false, 0, 0, 0, 0, 0⟩

/-- The ZAL_PEER_STAT word of the selected node (02_streams). -/
def State.peerStat (s : State) : Word :=
  let p := s.peer (s.get F.ZAL_PEER_SEL_NODE)
  let ms := if p.state = 0 then 0xFFFF else s.msSince p.last 16
  BitVec.ofNat 32 (p.state + (if p.sigMatch then 4 else 0) + 8 * p.persona + 32 * p.level + 128 * p.parent + 65536 * ms)

/-- The default loop tables read as 0. -/
def tblGet (l : List (Nat × Word)) (k : Nat) : Word := mapGet (fun _ => (0 : Word)) k l
/-- Write a table entry. -/
def tblSet (l : List (Nat × Word)) (k : Nat) (v : Word) : List (Nat × Word) := mapSet (fun _ => (0 : Word)) k v l

/-- The time of one UART character in ns: start, data, parity and stop bits of DIV / 16 CLK_IO cycles, DIV from 427 to
266,667 (R42). -/
def State.uartCharNs (s : State) (p : Nat) : Nat :=
  let c := (s.word (0x400C0000 + 0x100 * p)).toNat
  let div := max 427 (min 266667 ((c / 256) % 2 ^ 20))
  let bits := 1 + (if (c / 8) % 2 = 1 then 7 else 8) + (if (c / 16) % 4 = 1 || (c / 16) % 4 = 2 then 1 else 0) + 1 + (c / 64) % 2
  bits * div * 125 / 160

/-- UART_STAT with its timed bits: RXACT for ten character times after a character, TXFILL what has not left (R42). -/
def State.uartStat (s : State) (p : Nat) : Word :=
  let w := s.word (R.UART_STAT p)
  match s.fe.uarts[p]? with
  | none => w
  | some u =>
    let act := decide (0 < u.lastChar) && decide (s.now ≤ u.lastChar + 10 * s.uartCharNs p)
    let w := (F.UART_STAT_RXACT p).into (if act then 1 else 0) w
    (F.UART_STAT_TXFILL p).into ((u.tx.filter fun e => decide (s.now < e.2)).length) w

/-- TIME_ACC as a read shows it: in HOLDOVER the sigma at the last measurement plus HOLD_DRIFT times the time elapsed
(R243). -/
def State.accNs (s : State) : Nat :=
  if s.get F.TIME_STAT_TQ = 2 then
    min 0xFFFFFFFF (s.time.sigmaLast + s.get F.TIME_HOLD_HOLD_DRIFT * (s.now - s.time.sigmaAt) / 10000000000)
  else (s.word R.TIME_ACC).toNat

/-- GN_TACC as a read shows it (R235). -/
def State.gnAcc (s : State) : Nat :=
  if s.get F.GN_TQ_TQ = 2 then
    min 0xFFFFFFFF (s.gn.sigma + s.get F.GN_HOLD_HOLD_DRIFT * (s.now - s.gn.solAt) / 10000000000)
  else (s.word R.GN_TACC).toNat

/-- A BE_ENGe word with its LOAD: per cent of the last 100 ms spent running. -/
def State.engWord (s : State) (e : Nat) : Word :=
  let now := s.now
  let lo := now - 100000000
  let open' := match s.be.since.getD e none with
    | some t => [(e, t, now)]
    | none => []
  let ns := ((s.be.runs ++ open').filter fun r => r.1 == e).foldl (fun n r => n + (min now r.2.2 - max lo r.2.1)) 0
  (⟨0, 8, 8⟩ : Fld).into (ns / 1000000) (s.word (0x40180010 + 4 * e))

/-- The word a read of a register shows, without any side effect (R380). WO bits read 0 (R13). -/
def State.peek (s : State) (a : Nat) : Word :=
  if a = R.TIME_NOWL then BitVec.ofNat 32 (s.fine / 2 ^ 32)
  else if 0x40050100 ≤ a && a < 0x40050200 then s.recWin ((a - 0x40050100) / 4)
  else if a = R.ZAL_PEER_STAT then s.peerStat
  else if a = R.TIME_ACC then BitVec.ofNat 32 s.accNs
  else if a = R.GN_TACC then BitVec.ofNat 32 s.gnAcc
  else if 0x400C0000 ≤ a && a < 0x400C1000 && a % 0x100 = 4 then s.uartStat ((a - 0x400C0000) / 0x100)
  else if a = R.PWR_STAT then (F.PWR_STAT_RESTORING).into (if s.now < s.pwr.restoreEnd then 1 else 0) (s.word a)
  else if a = R.CP_STAT then
    match s.cp.op with
    | some o => (F.CP_STAT_ELAPSED_MS).into (s.msSince o.startAt 16) (s.word a)
    | none => s.word a
  else if 0x40180010 ≤ a && a < 0x40180030 then s.engWord ((a - 0x40180010) / 4)
  else if a = R.SRV_TBL_DATA then
    let lp := s.srv.loops[s.get F.SRV_TBL_SEL_LOOP]?
    match lp with
    | none => 0
    | some lp => if s.flag F.SRV_TBL_SEL_TBL then tblGet lp.cog (s.get F.SRV_TBL_SEL_IDX % 256) else tblGet lp.fric (s.get F.SRV_TBL_SEL_IDX)
  else if a = R.DSF_COEF_DATA then
    match s.dsf[s.get F.DSF_COEF_SEL_CH]? with
    | none => 0
    | some d => tblGet (if s.flag F.DSF_COEF_SEL_BANK then d.bankB else d.bankA)
        (s.get F.DSF_COEF_SEL_IDX + 128 * s.get F.DSF_COEF_SEL_STAGE)
  else if 0x400EF800 ≤ a && a < 0x400F0000 then
    let u := (a - 0x400EF800) / 0x400
    match s.srv.caps[u]? with
    | none => 0
    | some c => c.buf.getD (256 * s.get (F.SRV_CAP_WIN_PAGE u) + (a - 0x400EF800) % 0x400 / 4) 0
  else s.word a

/-- The word a snapshot list entry yields, and whether it was bad (R380). -/
def State.snapWord (s : State) (ofs : Nat) : Word × Bool :=
  let a := 0x40000000 + 4 * ofs
  match s.region a with
  | .regs =>
    match regDesc a with
    | some d => if s.domOn d.dom then (s.peek a, false) else (0, true)
    | none => (0, false)
  | _ => (0, true)

/-- Read a snapshot list, from entry 0 to its first entry with EN 0 (R380). -/
def State.snapshot (s : State) (l : Nat) : List (Word × Bool) :=
  ((List.range 64).takeWhile fun k => s.flag (F.REC_LIST_EN l k)).map fun k => s.snapWord (s.get (F.REC_LIST_OFS l k))

/-- SEV, OFF and LIST of event e (R379). -/
def State.evCfg (s : State) (e : Nat) : Nat × Bool × Nat :=
  let b := (s.word (R.REC_EVCFG (e / 4))).toNat / 256 ^ (e % 4) % 256
  (b % 8, (b / 8) % 2 == 1, (b / 16) % 8)

/-- Free records of severity at most sev, oldest first, until `need` slots are free; the one being written stays. -/
def freeUntil (keep : Option (BitVec 32)) (sev need : Nat) : Nat → List Rec → List Rec
  | _, [] => []
  | free, r :: t =>
    if need ≤ free then r :: t
    else if r.sev ≤ sev && some r.seq != keep then freeUntil keep sev need (free + recSlots r.vals.length) t
    else r :: freeUntil keep sev need free t

/-- The drop counter of a severity (R382). -/
def dropFld (sev : Nat) : Fld := if sev < 4 then ⟨R.REC_DROP0, 8 * sev, 8⟩ else ⟨R.REC_DROP1, 8 * (sev - 4), 8⟩

/-- Copy a record to the DRAM archive ring (R385). -/
def State.archive (s : State) (r : Rec) : State :=
  if !s.flag F.REC_ARCH_CFG_EN then s
  else if !s.domOn 13 then s.bump F.REC_CNT_ARCH_MISS
  else
    let size := 2 ^ s.get F.REC_ARCH_CFG_SIZE_LOG2
    let base := s.get F.REC_ARCH_BL_BASE + 2 ^ 32 * s.get F.REC_ARCH_BH_BASE
    let w := s.get F.REC_ARCH_WIDX_WIDX
    let n := recSlots r.vals.length
    let bytes := recBytes r
    let bytes := bytes ++ List.replicate (32 * n - bytes.length) 0
    let s := (List.range n).foldl (fun t i => t.storeBytes (base + 32 * ((w + i) % size)) (bytes.drop (32 * i) |>.take 32)) s
    s.set F.REC_ARCH_WIDX_WIDX ((w + n) % size)

/-- Write a record, freeing space or dropping it (R382). A loaf's write then runs (R381). -/
def State.putRec (s : State) (r : Rec) : State :=
  let need := recSlots r.vals.length
  let before := s.recd.recs
  let free := 65536 - usedSlots before
  let freeable := usedSlots (before.filter fun q => decide (q.sev ≤ r.sev) && some q.seq != s.recd.writing)
  if free + freeable < need then
    (s.bump (dropFld r.sev)).arrive 312 (BitVec.ofNat 32 r.sev)
  else
    let kept := freeUntil s.recd.writing r.sev need free before
    let s := { s with recd := { s.recd with recs := kept ++ [r] } }
    let s := s.pmu 204
    let s := s.afterFree before
    let s := s.archive r
    if r.kind = 0 then s
    else
      let s := { s with recd := { s.recd with writing := some r.seq, followOn := decide (r.kind = 2) } }
      s.setFlag F.REC_STAT_BUSY true

/-- The next SEQ (R377). -/
def State.takeSeq (s : State) : State := s.setWord R.REC_SEQ (s.word R.REC_SEQ + 1)

/-- An event of the recorder: a crumb, or a loaf with the snapshot of its list (R376 to R382). -/
def State.record (s : State) (e : Nat) (cause : Word) (k : RecKind) : State :=
  let c := s.evCfg e
  if c.2.1 then s
  else
    match k with
    | .none => s
    | .crumb =>
      let r : Rec := ⟨s.word R.REC_SEQ, 0, c.1, false, s.stamp, e, cause, 0, s.cycNum, s.nodeId, []⟩
      (s.takeSeq).putRec r
    | .loaf =>
      if s.recd.writing.isSome then
        let s := (s.bump F.REC_CNT_COALESCED).pmu 205
        { s with recd := { s.recd with coal := some (match s.recd.coal with
          | some q => { q with sev := max q.sev c.1, num := q.num + 1 }
          | none => ⟨e, c.1, 1, cause⟩) } }
      else
        let v := s.snapshot c.2.2
        let r : Rec := ⟨s.word R.REC_SEQ, 1, c.1, v.any (·.2), s.stamp, e, cause, 0, s.cycNum, s.nodeId, v.map (·.1)⟩
        (s.takeSeq).putRec r

/-- A unit's event: the arrival of its source, and its record. -/
def State.event (s : State) (n : Nat) (info : Word) (k : RecKind) : State := (s.arrive n info).record n info k

/-- The end of a loaf's write: a clear that met it frees it, and one follow-on loaf stands for the triggers
coalesced during the write (R381, R384). -/
def State.loafEnd (s : State) : State :=
  match s.recd.writing with
  | none => s
  | some q =>
    let before := s.recd.recs
    let gone := s.recd.clearWriting
    let s := { s with recd := { s.recd with writing := none, followOn := false, clearWriting := false,
                                            recs := if gone then before.filter (fun r => r.seq != q) else before } }
    let s := (s.setFlag F.REC_STAT_BUSY false).afterFree before
    match s.recd.coal with
    | none => s
    | some c =>
      let s := { s with recd := { s.recd with coal := none } }
      let v := s.snapshot (s.evCfg c.evt).2.2
      let r : Rec := ⟨s.word R.REC_SEQ, 2, c.sev, v.any (·.2), s.stamp, c.evt, c.cause, BitVec.ofNat 32 c.num,
                      s.cycNum, s.nodeId, v.map (·.1)⟩
      (s.takeSeq).putRec r

end Sys2Proof.Machine
end

