-- ==== Sys2Proof/Machine/CanBuf.lean ====
section
/-!
DEFINITION. CAN controllers' timing and message buffers (16_can R271, R273, R274): bit times, frame times, and the payload
of an attempt as it stood at its SOF bit's sample point. They stand before the servo engine, which writes buffers.
-/
namespace Sys2Proof.Machine

/-- Controller c's hidden state. -/
def State.canC (s : State) (c : Nat) : Can := s.can.getD c .init

/-- Change controller c's hidden state. -/
def State.modCan (s : State) (c : Nat) (f : Can → Can) : State := { s with can := padMod .init c f s.can }

/-- The controller runs. -/
def State.canOn (s : State) (c : Nat) : Bool := s.domOn 12 && s.flag (F.CAN_CFG_EN c)

/-- Bus-off. -/
def State.canOff (s : State) (c : Nat) : Bool := s.get (F.CAN_STAT_ESTATE c) == 2

/-- MODE, 3 read as 0: 0 normal, 1 listen-only, 2 loopback. -/
def State.canMode (s : State) (c : Nat) : Nat := s.get (F.CAN_CFG_MODE c) % 3

/-- Does the controller hear the bus? Not in bus-off, and in loopback its own frames alone (R270). -/
def State.canHears (s : State) (c : Nat) : Bool := s.canOn c && !s.canOff c && s.canMode c != 2

/-- May the controller send on the bus: in normal mode, not in bus-off (R270)? -/
def State.canTalks (s : State) (c : Nat) : Bool := s.canOn c && !s.canOff c && s.canMode c == 0

/-- A data frame on the bus: ESI, in an FD frame, is the controller's error state (R270). -/
def State.canEmit (s : State) (c ident : Nat) (ide fdf brs : Bool) (d : List Byte) : State :=
  s.emit (.can c ident ide fdf (fdf && brs) (fdf && s.get (F.CAN_STAT_ESTATE c) == 1) d)

/-- Show the error state of the counters (R270, R279). -/
def State.canState (s : State) (c : Nat) : State :=
  if s.canOff c then s
  else s.set (F.CAN_STAT_ESTATE c) (if 128 ≤ s.get (F.CAN_STAT_TEC c) || 128 ≤ s.get (F.CAN_STAT_REC c) then 1 else 0)

/-- A frame was received without error: the receive counter falls, and a lonely run ends (R279). -/
def State.canHeard (s : State) (c : Nat) : State :=
  let r := s.get (F.CAN_STAT_REC c)
  let s := (s.set (F.CAN_STAT_REC c) (if 128 ≤ r then 127 else r - 1)).canState c
  (s.pmu (92 + c)).modCan c fun x => { x with ackRun := 0 }

/-- A data frame was received: LONELY clears too (R279). -/
def State.canData (s : State) (c : Nat) : State := (s.canHeard c).setFlag (F.CAN_STAT_LONELY c) false

/-- A timing field, 0 read as 1. -/
def State.get1 (s : State) (f : Fld) : Nat := max 1 (s.get f)

/-- Is the controller in the NMEA 2000 profile? -/
def State.canN2k (s : State) (c : Nat) : Bool := s.flag (F.CAN_CFG_PROFILE c)

/-- A nominal bit in half ns: quanta of NBRP × 12.5 ns; 250 kbit/s in the profile (R271, R281). -/
def State.canBit (s : State) (c : Nat) : Nat :=
  if s.canN2k c then 8000
  else (1 + s.get1 (F.CAN_NBT_NTSEG1 c) + s.get1 (F.CAN_NBT_NTSEG2 c)) * s.get1 (F.CAN_NBT_NBRP c) * 25

/-- The sample point of a nominal bit from its start, in half ns. -/
def State.canSample (s : State) (c : Nat) : Nat :=
  if s.canN2k c then 6400 else (1 + s.get1 (F.CAN_NBT_NTSEG1 c)) * s.get1 (F.CAN_NBT_NBRP c) * 25

/-- A data bit in half ns. -/
def State.canDBit (s : State) (c : Nat) : Nat :=
  (1 + s.get1 (F.CAN_DBT_DTSEG1 c) + s.get1 (F.CAN_DBT_DTSEG2 c)) * s.get1 (F.CAN_DBT_DBRP c) * 25

/-- Does a buffer send an FD frame? -/
def State.canFd (s : State) (c b : Nat) : Bool :=
  s.flag (F.CAN_BCFG_FDF c b) && s.flag (F.CAN_CFG_FD_EN c) && !s.canN2k c

/-- The number of data bytes of a DLC. -/
def dlcLen (fd : Bool) (dlc : Nat) : Nat :=
  if !fd then min 8 dlc
  else match dlc with
    | 9 => 12 | 10 => 16 | 11 => 20 | 12 => 24 | 13 => 32 | 14 => 48 | 15 => 64
    | n => n

/-- The smallest DLC that holds n bytes. -/
def lenDlc (n : Nat) : Nat :=
  if n ≤ 8 then n else if n ≤ 12 then 9 else if n ≤ 16 then 10 else if n ≤ 20 then 11 else if n ≤ 24 then 12
  else if n ≤ 32 then 13 else if n ≤ 48 then 14 else 15

/-- A buffer's worst-case frame time FT in ns (R276): a classical frame's bits with worst-case stuffing and the
intermission; an FD frame's nominal and data phases (log entry 37). -/
def State.canFt (s : State) (c b : Nat) : Nat :=
  let ext := s.flag (F.CAN_BCFG_IDE c b) || s.canN2k c
  let fd := s.canFd c b
  let n := dlcLen fd (s.get (F.CAN_BCFG_DLC c b))
  if !fd then
    let bits := if ext then 67 + 8 * n + (53 + 8 * n) / 4 else 47 + 8 * n + (33 + 8 * n) / 4
    bits * s.canBit c / 2
  else
    let arb := if ext then 36 else 17
    let crc := if n ≤ 16 then 4 + 17 + 6 else 4 + 21 + 7
    let nom := arb + (arb - 1) / 4 + 12
    let dat := 5 + 8 * n + (5 + 8 * n + 3) / 4 + crc + 1
    let db := if s.flag (F.CAN_BCFG_BRS c b) then s.canDBit c else s.canBit c
    (nom * s.canBit c + dat * db) / 2

/-- Show FT_NS of a buffer. -/
def State.canShowFt (s : State) (c b : Nat) : State := s.set (F.CAN_BST_FT_NS c b) (min (2 ^ 21 - 1) (s.canFt c b))

/-- The first n data bytes of a buffer. -/
def State.canBytes (s : State) (c b n : Nat) : List Byte :=
  ((List.range ((n + 3) / 4)).map fun i => leBytes 4 (s.word (R.CAN_BDATA c b i)).toNat).flatten.take n

/-- The payload an attempt of a buffer sends now. -/
def State.canPayload (s : State) (c b : Nat) (ref : Option Nat) : List Byte :=
  let d := s.canBytes c b (dlcLen (s.canFd c b) (s.get (F.CAN_BCFG_DLC c b)))
  match ref, d with
  | some r, _ :: t => BitVec.ofNat 8 r :: t
  | _, d => d

/-- Before a buffer's data changes: a slot whose first attempt has passed its SOF bit's sample point keeps the payload it
copied there (R274). -/
def State.canCapture (s : State) (c b : Nat) : State :=
  match (s.canC c).slot with
  | none => s
  | some w =>
    match w.sof, w.copy with
    | some t, none =>
      if w.buf = b && decide (2 * t + s.canSample c ≤ 2 * s.now) then
        let d := s.canPayload c b w.refRow
        s.modCan c fun x => { x with slot := some { w with copy := some d } }
      else s
    | _, _ => s

end Sys2Proof.Machine
end

