-- ==== Sys2Proof/Machine/Elem.lean ====
section
/-!
DEFINITION. Sine to power, within 1 ulp of the exact value (18_block_code R315). A function is computed in integers scaled by
2^1300, with an error far below the smallest binary64; which of the binary64 values within 1 ulp of it comes out is open
(`Config.ulpPick`, log entry 3).
-/
namespace Sys2Proof.Machine

/-! From an exact value to a binary64. -/

/-- The bits of the largest binary64 not above m · 2^e, and whether it is below; beyond the largest finite value, infinity. -/
def floorBits (m : Nat) (e : Int) : Nat × Bool :=
  if m = 0 then (0, false)
  else
    let q : Int := max ((Nat.log2 m : Int) + e - 52) (-1074)
    let r : Nat := if q ≤ e then m * 2 ^ (e - q).toNat else m / 2 ^ (q - e).toNat
    let more : Bool := if q ≤ e then false else m % 2 ^ (q - e).toNat != 0
    let body : Nat := if r < 2 ^ 52 then r else (q + 1075).toNat * 2 ^ 52 + (r - 2 ^ 52)
    if inf64.toNat ≤ body then (inf64.toNat, false) else (body, more)

/-- The place of the binary64 below v · 2^e, or of the one above, in the order of the binary64 values; 0 is zero's. -/
def placeOf (up' : Bool) (v : Int) (e : Int) : Int :=
  let r := floorBits v.natAbs e
  let away := up' == decide (0 ≤ v)
  let k : Int := if away && r.2 then r.1 + 1 else r.1
  if v < 0 then -k else k

/-- The binary64 at a place. -/
def ofPlace (k : Int) : Word64 := if k < 0 then BitVec.ofNat 64 (2 ^ 63 + k.natAbs) else BitVec.ofNat 64 k.natAbs

/-- A function's result: one of the binary64 values within 1 ulp of v · 2^e, which is the exact value to within 2^160 · 2^e (R315;
log entry 3). -/
def within1 (fn : Nat) (x y : Word64) (v e : Int) : Word64 :=
  let lo := placeOf false (v - 2 ^ 160) e
  let hi := placeOf true (v + 2 ^ 160) e
  ofPlace (lo + (Config.ulpPick fn x y % ((hi - lo).toNat + 1) : Nat))

/-! Numbers scaled by 2^p. -/

/-- The scale of the computed values. -/
def elP : Nat := 1300

/-- The scaled product. -/
def qmul (p : Nat) (a b : Int) : Int := a * b / 2 ^ p

/-- The scaled value of an unpacked number. -/
def qof (p : Nat) (m : Nat) (e : Int) : Int := if 0 ≤ e + p then m * 2 ^ (e + p).toNat else m / 2 ^ (-(e + p)).toNat

/-- The sum of z^(2k + 1) / (2k + 1) from a term on, with the signs alternating or not: arctangent and inverse hyperbolic tangent. -/
def oddSeries (p : Nat) (alt : Bool) (zz : Int) : Nat → Nat → Int → Int
  | 0, _, _ => 0
  | n + 1, k, t => (if alt && k % 2 == 1 then -(t / (2 * k + 1 : Nat)) else t / (2 * k + 1 : Nat)) + oddSeries p alt zz n (k + 1) (qmul p t zz)

/-- The sum of the terms t, t · z / (k (k + 1)), … for steps of two in k: sine and cosine with z = -x². -/
def facSeries (p : Nat) (z : Int) : Nat → Nat → Int → Int
  | 0, _, _ => 0
  | n + 1, k, t => t + facSeries p z n (k + 2) (qmul p t z / ((k * (k + 1) : Nat) : Int))

/-- π by Machin's formula. -/
def qpi (p : Nat) : Int :=
  let inv (n : Nat) : Int := oddSeries (p + 16) true (2 ^ (p + 16) / (n * n : Nat)) (p / 4 + 8) 0 (2 ^ (p + 16) / n)
  (16 * inv 5 - 4 * inv 239) / 2 ^ 16

/-- The square root of a scaled number. -/
def qsqrt (p : Nat) (a : Int) : Int := (isqrtAux (a.toNat * 2 ^ p) (p + 2) 0 : Nat)

/-- The arctangent of a scaled number in [0, 1]: the argument is halved eight times. -/
def qatan (p : Nat) (a : Int) : Int :=
  let half (z : Int) : Int := z * 2 ^ p / (2 ^ p + qsqrt p (2 ^ p + qmul p z z))
  let z := half (half (half (half (half (half (half (half a)))))))
  256 * oddSeries p true (qmul p z z) (p / 16 + 8) 0 z

/-- The arctangent of y / x for y, x ≥ 0, not both 0. -/
def qatan2 (p : Nat) (y x : Int) : Int :=
  if y ≤ x then qatan p (y * 2 ^ p / x) else qpi p / 2 - qatan p (x * 2 ^ p / y)

/-- The natural logarithm of m · 2^e, m > 0. -/
def qln (p : Nat) (m : Nat) (e : Int) : Int :=
  let l : Int := Nat.log2 m
  let f : Int := qof p m (-l)
  let z (n d : Int) : Int := n * 2 ^ p / d
  let ser (t : Int) : Int := 2 * oddSeries p false (qmul p t t) (p / 3 + 8) 0 t
  ser (z (f - 2 ^ p) (f + 2 ^ p)) + (l + e) * ser (z 1 3)

/-- The exponential of a scaled number as v · 2^k. -/
def qexp (p : Nat) (t : Int) : Int × Int :=
  let ln2 := qln p 2 0
  let k := t / ln2
  let r := t - k * ln2
  let rec go : Nat → Nat → Int → Int
    | 0, _, _ => 0
    | n + 1, i, u => u + go n (i + 1) (qmul p u r / (i : Int))
  (go 300 1 (2 ^ p), k - p)

/-! Sine and cosine. -/

/-- The quadrant of |x| and the scaled rest above it. -/
def quadrant (m : Nat) (e : Int) : Nat × Int :=
  let p := elP + 1100
  let h := qpi p / 2
  let x := qof p m e
  ((x / h % 4).toNat, x % h / 2 ^ 1100)

/-- Sine and cosine of the scaled rest in a quadrant. -/
def qsincos (q : Nat) (r : Int) : Int × Int :=
  let z := -(qmul elP r r)
  let s := facSeries elP z 180 2 r
  let c := facSeries elP z 180 1 (2 ^ elP)
  match q with
  | 0 => (s, c)
  | 1 => (c, -s)
  | 2 => (-s, -c)
  | _ => (-c, s)

/-- Sine and cosine of a finite number, scaled. -/
def sincosOf (s : Bool) (m : Nat) (e : Int) : Int × Int :=
  let q := quadrant m e
  let r := qsincos q.1 q.2
  (if s then -r.1 else r.1, r.2)

/-- A function of a finite number; an argument that is no finite number gives the default NaN. -/
def ofFin (fn : Nat) (x : Word64) (f : Bool → Nat → Int → Int × Int) : Word64 :=
  match up x with
  | .fin s m e => let r := f s m e; within1 fn x 0 r.1 r.2
  | _ => nan64

/-- SIN (R315). -/
def fsin (x : Word64) : Word64 := ofFin 32 x fun s m e => ((sincosOf s m e).1, -(elP : Int))
/-- COS. -/
def fcos (x : Word64) : Word64 := ofFin 33 x fun s m e => ((sincosOf s m e).2, -(elP : Int))
/-- TAN. -/
def ftan (x : Word64) : Word64 := ofFin 34 x fun s m e =>
  let r := sincosOf s m e
  (r.1 * 2 ^ elP / r.2, -(elP : Int))

/-! Inverse functions. -/

/-- √(1 - x²), scaled, of a scaled number in [0, 1]. -/
def qleg (a : Int) : Int := qsqrt elP (2 ^ elP - qmul elP a a)

/-- ASIN on [-1, 1]. -/
def fasin (x : Word64) : Word64 := ofFin 35 x fun s m e =>
  let a := qof elP m e
  let r := qatan2 elP a (qleg a)
  (if s then -r else r, -(elP : Int))

/-- ACOS on [-1, 1]. -/
def facos (x : Word64) : Word64 := ofFin 36 x fun s m e =>
  let a := qof elP m e
  let r := qatan2 elP (qleg a) a
  (if s then qpi elP - r else r, -(elP : Int))

/-- A magnitude in a common scale with another: m · 2^e over 2^g; infinity stands far beyond both. -/
def overExp (g : Int) (m : Nat) (e : Int) : Int := m * 2 ^ (e - g).toNat

/-- The arctangent of y / x, scaled, for a point given by the signs and magnitudes of y and x; of the origin 0 (log entry 3). -/
def qangle (sy sx : Bool) (y x : Int) : Int :=
  let r := if y = 0 && x = 0 then 0 else qatan2 elP y x
  let r := if sx then qpi elP - r else r
  if sy then -r else r

/-- ATAN2: of infinite arguments as of a point far out in that direction (log entry 3). -/
def fatan2 (y x : Word64) : Word64 :=
  let at' (sy sx : Bool) (a b : Int) : Word64 := within1 38 y x (qangle sy sx a b) (-(elP : Int))
  match up y, up x with
  | .fin sy m e, .fin sx n f => at' sy sx (overExp (min e f) m e) (overExp (min e f) n f)
  | .inf sy, .fin sx _ _ => at' sy sx 1 0
  | .fin sy _ _, .inf sx => at' sy sx 0 1
  | .inf sy, .inf sx => at' sy sx 1 1
  | _, _ => nan64

/-- ATAN. -/
def fatan (x : Word64) : Word64 :=
  match up x with
  | .nan => nan64
  | .inf s => within1 37 x 0 (qangle s false 1 0) (-(elP : Int))
  | .fin s m e => within1 37 x 0 (qangle s false (overExp (min e 0) m e) (overExp (min e 0) 1 0)) (-(elP : Int))

/-! Exponentials and logarithms. -/

/-- e^t for a scaled t, times ±1: beyond the range of binary64 an infinity or what lies within 1 ulp of 0. -/
def expTo (fn : Nat) (x y : Word64) (neg : Bool) (t : Int) : Word64 :=
  let lim : Int := 2000 * 2 ^ elP
  let r := qexp elP (max (-lim) (min lim t))
  within1 fn x y (if neg then -r.1 else r.1) r.2

/-- EXP. -/
def fexp (x : Word64) : Word64 :=
  match up x with
  | .nan => nan64
  | .inf s => if s then zero64 else inf64
  | .fin s m e =>
    let t := qof elP m (min e 64)
    expTo 39 x 0 false (if s then -t else t)

/-- LN of a positive number. -/
def fln (x : Word64) : Word64 :=
  match up x with
  | .inf false => inf64
  | .fin false m e => if m = 0 then nan64 else within1 40 x 0 (qln elP m e) (-(elP : Int))
  | _ => nan64

/-- LOG, base 10, of a positive number. -/
def flog (x : Word64) : Word64 :=
  match up x with
  | .inf false => inf64
  | .fin false m e => if m = 0 then nan64 else within1 41 x 0 (qln elP m e * 2 ^ elP / qln elP 10 0) (-(elP : Int))
  | _ => nan64

/-- Is a finite number an odd integer? -/
def oddInt (m : Nat) (e : Int) : Bool :=
  if 0 ≤ e then e == 0 && m % 2 == 1 else m % 2 ^ (-e).toNat == 0 && m / 2 ^ (-e).toNat % 2 == 1

/-- ±0 and ±∞. -/
def szero (neg : Bool) : Word64 := if neg then fneg zero64 else zero64
def sinf (neg : Bool) : Word64 := if neg then fneg inf64 else inf64

/-- EXPT: x to the power y; with an infinity or a zero among the arguments the limit (log entry 3). -/
def fpow (x y : Word64) : Word64 :=
  let y0 := feq y zero64
  let big := flt one64 (fabs x)
  match up x, up y with
  | .nan, _ => nan64
  | _, .nan => nan64
  | _, .inf s => if feq (fabs x) one64 then one64 else if big == s then zero64 else inf64
  | .inf sx, .fin sy m e =>
    if y0 then one64 else if sy then szero (sx && oddInt m e) else sinf (sx && oddInt m e)
  | .fin sx n f, .fin sy m e =>
    if y0 then one64
    else if n = 0 then (if sy then sinf (sx && oddInt m e) else szero (sx && oddInt m e))
    else
      let l := qln elP n f
      let t := if 0 ≤ e then l * (m * 2 ^ e.toNat : Nat) else l * m / 2 ^ (-e).toNat
      expTo 42 x y (sx && oddInt m e) (if sy then -t else t)

end Sys2Proof.Machine
end

