-- ==== Sys2Proof/Machine/Servo.lean ====
section
/-!
DEFINITION. The thruster servo engine: loops, command entries, injection, capture and encoders (09_thruster_servo R150 to
R163), and the outputs a loop writes (10_field_filters R178, 16_can R274).
-/
namespace Sys2Proof.Machine

/-- Change the servo engine's state. -/
def State.modSrv (s : State) (f : Servo → Servo) : State := { s with srv := f s.srv }
/-- A loop's hidden state. -/
def State.loop (s : State) (n : Nat) : Loop := s.srv.loops.getD n .init
/-- Change a loop's hidden state. -/
def State.modLoop (s : State) (n : Nat) (f : Loop → Loop) : State :=
  s.modSrv fun v => { v with loops := padMod .init n f v.loops }

/-- A loop's state: 0 DISABLED, 1 LOOP_OPEN, 2 CLOSED, 3 HOLD, 4 FAULT. -/
def State.srvState (s : State) (n : Nat) : Nat := s.get (F.SRV_LSTAT_STATE n)

/-- The period of a RATE in ns (R150). -/
def ratePeriod (r : Nat) : Nat := 62500 * 2 ^ r
/-- A loop's period in ns. -/
def State.srvPeriod (s : State) (n : Nat) : Nat := ratePeriod (s.get (F.SRV_LCFG_RATE n))

/-! Fixed point (R6, R154, R156). -/

/-- n / d, exact where it divides; else one of the two whole numbers beside it, and which is open (log entry 27). -/
def fxDiv (n : Int) (d : Nat) : Int := n / d + (if n % d ≠ 0 && Config.fxUp n d then 1 else 0)

/-- Saturation to 32 bits. -/
def sat32 (v : Int) : Int := clampI (-2147483648) 2147483647 v

/-- Does a value need saturation? -/
def sats (v : Int) : Bool := decide (sat32 v ≠ v)

/-- A value of the datapath, and whether it or one it was computed from saturated. -/
structure Fx where
  v : Int
  sat : Bool
  deriving DecidableEq, Repr

/-- A result saturates to 32 bits (R154). -/
def Fx.of (t : Bool) (r : Int) : Fx := ⟨sat32 r, t || sats r⟩
def Fx.lit (r : Int) : Fx := ⟨r, false⟩
def Fx.add (a b : Fx) : Fx := .of (a.sat || b.sat) (a.v + b.v)
def Fx.sub (a b : Fx) : Fx := .of (a.sat || b.sat) (a.v - b.v)
/-- A product with a number of f fractional bits. -/
def Fx.mul (a b : Fx) (f : Nat) : Fx := .of (a.sat || b.sat) (fxDiv (a.v * b.v) (2 ^ f))
/-- A value times num / den, as the engine folds the period in (R154). -/
def Fx.fold (a : Fx) (num den : Nat) : Fx := .of a.sat (fxDiv (a.v * num) den)

/-- A binary32 as an exact rational: numerator and denominator; none for a NaN or an infinity. -/
def ratOf32 (w : Word) : Option (Int × Nat) :=
  match unpack fmt32 w.toNat with
  | .fin sg m e =>
    let v : Int := if sg then -(m : Int) else (m : Int)
    if 0 ≤ e then some (v * 2 ^ e.toNat, 1) else some (v, 2 ^ (-e).toNat)
  | _ => none

/-- A binary64 in signal Q, to nearest, saturating (R153); what is no number has no stated result. -/
def toSignal (qf : Nat) (x : Word64) : Int × Bool :=
  if fisNaN x then (sat32 (Config.fxNaN 0), false)
  else let r := ftoSat 32 .nearest (fmul x (fofIntE 1 qf)); (r.1, r.2.ovf)

/-- wrap() of R154: into [-SPAN/2, SPAN/2) when WRAP is 1. -/
def State.srvWrap (s : State) (n : Nat) (x : Int) : Int :=
  if !s.flag (F.SRV_LCFG_WRAP n) then x
  else
    let sp := s.geti (R.SRV_WRAP_SPAN n)
    let r := x % sp
    if 2 * r ≥ sp then r - sp else r

/-! Capture (R162). -/

/-- Change a capture unit. -/
def State.modCap (s : State) (u : Nat) (f : Capture → Capture) : State :=
  s.modSrv fun v => { v with caps := padMod ⟨[], false, [], [], 0, []⟩ u f v.caps }
/-- A capture unit's hidden state. -/
def State.cap (s : State) (u : Nat) : Capture := s.srv.caps.getD u ⟨[], false, [], [], 0, []⟩

/-- Number of channels of a capture unit, and channel j's loop and signal. -/
def State.capN (s : State) (u : Nat) : Nat := s.get (F.CAP_CFG_NCH u) + 1
def State.capCh (s : State) (u j : Nat) : Nat × Nat :=
  let b := (s.word (R.CAP_CH u)).toNat / 256 ^ j % 256
  (b % 32, b / 32)

/-- The trigger of an armed unit. -/
def State.capTrigger (s : State) (u : Nat) : State :=
  if s.get (F.CAP_STAT_STATE u) = 1 && !(s.cap u).trig then
    (s.modCap u fun c => { c with trig := true }).set (F.CAP_STAT_STATE u) 2
  else s

/-- A trigger of kind k on loop n (2 injection start, 3 a state change or a sticky flag). -/
def State.capOn (s : State) (k n : Nat) : State :=
  (List.range 2).foldl (fun t u =>
    if t.get (F.CAP_CFG_TRIG u) = k && t.get (F.CAP_CFG_TLOOP u) = n then t.capTrigger u else t) s

/-- Set sticky flags (a mask in the order of R156, bit 8 PLAUS); the first to set after a clear raises the source. A clear shows as a
flag that was set and is not (R156). A flag that sets triggers a capture of TRIG 3 (R162). -/
def State.srvSticky (s : State) (n : Nat) (m : Nat) : State :=
  let old := s.get (F.SRV_LSTAT_SAT n) + 256 * s.get (F.SRV_LSTAT_PLAUS n)
  let l := s.loop n
  let arm := l.flagArm || (old ||| l.flagSeen) != old
  let new := old ||| m
  let s := s.modLoop n fun x => { x with flagSeen := new, flagArm := arm && new == old }
  if new = old then s
  else
    let s := (s.set (F.SRV_LSTAT_SAT n) (new % 256)).set (F.SRV_LSTAT_PLAUS n) (new / 256)
    (if arm then s.arrive (184 + n) (s.word (R.SRV_LSTAT n)) else s).capOn 3 n

/-- One signal of a loop. -/
def State.loopSignal (s : State) (n k : Nat) : Word :=
  match k with
  | 0 => s.word (R.SRV_LIM n) | 1 => s.word (R.SRV_FB n) | 2 => s.word (R.SRV_E n) | 3 => s.word (R.SRV_U n)
  | 4 => s.word (R.SRV_I n) | 5 => BitVec.ofInt 32 (s.loop n).injVal | 6 => s.word (R.SRV_YM n) | _ => s.word (R.SRV_RAW n)

/-- Take the samples of loop n at its output instant: every DECIM periods, PRE before the trigger, LEN in all. -/
def State.capSample (s : State) (n : Nat) : State :=
  (List.range 2).foldl (fun t u =>
    let st := t.get (F.CAP_STAT_STATE u)
    if st ≠ 1 && st ≠ 2 then t
    else (List.range (t.capN u)).foldl (fun t j =>
      let (l, sg) := t.capCh u j
      if l ≠ n then t
      else
        let dec := if t.get (F.CAP_CFG_DECIM u) = 0 then 256 else t.get (F.CAP_CFG_DECIM u)
        let c := t.cap u
        let k := c.count.getD j 0
        let t := t.modCap u fun c => { c with count := modAt j (fun x => x + 1) c.count }
        if k % dec ≠ 0 then t
        else
          let v := t.loopSignal n sg
          let len := t.get (F.CAP_LEN_LEN u)
          let pre := min len (t.get (F.CAP_PRE_PRE u))
          t.modCap u fun c =>
            let h := c.chans.getD j []
            if !c.trig then { c with chans := modAt j (fun _ => (h ++ [v]).drop (h.length + 1 - pre)) c.chans }
            else if h.length < len then { c with chans := modAt j (fun _ => h ++ [v]) c.chans }
            else c) t) s

/-! Encoders (R163). -/

/-- Make an encoder invalid at every loop's next latch. -/
def State.encBad (s : State) (c : Nat) : State := s.modSrv fun v => { v with encs := padMod 0 c (fun _ => 2 ^ 24 - 1) v.encs }

/-- Is encoder c valid for loop n's latch? -/
def State.encOk (s : State) (c n : Nat) : Bool :=
  s.domOn 12 && decide (c < 12) && s.flag (F.ENC_CFG_EN c) && (s.srv.encs.getD c 0 / 2 ^ n) % 2 == 0

/-- Loop n's latch of the encoders ends their errors for it. -/
def State.encLatched (s : State) (n : Nat) : State :=
  s.modSrv fun v => { v with encs := v.encs.map fun m => if (m / 2 ^ n) % 2 = 1 then m - 2 ^ n else m }

/-- Counts per revolution; 0 is read as 1. -/
def State.cpr (s : State) (c : Nat) : Nat := max 1 (s.word (R.ENC_CPR c)).toNat

/-- Position modulo CPR. -/
def State.posMod (s : State) (c : Nat) : Nat := (s.word (R.ENC_POS c)).toNat % s.cpr c

/-! States (R157). -/

/-- Change a loop's state: the source, a crumb or on FAULT a loaf; a running injection stops. -/
def State.srvGo (s : State) (n st : Nat) : State :=
  if s.srvState n = st then s
  else
    let s := (s.set (F.SRV_LSTAT_STATE n) st).setFlag (F.SRV_LSTAT_INJ_RUN n) false
    let s := s.modLoop n fun l => { l with inj := none, injVal := 0, holdN := 0, tripDue := false }
    let s := s.event (208 + n) (s.word (R.SRV_LSTAT n)) (if st = 4 then .loaf else .crumb)
    s.capOn 3 n

/-- The first edge at or after an instant of device time, in half ns, of a clock whose period is m half ns: 25 is CLK_IO, 100 the
modulator clock. The edges lie on one grid, whose phase to the ticks of CLK_GN is fixed (R172, R173, R178, R352; log entry 207). -/
def State.ioEdge (s : State) (t m : Nat) : Nat :=
  let here : Int := 20 * s.time.ticks + 2 * s.time.sub + (t : Int) - 2 * s.now
  t + (((Config.ioPhase : Int) - here) % m).toNat

/-- Which loop drives a bitstream output: one that is not DISABLED, or one in the period in which its DISABLE writes SAFE_OUT (R157,
R178; log entry 246)? -/
def State.boutLoop (s : State) (k : Nat) : Option Nat :=
  (List.range 24).find? fun n => (s.srvState n != 0 || (s.loop n).offDue) && s.get (F.SRV_LIO_OUT_KIND n) == 1 && s.get (F.SRV_LIO_OUT_IDX n) == k

/-- A filter channel's hidden state. -/
def State.ch (s : State) (n : Nat) : Dsf := s.dsf.getD n .init
/-- Change it. -/
def State.modDsf (s : State) (n : Nat) (f : Dsf → Dsf) : State := { s with dsf := padMod .init n f s.dsf }

/-- The value an output's modulator takes, in 2^-31 of full scale: its loop's output, else with EN DSF_BOUT_VAL, else 0 (R178). -/
def State.boutVal (s : State) (k : Nat) : Int :=
  match s.boutLoop k with
  | some n => s.geti (R.SRV_U n) * 2 ^ (31 - s.get (F.SRV_LCFG_QF n))
  | none => if s.flag (F.DSF_BOUT_CFG_EN k) then ((s.word (R.DSF_BOUT_VAL k)).truncate 24 : BitVec 24).toInt * 256 else 0

/-- The ones density (1 + 0.9 v) / 2 of a value v / 2^31, as a numerator over 20 × 2^31 (R178); of a value beyond full scale
the rule gives none (log entry 210). -/
def onesOf (v : Int) : Nat := if v.natAbs ≤ 2 ^ 31 then (10 * 2 ^ 31 + 9 * v).toNat else Config.onesOver v % (20 * 2 ^ 31 + 1)

/-- DSF_BOUT_CFG's DRIVER and LOOP show who drives each output, and a new value's density is on the ball from two modulator
clocks after the edge that takes it (R178). The modulator's bits beside their density are left open (log entry 210). -/
def State.showBout (s : State) : State :=
  (List.range 24).foldl (fun t k =>
    let t := match t.boutLoop k with
      | some n => (t.set (F.DSF_BOUT_CFG_DRIVER k) 2).set (F.DSF_BOUT_CFG_LOOP k) n
      | none => (t.set (F.DSF_BOUT_CFG_DRIVER k) (if t.flag (F.DSF_BOUT_CFG_EN k) then 1 else 0)).set (F.DSF_BOUT_CFG_LOOP k) 0
    let d := onesOf (t.boutVal k)
    if !t.domOn 12 || (t.ch k).ones == d then t
    else (t.modDsf k fun c => { c with ones := d }).emit (.ones k d (t.ioEdge (2 * t.now) 100 + 200))) s

/-- A loop's output at its destination (R151, R178, R274): a bitstream value, or four data bytes of a CAN buffer. -/
def State.srvDrive (s : State) (n : Nat) (u : Int) : State :=
  let w := BitVec.ofInt 32 u
  let now := s.now
  let s := (s.setWord (R.SRV_U n) w).modLoop n fun l => { l with u := u, uAt := now, uOld := l.u }
  let idx := s.get (F.SRV_LIO_OUT_IDX n)
  match s.get (F.SRV_LIO_OUT_KIND n) with
  | 1 => (s.emit (.drive 1 idx w)).showBout
  | 2 =>
    let c := idx / 64
    let b := idx % 64
    let dofs := s.get (F.CAN_BCFG_DOFS c b)
    let s := s.canCapture c b
    let s := (List.range 4).foldl (fun t i =>
      let o := dofs + i
      if 64 ≤ o then t
      else
        let a := R.CAN_BDATA c b (o / 4)
        t.set ⟨a, 8 * (o % 4), 8⟩ (w.toNat / 256 ^ i)) s
    s.emit (.drive 2 idx w)
  | _ => s

/-- The plausibility signal: fb, or its rate over the period (R160). -/
def State.plausSignal (s : State) (n : Nat) : Int :=
  let l := s.loop n
  if s.flag (F.SRV_LPL_PL_SRC n) then l.fb else ((Fx.sub (.lit l.fb) (.lit l.fbPrev)).fold 1000000000 (s.srvPeriod n)).v

/-- A value clamped to OMIN and OMAX. -/
def State.omClamp (s : State) (n : Nat) (v : Int) : Int := clampI (s.geti (R.SRV_OMIN n)) (s.geti (R.SRV_OMAX n)) v

/-- Feed-forward by the tables (R155): interpolated, 0 for index 15 and for an invalid encoder. -/
def State.tableTerm (s : State) (n : Nat) (fric : Bool) : Int :=
  let e := if fric then s.get (F.SRV_LTBL_FR_ENC n) else s.get (F.SRV_LTBL_COG_ENC n)
  if !s.encOk e n then 0
  else
    let cpr := s.cpr e
    let len := if fric then 1024 else 256
    let num := s.posMod e * len * (if fric then 1 else max 1 (s.get (F.SRV_LTBL_POLES n)))
    let k := (num / cpr) % len
    let l := if fric then (s.loop n).fric else (s.loop n).cog
    let v (i : Nat) : Int := (tblGet l (i % len)).toInt
    v k + fxDiv ((v (k + 1) - v k) * ((num % cpr : Nat) : Int)) cpr

/-- sign of a number. -/
def sgnI (v : Int) : Int := if v < 0 then -1 else if 0 < v then 1 else 0

/-- The feed-forward term at a setpoint rate (R154, R155). -/
def State.srvFf (s : State) (n : Nat) (rate : Fx) : Fx :=
  let k := Fx.mul (.lit (s.geti (R.SRV_KFF n))) rate (s.get (F.SRV_LCFG_GQF n))
  let fr := if decide (s.geti (R.SRV_FR_DB n) < ((rate.v.natAbs : Nat) : Int)) then sgnI rate.v * s.tableTerm n true else 0
  (k.add (.of false fr)).add (.of false (s.tableTerm n false))

/-- The feedback of a raw value: FB_GAIN × raw in signal Q, saturating (R154). -/
def State.fbOf (s : State) (n : Nat) (raw : Int) : Fx :=
  .of false (match ratOf32 (s.word (R.SRV_FB_GAIN n)) with
    | some (a, b) => fxDiv (a * raw * 2 ^ s.get (F.SRV_LCFG_QF n)) b
    | none => Config.fxNaN raw)

/-! Requests (R158). -/

/-- The shadow addresses of a loop's coefficient set. -/
def srvShadow (n : Nat) : List Nat := wordsFrom (R.SRV_LCFG n) 25

/-- Is an address one of a coefficient set? -/
def isSrvShadow (a : Nat) : Bool :=
  decide (0x400E0000 ≤ a) && decide (a < 0x400E3000) && decide (8 ≤ a % 0x200) && decide (a % 0x200 ≤ 0x68)

/-- A shadow coefficient set passes the checks of R158. -/
def State.coefOk (s : State) (n : Nat) : Bool :=
  let sg (a : Nat) : Int := (s.shWord a).toInt
  let g := s.getSh
  let rate := g (F.SRV_LCFG_RATE n)
  let ph := g (F.SRV_LPH_OUT_PH n)
  let src := g (F.SRV_LCFG_SP_SRC n)
  let cas := g (F.SRV_LCFG_CASC n)
  let fk := g (F.SRV_LIO_FB_KIND n)
  let fi := g (F.SRV_LIO_FB_IDX n)
  let ok := g (F.SRV_LIO_OUT_KIND n)
  let oi := g (F.SRV_LIO_OUT_IDX n)
  decide (sg (R.SRV_OMIN n) ≤ sg (R.SRV_OMAX n)) && decide (0 ≤ sg (R.SRV_IMAX n)) && decide (0 ≤ sg (R.SRV_SP_RATE n))
  && decide (0 ≤ sg (R.SRV_WRAP_SPAN n))
  && decide (rate ≤ 4) && decide (38 ≤ ph) && decide (ph < 37500 * 2 ^ rate)
  && src != 3 && ok != 3
  && (src != 2 || (cas != n && decide (cas < 24) && s.get (F.SRV_LCFG_RATE cas) == rate))
  && (src != 1 || decide (g (F.SRV_LCFG_CMD_IDX n) ≤ 23))
  && !((fk == 1 || fk == 2) && decide (11 < fi)) && !(fk == 3 && decide (23 < fi))
  && !(ok == 1 && decide (23 < oi))
  && !(ok != 0 && (List.range 24).any fun m => m != n && s.srvState m != 0 && s.get (F.SRV_LIO_OUT_KIND m) == ok
        && s.get (F.SRV_LIO_OUT_IDX m) == oi)

/-- The result of a request (R158). -/
def State.judge (s : State) (n op : Nat) : Nat :=
  let st := s.srvState n
  let l := s.loop n
  if op = 5 then
    if st = 2 || st = 3 || l.pend = some 4 then 1
    else if !s.coefOk n then 4
    else if l.commitPend then 5 else 0
  else
    let valid := match op with
      | 1 => st == 0
      | 2 => st != 0
      | 3 => st == 2 || st == 3 || st == 4
      | _ => st == 1
    if !valid then 3 else if l.pend.isSome then 5 else 0

/-- A write of SRV_LREQ: judged at the write, taken at the next period start (R158). -/
def lreqWrite (s : State) (d : Dom) (n : Nat) (v : Word) : State × CpSt :=
  s.writeGuard d (R.SRV_LREQ n) fun s =>
    let op := F.SRV_LREQ_OP n |>.of v
    if op = 0 || decide (5 < op) then (s, .ok)
    else
      let r := s.judge n op
      let s := s.set (F.SRV_LSTAT_LRES n) r
      if r = 0 || r = 5 then
        let s := s.modLoop n fun l => if op = 5 then { l with commitPend := true } else { l with pend := some op }
        (s.setFlag (F.SRV_LSTAT_PEND n) true, .ok)
      else (s, if r = 1 then .loopClosed else if r = 4 then .badParam else .notNow)

/-- SRV_ENABLE: the ENABLE request (R157, R158). -/
def execSrvEnable (d : Dom) (n : Fin 24) (s : State) : Host.Outcome State Fault Refusal := s.ends (lreqWrite s d n.val 1#32).1
/-- SRV_DISABLE: the DISABLE request (R157). -/
def execSrvDisable (d : Dom) (n : Fin 24) (s : State) : Host.Outcome State Fault Refusal := s.ends (lreqWrite s d n.val 2#32).1
/-- SRV_OPEN: the OPEN request (R157). -/
def execSrvOpen (d : Dom) (n : Fin 24) (s : State) : Host.Outcome State Fault Refusal := s.ends (lreqWrite s d n.val 3#32).1
/-- SRV_CLOSE: the CLOSE request (R157). -/
def execSrvClose (d : Dom) (n : Fin 24) (s : State) : Host.Outcome State Fault Refusal := s.ends (lreqWrite s d n.val 4#32).1
/-- SRV_COMMIT: the COMMIT request (R158). -/
def execSrvCommit (d : Dom) (n : Fin 24) (s : State) : Host.Outcome State Fault Refusal := s.ends (lreqWrite s d n.val 5#32).1

/-- A pending COMMIT is applied: the whole shadow and both tables. The feedback of another source is not valid before a latch of it,
and the present raw value counts under the new gain (log entry 205). -/
def State.applyCommit (s : State) (n : Nat) : State :=
  if (s.loop n).commitPend then
    let src (t : State) : Nat × Nat := (t.get (F.SRV_LIO_FB_KIND n), t.get (F.SRV_LIO_FB_IDX n))
    let old := src s
    let s := s.commitShadow (srvShadow n)
    let new := src s != old
    let s := s.modLoop n fun l => { l with commitPend := false, fric := l.fricSh, cog := l.cogSh, fbNew := l.fbNew || new,
                                           avg := if new then [] else l.avg }
    if new || !s.flag (F.SRV_LSTAT_FB_OK n) then s
    else
      let fb := (s.fbOf n (s.geti (R.SRV_RAW n))).v
      (s.modLoop n fun l => if l.fb = fb then l else { l with fb := fb, fbPrev := fb }).setWord (R.SRV_FB n) (BitVec.ofInt 32 fb)
  else s

/-- The model is set to the plausibility signal (R160). -/
def State.ymReset (s : State) (n : Nat) : State :=
  let v := s.plausSignal n
  (s.modLoop n fun l => { l with ym := v, plausN := 0 }).setWord (R.SRV_YM n) (BitVec.ofInt 32 v)

/-- LOOP_OPEN with an open output. -/
def State.toOpen (s : State) (n : Nat) (out : Int) : State :=
  ((s.setWord (R.SRV_OPEN_OUT n) (BitVec.ofInt 32 out)).modLoop n fun l => { l with openOut := out }).srvGo n 1

/-- FAULT with its cause (R157): from this period's OUT_PH on the output is SAFE_OUT (R151). -/
def State.toFault (s : State) (n cause : Nat) : State := (s.set (F.SRV_LSTAT_FCAUSE n) cause).srvGo n 4

/-- A state request is carried out (R157). SAFE_OUT of a DISABLE is written at this period's OUT_PH (R151). -/
def State.applyReq (s : State) (n : Nat) : State :=
  match (s.loop n).pend with
  | none => s
  | some op =>
    let s := s.modLoop n fun l => { l with pend := none }
    let st := s.srvState n
    match op with
    | 1 => if st = 0 then ((s.toOpen n (s.geti (R.SRV_OPEN_OUT n))).ymReset n) else s
    | 2 => if st = 0 then s else (s.srvGo n 0).modLoop n fun l => { l with offDue := true }
    | 3 =>
      if st = 2 || st = 3 then s.toOpen n (s.loop n).u
      else if st = 4 then ((s.set (F.SRV_LSTAT_FCAUSE n) 0).toOpen n (s.geti (R.SRV_SAFE_OUT n))).ymReset n
      else s
    | _ =>
      if st ≠ 1 then s
      else if !s.flag (F.SRV_LSTAT_FB_OK n) || (s.loop n).fbNew || s.get (F.SRV_LIO_FB_KIND n) = 0 then s.set (F.SRV_LSTAT_LRES n) 2
      else
        -- with lim = fb the error and the setpoint rate are 0, and so is p
        let im := s.geti (R.SRV_IMAX n)
        let want := s.geti (R.SRV_OPEN_OUT n) - (s.srvFf n (.lit 0)).v
        let i := if s.geti (R.SRV_KI n) ≠ 0 then clampI (-im) im want else 0
        (s.modLoop n fun l => { l with lim := l.fb, d := 0, integ := i }).srvGo n 2

/-! Injection (R161). -/

/-- Start an armed injection at a period start, or refuse it. -/
def State.injStart (s : State) (n : Nat) : State :=
  if !(s.loop n).injArmed then s
  else
    let tsl := s.word (R.SRV_INJ_TSL n)
    let ts : Stamp := (s.word (R.SRV_INJ_TSH n)).truncate 16 ++ tsl
    if s.flag (F.SRV_INJ_CFG_START n) && decide (sdiff s.stamp ts < 0) then s
    else
      let s := s.modLoop n fun l => { l with injArmed := false }
      let st := s.srvState n
      let half := fofRat 500000000 (s.srvPeriod n)
      let f0 := s.word (R.SRV_INJ_F0 n)
      let f1 := s.word (R.SRV_INJ_F1 n)
      if (st ≠ 1 && st ≠ 2) || !flt (f32to64 f0) half || !flt (f32to64 f1) half then s.setFlag (F.SRV_LSTAT_INJ_REF n) true
      else if s.get (F.SRV_INJ_CFG_WAVE n) = 0 || (s.word (R.SRV_INJ_DUR n)) = 0 then s
      else
        let p : Inj := ⟨s.get (F.SRV_INJ_CFG_WAVE n), s.get (F.SRV_INJ_CFG_POINT n), s.get (F.SRV_INJ_CFG_PRBS_N n),
          max 1 (s.get (F.SRV_INJ_CFG_HOLD n)), s.geti (R.SRV_INJ_AMP n), f0, f1, (s.word (R.SRV_INJ_DUR n)).toNat⟩
        let s := (s.modLoop n fun l => { l with inj := some p, injK := 0 }).setFlag (F.SRV_LSTAT_INJ_RUN n) true
        (s.setWord (R.SRV_INJ_EL n) 0).capOn 2 n

/-- End an injection. -/
def State.injEnd (s : State) (n : Nat) : State :=
  (s.modLoop n fun l => { l with inj := none, injVal := 0 }).setFlag (F.SRV_LSTAT_INJ_RUN n) false

/-- Count the periods of a running injection; it ends after DUR. -/
def State.injCount (s : State) (n : Nat) : State :=
  match (s.loop n).inj with
  | none => s
  | some p =>
    let k := (s.loop n).injK + 1
    let s := (s.modLoop n fun l => { l with injK := k }).setWord (R.SRV_INJ_EL n) (BitVec.ofNat 32 k)
    if p.dur ≤ k then s.injEnd n else s

/-- One shift of an n-bit register with the feedback of its taps. -/
def prbsNext (taps n x : Nat) : Nat := 2 * x % 2 ^ n + ((List.range n).filter fun i => (x &&& taps).testBit i).length % 2

/-- Do the taps run through all 2^n - 1 states from all ones? `k` states are still to come. -/
def prbsFull (taps n : Nat) : Nat → Nat → Bool
  | 0, x => prbsNext taps n x == 2 ^ n - 1
  | k + 1, x =>
    let y := prbsNext taps n x
    y != 0 && y != 2 ^ n - 1 && prbsFull taps n k y

/-- Taps of one maximal-length sequence of each length from 7 to 31. -/
def prbsKnown (n : Nat) : List Nat :=
  match n with
  | 7 => [7, 6] | 8 => [8, 6, 5, 4] | 9 => [9, 5] | 10 => [10, 7] | 11 => [11, 9] | 12 => [12, 6, 4, 1] | 13 => [13, 4, 3, 1]
  | 14 => [14, 5, 3, 1] | 15 => [15, 14] | 16 => [16, 15, 13, 4] | 17 => [17, 14] | 18 => [18, 11] | 19 => [19, 6, 2, 1]
  | 20 => [20, 17] | 21 => [21, 19] | 22 => [22, 21] | 23 => [23, 18] | 24 => [24, 23, 22, 17] | 25 => [25, 22]
  | 26 => [26, 6, 2, 1] | 27 => [27, 5, 2, 1] | 28 => [28, 25] | 29 => [29, 27] | 30 => [30, 6, 4, 1] | _ => [31, 28]

/-- The taps of the sequence: the open ones, when they are maximal (log entry 28). -/
def prbsTaps (n : Nat) : Nat :=
  if prbsFull (Config.prbsTaps n) n (2 ^ n - 2) (2 ^ n - 1) then Config.prbsTaps n else ((prbsKnown n).map fun i => 2 ^ (i - 1)).sum

/-- The register k bits on from its seed of all ones. -/
def prbsState (n : Nat) : Nat → Nat
  | 0 => 2 ^ n - 1
  | k + 1 => prbsNext (prbsTaps n) n (prbsState n k)

/-- Bit k of a maximal-length sequence of n bits, seeded all ones (R161): the bit that leaves the register. -/
def prbsBit (n k : Nat) : Bool :=
  if 7 ≤ n && n ≤ 31 then (prbsState n (k % (2 ^ n - 1))).testBit (n - 1) else Config.prbsBit n k

/-- The injected signal in a period (R161). -/
def State.injSignal (s : State) (n : Nat) : Int :=
  match (s.loop n).inj with
  | none => 0
  | some p =>
    let per := s.srvPeriod n
    let k := (s.loop n).injK
    let t := fofRat ((k * per : Nat) : Int) 1000000000
    let f0 := f32to64 p.f0
    let f1 := f32to64 p.f1
    let tp : Word64 := 0x401921FB54442D18
    let wav (ph : Word64) : Int := ftoInt .nearest (fmul (fofInt p.amp) (fmax (fneg one64) (fmin one64 (fsin (fmul tp ph)))))
    match p.wave with
    | 1 => wav (fmul f0 t)
    | 2 =>
      let dt := fofRat ((2 * p.dur * per : Nat) : Int) 1000000000
      wav (fadd (fmul f0 t) (fdiv (fmul (fsub f1 f0) (fmul t t)) dt))
    | 3 => if prbsBit p.prbsN (k / p.hold) then p.amp else -p.amp
    | _ => 0

/-! Setpoints (R152, R153). -/

/-- A loop takes entry k: its value becomes the setpoint; a NaN or an infinity is not taken and counts (R152, R153). -/
def State.takeEntry (s : State) (n k : Nat) : State :=
  let v0 := f32to64 (s.word (R.CMD_VAL0 k))
  let v1 := f32to64 (s.word (R.CMD_VAL1 k))
  let s := s.modLoop n fun l => { l with due := none }
  if !fisFin v0 || !fisFin v1 then s.bump (F.SRV_LCNT_NAN_CNT n)
  else
    let v := if s.flag (F.SRV_LCFG_CMD_COMP n) then v1 else v0
    let f := if s.flag (F.SRV_LCFG_MAP n) then (let r := fsqrt (fabs v); if fsign v then fneg r else r) else v
    let x := (fmaF (f32to64 (s.word (R.SRV_SP_GAIN n))) f (f32to64 (s.word (R.SRV_SP_OFS n)))).1
    let (sp, sat) := toSignal (s.get (F.SRV_LCFG_QF n)) x
    let now := s.now
    let s := (s.modLoop n fun l => { l with sp := sp, spAt := now }).setFlag (F.SRV_LSTAT_SP_STALE n) false
    if sat then s.srvSticky n 1 else s

/-- Does loop n take its setpoint from entry k? -/
def State.namesEntry (s : State) (n k : Nat) : Bool := s.get (F.SRV_LCFG_SP_SRC n) == 1 && s.get (F.SRV_LCFG_CMD_IDX n) == k

/-- Is this servo tick the first at or after entry k's take time and after its write (R152)? -/
def State.entryDue (s : State) (k : Nat) : Bool :=
  let (wr, ahead) := s.srv.entries.getD k (0, false)
  let take : Stamp := (s.word (R.CMD_TAKEH k)).truncate 16 ++ s.word (R.CMD_TAKEL k)
  ahead && decide (0 ≤ sdiff s.stamp take) && decide (wr < s.now)

/-- The servo tick of this instant, once (R152): an entry whose first tick it is goes to the loops of 8 and 16 kHz that name it; a
slower loop takes it at its first period start from here. -/
def State.servoTick (s : State) : State :=
  if s.srv.tickAt = s.now then s
  else
    let now := s.now
    let s := s.modSrv fun v => { v with tickAt := now }
    (List.range 24).foldl (fun t k =>
      if !t.entryDue k then t
      else
        let t := t.modSrv fun v => { v with entries := padMod (0, false) k (fun e => (e.1, false)) v.entries }
        (List.range 24).foldl (fun t n =>
          if !t.namesEntry n k then t
          else if t.get (F.SRV_LCFG_RATE n) ≤ 1 then t.takeEntry n k
          else t.modLoop n fun l => { l with due := some k }) t) s

/-- A slower loop takes the entry that waits for it; a write of the entry since then waits for its own tick (R152). -/
def State.takeDue (s : State) (n : Nat) : State :=
  match (s.loop n).due with
  | none => s
  | some k =>
    if s.namesEntry n k && !(s.srv.entries.getD k (0, false)).2 then s.takeEntry n k else s.modLoop n fun l => { l with due := none }

/-- The setpoint of a period (R153); a cascade takes its source's output as written at or before the feedback latch. -/
def State.setpoint (s : State) (n latch : Nat) : Int :=
  match s.get (F.SRV_LCFG_SP_SRC n) with
  | 1 => if s.flag (F.SRV_LSTAT_SP_STALE n) && s.flag (F.SRV_LCFG_SP_TMO_ACT n) then s.geti (R.SRV_SAFE_SP n) else (s.loop n).sp
  | 2 =>
    let c := s.loop (s.get (F.SRV_LCFG_CASC n))
    if c.uAt ≤ latch then c.u else c.uOld
  | _ => (s.loop n).sp

/-- Write a command entry (R152): values, take time, repeated or not. -/
def State.putEntry (s : State) (k : Nat) (v0 v1 : Word) (take : Stamp) (rep : Bool) : State :=
  let s := ((s.setWord (R.CMD_VAL0 k) v0).setWord (R.CMD_VAL1 k) v1).setWord (R.CMD_TAKEL k) (take.truncate 32)
  let s := ((s.set (F.CMD_TAKEH_TAKE_HI k) (take.toNat / 2 ^ 32)).setFlag (F.CMD_TAKEH_VALID k) true).setFlag (F.CMD_TAKEH_REP k) rep
  let now := s.now
  s.modSrv fun v => { v with entries := padMod (0, false) k (fun _ => (now, true)) v.entries }

/-! The period start (R150, R157, R158, R161). -/

/-- The instant of a loop's next period start. -/
def State.nextPeriod (s : State) (n : Nat) : Nat :=
  let p := s.srvPeriod n
  if s.now % p = 0 && s.now ≠ (s.loop n).perAt then s.now else nextMultiple s.now p

/-- The instant of a loop's next period, counted (R386). -/
def State.servoCount (s : State) (n : Nat) : State := (s.advanceTo (s.nextPeriod n)).pmu (128 + n)

/-- A plausibility trip acts; HOLD and back, by the feedback of the latest latch (R157). -/
def State.holdStep (s : State) (n : Nat) (ok : Bool) : State :=
  let st := s.srvState n
  if (s.loop n).tripDue && (st = 2 || st = 3) then s.toFault n 2
  else match st with
    | 2 => if ok then s else (s.srvGo n 3).bump (F.SRV_LCNT_HOLD_CNT n)
    | 3 =>
      if ok then s.srvGo n 2
      else
        let k := (s.loop n).holdN + 1
        if max 1 (s.get (F.SRV_LTMO_FB_HOLD n)) ≤ k then s.toFault n 1 else s.modLoop n fun l => { l with holdN := k }
    | _ => s

/-- What happens at a loop's period start: commit, request, the conditions of R157, the register values, a command entry, injection. -/
def State.periodStart (s : State) (n : Nat) : State :=
  if !s.domOn 8 then s
  else
    let s := s.servoCount n
    let now := s.now
    let s := if now % 125000 = 0 then s.servoTick else s
    let s := s.modLoop n fun l => { l with perAt := now, offDue := false }
    let s := (s.applyCommit n).applyReq n
    let s := s.setFlag (F.SRV_LSTAT_PEND n) false
    let s := (s.holdStep n (s.flag (F.SRV_LSTAT_FB_OK n))).modLoop n fun l => { l with tripDue := false }
    let s := s.modLoop n fun l => { l with openOut := s.geti (R.SRV_OPEN_OUT n),
                                           sp := if s.get (F.SRV_LCFG_SP_SRC n) = 0 then s.geti (R.SRV_SP n) else l.sp }
    (((s.takeDue n).injCount n).injStart n).showBout

/-- SERVO_PERIOD_START: a loop's period starts (R150). -/
def execServoPeriodStart (n : Fin 24) (s : State) : Host.Outcome State Fault Refusal := s.ends (s.periodStart n.val)

/-- SERVO_TICK: the next servo tick (R152). -/
def execServoTick (s : State) : Host.Outcome State Fault Refusal :=
  s.ends (
    if !s.domOn 8 then s
    else (s.advanceTo (if s.now % 125000 = 0 && s.now ≠ s.srv.tickAt then s.now else nextMultiple s.now 125000)).servoTick)

/-! The output instant (R151, R154, R156, R159, R160). -/

/-- The raw feedback and whether it is valid (R159); the position window of kind 2 moves on. -/
def State.latchFb (s : State) (n : Nat) : State × Int × Bool :=
  let i := s.get (F.SRV_LIO_FB_IDX n)
  match s.get (F.SRV_LIO_FB_KIND n) with
  | 1 =>
    let raw : Int := if s.flag (F.SRV_LCFG_WRAP n) then ((s.posMod i : Nat) : Int) else s.geti (R.ENC_POS i)
    (s, raw, s.encOk i n)
  | 2 =>
    let k := max 1 (s.get (F.SRV_LIO_SPD_AVG n))
    let win := ((s.geti (R.ENC_POS i), s.encOk i n) :: (s.loop n).avg).take (k + 1)
    let s := s.modLoop n fun l => { l with avg := win }
    match win[0]?, win[k]? with
    | some a, some b => (s, fxDiv (BitVec.ofInt 32 (a.1 - b.1)).toInt k, win.all (·.2))
    | _, _ => (s, 0, false)
  | 3 =>
    let v := s.get (F.DSF_OUT_SAMPLE i)
    let raw : Int := if 2 ^ 23 ≤ v then (v : Int) - 2 ^ 24 else v
    (s, raw, s.domOn 12 && decide (i < 24) && s.flag (F.DSF_STAT_PROOFED i) && s.flag (F.DSF_OUT_PROOFED i))
  | _ => (s, 0, false)

/-- The sticky flags of a stage. -/
def satBit (c : Bool) (k : Nat) : Nat := if c then 2 ^ k else 0

/-- The law of R154 over one period in CLOSED: the output, with its sticky flags. Saturation in the setpoint limiter shows as SAT_SP, in
the error as SAT_P (log entry 204). -/
def State.law154 (s : State) (n latch : Nat) : State × Nat :=
  let l := s.loop n
  let p := s.srvPeriod n
  let gq := s.get (F.SRV_LCFG_GQF n)
  let reg (a : Nat) : Fx := .lit (s.geti a)
  let step := (reg (R.SRV_SP_RATE n)).fold p 1000000000
  let df := Fx.sub (.lit (s.setpoint n latch)) (.lit l.lim)
  let dsp := s.srvWrap n df.v
  let lim := (Fx.lit l.lim).add (.lit (clampI (-step.v) step.v dsp))
  let rate := (lim.sub (.lit l.lim)).fold 1000000000 p
  let rate : Fx := ⟨rate.v, rate.sat && !lim.sat⟩
  let inj := s.injSignal n
  let pt1 := match l.inj with | some q => q.point == 1 | none => false
  let e0 := ((Fx.lit lim.v).add (.lit (if pt1 then 0 else inj))).sub (.lit l.fb)
  let e := s.srvWrap n e0.v
  let pp := (reg (R.SRV_KP n)).mul ⟨e, e0.sat⟩ gq
  let pole := s.geti (R.SRV_DF n)
  let kd := ((reg (R.SRV_KD n)).fold 1000000000 p).mul (Fx.sub (.lit l.fbPrev) (.lit l.fb)) gq
  let dd := (Fx.mul (.lit pole) (.lit l.d) 30).add (Fx.mul (Fx.sub (.lit (2 ^ 30)) (.lit pole)) kd 30)
  let ff := s.srvFf n rate
  let u0 := Fx.of false (pp.v + l.integ + dd.v + ff.v + (if pt1 then inj else 0))
  let u := s.omClamp n u0.v
  let im := s.geti (R.SRV_IMAX n)
  let ki := ((reg (R.SRV_KI n)).fold p 1000000000).mul (.lit e) gq
  let hold := (decide (s.geti (R.SRV_OMAX n) < u0.v) && decide (0 < e)) || (decide (u0.v < s.geti (R.SRV_OMIN n)) && decide (e < 0))
  let i1 := l.integ + ki.v
  let i := if hold then l.integ else clampI (-im) im i1
  let m := satBit (df.sat || lim.sat) 0 + satBit pp.sat 2 + satBit (!hold && (ki.sat || decide (i ≠ i1))) 3 + satBit dd.sat 4
    + satBit ff.sat 5 + satBit u0.sat 6 + satBit (decide (u ≠ u0.v)) 7
  let w := fun (v : Int) => BitVec.ofInt 32 v
  let s := s.modLoop n fun l => { l with lim := lim.v, d := dd.v, integ := i, injVal := inj }
  let s := ((s.setWord (R.SRV_LIM n) (w lim.v)).setWord (R.SRV_E n) (w e)).setWord (R.SRV_I n) (w i)
  (s.srvDrive n u, m)

/-- The plausibility model over one period (R160): a mismatch for PL_N periods sets PLAUS; with PL_TRIP the loop goes to FAULT at its
next period start (R157). -/
def State.plausible (s : State) (n : Nat) (ok : Bool) : State :=
  if !s.flag (F.SRV_LPL_PL_EN n) || s.srvState n = 0 then s
  else
    let l := s.loop n
    let ym := ((Fx.mul (.lit (s.geti (R.SRV_PL_A n))) (.lit l.ym) 30).add (Fx.mul (.lit (s.geti (R.SRV_PL_B n))) (.lit l.u) 30)).v
    let s := (s.modLoop n fun l => { l with ym := ym }).setWord (R.SRV_YM n) (BitVec.ofInt 32 ym)
    if !ok then s
    else
      let diff := ym - s.plausSignal n
      if decide (((diff.natAbs : Nat) : Int) ≤ s.geti (R.SRV_PL_TOL n)) then s.modLoop n fun l => { l with plausN := 0 }
      else
        let k := l.plausN + 1
        if k < max 1 (s.get (F.SRV_LPL_PL_N n)) then s.modLoop n fun l => { l with plausN := k }
        else
          let trip := s.flag (F.SRV_LPL_PL_TRIP n)
          let s := s.modLoop n fun l => { l with plausN := 0, tripDue := l.tripDue || trip }
          (s.srvSticky n 256).bump (F.SRV_LCNT_PLAUS_CNT n)

/-- The quadrature counts since the previous command (R163). -/
def State.moveEncs (s : State) (moved : List (Fin 12 × Int)) : State :=
  moved.foldl (fun t m =>
    if t.flag (F.ENC_CFG_EN m.1.val) && !t.flag (F.ENC_CFG_MODE m.1.val) && t.domOn 12 then
      t.setWord (R.ENC_POS m.1.val) (t.word (R.ENC_POS m.1.val) + BitVec.ofInt 32 m.2) else t) s

/-- Does loop n read encoder c, as feedback or for a table? -/
def State.readsEnc (s : State) (n c : Nat) : Bool :=
  let k := s.get (F.SRV_LIO_FB_KIND n)
  ((k == 1 || k == 2) && s.get (F.SRV_LIO_FB_IDX n) == c) || s.get (F.SRV_LTBL_FR_ENC n) == c || s.get (F.SRV_LTBL_COG_ENC n) == c

/-- An SSI frame that has not ended when a loop latches makes its channel invalid for that latch; a loop that reads the channel makes the
frame late, which counts once (R163). -/
def State.latchSsi (s : State) (n : Nat) : State :=
  (List.range 12).foldl (fun t c =>
    match t.srv.ssi.getD c none with
    | none => t
    | some f =>
      if f.till ≤ t.now || !t.flag (F.ENC_CFG_MODE c) then t
      else
        let t := t.modSrv fun v => { v with encs := padMod 0 c (fun m => m ||| 2 ^ n) v.encs }
        if f.late || !t.readsEnc n c then t
        else (t.bump (F.ENC_CNT_LATE_CNT c)).modSrv fun v => { v with ssi := padMod none c (fun _ => some { f with late := true }) v.ssi }) s

/-- The feedback latch of a period (R151, R159): raw value, validity and fb; the second is whether fb saturated. -/
def State.latchPeriod (s : State) (n : Nat) : State × Bool :=
  let (s, raw, ok) := (s.latchSsi n).latchFb n
  let s := (s.setFlag (F.SRV_LSTAT_FB_OK n) ok).setWord (R.SRV_RAW n) (BitVec.ofInt 32 raw)
  let fb := s.fbOf n raw
  let s := s.modLoop n fun l => { l with fbPrev := l.fb, fb := if ok then fb.v else l.fb, fbNew := false }
  (if ok then s.setWord (R.SRV_FB n) (BitVec.ofInt 32 fb.v) else s, ok && fb.sat)

/-- A loop's latch and output, once a period: the feedback of OUT_PH - 38 cycles after the period start, and at OUT_PH law, output,
plausibility and capture (R151). What happens between the two instants stands behind this command in the queue (log entry 203). -/
def State.servoOutput (s : State) (n : Nat) (moved : List (Fin 12 × Int)) : State :=
  let per := (s.loop n).perAt
  if !s.domOn 8 || (s.loop n).outAt == some per then s
  else
    let s := s.modLoop n fun l => { l with outAt := some per }
    let ph := s.get (F.SRV_LPH_OUT_PH n)
    let latch := per + (ph - 38) * 5 / 3
    let s := (s.advanceTo latch).moveEncs moved
    let (s, fsat) := s.latchPeriod n
    let ok := s.flag (F.SRV_LSTAT_FB_OK n)
    let m0 := satBit fsat 1
    let s := s.advanceTo (per + ph * 5 / 3)
    let (s, m) := match s.srvState n with
      | 1 =>
        let inj := s.injSignal n
        let add := match (s.loop n).inj with | some q => if q.point = 1 then inj else 0 | none => 0
        let s := s.modLoop n fun l => { l with injVal := inj }
        let u0 := Fx.of false ((s.loop n).openOut + add)
        let u := s.omClamp n u0.v
        (s.srvDrive n u, m0 + satBit u0.sat 6 + satBit (decide (u ≠ u0.v)) 7)
      | 2 => if ok then (let r := s.law154 n latch; (r.1, r.2 + m0)) else (s.srvDrive n (s.loop n).u, m0)
      | 3 => (s.srvDrive n (s.loop n).u, m0)
      | 4 => (s.srvDrive n (s.geti (R.SRV_SAFE_OUT n)), m0)
      | _ => (if (s.loop n).offDue then s.srvDrive n (s.geti (R.SRV_SAFE_OUT n)) else s, m0)
    (((s.srvSticky n m).plausible n ok).encLatched n).capSample n

/-- SERVO_OUTPUT: the loop latches its feedback and writes its output (R151). -/
def execServoOutput (n : Fin 24) (moved : List (Fin 12 × Int)) (s : State) : Host.Outcome State Fault Refusal :=
  s.ends (s.servoOutput n.val moved)

/-- FB_HOLD_EXPIRE: the period start at which a loop has been in HOLD for FB_HOLD periods (R157). -/
def execFbHoldExpire (n : Fin 24) (s : State) : Host.Outcome State Fault Refusal :=
  s.ends (
    if s.srvState n.val = 3 && !s.flag (F.SRV_LSTAT_FB_OK n.val)
        && decide (max 1 (s.get (F.SRV_LTMO_FB_HOLD n.val)) ≤ (s.loop n.val).holdN + 1) then s.periodStart n.val else s)

/-- SETPOINT_TIMEOUT: no entry taken for SP_TMO_MS (R153). -/
def execSetpointTimeout (n : Fin 24) (s : State) : Host.Outcome State Fault Refusal :=
  s.ends (
    if s.get (F.SRV_LCFG_SP_SRC n.val) = 1 && !s.flag (F.SRV_LSTAT_SP_STALE n.val) && s.domOn 8 then
      let s := s.advanceTo ((s.loop n.val).spAt + s.get (F.SRV_LTMO_SP_TMO_MS n.val) * 1000000)
      (s.setFlag (F.SRV_LSTAT_SP_STALE n.val) true).bump (F.SRV_LCNT_STALE_CNT n.val)
    else s)

/-- PLAUSIBILITY_MISMATCH: the output instant that may complete PL_N mismatched periods (R160). -/
def execPlausibilityMismatch (n : Fin 24) (moved : List (Fin 12 × Int)) (s : State) : Host.Outcome State Fault Refusal :=
  s.ends (
    if s.flag (F.SRV_LPL_PL_EN n.val) && decide (max 1 (s.get (F.SRV_LPL_PL_N n.val)) ≤ (s.loop n.val).plausN + 1) then
      s.servoOutput n.val moved
    else s)

/-! Injection commands (R161). -/

/-- A write of SRV_INJ_CTRL. -/
def injCtrlWrite (s : State) (d : Dom) (n : Nat) (v : Word) : State × CpSt :=
  s.writeGuard d (R.SRV_INJ_CTRL n) fun s =>
    let s := if v.getLsbD 1 then (s.injEnd n).modLoop n fun l => { l with injArmed := false } else s
    (if v.getLsbD 0 then s.modLoop n fun l => { l with injArmed := true } else s, .ok)

/-- INJ_GO: an injection is armed; it starts or is refused at a period start (R161). -/
def execInjGo (d : Dom) (n : Fin 24) (s : State) : Host.Outcome State Fault Refusal := s.ends (injCtrlWrite s d n.val 1#32).1
/-- INJ_STOP: the running injection ends (R161). -/
def execInjStop (d : Dom) (n : Fin 24) (s : State) : Host.Outcome State Fault Refusal := s.ends (injCtrlWrite s d n.val 2#32).1

/-- INJECTION_TSTART: the first period start at or after TSTART (R161). -/
def execInjectionTstart (n : Fin 24) (s : State) : Host.Outcome State Fault Refusal :=
  s.ends (
    if (s.loop n.val).injArmed && s.flag (F.SRV_INJ_CFG_START n.val) then
      let ts : Stamp := (s.word (R.SRV_INJ_TSH n.val)).truncate 16 ++ s.word (R.SRV_INJ_TSL n.val)
      let at' := s.now + (sdiff ts s.stamp).toNat
      let p := s.srvPeriod n.val
      (s.advanceTo ((at' + p - 1) / p * p)).periodStart n.val
    else s)

/-- INJECTION_END: the period start that ends an injection after DUR periods (R161). -/
def execInjectionEnd (n : Fin 24) (s : State) : Host.Outcome State Fault Refusal :=
  s.ends (
    match (s.loop n.val).inj with
    | some p => if p.dur ≤ (s.loop n.val).injK + 1 then s.periodStart n.val else s
    | none => s)

/-! Capture commands (R162). -/

/-- Does a capture unit's configuration pass: channels of loops of one RATE, LEN × NCH within the buffer? -/
def State.capOk (s : State) (u : Nat) : Bool :=
  let ch := (List.range (s.capN u)).map fun j => (s.capCh u j).1
  (ch.all fun l => decide (l < 24) && s.get (F.SRV_LCFG_RATE l) == s.get (F.SRV_LCFG_RATE (ch.headD 0)))
    && decide (s.get (F.CAP_LEN_LEN u) * s.capN u ≤ 65536) && decide (s.get (F.CAP_PRE_PRE u) ≤ s.get (F.CAP_LEN_LEN u))

/-- A write of CAP_CTRL. -/
def capCtrlWrite (s : State) (d : Dom) (u : Nat) (v : Word) : State × CpSt :=
  s.writeGuard d (R.CAP_CTRL u) fun s =>
    let s := if v.getLsbD 1 then s.set (F.CAP_STAT_STATE u) 0 else s
    if !v.getLsbD 0 then (s, .ok)
    else if !s.capOk u then (s.setFlag (F.CAP_STAT_BADCFG u) true, .ok)
    else
      let k := s.capN u
      let s := (s.setFlag (F.CAP_STAT_BADCFG u) false).set (F.CAP_STAT_STATE u) 1
      let s := s.modCap u fun c => { c with chans := List.replicate k [], trig := false, count := List.replicate k 0, buf := [] }
      (if s.get (F.CAP_CFG_TRIG u) = 0 then s.capTrigger u else s, .ok)

/-- CAPTURE_ARM: a unit is armed, or refused (R162). -/
def execCaptureArm (d : Dom) (u : Fin 2) (s : State) : Host.Outcome State Fault Refusal := s.ends (capCtrlWrite s d u.val 1#32).1
/-- CAPTURE_ABORT: a unit stops (R162). -/
def execCaptureAbort (d : Dom) (u : Fin 2) (s : State) : Host.Outcome State Fault Refusal := s.ends (capCtrlWrite s d u.val 2#32).1

/-- CAPTURE_TRIGGER: the condition of TRIG occurs: the time is reached, or an injection runs on TLOOP (R162). -/
def execCaptureTrigger (u : Fin 2) (s : State) : Host.Outcome State Fault Refusal :=
  s.ends (
    if s.get (F.CAP_STAT_STATE u.val) ≠ 1 then s
    else match s.get (F.CAP_CFG_TRIG u.val) with
      | 0 => s.capTrigger u.val
      | 1 =>
        let ts : Stamp := (s.word (R.CAP_TTH u.val)).truncate 16 ++ s.word (R.CAP_TTL u.val)
        let ahead := sdiff ts s.stamp
        (if 0 < ahead then s.advanceBy ahead.toNat else s).capTrigger u.val
      | _ => s)

/-- CAPTURE_COMPLETE: every channel has LEN samples; the buffer is held, or copied to the next slot and freed (R162). -/
def execCaptureComplete (u : Fin 2) (s : State) : Host.Outcome State Fault Refusal :=
  s.ends (
    let len := s.get (F.CAP_LEN_LEN u.val)
    if s.get (F.CAP_STAT_STATE u.val) ≠ 2 || !(s.cap u.val).chans.all (fun c => decide (len ≤ c.length)) then s
    else
      let data := (s.cap u.val).chans.flatten
      let s := s.set (F.CAP_STAT_STATE u.val) 3
      if s.flag (F.CAP_CFG_DDR_EN u.val) then
        let slot := (s.cap u.val).slot % (s.get (F.CAP_CFG_NSLOT u.val) + 1)
        let base := s.get (F.CAP_DDRL_CAP_DDR_LO u.val) + 2 ^ 32 * s.get (F.CAP_DDRH_CAP_DDR_HI u.val) + slot * 0x40000
        let s := if s.domOn 13 && s.inSramOrDram base 0x40000 then
            s.storeBytes base ((data.map fun w => leBytes 4 w.toNat).flatten) else s
        (s.modCap u.val fun c => { c with slot := slot + 1, buf := [], chans := [] }).set (F.CAP_STAT_SLOT u.val) slot
      else s.modCap u.val fun c => { c with buf := data, chans := [] })

/-- An access to SRV_TBL_DATA (R155): a write goes to the shadow table; IDX moves on, wrapping at the table's length. -/
def tblAccess (s : State) (wr : Option (Dom × Word)) : State × CpSt :=
  let n := s.get F.SRV_TBL_SEL_LOOP
  let cogT := s.flag F.SRV_TBL_SEL_TBL
  let len := if cogT then 256 else 1024
  let i := s.get F.SRV_TBL_SEL_IDX
  let next (s : State) : State := s.set F.SRV_TBL_SEL_IDX ((i + 1) % len)
  match wr with
  | none => (s.inDomain 8 next, .ok)
  | some (d, v) =>
    s.writeGuard d R.SRV_TBL_DATA fun s =>
      (next (s.modLoop n fun l =>
        if cogT then { l with cogSh := tblSet l.cogSh (i % len) v } else { l with fricSh := tblSet l.fricSh (i % len) v }), .ok)

/-- SRV_TBL_DATA_ACCESS: a read or a write of SRV_TBL_DATA (R155). -/
def execSrvTblDataAccess (wr : Option (Dom × Word)) (s : State) : Host.Outcome State Fault Refusal := s.ends (tblAccess s wr).1

/-! Encoder commands (R163). -/

/-- ENCODER_ILLEGAL_TRANSITION: ERR_CNT counts and the channel is invalid at the next latch (R163). -/
def execEncoderIllegalTransition (c : Fin 12) (s : State) : Host.Outcome State Fault Refusal :=
  s.ends (
    if s.domOn 12 && s.flag (F.ENC_CFG_EN c.val) && !s.flag (F.ENC_CFG_MODE c.val) then
      (s.bump (F.ENC_CNT_ERR_CNT c.val)).encBad c.val
    else s)

/-- ENCODER_INDEX_PULSE: with IDX_CLR the position becomes 0 (R163). -/
def execEncoderIndexPulse (c : Fin 12) (s : State) : Host.Outcome State Fault Refusal :=
  s.ends (
    if s.domOn 12 && s.flag (F.ENC_CFG_EN c.val) && !s.flag (F.ENC_CFG_MODE c.val) && s.flag (F.ENC_CFG_IDX_CLR c.val) then
      s.setWord (R.ENC_POS c.val) 0
    else s)

/-- Gray code to binary, from the top bit down. -/
def grayDecode (w : Nat) : Nat → Nat → Nat
  | 0, acc => acc
  | k + 1, acc =>
    let prev := acc % 2
    let b := (w / 2 ^ k) % 2
    grayDecode w k (2 * acc + (if prev = b then 0 else 1))

/-- The start of encoder c's next SSI frame: SSI_PH CLK_IO cycles after a period start of its RATE (R163). -/
def State.ssiStart (s : State) (c : Nat) : Nat :=
  let per := ratePeriod (s.get (F.ENC_PH_RATE c))
  let t := s.now / per * per + s.get (F.ENC_PH_SSI_PH c) * 25 / 2
  let t := if t - per ≥ s.now && t ≥ per then t - per else t
  if s.now ≤ t && (s.srv.ssi.getD c none).map (·.start) ≠ some t then t else t + per

/-- How long a frame takes: its data bits, a parity and an error bit, at CLK_IO / (2 × (SSI_DIV + 1)) (R163). -/
def State.ssiNs (s : State) (c : Nat) : Nat :=
  let bits := max 8 (min 32 (s.get (F.ENC_CFG_BITS c))) + (if s.get (F.ENC_CFG_PAR c) = 0 then 0 else 1)
    + (if s.get (F.ENC_CFG_ERRBIT c) = 0 then 0 else 1)
  bits * 2 * (max 3 (s.get (F.ENC_CFG_SSI_DIV c)) + 1) * 25 / 2

/-- SSI_FRAME: a frame starts at SSI_PH after a period start of the channel's RATE and gives the position, of its first clock edge. A
parity failure or the error bit counts ERR_CNT, and each loop's next latch finds the channel invalid; the latches before its end find it
invalid too (`State.latchSsi`, R163). -/
def execSsiFrame (c : Fin 12) (data : Word) (parityBad errBit : Bool) (s : State) : Host.Outcome State Fault Refusal :=
  s.ends (
    if s.domOn 12 && s.flag (F.ENC_CFG_EN c.val) && s.flag (F.ENC_CFG_MODE c.val) then
      let t := s.ssiStart c.val
      let till := t + s.ssiNs c.val
      let s := (s.advanceTo t).modSrv fun v => { v with ssi := padMod none c.val (fun _ => some ⟨t, till, false⟩) v.ssi }
      let bits := max 8 (min 32 (s.get (F.ENC_CFG_BITS c.val)))
      let w := data.toNat % 2 ^ bits
      let pos := if s.flag (F.ENC_CFG_GRAY c.val) then grayDecode w bits 0 else w
      if (parityBad && s.get (F.ENC_CFG_PAR c.val) ≠ 0) || (errBit && s.get (F.ENC_CFG_ERRBIT c.val) ≠ 0) then
        (s.bump (F.ENC_CNT_ERR_CNT c.val)).encBad c.val
      else s.setWord (R.ENC_POS c.val) (BitVec.ofNat 32 pos)
    else s)

/-- A write of ENC_CFG, ENC_PH or ENC_CPR: at once, and the channel is invalid at the next latch (R163). -/
def encCfgWrite (s : State) (d : Dom) (c a : Nat) (v : Word) : State × CpSt :=
  let r := s.plainWrite d a v
  if r.2 = .ok then (r.1.encBad c, .ok) else r

/-- ENCODER_CONFIG_WRITE: a write of register r (0 ENC_CFG, 1 ENC_PH, 2 ENC_CPR) of channel c (R163). -/
def execEncoderConfigWrite (d : Dom) (c : Fin 12) (r : Fin 3) (v : Word) (s : State) : Host.Outcome State Fault Refusal :=
  s.ends (encCfgWrite s d c.val (R.ENC_CFG c.val + 4 * r.val) v).1

end Sys2Proof.Machine
end

