-- ==== Sys2Proof/Machine/Linear.lean ====
section
/-!
DEFINITION. Vectors and matrices of binary64 as the fusion units use them: row lists, sums from left to right, each
operation rounded to nearest even (00_scope R6; the order of operations is the model's, log entry 20), and the geodetic
conversion of R59.
-/
namespace Sys2Proof.Machine

/-- A matrix, by rows. -/
abbrev Mat := List (List Word64)

def vadd (a b : List Word64) : List Word64 := List.zipWith fadd a b
def vsub (a b : List Word64) : List Word64 := List.zipWith fsub a b
def vscale (k : Word64) (a : List Word64) : List Word64 := a.map (fmul k)
/-- The i-th element, 0 outside. -/
def vget (a : List Word64) (i : Nat) : Word64 := a.getD i 0
/-- The Euclidean norm. -/
def vnorm (a : List Word64) : Word64 := fsqrt (fdot a a)
/-- An element of a matrix. -/
def mget (m : Mat) (i j : Nat) : Word64 := vget (m.getD i []) j
/-- A matrix from a function. -/
def mmk (r c : Nat) (f : Nat → Nat → Word64) : Mat := (List.range r).map fun i => (List.range c).map fun j => f i j
/-- Transpose of a matrix of c columns. -/
def mtr (c : Nat) (m : Mat) : Mat := (List.range c).map fun j => m.map fun r => vget r j
def mvec (m : Mat) (v : List Word64) : List Word64 := m.map fun r => fdot r v
def mmul (a b : Mat) : Mat :=
  let c := (b.headD []).length
  let bt := mtr c b
  a.map fun r => bt.map fun k => fdot r k
def madd (a b : Mat) : Mat := List.zipWith vadd a b
def msub (a b : Mat) : Mat := List.zipWith vsub a b
def mident (n : Nat) : Mat := mmk n n fun i j => if i = j then one64 else 0
def mzero (n : Nat) : Mat := mmk n n fun _ _ => 0
/-- Set one element. -/
def mset (m : Mat) (i j : Nat) (v : Word64) : Mat := modAt i (modAt j fun _ => v) m

/-- The inverse of a symmetric matrix of one to three rows, by cofactors. -/
def minv (m : Mat) : Mat :=
  let a := mget m
  match m.length with
  | 1 => [[fdiv one64 (a 0 0)]]
  | 2 =>
    let d := fsub (fmul (a 0 0) (a 1 1)) (fmul (a 0 1) (a 1 0))
    [[fdiv (a 1 1) d, fdiv (fneg (a 0 1)) d], [fdiv (fneg (a 1 0)) d, fdiv (a 0 0) d]]
  | _ =>
    let c (i j : Nat) : Word64 :=
      let r := fun k => (i + k) % 3
      let q := fun k => (j + k) % 3
      fsub (fmul (a (r 1) (q 1)) (a (r 2) (q 2))) (fmul (a (r 1) (q 2)) (a (r 2) (q 1)))
    let d := fadd (fadd (fmul (a 0 0) (c 0 0)) (fmul (a 0 1) (c 0 1))) (fmul (a 0 2) (c 0 2))
    mmk 3 3 fun i j => fdiv (c j i) d

/-- A number of the spec, as a binary64: n / d. -/
def k64 (n : Int) (d : Nat) : Word64 := fofRat n d

/-- π. -/
def pi64 : Word64 := 0x400921FB54442D18
/-- 2π. -/
def twoPi64 : Word64 := 0x401921FB54442D18

/-- An angle wrapped to (-π, π]. -/
def wrapPi (a : Word64) : Word64 :=
  let k := frnd .nearest (fdiv a twoPi64)
  let b := fsub a (fmul k twoPi64)
  if flt pi64 b then fsub b twoPi64 else if fle b (fneg pi64) then fadd b twoPi64 else b

/-- An angle wrapped to [0, 2π). -/
def wrap2Pi (a : Word64) : Word64 :=
  let b := wrapPi a
  if flt b 0 then fadd b twoPi64 else b

/-- R = Rz(ψ) · Ry(θ) · Rx(φ), body to NED (03, "Projection by type"). -/
def rotM (phi theta psi : Word64) : Mat :=
  let sf := fsin phi; let cf := fcos phi
  let st := fsin theta; let ct := fcos theta
  let sp := fsin psi; let cp := fcos psi
  let rx : Mat := [[one64, 0, 0], [0, cf, fneg sf], [0, sf, cf]]
  let ry : Mat := [[ct, 0, st], [0, one64, 0], [fneg st, 0, ct]]
  let rz : Mat := [[cp, fneg sp, 0], [sp, cp, 0], [0, 0, one64]]
  mmul rz (mmul ry rx)

/-- R(ψ) in the plane. -/
def rot2 (psi : Word64) (v : List Word64) : List Word64 :=
  let s := fsin psi
  let c := fcos psi
  [fsub (fmul c (vget v 0)) (fmul s (vget v 1)), fadd (fmul s (vget v 0)) (fmul c (vget v 1))]

/-- R(ψ)ᵀ in the plane. -/
def rot2T (psi : Word64) (v : List Word64) : List Word64 := rot2 (fneg psi) v

/-- The cross product. -/
def cross (a b : List Word64) : List Word64 :=
  let x := vget a; let y := vget b
  [fsub (fmul (x 1) (y 2)) (fmul (x 2) (y 1)), fsub (fmul (x 2) (y 0)) (fmul (x 0) (y 2)),
   fsub (fmul (x 0) (y 1)) (fmul (x 1) (y 0))]

/-- WGS 84: the semi-major axis and the squared eccentricity (the ellipsoid's published constants; log entry 21). -/
def wgsA : Word64 := k64 6378137 1
def wgsE2 : Word64 := k64 669437999014132 100000000000000000

/-- Earth-centred coordinates of a geodetic position. -/
def ecef (g : List Word64) : List Word64 :=
  let lat := vget g 0; let lon := vget g 1; let h := vget g 2
  let sl := fsin lat; let cl := fcos lat
  let n := fdiv wgsA (fsqrt (fsub one64 (fmul wgsE2 (fmul sl sl))))
  [fmul (fmul (fadd n h) cl) (fcos lon), fmul (fmul (fadd n h) cl) (fsin lon),
   fmul (fadd (fmul n (fsub one64 wgsE2)) h) sl]

/-- The axes north, east and down at a geodetic position, in earth-centred coordinates. -/
def nedAxes (g : List Word64) : Mat :=
  let sl := fsin (vget g 0); let cl := fcos (vget g 0)
  let so := fsin (vget g 1); let co := fcos (vget g 1)
  [[fneg (fmul sl co), fneg (fmul sl so), cl], [fneg so, co, 0], [fneg (fmul cl co), fneg (fmul cl so), fneg sl]]

/-- NED of a geodetic position about an origin (R59). -/
def nedOf (org g : List Word64) : List Word64 := mvec (nedAxes org) (vsub (ecef g) (ecef org))

/-- Sigmas north and east at a geodetic position, rotated to the axes of an origin (R59; log entry 188). -/
def sigRot (org g sg : List Word64) : List Word64 :=
  let m := mmul (nedAxes org) (mtr 3 (nedAxes g))
  (List.range 2).map fun i => fsqrt (fadd (fmul (fmul (mget m i 0) (vget sg 0)) (fmul (mget m i 0) (vget sg 0)))
    (fmul (fmul (mget m i 1) (vget sg 1)) (fmul (mget m i 1) (vget sg 1))))

end Sys2Proof.Machine
end

