-- ==== Sys2Proof/Machine/Nmea.lean ====
section
/-!
DEFINITION. What the characters and bytes of a reference message say: IEC 61162-1 sentences (02_streams R40, R41) and the data
of NMEA 2000 messages (R44). The places of the fields in a sentence and of the bytes in a message are the standards' (log
entries 18 and 174); what each field feeds, its units and the conditions that discard it are the spec's.
-/
namespace Sys2Proof.Machine

/-- The characters between separators. -/
def fieldsOf (sep : Byte) : List Byte → List (List Byte)
  | [] => [[]]
  | c :: t =>
    match fieldsOf sep t with
    | [] => [[c]]
    | f :: fs => if c = sep then [] :: f :: fs else (c :: f) :: fs

/-- The value of a decimal digit. -/
def digitOf (c : Byte) : Option Nat := if 48 ≤ c.toNat && c.toNat ≤ 57 then some (c.toNat - 48) else none

/-- The number a run of digits spells, continuing from one; none with another character among them. -/
def digitsFrom (n : Nat) : List Byte → Option Nat
  | [] => some n
  | c :: t =>
    match digitOf c with
    | some k => digitsFrom (10 * n + k) t
    | none => none

/-- An unsigned decimal: its digits as a number and how many stand after the point; none for an empty or unreadable field. -/
def decimalOf (f : List Byte) : Option (Nat × Nat) :=
  match fieldsOf 0x2E f with
  | [a] => if a.isEmpty then none else (digitsFrom 0 a).map fun n => (n, 0)
  | [a, b] => if a.isEmpty && b.isEmpty then none else (digitsFrom 0 (a ++ b)).map fun n => (n, b.length)
  | _ => none

/-- A signed decimal. -/
def signedOf (f : List Byte) : Option (Int × Nat) :=
  match f with
  | 0x2D#8 :: t => (decimalOf t).map fun d => (-(d.1 : Int), d.2)
  | 0x2B#8 :: t => (decimalOf t).map fun d => ((d.1 : Int), d.2)
  | _ => (decimalOf f).map fun d => ((d.1 : Int), d.2)

/-- A field's number as binary64. -/
def numOf (f : List Byte) : Option Word64 := (signedOf f).map fun d => fofRat d.1 (10 ^ d.2)

/-- Degrees as radians. -/
def degRad (d : Word64) : Word64 := fdiv (fmul d pi64) (k64 180 1)

/-- Knots as m/s (1852 m an hour). -/
def knotsMs (v : Word64) : Word64 := fmul v (k64 1852 3600)

/-- Latitude or longitude: (d)ddmm.mm and its hemisphere, in rad; `pos` is the positive hemisphere's letter. -/
def angleOf (f h : List Byte) (pos neg : Byte) : Option Word64 :=
  match decimalOf f with
  | some d =>
    let unit := 10 ^ (d.2 + 2)
    let minutes := d.1 / unit * 60 * 10 ^ d.2 + d.1 % unit
    let rad (k : Int) : Word64 := fdiv (fmul (fofRat (k * minutes) (10 ^ d.2)) pi64) (k64 10800 1)
    if h = [pos] then some (rad 1) else if h = [neg] then some (rad (-1)) else none
  | none => none

/-- A time of day hhmmss.ss in ns. -/
def dayTimeOf (f : List Byte) : Option Int :=
  match decimalOf f with
  | some d =>
    let unit := 10 ^ (d.2 + 2)
    let hm := d.1 / unit
    some (((hm / 100 * 3600 + hm % 100 * 60) * 1000000000 + d.1 % unit * 1000000000 / 10 ^ d.2 : Nat) : Int)
  | none => none

/-- Days from 1970-01-01 to a date of the Gregorian calendar. -/
def daysOf (y m d : Nat) : Int :=
  let a := (14 - m) / 12
  let y' := y + 4800 - a
  let m' := m + 12 * a - 3
  ((d + (153 * m' + 2) / 5 + 365 * y' + y' / 4 - y' / 100 + y' / 400 : Nat) : Int) - 32045 - 2440588

/-- The ns of a day. -/
def dayNs : Int := 86400000000000

/-- A sentence as read (R40): formatter code of R40's table (0: not in it), talker, length with the start character and CR LF,
proprietary, its checksum's verdict (none: it carries none), void by a condition of R40's third column, its own time in ns of UTC
(dated: since 1970; else a time of day), the values by measurement type in the units of R35 (a type that lacks a value it needs
is missing), the quality word. -/
structure Sentence where
  sel : Nat
  talker : BitVec 16
  chars : Nat
  proprietary : Bool
  sum : Option Bool
  void : Bool
  time : Option (Bool × Int)
  vals : List (Nat × List Word64)
  qual : Word
  deriving DecidableEq, Repr

/-- A hexadecimal digit. -/
def hexOf (c : Byte) : Option Nat :=
  match digitOf c with
  | some k => some k
  | none => if 65 ≤ c.toNat && c.toNat ≤ 70 then some (c.toNat - 55) else if 97 ≤ c.toNat && c.toNat ≤ 102 then some (c.toNat - 87) else none

/-- The checksum verdict: the two hexadecimal digits after the asterisk against the exclusive or of the characters between the
start character and the asterisk. -/
def sumOk (txt : List Byte) (hex : List Byte) : Bool :=
  match hex with
  | [a, b] =>
    match hexOf a, hexOf b with
    | some x, some y => 16 * x + y == (txt.foldl (· ^^^ ·) 0#8).toNat
    | _, _ => false
  | _ => false

/-- The formatter codes of R40's table. -/
def formatterOf (f : List Byte) : Nat :=
  match f.map (·.toNat) with
  | [71, 71, 65] => 1 | [71, 78, 83] => 2 | [71, 83, 84] => 3 | [72, 68, 84] => 4 | [84, 72, 83] => 5
  | [86, 84, 71] => 6 | [90, 68, 65] => 7 | [77, 87, 86] => 8 | [82, 77, 67] => 9 | _ => 0

/-- A quality code of one character: a digit's value, else the character's code (log entry 175). -/
def qualOf (f : List Byte) : Nat :=
  match f with
  | c :: _ => (digitOf c).getD c.toNat
  | [] => 0

/-- The whole number of a field, 0 where it holds none. -/
def natOf (f : List Byte) : Nat := (digitsFrom 0 f).getD 0

/-- Values that are all present. -/
def allVals (l : List (Option Word64)) : Option (List Word64) :=
  l.foldr (fun v acc => match v, acc with
    | some x, some xs => some (x :: xs)
    | _, _ => none) (some [])

/-- One type's values, if every one of them is there. -/
def typed (t : Nat) (l : List (Option Word64)) : List (Nat × List Word64) :=
  match allVals l with
  | some v => [(t, v)]
  | none => []

/-- The sum of two fields' numbers. -/
def sumOf (a b : List Byte) : Option Word64 :=
  match numOf a, numOf b with
  | some x, some y => some (fadd x y)
  | _, _ => none

/-- A wind speed by its unit letter: K km/h, M m/s, N knots (R40). -/
def windOf (f u : List Byte) : Option Word64 :=
  match numOf f, u with
  | some v, [0x4B#8] => some (fdiv v (k64 18 5))
  | some v, [0x4D#8] => some v
  | some v, [0x4E#8] => some (knotsMs v)
  | _, _ => none

/-- What a formatter's fields give: void, own time, values, quality (R40). The height of an RMC position is the free value of the
sentence (log entry 176). -/
def fieldsGive (b : List Byte) (sel : Nat) (f : Nat → List Byte) : Bool × Option (Bool × Int) × List (Nat × List Word64) × Nat :=
  let tod (k : Nat) : Option (Bool × Int) := (dayTimeOf (f k)).map fun t => (false, t)
  let pos (k : Nat) : List (Option Word64) := [angleOf (f k) (f (k + 1)) 0x4E 0x53, angleOf (f (k + 2)) (f (k + 3)) 0x45 0x57]
  let isN (k : Nat) : Bool := f k == [0x4E#8]
  let rad (k : Nat) : Option Word64 := (numOf (f k)).map fun d => wrap2Pi (degRad d)
  match sel with
  | 1 => (natOf (f 6) == 0, tod 1, typed 1 (pos 2 ++ [sumOf (f 9) (f 11)]), natOf (f 6) % 256 + 256 * natOf (f 7))
  | 2 => ((f 6).all (· == 0x4E#8), tod 1, typed 1 (pos 2 ++ [sumOf (f 9) (f 10)]), qualOf (f 6) + 256 * natOf (f 7))
  | 3 => (false, tod 1, [(1, [(numOf (f 6)).getD 0, (numOf (f 7)).getD 0])], 0)
  | 4 => (false, none, typed 4 [rad 1], 0)
  | 5 => (f 2 != [0x41#8], none, typed 4 [rad 1], qualOf (f 2))
  | 6 => (isN 9, none, typed 7 [(numOf (f 5)).map knotsMs, rad 1], qualOf (f 9))
  | 7 =>
    let at' := (dayTimeOf (f 1)).map fun t => (true, daysOf (natOf (f 4)) (natOf (f 3)) (natOf (f 2)) * dayNs + t)
    (([1, 2, 3, 4, 5, 6] : List Nat).any fun k => (f k).isEmpty, at', if at'.isSome then [(9, [])] else [], 0)
  | 8 => (f 5 == [0x56#8], none, typed 8 [windOf (f 3) (f 4), rad 1, if f 2 = [0x54#8] then some one64 else if f 2 = [0x52#8] then some 0 else none],
      qualOf (f 5))
  | 9 =>
    let d := f 9
    let day := daysOf (2000 + natOf (d.drop 4)) (natOf ((d.drop 2).take 2)) (natOf (d.take 2)) * dayNs
    let at' := (dayTimeOf (f 1)).map fun t => if d.length = 6 then (true, day + t) else (false, t)
    (f 2 == [0x56#8] || isN 12, at',
      typed 1 (pos 3 ++ [some (Config.rmcHeight b)]) ++ typed 7 [(numOf (f 7)).map knotsMs, rad 8], qualOf (f 12))
  | _ => (true, none, [], 0)

/-- A sentence read from its characters, start character to CR LF (R40). -/
def readSentence (b : List Byte) : Sentence :=
  let body := (b.drop 1).filter fun c => c != 0x0D#8 && c != 0x0A#8
  let parts := fieldsOf 0x2A body
  let txt := parts.headD []
  let fs := fieldsOf 0x2C txt
  let addr := fs.headD []
  let sel := if addr.length = 5 then formatterOf (addr.drop 2) else 0
  let g := fieldsGive b sel fun k => fs.getD k []
  { sel := sel, talker := BitVec.ofNat 16 (leNat (addr.take 2)), chars := b.length, proprietary := addr.head? == some 0x50#8,
    sum := if parts.length = 1 then none else some (parts.length == 2 && sumOk txt (parts.getD 1 [])),
    void := g.1, time := g.2.1, vals := g.2.2.1, qual := BitVec.ofNat 32 g.2.2.2 }

/-! NMEA 2000 (R44). -/

/-- The number a message holds at an offset, n bytes, least significant first. -/
def frameNum (b : List Byte) (o n : Nat) : Nat := leNat ((b.drop o).take n)

/-- The signed number of n bytes at an offset. -/
def frameInt (b : List Byte) (o n : Nat) : Int := (BitVec.ofNat (8 * n) (frameNum b o n)).toInt

/-- What a message gives: void (R44's discard condition, a message too short or a value not available), own time, values, quality. -/
structure PgnData where
  void : Bool
  time : Option (Bool × Int)
  vals : List Word64
  qual : Word
  deriving DecidableEq, Repr

/-- The data of a PGN (R44; its layout is the standard's, log entry 18). -/
def readPgn (pgn : Nat) (b : List Byte) : PgnData :=
  let na (o n : Nat) (signed : Bool) : Bool := frameNum b o n == (if signed then 2 ^ (8 * n - 1) - 1 else 2 ^ (8 * n) - 1)
  match pgn with
  | 127250 => ⟨decide (b.length < 8) || frameNum b 7 1 % 4 != 0 || na 1 2 false, none, [fofRat (frameNum b 1 2) 10000], 0⟩
  | 127251 => ⟨decide (b.length < 5) || na 1 4 true, none, [fofRat (frameInt b 1 4) 32000000], 0⟩
  | 129029 =>
    let rad (o : Nat) : Word64 := degRad (fofRat (frameInt b o 8) (10 ^ 16))
    let m := frameNum b 31 1 / 16
    ⟨decide (b.length < 34) || m == 0 || na 7 8 true || na 15 8 true || na 23 8 true,
      if na 1 2 false || na 3 4 false then none else some (true, frameNum b 1 2 * dayNs + frameNum b 3 4 * 100000),
      [rad 7, rad 15, fofRat (frameInt b 23 8) 1000000], BitVec.ofNat 32 (m + 256 * frameNum b 33 1)⟩
  | 130306 =>
    let r := frameNum b 5 1 % 8
    ⟨decide (b.length < 6) || !([0, 2, 3, 4].contains r) || na 1 2 false || na 3 2 false, none,
      [fofRat (frameNum b 1 2) 100, fofRat (frameNum b 3 2) 10000, if r = 2 then 0 else one64], 0⟩
  | _ => ⟨true, none, [], 0⟩

end Sys2Proof.Machine
end

