-- ==== Sys2Proof/Machine/Transmit.lean ====
section
/-!
DEFINITION. The Ethernet ports' transmit side and the Zaley frame: the transmit queues with scheduled launches
(14_time R250, R251), the frame's header, safety code and CRC (15_networks R257 to R259), and sending.
-/
namespace Sys2Proof.Machine

/-- A port is on (R254). -/
def State.netUp (s : State) (p : Nat) : Bool := s.flag (F.NET_CFG_EN p) && s.domOn 11

/-- The MAC base of the device (R341). -/
def State.macBase (s : State) : Nat := (s.word (R.OTP_CFG 4)).toNat + 2 ^ 32 * ((s.word (R.OTP_CFG 5)).toNat % 65536)

/-- Does a port carry Zaley frames: P0, P1, and P3 as the ring closure of network A (R254, R257)? -/
def State.zalPort (s : State) (p : Nat) : Bool := p == 0 || p == 1 || (p == 3 && s.flag (F.NET_CFG_RING 3))

/-- A frame arrives on a port that is up: its counter (R386). -/
def State.frameIn (s : State) (p : Nat) : State := if s.netUp p then s.pmu (64 + p) else s

/-- A node is ADMITTED (R47). -/
def State.admitted (s : State) (n : Nat) : Bool := (s.peer n).state == 1

/-- Change the networks. -/
def State.modNet (s : State) (f : Net → Net) : State := { s with net := f s.net }

/-! Transmission (R250, R251). -/

/-- The ns a byte takes on a port: 8 at 1000 Mb/s, more on P4 at its speed (R255). -/
def State.byteNs (s : State) (p : Nat) : Nat :=
  if p = 4 then (match s.get (F.NET_STAT_SPEED p) with
    | 0 => 800
    | 1 => 80
    | _ => 8)
  else 8

/-- The 802.1Q tag of a frame: with VLAN_EN a port tags its Zaley frames, which P2 has none of, with VID and PCP (R255, R257). -/
def State.vlanTag (s : State) (p kind : Nat) : Nat :=
  if kind = 0x88B5 && p != 2 && s.flag (F.NET_CFG_VLAN_EN p) then 0x81000000 + 2 ^ 13 * s.get (F.NET_CFG_PCP p) + s.get (F.NET_CFG_VID p) else 0

/-- What a frame's kind adds in front of its bytes: the 20 bytes of an IPv4 header. -/
def hdrBytes (kind : Nat) : Nat := if kind = 17 ∨ kind = 2 then 20 else 0

/-- The time a frame occupies a port: preamble, header, tag and data of at least 46 bytes, FCS and gap. Kind 0 is a whole
frame. -/
def State.frameNs (s : State) (p : Nat) (e : TxEnt) : Nat :=
  s.byteNs p * (if e.kind = 0 then max 60 e.bytes.length + 24
    else max 46 (e.bytes.length + hdrBytes e.kind + (if s.vlanTag p e.kind = 0 then 0 else 4)) + 38)

/-- When a port's transmitter is free, not before the present. -/
def State.portFree (s : State) (p : Nat) : Nat := max s.now (s.net.busy.getD p 0)

/-- The queue of a port. -/
def State.txq (s : State) (p : Nat) : List TxEnt := s.net.tx.getD p []

/-- The launch instant of an entry; one 2^47 ns or more ahead lies in the past (R251). -/
def State.launchAt (s : State) (e : TxEnt) : Option Int := e.launch.map fun l => (s.now : Int) + sdiff l s.stamp

/-- A frame's TYPE (R258). -/
def zHELLO : Nat := 0x01
def zTELEM : Nat := 0x02
def zCMD : Nat := 0x10
def zTERM : Nat := 0x11
def zACK : Nat := 0x12
def zNAK : Nat := 0x13
def zCAP : Nat := 0x14
def zSYNC : Nat := 0x15

/-- A received Zaley frame's fields. -/
structure ZFrame where
  ver : Nat
  typ : Nat
  flags : Nat
  src : Nat
  dst : Nat
  seq : Nat
  boot : Nat
  len : Nat
  term : Nat
  tsrc : Nat
  payload : List Byte
  deriving DecidableEq, Repr

/-- Read a frame's fields. -/
def zRead (b : List Byte) : ZFrame :=
  let f := fun o n => leNat ((b.drop o).take n)
  let len := f 0x0E 2
  ⟨f 0 1, f 1 1, f 2 2, f 4 2 % 512, f 6 2 % 1024, f 8 4, f 0x0C 2, len, f 0x10 4, f 0x14 2 % 512, (b.drop 0x18).take len⟩

/-- FLAGS bits (R257). -/
def ZFrame.rep (z : ZFrame) : Bool := (z.flags / 2) % 2 == 1
def ZFrame.takeover (z : ZFrame) : Bool := (z.flags / 4) % 2 == 1
def ZFrame.auth (z : ZFrame) : Bool := (z.flags / 8) % 2 == 1

/-- Is a frame held on a plant port (R190)? A head that raised its gate sends nothing but TERM and TAKEOVER frames. -/
def State.txHeld (s : State) (p : Nat) (e : TxEnt) : Bool :=
  let z := zRead e.bytes
  s.ha.holdTx && (p == 0 || p == 1 || p == 3) && !(e.kind == 0x88B5 && (z.typ == zTERM || (z.typ == zCMD && z.takeover)))

/-- The frames of a port's queue that may leave. -/
def State.txFree (s : State) (p : Nat) : List TxEnt := (s.txq p).filter fun e => !s.txHeld p e

/-- The earliest launch pending on a port. -/
def State.nextLaunch (s : State) (p : Nat) : Option Int := (s.txFree p).foldl (fun m e => match m, s.launchAt e with
  | some a, some b => some (min a b)
  | none, x => x
  | x, none => x) none

/-- May a frame without launch time start at an instant: does it end before the earliest pending launch? (R250) -/
def State.fits (s : State) (p t : Nat) (e : TxEnt) : Bool :=
  match s.nextLaunch p with
  | some l => decide (((t + s.frameNs p e : Nat) : Int) ≤ l)
  | none => true

/-- Write a software descriptor's status back, with OWN cleared in the same write (R268). -/
def State.descDone (s : State) (e : TxEnt) (status : Nat) : State :=
  match e.desc with
  | none => s
  | some a =>
    let s := s.setByte (a + 7) (s.byte (a + 7) &&& 0x7F#8)
    s.st (a + 8) 8 (s.ld (a + 8) 6 + status * 2 ^ 48)

/-- The Ethernet address a frame goes to (R258): a Zaley frame to the group of all devices, that of its telemetry set (0x400 + k),
or the address of the destination on the port's network; another frame to the address its entry names. -/
def State.macTo (s : State) (p : Nat) (e : TxEnt) : Nat :=
  if e.kind ≠ 0x88B5 ∨ p = 2 then e.dst
  else if e.dst = 0x3FF then 0x035A4C590001
  else if 0x400 ≤ e.dst then 0x035A4C590100 + (e.dst - 0x400)
  else (s.peer e.dst).mac + (if p = 1 then 1 else 0)

/-- A PTP timestamp: 6 bytes of seconds, 4 of ns. -/
def ptpStamp (t : Nat) : List Byte := beBytes 6 (t / 1000000000) ++ beBytes 4 (t % 1000000000)

/-- Bytes with others written over them from an offset. -/
def patch (b : List Byte) (o : Nat) (v : List Byte) : List Byte := b.take o ++ v ++ b.drop (o + v.length)

/-- The bytes of a frame whose SFD leaves at an instant (R249); a message over UDP lies behind the UDP header. -/
def TxEnt.filled (e : TxEnt) (t : Nat) : List Byte :=
  let o := if e.kind = 17 then 8 else 0
  match e.fill with
  | .none => e.bytes
  | .reply _ => e.bytes
  | .sync => patch e.bytes (o + 34) (ptpStamp t)
  | .dreq _ => patch e.bytes (o + 34) (ptpStamp t)
  | .pdreq _ => patch e.bytes (o + 34) (ptpStamp t)
  | .pdResp rx corr => patch e.bytes (o + 8) (beBytes 8 ((corr + ((t : Int) - rx) * 65536) % 2 ^ 64).toNat)

/-- A port keeps the egress time of its delay request (R241). -/
def State.noteEgress (s : State) (p t : Nat) (f : TxFill) : State :=
  match f with
  | .dreq n => { s with time := { s.time with ports := padMod .init p (fun (x : PtpPort) => { x with dreq := some (n, t) }) s.time.ports } }
  | .pdreq n => { s with time := { s.time with ports := padMod .init p (fun (x : PtpPort) => { x with pdreq := some (n, t) }) s.time.ports } }
  | _ => s

/-- What a port puts out: a frame with its addresses, that of the source being the port's own; a Command Port reply. -/
def State.txOutput (s : State) (p t : Nat) (e : TxEnt) : Output :=
  match e.fill with
  | .reply src => .reply 2 src (e.bytes.drop 8)
  | _ => .net p (s.macTo p e) (if e.kind = 0 then 0 else s.macBase + p) (e.kind + 2 ^ 16 * s.vlanTag p e.kind) (e.filled t) (stampOf t)

/-- A frame leaves a port at an instant. -/
def State.leave (s : State) (p t : Nat) (e : TxEnt) (status : Nat) : State :=
  let n := t + s.frameNs p e
  let s := s.modNet fun x => { x with busy := padMod 0 p (fun _ => n) x.busy }
  (((s.pmu (72 + p)).emit (s.txOutput p t e)).noteEgress p t e.fill).descDone e status

/-- The frames without launch time that have started by now, in queue order: each when it may and its port is free, unless it would
end after the earliest pending launch (R250). -/
def State.drain (s : State) (p : Nat) : Nat → State
  | 0 => s
  | k + 1 =>
    match (s.txFree p).find? fun e => e.launch.isNone with
    | none => s
    | some e =>
      let t := max e.since (s.net.busy.getD p 0)
      if t ≤ s.now && s.fits p t e then
        let s := s.modNet fun x => { x with tx := padMod [] p (fun q => q.erase e) x.tx }
        (s.leave p t e 1).drain p k
      else s

/-- Every frame of a port that has started by now has left. -/
def State.flush (s : State) (p : Nat) : State := s.drain p (s.txq p).length

/-- The same on every port. -/
def State.flushAll (s : State) : State := (List.range 5).foldl (fun t p => t.flush p) s

/-- Queue a frame on a port; it leaves at once unless it has a launch time or must wait. -/
def State.queueTx (s : State) (p : Nat) (e : TxEnt) : State :=
  ((s.flush p).modNet fun x => { x with tx := padMod [] p (fun q => q ++ [e]) x.tx }).flush p

/-- Send a frame without launch time. -/
def State.sendFill (s : State) (p dst kind : Nat) (b : List Byte) (f : TxFill) : State :=
  s.queueTx p ⟨none, false, dst, kind, b, none, s.now, f⟩

/-- Send a frame without launch time that takes nothing as it leaves. -/
def State.sendPlain (s : State) (p dst kind : Nat) (b : List Byte) : State := s.sendFill p dst kind b .none

/-- A UDP datagram from its header on: its ports, its length, checksum 0 (R249). -/
def udpBytes (src dst : Nat) (b : List Byte) : List Byte := beBytes 2 src ++ beBytes 2 dst ++ beBytes 2 (b.length + 8) ++ [0, 0] ++ b

/-- The first launched entry of a port whose launch is the earliest. -/
def State.dueEnt (s : State) (p : Nat) : Option TxEnt :=
  match s.nextLaunch p with
  | none => none
  | some l => (s.txFree p).find? fun e => s.launchAt e == some l

/-- Launch the earliest entry of a port: its SFD leaves at its launch time or when the port is free, and a frame later than
LATE_TOL_US is sent or dropped (R250, R251). -/
def State.launchOne (s : State) (p : Nat) : State :=
  match s.dueEnt p with
  | none => s.flush p
  | some e =>
    let l := (s.launchAt e).getD 0
    let s := ((s.advanceTo l.toNat).flush p).modNet fun x => { x with tx := padMod [] p (fun q => q.erase e) x.tx }
    let t := s.portFree p
    let late := decide (l + (s.get F.TIME_LCH_LATE_TOL_US * 1000 : Nat) < t)
    let s := if !late then s.leave p t e 1
      else if (s.get F.TIME_LCH_LATE_POLICY / 2 ^ p) % 2 = 1 then (s.bump (F.TIME_LCNT_LATE_DROP p)).descDone e 3
      else (s.bump (F.TIME_LCNT_LATE_SENT p)).leave p t e 2
    s.flush p

/-- Launch every entry of a port that is due by now. -/
def State.launchDue (s : State) (p : Nat) : Nat → State
  | 0 => s
  | k + 1 => match s.nextLaunch p with
    | some l => if l ≤ s.now then (s.launchOne p).launchDue p k else s
    | none => s

/-- Launch all that is due by now on some ports. -/
def State.launchAll (s : State) (ps : List Nat) : State := ps.foldl (fun t p => t.launchDue p (t.txq p).length) s

/-- The launch time that the copies of a twin frame share when none is given: when all its ports are free (R258; log entry 232). -/
def State.twinLaunch (s : State) (ps : List Nat) : Nat := ps.foldl (fun t p => max t (s.net.busy.getD p 0)) s.now

/-- The hold of R190 ends: what waited may start, the copies of a twin frame together. -/
def State.releaseTx (s : State) : State :=
  if !s.ha.holdTx then s
  else
    let l := stampOf (s.twinLaunch [0, 1, 3])
    let now := s.now
    let go (e : TxEnt) : TxEnt := { e with since := max e.since now, launch := if e.auto then some l else e.launch }
    let s := { s with ha := { s.ha with holdTx := false } }
    let s := s.modNet fun x => { x with tx := x.tx.map fun q => q.map go }
    ((([0, 1, 3] : List Nat)).foldl (fun t p => t.flush p) s).launchAll [0, 1, 3]

/-- SCHEDULED_LAUNCH: the earliest launch time of a port comes (R250, R251). -/
def execScheduledLaunch (p : Fin 5) (s : State) : Host.Outcome State Fault Refusal :=
  s.ends (if s.netUp p.val then s.launchOne p.val else s)

/-! Zaley frames (R257 to R259). -/

/-- One bit of the safety code: polynomial 0xF4ACFB13, most significant bit first. -/
def safetyBit (c : BitVec 32) : BitVec 32 := if c.getMsbD 0 then (c <<< 1) ^^^ 0xF4ACFB13#32 else c <<< 1

/-- One byte of the safety code. -/
def safetyByte (c : BitVec 32) (b : Byte) : BitVec 32 :=
  let c := c ^^^ (b.zeroExtend 32 <<< 24)
  safetyBit (safetyBit (safetyBit (safetyBit (safetyBit (safetyBit (safetyBit (safetyBit c)))))))

/-- SAFETY over bytes, seeded with a signature; no final inversion (R259). -/
def safetyCode (sig : Word) (b : List Byte) : Word := b.foldl safetyByte sig

/-- A Zaley frame from offset 0x00 to its CRC-32C (R257, R259): TYPE, FLAGS, destination, twin?, payload. -/
def State.zaley (s : State) (typ flags dst : Nat) (twin : Bool) (payload : List Byte) : List Byte :=
  let head := leBytes 1 1 ++ leBytes 1 typ ++ leBytes 2 (flags + (if twin then 1 else 0)) ++ leBytes 2 s.nodeId ++ leBytes 2 dst
    ++ leBytes 4 s.net.seq.toNat ++ leBytes 2 (s.get F.SYS_BOOTCNT_COUNT) ++ leBytes 2 payload.length
    ++ leBytes 4 (s.word R.HA_TERM).toNat ++ leBytes 2 (s.get F.HA_TERMSRC_SRC) ++ leBytes 2 0
  let b := head ++ payload
  let b := if twin then b ++ leBytes 4 (safetyCode (s.word R.ZAL_SIG) b).toNat else b
  b ++ leBytes 4 (crc32c b).toNat

/-- Does the CRC-32C at a frame's end pass? -/
def crcOk (b : List Byte) : Bool :=
  decide (0x1C ≤ b.length) && leNat (b.drop (b.length - 4)) == (crc32c (b.take (b.length - 4))).toNat

/-- Does a twin frame's safety code pass, and is its length that of its LEN? (R259) -/
def State.safetyOk (s : State) (b : List Byte) : Bool :=
  let n := 0x18 + (zRead b).len
  b.length == n + 8 && leNat ((b.drop n).take 4) == (safetyCode (s.word R.ZAL_SIG) (b.take n)).toNat

/-- The ports a twin frame leaves on: P0 with P3 when RING is 1, and P1 (R258). -/
def State.twinPorts (s : State) : List Nat :=
  ((if s.flag (F.NET_CFG_RING 3) then [0, 3] else [0]) ++ [1]).filter s.netUp

/-- Send a twin frame: the same bytes on every twin port with one launch time; a destination not ADMITTED gets nothing and counts
NOT_SENT (R258). -/
def State.sendTwin (s : State) (typ flags dst : Nat) (payload : List Byte) (launch : Option Stamp) : State :=
  if dst ≠ 0x3FF && !s.admitted dst then s.bump F.TWIN_CNT1_NOT_SENT
  else
    let b := s.zaley typ flags dst true payload
    let ps := s.twinPorts
    let l := launch.getD (stampOf (s.twinLaunch ps))
    let e : TxEnt := ⟨some l, launch.isNone, dst, 0x88B5, b, none, s.now, .none⟩
    let s := s.modNet fun x => { x with seq := x.seq + 1 }
    (ps.foldl (fun t p => t.queueTx p e) s).launchAll ps

/-- Discard the command frames that wait for their launch (R193). -/
def State.dropCmds (s : State) : State :=
  s.modNet fun x => { x with tx := x.tx.map fun q => q.filter fun e => !(e.kind == 0x88B5 && (zRead e.bytes).typ == zCMD) }

end Sys2Proof.Machine
end

