-- ==== Sys2Proof/Machine/Time.lean ====
section
/-!
DEFINITION. The time base: the counter, references and discipline, steps, leap seconds, PTP ports, PPS outputs and
capture inputs (14_time R239 to R253).
-/
namespace Sys2Proof.Machine

/-- Change the time base. -/
def State.modTime (s : State) (f : TimeBase → TimeBase) : State := { s with time := f s.time }

/-- The least increment, 10 ns - 200 ppm. -/
def incMin : Nat := 0x09FF7CED92
/-- The greatest increment, 10 ns + 200 ppm. -/
def incMax : Nat := 0x0A0083126E

/-- Set TIME_INC, clamped to its range; a clamp sets INC_CLAMP (R239), whose setting raises source 29 (R369). -/
def State.setInc (s : State) (v : Int) : State :=
  let c := clampI incMin incMax v
  let s := (s.set F.TIME_INCL_INC_FRAC c.toNat).set F.TIME_INCH_INC_NS (c.toNat / 2 ^ 32)
  if c = v then s
  else if s.flag F.TIME_STAT_INC_CLAMP then s
  else (s.setFlag F.TIME_STAT_INC_CLAMP true).event 29 0 .none

/-- One CLK_GN tick: the 96-bit sum of R239. While NET is not ON one edge of REFCLK comes in its place, for the AON shadow
(R246). -/
def State.tick (s : State) : State := if s.timeRuns then s.runTicks 1 0 else s

/-- TIME_STAT.TQ: 0 NONE, 1 LOCKED, 2 HOLDOVER, 3 SLEWING, 4 FREERUN. -/
def State.tq (s : State) : Nat := s.get F.TIME_STAT_TQ

/-- A change of TQ raises the TIME source and writes a loaf (R243). -/
def State.setTq (s : State) (q : Nat) : State :=
  if s.tq = q then s
  else
    let s := s.set F.TIME_STAT_TQ q
    s.event 24 (s.word R.TIME_STAT) .loaf

/-- A reference's state: 1 GNSS, 2 PTP. -/
def State.refSt (s : State) (r : Nat) : RefSt := if r = 1 then s.time.gnss else s.time.ptp

/-- Change a reference's state. -/
def State.modRef (s : State) (r : Nat) (f : RefSt → RefSt) : State :=
  s.modTime fun t => if r = 1 then { t with gnss := f t.gnss } else { t with ptp := f t.ptp }

/-- LOSS_MS in ns; 0 is read as 1. -/
def State.lossNs (s : State) : Nat := max 1 (s.get F.TIME_HOLD_LOSS_MS) * 1000000

/-- A reference is live while it delivered an offset within the last LOSS_MS (R241). -/
def State.live (s : State) (r : Nat) : Bool :=
  match (s.refSt r).since with
  | some t => decide (s.now < t + s.lossNs)
  | none => false

/-- Usable: live and not refused (R241). -/
def State.usable (s : State) (r : Nat) : Bool := (r == 1 || r == 2) && s.live r && !(s.refSt r).refused

/-- TIME_REF.PRI and SEC; 3 is read as 0. -/
def State.priRef (s : State) : Nat := s.get F.TIME_REF_PRI % 3
def State.secRef (s : State) : Nat := s.get F.TIME_REF_SEC % 3

/-- The reference to be in use (R241); 0 none. -/
def State.chosen (s : State) : Nat :=
  if s.usable s.priRef then s.priRef else if s.usable s.secRef then s.secRef else 0

/-- JUMP_MAX in ns; 0 is read as 1 µs. -/
def State.jumpMax (s : State) : Int := max 1 (s.get F.TIME_REF_JUMP_US) * 1000

/-- 100 ppm of 10 ns, in 2^-32 ns (R242). -/
def ppm100 : Int := 4294967

/-- Set ACC_NS, saturating. -/
def State.setAcc (s : State) (ns : Nat) : State := s.setWord R.TIME_ACC (BitVec.ofNat 32 (min ns 0xFFFFFFFF))

/-- The reference in use, shown in SRC: while the time base is LOCKED or SLEWING; 0 none (R241, R243). -/
def State.useRef (s : State) : Nat := if s.tq = 1 || s.tq = 3 then s.get F.TIME_STAT_SRC else 0

/-- TIME_REF.BW; above 13 read as 13. -/
def State.loopBw (s : State) : Nat := min 13 (s.get F.TIME_REF_BW)

/-- The increment that matches a reference: between two offsets the count has moved by the reference's time and by the change of
the offset (R242). All in 2^-32 ns, over some ticks. -/
def matchInc (fine0 fine1 : Nat) (ofs0 ofs1 : Int) (ticks : Nat) : Int :=
  ((fine1 : Int) - fine0 - (ofs1 - ofs0) * 2 ^ 32) / ticks

/-- A frequency moved towards the measured one by a weight of 0 to 65536. -/
def towards (old new : Int) (w : Nat) : Int := old + (new - old) * (w % 65537 : Nat) / 65536

/-- The increment is the frequency and a phase term, clamped (R239, R242). -/
def State.setPhase (s : State) (ph : Int) : State := (s.setInc (s.time.freq + ph)).modTime fun t => { t with phase := ph }

/-- The count at the present instant in 2^-32 ns. -/
def State.fineNow (s : State) : Nat := s.fine + s.time.sub * 2 ^ 32

/-- An offset of the reference in use is measured: the frequency moves towards the one that matches the reference since its
previous measurement, by the loop's bandwidth (R242; log entry 12), and its sigma is that of the last measurement (R243). -/
def State.measure (s : State) (r : Nat) (ofs : Int) : State :=
  let x := s.refSt r
  let here := (ofs, s.fineNow, s.time.ticks)
  let s := s.modRef r fun x => { x with mark := some here }
  let now := s.now
  let s := s.modTime fun t => { t with sigmaLast := x.sigma, sigmaAt := now }
  match x.mark with
  | none => s
  | some (o, f, n) =>
    if s.time.ticks ≤ n then s
    else
      let m := matchInc f s.fineNow o ofs (s.time.ticks - n)
      let w := Config.loopGain s.loopBw s.free
      s.drawn.modTime fun t => { t with freq := towards t.freq m w }

/-- The normal discipline: the frequency plus the loop's phase term, within ±100 ppm of 10 ns (R242; log entry 12). -/
def State.discipline (s : State) (ofs : Int) : State :=
  let ph := clampI (-ppm100) ppm100 (Config.loopPhase s.loopBw ofs s.free)
  s.drawn.setPhase ph

/-- The reference's sigma becomes the accuracy (R243). -/
def State.accFrom (s : State) (r : Nat) : State :=
  let x := s.refSt r
  let t := x.since.getD s.now
  (s.setAcc x.sigma).modTime fun b => { b with sigmaLast := x.sigma, sigmaAt := t }

/-- SLEWING ends at a remaining offset of 20 ns or less: LOCKED, with the reference's sigma; the normal discipline takes the rest
(R243). -/
def State.slewDone (s : State) : State :=
  if s.tq = 3 && decide (s.time.slewRem.natAbs ≤ 20 * 2 ^ 32) then
    let r := s.get F.TIME_STAT_SRC
    ((s.setTq 1).accFrom r).discipline (s.time.slewRem / 2 ^ 32)
  else s

/-- 100 ppm of the frequency, rounded to the nearest, and not above the limit of R242 (R243, its worked example). -/
def State.slewTerm (s : State) : Int := clampI (-ppm100) ppm100 ((s.time.freq + 5000) / 10000)

/-- The slew takes an offset: phase term at ±100 ppm against it (R243). -/
def State.slewBy (s : State) (ofs : Int) : State :=
  ((s.setPhase (if ofs > 0 then -s.slewTerm else s.slewTerm)).modTime fun t => { t with slewRem := ofs * 2 ^ 32 }).slewDone

/-- A slew starts at an offset: ACC_NS is held at the value it had (R243). -/
def State.startSlew (s : State) (r : Nat) (ofs : Int) : State :=
  let s := (s.setAcc s.accNs).measure r ofs
  ((s.setTq 3).set F.TIME_STAT_SRC r).slewBy ofs

/-- LOCKED to a reference at an offset: its sigma, the normal discipline (R242, R243). -/
def State.lockTo (s : State) (r : Nat) (ofs : Int) : State :=
  (((s.measure r ofs).set F.TIME_STAT_SRC r).setTq 1).accFrom r |>.discipline ofs

/-- A refused offset: JUMP_REF sets and the reference is refused (R241, R243). -/
def State.refuseOfs (s : State) (r : Nat) : State :=
  (s.setFlag F.TIME_STAT_JUMP_REF true).modRef r fun x => { x with refused := true }

/-- The reference whose offset TIME_OFS holds: the one in use, or with none the first live one (R241). -/
def State.shownRef (s : State) : Nat :=
  if s.useRef ≠ 0 then s.useRef
  else if (s.priRef = 1 || s.priRef = 2) && s.live s.priRef then s.priRef
  else if (s.secRef = 1 || s.secRef = 2) && s.live s.secRef then s.secRef else 0

/-- TIME_OFS after an offset of a reference, which `fresh` has been measured since the last step (R241, R244). -/
def State.showOfs (s : State) (r : Nat) (fresh : Bool) : State :=
  let q := s.shownRef
  if q = 0 then s
  else
    let s := s.seti R.TIME_OFS (s.refSt q).ofs
    if q = r then s.modTime fun t => { t with measured := fresh } else s

/-- No reference in use: the frequency without the phase term (R242). -/
def State.noRef (s : State) : State := ((s.setPhase 0).modTime fun t => { t with slewRem := 0, gnss := { t.gnss with mark := none }, ptp := { t.ptp with mark := none } }).set F.TIME_STAT_SRC 0

/-- HOLDOVER: phase term zeroed, no reference in use (R242, R243); FREERUN when PRI is 0 (R241). -/
def State.toHoldover (s : State) : State :=
  let s := s.noRef
  if s.priRef = 0 then (s.setAcc 0xFFFFFFFF).setTq 4 else s.setTq 2

/-- An instant of the count moved with a step, so that the time elapsed since stays what it was (log entry 216). -/
def movedBy (d : Int) (t : Nat) : Nat := ((t : Int) + d).toNat

/-- A span moved with a step. -/
def spanBy (d : Int) (t : Nat × Nat) : Nat × Nat := (movedBy d t.1, movedBy d t.2)

/-- The instants from which a PTP port measures its timeouts. -/
def PtpPort.moved (d : Int) (x : PtpPort) : PtpPort :=
  { x with anns := x.anns.map (fun e => (e.1, movedBy d e.2.1, e.2.2.map (movedBy d))), lastAnn := movedBy d x.lastAnn,
           lastSyncAt := movedBy d x.lastSyncAt }

/-- The instants from which the time base measures (R241, R243, R253). -/
def TimeBase.moved (d : Int) (t : TimeBase) : TimeBase :=
  let r (x : RefSt) : RefSt := { x with since := x.since.map (movedBy d), mark := none }
  { t with gnss := r t.gnss, ptp := r t.ptp, sigmaAt := movedBy d t.sigmaAt, ports := t.ports.map (PtpPort.moved d),
           tcapLast := t.tcapLast.map fun e => e.map (movedBy (4 * d)), tcapEdge := t.tcapEdge.map fun e => e.map (movedBy (4 * d)) }

/-- Those of the stream front end: datagrams of the last 100 ms, UARTs, peers, fast packets (R42 to R47). -/
def Fe.moved (d : Int) (f : Fe) : Fe :=
  { f with dedupe := f.dedupe.map (fun e => (e.1, movedBy d e.2)),
           uarts := f.uarts.map (fun u => { u with tx := u.tx.map (fun e => (e.1, movedBy d e.2)), partAt := movedBy d u.partAt,
                                                   lastChar := if u.lastChar = 0 then 0 else movedBy d u.lastChar }),
           peers := f.peers.map (fun p => { p with last := movedBy d p.last }),
           fast := f.fast.map (fun p => { p with start := movedBy d p.start }) }

/-- Those of the job fabric; deadlines stay (R245). -/
def Jobs.moved (d : Int) (j : Jobs) : Jobs :=
  { j with jobs := j.jobs.map (fun x => { x with submitAt := movedBy d x.submitAt, firstAt := x.firstAt.map (movedBy d),
                                                 sinceAt := movedBy d x.sinceAt }),
           idleAt := j.idleAt.map (movedBy d) }

/-- Those of the servo engine. -/
def Servo.moved (d : Int) (v : Servo) : Servo :=
  { v with loops := v.loops.map (fun l => { l with perAt := movedBy d l.perAt, outAt := l.outAt.map (movedBy d),
                                                   uAt := movedBy d l.uAt, spAt := movedBy d l.spAt }),
           entries := v.entries.map (fun e => (movedBy d e.1, e.2)), tickAt := movedBy d v.tickAt,
           ssi := v.ssi.map fun e => e.map fun f => { f with start := movedBy d f.start, till := movedBy d f.till } }

/-- Those of the pair: heartbeat periods and lines, the partner, the checkpoint being sent, the refresh (R183, R196). -/
def Ha.moved (d : Int) (h : Ha) : Ha :=
  { h with lines := h.lines.map (fun l => { l with heard := l.heard.map (spanBy d) }), perAt := h.perAt.map (fun a => movedBy d a / 4000 * 4000),
           pDriveAt := h.pDriveAt.map (movedBy d), lastHb := movedBy d h.lastHb, tdAt := movedBy d h.tdAt,
           ckSend := h.ckSend.map (fun c => { c with start := movedBy d c.start, till := movedBy d c.till }), refreshAt := movedBy d h.refreshAt }

/-- Those of the lattice and the safety core (R198 to R215). -/
def Kz.moved (d : Int) (k : Kz) : Kz :=
  { k with chans := k.chans.map (fun c => { c with graceAt := c.graceAt.map (fun e => e.map (movedBy d)),
                                                   sltGraceAt := c.sltGraceAt.map (movedBy d) }),
           degAt := movedBy d k.degAt, clrAt := movedBy d k.clrAt, authAt := k.authAt.map (movedBy d), scAt := movedBy d k.scAt,
           discAt := k.discAt.map fun e => e.map (movedBy d) }

/-- Those of the receiver (R224 to R237). -/
def Gnss.moved (d : Int) (g : Gnss) : Gnss :=
  { g with solAt := movedBy d g.solAt, sleepAt := g.sleepAt.map (movedBy d),
           searching := g.searching.map (fun q => (q.1, q.2.1, movedBy d q.2.2.1, q.2.2.2)),
           lostAt := g.lostAt.map (fun e => (e.1, movedBy d e.2)), ggto := g.ggto.map (fun e => (e.1, movedBy d e.2)),
           corr := g.corr.map (fun e => (e.1, movedBy d e.2.1, e.2.2)), refused := g.refused.map (fun e => (movedBy d e.1, e.2)),
           wbAt := movedBy d g.wbAt, jiAt := movedBy d g.jiAt }

/-- Those of the ports and the twin entries; launch times stay (R245). -/
def Net.moved (d : Int) (n : Net) : Net :=
  { n with busy := n.busy.map (movedBy d), twin := n.twin.map (fun e => { e with openAt := movedBy d e.openAt }),
           tx := n.tx.map (fun q => q.map fun e => { e with since := movedBy d e.since }),
           helloAt := n.helloAt.map fun e => e.map (movedBy d) }

/-- Those of a CAN controller. -/
def Can.moved (d : Int) (c : Can) : Can :=
  { c with slot := c.slot.map (fun x => { x with winEnd := movedBy d x.winEnd, sof := x.sof.map (movedBy d) }),
           colAt := c.colAt.map (movedBy d), refAt := movedBy d c.refAt }

/-- Those of the block runtime. -/
def Be.moved (d : Int) (b : Be) : Be :=
  { b with tasks := b.tasks.map (fun t => { t with handled := t.handled.map (movedBy d), relAt := movedBy d t.relAt }),
           copies := b.copies.map (fun c => { c with req := movedBy d c.req }), moverAt := movedBy d b.moverAt,
           actAt := b.actAt.map (movedBy d), swAt := b.swAt.map (movedBy d), runs := b.runs.map (fun r => (r.1, spanBy d r.2)),
           since := b.since.map fun e => e.map (movedBy d) }

/-- Every instant a unit measures elapsed time from moves with a step; stamps, launch times, triggers and deadlines stay as they are
(R245; log entry 216). -/
def State.moveSince (s : State) (d : Int) : State :=
  { s with
    time := s.time.moved d
    ic := { s.ic with procs := s.ic.procs.map fun p => { p with rings := p.rings.map fun r => { r with held := r.held.map fun e => (e.1, movedBy d e.2) } },
                      maskAt := s.ic.maskAt.map fun e => (e.1, movedBy d e.2) }
    fe := s.fe.moved d
    surv := { s.surv with runAt := s.surv.runAt.map (movedBy d) }
    jobs := s.jobs.moved d
    srv := s.srv.moved d
    -- the filter chain counts CLK_IO: its next samples keep their distance
    dsf := s.dsf.map fun (c : Dsf) => { c with nextAt := (((c.nextAt : Int) + 2 * d) % 2 ^ 65).toNat }
    syncEdge := none
    ha := s.ha.moved d
    kz := s.kz.moved d
    gn := s.gn.moved d
    net := s.net.moved d
    can := s.can.map (Can.moved d)
    be := s.be.moved d
    pwr := { s.pwr with heldAt := movedBy d s.pwr.heldAt, rising := s.pwr.rising.map (fun e => (e.1, movedBy d e.2)),
                        restoreEnd := movedBy d s.pwr.restoreEnd }
    cp := { s.cp with op := s.cp.op.map fun o => { o with startAt := movedBy d o.startAt } }
    scrub := { s.scrub with last := s.scrub.last.map (movedBy d) } }

/-- A step of the count between two ticks, by a signed value (R244, R245): pulses go on, and a PPS makes no edge until
half a period has passed (R252). -/
def State.stepCount (s : State) (d : Int) : State :=
  let n : Int := ((s.time.count.toNat : Int) + d) % 2 ^ 64
  let s := s.moveSince d
  let s := s.modTime fun t => { t with count := BitVec.ofInt 64 n, measured := false,
                                       pps := t.pps.map fun (p : Pps) => { p with last := none, step := some n.toNat } }
  (s.bump F.TIME_STAT_STEP_CNT).setFlag F.TIME_STAT_CONT true

/-- A return or change of reference with an offset (R243). -/
def State.takeOfs (s : State) (r : Nat) (ofs : Int) : State :=
  if ofs.natAbs ≤ s.jumpMax then s.startSlew r ofs else s.refuseOfs r

/-- The first offset in NONE with RUN 0: the count is stepped by it under the step rules, with their loaf, and the time base is
LOCKED (R243, R244). -/
def State.firstOfs (s : State) (r : Nat) (ofs : Int) : State :=
  let s := s.stepCount (-ofs)
  let s := s.modRef r fun x => { x with since := some s.now }
  let s := s.record 24 (s.word R.TIME_STAT) .loaf
  s.lockTo r 0

/-- An offset delivered by a reference, by the rows of R243. The reference in use is chosen at it; a change waits for the new
reference's own offset, and with none usable the time base is in HOLDOVER (R241). -/
def State.refOffset (s : State) (r : Nat) (ofs : Int) (sigma : Nat) : State :=
  let now := s.now
  let within := decide (ofs.natAbs ≤ s.jumpMax)
  let s := s.modRef r fun x => { x with ofs := ofs, since := some now, sigma := sigma, refused := x.refused && !within }
  let named := s.priRef = r || s.secRef = r
  let use := s.useRef
  if s.tq = 0 && named && !s.run then (s.firstOfs r ofs).showOfs r false
  else
    let s :=
      if use ≠ 0 then
        if use = r && named then
          if s.tq = 1 then s.lockTo r ofs else (s.measure r ofs).slewBy ofs
        else if s.chosen = 0 then s.toHoldover
        else if s.chosen = r then
          if within then (if ofs.natAbs ≤ 20 then s.lockTo r ofs else s.startSlew r ofs)
          else
            let s := s.refuseOfs r
            if s.usable use then s else s.toHoldover
        else s
      else if named && (s.chosen = r || !within || s.tq = 0) then s.takeOfs r ofs
      else s
    s.showOfs r true

/-! The receiver's time quality (R235, R236). -/

/-- A change of GN_TQ.TQ raises its source and writes a loaf. -/
def State.setGnTq (s : State) (q : Nat) : State :=
  if s.get F.GN_TQ_TQ = q then s
  else
    let s := s.set F.GN_TQ_TQ q
    s.event 310 (s.word R.GN_TQ) .loaf

/-- What remains of the offset the receiver measured, in 2^-32 ns: the slew acts while the time base takes GNSS as its
reference (R236). -/
def State.gnRemaining (s : State) : Nat :=
  if s.useRef = 1 && s.tq = 3 then s.time.slewRem.natAbs
  else if s.useRef = 1 then 0
  else s.time.gnss.ofs.natAbs * 2 ^ 32

/-- SLEWING ends at a remaining offset of 20 ns or less, with the accuracy of the time solution. -/
def State.gnSlewDone (s : State) : State :=
  if s.get F.GN_TQ_TQ = 3 && decide (s.gnRemaining ≤ 20 * 2 ^ 32) then
    (s.setWord R.GN_TACC (BitVec.ofNat 32 s.gn.sigma)).setGnTq 1
  else s

/-- A GNSS time solution: the offset of device time against GNSS time in ns, and its sigma (R235); it moves GN_TQ and is
delivered to the time base (R241). -/
def State.gnSolution (s : State) (ofs : Int) (sigma : Nat) : State :=
  let now := s.now
  let sigma := min sigma 0xFFFFFFFF
  let q := s.get F.GN_TQ_TQ
  let acc := s.gnAcc
  let within := decide (ofs.natAbs ≤ s.jumpMax)
  let s := s.seti R.GN_TOFS ofs
  let taken (t : State) : State := { t with gn := { t.gn with solAt := now, sigma := sigma, refused := none } }
  let s :=
    if q = 2 then
      if within then ((taken s).setWord R.GN_TACC (BitVec.ofNat 32 acc)).setGnTq 3
      else { s.setFlag F.GN_TQ_TIME_JUMP_REFUSED true with gn := { s.gn with refused := some (now, sigma) } }
    else if q = 3 then taken s
    else ((taken s).setWord R.GN_TACC (BitVec.ofNat 32 sigma)).setGnTq 1
  (s.refOffset 1 ofs sigma).gnSlewDone

/-- REFERENCE_OFFSET: a reference delivers an offset in ns with its sigma (R241 to R243). A GNSS offset is a time solution
of the receiver, which needs GNBB. -/
def execReferenceOffset (ptp : Bool) (ofs : Int) (sigma : Nat) (s : State) : Host.Outcome State Fault Refusal :=
  s.ends (if ptp then s.refOffset 2 ofs sigma else if s.domOn 9 then s.gnSolution ofs sigma else s)

/-- REFERENCE_LOSS: LOSS_MS without an offset from the reference in use (R243). -/
def execReferenceLoss (s : State) : Host.Outcome State Fault Refusal :=
  s.ends (
    let use := s.useRef
    match (if use = 1 || use = 2 then (s.refSt use).since else none) with
    | none => s
    | some t =>
      let s := s.advanceTo (t + s.lossNs)
      let other := if s.priRef = use then s.secRef else s.priRef
      if s.tq = 3 then s.toHoldover
      else if s.tq = 1 && !s.usable other then s.toHoldover
      else s)

/-- SLEW_END: device time runs on until the remaining offset of a slew is 20 ns, and the time base is LOCKED (R243). -/
def execSlewEnd (s : State) : Host.Outcome State Fault Refusal :=
  s.ends (
    if s.tq = 3 then
      let left := s.time.slewRem.natAbs - 20 * 2 ^ 32
      let per := s.time.phase.natAbs
      let s := s.advanceTicks ((left + per - 1) / per)
      let s := s.modTime fun t => { t with slewRem := if t.slewRem < 0 then -(20 * 2 ^ 32) else 20 * 2 ^ 32 }
      s.slewDone.gnSlewDone
    else s)

/-- A completed step: JUMP_REF clears and references are refused no longer (R241); a slew ends where it stands; LOCKED if a
reference is now in use by R241's order, else FREERUN (R243; log entry 217); a loaf is written (R244); a receiver in HOLDOVER is
LOCKED again, with the sigma of its latest time solution, a refused one too, from which LOSS_MS counts (R235). -/
def State.stepDone (s : State) : State :=
  let s := s.setFlag F.TIME_STAT_JUMP_REF false
  let s := (s.modRef 1 fun x => { x with refused := false }).modRef 2 fun x => { x with refused := false }
  let s := s.record 24 (s.word R.TIME_STAT) .loaf
  let s := if s.get F.GN_TQ_TQ = 2 then
      let s := match s.gn.refused with
        | some (t, q) => { s with gn := { s.gn with solAt := t, sigma := q, refused := none } }
        | none => s
      ((s.setWord R.GN_TACC (BitVec.ofNat 32 s.gn.sigma)).setFlag F.GN_TQ_TIME_JUMP_REFUSED false).setGnTq 1 else s
  let use := s.chosen
  if use = 1 || use = 2 then
    let s := if s.tq = 3 then (s.setPhase 0).modTime fun t => { t with slewRem := 0 } else s
    ((s.set F.TIME_STAT_SRC use).setTq 1).accFrom use
  else (s.noRef.setAcc 0xFFFFFFFF).setTq 4

/-- A step refused: SRES NOT_NOW (R244). -/
def State.stepRefused (s : State) : State × CpSt := (s.setFlag F.TIME_STEP_SRES true, .notNow)

/-- A write of TIME_STEP: keyed; MODE 1 steps by the negated TIME_OFS, MODE 2 to TIME_SET (R244). With MODE 0 or 3, which R244 does not
name, the write is taken and nothing steps, whatever RUN is (R18; DESIGN CHOICE, log entry 254). -/
def timeStepWrite (s : State) (d : Dom) (v : Word) : State × CpSt :=
  s.writeGuard d R.TIME_STEP fun s => s.keyGuard v fun s =>
    let m := v.toNat % 4
    if m = 1 then
      if s.run || !s.time.measured then s.stepRefused
      else (((s.stepCount (-(s.geti R.TIME_OFS))).setFlag F.TIME_STEP_SRES false).stepDone, .ok)
    else if m = 2 then
      if s.run then s.stepRefused
      else
        let t : Nat := s.get F.TIME_SETL_SET + 2 ^ 32 * s.get F.TIME_SETH_SET
        let s := s.stepCount ((t : Int) - s.now)
        (((s.modTime fun b => { b with frac := 0, sub := 0 }).setFlag F.TIME_STEP_SRES false).stepDone, .ok)
    else (s, .ok)

/-- The keyed word of a TIME_STEP write with a mode. -/
def keyed (low : Nat) (key : BitVec 16) : Word := BitVec.ofNat 32 (low % 65536 + 65536 * key.toNat)

/-- TIME_STEP_BY_OFFSET: a TIME_STEP write with MODE 1 and a key (R244). -/
def execTimeStepByOffset (d : Dom) (key : BitVec 16) (s : State) : Host.Outcome State Fault Refusal :=
  s.ends (timeStepWrite s d (keyed 1 key)).1

/-- TIME_STEP_TO_SET: a TIME_STEP write with MODE 2 and a key (R244). -/
def execTimeStepToSet (d : Dom) (key : BitVec 16) (s : State) : Host.Outcome State Fault Refusal :=
  s.ends (timeStepWrite s d (keyed 2 key)).1

/-- A write of TIME_REF; PRI written 0, or 3, which reads as 0, takes the time base to FREERUN (R241, R243). -/
def timeRefWrite (s : State) (d : Dom) (v : Word) : State × CpSt :=
  let r := s.plainWrite d R.TIME_REF v
  if r.2 = .ok && v.toNat % 4 % 3 = 0 then ((r.1.noRef.setAcc 0xFFFFFFFF).setTq 4, .ok) else r

/-- PRI_CLEAR: a write of TIME_REF that leaves its other fields as they are and writes PRI 0 (R243). -/
def execPriClear (d : Dom) (s : State) : Host.Outcome State Fault Refusal :=
  s.ends (timeRefWrite s d ((s.word R.TIME_REF) &&& 0xFFFFFFFC#32)).1

/-- A write of TIME_INCL or TIME_INCH: only while PRI is 0, clamped (R239, R242). -/
def timeIncWrite (s : State) (d : Dom) (hi : Bool) (v : Word) : State × CpSt :=
  s.writeGuard d (if hi then R.TIME_INCH else R.TIME_INCL) fun s =>
    if s.priRef ≠ 0 then (s, .notNow)
    else
      let n : Nat := if hi then s.get F.TIME_INCL_INC_FRAC + 2 ^ 32 * (v.toNat % 256)
        else v.toNat + 2 ^ 32 * s.get F.TIME_INCH_INC_NS
      ((s.setInc n).modTime fun t => { t with freq := clampI incMin incMax n }, .ok)

/-- TIME_INC_WRITE (R242). -/
def execTimeIncWrite (d : Dom) (hi : Bool) (v : Word) (s : State) : Host.Outcome State Fault Refusal :=
  s.ends (timeIncWrite s d hi v).1

/-- A read of TIME_NOWL latches the high count and the fraction (R240). -/
def State.readNow (s : State) : State :=
  (s.setWord R.TIME_NOWH (BitVec.ofNat 32 (s.fine / 2 ^ 64))).setWord R.TIME_NOWF s.time.frac

/-- TIME_NOW_READ (R240). -/
def execTimeNowRead (s : State) : Host.Outcome State Fault Refusal := s.ends (s.inDomain 11 State.readNow)

/-- A write of TIME_LEAP sets TAI_UTC while no reference has given a value since reset (R247). -/
def timeLeapWrite (s : State) (d : Dom) (v : Word) : State × CpSt :=
  s.writeGuard d R.TIME_LEAP fun s =>
    if s.time.leapRef then (s, .notNow) else (s.set F.TIME_LEAP_TAI_UTC v.toNat, .ok)

/-- TAI_UTC_WRITE (R247). -/
def execTaiUtcWrite (d : Dom) (v : Word) (s : State) : Host.Outcome State Fault Refusal :=
  s.ends (timeLeapWrite s d v).1

/-- The next UTC midnight, as a device-time count. -/
def State.nextMidnight (s : State) : Nat :=
  let utc := s.now / 1000000000 - s.get F.TIME_LEAP_TAI_UTC
  (nextMultiple utc 86400 + s.get F.TIME_LEAP_TAI_UTC) * 1000000000

/-- TAI_UTC and a pending leap second as a reference gives them (R247). `leap`: 0 none, 1 insert, 2 delete; `days`: how many UTC
midnights ahead, 1 the next. The change comes at the midnight as UTC counts after it (log entry 214). -/
def State.leapFrom (s : State) (utc leap days : Nat) : State :=
  let s := ((s.set F.TIME_LEAP_TAI_UTC utc).setFlag F.TIME_LEAP_VALID true).set F.TIME_LEAP_PEND leap
  let m := s.nextMidnight + (days - 1) * 86400000000000 + (if leap = 1 then 1000000000 else 0) - (if leap = 2 then 1000000000 else 0)
  s.modTime fun t => { t with leapRef := true, leapAt := m }

/-- LEAP_SECOND: at the UTC midnight it names, a pending leap second changes TAI_UTC (R247). -/
def execLeapSecond (s : State) : Host.Outcome State Fault Refusal :=
  s.ends (
    let p := s.get F.TIME_LEAP_PEND
    if p = 1 || p = 2 then
      let s := s.advanceTo s.time.leapAt
      let t := s.get F.TIME_LEAP_TAI_UTC
      (s.set F.TIME_LEAP_TAI_UTC (if p = 1 then t + 1 else t - 1)).set F.TIME_LEAP_PEND 0
    else s)

/-! PTP (R248, R249). -/

/-- The default PTP port. -/
def ptpDflt : PtpPort := .init

/-- PTP port p. -/
def State.ptpPort (s : State) (p : Nat) : PtpPort := s.time.ports.getD p ptpDflt

/-- Change PTP port p. -/
def State.modPort (s : State) (p : Nat) (f : PtpPort → PtpPort) : State :=
  s.modTime fun t => { t with ports := padMod ptpDflt p f t.ports }

/-- Does the role run port p (R248)? -/
def State.ptpOn (s : State) (p : Nat) : Bool :=
  let r := s.get F.TIME_PTP_ROLE
  r == 3 || (r == 1 && p == 0) || (r == 2 && p == 1)

/-- A port that the role runs and that is on sends and takes PTP messages (R248, R254). -/
def State.ptpRuns (s : State) (p : Nat) : Bool := s.ptpOn p && s.netUp p

/-- TIME_PTPp_ST.PSTATE: 0 INITIALIZING, 1 LISTENING, 2 MASTER, 3 SLAVE, 4 PASSIVE, 5 FAULTY. -/
def State.pstate (s : State) (p : Nat) : Nat := s.get (F.TIME_PTP_ST_PSTATE p)

/-- Enter a port state; a port that enters SLAVE starts its measurements anew (R241, R243), one that enters LISTENING waits for
an Announce from now. -/
def State.setPstate (s : State) (p q : Nat) : State :=
  let s := if q = 3 && s.pstate p ≠ 3 then
      s.modPort p fun x => { x with mpdKnown := false, offs := [], syncWait := none, dreq := none, pdreq := none, pdwait := none,
                                    lastSync := none }
    else s
  let now := s.now
  let s := if q = 1 && s.pstate p ≠ 1 then s.modPort p fun x => { x with lastAnn := now } else s
  s.set (F.TIME_PTP_ST_PSTATE p) q

/-- A write of TIME_PTP: a port the role runs from now on goes to LISTENING, one it runs no longer to INITIALIZING (log entry
215). -/
def ptpRoleWrite (s : State) (d : Dom) (v : Word) : State × CpSt :=
  let r := s.plainWrite d R.TIME_PTP v
  ([0, 1].foldl (fun (t : State) p =>
    if t.ptpOn p && !s.ptpOn p then t.setPstate p 1
    else if !t.ptpOn p && s.ptpOn p then (t.modPort p fun _ => .init).setPstate p 0
    else t) r.1, r.2)

/-- The upper bound of a clockAccuracy code's range in units of 0.5 ps (R243): the standard's table (log entry 14); 0xFE counts as
0. -/
def accBound (c : Nat) : Nat :=
  if 0x17 ≤ c ∧ c ≤ 0x2F then (if c % 2 = 1 then 2 else 5) * 10 ^ ((c - 0x17) / 2)
  else if c = 0x30 then 2 * 10 ^ 13
  else if c = 0xFE then 0
  else 0xFFFFFFFF * 2000

/-- The clockAccuracy code of an accuracy in ns (R249): the first of the standard's ranges that holds it (log entry 14). -/
def accCode (ns : Nat) : Nat :=
  match (List.range 26).find? fun k => ns * 2000 ≤ accBound (0x17 + k) with
  | some k => 0x17 + k
  | none => 0x31

/-- The sum of the squares of offsets about their mean, times their number. -/
def squaresN (l : List Int) : Nat :=
  ((l.length : Int) * (l.map fun x => x * x).foldl (· + ·) 0 - (l.foldl (· + ·) 0) ^ 2).toNat

/-- The sigma of a PTP reference: the root sum square of the standard deviation of the last offsets, 0 for a single one, and the
accuracy of the port's master (R243). -/
def ptpSigma (offs : List Int) (acc : Nat) : Nat :=
  let n := offs.length
  let den := if n ≤ 1 then 1 else n * (if Config.offsLess n then n - 1 else n)
  let num := 4000000 * (if n ≤ 1 then 0 else squaresN offs) + accBound acc ^ 2 * den
  let d := 4000000 * den
  let r := isqrt (num / d)
  r + (if r * r * d ≠ num && Config.sigmaUp num then 1 else 0)

/-- A PTP offset: device time minus reference time at a Sync, less the mean path delay and the asymmetry (R241, R249). -/
def State.ptpOffset (s : State) (p : Nat) (origin : Int) (rx : Nat) : State :=
  let x := s.ptpPort p
  let s := s.modPort p fun q => { q with lastSync := some (origin.toNat, rx), lastSyncAt := s.now, syncWait := none }
  if x.mpdKnown then
    let ofs := (rx : Int) - origin - s.geti (R.TIME_PTP_MPD p) - s.geti (R.TIME_PTP_ASYM p)
    let offs := (ofs :: x.offs).take 16
    let s := s.modPort p fun q => { q with offs := offs }
    s.refOffset 2 ofs (ptpSigma offs ((x.master.map fun (m : AnnMsg) => m.acc.toNat).getD 0xFE))
  else s

/-- PTP_SYNC_RECEIVE: a Sync on port p: sequence, two-step flag, origin time (with correction) in ns (R241). -/
def execPtpSyncReceive (p : Fin 2) (seq : BitVec 16) (twoStep : Bool) (origin : Int) (s : State) :
    Host.Outcome State Fault Refusal :=
  s.ends (
    let s := s.frameIn p.val
    if !s.ptpRuns p.val || s.pstate p.val ≠ 3 then s
    else if twoStep then
      let now := s.now
      s.modPort p.val fun q => { q with syncWait := some (seq.toNat, now), lastSyncAt := now }
    else s.ptpOffset p.val origin s.now)

/-- PTP_FOLLOW_UP_RECEIVE: completes a two-step Sync (R241). -/
def execPtpFollowUpReceive (p : Fin 2) (seq : BitVec 16) (origin : Int) (s : State) :
    Host.Outcome State Fault Refusal :=
  s.ends (
    let s := s.frameIn p.val
    match (s.ptpPort p.val).syncWait with
    | some (q, rx) => if q = seq.toNat && s.ptpRuns p.val && s.pstate p.val == 3 then s.ptpOffset p.val origin rx else s
    | none => s)

/-- A mean path delay was measured (R241). -/
def State.setMpd (s : State) (p : Nat) (d : Int) : State :=
  (s.seti (R.TIME_PTP_MPD p) d).modPort p fun q => { q with mpdKnown := true }

/-- PTP_DELAY_RESP_RECEIVE: t4 completes an E2E delay measurement (R241). -/
def execPtpDelayRespReceive (p : Fin 2) (seq : BitVec 16) (t4 : Int) (s : State) :
    Host.Outcome State Fault Refusal :=
  s.ends (
    let s := (s.frameIn p.val).flush p.val
    if !s.ptpRuns p.val || s.flag (F.TIME_PTP_CFG_P2P p.val) then s
    else
      match (s.ptpPort p.val).dreq, (s.ptpPort p.val).lastSync with
      | some (q, t3), some (t1, t2) =>
        if q = seq.toNat then
          (s.modPort p.val fun x => { x with dreq := none }).setMpd p.val ((((t2 : Int) - t1) + (t4 - t3)) / 2)
        else s
      | _, _ => s)

/-- PTP_PDELAY_RESP_RECEIVE: a Pdelay_Resp: two-step flag, t2, and the responder's turnaround when one-step (R241). -/
def execPtpPdelayRespReceive (p : Fin 2) (seq : BitVec 16) (twoStep : Bool) (t2 turn : Int) (s : State) :
    Host.Outcome State Fault Refusal :=
  s.ends (
    let s := (s.frameIn p.val).flush p.val
    match (s.ptpPort p.val).pdreq with
    | some (q, t1) =>
      if q = seq.toNat && s.ptpRuns p.val && s.flag (F.TIME_PTP_CFG_P2P p.val) then
        if twoStep then
          let now := s.now
          s.modPort p.val fun x => { x with pdreq := none, pdwait := some (q, t1, t2.toNat, now) }
        else (s.modPort p.val fun x => { x with pdreq := none }).setMpd p.val (((s.now : Int) - t1 - turn) / 2)
      else s
    | none => s)

/-- PTP_PDELAY_RESP_FOLLOW_UP_RECEIVE: t3 completes a two-step P2P measurement (R241). -/
def execPtpPdelayRespFollowUpReceive (p : Fin 2) (seq : BitVec 16) (t3 : Int) (s : State) :
    Host.Outcome State Fault Refusal :=
  s.ends (
    let s := s.frameIn p.val
    match (s.ptpPort p.val).pdwait with
    | some (q, t1, t2, t4) =>
      if q = seq.toNat && s.ptpRuns p.val && s.flag (F.TIME_PTP_CFG_P2P p.val) then
        (s.modPort p.val fun x => { x with pdwait := none }).setMpd p.val ((((t4 : Int) - t1) - (t3 - t2)) / 2)
      else s
    | none => s)

/-! What a PTP port sends: the messages of IEEE 1588-2019, in network byte order (log entry 60). -/

/-- Port p's clockIdentity: the EUI-64 formed from its OTP MAC address (R248). -/
def State.clockId (s : State) (p : Nat) : Nat :=
  let m := s.macBase + p
  m / 2 ^ 24 % 2 ^ 24 * 2 ^ 40 + 0xFFFE * 2 ^ 24 + m % 2 ^ 24

/-- Port p's port identity: its clockIdentity and its number, 1 for an ordinary clock, p + 1 for a boundary clock. -/
def State.portId (s : State) (p : Nat) : Nat := s.clockId p * 2 ^ 16 + (if s.get F.TIME_PTP_ROLE = 3 then p + 1 else 1)

/-- The length of a message in bytes, by its type. -/
def ptpLen (typ : Nat) : Nat := if typ ≤ 1 then 44 else if typ = 11 then 64 else 54

/-- A message's kind on its transport: UDP over IPv4, or the EtherType 0x88F7 (R248). -/
def State.ptpKind (s : State) (p : Nat) : Nat := if s.flag (F.TIME_PTP_CFG_UDP p) then 17 else 0x88F7

/-- A message on its transport; over UDP to port 319 or 320 with checksum 0 (R248, R249). -/
def State.ptpData (s : State) (p typ : Nat) (b : List Byte) : List Byte :=
  let u := if typ < 8 then 319 else 320
  if s.flag (F.TIME_PTP_CFG_UDP p) then udpBytes u u b else b

/-- The group address of a message: peer delay messages have their own (log entry 60). -/
def State.ptpDst (s : State) (p typ : Nat) : Nat :=
  let peer := typ = 2 ∨ typ = 3
  if s.flag (F.TIME_PTP_CFG_UDP p) then (if peer then 0x01005E00006B else 0x01005E000181)
  else (if peer then 0x0180C200000E else 0x011B19000000)

/-- A PTP message: type, sequence, second flag byte, correction in 2^-16 ns, log interval, body. -/
def State.ptpMsg (s : State) (p typ seq flags : Nat) (corr : Int) (logi : Nat) (body : List Byte) : List Byte :=
  let ctl := if typ = 0 then 0 else if typ = 1 then 1 else if typ = 9 then 3 else 5
  beBytes 1 typ ++ beBytes 1 0x12 ++ beBytes 2 (ptpLen typ) ++ beBytes 1 (s.get F.TIME_PTP_DOMAIN) ++ beBytes 1 0
    ++ beBytes 1 0 ++ beBytes 1 flags ++ beBytes 8 (corr % 2 ^ 64).toNat ++ beBytes 4 0 ++ beBytes 10 (s.portId p)
    ++ beBytes 2 seq ++ beBytes 1 ctl ++ beBytes 1 logi ++ body

/-- Send a PTP message on port p, with what it takes as it leaves (R249). -/
def State.ptpSend (s : State) (p typ seq flags : Nat) (corr : Int) (logi : Nat) (body : List Byte) (f : TxFill) : State :=
  s.sendFill p (s.ptpDst p typ) (s.ptpKind p) (s.ptpData p typ (s.ptpMsg p typ seq flags corr logi body)) f

/-- The byte of a log interval in TIME_PTPp_CFG. -/
def State.logSync (s : State) (p : Nat) : Nat := s.get (F.TIME_PTP_CFG_LOG_SYNC p)
def State.logAnn (s : State) (p : Nat) : Nat := s.get (F.TIME_PTP_CFG_LOG_ANN p)
def State.logDelay (s : State) (p : Nat) : Nat := s.get (F.TIME_PTP_CFG_LOG_DELAY p)

/-- PTP_DELAY_REQ_RECEIVE: a Delay_Req with its correctionField (in 2^-16 ns) from a port identity: on a master port, answered with a
Delay_Resp that carries its arrival and that correction (R248). -/
def execPtpDelayReqReceive (p : Fin 2) (seq : BitVec 16) (corr : Int) (src : BitVec 80) (s : State) : Host.Outcome State Fault Refusal :=
  s.ends (
    let s := s.frameIn p.val
    if s.ptpRuns p.val && s.pstate p.val == 2 && !s.flag (F.TIME_PTP_CFG_P2P p.val)
    then s.ptpSend p.val 9 seq.toNat 0 corr (s.logDelay p.val) (ptpStamp s.now ++ beBytes 10 src.toNat) .none else s)

/-- PTP_PDELAY_REQ_RECEIVE: a Pdelay_Req with its correctionField: answered with a one-step Pdelay_Resp, whose correctionField adds the
turnaround as it leaves (R248, R249). -/
def execPtpPdelayReqReceive (p : Fin 2) (seq : BitVec 16) (corr : Int) (src : BitVec 80) (s : State) : Host.Outcome State Fault Refusal :=
  s.ends (
    let s := s.frameIn p.val
    if s.ptpRuns p.val && s.flag (F.TIME_PTP_CFG_P2P p.val) then
      s.ptpSend p.val 3 seq.toNat 0 corr 0x7F (ptpStamp 0 ++ beBytes 10 src.toNat) (.pdResp s.now corr)
    else s)

/-- clockClass and clockAccuracy of an Announce sent as master (R249). -/
def State.announceQ (s : State) : Nat × Nat :=
  let use := s.get F.TIME_STAT_SRC
  let lock := s.tq = 1 || s.tq = 3
  if lock && use = 1 then (6, accCode s.accNs)
  else if s.tq = 2 && s.accNs ≤ (s.word R.TIME_HSPEC).toNat then (7, accCode s.accNs)
  else if lock && use = 2 then
    match (if s.pstate 0 = 3 then s.ptpPort 0 else s.ptpPort 1).master with
    | some m => (m.cls.toNat, m.acc.toNat)
    | none => (248, 0xFE)
  else (248, 0xFE)

/-! The default BMCA of IEEE 1588-2019 (R248; log entry 13). -/

/-- A data set the BMCA compares: grandmaster, priorities and quality, steps, the port identities of sender and receiver. -/
structure PtpDs where
  gm : Nat
  rank : List Nat
  steps : Nat
  send : Nat
  recv : Nat
  deriving DecidableEq, Repr

/-- The first difference of two lists of numbers of one length, lower is better: is the first better? -/
def lexBetter : List Nat → List Nat → Bool
  | a :: as, b :: bs => if a = b then lexBetter as bs else decide (a < b)
  | _, _ => false

/-- Compare two data sets: 2 the first is better, 1 better by topology, 0 equal, -1 and -2 the second. -/
def dsCmp (a b : PtpDs) : Int :=
  if a.gm ≠ b.gm then (if lexBetter (a.rank ++ [a.gm]) (b.rank ++ [b.gm]) then 2 else -2)
  else if b.steps + 1 < a.steps then -2
  else if a.steps + 1 < b.steps then 2
  else if b.steps < a.steps then (if a.recv < a.send then -2 else if a.send < a.recv then -1 else 0)
  else if a.steps < b.steps then (if b.recv < b.send then 2 else if b.send < b.recv then 1 else 0)
  else if a.send < b.send then 1
  else if b.send < a.send then -1
  else if a.recv < b.recv then 1
  else if b.recv < a.recv then -1
  else 0

/-- The device's own data set (R249). -/
def State.ownDs (s : State) : PtpDs :=
  let q := s.announceQ
  let p := if s.get F.TIME_PTP_ROLE = 2 then 1 else 0
  ⟨s.clockId p, [s.get F.TIME_PTP_PRIO1, q.1, q.2, 0xFFFF, s.get F.TIME_PTP_PRIO2], 0, s.clockId p * 2 ^ 16, s.clockId p * 2 ^ 16⟩

/-- A received Announce as a data set of port p. -/
def State.annDs (s : State) (p : Nat) (m : AnnMsg) : PtpDs :=
  ⟨m.gm.toNat, [m.prio1.toNat, m.cls.toNat, m.acc.toNat, m.var.toNat, m.prio2.toNat], m.steps.toNat, m.src.toNat, s.portId p⟩

/-- The announce interval of port p in ns. -/
def State.annNs (s : State) (p : Nat) : Nat :=
  let l := s.logAnn p
  if l < 128 then 1000000000 * 2 ^ min l 16 else 1000000000 / 2 ^ (256 - l)

/-- The Announces of port p that qualify: two from one sender within four announce intervals, of fewer than 255 steps, none of the
device's own. -/
def State.qualified (s : State) (p : Nat) : List AnnMsg :=
  (((s.ptpPort p).anns.filter fun (e : AnnMsg × Nat × Option Nat) =>
    (match e.2.2 with
      | some t => decide (e.2.1 ≤ t + 4 * s.annNs p)
      | none => false)
    && decide (s.now ≤ e.2.1 + 4 * s.annNs p) && decide (e.1.steps.toNat < 255)
    && e.1.src.toNat != s.portId 0 && e.1.src.toNat != s.portId 1).map fun (e : AnnMsg × Nat × Option Nat) => e.1)

/-- The best qualified Announce of port p. -/
def State.erbest (s : State) (p : Nat) : Option AnnMsg :=
  if !s.ptpOn p then none
  else (s.qualified p).foldl (fun (b : Option AnnMsg) m => match b with
    | none => some m
    | some x => if 0 < dsCmp (s.annDs p m) (s.annDs p x) then some m else b) none

/-- The best of both ports, with the port it came on. -/
def State.ebest (s : State) : Option (Nat × AnnMsg) :=
  match s.erbest 0, s.erbest 1 with
  | some a, some b => if dsCmp (s.annDs 0 a) (s.annDs 1 b) < 0 then some (1, b) else some (0, a)
  | some a, none => some (0, a)
  | none, some b => some (1, b)
  | none, none => none

/-- The state the BMCA decides for port p; a SLAVE_ONLY port is never MASTER. -/
def State.bmcState (s : State) (p : Nat) : Nat :=
  let only := s.flag (F.TIME_PTP_CFG_SLAVE_ONLY p)
  let d0 := s.ownDs
  let own := s.erbest p
  let q :=
    if decide (s.announceQ.1 < 128) && !only then
      match own with
      | none => 2
      | some e => if 0 < dsCmp d0 (s.annDs p e) then 2 else 4
    else
      match s.ebest with
      | none => 2
      | some (b, m) =>
        let best := s.annDs b m
        if 0 < dsCmp d0 best && !only then 2
        else if b = p then 3
        else match own with
          | some e => if dsCmp best (s.annDs p e) = 1 then 4 else 2
          | none => 2
  if only && q = 2 then 1 else q

/-- The state decision of port p: a port in LISTENING that has heard no qualified Announce stays there, but at its receipt
timeout. A slave's master is the best Announce's sender. -/
def State.bmcPort (s : State) (p : Nat) (timeout : Bool) : State :=
  if !s.ptpOn p || (s.pstate p = 1 && (s.erbest p).isNone && !timeout) then s
  else
    let q := s.bmcState p
    let s := s.setPstate p q
    s.modPort p fun x => { x with master := if q = 3 then (s.ebest.map fun (e : Nat × AnnMsg) => e.2) else none }

/-- TAI_UTC and the pending leap second of the master in use, when its Announce states them (R247). -/
def State.annLeap (s : State) (p : Nat) (m : AnnMsg) : State :=
  if m.utcValid && s.pstate p = 3 && s.get F.TIME_STAT_SRC == 2
      && ((s.ptpPort p).master.map fun (x : AnnMsg) => x.src) == some m.src then
    s.leapFrom m.utc.toNat m.leap.val 1
  else s

/-- PTP_ANNOUNCE_RECEIVE: kept per sender; the state decision runs on both ports; the master's class and accuracy,
currentUtcOffset and leap flags act (R243, R247, R248). -/
def execPtpAnnounceReceive (p : Fin 2) (m : AnnMsg) (s : State) : Host.Outcome State Fault Refusal :=
  s.ends (
    let s := s.frameIn p.val
    if !s.ptpRuns p.val then s
    else
      let now := s.now
      let old := (s.ptpPort p.val).anns.find? fun (e : AnnMsg × Nat × Option Nat) => e.1.src == m.src
      let s := s.modPort p.val fun x =>
        { x with lastAnn := now,
                 anns := (m, now, old.map fun e => e.2.1) :: x.anns.filter fun (e : AnnMsg × Nat × Option Nat) => e.1.src != m.src }
      ((s.bmcPort p.val false).bmcPort (1 - p.val) false).annLeap p.val m)

/-- PTP_UNSUPPORTED_MESSAGE: dropped and counted (R248). -/
def execPtpUnsupportedMessage (p : Fin 2) (s : State) : Host.Outcome State Fault Refusal :=
  s.ends (
    let s := s.frameIn p.val
    if s.ptpRuns p.val then s.bump (F.PTP_CNT_UNSUP p.val) else s)

/-- PTP_SYNC_SEND: a master port sends a one-step Sync, whose originTimestamp is its egress stamp (R248, R249). -/
def execPtpSyncSend (p : Fin 2) (s : State) : Host.Outcome State Fault Refusal :=
  s.ends (if s.ptpRuns p.val && s.pstate p.val == 2 then
      (s.ptpSend p.val 0 (s.ptpPort p.val).seqSync 0 0 (s.logSync p.val) (ptpStamp s.now) .sync).modPort p.val
        fun x => { x with seqSync := (x.seqSync + 1) % 65536 }
    else s)

/-- The body of an Announce sent on port p: what R249 gives, and the grandmaster of the port's master while the reference in use
is PTP. -/
def State.announceBody (s : State) (p : Nat) : List Byte :=
  let q := s.announceQ
  let use := s.get F.TIME_STAT_SRC
  let up := if (s.tq = 1 || s.tq = 3) && use = 2 then (if s.pstate 0 = 3 then s.ptpPort 0 else s.ptpPort 1).master else none
  let d := match up with
    | some m => s.annDs p m
    | none => { s.ownDs with gm := s.clockId p }
  ptpStamp s.now ++ beBytes 2 (s.get F.TIME_LEAP_TAI_UTC) ++ [0] ++ beBytes 1 (d.rank.getD 0 0)
    ++ beBytes 1 q.1 ++ beBytes 1 q.2 ++ beBytes 2 (d.rank.getD 3 0) ++ beBytes 1 (d.rank.getD 4 0) ++ beBytes 8 d.gm
    ++ beBytes 2 (if up.isSome then d.steps + 1 else 0) ++ beBytes 1 (if use = 1 then 0x20 else if use = 2 then 0x40 else 0xA0)

/-- The flags of an Announce: leap61, leap59, currentUtcOffsetValid, ptpTimescale. -/
def State.announceFlags (s : State) : Nat :=
  let l := s.get F.TIME_LEAP_PEND
  (if l = 1 then 1 else 0) + (if l = 2 then 2 else 0) + (if s.flag F.TIME_LEAP_VALID then 4 else 0) + 8

/-- PTP_ANNOUNCE_SEND: a master port sends an Announce with the values of R249. -/
def execPtpAnnounceSend (p : Fin 2) (s : State) : Host.Outcome State Fault Refusal :=
  s.ends (if s.ptpRuns p.val && s.pstate p.val == 2 then
      (s.ptpSend p.val 11 (s.ptpPort p.val).seqAnn s.announceFlags 0 (s.logAnn p.val) (s.announceBody p.val) .none).modPort p.val
        fun x => { x with seqAnn := (x.seqAnn + 1) % 65536 }
    else s)

/-- PTP_DELAY_REQ_SEND: a slave port with E2E sends a Delay_Req, whose egress time it keeps as it leaves (R241, R248). -/
def execPtpDelayReqSend (p : Fin 2) (s : State) : Host.Outcome State Fault Refusal :=
  s.ends (if s.ptpRuns p.val && s.pstate p.val == 3 && !s.flag (F.TIME_PTP_CFG_P2P p.val) then
      let n := (s.ptpPort p.val).seqDreq
      (s.modPort p.val fun x => { x with seqDreq := (n + 1) % 65536, dreq := none }).ptpSend p.val 1 n 0 0 0x7F (ptpStamp s.now) (.dreq n)
    else s)

/-- PTP_PDELAY_REQ_SEND: a P2P port sends a Pdelay_Req, whose egress time t1 it keeps (R241, R248). -/
def execPtpPdelayReqSend (p : Fin 2) (s : State) : Host.Outcome State Fault Refusal :=
  s.ends (if s.ptpRuns p.val && s.flag (F.TIME_PTP_CFG_P2P p.val) then
      let n := (s.ptpPort p.val).seqPd
      (s.modPort p.val fun x => { x with seqPd := (n + 1) % 65536, pdreq := none }).ptpSend p.val 2 n 0 0 0x7F
        (ptpStamp s.now ++ List.replicate 10 0) (.pdreq n)
    else s)

/-- PTP_ANNOUNCE_RECEIPT_TIMEOUT: three announce intervals without an Announce in LISTENING, SLAVE or PASSIVE: what the port has
heard is forgotten and the state decision runs again, on both ports (R248; log entry 13). -/
def execPtpAnnounceReceiptTimeout (p : Fin 2) (s : State) : Host.Outcome State Fault Refusal :=
  s.ends (if s.ptpOn p.val && (s.pstate p.val == 1 || s.pstate p.val == 3 || s.pstate p.val == 4) then
      let s := s.advanceTo ((s.ptpPort p.val).lastAnn + 3 * s.annNs p.val)
      let now := s.now
      let s := s.modPort p.val fun x => { x with anns := [], lastAnn := now }
      (s.bmcPort p.val true).bmcPort (1 - p.val) false
    else s)

/-! PPS outputs and capture inputs (R252, R253). -/

/-- A PPS output's period in ns. -/
def ppsPeriod (c : Nat) : Nat :=
  match c with
  | 0 => 1000000000
  | 1 => 100000000
  | 2 => 10000000
  | _ => 1000000

/-- PPS output k. -/
def State.ppsOut (s : State) (k : Nat) : Pps := s.time.pps.getD k .init

/-- The next edge instant of PPS k from the present: a whole multiple of the period plus OFS_NS, after the latest edge and at
least half a period after a step (R252). -/
def State.ppsNext (s : State) (k : Nat) : Nat :=
  let per := ppsPeriod (s.get (F.TIME_PPS_CFG_PER k))
  let after : Nat := match (s.ppsOut k).last with
    | some t => t + 1
    | none => 0
  let quiet : Nat := match (s.ppsOut k).step with
    | some t => t + per / 2
    | none => 0
  let lo : Int := (max s.now (max after quiet) : Nat)
  let ofs := s.geti (R.TIME_PPS_OFS k)
  let n := (lo - ofs + per - 1) / per
  (n * per + ofs).toNat

/-- PPS_EDGE: the leading edge of PPS k at its next instant, one tick late at the first edge after a GNSS hot start (erratum
XE-01); the pulse's width is counted in ticks (R252). -/
def execPpsEdge (k : Fin 2) (s : State) : Host.Outcome State Fault Refusal :=
  s.ends (if s.flag (F.TIME_PPS_CFG_EN k.val) then
      let s := s.advanceTo (s.ppsNext k.val + if (s.ppsOut k.val).late then 10 else 0)
      let per := ppsPeriod (s.get (F.TIME_PPS_CFG_PER k.val))
      let w := min (s.get (F.TIME_PPS_CFG_WIDTH_US k.val) * 1000) (per / 2)
      let now := s.now
      let s := s.modTime fun t => { t with pps := padMod .init k.val (fun _ => ⟨true, w / 10, some now, none, false⟩) t.pps }
      s.emit (.pin 1 k.val (if s.flag (F.TIME_PPS_CFG_POL k.val) then 0 else 1))
    else s)

/-- PPS_PULSE_END: the pulse ends when its ticks have elapsed (R252). -/
def execPpsPulseEnd (k : Fin 2) (s : State) : Host.Outcome State Fault Refusal :=
  s.ends (
    if !(s.ppsOut k.val).high then s
    else
      let s := s.advanceTicks (s.ppsOut k.val).ticks
      let s := s.modTime fun t => { t with pps := padMod .init k.val (fun (p : Pps) => { p with high := false, ticks := 0 }) t.pps }
      s.emit (.pin 1 k.val (if s.flag (F.TIME_PPS_CFG_POL k.val) then 1 else 0)))

/-- TIME_CAPTURE_EDGE: an edge on TCAPn, `fine` whole 1.25 ns steps after the latest tick, after which the level stays for `lasts`
ns: stamped into the FIFO of eight, dropped and counted when full, without an interrupt (log entry 219). An edge that begins or
ends a pulse shorter than 20 ns is ignored, and edges within 100 ns of a stamped one give no stamp (R253). -/
def execTimeCaptureEdge (n : Fin 4) (rising : Bool) (fine : Fin 8) (lasts : Nat) (s : State) : Host.Outcome State Fault Refusal :=
  s.ends (
    let e := s.get (F.TCAP_CFG_EDGE n.val)
    let sel := e = 3 || (e = 1 && rising) || (e = 2 && !rising)
    let st := s.fine / 2 ^ 32
    let here := 4 * st + 5 * fine.val
    let within (l : List (Option Nat)) (q : Nat) : Bool := match l.getD n.val none with
      | some t => decide (here < t + q)
      | none => false
    let short := decide (lasts < 20) || within s.time.tcapEdge 80
    let close := within s.time.tcapLast 400
    let s := s.modTime fun t => { t with tcapEdge := padMod none n.val (fun _ => some here) t.tcapEdge }
    if !sel || short || close then s
    else
      let s := s.modTime fun t => { t with tcapLast := padMod none n.val (fun _ => some here) t.tcapLast }
      let q := s.time.tcap.getD n.val []
      if 8 ≤ q.length then s.bump (F.TCAP_ST_OVF_CNT n.val)
      else
      let s := (s.modTime fun t => { t with tcap := padMod [] n.val (fun q => q ++ [(stampOf st, fine.val)]) t.tcap }).set
        (F.TCAP_ST_FILL n.val) (q.length + 1)
      if s.flag (F.TCAP_CFG_IRQ_EN n.val) then s.event (25 + n.val) (BitVec.ofNat 32 st) .none else s)

/-- A read of CAP_TSL pops the oldest stamp and latches its upper half (R253). -/
def State.popCapture (s : State) (n : Nat) : State :=
  match s.time.tcap.getD n [] with
  | [] => s.setFlag (F.TCAP_TSH_VALID n) false
  | (st, fine) :: rest =>
    let s := s.modTime fun t => { t with tcap := padMod [] n (fun _ => rest) t.tcap }
    let s := s.setWord (R.TCAP_TSL n) (st.truncate 32)
    let s := s.setWord (R.TCAP_TSH n) (BitVec.ofNat 32 (st.toNat / 2 ^ 32 + 2 ^ 16 * fine + 2 ^ 21))
    s.set (F.TCAP_ST_FILL n) rest.length

/-- CAP_TSL_READ (R253). -/
def execCapTslRead (n : Fin 4) (s : State) : Host.Outcome State Fault Refusal :=
  s.ends (s.inDomain 11 fun s => s.popCapture n.val)

end Sys2Proof.Machine
end

