-- ==== Sys2Proof/Machine/Streams.lean ====
section
/-!
DEFINITION. Reference streams and their inputs: stream contexts and ingress queues, the offset tracker, sentences, binary
frames, RTCM frames, NMEA 2000 messages, datagrams, UARTs, Zaley discovery (02_streams R33 to R48, 03 R49 to R55,
15 R267, 16 R282).
-/
namespace Sys2Proof.Machine

/-- Stream n's hidden state. -/
def State.stream (s : State) (n : Nat) : Stream := s.fe.streams.getD n .init

/-- Change stream n's hidden state. -/
def State.modStream (s : State) (n : Nat) (f : Stream → Stream) : State :=
  { s with fe := { s.fe with streams := padMod .init n f s.fe.streams } }

/-- Change the streams' shared state. -/
def State.modFe (s : State) (f : Fe → Fe) : State := { s with fe := f s.fe }

/-- The stream IDs (R33). -/
def streamIds : List Nat := (List.range 127).map (· + 1)

/-- The full ns count of a short stamp, with the upper bits nearest to the present (R50). -/
def State.full (s : State) (st : Stamp) : Int := (s.now : Int) + sdiff st s.stamp

/-! Measurement types. -/

/-- Can a source kind supply a type (R35)? Kinds 1 to 5 as the input tables say; for an encoder, a filter channel and an internal
derived source the spec names no types, and no step by which an encoder writes an entry: none comes from it (DESIGN CHOICE, log
entry 177). -/
def kindGives (kind typ : Nat) : Bool :=
  match kind with
  | 1 => typ == 1 || (2 ≤ typ && typ ≤ 4) || (6 ≤ typ && typ ≤ 10)
  | 2 => typ == 1 || typ == 4 || typ == 5 || typ == 8
  | 3 => typ == 1 || typ == 4 || (7 ≤ typ && typ ≤ 9)
  | 4 => typ == 2 || typ == 3 || typ == 6 || typ == 10
  | 5 => typ == 1 || typ == 4 || typ == 7 || typ == 9
  | 6 => 2 ≤ typ && typ ≤ 8
  | 7 => 2 ≤ typ && typ ≤ 8
  | 8 => 1 ≤ typ && typ ≤ 11
  | _ => false

/-- Can the stream ever leave ABSENT (R35)? -/
def State.streamValid (s : State) (n : Nat) : Bool :=
  let t := s.get (F.FE_SC_CFG_TYPE n)
  1 ≤ t && t ≤ 11 && kindGives (s.get (F.FE_SC_CFG_SRC_KIND n)) t

/-- Is the stream enabled with this source and type? -/
def State.bound (s : State) (n kind port typ : Nat) : Bool :=
  s.flag (F.FE_SC_CFG_EN n) && s.get (F.FE_SC_CFG_SRC_KIND n) == kind && s.get (F.FE_SC_CFG_SRC_PORT n) == port
    && s.get (F.FE_SC_CFG_TYPE n) == typ

/-! The offset tracker (R54). -/

/-- Show a tracker's offset (the high word shows only after a read of the low word). -/
def State.showTrk (s : State) (n : Nat) : State :=
  s.setWord (R.FE_SC_OFSL n) (BitVec.ofInt 32 (s.stream n).trk.ofs)

/-- Put the tracker in a state with LCOUNT 0. -/
def State.setLstate (s : State) (n st : Nat) : State :=
  (s.set (F.FE_SC_OFSSTAT_LSTATE n) st).set (F.FE_SC_OFSSTAT_LCOUNT n) 0

/-- The period in use, ns (R54). -/
def State.trkPer (s : State) (n : Nat) : Nat :=
  let p := s.get (F.FE_SC_OFSCFG_PER_US n)
  if p = 0 then (s.stream n).trk.perLearned else p * 1000

/-- One learning step of the tracker (R54). PER_US_USED takes the period in use when a learning run completes (DESIGN CHOICE, log
entry 178). -/
def State.trkLearn (s : State) (n : Nat) (d arr : Int) : State :=
  let lc := s.get (F.FE_SC_OFSSTAT_LCOUNT n)
  let t := (s.stream n).trk
  let t := if lc = 0 then { t with m := d, mx := d, a0 := arr } else t
  let t := { t with m := min t.m d, mx := max t.mx d }
  let s := (s.modStream n fun x => { x with trk := t }).set (F.FE_SC_OFSSTAT_LCOUNT n) (lc + 1)
  let ln := max 2 (s.get (F.FE_SC_OFSCFG_LEARN_N n))
  if lc + 1 ≠ ln then s
  else
    let pl := ((arr - t.a0) / ((ln : Int) - 1)).toNat
    let s := s.modStream n fun x => { x with trk := { x.trk with perLearned := pl } }
    let per : Nat := s.trkPer n
    let s := s.set (F.FE_SC_PER_PER_US_USED n) (min 0xFFFFF (per / 1000))
    let s := if t.mx - t.m ≤ per then
        ((s.modStream n fun x => { x with trk := { x.trk with ofs := t.m } }).set (F.FE_SC_OFSSTAT_LSTATE n) 2).showTrk n
      else s
    s.set (F.FE_SC_OFSSTAT_LCOUNT n) 0

/-- One step of a locked tracker (R54). -/
def State.trkLocked (s : State) (n : Nat) (d : Int) : State :=
  let dev := d - (s.stream n).trk.ofs
  let s := s.seti (R.FE_SC_DEV n) (dev.tdiv 1000)
  if dev.natAbs > s.trkPer n then (s.setLstate n 3).bump (F.FE_SC_OFSSTAT_SKEW_CNT n)
  else
    let ofs := if dev < 0 then d else (s.stream n).trk.ofs + dev / (2 ^ s.get (F.FE_SC_OFSCFG_TAU n) : Nat)
    (s.modStream n fun x => { x with trk := { x.trk with ofs := ofs } }).showTrk n

/-- OFFSET_TRACK: the tracker at the ingress of a sample with its own time (R54); source kinds 1 to 4 only. -/
def State.offsetTrack (s : State) (n : Nat) (arr src : Int) : State :=
  let k := s.get (F.FE_SC_CFG_SRC_KIND n)
  if !s.flag (F.FE_SC_CFG_OWNSTAMP n) || !(1 ≤ k && k ≤ 4) then s
  else
    let d := arr - src
    match s.get (F.FE_SC_OFSSTAT_LSTATE n) with
    | 1 => s.trkLearn n d arr
    | 3 => s.trkLearn n d arr
    | 2 => s.trkLocked n d
    | _ => s

/-! Queues. -/

/-- QUEUE_WRITE: one entry into a stream's queue; a full queue loses its oldest entry and QOVF counts (R36). -/
def State.queueWrite (s : State) (n : Nat) (e : Entry) : State :=
  let q := (s.stream n).queue
  let e := { e with seq := (s.stream n).seq }
  let s := if q.length ≥ 16 then s.bump (F.FE_SC_CNT_QOVF n) else s
  let q := (if q.length ≥ 16 then q.drop (q.length - 15) else q) ++ [e]
  let s := s.modStream n fun x => { x with queue := q, seq := x.seq + 1 }
  if e.flags % 2 = 1 then s.offsetTrack n (s.full e.arr) e.srcTime.toInt else s

/-- Does a stream's selector take a kind code (R33)? -/
def State.selOk (s : State) (n sel : Nat) : Bool :=
  let q := s.get (F.FE_SC_MATCH_SEL n)
  q == 0 || q == sel

/-- Does a stream's INST take a number? -/
def State.instOk (s : State) (n inst : Nat) : Bool :=
  let q := s.get (F.FE_SC_MATCH_INST n)
  q == 0 || q == inst % 256

/-- The TAI count of a UTC time: dated, or a time of day placed within 12 h of an arrival (R41, R50). -/
def State.taiOf (s : State) (arr : Int) : Bool × Int → Int
  | (dated, utc) =>
    let leap : Int := s.get F.TIME_LEAP_TAI_UTC * 1000000000
    if dated then utc + leap
    else
      let day : Int := 86400000000000
      let base := (arr - leap) / day * day + utc
      let k : Int := if base - (arr - leap) > day / 2 then -1 else if (arr - leap) - base > day / 2 then 1 else 0
      base + k * day + leap

/-! Sentences (R40, R41). -/

/-- The types a formatter feeds (R40); GST (3) feeds none of its own. -/
def selTypes : Nat → List Nat
  | 1 => [1] | 2 => [1] | 4 => [4] | 5 => [4] | 6 => [7] | 7 => [9] | 8 => [8] | 9 => [1, 7] | _ => []

/-- The streams a sentence may go to: enabled, matching source, selector and talker, of a type it feeds (R35). -/
def State.sentenceStreams (s : State) (kind port : Nat) (x : Sentence) : List (Nat × Nat) :=
  (streamIds.map fun n => (n, s.get (F.FE_SC_CFG_TYPE n))).filter fun p =>
    s.bound p.1 kind port p.2 && (if x.sel = 3 then p.2 == 1 else (selTypes x.sel).contains p.2) && s.selOk p.1 x.sel
      && (s.get (F.FE_SC_MATCH_TALKER p.1) == 0 || s.get (F.FE_SC_MATCH_TALKER p.1) == x.talker.toNat)

/-- Is a stream's condition on the checksum met (R40)? -/
def State.sumAccepted (s : State) (n : Nat) (x : Sentence) : Bool :=
  match x.sum with
  | some b => b
  | none => s.flag (F.FE_SC_CFG_NOSUM_OK n)

/-- The time of day of an own time. -/
def dayTime (t : Option (Bool × Int)) : Option Int := t.map fun u => u.2 % dayNs

/-- Is a waiting GST the one that merges into this fix: same port, talker and UTC of fix, within 100 ms (R41)? -/
def gstFits (g : GstWait) (kind port : Nat) (x : Sentence) (at' : Int) : Bool :=
  g.kind == kind && g.port == port && g.talker == x.talker && g.utc.isSome && g.utc == dayTime x.time
    && decide (at' ≤ g.arr + 100000000)

/-- The GST that merges into this fix for stream n: one without a checksum is accepted only with NOSUM_OK (R40, R41). -/
def State.gstFor (s : State) (n kind port : Nat) (x : Sentence) (at' : Int) : Option GstWait :=
  s.fe.gst.find? fun g => gstFits g kind port x at' && (g.sum || s.flag (F.FE_SC_CFG_NOSUM_OK n))

/-- The entry a sentence makes for stream n of a type (R36, R40, R41): the tag block's time before its own, the merged sigmas. -/
def State.sentenceEntry (s : State) (kind port : Nat) (x : Sentence) (tag : Option Int) (arr : Stamp) (n typ : Nat)
    (vals : List Word64) : Entry :=
  let at' := s.full arr
  let own := tag.orElse fun _ => x.time.map (s.taiOf at')
  let g := if typ = 1 then s.gstFor n kind port x at' else none
  let vals := if typ = 1 then vals.take 3 ++ (g.map (·.sig)).getD [0, 0]
    else if typ = 9 then [fofInt ((x.time.map (s.taiOf at')).getD 0)] else vals
  let flags := (if own.isSome then 1 else 0) + (if x.sum.isSome then 2 else 0) + (if g.isSome then 4 else 0)
  ⟨arr, 0, typ, flags, BitVec.ofInt 64 (own.getD 0), vals, x.qual, 0⟩

/-- Does stream n take the sample a sentence gives of its type (R40)? -/
def State.sentenceTakes (s : State) (x : Sentence) (n typ : Nat) : Bool :=
  s.sumAccepted n x && x.sel != 3 && !x.void && (x.vals.lookup typ).isSome

/-- Deliver a sentence's sample to one stream (R35, R36, R40): a failed or absent checksum counts BADSUM, a void sentence or a
value that is missing INVALID. -/
def State.sentenceTo (s : State) (kind port : Nat) (x : Sentence) (tag : Option Int) (arr : Stamp) (n typ : Nat) : State :=
  if !s.sumAccepted n x then s.bump (F.FE_SC_CNT_BADSUM n)
  else if x.sel = 3 then s
  else if x.void then s.bump (F.FE_SC_CNT_INVALID n)
  else
    match x.vals.lookup typ with
    | some v => s.queueWrite n (s.sentenceEntry kind port x tag arr n typ v)
    | none => s.bump (F.FE_SC_CNT_INVALID n)

/-- Is the sentence one the device reads at all (R40)? -/
def Sentence.read (x : Sentence) : Bool := decide (x.chars ≤ 82) && !x.proprietary && decide (0 < x.sel) && decide (x.sel ≤ 9)

/-- A GST begins to wait for its fix, unless its checksum failed (R41). -/
def State.gstWait (s : State) (kind port : Nat) (x : Sentence) (arr : Stamp) : State :=
  let g : GstWait := ⟨kind, port, x.talker, s.full arr, dayTime x.time, x.sum.isSome, ((x.vals.lookup 1).getD []).take 2⟩
  s.modFe fun f =>
    { f with gst := g :: f.gst.filter (fun h => !(h.kind == kind && h.port == port && h.talker == x.talker && h.utc == g.utc)) }

/-- One sentence from a source (R40, R41), already read: over-long, proprietary and unknown ones are discarded; a GST waits for its
fix; a fix that some stream takes ends the wait of its GST. -/
def State.sentence (s : State) (kind port : Nat) (x : Sentence) (tag : Option Int) (arr : Stamp) : State :=
  if !x.read then s
  else
    let ts := s.sentenceStreams kind port x
    let t := ts.foldl (fun u p => u.sentenceTo kind port x tag arr p.1 p.2) s
    if x.sel = 3 then (if x.sum = some false then t else t.gstWait kind port x arr)
    else if ts.any fun p => p.2 == 1 && s.sentenceTakes x p.1 1 then
      t.modFe fun f => { f with gst := f.gst.filter (fun g => !gstFits g kind port x (s.full arr)) }
    else t

/-- A stamp taken some ns ago. -/
def State.stampAgo (s : State) (ago : Nat) : Stamp := stampOf (s.now - ago)

/-- The waiting GST whose 100 ms end first. -/
def State.gstOldest (s : State) : Option GstWait :=
  s.fe.gst.foldr (fun g b => match b with
    | some h => if g.arr < h.arr then some g else some h
    | none => some g) none

/-- GST_MERGE_EXPIRE: the oldest waiting GST passes 100 ms without its fix (R41). -/
def execGstMergeExpire (s : State) : Host.Outcome State Fault Refusal :=
  s.ends (
    match s.gstOldest with
    | none => s
    | some g => (s.advanceTo (g.arr + 100000001).toNat).modFe fun f => { f with gst := f.gst.filter (· != g) })

/-! Binary frames (R46). -/

/-- A binary32 of a frame as binary64. -/
def frameF (b : List Byte) (o : Nat) : Word64 := f32to64 (BitVec.ofNat 32 (frameNum b o 4))

/-- The type a KIND feeds. -/
def kindType : Nat → Nat
  | 1 => 6 | 2 => 3 | 3 => 2 | _ => 0

/-- Does LEN agree with KIND (R46)? -/
def binLenOk (b : List Byte) : Bool :=
  let len := frameNum b 6 2
  let ok := match frameNum b 2 1 with
    | 1 => len == 28
    | 2 => len == 20
    | 3 => let c := frameNum b 16 4; 1 ≤ c && c ≤ 16 && len == 4 + 20 * c
    | _ => false
  ok && b.length == 20 + len

/-- STATUS bit 0 VALID; laser returns carry no STATUS (R46). -/
def binValid (b : List Byte) : Bool :=
  match frameNum b 2 1 with
  | 1 => frameNum b 40 4 % 2 == 1
  | 2 => frameNum b 32 4 % 2 == 1
  | _ => true

/-- The samples of a frame: values and QUAL (R46). -/
def binSamples (b : List Byte) : List (List Word64 × Word) :=
  match frameNum b 2 1 with
  | 1 => [([frameF b 16, frameF b 20, frameF b 24, frameF b 28, frameF b 32], 0)]
  | 2 => [([frameF b 16, frameF b 20, frameF b 24, frameF b 28], 0)]
  | 3 => (List.range (frameNum b 16 4)).map fun i =>
      let o := 20 + 20 * i
      ([frameF b (o + 4), frameF b (o + 8), frameF b (o + 12)],
        BitVec.ofNat 32 (frameNum b (o + 16) 4 % 256 + 256 * (frameNum b o 4 % 2 ^ 24)))
  | _ => []

/-- One binary frame to one stream (R46); `whole` is false where a bad character was dropped from it (R42). -/
def State.binTo (s : State) (b : List Byte) (whole : Bool) (arr : Stamp) (n : Nat) : State :=
  let crc := crc32c (b.take (b.length - 4))
  if !whole || frameNum b (b.length - 4) 4 != crc.toNat then s.bump (F.FE_SC_CNT_BADSUM n)
  else if !binLenOk b || !binValid b then s.bump (F.FE_SC_CNT_INVALID n)
  else
    let t := frameNum b 8 8
    let flags := (if t = 0 then 0 else 1) + 2
    (binSamples b).foldl (fun u v => u.queueWrite n
      ⟨arr, 0, kindType (frameNum b 2 1), flags, BitVec.ofNat 64 t, v.1, v.2, 0⟩) s

/-- A binary frame from a source (R46): SYNC must be 0xA9, 0x5C. -/
def State.binary (s : State) (kind port : Nat) (b : List Byte) (whole : Bool) (arr : Stamp) : State :=
  if frameNum b 0 2 ≠ 0x5CA9 then s
  else
    let k := frameNum b 2 1
    (streamIds.filter fun n => s.bound n kind port (kindType k) && s.selOk n k && s.instOk n (frameNum b 3 1)).foldl
      (fun t n => t.binTo b whole arr n) s

/-! RTCM (R45). -/

/-- One bit of CRC-24Q. -/
def crc24Bit (c : BitVec 24) : BitVec 24 := if c.getLsbD 23 then (c <<< 1) ^^^ 0x864CFB#24 else c <<< 1

/-- CRC-24Q of bytes. -/
def crc24q (l : List Byte) : BitVec 24 :=
  l.foldl (fun (c : BitVec 24) (b : Byte) => let c : BitVec 24 := c ^^^ ((b.setWidth 24 : BitVec 24) <<< 16)
                      crc24Bit (crc24Bit (crc24Bit (crc24Bit (crc24Bit (crc24Bit (crc24Bit (crc24Bit c)))))))) 0

/-- The supported messages (R45). -/
def rtcmOk (m : Nat) : Bool :=
  [1074, 1077, 1084, 1087, 1094, 1097, 1124, 1127, 1005, 1006, 1033, 1230].contains m

/-- The active CORRECTIONS stream: the enabled one with the lowest ID (R45). -/
def State.corrStream (s : State) : Option Nat :=
  streamIds.find? fun n => s.flag (F.FE_SC_CFG_EN n) && s.get (F.FE_SC_CFG_TYPE n) == 10

/-- An RTCM frame from a source: preamble, length, payload, CRC-24Q. It goes to the active CORRECTIONS stream if that has
this source; a supported message goes on to the GNSS receiver, and others are counted as INVALID and dropped (R45;
log entry 17). The entry's QUAL is 256 times the message number (DESIGN CHOICE, log entry 179). -/
def State.rtcm (s : State) (kind port : Nat) (b : List Byte) (whole : Bool) (arr : Stamp) : State :=
  match s.corrStream with
  | none => s
  | some n =>
    if !(s.bound n kind port 10) then s
    else
      let be (l : List Byte) : Nat := leNat l.reverse
      let len := be ((b.drop 1).take 2) % 1024
      let msg := be ((b.drop 3).take 2) / 16
      let station := (be ((b.drop 4).take 2)) % 4096
      if !whole || frameNum b 0 1 ≠ 0xD3 || b.length ≠ len + 6 || (crc24q (b.take (len + 3))).toNat ≠ be (b.drop (len + 3)) then
        s.bump (F.FE_SC_CNT_BADSUM n)
      else if !s.instOk n station then s
      else if !rtcmOk msg then s.bump (F.FE_SC_CNT_INVALID n)
      else
        let s := { s with gn := { s.gn with corr := (msg, (s.full arr).toNat, b) :: s.gn.corr.filter (fun c => c.1 != msg) } }
        s.queueWrite n ⟨arr, 0, 10, 2, 0, [], BitVec.ofNat 32 (256 * msg), 0⟩

/-! NMEA 2000 (R44, R282). -/

/-- The SEL code and type of a PGN (R44). -/
def pgnSel : Nat → Nat × Nat
  | 127250 => (1, 4) | 127251 => (2, 5) | 129029 => (3, 1) | 130306 => (4, 8) | _ => (0, 0)

/-- A controller is on in the NMEA 2000 profile. -/
def State.n2kOn (s : State) (c : Nat) : Bool := s.flag (F.CAN_CFG_EN c) && s.flag (F.CAN_CFG_PROFILE c)

/-- Does a stream's NAME entry hold this source address (R282)? -/
def State.nameOk (s : State) (n c sa : Nat) : Bool :=
  let i := s.get (F.FE_SC_MATCH_INST n)
  if i = 0 then true
  else if i ≤ 32 then
    s.flag (F.CAN_NAMEST_EN c (i - 1)) && s.flag (F.CAN_NAMEST_PRESENT c (i - 1)) && s.get (F.CAN_NAMEST_SA c (i - 1)) == sa
  else false

/-- The streams of an NMEA 2000 message. -/
def State.pgnStreams (s : State) (c pgn sa : Nat) : List Nat :=
  let k := pgnSel pgn
  streamIds.filter fun n => s.bound n 2 c k.2 && k.1 != 0 && s.selOk n k.1 && s.nameOk n c sa

/-- A complete NMEA 2000 message goes to its streams, or counts INVALID (R44). -/
def State.n2kMessage (s : State) (c pgn sa : Nat) (b : List Byte) (arr : Stamp) : State :=
  let x := readPgn pgn b
  let typ := (pgnSel pgn).2
  (s.pgnStreams c pgn sa).foldl (fun t n =>
    if x.void then t.bump (F.FE_SC_CNT_INVALID n)
    else
      let own := x.time.map (t.taiOf (t.full arr))
      let vals := if typ = 1 then x.vals ++ [0, 0] else x.vals
      t.queueWrite n ⟨arr, 0, typ, if own.isSome then 1 else 0, BitVec.ofInt 64 (own.getD 0), vals, x.qual, 0⟩) s

/-- Is this fast packet under assembly the sender's of a PGN? -/
def FastPkt.of (e : FastPkt) (c sa pgn : Nat) : Bool := e.ctl == c && e.sa == sa && e.pgn == pgn

/-- Drop the sender's fast packet of a PGN from assembly. -/
def State.dropFast (s : State) (c sa pgn : Nat) : State :=
  s.modFe fun f => { f with fast := f.fast.filter fun e => !e.of c sa pgn }

/-- The streams of a discarded fast packet count INVALID (R44). -/
def State.fastLost (s : State) (e : FastPkt) : State :=
  (s.pgnStreams e.ctl e.pgn e.sa).foldl (fun t n => t.bump (F.FE_SC_CNT_INVALID n)) s

/-- A fast packet with all its bytes leaves as a message stamped with its first frame; one without stays under assembly. -/
def State.fastStep (s : State) (e : FastPkt) : State :=
  let s := s.dropFast e.ctl e.sa e.pgn
  if e.len ≤ e.data.length then s.n2kMessage e.ctl e.pgn e.sa (e.data.take e.len) e.arr
  else s.modFe fun f => { f with fast := f.fast ++ [e] }

/-- A frame of a fast packet arrives (R44; the frame layout is the standard's, log entry 18): [7:5] of its first byte the
packet, [4:0] the frame, the first frame's second byte the length. Out of sequence, the packet is discarded and INVALID counts. -/
def State.fastFrame (s : State) (c sa pgn : Nat) (b : List Byte) (arr : Stamp) : State :=
  let h := frameNum b 0 1
  let old := s.fe.fast.find? fun e => e.of c sa pgn
  let now := s.now
  if h % 32 = 0 then
    let s := match old with
      | some e => (s.dropFast c sa pgn).fastLost e
      | none => s
    s.fastStep ⟨c, sa, pgn, h / 32, 1, frameNum b 1 1, now, arr, b.drop 2⟩
  else
    match old with
    | none => s
    | some e =>
      if e.seq = h / 32 && e.next = h % 32 then s.fastStep { e with next := e.next + 1, data := e.data ++ b.drop 1 }
      else (s.dropFast c sa pgn).fastLost e

/-- The fast packet under assembly whose first frame came first. -/
def State.fastOldest (s : State) : Option FastPkt :=
  s.fe.fast.foldr (fun e b => match b with
    | some g => if e.start ≤ g.start then some e else some g
    | none => some e) none

/-- FAST_PACKET_TIMEOUT: the oldest fast packet under assembly is incomplete 750 ms after its first frame (R44). -/
def execFastPacketTimeout (s : State) : Host.Outcome State Fault Refusal :=
  s.ends (
    match s.fastOldest with
    | none => s
    | some e => ((s.advanceTo (e.start + 750000000)).dropFast e.ctl e.sa e.pgn).fastLost e)

/-- The NMEA 2000 NAME held in OTP (R341), 8 bytes. -/
def State.ownName (s : State) : List Byte := leBytes 4 (s.word (R.OTP_CFG 6)).toNat ++ leBytes 4 (s.word (R.OTP_CFG 7)).toNat

/-- The 29-bit identifier of a PGN sent to all, or to one address for a PDU1 PGN, priority 6. -/
def pgnId (pgn dst sa : Nat) : Nat := 6 * 2 ^ 26 + pgn * 2 ^ 8 + (if (pgn / 256) % 256 < 240 then dst * 2 ^ 8 else 0) + sa

/-- The controller's claim of its address with the NAME in OTP (R44). -/
def State.sendClaim (s : State) (c : Nat) : State :=
  s.canEmit c (pgnId 60928 255 (s.canC c).sa) true false false s.ownName

/-- An ISO request for a PGN, to an address or to all: one for the claim is answered (R44). -/
def State.isoRequest (s : State) (c dst pgn : Nat) : State :=
  if s.n2kOn c && pgn == 60928 && (dst == 255 || dst == (s.canC c).sa) && s.canTalks c then s.sendClaim c else s

/-- ISO_REQUEST_RECEIVE: an ISO request on PGN 59904 for a PGN, to this address or to all (R44). -/
def execIsoRequestReceive (c : Fin 4) (dst : Byte) (pgn : Nat) (s : State) : Host.Outcome State Fault Refusal :=
  s.ends (if s.n2kOn c.val && s.canHears c.val then (s.canData c.val).isoRequest c.val dst.toNat pgn else s)

/-- A claim of an address by a NAME and the NAME table (R282): the NAME's entry takes the address; address 254, or a claim of its
address by a smaller NAME, takes an entry's away. -/
def State.claimNames (s : State) (c : Nat) (name : Word64) (sa : Nat) : State :=
  (List.range 32).foldl (fun t i =>
    if !t.flag (F.CAN_NAMEST_EN c i) then t
    else
      let nm := (t.word (R.CAN_NAMEH c i)) ++ (t.word (R.CAN_NAMEL c i))
      if nm = name then (t.set (F.CAN_NAMEST_SA c i) sa).setFlag (F.CAN_NAMEST_PRESENT c i) (sa != 254)
      else if t.flag (F.CAN_NAMEST_PRESENT c i) && t.get (F.CAN_NAMEST_SA c i) == sa && decide (name.toNat < nm.toNat) then
        t.setFlag (F.CAN_NAMEST_PRESENT c i) false
      else t) s

/-- A claim is received: the table, and the controller defends or gives up its own address by the same rule (R44, R282). -/
def State.addressClaim (s : State) (c : Nat) (name : Word64) (sa : Nat) : State :=
  if !s.n2kOn c then s
  else
    let s := s.claimNames c name sa
    let own := leNat s.ownName
    if (s.canC c).sa ≠ sa || sa = 254 || !s.canTalks c then s
    else if own < name.toNat then s.sendClaim c
    else (s.modCan c fun x => { x with sa := 254 }).sendClaim c

/-- ADDRESS_CLAIM_RECEIVE (R282). -/
def execAddressClaimReceive (c : Fin 4) (name : Word64) (sa : Byte) (s : State) : Host.Outcome State Fault Refusal :=
  s.ends (if s.n2kOn c.val && s.canHears c.val then (s.canData c.val).addressClaim c.val name sa.toNat else s)

/-- The PGN a 29-bit identifier carries and the address it is sent to (255: all). -/
def pgnOf (ident : Nat) : Nat × Nat :=
  let page := ident / 2 ^ 24 % 4 * 65536
  let pf := ident / 65536 % 256
  let ps := ident / 256 % 256
  if pf < 240 then (page + pf * 256, ps) else (page + pf * 256 + ps, 255)

/-- A frame on a bus in the NMEA 2000 profile: a claim, a request, a frame of a fast packet, or a message of one frame (R44). -/
def State.n2kFrame (s : State) (c ident : Nat) (b : List Byte) (arr : Stamp) : State :=
  let g := pgnOf ident
  let sa := ident % 256
  if !s.n2kOn c then s
  else if g.1 = 60928 then (if b.length = 8 then s.addressClaim c (BitVec.ofNat 64 (leNat b)) sa else s)
  else if g.1 = 59904 then s.isoRequest c g.2 (leNat (b.take 3))
  else if g.1 = 129029 then s.fastFrame c sa g.1 b arr
  else s.n2kMessage c g.1 sa b arr

/-- PGN_RECEIVE: a complete NMEA 2000 message (R44), with the frames of it that were under assembly. -/
def execPgnReceive (c : Fin 4) (x : PgnMsg) (ago : Nat) (s : State) : Host.Outcome State Fault Refusal :=
  s.ends (if !(s.n2kOn c.val && s.canHears c.val) then s
    else ((s.canData c.val).dropFast c.val x.sa.toNat x.pgn).n2kMessage c.val x.pgn x.sa.toNat x.data (s.stampAgo ago))

/-! Datagrams (R43, R267). -/

/-- Drop what is older than 100 ms; is this datagram a repeat? -/
def State.isRepeat (s : State) (k : Nat × Nat × Nat) : Bool :=
  s.fe.dedupe.any fun e => e.1 == k && decide (s.now ≤ e.2 + 100000000)

/-- Remember a datagram for 100 ms. -/
def State.remember (s : State) (k : Nat × Nat × Nat) : State :=
  let now := s.now
  s.modFe fun f => { f with dedupe := (k, now) :: f.dedupe.filter fun e => decide (now ≤ e.2 + 100000000) && e.1 != k }

/-- Is flow f on and listening on port p? -/
def State.flowOn (s : State) (f p : Nat) : Bool :=
  s.flag (F.NET_FLOW_CFG_EN f) && (s.get (F.NET_FLOW_CFG_PORTS f) / 2 ^ p) % 2 == 1
    && !(s.get (F.NET_FLOW_CFG_KIND f) == 2 && s.get (F.NET_FLOW_CFG_PORTS f) == 3 && p == 1)

/-- The s: source a flow names, as 8 characters in one number. -/
def State.flowSrc (s : State) (f : Nat) : Nat := s.get (F.NET_FLOW_SRC0_SRC f) + 2 ^ 32 * s.get (F.NET_FLOW_SRC1_SRC f)

/-- UDPBC_DATAGRAM: an IEC 61162-450 datagram on P0 or P1 for a group: source parameter, line counter, own time of the
tag block, sentences; RaUdP, RrUdP and the network-function group are counted in UNSUP and dropped (R43, R267). -/
def execUdpbcDatagram (p : Fin 2) (group : Fin 16) (binaryKind : Bool) (src : Word64) (line : Nat) (c : Option Int)
    (xs : List (List Byte)) (ago : Nat) (s : State) : Host.Outcome State Fault Refusal :=
  s.ends (
    let s := s.frameIn p.val
    if !s.netUp p.val then s
    else if binaryKind then s.bump (F.NET_CNT0_UNSUP p.val)
    else
      let fl := (List.range 16).filter fun f => s.flowOn f p.val && s.get (F.NET_FLOW_CFG_KIND f) % 3 == 0
        && s.get (F.NET_FLOW_CFG_GROUP f) == group.val && (s.flowSrc f == 0 || s.flowSrc f == src.toNat)
      if fl.isEmpty then s.bump (F.NET_CNT0_UNSUP p.val)
      else
        let k := (0, src.toNat, line)
        if s.isRepeat k then s
        else
          let arr := s.stampAgo ago
          let s := s.remember k
          let tag := c.map fun t => s.taiOf (s.full arr) (true, t)
          fl.foldl (fun t f => xs.foldl (fun u x => u.sentence 3 f (readSentence x) tag arr) t) s)

/-- FLOW_DATAGRAM: a UDP datagram to a port from an address, taken as binary frames or RTCM frames by the flows of
KIND 1 and 2 it matches (R267). Both are streams of SRC_KIND 4; for RTCM the spec names none (DESIGN CHOICE, log entry 180). -/
def execFlowDatagram (p : Fin 2) (udp : BitVec 16) (ip : Word) (fs : List (List Byte)) (ago : Nat) (s : State) :
    Host.Outcome State Fault Refusal :=
  s.ends (
    let s := s.frameIn p.val
    if !s.netUp p.val then s
    else
      let fl := (List.range 16).filter fun f => s.flowOn f p.val
        && (s.get (F.NET_FLOW_CFG_KIND f) == 1 || s.get (F.NET_FLOW_CFG_KIND f) == 2)
        && s.get (F.NET_FLOW_CFG_UDP_PORT f) == udp.toNat
        && (s.get (F.NET_FLOW_IP_IP f) == 0 || s.get (F.NET_FLOW_IP_IP f) == ip.toNat)
      if fl.isEmpty then s.bump (F.NET_CNT0_UNSUP p.val)
      else
        let arr := s.stampAgo ago
        fs.foldl (fun t b =>
          -- a binary frame of the last 100 ms is a repeat on whichever port and flow
          let k := (1, frameNum b 3 1, frameNum b 4 2)
          let again := t.isRepeat k
          let t := if again || fl.all (fun f => s.get (F.NET_FLOW_CFG_KIND f) == 2) then t else t.remember k
          fl.foldl (fun u f =>
            if u.get (F.NET_FLOW_CFG_KIND f) = 2 then u.rtcm 4 f b true arr
            else if again then u else u.binary 4 f b true arr) t) s)

/-! Stream contexts (R34). -/

/-- Clear a stream's rejection counters (R71). -/
def State.clearRuns (s : State) (n : Nat) : State :=
  ((s.set (F.FE_MN_CNT_FAILRUN n) 0).set (F.FE_MN_CNT_OKRUN n) 0).modStream n fun x => { x with rejected := false }

/-- Start or stop learning as OWNSTAMP says (R54): a write of FE_SC_OFSCFG or EN set while OWNSTAMP is 0 leaves the tracker OFF
(DESIGN CHOICE, log entry 181). -/
def State.learnStart (s : State) (n : Nat) : State := s.setLstate n (if s.flag (F.FE_SC_CFG_OWNSTAMP n) then 1 else 0)

/-- The track slots. -/
def trackIds : List Nat := List.range 64

/-- State of track j: 0 FREE, 1 TENTATIVE, 2 CONFIRMED, 3 COASTING. -/
def State.tkState (s : State) (j : Nat) : Nat := s.get (F.TK_ST_STATE j)

/-- CONFIRMED or COASTING. -/
def State.tkConf (s : State) (j : Nat) : Bool := s.tkState j == 2 || s.tkState j == 3

/-- Count CONFIRMED and COASTING, and TENTATIVE tracks; HIGH is the greatest NCONF (R88). -/
def State.countTracks (s : State) : State :=
  let c := (trackIds.filter s.tkConf).length
  let t := (trackIds.filter fun j => s.tkState j == 1).length
  let s := (s.set F.TRK_STAT_NCONF c).set F.TRK_STAT_NTENT t
  if s.get F.TRK_STAT_HIGH < c then s.set F.TRK_STAT_HIGH c else s

/-- Free a track slot: its binding is released (R85). -/
def State.freeTrack (s : State) (j : Nat) : State :=
  let s := (s.setWord (R.TK_ST j) 0).setWord (R.TK_CODE j) 0
  { s with trk := { s.trk with tracks := padMod .init j (fun _ => .init) s.trk.tracks } }

/-- Clear a stream's EN: the queue is flushed at once (R34), its rejection counters clear (R71) and its tracks are freed
(R85, R88). What the cycle image latched stays until the next snap. -/
def State.streamOff (s : State) (n : Nat) : State :=
  let s := (trackIds.foldl (fun t j =>
    if t.get (F.TK_ST_STATE j) ≠ 0 && t.get (F.TK_ST_SRC j) = n then t.freeTrack j else t) s).countTracks
  (s.clearRuns n).modStream n fun x =>
    { x with queue := [], cut := true }

/-- The bits of FE_SC_CFG a write may change: TYPE, SRC_KIND and SRC_PORT are read-only in contexts 1 to 8 (R33). -/
def fscMask (n : Nat) : Word := if n ≤ 8 then 0x1FF00001 else 0x1FFFFFFF

/-- A write of FE_SC_CFG of stream n (R34, R54): discarded while EN is 1 unless it clears EN. -/
def fscCfgWrite (s : State) (d : Dom) (n : Nat) (v : Word) : State × CpSt :=
  s.writeGuard d (R.FE_SC_CFG n) fun s =>
    let was := s.flag (F.FE_SC_CFG_EN n)
    let own := s.flag (F.FE_SC_CFG_OWNSTAMP n)
    if was && v.getLsbD 0 then (s, .notNow)
    else
      let s := s.setWord (R.FE_SC_CFG n) ((s.word (R.FE_SC_CFG n) &&& ~~~ fscMask n) ||| (v &&& fscMask n))
      let s := if was then s.streamOff n else s
      if v.getLsbD 0 then
        ((s.modStream n fun x => { x with firstSnap := true }).learnStart n, .ok)
      else if own != v.getLsbD 27 then (s.learnStart n, .ok)
      else (s, .ok)

/-- A write of FE_SC_MATCH: discarded while EN is 1 (R34). -/
def fscMatchWrite (s : State) (d : Dom) (n : Nat) (v : Word) : State × CpSt :=
  if s.flag (F.FE_SC_CFG_EN n) then s.writeGuard d (R.FE_SC_MATCH n) fun s => (s, .notNow)
  else s.plainWrite d (R.FE_SC_MATCH n) v

/-- STREAM_ENABLE: a write of FE_SC_CFG with EN 1 (R34); ID 0 is no stream. -/
def execStreamEnable (d : Dom) (n : Fin 128) (v : Word) (s : State) : Host.Outcome State Fault Refusal :=
  s.ends (if n.val = 0 then s else (fscCfgWrite s d n.val (v ||| 1#32)).1)

/-- STREAM_DISABLE: a write of FE_SC_CFG with EN 0 (R34). -/
def execStreamDisable (d : Dom) (n : Fin 128) (v : Word) (s : State) : Host.Outcome State Fault Refusal :=
  s.ends (if n.val = 0 then s else (fscCfgWrite s d n.val (v &&& 0xFFFFFFFE#32)).1)

/-- A write of FE_SC_OFSCFG restarts learning (R54). -/
def ofscfgWrite (s : State) (d : Dom) (n : Nat) (v : Word) : State × CpSt :=
  let r := s.plainWrite d (R.FE_SC_OFSCFG n) v
  if r.2 = .ok then (r.1.learnStart n, .ok) else r

/-- OFSCFG_WRITE (R54). -/
def execOfscfgWrite (d : Dom) (n : Fin 128) (v : Word) (s : State) : Host.Outcome State Fault Refusal :=
  s.ends (if n.val = 0 then s else (ofscfgWrite s d n.val v).1)

/-- A read of FE_SC_OFSL latches the high word of OFS (R54). -/
def State.readOfsl (s : State) (n : Nat) : State :=
  s.setWord (R.FE_SC_OFSH n) (BitVec.ofInt 32 ((s.stream n).trk.ofs / 2 ^ 32))

/-- FE_SC_OFSL_READ (R54). -/
def execFeScOfslRead (n : Fin 128) (s : State) : Host.Outcome State Fault Refusal :=
  s.ends (if n.val = 0 then s else s.inDomain 7 fun s => s.readOfsl n.val)

/-! UARTs (R42). -/

/-- UART p's hidden state. -/
def State.uart (s : State) (p : Nat) : Uart := s.fe.uarts.getD p .init

/-- Change UART p's hidden state and show its FIFO fills. -/
def State.modUart (s : State) (p : Nat) (f : Uart → Uart) : State :=
  let s := s.modFe fun x => { x with uarts := padMod .init p f x.uarts }
  (s.set (F.UART_STAT_RXFILL p) (s.uart p).rx.length).set (F.UART_STAT_TXFILL p)
    ((s.uart p).tx.filter fun e => decide (s.now < e.2)).length

/-- A sticky error bit of UART_STAT sets; going 0 to 1 is the port event (R42). -/
def State.uartErr (s : State) (p : Nat) (f : Fld) : State :=
  if s.flag f then s
  else
    let s := s.setFlag f true
    s.event (264 + p) (s.word (R.UART_STAT p)) .none

/-- A character reaches port p (R42): it counts, and RXACT shows it. -/
def State.uartHeard (s : State) (p : Nat) : State :=
  let now := s.now
  (((s.pmu (96 + p)).bump (F.UART_CNT_CHARS p)).modUart p fun u => { u with lastChar := now }).setFlag (F.UART_STAT_RXACT p) true

/-- Is the item in progress complete (R40, R45, R46): a sentence at its line feed, a frame at the length its header gives? -/
def partDone (parse : Nat) (l : List Byte) : Bool :=
  match parse with
  | 0 => l.getLast? == some 0x0A#8
  | 1 => decide (8 ≤ l.length) && decide (20 + frameNum l 6 2 ≤ l.length)
  | 2 => decide (3 ≤ l.length) && decide (6 + leNat ((l.drop 1).take 2).reverse % 1024 ≤ l.length)
  | _ => false

/-- The item in progress after a character: a sentence begins at '$' or '!' and holds at most 82 characters, a frame at its sync
byte or bytes (R40, R45, R46). -/
def partNext (parse : Nat) (part : List Byte) (ch : Byte) : List Byte :=
  match parse, part with
  | 0, [] => if ch = 0x24 || ch = 0x21 then [ch] else []
  | 0, l => if ch = 0x24 || ch = 0x21 then [ch] else if 82 ≤ l.length then [] else l ++ [ch]
  | 1, [] => if ch = 0xA9 then [ch] else []
  | 1, [a] => if ch = 0x5C then [a, ch] else if ch = 0xA9 then [ch] else []
  | 2, [] => if ch = 0xD3 then [ch] else []
  | _, l => l ++ [ch]

/-- A complete item goes to the streams of its port (R42): sentences, binary frames or RTCM frames. Where a bad character was dropped
from it (`whole` false) its checksum or CRC fails. -/
def State.uartItem (s : State) (p parse : Nat) (b : List Byte) (whole : Bool) (arr : Stamp) : State :=
  match parse with
  | 0 =>
    let x := readSentence b
    s.sentence 1 p (if whole then x else { x with sum := some false }) none arr
  | 1 => s.binary 1 p b whole arr
  | 2 => s.rtcm 1 p b whole arr
  | _ => s

/-- A good character goes to the parser (R42): it begins or continues the item in progress, and completes it. -/
def State.uartParse (s : State) (p : Nat) (ch : Byte) (start : Nat) : State :=
  let parse := s.get (F.UART_CFG_PARSE p)
  let u := s.uart p
  let l := partNext parse u.part ch
  let fresh := l.length = 1
  let start := if fresh then start else u.partAt
  let bad := !fresh && u.partBad
  let s := s.modUart p fun u => { u with part := l, partAt := start, partBad := bad }
  if partDone parse l then (s.modUart p fun u => { u with part := [] }).uartItem p parse l (!bad) (stampOf start) else s

/-- The data bits of a character: 7 with BITS7 (R42). -/
def State.uartBits (s : State) (p : Nat) (ch : Byte) : Byte := if s.flag (F.UART_CFG_BITS7 p) then ch &&& 0x7F else ch

/-- UART_CHARACTER_RECEIVE: a character has arrived, with its framing and parity (R42). A bad one is dropped, and the sentence or
frame in progress fails its checksum; with PARSE 3 a good one goes to the raw FIFO, else to the parser. Its start bit lies one
character time back (log entry 182). -/
def execUartCharacterReceive (p : Fin 16) (ch : Byte) (ferr perr : Bool) (s : State) :
    Host.Outcome State Fault Refusal :=
  s.ends (
    if !s.flag (F.UART_CFG_EN p.val) then s
    else
      let s := s.uartHeard p.val
      let ch := s.uartBits p.val ch
      let perr := perr && (s.get (F.UART_CFG_PAR p.val) == 1 || s.get (F.UART_CFG_PAR p.val) == 2)
      if ferr || perr then
        let s := (s.bump (F.UART_CNT_ERRS p.val)).modUart p.val fun u => { u with partBad := true }
        let s := if ferr then s.uartErr p.val (F.UART_STAT_FERR p.val) else s
        if perr then s.uartErr p.val (F.UART_STAT_PERR p.val) else s
      else if s.get (F.UART_CFG_PARSE p.val) = 3 then
        if (s.uart p.val).rx.length ≥ 256 then s.uartErr p.val (F.UART_STAT_OVR p.val)
        else s.modUart p.val fun u => { u with rx := u.rx ++ [ch] }
      else s.uartParse p.val ch (s.now - s.uartCharNs p.val))

/-- A whole item's characters, all good, have arrived on port p with a PARSE; the first one's start bit lay `ago` ns back. An item
in progress ends with it. -/
def State.uartWhole (s : State) (p parse : Nat) (b : List Byte) (ago : Nat) : State :=
  if s.flag (F.UART_CFG_EN p) && s.get (F.UART_CFG_PARSE p) == parse then
    let t := (b.foldl (fun u _ => u.uartHeard p) s).modUart p fun u => { u with part := [], partBad := false }
    t.uartItem p parse (b.map (s.uartBits p)) true (s.stampAgo ago)
  else s

/-- SENTENCE_RECEIVE: the characters of a complete sentence have arrived on a UART with PARSE 0 (R37, R40). -/
def execSentenceReceive (p : Fin 16) (b : List Byte) (ago : Nat) (s : State) : Host.Outcome State Fault Refusal :=
  s.ends (s.uartWhole p.val 0 b ago)

/-- BINARY_FRAME_RECEIVE: the bytes of a binary sensor frame have arrived on a UART with PARSE 1 (R46). -/
def execBinaryFrameReceive (p : Fin 16) (b : List Byte) (ago : Nat) (s : State) : Host.Outcome State Fault Refusal :=
  s.ends (s.uartWhole p.val 1 b ago)

/-- RTCM_FRAME_RECEIVE: the bytes of an RTCM frame have arrived on a UART with PARSE 2 (R45). -/
def execRtcmFrameReceive (p : Fin 16) (b : List Byte) (ago : Nat) (s : State) : Host.Outcome State Fault Refusal :=
  s.ends (s.uartWhole p.val 2 b ago)

/-- UART_BREAK: the line low for longer than a frame; what is in progress is discarded (R42). -/
def execUartBreak (p : Fin 16) (s : State) : Host.Outcome State Fault Refusal :=
  s.ends (if !s.flag (F.UART_CFG_EN p.val) then s
    else
      let s := (s.bump (F.UART_CNT_ERRS p.val)).modUart p.val fun u => { u with part := [], partBad := false }
      s.uartErr p.val (F.UART_STAT_BRK p.val))

/-- A read of UART_DATA pops the raw receive FIFO; the word shows the byte and VALID (R42). -/
def State.uartRead (s : State) (p : Nat) : State :=
  match (s.uart p).rx with
  | [] => s.setWord (R.UART_DATA p) 0
  | b :: t => (s.modUart p fun u => { u with rx := t }).setWord (R.UART_DATA p) (BitVec.ofNat 32 (b.toNat + 256))

/-- UART_DATA_READ (R42). -/
def execUartDataRead (p : Fin 16) (s : State) : Host.Outcome State Fault Refusal :=
  s.ends (s.inDomain 12 fun s => s.uartRead p.val)

/-- A write of UART_DATA: SVC only; the transmitter is used only with PARSE 3, and a full FIFO discards (R42). With the port off
the byte is discarded (DESIGN CHOICE, log entry 183). The characters leave one after the other, each taking its character time. -/
def uartDataWrite (s : State) (d : Dom) (p : Nat) (v : Word) : State × CpSt :=
  s.writeGuard d (R.UART_DATA p) fun s =>
    let q := (s.uart p).tx.filter fun e => decide (s.now < e.2)
    if s.get (F.UART_CFG_PARSE p) ≠ 3 || !s.flag (F.UART_CFG_EN p) || decide (256 ≤ q.length) then (s, .notNow)
    else
      let ch := s.uartBits p (v.truncate 8)
      let start := match q.getLast? with
        | some e => e.2
        | none => s.now
      let done := start + s.uartCharNs p
      ((s.emit (.uart p ch)).modUart p fun u => { u with tx := q ++ [(ch, done)] }, .ok)

/-- UART_DATA_WRITE (R42). -/
def execUartDataWrite (d : Dom) (p : Fin 16) (v : Word) (s : State) : Host.Outcome State Fault Refusal :=
  s.ends (uartDataWrite s d p.val v).1

/-- A write of UART_CFG: discarded while EN is 1 unless it clears EN (R42); what is in progress is lost. -/
def uartCfgWrite (s : State) (d : Dom) (p : Nat) (v : Word) : State × CpSt :=
  if s.flag (F.UART_CFG_EN p) && v.getLsbD 0 then s.writeGuard d (R.UART_CFG p) fun s => (s, .notNow)
  else
    let r := s.plainWrite d (R.UART_CFG p) v
    if r.2 = .ok then (r.1.modUart p fun u => { u with part := [], partBad := false }, .ok) else r

/-! Zaley discovery (R47, R48, R258). -/

/-- ZAL_SIG holds the active image's configuration signature (R47). -/
def State.showSig (s : State) : State := s.setWord R.ZAL_SIG s.pwr.image.zalSig

/-- Put a peer in the table. -/
def State.putPeer (s : State) (p : Peer) : State :=
  let s := s.modFe fun f => { f with peers := p :: f.peers.filter (fun q => q.node != p.node) }
  let w := s.word (R.ZAL_PRESENT (p.node / 32))
  let bit : Word := 1#32 <<< (p.node % 32)
  s.setWord (R.ZAL_PRESENT (p.node / 32)) (if p.state = 1 then w ||| bit else w &&& ~~~ bit)

/-- A ZAL_DISC_EVT flag sets (R47); its setting raises source 286 (R369). -/
def State.zalEvt (s : State) (f : Fld) : State :=
  if s.flag f then s
  else
    let s := s.setFlag f true
    s.event 286 (s.word R.ZAL_DISC_EVT) .none

/-- A HELLO and the peer table (R47). SIGMATCH is judged at a peer's HELLO: where the own signature changes between two of them, which
the spec leaves open, the verdict of the latest stands (DESIGN CHOICE, log entry 235). -/
def State.hello (s : State) (h : Hello) : State :=
  let n := h.src.val
  let p := s.peer n
  let own := s.word R.ZAL_SIG
  let eq := h.sig == own
  let com := s.flag F.ZAL_DISC_CTRL_COMMISSION
  let q : Peer := ⟨n, 1, eq, h.persona.val, h.level.val, h.parent.val, h.mac.toNat, s.now⟩
  if n = s.nodeId || ((p.state = 1 || p.state = 2) && p.mac ≠ h.mac.toNat) then s.zalEvt F.ZAL_DISC_EVT_ID_CLASH
  else
    match p.state with
    | 1 =>
      if eq || com then s.putPeer q
      else (s.putPeer { q with state := 2 }).zalEvt F.ZAL_DISC_EVT_REFUSE
    | 2 =>
      if eq then (s.putPeer q).zalEvt F.ZAL_DISC_EVT_ADMIT else s.putPeer { q with state := 2 }
    | _ =>
      if eq || com then (s.putPeer q).zalEvt F.ZAL_DISC_EVT_ADMIT
      else (s.putPeer { q with state := 2 }).zalEvt F.ZAL_DISC_EVT_REFUSE

/-- The payload of this device's HELLO (R265). -/
def State.helloBytes (s : State) : List Byte :=
  (leBytes 6 s.macBase).reverse ++ leBytes 1 s.persona ++ leBytes 1 (s.get F.ZAL_TREE_LEVEL)
    ++ leBytes 2 (s.get F.ZAL_TREE_PARENT) ++ leBytes 1 (if s.isMaster then s.haState else 7) ++ leBytes 1 0
    ++ leBytes 4 (s.word R.ZAL_SIG).toNat

/-- HELLO_SEND: each enabled plant port sends a HELLO to all devices while HELLO_EN is 1, 100 ms after its latest (R258). -/
def execHelloSend (p : Fin 4) (s : State) : Host.Outcome State Fault Refusal :=
  s.ends (if s.netUp p.val && s.zalPort p.val && s.flag F.ZAL_DISC_CTRL_HELLO_EN then
      let s := s.advanceTo ((s.net.helloAt.getD p.val none).getD 0)
      let next := s.now + 100000000
      let s := s.modNet fun x => { x with helloAt := padMod none p.val (fun _ => some next) x.helloAt }
      s.sendPlain p.val 0x3FF 0x88B5 (s.zaley zHELLO 0 0x3FF false s.helloBytes)
    else s)

/-- PEER_DETACH: an ADMITTED peer reaches 350 ms without a HELLO (R47). -/
def execPeerDetach (n : Fin 512) (s : State) : Host.Outcome State Fault Refusal :=
  s.ends (
    let p := s.peer n.val
    if p.state = 1 then ((s.advanceTo (p.last + 350000000)).putPeer { p with state := 3 }).zalEvt F.ZAL_DISC_EVT_DETACH
    else s)

/-- A write of ZAL_DISC_CTRL (R47, R48): COMMISSION is set only while RUN is 0; 1 to 0 detaches the peers admitted with
SIGMATCH 0. -/
def discCtrlWrite (s : State) (d : Dom) (v : Word) : State × CpSt :=
  s.writeGuard d R.ZAL_DISC_CTRL fun s =>
    let was := s.flag F.ZAL_DISC_CTRL_COMMISSION
    if v.getLsbD 0 && s.run then (s, .notNow)
    else
      let s := s.setWord R.ZAL_DISC_CTRL (v &&& 3#32)
      if was && !v.getLsbD 0 then
        (s.fe.peers.foldl (fun t p => if p.state = 1 && !p.sigMatch then
            (t.putPeer { p with state := 3 }).zalEvt F.ZAL_DISC_EVT_DETACH else t) s, .ok)
      else (s, .ok)

/-- COMMISSION_WRITE: a write of ZAL_DISC_CTRL (R48). -/
def execCommissionWrite (d : Dom) (v : Word) (s : State) : Host.Outcome State Fault Refusal := s.ends (discCtrlWrite s d v).1

end Sys2Proof.Machine
end

