-- ==== Sys2Proof/Machine/Filter.lean ====
section
/-!
DEFINITION. The filter and decimation chain: sinc3 and FIR stages, proofing, detectors, thresholds, alignment, coefficient
banks and bitstream outputs (10_field_filters R164 to R178).
-/
namespace Sys2Proof.Machine

/-- R1, DA, DB, NA, NB of a DSF_CFG word, with the values it reads others as. -/
def dsfR1 (w : Word) : Nat := let v := (F.DSF_CFG_R1 0).of w; if v = 0 then 256 else max 8 v
def dsfDec (v : Nat) : Nat := 2 ^ min v 2
def dsfDA (w : Word) : Nat := dsfDec ((F.DSF_CFG_DA 0).of w)
def dsfDB (w : Word) : Nat := dsfDec ((F.DSF_CFG_DB 0).of w)
def dsfNA (w : Word) : Nat := let v := (F.DSF_CFG_NA 0).of w; if v = 0 then 64 else v
def dsfNB (w : Word) : Nat := let v := (F.DSF_CFG_NB 0).of w; if v = 0 then 128 else v
/-- The total decimation D (R165). -/
def dsfD (w : Word) : Nat := dsfR1 w * dsfDA w * dsfDB w

/-- ⌈a / b⌉. -/
def ceilDiv (a b : Nat) : Nat := (a + b - 1) / b

/-- FILL and FILL_AB (R168). -/
def dsfFill (w : Word) : Nat := ceilDiv (3 * dsfR1 w + dsfNA w * dsfR1 w + dsfNB w * dsfR1 w * dsfDA w) (dsfD w)
def dsfFillAB (w : Word) : Nat := ceilDiv (dsfNA w * dsfR1 w + dsfNB w * dsfR1 w * dsfDA w) (dsfD w)

/-- The configuration word of a channel. -/
def State.dcfg (s : State) (n : Nat) : Word := s.word (R.DSF_CFG n)
/-- Is a channel on? -/
def State.dsfOn (s : State) (n : Nat) : Bool := s.domOn 12 && s.flag (F.DSF_CFG_EN n)

/-- The proofing samples left; PCOUNT shows them, at most 65535 (log entry 206). -/
def State.setLeft (s : State) (n count : Nat) : State :=
  (s.set (F.DSF_STAT_PCOUNT n) (min 65535 count)).modDsf n fun c => { c with left := count }

/-- A channel leaves proofing or stays out of it, with a count (R168); the threshold state is NORMAL again (R171). -/
def State.unproof (s : State) (n count : Nat) : State :=
  ((s.setFlag (F.DSF_STAT_PROOFED n) false).setLeft n count).set (F.DSF_STAT_THR n) 0

/-- Proofing from an event (R168): FILL + SETTLE. -/
def State.proofAll (s : State) (n : Nat) : State := s.unproof n (dsfFill (s.dcfg n) + s.get (F.DSF_PROOF_SETTLE n))

/-- The target of a running swap becomes active and a queued request is discarded (R177). With no swap running a request
not yet taken waits for the next output sample (R175). -/
def State.endSwap (s : State) (n : Nat) : State :=
  if s.get (F.DSF_BANKSTAT_PHASE n) = 0 then s
  else
    let s := (s.set (F.DSF_BANKSTAT_ACTIVE n) (s.get (F.DSF_BANKSTAT_FADING n))).set (F.DSF_BANKSTAT_PHASE n) 0
    let s := if s.flag (F.DSF_BANKSTAT_QVALID n) then s.bump (F.DSF_CNT_QREPL n) else s
    (s.setFlag (F.DSF_BANKSTAT_QVALID n) false).modDsf n fun c => { c with req := none, fadeK := 0 }

/-- Histories and counters cleared; the next decimation instant follows a base by DELAY (modulo 4·D) and one period
(R172, R173). -/
def State.dsfRestart (s : State) (n : Nat) (baseHalf : Nat) : State :=
  let d := dsfD (s.dcfg n)
  let delay := s.get (F.DSF_DELAY_DELAY n) % (4 * d)
  s.modDsf n fun c => { c with bits := [], lineA := [[], []], lineB := [[], []], skip := 3, nextAt := baseHalf + delay * 25 + d * 100 }

/-- A channel is enabled on the next modulator clock edge (R168, R172). -/
def State.dsfStart (s : State) (n : Nat) : State :=
  let s := ((s.setFlag (F.DSF_STAT_ALIGNED n) false).setFlag (F.DSF_STAT_STUCK n) false).set (F.DSF_PROOF_FILL n) (dsfFill (s.dcfg n))
  (s.dsfRestart n (s.ioEdge (2 * s.now) 100)).proofAll n

/-- A channel is switched off (R177). -/
def State.dsfStop (s : State) (n : Nat) : State :=
  let s := (s.endSwap n).unproof n 0
  (s.setFlag (F.DSF_STAT_ALIGNED n) false).modDsf n fun c => { c with bits := [], lineA := [[], []], lineB := [[], []] }

/-- A write of DSF_CFG: while EN is 1 the filter fields keep their values (R165); EN and SRC act (R168, R177). -/
def dsfCfgWrite (s : State) (d : Dom) (n : Nat) (v : Word) : State × CpSt :=
  s.writeGuard d (R.DSF_CFG n) fun s =>
    let old := s.dcfg n
    let on := s.flag (F.DSF_CFG_EN n)
    let v := v &&& 0x0FFFFFFF#32
    let keep : Word := 0x0FFFFFF8#32
    let new := if on then (v &&& ~~~ keep) ||| (old &&& keep) else v
    let s := s.setWord (R.DSF_CFG n) new
    let s := s.set (F.DSF_PROOF_FILL n) (dsfFill new)
    let en := new.getLsbD 0
    let src (w : Word) : Nat := let x := (F.DSF_CFG_SRC n).of w; if x = 3 then 0 else x
    let st : CpSt := if on && (v ^^^ old) &&& keep ≠ 0 then .notNow else .ok
    if en && !on then (s.dsfStart n, st)
    else if !en && on then (s.dsfStop n, st)
    else if en && src old ≠ src new then
      (((s.endSwap n).proofAll n).modDsf n fun c => { c with skip := 3 }, st)
    else (s, st)

/-- DSF_ENABLE: EN set in DSF_CFG (R168). -/
def execDsfEnable (d : Dom) (n : Fin 24) (s : State) : Host.Outcome State Fault Refusal :=
  s.ends (dsfCfgWrite s d n.val (s.dcfg n.val ||| 1#32)).1

/-- DSF_SRC_CHANGE: SRC changed (R177). -/
def execDsfSrcChange (d : Dom) (n : Fin 24) (src : Fin 4) (s : State) : Host.Outcome State Fault Refusal :=
  s.ends (dsfCfgWrite s d n.val ((F.DSF_CFG_SRC n.val).into src.val (s.dcfg n.val))).1

/-- A write of DSF_ENSET enables the named channels on one common edge (R172). -/
def dsfEnsetWrite (s : State) (d : Dom) (v : Word) : State × CpSt :=
  s.writeGuard d R.DSF_ENSET fun s =>
    ((List.range 24).foldl (fun t n =>
      if v.getLsbD n && !t.flag (F.DSF_CFG_EN n) then (t.setFlag (F.DSF_CFG_EN n) true).dsfStart n else t) s, .ok)

/-- DSF_ENSET_WRITE (R172). -/
def execDsfEnsetWrite (d : Dom) (v : Word) (s : State) : Host.Outcome State Fault Refusal := s.ends (dsfEnsetWrite s d v).1

/-! SYNC (R173). -/

/-- A SYNC reset of every enabled channel on one CLK_IO edge; sources that coincide on the edge give one (R173). -/
def State.syncReset (s : State) (edge : Nat) : State :=
  if s.syncEdge = some edge then s
  else
    let s := { s.bump F.DSF_SYNC_CTRL_SYNC_CNT with syncEdge := some edge }
    (List.range 24).foldl (fun t n =>
      if t.flag (F.DSF_CFG_EN n) then
        (((t.endSwap n).dsfRestart n edge).proofAll n).setFlag (F.DSF_STAT_ALIGNED n) true
      else t) s

/-- The SYNC time. -/
def State.syncAt (s : State) : Stamp := (s.word R.DSF_SYNC_ATH).truncate 16 ++ s.word R.DSF_SYNC_ATL
/-- The CLK_IO edge of the SYNC time. -/
def State.syncAtEdge (s : State) : Nat := s.ioEdge (2 * ((s.now : Int) + sdiff s.syncAt s.stamp).toNat) 25

/-- SYNC_BALL_EDGE: a rising edge with BALL_EN (R173). An armed DSF_SYNC_AT of the same CLK_IO edge is spent in it. -/
def execSyncBallEdge (s : State) : Host.Outcome State Fault Refusal :=
  s.ends (
    if s.domOn 12 && s.flag F.DSF_SYNC_CTRL_BALL_EN then
      let edge := s.ioEdge (2 * s.now) 25
      let spent := s.flag F.DSF_SYNC_CTRL_ARMED && s.syncAtEdge == edge
      (if spent then s.setFlag F.DSF_SYNC_CTRL_ARMED false else s).syncReset edge
    else s)

/-- A write of DSF_SYNC_CTRL: ARM arms DSF_SYNC_AT, or ARM_LATE sets (R173). -/
def syncCtrlWrite (s : State) (d : Dom) (v : Word) : State × CpSt :=
  let r := s.plainWrite d R.DSF_SYNC_CTRL v
  if r.2 = .ok && v.getLsbD 1 then
    if sdiff r.1.syncAt r.1.stamp ≤ 0 then (r.1.setFlag F.DSF_SYNC_CTRL_ARM_LATE true, .ok)
    else (r.1.setFlag F.DSF_SYNC_CTRL_ARMED true, .ok)
  else r

/-- SYNC_ARM: 1 written to ARM, BALL_EN unchanged (R173). -/
def execSyncArm (d : Dom) (s : State) : Host.Outcome State Fault Refusal :=
  s.ends (syncCtrlWrite s d ((s.word R.DSF_SYNC_CTRL &&& 1#32) ||| 2#32)).1

/-- SYNC_AT_REACHED: the first CLK_IO edge at or after the armed DSF_SYNC_AT (R173). -/
def execSyncAtReached (s : State) : Host.Outcome State Fault Refusal :=
  s.ends (
    if s.domOn 12 && s.flag F.DSF_SYNC_CTRL_ARMED then
      let edge := s.syncAtEdge
      let ahead := sdiff s.syncAt s.stamp
      ((if 0 < ahead then s.advanceBy ahead.toNat else s).setFlag F.DSF_SYNC_CTRL_ARMED false).syncReset edge
    else s)

/-! Banks (R174 to R176). -/

/-- A bank's coefficient. -/
def Dsf.coef (c : Dsf) (bank : Bool) (k : Nat) : Int :=
  ((tblGet (if bank then c.bankB else c.bankA) k).truncate 24 : BitVec 24).toInt

/-- Is a bank idle: not active, not fading, not queued (R174)? -/
def State.bankIdle (s : State) (n : Nat) (bank : Bool) : Bool :=
  let b := if bank then 1 else 0
  s.get (F.DSF_BANKSTAT_ACTIVE n) != b && !(s.get (F.DSF_BANKSTAT_PHASE n) != 0 && s.get (F.DSF_BANKSTAT_FADING n) == b)
    && !(s.flag (F.DSF_BANKSTAT_QVALID n) && s.get (F.DSF_BANKSTAT_QBANK n) == b)

/-- A write of DSF_BANKREQ: taken at the next output sample, or queued during a swap (R175, R176). -/
def bankReqWrite (s : State) (d : Dom) (n : Nat) (v : Word) : State × CpSt :=
  s.writeGuard d (R.DSF_BANKREQ n) fun s =>
    let b := v.getLsbD 0
    if s.get (F.DSF_BANKSTAT_PHASE n) = 0 then (s.modDsf n fun c => { c with req := some b }, .ok)
    else
      let s := if s.flag (F.DSF_BANKSTAT_QVALID n) then s.bump (F.DSF_CNT_QREPL n) else s
      ((s.setFlag (F.DSF_BANKSTAT_QVALID n) true).setFlag (F.DSF_BANKSTAT_QBANK n) b, .ok)

/-- BANK_REQUEST: DSF_BANKREQ written (R175). -/
def execBankRequest (d : Dom) (n : Fin 24) (bank : Bool) (s : State) : Host.Outcome State Fault Refusal :=
  s.ends (bankReqWrite s d n.val (if bank then 1#32 else 0#32)).1

/-- Take a bank request at an output sample (R175). -/
def State.takeBank (s : State) (n : Nat) (b : Bool) : State :=
  if s.flag (F.DSF_BANKSTAT_ACTIVE n) = b then s.bump (F.DSF_CNT_NOOP n)
  else
    let s := (s.set (F.DSF_BANKSTAT_PHASE n) 1).setFlag (F.DSF_BANKSTAT_FADING n) b
    let i := if b then 1 else 0
    (s.modDsf n fun c => { c with lineA := modAt i (fun _ => []) c.lineA, lineB := modAt i (fun _ => []) c.lineB, fadeK := 0 }).unproof n
      (dsfFillAB (s.dcfg n) + s.get (F.DSF_PROOF_SETTLE n))

/-- A write of DSF_COEF_DATA loads a coefficient into an idle bank, else it is discarded (R174); IDX moves on after any
access. -/
def coefAccess (s : State) (wr : Option (Dom × Word)) : State × CpSt :=
  let n := s.get F.DSF_COEF_SEL_CH
  let bank := s.flag F.DSF_COEF_SEL_BANK
  let st := s.get F.DSF_COEF_SEL_STAGE
  let i := s.get F.DSF_COEF_SEL_IDX
  let len := if st = 0 then dsfNA (s.dcfg n) else dsfNB (s.dcfg n)
  let next (s : State) : State := s.set F.DSF_COEF_SEL_IDX (if len ≤ i + 1 then 0 else i + 1)
  match wr with
  | none => (next s, .ok)
  | some (d, v) =>
    s.writeGuard d R.DSF_COEF_DATA fun s =>
      if decide (24 ≤ n) then (next s, .notNow)
      else if !s.bankIdle n bank then (next (s.bump (F.DSF_CNT_COEF_DISC n)), .notNow)
      else
        let k := i + 128 * st
        (next (s.modDsf n fun c =>
          if bank then { c with bankB := tblSet c.bankB k (v &&& 0xFFFFFF#32) } else { c with bankA := tblSet c.bankA k (v &&& 0xFFFFFF#32) }), .ok)

/-- COEF_WRITE: DSF_COEF_DATA written (R174). -/
def execCoefWrite (d : Dom) (v : Word) (s : State) : Host.Outcome State Fault Refusal := s.ends (coefAccess s (some (d, v))).1

/-! The output sample (R165 to R171). -/

/-- 24-bit saturation. -/
def sat24 (v : Int) : Int := clampI (-8388608) 8388607 v

/-- Bit k of the test pattern (R164): in every four bits one is 0, and which one is free (log entry 208). -/
def testPattern (k : Nat) : Bool := k % 4 != Config.testZero (k / 4) % 4

/-- The bits of an output period by SRC (R164): `own` are those of the channel's ball, `pair` those of the ball of channel
n XOR 1. -/
def State.dsfBits (s : State) (n : Nat) (own pair : List Bool) : List Bool :=
  match s.get (F.DSF_CFG_SRC n) with
  | 1 => pair
  | 2 => (List.range (dsfD (s.dcfg n))).map fun k => testPattern ((s.ch n).pat + k)
  | _ => own

/-- The sinc3 weight sum of the latest 3·R1 - 2 bits: three cascaded sums of R1, over bits 0 or 1. -/
def sinc3 (r1 : Nat) (bits : List Bool) : Nat :=
  let one := (List.range (2 * r1 - 1)).map fun i => if i < r1 then i + 1 else 2 * r1 - 1 - i
  let w (k : Nat) : Nat := ((List.range r1).map fun j => if j ≤ k then one.getD (k - j) 0 else 0).foldl (· + ·) 0
  ((bits.take (3 * r1 - 2)).zipIdx.map fun e => if e.1 then w e.2 else 0).foldl (· + ·) 0

/-- The sinc3 output, normalised: all ones +0x7F_FFFF, all zeros -0x80_0000 (R166). -/
def sincOut (r1 : Nat) (bits : List Bool) : Int := fxDiv ((sinc3 r1 bits : Int) * 16777215) (r1 ^ 3) - 8388608

/-- One FIR output of a bank over a delay line (R166): 48-bit accumulator, rounded and saturated to 24 bits. Of a sum beyond 48
bits the spec says nothing (R6, R166): DESIGN CHOICE of the model that the whole sum saturates once, at its end, and sets SAT
(log entry 209). -/
def Dsf.fir (c : Dsf) (bank : Bool) (stage taps : Nat) (line : List Int) : Int × Bool :=
  let acc := ((line.take taps).zipIdx.map fun e => e.1 * c.coef bank (e.2 + 128 * stage)).foldl (· + ·) 0
  let a := clampI (-(2 ^ 47)) (2 ^ 47 - 1) acc
  let v := fxDiv a (2 ^ 23)
  (sat24 v, decide (sat24 v ≠ v) || decide (a ≠ acc))

/-- The detectors on a sinc3 output (R170). -/
def State.detect (s : State) (n : Nat) (x : Int) : State :=
  let c := s.ch n
  if 0 < c.skip then s.modDsf n fun c => { c with skip := c.skip - 1 }
  else
    let m := min x.natAbs (2 ^ 24 - 1)
    let s := s.set (F.DSF_PEAK_PEAK n) (max m (s.get (F.DSF_PEAK_PEAK n)))
    let env := s.get (F.DSF_ENV_ENV n)
    let s := s.set (F.DSF_ENV_ENV n) (max m (env - env / 2 ^ s.get (F.DSF_DETCFG_DECAY n)))
    let k := c.rmsN + 1
    let sum := c.rmsSum + m * m
    let blk := 2 ^ (s.get (F.DSF_DETCFG_RMS_W n) + 4)
    if k < blk then s.modDsf n fun c => { c with rmsN := k, rmsSum := sum }
    else
      let r := isqrt (sum / k)
      let v := r + (if r * r * k ≠ sum && Config.rmsUp sum k then 1 else 0)
      (s.modDsf n fun c => { c with rmsN := 0, rmsSum := 0 }).set (F.DSF_RMS_RMS n) v

/-- One sinc3 period: its output, the detectors, the delay lines of the live banks. -/
def State.sincStep (s : State) (n : Nat) (bits : List Bool) : State :=
  let w := s.dcfg n
  let r1 := dsfR1 w
  let s := s.modDsf n fun c => { c with bits := (bits.reverse ++ c.bits).take (3 * r1) }
  let x := sincOut r1 (s.ch n).bits
  let s := s.detect n x
  let act := s.get (F.DSF_BANKSTAT_ACTIVE n)
  let ph := s.get (F.DSF_BANKSTAT_PHASE n)
  let live (i : Nat) : Bool := i == act || ph != 0
  s.modDsf n fun c => { c with lineA := c.lineA.zipIdx.map fun e => if live e.2 then (x :: e.1).take 64 else [] }

/-- One FIR A output of each live bank into stage B's delay lines. -/
def State.firA (s : State) (n : Nat) : State :=
  let w := s.dcfg n
  let c := s.ch n
  let r := c.lineA.zipIdx.map fun e => c.fir (e.2 == 1) 0 (dsfNA w) e.1
  let live := c.lineA.map fun l => !l.isEmpty
  let s := if (r.zip live).any fun e => e.1.2 && e.2 then s.setFlag (F.DSF_STAT_SAT n) true else s
  let nextLine (e : List Int × Nat) : List Int :=
    if live.getD e.2 false then ((r.getD e.2 (0, false)).1 :: e.1).take 128 else []
  s.modDsf n fun c => { c with lineB := c.lineB.zipIdx.map nextLine }

/-- The threshold state after a sample (R171). -/
def State.thrNext (s : State) (n st : Nat) (x : Int) : Nat :=
  let t24 (v : Nat) : Int := (BitVec.ofNat 24 v).toInt
  let hi := t24 (s.get (F.DSF_THRHI_THR n))
  let lo := t24 (s.get (F.DSF_THRLO_THR n))
  let hy : Int := s.get (F.DSF_THRCFG_HYST n)
  let enH := s.flag (F.DSF_THRCFG_EN_HI n)
  let enL := s.flag (F.DSF_THRCFG_EN_LO n)
  let enter := if enH && decide (hi < x) then 1 else if enL && decide (x < lo) then 2 else 0
  match st with
  | 1 => if x < hi - hy then (if enter = 2 then 2 else 0) else 1
  | 2 => if lo + hy < x then (if enter = 1 then 1 else 0) else 2
  | _ => enter

/-- Evaluate the thresholds on a sample (R171). -/
def State.threshold (s : State) (n : Nat) (x : Int) : State × Bool :=
  let st := s.get (F.DSF_STAT_THR n)
  let q := s.thrNext n st x
  let s := s.set (F.DSF_STAT_THR n) q
  if q ≠ st && q ≠ 0 then ((s.bump (F.DSF_CNT_THR_EVT n)).event (232 + n) (s.word (R.DSF_STAT n)) .crumb, true) else (s, false)

/-- The stream entries of a proofed sample (R49, R164): SCALE × SAMPLE / 2^23, one per STRM_DIV samples. -/
def State.dsfStream (s : State) (n : Nat) (x : Int) (ts : Nat) : State :=
  let k := (s.ch n).div + 1
  if k < max 1 (s.get (F.DSF_DETCFG_STRM_DIV n)) then s.modDsf n fun c => { c with div := k }
  else
    let s := s.modDsf n fun c => { c with div := 0 }
    let v := fmul (f32to64 (s.word (R.DSF_SCALE n))) (fofIntE x (-23))
    (List.range 127).foldl (fun t i =>
      let m := i + 1
      if t.flag (F.FE_SC_CFG_EN m) && t.get (F.FE_SC_CFG_SRC_KIND m) = 7 && t.get (F.FE_SC_CFG_SRC_PORT m) = n && t.domOn 7 then
        t.queueWrite m ⟨t.stamp, 0, t.get (F.FE_SC_CFG_TYPE m), 1, BitVec.ofNat 64 ts, [v, 0, 0, 0, 0], 0, 0⟩
      else t) s

/-- FADE's samples (R175). -/
def State.fadeLen (s : State) (n : Nat) : Nat := max 1 (min 256 (s.get (F.DSF_BANKSTAT_FADE n)))

/-- FADE ends: the target is active, the old bank idle and cleared, a queued request is taken (R175, R176). -/
def State.fadeEnd (s : State) (n : Nat) : State :=
  let tgt := s.get (F.DSF_BANKSTAT_FADING n)
  let s := ((s.set (F.DSF_BANKSTAT_ACTIVE n) tgt).set (F.DSF_BANKSTAT_PHASE n) 0).modDsf n fun c =>
    { c with fadeK := 0, lineA := modAt (1 - tgt) (fun _ => []) c.lineA, lineB := modAt (1 - tgt) (fun _ => []) c.lineB }
  if s.flag (F.DSF_BANKSTAT_QVALID n) then
    (s.setFlag (F.DSF_BANKSTAT_QVALID n) false).takeBank n (s.flag (F.DSF_BANKSTAT_QBANK n))
  else s

/-- GDT (R167), in half ns. -/
def dsfGdt (w : Word) : Nat := (3 * (dsfR1 w - 1) + dsfR1 w * (dsfNA w - 1) + dsfR1 w * dsfDA w * (dsfNB w - 1)) * 50
/-- The stamp of the sample of an instant in half ns: the instant less GDT, a short stamp (R12, R167). -/
def dsfStamp (w : Word) (nx : Nat) : Stamp := BitVec.ofInt 48 (((nx : Int) - dsfGdt w) / 2)

/-- The proofing count of an unproofed sample (R168): it runs out into PROOFED, and PRIME gives way to FADE (R175). -/
def State.proofCount (s : State) (n : Nat) : State :=
  let k := (s.ch n).left - 1
  let s := s.setLeft n k
  if k ≠ 0 then s
  else
    let s := ((s.setFlag (F.DSF_STAT_PROOFED n) true).set (F.DSF_STAT_THR n) 0).modDsf n fun c => { c with xe04 := false }
    if s.get (F.DSF_BANKSTAT_PHASE n) = 1 then s.set (F.DSF_BANKSTAT_PHASE n) 2 else s

/-- One output sample of a channel from the bits its ball and the ball of channel n XOR 1 carried in the output period, oldest
first (R164 to R176). -/
def State.dsfSample (s : State) (n : Nat) (own pair : List Bool) : State :=
  if !s.dsfOn n then s
  else
    let w := s.dcfg n
    let r1 := dsfR1 w
    let d := dsfD w
    let nx := (s.ch n).nextAt
    let s := (s.advanceTo (nx / 2)).pmu (152 + n)
    let bits := s.dsfBits n own pair
    let s := s.modDsf n fun c => { c with nextAt := nx + 100 * d, pat := c.pat + d }
    let s := (List.range (dsfDB w)).foldl (fun t b =>
      ((List.range (dsfDA w)).foldl (fun t a => t.sincStep n ((bits.drop ((b * dsfDA w + a) * r1)).take r1)) t).firA n) s
    let c := s.ch n
    let act := s.get (F.DSF_BANKSTAT_ACTIVE n)
    let out (i : Nat) : Int × Bool := c.fir (i == 1) 1 (dsfNB w) (c.lineB.getD i [])
    let old := out act
    let ph := s.get (F.DSF_BANKSTAT_PHASE n)
    let (y, sat) :=
      if ph = 2 then
        let new := out (1 - act)
        let f := s.fadeLen n
        let k := c.fadeK + 1
        (sat24 (fxDiv (old.1 * ((f - k : Nat) : Int) + new.1 * (k : Int)) f), old.2 || new.2)
      else old
    let s := if sat then s.setFlag (F.DSF_STAT_SAT n) true else s
    let ts := dsfStamp w nx
    let s := (s.setWord (R.DSF_TSL n) (ts.truncate 32)).modDsf n fun c => { c with tsHi := ts.extractLsb' 32 16 }
    let proofed : Bool := s.flag (F.DSF_STAT_PROOFED n)
    let s := (s.set (F.DSF_OUT_SAMPLE n) ((BitVec.ofInt 24 y).toNat)).setFlag (F.DSF_OUT_PROOFED n) proofed
    let s :=
      if proofed then ((s.threshold n y).1).dsfStream n y ts.toNat
      else if (s.ch n).xe04 && s.get F.SYS_ID_SREV = 0xA1 then
        let r := s.threshold n y
        if r.2 then r.1.modDsf n fun c => { c with xe04 := false } else r.1
      else s
    let s := if !proofed && !s.flag (F.DSF_STAT_STUCK n) then s.proofCount n else s
    let s := if ph = 2 then
        let k := (s.ch n).fadeK + 1
        if s.fadeLen n ≤ k then s.fadeEnd n else s.modDsf n fun c => { c with fadeK := k }
      else s
    -- a request not yet taken is taken at this sample: its count begins with the next one (log entry 247)
    match (s.ch n).req with
    | some b => (s.modDsf n fun c => { c with req := none }).takeBank n b
    | none => s

/-- DSF_OUTPUT_SAMPLE: a channel's output sample (R165). -/
def execDsfOutputSample (n : Fin 24) (own pair : List Bool) (s : State) : Host.Outcome State Fault Refusal := s.ends (s.dsfSample n.val own pair)

/-- PROOFING_DONE: the sample at which the proofing count runs out (R168). -/
def execProofingDone (n : Fin 24) (own pair : List Bool) (s : State) : Host.Outcome State Fault Refusal :=
  s.ends (if !s.flag (F.DSF_STAT_PROOFED n.val) && (s.ch n.val).left ≤ 1 then s.dsfSample n.val own pair else s)

/-- RMS_BLOCK_END: the sample in which an RMS block ends (R170). -/
def execRmsBlockEnd (n : Fin 24) (own pair : List Bool) (s : State) : Host.Outcome State Fault Refusal :=
  s.ends (
    let w := s.dcfg n.val
    if 2 ^ (s.get (F.DSF_DETCFG_RMS_W n.val) + 4) ≤ (s.ch n.val).rmsN + dsfDA w * dsfDB w then s.dsfSample n.val own pair else s)

/-- PRIME_END: the sample at which the priming count ends (R175). -/
def execPrimeEnd (n : Fin 24) (own pair : List Bool) (s : State) : Host.Outcome State Fault Refusal :=
  s.ends (if s.get (F.DSF_BANKSTAT_PHASE n.val) = 1 && (s.ch n.val).left ≤ 1 then s.dsfSample n.val own pair else s)

/-- FADE_END: sample F of a fade (R176). -/
def execFadeEnd (n : Fin 24) (own pair : List Bool) (s : State) : Host.Outcome State Fault Refusal :=
  s.ends (if s.get (F.DSF_BANKSTAT_PHASE n.val) = 2 && decide (s.fadeLen n.val ≤ (s.ch n.val).fadeK + 1) then s.dsfSample n.val own pair else s)

/-- DATA_STUCK: no transition for 1024 modulator clocks; the channel is unproofed (R168). -/
def execDataStuck (n : Fin 24) (s : State) : Host.Outcome State Fault Refusal :=
  s.ends (
    if s.dsfOn n.val && !s.flag (F.DSF_STAT_STUCK n.val) && s.get (F.DSF_CFG_SRC n.val) ≠ 2 then
      (s.setFlag (F.DSF_STAT_STUCK n.val) true).unproof n.val (s.ch n.val).left
    else s)

/-- DATA_ACTIVE: the line is active again after STUCK; a proofing count starts (R168). -/
def execDataActive (n : Fin 24) (s : State) : Host.Outcome State Fault Refusal :=
  s.ends (
    if s.dsfOn n.val && s.flag (F.DSF_STAT_STUCK n.val) then
      ((s.setFlag (F.DSF_STAT_STUCK n.val) false).proofAll n.val).modDsf n.val fun c => { c with skip := 3 }
    else s)

/-- DSF_TSL_READ: the stamp's low word; DSF_TSH takes its high word (R167). -/
def execDsfTslRead (n : Fin 24) (s : State) : Host.Outcome State Fault Refusal :=
  s.ends (s.inDomain 12 fun s => s.set (F.DSF_TSH_TS_HI n.val) (s.ch n.val).tsHi.toNat)

/-- A write of a threshold register (R171); while unproofed the threshold state is reset (erratum XE-04). -/
def dsfThrWrite (s : State) (d : Dom) (n a : Nat) (v : Word) : State × CpSt :=
  let r := s.plainWrite d a v
  if r.2 = .ok && r.1.dsfOn n && !r.1.flag (F.DSF_STAT_PROOFED n) then
    ((r.1.set (F.DSF_STAT_THR n) 0).modDsf n fun c => { c with xe04 := true }, .ok)
  else r

/-- A write of a bitstream output's registers (R178). -/
def boutWrite (s : State) (d : Dom) (a : Nat) (v : Word) : State × CpSt :=
  let r := s.plainWrite d a v
  if r.2 = .ok then (r.1.showBout, .ok) else r

end Sys2Proof.Machine
end

