-- ==== Sys2Proof/Machine/Lattice.lean ====
section
/-!
DEFINITION. The Kazso lattice and the safety core: check channels, exclusion sectors, lattice states and faults, authority
at the safe outputs, safe inputs, safe rate of turn, safe position envelope and requests (12_kazso_lattice R197 to R219,
R409, R410).
-/
namespace Sys2Proof.Machine

/-- Change the lattice's state. -/
def State.modKz (s : State) (f : Kz → Kz) : State := { s with kz := f s.kz }
/-- A check channel's hidden state. -/
def State.kch (s : State) (c : Nat) : KzCh := s.kz.chans.getD c .init
/-- Change it. -/
def State.modKch (s : State) (c : Nat) (f : KzCh → KzCh) : State := s.modKz fun k => { k with chans := padMod .init c f k.chans }

/-- The lattice state: 0 OFF, 1 ARMED, 2 DEGRADED, 3 WITHDRAWN. -/
def State.kzState (s : State) : Nat := s.get F.KZ_STAT_STATE
/-- ARMED or DEGRADED. -/
def State.kzUp (s : State) : Bool := s.kzState == 1 || s.kzState == 2

/-- KIND of a channel (R202); 3 is read as 2. -/
def State.kzKind (s : State) (c : Nat) : Nat := min 2 (s.get (F.KZ_CH_KIND c))

/-! Fixed point (R203). -/

/-- A binary angle: 2π/65,536, to nearest. -/
def binAngle (a : Word64) : Nat := (ftoInt .nearest (fdiv (fmul a (k64 65536 1)) twoPi64) % 65536).toNat

/-- Does a sector, clockwise from START to END with both ends, hold a binary angle? -/
def inSector (a st en : Nat) : Bool := decide ((a + 65536 - st) % 65536 ≤ (en + 65536 - st) % 65536)

/-- |T| ≤ limit in fractions of FREF: |T| rounded up, the limit rounded down; a |T| above FREF fails. -/
def latLe (t fref lim : Word) : Bool :=
  match ratOf32 t, ratOf32 fref with
  | some (tn, td), some (fn, fd) =>
    let tn := tn.natAbs
    -- |T| above FREF
    if (fn : Int) * td < (tn : Int) * fd then false
    else
      match ratOf32 lim with
      | none => lim = 0x7F800000#32
      | some (ln, ld) =>
        if ln < 0 then false
        else
          let f := fn.natAbs
          if f = 0 then true
          else decide (ceilDivK (tn * fd * 65536) (td * f) ≤ (ln.natAbs * fd * 65536) / (ld * f))
  | _, _ => false
where
  ceilDivK (a b : Nat) : Nat := (a + b - 1) / b

/-! Sectors (R206, R207). -/

/-- Is a safe input active (R206, R215)? -/
def State.siActive (s : State) (i : Nat) : Bool :=
  let p := i / 2
  let m := s.get (F.KZ_SI_MODE p)
  if m = 1 || m = 2 then (s.get F.KZ_SISTAT_PACT / 2 ^ p) % 2 == 1 else (s.get F.KZ_SISTAT_LEVEL / 2 ^ i) % 2 == 1

/-- Is the condition of sector k of channel c met (R206)? -/
def State.sectCond (s : State) (c k : Nat) : Bool :=
  let b := (s.word (R.KZ_COND c)).toNat / 256 ^ k % 256
  let si := (b / 4) % 16
  match b % 4 with
  | 0 => false
  | 1 => true
  | 2 => s.siActive si
  | _ => !s.siActive si

/-- Has a channel a sector whose COND is not 0? -/
def State.hasSect (s : State) (c : Nat) : Bool := (List.range 4).any fun k => (s.word (R.KZ_COND c)).toNat / 256 ^ k % 4 != 0

/-- An SSE channel (R409). -/
def State.sseCh (s : State) (c : Nat) : Bool :=
  s.flag (F.KZ_CH_EN c) && s.kzKind c != 2 && s.flag (F.KZ_CH_OUTCHK c) && s.hasSect c

/-- Lies a binary angle in one of a set of a channel's sectors (a mask)? -/
def State.inSectors (s : State) (c mask a : Nat) : Bool :=
  (List.range 4).any fun k => (mask / 2 ^ k) % 2 == 1 && inSector a (s.get (F.KZ_SECT_START c k)) (s.get (F.KZ_SECT_END c k))

/-! The staging and entry check (R204, R205). -/

/-- The check of a command against a channel (R204). -/
def State.latticeOk (s : State) (c : Nat) (v0 v1 : Word) : Bool :=
  if !fisFin (f32to64 v0) || !fisFin (f32to64 v1) then false
  else if !s.flag (F.KZ_CH_EN c) then true
  else
    let fref := s.word (R.KZ_FREF c)
    let dir : Option Nat := match s.kzKind c with
      | 0 => some (binAngle (f32to64 v1))
      | 1 =>
        let ax := s.get (F.KZ_OTHR_AZ_OFS c)
        some (if flt (f32to64 v0) 0 then (ax + 32768) % 65536 else ax)
      | _ => none
    latLe v0 fref (s.word (R.KZ_SLT_NOW c))
      && (latLe v0 fref (s.word (R.KZ_SSE_THR c)) || match dir with
        | none => true
        | some a => !s.inSectors c (s.get (F.KZ_CST_ACTIVE c)) a)

/-- The staging check of an own output (R204): a refusal counts and writes a crumb. -/
def State.stageCheck (s : State) (c : Nat) (v0 v1 : Word) : State × Bool :=
  if s.latticeOk c v0 v1 then (s, true)
  else ((s.bump (F.KZ_CCNT_REFUSE c)).event 3 (BitVec.ofNat 32 c) .crumb, false)

/-- The entry check of an accepted frame's value (R205): one that fails is not written. -/
def State.entryCheck (s : State) (c : Nat) (v0 v1 : Word) : State × Bool :=
  if s.latticeOk c v0 v1 then (s, true) else (s.bump (F.KZ_CCNT_ENTRY_REF c), false)

/-! Entitlement and switches (R197 to R199). -/

/-- Is the unit entitled (R198)? -/
def State.entitled (s : State) : Bool :=
  if s.isMaster then
    let h := s.haState
    (h == 2 || h == 3) && s.flag F.SK_OUT_FL_AUTH_REQ || h == 1 && s.ha.ckAuth
  else match s.kz.authAt with
    | some t => s.kz.lastAuth && decide (s.now < t + s.get F.KZ_AUTH_AUTH_TMO_MS * 1000000)
    | none => false

/-- The conditions of R198 for output k: the state, no trip naming it, no inhibition, no readback fault on it. -/
def State.outOk (s : State) (k : Nat) : Bool :=
  s.kzUp && (s.get F.KZ_CFG_SO_EN / 2 ^ k) % 2 == 1 && (s.kz.rbOut / 2 ^ k) % 2 == 0
    && !((List.range 24).any fun c => (s.get F.KZ_TRIP_TRIP / 2 ^ c) % 2 == 1 && (s.get (F.KZ_CH_SO_MASK c) / 2 ^ k) % 2 == 1)
    && !((List.range 8).any fun p => (s.get F.KZ_SISTAT_PACT / 2 ^ p) % 2 == 1 && (s.get (F.KZ_SI_INH_MASK p) / 2 ^ k) % 2 == 1)

/-- Drive the switches as R198 requires; an output whose level changes is reported. -/
def State.switches (s : State) : State :=
  let ent := s.entitled && s.domOn 4 && s.flag F.KZ_STAT_SC_ALIVE
  let l := (List.range 16).map s.outOk
  let c := l.map fun b => b && ent
  let old := List.zipWith (fun a b => a && b) s.kz.swL s.kz.swC
  let new := List.zipWith (fun a b => a && b) l c
  let s := s.modKz fun k => { k with swL := l, swC := c }
  (List.range 16).foldl (fun t k =>
    let a := old.getD k false
    let b := new.getD k false
    if a = b then t else t.emit (.pin 4 k (if b then 1 else 0))) s

/-! Lattice states and faults (R200, R201). -/

/-- A change of lattice state: the source and a loaf. -/
def State.kzGo (s : State) (st : Nat) : State :=
  if s.kzState = st then s
  else (s.set F.KZ_STAT_STATE st).event 0 ((F.KZ_STAT_STATE).into st (s.word R.KZ_STAT)) .loaf

/-- SLT_NOW and the output limit follow the state (R207): a fall on entry to DEGRADED starts the grace (R208). -/
def State.sltNow (s : State) : State :=
  let deg := s.kzState == 2
  (List.range 24).foldl (fun t c =>
    if !t.flag (F.KZ_CH_EN c) then t.setWord (R.KZ_SLT_NOW c) 0x7F800000#32
    else t.setWord (R.KZ_SLT_NOW c) (if deg then t.word (R.KZ_SLT_DEG c) else t.word (R.KZ_SLT c))) s

/-! Safe inputs (R206, R215). -/

/-- The pairs follow the levels and their modes: active, or discrepant from now on. -/
def State.siPairs (s : State) : State :=
  let lv := s.get F.KZ_SISTAT_LEVEL
  let bit (i : Nat) : Bool := (lv / 2 ^ i) % 2 == 1
  let now := s.now
  (List.range 8).foldl (fun t p =>
    let a := bit (2 * p)
    let b := bit (2 * p + 1)
    let m := t.get (F.KZ_SI_MODE p)
    let disc := if m = 1 then a != b else if m = 2 then a == b else false
    let act := if m = 1 then a && b else if m = 2 then a && !b else false
    let pa := t.get F.KZ_SISTAT_PACT
    let t := t.set F.KZ_SISTAT_PACT (pa - (if (pa / 2 ^ p) % 2 = 1 then 2 ^ p else 0) + (if act then 2 ^ p else 0))
    let pd := t.get F.KZ_SISTAT_PDISC
    let t := if disc then t else t.set F.KZ_SISTAT_PDISC (pd - (if (pd / 2 ^ p) % 2 = 1 then 2 ^ p else 0))
    t.modKz fun k => { k with discAt := padMod none p (fun o => if disc then some (o.getD now) else none) k.discAt }) s

/-! Parameters (R218). -/

/-- The safety core writes the safety parameter block into the KZ registers, in OFF or WITHDRAWN (R218). -/
def State.paramLoad (s : State) : State :=
  if s.domOn 4 && s.domOn 5 && (s.kzState = 0 || s.kzState = 3) then
    let b := s.pwr.image.kz
    (((b.foldl (fun t e => (t.plainWrite .safe e.1 e.2).1) s).modKz fun k => { k with block := b }).siPairs).sltNow
  else s

/-- A changed block that waited is written once the state allows it (R218). -/
def State.paramDue (s : State) : State := if s.kz.block = s.pwr.image.kz then s else s.paramLoad

/-- Entry to WITHDRAWN with its cause. -/
def State.kzWithdraw (s : State) (why : Nat) : State :=
  if s.kzUp then (((s.set F.KZ_STAT_WHY why).kzGo 3).paramDue).switches else s

/-! Arming. -/

/-- The frame of off-pulses of an instant (R216). -/
def optFrame (t : Nat) : Nat := t / 250000000

/-- The energised outputs that are tested, as a mask (R216). -/
def State.optMask (s : State) : Nat :=
  ((List.range 16).map fun k =>
    if s.kz.swL.getD k false && s.kz.swC.getD k false && (s.get F.KZ_OPT_OPT_EN / 2 ^ k) % 2 = 1 then 2 ^ k else 0).sum

/-- ARMED is entered from rest (R200): the switches follow, and the outputs they energise must pass in the next frame (R216; log
entry 248). -/
def State.kzArm (s : State) : State :=
  let s := ((s.kzGo 1).sltNow).switches
  let f := optFrame s.now + 1
  let m := s.optMask
  s.modKz fun k => { k with optFirst := if m = 0 then none else some (f, m) }

/-- DEGRADED begins (R200, R208): SLT_NOW or the output limit falls. -/
def State.kzDegrade (s : State) : State :=
  let now := s.now
  let s := (s.kzGo 2).modKz fun k => { k with degAt := now }
  let s := s.set F.KZ_DEG_DEG_MS 0
  let s := (List.range 24).foldl (fun t c =>
    let fall := decide (t.get (F.KZ_LIM_OUT_DEG c) < t.get (F.KZ_LIM_OUT_LIM c))
      || flt (f32to64 (t.word (R.KZ_SLT_DEG c))) (f32to64 (t.word (R.KZ_SLT c)))
    if t.flag (F.KZ_CH_EN c) && fall && t.get F.KZ_TIME_GRACE_MS ≠ 0 then
      (t.modKch c fun k => { k with sltGraceAt := some now }).setFlag (F.KZ_CST_SLT_GRACE c) true
    else t) s
  s.sltNow

/-- DEGRADED ends in ARMED (R200): a loosening applies at once. -/
def State.kzRecover (s : State) : State :=
  let s := (s.kzGo 1).set F.KZ_DEG_DEG_MS 0
  let s := (List.range 24).foldl (fun t c =>
    (t.modKch c fun k => { k with sltGraceAt := none }).setFlag (F.KZ_CST_SLT_GRACE c) false) s
  s.sltNow

/-- The active faults become a mask (R201): new ones are SEEN, raise the source and write a loaf, and take ARMED to
DEGRADED; SCWD takes ARMED or DEGRADED to WITHDRAWN. -/
def State.setFaults (s : State) (m : Nat) : State :=
  let old := s.get F.KZ_FAULT_ACTIVE
  let new := m &&& (old ^^^ 1023)
  let now := s.now
  let s := (s.set F.KZ_FAULT_ACTIVE m).set F.KZ_FAULT_SEEN (s.get F.KZ_FAULT_SEEN ||| new)
  let s := if m = 0 && old ≠ 0 then s.modKz fun k => { k with clrAt := now } else s
  if new = 0 then s
  else
    let s := s.event 2 (BitVec.ofNat 32 m) .loaf
    if (new / 256) % 2 = 1 then s.kzWithdraw 5
    else if s.kzState = 1 then s.kzDegrade else s

/-- Latch a fault. -/
def State.kzLatch (s : State) (b : Nat) : State :=
  let s := s.modKz fun k => { k with latched := k.latched ||| 2 ^ b }
  s.setFaults (s.get F.KZ_FAULT_ACTIVE ||| 2 ^ b)

/-- PARAM: a KZ parameter register differs from the safety parameter block that was written (R218). -/
def State.paramBad (s : State) : Bool := s.kz.block.any fun e => s.word e.1 != e.2

/-- Is SPE available: on the safety core of a MASTER in SEIZING, ACTIVE or ISOLATED, SPE_EN 1, QUAL 0 to 2, ENV_VALID 1 (R213)? -/
def State.speOk (s : State) : Bool :=
  let h := s.haState
  s.domOn 4 && s.isMaster && 1 ≤ h && h ≤ 3 && s.flag F.KZ_AUTH_SPE_EN && decide (s.get F.FE_OUT_Q_QUAL ≤ 2) && s.flag F.SK_OUT_FL_ENV_VALID

/-- SPE_AVAIL shows whether SPE is available; while it is not, its count is held at 0 (R213). -/
def State.speGate (s : State) : State :=
  if s.speOk then s.setFlag F.KZ_STAT_SPE_AVAIL true
  else ((s.setFlag F.KZ_STAT_SPE_AVAIL false).setFlag F.KZ_FUNC_SPE_V false).modKz fun k => { k with speN := 0 }

/-- Is a trip condition of SRT or SPE held (R200)? -/
def State.tripCond (s : State) : Bool :=
  let n := max 1 (s.get F.KZ_PERS_SRT_MS)
  s.flag F.KZ_SRT_SRT_EN && (decide (n ≤ s.kz.srtL) || decide (n ≤ s.kz.srtC))
    || s.speOk && decide (max 1 (s.get F.KZ_AUTH_SPE_N) ≤ s.kz.speN)

/-- ARM_READY (R200). -/
def State.armReady (s : State) : Bool :=
  s.flag F.SYS_PERSONA_MATCH && s.flag F.KZ_STAT_SC_ALIVE && s.get F.KZ_FAULT_ACTIVE == 0 && !s.tripCond && decide (1000000 ≤ s.kz.lowNs)

/-- AUTOARM acts from OFF (R200). -/
def State.autoArm (s : State) : State :=
  let s := s.setFlag F.KZ_STAT_ARM_READY s.armReady
  if s.kzState = 0 && s.flag F.KZ_CFG_AUTOARM && s.armReady then s.kzArm else s

/-- DEG_MAX_S in ns. -/
def State.degMax (s : State) : Nat := max 1 (min 300 (s.get F.KZ_CFG_DEG_MAX_S)) * 1000000000

/-- The timed transitions of DEGRADED that are due (R200); WITHDRAWN wins. -/
def State.kzTimers (s : State) : State :=
  if s.kzState ≠ 2 then s
  else
    let s := s.set F.KZ_DEG_DEG_MS (min (2 ^ 19 - 1) ((s.now - s.kz.degAt) / 1000000))
    if s.kz.degAt + s.degMax ≤ s.now then s.kzWithdraw 1
    else if s.get F.KZ_FAULT_ACTIVE = 0 && decide (s.kz.clrAt + s.get F.KZ_TIME_CLR_MS * 1000000 ≤ s.now) then s.kzRecover
    else s

/-! Output checks (R209 to R211, R410). -/

/-- A thrust output: its value and full scale, by the tap of R210, with its loop. -/
def State.tap (s : State) (c : Nat) : Int × Nat × Option Nat :=
  let k := s.get (F.KZ_CH_OUT_IDX c)
  if s.flag (F.KZ_CH_OUT_SRC c) then ((s.loop k).u, 2 ^ 31, some k)
  else match s.boutLoop k with
    | some n => ((s.loop n).u, 2 ^ s.get (F.SRV_LCFG_QF n), some n)
    | none => if s.flag (F.DSF_BOUT_CFG_EN k) then (((s.word (R.DSF_BOUT_VAL k)).truncate 24 : BitVec 24).toInt, 2 ^ 23, none) else (0, 1, none)

/-- Is a magnitude above a limit in 65,536ths of full scale? -/
def above (u : Int) (fs lim : Nat) : Bool := decide (lim * fs < u.natAbs * 65536)

/-- The sectors the output checks use: active and not in grace (R208). -/
def State.checkSect (s : State) (c : Nat) : Nat := s.get (F.KZ_CST_ACTIVE c) &&& (s.get (F.KZ_CST_GRACE c) ^^^ 15)

/-! The lattice's encoder receivers (R203). -/

/-- Where a pair of levels stands in the four-fold sequence. -/
def quadAt (p : Bool × Bool) : Nat := match p with
  | (false, false) => 0
  | (true, false) => 1
  | (true, true) => 2
  | (false, true) => 3

/-- One pair of levels: a count up or down, or with both changed an illegal transition (log entry 212). -/
def KzCh.quad (k : KzCh) (p : Bool × Bool) : KzCh × Bool :=
  match k.ab with
  | none => ({ k with ab := some p }, true)
  | some q =>
    match (quadAt p + 4 - quadAt q) % 4 with
    | 0 => (k, true)
    | 1 => ({ k with ab := some p, pos := (k.pos + 1) % 2 ^ 24 }, true)
    | 3 => ({ k with ab := some p, pos := (k.pos + 2 ^ 24 - 1) % 2 ^ 24 }, true)
    | _ => ({ k with ab := some p }, false)

/-- SSI data bits, the first the top one, as a position: binary or Gray. -/
def ssiPos (gray : Bool) (bits : List Bool) : Nat :=
  let w := bits.foldl (fun a b => 2 * a + (if b then 1 else 0)) 0
  if gray then grayDecode w bits.length 0 else w

/-- The receiver of channel c takes what its balls brought: an illegal transition makes it invalid in this evaluation, and an
SSI receiver has the position of its latest frame. -/
def State.latReceive (s : State) (x : LatIn) (c : Nat) : State :=
  let e := x.enc.getD (s.get (F.KZ_CH_ENC c)) ⟨[], none⟩
  if 12 ≤ s.get (F.KZ_CH_ENC c) then s.modKch c fun k => { k with posOk := false }
  else if s.flag (F.KZ_ENC_EMODE c) then
    match e.frame with
    | some b =>
      let n := max 8 (min 32 (s.get (F.KZ_ENC_BITS c)))
      s.modKch c fun k => { k with pos := ssiPos (s.flag (F.KZ_ENC_GRAY c)) b, posOk := b.length == n }
    | none => s
  else
    let r := e.ab.foldl (fun a p => let q := a.1.quad p; (q.1, a.2 && q.2)) (s.kch c, true)
    s.modKch c fun _ => { r.1 with posOk := r.2 }

/-- The output direction the lattice sees, when it sees one (R202). -/
def State.latAz (s : State) (c : Nat) (u : Int) : Option Nat :=
  let ofs := s.get (F.KZ_OTHR_AZ_OFS c)
  match s.kzKind c with
  | 0 =>
    if s.get (F.KZ_CH_ENC c) = 15 then none
    else if (s.kch c).posOk then
      let l := max 8 (min 24 (s.get (F.KZ_ENC_CPR_LOG2 c)))
      some (((s.kch c).pos % 2 ^ l * 65536 / 2 ^ l + 65536 - ofs) % 65536)
    else none
  | _ => some (if u < 0 then (ofs + 32768) % 65536 else ofs)

/-- The azimuth loop of a channel: the loop that takes VAL1 of command entry c. -/
def State.azLoop (s : State) (c : Nat) : Option Nat :=
  (List.range 24).find? fun n => s.srvState n != 0 && s.get (F.SRV_LCFG_SP_SRC n) == 1 && s.get (F.SRV_LCFG_CMD_IDX n) == c
    && s.flag (F.SRV_LCFG_CMD_COMP n)

/-- The output direction the safety core sees. -/
def State.coreAz (s : State) (c : Nat) (u : Int) : Option Nat :=
  let ofs := s.get (F.KZ_OTHR_AZ_OFS c)
  match s.kzKind c with
  | 0 => match s.azLoop c with
    | some n => if s.flag (F.SRV_LSTAT_FB_OK n) then some (binAngle (fofIntE (s.loop n).fb (-(s.get (F.SRV_LCFG_QF n) : Int)))) else none
    | none => none
  | _ => some (if u < 0 then (ofs + 32768) % 65536 else ofs)

/-- SSE violation with a direction seen or not (R209, R410). -/
def State.sseBad (s : State) (c : Nat) (u : Int) (fs : Nat) (dir : Option Nat) : Bool :=
  s.kzKind c != 2 && above u fs (s.get (F.KZ_OTHR_SSE_OTHR c)) && match dir with
    | some a => s.inSectors c (s.checkSect c) a
    | none => s.checkSect c != 0

/-- A channel trips (R211). -/
def State.kzTrip (s : State) (c : Nat) : State :=
  if (s.get F.KZ_TRIP_TRIP / 2 ^ c) % 2 = 1 then s
  else (s.set F.KZ_TRIP_TRIP (s.get F.KZ_TRIP_TRIP + 2 ^ c)).event 1 (BitVec.ofNat 32 (s.get F.KZ_TRIP_TRIP + 2 ^ c)) .loaf

/-- The output limit (R208, R209): OUT_LIM, in DEGRADED OUT_DEG, and in grace the previous limit unless the change loosens. -/
def State.outLim (s : State) (c : Nat) : Nat :=
  let a := s.get (F.KZ_LIM_OUT_LIM c)
  let b := s.get (F.KZ_LIM_OUT_DEG c)
  if s.kzState ≠ 2 then a else if s.flag (F.KZ_CST_SLT_GRACE c) then max a b else b

/-- One channel's output checks in an evaluation; whether the two verdicts differ. -/
def State.checkOut (s : State) (c : Nat) : State × Bool :=
  if !(s.flag (F.KZ_CH_EN c) && s.flag (F.KZ_CH_OUTCHK c)) then
    (s.modKch c fun k => { k with sltL := 0, sltC := 0, sseL := 0, sseC := 0 }, false)
  else
    let (u, fs, lp) := s.tap c
    let uc : Int := match lp with | some n => (s.word (R.SRV_U n)).toInt | none => 0
    let lim := s.outLim c
    let az := s.latAz c u
    let s := s.set (F.KZ_CST_AZ c) (az.getD (s.get (F.KZ_CST_AZ c)))
    let v1 := above u fs lim
    let v2 := above uc fs lim
    let e1 := s.sseBad c u fs az
    let e2 := s.sseBad c uc fs (s.coreAz c uc)
    let cnt (b : Bool) (n : Nat) : Nat := if b then n + 10000 else 0
    let s := s.modKch c fun k => { k with sltL := cnt v1 k.sltL, sltC := cnt v2 k.sltC, sseL := cnt e1 k.sseL, sseC := cnt e2 k.sseC }
    let bit (w b : Bool) : Nat := if w || b then 2 ^ c else 0
    let s := s.set F.KZ_SLTV_V (s.get F.KZ_SLTV_V ||| bit v1 v2)
    let s := s.set F.KZ_SSEV_V (s.get F.KZ_SSEV_V ||| bit e1 e2)
    let k := s.kch c
    let tl := max 1 (s.get F.KZ_PERS_SLT_MS) * 1000000
    let te := max 1 (s.get F.KZ_PERS_SSE_MS) * 1000000
    let s := if tl ≤ max k.sltL k.sltC || te ≤ max k.sseL k.sseC then s.kzTrip c else s
    (s, v1 != v2 || e1 != e2)

/-- The sectors of a channel follow their conditions (R206, R208). -/
def State.kzSectors (s : State) (c : Nat) : State :=
  if !s.flag (F.KZ_CH_EN c) then (s.set (F.KZ_CST_ACTIVE c) 0).set (F.KZ_CST_GRACE c) 0
  else
    let now := s.now
    let grace := s.get F.KZ_TIME_GRACE_MS * 1000000
    (List.range 4).foldl (fun t k =>
      let was := (t.get (F.KZ_CST_ACTIVE c) / 2 ^ k) % 2 == 1
      let is' := t.sectCond c k
      let act := t.get (F.KZ_CST_ACTIVE c) - (if was then 2 ^ k else 0) + (if is' then 2 ^ k else 0)
      let t := t.set (F.KZ_CST_ACTIVE c) act
      let t := if is' && !was then t.modKch c fun q => { q with graceAt := padMod none k (fun _ => some now) q.graceAt } else t
      let inG := is' && match (t.kch c).graceAt.getD k none with
        | some a => decide (now < a + grace)
        | none => false
      let g := t.get (F.KZ_CST_GRACE c)
      t.set (F.KZ_CST_GRACE c) (g - (if (g / 2 ^ k) % 2 = 1 then 2 ^ k else 0) + (if inG then 2 ^ k else 0))) s

/-- The output limit's grace ends when due (R208). -/
def State.kzSltGrace (s : State) (c : Nat) : State :=
  match (s.kch c).sltGraceAt with
  | some a =>
    if a + s.get F.KZ_TIME_GRACE_MS * 1000000 ≤ s.now then
      (s.modKch c fun k => { k with sltGraceAt := none }).setFlag (F.KZ_CST_SLT_GRACE c) false
    else s
  | none => s

/-! The rate input (R201, R212). -/

/-- One bit of the ball on the modulator clock: sinc3 with R1 = 256, the clocks since a transition and beyond ±0.95 of full
scale. -/
def Kz.rateBit (k : Kz) (b : Bool) : Kz :=
  let bits := (b :: k.rBits).take 766
  let still := if k.rBits.head? = some b then k.rStill + 1 else 0
  if k.rPhase < 255 then { k with rBits := bits, rStill := still, rPhase := k.rPhase + 1 }
  else
    let v := sincOut 256 bits
    { k with rBits := bits, rStill := still, rPhase := 0, rSum := k.rSum + v, rN := k.rN + 1,
             rOver := if 95 * 2 ^ 23 < 100 * v.natAbs then k.rOver + 256 else 0 }

/-- The bits since the last evaluation, while SRT_EN is 1 (log entry 125). -/
def State.rateIn (s : State) (x : LatIn) : State :=
  if s.flag F.KZ_SRT_SRT_EN then s.modKz fun k => x.rate.foldl Kz.rateBit k
  else s.modKz fun k => { k with rBits := [], rPhase := 0, rStill := 0, rOver := 0, rSum := 0, rN := 0 }

/-- RATEIN's condition (R201): no transition for 1024 modulator clocks, or beyond ±0.95 of full scale for 1 ms. -/
def Kz.rateBad (k : Kz) : Bool := decide (1024 ≤ k.rStill) || decide (20000 ≤ k.rOver)

/-- The mean of a block's samples (R212; log entry 211). -/
def Kz.rateMean (k : Kz) : Int := if k.rN = 0 then k.rAvg else fxDiv k.rSum k.rN

/-- Readback (R201): an output that reads back other than its switches command for 50 µs latches READBACK and opens. -/
def State.kzReadback (s : State) (x : LatIn) : State :=
  let cmd (k : Nat) : Bool := s.kz.swL.getD k false && s.kz.swC.getD k false
  let ns := (List.range 16).map fun k => if x.rb.getLsbD k != cmd k then s.kz.rbNs.getD k 0 + 10000 else 0
  let bad := ((List.range 16).map fun k => if 50000 ≤ ns.getD k 0 then 2 ^ k else 0).foldl (· + ·) 0
  let low := x.rb.toNat &&& s.get F.KZ_CFG_SO_EN == 0
  let s := (s.set F.KZ_STAT_SO_ON x.rb.toNat).modKz fun k => { k with rbNs := ns, lowNs := if low then k.lowNs + 10000 else 0 }
  if bad = 0 then s else (s.modKz fun k => { k with rbOut := k.rbOut ||| bad }).kzLatch 5

/-- The faults active at an evaluation (R201). -/
def State.kzFaults (s : State) : Nat :=
  let b (c : Bool) (k : Nat) : Nat := if c then 2 ^ k else 0
  let enc := (List.range 24).any fun c => decide (10 ≤ (s.kch c).encBad)
  let m := b s.kz.single 0 + b (decide (max 1 (s.get F.KZ_PERS_CMP_MS) * 1000000 ≤ s.kz.cmpNs)) 1 + b enc 2
    + b (s.flag F.KZ_SRT_SRT_EN && s.kz.rateBad) 3 + b (s.get F.KZ_SISTAT_PDISC != 0) 4
  m ||| s.kz.latched

/-- The first frame after arming is over: an output that is still energised and tested and has not passed raises OPT (R216). -/
def State.optJudge (s : State) : State :=
  match s.kz.optFirst with
  | none => s
  | some (f, m) =>
    if optFrame s.now ≤ f then s
    else
      let s := s.modKz fun k => { k with optFirst := none }
      if m &&& s.optMask = 0 then s else s.kzLatch 6

/-- One evaluation of the lattice, every 10 µs (R200, R209). -/
def State.latticeEval (s : State) (x : LatIn) : State :=
  if !s.domOn 5 then s
  else
    let s := ((((s.advanceTo (nextMultiple s.now 10000)).paramDue).siPairs).speGate).rateIn x
    let s := (List.range 24).foldl (fun t c => ((t.latReceive x c).kzSectors c).kzSltGrace c) s
    let s := s.sltNow
    let s := (s.setWord R.KZ_SLTV 0).setWord R.KZ_SSEV 0
    let r := (List.range 24).foldl (fun (acc : State × Bool) c =>
      let q := acc.1.checkOut c
      (q.1, acc.2 || q.2)) (s, false)
    let s := r.1
    let diff := r.2 || s.kz.srtDiff || x.siDiff
    let s := s.modKz fun k => { k with cmpNs := if diff then k.cmpNs + 10000 else 0 }
    let s := (List.range 24).foldl (fun t c =>
      let bad := t.sseCh c && t.kzKind c == 0 && (t.latAz c 0).isNone
      t.modKch c fun k => { k with encBad := if bad then k.encBad + 1 else 0 }) s
    let s := (s.kzReadback x).optJudge
    let s := if s.paramBad && (s.kz.latched / 512) % 2 = 0 then s.kzLatch 9 else s
    let s := if s.flag F.KZ_STAT_SC_ALIVE && decide (s.kz.scAt + 300000 ≤ s.now) then s.kzLatch 8 else s
    let s := s.setFaults s.kzFaults
    let s := if s.tripCond then s.kzWithdraw (if max 1 (s.get F.KZ_PERS_SRT_MS) ≤ max s.kz.srtL s.kz.srtC then 2 else 3) else s
    ((s.kzTimers).autoArm).switches

/-- LATTICE_EVALUATION: the 10 µs evaluation (R209). -/
def execLatticeEvaluation (x : LatIn) (s : State) : Host.Outcome State Fault Refusal := s.ends (s.latticeEval x)

/-- CHANNEL_TRIP: the evaluation that completes SLT_MS or SSE_MS of a violation (R211). -/
def execChannelTrip (c : Fin 24) (x : LatIn) (s : State) : Host.Outcome State Fault Refusal :=
  s.ends (
    let k := s.kch c.val
    if max 1 (s.get F.KZ_PERS_SLT_MS) * 1000000 ≤ max k.sltL k.sltC + 10000
        || max 1 (s.get F.KZ_PERS_SSE_MS) * 1000000 ≤ max k.sseL k.sseC + 10000 then s.latticeEval x else s)

/-- DEGRADED_TIMEOUT: the degraded timer reaches DEG_MAX_S (R200). -/
def execDegradedTimeout (s : State) : Host.Outcome State Fault Refusal :=
  s.ends (if s.kzState = 2 then (s.advanceTo (s.kz.degAt + s.degMax)).kzTimers else s)

/-- DEGRADED_CLEAR: no fault active for CLR_MS (R200). -/
def execDegradedClear (s : State) : Host.Outcome State Fault Refusal :=
  s.ends (if s.kzState = 2 && s.get F.KZ_FAULT_ACTIVE = 0 then (s.advanceTo (s.kz.clrAt + s.get F.KZ_TIME_CLR_MS * 1000000)).kzTimers else s)

/-- AUTOARM: ARM_READY in OFF with AUTOARM (R200). -/
def execAutoarm (s : State) : Host.Outcome State Fault Refusal := s.ends (if s.domOn 5 then s.autoArm else s)

/-! Requests (R219). -/

/-- The judgement of a request. -/
def State.safeJudge (s : State) (req ch : Nat) : State × CpSt :=
  if !s.domOn 4 || !s.domOn 5 then ((s.setFlag F.SYS_SAFE_RES_DONE false).setFlag F.SYS_SAFE_RES_REFUSED false, .timeout)
  else
    let st := s.kzState
    let rest := st == 0 || st == 3
    let b (c : Nat) (n : Nat) : Bool := (n / 2 ^ c) % 2 == 1
    let ok := match req with
      | 1 => rest && s.armReady
      | 2 => true
      | 3 => b ch (s.get F.KZ_TRIP_TRIP) && !b ch (s.get F.KZ_SLTV_V) && !b ch (s.get F.KZ_SSEV_V)
      | 4 => rest
      | _ => false
    let s := (s.setFlag F.SYS_SAFE_RES_DONE true).setFlag F.SYS_SAFE_RES_REFUSED (!ok)
    if !ok then (s, .safetyRefused)
    else
      let s := match req with
        | 1 => s.kzArm
        | 2 => s.kzWithdraw 4
        | 3 => s.set F.KZ_TRIP_TRIP (s.get F.KZ_TRIP_TRIP - 2 ^ ch)
        | _ =>
          -- latched faults whose condition no longer holds
          let rb := s.kz.rbNs.any fun n => decide (50000 ≤ n)
          let sc := s.flag F.KZ_STAT_SC_ALIVE && decide (s.kz.scAt + 300000 ≤ s.now)
          let keep := (if rb then 32 else 0) + (if sc then 256 else 0) + (if s.paramBad then 512 else 0)
          let kept := s.kz.latched &&& keep
          let s := s.modKz fun k => { k with latched := kept, rbOut := if rb then k.rbOut else 0 }
          s.setFaults ((s.get F.KZ_FAULT_ACTIVE &&& 31) ||| kept)
      (s.switches, .ok)

/-- A write of SYS_SAFE_REQ (R219). -/
def safeReqWrite (s : State) (d : Dom) (v : Word) : State × CpSt :=
  s.writeGuard d R.SYS_SAFE_REQ fun s => s.keyGuard v fun s => s.safeJudge (F.SYS_SAFE_REQ_REQ.of v) (F.SYS_SAFE_REQ_CH.of v)

/-- The word of a request. -/
def safeWord (req ch : Nat) (key : BitVec 16) : Word := key ++ BitVec.ofNat 16 (req + 16 * ch)

/-- ARM: request 1 (R219). -/
def execArmLattice (d : Dom) (key : BitVec 16) (s : State) : Host.Outcome State Fault Refusal := s.ends (safeReqWrite s d (safeWord 1 0 key)).1
/-- WITHDRAW: request 2 (R219). -/
def execWithdraw (d : Dom) (key : BitVec 16) (s : State) : Host.Outcome State Fault Refusal := s.ends (safeReqWrite s d (safeWord 2 0 key)).1
/-- CLEAR_TRIP: request 3 for a channel (R219). -/
def execClearTrip (d : Dom) (key : BitVec 16) (c : Fin 24) (s : State) : Host.Outcome State Fault Refusal :=
  s.ends (safeReqWrite s d (safeWord 3 c.val key)).1
/-- CLEAR_FAULTS: request 4 (R219). -/
def execClearFaults (d : Dom) (key : BitVec 16) (s : State) : Host.Outcome State Fault Refusal := s.ends (safeReqWrite s d (safeWord 4 0 key)).1

/-! The safety core (R199, R201). -/

/-- SAFETY_CORE_HEARTBEAT: the first sets SC_ALIVE (R201). -/
def execSafetyCoreHeartbeat (s : State) : Host.Outcome State Fault Refusal :=
  s.ends (
    if s.domOn 4 && s.domOn 5 then
      let now := s.now
      (((s.modKz fun k => { k with scAt := now }).setFlag F.KZ_STAT_SC_ALIVE true).autoArm).switches
    else s)

/-- SAFETY_CORE_TIMEOUT: no heartbeat for 300 µs while SC_ALIVE is 1 (R201, R199). -/
def execSafetyCoreTimeout (s : State) : Host.Outcome State Fault Refusal :=
  s.ends (
    if s.domOn 5 && s.flag F.KZ_STAT_SC_ALIVE then
      let s := (s.advanceTo (s.kz.scAt + 300000)).kzLatch 8
      let s := s.switches
      -- the charge pump stops: the core's switches open
      s.modKz fun k => { k with swC := Kz.init.swC }
    else s)

/-- DISAGREE_FAULT: the evaluation that completes CMP_MS of differing verdicts (R201). -/
def execDisagreeFault (x : LatIn) (s : State) : Host.Outcome State Fault Refusal :=
  s.ends (if max 1 (s.get F.KZ_PERS_CMP_MS) * 1000000 ≤ s.kz.cmpNs + 10000 then s.latticeEval x else s)

/-- READBACK_FAULT: the evaluation that completes 50 µs of a wrong readback (R201). -/
def execReadbackFault (x : LatIn) (s : State) : Host.Outcome State Fault Refusal :=
  s.ends (if s.kz.rbNs.any fun n => decide (40000 ≤ n) then s.latticeEval x else s)

/-- OSC_FAULT: SAFE_OSC and the CLK_GN root disagree by more than 1 % over 1 ms (R201). -/
def execOscFault (s : State) : Host.Outcome State Fault Refusal :=
  s.ends (if s.domOn 5 then (((s.advanceBy 1000000).kzLatch 7).autoArm).switches else s)

/-- Open or close one switch of output k: the lattice's, or with `core` the safety core's. -/
def State.setSwitch (s : State) (core : Bool) (k : Nat) (on : Bool) : State :=
  (s.modKz fun z => if core then { z with swC := padMod false k (fun _ => on) z.swC } else { z with swL := padMod false k (fun _ => on) z.swL }).emit
    (.pin 4 k (if on then 1 else 0))

/-- OFF_PULSE_TEST: an energised output is pulsed low at its place in the 250 ms frame, in even frames by the lattice's switch and in
odd ones by the safety core's; the readback must see it low and then high (R216). -/
def execOffPulseTest (k : Fin 16) (low high : Bool) (s : State) : Host.Outcome State Fault Refusal :=
  s.ends (
    if s.domOn 5 && (s.optMask / 2 ^ k.val) % 2 = 1 then
      let ofs := k.val * 15625000
      let t := ((s.now + 250000000 - ofs) / 250000000) * 250000000 + ofs
      let core := optFrame t % 2 == 1
      let s := (s.advanceTo t).setSwitch core k.val false
      let s := (s.advanceBy (max 100 (min 1000 (s.get F.KZ_OPT_OPT_US)) * 1000)).setSwitch core k.val true
      if low && high then
        let pass (e : Nat × Nat) : Nat × Nat := if e.1 = optFrame t && (e.2 / 2 ^ k.val) % 2 = 1 then (e.1, e.2 - 2 ^ k.val) else e
        s.modKz fun z => { z with optFirst := z.optFirst.map pass }
      else (s.kzLatch 6).switches
    else s)

/-! Safe inputs (R206, R215). -/

/-- SAFE_INPUT_CHANGE: a level held for 2 ms is taken (R206). -/
def execSafeInputChange (i : Fin 16) (level : Bool) (s : State) : Host.Outcome State Fault Refusal :=
  s.ends (
    if s.domOn 5 then
      let lv := s.get F.KZ_SISTAT_LEVEL
      let s := s.set F.KZ_SISTAT_LEVEL (lv - (if (lv / 2 ^ i.val) % 2 = 1 then 2 ^ i.val else 0) + (if level then 2 ^ i.val else 0))
      (s.siPairs).switches
    else s)

/-- SIDISC_FAULT: a pair is discrepant for DISC_MS (R215). -/
def execSidiscFault (p : Fin 8) (s : State) : Host.Outcome State Fault Refusal :=
  s.ends (
    match s.kz.discAt.getD p.val none with
    | some a =>
      let s := s.advanceTo (a + s.get (F.KZ_SI_DISC_MS p.val) * 1000000)
      let pd := s.get F.KZ_SISTAT_PDISC
      let s := s.set F.KZ_SISTAT_PDISC (if (pd / 2 ^ p.val) % 2 = 1 then pd else pd + 2 ^ p.val)
      (s.setFaults (s.get F.KZ_FAULT_ACTIVE ||| 16)).switches
    | none => s)

/-! Safe rate of turn (R212). -/

/-- The rate of a 24-bit sample, in binary64. -/
def State.srtRate (s : State) (x : Int) : Word64 :=
  fadd (fmul (f32to64 (s.word R.KZ_SRT_GAIN)) (fofIntE x (-23))) (f32to64 (s.word R.KZ_SRT_OFS))

/-- Every 1 ms block: the lattice takes the mean of its samples, the safety core DSF_OUT of channel SCCH; both units compare the rate; SRT_MS blocks above the limit withdraw all authority (R212). -/
def State.srtBlock (s : State) : State :=
  if !s.domOn 5 || !s.flag F.KZ_SRT_SRT_EN then s
  else
    let s := s.advanceTo (nextMultiple s.now 1000000)
    let lim := f32to64 (s.word R.KZ_SRT_LIM)
    let x := s.kz.rateMean
    let s := s.modKz fun k => { k with rSum := 0, rN := 0, rAvg := x }
    let a := flt lim (fabs (s.srtRate x))
    let b := flt lim (fabs (s.srtRate (BitVec.ofNat 24 (s.get (F.DSF_OUT_SAMPLE (s.get F.KZ_SRT_SCCH)))).toInt))
    let s := (s.setFlag F.KZ_FUNC_SRT_V (a || b)).modKz fun k =>
      { k with srtL := if a then k.srtL + 1 else 0, srtC := if b then k.srtC + 1 else 0, srtDiff := a != b }
    if max 1 (s.get F.KZ_PERS_SRT_MS) ≤ max s.kz.srtL s.kz.srtC then s.kzWithdraw 2 else s

/-- SRT_BLOCK: a 1 ms block of the rate gyro (R212). -/
def execSrtBlock (s : State) : Host.Outcome State Fault Refusal := s.ends s.srtBlock

/-- SRT_TRIP: the block that completes SRT_MS (R212). -/
def execSrtTrip (s : State) : Host.Outcome State Fault Refusal :=
  s.ends (if max 1 (s.get F.KZ_PERS_SRT_MS) ≤ max s.kz.srtL s.kz.srtC + 1 then s.srtBlock else s)

/-! Safe position envelope (R213). -/

/-- The distance of a point from a segment, in the plane. -/
def segDist (p a b : List Word64) : Word64 :=
  let d := vsub b a
  let l2 := fdot d d
  let t := if feq l2 0 then 0 else fmax 0 (fmin one64 (fdiv (fdot (vsub p a) d) l2))
  vnorm (vsub p (vadd a (vscale t d)))

/-- SPE's evaluation at a publication of the estimate (R213). -/
def State.speEval (s : State) : State :=
  let s := s.speGate
  if !s.speOk then s
  else
    let v (a : Nat) : Word64 := s.get64 a
    let d := segDist [v (R.FE_OUT_EST 0), v (R.FE_OUT_EST 1)] [v (R.SK_OUT_ENV 0), v (R.SK_OUT_ENV 1)] [v (R.SK_OUT_ENV 2), v (R.SK_OUT_ENV 3)]
    let e := fadd d (fmul (f32to64 (s.word R.KZ_SPE_K)) (fmax (v (R.FE_OUT_SIG 0)) (v (R.FE_OUT_SIG 1))))
    let s :=
      if flt (f32to64 (s.word R.KZ_SPE_RWARN)) e then
        let s := if s.flag F.KZ_FUNC_SPE_WARN then s else s.event 4 0 .crumb
        s.setFlag F.KZ_FUNC_SPE_WARN true
      else s
    let bad := flt (f32to64 (s.word R.KZ_SPE_RTRIP)) e
    let s := (s.setFlag F.KZ_FUNC_SPE_V bad).modKz fun k => { k with speN := if bad then k.speN + 1 else 0 }
    if max 1 (s.get F.KZ_AUTH_SPE_N) ≤ s.kz.speN then s.kzWithdraw 3 else s

/-! Grace, parameters, entitlement. -/

/-- GRACE_END: GRACE_MS after a tightening of channel c (R208). -/
def execGraceEnd (c : Fin 24) (s : State) : Host.Outcome State Fault Refusal :=
  s.ends (
    let due := ((s.kch c.val).graceAt.zipIdx.filterMap fun e =>
      if (s.get (F.KZ_CST_GRACE c.val) / 2 ^ e.2) % 2 = 1 then e.1 else none) ++ (s.kch c.val).sltGraceAt.toList
    match due with
    | [] => s
    | a :: l => ((s.advanceTo (l.foldl min a + s.get F.KZ_TIME_GRACE_MS * 1000000)).kzSectors c.val).kzSltGrace c.val)

/-- SAFETY_PARAM_LOAD (R218). -/
def execSafetyParamLoad (s : State) : Host.Outcome State Fault Refusal := s.ends s.paramLoad

/-- AUTH_TIMEOUT: AUTH_TMO_MS after the last accepted command frame (R198). -/
def execAuthTimeout (s : State) : Host.Outcome State Fault Refusal :=
  s.ends (
    match s.kz.authAt with
    | some t => if s.isMaster then s else (s.advanceTo (t + s.get F.KZ_AUTH_AUTH_TMO_MS * 1000000)).switches
    | none => s)

end Sys2Proof.Machine
end

