-- ==== Sys2Proof/Machine/Power.lean ====
section
/-!
DEFINITION. Clock supervision, power domains, DEEP, the watchdog and the resets (21_clocks_power_reset R352 to R367,
20_map_otp_boot R342 for the OTP that a reset loads).
-/
namespace Sys2Proof.Machine

/-- Change the power state. -/
def State.modPwr (s : State) (f : Power → Power) : State := { s with pwr := f s.pwr }

/-- Raise REFUSED, and source 23 when it was 0 (R356, R361, R369). -/
def State.pwrRefused (s : State) : State :=
  if s.flag F.PWR_STAT_REFUSED then s
  else
    let s := s.setFlag F.PWR_STAT_REFUSED true
    s.event 23 (s.word R.PWR_STAT) .none

/-! Clocks. -/

/-- CONT clears while REFCLK is stopped and the shadow counts (R246). -/
def State.shadowHeld (s : State) : State := if s.timeRuns then s else s.setFlag F.TIME_STAT_CONT false

/-- REFCLK_WINDOW: one 10 µs SAFE_OSC window counted this many REFCLK edges (R354). -/
def execRefclkWindow (edges : Nat) (s : State) : Host.Outcome State Fault Refusal :=
  s.ends (
    let good := decide (90 ≤ edges) && decide (edges ≤ 110)
    -- a window with no edge at all is REFCLK stopped: the shadow counter holds and CONT clears (R246)
    let s := (s.modPwr fun p => { p with refRuns := decide (0 < edges) }).advanceBy 10000
    let s := s.shadowHeld
    if good then
      let n := s.pwr.goodWin + 1
      let s := s.modPwr fun p => { p with goodWin := n }
      if s.flag F.CLK_STAT_REF_BAD && decide (100 ≤ n) then s.setFlag F.CLK_STAT_REF_BAD false else s
    else
      let s := s.modPwr fun p => { p with goodWin := 0 }
      if s.flag F.CLK_STAT_REF_BAD then s
      else
        let s := (s.setFlag F.CLK_STAT_REF_BAD true).bump F.CLK_STAT_REF_LOSS_CNT
        s.event 21 (s.word R.CLK_STAT) .loaf)

/-- SAFE_OSC_WINDOW: a 1 ms CLK_GN window counted this many SAFE_OSC cycles (R355). -/
def execSafeOscWindow (cycles : Nat) (s : State) : Host.Outcome State Fault Refusal :=
  s.ends (
    if (196000 ≤ cycles && cycles ≤ 204000) || s.flag F.CLK_STAT_SOSC_BAD then s
    else
      let s := s.setFlag F.CLK_STAT_SOSC_BAD true
      s.event 22 (s.word R.CLK_STAT) .none)

/-! What a domain loses when it goes off, and a device when it resets. -/

/-- A register word after an event that keeps only some classes (R16, R365): the kept bits stay, the others take their
reset values. -/
def keptWord (keep : RegDesc → Nat) (a : Nat) (w : Word) : Word :=
  match regDesc a with
  | none => resetWord a
  | some d =>
    let m := BitVec.ofNat 32 (keep d)
    (w &&& m) ||| (resetWord a &&& ~~~ m)

/-- The registers after an event that keeps only some classes. -/
def keepRegs (keep : RegDesc → Nat) (l : RegFile) : RegFile := mapUpdate resetWord (keptWord keep) l

/-- The bits of all classes. -/
def allBits : Nat := 0xFFFFFFFF

/-- Memory of the regions that stay. -/
def keepMem (keep : Nat → Bool) (m : Memory) : Memory := m.filter fun e => keep e.1

/-- The GNSS keep memory in AON: settings, ephemerides, almanac, the last position and velocity, the clock model with the last time
solution and its sigma, the inter-system offsets (R237). -/
def Gnss.kept (g : Gnss) : Gnss :=
  { Gnss.init with keep := g.keep, eph := g.eph, almanac := g.almanac, ggto := g.ggto, solAt := g.solAt, sigma := g.sigma,
                   lastPos := g.lastPos, lastVel := g.lastVel, iso := g.iso, clk := g.clk, bias := g.bias, refused := g.refused }

/-- What the paths in GNRF hold beyond their registers: the quiet and present levels, the arming of the warning, the latest search and
indicator (R233, R234). -/
def Gnss.withRf (g r : Gnss) : Gnss :=
  { g with quiet := r.quiet, level := r.level, jiArmed := r.jiArmed, wbAt := r.wbAt, jiAt := r.jiAt }

/-- A unit's hidden state returns to rest as its domain goes off (R365, class V). -/
def State.unitsOff (s : State) (d : Nat) : State :=
  match d with
  | 2 => { s with be := .init, sk := .init }
  | 4 => ({ s with kz := { s.kz with swC := Kz.init.swC, speN := 0 } }).setFlag F.KZ_STAT_SC_ALIVE false
  | 5 => { s with kz := .init }
  | 6 => { s with jobs := .init, alc := .init }
  | 7 => { s with fe := { Fe.init with uarts := s.fe.uarts, peers := s.fe.peers, fast := s.fe.fast },
                  est := .init, surv := .init, trk := .init }
  | 8 => { s with srv := { Servo.init with encs := s.srv.encs } }
  | 9 =>
    let now := s.now
    { s with gn := ({ s.gn.kept with corr := s.gn.corr, sleepAt := some now }).withRf s.gn }
  | 10 => { s with gn := s.gn.withRf .init }
  | 11 => { s with net := .init, ha := .init, fe := { s.fe with peers := [] },
                   time := { s.time with ports := [.init, .init], pps := [.init, .init], tcap := [[], [], [], []],
                                         tcapLast := TimeBase.init.tcapLast, tcapEdge := TimeBase.init.tcapEdge, gnss := .init,
                                         ptp := .init, slewRem := 0, freq := TimeBase.init.freq, phase := 0, frac := 0 } }
  | 12 => { s with can := List.replicate 4 .init, dsf := List.replicate 24 .init, syncEdge := none,
                   fe := { s.fe with uarts := List.replicate 16 .init, fast := [] },
                   srv := { s.srv with encs := Servo.init.encs } }
  | 13 => { s with scrub := ⟨0, 0, none, 0⟩ }
  | _ => s

/-- The memory a domain holds (R365). -/
def domMem (d a : Nat) : Bool :=
  if d = 1 then 0x1500000 ≤ a && a < 0x1600000
  else if d = 2 then (0x1000000 ≤ a && a < 0x1500000) || (0x1600000 ≤ a && a < 0x1700000)
  else if d = 3 then 0x1700000 ≤ a && a < 0x1800000
  else false

/-- TQ after the time base lost its references with the count kept in the shadow (R246): HOLDOVER if it was LOCKED or
SLEWING, else unchanged. SRC, of class S, stays. -/
def State.timeKept (s : State) : State := if s.tq = 1 || s.tq = 3 then s.setTq 2 else s

/-- The GPIO balls that a state drives, released in another (R395). -/
def State.gpioReleased (s t : State) : State :=
  let dir := s.word R.IO_GPIO_DIR
  (List.range 32).foldl (fun t n => if dir.getLsbD n then t.emit (.pin 5 n 2) else t) t

/-- The PPS balls that a state drives, released in another (R395). -/
def State.ppsReleased (s t : State) : State :=
  (List.range 2).foldl (fun t k => if s.flag (F.TIME_PPS_CFG_EN k) then t.emit (.pin 1 k 2) else t) t

/-- A domain powers down (R357, R365): class S kept in its shadow, class V to reset, its memory lost, its units at rest. -/
def State.domainOff (s : State) (d : Nat) : State :=
  let on := s.get F.PWR_DOM_STAT_ON
  let s := if d = 12 then s.gpioReleased s else if d = 11 then s.ppsReleased s else s
  let s := if (on / 2 ^ d) % 2 = 1 then s.set F.PWR_DOM_STAT_ON (on - 2 ^ d) else s
  let s := { s with regs := keepRegs (fun r => if r.dom = d then r.clsS ||| r.clsA ||| r.clsO else allBits) s.regs,
                    shadow := keepRegs (fun r => if r.dom = d then 0 else allBits) s.shadow,
                    mem := keepMem (fun a => !domMem d a) s.mem }
  let s := s.modPwr fun p => { p with rising := p.rising.filter (·.1 != d) }
  let s := s.unitsOff d
  -- a receiver put to sleep holds over (R235)
  if d = 11 then s.timeKept.shadowHeld else if d = 9 && s.get F.GN_TQ_TQ = 1 then s.setGnTq 2 else s

/-- Clear a domain's request bit and power it down, without a write of PWR_DOM_REQ (R356). -/
def State.switchOff (s : State) (d : Nat) : State :=
  let q := s.get F.PWR_DOM_REQ_REQ
  (if (q / 2 ^ d) % 2 = 1 then s.set F.PWR_DOM_REQ_REQ (q - 2 ^ d) else s).domainOff d

/-- How long a domain takes to power up: 20 µs, DDR 400 µs (R357). -/
def riseNs (d : Nat) : Nat := if d = 13 then 400000 else 20000

/-- Set a domain's request bit; it begins to power up (R357). -/
def State.switchOn (s : State) (d : Nat) : State :=
  let q := s.get F.PWR_DOM_REQ_REQ
  let s := if (q / 2 ^ d) % 2 = 1 then s else s.set F.PWR_DOM_REQ_REQ (q + 2 ^ d)
  let due := s.now + riseNs d
  if s.domOn d || (s.pwr.rising.any fun e => e.1 == d) then s else s.modPwr fun p => { p with rising := p.rising ++ [(d, due)] }

/-- The domains a persona permits (R4, R356). With no persona in effect only AON, SVC and DDR, which the Command Port of the boot
state needs (R3, R351; log entry 80). -/
def State.personaMask (s : State) : Nat :=
  if s.isMaster then 0x3FFF else if s.isHead then 0x397F else if s.isNode then 0x393F else 0x2003

/-- May this domain be switched off now (the last column of R356)? The bits are those requested. -/
def State.mayOff (s : State) (d v : Nat) : Bool :=
  match d with
  | 2 => (v / 8) % 2 == 0 && !s.flag F.BE_CTRL_EN && !s.run
  | 3 => (List.range 16).all fun n => !(s.flag (F.BE_TCFG_EN n) && decide (4 ≤ s.get (F.BE_TCFG_ENG n)))
  | 4 => s.get F.KZ_STAT_STATE == 0 || s.get F.KZ_STAT_STATE == 3
  | 5 => s.get F.KZ_STAT_STATE == 0 || s.get F.KZ_STAT_STATE == 3
  | 6 => !s.run && (v / 128) % 2 == 0
  | 7 => !s.run
  | 8 => (List.range 24).all fun n => s.get (F.SRV_LSTAT_STATE n) == 0
  | 9 => true
  | 10 => true
  | 11 => !s.run && !(1 ≤ s.haState && s.haState ≤ 3)
  | 12 => !s.run && (v / 256) % 2 == 0
  | 13 => !s.run && s.jobs.jobs.isEmpty
  | _ => false

/-- May a domain be switched on now: the persona permits it, FUSE needs SOLV, GNBB and GNRF are not kept off by R196,
and DDR needs installed DRAM (R336, R356). -/
def State.mayOn (s : State) (d v : Nat) : Bool :=
  (s.personaMask / 2 ^ d) % 2 == 1
    && (d != 7 || (v / 64) % 2 == 1)
    && (!(d == 9 || d == 10) || !(s.flag F.HA_CFG_GN_BIV && s.haState == 0 && !s.ha.refreshing))
    && (d != 13 || decide (0 < s.dramBytes))

/-- The domains that may change a bit (R356). -/
def domWriters (d : Nat) (w : Dom) : Bool :=
  if d ≤ 1 then false
  else if d = 4 || d = 5 then w == .safe
  else if d = 13 then w == .svc
  else w == .host || w == .svc

/-- A write of PWR_DOM_REQ: taken whole or discarded whole with REFUSED (R356). -/
def domReqWrite (s : State) (w : Dom) (v : Word) : State × CpSt :=
  s.writeGuard w R.PWR_DOM_REQ fun s =>
    let old := s.get F.PWR_DOM_REQ_REQ
    let new := v.toNat % 2 ^ 14
    let bits := (List.range 14).filter fun d => (old / 2 ^ d) % 2 != (new / 2 ^ d) % 2
    let ok := bits.all fun d => domWriters d w && (if (new / 2 ^ d) % 2 = 1 then s.mayOn d new else s.mayOff d new)
    if !ok then (s.pwrRefused, .notNow)
    else (bits.foldl (fun t d => if (new / 2 ^ d) % 2 = 1 then t.switchOn d else t.switchOff d) s, .ok)

/-- DOMAIN_POWER_REQUEST: a write of PWR_DOM_REQ (R356). -/
def execDomainPowerRequest (d : Dom) (v : Word) (s : State) : Host.Outcome State Fault Refusal :=
  s.ends (domReqWrite s d v).1

/-! Resets. -/

/-- The code of a reset kind in RST_CAUSE. -/
def ResetKind.code : ResetKind → Nat
  | .powerOn => 0 | .brownOut => 1 | .pin => 2 | .partner => 3 | .watchdog => 4 | .soft => 5 | .deepWake => 6

/-- The register bits a reset keeps (R365). Class O stays as latched until the OTP is read again. -/
def ResetKind.keeps (k : ResetKind) (r : RegDesc) : Nat :=
  match k with
  | .powerOn => r.clsO
  | .brownOut => r.clsO ||| r.clsA
  | .pin => r.clsO ||| r.clsA
  | .partner => r.clsO ||| r.clsA
  | _ => r.clsO ||| r.clsA ||| r.clsS

/-- The memory a reset keeps (R365). -/
def ResetKind.keepsMem (k : ResetKind) (a : Nat) : Bool :=
  match k with
  | .powerOn => false
  | .brownOut => false
  | .deepWake => decide (0x100000000 ≤ a)
  | _ => true

/-- Device time after a reset (R246): 0 at power-on, else continued by the shadow with the fraction at 0; what the
class S fields describe stays with a reset that keeps them. -/
def resetTime (k : ResetKind) (t : TimeBase) : TimeBase :=
  match k with
  | .powerOn => .init
  | .brownOut => { TimeBase.init with count := t.count }
  | .pin => { TimeBase.init with count := t.count }
  | .partner => { TimeBase.init with count := t.count }
  | _ => { TimeBase.init with count := t.count, sigmaLast := t.sigmaLast, sigmaAt := t.sigmaAt, leapAt := t.leapAt,
                              measured := t.measured }

/-! The OTP array and the staging copy (R332, R340 to R342). -/

/-- The OTP array's bytes. -/
def State.otpBytes (s : State) (a n : Nat) : List Byte := storeRange 0 s.nvm.otp a n

/-- Generation g's configuration block. -/
def State.genBlock (s : State) (g : Nat) : List Byte := s.otpBytes (0x200 + 0x200 * g) 512

/-- A little-endian field of a block. -/
def blkField (b : List Byte) (o n : Nat) : Nat := leNat (b.drop o |>.take n)

/-- Valid: MAGIC, GEN, FORMAT and CRC-32C. -/
def genValid (g : Nat) (b : List Byte) : Bool :=
  blkField b 0 4 == 0x0CF64812 && blkField b 4 1 == g && blkField b 5 1 == 1 && blkField b 0x1FC 4 == (crc32c (b.take 0x1FC)).toNat

/-- The staging copy. -/
def State.stageBytes (s : State) : List Byte := storeRange 0 s.nvm.otpStage 0 512

/-- n fresh open bytes. -/
def State.freeBytes (s : State) (n : Nat) : List Byte :=
  (List.range n).map fun i => BitVec.ofNat 8 (Config.freeValue (s.freeCount + i)).toNat

/-- What a burn cut short leaves of generation g, given the block it was to hold: some of its bits, an open choice, but no valid
generation, so the MAGIC stays unburned where those bits would make one (R342, R364; log entry 49). -/
def State.cutBurn (s : State) (g : Nat) (want : List Byte) : List Byte :=
  let old := s.genBlock g
  let got := List.zipWith (fun a b => a ||| b) old (List.zipWith (fun a b => a &&& b) want (s.freeBytes 512))
  if genValid g got then old.take 4 ++ got.drop 4 else got

/-- What a reset leaves of the OTP array and the flash while one of them is being written: a generation not valid, some bits of a
revocation byte, a sector of open bytes (R364; log entry 49). -/
def State.cutWrites (s : State) : Nvm :=
  let keep : Nvm := { Nvm.init with otp := s.nvm.otp, flash := s.nvm.flash }
  match s.cp.op with
  | none => keep
  | some o =>
    let arg (i n : Nat) : Nat := leNat (o.payload.drop i |>.take n)
    if o.op = 0x32 then
      let g := arg 2 1 % 4
      { keep with otp := storePut 0 keep.otp (0x200 + 0x200 * g) (s.cutBurn g s.stageBytes) }
    else if o.op = 0x33 then
      let a := 0xA00 + arg 2 1 % 4
      { keep with otp := storePut 0 keep.otp a (List.zipWith (fun x y => x ||| y) (s.otpBytes a 1) (s.freeBytes 1)) }
    else if o.op = 0x24 then
      let a := 0x1000000 * (arg 0 1 % 2) + 0x10000 * arg 1 2
      let sector := ((s.freeBytes 0x10000).zipIdx a).map (fun e => ((e.2, e.1) : Host.Cell))
      { keep with flash := (keep.flash.filter fun c => decide (c.1 < a)) ++ (sector.filter fun c => decide (c.2 ≠ 0xFF))
                            ++ keep.flash.filter fun c => decide (a + 0x10000 ≤ c.1) }
    else keep

/-- The open values that drew (log entry 2). -/
def State.cutDraws (s : State) : Nat :=
  match s.cp.op with
  | none => 0
  | some o => if o.op = 0x32 then 512 else if o.op = 0x33 then 1 else if o.op = 0x24 then 0x10000 else 0

/-- A device reset of kind k is asserted (R362 to R365): every domain but AON goes into reset, the lattice is OFF and
every safe output open (R363), and a second reset takes the kind that loses most (R364). -/
def State.deviceReset (s : State) (k : ResetKind) : State :=
  let taken := match s.pwr.inReset with
    | some j => if j.code ≤ k.code then j else k
    | none => k
  let seen := s.get F.RST_CAUSE_SEEN
  let held := if taken = .powerOn then 0 else s.now
  let t : State :=
    { State.reset with
      regs := keepRegs taken.keeps s.regs
      mem := keepMem taken.keepsMem s.mem
      time := resetTime taken s.time
      recd := if taken = .powerOn then .init else { s.recd with writing := none, followOn := false, coal := none, clearWriting := false }
      nvm := s.cutWrites
      gn := if taken = .powerOn then .init
        else { s.gn.kept with sleepAt := some (s.gn.sleepAt.getD s.now) }
      pwr := { Power.init with inReset := some taken, slotB := s.pwr.slotB, refRuns := s.pwr.refRuns, heldAt := held }
      freeCount := s.freeCount + s.cutDraws
      out := s.out
      pending := s.pending }
  -- a new power-on makes SEEN start from its default, the bit of power-on; the kinds that fall together all show
  let base := if k = .powerOn && s.pwr.inReset != some .powerOn then 1 else seen
  let base := match s.pwr.inReset with
    | some j => setBit j.code base
    | none => base
  let t := t.set F.RST_CAUSE_SEEN (setBit k.code base)
  let t := t.set F.RST_CAUSE_LAST taken.code
  let t := t.setFlag F.REC_STAT_BUSY false
  -- a reset between the start of a slot's firmware and GOOD counts in BOOT_TRY (R349)
  let t := if s.pwr.inReset.isNone && decide (s.pwr.stage = .firmware) && taken ≠ .powerOn then
      t.set F.SYS_BOOT_BOOT_TRY (min 2 (s.get F.SYS_BOOT_BOOT_TRY + 1)) else t
  -- every switch of the safe outputs opens (R363), and PRST_OUT is released
  let t := (List.range 16).foldl (fun t k =>
    if s.kz.swL.getD k false && s.kz.swC.getD k false then t.emit (.pin 4 k 0) else t) t
  let t := if s.pwr.prst then t.emit (.pin 3 0 1) else t
  -- every other output is released (R395)
  let t := s.ppsReleased (s.gpioReleased t)
  -- TQ: HOLDOVER where class S is kept, else NONE; its change writes a loaf (R243, R246)
  let t := if taken.code < 4 then t else if t.tq = 1 || t.tq = 3 then t.set F.TIME_STAT_TQ 2 else t
  let t := if t.tq ≠ s.tq && taken ≠ .powerOn then t.record 24 (t.word R.TIME_STAT) .loaf else t
  t.shadowHeld

/-- POWER_ON_RESET (R362). -/
def execPowerOnReset (s : State) : Host.Outcome State Fault Refusal := s.ends (s.deviceReset .powerOn)

/-- BROWN_OUT_RESET (R362). -/
def execBrownOutReset (s : State) : Host.Outcome State Fault Refusal := s.ends (s.deviceReset .brownOut)

/-- PIN_RESET: nRESET low for this many ns; a pulse under 100 ns is ignored (R362). -/
def execPinReset (ns : Nat) (s : State) : Host.Outcome State Fault Refusal :=
  s.ends (if ns < 100 then s else s.deviceReset .pin)

/-- PARTNER_FORCED_RESET: PRST_IN low for this many ns; ignored on HEAD and NODE, and without PAIR_EN (R362, R367). -/
def execPartnerForcedReset (ns : Nat) (s : State) : Host.Outcome State Fault Refusal :=
  s.ends (if ns < 100 || !s.isMaster || !s.flag F.HA_CFG_PAIR_EN then s else s.deviceReset .partner)

/-- WATCHDOG_EXPIRE: WD_MS after the last kick, while SVC is not in DOZE (R366). -/
def execWatchdogExpire (s : State) : Host.Outcome State Fault Refusal :=
  s.ends (
    match s.time.wdog with
    | some t => if (s.proc 0).doze then s else (s.advanceBy t).deviceReset .watchdog
    | none => s)

/-- Start or reload the watchdog from WD_MS, 0 read as 1 (R366). -/
def State.kickWdog (s : State) : State :=
  let t := max 1 (s.get F.RST_WDOG_WD_MS) * 1000000
  s.modTime fun c => { c with wdog := some t }

/-- A write of RST_KICK: 0x5AFE reloads, any other value expires at once; before the firmware starts the watchdog is
stopped (R366). -/
def kickWrite (s : State) (d : Dom) (v : Word) : State × CpSt :=
  s.writeGuard d R.RST_KICK fun s =>
    if s.time.wdog.isNone then (s, .ok)
    else if v = 0x5AFE then (s.kickWdog, .ok)
    else (s.deviceReset .watchdog, .ok)

/-- WATCHDOG_KICK: a write of RST_KICK (R366). -/
def execWatchdogKick (d : Dom) (v : Word) (s : State) : Host.Outcome State Fault Refusal := s.ends (kickWrite s d v).1

/-- A write of RST_WDOG: lowered at any time, raised only while RUN is 0 (R366). -/
def wdogWrite (s : State) (d : Dom) (v : Word) : State × CpSt :=
  s.writeGuard d R.RST_WDOG fun s =>
    let n := v.toNat % 65536
    if s.run && decide (max 1 (s.get F.RST_WDOG_WD_MS) < max 1 n) then (s, .notNow)
    else (s.set F.RST_WDOG_WD_MS n, .ok)

/-- A write of RST_SOFT: keyed; GO makes a soft reset (R362). -/
def softWrite (s : State) (d : Dom) (v : Word) : State × CpSt :=
  s.writeGuard d R.RST_SOFT fun s => s.keyGuard v fun s =>
    if v.getLsbD 0 then (s.deviceReset .soft, .ok) else (s, .ok)

/-- SOFT_RESET: a write of RST_SOFT (R362). -/
def execSoftReset (d : Dom) (v : Word) (s : State) : Host.Outcome State Fault Refusal := s.ends (softWrite s d v).1

/-- A write of RST_PFORCE: keyed; a MASTER with PAIR_EN, ACTIVE or ISOLATED, whose partner was last heard in BIVOUAC or
never, drives PRST_OUT low for 100 µs (R367). -/
def pforceWrite (s : State) (d : Dom) (v : Word) : State × CpSt :=
  s.writeGuard d R.RST_PFORCE fun s => s.keyGuard v fun s =>
    if !v.getLsbD 0 then (s, .ok)
    else
      let ps := s.get F.HA_STAT_PSTATE
      if s.isMaster && s.flag F.HA_CFG_PAIR_EN && (s.haState == 2 || s.haState == 3) && (ps == 0 || ps == 7) then
        ((s.modPwr fun p => { p with prst := true }).emit (.pin 3 0 0), .ok)
      else (s, .notNow)

/-- PARTNER_RESET: a write of RST_PFORCE (R367). -/
def execPartnerReset (d : Dom) (v : Word) (s : State) : Host.Outcome State Fault Refusal := s.ends (pforceWrite s d v).1

/-- PRST_OUT_PULSE_END: after 100 µs PRST_OUT is released (R367). -/
def execPrstOutPulseEnd (s : State) : Host.Outcome State Fault Refusal :=
  s.ends (if s.pwr.prst then ((s.advanceBy 100000).modPwr fun p => { p with prst := false }).emit (.pin 3 0 1) else s)

/-! DEEP. -/

/-- A write of PWR_CTRL: keyed; DEEP powers every domain but AON down, or is refused (R361). -/
def pwrCtrlWrite (s : State) (d : Dom) (v : Word) : State × CpSt :=
  s.writeGuard d R.PWR_CTRL fun s => s.keyGuard v fun s =>
    if !v.getLsbD 0 then (s, .ok)
    else
      let kz := s.get F.KZ_STAT_STATE
      let wake := s.flag F.PWR_WAKE_WAKE_PIN || s.flag F.PWR_WAKE_WAKE_CS || s.flag F.PWR_WAKE_WAKE_AT
      if s.run || kz == 1 || kz == 2 || (1 ≤ s.haState && s.haState ≤ 3) || !wake then (s.pwrRefused, .notNow)
      else
        let s := ((List.range 13).map (· + 1)).foldl (fun t d => t.domainOff d) s
        ((s.modTime fun c => { c with wdog := none }).modPwr fun p => { p with deep := true, stage := .held }, .ok)

/-- DEEP_ENTRY: a keyed write of PWR_CTRL (R361). -/
def execDeepEntry (d : Dom) (v : Word) (s : State) : Host.Outcome State Fault Refusal := s.ends (pwrCtrlWrite s d v).1

/-- DEEP_WAKE: a wake source (0 the WAKE ball, 1 CP_nCS, 2 the shadow counter at PWR_WAKEAT) ends DEEP (R361). -/
def execDeepWake (src : Fin 3) (s : State) : Host.Outcome State Fault Refusal :=
  s.ends (
    if !s.pwr.deep then s
    else if src.val = 0 && s.flag F.PWR_WAKE_WAKE_PIN || src.val = 1 && s.flag F.PWR_WAKE_WAKE_CS then s.deviceReset .deepWake
    else if src.val = 2 && s.flag F.PWR_WAKE_WAKE_AT then
      let at' := BitVec.ofNat 48 (s.get F.PWR_WAKEATL_AT + 2 ^ 32 * s.get F.PWR_WAKEATH_AT)
      let left := sdiff at' s.stamp
      let s := s.advanceBy left.toNat
      if sdiff at' s.stamp ≤ 0 then s.deviceReset .deepWake else s
    else s)

/-! DRAM scrubbing (26_errata R405). -/

/-- The instant of the next scrub burst: one a µs, and with a cap no more than CAP in a millisecond of device time (R405). -/
def State.scrubNext (s : State) : Nat :=
  match s.scrub.last with
  | none => s.now
  | some t =>
    let n := max s.now (t + 1000)
    if 0 < s.scrub.cap && s.scrub.cap ≤ s.scrub.inMs && n / 1000000 = t / 1000000 then (t / 1000000 + 1) * 1000000 else n

/-- Count a scrub burst at the present instant. -/
def Scrub.burst (q : Scrub) (now : Nat) : Scrub :=
  let same : Bool := match q.last with
    | some t => decide (t / 1000000 = now / 1000000)
    | none => false
  { q with last := some now, inMs := if same then q.inMs + 1 else 1 }

/-- SCRUB_BURST: one DRAM burst of 64 bytes is read, and a single-bit error corrected and written back, so memory keeps its
contents; PASS toggles when a pass over the installed DRAM completes (R405). Counters 48 and 50 count it, 49 and 51 the
correction (R386). -/
def execScrubBurst (corrected : Bool) (s : State) : Host.Outcome State Fault Refusal :=
  s.ends (
    if !s.domOn 13 || s.dramBytes = 0 then s
    else
      let s := s.advanceTo s.scrubNext
      let s := (s.pmu 48).pmu 50
      let s := if corrected then (s.pmu 49).pmu 51 else s
      let now := s.now
      let n := s.scrub.pos + 1
      let q := s.scrub.burst now
      if n * 64 < s.dramBytes then { s with scrub := { q with pos := n } }
      else ({ s with scrub := { q with pos := 0 } } : State).setFlag F.SYS_SCRUB_PASS (!s.flag F.SYS_SCRUB_PASS))

/-- SCRUB_CAP_APPLY: at the next 1 ms boundary of device time a written CAP takes effect (R405). -/
def execScrubCapApply (s : State) : Host.Outcome State Fault Refusal :=
  s.ends (
    let s := s.advanceTo (nextMultiple s.now 1000000)
    { s with scrub := { s.scrub with cap := s.get F.SYS_SCRUB_CAP } })

end Sys2Proof.Machine
end

