-- ==== Sys2Proof/Machine/Solver.lean ====
section
/-!
DEFINITION. The Solver Array's arithmetic (07_solver_array R111, R116, R117, R123, R124, R407, R408): saturating binary64,
factorisations with regularised pivots, one iteration of each iterating kind, and the KF_UPDATE. Every operation is rounded
on its own, sums from left to right, and the methods are the plain ones R111 names (log entries 19, 20).
-/
namespace Sys2Proof.Machine

/-! Saturating arithmetic (R124). -/

/-- The largest finite binary64. -/
def maxFin64 : Word64 := 0x7FEFFFFFFFFFFFFF

/-- The result of an operation: an overflow saturates and marks it. -/
def SNum.of (t : Bool) (r : Word64) : SNum :=
  if r = inf64 then ⟨maxFin64, true⟩ else if r = fneg inf64 then ⟨fneg maxFin64, true⟩ else ⟨r, t⟩

/-- An operand of the job. -/
def SNum.lit (v : Word64) : SNum := ⟨v, false⟩
def sZero : SNum := .lit 0
def sadd (a b : SNum) : SNum := .of (a.sat || b.sat) (fadd a.v b.v)
def ssub (a b : SNum) : SNum := .of (a.sat || b.sat) (fsub a.v b.v)
def smul (a b : SNum) : SNum := .of (a.sat || b.sat) (fmul a.v b.v)
def sdiv (a b : SNum) : SNum :=
  .of (a.sat || b.sat) (if feq b.v 0 then Config.zeroDivide a.v else fdiv a.v b.v)
def ssqrt (a : SNum) : SNum := ⟨fsqrt a.v, a.sat⟩
def sneg (a : SNum) : SNum := ⟨fneg a.v, a.sat⟩
def sabs (a : SNum) : SNum := ⟨fabs a.v, a.sat⟩
/-- The greater of two; it keeps the mark of either. -/
def smax (a b : SNum) : SNum := ⟨if flt a.v b.v then b.v else a.v, a.sat || b.sat⟩

/-- A vector of the solver. -/
abbrev SVec := List SNum
/-- A matrix of the solver, by rows. -/
abbrev SMat := List SVec

def lits (l : List Word64) : SVec := l.map .lit
def words (l : SVec) : List Word64 := l.map (·.v)
def svget (a : SVec) (i : Nat) : SNum := a.getD i sZero
def svadd (a b : SVec) : SVec := List.zipWith sadd a b
def svsub (a b : SVec) : SVec := List.zipWith ssub a b
def svscale (k : SNum) (a : SVec) : SVec := a.map (smul k)
def ssum (l : SVec) : SNum := l.foldl sadd sZero
def sdot (a b : SVec) : SNum := ssum (List.zipWith smul a b)
def snorm (a : SVec) : SNum := ssqrt (sdot a a)
def smvec (m : SMat) (v : SVec) : SVec := m.map fun r => sdot r v
/-- Transpose of a matrix of c columns. -/
def smtr (c : Nat) (m : SMat) : SMat := (List.range c).map fun j => m.map fun r => svget r j
def smmul (a b : SMat) (c : Nat) : SMat := let bt := smtr c b; a.map fun r => bt.map fun k => sdot r k
/-- Did a value of a vector saturate? -/
def anySat (l : SVec) : Bool := l.any (·.sat)

/-! Pivots (R123). -/

/-- How the pivots of one factorisation are treated: d_max, EPS_SH, REG_SH. -/
structure PivRule where
  dmax : SNum
  eps : Nat
  reg : Nat
  deriving DecidableEq, Repr

/-- 2^(-k). -/
def half64 (k : Nat) : Word64 := fofIntE 1 (-(k : Int))

/-- PIV_REG. -/
def PivRule.value (r : PivRule) : SNum :=
  if feq r.dmax.v 0 then .lit (half64 r.reg) else smul (.lit (half64 r.reg)) r.dmax

/-- A pivot as the factorisation uses it, and what was done: 0 kept, 1 tiny (TPIV), 2 zero (ZPIV), 3 replaced for d_max = 0
with neither flag. -/
def PivRule.treat (r : PivRule) (p : SNum) : SNum × Nat :=
  if feq p.v 0 then (r.value, 2)
  else if feq r.dmax.v 0 then (r.value, 3)
  else if flt (fabs p.v) (smul (.lit (half64 r.eps)) r.dmax).v then (if fsign p.v then sneg r.value else r.value, 1)
  else (p, 0)

/-- The greatest absolute value of some numbers. -/
def absMax (l : SVec) : SNum := l.foldl (fun m a => smax m (sabs a)) sZero

/-- Solve a symmetric system by LDLᵀ in natural order: the solution, and what was done to each pivot. -/
def ldlSolve (r : PivRule) : Nat → SMat → SVec → SVec × List Nat
  | 0, _, _ => ([], [])
  | k + 1, a, b =>
    match a with
    | [] => ([], [])
    | row :: rest =>
      let (d, t) := r.treat (svget row 0)
      let col := row.drop 1
      let l := col.map fun c => sdiv c d
      let b0 := svget b 0
      let a' := List.zipWith (fun q li => svsub (q.drop 1) (svscale li col)) rest l
      let b' := svsub (b.drop 1) (svscale b0 l)
      let (x, ts) := ldlSolve r k a' b'
      (ssub (sdiv b0 d) (sdot l x) :: x, t :: ts)

/-- Solve a symmetric system under a job's pivot parameters. -/
def symSolve (eps reg : Nat) (a : SMat) (b : SVec) : SVec × List Nat :=
  ldlSolve ⟨absMax (a.zipIdx.map fun p => svget p.1 p.2), eps, reg⟩ a.length a b

/-- The reflection that takes a column to a multiple of the first axis: its vector and that multiple, R's pivot. -/
def householder (c : SVec) : SVec × SNum :=
  let n := snorm c
  let p := if fsign (svget c 0).v then n else sneg n
  (match c with
    | [] => []
    | h :: t => ssub h p :: t, p)

/-- Reflect a vector about v. -/
def reflect (v u : SVec) : SVec :=
  let vv := sdot v v
  if feq vv.v 0 then u else svsub u (svscale (sdiv (smul (.lit (k64 2 1)) (sdot v u)) vv) v)

/-- Solve a least-squares problem by Householder QR: the columns of A and b give x, what was done to each pivot, and whether the
remainder of b saturated. -/
def qrSolve (r : PivRule) : Nat → SMat → SVec → SVec × List Nat × Bool
  | 0, _, b => ([], [], anySat b)
  | k + 1, cols, b =>
    match cols with
    | [] => ([], [], anySat b)
    | c :: rest =>
      let (v, p) := householder c
      let rest := rest.map (reflect v)
      let b := reflect v b
      let (d, t) := r.treat p
      let (x, ts, ovf) := qrSolve r k (rest.map (·.drop 1)) (b.drop 1)
      (sdiv (ssub (svget b 0) (sdot (rest.map fun q => svget q 0) x)) d :: x, t :: ts, ovf)

/-- As `qrSolve`, under a job's pivot parameters: d_max is the largest column 2-norm. -/
def lsqSolve (eps reg : Nat) (cols : SMat) (b : SVec) : SVec × List Nat × Bool :=
  let d := absMax (cols.map snorm)
  let (x, ts, ovf) := qrSolve ⟨d, eps, reg⟩ cols.length cols b
  (x, ts, ovf || d.sat)

/-! Least squares (R111). -/

/-- A·x from the columns of A. -/
def colsMul (cols : SMat) (m : Nat) (x : SVec) : SVec :=
  (List.zip cols x).foldl (fun acc p => svadd acc (svscale p.2 p.1)) (List.replicate m sZero)

/-- Dense rows of a symmetric matrix held by its columns' entries; an entry stands for its mirror too. -/
def symDense (cols : List (List (Nat × Word64))) : SMat :=
  let n := cols.length
  (List.range n).map fun i => (List.range n).map fun j =>
    match (cols.getD j []).lookup i with
    | some v => .lit v
    | none => .lit (((cols.getD i []).lookup j).getD 0)

/-! QP_ACTIVE (R407, R408). -/

/-- Number of variables. -/
def QpProb.n (q : QpProb) : Nat := q.f.length

/-- Constraints: the rows, then a lower and an upper bound per variable. -/
def QpProb.cons (q : QpProb) : Nat := q.rows.length + 2 * q.n

/-- Constraint i: coefficients · x at most its bound (log entry 169). -/
def QpProb.con (q : QpProb) (i : Nat) : Option (List (Nat × Word64) × Word64) :=
  let m := q.rows.length
  if i < m then q.rows[i]?
  else if i < m + q.n then ((q.lo[i - m]?).join).map fun b => ([(i - m, fneg one64)], fneg b)
  else ((q.hi[i - m - q.n]?).join).map fun b => ([(i - m - q.n, one64)], b)

/-- Coefficients applied to a point. -/
def conVal (c : List (Nat × Word64)) (x : SVec) : SNum := ssum (c.map fun e => smul (.lit e.2) (svget x e.1))

/-- By how much a point violates constraint i; an equality both ways. -/
def QpProb.viol (q : QpProb) (x : SVec) (i : Nat) : SNum :=
  match q.con i with
  | none => sZero
  | some c =>
    let d := ssub (conVal c.1 x) (.lit c.2)
    if i < q.neq then sabs d else smax sZero d

/-- f(x) + RHO × Σ max(0, violation) (R111). -/
def QpProb.merit (q : QpProb) (rho : Word64) (x : SVec) : SNum :=
  let f := sadd (smul (.lit (k64 1 2)) (sdot x (smvec (q.h.map lits) x))) (sdot (lits q.f) x)
  sadd f (smul (.lit rho) (ssum ((List.range q.cons).map (q.viol x))))

/-- The gradient of the Lagrangian. -/
def QpProb.grad (q : QpProb) (x : SVec) (lam : List (Nat × SNum)) : SVec :=
  lam.foldl (fun g e => match q.con e.1 with
    | none => g
    | some c => c.1.foldl (fun g k => modAt k.1 (fun a => sadd a (smul e.2 (.lit k.2))) g) g)
    (svadd (smvec (q.h.map lits) x) (lits q.f))

/-- The largest KKT violation: stationarity, primal, dual, complementarity (R111). -/
def QpProb.resid (q : QpProb) (x : SVec) (lam : List (Nat × SNum)) : SNum :=
  let comp := lam.map fun e => match q.con e.1 with
    | none => sZero
    | some c => if e.1 < q.neq then sZero else sabs (smul e.2 (ssub (conVal c.1 x) (.lit c.2)))
  let dual := lam.map fun e => if e.1 < q.neq then sZero else smax sZero (sneg e.2)
  absMax (q.grad x lam ++ (List.range q.cons).map (q.viol x) ++ dual ++ comp)

/-- Insert into an ascending list. -/
def insNat (a : Nat) : List Nat → List Nat
  | [] => [a]
  | b :: t => if a < b then a :: b :: t else if a = b then b :: t else b :: insNat a t

/-- The KKT system of a working set. -/
def QpProb.kkt (q : QpProb) (w : List Nat) : SMat × SVec :=
  let cs := w.filterMap q.con
  let dense (c : List (Nat × Word64)) : SVec := c.foldl (fun r e => modAt e.1 (fun a => sadd a (.lit e.2)) r) (List.replicate q.n sZero)
  let rows := cs.map fun c => dense c.1
  ((q.h.zipIdx.map fun r => lits r.1 ++ rows.map fun c => svget c r.2) ++ rows.map (· ++ List.replicate rows.length sZero),
   (lits q.f).map sneg ++ cs.map fun c => .lit c.2)

/-- The first constraint that blocks the move from x to t: the step it allows and its number. -/
def QpProb.block (q : QpProb) (w : List Nat) (x t : SVec) : Option (SNum × Nat) :=
  (List.range q.cons).foldl (fun (m : Option (SNum × Nat)) i =>
    if w.contains i then m
    else match q.con i with
      | none => m
      | some c =>
        let b := SNum.lit c.2
        let ct := conVal c.1 t
        if !flt b.v ct.v then m
        else
          let cx := conVal c.1 x
          let a := if flt b.v cx.v then sZero else sdiv (ssub b cx) (ssub ct cx)
          match m with
          | none => some (a, i)
          | some p => if flt a.v p.1.v then some (a, i) else m) none

/-- Does a number saturate on the way to the blocking constraint (R124)? -/
def QpProb.blockSat (q : QpProb) (w : List Nat) (x t : SVec) : Bool :=
  (List.range q.cons).any fun i =>
    !w.contains i && match q.con i with
      | none => false
      | some c =>
        let ct := conVal c.1 t
        let cx := conVal c.1 x
        ct.sat || (flt c.2 ct.v && (cx.sat || (!flt c.2 cx.v && (sdiv (ssub (.lit c.2) cx) (ssub ct cx)).sat)))

/-- The most negative multiplier of an inequality. -/
def QpProb.worst (q : QpProb) (lam : List (Nat × SNum)) : Option (Nat × SNum) :=
  lam.foldl (fun (m : Option (Nat × SNum)) e =>
    if e.1 < q.neq || !flt e.2.v 0 then m
    else match m with
      | none => some e
      | some p => if flt e.2.v p.2.v then some e else m) none

/-- What one iteration gives: where the solver stands, whether that is the optimum, what was done to each pivot of a
factorisation, and whether a result saturated. -/
structure StepOut where
  sol : Sol
  optimum : Bool
  pivots : List Nat
  ovf : Bool
  deriving DecidableEq, Repr

/-- One active-set step (R407). -/
def QpProb.step (q : QpProb) (eps reg : Nat) (s : Sol) : StepOut :=
  let (k, rhs) := q.kkt s.work
  let (z, pv) := symSolve eps reg k rhs
  let t := z.take q.n
  let lam := s.work.zip (z.drop q.n)
  let ovf := anySat z || q.blockSat s.work s.x t
  match q.block s.work s.x t with
  | some (a, i) =>
    let x := svadd s.x (svscale a (svsub t s.x))
    ⟨{ s with x := x, lam := lam, work := insNat i s.work }, false, pv, ovf || anySat x⟩
  | none =>
    let still := (List.zip s.x t).all fun p => feq p.1.v p.2.v
    match q.worst lam with
    | none => ⟨{ s with x := t, lam := lam }, true, pv, ovf⟩
    | some e => ⟨{ s with x := t, lam := lam, work := if still then s.work.filter (· != e.1) else s.work }, false, pv, ovf⟩

/-! ASSIGN (R111). -/

/-- What a row pays for a column at its price; none where the pair is not permitted. -/
def pairCost (row : List Word64) (price : SVec) (j : Nat) : Option SNum :=
  let c := row.getD j inf64
  if c = inf64 then none else some (sadd (.lit c) (svget price j))

/-- A row's best column: what it pays, and the second best that is left to it, staying unassigned among them. -/
def bestCol (row : List Word64) (un : Word64) (price : SVec) (held : List Nat) : Option (Nat × SNum × SNum) :=
  (List.range row.length).foldl (fun (m : Option (Nat × SNum × SNum)) j =>
    match pairCost row price j with
    | none => m
    | some c => match m with
      | none => some (j, c, .lit un)
      | some (b, w1, w2) =>
        if flt c.v w1.v || (feq c.v w1.v && held.contains b && !held.contains j) then some (j, c, if flt w2.v w1.v then w2 else w1)
        else some (b, w1, if flt c.v w2.v then c else w2)) none

/-- Is a row priced out: does staying unassigned cost no more than its best column? -/
def pricedOut (row : List Word64) (un : Word64) (price : SVec) : Bool :=
  match bestCol row un price [] with
  | none => true
  | some (_, w1, _) => fle un w1.v

/-- The total cost of an assignment, unassigned rows at their unassigned cost (R111). -/
def assignCost (cost : List (List Word64)) (un : List Word64) (own : List (Option Nat)) : SNum :=
  ssum ((List.range cost.length).map fun i =>
    match (own[i]?).join with
    | some j => if j < ((cost.getD i []).length) then SNum.of false ((cost.getD i []).getD j 0) else .lit (un.getD i 0)
    | none => .lit (un.getD i 0))

/-- The duality gap at some prices. -/
def dualGap (cost : List (List Word64)) (un : List Word64) (own : List (Option Nat)) (price : SVec) : SNum :=
  let low := (List.range cost.length).map fun i =>
    let u := un.getD i 0
    match bestCol (cost.getD i []) u price [] with
    | none => SNum.lit u
    | some (_, w1, _) => if fle u w1.v then .lit u else w1
  ssub (assignCost cost un own) (ssub (ssum low) (ssum price))

/-- An auction's prices as they stand. -/
def Sol.prices (s : Sol) : SVec := s.lam.map (·.2)

/-- One round: every unassigned row bids once; a column goes to the highest bid, of equal ones to the lowest row. -/
def auctionRound (cost : List (List Word64)) (un : List Word64) (eps : SNum) (s : Sol) : StepOut :=
  let price := s.prices
  let held := s.own.filterMap id
  let bids := (List.range cost.length).filterMap fun i =>
    let row := cost.getD i []
    let u := un.getD i 0
    if (s.own[i]?).join.isSome || pricedOut row u price then none
    else (bestCol row u price held).map fun b => (b.1, i, sadd (sadd (svget price b.1) (ssub b.2.2 b.2.1)) eps)
  let won (j : Nat) : Option (Nat × Nat × SNum) :=
    (bids.filter fun b => b.1 == j).foldl (fun m b => match m with
      | none => some b
      | some p => if flt p.2.2.v b.2.2.v then some b else m) none
  let lam := s.lam.zipIdx.map fun p => match won p.2 with
    | some b => (p.1.1, b.2.2)
    | none => p.1
  let own := (List.range cost.length).map fun i =>
    match bids.find? fun b => b.2.1 == i with
    | some b => if (won b.1).any fun w => w.2.1 == i then some b.1 else none
    | none => match (s.own[i]?).join with
      | some j => if (won j).isSome then none else some j
      | none => none
  let s' : Sol := { s with lam := lam, own := own }
  let settled := (List.range cost.length).all fun i =>
    (own[i]?).join.isSome || pricedOut (cost.getD i []) (un.getD i 0) s'.prices
  let gap := dualGap cost un own s'.prices
  let paid := (List.range cost.length).any fun i => (List.range price.length).any fun j =>
    (s.own[i]?).join.isNone && (pairCost (cost.getD i []) price j).any (·.sat)
  ⟨s', settled && fle gap.v 0, [], paid || (bids.any fun b => b.2.2.sat) || anySat s'.prices || gap.sat⟩

/-! One iteration of a job (R111), its merit and its residual. -/

/-- The words of an assignment: a column per row, 0xFFFF unassigned. -/
def ownWords (own : List (Option Nat)) : List Word64 := own.map fun o => BitVec.ofNat 64 (o.getD 0xFFFF)

/-- Merit and residual of where a solver stands (R111). A sparse problem's merit is ‖Ax − b‖² less the constant bᵀb, which
its input does not hold and which orders nothing (log entry 19). -/
def Prob.score (p : Prob) (rho : Word64) (s : Sol) : SNum × SNum :=
  match p with
  | .lsq a b =>
    let cols := a.map lits
    let r := svsub (colsMul cols b.length s.x) (lits b)
    (snorm r, sdiv (snorm (cols.map fun c => sdot c r)) (snorm (cols.map fun c => sdot c (lits b))))
  | .normal a b =>
    let nx := smvec (symDense a) s.x
    let c := lits b
    (ssub (sdot s.x nx) (smul (.lit (k64 2 1)) (sdot s.x c)), sdiv (snorm (svsub nx c)) (snorm c))
  | .qp q => (q.merit rho s.x, q.resid s.x s.lam)
  | .assign cost un => (assignCost cost un s.own, dualGap cost un s.own s.prices)
  | _ => (sZero, sZero)

/-- Does the input hold a NaN or an infinity (R124)? +∞ may stand in a cost matrix; a bound left out is none. -/
def Prob.nonfinite (p : Prob) : Bool :=
  let bad (l : List Word64) : Bool := l.any fun w => !fisFin w
  match p with
  | .empty => false
  | .lsq a b => a.any bad || bad b
  | .normal a b => (a.any fun c => bad (c.map (·.2))) || bad b
  | .qp q => q.h.any bad || bad q.f || (q.rows.any fun r => bad (r.1.map (·.2)) || !fisFin r.2)
      || bad (q.lo.filterMap id) || bad (q.hi.filterMap id)
  | .assign cost un => (cost.any fun r => bad (r.filter (· != inf64))) || bad un
  | .kf x q h nu r => bad x || q.any bad || h.any bad || bad nu || r.any bad

/-- The columns of the first factorisation, which has a check point every 16 of them (R111). -/
def Prob.columns (p : Prob) : Nat :=
  match p with
  | .lsq a _ => a.length
  | .normal a _ => a.length
  | .qp q => q.n + q.neq
  | _ => 0

/-- Where a solver starts, from a starter or without one (R117): an active-set path with the equalities alone in its working
set; an auction at zero prices, with the starter's pairs that are their rows' best at those prices (log entry 170). -/
def Prob.start (p : Prob) (starter : Option (List Word64)) : Sol :=
  match p with
  | .lsq a _ => ⟨lits (starter.getD (List.replicate a.length 0)), [], [], []⟩
  | .normal a _ => ⟨lits (starter.getD (List.replicate a.length 0)), [], [], []⟩
  | .qp q => ⟨lits (starter.getD (List.replicate q.n 0)), [], List.range q.neq, []⟩
  | .assign cost un =>
    let m := (cost.headD []).length
    let zero := List.replicate m sZero
    let want (i : Nat) : Option Nat := (starter.bind fun l => l[i]?).map (·.toNat)
    let best (i j : Nat) : Bool := match pairCost (cost.getD i []) zero j, bestCol (cost.getD i []) (un.getD i 0) zero [] with
      | some c, some b => fle c.v b.2.1.v && fle c.v (un.getD i 0)
      | _, _ => false
    let own := (List.range cost.length).foldl (fun (acc : List (Option Nat)) i => acc ++ [match want i with
      | some j => if best i j && !acc.contains (some j) then some j else none
      | none => none]) []
    ⟨[], (List.range m).map fun j => (j, sZero), [], own⟩
  | _ => .init

/-- One iteration (R111): k is its number from 1. A later one of a sparse problem goes through the factor made of the matrix `f`
(R110, R407). -/
def Prob.step (p f : Prob) (eps reg : Nat) (tol : Word64) (k : Nat) (s : Sol) : StepOut :=
  match p with
  | .lsq a b =>
    let cols := a.map lits
    let r := if k = 1 then lits b else svsub (lits b) (colsMul cols b.length s.x)
    let (d, pv, ovf) := lsqSolve eps reg cols r
    let x := if k = 1 then d else svadd s.x d
    ⟨{ s with x := x }, false, if k = 1 then pv else [], ovf || anySat x⟩
  | .normal a b =>
    let m := symDense a
    let r := if k = 1 then lits b else svsub (lits b) (smvec m s.x)
    let mf := match f with
      | .normal af _ => if k = 1 then m else symDense af
      | _ => m
    let (d, pv) := symSolve eps reg mf r
    let x := if k = 1 then d else svadd s.x d
    ⟨{ s with x := x }, false, if k = 1 then pv else [], anySat x⟩
  | .qp q => q.step eps reg s
  | .assign cost un => auctionRound cost un (sdiv (.lit tol) (.lit (fofNat (cost.length + 1)))) s
  | _ => ⟨s, false, [], false⟩

/-- An iterate's words: the point, or an auction's columns. -/
def Prob.out (p : Prob) (s : Sol) : List Word64 :=
  match p with
  | .assign _ _ => ownWords s.own
  | _ => words s.x

/-- The iterate where a solver stands, as number k, and whether its merit or residual saturated. -/
def Prob.iter (p : Prob) (rho : Word64) (k : Nat) (s : Sol) : Iter × Bool :=
  let (m, r) := p.score rho s
  (⟨k, m.v, r.v, p.out s, s.lam.map fun e => (e.1, e.2.v), s.work, anySat s.x⟩, m.sat || r.sat)

/-- A starter, or the zeros returned without one, as a point of the problem. -/
def Prob.point (p : Prob) (x : List Word64) : Sol :=
  match p with
  | .assign cost _ =>
    let m := (cost.headD []).length
    ⟨[], (List.range m).map fun j => (j, sZero), [], x.map fun w => if w.toNat < m then some w.toNat else none⟩
  | _ => ⟨lits x, [], [], []⟩

/-! KF_UPDATE (R111, R67, R69). -/

/-- What a KF_UPDATE computes: state, covariance, d², what was done to the pivots of S, and whether any result saturated. -/
structure KfOut where
  x : SVec
  p : SMat
  d2 : SNum
  pivots : List Nat
  ovf : Bool
  deriving DecidableEq, Repr

/-- Does a saturated value stand in what is returned? -/
def KfOut.sat (o : KfOut) : Bool := anySat o.x || o.p.any anySat || o.d2.sat

/-- The outcome of these values, with the marks of some more. -/
def KfOut.of (x : SVec) (p : SMat) (d2 : SNum) (pivots : List Nat) (more : Bool) : KfOut :=
  ⟨x, p, d2, pivots, more || anySat x || p.any anySat || d2.sat⟩

/-- The measurement update in Joseph form (R67). -/
def kfMeas (eps reg : Nat) (x : List Word64) (p h : Mat) (nu : List Word64) (r : Mat) : KfOut :=
  let n := x.length
  let m := nu.length
  let h := h.map lits
  let p := p.map lits
  let r := r.map lits
  let nu := lits nu
  let hp := smmul h p n
  let sm := List.zipWith svadd (smmul hp (smtr n h) m) r
  let k := (smtr n hp).map fun c => (symSolve eps reg sm c).1
  let (w, pv) := symSolve eps reg sm nu
  let ikh := (smmul k h n).zipIdx.map fun q => q.1.zipIdx.map fun e => ssub (.lit (if q.2 = e.2 then one64 else 0)) e.1
  let p' := List.zipWith svadd (smmul (smmul ikh p n) (smtr n ikh) n) (smmul (smmul k r m) (smtr m k) n)
  .of (svadd (lits x) (smvec k nu)) p' (sdot nu w) pv (sm.any anySat || k.any anySat || anySat w)

/-- The time update of a job (R111): Φ x and Φ P Φᵀ + Q. -/
def kfTime (x : List Word64) (p phi q : Mat) : KfOut :=
  let n := x.length
  let f := phi.map lits
  .of (smvec f (lits x)) (List.zipWith svadd (smmul (smmul f (p.map lits) n) (smtr n f) n) (q.map lits)) sZero [] false

end Sys2Proof.Machine
end

