-- ==== Sys2Proof/Machine/Jobs.lean ====
section
/-!
DEFINITION. The job fabric and the Solver Array's scheduling: descriptors, submission, slots and quotas, dispatch,
suspension, deadlines, aborts and completion records (07_solver_array R109 to R130).
-/
namespace Sys2Proof.Machine

/-- Change the fabric's state. -/
def State.modJobs (s : State) (f : Jobs → Jobs) : State := { s with jobs := f s.jobs }

/-- A job by its number. -/
def State.job (s : State) (i : Nat) : Option Job := s.jobs.jobs.find? fun j => j.ident == i

/-- Replace a job. -/
def State.putJob (s : State) (j : Job) : State :=
  s.modJobs fun x => { x with jobs := x.jobs.map fun k => if k.ident = j.ident then j else k }

/-- Does a job run on lane groups (R109)? -/
def Job.onSa (j : Job) : Bool := j.kind != 6 && j.kind != 7

/-- Is a job ganged (R109)? -/
def Job.ganged (j : Job) : Bool := j.kind == 2 || (j.kind == 1 && decide (64 < j.dimN))

/-- Does a job iterate, with check points (R111)? -/
def Job.iterates (j : Job) : Bool := j.kind == 1 || j.kind == 2 || j.kind == 3 || j.kind == 5

/-- Has the job's deadline passed (R12, R118)? -/
def State.late (s : State) (j : Job) : Bool := j.hasDl && decide (sdiff s.stamp j.deadline > 0)

/-- The lane groups in use by running jobs. -/
def State.busyLanes (s : State) : List Nat :=
  ((s.jobs.jobs.filter fun j => j.status == 2).map (·.lanes)).flatten

/-- Free lane groups, lowest first. -/
def State.freeLanes (s : State) : List Nat := (List.range 4).filter fun g => !s.busyLanes.contains g

/-- Show occupancy, queue lengths and sequencers (JF_OCC, JF_QLEN, SA_SEQSTAT). -/
def State.showJobs (s : State) : State :=
  let held (c : Nat) := (s.jobs.jobs.filter fun j => j.cls == c && j.status != 0).length
  let queued (c : Nat) := (s.jobs.jobs.filter fun j => j.cls == c && j.firstAt.isNone).length
  let s := s.setWord R.JF_OCC (BitVec.ofNat 32 (held 0 + 2 ^ 8 * held 1 + 2 ^ 16 * held 2 + 2 ^ 24 * held 3))
  let s := s.setWord R.JF_QLEN (BitVec.ofNat 32 (queued 0 + 2 ^ 8 * queued 1 + 2 ^ 16 * queued 2 + 2 ^ 24 * queued 3))
  (List.range 4).foldl (fun t g =>
    let run := t.jobs.jobs.find? fun j => j.status == 2 && j.lanes.contains g
    let susp := t.jobs.jobs.find? fun j => j.status == 3 && j.lanes.contains g
    let shown := match run with
      | some j => some j
      | none => susp
    t.setWord (R.SA_SEQSTAT g) (match shown with
      | none => 0
      | some j => BitVec.ofNat 32 ((if run.isSome then 1 else 0) + (if run.any (·.ganged) then 2 else 0)
          + (if susp.isSome then 4 else 0) + 16 * j.kind + 2 ^ 8 * j.cls + 2 ^ 10 * j.proc + 2 ^ 16 * j.tag))) s

/-! Slots (R125). -/

/-- Slots of a class. -/
def State.slots (s : State) (c : Nat) : Nat :=
  match c with
  | 0 => 4
  | 1 => 28
  | 2 => max 1 (min 20 (s.get F.JF_CFG_C2_QUOTA))
  | _ => min 12 (s.get F.JF_CFG_C3_QUOTA)

/-- Slots of a class in use. -/
def State.slotsUsed (s : State) (c : Nat) : Nat := (s.jobs.jobs.filter fun j => j.cls == c && j.status != 0).length

/-- Is job a dispatched before job b: class, then deadline, NODL last, then order of submission (R127)? -/
def State.before (s : State) (a b : Job) : Bool :=
  if a.cls != b.cls then decide (a.cls < b.cls)
  else if a.hasDl != b.hasDl then a.hasDl
  else if a.hasDl && a.deadline != b.deadline then decide (sdiff a.deadline s.stamp < sdiff b.deadline s.stamp)
  else decide (a.ident < b.ident)

/-- The first of some jobs in the order of R127. -/
def State.firstJob (s : State) (l : List Job) : Option Job :=
  l.foldl (fun (b : Option Job) j => match b with
    | none => some j
    | some k => if s.before j k then some j else some k) none

/-- A job at its admission: it takes the JF_PIV and JF_RHO in force (07, registers). -/
def State.giveSlot (s : State) (j : Job) : Job :=
  { j with status := 1, epsSh := s.get F.JF_PIV_EPS_SH, regSh := s.get F.JF_PIV_REG_SH, rho := s.get64 R.JF_RHO }

/-- Give freed slots of a class to jobs waiting for one. -/
def State.admitWaiting (s : State) (c : Nat) : Nat → State
  | 0 => s
  | n + 1 =>
    match s.firstJob (s.jobs.jobs.filter fun j => j.cls == c && j.status == 0) with
    | none => s
    | some j => if s.slotsUsed c < s.slots c then ((s.putJob (s.giveSlot j)).pmu 41).admitWaiting c n else s

/-! Completion records (R115). -/

/-- The 32 bytes of a record. -/
def recordBytes (tag kind cls status reason flags nreg iters npre wait run : Nat) (endAt : Stamp) (resid : Word) : List Byte :=
  leBytes 4 (tag % 65536 + 2 ^ 16 * kind + 2 ^ 20 * cls + 2 ^ 24 * status + 2 ^ 27 * reason + 2 ^ 31)
    ++ leBytes 4 (flags + 2 ^ 16 * min nreg 65535)
    ++ leBytes 4 (iters + 2 ^ 16 * min npre 255)
    ++ leBytes 4 (min wait 0xFFFFFFFF) ++ leBytes 4 (min run 0xFFFFFFFF)
    ++ leBytes 8 endAt.toNat ++ leBytes 4 resid.toNat

/-- The completion interrupt of a record with IRQ (R113, R369). -/
def State.jobIrq (s : State) (proc tag status reason : Nat) : State :=
  if proc ≤ 10 then s.event (168 + proc) (BitVec.ofNat 32 (tag + 2 ^ 16 * status + 2 ^ 19 * reason)) .none else s

/-- Count a record's status. -/
def State.countStatus (s : State) (status : Nat) : State :=
  match status with
  | 1 => s.bump F.JF_CNT1_DL
  | 2 => s.bump F.JF_CNT1_DLMF
  | 3 => s.bump F.JF_CNT0_DELAYED
  | 5 => s.bump F.JF_CNT0_ABORTED
  | _ => s

/-- A record goes to memory, or back to the internal unit that submitted (R115; log entry 167). -/
def State.putRecord (s : State) (proc unit addr : Nat) (rec' : List Byte) : State :=
  if proc = 15 then s.modJobs fun x => { x with inRecs := (x.inRecs.filter fun e => e.1 != unit) ++ [(unit, rec')] }
  else s.storeBytes addr rec'

/-- Answer a submission at once with a record (REFUSED_FULL or ABORTED DESC). -/
def State.answer (s : State) (j : Job) (status reason : Nat) : State :=
  let s := s.countStatus status
  let s := s.putRecord j.proc j.unit j.recAddr (recordBytes j.tag j.kind j.cls status reason 0 0 0 0 0 0 s.stamp 0)
  let s := if j.irq then s.jobIrq j.proc j.tag status reason else s
  if 10 < j.proc then s else s.setWord (R.JF_SUBRES j.proc) (BitVec.ofNat 32 (2 + 2 ^ 16 * j.tag))

/-! Operands and results (R110, R111, R117). -/

/-- n words of eight bytes. -/
def State.ldVec (s : State) (a n : Nat) : List Word64 := (List.range n).map fun i => s.ld64 (a + 8 * i)

/-- A matrix of r rows and c columns held by columns, as its columns. -/
def State.ldCols (s : State) (a r c : Nat) : List (List Word64) := (List.range c).map fun j => s.ldVec (a + 8 * r * j) r

/-- A matrix of r rows and c columns held by columns, as its rows. -/
def State.ldRows (s : State) (a r c : Nat) : Mat := (List.range r).map fun i => (List.range c).map fun j => s.ld64 (a + 8 * (r * j + i))

/-- A symmetric matrix from its upper triangle, column by column. -/
def State.ldUpper (s : State) (a n : Nat) : Mat :=
  mmk n n fun i j => let r := min i j; let c := max i j; s.ld64 (a + 8 * (c * (c + 1) / 2 + r))

/-- The operands of a software job, from its input block (R111). Within the order the rule gives, the bounds of a QP are those
of its rows, then the lower and the upper bounds of its variables, and a pattern is N + 1 column starts and the row of each
entry, 32 bits each, filled up to eight bytes (log entry 169). -/
def State.loadProb (s : State) (j : Job) : Prob :=
  let a := j.inAddr
  let n := j.dimN
  let m := j.dimM
  match j.kind with
  | 1 => .lsq (s.ldCols a m n) (s.ldVec (a + 8 * m * n) m)
  | 2 =>
    let nnz := j.aux.toNat
    let va := a + 8 * ((4 * (n + 1 + nnz) + 7) / 8)
    let col (k : Nat) : List (Nat × Word64) :=
      let p := s.ld (a + 4 * k) 4
      (List.range (min nnz (s.ld (a + 4 * (k + 1)) 4) - p)).map fun e => (s.ld (a + 4 * (n + 1 + p + e)) 4, s.ld64 (va + 8 * (p + e)))
    .normal ((List.range n).map col) (s.ldVec (va + 8 * nnz) n)
  | 3 =>
    let fa := a + 8 * n * n
    let ca := fa + 8 * n
    let ba := ca + 8 * m * n
    .qp ⟨s.ldRows a n n, s.ldVec fa n,
      (List.range m).map fun i => ((List.range n).map fun k => (k, s.ld64 (ca + 8 * (m * k + i))), s.ld64 (ba + 8 * i)),
      j.aux.toNat, (s.ldVec (ba + 8 * m) n).map some, (s.ldVec (ba + 8 * (m + n)) n).map some⟩
  | 4 =>
    let pa := a + 8 * n
    let ha := pa + 8 * (n * (n + 1) / 2)
    let ya := ha + 8 * m * n
    if m = 0 then .kf (s.ldVec a n) (s.ldUpper pa n) (s.ldRows ha n n) [] (s.ldRows (ha + 8 * n * n) n n)
    else .kf (s.ldVec a n) (s.ldUpper pa n) (s.ldRows ha m n) (s.ldVec ya m) (s.ldRows (ya + 8 * m) m m)
  | 5 => .assign (s.ldRows a n m) (s.ldVec (a + 8 * n * m) n)
  | _ => .empty

/-- A job's starter, in the layout of x in its output block (R112). -/
def State.loadStarter (s : State) (j : Job) (a : Nat) : List Word64 :=
  if j.kind = 5 then (List.range j.dimN).map fun i => BitVec.ofNat 64 (s.ld (a + 2 * i) 2) else s.ldVec a j.dimN

/-- A job takes its operands when it is first dispatched (R110): a software job from memory; its starter is iterate 0 (R117). -/
def State.loadJob (s : State) (j : Job) : Job :=
  let p := if j.proc = 15 then j.prob else s.loadProb j
  let st := if j.proc = 15 then j.starter else j.stAddr.map (s.loadStarter j)
  let best := st.map fun x => let i := p.iter j.rho 0 (p.point x); ({ i.1 with x := x }, i.2)
  { j with prob := p, starter := st, sol := p.start st, best := best.map (·.1),
           flags := if best.any fun b => b.2 then setBit 2 j.flags else j.flags }

/-- The iterate a job returns: the best completed, else the starter, else zeros; with the flags DEGRADED, BEST_OLD and
STARTER_RET (R117, R120, R124). -/
def Job.returned (j : Job) : Iter × Nat :=
  match j.best with
  | some b => (b, (if b.sat then 8 else 0) + (if b.k < j.done then 64 else 0) + (if b.k = 0 then 128 else 0))
  | none =>
    let z := List.replicate j.dimN (0 : Word64)
    ({ (j.prob.iter j.rho 0 (j.prob.point z)).1 with x := z, sat := false }, 128)

/-- A list of 16-bit indices, ended by 0xFFFF where fewer than n stand in it (log entry 171). -/
def indexList (n : Nat) (l : List Nat) : List Byte :=
  (((l.take n).map fun i => leBytes 2 i) ++ [if l.length < n then [0xFF, 0xFF] else []]).flatten

/-- Write the output block of a software job (R111): x, and after it the columns that received a regularised pivot, or the
multipliers and the active set; of an ASSIGN one 16-bit column index per row. -/
def State.writeOut (s : State) (j : Job) (i : Iter) : State :=
  if j.proc = 15 then s
  else
    let w (l : List Word64) : List Byte := (l.map fun v => leBytes 8 v.toNat).flatten
    let m := match j.prob with
      | .qp q => q.cons
      | _ => 0
    s.storeBytes j.outAddr (match j.kind with
      | 5 => (i.x.map fun v => leBytes 2 v.toNat).flatten
      | 3 => w i.x ++ w ((List.range m).map fun c => (i.lam.lookup c).getD 0) ++ indexList m i.act
      | _ => w i.x ++ indexList 256 j.reg)

/-- Iterations completed: a job without check points runs the whole of one (R111, R116). -/
def Job.iterCount (j : Job) (status : Nat) : Nat := if j.iterates then j.done else if status = 0 then 1 else 0

/-- A job never dispatched that returns an iterate returns its starter as it stands in memory (R122). -/
def State.loadUnrun (s : State) (j : Job) (status : Nat) : Job :=
  if status ≠ 5 && j.iterates && j.firstAt.isNone then s.loadJob j else j

/-- End a job with a status and a reason: its output, record, counters, slot and lane groups (R115, R125). -/
def State.endJob (s : State) (j : Job) (status reason : Nat) : State :=
  let now := s.now
  let wait := match j.firstAt with
    | some t => t - j.submitAt
    | none => now - j.submitAt
  let run := j.ranNs + (if j.status = 2 then now - j.sinceAt else 0)
  let outs := status ≠ 5 && j.iterates
  let j := s.loadUnrun j status
  let ret := j.returned
  let s := if outs then s.writeOut j ret.1 else s
  let flags := j.flags + (if j.waited then 32 else 0) + (if outs then ret.2 else 0)
  let resid := if outs then (f64to32F (if j.kind = 5 then ret.1.merit else ret.1.resid)).1 else 0
  let s := s.putRecord j.proc j.unit j.recAddr
    (recordBytes j.tag j.kind j.cls status reason flags j.nreg (j.iterCount status) j.npre wait run s.stamp resid)
  let s := s.countStatus status
  let s := if j.kind = 4 && status = 0 then s.pmu 45 else s
  let m := s.get (F.JF_WAITMAX_MAX_NS j.cls)
  let s := if m < wait then s.set (F.JF_WAITMAX_MAX_NS j.cls) (min wait 0xFFFFFFFF) else s
  let s := s.modJobs fun x =>
    { x with jobs := x.jobs.filter (fun k => k.ident != j.ident),
             idleAt := if j.status = 2 then (List.range 4).map (fun g => if j.lanes.contains g then now else x.idleAt.getD g 0)
                       else x.idleAt }
  let s := (s.admitWaiting j.cls 64).showJobs
  if j.irq then s.jobIrq j.proc j.tag status reason else s

/-! Submission (R112 to R114, R126). -/

/-- The classes a domain may submit (R113). -/
def maySubmit (d : Dom) (c : Nat) : Bool :=
  match d with
  | .safe => c == 0
  | .svc => 1 ≤ c && c ≤ 3
  | .block => c == 2 || c == 3
  | .host => c == 3

/-- The domain of a submit index. -/
def subDom (x : Nat) : Dom := if x = 0 then .svc else if x = 1 then .safe else if x = 10 then .host else .block

/-- Limits of the job kinds software may submit (R111). -/
def kindLimits (kind n m : Nat) (aux : Nat) : Bool :=
  match kind with
  | 1 => decide (m ≤ 256) && decide (n ≤ 256) && decide (n ≤ m)
  | 2 => decide (n ≤ 16384) && decide (aux ≤ 1000000)
  | 3 => decide (n ≤ 192) && decide (m ≤ 512) && decide (aux ≤ m)
  | 4 => decide (n ≤ 64) && decide (m ≤ 3)
  | 5 => decide (n ≤ 64) && decide (m ≤ 256)
  | _ => false

/-- The scheduled C1 deadlines of this and the next cycle (R126). -/
def State.c1Sched (s : State) : List Nat :=
  if !s.run then []
  else
    let sk := s.atSk
    let qp := s.atQpDl
    [sk, qp, sk + s.tDp, qp + s.tDp]

/-- Does a C1 deadline lie 0 to GUARD_US ahead (R126)? -/
def State.guarded (s : State) : Bool :=
  let g : Int := s.get F.JF_CFG_GUARD_US * 1000
  let near (st : Stamp) : Bool := let d := sdiff st s.stamp; decide (0 ≤ d) && decide (d ≤ g)
  (s.jobs.jobs.any fun j => j.cls == 1 && j.status != 0 && j.hasDl && near j.deadline)
    || s.c1Sched.any fun t => near (stampOf t)

/-- Take a checked job in: refused over quota or in the guard (C3), else admitted or queued (R125, R126). -/
def State.takeJob (s : State) (j : Job) : State :=
  if j.cls = 3 && decide (s.slots 3 ≤ s.slotsUsed 3) then ((s.bump F.JF_CNT0_REF_QUOTA).pmu 42).answer j 4 1
  else if j.cls = 3 && s.guarded then ((s.bump F.JF_CNT0_REF_GUARD).pmu 42).answer j 4 2
  else
    let adm := decide (s.slotsUsed j.cls < s.slots j.cls) && !(s.jobs.jobs.any fun k => k.cls == j.cls && k.status == 0)
    let now := s.now
    let j := { j with ident := s.jobs.nextId, status := 0, waited := !adm && j.cls == 2, submitAt := now }
    let j := if adm then s.giveSlot j else j
    let s := (s.modJobs fun x => { x with jobs := x.jobs ++ [j], nextId := x.nextId + 1 }).showJobs
    let s := if adm then s.pmu 41 else s
    if j.proc = 15 then s
    else s.setWord (R.JF_SUBRES j.proc) (BitVec.ofNat 32 ((if adm then 0 else 1) + 2 ^ 16 * j.tag))

/-- A job before anything has happened to it. -/
def newJob (proc unit kind cls n m : Nat) (deadline : Option Stamp) (iters : Nat) : Job :=
  { ident := 0, proc := proc, unit := unit, tag := 0, kind := kind, cls := cls, conv := 0, iters := iters, iterMin := 0, tol := 0,
    aux := 0, deadline := deadline.getD 0, hasDl := deadline.isSome, inAddr := 0, outAddr := 0, recAddr := 0, stAddr := none,
    starter := none, irq := false, dimN := n, dimM := m, status := 0, waited := false, submitAt := 0, firstAt := none,
    lanes := [], done := 0, nreg := 0, npre := 0, ranNs := 0, sinceAt := 0, best := none, flags := 0, atPanel := false,
    panels := 0, abort := none, ending := none, epsSh := 0, regSh := 0, rho := 0, prob := .empty, fact := .empty, sol := .init, reg := [] }

/-- A job as an internal unit submits it, through its own port, with its operands. -/
def internalJob (unit kind cls n m : Nat) (deadline : Option Stamp) (iters : Nat) (starter : Option (List Word64)) (p : Prob) : Job :=
  { newJob 15 unit kind cls n m deadline iters with starter := starter, prob := p }

/-- Is the submit queue of a class full (R114)? A C3 queue never is. -/
def State.classFull (s : State) (c : Nat) : Bool :=
  c != 3 && decide (64 ≤ (s.jobs.jobs.filter fun j => j.cls == c && j.firstAt.isNone).length)

/-- Submit an internal unit's job through its own port; into a full queue it is held (R114). -/
def State.submitInternal (s : State) (j : Job) : State :=
  if s.classFull j.cls then (s.bump F.JF_CNT1_HOLD).modJobs fun q => { q with held := q.held ++ [.port j] } else s.takeJob j

/-- Are reserved fields of a descriptor 0 (R112)? -/
def descReserved (w : Nat → Nat) : Bool :=
  w 0 / 2 ^ 11 % 32 == 0 && w 5 / 2 ^ 16 == 0 && w 9 / 256 == 0 && w 11 / 256 == 0 && w 13 / 256 == 0 && w 15 / 256 == 0

/-- Word i of the descriptor at an address, and the address that begins at word i. -/
def State.descWord (s : State) (a i : Nat) : Nat := s.ld (a + 4 * i) 4
def State.descAddr (s : State) (a i : Nat) : Nat := s.descWord a i + 2 ^ 32 * (s.descWord a (i + 1) % 256)

/-- Can a record be written for the descriptor at an address (R113)? A descriptor outside SRAM and DRAM names none (log entry 173). -/
def State.descRec (s : State) (a : Nat) : Bool :=
  s.inSramOrDram a 64 && s.descAddr a 14 % 32 == 0 && s.inSramOrDram (s.descAddr a 14) 32

/-- Are the supernode fronts of an LSQ_SPARSE job within the limit of R111 (log entry 244)? -/
def State.frontsOk (s : State) (kind n nnz a : Nat) : Bool :=
  kind != 2 || decide (Config.frontRows (s.bytes a (4 * (n + 1 + nnz))) ≤ 256)

/-- Is the descriptor at an address, from index x, in order (R111 to R113)? -/
def State.descOk (s : State) (x a : Nat) : Bool :=
  let w := s.descWord a
  let okAdr (b : Nat) : Bool := b % 8 == 0 && s.inSramOrDram b 8
  let cls := w 0 / 16 % 4
  descReserved w && kindLimits (w 0 % 16) (w 1 % 65536) (w 1 / 65536) (w 3) && maySubmit (subDom x) cls
    && (w 0 / 1024 % 2 != 1 || cls == 3) && w 0 / 64 % 4 != 3 && okAdr (s.descAddr a 8) && okAdr (s.descAddr a 10)
    && (w 0 / 512 % 2 != 1 || okAdr (s.descAddr a 12)) && s.frontsOk (w 0 % 16) (w 1 % 65536) (w 3) (s.descAddr a 8)

/-- The job that the descriptor at an address asks for (R112). -/
def State.descJob (s : State) (x a : Nat) : Job :=
  let w := s.descWord a
  { newJob x 0 (w 0 % 16) (w 0 / 16 % 4) (w 1 % 65536) (w 1 / 65536) none (max 1 (w 2 % 65536)) with
    tag := w 0 / 2 ^ 16, conv := w 0 / 64 % 4, iterMin := w 2 / 65536, irq := w 0 / 256 % 2 == 1,
    tol := BitVec.ofNat 64 (w 6 + 2 ^ 32 * w 7), aux := BitVec.ofNat 32 (w 3),
    deadline := BitVec.ofNat 48 (w 4 + 2 ^ 32 * (w 5 % 65536)), hasDl := w 0 / 1024 % 2 != 1,
    inAddr := s.descAddr a 8, outAddr := s.descAddr a 10, recAddr := s.descAddr a 14,
    stAddr := if w 0 / 512 % 2 = 1 then some (s.descAddr a 12) else none }

/-- Submit the descriptor at an address through index x (R113): dropped with BADREC, answered at once, or taken in. -/
def State.submitAt (s : State) (x a : Nat) : State :=
  if !s.inSramOrDram a 64 then s.set (F.JF_SUBRES_RESULT x) 3
  else if !s.descRec a then s.setWord (R.JF_SUBRES x) (BitVec.ofNat 32 (3 + 2 ^ 16 * (s.descWord a 0 / 2 ^ 16)))
  else if s.descOk x a then s.takeJob (s.descJob x a)
  else s.answer (s.descJob x a) 5 0

/-- The class of the descriptor at an address. -/
def State.descClass (s : State) (a : Nat) : Nat := s.ld a 4 / 16 % 4

/-- May a held submission be taken now (R114)? -/
def State.heldFits (s : State) (h : Held) : Bool :=
  match h with
  | .bus _ a => !s.classFull (s.descClass a)
  | .port j => !s.classFull j.cls

/-- A write of JF_SUBL of index x by its own processor (R113, R114). What is answered or dropped at once waits for no entry (R111). -/
def subWrite (s : State) (d : Dom) (x : Nat) (v : Word) : State × CpSt :=
  if d != subDom x then (s.offAccess 6, .denied)
  else s.writeGuard d (R.JF_SUBL x) fun s =>
    let a := v.toNat + 2 ^ 32 * s.get (F.JF_SUBH_ADDR_HI x)
    if v.toNat % 64 ≠ 0 then (s.set (F.JF_SUBRES_RESULT x) 3, .ok)
    else if s.descRec a && s.descOk x a && s.classFull (s.descClass a) then
      ((s.bump F.JF_CNT1_HOLD).modJobs fun q => { q with held := q.held ++ [.bus x a] }, .ok)
    else (s.submitAt x a, .ok)

/-- A write of JF_SUBH of index x by its own processor (07, registers). -/
def subHWrite (s : State) (d : Dom) (x : Nat) (v : Word) : State × CpSt :=
  if d != subDom x then (s.offAccess 6, .denied) else s.plainWrite d (R.JF_SUBH x) v

/-- A write of JF_CFG: a raised C2_QUOTA gives its slots to the jobs that wait for one (R125). -/
def jfCfgWrite (s : State) (d : Dom) (v : Word) : State × CpSt :=
  let r := s.plainWrite d R.JF_CFG v
  if r.2 = .ok then ((r.1.admitWaiting 2 64).showJobs, .ok) else r

/-- JOB_SUBMIT: a write of JF_SUBL (R113). -/
def execJobSubmit (d : Dom) (x : Fin 11) (v : Word) (s : State) : Host.Outcome State Fault Refusal :=
  s.ends (subWrite s d x.val v).1

/-- SUBMIT_HOLD_RELEASE: the oldest held submission whose queue has an entry free is taken (R114). -/
def execSubmitHoldRelease (s : State) : Host.Outcome State Fault Refusal :=
  s.ends (
    match s.jobs.held.find? s.heldFits with
    | none => s
    | some h =>
      let s := s.modJobs fun q => { q with held := q.held.erase h }
      match h with
      | .bus x a => s.submitAt x a
      | .port j => s.takeJob j)

/-! Dispatch, suspension, resumption (R127). -/

/-- The waiting jobs of one engine: 0 the lane groups, 1 the projector, 2 the tracker. -/
def State.waiting (s : State) (e : Nat) : List Job :=
  s.jobs.jobs.filter fun j => j.status == 1 && (if e = 0 then j.onSa else if e = 1 then j.kind == 6 else j.kind == 7)

/-- The lane groups a job would start on, when they are free. -/
def State.lanesFor (s : State) (j : Job) : Option (List Nat) :=
  if !j.onSa then (if s.jobs.jobs.any (fun k => k.kind == j.kind && k.status == 2) then none else some [])
  else if j.ganged then (if s.freeLanes.length = 4 then some [0, 1, 2, 3] else none)
  else s.freeLanes.head?.map fun g => [g]

/-- Start a waiting job on its lane groups; at its first dispatch it loads its operands. -/
def State.startJob (s : State) (j : Job) (lanes : List Nat) : State :=
  let now := s.now
  let j := if j.firstAt.isNone then s.loadJob j else j
  (s.putJob { j with status := 2, lanes := lanes, firstAt := some (j.firstAt.getD now), sinceAt := now }).showJobs

/-- Must a job with a passed deadline not start (R122)? -/
def State.tooLate (s : State) (j : Job) : Bool := s.late j && j.kind != 6 && j.kind != 7

/-- JOB_DISPATCH: on each engine that is free, the first waiting job in the order of R127 starts; a job whose deadline
has passed does not (R122). -/
def execJobDispatch (s : State) : Host.Outcome State Fault Refusal :=
  s.ends ([0, 1, 2].foldl (fun t e =>
    match t.firstJob ((t.waiting e).filter fun j => !t.tooLate j) with
    | none => t
    | some j => match t.lanesFor j with
      | none => t
      | some l => t.startJob j l) s)

/-- Does a waiting job of a higher class need a lane group this job holds (R127)? -/
def State.mustYield (s : State) (j : Job) : Bool :=
  (s.waiting 0).any fun k => decide (k.cls < j.cls) && (s.lanesFor k).isNone

/-- Suspend a running job at its check point (R127). -/
def State.suspend (s : State) (j : Job) : State :=
  let now := s.now
  let s := s.putJob { j with status := 3, npre := j.npre + 1, ranNs := j.ranNs + (now - j.sinceAt) }
  let s := s.modJobs fun x => { x with idleAt := (List.range 4).map fun g => if j.lanes.contains g then now else x.idleAt.getD g 0 }
  (s.bump F.JF_CNT1_PREEMPT).showJobs

/-- An iterate's merit is no worse than the best so far: on a tie the later wins (R117). -/
def betterIter (b : Option Iter) (merit : Word64) : Bool :=
  match b with
  | none => true
  | some x => fle merit x.merit

/-- Panels of the first factorisation (R111). -/
def Job.panelCount (j : Job) : Nat := (j.prob.columns + 15) / 16

/-- May the job's next check point be of this kind: a panel of its first factorisation, or after all of them an iteration? -/
def Job.nextIs (j : Job) (panel : Bool) : Bool :=
  if panel then j.done == 0 && decide (j.panels < j.panelCount) else decide (0 < j.done) || j.panels == j.panelCount

/-- What a job is after a check point's work: a panel of its first factorisation, or one iteration (R111, R117, R123, R124);
the second says that it has reached its optimum (R116). -/
def Job.work (j : Job) (panel : Bool) : Job × Bool :=
  if panel then ({ j with panels := j.panels + 1, atPanel := true }, false)
  else
    let k := j.done + 1
    let o := j.prob.step j.fact j.epsSh j.regSh j.tol k j.sol
    let (i, ovf) := j.prob.iter j.rho k o.sol
    let fl := j.flags
    let fl := if o.pivots.contains 1 then setBit 0 fl else fl
    let fl := if o.pivots.contains 2 then setBit 1 fl else fl
    let fl := if o.ovf || ovf then setBit 2 fl else fl
    let regs := (o.pivots.zipIdx.filter fun p => p.1 != 0).map (·.2)
    ({ j with done := k, sol := o.sol, flags := fl, nreg := j.nreg + regs.length, atPanel := false,
              reg := if k = 1 then regs else j.reg, fact := if k = 1 then j.prob else j.fact,
              best := if betterIter j.best i.merit then some i else j.best }, o.optimum)

/-- Has the job converged at an iteration check point, the residual being its latest iterate's (R116)? The second says
CAPPED. -/
def Job.converged (j : Job) (optimum : Bool) : Bool × Bool :=
  if j.atPanel then (false, false)
  else if optimum then (true, false)
  else
    let resid := (j.prob.score j.rho j.sol).2.v
    match j.conv with
    | 0 => (decide (j.iters ≤ j.done), false)
    | 1 => if fle resid j.tol then (true, false) else (decide (j.iters ≤ j.done), true)
    | _ => if fle resid j.tol && decide (j.iterMin ≤ j.done) then (true, false) else (decide (j.iters ≤ j.done), true)

/-- Words of the scratch that a job reads now had these errors: it owns none if its operands stay in DRAM (R110). -/
def State.scratch (s : State) (j : Job) (corr : Nat) (ecc : Bool) : State × Bool :=
  if j.kind = 2 then (s, false)
  else
    let s := s.bumpBy F.SA_ECC_CORR corr
    if ecc then (s.bump F.SA_ECC_UNCORR, true) else (s, false)

/-- The operands of an LSQ_SPARSE job stay in DRAM (R110): it reads them again as it goes on. An internal unit's stand in the job. -/
def State.sparseRead (s : State) (j : Job) : Job := if j.kind = 2 && j.proc ≠ 15 then { j with prob := s.loadProb j } else j

/-- While it factors, an LSQ_SPARSE job writes its factor behind its output block (R407; log entry 228). -/
def State.factorWrite (s : State) (j : Job) : State :=
  match j.prob with
  | .normal a _ =>
    if j.kind = 2 && j.proc ≠ 15 && j.done = 0 then
      s.storeBytes (j.outAddr + 8 * j.dimN + 512) (Config.factorBytes a j.panels)
    else s
  | _ => s

/-- JOB_CHECK_POINT: a running iterating job reaches a check point: scratch errors, a stop, a non-finite input, convergence
before the deadline before a pending abort, then suspension (R110, R116 to R120, R124, R127, R129, R130). The outcome found
waits for its record, which JOB_COMPLETE writes. -/
def execJobCheckPoint (i : Nat) (c : CheckPoint) (s : State) : Host.Outcome State Fault Refusal :=
  s.ends (
    match s.job i with
    | none => s
    | some j =>
      if j.status ≠ 2 || !j.iterates || j.ending.isSome || !j.nextIs c.panel then s
      else
        let (s, bad) := s.scratch j c.corr c.ecc
        let j := s.sparseRead j
        let s := s.factorWrite j
        let (k, opt) := j.work c.panel
        let (cv, cap) := k.converged opt
        if bad then s.putJob { j with ending := some (5, 5) }
        else if j.abort = some 3 then s.putJob { j with ending := some (5, 3) }
        else if j.prob.nonfinite then s.putJob { j with ending := some (5, 4) }
        else if cv then s.putJob { k with flags := if cap then setBit 4 k.flags else k.flags, ending := some (0, 0) }
        else if s.late k then s.putJob { k with ending := some (if c.panel then 2 else 1, 0) }
        else match k.abort with
          | some r => s.putJob { k with ending := some (5, r) }
          | none => if s.mustYield k then s.suspend k else s.putJob k)

/-! Aborts (R129, R130). -/

/-- May a domain abort a job of submit index p and class c (R129)? -/
def mayAbort (d : Dom) (p c : Nat) : Bool :=
  match d with
  | .host => p == 10
  | .svc => p == 0 || (1 ≤ c && c ≤ 3)
  | .block => 2 ≤ p && p ≤ 9
  | .safe => c == 0

/-- Abort one job (R129): the result code, and the state. -/
def State.abortJob (s : State) (j : Job) (reason : Nat) : State × Nat :=
  match j.status with
  | 2 => if j.iterates then (s.putJob { j with abort := some reason }, 2) else (s, 3)
  | _ => (s.endJob j 5 reason, 1)

/-- What a stop of its job leaves of a unit's work (R130, R90, R78, R141): a tracker assignment is not applied and counts; no
ego-motion sample comes; an allocation chain is cut, with nothing staged. -/
def State.stopUnit (s : State) (unit : Nat) : State :=
  match unit with
  | 3 => { (s.bump F.TRK_CNT_AS_FAIL) with trk := { s.trk with rows := [], cols := [] } }
  | 4 => s.setFlag F.FE_EGO_STAT_EGO_VALID false
  | 6 =>
    let a := s.alc
    let s := (s.set F.ALC_STAT_PASSES (min 7 a.count)).set F.ALC_STAT_LAST_STATUS 5
    let s := s.set F.ALC_TIME_CHAIN_US (min 65535 ((s.now - a.latchAt) / 1000))
    let s := ((s.setFlag F.ALC_STAT_CUT true).set F.ALC_STAT_CUT_PASS (a.count - 1)).bump F.ALC_CNT_CUT_CNT
    { s with alc := { a with running := false, stagedOk := false, qp := none } }
  | _ => s

/-- End an internal unit's job with STOP. -/
def State.stopJob (s : State) (j : Job) : State := (s.endJob j 5 3).stopUnit j.unit

/-- STOP of the internal units' jobs (R130): queued and suspended ones end at once, one held on a full queue too, running ones
at their next check point, or at their end if they have none. -/
def State.stopInternal (s : State) : State :=
  let held := s.jobs.held
  let s := s.modJobs fun q => { q with held := q.held.filter fun h => match h with
    | .bus _ _ => true
    | .port _ => false }
  let s := held.foldl (fun t h => match h with
    | .bus _ _ => t
    | .port j => (t.answer j 5 3).stopUnit j.unit) s
  (s.jobs.jobs.filter fun j => j.proc == 15).foldl (fun t j =>
    if j.status = 2 then t.putJob { j with abort := some 3 } else t.stopJob j) s

end Sys2Proof.Machine
end

