-- ==== Sys2Proof/Machine/Snap.lean ====
section
/-!
DEFINITION. What a snap does to the streams: latching, late samples, stream states, descriptor commits, and the frame
projector (02_streams R38, R39; 03_projection_alignment R49 to R61).
-/
namespace Sys2Proof.Machine

/-- Change the estimator's state. -/
def State.modEst (s : State) (f : Est → Est) : State := { s with est := f s.est }

/-- The binary64 registers of an array. -/
def State.vec (s : State) (l : List Nat) : List Word64 := l.map s.get64

/-- Store binary64 registers. -/
def State.setVec (s : State) (l : List Nat) (v : List Word64) : State :=
  (l.zip v).foldl (fun t p => t.set64 p.1 p.2) s

/-- A stream's lever arm (active copy). -/
def State.fdl (s : State) (n : Nat) : List Word64 := s.vec ((List.range 3).map (R.FE_SC_FDL n))
/-- A stream's misalignment matrix (active copy). -/
def State.fdc (s : State) (n : Nat) : Mat :=
  (List.range 3).map fun i => s.vec ((List.range 3).map fun j => R.FE_SC_FDC n (3 * i + j))

/-! Latching (R38, R49, R52, R53). -/

/-- The sample stamp of an entry (R49). -/
def State.sampleStamp (s : State) (n : Nat) (e : Entry) : Stamp :=
  let k := s.get (F.FE_SC_CFG_SRC_KIND n)
  if 5 ≤ k then e.srcTime.truncate 48
  else if s.flag (F.FE_SC_CFG_OWNSTAMP n) && e.flags % 2 == 1 && s.get (F.FE_SC_OFSSTAT_LSTATE n) == 2 then
    let t := BitVec.ofInt 48 (e.srcTime.toInt + (s.stream n).trk.ofs)
    if sdiff e.arr t < 0 then e.arr else t
  else e.arr

/-- A handled entry that was measured before the previous snap but arrived after it is late (R53). -/
def State.lateEntry (s : State) (n : Nat) (prev : Stamp) (e : Entry) : State :=
  if (s.stream n).firstSnap then s
  else if sdiff (s.sampleStamp n e) prev ≤ 0 && sdiff e.arr prev > 0 then
    let s := s.bump (F.FE_SC_LATE_LATE_CNT n)
    let s := s.set (F.FE_SC_LATE_LAST_US n) (min 16383 ((sdiff e.arr prev).toNat / 1000))
    if s.flag (F.FE_SC_LATE_CRUMB_EN n) then s.record (512 + n) (BitVec.ofNat 32 (s.get (F.FE_SC_LATE_LAST_US n))) .crumb else s
  else s

/-- The TYPE of stream n in the cycle image. -/
def State.styp (s : State) (n : Nat) : Nat := (F.FE_SC_CFG_TYPE n).of (s.stream n).cfg
/-- Was stream n enabled at the snap? -/
def State.sen (s : State) (n : Nat) : Bool := (F.FE_SC_CFG_EN n).of (s.stream n).cfg == 1
/-- The target stream of stream n in the cycle image. -/
def State.starget (s : State) (n : Nat) : Nat := (F.FE_SC_CFG_TARGET n).of (s.stream n).cfg

/-- The image takes a stream's configuration. Where EN is 0, or was cleared since the last snap, the sample of before is gone; a
sample that came after EN was set again is latched at this snap and shows by its age (R34, R39; DESIGN CHOICE, log entry 189). -/
def State.imageCfg (s : State) (n : Nat) : State :=
  let cfg := s.word (R.FE_SC_CFG n)
  let gone := !s.flag (F.FE_SC_CFG_EN n) || (s.stream n).cut
  s.modStream n fun x =>
    { x with cfg := cfg, cut := false, returns := [], latched := if gone then none else x.latched,
             latchedNew := !gone && x.latchedNew, weight := if gone then none else x.weight }

/-- Latch stream n at a snap (R38, R52). -/
def State.latch (s : State) (n : Nat) (snap prev : Stamp) : State :=
  let s := s.imageCfg n
  let q := (s.stream n).queue
  let sel := q.filter fun e => decide (sdiff e.arr snap ≤ 0)
  let rest := q.filter fun e => !decide (sdiff e.arr snap ≤ 0)
  let rel := s.styp n == 2
  match sel.getLast? with
  | none =>
    (s.modStream n fun x => { x with latchedNew := false, firstSnap := false }).set (F.FE_SC_STAT_QFILL n) rest.length
  | some e =>
    let st := s.sampleStamp n e
    let old := match (s.stream n).latched with
      | some _ => decide (sdiff st (s.stream n).latchedAt ≤ 0)
      | none => false
    -- an entry that is latched or counted may be late (R53)
    let s := (if rel && old then [e] else sel).foldl (fun t x => t.lateEntry n prev x) s
    let gone := if old then (if rel then 1 else sel.length) else (if rel then 0 else sel.length - 1)
    let s := s.bumpBy (F.FE_SC_CNT_SUPERSEDED n) gone
    let rets := if rel && !old then (sel.drop (sel.length - 16)).map fun x => (x, s.sampleStamp n x) else []
    let s := s.modStream n fun x =>
      { x with queue := rest, latched := if old then x.latched else some e, latchedAt := if old then x.latchedAt else st,
               latchedNew := !old, returns := rets, firstSnap := false }
    (s.set (F.FE_SC_STAT_QFILL n) rest.length).set (F.FE_SC_STAT_SEQ n)
      (match (s.stream n).latched with
       | some x => x.seq.toNat
       | none => 0)

/-! Stream state (R39). -/

/-- Is the stream's source gone: its port down, its NAME's address lost, its Zaley peer detached (R39, R44, R47)? -/
def State.sourceGone (s : State) (n : Nat) : Bool :=
  let port := s.get (F.FE_SC_CFG_SRC_PORT n)
  let peerGone := s.fe.peers.any fun p => (p.state == 2 || p.state == 3) && Config.peerStream p.node n
  peerGone || match s.get (F.FE_SC_CFG_SRC_KIND n) with
  | 1 => !s.flag (F.UART_CFG_EN port)
  | 2 =>
    let i := s.get (F.FE_SC_MATCH_INST n)
    !s.flag (F.CAN_CFG_EN port) || (1 ≤ i && i ≤ 32 && !s.flag (F.CAN_NAMEST_PRESENT port (i - 1)))
  | 3 => !([0, 1] : List Nat).any fun p => s.flowOn port p && s.flag (F.NET_STAT_LINK p)
  | 4 => !([0, 1] : List Nat).any fun p => s.flowOn port p && s.flag (F.NET_STAT_LINK p)
  | _ => false

/-- STREAM_STATE_EVALUATE: state and flags of stream n at a snap (R39); a change raises source 32 + n and a crumb. -/
def State.evalStream (s : State) (n : Nat) (snap : Stamp) : State :=
  let en := s.flag (F.FE_SC_CFG_EN n)
  let x := s.stream n
  let has := en && x.latched.isSome
  let age : Nat := if has then (sdiff snap x.latchedAt).toNat else 0
  let warn := s.get (F.FE_SC_AGE_AGE_WARN n) * 1000000
  let stale := s.get (F.FE_SC_AGE_AGE_STALE n) * 1000000
  let gone := en && s.sourceGone n
  let staleF := has && decide (stale < age)
  let agedF := has && decide (warn < age) && decide (age ≤ stale)
  let skewF := en && s.get (F.FE_SC_OFSSTAT_LSTATE n) == 3
  let rejF := en && x.rejected
  let st : Nat :=
    if !en || !has || gone || !s.streamValid n then 0
    else if staleF then 3 else if rejF then 5 else if skewF then 4 else if agedF then 2 else 1
  let was := s.get (F.FE_SC_STAT_STATE n)
  let b (c : Bool) (k : Nat) : Nat := if c then 2 ^ k else 0
  let low := st + b agedF 3 + b staleF 4 + b skewF 5 + b rejF 6 + b gone 7
  let s := s.setWord (R.FE_SC_STAT n) ((s.word (R.FE_SC_STAT n) &&& 0xFFFFFF00#32) ||| BitVec.ofNat 32 low)
  let s := s.setWord (R.FE_SC_AGEN n) (if has then BitVec.ofNat 32 (min 0xFFFFFFFF (age / 1000)) else 0xFFFFFFFF)
  let s := if st = 0 then s.modStream n fun x => { x with weight := none } else s
  if st = was then s else s.event (32 + n) (s.word (R.FE_SC_STAT n)) .crumb

/-- Usable: LIVE, AGED or SKEWED (R58). -/
def State.usableStream (s : State) (n : Nat) : Bool :=
  let st := s.get (F.FE_SC_STAT_STATE n)
  st == 1 || st == 2 || st == 4

/-! Descriptor commits (R57). -/

/-- The addresses of a descriptor's words. -/
def fdAddrs (n : Nat) : List Nat := wordsFrom (R.FE_SC_FDL n 0) 24

/-- A shadow binary64. -/
def State.sh64 (s : State) (a : Nat) : Word64 := (s.shWord (a + 4)) ++ (s.shWord a)

/-- May a shadow descriptor be copied: CᵀC - I within 1e-6, lever arm within 1000 m (R57)? -/
def State.fdOk (s : State) (n : Nat) : Bool :=
  let c : Mat := (List.range 3).map fun i => (List.range 3).map fun j => s.sh64 (R.FE_SC_FDC n (3 * i + j))
  let e := msub (mmul (mtr 3 c) c) (mident 3)
  e.all (fun r => r.all fun v => fle (fabs v) (k64 1 1000000))
    && (List.range 3).all fun i => fle (fabs (s.sh64 (R.FE_SC_FDL n i))) (k64 1000 1)

/-- DESCRIPTOR_COPY: every marked shadow is checked and copied at the snap (R57). -/
def State.copyDescriptors (s : State) : State :=
  streamIds.foldl (fun t n =>
    if !(t.stream n).fdMark then t
    else
      let t := if t.fdOk n then t.commitShadow (fdAddrs n) else (t.setFlag F.FP_STAT_FD_BAD true).set F.FP_STAT_FD_BADID n
      t.modStream n fun x => { x with fdMark := false }) s

/-- A write of FP_FD_COMMIT marks a stream; a surveyed stream's commit overtakes a proposal (R57, R81). -/
def fdCommitWrite (s : State) (d : Dom) (v : Word) : State × CpSt :=
  s.writeGuard d R.FP_FD_COMMIT fun s =>
    let n := v.toNat % 128
    if n = 0 then (s, .ok)
    else
      let s := s.modStream n fun x => { x with fdMark := true }
      let p := s.get F.FE_SURV_STAT_PSTATE
      if (p = 1 || p = 2) && s.flag (F.FE_MN_CFG_SURV n) then (s.setFlag F.FE_SURV_STAT_STALE_PROP true, .ok)
      else (s, .ok)

/-- FD_COMMIT_WRITE (R57). -/
def execFdCommitWrite (d : Dom) (v : Word) (s : State) : Host.Outcome State Fault Refusal := s.ends (fdCommitWrite s d v).1

/-! Projection (R58 to R61). -/

/-- The origin in force: FP_ORG once loaded, else the first geodetic sample (R58). -/
def State.origin (s : State) : Option (List Word64) :=
  if s.flag F.FP_STAT_ORG_VALID then some (s.vec ((List.range 3).map R.FP_ORG)) else s.est.org

/-- The latched values of a stream. -/
def State.latchedVals (s : State) (n : Nat) : List Word64 :=
  match (s.stream n).latched with
  | some e => e.vals
  | none => []

/-- The attitude projection of R59: roll, pitch and heave at the CO. -/
def State.projAttitude (s : State) (n : Nat) : List Word64 :=
  let v := s.latchedVals n
  let rb := mmul (rotM (vget v 0) (vget v 1) 0) (mtr 3 (s.fdc n))
  let l := s.fdl n
  let roll := fatan2 (mget rb 2 1) (mget rb 2 2)
  let pitch := fasin (fneg (mget rb 2 0))
  [roll, pitch, fsub (vget v 2) (fsub (vget (mvec rb l) 2) (vget l 2))]

/-- The heading projection of R59. -/
def State.projHeading (s : State) (n : Nat) : Word64 :=
  let c := s.fdc n
  wrap2Pi (fsub (vget (s.latchedVals n) 0) (fatan2 (mget c 1 0) (mget c 0 0)))

/-- The attitude of the batch (R58): roll, pitch, heading, their rates, with RP_NONE, HD_EST and HD_NONE. Without a published
estimate the rate of turn is 0, as the rates without a roll and pitch stream (log entry 190). -/
def State.attitude (s : State) : State :=
  let pick (a b typ : Nat) : Option Nat :=
    [a, b].find? fun n => n != 0 && s.usableStream n && s.styp n == typ
  let rp := pick (s.get F.FP_ATT_RP_ID1) (s.get F.FP_ATT_RP_ID2) 6
  let hd := pick (s.get F.FP_ATT_HD_ID1) (s.get F.FP_ATT_HD_ID2) 4
  let (roll, pitch, rr, pr) := match rp with
    | some n => let a := s.projAttitude n; let v := s.latchedVals n; (vget a 0, vget a 1, vget v 3, vget v 4)
    | none => (0, 0, 0, 0)
  let est := s.est.published && s.get F.FE_OUT_Q_QUAL != 4
  let psi := match hd with
    | some n => s.projHeading n
    | none => s.get64 (R.FE_OUT_EST 2)
  let s := (s.setFlag F.FP_STAT_RP_NONE rp.isNone).setFlag F.FP_STAT_HD_EST (hd.isNone && est)
  let s := s.setFlag F.FP_STAT_HD_NONE (hd.isNone && !est)
  let rot := if s.est.published then s.get64 (R.FE_OUT_EST 5) else 0
  s.modEst fun e => { e with att := [roll, pitch, psi, rr, pr, rot], hdOk := hd.isSome || est }

/-- The body-to-NED rotation of the batch. -/
def State.attM (s : State) : Mat := rotM (vget s.est.att 0) (vget s.est.att 1) (vget s.est.att 2)

/-- Does a type's projection need heading (R59)? -/
def needsHd (typ : Nat) : Bool := typ == 1 || typ == 2 || typ == 3 || typ == 7

/-- The unit vector of a return along the sensor's axes (R59). -/
def retDir (v : List Word64) : List Word64 :=
  let b := vget v 1; let e := vget v 2
  [fmul (fcos e) (fcos b), fmul (fcos e) (fsin b), fneg (fsin e)]

/-- The body vector of a return, relative to the CO (R59). -/
def State.retBody (s : State) (n : Nat) (v : List Word64) : List Word64 :=
  vadd (mvec (s.fdc n) (vscale (vget v 0) (retDir v))) (s.fdl n)

/-- The wire vector of a taut wire in body axes, from its sensor (R59). -/
def State.wireBody (s : State) (n : Nat) (v : List Word64) : List Word64 :=
  let sa := fsin (vget v 0); let sg := fsin (vget v 1); let l := vget v 2
  let c := fsqrt (fsub (fsub one64 (fmul sa sa)) (fmul sg sg))
  mvec (s.fdc n) (vscale l [fneg sa, fneg sg, c])

/-- The projection of a stream's latched sample to the CO (R59); types 9, 10 and 2 give none here. -/
def State.project (s : State) (n typ : Nat) : Option (List Word64) :=
  let v := s.latchedVals n
  let c := s.fdc n
  let l := s.fdl n
  let m := s.attM
  match typ with
  | 1 => match s.origin with
    | some o => some (vsub (nedOf o (v.take 3)) (mvec m l) ++ sigRot o (v.take 3) [vget v 3, vget v 4])
    | none => none
  | 3 => some ((mvec m (vadd (s.wireBody n v) l)).map fneg)
  | 4 => some [s.projHeading n]
  | 5 => some [fmul (mget c 2 2) (vget v 0)]
  | 6 => some (s.projAttitude n)
  | 7 =>
    let vn := [fmul (vget v 0) (fcos (vget v 1)), fmul (vget v 0) (fsin (vget v 1)), 0]
    some (vsub vn (mvec m (cross [vget s.est.att 3, vget s.est.att 4, vget s.est.att 5] l)))
  | 8 => some [vget v 0, wrap2Pi (fadd (vget v 1) (fatan2 (mget c 1 0) (mget c 0 0))), vget v 2]
  | 11 => some (v.take 3)
  | _ => none

/-- The batch of one stream (R58, R59): its projection, or UNPROJ without a heading it needs; its returns, at most 256 in
all. -/
def State.projectStream (s : State) (n : Nat) : State :=
  let typ := s.styp n
  let st := s.get (F.FE_SC_STAT_STATE n)
  if !(s.usableStream n || st == 5) || typ = 9 || typ = 10 then s
  else if needsHd typ && !s.est.hdOk then s.bump F.FP_STAT_UNPROJ
  else if typ = 2 then
    (s.stream n).returns.foldl (fun t er =>
      if t.est.rets.length ≥ 256 then t.bump F.FP_STAT_RET_DROP
      else
        let b := t.retBody n er.1.vals
        (t.pmu 43).modEst fun e => { e with rets := e.rets ++
          [⟨n, er.1.qual.toNat / 256, er.1.qual.toNat % 256, mvec t.attM b, b, mvec t.attM (mvec (t.fdc n) (retDir er.1.vals)),
            vget er.1.vals 0, er.2⟩] }) s
  else
    -- the first geodetic sample projected after RUN is the origin until one is loaded
    let s := if typ = 1 && s.origin.isNone then s.modEst fun e => { e with org := some ((s.latchedVals n).take 3) } else s
    match s.project n typ with
    | none => s
    | some v => (s.pmu 43).modEst fun e => { e with proj := e.proj ++ [⟨n, typ, (s.stream n).latchedNew, v⟩] }

/-- The projected values of a stream in this cycle's image. -/
def State.projOf (s : State) (n : Nat) : Option (List Word64) :=
  (s.est.proj.find? fun p => p.stream == n).map (·.vals)

/-! Cross-checks (R61). -/

/-- Is stream n's TARGET m valid for an entry (R61)? -/
def State.xcOk (s : State) (n m : Nat) : Bool :=
  let t := s.styp n
  n != m && s.starget m == 0 && (!(t == 1 || t == 4) || s.styp m == t)

/-- The entry's vector, and the difference where one is formed (R61): (vector, difference?). -/
def State.xcValue (s : State) (n m : Nat) : Option (List Word64 × Bool) :=
  let lm := s.fdl m
  let cm := s.fdc m
  let typ := s.styp n
  let okM := s.usableStream m && s.styp m == typ
  match typ with
  | 1 =>
    match s.projOf n with
    | none => none
    | some p =>
      let at' := vadd (p.take 3) (mvec s.attM lm)
      match s.origin with
      | some o => if okM then some (vsub at' (nedOf o ((s.latchedVals m).take 3)), true) else some (at', false)
      | none => none
  | 4 =>
    match s.projOf n with
    | none => none
    | some p =>
      let h := fadd (vget p 0) (fatan2 (mget cm 1 0) (mget cm 0 0))
      if okM then some ([wrapPi (fsub h (vget (s.latchedVals m) 0)), 0, 0], true) else some ([wrap2Pi h, 0, 0], false)
  | 2 =>
    let rs := s.est.rets.filter fun r => r.stream == n
    match rs.foldl (fun (b : Option Ret) r => match b with
        | none => some r
        | some q => if q.qual < r.qual then some r else some q) none with
    | none => none
    | some r => some (mvec (mtr 3 cm) (vsub r.body lm), false)
  | 3 =>
    match s.projOf n with
    | none => none
    | some _ => some (mvec (mtr 3 cm) (vsub (vadd (s.wireBody n (s.latchedVals n)) (s.fdl n)) lm), false)
  | _ => none

/-- A cross-check value in the entry's unit: thousandths, or millionths for a heading, to nearest, saturating (R61; log entry
191). -/
def xcWord (heading : Bool) (v : Word64) : Word :=
  BitVec.ofInt 32 (ftoSat 32 .nearest (fmul v (if heading then k64 1000000 1 else k64 1000 1))).1

/-- The cross-check entries of a batch (R61). A stream of another type than 1 to 4 has none of the forms of R61; its entry has
VALID 0 (log entry 191). Past sixteen entries any further stream with a TARGET sets XC_OVF. -/
def State.crossChecks (s : State) : State :=
  let want := streamIds.filter fun n => s.sen n && s.starget n != 0
  let bad := want.any fun n => !s.xcOk n (s.starget n)
  let good := want.filter fun n => s.xcOk n (s.starget n)
  let s := if bad then s.setFlag F.FP_STAT_XC_BAD true else s
  let further := match good[15]? with
    | some m => want.any fun n => decide (m < n)
    | none => false
  let s := if further then s.setFlag F.FP_STAT_XC_OVF true else s
  (List.range 16).foldl (fun t k =>
    let wasOver := t.flag (F.FP_XC_OVER k)
    match good[k]? with
    | none => t.setWord (R.FP_XC k) 0
    | some n =>
      let m := t.starget n
      match t.xcValue n m with
      | none => t.setWord (R.FP_XC k) (BitVec.ofNat 32 (n + 2 ^ 8 * m))
      | some (v, df) =>
        let w := (List.range 3).map fun i => xcWord (t.styp n = 4) (vget v i)
        let past := df && w.any fun c => decide (t.get F.FP_XC_LIM_LIM_MM < c.toInt.natAbs)
        let t := t.setWord (R.FP_XC k) (BitVec.ofNat 32 (n + 2 ^ 8 * m + 2 ^ 15 + (if df then 2 ^ 16 else 0) + (if past then 2 ^ 17 else 0)))
        let t := ((t.setWord (R.FP_XCX k) (w.getD 0 0)).setWord (R.FP_XCY k) (w.getD 1 0)).setWord (R.FP_XCZ k) (w.getD 2 0)
        if past && !wasOver then t.event 161 (BitVec.ofNat 32 k) .none else t) s

/-- The projection batch (R60): ATTITUDE and HEADING first, then every other stream, each in ascending ID. R60 bounds its duration
by 2 µs + 20 ns × n; DUR_NS shows that bound (DESIGN CHOICE, log entry 238). -/
def State.projectBatch (s : State) : State :=
  let s := (s.modEst fun e => { e with proj := [], rets := [] }).attitude
  let first := streamIds.filter fun n => s.styp n == 6 || s.styp n == 4
  let later := streamIds.filter fun n => !(s.styp n == 6 || s.styp n == 4)
  let s := (first ++ later).foldl (fun t n => t.projectStream n) s
  let s := s.crossChecks
  let n := s.est.proj.length + s.est.rets.length + ((List.range 16).filter fun k => s.flag (F.FP_XC_VALID k)).length
  let s := (s.set F.FP_BATCH_COUNT n).set F.FP_BATCH_DUR_NS (min 65535 (2000 + 20 * n))
  s.modEst fun e => { e with projDone := true }

end Sys2Proof.Machine
end

