-- ==== Sys2Proof/Machine/Tracker.lean ====
section
/-!
DEFINITION. Reference target tracking (05_reference_targets R82 to R92).
-/
namespace Sys2Proof.Machine

/-- Change the tracker's state. -/
def State.modTrk (s : State) (f : Track → Track) : State := { s with trk := f s.trk }

/-- Insert into a list sorted by a test. -/
def insertBy {α : Type} (before : α → α → Bool) (a : α) : List α → List α
  | [] => [a]
  | b :: t => if before b a then b :: insertBy before a t else a :: b :: t

/-- Sort by a test; equal elements keep their order. -/
def sortBy {α : Type} (before : α → α → Bool) (l : List α) : List α := l.reverse.foldl (fun acc a => insertBy (fun x y => before x y && !before y x) a acc) []

/-- Track j's filter state (R86). -/
def State.tkX (s : State) (j : Nat) : List Word64 := s.vec ((List.range 6).map (R.TK_X j))

/-- Store a filter's state and covariance, and show its sigmas. -/
def State.setTk (s : State) (j : Nat) (x : List Word64) (p : Mat) : State :=
  let s := s.setVec ((List.range 6).map (R.TK_X j)) x
  let s := (List.range 3).foldl (fun t i => t.setWord (R.TK_SIG j i) (f64to32 (fsqrt (mget p i i)))) s
  s.modTrk fun t => { t with tracks := padMod .init j (fun k => { k with p := p }) t.tracks }

/-- Track j's covariance. -/
def State.tkP (s : State) (j : Nat) : Mat := (s.trk.tracks.getD j .init).p

/-- Enter ASSIGN mode with a cause; while it is pending a trigger changes nothing, but once its job is done one begins it anew
(R88, R90). -/
def State.trkAssign (s : State) (cause : Nat) : State :=
  if s.flag F.TRK_STAT_MODE && !s.trk.toNn then s
  else
    let s := s.modTrk fun t => { t with toNn := false }
    let s := (s.setFlag F.TRK_STAT_MODE true).set F.TRK_STAT_CAUSE cause
    s.event 162 (s.word R.TRK_STAT) .crumb

/-! Targets (R83, R84). -/

/-- Entry k's NED position (R83). -/
def State.tgtNed (s : State) (k : Nat) : Option (List Word64) :=
  s.origin.map fun o => nedOf o (s.vec ((List.range 3).map (R.TGT_POS k)))

/-- An enabled FIXED entry with SURV. -/
def State.tgtSurv (s : State) (k : Nat) : Bool :=
  s.flag (F.TGT_CFG_EN k) && !s.flag (F.TGT_CFG_KIND k) && s.flag (F.TGT_CFG_SURV k)

/-- Is entry k bound to a track of this stream? -/
def State.tgtTaken (s : State) (k src : Nat) : Bool :=
  trackIds.any fun j => s.tkState j != 0 && s.flag (F.TK_ST_BOUND j) && s.get (F.TK_ST_TGT j) == k && s.get (F.TK_ST_SRC j) == src

/-- Bind track j to entry k. -/
def State.bindTo (s : State) (j k : Nat) : State := (s.setFlag (F.TK_ST_BOUND j) true).set (F.TK_ST_TGT j) k

/-- TRACK_BIND: the first rule of R84 that applies. Of several free entries of the track's code the lowest index is taken, and at
a snap a track that becomes CONFIRMED binds first, then the others by ascending number (DESIGN CHOICE, log entry 240). The position is the one published in the previous cycle, as it stood at this
snap; without one the second rule binds nothing (log entry 192). -/
def State.tryBind (s : State) (j : Nat) : State :=
  if s.flag (F.TK_ST_BOUND j) then s
  else
    let src := s.get (F.TK_ST_SRC j)
    let code := s.get (F.TK_CODE_CODE j)
    let free := trackIds.filter fun k => s.flag (F.TGT_CFG_EN k) && !s.tgtTaken k src
    if code ≠ 0 then
      match free.find? fun k => s.get (F.TGT_CFG_CODE k) == code with
      | some k => s.bindTo j k
      | none => s
    else match (if s.flag F.FE_EST_STAT_INIT && decide (s.get F.FE_EST_STAT_QUAL ≤ 2) then s.est.pubPrev else none) with
    | none => s
    | some co =>
      let at' := vadd co ((s.tkX j).take 2) ++ [vget (s.tkX j) 2]
      let lim := fdiv (fofNat (s.get F.TRK_TIME_BIND_CM)) (k64 100 1)
      let near := (free.filter s.tgtSurv).filterMap fun k => (s.tgtNed k).map fun p => (k, vnorm (vsub (p.take 3) at'))
      match (near.filter fun e => fle e.2 lim).foldl (fun (b : Option (Nat × Word64)) e => match b with
          | none => some e
          | some q => if flt e.2 q.2 then some e else some q) none with
      | some e => s.bindTo j e.1
      | none => s

/-- TRK registers and the target table as written take effect at the snap, after the quality of that snap (DESIGN CHOICE, log
entry 239); a change of EN, KIND or CODE unbinds (R83). -/
def State.commitTracker (s : State) : State :=
  let s := trackIds.foldl (fun t k =>
    if (t.shWord (R.TGT_CFG k) ^^^ t.word (R.TGT_CFG k)) &&& 0xFFFFFF03#32 = 0 then t
    else trackIds.foldl (fun u j =>
      if u.flag (F.TK_ST_BOUND j) && u.get (F.TK_ST_TGT j) == k then (u.setFlag (F.TK_ST_BOUND j) false).set (F.TK_ST_TGT j) 0 else u) t) s
  let wasEn := s.flag F.TRK_CTRL_EN
  let s := s.commitShadow (wordsFrom R.TRK_CTRL 14 ++ wordsFrom (R.TGT_CFG 0) 512)
  if wasEn && !s.flag F.TRK_CTRL_EN then
    (trackIds.foldl (fun t j => t.freeTrack j) s).countTracks
  else s

/-! The filter (R86). -/

/-- Predict track j over an interval in s (R86). -/
def State.predictTrack (s : State) (dt : Word64) (j : Nat) : State :=
  if s.tkState j = 0 then s
  else
    let mov := s.flag (F.TK_ST_BOUND j) && s.flag (F.TGT_CFG_KIND (s.get (F.TK_ST_TGT j)))
    let q := s.get64 (if mov then R.TRK_QACC_MOV else R.TRK_QACC_FIX)
    let q2 := fmul q q
    let f := mmk 6 6 fun i k => if i = k then one64 else if k = i + 3 then dt else 0
    let d2 := fmul dt dt
    let qm := mmk 6 6 fun i k =>
      if i = k then (if i < 3 then fmul q2 (fdiv (fmul d2 dt) (k64 3 1)) else fmul q2 dt)
      else if k = i + 3 || i = k + 3 then fmul q2 (fdiv d2 (k64 2 1)) else 0
    let p := madd (mmul f (mmul (s.tkP j) (mtr 6 f))) qm
    s.setTk j (mvec f (s.tkX j)) p

/-- The covariance of a return in NED: SIGR² along its line of sight, (ρ · SIGA)² across it (R86). -/
def State.retCov (s : State) (r : Ret) : Mat :=
  let sr := s.get64 R.TRK_SIGR
  let sa := fmul r.rng (s.get64 R.TRK_SIGA)
  let a2 := fmul sa sa
  let diff := fsub (fmul sr sr) a2
  let u := r.los
  mmk 3 3 fun i k => fadd (if i = k then a2 else 0) (fmul diff (fmul (vget u i) (vget u k)))

/-- d² of a return against a prediction and its covariance (R87). -/
def State.trkD2 (s : State) (x : List Word64) (p : Mat) (r : Ret) : Word64 :=
  let nu := vsub r.ned (x.take 3)
  let sm := madd (mmk 3 3 fun i k => mget p i k) (s.retCov r)
  fdot nu (mvec (minv sm) nu)

/-- The Joseph-form update of a state with measurement rows h, noise rm and innovation nu. -/
def joseph (x : List Word64) (p h rm : Mat) (nu : List Word64) : List Word64 × Mat × Word64 :=
  let n := x.length
  let ht := mtr n h
  let pht := mmul p ht
  let sm := madd (mmul h pht) rm
  let si := minv sm
  let k := mmul pht si
  let d2 := fdot nu (mvec si nu)
  let ikh := msub (mident n) (mmul k h)
  let p' := madd (mmul ikh (mmul p (mtr n ikh))) (mmul k (mmul rm (mtr h.length k)))
  (vadd x (mvec k nu), p', d2)

/-- Update track j with a return (R86); a coded return gives the track its code. -/
def State.updateTrack (s : State) (j : Nat) (r : Ret) : State :=
  let h := mmk 3 6 fun i k => if i = k then one64 else 0
  let x := s.tkX j
  let (x', p', _) := joseph x (s.tkP j) h (s.retCov r) (vsub r.ned (x.take 3))
  let s := (s.setTk j x' p').pmu 44
  let s := (s.setWord (R.TK_LASTL j) (r.stamp.truncate 32)).setWord (R.TK_LASTH j) ((r.stamp >>> 32).truncate 32)
  let s := s.setFlag (F.TK_ST_NEW j) true
  if s.get (F.TK_CODE_CODE j) = 0 && r.code ≠ 0 then s.set (F.TK_CODE_CODE j) r.code else s

/-- CONF_M and CONF_N as read. -/
def State.confM (s : State) : Nat := max 1 (s.get F.TRK_CFG_CONF_M)
def State.confN (s : State) : Nat := max s.confM (s.get F.TRK_CFG_CONF_N)

/-- Open a TENTATIVE track at a return, in the lowest free slot; with its one hit it is CONFIRMED at once where CONF_M is 1
(R85, R86). -/
def State.openTrack (s : State) (r : Ret) (entry : Option Nat) : State :=
  match trackIds.find? fun j => s.tkState j == 0 with
  | none => s.bump F.TRK_CNT_NOSLOT
  | some j =>
    let sv := s.get64 R.TRK_SIGV0
    let c := s.retCov r
    let p := mmk 6 6 fun i k => if i < 3 && k < 3 then mget c i k else if i = k then fmul sv sv else 0
    let s := s.setWord (R.TK_ST j) (BitVec.ofNat 32 (1 + 2 ^ 10 + 2 ^ 12 * r.stream + 2 ^ 24))
    let s := s.set (F.TK_CODE_CODE j) r.code
    let s := (s.setWord (R.TK_LASTL j) (r.stamp.truncate 32)).setWord (R.TK_LASTH j) ((r.stamp >>> 32).truncate 32)
    let s := s.modTrk fun t => { t with tracks := padMod .init j (fun _ => ⟨p, [true], 0⟩) t.tracks }
    let s := s.setTk j (r.ned ++ [0, 0, 0]) p
    let s := match entry with
      | some k => s.bindTo j k
      | none => s
    if s.confM ≤ 1 then (s.set (F.TK_ST_STATE j) 2).tryBind j else s

/-! State changes (R85). -/

/-- Track j's state change at a return-bearing snap of its stream, hit or not (R85); lost tracks are freed. A free slot has
none. -/
def State.trackStep (s : State) (j : Nat) (hit : Bool) : State :=
  let st := s.tkState j
  if st = 0 then s
  else if st = 1 then
    let k := s.trk.tracks.getD j .init
    let win := (hit :: k.win).take s.confN
    let hits := (win.filter id).length
    let s := s.modTrk fun t => { t with tracks := padMod .init j (fun q => { q with win := win, age := q.age + 1 }) t.tracks }
    let s := s.set (F.TK_ST_HITS j) hits
    if hit && decide (s.confM ≤ hits) then (s.set (F.TK_ST_STATE j) 2).tryBind j
    else if hits < s.confM && decide (s.confN ≤ k.age + 1) then s.freeTrack j
    else s
  else if hit then (s.set (F.TK_ST_STATE j) 2).set (F.TK_ST_MISS j) 0
  else
    let m := s.get (F.TK_ST_MISS j) + 1
    if max 1 (s.get F.TRK_CFG_MISS_MAX) ≤ m then s.freeTrack j
    else (s.set (F.TK_ST_STATE j) 3).set (F.TK_ST_MISS j) m

/-- Does track j, CONFIRMED or COASTING, have its last hit more than COAST_MS before an instant (R85)? -/
def State.coasted (s : State) (snap : Stamp) (j : Nat) : Bool :=
  let last := BitVec.ofNat 48 (s.get (F.TK_LASTL_LAST_LO j) + 2 ^ 32 * s.get (F.TK_LASTH_LAST_HI j))
  s.tkConf j && decide (sdiff snap last > (s.get F.TRK_TIME_COAST_MS : Int) * 1000000)

/-- Free the tracks that have coasted out (R85). -/
def State.coastOut (s : State) (snap : Stamp) : State :=
  trackIds.foldl (fun t j => if t.coasted snap j then t.freeTrack j else t) s

/-- Do a track's code and a return's code agree (R87)? -/
def codesOk (a b : Nat) : Bool := a == 0 || b == 0 || a == b

/-- A gate quarter value: g / 4. -/
def gateOf (g : Nat) : Word64 := fofRat g 4

/-- The candidate pairs of R87, sorted: d², track, return index. -/
def State.candidates (s : State) (rs : List Ret) : List (Word64 × Nat × Nat) :=
  let g := gateOf (s.get F.TRK_CTRL_GATE)
  let all := (trackIds.filter fun j => s.tkState j != 0).map fun j =>
    (rs.zipIdx.filter fun r => r.1.stream == s.get (F.TK_ST_SRC j) && codesOk (s.get (F.TK_CODE_CODE j)) r.1.code).map fun r =>
      (s.trkD2 (s.tkX j) (s.tkP j) r.1, j, r.2)
  sortBy (fun a b => decide (forderKey a.1 ≤ forderKey b.1)) (all.flatten.filter fun c => fle c.1 g)

/-- Take candidates greedily (R87): the pairs taken, track and return. -/
def greedy : List (Word64 × Nat × Nat) → List (Nat × Nat) → List (Nat × Nat)
  | [], acc => acc.reverse
  | c :: t, acc => if acc.any fun p => p.1 == c.2.1 || p.2 == c.2.2 then greedy t acc else greedy t ((c.2.1, c.2.2) :: acc)

/-- The CO position a track gives the estimator at this snap (R91). -/
def State.trkYield (s : State) (j : Nat) (r : Ret) : Option Upd :=
  let k := s.get (F.TK_ST_TGT j)
  if s.tkState j == 2 && s.flag (F.TK_ST_BOUND j) && s.tgtSurv k then
    (s.tgtNed k).map fun p =>
      let c := s.retCov r
      let sg := f32to64 (s.word (R.TGT_SIG k))
      let sd (i : Nat) := fsqrt (fadd (mget c i i) (fmul sg sg))
      ⟨r.stream, 2, (vsub p r.ned).take 2, [sd 0, sd 1]⟩
  else none

/-- Try to bind the tracks that are CONFIRMED or COASTING and unbound (R84). -/
def State.bindTracks (s : State) : State := (trackIds.filter s.tkConf).foldl (fun t j => t.tryBind j) s

/-- Keep what the tracks of this snap yield, and per stream the latest of it (R91, R70). -/
def State.keepYields (s : State) (ys : List Upd) : State :=
  let first := streamIds.filterMap fun n => ys.find? fun u => u.stream == n
  s.modTrk fun t => { t with yields := ys, latest := first ++ t.latest.filter fun u => !first.any fun v => v.stream == u.stream }

/-- NN_ASSOCIATION: the pass in NN mode: pairs taken, tracks opened, then the changes of R85 (R87, R91). A pass that lost a track
may enter ASSIGN mode (R88). -/
def State.nnPass (s : State) (rs : List Ret) (snap : Stamp) : State :=
  let taken := greedy (s.candidates rs) []
  let before := trackIds.filter s.tkConf
  let old := trackIds.filter fun j => s.tkState j != 0
  let s := taken.foldl (fun t p => match rs[p.2]? with
    | some r => t.updateTrack p.1 r
    | none => t) s
  let s := (rs.zipIdx.filter fun r => !taken.any fun p => p.2 == r.2).foldl (fun t r => t.openTrack r.1 none) s
  let s := old.foldl (fun t j =>
    if rs.any fun r => r.stream == t.get (F.TK_ST_SRC j) then t.trackStep j (taken.any fun p => p.1 == j) else t) s
  let s := (s.coastOut snap).bindTracks
  let ys := (sortBy (fun a b => decide (a.1 ≤ b.1)) taken).filterMap fun p => match rs[p.2]? with
    | some r => s.trkYield p.1 r
    | none => none
  let s := (s.keepYields ys).countTracks
  let lost := before.any fun j => s.tkState j == 0
  if lost && decide (1 ≤ s.get F.TRK_STAT_HIGH) && decide (s.get F.TRK_STAT_NCONF ≤ s.get F.TRK_STAT_HIGH / 2) then s.trkAssign 3 else s

/-- The seed rows of R89: entries no track is bound to, with their prediction and covariance, while the estimate is
initialised. -/
def State.seeds (s : State) : List (Nat × List Word64 × Mat) :=
  if !s.flag F.FE_OUT_Q_INIT then []
  else (trackIds.filter fun k => s.tgtSurv k
      && !trackIds.any fun j => s.tkState j != 0 && s.flag (F.TK_ST_BOUND j) && s.get (F.TK_ST_TGT j) == k).filterMap fun k =>
    (s.tgtNed k).map fun p =>
      let co := s.vec [R.FE_OUT_EST 0, R.FE_OUT_EST 1] ++ [0]
      let sg := f32to64 (s.word (R.TGT_SIG k))
      let sn := s.get64 (R.FE_OUT_SIG 0)
      let se := s.get64 (R.FE_OUT_SIG 1)
      let g2 := fmul sg sg
      (64 + k, vsub p co, [[fadd (fmul sn sn) g2, 0, 0], [0, fadd (fmul se se) g2, 0], [0, 0, g2]])

/-- The rows and costs of an assignment (R89): +∞ where a pair is not permitted. The seed rows use the CO position of this
cycle, so they are built when the job is launched. -/
def State.buildCosts (s : State) : List Nat × List (List Word64) :=
  let rs := s.trk.cols
  let tr := (trackIds.filter fun j => s.tkState j != 0).map fun j => (j, s.tkX j, s.tkP j)
  let rows := (tr ++ s.seeds).take 64
  let g := gateOf (s.get F.TRK_CTRL_RGATE)
  let code (r : Nat) : Nat := if r < 64 then s.get (F.TK_CODE_CODE r) else s.get (F.TGT_CFG_CODE (r - 64))
  let cost := rows.map fun r => rs.map fun q =>
    let d := s.trkD2 r.2.1 r.2.2 q
    if !fle d g || !codesOk (code r.1) q.code || (decide (r.1 < 64) && q.stream != s.get (F.TK_ST_SRC r.1)) then inf64 else d
  (rows.map (·.1), cost)

/-- ASSIGN_COMPLETE: the assignment of a completed job is applied (R90): per row a column, 0xFFFF unassigned. A track freed since
the launch takes no part. -/
def State.applyAssign (s : State) (x : List Word64) : State :=
  let cols := s.trk.cols
  let pairs := s.trk.rows.zip (x.map fun w => w.toNat % 65536)
  let s := pairs.foldl (fun t p =>
    match cols[p.2]? with
    | some r =>
      if 64 ≤ p.1 then t.openTrack r (some (p.1 - 64))
      else if t.tkState p.1 = 0 then t
      else (t.updateTrack p.1 r).trackStep p.1 true
    | none => if p.1 < 64 && cols.any fun r => r.stream == t.get (F.TK_ST_SRC p.1) then t.trackStep p.1 false else t) s
  let s := (cols.zipIdx.filter fun r => !pairs.any fun p => p.2 == r.2).foldl (fun t r => t.openTrack r.1 none) s
  let s := (s.bump F.TRK_CNT_AS_RUNS).countTracks
  (s.set F.TRK_STAT_HIGH (s.get F.TRK_STAT_NCONF)).modTrk fun t => { t with toNn := true, rows := [], cols := [] }

/-- The tracker's pass of a snap (R92): predict, then associate or, in ASSIGN mode, coast, bind and gather the returns. -/
def State.trackerPass (s : State) : State :=
  if !s.flag F.TRK_CTRL_EN then s
  else
    let low := s.est.rets.filter fun r => decide (r.qual < s.get F.TRK_CFG_QMIN)
    let rs := s.est.rets.filter fun r => !decide (r.qual < s.get F.TRK_CFG_QMIN)
    let s := s.bumpBy F.TRK_CNT_LOWQ low.length
    let dt := fofRat ((s.t0 - s.trk.lastPass : Nat) : Int) 1000000000
    let t0 := s.t0
    let s := s.setWord R.TRK_SEQ (s.word R.TRK_SEQ + 2)
    let s := trackIds.foldl (fun t j => (t.predictTrack dt j).setFlag (F.TK_ST_NEW j) false) s
    let s := s.modTrk fun t => { t with lastPass := t0 }
    if !s.trk.passAssign then s.nnPass rs (stampOf t0)
    else
      let s := (s.coastOut (stampOf t0)).bindTracks.countTracks
      if rs.isEmpty || s.trk.asReady || s.jobs.jobs.any (fun j => j.unit == 3) then s
      else s.modTrk fun t => { t with cols := rs.take 256, asReady := true }

/-- The modes of the pass that this snap begins (R88, R90). -/
def State.trackerSnap (s : State) : State :=
  let s := s.commitTracker
  let s := if s.trk.toNn then (s.setFlag F.TRK_STAT_MODE false).modTrk fun t => { t with toNn := false } else s
  let m := s.flag F.TRK_STAT_MODE
  s.modTrk fun t => { t with passAssign := m, yields := [] }

/-- A write of TRK_CTRL: it takes effect at the next snap; EN 0 to 1 and FORCE_ASSIGN enter ASSIGN mode (R88). -/
def trkCtrlWrite (s : State) (d : Dom) (v : Word) : State × CpSt :=
  let was := (s.shWord R.TRK_CTRL).getLsbD 0
  let r := s.shadowWrite d R.TRK_CTRL v
  if r.2 ≠ .ok || !(domIn d 3) then r
  else if !was && v.getLsbD 0 then (r.1.trkAssign 1, .ok)
  else if v.getLsbD 1 then (r.1.trkAssign 5, .ok)
  else r

/-- FORCE_ASSIGN: a write of TRK_CTRL with FORCE_ASSIGN, its other fields unchanged (R88). -/
def execForceAssign (d : Dom) (s : State) : Host.Outcome State Fault Refusal :=
  s.ends (trkCtrlWrite s d ((s.shWord R.TRK_CTRL) ||| 2#32)).1

/-- TRACKER_ENABLE: a write of TRK_CTRL with EN (R88). -/
def execTrackerEnable (d : Dom) (v : Word) (s : State) : Host.Outcome State Fault Refusal :=
  s.ends (trkCtrlWrite s d ((v ||| 1#32) &&& 0xFFFFFFFD#32)).1

end Sys2Proof.Machine
end

