-- ==== Sys2Proof/Machine/Estimator.lean ====
section
/-!
DEFINITION. The fusion estimator: quality steps, initialisation, time and measurement updates, voting and rejection,
publication, ego-motion and survey adjustment (04_estimator R62 to R81).
-/
namespace Sys2Proof.Machine

/-- The estimator runs on a driving MASTER unit with RUN at 1 (04, opening; R19). -/
def State.estOn (s : State) : Bool := s.drives && s.run && s.domOn 7

/-! Quality (R73 to R75). -/

/-- A stream is usable and not REJECTED. -/
def State.counts (s : State) (n typ : Nat) : Bool :=
  s.usableStream n && !s.flag (F.FE_SC_STAT_REJF n) && s.styp n == typ

/-- Does the tracker hold a track of stream n that makes the RELATIVE class present (R73, R91)? -/
def State.relTrack (s : State) (n : Nat) : Bool :=
  trackIds.any fun j => s.tkConf j && s.get (F.TK_ST_SRC j) == n && s.flag (F.TK_ST_BOUND j) && s.tgtSurv (s.get (F.TK_ST_TGT j))

/-- The classes present: GNSS, RELATIVE, TAUTWIRE; and the heading (R73). -/
def State.classes (s : State) : Bool × Bool × Bool × Bool :=
  (streamIds.any fun n => s.counts n 1, streamIds.any fun n => s.counts n 2 && s.relTrack n,
   streamIds.any fun n => s.counts n 3, streamIds.any fun n => s.counts n 4)

/-- Is a binary64 finite and positive? -/
def finPos (a : Word64) : Bool := fisFin a && flt 0 a

/-- MDL_BAD: a mass or damping is not a finite positive value (R65). -/
def State.mdlBad (s : State) : Bool :=
  !(List.range 3).all fun i => finPos (s.get64 (R.FE_MDL_M i)) && finPos (s.get64 (R.FE_MDL_D i))

/-- The step the conditions give (R74): number of classes, heading, previous quality, DR within DR_MAX. -/
def qualCond (inited bad : Bool) (p : Nat) (h : Bool) (prev : Nat) (drOk : Bool) : Nat :=
  if !inited || bad then 4
  else if 2 ≤ p && h then 0
  else if p = 1 && h then 1
  else if prev ≤ 2 && drOk then 2
  else if h && p = 0 then 3
  else 4

/-- Is DR within DR_MAX at an instant (R74)? -/
def State.drOk (s : State) (t : Nat) : Bool :=
  match s.est.drAt with
  | none => true
  | some a => decide (t - a ≤ max 1 (s.get F.FE_DRCFG_DR_MAX) * 1000000000)

/-- Publish a change of quality: source 160 and a loaf (04, registers). -/
def State.setQual (s : State) (q : Nat) : State :=
  if s.get F.FE_EST_STAT_QUAL = q then s
  else
    let s := s.set F.FE_EST_STAT_QUAL q
    let s := s.modEst fun e => { e with settled := if q ≤ 2 then false else e.settled,
                                        drAt := if q ≤ 1 then none else e.drAt }
    s.event 160 (s.word R.FE_EST_STAT) .loaf

/-- One evaluation of the quality at a snap instant (R74): a worse step at once, a better one at the QUP_N-th snap. A snap of any
better condition counts, and the last one's step is taken (DESIGN CHOICE, log entry 241). -/
def State.evalQuality (s : State) (snap : Nat) : State :=
  let (g, r, t, h) := s.classes
  let b (c : Bool) (k : Nat) : Nat := if c then k else 0
  let p := b g 1 + b r 1 + b t 1
  let bad := s.mdlBad
  let s := ((s.set F.FE_EST_STAT_PCLS (b g 1 + b r 2 + b t 4)).setFlag F.FE_EST_STAT_HDG h).setFlag F.FE_EST_STAT_MDL_BAD bad
  let prev := s.get F.FE_EST_STAT_QUAL
  -- Q2's timer starts at the snap where the condition for it first holds
  let need := prev ≤ 2 && (p = 0 || !h) && s.est.inited && !bad
  let s := if need && s.est.drAt.isNone then s.modEst fun e => { e with drAt := some snap } else s
  let ok := s.drOk snap
  let c := qualCond s.est.inited bad p h prev ok
  let n := max 1 (s.get F.FE_DRCFG_QUP_N)
  -- a Q2 waiting for a better step whose DR has passed DR_MAX becomes Q3 or Q4 at once
  let held := if prev = 2 && !ok then (if h then 3 else 4) else prev
  let s := s.modEst fun e => { e with cond := c }
  let s :=
    if c < prev then
      let k := s.est.upCnt + 1
      if n ≤ k then (s.modEst fun e => { e with upCnt := 0 }).setQual c
      else (s.modEst fun e => { e with upCnt := k }).setQual held
    else (s.modEst fun e => { e with upCnt := 0 }).setQual c
  let s := s.set F.FE_EST_STAT_QUPCNT s.est.upCnt
  let dr := match s.est.drAt with
    | some a => (snap - a) / 1000000
    | none => 0
  s.set F.FE_DRSTAT_DR_MS (min 0xFFFFF dr)

/-- The stream's bias states (R63): first index and number as granted; none with index 0. -/
def State.biasOf (s : State) (n : Nat) : Nat × Nat :=
  let i := s.get (F.FE_MN_CFG_BIAS_IDX n)
  (i, if i = 0 then 0 else (s.stream n).nbias)

/-- The states in use: 15 and the reference biases granted (R62, R63). -/
def State.nStates (s : State) : Nat := streamIds.foldl (fun m n => let b := s.biasOf n; max m (b.1 + b.2)) 15

/-- No taut wire's weight states are set (R72). -/
def State.clearWeights (s : State) : State := streamIds.foldl (fun t n => t.modStream n fun x => { x with weight := none }) s

/-- Grant the reference-bias states at the 0 to 1 write of RUN (R63): from the first request that does not fit on, no stream
receives any, and the BIAS_CUT of each sets. -/
def State.assignBiases (s : State) : State :=
  let r := streamIds.foldl (fun (acc : State × Nat × Bool) n =>
    let (t, next, cut) := acc
    let req := if t.get (F.FE_SC_CFG_TYPE n) = 3 then 2 else t.get (F.FE_MN_CFG_NBIAS n)
    let cut := cut || decide (64 < next + req)
    let k := if cut then 0 else req
    let t := (t.set (F.FE_MN_CFG_BIAS_IDX n) (if k = 0 then 0 else next)).setFlag (F.FE_MN_CFG_BIAS_CUT n) cut
    (t.modStream n fun x => { x with nbias := k }, next + k, cut)) (s.clearWeights, 15, false)
  if r.2.2 then r.1.setFlag F.FE_EST_STAT_BIAS_CUT true else r.1

/-- The estimator is not initialised and its quality is Q4 (R75). -/
def State.estReset (s : State) : State :=
  let s := (s.modEst fun e => { e with inited := false, resetReq := false, settled := false, posReset := false, upCnt := 0,
                                       drAt := none, todo := [], running := false }).setFlag F.FE_EST_STAT_INIT false
  s.setQual 4

/-- The lowest-ID usable heading stream. -/
def State.headStream (s : State) : Option Nat := streamIds.find? fun n => s.counts n 4

/-- Hold some states at zero, with zero covariance. -/
def holdZero (keep : Nat → Bool) (x : List Word64) (p : Mat) : List Word64 × Mat :=
  (x.zipIdx.map fun e => if keep e.2 then e.1 else 0,
   p.zipIdx.map fun r => r.1.zipIdx.map fun e => if keep r.2 && keep e.2 then e.1 else 0)

/-- A state of the estimator as it is kept: with WAVE_EN at 0 the wave states are zero with zero covariance (R64), and the heading
lies in [0, 2π) (00, R8). -/
def State.keepEst (s : State) (x : List Word64) (p : Mat) : State :=
  let (x, p) := if s.flag F.FE_EST_CTRL_WAVE_EN then (x, p) else holdZero (fun i => i < 9 || 15 ≤ i) x p
  s.modEst fun e => { e with x := modAt 2 wrap2Pi x, p := p }

/-- Initialise at the first snap with H = 1: ψ from the lowest-ID usable HEADING stream with σ P0_PSI, N and E with σ P0_POS; the
other values are free (R75; log entry 23). -/
def State.estInit (s : State) (snap : Nat) : State :=
  if s.est.inited then s
  else match s.headStream with
    | none => s
    | some h =>
      let n := s.nStates
      let sp := s.get64 R.FE_MDL_P0_PSI
      let sn := s.get64 R.FE_MDL_P0_POS
      let x := (List.range n).map fun i => if i = 2 then s.projHeading h else Config.initState i
      let p := mmk n n fun i j =>
        if i = j then (if i = 2 then fmul sp sp else if i < 2 then fmul sn sn else Config.initVar i) else 0
      let s := (s.clearWeights.keepEst x p).modEst fun e => { e with inited := true, lastSnap := snap }
      s.setFlag F.FE_EST_STAT_INIT true

/-- Is a position reset due at this snap (R75)? -/
def State.posResetDue (s : State) : State :=
  let (g, r, t, h) := s.classes
  let due := s.est.inited && !s.flag F.FE_EST_STAT_MDL_BAD && decide (3 ≤ s.get F.FE_EST_STAT_QUAL) && (g || r || t) && h
    && !s.est.settled
  s.modEst fun e => { e with posReset := due }

/-- The registers that the estimator takes at a snap: the model, FE_DRCFG, FE_EGO_CFG and every FE_SC_GATE (R64, R69). -/
def estHeld : List Nat := wordsFrom (R.FE_MDL_M 0) 52 ++ [R.FE_DRCFG, R.FE_EGO_CFG] ++ streamIds.map R.FE_SC_GATE

/-- The estimator's part of a snap (R65, R73 to R75): held values, a requested reset, initialisation unless the model is bad,
quality. -/
def State.estSnap (s : State) (snap : Nat) : State :=
  let s := s.commitShadow estHeld
  let s := if s.est.resetReq then s.estReset else s
  let s := if s.mdlBad then s else s.estInit snap
  (s.evalQuality snap).posResetDue

/-- A write of FE_EST_CTRL (R75). -/
def estCtrlWrite (s : State) (d : Dom) (v : Word) : State × CpSt :=
  let r := s.plainWrite d R.FE_EST_CTRL v
  if r.2 = .ok && v.getLsbD 0 then (r.1.modEst fun e => { e with resetReq := true }, .ok) else r

/-- RESET_EST: 1 written to FE_EST_CTRL.RESET_EST, the other fields unchanged (R75). -/
def execResetEst (d : Dom) (s : State) : Host.Outcome State Fault Refusal :=
  s.ends (estCtrlWrite s d (s.word R.FE_EST_CTRL ||| 1#32)).1

/-! Time update (R64). -/

/-- The model parameters of R64, in the order of their registers: M, D, T_B, QB, ω0, ζ, K_W and QNU, three each, then P0_POS and
P0_PSI. -/
def State.model (s : State) : List Word64 := s.vec ((List.range 26).map fun i => R.FE_MDL_M 0 + 8 * i)

/-- The equations of R64 for N, E, ψ, u, v, r, the three biases and the three wave pairs: the rates of the states x under the
force vector tau, with no noise. -/
def estRate (m tau x : List Word64) : List Word64 :=
  let g := vget x
  let p := vget m
  let vel := rot2 (g 2) [g 3, g 4] ++ [g 5]
  let bias := rot2T (g 2) [g 6, g 7] ++ [g 8]
  let acc := (List.range 3).map fun i =>
    fdiv (fadd (fadd (fneg (fmul (p (3 + i)) (g (3 + i)))) (vget bias i)) (vget tau i)) (p i)
  let decay := (List.range 3).map fun i => fneg (fdiv (g (6 + i)) (p (6 + i)))
  let wave (i : Nat) : List Word64 :=
    let w := p (12 + i)
    [g (10 + 2 * i), fsub (fneg (fmul (fmul w w) (g (9 + 2 * i))))
      (fmul (fmul (fmul (k64 2 1) (p (15 + i))) w) (g (10 + 2 * i)))]
  vel ++ acc ++ decay ++ wave 0 ++ wave 1 ++ wave 2

/-- The derivatives of those rates by the states: per state the non-zero ones, by the index of the state. -/
def estSlopes (m x : List Word64) : List (List (Nat × Word64)) :=
  let g := vget x
  let p := vget m
  let sn := fsin (g 2)
  let cs := fcos (g 2)
  let v := rot2 (g 2) [g 3, g 4]
  let b := rot2T (g 2) [g 6, g 7]
  let perM (i : Nat) (a : Word64) : Word64 := fdiv a (p i)
  let damp (i : Nat) : Word64 := fneg (perM i (p (3 + i)))
  let wave (i : Nat) : List (List (Nat × Word64)) :=
    let w := p (12 + i)
    [[(10 + 2 * i, one64)],
     [(9 + 2 * i, fneg (fmul w w)), (10 + 2 * i, fneg (fmul (fmul (k64 2 1) (p (15 + i))) w))]]
  [[(2, fneg (vget v 1)), (3, cs), (4, fneg sn)], [(2, vget v 0), (3, sn), (4, cs)], [(5, one64)],
   [(2, perM 0 (vget b 1)), (3, damp 0), (6, perM 0 cs), (7, perM 0 sn)],
   [(2, perM 1 (fneg (vget b 0))), (4, damp 1), (6, perM 1 (fneg sn)), (7, perM 1 cs)],
   [(5, damp 2), (8, perM 2 one64)]]
  ++ ((List.range 3).map fun i => [(6 + i, fneg (fdiv one64 (p (6 + i))))]) ++ wave 0 ++ wave 1 ++ wave 2

/-- The intensities of the white noise on the states (R64): QNU on the velocities, QB on the biases, K_W on the second state of each
wave pair. -/
def estNoise (m : List Word64) : List Word64 :=
  let sq (i : Nat) : Word64 := fmul (vget m i) (vget m i)
  [0, 0, 0, sq 21, sq 22, sq 23, sq 9, sq 10, sq 11, 0, sq 18, 0, sq 19, 0, sq 20]

/-- The random-walk rate of the reference-bias state with an index (R64). -/
def State.biasRate (s : State) (i : Nat) : Word64 :=
  match streamIds.find? fun n => let b := s.biasOf n; b.1 != 0 && decide (b.1 ≤ i) && decide (i < b.1 + b.2) with
  | some n => f32to64 (s.word (R.FE_MN_BQ n))
  | none => 0

/-- The propagation to this snap (R64): the state by the model's equations, the transition of its error and the noise. A reference
bias keeps its value and walks at its rate. -/
def State.predict (s : State) : List Word64 × Mat × Mat :=
  let n := s.est.x.length
  let dt := fofRat ((s.t0 - s.est.lastSnap : Nat) : Int) 1000000000
  let m := s.model
  let x0 := s.est.x.take 15
  let x := Config.flow (estRate m s.est.tau) dt x0
  let a := mmk 15 15 fun i j => (((estSlopes m x0).getD i []).lookup j).getD 0
  let f := Config.transition a dt
  let q := Config.walk a (estNoise m) dt
  let own (i j : Nat) : Bool := decide (i < 15) && decide (j < 15)
  ((List.range n).map fun i => if i < 15 then vget x i else vget s.est.x i,
   mmk n n fun i j => if own i j then mget f i j else if i = j then one64 else 0,
   mmk n n fun i j => if own i j then mget q i j else if i = j then let r := s.biasRate i; fmul (fmul r r) dt else 0)

/-- The time update's job is done: the state moves by the model, the covariance is the job's (R64, R67). -/
def State.timeUpdate (s : State) (o : KfOut) : State :=
  let t0 := s.t0
  (s.keepEst s.predict.1 (o.p.map words)).modEst fun e => { e with lastSnap := t0, timeUpd := false }

/-- The CO position that a stream's track gives which makes the RELATIVE class present (R73, R91): its return's of this snap, else
its filter's (log entry 243). -/
def State.relPos (s : State) (n : Nat) : Option (List Word64) :=
  match s.trk.yields.find? fun u => u.stream == n with
  | some u => some u.y
  | none => trackIds.findSome? fun j =>
    let k := s.get (F.TK_ST_TGT j)
    if s.tkConf j && s.get (F.TK_ST_SRC j) == n && s.flag (F.TK_ST_BOUND j) && s.tgtSurv k then
      (s.tgtNed k).map fun p => (vsub p (s.tkX j)).take 2
    else none

/-- The CO position of a taut wire: its weight's plus the projected one; while its weight is not set, where the estimate has it,
for R72 sets the weight from there (log entry 243). -/
def State.wirePos (s : State) (n : Nat) : Option (List Word64) :=
  let i := s.get (F.FE_MN_CFG_BIAS_IDX n)
  if (s.stream n).weight.isSome then (s.projOf n).map fun v => vadd (v.take 2) [vget s.est.x i, vget s.est.x (i + 1)]
  else some (s.est.x.take 2)

/-- The position reset of R75, before the updates: N and E from the lowest-ID position stream that qualifies. -/
def State.posReset (s : State) : State :=
  if !s.est.posReset then s
  else
    let pos (n : Nat) : Option (List Word64) :=
      if s.counts n 1 then (s.projOf n).map (·.take 2)
      else if s.counts n 2 then s.relPos n
      else if s.counts n 3 then s.wirePos n
      else none
    match streamIds.findSome? pos with
    | none => s
    | some v =>
      let sp := s.get64 R.FE_MDL_P0_POS
      let hit (i : Nat) : Bool := i == 0 || i == 1 || i == 3 || i == 4
      let x := s.est.x.zipIdx.map fun e => if e.2 = 0 then vget v 0 else if e.2 = 1 then vget v 1
        else if e.2 = 3 || e.2 = 4 then 0 else e.1
      let p := s.est.p.zipIdx.map fun r => r.1.zipIdx.map fun e =>
        if hit r.2 || hit e.2 then (if r.2 = e.2 then fmul sp sp else 0) else e.1
      (s.modEst fun e => { e with x := x, p := p, posReset := false, settled := true }).setFlag F.FE_EST_STAT_POS_RESET true

/-! Measurement updates (R66 to R72). -/

/-- Does the latched sample of a stream hold a merged GST (R36, R41)? -/
def State.gstMerged (s : State) (n : Nat) : Bool :=
  match (s.stream n).latched with
  | some e => e.flags / 4 % 2 == 1
  | none => false

/-- The sigmas of the ego-motion solution that a stream's latched sample comes from. -/
def State.egoSigOf (s : State) (n : Nat) : Option (List Word64) := (s.stream n).latched.bind fun e => s.est.egoSig.lookup e.srcTime

/-- The measured sigmas of a projected value (R66). -/
def State.measSig (s : State) (n typ : Nat) (v : List Word64) : List Word64 :=
  let d := s.get64 (R.FE_MN_SIG n)
  match typ with
  | 1 => if s.gstMerged n then [vget v 3, vget v 4] else [d, d]
  | 3 => [d, d]
  | 7 => [d, d]
  | 11 => (s.egoSigOf n).getD [d, d, d]
  | _ => [d]

/-- The measured value of a projected stream in an update. -/
def measY (typ : Nat) (v : List Word64) : List Word64 :=
  match typ with
  | 1 => v.take 2
  | 3 => v.take 2
  | 4 => v.take 1
  | 5 => v.take 1
  | 7 => v.take 2
  | 11 => v.take 3
  | _ => []

/-- The innovation y - h(x) and H of an update (R66), about a state; headings wrapped. -/
def State.innov (s : State) (u : Upd) (x : List Word64) : List Word64 × Mat :=
  let n := x.length
  let g := vget x
  let (bi, bn) := s.biasOf u.stream
  let beta (k : Nat) : Word64 := if bi ≠ 0 && k < bn then g (bi + k) else 0
  let row (l : List (Nat × Word64)) : List Word64 := (List.range n).map fun i => (l.lookup i).getD 0
  let b (k : Nat) : List (Nat × Word64) := if bi ≠ 0 && k < bn then [(bi + k, one64)] else []
  let y := vget u.y
  match u.typ with
  | 3 => ([fsub (y 0) (fsub (fadd (g 0) (g 9)) (g bi)), fsub (y 1) (fsub (fadd (g 1) (g 11)) (g (bi + 1)))],
          [row [(0, one64), (9, one64), (bi, fneg one64)], row [(1, one64), (11, one64), (bi + 1, fneg one64)]])
  | 4 => ([wrapPi (fsub (y 0) (fadd (fadd (g 2) (g 13)) (beta 0)))], [row ([(2, one64), (13, one64)] ++ b 0)])
  | 5 => ([fsub (y 0) (fadd (g 5) (beta 0))], [row ([(5, one64)] ++ b 0)])
  | 7 =>
    let v := rot2 (g 2) [g 3, g 4]
    let sp := fsin (g 2)
    let cp := fcos (g 2)
    ([fsub (y 0) (vget v 0), fsub (y 1) (vget v 1)],
     [row [(2, fneg (vget v 1)), (3, cp), (4, fneg sp)], row [(2, vget v 0), (3, sp), (4, cp)]])
  | 11 => ([fsub (y 0) (g 3), fsub (y 1) (g 4), fsub (y 2) (g 5)], [row [(3, one64)], row [(4, one64)], row [(5, one64)]])
  | _ => ([fsub (y 0) (fadd (fadd (g 0) (g 9)) (beta 0)), fsub (y 1) (fadd (fadd (g 1) (g 11)) (beta 1))],
          [row ([(0, one64), (9, one64)] ++ b 0), row ([(1, one64), (11, one64)] ++ b 1)])

/-- The diagonal noise of sigmas. -/
def diagVar (sg : List Word64) : Mat := mmk sg.length sg.length fun i j => if i = j then fmul (vget sg i) (vget sg i) else 0

/-- A gate or vote failure (R71). -/
def State.gateFail (s : State) (n : Nat) : State :=
  let k := min 255 (s.get (F.FE_MN_CNT_FAILRUN n) + 1)
  let s := ((s.set (F.FE_MN_CNT_FAILRUN n) k).set (F.FE_MN_CNT_OKRUN n) 0).bump (F.FE_MN_ACC_GATEFAIL n)
  if max 1 (s.get (F.FE_SC_GATE_N_REJ n)) ≤ k && !(s.stream n).rejected then
    (s.bump (F.FE_MN_CNT_REJ_CNT n)).modStream n fun x => { x with rejected := true }
  else s

/-- A pass (R71). -/
def State.gatePass (s : State) (n : Nat) : State :=
  let s := s.set (F.FE_MN_CNT_FAILRUN n) 0
  if (s.stream n).rejected then
    let k := s.get (F.FE_MN_CNT_OKRUN n) + 1
    let s := s.set (F.FE_MN_CNT_OKRUN n) (min 255 k)
    if max 1 (s.get (F.FE_SC_GATE_N_OK n)) ≤ k then s.modStream n fun x => { x with rejected := false } else s
  else s

/-- A position class (R73). -/
def posTyp (t : Nat) : Bool := t == 1 || t == 2 || t == 3

/-- TAUTWIRE_WEIGHT_SET: the first new sample after ABSENT sets the weight states (R72). -/
def State.setWeight (s : State) (u : Upd) : State :=
  let (bi, _) := s.biasOf u.stream
  let g := vget s.est.x
  let w0 := fsub (g 0) (vget u.y 0)
  let w1 := fsub (g 1) (vget u.y 1)
  let r := diagVar u.sig
  let x := modAt bi (fun _ => w0) (modAt (bi + 1) (fun _ => w1) s.est.x)
  let src (i : Nat) : Nat := if i = bi then 0 else if i = bi + 1 then 1 else i
  let wt (i : Nat) : Bool := i == bi || i == bi + 1
  let p := mmk x.length x.length fun i j =>
    let v := mget s.est.p (src i) (src j)
    if wt i && wt j then fadd v (mget r (src i) (src j)) else v
  (s.modEst fun e => { e with x := x, p := p }).modStream u.stream fun q => { q with weight := some (w0, w1) }

/-- Does an update bypass its gate: a position class in Q3 or Q4, before the position reset (R75)? -/
def State.bypass (s : State) (typ : Nat) : Bool :=
  posTyp typ && decide (3 ≤ s.get F.FE_EST_STAT_QUAL) && !s.est.settled

/-- The innovation and H of an update's job; BIAS_FREEZE keeps the reference biases out of it (04, registers). -/
def State.kfTerms (s : State) (u : Upd) : List Word64 × Mat :=
  let (nu, h) := s.innov u s.est.x
  (nu, if s.flag F.FE_EST_CTRL_BIAS_FREEZE then h.map fun r => r.zipIdx.map fun e => if 15 ≤ e.2 then 0 else e.1 else h)

/-- The state and covariance a job returns; under BIAS_FREEZE those of the reference biases stay. -/
def State.takeKf (s : State) (o : KfOut) : State :=
  let x := words o.x
  let p := o.p.map words
  let f := s.flag F.FE_EST_CTRL_BIAS_FREEZE
  s.keepEst (x.zipIdx.map fun e => if f && 15 ≤ e.2 then vget s.est.x e.2 else e.1)
    (p.zipIdx.map fun r => r.1.zipIdx.map fun e => if f && (15 ≤ r.2 || 15 ≤ e.2) then mget s.est.p r.2 e.2 else e.1)

/-- One measurement update completes with its job's outcome (R67, R69, R71, R75). -/
def State.applyUpd (s : State) (u : Upd) (o : KfOut) (pass : Bool) : State :=
  let n := u.stream
  let s := s.setWord (R.FE_MN_D2 n) (f64to32 o.d2.v)
  let was := (s.stream n).rejected
  let take (s : State) : State := if was then s else (s.takeKf o).bump (F.FE_MN_ACC_ACCEPT n)
  if s.bypass u.typ then take s
  else if pass then take (s.gatePass n)
  else s.gateFail n

/-! Voting (R70). -/

/-- The median of values: for an even count the mean of the two middle ones. -/
def median (l : List Word64) : Word64 :=
  let q := sortBy (fun a b => decide (forderKey a ≤ forderKey b)) l
  let n := q.length
  if n % 2 = 1 then vget q (n / 2) else fdiv (fadd (vget q (n / 2 - 1)) (vget q (n / 2))) (k64 2 1)

/-- The value a stream votes with: its latched one projected to the CO, of a POS_RELATIVE stream the latest CO position of its
lowest track; a type outside R66 has none (log entry 193). -/
def State.voteVal (s : State) (n : Nat) : Option (List Word64) :=
  let typ := s.styp n
  if typ = 2 then (s.trk.latest.find? fun u => u.stream == n).map (·.y)
  else match measY typ ((s.projOf n).getD []) with
    | [] => none
    | v => some v

/-- The heading that voters are wrapped about: the predicted ψ; before initialisation the first voter's (R70; log entry 193). -/
def State.voteRef (s : State) (vals : List (List Word64)) : Word64 :=
  if s.est.inited then vget s.predict.1 2 else vget (vals.headD []) 0

/-- The vote of group g (R70): the members that failed, with VOTE_LOW and VG_BAD. Of three or more voters of which fewer than three
have a projected value no vote is taken, and VOTE_LOW does not set (DESIGN CHOICE, log entry 193). -/
def State.vote (s : State) (g : Nat) : State × List Nat :=
  let mem := streamIds.filter fun n => s.sen n && s.get (F.FE_SC_GATE_VGRP n) == g
  match mem with
  | [] => (s, [])
  | f :: _ =>
    let typ := s.styp f
    let s := if mem.any fun n => s.styp n != typ then s.setFlag F.FE_EST_STAT_VG_BAD true else s
    let voters := mem.filter fun n => s.counts n typ
    let vals := voters.filterMap fun n => (s.voteVal n).map fun v => (n, v)
    if voters.length < 3 then (s.setFlag F.FE_EST_STAT_VOTE_LOW true, [])
    else if vals.length < 3 then (s, [])
    else
      let ref := s.voteRef (vals.map (·.2))
      let vals := if typ = 4 then vals.map fun e => (e.1, [fadd ref (wrapPi (fsub (vget e.2 0) ref))]) else vals
      let med := (List.range (vals.headD (0, [])).2.length).map fun i => median (vals.map fun e => vget e.2 i)
      let lim := fdiv (fofNat (s.get (F.FE_VGRP_LIM_LIM g))) (if typ = 4 || typ = 5 then k64 1000000 1 else k64 1000 1)
      (s, (vals.filter fun e => flt lim (vnorm (vsub e.2 med))).map (·.1))

/-- The votes of every group. -/
def State.votes (s : State) : State × List Nat :=
  (List.range 31).foldl (fun (acc : State × List Nat) k =>
    let v := acc.1.vote (k + 1)
    (v.1, acc.2 ++ v.2)) (s, [])

/-- A vote failure of a stream with a new sample counts once in VOTEFAIL and, where its updates are gated, as a gate failure
(R70, R75). -/
def State.voteFail (s : State) (n : Nat) : State :=
  (if s.bypass (s.styp n) then s else s.gateFail n).bump (F.FE_MN_CNT_VOTEFAIL n)

/-- The order of the updates of a cycle (R67): the step of a type. -/
def updStep (typ : Nat) : Nat :=
  match typ with
  | 4 => 1 | 1 => 2 | 2 => 2 | 3 => 2 | 7 => 3 | 11 => 4 | 5 => 5 | _ => 0

/-- The updates of this cycle in their order: streams with a new sample, gated even when REJECTED; tracks in ascending
number (R66 to R68). -/
def State.updates (s : State) : List Upd :=
  let one (n : Nat) : List Upd :=
    let typ := s.styp n
    if typ = 2 then s.trk.yields.filter fun u => u.stream == n
    else match s.est.proj.find? fun p => p.stream == n with
      | some p => if p.isNew then [⟨n, typ, measY typ p.vals, s.measSig n typ p.vals⟩] else []
      | none => []
  ([1, 2, 3, 4, 5].map fun st => ((streamIds.filter fun n => updStep (s.styp n) == st).map one).flatten).flatten

/-- A KF_UPDATE job of the estimator: class C1, the PH_SK instant as deadline (R67, R121). -/
def State.submitKf (s : State) (gate : Word) (h : Mat) (nu : List Word64) (r : Mat) : State :=
  let x := s.est.x
  s.submitInternal { internalJob 1 4 1 x.length nu.length (some (stampOf s.atSk)) 1 none (.kf x s.est.p h nu r) with aux := gate }

/-- Go on with the updates of a cycle: the next one's job, with the gate of its stream. A taut wire without its weight states
granted is passed over, and the sample that sets them needs no job (R63, R67, R69, R72). -/
def State.runUpds (s : State) : List Upd → State
  | [] => s.modEst fun e => { e with todo := [], running := false }
  | u :: rest =>
    if u.typ = 3 && decide ((s.biasOf u.stream).2 < 2) then s.runUpds rest
    else if u.typ = 3 && (s.stream u.stream).weight.isNone then (s.setWeight u).runUpds rest
    else
      let s := s.modEst fun e => { e with todo := u :: rest }
      let (nu, h) := s.kfTerms u
      let gate := if s.bypass u.typ then 0 else f64to32 (gateOf (s.get (F.FE_SC_GATE_GATE u.stream)))
      s.submitKf gate h nu (diagVar u.sig)

/-- The start of the estimator's work (R65, R67, R70, R75): the votes; then, once initialised, the time update's job. -/
def State.estStart (s : State) : State :=
  if !s.estOn || s.flag F.FE_EST_STAT_MDL_BAD then s
  else
    let (s, bad) := s.votes
    let ups := s.updates
    let s := (bad.filter fun n => ups.any fun u => u.stream == n).foldl (fun t n => t.voteFail n) s
    if !s.est.inited then s
    else
      let s := s.modEst fun e => { e with timeUpd := true, todo := ups.filter fun u => !bad.contains u.stream, running := true }
      let (_, f, q) := s.predict
      s.submitKf 0 f [] q

/-- KF_UPDATE_COMPLETE: the outcome of an estimator update; the next update is submitted (R67). After a job that ended without
one, the cycle has no further update, and PH_SK cuts the rest (log entry 196). -/
def State.kfDone (s : State) (out : Option (KfOut × Bool)) : State :=
  if !s.est.running then s
  else match out with
    | none => s
    | some (o, pass) =>
      if s.est.timeUpd then let s := (s.timeUpdate o).posReset; s.runUpds s.est.todo
      else match s.est.todo with
        | [] => s
        | u :: rest => (s.applyUpd u o pass).runUpds rest

/-! Publication (R21, R77). -/

/-- FE_EST_OUT takes the state as it stands (R77). -/
def State.publish (s : State) : State :=
  let g := vget s.est.x
  let sd (i : Nat) : Word64 := fsqrt (mget s.est.p i i)
  let snap := stampOf s.t0
  let s := s.setWord R.FE_OUT_CYC s.cycNum
  let s := (s.set F.FE_OUT_Q_QUAL (s.get F.FE_EST_STAT_QUAL)).setFlag F.FE_OUT_Q_INIT s.est.inited
  let s := if s.est.inited then
      let s := s.setVec ((List.range 6).map R.FE_OUT_EST) ((List.range 6).map g)
      let s := s.setVec ((List.range 3).map R.FE_OUT_SIG) ((List.range 3).map sd)
      s.setVec ((List.range 3).map R.FE_OUT_B) ((List.range 3).map fun i => g (6 + i))
    else s
  let s := (s.setWord R.FE_OUT_SNAPL (snap.truncate 32)).setWord R.FE_OUT_SNAPH ((snap >>> 32).truncate 32)
  let s := s.modEst fun e => { e with published := e.inited }
  s.setWord R.FE_OUT_CYC2 s.cycNum

/-! Ego-motion (R78). -/

/-- The fixed-target tracks: CONFIRMED tracks bound to a FIXED entry, with their body-frame position (R91). -/
def State.fixTracks (s : State) : List (Nat × List Word64) :=
  (trackIds.filter fun j => s.tkState j == 2 && s.flag (F.TK_ST_BOUND j) && !s.flag (F.TGT_CFG_KIND (s.get (F.TK_ST_TGT j)))).map
    fun j => (j, mvec (mtr 3 s.attM) ((s.tkX j).take 3))

/-- The ego-motion stream, when one is named (R78). -/
def State.egoStream (s : State) : Option Nat :=
  let n := s.get F.FE_EGO_CFG_OUT_ID
  if n ≠ 0 && s.flag (F.FE_SC_CFG_EN n) && s.get (F.FE_SC_CFG_TYPE n) = 11 && s.get (F.FE_SC_CFG_SRC_KIND n) = 8 then some n else none

/-- A point of an ego-motion solution: its lever arm and its velocity in body axes at the CO level, and the velocity's sigma. -/
structure EgoPoint where
  arm : List Word64
  vel : List Word64
  sig : Word64
  deriving DecidableEq, Repr

/-- A point of the hull from its body position and velocity: the part of the velocity that roll and pitch rates give is taken
away, and both are levelled (R78; log entry 194). -/
def State.egoPoint (s : State) (l w : List Word64) (sg : Word64) : EgoPoint :=
  let lev := rotM (vget s.est.att 0) (vget s.est.att 1) 0
  ⟨mvec lev l, mvec lev (vsub w (cross [vget s.est.att 3, vget s.est.att 4, 0] l)), sg⟩

/-- The points of the cycle's solution (R78): antennas with a carrier-phase velocity (NED, then its sigma), and fixed-target tracks
seen at the previous snap too, whose velocity is the negated change of their body position. -/
def State.egoPoints (s : State) : List EgoPoint :=
  let ant := if s.flag F.FE_EGO_CFG_TDCP_EN then
      s.est.tdcp.map fun e => s.egoPoint (s.fdl (e.1 + 1)) (mvec (mtr 3 s.attM) (e.2.take 3)) (vget e.2 3) else []
  let dt := fofRat ((s.t0 - s.est.fixAt : Nat) : Int) 1000000000
  let trk := if s.flag F.FE_EGO_CFG_TRK_EN then
      s.fixTracks.filterMap fun e => (s.est.fixPrev.find? fun q => q.1 == e.1).map fun q =>
        s.egoPoint e.2 ((vsub e.2 q.2).map fun c => fneg (fdiv c dt)) (Config.pointSigma (s.tkP e.1)) else []
  ant ++ trk

/-- The columns of A and b of the solution, each row over its point's sigma: u - r ly = vx, v + r lx = vy; with the rate of turn
known, its terms go to the right side (R78). -/
def egoSystem (ps : List EgoPoint) (r : Option Word64) : List (List Word64) × List Word64 :=
  let rows := (ps.map fun p =>
    let w := fdiv one64 p.sig
    let ly := vget p.arm 1
    let lx := vget p.arm 0
    [(w, 0, fneg (fmul w ly), fmul w (vget p.vel 0)), (0, w, fmul w lx, fmul w (vget p.vel 1))]).flatten
  match r with
  | none => ([rows.map (·.1), rows.map (·.2.1), rows.map (·.2.2.1)], rows.map (·.2.2.2))
  | some r => ([rows.map (·.1), rows.map (·.2.1)], rows.map fun q => fsub q.2.2.2 (fmul q.2.2.1 r))

/-- EGO_MOTION_SOLVE: the least-squares job of the cycle, or no sample (R78). -/
def State.egoSolve (s : State) : State :=
  let ps := s.egoPoints
  let fx := s.fixTracks
  let t0 := s.t0
  let spread := ps.any fun a => ps.any fun b => fle one64 (vnorm (vsub a.arm b.arm))
  let rot := (streamIds.find? fun n => s.counts n 5).bind fun n => (s.projOf n).map fun v => (vget v 0, vget (s.measSig n 5 v) 0)
  let s := s.modEst fun e => { e with fixPrev := fx, fixAt := t0, tdcp := [], egoRot := none }
  match s.egoStream with
  | none => s
  | some _ =>
    let s := s.set F.FE_EGO_STAT_NPTS (min 255 ps.length)
    let job (r : Option Word64) : Job :=
      let (a, b) := egoSystem ps r
      internalJob 4 1 2 a.length b.length (some (stampOf (s.t0 + s.tDp))) 1 none (.lsq a b)
    if 2 ≤ ps.length && spread then s.submitInternal (job none)
    else match (if ps.length = 1 then rot else none) with
      | some r => (s.modEst fun e => { e with egoRot := some r }).submitInternal (job (some r.1))
      | none => s.setFlag F.FE_EGO_STAT_EGO_VALID false

/-- The sigmas of a least-squares solution: the roots of the diagonal of (AᵀA)⁻¹. -/
def lsqSigmas (a : List (List Word64)) : List Word64 :=
  let n := minv (a.map fun c => a.map fun d => fdot c d)
  (List.range a.length).map fun i => fsqrt (mget n i i)

/-- EGO_JOB_COMPLETE: the solution becomes an EGO_VELOCITY sample of the snap, or there is none (R78, R50); its sigmas are the
solution's own (R66). -/
def State.egoDone (s : State) (ok : Bool) (p : Prob) (x : List Word64) : State :=
  match s.egoStream with
  | none => s
  | some n =>
    if !ok then s.setFlag F.FE_EGO_STAT_EGO_VALID false
    else
      let sg := match p with
        | .lsq a _ => lsqSigmas a
        | _ => []
      let (v, sg) := match s.est.egoRot with
        | some r => (x.take 2 ++ [r.1], sg ++ [r.2])
        | none => (x.take 3, sg)
      let at' := BitVec.ofNat 64 s.t0
      let s := (s.setFlag F.FE_EGO_STAT_EGO_VALID true).modEst fun e => { e with egoSig := ((at', sg) :: e.egoSig).take 17 }
      s.queueWrite n ⟨s.stamp, 0, 11, 1, at', v, 0, 0⟩

/-! Survey adjustment (R79 to R81). -/

/-- The survey buffer's address. -/
def State.survBuf (s : State) : Nat := s.get F.FE_SURV_BUFL_BUF_LO + 2 ^ 32 * s.get F.FE_SURV_BUFH_BUF_HI

/-- The sigmas of a stream's sample: those of its update, of a POS_RELATIVE stream those of its latest track (R66, R79). -/
def State.epochSig (s : State) (n : Nat) : List Word64 :=
  if s.styp n = 2 then
    match s.trk.latest.find? fun u => u.stream == n with
    | some u => u.sig
    | none => [s.get64 (R.FE_MN_SIG n)]
  else s.measSig n (s.styp n) ((s.projOf n).getD [])

/-- The bytes of an epoch (R79): the snap stamp, the published estimate, and per usable stream its raw value, its σ and the
attitude used. The spec names the content and leaves the layout to Jalano (log entry 24). -/
def State.epochBytes (s : State) : List Byte :=
  let w (l : List Word64) : List Byte := (l.map fun v => leBytes 8 v.toNat).flatten
  let str := streamIds.filter s.usableStream
  (leBytes 8 (stampOf s.t0).toNat ++ ((wordsFrom R.FE_OUT_CYC 32).map fun a => leBytes 4 (s.word a).toNat).flatten
    ++ (str.map fun n => let sg := s.epochSig n
      leBytes 4 n ++ leBytes 4 sg.length ++ w (s.latchedVals n) ++ w sg ++ w (s.est.att.take 3)).flatten).take 4096

/-- Count a snap towards the next epoch: while recording at Q0 or Q1 (R79). -/
def State.survSnap (s : State) : State :=
  if s.flag F.FE_SURV_CTRL_REC && decide (s.get F.FE_EST_STAT_QUAL ≤ 1) then
    { s with surv := { s.surv with decim := s.surv.decim + 1 } }
  else s

/-- SURVEY_EPOCH_STORE: every DECIM-th snap while recording at Q0 or Q1 stores an epoch (R79), once the cycle's estimate is
published (log entry 197). -/
def execSurveyEpochStore (s : State) : Host.Outcome State Fault Refusal :=
  s.ends (
    let n := s.get F.FE_SURV_STAT_EPOCHS
    if !s.flag F.FE_SURV_CTRL_REC || decide (2 ≤ s.get F.FE_EST_STAT_QUAL) || s.flag F.FE_SURV_STAT_FULL
        || decide (s.surv.decim < max 1 (s.get F.FE_SURV_CTRL_DECIM)) || s.word R.FE_OUT_CYC != s.cycNum then s
    else
      let s := s.storeBytes (s.survBuf + 4096 * n) s.epochBytes
      let s := { s with surv := { s.surv with decim := 0 } }
      let s := s.set F.FE_SURV_STAT_EPOCHS (n + 1)
      if n + 1 = 4096 then s.setFlag F.FE_SURV_STAT_FULL true else s)

/-- A write of FE_SURV_CTRL: REC 0 to 1 discards the stored epochs and any proposal (R79); a run that goes on has lost them, and its
3 s end it without a proposal (R80). -/
def survCtrlWrite (s : State) (d : Dom) (v : Word) : State × CpSt :=
  let was := s.flag F.FE_SURV_CTRL_REC
  let r := s.plainWrite d R.FE_SURV_CTRL v
  if r.2 = .ok && !was && v.getLsbD 16 then
    let s := (r.1.set F.FE_SURV_STAT_EPOCHS 0).setFlag F.FE_SURV_STAT_FULL false
    let s := (s.set F.FE_SURV_STAT_PSTATE 0).setFlag F.FE_SURV_STAT_STALE_PROP false
    ({ s with surv := { Survey.init with due := s.surv.due, runAt := s.surv.runAt } }, .ok)
  else r

/-- SURVEY_REC_WRITE: a write of FE_SURV_CTRL (R79). -/
def execSurveyRecWrite (d : Dom) (v : Word) (s : State) : Host.Outcome State Fault Refusal := s.ends (survCtrlWrite s d v).1

/-- The number of unknowns of a run over some epochs (R80). -/
def State.survUnknowns (s : State) (epochs : Nat) : Nat :=
  let str := streamIds.filter fun n => s.flag (F.FE_MN_CFG_SURV n)
  3 * epochs + (str.map fun n => 6 + (s.biasOf n).2).foldl (· + ·) 0

/-- Every second epoch is dropped until the problem fits (R80): the number kept and the distance between them. The non-zeros of
the normal equations are those of the poses' blocks, their coupling with the streams' unknowns, and these. -/
def State.survEpochs (s : State) : Nat → Nat → Nat → Nat × Nat
  | 0, e, k => (e, k)
  | f + 1, e, k =>
    let u := s.survUnknowns e
    let sh := u - 3 * e
    if u ≤ 16384 && 9 * e + 3 * e * sh + sh * sh ≤ 1000000 then (e, k) else s.survEpochs f ((e + 1) / 2) (2 * k)

/-- The streams of a survey. -/
def State.survStreams (s : State) : List Nat := streamIds.filter fun n => s.flag (F.FE_MN_CFG_SURV n)

/-- A stream's present values, as a run starts from them: the descriptor's twelve and its biases. -/
def State.survStart (s : State) (n : Nat) : Nat × List Word64 × List Word64 :=
  let (i, k) := s.biasOf n
  (n, s.fdl n ++ (s.fdc n).flatten, (List.range k).map fun j => vget s.est.x (i + j))

/-- One stream's values with its corrections: lever arm, small rotation, biases. -/
def survStep (e : Nat × List Word64 × List Word64) (g : Nat → Word64) : Nat × List Word64 × List Word64 :=
  let c : Mat := (List.range 3).map fun i => (List.range 3).map fun j => vget e.2.1 (3 + 3 * i + j)
  let l := (List.range 3).map fun i => fadd (vget e.2.1 i) (g i)
  let c := if (List.range 3).all fun i => feq (g (3 + i)) 0 then c else mmul (rotM (g 3) (g 4) (g 5)) c
  (e.1, l ++ c.flatten, e.2.2.zipIdx.map fun b => fadd b.1 (g (6 + b.2)))

/-- The values a run has reached: the unknowns follow the epochs' poses, six and the biases per stream; one found unobservable
keeps its present value (R80). -/
def survVals (corr : List Word64) (un : List Nat) : Nat → List (Nat × List Word64 × List Word64) → List (Nat × List Word64 × List Word64)
  | _, [] => []
  | ofs, e :: t =>
    survStep e (fun i => if un.contains (ofs + i) then 0 else vget corr (ofs + i)) :: survVals corr un (ofs + 6 + e.2.2.length) t

/-- The values a run has reached. -/
def State.survNow (s : State) : List (Nat × List Word64 × List Word64) :=
  survVals s.surv.corr s.surv.unobs (3 * s.get F.FE_SURV_RES_EPOCHS_USED) s.surv.base

/-- The epochs a run uses, as stored. -/
def State.survData (s : State) : List (List Byte) :=
  let n := s.get F.FE_SURV_STAT_EPOCHS
  let k := (s.survEpochs 13 n 1).2
  ((List.range n).filter fun i => i % k == 0).map fun i => s.bytes (s.survBuf + 4096 * i) 4096

/-- The linearisation at the values a run has reached (R80). -/
def State.survSystem (s : State) : Prob × Word64 :=
  let n := s.survUnknowns (s.get F.FE_SURV_RES_EPOCHS_USED)
  let (a, b, rms) := Config.surveySystem s.survData s.survNow (s.surv.corr.take (3 * s.get F.FE_SURV_RES_EPOCHS_USED))
  (.normal ((List.range n).map fun c => (a.getD c []).filter fun e => decide (e.1 < n)) ((List.range n).map (vget b)), rms)

/-- Submit the survey's next linearisation: LSQ_SPARSE, class C3, no deadline; a refusal is submitted again at the next
cycle (R80). -/
def State.survSubmit (s : State) : State :=
  let before := s.jobs.jobs.length
  let n := s.survUnknowns (s.get F.FE_SURV_RES_EPOCHS_USED)
  let s' := s.submitInternal (internalJob 5 2 3 n 0 none 1 none s.survSystem.1)
  let refused := s'.jobs.jobs.length == before
  { s' with surv := { s'.surv with again := refused, againCyc := s.cycNum } }

/-- Start a survey run (R80). -/
def State.survRun (s : State) : State :=
  let now := s.now
  let s := (s.set F.FE_SURV_STAT_PSTATE 1).set F.FE_SURV_RES_EPOCHS_USED (s.survEpochs 13 (s.get F.FE_SURV_STAT_EPOCHS) 1).1
  let s := (s.set F.FE_SURV_RES_ITER 0).setFlag F.FE_SURV_STAT_UNOBS false
  let base := s.survStreams.map s.survStart
  let s := { s with surv := { s.surv with runAt := some now, lin := 0, base := base, corr := [], unobs := [], prop := [] } }
  (s.setFlag F.FE_SURV_STAT_STALE_PROP false).survSubmit

/-- SURVEY_RESUBMIT: a refused linearisation is submitted again at the next cycle (R80). -/
def execSurveyResubmit (s : State) : Host.Outcome State Fault Refusal :=
  s.ends (if s.surv.again && s.surv.runAt.isSome && s.surv.againCyc != s.cycNum then s.survSubmit else s)

end Sys2Proof.Machine
end

