-- ==== Sys2Proof/Machine/StationKeeping.lean ====
section
/-!
DEFINITION. Station-keeping (06_station_keeping R93 to R108): requests, stake, falls, reference model, control law, wind
feed-forward, joystick, transfer and envelope. The DP core's release is one operation that TASK_RELEASE runs.
-/
namespace Sys2Proof.Machine

/-- Change station-keeping's state. -/
def State.modSk (s : State) (f : Sk → Sk) : State := { s with sk := f s.sk }

/-- The present mode (R95). -/
def State.skMode (s : State) : Nat := s.get F.SK_STAT_MODE

/-- The published position, heading, and body velocity. -/
def State.pubPos (s : State) : List Word64 := [s.get64 (R.FE_OUT_EST 0), s.get64 (R.FE_OUT_EST 1)]
def State.pubPsi (s : State) : Word64 := s.get64 (R.FE_OUT_EST 2)
def State.pubNu (s : State) : List Word64 := s.vec ((List.range 3).map fun i => R.FE_OUT_EST (3 + i))

/-- The source of a DOF in a mode (R95): 0 none, 1 joystick, 2 automatic. -/
def dofSource (mode d : Nat) : Nat :=
  if mode = 0 then 0 else if mode = 1 then 1 else if mode = 2 then (if d = 2 then 2 else 1) else 2

/-- Is a mode permitted at a quality (R76)? -/
def modeAt (q mode : Nat) : Bool :=
  if mode ≤ 1 then true
  else if q ≤ 1 then mode ≤ 6
  else if q = 2 then mode == 2 || mode == 3 || mode == 6
  else if q = 3 then mode == 2
  else false

/-- The gain i of DOF d: KP, KP3, KI, KD, IMAX, TAUMAX. -/
def State.gain (s : State) (d i : Nat) : Word64 := s.get64 (R.SK_G d i)

/-- A value clamped to ±m. -/
def fclamp (m a : Word64) : Word64 := fmax (fneg m) (fmin m a)

/-! Requests (R96). -/

/-- Latch a request, replacing one that waits (R96). -/
def State.skLatch (s : State) (r : SkReq) : State :=
  let s := if s.sk.req.isSome then
      { s.bump F.SK_CNT_OVERWR with cp := { s.cp with op := s.cp.op.map fun o => { o with replaced := true } } }
    else s
  s.modSk fun k => { k with req := some r }

/-- A write of SK_CMD; operations and modes the table does not list are ignored. -/
def skCmdWrite (s : State) (d : Dom) (v : Word) (cp : Bool) : State × CpSt :=
  s.writeGuard d R.SK_CMD fun s =>
    let op := F.SK_CMD_OP.of v
    let mode := F.SK_CMD_MODE.of v
    if 1 ≤ op && op ≤ 4 && (op != 1 || mode ≤ 6) then (s.skLatch ⟨op, mode, F.SK_CMD_KEEP.of v == 1, cp⟩, .ok) else (s, .ok)

/-- The SK_CMD word of an operation. -/
def skWord (op mode : Nat) (keep : Bool) : Word := BitVec.ofNat 32 (op + 16 * mode + (if keep then 128 else 0))

/-- SK_CMD_MODE: SK_CMD written with OP 1 (R96). -/
def execSkCmdMode (d : Dom) (mode : BitVec 3) (keep : Bool) (s : State) : Host.Outcome State Fault Refusal :=
  s.ends (skCmdWrite s d (skWord 1 mode.toNat keep) false).1
/-- SK_CMD_STAKE_HERE: OP 2 (R96). -/
def execSkCmdStakeHere (d : Dom) (s : State) : Host.Outcome State Fault Refusal := s.ends (skCmdWrite s d (skWord 2 0 false) false).1
/-- SK_CMD_MOVE: OP 3 (R96). -/
def execSkCmdMove (d : Dom) (s : State) : Host.Outcome State Fault Refusal := s.ends (skCmdWrite s d (skWord 3 0 false) false).1
/-- SK_CMD_HALT_MOVE: OP 4 (R96). -/
def execSkCmdHaltMove (d : Dom) (s : State) : Host.Outcome State Fault Refusal := s.ends (skCmdWrite s d (skWord 4 0 false) false).1

/-- A write of SK_CFG: bits 0 to 2 of DOF_EN cannot be cleared. -/
def skCfgWrite (s : State) (d : Dom) (v : Word) : State × CpSt := s.plainWrite d R.SK_CFG (v ||| 7#32)

/-- BUMP_MS in ns; 0 is read as T_DP. -/
def State.bumpNs (s : State) : Nat :=
  let b := s.get F.SK_TIME_BUMP_MS
  if b = 0 then s.tDp else b * 1000000

/-- A write of a joystick register (R105): a NaN or an infinity is discarded; any other restarts the timer, and the first
after a stale one starts a ramp from the present demand. -/
def joyWrite (s : State) (d : Dom) (i : Nat) (v : Word) : State × CpSt :=
  s.writeGuard d (R.SK_JOY i) fun s =>
    if !fisFin (f32to64 v) then (s, .notNow)
    else
      let now := s.now
      let stale := s.flag F.SK_STAT_JOY_STALE
      let s := (s.setWord (R.SK_JOY i) v).setFlag F.SK_STAT_JOY_STALE false
      (s.modSk fun k => { k with joyAt := now, joyRamp := if stale then some (k.joy, now) else k.joyRamp }, .ok)

/-- JOYSTICK_WRITE: a write of SK_JOY_X, SK_JOY_Y or SK_JOY_N (R105). -/
def execJoystickWrite (d : Dom) (i : Fin 3) (v : Word) (s : State) : Host.Outcome State Fault Refusal :=
  s.ends (joyWrite s d i.val v).1

/-- JOYSTICK_TIMEOUT: no write for JOY_TMO_MS; JOY_STALE sets and the demand ramps to zero (R105). -/
def execJoystickTimeout (s : State) : Host.Outcome State Fault Refusal :=
  s.ends (
    if s.flag F.SK_STAT_JOY_STALE then s
    else
      let s := (s.advanceTo (s.sk.joyAt + s.get F.SK_TIME_JOY_TMO_MS * 1000000)).setFlag F.SK_STAT_JOY_STALE true
      let now := s.now
      s.modSk fun k => { k with joyRamp := some (k.joy, now) })

/-- The joystick demand of the three DOFs (R105), with its ramp. -/
def State.joyDemand (s : State) : State :=
  let stale := s.flag F.SK_STAT_JOY_STALE
  let tgt := (List.range 3).map fun i =>
    if stale then 0 else fmul (fclamp one64 (f32to64 (s.word (R.SK_JOY i)))) (s.gain i 5)
  match s.sk.joyRamp with
  | none => s.modSk fun k => { k with joy := tgt }
  | some (frm, at') =>
    let t := s.now - at'
    if s.bumpNs ≤ t then s.modSk fun k => { k with joy := tgt, joyRamp := none }
    else
      let x := fofRat t s.bumpNs
      s.modSk fun k => { k with joy := List.zipWith (fun a b => fadd (fmul a (fsub one64 x)) (fmul b x)) frm tgt }

/-! The stake (R97). -/

/-- The origin in force; where none stands, the spec gives no geodetic position and free values stand for it. -/
def State.orgOr (s : State) : List Word64 :=
  s.origin.getD [Config.freeValue s.freeCount, Config.freeValue (s.freeCount + 1), Config.freeValue (s.freeCount + 2)]

/-- The geodetic position of a point of the local horizontal plane. -/
def geodOf (org : List Word64) (ne : List Word64) : List Word64 :=
  let sl := fsin (vget org 0); let cl := fcos (vget org 0)
  let so := fsin (vget org 1); let co := fcos (vget org 1)
  let m : Mat := [[fneg (fmul sl co), fneg (fmul sl so), cl], [fneg so, co, 0], [fneg (fmul cl co), fneg (fmul cl so), fneg sl]]
  Config.geodetic (vadd (ecef org) (mvec (mtr 3 m) [vget ne 0, vget ne 1, 0]))

/-- Set the stake at a position and heading (R97): SK_STAKE, STAKE_VALID, and the origin at the next snap. -/
def State.setStake (s : State) (ne : List Word64) (psi : Word64) : State :=
  let org := s.orgOr
  let s := if s.origin.isNone then { s with freeCount := s.freeCount + 3 } else s
  let g := geodOf org ne
  let s := ((s.set64 (R.SK_STAKE 0) (vget g 0)).set64 (R.SK_STAKE 1) (vget g 1)).set64 (R.SK_STAKE 2) (wrap2Pi psi)
  let s := s.setFlag F.SK_STAT_STAKE_VALID true
  s.modSk fun k => { k with stake := ne, stakePsi := psi, stakeDue := true }

/-- STAKE_TRANSLATE: at the snap after a stake is set FP_ORG takes its position, and the estimator's N and E, the taut-wire
weights, the reference and the envelope points, those published among them, move by the offset of the new origin (R97). So does
the position published before, which the tracker compares with surveyed targets of the new origin (R83; log entry 201). -/
def State.stakeTranslate (s : State) : State :=
  if !s.sk.stakeDue then s
  else
    let org := s.orgOr
    let g := geodOf org s.sk.stake
    let ofs := (nedOf org g).take 2
    let mv (p : List Word64) : List Word64 := vsub p ofs
    let s := (s.setVec ((List.range 3).map R.FP_ORG) g).setFlag F.FP_STAT_ORG_VALID true
    let src := s
    let wires := streamIds.filterMap fun n => if src.styp n = 3 && (src.biasOf n).2 = 2 then some (src.biasOf n).1 else none
    let x := (s.est.x.zipIdx).map fun e =>
      if e.2 = 0 || wires.contains e.2 then fsub e.1 (vget ofs 0)
      else if e.2 = 1 || (e.2 ≠ 0 && wires.contains (e.2 - 1)) then fsub e.1 (vget ofs 1) else e.1
    let s := s.modEst fun e => { e with x := x, pubPrev := e.pubPrev.map mv }
    let env (i : Nat) : List Word64 := mv (s.vec [R.SK_OUT_ENV i, R.SK_OUT_ENV (i + 1)])
    let s := if s.flag F.SK_OUT_FL_ENV_VALID then s.setVec ((List.range 4).map R.SK_OUT_ENV) (env 0 ++ env 2) else s
    s.modSk fun k => { k with
      stake := mv k.stake, ref := mv k.ref, run := { k.run with dest := mv k.run.dest }, segFrom := mv k.segFrom,
      segTo := mv k.segTo, stakeDue := false }

/-! The reference model (R99). -/

/-- The limits VMAX, AMAX, RMAX, RAMAX. -/
def State.rmLim (s : State) : Word64 × Word64 × Word64 × Word64 :=
  (s.get64 R.SK_RM_VMAX, s.get64 R.SK_RM_AMAX, s.get64 R.SK_RM_RMAX, s.get64 R.SK_RM_RAMAX)

/-- One step of the profile's speed (R99): braking once the braking distance to the end speed is reached. -/
def profV (vm am dt l v vEnd : Word64) : Word64 :=
  let brake := fdiv (fsub (fmul v v) (fmul vEnd vEnd)) (fmul (k64 2 1) am)
  if fle l brake then fmax (fsub v (fmul am dt)) vEnd else fmin (fadd v (fmul am dt)) vm

/-- The unit vector and length between two points. -/
def lineTo (a b : List Word64) : List Word64 × Word64 :=
  let d := vsub b a
  let l := vnorm d
  (if feq l 0 then [0, 0] else vscale (fdiv one64 l) d, l)

/-- Start a run from the reference position to a target: the carried speed is the component of the present velocity
along the new line, below zero where it points away (R99). -/
def State.startRun (s : State) (dest : List Word64) : State :=
  let (dir, _) := lineTo s.sk.ref dest
  let vel := vscale s.sk.run.v s.sk.run.dir
  s.modSk fun k => { k with run := ⟨dir, fdot vel dir, dest, false, inf64, false⟩ }

/-- A run to a target begins with the velocity the reference has (R106 step 1): its first step carries the component along the line. -/
def State.aimRun (s : State) (dest : List Word64) : State :=
  s.modSk fun k => { k with run := { k.run with dest := dest, halt := false, vLeg := inf64, aim := true } }

/-- Begin a halt: the run brakes to rest, and the envelope ends at the rest point (R99, R107). -/
def State.beginHalt (s : State) : State :=
  if s.sk.run.halt then s
  else
    let (_, am, _, _) := s.rmLim
    s.modSk fun k =>
      let stop := vadd k.ref (vscale (fdiv (fmul k.run.v k.run.v) (fmul (k64 2 1) am)) k.run.dir)
      { k with run := { k.run with halt := true }, segTo := stop }

/-- The speed limit of the leg that ends at a waypoint: the lower of VMAX and its SPEED (R100). -/
def State.legSpeed (s : State) (w : Nat) : Word64 := fmin (s.get64 R.SK_RM_VMAX) (f32to64 (s.word (R.SK_WPT_SPEED w)))

/-- The speed limit of the present run: VMAX, on a leg the lower of it and the leg's SPEED (R99, R100). -/
def State.runMax (s : State) : Word64 := fmin (s.get64 R.SK_RM_VMAX) s.sk.run.vLeg

/-- The speed at the end of the present run: an inner waypoint is passed at the lower of the two adjacent limits (R100). -/
def State.runEnd (s : State) : Word64 :=
  if s.skMode = 4 && !s.sk.legLast then fmin s.runMax (s.legSpeed (s.get F.SK_STAT_WPT + 1)) else 0

/-- Step the reference position over dt: a halt brakes; else the profile runs, and arrival is exact (R99). -/
def State.stepPos (s : State) (dt : Word64) : State :=
  let (_, am, _, _) := s.rmLim
  let vm := s.runMax
  let ve := s.runEnd
  s.modSk fun k =>
    let r := k.run
    if r.halt then
      let v := fmax (fsub r.v (fmul am dt)) 0
      { k with ref := vadd k.ref (vscale (fmul v dt) r.dir), run := { r with v := v } }
    else
      let (dir, l) := lineTo k.ref r.dest
      let v0 := if r.aim then fdot (vscale r.v r.dir) dir else r.v
      let v := profV vm am dt l v0 ve
      let ds := fmul v dt
      if fle l ds then { k with ref := r.dest, run := { r with v := if flt v ve then v else ve, dir := dir, aim := false } }
      else { k with ref := vadd k.ref (vscale ds dir), run := { r with v := v, dir := dir, aim := false } }

/-- Step the reference heading over dt (R99): the shorter way round; a halt brakes the rate. -/
def State.stepPsi (s : State) (dt : Word64) (brake : Bool) : State :=
  let (_, _, rm, ra) := s.rmLim
  s.modSk fun k =>
    if brake then
      let m := fmax (fsub (fabs k.rr) (fmul ra dt)) 0
      let rr := if fsign k.rr then fneg m else m
      { k with psi := wrapPi (fadd k.psi (fmul rr dt)), rr := rr, psiTo := wrapPi (fadd k.psi (fmul rr dt)) }
    else
      let d := wrapPi (fsub k.psiTo k.psi)
      let v0 := if fsign d then fneg k.rr else k.rr
      let v := profV rm ra dt (fabs d) v0 0
      if fle (fabs d) (fmul v dt) then { k with psi := k.psiTo, rr := 0 }
      else
        let rr := if fsign d then fneg v else v
        { k with psi := wrapPi (fadd k.psi (fmul rr dt)), rr := rr }

/-- Is the reference at rest, at its target or after a halt? -/
def Sk.atRest (k : Sk) : Bool :=
  feq k.run.v 0 && feq k.rr 0 && (k.run.halt || (k.ref == k.run.dest && k.psi == k.psiTo))

/-! Paths (R100). -/

/-- The local position of a waypoint. -/
def State.wptNe (s : State) (w : Nat) : List Word64 :=
  let o := s.orgOr
  (nedOf o [s.get64 (R.SK_WPT w 0), s.get64 (R.SK_WPT w 1), vget o 2]).take 2

/-- The first waypoint marked LAST. -/
def State.lastWpt (s : State) : Option Nat := (List.range 32).find? fun w => s.flag (F.SK_WPT_LAST_LAST w)

/-- Begin the leg that ends at waypoint w (R100): the first one with the velocity of the entry (R106), a later one at the speed the
waypoint was passed with. -/
def State.beginLeg (s : State) (w : Nat) (pass : Bool) : State :=
  let dest := s.wptNe w
  let last := s.flag (F.SK_WPT_LAST_LAST w) || w == 31
  let frm := s.sk.ref
  let v := s.sk.run.v
  let hdg := f32to64 (s.word (R.SK_WPT_HDG w))
  let course := fatan2 (fsub (vget dest 1) (vget frm 1)) (fsub (vget dest 0) (vget frm 0))
  let lim := f32to64 (s.word (R.SK_WPT_SPEED w))
  let s := (if pass then s.startRun dest else s.aimRun dest).set F.SK_STAT_WPT w
  s.modSk fun k => { k with run := { k.run with v := if pass then v else k.run.v, vLeg := lim },
                            segFrom := frm, segTo := dest, legLast := last, psiTo := if fisNaN hdg then course else wrapPi hdg }

/-! Mode changes (R97, R98, R106). -/

/-- Publish a change of mode: PREV, source 163 and a loaf. -/
def State.setMode (s : State) (m : Nat) : State :=
  if s.skMode = m then s
  else
    let s := (s.set F.SK_STAT_PREV s.skMode).set F.SK_STAT_MODE m
    s.event 163 (s.word R.SK_STAT) .loaf

/-- Enter a mode, by request or by fall (R97, R106 step 1): the reference starts from the published estimate; the stake and
the targets follow the mode; BLEND work is left for the law. -/
def State.enterMode (s : State) (m : Nat) (keep : Bool) : State :=
  let pos := s.pubPos
  let psi := wrapPi s.pubPsi
  let vel := rot2 psi (s.pubNu.take 2)
  let sp := vnorm vel
  let dir := if feq sp 0 then [0, 0] else vscale (fdiv one64 sp) vel
  let s := s.setMode m
  let s := s.modSk fun k => { k with ref := pos, psi := psi, psiTo := psi, rr := 0, wv := [],
                                     run := ⟨dir, sp, pos, false, inf64, false⟩, psiIn := psi }
  let s := s.setFlag F.SK_STAT_MOVING false
  match m with
  | 4 => s.beginLeg 0 false
  | 3 => if keep then
      let s := (s.aimRun s.sk.stake).setFlag F.SK_STAT_MOVING true
      s.modSk fun k => { k with psiTo := k.stakePsi, segFrom := pos, segTo := k.stake }
    else s.setStake pos psi
  | 6 => if keep then
      let s := (s.aimRun s.sk.stake).setFlag F.SK_STAT_MOVING true
      s.modSk fun k => { k with psiTo := k.stakePsi, segFrom := pos, segTo := k.stake }
    else s.setStake pos psi
  | _ => s

/-- A fall (R98). -/
def State.fall (s : State) (m : Nat) : State :=
  let old := s.sk.psi
  let s := (s.setFlag F.SK_STAT_FALLBACK true).bump F.SK_CNT_FALLS
  if m = 3 then
    let had := s.flag F.SK_STAT_STAKE_VALID
    let k0 := s.sk
    let regs := [R.SK_STAKE 0, R.SK_STAKE 1, R.SK_STAKE 2].map s.get64
    -- the stake is not set here but when the reference comes to rest
    let s := s.enterMode 3 false
    let s := (s.setVec [R.SK_STAKE 0, R.SK_STAKE 1, R.SK_STAKE 2] regs).setFlag F.SK_STAT_STAKE_VALID had
    let s := s.modSk fun k => { k with stake := k0.stake, stakePsi := k0.stakePsi, stakeDue := k0.stakeDue, segFrom := k.ref }
    (s.beginHalt).setFlag F.SK_STAT_MOVING true
  else
    let s := s.enterMode m false
    if m = 2 then s.modSk fun k => { k with psiTo := old } else s

/-- Is the followed track one that serves (R101)? -/
def State.followOk (s : State) : Bool :=
  let j := s.get F.SK_FOLLOW_TRK
  s.tkConf j && s.flag (F.TK_ST_BOUND j) && s.flag (F.TGT_CFG_KIND (s.get (F.TK_ST_TGT j)))

/-- The falls of a release (R98): the worse step first. A move that runs, a KEEP entry's in WEATHERVANE too, is halted at Q2 (R99). -/
def State.falls (s : State) : State :=
  let q := s.get F.FE_OUT_Q_QUAL
  let m := s.skMode
  if 4 ≤ q && 2 ≤ m then s.fall 1
  else if q = 3 && 3 ≤ m then s.fall 2
  else if q = 2 && (m = 4 || m = 5) then s.fall 3
  else if m = 5 && !s.followOk then s.fall 3
  else if 2 ≤ q && (m = 3 || m = 6) && s.flag F.SK_STAT_MOVING then s.beginHalt
  else s

/-- The result of the checks of R96 on a request, in their order. -/
def State.skCheck (s : State) (r : SkReq) : Nat :=
  let m := r.mode
  let q := s.get F.FE_OUT_Q_QUAL
  let keepEntry := r.op == 1 && r.keep && (m == 3 || m == 6)
  let valid := s.flag F.SK_STAT_STAKE_VALID
  if r.op = 4 || (r.op = 1 && m ≤ 1) then 0
  else if !s.flag F.FE_OUT_Q_INIT then 6
  else if (r.op == 1 && !modeAt q m) || ((r.op == 2 || r.op == 3 || keepEntry) && decide (2 ≤ q)) then 1
  else if r.op == 1 && (List.range 3).any fun d => dofSource m d == 2 && !(finPos (s.gain d 0) && finPos (s.gain d 3)) then 2
  else if (keepEntry && !valid) || (r.op == 3 && (!valid || s.skMode != 3)) then 5
  else if r.op == 3 && !fle (vnorm [s.get64 (R.SK_TGT_D 0), s.get64 (R.SK_TGT_D 1)]) (fmin (k64 2000 1) (s.get64 R.SK_MOVE_MAX)) then 7
  else if r.op == 1 && m == 4 && (match s.lastWpt with | none => true | some w => w == 0) then 4
  else if r.op == 1 && m == 5 && !s.followOk then 3
  else 0

/-- A MOVE (R99): the target is the stake plus SK_TGT; a NaN heading keeps the stake heading. -/
def State.startMove (s : State) : State :=
  let dest := vadd s.sk.stake [s.get64 (R.SK_TGT_D 0), s.get64 (R.SK_TGT_D 1)]
  let hd := s.get64 R.SK_TGT_PSI
  let s := (s.startRun dest).setFlag F.SK_STAT_MOVING true
  s.modSk fun k => { k with psiTo := if fisNaN hd then k.stakePsi else wrapPi hd, segFrom := k.ref, segTo := dest }

/-- REQUEST_TAKE: take the pending request, check it, give RES, carry it out (R96); whether a mode was entered. -/
def State.skTake (s : State) : State × Bool :=
  match s.sk.req with
  | none => (s, false)
  | some r =>
    let res := s.skCheck r
    let s := (s.modSk fun k => { k with req := none, taken := if r.cp then some res else k.taken }).set F.SK_STAT_RES res
    if res ≠ 0 then (s.bump F.SK_CNT_REFUSED, false)
    else if r.op = 1 then (s.enterMode r.mode r.keep, true)
    else if r.op = 2 then (s.setStake s.pubPos (wrapPi s.pubPsi), false)
    else if r.op = 3 then (s.startMove, false)
    else (if s.flag F.SK_STAT_MOVING then s.beginHalt else s, false)

/-! Wind and environment (R102, R104). -/

/-- The share a first-order filter of time constant tau moves over dt: 1 - exp(-dt / tau) (log entry 26). -/
def lagShare (dt tau : Word64) : Word64 := fsub one64 (fexp (fneg (fdiv dt tau)))

/-- The relative wind at the CO: speed and angle, from the first usable stream of ID1 and ID2 (R104). -/
def State.relWind (s : State) : Option (Word64 × Word64) :=
  match [s.get F.SK_WIND_ID1, s.get F.SK_WIND_ID2].find? fun n => n != 0 && s.usableStream n && s.styp n == 8 with
  | none => none
  | some n =>
    let v := (s.projOf n).getD (s.latchedVals n)
    if feq (vget v 2) 0 then some (vget v 0, wrap2Pi (vget v 1))
    else
      let a := fsub (vget v 1) s.pubPsi
      let x := fadd (fmul (vget v 0) (fcos a)) (vget s.pubNu 0)
      let y := fadd (fmul (vget v 0) (fsin a)) (vget s.pubNu 1)
      some (vnorm [x, y], wrap2Pi (fatan2 y x))

/-- The coefficient of DOF d at an angle, interpolated in steps of 10° (R104). -/
def State.windCoef (s : State) (d : Nat) (g : Word64) : Word64 :=
  let x := fdiv (fmul g (k64 18 1)) pi64
  let k := ((ftoInt .down x) % 36).toNat
  let fr := fsub x (frnd .down x)
  let c (i : Nat) : Word64 := f32to64 (s.word (R.SK_WCOEF (36 * d + i % 36)))
  fadd (c k) (fmul (fsub (c (k + 1)) (c k)) fr)

/-- Step the wind filter (R104); without a usable stream the held value decays with the same time constant. -/
def State.stepWind (s : State) (dt : Word64) : State :=
  if !s.flag F.SK_WIND_WFF_EN then s
  else
    let a := lagShare dt (fdiv (fofNat (max 1 (s.get F.SK_WIND_TAU_DS))) (k64 10 1))
    match s.relWind with
    | none => (s.setFlag F.SK_STAT_WIND_NONE true).modSk fun k => { k with wind := k.wind.map fun w => fsub w (fmul a w) }
    | some (v, g) =>
      let c := (List.range 3).map fun d => fmul (fmul v v) (s.windCoef d g)
      (s.setFlag F.SK_STAT_WIND_NONE false).modSk fun k =>
        { k with wind := List.zipWith (fun w x => fadd w (fmul a (fsub x w))) k.wind c }

/-- wind_ff of the three DOFs (R104). -/
def State.windFf (s : State) : List Word64 :=
  if s.flag F.SK_WIND_WFF_EN then s.sk.wind.map fun w => fmul (fmul (k64 1 2) (k64 1225 1000)) w else [0, 0, 0]

/-- Weathervane's heading (R102): the direction the environment pushes from, smoothed; a new target outside the dead band. -/
def State.stepVane (s : State) (dt : Word64) : State :=
  let psi := s.pubPsi
  let w := rot2 psi (s.windFf.take 2)
  let f := vadd [s.get64 (R.FE_OUT_B 0), s.get64 (R.FE_OUT_B 1)] w
  let l := vnorm f
  if feq l 0 || fisNaN l then s
  else
    let u := vscale (fdiv one64 l) f
    let a := lagShare dt (fofNat (max 1 (s.get F.SK_WV_TAU_S)))
    let sm := match s.sk.wv with
      | [] => u
      | o => List.zipWith (fun x y => fadd x (fmul a (fsub y x))) o u
    let h := wrapPi (fadd (fatan2 (vget sm 1) (vget sm 0)) pi64)
    let dead := fdiv (fofNat (s.get F.SK_WV_DEAD_MRAD)) (k64 1000 1)
    s.modSk fun k => { k with wv := sm, psiTo := if flt dead (fabs (wrapPi (fsub h k.psiTo))) then h else k.psiTo }

/-! The step of the reference (R99 to R102). -/

/-- Follow-target's setpoint and heading target (R101). -/
def State.followTarget (s : State) : State :=
  let j := s.get F.SK_FOLLOW_TRK
  let r := (s.tkX j).take 2
  let dest := vadd (vadd s.pubPos r) [s.get64 (R.SK_FOL_D 0), s.get64 (R.SK_FOL_D 1)]
  let bow := s.flag F.SK_FOLLOW_HDG_MODE
  (s.startRun dest).modSk fun k => { k with psiTo := if bow then fatan2 (vget r 1) (vget r 0) else k.psiIn }

/-- A move or a halt that came to rest sets the stake and clears MOVING (R99). -/
def State.moveRest (s : State) : State :=
  if s.flag F.SK_STAT_MOVING && s.sk.atRest then
    let p := s.sk.ref
    let h := s.sk.psi
    let s := (s.setStake p h).setFlag F.SK_STAT_MOVING false
    s.modSk fun k => { k with run := { k.run with halt := false, dest := p }, psiTo := h }
  else s

/-- Step the reference model to this snap (R99 to R102). -/
def State.stepRef (s : State) (dt : Word64) : State :=
  match s.skMode with
  | 2 => (s.stepPsi dt false).modSk fun k => { k with ref := s.pubPos }
  | 3 =>
    let s := if s.flag F.SK_STAT_MOVING then s
      else (s.startRun s.sk.stake).modSk fun k => { k with psiTo := k.stakePsi }
    ((s.stepPos dt).stepPsi dt s.sk.run.halt).moveRest
  | 6 =>
    let s := if s.flag F.SK_STAT_MOVING then s else s.startRun s.sk.stake
    let s := s.stepVane dt
    ((s.stepPos dt).stepPsi dt s.sk.run.halt).moveRest
  | 4 =>
    let s := (s.stepPos dt).stepPsi dt false
    if s.sk.ref != s.sk.run.dest then s
    else if s.sk.legLast then
      let s := s.setMode 3
      s.setStake s.sk.ref s.sk.psiTo
    else s.beginLeg (s.get F.SK_STAT_WPT + 1) true
  | 5 => ((s.followTarget).stepPos dt).stepPsi dt false
  | _ => s

/-! The control law (R103) and the transfer (R106). -/

/-- Position error and velocity error of the three DOFs, in body axes. -/
def State.skErr (s : State) : List Word64 × List Word64 :=
  let psi := s.pubPsi
  let k := s.sk
  let e := rot2T psi (vsub s.pubPos k.ref) ++ [wrapPi (fsub psi k.psi)]
  let vr := rot2T psi (vscale k.run.v k.run.dir) ++ [k.rr]
  (e, vsub s.pubNu vr)

/-- bias_ff (R103). -/
def State.biasFf (s : State) : List Word64 :=
  if s.flag F.SK_CFG_BIAS_FF then
    rot2T s.pubPsi [s.get64 (R.FE_OUT_B 0), s.get64 (R.FE_OUT_B 1)] ++ [s.get64 (R.FE_OUT_B 2)]
  else [0, 0, 0]

/-- The nonlinear proportional term of DOF d (R103). -/
def State.pTerm (s : State) (d : Nat) (e : Word64) : Word64 :=
  fadd (fmul (s.gain d 0) e) (fmul (fmul (fmul (s.gain d 1) e) e) e)

/-- sign(a): -1, 0 or 1. -/
def fsgn (a : Word64) : Int := if flt a 0 then -1 else if flt 0 a then 1 else 0

/-- What the law of one automatic DOF gives: demand, integrator, saturation, and whether the clamp cut a preset integrator. -/
structure LawOut where
  tau : Word64
  integ : Word64
  sat : Bool
  cut : Bool
  deriving DecidableEq, Repr

/-- The law of one automatic DOF (R103); `preset` is τ_prev of a DOF that just changed to source A, whose integrator is set (R106). -/
def State.lawA (s : State) (d : Nat) (dt : Word64) (preset : Option Word64) : LawOut :=
  let (es, evs) := s.skErr
  let e := vget es d
  let p := s.pTerm d e
  let kdv := fmul (s.gain d 3) (vget evs d)
  let wf := vget s.windFf d
  let bf := vget s.biasFf d
  let i0 := vget s.sk.integ d
  let hold := s.sk.sat.getD d false || !feq (s.get64 (R.ALC_OUT_SF d)) 0
  let want := match preset with
    | some tp => fneg (fadd (fadd (fadd (fadd tp p) kdv) wf) bf)
    | none => fadd i0 (fmul (fmul (s.gain d 2) e) dt)
  let held := preset.isNone && hold && fsgn e == fsgn i0
  let i := if held then i0 else fclamp (s.gain d 4) want
  let tau := fsub (fsub (fneg (fadd (fadd p kdv) i)) wf) bf
  let tm := s.gain d 5
  ⟨fclamp tm tau, i, flt tm (fabs tau), preset.isSome && !feq i want⟩

/-- The demand of the five DOFs (R93, R95, R103, R105, R106) and the state the law leaves; `prev` is the mode before this
release. -/
def State.law (s : State) (dt : Word64) (prev : Nat) (entered : Bool) : State × List Word64 :=
  let m := s.skMode
  let was := (List.range 5).map fun d => s.get64 (R.SK_OUT_DEM d)
  let on (d : Nat) : Bool := s.get F.SK_CFG_DOF_EN / 2 ^ d % 2 == 1
  let r : List LawOut := (List.range 3).map fun d =>
    let src := dofSource m d
    if src = 2 then s.lawA d dt (if entered && dofSource prev d ≠ 2 then some (vget was d) else none)
    else ⟨if src = 1 then vget s.sk.joy d else 0, vget s.sk.integ d, false, false⟩
  let damp := [3, 4].map fun d =>
    if m = 0 || !on d then 0 else fclamp (s.gain d 5) (fneg (fmul (s.gain d 3) (vget s.est.att d)))
  let new := r.map (·.tau)
  let s := s.modSk fun k => { k with integ := r.map (·.integ), sat := r.map (·.sat) }
  -- step 4: a new blend at a mode change, of a DOF that changed to J or 0, was cut, or was being blended; STANDBY is at once
  let s :=
    if m = 0 then s.modSk fun k => { k with blend := none }
    else if entered then
      let old := match s.sk.blend with | some b => b.2.1 | none => []
      let bl := (List.range 3).map fun d =>
        let moved := dofSource prev d != dofSource m d && dofSource m d != 2
        (moved || (r.map (·.cut)).getD d false || old.getD d false) && !feq (vget new d) (vget was d)
      s.modSk fun k => { k with blend := if bl.any id then some (was.take 3, bl, 0) else none }
    else s
  let kTot := max 1 ((s.bumpNs + s.tDp - 1) / max 1 s.tDp)
  let out := match s.sk.blend with
    | none => new
    | some (tp, bl, k) =>
      let x := fofRat ((k + 1 : Nat) : Int) kTot
      (List.range 3).map fun d =>
        if bl.getD d false then fadd (fmul (vget tp d) (fsub one64 x)) (fmul (vget new d) x) else vget new d
  let s := s.setFlag F.SK_STAT_BLEND s.sk.blend.isSome
  let s := s.modSk fun q => { q with blend := match q.blend with
    | some (tp, bl, k) => if kTot ≤ k + 1 then none else some (tp, bl, k + 1)
    | none => none }
  (s, out ++ damp)

/-! The release (R93) and what it publishes (R107). -/

/-- The envelope segment (R107). -/
def State.envelope (s : State) : Option (List Word64) :=
  let m := s.skMode
  let k := s.sk
  if m = 4 then some (k.segFrom ++ k.segTo)
  else if m = 3 || m = 6 then
    some (if s.flag F.SK_STAT_MOVING then k.segFrom ++ k.segTo else k.stake ++ k.stake)
  else none

/-- Publish SK_OUT: CYC first, CYC2 last (R93). -/
def State.skPublish (s : State) (tau : List Word64) : State :=
  let m := s.skMode
  let s := s.setWord R.SK_OUT_CYC s.cycNum
  let env := s.envelope
  let s := ((s.set F.SK_OUT_FL_MODE m).set F.SK_OUT_FL_DOF_ON (s.get F.SK_CFG_DOF_EN)).setFlag F.SK_OUT_FL_ENV_VALID env.isSome
  let s := (s.setFlag F.SK_OUT_FL_AUTH_REQ (m != 0)).setFlag F.SK_OUT_FL_MOVING (s.flag F.SK_STAT_MOVING)
  let s := s.setVec ((List.range 5).map R.SK_OUT_DEM) tau
  let s := s.setVec ((List.range 3).map R.SK_OUT_REF) (s.sk.ref ++ [wrap2Pi s.sk.psi])
  let s := match env with
    | some e => s.setVec ((List.range 4).map R.SK_OUT_ENV) e
    | none => s
  s.setWord R.SK_OUT_CYC2 s.cycNum

/-- Does the DP core run (R93)? -/
def State.skRuns (s : State) : Bool := s.drives && decide (0 < s.cyc) && s.domOn 2

/-- DP_CORE_RELEASE (R93): falls, request, reference model, law, publication. -/
def State.skRelease (s : State) : State :=
  if !s.skRuns then s
  else
    let prev := s.skMode
    let dt := fofRat ((s.t0 - s.sk.lastRel : Nat) : Int) 1000000000
    let s := s.falls
    let fell := s.skMode != prev
    let (s, took) := s.skTake
    let entered := fell || took
    let s := if entered then s else s.stepRef dt
    let s := s.stepWind dt
    let s := s.joyDemand
    let (s, tau) := s.law dt prev entered
    let s := s.skPublish tau
    let t0 := s.t0
    s.modSk fun k => { k with lastRel := t0 }

end Sys2Proof.Machine
end

