-- ==== Sys2Proof/Machine/Pair.lean ====
section
/-!
DEFINITION. The partner pair: heartbeats and guy lines, the checkpoint, seizure, demotion, the pair's commands and the
GNSS refresh (11_partner_pair R179 to R196), and the layout of a command frame (15_networks R263).
-/
namespace Sys2Proof.Machine

/-- Change the pair's state. -/
def State.modHa (s : State) (f : Ha → Ha) : State := { s with ha := f s.ha }

/-- The pair logic runs: a MASTER with the NET domain on (R179). -/
def State.haOn (s : State) : Bool := s.isMaster && s.domOn 11

/-- PAIR_EN. -/
def State.pairEn (s : State) : Bool := s.haOn && s.flag F.HA_CFG_PAIR_EN

/-- Set bit i of HA_EVT; its setting raises source 8 + i and writes a loaf for SEIZED and DEMOTED, else a crumb. -/
def State.haEvt (s : State) (i : Nat) : State :=
  let f : Fld := ⟨R.HA_EVT, i, 1⟩
  if s.flag f then s
  else
    let s := s.setFlag f true
    s.event (8 + i) (s.word R.HA_STAT) (if i ≤ 1 then .loaf else .crumb)

/-- HA_TERM as a number. -/
def State.haTerm (s : State) : Nat := (s.word R.HA_TERM).toNat

/-- Take a term with its source. -/
def State.adopt (s : State) (t src : Nat) : State := (s.setWord R.HA_TERM (BitVec.ofNat 32 t)).set F.HA_TERMSRC_SRC src

/-- A higher term raised elsewhere is adopted (R187, R189, R193): TERM_UP. -/
def State.follow (s : State) (t src : Nat) : State := (s.adopt t src).haEvt 5

/-- Is the checkpoint held usable (R184)? -/
def State.ckUsable (s : State) : Bool :=
  match s.ha.ckHeld with
  | none => false
  | some (c, _) => decide ((s.cycNum - c.cyc).toNat ≤ max 1 (s.get F.HA_CFG_CKPT_MAXAGE))

/-- Show CKPT_VALID (R184). -/
def State.showCk (s : State) : State := s.setFlag F.HA_STAT_CKPT_VALID (s.isMaster && s.ckUsable)

/-- Both checkpoint buffers are invalidated. -/
def State.ckClear (s : State) : State := (s.modHa fun h => { h with ckHeld := none, ckRecv := none, ckSkip := none }).showCk

/-! GNSS in bivouac (R196). -/

/-- The unit keeps its GNSS domains off. -/
def State.gnSleeps (s : State) : Bool := s.haOn && s.haState == 0 && s.flag F.HA_CFG_GN_BIV

/-- Power the GNSS domains as the state demands; a sleep starts the refresh interval. -/
def State.gnPower (s : State) (was : Bool) : State :=
  if s.gnSleeps then
    if was then s
    else
      let now := s.now
      ((s.switchOff 9).switchOff 10).modHa fun h => { h with refreshing := false, refreshAt := now }
  else if was then ((s.switchOn 9).switchOn 10).modHa fun h => { h with refreshing := false }
  else s

/-- The next edge of the refresh schedule: on every REFRESH_MIN minutes of sleep, off after 60 s (R196). -/
def State.gnRefresh (s : State) : State :=
  let m := min 239 (s.get F.HA_CFG_REFRESH_MIN)
  if !s.gnSleeps then s
  else if s.ha.refreshing then
    let s := s.advanceTo (s.ha.refreshAt + 60000000000)
    ((s.switchOff 9).switchOff 10).modHa fun h => { h with refreshing := false }
  else if m = 0 then s
  else
    let t := s.ha.refreshAt + m * 60000000000
    let s := (s.advanceTo t).modHa fun h => { h with refreshing := true, refreshAt := t }
    (s.switchOn 9).switchOn 10

/-- GNSS_REFRESH: every REFRESH_MIN minutes of sleep the domains are powered (R196). -/
def execGnssRefresh (s : State) : Host.Outcome State Fault Refusal := s.ends (if s.ha.refreshing then s else s.gnRefresh)

/-- GNSS_REFRESH_END: after 60 s they power down again (R196). -/
def execGnssRefreshEnd (s : State) : Host.Outcome State Fault Refusal := s.ends (if s.ha.refreshing then s.gnRefresh else s)

/-! States. -/

/-- Enter a pair state: the GNSS domains, entitlement (R198) and, in BIVOUAC, the partner's term (R187) follow. -/
def State.haGo (s : State) (st : Nat) : State :=
  let was := s.gnSleeps
  let s := (s.set F.HA_STAT_STATE st).gnPower was
  let s := if st = 3 then s.haEvt 4 else s
  let s := if st = 0 then (match s.ha.pTerm with
      | some (t, src) => if s.haTerm < t.toNat then s.follow t.toNat src else s
      | none => s)
    else s
  (s.speGate).switches

/-! The heartbeat block and the frames of a checkpoint (R181, R266). -/

/-- One byte of CRC-8, polynomial 0x07. -/
def crc8Byte (c : BitVec 8) (b : Byte) : BitVec 8 :=
  (List.range 8).foldl (fun (x : BitVec 8) _ => if x.getMsbD 0 then (x <<< 1) ^^^ 7#8 else x <<< 1) (c ^^^ b)

/-- CRC-8 of bytes, initial value 0. -/
def crc8 (l : List Byte) : BitVec 8 := l.foldl crc8Byte 0

/-- The heartbeat block of this unit (R181). -/
def State.hbBlock (s : State) : List Byte :=
  let ckok := s.haState == 0 && s.ckUsable
  let w1 := s.nodeId % 2 + 2 * s.haState + 16 * (s.get F.HA_TERMSRC_SRC % 2) + (if ckok then 32 else 0)
  let b := leBytes 1 0xC5 ++ leBytes 1 w1 ++ [s.ha.seq] ++ leBytes 4 s.haTerm ++ leBytes 1 (s.word R.HA_CKCYC).toNat
  b ++ [crc8 b]

/-- Frames of a checkpoint, the data field of each at most 1498 bytes with its 24 bytes of header (R266). -/
def ckFrames (total : Nat) : Nat := (total + 1497) / 1498

/-- The ns a full checkpoint frame takes on P2. -/
def ckFrameNs : Nat := (1498 + 38) * 8

/-- The first 24 bytes of checkpoint frame k: the heartbeat block as the frame starts, TYPE 2, FRAG, NFRAG, CYC, TOTAL (R266). -/
def ckHead (block : List Byte) (c : CkSend) (k : Nat) : List Byte :=
  block ++ [2] ++ leBytes 2 k ++ leBytes 2 (ckFrames c.total) ++ [0, 0] ++ leBytes 4 c.cyc.toNat ++ leBytes 4 c.total

/-- The frames of the checkpoint that have started by an instant leave in FRAG order, back to back, each with its own heartbeat block
(R182, R266). -/
def State.ckEmit (s : State) (t : Nat) : State :=
  match s.ha.ckSend with
  | none => s
  | some c =>
    let n := if c.up && decide (c.start ≤ t) then min (ckFrames c.total) ((t - c.start) / ckFrameNs + 1) else 0
    let s := ((List.range n).drop c.sent).foldl (fun (u : State) k =>
      let size := min 1498 (c.total - 1498 * k)
      ((u.emit (.checkpoint (ckHead u.hbBlock c k) (size - 24) (if k + 1 = ckFrames c.total then some c.data else none))).pmu 74).modHa
        fun h => { h with seq := h.seq + 1 }) s
    s.modHa fun h => { h with ckSend := some { c with sent := max c.sent n } }

/-- A checkpoint in progress stops: the frame on the wire is the last (R26, R180, R193). -/
def State.ckStop (s : State) : State :=
  match s.ha.ckSend with
  | none => s
  | some c =>
    let s := s.ckEmit s.now
    let now := s.now
    let till := if c.up then min c.till (max now (c.start + ckFrameNs * ((now - c.start) / ckFrameNs + 1))) else now
    (s.modHa fun h => { h with ckSend := none }).modNet fun x => if c.up then { x with busy := padMod 0 2 (fun _ => till) x.busy } else x

/-- SEIZING, ACTIVE or ISOLATED. -/
def driving (st : Nat) : Bool := 1 ≤ st && st ≤ 3

/-- Demotion (R193): heartbeats, checkpoint, queued command frames, staged commands and internal jobs end. -/
def State.demote (s : State) (cause : Nat) : State :=
  if !(s.haOn && driving s.haState) then s
  else
    let s := (s.set F.HA_STAT_DEM_CAUSE cause).bump F.HA_CNT1_DEM_CNT
    let s := (s.ckStop.modHa fun h => { h with resume := false, ckAuth := false }).dropCmds
    let s := s.stopInternal
    let s := { s with cyc := 0, alc := { s.alc with staged := [], stagedOk := false, running := false, misses := 0 }
                      trk := { s.trk with asReady := false, toNn := false, rows := [], cols := [] } }
    let s := s.modEst fun e => { e with running := false, todo := [], timeUpd := false }
    (s.haGo 4).haEvt 1

/-- A term above a driving unit's own demotes it (R193). -/
def State.higherTerm (s : State) (t src : Nat) : State :=
  if s.haOn && driving s.haState && decide (s.haTerm < t) then (s.follow t src).demote 1 else s

/-! Heartbeats (R181 to R183). -/

/-- Does this unit send heartbeats? -/
def State.hbSends (s : State) : Bool := s.pairEn && decide (s.haState ≤ 3)

/-- Is P2 idle? -/
def State.p2Idle (s : State) : Bool := s.ha.ckSend.isNone && decide (s.net.busy.getD 2 0 ≤ s.now)

/-- HEARTBEAT_SEND: at the next multiple of 4 µs a heartbeat goes out on each guy line (R181, R182). -/
def execHeartbeatSend (s : State) : Host.Outcome State Fault Refusal :=
  s.ends (if s.hbSends then
      let s := s.advanceTo (nextMultiple s.now 4000)
      let b := s.hbBlock
      let s := s.emit (.heartbeat 0 b)
      let s := if s.netUp 2 && s.p2Idle then s.sendPlain 2 0 0x88B5 (b ++ [1] ++ List.replicate 36 0) else s
      s.modHa fun h => { h with seq := h.seq + 1 }
    else s)

/-- The start of the period now judged. -/
def State.perStart (s : State) : Nat :=
  match s.ha.perAt with
  | some a => if a ≤ s.now then a else s.now / 4000 * 4000
  | none => s.now / 4000 * 4000

/-- Is a received block a valid heartbeat of the partner (R181)? -/
def State.hbValid (s : State) (b : BitVec 72) : Bool :=
  let l := leBytes 8 b.toNat
  b.extractLsb' 0 8 == 0xC5#8 && b.extractLsb' 64 8 == crc8 l && b.getLsbD 8 == (s.nodeId == 0) && decide (s.nodeId ≤ 1)

/-- A valid heartbeat heard on a line from now until an instant (R180 to R183, R187, R193). -/
def State.heartbeat (s : State) (line : Nat) (b : BitVec 72) (until' : Nat) : State :=
  let st := (b.extractLsb' 9 3).toNat
  let t := (b.extractLsb' 24 32).toNat
  let src := (b.extractLsb' 12 1).toNat
  let now := s.now
  let per := s.perStart
  let s := s.modHa fun h => { h with
    lines := if s.pairEn then padMod ⟨[], false, 0, 0⟩ line (fun (l : Line) => { l with heard := l.heard ++ [(now, until')] }) h.lines else h.lines
    perAt := some per
    pDriveAt := if driving st then some now else h.pDriveAt
    lastHb := now
    pTerm := some (BitVec.ofNat 32 t, src) }
  let s := (s.set F.HA_STAT_PSTATE st).setFlag F.HA_STAT_PCKOK (b.getLsbD 13)
  if s.haState = 0 then (if s.haTerm < t then s.follow t src else s)
  else if driving s.haState then
    if s.haTerm < t then s.higherTerm t src
    else if t = s.haTerm && driving st && s.nodeId == 1 then s.demote 4
    else s
  else s

/-- HEARTBEAT_RECEIVE: a block arrives on a guy line, 0 HB_A or 1 HB_B (R181, R182). With PAIR_EN at 0 its term still counts
(R179, R193), and no line is judged (log entry 200). -/
def execHeartbeatReceive (line : Fin 2) (b : BitVec 72) (s : State) : Host.Outcome State Fault Refusal :=
  s.ends (
    let s := if line.val = 1 then s.frameIn 2 else s
    if s.haOn && (line.val == 0 || s.netUp 2) && s.hbValid b then s.heartbeat line.val b s.now else s)

/-- A line carries a heartbeat in the period from a (R183). -/
def Line.loud (l : Line) (a : Nat) : Bool := l.heard.any fun h => decide (h.1 < a + 4000 ∧ a ≤ h.2)

/-- RET_N. -/
def State.retN (s : State) : Nat := max 1 (s.get F.HA_CFG_RET_N)

/-- Would the end of the period lose, or return, a line? -/
def Line.loses (l : Line) (a : Nat) : Bool := l.live && !l.loud a && decide (l.silent = 2)
def Line.returns (l : Line) (a n : Nat) : Bool := !l.live && l.loud a && decide (n ≤ l.back + 1)

/-- A line at the end of the period from a (R183). -/
def Line.after (l : Line) (a n : Nat) : Line :=
  let heard := l.heard.filter fun h => decide (a + 4000 ≤ h.2)
  if l.loses a then ⟨heard, false, 3, 0⟩
  else if l.returns a n then ⟨heard, true, 0, 0⟩
  else if l.loud a then ⟨heard, l.live, 0, if l.live then 0 else l.back + 1⟩
  else ⟨heard, l.live, if l.live then l.silent + 1 else l.silent, 0⟩

/-- Line i. -/
def State.line (s : State) (i : Nat) : Line := s.ha.lines.getD i ⟨[], false, 0, 0⟩

/-- The registers and events of a line that was lost or returned; a return ends ISOLATED and SEIZE_BLK (R180, R183). -/
def State.lineShow (s : State) (i a n : Nat) (l : Line) : State :=
  let f := if i = 0 then F.HA_STAT_LINE_A else F.HA_STAT_LINE_B
  if l.loses a then
    ((s.setFlag f false).bump (if i = 0 then F.HA_CNT0_LOSS_A else F.HA_CNT0_LOSS_B)).haEvt 2
  else if l.returns a n then
    let s := ((s.setFlag f true).setFlag F.HA_STAT_SEIZE_BLK false).haEvt 3
    if s.haState = 3 then s.haGo 2 else s
  else s

/-- The common silent periods counted at the end of the period from a: a lost line counts as silent until it returns (R183). -/
def State.bothNext (s : State) (a : Nat) : Nat :=
  if (s.ha.lines.all fun l => (!l.live && !l.returns a s.retN) || !l.loud a) then s.ha.bothN + 1 else 0

/-! Command frames (R263). -/

/-- An entry of a command frame. -/
def cmdEntry (c : Cmd) : List Byte :=
  leBytes 1 c.idx ++ leBytes 1 c.kind ++ leBytes 2 0 ++ leBytes 4 c.v0.toNat ++ leBytes 4 c.v1.toNat ++ leBytes 4 c.v2.toNat

/-- A command frame's payload. -/
def cmdPayload (cyc : Word) (l : List Cmd) : List Byte :=
  leBytes 4 cyc.toNat ++ leBytes 1 l.length ++ leBytes 3 0 ++ (l.map cmdEntry).flatten

/-- The commands of a frame's payload. -/
def readCmds (b : List Byte) : List Cmd :=
  (List.range (min 24 (leNat ((b.drop 4).take 1)))).map fun j =>
    let f := fun o n => leNat ((b.drop (8 + 16 * j + o)).take n)
    ⟨0, f 0 1 % 32, f 1 1, BitVec.ofNat 32 (f 4 4), BitVec.ofNat 32 (f 8 4), BitVec.ofNat 32 (f 12 4)⟩

/-- The other nodes a list of commands names, in the order they first appear. -/
def cmdNodes (own : Nat) (l : List Cmd) : List Nat := ((l.map Cmd.node).eraseDups).filter (· != own)

/-- Send commands to every other node they name, one frame each (R144, R258). -/
def State.sendCmds (s : State) (cyc : Word) (flags : Nat) (l : List Cmd) (launch : Option Stamp) : State :=
  (cmdNodes s.nodeId l).foldl (fun t n => t.sendTwin zCMD flags n (cmdPayload cyc (l.filter fun c => c.node == n)) launch) s

/-! The checkpoint (R184, R185). -/

/-- The registers a checkpoint carries (R77, R92, R108, R185): the cycle's flags; quality, DR and published estimate; the
origin; FAILRUN and OKRUN; the track table and mode; station-keeping's status, stake and output; allocation's staged
forces, PREV_EXCL and latched records. -/
def ckptAddrs : List Nat :=
  [R.SYS_CYC_STAT, R.FE_EST_STAT, R.FE_DRSTAT] ++ wordsFrom R.FE_OUT_CYC 31 ++ wordsFrom (R.FP_ORG 0) 6
    ++ ((List.range 127).map fun n => R.FE_MN_CNT (n + 1))
    ++ [R.TRK_STAT] ++ ((List.range 64).map fun j => wordsFrom (R.TK_ST j) 19).flatten
    ++ [R.SK_STAT] ++ wordsFrom (R.SK_STAKE 0) 6 ++ wordsFrom R.SK_OUT_CYC 27
    ++ ((List.range 48).map fun k => R.ALC_SLOT_ST k :: wordsFrom (R.ALC_SLOT_U k 0) 6 ++ wordsFrom (R.ALC_LREC k 0) 64).flatten

/-- The instance areas and I/O images of tasks with CKPT at 1 (R292), as (address in the active area, length). -/
def State.ckptRanges (s : State) : List (Nat × Nat) :=
  let i := 0x1000000 + 0x200000 * s.be.area
  let m := 0x1400000 + 0x80000 * s.be.area
  ((s.be.set.tasks.zipIdx.filter fun t => s.flag (F.BE_TCFG_CKPT t.2)).map fun t =>
    [(i + t.1.inst.1, t.1.inst.2), (m + t.1.inp.1, t.1.inp.2), (m + t.1.outp.1, t.1.outp.2)]).flatten

/-- Does an address lie in one of some ranges? -/
def inRanges (l : List (Nat × Nat)) (a : Nat) : Bool := l.any fun r => decide (r.1 ≤ a) && decide (a < r.1 + r.2)

/-- An address of the active area as an address of area 0, and back: two partners need not have the same area active. -/
def State.areaOff (s : State) (a : Nat) : Nat := if a < 0x1400000 then 0x200000 * s.be.area else 0x80000 * s.be.area

/-- The checkpoint of the present cycle (R185). -/
def State.ckptNow (s : State) : Ckpt :=
  { cyc := s.cycNum, term := s.word R.HA_TERM, src := s.get F.HA_TERMSRC_SRC
    regs := ckptAddrs.map fun a => (a, s.word a)
    est := ⟨s.est.x, s.est.p, s.est.inited, s.est.settled, s.est.drAt, s.est.lastSnap, s.est.upCnt, s.est.cond, s.flag F.FP_STAT_ORG_VALID, s.est.org⟩
    rejected := streamIds.filter fun n => (s.stream n).rejected
    weights := streamIds.filterMap fun n => (s.stream n).weight.map fun w => (n, w.1, w.2)
    trks := s.trk.tracks, lastPass := s.trk.lastPass, sk := s.sk, theta := s.alc.theta, records := s.alc.records
    env := s.alc.envSnap, envAt := s.alc.envAt, cmds := s.alc.sent, auth := s.alc.prevAuth, rep := s.alc.rep
    image := (s.mem.filter fun c => inRanges s.ckptRanges c.1).map fun c => (c.1 - s.areaOff c.1, c.2) }

/-- Load a checkpoint into every unit (R188, step 3). -/
def State.ckptLoad (s : State) (c : Ckpt) : State :=
  let s := (c.regs.filter fun e => ckptAddrs.contains e.1).foldl (fun t e => t.setWord e.1 e.2) s
  let e := c.est
  let s := s.modEst fun x => { x with x := e.x, p := e.p, inited := e.inited, settled := e.settled, drAt := e.drAt,
                                      lastSnap := e.lastSnap, upCnt := e.upCnt, cond := e.cond, org := e.org, running := false,
                                      todo := [], timeUpd := false }
  let s := s.setFlag F.FP_STAT_ORG_VALID e.orgValid
  let s := streamIds.foldl (fun t n => t.modStream n fun y => { y with
    rejected := c.rejected.contains n
    weight := (c.weights.find? fun w => w.1 == n).map fun w => w.2 }) s
  let s := { s with trk := { s.trk with tracks := c.trks, lastPass := c.lastPass, asReady := false, toNn := false, rows := [], cols := [] }, sk := { c.sk with req := none, taken := none } }
  let held := s.alc.records
  let old := c.records.filter fun r => !held.any fun q => q.node == r.node && q.kind == r.kind
  let s := { s with alc := { s.alc with
    theta := c.theta, records := held ++ old, envSnap := c.env, envAt := c.envAt, previous := c.cmds, prevAuth := c.auth } }
  let rs := s.ckptRanges
  let s := { s with mem := keepMem (fun a => !inRanges rs a) s.mem }
  c.image.foldl (fun t x =>
    let a := x.1 + t.areaOff x.1
    if inRanges rs a then t.setByte a x.2 else t) s

/-- CHECKPOINT_SEND: at PH_CKPT an ACTIVE unit with a partner starts its checkpoint on P2 (R26, R184). Its size follows
from a layout the spec does not give: a free value in 1 to 262,144 (log entry 30). -/
def execCheckpointSend (s : State) : Host.Outcome State Fault Refusal :=
  s.ends (if s.pairEn && decide (0 < s.cyc) && s.haState == 2 && s.ha.ckSend.isNone then
      let s := s.advanceTo s.atCkpt
      let total := s.free.toNat % 262144 + 1
      let s := s.drawn
      let start := s.portFree 2
      let up := s.netUp 2
      let till := if up then start + (total + 38 * ckFrames total) * 8 else 2 ^ 64
      let c : CkSend := ⟨s.cycNum, total, start, till, 0, up, s.ckptNow⟩
      let s := if up then s.modNet fun x => { x with busy := padMod 0 2 (fun _ => till) x.busy } else s
      let s := s.modHa fun h => { h with ckSend := some c }
      s.ckEmit s.now
    else s)

/-- The checkpoint sent is complete (R184). -/
def State.ckSent (s : State) (c : CkSend) : State :=
  let s := (s.advanceTo c.till).ckEmit c.till
  (s.setWord R.HA_CKCYC c.cyc).set F.HA_CKSIZE_BYTES c.total |>.modHa fun h => { h with ckSend := none }

/-- CHECKPOINT_SEND_COMPLETE: the last frame of the checkpoint has left (R184). -/
def execCheckpointSendComplete (s : State) : Host.Outcome State Fault Refusal :=
  s.ends (match s.ha.ckSend with
    | some c => if c.up then s.ckSent c else s
    | none => s)

/-- At a tick a checkpoint not complete is abandoned (R26). -/
def State.ckAbandon (s : State) : State :=
  match s.ha.ckSend with
  | none => s
  | some c =>
    if c.till ≤ s.now then s.ckSent c
    else
      let s := s.ckStop.bump F.SYS_CYC_CNT_CKPT_FAIL_CNT
      if s.flag F.SYS_CYC_STAT_CKPT_FAIL then s
      else (s.setFlag F.SYS_CYC_STAT_CKPT_FAIL true).event 20 s.cycNum .crumb

/-- A checkpoint under reception is discarded; its further frames are passed over (R184). -/
def State.ckBad (s : State) (cyc : Word) : State :=
  (s.modHa fun h => { h with ckRecv := none, ckSkip := some cyc }).bump F.HA_CNT0_CKPT_BAD

/-- The checkpoint received is complete: with its CRC it becomes the one held (R184, R187). -/
def State.ckComplete (s : State) (crc : Bool) (total : Nat) (data : Ckpt) : State :=
  if !crc then s.ckBad data.cyc
  else
    let s := s.modHa fun h => { h with ckHeld := some (data, total), ckRecv := none, ckSkip := none }
    let s := (s.setWord R.HA_CKCYC data.cyc).set F.HA_CKSIZE_BYTES total
    let s := if s.haTerm < data.term.toNat then s.follow data.term.toNat data.src else s
    s.showCk

/-- A frame of checkpoint `cyc`, its `frag`th where frame `want` is due (R184). -/
def State.ckFrame (s : State) (want frag nfrag : Nat) (cyc : Word) (total : Nat) (cut crc : Bool) (data : Ckpt) : State :=
  if cut || frag ≠ want then s.ckBad cyc
  else if frag + 1 < nfrag then s.modHa fun h => { h with ckRecv := some (cyc, frag + 1) }
  else s.ckComplete crc total { data with cyc := cyc }

/-- CHECKPOINT_FRAME_RECEIVE: a checkpoint frame on P2 with its heartbeat block, which keeps HB_B live for the ns the frame
takes (R182), its index and number of frames, the checkpoint's cycle and size, whether the frame was cut short, whether the
CRC over the whole checkpoint passes (R184), and the content (log entry 30). A frame of a newer cycle discards an incomplete older
checkpoint; one of an older cycle is passed over. -/
def execCheckpointFrameReceive (hb : BitVec 72) (frag nfrag : Nat) (cyc : Word) (total ns : Nat) (cut crc : Bool)
    (data : Ckpt) (s : State) : Host.Outcome State Fault Refusal :=
  s.ends (
    let s := s.frameIn 2
    if !(s.haOn && s.netUp 2) then s
    else
      let s := if s.hbValid hb then s.heartbeat 1 hb (s.now + ns) else s
      if !s.pairEn || s.haState ≠ 0 || s.ha.ckSkip = some cyc then s
      else match s.ha.ckRecv with
        | none => s.ckFrame 0 frag nfrag cyc total cut crc data
        | some (c, k) =>
          if c = cyc then s.ckFrame k frag nfrag cyc total cut crc data
          else if (cyc - c).toInt > 0 then (s.ckBad c).ckFrame 0 frag nfrag cyc total cut crc data
          else s)

/-! Seizure (R187, R188). -/

/-- The seizure sequence at t_d: term, TERM frame, checkpoint, command frames, GNSS power (R188). -/
def State.seize (s : State) : State :=
  let ck := if s.ckUsable then s.ha.ckHeld.map (·.1) else none
  let now := s.now
  let s := (s.adopt (s.haTerm + 1) s.nodeId).setFlag F.HA_STAT_SEIZE_BLK false
  let s := ((s.setWord R.HA_TDL (BitVec.ofNat 32 now)).setWord R.HA_LHBL (BitVec.ofNat 32 s.ha.lastHb)).modHa fun h =>
    { h with tdAt := now, tdHi := BitVec.ofNat 16 (now / 2 ^ 32), lhbHi := BitVec.ofNat 16 (h.lastHb / 2 ^ 32), resume := true }
  let s := (s.bump F.HA_CNT0_SEIZE_CNT).sendTwin zTERM 0 0x3FF [] none
  let s := match ck with
    | some c =>
      let s := s.ckptLoad c
      let auth := s.flag F.SK_OUT_FL_AUTH_REQ
      let s := s.modHa fun h => { h with ckAuth := auth }
      s.sendCmds c.cyc (4 + (if c.auth then 8 else 0) + (if c.rep then 2 else 0)) c.cmds none
    | none =>
      let s := s.estReset
      (s.set F.SK_STAT_MODE 0).modHa fun h => { h with ckAuth := false }
  (s.haGo 1).haEvt 0

/-- SEIZE_BLK is shown (R180, R187). -/
def State.seizeBlocked (s : State) : State :=
  if s.flag F.HA_STAT_SEIZE_BLK then s else (s.setFlag F.HA_STAT_SEIZE_BLK true).haEvt 7

/-- Both lines have been silent for three common periods (R180). -/
def State.bothSilent (s : State) : State :=
  match s.haState with
  | 0 => if s.ckUsable && decide (s.haTerm < 0xFFFFFFFF) then s.seize else s.seizeBlocked
  | 2 => s.ckStop.haGo 3
  | _ => s

/-- The end of a period: each line is judged, then the condition on both (R180, R183). -/
def State.periodEnd (s : State) : State :=
  let a := s.perStart
  let s := s.advanceTo (a + 4000)
  let n := s.retN
  let ls := s.ha.lines
  let both := s.bothNext a
  let s := s.modHa fun h => { h with lines := ls.map fun l => l.after a n, bothN := both, perAt := some (a + 4000) }
  let s := (s.lineShow 0 a n (ls.getD 0 ⟨[], false, 0, 0⟩)).lineShow 1 a n (ls.getD 1 ⟨[], false, 0, 0⟩)
  if 3 ≤ both then s.bothSilent else s

/-- HEARTBEAT_PERIOD_END: the end of the present 4 µs period (R183). -/
def execHeartbeatPeriodEnd (s : State) : Host.Outcome State Fault Refusal := s.ends (if s.pairEn then s.periodEnd else s)

/-- LINE_LOST: the period end that loses a line (R183). -/
def execLineLost (line : Fin 2) (s : State) : Host.Outcome State Fault Refusal :=
  s.ends (if s.pairEn && (s.line line.val).loses s.perStart then s.periodEnd else s)

/-- LINE_RETURN: the period end that returns a line (R183). -/
def execLineReturn (line : Fin 2) (s : State) : Host.Outcome State Fault Refusal :=
  s.ends (if s.pairEn && (s.line line.val).returns s.perStart s.retN then s.periodEnd else s)

/-- BOTH_LINES_SILENT: the period end that completes three common silent periods (R180). -/
def execBothLinesSilent (s : State) : Host.Outcome State Fault Refusal :=
  s.ends (if s.pairEn && s.bothNext s.perStart == 3 then s.periodEnd else s)

/-- The state a seizing unit enters at its first tick at or after t_d + 50 µs (R180, R194). -/
def State.endSeizing (s : State) : State :=
  if s.haState = 1 && decide (s.ha.tdAt + 50000 ≤ s.now) then
    (s.haGo (if s.flag F.HA_STAT_LINE_A || s.flag F.HA_STAT_LINE_B then 2 else 3)).modHa fun h => { h with ckAuth := false }
  else s

/-! Commands (R195) and configuration (R179). -/

/-- The answer to a command in CRES (R195). -/
def State.cres (s : State) (ok : Bool) : State := s.set F.HA_STAT_CRES (if ok then 0 else 1)

/-- A valid heartbeat of the last three periods shows a driving partner (R195). -/
def State.drivingHeard (s : State) : Bool :=
  match s.ha.pDriveAt with
  | some t => decide (s.now / 4000 ≤ t / 4000 + 3)
  | none => false

/-- A keyed write of HA_CTRL (R195). -/
def haCtrlWrite (s : State) (d : Dom) (v : Word) : State × CpSt :=
  s.writeGuard d R.HA_CTRL fun s => s.keyGuard v fun s =>
    let go := v.getLsbD 0
    let rj := v.getLsbD 1
    let dm := v.getLsbD 2
    if !go && !rj && !dm then (s, .ok)
    else if !s.isMaster then (s, .notNow)
    else if (go && rj) || (go && dm) || (rj && dm) then (s.cres false, .notNow)
    else if go then
      let top := decide (s.haTerm = 0xFFFFFFFF)
      if s.haState == 0 && s.run && !top && !s.drivingHeard then ((s.cres true).seize, .ok)
      else ((if top then s.seizeBlocked else s).cres false, .notNow)
    else if rj then
      if s.haState = 4 then
        (((s.cres true).ckClear).haGo (if s.flag F.HA_CFG_PAIR_EN then 0 else 3), .ok)
      else (s.cres false, .notNow)
    else if s.haState == 2 && s.get F.HA_STAT_PSTATE == 0 && s.flag F.HA_STAT_PCKOK then ((s.cres true).demote 3, .ok)
    else (s.cres false, .notNow)

/-- HA_CTRL_GO_ACTIVE. -/
def execHaCtrlGoActive (d : Dom) (key : BitVec 16) (s : State) : Host.Outcome State Fault Refusal :=
  s.ends (haCtrlWrite s d (keyed 1 key)).1

/-- HA_CTRL_REJOIN. -/
def execHaCtrlRejoin (d : Dom) (key : BitVec 16) (s : State) : Host.Outcome State Fault Refusal :=
  s.ends (haCtrlWrite s d (keyed 2 key)).1

/-- HA_CTRL_DEMOTE. -/
def execHaCtrlDemote (d : Dom) (key : BitVec 16) (s : State) : Host.Outcome State Fault Refusal :=
  s.ends (haCtrlWrite s d (keyed 4 key)).1

/-- The lines are judged from the present period on (R179, R183). -/
def State.linesFrom (s : State) : State :=
  let per := s.now / 4000 * 4000
  s.modHa fun h => { h with perAt := some per, bothN := 0,
                            lines := h.lines.map fun l => { l with heard := [], silent := if l.live then 0 else l.silent, back := 0 } }

/-- A write of HA_CFG: PAIR_EN changes only while RUN is 0, and takes effect at once; on a HEAD or NODE the fields read
their reset values (R179). -/
def haCfgWrite (s : State) (d : Dom) (v : Word) : State × CpSt :=
  s.writeGuard d R.HA_CFG fun s =>
    if !s.isMaster then (s, .ok)
    else
      let was := s.gnSleeps
      let old := s.flag F.HA_CFG_PAIR_EN
      let new := v.getLsbD 0
      let (s, st) := s.plainWrite d R.HA_CFG (if old != new && s.run then v ^^^ 1#32 else v)
      let s := s.gnPower was
      if old = new then (s, st)
      else if s.run then (s, .notNow)
      else if new then ((s.ckClear.linesFrom).haGo 0, st)
      else if s.haState = 4 then (s, st)
      else (s.ckStop.haGo 3, st)

/-- PAIR_EN_WRITE (R179). -/
def execPairEnWrite (d : Dom) (en : Bool) (s : State) : Host.Outcome State Fault Refusal :=
  s.ends (haCfgWrite s d ((F.HA_CFG_PAIR_EN).into (if en then 1 else 0) (s.word R.HA_CFG))).1

/-- HA_TDL_READ: the low word of t_d; its high half is latched. -/
def execHaTdlRead (s : State) : Host.Outcome State Fault Refusal :=
  s.ends (s.inDomain 11 fun s => s.set F.HA_TDH_TD_HI s.ha.tdHi.toNat)

/-- HA_LHBL_READ: the low word of the last heartbeat; its high half is latched. -/
def execHaLhblRead (s : State) : Host.Outcome State Fault Refusal :=
  s.ends (s.inDomain 11 fun s => s.set F.HA_LHBH_LHB_HI s.ha.lhbHi.toNat)

end Sys2Proof.Machine
end

