-- ==== Sys2Proof/Machine/Block.lean ====
section
/-!
DEFINITION. The block runtime's registers (17_block_runtime): tasks on and off, their engines, the forces (R287, R288, R298,
R299). Releases, copies and the online change are in Runtime.lean, the instructions in Code.lean and Library.lean.
-/
namespace Sys2Proof.Machine

/-- Change the block runtime's state. -/
def State.modBe (s : State) (f : Be → Be) : State := { s with be := f s.be }

/-- A task's hidden state. -/
def State.task (s : State) (n : Nat) : Task := s.be.tasks.getD n .init

/-- Change a task's hidden state. -/
def State.modTask (s : State) (n : Nat) (f : Task → Task) : State := s.modBe fun b => { b with tasks := padMod .init n f b.tasks }

/-- A task's definition in the active set. -/
def State.taskDef (s : State) (n : Nat) : TaskDef := s.be.set.tasks.getD n taskDefNone

/-- The start of the active instance area, and of the active I/O image area (R284). -/
def State.instBase (s : State) : Nat := 0x1000000 + 0x200000 * s.be.area
def State.imgBase (s : State) : Nat := 0x1400000 + 0x80000 * s.be.area

/-- The state of a task (BE_TSTAT). -/
def tOff : Nat := 0
def tIdle : Nat := 1
def tCopyIn : Nat := 2
def tReady : Nat := 3
def tRunning : Nat := 4
def tCopyOut : Nat := 5
def tFault : Nat := 6

def State.tState (s : State) (n : Nat) : Nat := s.get (F.BE_TSTAT_STATE n)
def State.setTState (s : State) (n v : Nat) : State := s.set (F.BE_TSTAT_STATE n) v

/-- The register of an engine: BE0 to BE3 and BE4 to BE7 lie in different domains. -/
def engTask (e : Nat) : Fld := ⟨0x40180010 + 4 * e, 0, 5⟩
def engHalf (e : Nat) : Fld := ⟨0x40180010 + 4 * e, 16, 1⟩

/-- The task running on an engine. -/
def State.running (s : State) (e : Nat) : Option Nat :=
  let t := s.get (engTask e)
  if t < 16 then some t else none

/-- The active half of an engine's code SRAM (R284). -/
def State.codeBase (s : State) (e : Nat) : Nat := 0x1600000 + 0x40000 * e + 0x20000 * s.get (engHalf e)

/-- An engine starts or stops running; intervals older than 100 ms are forgotten (BE_ENGe.LOAD). -/
def State.markRun (s : State) (e : Nat) (on : Bool) : State :=
  let now := s.now
  s.modBe fun b =>
    match b.since.getD e none, on with
    | none, true => { b with since := padMod none e (fun _ => some now) b.since }
    | some t, false =>
      { b with since := padMod none e (fun _ => none) b.since,
               runs := (b.runs.filter fun r => decide (now ≤ r.2.2 + 100000000)) ++ [(e, t, now)] }
    | _, _ => b

/-- The BE bits of PWR_STAT.DOZE: an engine dozes while BE_CTRL.EN is 0 or no task with EN 1 names it (R359). -/
def State.showBeDoze (s : State) : State :=
  (List.range 8).foldl (fun t e =>
    let doze := !t.flag F.BE_CTRL_EN || !(List.range 16).any fun n => t.flag (F.BE_TCFG_EN n) && t.get (F.BE_TCFG_ENG n) == e
    t.setDoze (e + 2) doze) s

/-- A write of BE_CTRL (R287). -/
def beCtrlWrite (s : State) (d : Dom) (v : Word) : State × CpSt :=
  let r := s.plainWrite d R.BE_CTRL v
  (r.1.showBeDoze, r.2)

/-- EN goes from 0 to 1: FAULT and the sticky bits clear, and releases start (R286, R289, R303). -/
def State.taskOn (s : State) (n : Nat) : State :=
  let s := if s.tState n = tOff || s.tState n = tFault then (s.setTState n tIdle).set (F.BE_TSTAT_TRAP n) 0 else s
  s.modTask n fun t => { t with ctx := { t.ctx with sat := false, inv := false }, first := true, last := [], handled := none }

/-- EN goes from 1 to 0: an idle task is off; a run in progress goes on to its end (log entry 40). -/
def State.taskOff (s : State) (n : Nat) : State := if s.tState n = tIdle then s.setTState n tOff else s

/-- A write of BE_TCFG: on a MASTER tasks 14 and 15 take none, and only EN is written while EN is 1. -/
def tcfgWrite (s : State) (d : Dom) (n : Nat) (v : Word) : State × CpSt :=
  s.writeGuard d (R.BE_TCFG n) fun s =>
    if s.isMaster && decide (14 ≤ n) then (s, .notNow)
    else
      let old := s.word (R.BE_TCFG n)
      let rw : Word := 0xFFFF0FF7
      if old.getLsbD 0 then
        let st : CpSt := if (old ^^^ v) &&& rw &&& 0xFFFFFFFE = 0 then .ok else .notNow
        if v.getLsbD 0 then (s, st) else (((s.setFlag (F.BE_TCFG_EN n) false).taskOff n).showBeDoze, st)
      else
        let s := s.setWord (R.BE_TCFG n) ((old &&& ~~~ rw) ||| (v &&& rw))
        ((if v.getLsbD 0 then s.taskOn n else s).showBeDoze, .ok)

/-- TASK_ENABLE: a write of 1 to BE_TCFG.EN (R286, R287). -/
def execTaskEnable (d : Dom) (n : Fin 16) (s : State) : Host.Outcome State Fault Refusal :=
  s.ends (tcfgWrite s d n.val (s.word (R.BE_TCFG n.val) ||| 1)).1

/-- A write of BE_TPH: discarded while EN is 1, and for tasks 14 and 15 on a MASTER. -/
def tphWrite (s : State) (d : Dom) (n : Nat) (v : Word) : State × CpSt :=
  s.writeGuard d (R.BE_TPH n) fun s =>
    if s.flag (F.BE_TCFG_EN n) || (s.isMaster && decide (14 ≤ n)) then (s, .notNow)
    else s.plainWrite d (R.BE_TPH n) v

/-- A read of BE_TRELL latches the high bits of the release stamp. -/
def State.trellRead (s : State) (n : Nat) : State := s.set (F.BE_TRELH_REL_HI n) ((s.task n).stamp.toNat / 2 ^ 32)

/-- BE_TRELL_READ. -/
def execBeTrellRead (n : Fin 16) (s : State) : Host.Outcome State Fault Refusal := 
  s.ends (s.inDomain 2 fun s => s.trellRead n.val)

/-! Forcing (R298, R299). -/

/-- The address of a force's variable in the active area. -/
def State.forceAddr (s : State) (f : Force) : Nat := (if f.area then s.imgBase else s.instBase) + f.addr

/-- The byte a force puts at an address, if one stands there. -/
def State.forcedByte (s : State) (a : Nat) : Option Byte :=
  match s.be.forces.find? fun f => decide (s.forceAddr f ≤ a) && decide (a < s.forceAddr f + 2 ^ f.size) with
  | none => none
  | some f => some (BitVec.ofNat 8 (f.val.toNat / 256 ^ (a - s.forceAddr f)))

/-- n bytes as a load or an output copy sees them: forced bytes have the forced value (R298). -/
def State.beBytes (s : State) (a n : Nat) : List Byte := (List.range n).map fun i => (s.forcedByte (a + i)).getD (s.byte (a + i))

/-- Store bytes as a program or an input copy does: a forced byte keeps the forced value (R298). -/
def State.beStore (s : State) (a : Nat) (l : List Byte) : State :=
  l.zipIdx.foldl (fun t b => t.setByte (a + b.2) ((t.forcedByte (a + b.2)).getD b.1)) s

/-- Write a force's value into its variable: it holds there, and stays when the force is cleared (R298). -/
def State.applyForce (s : State) (f : Force) : State := s.storeBytes (s.forceAddr f) (leBytes (2 ^ f.size) f.val.toNat)

/-- Show a force in its entry of the table. -/
def State.showForce (s : State) (f : Force) : State :=
  let s := s.setWord (R.BE_FE_ID f.slot) f.ident
  let s := s.setWord (R.BE_FE_AD f.slot) (BitVec.ofNat 32 (1 + (if f.area then 2 else 0) + 4 * f.size + 256 * f.addr))
  (s.setWord (R.BE_FE_VL f.slot) (f.val.truncate 32)).setWord (R.BE_FE_VH f.slot) ((f.val >>> 32).truncate 32)

/-- Clear an entry of the table. -/
def State.hideForce (s : State) (k : Nat) : State :=
  (wordsFrom (R.BE_FE_ID k) 4).foldl (fun t a => t.setWord a 0) s

/-- RES and NFORCE. -/
def State.forceRes (s : State) (r : Nat) : State := (s.set F.BE_FRES_RES r).set F.BE_FRES_NFORCE s.be.forces.length

/-- The lowest free entry of the force table (log entry 41). -/
def freeSlot (l : List Force) : Nat := ((List.range 256).find? fun k => !l.any fun f => f.slot == k).getD 0

/-- SET: force a variable, or refuse (R299). -/
def State.forceSet (s : State) (id : Word) (v : Word64) : State × CpSt :=
  match s.be.set.syms.find? fun y => y.ident == id with
  | none => (s.forceRes 1, .badParam)
  | some y =>
    let old := s.be.forces.find? fun f => f.ident == id
    if old.isNone && decide (256 ≤ s.be.forces.length) then (s.forceRes 2, .badParam)
    else if y.safe then (s.forceRes 3, .safetyRefused)
    else
      let f : Force := ⟨match old with
        | some o => o.slot
        | none => freeSlot s.be.forces, id, y.area, y.size.val, y.cls, y.addr.toNat, v⟩
      let s := s.modBe fun b => { b with forces := b.forces.filter (fun q => q.ident != id) ++ [f] }
      (((s.applyForce f).showForce f).forceRes 0, .ok)

/-- Remove a force; its variable keeps the value. -/
def State.forceDrop (s : State) (f : Force) : State :=
  (s.modBe fun b => { b with forces := b.forces.filter fun q => q.ident != f.ident }).hideForce f.slot

/-- CLEAR: remove the force of a variable, or refuse (R299). -/
def State.forceClear (s : State) (id : Word) : State × CpSt :=
  match s.be.forces.find? fun f => f.ident == id with
  | none => (s.forceRes 1, .badParam)
  | some f => (((s.applyForce f).forceDrop f).forceRes 0, .ok)

/-- CLEAR_ALL. -/
def State.forceClearAll (s : State) : State × CpSt :=
  ((s.be.forces.foldl (fun t f => (t.applyForce f).forceDrop f) s).forceRes 0, .ok)

/-- A force request: one of three operations, a symbol ID, a value (R298, R299). -/
def State.forceOp (s : State) (op : Nat) (id : Word) (v : Word64) : State × CpSt :=
  match op with
  | 1 => s.forceSet id v
  | 2 => s.forceClear id
  | 3 => s.forceClearAll
  | _ => (s, .ok)

/-- A write of BE_FOP: keyed; during a switch the request waits for its end (R299). -/
def fopWrite (s : State) (d : Dom) (v : Word) : State × CpSt :=
  s.writeGuard d R.BE_FOP fun s => s.keyGuard v fun s =>
    let id := s.word R.BE_FNAME
    let x := s.get64 R.BE_FVALL
    if s.be.swAt.isSome then (s.modBe fun b => { b with fops := b.fops ++ [(v.toNat % 4, id, x)] }, .ok)
    else s.forceOp (v.toNat % 4) id x

/-- The word of a keyed write: key and operation. -/
def fopWord (key : BitVec 16) (op : Nat) : Word := BitVec.ofNat 32 (65536 * key.toNat + op)

/-- FOP_SET. -/
def execFopSet (d : Dom) (key : BitVec 16) (s : State) : Host.Outcome State Fault Refusal := s.ends (fopWrite s d (fopWord key 1)).1
/-- FOP_CLEAR. -/
def execFopClear (d : Dom) (key : BitVec 16) (s : State) : Host.Outcome State Fault Refusal := s.ends (fopWrite s d (fopWord key 2)).1
/-- FOP_CLEAR_ALL. -/
def execFopClearAll (d : Dom) (key : BitVec 16) (s : State) : Host.Outcome State Fault Refusal := s.ends (fopWrite s d (fopWord key 3)).1

end Sys2Proof.Machine
end

