-- ==== Sys2Proof/Machine/CanBus.lean ====
section
/-!
DEFINITION. The CAN controllers: enabling, the schedule matrix, attempts and their outcomes, received frames, cancellation,
references and bus-off (16_can R270 to R282).
-/
namespace Sys2Proof.Machine

/-- REF_MODE, 3 read as 0. -/
def State.canRef (s : State) (c : Nat) : Nat := s.get (F.CAN_CFG_REF_MODE c) % 3

/-- NROW. -/
def State.canRows (s : State) (c : Nat) : Nat := max 1 (min 64 (s.get (F.CAN_SCH_NROW c)))

/-- The columns in use: column 0, and each later one whose opening is not 0 (R275; log entry 38). -/
def State.canCols (s : State) (c : Nat) : List Nat :=
  (List.range 32).filter fun j => j == 0 || s.get (F.CAN_COLT_COL_T c j) != 0

/-- Does a list rise strictly? -/
def rising : List Nat → Bool
  | a :: b :: t => decide (a < b) && rising (b :: t)
  | _ => true

/-- The configuration check of a 0 to 1 write of EN (R271, R272, R275). -/
def State.canCheck (s : State) (c : Nat) : Bool :=
  let t := (s.canCols c).map fun j => s.get (F.CAN_COLT_COL_T c j)
  let nb := s.canBit c
  decide (2000 ≤ nb) && decide (nb ≤ 16000)
    && (!s.flag (F.CAN_CFG_FD_EN c) || s.canN2k c || decide (250 ≤ s.canDBit c))
    && (!s.flag (F.CAN_CFG_TRIPLE c) || decide (8000 ≤ nb))
    && decide (100 ≤ s.get (F.CAN_SCH_BC_US c)) && rising t && t.all fun x => decide (x < s.get (F.CAN_SCH_BC_US c))

/-- A NAME table entry holds no address it has heard (R282). -/
def State.nameForget (s : State) (c n : Nat) : State := (s.set (F.CAN_NAMEST_SA c n) 255).setFlag (F.CAN_NAMEST_PRESENT c n) false

/-- The controller's claim of an address and one ISO request for PGN 60928 to the global address (R44, R282). -/
def State.greet (s : State) (c : Nat) : State :=
  (((s.modCan c fun x => { x with greet := false }).sendClaim c).canEmit c (pgnId 59904 255 (s.canC c).sa) true false false (leBytes 3 60928))

/-- The controller starts: the NAME table forgets its addresses; counters at 0 unless bus-off, whose recovery may now run; in the profile it
claims an address with the NAME in OTP and sends one ISO request, in normal mode and once it is not bus-off (R44, R270, R282; log
entry 184). -/
def State.canStart (s : State) (c : Nat) : State :=
  let now := s.now
  let off := s.canOff c
  let s := if off then s else ((s.set (F.CAN_STAT_TEC c) 0).set (F.CAN_STAT_REC c) 0).canState c
  let sa0 := if s.canN2k c then (Config.n2kAddress c).toNat else (s.canC c).sa
  let s := s.modCan c fun x => { x with slot := none, evReq := [], ackRun := 0, colAt := none, refAt := now, refRow := none, recover := off, sa := sa0 }
  let s := (List.range 64).foldl (fun t b => t.canShowFt c b) s
  let s := (List.range 32).foldl (fun t i => t.nameForget c i) s
  if !s.canN2k c || s.canMode c ≠ 0 then s else if off then s.modCan c fun x => { x with greet := true } else s.greet c

/-- A write of CAN_CFG (R271): the fields take writes only while EN is 0. -/
def canCfgWrite (s : State) (d : Dom) (c : Nat) (v : Word) : State × CpSt :=
  s.writeGuard d (R.CAN_CFG c) fun s =>
    let en := v.getLsbD 0
    if s.flag (F.CAN_CFG_EN c) then
      if en then (s, .notNow) else ((s.setFlag (F.CAN_CFG_EN c) false).modCan c fun x => { x with slot := none, evReq := [] }, .ok)
    else
      let s := s.setWord (R.CAN_CFG c) (v &&& 0x7FFE#32)
      if !en then (s, .ok)
      else if !s.canCheck c then (s.setFlag (F.CAN_STAT_CFGERR c) true, .ok)
      else (((s.setFlag (F.CAN_STAT_CFGERR c) false).setFlag (F.CAN_CFG_EN c) true).canStart c, .ok)

/-- CAN_ENABLE: a write of CAN_CFG with EN 1 (R271). -/
def execCanEnable (d : Dom) (c : Fin 4) (v : Word) (s : State) : Host.Outcome State Fault Refusal :=
  s.ends (canCfgWrite s d c.val (v ||| 1#32)).1

/-- A write of CAN_NBT, CAN_DBT or CAN_SCH: only while EN is 0. -/
def canTimWrite (s : State) (d : Dom) (c a : Nat) (v : Word) : State × CpSt :=
  if s.flag (F.CAN_CFG_EN c) then s.writeGuard d a fun s => (s, .notNow) else s.plainWrite d a v

/-- A write of a NAME: only while EN is 0, and the new NAME has not been heard (R282). EN here is the entry's. -/
def canNameWrite (s : State) (d : Dom) (c n a : Nat) (v : Word) : State × CpSt :=
  if s.flag (F.CAN_NAMEST_EN c n) then s.writeGuard d a fun s => (s, .notNow)
  else
    let r := s.plainWrite d a v
    if r.2 = .ok then (r.1.nameForget c n, .ok) else r

/-- A write of an entry's EN: an entry that comes into use has heard no claim (R282). -/
def canNameEnWrite (s : State) (d : Dom) (c n : Nat) (v : Word) : State × CpSt :=
  let on := s.flag (F.CAN_NAMEST_EN c n)
  let r := s.plainWrite d (R.CAN_NAMEST c n) v
  if r.2 = .ok && !on && r.1.flag (F.CAN_NAMEST_EN c n) then (r.1.nameForget c n, .ok) else r

/-- A write of a buffer's words: buffers 56 to 63 are reserved in the profile (R281), and a copied payload stays (R274). -/
def canBufWrite (s : State) (d : Dom) (c b a : Nat) (v : Word) : State × CpSt :=
  if s.canN2k c && decide (56 ≤ b) && (d == .host || d == .block) then s.writeGuard d a fun s => (s, .notNow)
  else
    let r := (s.canCapture c b).plainWrite d a v
    (r.1.canShowFt c b, r.2)

/-! Slots (R275 to R280). -/

/-- End the slot in progress with a status. -/
def State.canSlotEnd (s : State) (c code : Nat) (window : Bool) : State :=
  match (s.canC c).slot with
  | none => s
  | some w =>
    let s := ((s.set (F.CAN_BST_CODE c w.buf) code).setFlag (F.CAN_BST_ENDBY c w.buf) window).set (F.CAN_BST_TRIES c w.buf) (min 63 w.tries)
    s.modCan c fun x => { x with slot := none }

/-- The code of a slot that ends without success, by its last failure. -/
def failCode (fail : Nat) : Nat := match fail with | 1 => 7 | 2 => 5 | 3 => 6 | _ => 8

/-- Offer the slot's buffer from an instant on: the attempt starts there if FT still fits the window and the controller may
send, else the slot waits for its end. -/
def State.canOffer (s : State) (c t : Nat) : State :=
  match (s.canC c).slot with
  | none => s
  | some w =>
    if s.canOff c || s.canMode c = 1 || decide (w.winEnd < t + s.canFt c w.buf) then s.modCan c fun x => { x with slot := some { w with sof := none } }
    else s.modCan c fun x => { x with slot := some { w with sof := some t } }

/-- The row and the start of the basic cycle an instant lies in, and the start of the next (R275, R278). -/
def State.canCycle (s : State) (c t : Nat) : Option (Nat × Nat × Nat) :=
  let bc := s.get (F.CAN_SCH_BC_US c) * 1000
  if s.canRef c = 2 then
    match (s.canC c).refRow with
    | some r => if t < (s.canC c).refAt + bc then some (r % s.canRows c, (s.canC c).refAt, (s.canC c).refAt + bc) else none
    | none => none
  else if bc = 0 then none
  else some (t / bc % s.canRows c, t / bc * bc, (t / bc + 1) * bc)

/-- The next column opening not yet handled: its instant, row, column, and where its window ends. In a cycle that a foreign reference
started at its SOF, an opening that lay before the frame's end comes late, while its window runs (R278). -/
def State.canNext (s : State) (c : Nat) : Option (Nat × Nat × Nat × Nat) :=
  let now := s.now
  let past (t : Nat) : Bool := match (s.canC c).colAt with | some u => decide (t ≤ u) | none => false
  let fresh (t win : Nat) : Bool := decide (now < t) || (!past t && (t == now || s.canRef c == 2 && decide (now < win)))
  let cols := s.canCols c
  let at' (p : Nat × Nat × Nat) : Option (Nat × Nat × Nat × Nat) :=
    let ts := cols.map fun j => p.2.1 + s.get (F.CAN_COLT_COL_T c j) * 1000
    let win (i : Nat) : Nat := ts.getD (i + 1) p.2.2
    ((cols.zip ts).zipIdx.find? fun e => fresh e.1.2 (win e.2)).map fun e => (e.1.2, p.1, e.1.1, win e.2)
  match s.canCycle c now with
  | none => none
  | some p =>
    match at' p with
    | some r => some r
    | none =>
      if s.canRef c = 2 then none
      else match s.canCycle c p.2.2 with
        | none => none
        | some q => (at' q)

/-- The cell of a row and a column in the basic cycle that holds an instant: as it stood when that cycle began. -/
def State.canCell (s : State) (c r j t : Nat) : Nat :=
  let a := R.CAN_CELL c (8 * r + j / 4)
  let w := match s.canCycle c t with
    | some p => (((s.canC c).held.find? fun (e : Nat × Nat × Word) => e.1 == a && e.2.1 == p.2.1).map fun (e : Nat × Nat × Word) => e.2.2).getD (s.word a)
    | none => s.word a
  w.toNat / 2 ^ (8 * (j % 4)) % 256

/-- A write of four cells: while EN is 1 it takes effect at the next basic cycle that uses their row. -/
def canCellWrite (s : State) (d : Dom) (c a : Nat) (v : Word) : State × CpSt :=
  let r := s.plainWrite d a v
  let old := s.word a
  match s.canCycle c s.now with
  | some p =>
    if s.flag (F.CAN_CFG_EN c) && r.2 = .ok && p.1 = (a - R.CAN_CELL c 0) / 32
        && !(s.canC c).held.any (fun (e : Nat × Nat × Word) => e.1 == a && e.2.1 == p.2.1) then
      (r.1.modCan c fun x => { x with held := (a, p.2.1, old) :: x.held.filter fun (e : Nat × Nat × Word) => e.2.1 == p.2.1 }, r.2)
    else r
  | none => r

/-- Is a buffer an enabled TX buffer that the matrix may send? Buffers 56 to 63 are reserved in the NMEA 2000 profile (R281). -/
def State.canTx (s : State) (c b : Nat) : Bool :=
  s.flag (F.CAN_BCFG_EN c b) && s.flag (F.CAN_BCFG_DIR c b) && !(s.canN2k c && decide (56 ≤ b))

/-- A slot opens for a buffer. -/
def State.canOpen (s : State) (c b win : Nat) (ref : Option Nat) : State :=
  (s.set (F.CAN_BST_CODE c b) 1).modCan c fun x => { x with slot := some ⟨b, win, 0, none, none, 0, false, ref⟩ }

/-- A column opens (R275 to R278): what is left of the window before it ends; an enabled cell offers its buffer once the bus
is idle, after this many ns; a cell not enabled serves the oldest event request. -/
def State.canColumn (s : State) (c idle : Nat) : State :=
  match s.canNext c with
  | none => s
  | some (t, r, j, win) =>
    let s := s.advanceTo t
    let s := match (s.canC c).slot with
      | some w => s.canSlotEnd c (if s.canOff c then 9 else failCode w.fail) true
      | none => s
    let s := s.modCan c fun x => { x with colAt := some t }
    let cell := s.canCell c r j t
    let refCol := s.canRef c = 1 && j = 0
    let s :=
      if refCol then
        let b := s.get (F.CAN_CFG_REF_BUF c)
        if s.canTx c b then s.canOpen c b win (some r) else s
      else if 128 ≤ cell then (if s.canTx c (cell % 64) then s.canOpen c (cell % 64) win none else s)
      else match (s.canC c).evReq with
        | [] => s
        | b :: rest =>
          (if s.canTx c b then s.canOpen c b win none else s).modCan c fun x => { x with evReq := rest }
    if s.canOff c then s.canSlotEnd c 9 true else s.canOffer c (s.now + idle)

/-- CAN_COLUMN_OPEN (R276). -/
def execCanColumnOpen (c : Fin 4) (idle : Nat) (s : State) : Host.Outcome State Fault Refusal :=
  s.ends (if s.canOn c.val && !(s.canRef c.val == 2 && s.flag (F.CAN_STAT_REF_LOST c.val)) then s.canColumn c.val idle else s)

/-! Received frames (R273, R279). -/

/-- Does a buffer's masked identifier match one? The NMEA 2000 profile forces 29 bits (R273, R281). -/
def State.canIdent (s : State) (c b ident : Nat) (ide : Bool) : Bool :=
  (s.flag (F.CAN_BCFG_IDE c b) || s.canN2k c) == ide
    && (BitVec.ofNat 29 ident &&& BitVec.ofNat 29 (s.get (F.CAN_BMASK_MASK c b)))
        == (BitVec.ofNat 29 (s.get (F.CAN_BID_ID c b)) &&& BitVec.ofNat 29 (s.get (F.CAN_BMASK_MASK c b)))

/-- Does an RX buffer take an identifier? Buffers 56 to 63 are reserved in the NMEA 2000 profile (R281). -/
def State.canMatch (s : State) (c b ident : Nat) (ide : Bool) : Bool :=
  !(s.canN2k c && decide (56 ≤ b)) && s.flag (F.CAN_BCFG_EN c b) && !s.flag (F.CAN_BCFG_DIR c b) && s.canIdent c b ident ide

/-- With REF_MODE 2 a data frame whose identifier matches REF_BUF starts the basic cycle at its SOF, and its data byte 0 gives the
row (R278). -/
def State.canRefer (s : State) (c ident : Nat) (ide : Bool) (d : List Byte) (t0 : Nat) : State :=
  if s.canRef c = 2 && s.canIdent c (s.get (F.CAN_CFG_REF_BUF c)) ident ide then
    let row := (d.headD 0).toNat
    (s.setFlag (F.CAN_STAT_REF_LOST c) false).modCan c fun x => { x with refAt := t0, refRow := some row }
  else s

/-- The words of a payload, little-endian, padded with zeros. -/
def canWords (d : List Byte) : Nat → List Word
  | 0 => []
  | n + 1 => BitVec.ofNat 32 (leNat (d.take 4)) :: canWords (d.drop 4) n

/-- A received frame goes to the lowest matching buffer, or is dropped (R273). -/
def State.canStore (s : State) (c ident : Nat) (ide : Bool) (d : List Byte) (remote : Option Nat) (st : Stamp) : State :=
  match (List.range 64).find? fun b => s.canMatch c b ident ide with
  | none => s.bump (F.CAN_CNT_NOMATCH c)
  | some b =>
    let lost := (s.canC c).unread.contains b
    let s := if remote.isSome then s
      else ((canWords d ((d.length + 3) / 4)).zipIdx).foldl (fun t w => t.setWord (R.CAN_BDATA c b w.2) w.1) s
    let s := s.set (F.CAN_BCFG_DLC c b) (remote.getD (lenDlc d.length))
    let s := (s.setWord (R.CAN_BSTAMPL c b) (st.truncate 32)).setWord (R.CAN_BSTAMPH c b) ((st >>> 32).truncate 32)
    (s.set (F.CAN_BST_CODE c b) (if lost then 11 else 10)).modCan c fun x => { x with unread := b :: x.unread.filter (· != b) }

/-- A data frame is received, whose SOF lay at an instant. -/
def State.canFrame (s : State) (c ident : Nat) (ide fdf : Bool) (d : List Byte) (t0 : Nat) : State :=
  let st := stampOf t0
  if fdf && (!s.flag (F.CAN_CFG_FD_EN c) || s.canN2k c) then s
  else
    let s := (s.canData c).canStore c ident ide (d.take (if fdf then 64 else 8)) none st
    let s := s.canRefer c ident ide d t0
    if ide then s.n2kFrame c ident (d.take 8) st else s

/-- CAN_FRAME_RECEIVE: a data frame whose SOF lay this many ns ago (R273). -/
def execCanFrameReceive (c : Fin 4) (ident : BitVec 29) (ide fdf : Bool) (data : List Byte) (ago : Nat) (s : State) :
    Host.Outcome State Fault Refusal :=
  s.ends (if s.canHears c.val then s.canFrame c.val ident.toNat ide fdf data (s.now - ago) else s)

/-- CAN_REMOTE_FRAME_RECEIVE: a remote frame; it does not clear LONELY (R270, XE-05). -/
def execCanRemoteFrameReceive (c : Fin 4) (ident : BitVec 29) (ide : Bool) (dlc : Fin 16) (ago : Nat) (s : State) :
    Host.Outcome State Fault Refusal :=
  s.ends (if s.canHears c.val then
    (s.canHeard c.val).canStore c.val ident.toNat ide [] (some dlc.val) (s.stampAgo ago) else s)

/-- A read of a buffer's status word marks its frame read (R273). -/
def State.canRxRead (s : State) (c b : Nat) : State := s.modCan c fun x => { x with unread := x.unread.filter (· != b) }

/-- CAN_RX_STATUS_READ. -/
def execCanRxStatusRead (c : Fin 4) (b : Fin 64) (s : State) : Host.Outcome State Fault Refusal :=
  s.ends (s.inDomain 12 fun s => s.canRxRead c.val b.val)

/-! Attempts (R276, R279, R280). -/

/-- How an attempt ends: acknowledged, no acknowledge, arbitration lost, another bus error; or none could start. -/
inductive CanEnd where
  | sent | noAck | lostArb | error | notStarted
  deriving DecidableEq, Repr

/-- The transmit error counter rises by 8; at 256 the controller goes bus-off (R270). -/
def State.canTecUp (s : State) (c : Nat) : State :=
  let t := s.get (F.CAN_STAT_TEC c) + 8
  if t < 256 then (s.set (F.CAN_STAT_TEC c) t).canState c
  else
    let s := ((s.set (F.CAN_STAT_TEC c) 255).set (F.CAN_STAT_ESTATE c) 2).bump (F.CAN_CNT_BUSOFF c)
    let s := s.modCan c fun x => { x with recover := s.flag (F.CAN_CFG_AUTO_REC c) }
    s.event (260 + c) (s.word (R.CAN_STAT c)) .none

/-- An acknowledge error: an error-passive transmitter's counter does not rise; the 16th in a row sets LONELY (R279). -/
def State.canAckErr (s : State) (c : Nat) : State :=
  let s := s.bump (F.CAN_CNT_ACKERR c)
  let s := if s.get (F.CAN_STAT_ESTATE c) = 1 then s else s.canTecUp c
  let s := s.modCan c fun x => { x with ackRun := x.ackRun + 1 }
  if (s.canC c).ackRun = 16 && !s.flag (F.CAN_STAT_LONELY c) then
    let s := s.setFlag (F.CAN_STAT_LONELY c) true
    s.event (256 + c) (s.word (R.CAN_STAT c)) .crumb
  else s

/-- The slot's frame was sent: its status and stamp, the counters, and in loopback, in place of the bus, its own reception (R270,
R276). -/
def State.canSent (s : State) (c : Nat) (w : CanSlot) (t0 : Nat) : State :=
  let b := w.buf
  let d := w.copy.getD []
  let ident := s.get (F.CAN_BID_ID c b)
  let ide := s.flag (F.CAN_BCFG_IDE c b) || s.canN2k c
  let st := stampOf t0
  let loop := s.canMode c == 2
  let id := if ide then ident else ident % 2048
  let s := (if loop then s else s.canEmit c id ide (s.canFd c b) (s.flag (F.CAN_BCFG_BRS c b)) d).pmu (88 + c)
  let s := (s.setWord (R.CAN_BSTAMPL c b) (st.truncate 32)).setWord (R.CAN_BSTAMPH c b) ((st >>> 32).truncate 32)
  let s := ((s.set (F.CAN_STAT_TEC c) (s.get (F.CAN_STAT_TEC c) - 1)).setFlag (F.CAN_STAT_LONELY c) false).canState c
  let s := (s.modCan c fun x => { x with ackRun := 0 }).canSlotEnd c (if w.late then 3 else 2) false
  if loop then s.canStore c id ide d none st else s

/-- An attempt ends this many ns after its SOF (R276). -/
def State.canAttempt (s : State) (c dur : Nat) (e : CanEnd) : State :=
  match (s.canC c).slot with
  | none => s
  | some w =>
    match w.sof with
    | none =>
      -- no attempt could start, or none more: the slot ends when FT no longer fits
      if e = .notStarted then (s.advanceTo (w.winEnd - s.canFt c w.buf)).canSlotEnd c (failCode w.fail) true else s
    | some t0 =>
      if e = .notStarted then s
      else
        let w := { w with copy := some (w.copy.getD (s.canPayload c w.buf w.refRow)), tries := w.tries + 1,
                          fail := match e with | .noAck => 1 | .lostArb => 2 | .error => 3 | _ => w.fail }
        let s := (s.advanceTo (t0 + dur)).modCan c fun x => { x with slot := some w }
        match e with
        | .sent => s.canSent c w t0
        | _ =>
          let s := match e with
            | .noAck => s.canAckErr c
            | .error => (s.bump (F.CAN_CNT_BUSERR c)).canTecUp c
            | _ => s
          if w.late then s.canSlotEnd c 4 false
          else if s.canOff c then s.canSlotEnd c 9 true
          else if s.get (F.CAN_SCH_RETRY_MAX c) < w.tries then s.canSlotEnd c (failCode w.fail) false
          else if w.winEnd < t0 + dur + s.canFt c w.buf then s.canSlotEnd c (failCode w.fail) true
          else s.canOffer c (t0 + dur)

/-- CAN_ATTEMPT_END: how: 0 acknowledged, 1 no acknowledge, 2 arbitration lost, 3 another bus error, 4 none could start. -/
def execCanAttemptEnd (c : Fin 4) (dur : Nat) (how : Fin 5) (s : State) : Host.Outcome State Fault Refusal :=
  let e : CanEnd := match how.val with | 0 => .sent | 1 => .noAck | 2 => .lostArb | 3 => .error | _ => .notStarted
  s.ends (if s.canOn c.val then s.canAttempt c.val dur e else s)

/-- A write of CAN_TXREQ: an event buffer waits for the next free column (R277). -/
def canTxreqWrite (s : State) (d : Dom) (c : Nat) (v : Word) : State × CpSt :=
  s.writeGuard d (R.CAN_TXREQ c) fun s =>
    let b := v.toNat % 64
    if s.flag (F.CAN_CFG_EN c) && s.canTx c b && s.flag (F.CAN_BCFG_EVT c b) && !(s.canC c).evReq.contains b then
      ((s.set (F.CAN_BST_CODE c b) 1).modCan c fun x => { x with evReq := x.evReq ++ [b] }, .ok)
    else (s, .ok)

/-- CAN_TXREQ (R277). -/
def execCanTxreq (d : Dom) (c : Fin 4) (b : Fin 64) (s : State) : Host.Outcome State Fault Refusal :=
  s.ends (canTxreqWrite s d c.val (BitVec.ofNat 32 b.val)).1

/-- A write of CAN_CANCEL (R280): an event request goes; a slot ends unless its attempt has passed the SOF bit's sample
point. -/
def canCancelWrite (s : State) (d : Dom) (c : Nat) (v : Word) : State × CpSt :=
  s.writeGuard d (R.CAN_CANCEL c) fun s =>
    let b := v.toNat % 64
    let s := if (s.canC c).evReq.contains b then
        (s.set (F.CAN_BST_CODE c b) 4).modCan c fun x => { x with evReq := x.evReq.filter (· != b) } else s
    match (s.canC c).slot with
    | none => (s, .ok)
    | some w =>
      if w.buf ≠ b then (s, .ok)
      else match w.sof with
        | some t =>
          if 2 * s.now < 2 * t + s.canSample c then (s.canSlotEnd c 4 false, .ok)
          else ((s.canCapture c b).modCan c fun x => { x with slot := x.slot.map fun y => { y with late := true } }, .ok)
        | none => (s.canSlotEnd c 4 false, .ok)

/-- CAN_CANCEL (R280). -/
def execCanCancel (d : Dom) (c : Fin 4) (b : Fin 64) (s : State) : Host.Outcome State Fault Refusal :=
  s.ends (canCancelWrite s d c.val (BitVec.ofNat 32 b.val)).1

/-! Bus-off, references, bus errors. -/

/-- BUS_OFF_RECOVERY: 128 occurrences of 11 recessive bits, with AUTO_REC or after EN was written from 0 to 1 (R270). -/
def execBusOffRecovery (c : Fin 4) (s : State) : Host.Outcome State Fault Refusal :=
  s.ends (if s.canOn c.val && s.canOff c.val && ((s.canC c.val).recover || s.flag (F.CAN_CFG_AUTO_REC c.val)) then
      let s := s.advanceBy (1408 * s.canBit c.val / 2)
      let s := ((s.set (F.CAN_STAT_TEC c.val) 0).set (F.CAN_STAT_REC c.val) 0).set (F.CAN_STAT_ESTATE c.val) 0
      let s := s.modCan c.val fun x => { x with recover := false }
      if (s.canC c.val).greet then s.greet c.val else s
    else s)

/-- REFERENCE_FRAME_RECEIVE: with REF_MODE 2 a matching frame starts the basic cycle at its SOF, and data byte 0 gives the
row (R278). -/
def execReferenceFrameReceive (c : Fin 4) (data : List Byte) (ago : Nat) (s : State) : Host.Outcome State Fault Refusal :=
  s.ends (if s.canHears c.val && s.canRef c.val == 2 then
      let b := s.get (F.CAN_CFG_REF_BUF c.val)
      s.canFrame c.val (s.get (F.CAN_BID_ID c.val b)) (s.flag (F.CAN_BCFG_IDE c.val b) || s.canN2k c.val) false data (s.now - ago)
    else s)

/-- REF_LOST: no reference for 2 × BC_US (R278). -/
def execRefLost (c : Fin 4) (s : State) : Host.Outcome State Fault Refusal :=
  s.ends (if s.canOn c.val && s.canRef c.val == 2 && !s.flag (F.CAN_STAT_REF_LOST c.val) then
      let s := s.advanceTo ((s.canC c.val).refAt + 2 * s.get (F.CAN_SCH_BC_US c.val) * 1000)
      (s.setFlag (F.CAN_STAT_REF_LOST c.val) true).modCan c.val fun x => { x with refRow := none }
    else s)

/-- CAN_BUS_ERROR: an error detected while receiving: REC rises by 1, or by 8 when the first bit after the error flag was
dominant, and may make the controller error-passive (R270). -/
def execCanBusError (c : Fin 4) (dominant : Bool) (s : State) : Host.Outcome State Fault Refusal :=
  s.ends (if s.canHears c.val then
      let r := s.get (F.CAN_STAT_REC c.val) + (if dominant then 8 else 1)
      ((s.bump (F.CAN_CNT_BUSERR c.val)).set (F.CAN_STAT_REC c.val) (min 128 r)).canState c.val
    else s)

end Sys2Proof.Machine
end

