-- ==== Sys2Proof/Machine/Reply.lean ====
section
/-!
DEFINITION. The Command Port's packets and replies (19_command_port R319, R322 to R326): building a packet, sending a reply,
keeping it, and ending the operation that runs.
-/
namespace Sys2Proof.Machine

/-- Change the Command Port's state. -/
def State.modCp (s : State) (f : Cp → Cp) : State := { s with cp := f s.cp }

/-- A transport's state. -/
def State.cpRx (s : State) (t : Nat) : CpRx := s.cp.rx.getD t ⟨[], none, [], []⟩

/-- A packet (R322). -/
def cpPacket (flags op seq : Nat) (payload : List Byte) : List Byte :=
  let h := leBytes 1 0xD7 ++ leBytes 1 flags ++ leBytes 1 op ++ leBytes 1 seq ++ leBytes 2 payload.length
  let b := h ++ [crc8 h] ++ payload
  b ++ leBytes 4 (crc32c b).toNat

/-- A reply to an opcode and SEQ (R323): REPLY, OP7, the opcode with bit 7 set, the status and what follows it. -/
def cpReplyBytes (op seq : Nat) (st : CpSt) (body : List Byte) : List Byte :=
  cpPacket (1 + 2 * (op / 128)) (op % 128 + 128) seq (leBytes 1 st.code ++ body)

/-- Queue reply bytes on a transport: on SPI they wait to be clocked out (R319), on UDP they leave the request's port from port
47110, in its queue (R318, R250). -/
def State.cpSend (s : State) (t via src : Nat) (b : List Byte) : State :=
  if t = 0 then s.modCp fun c => { c with rx := padMod ⟨[], none, [], []⟩ 0 (fun r => { r with waiting := r.waiting ++ [b] }) c.rx }
  else if t = 1 then s.emit (.reply 1 0 b)
  else s.sendFill via 0 17 (udpBytes 47110 (src % 65536) b) (.reply src)

/-- Show whether an operation runs (CP_STAT). -/
def State.showCp (s : State) : State :=
  match s.cp.op with
  | none => s.setFlag F.CP_STAT_BUSY false
  | some o =>
    (((s.setFlag F.CP_STAT_BUSY true).set F.CP_STAT_OP7 (o.op / 128)).set F.CP_STAT_TRANSPORT o.transport).set F.CP_STAT_OP o.op

/-- The running operation ends: its reply is queued and kept (R325, R326). -/
def State.cpFinish (s : State) (st : CpSt) (body : List Byte) : State :=
  match s.cp.op with
  | none => s
  | some o =>
    let b := cpReplyBytes o.op o.seq st body
    ((s.cpSend o.transport o.via o.src b).modCp fun c =>
      { c with op := none, rx := padMod ⟨[], none, [], []⟩ o.transport (fun r => { r with lastKey := some o.key, lastReply := b }) c.rx }).showCp

/-- Does an operation with one of these opcodes run? -/
def State.cpRuns (s : State) (ops : List Nat) : Bool :=
  match s.cp.op with
  | some o => ops.contains o.op
  | none => false

/-- The reply to a station-keeping operation after a release (R333): RES of the request taken, or 14 when another writer's
request replaced it. -/
def State.cpSkTaken (s : State) : State :=
  match s.cp.op with
  | none => s
  | some o =>
    if !(0x40 ≤ o.op && o.op ≤ 0x43) || s.sk.req.isSome then s
    else
      let res := match s.sk.taken with
        | some r => if o.replaced then 14 else r
        | none => 14
      let s := { s with sk := { s.sk with taken := none } }
      s.cpFinish (if res = 0 then .ok else .notNow) (leBytes 1 res)

/-- A station-keeping operation whose request no release has taken within T_DP + 0.3 ms is answered TIMEOUT (R324, R327). -/
def State.cpSkExpire (s : State) : State :=
  match s.cp.op with
  | none => s
  | some o => if 0x40 ≤ o.op && o.op ≤ 0x43 && decide (o.startAt + s.tDp + 300000 < s.now) then s.cpFinish .timeout [] else s

end Sys2Proof.Machine
end

