-- ==== Sys2Proof/Machine/Region.lean ====
section
/-!
DEFINITION. The geometry of thrust allocation: slots and their contributions, arcs and the working arc, polygons, the
region of each slot, the projection of a result and a head's envelope region (08_allocation R131 to R136, R142, R146), and
the record check of another device's output (12 R205).
-/
namespace Sys2Proof.Machine

/-- Change allocation's state. -/
def State.modAlc (s : State) (f : Alc → Alc) : State := { s with alc := f s.alc }

/-- Parameter i of slot k: X, Y, Z, FMAX, FMIN, PW, DW, RATE_F, RATE_A, PARAM0, PARAM1. -/
def State.slotP (s : State) (k i : Nat) : Word64 := s.get64 (R.ALC_SLOT_P k i)

/-- A slot's type; 0 for a disabled slot or a reserved type (R131). -/
def State.slotTyp (s : State) (k : Nat) : Nat :=
  let t := s.get (F.ALC_SLOT_TYPE k)
  if s.flag (F.ALC_SLOT_EN k) && decide (t ≤ 4) then t else 0

/-- The enabled slots. -/
def State.alcSlots (s : State) : List Nat := (List.range 48).filter fun k => s.slotTyp k != 0

/-- Variables of a type (R131). -/
def typVars (t : Nat) : Nat := match t with
  | 1 => 2
  | 2 => 1
  | 3 => 2
  | _ => 3

/-- T_DP in s. -/
def State.tDpS (s : State) : Word64 := fofRat s.tDp 1000000000

/-- A unit vector. -/
def dirOf (a : Word64) : List Word64 := [fcos a, fsin a]

/-- The contributions of each variable to surge, sway, yaw, roll, pitch (R132). -/
def slotCols (typ : Nat) (x y z a : Word64) : List (List Word64) :=
  if typ = 2 then
    let c := fcos a
    let n := fsin a
    [[c, n, fsub (fmul x n) (fmul y c), fneg (fmul z n), fmul z c]]
  else
    [[one64, 0, fneg y, 0, z], [0, one64, x, fneg z, 0]] ++ (if typ = 4 then [[0, 0, one64, 0, 0]] else [])

/-- A slot's contributions. -/
def State.colsOf (s : State) (k : Nat) : List (List Word64) :=
  slotCols (s.slotTyp k) (s.slotP k 0) (s.slotP k 1) (s.slotP k 2) (s.slotP k 9)

/-- A constraint ID (R143). -/
def bindId (k kind idx : Nat) : BitVec 16 := BitVec.ofNat 16 (k * 1024 + kind * 64 + idx)

/-! Arcs (R134). -/

/-- An allowed arc: start, length, the IDs of its two edges, or the full circle. -/
structure Arc where
  st : Word64
  len : Word64
  ids : BitVec 16
  ide : BitVec 16
  full : Bool
  deriving DecidableEq, Repr

/-- Cut a forbidden sector (start, length) out of an arc. -/
def Arc.cut (a : Arc) (fs fl : Word64) (id0 id1 : BitVec 16) : List Arc :=
  if fle twoPi64 fl then []
  else if a.full then [⟨wrap2Pi (fadd fs fl), fsub twoPi64 fl, id1, id0, false⟩]
  else
    let r := wrap2Pi (fsub fs a.st)
    let e := fadd r fl
    let wraps := flt twoPi64 e
    let lo : Word64 := if wraps then fsub e twoPi64 else 0
    let cuts := flt r a.len
    let hi := if cuts then r else a.len
    (if flt lo hi then [⟨wrap2Pi (fadd a.st lo), fsub hi lo, if wraps then id1 else a.ids, if cuts then id0 else a.ide, false⟩] else [])
      ++ (if flt e a.len then [⟨wrap2Pi (fadd a.st e), fsub a.len e, id1, a.ide, false⟩] else [])

/-- Is an angle in an arc? -/
def Arc.has (a : Arc) (t : Word64) : Bool := a.full || fle (wrap2Pi (fsub t a.st)) a.len

/-- LAT_MARGIN_MRAD in rad. -/
def State.latMargin (s : State) : Word64 := fofRat (s.get F.ALC_CTRL_LAT_MARGIN_MRAD) 1000

/-- The allowed arcs of slot k: forbidden sectors as they stand, lattice sectors widened (R134, step 1). -/
def State.arcs (s : State) (k : Nat) (sects : List (Word × Word)) : List Arc :=
  let m := s.latMargin
  let own := (List.range (min 4 (s.get (F.ALC_SLOT_NSECT k)))).map fun i =>
    let a := f32to64 (s.word (R.ALC_SLOT_SECT k (2 * i)))
    let b := f32to64 (s.word (R.ALC_SLOT_SECT k (2 * i + 1)))
    (a, wrap2Pi (fsub b a), bindId k 3 (2 * i), bindId k 3 (2 * i + 1))
  let lat := (List.range sects.length).map fun i =>
    let p := sects.getD i (0, 0)
    let a := f32to64 p.1
    let b := f32to64 p.2
    (fsub a m, fadd (wrap2Pi (fsub b a)) (fadd m m), bindId k 4 (2 * i), bindId k 4 (2 * i + 1))
  (own ++ lat).foldl (fun l q => (l.map fun (a : Arc) => a.cut q.1 q.2.1 q.2.2.1 q.2.2.2).flatten) [⟨0, twoPi64, 0xFFFF, 0xFFFF, true⟩]

/-- The end of an arc nearest to an angle: distance, angle, whether it is the arc's start; a tie goes to the larger angle. -/
def Arc.near (a : Arc) (t : Word64) : Word64 × Word64 × Bool :=
  let e := wrap2Pi (fadd a.st a.len)
  let d0 := fabs (wrapPi (fsub a.st t))
  let d1 := fabs (wrapPi (fsub e t))
  if flt d0 d1 || (feq d0 d1 && flt e a.st) then (d0, a.st, true) else (d1, e, false)

/-- The chosen arc, and whether θp lies in none (R134, step 2). -/
def chosenArc (l : List Arc) (t : Word64) : Option Arc × Bool :=
  match l.find? fun a => a.has t with
  | some a => (some a, false)
  | none =>
    (l.foldl (fun (m : Option Arc) a => match m with
      | none => some a
      | some b =>
        let x := a.near t
        let y := b.near t
        if flt x.1 y.1 || (feq x.1 y.1 && flt y.2.1 x.2.1) then some a else some b) none, true)

/-- The working arc: the chosen arc within a half-width of θp (R134, step 3). -/
def Arc.clip (a : Arc) (t half : Word64) (k : Nat) : Option Arc :=
  let w0 := fsub t half
  let w := fadd half half
  if a.full then some ⟨w0, w, bindId k 2 0, bindId k 2 1, false⟩
  else
    let r := wrap2Pi (fsub a.st w0)
    let e := fadd r a.len
    let p1 : Option Arc :=
      if fle r w then some ⟨fadd w0 r, fsub (fmin e w) r, a.ids, if fle e w then a.ide else bindId k 2 1, false⟩ else none
    let e0 := fsub e twoPi64
    let p0 : Option Arc :=
      if fle 0 e0 then some ⟨w0, fmin e0 w, bindId k 2 0, if fle e0 w then a.ide else bindId k 2 1, false⟩ else none
    match p0, p1 with
    | some x, some y => if (a.near t).2.2 then some y else some x
    | some x, none => some x
    | none, y => y

/-! Polygons. -/

/-- Twice the area of a triangle. -/
def turn3 (a b c : List Word64) : Word64 :=
  fsub (fmul (fsub (vget b 0) (vget a 0)) (fsub (vget c 1) (vget a 1)))
    (fmul (fsub (vget b 1) (vget a 1)) (fsub (vget c 0) (vget a 0)))

/-- Squared distance. -/
def dist2 (a b : List Word64) : Word64 := let d := vsub a b; fdot d d

/-- The next corner of the hull, anticlockwise. -/
def hullNext (pts : List (List Word64)) (cur : List Word64) : List Word64 :=
  pts.foldl (fun b p =>
    if p == cur then b
    else if b == cur then p
    else
      let c := turn3 cur b p
      if flt c 0 || (feq c 0 && flt (dist2 cur b) (dist2 cur p)) then p else b) cur

/-- Walk the hull from a corner. -/
def hullWalk (pts : List (List Word64)) (start cur : List Word64) : Nat → List (List Word64)
  | 0 => []
  | n + 1 =>
    let nx := hullNext pts cur
    if nx == start || nx == cur then [cur] else cur :: hullWalk pts start nx n

/-- The convex hull, anticlockwise, from the corner with the least x (then y). -/
def hull (pts : List (List Word64)) : List (List Word64) :=
  match pts with
  | [] => []
  | p :: t =>
    let st := t.foldl (fun a b => if flt (vget b 0) (vget a 0) || (feq (vget b 0) (vget a 0) && flt (vget b 1) (vget a 1)) then b else a) p
    hullWalk pts st st pts.length

/-- The rows that hold a point in a hull: one per edge; for a segment its line and two ends (R135). -/
def hullRows (pts h : List (List Word64)) (k kind : Nat) : List LRow :=
  let idx := fun (a : List Word64) => bindId k kind ((pts.findIdx? (· == a)).getD 0)
  let edge := fun (a b : List Word64) =>
    let dx := fsub (vget b 0) (vget a 0)
    let dy := fsub (vget b 1) (vget a 1)
    (⟨[dy, fneg dx], fsub (fmul dy (vget a 0)) (fmul dx (vget a 1)), idx a⟩ : LRow)
  match h with
  | [] => []
  | [_] => []
  | [a, b] =>
    let d := vsub b a
    [edge a b, edge b a, ⟨d, fdot d b, idx b⟩, ⟨vscale (fneg one64) d, fneg (fdot d a), idx a⟩]
  | _ => (List.range h.length).map fun i => edge (h.getD i []) (h.getD ((i + 1) % h.length) [])

/-- The point of a segment nearest to a point. -/
def nearSeg (p a b : List Word64) : List Word64 :=
  let d := vsub b a
  let l := fdot d d
  if feq l 0 then a
  else vadd a (vscale (fmax 0 (fmin one64 (fdiv (fdot (vsub p a) d) l))) d)

/-- The point of a hull nearest to a point outside it. -/
def nearHull (h : List (List Word64)) (p : List Word64) : List Word64 :=
  let c := match h with
    | [] => [[0, 0]]
    | [a] => [a]
    | _ => (List.range h.length).map fun i => nearSeg p (h.getD i []) (h.getD ((i + 1) % h.length) [])
  c.foldl (fun a b => if flt (dist2 p b) (dist2 p a) then b else a) (c.getD 0 [0, 0])

/-- Does a force keep a row? -/
def LRow.ok (r : LRow) (f : List Word64) : Bool := fle (fdot r.coef f) r.hi

/-! Records (R145, R148). -/

/-- The record of KIND (0 ENVELOPE, 1 LIMITS) held from a node. -/
def recOf (l : List InRec) (node kind : Nat) : Option InRec := l.find? fun r => r.node == node && r.kind == kind

/-- A word of a record. -/
def InRec.w (r : InRec) (i : Nat) : Word := r.words.getD i 0

/-- N of a record's header. -/
def InRec.n (r : InRec) : Nat := (r.w 0).toNat / 2 ^ 13 % 32

/-- Is a record stale for a slot at an instant (R148, R137)? -/
def State.stale (s : State) (r : Option InRec) (at' : Stamp) (nvMax : Option Nat) : Bool :=
  match r with
  | none => true
  | some r => decide (sdiff at' r.stamp > 2 * (s.tDp : Int)) || !(r.w 0).getLsbD 20 || (match nvMax with
    | some m => decide (m < r.n)
    | none => false)

/-- The entry of a LIMITS record for an output: its ten words. -/
def InRec.entry (r : InRec) (idx : Nat) : Option (List Word) :=
  ((List.range r.n).find? fun j => (r.w (3 + 10 * j)).toNat % 32 == idx).map fun j => (r.words.drop (3 + 10 * j)).take 10

/-- The sectors of a LIMITS entry. -/
def entrySects (e : List Word) : List (Word × Word) :=
  (List.range (min 4 ((e.getD 0 0).toNat / 32 % 8))).map fun i => (e.getD (2 + 2 * i) 0, e.getD (3 + 2 * i) 0)

/-- What this device's lattice publishes for channel c: SLT_NOW and the active sectors in rad (R207). -/
def State.ownLimits (s : State) (c : Nat) : Word × List (Word × Word) :=
  let rad := fun (n : Nat) => f64to32 (fdiv (fmul (fofNat n) twoPi64) (k64 65536 1))
  if !s.flag (F.KZ_CH_EN c) then (0x7F800000#32, [])
  else (s.word (R.KZ_SLT_NOW c), (List.range 4).filterMap fun k =>
    if (s.get (F.KZ_CST_ACTIVE c) / 2 ^ k) % 2 = 1 then some (rad (s.get (F.KZ_SECT_START c k)), rad (s.get (F.KZ_SECT_END c k))) else none)

/-! The region of a slot (R134 to R136). -/

/-- A slot fixed at zero: every variable bounded to 0, for one kind 9 reason. -/
def ASlot.fixed (a : ASlot) (why : Nat) : ASlot :=
  let z := List.replicate (typVars a.typ) ((0 : Word64), bindId a.k 9 why)
  { a with fix := some why, lo := z, hi := z, hardLo := z.map (·.1), hardHi := z.map (·.1), cone := [], mag := [], rate := [],
           poly := [] }

/-- Unbounded variables. -/
def freeBounds (k n : Nat) (neg : Bool) : List (Word64 × BitVec 16) :=
  (List.range n).map fun v => (if neg then fneg inf64 else inf64, bindId k 6 (2 * v + (if neg then 0 else 1)))

/-- The facets of the inscribed 16-gon of a capacity whose span overlaps the arc W (R134, step 5). -/
def facets (k : Nat) (cap : Word64) (kind : Nat) (w : Option Arc) : List LRow :=
  let step := fdiv pi64 (k64 8 1)
  let d := fmul cap (fcos (fdiv pi64 (k64 16 1)))
  ((List.range 16).filter fun i => match w with
    | none => true
    | some a =>
      let r := wrap2Pi (fsub (fmul step (fofNat i)) a.st)
      feq r 0 || flt r a.len || flt twoPi64 (fadd r step)).map fun i =>
    ⟨dirOf (fmul step (fadd (fofNat i) (k64 1 2))), d, bindId k kind i⟩

/-- The two rows of the cone over W (R134, step 4). -/
def coneRows (w : Arc) : List LRow :=
  let a := dirOf w.st
  let b := dirOf (fadd w.st w.len)
  [⟨[vget a 1, fneg (vget a 0)], 0, w.ids⟩, ⟨[fneg (vget b 1), vget b 0], 0, w.ide⟩]

/-- A slot with its parameters, its output's limits and nothing bounded yet. -/
def State.slotBase (s : State) (k : Nat) (slt : Word) (sects : List (Word × Word)) : ASlot :=
  let t := s.slotTyp k
  let n := typVars t
  let fm := s.slotP k 3
  let okF := fisFin fm && flt 0 fm
  { k := k, typ := t, node := s.get (F.ALC_SLOT_DEST_NODE k), idx := s.get (F.ALC_SLOT_DEST_IDX k),
    scale := if okF then fm else one64, fmax := fm, fix := none, th := s.alc.theta.getD k 0, excl := false, turn := 0,
    fp := (List.range n).map fun i => s.get64 (R.ALC_SLOT_U k i), w := none, cone := [], mag := [], rate := [],
    lo := freeBounds k n true, hi := freeBounds k n false, hardLo := List.replicate n (fneg inf64),
    hardHi := List.replicate n inf64, poly := [], slt := slt, sects := sects }

/-- W and the flags of an azimuth or propeller slot (R134, steps 1 to 4; R135). -/
def State.withArc (s : State) (a : ASlot) : ASlot × Option Arc :=
  let l := s.arcs a.k a.sects
  let quarter := fdiv pi64 (k64 4 1)
  let ra := s.slotP a.k 8
  let dth := if a.typ = 3 || feq ra 0 then quarter else fmul ra s.tDpS
  match chosenArc l a.th with
  | (none, x) => ({ a with excl := x }.fixed 1, none)
  | (some c, x) =>
    let e := c.near a.th
    let a := { a with excl := x, turn := if flt (wrapPi (fsub e.2.1 a.th)) 0 then fneg dth else dth }
    match c.clip a.th (fmin dth quarter) a.k with
    | none => (a.fixed 2, none)
    | some w => ({ a with w := some (w.st, w.len), cone := coneRows w }, some w)

/-- min(1, SLT / FMAX) applied to a propeller's envelope vertices (R135). -/
def State.propPoly (s : State) (k : Nat) (slt : Word) : List (List Word64) :=
  let n := max 3 (min 8 (s.get (F.ALC_SLOT_NV_MAX k)))
  let g := fmin one64 (fdiv (f32to64 slt) (s.slotP k 3))
  let v := fun i => fadd (fmul g (f32to64 (s.word (R.ALC_SLOT_PV k i)))) 0
  (List.range n).map fun i => [v (2 * i), v (2 * i + 1)]

/-- The vertices of an envelope record. Here as in `State.propPoly`, adding zero gives a zero one sign, so that equal points are
equal words. -/
def InRec.verts (e : InRec) : List (List Word64) :=
  (List.range e.n).map fun i => [fadd (f32to64 (e.w (8 + 2 * i))) 0, fadd (f32to64 (e.w (9 + 2 * i))) 0]

/-- A tunnel's bounds from capacity and SLT, then closed by a widened sector on its axis (R135). -/
def State.tunnelBounds (s : State) (a : ASlot) : (Word64 × BitVec 16) × (Word64 × BitVec 16) :=
  let slt := f32to64 a.slt
  let m := s.latMargin
  let al := s.slotP a.k 9
  let barred := fun (x : Word64) => (List.range a.sects.length).find? fun i =>
    let p := a.sects.getD i (0, 0)
    let st := f32to64 p.1
    fle (wrap2Pi (fadd (fsub x st) m)) (fadd (wrap2Pi (fsub (f32to64 p.2) st)) (fadd m m))
  let lo := (fmax (s.slotP a.k 4) (fneg slt), bindId a.k 6 0)
  let hi := (fmin (s.slotP a.k 3) slt, bindId a.k 6 1)
  (match barred (fadd al pi64) with
    | some i => (0, bindId a.k 4 (2 * i + 1))
    | none => lo,
   match barred al with
    | some i => (0, bindId a.k 4 (2 * i))
    | none => hi)

/-- RATE_F × T_DP, and whether a force rate limit stands. -/
def State.rateF (s : State) (k : Nat) : Word64 × Bool := (fmul (s.slotP k 7) s.tDpS, !feq (s.slotP k 7) 0)

/-- Narrow a bound pair to Fp ± R (R135). -/
def narrow (k : Nat) (f r : Word64) (lo hi : Word64 × BitVec 16) : (Word64 × BitVec 16) × (Word64 × BitVec 16) :=
  let a := fsub f r
  let b := fadd f r
  (if flt lo.1 a then (a, bindId k 1 0) else lo, if flt b hi.1 then (b, bindId k 1 1) else hi)

/-- A slot fixed at zero has no rate rows left: R136 drops them when a limited slot's previous force is not zero. -/
def State.fixDrop (s : State) (a : ASlot) : Bool := a.typ != 4 && (s.rateF a.k).2 && a.fp.any fun f => !feq f 0

/-- Bounds that hold every variable of a point (R135). -/
def pointBounds (k : Nat) (p : List Word64) (hi : Nat) : List (Word64 × BitVec 16) :=
  p.zipIdx.map fun e => (e.1, bindId k 6 (2 * e.2 + hi))

/-- The region of a slot, before staleness (R134, R135), with its rate rows kept unless R136 drops them. The second says
RATE_DROP. A propeller's polygon that is a single point bounds Fx and Fy to it, as a virtual slot's does (log entry 198). -/
def State.regionOf (s : State) (a : ASlot) (env : Option InRec) : ASlot × Bool :=
  let (r, rated) := s.rateF a.k
  let f0 := vget a.fp 0
  match a.typ with
  | 1 =>
    let (a, w) := s.withArc a
    if a.fix.isSome then (a, s.fixDrop a)
    else
      let slt := f32to64 a.slt
      let cap := fmin a.fmax slt
      let a := { a with mag := facets a.k cap (if flt slt a.fmax then 5 else 0) w }
      let e := dirOf a.th
      let m := vnorm a.fp
      let rows : List LRow := [⟨vscale (fneg one64) e, fneg (fsub m r), bindId a.k 1 0⟩, ⟨e, fadd m r, bindId a.k 1 1⟩]
      let drop := !(a.cone ++ a.mag).all fun q => q.ok a.fp
      ({ a with rate := if rated && !drop then rows else [] }, rated && drop)
  | 2 =>
    let (lo, hi) := s.tunnelBounds a
    let a := { a with hardLo := [lo.1], hardHi := [hi.1], lo := [lo], hi := [hi] }
    let drop := !(fle lo.1 f0 && fle f0 hi.1)
    if rated && !drop then
      let p := narrow a.k f0 r lo hi
      ({ a with lo := [p.1], hi := [p.2] }, false)
    else (a, rated && drop)
  | 3 =>
    let (a, _) := s.withArc a
    if a.fix.isSome then (a, s.fixDrop a)
    else
      let pts := s.propPoly a.k a.slt
      let h := hull pts
      let a := { a with poly := h, mag := hullRows pts h a.k 7 }
      let one := h.length == 1
      let p := h.getD 0 [0, 0]
      let a := if one then { a with lo := pointBounds a.k p 0, hi := pointBounds a.k p 1, hardLo := p, hardHi := p } else a
      let drop := !((a.cone ++ a.mag).all (fun q => q.ok a.fp) && (!one || feq f0 (vget p 0) && feq (vget a.fp 1) (vget p 1)))
      if rated && !drop then
        let p := narrow a.k f0 r (a.lo.getD 0 (0, 0)) (a.hi.getD 0 (0, 0))
        ({ a with lo := a.lo.set 0 p.1, hi := a.hi.set 0 p.2 }, false)
      else (a, rated && drop)
  | _ =>
    match env with
    | none => (a, false)
    | some e =>
      let pts := e.verts
      let h := hull pts
      let mz := (f32to64 (e.w 3), f32to64 (e.w 4))
      let one := h.length == 1
      let p := h.getD 0 [0, 0]
      let lo := (List.range 3).map fun v => (if v = 2 then mz.1 else if one then vget p v else fneg inf64, bindId a.k 6 (2 * v))
      let hi := (List.range 3).map fun v => (if v = 2 then mz.2 else if one then vget p v else inf64, bindId a.k 6 (2 * v + 1))
      ({ a with poly := h, mag := hullRows pts h a.k 8, lo := lo, hi := hi, hardLo := lo.map (·.1), hardHi := hi.map (·.1) }, false)

/-! Projection (R142). -/

/-- Move a force onto the cone over an arc. -/
def toCone (w : Word64 × Word64) (rows : List LRow) (f : List Word64) : List Word64 :=
  if rows.all fun r => r.ok f then f
  else
    let onto := fun (a : Word64) => let e := dirOf a; vscale (fmax 0 (fdot e f)) e
    let p := onto w.1
    let q := onto (fadd w.1 w.2)
    if flt (dist2 f q) (dist2 f p) then q else p

/-- Scale a force towards zero until every row holds. -/
def scaleIn (rows : List LRow) (f : List Word64) : List Word64 :=
  let g := rows.foldl (fun m r =>
    let v := fdot r.coef f
    if flt r.hi v then fmin m (fdiv r.hi v) else m) one64
  if feq g one64 then f else vscale g f

/-- Clamp. -/
def clampF (lo hi a : Word64) : Word64 := fmax lo (fmin hi a)

/-- The projection of a slot's force; the second says that a rate row is left violated (R142). -/
def ASlot.project (a : ASlot) (f : List Word64) : List Word64 × Bool :=
  if a.fix.isSome then (List.replicate (typVars a.typ) 0, false)
  else
    match a.typ with
    | 1 =>
      let f := match a.rate with
        | [l, u] =>
          let v := fdot u.coef f
          vadd f (vscale (fsub (clampF (fneg l.hi) u.hi v) v) u.coef)
        | _ => f
      let f := match a.w with
        | some w => toCone w a.cone f
        | none => f
      let f := scaleIn a.mag f
      (f, !a.rate.all fun r => r.ok f)
    | 2 =>
      let lo := (a.lo.getD 0 (0, 0)).1
      let hi := (a.hi.getD 0 (0, 0)).1
      let v := clampF (vget a.hardLo 0) (vget a.hardHi 0) (clampF lo hi (vget f 0))
      ([v], !(fle lo v && fle v hi))
    | 3 =>
      let lo := (a.lo.getD 0 (0, 0)).1
      let hi := (a.hi.getD 0 (0, 0)).1
      let f := [clampF lo hi (vget f 0), vget f 1]
      let f := match a.w with
        | some w => toCone w a.cone f
        | none => f
      let f := if a.poly.length ≤ 1 then a.poly.getD 0 [0, 0]
        else if a.mag.all fun r => r.ok f then f
        else if a.mag.all fun r => r.ok [0, 0] then scaleIn a.mag f
        else nearHull a.poly f
      (f, !(fle lo (vget f 0) && fle (vget f 0) hi))
    | _ =>
      let m := clampF (vget a.hardLo 2) (vget a.hardHi 2) (vget f 2)
      let p := [vget f 0, vget f 1]
      let p := if a.poly.length ≤ 1 then a.poly.getD 0 [0, 0]
        else if a.mag.all fun r => r.ok p then p
        else if a.mag.all fun r => r.ok [0, 0] then scaleIn a.mag p
        else nearHull a.poly p
      (p ++ [m], false)

/-! Conversion (R144) and the record check (R205). -/

/-- The command of a slot's staged force, and the azimuth it gives (R144). -/
def State.toCmd (s : State) (a : ASlot) (f : List Word64) : Cmd × Word64 :=
  let fx := vget f 0
  let fy := vget f 1
  let c := fun (x y z : Word64) => (⟨a.node, a.idx, a.typ, f64to32 x, f64to32 y, f64to32 z⟩ : Cmd)
  match a.typ with
  | 1 =>
    let m := vnorm f
    let th := if flt m (fmul (k64 5 1000) a.fmax) || a.fix == some 3 then (if a.excl && a.fix != some 1 then wrap2Pi (fadd a.th a.turn) else a.th)
      else wrap2Pi (fatan2 fy fx)
    (c m th 0, th)
  | 2 => (c fx 0 0, a.th)
  | 3 =>
    let dmax := s.slotP a.k 10
    let rud := if flt 0 fx then clampF (fneg dmax) dmax (fdiv fy (fmul (s.slotP a.k 9) fx)) else 0
    (c fx rud 0, if feq fx 0 && feq fy 0 then a.th else wrap2Pi (fatan2 fy fx))
  | _ => (c fx fy (fadd (fsub (fmul (s.slotP a.k 0) fy) (fmul (s.slotP a.k 1) fx)) (vget f 2)), a.th)

/-- The check of a command for another device's output against the slot's record (R205). -/
def State.recordCheck (s : State) (a : ASlot) (c : Cmd) : Bool :=
  let t := f32to64 c.v0
  if !fisFin t || !fisFin (f32to64 c.v1) then false
  else
    let dir : Option Word64 := match a.typ with
      | 1 => some (f32to64 c.v1)
      | 2 => some (if flt t 0 then fadd (s.slotP a.k 9) pi64 else s.slotP a.k 9)
      | _ => none
    fle (fabs t) (f32to64 a.slt) && (fle (fabs t) (fmul (k64 5 1000) a.fmax) || match dir with
      | none => true
      | some d => !a.sects.any fun p =>
        let st := f32to64 p.1
        fle (wrap2Pi (fsub d st)) (wrap2Pi (fsub (f32to64 p.2) st)))

/-! A head's envelope (R146). -/

/-- The maximiser of a linear function over a region, of several the one nearest zero (R146). Among the corners it is the best
one; where several tie, and the region holds the function's own direction (`mid`), the maximisers are the segment between the
outermost of them. -/
def bestPoint (g : List Word64) (mid : Bool) (pts : List (List Word64)) : List Word64 :=
  let b := pts.foldl (fun b p =>
    let x := fdot g p
    let y := fdot g b
    if flt y x || (feq y x && flt (fdot p p) (fdot b b)) then p else b) (pts.getD 0 [0, 0])
  let top := fdot g b
  let side (p : List Word64) : Word64 := fsub (fmul (vget g 0) (vget p 1)) (fmul (vget g 1) (vget p 0))
  let tie := pts.filter fun p => feq (fdot g p) top
  if mid then
    nearSeg [0, 0] (tie.foldl (fun a p => if flt (side p) (side a) then p else a) b)
      (tie.foldl (fun a p => if flt (side a) (side p) then p else a) b)
  else b

/-- Where the ray at an angle leaves a region given by rows that hold zero. -/
def rayEnd (rows : List LRow) (a : Word64) : List Word64 :=
  let e := dirOf a
  let t := rows.foldl (fun m r =>
    let v := fdot r.coef e
    if flt 0 v then fmin m (fdiv r.hi v) else m) inf64
  if fisFin t then vscale t e else [0, 0]

/-- The corners of a child's region for the envelope: no rate limit, every allowed arc (R146). The region of a virtual
child is its hull. -/
def State.envCorners (s : State) (a : ASlot) : List (List Word64) :=
  if a.fix == some 0 || a.fix == some 3 then []
  else match a.typ with
    | 1 =>
      let l := s.arcs a.k a.sects
      let cap := fmin a.fmax (f32to64 a.slt)
      let rows := facets a.k cap 0 none
      let step := fdiv pi64 (k64 8 1)
      [[0, 0]] ++ ((List.range 16).filterMap fun i =>
          let t := fmul step (fofNat i)
          if l.any fun c => c.has t then some (vscale cap (dirOf t)) else none)
        ++ (l.map fun c => if c.full then [] else [rayEnd rows c.st, rayEnd rows (fadd c.st c.len)]).flatten
    | 2 =>
      let (lo, hi) := s.tunnelBounds a
      let e := dirOf (s.slotP a.k 9)
      [[0, 0], vscale lo.1 e, vscale hi.1 e]
    | 3 =>
      let pts := s.propPoly a.k a.slt
      let h := hull pts
      let rows := hullRows pts h a.k 7
      let l := s.arcs a.k a.sects
      [[0, 0]] ++ (h.filter fun p => l.any fun c => c.has (fatan2 (vget p 1) (vget p 0)))
        ++ (l.map fun c => if c.full then [] else [rayEnd rows c.st, rayEnd rows (fadd c.st c.len)]).flatten
    | _ => a.poly

/-- Does a child's region for the envelope reach in a direction: an allowed arc holds it, or the child has no sectors (R146)? -/
def State.envMid (s : State) (a : ASlot) (g : List Word64) : Bool :=
  match a.typ with
  | 4 => true
  | 2 => false
  | _ => (s.arcs a.k a.sects).any fun c => c.has (wrap2Pi (fatan2 (vget g 1) (vget g 0)))

/-- ALC_CTRL.NV: 0 means 16, 1 to 3 read as 4. -/
def State.envNv (s : State) : Nat := let n := s.get F.ALC_CTRL_NV; if n = 0 then 16 else max 4 n

/-- The envelope's vertices and moment range from the latched slots (R146). -/
def State.envData (s : State) (l : List ASlot) : List (List Word64) × Word64 × Word64 :=
  let m := fofRat (min 128 (s.get F.ALC_CTRL_MSHARE)) 256
  let nv := s.envNv
  let cs := l.map fun a => (a, s.envCorners a)
  let verts := (List.range nv).map fun k =>
    let d := dirOf (fdiv (fmul twoPi64 (fofNat k)) (fofNat nv))
    let p := cs.foldl (fun acc c => vadd acc (if c.2.isEmpty then [0, 0] else bestPoint d (s.envMid c.1 d) c.2)) [0, 0]
    vscale (fsub one64 m) p
  let mz := fun (hi : Bool) => fmul m (cs.foldl (fun acc c =>
    if c.2.isEmpty then acc
    else
      let x := fsub (s.slotP c.1.k 0) (s.get64 (R.ALC_REF 0))
      let y := fsub (s.slotP c.1.k 1) (s.get64 (R.ALC_REF 1))
      let g := [fneg y, x]
      let v := if hi then fdot g (bestPoint g false c.2) else let g' := vscale (fneg one64) g; fneg (fdot g' (bestPoint g' false c.2))
      let z := if c.1.typ = 4 then vget (if hi then c.1.hardHi else c.1.hardLo) 2 else 0
      fadd acc (fadd v z)) 0)
  (verts, mz false, mz true)

end Sys2Proof.Machine
end

