-- ==== Sys2Proof/Machine/Alloc.lean ====
section
/-!
DEFINITION. Thrust allocation: the latch, the chain of QP passes, staging and shortfall, capability records and envelopes,
and the launches of a MASTER and a HEAD (08_allocation R133 to R149, 01 R22 to R25, R29 to R31).
-/
namespace Sys2Proof.Machine

/-! The latch (R133, R149). -/

/-- The parameter registers whose writes wait for a latch (R149). -/
def alcParams : List Nat :=
  [R.ALC_CTRL, R.ALC_TIER] ++ wordsFrom R.ALC_SW 2 ++ wordsFrom (R.ALC_SCALE_F 0) 10 ++ wordsFrom (R.ALC_SFTOL_F 0) 5
    ++ wordsFrom (R.ALC_REF 0) 6

/-- The writable words of slot k. -/
def alcSlotWords (k : Nat) : List Nat :=
  R.ALC_SLOT k :: wordsFrom (R.ALC_SLOT_P k 0) 22 ++ wordsFrom (R.ALC_SLOT_SECT k 0) 8 ++ wordsFrom (R.ALC_SLOT_PV k 0) 16

/-- Is an address of the slot table or a parameter written to a shadow copy (R149)? -/
def isAlcShadow (a : Nat) : Bool :=
  alcParams.contains a
    || decide (0x40161000 ≤ a ∧ a < 0x40164000) && (alcSlotWords ((a - 0x40161000) / 0x100)).contains a

/-- ALC_SHADOW_COPY: marked slots and pending parameters take effect (R149). -/
def State.alcShadow (s : State) : State :=
  ((s.alc.marks.eraseDups).foldl (fun t k => t.commitShadow (alcSlotWords k)) (s.commitShadow alcParams)).modAlc fun a =>
    { a with marks := [] }

/-- A write of ALC_COMMIT (R149). -/
def alcCommitWrite (s : State) (d : Dom) (v : Word) : State × CpSt :=
  s.writeGuard d R.ALC_COMMIT fun s =>
    let k := v.toNat % 64
    (if k = 63 then s.modAlc fun a => { a with marks := List.range 48 }
     else if k < 48 then s.modAlc fun a => { a with marks := k :: a.marks }
     else s, .ok)

/-- ALC_COMMIT_WRITE (R149). -/
def execAlcCommitWrite (d : Dom) (v : Word) (s : State) : Host.Outcome State Fault Refusal := s.ends (alcCommitWrite s d v).1

/-- The record a slot plans with: LIMITS of another device, or a head's envelope, which a MASTER latched at the snap. -/
def State.slotRec (s : State) (k : Nat) : Option InRec :=
  let node := s.get (F.ALC_SLOT_DEST_NODE k)
  if s.slotTyp k = 4 then recOf (if s.isMaster then s.alc.envSnap else s.alc.records) node 0
  else if node = s.nodeId then none
  else recOf s.alc.records node 1

/-- The instant against which a slot's record ages (R148). -/
def State.latchFor (s : State) (k : Nat) : Nat := if s.slotTyp k = 4 && s.isMaster then s.alc.envAt else s.now

/-- Show a slot's latched record: an envelope whole; of LIMITS the header and the entry named; the age in µs. -/
def State.showRec (s : State) (k : Nat) (r : Option InRec) : State :=
  match r with
  | none => s
  | some r =>
    let body := if r.kind = 0 then r.words.take 40
      else r.words.take 3 ++ ((r.entry (s.get (F.ALC_SLOT_DEST_IDX k))).getD (List.replicate 10 0))
    let s := (List.range 63).foldl (fun t i => t.setWord (R.ALC_LREC k i) (body.getD i 0)) s
    s.setWord (R.ALC_LREC k 63) (BitVec.ofNat 32 (min 0xFFFFFFFF ((sdiff (stampOf (s.latchFor k)) r.stamp).toNat / 1000)))

/-- Latch a slot: its record, its region, and its status (R133 to R136, R148). -/
def State.latchSlot (s : State) (k : Nat) : State × ASlot :=
  let own := s.get (F.ALC_SLOT_DEST_NODE k) = s.nodeId && s.slotTyp k ≠ 4
  let r := s.slotRec k
  let s := s.showRec k r
  let entry := r.bind fun x => x.entry (s.get (F.ALC_SLOT_DEST_IDX k))
  let lim : Word × List (Word × Word) :=
    if own then s.ownLimits (s.get (F.ALC_SLOT_DEST_IDX k))
    else match entry with
      | some e => (e.getD 1 0, entrySects e)
      | none => (0x7F800000#32, [])
  let stale := !own && (s.stale r (stampOf (s.latchFor k)) (if s.slotTyp k = 4 then some (s.get (F.ALC_SLOT_NV_MAX k)) else none)
    || (s.slotTyp k ≠ 4 && entry.isNone))
  let a := s.slotBase k lim.1 lim.2
  let okF := fisFin a.fmax && flt 0 a.fmax
  let p := if stale then (a.fixed 0, s.fixDrop a) else if !okF then (a.fixed 3, s.fixDrop a) else s.regionOf a r
  let s := (((s.setFlag (F.ALC_SLOT_ST_STALE k) stale).setFlag (F.ALC_SLOT_ST_RATE_DROP k) p.2).setFlag
    (F.ALC_SLOT_ST_PREV_EXCL k) p.1.excl).setFlag (F.ALC_SLOT_ST_LAT_REFUSED k) false
  (s, p.1)

/-- Latch every enabled slot. -/
def State.latchSlots (s : State) : State :=
  let r := s.alcSlots.foldl (fun (acc : State × List ASlot) k =>
    let p := acc.1.latchSlot k
    (p.1, acc.2 ++ [p.2])) (s, [])
  (r.1.setFlag F.ALC_STAT_STALE (r.2.any fun a => a.fix == some 0)).modAlc fun a => { a with slots := r.2 }

/-! The problems (R138 to R140). -/

/-- Scale of DOF d, and its shortfall tolerance. -/
def State.dofScale (s : State) (d : Nat) : Word64 := s.get64 (R.ALC_SCALE_F 0 + 8 * d)
def State.sfTol (s : State) (d : Nat) : Word64 := f32to64 (s.word (R.ALC_SFTOL_F 0 + 4 * d))

/-- The tier of DOF d, 0 A to 3 D. -/
def State.tierOf (s : State) (d : Nat) : Nat := (s.word R.ALC_TIER).toNat / 4 ^ d % 4

/-- The latched slots with the index of their first variable. -/
def slotOffsets (l : List ASlot) : List (Nat × ASlot) :=
  (l.foldl (fun (acc : Nat × List (Nat × ASlot)) a => (acc.1 + typVars a.typ, acc.2 ++ [(acc.1, a)])) (0, [])).2

/-- Number of variables. -/
def nVars (l : List ASlot) : Nat := (l.map fun a => typVars a.typ).sum

/-- Row d of B in scaled units: one coefficient per variable (R132). -/
def State.bRow (s : State) (l : List ASlot) (d : Nat) : List (Nat × Word64) :=
  ((slotOffsets l).map fun p => (List.range (typVars p.2.typ)).map fun v =>
    (p.1 + v, fdiv (fmul (vget ((s.colsOf p.2.k).getD v []) d) p.2.scale) (s.dofScale d))).flatten

/-- The region rows of every slot in scaled units. -/
def regionRows (l : List ASlot) : List QRow :=
  ((slotOffsets l).map fun p => (p.2.cone ++ p.2.mag ++ p.2.rate).map fun r =>
    (⟨(List.range r.coef.length).map fun v => (p.1 + v, fmul (vget r.coef v) p.2.scale), r.hi, r.ident⟩ : QRow)).flatten

/-- The bounds of every variable in scaled units. -/
def boundsOf (l : List ASlot) (hi : Bool) : List (Word64 × BitVec 16) :=
  (l.map fun a => (if hi then a.hi else a.lo).map fun b => (fdiv b.1 a.scale, b.2)).flatten

/-- The previous staged solution in scaled units. -/
def uPrev (l : List ASlot) : List Word64 := (l.map fun a => a.fp.map fun f => fdiv f a.scale).flatten

/-- Power and change terms of every variable (R138). -/
def State.useTerms (s : State) (l : List ASlot) : List QTerm :=
  ((slotOffsets l).map fun p => (List.range (typVars p.2.typ)).map fun v =>
    [(⟨s.slotP p.2.k 5, [(p.1 + v, one64)], 0⟩ : QTerm),
     ⟨s.slotP p.2.k 6, [(p.1 + v, one64)], fdiv (vget p.2.fp v) p.2.scale⟩]).flatten.flatten

/-- A sparse row applied to a solution. -/
def rowDot (c : List (Nat × Word64)) (x : List Word64) : Word64 := fsum (c.map fun e => fmul e.2 (vget x e.1))

/-- The demand of DOF d in scaled units. -/
def State.tauS (s : State) (d : Nat) : Word64 := fdiv (vget s.alc.tau d) (s.dofScale d)

/-- Pass 0 (R138): slacks follow the variables, one per enabled DOF. -/
def State.qpPass0 (s : State) : Qp :=
  let l := s.alc.slots
  let n := nVars l
  let ds := s.alc.dofs
  let sw := s.get64 R.ALC_SW
  let up := uPrev l
  { n := n + ds.length
    terms := s.useTerms l ++ (List.range ds.length).map fun j => ⟨sw, [(n + j, one64)], 0⟩
    rows := regionRows l
    eqs := (List.range ds.length).map fun j =>
      let d := ds.getD j 0
      ⟨s.bRow l d ++ [(n + j, one64)], s.tauS d, 0xFFFF#16⟩
    lo := boundsOf l false, hi := boundsOf l true
    start := up ++ ds.map fun d => fsub (s.tauS d) (rowDot (s.bRow l d) up) }

/-- The equalities that hold the values of earlier tiers. -/
def State.fixedEqs (s : State) : List QRow :=
  s.alc.fixed.map fun f => ⟨s.bRow s.alc.slots f.1, f.2, bindId 63 10 f.1⟩

/-- The pass of tier t (R139). -/
def State.qpTier (s : State) (t : Nat) (start : List Word64) : Qp :=
  let l := s.alc.slots
  let ds := s.alc.dofs.filter fun d => s.tierOf d == t
  { n := nVars l
    terms := (ds.map fun d => (⟨one64, s.bRow l d, s.tauS d⟩ : QTerm)) ++
      ((slotOffsets l).map fun p => (List.range (typVars p.2.typ)).map fun v =>
        (⟨fmul (k64 1 1000000) (s.slotP p.2.k 5), [(p.1 + v, one64)], 0⟩ : QTerm)).flatten
    rows := regionRows l, eqs := s.fixedEqs, lo := boundsOf l false, hi := boundsOf l true, start := start }

/-- The final pass (R140). -/
def State.qpFinal (s : State) (start : List Word64) : Qp :=
  let l := s.alc.slots
  { n := nVars l, terms := s.useTerms l, rows := regionRows l, eqs := s.fixedEqs, lo := boundsOf l false,
    hi := boundsOf l true, start := start }

/-- The instant t0 + t(PH_LAUNCH) + L × 1 ms at which a head launches (R29); a MASTER's is PH_LAUNCH. -/
def State.launchInstant (s : State) : Nat := s.atLaunch + (if s.isHead then s.get F.ZAL_TREE_LEVEL * 1000000 else 0)

/-- The deadline of every pass (R141, R29). -/
def State.qpDeadline (s : State) : Nat := if s.isHead then s.launchInstant - 100000 else s.atQpDl

/-- A finite bound. -/
def Qp.bounds (l : List (Word64 × BitVec 16)) : List (Option Word64) := l.map fun b => if fisFin b.1 then some b.1 else none

/-- A pass as the solver takes it (R111): the quadratic form and linear term of its objective, less its constant; the equalities
before the rows; an infinite bound is none. -/
def Qp.prob (q : Qp) : QpProb :=
  let h := q.terms.foldl (fun m e => e.coef.foldl (fun m a => modAt a.1 (fun r =>
    e.coef.foldl (fun r b => modAt b.1 (fun v => fadd v (fmul e.w (fmul a.2 b.2))) r) r) m) m) (mzero q.n)
  let f := q.terms.foldl (fun r e => e.coef.foldl (fun r b => modAt b.1 (fun v => fsub v (fmul e.w (fmul e.target b.2))) r) r)
    (List.replicate q.n 0)
  ⟨h, f, (q.eqs ++ q.rows).map fun r => (r.coef, r.bound), q.eqs.length, Qp.bounds q.lo ++ List.replicate (q.n - q.lo.length) none,
   Qp.bounds q.hi ++ List.replicate (q.n - q.hi.length) none⟩

/-- Submit a pass: C1 QP_ACTIVE, CONV RESID, ITER 64, TOL 1e-9 (R141). -/
def State.submitQp (s : State) (pass : Nat) (q : Qp) : State :=
  let s := s.modAlc fun a => { a with pass := pass, count := a.count + 1, qp := some q }
  let p := q.prob
  let j := internalJob 6 3 1 q.n p.rows.length (some (stampOf s.qpDeadline)) 64 (some q.start) (.qp p)
  s.submitInternal { j with conv := 1, tol := k64 1 1000000000, aux := BitVec.ofNat 32 p.neq }

/-- Start a chain on a latched demand (R133, R138). -/
def State.startChain (s : State) (tau : List Word64) (dofs : List Nat) : State :=
  let now := s.now
  let s := s.latchSlots
  let s := s.modAlc fun a => { a with tau := tau, dofs := dofs, pass := 0, count := 0, fixed := [], binds := [], running := true,
                                      latchAt := now, staged := [], stagedOk := false }
  s.submitQp 0 s.qpPass0

/-- The slots that receive commands exist and allocation is on. -/
def State.alcOn (s : State) : Bool := s.flag F.ALC_CTRL_EN && s.domOn 6

/-- QP_LAUNCH: at PH_QP a driving MASTER latches its inputs and launches pass 0 (R22, R133). -/
def execQpLaunch (s : State) : Host.Outcome State Fault Refusal :=
  s.ends (if s.drives && decide (0 < s.cyc) && s.domOn 6 && !s.alc.running && !s.alc.stagedOk && !s.alc.launched then
      let s := (s.advanceTo s.atQp).alcShadow
      if !s.alcOn then s
      else
        let s := if s.word R.SK_OUT_CYC = s.cycNum || s.flag F.SYS_CYC_STAT_DEM_OLD then s
          else (s.setFlag F.SYS_CYC_STAT_DEM_OLD true).event 17 s.cycNum .crumb
        let on := s.get F.SK_OUT_FL_DOF_ON
        s.startChain (s.vec ((List.range 5).map R.SK_OUT_DEM)) ((List.range 5).filter fun d => (on / 2 ^ d) % 2 == 1)
    else s)

/-! Staging and shortfall (R142 to R144, R204, R205). -/

/-- Stage one slot's force: project, convert, check, stage or refuse. -/
def State.stageSlot (s : State) (a : ASlot) (f : List Word64) : State :=
  let (f, viol) := a.project f
  let s := if viol then s.setFlag F.ALC_STAT_RATE_VIOL true else s
  let (c, th) := s.toCmd a f
  let own := a.node = s.nodeId && a.typ ≠ 4
  let (s, ok) := if a.typ = 4 then (s, true)
    else if own then s.stageCheck a.idx c.v0 c.v1
    else (s, s.recordCheck a c)
  if !ok then
    ((s.setFlag (F.ALC_SLOT_ST_LAT_REFUSED a.k) true).setFlag F.ALC_STAT_LAT_FAIL true).bump F.ALC_CNT_LATF_CNT
  else
    let s := (List.range (typVars a.typ)).foldl (fun t i => t.set64 (R.ALC_SLOT_U a.k i) (vget f i)) s
    let s := s.modAlc fun x => { x with theta := x.theta.set a.k th, staged := x.staged ++ [c] }
    if own then s.putEntry a.idx c.v0 c.v1 (stampOf s.launchInstant) false else s

/-- The force a slot delivers: what was last staged (R142). -/
def State.delivered (s : State) (a : ASlot) : List Word64 :=
  (List.range (typVars a.typ)).map fun i => s.get64 (R.ALC_SLOT_U a.k i)

/-- The achieved value of DOF d from the staged forces (R143). -/
def State.achieved (s : State) (d : Nat) : Word64 :=
  fsum ((s.alc.slots.map fun a => (List.zip (s.colsOf a.k) (s.delivered a)).map fun p => fmul (vget p.1 d) p.2).flatten)

/-- The binding IDs of DOF d (R143), given the pass that cut the chain if one did. -/
def State.bindingOf (s : State) (d : Nat) (cut : Option Nat) : List (BitVec 16) :=
  match cut with
  | some p => [bindId 63 11 p]
  | none =>
    if s.alc.count ≤ 1 then
      (s.alc.slots.filter fun a => s.flag (F.ALC_SLOT_ST_LAT_REFUSED a.k)).map fun a => bindId a.k 12 0
    else (s.alc.binds.lookup d).getD []

/-- Insert in ascending order. -/
def insertId (x : BitVec 16) : List (BitVec 16) → List (BitVec 16)
  | [] => [x]
  | y :: t => if x.toNat ≤ y.toNat then x :: y :: t else y :: insertId x t

/-- SHORTFALL_PUBLISH: the shortfall and the binding lists go to ALC_OUT, CYC first and CYC2 last (R143). -/
def State.publishSf (s : State) (cut : Option Nat) : State :=
  let sf := (List.range 5).map fun d =>
    if s.alc.dofs.contains d then
      let x := fsub (vget s.alc.tau d) (s.achieved d)
      if fle (fabs x) (s.sfTol d) then 0 else x
    else 0
  let sfd := ((List.range 5).filter fun d => !feq (vget sf d) 0)
  let s := (s.setWord R.ALC_OUT_CYC s.cycNum).set F.ALC_OUT_SFD_SFD ((sfd.map fun d => 2 ^ d).sum)
  let s := s.setVec ((List.range 5).map R.ALC_OUT_SF) sf
  let s := (List.range 5).foldl (fun t d =>
    let ids := if sfd.contains d then (s.bindingOf d cut).eraseDups.foldr insertId [] else []
    let g := fun i => (ids.getD i 0xFFFF#16).toNat
    let t := t.setWord (R.ALC_OUT_BINDA d) (BitVec.ofNat 32 (g 0 + 65536 * g 1))
    let t := t.setWord (R.ALC_OUT_BINDB d) (BitVec.ofNat 32 (g 2 + 65536 * g 3))
    t.set ⟨R.ALC_OUT_NB, 4 * d, 4⟩ (min 15 ids.length)) s
  let s := s.setWord R.ALC_OUT_CYC2 s.cycNum
  let was := s.flag F.ALC_STAT_SF
  let now := !sfd.isEmpty
  let s := (s.setFlag F.ALC_STAT_SF now).modAlc fun a => { a with sf := sf }
  let s := if now then s.bump F.ALC_CNT_SF_CYC else s
  let s := s.modEst fun e => { e with tau := (List.range 3).map fun d => fsub (vget s.alc.tau d) (vget sf d) }
  let cause := BitVec.ofNat 32 (s.get F.ALC_OUT_SFD_SFD)
  if was = now then s else if now then s.event 164 cause .loaf else s.record 164 cause .crumb

/-! Records and envelopes sent (R145 to R147). -/

/-- A record's stamp and header words. -/
def recHead (node kind n : Nat) (child sf valid : Bool) (st : Stamp) : List Word :=
  let b := fun (x : Bool) (k : Nat) => if x then 2 ^ k else 0
  [BitVec.ofNat 32 (node + 512 * kind + 2 ^ 13 * n + b child 18 + b sf 19 + b valid 20), st.truncate 32,
   BitVec.ofNat 32 (st.toNat / 2 ^ 32)]

/-- The nodes a device sends its records to: its parent, both masters at level 1 (R145). -/
def State.parents (s : State) : List Nat :=
  match s.get F.ZAL_TREE_LEVEL with
  | 0 => []
  | 1 => [0, 1]
  | _ => [s.get F.ZAL_TREE_PARENT]

/-- Send a capability record. -/
def State.sendCap (s : State) (w : List Word) : State :=
  s.parents.foldl (fun t n => t.sendTwin zCAP 0 n (w.map fun x => leBytes 4 x.toNat).flatten none) s

/-- The device's LIMITS record: one entry per output, of a disabled channel with SLT +∞ and no sector (R145, R207; log
entry 32). -/
def State.limitsRec (s : State) : List Word :=
  recHead s.nodeId 1 24 false false (s.domOn 5) s.stamp ++ ((List.range 24).map fun c =>
    let (slt, l) := s.ownLimits c
    [BitVec.ofNat 32 (c + 32 * l.length), slt] ++ ((List.range 4).map fun i => [(l.getD i (0, 0)).1, (l.getD i (0, 0)).2]).flatten).flatten

/-- A head publishes its envelope: ALC_ENV and a CAP frame (R31, R146, R147). -/
def State.publishEnv (s : State) (sf : List Word64) (sfOn : Bool) : State :=
  let l := s.alc.slots
  let (v, lo, hi) := s.envData l
  let child := l.any fun a => a.fix == some 0
  let w := recHead s.nodeId 0 s.envNv child sfOn true s.stamp ++ [f64to32 lo, f64to32 hi] ++ sf.map f64to32
    ++ (v.map fun p => [f64to32 (vget p 0), f64to32 (vget p 1)]).flatten
  let s := (List.range 40).foldl (fun t i => t.setWord (R.ALC_ENV i) (w.getD i 0)) s
  (s.sendCap w).modAlc fun a => { a with envDone := true }

/-- The envelope a head publishes outside a sub-allocation, from its regions of the present. -/
def State.publishEnvNow (s : State) : State :=
  if !s.isHead || !s.domOn 6 then s
  else
    let r := s.alcSlots.foldl (fun (acc : List ASlot) k => acc ++ [(s.latchSlot k).2]) []
    (s.modAlc fun a => { a with slots := r }).publishEnv [0, 0, 0] false

/-- ALLOCATION_STAGE: the result, per variable in scaled units, is projected, converted, checked and staged; a head then
publishes its envelope (R142 to R144, R147). -/
def State.stage (s : State) (x : List Word64) (cut : Option Nat) : State :=
  let s := s.modAlc fun a => { a with staged := [] }
  let s := (slotOffsets s.alc.slots).foldl (fun t p =>
    t.stageSlot p.2 ((List.range (typVars p.2.typ)).map fun v => fmul (vget x (p.1 + v)) p.2.scale)) s
  let s := (s.publishSf cut).modAlc fun a => { a with stagedOk := true, running := false, qp := none }
  if s.isHead then s.publishEnv (s.alc.sf.take 3) (s.flag F.ALC_STAT_SF) else s

/-- The IDs of the constraints active with a non-zero multiplier, numbered as the solver numbers them: equalities, rows, a lower
and an upper bound per variable (R143, log entry 169). -/
def Qp.ids (q : Qp) (act : List (Nat × Word64)) : List (BitVec 16) :=
  let pad (l : List (Word64 × BitVec 16)) : List (BitVec 16) := l.map (·.2) ++ List.replicate (q.n - l.length) 0xFFFF#16
  let l := (q.eqs ++ q.rows).map QRow.ident ++ pad q.lo ++ pad q.hi
  ((act.filter fun e => !feq e.2 0).filterMap fun e => l[e.1]?).filter (· != 0xFFFF#16) |>.eraseDups

/-- The next tier with an enabled DOF, from t on. -/
def State.nextTier (s : State) (t : Nat) : Option Nat :=
  (List.range 4).find? fun q => decide (t ≤ q) && s.alc.dofs.any fun d => s.tierOf d == q

/-- QP_PASS_COMPLETE: the record of a pass ends the chain or submits the next (R138 to R141). `x` is the returned iterate,
`act` its active constraints with their multipliers. A pass stopped under R130 ends in `stopUnit`. -/
def State.qpDone (s : State) (status : Nat) (x : List Word64) (act : List (Nat × Word64)) : State :=
  if !s.alc.running then s
  else
    let a := s.alc
    let n := nVars a.slots
    let s := (s.set F.ALC_STAT_PASSES (min 7 a.count)).set F.ALC_STAT_LAST_STATUS status
    let s := s.set F.ALC_TIME_CHAIN_US (min 65535 ((s.now - a.latchAt) / 1000))
    let s := if status = 1 || status = 2 then
        let s := s.bump F.SYS_CYC_CNT_QP_DL_CNT
        if s.flag F.SYS_CYC_STAT_QP_DL then s else (s.setFlag F.SYS_CYC_STAT_QP_DL true).event 18 s.cycNum .crumb
      else s
    if status ≠ 0 then
      let s := ((s.setFlag F.ALC_STAT_CUT true).set F.ALC_STAT_CUT_PASS (a.count - 1)).bump F.ALC_CNT_CUT_CNT
      s.stage (if status = 5 then uPrev a.slots else x.take n) (some (a.count - 1))
    else
      let done := fun (t : State) => ((t.setFlag F.ALC_STAT_CUT false).set F.ALC_STAT_CUT_PASS 0).stage (x.take n) none
      if a.pass = 0 then
        let inTol := (List.range a.dofs.length).all fun j =>
          let d := a.dofs.getD j 0
          fle (fabs (fmul (vget x (n + j)) (s.dofScale d))) (s.sfTol d)
        if inTol then done s
        else match s.nextTier 0 with
          | some t => s.submitQp (t + 1) (s.qpTier t (x.take n))
          | none => done s
      else if a.pass = 5 then done s
      else
        let t := a.pass - 1
        let ds := a.dofs.filter fun d => s.tierOf d == t
        let ids := ((a.qp.map fun q => q.ids act).getD [])
        let s := s.modAlc fun z => { z with fixed := z.fixed ++ ds.map (fun d => (d, rowDot (s.bRow a.slots d) x)),
                                            binds := z.binds ++ ds.map fun d => (d, ids) }
        match s.nextTier (t + 1) with
        | some q => s.submitQp (q + 1) (s.qpTier q x)
        | none => s.submitQp 5 (s.qpFinal x)

/-! Launch (R25, R29, R30, R264). -/

/-- The AUTH flag of a frame launched now (R264). -/
def State.authNow (s : State) : Bool := if s.isMaster then s.flag F.SK_OUT_FL_AUTH_REQ else s.entitled

/-- Send commands with launch time now, and let them leave. -/
def State.launchCmds (s : State) (flags : Nat) (l : List Cmd) : State :=
  let s := s.sendCmds s.cycNum flags l (some s.stamp)
  (List.range 5).foldl (fun t p => t.launchDue p ((t.txq p).length)) s

/-- The commands of a launch that went to other nodes, as the checkpoint carries them (R185). -/
def State.noteSent (s : State) (l : List Cmd) (rep : Bool) : State :=
  s.modAlc fun a => { a with sent := l.filter fun c => c.node != s.nodeId, rep := rep, launched := true }

/-- Launch the staged commands: the misses end. -/
def State.launchStaged (s : State) : State :=
  let au := s.authNow
  let l := s.alc.staged
  ((s.launchCmds (if au then 8 else 0) l).noteSent l false).modAlc fun a =>
    { a with previous := l, prevAuth := au, staged := [], stagedOk := false, misses := 0, stopped := false }

/-- A launch instant with ALC_CTRL.EN at 0: nothing is launched, and the misses are no longer consecutive (R25). -/
def State.launchIdle (s : State) : State := s.modAlc fun a => { a with launched := true, misses := 0 }

/-- Write the device's own entries again, flagged as repeated. -/
def State.repeatOwn (s : State) : State :=
  (s.alc.previous.filter fun c => c.node == s.nodeId && c.kind != 4).foldl (fun t c => t.putEntry c.idx c.v0 c.v1 t.stamp true) s

/-- An output miss: OUT_MISS and its count (R25). -/
def State.outMiss (s : State) : State :=
  let s := s.bump F.SYS_CYC_CNT_OUT_MISS_CNT
  if s.flag F.SYS_CYC_STAT_OUT_MISS then s else (s.setFlag F.SYS_CYC_STAT_OUT_MISS true).event 19 s.cycNum .crumb

/-- The previous commands are launched again, flagged as repeated; the misses count on (R25). A MASTER's frame carries the
AUTH of the frame it repeats, a HEAD's its present entitlement (R264). DESIGN CHOICE (log entry 245): after a cycle that
launched nothing, the previous commands are those of the last cycle that launched. -/
def State.launchMiss (s : State) : State :=
  let au := if s.isMaster then s.alc.prevAuth else s.entitled
  let l := s.alc.previous
  let s := ((s.outMiss.launchCmds (2 + (if au then 8 else 0)) l).repeatOwn).noteSent l true
  (s.pmu 3).modAlc fun a => { a with misses := a.misses + 1, staged := [], stagedOk := false }

/-- SYS_CYC_CTRL.MISS_MAX. -/
def State.missMax (s : State) : Nat := max 1 (s.get F.SYS_CYC_CTRL_MISS_MAX)

/-- The launch of a MASTER (R25): staged commands, or the previous ones and, at MISS_MAX misses, demotion. -/
def State.masterLaunch (s : State) : State :=
  let s := s.advanceTo s.atLaunch
  if !s.flag F.ALC_CTRL_EN then s.launchIdle
  else if s.alc.stagedOk then s.launchStaged
  else
    let s := s.launchMiss
    if s.missMax ≤ s.alc.misses then s.demote 2 else s

/-- Does a MASTER launch in this cycle still lie ahead? -/
def State.launchAhead (s : State) : Bool := s.drives && decide (0 < s.cyc) && !s.alc.launched

/-- COMMAND_LAUNCH (R25). -/
def execCommandLaunch (s : State) : Host.Outcome State Fault Refusal := s.ends (if s.launchAhead then s.masterLaunch else s)

/-- OUTPUT_MISS_DEMOTE: the launch that reaches MISS_MAX consecutive misses (R25). -/
def execOutputMissDemote (s : State) : Host.Outcome State Fault Refusal :=
  s.ends (if s.launchAhead && s.flag F.ALC_CTRL_EN && !s.alc.stagedOk && decide (s.missMax ≤ s.alc.misses + 1) then s.masterLaunch else s)

/-- The launch of a HEAD (R29, R30): from a force frame accepted in this cycle and staged; else a miss; a stopped head
launches nothing until a command set is staged. The envelope is published if none was in this cycle (R147). -/
def State.headLaunch (s : State) : State :=
  let s := s.advanceTo s.launchInstant
  let s :=
    if !s.flag F.ALC_CTRL_EN then s.launchIdle
    else if s.alc.stagedOk && s.alc.accNow then s.launchStaged
    else if s.alc.stopped then
      let s := if s.flag F.SYS_CYC_STAT_OUT_MISS then s else (s.setFlag F.SYS_CYC_STAT_OUT_MISS true).event 19 s.cycNum .crumb
      s.modAlc fun a => { a with staged := [], stagedOk := false, launched := true }
    else
      let s := s.launchMiss
      if s.missMax ≤ s.alc.misses then s.modAlc fun a => { a with stopped := true } else s
  if s.alc.envDone then s else s.publishEnvNow

/-- Does a head's launch in this cycle still lie ahead? -/
def State.headAhead (s : State) : Bool := s.isHead && decide (0 < s.cyc) && !s.alc.launched

/-- HEAD_LAUNCH (R29). -/
def execHeadLaunch (s : State) : Host.Outcome State Fault Refusal := s.ends (if s.headAhead then s.headLaunch else s)

/-- HEAD_STOP: the launch that completes MISS_MAX consecutive misses; from the next one the head stops (R30). -/
def execHeadStop (s : State) : Host.Outcome State Fault Refusal :=
  s.ends (if s.headAhead && s.flag F.ALC_CTRL_EN && !s.alc.stopped && !(s.alc.stagedOk && s.alc.accNow)
      && decide (s.missMax ≤ s.alc.misses + 1) then s.headLaunch else s)

/-- SUBALLOCATION_START: a head starts its chain on an accepted force frame; one still running for an
earlier frame of the cycle ends (R29, R147, R190). -/
def State.subAllocate (s : State) : State :=
  if !(s.isHead && decide (0 < s.cyc) && s.domOn 6) then s
  else
    let s := s.alcShadow
    if !s.alcOn || decide (s.launchInstant < s.now + 200000) then s
    else ((s.jobs.jobs.filter fun j => j.unit == 6).foldl (fun t j => t.stopJob j) s).startChain (s.alc.force ++ [0, 0]) [0, 1, 2]

end Sys2Proof.Machine
end

