-- ==== Sys2Proof/Machine/Twin.lean ====
section
/-!
DEFINITION. Twin frames received, the term gate, what an accepted frame does (15_networks R260 to R265, 11 R189, R190), and
the ports' other traffic: SYNC, telemetry, software frames, ARP, link changes (15 R255, R265, R268, R269).
-/
namespace Sys2Proof.Machine

/-- A TWIN_EVT flag sets; its setting raises source 285, and DISC writes a crumb. -/
def State.twinEvt (s : State) (f : Fld) (k : RecKind) : State :=
  if s.flag f then s
  else
    let s := s.setFlag f true
    s.event 285 (s.word R.TWIN_EVT) k

/-- An output receiver holds the gate (R189). -/
def State.gated (s : State) : Bool := !s.isMaster

/-- CYC of a frame answered: that of a CMD, else 0 (R265). -/
def ZFrame.cyc (z : ZFrame) : Nat := if z.typ = zCMD then leNat (z.payload.take 4) else 0

/-- Answer a frame with an ACK or NAK carrying the gate (R189, R265). -/
def State.answerTwin (s : State) (typ : Nat) (z : ZFrame) : State :=
  s.sendTwin typ 0 z.src (leBytes 4 z.seq ++ leBytes 4 z.cyc) none

/-- The term gate on a frame: the new state, and whether the frame is accepted (R189). A head that raises it will send a TERM frame,
and holds its other transmissions on the plant ports (R190, log entry 199). -/
def State.gate (s : State) (z : ZFrame) : State × Bool :=
  if !s.gated then (s, true)
  else
    let t := s.haTerm
    if t < z.term then
      let now := s.now
      let s := s.follow z.term z.tsrc
      (if s.isHead then s.modHa fun h => { h with relayDue := some (now + 3500), holdTx := true } else s, true)
    else if z.term = t then
      if z.tsrc = s.get F.HA_TERMSRC_SRC then (s, true) else (((s.bump F.HA_CNT1_CLASH)).haEvt 6, false)
    else
      let s := s.bump F.HA_CNT1_OLD_TERM
      (if z.typ = zTERM || z.typ = zCMD then s.answerTwin zNAK z else s, false)

/-! What an accepted frame does. -/

/-- TAKEOVER_RELAY: a head writes its own setpoints again and relays its children's last commands (R190, R264), unless it is stopped
under R30, which ends its frames and its setpoints altogether. -/
def State.relayTakeover (s : State) : State :=
  if s.alc.stopped then s.releaseTx
  else
  let s := s.repeatOwn
  (s.sendCmds s.cycNum (4 + (if s.entitled then 8 else 0)) s.alc.previous none).releaseTx

/-- The force frame of a cycle: one per CYC, unless under a newer term (R147, R190). -/
def State.takeForce (s : State) (z : ZFrame) (c : Cmd) : State :=
  let cyc : Word := BitVec.ofNat 32 z.cyc
  let term : Word := BitVec.ofNat 32 z.term
  let second := match s.alc.acc with
    | some (x, t) => x == cyc && decide (term.toNat ≤ t.toNat)
    | none => false
  if second then s
  else
    let s := s.modAlc fun a => { a with acc := some (cyc, term), accNow := true, force := [f32to64 c.v0, f32to64 c.v1, f32to64 c.v2] }
    s.subAllocate

/-- CMD_ACCEPT: entitlement, the command entries or the force frame, and the acknowledgement (R152, R189, R198, R205,
R263). -/
def State.cmdAccept (s : State) (z : ZFrame) (at' : Nat) : State :=
  let s := s.modKz fun k => { k with authAt := some at', lastAuth := z.auth }
  let s := (readCmds z.payload).foldl (fun t c =>
    if 1 ≤ c.kind ∧ c.kind ≤ 3 ∧ c.idx < 24 then
      let (t, ok) := t.entryCheck c.idx c.v0 c.v1
      if ok then t.putEntry c.idx c.v0 c.v1 (stampOf at') z.rep else t
    else if c.kind = 4 && t.isHead && !z.takeover then t.takeForce z c
    else t) s
  let s := if !s.isHead then s else if z.takeover then s.relayTakeover
    -- a frame of the new term without TAKEOVER says that none is to come (log entry 199)
    else if s.ha.relayDue.isNone then s.releaseTx else s
  (s.answerTwin zACK z).switches

/-- The words of a payload. -/
def payloadWords (b : List Byte) : List Word :=
  (List.range (b.length / 4)).map fun i => BitVec.ofNat 32 (leNat ((b.drop (4 * i)).take 4))

/-- CAP_ACCEPT: the sender's latest record of its kind (R145). -/
def State.capAccept (s : State) (z : ZFrame) : State :=
  let w := payloadWords z.payload
  let kind := (w.getD 0 0).toNat / 512 % 2
  let st : Stamp := (w.getD 2 0).truncate 16 ++ w.getD 1 0
  s.modAlc fun a => { a with records := ⟨z.src, kind, st, w⟩ :: a.records.filter fun r => !(r.node == z.src && r.kind == kind) }

/-- Write DSF_SYNC_AT and ARM; an AT not later than the present sets ARM_LATE (R173, R265). -/
def State.syncArm (s : State) (at' : Stamp) : State :=
  let s := (s.setWord R.DSF_SYNC_ATL (at'.truncate 32)).setWord R.DSF_SYNC_ATH (BitVec.ofNat 32 (at'.toNat / 2 ^ 32))
  if sdiff at' s.stamp ≤ 0 then (s.setFlag F.DSF_SYNC_CTRL_ARMED false).setFlag F.DSF_SYNC_CTRL_ARM_LATE true
  else s.setFlag F.DSF_SYNC_CTRL_ARMED true

/-- SYNC_FRAME_ACCEPT (R265). -/
def State.syncAccept (s : State) (z : ZFrame) : State :=
  if s.domOn 12 then s.syncArm (BitVec.ofNat 48 (leNat (z.payload.take 6))) else s

/-- Deliver an accepted frame at its acceptance instant. -/
def State.deliver (s : State) (z : ZFrame) (at' : Nat) : State :=
  if z.typ = zCMD then (if s.gated then s.cmdAccept z at' else s)
  else if z.typ = zTERM || z.typ = zACK || z.typ = zNAK then s.higherTerm z.term z.tsrc
  else if z.typ = zCAP then s.capAccept z
  else if z.typ = zSYNC then s.syncAccept z
  else s

/-- A CMD is judged against the gate again at its acceptance instant (R260). -/
def State.deliverCmp (s : State) (z : ZFrame) (at' : Nat) : State :=
  if z.typ = zCMD && s.gated && decide (z.term < s.haTerm) then
    (s.bump F.HA_CNT1_OLD_TERM).answerTwin zNAK z
  else s.deliver z at'

/-! Copies (R260 to R262). -/

/-- Is a frame delivered on its first copy (R258, R262)? -/
def ZFrame.first (z : ZFrame) : Bool :=
  z.typ == zTERM || z.typ == zACK || z.typ == zNAK || z.typ == zSYNC || (z.typ == zCMD && z.takeover)

/-- TWIN_WIN in ns. -/
def State.twinWin (s : State) : Nat := max 50 (min 10000 (s.get F.TWIN_CFG_WIN_US)) * 1000

/-- Show the open entries. -/
def State.showPend (s : State) : State := s.set F.TWIN_STAT_PEND s.net.twin.length

/-- Close a pending entry. -/
def State.closePend (s : State) (p : TwinPend) : State := (s.modNet fun x => { x with twin := x.twin.erase p }).showPend

/-- May the sender send this frame to this device (R260, check 4)? -/
def State.twinAllowed (s : State) (z : ZFrame) : Bool :=
  let lvl1 := s.get F.ZAL_TREE_LEVEL == 1
  let par := z.src == s.get F.ZAL_TREE_PARENT
  let master := decide (z.src ≤ 1)
  s.admitted z.src
    && (z.typ != zCMD || par || (lvl1 && master))
    && (z.typ != zSYNC || master || par)
    && (z.typ != zCAP || (s.peer z.src).parent == s.nodeId || ((s.peer z.src).level == 1 && decide (s.nodeId ≤ 1)))

/-- A pending entry's window ends: the frame is accepted single-channel (R261, R262). -/
def State.expire (s : State) (p : TwinPend) : State :=
  let s := s.closePend p
  if p.dead then s
  else
    let s := ((s.bump F.TWIN_CNT0_SINGLE).modKz fun k => { k with single := true }).twinEvt F.TWIN_EVT_SINGLE .none
    if p.done then s else s.deliverCmp (zRead p.bytes) (p.openAt + p.win)

/-- The pending entry whose window ends first. -/
def State.firstPend (s : State) : Option TwinPend :=
  s.net.twin.foldl (fun m p => match m with
    | none => some p
    | some q => if p.openAt + p.win < q.openAt + q.win then some p else some q) none

/-- Expire the entries whose windows ended before now. -/
def State.expireOld (s : State) : Nat → State
  | 0 => s
  | n + 1 => match s.firstPend with
    | some p => if p.openAt + p.win < s.now then (s.expire p).expireOld n else s
    | none => s

/-- The mate of a pending entry arrives (R261, R262). -/
def State.mate (s : State) (p : TwinPend) (b : List Byte) : State :=
  let s := s.closePend p
  if b == p.bytes then
    if p.dead then s
    else
      let s := s.modKz fun k => { k with single := false }
      if p.done then s else s.deliverCmp (zRead b) s.now
  else
    let s := s.bump F.TWIN_CNT0_DISC
    -- each such case leaves a crumb, the flag raising its source when it sets
    if s.flag F.TWIN_EVT_DISC then s.record 285 (s.word R.TWIN_EVT) .crumb else s.twinEvt F.TWIN_EVT_DISC .crumb

/-- The recorded BOOT and SEQ of a source. -/
def State.seenOf (s : State) (n : Nat) : Option (Nat × Nat × Nat) := s.net.seen.find? fun e => e.1 == n

/-- A copy that passed R260 and matches nothing opens an entry (R261); the gate and first-copy delivery apply (R189,
R262). -/
def State.openPend (s : State) (net : Nat) (z : ZFrame) (b : List Byte) : State :=
  let s := s.modNet fun x => { x with seen := (z.src, z.boot, z.seq) :: x.seen.filter fun e => e.1 != z.src }
  if 64 ≤ s.net.twin.length then s.bump F.TWIN_CNT1_PEND_OVF
  else
    let (s, ok) := if z.typ = zTERM || z.typ = zCMD || z.typ = zACK || z.typ = zNAK then s.gate z else (s, true)
    let now := s.now
    let win := s.twinWin
    let s := (s.modNet fun x => { x with twin := x.twin ++ [⟨z.src, z.boot, z.seq, b, net, now, win, !ok, z.first⟩] }).showPend
    if ok && z.first then s.deliver z now else s

/-- Is a TYPE that of a twin frame (R258)? -/
def ZFrame.twinTyp (z : ZFrame) : Bool := decide (0x10 ≤ z.typ) && decide (z.typ ≤ 0x15)

/-- A HELLO's payload (R265): MAC_BASE in transmission order, PERSONA, LEVEL, PARENT, HA state, signature; of SRC. -/
def readHello (z : ZFrame) : Hello :=
  let f := fun o n => leNat ((z.payload.drop o).take n)
  { src := ⟨z.src % 512, by omega⟩, mac := BitVec.ofNat 48 (leNat ((z.payload.take 6).reverse)), persona := ⟨f 6 1 % 4, by omega⟩,
    level := ⟨f 7 1 % 4, by omega⟩, parent := ⟨f 8 2 % 512, by omega⟩, ha := ⟨f 0xA 1 % 8, by omega⟩, sig := BitVec.ofNat 32 (f 0xC 4) }

/-- A HELLO arrives on a port (R47, R257, R265): its CRC-32C, version, TYPE and length are judged first (log entry 218). -/
def State.helloFrame (s : State) (p : Nat) (b : List Byte) : State :=
  let z := zRead b
  if !crcOk b then s.bump F.TWIN_CNT0_CRC_ERR
  else if z.ver ≠ 1 || z.typ ≠ zHELLO || z.flags % 2 = 1 || z.len ≠ 16 || b.length ≠ 0x2C then s.bump (F.NET_CNT0_UNSUP p)
  else s.hello (readHello z)

/-- HELLO_RECEIVE: the bytes of a HELLO, from offset 0x00 to its CRC-32C, on a plant port; P2 carries none, P3 only as ring closure
(R47, R254, R256). -/
def execHelloReceive (p : Fin 4) (b : List Byte) (s : State) : Host.Outcome State Fault Refusal :=
  s.ends (
    let s := s.frameIn p.val
    if !s.netUp p.val then s
    else if p.val = 2 then s.bump (F.NET_CNT0_UNSUP 2)
    else if s.zalPort p.val then s.helloFrame p.val b
    else s)

/-- A Zaley frame arrives on a port: a TELEM frame does nothing here, any other version, TYPE or TWIN flag counts UNSUP (R257,
R258; log entry 218); a copy of a twin frame goes through the checks of R260 in order, then R261. -/
def State.twinCopy (s : State) (p : Nat) (b : List Byte) : State :=
  let s := s.expireOld 64
  let z := zRead b
  if !crcOk b then s.bump F.TWIN_CNT0_CRC_ERR
  else if z.ver = 1 && z.typ = zTELEM then s
  else if z.ver ≠ 1 || z.flags % 2 = 0 || !z.twinTyp then s.bump (F.NET_CNT0_UNSUP p)
  else if !s.safetyOk b then (s.bump F.TWIN_CNT1_SAFE_ERR).twinEvt F.TWIN_EVT_SAFE_ERR .none
  else if z.dst ≠ s.nodeId && z.dst ≠ 0x3FF then s
  else if !s.twinAllowed z then s.bump F.TWIN_CNT1_NOT_ALLOWED
  else
    let net := if p = 1 then 1 else 0
    match s.net.twin.find? fun q => q.src == z.src && q.boot == z.boot && q.seq == z.seq with
    | some q => if q.net = net then s else s.mate q b
    | none =>
      match s.seenOf z.src with
      | some (_, bt, sq) =>
        if bt = z.boot && decide ((BitVec.ofNat 32 z.seq - BitVec.ofNat 32 sq).toInt ≤ 0) then s.bump F.TWIN_CNT0_STALE_COPY
        else s.openPend net z b
      | none => s.openPend net z b

/-- TWIN_COPY_RECEIVE: the bytes of a Zaley frame, from offset 0x00 to its CRC-32C, on a port (R256, R260). -/
def execTwinCopyReceive (p : Fin 4) (b : List Byte) (s : State) : Host.Outcome State Fault Refusal :=
  s.ends (
    let s := s.frameIn p.val
    if !s.netUp p.val then s
    else if p.val = 2 then s.bump (F.NET_CNT0_UNSUP 2)
    else if !s.zalPort p.val then s
    else s.twinCopy p.val b)

/-- TWIN_WIN_EXPIRE: the window that ends first ends (R261). -/
def execTwinWinExpire (s : State) : Host.Outcome State Fault Refusal :=
  s.ends (match s.firstPend with
    | some p => (s.advanceTo (p.openAt + p.win)).expire p
    | none => s)

/-- TERM_RELAY: a head that raised its gate sends a TERM frame to its children once its AON copy is written (R190). -/
def execTermRelay (s : State) : Host.Outcome State Fault Refusal :=
  s.ends (match s.ha.relayDue with
    | some t => ((s.advanceTo t).modHa fun h => { h with relayDue := none }).sendTwin zTERM 0 0x3FF [] none
    | none => s)

/-! SYNC, telemetry, software frames, ARP, links. -/

/-- A write of ZAL_SYNCH: GO sends a SYNC frame; one to every device arms the sender's own chain as well (R265). -/
def syncHWrite (s : State) (d : Dom) (v : Word) : State × CpSt :=
  s.writeGuard d R.ZAL_SYNCH fun s =>
    let s := s.setWord R.ZAL_SYNCH (v &&& 0x03FFFFFF#32)
    if !v.getLsbD 31 then (s, .ok)
    else
      let at' : Stamp := (v.truncate 16) ++ s.word R.ZAL_SYNCL
      let dst := s.get F.ZAL_SYNCH_DST
      let s := s.sendTwin zSYNC 0 dst (leBytes 6 at'.toNat ++ [0, 0]) none
      (if dst = 0x3FF && s.domOn 12 then s.syncArm at' else s, .ok)

/-- ZAL_SYNC_GO (R265). -/
def execZalSyncGo (d : Dom) (hi : BitVec 16) (dst : BitVec 10) (s : State) : Host.Outcome State Fault Refusal :=
  s.ends (syncHWrite s d (BitVec.ofNat 32 (hi.toNat + 2 ^ 16 * dst.toNat + 2 ^ 31))).1

/-- A write of ZAL_TREE: LEVEL only while RUN is 0. -/
def zalTreeWrite (s : State) (d : Dom) (v : Word) : State × CpSt :=
  if s.run && (F.ZAL_TREE_LEVEL).of v ≠ s.get F.ZAL_TREE_LEVEL then
    let r := s.plainWrite d R.ZAL_TREE ((F.ZAL_TREE_LEVEL).into (s.get F.ZAL_TREE_LEVEL) v)
    (r.1, if r.2 = .ok then .notNow else r.2)
  else s.plainWrite d R.ZAL_TREE v

/-- TELEMETRY_SEND: set k sends its frame, PH_US after the tick of a cycle whose number is a multiple of PERIOD (R269; log
entry 33). Its reads are no domain's, so they clear no RC field: the spec leaves that open (DESIGN CHOICE, log entry 233). -/
def execTelemetrySend (k : Fin 8) (s : State) : Host.Outcome State Fault Refusal :=
  s.ends (
    let k := k.val
    let cyc := s.cycNum
    let per := max 1 (s.get (F.ZAL_TLM_CFG_PERIOD k))
    if !(s.flag (F.ZAL_TLM_CFG_EN k) && s.domOn 11 && decide (cyc.toNat % per = 0) && s.net.tlmAt.getD k none != some cyc) then s
    else
      let s := s.advanceTo (s.t0 + s.get (F.ZAL_TLM_PH_PH_US k) * 1000)
      let n := max 1 (min 64 (s.get (F.ZAL_TLM_CFG_COUNT k)))
      let list := (s.word (R.ZAL_TLM_LISTL k)).toNat + 2 ^ 32 * s.get (F.ZAL_TLM_LISTH_LIST_HI k)
      let vals := ((List.range n).map fun i => leBytes 4 (s.peek (s.ld (list + 4 * i) 4)).toNat).flatten
      let b := s.zaley zTELEM 0 0x3FF false (leBytes 4 cyc.toNat ++ leBytes 1 k ++ leBytes 1 n ++ leBytes 2 0 ++ vals)
      let s := s.modNet fun x => { x with tlmAt := x.tlmAt.set k (some cyc) }
      ((List.range 2).filter fun p => (s.get (F.ZAL_TLM_CFG_PORTS k) / 2 ^ p) % 2 == 1 && s.netUp p).foldl
        (fun t p => t.sendPlain p (0x400 + k) 0x88B5 b) s)

/-- Does a port carry a frame that software built (R254)? P2 carries partner frames only, P3 Zaley frames only and those with RING 1 (log
entry 234). -/
def State.carriesSw (s : State) (p : Nat) (b : List Byte) : Bool :=
  if p = 2 then false
  else if p = 3 then
    let typ (o : Nat) : Nat := leNat ((b.drop o).take 2).reverse
    s.flag (F.NET_CFG_RING 3) && (typ 12 == 0x88B5 || (typ 12 == 0x8100 && typ 16 == 0x88B5))
  else true

/-- Hand descriptors to a port until TAIL, or one without OWN (R268). A frame that its port does not carry ends in ERROR. -/
def State.txRing (s : State) (p : Nat) : Nat → State
  | 0 => s
  | n + 1 =>
    let size := 2 ^ max 4 (min 12 (s.get (F.NET_TXRH_SIZE_LOG2 p)))
    let head := s.get (F.NET_TXT_HEAD p) % size
    if head = s.get (F.NET_TXT_TAIL p) % size then s
    else
      let base := (s.word (R.NET_TXRL p)).toNat / 16 * 16 + 2 ^ 32 * s.get (F.NET_TXRH_BASE_HI p)
      let a := base + 16 * head
      let w := s.ld a 8
      if w / 2 ^ 63 = 0 then s
      else
        let buf := w % 2 ^ 40
        let len := w / 2 ^ 40 % 2 ^ 11
        let b := s.bytes buf len
        let ok := decide (60 ≤ len ∧ len ≤ 1518) && s.inSramOrDram buf len && s.carriesSw p b
        let e : TxEnt := ⟨if w / 2 ^ 51 % 2 = 1 then some (BitVec.ofNat 48 (s.ld (a + 8) 6)) else none, false, 0, 0, b, some a, s.now, .none⟩
        let s := s.set (F.NET_TXT_HEAD p) ((head + 1) % size)
        (if ok then s.queueTx p e else s.descDone e 4).txRing p n

/-- A write of NET_TXT: TAIL, by SVC (R268). -/
def txTailWrite (s : State) (d : Dom) (p : Nat) (v : Word) : State × CpSt :=
  s.writeGuard d (R.NET_TXT p) fun s =>
    let s := s.set (F.NET_TXT_TAIL p) (v.toNat % 4096)
    (if s.netUp p then s.txRing p 4096 else s, .ok)

/-- TX_TAIL_WRITE (R268). -/
def execTxTailWrite (d : Dom) (p : Fin 5) (tail : BitVec 12) (s : State) : Host.Outcome State Fault Refusal :=
  s.ends (txTailWrite s d p.val (tail.zeroExtend 32)).1

/-- The multicast group flow n listens to on port p, if it is enabled, of KIND 0 (3 is read as 0) and takes that port: the last
byte of its address (R267). -/
def State.flowGroup (s : State) (n p : Nat) : Option Nat :=
  if s.flag (F.NET_FLOW_CFG_EN n) && s.get (F.NET_FLOW_CFG_KIND n) % 3 = 0 && (s.get (F.NET_FLOW_CFG_PORTS n) / 2 ^ p) % 2 = 1
  then some (s.get (F.NET_FLOW_CFG_GROUP n) + 1) else none

/-- An IGMPv2 membership report for multicast group 239.192.0.g (R255). -/
def igmpReport (g : Nat) : List Byte :=
  let sum := 0x1600 + 0xEFC0 + g
  [0x16, 0] ++ beBytes 2 (0xFFFF - (sum % 65536 + sum / 65536)) ++ beBytes 4 (0xEFC00000 + g)

/-- A port reports the group that a flow listens to on it, where it did not before (R255). -/
def State.report (s old : State) (n p : Nat) : State :=
  match s.flowGroup n p with
  | some g =>
    if s.netUp p && !(old.netUp p && old.flowGroup n p == some g) then s.sendPlain p (0x01005E400000 + g) 2 (igmpReport g) else s
  | none => s

/-- A write of NET_CFG: a port that is switched on takes the descriptors that wait in its ring, and reports the groups of the enabled
flows that listen on it (R254, R255, R268). -/
def netCfgWrite (s : State) (d : Dom) (p : Nat) (v : Word) : State × CpSt :=
  let r := s.plainWrite d (R.NET_CFG p) v
  if r.1.netUp p && !s.netUp p then
    ((if p ≤ 1 then (List.range 16).foldl (fun t n => t.report s n p) r.1 else r.1).txRing p 4096, r.2)
  else if r.1.netUp p then r
  else (r.1.modNet fun x => { x with helloAt := padMod none p (fun _ => none) x.helloAt }, r.2)

/-- ARP_REQUEST: a request for NET_IP is answered (R255). P3 carries no such traffic (R254), and on P2 it is no partner-link frame
(R256). -/
def execArpRequest (p : Fin 5) (ip : Word) (s : State) : Host.Outcome State Fault Refusal :=
  s.ends (
    let s := s.frameIn p.val
    if s.netUp p.val && p.val == 2 then s.bump (F.NET_CNT0_UNSUP 2)
    else if s.netUp p.val && p.val != 3 && ip == s.word (R.NET_IP p.val) then
      s.sendPlain p.val 0 0x0806 (leBytes 4 ip.toNat ++ (leBytes 6 (s.macBase + p.val)).reverse)
    else s)

/-- LINK_CHANGE: a port's link goes up at a speed (0, 1, 2: 10, 100, 1000 Mb/s; P0 to P3 run at 1000 only) or down; source
280 + p (R255). -/
def execLinkChange (p : Fin 5) (up : Bool) (speed : Fin 3) (s : State) : Host.Outcome State Fault Refusal :=
  s.ends (if !s.netUp p.val || s.flag (F.NET_STAT_LINK p.val) == up then s
    else
      let s := s.setFlag (F.NET_STAT_LINK p.val) up
      let s := if up then s.set (F.NET_STAT_SPEED p.val) (if p.val = 4 then speed.val else 2) else s
      s.event (280 + p.val) (s.word (R.NET_STAT p.val)) .none)

/-- A write of NET_FLOW_CFG: an enabled flow reports a multicast group it now listens to on each of its ports (R255, R267). -/
def flowCfgWrite (s : State) (d : Dom) (n : Nat) (v : Word) : State × CpSt :=
  let r := s.plainWrite d (R.NET_FLOW_CFG n) v
  ([0, 1].foldl (fun (t : State) p => t.report s n p) r.1, r.2)

end Sys2Proof.Machine
end

