-- ==== Sys2Proof/Machine/Cycle.lean ====
section
/-!
DEFINITION. The positioning cycle (01_one_cycle R17 to R27): the tick and what it does, the projection phase, the
estimator's start and publication, the assignment's launch, starting and stopping the cycle.
-/
namespace Sys2Proof.Machine

/-! The tick. -/

/-- The next tick (R17). -/
def State.nextTick (s : State) : Nat := if s.now % s.tDp = 0 && s.now ≠ s.t0 then s.now else nextMultiple s.now s.tDp

/-- Show the tick: SYS_CYC_NUM and the stamp of SYS_CYC_T0L (R17). -/
def State.showTick (s : State) : State :=
  let now := s.now
  let s := { s with time := { s.time with t0 := now } }
  (s.setWord R.SYS_CYC_NUM (BitVec.ofNat 32 (now / s.tDp))).setWord R.SYS_CYC_T0L (BitVec.ofNat 32 now)

/-- A committed proposal's bias values take effect at the snap, together with its descriptors (R81). -/
def State.takeProposal (s : State) : State :=
  let x := s.surv.due.foldl (fun x e =>
    (e.2.zipIdx).foldl (fun x b => if b.2 < (s.biasOf e.1).2 then modAt ((s.biasOf e.1).1 + b.2) (fun _ => b.1) x else x) x) s.est.x
  { s.modEst fun e => { e with x := x } with surv := { s.surv with due := [] } }

/-- What the snap keeps of the cycle before: the position it published (R84), and the tracks' body positions only if they are
those of the snap before (R78). -/
def State.keepPrev (s : State) (prev : Nat) : State :=
  let co := s.vec [R.FE_OUT_EST 0, R.FE_OUT_EST 1]
  s.modEst fun e => { e with pubPrev := if e.published then some co else none, fixPrev := if e.fixAt = prev then e.fixPrev else [] }

/-- The snap (R38): every stream is latched and judged, marked descriptors are copied, a new stake becomes the origin, the
estimator takes its held values and the quality is judged, the tracker's mode is set, every envelope is latched. -/
def State.snap (s : State) (prev : Nat) : State :=
  let t0 := s.now
  let s := if s.ha.resume then (s.trkAssign 4).modHa fun h => { h with resume := false } else s
  let s := s.keepPrev prev
  let s := streamIds.foldl (fun t n => t.latch n (stampOf t0) (stampOf prev)) s
  let s := streamIds.foldl (fun t n => t.evalStream n (stampOf t0)) s
  let s := s.copyDescriptors.takeProposal.stakeTranslate
  let s := ((s.estSnap t0).trackerSnap).survSnap
  s.modAlc fun a => { a with envSnap := a.records, envAt := t0 }

/-- The tick (R17, R19, R26, R145, R147, R194, R390). None comes while no persona is in effect (R3). -/
def State.cycleTick (s : State) : State :=
  if !s.domOn 11 || !s.matched then s
  else
    let prev := s.t0
    let s := ((s.advanceTo s.nextTick).showTick).pmu 2
    let s := s.ckAbandon.endSeizing
    let s := if s.flag F.PMU_CTL_SNAP_TICK then s.pmuSnap else s
    let s := s.cpSkExpire
    let s := s.modAlc fun a => { a with launched := false, sent := [], rep := false, accNow := false, envDone := false, staged := [], stagedOk := false }
    let work := s.run && (s.drives || s.isHead)
    let s := { s with cyc := if work then 1 else 0 }
    let s := if work && s.drives && s.domOn 7 then s.snap prev else s
    let s := if s.isMaster || s.get F.ZAL_TREE_LEVEL = 0 then s else s.sendCap s.limitsRec
    let s := if s.isHead && !s.run then s.publishEnvNow else s
    s.showCk

/-- CYCLE_TICK (R17). -/
def execCycleTick (s : State) : Host.Outcome State Fault Refusal := s.ends s.cycleTick

/-- CHECKPOINT_ABANDON: the tick that finds a checkpoint not complete (R26). -/
def execCheckpointAbandon (s : State) : Host.Outcome State Fault Refusal :=
  s.ends (
    match s.ha.ckSend with
    | none => s
    | some c => if s.nextTick < c.till then s.cycleTick else s)

/-- FIRST_CYCLE: the tick that ends a seizure, at or after t_d + 50 µs (R194). -/
def execFirstCycle (s : State) : Host.Outcome State Fault Refusal :=
  s.ends (if s.haState = 1 && decide (s.ha.tdAt + 50000 ≤ s.nextTick) then s.cycleTick else s)

/-- DR_EXPIRE: the tick whose snap finds DR past DR_MAX as that snap takes it, where Q2 becomes Q3 or Q4 (R74). -/
def execDrExpire (s : State) : Host.Outcome State Fault Refusal :=
  s.ends (
    match s.est.drAt with
    | some a =>
      let d := max 1 ((s.commitShadow [R.FE_DRCFG]).get F.FE_DRCFG_DR_MAX) * 1000000000
      if s.get F.FE_EST_STAT_QUAL = 2 && decide (d < s.nextTick - a) then s.cycleTick else s
    | none => s)

/-- QUALITY_UPGRADE: the tick whose snap is the QUP_N-th with a better condition (R74). -/
def execQualityUpgrade (s : State) : Host.Outcome State Fault Refusal :=
  s.ends (if s.est.cond < s.get F.FE_EST_STAT_QUAL && s.est.upCnt + 1 = max 1 ((s.commitShadow [R.FE_DRCFG]).get F.FE_DRCFG_QUP_N) then s.cycleTick else s)

/-- SYS_CYC_T0L_READ: the read latches the upper bits of the tick's stamp. -/
def State.readT0 (s : State) : State := s.setWord R.SYS_CYC_T0H (BitVec.ofNat 32 (s.t0 / 2 ^ 32 % 2 ^ 16))

/-- SYS_CYC_T0L_READ. -/
def execSysCycT0lRead (s : State) : Host.Outcome State Fault Refusal := s.ends (s.inDomain 1 State.readT0)

/-! Phases. -/

/-- PROJECTION_PHASE: the batch starts as one C1 job (R19, R60). -/
def execProjectionPhase (s : State) : Host.Outcome State Fault Refusal :=
  s.ends (if s.cyc = 1 && s.estOn then
      let s := { s.advanceTo s.atProj with cyc := 2 }
      (s.modEst fun e => { e with projDone := false }).submitInternal (internalJob 7 6 1 0 0 (some (stampOf s.atEst)) 1 none .empty)
    else s)

/-- Does a unit's job wait, run or stand suspended? -/
def State.unitBusy (s : State) (u : Nat) : Bool :=
  s.jobs.jobs.any (fun j => j.unit == u) || s.jobs.held.any fun h => match h with
    | .port j => j.unit == u
    | .bus _ _ => false

/-- ESTIMATOR_START: at PH_EST, or when batch and tracker pass are done if that is later, the time update starts (R60, R67,
R92). -/
def execEstimatorStart (s : State) : Host.Outcome State Fault Refusal :=
  s.ends (if s.cyc = 3 && s.estOn && !s.unitBusy 2 then
      { (s.advanceTo s.atEst).estStart with cyc := 4 } else s)

/-- Updates not completed at PH_SK are aborted (R21); so are those of a cycle whose batch or tracker pass left no time to begin
them (log entry 153). -/
def State.estCut (s : State) : State :=
  let unbegun := decide (s.cyc ≤ 3) && s.est.inited && !s.flag F.FE_EST_STAT_MDL_BAD
  if !s.est.running && !unbegun then s
  else
    let s := (s.jobs.jobs.filter fun j => j.unit == 1).foldl (fun t j => t.endJob j 5 2) s
    let s := (s.modEst fun e => { e with running := false, timeUpd := false, todo := [] }).bump F.SYS_CYC_CNT_EST_SHORT_CNT
    if s.flag F.SYS_CYC_STAT_EST_SHORT then s else (s.setFlag F.SYS_CYC_STAT_EST_SHORT true).event 16 s.cycNum .crumb

/-- The publication at PH_SK, and the safety core's evaluation of it (R21, R213). -/
def State.estimatePublish (s : State) : State :=
  if 1 ≤ s.cyc && s.cyc ≤ 4 && s.estOn then { (s.advanceTo s.atSk).estCut.publish.speEval with cyc := 5 } else s

/-- ESTIMATE_PUBLISH (R21). -/
def execEstimatePublish (s : State) : Host.Outcome State Fault Refusal := s.ends s.estimatePublish

/-- SPE_TRIP: the publication whose evaluation withdraws authority (R213). -/
def execSpeTrip (s : State) : Host.Outcome State Fault Refusal :=
  s.ends (if s.kzState ≠ 3 && s.estimatePublish.kzState = 3 then s.estimatePublish else s)

/-- ASSIGN_LAUNCH: at PH_CKPT the assignment whose returns were gathered in this cycle is launched (R89). -/
def execAssignLaunch (s : State) : Host.Outcome State Fault Refusal :=
  s.ends (if s.estOn && s.trk.asReady then
      let s := s.advanceTo s.atCkpt
      let (rows, costs) := s.buildCosts
      let s := s.modTrk fun t => { t with asReady := false, rows := rows }
      let dl := s.t0 + s.tDp - s.get F.TRK_DL_GUARD_US * 1000
      let j := internalJob 3 5 2 rows.length s.trk.cols.length (some (stampOf dl)) 65535 none
        (.assign costs (rows.map fun _ => gateOf (s.get F.TRK_CTRL_RGATE)))
      s.submitInternal { j with conv := 1, tol := k64 1 1000000000 }
    else s)

/-! Starting and stopping (R27, R63, R75, R88, R130). -/

/-- The registers held while the cycle runs. -/
def cycHeld : List Nat := [R.SYS_CYC_PERIOD, R.SYS_CYC_PHA, R.SYS_CYC_PHB, R.SYS_CYC_PHC, R.SYS_CYC_DLQP]

/-- The lowest condition of R27 that fails, 0 for none. -/
def State.cycCheck (s : State) : Nat :=
  let p := s.get F.SYS_CYC_PERIOD_PERIOD_US
  let proj := s.get F.SYS_CYC_PHA_PH_PROJ
  let est := s.get F.SYS_CYC_PHA_PH_EST
  let sk := s.get F.SYS_CYC_PHB_PH_SK
  let qp := s.get F.SYS_CYC_PHB_PH_QP
  let la := s.get F.SYS_CYC_PHC_PH_LAUNCH
  let ck := s.get F.SYS_CYC_PHC_PH_CKPT
  if p < 5000 || 100000 < p then 1
  else if !(proj < est && est < sk && sk < qp && qp < la && la < ck && ck ≤ 9999) then 2
  else if s.phase la < s.phase qp + (s.get F.SYS_CYC_DLQP_DL_QP + 100) * 1000 then 3
  else if p * 1000 < s.phase ck + 2200000 then 4
  else if p * 1000 < s.phase la + 2200000 then 5
  else 0

/-- NBIAS and SURV are taken from their held copy at the 0 to 1 write of RUN. -/
def State.takeNbias (s : State) : State :=
  streamIds.foldl (fun t n =>
    (t.set (F.FE_MN_CFG_NBIAS n) (t.getSh (F.FE_MN_CFG_NBIAS n))).set (F.FE_MN_CFG_SURV n) (t.getSh (F.FE_MN_CFG_SURV n))) s

/-- A 0 to 1 write of RUN: held values take effect, the configuration is checked, and if it passes the cycle starts at the
next tick, with the bias states granted, the estimator not initialised and the tracker in ASSIGN mode. -/
def State.runStart (s : State) : State :=
  let s := s.commitShadow cycHeld
  let why := s.cycCheck
  let s := (s.setFlag F.SYS_CYC_CTRL_CFGERR (why != 0)).set F.SYS_CYC_CTRL_CFGWHY why
  if why ≠ 0 then s
  else
    let s := s.setFlag F.SYS_CYC_CTRL_RUN true
    let s := if s.domOn 7 then
        ((s.takeNbias.assignBiases.estReset).trkAssign 1).modEst fun e => { e with published := false, org := none } else s
    { s.modAlc fun a => { a with misses := 0 } with cyc := 0 }

/-- The device as a whole is in DOZE: all ten processors are, RUN is 0 and no job is in flight (R359). -/
def State.deviceDoze (s : State) : Bool := !s.run && s.jobs.jobs.isEmpty && (List.range 10).all fun x => (s.proc x).doze

/-- A device in DOZE wakes, on RUN 0 to 1 (R360): its service and safety processors; an engine goes on as R359 has it. -/
def State.deviceWake (s : State) : State := if s.deviceDoze then (s.setDoze 0 false).setDoze 1 false else s

/-- RUN goes to 0: the internal units' jobs end and the cycle stops (R130). -/
def State.runStop (s : State) : State :=
  let s := (s.setFlag F.SYS_CYC_CTRL_RUN false).stopInternal
  let s := s.modEst fun e => { e with running := false, timeUpd := false, todo := [] }
  let s := s.modAlc fun a => { a with running := false, staged := [], stagedOk := false, qp := none }
  { s.modTrk fun t => { t with asReady := false, rows := [], cols := [] } with cyc := 0 }

/-- A write of SYS_CYC_CTRL. Without a persona in effect RUN does not start (R3; log entry 80). -/
def cycCtrlWrite (s : State) (d : Dom) (v : Word) : State × CpSt :=
  s.writeGuard d R.SYS_CYC_CTRL fun s =>
    let s := s.set F.SYS_CYC_CTRL_MISS_MAX (F.SYS_CYC_CTRL_MISS_MAX.of v)
    if v.getLsbD 0 && !s.run then (if s.matched then (s.deviceWake.runStart, .ok) else (s, .notNow))
    else if !v.getLsbD 0 && s.run then (s.runStop, .ok)
    else (s, .ok)

/-- A write of a register held while RUN is 1 (R27). -/
def cycHeldWrite (s : State) (d : Dom) (a : Nat) (v : Word) : State × CpSt :=
  let r := s.shadowWrite d a v
  (if r.1.run || r.2 ≠ .ok then r.1 else r.1.setWord a (r.1.shWord a), r.2)

/-- A write of FE_MN_CFG: NBIAS and SURV are held for the next start. -/
def mnCfgWrite (s : State) (d : Dom) (n : Nat) (v : Word) : State × CpSt := s.shadowWrite d (R.FE_MN_CFG n) v

/-- RUN_START: a write of SYS_CYC_CTRL with RUN 1, its other fields unchanged (R27). -/
def execRunStart (d : Dom) (s : State) : Host.Outcome State Fault Refusal :=
  s.ends (cycCtrlWrite s d (s.word R.SYS_CYC_CTRL ||| 1#32)).1

/-- RUN_STOP: a write of SYS_CYC_CTRL with RUN 0, its other fields unchanged (R130). -/
def execRunStop (d : Dom) (s : State) : Host.Outcome State Fault Refusal :=
  s.ends (cycCtrlWrite s d (s.word R.SYS_CYC_CTRL &&& 0xFFFFFFFE#32)).1

end Sys2Proof.Machine
end

