-- ==== Sys2Proof/Machine/Complete.lean ====
section
/-!
DEFINITION. The ends of jobs: completion, delay, deadline and abort, and what the unit that submitted the job does with its
record (07_solver_array R115 to R122, R129; 04 R67, R78, R80; 05 R90, R92; 08 R141).
-/
namespace Sys2Proof.Machine

/-! The survey's consumer (R80). -/

/-- The proposal at offset 16 MiB of the buffer: 128 bytes a stream, its ID with a bit per unknown kept as unobservable, the
descriptor, the biases; after 127 of them the run's statistics (R80; log entry 24). -/
def State.survBytes (s : State) (p : List (Nat × List Word64 × List Word64)) : List Byte :=
  let w (l : List Word64) : List Byte := (l.map fun v => leBytes 8 v.toNat).flatten
  let one (acc : List Byte × Nat) (e : Nat × List Word64 × List Word64) : List Byte × Nat :=
    let n := 6 + e.2.2.length
    let mark := bitsOf n fun i => s.surv.unobs.contains (acc.2 + i)
    let b := leBytes 4 e.1 ++ leBytes 4 mark ++ w e.2.1 ++ w e.2.2
    (acc.1 ++ (b ++ List.replicate (128 - b.length) 0), acc.2 + n)
  let b := (p.foldl one ([], 3 * s.get F.FE_SURV_RES_EPOCHS_USED)).1
  b ++ List.replicate (127 * 128 - b.length) 0
    ++ leBytes 4 (s.word R.FE_SURV_RES).toNat ++ leBytes 4 (s.word R.FE_SURV_RMS).toNat ++ leBytes 4 (s.word R.FE_SURV_STAT).toNat

/-- SURVEY_JOB_COMPLETE: a linearisation completed: its corrections add up, its regularised columns of descriptors and biases are
unobservable. After the fifth the proposal stands, and SURVEY_RUN is answered (R80); no run ends sooner (DESIGN CHOICE, log
entry 242). -/
def State.survDone (s : State) (status : Nat) (x : List Word64) (reg : List Nat) : State :=
  if s.surv.runAt.isNone || s.get F.FE_SURV_STAT_PSTATE ≠ 1 || 2 ≤ status then s
  else
    let ofs := 3 * s.get F.FE_SURV_RES_EPOCHS_USED
    let un := reg.filter fun i => decide (ofs ≤ i)
    let lin := s.surv.lin + 1
    let corr := if s.surv.corr.isEmpty then x else vadd s.surv.corr x
    let s := { s with surv := { s.surv with lin := lin, corr := corr, unobs := s.surv.unobs ++ un.filter fun i => !s.surv.unobs.contains i } }
    let s := s.set F.FE_SURV_RES_ITER lin
    let s := if un.isEmpty then s else s.setFlag F.FE_SURV_STAT_UNOBS true
    if lin < 5 then s.survSubmit
    else
      let p := s.survNow
      let s := s.setWord R.FE_SURV_RMS (f64to32F s.survSystem.2).1
      let s := s.set F.FE_SURV_STAT_PSTATE 2
      let s := s.storeBytes (s.survBuf + 0x1000000) (s.survBytes p)
      let s := { s with surv := { s.surv with prop := p, runAt := none, again := false } }
      if s.cpRuns [0x51] then
        s.cpFinish .ok (leBytes 2 (s.get F.FE_SURV_RES_EPOCHS_USED) ++ leBytes 1 lin ++ leBytes 1 (s.get F.FE_SURV_STAT_UNOBS)
          ++ leBytes 4 (s.word R.FE_SURV_RMS).toNat)
      else s

/-- SURVEY_TIMEOUT: no proposal within 3 s of the run's start: TIMEOUT, and PSTATE returns to NONE (R80). -/
def execSurveyTimeout (s : State) : Host.Outcome State Fault Refusal :=
  s.ends (
    match s.surv.runAt with
    | none => s
    | some t =>
      let s := s.advanceTo (t + 3000000000)
      let s := (s.jobs.jobs.filter fun j => j.unit == 5).foldl (fun u j => (u.abortJob j 3).1) s
      let s := { s.set F.FE_SURV_STAT_PSTATE 0 with surv := { s.surv with runAt := none, again := false, prop := [] } }
      if s.cpRuns [0x51] then s.cpFinish .timeout [] else s)

/-! The other consumers. -/

/-- The batch is done: the tracker's pass follows as one C1 job (R92), or the ego-motion solution (R78). -/
def State.batchDone (s : State) : State :=
  let s := { s.projectBatch with cyc := if s.cyc = 2 then 3 else s.cyc }
  if s.flag F.TRK_CTRL_EN then s.submitInternal (internalJob 2 7 1 0 0 (some (stampOf s.atEst)) 1 none .empty) else s.egoSolve

/-- The assignment's record (R90): applied, or counted with its returns discarded. -/
def State.assignDone (s : State) (status : Nat) (x : List Word64) : State :=
  if status ≤ 1 then s.applyAssign x
  else (s.bump F.TRK_CNT_AS_FAIL).modTrk fun t => { t with rows := [], cols := [] }

/-- The multipliers of the constraints active in an iterate. -/
def Iter.active (i : Iter) : List (Nat × Word64) := i.act.filterMap fun c => (i.lam.lookup c).map fun v => (c, v)

/-- An internal unit takes its job's record, and of a KF_UPDATE its outcome. A job stopped under R130 leaves what `stopUnit` says. -/
def State.consume (s : State) (j : Job) (status reason : Nat) (kf : Option (KfOut × Bool)) : State :=
  let r := j.returned.1
  if status = 5 && reason = 3 then s.stopUnit j.unit
  else match j.unit with
    | 1 => s.kfDone kf
    | 2 => if status = 0 then s.trackerPass.egoSolve else s
    | 3 => s.assignDone status r.x
    | 4 => s.egoDone (status == 0) j.prob r.x
    | 5 => s.survDone status r.x j.reg
    | 6 => s.qpDone status r.x r.active
    | 7 => if status = 0 then s.batchDone else s
    | _ => s

/-- A job ends: its record, then its unit. -/
def State.finishJob (s : State) (j : Job) (status reason : Nat) (kf : Option (KfOut × Bool)) : State :=
  let j := s.loadUnrun j status
  let s := s.endJob j status reason
  if j.proc = 15 then s.consume j status reason kf else s

/-! KF_UPDATE (R111, R124). -/

/-- What a KF_UPDATE gives, and whether its gate passed; AUX 0 stands for no gate. The d² of a time update is free (R111; log
entry 172). -/
def State.kfRun (s : State) (j : Job) : State × Option (KfOut × Bool) :=
  match j.prob with
  | .kf x p h [] q =>
    (s.drawn, some ({ kfTime x p h q with d2 := .lit s.free }, true))
  | .kf x p h nu r =>
    let o := kfMeas j.epsSh j.regSh x p h nu r
    let pass := feq (f32to64 j.aux) 0 || fle o.d2.v (f32to64 j.aux)
    (s, some (if pass then o else { o with x := lits x, p := p.map lits }, pass))
  | _ => (s, none)

/-- The flags and counts a KF_UPDATE's arithmetic leaves in its record: PASS, the pivots of S, OVF and DEGRADED (R111, R123,
R124). -/
def Job.kfFlags (j : Job) (o : KfOut) (pass : Bool) : Job :=
  let f := j.flags
  let f := if o.pivots.contains 1 then setBit 0 f else f
  let f := if o.pivots.contains 2 then setBit 1 f else f
  let f := if o.ovf then setBit 2 f else f
  let f := if o.sat then setBit 3 f else f
  let f := if pass then setBit 8 f else f
  { j with flags := f, nreg := (o.pivots.filter (· != 0)).length }

/-- The output block of a software KF_UPDATE: x, the upper triangle of P by columns, d² (R111). -/
def State.kfStore (s : State) (j : Job) (o : KfOut) : State :=
  if j.proc = 15 then s
  else
    let upper := ((List.range j.dimN).map fun c => (List.range (c + 1)).map fun r => svget (o.p.getD r []) c).flatten
    s.storeBytes j.outAddr ((words (o.x ++ upper ++ [o.d2])).map fun v => leBytes 8 v.toNat).flatten

/-- A KF_UPDATE runs to its end: its outcome, output and record (R111, R115). -/
def State.kfEnd (s : State) (j : Job) : State :=
  match s.kfRun j with
  | (s, none) => s.finishJob j 0 0 none
  | (s, some (o, pass)) => (s.kfStore j o).finishJob (j.kfFlags o pass) 0 0 (some (o, pass))

/-! Ends of jobs. -/

/-- JOB_COMPLETE: job i finishes (R115, R116, R121, R124, R129, R130). An iterating job has found its outcome at a check point;
another runs to its end, where a scratch error, a stop, its deadline or a non-finite input shows. corr and ecc: the scratch
words corrected, and whether one could not be. -/
def execJobComplete (i corr : Nat) (ecc : Bool) (s : State) : Host.Outcome State Fault Refusal :=
  s.ends (
    match s.job i with
    | none => s
    | some j =>
      if j.status ≠ 2 then s
      else if j.iterates then
        match j.ending with
        | none => s
        | some (st, r) => s.finishJob j st r none
      else
        let (s, bad) := if j.kind = 4 then s.scratch j corr ecc else (s, false)
        if bad then s.finishJob j 5 5 none
        else match j.abort with
          | some r => s.finishJob j 5 r none
          | none =>
            if j.kind = 4 && s.late j then s.finishJob j 5 2 none
            else if j.prob.nonfinite then s.finishJob j 5 4 none
            else if j.kind = 4 then s.kfEnd j
            else s.finishJob j 0 0 none)

/-- A job's deadline has just passed. -/
def State.atDeadline (s : State) (j : Job) : State := s.advanceTo (s.full j.deadline + 1).toNat

/-- A suspended job ends without resuming (R122): its record is written from its scratch, where an error that cannot be corrected
shows (R110). -/
def State.endSuspended (s : State) (j : Job) (corr : Nat) (ecc : Bool) : State :=
  let (s, bad) := s.scratch j corr ecc
  if bad then s.finishJob j 5 5 none else s.finishJob j (if j.atPanel then 2 else 1) 0 none

/-- JOB_DELAYED: the deadline of a job passes before it is dispatched or resumed (R122). -/
def execJobDelayed (i corr : Nat) (ecc : Bool) (s : State) : Host.Outcome State Fault Refusal :=
  s.ends (
    match s.job i with
    | none => s
    | some j =>
      if j.status = 2 || !j.hasDl || j.kind = 6 || j.kind = 7 then s
      else if j.status = 3 then (s.atDeadline j).endSuspended j corr ecc
      else if j.kind = 4 then (s.atDeadline j).finishJob j 5 2 none
      else (s.atDeadline j).finishJob j 3 0 none)

/-- JOB_RESUME: a suspended job takes up its lane groups again: once they have been free for IDLE_US it goes on where it stood,
unless its deadline has passed by then (R122, R127). -/
def execJobResume (i corr : Nat) (ecc : Bool) (s : State) : Host.Outcome State Fault Refusal :=
  s.ends (
    match s.job i with
    | none => s
    | some j =>
      let free (t : State) := if j.ganged then t.freeLanes.length == 4 else j.lanes.all fun g => t.freeLanes.contains g
      let rival := (s.waiting 0).any fun k => decide (k.cls < j.cls)
      if j.status ≠ 3 || !free s || rival then s
      else
        let idle := j.lanes.foldl (fun m g => max m (s.jobs.idleAt.getD g 0)) 0
        let s := s.advanceTo (idle + max 1 (s.get F.JF_RESUME_IDLE_US) * 1000)
        if s.tooLate j then s.endSuspended j corr ecc
        else
          let (s, bad) := s.scratch j corr ecc
          let now := s.now
          if bad then s.finishJob j 5 5 none
          else (s.putJob { j with status := 2, sinceAt := now }).showJobs)

/-- KF_DEADLINE_ABORT: a running KF_UPDATE stops where it stands when its deadline passes; a stop that is pending ends it as such
(R121, R130). -/
def execKfDeadlineAbort (i : Nat) (s : State) : Host.Outcome State Fault Refusal :=
  s.ends (
    match s.job i with
    | none => s
    | some j =>
      if j.status = 2 && j.kind = 4 && j.hasDl then (s.atDeadline j).finishJob j 5 (if j.abort = some 3 then 3 else 2) none else s)

/-- TRACK_COAST_EXPIRE: the tracker's pass completes, and track j, CONFIRMED or COASTING with no hit for COAST_MS at the snap and
none in this pass, is freed (R85). -/
def execTrackCoastExpire (j : Fin 64) (s : State) : Host.Outcome State Fault Refusal :=
  s.ends (
    match s.jobs.jobs.find? fun k => k.unit == 2 && k.status == 2 && k.abort.isNone with
    | none => s
    | some k =>
      let t := s.finishJob k 0 0 none
      if s.coasted (stampOf s.t0) j.val && t.tkState j.val == 0 then t else s)

/-- A write of JF_ABORT (R129): a write naming another domain's job is discarded. A suspended job's scratch may show an error
(R110). -/
def jfAbortWith (s : State) (d : Dom) (v : Word) (corr : Nat) (ecc : Bool) : State × CpSt :=
  s.writeGuard d R.JF_ABORT fun s =>
    let p := F.JF_ABORT_PROC.of v
    let t := F.JF_ABORT_TAG.of v
    match s.jobs.jobs.find? fun j => j.proc == p && j.tag == t && p != 15 with
    | none => (s.set F.JF_ABRES_RESULT 3, .ok)
    | some j =>
      if !mayAbort d p j.cls then (s, .denied)
      else
        let (s, bad) := if j.status = 3 then s.scratch j corr ecc else (s, false)
        let r := s.abortJob j (if bad then 5 else 1)
        (r.1.set F.JF_ABRES_RESULT r.2, .ok)

/-- A write of JF_ABORT with no scratch error. -/
def jfAbortWrite (s : State) (d : Dom) (v : Word) : State × CpSt := jfAbortWith s d v 0 false

/-- JOB_ABORT: a write of JF_ABORT (R129). -/
def execJobAbort (d : Dom) (v : Word) (corr : Nat) (ecc : Bool) (s : State) : Host.Outcome State Fault Refusal :=
  s.ends (jfAbortWith s d v corr ecc).1

end Sys2Proof.Machine
end

