-- ==== Sys2Proof/Machine/Gnss.lean ====
section
/-!
DEFINITION. The GNSS receiver: measurement epochs and internal streams, acquisition, channels, word records, antenna bias,
windbreaks, the jamming indicator, its time quality, sleep and restart (13_gnss R220 to R238). What the receiver measures
arrives as operands (log entry 36).
-/
namespace Sys2Proof.Machine

/-- Change the receiver's state. -/
def State.modGn (s : State) (f : Gnss → Gnss) : State := { s with gn := f s.gn }

/-- The receiver runs. -/
def State.gnOn (s : State) : Bool := s.domOn 9

/-! Epochs (R222, R223, R227). -/

/-- The epoch period in ns. -/
def State.gnPeriod (s : State) : Nat :=
  match s.get F.GN_EPOCH_RATE with
  | 0 => 1000000000 | 1 => 500000000 | 2 => 200000000 | 3 => 100000000 | _ => 50000000

/-- The next epoch instant. -/
def State.nextEpoch (s : State) : Nat :=
  let p := s.gnPeriod
  let ph := s.get F.GN_EPOCH_EPOCH_PH * 1000 % p
  if s.now < ph then ph else nextMultiple (s.now - ph) p + ph

/-- Write a sample of an internal stream (R222, R50). -/
def State.gnStream (s : State) (n typ : Nat) (vals : List Word64) (mode sats : Nat) : State :=
  let arr := s.stamp
  let src := s.time.count
  (streamIds.filter fun k => s.bound k 5 (n - 1) typ && s.domOn 7).foldl (fun t k =>
    t.queueWrite k ⟨arr, 0, typ, 3, src, vals, BitVec.ofNat 32 (mode % 256 + 256 * sats), 0⟩) s

/-- Write a record into a DRAM ring at its next place (R227, R229): nothing while DDR is off or the ring lies outside. -/
def State.gnRing (s : State) (base log widx : Nat) (bytes : List Byte) : State :=
  let a := base / 4096 * 4096 + bytes.length * (widx % 2 ^ log)
  if s.domOn 13 && s.inSramOrDram a bytes.length then s.storeBytes a bytes else s

/-- RING_LOG2, 8 to 20. -/
def ringLog (n : Nat) : Nat := max 8 (min 20 n)

/-- Write one observation record. -/
def State.obsRecord (s : State) (b : List Byte) : State :=
  let lg := ringLog (s.get F.GN_OBS_RING_LOG2)
  let w := s.get F.GN_OBS_WIDX_WIDX
  let s := s.gnRing (s.get F.GN_OBS_BL_BASE_LO + 2 ^ 32 * s.get F.GN_OBS_BH_BASE_HI) lg w (b.take 32 ++ List.replicate (32 - b.length) 0)
  s.set F.GN_OBS_WIDX_WIDX ((w + 1) % 2 ^ lg)

/-- The header record of an epoch. -/
def State.obsHeader (s : State) (n : Nat) : List Byte :=
  leBytes 2 0xFFFF ++ List.replicate 6 0 ++ leBytes 8 s.stamp.toNat ++ leBytes 8 (n % 256) ++ List.replicate 8 0

/-- The record of tracking channel n (R227). -/
def State.obsBytes (s : State) (n : Nat) (o : ObsIn) : List Byte :=
  let sys := s.get (F.GN_CH_CTRL_SYS n)
  leBytes 2 n ++ leBytes 1 sys ++ leBytes 1 (if sys = 3 then o.slot.toNat else s.get (F.GN_CH_CTRL_SV n))
    ++ leBytes 1 (s.get (F.GN_CH_CTRL_SIG n) + 16 * s.get (F.GN_CH_CTRL_ANT n)) ++ [o.flags] ++ leBytes 2 (s.get (F.GN_CH_STAT_CN0 n))
    ++ leBytes 8 o.range.toNat ++ leBytes 8 o.phase.toNat ++ leBytes 4 o.dop.toNat ++ leBytes 4 o.lock.toNat

/-- The C/N0 of a channel that tracks. -/
def State.gnChannel (s : State) (c : Nat × Nat) : State :=
  if 192 ≤ c.1 || s.get (F.GN_CH_STAT_STATE c.1) = 0 then s else s.set (F.GN_CH_STAT_CN0 c.1) c.2

/-- The channels that track. -/
def State.gnTracking (s : State) : List Nat := (List.range 192).filter fun n => s.get (F.GN_CH_STAT_STATE n) == 2

/-- The satellites used of each system that SYS_EN takes: GPS, Galileo, BeiDou, GLONASS. -/
def State.gnSats (s : State) (g : GnssEpoch) : List Nat :=
  (List.range 4).map fun k => if (s.get F.GN_CFG_SYS_EN / 2 ^ k) % 2 = 1 then g.sats.getD k 0 else 0

/-- GN_ISO shows the offsets in use (R230). -/
def State.showIso (s : State) : State := (List.range 3).foldl (fun t k => t.setWord (R.GN_ISO k) (t.gn.iso.getD k 0)) s

/-- The receiver clock, the offsets of the systems in use and GLONASS's biases as solved; a broadcast GPS-Galileo offset of the last
24 h replaces the solved one. GN_ISO shows those in use; the keep memory holds the latest of each system (R230, R237). -/
def State.gnIso (s : State) (g : GnssEpoch) : State :=
  let used := s.gnSats g
  let inUse (k : Nat) : Bool := used.getD (k + 1) 0 != 0
  let gal := match s.gn.ggto with
    | some v => if s.flag F.GN_CFG_GGTO_USE && decide (s.now ≤ v.2 + 86400000000000) then v.1 else g.iso.getD 0 0
    | none => g.iso.getD 0 0
  let pick (k : Nat) : Word := if !inUse k then s.gn.iso.getD k 0 else if k = 0 then gal else g.iso.getD k 0
  let s := s.modGn fun x => { x with iso := (List.range 3).map pick, clk := g.clk, bias := if inUse 2 then g.bias.take 14 else x.bias }
  (List.range 3).foldl (fun t k => t.setWord (R.GN_ISO k) (if inUse k then pick k else 0)) s

/-- Corrections are applied while the age of the CORRECTIONS stream is within AGE_STALE (R231). -/
def State.corrOk (s : State) : Bool :=
  match s.corrStream, s.gn.corr with
  | some n, c :: _ => decide (s.now ≤ c.2.1 + s.get (F.FE_SC_AGE_AGE_STALE n) * 1000000)
  | _, _ => false

/-- The reference station of an RTCM frame. -/
def corrStation (b : List Byte) : Nat := leNat ((b.drop 4).take 2).reverse % 4096

/-- Is message 1230 held from the station of the corrections (R231)? -/
def State.gloBias (s : State) : Bool :=
  match s.gn.corr.find? (·.1 == 1230), s.gn.corr.find? (·.1 != 1230) with
  | some a, some b => corrStation a.2.2 == corrStation b.2.2
  | _, _ => false

/-- The ratio that judges a fix: GLONASS's ambiguities take part in it only with message 1230 (R231). -/
def State.fixRatio (s : State) (p : GnPos) : Word64 := if s.gloBias then p.ratio else p.ratioNoGlo

/-- A position's mode (R231): 4 RTK fixed, 5 RTK float, 1 single point with four satellites and one per further system, 0 none. -/
def State.gnMode (s : State) (g : GnssEpoch) (p : GnPos) : Nat :=
  let used := s.gnSats g
  let rtk := s.flag F.GN_CFG_RTK_EN && s.corrOk && p.carrier
  if rtk && !flt (s.fixRatio p) (k64 3 1) && fisFin (s.fixRatio p) then 4
  else if rtk then 5
  else if 4 + ((used.filter fun n => n != 0).length - 1) ≤ used.foldl (· + ·) 0 then 1
  else 0

/-- Is the baseline fixed (R232): HDG_EN with A1 in use, BL_MM at least 1000 and the length found within TOL_MM of it? -/
def State.hdgFix (s : State) (g : GnssEpoch) : Option Word64 :=
  let bl := s.get F.GN_HDG_BL_MM
  let tol := s.get F.GN_HDG_TOL_MM
  match g.hdg with
  | some (a, len) =>
    if s.flag F.GN_CFG_HDG_EN && s.flag F.GN_CFG_ANT1_EN && decide (1000 ≤ bl ∧ bl ≤ len + tol ∧ len ≤ bl + tol) then some a else none
  | none => none

/-- Is an antenna in use? -/
def State.antUsed (s : State) (a : Nat) : Bool := a == 0 || a == 1 && s.flag F.GN_CFG_ANT1_EN

/-- FIX of a mode. -/
def fixOf (m : Nat) : Nat := if m = 4 then 3 else if m = 5 then 2 else m

/-- GNSS_EPOCH: at an epoch the receiver solves and writes the entries of its streams, the velocities of R223 and the
observations; an output without a solution writes none (R222, R223, R227, R231, R232). FIX is the better antenna's
(log entry 213). -/
def State.gnssEpoch (s : State) (g : GnssEpoch) : State :=
  let s := s.advanceTo s.nextEpoch
  let s := (g.chans.foldl State.gnChannel s).gnIso g
  let sats := (s.gnSats g).foldl (· + ·) 0
  let pos := (g.pos.map fun p => (p, s.gnMode g p)).filter fun p => s.antUsed p.1.ant.val && p.2 != 0
  let hdg := s.hdgFix g
  let fix := pos.foldl (fun m p => max m (fixOf p.2)) 0
  let s := ((((s.set F.GN_STAT_FIX fix).setFlag F.GN_STAT_HDG_FIX hdg.isSome).setFlag F.GN_STAT_CORR_OK s.corrOk).set F.GN_STAT_NSV
    (min 255 sats)).set F.GN_STAT_NCH s.gnTracking.length
  let s := pos.foldl (fun t p => t.gnStream (1 + p.1.ant.val) 1 p.1.vals p.2 sats) s
  let s := match pos with
    | p :: _ => s.modGn fun x => { x with lastPos := p.1.vals }
    | [] => s
  let s := match hdg with
    | some a => s.gnStream 3 4 [a] 4 sats
    | none => s
  let vel := g.vel.filter fun p => s.antUsed p.1
  let s := vel.foldl (fun t p => t.gnStream (4 + p.1) 7 p.2 1 sats) s
  let s := match vel with
    | p :: _ => s.modGn fun x => { x with lastVel := p.2 }
    | [] => s
  let s := match g.tai with
    | some t => s.gnStream 6 9 [t] 1 sats
    | none => s
  let tdcp := (g.tdcp.filter fun p => s.antUsed p.1 && decide (4 ≤ p.2.1)).map fun p => (p.1, p.2.2)
  let s := if s.domOn 7 then s.modEst fun e => { e with tdcp := tdcp } else s
  if s.flag F.GN_OBS_EN then
    let ch := s.gnTracking
    let rec' (n : Nat) : List Byte := s.obsBytes n ((g.obs.find? fun o => o.ch == n).getD ⟨n, 0, 0, 0, 0, 0, 0⟩)
    (s.obsHeader ch.length :: ch.map rec').foldl State.obsRecord s
  else s

/-- GNSS_EPOCH (R222). -/
def execGnssEpoch (g : GnssEpoch) (s : State) : Host.Outcome State Fault Refusal :=
  s.ends (if s.gnOn then s.gnssEpoch g else s)

/-! Acquisition (R220, R224, R225). -/

/-- Is a signal index of a band one of R220's table, with the system it belongs to? -/
def signalOf (sig : Nat) : Option Nat :=
  match sig with
  | 0 => some 0 | 1 => some 0 | 2 => some 1 | 3 => some 2 | 4 => some 3
  | 8 => some 0 | 9 => some 1 | 10 => some 2
  | _ => none

/-- The length of a signal's primary code in ms (R224). -/
def codeMs (sig : Nat) : Nat := if sig = 2 then 4 else if sig = 1 || sig = 3 then 10 else 1

/-- Is a signal of a satellite one the receiver tracks? -/
def signalOk (sys sv sig : Nat) : Bool := signalOf sig == some sys && decide (0 < sv) && (sys != 3 || decide (sv ≤ 14))

/-- The fields of a request word. -/
def acqSys (v : Word) : Nat := F.GN_ACQ_REQ_SYS.of v
def acqSv (v : Word) : Nat := F.GN_ACQ_REQ_SV.of v
def acqSig (v : Word) : Nat := F.GN_ACQ_REQ_SIG.of v
def acqCoh (v : Word) : Nat := F.GN_ACQ_REQ_COH_MS.of v
def acqNcoh (v : Word) : Nat := F.GN_ACQ_REQ_NCOH.of v

/-- Is a search within R220 and R224? -/
def acqOk (v dop : Word) : Bool :=
  let ctr := (BitVec.ofNat 16 dop.toNat).toInt
  let span := dop.toNat / 65536
  signalOk (acqSys v) (acqSv v) (acqSig v) && decide (1 ≤ acqCoh v) && decide (acqCoh v ≤ 10) && acqCoh v % codeMs (acqSig v) == 0
    && decide (1 ≤ acqNcoh v) && decide (acqNcoh v ≤ 100) && decide (ctr.natAbs ≤ 10000) && decide (span ≤ 10000)

/-- How long a search takes in ns: its snapshot, then bins × NCOH × 20 µs (R224). -/
def acqNs (v dop : Word) : Nat :=
  let bins := dop.toNat / 65536 * 4 * acqCoh v / 1000 + 1
  acqNcoh v * acqCoh v * 1000000 + bins * acqNcoh v * 20000

/-- Show the queue, and start the oldest search when none runs. -/
def State.acqNext (s : State) : State :=
  let now := s.now
  let s := match s.gn.searching, s.gn.acq with
    | none, q :: l => s.modGn fun g => { g with searching := some (q.1, q.2, now, false), acq := l }
    | _, _ => s
  s.set F.GN_ACQ_RES_QLEN s.gn.acq.length

/-- A write of GN_ACQ_REQ; GO submits a search, refuses it, or finds it bad (R225). -/
def acqReqWrite (s : State) (d : Dom) (v : Word) : State × CpSt :=
  s.writeGuard d R.GN_ACQ_REQ fun s =>
    let s := s.setWord R.GN_ACQ_REQ (v &&& 0x03FFFFFF#32)
    let dop := s.word R.GN_ACQ_DOP
    if F.GN_ACQ_REQ_GO.of v = 0 then (s, .ok)
    else if s.flag F.GN_CFG_AUTO || decide (16 ≤ s.gn.acq.length) then (s.set F.GN_ACQ_RES_RES 3, .ok)
    else if !acqOk v dop then (s.set F.GN_ACQ_RES_RES 2, .ok)
    else ((s.modGn fun g => { g with acq := g.acq ++ [(v, dop)] }).acqNext, .ok)

/-- ACQ_REQUEST: a write of GN_ACQ_REQ with GO (R225). -/
def execAcqRequest (d : Dom) (v : Word) (s : State) : Host.Outcome State Fault Refusal :=
  s.ends (acqReqWrite s d (v ||| 0x80000000#32)).1

/-- AUTO_SEARCH: the sequencer plans a search of its own and starts it (R225); which one is open. -/
def execAutoSearch (req dop : Word) (s : State) : Host.Outcome State Fault Refusal :=
  let now := s.now
  s.ends (if s.gnOn && s.flag F.GN_CFG_AUTO && s.gn.searching.isNone && acqOk req dop then
    s.modGn fun g => { g with searching := some (req, dop, now, true) } else s)

/-- A channel begins to track: handover (R226). -/
def State.channelStart (s : State) (n : Nat) (w : Word) : State :=
  let s := (s.setWord (R.GN_CH_CTRL n) w).set (F.GN_CH_STAT_STATE n) 1
  s.modGn fun g => { g with lostAt := g.lostAt.filter fun e => e.1 != n }

/-- ACQ_COMPLETE: a search ends with FOUND or NOT_FOUND; under AUTO a success hands over to the lowest free channel
(R224, R225). -/
def execAcqComplete (k : AcqPeak) (s : State) : Host.Outcome State Fault Refusal :=
  s.ends (
    match s.gn.searching with
    | none => s
    | some q =>
      let s := (s.advanceTo (q.2.2.1 + acqNs q.1 q.2.1)).pmu 177
      let buf := s.get F.GN_ACQBUFL_BUF_LO + 2 ^ 32 * s.get F.GN_ACQBUFH_BUF_HI
      let s := if s.domOn 13 && s.inSramOrDram (buf / 4096 * 4096) 0x800000 then s.storeBytes (buf / 4096 * 4096) (k.snap.take 0x800000) else s
      let found := decide (s.get F.GN_ACQ_MIN_ACQ_MIN ≤ k.cn0.toNat) && decide (3 ≤ k.margin.toNat)
      let s := s.modGn fun g => { g with searching := none }
      let s :=
        if found then
          let s := ((s.set F.GN_ACQ_RES_RES 0).set F.GN_ACQ_RES_CODE_PH k.code.toNat).set F.GN_ACQ_RES_CN0 k.cn0.toNat
          let s := s.setWord R.GN_ACQ_RDOP k.dop
          if q.2.2.2 then
            match (List.range 192).find? fun n => s.get (F.GN_CH_STAT_STATE n) == 0 with
            | none => s
            | some n =>
              let w := s.word (R.GN_CH_CTRL n)
              let w := (F.GN_CH_CTRL_EN n).into 1 w
              let w := (F.GN_CH_CTRL_SYS n).into (acqSys q.1) w
              let w := (F.GN_CH_CTRL_SV n).into (acqSv q.1) w
              let w := (F.GN_CH_CTRL_SIG n).into (acqSig q.1) w
              s.channelStart n ((F.GN_CH_CTRL_ANT n).into (F.GN_ACQ_REQ_ANT.of q.1) w)
          else s
        else s.set F.GN_ACQ_RES_RES 1
      s.acqNext)

/-! Channels (R226). -/

/-- A channel's early-to-late spacing in 0.05 chip: 0 is read as 1, above 20 as 20 (R226). -/
def State.chSpacing (s : State) (n : Nat) : Nat := max 1 (min 20 (s.get (F.GN_CH_CTRL_SP n)))

/-- Where a channel's correlators lie, in 0.025 chip from prompt: early, late, very-early, very-late and noise (R226). Their sums are
the receiver's measurement (log entry 250). -/
def State.chCorrelators (s : State) (n : Nat) : List Int :=
  let sp : Int := s.chSpacing n
  let v := min (2 * sp) 40
  [-sp, sp, -v, v, 4000]

/-- A channel's code discriminator over its sums E, L, VE and VL (R226). -/
def State.chDiscr (s : State) (n : Nat) (e l ve vl : Int) : Int :=
  if s.flag (F.GN_CH_CTRL_MP_MODE n) then 2 * (e - l) - (ve - vl) else e - l

/-- A channel stops tracking. -/
def State.channelStop (s : State) (n : Nat) : State :=
  ((s.set (F.GN_CH_STAT_STATE n) 0).set (F.GN_CH_STAT_CN0 n) 0).modGn fun g => { g with lostAt := g.lostAt.filter fun e => e.1 != n }

/-- A write of GN_CHn.CTRL: discarded in PULL_IN and TRACK unless it clears EN; with AUTO at 0 it assigns the channel; under
AUTO the sequencer alone sets EN (R226). -/
def chCtrlWrite (s : State) (d : Dom) (n : Nat) (v : Word) : State × CpSt :=
  s.writeGuard d (R.GN_CH_CTRL n) fun s =>
    let st := s.get (F.GN_CH_STAT_STATE n)
    let w := v &&& 0x003FFFFF#32
    if (F.GN_CH_CTRL_EN n).of v = 0 then ((s.setWord (R.GN_CH_CTRL n) w).channelStop n, .ok)
    else if st = 1 || st = 2 then (s, .notNow)
    else if s.flag F.GN_CFG_AUTO then (s.setWord (R.GN_CH_CTRL n) ((F.GN_CH_CTRL_EN n).into (s.get (F.GN_CH_CTRL_EN n)) w), .ok)
    else if signalOk ((F.GN_CH_CTRL_SYS n).of v) ((F.GN_CH_CTRL_SV n).of v) ((F.GN_CH_CTRL_SIG n).of v) then (s.channelStart n w, .ok)
    else ((s.setWord (R.GN_CH_CTRL n) w).channelStop n, .ok)

/-- CHANNEL_ASSIGN: a write of GN_CHn.CTRL (R226). -/
def execChannelAssign (d : Dom) (n : Fin 192) (v : Word) (s : State) : Host.Outcome State Fault Refusal :=
  s.ends (chCtrlWrite s d n.val v).1

/-- CHANNEL_PULL_IN_LOCK: frequency and phase lock (R226). -/
def execChannelPullInLock (n : Fin 192) (s : State) : Host.Outcome State Fault Refusal :=
  s.ends (if s.gnOn && s.get (F.GN_CH_STAT_STATE n.val) == 1 then s.set (F.GN_CH_STAT_STATE n.val) 2 else s)

/-- CHANNEL_LOCK_LOST: a tracking channel loses lock (R226). -/
def execChannelLockLost (n : Fin 192) (s : State) : Host.Outcome State Fault Refusal :=
  let now := s.now
  s.ends (if s.gnOn && (s.get (F.GN_CH_STAT_STATE n.val) == 1 || s.get (F.GN_CH_STAT_STATE n.val) == 2) then
    (s.set (F.GN_CH_STAT_STATE n.val) 3).modGn fun g => { g with lostAt := (n.val, now) :: g.lostAt.filter fun e => e.1 != n.val }
    else s)

/-- CHANNEL_LOST_RELEASE: under AUTO a LOST channel is released after 2 s (R226). -/
def execChannelLostRelease (n : Fin 192) (s : State) : Host.Outcome State Fault Refusal :=
  s.ends (
    if !(s.gnOn && s.flag F.GN_CFG_AUTO && s.get (F.GN_CH_STAT_STATE n.val) == 3) then s
    else match s.gn.lostAt.find? fun e => e.1 == n.val with
      | none => s
      | some e => ((s.advanceTo (e.2 + 2000000000)).setFlag (F.GN_CH_CTRL_EN n.val) false).channelStop n.val)

/-! Navigation messages (R228, R229). -/

/-- The bits of a unit, in order of arrival (R229). -/
def WordUnit.bits (u : WordUnit) : List Bool :=
  (u.data.take 96).flatMap fun b => (List.range 8).map fun i => b.getLsbD (7 - i)

/-- The sum modulo 2 of some of a word's bits. -/
def xorBits (l : List Bool) (ks : List Nat) : Bool := ks.foldl (fun a k => a != l.getD k false) false

/-- For each parity bit of an LNAV word its data bits from 1, and whether it takes bit 30 of the word before (else bit 29), as
IS-GPS-200 gives them (PRESUMED, log entry 251). -/
def lnavTaps : List (List Nat × Bool) :=
  [([1, 2, 3, 5, 6, 10, 11, 12, 13, 14, 17, 18, 20, 23], false), ([2, 3, 4, 6, 7, 11, 12, 13, 14, 15, 18, 19, 21, 24], true),
   ([1, 3, 4, 5, 7, 8, 12, 13, 14, 15, 16, 19, 20, 22], false), ([2, 4, 5, 6, 8, 9, 13, 14, 15, 16, 17, 20, 21, 23], true),
   ([1, 3, 5, 6, 7, 9, 10, 14, 15, 16, 17, 18, 21, 22, 24], true), ([3, 5, 6, 8, 9, 10, 11, 13, 15, 19, 22, 23, 24], false)]

/-- Does an LNAV word keep its parity after bits 29 and 30 of the word before it (R228)? -/
def lnavWord (d29 d30 : Bool) (w : List Bool) : Bool :=
  let src := false :: (w.take 24).map fun b => b != d30
  (List.range 6).all fun i =>
    let t := lnavTaps.getD i ([], false)
    w.getD (24 + i) false == (xorBits src t.1 != (if t.2 then d30 else d29))

/-- The parities of an LNAV subframe's ten words, a bit each; the word before the first ends in two zeros (log entry 251). -/
def lnavPass (l : List Bool) : Nat :=
  ((List.range 10).map fun i =>
    let b (k : Nat) : Bool := i != 0 && l.getD (30 * i - k) false
    if lnavWord (b 2) (b 1) ((l.drop (30 * i)).take 30) then 2 ^ i else 0).sum

/-- The bits, from 1 as GLONASS numbers them, that each sum of its Hamming code takes (PRESUMED, log entry 251). -/
def gloTaps : List (List Nat) :=
  let span (a b : Nat) : List Nat := (List.range (b + 1 - a)).map (· + a)
  [[1, 9, 10, 12, 13, 15, 17, 19, 20, 22, 24, 26, 28, 30, 32, 34, 35, 37, 39, 41, 43, 45, 47, 49, 51, 53, 55, 57, 59, 61, 63, 65, 66, 68, 70,
     72, 74, 76, 78, 80, 82, 84],
   [2, 9, 11, 12, 14, 15, 18, 19, 21, 22, 25, 26, 29, 30, 33, 34, 36, 37, 40, 41, 44, 45, 48, 49, 52, 53, 56, 57, 60, 61, 64, 65, 67, 68, 71,
     72, 75, 76, 79, 80, 83, 84],
   3 :: span 10 12 ++ span 16 19 ++ span 23 26 ++ span 31 34 ++ span 38 41 ++ span 46 49 ++ span 54 57 ++ span 62 65 ++ span 69 72
     ++ span 77 80 ++ [85],
   4 :: span 13 19 ++ span 27 34 ++ span 42 49 ++ span 58 65 ++ span 73 80, 5 :: span 20 34 ++ span 50 65 ++ span 81 85,
   6 :: span 35 65, 7 :: span 66 85, span 1 85]

/-- Is the Hamming code of an L1 string clean? Bit 85 arrives first (R228). -/
def gloPass (l : List Bool) : Bool := gloTaps.all fun t => !xorBits l (t.map fun k => 85 - k)

/-- Does CRC-24Q hold over a unit's bits, the CRC last (R228; log entry 251)? -/
def crcPass (l : List Bool) : Bool := l.foldl (fun c b => crc24Bit (if b then c ^^^ 0x800000#24 else c)) 0#24 == 0#24

/-- The CHECK field's low bits: a 1 for each check that passed (R228). -/
def WordUnit.pass (u : WordUnit) : Nat :=
  let l := u.bits.take u.nbits.toNat
  if u.msg.val = 1 then lnavPass l else if (if u.msg.val = 7 then gloPass l else crcPass l) then 1 else 0

/-- Did every check of a unit pass? LNAV has one per word, the others one (R228). -/
def WordUnit.ok (u : WordUnit) : Bool := u.pass == if u.msg.val = 1 then 1023 else 1

/-- The 128 bytes of a word record (R229). -/
def wordRecord (u : WordUnit) (st : Stamp) : List Byte :=
  [u.sys, u.sv, BitVec.ofNat 8 u.msg.val, BitVec.ofNat 8 ((if u.ant then 1 else 0) + (if u.band then 2 else 0))]
    ++ leBytes 2 u.unit.toNat ++ leBytes 2 u.nbits.toNat ++ leBytes 4 (u.pass + (if u.ok then 2 ^ 31 else 0))
    ++ List.replicate 4 0 ++ leBytes 6 st.toNat ++ List.replicate 10 0
    ++ (u.data.take 96 ++ List.replicate (96 - u.data.length) 0)

/-- WORD_RECORD: a message unit is checked and written, pass or fail; a unit that passes may complete an ephemeris, which
replaces the one in use when its issue differs, an almanac, or give the GPS-Galileo offset (R228 to R230); one of LNAV or CNAV
gives the GPS UTC parameters while GNSS is the reference in use (R247). -/
def execWordRecord (u : WordUnit) (s : State) : Host.Outcome State Fault Refusal :=
  s.ends (
    if !s.gnOn then s
    else
      let s := if s.flag F.GN_WREC_EN then
          let lg := ringLog (s.get F.GN_WREC_RING_LOG2)
          let w := s.get F.GN_WREC_WIDX_WIDX
          let s := s.gnRing (s.get F.GN_WREC_BL_BASE_LO + 2 ^ 32 * s.get F.GN_WREC_BH_BASE_HI) lg w
            (wordRecord u (stampOf (s.now - u.ago)))
          s.set F.GN_WREC_WIDX_WIDX ((w + 1) % 2 ^ lg)
        else s
      if !u.ok then s
      else
        let now := s.now
        let key (e : Nat × Nat × Nat) : Bool := e.1 == u.sys.toNat && e.2.1 == u.sv.toNat
        let s := match u.eph with
          | some i =>
            if s.gn.eph.any fun e => key e && e.2.2 == i then s
            else s.modGn fun g => { g with eph := (u.sys.toNat, u.sv.toNat, i) :: g.eph.filter fun e => !key e }
          | none => s
        let s := match u.ggto with
          | some v => if u.msg.val = 4 then s.modGn fun g => { g with ggto := some (v, now) } else s
          | none => s
        let s := match u.utc with
          | some (v, leap, days) =>
            if (u.msg.val = 1 || u.msg.val = 2) && s.get F.TIME_STAT_SRC = 1 then s.leapFrom v.toNat leap.val days else s
          | none => s
        if u.almanac then s.modGn fun g => { g with almanac := true } else s)

/-! Antenna bias (R221). -/

/-- The bias current of an antenna reads this many mA; OPEN is shown below 2 and raises the source when it appears. -/
def State.antenna (s : State) (a ma : Nat) : State :=
  let was := s.flag (F.GN_ANT_OPEN a)
  let s := (s.set (F.GN_ANT_I_MA a) ma).setFlag (F.GN_ANT_OPEN a) (decide (ma < 2))
  if !was && decide (ma < 2) then s.event (306 + a) (s.word (R.GN_ANT a)) .none else s

/-- Is an antenna's bias switch closed? -/
def State.biasOn (s : State) (a : Nat) : Bool := s.domOn 10 && s.flag (F.GN_ANT_BIAS_EN a)

/-- ANTENNA_OPEN: the bias current falls below 2 mA or rises above it again (R221). -/
def execAntennaOpen (a : Fin 2) (ma : Byte) (s : State) : Host.Outcome State Fault Refusal :=
  s.ends (if s.biasOn a.val && decide (ma.toNat ≤ 120) then s.antenna a.val ma.toNat else s)

/-- ANTENNA_SHORT: a current above 120 mA for 10 µs opens the switch, sets SHORT and clears BIAS_EN; the sense reads up to 200 mA, and no
current flows from then on, of which OPEN is not judged (R221; log entry 249). -/
def execAntennaShort (a : Fin 2) (ma : Byte) (s : State) : Host.Outcome State Fault Refusal :=
  s.ends (if s.biasOn a.val && decide (120 < ma.toNat) then
      let s := ((s.antenna a.val (min 200 ma.toNat)).advanceBy 10000).setFlag (F.GN_ANT_BIAS_EN a.val) false
      let s := (s.set (F.GN_ANT_I_MA a.val) 0).setFlag (F.GN_ANT_SHORT a.val) true
      s.event (306 + a.val) (s.word (R.GN_ANT a.val)) .none
    else s)

/-- A write of GN_ANTa: BIAS_EN 1 ends SHORT (R221). -/
def antWrite (s : State) (d : Dom) (a : Nat) (v : Word) : State × CpSt :=
  s.writeGuard d (R.GN_ANT a) fun s =>
    let on := v.toNat % 2 = 1
    let s := s.setFlag (F.GN_ANT_BIAS_EN a) on
    (if on then s.setFlag (F.GN_ANT_SHORT a) false
     else (s.set (F.GN_ANT_I_MA a) 0).setFlag (F.GN_ANT_OPEN a) false, .ok)

/-! Windbreaks and the jamming indicator (R233, R234). -/

/-- The centre a windbreak is set to, within ±25,000 kHz. -/
def State.wbCtr (s : State) (q : Nat) : Int := max (-25000) (min 25000 (s.geti (R.GN_WB_CTR q)))

/-- A windbreak's state as its mode gives it: off, or fixed at its centre. -/
def State.wbShow (s : State) (q : Nat) : State :=
  match s.get (F.GN_WB_CFG_MODE q) with
  | 1 => (s.setFlag (F.GN_WB_ST_LOCKED q) false).seti (R.GN_WB_FREQ q) (s.wbCtr q)
  | 2 => s
  | _ => (s.setFlag (F.GN_WB_ST_LOCKED q) false).setWord (R.GN_WB_FREQ q) 0

/-- A write of a windbreak's configuration or centre; WIDTH_KHZ is clamped to 10 to 2000 (R233). -/
def wbWrite (s : State) (d : Dom) (q off : Nat) (v : Word) : State × CpSt :=
  let r := s.plainWrite d (if off = 0 then R.GN_WB_CFG q else R.GN_WB_CTR q) v
  let clamp (t : State) : State := t.set (F.GN_WB_CFG_WIDTH_KHZ q) (max 10 (min 2000 (t.get (F.GN_WB_CFG_WIDTH_KHZ q))))
  (if r.2 = .ok then (if off = 0 then clamp r.1 else r.1).wbShow q else r.1, r.2)

/-- The next of the instants every 10 ms, this one too if it has not been used. -/
def State.next10 (s : State) (last : Nat) : Nat := if s.now % 10000000 = 0 && s.now ≠ last then s.now else nextMultiple s.now 10000000

/-- One path's automatic windbreaks, lowest first, with the lines (kHz, dB above the floor) not yet taken. -/
def State.wbPath (s : State) (p : Nat) (lines : List (Int × Nat)) : State :=
  ((List.range 4).foldl (fun (acc : State × List (Int × Nat)) w =>
    let t := acc.1
    let q := 4 * p + w
    if t.get (F.GN_WB_CFG_MODE q) ≠ 2 then acc
    else
      let c := t.wbCtr q
      let sp := t.get (F.GN_WB_CFG_SPAN_KHZ q)
      let best := (acc.2.filter fun l => decide ((l.1 - c).natAbs ≤ sp) && decide (t.get (F.GN_WB_CFG_DET_DB q) ≤ l.2)).foldl
        (fun (b : Option (Int × Nat)) l => match b with
          | none => some l
          | some k => if k.2 < l.2 then some l else some k) none
      match best with
      | none => ((t.setFlag (F.GN_WB_ST_LOCKED q) false).setWord (R.GN_WB_FREQ q) 0, acc.2)
      | some l =>
        let was := t.flag (F.GN_WB_ST_LOCKED q)
        let t := (t.setFlag (F.GN_WB_ST_LOCKED q) true).seti (R.GN_WB_FREQ q) l.1
        (if was then t else t.event 308 (BitVec.ofNat 32 (p + 256 * w)) .crumb, acc.2.erase l)) (s, lines)).1

/-- WINDBREAK_SEARCH: every 10 ms each automatic windbreak takes the strongest line of its span (R233). -/
def execWindbreakSearch (lines : List (Fin 4 × Int × Nat)) (s : State) : Host.Outcome State Fault Refusal :=
  let at' := s.next10 s.gn.wbAt
  s.ends (if !s.domOn 10 then s
    else (List.range 4).foldl (fun t p => t.wbPath p ((lines.filter fun l => l.1.val == p).map (·.2)))
      ((s.advanceTo at').modGn fun g => { g with wbAt := at' }))

/-- The quiet floor and gain of a path: the last JI_CAL's, else OTP trim's (log entry 35). -/
def State.gnQuiet (s : State) (p : Nat) : Int × Int := (s.gn.quiet.getD p none).getD (Config.quietTrim p)

/-- One path's jamming indicator, from its noise floor after the windbreaks and its gain (R234). -/
def State.jiPath (s : State) (p : Nat) (l : Int × Int) : State :=
  let q := s.gnQuiet p
  let nr := (l.1 - q.1).toNat
  let ar := (q.2 - l.2).toNat
  let ji := min 255 (10 * nr + 4 * ar)
  let warn := s.get F.GN_JICFG_JI_WARN
  let was := s.get (F.GN_JI_JI p)
  let s := ((s.set (F.GN_JI_JI p) ji).set (F.GN_JI_NR_DB p) (min 255 nr)).set (F.GN_JI_AR_DB p) (min 255 ar)
  let armed := s.gn.jiArmed.getD p true || decide (was + 16 < warn)
  let s := s.modGn fun g => { g with level := padMod (0, 0) p (fun _ => l) g.level,
                                     jiArmed := padMod true p (fun _ => decide (ji + 16 < warn) || (armed && !decide (warn ≤ ji))) g.jiArmed }
  if armed && decide (was < warn) && decide (warn ≤ ji) then s.event 309 (s.word (R.GN_JI p)) .crumb else s

/-- JAMMING_INDICATOR: every 10 ms each path computes its indicator from its floor and gain in dB (R234). -/
def execJammingIndicator (levels : List (Int × Int)) (s : State) : Host.Outcome State Fault Refusal :=
  let at' := s.next10 s.gn.jiAt
  s.ends (if !s.domOn 10 then s
    else (List.range 4).foldl (fun t p => t.jiPath p (levels.getD p (t.gn.level.getD p (0, 0))))
      ((s.advanceTo at').modGn fun g => { g with jiAt := at' }))

/-- A write of GN_JICFG: CAL captures the present floors and gains as the quiet values (R234). -/
def jiCfgWrite (s : State) (d : Dom) (v : Word) : State × CpSt :=
  s.writeGuard d R.GN_JICFG fun s =>
    let s := s.setWord R.GN_JICFG (v &&& 0xFF#32)
    (if F.GN_JICFG_CAL.of v = 1 then s.modGn fun g => { g with quiet := g.level.map some } else s, .ok)

/-- JI_CAL: a write of GN_JICFG.CAL that leaves JI_WARN as it is (R234). -/
def execJiCal (d : Dom) (s : State) : Host.Outcome State Fault Refusal :=
  s.ends (jiCfgWrite s d (s.word R.GN_JICFG ||| 0x100#32)).1

/-! Time quality, sleep (R235 to R238). -/

/-- GNSS_TIME_SOLUTION: a time solution moves GN_TQ and is delivered to the time base (R235, R236). -/
def execGnssTimeSolution (ofs : Int) (sigma : Nat) (s : State) : Host.Outcome State Fault Refusal :=
  s.ends (if s.gnOn then s.gnSolution ofs sigma else s)

/-- GNSS_TIME_LOSS: LOSS_MS without a time solution; a slew stops where it stands (R235). -/
def execGnssTimeLoss (s : State) : Host.Outcome State Fault Refusal :=
  s.ends (
    let q := s.get F.GN_TQ_TQ
    if q = 1 || q = 3 then
      let s := (s.advanceTo (s.gn.solAt + max 1 (s.get F.GN_HOLD_LOSS_MS) * 1000000)).setGnTq 2
      if q = 3 && s.useRef = 1 && s.tq = 3 then s.toHoldover else s
    else s)

/-- HDG_FIX falls with the conditions of R232. -/
def State.hdgDrop (s : State) : State :=
  if s.flag F.GN_CFG_HDG_EN && s.flag F.GN_CFG_ANT1_EN && decide (1000 ≤ s.get F.GN_HDG_BL_MM) then s else s.setFlag F.GN_STAT_HDG_FIX false

/-- A write of GN_HDG (R232). -/
def gnHdgWrite (s : State) (d : Dom) (v : Word) : State × CpSt :=
  let r := s.plainWrite d R.GN_HDG v
  if r.2 = .ok then (r.1.hdgDrop, .ok) else r

/-- A write of GN_CFG: EN reads 1 while GNBB is ON; writing 0 powers GNBB and GNRF down (R237). -/
def gnCfgWrite (s : State) (d : Dom) (v : Word) : State × CpSt :=
  s.writeGuard d R.GN_CFG fun s =>
    let s := (s.setWord R.GN_CFG (v &&& 0x003FFFFF#32 ||| 1#32)).hdgDrop
    (if v.toNat % 2 = 0 then (s.switchOff 9).switchOff 10 else s, .ok)

/-- GNSS_SLEEP: a write of GN_CFG with EN 0 (R237). -/
def execGnssSleep (d : Dom) (v : Word) (s : State) : Host.Outcome State Fault Refusal :=
  s.ends (gnCfgWrite s d (v &&& 0xFFFFFFFE#32)).1

/-- GNBB has powered up: the start is hot when the sleep was shorter than 4 h, the keep memory is intact and the time base has
a time (R237), and then the next PPS edges are late (erratum XE-01); GN_ISO shows the offsets of the keep memory. -/
def State.gnWake (s : State) : State :=
  let hot := match s.gn.sleepAt with
    | some t => decide (s.now < t + 14400000000000) && s.tq != 0
    | none => false
  let s := s.modTime fun t => { t with pps := t.pps.map fun (p : Pps) => { p with late := p.late || hot } }
  ((s.setFlag F.GN_STAT_HOT hot).modGn fun g => { g with sleepAt := none }).showIso

end Sys2Proof.Machine
end

