-- ==== Sys2Proof/Machine/Interrupt.lean ====
section
/-!
DEFINITION. The commands of the interrupt controller and the recorder (22_interrupts, 23_recorder).
-/
namespace Sys2Proof.Machine

/-- What unit chapters say an event writes in the recorder (23_recorder R376, R378, and each unit's chapter). -/
def srcRec (n : Nat) : RecKind :=
  if n ≤ 2 then .loaf else if n ≤ 4 then .crumb
  else if n = 8 || n = 9 then .loaf else if n ≤ 15 then .crumb
  else if n ≤ 20 then .crumb
  else if n = 21 || n = 24 then .loaf
  else if 33 ≤ n && n ≤ 159 then .crumb
  else if n = 160 then .loaf
  else if n = 162 then .crumb
  else if n = 163 || n = 164 then .loaf
  else if 208 ≤ n && n ≤ 231 then .crumb
  else if 232 ≤ n && n ≤ 259 then .crumb
  else if n = 285 then .none
  else if 288 ≤ n && n ≤ 304 then .crumb
  else if n = 308 || n = 309 then .crumb
  else if n = 310 then .loaf
  else .none

/-- INTERRUPT_ARRIVAL: one occurrence of a source's event, with its cause word and its record (R368 to R371). -/
def execInterruptArrival (n : Fin 512) (info : Word) (s : State) : Host.Outcome State Fault Refusal :=
  s.ends (s.event n.val info (srcRec n.val))

/-- INTERRUPT_ENTRY: a processor with IE 1 takes its asserted line, and IE is cleared (R372). -/
def execInterruptEntry (x : Fin 10) (s : State) : Host.Outcome State Fault Refusal :=
  s.ends (if s.flag (F.IC_PIE_IE x.val) && s.flag (F.IC_LEVEL_LINE x.val) then
      (s.setFlag (F.IC_PIE_IE x.val) false).modProc x.val fun p => { p with entered := true }
    else s)

/-- The source of a record is written late-masked when its MASK went 0 to 1 at or after the enqueue (R374). -/
def State.maskedLate (s : State) (n enq : Nat) : Bool :=
  match s.ic.maskAt.lookup n with
  | some t => decide (enq ≤ t)
  | none => false

/-- The level a claim at the present level takes: the highest above it, or ring 0 when polled at level 0
(R373; R370, log entry 10). -/
def State.claimLevel (s : State) (x : Nat) : Option Nat :=
  let cur := s.get (F.IC_LEVEL_CUR x)
  match s.topLevel x cur with
  | some l => some l
  | none => if cur = 0 && decide (0 < (s.ring x 0).unclaimed) && !(s.ring x 0).claimed then some 0 else none

/-- Claim the oldest unclaimed record of ring l (R373, R374): the IC_CLAIM word shows it. -/
def State.claim (s : State) (x l : Nat) : State :=
  let cur := s.get (F.IC_LEVEL_CUR x)
  let head := s.get (F.RING_IDX_HEAD x l)
  let size := s.ringSize x l
  let rec' := (s.ring x l).held.head?
  let src := (rec'.map (·.1)).getD 0
  let late := s.maskedLate src ((rec'.map (·.2)).getD 0)
  let adr := s.ringBase x l + 16 * (head % size)
  let s := if late then s.setByte (adr + 1) (s.byte (adr + 1) ||| 0x10) else s
  let s := s.modProc x fun p => { p with stack := cur :: p.stack, entered := false }
  let s := s.modRing x l fun r => { r with claimed := true }
  let s := s.set (F.RING_IDX_HEAD x l) ((head + 1) % (2 * size))
  let s := s.set (F.IC_LEVEL_CUR x) l
  let s := s.setWord (R.IC_CLAIM x) (BitVec.ofNat 32 (l + 8 + 16 * (head % size) + 2 ^ 16 * src + (if late then 2 ^ 25 else 0)))
  s.refreshLine x

/-- IC_CLAIM: a read of IC_CLAIM by master m, 0 to 9 the processors, 10 HOST (R373). -/
def execIcClaim (x : Fin 10) (m : Fin 11) (s : State) : Host.Outcome State Fault Refusal :=
  s.ends (s.inDomain 1 fun s =>
    if x.val ≠ m.val then s
    else match s.claimLevel x.val with
      | some l => s.claim x.val l
      | none => (s.bump (F.IC_PERR_CLAIM_NONE x.val)).setWord (R.IC_CLAIM x.val) 0)

/-- Complete the claimed record of the current level and pop the stack; the line then follows R372, and a line
still asserted with IE set tail-chains (R375). -/
def State.complete (s : State) (x : Nat) : State :=
  match (s.proc x).stack with
  | [] => s.bump (F.IC_PERR_CPL_EMPTY x)
  | top :: rest =>
    let cur := s.get (F.IC_LEVEL_CUR x)
    let s := s.modRing x cur fun r => if r.claimed then { r with claimed := false, held := r.held.tail } else r
    let s := s.modProc x fun p => { p with stack := rest }
    let s := (s.set (F.IC_LEVEL_CUR x) top).refreshLine x
    if s.flag (F.IC_PIE_IE x) && s.flag (F.IC_LEVEL_LINE x) then
      ((s.bump (F.IC_PERR_CHAIN x)).setFlag (F.IC_PIE_IE x) false).modProc x fun p => { p with entered := true }
    else s

/-- IC_COMPLETE: a write to IC_COMPLETE of processor x by master m (R375). -/
def execIcComplete (x : Fin 10) (m : Fin 11) (s : State) : Host.Outcome State Fault Refusal :=
  s.ends (s.inDomain 1 fun s => if x.val ≠ m.val then s else s.complete x.val)

/-- A write of IC_SWSET (R375). -/
def icSwset (s : State) (d : Dom) (v : Word) : State × CpSt :=
  s.writeGuard d R.IC_SWSET fun s =>
    (s.arriveG (504 + v.toNat % 8) (s.word R.IC_SWINFO) true (v.getLsbD 3), .ok)

/-- IC_SWSET: a write of IC_SWSET causes one arrival of a software source (R375). -/
def execIcSwset (d : Dom) (v : Word) (s : State) : Host.Outcome State Fault Refusal :=
  s.ends (icSwset s d v).1

/-- LOAF_WRITE_END: a loaf's write ends, 3 µs at most after its trigger (R380, R381). -/
def execLoafWriteEnd (s : State) : Host.Outcome State Fault Refusal := s.ends s.loafEnd

/-- Move the cursor to the next higher surviving SEQ (R383). Erratum XE-02 (26_errata): while a follow-on loaf is
being written the update can be lost; whether it is, is a free value (log entry 11). -/
def State.recNext (s : State) : State :=
  let moved := (s.setWord R.REC_CUR (s.word R.REC_CUR + 1)).refreshWindow
  if s.recd.followOn then (if s.free.getLsbD 0 then s.drawn else moved.drawn) else moved

/-- A write of REC_CTL: NEXT moves the cursor, PAGE is stored, CLR_REF clears (R383, R384). -/
def recCtlWrite (s : State) (d : Dom) (v : Word) : State × CpSt :=
  let r := s.plainWrite d R.REC_CTL v
  if r.2 = .ok && v.getLsbD 0 && (d == .host || d == .svc) then (r.1.recNext, .ok) else r

/-- REC_NEXT: a write of 1 to REC_CTL.NEXT (R383); PAGE keeps its value. -/
def execRecNext (d : Dom) (s : State) : Host.Outcome State Fault Refusal :=
  s.ends (recCtlWrite s d (((s.word R.REC_CTL) &&& 2#32) ||| 1#32)).1

/-- A write of REC_CUR (R383). -/
def recCurWrite (s : State) (d : Dom) (v : Word) : State × CpSt :=
  s.writeGuard d R.REC_CUR fun s => ((s.setWord R.REC_CUR v).refreshWindow, .ok)

/-- REC_CUR_WRITE (R383). -/
def execRecCurWrite (d : Dom) (v : Word) (s : State) : Host.Outcome State Fault Refusal :=
  s.ends (recCurWrite s d v).1

/-- Free every record and clear the drop counters; a loaf being written is freed when its write ends; then the crumb
of event 641 (R384). -/
def State.recClear (s : State) (d : Dom) : State × CpSt :=
  if s.run then (s.setFlag F.REC_CTL_CLR_REF true, .notNow)
  else
    let before := s.recd.recs
    let s := { s with recd := { s.recd with recs := before.filter (fun r => some r.seq == s.recd.writing),
                                            clearWriting := s.recd.writing.isSome } }
    let s := (s.setWord R.REC_DROP0 0).setWord R.REC_DROP1 0
    let s := s.afterFree before
    (s.record 641 (if d = .host then 0 else 1) .crumb, .ok)

/-- A write of REC_CLR: keyed (R14), CLEAR in bit 0 (R384). -/
def recClrWrite (s : State) (d : Dom) (v : Word) : State × CpSt :=
  s.writeGuard d R.REC_CLR fun s => s.keyGuard v fun s => if v.getLsbD 0 then s.recClear d else (s, .ok)

/-- REC_CLR_CLEAR: a write of REC_CLR with CLEAR (R384). -/
def execRecClrClear (d : Dom) (v : Word) (s : State) : Host.Outcome State Fault Refusal :=
  s.ends (recClrWrite s d v).1

/-- A write of a ring register (R371): by its own domain, only while the ring is empty and its level is not on the
stack, with SIZE_LOG2 in range and the base in general SRAM and aligned. -/
def ringWrite (s : State) (d : Dom) (x l off : Nat) (v : Word) : State × CpSt :=
  if !((x = 1 && d == .safe) || (x ≠ 1 && d == .svc)) then (s, .denied)
  else
    let busy := !(s.ring x l).held.isEmpty || s.get (F.IC_LEVEL_CUR x) == l && !(s.proc x).stack.isEmpty
      || (s.proc x).stack.any (· == l)
    let lo : Nat := if off = 0 then v.toNat else s.get (F.RING_BL_BASE_LO x l)
    let hiw : Nat := if off = 4 then v.toNat else (s.word (R.RING_BH x l)).toNat
    let size := (hiw / 256) % 16
    let base := lo + 2 ^ 32 * (hiw % 256)
    let bytes := 16 * 2 ^ size
    let okSize := 4 ≤ size && size ≤ 12
    let okBase := (0x1500000 ≤ base && base + bytes ≤ 0x1600000 && base % bytes = 0) || !((hiw / 4096) % 2 == 1) && decide (off = 4)
    if busy || !okSize || !okBase then (s.bump (F.IC_PERR_RING_CFG x), .notNow)
    else if off = 0 then (s.setWord (R.RING_BL x l) v, .ok)
    else (s.setWord (R.RING_BH x l) (v &&& 0x1FFF#32), .ok)

/-- A write of IC_SRCn: sources 0 to 7 by SAFE, every other by HOST and SVC; the time of a 0 to 1 write of MASK is
kept for R374. -/
def icSrcWrite (s : State) (d : Dom) (n : Nat) (v : Word) : State × CpSt :=
  if (n < 8) != (d == .safe) then (s, .denied)
  else if d == .block then (s, .denied)
  else
    let old := s.flag (F.IC_SRC_MASK n)
    let s := s.setWord (R.IC_SRC n) (v &&& 0xFF#32)
    if !old && v.getLsbD 3 then
      let now := s.now
      ({ s with ic := { s.ic with maskAt := (n, now) :: s.ic.maskAt.filter (fun e => e.1 != n) } }, .ok)
    else (s, .ok)

/-- A write of IC_PIE by its own processor (R372): setting IE ends the entry sequence. -/
def icPieWrite (s : State) (d : Dom) (x : Nat) (v : Word) : State × CpSt :=
  if !((x = 1 && d == .safe) || (x = 0 && d == .svc)) then (s, .denied)
  else (s.setWord (R.IC_PIE x) (v &&& 1#32), .ok)

/-- A write of REC_EVCFGw: the bytes of events 0 to 7 by SAFE only, the others by HOST and SVC. -/
def evcfgWrite (s : State) (d : Dom) (w : Nat) (v : Word) : State × CpSt :=
  if (w < 2) != (d == .safe) then (s, .denied)
  else if d == .block then (s, .denied)
  else (s.setWord (R.REC_EVCFG w) (v &&& 0x7F7F7F7F#32), .ok)

end Sys2Proof.Machine
end

