-- ==== Sys2Proof/Machine/Access.lean ====
section
/-!
DEFINITION. Access by address (00_scope R13 to R15; 20_map_otp_boot R336 to R339, R406): what a write or a read of any word
does, register by register where a unit's rule says more than the table, and memory by the domains' rights.
-/
namespace Sys2Proof.Machine

/-! Registers whose writes wait for their unit. -/

/-- Registers whose written value takes effect at a snap or a latch, a read meanwhile giving what was written. -/
def isDeferred (a : Nat) : Bool :=
  (0x40100100 ≤ a && a < 0x401001D0) || a == R.FE_DRCFG || a == R.FE_EGO_CFG
    || (0x40101020 ≤ a && a < 0x40102000 && a % 32 = 8)
    || (0x40110100 ≤ a && a < 0x40118000 && a % 0x100 = 0xC)
    || (0x40130004 ≤ a && a < 0x40130038) || (0x40131000 ≤ a && a < 0x40131800)
    || cycHeld.contains a || a == R.TRK_CTRL || alcParams.contains a

/-- Registers with a shadow copy that a read does not show (R57, R149, R158). -/
def isShadowed (a : Nat) : Bool :=
  (0x40110100 ≤ a && a < 0x40118000 && 0x40 ≤ a % 0x100 && a % 0x100 < 0xA0)
    || (0x40161000 ≤ a && a < 0x40164000 && isAlcShadow a)
    || (0x400E0000 ≤ a && a < 0x400E3000 && 0x8 ≤ a % 0x200 && a % 0x200 < 0x6C)

/-- The processor a domain is: SVC is 0, SAFE is 1 (R338, R370); the engines' runtime claims for itself. -/
def domProc (d : Dom) : Option Nat := match d with
  | .svc => some 0
  | .safe => some 1
  | _ => none

/-! Writes. Each of these handles one unit's range and answers none where the table says all. -/

/-- SYS, PWR, RST, CP, IC, REC, PMU (0x4000_0000 to 0x4006_FFFF). -/
def writeSys (s : State) (d : Dom) (a : Nat) (v : Word) : Option (State × CpSt) :=
  if a = R.SYS_CYC_CTRL then some (cycCtrlWrite s d v)
  else if cycHeld.contains a then some (cycHeldWrite s d a v)
  else if a = R.SYS_SAFE_REQ then some (safeReqWrite s d v)
  else if a = R.PWR_DOM_REQ then some (domReqWrite s d v)
  else if a = R.PWR_CTRL then some (pwrCtrlWrite s d v)
  else if a = R.RST_WDOG then some (wdogWrite s d v)
  else if a = R.RST_KICK then some (kickWrite s d v)
  else if a = R.RST_SOFT then some (softWrite s d v)
  else if a = R.RST_PFORCE then some (pforceWrite s d v)
  else if a = R.CP_CFG then
    -- BAUD out of range is clamped
    some (s.plainWrite d a (BitVec.ofNat 32 (max 9600 (min 3000000 (v.toNat % 2 ^ 22)))))
  else if 0x40040000 ≤ a && a < 0x40040A00 then
    let x := (a - 0x40040000) / 0x100
    let off := a % 0x100
    if off = 4 then some (if domProc d = some x then (s.complete x, .ok) else (s, .denied))
    else if off = 0xC then some (icPieWrite s d x v)
    else if 0x40 ≤ off && off < 0xC0 && (off % 16 = 0 || off % 16 = 4) then some (ringWrite s d x ((off - 0x40) / 16) (off % 16) v)
    else none
  else if a = R.IC_SWSET then some (icSwset s d v)
  else if 0x40041000 ≤ a && a < 0x40041800 then some (icSrcWrite s d ((a - 0x40041000) / 4) v)
  else if a = R.REC_CTL then some (recCtlWrite s d v)
  else if a = R.REC_CUR then some (recCurWrite s d v)
  else if a = R.REC_CLR then some (recClrWrite s d v)
  else if 0x40051000 ≤ a && a < 0x40051400 then some (evcfgWrite s d ((a - 0x40051000) / 4) v)
  else if a = R.PMU_CTL then some (pmuCtlWrite s d v)
  else if 0x40061000 ≤ a && a < 0x40061800 then some (pmuCntWrite s d a v)
  else none

/-- TIME, NET, ZAL, CAN, UART, DSF (0x4007_0000 to 0x400D_FFFF). -/
def writeNet (s : State) (d : Dom) (a : Nat) (v : Word) : Option (State × CpSt) :=
  if a = R.TIME_INCL then some (timeIncWrite s d false v)
  else if a = R.TIME_INCH then some (timeIncWrite s d true v)
  else if a = R.TIME_REF then some (timeRefWrite s d v)
  else if a = R.TIME_PTP then some (ptpRoleWrite s d v)
  else if a = R.TIME_LEAP then some (timeLeapWrite s d v)
  else if a = R.TIME_STEP then some (timeStepWrite s d v)
  else if 0x40080000 ≤ a && a < 0x40085000 && a % 0x1000 = 0x28 then some (txTailWrite s d ((a - 0x40080000) / 0x1000) v)
  else if 0x40080000 ≤ a && a < 0x40085000 && a % 0x1000 = 0 then some (netCfgWrite s d ((a - 0x40080000) / 0x1000) v)
  else if 0x40088000 ≤ a && a < 0x40088100 && a % 16 = 0 then some (flowCfgWrite s d ((a - 0x40088000) / 16) v)
  else if a = R.ZAL_TREE then some (zalTreeWrite s d v)
  else if a = R.ZAL_SYNCH then some (syncHWrite s d v)
  else if a = R.ZAL_DISC_CTRL then some (discCtrlWrite s d v)
  else if 0x400B0000 ≤ a && a < 0x400B4000 then
    let c := (a - 0x400B0000) / 0x1000
    let off := a % 0x1000
    if off = 0 then some (canCfgWrite s d c v)
    else if off = 4 || off = 8 || off = 0xC then some (canTimWrite s d c a v)
    else if off = 0x18 then some (canTxreqWrite s d c v)
    else if off = 0x1C then some (canCancelWrite s d c v)
    else if 0x200 ≤ off && off < 0x400 && off % 16 < 8 then some (canNameWrite s d c ((off - 0x200) / 16) a v)
    else if 0x200 ≤ off && off < 0x400 && off % 16 = 8 then some (canNameEnWrite s d c ((off - 0x200) / 16) v)
    else if 0x800 ≤ off then some (canCellWrite s d c a v)
    else none
  else if 0x400B8000 ≤ a && a < 0x400C0000 then
    some (canBufWrite s d ((a - 0x400B8000) / 0x2000) ((a - 0x400B8000) % 0x2000 / 128) a v)
  else if 0x400C0000 ≤ a && a < 0x400C1000 then
    let p := (a - 0x400C0000) / 0x100
    if a % 0x100 = 0 then some (uartCfgWrite s d p v) else if a % 0x100 = 0xC then some (uartDataWrite s d p v) else none
  else if 0x400D0000 ≤ a && a < 0x400D0C00 then
    let n := (a - 0x400D0000) / 0x80
    let off := a % 0x80
    if off = 0 then some (dsfCfgWrite s d n v)
    else if off = 0x1C then some (bankReqWrite s d n v)
    else if off = 0x24 || off = 0x28 || off = 0x2C then some (dsfThrWrite s d n a v)
    else none
  else if 0x400DE000 ≤ a && a < 0x400DE180 then some (boutWrite s d a v)
  else if a = R.DSF_COEF_DATA then some (coefAccess s (some (d, v)))
  else if a = R.DSF_SYNC_CTRL then some (syncCtrlWrite s d v)
  else if a = R.DSF_ENSET then some (dsfEnsetWrite s d v)
  else none

/-- SRV, FE, FP, TRK, JF, ALC (0x400E_0000 to 0x4016_FFFF). -/
def writeFus (s : State) (d : Dom) (a : Nat) (v : Word) : Option (State × CpSt) :=
  if 0x400E0000 ≤ a && a < 0x400E3000 then
    let n := (a - 0x400E0000) / 0x200
    let off := a % 0x200
    if off = 0 then some (lreqWrite s d n v)
    else if off = 0x104 then some (injCtrlWrite s d n v)
    else if isShadowed a then some (s.shadowWrite d a v)
    else none
  else if 0x400EC000 ≤ a && a < 0x400EC300 && a % 0x40 < 0xC then some (encCfgWrite s d ((a - 0x400EC000) / 0x40) a v)
  else if a = R.SRV_TBL_DATA then some (tblAccess s (some (d, v)))
  else if a = R.CAP_CTRL 0 then some (capCtrlWrite s d 0 v)
  else if a = R.CAP_CTRL 1 then some (capCtrlWrite s d 1 v)
  else if a = R.FE_EST_CTRL then some (estCtrlWrite s d v)
  else if a = R.FE_SURV_CTRL then some (survCtrlWrite s d v)
  else if 0x40101000 ≤ a && a < 0x40102000 && a % 32 = 8 then some (mnCfgWrite s d ((a - 0x40101000) / 32) v)
  else if 0x40110100 ≤ a && a < 0x40118000 then
    let n := (a - 0x40110000) / 0x100
    let off := a % 0x100
    if off = 0 then some (fscCfgWrite s d n v)
    else if off = 4 then some (fscMatchWrite s d n v)
    else if off = 0x28 then some (ofscfgWrite s d n v)
    else if isShadowed a || isDeferred a then some (s.shadowWrite d a v)
    else none
  else if a = R.FP_FD_COMMIT then some (fdCommitWrite s d v)
  else if a = R.TRK_CTRL then some (trkCtrlWrite s d v)
  else if a = R.JF_ABORT then some (jfAbortWrite s d v)
  else if 0x40140100 ≤ a && a < 0x401401B0 && a % 16 = 0 then some (subWrite s d ((a - 0x40140100) / 16) v)
  else if 0x40140100 ≤ a && a < 0x401401B0 && a % 16 = 4 then some (subHWrite s d ((a - 0x40140100) / 16) v)
  else if a = R.JF_CFG then some (jfCfgWrite s d v)
  else if a = R.ALC_COMMIT then some (alcCommitWrite s d v)
  else if isDeferred a || isShadowed a then some (s.shadowWrite d a v)
  else none

/-- A GPIO ball that DIR drives changes its level, or is released (25_pins_electrical). -/
def State.gpioOut (s : State) (old : Word × Word) : State :=
  let now := (s.word R.IO_GPIO_DIR, s.word R.IO_GPIO_OUT)
  (List.range 32).foldl (fun t n =>
    if now.1.getLsbD n then
      if !old.1.getLsbD n || old.2.getLsbD n != now.2.getLsbD n then t.emit (.pin 5 n (if now.2.getLsbD n then 1 else 0)) else t
    else if old.1.getLsbD n then t.emit (.pin 5 n 2)
    else t) s

/-- IO_GPIO_IN shows the level at each ball: the one driven where DIR is 1, else the board's, an open one (25_pins_electrical; log
entry 61). -/
def State.gpioIn (s : State) : State :=
  let dir := s.word R.IO_GPIO_DIR
  (s.setWord R.IO_GPIO_IN ((s.word R.IO_GPIO_OUT &&& dir) ||| (s.free.extractLsb' 0 32 &&& ~~~ dir))).drawn

/-- IO_TEMP shows the junction temperature, an open one, and whether it is above 110 °C, 880 eighths (25_pins_electrical R393; log
entry 61). -/
def State.junction (s : State) : State :=
  let tj := s.free.extractLsb' 0 12
  ((s.set F.IO_TEMP_TJ tj.toNat).setFlag F.IO_TEMP_HOT (decide (880 < tj.toInt))).drawn

/-- SK, BE, GN, HA, IO (0x4017_0000 and above). -/
def writeTop (s : State) (d : Dom) (a : Nat) (v : Word) : Option (State × CpSt) :=
  if a = R.SK_CMD then some (skCmdWrite s d v false)
  else if a = R.SK_CFG then some (skCfgWrite s d v)
  else if 0x40170070 ≤ a && a < 0x4017007C then some (joyWrite s d ((a - 0x40170070) / 4) v)
  else if a = R.BE_CTRL then some (beCtrlWrite s d v)
  else if a = R.BE_FOP then some (fopWrite s d v)
  else if 0x40180100 ≤ a && a < 0x40180300 && a % 32 = 0 then some (tcfgWrite s d ((a - 0x40180100) / 32) v)
  else if 0x40180100 ≤ a && a < 0x40180300 && a % 32 = 4 then some (tphWrite s d ((a - 0x40180100) / 32) v)
  else if a = R.GN_CFG then some (gnCfgWrite s d v)
  else if a = R.GN_HDG then some (gnHdgWrite s d v)
  else if a = R.GN_ANT 0 then some (antWrite s d 0 v)
  else if a = R.GN_ANT 1 then some (antWrite s d 1 v)
  else if a = R.GN_JICFG then some (jiCfgWrite s d v)
  else if 0x40200100 ≤ a && a < 0x40200200 && a % 16 < 8 then some (wbWrite s d ((a - 0x40200100) / 16) (a % 16) v)
  else if a = R.GN_ACQ_REQ then some (acqReqWrite s d v)
  else if 0x40201000 ≤ a && a < 0x40201C00 && a % 16 = 0 then some (chCtrlWrite s d ((a - 0x40201000) / 16) v)
  else if a = R.HA_CTRL then some (haCtrlWrite s d v)
  else if a = R.HA_CFG then some (haCfgWrite s d v)
  else if a = R.IO_GPIO_DIR || a = R.IO_GPIO_OUT then
    let r := s.plainWrite d a v
    some (if r.2 = .ok then (r.1.gpioOut (s.word R.IO_GPIO_DIR, s.word R.IO_GPIO_OUT), .ok) else r)
  else none

/-- A write of a register by a domain (R13 to R15, R357): a domain not named is denied; nothing of a power domain that is not ON;
then the unit's rule, or the table's. An address in a unit's range that holds no register takes no write (R337). -/
def State.regWrite (s : State) (d : Dom) (a : Nat) (v : Word) : State × CpSt :=
  match regDesc a with
  | none => (s, .ok)
  | some r =>
    if !(domIn d r.writers || domIn d r.clearers) then (s.offAccess r.dom, .denied)
    else if !s.domOn r.dom then (s.offAccess r.dom, .notNow)
    else
      let w := if a < 0x40070000 then writeSys s d a v else if a < 0x400E0000 then writeNet s d a v
        else if a < 0x40170000 then writeFus s d a v else writeTop s d a v
      match w with
      | some r => r
      | none => s.plainWrite d a v

/-! Reads. -/

/-- What a read of a register does besides returning its word: latches, pops, claims (R240, R253, R373 and the tables). -/
def State.readEffect (s : State) (d : Dom) (a : Nat) : State :=
  if a < 0x40070000 then
    if a = R.SYS_CYC_T0L then s.readT0
    else if 0x40040000 ≤ a && a < 0x40040A00 && a % 0x100 = 0 then
      let x := (a - 0x40040000) / 0x100
      if domProc d ≠ some x then s
      else match s.claimLevel x with
        | some l => s.claim x l
        | none => (s.bump (F.IC_PERR_CLAIM_NONE x)).setWord (R.IC_CLAIM x) 0
    else s
  else if a = R.TIME_NOWL then s.readNow
  else if a = R.TCAP_TSL 0 then s.popCapture 0
  else if a = R.TCAP_TSL 1 then s.popCapture 1
  else if a = R.TCAP_TSL 2 then s.popCapture 2
  else if a = R.TCAP_TSL 3 then s.popCapture 3
  else if 0x400B8000 ≤ a && a < 0x400C0000 && a % 128 = 0xC then
    s.canRxRead ((a - 0x400B8000) / 0x2000) ((a - 0x400B8000) % 0x2000 / 128)
  else if 0x400C0000 ≤ a && a < 0x400C1000 && a % 0x100 = 0xC then s.uartRead ((a - 0x400C0000) / 0x100)
  else if 0x400D0000 ≤ a && a < 0x400D0C00 && a % 0x80 = 0x14 then
    let n := (a - 0x400D0000) / 0x80
    s.set (F.DSF_TSH_TS_HI n) (s.ch n).tsHi.toNat
  else if 0x40110100 ≤ a && a < 0x40118000 && a % 0x100 = 0x20 then s.readOfsl ((a - 0x40110000) / 0x100)
  else if 0x40180100 ≤ a && a < 0x40180300 && a % 32 = 0x14 then s.trellRead ((a - 0x40180100) / 32)
  else if a = R.HA_TDL then s.set F.HA_TDH_TD_HI s.ha.tdHi.toNat
  else if a = R.HA_LHBL then s.set F.HA_LHBH_LHB_HI s.ha.lhbHi.toNat
  else if a = R.IO_GPIO_IN then s.gpioIn
  else if a = R.IO_TEMP then s.junction
  else s

/-- Clear the RC fields a read has returned (R13, R15). -/
def State.clearRc (s : State) (r : RegDesc) (a : Nat) : State :=
  if r.rc = 0 then s else s.setWord a (s.word a &&& ~~~ (BitVec.ofNat 32 r.rc))

/-- The word a read by a domain shows: IC_CLAIM reads 0 for any other master than its processor (R373). -/
def State.shown (s : State) (d : Dom) (a : Nat) : Word :=
  if 0x40040000 ≤ a && a < 0x40040A00 && a % 0x100 = 0 && domProc d != some ((a - 0x40040000) / 0x100) then 0
  else if isDeferred a then s.shadowed a
  else s.peek a

/-- A read of a register by a domain (R13, R357, R391): 0 of a domain that is not ON; the effects of the read, its word, and
its RC fields cleared. Reading the tables' data registers moves their index on (R155, R174). -/
def State.regRead (s : State) (d : Dom) (a : Nat) : State × Word :=
  match regDesc a with
  | none => (s, 0)
  | some r =>
    if !s.domOn r.dom then (s.offAccess r.dom, 0)
    else if 0x40060000 ≤ a && a < 0x40070000 then s.pmuRead d a
    else if a = R.SRV_TBL_DATA then ((tblAccess s none).1, s.peek a)
    else if a = R.DSF_COEF_DATA then ((coefAccess s none).1, s.peek a)
    else
      let s := s.readEffect d a
      (s.clearRc r a, s.shown d a)

/-! Words anywhere in the map. -/

/-- Count an access to an unmapped address, or a read outside a domain's rights (R337, R406). -/
def State.busErr (s : State) : State := s.bump F.SYS_BUSERR_COUNT

/-- Write one word anywhere (R336 to R339). -/
def State.busWrite (s : State) (d : Dom) (a : Nat) (v : Word) : State × CpSt :=
  match s.region a with
  | .unmapped => (s.busErr, .badParam)
  | .regs => s.regWrite d a v
  | r =>
    if !mayWrite d r then (s, .denied)
    else if !s.domOn (regionDom r a) then (s.offAccess (regionDom r a), .notNow)
    else (s.st a 4 v.toNat, .ok)

/-- Read one word anywhere (R336 to R339, R406). The boot ROM's content is not stated: it reads as memory (log entry 4). -/
def State.busRead (s : State) (d : Dom) (a : Nat) : State × Word :=
  match s.region a with
  | .unmapped => (s.busErr, 0)
  | .regs => s.regRead d a
  | r =>
    if !mayRead d r then (s.busErr, 0)
    else if !s.domOn (regionDom r a) then (s.offAccess (regionDom r a), 0)
    else (s, BitVec.ofNat 32 (s.ld a 4))

/-- REGISTER_WRITE: a write of one word by a domain (R14, R337). -/
def execRegisterWrite (d : Dom) (a : BitVec 40) (v : Word) (s : State) : Host.Outcome State Fault Refusal :=
  s.ends (s.busWrite d a.toNat v).1

/-- READ_TO_CLEAR: a read of one word by a domain, which clears its RC fields (R13, R337). -/
def execReadToClear (d : Dom) (a : BitVec 40) (s : State) : Host.Outcome State Fault Refusal :=
  s.ends (s.busRead d a.toNat).1

end Sys2Proof.Machine
end

