-- ==== Sys2Proof/Machine/Crypto.lean ====
section
/-!
DEFINITION. SHA-256 and ECDSA on P-256, which the verification of an image names (20_map_otp_boot R341, R347, R348; FIPS 180-4
and FIPS 186-4, log entry 47).
-/
namespace Sys2Proof.Machine

/-! SHA-256, as recurrences on two running quadruples (a, b, c, d) and (e, f, g, h). -/

/-- A number with no divisor from 2 to 17 but itself: below 361 a prime. -/
def smallPrime (n : Nat) : Bool := decide (2 ≤ n) && (List.range 18).all fun d => decide (d < 2) || d == n || n % d != 0

/-- The greatest r below 2^k with r³ at most n, bit by bit. -/
def cubeRoot (n : Nat) : Nat → Nat → Nat
  | 0, r => r
  | k + 1, r => cubeRoot n k (if (r + 2 ^ k) ^ 3 ≤ n then r + 2 ^ k else r)

/-- The greatest r below 2^k with r² at most n, bit by bit. -/
def squareRoot (n : Nat) : Nat → Nat → Nat
  | 0, r => r
  | k + 1, r => squareRoot n k (if (r + 2 ^ k) ^ 2 ≤ n then r + 2 ^ k else r)

/-- The 64 round constants: 32 bits of the fractions of the cube roots of the first primes. -/
def shaRounds : List Word := ((List.range 312).filter smallPrime).map fun p => BitVec.ofNat 32 (cubeRoot (p * 2 ^ 96) 36 0)

/-- The chaining value: eight words in two quadruples, the newest word first. -/
structure ShaRegs where
  up : List Word
  low : List Word
  deriving DecidableEq, Repr

/-- Where the chain starts: 32 bits of the fractions of the square roots of the first eight primes. -/
def shaStart : ShaRegs :=
  let w := ((List.range 20).filter smallPrime).map fun p => BitVec.ofNat 32 (squareRoot (p * 2 ^ 64) 36 0)
  ⟨w.take 4, w.drop 4⟩

/-- The exclusive or of a word turned right by several amounts. -/
def turns (w : Word) (l : List Nat) : Word := l.foldl (fun x k => x ^^^ w.rotateRight k) 0

/-- The t-th word back of a list whose newest word is first. -/
def back (l : List Word) (t : Nat) : Word := l.getD (t - 1) 0

/-- Stretch a block's words, newest first, by n more. -/
def stretch : Nat → List Word → List Word
  | 0, w => w
  | n + 1, w =>
    let far := back w 15
    let near := back w 2
    stretch n ((back w 16 + back w 7 + (turns far [7, 18] ^^^ far >>> 3) + (turns near [17, 19] ^^^ near >>> 10)) :: w)

/-- One round with its word and constant: both quadruples take a new word and lose their oldest. -/
def ShaRegs.round (r : ShaRegs) (wk : Word) : ShaRegs :=
  let pick := back r.low 3 ^^^ (back r.low 1 &&& (back r.low 2 ^^^ back r.low 3))
  let most := (back r.up 1 &&& back r.up 2) ||| (back r.up 3 &&& (back r.up 1 ||| back r.up 2))
  let t := back r.low 4 + wk + pick + turns (back r.low 1) [6, 11, 25]
  ⟨(t + most + turns (back r.up 1) [2, 13, 22]) :: r.up.take 3, (t + back r.up 4) :: r.low.take 3⟩

/-- A big-endian number. -/
def beNat (l : List Byte) : Nat := l.foldl (fun n b => 256 * n + b.toNat) 0

/-- Take one block of 64 bytes into the chain. -/
def ShaRegs.block (r : ShaRegs) (b : List Byte) : ShaRegs :=
  let words := (List.range 16).map fun i => BitVec.ofNat 32 (beNat (b.drop (60 - 4 * i) |>.take 4))
  let z := ((stretch 48 words).reverse.zipWith (· + ·) shaRounds).foldl ShaRegs.round r
  ⟨r.up.zipWith (· + ·) z.up, r.low.zipWith (· + ·) z.low⟩

/-- Take n blocks. -/
def ShaRegs.blocks : Nat → List Byte → ShaRegs → ShaRegs
  | 0, _, r => r
  | n + 1, m, r => ShaRegs.blocks n (m.drop 64) (r.block (m.take 64))

/-- SHA-256 of a message: padded with a 1 bit, zeros and its length in bits. -/
def sha256 (m : List Byte) : List Byte :=
  let full := m ++ 0x80#8 :: List.replicate ((119 - m.length % 64) % 64) 0#8 ++ beBytes 8 (8 * m.length)
  let r := ShaRegs.blocks (full.length / 64) full shaStart
  (r.up ++ r.low).flatMap fun w => beBytes 4 w.toNat

/-! ECDSA on P-256: numbers modulo p and n, points in projective coordinates. -/

def p256p : Nat := 0xffffffff00000001000000000000000000000000ffffffffffffffffffffffff
def p256n : Nat := 0xffffffff00000000ffffffffffffffffbce6faada7179e84f3b9cac2fc632551
def p256b : Nat := 0x5ac635d8aa3a93e7b3ebbd55769886bc651d06b0cc53b0f63bce3c3e27d2604b
def p256gx : Nat := 0x6b17d1f2e12c4247f8bce6e563a440f277037d812deb33a0f4a13945d898c296
def p256gy : Nat := 0x4fe342e2fe1a7f9b8ee7eb4a7c0f9e162bce33576b315ececbb6406837bf51f5

/-- A power modulo m, by the bits of the exponent. -/
def powMod (m : Nat) : Nat → Nat → Nat → Nat
  | 0, _, _ => 1
  | k + 1, b, e => (if e % 2 = 1 then b else 1) * powMod m k (b * b % m) (e / 2) % m

/-- The inverse modulo a prime. -/
def invMod (m a : Nat) : Nat := powMod m 256 (a % m) (m - 2)

/-- A point: none is the point at infinity; else x / z² and y / z³. -/
abbrev Pt := Option (Nat × Nat × Nat)

/-- Difference modulo p. -/
def subP (a b : Nat) : Nat := (a + p256p - b % p256p) % p256p

/-- Twice a point. -/
def ptDouble : Pt → Pt
  | none => none
  | some (x, y, z) =>
    let yy := y * y % p256p
    let s := 4 * x * yy % p256p
    let zz := z * z % p256p
    let m := 3 * (subP x zz) * (x + zz) % p256p
    let x' := subP (m * m) (2 * s)
    let y' := subP (m * subP s x') (8 * yy * yy)
    let z' := 2 * y * z % p256p
    if z' = 0 then none else some (x', y', z')

/-- The sum of two points. -/
def ptAdd : Pt → Pt → Pt
  | none, q => q
  | q, none => q
  | some (x1, y1, z1), some (x2, y2, z2) =>
    let z1z := z1 * z1 % p256p
    let z2z := z2 * z2 % p256p
    let u1 := x1 * z2z % p256p
    let u2 := x2 * z1z % p256p
    let s1 := y1 * z2z * z2 % p256p
    let s2 := y2 * z1z * z1 % p256p
    if u1 = u2 then (if s1 = s2 then ptDouble (some (x1, y1, z1)) else none)
    else
      let h := subP u2 u1
      let r := subP s2 s1
      let h2 := h * h % p256p
      let h3 := h * h2 % p256p
      let v := u1 * h2 % p256p
      let x3 := subP (subP (r * r) h3) (2 * v)
      some (x3, subP (r * subP v x3) (s1 * h3), h * z1 * z2 % p256p)

/-- A multiple of a point, by the bits of the factor from the lowest. -/
def ptMul : Nat → Nat → Pt → Pt
  | 0, _, _ => none
  | k + 1, e, q => if e % 2 = 1 then ptAdd q (ptMul k (e / 2) (ptDouble q)) else ptMul k (e / 2) (ptDouble q)

/-- Does a signature (r, s) over a message hold for a public key (X, Y)? -/
def ecdsaOk (key sig msg : List Byte) : Bool :=
  let x := beNat (key.take 32)
  let y := beNat (key.drop 32 |>.take 32)
  let r := beNat (sig.take 32)
  let s := beNat (sig.drop 32 |>.take 32)
  let e := beNat (sha256 msg)
  let curve := decide (x < p256p) && decide (y < p256p) && decide (y * y % p256p = (x * x * x + p256b + (p256p - 3) * x) % p256p)
  if !curve || r = 0 || s = 0 || decide (p256n ≤ r) || decide (p256n ≤ s) then false
  else
    let w := invMod p256n s
    match ptAdd (ptMul 256 (e * w % p256n) (some (p256gx, p256gy, 1))) (ptMul 256 (r * w % p256n) (some (x, y, 1))) with
    | none => false
    | some (qx, _, qz) =>
      let zi := invMod p256p qz
      qx * (zi * zi % p256p) % p256p % p256n == r

end Sys2Proof.Machine
end

