-- ==== Sys2Proof/Machine/Flags.lean ====
section
/-!
DEFINITION. The flag computations of block code (18_block_code R310, R311): every operation answers its result with what it
adds to the sticky bits SAT and INV of BSTAT.
-/
namespace Sys2Proof.Machine

/-- A result with what it adds to SAT and INV. -/
structure FRes where
  v : Word64
  sat : Bool
  inv : Bool
  deriving DecidableEq, Repr

/-- A result that sets nothing. -/
def plainR (v : Word64) : FRes := ⟨v, false, false⟩

/-- A floating-point result: an overflow sets SAT, an invalid operation or a division by zero INV (R311). -/
def ofF (r : Word64 × FFlags) : FRes := ⟨r.1, r.2.ovf, r.2.inv⟩

/-- An exact integer saturated to 64 bits: SAT when it changed (R310). -/
def satI (v : Int) : FRes :=
  let r := clampI (-9223372036854775808) 9223372036854775807 v
  ⟨BitVec.ofInt 64 r, decide (r ≠ v), false⟩

/-- DIV: truncated; division by 0 gives +max, -min or 0 by the sign of A with INV; min / -1 gives max with SAT (R310). -/
def divR (a b : Word64) : FRes :=
  if b = 0 then
    ⟨if a.toInt < 0 then BitVec.ofInt 64 (-9223372036854775808) else if a.toInt = 0 then 0 else BitVec.ofInt 64 9223372036854775807,
      false, true⟩
  else satI (a.toInt.tdiv b.toInt)

/-- DIVU: unsigned; division by 0 gives 2^64 - 1 with INV (R310). -/
def divuR (a b : Word64) : FRes := if b = 0 then ⟨BitVec.allOnes 64, false, true⟩ else plainR (a / b)

/-- MOD: A - B × (A / B), with the sign of A; B = 0 gives 0 with INV (R310). -/
def modR (a b : Word64) : FRes := if b = 0 then ⟨0, false, true⟩ else plainR (BitVec.ofInt 64 (a.toInt.tmod b.toInt))

/-- The bits of a width code: 8, 16, 32; code 3 names no width (R310). -/
def widthBits (k : Nat) : Nat := 8 * 2 ^ k

/-- SATN: A, a signed 64-bit value, saturated to a width, signed or unsigned; SAT when it changed (R310). -/
def satnR (a : Word64) (k : Nat) (uns : Bool) : FRes :=
  let w := widthBits k
  let lo : Int := if uns then 0 else -((2 ^ (w - 1) : Nat) : Int)
  let hi : Int := if uns then ((2 ^ w : Nat) : Int) - 1 else ((2 ^ (w - 1) : Nat) : Int) - 1
  let r := clampI lo hi a.toInt
  ⟨BitVec.ofInt 64 r, decide (r ≠ a.toInt), false⟩

/-- A truth value as a register holds it (R310). -/
def boolW (b : Bool) : Word64 := if b then 1 else 0

/-- FCLT and FCLE: 0 with a NaN, which sets INV (R311). -/
def fcmpR (r : Bool) (a b : Word64) : FRes := ⟨boolW r, false, fisNaN a || fisNaN b⟩

/-- FTOI: truncated; out of range saturates with SAT, a NaN gives 0 with INV (R311). -/
def ftoiR (a : Word64) : FRes :=
  let r := ftoSat 64 .zero a
  ⟨BitVec.ofInt 64 r.1, r.2.ovf, r.2.inv⟩

/-- F32: rounded to binary32 and widened back; SAT on overflow (R311). -/
def f32R (a : Word64) : FRes :=
  let r := f64to32F a
  ⟨f32to64 r.1, r.2.ovf, r.2.inv⟩

/-- The rounding mode of FRND's SUB[1:0] (R311). -/
def frndMode (k : Nat) : RMode := match k with
  | 0 => .nearest
  | 1 => .zero
  | 2 => .down
  | _ => .up

end Sys2Proof.Machine
end

