-- ==== Sys2Proof/Machine/Engine.lean ====
section
/-!
DEFINITION. The Block Engines' runs (17_block_runtime R286, R288, R289; 18_block_code R302 to R304): which ready task an
engine runs, how a run starts and ends, the copies it asks the image mover for, traps.
-/
namespace Sys2Proof.Machine

/-- The entries of a task's I/O map in one direction, each with its place in the map (R289). -/
def State.ioEntries (s : State) (n : Nat) (out : Bool) : List (IoEnt × Nat) :=
  s.be.set.iomap.zipIdx.filter fun e => e.1.task.val == n && e.1.out == out

/-- How long an entry takes: 40 ns, and 1 ns for every 16 bytes beyond the first 16 (R289). -/
def entryNs (e : IoEnt) : Nat := 40 + (e.len.toNat - 16) / 16

/-- How long the entries of a copy take. -/
def copyNs (l : List (IoEnt × Nat)) : Nat := (l.map fun e => entryNs e.1).sum

/-- Ask the image mover for a copy (R289). -/
def State.askCopy (s : State) (n : Nat) (out : Bool) : State :=
  let c : Copy := ⟨s.now, s.get (F.BE_TCFG_PRIO n), n, out, s.ioEntries n out, false⟩
  s.modBe fun b => { b with copies := b.copies ++ [c] }

/-- Does a copy go before another (R289)? A copy begun is not interrupted; then by the moment of the request, by PRIO, by task
number. -/
def copyBefore (a b : Copy) : Bool :=
  (a.begun && !b.begun) || a.begun == b.begun && (decide (a.req < b.req) || (a.req == b.req && (decide (b.prio < a.prio) || (a.prio == b.prio && decide (a.task < b.task)))))

/-- The copy the mover makes next, with the instant it ends. -/
def State.nextCopy (s : State) : Option (Copy × Nat) :=
  match s.be.copies with
  | [] => none
  | c :: l =>
    let m := l.foldl (fun m x => if copyBefore x m then x else m) c
    some (m, max s.be.moverAt m.req + copyNs m.left)

/-- A ready task goes before another: higher PRIO, then earlier release, then lower number (R288). -/
def State.taskBefore (s : State) (a b : Nat) : Bool :=
  let pa := s.get (F.BE_TCFG_PRIO a)
  let pb := s.get (F.BE_TCFG_PRIO b)
  let ra := (s.task a).relAt
  let rb := (s.task b).relAt
  decide (pb < pa) || (pa == pb && (decide (ra < rb) || (ra == rb && decide (a < b))))

/-- The first of an engine's ready tasks. -/
def State.firstReady (s : State) (e : Nat) : Option Nat :=
  ((List.range 16).filter fun n => s.tState n == tReady && s.get (F.BE_TCFG_ENG n) == e).foldl (fun (m : Option Nat) n =>
    match m with
    | none => some n
    | some k => if s.taskBefore n k then some n else some k) none

/-- A run's start (R303): PC at the entry address, IPTR at the task's instance area, g1 to g31 zero, the call stack empty,
BSTAT as it was. -/
def Ctx.start (c : Ctx) (d : TaskDef) : Ctx :=
  { g := List.replicate 32 0, iptr := BitVec.ofNat 24 d.inst.1, pc := d.entry, sat := c.sat, inv := c.inv, stack := [] }

/-- An engine runs a task: from its start, or resumed as it was (R303, R304). -/
def State.runOn (s : State) (e n : Nat) : State :=
  let d := s.taskDef n
  let s := s.modTask n fun t => if t.begun then t else { t with begun := true, ctx := t.ctx.start d }
  ((s.setTState n tRunning).set (engTask e) n).markRun e true

/-- Let an engine run the ready task of highest PRIO, preempting a running task of lower PRIO (R288). -/
def State.schedule (s : State) (e : Nat) : State :=
  match s.firstReady e, s.running e with
  | none, _ => s
  | some n, none => s.runOn e n
  | some n, some r =>
    if s.get (F.BE_TCFG_PRIO r) < s.get (F.BE_TCFG_PRIO n) then (s.setTState r tReady).runOn e n else s

/-- The engine is free; BE_TBSTAT takes BSTAT at the end of the run (R303). -/
def State.leaveRun (s : State) (e n : Nat) : State :=
  let c := (s.task n).ctx
  let s := (s.setFlag (F.BE_TBSTAT_SAT n) c.sat).setFlag (F.BE_TBSTAT_INV n) c.inv
  let s := s.modTask n fun t => { t with begun := false, ctx := { t.ctx with stack := [] } }
  (s.set (engTask e) 31).markRun e false

/-- The end of a run by END: the output copy follows (R313, R289). -/
def State.endRun (s : State) (e n : Nat) : State :=
  (((s.leaveRun e n).setTState n tCopyOut).askCopy n true).schedule e

/-- A trap (1 opcode, 2 address, 3 ECC): the run ends with no output copy, the task is in FAULT, a loaf is written (R286).
The spec gives a trap no event of its own: the loaf has that of uncorrectable ECC (log entry 42). -/
def State.trapRun (s : State) (e n cause : Nat) : State :=
  let s := ((s.leaveRun e n).setTState n tFault).set (F.BE_TSTAT_TRAP n) cause
  let s := if cause = 3 then
      let s := s.bump F.BE_ECC_UNCORR
      s.arrive 305 (s.word R.BE_ECC)
    else s
  (s.record 305 (s.word R.BE_ECC) .loaf).schedule e

/-- Corrected ECC errors of instance and code memory count, saturating (R286). -/
def State.eccCorrected (s : State) (k : Nat) : State :=
  if k = 0 then s else s.set F.BE_ECC_CORR (min 65535 (s.get F.BE_ECC_CORR + k))

/-- The word an engine's PC points at, in the active half of its code SRAM (R284, R303). -/
def State.codeWord (s : State) (e : Nat) (c : Ctx) : Word := BitVec.ofNat 32 (s.ld (s.codeBase e + c.pc.toNat) 4)

/-- TASK_TRAP: the run on an engine ends in a trap: 0 opcode, 1 address, 2 ECC (R286). An opcode trap needs a word at the PC that
spells no instruction (R307). corr: the corrected errors met before it. -/
def execTaskTrap (e : Fin 8) (cause : Fin 3) (corr : Nat) (s : State) : Host.Outcome State Fault Refusal :=
  s.ends (match s.running e with
    | none => s
    | some n =>
      if cause.val = 0 && (beDecode e (s.codeWord e (s.task n).ctx)).isSome then s
      else (s.eccCorrected corr).trapRun e n (cause.val + 1))

/-! What an instruction works on. -/

/-- A register's value: g0 reads 0 (R302). -/
def Ctx.r (c : Ctx) (i : BitVec 5) : Word64 := if i = 0 then 0 else c.g.getD i.toNat 0

/-- Write a register: a write to g0 is discarded (R302). -/
def Ctx.w (c : Ctx) (i : BitVec 5) (v : Word64) : Ctx := if i = 0 then c else { c with g := padMod 0 i.toNat (fun _ => v) c.g }

/-- The next instruction. -/
def Ctx.next (c : Ctx) : Ctx := { c with pc := c.pc + 4 }

/-- Set sticky bits (R302). -/
def Ctx.stick (c : Ctx) (sat inv : Bool) : Ctx := { c with sat := c.sat || sat, inv := c.inv || inv }

/-- Write a result and what it adds to BSTAT. -/
def Ctx.res (c : Ctx) (i : BitVec 5) (r : FRes) : Ctx := (c.w i r.v).stick r.sat r.inv

/-- BSTAT (R302). -/
def Ctx.bstat (c : Ctx) : Word64 := (if c.sat then 1 else 0) + (if c.inv then 2 else 0)

/-- What an instruction does: a state and the task's next context, or a trap. -/
abbrev CodeRes := Except Nat (State × Ctx)

/-- Issue one instruction on an engine's running task: it is counted (R386), and its context or trap takes effect. An engine
that runs nothing issues nothing. -/
def State.issue (s : State) (e : Nat) (f : State → Nat → Ctx → CodeRes) : State :=
  match s.running e with
  | none => s
  | some n =>
    let s := s.pmu (8 + e)
    match f s n (s.task n).ctx with
    | .ok (t, c) => t.modTask n fun k => { k with ctx := c }
    | .error k => s.trapRun e n k

/-- An instruction that computes on registers only and goes on to the next. -/
def State.alu (s : State) (e : Fin 8) (f : Ctx → Ctx) : Host.Outcome State Fault Refusal :=
  s.ends (s.issue e fun t _ c => .ok (t, (f c).next))

end Sys2Proof.Machine
end

