-- ==== Sys2Proof/Machine/Operands.lean ====
section
/-!
DEFINITION. The operand forms of block code (18_block_code R305 to R307, R312): the four memory spaces, the effective
address and what makes it trap, loads and stores through the force lookup, branch targets, constants in code SRAM.
-/
namespace Sys2Proof.Machine

/-- A range of an area: offset and length. -/
def within (off size : Nat) (r : Nat × Nat) : Bool := decide (r.1 ≤ off) && decide (off + size ≤ r.1 + r.2)

/-- May a task reach these bytes of the instance area: the global area or its own (R305)? -/
def State.instReach (s : State) (n off size : Nat) : Bool :=
  within off size (0, s.be.set.globalLen) || within off size (s.taskDef n).inst

/-- The address of an access in a space (R305, R306): the space's base, g[X] and DISP times the width; none where it traps. -/
def State.effective (s : State) (n : Nat) (c : Ctx) (sp : BitVec 2) (x : BitVec 5) (disp : BitVec 12) (size : Nat) : Option Nat :=
  let d := s.taskDef n
  let rel := c.r x + BitVec.ofNat 64 (disp.toNat * size)
  let off := (if sp = 0 then rel + BitVec.ofNat 64 c.iptr.toNat else rel).toNat
  let a := if sp = 0 || sp = 1 then s.instBase + off else if sp = 2 then s.imgBase + d.inp.1 + off else s.imgBase + d.outp.1 + off
  let ok := if sp = 0 || sp = 1 then s.instReach n off size
    else if sp = 2 then within off size (0, d.inp.2) else within off size (0, d.outp.2)
  if ok && a % size = 0 then some a else none

/-- A little-endian load through the force lookup. -/
def State.beLoad (s : State) (a size : Nat) : Nat := leNat (s.beBytes a size)

/-- A load: the value it makes of the bytes goes to D (R312); TRAP 2 where the address is not the task's. -/
def loadOp (sp : BitVec 2) (d x : BitVec 5) (disp : BitVec 12) (size : Nat) (f : Nat → Word64) (s : State) (n : Nat) (c : Ctx) : CodeRes :=
  match s.effective n c sp x disp size with
  | none => .error 2
  | some a => .ok (s, (c.w d (f (s.beLoad a size))).next)

/-- A store of the low bytes of a value (R312); a forced variable takes none (R298). -/
def storeOp (sp : BitVec 2) (x : BitVec 5) (disp : BitVec 12) (size v : Nat) (sat : Bool) (s : State) (n : Nat) (c : Ctx) : CodeRes :=
  match s.effective n c sp x disp size with
  | none => .error 2
  | some a => .ok (s.beStore a (leBytes size v), (c.stick sat false).next)

/-- A number of w bits, sign-extended to 64. -/
def sext (w v : Nat) : Word64 := (BitVec.ofNat w v).signExtend 64

/-- A number, zero-extended to 64 bits. -/
def zext (v : Nat) : Word64 := BitVec.ofNat 64 v

/-- A branch target: the offset counts words from the branch (R313). -/
def Ctx.branch (c : Ctx) (imm : BitVec 19) : Ctx := { c with pc := c.pc + (imm.signExtend 17 <<< 2) }

/-- Push a return PC and IPTR: none on a full stack, 16 entries (R302, R314). -/
def Ctx.push (c : Ctx) : Option Ctx := if 16 ≤ c.stack.length then none else some { c with stack := (c.pc + 4, c.iptr) :: c.stack }

/-- An 8-byte variable of a library block's instance, at an instance offset (R315): its address, none where it traps. -/
def State.blkAddr (s : State) (n : Nat) (base : Word64) (k : Nat) : Option Nat :=
  let off := (base + BitVec.ofNat 64 (8 * k)).toNat
  if s.instReach n off 8 && (s.instBase + off) % 8 = 0 then some (s.instBase + off) else none

end Sys2Proof.Machine
end

