-- ==== Sys2Proof/Machine/Runtime.lean ====
section
/-!
DEFINITION. The block runtime (17_block_runtime R287 to R300): releases, the image mover's copies, the online change.
-/
namespace Sys2Proof.Machine

/-! Releases (R287, R290). -/

/-- May a task be released at all now: the runtime and the task on, its engine powered, and with ACT_ONLY the cycle running
and a MASTER driving (R287)? -/
def State.mayRelease (s : State) (n : Nat) : Bool :=
  s.domOn 2 && s.flag F.BE_CTRL_EN && s.flag (F.BE_TCFG_EN n) && (decide (s.get (F.BE_TCFG_ENG n) < 4) || s.domOn 3)
    && (!s.flag (F.BE_TCFG_ACT_ONLY n) || (s.run && (!s.isMaster || s.drives)))

/-- The first servo tick from an instant on whose number is congruent to PHASE modulo MULT (R287). -/
def servoDue (lo mult ph : Nat) : Nat :=
  let k := (lo + 124999) / 125000
  (k + (ph % mult + mult - k % mult) % mult) * 125000

/-- The release instant of this cycle for BASE 1 (R287): the tick plus PHASE, or PH_SK. -/
def State.cycleDue (s : State) (n : Nat) : Nat :=
  if s.flag (F.BE_TCFG_PH_SEL n) then s.atSk else s.t0 + s.phase (min 9999 (s.get (F.BE_TPH_PHASE n)))

/-- A task's next release instant, from now on and not yet handled. -/
def State.nextRelease (s : State) (n : Nat) : Nat :=
  let after := match (s.task n).handled with
    | some t => max s.now (t + 1)
    | none => s.now
  if s.flag (F.BE_TCFG_BASE n) then
    if after ≤ s.cycleDue n then s.cycleDue n else s.cycleDue n + s.tDp
  else servoDue after (max 1 (s.get (F.BE_TCFG_MULT n))) (s.get (F.BE_TPH_PHASE n))

/-- Is a task between its release and the end of its output copy (R290)? -/
def State.taskBusy (s : State) (n : Nat) : Bool := decide (tCopyIn ≤ s.tState n) && decide (s.tState n ≤ tCopyOut)

/-- A release at an instant: the input copy is asked for, or the release is skipped (R288, R290); a task in FAULT takes
none (R286). On a MASTER task 14 is the DP core: it steps station-keeping (R93). -/
def State.release (s : State) (n due : Nat) : State :=
  let s := (s.advanceTo due).modTask n fun t => { t with handled := some due }
  if s.tState n = tFault then s
  else if s.taskBusy n then
    let s := s.bump (F.BE_TOVR_OVR_CNT n)
    s.event (288 + n) (BitVec.ofNat 32 (s.get (F.BE_TOVR_OVR_CNT n))) .crumb
  else
    let s := s.modTask n fun t => { t with stamp := stampOf due, relAt := due, begun := false }
    let s := (s.setTState n tCopyIn).setWord (R.BE_TRELL n) ((stampOf due).truncate 32)
    let s := s.askCopy n false
    if s.isMaster && n = 14 then (s.skRelease.speGate).cpSkTaken else s

/-- TASK_RELEASE: a task's next release instant comes (R287). -/
def execTaskRelease (n : Fin 16) (s : State) : Host.Outcome State Fault Refusal :=
  s.ends (if !s.mayRelease n.val then s
    else
      let due := s.nextRelease n.val
      -- a release of the next cycle comes after its tick
      if s.flag (F.BE_TCFG_BASE n.val) && decide (s.cycleDue n.val < due) then s else s.release n.val due)

/-! Copies (R289). -/

/-- An input entry: its source is read into the task's input image, word by word, as BLOCK. -/
def State.copyInEntry (s : State) (n : Nat) (e : IoEnt) : State :=
  let d := s.taskDef n
  let r := (List.range ((e.len.toNat + 3) / 4)).foldl (fun (acc : State × List Byte) i =>
    let r := acc.1.busRead .block (e.addr.toNat + 4 * i)
    (r.1, acc.2 ++ leBytes 4 r.2.toNat)) (s, [])
  if e.ofs.toNat + e.len.toNat ≤ d.inp.2 then r.1.beStore (r.1.imgBase + d.inp.1 + e.ofs.toNat) (r.2.take e.len.toNat) else r.1

/-- A submission register of another engine: indices 2 to 9 are each written only from their own (07, registers). -/
def foreignSub (eng a : Nat) : Bool :=
  (List.range 8).any fun k => k != eng && (a == R.JF_SUBL (2 + k) || a == R.JF_SUBH (2 + k))

/-- Bytes written to a destination, word by word, as BLOCK for a task of an engine (R285). -/
def State.blockWrite (s : State) (eng a : Nat) (b : List Byte) : State :=
  (List.range (b.length / 4)).foldl (fun t i =>
    if foreignSub eng (a + 4 * i) then t.offAccess 6
    else (t.busWrite .block (a + 4 * i) (BitVec.ofNat 32 (leNat (b.drop (4 * i) |>.take 4)))).1) s

/-- An output entry: MODE 0 writes always, MODE 1 only on the first copy or when its bytes differ from those written last. -/
def State.copyOutEntry (s : State) (n : Nat) (e : IoEnt × Nat) : State :=
  let d := s.taskDef n
  let b := s.beBytes (s.imgBase + d.outp.1 + e.1.ofs.toNat) e.1.len.toNat
  let t := s.task n
  if !e.1.mode || t.first || t.last.lookup e.2 != some b then
    (s.blockWrite (s.get (F.BE_TCFG_ENG n)) e.1.addr.toNat b).modTask n fun t => { t with last := (e.2, b) :: t.last.filter fun x => x.1 != e.2 }
  else s

/-- The mover moves entries in map order, each at the end of its slot (R289). -/
def State.moveEntries (f : State → IoEnt × Nat → State) (s : State) : List (IoEnt × Nat) → State
  | [] => s
  | e :: l =>
    let at' := s.be.moverAt + entryNs e.1
    let s := (s.advanceTo at').modBe fun b => { b with moverAt := at' }
    State.moveEntries f (f s e) l

/-- The mover goes on with a copy by k entries; when none is left the copy is off its list and ends. -/
def State.copyOn (s : State) (c : Copy) (k : Nat) (f : State → IoEnt × Nat → State) (done : State → State) : State :=
  let rest := c.left.drop k
  let now := [{ c with left := rest, begun := true }]
  let s := s.modBe fun b =>
    { b with copies := b.copies.filter (fun x => x != c) ++ (if rest.isEmpty then [] else now), moverAt := max b.moverAt c.req }
  let s := (s.advanceTo s.be.moverAt).moveEntries f (c.left.take k)
  if rest.isEmpty then done s else s

/-- The mover's next copy, if it is this task's in this direction. -/
def State.copyOf (s : State) (n : Nat) (out : Bool) : Option (Copy × Nat) :=
  match s.nextCopy with
  | some (c, t) => if c.task = n && c.out == out then some (c, t) else none
  | none => none

/-- An input copy is complete: the task is ready, preempting a task of lower PRIO (R288). -/
def State.inputDone (n : Nat) (s : State) : State := (s.setTState n tReady).schedule (s.get (F.BE_TCFG_ENG n))

/-- An output copy is complete: the task is idle; BE_TRUN takes the time since its release (R289). -/
def State.outputDone (n : Nat) (s : State) : State :=
  let s := s.modTask n fun k => { k with first := false }
  let us := min 65535 ((s.be.moverAt - (s.task n).relAt) / 1000)
  let s := (s.set (F.BE_TRUN_LAST_US n) us).set (F.BE_TRUN_MAX_US n) (max us (s.get (F.BE_TRUN_MAX_US n)))
  s.setTState n (if s.flag (F.BE_TCFG_EN n) then tIdle else tOff)

/-- INPUT_COPY_DONE: the next k entries of the copy have had their slots, and with the last one it completes (R288, R289; log entry
252). -/
def execInputCopyDone (n : Fin 16) (k : Nat) (s : State) : Host.Outcome State Fault Refusal :=
  s.ends (match s.copyOf n.val false with
    | none => s
    | some (c, _) => s.copyOn c k (fun u e => u.copyInEntry n.val e.1) (State.inputDone n.val))

/-- OUTPUT_COPY_DONE: as INPUT_COPY_DONE. corr: the corrected ECC errors the run met (R286). -/
def execOutputCopyDone (n : Fin 16) (k corr : Nat) (s : State) : Host.Outcome State Fault Refusal :=
  s.ends (match s.copyOf n.val true with
    | none => s
    | some (c, _) => (s.eccCorrected corr).copyOn c k (fun u e => u.copyOutEntry n.val e) (State.outputDone n.val))

/-! Program sets (R284, R301). -/

/-- Write a set's code and initial data into one half of each engine and one area. -/
def State.storeSet (s : State) (p : ProgSet) (half : Nat → Nat) (area : Nat) : State :=
  let s := p.code.zipIdx.foldl (fun t c => t.storeBytes (0x1600000 + 0x40000 * c.2 + 0x20000 * half c.2) (c.1.take 0x20000)) s
  s.storeBytes (0x1000000 + 0x200000 * area) (p.init.take 0x200000)

/-- Write a committed set into the inactive halves and areas (R331). -/
def State.stageSet (s : State) (p : ProgSet) : State :=
  let hs := (List.range 8).map fun e => 1 - s.get (engHalf e)
  s.storeSet p (fun e => hs.getD e 0) (1 - s.be.area)

/-- A task takes its definition from the task table. -/
def State.loadTask (s : State) (n : Nat) (d : TaskDef) : State :=
  let s := (s.setWord (R.BE_TCFG n) (d.cfg &&& 0xFFFF0FFF)).setWord (R.BE_TPH n) (d.ph &&& 0xFFFF)
  let s := if s.tState n = tFault then s else s.setTState n (if d.cfg.getLsbD 0 then tIdle else tOff)
  s.modTask n fun t => { t with ctx := { t.ctx with sat := false, inv := false } }

/-- The program section as the active program set (R347, R350). -/
def State.loadSet (s : State) (p : ProgSet) : State :=
  let hs := (List.range 8).map fun e => s.get (engHalf e)
  let s := s.storeSet p (fun e => hs.getD e 0) s.be.area
  let s := s.modBe fun b => { b with set := p, tasks := List.replicate 16 .init }
  let s := (p.tasks.take 16).zipIdx.foldl (fun t d => t.loadTask d.2 d.1) s
  (s.setWord R.BE_PROG p.psig).showBeDoze

/-! Online change (R293 to R297, R300). -/

/-- The symbols that lie in a range of the instance area. -/
def symsIn (p : ProgSet) (r : Nat × Nat) : List SymEnt :=
  p.syms.filter fun y => !y.area && decide (r.1 ≤ y.addr.toNat) && decide (y.addr.toNat < r.1 + r.2)

/-- Does code refer to global variables: has it an access to space G (R305; log entry 45)? -/
def refsGlobal (code : List Byte) : Bool :=
  (List.range (code.length / 4)).any fun i =>
    let w : Word := BitVec.ofNat 32 (leNat (code.drop (4 * i) |>.take 4))
    decide (0x70 ≤ (wOp w).toNat) && decide ((wOp w).toNat ≤ 0x7D) && wSp w == 1

/-- Does the area of a global variable change, its place, its type or its data (R293; log entry 45)? -/
def globalsChange (o p : ProgSet) : Bool :=
  o.globalLen != p.globalLen || symsIn o (0, o.globalLen) != symsIn p (0, p.globalLen)
    || p.base == 0 || p.carry.any fun c => decide (c.new.toNat < p.globalLen) && (c.init || c.old != c.new)

/-- Is a task affected (R293)? -/
def State.affected (s : State) (p : ProgSet) (n : Nat) : Bool :=
  let o := s.taskDef n
  let d := p.tasks.getD n taskDefNone
  let eo := s.get (F.BE_TCFG_ENG n)
  let en := d.cfg.toNat / 256 % 8
  let code (q : ProgSet) (e : Nat) : List Byte := q.code.getD e []
  let differs (e : Nat) : Bool := code s.be.set e != code p e
  let mine (q : ProgSet) : List IoEnt := q.iomap.filter fun e => e.task.val == n
  o != d || mine s.be.set != mine p || symsIn s.be.set o.inst != symsIn p d.inst || differs eo || differs en
    || (refsGlobal (code p eo) && globalsChange s.be.set p)

/-- The affected tasks. -/
def State.affectedTasks (s : State) (p : ProgSet) : List Nat := (List.range 16).filter fun n => s.affected p n

/-- Bytes carried and initialised at the switch: a map against PSIG 0 initialises everything (R294, R295). -/
def switchBytes (p : ProgSet) : Nat :=
  if p.base = 0 then p.init.length else (p.carry.map fun c => c.len.toNat).sum

/-- The switch time, ns: 10 µs plus the bytes at 9.6 bytes per ns (R294). -/
def switchNs (p : ProgSet) : Nat := 10000 + switchBytes p * 5 / 48

/-- Instances reinitialised: those of both sets whose signature changed, or all of both with a map against PSIG 0 (R295,
R296). -/
def reinitN (old new : ProgSet) : Nat :=
  (new.syms.filter fun y => !y.area && match old.syms.find? fun o => o.ident == y.ident with
    | none => false
    | some o => if new.base = 0 then true
      else o.sig != y.sig && new.carry.any fun c =>
        c.init && decide (c.new.toNat ≤ y.addr.toNat) && decide (y.addr.toNat < c.new.toNat + c.len.toNat)).length

/-- Copy n bytes of memory. -/
def State.copyMem (s : State) (src dst n : Nat) : State := s.storeBytes dst (s.bytes src n)

/-- The data the new area takes: of a task not affected everything (R293), and over it what the carry map says, carried or
initialised (R296). A map against PSIG 0 leaves every instance as the new set declares it (R295). -/
def State.carryData (s : State) (p : ProgSet) : State :=
  let oi := s.instBase
  let om := s.imgBase
  let ni := 0x1000000 + 0x200000 * (1 - s.be.area)
  let nm := 0x1400000 + 0x80000 * (1 - s.be.area)
  let t := ((List.range 16).filter fun n => !s.affected p n).foldl (fun (t : State) n =>
    let d := s.taskDef n
    let t := if p.base = 0 then t else t.copyMem (oi + d.inst.1) (ni + d.inst.1) d.inst.2
    (t.copyMem (om + d.inp.1) (nm + d.inp.1) d.inp.2).copyMem (om + d.outp.1) (nm + d.outp.1) d.outp.2) s
  if p.base = 0 then t
  else p.carry.foldl (fun (t : State) c =>
    if c.init then t.storeBytes (ni + c.new.toNat) (p.init.drop c.new.toNat |>.take c.len.toNat)
    else t.copyMem (oi + c.old.toNat) (ni + c.new.toNat) c.len.toNat) t

/-- Rebind each force to the new set, or drop it with a crumb of its symbol ID (R300). -/
def State.rebindForces (s : State) : State :=
  s.be.forces.foldl (fun t f =>
    match t.be.set.syms.find? fun y => y.ident == f.ident && y.size.val == f.size && y.cls == f.cls with
    | some y =>
      let g := { f with area := y.area, addr := y.addr.toNat }
      ((t.modBe fun b => { b with forces := b.forces.map fun q => if q.ident == f.ident then g else q }).applyForce g).showForce g
    | none => ((t.forceDrop f).bump F.BE_ACT_FDROP_N).record 640 f.ident .crumb) s

/-- The system section of an activated image, when it differs: written as SVC (RUN is 0; R331; log entry 46). A changed safety parameter block
is written when the lattice's state allows it (R218). -/
def State.takeSystem (s : State) (i : ImageCfg) : State :=
  let s := if i.zalSig = s.pwr.image.zalSig then s else i.sysRegs.foldl (fun t e => (t.regWrite .svc e.1 e.2).1) s
  let s := (s.modPwr fun p => { p with image :=
    { p.image with psig := i.psig, zalSig := i.zalSig, tree := i.tree, sysRegs := i.sysRegs, kz := i.kz, prog := i.prog } }).showSig
  s.paramDue

/-- The switch begins (R294). -/
def State.switchStart (s : State) (accept : Nat) : State :=
  let now := s.now
  let s := (s.set F.BE_ACTT_WAIT (min 65535 ((now - accept) / 10000))).set F.BE_ACT_ASTATE 2
  s.modBe fun b => { b with actAt := none, swAt := some now }

/-- The switch (R294), which began at an instant and ends its time later: halves and areas flip, data is carried, the task table
takes its new definition, forces are remapped; then the force requests written meanwhile are judged (R299) and the operation is
answered. -/
def State.switch (s : State) (p : ProgSet) (start : Nat) : State :=
  let aff := s.affectedTasks p
  let rn := reinitN s.be.set p
  let ns := switchNs p
  let fops := s.be.fops
  let s := s.advanceTo (start + ns)
  let s := s.carryData p
  let es := (aff.map fun n => [s.get (F.BE_TCFG_ENG n), (p.tasks.getD n taskDefNone).cfg.toNat / 256 % 8]).flatten.eraseDups
  let s := es.foldl (fun t e => t.set (engHalf e) (1 - t.get (engHalf e))) s
  let img := s.be.stagedImg
  let s := s.modBe fun b => { b with set := p, staged := none, stagedImg := none, area := 1 - b.area, swAt := none, fops := [],
                                     tasks := b.tasks.map fun t => { t with first := true, last := [] } }
  let s := aff.foldl (fun t n => t.loadTask n (p.tasks.getD n taskDefNone)) s
  let s := ((s.setWord R.BE_PROG p.psig).set F.BE_ACT_REINIT_N (min 255 rn)).set F.BE_ACT_FDROP_N 0
  let s := s.rebindForces
  let s := s.set F.BE_FRES_NFORCE s.be.forces.length
  let s := ((s.set F.BE_ACT_ASTATE 0).set F.BE_ACT_ARES 0).set F.BE_ACTT_SW_NS (min 65535 (ns / 10))
  let s := match img with
    | some i => s.takeSystem i
    | none => s
  let s := if 1 ≤ rn then s.event 304 (s.word R.BE_ACT) .crumb else s
  let s := fops.foldl (fun t f => (t.forceOp f.1 f.2.1 f.2.2).1) s.showBeDoze
  if s.cpRuns [0x23] then
    s.cpFinish .ok (leBytes 1 (s.get F.BE_ACT_REINIT_N) ++ leBytes 1 (s.get F.BE_ACT_FDROP_N) ++ leBytes 4 ns)
  else s

/-- May the switch happen now: every affected task at rest, none due within the switch time, 2 × T_DP not over (R294)? -/
def State.maySwitch (s : State) (p : ProgSet) (accept : Nat) : Bool :=
  decide (s.now ≤ accept + 2 * s.tDp)
    && (s.affectedTasks p).all fun n =>
      !s.taskBusy n && (!s.mayRelease n || s.tState n == tFault || decide (s.now + switchNs p ≤ s.nextRelease n))

/-- ACTIVATION_SWITCH: at an instant that allows it the switch to the staged set begins; given again, it ends its time later, and tasks
that are not affected are released in between (R293, R294; log entry 253). -/
def execActivationSwitch (s : State) : Host.Outcome State Fault Refusal :=
  s.ends (match s.be.staged, s.be.swAt, s.be.actAt with
    | some p, some t, _ => s.switch p t
    | some p, none, some t => if s.maySwitch p t then s.switchStart t else s
    | _, _, _ => s)

/-- ACTIVATION_TIMEOUT: no switch within 2 × T_DP of acceptance abandons the activation (R294). -/
def execActivationTimeout (s : State) : Host.Outcome State Fault Refusal :=
  s.ends (match s.be.actAt with
    | some t =>
      let s := (s.advanceTo (t + 2 * s.tDp)).modBe fun b => { b with actAt := none }
      let s := (s.set F.BE_ACT_ASTATE 0).set F.BE_ACT_ARES 1
      if s.cpRuns [0x23] then s.cpFinish .timeout [] else s
    | none => if s.cpRuns [0x23] && s.be.swAt.isNone then s.cpFinish .timeout [] else s)

end Sys2Proof.Machine
end

