-- ==== Sys2Proof/Machine/Nvm.lean ====
section
/-!
DEFINITION. The OTP array, the flash and the images in them (20_map_otp_boot R340 to R348; 19_command_port R331, R332, R334): the
configuration generations, the verification of an image, and the ends of the operations that write them.
-/
namespace Sys2Proof.Machine

/-! Configuration generations (R341, R342). -/

/-- Burned: any byte is not zero. -/
def genBurned (b : List Byte) : Bool := b.any fun x => x != 0

/-- The valid generation with the highest index. -/
def State.genInUse (s : State) : Option Nat := [3, 2, 1, 0].find? fun g => genValid g (s.genBlock g)

/-- The lowest generation never burned. -/
def State.genFree (s : State) : Option Nat := [0, 1, 2, 3].find? fun g => !genBurned (s.genBlock g)

/-- The block in use: all zero with none valid. -/
def State.cfgBlock (s : State) : List Byte :=
  match s.genInUse with
  | some g => s.genBlock g
  | none => List.replicate 512 0

/-- KEYHASH k of a block. -/
def keyHash (b : List Byte) (k : Nat) : List Byte := b.drop (0x30 + 32 * k) |>.take 32

/-- The bits a byte has at 1. -/
def popcount (b : Byte) : Nat := ((List.range 8).filter fun i => b.getLsbD i).length

/-- Is image key k revoked (R344)? -/
def State.revoked (s : State) (k : Nat) : Bool := decide (4 ≤ popcount ((s.otpBytes (0xA00 + k) 1).headD 0))


/-- The OTP read of a reset: the generation in use gives the class O fields, and the staging copy takes it (R332, R341, R342). -/
def State.otpLoad (s : State) (vpp : Bool) : State :=
  let b := s.cfgBlock
  let use := s.genInUse
  let s := (List.range 128).foldl (fun t i => t.setWord (R.OTP_CFG i) (BitVec.ofNat 32 (blkField b (4 * i) 4))) s
  let s := s.set F.OTP_STAT_GEN (use.getD 0)
  let s := s.set F.OTP_STAT_GVALID (bitsOf 4 fun g => genValid g (s.genBlock g))
  let s := s.set F.OTP_STAT_GBURNED (bitsOf 4 fun g => genBurned (s.genBlock g))
  let s := s.set F.OTP_STAT_KEYSET (bitsOf 4 fun k => (keyHash b k).any fun x => x != 0)
  let s := (s.set F.OTP_STAT_REVOKED (bitsOf 4 fun k => s.revoked k)).setFlag F.OTP_STAT_VPP vpp
  let s := (s.setWord R.OTP_UIDL (BitVec.ofNat 32 (leNat (s.otpBytes 0 4)))).setWord R.OTP_UIDH (BitVec.ofNat 32 (leNat (s.otpBytes 4 4)))
  let s := (s.set F.SYS_PERSONA_PERSONA (if use.isNone then 3 else blkField b 8 1 % 4)).set F.SYS_PERSONA_NODE_ID (blkField b 0xA 2)
  let s := s.setFlag F.SYS_BOOT_OTP_NOGEN use.isNone
  let s := if use.isNone then s
    else ((s.set F.CP_CFG_BAUD (max 9600 (min 3000000 (blkField b 0x20 4)))).setWord (R.NET_IP 4) (BitVec.ofNat 32 (blkField b 0x24 4))).setWord
      (R.NET_MASK 4) (BitVec.ofNat 32 (blkField b 0x28 4))
  { s with nvm := { s.nvm with otpStage := storePut 0 [] 0 b } }

/-- The generation in use as the last reset latched it (class O, R342). -/
def State.latchedBlock (s : State) : List Byte := (List.range 128).flatMap fun i => leBytes 4 (s.word (R.OTP_CFG i)).toNat

/-! Images (R347, R348). -/

/-- A section entry. -/
structure Sect where
  typ : Nat
  off : Nat
  size : Nat
  crc : Nat
  deriving DecidableEq, Repr

/-- The section entries of a header. -/
def imgSects (h : List Byte) : List Sect :=
  (List.range (blkField h 0x1C 2)).map fun i =>
    let o := 0x20 + 16 * i
    ⟨blkField h o 2, blkField h (o + 4) 4, blkField h (o + 8) 4, blkField h (o + 12) 4⟩

/-- Do two sections not overlap? -/
def sectsApart (a b : Sect) : Bool := decide (a.off + a.size ≤ b.off) || decide (b.off + b.size ≤ a.off)

/-- Are all sections of a list apart from one another? -/
def allApart : List Sect → Bool
  | [] => true
  | x :: t => t.all (sectsApart x) && allApart t

/-- Step 1: the header (R348). -/
def headerOk (h : List Byte) (srev : Nat) : Bool :=
  let total := blkField h 0xC 4
  let ss := imgSects h
  blkField h 0 4 == 0x1A6E4812 && blkField h 4 2 == 1 && blkField h 8 2 == 0x4812 && decide (blkField h 0xA 1 ≤ srev)
    && decide (total + 128 ≤ 0x1000000) && decide (1 ≤ blkField h 0x1C 2) && decide (blkField h 0x1C 2 ≤ 14)
    && ss.all (fun x => decide (256 ≤ x.off) && decide (x.off + x.size ≤ total)) && allApart ss
    && [1, 2, 3, 5].all fun k => ss.any fun x => x.typ == k

/-- Steps 1 to 5 on an image's bytes (R348): 0 passed, else the cause. Whether the Xedigan signatures hold is the operand's:
the key is in the boot ROM (log entry 50). -/
def State.verifyImage (s : State) (cells : List Host.Cell) (base : Nat) (fw1 fw2 : Bool) : Nat :=
  let rd (a n : Nat) : List Byte := storeRange 0xFF cells (base + a) n
  let h := rd 0 256
  if !headerOk h (s.get F.SYS_ID_SREV) then 1
  else
    let total := blkField h 0xC 4
    let k := blkField h 0x10 1
    let key := rd total 64
    let hash := keyHash s.latchedBlock k
    if decide (3 < k) || hash.all (fun x => x == 0) || (s.get F.OTP_STAT_REVOKED / 2 ^ k) % 2 == 1 || sha256 key != hash then 2
    else if !ecdsaOk key (rd (total + 64) 64) (rd 0 (total + 64)) then 3
    else if !(imgSects h).all fun x => (crc32c (rd x.off x.size)).toNat == x.crc then 4
    else if fw1 && fw2 then 0 else 5

/-- An image's content with the signatures of its header. -/
def withHeader (h : List Byte) (i : ImageCfg) : ImageCfg :=
  let ps : Word := BitVec.ofNat 32 (blkField h 0x14 4)
  { i with psig := ps, zalSig := BitVec.ofNat 32 (blkField h 0x18 4), prog := { i.prog with psig := ps } }

/-! The ends of long operations. -/

/-- IMG_COMMIT_COMPLETE: the staged image is verified; it is refused, or its program set is written into the inactive halves and
areas (R331). -/
def execImgCommitComplete (fw1 fw2 : Bool) (img : ImageCfg) (s : State) : Host.Outcome State Fault Refusal :=
  s.ends (if !s.cpRuns [0x22] then s
    else if s.verifyImage s.nvm.imgBuf 0 fw1 fw2 ≠ 0 then s.cpFinish .badParam []
    else
      let h := storeRange 0xFF s.nvm.imgBuf 0 256
      let i := withHeader h img
      let s := { s with nvm := { s.nvm with imgOpen := false, commit := some (s.nvm.imgBuf, blkField h 0xC 4 + 128, i.psig) } }
      let s := if s.domOn 2 then (s.stageSet i.prog).modBe fun b => { b with staged := some i.prog, stagedImg := some i } else s
      s.cpFinish .ok (leBytes 4 i.psig.toNat ++ leBytes 4 i.zalSig.toNat))

/-- IMG_FLASH_COMPLETE: one 64 KiB sector of the committed image is written into a slot (R331, R346). -/
def execImgFlashComplete (s : State) : Host.Outcome State Fault Refusal :=
  s.ends (match s.cp.op, s.nvm.commit with
    | some o, some (cells, _, _) =>
      if o.op ≠ 0x24 then s
      else
        let slot := leNat (o.payload.take 1)
        let sec := leNat (o.payload.drop 1 |>.take 2)
        let a := 0x1000000 * slot + 0x10000 * sec
        let b := storeRange 0xFF cells (0x10000 * sec) 0x10000
        ({ s with nvm := { s.nvm with flash := storePut 0xFF s.nvm.flash a b } } : State).cpFinish .ok []
    | _, _ => s)

/-- OTP_BURN_COMPLETE: the generation reads these bytes after the burn; they are the staging copy's, or the burn failed. A bit
once burned stays (R332, R340). -/
def execOtpBurnComplete (read : List Byte) (s : State) : Host.Outcome State Fault Refusal :=
  s.ends (match s.cp.op with
    | none => s
    | some o =>
      if o.op ≠ 0x32 then s
      else
        let g := leNat (o.payload.drop 2 |>.take 1) % 4
        let want := s.stageBytes
        let old := s.genBlock g
        let got := List.zipWith (fun a b => a ||| b) old (read.take 512 ++ List.replicate (512 - read.length) 0)
        let s := { s with nvm := { s.nvm with otp := storePut 0 s.nvm.otp (0x200 + 0x200 * g) got } }
        -- the staging copy is loaded again from the generation in use, as latched at the reset
        let s := { s with nvm := { s.nvm with otpStage := storePut 0 [] 0 s.latchedBlock } }
        s.cpFinish (if got = want then .ok else .internal) [])

/-- OTP_REVOKE_COMPLETE: the revocation byte reads this after the burn; fewer than eight bits at 1 is INTERNAL (R344). -/
def execOtpRevokeComplete (read : Byte) (s : State) : Host.Outcome State Fault Refusal :=
  s.ends (match s.cp.op with
    | none => s
    | some o =>
      if o.op ≠ 0x33 then s
      else
        let k := leNat (o.payload.drop 2 |>.take 1) % 4
        let got := (s.otpBytes (0xA00 + k) 1).headD 0 ||| read
        let s := { s with nvm := { s.nvm with otp := storePut 0 s.nvm.otp (0xA00 + k) [got] } }
        s.cpFinish (if got = 0xFF then .ok else .internal) [])

/-- The domain a self-test needs (R334). -/
def testDom : Nat → Nat
  | 0 => 1
  | 1 => 6
  | 2 => 6
  | 3 => 7
  | 4 => 8
  | 5 => 12
  | 6 => 11
  | 7 => 5
  | _ => 12

/-- SELFTEST_COMPLETE: the tests selected end, these failing; one whose domain the persona keeps off is in neither result; the
tracker enters ASSIGN mode with cause 2 (R334, R88). -/
def execSelftestComplete (fail : BitVec 16) (s : State) : Host.Outcome State Fault Refusal :=
  s.ends (match s.cp.op with
    | none => s
    | some o =>
      if o.op ≠ 0x60 then s
      else
        let mask := leNat (o.payload.take 2)
        let ran := bitsOf 9 fun k => (mask / 2 ^ k) % 2 == 1 && (s.personaMask / 2 ^ testDom k) % 2 == 1
        let bad := bitsOf 9 fun k => (ran / 2 ^ k) % 2 == 1 && fail.getLsbD k
        let s := s.modCp fun c => { c with stMask := mask, stPass := ran - bad, stFail := bad }
        (if s.domOn 7 then s.trkAssign 2 else s).cpFinish .ok (leBytes 2 (ran - bad) ++ leBytes 2 bad))

end Sys2Proof.Machine
end

