-- ==== Sys2Proof/Machine/Boot.lean ====
section
/-!
DEFINITION. Boot and power-up (20_map_otp_boot R345 to R351; 21_clocks_power_reset R356 to R358): the release of a reset, the
slots' verification, the start of the firmware, the sections applied, a domain reaching ON.
-/
namespace Sys2Proof.Machine

/-- A domain is ON from here: class O copied again, isolation released (R357). -/
def State.setOn (s : State) (d : Nat) : State :=
  let on := s.get F.PWR_DOM_STAT_ON
  let s := s.modPwr fun p => { p with rising := p.rising.filter (·.1 != d) }
  if (on / 2 ^ d) % 2 = 1 then s else s.set F.PWR_DOM_STAT_ON (on + 2 ^ d)

/-- Write pairs of address and value as SVC, in order, when their register lies in a domain (none: any domain). -/
def State.applyRegs (s : State) (dom : Option Nat) (l : List (Nat × Word)) : State :=
  l.foldl (fun t e =>
    match regDesc e.1, dom with
    | none, _ => t
    | some r, some d => if r.dom = d then (t.regWrite .svc e.1 e.2).1 else t
    | some _, none => (t.regWrite .svc e.1 e.2).1) s

/-- When DRAM is ready, from the release: 4.2 ms after a power-on reset or brown-out, else 0.4 ms (R350). -/
def State.bootTd (s : State) : Nat := if s.get F.RST_CAUSE_LAST ≤ 1 then 4200000 else 400000

/-- BOOT_START: a reset's release, 10 µs at least after its assertion (R350, R362). The straps give STRAP (PSTRAP1 and PSTRAP0), VPP_OTP is sampled, the OTP gives the
class O fields and the persona, SYS_BOOTCNT counts, both PLLs lock (R353), MATCH is evaluated, 250 µs after the release, and the
domains that the persona permits power up (R3, R4), the receiver awake from its sleep (R236, R237); a sleep of the receiver counts from
here (R196). Which slot goes first follows BOOT_TRY (R349). -/
def execBootStart (straps : BitVec 2) (vpp : Bool) (s : State) : Host.Outcome State Fault Refusal :=
  s.ends (if s.pwr.stage ≠ .held || s.pwr.deep then s
    else
      let s := (s.advanceTo (s.pwr.heldAt + 10000)).modPwr fun p => { p with inReset := none }
      let ready := s.now + s.bootTd
      let s := s.otpLoad vpp
      let s := (s.set F.SYS_PERSONA_STRAP straps.toNat).set F.SYS_BOOTCNT_COUNT (s.get F.SYS_BOOTCNT_COUNT + 1)
      let s := s.advanceBy 250000
      let s := (s.setFlag F.CLK_STAT_PLL0_LOCK true).setFlag F.CLK_STAT_PLL1_LOCK true
      let ok := s.persona == straps.toNat && s.persona != 3
      let s := s.setFlag F.SYS_PERSONA_MATCH ok
      let s := s.set F.PWR_DOM_REQ_REQ s.personaMask
      let s := (List.range 13).foldl (fun t d =>
        if (t.personaMask / 2 ^ d) % 2 = 1 && (!(d == 9 || d == 10) || t.mayOn d t.personaMask) then t.setOn d else t) s
      let s := s.set F.PWR_DOM_REQ_REQ (if s.mayOn 9 s.personaMask || !s.isMaster then s.personaMask else s.personaMask - 0x600)
      let s := if s.domOn 9 then s.gnWake else s
      let s := if 0 < s.dramBytes then s.modPwr fun p => { p with rising := [(13, ready)] }
        else s.set F.PWR_DOM_REQ_REQ (s.get F.PWR_DOM_REQ_REQ % 2 ^ 13)
      let swap := s.get F.SYS_BOOT_BOOT_TRY = 2
      let s := if swap then s.set F.SYS_BOOT_BOOT_TRY 0 else s
      let s := s.showBeDoze
      let now := s.now
      let s := { s with ha := { s.ha with refreshing := false, refreshAt := now } }
      s.modPwr fun p => { p with stage := if ok then .boot else .straps, bootSlot := 2, slotB := swap && !p.slotB })

/-- The slot to read next: the first one, then the other once the first has failed (R349). -/
def State.nextSlot (s : State) : Option Nat :=
  let first := if s.pwr.slotB then 1 else 0
  let failed (k : Nat) : Bool := if k = 0 then s.get F.SYS_BOOT_AFAIL != 0 else s.get F.SYS_BOOT_BFAIL != 0
  if !failed first then some first else if !failed (1 - first) then some (1 - first) else none

/-- Device time runs on until DRAM is ready (R350). -/
def State.dramReady (s : State) : State :=
  match s.pwr.rising.find? (·.1 == 13) with
  | some e => (s.advanceTo e.2).setOn 13
  | none => s

/-- SLOT_VERIFY: the next slot is read at 40 MB/s, a bad header ending it after 256 bytes, and its checks complete, `us` µs
later, at most 3 ms (R348 to R350). `img` is the image's content, `fw1` and `fw2` whether the Xedigan signatures hold. -/
def execSlotVerify (us : Fin 3001) (fw1 fw2 : Bool) (img : ImageCfg) (s : State) : Host.Outcome State Fault Refusal :=
  s.ends (if s.pwr.stage ≠ .boot || s.dramBytes = 0 then s
    else match s.nextSlot with
      | none => s
      | some k =>
        let s := s.dramReady
        let h := storeRange 0xFF s.nvm.flash (0x1000000 * k) 256
        let why := s.verifyImage s.nvm.flash (0x1000000 * k) fw1 fw2
        let i := withHeader h img
        let why := if why = 0 && !i.tree.contains (s.nodeId, s.persona) then 6 else why
        let s := s.advanceBy (if why = 1 then 6400 else (blkField h 0xC 4 + 128) * 25 + us.val * 1000)
        if why = 0 then s.modPwr fun p => { p with stage := .verified, bootSlot := k, image := i }
        else if k = 0 then s.set F.SYS_BOOT_AFAIL why else s.set F.SYS_BOOT_BFAIL why)

/-- FIRMWARE_START: 1 ms later the firmware starts on the service and safety cores; the watchdog counts from here (R350, R366). -/
def execFirmwareStart (s : State) : Host.Outcome State Fault Refusal :=
  s.ends (if s.pwr.stage ≠ .verified then s
    else ((s.advanceBy 1000000).kickWdog).modPwr fun p => { p with stage := .firmware, slotB := decide (p.bootSlot = 1) })

/-- Values set by GN_CONFIG or the GNSS section: kept, and written while the receiver is awake; GN_CFG keeps every field but EN
(R237, R238, R330). -/
def State.gnKeep (s : State) (a : Nat) (v : Word) : State :=
  let v := if a = R.GN_CFG then v ||| 1 else v
  s.modGn fun g => { g with keep := g.keep.filter (fun e => e.1 != a) ++ [(a, v)] }

/-- GN_CONFIG, or a value of the GNSS section: kept, and written unless GNBB or GNRF is off (R238, R330, R347). -/
def State.gnConfig (s : State) (d : Dom) (a : Nat) (v : Word) : State :=
  let s := s.gnKeep a v
  if s.domOn 9 && s.domOn 10 then (s.regWrite d a v).1 else s

/-- The values kept, written back with both domains ON (R238). -/
def State.gnRestore (s : State) : State :=
  if s.domOn 9 && s.domOn 10 then s.gn.keep.foldl (fun t e => (t.regWrite .svc e.1 e.2).1) s else s

/-- The GNSS section, applied as GN_CONFIG (R238, R347), with the values kept since before the reset. -/
def State.applyGnss (s : State) (l : List (Nat × Word)) : State := (l.foldl (fun t e => t.gnKeep e.1 e.2) s).gnRestore

/-- SECTIONS_APPLIED: 2 ms and 3 ns a byte later every section of the image is applied, DONE and GOOD set, BOOT_TRY clears, and
with AUTORUN SVC writes RUN to 1 (R347, R349, R350). -/
def execSectionsApplied (s : State) : Host.Outcome State Fault Refusal :=
  s.ends (if s.pwr.stage ≠ .firmware then s
    else
      let k := s.pwr.bootSlot
      let i := s.pwr.image
      let h := storeRange 0xFF s.nvm.flash (0x1000000 * k) 256
      let s := s.advanceBy (2000000 + 3 * (blkField h 0xC 4 + 128))
      let s := (((s.applyRegs none i.sysRegs).applyRegs none i.regs).loadSet i.prog).showSig
      let s := (s.applyGnss i.gnss).paramLoad
      let s := ((s.set F.SYS_BOOT_SLOT k).setFlag F.SYS_BOOT_DONE true).setFlag F.SYS_BOOT_GOOD true
      let s := (s.set F.SYS_BOOT_BOOT_TRY 0).modPwr fun p => { p with stage := .done }
      if i.autorun then (cycCtrlWrite s .svc (s.word R.SYS_CYC_CTRL ||| 1)).1 else s)

/-- The code halves of BE4 to BE7 from the active set. -/
def State.reloadApp1 (s : State) : State :=
  [4, 5, 6, 7].foldl (fun t e => t.storeBytes (t.codeBase e) ((t.be.set.code.getD e []).take 0x20000)) s

/-- The registers of a domain that the active image sets. -/
def imageRegs (i : ImageCfg) (d : Nat) : Nat :=
  ((i.sysRegs ++ i.regs).filter fun e => match regDesc e.1 with
    | some r => r.dom == d
    | none => false).length

/-- The service firmware's rewriting shows in RESTORING for 50 µs and 20 ns a register (R358; log entry 58). -/
def State.restoring (s : State) (n : Nat) : State :=
  let till := s.now + 50000 + 20 * n
  s.modPwr fun p => { p with restoreEnd := max p.restoreEnd till }

/-- What is rewritten in a domain that reached ON (R16, R358, R238, R218): the registers that the active image sets, in image order,
the kept values of the receiver, by the safety core the KZ registers, and the image's programs are loaded again. -/
def State.restore (s : State) (d : Nat) : State :=
  let i := s.pwr.image
  let s := if d = 2 then s.loadSet i.prog else if d = 3 then s.reloadApp1 else s
  if d = 4 || d = 5 then s.paramLoad
  else
    let s := s.restoring (imageRegs i d + if d = 9 || d = 10 then s.gn.keep.length else 0)
    let s := (s.applyRegs (some d) i.sysRegs).applyRegs (some d) i.regs
    let s := if d = 9 then s.gnWake else if d = 11 then s.showSig else s
    if d = 9 || d = 10 then s.gnRestore else s

/-- DOMAIN_ON: a domain that powers up reaches ON, 20 µs after its request, DDR 400 µs (R357); what R358 restores is rewritten. A
unit whose NET domain comes on starts in BIVOUAC and its receiver's sleep with it (R196). -/
def execDomainOn (d : Fin 14) (s : State) : Host.Outcome State Fault Refusal :=
  s.ends (
    match s.pwr.rising.find? (·.1 == d.val) with
    | none => s
    | some e =>
      let s := (s.advanceTo e.2).setOn d.val
      let s := if d.val = 11 then s.gnPower false else s
      if s.pwr.stage = .done then s.restore d.val else s)

end Sys2Proof.Machine
end

