-- ==== Sys2Proof/Machine/Code.lean ====
section
/-!
DEFINITION. Block code: integer, floating-point, memory and control instructions (18_block_code R310 to R313), each issued on
the task an engine runs.
-/
namespace Sys2Proof.Machine

/-- NOP: does nothing (R310). -/
def execNop (e : Fin 8) (s : State) : Host.Outcome State Fault Refusal :=
  s.alu e fun k => k

/-- ADD: D = sat(A + B) (R310). -/
def execAdd (e : Fin 8) (d a b : BitVec 5) (s : State) : Host.Outcome State Fault Refusal :=
  s.alu e fun k => k.res d (satI ((k.r a).toInt + (k.r b).toInt))

/-- SUB: D = sat(A - B) (R310). -/
def execSub (e : Fin 8) (d a b : BitVec 5) (s : State) : Host.Outcome State Fault Refusal :=
  s.alu e fun k => k.res d (satI ((k.r a).toInt - (k.r b).toInt))

/-- ADDW: D = A + B modulo 2^64 (R310). -/
def execAddw (e : Fin 8) (d a b : BitVec 5) (s : State) : Host.Outcome State Fault Refusal :=
  s.alu e fun k => k.res d (plainR ((k.r a) + (k.r b)))

/-- SUBW: D = A - B modulo 2^64 (R310). -/
def execSubw (e : Fin 8) (d a b : BitVec 5) (s : State) : Host.Outcome State Fault Refusal :=
  s.alu e fun k => k.res d (plainR ((k.r a) - (k.r b)))

/-- MUL: D = sat(A × B) (R310). -/
def execMul (e : Fin 8) (d a b : BitVec 5) (s : State) : Host.Outcome State Fault Refusal :=
  s.alu e fun k => k.res d (satI ((k.r a).toInt * (k.r b).toInt))

/-- MULW: the low 64 bits of A × B (R310). -/
def execMulw (e : Fin 8) (d a b : BitVec 5) (s : State) : Host.Outcome State Fault Refusal :=
  s.alu e fun k => k.res d (plainR ((k.r a) * (k.r b)))

/-- DIV: signed division (R310). -/
def execDivS (e : Fin 8) (d a b : BitVec 5) (s : State) : Host.Outcome State Fault Refusal :=
  s.alu e fun k => k.res d (divR (k.r a) (k.r b))

/-- DIVU: unsigned division (R310). -/
def execDivu (e : Fin 8) (d a b : BitVec 5) (s : State) : Host.Outcome State Fault Refusal :=
  s.alu e fun k => k.res d (divuR (k.r a) (k.r b))

/-- MOD: signed remainder (R310). -/
def execModS (e : Fin 8) (d a b : BitVec 5) (s : State) : Host.Outcome State Fault Refusal :=
  s.alu e fun k => k.res d (modR (k.r a) (k.r b))

/-- NEG: D = sat(-A) (R310). -/
def execNegS (e : Fin 8) (d a : BitVec 5) (s : State) : Host.Outcome State Fault Refusal :=
  s.alu e fun k => k.res d (satI (-(k.r a).toInt))

/-- ABS: D = sat(abs A) (R310). -/
def execAbsS (e : Fin 8) (d a : BitVec 5) (s : State) : Host.Outcome State Fault Refusal :=
  s.alu e fun k => k.res d (satI ((k.r a).toInt.natAbs : Int))

/-- MIN: signed minimum (R310). -/
def execMinS (e : Fin 8) (d a b : BitVec 5) (s : State) : Host.Outcome State Fault Refusal :=
  s.alu e fun k => k.res d (plainR (if (k.r a).toInt ≤ (k.r b).toInt then (k.r a) else (k.r b)))

/-- MAX: signed maximum (R310). -/
def execMaxS (e : Fin 8) (d a b : BitVec 5) (s : State) : Host.Outcome State Fault Refusal :=
  s.alu e fun k => k.res d (plainR (if (k.r a).toInt ≤ (k.r b).toInt then (k.r b) else (k.r a)))

/-- LIMIT: D = min(max(A, B), C) (R310). -/
def execLimitS (e : Fin 8) (d a b c : BitVec 5) (s : State) : Host.Outcome State Fault Refusal :=
  s.alu e fun k => k.res d (plainR (BitVec.ofInt 64 (min (max (k.r a).toInt (k.r b).toInt) (k.r c).toInt)))

/-- AND: bitwise (R310). -/
def execAndB (e : Fin 8) (d a b : BitVec 5) (s : State) : Host.Outcome State Fault Refusal :=
  s.alu e fun k => k.res d (plainR ((k.r a) &&& (k.r b)))

/-- OR: bitwise (R310). -/
def execOrB (e : Fin 8) (d a b : BitVec 5) (s : State) : Host.Outcome State Fault Refusal :=
  s.alu e fun k => k.res d (plainR ((k.r a) ||| (k.r b)))

/-- XOR: bitwise (R310). -/
def execXorB (e : Fin 8) (d a b : BitVec 5) (s : State) : Host.Outcome State Fault Refusal :=
  s.alu e fun k => k.res d (plainR ((k.r a) ^^^ (k.r b)))

/-- NOT: bitwise not (R310). -/
def execNotB (e : Fin 8) (d a : BitVec 5) (s : State) : Host.Outcome State Fault Refusal :=
  s.alu e fun k => k.res d (plainR (~~~(k.r a)))

/-- SHL: left shift by B mod 64 (R310). -/
def execShl (e : Fin 8) (d a b : BitVec 5) (s : State) : Host.Outcome State Fault Refusal :=
  s.alu e fun k => k.res d (plainR ((k.r a) <<< ((k.r b).toNat % 64)))

/-- SHR: logical right shift by B mod 64 (R310). -/
def execShr (e : Fin 8) (d a b : BitVec 5) (s : State) : Host.Outcome State Fault Refusal :=
  s.alu e fun k => k.res d (plainR ((k.r a) >>> ((k.r b).toNat % 64)))

/-- SAR: arithmetic right shift by B mod 64 (R310). -/
def execSar (e : Fin 8) (d a b : BitVec 5) (s : State) : Host.Outcome State Fault Refusal :=
  s.alu e fun k => k.res d (plainR ((k.r a).sshiftRight ((k.r b).toNat % 64)))

/-- ROL: rotate left by B mod 64 (R310). -/
def execRol (e : Fin 8) (d a b : BitVec 5) (s : State) : Host.Outcome State Fault Refusal :=
  s.alu e fun k => k.res d (plainR ((k.r a).rotateLeft ((k.r b).toNat % 64)))

/-- ROR: rotate right by B mod 64 (R310). -/
def execRor (e : Fin 8) (d a b : BitVec 5) (s : State) : Host.Outcome State Fault Refusal :=
  s.alu e fun k => k.res d (plainR ((k.r a).rotateRight ((k.r b).toNat % 64)))

/-- SATN: saturates A to the width of SUB; SUB[2] at 1 traps; width code 3 names no width, so its result is a free value (R307, R310; log entry 43). -/
def execSatn (e : Fin 8) (d a : BitVec 5) (sub : BitVec 4) (s : State) : Host.Outcome State Fault Refusal :=
  s.ends (s.issue e fun t _ k =>
    if sub.getLsbD 2 then .error 1
    else if sub.extractLsb' 0 2 = 3 then
      .ok (t.drawn, (k.res d ⟨t.free, decide (t.free ≠ k.r a), false⟩).next)
    else .ok (t, (k.res d (satnR (k.r a) (sub.extractLsb' 0 2).toNat (sub.getLsbD 3))).next))

/-- SEXT: sign-extends A from the width of SUB[1:0]; the other bits of SUB at 1 trap; width code 3 names no width, so its result is a free value (R307, R310; log entry 43). -/
def execSext (e : Fin 8) (d a : BitVec 5) (sub : BitVec 4) (s : State) : Host.Outcome State Fault Refusal :=
  s.ends (s.issue e fun t _ k =>
    if 4 ≤ sub.toNat then .error 1
    else if sub = 3 then .ok (t.drawn, (k.w d t.free).next)
    else .ok (t, (k.w d (sext (widthBits (sub.toNat)) (k.r a).toNat)).next))

/-- ZEXT: zero-extends A from the width of SUB[1:0]; the other bits of SUB at 1 trap; width code 3 names no width, so its result is a free value (R307, R310; log entry 43). -/
def execZext (e : Fin 8) (d a : BitVec 5) (sub : BitVec 4) (s : State) : Host.Outcome State Fault Refusal :=
  s.ends (s.issue e fun t _ k =>
    if 4 ≤ sub.toNat then .error 1
    else if sub = 3 then .ok (t.drawn, (k.w d t.free).next)
    else .ok (t, (k.w d (zext ((k.r a).toNat % 2 ^ widthBits sub.toNat))).next))

/-- BITX: bit B mod 64 of A (R310). -/
def execBitx (e : Fin 8) (d a b : BitVec 5) (s : State) : Host.Outcome State Fault Refusal :=
  s.alu e fun k => k.res d (plainR (((k.r a) >>> ((k.r b).toNat % 64)) &&& 1))

/-- BITS: A with bit B mod 64 set to (C ≠ 0) (R310). -/
def execBits (e : Fin 8) (d a b c : BitVec 5) (s : State) : Host.Outcome State Fault Refusal :=
  s.alu e fun k => k.res d (plainR (if (k.r c) ≠ 0 then (k.r a) ||| ((1 : Word64) <<< ((k.r b).toNat % 64)) else (k.r a) &&& ~~~((1 : Word64) <<< ((k.r b).toNat % 64))))

/-- SEL: D = (C ≠ 0) ? B : A (R310). -/
def execSelB (e : Fin 8) (d a b c : BitVec 5) (s : State) : Host.Outcome State Fault Refusal :=
  s.alu e fun k => k.res d (plainR (if (k.r c) ≠ 0 then (k.r b) else (k.r a)))

/-- CEQ: D = (A = B) (R310). -/
def execCeq (e : Fin 8) (d a b : BitVec 5) (s : State) : Host.Outcome State Fault Refusal :=
  s.alu e fun k => k.res d (plainR (boolW (decide ((k.r a) = (k.r b)))))

/-- CNE: D = (A ≠ B) (R310). -/
def execCne (e : Fin 8) (d a b : BitVec 5) (s : State) : Host.Outcome State Fault Refusal :=
  s.alu e fun k => k.res d (plainR (boolW (decide ((k.r a) ≠ (k.r b)))))

/-- CLT: D = (A < B, signed) (R310). -/
def execClt (e : Fin 8) (d a b : BitVec 5) (s : State) : Host.Outcome State Fault Refusal :=
  s.alu e fun k => k.res d (plainR (boolW (decide ((k.r a).toInt < (k.r b).toInt))))

/-- CLE: D = (A ≤ B, signed) (R310). -/
def execCle (e : Fin 8) (d a b : BitVec 5) (s : State) : Host.Outcome State Fault Refusal :=
  s.alu e fun k => k.res d (plainR (boolW (decide ((k.r a).toInt ≤ (k.r b).toInt))))

/-- CLTU: D = (A < B, unsigned) (R310). -/
def execCltu (e : Fin 8) (d a b : BitVec 5) (s : State) : Host.Outcome State Fault Refusal :=
  s.alu e fun k => k.res d (plainR (boolW (decide ((k.r a).toNat < (k.r b).toNat))))

/-- CLEU: D = (A ≤ B, unsigned) (R310). -/
def execCleu (e : Fin 8) (d a b : BitVec 5) (s : State) : Host.Outcome State Fault Refusal :=
  s.alu e fun k => k.res d (plainR (boolW (decide ((k.r a).toNat ≤ (k.r b).toNat))))

/-- ADDI: D = sat(A + IMM14) (R310). -/
def execAddi (e : Fin 8) (d a : BitVec 5) (imm : BitVec 14) (s : State) : Host.Outcome State Fault Refusal :=
  s.alu e fun k => k.res d (satI ((k.r a).toInt + imm.toInt))

/-- ANDI: with the sign-extended IMM14 (R310). -/
def execAndi (e : Fin 8) (d a : BitVec 5) (imm : BitVec 14) (s : State) : Host.Outcome State Fault Refusal :=
  s.alu e fun k => k.res d (plainR ((k.r a) &&& (imm.signExtend 64)))

/-- ORI: with the sign-extended IMM14 (R310). -/
def execOri (e : Fin 8) (d a : BitVec 5) (imm : BitVec 14) (s : State) : Host.Outcome State Fault Refusal :=
  s.alu e fun k => k.res d (plainR ((k.r a) ||| (imm.signExtend 64)))

/-- XORI: with the sign-extended IMM14 (R310). -/
def execXori (e : Fin 8) (d a : BitVec 5) (imm : BitVec 14) (s : State) : Host.Outcome State Fault Refusal :=
  s.alu e fun k => k.res d (plainR ((k.r a) ^^^ (imm.signExtend 64)))

/-- SHLI: left shift by IMM14 mod 64 (R310). -/
def execShli (e : Fin 8) (d a : BitVec 5) (imm : BitVec 14) (s : State) : Host.Outcome State Fault Refusal :=
  s.alu e fun k => k.res d (plainR ((k.r a) <<< (imm.toNat % 64)))

/-- SHRI: logical right shift by IMM14 mod 64 (R310). -/
def execShri (e : Fin 8) (d a : BitVec 5) (imm : BitVec 14) (s : State) : Host.Outcome State Fault Refusal :=
  s.alu e fun k => k.res d (plainR ((k.r a) >>> (imm.toNat % 64)))

/-- SARI: arithmetic right shift by IMM14 mod 64 (R310). -/
def execSari (e : Fin 8) (d a : BitVec 5) (imm : BitVec 14) (s : State) : Host.Outcome State Fault Refusal :=
  s.alu e fun k => k.res d (plainR ((k.r a).sshiftRight (imm.toNat % 64)))

/-- CEQI: D = (A = IMM14) (R310). -/
def execCeqi (e : Fin 8) (d a : BitVec 5) (imm : BitVec 14) (s : State) : Host.Outcome State Fault Refusal :=
  s.alu e fun k => k.res d (plainR (boolW (decide ((k.r a) = (imm.signExtend 64)))))

/-- CLTI: D = (A < IMM14), signed (R310). -/
def execClti (e : Fin 8) (d a : BitVec 5) (imm : BitVec 14) (s : State) : Host.Outcome State Fault Refusal :=
  s.alu e fun k => k.res d (plainR (boolW (decide ((k.r a).toInt < imm.toInt))))

/-- MOVI: g[A] = sign-extended IMM19 (R310). -/
def execMovi (e : Fin 8) (a : BitVec 5) (imm : BitVec 19) (s : State) : Host.Outcome State Fault Refusal :=
  s.alu e fun k => k.w a (imm.signExtend 64)

/-- LDK: g[A] = the 64-bit word of the code half at (PC & ~7) + IMM19 × 8; outside the half it traps (R286, R310). -/
def execLdk (e : Fin 8) (a : BitVec 5) (imm : BitVec 19) (s : State) : Host.Outcome State Fault Refusal :=
  s.ends (s.issue e fun t _ k =>
    let p : Int := ((k.pc.toNat / 8 * 8 : Nat) : Int) + imm.toInt * 8
    if p < 0 ∨ 131072 ≤ p then .error 2
    else .ok (t, (k.w a (t.ld64 (t.codeBase e + p.toNat))).next))

/-- FADD: rounded to nearest even (R311). -/
def execFadd (e : Fin 8) (d a b : BitVec 5) (s : State) : Host.Outcome State Fault Refusal :=
  s.alu e fun k => k.res d (ofF (faddF (k.r a) (k.r b)))

/-- FSUB: rounded to nearest even (R311). -/
def execFsub (e : Fin 8) (d a b : BitVec 5) (s : State) : Host.Outcome State Fault Refusal :=
  s.alu e fun k => k.res d (ofF (fsubF (k.r a) (k.r b)))

/-- FMUL: rounded to nearest even (R311). -/
def execFmul (e : Fin 8) (d a b : BitVec 5) (s : State) : Host.Outcome State Fault Refusal :=
  s.alu e fun k => k.res d (ofF (fmulF (k.r a) (k.r b)))

/-- FDIV: rounded to nearest even (R311). -/
def execFdiv (e : Fin 8) (d a b : BitVec 5) (s : State) : Host.Outcome State Fault Refusal :=
  s.alu e fun k => k.res d (ofF (fdivF (k.r a) (k.r b)))

/-- FSQRT: the square root (R311). -/
def execFsqrt (e : Fin 8) (d a : BitVec 5) (s : State) : Host.Outcome State Fault Refusal :=
  s.alu e fun k => k.res d (ofF (fsqrtF (k.r a)))

/-- FMA: A × B + C, rounded once (R311). -/
def execFma (e : Fin 8) (d a b c : BitVec 5) (s : State) : Host.Outcome State Fault Refusal :=
  s.alu e fun k => k.res d (ofF (fmaF (k.r a) (k.r b) (k.r c)))

/-- FNMS: C - A × B, rounded once (R311). -/
def execFnms (e : Fin 8) (d a b c : BitVec 5) (s : State) : Host.Outcome State Fault Refusal :=
  s.alu e fun k => k.res d (ofF (fnmsF (k.r a) (k.r b) (k.r c)))

/-- FABS: clears the sign bit (R311). -/
def execFabs (e : Fin 8) (d a : BitVec 5) (s : State) : Host.Outcome State Fault Refusal :=
  s.alu e fun k => k.res d (plainR (fabs (k.r a)))

/-- FNEG: inverts the sign bit (R311). -/
def execFneg (e : Fin 8) (d a : BitVec 5) (s : State) : Host.Outcome State Fault Refusal :=
  s.alu e fun k => k.res d (plainR (fneg (k.r a)))

/-- FMIN: minimum; a NaN operand is ignored (R311). -/
def execFmin (e : Fin 8) (d a b : BitVec 5) (s : State) : Host.Outcome State Fault Refusal :=
  s.alu e fun k => k.res d (plainR (fmin (k.r a) (k.r b)))

/-- FMAX: maximum; a NaN operand is ignored (R311). -/
def execFmax (e : Fin 8) (d a b : BitVec 5) (s : State) : Host.Outcome State Fault Refusal :=
  s.alu e fun k => k.res d (plainR (fmax (k.r a) (k.r b)))

/-- FLIMIT: FMIN(FMAX(A, B), C) (R311). -/
def execFlimit (e : Fin 8) (d a b c : BitVec 5) (s : State) : Host.Outcome State Fault Refusal :=
  s.alu e fun k => k.res d (plainR (fmin (fmax (k.r a) (k.r b)) (k.r c)))

/-- FCEQ: D = (A = B); 0 with a NaN (R311). -/
def execFceq (e : Fin 8) (d a b : BitVec 5) (s : State) : Host.Outcome State Fault Refusal :=
  s.alu e fun k => k.res d (plainR (boolW (feq (k.r a) (k.r b))))

/-- FCLT: D = (A < B); 0 and INV with a NaN (R311). -/
def execFclt (e : Fin 8) (d a b : BitVec 5) (s : State) : Host.Outcome State Fault Refusal :=
  s.alu e fun k => k.res d (fcmpR (flt (k.r a) (k.r b)) (k.r a) (k.r b))

/-- FCLE: D = (A ≤ B); 0 and INV with a NaN (R311). -/
def execFcle (e : Fin 8) (d a b : BitVec 5) (s : State) : Host.Outcome State Fault Refusal :=
  s.alu e fun k => k.res d (fcmpR (fle (k.r a) (k.r b)) (k.r a) (k.r b))

/-- FCUN: D = 1 when A or B is NaN (R311). -/
def execFcun (e : Fin 8) (d a b : BitVec 5) (s : State) : Host.Outcome State Fault Refusal :=
  s.alu e fun k => k.res d (plainR (boolW (fisNaN (k.r a) || fisNaN (k.r b))))

/-- ITOF: signed integer A as binary64 (R311). -/
def execItof (e : Fin 8) (d a : BitVec 5) (s : State) : Host.Outcome State Fault Refusal :=
  s.alu e fun k => k.res d (plainR (fofInt (k.r a).toInt))

/-- FTOI: A truncated to a signed integer (R311). -/
def execFtoi (e : Fin 8) (d a : BitVec 5) (s : State) : Host.Outcome State Fault Refusal :=
  s.alu e fun k => k.res d (ftoiR (k.r a))

/-- FRND: A rounded to an integral value by SUB[1:0]; the other bits of SUB at 1 trap (R307, R311). -/
def execFrnd (e : Fin 8) (d a : BitVec 5) (sub : BitVec 4) (s : State) : Host.Outcome State Fault Refusal :=
  s.ends (s.issue e fun t _ k =>
    if 4 ≤ sub.toNat then .error 1 else .ok (t, (k.w d (frnd (frndMode sub.toNat) (k.r a))).next))

/-- F32: A rounded to binary32 and widened back (R311). -/
def execF32 (e : Fin 8) (d a : BitVec 5) (s : State) : Host.Outcome State Fault Refusal :=
  s.alu e fun k => k.res d (f32R (k.r a))

/-- LD8S: loads one byte, sign-extended (R312). -/
def execLd8s (e : Fin 8) (d x : BitVec 5) (sp : BitVec 2) (disp : BitVec 12) (s : State) : Host.Outcome State Fault Refusal :=
  s.ends (s.issue e fun t n k => loadOp sp d x disp 1 (sext 8) t n k)

/-- LD8U: loads one byte, zero-extended (R312). -/
def execLd8u (e : Fin 8) (d x : BitVec 5) (sp : BitVec 2) (disp : BitVec 12) (s : State) : Host.Outcome State Fault Refusal :=
  s.ends (s.issue e fun t n k => loadOp sp d x disp 1 zext t n k)

/-- LD16S: loads two bytes, sign-extended (R312). -/
def execLd16s (e : Fin 8) (d x : BitVec 5) (sp : BitVec 2) (disp : BitVec 12) (s : State) : Host.Outcome State Fault Refusal :=
  s.ends (s.issue e fun t n k => loadOp sp d x disp 2 (sext 16) t n k)

/-- LD16U: loads two bytes, zero-extended (R312). -/
def execLd16u (e : Fin 8) (d x : BitVec 5) (sp : BitVec 2) (disp : BitVec 12) (s : State) : Host.Outcome State Fault Refusal :=
  s.ends (s.issue e fun t n k => loadOp sp d x disp 2 zext t n k)

/-- LD32S: loads four bytes, sign-extended (R312). -/
def execLd32s (e : Fin 8) (d x : BitVec 5) (sp : BitVec 2) (disp : BitVec 12) (s : State) : Host.Outcome State Fault Refusal :=
  s.ends (s.issue e fun t n k => loadOp sp d x disp 4 (sext 32) t n k)

/-- LD32U: loads four bytes, zero-extended (R312). -/
def execLd32u (e : Fin 8) (d x : BitVec 5) (sp : BitVec 2) (disp : BitVec 12) (s : State) : Host.Outcome State Fault Refusal :=
  s.ends (s.issue e fun t n k => loadOp sp d x disp 4 zext t n k)

/-- LD64: loads eight bytes (R312). -/
def execLd64 (e : Fin 8) (d x : BitVec 5) (sp : BitVec 2) (disp : BitVec 12) (s : State) : Host.Outcome State Fault Refusal :=
  s.ends (s.issue e fun t n k => loadOp sp d x disp 8 zext t n k)

/-- LDF32: loads a binary32, widened exactly (R312). -/
def execLdf32 (e : Fin 8) (d x : BitVec 5) (sp : BitVec 2) (disp : BitVec 12) (s : State) : Host.Outcome State Fault Refusal :=
  s.ends (s.issue e fun t n k => loadOp sp d x disp 4 (fun v => f32to64 (BitVec.ofNat 32 v)) t n k)

/-- ST8: stores the low 1 bytes of D (R312). -/
def execSt8 (e : Fin 8) (d x : BitVec 5) (sp : BitVec 2) (disp : BitVec 12) (s : State) : Host.Outcome State Fault Refusal :=
  s.ends (s.issue e fun t n k => storeOp sp x disp 1 (k.r d).toNat false t n k)

/-- ST16: stores the low 2 bytes of D (R312). -/
def execSt16 (e : Fin 8) (d x : BitVec 5) (sp : BitVec 2) (disp : BitVec 12) (s : State) : Host.Outcome State Fault Refusal :=
  s.ends (s.issue e fun t n k => storeOp sp x disp 2 (k.r d).toNat false t n k)

/-- ST32: stores the low 4 bytes of D (R312). -/
def execSt32 (e : Fin 8) (d x : BitVec 5) (sp : BitVec 2) (disp : BitVec 12) (s : State) : Host.Outcome State Fault Refusal :=
  s.ends (s.issue e fun t n k => storeOp sp x disp 4 (k.r d).toNat false t n k)

/-- ST64: stores the low 8 bytes of D (R312). -/
def execSt64 (e : Fin 8) (d x : BitVec 5) (sp : BitVec 2) (disp : BitVec 12) (s : State) : Host.Outcome State Fault Refusal :=
  s.ends (s.issue e fun t n k => storeOp sp x disp 8 (k.r d).toNat false t n k)

/-- STF32: stores D rounded to binary32; SAT on overflow (R312). -/
def execStf32 (e : Fin 8) (d x : BitVec 5) (sp : BitVec 2) (disp : BitVec 12) (s : State) : Host.Outcome State Fault Refusal :=
  s.ends (s.issue e fun t n k => storeOp sp x disp 4 (f64to32F (k.r d)).1.toNat (f64to32F (k.r d)).2.ovf t n k)

/-- LEA: g[D] = IPTR + g[X] + DISP × 8; SP must be 0 (R312). -/
def execLea (e : Fin 8) (d x : BitVec 5) (sp : BitVec 2) (disp : BitVec 12) (s : State) : Host.Outcome State Fault Refusal :=
  s.ends (s.issue e fun t _ k =>
    if sp ≠ 0 then .error 1
    else .ok (t, (k.w d (BitVec.ofNat 64 k.iptr.toNat + k.r x + BitVec.ofNat 64 (8 * disp.toNat))).next))

/-- BR: PC += IMM19 × 4 (R313). -/
def execBr (e : Fin 8) (imm : BitVec 19) (s : State) : Host.Outcome State Fault Refusal :=
  s.ends (s.issue e fun t _ k => .ok (t, k.branch imm))

/-- BZ: branch when g[A] = 0 (R313). -/
def execBz (e : Fin 8) (a : BitVec 5) (imm : BitVec 19) (s : State) : Host.Outcome State Fault Refusal :=
  s.ends (s.issue e fun t _ k => .ok (t, if k.r a = 0 then k.branch imm else k.next))

/-- BNZ: branch when g[A] ≠ 0 (R313). -/
def execBnz (e : Fin 8) (a : BitVec 5) (imm : BitVec 19) (s : State) : Host.Outcome State Fault Refusal :=
  s.ends (s.issue e fun t _ k => .ok (t, if k.r a ≠ 0 then k.branch imm else k.next))

/-- CALL: push PC + 4 and IPTR; PC += IMM19 × 4; a full stack traps (R313, R314). -/
def execCall (e : Fin 8) (imm : BitVec 19) (s : State) : Host.Outcome State Fault Refusal :=
  s.ends (s.issue e fun t _ k =>
    match k.push with
    | none => .error 2
    | some k' => .ok (t, k'.branch imm))

/-- CALLB: as CALL, with IPTR = g[A] (R313, R314). -/
def execCallb (e : Fin 8) (a : BitVec 5) (imm : BitVec 19) (s : State) : Host.Outcome State Fault Refusal :=
  s.ends (s.issue e fun t _ k =>
    match k.push with
    | none => .error 2
    | some k' => .ok (t, ({ k' with iptr := (k.r a).truncate 24 } : Ctx).branch imm))

/-- RET: pop PC and IPTR; an empty stack traps (R313, R314). -/
def execRet (e : Fin 8) (s : State) : Host.Outcome State Fault Refusal :=
  s.ends (s.issue e fun t _ k =>
    match k.stack with
    | [] => .error 2
    | (pc, ip) :: l => .ok (t, { k with pc := pc, iptr := ip, stack := l }))

/-- END: ends the run; the output copy follows (R313). -/
def execEndRun (e : Fin 8) (s : State) : Host.Outcome State Fault Refusal :=
  s.ends (match s.running e with
    | none => s
    | some n => ((s.pmu (8 + e)).endRun e n))

/-- RDST: g[D] = BSTAT (R313). -/
def execRdst (e : Fin 8) (d : BitVec 5) (s : State) : Host.Outcome State Fault Refusal :=
  s.alu e fun k => k.w d k.bstat

/-- CLRST: clears SAT and INV (R313). -/
def execClrst (e : Fin 8) (s : State) : Host.Outcome State Fault Refusal :=
  s.alu e fun k => { k with sat := false, inv := false }

end Sys2Proof.Machine
end

