-- ==== Sys2Proof/Machine/Library.lean ====
section
/-!
DEFINITION. The library blocks and functions that SYS runs (18_block_code R315 to R317): timers, edges, counters, bistables on
an instance in memory, and the functions on registers.
-/
namespace Sys2Proof.Machine

/-- The variables of a block's instance, by place. -/
abbrev Vars := List Word64

/-- A variable. -/
def bvar (v : Vars) (k : Nat) : Word64 := v.getD k 0

/-- A BOOL variable: 0 or 1 (R315). -/
def bbool (v : Vars) (k : Nat) : Bool := bvar v k != 0

/-- What SYS asks before it runs: A is at most 30, and the call stack has room for one level (R314, R315). -/
def sysCheck (a : BitVec 5) (c : Ctx) : Option Nat :=
  if a = 31 then some 1 else if 16 ≤ c.stack.length then some 2 else none

/-- SYS of a stateful block: its instance of `count` variables is read, the block's rule gives what it writes (place and
value), and the next instruction follows (R315). The rule sees the release stamp of the run. -/
def State.sysBlock (s : State) (e : Fin 8) (a : BitVec 5) (count : Nat) (f : Stamp → Vars → List (Nat × Word64)) : State :=
  s.issue e fun t n c =>
    match sysCheck a c with
    | some k => .error k
    | none =>
      if (List.range count).any fun k => (t.blkAddr n (c.r a) k).isNone then .error 2
      else
        let v := (List.range count).map fun k => zext (t.beLoad ((t.blkAddr n (c.r a) k).getD 0) 8)
        let t := (f (t.task n).stamp v).foldl (fun (u : State) w => u.beStore ((t.blkAddr n (c.r a) w.1).getD 0) (leBytes 8 w.2.toNat)) t
        .ok (t, c.next)

/-- SYS of a function: the result goes to g[A] (R315). -/
def State.sysFun (s : State) (e : Fin 8) (a : BitVec 5) (f : Ctx → FRes) : State :=
  s.issue e fun t _ c =>
    match sysCheck a c with
    | some k => .error k
    | none => .ok (t, (c.res a (f c)).next)

/-! Timers (R316): IN, PT, Q, ET, previous IN, last stamp. -/

/-- The time since the last evaluation, from release stamps (R291, R316). -/
def sinceLast (now : Stamp) (v : Vars) : Int := sdiff now ((bvar v 5).truncate 48)

/-- PT; a negative one is read as 0. -/
def presetT (v : Vars) : Int := max 0 (bvar v 1).toInt

/-- What a timer writes: Q, ET, previous IN, last stamp. -/
def timerOut (now : Stamp) (inp q : Bool) (et : Int) : List (Nat × Word64) :=
  [(2, boolW q), (3, BitVec.ofInt 64 et), (4, boolW inp), (5, now.zeroExtend 64)]

/-- TON (R316). -/
def tonRule (now : Stamp) (v : Vars) : List (Nat × Word64) :=
  let inp := bbool v 0
  let pt := presetT v
  if !inp then timerOut now inp false 0
  else if !bbool v 4 then timerOut now inp (decide (pt ≤ 0)) 0
  else
    let et := (bvar v 3).toInt + sinceLast now v
    if pt ≤ et then timerOut now inp true pt else timerOut now inp (bbool v 2) et

/-- TOF: Q follows IN up at once and down PT after IN falls (R316; IEC 61131-3, log entry 44). -/
def tofRule (now : Stamp) (v : Vars) : List (Nat × Word64) :=
  let inp := bbool v 0
  let pt := presetT v
  if inp then timerOut now inp true 0
  else if bbool v 4 then timerOut now inp (decide (0 < pt)) 0
  else if !bbool v 2 then timerOut now inp false (bvar v 3).toInt
  else
    let et := (bvar v 3).toInt + sinceLast now v
    if pt ≤ et then timerOut now inp false pt else timerOut now inp true et

/-- TP: a rising edge starts a pulse of PT, which nothing retriggers; ET returns to 0 once the pulse is over and IN is low
(R316; IEC 61131-3, log entry 44). -/
def tpRule (now : Stamp) (v : Vars) : List (Nat × Word64) :=
  let inp := bbool v 0
  let pt := presetT v
  if bbool v 2 then
    let et := (bvar v 3).toInt + sinceLast now v
    if pt ≤ et then timerOut now inp false (if inp then pt else 0) else timerOut now inp true et
  else if inp && !bbool v 4 then timerOut now inp (decide (0 < pt)) 0
  else timerOut now inp false (if inp then (bvar v 3).toInt else 0)

/-- TON. -/
def execTon (e : Fin 8) (a : BitVec 5) (s : State) : Host.Outcome State Fault Refusal := s.ends (s.sysBlock e a 6 tonRule)
/-- TOF. -/
def execTof (e : Fin 8) (a : BitVec 5) (s : State) : Host.Outcome State Fault Refusal := s.ends (s.sysBlock e a 6 tofRule)
/-- TP. -/
def execTp (e : Fin 8) (a : BitVec 5) (s : State) : Host.Outcome State Fault Refusal := s.ends (s.sysBlock e a 6 tpRule)

/-! Edges (R317): CLK, Q, previous CLK. -/

/-- R_TRIG: Q = CLK and not previous. -/
def rTrigRule (_ : Stamp) (v : Vars) : List (Nat × Word64) := [(1, boolW (bbool v 0 && !bbool v 2)), (2, boolW (bbool v 0))]
/-- F_TRIG: Q = not CLK and previous. -/
def fTrigRule (_ : Stamp) (v : Vars) : List (Nat × Word64) := [(1, boolW (!bbool v 0 && bbool v 2)), (2, boolW (bbool v 0))]

/-- R_TRIG. -/
def execRTrig (e : Fin 8) (a : BitVec 5) (s : State) : Host.Outcome State Fault Refusal := s.ends (s.sysBlock e a 3 rTrigRule)
/-- F_TRIG. -/
def execFTrig (e : Fin 8) (a : BitVec 5) (s : State) : Host.Outcome State Fault Refusal := s.ends (s.sysBlock e a 3 fTrigRule)

/-! Counters (R317): CV stops at the ends of 64 bits. -/

/-- One up, stopping at 2^63 - 1, and one down, stopping at -2^63. -/
def countUp (v : Word64) : Word64 := if v.toInt = 9223372036854775807 then v else v + 1
def countDown (v : Word64) : Word64 := if v.toInt = -9223372036854775808 then v else v - 1

/-- CTU: CU, RESET, PV, Q, CV, previous CU. -/
def ctuRule (_ : Stamp) (v : Vars) : List (Nat × Word64) :=
  let cv := if bbool v 1 then 0 else if bbool v 0 && !bbool v 5 then countUp (bvar v 4) else bvar v 4
  [(3, boolW (decide ((bvar v 2).toInt ≤ cv.toInt))), (4, cv), (5, boolW (bbool v 0))]

/-- CTD: CD, LOAD, PV, Q, CV, previous CD. -/
def ctdRule (_ : Stamp) (v : Vars) : List (Nat × Word64) :=
  let cv := if bbool v 1 then bvar v 2 else if bbool v 0 && !bbool v 5 then countDown (bvar v 4) else bvar v 4
  [(3, boolW (decide (cv.toInt ≤ 0))), (4, cv), (5, boolW (bbool v 0))]

/-- CTUD: CU, CD, RESET, LOAD, PV, QU, QD, CV, previous CU, previous CD; two edges leave CV unchanged. -/
def ctudRule (_ : Stamp) (v : Vars) : List (Nat × Word64) :=
  let up' := bbool v 0 && !bbool v 8
  let dn := bbool v 1 && !bbool v 9
  let cv := if bbool v 2 then 0 else if bbool v 3 then bvar v 4
    else if up' && !dn then countUp (bvar v 7) else if dn && !up' then countDown (bvar v 7) else bvar v 7
  [(5, boolW (decide ((bvar v 4).toInt ≤ cv.toInt))), (6, boolW (decide (cv.toInt ≤ 0))), (7, cv), (8, boolW (bbool v 0)), (9, boolW (bbool v 1))]

/-- CTU. -/
def execCtu (e : Fin 8) (a : BitVec 5) (s : State) : Host.Outcome State Fault Refusal := s.ends (s.sysBlock e a 6 ctuRule)
/-- CTD. -/
def execCtd (e : Fin 8) (a : BitVec 5) (s : State) : Host.Outcome State Fault Refusal := s.ends (s.sysBlock e a 6 ctdRule)
/-- CTUD. -/
def execCtud (e : Fin 8) (a : BitVec 5) (s : State) : Host.Outcome State Fault Refusal := s.ends (s.sysBlock e a 10 ctudRule)

/-! Bistables (R315). -/

/-- SR: set dominates. S1, RESET, Q1. -/
def srRule (_ : Stamp) (v : Vars) : List (Nat × Word64) := [(2, boolW (bbool v 0 || (!bbool v 1 && bbool v 2)))]
/-- RS: reset dominates. SET, R1, Q1. -/
def rsRule (_ : Stamp) (v : Vars) : List (Nat × Word64) := [(2, boolW (!bbool v 1 && (bbool v 0 || bbool v 2)))]

/-- SR. -/
def execSrBlock (e : Fin 8) (a : BitVec 5) (s : State) : Host.Outcome State Fault Refusal := s.ends (s.sysBlock e a 3 srRule)
/-- RS. -/
def execRsBlock (e : Fin 8) (a : BitVec 5) (s : State) : Host.Outcome State Fault Refusal := s.ends (s.sysBlock e a 3 rsRule)

/-! Functions (R315): a NaN operand propagates (R311), an argument outside the domain gives NaN with INV, an overflow +∞ with
SAT; the values are Elem.lean's (log entry 3). -/

/-- Is a value infinite? -/
def fisInf (a : Word64) : Bool := fabs a == inf64

/-- A library result. -/
def libRes (args : List Word64) (domain : Bool) (v : Word64) : FRes :=
  if args.any fisNaN then plainR nan64
  else if !domain then ⟨nan64, false, true⟩
  else if fisInf v && args.all fisFin then ⟨inf64, true, false⟩
  else plainR v

/-- A function of one argument. -/
def State.sys1 (s : State) (e : Fin 8) (a : BitVec 5) (dom : Word64 → Bool) (f : Word64 → Word64) : State :=
  s.sysFun e a fun c => libRes [c.r a] (dom (c.r a)) (f (c.r a))

/-- A function of two arguments, in g[A] and g[A + 1]. -/
def State.sys2 (s : State) (e : Fin 8) (a : BitVec 5) (dom : Word64 → Word64 → Bool) (f : Word64 → Word64 → Word64) : State :=
  s.sysFun e a fun c => libRes [c.r a, c.r (a + 1)] (dom (c.r a) (c.r (a + 1))) (f (c.r a) (c.r (a + 1)))

/-- Between -1 and 1. -/
def inUnit (x : Word64) : Bool := fle (fabs x) one64
/-- Above zero. -/
def posArg (x : Word64) : Bool := flt zero64 x

/-- The domain of EXPT: a positive base, a zero base with an exponent not negative, a negative base with an integral one. -/
def powDom (x y : Word64) : Bool :=
  if flt zero64 x then true
  else if feq x zero64 then fle zero64 y
  else fisInf y || feq (frnd .zero y) y

/-- SIN. -/
def execSinF (e : Fin 8) (a : BitVec 5) (s : State) : Host.Outcome State Fault Refusal := s.ends (s.sys1 e a fisFin fsin)
/-- COS. -/
def execCosF (e : Fin 8) (a : BitVec 5) (s : State) : Host.Outcome State Fault Refusal := s.ends (s.sys1 e a fisFin fcos)
/-- TAN. -/
def execTanF (e : Fin 8) (a : BitVec 5) (s : State) : Host.Outcome State Fault Refusal := s.ends (s.sys1 e a fisFin ftan)
/-- ASIN. -/
def execAsinF (e : Fin 8) (a : BitVec 5) (s : State) : Host.Outcome State Fault Refusal := s.ends (s.sys1 e a inUnit fasin)
/-- ACOS. -/
def execAcosF (e : Fin 8) (a : BitVec 5) (s : State) : Host.Outcome State Fault Refusal := s.ends (s.sys1 e a inUnit facos)
/-- ATAN. -/
def execAtanF (e : Fin 8) (a : BitVec 5) (s : State) : Host.Outcome State Fault Refusal := s.ends (s.sys1 e a (fun _ => true) fatan)
/-- ATAN2. -/
def execAtan2F (e : Fin 8) (a : BitVec 5) (s : State) : Host.Outcome State Fault Refusal := s.ends (s.sys2 e a (fun _ _ => true) fatan2)
/-- EXP. -/
def execExpF (e : Fin 8) (a : BitVec 5) (s : State) : Host.Outcome State Fault Refusal := s.ends (s.sys1 e a (fun _ => true) fexp)
/-- LN: of a positive number. -/
def execLnF (e : Fin 8) (a : BitVec 5) (s : State) : Host.Outcome State Fault Refusal := s.ends (s.sys1 e a posArg fln)
/-- LOG: base 10, of a positive number. -/
def execLogF (e : Fin 8) (a : BitVec 5) (s : State) : Host.Outcome State Fault Refusal := s.ends (s.sys1 e a posArg flog)
/-- EXPT: g[A] to the power g[A + 1]. -/
def execExptF (e : Fin 8) (a : BitVec 5) (s : State) : Host.Outcome State Fault Refusal := s.ends (s.sys2 e a powDom fpow)

end Sys2Proof.Machine
end

