-- ==== Sys2Proof/Machine/Port.lean ====
section
/-!
DEFINITION. The Command Port (19_command_port R318 to R335): reception, the one interpreter, and every operation.
-/
namespace Sys2Proof.Machine

/-! Opcodes (R328). -/

/-- The shortest and the longest payload of an opcode; none: no such opcode. -/
def cpLen (op : Nat) : Option (Nat × Nat) :=
  if op = 0x00 then some (0, 1023) else if op = 0x01 || op = 0x02 then some (0, 0)
  else if op = 0x10 then some (6, 6) else if op = 0x11 then some (10, 1022) else if op = 0x12 then some (13, 13)
  else if op = 0x13 then some (9, 9) else if op = 0x20 then some (4, 4) else if op = 0x21 then some (5, 1023)
  else if op = 0x22 || op = 0x23 || op = 0x25 then some (0, 0) else if op = 0x24 then some (3, 3)
  else if op = 0x30 then some (4, 4) else if op = 0x31 then some (3, 512) else if op = 0x32 then some (7, 7)
  else if op = 0x33 then some (3, 3) else if op = 0x40 then some (2, 2) else if op = 0x41 || op = 0x43 then some (0, 0)
  else if op = 0x42 then some (24, 24) else if op = 0x44 then some (12, 12) else if op = 0x50 then some (3, 3)
  else if 0x51 ≤ op && op ≤ 0x54 then some (0, 0) else if op = 0x60 then some (2, 2) else if op = 0x61 then some (0, 0)
  else if op = 0x70 then some (0, 0) else if op = 0x71 then some (9, 9) else if op = 0x72 then some (1, 1)
  else if 0x80 ≤ op && op ≤ 0x82 then some (2, 2) else if op = 0x83 || op = 0x90 then some (0, 0)
  else if op = 0x91 then some (2, 2) else if op = 0xA0 then some (12, 12) else if op = 0xA1 then some (4, 4)
  else if op = 0xA2 then some (0, 0) else if op = 0xA3 then some (1, 1) else if op = 0xF0 then some (3, 3)
  else none

/-- Only groups 0 to 3 and F are served: MATCH is 0, or boot has not completed (R328, R351). -/
def State.cpLimited (s : State) : Bool := !s.flag F.SYS_PERSONA_MATCH || !s.flag F.SYS_BOOT_DONE

/-- The status of a request that is turned away before its operation (R328): no such opcode, a wrong length, a group not
served in this state, a unit the persona keeps off. -/
def State.cpGate (s : State) (op n : Nat) : Option CpSt :=
  match cpLen op with
  | none => some .badOpcode
  | some (lo, hi) =>
    let g := op / 16
    if n < lo || hi < n then some .badParam
    else if s.cpLimited && !(g ≤ 3 || g == 15) then some .notNow
    else if s.persona != 0 && (g == 4 || g == 5 || op == 0x13) then some .notNow
    else none

/-- What an operation answers: its status and what follows it; none while it goes on. -/
abbrev CpAns := Option (CpSt × List Byte)

/-- An answer of a status alone. -/
def cpStatus (s : State) (st : CpSt) : State × CpAns := (s, some (st, []))

/-- A register as an operation reports it: 0 while its domain is not ON. -/
def State.cpPeek (s : State) (a : Nat) : Nat :=
  match regDesc a with
  | none => 0
  | some r => if s.domOn r.dom then (s.shown .host a).toNat else 0

/-- A field as an operation reports it. -/
def State.cpField (s : State) (f : Fld) : Nat := f.of (BitVec.ofNat 32 (s.cpPeek f.addr))

/-- The key of a keyed operation; a wrong one counts in SYS_KEYERR and is DENIED (R14, R324). -/
def State.cpKey (s : State) (key : Nat) (f : State × CpAns) : State × CpAns :=
  if key = 0x5AFE then f else cpStatus (s.bump F.SYS_KEYERR_COUNT) .denied

/-! Identity, status and registers. -/

/-- IDENTIFY (R328, R351). -/
def State.opIdentify (s : State) : State × CpAns :=
  let i := s.pwr.image
  let fw := if s.flag F.SYS_BOOT_DONE then Config.fwVersion i.psig i.zalSig else Config.romVersion
  (s, some (.ok, leBytes 4 (s.cpPeek R.SYS_ID) ++ leBytes 4 (s.cpPeek R.SYS_PERSONA) ++ leBytes 4 fw.toNat
    ++ leBytes 1 (s.cpField F.SYS_BOOT_SLOT) ++ leBytes 3 0 ++ leBytes 4 (s.cpPeek R.BE_PROG) ++ leBytes 4 (s.cpPeek R.ZAL_SIG)))

/-- STATUS (R328). -/
def State.opStatus (s : State) : State × CpAns :=
  (s, some (.ok, leBytes 4 (s.cpPeek R.SYS_CYC_NUM) ++ leBytes 4 (s.cpPeek R.SYS_CYC_STAT) ++ leBytes 4 (s.cpPeek R.HA_STAT)
    ++ leBytes 4 (s.cpPeek R.KZ_STAT) ++ leBytes 1 (s.cpField F.FE_EST_STAT_QUAL) ++ leBytes 1 (s.cpField F.SK_STAT_MODE)
    ++ leBytes 1 (s.cpField F.TIME_STAT_TQ) ++ leBytes 1 0))

/-- Is every word of a block aligned and in a mapped region? -/
def State.cpMapped (s : State) (a n : Nat) : Bool :=
  a % 4 == 0 && (List.range n).all fun k => s.region (a + 4 * k) != .unmapped

/-- An unmapped word in a request counts in SYS_BUSERR, once a request (R337; log entry 236). -/
def State.cpUnmapped (s : State) (a n : Nat) : State :=
  if (List.range n).any fun k => s.region (a + 4 * k) == .unmapped then s.busErr else s

/-- May HOST read every word of a block (R406)? -/
def State.cpReadable (s : State) (a n : Nat) : Bool := (List.range n).all fun k => mayRead .host (s.region (a + 4 * k))

/-- Read n words from an address in order, as HOST. -/
def State.cpReadWords (s : State) (a : Nat) : Nat → State × List Byte
  | 0 => (s, [])
  | n + 1 =>
    let r := s.busRead .host a
    let t := State.cpReadWords r.1 (a + 4) n
    (t.1, leBytes 4 r.2.toNat ++ t.2)

/-- RD (R328). -/
def State.opRd (s : State) (p : List Byte) : State × CpAns :=
  let a := blkField p 0 5
  let n := blkField p 5 1
  if n = 0 || !s.cpMapped a n then cpStatus (s.cpUnmapped a n) .badParam
  else if !s.cpReadable a n then cpStatus s.busErr .denied
  else
    let r := s.cpReadWords a n
    (r.1, some (.ok, r.2))

/-- The judged registers (R329); every write of ZAL_DISC_CTRL writes its COMMISSION. -/
def cpJudged (a : Nat) : Bool :=
  a == R.SYS_SAFE_REQ || a == R.HA_CTRL || a == R.BE_FOP || a == R.TIME_STEP || a == R.ZAL_DISC_CTRL
    || (0x400E0000 ≤ a && a < 0x400E3000 && a % 0x200 == 0)

/-- Write words in order as HOST, stopping at the first that is discarded: the status, and the words written (R329). -/
def State.cpWriteWords (s : State) (a k : Nat) : List Word → State × CpSt × Nat
  | [] => (s, .ok, k)
  | v :: t =>
    let r := s.busWrite .host a v
    if r.2 = .ok then State.cpWriteWords r.1 (a + 4) (k + 1) t else (r.1, r.2, k)

/-- The words of a payload. -/
def cpWords (p : List Byte) (o n : Nat) : List Word := (List.range n).map fun k => BitVec.ofNat 32 (blkField p (o + 4 * k) 4)

/-- WR (R328, R329). -/
def State.opWr (s : State) (p : List Byte) : State × CpAns :=
  let a := blkField p 0 5
  let n := blkField p 5 1
  if n = 0 || 254 < n || p.length ≠ 6 + 4 * n || !s.cpMapped a n then cpStatus (s.cpUnmapped a n) .badParam
  else if 1 < n && (List.range n).any fun k => cpJudged (a + 4 * k) then cpStatus s .badParam
  else
    let r := s.cpWriteWords a 0 (cpWords p 6 n)
    (r.1, some (r.2.1, leBytes 1 r.2.2))

/-- RMW (R328, R329). -/
def State.opRmw (s : State) (p : List Byte) : State × CpAns :=
  let a := blkField p 0 5
  let m : Word := BitVec.ofNat 32 (blkField p 5 4)
  let v : Word := BitVec.ofNat 32 (blkField p 9 4)
  if !s.cpMapped a 1 then cpStatus (s.cpUnmapped a 1) .badParam
  else if !s.cpReadable a 1 then cpStatus s.busErr .denied
  else
    let r := s.busRead .host a
    let w := r.1.busWrite .host a ((r.2 &&& ~~~ m) ||| (v &&& m))
    (w.1, some (w.2, leBytes 4 r.2.toNat))

/-- GN_CONFIG (R330): ADDR must be a register of the GN map. -/
def State.opGnConfig (s : State) (p : List Byte) : State × CpAns :=
  let a := blkField p 0 5
  if (regDesc a).isNone || a < 0x40200000 || 0x40300000 ≤ a then cpStatus s .badParam
  else cpStatus (s.gnConfig .host a (BitVec.ofNat 32 (blkField p 5 4))) .ok

/-! Images (R331). -/

/-- Change the non-volatile and staging stores. -/
def State.modNvm (s : State) (f : Nvm → Nvm) : State := { s with nvm := f s.nvm }

/-- IMG_BEGIN. -/
def State.opImgBegin (s : State) (p : List Byte) : State × CpAns :=
  let n := blkField p 0 4
  if s.dramBytes = 0 then cpStatus s .notNow
  else if 0x1000000 < n then cpStatus s .badParam
  else cpStatus (s.modNvm fun v => { v with imgSize := some n, imgRecv := 0, imgBuf := [], imgOpen := true }) .ok

/-- IMG_DATA. -/
def State.opImgData (s : State) (p : List Byte) : State × CpAns :=
  let o := blkField p 0 4
  let b := p.drop 4
  match s.nvm.imgSize with
  | none => cpStatus s .notNow
  | some n =>
    if s.dramBytes = 0 then cpStatus s .notNow
    else if n < o + b.length then cpStatus s .badParam
    else cpStatus (s.modNvm fun v => { v with imgRecv := v.imgRecv + b.length, imgBuf := storePut 0xFF v.imgBuf o b }) .ok

/-- IMG_COMMIT: the verification begins, unless an activation waits. -/
def State.opImgCommit (s : State) : State × CpAns :=
  if s.dramBytes = 0 || s.get F.BE_ACT_ASTATE ≠ 0 then cpStatus s .notNow else (s, none)

/-- An activation refused (BE_ACT.ARES). -/
def State.actRefused (s : State) (st : CpSt) : State × CpAns :=
  cpStatus (if s.domOn 2 then s.set F.BE_ACT_ARES 2 else s) st

/-- IMG_ACTIVATE: accepted, or refused (R295, R331, R351). -/
def State.opImgActivate (s : State) : State × CpAns :=
  if s.cpLimited || !s.domOn 2 then cpStatus s .notNow
  else match s.be.staged with
    | none => s.actRefused .notNow
    | some p =>
      let sys := match s.be.stagedImg with
        | some i => i.zalSig != s.pwr.image.zalSig
        | none => false
      if s.run && sys then s.actRefused .notNow
      else if p.base = 0 && s.run then s.actRefused .badParam
      else if p.base ≠ 0 && p.base ≠ s.word R.BE_PROG then s.actRefused .badParam
      else
        let now := s.now
        ((s.modBe fun b => { b with actAt := some now }).set F.BE_ACT_ASTATE 1, none)

/-- IMG_FLASH. -/
def State.opImgFlash (s : State) (p : List Byte) : State × CpAns :=
  match s.nvm.commit with
  | none => cpStatus s .notNow
  | some (_, n, _) =>
    if s.dramBytes = 0 then cpStatus s .notNow
    else if 1 < blkField p 0 1 || n ≤ 0x10000 * blkField p 1 2 then cpStatus s .badParam
    else (s, none)

/-- IMG_STATUS: empty, receiving since the last IMG_BEGIN, or committed. -/
def State.opImgStatus (s : State) : State × CpAns :=
  let st := if s.nvm.imgOpen then 1 else if s.nvm.commit.isSome then 2 else 0
  let ps : Nat := match s.nvm.commit with
    | some c => c.2.2.toNat
    | none => 0
  (s, some (.ok, leBytes 1 st ++ leBytes 3 0 ++ leBytes 4 s.nvm.imgRecv ++ leBytes 4 ps))

/-! OTP (R332, R340 to R344). -/

/-- OTP_READ. -/
def State.opOtpRead (s : State) (p : List Byte) : State × CpAns :=
  let o := blkField p 0 2
  let n := blkField p 2 2
  if n = 0 || 1020 < n || 0x2000 < o + n then cpStatus s .badParam else (s, some (.ok, s.otpBytes o n))

/-- OTP_STAGE. -/
def State.opOtpStage (s : State) (p : List Byte) : State × CpAns :=
  let o := blkField p 0 2
  let b := p.drop 2
  if 512 < o + b.length then cpStatus s .badParam
  else cpStatus (s.modNvm fun v => { v with otpStage := storePut 0 v.otpStage o b }) .ok

/-- Does the staging copy break a rule of R343? -/
def State.otpBadBlock (s : State) : Bool :=
  let b := s.stageBytes
  let use := s.latchedBlock
  let persona := blkField b 8 1
  let node := blkField b 0xA 2
  ((List.range 4).any fun k => (keyHash use k).any (fun x => x != 0) && keyHash b k != keyHash use k)
    || (persona == 0 && decide (1 < node)) || ((persona == 1 || persona == 2) && decide (node ≤ 1))
    || decide (511 < node) || decide (2 < persona) || decide (4 < blkField b 0x2C 1)

/-- OTP_BURN: refused, or the burn begins. -/
def State.opOtpBurn (s : State) (p : List Byte) : State × CpAns :=
  s.cpKey (blkField p 0 2) (
    if s.run || !s.flag F.OTP_STAT_VPP then cpStatus s .notNow
    else if s.genFree ≠ some (blkField p 2 1) || blkField p 3 4 ≠ (crc32c s.stageBytes).toNat || s.otpBadBlock then
      cpStatus s .badParam
    else (s, none))

/-- OTP_REVOKE: refused, or the burn begins. -/
def State.opOtpRevoke (s : State) (p : List Byte) : State × CpAns :=
  let k := blkField p 2 1
  s.cpKey (blkField p 0 2) (
    if s.run || !s.flag F.OTP_STAT_VPP then cpStatus s .notNow
    else if 3 < k then cpStatus s .badParam
    else if !(List.range 4).any fun j => j != k && ((keyHash s.latchedBlock j).any fun x => x != 0) && !s.revoked j then
      cpStatus s .badParam
    else (s, none))

/-! Station keeping (R333). -/

/-- Station-keeping requests are taken: RUN is 1 and the unit is ACTIVE or ISOLATED. -/
def State.cpSkOpen (s : State) : Bool := s.run && s.drives

/-- Write SK_CMD and wait for a release to take the request. -/
def State.cpSkWrite (s : State) (v : Word) : State × CpAns :=
  let r := skCmdWrite { s with sk := { s.sk with taken := none } } .host v true
  if r.2 = .ok then
    (r.1.modCp fun c => { c with op := c.op.map fun o => { o with replaced := false } }, none)
  else (r.1, some (r.2, leBytes 1 15))

/-- SK_MODE. -/
def State.opSkMode (s : State) (p : List Byte) : State × CpAns :=
  if !s.cpSkOpen then (s, some (.notNow, leBytes 1 15))
  else if 6 < blkField p 0 1 || 1 < blkField p 1 1 then cpStatus s .badParam
  else s.cpSkWrite (skWord 1 (blkField p 0 1) (blkField p 1 1 == 1))

/-- SK_STAKE_HERE. -/
def State.opSkStakeHere (s : State) : State × CpAns :=
  if !s.cpSkOpen then (s, some (.notNow, leBytes 1 15)) else s.cpSkWrite (skWord 2 0 false)

/-- SK_MOVE: the target registers, then SK_CMD. -/
def State.opSkMove (s : State) (p : List Byte) : State × CpAns :=
  if !s.cpSkOpen then (s, some (.notNow, leBytes 1 15))
  else ((s.cpWriteWords (R.SK_TGT_D 0) 0 (cpWords p 0 6)).1).cpSkWrite (skWord 3 0 false)

/-- SK_HALT. -/
def State.opSkHalt (s : State) : State × CpAns :=
  if !s.cpSkOpen then (s, some (.notNow, leBytes 1 15)) else s.cpSkWrite (skWord 4 0 false)

/-- SK_JOY: the three registers (R105), answered at once. -/
def State.opSkJoy (s : State) (p : List Byte) : State × CpAns :=
  cpStatus ((cpWords p 0 3).zipIdx.foldl (fun t v => (t.busWrite .host (R.SK_JOY v.2) v.1).1) s) .ok

/-! Survey (R79 to R81, R333). -/

/-- SURVEY_REC: FE_SURV_CTRL written. -/
def State.opSurveyRec (s : State) (p : List Byte) : State × CpAns :=
  if 1 < blkField p 0 1 then cpStatus s .badParam
  else
    let r := s.busWrite .host R.FE_SURV_CTRL (BitVec.ofNat 32 (blkField p 1 2 + 0x10000 * blkField p 0 1))
    cpStatus r.1 r.2

/-- SURVEY_RUN: the run starts (R80). -/
def State.opSurveyRun (s : State) : State × CpAns :=
  if !s.domOn 7 then cpStatus s .notNow
  else if s.get F.FE_SURV_STAT_EPOCHS < 64 || !s.run then cpStatus s .badParam
  else (s.survRun, none)

/-- Write the proposal to the shadow descriptors and mark each stream that changes (R81). -/
def State.writeProposal (s : State) : State :=
  s.surv.prop.foldl (fun t e =>
    let v := e.2.1
    let old := t.fdl e.1 ++ (t.fdc e.1).flatten
    let t := (fdAddrs e.1).zipIdx.foldl (fun u a =>
      u.setShWord a.1 (BitVec.ofNat 32 ((vget v (a.2 / 2)).toNat / 2 ^ (32 * (a.2 % 2))))) t
    if old = v then t else t.modStream e.1 fun x => { x with fdMark := true }) s

/-- SURVEY_COMMIT (R81): descriptors and biases take effect at the next snap. -/
def State.opSurveyCommit (s : State) : State × CpAns :=
  if s.get F.FE_SURV_STAT_PSTATE ≠ 2 || 2 ≤ s.get F.FE_EST_STAT_QUAL || s.flag F.FE_SURV_STAT_STALE_PROP || !s.domOn 7 then
    cpStatus s .notNow
  else
    let s := { s.writeProposal with surv := { s.surv with due := s.surv.prop.map (fun e : Nat × List Word64 × List Word64 => (e.1, e.2.2)) } }
    cpStatus (s.set F.FE_SURV_STAT_PSTATE 3) .ok

/-- SURVEY_DISCARD (R81): the stored epochs stay. -/
def State.opSurveyDiscard (s : State) : State × CpAns :=
  if !s.domOn 7 then cpStatus s .notNow
  else cpStatus ({ s.set F.FE_SURV_STAT_PSTATE 0 with surv := { s.surv with prop := [] } }) .ok

/-- SURVEY_STATUS. -/
def State.opSurveyStatus (s : State) : State × CpAns := (s, some (.ok, leBytes 4 (s.cpPeek R.FE_SURV_STAT)))

/-! Self-test (R334). -/

/-- SELFTEST: refused, or the tests begin. -/
def State.opSelftest (s : State) (p : List Byte) : State × CpAns :=
  let m := blkField p 0 2
  if 512 ≤ m then cpStatus s .badParam
  else if s.run || (m / 128 % 2 = 1 && (s.cpField F.KZ_STAT_STATE = 1 || s.cpField F.KZ_STAT_STATE = 2)) then cpStatus s .notNow
  else (s, none)

/-- SELFTEST_LAST. -/
def State.opSelftestLast (s : State) : State × CpAns :=
  (s, some (.ok, leBytes 2 s.cp.stMask ++ leBytes 2 s.cp.stPass ++ leBytes 2 s.cp.stFail))

/-! Time, pair, recorder, forcing, reset (R335). -/

/-- TIME_GET: one latch (R240). -/
def State.opTimeGet (s : State) : State × CpAns :=
  let r := s.busRead .host R.TIME_NOWL
  let s := r.1
  (s, some (.ok, leBytes 4 r.2.toNat ++ leBytes 4 (s.cpPeek R.TIME_NOWH) ++ leBytes 4 (s.cpPeek R.TIME_NOWF)
    ++ leBytes 1 (s.cpField F.TIME_STAT_TQ) ++ leBytes 1 (s.cpField F.TIME_STAT_SRC) ++ leBytes 2 0 ++ leBytes 4 (s.cpPeek R.TIME_ACC)))

/-- TIME_STEP: TIME_SETL, TIME_SETH, then TIME_STEP (R244). -/
def State.opTimeStep (s : State) (p : List Byte) : State × CpAns :=
  if 3 < blkField p 0 1 then cpStatus s .badParam
  else
    let s := (s.cpWriteWords R.TIME_SETL 0 (cpWords p 1 2)).1
    let r := s.busWrite .host R.TIME_STEP (keyed (blkField p 0 1) 0x5AFE)
    cpStatus r.1 r.2

/-- TIME_LEAP: TIME_LEAP written (R247). -/
def State.opTimeLeap (s : State) (p : List Byte) : State × CpAns :=
  let r := s.busWrite .host R.TIME_LEAP (BitVec.ofNat 32 (blkField p 0 1))
  cpStatus r.1 r.2

/-- A keyed write with the request's own key. -/
def State.cpKeyed (s : State) (a bit : Nat) (p : List Byte) : State × CpAns :=
  let r := s.busWrite .host a (keyed bit (BitVec.ofNat 16 (blkField p 0 2)))
  cpStatus r.1 r.2

/-- PAIR_STATUS. -/
def State.opPairStatus (s : State) : State × CpAns :=
  (s, some (.ok, leBytes 4 (s.cpPeek R.HA_STAT) ++ leBytes 4 (s.cpPeek R.HA_TERM) ++ leBytes 4 (s.cpPeek R.HA_TERMSRC)
    ++ leBytes 4 (s.cpPeek R.HA_CKCYC)))

/-- Whole records from the cursor that fit in the bytes left, each read moving the cursor on (R335, R383). -/
def State.cpRecords (s : State) (left : Nat) : Nat → State × List Byte
  | 0 => (s, [])
  | n + 1 =>
    match (if s.flag F.REC_CTL_WVALID then recAtOrAbove s.recd.recs (s.word R.REC_CUR) else none) with
    | none => (s, [])
    | some r =>
      let b := recBytes r
      if left < b.length then (s, [])
      else
        let t := State.cpRecords s.recNext (left - b.length) n
        (t.1, b ++ t.2)

/-- REC_READ. A record takes at least 32 bytes, so 31 fit. -/
def State.opRecRead (s : State) : State × CpAns :=
  let r := s.refreshWindow.cpRecords 1020 32
  (r.1, some (.ok, r.2))

/-- A forcing operation's writes (R298, R299). -/
def State.cpForce (s : State) (op : Nat) (p : List Byte) : State × CpAns :=
  let s := (s.cpWriteWords R.BE_FNAME 0 (cpWords p 0 (p.length / 4))).1
  let r := s.busWrite .host R.BE_FOP (fopWord 0x5AFE op)
  cpStatus r.1 r.2

/-- FORCE_LIST: up to 63 entries of the force table. -/
def State.opForceList (s : State) (p : List Byte) : State × CpAns :=
  let k := blkField p 0 1
  if !s.domOn 2 then cpStatus s .notNow
  else (s, some (.ok, (List.range (min 63 (256 - k))).flatMap fun i =>
    (wordsFrom (R.BE_FE_ID (k + i)) 4).flatMap fun a => leBytes 4 (s.word a).toNat))

/-- Has the last reply left: none waits on SPI, and none in a port's queue? -/
def State.cpGone (s : State) : Bool := (s.cpRx 0).waiting.isEmpty && s.net.tx.all fun q => q.all fun e => match e.fill with
  | .reply _ => false
  | _ => true

/-- The soft reset that RESET asked for follows its reply (R335; log entry 237). -/
def State.cpReset (s : State) : State := if s.cp.resetDue && s.cpGone then s.deviceReset .soft else s

/-- RESET: answered OK, then a soft reset; NOT_NOW while RUN is 1 and FORCE is 0 (R335). -/
def State.opReset (s : State) (p : List Byte) : State × CpAns :=
  s.cpKey (blkField p 0 2) (
    if s.run && blkField p 2 1 = 0 then cpStatus s .notNow
    else (((s.cpFinish .ok []).modCp fun c => { c with resetDue := true }).cpReset, none))

/-! With no command waiting (log entry 52). -/

/-- May the firmware put SVC (0) or SAFE (1) into DOZE: its core is powered, runs its firmware, and has no line asserted (R350,
R359)? -/
def State.mayDoze (s : State) (x : Nat) : Bool :=
  (s.pwr.stage == .firmware || s.pwr.stage == .done) && s.domOn (if x = 0 then 1 else 4) && !(s.proc x).doze
    && !s.flag (F.IC_LEVEL_LINE x)

/-- The firmware of SVC or SAFE puts its processor into DOZE when it will (R359; log entry 221). -/
def State.fwDoze (s : State) (x : Nat) : State := if s.mayDoze x && Config.fwDozes x s.now then s.setDoze x true else s

/-- What comes about with no command waiting: a tick passes (R239), frames whose ports are free leave (R250), a reset waiting for
its reply comes (R335), and the firmware of SVC and SAFE may enter DOZE (R359). -/
def State.idle (s : State) : State := ((s.tick.flushAll.cpReset).fwDoze 0).fwDoze 1

/-! The interpreter (R323 to R328). -/

/-- What an operation does. -/
def State.cpExec (s : State) (op : Nat) (p : List Byte) : State × CpAns :=
  if op = 0x00 then (s, some (.ok, p))
  else if op = 0x01 then s.opIdentify
  else if op = 0x02 then s.opStatus
  else if op = 0x10 then s.opRd p
  else if op = 0x11 then s.opWr p
  else if op = 0x12 then s.opRmw p
  else if op = 0x13 then s.opGnConfig p
  else if op = 0x20 then s.opImgBegin p
  else if op = 0x21 then s.opImgData p
  else if op = 0x22 then s.opImgCommit
  else if op = 0x23 then s.opImgActivate
  else if op = 0x24 then s.opImgFlash p
  else if op = 0x25 then s.opImgStatus
  else if op = 0x30 then s.opOtpRead p
  else if op = 0x31 then s.opOtpStage p
  else if op = 0x32 then s.opOtpBurn p
  else if op = 0x33 then s.opOtpRevoke p
  else if op = 0x40 then s.opSkMode p
  else if op = 0x41 then s.opSkStakeHere
  else if op = 0x42 then s.opSkMove p
  else if op = 0x43 then s.opSkHalt
  else if op = 0x44 then s.opSkJoy p
  else if op = 0x50 then s.opSurveyRec p
  else if op = 0x51 then s.opSurveyRun
  else if op = 0x52 then s.opSurveyCommit
  else if op = 0x53 then s.opSurveyDiscard
  else if op = 0x54 then s.opSurveyStatus
  else if op = 0x60 then s.opSelftest p
  else if op = 0x61 then s.opSelftestLast
  else if op = 0x70 then s.opTimeGet
  else if op = 0x71 then s.opTimeStep p
  else if op = 0x72 then s.opTimeLeap p
  else if op = 0x80 then s.cpKeyed R.HA_CTRL 1 p
  else if op = 0x81 then s.cpKeyed R.HA_CTRL 4 p
  else if op = 0x82 then s.cpKeyed R.HA_CTRL 2 p
  else if op = 0x83 then s.opPairStatus
  else if op = 0x90 then s.opRecRead
  else if op = 0x91 then s.cpKeyed R.REC_CLR 1 p
  else if op = 0xA0 then s.cpForce 1 p
  else if op = 0xA1 then s.cpForce 2 p
  else if op = 0xA2 then s.cpForce 3 p
  else if op = 0xA3 then s.opForceList p
  else if op = 0xF0 then s.opReset p
  else cpStatus s .badOpcode

/-- A taken request runs: it is turned away, answered, or goes on (R326). -/
def State.cpRun (s : State) (o : CpOp) : State :=
  let s := (s.modCp fun c => { c with op := some o }).showCp
  match s.cpGate o.op o.payload.length with
  | some st => s.cpFinish st []
  | none =>
    let r := s.cpExec o.op o.payload
    match r.2 with
    | some a => r.1.cpFinish a.1 a.2
    | none => r.1

/-- A whole packet has arrived (R320, R323, R325, R326): BUSY while an operation runs, BAD_CRC, a reply from outside
discarded, a request equal to the kept one answered again, or a request taken. -/
def State.cpTake (s : State) (t via src : Nat) (b : List Byte) : State :=
  let n := blkField b 4 2
  let flags := blkField b 1 1
  let op := blkField b 2 1
  let seq := blkField b 3 1
  let crc := blkField b (7 + n) 4
  match s.cp.op with
  | some o =>
    (s.bump F.CP_CNT0_BUSY_SENT).cpSend t via src
      (cpReplyBytes op seq .busy (leBytes 1 o.op ++ leBytes 1 (o.op / 128) ++ leBytes 2 (s.msSince o.startAt 16)))
  | none =>
    let key := [seq, op, flags, crc, if t = 2 then src else 0]
    if crc ≠ (crc32c (b.take (7 + n))).toNat then (s.bump F.CP_CNT0_BAD_CRC).cpSend t via src (cpReplyBytes op seq .badCrc [])
    else if flags % 2 = 1 then s.bump F.CP_CNT1_REPLY_IN
    else if (s.cpRx t).lastKey = some key then (s.bump F.CP_CNT0_DUP).cpSend t via src (s.cpRx t).lastReply
    else s.cpRun ⟨op, t, via, src, seq, key, b.drop 7 |>.take n, s.now, false⟩

/-! Reception (R318 to R320). -/

/-- Is a transport served: the interpreter runs, and on UDP the port is P4, or P0 or P1 with CP_EN; in the boot state P4 with
an address in the generation in use (R318, R350, R351)? -/
def State.cpServes (s : State) (t via : Nat) : Bool :=
  s.domOn 1 && s.pwr.stage != .held && !s.pwr.deep
    && (t != 2 || (if s.cpLimited then via == 4 && s.word (R.OTP_CFG 9) != 0
      else s.domOn 11 && (via == 4 || (decide (via ≤ 1) && s.flag (F.NET_CFG_CP_EN via)))))

/-- Hunt for packets in the bytes received; the bytes of a packet not yet whole are left (R320). -/
def State.cpHunt (s : State) (t : Nat) (b : List Byte) : Nat → State × List Byte
  | 0 => (s, [])
  | n + 1 =>
    if s.pwr.stage = .held then (s, [])
    else match b with
      | [] => (s, [])
      | x :: rest =>
        if x ≠ 0xD7 then State.cpHunt s t rest n
        else if b.length < 7 then (s, b)
        else if crc8 (b.take 6) ≠ b.getD 6 0 then State.cpHunt (s.bump F.CP_CNT0_HDR_ERR) t rest n
        else
          let len := blkField b 4 2
          if 1024 < len then
            State.cpHunt (s.cpSend t 0 0 (cpReplyBytes (blkField b 2 1) (blkField b 3 1) .badParam [])) t (b.drop 7) n
          else if b.length < 11 + len then (s, b)
          else State.cpHunt (s.cpTake t 0 0 (b.take (11 + len))) t (b.drop (11 + len)) n

/-- Hunt for the one packet of a datagram of n bytes (R318, R320): its length must be 11 + LEN. A packet whose header or bytes the
datagram does not hold whole is discarded as one of a wrong length (log entry 75). -/
def State.cpDatagram (s : State) (via src n : Nat) (b : List Byte) : Nat → State
  | 0 => s
  | k + 1 =>
    match b with
    | [] => s
    | x :: rest =>
      if x ≠ 0xD7 then State.cpDatagram s via src n rest k
      else if b.length < 7 then s.bump F.CP_CNT1_UDP_LEN
      else if crc8 (b.take 6) ≠ b.getD 6 0 then State.cpDatagram (s.bump F.CP_CNT0_HDR_ERR) via src n rest k
      else
        let len := blkField b 4 2
        if 1024 < len then
          State.cpDatagram (s.cpSend 2 via src (cpReplyBytes (blkField b 2 1) (blkField b 3 1) .badParam [])) via src n (b.drop 7) k
        else if n ≠ 11 + len || b.length ≠ n then s.bump F.CP_CNT1_UDP_LEN
        else s.cpTake 2 via src b

/-- Keep the bytes of a packet under reception. -/
def State.cpPart (s : State) (t : Nat) (b : List Byte) : State :=
  s.modCp fun c => { c with rx := padMod ⟨[], none, [], []⟩ t (fun r => { r with part := b }) c.rx }

/-- PACKET_RECEIVE: bytes arrive on a transport (0 SPI, 1 UART, 2 UDP by a port from a source address and port), and each packet
they complete is checked, deduplicated, and executed or answered BUSY (R320, R325, R326). -/
def execPacketReceive (t : Fin 3) (via : Fin 5) (src : BitVec 48) (b : List Byte) (s : State) : Host.Outcome State Fault Refusal :=
  s.ends (if !s.cpServes t.val via.val then s
    else if t.val = 2 then s.cpDatagram via.val src.toNat b.length b (b.length + 1)
    else
      let all := (s.cpRx t.val).part ++ b
      let r := s.cpHunt t.val all (all.length + 1)
      r.1.cpPart t.val r.2)

/-- UART_GAP_TIMEOUT: a gap of more than 10 character times inside a packet discards it (R320). -/
def execUartGapTimeout (s : State) : Host.Outcome State Fault Refusal :=
  s.ends (if (s.cpRx 1).part.isEmpty then s else (s.bump F.CP_CNT1_GAP).cpPart 1 [])

/-- The replies that stay waiting after n bytes were clocked out: one whose last byte has not gone stays whole (R319). -/
def stillWaiting (n : Nat) : List (List Byte) → List (List Byte)
  | [] => []
  | b :: t => if b.length ≤ n then stillWaiting (n - b.length) t else b :: t

/-- SPI_CS_RISE: CP_nCS rises after so many bytes on CP_MISO: they were the waiting replies from the first one's first byte, then
0x00; a packet in progress is discarded, and a reply not wholly sent is sent again (R319, R320; log entry 75). -/
def execSpiCsRise (sent : Nat) (s : State) : Host.Outcome State Fault Refusal :=
  s.ends (
    if !s.domOn 1 || s.pwr.stage = .held then s
    else
      let b := (s.cpRx 0).waiting.flatten.take sent
      let s := if sent = 0 then s else s.emit (.reply 0 0 (b ++ List.replicate (sent - b.length) 0))
      let s := if (s.cpRx 0).part.isEmpty then s else (s.bump F.CP_CNT1_ABORT).cpPart 0 []
      (s.modCp fun c =>
        { c with rx := padMod ⟨[], none, [], []⟩ 0 (fun r => { r with waiting := stillWaiting sent r.waiting }) c.rx }).cpReset)

/-- CP_RDY: a reply is waiting (R319). -/
def State.cpRdy (s : State) : Bool := !(s.cpRx 0).waiting.isEmpty

/-! The operations as requests: each is its whole valid packet, on a transport, from a source, with its SEQ (R322). -/

/-- A valid request packet completes. -/
def State.cpRequest (s : State) (t : Fin 3) (src : BitVec 48) (seq : Byte) (op : Nat) (p : List Byte) : State :=
  if s.cpServes t.val 4 then s.cpTake t.val 4 src.toNat (cpPacket 0 op seq.toNat p) else s

/-- PING: the same bytes come back. -/
def execPing (t : Fin 3) (src : BitVec 48) (seq : Byte) (data : List Byte) (s : State) : Host.Outcome State Fault Refusal :=
  s.ends (s.cpRequest t src seq 0x00 data)

/-- IDENTIFY: identity, persona, firmware, slot and signatures. -/
def execIdentify (t : Fin 3) (src : BitVec 48) (seq : Byte) (s : State) :
    Host.Outcome State Fault Refusal :=
  s.ends (s.cpRequest t src seq 0x01 [])

/-- STATUS: the cycle's, the pair's and the lattice's state, quality, mode and time quality. -/
def execStatus (t : Fin 3) (src : BitVec 48) (seq : Byte) (s : State) :
    Host.Outcome State Fault Refusal :=
  s.ends (s.cpRequest t src seq 0x02 [])

/-- RD: n words from an address. -/
def execRdWords (t : Fin 3) (src : BitVec 48) (seq : Byte) (a : BitVec 40) (n : Byte) (s : State) :
    Host.Outcome State Fault Refusal :=
  s.ends (s.cpRequest t src seq 0x10 (leBytes 5 a.toNat ++ leBytes 1 n.toNat))

/-- WR: words to an address, stopping at the first discard (R329). -/
def execWrWords (t : Fin 3) (src : BitVec 48) (seq : Byte) (a : BitVec 40) (n : Byte) (w : List Word) (s : State) :
    Host.Outcome State Fault Refusal :=
  s.ends (s.cpRequest t src seq 0x11 (leBytes 5 a.toNat ++ leBytes 1 n.toNat ++ w.flatMap fun v => leBytes 4 v.toNat))

/-- RMW: one word read, masked and written. -/
def execRmw (t : Fin 3) (src : BitVec 48) (seq : Byte) (a : BitVec 40) (mask v : Word) (s : State) :
    Host.Outcome State Fault Refusal :=
  s.ends (s.cpRequest t src seq 0x12 (leBytes 5 a.toNat ++ leBytes 4 mask.toNat ++ leBytes 4 v.toNat))

/-- GN_CONFIG: a GN register written and its value kept (R330). -/
def execGnConfig (t : Fin 3) (src : BitVec 48) (seq : Byte) (a : BitVec 40) (v : Word) (s : State) :
    Host.Outcome State Fault Refusal :=
  s.ends (s.cpRequest t src seq 0x13 (leBytes 5 a.toNat ++ leBytes 4 v.toNat))

/-- IMG_BEGIN: the staging buffer emptied (R331). -/
def execImgBegin (t : Fin 3) (src : BitVec 48) (seq : Byte) (size : Word) (s : State) :
    Host.Outcome State Fault Refusal :=
  s.ends (s.cpRequest t src seq 0x20 (leBytes 4 size.toNat))

/-- IMG_DATA: image bytes at an offset (R331). -/
def execImgData (t : Fin 3) (src : BitVec 48) (seq : Byte) (ofs : Word) (b : List Byte) (s : State) :
    Host.Outcome State Fault Refusal :=
  s.ends (s.cpRequest t src seq 0x21 (leBytes 4 ofs.toNat ++ b))

/-- IMG_COMMIT: the staged image is verified, then staged as a set (R331). -/
def execImgCommit (t : Fin 3) (src : BitVec 48) (seq : Byte) (s : State) :
    Host.Outcome State Fault Refusal :=
  s.ends (s.cpRequest t src seq 0x22 [])

/-- IMG_ACTIVATE: the committed set becomes active (R293 to R296, R331). -/
def execImgActivate (t : Fin 3) (src : BitVec 48) (seq : Byte) (s : State) :
    Host.Outcome State Fault Refusal :=
  s.ends (s.cpRequest t src seq 0x23 [])

/-- IMG_FLASH: one sector of the committed image to a slot (R331). -/
def execImgFlash (t : Fin 3) (src : BitVec 48) (seq : Byte) (slot : Byte) (sec : BitVec 16) (s : State) :
    Host.Outcome State Fault Refusal :=
  s.ends (s.cpRequest t src seq 0x24 (leBytes 1 slot.toNat ++ leBytes 2 sec.toNat))

/-- IMG_STATUS: the state of the image staging (R328). -/
def execImgStatus (t : Fin 3) (src : BitVec 48) (seq : Byte) (s : State) :
    Host.Outcome State Fault Refusal :=
  s.ends (s.cpRequest t src seq 0x25 [])

/-- OTP_READ: bytes of the array. -/
def execOtpRead (t : Fin 3) (src : BitVec 48) (seq : Byte) (ofs n : BitVec 16) (s : State) :
    Host.Outcome State Fault Refusal :=
  s.ends (s.cpRequest t src seq 0x30 (leBytes 2 ofs.toNat ++ leBytes 2 n.toNat))

/-- OTP_STAGE: bytes of the staging copy (R332). -/
def execOtpStage (t : Fin 3) (src : BitVec 48) (seq : Byte) (ofs : BitVec 16) (b : List Byte) (s : State) :
    Host.Outcome State Fault Refusal :=
  s.ends (s.cpRequest t src seq 0x31 (leBytes 2 ofs.toNat ++ b))

/-- OTP_BURN: the staging copy as a new generation (R332, R343). -/
def execOtpBurn (t : Fin 3) (src : BitVec 48) (seq : Byte) (key : BitVec 16) (gen : Byte) (crc : Word) (s : State) :
    Host.Outcome State Fault Refusal :=
  s.ends (s.cpRequest t src seq 0x32 (leBytes 2 key.toNat ++ leBytes 1 gen.toNat ++ leBytes 4 crc.toNat))

/-- OTP_REVOKE: an image key's revocation byte (R332, R344). -/
def execOtpRevoke (t : Fin 3) (src : BitVec 48) (seq : Byte) (key : BitVec 16) (k : Byte) (s : State) :
    Host.Outcome State Fault Refusal :=
  s.ends (s.cpRequest t src seq 0x33 (leBytes 2 key.toNat ++ leBytes 1 k.toNat))

/-- SK_MODE: a station-keeping mode requested (R96, R333). -/
def execSkMode (t : Fin 3) (src : BitVec 48) (seq : Byte) (mode keep : Byte) (s : State) :
    Host.Outcome State Fault Refusal :=
  s.ends (s.cpRequest t src seq 0x40 (leBytes 1 mode.toNat ++ leBytes 1 keep.toNat))

/-- SK_STAKE_HERE: a stake at the present position requested (R96, R333). -/
def execSkStakeHere (t : Fin 3) (src : BitVec 48) (seq : Byte) (s : State) :
    Host.Outcome State Fault Refusal :=
  s.ends (s.cpRequest t src seq 0x41 [])

/-- SK_MOVE: a move to a target requested (R96, R333). -/
def execSkMove (t : Fin 3) (src : BitVec 48) (seq : Byte) (dn de psi : Word64) (s : State) :
    Host.Outcome State Fault Refusal :=
  s.ends (s.cpRequest t src seq 0x42 (leBytes 8 dn.toNat ++ leBytes 8 de.toNat ++ leBytes 8 psi.toNat))

/-- SK_HALT: a halt of the move requested (R96, R333). -/
def execSkHalt (t : Fin 3) (src : BitVec 48) (seq : Byte) (s : State) :
    Host.Outcome State Fault Refusal :=
  s.ends (s.cpRequest t src seq 0x43 [])

/-- SK_JOY: the three joystick registers (R105). -/
def execSkJoy (t : Fin 3) (src : BitVec 48) (seq : Byte) (x y n : Word) (s : State) :
    Host.Outcome State Fault Refusal :=
  s.ends (s.cpRequest t src seq 0x44 (leBytes 4 x.toNat ++ leBytes 4 y.toNat ++ leBytes 4 n.toNat))

/-- SURVEY_REC: recording started or stopped (R79). -/
def execSurveyRec (t : Fin 3) (src : BitVec 48) (seq : Byte) (rec' : Byte) (decim : BitVec 16) (s : State) :
    Host.Outcome State Fault Refusal :=
  s.ends (s.cpRequest t src seq 0x50 (leBytes 1 rec'.toNat ++ leBytes 2 decim.toNat))

/-- SURVEY_RUN: the survey adjustment (R80). -/
def execSurveyRun (t : Fin 3) (src : BitVec 48) (seq : Byte) (s : State) :
    Host.Outcome State Fault Refusal :=
  s.ends (s.cpRequest t src seq 0x51 [])

/-- SURVEY_COMMIT: the proposal takes effect at the next snap (R81). -/
def execSurveyCommit (t : Fin 3) (src : BitVec 48) (seq : Byte) (s : State) :
    Host.Outcome State Fault Refusal :=
  s.ends (s.cpRequest t src seq 0x52 [])

/-- SURVEY_DISCARD: the proposal is discarded (R81). -/
def execSurveyDiscard (t : Fin 3) (src : BitVec 48) (seq : Byte) (s : State) :
    Host.Outcome State Fault Refusal :=
  s.ends (s.cpRequest t src seq 0x53 [])

/-- SURVEY_STATUS: FE_SURV_STAT. -/
def execSurveyStatus (t : Fin 3) (src : BitVec 48) (seq : Byte) (s : State) :
    Host.Outcome State Fault Refusal :=
  s.ends (s.cpRequest t src seq 0x54 [])

/-- SELFTEST: the tests selected begin (R334). -/
def execSelftest (t : Fin 3) (src : BitVec 48) (seq : Byte) (mask : BitVec 16) (s : State) :
    Host.Outcome State Fault Refusal :=
  s.ends (s.cpRequest t src seq 0x60 (leBytes 2 mask.toNat))

/-- SELFTEST_LAST: the last self-test's mask and results (R334). -/
def execSelftestLast (t : Fin 3) (src : BitVec 48) (seq : Byte) (s : State) :
    Host.Outcome State Fault Refusal :=
  s.ends (s.cpRequest t src seq 0x61 [])

/-- TIME_GET: device time and its quality, from one latch (R240). -/
def execTimeGet (t : Fin 3) (src : BitVec 48) (seq : Byte) (s : State) :
    Host.Outcome State Fault Refusal :=
  s.ends (s.cpRequest t src seq 0x70 [])

/-- TIME_STEP: device time stepped (R244, R335). -/
def execTimeStep (t : Fin 3) (src : BitVec 48) (seq : Byte) (mode : Byte) (set : Word64) (s : State) :
    Host.Outcome State Fault Refusal :=
  s.ends (s.cpRequest t src seq 0x71 (leBytes 1 mode.toNat ++ leBytes 8 set.toNat))

/-- TIME_LEAP: the leap-second count (R247, R335). -/
def execTimeLeap (t : Fin 3) (src : BitVec 48) (seq : Byte) (v : Byte) (s : State) :
    Host.Outcome State Fault Refusal :=
  s.ends (s.cpRequest t src seq 0x72 (leBytes 1 v.toNat))

/-- GO_ACTIVE: the keyed write of HA_CTRL (R195, R335). -/
def execGoActive (t : Fin 3) (src : BitVec 48) (seq : Byte) (key : BitVec 16) (s : State) :
    Host.Outcome State Fault Refusal :=
  s.ends (s.cpRequest t src seq 0x80 (leBytes 2 key.toNat))

/-- DEMOTE: the keyed write of HA_CTRL (R195, R335). -/
def execDemote (t : Fin 3) (src : BitVec 48) (seq : Byte) (key : BitVec 16) (s : State) :
    Host.Outcome State Fault Refusal :=
  s.ends (s.cpRequest t src seq 0x81 (leBytes 2 key.toNat))

/-- REJOIN: the keyed write of HA_CTRL (R195, R335). -/
def execRejoin (t : Fin 3) (src : BitVec 48) (seq : Byte) (key : BitVec 16) (s : State) :
    Host.Outcome State Fault Refusal :=
  s.ends (s.cpRequest t src seq 0x82 (leBytes 2 key.toNat))

/-- PAIR_STATUS: state, term and checkpoint cycle. -/
def execPairStatus (t : Fin 3) (src : BitVec 48) (seq : Byte) (s : State) :
    Host.Outcome State Fault Refusal :=
  s.ends (s.cpRequest t src seq 0x83 [])

/-- REC_READ: whole records from the cursor (R335, R383). -/
def execRecRead (t : Fin 3) (src : BitVec 48) (seq : Byte) (s : State) :
    Host.Outcome State Fault Refusal :=
  s.ends (s.cpRequest t src seq 0x90 [])

/-- REC_CLEAR: the keyed clearing of the store (R335, R384). -/
def execRecClear (t : Fin 3) (src : BitVec 48) (seq : Byte) (key : BitVec 16) (s : State) :
    Host.Outcome State Fault Refusal :=
  s.ends (s.cpRequest t src seq 0x91 (leBytes 2 key.toNat))

/-- FORCE_SET: a variable forced (R298, R299). -/
def execForceSet (t : Fin 3) (src : BitVec 48) (seq : Byte) (ident : Word) (v : Word64) (s : State) :
    Host.Outcome State Fault Refusal :=
  s.ends (s.cpRequest t src seq 0xA0 (leBytes 4 ident.toNat ++ leBytes 8 v.toNat))

/-- FORCE_CLEAR: one force cleared (R298, R299). -/
def execForceClear (t : Fin 3) (src : BitVec 48) (seq : Byte) (ident : Word) (s : State) :
    Host.Outcome State Fault Refusal :=
  s.ends (s.cpRequest t src seq 0xA1 (leBytes 4 ident.toNat))

/-- FORCE_CLEAR_ALL: every force cleared (R298). -/
def execForceClearAll (t : Fin 3) (src : BitVec 48) (seq : Byte) (s : State) :
    Host.Outcome State Fault Refusal :=
  s.ends (s.cpRequest t src seq 0xA2 [])

/-- FORCE_LIST: entries of the force table. -/
def execForceList (t : Fin 3) (src : BitVec 48) (seq : Byte) (start : Byte) (s : State) :
    Host.Outcome State Fault Refusal :=
  s.ends (s.cpRequest t src seq 0xA3 (leBytes 1 start.toNat))

/-- RESET: OK, then a soft reset (R335). -/
def execResetDevice (t : Fin 3) (src : BitVec 48) (seq : Byte) (key : BitVec 16) (force : Byte) (s : State) :
    Host.Outcome State Fault Refusal :=
  s.ends (s.cpRequest t src seq 0xF0 (leBytes 2 key.toNat ++ leBytes 1 force.toNat))

end Sys2Proof.Machine
end

