-- ==== Sys2Proof/Machine/Dispatch.lean ====
section
/-!
DEFINITION. The dispatcher: one arm per command, one direct call of its meaning.
-/
namespace Sys2Proof.Machine

def exec (i : Instr) (s : State) : Host.Outcome State Fault Refusal :=
  match i with
  | .taskTrap e cause corr => Sys2Proof.Machine.execTaskTrap e cause corr s
  | .nop e => Sys2Proof.Machine.execNop e s
  | .add e d a b => Sys2Proof.Machine.execAdd e d a b s
  | .sub e d a b => Sys2Proof.Machine.execSub e d a b s
  | .addw e d a b => Sys2Proof.Machine.execAddw e d a b s
  | .subw e d a b => Sys2Proof.Machine.execSubw e d a b s
  | .mul e d a b => Sys2Proof.Machine.execMul e d a b s
  | .mulw e d a b => Sys2Proof.Machine.execMulw e d a b s
  | .divS e d a b => Sys2Proof.Machine.execDivS e d a b s
  | .divu e d a b => Sys2Proof.Machine.execDivu e d a b s
  | .modS e d a b => Sys2Proof.Machine.execModS e d a b s
  | .negS e d a => Sys2Proof.Machine.execNegS e d a s
  | .absS e d a => Sys2Proof.Machine.execAbsS e d a s
  | .minS e d a b => Sys2Proof.Machine.execMinS e d a b s
  | .maxS e d a b => Sys2Proof.Machine.execMaxS e d a b s
  | .limitS e d a b c => Sys2Proof.Machine.execLimitS e d a b c s
  | .andB e d a b => Sys2Proof.Machine.execAndB e d a b s
  | .orB e d a b => Sys2Proof.Machine.execOrB e d a b s
  | .xorB e d a b => Sys2Proof.Machine.execXorB e d a b s
  | .notB e d a => Sys2Proof.Machine.execNotB e d a s
  | .shl e d a b => Sys2Proof.Machine.execShl e d a b s
  | .shr e d a b => Sys2Proof.Machine.execShr e d a b s
  | .sar e d a b => Sys2Proof.Machine.execSar e d a b s
  | .rol e d a b => Sys2Proof.Machine.execRol e d a b s
  | .ror e d a b => Sys2Proof.Machine.execRor e d a b s
  | .satn e d a sub => Sys2Proof.Machine.execSatn e d a sub s
  | .sext e d a sub => Sys2Proof.Machine.execSext e d a sub s
  | .zext e d a sub => Sys2Proof.Machine.execZext e d a sub s
  | .bitx e d a b => Sys2Proof.Machine.execBitx e d a b s
  | .bits e d a b c => Sys2Proof.Machine.execBits e d a b c s
  | .selB e d a b c => Sys2Proof.Machine.execSelB e d a b c s
  | .ceq e d a b => Sys2Proof.Machine.execCeq e d a b s
  | .cne e d a b => Sys2Proof.Machine.execCne e d a b s
  | .clt e d a b => Sys2Proof.Machine.execClt e d a b s
  | .cle e d a b => Sys2Proof.Machine.execCle e d a b s
  | .cltu e d a b => Sys2Proof.Machine.execCltu e d a b s
  | .cleu e d a b => Sys2Proof.Machine.execCleu e d a b s
  | .addi e d a imm => Sys2Proof.Machine.execAddi e d a imm s
  | .andi e d a imm => Sys2Proof.Machine.execAndi e d a imm s
  | .ori e d a imm => Sys2Proof.Machine.execOri e d a imm s
  | .xori e d a imm => Sys2Proof.Machine.execXori e d a imm s
  | .shli e d a imm => Sys2Proof.Machine.execShli e d a imm s
  | .shri e d a imm => Sys2Proof.Machine.execShri e d a imm s
  | .sari e d a imm => Sys2Proof.Machine.execSari e d a imm s
  | .ceqi e d a imm => Sys2Proof.Machine.execCeqi e d a imm s
  | .clti e d a imm => Sys2Proof.Machine.execClti e d a imm s
  | .movi e a imm => Sys2Proof.Machine.execMovi e a imm s
  | .ldk e a imm => Sys2Proof.Machine.execLdk e a imm s
  | .fadd e d a b => Sys2Proof.Machine.execFadd e d a b s
  | .fsub e d a b => Sys2Proof.Machine.execFsub e d a b s
  | .fmul e d a b => Sys2Proof.Machine.execFmul e d a b s
  | .fdiv e d a b => Sys2Proof.Machine.execFdiv e d a b s
  | .fsqrt e d a => Sys2Proof.Machine.execFsqrt e d a s
  | .fma e d a b c => Sys2Proof.Machine.execFma e d a b c s
  | .fnms e d a b c => Sys2Proof.Machine.execFnms e d a b c s
  | .fabs e d a => Sys2Proof.Machine.execFabs e d a s
  | .fneg e d a => Sys2Proof.Machine.execFneg e d a s
  | .fmin e d a b => Sys2Proof.Machine.execFmin e d a b s
  | .fmax e d a b => Sys2Proof.Machine.execFmax e d a b s
  | .flimit e d a b c => Sys2Proof.Machine.execFlimit e d a b c s
  | .fceq e d a b => Sys2Proof.Machine.execFceq e d a b s
  | .fclt e d a b => Sys2Proof.Machine.execFclt e d a b s
  | .fcle e d a b => Sys2Proof.Machine.execFcle e d a b s
  | .fcun e d a b => Sys2Proof.Machine.execFcun e d a b s
  | .itof e d a => Sys2Proof.Machine.execItof e d a s
  | .ftoi e d a => Sys2Proof.Machine.execFtoi e d a s
  | .frnd e d a sub => Sys2Proof.Machine.execFrnd e d a sub s
  | .f32 e d a => Sys2Proof.Machine.execF32 e d a s
  | .ld8s e d x sp disp => Sys2Proof.Machine.execLd8s e d x sp disp s
  | .ld8u e d x sp disp => Sys2Proof.Machine.execLd8u e d x sp disp s
  | .ld16s e d x sp disp => Sys2Proof.Machine.execLd16s e d x sp disp s
  | .ld16u e d x sp disp => Sys2Proof.Machine.execLd16u e d x sp disp s
  | .ld32s e d x sp disp => Sys2Proof.Machine.execLd32s e d x sp disp s
  | .ld32u e d x sp disp => Sys2Proof.Machine.execLd32u e d x sp disp s
  | .ld64 e d x sp disp => Sys2Proof.Machine.execLd64 e d x sp disp s
  | .ldf32 e d x sp disp => Sys2Proof.Machine.execLdf32 e d x sp disp s
  | .st8 e d x sp disp => Sys2Proof.Machine.execSt8 e d x sp disp s
  | .st16 e d x sp disp => Sys2Proof.Machine.execSt16 e d x sp disp s
  | .st32 e d x sp disp => Sys2Proof.Machine.execSt32 e d x sp disp s
  | .st64 e d x sp disp => Sys2Proof.Machine.execSt64 e d x sp disp s
  | .stf32 e d x sp disp => Sys2Proof.Machine.execStf32 e d x sp disp s
  | .lea e d x sp disp => Sys2Proof.Machine.execLea e d x sp disp s
  | .br e imm => Sys2Proof.Machine.execBr e imm s
  | .bz e a imm => Sys2Proof.Machine.execBz e a imm s
  | .bnz e a imm => Sys2Proof.Machine.execBnz e a imm s
  | .call e imm => Sys2Proof.Machine.execCall e imm s
  | .callb e a imm => Sys2Proof.Machine.execCallb e a imm s
  | .ret e => Sys2Proof.Machine.execRet e s
  | .endRun e => Sys2Proof.Machine.execEndRun e s
  | .rdst e d => Sys2Proof.Machine.execRdst e d s
  | .clrst e => Sys2Proof.Machine.execClrst e s
  | .ton e a => Sys2Proof.Machine.execTon e a s
  | .tof e a => Sys2Proof.Machine.execTof e a s
  | .tp e a => Sys2Proof.Machine.execTp e a s
  | .rTrig e a => Sys2Proof.Machine.execRTrig e a s
  | .fTrig e a => Sys2Proof.Machine.execFTrig e a s
  | .ctu e a => Sys2Proof.Machine.execCtu e a s
  | .ctd e a => Sys2Proof.Machine.execCtd e a s
  | .ctud e a => Sys2Proof.Machine.execCtud e a s
  | .srBlock e a => Sys2Proof.Machine.execSrBlock e a s
  | .rsBlock e a => Sys2Proof.Machine.execRsBlock e a s
  | .sinF e a => Sys2Proof.Machine.execSinF e a s
  | .cosF e a => Sys2Proof.Machine.execCosF e a s
  | .tanF e a => Sys2Proof.Machine.execTanF e a s
  | .asinF e a => Sys2Proof.Machine.execAsinF e a s
  | .acosF e a => Sys2Proof.Machine.execAcosF e a s
  | .atanF e a => Sys2Proof.Machine.execAtanF e a s
  | .atan2F e a => Sys2Proof.Machine.execAtan2F e a s
  | .expF e a => Sys2Proof.Machine.execExpF e a s
  | .lnF e a => Sys2Proof.Machine.execLnF e a s
  | .logF e a => Sys2Proof.Machine.execLogF e a s
  | .exptF e a => Sys2Proof.Machine.execExptF e a s
  | .registerWrite d a v => Sys2Proof.Machine.execRegisterWrite d a v s
  | .readToClear d a => Sys2Proof.Machine.execReadToClear d a s
  | .cycleTick => Sys2Proof.Machine.execCycleTick s
  | .checkpointAbandon => Sys2Proof.Machine.execCheckpointAbandon s
  | .projectionPhase => Sys2Proof.Machine.execProjectionPhase s
  | .estimatorStart => Sys2Proof.Machine.execEstimatorStart s
  | .estimatePublish => Sys2Proof.Machine.execEstimatePublish s
  | .qpLaunch => Sys2Proof.Machine.execQpLaunch s
  | .commandLaunch => Sys2Proof.Machine.execCommandLaunch s
  | .outputMissDemote => Sys2Proof.Machine.execOutputMissDemote s
  | .checkpointSend => Sys2Proof.Machine.execCheckpointSend s
  | .assignLaunch => Sys2Proof.Machine.execAssignLaunch s
  | .runStart d => Sys2Proof.Machine.execRunStart d s
  | .runStop d => Sys2Proof.Machine.execRunStop d s
  | .headLaunch => Sys2Proof.Machine.execHeadLaunch s
  | .headStop => Sys2Proof.Machine.execHeadStop s
  | .sentenceReceive p b ago => Sys2Proof.Machine.execSentenceReceive p b ago s
  | .gstMergeExpire => Sys2Proof.Machine.execGstMergeExpire s
  | .binaryFrameReceive p b ago => Sys2Proof.Machine.execBinaryFrameReceive p b ago s
  | .rtcmFrameReceive p b ago => Sys2Proof.Machine.execRtcmFrameReceive p b ago s
  | .pgnReceive c x ago => Sys2Proof.Machine.execPgnReceive c x ago s
  | .fastPacketTimeout => Sys2Proof.Machine.execFastPacketTimeout s
  | .isoRequestReceive c dst pgn => Sys2Proof.Machine.execIsoRequestReceive c dst pgn s
  | .addressClaimReceive c name sa => Sys2Proof.Machine.execAddressClaimReceive c name sa s
  | .udpbcDatagram p group binaryKind src line c xs ago => Sys2Proof.Machine.execUdpbcDatagram p group binaryKind src line c xs ago s
  | .flowDatagram p udp ip fs ago => Sys2Proof.Machine.execFlowDatagram p udp ip fs ago s
  | .streamEnable d n v => Sys2Proof.Machine.execStreamEnable d n v s
  | .streamDisable d n v => Sys2Proof.Machine.execStreamDisable d n v s
  | .ofscfgWrite d n v => Sys2Proof.Machine.execOfscfgWrite d n v s
  | .feScOfslRead n => Sys2Proof.Machine.execFeScOfslRead n s
  | .uartCharacterReceive p ch ferr perr => Sys2Proof.Machine.execUartCharacterReceive p ch ferr perr s
  | .uartBreak p => Sys2Proof.Machine.execUartBreak p s
  | .uartDataRead p => Sys2Proof.Machine.execUartDataRead p s
  | .uartDataWrite d p v => Sys2Proof.Machine.execUartDataWrite d p v s
  | .helloReceive p b => Sys2Proof.Machine.execHelloReceive p b s
  | .helloSend p => Sys2Proof.Machine.execHelloSend p s
  | .peerDetach n => Sys2Proof.Machine.execPeerDetach n s
  | .commissionWrite d v => Sys2Proof.Machine.execCommissionWrite d v s
  | .fdCommitWrite d v => Sys2Proof.Machine.execFdCommitWrite d v s
  | .drExpire => Sys2Proof.Machine.execDrExpire s
  | .qualityUpgrade => Sys2Proof.Machine.execQualityUpgrade s
  | .resetEst d => Sys2Proof.Machine.execResetEst d s
  | .surveyEpochStore => Sys2Proof.Machine.execSurveyEpochStore s
  | .surveyRecWrite d v => Sys2Proof.Machine.execSurveyRecWrite d v s
  | .surveyResubmit => Sys2Proof.Machine.execSurveyResubmit s
  | .surveyTimeout => Sys2Proof.Machine.execSurveyTimeout s
  | .trackCoastExpire j => Sys2Proof.Machine.execTrackCoastExpire j s
  | .forceAssign d => Sys2Proof.Machine.execForceAssign d s
  | .trackerEnable d v => Sys2Proof.Machine.execTrackerEnable d v s
  | .skCmdMode d mode keep => Sys2Proof.Machine.execSkCmdMode d mode keep s
  | .skCmdStakeHere d => Sys2Proof.Machine.execSkCmdStakeHere d s
  | .skCmdMove d => Sys2Proof.Machine.execSkCmdMove d s
  | .skCmdHaltMove d => Sys2Proof.Machine.execSkCmdHaltMove d s
  | .joystickWrite d idx v => Sys2Proof.Machine.execJoystickWrite d idx v s
  | .joystickTimeout => Sys2Proof.Machine.execJoystickTimeout s
  | .jobSubmit d x v => Sys2Proof.Machine.execJobSubmit d x v s
  | .submitHoldRelease => Sys2Proof.Machine.execSubmitHoldRelease s
  | .jobDispatch => Sys2Proof.Machine.execJobDispatch s
  | .jobCheckPoint idx c => Sys2Proof.Machine.execJobCheckPoint idx c s
  | .jobResume idx corr ecc => Sys2Proof.Machine.execJobResume idx corr ecc s
  | .jobComplete idx corr ecc => Sys2Proof.Machine.execJobComplete idx corr ecc s
  | .jobDelayed idx corr ecc => Sys2Proof.Machine.execJobDelayed idx corr ecc s
  | .kfDeadlineAbort idx => Sys2Proof.Machine.execKfDeadlineAbort idx s
  | .jobAbort d v corr ecc => Sys2Proof.Machine.execJobAbort d v corr ecc s
  | .alcCommitWrite d v => Sys2Proof.Machine.execAlcCommitWrite d v s
  | .srvEnable d n => Sys2Proof.Machine.execSrvEnable d n s
  | .srvDisable d n => Sys2Proof.Machine.execSrvDisable d n s
  | .srvOpen d n => Sys2Proof.Machine.execSrvOpen d n s
  | .srvClose d n => Sys2Proof.Machine.execSrvClose d n s
  | .srvCommit d n => Sys2Proof.Machine.execSrvCommit d n s
  | .servoPeriodStart n => Sys2Proof.Machine.execServoPeriodStart n s
  | .servoOutput n moved => Sys2Proof.Machine.execServoOutput n moved s
  | .servoTick => Sys2Proof.Machine.execServoTick s
  | .fbHoldExpire n => Sys2Proof.Machine.execFbHoldExpire n s
  | .setpointTimeout n => Sys2Proof.Machine.execSetpointTimeout n s
  | .plausibilityMismatch n moved => Sys2Proof.Machine.execPlausibilityMismatch n moved s
  | .injGo d n => Sys2Proof.Machine.execInjGo d n s
  | .injStop d n => Sys2Proof.Machine.execInjStop d n s
  | .injectionTstart n => Sys2Proof.Machine.execInjectionTstart n s
  | .injectionEnd n => Sys2Proof.Machine.execInjectionEnd n s
  | .captureArm d u => Sys2Proof.Machine.execCaptureArm d u s
  | .captureAbort d u => Sys2Proof.Machine.execCaptureAbort d u s
  | .captureTrigger u => Sys2Proof.Machine.execCaptureTrigger u s
  | .captureComplete u => Sys2Proof.Machine.execCaptureComplete u s
  | .srvTblDataAccess wr => Sys2Proof.Machine.execSrvTblDataAccess wr s
  | .encoderIllegalTransition c => Sys2Proof.Machine.execEncoderIllegalTransition c s
  | .encoderIndexPulse c => Sys2Proof.Machine.execEncoderIndexPulse c s
  | .ssiFrame c data parityBad errBit => Sys2Proof.Machine.execSsiFrame c data parityBad errBit s
  | .encoderConfigWrite d c r v => Sys2Proof.Machine.execEncoderConfigWrite d c r v s
  | .dsfOutputSample n own pair => Sys2Proof.Machine.execDsfOutputSample n own pair s
  | .proofingDone n own pair => Sys2Proof.Machine.execProofingDone n own pair s
  | .rmsBlockEnd n own pair => Sys2Proof.Machine.execRmsBlockEnd n own pair s
  | .dataStuck n => Sys2Proof.Machine.execDataStuck n s
  | .dataActive n => Sys2Proof.Machine.execDataActive n s
  | .dsfEnable d n => Sys2Proof.Machine.execDsfEnable d n s
  | .dsfSrcChange d n src => Sys2Proof.Machine.execDsfSrcChange d n src s
  | .dsfEnsetWrite d v => Sys2Proof.Machine.execDsfEnsetWrite d v s
  | .syncBallEdge => Sys2Proof.Machine.execSyncBallEdge s
  | .syncArm d => Sys2Proof.Machine.execSyncArm d s
  | .syncAtReached => Sys2Proof.Machine.execSyncAtReached s
  | .bankRequest d n bank => Sys2Proof.Machine.execBankRequest d n bank s
  | .primeEnd n own pair => Sys2Proof.Machine.execPrimeEnd n own pair s
  | .fadeEnd n own pair => Sys2Proof.Machine.execFadeEnd n own pair s
  | .coefWrite d v => Sys2Proof.Machine.execCoefWrite d v s
  | .dsfTslRead n => Sys2Proof.Machine.execDsfTslRead n s
  | .heartbeatSend => Sys2Proof.Machine.execHeartbeatSend s
  | .heartbeatReceive line b => Sys2Proof.Machine.execHeartbeatReceive line b s
  | .heartbeatPeriodEnd => Sys2Proof.Machine.execHeartbeatPeriodEnd s
  | .lineLost line => Sys2Proof.Machine.execLineLost line s
  | .lineReturn line => Sys2Proof.Machine.execLineReturn line s
  | .bothLinesSilent => Sys2Proof.Machine.execBothLinesSilent s
  | .firstCycle => Sys2Proof.Machine.execFirstCycle s
  | .checkpointFrameReceive hb frag nfrag cyc total ns cut crc data => Sys2Proof.Machine.execCheckpointFrameReceive hb frag nfrag cyc total ns cut crc data s
  | .termRelay => Sys2Proof.Machine.execTermRelay s
  | .haCtrlGoActive d key => Sys2Proof.Machine.execHaCtrlGoActive d key s
  | .haCtrlDemote d key => Sys2Proof.Machine.execHaCtrlDemote d key s
  | .haCtrlRejoin d key => Sys2Proof.Machine.execHaCtrlRejoin d key s
  | .pairEnWrite d en => Sys2Proof.Machine.execPairEnWrite d en s
  | .haTdlRead => Sys2Proof.Machine.execHaTdlRead s
  | .haLhblRead => Sys2Proof.Machine.execHaLhblRead s
  | .gnssRefresh => Sys2Proof.Machine.execGnssRefresh s
  | .gnssRefreshEnd => Sys2Proof.Machine.execGnssRefreshEnd s
  | .latticeEvaluation x => Sys2Proof.Machine.execLatticeEvaluation x s
  | .channelTrip c x => Sys2Proof.Machine.execChannelTrip c x s
  | .degradedTimeout => Sys2Proof.Machine.execDegradedTimeout s
  | .degradedClear => Sys2Proof.Machine.execDegradedClear s
  | .autoarm => Sys2Proof.Machine.execAutoarm s
  | .armLattice d key => Sys2Proof.Machine.execArmLattice d key s
  | .withdraw d key => Sys2Proof.Machine.execWithdraw d key s
  | .clearTrip d key c => Sys2Proof.Machine.execClearTrip d key c s
  | .clearFaults d key => Sys2Proof.Machine.execClearFaults d key s
  | .safetyCoreHeartbeat => Sys2Proof.Machine.execSafetyCoreHeartbeat s
  | .safetyCoreTimeout => Sys2Proof.Machine.execSafetyCoreTimeout s
  | .disagreeFault x => Sys2Proof.Machine.execDisagreeFault x s
  | .readbackFault x => Sys2Proof.Machine.execReadbackFault x s
  | .oscFault => Sys2Proof.Machine.execOscFault s
  | .offPulseTest k low high => Sys2Proof.Machine.execOffPulseTest k low high s
  | .safeInputChange idx level => Sys2Proof.Machine.execSafeInputChange idx level s
  | .sidiscFault p => Sys2Proof.Machine.execSidiscFault p s
  | .srtBlock => Sys2Proof.Machine.execSrtBlock s
  | .srtTrip => Sys2Proof.Machine.execSrtTrip s
  | .speTrip => Sys2Proof.Machine.execSpeTrip s
  | .graceEnd c => Sys2Proof.Machine.execGraceEnd c s
  | .safetyParamLoad => Sys2Proof.Machine.execSafetyParamLoad s
  | .authTimeout => Sys2Proof.Machine.execAuthTimeout s
  | .gnssEpoch g => Sys2Proof.Machine.execGnssEpoch g s
  | .acqRequest d v => Sys2Proof.Machine.execAcqRequest d v s
  | .autoSearch req dop => Sys2Proof.Machine.execAutoSearch req dop s
  | .acqComplete k => Sys2Proof.Machine.execAcqComplete k s
  | .channelAssign d n v => Sys2Proof.Machine.execChannelAssign d n v s
  | .channelLostRelease n => Sys2Proof.Machine.execChannelLostRelease n s
  | .wordRecord u => Sys2Proof.Machine.execWordRecord u s
  | .antennaShort a ma => Sys2Proof.Machine.execAntennaShort a ma s
  | .windbreakSearch lines => Sys2Proof.Machine.execWindbreakSearch lines s
  | .jammingIndicator levels => Sys2Proof.Machine.execJammingIndicator levels s
  | .jiCal d => Sys2Proof.Machine.execJiCal d s
  | .gnssTimeSolution ofs sigma => Sys2Proof.Machine.execGnssTimeSolution ofs sigma s
  | .gnssTimeLoss => Sys2Proof.Machine.execGnssTimeLoss s
  | .gnssSleep d v => Sys2Proof.Machine.execGnssSleep d v s
  | .referenceOffset ptp ofs sigma => Sys2Proof.Machine.execReferenceOffset ptp ofs sigma s
  | .referenceLoss => Sys2Proof.Machine.execReferenceLoss s
  | .slewEnd => Sys2Proof.Machine.execSlewEnd s
  | .timeStepByOffset d key => Sys2Proof.Machine.execTimeStepByOffset d key s
  | .timeStepToSet d key => Sys2Proof.Machine.execTimeStepToSet d key s
  | .priClear d => Sys2Proof.Machine.execPriClear d s
  | .timeIncWrite d hi v => Sys2Proof.Machine.execTimeIncWrite d hi v s
  | .timeNowRead => Sys2Proof.Machine.execTimeNowRead s
  | .sysCycT0lRead => Sys2Proof.Machine.execSysCycT0lRead s
  | .taiUtcWrite d v => Sys2Proof.Machine.execTaiUtcWrite d v s
  | .leapSecond => Sys2Proof.Machine.execLeapSecond s
  | .ptpSyncReceive p seq twoStep origin => Sys2Proof.Machine.execPtpSyncReceive p seq twoStep origin s
  | .ptpFollowUpReceive p seq origin => Sys2Proof.Machine.execPtpFollowUpReceive p seq origin s
  | .ptpDelayReqReceive p seq corr src => Sys2Proof.Machine.execPtpDelayReqReceive p seq corr src s
  | .ptpDelayRespReceive p seq t4 => Sys2Proof.Machine.execPtpDelayRespReceive p seq t4 s
  | .ptpPdelayReqReceive p seq corr src => Sys2Proof.Machine.execPtpPdelayReqReceive p seq corr src s
  | .ptpPdelayRespReceive p seq twoStep t2 turn => Sys2Proof.Machine.execPtpPdelayRespReceive p seq twoStep t2 turn s
  | .ptpPdelayRespFollowUpReceive p seq t3 => Sys2Proof.Machine.execPtpPdelayRespFollowUpReceive p seq t3 s
  | .ptpAnnounceReceive p m => Sys2Proof.Machine.execPtpAnnounceReceive p m s
  | .ptpUnsupportedMessage p => Sys2Proof.Machine.execPtpUnsupportedMessage p s
  | .ptpSyncSend p => Sys2Proof.Machine.execPtpSyncSend p s
  | .ptpAnnounceSend p => Sys2Proof.Machine.execPtpAnnounceSend p s
  | .ptpDelayReqSend p => Sys2Proof.Machine.execPtpDelayReqSend p s
  | .ptpPdelayReqSend p => Sys2Proof.Machine.execPtpPdelayReqSend p s
  | .scheduledLaunch p => Sys2Proof.Machine.execScheduledLaunch p s
  | .ppsEdge k => Sys2Proof.Machine.execPpsEdge k s
  | .ppsPulseEnd k => Sys2Proof.Machine.execPpsPulseEnd k s
  | .timeCaptureEdge n rising fine lasts => Sys2Proof.Machine.execTimeCaptureEdge n rising fine lasts s
  | .capTslRead n => Sys2Proof.Machine.execCapTslRead n s
  | .twinCopyReceive p b => Sys2Proof.Machine.execTwinCopyReceive p b s
  | .twinWinExpire => Sys2Proof.Machine.execTwinWinExpire s
  | .zalSyncGo d hi dst => Sys2Proof.Machine.execZalSyncGo d hi dst s
  | .telemetrySend k => Sys2Proof.Machine.execTelemetrySend k s
  | .txTailWrite d p tail => Sys2Proof.Machine.execTxTailWrite d p tail s
  | .arpRequest p ip => Sys2Proof.Machine.execArpRequest p ip s
  | .linkChange p up speed => Sys2Proof.Machine.execLinkChange p up speed s
  | .canEnable d c v => Sys2Proof.Machine.execCanEnable d c v s
  | .canColumnOpen c idle => Sys2Proof.Machine.execCanColumnOpen c idle s
  | .canAttemptEnd c dur how => Sys2Proof.Machine.execCanAttemptEnd c dur how s
  | .canFrameReceive c ident ide fdf data ago => Sys2Proof.Machine.execCanFrameReceive c ident ide fdf data ago s
  | .canRemoteFrameReceive c ident ide dlc ago => Sys2Proof.Machine.execCanRemoteFrameReceive c ident ide dlc ago s
  | .canRxStatusRead c b => Sys2Proof.Machine.execCanRxStatusRead c b s
  | .canTxreq d c b => Sys2Proof.Machine.execCanTxreq d c b s
  | .canCancel d c b => Sys2Proof.Machine.execCanCancel d c b s
  | .busOffRecovery c => Sys2Proof.Machine.execBusOffRecovery c s
  | .referenceFrameReceive c data ago => Sys2Proof.Machine.execReferenceFrameReceive c data ago s
  | .refLost c => Sys2Proof.Machine.execRefLost c s
  | .taskRelease n => Sys2Proof.Machine.execTaskRelease n s
  | .inputCopyDone n k => Sys2Proof.Machine.execInputCopyDone n k s
  | .outputCopyDone n k corr => Sys2Proof.Machine.execOutputCopyDone n k corr s
  | .taskEnable d n => Sys2Proof.Machine.execTaskEnable d n s
  | .beTrellRead n => Sys2Proof.Machine.execBeTrellRead n s
  | .activationSwitch => Sys2Proof.Machine.execActivationSwitch s
  | .activationTimeout => Sys2Proof.Machine.execActivationTimeout s
  | .fopSet d key => Sys2Proof.Machine.execFopSet d key s
  | .fopClear d key => Sys2Proof.Machine.execFopClear d key s
  | .fopClearAll d key => Sys2Proof.Machine.execFopClearAll d key s
  | .packetReceive t via src b => Sys2Proof.Machine.execPacketReceive t via src b s
  | .uartGapTimeout => Sys2Proof.Machine.execUartGapTimeout s
  | .spiCsRise sent => Sys2Proof.Machine.execSpiCsRise sent s
  | .ping t src seq data => Sys2Proof.Machine.execPing t src seq data s
  | .identify t src seq => Sys2Proof.Machine.execIdentify t src seq s
  | .status t src seq => Sys2Proof.Machine.execStatus t src seq s
  | .rdWords t src seq a n => Sys2Proof.Machine.execRdWords t src seq a n s
  | .wrWords t src seq a n w => Sys2Proof.Machine.execWrWords t src seq a n w s
  | .rmw t src seq a mask v => Sys2Proof.Machine.execRmw t src seq a mask v s
  | .gnConfig t src seq a v => Sys2Proof.Machine.execGnConfig t src seq a v s
  | .imgBegin t src seq size => Sys2Proof.Machine.execImgBegin t src seq size s
  | .imgData t src seq ofs b => Sys2Proof.Machine.execImgData t src seq ofs b s
  | .imgCommit t src seq => Sys2Proof.Machine.execImgCommit t src seq s
  | .imgActivate t src seq => Sys2Proof.Machine.execImgActivate t src seq s
  | .imgFlash t src seq slot sec => Sys2Proof.Machine.execImgFlash t src seq slot sec s
  | .imgStatus t src seq => Sys2Proof.Machine.execImgStatus t src seq s
  | .otpRead t src seq ofs n => Sys2Proof.Machine.execOtpRead t src seq ofs n s
  | .otpStage t src seq ofs b => Sys2Proof.Machine.execOtpStage t src seq ofs b s
  | .otpBurn t src seq key gen crc => Sys2Proof.Machine.execOtpBurn t src seq key gen crc s
  | .otpRevoke t src seq key k => Sys2Proof.Machine.execOtpRevoke t src seq key k s
  | .skMode t src seq mode keep => Sys2Proof.Machine.execSkMode t src seq mode keep s
  | .skStakeHere t src seq => Sys2Proof.Machine.execSkStakeHere t src seq s
  | .skMove t src seq dn de psi => Sys2Proof.Machine.execSkMove t src seq dn de psi s
  | .skHalt t src seq => Sys2Proof.Machine.execSkHalt t src seq s
  | .skJoy t src seq x y n => Sys2Proof.Machine.execSkJoy t src seq x y n s
  | .surveyRec t src seq rec' decim => Sys2Proof.Machine.execSurveyRec t src seq rec' decim s
  | .surveyRun t src seq => Sys2Proof.Machine.execSurveyRun t src seq s
  | .surveyCommit t src seq => Sys2Proof.Machine.execSurveyCommit t src seq s
  | .surveyDiscard t src seq => Sys2Proof.Machine.execSurveyDiscard t src seq s
  | .surveyStatus t src seq => Sys2Proof.Machine.execSurveyStatus t src seq s
  | .selftest t src seq mask => Sys2Proof.Machine.execSelftest t src seq mask s
  | .selftestLast t src seq => Sys2Proof.Machine.execSelftestLast t src seq s
  | .timeGet t src seq => Sys2Proof.Machine.execTimeGet t src seq s
  | .timeStep t src seq mode set => Sys2Proof.Machine.execTimeStep t src seq mode set s
  | .timeLeap t src seq v => Sys2Proof.Machine.execTimeLeap t src seq v s
  | .goActive t src seq key => Sys2Proof.Machine.execGoActive t src seq key s
  | .demote t src seq key => Sys2Proof.Machine.execDemote t src seq key s
  | .rejoin t src seq key => Sys2Proof.Machine.execRejoin t src seq key s
  | .pairStatus t src seq => Sys2Proof.Machine.execPairStatus t src seq s
  | .recRead t src seq => Sys2Proof.Machine.execRecRead t src seq s
  | .recClear t src seq key => Sys2Proof.Machine.execRecClear t src seq key s
  | .forceSet t src seq ident v => Sys2Proof.Machine.execForceSet t src seq ident v s
  | .forceClear t src seq ident => Sys2Proof.Machine.execForceClear t src seq ident s
  | .forceClearAll t src seq => Sys2Proof.Machine.execForceClearAll t src seq s
  | .forceList t src seq start => Sys2Proof.Machine.execForceList t src seq start s
  | .resetDevice t src seq key force => Sys2Proof.Machine.execResetDevice t src seq key force s
  | .bootStart straps vpp => Sys2Proof.Machine.execBootStart straps vpp s
  | .slotVerify us fw1 fw2 img => Sys2Proof.Machine.execSlotVerify us fw1 fw2 img s
  | .firmwareStart => Sys2Proof.Machine.execFirmwareStart s
  | .sectionsApplied => Sys2Proof.Machine.execSectionsApplied s
  | .refclkWindow edges => Sys2Proof.Machine.execRefclkWindow edges s
  | .safeOscWindow cycles => Sys2Proof.Machine.execSafeOscWindow cycles s
  | .domainPowerRequest d v => Sys2Proof.Machine.execDomainPowerRequest d v s
  | .domainOn d => Sys2Proof.Machine.execDomainOn d s
  | .deepEntry d v => Sys2Proof.Machine.execDeepEntry d v s
  | .deepWake src => Sys2Proof.Machine.execDeepWake src s
  | .powerOnReset => Sys2Proof.Machine.execPowerOnReset s
  | .brownOutReset => Sys2Proof.Machine.execBrownOutReset s
  | .pinReset ns => Sys2Proof.Machine.execPinReset ns s
  | .partnerForcedReset ns => Sys2Proof.Machine.execPartnerForcedReset ns s
  | .watchdogExpire => Sys2Proof.Machine.execWatchdogExpire s
  | .watchdogKick d v => Sys2Proof.Machine.execWatchdogKick d v s
  | .softReset d v => Sys2Proof.Machine.execSoftReset d v s
  | .partnerReset d v => Sys2Proof.Machine.execPartnerReset d v s
  | .interruptArrival n info => Sys2Proof.Machine.execInterruptArrival n info s
  | .interruptEntry x => Sys2Proof.Machine.execInterruptEntry x s
  | .icClaim x m => Sys2Proof.Machine.execIcClaim x m s
  | .icComplete x m => Sys2Proof.Machine.execIcComplete x m s
  | .icSwset d v => Sys2Proof.Machine.execIcSwset d v s
  | .loafWriteEnd => Sys2Proof.Machine.execLoafWriteEnd s
  | .recNext d => Sys2Proof.Machine.execRecNext d s
  | .recCurWrite d v => Sys2Proof.Machine.execRecCurWrite d v s
  | .recClrClear d v => Sys2Proof.Machine.execRecClrClear d v s
  | .counterOverflow n => Sys2Proof.Machine.execCounterOverflow n s
  | .pmuFreeze d => Sys2Proof.Machine.execPmuFreeze d s
  | .pmuUnfreeze d => Sys2Proof.Machine.execPmuUnfreeze d s
  | .pmuSnap d => Sys2Proof.Machine.execPmuSnap d s
  | .pmuCounterRead d n shadowBank => Sys2Proof.Machine.execPmuCounterRead d n shadowBank s
  | .scrubBurst corrected => Sys2Proof.Machine.execScrubBurst corrected s
  | .scrubCapApply => Sys2Proof.Machine.execScrubCapApply s
  | .selftestComplete fail => Sys2Proof.Machine.execSelftestComplete fail s
  | .imgCommitComplete fw1 fw2 img => Sys2Proof.Machine.execImgCommitComplete fw1 fw2 img s
  | .imgFlashComplete => Sys2Proof.Machine.execImgFlashComplete s
  | .otpBurnComplete read => Sys2Proof.Machine.execOtpBurnComplete read s
  | .otpRevokeComplete read => Sys2Proof.Machine.execOtpRevokeComplete read s
  | .checkpointSendComplete => Sys2Proof.Machine.execCheckpointSendComplete s
  | .antennaOpen a ma => Sys2Proof.Machine.execAntennaOpen a ma s
  | .channelPullInLock n => Sys2Proof.Machine.execChannelPullInLock n s
  | .channelLockLost n => Sys2Proof.Machine.execChannelLockLost n s
  | .ptpAnnounceReceiptTimeout p => Sys2Proof.Machine.execPtpAnnounceReceiptTimeout p s
  | .canBusError c dominant => Sys2Proof.Machine.execCanBusError c dominant s
  | .prstOutPulseEnd => Sys2Proof.Machine.execPrstOutPulseEnd s

end Sys2Proof.Machine
end

