-- ==== Sys2Proof/Safety.lean ====
section
/-!
DEFINITION. What claims say of a run: a command completes, a step answers a state, the stores are canonical, and what a command
leaves as it was.
-/
namespace Sys2Proof.Machine

/-- The state an outcome answers. -/
def next? (o : Host.Outcome State Fault Refusal) : Option State :=
  match o with
  | .next t => some t
  | _ => none

/-- A command completes from a state: exec answers a next state, and this holds of it. -/
def Completes (c : Instr) (s : State) (P : State → Prop) : Prop := ∃ t : State, exec c s = .next t ∧ P t

/-- The OTP array, its staging copy, the flash and the images received are in canonical form. -/
def Nvm.Canonical (v : Nvm) : Prop :=
  mapWf (fun _ => (0 : Byte)) v.otp = true ∧ mapWf (fun _ => (0 : Byte)) v.otpStage = true ∧ mapWf (fun _ => (0xFF : Byte)) v.flash = true
  ∧ mapWf (fun _ => (0xFF : Byte)) v.imgBuf = true ∧ ∀ c, v.commit = some c → mapWf (fun _ => (0xFF : Byte)) c.1 = true

/-- The register file, the shadow copies, memory, the OTP array and the flash are in canonical form. -/
def State.Canonical (s : State) : Prop :=
  mapWf resetWord s.regs = true ∧ mapWf resetWord s.shadow = true ∧ s.mem.wf = true ∧ s.nvm.Canonical

/-- Every run of k steps from a state answers a state. -/
def State.Safe (s : State) : Prop := ∀ k : Nat, ∃ t : State, Host.Core.run Sys2Proof.core k s = .next t

/-- The jobs of the fabric stand in the order of their numbers, each below the next number to give. -/
def State.JobsNumbered (s : State) : Prop :=
  (s.jobs.jobs.map (·.ident)).Pairwise (· < ·) ∧ ∀ j ∈ s.jobs.jobs, j.ident < s.jobs.nextId

/-- The count when device time has run to an instant, if it runs: the shadow that counts while NET is not ON stands still with REFCLK
(R10, R246). -/
def State.reached (s : State) (n : Nat) : Nat := if s.timeRuns then max s.now n else s.now

/-! Frames. Counting an event, an arrival of an interrupt source and a record are the bookkeeping of chapters 22 to 24: it goes
with almost every command, so a frame is stated beside it. -/

/-- The registers the bookkeeping writes: IC_LEVEL, RING_IDX, RING_OVF, IC_CNT, the recorder's state registers, REC_ARCH_WIDX,
PMU_OVF, PMU_CNTL and PMU_CNTH, and PWR_STAT (its DOZE bits). -/
def Book (a : Nat) : Prop :=
  (0x40040000 ≤ a ∧ a < 0x40040A00 ∧ (a % 256 = 8 ∨ (64 ≤ a % 256 ∧ a % 256 < 192 ∧ (a % 16 = 8 ∨ a % 16 = 12))))
  ∨ (0x40041800 ≤ a ∧ a < 0x40042000) ∨ (0x40050000 ≤ a ∧ a < 0x40050020) ∨ a = 0x4005002C
  ∨ (0x40060010 ≤ a ∧ a < 0x40060030) ∨ (0x40061000 ≤ a ∧ a < 0x40061800) ∨ a = 0x4001010C

/-- The bytes the bookkeeping writes: those of an enabled interrupt ring and of the enabled archive. -/
def State.BookMem (s : State) (a : Nat) : Prop :=
  (∃ x l : Nat, x < 10 ∧ l < 8 ∧ s.flag (F.RING_BH_EN x l) = true ∧ s.ringBase x l ≤ a
      ∧ a < s.ringBase x l + 16 * s.ringSize x l)
  ∨ (s.flag F.REC_ARCH_CFG_EN = true ∧ s.get F.REC_ARCH_BL_BASE + 2 ^ 32 * s.get F.REC_ARCH_BH_BASE ≤ a
      ∧ a < s.get F.REC_ARCH_BL_BASE + 2 ^ 32 * s.get F.REC_ARCH_BH_BASE + 32 * 2 ^ s.get F.REC_ARCH_CFG_SIZE_LOG2)

/-- The parts of the state beside registers, shadow copies, memory and the queue. -/
inductive Part where
  | time | recd | ic | pwr | nvm | fe | est | surv | trk | sk | jobs | alc | srv | dsf | syncEdge | ha | kz | gn | net | can | be | cp | scrub
  | cyc | freeCount | out
  deriving DecidableEq, Repr

/-- A part is the same in two states. -/
def Part.same (u : Part) (s t : State) : Prop :=
  match u with
  | .time => t.time = s.time
  | .recd => t.recd = s.recd
  | .ic => t.ic = s.ic
  | .pwr => t.pwr = s.pwr
  | .nvm => t.nvm = s.nvm
  | .fe => t.fe = s.fe
  | .est => t.est = s.est
  | .surv => t.surv = s.surv
  | .trk => t.trk = s.trk
  | .sk => t.sk = s.sk
  | .jobs => t.jobs = s.jobs
  | .alc => t.alc = s.alc
  | .srv => t.srv = s.srv
  | .dsf => t.dsf = s.dsf
  | .syncEdge => t.syncEdge = s.syncEdge
  | .ha => t.ha = s.ha
  | .kz => t.kz = s.kz
  | .gn => t.gn = s.gn
  | .net => t.net = s.net
  | .can => t.can = s.can
  | .be => t.be = s.be
  | .cp => t.cp = s.cp
  | .scrub => t.scrub = s.scrub
  | .cyc => t.cyc = s.cyc
  | .freeCount => t.freeCount = s.freeCount
  | .out => t.out = s.out

/-- Between two states only the bookkeeping, the registers (and shadow words) of W, the bytes of M and the parts of U change. -/
structure Frame (W M : Nat → Prop) (U : List Part) (s t : State) : Prop where
  word : ∀ a, ¬ Book a → ¬ W a → t.word a = s.word a
  shWord : ∀ a, ¬ Book a → ¬ W a → t.shWord a = s.shWord a
  byte : ∀ a, ¬ s.BookMem a → ¬ M a → t.byte a = s.byte a
  part : ∀ u, u ∉ U → u ≠ .recd → u ≠ .ic → u.same s t

/-! Block code (chapters 17 and 18). -/

/-- An instruction's effect on a context: register d (unless it is g0) holds v, PC is the next instruction, SAT and INV gain sat
and inv, everything else is as it was (R302, R303). -/
structure Ctx.Wrote (k k' : Ctx) (d : BitVec 5) (v : Word64) (sat inv : Bool) : Prop where
  reg : ∀ r : BitVec 5, k'.r r = if r = d ∧ d ≠ 0 then v else k.r r
  pc : k'.pc = k.pc + 4
  sat : k'.sat = (k.sat || sat)
  inv : k'.inv = (k.inv || inv)
  iptr : k'.iptr = k.iptr
  stack : k'.stack = k.stack

/-- A result of which this holds, with no flag. -/
def Ctx.Plain (k : Ctx) (d : BitVec 5) (P : Word64 → Prop) (k' : Ctx) : Prop := ∃ v : Word64, k.Wrote k' d v false false ∧ P v

/-- An exact integer saturated to 64 bits; SAT when it did not fit (R310). -/
def Ctx.Saturated (k : Ctx) (d : BitVec 5) (x : Int) (k' : Ctx) : Prop :=
  ∃ v : Word64, k.Wrote k' d v (decide (x < -9223372036854775808 ∨ 9223372036854775807 < x)) false
    ∧ v.toInt = max (-9223372036854775808) (min 9223372036854775807 x)

/-- A context that moved on and kept its registers and flags. -/
structure Ctx.Moved (k k' : Ctx) (pc : BitVec 17) (iptr : BitVec 24) (stack : List (BitVec 17 × BitVec 24)) : Prop where
  reg : ∀ r : BitVec 5, k'.r r = k.r r
  pc : k'.pc = pc
  iptr : k'.iptr = iptr
  stack : k'.stack = stack
  sat : k'.sat = k.sat
  inv : k'.inv = k.inv

/-- The state an instruction of engine e leaves that gives its task n this context: the issue is counted (R386), nothing else
changes. -/
def State.issued (s : State) (e n : Nat) (k : Ctx) : State := (s.pmu (8 + e)).modTask n fun t => { t with ctx := k }

/-- A command is an instruction that only gives its task a context of which this holds. -/
def Issues (c : Instr) (s : State) (e n : Nat) (P : Ctx → Prop) : Prop := ∃ k : Ctx, exec c s = .next (s.issued e n k) ∧ P k

/-- A command is counted and ends the run on engine e in a trap: 0 opcode, 1 address (R286). -/
def TrapsAs (c : Instr) (s : State) (e : Fin 8) (cause : Fin 3) : Prop :=
  ∃ n : Nat, s.running e = some n ∧ exec c s = .next (((s.pmu (8 + e.val)).trapRun e n (cause.val + 1)).requeue s.pending)

/-- A library block whose instance lies at an address left these variables (place, value), a forced byte keeping its force; every
other byte is as it was when the issue had been counted, and the task only went on to the next instruction (R298, R315). -/
def BlockWrote (s : State) (e n addr : Nat) (W : List (Nat × Word64)) (t : State) : Prop :=
  let u := s.pmu (8 + e)
  let k := (s.task n).ctx
  ∃ k' : Ctx, t = { s.issued e n k' with mem := t.mem } ∧ k.Moved k' (k.pc + 4) k.iptr k.stack
    ∧ (∀ w ∈ W, ∀ j < 8, t.byte (addr + 8 * w.1 + j) = (u.forcedByte (addr + 8 * w.1 + j)).getD (BitVec.ofNat 8 (w.2.toNat / 256 ^ j)))
    ∧ ∀ a, (∀ w ∈ W, a < addr + 8 * w.1 ∨ addr + 8 * w.1 + 8 ≤ a) → t.byte a = u.byte a

/-! The Command Port (chapter 19). -/

/-- What tells a request packet from the one answered last: SEQ, opcode, FLAGS, CRC and, on UDP, its source (R325). -/
def cpKeyOf (tr src op seq : Nat) (p : List Byte) : List Nat :=
  [seq, op, 0, (crc32c ((cpPacket 0 op seq p).take (7 + p.length))).toNat, if tr = 2 then src else 0]

/-- A request packet that completes now is taken: its transport is served, no operation runs, and it is not the one answered
last (R320, R325, R326). -/
structure State.Takes (s : State) (tr src op seq : Nat) (p : List Byte) : Prop where
  served : s.cpServes tr 4 = true
  idle : s.cp.op = none
  fresh : (s.cpRx tr).lastKey ≠ some (cpKeyOf tr src op seq p)

/-- The state while a request just taken runs: CP_STAT shows it (R326). -/
def State.taken (s : State) (tr src op seq : Nat) (p : List Byte) : State :=
  (s.modCp fun c => { c with op := some ⟨op, tr, 4, src, seq, cpKeyOf tr src op seq p, p, s.now, false⟩ }).showCp

/-- A reply has been sent: on SPI it waits, behind others, to be clocked out, on UART its bytes are out, on UDP it has left P4 or waits in
P4's queue (R318, R319). -/
def Replied (tr src : Nat) (b : List Byte) (t : State) : Prop :=
  (tr = 0 → (t.cpRx 0).waiting.getLast? = some b)
  ∧ (tr = 1 → t.out.head? = some (.reply 1 0 b))
  ∧ (tr = 2 → t.out.head? = some (.reply 2 src b) ∨ ∃ e ∈ t.txq 4, e.fill = .reply src ∧ e.bytes.drop 8 = b)

/-- An operation has ended: its reply, a status and what follows it, has been sent and is kept; none runs (R323, R325, R326). -/
structure Answered (tr src op seq : Nat) (key : List Nat) (st : CpSt) (body : List Byte) (t : State) : Prop where
  idle : t.cp.op = none
  busy : t.flag F.CP_STAT_BUSY = false
  sent : Replied tr src (cpReplyBytes op seq st body) t
  kept : (t.cpRx tr).lastKey = some key ∧ (t.cpRx tr).lastReply = cpReplyBytes op seq st body

/-- A Command Port request that is taken completes and is answered at once, and this holds of what follows the status and of the
state it leaves. -/
def Answers (c : Instr) (s : State) (tr : Fin 3) (src : BitVec 48) (seq : Byte) (op : Nat) (p : List Byte) (st : CpSt)
    (P : List Byte → State → Prop) : Prop :=
  s.Takes tr.val src.toNat op seq.toNat p →
    Completes c s fun t => ∃ body, Answered tr.val src.toNat op seq.toNat (cpKeyOf tr.val src.toNat op seq.toNat p) st body t ∧ P body t

/-- A Command Port request that is taken completes and runs on, to be answered later (R326). -/
def Begins (c : Instr) (s : State) (tr : Fin 3) (src : BitVec 48) (seq : Byte) (op : Nat) (p : List Byte) (P : State → Prop) : Prop :=
  s.Takes tr.val src.toNat op seq.toNat p →
    Completes c s fun t => t.cpRuns [op] = true ∧ t.flag F.CP_STAT_BUSY = true ∧ t.out = s.out ∧ P t

end Sys2Proof.Machine
end

