-- ==== Sys2Proof/WellFormed.lean ====
section
/-!
DEFINITION. Well-formed commands: the bounds on operands that the commands' types leave open. Every meaning is total, so an
ill-formed command has a meaning too; what it stands for lies outside the spec.
-/
namespace Sys2Proof

/-- Operands in range: addresses of words aligned (R337); payloads of the Command Port's requests of a length their opcode
takes (R328); an entry for each of the four paths (R234); CAN identifiers and payloads of their format (R270, R275); at most 175 checkpoint
fragments, numbered from 0 (R26); unused bits of SUB zero (R307, R310). -/
def Instr.wf : Instr → Bool
  | .registerWrite _ a _ => a.toNat % 4 == 0
  | .readToClear _ a => a.toNat % 4 == 0
  | .ping _ _ _ d => decide (d.length ≤ 1023)
  | .wrWords _ _ _ _ n w => w.length == n.toNat && decide (1 ≤ w.length) && decide (w.length ≤ 254)
  | .imgData _ _ _ _ b => decide (1 ≤ b.length) && decide (b.length ≤ 1019)
  | .otpStage _ _ _ _ b => decide (1 ≤ b.length) && decide (b.length ≤ 510)
  | .jammingIndicator l => l.length == 4
  | .canFrameReceive _ i ide fdf d _ => (ide || decide (i.toNat < 2048)) && decide (d.length ≤ if fdf then 64 else 8)
  | .canRemoteFrameReceive _ i ide _ _ => ide || decide (i.toNat < 2048)
  | .checkpointFrameReceive _ f n _ _ _ _ _ _ => decide (f < n) && decide (n ≤ 175)
  | .satn _ _ _ k => !k.getLsbD 2
  | .sext _ _ _ k => decide (k.toNat < 4)
  | .zext _ _ _ k => decide (k.toNat < 4)
  | .frnd _ _ _ k => decide (k.toNat < 4)
  | .otpBurnComplete l => l.length == 512
  | _ => true

end Sys2Proof
end

