-- ==== Sys2Proof/Certificates/Slice0/Obligations.lean ====
section
/-!
DEFINITION. The statements for the provers. Each names what it states; its docstring says which rules it formalises.
-/
open Sys2Proof Sys2Proof.Machine

/-- A step runs the command at the front of the queue on the rest; with an empty queue one tick passes (a model's choice, log entry 52) -/
def Obligations.StepRunsFront : Prop :=
  (∀ (c : Instr) (rest : List Instr) (s : State), s.pending = c :: rest → step s = exec c { s with pending := rest })
  ∧ ∀ s : State, s.pending = [] → ∃ t : State, step s = .next t ∧ t.pending = []
      ∧ (s.cp.resetDue = false → (∀ p < 5, s.txq p = []) → t.fine = (if s.timeRuns then (s.fine + s.tickInc) % 2 ^ 96 else s.fine)
        ∧ t.out = s.out ∧ t.fe = s.fe ∧ t.est = s.est ∧ t.sk = s.sk ∧ t.alc = s.alc ∧ t.srv = s.srv ∧ t.dsf = s.dsf ∧ t.ha = s.ha ∧ t.kz = s.kz ∧ t.gn = s.gn
        ∧ t.can = s.can ∧ t.be = s.be ∧ t.jobs = s.jobs ∧ t.nvm = s.nvm ∧ t.pwr = s.pwr ∧ t.freeCount = s.freeCount)

/-- Every command completes from every state, and no command changes which commands wait -/
def Obligations.CommandsComplete : Prop :=
  ∀ (c : Instr) (s : State), ∃ t : State, exec c s = .next t ∧ t.pending = s.pending

/-- The queue drains first in, first out: after k steps its first k commands have run and the others wait in order -/
def Obligations.QueueDrains : Prop :=
  ∀ s : State, s.Safe ∧ ∀ k ≤ s.pending.length, ∃ t : State, Host.Core.run Sys2Proof.core k s = .next t ∧ t.pending = s.pending.drop k

/-- The state after reset: reset words everywhere, persona 3, no domain ON, every safe output open, lattice OFF, RUN 0, memory empty, no command waits -/
def Obligations.ResetState : Prop :=
  let s := State.reset
  (∀ a, s.word a = resetWord a ∧ s.shWord a = resetWord a)
  ∧ s.get F.SYS_PERSONA_PERSONA = 3 ∧ s.get F.PWR_DOM_STAT_ON = 0 ∧ s.run = false ∧ s.kzState = 0 ∧ s.timeInc = 10 * 2 ^ 32
  ∧ (∀ k < 16, s.kz.swL.getD k true = false ∧ s.kz.swC.getD k true = false)
  ∧ (∀ a, s.byte a = 0) ∧ s.jobs.jobs = [] ∧ s.pending = [] ∧ s.out = [] ∧ s.Canonical ∧ s.JobsNumbered

/-- Every step keeps the register file, the hidden copies, memory, the OTP array, the flash and the buffers in canonical form -/
def Obligations.StoresStayCanonical : Prop :=
  ∀ s t : State, s.Canonical → step s = .next t → t.Canonical

/-- No step takes back a burned OTP bit, and only the configuration generations and the revocation bytes are ever burned -/
def Obligations.OtpBitsStay : Prop :=
  ∀ s t : State, s.Canonical → step s = .next t →
    let otp (u : State) (a : Nat) : Byte := mapGet (fun _ => 0) a u.nvm.otp
    (∀ a, otp s a &&& otp t a = otp s a) ∧ ∀ a, a < 0x200 ∨ 0xA04 ≤ a → otp t a = otp s a

/-- Every step keeps the jobs of the fabric in the order of submission, each with a number of its own -/
def Obligations.JobsStayNumbered : Prop :=
  ∀ s t : State, s.JobsNumbered → step s = .next t → t.JobsNumbered

/-- Words of block code decode to the instructions the tables of chapter 18 give them; unused fields that are not 0 and unknown opcodes give none -/
def Obligations.BlockCodeWords : Prop :=
  ∀ e : Fin 8, beDecode e 0x76080000 = some (.ld64 e 1 0 0 0) ∧ beDecode e 0x4D380007 = some (.ldk e 7 7)
    ∧ beDecode e 0x5D288200 = some (.fclt e 5 2 1) ∧ beDecode e 0x43318001 = some (.xori e 6 6 1)
    ∧ beDecode e 0x20210C00 = some (.andB e 4 4 6) ∧ beDecode e 0x7B200003 = some (.st64 e 4 0 0 3)
    ∧ beDecode e 0x7D400005 = some (.lea e 8 0 0 5) ∧ beDecode e 0x86400000 = some (.ton e 8) ∧ beDecode e 0x85000000 = some (.ret e)
    ∧ beDecode e 0x10000010 = none ∧ beDecode e 0x80080000 = none ∧ beDecode e 0x01000000 = none ∧ beDecode e 0x8600000A = none

/-- Block code words and instructions correspond: the word of a well-formed instruction decodes to it, and a word that decodes is that instruction's word -/
def Obligations.BlockCodeRoundTrip : Prop :=
  (∀ (i : Instr) (w : Word), i.wf = true → beEncode i = some w → ∃ e : Fin 8, beDecode e w = some i)
  ∧ ∀ (e : Fin 8) (w : Word) (i : Instr), beDecode e w = some i → i.wf = true ∧ beEncode i = some w

/-- A counter's overflow sets its bit in PMU_OVF and with IRQ makes one arrival of source 313 with its number; a carry into a chained counter does neither -/
def Obligations.CounterOverflow : Prop :=
  ∀ (s : State) (c : Fin 256), let n := c.val
    s.flag F.PMU_CTL_FREEZE = false → (n = 0 ∨ s.flag (F.PMU_CFG_CHAIN (n - 1)) = false) → s.pmuVal n = 2 ^ 48 - 1 →
    let ovf (t : State) : Word := t.word (R.PMU_OVF (n / 32))
    let counted : State := s.pmuPut n 0
    let marked : State := counted.setWord (R.PMU_OVF (n / 32)) (ovf s ||| BitVec.twoPow 32 (n % 32))
    (2 ≤ n → exec (.counterOverflow c) s = .next (s.pmu n))
    ∧ (s.flag (F.PMU_CFG_CHAIN n) = false ∨ n = 255 →
      (ovf (s.pmu n)).getLsbD (n % 32) = true
      ∧ s.pmu n = if s.flag (F.PMU_CFG_IRQ n) then marked.arrive 313 (BitVec.ofNat 32 n) else marked)
    ∧ (s.flag (F.PMU_CFG_CHAIN n) = true → n < 255 → s.pmuVal (n + 1) < 2 ^ 48 - 1 → s.pmu n = counted.pmuPut (n + 1) (s.pmuVal (n + 1) + 1))

/-- ADD, SUB, MUL, NEG, ABS and ADDI give the exact result saturated to 64 bits, set SAT when it did not fit, and change nothing else -/
def Obligations.IntegerSaturates : Prop :=
  ∀ (s : State) (e : Fin 8) (n : Nat) (d a b : BitVec 5) (i : BitVec 14), s.running e.val = some n →
    let k := (s.task n).ctx
    Issues (.add e d a b) s e.val n (k.Saturated d ((k.r a).toInt + (k.r b).toInt))
    ∧ Issues (.sub e d a b) s e.val n (k.Saturated d ((k.r a).toInt - (k.r b).toInt))
    ∧ Issues (.mul e d a b) s e.val n (k.Saturated d ((k.r a).toInt * (k.r b).toInt))
    ∧ Issues (.negS e d a) s e.val n (k.Saturated d (-(k.r a).toInt))
    ∧ Issues (.absS e d a) s e.val n (k.Saturated d |(k.r a).toInt|)
    ∧ Issues (.addi e d a i) s e.val n (k.Saturated d ((k.r a).toInt + i.toInt))

/-- Wrapping, minimum, maximum, limit, select, single-bit and bitwise integer instructions give their exact result and set no flag -/
def Obligations.IntegerExactResults : Prop :=
  ∀ (s : State) (e : Fin 8) (n : Nat) (d a b c : BitVec 5) (i : BitVec 14), s.running e.val = some n →
    let k := (s.task n).ctx
    let A := k.r a
    let B := k.r b
    let C := k.r c
    let m := B.toNat % 64
    Issues (.addw e d a b) s e.val n (k.Plain d fun v => v.toNat = (A.toNat + B.toNat) % 2 ^ 64)
    ∧ Issues (.subw e d a b) s e.val n (k.Plain d fun v => v.toNat = (A.toNat + (2 ^ 64 - B.toNat)) % 2 ^ 64)
    ∧ Issues (.mulw e d a b) s e.val n (k.Plain d fun v => v.toNat = A.toNat * B.toNat % 2 ^ 64)
    ∧ Issues (.minS e d a b) s e.val n (k.Plain d fun v => v.toInt = min A.toInt B.toInt)
    ∧ Issues (.maxS e d a b) s e.val n (k.Plain d fun v => v.toInt = max A.toInt B.toInt)
    ∧ Issues (.limitS e d a b c) s e.val n (k.Plain d fun v => v.toInt = min (max A.toInt B.toInt) C.toInt)
    ∧ Issues (.andB e d a b) s e.val n (k.Plain d fun v => ∀ j < 64, v.getLsbD j = (A.getLsbD j && B.getLsbD j))
    ∧ Issues (.orB e d a b) s e.val n (k.Plain d fun v => ∀ j < 64, v.getLsbD j = (A.getLsbD j || B.getLsbD j))
    ∧ Issues (.xorB e d a b) s e.val n (k.Plain d fun v => ∀ j < 64, v.getLsbD j = (A.getLsbD j ^^ B.getLsbD j))
    ∧ Issues (.notB e d a) s e.val n (k.Plain d fun v => ∀ j < 64, v.getLsbD j = !A.getLsbD j)
    ∧ Issues (.andi e d a i) s e.val n (k.Plain d fun v => ∀ j < 64, v.getLsbD j = (A.getLsbD j && i.getLsbD (min j 13)))
    ∧ Issues (.ori e d a i) s e.val n (k.Plain d fun v => ∀ j < 64, v.getLsbD j = (A.getLsbD j || i.getLsbD (min j 13)))
    ∧ Issues (.xori e d a i) s e.val n (k.Plain d fun v => ∀ j < 64, v.getLsbD j = (A.getLsbD j ^^ i.getLsbD (min j 13)))
    ∧ Issues (.bitx e d a b) s e.val n (k.Plain d fun v => v.toNat = A.toNat / 2 ^ m % 2)
    ∧ Issues (.bits e d a b c) s e.val n (k.Plain d fun v => ∀ j < 64, v.getLsbD j = if j = m then decide (C ≠ 0) else A.getLsbD j)
    ∧ Issues (.selB e d a b c) s e.val n (k.Plain d fun v => v = if C = 0 then A else B)

/-- DIV, DIVU and MOD give the truncated quotient and remainder, and R310's results and flags for a zero divisor and for min / -1 -/
def Obligations.DivisionAndRemainder : Prop :=
  ∀ (s : State) (e : Fin 8) (n : Nat) (d a b : BitVec 5), s.running e.val = some n →
    let k := (s.task n).ctx
    let A := k.r a
    let B := k.r b
    (B = 0 → Issues (.divS e d a b) s e.val n fun k' => ∃ v : Word64, k.Wrote k' d v false true
        ∧ v.toInt = if 0 < A.toInt then 9223372036854775807 else if A.toInt < 0 then -9223372036854775808 else 0)
    ∧ (B ≠ 0 → Issues (.divS e d a b) s e.val n fun k' => ∃ v : Word64,
        k.Wrote k' d v (decide (A.toInt = -9223372036854775808 ∧ B.toInt = -1)) false
        ∧ v.toInt = if A.toInt = -9223372036854775808 ∧ B.toInt = -1 then 9223372036854775807 else A.toInt.tdiv B.toInt)
    ∧ (B = 0 → Issues (.divu e d a b) s e.val n fun k' => ∃ v : Word64, k.Wrote k' d v false true ∧ v.toNat = 2 ^ 64 - 1)
    ∧ (B ≠ 0 → Issues (.divu e d a b) s e.val n (k.Plain d fun v => v.toNat = A.toNat / B.toNat))
    ∧ (B = 0 → Issues (.modS e d a b) s e.val n fun k' => k.Wrote k' d 0 false true)
    ∧ (B ≠ 0 → Issues (.modS e d a b) s e.val n (k.Plain d fun v => v.toInt = A.toInt - B.toInt * A.toInt.tdiv B.toInt))

/-- Shifts and rotates by B or IMM14 modulo 64; SATN, SEXT and ZEXT by the width of SUB; a bit of SUB that must be 0 traps -/
def Obligations.ShiftsRotatesAndWidths : Prop :=
  ∀ (s : State) (e : Fin 8) (n : Nat) (d a b : BitVec 5) (i : BitVec 14) (u : BitVec 4), s.running e.val = some n →
    let k := (s.task n).ctx
    let A := k.r a
    let m := (k.r b).toNat % 64
    let q := i.toNat % 64
    let w := 8 * 2 ^ (u.toNat % 4)
    Issues (.shl e d a b) s e.val n (k.Plain d fun v => v.toNat = A.toNat * 2 ^ m % 2 ^ 64)
    ∧ Issues (.shli e d a i) s e.val n (k.Plain d fun v => v.toNat = A.toNat * 2 ^ q % 2 ^ 64)
    ∧ Issues (.shr e d a b) s e.val n (k.Plain d fun v => v.toNat = A.toNat / 2 ^ m)
    ∧ Issues (.shri e d a i) s e.val n (k.Plain d fun v => v.toNat = A.toNat / 2 ^ q)
    ∧ Issues (.sar e d a b) s e.val n (k.Plain d fun v => v.toInt = A.toInt / 2 ^ m)
    ∧ Issues (.sari e d a i) s e.val n (k.Plain d fun v => v.toInt = A.toInt / 2 ^ q)
    ∧ Issues (.rol e d a b) s e.val n (k.Plain d fun v => ∀ j < 64, v.getLsbD j = A.getLsbD ((j + (64 - m)) % 64))
    ∧ Issues (.ror e d a b) s e.val n (k.Plain d fun v => ∀ j < 64, v.getLsbD j = A.getLsbD ((j + m) % 64))
    ∧ (u.getLsbD 2 = true → TrapsAs (.satn e d a u) s e 0)
    ∧ (u.getLsbD 2 = false → u.toNat % 4 ≠ 3 → Issues (.satn e d a u) s e.val n fun k' => ∃ v : Word64,
        k.Wrote k' d v (decide (v ≠ A)) false
        ∧ v.toInt = if u.getLsbD 3 then max 0 (min (2 ^ w - 1) A.toInt) else max (-2 ^ (w - 1)) (min (2 ^ (w - 1) - 1) A.toInt))
    ∧ (4 ≤ u.toNat → TrapsAs (.sext e d a u) s e 0 ∧ TrapsAs (.zext e d a u) s e 0)
    ∧ (u.toNat < 3 → Issues (.sext e d a u) s e.val n (k.Plain d fun v => ∀ j < 64, v.getLsbD j = A.getLsbD (min j (w - 1))))
    ∧ (u.toNat < 3 → Issues (.zext e d a u) s e.val n (k.Plain d fun v => v.toNat = A.toNat % 2 ^ w))
    ∧ (u.getLsbD 2 = false → u.toNat % 4 = 3 → ∃ k' : Ctx, exec (.satn e d a u) s = .next ((s.issued e.val n k').drawn)
        ∧ k.Wrote k' d s.free (decide (s.free ≠ A)) false)
    ∧ (u.toNat = 3 → (∃ k' : Ctx, exec (.sext e d a u) s = .next ((s.issued e.val n k').drawn) ∧ k.Wrote k' d s.free false false)
        ∧ (∃ k' : Ctx, exec (.zext e d a u) s = .next ((s.issued e.val n k').drawn) ∧ k.Wrote k' d s.free false false))

/-- CEQ, CNE, CLT, CLE, CLTU, CLEU, CEQI and CLTI write 1 or 0 by the comparison and set no flag -/
def Obligations.CompareInstructions : Prop :=
  ∀ (s : State) (e : Fin 8) (n : Nat) (d a b : BitVec 5) (i : BitVec 14), s.running e.val = some n →
    let k := (s.task n).ctx
    let A := k.r a
    let B := k.r b
    let truth (c : Instr) (p : Prop) : Prop := Issues c s e.val n fun k' => ∃ v : Word64, k.Wrote k' d v false false ∧ (v = 1 ∧ p ∨ v = 0 ∧ ¬ p)
    truth (.ceq e d a b) (∀ j < 64, A.getLsbD j = B.getLsbD j)
    ∧ truth (.cne e d a b) (∃ j < 64, A.getLsbD j ≠ B.getLsbD j)
    ∧ truth (.clt e d a b) (A.toInt < B.toInt)
    ∧ truth (.cle e d a b) (A.toInt ≤ B.toInt)
    ∧ truth (.cltu e d a b) (A.toNat < B.toNat)
    ∧ truth (.cleu e d a b) (A.toNat ≤ B.toNat)
    ∧ truth (.ceqi e d a i) (A.toInt = i.toInt)
    ∧ truth (.clti e d a i) (A.toInt < i.toInt)

/-- NOP, MOVI, LDK, LEA, RDST and CLRST: their results, and the traps of LDK outside the code half and of LEA with SP not 0 -/
def Obligations.ConstantsAddressesAndStatus : Prop :=
  ∀ (s : State) (e : Fin 8) (n : Nat) (d x : BitVec 5) (i : BitVec 19) (sp : BitVec 2) (disp : BitVec 12), s.running e.val = some n →
    let k := (s.task n).ctx
    let u := s.pmu (8 + e.val)
    let half := 0x1600000 + 0x40000 * e.val + 0x20000 * s.get (engHalf e.val)
    let p : Int := ((k.pc.toNat - k.pc.toNat % 8 : Nat) : Int) + i.toInt * 8
    Issues (.nop e) s e.val n (k.Moved · (k.pc + 4) k.iptr k.stack)
    ∧ Issues (.movi e d i) s e.val n (k.Plain d fun v => v.toInt = i.toInt)
    ∧ (0 ≤ p → p < 131072 → Issues (.ldk e d i) s e.val n (k.Plain d fun v =>
        v.toNat = ((List.range 8).map fun j => (u.byte (half + p.toNat + j)).toNat * 256 ^ j).sum))
    ∧ (p < 0 ∨ 131072 ≤ p → TrapsAs (.ldk e d i) s e 1)
    ∧ Issues (.lea e d x 0 disp) s e.val n (k.Plain d fun v => v.toNat = (k.iptr.toNat + (k.r x).toNat + 8 * disp.toNat) % 2 ^ 64)
    ∧ (sp ≠ 0 → TrapsAs (.lea e d x sp disp) s e 0)
    ∧ Issues (.rdst e d) s e.val n (k.Plain d fun v => v.toNat = k.sat.toNat + 2 * k.inv.toNat)
    ∧ Issues (.clrst e) s e.val n fun k' => k'.sat = false ∧ k'.inv = false ∧ k'.pc = k.pc + 4 ∧ k'.iptr = k.iptr ∧ k'.stack = k.stack
        ∧ ∀ r, k'.r r = k.r r

/-- FADD to FNMS, ITOF, F32 and FRND write the once-rounded result with SAT and INV; NaN, invalid, zero-divisor and trap cases of R311 -/
def Obligations.FloatingArithmetic : Prop :=
  ∀ (s : State) (e : Fin 8) (n : Nat) (d a b c : BitVec 5) (u : BitVec 4), s.running e.val = some n →
    let k := (s.task n).ctx
    let A := k.r a
    let B := k.r b
    let C := k.r c
    let out (x : Instr) (r : Word64 × FFlags) : Prop := Issues x s e.val n fun k' => k.Wrote k' d r.1 r.2.ovf r.2.inv
    out (.fadd e d a b) (faddF A B) ∧ out (.fsub e d a b) (fsubF A B) ∧ out (.fmul e d a b) (fmulF A B)
    ∧ out (.fdiv e d a b) (fdivF A B) ∧ out (.fsqrt e d a) (fsqrtF A)
    ∧ out (.fma e d a b c) (fmaF A B C) ∧ out (.fnms e d a b c) (fnmsF A B C)
    ∧ out (.itof e d a) (fofInt A.toInt, noF)
    ∧ out (.f32 e d a) (f32to64 (f64to32F A).1, (f64to32F A).2)
    ∧ (u.toNat < 4 → out (.frnd e d a u) (frnd (frndMode u.toNat) A, noF))
    ∧ (4 ≤ u.toNat → TrapsAs (.frnd e d a u) s e 0)
    ∧ (fisNaN A = true ∨ fisNaN B = true → out (.fadd e d a b) (0x7FF8000000000000, noF) ∧ out (.fsub e d a b) (0x7FF8000000000000, noF)
        ∧ out (.fmul e d a b) (0x7FF8000000000000, noF) ∧ out (.fdiv e d a b) (0x7FF8000000000000, noF)
        ∧ out (.fma e d a b c) (0x7FF8000000000000, noF) ∧ out (.fnms e d a b c) (0x7FF8000000000000, noF))
    ∧ (fisNaN A = true → out (.fsqrt e d a) (0x7FF8000000000000, noF))
    ∧ (fisNaN C = true → out (.fma e d a b c) (0x7FF8000000000000, noF) ∧ out (.fnms e d a b c) (0x7FF8000000000000, noF))
    ∧ (fisFin A = true → feq A 0 = false → feq B 0 = true →
        out (.fdiv e d a b) (if fsign A = fsign B then 0x7FF0000000000000 else 0xFFF0000000000000, ⟨false, true⟩))
    ∧ (feq A 0 = true → feq B 0 = true → out (.fdiv e d a b) (0x7FF8000000000000, ⟨false, true⟩))
    ∧ (flt A 0 = true → out (.fsqrt e d a) (0x7FF8000000000000, ⟨false, true⟩))
    ∧ (A = 0x7FF0000000000000 → B = 0xFFF0000000000000 → out (.fadd e d a b) (0x7FF8000000000000, ⟨false, true⟩))

/-- FABS, FNEG, FMIN, FMAX, FLIMIT, the FC compares and FTOI: results, NaN cases and flags -/
def Obligations.FloatingCompareAndConvert : Prop :=
  ∀ (s : State) (e : Fin 8) (n : Nat) (d a b c : BitVec 5), s.running e.val = some n →
    let k := (s.task n).ctx
    let A := k.r a
    let B := k.r b
    let C := k.r c
    let nan := fisNaN A || fisNaN B
    let out (x : Instr) (v : Word64) (sat inv : Bool) : Prop := Issues x s e.val n fun k' => k.Wrote k' d v sat inv
    Issues (.fabs e d a) s e.val n (k.Plain d fun v => ∀ j < 64, v.getLsbD j = (A.getLsbD j && decide (j ≠ 63)))
    ∧ Issues (.fneg e d a) s e.val n (k.Plain d fun v => ∀ j < 64, v.getLsbD j = (A.getLsbD j ^^ decide (j = 63)))
    ∧ Issues (.fmin e d a b) s e.val n (k.Plain d fun v => (nan = false → (v = A ∧ fle A B = true) ∨ (v = B ∧ fle B A = true))
        ∧ (fisNaN A = true → fisNaN B = false → v = B) ∧ (fisNaN A = false → fisNaN B = true → v = A)
        ∧ (fisNaN A = true → fisNaN B = true → v = 0x7FF8000000000000)
        ∧ (A = 0 → B = 0x8000000000000000 → v = 0x8000000000000000) ∧ (A = 0x8000000000000000 → B = 0 → v = 0x8000000000000000))
    ∧ Issues (.fmax e d a b) s e.val n (k.Plain d fun v => (nan = false → (v = A ∧ fle B A = true) ∨ (v = B ∧ fle A B = true))
        ∧ (fisNaN A = true → fisNaN B = false → v = B) ∧ (fisNaN A = false → fisNaN B = true → v = A)
        ∧ (fisNaN A = true → fisNaN B = true → v = 0x7FF8000000000000)
        ∧ (A = 0 → B = 0x8000000000000000 → v = 0) ∧ (A = 0x8000000000000000 → B = 0 → v = 0))
    ∧ out (.flimit e d a b c) (Sys2Proof.Machine.fmin (Sys2Proof.Machine.fmax A B) C) false false
    ∧ out (.fceq e d a b) (if nan then 0 else if forderKey A = forderKey B then 1 else 0) false false
    ∧ out (.fclt e d a b) (if nan then 0 else if forderKey A < forderKey B then 1 else 0) false nan
    ∧ out (.fcle e d a b) (if nan then 0 else if forderKey A ≤ forderKey B then 1 else 0) false nan
    ∧ out (.fcun e d a b) (if nan then 1 else 0) false false
    ∧ (fisNaN A = true → out (.ftoi e d a) 0 false true)
    ∧ (A = 0x7FF0000000000000 → out (.ftoi e d a) 0x7FFFFFFFFFFFFFFF true false)
    ∧ (A = 0xFFF0000000000000 → out (.ftoi e d a) 0x8000000000000000 true false)
    ∧ (∀ (g : Bool) (m : Nat) (x : Int), up A = .fin g m x → Issues (.ftoi e d a) s e.val n fun k' => ∃ v : Word64,
        let y := roundInt .zero g m x
        k.Wrote k' d v (decide (y < -9223372036854775808 ∨ 9223372036854775807 < y)) false
        ∧ v.toInt = max (-9223372036854775808) (min 9223372036854775807 y))

/-- LD8S to LD64 and LDF32 read the bytes at the effective address of their space, forced bytes first, or trap with cause 2 -/
def Obligations.LoadsAndTheirTraps : Prop :=
  ∀ (s : State) (e : Fin 8) (n : Nat) (d x : BitVec 5) (sp : BitVec 2) (disp : BitVec 12), s.running e.val = some n →
    let k := (s.task n).ctx
    let u := s.pmu (8 + e.val)
    let td := s.taskDef n
    let off (w : Nat) : Nat := ((if sp = 0 then k.iptr.toNat else 0) + (k.r x).toNat + disp.toNat * w) % 2 ^ 64
    let at' (w : Nat) : Nat := (if sp = 0 ∨ sp = 1 then s.instBase else if sp = 2 then s.imgBase + td.inp.1 else s.imgBase + td.outp.1) + off w
    let may (w : Nat) : Prop := at' w % w = 0
      ∧ (sp = 0 ∨ sp = 1 → off w + w ≤ s.be.set.globalLen ∨ (td.inst.1 ≤ off w ∧ off w + w ≤ td.inst.1 + td.inst.2))
      ∧ (sp = 2 → off w + w ≤ td.inp.2) ∧ (sp = 3 → off w + w ≤ td.outp.2)
    let val (w : Nat) : Nat := ((List.range w).map fun j => ((u.forcedByte (at' w + j)).getD (u.byte (at' w + j))).toNat * 256 ^ j).sum
    let load (c : Instr) (w : Nat) (f : Nat → Word64) : Prop :=
      (may w → Issues c s e.val n (k.Plain d fun v => v = f (val w))) ∧ (¬ may w → TrapsAs c s e 1)
    load (.ld8s e d x sp disp) 1 (fun v => (BitVec.ofNat 8 v).signExtend 64)
    ∧ load (.ld8u e d x sp disp) 1 (BitVec.ofNat 64)
    ∧ load (.ld16s e d x sp disp) 2 (fun v => (BitVec.ofNat 16 v).signExtend 64)
    ∧ load (.ld16u e d x sp disp) 2 (BitVec.ofNat 64)
    ∧ load (.ld32s e d x sp disp) 4 (fun v => (BitVec.ofNat 32 v).signExtend 64)
    ∧ load (.ld32u e d x sp disp) 4 (BitVec.ofNat 64)
    ∧ load (.ld64 e d x sp disp) 8 (BitVec.ofNat 64)
    ∧ load (.ldf32 e d x sp disp) 4 (fun v => f32to64 (BitVec.ofNat 32 v))

/-- ST8 to ST64 and STF32 store the low bytes of D at the effective address and nowhere else, a forced byte keeping its force, or trap with cause 2 -/
def Obligations.StoresAndTheirTraps : Prop :=
  ∀ (s : State) (e : Fin 8) (n : Nat) (d x : BitVec 5) (sp : BitVec 2) (disp : BitVec 12), s.running e.val = some n →
    let k := (s.task n).ctx
    let u := s.pmu (8 + e.val)
    let td := s.taskDef n
    let off (w : Nat) : Nat := ((if sp = 0 then k.iptr.toNat else 0) + (k.r x).toNat + disp.toNat * w) % 2 ^ 64
    let at' (w : Nat) : Nat := (if sp = 0 ∨ sp = 1 then s.instBase else if sp = 2 then s.imgBase + td.inp.1 else s.imgBase + td.outp.1) + off w
    let may (w : Nat) : Prop := at' w % w = 0
      ∧ (sp = 0 ∨ sp = 1 → off w + w ≤ s.be.set.globalLen ∨ (td.inst.1 ≤ off w ∧ off w + w ≤ td.inst.1 + td.inst.2))
      ∧ (sp = 2 → off w + w ≤ td.inp.2) ∧ (sp = 3 → off w + w ≤ td.outp.2)
    let store (c : Instr) (w v : Nat) (sat : Bool) : Prop :=
      (may w → ∃ (t : State) (k' : Ctx), exec c s = .next t ∧ t = { s.issued e.val n k' with mem := t.mem }
        ∧ (∀ j < w, t.byte (at' w + j) = (u.forcedByte (at' w + j)).getD (BitVec.ofNat 8 (v / 256 ^ j)))
        ∧ (∀ a, a < at' w ∨ at' w + w ≤ a → t.byte a = u.byte a)
        ∧ (∀ r, k'.r r = k.r r) ∧ k'.pc = k.pc + 4 ∧ k'.sat = (k.sat || sat) ∧ k'.inv = k.inv ∧ k'.iptr = k.iptr ∧ k'.stack = k.stack)
      ∧ (¬ may w → TrapsAs c s e 1)
    let D := (k.r d).toNat
    store (.st8 e d x sp disp) 1 D false
    ∧ store (.st16 e d x sp disp) 2 D false
    ∧ store (.st32 e d x sp disp) 4 D false
    ∧ store (.st64 e d x sp disp) 8 D false
    ∧ store (.stf32 e d x sp disp) 4 (f64to32F (k.r d)).1.toNat (f64to32F (k.r d)).2.ovf

/-- BR, BZ, BNZ, CALL, CALLB and RET: the next PC, IPTR and call stack; a full stack or an empty one traps with cause 2 -/
def Obligations.BranchesAndCalls : Prop :=
  ∀ (s : State) (e : Fin 8) (n : Nat) (a : BitVec 5) (i : BitVec 19), s.running e.val = some n →
    let k := (s.task n).ctx
    let target : BitVec 17 := BitVec.ofInt 17 (k.pc.toNat + i.toInt * 4)
    let go (c : Instr) (pc : BitVec 17) (ip : BitVec 24) (st : List (BitVec 17 × BitVec 24)) : Prop :=
      Issues c s e.val n fun k' => k.Moved k' pc ip st
    go (.br e i) target k.iptr k.stack
    ∧ (k.r a = 0 → go (.bz e a i) target k.iptr k.stack) ∧ (k.r a ≠ 0 → go (.bz e a i) (k.pc + 4) k.iptr k.stack)
    ∧ (k.r a ≠ 0 → go (.bnz e a i) target k.iptr k.stack) ∧ (k.r a = 0 → go (.bnz e a i) (k.pc + 4) k.iptr k.stack)
    ∧ (k.stack.length < 16 → go (.call e i) target k.iptr ((k.pc + 4, k.iptr) :: k.stack))
    ∧ (k.stack.length < 16 → go (.callb e a i) target (BitVec.ofNat 24 (k.r a).toNat) ((k.pc + 4, k.iptr) :: k.stack))
    ∧ (16 ≤ k.stack.length → TrapsAs (.call e i) s e 1 ∧ TrapsAs (.callb e a i) s e 1)
    ∧ (∀ (pc : BitVec 17) (ip : BitVec 24) (st : List (BitVec 17 × BitVec 24)), k.stack = (pc, ip) :: st → go (.ret e) pc ip st)
    ∧ (k.stack = [] → TrapsAs (.ret e) s e 1)

/-- END ends a run with its output copy requested; a trap ends it in FAULT with its cause and no copy; BE_TBSTAT takes BSTAT -/
def Obligations.RunEndsAndTraps : Prop :=
  ∀ (s : State) (e : Fin 8) (n : Nat) (c : Fin 3) (corr : Nat), s.running e.val = some n →
    let k := (s.task n).ctx
    Completes (.endRun e) s (fun t => t.get (F.BE_TSTAT_STATE n) = 5
        ∧ (∃ cp : Copy, t.be.copies = s.be.copies ++ [cp] ∧ cp.task = n ∧ cp.out = true ∧ cp.req = s.now)
        ∧ t.flag (F.BE_TBSTAT_SAT n) = k.sat ∧ t.flag (F.BE_TBSTAT_INV n) = k.inv ∧ (t.task n).ctx.stack = []
        ∧ t.running e.val ≠ some n ∧ (∀ a, ¬ s.BookMem a → t.byte a = s.byte a))
    ∧ (c = 0 → (beDecode e (s.codeWord e.val k)).isSome = true → Completes (.taskTrap e c corr) s fun t => t = s)
    ∧ ((c = 0 → (beDecode e (s.codeWord e.val k)).isSome = false) → Completes (.taskTrap e c corr) s fun t => t.get (F.BE_TSTAT_STATE n) = 6 ∧ t.get (F.BE_TSTAT_TRAP n) = c.val + 1
        ∧ t.be.copies = s.be.copies ∧ t.get F.BE_ECC_CORR = min 65535 (s.get F.BE_ECC_CORR + corr)
        ∧ (c.val ≠ 2 → t.get F.BE_ECC_UNCORR = s.get F.BE_ECC_UNCORR)
        ∧ (c.val = 2 → t.get F.BE_ECC_UNCORR = min 255 (s.get F.BE_ECC_UNCORR + 1))
        ∧ t.flag (F.BE_TBSTAT_SAT n) = k.sat ∧ t.flag (F.BE_TBSTAT_INV n) = k.inv ∧ (t.task n).ctx.stack = []
        ∧ t.running e.val ≠ some n ∧ (∀ a, ¬ s.BookMem a → t.byte a = s.byte a))

/-- The ten stateful library blocks write the variables their rules give and nothing else; A = 31, a full stack or an instance out of reach traps -/
def Obligations.LibraryBlocks : Prop :=
  ∀ (s : State) (e : Fin 8) (n : Nat) (a : BitVec 5), s.running e.val = some n →
    let k := (s.task n).ctx
    let u := s.pmu (8 + e.val)
    let base := (k.r a).toNat
    let addr := s.instBase + base
    let reach (c : Nat) : Prop := base + 8 * c ≤ 2 ^ 64 ∧ ∀ j < c, s.instReach n (base + 8 * j) 8 = true ∧ (addr + 8 * j) % 8 = 0
    let V (j : Nat) : Word64 := BitVec.ofNat 64 (u.beLoad (addr + 8 * j) 8)
    let bit (p : Bool) : Word64 := if p then 1 else 0
    let on (j : Nat) : Bool := V j != 0
    let now := (s.task n).stamp
    let PT := max 0 (V 1).toInt
    let et := (V 3).toInt + sdiff now (BitVec.ofNat 48 (V 5).toNat)
    let timer (q : Bool) (x : Int) : List (Nat × Word64) := [(2, bit q), (3, BitVec.ofInt 64 x), (4, bit (on 0)), (5, BitVec.ofNat 64 now.toNat)]
    let stepUp (v : Word64) : Word64 := if v.toInt = 9223372036854775807 then v else BitVec.ofInt 64 (v.toInt + 1)
    let stepDown (v : Word64) : Word64 := if v.toInt = -9223372036854775808 then v else BitVec.ofInt 64 (v.toInt - 1)
    let runs (c : Instr) (count : Nat) (W : List (Nat × Word64)) : Prop :=
      (a ≠ 31 → k.stack.length < 16 → reach count → Completes c s (BlockWrote s e.val n addr W))
      ∧ (a = 31 → TrapsAs c s e 0) ∧ (a ≠ 31 → 16 ≤ k.stack.length → TrapsAs c s e 1)
      ∧ (a ≠ 31 → base + 8 * count ≤ 2 ^ 64 → (∃ j < count, s.instReach n (base + 8 * j) 8 = false) → TrapsAs c s e 1)
    runs (.ton e a) 6 (if !on 0 then timer false 0 else if !on 4 then timer (decide (PT ≤ 0)) 0
        else if PT ≤ et then timer true PT else timer (on 2) et)
    ∧ runs (.tof e a) 6 (if on 0 then timer true 0 else if on 4 then timer (decide (0 < PT)) 0
        else if !on 2 then timer false (V 3).toInt else if PT ≤ et then timer false PT else timer true et)
    ∧ runs (.tp e a) 6 (if on 2 then (if PT ≤ et then timer false (if on 0 then PT else 0) else timer true et)
        else if on 0 && !on 4 then timer (decide (0 < PT)) 0 else timer false (if on 0 then (V 3).toInt else 0))
    ∧ runs (.rTrig e a) 3 [(1, bit (on 0 && !on 2)), (2, bit (on 0))]
    ∧ runs (.fTrig e a) 3 [(1, bit (!on 0 && on 2)), (2, bit (on 0))]
    ∧ runs (.ctu e a) 6 (let cv := if on 1 then 0 else if on 0 && !on 5 then stepUp (V 4) else V 4
        [(3, bit (decide ((V 2).toInt ≤ cv.toInt))), (4, cv), (5, bit (on 0))])
    ∧ runs (.ctd e a) 6 (let cv := if on 1 then V 2 else if on 0 && !on 5 then stepDown (V 4) else V 4
        [(3, bit (decide (cv.toInt ≤ 0))), (4, cv), (5, bit (on 0))])
    ∧ runs (.ctud e a) 10 (let cv := if on 2 then 0 else if on 3 then V 4
          else if (on 0 && !on 8) && !(on 1 && !on 9) then stepUp (V 7)
          else if (on 1 && !on 9) && !(on 0 && !on 8) then stepDown (V 7) else V 7
        [(5, bit (decide ((V 4).toInt ≤ cv.toInt))), (6, bit (decide (cv.toInt ≤ 0))), (7, cv), (8, bit (on 0)), (9, bit (on 1))])
    ∧ runs (.srBlock e a) 3 [(2, bit (on 0 || (!on 1 && on 2)))]
    ∧ runs (.rsBlock e a) 3 [(2, bit (!on 1 && (on 0 || on 2)))]

/-- The eleven library functions return their result in g[A]: NaN for a NaN, NaN with INV outside the domain, +infinity with SAT on overflow; A = 31 traps -/
def Obligations.LibraryFunctions : Prop :=
  ∀ (s : State) (e : Fin 8) (n : Nat) (a : BitVec 5), s.running e.val = some n →
    let k := (s.task n).ctx
    let x := k.r a
    let y := k.r (a + 1)
    let nan : Word64 := 0x7FF8000000000000
    let isInf (v : Word64) : Prop := v = 0x7FF0000000000000 ∨ v = 0xFFF0000000000000
    let fn (c : Instr) (two : Bool) (dom : Prop) (v : Word64) : Prop :=
      (a = 31 → TrapsAs c s e 0) ∧ (a ≠ 31 → 16 ≤ k.stack.length → TrapsAs c s e 1)
      ∧ (a ≠ 31 → k.stack.length < 16 →
        let someNaN := fisNaN x = true ∨ (two = true ∧ fisNaN y = true)
        let allFin := fisFin x = true ∧ (two = true → fisFin y = true)
        (someNaN → Issues c s e.val n fun k' => k.Wrote k' a nan false false)
        ∧ (¬ someNaN → ¬ dom → Issues c s e.val n fun k' => k.Wrote k' a nan false true)
        ∧ (¬ someNaN → dom → isInf v → allFin → Issues c s e.val n fun k' => k.Wrote k' a 0x7FF0000000000000 true false)
        ∧ (¬ someNaN → dom → ¬ (isInf v ∧ allFin) → Issues c s e.val n fun k' => k.Wrote k' a v false false))
    let unit : Prop := fle (x &&& 0x7FFFFFFFFFFFFFFF) 0x3FF0000000000000 = true
    fn (.sinF e a) false (fisFin x = true) (fsin x) ∧ fn (.cosF e a) false (fisFin x = true) (fcos x)
    ∧ fn (.tanF e a) false (fisFin x = true) (ftan x)
    ∧ fn (.asinF e a) false unit (fasin x) ∧ fn (.acosF e a) false unit (facos x)
    ∧ fn (.atanF e a) false True (fatan x) ∧ fn (.atan2F e a) true True (fatan2 x y)
    ∧ fn (.expF e a) false True (fexp x)
    ∧ fn (.lnF e a) false (flt 0 x = true) (fln x) ∧ fn (.logF e a) false (flt 0 x = true) (flog x)
    ∧ fn (.exptF e a) true (flt 0 x = true ∨ (feq x 0 = true ∧ fle 0 y = true)
        ∨ (flt x 0 = true ∧ (isInf y ∨ feq (frnd .zero y) y = true))) (fpow x y)

/-- TASK_ENABLE, TASK_RELEASE, the copies' ends and BE_TRELL_READ: task states, release instants, overruns and what is requested -/
def Obligations.TaskRuntime : Prop :=
  ∀ (s : State) (n : Fin 16) (d : Dom),
    (d = .host ∨ d = .svc → s.domOn 2 = true → (s.isMaster = true → n.val < 14) → s.flag (F.BE_TCFG_EN n.val) = false →
      Completes (.taskEnable d n) s fun t => t.flag (F.BE_TCFG_EN n.val) = true
        ∧ t.get (F.BE_TCFG_PRIO n.val) = s.get (F.BE_TCFG_PRIO n.val) ∧ t.get (F.BE_TCFG_ENG n.val) = s.get (F.BE_TCFG_ENG n.val)
        ∧ (s.tState n.val = 0 ∨ s.tState n.val = 6 → t.tState n.val = 1 ∧ t.get (F.BE_TSTAT_TRAP n.val) = 0)
        ∧ (s.tState n.val ≠ 0 → s.tState n.val ≠ 6 → t.tState n.val = s.tState n.val)
        ∧ (t.task n.val).ctx.sat = false ∧ (t.task n.val).ctx.inv = false ∧ (t.task n.val).first = true)
    ∧ (s.mayRelease n.val = true → s.nextRelease n.val < 2 ^ 64 → s.flag (F.BE_TCFG_BASE n.val) = false →
        let mult := max 1 (s.get (F.BE_TCFG_MULT n.val))
        let fits (x : Nat) : Prop := x % 125000 = 0 ∧ s.now ≤ x ∧ (∀ h, (s.task n.val).handled = some h → h < x)
          ∧ x / 125000 % mult = s.get (F.BE_TPH_PHASE n.val) % mult
        (s.tState n.val ≤ 1 → ¬ (s.isMaster = true ∧ n.val = 14) →
          Completes (.taskRelease n) s fun t => ∃ due, fits due ∧ (∀ x, fits x → due ≤ x) ∧ t.now = s.reached due
            ∧ (t.task n.val).handled = some due ∧ (t.task n.val).stamp = BitVec.ofNat 48 due ∧ t.tState n.val = 2
            ∧ t.word (R.BE_TRELL n.val) = BitVec.ofNat 32 due
            ∧ t.be.copies.take s.be.copies.length = s.be.copies
            ∧ (t.be.copies.drop s.be.copies.length).map (fun (c : Copy) => (c.task, c.out, c.req)) = [(n.val, false, due)])
        ∧ (2 ≤ s.tState n.val → s.tState n.val ≤ 5 →
          Completes (.taskRelease n) s fun t => t.tState n.val = s.tState n.val ∧ t.be.copies = s.be.copies
            ∧ t.get (F.BE_TOVR_OVR_CNT n.val) = min 65535 (s.get (F.BE_TOVR_OVR_CNT n.val) + 1)
            ∧ (t.task n.val).stamp = (s.task n.val).stamp)
        ∧ (s.tState n.val = 6 → Completes (.taskRelease n) s fun t => t.tState n.val = 6 ∧ t.be.copies = s.be.copies
            ∧ t.get (F.BE_TOVR_OVR_CNT n.val) = s.get (F.BE_TOVR_OVR_CNT n.val)))
    ∧ (∀ (c : Copy) (x k : Nat), s.nextCopy = some (c, x) → c.task = n.val → c.out = false →
        (k < c.left.length → Completes (.inputCopyDone n k) s fun t =>
          t.be.copies = s.be.copies.filter (fun y => y != c) ++ [{ c with left := c.left.drop k, begun := true }])
        ∧ (c.left.length ≤ k → Completes (.inputCopyDone n k) s fun t => (t.tState n.val = 3 ∨ t.tState n.val = 4) ∧ t.running (t.get (F.BE_TCFG_ENG n.val)) ≠ none))
    ∧ (∀ (c : Copy) (x k corr : Nat), s.nextCopy = some (c, x) → c.task = n.val → c.out = true → c.left.length ≤ k →
        Completes (.outputCopyDone n k corr) s fun t => t.tState n.val = (if t.flag (F.BE_TCFG_EN n.val) then 1 else 0)
          ∧ (t.task n.val).first = false)
    ∧ (s.domOn 2 = true → Completes (.beTrellRead n) s fun t => t.get (F.BE_TRELH_REL_HI n.val) = (s.task n.val).stamp.toNat / 2 ^ 32
        ∧ ∀ a, a ≠ R.BE_TRELH n.val → t.word a = s.word a)

/-- FOP_SET, FOP_CLEAR, FOP_CLEAR_ALL change the force table, refuse, or wait for a switch; ACTIVATION_SWITCH begins and ends it, ACTIVATION_TIMEOUT abandons it -/
def Obligations.ForcesAndActivation : Prop :=
  ∀ (s : State) (d : Dom) (key : BitVec 16), d = .host ∨ d = .svc → s.domOn 2 = true →
    let id := s.word R.BE_FNAME
    let v := s.get64 R.BE_FVALL
    let calm := s.be.swAt = none
    let forced := s.be.forces.any fun f => f.ident == id
    (∀ y, s.be.set.syms.find? (fun y => y.ident == id) = some y → y.safe = false → calm → (forced = true ∨ s.be.forces.length < 256) →
      Completes (.fopSet d 0x5AFE) s fun t => t.get F.BE_FRES_RES = 0 ∧ t.get F.BE_FRES_NFORCE = t.be.forces.length % 512
        ∧ (t.be.forces.filter fun f => f.ident == id).map (fun (f : Force) => (f.val, f.area, f.addr, f.size)) = [(v, y.area, y.addr.toNat, y.size.val)]
        ∧ (t.be.forces.filter fun f => f.ident != id) = (s.be.forces.filter fun f => f.ident != id)
        ∧ ∀ j < 2 ^ y.size.val, t.byte ((if y.area then s.imgBase else s.instBase) + y.addr.toNat + j) = BitVec.ofNat 8 (v.toNat / 256 ^ j))
    ∧ (s.be.set.syms.find? (fun y => y.ident == id) = none → calm → Completes (.fopSet d 0x5AFE) s fun t =>
        t.get F.BE_FRES_RES = 1 ∧ t.be.forces = s.be.forces ∧ t.mem = s.mem)
    ∧ (∀ y, s.be.set.syms.find? (fun y => y.ident == id) = some y → forced = false → calm → 256 ≤ s.be.forces.length →
        Completes (.fopSet d 0x5AFE) s fun t => t.get F.BE_FRES_RES = 2 ∧ t.be.forces = s.be.forces ∧ t.mem = s.mem)
    ∧ (∀ y, s.be.set.syms.find? (fun y => y.ident == id) = some y → y.safe = true → calm → (forced = true ∨ s.be.forces.length < 256) →
        Completes (.fopSet d 0x5AFE) s fun t => t.get F.BE_FRES_RES = 3 ∧ t.be.forces = s.be.forces ∧ t.mem = s.mem)
    ∧ (forced = true → calm → Completes (.fopClear d 0x5AFE) s fun t => t.get F.BE_FRES_RES = 0
        ∧ t.be.forces = s.be.forces.filter fun f => f.ident != id)
    ∧ (forced = false → calm → Completes (.fopClear d 0x5AFE) s fun t => t.get F.BE_FRES_RES = 1 ∧ t.be.forces = s.be.forces ∧ t.mem = s.mem)
    ∧ (calm → Completes (.fopClearAll d 0x5AFE) s fun t => t.be.forces = [] ∧ t.get F.BE_FRES_RES = 0 ∧ t.get F.BE_FRES_NFORCE = 0)
    ∧ (s.be.swAt.isSome = true → ∀ e ∈ [(1, Instr.fopSet d 0x5AFE), (2, .fopClear d 0x5AFE), (3, .fopClearAll d 0x5AFE)], Completes e.2 s fun t =>
        t = { s with be := { s.be with fops := s.be.fops ++ [(e.1, id, v)] } })
    ∧ (key ≠ 0x5AFE → ∀ c ∈ [Instr.fopSet d key, .fopClear d key, .fopClearAll d key], Completes c s fun t =>
        t.be = s.be ∧ t.mem = s.mem ∧ t.get F.SYS_KEYERR_COUNT = min (2 ^ F.SYS_KEYERR_COUNT.w - 1) (s.get F.SYS_KEYERR_COUNT + 1))
    ∧ (∀ (at' : Nat) (p : ProgSet), s.be.actAt = some at' → calm → s.be.staged = some p → s.maySwitch p at' = true → Completes .activationSwitch s fun t =>
        t.be.swAt = some s.now ∧ t.be.actAt = none ∧ t.be.set = s.be.set ∧ t.be.staged = some p ∧ t.get F.BE_ACT_ASTATE = 2 ∧ t.now = s.now)
    ∧ (∀ (from' : Nat) (p : ProgSet), s.be.swAt = some from' → s.be.staged = some p → from' + switchNs p < 2 ^ 64 → (∀ i, s.be.stagedImg = some i → i.zalSig = s.pwr.image.zalSig) →
        Completes .activationSwitch s fun t => t.be.set = p ∧ t.be.staged = none ∧ t.be.swAt = none ∧ t.be.area = 1 - s.be.area
          ∧ t.word R.BE_PROG = p.psig ∧ t.get F.BE_ACT_ASTATE = 0 ∧ t.get F.BE_ACT_ARES = 0 ∧ t.now = s.reached (from' + switchNs p))
    ∧ (∀ at' : Nat, s.be.actAt = some at' → at' + 2 * s.tDp < 2 ^ 64 → Completes .activationTimeout s fun t => t.be.actAt = none ∧ t.be.set = s.be.set
        ∧ t.get F.BE_ACT_ASTATE = 0 ∧ t.get F.BE_ACT_ARES = 1 ∧ t.now = s.reached (at' + 2 * s.tDp))

/-- SRV_ENABLE, SRV_DISABLE, SRV_OPEN, SRV_CLOSE and SRV_COMMIT are judged at the write: result code, pending request, and nothing else of the loop -/
def Obligations.ServoRequests : Prop :=
  ∀ (s : State) (n : Fin 24) (d : Dom), s.domOn 8 = true →
    let st := s.srvState n.val
    let l := s.loop n.val
    let rest (t : State) : Prop := t.srvState n.val = st ∧ (∀ a, a ≠ R.SRV_LSTAT n.val → t.word a = s.word a) ∧ t.mem = s.mem
      ∧ ∀ m, m ≠ n.val → t.loop m = s.loop m
    let judged (c : Instr) (op : Nat) (valid : Prop) : Prop :=
      (valid → Completes c s fun t => t.get (F.SRV_LSTAT_LRES n.val) = (if l.pend.isSome then 5 else 0) ∧ t.flag (F.SRV_LSTAT_PEND n.val) = true
        ∧ t.loop n.val = { l with pend := some op } ∧ rest t)
      ∧ (¬ valid → Completes c s fun t => t.get (F.SRV_LSTAT_LRES n.val) = 3 ∧ t.loop n.val = l ∧ rest t)
    (d = .host ∨ d = .svc →
      judged (.srvEnable d n) 1 (st = 0) ∧ judged (.srvDisable d n) 2 (st ≠ 0)
      ∧ judged (.srvOpen d n) 3 (st = 2 ∨ st = 3 ∨ st = 4) ∧ judged (.srvClose d n) 4 (st = 1)
      ∧ (st = 2 ∨ st = 3 ∨ l.pend = some 4 →
          Completes (.srvCommit d n) s fun t => t.get (F.SRV_LSTAT_LRES n.val) = 1 ∧ t.loop n.val = l ∧ rest t)
      ∧ (st ≠ 2 → st ≠ 3 → l.pend ≠ some 4 → s.coefOk n.val = false →
          Completes (.srvCommit d n) s fun t => t.get (F.SRV_LSTAT_LRES n.val) = 4 ∧ t.loop n.val = l ∧ rest t)
      ∧ (st ≠ 2 → st ≠ 3 → l.pend ≠ some 4 → s.coefOk n.val = true →
          Completes (.srvCommit d n) s fun t => t.get (F.SRV_LSTAT_LRES n.val) = (if l.commitPend then 5 else 0)
            ∧ t.flag (F.SRV_LSTAT_PEND n.val) = true ∧ t.loop n.val = { l with commitPend := true } ∧ rest t))
    ∧ (d = .safe ∨ d = .block → ∀ c ∈ [Instr.srvEnable d n, .srvDisable d n, .srvOpen d n, .srvClose d n, .srvCommit d n], exec c s = .next s)

/-- A loop's period start carries out the pending request and the HOLD rules, its output instant writes U by its state; timeouts and the plausibility mismatch -/
def Obligations.ServoPeriodsAndOutputs : Prop :=
  ∀ (s : State) (n : Fin 24) (mv : List (Fin 12 × Int)), s.domOn 8 = true →
    let m := n.val
    let st := s.srvState m
    let l := s.loop m
    let fbOk := s.flag (F.SRV_LSTAT_FB_OK m)
    let start := s.nextPeriod m
    let outAt := l.perAt + s.get (F.SRV_LPH_OUT_PH m) * 5 / 3
    (start < 2 ^ 64 → Completes (.servoPeriodStart n) s fun t =>
        t.now = s.reached start ∧ start % (62500 * 2 ^ s.get (F.SRV_LCFG_RATE m)) = 0 ∧ s.now ≤ start ∧ start ≤ s.now + 62500 * 2 ^ s.get (F.SRV_LCFG_RATE m)
        ∧ (t.loop m).perAt = s.reached start ∧ (t.loop m).pend = none ∧ (t.loop m).commitPend = false ∧ t.flag (F.SRV_LSTAT_PEND m) = false
        ∧ (l.pend = some 1 → st = 0 → t.srvState m = 1)
        ∧ (l.pend = some 2 → st ≠ 0 → t.srvState m = 0)
        ∧ (l.pend = some 3 → st = 2 ∨ st = 3 ∨ st = 4 → t.srvState m = 1)
        ∧ (l.tripDue = true → l.pend = none → st = 2 ∨ st = 3 → t.srvState m = 4 ∧ t.get (F.SRV_LSTAT_FCAUSE m) = 2)
        ∧ (t.loop m).tripDue = false
        ∧ (l.tripDue = false → l.pend = some 4 → st = 1 → fbOk = true → l.commitPend = false → l.fbNew = false → s.get (F.SRV_LIO_FB_KIND m) ≠ 0 →
            t.srvState m = 2)
        ∧ (l.pend = some 4 → st = 1 → fbOk = false → t.srvState m = 1 ∧ t.get (F.SRV_LSTAT_LRES m) = 2)
        ∧ (l.tripDue = false → l.pend = none → st = 2 → fbOk = false → t.srvState m = 3 ∧ t.get (F.SRV_LCNT_HOLD_CNT m) = min 255 (s.get (F.SRV_LCNT_HOLD_CNT m) + 1))
        ∧ (l.tripDue = false → l.pend = none → st = 3 → fbOk = true → t.srvState m = 2)
        ∧ (l.tripDue = false → l.pend = none → st = 3 → fbOk = false → l.commitPend = false →
            if max 1 (s.get (F.SRV_LTMO_FB_HOLD m)) ≤ l.holdN + 1 then t.srvState m = 4 ∧ t.get (F.SRV_LSTAT_FCAUSE m) = 1
            else t.srvState m = 3 ∧ (t.loop m).holdN = l.holdN + 1)
        ∧ (l.pend = none → st = 0 ∨ st = 1 ∨ st = 4 ∨ (st = 2 ∧ fbOk = true ∧ l.tripDue = false) → t.srvState m = st))
    ∧ (s.now + 125000 < 2 ^ 64 → Completes .servoTick s fun t => (s.timeRuns = true → t.now % 125000 = 0) ∧ s.now ≤ t.now ∧ t.now ≤ s.now + 125000 ∧ t.srv.tickAt = t.now
        ∧ t.srvState m = st)
    ∧ (l.outAt = some l.perAt → Completes (.servoOutput n mv) s fun t => t = s)
    ∧ (outAt < 2 ^ 64 → l.outAt ≠ some l.perAt → Completes (.servoOutput n mv) s fun t => t.now = s.reached outAt
        ∧ (st = 1 → t.srvState m = 1 ∧ t.geti (R.SRV_U m) = clampI (s.geti (R.SRV_OMIN m)) (s.geti (R.SRV_OMAX m))
            (sat32 (l.openOut + match l.inj with | some q => if q.point = 1 then s.injSignal m else 0 | none => 0)))
        ∧ (st = 2 → t.srvState m = 2 → t.flag (F.SRV_LSTAT_FB_OK m) = true → s.geti (R.SRV_OMIN m) ≤ s.geti (R.SRV_OMAX m) →
            s.geti (R.SRV_OMIN m) ≤ t.geti (R.SRV_U m) ∧ t.geti (R.SRV_U m) ≤ s.geti (R.SRV_OMAX m))
        ∧ (st = 3 → t.srvState m = 3 → t.word (R.SRV_U m) = BitVec.ofInt 32 l.u)
        ∧ (st = 4 → t.srvState m = 4 ∧ t.word (R.SRV_U m) = s.word (R.SRV_SAFE_OUT m))
        ∧ (st = 0 → t.srvState m = 0 ∧ t.word (R.SRV_U m) = if l.offDue then s.word (R.SRV_SAFE_OUT m) else s.word (R.SRV_U m))
        ∧ (t.loop m).outAt = some l.perAt)
    ∧ (st = 3 → fbOk = false → l.tripDue = false → max 1 (s.get (F.SRV_LTMO_FB_HOLD m)) ≤ l.holdN + 1 → l.pend = none → l.commitPend = false → start < 2 ^ 64 →
        Completes (.fbHoldExpire n) s fun t => t.srvState m = 4 ∧ t.get (F.SRV_LSTAT_FCAUSE m) = 1 ∧ t.word (R.SRV_U m) = s.word (R.SRV_U m)
          ∧ (t.loop m).perAt = s.reached start)
    ∧ (s.get (F.SRV_LCFG_SP_SRC m) = 1 → s.flag (F.SRV_LSTAT_SP_STALE m) = false →
        l.spAt + s.get (F.SRV_LTMO_SP_TMO_MS m) * 1000000 < 2 ^ 64 →
        Completes (.setpointTimeout n) s fun t => t.flag (F.SRV_LSTAT_SP_STALE m) = true
          ∧ t.get (F.SRV_LCNT_STALE_CNT m) = min 255 (s.get (F.SRV_LCNT_STALE_CNT m) + 1)
          ∧ t.now = s.reached (l.spAt + s.get (F.SRV_LTMO_SP_TMO_MS m) * 1000000))
    ∧ (s.flag (F.SRV_LPL_PL_EN m) = true → max 1 (s.get (F.SRV_LPL_PL_N m)) ≤ l.plausN + 1 → st ≠ 0 → l.outAt ≠ some l.perAt →
        Completes (.plausibilityMismatch n mv) s fun t => t.flag (F.SRV_LSTAT_FB_OK m) = true →
          s.geti (R.SRV_PL_TOL m) < |t.geti (R.SRV_YM m) - t.plausSignal m| →
          t.flag (F.SRV_LSTAT_PLAUS m) = true ∧ t.get (F.SRV_LCNT_PLAUS_CNT m) = min 255 (s.get (F.SRV_LCNT_PLAUS_CNT m) + 1)
            ∧ (t.loop m).plausN = 0 ∧ (s.flag (F.SRV_LPL_PL_TRIP m) = true → (t.loop m).tripDue = true))

/-- Injection and capture commands, the loop tables' data register and the encoder commands: what each arms, ends, counts or latches -/
def Obligations.InjectionCaptureAndEncoders : Prop :=
  ∀ (s : State) (n : Fin 24) (u : Fin 2) (c : Fin 12) (d : Dom) (v : Word), d = .host ∨ d = .svc → s.domOn 8 = true → s.domOn 12 = true →
    let l := s.loop n.val
    let len := s.get (F.CAP_LEN_LEN u.val)
    let lp := s.get F.SRV_TBL_SEL_LOOP
    let idx := s.get F.SRV_TBL_SEL_IDX
    let size := if s.flag F.SRV_TBL_SEL_TBL then 256 else 1024
    let quad := s.flag (F.ENC_CFG_EN c.val) = true ∧ s.flag (F.ENC_CFG_MODE c.val) = false
    let per := 62500 * 2 ^ s.get (F.SRV_LCFG_RATE n.val)
    let at' := s.now + (sdiff (BitVec.ofNat 48 ((s.word (R.SRV_INJ_TSH n.val)).toNat % 65536 * 2 ^ 32 + (s.word (R.SRV_INJ_TSL n.val)).toNat)) s.stamp).toNat
    let frame (late : Bool) : Ssi := ⟨s.ssiStart c.val, s.ssiStart c.val + s.ssiNs c.val, late⟩
    let latch := s.reached (l.perAt + (s.get (F.SRV_LPH_OUT_PH n.val) - 38) * 5 / 3)
    let bad (t : State) : Prop := ∀ m : Fin 24, t.encOk c.val m.val = false
    Completes (.injGo d n) s (fun t => (t.loop n.val) = { l with injArmed := true } ∧ t.regs = s.regs)
    ∧ Completes (.injStop d n) s (fun t => (t.loop n.val).injArmed = false ∧ (t.loop n.val).inj = none ∧ t.flag (F.SRV_LSTAT_INJ_RUN n.val) = false)
    ∧ (l.injArmed = true → s.flag (F.SRV_INJ_CFG_START n.val) = true → at' + 2 * per < 2 ^ 64 → s.timeRuns = true →
        Completes (.injectionTstart n) s fun t => t.now % per = 0 ∧ at' ≤ t.now ∧ (t.now < at' + per ∨ t.now = l.perAt + per)
          ∧ (t.loop n.val).perAt = t.now ∧ (t.loop n.val).injArmed = false)
    ∧ (∀ p, l.inj = some p → p.dur ≤ l.injK + 1 → l.injArmed = false → s.nextPeriod n.val < 2 ^ 64 →
        Completes (.injectionEnd n) s fun t => (t.loop n.val).inj = none ∧ t.flag (F.SRV_LSTAT_INJ_RUN n.val) = false ∧ (t.loop n.val).injVal = 0)
    ∧ (s.capOk u.val = true → Completes (.captureArm d u) s fun t =>
        t.get (F.CAP_STAT_STATE u.val) = (if s.get (F.CAP_CFG_TRIG u.val) = 0 then 2 else 1) ∧ t.flag (F.CAP_STAT_BADCFG u.val) = false
          ∧ (t.cap u.val).buf = [] ∧ (t.cap u.val).chans = List.replicate (s.get (F.CAP_CFG_NCH u.val) + 1) [])
    ∧ (s.capOk u.val = false → Completes (.captureArm d u) s fun t => t.flag (F.CAP_STAT_BADCFG u.val) = true
        ∧ t.get (F.CAP_STAT_STATE u.val) = s.get (F.CAP_STAT_STATE u.val) ∧ t.cap u.val = s.cap u.val)
    ∧ Completes (.captureAbort d u) s (fun t => t.get (F.CAP_STAT_STATE u.val) = 0 ∧ t.cap u.val = s.cap u.val)
    ∧ (s.get (F.CAP_STAT_STATE u.val) = 1 → (s.cap u.val).trig = false → s.get (F.CAP_CFG_TRIG u.val) = 0 ∨ s.get (F.CAP_CFG_TRIG u.val) = 1 →
        Completes (.captureTrigger u) s fun t => t.get (F.CAP_STAT_STATE u.val) = 2 ∧ (t.cap u.val).trig = true)
    ∧ (s.get (F.CAP_STAT_STATE u.val) = 2 → (∀ ch ∈ (s.cap u.val).chans, len ≤ ch.length) →
        Completes (.captureComplete u) s fun t => t.get (F.CAP_STAT_STATE u.val) = 3 ∧ (t.cap u.val).chans = []
          ∧ (s.flag (F.CAP_CFG_DDR_EN u.val) = false → (t.cap u.val).buf = (s.cap u.val).chans.flatten ∧ t.mem = s.mem)
          ∧ (s.flag (F.CAP_CFG_DDR_EN u.val) = true → (t.cap u.val).slot = (s.cap u.val).slot % (s.get (F.CAP_CFG_NSLOT u.val) + 1) + 1))
    ∧ Completes (.srvTblDataAccess none) s (fun t => t.get F.SRV_TBL_SEL_IDX = (idx + 1) % size ∧ t.srv = s.srv)
    ∧ Completes (.srvTblDataAccess (some (d, v))) s (fun t => t.get F.SRV_TBL_SEL_IDX = (idx + 1) % size
        ∧ tblGet (if s.flag F.SRV_TBL_SEL_TBL then (t.loop lp).cogSh else (t.loop lp).fricSh) (idx % size) = v
        ∧ (t.loop lp).fric = (s.loop lp).fric ∧ (t.loop lp).cog = (s.loop lp).cog)
    ∧ (quad → Completes (.encoderIllegalTransition c) s fun t => bad t
        ∧ t.get (F.ENC_CNT_ERR_CNT c.val) = min (2 ^ (F.ENC_CNT_ERR_CNT c.val).w - 1) (s.get (F.ENC_CNT_ERR_CNT c.val) + 1))
    ∧ (quad → s.flag (F.ENC_CFG_IDX_CLR c.val) = true → Completes (.encoderIndexPulse c) s fun t => t.word (R.ENC_POS c.val) = 0
        ∧ ∀ a, a ≠ R.ENC_POS c.val → t.word a = s.word a)
    ∧ (s.flag (F.ENC_CFG_EN c.val) = true → s.flag (F.ENC_CFG_MODE c.val) = true →
        let bits := max 8 (min 32 (s.get (F.ENC_CFG_BITS c.val)))
        (s.flag (F.ENC_CFG_GRAY c.val) = false → Completes (.ssiFrame c v false false) s fun t => t.word (R.ENC_POS c.val) = BitVec.ofNat 32 (v.toNat % 2 ^ bits))
        ∧ (s.flag (F.ENC_CFG_GRAY c.val) = true → Completes (.ssiFrame c v false false) s fun t =>
            let p := (t.word (R.ENC_POS c.val)).toNat
            p < 2 ^ bits ∧ ∀ j < bits, (p ^^^ (p / 2)).testBit j = (v.toNat % 2 ^ bits).testBit j)
        ∧ Completes (.ssiFrame c v false false) s (fun t => t.srv.ssi.getD c.val none = some (frame false))
        ∧ (∀ f, s.srv.ssi.getD c.val none = some f → latch < f.till → l.outAt ≠ some l.perAt → s.get (F.SRV_LIO_FB_KIND n.val) = 1 →
            s.get (F.SRV_LIO_FB_IDX n.val) = c.val → Completes (.servoOutput n []) s fun t => t.flag (F.SRV_LSTAT_FB_OK n.val) = false
              ∧ t.srv.ssi.getD c.val none = some { f with late := true }
              ∧ t.get (F.ENC_CNT_LATE_CNT c.val) = (if f.late then s.get (F.ENC_CNT_LATE_CNT c.val)
                  else min (2 ^ (F.ENC_CNT_LATE_CNT c.val).w - 1) (s.get (F.ENC_CNT_LATE_CNT c.val) + 1)))
        ∧ (s.get (F.ENC_CFG_PAR c.val) ≠ 0 → Completes (.ssiFrame c v true false) s fun t => bad t ∧ t.word (R.ENC_POS c.val) = s.word (R.ENC_POS c.val)
            ∧ t.get (F.ENC_CNT_ERR_CNT c.val) = min (2 ^ (F.ENC_CNT_ERR_CNT c.val).w - 1) (s.get (F.ENC_CNT_ERR_CNT c.val) + 1)))
    ∧ Completes (.encoderConfigWrite d c 2 v) s (fun t => t.word (R.ENC_CPR c.val) = v ∧ bad t)
    ∧ (∀ r : Fin 3, Completes (.encoderConfigWrite d c r v) s bad)

/-- Filter commands that software or a pin gives: enable, source change, common enable, SYNC, bank request, coefficient write, stuck data and the stamp read -/
def Obligations.FilterControl : Prop :=
  ∀ (s : State) (n : Fin 24) (d : Dom) (v : Word) (bank : Bool) (src : Fin 4), d = .host ∨ d = .svc → s.domOn 12 = true →
    let en (k : Fin 24) := s.flag (F.DSF_CFG_EN k.val)
    let inc (f : Fld) : Nat := min (2 ^ f.w - 1) (s.get f + 1)
    let proofing (t : State) (k : Nat) : Prop := t.flag (F.DSF_STAT_PROOFED k) = false ∧ t.get (F.DSF_STAT_THR k) = 0
      ∧ (t.ch k).left = dsfFill (t.dcfg k) + s.get (F.DSF_PROOF_SETTLE k) ∧ t.get (F.DSF_STAT_PCOUNT k) = min 65535 (t.ch k).left ∧ (t.ch k).skip = 3
    let restarted (t : State) (k base : Nat) : Prop := proofing t k ∧ (t.ch k).bits = [] ∧ (t.ch k).lineA = [[], []] ∧ (t.ch k).lineB = [[], []]
      ∧ (t.ch k).nextAt = base + s.get (F.DSF_DELAY_DELAY k) % (4 * dsfD (t.dcfg k)) * 25 + dsfD (t.dcfg k) * 100
    let idx := s.get F.DSF_COEF_SEL_IDX
    let ch := s.get F.DSF_COEF_SEL_CH
    let bk := s.flag F.DSF_COEF_SEL_BANK
    let stage := s.get F.DSF_COEF_SEL_STAGE
    let taps := if stage = 0 then dsfNA (s.dcfg ch) else dsfNB (s.dcfg ch)
    let nextIdx := if taps ≤ idx + 1 then 0 else idx + 1
    let start := s.ioEdge (2 * s.now) 100
    let ball := s.ioEdge (2 * s.now) 25
    let synced (t : State) (base : Nat) : Prop := t.get F.DSF_SYNC_CTRL_SYNC_CNT = inc F.DSF_SYNC_CTRL_SYNC_CNT
      ∧ ∀ k : Fin 24, (en k = true → t.flag (F.DSF_STAT_ALIGNED k.val) = true ∧ restarted t k.val base ∧ t.get (F.DSF_BANKSTAT_PHASE k.val) = 0)
        ∧ (en k = false → t.ch k.val = s.ch k.val)
    (en n = false → Completes (.dsfEnable d n) s fun t => t.flag (F.DSF_CFG_EN n.val) = true ∧ restarted t n.val start
        ∧ t.flag (F.DSF_STAT_ALIGNED n.val) = false ∧ t.flag (F.DSF_STAT_STUCK n.val) = false)
    ∧ (en n = true → Completes (.dsfEnable d n) s fun t => t.flag (F.DSF_CFG_EN n.val) = true ∧ t.dsf = s.dsf)
    ∧ (en n = true → (if s.get (F.DSF_CFG_SRC n.val) = 3 then 0 else s.get (F.DSF_CFG_SRC n.val)) ≠ (if src.val = 3 then 0 else src.val) →
        Completes (.dsfSrcChange d n src) s fun t => t.get (F.DSF_CFG_SRC n.val) = src.val ∧ proofing t n.val
          ∧ (t.ch n.val).req = (if s.get (F.DSF_BANKSTAT_PHASE n.val) = 0 then (s.ch n.val).req else none)
          ∧ t.get (F.DSF_BANKSTAT_PHASE n.val) = 0
          ∧ t.get (F.DSF_BANKSTAT_ACTIVE n.val) = (if s.get (F.DSF_BANKSTAT_PHASE n.val) = 0 then s.get (F.DSF_BANKSTAT_ACTIVE n.val)
              else s.get (F.DSF_BANKSTAT_FADING n.val)))
    ∧ (en n = false → Completes (.dsfSrcChange d n src) s fun t => t.get (F.DSF_CFG_SRC n.val) = src.val ∧ t.dsf = s.dsf)
    ∧ Completes (.dsfEnsetWrite d v) s (fun t => ∀ k : Fin 24, t.flag (F.DSF_CFG_EN k.val) = (en k || v.getLsbD k.val)
        ∧ (en k = false → v.getLsbD k.val = true → restarted t k.val start) ∧ (en k = true ∨ v.getLsbD k.val = false → t.ch k.val = s.ch k.val))
    ∧ (s.flag F.DSF_SYNC_CTRL_BALL_EN = true → s.syncEdge ≠ some ball → Completes .syncBallEdge s fun t => synced t ball ∧ t.now = s.now
        ∧ t.flag F.DSF_SYNC_CTRL_ARMED = (s.flag F.DSF_SYNC_CTRL_ARMED && s.syncAtEdge != ball))
    ∧ (s.flag F.DSF_SYNC_CTRL_BALL_EN = true → s.syncEdge = some ball → Completes .syncBallEdge s fun t => t.dsf = s.dsf
        ∧ t.get F.DSF_SYNC_CTRL_SYNC_CNT = s.get F.DSF_SYNC_CTRL_SYNC_CNT)
    ∧ (0 < sdiff s.syncAt s.stamp → Completes (.syncArm d) s fun t => t.flag F.DSF_SYNC_CTRL_ARMED = true ∧ t.dsf = s.dsf)
    ∧ (sdiff s.syncAt s.stamp ≤ 0 → Completes (.syncArm d) s fun t => t.flag F.DSF_SYNC_CTRL_ARM_LATE = true
        ∧ t.flag F.DSF_SYNC_CTRL_ARMED = s.flag F.DSF_SYNC_CTRL_ARMED ∧ t.dsf = s.dsf)
    ∧ (s.flag F.DSF_SYNC_CTRL_ARMED = true → s.now + (sdiff s.syncAt s.stamp).toNat < 2 ^ 64 → s.syncEdge ≠ some s.syncAtEdge →
        Completes .syncAtReached s fun t => synced t s.syncAtEdge ∧ t.now = s.reached (s.now + (sdiff s.syncAt s.stamp).toNat) ∧ t.flag F.DSF_SYNC_CTRL_ARMED = false)
    ∧ (s.get (F.DSF_BANKSTAT_PHASE n.val) = 0 → Completes (.bankRequest d n bank) s fun t => (t.ch n.val) = { s.ch n.val with req := some bank }
        ∧ t.regs = s.regs)
    ∧ (s.get (F.DSF_BANKSTAT_PHASE n.val) ≠ 0 → Completes (.bankRequest d n bank) s fun t => t.flag (F.DSF_BANKSTAT_QVALID n.val) = true
        ∧ t.flag (F.DSF_BANKSTAT_QBANK n.val) = bank ∧ t.dsf = s.dsf
        ∧ t.get (F.DSF_CNT_QREPL n.val) = (if s.flag (F.DSF_BANKSTAT_QVALID n.val) then inc (F.DSF_CNT_QREPL n.val) else s.get (F.DSF_CNT_QREPL n.val)))
    ∧ (ch < 24 → s.bankIdle ch bk = true → Completes (.coefWrite d v) s fun t => t.get F.DSF_COEF_SEL_IDX = nextIdx
        ∧ (t.ch ch).coef bk (idx + 128 * stage) = ((v.truncate 24 : BitVec 24)).toInt
        ∧ ∀ b k, (b ≠ bk ∨ k ≠ idx + 128 * stage) → (t.ch ch).coef b k = (s.ch ch).coef b k)
    ∧ (ch < 24 → s.bankIdle ch bk = false → Completes (.coefWrite d v) s fun t => t.get F.DSF_COEF_SEL_IDX = nextIdx
        ∧ t.get (F.DSF_CNT_COEF_DISC ch) = inc (F.DSF_CNT_COEF_DISC ch) ∧ t.dsf = s.dsf)
    ∧ (en n = true → s.flag (F.DSF_STAT_STUCK n.val) = false → s.get (F.DSF_CFG_SRC n.val) ≠ 2 → Completes (.dataStuck n) s fun t =>
        t.flag (F.DSF_STAT_STUCK n.val) = true ∧ t.flag (F.DSF_STAT_PROOFED n.val) = false ∧ t.get (F.DSF_STAT_THR n.val) = 0
          ∧ t.get (F.DSF_STAT_PCOUNT n.val) = min 65535 (s.ch n.val).left ∧ (t.ch n.val).left = (s.ch n.val).left)
    ∧ (en n = true → s.flag (F.DSF_STAT_STUCK n.val) = true → Completes (.dataActive n) s fun t =>
        t.flag (F.DSF_STAT_STUCK n.val) = false ∧ proofing t n.val)
    ∧ Completes (.dsfTslRead n) s (fun t => t.get (F.DSF_TSH_TS_HI n.val) = (s.ch n.val).tsHi.toNat
        ∧ ∀ a, a ≠ R.DSF_TSH n.val → t.word a = s.word a)

/-- A channel's output sample: its instant, stamp and proofed bit, the proofing count, and the ends of an RMS block, of PRIME and of FADE -/
def Obligations.FilterSamples : Prop :=
  ∀ (s : State) (n : Fin 24) (own pair : List Bool), s.domOn 12 = true → s.flag (F.DSF_CFG_EN n.val) = true → (s.ch n.val).nextAt / 2 < 2 ^ 64 →
    let m := n.val
    let c := s.ch m
    let w := s.dcfg m
    let nx := c.nextAt
    let gd : Nat := (3 * (dsfR1 w - 1) + dsfR1 w * (dsfNA w - 1) + dsfR1 w * dsfDA w * (dsfNB w - 1)) * 50
    let ts := BitVec.ofInt 48 (((nx : Int) - gd) / 2)
    let proofed := s.flag (F.DSF_STAT_PROOFED m)
    let left := c.left
    let ph := s.get (F.DSF_BANKSTAT_PHASE m)
    let calm := c.req = none ∧ s.flag (F.DSF_STAT_STUCK m) = false
    let sampled (t : State) : Prop := t.now = s.reached (nx / 2) ∧ (t.ch m).nextAt = nx + 100 * dsfD w
      ∧ t.word (R.DSF_TSL m) = BitVec.ofNat 32 ts.toNat ∧ (t.ch m).tsHi = BitVec.ofNat 16 (ts.toNat / 2 ^ 32)
      ∧ (c.req = none → t.flag (F.DSF_OUT_PROOFED m) = proofed) ∧ t.dcfg m = w
    Completes (.dsfOutputSample n own pair) s (fun t => sampled t
        ∧ (calm → proofed = false → 1 < left → (t.ch m).left = left - 1 ∧ t.get (F.DSF_STAT_PCOUNT m) = min 65535 (left - 1)
            ∧ t.flag (F.DSF_STAT_PROOFED m) = false)
        ∧ (proofed = true → c.req = none → ph = 0 → t.flag (F.DSF_STAT_PROOFED m) = true ∧ (t.ch m).left = left))
    ∧ (calm → proofed = false → ph = 0 → left ≤ 1 → Completes (.proofingDone n own pair) s fun t => sampled t
        ∧ t.flag (F.DSF_STAT_PROOFED m) = true ∧ t.get (F.DSF_STAT_PCOUNT m) = 0 ∧ t.get (F.DSF_STAT_THR m) = 0)
    ∧ (c.skip = 0 → 2 ^ (s.get (F.DSF_DETCFG_RMS_W m) + 4) ≤ c.rmsN + dsfDA w * dsfDB w → Completes (.rmsBlockEnd n own pair) s fun t =>
        sampled t ∧ (c.req = none → (t.ch m).rmsN < dsfDA w * dsfDB w))
    ∧ (calm → proofed = false → ph = 1 → left ≤ 1 → Completes (.primeEnd n own pair) s fun t => sampled t
        ∧ t.get (F.DSF_BANKSTAT_PHASE m) = 2 ∧ t.flag (F.DSF_STAT_PROOFED m) = true)
    ∧ (c.req = none → ph = 2 → s.fadeLen m ≤ c.fadeK + 1 → s.flag (F.DSF_BANKSTAT_QVALID m) = false → Completes (.fadeEnd n own pair) s fun t =>
        let tgt := s.get (F.DSF_BANKSTAT_FADING m)
        sampled t ∧ t.get (F.DSF_BANKSTAT_PHASE m) = 0 ∧ t.get (F.DSF_BANKSTAT_ACTIVE m) = tgt
          ∧ (t.ch m).lineA.getD (1 - tgt) [] = [] ∧ (t.ch m).lineB.getD (1 - tgt) [] = [] ∧ (t.ch m).fadeK = 0)

/-- Safety requests, AUTOARM, the degraded timers, the safety core's heartbeat and its loss, OSC, the parameter load and the authority timeout -/
def Obligations.SafetyRequestsAndTimers : Prop :=
  ∀ (s : State) (d : Dom) (c : Fin 24) (key : BitVec 16), d = .host ∨ d = .svc → s.domOn 1 = true → s.domOn 4 = true → s.domOn 5 = true →
    let st := s.kzState
    let act := s.get F.KZ_FAULT_ACTIVE
    let trip := s.get F.KZ_TRIP_TRIP
    let bit (n k : Nat) : Prop := n / 2 ^ k % 2 = 1
    let done (t : State) (refused : Bool) : Prop := t.flag F.SYS_SAFE_RES_DONE = true ∧ t.flag F.SYS_SAFE_RES_REFUSED = refused
    let held (t : State) : Prop := t.kzState = st ∧ t.get F.KZ_TRIP_TRIP = trip ∧ t.get F.KZ_FAULT_ACTIVE = act
    let freed := bit trip c.val ∧ ¬ bit (s.get F.KZ_SLTV_V) c.val ∧ ¬ bit (s.get F.KZ_SSEV_V) c.val
    let limits (t : State) : Prop := ∀ k : Fin 24, t.word (R.KZ_SLT_NOW k.val) = (if s.flag (F.KZ_CH_EN k.val) then s.word (R.KZ_SLT k.val) else 0x7F800000)
    ((st = 0 ∨ st = 3) → s.armReady = true → Completes (.armLattice d 0x5AFE) s fun t => t.kzState = 1 ∧ done t false ∧ limits t)
    ∧ (¬ ((st = 0 ∨ st = 3) ∧ s.armReady = true) → Completes (.armLattice d 0x5AFE) s fun t => held t ∧ done t true)
    ∧ (st = 1 ∨ st = 2 → Completes (.withdraw d 0x5AFE) s fun t => t.kzState = 3 ∧ t.get F.KZ_STAT_WHY = 4 ∧ done t false
        ∧ ∀ k : Fin 16, t.kz.swL.getD k.val false = false ∧ t.kz.swC.getD k.val false = false)
    ∧ (st = 0 ∨ st = 3 → Completes (.withdraw d 0x5AFE) s fun t => held t ∧ done t false)
    ∧ (freed → Completes (.clearTrip d 0x5AFE c) s fun t => t.get F.KZ_TRIP_TRIP = trip - 2 ^ c.val ∧ t.kzState = st ∧ done t false)
    ∧ (¬ freed → Completes (.clearTrip d 0x5AFE c) s fun t => held t ∧ done t true)
    ∧ (st = 0 ∨ st = 3 → (∀ x ∈ s.kz.rbNs, x < 50000) → s.paramBad = false →
        (s.flag F.KZ_STAT_SC_ALIVE = true → s.now < s.kz.scAt + 300000) →
        Completes (.clearFaults d 0x5AFE) s fun t => t.kz.latched = 0 ∧ t.get F.KZ_FAULT_ACTIVE = act % 32 ∧ t.kzState = st ∧ done t false)
    ∧ (st = 1 ∨ st = 2 → Completes (.clearFaults d 0x5AFE) s fun t => held t ∧ done t true)
    ∧ (key ≠ 0x5AFE → ∀ i ∈ [Instr.armLattice d key, .withdraw d key, .clearTrip d key c, .clearFaults d key], Completes i s fun t =>
        held t ∧ t.kz = s.kz ∧ t.get F.SYS_KEYERR_COUNT = min (2 ^ F.SYS_KEYERR_COUNT.w - 1) (s.get F.SYS_KEYERR_COUNT + 1))
    ∧ (st = 0 → s.flag F.KZ_CFG_AUTOARM = true → s.armReady = true → Completes .autoarm s fun t => t.kzState = 1
        ∧ t.flag F.KZ_STAT_ARM_READY = true ∧ limits t)
    ∧ (st = 2 → s.timeRuns = true → s.kz.degAt + s.degMax < 2 ^ 64 → Completes .degradedTimeout s fun t => t.kzState = 3 ∧ t.get F.KZ_STAT_WHY = 1
        ∧ t.now = s.reached (s.kz.degAt + s.degMax))
    ∧ (let due := s.kz.clrAt + s.get F.KZ_TIME_CLR_MS * 1000000
       st = 2 → act = 0 → s.timeRuns = true → s.reached due < s.kz.degAt + s.degMax → s.reached due < 2 ^ 64 →
        Completes .degradedClear s fun t => t.kzState = 1 ∧ t.get F.KZ_DEG_DEG_MS = 0 ∧ t.now = s.reached due ∧ limits t)
    ∧ Completes .safetyCoreHeartbeat s (fun t => t.flag F.KZ_STAT_SC_ALIVE = true ∧ t.kz.scAt = s.now ∧ t.now = s.now)
    ∧ (s.flag F.KZ_STAT_SC_ALIVE = true → s.kz.scAt + 300000 < 2 ^ 64 → Completes .safetyCoreTimeout s fun t =>
        t.now = s.reached (s.kz.scAt + 300000) ∧ bit (t.get F.KZ_FAULT_ACTIVE) 8 ∧ (∀ k : Fin 16, t.kz.swC.getD k.val false = false)
        ∧ (¬ bit act 8 → st = 1 ∨ st = 2 → t.kzState = 3 ∧ t.get F.KZ_STAT_WHY = 5))
    ∧ (s.now + 1000000 < 2 ^ 64 → Completes .oscFault s fun t => t.now = s.reached (s.now + 1000000) ∧ bit (t.get F.KZ_FAULT_ACTIVE) 7
        ∧ (¬ bit act 7 → st = 1 → t.kzState = 2))
    ∧ (st = 0 ∨ st = 3 → (s.pwr.image.kz.map (·.1)).Nodup → Completes .safetyParamLoad s fun t => t.kzState = st
        ∧ ∀ e ∈ s.pwr.image.kz, ∀ r, regDesc e.1 = some r → r.dom = 5 → domIn .safe r.writers = true →
            t.word e.1 = writtenWord r .safe (s.word e.1) e.2)
    ∧ (∀ at', s.kz.authAt = some at' → s.isMaster = false → at' + s.get F.KZ_AUTH_AUTH_TMO_MS * 1000000 < 2 ^ 64 →
        Completes .authTimeout s fun t => t.now = s.reached (at' + s.get F.KZ_AUTH_AUTH_TMO_MS * 1000000) ∧ t.entitled = false
          ∧ ∀ k : Fin 16, t.kz.swC.getD k.val false = false)

/-- The lattice's evaluation and what it completes: trips, DISAGREE, READBACK; safe inputs and pairs, the off-pulse test, the rate blocks and the ends of grace -/
def Obligations.LatticeEvaluationAndTrips : Prop :=
  ∀ (s : State) (x : LatIn) (c : Fin 24) (k : Fin 16) (p : Fin 8) (low high level : Bool), s.domOn 5 = true → s.now + 300000000 < 2 ^ 64 →
    let bit (n k : Nat) : Prop := n / 2 ^ k % 2 = 1
    let next := nextMultiple s.now 10000
    let act (t : State) := t.get F.KZ_FAULT_ACTIVE
    let cmd (j : Nat) : Bool := s.kz.swL.getD j false && s.kz.swC.getD j false
    let fast := flt (f32to64 (s.word R.KZ_SRT_LIM)) (fabs (s.srtRate s.kz.rateMean))
    let N := max 1 (s.get F.KZ_PERS_SRT_MS)
    let grace := s.get F.KZ_TIME_GRACE_MS * 1000000
    let q := s.kch c.val
    Completes (.latticeEvaluation x) s (fun t => t.now = next ∧ t.get F.KZ_STAT_SO_ON = x.rb.toNat
        ∧ t.kz.lowNs = (if x.rb.toNat &&& s.get F.KZ_CFG_SO_EN = 0 then s.kz.lowNs + 10000 else 0)
        ∧ (∀ j : Fin 24, ¬ (s.flag (F.KZ_CH_EN j.val) = true ∧ s.flag (F.KZ_CH_OUTCHK j.val) = true) →
            (t.kch j.val).sltL = 0 ∧ (t.kch j.val).sltC = 0 ∧ (t.kch j.val).sseL = 0 ∧ (t.kch j.val).sseC = 0)
        ∧ (s.kz.single = true → bit (act t) 0) ∧ ∀ b < 10, bit s.kz.latched b → bit (act t) b)
    ∧ (s.flag (F.KZ_CH_EN c.val) = true → s.flag (F.KZ_CH_OUTCHK c.val) = true → s.kzState ≠ 2 →
        above (s.tap c.val).1 (s.tap c.val).2.1 (s.get (F.KZ_LIM_OUT_LIM c.val)) = true →
        max 1 (s.get F.KZ_PERS_SLT_MS) * 1000000 ≤ q.sltL + 10000 →
        Completes (.channelTrip c x) s fun t => bit (t.get F.KZ_TRIP_TRIP) c.val ∧ (t.kch c.val).sltL = q.sltL + 10000 ∧ t.now = next)
    ∧ (x.siDiff = true → max 1 (s.get F.KZ_PERS_CMP_MS) * 1000000 ≤ s.kz.cmpNs + 10000 →
        Completes (.disagreeFault x) s fun t => bit (act t) 1 ∧ t.kz.cmpNs = s.kz.cmpNs + 10000 ∧ t.now = next)
    ∧ (40000 ≤ s.kz.rbNs.getD k.val 0 → x.rb.getLsbD k.val ≠ cmd k.val →
        Completes (.readbackFault x) s fun t => bit (act t) 5 ∧ bit t.kz.rbOut k.val ∧ t.kz.swL.getD k.val false = false ∧ t.now = next)
    ∧ (cmd k.val = true → bit (s.get F.KZ_OPT_OPT_EN) k.val → Completes (.offPulseTest k low high) s fun t =>
        let a := s.now + 250000000 - (s.now + 250000000 - k.val * 15625000) % 250000000
        a % 250000000 = k.val * 15625000 ∧ s.now < a ∧ a ≤ s.now + 250000000
          ∧ t.now = a + max 100 (min 1000 (s.get F.KZ_OPT_OPT_US)) * 1000
          ∧ (low = true → high = true → t.kz = s.kz ∧ t.out = .pin 4 k.val 1 :: .pin 4 k.val 0 :: s.out)
          ∧ (low = false ∨ high = false → bit (act t) 6))
    ∧ Completes (.safeInputChange k level) s (fun t =>
        (∀ j : Fin 16, bit (t.get F.KZ_SISTAT_LEVEL) j.val ↔ (if j = k then level = true else bit (s.get F.KZ_SISTAT_LEVEL) j.val))
        ∧ ∀ j : Fin 8, bit (t.get F.KZ_SISTAT_PACT) j.val ↔
            bit (t.get F.KZ_SISTAT_LEVEL) (2 * j.val) ∧ (s.get (F.KZ_SI_MODE j.val) = 1 ∧ bit (t.get F.KZ_SISTAT_LEVEL) (2 * j.val + 1)
              ∨ s.get (F.KZ_SI_MODE j.val) = 2 ∧ ¬ bit (t.get F.KZ_SISTAT_LEVEL) (2 * j.val + 1)))
    ∧ (∀ since, s.kz.discAt.getD p.val none = some since → since + s.get (F.KZ_SI_DISC_MS p.val) * 1000000 < 2 ^ 64 →
        Completes (.sidiscFault p) s fun t => t.now = s.reached (since + s.get (F.KZ_SI_DISC_MS p.val) * 1000000)
          ∧ bit (t.get F.KZ_SISTAT_PDISC) p.val ∧ bit (act t) 4 ∧ (s.kzState = 1 → ¬ bit (act s) 4 → t.kzState = 2))
    ∧ (s.flag F.KZ_SRT_SRT_EN = true → Completes .srtBlock s fun t => t.now = nextMultiple s.now 1000000
        ∧ t.kz.rN = 0 ∧ t.kz.rSum = 0 ∧ t.kz.rAvg = s.kz.rateMean
        ∧ t.kz.srtL = (if fast then s.kz.srtL + 1 else 0) ∧ (fast = true → t.flag F.KZ_FUNC_SRT_V = true)
        ∧ (fast = false → t.kz.srtC < N → t.kzState = s.kzState))
    ∧ (s.flag F.KZ_SRT_SRT_EN = true → fast = true → N ≤ s.kz.srtL + 1 → s.kzState = 1 ∨ s.kzState = 2 →
        Completes .srtTrip s fun t => t.kzState = 3 ∧ t.get F.KZ_STAT_WHY = 2 ∧ t.now = nextMultiple s.now 1000000)
    ∧ (∀ at', q.sltGraceAt = some at' → s.get (F.KZ_CST_GRACE c.val) = 0 → at' + grace < 2 ^ 64 →
        Completes (.graceEnd c) s fun t => t.now = s.reached (at' + grace) ∧ t.flag (F.KZ_CST_SLT_GRACE c.val) = false
          ∧ (t.kch c.val).sltGraceAt = none)
    ∧ (∀ (j : Fin 4) (at' : Nat), q.graceAt.getD j.val none = some at' → bit (s.get (F.KZ_CST_GRACE c.val)) j.val →
        bit (s.get (F.KZ_CST_ACTIVE c.val)) j.val → (∀ (i : Fin 4) (b : Nat), q.graceAt.getD i.val none = some b → at' ≤ b) →
        (∀ b, q.sltGraceAt = some b → at' ≤ b) → at' + grace < 2 ^ 64 →
        Completes (.graceEnd c) s fun t => t.now = s.reached (at' + grace) ∧ ¬ bit (t.get (F.KZ_CST_GRACE c.val)) j.val)

/-- The partner pair: heartbeats and lines, the checkpoint's frames, GO_ACTIVE, REJOIN, DEMOTE, PAIR_EN, stamp reads and the GNSS refresh -/
def Obligations.PairLinesAndCommands : Prop :=
  ∀ (s : State) (d : Dom) (key : BitVec 16) (en : Bool) (line : Fin 2) (hb : BitVec 72), d = .host ∨ d = .svc → s.haOn = true → s.now + 4000 < 2 ^ 64 →
    let st := s.haState
    let per := s.perStart
    let ends' := max s.now (per + 4000)
    let inc (f : Fld) : Nat := min (2 ^ f.w - 1) (s.get f + 1)
    let kept (t : State) : Prop := t.haState = st ∧ t.haTerm = s.haTerm
    let hbTerm := (hb.extractLsb' 24 32).toNat
    let hbState := (hb.extractLsb' 9 3).toNat
    let lineF := if line.val = 0 then F.HA_STAT_LINE_A else F.HA_STAT_LINE_B
    let lossF := if line.val = 0 then F.HA_CNT0_LOSS_A else F.HA_CNT0_LOSS_B
    let evt (t : State) (i : Nat) : Prop := t.flag ⟨R.HA_EVT, i, 1⟩ = true
    (s.hbSends = true → Completes .heartbeatSend s fun t => t.now = nextMultiple s.now 4000 ∧ t.ha.seq = s.ha.seq + 1
        ∧ Output.heartbeat 0 s.hbBlock ∈ t.out ∧ kept t)
    ∧ (line.val = 0 ∨ s.netUp 2 = true → s.hbValid hb = true → Completes (.heartbeatReceive line hb) s fun t =>
        t.get F.HA_STAT_PSTATE = hbState ∧ t.flag F.HA_STAT_PCKOK = hb.getLsbD 13 ∧ t.ha.lastHb = s.now
        ∧ t.ha.pTerm = some (BitVec.ofNat 32 hbTerm, (hb.extractLsb' 12 1).toNat)
        ∧ (t.line line.val).heard = (s.line line.val).heard ++ (if s.pairEn then [(s.now, s.now)] else [])
        ∧ (st = 0 → t.haState = 0 ∧ t.haTerm = max s.haTerm hbTerm)
        ∧ (driving st = true → s.haTerm < hbTerm → t.haState = 4 ∧ t.haTerm = hbTerm ∧ t.get F.HA_STAT_DEM_CAUSE = 1
            ∧ t.get F.HA_CNT1_DEM_CNT = inc F.HA_CNT1_DEM_CNT)
        ∧ (driving st = true → hbTerm = s.haTerm → driving hbState = true → s.nodeId = 1 → t.haState = 4 ∧ t.get F.HA_STAT_DEM_CAUSE = 4)
        ∧ (driving st = true → hbTerm < s.haTerm → kept t))
    ∧ (s.pairEn = true → Completes .heartbeatPeriodEnd s fun t => t.now = ends' ∧ t.ha.perAt = some (per + 4000) ∧ t.ha.bothN = s.bothNext per
        ∧ t.ha.lines = s.ha.lines.map fun l => l.after per s.retN)
    ∧ (s.pairEn = true → (s.line line.val).loses per = true → Completes (.lineLost line) s fun t => t.now = ends' ∧ t.flag lineF = false
        ∧ t.get lossF = inc lossF ∧ evt t 2)
    ∧ (s.pairEn = true → (s.line line.val).returns per s.retN = true → Completes (.lineReturn line) s fun t => t.now = ends' ∧ t.flag lineF = true
        ∧ evt t 3 ∧ t.flag F.HA_STAT_SEIZE_BLK = false ∧ t.haState = (if st = 3 then 2 else st))
    ∧ (s.pairEn = true → s.bothNext per = 3 → st = 2 → Completes .bothLinesSilent s fun t => t.now = ends' ∧ t.haState = 3 ∧ evt t 4
        ∧ t.ha.ckSend = none)
    ∧ (s.pairEn = true → s.bothNext per = 3 → st = 0 → s.ckUsable = false ∨ s.haTerm = 0xFFFFFFFF → Completes .bothLinesSilent s fun t =>
        t.now = ends' ∧ kept t ∧ t.flag F.HA_STAT_SEIZE_BLK = true)
    ∧ (s.pairEn = true → 0 < s.cyc → st = 2 → s.ha.ckSend = none → s.netUp 2 = true → s.atCkpt < 2 ^ 64 →
        Completes .checkpointSend s fun t => t.now = max s.now s.atCkpt ∧ t.freeCount = s.freeCount + 1
          ∧ ∃ e : CkSend, t.ha.ckSend = some e ∧ e.cyc = s.cycNum ∧ 1 ≤ e.total ∧ e.total ≤ 262144 ∧ e.up = true
            ∧ e.start = max t.now (s.net.busy.getD 2 0) ∧ e.till = e.start + (e.total + 38 * ckFrames e.total) * 8
            ∧ e.data = (s.advanceTo s.atCkpt).ckptNow
            ∧ (t.now < e.start → e.sent = 0 ∧ t.out = s.out)
            ∧ (e.start = t.now → e.sent = 1 ∧ t.out = .checkpoint (ckHead s.hbBlock e 0) (min 1498 e.total - 24)
                (if ckFrames e.total = 1 then some e.data else none) :: s.out))
    ∧ (∀ c : CkSend, s.ha.ckSend = some c → c.up = true → c.till < 2 ^ 64 → Completes .checkpointSendComplete s fun t =>
        t.now = max s.now c.till ∧ t.word R.HA_CKCYC = c.cyc ∧ t.get F.HA_CKSIZE_BYTES = c.total % 2 ^ 19 ∧ t.ha.ckSend = none)
    ∧ (∀ (frag nfrag : Nat) (cyc : Word) (total ns : Nat) (cut crc : Bool) (data : Ckpt), s.pairEn = true → s.netUp 2 = true → st = 0 →
        s.ha.ckSkip ≠ some cyc → s.ha.ckRecv = some (cyc, frag) ∨ s.ha.ckRecv = none ∧ frag = 0 →
        Completes (.checkpointFrameReceive hb frag nfrag cyc total ns cut crc data) s fun t => t.haState = 0
          ∧ (cut = false → nfrag ≤ frag + 1 → crc = true → t.ha.ckHeld = some ({ data with cyc := cyc }, total) ∧ t.ha.ckRecv = none
              ∧ t.word R.HA_CKCYC = cyc ∧ data.term.toNat ≤ t.haTerm
              ∧ t.flag F.HA_STAT_CKPT_VALID = decide ((s.cycNum - cyc).toNat ≤ max 1 (s.get F.HA_CFG_CKPT_MAXAGE)))
          ∧ (cut = false → frag + 1 < nfrag → t.ha.ckRecv = some (cyc, frag + 1) ∧ t.ha.ckHeld = s.ha.ckHeld)
          ∧ (cut = true ∨ nfrag ≤ frag + 1 ∧ crc = false → t.ha.ckRecv = none ∧ t.ha.ckSkip = some cyc ∧ t.ha.ckHeld = s.ha.ckHeld
              ∧ t.get F.HA_CNT0_CKPT_BAD = inc F.HA_CNT0_CKPT_BAD))
    ∧ (∀ (frag nfrag : Nat) (cyc old : Word) (want total ns : Nat) (crc : Bool) (data : Ckpt), s.pairEn = true → s.netUp 2 = true → st = 0 →
        s.ha.ckRecv = some (old, want) → s.ha.ckSkip ≠ some cyc → cyc ≠ old →
        Completes (.checkpointFrameReceive hb frag nfrag cyc total ns false crc data) s fun t => t.ha.ckHeld = (if 0 < (cyc - old).toInt ∧ frag = 0 ∧ nfrag ≤ 1
              ∧ crc = true then some ({ data with cyc := cyc }, total) else s.ha.ckHeld)
          ∧ ((cyc - old).toInt < 0 → t.ha.ckRecv = some (old, want) ∧ t.get F.HA_CNT0_CKPT_BAD = s.get F.HA_CNT0_CKPT_BAD)
          ∧ (0 < (cyc - old).toInt → 1 < nfrag → frag = 0 → t.ha.ckRecv = some (cyc, 1) ∧ t.get F.HA_CNT0_CKPT_BAD = inc F.HA_CNT0_CKPT_BAD))
    ∧ (st = 0 → s.run = true → s.haTerm < 0xFFFFFFFF → s.drivingHeard = false → s.ckUsable = false →
        Completes (.haCtrlGoActive d 0x5AFE) s fun t => t.haState = 1 ∧ t.haTerm = s.haTerm + 1 ∧ t.get F.HA_TERMSRC_SRC = s.nodeId
          ∧ t.get F.HA_STAT_CRES = 0 ∧ evt t 0 ∧ t.ha.tdAt = s.now ∧ t.est.inited = false ∧ t.get F.SK_STAT_MODE = 0)
    ∧ (st ≠ 0 ∨ s.run = false → Completes (.haCtrlGoActive d 0x5AFE) s fun t => kept t ∧ t.get F.HA_STAT_CRES = 1)
    ∧ (st = 4 → Completes (.haCtrlRejoin d 0x5AFE) s fun t => t.haState = (if s.flag F.HA_CFG_PAIR_EN then 0 else 3) ∧ t.get F.HA_STAT_CRES = 0
        ∧ t.ha.ckHeld = none ∧ t.ha.ckRecv = none)
    ∧ (st ≠ 4 → Completes (.haCtrlRejoin d 0x5AFE) s fun t => kept t ∧ t.get F.HA_STAT_CRES = 1)
    ∧ (st = 2 → s.get F.HA_STAT_PSTATE = 0 → s.flag F.HA_STAT_PCKOK = true → Completes (.haCtrlDemote d 0x5AFE) s fun t => t.haState = 4
        ∧ t.get F.HA_STAT_DEM_CAUSE = 3 ∧ t.get F.HA_STAT_CRES = 0 ∧ evt t 1 ∧ t.alc.staged = [])
    ∧ (st ≠ 2 → Completes (.haCtrlDemote d 0x5AFE) s fun t => kept t ∧ t.get F.HA_STAT_CRES = 1)
    ∧ (key ≠ 0x5AFE → ∀ i ∈ [Instr.haCtrlGoActive d key, .haCtrlRejoin d key, .haCtrlDemote d key], Completes i s fun t => kept t ∧ t.ha = s.ha
        ∧ t.get F.SYS_KEYERR_COUNT = inc F.SYS_KEYERR_COUNT)
    ∧ (s.run = false → en ≠ s.flag F.HA_CFG_PAIR_EN → Completes (.pairEnWrite d en) s fun t => t.flag F.HA_CFG_PAIR_EN = en
        ∧ (en = true → t.haState = 0 ∧ t.ha.ckHeld = none) ∧ (en = false → t.haState = if st = 4 then 4 else 3))
    ∧ (s.run = true ∨ en = s.flag F.HA_CFG_PAIR_EN → Completes (.pairEnWrite d en) s fun t => kept t
        ∧ t.flag F.HA_CFG_PAIR_EN = s.flag F.HA_CFG_PAIR_EN)
    ∧ (s.domOn 11 = true → Completes .haTdlRead s fun t => t.get F.HA_TDH_TD_HI = s.ha.tdHi.toNat ∧ ∀ a, a ≠ R.HA_TDH → t.word a = s.word a)
    ∧ (s.domOn 11 = true → Completes .haLhblRead s fun t => t.get F.HA_LHBH_LHB_HI = s.ha.lhbHi.toNat ∧ ∀ a, a ≠ R.HA_LHBH → t.word a = s.word a)
    ∧ (let due := s.ha.refreshAt + min 239 (s.get F.HA_CFG_REFRESH_MIN) * 60000000000
       s.gnSleeps = true → s.ha.refreshing = false → s.get F.HA_CFG_REFRESH_MIN ≠ 0 → due < 2 ^ 64 → Completes .gnssRefresh s fun t =>
        t.now = max s.now due ∧ t.ha.refreshing = true ∧ t.get F.PWR_DOM_REQ_REQ / 2 ^ 9 % 2 = 1 ∧ t.get F.PWR_DOM_REQ_REQ / 2 ^ 10 % 2 = 1)
    ∧ (s.gnSleeps = true → s.ha.refreshing = true → s.ha.refreshAt + 60000000000 < 2 ^ 64 → Completes .gnssRefreshEnd s fun t =>
        t.now = max s.now (s.ha.refreshAt + 60000000000) ∧ t.ha.refreshing = false ∧ t.domOn 9 = false ∧ t.domOn 10 = false)

/-- A BIVOUAC unit with a usable checkpoint seizes when both lines have been silent for three common periods, and resumes the checkpoint's state -/
def Obligations.SeizureOnSilence : Prop :=
  ∀ (s : State) (c : Ckpt) (size : Nat), s.pairEn = true → s.bothNext s.perStart = 3 → s.haState = 0 → s.ha.ckHeld = some (c, size) → s.ckUsable = true →
    s.haTerm < 0xFFFFFFFF → s.perStart + 4000 < 2 ^ 64 →
    Completes .bothLinesSilent s fun t => t.haState = 1 ∧ t.haTerm = s.haTerm + 1 ∧ t.get F.HA_TERMSRC_SRC = s.nodeId
      ∧ t.flag F.HA_EVT_SEIZED = true ∧ t.get F.HA_CNT0_SEIZE_CNT = min 255 (s.get F.HA_CNT0_SEIZE_CNT + 1) ∧ t.flag F.HA_STAT_SEIZE_BLK = false
      ∧ t.now = s.reached (s.perStart + 4000) ∧ t.ha.tdAt = t.now
      ∧ t.est.x = c.est.x ∧ t.est.p = c.est.p ∧ t.est.inited = c.est.inited ∧ t.flag F.FP_STAT_ORG_VALID = c.est.orgValid ∧ t.est.org = c.est.org
      ∧ t.trk.tracks = c.trks ∧ t.trk.lastPass = c.lastPass
      ∧ t.alc.theta = c.theta ∧ t.alc.previous = c.cmds ∧ t.alc.prevAuth = c.auth

/-- Twin frames, the TERM relay, SYNC, telemetry, software frames, ARP, link changes and scheduled launches -/
def Obligations.TwinFramesAndPorts : Prop :=
  ∀ (s : State) (p : Fin 5) (b : List Byte) (d : Dom) (hi : BitVec 16) (k : Fin 8) (tail : BitVec 12) (ip : Word) (up : Bool) (speed : Fin 3),
    d = .host ∨ d = .svc → s.domOn 11 = true →
    let inc (f : Fld) : Nat := min (2 ^ f.w - 1) (s.get f + 1)
    let z := zRead b
    let net := if p.val = 1 then 1 else 0
    let entry (dead : Bool) : TwinPend := ⟨z.src, z.boot, z.seq, b, net, s.now, s.twinWin, dead, z.first⟩
    let mate (q : TwinPend) : Bool := q.src == z.src && q.boot == z.boot && q.seq == z.seq
    let checked := crcOk b = true ∧ z.ver = 1 ∧ z.flags % 2 = 1 ∧ s.safetyOk b = true ∧ (z.dst = s.nodeId ∨ z.dst = 0x3FF) ∧ s.twinAllowed z = true
    let fresh := s.net.twin.find? mate = none ∧ s.net.twin.length < 64
      ∧ ∀ bt sq, s.seenOf z.src = some (z.src, bt, sq) → bt = z.boot → 0 < (BitVec.ofNat 32 z.seq - BitVec.ofNat 32 sq).toInt
    (∀ pf : p.val < 4, s.netUp p.val = true → p.val ≠ 2 → (p.val = 3 → s.flag (F.NET_CFG_RING 3) = true) → (∀ q ∈ s.net.twin, s.now ≤ q.openAt + q.win) →
      let rx := Instr.twinCopyReceive ⟨p.val, pf⟩ b
      (crcOk b = false → Completes rx s fun t => t.net = s.net ∧ t.get F.TWIN_CNT0_CRC_ERR = inc F.TWIN_CNT0_CRC_ERR)
      ∧ (checked → fresh → z.typ = zCAP → Completes rx s fun t => t.net.twin = s.net.twin ++ [entry false] ∧ t.alc = s.alc
          ∧ t.seenOf z.src = some (z.src, z.boot, z.seq) ∧ t.get F.TWIN_STAT_PEND = s.net.twin.length + 1)
      ∧ (checked → fresh → z.typ = zCMD → s.isMaster = false → z.term < s.haTerm → Completes rx s fun t => t.net.twin = s.net.twin ++ [entry true]
          ∧ t.haTerm = s.haTerm ∧ t.kz = s.kz ∧ t.get F.HA_CNT1_OLD_TERM = inc F.HA_CNT1_OLD_TERM)
      ∧ (∀ q, checked → s.net.twin.find? mate = some q → q.net ≠ net →
          (b = q.bytes → q.dead = false → q.done = false → z.typ = zCAP → Completes rx s fun t => t.net.twin = s.net.twin.erase q ∧ t.kz.single = false
              ∧ ∃ r ∈ t.alc.records, r.node = z.src)
          ∧ (b ≠ q.bytes → Completes rx s fun t => t.net.twin = s.net.twin.erase q ∧ t.alc = s.alc
              ∧ t.get F.TWIN_CNT0_DISC = inc F.TWIN_CNT0_DISC ∧ t.flag F.TWIN_EVT_DISC = true)))
    ∧ (∀ q, s.firstPend = some q → q.openAt + q.win < 2 ^ 64 →
        (q.dead = true → Completes .twinWinExpire s fun t => t.now = max s.now (q.openAt + q.win) ∧ t.net.twin = s.net.twin.erase q ∧ t.kz = s.kz)
        ∧ (q.dead = false → q.done = true → Completes .twinWinExpire s fun t => t.now = max s.now (q.openAt + q.win)
            ∧ t.net.twin = s.net.twin.erase q ∧ t.kz.single = true ∧ t.get F.TWIN_CNT0_SINGLE = inc F.TWIN_CNT0_SINGLE))
    ∧ (∀ at', s.ha.relayDue = some at' → at' < 2 ^ 64 → Completes .termRelay s fun t => t.now = max s.now at' ∧ t.ha.relayDue = none
        ∧ t.net.seq = s.net.seq + 1)
    ∧ (let at' : Stamp := hi ++ s.word R.ZAL_SYNCL
       s.domOn 12 = true → Completes (.zalSyncGo d hi 0x3FF) s fun t => t.net.seq = s.net.seq + 1 ∧ t.syncAt = at'
        ∧ (0 < sdiff at' s.stamp → t.flag F.DSF_SYNC_CTRL_ARMED = true)
        ∧ (sdiff at' s.stamp ≤ 0 → t.flag F.DSF_SYNC_CTRL_ARMED = false ∧ t.flag F.DSF_SYNC_CTRL_ARM_LATE = true))
    ∧ (s.flag (F.ZAL_TLM_CFG_EN k.val) = true → s.cycNum.toNat % max 1 (s.get (F.ZAL_TLM_CFG_PERIOD k.val)) = 0 →
        s.net.tlmAt.getD k.val none ≠ some s.cycNum → k.val < s.net.tlmAt.length → s.t0 + s.get (F.ZAL_TLM_PH_PH_US k.val) * 1000 < 2 ^ 64 →
        Completes (.telemetrySend k) s fun t => t.now = max s.now (s.t0 + s.get (F.ZAL_TLM_PH_PH_US k.val) * 1000)
          ∧ t.net.tlmAt.getD k.val none = some s.cycNum ∧ t.net.twin = s.net.twin)
    ∧ Completes (.txTailWrite .svc p tail) s (fun t => t.get (F.NET_TXT_TAIL p.val) = tail.toNat
        ∧ (let n := 2 ^ max 4 (min 12 (s.get (F.NET_TXRH_SIZE_LOG2 p.val)))
           let a := (s.word (R.NET_TXRL p.val)).toNat / 16 * 16 + 2 ^ 32 * s.get (F.NET_TXRH_BASE_HI p.val) + 16 * (s.get (F.NET_TXT_HEAD p.val) % n)
           s.netUp p.val = false ∨ s.get (F.NET_TXT_HEAD p.val) % n = tail.toNat % n ∨ s.ld a 8 < 2 ^ 63 →
            t.get (F.NET_TXT_HEAD p.val) = s.get (F.NET_TXT_HEAD p.val) ∧ t.net = s.net ∧ t.mem = s.mem))
    ∧ (let own := leBytes 4 (s.word (R.NET_IP p.val)).toNat ++ (leBytes 6 (s.macBase + p.val)).reverse
       s.netUp p.val = true → p.val ≠ 2 → p.val ≠ 3 → s.txq p.val = [] → s.ha.holdTx = false → Completes (.arpRequest p (s.word (R.NET_IP p.val))) s fun t =>
        (s.net.busy.getD p.val 0 ≤ s.now → t.out = .net p.val 0 (s.macBase + p.val) 0x0806 own s.stamp :: s.out ∧ t.txq p.val = [])
        ∧ (s.now < s.net.busy.getD p.val 0 → t.out = s.out ∧ t.txq p.val = [⟨none, false, 0, 0x0806, own, none, s.now, .none⟩]))
    ∧ (s.netUp 2 = true → Completes (.arpRequest 2 ip) s fun t => t.get (F.NET_CNT0_UNSUP 2) = inc (F.NET_CNT0_UNSUP 2) ∧ t.out = s.out)
    ∧ (s.netUp p.val = false ∨ ip ≠ s.word (R.NET_IP p.val) → Completes (.arpRequest p ip) s fun t => t.out = s.out ∧ t.net = s.net)
    ∧ (s.netUp p.val = true → s.flag (F.NET_STAT_LINK p.val) ≠ up → Completes (.linkChange p up speed) s fun t => t.flag (F.NET_STAT_LINK p.val) = up
        ∧ (up = true → t.get (F.NET_STAT_SPEED p.val) = if p.val = 4 then speed.val else 2)
        ∧ t.get (F.IC_CNT_COUNT (280 + p.val)) = min 255 (s.get (F.IC_CNT_COUNT (280 + p.val)) + 1))
    ∧ (∀ e l, s.netUp p.val = true → s.dueEnt p.val = some e → s.launchAt e = some l → l.toNat < 2 ^ 64 → e.fill = .none → (∀ x ∈ s.txq p.val, x.launch.isSome = true) →
        let free := max (max s.now l.toNat) (s.net.busy.getD p.val 0)
        let late := l + (s.get F.TIME_LCH_LATE_TOL_US * 1000 : Nat) < free
        let drop := s.get F.TIME_LCH_LATE_POLICY / 2 ^ p.val % 2 = 1
        Completes (.scheduledLaunch p) s fun t => t.now = max s.now l.toNat ∧ t.txq p.val = (s.txq p.val).erase e
          ∧ (¬ (late ∧ drop) → t.out = .net p.val (s.macTo p.val e) (if e.kind = 0 then 0 else s.macBase + p.val)
              (e.kind + 2 ^ 16 * s.vlanTag p.val e.kind) e.bytes (stampOf free) :: s.out)
          ∧ (late → drop → t.out = s.out ∧ t.get (F.TIME_LCNT_LATE_DROP p.val) = inc (F.TIME_LCNT_LATE_DROP p.val))
          ∧ (late → ¬ drop → t.get (F.TIME_LCNT_LATE_SENT p.val) = inc (F.TIME_LCNT_LATE_SENT p.val)))

/-- The GNSS receiver: epochs, searches, channels, word records, antennas, windbreaks, the jamming indicator, time solutions and sleep -/
def Obligations.GnssReceiver : Prop :=
  ∀ (s : State) (d : Dom) (v dop : Word) (g : GnssEpoch) (k : AcqPeak) (n : Fin 192) (u : WordUnit) (a : Fin 2) (ma : Byte) (p : Fin 4)
    (levels : List (Int × Int)) (f : Int) (db : Nat) (ofs : Int) (sigma : Nat),
    d = .host ∨ d = .svc → s.domOn 9 = true → s.domOn 10 = true → s.now + 2000000000 < 2 ^ 64 →
    let go := v ||| 0x80000000
    let inc (x : Nat) : Nat := min 255 (s.get (F.IC_CNT_COUNT x) + 1)
    let st := s.get (F.GN_CH_STAT_STATE n.val)
    let auto := s.flag F.GN_CFG_AUTO
    let req := s.word R.GN_ACQ_DOP
    let ctrl := v &&& 0x003FFFFF
    let tq := s.get F.GN_TQ_TQ
    let bias := s.flag (F.GN_ANT_BIAS_EN a.val) = true
    let wbNext := s.next10 s.gn.wbAt
    let jiNext := s.next10 s.gn.jiAt
    Completes (.gnssEpoch g) s (fun t => t.now = s.reached s.nextEpoch ∧ s.now < s.nextEpoch ∧ t.get F.GN_STAT_NSV = min 255 ((s.gnSats g).foldl (· + ·) 0)
        ∧ t.flag F.GN_STAT_CORR_OK = (s.advanceTo s.nextEpoch).corrOk ∧ t.flag F.GN_STAT_HDG_FIX = (s.hdgFix g).isSome
        ∧ (g.pos = [] → t.get F.GN_STAT_FIX = 0) ∧ (∀ q, g.pos = [q] → q.ant = 0 → t.get F.GN_STAT_FIX = fixOf ((s.advanceTo s.nextEpoch).gnMode g q))
        ∧ t.get F.GN_OBS_WIDX_WIDX = (if s.flag F.GN_OBS_EN then (s.get F.GN_OBS_WIDX_WIDX + t.gnTracking.length + 1) % 2 ^ ringLog (s.get F.GN_OBS_RING_LOG2)
            else s.get F.GN_OBS_WIDX_WIDX))
    ∧ (auto = true ∨ 16 ≤ s.gn.acq.length → Completes (.acqRequest d v) s fun t => t.get F.GN_ACQ_RES_RES = 3 ∧ t.gn = s.gn)
    ∧ (auto = false → s.gn.acq.length < 16 → acqOk go req = false → Completes (.acqRequest d v) s fun t => t.get F.GN_ACQ_RES_RES = 2 ∧ t.gn = s.gn)
    ∧ (auto = false → s.gn.acq.length < 16 → acqOk go req = true → Completes (.acqRequest d v) s fun t =>
        (s.gn.searching.isSome = true → t.gn = { s.gn with acq := s.gn.acq ++ [(go, req)] } ∧ t.get F.GN_ACQ_RES_QLEN = s.gn.acq.length + 1)
        ∧ (s.gn.searching = none → s.gn.acq = [] → t.gn = { s.gn with searching := some (go, req, s.now, false) } ∧ t.get F.GN_ACQ_RES_QLEN = 0))
    ∧ (auto = true → s.gn.searching = none → acqOk v dop = true → Completes (.autoSearch v dop) s fun t =>
        t.gn = { s.gn with searching := some (v, dop, s.now, true) } ∧ t.regs = s.regs)
    ∧ (∀ r dp at' own, s.gn.searching = some (r, dp, at', own) → at' + acqNs r dp < 2 ^ 64 → Completes (.acqComplete k) s fun t =>
        let found := s.get F.GN_ACQ_MIN_ACQ_MIN ≤ k.cn0.toNat ∧ 3 ≤ k.margin.toNat
        t.now = s.reached (at' + acqNs r dp)
        ∧ (found → t.get F.GN_ACQ_RES_RES = 0 ∧ t.get F.GN_ACQ_RES_CODE_PH = k.code.toNat ∧ t.get F.GN_ACQ_RES_CN0 = k.cn0.toNat
            ∧ t.word R.GN_ACQ_RDOP = k.dop
            ∧ ∀ m, own = true → (List.range 192).find? (fun m => s.get (F.GN_CH_STAT_STATE m) == 0) = some m →
                t.get (F.GN_CH_STAT_STATE m) = 1 ∧ t.flag (F.GN_CH_CTRL_EN m) = true ∧ t.get (F.GN_CH_CTRL_SV m) = acqSv r)
        ∧ (¬ found → t.get F.GN_ACQ_RES_RES = 1)
        ∧ (s.gn.acq = [] → t.gn.searching = none) ∧ (∀ q l, s.gn.acq = q :: l → t.gn.searching = some (q.1, q.2, t.now, false) ∧ t.gn.acq = l))
    ∧ (v.getLsbD 0 = false → Completes (.channelAssign d n v) s fun t => t.get (F.GN_CH_STAT_STATE n.val) = 0 ∧ t.get (F.GN_CH_STAT_CN0 n.val) = 0
        ∧ t.word (R.GN_CH_CTRL n.val) = ctrl)
    ∧ (v.getLsbD 0 = true → st = 1 ∨ st = 2 → Completes (.channelAssign d n v) s fun t => t.regs = s.regs ∧ t.gn = s.gn)
    ∧ (v.getLsbD 0 = true → st = 0 ∨ st = 3 → auto = false → signalOk ((F.GN_CH_CTRL_SYS n.val).of v) ((F.GN_CH_CTRL_SV n.val).of v) ((F.GN_CH_CTRL_SIG n.val).of v) = true →
        Completes (.channelAssign d n v) s fun t => t.get (F.GN_CH_STAT_STATE n.val) = 1 ∧ t.word (R.GN_CH_CTRL n.val) = ctrl)
    ∧ (v.getLsbD 0 = true → st = 0 ∨ st = 3 → auto = true → Completes (.channelAssign d n v) s fun t => t.get (F.GN_CH_STAT_STATE n.val) = st
        ∧ t.flag (F.GN_CH_CTRL_EN n.val) = s.flag (F.GN_CH_CTRL_EN n.val))
    ∧ (st = 1 → Completes (.channelPullInLock n) s fun t => t.get (F.GN_CH_STAT_STATE n.val) = 2 ∧ ∀ x, x ≠ R.GN_CH_STAT n.val → t.word x = s.word x)
    ∧ (st = 1 ∨ st = 2 → Completes (.channelLockLost n) s fun t => t.get (F.GN_CH_STAT_STATE n.val) = 3 ∧ (n.val, s.now) ∈ t.gn.lostAt)
    ∧ (∀ e, auto = true → st = 3 → s.gn.lostAt.find? (fun e => e.1 == n.val) = some e → e.2 + 2000000000 < 2 ^ 64 →
        Completes (.channelLostRelease n) s fun t => t.now = s.reached (e.2 + 2000000000) ∧ t.get (F.GN_CH_STAT_STATE n.val) = 0
          ∧ t.flag (F.GN_CH_CTRL_EN n.val) = false)
    ∧ Completes (.wordRecord u) s (fun t => (u.ok = false → t.gn = s.gn)
        ∧ (u.ok = true → ∀ i, u.eph = some i → (u.sys.toNat, u.sv.toNat, i) ∈ t.gn.eph) ∧ (u.ok = true → u.almanac = true → t.gn.almanac = true)
        ∧ (∀ x, u.ok = true → u.msg = 4 → u.ggto = some x → t.gn.ggto = some (x, s.now))
        ∧ t.get F.GN_WREC_WIDX_WIDX = (if s.flag F.GN_WREC_EN then (s.get F.GN_WREC_WIDX_WIDX + 1) % 2 ^ ringLog (s.get F.GN_WREC_RING_LOG2)
            else s.get F.GN_WREC_WIDX_WIDX))
    ∧ (bias → ma.toNat ≤ 120 → Completes (.antennaOpen a ma) s fun t => t.get (F.GN_ANT_I_MA a.val) = ma.toNat
        ∧ t.flag (F.GN_ANT_OPEN a.val) = decide (ma.toNat < 2) ∧ t.flag (F.GN_ANT_BIAS_EN a.val) = true
        ∧ t.get (F.IC_CNT_COUNT (306 + a.val)) = (if s.flag (F.GN_ANT_OPEN a.val) = false ∧ ma.toNat < 2 then inc (306 + a.val)
            else s.get (F.IC_CNT_COUNT (306 + a.val))))
    ∧ (bias → 120 < ma.toNat → Completes (.antennaShort a ma) s fun t => t.flag (F.GN_ANT_BIAS_EN a.val) = false ∧ t.flag (F.GN_ANT_SHORT a.val) = true ∧ t.get (F.GN_ANT_I_MA a.val) = 0
        ∧ t.now = s.reached (s.now + 10000))
    ∧ Completes (.windbreakSearch []) s (fun t => t.now = s.reached wbNext ∧ t.gn.wbAt = wbNext ∧ wbNext % 10000000 = 0 ∧ s.now ≤ wbNext ∧ wbNext ≤ s.now + 10000000
        ∧ ∀ q : Fin 16, s.get (F.GN_WB_CFG_MODE q.val) = 2 → t.flag (F.GN_WB_ST_LOCKED q.val) = false ∧ t.word (R.GN_WB_FREQ q.val) = 0)
    ∧ (s.get (F.GN_WB_CFG_MODE (4 * p.val)) = 2 → (f - s.wbCtr (4 * p.val)).natAbs ≤ s.get (F.GN_WB_CFG_SPAN_KHZ (4 * p.val)) →
        s.get (F.GN_WB_CFG_DET_DB (4 * p.val)) ≤ db → Completes (.windbreakSearch [(p, f, db)]) s fun t => t.now = s.reached wbNext
          ∧ t.flag (F.GN_WB_ST_LOCKED (4 * p.val)) = true ∧ t.geti (R.GN_WB_FREQ (4 * p.val)) = f)
    ∧ Completes (.jammingIndicator levels) s (fun t => t.now = s.reached jiNext ∧ t.gn.jiAt = jiNext ∧ jiNext % 10000000 = 0 ∧ s.now ≤ jiNext ∧ ∀ q : Fin 4,
        let l := levels.getD q.val (s.gn.level.getD q.val (0, 0))
        t.get (F.GN_JI_JI q.val) = min 255 (10 * (l.1 - (s.gnQuiet q.val).1).toNat + 4 * ((s.gnQuiet q.val).2 - l.2).toNat)
          ∧ t.gn.level.getD q.val (0, 0) = l)
    ∧ Completes (.jiCal d) s (fun t => t.gn = { s.gn with quiet := s.gn.level.map some } ∧ t.get F.GN_JICFG_JI_WARN = s.get F.GN_JICFG_JI_WARN)
    ∧ Completes (.gnssTimeSolution ofs sigma) s (fun t => (ofs.natAbs < 2 ^ 31 → t.geti R.GN_TOFS = ofs)
        ∧ (tq ≠ 2 → tq ≠ 3 → t.get F.GN_TQ_TQ = 1 ∧ t.word R.GN_TACC = BitVec.ofNat 32 (min sigma 0xFFFFFFFF) ∧ (s.tq ≠ 0 ∨ s.run = true → t.gn.solAt = s.now))
        ∧ (tq = 2 → s.jumpMax < ofs.natAbs → t.get F.GN_TQ_TQ = 2 ∧ t.flag F.GN_TQ_TIME_JUMP_REFUSED = true))
    ∧ (let due := s.gn.solAt + max 1 (s.get F.GN_HOLD_LOSS_MS) * 1000000
       tq = 1 ∨ tq = 3 → due < 2 ^ 64 → Completes .gnssTimeLoss s fun t => t.get F.GN_TQ_TQ = 2 ∧ t.now = s.reached due)
    ∧ Completes (.gnssSleep d v) s (fun t => t.domOn 9 = false ∧ t.domOn 10 = false
        ∧ t.get F.PWR_DOM_REQ_REQ / 2 ^ 9 % 2 = 0 ∧ t.get F.PWR_DOM_REQ_REQ / 2 ^ 10 % 2 = 0)

/-- The time base: offsets by the rows of R243, loss, slew end, steps, the increment, latching reads, leap seconds, PPS outputs and capture inputs -/
def Obligations.TimeBase : Prop :=
  ∀ (s : State) (d : Dom) (v : Word) (key : BitVec 16) (hi : Bool) (ofs : Int) (sigma : Nat) (k : Fin 2) (n : Fin 4) (rising : Bool) (fine : Fin 8) (lasts : Nat),
    d = .host ∨ d = .svc → s.domOn 11 = true →
    let inc (f : Fld) : Nat := min (2 ^ f.w - 1) (s.get f + 1)
    let tq := s.tq
    let src := s.get F.TIME_STAT_SRC
    let ptp := Instr.referenceOffset true ofs sigma
    let stepped (t : State) (to' : Int) : Prop := t.now = (to' % 2 ^ 64).toNat ∧ t.get F.TIME_STAT_STEP_CNT = inc F.TIME_STAT_STEP_CNT
      ∧ t.flag F.TIME_STAT_CONT = true
    let done (t : State) : Prop := t.flag F.TIME_STEP_SRES = false ∧ t.flag F.TIME_STAT_JUMP_REF = false
      ∧ t.time.gnss.refused = false ∧ t.time.ptp.refused = false ∧ t.get F.TIME_STAT_SRC = t.chosen ∧ t.tq = (if t.chosen = 0 then 4 else 1)
    let refused (t : State) : Prop := t.now = s.now ∧ t.flag F.TIME_STEP_SRES = true ∧ t.tq = tq
    let new : Nat := if hi then s.get F.TIME_INCL_INC_FRAC + 2 ^ 32 * (v.toNat % 256) else v.toNat + 2 ^ 32 * s.get F.TIME_INCH_INC_NS
    let left := s.time.slewRem.natAbs - 20 * 2 ^ 32
    let slewTicks := (left + s.time.phase.natAbs - 1) / s.time.phase.natAbs
    -- the count once so many further ticks have come
    let after (ticks : Nat) : Nat := (s.fineAfter ticks + (2 ^ 32 - 1)) / 2 ^ 32
    let pps := s.ppsOut k.val
    let pAt := s.ppsNext k.val + (if pps.late then 10 else 0)
    let pol := s.flag (F.TIME_PPS_CFG_POL k.val)
    let per := ppsPeriod (s.get (F.TIME_PPS_CFG_PER k.val))
    let q := s.time.tcap.getD n.val []
    let edge := s.get (F.TCAP_CFG_EDGE n.val)
    let tick := s.fine / 2 ^ 32
    let here := 4 * tick + 5 * fine.val
    let taken := (edge = 3 ∨ edge = 1 ∧ rising = true ∨ edge = 2 ∧ rising = false)
      ∧ 20 ≤ lasts ∧ (∀ x, s.time.tcapEdge.getD n.val none = some x → x + 4 * 20 ≤ here) ∧ ∀ x, s.time.tcapLast.getD n.val none = some x → x + 4 * 100 ≤ here
    (tq = 0 → s.run = false → s.priRef = 2 ∨ s.secRef = 2 → Completes ptp s fun t => stepped t (s.now - ofs) ∧ t.tq = 1 ∧ t.get F.TIME_STAT_SRC = 2
        ∧ t.word R.TIME_ACC = BitVec.ofNat 32 (min sigma 0xFFFFFFFF) ∧ (ofs.natAbs < 2 ^ 31 → t.geti R.TIME_OFS = ofs))
    ∧ (tq = 1 → src = 2 → s.priRef = 2 ∨ s.secRef = 2 → Completes ptp s fun t => t.tq = 1 ∧ t.get F.TIME_STAT_SRC = 2 ∧ t.now = s.now
        ∧ t.word R.TIME_ACC = BitVec.ofNat 32 (min sigma 0xFFFFFFFF) ∧ incMin ≤ t.timeInc ∧ t.timeInc ≤ incMax
        ∧ (ofs.natAbs < 2 ^ 31 → t.geti R.TIME_OFS = ofs))
    ∧ (tq = 2 → s.priRef = 2 → ofs.natAbs ≤ s.jumpMax → Completes ptp s fun t => t.tq = (if ofs.natAbs ≤ 20 then 1 else 3)
        ∧ t.get F.TIME_STAT_SRC = 2 ∧ t.now = s.now ∧ (20 < ofs.natAbs → t.time.slewRem = ofs * 2 ^ 32 ∧ t.word R.TIME_ACC = BitVec.ofNat 32 (min s.accNs 0xFFFFFFFF)))
    ∧ (tq = 2 → s.priRef = 2 ∨ s.secRef = 2 → s.jumpMax < ofs.natAbs → Completes ptp s fun t => t.tq = 2 ∧ t.flag F.TIME_STAT_JUMP_REF = true
        ∧ t.time.ptp.refused = true ∧ t.now = s.now)
    ∧ (∀ since, tq = 1 ∨ tq = 3 → src = 2 → s.priRef = 2 → s.secRef = 0 → s.time.ptp.since = some since → since + s.lossNs < 2 ^ 64 →
        Completes .referenceLoss s fun t => t.now = max s.now (since + s.lossNs) ∧ t.tq = 2 ∧ t.get F.TIME_STAT_SRC = 0 ∧ t.time.phase = 0)
    ∧ (tq = 3 → after slewTicks < 2 ^ 64 → Completes .slewEnd s fun t => t.now = max s.now (after slewTicks)
        ∧ t.tq = 1 ∧ t.time.slewRem.natAbs = 20 * 2 ^ 32)
    ∧ (s.run = false → s.time.measured = true → Completes (.timeStepByOffset d 0x5AFE) s fun t => stepped t (s.now - s.geti R.TIME_OFS) ∧ done t
        ∧ t.time.measured = false)
    ∧ (s.run = true ∨ s.time.measured = false → Completes (.timeStepByOffset d 0x5AFE) s refused)
    ∧ (s.run = false → Completes (.timeStepToSet d 0x5AFE) s fun t => stepped t (s.get F.TIME_SETL_SET + 2 ^ 32 * s.get F.TIME_SETH_SET : Nat) ∧ done t
        ∧ t.time.frac = 0)
    ∧ (s.run = true → Completes (.timeStepToSet d 0x5AFE) s refused)
    ∧ (key ≠ 0x5AFE → ∀ c ∈ [Instr.timeStepByOffset d key, .timeStepToSet d key], Completes c s fun t => t.time = s.time
        ∧ t.get F.SYS_KEYERR_COUNT = inc F.SYS_KEYERR_COUNT)
    ∧ Completes (.priClear d) s (fun t => t.tq = 4 ∧ t.get F.TIME_STAT_SRC = 0 ∧ t.priRef = 0 ∧ t.secRef = s.secRef ∧ t.word R.TIME_ACC = 0xFFFFFFFF)
    ∧ (s.priRef = 0 → Completes (.timeIncWrite d hi v) s fun t => t.timeInc = min incMax (max incMin new))
    ∧ (s.priRef ≠ 0 → Completes (.timeIncWrite d hi v) s fun t => t.timeInc = s.timeInc ∧ t.time = s.time)
    ∧ Completes .timeNowRead s (fun t => (t.word R.TIME_NOWH).toNat = s.now / 2 ^ 32 ∧ t.word R.TIME_NOWF = s.time.frac
        ∧ ∀ a, a ≠ R.TIME_NOWH → a ≠ R.TIME_NOWF → t.word a = s.word a)
    ∧ (s.domOn 1 = true → Completes .sysCycT0lRead s fun t => t.get F.SYS_CYC_T0H_T0_HI = s.t0 / 2 ^ 32 % 2 ^ 16)
    ∧ (s.time.leapRef = false → Completes (.taiUtcWrite d v) s fun t => t.get F.TIME_LEAP_TAI_UTC = v.toNat % 256)
    ∧ (s.time.leapRef = true → Completes (.taiUtcWrite d v) s fun t => t.get F.TIME_LEAP_TAI_UTC = s.get F.TIME_LEAP_TAI_UTC)
    ∧ (s.time.leapAt < 2 ^ 64 → s.get F.TIME_LEAP_PEND = 1 ∨ s.get F.TIME_LEAP_PEND = 2 → Completes .leapSecond s fun t =>
        t.now = max s.now s.time.leapAt ∧ t.get F.TIME_LEAP_PEND = 0
          ∧ t.get F.TIME_LEAP_TAI_UTC = (if s.get F.TIME_LEAP_PEND = 1 then (s.get F.TIME_LEAP_TAI_UTC + 1) % 256 else s.get F.TIME_LEAP_TAI_UTC - 1))
    ∧ (s.flag (F.TIME_PPS_CFG_EN k.val) = true → pAt < 2 ^ 64 → Completes (.ppsEdge k) s fun t => t.now = max s.now pAt
        ∧ t.out = .pin 1 k.val (if pol then 0 else 1) :: s.out
        ∧ t.ppsOut k.val = ⟨true, min (s.get (F.TIME_PPS_CFG_WIDTH_US k.val) * 1000) (per / 2) / 10, some t.now, none, false⟩)
    ∧ (pps.high = true → after pps.ticks < 2 ^ 64 → Completes (.ppsPulseEnd k) s fun t => t.now = max s.now (after pps.ticks)
        ∧ t.out = .pin 1 k.val (if pol then 1 else 0) :: s.out ∧ t.ppsOut k.val = { pps with high := false, ticks := 0 })
    ∧ (taken → q.length < 8 → Completes (.timeCaptureEdge n rising fine lasts) s fun t => t.time.tcap.getD n.val [] = q ++ [(stampOf tick, fine.val)]
        ∧ t.get (F.TCAP_ST_FILL n.val) = q.length + 1 ∧ t.time.tcapLast.getD n.val none = some here)
    ∧ (taken → 8 ≤ q.length → Completes (.timeCaptureEdge n rising fine lasts) s fun t => t.time.tcap = s.time.tcap
        ∧ t.get (F.TCAP_ST_OVF_CNT n.val) = inc (F.TCAP_ST_OVF_CNT n.val))
    ∧ (¬ taken → Completes (.timeCaptureEdge n rising fine lasts) s fun t => t.time.tcap = s.time.tcap ∧ t.time.tcapLast = s.time.tcapLast ∧ t.regs = s.regs)
    ∧ (q = [] → Completes (.capTslRead n) s fun t => t.flag (F.TCAP_TSH_VALID n.val) = false ∧ t.time = s.time)
    ∧ (∀ (st : Stamp) (f : Nat) (rest : List (Stamp × Nat)), q = (st, f) :: rest → f < 32 → rest.length < 16 → Completes (.capTslRead n) s fun t =>
        (t.word (R.TCAP_TSL n.val)).toNat = st.toNat % 2 ^ 32 ∧ t.get (F.TCAP_TSH_TS_HI n.val) = st.toNat / 2 ^ 32
          ∧ t.get (F.TCAP_TSH_FINE n.val) = f ∧ t.flag (F.TCAP_TSH_VALID n.val) = true
          ∧ t.time.tcap.getD n.val [] = rest ∧ t.get (F.TCAP_ST_FILL n.val) = rest.length)

/-- PTP ports: Sync and Follow_Up offsets, the delay measurements, answers, Announces, sends, unsupported messages and the receipt timeout -/
def Obligations.PtpPorts : Prop :=
  ∀ (s : State) (p : Fin 2) (seq : BitVec 16) (src : BitVec 80) (origin t2 turn corr : Int) (m : AnnMsg), s.ptpRuns p.val = true →
    let i := p.val
    let x := s.ptpPort i
    let st := s.pstate i
    let p2p := s.flag (F.TIME_PTP_CFG_P2P i)
    let only := s.flag (F.TIME_PTP_CFG_SLAVE_ONLY i)
    let sent (t : State) (typ n flags : Nat) (corr : Int) (logi : Nat) (body : List Byte) (fill : TxFill) : Prop := s.txq i = [] → s.ha.holdTx = false →
      (s.net.busy.getD i 0 ≤ s.now → t.out = .net i (s.ptpDst i typ) (s.macBase + i) (s.ptpKind i + 2 ^ 16 * s.vlanTag i (s.ptpKind i))
        (s.ptpData i typ (s.ptpMsg i typ n flags corr logi body)) s.stamp :: s.out)
      ∧ (s.now < s.net.busy.getD i 0 → t.out = s.out ∧ (t.txq i).map (fun e => (e.launch, e.fill)) = [(none, fill)])
    let offset (t : State) (rx : Nat) : Prop :=
      let ofs := (rx : Int) - origin - s.geti (R.TIME_PTP_MPD i) - s.geti (R.TIME_PTP_ASYM i)
      (t.ptpPort i).lastSync = some (origin.toNat, rx) ∧ (t.ptpPort i).syncWait = none
      ∧ (x.mpdKnown = true → (t.ptpPort i).offs = (ofs :: x.offs).take 16 ∧ t.time.ptp.ofs = ofs)
      ∧ (x.mpdKnown = false → (t.ptpPort i).offs = x.offs ∧ t.time.ptp = s.time.ptp)
    let delay (t : State) (v : Int) : Prop := (t.ptpPort i).mpdKnown = true ∧ (v.natAbs < 2 ^ 31 → t.geti (R.TIME_PTP_MPD i) = v)
    let due := max s.now (x.lastAnn + 3 * s.annNs i)
    (st = 3 → Completes (.ptpSyncReceive p seq true origin) s fun t => (t.ptpPort i).syncWait = some (seq.toNat, s.now) ∧ t.time.ptp = s.time.ptp)
    ∧ (st = 3 → Completes (.ptpSyncReceive p seq false origin) s fun t => offset t s.now)
    ∧ (∀ rx, st = 3 → x.syncWait = some (seq.toNat, rx) → Completes (.ptpFollowUpReceive p seq origin) s fun t => offset t rx)
    ∧ (st = 2 → p2p = false → Completes (.ptpDelayReqReceive p seq corr src) s fun t =>
        sent t 9 seq.toNat 0 corr (s.get (F.TIME_PTP_CFG_LOG_DELAY i)) (ptpStamp s.now ++ beBytes 10 src.toNat) .none)
    ∧ (∀ t3 t1 rx : Nat, p2p = false → x.dreq = some (seq.toNat, t3) → x.lastSync = some (t1, rx) → Completes (.ptpDelayRespReceive p seq t2) s fun t =>
        delay t (((rx - t1 : Int) + (t2 - t3)) / 2) ∧ (t.ptpPort i).dreq = none)
    ∧ (p2p = true → Completes (.ptpPdelayReqReceive p seq corr src) s fun t =>
        sent t 3 seq.toNat 0 corr 0x7F (ptpStamp 0 ++ beBytes 10 src.toNat) (.pdResp s.now corr))
    ∧ (∀ t1 : Nat, p2p = true → x.pdreq = some (seq.toNat, t1) →
        Completes (.ptpPdelayRespReceive p seq true t2 turn) s (fun t => (t.ptpPort i).pdreq = none ∧ (t.ptpPort i).pdwait = some (seq.toNat, t1, t2.toNat, s.now))
        ∧ Completes (.ptpPdelayRespReceive p seq false t2 turn) s fun t => (t.ptpPort i).pdreq = none ∧ delay t (((s.now : Int) - t1 - turn) / 2))
    ∧ (∀ t1 r2 t4 : Nat, p2p = true → x.pdwait = some (seq.toNat, t1, r2, t4) → Completes (.ptpPdelayRespFollowUpReceive p seq origin) s fun t =>
        (t.ptpPort i).pdwait = none ∧ delay t (((t4 - t1 : Int) - (origin - r2)) / 2))
    ∧ Completes (.ptpAnnounceReceive p m) s (fun t => let u := s.modPort i fun y => { y with lastAnn := s.now, anns := (t.ptpPort i).anns }
        (t.ptpPort i).anns.head?.map (fun e => e.1) = some m
        ∧ (t.ptpPort i).anns.head?.map (fun e => e.2.1) = some s.now ∧ (t.ptpPort i).lastAnn = s.now
        ∧ t.pstate i = (if st = 1 ∧ u.erbest i = none then 1 else u.bmcState i)
        ∧ (t.pstate i = 3 → st ≠ 1 ∨ u.erbest i ≠ none → (t.ptpPort i).master = u.ebest.map fun e => e.2)
        ∧ (m.utcValid = true → t.pstate i = 3 → (t.ptpPort i).master = some m → s.get F.TIME_STAT_SRC = 2 →
            t.get F.TIME_LEAP_TAI_UTC = m.utc.toNat % 256 ∧ t.flag F.TIME_LEAP_VALID = true ∧ t.get F.TIME_LEAP_PEND = m.leap.val ∧ t.time.leapRef = true))
    ∧ Completes (.ptpUnsupportedMessage p) s (fun t => t.get (F.PTP_CNT_UNSUP i) = min 65535 (s.get (F.PTP_CNT_UNSUP i) + 1) ∧ t.time = s.time)
    ∧ (st = 2 → Completes (.ptpSyncSend p) s fun t => sent t 0 x.seqSync 0 0 (s.get (F.TIME_PTP_CFG_LOG_SYNC i)) (ptpStamp s.now) .sync
        ∧ (t.ptpPort i).seqSync = (x.seqSync + 1) % 65536)
    ∧ (st = 2 → Completes (.ptpAnnounceSend p) s fun t => (t.ptpPort i).seqAnn = (x.seqAnn + 1) % 65536
        ∧ sent t 11 x.seqAnn s.announceFlags 0 (s.get (F.TIME_PTP_CFG_LOG_ANN i)) (s.announceBody i) .none
        ∧ (s.get F.TIME_STAT_SRC ≠ 2 → ((s.announceBody i).drop 13).take 3 = beBytes 1 (s.get F.TIME_PTP_PRIO1) ++ beBytes 1 s.announceQ.1 ++ beBytes 1 s.announceQ.2))
    ∧ (st = 3 → p2p = false → Completes (.ptpDelayReqSend p) s fun t => sent t 1 x.seqDreq 0 0 0x7F (ptpStamp s.now) (.dreq x.seqDreq)
        ∧ (t.ptpPort i).seqDreq = (x.seqDreq + 1) % 65536 ∧ (s.txq i = [] → s.ha.holdTx = false → s.net.busy.getD i 0 ≤ s.now → (t.ptpPort i).dreq = some (x.seqDreq, s.now)))
    ∧ (p2p = true → Completes (.ptpPdelayReqSend p) s fun t => sent t 2 x.seqPd 0 0 0x7F (ptpStamp s.now ++ List.replicate 10 0) (.pdreq x.seqPd)
        ∧ (t.ptpPort i).seqPd = (x.seqPd + 1) % 65536 ∧ (s.txq i = [] → s.ha.holdTx = false → s.net.busy.getD i 0 ≤ s.now → (t.ptpPort i).pdreq = some (x.seqPd, s.now)))
    ∧ (st = 1 ∨ st = 3 ∨ st = 4 → due < 2 ^ 64 → Completes (.ptpAnnounceReceiptTimeout p) s fun t => t.now = due
        ∧ (t.ptpPort i).anns = [] ∧ (t.ptpPort i).lastAnn = t.now
        ∧ ((∀ q : Fin 2, (s.ptpPort q.val).anns = []) → t.pstate i = (if only then 1 else 2)))

/-- What arrives for the reference streams: sentences, GST, binary frames, RTCM, NMEA 2000 messages and claims, datagrams of flows -/
def Obligations.StreamIngress : Prop :=
  ∀ (s : State) (p : Fin 16) (b : List Byte) (ago n typ line f : Nat) (c : Fin 4) (m : PgnMsg) (dst sa : Byte) (name src : Word64)
    (i : Fin 32) (q : Fin 2) (group : Fin 16) (tag : Option Int) (udp : BitVec 16) (ip : Word) (xs : List (List Byte)),
    let arr := s.stampAgo ago
    let at' := s.full arr
    let inc (f : Fld) : Nat := min (2 ^ f.w - 1) (s.get f + 1)
    let took (es : List Entry) (t : State) : Prop :=
      let l := (s.stream n).queue ++ es.zipIdx.map (fun e => { e.1 with seq := (s.stream n).seq + BitVec.ofNat 16 e.2 })
      (t.stream n).queue = l.drop (l.length - 16)
    let counted (f : Fld) (t : State) : Prop := t.fe.streams = s.fe.streams ∧ t.get f = inc f
    let port := p.val
    let uart (parse : Nat) : Prop := s.flag (F.UART_CFG_EN port) = true ∧ s.get (F.UART_CFG_PARSE port) = parse
    let ub := b.map (s.uartBits port)
    let fit (x : Sentence) : Prop := x.chars ≤ 82 ∧ x.proprietary = false ∧ 0 < x.sel ∧ x.sel ≤ 9
    let good (x : Sentence) : Prop := x.sum = some true ∨ x.sum = none ∧ s.flag (F.FE_SC_CFG_NOSUM_OK n) = true
    let entry (kind port : Nat) (x : Sentence) (tag : Option Int) (v : List Word64) : Entry :=
      let own := (tag.map fun u => s.taiOf at' (true, u)).orElse fun _ => x.time.map (s.taiOf at')
      let g := if typ = 1 then s.fe.gst.find? (fun g => gstFits g kind port x at' && (g.sum || s.flag (F.FE_SC_CFG_NOSUM_OK n))) else none
      let vals := if typ = 1 then v.take 3 ++ (g.map (·.sig)).getD [0, 0] else if typ = 9 then [fofInt ((x.time.map (s.taiOf at')).getD 0)] else v
      ⟨arr, 0, typ, (if own.isSome then 1 else 0) + (if x.sum.isSome then 2 else 0) + (if g.isSome then 4 else 0), BitVec.ofInt 64 (own.getD 0), vals, x.qual, 0⟩
    let word (l : List Byte) (a n : Nat) : Nat := leNat ((l.drop a).take n)
    let bins (l : List Byte) : List Entry := (binSamples l).map fun v =>
      ⟨arr, 0, kindType (word l 2 1), (if word l 8 8 = 0 then 0 else 1) + 2, BitVec.ofNat 64 (word l 8 8), v.1, v.2, 0⟩
    let binFor (kind port : Nat) (l : List Byte) : Prop := word l 0 2 = 0x5CA9 ∧ n ∈ streamIds ∧ s.bound n kind port (kindType (word l 2 1)) = true
      ∧ s.selOk n (word l 2 1) = true ∧ s.instOk n (word l 3 1) = true
    let binSum (l : List Byte) : Prop := word l (l.length - 4) 4 = (crc32c (l.take (l.length - 4))).toNat
    let be (l : List Byte) : Nat := leNat l.reverse
    let len (l : List Byte) := be ((l.drop 1).take 2) % 1024
    let msg (l : List Byte) := be ((l.drop 3).take 2) / 16
    let station (l : List Byte) := be ((l.drop 4).take 2) % 4096
    let rtcmFor (kind port : Nat) : Prop := s.corrStream = some n ∧ s.bound n kind port 10 = true
    let rtcmSum (l : List Byte) : Prop := word l 0 1 = 0xD3 ∧ l.length = len l + 6 ∧ (crc24q (l.take (len l + 3))).toNat = be (l.drop (len l + 3))
    let rtcmTo (l : List Byte) (t : State) : Prop := took [⟨arr, 0, 10, 2, 0, [], BitVec.ofNat 32 (256 * msg l), 0⟩] t
      ∧ t.gn.corr.head? = some (msg l, at'.toNat, l)
    let claim (sa : Nat) : Output := .can c.val (6 * 2 ^ 26 + 60928 * 2 ^ 8 + 255 * 2 ^ 8 + sa) true false false false s.ownName
    let flows (kinds : List Nat) : List Nat := (List.range 16).filter fun f => s.flowOn f q.val && kinds.contains (s.get (F.NET_FLOW_CFG_KIND f))
    let bcast := (flows [0, 3]).filter fun f => s.get (F.NET_FLOW_CFG_GROUP f) == group.val && (s.flowSrc f == 0 || s.flowSrc f == src.toNat)
    let unicast := (flows [1, 2]).filter fun f => s.get (F.NET_FLOW_CFG_UDP_PORT f) == udp.toNat && (s.get (F.NET_FLOW_IP_IP f) == 0 || s.get (F.NET_FLOW_IP_IP f) == ip.toNat)
    (let x := readSentence ub;
      uart 0 → fit x →
      ((n, typ) ∈ s.sentenceStreams 1 port x → x.sel ≠ 3 →
        (∀ v, x.vals.lookup typ = some v → good x → x.void = false → Completes (.sentenceReceive p b ago) s fun t => took [entry 1 port x none v] t
          ∧ (typ = 1 → ∀ g ∈ t.fe.gst, gstFits g 1 port x at' = false))
        ∧ (good x → x.void = true ∨ x.vals.lookup typ = none → Completes (.sentenceReceive p b ago) s (counted (F.FE_SC_CNT_INVALID n))))
      ∧ ((n, typ) ∈ s.sentenceStreams 1 port x → ¬ good x → Completes (.sentenceReceive p b ago) s (counted (F.FE_SC_CNT_BADSUM n)))
      ∧ (x.sel = 3 → x.sum ≠ some false → Completes (.sentenceReceive p b ago) s fun t => t.fe.streams = s.fe.streams ∧
          t.fe.gst.head? = some ⟨1, port, x.talker, at', dayTime x.time, x.sum.isSome, ((x.vals.lookup 1).getD []).take 2⟩))
    ∧ (∀ g, s.gstOldest = some g → (g.arr + 100000001).toNat < 2 ^ 64 → Completes .gstMergeExpire s fun t =>
        t.now = s.reached (g.arr + 100000001).toNat ∧ t.fe.gst = s.fe.gst.filter (· != g))
    ∧ (uart 1 → binFor 1 port ub →
        (binSum ub → binLenOk ub = true → binValid ub = true → Completes (.binaryFrameReceive p b ago) s (took (bins ub)))
        ∧ (binSum ub → binLenOk ub = false ∨ binValid ub = false → Completes (.binaryFrameReceive p b ago) s (counted (F.FE_SC_CNT_INVALID n)))
        ∧ (¬ binSum ub → Completes (.binaryFrameReceive p b ago) s (counted (F.FE_SC_CNT_BADSUM n))))
    ∧ (uart 2 → rtcmFor 1 port →
        (rtcmSum ub → s.instOk n (station ub) = true → rtcmOk (msg ub) = true → Completes (.rtcmFrameReceive p b ago) s (rtcmTo ub))
        ∧ (rtcmSum ub → s.instOk n (station ub) = true → rtcmOk (msg ub) = false → Completes (.rtcmFrameReceive p b ago) s fun t =>
            t.gn = s.gn ∧ counted (F.FE_SC_CNT_INVALID n) t)
        ∧ (¬ rtcmSum ub → Completes (.rtcmFrameReceive p b ago) s fun t => t.gn = s.gn ∧ counted (F.FE_SC_CNT_BADSUM n) t))
    ∧ (s.n2kOn c.val = true → s.canHears c.val = true → n ∈ s.pgnStreams c.val m.pgn m.sa.toNat → Completes (.pgnReceive c m ago) s fun t =>
        let x := readPgn m.pgn m.data
        let own := x.time.map (s.taiOf at')
        (x.void = true → counted (F.FE_SC_CNT_INVALID n) t)
        ∧ (x.void = false → took [⟨arr, 0, (pgnSel m.pgn).2, if own.isSome then 1 else 0, BitVec.ofInt 64 (own.getD 0),
            if (pgnSel m.pgn).2 = 1 then x.vals ++ [0, 0] else x.vals, x.qual, 0⟩] t))
    ∧ (∀ e, s.fastOldest = some e → e.start + 750000000 < 2 ^ 64 → Completes .fastPacketTimeout s fun t =>
        t.now = s.reached (e.start + 750000000) ∧ t.fe.fast = s.fe.fast.filter (fun g => !g.of e.ctl e.sa e.pgn)
          ∧ (n ∈ s.pgnStreams e.ctl e.pgn e.sa → counted (F.FE_SC_CNT_INVALID n) t))
    ∧ (let own := (s.can.getD c.val .init).sa
       let nm := s.word (R.CAN_NAMEH c.val i.val) ++ s.word (R.CAN_NAMEL c.val i.val)
       let holds := s.flag (F.CAN_NAMEST_PRESENT c.val i.val) = true ∧ s.get (F.CAN_NAMEST_SA c.val i.val) = sa.toNat
       let holdsOwn (t : State) : Prop := (t.can.getD c.val .init).sa = own
       s.n2kOn c.val = true → s.canHears c.val = true →
        (dst = 255 ∨ dst.toNat = own → Completes (.isoRequestReceive c dst 60928) s fun t => holdsOwn t
          ∧ t.out = if s.canTalks c.val then claim own :: s.out else s.out)
        ∧ Completes (.addressClaimReceive c name sa) s (fun t =>
            (s.flag (F.CAN_NAMEST_EN c.val i.val) = true → nm = name →
              t.flag (F.CAN_NAMEST_PRESENT c.val i.val) = decide (sa ≠ 254) ∧ t.get (F.CAN_NAMEST_SA c.val i.val) = sa.toNat)
            ∧ (s.flag (F.CAN_NAMEST_EN c.val i.val) = true → nm ≠ name → t.flag (F.CAN_NAMEST_PRESENT c.val i.val) = true →
                s.flag (F.CAN_NAMEST_PRESENT c.val i.val) = true ∧ (holds → nm.toNat < name.toNat))
            ∧ (own ≠ sa.toNat ∨ s.canTalks c.val = false → t.out = s.out ∧ holdsOwn t)
            ∧ (own = sa.toNat → sa ≠ 254 → s.canTalks c.val = true → leNat s.ownName < name.toNat → t.out = claim own :: s.out ∧ holdsOwn t)
            ∧ (own = sa.toNat → sa ≠ 254 → s.canTalks c.val = true → name.toNat ≤ leNat s.ownName → t.out = claim 254 :: s.out ∧ (t.can.getD c.val .init).sa = 254)))
    ∧ (s.netUp q.val = true →
        (bcast = [] → Completes (.udpbcDatagram q group false src line tag xs ago) s fun t => t.fe = s.fe ∧ t.get (F.NET_CNT0_UNSUP q.val) = inc (F.NET_CNT0_UNSUP q.val))
        ∧ (Completes (.udpbcDatagram q group true src line tag xs ago) s fun t => t.fe = s.fe ∧ t.get (F.NET_CNT0_UNSUP q.val) = inc (F.NET_CNT0_UNSUP q.val))
        ∧ (f ∈ bcast → s.isRepeat (0, src.toNat, line) = true → Completes (.udpbcDatagram q group false src line tag xs ago) s fun t => t.fe = s.fe)
        ∧ (f ∈ bcast → s.isRepeat (0, src.toNat, line) = false → Completes (.udpbcDatagram q group false src line tag [b] ago) s fun t =>
            let x := readSentence b;
            ((0, src.toNat, line), s.now) ∈ t.fe.dedupe
            ∧ (∀ v, x.vals.lookup typ = some v → fit x → x.sel ≠ 3 → good x → x.void = false → (n, typ) ∈ s.sentenceStreams 3 f x → took [entry 3 f x tag v] t))
        ∧ (unicast = [] → Completes (.flowDatagram q udp ip xs ago) s fun t => t.fe = s.fe ∧ t.get (F.NET_CNT0_UNSUP q.val) = inc (F.NET_CNT0_UNSUP q.val))
        ∧ (f ∈ unicast → s.get (F.NET_FLOW_CFG_KIND f) = 1 → binFor 4 f b → s.isRepeat (1, word b 3 1, word b 4 2) = false →
            binSum b → binLenOk b = true → binValid b = true → Completes (.flowDatagram q udp ip [b] ago) s (took (bins b)))
        ∧ (unicast ≠ [] → (∀ g ∈ unicast, s.get (F.NET_FLOW_CFG_KIND g) = 1) → s.isRepeat (1, word b 3 1, word b 4 2) = true →
            Completes (.flowDatagram q udp ip [b] ago) s fun t => t.fe = s.fe)
        ∧ (f ∈ unicast → s.get (F.NET_FLOW_CFG_KIND f) = 2 → rtcmFor 4 f → rtcmSum b → s.instOk n (station b) = true →
            rtcmOk (msg b) = true → Completes (.flowDatagram q udp ip [b] ago) s (rtcmTo b)))

/-- Stream contexts, their offset tracker's registers, UART characters, and the table of Zaley peers -/
def Obligations.StreamContextsAndUarts : Prop :=
  ∀ (s : State) (n : Fin 128) (v : Word) (d : Dom) (p : Fin 16) (ch : Byte) (ferr perr : Bool) (q : Fin 4) (b : List Byte) (m : Fin 512),
    let k := n.val
    let u := p.val
    let named := d = .host ∨ d = .svc
    let inc (f : Fld) : Nat := min (2 ^ f.w - 1) (s.get f + 1)
    let raised (f : Fld) (e : Nat) (t : State) : Prop := t.flag f = true ∧ (s.flag f = false → t.get (F.IC_CNT_COUNT e) = min 255 (s.get (F.IC_CNT_COUNT e) + 1))
    let en := s.flag (F.FE_SC_CFG_EN k)
    let mask : Word := if k ≤ 8 then 0x1FF00001 else 0x1FFFFFFF
    let takes (w : Word) (t : State) : Prop := t.word (R.FE_SC_CFG k) = (s.word (R.FE_SC_CFG k) &&& ~~~ mask) ||| (w &&& mask)
    let learns (st : Nat) (t : State) : Prop := t.get (F.FE_SC_OFSSTAT_LSTATE k) = st ∧ t.get (F.FE_SC_OFSSTAT_LCOUNT k) = 0
    let on := s.flag (F.UART_CFG_EN u) = true
    let parse := s.get (F.UART_CFG_PARSE u)
    let pbad := perr = true ∧ (s.get (F.UART_CFG_PAR u) = 1 ∨ s.get (F.UART_CFG_PAR u) = 2)
    let cb := s.uartBits u ch
    let part := partNext parse (s.uart u).part cb
    let tx := (s.uart u).tx.filter fun e => decide (s.now < e.2)
    let may := d = .svc ∧ on ∧ parse = 3 ∧ tx.length < 256
    let vb := s.uartBits u (BitVec.ofNat 8 v.toNat)
    let z := zRead b
    let h := readHello z
    let layout := z.ver = 1 ∧ z.typ = 1 ∧ z.flags % 2 = 0 ∧ z.len = 16 ∧ b.length = 44
    let peer := s.peer h.src.val
    let alike := h.sig = s.word R.ZAL_SIG
    let open' := s.flag F.ZAL_DISC_CTRL_COMMISSION = true
    let other := (peer.state = 1 ∨ peer.state = 2) ∧ peer.mac ≠ h.mac.toNat
    let made (st : Nat) (t : State) : Prop := t.peer h.src.val = ⟨h.src.val, st, h.sig == s.word R.ZAL_SIG, h.persona.val, h.level.val, h.parent.val, h.mac.toNat, s.now⟩
      ∧ (t.word (R.ZAL_PRESENT (h.src.val / 32))).getLsbD (h.src.val % 32) = decide (st = 1)
    let old := s.peer m.val
    let gone (t : State) : Prop := (t.peer m.val).state = 3 ∧ (t.word (R.ZAL_PRESENT (m.val / 32))).getLsbD (m.val % 32) = false
    let was := s.flag F.ZAL_DISC_CTRL_COMMISSION
    (s.domOn 7 = true →
      (n = 0 ∨ ¬ named → ∀ c ∈ [Instr.streamEnable d n v, .streamDisable d n v, .ofscfgWrite d n v], Completes c s fun t => t = s)
      ∧ (n ≠ 0 → named →
          (en = false → Completes (.streamEnable d n v) s fun t => takes (v ||| 1) t ∧ t.flag (F.FE_SC_CFG_EN k) = true
            ∧ (t.stream k).queue = (s.stream k).queue ∧ (t.stream k).firstSnap = true ∧ learns (v.getLsbD 27).toNat t)
          ∧ (en = true → Completes (.streamEnable d n v) s fun t => t = s)
          ∧ (en = false → Completes (.streamDisable d n v) s fun t => takes (v &&& 0xFFFFFFFE) t ∧ t.flag (F.FE_SC_CFG_EN k) = false ∧ t.fe = s.fe
            ∧ (s.flag (F.FE_SC_CFG_OWNSTAMP k) ≠ v.getLsbD 27 → learns (v.getLsbD 27).toNat t))
          ∧ (en = true → Completes (.streamDisable d n v) s fun t => takes (v &&& 0xFFFFFFFE) t ∧ t.flag (F.FE_SC_CFG_EN k) = false
            ∧ (t.stream k).queue = [] ∧ (t.stream k).cut = true ∧ (t.stream k).latched = (s.stream k).latched ∧ (t.stream k).rejected = false
            ∧ t.get (F.FE_MN_CNT_FAILRUN k) = 0 ∧ t.get (F.FE_MN_CNT_OKRUN k) = 0
            ∧ ∀ j < 64, (s.get (F.TK_ST_SRC j) = k → t.get (F.TK_ST_STATE j) = 0) ∧ (s.get (F.TK_ST_SRC j) ≠ k → t.word (R.TK_ST j) = s.word (R.TK_ST j)))
          ∧ Completes (.ofscfgWrite d n v) s (fun t => t.word (R.FE_SC_OFSCFG k) = v ∧ learns (s.get (F.FE_SC_CFG_OWNSTAMP k)) t))
      ∧ (n = 0 → Completes (.feScOfslRead n) s fun t => t = s)
      ∧ (n ≠ 0 → Completes (.feScOfslRead n) s fun t => t.word (R.FE_SC_OFSH k) = BitVec.ofInt 32 ((s.stream k).trk.ofs / 2 ^ 32)
        ∧ ∀ a, a ≠ R.FE_SC_OFSH k → t.word a = s.word a))
    ∧ (¬ on → ∀ c ∈ [Instr.uartCharacterReceive p ch ferr perr, .uartBreak p], Completes c s fun t => t = s)
    ∧ (on →
        (ferr = false → ¬ pbad → Completes (.uartCharacterReceive p ch ferr perr) s fun t => t.get (F.UART_CNT_CHARS u) = inc (F.UART_CNT_CHARS u)
          ∧ (parse = 3 → (s.uart u).rx.length < 256 → (t.uart u).rx = (s.uart u).rx ++ [cb])
          ∧ (parse = 3 → 256 ≤ (s.uart u).rx.length → (t.uart u).rx = (s.uart u).rx ∧ raised (F.UART_STAT_OVR u) (264 + u) t)
          ∧ (parse ≠ 3 → (t.uart u).rx = (s.uart u).rx ∧ (t.uart u).part = if partDone parse part then [] else part))
        ∧ (ferr = true ∨ pbad → Completes (.uartCharacterReceive p ch ferr perr) s fun t => (t.uart u).rx = (s.uart u).rx
          ∧ t.get (F.UART_CNT_CHARS u) = inc (F.UART_CNT_CHARS u) ∧ t.get (F.UART_CNT_ERRS u) = inc (F.UART_CNT_ERRS u)
          ∧ (t.uart u).partBad = true ∧ (t.uart u).part = (s.uart u).part
          ∧ (ferr = true → t.flag (F.UART_STAT_FERR u) = true) ∧ (pbad → t.flag (F.UART_STAT_PERR u) = true)
          ∧ (¬ pbad → raised (F.UART_STAT_FERR u) (264 + u) t) ∧ (ferr = false → raised (F.UART_STAT_PERR u) (264 + u) t))
        ∧ Completes (.uartBreak p) s (fun t => (t.uart u).part = [] ∧ (t.uart u).rx = (s.uart u).rx
          ∧ t.get (F.UART_CNT_ERRS u) = inc (F.UART_CNT_ERRS u) ∧ raised (F.UART_STAT_BRK u) (264 + u) t))
    ∧ (s.domOn 12 = true →
        (may → Completes (.uartDataWrite d p v) s fun t => t.out = .uart u vb :: s.out
          ∧ (t.uart u).tx = tx ++ [(vb, (tx.getLast?.map (fun e => e.2)).getD s.now + s.uartCharNs u)])
        ∧ (¬ may → Completes (.uartDataWrite d p v) s fun t => t = s)
        ∧ (∀ x l, (s.uart u).rx = x :: l → Completes (.uartDataRead p) s fun t => (t.uart u).rx = l ∧ t.word (R.UART_DATA u) = BitVec.ofNat 32 (256 + x.toNat))
        ∧ ((s.uart u).rx = [] → Completes (.uartDataRead p) s fun t => t.word (R.UART_DATA u) = 0 ∧ t.fe = s.fe))
    ∧ (s.netUp q.val = true → s.zalPort q.val = true →
        (crcOk b = false → Completes (.helloReceive q b) s fun t => t.fe = s.fe ∧ t.get F.TWIN_CNT0_CRC_ERR = inc F.TWIN_CNT0_CRC_ERR)
        ∧ (crcOk b = true → ¬ layout → Completes (.helloReceive q b) s fun t => t.fe = s.fe ∧ t.get (F.NET_CNT0_UNSUP q.val) = inc (F.NET_CNT0_UNSUP q.val))
        ∧ (crcOk b = true → layout →
          (h.src.val = s.nodeId ∨ other → Completes (.helloReceive q b) s fun t => t.fe = s.fe ∧ raised F.ZAL_DISC_EVT_ID_CLASH 286 t)
          ∧ (h.src.val ≠ s.nodeId → ¬ other →
            (peer.state ≠ 1 → alike ∨ open' ∧ peer.state ≠ 2 → Completes (.helloReceive q b) s fun t => made 1 t ∧ raised F.ZAL_DISC_EVT_ADMIT 286 t)
            ∧ (peer.state = 1 → alike ∨ open' → Completes (.helloReceive q b) s (made 1))
            ∧ (peer.state ≠ 2 → ¬ alike → ¬ open' → Completes (.helloReceive q b) s fun t => made 2 t ∧ raised F.ZAL_DISC_EVT_REFUSE 286 t)
            ∧ (peer.state = 2 → ¬ alike → Completes (.helloReceive q b) s (made 2)))))
    ∧ (s.netUp 2 = true → Completes (.helloReceive 2 b) s fun t => t.fe = s.fe ∧ t.get (F.NET_CNT0_UNSUP 2) = inc (F.NET_CNT0_UNSUP 2))
    ∧ (let at' := max s.now ((s.net.helloAt.getD q.val none).getD 0)
       s.netUp q.val = true → s.zalPort q.val = true → s.flag F.ZAL_DISC_CTRL_HELLO_EN = true → at' < 2 ^ 64 → Completes (.helloSend q) s fun t =>
        t.now = at' ∧ t.net.helloAt.getD q.val none = some (at' + 100000000)
        ∧ (s.txq q.val = [] → s.ha.holdTx = false → s.net.busy.getD q.val 0 ≤ at' → t.out = .net q.val 0x035A4C590001 (s.macBase + q.val)
            (0x88B5 + 2 ^ 16 * s.vlanTag q.val 0x88B5) (s.zaley zHELLO 0 0x3FF false s.helloBytes) (stampOf at') :: s.out))
    ∧ (s.flag F.ZAL_DISC_CTRL_HELLO_EN = false ∨ s.netUp q.val = false ∨ s.zalPort q.val = false → Completes (.helloSend q) s fun t => t = s)
    ∧ (old.state = 1 → old.last + 350000000 < 2 ^ 64 → Completes (.peerDetach m) s fun t => t.now = s.reached (old.last + 350000000)
        ∧ gone t ∧ raised F.ZAL_DISC_EVT_DETACH 286 t)
    ∧ (old.state ≠ 1 → Completes (.peerDetach m) s fun t => t = s)
    ∧ (s.domOn 11 = true → named →
        (v.getLsbD 0 = true → s.run = true → Completes (.commissionWrite d v) s fun t => t = s)
        ∧ (v.getLsbD 0 = false ∨ s.run = false → Completes (.commissionWrite d v) s fun t => t.flag F.ZAL_DISC_CTRL_COMMISSION = v.getLsbD 0
          ∧ (was = false ∨ v.getLsbD 0 = true → t.word R.ZAL_DISC_CTRL = v &&& 3 ∧ t.fe = s.fe)
          ∧ (was = true → v.getLsbD 0 = false → old.state = 1 → old.sigMatch = false → gone t ∧ t.flag F.ZAL_DISC_EVT_DETACH = true)))

/-- The cycle's tick, its phases, the estimate's publication and the SPE trip, the assignment's launch, and starting and stopping -/
def Obligations.CycleTicksAndPhases : Prop :=
  ∀ (s : State) (d : Dom), s.domOn 11 = true → s.domOn 1 = true → d = .host ∨ d = .svc → 5000 ≤ s.get F.SYS_CYC_PERIOD_PERIOD_US → s.nextTick < 2 ^ 64 →
    s.t0 + 2 * s.tDp < 2 ^ 64 → s.matched = true →
    let inc (f : Fld) : Nat := min (2 ^ f.w - 1) (s.get f + 1)
    let ticked (t : State) : Prop := t.now = s.nextTick ∧ t.t0 = s.nextTick ∧ t.cycNum = BitVec.ofNat 32 (s.nextTick / s.tDp)
      ∧ t.word R.SYS_CYC_T0L = BitVec.ofNat 32 s.nextTick
    let newJob (t : State) : Option (Nat × Nat × Nat × Nat × Stamp) := (t.jobs.jobs[s.jobs.jobs.length]?).map fun j => (j.unit, j.kind, j.cls, j.proc, j.deadline)
    let held := s.commitShadow [R.SYS_CYC_PERIOD, R.SYS_CYC_PHA, R.SYS_CYC_PHB, R.SYS_CYC_PHC, R.SYS_CYC_DLQP]
    let publishes := s.estOn = true ∧ 1 ≤ s.cyc ∧ s.cyc ≤ 4
    let shown (t : State) : Prop := t.now = max s.now s.atSk ∧ t.cyc = 5 ∧ t.word R.FE_OUT_CYC = s.cycNum ∧ t.word R.FE_OUT_CYC2 = s.cycNum
        ∧ t.get F.FE_OUT_Q_QUAL = s.get F.FE_EST_STAT_QUAL ∧ t.flag F.FE_OUT_Q_INIT = s.est.inited
        ∧ (s.est.inited = true → ∀ i : Fin 6, t.get64 (R.FE_OUT_EST i.val) = vget s.est.x i.val)
        ∧ t.est.running = false ∧ (s.est.running = true → t.flag F.SYS_CYC_STAT_EST_SHORT = true)
    let spe := fadd (segDist [vget s.est.x 0, vget s.est.x 1] [s.get64 (R.SK_OUT_ENV 0), s.get64 (R.SK_OUT_ENV 1)] [s.get64 (R.SK_OUT_ENV 2), s.get64 (R.SK_OUT_ENV 3)])
      (fmul (f32to64 (s.word R.KZ_SPE_K)) (fmax (fsqrt (mget s.est.p 0 0)) (fsqrt (mget s.est.p 1 1))))
    (s.haState ≠ 1 → Completes .cycleTick s fun t => ticked t
        ∧ t.cyc = if s.run = true ∧ ((s.isMaster = true ∧ (s.haState = 2 ∨ s.haState = 3)) ∨ s.isHead = true) then 1 else 0)
    ∧ (∀ c : CkSend, s.ha.ckSend = some c → s.nextTick < c.till → Completes .checkpointAbandon s fun t => ticked t ∧ t.ha.ckSend = none
        ∧ t.get F.SYS_CYC_CNT_CKPT_FAIL_CNT = inc F.SYS_CYC_CNT_CKPT_FAIL_CNT ∧ t.flag F.SYS_CYC_STAT_CKPT_FAIL = true)
    ∧ (s.isMaster = true → s.haState = 1 → s.ha.tdAt + 50000 ≤ s.nextTick → Completes .firstCycle s fun t => ticked t
        ∧ t.haState = (if s.flag F.HA_STAT_LINE_A || s.flag F.HA_STAT_LINE_B then 2 else 3) ∧ t.cyc = (if s.run then 1 else 0))
    ∧ (s.estOn = true → s.cyc = 1 → Completes .projectionPhase s fun t => t.now = max s.now s.atProj ∧ t.cyc = 2
        ∧ newJob t = some (7, 6, 1, 15, stampOf s.atEst))
    ∧ (s.estOn = true → s.cyc = 3 → (∀ j ∈ s.jobs.jobs, j.unit ≠ 2 ∧ j.unit ≠ 7) → Completes .estimatorStart s fun t =>
        t.now = max s.now s.atEst ∧ t.cyc = 4
        ∧ (s.est.inited = true → s.flag F.FE_EST_STAT_MDL_BAD = false → t.est.running = true ∧ t.est.timeUpd = true ∧ newJob t = some (1, 4, 1, 15, stampOf s.atSk))
        ∧ (s.est.inited = false → t.est = s.est ∧ t.jobs = s.jobs))
    ∧ (publishes → Completes .estimatePublish s shown)
    ∧ (publishes → s.kzUp = true → s.domOn 4 = true → s.flag F.KZ_AUTH_SPE_EN = true → s.flag F.SK_OUT_FL_ENV_VALID = true → s.get F.FE_EST_STAT_QUAL ≤ 2 →
        s.est.inited = true → flt (f32to64 (s.word R.KZ_SPE_RTRIP)) spe = true → max 1 (s.get F.KZ_AUTH_SPE_N) ≤ s.kz.speN + 1 →
        Completes .speTrip s fun t => shown t ∧ t.kzState = 3 ∧ t.get F.KZ_STAT_WHY = 3 ∧ t.flag F.KZ_FUNC_SPE_V = true)
    ∧ (s.estOn = true → s.trk.asReady = true → Completes .assignLaunch s fun t => t.now = max s.now s.atCkpt ∧ t.trk.asReady = false
        ∧ newJob t = some (3, 5, 2, 15, stampOf (s.t0 + s.tDp - s.get F.TRK_DL_GUARD_US * 1000)))
    ∧ (s.run = false → held.cycCheck = 0 → Completes (.runStart d) s fun t => t.run = true ∧ t.flag F.SYS_CYC_CTRL_CFGERR = false ∧ t.cyc = 0
        ∧ t.tDp = held.tDp ∧ (s.domOn 7 = true → t.est.inited = false ∧ t.get F.FE_EST_STAT_QUAL = 4 ∧ t.flag F.TRK_STAT_MODE = true))
    ∧ (s.run = false → held.cycCheck ≠ 0 → Completes (.runStart d) s fun t => t.run = false ∧ t.flag F.SYS_CYC_CTRL_CFGERR = true
        ∧ t.get F.SYS_CYC_CTRL_CFGWHY = held.cycCheck)
    ∧ (s.run = true → Completes (.runStop d) s fun t => t.run = false ∧ t.cyc = 0 ∧ t.est.running = false ∧ t.alc.running = false
        ∧ t.alc.staged = [] ∧ t.trk.asReady = false)
    ∧ (s.run = false → Completes (.runStop d) s fun t => t.run = false ∧ t.jobs = s.jobs ∧ t.est = s.est)

/-- DR_EXPIRE and QUALITY_UPGRADE: the tick at which a driving unit's snap judges the quality -/
def Obligations.QualitySteps : Prop :=
  ∀ s : State, s.domOn 7 = true →
    let q := s.get F.FE_EST_STAT_QUAL
    let raised (e : Nat) (t : State) : Prop := t.get (F.IC_CNT_COUNT e) = min 255 (s.get (F.IC_CNT_COUNT e) + 1)
    let tick := s.nextTick
    let held := s.commitShadow [R.FE_DRCFG]
    let lim := max 1 (held.get F.FE_DRCFG_DR_MAX) * 1000000000
    let qup := max 1 (held.get F.FE_DRCFG_QUP_N)
    let drOk : Bool := match s.est.drAt with
      | some a => decide (tick - a ≤ lim)
      | none => true
    let snaps := s.domOn 11 = true ∧ s.isMaster = true ∧ (s.haState = 2 ∨ s.haState = 3) ∧ s.run = true ∧ s.est.resetReq = false ∧ tick < 2 ^ 64
    let judged (t : State) : Prop :=
      let p := t.get F.FE_EST_STAT_PCLS
      let c := qualCond t.est.inited (t.flag F.FE_EST_STAT_MDL_BAD) (p % 2 + p / 2 % 2 + p / 4 % 2) (t.flag F.FE_EST_STAT_HDG) q drOk
      t.now = tick ∧ (q ≤ c ∨ qup ≤ s.est.upCnt + 1 → t.get F.FE_EST_STAT_QUAL = c ∧ t.est.upCnt = 0 ∧ t.get F.FE_EST_STAT_QUPCNT = 0)
        ∧ (c < q → s.est.upCnt + 1 < qup → t.est.upCnt = s.est.upCnt + 1
            ∧ t.get F.FE_EST_STAT_QUAL = (if q = 2 ∧ drOk = false then if t.flag F.FE_EST_STAT_HDG then 3 else 4 else q))
        ∧ (t.get F.FE_EST_STAT_QUAL ≠ q → raised 160 t)
    (∀ a, s.est.drAt = some a → q = 2 → lim < tick - a → snaps → Completes .drExpire s fun t => judged t ∧ t.get F.FE_EST_STAT_QUAL ≠ 2)
    ∧ (s.est.cond < q → s.est.upCnt + 1 = qup → snaps → Completes .qualityUpgrade s fun t => judged t ∧ t.est.upCnt = 0)

/-- The estimator's reset request, survey recording and runs, descriptor commits -/
def Obligations.EstimatorSurvey : Prop :=
  ∀ (s : State) (d : Dom) (v : Word), s.domOn 7 = true → d = .host ∨ d = .svc →
    let q := s.get F.FE_EST_STAT_QUAL
    let n := s.get F.FE_SURV_STAT_EPOCHS
    let k := v.toNat % 128
    Completes (.resetEst d) s (fun t => t.est = { s.est with resetReq := true } ∧ t.word R.FE_EST_CTRL = s.word R.FE_EST_CTRL)
    ∧ (s.flag F.FE_SURV_CTRL_REC = true → q ≤ 1 → s.flag F.FE_SURV_STAT_FULL = false → max 1 (s.get F.FE_SURV_CTRL_DECIM) ≤ s.surv.decim → n < 4096 →
        s.word R.FE_OUT_CYC = s.cycNum →
        Completes .surveyEpochStore s fun t => t.get F.FE_SURV_STAT_EPOCHS = n + 1 ∧ t.surv.decim = 0 ∧ t.flag F.FE_SURV_STAT_FULL = decide (n = 4095)
          ∧ ∀ a, a < s.survBuf + 4096 * n ∨ s.survBuf + 4096 * n + 4096 ≤ a → t.byte a = s.byte a)
    ∧ Completes (.surveyRecWrite d v) s (fun t => t.word R.FE_SURV_CTRL = v &&& 0x1FFFF
        ∧ (v.getLsbD 16 = true → s.flag F.FE_SURV_CTRL_REC = false → t.get F.FE_SURV_STAT_EPOCHS = 0 ∧ t.flag F.FE_SURV_STAT_FULL = false
            ∧ t.get F.FE_SURV_STAT_PSTATE = 0 ∧ t.flag F.FE_SURV_STAT_STALE_PROP = false ∧ t.surv.prop = [])
        ∧ (v.getLsbD 16 = false ∨ s.flag F.FE_SURV_CTRL_REC = true → t.surv = s.surv ∧ t.word R.FE_SURV_STAT = s.word R.FE_SURV_STAT))
    ∧ (s.surv.again = true → s.surv.runAt.isSome = true → s.surv.againCyc ≠ s.cycNum → Completes .surveyResubmit s fun t =>
        if s.slots 3 ≤ s.slotsUsed 3 ∨ s.guarded = true then t.surv.again = true ∧ t.jobs.jobs = s.jobs.jobs
        else t.surv.again = false ∧ ((t.jobs.jobs[s.jobs.jobs.length]?).map fun i => (i.unit, i.kind, i.cls, i.proc, i.hasDl)) = some (5, 2, 3, 15, false))
    ∧ (∀ a, s.surv.runAt = some a → a + 3000000000 < 2 ^ 64 → Completes .surveyTimeout s fun t => t.now = s.reached (a + 3000000000)
        ∧ t.get F.FE_SURV_STAT_PSTATE = 0 ∧ t.surv.runAt = none ∧ t.surv.again = false ∧ t.surv.prop = [])
    ∧ (k ≠ 0 → Completes (.fdCommitWrite d v) s fun t => (t.stream k).fdMark = true ∧ t.shadow = s.shadow
        ∧ (∀ i, i ≠ k → t.stream i = s.stream i)
        ∧ t.flag F.FE_SURV_STAT_STALE_PROP
          = (s.flag F.FE_SURV_STAT_STALE_PROP || (s.get F.FE_SURV_STAT_PSTATE == 1 || s.get F.FE_SURV_STAT_PSTATE == 2) && s.flag (F.FE_MN_CFG_SURV k)))

/-- FORCE_ASSIGN and enabling the tracker enter ASSIGN mode -/
def Obligations.TrackerModes : Prop :=
  ∀ (s : State) (d : Dom) (v : Word), s.domOn 7 = true → d = .host ∨ d = .svc →
    let raised (e : Nat) (t : State) : Prop := t.get (F.IC_CNT_COUNT e) = min 255 (s.get (F.IC_CNT_COUNT e) + 1)
    let c := s.shWord R.TRK_CTRL
    let entered (cause : Nat) (t : State) : Prop := t.flag F.TRK_STAT_MODE = true
      ∧ (s.flag F.TRK_STAT_MODE = false → t.get F.TRK_STAT_CAUSE = cause ∧ raised 162 t) ∧ (s.flag F.TRK_STAT_MODE = true → t.word R.TRK_STAT = s.word R.TRK_STAT)
    Completes (.forceAssign d) s (fun t => entered 5 t ∧ t.shWord R.TRK_CTRL = c ∧ t.word R.TRK_CTRL = s.word R.TRK_CTRL)
    ∧ (c.getLsbD 0 = false → Completes (.trackerEnable d v) s fun t => entered 1 t ∧ (t.shWord R.TRK_CTRL).getLsbD 0 = true ∧ t.word R.TRK_CTRL = s.word R.TRK_CTRL)
    ∧ (c.getLsbD 0 = true → Completes (.trackerEnable d v) s fun t => t.word R.TRK_STAT = s.word R.TRK_STAT ∧ (t.shWord R.TRK_CTRL).getLsbD 0 = true)

/-- TRACK_COAST_EXPIRE: the tracker's pass frees a track past COAST_MS, and a loss to half of HIGH enters ASSIGN mode -/
def Obligations.TrackCoasting : Prop :=
  ∀ (s : State) (j : Fin 64) (k : Job),
    let raised (e : Nat) (t : State) : Prop := t.get (F.IC_CNT_COUNT e) = min 255 (s.get (F.IC_CNT_COUNT e) + 1)
    s.jobs.jobs.find? (fun k => k.unit == 2 && k.status == 2 && k.abort.isNone) = some k → k.proc = 15 → s.flag F.TRK_CTRL_EN = true →
    s.coasted (stampOf s.t0) j.val = true → (∀ r ∈ s.est.rets, r.stream ≠ s.get (F.TK_ST_SRC j.val)) →
    Completes (.trackCoastExpire j) s fun t => t.get (F.TK_ST_STATE j.val) = 0 ∧ t.job k.ident = none
      ∧ t.get F.TRK_STAT_NCONF = ((List.range 64).filter t.tkConf).length
      ∧ (s.trk.passAssign = false → s.flag F.TRK_STAT_MODE = false →
          let enters := 1 ≤ t.get F.TRK_STAT_HIGH ∧ t.get F.TRK_STAT_NCONF ≤ t.get F.TRK_STAT_HIGH / 2
          (t.flag F.TRK_STAT_MODE = true ↔ enters) ∧ (enters → t.get F.TRK_STAT_CAUSE = 3 ∧ raised 162 t))

/-- Station-keeping: latched requests, the DP core's release taking, refusing and falling, and the joystick -/
def Obligations.StationKeeping : Prop :=
  ∀ (s : State) (d : Dom) (m : BitVec 3) (keep : Bool) (i : Fin 3) (v : Word), s.domOn 2 = true → d = .host ∨ d = .svc →
    let inc (f : Fld) : Nat := min (2 ^ f.w - 1) (s.get f + 1)
    let latched (r : SkReq) (t : State) : Prop := t.sk = { s.sk with req := some r }
      ∧ t.get F.SK_CNT_OVERWR = (if s.sk.req.isSome then inc F.SK_CNT_OVERWR else s.get F.SK_CNT_OVERWR)
    let due := s.sk.joyAt + s.get F.SK_TIME_JOY_TMO_MS * 1000000
    let rel := Instr.taskRelease 14
    let q := s.get F.FE_OUT_Q_QUAL
    let out (mode : Nat) (t : State) : Prop := t.skMode = mode ∧ t.get F.SK_OUT_FL_MODE = mode ∧ t.word R.SK_OUT_CYC = s.cycNum ∧ t.word R.SK_OUT_CYC2 = s.cycNum
      ∧ t.flag F.SK_OUT_FL_AUTH_REQ = decide (mode ≠ 0) ∧ t.sk.lastRel = s.t0
    let fell (mode : Nat) (t : State) : Prop := out mode t ∧ t.get F.SK_STAT_PREV = s.skMode ∧ t.flag F.SK_STAT_FALLBACK = true ∧ t.get F.SK_CNT_FALLS = inc F.SK_CNT_FALLS
    let runs := s.isMaster = true ∧ s.skRuns = true ∧ s.mayRelease 14 = true ∧ s.tState 14 ≤ 1 ∧ s.nextRelease 14 < 2 ^ 64
      ∧ (s.flag (F.BE_TCFG_BASE 14) = true → s.nextRelease 14 ≤ s.cycleDue 14)
    let still := q ≤ 1 ∧ s.skMode ≠ 4 ∧ s.skMode ≠ 5
    (m ≠ 7 → Completes (.skCmdMode d m keep) s (latched ⟨1, m.toNat, keep, false⟩))
    ∧ (m = 7 → Completes (.skCmdMode d m keep) s fun t => t = s)
    ∧ Completes (.skCmdStakeHere d) s (latched ⟨2, 0, false, false⟩)
    ∧ Completes (.skCmdMove d) s (latched ⟨3, 0, false, false⟩)
    ∧ Completes (.skCmdHaltMove d) s (latched ⟨4, 0, false, false⟩)
    ∧ (fisFin (f32to64 v) = true → Completes (.joystickWrite d i v) s fun t => t.word (R.SK_JOY i.val) = v ∧ t.flag F.SK_STAT_JOY_STALE = false
        ∧ t.sk.joyAt = s.now ∧ (s.flag F.SK_STAT_JOY_STALE = true → t.sk.joyRamp = some (s.sk.joy, s.now)))
    ∧ (fisFin (f32to64 v) = false → Completes (.joystickWrite d i v) s fun t => t = s)
    ∧ (s.flag F.SK_STAT_JOY_STALE = false → due < 2 ^ 64 → Completes .joystickTimeout s fun t => t.now = s.reached due ∧ t.flag F.SK_STAT_JOY_STALE = true
        ∧ t.sk.joyRamp = some (s.sk.joy, t.now))
    ∧ (runs → s.sk.req = none → s.skMode ≠ 4 → s.skMode ≠ 5 → q ≤ 1 → Completes rel s (out s.skMode))
    ∧ (runs → s.sk.req = none → 4 ≤ q → 2 ≤ s.skMode → Completes rel s (fell 1))
    ∧ (runs → s.sk.req = none → q = 3 → 3 ≤ s.skMode → Completes rel s (fell 2))
    ∧ (runs → s.sk.req = none → q = 2 → s.skMode = 4 ∨ s.skMode = 5 → Completes rel s (fell 3))
    ∧ (∀ r, s.sk.req = some r → runs → still →
        (s.skCheck r ≠ 0 → Completes rel s fun t => out s.skMode t ∧ t.get F.SK_STAT_RES = s.skCheck r ∧ t.get F.SK_CNT_REFUSED = inc F.SK_CNT_REFUSED ∧ t.sk.req = none)
        ∧ (s.skCheck r = 0 → r.op = 1 → r.mode ≤ 6 → r.mode ≠ s.skMode → Completes rel s fun t => out r.mode t ∧ t.get F.SK_STAT_PREV = s.skMode
            ∧ t.get F.SK_STAT_RES = 0 ∧ t.sk.req = none ∧ t.sk.ref = s.pubPos)
        ∧ (s.skCheck r = 0 → r.op = 2 → s.skMode ≤ 2 → Completes rel s fun t => out s.skMode t ∧ t.get F.SK_STAT_RES = 0
            ∧ t.flag F.SK_STAT_STAKE_VALID = true ∧ t.sk.stake = s.pubPos ∧ t.sk.stakeDue = true))

/-- The allocation's commit mark, its chain's first pass, and the launches of a MASTER and a HEAD with their misses -/
def Obligations.AllocationAndLaunch : Prop :=
  ∀ (s : State) (d : Dom) (v : Word), s.domOn 6 = true → d = .host ∨ d = .svc → s.t0 + 2 * s.tDp < 2 ^ 64 → s.launchInstant < 2 ^ 64 →
    let inc (f : Fld) : Nat := min (2 ^ f.w - 1) (s.get f + 1)
    let k := v.toNat % 64
    let on := s.flag F.ALC_CTRL_EN = true
    let chain := s.drives = true ∧ 0 < s.cyc ∧ s.alc.running = false ∧ s.alc.stagedOk = false ∧ s.alc.launched = false
    let launched (t : State) : Prop := t.alc.previous = s.alc.staged ∧ t.alc.staged = [] ∧ t.alc.stagedOk = false ∧ t.alc.misses = 0
      ∧ t.alc.stopped = false ∧ t.alc.launched = true ∧ t.get F.SYS_CYC_CNT_OUT_MISS_CNT = s.get F.SYS_CYC_CNT_OUT_MISS_CNT
    let missed (t : State) : Prop := t.alc.previous = s.alc.previous ∧ t.alc.staged = [] ∧ t.alc.launched = true
      ∧ t.flag F.SYS_CYC_STAT_OUT_MISS = true ∧ t.get F.SYS_CYC_CNT_OUT_MISS_CNT = inc F.SYS_CYC_CNT_OUT_MISS_CNT
    let last := max 1 (s.get F.SYS_CYC_CTRL_MISS_MAX) ≤ s.alc.misses + 1
    let atM (t : State) : Prop := t.now = s.reached s.atLaunch
    let atH (t : State) : Prop := t.now = s.reached (s.atLaunch + s.get F.ZAL_TREE_LEVEL * 1000000) ∧ t.alc.envDone = true
    let head := s.isHead = true ∧ 0 < s.cyc ∧ s.alc.launched = false
    Completes (.alcCommitWrite d v) s (fun t => t = { s with alc := t.alc }
        ∧ t.alc = { s.alc with marks := if k = 63 then List.range 48 else if k < 48 then k :: s.alc.marks else s.alc.marks })
    ∧ (chain → s.alcShadow.flag F.ALC_CTRL_EN = true → Completes .qpLaunch s fun t => t.now = s.reached s.atQp ∧ t.alc.running = true ∧ t.alc.count = 1 ∧ t.alc.pass = 0
        ∧ t.alc.marks = [] ∧ (∀ i : Fin 5, t.alc.tau[i.val]? = some (s.get64 (R.SK_OUT_DEM i.val)) ∧ (i.val ∈ t.alc.dofs ↔ s.get F.SK_OUT_FL_DOF_ON / 2 ^ i.val % 2 = 1))
        ∧ t.flag F.SYS_CYC_STAT_DEM_OLD = (s.flag F.SYS_CYC_STAT_DEM_OLD || s.word R.SK_OUT_CYC != s.cycNum)
        ∧ ((t.jobs.jobs[s.jobs.jobs.length]?).map fun j => (j.unit, j.kind, j.cls, j.proc, j.conv, j.iters, j.deadline)) = some (6, 3, 1, 15, 1, 64, stampOf s.atQpDl))
    ∧ (chain → s.alcShadow.flag F.ALC_CTRL_EN = false → Completes .qpLaunch s fun t => t.now = s.reached s.atQp ∧ t.alc.running = false ∧ t.jobs = s.jobs)
    ∧ (s.launchAhead = true →
        (on → s.alc.stagedOk = true → Completes .commandLaunch s fun t => atM t ∧ launched t ∧ t.haState = s.haState ∧ t.alc.prevAuth = s.flag F.SK_OUT_FL_AUTH_REQ)
        ∧ (on → s.alc.stagedOk = false → ¬ last → Completes .commandLaunch s fun t => atM t ∧ missed t ∧ t.alc.misses = s.alc.misses + 1 ∧ t.haState = s.haState)
        ∧ (on → s.alc.stagedOk = false → last → s.haOn = true → Completes .outputMissDemote s fun t => atM t ∧ missed t ∧ t.alc.misses = 0 ∧ t.haState = 4 ∧ t.get F.HA_STAT_DEM_CAUSE = 2 ∧ t.cyc = 0)
        ∧ (¬ on → Completes .commandLaunch s fun t => atM t ∧ t.out = s.out ∧ t.alc = { s.alc with launched := true, misses := 0 }))
    ∧ (head →
        (on → s.alc.stagedOk = true → s.alc.accNow = true → Completes .headLaunch s fun t => atH t ∧ launched t)
        ∧ (on → s.alc.stagedOk = false → s.alc.stopped = false → ¬ last → Completes .headLaunch s fun t => atH t ∧ missed t ∧ t.alc.misses = s.alc.misses + 1 ∧ t.alc.stopped = false)
        ∧ (on → s.alc.stagedOk = false → s.alc.stopped = false → last → Completes .headStop s fun t => atH t ∧ missed t ∧ t.alc.misses = s.alc.misses + 1 ∧ t.alc.stopped = true)
        ∧ (on → s.alc.stagedOk = false → s.alc.stopped = true → Completes .headLaunch s fun t => atH t ∧ t.alc.stopped = true ∧ t.alc.misses = s.alc.misses
            ∧ t.flag F.SYS_CYC_STAT_OUT_MISS = true ∧ t.alc.launched = true))

/-- Jobs: submission, dispatch, check points, resumption, completion records, delays, deadlines and aborts -/
def Obligations.JobsAndRecords : Prop :=
  ∀ (s : State) (d : Dom) (x : Fin 11) (v : Word) (i corr : Nat) (c : CheckPoint) (ecc : Bool),
    s.domOn 6 = true →
    let a := v.toNat + 2 ^ 32 * s.get (F.JF_SUBH_ADDR_HI x.val)
    let w (n : Nat) : Nat := s.ld (a + 4 * n) 4
    let adr (n : Nat) : Nat := w n + 2 ^ 32 * (w (n + 1) % 256)
    let cls := w 0 / 16 % 4
    let good := descReserved w = true ∧ kindLimits (w 0 % 16) (w 1 % 65536) (w 1 / 65536) (w 3) = true ∧ maySubmit d cls = true ∧ w 0 / 1024 % 2 = 0
      ∧ w 0 / 64 % 4 ≠ 3 ∧ (∀ n ∈ [8, 10], adr n % 8 = 0 ∧ s.inSramOrDram (adr n) 8 = true) ∧ (w 0 / 512 % 2 = 1 → adr 12 % 8 = 0 ∧ s.inSramOrDram (adr 12) 8 = true)
      ∧ adr 14 % 32 = 0 ∧ s.inSramOrDram (adr 14) 32 = true
    let admits := s.slotsUsed cls < s.slots cls ∧ ∀ k ∈ s.jobs.jobs, k.cls = cls → k.status ≠ 0
    let software (j : Job) : Prop := j.proc ≤ 10 ∧ j.kind < 8 ∧ j.cls < 4 ∧ j.irq = false
    let ended (j : Job) (st r : Nat) (t : State) : Prop := t.job j.ident = none
      ∧ (software j → (∀ n < 4, ¬ s.BookMem (j.recAddr + n)) → t.ld j.recAddr 4 = j.tag % 65536 + 2 ^ 16 * j.kind + 2 ^ 20 * j.cls + 2 ^ 24 * st + 2 ^ 27 * r + 2 ^ 31)
    let due (j : Job) : Nat := (s.full j.deadline + 1).toNat
    (d = subDom x.val →
      (v.toNat % 64 ≠ 0 ∨ s.inSramOrDram a 64 = false → Completes (.jobSubmit d x v) s fun t => t.get (F.JF_SUBRES_RESULT x.val) = 3 ∧ t.jobs = s.jobs)
      ∧ (v.toNat % 64 = 0 → s.inSramOrDram a 64 = true → s.classFull cls = true → Completes (.jobSubmit d x v) s fun t =>
          t.jobs = { s.jobs with held := s.jobs.held ++ [.bus x.val a] } ∧ t.get F.JF_CNT1_HOLD = min (2 ^ F.JF_CNT1_HOLD.w - 1) (s.get F.JF_CNT1_HOLD + 1))
      ∧ (v.toNat % 64 = 0 → s.inSramOrDram a 64 = true → s.classFull cls = false → good → cls ≠ 3 → Completes (.jobSubmit d x v) s fun t =>
          (t.jobs.jobs[s.jobs.jobs.length]?).map (fun j => ((j.ident, j.proc, j.unit, j.tag, j.kind, j.cls), (j.recAddr, j.inAddr, j.outAddr, j.hasDl, j.deadline, j.dimN, j.dimM), j.status == 1))
            = some ((s.jobs.nextId, x.val, 0, w 0 / 2 ^ 16, w 0 % 16, cls), (adr 14, adr 8, adr 10, true, BitVec.ofNat 48 (w 4 + 2 ^ 32 * (w 5 % 65536)), w 1 % 65536, w 1 / 65536), decide admits)
          ∧ t.word (R.JF_SUBRES x.val) = BitVec.ofNat 32 ((if admits then 0 else 1) + 2 ^ 16 * (w 0 / 2 ^ 16))))
    ∧ (d ≠ subDom x.val → Completes (.jobSubmit d x v) s fun t => t = s)
    ∧ (∀ h, s.jobs.held.find? s.heldFits = some h → Completes .submitHoldRelease s fun t => t.jobs.held = s.jobs.held.erase h
        ∧ ∀ j, h = .port j → j.cls ≠ 3 → (t.jobs.jobs[s.jobs.jobs.length]?).map (fun k => (k.ident, k.unit, k.prob, decide (k.status ≤ 1))) = some (s.jobs.nextId, j.unit, j.prob, true))
    ∧ (∀ j, s.firstJob ((s.waiting 0).filter fun k => !s.tooLate k) = some j → s.JobsNumbered → ∀ l, s.lanesFor j = some l → Completes .jobDispatch s fun t =>
        (t.job j.ident).map (fun k => (k.status, k.lanes, k.sinceAt, k.firstAt)) = some (2, l, s.now, some (j.firstAt.getD s.now)))
    ∧ (∀ j, s.job i = some j →
        (j.status = 2 → j.iterates = true → j.ending = none → j.nextIs c.panel = true →
          let cp := Instr.jobCheckPoint i c
          let outc (e : Option (Nat × Nat)) (t : State) : Prop := (t.job i).map (·.ending) = some e
          let j' := s.sparseRead j
          let g := (j'.work c.panel).1
          let conv := (g.converged (j'.work c.panel).2).1
          let hit := c.ecc = true ∧ j.kind ≠ 2
          let fine := ¬ hit ∧ j.abort ≠ some 3 ∧ j'.prob.nonfinite = false
          (hit → Completes cp s (outc (some (5, 5))))
          ∧ (¬ hit → j.abort = some 3 → Completes cp s (outc (some (5, 3))))
          ∧ (¬ hit → j.abort ≠ some 3 → j'.prob.nonfinite = true → Completes cp s (outc (some (5, 4))))
          ∧ (fine → conv = true → Completes cp s (outc (some (0, 0))))
          ∧ (fine → conv = false → s.late j = true → Completes cp s (outc (some (if c.panel then 2 else 1, 0))))
          ∧ (∀ r, j.abort = some r → fine → conv = false → s.late j = false → Completes cp s (outc (some (5, r))))
          ∧ (j.abort = none → fine → conv = false → s.late j = false → Completes cp s fun t => outc none t
              ∧ (t.job i).map (fun k => (k.done, k.best, k.sol, k.status)) = some (g.done, g.best, g.sol, if s.mustYield j then 3 else 2)))
        ∧ (j.status = 3 → (if j.ganged then s.freeLanes.length = 4 else ∀ l ∈ j.lanes, l ∈ s.freeLanes) → (∀ k ∈ s.waiting 0, j.cls ≤ k.cls) →
            let at' := (j.lanes.map fun g => s.jobs.idleAt.getD g 0).foldl max 0 + max 1 (s.get F.JF_RESUME_IDLE_US) * 1000
            let u := s.advanceTo at'
            at' < 2 ^ 64 → Completes (.jobResume i corr ecc) s fun t => t.now = s.reached at'
              ∧ (u.tooLate j = false → ecc = false ∨ j.kind = 2 → (t.job i).map (fun k => (k.status, k.lanes, k.sol, k.sinceAt)) = some (2, j.lanes, j.sol, t.now))
              ∧ (u.tooLate j = true → ecc = false ∨ j.kind = 2 → ended j (if j.atPanel then 2 else 1) 0 t)
              ∧ (ecc = true → j.kind ≠ 2 → ended j 5 5 t))
        ∧ (software j →
            (j.status = 2 → j.iterates = true → ∀ e, j.ending = some e → e.1 < 8 → e.2 < 16 → Completes (.jobComplete i corr ecc) s (ended j e.1 e.2))
            ∧ (j.status = 2 → j.kind = 4 →
                Completes (.jobComplete i corr true) s (ended j 5 5)
                ∧ (∀ r, j.abort = some r → r < 16 → Completes (.jobComplete i corr false) s (ended j 5 r))
                ∧ (j.abort = none → s.late j = true → Completes (.jobComplete i corr false) s (ended j 5 2))
                ∧ (j.abort = none → s.late j = false → j.prob.nonfinite = true → Completes (.jobComplete i corr false) s (ended j 5 4))
                ∧ (j.abort = none → s.late j = false → j.prob.nonfinite = false → Completes (.jobComplete i corr false) s (ended j 0 0))
                ∧ (j.hasDl = true → due j < 2 ^ 64 → Completes (.kfDeadlineAbort i) s fun t => ended j 5 (if j.abort = some 3 then 3 else 2) t ∧ t.now = s.reached (due j)))
            ∧ (j.hasDl = true → j.kind ≠ 6 → j.kind ≠ 7 → due j < 2 ^ 64 →
                (j.status < 2 → j.kind ≠ 4 → Completes (.jobDelayed i corr ecc) s fun t => ended j 3 0 t ∧ t.now = s.reached (due j))
                ∧ (j.status < 2 → j.kind = 4 → Completes (.jobDelayed i corr ecc) s fun t => ended j 5 2 t ∧ t.now = s.reached (due j))
                ∧ (j.status = 3 → Completes (.jobDelayed i corr ecc) s fun t => t.now = s.reached (due j)
                    ∧ (if ecc = true ∧ j.kind ≠ 2 then ended j 5 5 t else ended j (if j.atPanel then 2 else 1) 0 t)))))
    ∧ (d = .host ∨ d = .svc →
        let named := s.jobs.jobs.find? fun j => j.proc == F.JF_ABORT_PROC.of v && j.tag == F.JF_ABORT_TAG.of v && j.proc != 15
        (named = none → Completes (.jobAbort d v corr ecc) s fun t => t.get F.JF_ABRES_RESULT = 3 ∧ t.jobs = s.jobs)
        ∧ (∀ j, named = some j →
            (mayAbort d j.proc j.cls = false → Completes (.jobAbort d v corr ecc) s fun t => t = s)
            ∧ (mayAbort d j.proc j.cls = true →
                (j.status ≠ 2 → software j → Completes (.jobAbort d v corr ecc) s fun t => t.get F.JF_ABRES_RESULT = 1
                    ∧ ended j 5 (if j.status = 3 ∧ ecc = true ∧ j.kind ≠ 2 then 5 else 1) t)
                ∧ (j.status = 2 → j.iterates = true → Completes (.jobAbort d v corr ecc) s fun t => t.get F.JF_ABRES_RESULT = 2 ∧ (t.job j.ident).bind (·.abort) = some 1)
                ∧ (j.status = 2 → j.iterates = false → Completes (.jobAbort d v corr ecc) s fun t => t.get F.JF_ABRES_RESULT = 3 ∧ t.jobs = s.jobs))))

/-- CAN controllers: enabling, column openings and slots, attempts and their ends, received frames, cancellation, references, bus-off -/
def Obligations.CanControllers : Prop :=
  ∀ (s : State) (d : Dom) (c : Fin 4) (v : Word) (idle ago dur : Nat) (b : Fin 64) (ident : BitVec 29) (ide dominant : Bool) (data : List Byte) (dlc : Fin 16),
    s.domOn 12 = true → d = .host ∨ d = .svc →
    let n := c.val
    let x := s.canC n
    let inc (f : Fld) : Nat := min (2 ^ f.w - 1) (s.get f + 1)
    let set := s.setWord (R.CAN_CFG n) (v &&& 0x7FFE)
    let on := s.flag (F.CAN_CFG_EN n) = true
    let hears := s.canHears n = true
    let st := s.stampAgo ago
    let rec' := s.get (F.CAN_STAT_REC n)
    let heard (t : State) : Prop := t.get (F.CAN_STAT_REC n) = if 128 ≤ rec' then 127 else rec' - 1
    let target (k : Nat) (ide : Bool) : Option Nat := (List.range 64).find? fun b => s.canMatch n b k ide
    let stored (b : Nat) (t : State) : Prop := t.get (F.CAN_BST_CODE n b) = (if b ∈ x.unread then 11 else 10) ∧ b ∈ (t.canC n).unread
      ∧ t.word (R.CAN_BSTAMPL n b) = BitVec.ofNat 32 st.toNat ∧ t.word (R.CAN_BSTAMPH n b) = BitVec.ofNat 32 (st.toNat / 2 ^ 32)
    let slot (b win : Nat) (r : Option Nat) (at' : Nat) (t : State) : Prop := t.get (F.CAN_BST_CODE n b) = 1
      ∧ (t.canC n).slot = some ⟨b, win, 0, if s.canMode n ≠ 1 ∧ at' + idle + s.canFt n b ≤ win then some (at' + idle) else none, none, 0, false, r⟩
    let fin' (b code : Nat) (window : Bool) (t : State) : Prop := (t.canC n).slot = none ∧ t.get (F.CAN_BST_CODE n b) = code ∧ t.flag (F.CAN_BST_ENDBY n b) = window
    let tecUp (t : State) : Prop := s.get (F.CAN_STAT_TEC n) < 248 → t.get (F.CAN_STAT_TEC n) = s.get (F.CAN_STAT_TEC n) + 8
    (s.flag (F.CAN_CFG_EN n) = false →
        (set.canCheck n = true → Completes (.canEnable d c v) s fun t => t.word (R.CAN_CFG n) = (v &&& 0x7FFE) ||| 1 ∧ t.flag (F.CAN_STAT_CFGERR n) = false
          ∧ (t.canC n).slot = none ∧ (t.canC n).evReq = []
          ∧ (s.canOff n = false → t.get (F.CAN_STAT_TEC n) = 0 ∧ t.get (F.CAN_STAT_REC n) = 0 ∧ t.get (F.CAN_STAT_ESTATE n) = 0)
          ∧ t.out = if set.canN2k n = true ∧ set.canMode n = 0 ∧ s.canOff n = false then
                .can n (pgnId 59904 255 (t.canC n).sa) true false false false [0, 0xEE, 0] :: .can n (pgnId 60928 255 (t.canC n).sa) true false false false s.ownName :: s.out else s.out)
        ∧ (set.canCheck n = false → Completes (.canEnable d c v) s fun t => t.flag (F.CAN_CFG_EN n) = false ∧ t.flag (F.CAN_STAT_CFGERR n) = true ∧ t.out = s.out))
    ∧ (on → Completes (.canEnable d c v) s fun t => t = s)
    ∧ (∀ p, s.canNext n = some p → on → s.canOff n = false → x.slot = none → p.1 < 2 ^ 64 → s.canRef n ≠ 2 ∨ s.flag (F.CAN_STAT_REF_LOST n) = false →
        let win := p.2.2.2
        let cell := s.canCell n p.2.1 p.2.2.1 p.1
        let at' := s.reached p.1
        let refCol := s.canRef n = 1 ∧ p.2.2.1 = 0
        let open' := Instr.canColumnOpen c idle
        (refCol → s.canTx n (s.get (F.CAN_CFG_REF_BUF n)) = true → Completes open' s fun t => t.now = at' ∧ slot (s.get (F.CAN_CFG_REF_BUF n)) win (some p.2.1) at' t)
        ∧ (¬ refCol → 128 ≤ cell → s.canTx n (cell % 64) = true → Completes open' s fun t => t.now = at' ∧ slot (cell % 64) win none at' t ∧ (t.canC n).evReq = x.evReq)
        ∧ (∀ e l, x.evReq = e :: l → ¬ refCol → cell < 128 → s.canTx n e = true → Completes open' s fun t => t.now = at' ∧ slot e win none at' t ∧ (t.canC n).evReq = l))
    ∧ (hears →
        (∀ k, target ident.toNat ide = some k → Completes (.canFrameReceive c ident ide false data ago) s fun t => heard t ∧ stored k t
          ∧ t.flag (F.CAN_STAT_LONELY n) = false ∧ t.get (F.CAN_BCFG_DLC n k) = min 8 data.length
          ∧ ∀ i < 2, 4 * i < data.length → t.word (R.CAN_BDATA n k i) = BitVec.ofNat 32 (leNat (((data.take 8).drop (4 * i)).take 4)))
        ∧ (target ident.toNat ide = none → Completes (.canFrameReceive c ident ide false data ago) s fun t => heard t ∧ t.get (F.CAN_CNT_NOMATCH n) = inc (F.CAN_CNT_NOMATCH n))
        ∧ (∀ k, target ident.toNat ide = some k → Completes (.canRemoteFrameReceive c ident ide dlc ago) s fun t => heard t ∧ stored k t
          ∧ t.flag (F.CAN_STAT_LONELY n) = s.flag (F.CAN_STAT_LONELY n) ∧ t.get (F.CAN_BCFG_DLC n k) = dlc.val ∧ ∀ i < 16, t.word (R.CAN_BDATA n k i) = s.word (R.CAN_BDATA n k i))
        ∧ (s.canRef n = 2 → Completes (.referenceFrameReceive c data ago) s fun t => t.flag (F.CAN_STAT_REF_LOST n) = false
            ∧ (t.canC n).refRow = some (data.headD 0).toNat ∧ (t.canC n).refAt = s.now - ago)
        ∧ Completes (.canBusError c dominant) s (fun t => t.get (F.CAN_CNT_BUSERR n) = inc (F.CAN_CNT_BUSERR n)
            ∧ t.get (F.CAN_STAT_REC n) = min 128 (rec' + if dominant then 8 else 1)
            ∧ t.get (F.CAN_STAT_ESTATE n) = if 128 ≤ s.get (F.CAN_STAT_TEC n) ∨ 128 ≤ t.get (F.CAN_STAT_REC n) then 1 else 0))
    ∧ Completes (.canRxStatusRead c b) s (fun t => b.val ∉ (t.canC n).unread ∧ ∀ k, k ≠ b.val → (k ∈ (t.canC n).unread ↔ k ∈ x.unread))
    ∧ (∀ w, x.slot = some w → on → w.late = false →
        let wide := s.flag (F.CAN_BCFG_IDE n w.buf) || s.canN2k n
        let fails (code : Nat) (t : State) : Prop :=
          if s.get (F.CAN_SCH_RETRY_MAX n) < w.tries + 1 then fin' w.buf code false t
          else if w.winEnd < w.sof.getD 0 + dur + s.canFt n w.buf then fin' w.buf code true t
          else (t.canC n).slot.map (fun y => (y.buf, y.tries)) = some (w.buf, w.tries + 1)
        (∀ t0, w.sof = some t0 → t0 + dur < 2 ^ 64 →
          (s.canMode n ≠ 2 → Completes (.canAttemptEnd c dur 0) s fun t => t.now = s.reached (t0 + dur) ∧ fin' w.buf 2 false t
            ∧ t.get (F.CAN_STAT_TEC n) = s.get (F.CAN_STAT_TEC n) - 1 ∧ t.flag (F.CAN_STAT_LONELY n) = false
            ∧ t.word (R.CAN_BSTAMPL n w.buf) = BitVec.ofNat 32 t0
            ∧ ∃ esi, t.out = .can n (if wide then s.get (F.CAN_BID_ID n w.buf) else s.get (F.CAN_BID_ID n w.buf) % 2048) wide (s.canFd n w.buf)
                (s.canFd n w.buf && s.flag (F.CAN_BCFG_BRS n w.buf)) esi (w.copy.getD (s.canPayload n w.buf w.refRow)) :: s.out)
          ∧ (s.canMode n = 2 → Completes (.canAttemptEnd c dur 0) s fun t => t.out = s.out ∧ (t.canC n).slot = none
            ∧ ∀ k, target (if wide then s.get (F.CAN_BID_ID n w.buf) else s.get (F.CAN_BID_ID n w.buf) % 2048) wide = some k → 10 ≤ t.get (F.CAN_BST_CODE n k) ∧ k ∈ (t.canC n).unread)
          ∧ (s.canOff n = false → s.get (F.CAN_STAT_TEC n) < 248 →
            Completes (.canAttemptEnd c dur 1) s (fun t => t.now = s.reached (t0 + dur) ∧ fails 7 t ∧ t.get (F.CAN_CNT_ACKERR n) = inc (F.CAN_CNT_ACKERR n)
                ∧ (s.get (F.CAN_STAT_ESTATE n) ≠ 1 → tecUp t) ∧ (s.get (F.CAN_STAT_ESTATE n) = 1 → t.get (F.CAN_STAT_TEC n) = s.get (F.CAN_STAT_TEC n))
                ∧ (x.ackRun = 15 → t.flag (F.CAN_STAT_LONELY n) = true))
            ∧ Completes (.canAttemptEnd c dur 2) s (fun t => fails 5 t ∧ t.get (F.CAN_STAT_TEC n) = s.get (F.CAN_STAT_TEC n))
            ∧ Completes (.canAttemptEnd c dur 3) s (fun t => fails 6 t ∧ tecUp t ∧ t.get (F.CAN_CNT_BUSERR n) = inc (F.CAN_CNT_BUSERR n)))
          ∧ (248 ≤ s.get (F.CAN_STAT_TEC n) → s.canOff n = false → Completes (.canAttemptEnd c dur 3) s fun t => fin' w.buf 9 true t ∧ t.canOff n = true
              ∧ t.get (F.CAN_CNT_BUSOFF n) = inc (F.CAN_CNT_BUSOFF n) ∧ t.get (F.IC_CNT_COUNT (260 + n)) = min 255 (s.get (F.IC_CNT_COUNT (260 + n)) + 1)))
        ∧ (w.sof = none → w.winEnd < 2 ^ 64 → Completes (.canAttemptEnd c dur 4) s fun t => t.now = s.reached (w.winEnd - s.canFt n w.buf) ∧ fin' w.buf (failCode w.fail) true t)
        ∧ (w.buf = b.val → b.val ∉ x.evReq →
            (∀ t0, w.sof = some t0 → 2 * t0 + s.canSample n ≤ 2 * s.now → Completes (.canCancel d c b) s fun t => (t.canC n).slot.map (fun y => (y.buf, y.late)) = some (b.val, true))
            ∧ ((∀ t0, w.sof = some t0 → 2 * s.now < 2 * t0 + s.canSample n) → Completes (.canCancel d c b) s (fin' b.val 4 false))))
    ∧ (on → s.canTx n b.val = true → s.flag (F.CAN_BCFG_EVT n b.val) = true → b.val ∉ x.evReq → Completes (.canTxreq d c b) s fun t =>
        (t.canC n).evReq = x.evReq ++ [b.val] ∧ t.get (F.CAN_BST_CODE n b.val) = 1)
    ∧ (x.slot = none → b.val ∈ x.evReq → Completes (.canCancel d c b) s fun t => b.val ∉ (t.canC n).evReq ∧ t.get (F.CAN_BST_CODE n b.val) = 4)
    ∧ (on → s.canOff n = true → x.recover = true ∨ s.flag (F.CAN_CFG_AUTO_REC n) = true → s.now + 704 * s.canBit n < 2 ^ 64 → Completes (.busOffRecovery c) s fun t =>
        t.now = s.reached (s.now + 704 * s.canBit n) ∧ t.get (F.CAN_STAT_TEC n) = 0 ∧ t.get (F.CAN_STAT_REC n) = 0 ∧ t.get (F.CAN_STAT_ESTATE n) = 0)
    ∧ (let due := x.refAt + 2 * s.get (F.CAN_SCH_BC_US n) * 1000
       on → s.canRef n = 2 → s.flag (F.CAN_STAT_REF_LOST n) = false → due < 2 ^ 64 → Completes (.refLost c) s fun t => t.now = s.reached due
        ∧ t.flag (F.CAN_STAT_REF_LOST n) = true ∧ (t.canC n).refRow = none)

/-- Clock supervision, domain requests, DEEP, the watchdog, every reset and what it keeps, the partner's reset pulse, scrubbing -/
def Obligations.PowerClocksResets : Prop :=
  ∀ (s : State) (d : Dom) (v : Word) (edges ns : Nat) (src : Fin 3) (corrected : Bool),
    let inc (f : Fld) : Nat := min (2 ^ f.w - 1) (s.get f + 1)
    let raised (e : Nat) (t : State) : Prop := t.get (F.IC_CNT_COUNT e) = min 255 (s.get (F.IC_CNT_COUNT e) + 1)
    let live := s.domOn 1 = true
    let key := v.toNat / 65536 = 0x5AFE ∧ v.getLsbD 0 = true
    let old := s.get F.PWR_DOM_REQ_REQ
    let new := v.toNat % 2 ^ 14
    let bit (x k : Nat) : Bool := x / 2 ^ k % 2 == 1
    let taken := ∀ k < 14, bit old k ≠ bit new k → domWriters k d = true ∧ (if bit new k then s.mayOn k new else s.mayOff k new) = true
    let wasReset (k : ResetKind) (t : State) : Prop :=
      t.pwr.inReset = some k ∧ t.pwr.stage = .held ∧ t.time.wdog = none ∧ t.get F.RST_CAUSE_LAST = k.code ∧ bit (t.get F.RST_CAUSE_SEEN) k.code = true
      ∧ t.kz = State.reset.kz ∧ t.jobs = State.reset.jobs ∧ t.be = State.reset.be ∧ t.net = State.reset.net ∧ t.get F.PWR_DOM_STAT_ON = 0
      ∧ (∀ a r, regDesc a = some r → r.clsA = 0 → r.clsS = 0 → r.clsO = 0 → t.word a = resetWord a)
      ∧ (k ≠ .powerOn → ∀ a r, regDesc a = some r → r.clsA = allBits → a ≠ R.RST_CAUSE → a ≠ R.REC_STAT → t.word a = s.word a)
      ∧ (∀ a, t.byte a = if k = .powerOn ∨ k = .brownOut ∨ (k = .deepWake ∧ a < 0x100000000) then 0 else s.byte a)
    let run' := s.pwr.inReset = none
    (s.now + 10000 < 2 ^ 64 →
      (90 ≤ edges → edges ≤ 110 → Completes (.refclkWindow edges) s fun t => t.now = s.now + 10000 ∧ t.pwr.goodWin = s.pwr.goodWin + 1
        ∧ t.flag F.CLK_STAT_REF_BAD = (s.flag F.CLK_STAT_REF_BAD && decide (s.pwr.goodWin + 1 < 100)))
      ∧ (edges < 90 ∨ 110 < edges → Completes (.refclkWindow edges) s fun t => t.now = (if edges = 0 ∧ s.domOn 11 = false then s.now else s.now + 10000) ∧ t.pwr.goodWin = 0 ∧ t.flag F.CLK_STAT_REF_BAD = true
        ∧ t.pwr.refRuns = decide (0 < edges) ∧ (s.flag F.CLK_STAT_REF_BAD = false → t.get F.CLK_STAT_REF_LOSS_CNT = inc F.CLK_STAT_REF_LOSS_CNT ∧ raised 21 t)))
    ∧ (196000 ≤ edges → edges ≤ 204000 → Completes (.safeOscWindow edges) s fun t => t = s)
    ∧ (edges < 196000 ∨ 204000 < edges → Completes (.safeOscWindow edges) s fun t => t.flag F.CLK_STAT_SOSC_BAD = true ∧ (s.flag F.CLK_STAT_SOSC_BAD = false → raised 22 t))
    ∧ (live → d = .host ∨ d = .svc ∨ d = .safe →
        (taken → Completes (.domainPowerRequest d v) s fun t => t.get F.PWR_DOM_REQ_REQ = new ∧ t.flag F.PWR_STAT_REFUSED = s.flag F.PWR_STAT_REFUSED
          ∧ ∀ k < 14, bit old k ≠ bit new k → (bit new k = false → t.domOn k = false ∧ k ∉ t.pwr.rising.map (·.1))
            ∧ (bit new k = true → s.domOn k = true ∨ k ∈ s.pwr.rising.map (·.1) ∨ (k, s.now + if k = 13 then 400000 else 20000) ∈ t.pwr.rising))
        ∧ (¬ taken → Completes (.domainPowerRequest d v) s fun t => t.get F.PWR_DOM_REQ_REQ = old ∧ t.pwr = s.pwr ∧ t.flag F.PWR_STAT_REFUSED = true
          ∧ (s.flag F.PWR_STAT_REFUSED = false → raised 23 t)))
    ∧ (run' →
        Completes .powerOnReset s (fun t => wasReset .powerOn t ∧ t.now = 0)
        ∧ Completes .brownOutReset s (fun t => wasReset .brownOut t ∧ t.now = s.now)
        ∧ (100 ≤ ns → Completes (.pinReset ns) s fun t => wasReset .pin t ∧ t.now = s.now)
        ∧ (100 ≤ ns → s.isMaster = true → s.flag F.HA_CFG_PAIR_EN = true → Completes (.partnerForcedReset ns) s (wasReset .partner))
        ∧ (∀ left, s.time.wdog = some left → (s.proc 0).doze = false → s.now + left < 2 ^ 64 → Completes .watchdogExpire s fun t => wasReset .watchdog t ∧ t.now = s.reached (s.now + left))
        ∧ (live → s.time.wdog.isSome = true → v ≠ 0x5AFE → Completes (.watchdogKick .svc v) s (wasReset .watchdog))
        ∧ (live → key → Completes (.softReset .svc v) s (wasReset .soft))
        ∧ (s.pwr.deep = true → (src = 0 ∧ s.flag F.PWR_WAKE_WAKE_PIN = true) ∨ (src = 1 ∧ s.flag F.PWR_WAKE_WAKE_CS = true) ∨ (src = 2 ∧ s.flag F.PWR_WAKE_WAKE_AT = true ∧ s.timeRuns = true) →
            Completes (.deepWake src) s (wasReset .deepWake)))
    ∧ (ns < 100 → Completes (.pinReset ns) s (fun t => t = s) ∧ Completes (.partnerForcedReset ns) s (fun t => t = s))
    ∧ (live → s.time.wdog.isSome = true → Completes (.watchdogKick .svc 0x5AFE) s fun t => t.time.wdog = some (max 1 (s.get F.RST_WDOG_WD_MS) * 1000000) ∧ t.regs = s.regs)
    ∧ (live → v.toNat / 65536 ≠ 0x5AFE → Completes (.softReset .svc v) s fun t => t.pwr = s.pwr ∧ t.get F.SYS_KEYERR_COUNT = inc F.SYS_KEYERR_COUNT)
    ∧ (live → key → d = .host ∨ d = .svc →
        (let ps := s.get F.HA_STAT_PSTATE
         s.isMaster = true → s.flag F.HA_CFG_PAIR_EN = true → s.haState = 2 ∨ s.haState = 3 → ps = 0 ∨ ps = 7 → Completes (.partnerReset d v) s fun t =>
          t.pwr.prst = true ∧ t.out = .pin 3 0 0 :: s.out ∧ t.regs = s.regs)
        ∧ (let idle := s.run = false ∧ s.get F.KZ_STAT_STATE ≠ 1 ∧ s.get F.KZ_STAT_STATE ≠ 2 ∧ ¬ (1 ≤ s.haState ∧ s.haState ≤ 3)
            ∧ (s.flag F.PWR_WAKE_WAKE_PIN = true ∨ s.flag F.PWR_WAKE_WAKE_CS = true ∨ s.flag F.PWR_WAKE_WAKE_AT = true)
           (idle → Completes (.deepEntry d v) s fun t => t.pwr.deep = true ∧ t.time.wdog = none ∧ ∀ k < 14, 1 ≤ k → t.domOn k = false)
           ∧ (¬ idle → Completes (.deepEntry d v) s fun t => t.pwr = s.pwr ∧ t.flag F.PWR_STAT_REFUSED = true)))
    ∧ (s.pwr.prst = true → s.now + 100000 < 2 ^ 64 → Completes .prstOutPulseEnd s fun t => t.now = s.reached (s.now + 100000) ∧ t.pwr.prst = false ∧ t.out = .pin 3 0 1 :: s.out)
    ∧ (s.domOn 13 = true → 0 < s.dramBytes → s.scrubNext < 2 ^ 64 → Completes (.scrubBurst corrected) s fun t => t.mem = s.mem ∧ t.now = s.reached s.scrubNext
        ∧ (∀ t0, s.scrub.last = some t0 → s.timeRuns = true → t0 + 1000 ≤ t.now) ∧
        (if (s.scrub.pos + 1) * 64 < s.dramBytes then t.scrub.pos = s.scrub.pos + 1 ∧ t.flag F.SYS_SCRUB_PASS = s.flag F.SYS_SCRUB_PASS
         else t.scrub.pos = 0 ∧ t.flag F.SYS_SCRUB_PASS = !s.flag F.SYS_SCRUB_PASS))
    ∧ (s.now + 1000000 < 2 ^ 64 → Completes .scrubCapApply s fun t => t.now = s.reached ((s.now / 1000000 + 1) * 1000000) ∧ t.scrub.cap = s.get F.SYS_SCRUB_CAP)

/-- Boot from the release of a reset to GOOD, a domain reaching ON, and the ends of the image, OTP and self-test operations -/
def Obligations.BootAndImages : Prop :=
  ∀ (s : State) (straps : BitVec 2) (vpp fw1 fw2 : Bool) (us : Fin 3001) (img : ImageCfg) (d : Fin 14) (read : List Byte) (rev : Byte) (fail : BitVec 16) (k : Fin 2),
    let b := s.cfgBlock
    let hdr := storeRange 0xFF s.nvm.flash (0x1000000 * k.val) 256
    let why := s.verifyImage s.nvm.flash (0x1000000 * k.val) fw1 fw2
    let fl (t : State) (a : Nat) : Byte := mapGet (fun _ => 0xFF) a t.nvm.flash
    let otp (t : State) (a : Nat) : Byte := mapGet (fun _ => 0) a t.nvm.otp
    (s.pwr.stage = .held → s.pwr.deep = false → let t0 := s.reached (s.pwr.heldAt + 10000); t0 + 250000 < 2 ^ 64 → Completes (.bootStart straps vpp) s fun t =>
        t.now = s.reached (t0 + 250000) ∧ (0 < t.dramBytes → t.pwr.rising = [(13, t0 + if s.get F.RST_CAUSE_LAST ≤ 1 then 4200000 else 400000)])
        ∧ t.get F.SYS_PERSONA_STRAP = straps.toNat ∧ t.flag F.OTP_STAT_VPP = vpp
        ∧ t.get F.SYS_BOOTCNT_COUNT = (s.get F.SYS_BOOTCNT_COUNT + 1) % 65536 ∧ t.flag F.CLK_STAT_PLL0_LOCK = true ∧ t.flag F.CLK_STAT_PLL1_LOCK = true
        ∧ t.flag F.SYS_BOOT_OTP_NOGEN = s.genInUse.isNone ∧ t.get F.SYS_PERSONA_PERSONA = (if s.genInUse.isNone then 3 else blkField b 8 1 % 4)
        ∧ t.get F.SYS_PERSONA_NODE_ID = blkField b 0xA 2 % 512
        ∧ t.flag F.SYS_PERSONA_MATCH = (t.persona == straps.toNat && t.persona != 3) ∧ t.pwr.inReset = none
        ∧ t.pwr.stage = (if t.flag F.SYS_PERSONA_MATCH then .boot else .straps) ∧ (∀ j < 9, t.domOn j = true → t.personaMask.testBit j = true ∨ s.domOn j = true)
        ∧ (∀ j < 9, t.personaMask.testBit j = true → t.domOn j = true))
    ∧ (s.pwr.stage = .boot → 0 < s.dramBytes → s.now + 1000000000 < 2 ^ 64 → s.nextSlot = some k.val →
        (why = 0 → (withHeader hdr img).tree.contains (s.nodeId, s.persona) = true → Completes (.slotVerify us fw1 fw2 img) s fun t =>
            t.pwr.stage = .verified ∧ t.pwr.bootSlot = k.val ∧ t.pwr.image = withHeader hdr img ∧ (13 ∈ s.pwr.rising.map (·.1) → t.domOn 13 = true))
        ∧ (let cause := if why = 0 then 6 else why
           why ≠ 0 ∨ (withHeader hdr img).tree.contains (s.nodeId, s.persona) = false → Completes (.slotVerify us fw1 fw2 img) s fun t =>
            t.pwr.stage = .boot ∧ t.get F.SYS_BOOT_AFAIL = (if k.val = 0 then cause else s.get F.SYS_BOOT_AFAIL)
            ∧ t.get F.SYS_BOOT_BFAIL = (if k.val = 1 then cause else s.get F.SYS_BOOT_BFAIL)))
    ∧ (s.pwr.stage = .verified → s.now + 1000000 < 2 ^ 64 → Completes .firmwareStart s fun t => t.now = s.reached (s.now + 1000000) ∧ t.pwr.stage = .firmware
        ∧ t.time.wdog = some (max 1 (s.get F.RST_WDOG_WD_MS) * 1000000))
    ∧ (s.pwr.stage = .firmware → s.domOn 2 = true → Completes .sectionsApplied s fun t => t.flag F.SYS_BOOT_DONE = true ∧ t.flag F.SYS_BOOT_GOOD = true
        ∧ t.get F.SYS_BOOT_BOOT_TRY = 0 ∧ t.get F.SYS_BOOT_SLOT = s.pwr.bootSlot % 4 ∧ t.pwr.stage = .done ∧ t.be.set = s.pwr.image.prog)
    ∧ (∀ e, s.pwr.rising.find? (fun e => e.1 == d.val) = some e → e.2 < 2 ^ 64 → s.pwr.stage ≠ .done → Completes (.domainOn d) s fun t =>
        t.domOn d.val = true ∧ d.val ∉ t.pwr.rising.map (·.1) ∧ t.now = s.reached e.2)
    ∧ (d.val ∈ s.pwr.rising.map (·.1) → s.pwr.stage = .done → s.pwr.image.regs = [] → s.pwr.image.sysRegs = [] → s.gn.keep = [] → Completes (.domainOn d) s fun t =>
        t.domOn d.val = true ∧ d.val ∉ t.pwr.rising.map (·.1) ∧ (d.val = 2 → t.be.set = s.pwr.image.prog))
    ∧ (∀ o : CpOp, s.cp.op = some o →
        let done (st : CpSt) (body : List Byte) (t : State) : Prop := Answered o.transport o.src o.op o.seq o.key st body t
        let arg (i n : Nat) : Nat := leNat ((o.payload.drop i).take n)
        (let h := storeRange 0xFF s.nvm.imgBuf 0 256
         o.op = 0x22 →
          (s.verifyImage s.nvm.imgBuf 0 fw1 fw2 ≠ 0 → Completes (.imgCommitComplete fw1 fw2 img) s fun t => done .badParam [] t ∧ t.nvm = s.nvm ∧ t.be = s.be ∧ t.mem = s.mem)
          ∧ (s.verifyImage s.nvm.imgBuf 0 fw1 fw2 = 0 → Completes (.imgCommitComplete fw1 fw2 img) s fun t => done .ok ((h.drop 0x14).take 8) t
              ∧ t.nvm.imgOpen = false ∧ t.nvm.commit = some (s.nvm.imgBuf, blkField h 0xC 4 + 128, BitVec.ofNat 32 (blkField h 0x14 4))
              ∧ t.nvm.flash = s.nvm.flash ∧ t.nvm.otp = s.nvm.otp
              ∧ (s.domOn 2 = true → t.be.staged = some (withHeader h img).prog ∧ t.be.stagedImg = some (withHeader h img))))
        ∧ (o.op = 0x24 → ∀ c, s.nvm.commit = some c → mapWf (fun _ => (0xFF : Byte)) s.nvm.flash = true → mapWf (fun _ => (0xFF : Byte)) c.1 = true →
            Completes .imgFlashComplete s fun t => done .ok [] t ∧ t.nvm.commit = s.nvm.commit ∧ ∀ a,
              let at0 := 0x1000000 * arg 0 1 + 0x10000 * arg 1 2
              fl t a = if at0 ≤ a ∧ a < at0 + 0x10000 then mapGet (fun _ => 0xFF) (a - at0 + 0x10000 * arg 1 2) c.1 else fl s a)
        ∧ (o.op = 0x32 → arg 2 1 < 4 → read.length = 512 → mapWf (fun _ => (0 : Byte)) s.nvm.otp = true →
            (let base := 0x200 + 0x200 * arg 2 1
             Completes (.otpBurnComplete read) s fun t =>
              (∀ i < 512, otp t (base + i) = otp s (base + i) ||| read.getD i 0) ∧ (∀ a, a < base ∨ base + 512 ≤ a → otp t a = otp s a)
              ∧ t.stageBytes = s.latchedBlock ∧ t.nvm.flash = s.nvm.flash ∧ done (if t.genBlock (arg 2 1) = s.stageBytes then .ok else .internal) [] t))
        ∧ (o.op = 0x33 → arg 2 1 < 4 → mapWf (fun _ => (0 : Byte)) s.nvm.otp = true → Completes (.otpRevokeComplete rev) s fun t =>
              otp t (0xA00 + arg 2 1) = otp s (0xA00 + arg 2 1) ||| rev ∧ (∀ a, a ≠ 0xA00 + arg 2 1 → otp t a = otp s a)
              ∧ done (if otp t (0xA00 + arg 2 1) = 0xFF then .ok else .internal) [] t)
        ∧ (o.op = 0x60 → s.domOn 7 = false → Completes (.selftestComplete fail) s fun t =>
              done .ok (leBytes 2 t.cp.stPass ++ leBytes 2 t.cp.stFail) t ∧ t.cp.stMask = arg 0 2 ∧ t.trk = s.trk
              ∧ ∀ j < 16, let ran := decide (j < 9) && (arg 0 2).testBit j && s.personaMask.testBit (testDom j)
                  t.cp.stPass.testBit j = (ran && !fail.getLsbD j) ∧ t.cp.stFail.testBit j = (ran && fail.getLsbD j))
        ∧ (o.op = 0x60 → s.domOn 7 = true → Completes (.selftestComplete fail) s fun t => done .ok (leBytes 2 t.cp.stPass ++ leBytes 2 t.cp.stFail) t ∧ t.cp.stMask = arg 0 2))

/-- The Command Port's reading operations: a request that is taken is answered at once with OK and the payload the opcode tables give -/
def Obligations.PortReads : Prop :=
  ∀ (s : State) (tr : Fin 3) (src : BitVec 48) (seq : Byte) (data : List Byte) (a : BitVec 40) (n : Byte) (ofs len : BitVec 16) (start : Byte),
    let alone := tr.val ≠ 2 ∨ (s.txq 4 = [] ∧ s.pmuVal 76 + 1 < 2 ^ 48)
    let w (r : Nat) : List Byte := leBytes 4 (s.cpPeek r)
    let quiet (t : State) : Prop := (alone → t.mem = s.mem) ∧ t.time = s.time ∧ t.recd = s.recd ∧ (alone → ∀ r, r ≠ R.CP_STAT → t.word r = s.word r)
    let open' := s.cpLimited = false
    let cells (k j : Nat) : List Byte := (List.range j).map fun i => s.byte (k + i)
    (data.length ≤ 1023 → Answers (.ping tr src seq data) s tr src seq 0x00 data .ok fun body t => body = data ∧ quiet t)
    ∧ Answers (.identify tr src seq) s tr src seq 0x01 [] .ok (fun body t => quiet t
        ∧ body.take 8 = w R.SYS_ID ++ w R.SYS_PERSONA ∧ (s.flag F.SYS_BOOT_DONE = false → (body.drop 8).take 4 = leBytes 4 Config.romVersion.toNat)
        ∧ body.drop 12 = leBytes 1 (s.cpField F.SYS_BOOT_SLOT) ++ leBytes 3 0 ++ w R.BE_PROG ++ w R.ZAL_SIG)
    ∧ Answers (.status tr src seq) s tr src seq 0x02 [] .ok (fun body t => quiet t
        ∧ body = w R.SYS_CYC_NUM ++ w R.SYS_CYC_STAT ++ w R.HA_STAT ++ w R.KZ_STAT ++ leBytes 1 (s.cpField F.FE_EST_STAT_QUAL)
            ++ leBytes 1 (s.cpField F.SK_STAT_MODE) ++ leBytes 1 (s.cpField F.TIME_STAT_TQ) ++ leBytes 1 0)
    ∧ (let p := leBytes 5 a.toNat ++ leBytes 1 n.toNat
       (n ≠ 0 → s.cpMapped a.toNat n.toNat = true → s.cpReadable a.toNat n.toNat = true →
          Answers (.rdWords tr src seq a n) s tr src seq 0x10 p .ok fun body t => body.length = 4 * n.toNat
            ∧ body = ((s.taken tr.val src.toNat 0x10 seq.toNat p).cpReadWords a.toNat n.toNat).2)
       ∧ (n ≠ 0 → a.toNat % 4 = 0 → 0x1500000 ≤ a.toNat → a.toNat + 4 * n.toNat ≤ 0x1600000 →
          Answers (.rdWords tr src seq a n) s tr src seq 0x10 p .ok fun body t => quiet t ∧ body = cells a.toNat (4 * n.toNat))
       ∧ (n = 0 ∨ s.cpMapped a.toNat n.toNat = false → Answers (.rdWords tr src seq a n) s tr src seq 0x10 p .badParam fun body t => body = [] ∧ quiet t)
       ∧ (n ≠ 0 → s.cpMapped a.toNat n.toNat = true → s.region a.toNat = .rom →
          Answers (.rdWords tr src seq a n) s tr src seq 0x10 p .denied fun body t => body = [] ∧ quiet t))
    ∧ Answers (.imgStatus tr src seq) s tr src seq 0x25 [] .ok (fun body t => quiet t ∧ t.nvm = s.nvm
        ∧ body.take 4 = leBytes 1 (if s.nvm.imgOpen then 1 else if s.nvm.commit.isSome then 2 else 0) ++ leBytes 3 0
        ∧ (body.drop 4).take 4 = leBytes 4 s.nvm.imgRecv ∧ ∀ c, s.nvm.commit = some c → body.drop 8 = leBytes 4 c.2.2.toNat)
    ∧ (0 < len.toNat → len.toNat ≤ 1020 → ofs.toNat + len.toNat ≤ 0x2000 →
        Answers (.otpRead tr src seq ofs len) s tr src seq 0x30 (leBytes 2 ofs.toNat ++ leBytes 2 len.toNat) .ok fun body t =>
          body = s.otpBytes ofs.toNat len.toNat ∧ t.nvm = s.nvm ∧ quiet t)
    ∧ (open' →
        (s.isMaster = true → Answers (.surveyStatus tr src seq) s tr src seq 0x54 [] .ok fun body t => body = w R.FE_SURV_STAT ∧ quiet t)
        ∧ Answers (.selftestLast tr src seq) s tr src seq 0x61 [] .ok (fun body t => quiet t
            ∧ body = leBytes 2 s.cp.stMask ++ leBytes 2 s.cp.stPass ++ leBytes 2 s.cp.stFail)
        ∧ (s.domOn 11 = true → Answers (.timeGet tr src seq) s tr src seq 0x70 [] .ok fun body t =>
            body.take 8 = leBytes 8 s.now ∧ (body.drop 8).take 4 = leBytes 4 (t.word R.TIME_NOWF).toNat
            ∧ body.drop 12 = leBytes 1 (s.get F.TIME_STAT_TQ) ++ leBytes 1 (s.get F.TIME_STAT_SRC) ++ leBytes 2 0 ++ leBytes 4 s.accNs
            ∧ (alone → t.mem = s.mem) ∧ t.time.count = s.time.count)
        ∧ Answers (.pairStatus tr src seq) s tr src seq 0x83 [] .ok (fun body t => quiet t
            ∧ body = w R.HA_STAT ++ w R.HA_TERM ++ w R.HA_TERMSRC ++ w R.HA_CKCYC)
        ∧ Answers (.recRead tr src seq) s tr src seq 0x90 [] .ok (fun body t => body.length ≤ 1020 ∧ (alone → t.mem = s.mem) ∧ t.recd.recs = s.recd.recs
            ∧ (recAtOrAbove s.recd.recs (s.word R.REC_CUR) = none → body = [])
            ∧ ∀ r, recAtOrAbove s.recd.recs (s.word R.REC_CUR) = some r → (recBytes r).length ≤ 1020 → body.take (recBytes r).length = recBytes r)
        ∧ (s.domOn 2 = true → Answers (.forceList tr src seq start) s tr src seq 0xA3 (leBytes 1 start.toNat) .ok fun body t => quiet t
            ∧ body.length = 16 * min 63 (256 - start.toNat)
            ∧ ∀ i, i < min 63 (256 - start.toNat) → ∀ j, j < 4 → (body.drop (16 * i + 4 * j)).take 4 = leBytes 4 (s.word (R.BE_FE_ID (start.toNat + i) + 4 * j)).toNat))

/-- The Command Port's writes, image, OTP and self-test operations: what each stores or begins, its reply, and the refusals its rule gives -/
def Obligations.PortWritesAndImages : Prop :=
  ∀ (s : State) (tr : Fin 3) (src : BitVec 48) (seq : Byte) (a : BitVec 40) (n : Byte) (w : List Word) (mask v : Word) (b : List Byte) (ofs : BitVec 16)
    (slot gen : Byte) (sec key sel : BitVec 16) (crc : Word),
    let alone := tr.val ≠ 2 ∨ (s.txq 4 = [] ∧ s.pmuVal 76 + 1 < 2 ^ 48)
    let open' := s.cpLimited = false
    let kept (t : State) : Prop := (alone → t.mem = s.mem) ∧ (alone → ∀ r, r ≠ R.CP_STAT → t.word r = s.word r)
    let sram (n : Nat) : Prop := a.toNat % 4 = 0 ∧ 0x1500000 ≤ a.toNat ∧ a.toNat + 4 * n ≤ 0x1600000
    let cell (l : List Host.Cell) (d : Byte) (x : Nat) : Byte := mapGet (fun _ => d) x l
    let p5 := leBytes 5 a.toNat
    (let p := p5 ++ leBytes 1 n.toNat ++ w.flatMap fun x => leBytes 4 x.toNat
     (w.length = n.toNat → 1 ≤ n.toNat → n.toNat ≤ 254 → sram n.toNat → Answers (.wrWords tr src seq a n w) s tr src seq 0x11 p .ok fun body t =>
        body = leBytes 1 n.toNat ∧ (alone → ∀ r, r ≠ R.CP_STAT → t.word r = s.word r)
        ∧ ∀ x, t.byte x = if a.toNat ≤ x ∧ x < a.toNat + 4 * n.toNat then BitVec.ofNat 8 ((w.getD ((x - a.toNat) / 4) 0).toNat / 256 ^ ((x - a.toNat) % 4)) else s.byte x)
     ∧ (w.length = n.toNat → 1 ≤ n.toNat → n.toNat ≤ 254 → a.toNat % 4 = 0 → 0x1600000 ≤ a.toNat → a.toNat + 4 * n.toNat ≤ 0x1800000 →
        Answers (.wrWords tr src seq a n w) s tr src seq 0x11 p .denied fun body t => body = [0] ∧ kept t)
     ∧ (w.length = 2 → n = 2 → a.toNat = R.HA_CTRL ∨ a.toNat + 4 = R.HA_CTRL → Answers (.wrWords tr src seq a n w) s tr src seq 0x11 p .badParam fun body t =>
        body = [] ∧ kept t))
    ∧ (let p := p5 ++ leBytes 4 mask.toNat ++ leBytes 4 v.toNat
       sram 1 → Answers (.rmw tr src seq a mask v) s tr src seq 0x12 p .ok fun body t =>
        let old := BitVec.ofNat 32 (s.ld a.toNat 4)
        body = leBytes 4 old.toNat ∧ (alone → ∀ r, r ≠ R.CP_STAT → t.word r = s.word r)
        ∧ BitVec.ofNat 32 (t.ld a.toNat 4) = (old &&& ~~~mask) ||| (v &&& mask) ∧ ∀ x, x < a.toNat ∨ a.toNat + 4 ≤ x → t.byte x = s.byte x)
    ∧ (let p := p5 ++ leBytes 4 v.toNat
       let val := if a.toNat = R.GN_CFG then v ||| 1#32 else v
       s.isMaster = true → (regDesc a.toNat).isSome = true → 0x40200000 ≤ a.toNat → a.toNat < 0x40300000 →
        Answers (.gnConfig tr src seq a v) s tr src seq 0x13 p .ok fun body t => body = [] ∧ (a.toNat, val) ∈ t.gn.keep
          ∧ ((s.domOn 9 && s.domOn 10) = false → kept t))
    ∧ (0 < s.dramBytes → v.toNat ≤ 0x1000000 → Answers (.imgBegin tr src seq v) s tr src seq 0x20 (leBytes 4 v.toNat) .ok fun body t =>
        body = [] ∧ kept t ∧ t.nvm.imgSize = some v.toNat ∧ t.nvm.imgRecv = 0 ∧ t.nvm.imgBuf = [] ∧ t.nvm.commit = s.nvm.commit ∧ t.be = s.be)
    ∧ (let p := leBytes 4 v.toNat ++ b
       1 ≤ b.length → b.length ≤ 1019 →
        (s.nvm.imgSize = none → Answers (.imgData tr src seq v b) s tr src seq 0x21 p .notNow fun body t => body = [] ∧ t.nvm = s.nvm)
        ∧ ∀ size, s.nvm.imgSize = some size → 0 < s.dramBytes →
          (size < v.toNat + b.length → Answers (.imgData tr src seq v b) s tr src seq 0x21 p .badParam fun body t => body = [] ∧ t.nvm = s.nvm)
          ∧ (v.toNat + b.length ≤ size → mapWf (fun _ => (0xFF : Byte)) s.nvm.imgBuf = true → Answers (.imgData tr src seq v b) s tr src seq 0x21 p .ok fun body t =>
              body = [] ∧ kept t ∧ t.nvm.imgRecv = s.nvm.imgRecv + b.length ∧ t.nvm.commit = s.nvm.commit
              ∧ ∀ x, cell t.nvm.imgBuf 0xFF x = if v.toNat ≤ x ∧ x < v.toNat + b.length then b.getD (x - v.toNat) 0 else cell s.nvm.imgBuf 0xFF x))
    ∧ (0 < s.dramBytes →
        (s.get F.BE_ACT_ASTATE = 0 → Begins (.imgCommit tr src seq) s tr src seq 0x22 [] fun t => t.nvm = s.nvm ∧ t.be = s.be ∧ kept t)
        ∧ (s.get F.BE_ACT_ASTATE ≠ 0 → Answers (.imgCommit tr src seq) s tr src seq 0x22 [] .notNow fun body t => body = [] ∧ t.nvm = s.nvm ∧ t.be = s.be))
    ∧ (open' → s.domOn 2 = true →
        (s.be.staged = none → Answers (.imgActivate tr src seq) s tr src seq 0x23 [] .notNow fun body t => body = [] ∧ t.be = s.be ∧ t.get F.BE_ACT_ARES = 2)
        ∧ ∀ ps, s.be.staged = some ps → s.be.stagedImg = none ∨ s.run = false → (ps.base = 0 ∧ s.run = false) ∨ ps.base = s.word R.BE_PROG → ps.base ≠ 0 ∨ s.run = false →
            Begins (.imgActivate tr src seq) s tr src seq 0x23 [] fun t => t.get F.BE_ACT_ASTATE = 1 ∧ t.be = { s.be with actAt := some s.now } ∧ (alone → t.mem = s.mem))
    ∧ (∀ c, s.nvm.commit = some c → 0 < s.dramBytes →
        (slot.toNat ≤ 1 → 0x10000 * sec.toNat < c.2.1 → Begins (.imgFlash tr src seq slot sec) s tr src seq 0x24 (leBytes 1 slot.toNat ++ leBytes 2 sec.toNat) fun t => t.nvm = s.nvm ∧ kept t)
        ∧ (1 < slot.toNat ∨ c.2.1 ≤ 0x10000 * sec.toNat → Answers (.imgFlash tr src seq slot sec) s tr src seq 0x24 (leBytes 1 slot.toNat ++ leBytes 2 sec.toNat) .badParam fun body t => body = [] ∧ t.nvm = s.nvm))
    ∧ (1 ≤ b.length → b.length ≤ 510 → ofs.toNat + b.length ≤ 512 → mapWf (fun _ => (0 : Byte)) s.nvm.otpStage = true →
        Answers (.otpStage tr src seq ofs b) s tr src seq 0x31 (leBytes 2 ofs.toNat ++ b) .ok fun body t => body = [] ∧ kept t ∧ t.nvm.otp = s.nvm.otp
          ∧ ∀ x, cell t.nvm.otpStage 0 x = if ofs.toNat ≤ x ∧ x < ofs.toNat + b.length then b.getD (x - ofs.toNat) 0 else cell s.nvm.otpStage 0 x)
    ∧ (let p := leBytes 2 key.toNat ++ leBytes 1 gen.toNat ++ leBytes 4 crc.toNat
       let may := s.run = false ∧ s.flag F.OTP_STAT_VPP = true
       let fits := s.genFree = some gen.toNat ∧ crc = crc32c s.stageBytes ∧ s.otpBadBlock = false
       (key = 0x5AFE → may → fits → Begins (.otpBurn tr src seq key gen crc) s tr src seq 0x32 p fun t => t.nvm = s.nvm ∧ kept t)
       ∧ (key = 0x5AFE → may → ¬ fits → Answers (.otpBurn tr src seq key gen crc) s tr src seq 0x32 p .badParam fun body t => body = [] ∧ t.nvm = s.nvm)
       ∧ (key = 0x5AFE → ¬ may → Answers (.otpBurn tr src seq key gen crc) s tr src seq 0x32 p .notNow fun body t => body = [] ∧ t.nvm = s.nvm)
       ∧ (key ≠ 0x5AFE → Answers (.otpBurn tr src seq key gen crc) s tr src seq 0x32 p .denied fun body t => body = [] ∧ t.nvm = s.nvm
            ∧ t.get F.SYS_KEYERR_COUNT = min 255 (s.get F.SYS_KEYERR_COUNT + 1)))
    ∧ (let p := leBytes 2 key.toNat ++ leBytes 1 gen.toNat
       let left := ∃ j, j < 4 ∧ j ≠ gen.toNat ∧ (keyHash s.latchedBlock j).any (fun x => x != 0) = true ∧ s.revoked j = false
       key = 0x5AFE → s.run = false → s.flag F.OTP_STAT_VPP = true →
        (gen.toNat < 4 → left → Begins (.otpRevoke tr src seq key gen) s tr src seq 0x33 p fun t => t.nvm = s.nvm ∧ kept t)
        ∧ (¬ left → Answers (.otpRevoke tr src seq key gen) s tr src seq 0x33 p .badParam fun body t => body = [] ∧ t.nvm = s.nvm))
    ∧ (open' →
        (sel.toNat < 512 → s.run = false → (sel.getLsbD 7 = true → s.cpField F.KZ_STAT_STATE ≠ 1 ∧ s.cpField F.KZ_STAT_STATE ≠ 2) →
          Begins (.selftest tr src seq sel) s tr src seq 0x60 (leBytes 2 sel.toNat) kept)
        ∧ (512 ≤ sel.toNat → Answers (.selftest tr src seq sel) s tr src seq 0x60 (leBytes 2 sel.toNat) .badParam fun body t => body = [] ∧ kept t)
        ∧ (sel.toNat < 512 → s.run = true → Answers (.selftest tr src seq sel) s tr src seq 0x60 (leBytes 2 sel.toNat) .notNow fun body t => body = [] ∧ kept t))

/-- The Command Port's station-keeping, survey, time, recorder and reset operations: what each does, begins or is answered -/
def Obligations.PortControls : Prop :=
  ∀ (s : State) (tr : Fin 3) (src : BitVec 48) (seq : Byte) (mode keep m rec' tai force : Byte) (dn de psi set' : Word64) (x y n : Word) (decim key : BitVec 16),
    let alone := tr.val ≠ 2 ∨ (s.txq 4 = [] ∧ s.pmuVal 76 + 1 < 2 ^ 48)
    let open' := s.cpLimited = false
    let skOpen := s.cpSkOpen = true ∧ s.domOn 2 = true
    let latched (o md : Nat) (kp : Bool) (t : State) : Prop := t.sk.req = some ⟨o, md, kp, true⟩ ∧ t.sk.taken = none ∧ t.sk.ref = s.sk.ref ∧ (alone → t.mem = s.mem)
    let closed (t : State) (body : List Byte) : Prop := body = leBytes 1 15 ∧ t.sk = s.sk ∧ (alone → ∀ r, r ≠ R.CP_STAT → t.word r = s.word r)
    let j := leBytes 4 x.toNat ++ leBytes 4 y.toNat ++ leBytes 4 n.toNat
    let kp := leBytes 2 key.toNat
    let fin (v : Word) : Prop := fisFin (f32to64 v) = true
    open' →
    (s.isMaster = true →
      (mode.toNat ≤ 6 → keep.toNat ≤ 1 → skOpen → Begins (.skMode tr src seq mode keep) s tr src seq 0x40 (leBytes 1 mode.toNat ++ leBytes 1 keep.toNat)
          (latched 1 mode.toNat (keep.toNat == 1)))
      ∧ (skOpen → Begins (.skStakeHere tr src seq) s tr src seq 0x41 [] (latched 2 0 false))
      ∧ (skOpen → Begins (.skMove tr src seq dn de psi) s tr src seq 0x42 (leBytes 8 dn.toNat ++ leBytes 8 de.toNat ++ leBytes 8 psi.toNat) fun t => latched 3 0 false t
          ∧ t.get64 (R.SK_TGT_D 0) = dn ∧ t.get64 (R.SK_TGT_D 1) = de ∧ t.get64 R.SK_TGT_PSI = psi)
      ∧ (skOpen → Begins (.skHalt tr src seq) s tr src seq 0x43 [] (latched 4 0 false))
      ∧ (s.cpSkOpen = false → Answers (.skMode tr src seq mode keep) s tr src seq 0x40 (leBytes 1 mode.toNat ++ leBytes 1 keep.toNat) .notNow (fun body t => closed t body)
          ∧ Answers (.skStakeHere tr src seq) s tr src seq 0x41 [] .notNow (fun body t => closed t body)
          ∧ Answers (.skMove tr src seq dn de psi) s tr src seq 0x42 (leBytes 8 dn.toNat ++ leBytes 8 de.toNat ++ leBytes 8 psi.toNat) .notNow (fun body t => closed t body)
          ∧ Answers (.skHalt tr src seq) s tr src seq 0x43 [] .notNow (fun body t => closed t body))
      ∧ (s.domOn 2 = true → fin x → fin y → fin n → Answers (.skJoy tr src seq x y n) s tr src seq 0x44 j .ok fun body t => body = []
          ∧ t.word (R.SK_JOY 0) = x ∧ t.word (R.SK_JOY 1) = y ∧ t.word (R.SK_JOY 2) = n ∧ t.sk.joyAt = s.now ∧ t.flag F.SK_STAT_JOY_STALE = false ∧ (alone → t.mem = s.mem))
      ∧ (s.domOn 7 = true →
          (rec'.toNat ≤ 1 → Answers (.surveyRec tr src seq rec' decim) s tr src seq 0x50 (leBytes 1 rec'.toNat ++ leBytes 2 decim.toNat) .ok fun body t => body = []
            ∧ t.flag F.FE_SURV_CTRL_REC = (rec'.toNat == 1) ∧ t.get F.FE_SURV_CTRL_DECIM = decim.toNat
            ∧ t.get F.FE_SURV_STAT_EPOCHS = (if rec'.toNat = 1 ∧ s.flag F.FE_SURV_CTRL_REC = false then 0 else s.get F.FE_SURV_STAT_EPOCHS))
          ∧ (1 < rec'.toNat → Answers (.surveyRec tr src seq rec' decim) s tr src seq 0x50 (leBytes 1 rec'.toNat ++ leBytes 2 decim.toNat) .badParam fun body t => body = [] ∧ t.surv = s.surv)
          ∧ (64 ≤ s.get F.FE_SURV_STAT_EPOCHS → s.run = true → Begins (.surveyRun tr src seq) s tr src seq 0x51 [] fun t => t.get F.FE_SURV_STAT_PSTATE = 1
              ∧ t.surv.runAt = some s.now ∧ t.get F.FE_SURV_RES_ITER = 0 ∧ t.flag F.FE_SURV_STAT_STALE_PROP = false)
          ∧ (s.get F.FE_SURV_STAT_EPOCHS < 64 ∨ s.run = false → Answers (.surveyRun tr src seq) s tr src seq 0x51 [] .badParam fun body t => body = [] ∧ t.surv = s.surv)
          ∧ (let ok := s.get F.FE_SURV_STAT_PSTATE = 2 ∧ s.get F.FE_EST_STAT_QUAL < 2 ∧ s.flag F.FE_SURV_STAT_STALE_PROP = false
             (ok → Answers (.surveyCommit tr src seq) s tr src seq 0x52 [] .ok fun body t => body = [] ∧ t.get F.FE_SURV_STAT_PSTATE = 3 ∧ t.surv = s.surv ∧ (alone → t.mem = s.mem))
             ∧ (¬ ok → Answers (.surveyCommit tr src seq) s tr src seq 0x52 [] .notNow fun body t => body = [] ∧ t.surv = s.surv ∧ t.fe = s.fe))
          ∧ Answers (.surveyDiscard tr src seq) s tr src seq 0x53 [] .ok (fun body t => body = [] ∧ t.get F.FE_SURV_STAT_PSTATE = 0 ∧ t.surv = { s.surv with prop := [] }
              ∧ t.get F.FE_SURV_STAT_EPOCHS = s.get F.FE_SURV_STAT_EPOCHS)))
    ∧ (s.domOn 11 = true →
        (s.run = false → Answers (.timeStep tr src seq 2 set') s tr src seq 0x71 (leBytes 1 2 ++ leBytes 8 set'.toNat) .ok fun body t => body = [] ∧ t.time.count = set' ∧ t.time.frac = 0)
        ∧ (s.run = true → m = 1 ∨ m = 2 → Answers (.timeStep tr src seq m set') s tr src seq 0x71 (leBytes 1 m.toNat ++ leBytes 8 set'.toNat) .notNow fun body t => body = [] ∧ t.time.count = s.time.count)
        ∧ (3 < m.toNat → Answers (.timeStep tr src seq m set') s tr src seq 0x71 (leBytes 1 m.toNat ++ leBytes 8 set'.toNat) .badParam fun body t => body = [] ∧ t.time = s.time)
        ∧ (s.time.leapRef = false → Answers (.timeLeap tr src seq tai) s tr src seq 0x72 (leBytes 1 tai.toNat) .ok fun body t => body = [] ∧ t.get F.TIME_LEAP_TAI_UTC = tai.toNat)
        ∧ (s.time.leapRef = true → Answers (.timeLeap tr src seq tai) s tr src seq 0x72 (leBytes 1 tai.toNat) .notNow fun body t => body = [] ∧ t.get F.TIME_LEAP_TAI_UTC = s.get F.TIME_LEAP_TAI_UTC))
    ∧ (key = 0x5AFE → s.run = true → Answers (.recClear tr src seq key) s tr src seq 0x91 kp .notNow fun body t => body = [] ∧ t.recd = s.recd ∧ t.flag F.REC_CTL_CLR_REF = true)
    ∧ (key = 0x5AFE → s.run = false → s.recd.writing = none → Answers (.recClear tr src seq key) s tr src seq 0x91 kp .ok fun body t => body = [] ∧ t.recd.recs.length ≤ 1
        ∧ t.get ⟨R.REC_DROP0, 0, 32⟩ = 0 ∧ t.get ⟨R.REC_DROP1, 0, 32⟩ = 0)
    ∧ (key ≠ 0x5AFE → Answers (.recClear tr src seq key) s tr src seq 0x91 kp .denied fun body t => body = [] ∧ t.recd = s.recd)
    ∧ (let p := kp ++ leBytes 1 force.toNat
       let taken := s.Takes tr.val src.toNat 0xF0 seq.toNat p
       let ok := cpReplyBytes 0xF0 seq.toNat .ok []
       let wasReset (t : State) : Prop := t.pwr.inReset = some .soft ∧ t.pwr.stage = .held ∧ t.cp = Cp.init ∧ t.get F.RST_CAUSE_LAST = 5
       (key = 0x5AFE → s.run = false ∨ force ≠ 0 → taken → s.pwr.inReset = none →
          (s.cpGone = true → tr.val = 1 → Completes (.resetDevice tr src seq key force) s fun t => wasReset t ∧ .reply 1 0 ok ∈ t.out)
          ∧ (tr.val = 0 ∨ s.cpGone = false → tr.val ≠ 2 → Completes (.resetDevice tr src seq key force) s fun t =>
              Answered tr.val src.toNat 0xF0 seq.toNat (cpKeyOf tr.val src.toNat 0xF0 seq.toNat p) .ok [] t ∧ t.cp.resetDue = true ∧ t.pwr = s.pwr)
          ∧ (tr.val = 2 → Completes (.resetDevice tr src seq key force) s fun t => (wasReset t ∧ .reply 2 src.toNat ok ∈ t.out)
              ∨ (t.cp.resetDue = true ∧ t.pwr = s.pwr ∧ t.cp.op = none)))
       ∧ (s.cp.resetDue = true → s.domOn 1 = true → s.pwr.stage ≠ .held → s.pwr.inReset = none → (s.net.tx.all fun q => q.all fun e => match e.fill with | .reply _ => false | _ => true) = true →
            (s.cpRx 0).waiting.flatten.length ≤ force.toNat → Completes (.spiCsRise force.toNat) s wasReset)
       ∧ (key = 0x5AFE → s.run = true → force = 0 → Answers (.resetDevice tr src seq key force) s tr src seq 0xF0 p .notNow fun body t => body = [] ∧ t.pwr = s.pwr)
       ∧ (key ≠ 0x5AFE → Answers (.resetDevice tr src seq key force) s tr src seq 0xF0 p .denied fun body t => body = [] ∧ t.pwr = s.pwr
            ∧ t.get F.SYS_KEYERR_COUNT = min 255 (s.get F.SYS_KEYERR_COUNT + 1)))

/-- The Command Port's pair and forcing operations: what each does, its status, and what it leaves -/
def Obligations.PortPairAndForces : Prop :=
  ∀ (s : State) (tr : Fin 3) (src : BitVec 48) (seq : Byte) (key : BitVec 16) (ident : Word) (v : Word64), s.cpLimited = false →
    let alone := tr.val ≠ 2 ∨ (s.txq 4 = [] ∧ s.pmuVal 76 + 1 < 2 ^ 48)
    let kp := leBytes 2 key.toNat
    let st := s.haState
    let stays (t : State) : Prop := t.haState = st ∧ t.haTerm = s.haTerm ∧ (alone → t.mem = s.mem) ∧ t.alc = s.alc ∧ t.est = s.est
    let refused (op : Nat) (i : Instr) : Prop := Answers i s tr src seq op kp .notNow fun body t => body = [] ∧ stays t
    let denied (op : Nat) (i : Instr) : Prop := Answers i s tr src seq op kp .denied fun body t => body = [] ∧ stays t ∧ t.ha = s.ha
      ∧ t.get F.SYS_KEYERR_COUNT = min 255 (s.get F.SYS_KEYERR_COUNT + 1)
    let may := s.isMaster = true ∧ st = 0 ∧ s.run = true ∧ s.haTerm ≠ 0xFFFFFFFF ∧ s.drivingHeard = false
    let hands := s.isMaster = true ∧ st = 2 ∧ s.get F.HA_STAT_PSTATE = 0 ∧ s.flag F.HA_STAT_PCKOK = true
    let out := s.isMaster = true ∧ st = 4
    let sym := s.be.set.syms.find? fun y => y.ident == ident
    let forced := s.be.forces.any fun f => f.ident == ident
    let room := forced = true ∨ s.be.forces.length < 256
    let ps := leBytes 4 ident.toNat ++ leBytes 8 v.toNat
    let table (t : State) (res : Nat) : Prop := t.get F.BE_FRES_RES = res ∧ t.be.forces = s.be.forces ∧ (alone → t.mem = s.mem)
    let calm := s.be.swAt = none
    (s.domOn 11 = true →
      (key = 0x5AFE →
        (may → Answers (.goActive tr src seq key) s tr src seq 0x80 kp .ok fun body t => body = [] ∧ t.haState = 1 ∧ t.haTerm = s.haTerm + 1 ∧ t.get F.HA_STAT_CRES = 0)
        ∧ (¬ may → refused 0x80 (.goActive tr src seq key))
        ∧ (hands → Answers (.demote tr src seq key) s tr src seq 0x81 kp .ok fun body t => body = [] ∧ t.haState = 4 ∧ t.get F.HA_STAT_DEM_CAUSE = 3 ∧ t.get F.HA_STAT_CRES = 0)
        ∧ (¬ hands → refused 0x81 (.demote tr src seq key))
        ∧ (out → Answers (.rejoin tr src seq key) s tr src seq 0x82 kp .ok fun body t => body = [] ∧ t.haState = (if s.flag F.HA_CFG_PAIR_EN then 0 else 3)
            ∧ t.get F.HA_STAT_CRES = 0 ∧ t.ha.ckHeld = none)
        ∧ (¬ out → refused 0x82 (.rejoin tr src seq key)))
      ∧ (key ≠ 0x5AFE → denied 0x80 (.goActive tr src seq key) ∧ denied 0x81 (.demote tr src seq key) ∧ denied 0x82 (.rejoin tr src seq key)))
    ∧ (s.domOn 2 = true → calm →
        (∀ y, sym = some y →
          (room → y.safe = false → Answers (.forceSet tr src seq ident v) s tr src seq 0xA0 ps .ok fun body t => body = [] ∧ t.get F.BE_FRES_RES = 0
            ∧ (t.be.forces.filter fun f => f.ident == ident).map (fun (f : Force) => (f.val, f.area, f.addr, f.size)) = [(v, y.area, y.addr.toNat, y.size.val)]
            ∧ (t.be.forces.filter fun f => f.ident != ident) = (s.be.forces.filter fun f => f.ident != ident)
            ∧ ∀ j < 2 ^ y.size.val, t.byte ((if y.area then s.imgBase else s.instBase) + y.addr.toNat + j) = BitVec.ofNat 8 (v.toNat / 256 ^ j))
          ∧ (room → y.safe = true → Answers (.forceSet tr src seq ident v) s tr src seq 0xA0 ps .safetyRefused fun body t => body = [] ∧ table t 3)
          ∧ (¬ room → Answers (.forceSet tr src seq ident v) s tr src seq 0xA0 ps .badParam fun body t => body = [] ∧ table t 2))
        ∧ (sym = none → Answers (.forceSet tr src seq ident v) s tr src seq 0xA0 ps .badParam fun body t => body = [] ∧ table t 1)
        ∧ (forced = true → Answers (.forceClear tr src seq ident) s tr src seq 0xA1 (leBytes 4 ident.toNat) .ok fun body t => body = [] ∧ t.get F.BE_FRES_RES = 0
            ∧ t.be.forces = s.be.forces.filter fun f => f.ident != ident)
        ∧ (forced = false → Answers (.forceClear tr src seq ident) s tr src seq 0xA1 (leBytes 4 ident.toNat) .badParam fun body t => body = [] ∧ table t 1)
        ∧ Answers (.forceClearAll tr src seq) s tr src seq 0xA2 [] .ok (fun body t => body = [] ∧ t.be.forces = [] ∧ t.get F.BE_FRES_RES = 0))

/-- How the Command Port receives: whole and partial packets, BUSY, bad CRC and header, repeats, replies from outside, datagrams, gaps and CP_nCS -/
def Obligations.PortReception : Prop :=
  ∀ (s : State) (tr : Fin 3) (via : Fin 5) (src : BitVec 48) (flags op seq : Byte) (p b : List Byte) (c : Word) (len : BitVec 16) (m sent : Nat),
    let pk := cpPacket flags.toNat op.toNat seq.toNat p
    let crc := (crc32c (pk.take (7 + p.length))).toNat
    let src' := if tr.val = 2 then src.toNat else 0
    let key : List Nat := [seq.toNat, op.toNat, flags.toNat, crc, src']
    let arrives := s.cpServes tr.val via.val = true ∧ p.length ≤ 1024 ∧ (if tr.val = 2 then b = pk else (s.cpRx tr.val).part ++ b = pk ∧ b ≠ [])
    let sent' (y : List Byte) (t : State) : Prop := (tr.val = 0 → (t.cpRx 0).waiting = (s.cpRx 0).waiting ++ [y] ∧ t.out = s.out) ∧ (tr.val = 1 → t.out = .reply 1 0 y :: s.out)
      ∧ (tr.val = 2 → t.out.head? = some (.reply 2 src.toNat y) ∨ ∃ e ∈ t.txq via.val, e.fill = .reply src.toNat ∧ e.bytes.drop 8 = y)
    let replied (st : CpSt) (body : List Byte) (t : State) : Prop := sent' (cpReplyBytes op.toNat seq.toNat st body) t
    let noSync (l : List Byte) : Prop := ∀ x, x ∈ l → x ≠ 0xD7
    let rest (t : State) : Prop := tr.val ≠ 2 → (t.cpRx tr.val).part = []
    let inc (f : Fld) (t : State) : Prop := t.get f = min 255 (s.get f + 1)
    let quiet (t : State) : Prop := t.mem = s.mem ∧ t.nvm = s.nvm ∧ t.cp.op = s.cp.op ∧ ∀ r, r ≠ R.CP_CNT0 → r ≠ R.CP_CNT1 → t.word r = s.word r
    let calm (t : State) : Prop := t.cp.op = s.cp.op ∧ t.nvm = s.nvm ∧ (tr.val ≠ 2 → quiet t)
    (s.cpServes tr.val via.val = false → Completes (.packetReceive tr via src b) s fun t => t = s)
    ∧ (arrives → ∀ o, s.cp.op = some o → Completes (.packetReceive tr via src b) s fun t =>
        replied .busy (leBytes 1 o.op ++ leBytes 1 (o.op / 128) ++ leBytes 2 (s.msSince o.startAt 16)) t ∧ inc F.CP_CNT0_BUSY_SENT t ∧ calm t ∧ rest t)
    ∧ (arrives → s.cp.op = none →
        (flags.getLsbD 0 = true → Completes (.packetReceive tr via src b) s fun t => t.out = s.out ∧ inc F.CP_CNT1_REPLY_IN t ∧ quiet t ∧ rest t)
        ∧ (flags.getLsbD 0 = false → (s.cpRx tr.val).lastKey = some key → Completes (.packetReceive tr via src b) s fun t =>
            sent' (s.cpRx tr.val).lastReply t ∧ inc F.CP_CNT0_DUP t ∧ calm t ∧ rest t)
        ∧ (flags = 0 → op = 0 → p.length ≤ 1023 → (s.cpRx tr.val).lastKey ≠ some key → Completes (.packetReceive tr via src b) s fun t =>
            replied .ok p t ∧ t.cp.op = none ∧ (t.cpRx tr.val).lastKey = some key ∧ (tr.val ≠ 2 → t.mem = s.mem) ∧ rest t)
        ∧ (flags.getLsbD 0 = false → (cpLen op.toNat).isNone = true → (s.cpRx tr.val).lastKey ≠ some key → Completes (.packetReceive tr via src b) s fun t =>
            replied .badOpcode [] t ∧ t.cp.op = none ∧ (tr.val ≠ 2 → t.mem = s.mem) ∧ rest t))
    ∧ (s.cpServes tr.val via.val = true → s.cp.op = none → p.length ≤ 1024 → c.toNat ≠ crc → (if tr.val = 2 then True else (s.cpRx tr.val).part = []) →
        b = pk.take (7 + p.length) ++ leBytes 4 c.toNat → Completes (.packetReceive tr via src b) s fun t => replied .badCrc [] t ∧ inc F.CP_CNT0_BAD_CRC t ∧ calm t ∧ rest t)
    ∧ (s.cpServes tr.val via.val = true → tr.val ≠ 2 → (s.cpRx tr.val).part = [] →
        (p.length ≤ 1024 → 0 < m → m < pk.length → b = pk.take m → Completes (.packetReceive tr via src b) s fun t => (t.cpRx tr.val).part = b ∧ t.out = s.out ∧ t.regs = s.regs ∧ quiet t)
        ∧ (noSync b → Completes (.packetReceive tr via src b) s fun t => (t.cpRx tr.val).part = [] ∧ t.out = s.out ∧ t.regs = s.regs ∧ quiet t))
    ∧ (s.cpServes tr.val via.val = true → tr.val = 2 → b.headD 0 = 0xD7 →
        let h := leBytes 1 0xD7 ++ leBytes 1 0 ++ leBytes 1 op.toNat ++ leBytes 1 seq.toNat ++ leBytes 2 len.toNat
        (7 ≤ b.length → crc8 (b.take 6) ≠ b.getD 6 0 → noSync b.tail → Completes (.packetReceive tr via src b) s fun t => t.out = s.out ∧ inc F.CP_CNT0_HDR_ERR t ∧ quiet t)
        ∧ (b.length < 7 ∨ (crc8 (b.take 6) = b.getD 6 0 ∧ blkField b 4 2 ≤ 1024 ∧ b.length ≠ 11 + blkField b 4 2) → Completes (.packetReceive tr via src b) s fun t =>
            t.out = s.out ∧ inc F.CP_CNT1_UDP_LEN t ∧ quiet t)
        ∧ (1024 < len.toNat → b = h ++ [crc8 h] ++ p → noSync p → Completes (.packetReceive tr via src b) s fun t => replied .badParam [] t ∧ calm t))
    ∧ (s.cpServes tr.val via.val = true → tr.val = 2 →
        (noSync b → Completes (.packetReceive tr via src b) s fun t => t = s)
        ∧ (∀ j : List Byte, j ≠ [] → noSync j → p.length ≤ 1024 → b = j ++ pk → Completes (.packetReceive tr via src b) s fun t =>
            t.out = s.out ∧ inc F.CP_CNT1_UDP_LEN t ∧ quiet t))
    ∧ ((s.cpRx 1).part ≠ [] → Completes .uartGapTimeout s fun t => inc F.CP_CNT1_GAP t ∧ (t.cpRx 1).part = [] ∧ t.out = s.out ∧ quiet t)
    ∧ ((s.cpRx 1).part = [] → Completes .uartGapTimeout s fun t => t = s)
    ∧ (s.domOn 1 = false ∨ s.pwr.stage = .held → Completes (.spiCsRise sent) s fun t => t = s)
    ∧ (s.domOn 1 = true → s.pwr.stage ≠ .held → s.cp.resetDue = false → let w := (s.cpRx 0).waiting
        Completes (.spiCsRise sent) s fun t => quiet t ∧ (t.cpRx 0).part = [] ∧ (if (s.cpRx 0).part = [] then t.regs = s.regs else inc F.CP_CNT1_ABORT t)
        ∧ (if sent = 0 then t.out = s.out else ∃ y : List Byte, y.length = sent ∧ t.out = .reply 0 0 y :: s.out ∧ y.take w.flatten.length = w.flatten.take sent
            ∧ ∀ z ∈ y.drop w.flatten.length, z = 0)
        ∧ (sent = 0 → (∀ y, y ∈ w → y ≠ []) → (t.cpRx 0).waiting = w)
        ∧ ((t.cpRx 0).waiting <:+ w) ∧ ∀ y, w.head? = some y → if sent < y.length then (t.cpRx 0).waiting = w else (t.cpRx 0).waiting.length < w.length)

/-- An interrupt's arrival, record, claim and completion, the recorder's cursor and clearing, and the counters' overflow, freezing, snapshot and read -/
def Obligations.InterruptsRecorderCounters : Prop :=
  ∀ (s : State) (n : Fin 512) (info v : Word) (x : Fin 10) (mst : Fin 11) (d : Dom) (c : Fin 256) (bank : Bool),
    let prio := s.get (F.IC_SRC_PRIO n.val)
    let tx := s.icTarget n.val
    let ring := s.ring tx prio
    let fits := s.flag (F.RING_BH_EN tx prio) = true ∧ ring.held.length < s.ringSize tx prio
    let counted (e : Nat) (t : State) : Prop := t.get (F.IC_CNT_COUNT e) = min 255 (s.get (F.IC_CNT_COUNT e) + 1)
    let tail := s.get (F.RING_IDX_TAIL tx prio)
    let soft := 504 + v.toNat % 8
    let sw := d = .host ∨ d = .svc
    let at' (u : State) (cur : Word) (t : State) : Prop :=
      (∀ r, recAtOrAbove u.recd.recs cur = some r → t.word R.REC_CUR = r.seq ∧ t.flag F.REC_CTL_WVALID = true)
      ∧ (recAtOrAbove u.recd.recs cur = none → t.word R.REC_CUR = cur ∧ t.flag F.REC_CTL_WVALID = false)
    let key := v.toNat / 65536 = 0x5AFE ∧ v.getLsbD 0 = true
    let frozen := s.flag F.PMU_CTL_FREEZE = true
    let upper := 0 < c.val ∧ s.flag (F.PMU_CFG_CHAIN (c.val - 1)) = true
    let spills (t : State) : Prop := (t.word (R.PMU_OVF (c.val / 32))).getLsbD (c.val % 32) = true
    (icAssigned n.val = true → Completes (.interruptArrival n info) s fun t => counted n.val t
        ∧ (srcRec n.val = .none → prio = 0 ∨ s.flag (F.IC_SRC_MASK n.val) = true → t.ic = s.ic ∧ t.mem = s.mem ∧ t.recd = s.recd)
        ∧ (srcRec n.val = .none → prio ≠ 0 → s.flag (F.IC_SRC_MASK n.val) = false → fits →
            (t.ring tx prio).held = ring.held ++ [(n.val, s.now)] ∧ t.get (F.RING_IDX_TAIL tx prio) = (tail + 1) % (2 * s.ringSize tx prio) % 8192
            ∧ t.flag (F.IC_CNT_LOST n.val) = false ∧ (t.proc tx).doze = false ∧ t.recd = s.recd
            ∧ ∀ i < 16, t.byte (s.ringBase tx prio + 16 * (tail % s.ringSize tx prio) + i)
                = (ringRecord n.val prio false (s.flag (F.IC_CNT_LOST n.val)) (s.get (F.IC_CNT_COUNT n.val) == 255) (min 255 (s.get (F.IC_CNT_COUNT n.val) + 1)) ring.seq s.stamp info).getD i 0)
        ∧ (srcRec n.val = .none → prio ≠ 0 → s.flag (F.IC_SRC_MASK n.val) = false → ¬ fits →
            t.flag (F.IC_CNT_LOST n.val) = true ∧ t.get (F.RING_OVF_OVF tx prio) = min 65535 (s.get (F.RING_OVF_OVF tx prio) + 1) ∧ t.ic = s.ic ∧ t.mem = s.mem)
        ∧ (srcRec n.val = .crumb → (s.evCfg n.val).2.1 = false → t.word R.REC_SEQ = s.word R.REC_SEQ + 1))
    ∧ (icAssigned n.val = false → Completes (.interruptArrival n info) s fun t => t = s)
    ∧ (s.flag (F.IC_PIE_IE x.val) = true → s.flag (F.IC_LEVEL_LINE x.val) = true → Completes (.interruptEntry x) s fun t => t.flag (F.IC_PIE_IE x.val) = false ∧ (t.proc x.val).entered = true ∧ t.mem = s.mem)
    ∧ (s.flag (F.IC_PIE_IE x.val) = false ∨ s.flag (F.IC_LEVEL_LINE x.val) = false → Completes (.interruptEntry x) s fun t => t = s)
    ∧ (s.domOn 1 = true → x.val = mst.val →
        (∀ l, s.claimLevel x.val = some l → Completes (.icClaim x mst) s fun t => t.get (F.IC_LEVEL_CUR x.val) = l % 8 ∧ (t.proc x.val).stack = s.get (F.IC_LEVEL_CUR x.val) :: (s.proc x.val).stack
            ∧ t.get (F.RING_IDX_HEAD x.val l) = (s.get (F.RING_IDX_HEAD x.val l) + 1) % (2 * s.ringSize x.val l) % 8192
            ∧ ∀ e, (s.ring x.val l).held.head? = some e → (t.word (R.IC_CLAIM x.val)).toNat / 65536 % 512 = e.1 % 512)
        ∧ (s.claimLevel x.val = none → Completes (.icClaim x mst) s fun t => t.word (R.IC_CLAIM x.val) = 0 ∧ t.ic = s.ic
            ∧ t.get (F.IC_PERR_CLAIM_NONE x.val) = min 255 (s.get (F.IC_PERR_CLAIM_NONE x.val) + 1))
        ∧ ((s.proc x.val).stack = [] → Completes (.icComplete x mst) s fun t => t.ic = s.ic ∧ t.get (F.IC_PERR_CPL_EMPTY x.val) = min 255 (s.get (F.IC_PERR_CPL_EMPTY x.val) + 1))
        ∧ (∀ top, (s.proc x.val).stack.head? = some top → Completes (.icComplete x mst) s fun t => t.get (F.IC_LEVEL_CUR x.val) = top % 8 ∧ (t.proc x.val).stack = (s.proc x.val).stack.tail
            ∧ ((s.ring x.val (s.get (F.IC_LEVEL_CUR x.val))).claimed = true → (t.ring x.val (s.get (F.IC_LEVEL_CUR x.val))).held = (s.ring x.val (s.get (F.IC_LEVEL_CUR x.val))).held.tail)))
    ∧ (s.domOn 1 = true → x.val ≠ mst.val → Completes (.icClaim x mst) s (fun t => t = s) ∧ Completes (.icComplete x mst) s fun t => t = s)
    ∧ (s.domOn 1 = true → sw → Completes (.icSwset d v) s fun t => counted soft t ∧ (s.get (F.IC_SRC_PRIO soft) = 0 → v.getLsbD 3 = false → t.ic = s.ic ∧ t.mem = s.mem))
    ∧ (s.recd.writing = none → Completes .loafWriteEnd s fun t => t = s)
    ∧ (s.recd.writing.isSome = true → s.recd.coal = none → Completes .loafWriteEnd s fun t => t.recd.writing = none ∧ t.recd.coal = none ∧ t.flag F.REC_STAT_BUSY = false ∧ t.mem = s.mem
        ∧ (s.recd.clearWriting = false → t.recd.recs = s.recd.recs))
    ∧ (s.recd.writing.isSome = true → s.recd.coal.isSome = true → Completes .loafWriteEnd s fun t => t.recd.coal = none ∧ t.word R.REC_SEQ = s.word R.REC_SEQ + 1)
    ∧ (sw →
        (s.recd.followOn = false → Completes (.recNext d) s fun t => at' s (s.word R.REC_CUR + 1) t ∧ t.recd = s.recd ∧ t.flag F.REC_CTL_PAGE = s.flag F.REC_CTL_PAGE)
        ∧ (s.recd.followOn = true → Completes (.recNext d) s fun t => t.freeCount = s.freeCount + 1 ∧ t.recd = s.recd ∧ (t.word R.REC_CUR = s.word R.REC_CUR ∨ at' s (s.word R.REC_CUR + 1) t))
        ∧ Completes (.recCurWrite d v) s (fun t => at' s v t ∧ t.recd = s.recd)
        ∧ (key → s.run = true → Completes (.recClrClear d v) s fun t => t.flag F.REC_CTL_CLR_REF = true ∧ t.recd = s.recd)
        ∧ (key → s.run = false → s.recd.writing = none → Completes (.recClrClear d v) s fun t => (∀ r, r ∈ t.recd.recs → r.evt = 641) ∧ t.word R.REC_DROP0 = 0 ∧ t.word R.REC_DROP1 = 0)
        ∧ (v.toNat / 65536 ≠ 0x5AFE → Completes (.recClrClear d v) s fun t => t.recd = s.recd ∧ t.get F.SYS_KEYERR_COUNT = min 255 (s.get F.SYS_KEYERR_COUNT + 1)))
    ∧ (frozen → Completes (.counterOverflow c) s fun t => t = s)
    ∧ (¬ frozen → ¬ upper → s.pmuVal c.val = 2 ^ 48 - 1 → (c.val = 0 ∨ c.val = 1 → s.now + 10 < 2 ^ 64) → (∀ o ∈ s.occupancy, o.1 ≠ c.val) → Completes (.counterOverflow c) s fun t =>
        (s.flag (F.PMU_CFG_CHAIN c.val) = false ∨ c.val = 255 → spills t) ∧ (c.val ≠ 0 → t.pmuVal c.val = 0)
        ∧ (2 ≤ c.val → s.flag (F.PMU_CFG_CHAIN c.val) = true → c.val < 255 → s.pmuVal (c.val + 1) < 2 ^ 48 - 1 → t.pmuVal (c.val + 1) = s.pmuVal (c.val + 1) + 1 ∧ t.ic = s.ic)
        ∧ (2 ≤ c.val → s.flag (F.PMU_CFG_CHAIN c.val) = false → s.flag (F.PMU_CFG_IRQ c.val) = true → counted 313 t))
    ∧ (s.domOn 1 = true → sw →
        Completes (.pmuFreeze d) s (fun t => t.flag F.PMU_CTL_FREEZE = true ∧ t.flag F.PMU_CTL_PMU_USER = s.flag F.PMU_CTL_PMU_USER
            ∧ ∀ k < 256, (frozen ∨ k = 0 ∨ s.flag (F.PMU_CFG_CHAIN (k - 1)) = false ∨ s.pmuVal (k - 1) ≠ 2 ^ 48 - 1 → t.pmuVal k = s.pmuVal k)
              ∧ (t.pmuVal k = s.pmuVal k ∨ t.pmuVal k = (s.pmuVal k + 1) % 2 ^ 48))
        ∧ Completes (.pmuUnfreeze d) s (fun t => t.flag F.PMU_CTL_FREEZE = false ∧ t.flag F.PMU_CTL_PMU_USER = s.flag F.PMU_CTL_PMU_USER ∧ ∀ k < 256, t.pmuVal k = s.pmuVal k)
        ∧ Completes (.pmuSnap d) s (fun t => t.get F.PMU_STAT_SNAP_SEQ = (s.get F.PMU_STAT_SNAP_SEQ + 1) % 65536 ∧ ∀ k < 256, t.pmuVal k = s.pmuVal k ∧ t.word (R.PMU_SHL k) = s.word (R.PMU_CNTL k) ∧ t.shWord (R.PMU_SHH k) = s.shWord (R.PMU_CNTH k)))
    ∧ (s.domOn 1 = true →
        (d ≠ .block ∨ s.flag F.PMU_CTL_PMU_USER = true → Completes (.pmuCounterRead d c bank) s fun t => t.flag F.PMU_STAT_UDENY = s.flag F.PMU_STAT_UDENY
            ∧ (if bank then t.word (R.PMU_SHH c.val) = s.shWord (R.PMU_SHH c.val) else (t.word (R.PMU_CNTL c.val)).toNat + 2 ^ 32 * (t.word (R.PMU_CNTH c.val)).toNat = s.pmuVal c.val))
        ∧ (d = .block → s.flag F.PMU_CTL_PMU_USER = false → Completes (.pmuCounterRead d c bank) s fun t => t.flag F.PMU_STAT_UDENY = true ∧ ∀ k < 256, t.word (R.PMU_CNTH k) = s.word (R.PMU_CNTH k)))

/-- A write or a read of one word anywhere in the map: rights, unmapped addresses, domains that are off, memory, plain, read-to-clear and command registers -/
def Obligations.AccessByAddress : Prop :=
  ∀ (s : State) (d : Dom) (a : BitVec 40) (v : Word) (key : BitVec 16) (n : Fin 128) (l : Fin 24) (p i : Fin 16) (u : Fin 4),
    let r := s.region a.toNat
    let busErr (t : State) : Prop := t = s.bump F.SYS_BUSERR_COUNT
    let off (t : State) : Prop := t = if s.domOn 1 then s.bump F.PWR_STAT_PWR_OFFACC else s
    let is (x : Nat) (w : Word) (c : Instr) : Prop := exec (.registerWrite d (BitVec.ofNat 40 x) w) s = exec c s
    let reads (x : Nat) (c : Instr) : Prop := exec (.readToClear d (BitVec.ofNat 40 x)) s = exec c s
    let mem := r = .sram ∨ r = .inst ∨ r = .image ∨ r = .dramUser
    let plain := [R.TIME_HOLD, R.NET_IP 0, R.NET_MASK 1, R.SK_TIME, R.SK_WIND, R.TIME_LCH, R.REC_LIST 3 5, R.IO_GPIO_DIR, R.KZ_PERS, R.PWR_WAKEATL, R.TIME_STAT]
    let clears := [R.CP_CNT0, R.CP_CNT1, R.SYS_KEYERR, R.SYS_BUSERR, R.PWR_STAT, R.REC_CNT, R.REC_DROP0, R.NET_CNT0 2, R.HA_CNT0, R.IC_CNT 22, R.RING_OVF 3 2]
    (r = .unmapped → Completes (.registerWrite d a v) s busErr ∧ Completes (.readToClear d a) s busErr)
    ∧ (r ≠ .unmapped → r ≠ .regs →
        (mayWrite d r = false → Completes (.registerWrite d a v) s fun t => t = s)
        ∧ (mayWrite d r = true → s.domOn (regionDom r a.toNat) = false → Completes (.registerWrite d a v) s off)
        ∧ (mayRead d r = false → Completes (.readToClear d a) s busErr)
        ∧ (mayRead d r = true → s.domOn (regionDom r a.toNat) = false → Completes (.readToClear d a) s off)
        ∧ (mayRead d r = true → s.domOn (regionDom r a.toNat) = true → Completes (.readToClear d a) s fun t => t = s))
    ∧ (mem → mayWrite d r = true → s.domOn (regionDom r a.toNat) = true → Completes (.registerWrite d a v) s fun t => t = { s with mem := t.mem }
        ∧ ∀ x, t.byte x = if a.toNat ≤ x ∧ x < a.toNat + 4 then BitVec.ofNat 8 (v.toNat / 256 ^ (x - a.toNat)) else s.byte x)
    ∧ (r = .regs →
        (regDesc a.toNat = none → Completes (.registerWrite d a v) s (fun t => t = s) ∧ Completes (.readToClear d a) s fun t => t = s)
        ∧ ∀ q, regDesc a.toNat = some q →
          (s.domOn q.dom = false → Completes (.registerWrite d a v) s off ∧ Completes (.readToClear d a) s off)
          ∧ (s.domOn q.dom = true → domIn d q.writers = false → domIn d q.clearers = false → Completes (.registerWrite d a v) s fun t => t = s)
          ∧ (s.domOn q.dom = true → a.toNat ∈ plain → domIn d q.writers = true ∨ domIn d q.clearers = true → Completes (.registerWrite d a v) s fun t =>
              (∀ b, b ≠ a.toNat → t.word b = s.word b) ∧ t.mem = s.mem
              ∧ (domIn d q.writers = true → domIn d q.clearers = true →
                  t.word a.toNat = ((s.word a.toNat &&& ~~~BitVec.ofNat 32 q.rw) ||| (v &&& BitVec.ofNat 32 q.rw)) &&& ~~~(v &&& BitVec.ofNat 32 q.w1c)))
          ∧ (s.domOn q.dom = true → a.toNat ∈ clears → Completes (.readToClear d a) s fun t =>
              t.word a.toNat = s.word a.toNat &&& ~~~BitVec.ofNat 32 q.rc ∧ (∀ b, b ≠ a.toNat → t.word b = s.word b) ∧ t.mem = s.mem))
    ∧ (is R.HA_CTRL (keyed 1 key) (.haCtrlGoActive d key) ∧ is R.HA_CTRL (keyed 2 key) (.haCtrlRejoin d key) ∧ is R.HA_CTRL (keyed 4 key) (.haCtrlDemote d key)
      ∧ (n ≠ 0 → is (R.FE_SC_CFG n.val) (v ||| 1) (.streamEnable d n v) ∧ is (R.FE_SC_CFG n.val) (v &&& 0xFFFFFFFE) (.streamDisable d n v)
        ∧ is (R.FE_SC_OFSCFG n.val) v (.ofscfgWrite d n v) ∧ reads (R.FE_SC_OFSL n.val) (.feScOfslRead n))
      ∧ is (R.UART_DATA p.val) v (.uartDataWrite d p v) ∧ is R.ZAL_DISC_CTRL v (.commissionWrite d v)
      ∧ is (R.SRV_INJ_CTRL l.val) 1 (.injGo d l) ∧ is (R.SRV_INJ_CTRL l.val) 2 (.injStop d l)
      ∧ is R.TIME_INCL v (.timeIncWrite d false v) ∧ is R.TIME_INCH v (.timeIncWrite d true v)
      ∧ is R.DSF_ENSET v (.dsfEnsetWrite d v) ∧ is R.DSF_COEF_DATA v (.coefWrite d v) ∧ is R.SRV_TBL_DATA v (.srvTblDataAccess (some (d, v)))
      ∧ is R.FE_SURV_CTRL v (.surveyRecWrite d v)
      ∧ reads R.TIME_NOWL .timeNowRead ∧ reads R.SYS_CYC_T0L .sysCycT0lRead ∧ reads R.HA_TDL .haTdlRead ∧ reads R.HA_LHBL .haLhblRead
      ∧ reads (R.TCAP_TSL u.val) (.capTslRead u) ∧ reads (R.UART_DATA p.val) (.uartDataRead p) ∧ reads (R.DSF_TSL l.val) (.dsfTslRead l)
      ∧ reads (R.BE_TRELL i.val) (.beTrellRead i))
    ∧ (s.domOn 12 = true → Completes (.readToClear d (BitVec.ofNat 40 R.IO_GPIO_IN)) s fun t =>
        t.word R.IO_GPIO_IN &&& s.word R.IO_GPIO_DIR = s.word R.IO_GPIO_OUT &&& s.word R.IO_GPIO_DIR
        ∧ (∀ b, b ≠ R.IO_GPIO_IN → t.word b = s.word b) ∧ t.mem = s.mem ∧ t.out = s.out)
    ∧ (s.domOn 1 = true → Completes (.readToClear d (BitVec.ofNat 40 R.IO_TEMP)) s fun t =>
        (t.flag F.IO_TEMP_HOT = true ↔ 880 < (BitVec.ofNat 12 (t.get F.IO_TEMP_TJ)).toInt)
        ∧ (∀ b, b ≠ R.IO_TEMP → t.word b = s.word b) ∧ t.mem = s.mem ∧ t.out = s.out)

/-- A read of TIME_NOWL returns the low count and latches the high count and the fraction of one tick; a short stamp is the low 48 bits of the count -/
def Obligations.TimeNowRead : Prop :=
  ∀ (s : State) (d : Dom), s.domOn 11 = true →
    let t := (s.regRead d R.TIME_NOWL).1
    (s.regRead d R.TIME_NOWL).2 = s.time.count.extractLsb' 0 32
    ∧ t.word R.TIME_NOWH = s.time.count.extractLsb' 32 32 ∧ t.word R.TIME_NOWF = s.time.frac ∧ t.time = s.time
    ∧ exec .timeNowRead s = .next t ∧ s.stamp = s.time.count.extractLsb' 0 48
end

