-- ==== Sys2Proof/Laws/Map.lean ====
section
/-!
SUPPORT. Laws of the canonical sparse maps, of padded lists and of bit fields: what a read after a write gives, and that every
operation keeps the canonical form.
-/
namespace Sys2Proof.Machine

variable {α : Type}

theorem mapGet_mapErase_same (d : Nat → α) (k : Nat) (l : List (Nat × α)) : mapGet d k (mapErase k l) = d k := by
  induction l with
  | nil => rfl
  | cons e t ih =>
    obtain ⟨k', v'⟩ := e
    by_cases h : k = k' <;> simp [mapErase, mapGet, h, ih]
    subst h; exact ih

theorem mapGet_mapErase_ne (d : Nat → α) {k j : Nat} (h : j ≠ k) (l : List (Nat × α)) :
    mapGet d j (mapErase k l) = mapGet d j l := by
  induction l with
  | nil => rfl
  | cons e t ih =>
    obtain ⟨k', v'⟩ := e
    by_cases h1 : k = k'
    · subst h1; simp [mapErase, mapGet, h, ih]
    · simp [mapErase, mapGet, h1, ih]

theorem mapGet_mapPut (d : Nat → α) (k j : Nat) (v : α) (l : List (Nat × α)) :
    mapGet d j (mapPut k v l) = if j = k then v else mapGet d j l := by
  induction l with
  | nil => simp [mapPut, mapGet]
  | cons e t ih =>
    obtain ⟨k', v'⟩ := e
    by_cases h1 : k < k'
    · simp [mapPut, mapGet, h1]
    · by_cases h2 : k = k'
      · subst h2; by_cases h3 : j = k <;> simp [mapPut, mapGet, h3]
      · by_cases h3 : j = k'
        · subst h3; simp [mapPut, mapGet, h1, h2, Ne.symm h2]
        · simp [mapPut, mapGet, h1, h2, h3, ih]

/-- A read after a write. -/
theorem mapGet_mapSet [DecidableEq α] (d : Nat → α) (k j : Nat) (v : α) (l : List (Nat × α)) :
    mapGet d j (mapSet d k v l) = if j = k then v else mapGet d j l := by
  unfold mapSet
  by_cases h : v = d k
  · by_cases h2 : j = k
    · subst h2; simp [h, mapGet_mapErase_same]
    · simp [h, h2, mapGet_mapErase_ne]
  · simp [h, mapGet_mapPut]

theorem mapWfFrom_mono [DecidableEq α] {d : Nat → α} {a b : Nat} (h : a ≤ b) :
    ∀ l : List (Nat × α), mapWfFrom d b l = true → mapWfFrom d a l = true
  | [], _ => rfl
  | (k, v) :: t, hb => by
    simp only [mapWfFrom, Bool.and_eq_true, decide_eq_true_eq] at hb ⊢
    exact ⟨⟨Nat.le_trans h hb.1.1, hb.1.2⟩, hb.2⟩

theorem mapWfFrom_mapErase [DecidableEq α] {d : Nat → α} (k : Nat) :
    ∀ (l : List (Nat × α)) (a : Nat), mapWfFrom d a l = true → mapWfFrom d a (mapErase k l) = true
  | [], _, _ => rfl
  | (k', v') :: t, a, h => by
    simp only [mapWfFrom, Bool.and_eq_true, decide_eq_true_eq] at h
    by_cases h1 : k = k'
    · simp only [mapErase, h1, if_true]
      subst h1
      exact mapWfFrom_mono (by omega) _ (mapWfFrom_mapErase k t _ h.2)
    · simp only [mapErase, h1, if_false, mapWfFrom, Bool.and_eq_true, decide_eq_true_eq]
      exact ⟨h.1, mapWfFrom_mapErase k t _ h.2⟩

theorem mapWfFrom_mapPut [DecidableEq α] {d : Nat → α} (k : Nat) (v : α) (hv : v ≠ d k) :
    ∀ (l : List (Nat × α)) (a : Nat), a ≤ k → mapWfFrom d a l = true → mapWfFrom d a (mapPut k v l) = true
  | [], a, hk, _ => by simp [mapPut, mapWfFrom, hk, hv]
  | (k', v') :: t, a, hk, h => by
    simp only [mapWfFrom, Bool.and_eq_true, decide_eq_true_eq] at h
    by_cases h1 : k < k'
    · simp only [mapPut, h1, if_true, mapWfFrom, Bool.and_eq_true, decide_eq_true_eq]
      exact ⟨⟨hk, hv⟩, ⟨h1, h.1.2⟩, h.2⟩
    · by_cases h2 : k = k'
      · subst h2
        simp only [mapPut, h1, if_false, if_true, mapWfFrom, Bool.and_eq_true, decide_eq_true_eq]
        exact ⟨⟨hk, hv⟩, h.2⟩
      · simp only [mapPut, h1, h2, if_false, mapWfFrom, Bool.and_eq_true, decide_eq_true_eq]
        exact ⟨h.1, mapWfFrom_mapPut k v hv t _ (by omega) h.2⟩

/-- A write keeps the canonical form. -/
theorem mapWf_mapSet [DecidableEq α] {d : Nat → α} (k : Nat) (v : α) {l : List (Nat × α)} (h : mapWf d l = true) :
    mapWf d (mapSet d k v l) = true := by
  unfold mapSet
  by_cases hv : v = d k
  · simp only [hv, if_true]; exact mapWfFrom_mapErase k l 0 h
  · simp only [hv, if_false]; exact mapWfFrom_mapPut k v hv l 0 (Nat.zero_le _) h

theorem mapWfFrom_mapUpdate [DecidableEq α] {d : Nat → α} (f : Nat → α → α) :
    ∀ (l : List (Nat × α)) (a : Nat), mapWfFrom d a l = true → mapWfFrom d a (mapUpdate d f l) = true
  | [], _, _ => rfl
  | (k, v) :: t, a, h => by
    simp only [mapWfFrom, Bool.and_eq_true, decide_eq_true_eq] at h
    have ih := mapWfFrom_mapUpdate f t _ h.2
    unfold mapUpdate at ih ⊢
    by_cases h1 : f k v = d k
    · simp only [List.filterMap_cons, h1, if_true]
      exact mapWfFrom_mono (by omega) _ ih
    · simp only [List.filterMap_cons, h1, if_false, mapWfFrom, Bool.and_eq_true, decide_eq_true_eq]
      exact ⟨⟨h.1.1, h1⟩, ih⟩

/-- Rewriting the entries keeps the canonical form. -/
theorem mapWf_mapUpdate [DecidableEq α] {d : Nat → α} (f : Nat → α → α) {l : List (Nat × α)} (h : mapWf d l = true) :
    mapWf d (mapUpdate d f l) = true := mapWfFrom_mapUpdate f l 0 h

theorem mapWfFrom_filter [DecidableEq α] {d : Nat → α} (p : Nat × α → Bool) :
    ∀ (l : List (Nat × α)) (a : Nat), mapWfFrom d a l = true → mapWfFrom d a (l.filter p) = true
  | [], _, _ => rfl
  | (k, v) :: t, a, h => by
    simp only [mapWfFrom, Bool.and_eq_true, decide_eq_true_eq] at h
    have ih := mapWfFrom_filter p t _ h.2
    by_cases h1 : p (k, v) = true
    · simp only [List.filter_cons, h1, if_true, mapWfFrom, Bool.and_eq_true, decide_eq_true_eq]
      exact ⟨h.1, ih⟩
    · simp only [List.filter_cons, h1]
      exact mapWfFrom_mono (by omega) _ ih

/-- Dropping entries keeps the canonical form. -/
theorem mapWf_filter [DecidableEq α] {d : Nat → α} (p : Nat × α → Bool) {l : List (Nat × α)} (h : mapWf d l = true) :
    mapWf d (l.filter p) = true := mapWfFrom_filter p l 0 h

/-! Padded lists. -/

/-- An element after one was replaced. -/
theorem getD_padMod (d : α) (f : α → α) :
    ∀ (n m : Nat) (l : List α), (padMod d n f l).getD m d = if m = n then f (l.getD n d) else l.getD m d
  | 0, 0, [] => rfl
  | 0, 0, _ :: _ => rfl
  | 0, m + 1, [] => by simp [padMod]
  | 0, m + 1, _ :: _ => by simp [padMod]
  | n + 1, 0, [] => by simp [padMod]
  | n + 1, 0, _ :: _ => by simp [padMod]
  | n + 1, m + 1, [] => by
    have := getD_padMod d f n m []
    simpa [padMod] using this
  | n + 1, m + 1, a :: t => by
    have := getD_padMod d f n m t
    simpa [padMod] using this

/-! Registers and fields. -/

/-- A register's word after a register was written. -/
theorem State.word_setWord (s : State) (a b : Nat) (v : Word) : (s.setWord a v).word b = if b = a then v else s.word b :=
  mapGet_mapSet resetWord a b v s.regs

@[simp] theorem State.word_setWord_same (s : State) (a : Nat) (v : Word) : (s.setWord a v).word a = v := by
  simp [State.word_setWord]

theorem State.word_setWord_ne (s : State) {a b : Nat} (h : b ≠ a) (v : Word) : (s.setWord a v).word b = s.word b := by
  simp [State.word_setWord, h]

/-- A shadow word after one was written. -/
theorem State.shWord_setShWord (s : State) (a b : Nat) (v : Word) :
    (s.setShWord a v).shWord b = if b = a then v else s.shWord b := mapGet_mapSet resetWord a b v s.shadow

/-- A byte after one was written. -/
theorem State.byte_setByte (s : State) (a b : Nat) (v : Byte) : (s.setByte a v).byte b = if b = a then v else s.byte b :=
  mapGet_mapSet memDefault a b v s.mem

/-- A field of a word after it was replaced. -/
theorem Fld.of_into (f : Fld) (v : Nat) (w : Word) (h : f.lo + f.w ≤ 32) : f.of (f.into v w) = v % 2 ^ f.w := by
  obtain ⟨a, lo, n⟩ := f
  simp only at h
  apply Nat.eq_of_testBit_eq
  intro i
  have hv : v % 2 ^ n * 2 ^ lo < 2 ^ 32 := by
    calc v % 2 ^ n * 2 ^ lo < 2 ^ n * 2 ^ lo := by
          exact Nat.mul_lt_mul_of_pos_right (Nat.mod_lt _ (Nat.two_pow_pos n)) (Nat.two_pow_pos lo)
      _ = 2 ^ (n + lo) := by rw [Nat.pow_add]
      _ ≤ 2 ^ 32 := Nat.pow_le_pow_right (by decide) (by omega)
  have hm : (2 ^ n - 1) * 2 ^ lo < 2 ^ 32 := by
    calc (2 ^ n - 1) * 2 ^ lo < 2 ^ n * 2 ^ lo := by
          apply Nat.mul_lt_mul_of_pos_right _ (Nat.two_pow_pos lo)
          have := Nat.two_pow_pos n; omega
      _ = 2 ^ (n + lo) := by rw [Nat.pow_add]
      _ ≤ 2 ^ 32 := Nat.pow_le_pow_right (by decide) (by omega)
  simp only [Fld.of, Fld.into, Fld.mask, Nat.testBit_mod_two_pow, Nat.testBit_div_two_pow]
  by_cases hi : i < n
  · have h32 : i + lo < 32 := by omega
    have e1 : ((2 ^ n - 1) * 2 ^ lo).testBit (i + lo) = true := by
      rw [Nat.testBit_mul_two_pow]; simp [hi]
    have e2 : (v % 2 ^ n * 2 ^ lo).testBit (i + lo) = v.testBit i := by
      rw [Nat.testBit_mul_two_pow]; simp [hi]
    rw [← BitVec.getLsbD]
    simp only [BitVec.getLsbD_or, BitVec.getLsbD_and, BitVec.getLsbD_not, BitVec.getLsbD_ofNat, h32, e1, e2]
    simp [hi]
  · simp [hi]

/-- A field of a word after another field of it was replaced. -/
theorem Fld.of_into_ne (f g : Fld) (v : Nat) (w : Word) (h : f.lo + f.w ≤ g.lo ∨ g.lo + g.w ≤ f.lo) :
    f.of (g.into v w) = f.of w := by
  obtain ⟨a, lo, n⟩ := f
  obtain ⟨b, lo', n'⟩ := g
  simp only at h
  apply Nat.eq_of_testBit_eq
  intro i
  simp only [Fld.of, Fld.into, Fld.mask, Nat.testBit_mod_two_pow, Nat.testBit_div_two_pow]
  by_cases hi : i < n
  · have e1 : ((2 ^ n' - 1) * 2 ^ lo').testBit (i + lo) = false := by
      rw [Nat.testBit_mul_two_pow]
      rcases h with h | h
      · simp; omega
      · simp; omega
    have e2 : (v % 2 ^ n' * 2 ^ lo').testBit (i + lo) = false := by
      rw [Nat.testBit_mul_two_pow]
      rcases h with h | h
      · simp; omega
      · simp; omega
    rw [← BitVec.getLsbD, ← BitVec.getLsbD]
    by_cases h32 : i + lo < 32
    · simp only [BitVec.getLsbD_or, BitVec.getLsbD_and, BitVec.getLsbD_not, BitVec.getLsbD_ofNat, h32, e1, e2]
      simp
    · rw [BitVec.getLsbD_of_ge _ _ (by omega), BitVec.getLsbD_of_ge w _ (by omega)]
  · simp [hi]

/-- A field after it was written. -/
theorem State.get_set (s : State) (f : Fld) (v : Nat) (h : f.lo + f.w ≤ 32) : (s.set f v).get f = v % 2 ^ f.w := by
  simp [State.get, State.set, Fld.of_into f v _ h]

/-- A field of another register after a field was written. -/
theorem State.get_set_addr (s : State) (f g : Fld) (v : Nat) (h : f.addr ≠ g.addr) : (s.set g v).get f = s.get f := by
  simp [State.get, State.set, State.word_setWord, h]

/-- A field of the same register, apart from the one that was written. -/
theorem State.get_set_apart (s : State) (f g : Fld) (v : Nat) (h : f.lo + f.w ≤ g.lo ∨ g.lo + g.w ≤ f.lo) :
    (s.set g v).get f = s.get f := by
  by_cases ha : f.addr = g.addr
  · simp [State.get, State.set, ha, Fld.of_into_ne f g v _ h]
  · exact State.get_set_addr s f g v ha

/-- A one-bit field after it was written. -/
theorem State.flag_setFlag (s : State) (f : Fld) (b : Bool) (h : f.lo + f.w ≤ 32) (h1 : f.w = 1) : (s.setFlag f b).flag f = b := by
  cases b <;> simp [State.flag, State.setFlag, State.get_set s f _ h, h1]

/-- A counter after it was incremented, saturating. -/
theorem State.get_bump (s : State) (f : Fld) (h : f.lo + f.w ≤ 32) : (s.bump f).get f = min (2 ^ f.w - 1) (s.get f + 1) := by
  have hp : 0 < 2 ^ f.w := Nat.two_pow_pos _
  rw [State.bump, State.bumpBy, State.get_set s f _ h, Nat.mod_eq_of_lt]
  omega

/-! The canonical form. -/

theorem State.setWord_wf (s : State) (a : Nat) (v : Word) (h : mapWf resetWord s.regs = true) :
    mapWf resetWord (s.setWord a v).regs = true := mapWf_mapSet a v h

theorem State.setShWord_wf (s : State) (a : Nat) (v : Word) (h : mapWf resetWord s.shadow = true) :
    mapWf resetWord (s.setShWord a v).shadow = true := mapWf_mapSet a v h

theorem State.setByte_wf (s : State) (a : Nat) (v : Byte) (h : s.mem.wf = true) : (s.setByte a v).mem.wf = true :=
  mapWf_mapSet a v h

theorem State.storeBytes_wf : ∀ (l : List Byte) (s : State) (a : Nat), s.mem.wf = true → (s.storeBytes a l).mem.wf = true
  | [], _, _, h => h
  | b :: t, s, a, h => State.storeBytes_wf t (s.setByte a b) (a + 1) (State.setByte_wf s a b h)

theorem State.st_wf (s : State) (a n v : Nat) (h : s.mem.wf = true) : (s.st a n v).mem.wf = true :=
  State.storeBytes_wf _ s a h

/-- A store of bytes leaves every byte outside them. -/
theorem State.byte_storeBytes_out : ∀ (l : List Byte) (s : State) (a b : Nat), b < a ∨ a + l.length ≤ b →
    (s.storeBytes a l).byte b = s.byte b
  | [], _, _, _, _ => rfl
  | x :: t, s, a, b, h => by
    have h1 : b ≠ a := by simp at h; omega
    have ih := State.byte_storeBytes_out t (s.setByte a x) (a + 1) b (by simp at h; omega)
    simp only [State.storeBytes, ih, State.byte_setByte, h1, if_false]

end Sys2Proof.Machine
end

