-- ==== Sys2Proof/Laws/State.lean ====
section
/-!
SUPPORT. One lemma per field per update: what each named update of the state leaves, and what it sets.
-/
namespace Sys2Proof.Machine

/-! setWord. -/

@[simp] theorem State.setWord_shadow (s : State) (a : Nat) (v : Word) : (s.setWord a v).shadow = s.shadow := rfl
@[simp] theorem State.setWord_mem (s : State) (a : Nat) (v : Word) : (s.setWord a v).mem = s.mem := rfl
@[simp] theorem State.setWord_time (s : State) (a : Nat) (v : Word) : (s.setWord a v).time = s.time := rfl
@[simp] theorem State.setWord_recd (s : State) (a : Nat) (v : Word) : (s.setWord a v).recd = s.recd := rfl
@[simp] theorem State.setWord_ic (s : State) (a : Nat) (v : Word) : (s.setWord a v).ic = s.ic := rfl
@[simp] theorem State.setWord_pwr (s : State) (a : Nat) (v : Word) : (s.setWord a v).pwr = s.pwr := rfl
@[simp] theorem State.setWord_nvm (s : State) (a : Nat) (v : Word) : (s.setWord a v).nvm = s.nvm := rfl
@[simp] theorem State.setWord_fe (s : State) (a : Nat) (v : Word) : (s.setWord a v).fe = s.fe := rfl
@[simp] theorem State.setWord_est (s : State) (a : Nat) (v : Word) : (s.setWord a v).est = s.est := rfl
@[simp] theorem State.setWord_surv (s : State) (a : Nat) (v : Word) : (s.setWord a v).surv = s.surv := rfl
@[simp] theorem State.setWord_trk (s : State) (a : Nat) (v : Word) : (s.setWord a v).trk = s.trk := rfl
@[simp] theorem State.setWord_sk (s : State) (a : Nat) (v : Word) : (s.setWord a v).sk = s.sk := rfl
@[simp] theorem State.setWord_jobs (s : State) (a : Nat) (v : Word) : (s.setWord a v).jobs = s.jobs := rfl
@[simp] theorem State.setWord_alc (s : State) (a : Nat) (v : Word) : (s.setWord a v).alc = s.alc := rfl
@[simp] theorem State.setWord_srv (s : State) (a : Nat) (v : Word) : (s.setWord a v).srv = s.srv := rfl
@[simp] theorem State.setWord_dsf (s : State) (a : Nat) (v : Word) : (s.setWord a v).dsf = s.dsf := rfl
@[simp] theorem State.setWord_syncEdge (s : State) (a : Nat) (v : Word) : (s.setWord a v).syncEdge = s.syncEdge := rfl
@[simp] theorem State.setWord_ha (s : State) (a : Nat) (v : Word) : (s.setWord a v).ha = s.ha := rfl
@[simp] theorem State.setWord_kz (s : State) (a : Nat) (v : Word) : (s.setWord a v).kz = s.kz := rfl
@[simp] theorem State.setWord_gn (s : State) (a : Nat) (v : Word) : (s.setWord a v).gn = s.gn := rfl
@[simp] theorem State.setWord_net (s : State) (a : Nat) (v : Word) : (s.setWord a v).net = s.net := rfl
@[simp] theorem State.setWord_can (s : State) (a : Nat) (v : Word) : (s.setWord a v).can = s.can := rfl
@[simp] theorem State.setWord_be (s : State) (a : Nat) (v : Word) : (s.setWord a v).be = s.be := rfl
@[simp] theorem State.setWord_cp (s : State) (a : Nat) (v : Word) : (s.setWord a v).cp = s.cp := rfl
@[simp] theorem State.setWord_scrub (s : State) (a : Nat) (v : Word) : (s.setWord a v).scrub = s.scrub := rfl
@[simp] theorem State.setWord_cyc (s : State) (a : Nat) (v : Word) : (s.setWord a v).cyc = s.cyc := rfl
@[simp] theorem State.setWord_freeCount (s : State) (a : Nat) (v : Word) : (s.setWord a v).freeCount = s.freeCount := rfl
@[simp] theorem State.setWord_out (s : State) (a : Nat) (v : Word) : (s.setWord a v).out = s.out := rfl
@[simp] theorem State.setWord_pending (s : State) (a : Nat) (v : Word) : (s.setWord a v).pending = s.pending := rfl
@[simp] theorem State.setWord_shWord (s : State) (a : Nat) (v : Word) (x : Nat) : (s.setWord a v).shWord x = s.shWord x := rfl
@[simp] theorem State.setWord_byte (s : State) (a : Nat) (v : Word) (x : Nat) : (s.setWord a v).byte x = s.byte x := rfl
@[simp] theorem State.setWord_now (s : State) (a : Nat) (v : Word) : (s.setWord a v).now = s.now := rfl

/-! setShWord. -/

@[simp] theorem State.setShWord_regs (s : State) (a : Nat) (v : Word) : (s.setShWord a v).regs = s.regs := rfl
@[simp] theorem State.setShWord_mem (s : State) (a : Nat) (v : Word) : (s.setShWord a v).mem = s.mem := rfl
@[simp] theorem State.setShWord_time (s : State) (a : Nat) (v : Word) : (s.setShWord a v).time = s.time := rfl
@[simp] theorem State.setShWord_recd (s : State) (a : Nat) (v : Word) : (s.setShWord a v).recd = s.recd := rfl
@[simp] theorem State.setShWord_ic (s : State) (a : Nat) (v : Word) : (s.setShWord a v).ic = s.ic := rfl
@[simp] theorem State.setShWord_pwr (s : State) (a : Nat) (v : Word) : (s.setShWord a v).pwr = s.pwr := rfl
@[simp] theorem State.setShWord_nvm (s : State) (a : Nat) (v : Word) : (s.setShWord a v).nvm = s.nvm := rfl
@[simp] theorem State.setShWord_fe (s : State) (a : Nat) (v : Word) : (s.setShWord a v).fe = s.fe := rfl
@[simp] theorem State.setShWord_est (s : State) (a : Nat) (v : Word) : (s.setShWord a v).est = s.est := rfl
@[simp] theorem State.setShWord_surv (s : State) (a : Nat) (v : Word) : (s.setShWord a v).surv = s.surv := rfl
@[simp] theorem State.setShWord_trk (s : State) (a : Nat) (v : Word) : (s.setShWord a v).trk = s.trk := rfl
@[simp] theorem State.setShWord_sk (s : State) (a : Nat) (v : Word) : (s.setShWord a v).sk = s.sk := rfl
@[simp] theorem State.setShWord_jobs (s : State) (a : Nat) (v : Word) : (s.setShWord a v).jobs = s.jobs := rfl
@[simp] theorem State.setShWord_alc (s : State) (a : Nat) (v : Word) : (s.setShWord a v).alc = s.alc := rfl
@[simp] theorem State.setShWord_srv (s : State) (a : Nat) (v : Word) : (s.setShWord a v).srv = s.srv := rfl
@[simp] theorem State.setShWord_dsf (s : State) (a : Nat) (v : Word) : (s.setShWord a v).dsf = s.dsf := rfl
@[simp] theorem State.setShWord_syncEdge (s : State) (a : Nat) (v : Word) : (s.setShWord a v).syncEdge = s.syncEdge := rfl
@[simp] theorem State.setShWord_ha (s : State) (a : Nat) (v : Word) : (s.setShWord a v).ha = s.ha := rfl
@[simp] theorem State.setShWord_kz (s : State) (a : Nat) (v : Word) : (s.setShWord a v).kz = s.kz := rfl
@[simp] theorem State.setShWord_gn (s : State) (a : Nat) (v : Word) : (s.setShWord a v).gn = s.gn := rfl
@[simp] theorem State.setShWord_net (s : State) (a : Nat) (v : Word) : (s.setShWord a v).net = s.net := rfl
@[simp] theorem State.setShWord_can (s : State) (a : Nat) (v : Word) : (s.setShWord a v).can = s.can := rfl
@[simp] theorem State.setShWord_be (s : State) (a : Nat) (v : Word) : (s.setShWord a v).be = s.be := rfl
@[simp] theorem State.setShWord_cp (s : State) (a : Nat) (v : Word) : (s.setShWord a v).cp = s.cp := rfl
@[simp] theorem State.setShWord_scrub (s : State) (a : Nat) (v : Word) : (s.setShWord a v).scrub = s.scrub := rfl
@[simp] theorem State.setShWord_cyc (s : State) (a : Nat) (v : Word) : (s.setShWord a v).cyc = s.cyc := rfl
@[simp] theorem State.setShWord_freeCount (s : State) (a : Nat) (v : Word) : (s.setShWord a v).freeCount = s.freeCount := rfl
@[simp] theorem State.setShWord_out (s : State) (a : Nat) (v : Word) : (s.setShWord a v).out = s.out := rfl
@[simp] theorem State.setShWord_pending (s : State) (a : Nat) (v : Word) : (s.setShWord a v).pending = s.pending := rfl
@[simp] theorem State.setShWord_word (s : State) (a : Nat) (v : Word) (x : Nat) : (s.setShWord a v).word x = s.word x := rfl
@[simp] theorem State.setShWord_get (s : State) (a : Nat) (v : Word) (x : Fld) : (s.setShWord a v).get x = s.get x := rfl
@[simp] theorem State.setShWord_flag (s : State) (a : Nat) (v : Word) (x : Fld) : (s.setShWord a v).flag x = s.flag x := rfl
@[simp] theorem State.setShWord_byte (s : State) (a : Nat) (v : Word) (x : Nat) : (s.setShWord a v).byte x = s.byte x := rfl
@[simp] theorem State.setShWord_domOn (s : State) (a : Nat) (v : Word) (x : Nat) : (s.setShWord a v).domOn x = s.domOn x := rfl
@[simp] theorem State.setShWord_now (s : State) (a : Nat) (v : Word) : (s.setShWord a v).now = s.now := rfl

/-! set. -/

@[simp] theorem State.set_shadow (s : State) (f : Fld) (v : Nat) : (s.set f v).shadow = s.shadow := rfl
@[simp] theorem State.set_mem (s : State) (f : Fld) (v : Nat) : (s.set f v).mem = s.mem := rfl
@[simp] theorem State.set_time (s : State) (f : Fld) (v : Nat) : (s.set f v).time = s.time := rfl
@[simp] theorem State.set_recd (s : State) (f : Fld) (v : Nat) : (s.set f v).recd = s.recd := rfl
@[simp] theorem State.set_ic (s : State) (f : Fld) (v : Nat) : (s.set f v).ic = s.ic := rfl
@[simp] theorem State.set_pwr (s : State) (f : Fld) (v : Nat) : (s.set f v).pwr = s.pwr := rfl
@[simp] theorem State.set_nvm (s : State) (f : Fld) (v : Nat) : (s.set f v).nvm = s.nvm := rfl
@[simp] theorem State.set_fe (s : State) (f : Fld) (v : Nat) : (s.set f v).fe = s.fe := rfl
@[simp] theorem State.set_est (s : State) (f : Fld) (v : Nat) : (s.set f v).est = s.est := rfl
@[simp] theorem State.set_surv (s : State) (f : Fld) (v : Nat) : (s.set f v).surv = s.surv := rfl
@[simp] theorem State.set_trk (s : State) (f : Fld) (v : Nat) : (s.set f v).trk = s.trk := rfl
@[simp] theorem State.set_sk (s : State) (f : Fld) (v : Nat) : (s.set f v).sk = s.sk := rfl
@[simp] theorem State.set_jobs (s : State) (f : Fld) (v : Nat) : (s.set f v).jobs = s.jobs := rfl
@[simp] theorem State.set_alc (s : State) (f : Fld) (v : Nat) : (s.set f v).alc = s.alc := rfl
@[simp] theorem State.set_srv (s : State) (f : Fld) (v : Nat) : (s.set f v).srv = s.srv := rfl
@[simp] theorem State.set_dsf (s : State) (f : Fld) (v : Nat) : (s.set f v).dsf = s.dsf := rfl
@[simp] theorem State.set_syncEdge (s : State) (f : Fld) (v : Nat) : (s.set f v).syncEdge = s.syncEdge := rfl
@[simp] theorem State.set_ha (s : State) (f : Fld) (v : Nat) : (s.set f v).ha = s.ha := rfl
@[simp] theorem State.set_kz (s : State) (f : Fld) (v : Nat) : (s.set f v).kz = s.kz := rfl
@[simp] theorem State.set_gn (s : State) (f : Fld) (v : Nat) : (s.set f v).gn = s.gn := rfl
@[simp] theorem State.set_net (s : State) (f : Fld) (v : Nat) : (s.set f v).net = s.net := rfl
@[simp] theorem State.set_can (s : State) (f : Fld) (v : Nat) : (s.set f v).can = s.can := rfl
@[simp] theorem State.set_be (s : State) (f : Fld) (v : Nat) : (s.set f v).be = s.be := rfl
@[simp] theorem State.set_cp (s : State) (f : Fld) (v : Nat) : (s.set f v).cp = s.cp := rfl
@[simp] theorem State.set_scrub (s : State) (f : Fld) (v : Nat) : (s.set f v).scrub = s.scrub := rfl
@[simp] theorem State.set_cyc (s : State) (f : Fld) (v : Nat) : (s.set f v).cyc = s.cyc := rfl
@[simp] theorem State.set_freeCount (s : State) (f : Fld) (v : Nat) : (s.set f v).freeCount = s.freeCount := rfl
@[simp] theorem State.set_out (s : State) (f : Fld) (v : Nat) : (s.set f v).out = s.out := rfl
@[simp] theorem State.set_pending (s : State) (f : Fld) (v : Nat) : (s.set f v).pending = s.pending := rfl
@[simp] theorem State.set_shWord (s : State) (f : Fld) (v : Nat) (x : Nat) : (s.set f v).shWord x = s.shWord x := rfl
@[simp] theorem State.set_byte (s : State) (f : Fld) (v : Nat) (x : Nat) : (s.set f v).byte x = s.byte x := rfl
@[simp] theorem State.set_now (s : State) (f : Fld) (v : Nat) : (s.set f v).now = s.now := rfl

/-! setFlag. -/

@[simp] theorem State.setFlag_shadow (s : State) (f : Fld) (b : Bool) : (s.setFlag f b).shadow = s.shadow := rfl
@[simp] theorem State.setFlag_mem (s : State) (f : Fld) (b : Bool) : (s.setFlag f b).mem = s.mem := rfl
@[simp] theorem State.setFlag_time (s : State) (f : Fld) (b : Bool) : (s.setFlag f b).time = s.time := rfl
@[simp] theorem State.setFlag_recd (s : State) (f : Fld) (b : Bool) : (s.setFlag f b).recd = s.recd := rfl
@[simp] theorem State.setFlag_ic (s : State) (f : Fld) (b : Bool) : (s.setFlag f b).ic = s.ic := rfl
@[simp] theorem State.setFlag_pwr (s : State) (f : Fld) (b : Bool) : (s.setFlag f b).pwr = s.pwr := rfl
@[simp] theorem State.setFlag_nvm (s : State) (f : Fld) (b : Bool) : (s.setFlag f b).nvm = s.nvm := rfl
@[simp] theorem State.setFlag_fe (s : State) (f : Fld) (b : Bool) : (s.setFlag f b).fe = s.fe := rfl
@[simp] theorem State.setFlag_est (s : State) (f : Fld) (b : Bool) : (s.setFlag f b).est = s.est := rfl
@[simp] theorem State.setFlag_surv (s : State) (f : Fld) (b : Bool) : (s.setFlag f b).surv = s.surv := rfl
@[simp] theorem State.setFlag_trk (s : State) (f : Fld) (b : Bool) : (s.setFlag f b).trk = s.trk := rfl
@[simp] theorem State.setFlag_sk (s : State) (f : Fld) (b : Bool) : (s.setFlag f b).sk = s.sk := rfl
@[simp] theorem State.setFlag_jobs (s : State) (f : Fld) (b : Bool) : (s.setFlag f b).jobs = s.jobs := rfl
@[simp] theorem State.setFlag_alc (s : State) (f : Fld) (b : Bool) : (s.setFlag f b).alc = s.alc := rfl
@[simp] theorem State.setFlag_srv (s : State) (f : Fld) (b : Bool) : (s.setFlag f b).srv = s.srv := rfl
@[simp] theorem State.setFlag_dsf (s : State) (f : Fld) (b : Bool) : (s.setFlag f b).dsf = s.dsf := rfl
@[simp] theorem State.setFlag_syncEdge (s : State) (f : Fld) (b : Bool) : (s.setFlag f b).syncEdge = s.syncEdge := rfl
@[simp] theorem State.setFlag_ha (s : State) (f : Fld) (b : Bool) : (s.setFlag f b).ha = s.ha := rfl
@[simp] theorem State.setFlag_kz (s : State) (f : Fld) (b : Bool) : (s.setFlag f b).kz = s.kz := rfl
@[simp] theorem State.setFlag_gn (s : State) (f : Fld) (b : Bool) : (s.setFlag f b).gn = s.gn := rfl
@[simp] theorem State.setFlag_net (s : State) (f : Fld) (b : Bool) : (s.setFlag f b).net = s.net := rfl
@[simp] theorem State.setFlag_can (s : State) (f : Fld) (b : Bool) : (s.setFlag f b).can = s.can := rfl
@[simp] theorem State.setFlag_be (s : State) (f : Fld) (b : Bool) : (s.setFlag f b).be = s.be := rfl
@[simp] theorem State.setFlag_cp (s : State) (f : Fld) (b : Bool) : (s.setFlag f b).cp = s.cp := rfl
@[simp] theorem State.setFlag_scrub (s : State) (f : Fld) (b : Bool) : (s.setFlag f b).scrub = s.scrub := rfl
@[simp] theorem State.setFlag_cyc (s : State) (f : Fld) (b : Bool) : (s.setFlag f b).cyc = s.cyc := rfl
@[simp] theorem State.setFlag_freeCount (s : State) (f : Fld) (b : Bool) : (s.setFlag f b).freeCount = s.freeCount := rfl
@[simp] theorem State.setFlag_out (s : State) (f : Fld) (b : Bool) : (s.setFlag f b).out = s.out := rfl
@[simp] theorem State.setFlag_pending (s : State) (f : Fld) (b : Bool) : (s.setFlag f b).pending = s.pending := rfl
@[simp] theorem State.setFlag_shWord (s : State) (f : Fld) (b : Bool) (x : Nat) : (s.setFlag f b).shWord x = s.shWord x := rfl
@[simp] theorem State.setFlag_byte (s : State) (f : Fld) (b : Bool) (x : Nat) : (s.setFlag f b).byte x = s.byte x := rfl
@[simp] theorem State.setFlag_now (s : State) (f : Fld) (b : Bool) : (s.setFlag f b).now = s.now := rfl

/-! bumpBy. -/

@[simp] theorem State.bumpBy_shadow (s : State) (f : Fld) (n : Nat) : (s.bumpBy f n).shadow = s.shadow := rfl
@[simp] theorem State.bumpBy_mem (s : State) (f : Fld) (n : Nat) : (s.bumpBy f n).mem = s.mem := rfl
@[simp] theorem State.bumpBy_time (s : State) (f : Fld) (n : Nat) : (s.bumpBy f n).time = s.time := rfl
@[simp] theorem State.bumpBy_recd (s : State) (f : Fld) (n : Nat) : (s.bumpBy f n).recd = s.recd := rfl
@[simp] theorem State.bumpBy_ic (s : State) (f : Fld) (n : Nat) : (s.bumpBy f n).ic = s.ic := rfl
@[simp] theorem State.bumpBy_pwr (s : State) (f : Fld) (n : Nat) : (s.bumpBy f n).pwr = s.pwr := rfl
@[simp] theorem State.bumpBy_nvm (s : State) (f : Fld) (n : Nat) : (s.bumpBy f n).nvm = s.nvm := rfl
@[simp] theorem State.bumpBy_fe (s : State) (f : Fld) (n : Nat) : (s.bumpBy f n).fe = s.fe := rfl
@[simp] theorem State.bumpBy_est (s : State) (f : Fld) (n : Nat) : (s.bumpBy f n).est = s.est := rfl
@[simp] theorem State.bumpBy_surv (s : State) (f : Fld) (n : Nat) : (s.bumpBy f n).surv = s.surv := rfl
@[simp] theorem State.bumpBy_trk (s : State) (f : Fld) (n : Nat) : (s.bumpBy f n).trk = s.trk := rfl
@[simp] theorem State.bumpBy_sk (s : State) (f : Fld) (n : Nat) : (s.bumpBy f n).sk = s.sk := rfl
@[simp] theorem State.bumpBy_jobs (s : State) (f : Fld) (n : Nat) : (s.bumpBy f n).jobs = s.jobs := rfl
@[simp] theorem State.bumpBy_alc (s : State) (f : Fld) (n : Nat) : (s.bumpBy f n).alc = s.alc := rfl
@[simp] theorem State.bumpBy_srv (s : State) (f : Fld) (n : Nat) : (s.bumpBy f n).srv = s.srv := rfl
@[simp] theorem State.bumpBy_dsf (s : State) (f : Fld) (n : Nat) : (s.bumpBy f n).dsf = s.dsf := rfl
@[simp] theorem State.bumpBy_syncEdge (s : State) (f : Fld) (n : Nat) : (s.bumpBy f n).syncEdge = s.syncEdge := rfl
@[simp] theorem State.bumpBy_ha (s : State) (f : Fld) (n : Nat) : (s.bumpBy f n).ha = s.ha := rfl
@[simp] theorem State.bumpBy_kz (s : State) (f : Fld) (n : Nat) : (s.bumpBy f n).kz = s.kz := rfl
@[simp] theorem State.bumpBy_gn (s : State) (f : Fld) (n : Nat) : (s.bumpBy f n).gn = s.gn := rfl
@[simp] theorem State.bumpBy_net (s : State) (f : Fld) (n : Nat) : (s.bumpBy f n).net = s.net := rfl
@[simp] theorem State.bumpBy_can (s : State) (f : Fld) (n : Nat) : (s.bumpBy f n).can = s.can := rfl
@[simp] theorem State.bumpBy_be (s : State) (f : Fld) (n : Nat) : (s.bumpBy f n).be = s.be := rfl
@[simp] theorem State.bumpBy_cp (s : State) (f : Fld) (n : Nat) : (s.bumpBy f n).cp = s.cp := rfl
@[simp] theorem State.bumpBy_scrub (s : State) (f : Fld) (n : Nat) : (s.bumpBy f n).scrub = s.scrub := rfl
@[simp] theorem State.bumpBy_cyc (s : State) (f : Fld) (n : Nat) : (s.bumpBy f n).cyc = s.cyc := rfl
@[simp] theorem State.bumpBy_freeCount (s : State) (f : Fld) (n : Nat) : (s.bumpBy f n).freeCount = s.freeCount := rfl
@[simp] theorem State.bumpBy_out (s : State) (f : Fld) (n : Nat) : (s.bumpBy f n).out = s.out := rfl
@[simp] theorem State.bumpBy_pending (s : State) (f : Fld) (n : Nat) : (s.bumpBy f n).pending = s.pending := rfl
@[simp] theorem State.bumpBy_shWord (s : State) (f : Fld) (n : Nat) (x : Nat) : (s.bumpBy f n).shWord x = s.shWord x := rfl
@[simp] theorem State.bumpBy_byte (s : State) (f : Fld) (n : Nat) (x : Nat) : (s.bumpBy f n).byte x = s.byte x := rfl
@[simp] theorem State.bumpBy_now (s : State) (f : Fld) (n : Nat) : (s.bumpBy f n).now = s.now := rfl

/-! bump. -/

@[simp] theorem State.bump_shadow (s : State) (f : Fld) : (s.bump f).shadow = s.shadow := rfl
@[simp] theorem State.bump_mem (s : State) (f : Fld) : (s.bump f).mem = s.mem := rfl
@[simp] theorem State.bump_time (s : State) (f : Fld) : (s.bump f).time = s.time := rfl
@[simp] theorem State.bump_recd (s : State) (f : Fld) : (s.bump f).recd = s.recd := rfl
@[simp] theorem State.bump_ic (s : State) (f : Fld) : (s.bump f).ic = s.ic := rfl
@[simp] theorem State.bump_pwr (s : State) (f : Fld) : (s.bump f).pwr = s.pwr := rfl
@[simp] theorem State.bump_nvm (s : State) (f : Fld) : (s.bump f).nvm = s.nvm := rfl
@[simp] theorem State.bump_fe (s : State) (f : Fld) : (s.bump f).fe = s.fe := rfl
@[simp] theorem State.bump_est (s : State) (f : Fld) : (s.bump f).est = s.est := rfl
@[simp] theorem State.bump_surv (s : State) (f : Fld) : (s.bump f).surv = s.surv := rfl
@[simp] theorem State.bump_trk (s : State) (f : Fld) : (s.bump f).trk = s.trk := rfl
@[simp] theorem State.bump_sk (s : State) (f : Fld) : (s.bump f).sk = s.sk := rfl
@[simp] theorem State.bump_jobs (s : State) (f : Fld) : (s.bump f).jobs = s.jobs := rfl
@[simp] theorem State.bump_alc (s : State) (f : Fld) : (s.bump f).alc = s.alc := rfl
@[simp] theorem State.bump_srv (s : State) (f : Fld) : (s.bump f).srv = s.srv := rfl
@[simp] theorem State.bump_dsf (s : State) (f : Fld) : (s.bump f).dsf = s.dsf := rfl
@[simp] theorem State.bump_syncEdge (s : State) (f : Fld) : (s.bump f).syncEdge = s.syncEdge := rfl
@[simp] theorem State.bump_ha (s : State) (f : Fld) : (s.bump f).ha = s.ha := rfl
@[simp] theorem State.bump_kz (s : State) (f : Fld) : (s.bump f).kz = s.kz := rfl
@[simp] theorem State.bump_gn (s : State) (f : Fld) : (s.bump f).gn = s.gn := rfl
@[simp] theorem State.bump_net (s : State) (f : Fld) : (s.bump f).net = s.net := rfl
@[simp] theorem State.bump_can (s : State) (f : Fld) : (s.bump f).can = s.can := rfl
@[simp] theorem State.bump_be (s : State) (f : Fld) : (s.bump f).be = s.be := rfl
@[simp] theorem State.bump_cp (s : State) (f : Fld) : (s.bump f).cp = s.cp := rfl
@[simp] theorem State.bump_scrub (s : State) (f : Fld) : (s.bump f).scrub = s.scrub := rfl
@[simp] theorem State.bump_cyc (s : State) (f : Fld) : (s.bump f).cyc = s.cyc := rfl
@[simp] theorem State.bump_freeCount (s : State) (f : Fld) : (s.bump f).freeCount = s.freeCount := rfl
@[simp] theorem State.bump_out (s : State) (f : Fld) : (s.bump f).out = s.out := rfl
@[simp] theorem State.bump_pending (s : State) (f : Fld) : (s.bump f).pending = s.pending := rfl
@[simp] theorem State.bump_shWord (s : State) (f : Fld) (x : Nat) : (s.bump f).shWord x = s.shWord x := rfl
@[simp] theorem State.bump_byte (s : State) (f : Fld) (x : Nat) : (s.bump f).byte x = s.byte x := rfl
@[simp] theorem State.bump_now (s : State) (f : Fld) : (s.bump f).now = s.now := rfl

/-! set64. -/

@[simp] theorem State.set64_shadow (s : State) (a : Nat) (v : Word64) : (s.set64 a v).shadow = s.shadow := rfl
@[simp] theorem State.set64_mem (s : State) (a : Nat) (v : Word64) : (s.set64 a v).mem = s.mem := rfl
@[simp] theorem State.set64_time (s : State) (a : Nat) (v : Word64) : (s.set64 a v).time = s.time := rfl
@[simp] theorem State.set64_recd (s : State) (a : Nat) (v : Word64) : (s.set64 a v).recd = s.recd := rfl
@[simp] theorem State.set64_ic (s : State) (a : Nat) (v : Word64) : (s.set64 a v).ic = s.ic := rfl
@[simp] theorem State.set64_pwr (s : State) (a : Nat) (v : Word64) : (s.set64 a v).pwr = s.pwr := rfl
@[simp] theorem State.set64_nvm (s : State) (a : Nat) (v : Word64) : (s.set64 a v).nvm = s.nvm := rfl
@[simp] theorem State.set64_fe (s : State) (a : Nat) (v : Word64) : (s.set64 a v).fe = s.fe := rfl
@[simp] theorem State.set64_est (s : State) (a : Nat) (v : Word64) : (s.set64 a v).est = s.est := rfl
@[simp] theorem State.set64_surv (s : State) (a : Nat) (v : Word64) : (s.set64 a v).surv = s.surv := rfl
@[simp] theorem State.set64_trk (s : State) (a : Nat) (v : Word64) : (s.set64 a v).trk = s.trk := rfl
@[simp] theorem State.set64_sk (s : State) (a : Nat) (v : Word64) : (s.set64 a v).sk = s.sk := rfl
@[simp] theorem State.set64_jobs (s : State) (a : Nat) (v : Word64) : (s.set64 a v).jobs = s.jobs := rfl
@[simp] theorem State.set64_alc (s : State) (a : Nat) (v : Word64) : (s.set64 a v).alc = s.alc := rfl
@[simp] theorem State.set64_srv (s : State) (a : Nat) (v : Word64) : (s.set64 a v).srv = s.srv := rfl
@[simp] theorem State.set64_dsf (s : State) (a : Nat) (v : Word64) : (s.set64 a v).dsf = s.dsf := rfl
@[simp] theorem State.set64_syncEdge (s : State) (a : Nat) (v : Word64) : (s.set64 a v).syncEdge = s.syncEdge := rfl
@[simp] theorem State.set64_ha (s : State) (a : Nat) (v : Word64) : (s.set64 a v).ha = s.ha := rfl
@[simp] theorem State.set64_kz (s : State) (a : Nat) (v : Word64) : (s.set64 a v).kz = s.kz := rfl
@[simp] theorem State.set64_gn (s : State) (a : Nat) (v : Word64) : (s.set64 a v).gn = s.gn := rfl
@[simp] theorem State.set64_net (s : State) (a : Nat) (v : Word64) : (s.set64 a v).net = s.net := rfl
@[simp] theorem State.set64_can (s : State) (a : Nat) (v : Word64) : (s.set64 a v).can = s.can := rfl
@[simp] theorem State.set64_be (s : State) (a : Nat) (v : Word64) : (s.set64 a v).be = s.be := rfl
@[simp] theorem State.set64_cp (s : State) (a : Nat) (v : Word64) : (s.set64 a v).cp = s.cp := rfl
@[simp] theorem State.set64_scrub (s : State) (a : Nat) (v : Word64) : (s.set64 a v).scrub = s.scrub := rfl
@[simp] theorem State.set64_cyc (s : State) (a : Nat) (v : Word64) : (s.set64 a v).cyc = s.cyc := rfl
@[simp] theorem State.set64_freeCount (s : State) (a : Nat) (v : Word64) : (s.set64 a v).freeCount = s.freeCount := rfl
@[simp] theorem State.set64_out (s : State) (a : Nat) (v : Word64) : (s.set64 a v).out = s.out := rfl
@[simp] theorem State.set64_pending (s : State) (a : Nat) (v : Word64) : (s.set64 a v).pending = s.pending := rfl
@[simp] theorem State.set64_shWord (s : State) (a : Nat) (v : Word64) (x : Nat) : (s.set64 a v).shWord x = s.shWord x := rfl
@[simp] theorem State.set64_byte (s : State) (a : Nat) (v : Word64) (x : Nat) : (s.set64 a v).byte x = s.byte x := rfl
@[simp] theorem State.set64_now (s : State) (a : Nat) (v : Word64) : (s.set64 a v).now = s.now := rfl

/-! seti. -/

@[simp] theorem State.seti_shadow (s : State) (a : Nat) (v : Int) : (s.seti a v).shadow = s.shadow := rfl
@[simp] theorem State.seti_mem (s : State) (a : Nat) (v : Int) : (s.seti a v).mem = s.mem := rfl
@[simp] theorem State.seti_time (s : State) (a : Nat) (v : Int) : (s.seti a v).time = s.time := rfl
@[simp] theorem State.seti_recd (s : State) (a : Nat) (v : Int) : (s.seti a v).recd = s.recd := rfl
@[simp] theorem State.seti_ic (s : State) (a : Nat) (v : Int) : (s.seti a v).ic = s.ic := rfl
@[simp] theorem State.seti_pwr (s : State) (a : Nat) (v : Int) : (s.seti a v).pwr = s.pwr := rfl
@[simp] theorem State.seti_nvm (s : State) (a : Nat) (v : Int) : (s.seti a v).nvm = s.nvm := rfl
@[simp] theorem State.seti_fe (s : State) (a : Nat) (v : Int) : (s.seti a v).fe = s.fe := rfl
@[simp] theorem State.seti_est (s : State) (a : Nat) (v : Int) : (s.seti a v).est = s.est := rfl
@[simp] theorem State.seti_surv (s : State) (a : Nat) (v : Int) : (s.seti a v).surv = s.surv := rfl
@[simp] theorem State.seti_trk (s : State) (a : Nat) (v : Int) : (s.seti a v).trk = s.trk := rfl
@[simp] theorem State.seti_sk (s : State) (a : Nat) (v : Int) : (s.seti a v).sk = s.sk := rfl
@[simp] theorem State.seti_jobs (s : State) (a : Nat) (v : Int) : (s.seti a v).jobs = s.jobs := rfl
@[simp] theorem State.seti_alc (s : State) (a : Nat) (v : Int) : (s.seti a v).alc = s.alc := rfl
@[simp] theorem State.seti_srv (s : State) (a : Nat) (v : Int) : (s.seti a v).srv = s.srv := rfl
@[simp] theorem State.seti_dsf (s : State) (a : Nat) (v : Int) : (s.seti a v).dsf = s.dsf := rfl
@[simp] theorem State.seti_syncEdge (s : State) (a : Nat) (v : Int) : (s.seti a v).syncEdge = s.syncEdge := rfl
@[simp] theorem State.seti_ha (s : State) (a : Nat) (v : Int) : (s.seti a v).ha = s.ha := rfl
@[simp] theorem State.seti_kz (s : State) (a : Nat) (v : Int) : (s.seti a v).kz = s.kz := rfl
@[simp] theorem State.seti_gn (s : State) (a : Nat) (v : Int) : (s.seti a v).gn = s.gn := rfl
@[simp] theorem State.seti_net (s : State) (a : Nat) (v : Int) : (s.seti a v).net = s.net := rfl
@[simp] theorem State.seti_can (s : State) (a : Nat) (v : Int) : (s.seti a v).can = s.can := rfl
@[simp] theorem State.seti_be (s : State) (a : Nat) (v : Int) : (s.seti a v).be = s.be := rfl
@[simp] theorem State.seti_cp (s : State) (a : Nat) (v : Int) : (s.seti a v).cp = s.cp := rfl
@[simp] theorem State.seti_scrub (s : State) (a : Nat) (v : Int) : (s.seti a v).scrub = s.scrub := rfl
@[simp] theorem State.seti_cyc (s : State) (a : Nat) (v : Int) : (s.seti a v).cyc = s.cyc := rfl
@[simp] theorem State.seti_freeCount (s : State) (a : Nat) (v : Int) : (s.seti a v).freeCount = s.freeCount := rfl
@[simp] theorem State.seti_out (s : State) (a : Nat) (v : Int) : (s.seti a v).out = s.out := rfl
@[simp] theorem State.seti_pending (s : State) (a : Nat) (v : Int) : (s.seti a v).pending = s.pending := rfl
@[simp] theorem State.seti_shWord (s : State) (a : Nat) (v : Int) (x : Nat) : (s.seti a v).shWord x = s.shWord x := rfl
@[simp] theorem State.seti_byte (s : State) (a : Nat) (v : Int) (x : Nat) : (s.seti a v).byte x = s.byte x := rfl
@[simp] theorem State.seti_now (s : State) (a : Nat) (v : Int) : (s.seti a v).now = s.now := rfl

/-! setByte. -/

@[simp] theorem State.setByte_regs (s : State) (a : Nat) (v : Byte) : (s.setByte a v).regs = s.regs := rfl
@[simp] theorem State.setByte_shadow (s : State) (a : Nat) (v : Byte) : (s.setByte a v).shadow = s.shadow := rfl
@[simp] theorem State.setByte_time (s : State) (a : Nat) (v : Byte) : (s.setByte a v).time = s.time := rfl
@[simp] theorem State.setByte_recd (s : State) (a : Nat) (v : Byte) : (s.setByte a v).recd = s.recd := rfl
@[simp] theorem State.setByte_ic (s : State) (a : Nat) (v : Byte) : (s.setByte a v).ic = s.ic := rfl
@[simp] theorem State.setByte_pwr (s : State) (a : Nat) (v : Byte) : (s.setByte a v).pwr = s.pwr := rfl
@[simp] theorem State.setByte_nvm (s : State) (a : Nat) (v : Byte) : (s.setByte a v).nvm = s.nvm := rfl
@[simp] theorem State.setByte_fe (s : State) (a : Nat) (v : Byte) : (s.setByte a v).fe = s.fe := rfl
@[simp] theorem State.setByte_est (s : State) (a : Nat) (v : Byte) : (s.setByte a v).est = s.est := rfl
@[simp] theorem State.setByte_surv (s : State) (a : Nat) (v : Byte) : (s.setByte a v).surv = s.surv := rfl
@[simp] theorem State.setByte_trk (s : State) (a : Nat) (v : Byte) : (s.setByte a v).trk = s.trk := rfl
@[simp] theorem State.setByte_sk (s : State) (a : Nat) (v : Byte) : (s.setByte a v).sk = s.sk := rfl
@[simp] theorem State.setByte_jobs (s : State) (a : Nat) (v : Byte) : (s.setByte a v).jobs = s.jobs := rfl
@[simp] theorem State.setByte_alc (s : State) (a : Nat) (v : Byte) : (s.setByte a v).alc = s.alc := rfl
@[simp] theorem State.setByte_srv (s : State) (a : Nat) (v : Byte) : (s.setByte a v).srv = s.srv := rfl
@[simp] theorem State.setByte_dsf (s : State) (a : Nat) (v : Byte) : (s.setByte a v).dsf = s.dsf := rfl
@[simp] theorem State.setByte_syncEdge (s : State) (a : Nat) (v : Byte) : (s.setByte a v).syncEdge = s.syncEdge := rfl
@[simp] theorem State.setByte_ha (s : State) (a : Nat) (v : Byte) : (s.setByte a v).ha = s.ha := rfl
@[simp] theorem State.setByte_kz (s : State) (a : Nat) (v : Byte) : (s.setByte a v).kz = s.kz := rfl
@[simp] theorem State.setByte_gn (s : State) (a : Nat) (v : Byte) : (s.setByte a v).gn = s.gn := rfl
@[simp] theorem State.setByte_net (s : State) (a : Nat) (v : Byte) : (s.setByte a v).net = s.net := rfl
@[simp] theorem State.setByte_can (s : State) (a : Nat) (v : Byte) : (s.setByte a v).can = s.can := rfl
@[simp] theorem State.setByte_be (s : State) (a : Nat) (v : Byte) : (s.setByte a v).be = s.be := rfl
@[simp] theorem State.setByte_cp (s : State) (a : Nat) (v : Byte) : (s.setByte a v).cp = s.cp := rfl
@[simp] theorem State.setByte_scrub (s : State) (a : Nat) (v : Byte) : (s.setByte a v).scrub = s.scrub := rfl
@[simp] theorem State.setByte_cyc (s : State) (a : Nat) (v : Byte) : (s.setByte a v).cyc = s.cyc := rfl
@[simp] theorem State.setByte_freeCount (s : State) (a : Nat) (v : Byte) : (s.setByte a v).freeCount = s.freeCount := rfl
@[simp] theorem State.setByte_out (s : State) (a : Nat) (v : Byte) : (s.setByte a v).out = s.out := rfl
@[simp] theorem State.setByte_pending (s : State) (a : Nat) (v : Byte) : (s.setByte a v).pending = s.pending := rfl
@[simp] theorem State.setByte_word (s : State) (a : Nat) (v : Byte) (x : Nat) : (s.setByte a v).word x = s.word x := rfl
@[simp] theorem State.setByte_get (s : State) (a : Nat) (v : Byte) (x : Fld) : (s.setByte a v).get x = s.get x := rfl
@[simp] theorem State.setByte_flag (s : State) (a : Nat) (v : Byte) (x : Fld) : (s.setByte a v).flag x = s.flag x := rfl
@[simp] theorem State.setByte_shWord (s : State) (a : Nat) (v : Byte) (x : Nat) : (s.setByte a v).shWord x = s.shWord x := rfl
@[simp] theorem State.setByte_domOn (s : State) (a : Nat) (v : Byte) (x : Nat) : (s.setByte a v).domOn x = s.domOn x := rfl
@[simp] theorem State.setByte_now (s : State) (a : Nat) (v : Byte) : (s.setByte a v).now = s.now := rfl

/-! requeue. -/

@[simp] theorem State.requeue_regs (s : State) (l : List Instr) : (s.requeue l).regs = s.regs := rfl
@[simp] theorem State.requeue_shadow (s : State) (l : List Instr) : (s.requeue l).shadow = s.shadow := rfl
@[simp] theorem State.requeue_mem (s : State) (l : List Instr) : (s.requeue l).mem = s.mem := rfl
@[simp] theorem State.requeue_time (s : State) (l : List Instr) : (s.requeue l).time = s.time := rfl
@[simp] theorem State.requeue_recd (s : State) (l : List Instr) : (s.requeue l).recd = s.recd := rfl
@[simp] theorem State.requeue_ic (s : State) (l : List Instr) : (s.requeue l).ic = s.ic := rfl
@[simp] theorem State.requeue_pwr (s : State) (l : List Instr) : (s.requeue l).pwr = s.pwr := rfl
@[simp] theorem State.requeue_nvm (s : State) (l : List Instr) : (s.requeue l).nvm = s.nvm := rfl
@[simp] theorem State.requeue_fe (s : State) (l : List Instr) : (s.requeue l).fe = s.fe := rfl
@[simp] theorem State.requeue_est (s : State) (l : List Instr) : (s.requeue l).est = s.est := rfl
@[simp] theorem State.requeue_surv (s : State) (l : List Instr) : (s.requeue l).surv = s.surv := rfl
@[simp] theorem State.requeue_trk (s : State) (l : List Instr) : (s.requeue l).trk = s.trk := rfl
@[simp] theorem State.requeue_sk (s : State) (l : List Instr) : (s.requeue l).sk = s.sk := rfl
@[simp] theorem State.requeue_jobs (s : State) (l : List Instr) : (s.requeue l).jobs = s.jobs := rfl
@[simp] theorem State.requeue_alc (s : State) (l : List Instr) : (s.requeue l).alc = s.alc := rfl
@[simp] theorem State.requeue_srv (s : State) (l : List Instr) : (s.requeue l).srv = s.srv := rfl
@[simp] theorem State.requeue_dsf (s : State) (l : List Instr) : (s.requeue l).dsf = s.dsf := rfl
@[simp] theorem State.requeue_syncEdge (s : State) (l : List Instr) : (s.requeue l).syncEdge = s.syncEdge := rfl
@[simp] theorem State.requeue_ha (s : State) (l : List Instr) : (s.requeue l).ha = s.ha := rfl
@[simp] theorem State.requeue_kz (s : State) (l : List Instr) : (s.requeue l).kz = s.kz := rfl
@[simp] theorem State.requeue_gn (s : State) (l : List Instr) : (s.requeue l).gn = s.gn := rfl
@[simp] theorem State.requeue_net (s : State) (l : List Instr) : (s.requeue l).net = s.net := rfl
@[simp] theorem State.requeue_can (s : State) (l : List Instr) : (s.requeue l).can = s.can := rfl
@[simp] theorem State.requeue_be (s : State) (l : List Instr) : (s.requeue l).be = s.be := rfl
@[simp] theorem State.requeue_cp (s : State) (l : List Instr) : (s.requeue l).cp = s.cp := rfl
@[simp] theorem State.requeue_scrub (s : State) (l : List Instr) : (s.requeue l).scrub = s.scrub := rfl
@[simp] theorem State.requeue_cyc (s : State) (l : List Instr) : (s.requeue l).cyc = s.cyc := rfl
@[simp] theorem State.requeue_freeCount (s : State) (l : List Instr) : (s.requeue l).freeCount = s.freeCount := rfl
@[simp] theorem State.requeue_out (s : State) (l : List Instr) : (s.requeue l).out = s.out := rfl
@[simp] theorem State.requeue_pending (s : State) (l : List Instr) : (s.requeue l).pending = l := rfl
@[simp] theorem State.requeue_word (s : State) (l : List Instr) (x : Nat) : (s.requeue l).word x = s.word x := rfl
@[simp] theorem State.requeue_get (s : State) (l : List Instr) (x : Fld) : (s.requeue l).get x = s.get x := rfl
@[simp] theorem State.requeue_flag (s : State) (l : List Instr) (x : Fld) : (s.requeue l).flag x = s.flag x := rfl
@[simp] theorem State.requeue_shWord (s : State) (l : List Instr) (x : Nat) : (s.requeue l).shWord x = s.shWord x := rfl
@[simp] theorem State.requeue_byte (s : State) (l : List Instr) (x : Nat) : (s.requeue l).byte x = s.byte x := rfl
@[simp] theorem State.requeue_domOn (s : State) (l : List Instr) (x : Nat) : (s.requeue l).domOn x = s.domOn x := rfl
@[simp] theorem State.requeue_now (s : State) (l : List Instr) : (s.requeue l).now = s.now := rfl

/-! drawn. -/

@[simp] theorem State.drawn_regs (s : State) : (s.drawn).regs = s.regs := rfl
@[simp] theorem State.drawn_shadow (s : State) : (s.drawn).shadow = s.shadow := rfl
@[simp] theorem State.drawn_mem (s : State) : (s.drawn).mem = s.mem := rfl
@[simp] theorem State.drawn_time (s : State) : (s.drawn).time = s.time := rfl
@[simp] theorem State.drawn_recd (s : State) : (s.drawn).recd = s.recd := rfl
@[simp] theorem State.drawn_ic (s : State) : (s.drawn).ic = s.ic := rfl
@[simp] theorem State.drawn_pwr (s : State) : (s.drawn).pwr = s.pwr := rfl
@[simp] theorem State.drawn_nvm (s : State) : (s.drawn).nvm = s.nvm := rfl
@[simp] theorem State.drawn_fe (s : State) : (s.drawn).fe = s.fe := rfl
@[simp] theorem State.drawn_est (s : State) : (s.drawn).est = s.est := rfl
@[simp] theorem State.drawn_surv (s : State) : (s.drawn).surv = s.surv := rfl
@[simp] theorem State.drawn_trk (s : State) : (s.drawn).trk = s.trk := rfl
@[simp] theorem State.drawn_sk (s : State) : (s.drawn).sk = s.sk := rfl
@[simp] theorem State.drawn_jobs (s : State) : (s.drawn).jobs = s.jobs := rfl
@[simp] theorem State.drawn_alc (s : State) : (s.drawn).alc = s.alc := rfl
@[simp] theorem State.drawn_srv (s : State) : (s.drawn).srv = s.srv := rfl
@[simp] theorem State.drawn_dsf (s : State) : (s.drawn).dsf = s.dsf := rfl
@[simp] theorem State.drawn_syncEdge (s : State) : (s.drawn).syncEdge = s.syncEdge := rfl
@[simp] theorem State.drawn_ha (s : State) : (s.drawn).ha = s.ha := rfl
@[simp] theorem State.drawn_kz (s : State) : (s.drawn).kz = s.kz := rfl
@[simp] theorem State.drawn_gn (s : State) : (s.drawn).gn = s.gn := rfl
@[simp] theorem State.drawn_net (s : State) : (s.drawn).net = s.net := rfl
@[simp] theorem State.drawn_can (s : State) : (s.drawn).can = s.can := rfl
@[simp] theorem State.drawn_be (s : State) : (s.drawn).be = s.be := rfl
@[simp] theorem State.drawn_cp (s : State) : (s.drawn).cp = s.cp := rfl
@[simp] theorem State.drawn_scrub (s : State) : (s.drawn).scrub = s.scrub := rfl
@[simp] theorem State.drawn_cyc (s : State) : (s.drawn).cyc = s.cyc := rfl
@[simp] theorem State.drawn_freeCount (s : State) : (s.drawn).freeCount = s.freeCount + 1 := rfl
@[simp] theorem State.drawn_out (s : State) : (s.drawn).out = s.out := rfl
@[simp] theorem State.drawn_pending (s : State) : (s.drawn).pending = s.pending := rfl
@[simp] theorem State.drawn_word (s : State) (x : Nat) : (s.drawn).word x = s.word x := rfl
@[simp] theorem State.drawn_get (s : State) (x : Fld) : (s.drawn).get x = s.get x := rfl
@[simp] theorem State.drawn_flag (s : State) (x : Fld) : (s.drawn).flag x = s.flag x := rfl
@[simp] theorem State.drawn_shWord (s : State) (x : Nat) : (s.drawn).shWord x = s.shWord x := rfl
@[simp] theorem State.drawn_byte (s : State) (x : Nat) : (s.drawn).byte x = s.byte x := rfl
@[simp] theorem State.drawn_domOn (s : State) (x : Nat) : (s.drawn).domOn x = s.domOn x := rfl
@[simp] theorem State.drawn_now (s : State) : (s.drawn).now = s.now := rfl

/-! emit. -/

@[simp] theorem State.emit_regs (s : State) (o : Output) : (s.emit o).regs = s.regs := rfl
@[simp] theorem State.emit_shadow (s : State) (o : Output) : (s.emit o).shadow = s.shadow := rfl
@[simp] theorem State.emit_mem (s : State) (o : Output) : (s.emit o).mem = s.mem := rfl
@[simp] theorem State.emit_time (s : State) (o : Output) : (s.emit o).time = s.time := rfl
@[simp] theorem State.emit_recd (s : State) (o : Output) : (s.emit o).recd = s.recd := rfl
@[simp] theorem State.emit_ic (s : State) (o : Output) : (s.emit o).ic = s.ic := rfl
@[simp] theorem State.emit_pwr (s : State) (o : Output) : (s.emit o).pwr = s.pwr := rfl
@[simp] theorem State.emit_nvm (s : State) (o : Output) : (s.emit o).nvm = s.nvm := rfl
@[simp] theorem State.emit_fe (s : State) (o : Output) : (s.emit o).fe = s.fe := rfl
@[simp] theorem State.emit_est (s : State) (o : Output) : (s.emit o).est = s.est := rfl
@[simp] theorem State.emit_surv (s : State) (o : Output) : (s.emit o).surv = s.surv := rfl
@[simp] theorem State.emit_trk (s : State) (o : Output) : (s.emit o).trk = s.trk := rfl
@[simp] theorem State.emit_sk (s : State) (o : Output) : (s.emit o).sk = s.sk := rfl
@[simp] theorem State.emit_jobs (s : State) (o : Output) : (s.emit o).jobs = s.jobs := rfl
@[simp] theorem State.emit_alc (s : State) (o : Output) : (s.emit o).alc = s.alc := rfl
@[simp] theorem State.emit_srv (s : State) (o : Output) : (s.emit o).srv = s.srv := rfl
@[simp] theorem State.emit_dsf (s : State) (o : Output) : (s.emit o).dsf = s.dsf := rfl
@[simp] theorem State.emit_syncEdge (s : State) (o : Output) : (s.emit o).syncEdge = s.syncEdge := rfl
@[simp] theorem State.emit_ha (s : State) (o : Output) : (s.emit o).ha = s.ha := rfl
@[simp] theorem State.emit_kz (s : State) (o : Output) : (s.emit o).kz = s.kz := rfl
@[simp] theorem State.emit_gn (s : State) (o : Output) : (s.emit o).gn = s.gn := rfl
@[simp] theorem State.emit_net (s : State) (o : Output) : (s.emit o).net = s.net := rfl
@[simp] theorem State.emit_can (s : State) (o : Output) : (s.emit o).can = s.can := rfl
@[simp] theorem State.emit_be (s : State) (o : Output) : (s.emit o).be = s.be := rfl
@[simp] theorem State.emit_cp (s : State) (o : Output) : (s.emit o).cp = s.cp := rfl
@[simp] theorem State.emit_scrub (s : State) (o : Output) : (s.emit o).scrub = s.scrub := rfl
@[simp] theorem State.emit_cyc (s : State) (o : Output) : (s.emit o).cyc = s.cyc := rfl
@[simp] theorem State.emit_freeCount (s : State) (o : Output) : (s.emit o).freeCount = s.freeCount := rfl
@[simp] theorem State.emit_out (s : State) (o : Output) : (s.emit o).out = o :: s.out := rfl
@[simp] theorem State.emit_pending (s : State) (o : Output) : (s.emit o).pending = s.pending := rfl
@[simp] theorem State.emit_word (s : State) (o : Output) (x : Nat) : (s.emit o).word x = s.word x := rfl
@[simp] theorem State.emit_get (s : State) (o : Output) (x : Fld) : (s.emit o).get x = s.get x := rfl
@[simp] theorem State.emit_flag (s : State) (o : Output) (x : Fld) : (s.emit o).flag x = s.flag x := rfl
@[simp] theorem State.emit_shWord (s : State) (o : Output) (x : Nat) : (s.emit o).shWord x = s.shWord x := rfl
@[simp] theorem State.emit_byte (s : State) (o : Output) (x : Nat) : (s.emit o).byte x = s.byte x := rfl
@[simp] theorem State.emit_domOn (s : State) (o : Output) (x : Nat) : (s.emit o).domOn x = s.domOn x := rfl
@[simp] theorem State.emit_now (s : State) (o : Output) : (s.emit o).now = s.now := rfl

/-! modTime. -/

@[simp] theorem State.modTime_regs (s : State) (f : TimeBase → TimeBase) : (s.modTime f).regs = s.regs := rfl
@[simp] theorem State.modTime_shadow (s : State) (f : TimeBase → TimeBase) : (s.modTime f).shadow = s.shadow := rfl
@[simp] theorem State.modTime_mem (s : State) (f : TimeBase → TimeBase) : (s.modTime f).mem = s.mem := rfl
@[simp] theorem State.modTime_time (s : State) (f : TimeBase → TimeBase) : (s.modTime f).time = f s.time := rfl
@[simp] theorem State.modTime_recd (s : State) (f : TimeBase → TimeBase) : (s.modTime f).recd = s.recd := rfl
@[simp] theorem State.modTime_ic (s : State) (f : TimeBase → TimeBase) : (s.modTime f).ic = s.ic := rfl
@[simp] theorem State.modTime_pwr (s : State) (f : TimeBase → TimeBase) : (s.modTime f).pwr = s.pwr := rfl
@[simp] theorem State.modTime_nvm (s : State) (f : TimeBase → TimeBase) : (s.modTime f).nvm = s.nvm := rfl
@[simp] theorem State.modTime_fe (s : State) (f : TimeBase → TimeBase) : (s.modTime f).fe = s.fe := rfl
@[simp] theorem State.modTime_est (s : State) (f : TimeBase → TimeBase) : (s.modTime f).est = s.est := rfl
@[simp] theorem State.modTime_surv (s : State) (f : TimeBase → TimeBase) : (s.modTime f).surv = s.surv := rfl
@[simp] theorem State.modTime_trk (s : State) (f : TimeBase → TimeBase) : (s.modTime f).trk = s.trk := rfl
@[simp] theorem State.modTime_sk (s : State) (f : TimeBase → TimeBase) : (s.modTime f).sk = s.sk := rfl
@[simp] theorem State.modTime_jobs (s : State) (f : TimeBase → TimeBase) : (s.modTime f).jobs = s.jobs := rfl
@[simp] theorem State.modTime_alc (s : State) (f : TimeBase → TimeBase) : (s.modTime f).alc = s.alc := rfl
@[simp] theorem State.modTime_srv (s : State) (f : TimeBase → TimeBase) : (s.modTime f).srv = s.srv := rfl
@[simp] theorem State.modTime_dsf (s : State) (f : TimeBase → TimeBase) : (s.modTime f).dsf = s.dsf := rfl
@[simp] theorem State.modTime_syncEdge (s : State) (f : TimeBase → TimeBase) : (s.modTime f).syncEdge = s.syncEdge := rfl
@[simp] theorem State.modTime_ha (s : State) (f : TimeBase → TimeBase) : (s.modTime f).ha = s.ha := rfl
@[simp] theorem State.modTime_kz (s : State) (f : TimeBase → TimeBase) : (s.modTime f).kz = s.kz := rfl
@[simp] theorem State.modTime_gn (s : State) (f : TimeBase → TimeBase) : (s.modTime f).gn = s.gn := rfl
@[simp] theorem State.modTime_net (s : State) (f : TimeBase → TimeBase) : (s.modTime f).net = s.net := rfl
@[simp] theorem State.modTime_can (s : State) (f : TimeBase → TimeBase) : (s.modTime f).can = s.can := rfl
@[simp] theorem State.modTime_be (s : State) (f : TimeBase → TimeBase) : (s.modTime f).be = s.be := rfl
@[simp] theorem State.modTime_cp (s : State) (f : TimeBase → TimeBase) : (s.modTime f).cp = s.cp := rfl
@[simp] theorem State.modTime_scrub (s : State) (f : TimeBase → TimeBase) : (s.modTime f).scrub = s.scrub := rfl
@[simp] theorem State.modTime_cyc (s : State) (f : TimeBase → TimeBase) : (s.modTime f).cyc = s.cyc := rfl
@[simp] theorem State.modTime_freeCount (s : State) (f : TimeBase → TimeBase) : (s.modTime f).freeCount = s.freeCount := rfl
@[simp] theorem State.modTime_out (s : State) (f : TimeBase → TimeBase) : (s.modTime f).out = s.out := rfl
@[simp] theorem State.modTime_pending (s : State) (f : TimeBase → TimeBase) : (s.modTime f).pending = s.pending := rfl
@[simp] theorem State.modTime_word (s : State) (f : TimeBase → TimeBase) (x : Nat) : (s.modTime f).word x = s.word x := rfl
@[simp] theorem State.modTime_get (s : State) (f : TimeBase → TimeBase) (x : Fld) : (s.modTime f).get x = s.get x := rfl
@[simp] theorem State.modTime_flag (s : State) (f : TimeBase → TimeBase) (x : Fld) : (s.modTime f).flag x = s.flag x := rfl
@[simp] theorem State.modTime_shWord (s : State) (f : TimeBase → TimeBase) (x : Nat) : (s.modTime f).shWord x = s.shWord x := rfl
@[simp] theorem State.modTime_byte (s : State) (f : TimeBase → TimeBase) (x : Nat) : (s.modTime f).byte x = s.byte x := rfl
@[simp] theorem State.modTime_domOn (s : State) (f : TimeBase → TimeBase) (x : Nat) : (s.modTime f).domOn x = s.domOn x := rfl

/-! modPort. -/

@[simp] theorem State.modPort_regs (s : State) (p : Nat) (f : PtpPort → PtpPort) : (s.modPort p f).regs = s.regs := rfl
@[simp] theorem State.modPort_shadow (s : State) (p : Nat) (f : PtpPort → PtpPort) : (s.modPort p f).shadow = s.shadow := rfl
@[simp] theorem State.modPort_mem (s : State) (p : Nat) (f : PtpPort → PtpPort) : (s.modPort p f).mem = s.mem := rfl
@[simp] theorem State.modPort_recd (s : State) (p : Nat) (f : PtpPort → PtpPort) : (s.modPort p f).recd = s.recd := rfl
@[simp] theorem State.modPort_ic (s : State) (p : Nat) (f : PtpPort → PtpPort) : (s.modPort p f).ic = s.ic := rfl
@[simp] theorem State.modPort_pwr (s : State) (p : Nat) (f : PtpPort → PtpPort) : (s.modPort p f).pwr = s.pwr := rfl
@[simp] theorem State.modPort_nvm (s : State) (p : Nat) (f : PtpPort → PtpPort) : (s.modPort p f).nvm = s.nvm := rfl
@[simp] theorem State.modPort_fe (s : State) (p : Nat) (f : PtpPort → PtpPort) : (s.modPort p f).fe = s.fe := rfl
@[simp] theorem State.modPort_est (s : State) (p : Nat) (f : PtpPort → PtpPort) : (s.modPort p f).est = s.est := rfl
@[simp] theorem State.modPort_surv (s : State) (p : Nat) (f : PtpPort → PtpPort) : (s.modPort p f).surv = s.surv := rfl
@[simp] theorem State.modPort_trk (s : State) (p : Nat) (f : PtpPort → PtpPort) : (s.modPort p f).trk = s.trk := rfl
@[simp] theorem State.modPort_sk (s : State) (p : Nat) (f : PtpPort → PtpPort) : (s.modPort p f).sk = s.sk := rfl
@[simp] theorem State.modPort_jobs (s : State) (p : Nat) (f : PtpPort → PtpPort) : (s.modPort p f).jobs = s.jobs := rfl
@[simp] theorem State.modPort_alc (s : State) (p : Nat) (f : PtpPort → PtpPort) : (s.modPort p f).alc = s.alc := rfl
@[simp] theorem State.modPort_srv (s : State) (p : Nat) (f : PtpPort → PtpPort) : (s.modPort p f).srv = s.srv := rfl
@[simp] theorem State.modPort_dsf (s : State) (p : Nat) (f : PtpPort → PtpPort) : (s.modPort p f).dsf = s.dsf := rfl
@[simp] theorem State.modPort_syncEdge (s : State) (p : Nat) (f : PtpPort → PtpPort) : (s.modPort p f).syncEdge = s.syncEdge := rfl
@[simp] theorem State.modPort_ha (s : State) (p : Nat) (f : PtpPort → PtpPort) : (s.modPort p f).ha = s.ha := rfl
@[simp] theorem State.modPort_kz (s : State) (p : Nat) (f : PtpPort → PtpPort) : (s.modPort p f).kz = s.kz := rfl
@[simp] theorem State.modPort_gn (s : State) (p : Nat) (f : PtpPort → PtpPort) : (s.modPort p f).gn = s.gn := rfl
@[simp] theorem State.modPort_net (s : State) (p : Nat) (f : PtpPort → PtpPort) : (s.modPort p f).net = s.net := rfl
@[simp] theorem State.modPort_can (s : State) (p : Nat) (f : PtpPort → PtpPort) : (s.modPort p f).can = s.can := rfl
@[simp] theorem State.modPort_be (s : State) (p : Nat) (f : PtpPort → PtpPort) : (s.modPort p f).be = s.be := rfl
@[simp] theorem State.modPort_cp (s : State) (p : Nat) (f : PtpPort → PtpPort) : (s.modPort p f).cp = s.cp := rfl
@[simp] theorem State.modPort_scrub (s : State) (p : Nat) (f : PtpPort → PtpPort) : (s.modPort p f).scrub = s.scrub := rfl
@[simp] theorem State.modPort_cyc (s : State) (p : Nat) (f : PtpPort → PtpPort) : (s.modPort p f).cyc = s.cyc := rfl
@[simp] theorem State.modPort_freeCount (s : State) (p : Nat) (f : PtpPort → PtpPort) : (s.modPort p f).freeCount = s.freeCount := rfl
@[simp] theorem State.modPort_out (s : State) (p : Nat) (f : PtpPort → PtpPort) : (s.modPort p f).out = s.out := rfl
@[simp] theorem State.modPort_pending (s : State) (p : Nat) (f : PtpPort → PtpPort) : (s.modPort p f).pending = s.pending := rfl
@[simp] theorem State.modPort_word (s : State) (p : Nat) (f : PtpPort → PtpPort) (x : Nat) : (s.modPort p f).word x = s.word x := rfl
@[simp] theorem State.modPort_get (s : State) (p : Nat) (f : PtpPort → PtpPort) (x : Fld) : (s.modPort p f).get x = s.get x := rfl
@[simp] theorem State.modPort_flag (s : State) (p : Nat) (f : PtpPort → PtpPort) (x : Fld) : (s.modPort p f).flag x = s.flag x := rfl
@[simp] theorem State.modPort_shWord (s : State) (p : Nat) (f : PtpPort → PtpPort) (x : Nat) : (s.modPort p f).shWord x = s.shWord x := rfl
@[simp] theorem State.modPort_byte (s : State) (p : Nat) (f : PtpPort → PtpPort) (x : Nat) : (s.modPort p f).byte x = s.byte x := rfl
@[simp] theorem State.modPort_domOn (s : State) (p : Nat) (f : PtpPort → PtpPort) (x : Nat) : (s.modPort p f).domOn x = s.domOn x := rfl

/-! modRef. -/

@[simp] theorem State.modRef_regs (s : State) (r : Nat) (f : RefSt → RefSt) : (s.modRef r f).regs = s.regs := rfl
@[simp] theorem State.modRef_shadow (s : State) (r : Nat) (f : RefSt → RefSt) : (s.modRef r f).shadow = s.shadow := rfl
@[simp] theorem State.modRef_mem (s : State) (r : Nat) (f : RefSt → RefSt) : (s.modRef r f).mem = s.mem := rfl
@[simp] theorem State.modRef_recd (s : State) (r : Nat) (f : RefSt → RefSt) : (s.modRef r f).recd = s.recd := rfl
@[simp] theorem State.modRef_ic (s : State) (r : Nat) (f : RefSt → RefSt) : (s.modRef r f).ic = s.ic := rfl
@[simp] theorem State.modRef_pwr (s : State) (r : Nat) (f : RefSt → RefSt) : (s.modRef r f).pwr = s.pwr := rfl
@[simp] theorem State.modRef_nvm (s : State) (r : Nat) (f : RefSt → RefSt) : (s.modRef r f).nvm = s.nvm := rfl
@[simp] theorem State.modRef_fe (s : State) (r : Nat) (f : RefSt → RefSt) : (s.modRef r f).fe = s.fe := rfl
@[simp] theorem State.modRef_est (s : State) (r : Nat) (f : RefSt → RefSt) : (s.modRef r f).est = s.est := rfl
@[simp] theorem State.modRef_surv (s : State) (r : Nat) (f : RefSt → RefSt) : (s.modRef r f).surv = s.surv := rfl
@[simp] theorem State.modRef_trk (s : State) (r : Nat) (f : RefSt → RefSt) : (s.modRef r f).trk = s.trk := rfl
@[simp] theorem State.modRef_sk (s : State) (r : Nat) (f : RefSt → RefSt) : (s.modRef r f).sk = s.sk := rfl
@[simp] theorem State.modRef_jobs (s : State) (r : Nat) (f : RefSt → RefSt) : (s.modRef r f).jobs = s.jobs := rfl
@[simp] theorem State.modRef_alc (s : State) (r : Nat) (f : RefSt → RefSt) : (s.modRef r f).alc = s.alc := rfl
@[simp] theorem State.modRef_srv (s : State) (r : Nat) (f : RefSt → RefSt) : (s.modRef r f).srv = s.srv := rfl
@[simp] theorem State.modRef_dsf (s : State) (r : Nat) (f : RefSt → RefSt) : (s.modRef r f).dsf = s.dsf := rfl
@[simp] theorem State.modRef_syncEdge (s : State) (r : Nat) (f : RefSt → RefSt) : (s.modRef r f).syncEdge = s.syncEdge := rfl
@[simp] theorem State.modRef_ha (s : State) (r : Nat) (f : RefSt → RefSt) : (s.modRef r f).ha = s.ha := rfl
@[simp] theorem State.modRef_kz (s : State) (r : Nat) (f : RefSt → RefSt) : (s.modRef r f).kz = s.kz := rfl
@[simp] theorem State.modRef_gn (s : State) (r : Nat) (f : RefSt → RefSt) : (s.modRef r f).gn = s.gn := rfl
@[simp] theorem State.modRef_net (s : State) (r : Nat) (f : RefSt → RefSt) : (s.modRef r f).net = s.net := rfl
@[simp] theorem State.modRef_can (s : State) (r : Nat) (f : RefSt → RefSt) : (s.modRef r f).can = s.can := rfl
@[simp] theorem State.modRef_be (s : State) (r : Nat) (f : RefSt → RefSt) : (s.modRef r f).be = s.be := rfl
@[simp] theorem State.modRef_cp (s : State) (r : Nat) (f : RefSt → RefSt) : (s.modRef r f).cp = s.cp := rfl
@[simp] theorem State.modRef_scrub (s : State) (r : Nat) (f : RefSt → RefSt) : (s.modRef r f).scrub = s.scrub := rfl
@[simp] theorem State.modRef_cyc (s : State) (r : Nat) (f : RefSt → RefSt) : (s.modRef r f).cyc = s.cyc := rfl
@[simp] theorem State.modRef_freeCount (s : State) (r : Nat) (f : RefSt → RefSt) : (s.modRef r f).freeCount = s.freeCount := rfl
@[simp] theorem State.modRef_out (s : State) (r : Nat) (f : RefSt → RefSt) : (s.modRef r f).out = s.out := rfl
@[simp] theorem State.modRef_pending (s : State) (r : Nat) (f : RefSt → RefSt) : (s.modRef r f).pending = s.pending := rfl
@[simp] theorem State.modRef_word (s : State) (r : Nat) (f : RefSt → RefSt) (x : Nat) : (s.modRef r f).word x = s.word x := rfl
@[simp] theorem State.modRef_get (s : State) (r : Nat) (f : RefSt → RefSt) (x : Fld) : (s.modRef r f).get x = s.get x := rfl
@[simp] theorem State.modRef_flag (s : State) (r : Nat) (f : RefSt → RefSt) (x : Fld) : (s.modRef r f).flag x = s.flag x := rfl
@[simp] theorem State.modRef_shWord (s : State) (r : Nat) (f : RefSt → RefSt) (x : Nat) : (s.modRef r f).shWord x = s.shWord x := rfl
@[simp] theorem State.modRef_byte (s : State) (r : Nat) (f : RefSt → RefSt) (x : Nat) : (s.modRef r f).byte x = s.byte x := rfl
@[simp] theorem State.modRef_domOn (s : State) (r : Nat) (f : RefSt → RefSt) (x : Nat) : (s.modRef r f).domOn x = s.domOn x := rfl

/-! modProc. -/

@[simp] theorem State.modProc_regs (s : State) (p : Nat) (f : Proc → Proc) : (s.modProc p f).regs = s.regs := rfl
@[simp] theorem State.modProc_shadow (s : State) (p : Nat) (f : Proc → Proc) : (s.modProc p f).shadow = s.shadow := rfl
@[simp] theorem State.modProc_mem (s : State) (p : Nat) (f : Proc → Proc) : (s.modProc p f).mem = s.mem := rfl
@[simp] theorem State.modProc_time (s : State) (p : Nat) (f : Proc → Proc) : (s.modProc p f).time = s.time := rfl
@[simp] theorem State.modProc_recd (s : State) (p : Nat) (f : Proc → Proc) : (s.modProc p f).recd = s.recd := rfl
@[simp] theorem State.modProc_pwr (s : State) (p : Nat) (f : Proc → Proc) : (s.modProc p f).pwr = s.pwr := rfl
@[simp] theorem State.modProc_nvm (s : State) (p : Nat) (f : Proc → Proc) : (s.modProc p f).nvm = s.nvm := rfl
@[simp] theorem State.modProc_fe (s : State) (p : Nat) (f : Proc → Proc) : (s.modProc p f).fe = s.fe := rfl
@[simp] theorem State.modProc_est (s : State) (p : Nat) (f : Proc → Proc) : (s.modProc p f).est = s.est := rfl
@[simp] theorem State.modProc_surv (s : State) (p : Nat) (f : Proc → Proc) : (s.modProc p f).surv = s.surv := rfl
@[simp] theorem State.modProc_trk (s : State) (p : Nat) (f : Proc → Proc) : (s.modProc p f).trk = s.trk := rfl
@[simp] theorem State.modProc_sk (s : State) (p : Nat) (f : Proc → Proc) : (s.modProc p f).sk = s.sk := rfl
@[simp] theorem State.modProc_jobs (s : State) (p : Nat) (f : Proc → Proc) : (s.modProc p f).jobs = s.jobs := rfl
@[simp] theorem State.modProc_alc (s : State) (p : Nat) (f : Proc → Proc) : (s.modProc p f).alc = s.alc := rfl
@[simp] theorem State.modProc_srv (s : State) (p : Nat) (f : Proc → Proc) : (s.modProc p f).srv = s.srv := rfl
@[simp] theorem State.modProc_dsf (s : State) (p : Nat) (f : Proc → Proc) : (s.modProc p f).dsf = s.dsf := rfl
@[simp] theorem State.modProc_syncEdge (s : State) (p : Nat) (f : Proc → Proc) : (s.modProc p f).syncEdge = s.syncEdge := rfl
@[simp] theorem State.modProc_ha (s : State) (p : Nat) (f : Proc → Proc) : (s.modProc p f).ha = s.ha := rfl
@[simp] theorem State.modProc_kz (s : State) (p : Nat) (f : Proc → Proc) : (s.modProc p f).kz = s.kz := rfl
@[simp] theorem State.modProc_gn (s : State) (p : Nat) (f : Proc → Proc) : (s.modProc p f).gn = s.gn := rfl
@[simp] theorem State.modProc_net (s : State) (p : Nat) (f : Proc → Proc) : (s.modProc p f).net = s.net := rfl
@[simp] theorem State.modProc_can (s : State) (p : Nat) (f : Proc → Proc) : (s.modProc p f).can = s.can := rfl
@[simp] theorem State.modProc_be (s : State) (p : Nat) (f : Proc → Proc) : (s.modProc p f).be = s.be := rfl
@[simp] theorem State.modProc_cp (s : State) (p : Nat) (f : Proc → Proc) : (s.modProc p f).cp = s.cp := rfl
@[simp] theorem State.modProc_scrub (s : State) (p : Nat) (f : Proc → Proc) : (s.modProc p f).scrub = s.scrub := rfl
@[simp] theorem State.modProc_cyc (s : State) (p : Nat) (f : Proc → Proc) : (s.modProc p f).cyc = s.cyc := rfl
@[simp] theorem State.modProc_freeCount (s : State) (p : Nat) (f : Proc → Proc) : (s.modProc p f).freeCount = s.freeCount := rfl
@[simp] theorem State.modProc_out (s : State) (p : Nat) (f : Proc → Proc) : (s.modProc p f).out = s.out := rfl
@[simp] theorem State.modProc_pending (s : State) (p : Nat) (f : Proc → Proc) : (s.modProc p f).pending = s.pending := rfl
@[simp] theorem State.modProc_word (s : State) (p : Nat) (f : Proc → Proc) (x : Nat) : (s.modProc p f).word x = s.word x := rfl
@[simp] theorem State.modProc_get (s : State) (p : Nat) (f : Proc → Proc) (x : Fld) : (s.modProc p f).get x = s.get x := rfl
@[simp] theorem State.modProc_flag (s : State) (p : Nat) (f : Proc → Proc) (x : Fld) : (s.modProc p f).flag x = s.flag x := rfl
@[simp] theorem State.modProc_shWord (s : State) (p : Nat) (f : Proc → Proc) (x : Nat) : (s.modProc p f).shWord x = s.shWord x := rfl
@[simp] theorem State.modProc_byte (s : State) (p : Nat) (f : Proc → Proc) (x : Nat) : (s.modProc p f).byte x = s.byte x := rfl
@[simp] theorem State.modProc_domOn (s : State) (p : Nat) (f : Proc → Proc) (x : Nat) : (s.modProc p f).domOn x = s.domOn x := rfl
@[simp] theorem State.modProc_now (s : State) (p : Nat) (f : Proc → Proc) : (s.modProc p f).now = s.now := rfl

/-! modRing. -/

@[simp] theorem State.modRing_regs (s : State) (p l : Nat) (f : Ring → Ring) : (s.modRing p l f).regs = s.regs := rfl
@[simp] theorem State.modRing_shadow (s : State) (p l : Nat) (f : Ring → Ring) : (s.modRing p l f).shadow = s.shadow := rfl
@[simp] theorem State.modRing_mem (s : State) (p l : Nat) (f : Ring → Ring) : (s.modRing p l f).mem = s.mem := rfl
@[simp] theorem State.modRing_time (s : State) (p l : Nat) (f : Ring → Ring) : (s.modRing p l f).time = s.time := rfl
@[simp] theorem State.modRing_recd (s : State) (p l : Nat) (f : Ring → Ring) : (s.modRing p l f).recd = s.recd := rfl
@[simp] theorem State.modRing_pwr (s : State) (p l : Nat) (f : Ring → Ring) : (s.modRing p l f).pwr = s.pwr := rfl
@[simp] theorem State.modRing_nvm (s : State) (p l : Nat) (f : Ring → Ring) : (s.modRing p l f).nvm = s.nvm := rfl
@[simp] theorem State.modRing_fe (s : State) (p l : Nat) (f : Ring → Ring) : (s.modRing p l f).fe = s.fe := rfl
@[simp] theorem State.modRing_est (s : State) (p l : Nat) (f : Ring → Ring) : (s.modRing p l f).est = s.est := rfl
@[simp] theorem State.modRing_surv (s : State) (p l : Nat) (f : Ring → Ring) : (s.modRing p l f).surv = s.surv := rfl
@[simp] theorem State.modRing_trk (s : State) (p l : Nat) (f : Ring → Ring) : (s.modRing p l f).trk = s.trk := rfl
@[simp] theorem State.modRing_sk (s : State) (p l : Nat) (f : Ring → Ring) : (s.modRing p l f).sk = s.sk := rfl
@[simp] theorem State.modRing_jobs (s : State) (p l : Nat) (f : Ring → Ring) : (s.modRing p l f).jobs = s.jobs := rfl
@[simp] theorem State.modRing_alc (s : State) (p l : Nat) (f : Ring → Ring) : (s.modRing p l f).alc = s.alc := rfl
@[simp] theorem State.modRing_srv (s : State) (p l : Nat) (f : Ring → Ring) : (s.modRing p l f).srv = s.srv := rfl
@[simp] theorem State.modRing_dsf (s : State) (p l : Nat) (f : Ring → Ring) : (s.modRing p l f).dsf = s.dsf := rfl
@[simp] theorem State.modRing_syncEdge (s : State) (p l : Nat) (f : Ring → Ring) : (s.modRing p l f).syncEdge = s.syncEdge := rfl
@[simp] theorem State.modRing_ha (s : State) (p l : Nat) (f : Ring → Ring) : (s.modRing p l f).ha = s.ha := rfl
@[simp] theorem State.modRing_kz (s : State) (p l : Nat) (f : Ring → Ring) : (s.modRing p l f).kz = s.kz := rfl
@[simp] theorem State.modRing_gn (s : State) (p l : Nat) (f : Ring → Ring) : (s.modRing p l f).gn = s.gn := rfl
@[simp] theorem State.modRing_net (s : State) (p l : Nat) (f : Ring → Ring) : (s.modRing p l f).net = s.net := rfl
@[simp] theorem State.modRing_can (s : State) (p l : Nat) (f : Ring → Ring) : (s.modRing p l f).can = s.can := rfl
@[simp] theorem State.modRing_be (s : State) (p l : Nat) (f : Ring → Ring) : (s.modRing p l f).be = s.be := rfl
@[simp] theorem State.modRing_cp (s : State) (p l : Nat) (f : Ring → Ring) : (s.modRing p l f).cp = s.cp := rfl
@[simp] theorem State.modRing_scrub (s : State) (p l : Nat) (f : Ring → Ring) : (s.modRing p l f).scrub = s.scrub := rfl
@[simp] theorem State.modRing_cyc (s : State) (p l : Nat) (f : Ring → Ring) : (s.modRing p l f).cyc = s.cyc := rfl
@[simp] theorem State.modRing_freeCount (s : State) (p l : Nat) (f : Ring → Ring) : (s.modRing p l f).freeCount = s.freeCount := rfl
@[simp] theorem State.modRing_out (s : State) (p l : Nat) (f : Ring → Ring) : (s.modRing p l f).out = s.out := rfl
@[simp] theorem State.modRing_pending (s : State) (p l : Nat) (f : Ring → Ring) : (s.modRing p l f).pending = s.pending := rfl
@[simp] theorem State.modRing_word (s : State) (p l : Nat) (f : Ring → Ring) (x : Nat) : (s.modRing p l f).word x = s.word x := rfl
@[simp] theorem State.modRing_get (s : State) (p l : Nat) (f : Ring → Ring) (x : Fld) : (s.modRing p l f).get x = s.get x := rfl
@[simp] theorem State.modRing_flag (s : State) (p l : Nat) (f : Ring → Ring) (x : Fld) : (s.modRing p l f).flag x = s.flag x := rfl
@[simp] theorem State.modRing_shWord (s : State) (p l : Nat) (f : Ring → Ring) (x : Nat) : (s.modRing p l f).shWord x = s.shWord x := rfl
@[simp] theorem State.modRing_byte (s : State) (p l : Nat) (f : Ring → Ring) (x : Nat) : (s.modRing p l f).byte x = s.byte x := rfl
@[simp] theorem State.modRing_domOn (s : State) (p l : Nat) (f : Ring → Ring) (x : Nat) : (s.modRing p l f).domOn x = s.domOn x := rfl
@[simp] theorem State.modRing_now (s : State) (p l : Nat) (f : Ring → Ring) : (s.modRing p l f).now = s.now := rfl

/-! modPwr. -/

@[simp] theorem State.modPwr_regs (s : State) (f : Power → Power) : (s.modPwr f).regs = s.regs := rfl
@[simp] theorem State.modPwr_shadow (s : State) (f : Power → Power) : (s.modPwr f).shadow = s.shadow := rfl
@[simp] theorem State.modPwr_mem (s : State) (f : Power → Power) : (s.modPwr f).mem = s.mem := rfl
@[simp] theorem State.modPwr_time (s : State) (f : Power → Power) : (s.modPwr f).time = s.time := rfl
@[simp] theorem State.modPwr_recd (s : State) (f : Power → Power) : (s.modPwr f).recd = s.recd := rfl
@[simp] theorem State.modPwr_ic (s : State) (f : Power → Power) : (s.modPwr f).ic = s.ic := rfl
@[simp] theorem State.modPwr_pwr (s : State) (f : Power → Power) : (s.modPwr f).pwr = f s.pwr := rfl
@[simp] theorem State.modPwr_nvm (s : State) (f : Power → Power) : (s.modPwr f).nvm = s.nvm := rfl
@[simp] theorem State.modPwr_fe (s : State) (f : Power → Power) : (s.modPwr f).fe = s.fe := rfl
@[simp] theorem State.modPwr_est (s : State) (f : Power → Power) : (s.modPwr f).est = s.est := rfl
@[simp] theorem State.modPwr_surv (s : State) (f : Power → Power) : (s.modPwr f).surv = s.surv := rfl
@[simp] theorem State.modPwr_trk (s : State) (f : Power → Power) : (s.modPwr f).trk = s.trk := rfl
@[simp] theorem State.modPwr_sk (s : State) (f : Power → Power) : (s.modPwr f).sk = s.sk := rfl
@[simp] theorem State.modPwr_jobs (s : State) (f : Power → Power) : (s.modPwr f).jobs = s.jobs := rfl
@[simp] theorem State.modPwr_alc (s : State) (f : Power → Power) : (s.modPwr f).alc = s.alc := rfl
@[simp] theorem State.modPwr_srv (s : State) (f : Power → Power) : (s.modPwr f).srv = s.srv := rfl
@[simp] theorem State.modPwr_dsf (s : State) (f : Power → Power) : (s.modPwr f).dsf = s.dsf := rfl
@[simp] theorem State.modPwr_syncEdge (s : State) (f : Power → Power) : (s.modPwr f).syncEdge = s.syncEdge := rfl
@[simp] theorem State.modPwr_ha (s : State) (f : Power → Power) : (s.modPwr f).ha = s.ha := rfl
@[simp] theorem State.modPwr_kz (s : State) (f : Power → Power) : (s.modPwr f).kz = s.kz := rfl
@[simp] theorem State.modPwr_gn (s : State) (f : Power → Power) : (s.modPwr f).gn = s.gn := rfl
@[simp] theorem State.modPwr_net (s : State) (f : Power → Power) : (s.modPwr f).net = s.net := rfl
@[simp] theorem State.modPwr_can (s : State) (f : Power → Power) : (s.modPwr f).can = s.can := rfl
@[simp] theorem State.modPwr_be (s : State) (f : Power → Power) : (s.modPwr f).be = s.be := rfl
@[simp] theorem State.modPwr_cp (s : State) (f : Power → Power) : (s.modPwr f).cp = s.cp := rfl
@[simp] theorem State.modPwr_scrub (s : State) (f : Power → Power) : (s.modPwr f).scrub = s.scrub := rfl
@[simp] theorem State.modPwr_cyc (s : State) (f : Power → Power) : (s.modPwr f).cyc = s.cyc := rfl
@[simp] theorem State.modPwr_freeCount (s : State) (f : Power → Power) : (s.modPwr f).freeCount = s.freeCount := rfl
@[simp] theorem State.modPwr_out (s : State) (f : Power → Power) : (s.modPwr f).out = s.out := rfl
@[simp] theorem State.modPwr_pending (s : State) (f : Power → Power) : (s.modPwr f).pending = s.pending := rfl
@[simp] theorem State.modPwr_word (s : State) (f : Power → Power) (x : Nat) : (s.modPwr f).word x = s.word x := rfl
@[simp] theorem State.modPwr_get (s : State) (f : Power → Power) (x : Fld) : (s.modPwr f).get x = s.get x := rfl
@[simp] theorem State.modPwr_flag (s : State) (f : Power → Power) (x : Fld) : (s.modPwr f).flag x = s.flag x := rfl
@[simp] theorem State.modPwr_shWord (s : State) (f : Power → Power) (x : Nat) : (s.modPwr f).shWord x = s.shWord x := rfl
@[simp] theorem State.modPwr_byte (s : State) (f : Power → Power) (x : Nat) : (s.modPwr f).byte x = s.byte x := rfl
@[simp] theorem State.modPwr_now (s : State) (f : Power → Power) : (s.modPwr f).now = s.now := rfl

/-! modNvm. -/

@[simp] theorem State.modNvm_regs (s : State) (f : Nvm → Nvm) : (s.modNvm f).regs = s.regs := rfl
@[simp] theorem State.modNvm_shadow (s : State) (f : Nvm → Nvm) : (s.modNvm f).shadow = s.shadow := rfl
@[simp] theorem State.modNvm_mem (s : State) (f : Nvm → Nvm) : (s.modNvm f).mem = s.mem := rfl
@[simp] theorem State.modNvm_time (s : State) (f : Nvm → Nvm) : (s.modNvm f).time = s.time := rfl
@[simp] theorem State.modNvm_recd (s : State) (f : Nvm → Nvm) : (s.modNvm f).recd = s.recd := rfl
@[simp] theorem State.modNvm_ic (s : State) (f : Nvm → Nvm) : (s.modNvm f).ic = s.ic := rfl
@[simp] theorem State.modNvm_pwr (s : State) (f : Nvm → Nvm) : (s.modNvm f).pwr = s.pwr := rfl
@[simp] theorem State.modNvm_nvm (s : State) (f : Nvm → Nvm) : (s.modNvm f).nvm = f s.nvm := rfl
@[simp] theorem State.modNvm_fe (s : State) (f : Nvm → Nvm) : (s.modNvm f).fe = s.fe := rfl
@[simp] theorem State.modNvm_est (s : State) (f : Nvm → Nvm) : (s.modNvm f).est = s.est := rfl
@[simp] theorem State.modNvm_surv (s : State) (f : Nvm → Nvm) : (s.modNvm f).surv = s.surv := rfl
@[simp] theorem State.modNvm_trk (s : State) (f : Nvm → Nvm) : (s.modNvm f).trk = s.trk := rfl
@[simp] theorem State.modNvm_sk (s : State) (f : Nvm → Nvm) : (s.modNvm f).sk = s.sk := rfl
@[simp] theorem State.modNvm_jobs (s : State) (f : Nvm → Nvm) : (s.modNvm f).jobs = s.jobs := rfl
@[simp] theorem State.modNvm_alc (s : State) (f : Nvm → Nvm) : (s.modNvm f).alc = s.alc := rfl
@[simp] theorem State.modNvm_srv (s : State) (f : Nvm → Nvm) : (s.modNvm f).srv = s.srv := rfl
@[simp] theorem State.modNvm_dsf (s : State) (f : Nvm → Nvm) : (s.modNvm f).dsf = s.dsf := rfl
@[simp] theorem State.modNvm_syncEdge (s : State) (f : Nvm → Nvm) : (s.modNvm f).syncEdge = s.syncEdge := rfl
@[simp] theorem State.modNvm_ha (s : State) (f : Nvm → Nvm) : (s.modNvm f).ha = s.ha := rfl
@[simp] theorem State.modNvm_kz (s : State) (f : Nvm → Nvm) : (s.modNvm f).kz = s.kz := rfl
@[simp] theorem State.modNvm_gn (s : State) (f : Nvm → Nvm) : (s.modNvm f).gn = s.gn := rfl
@[simp] theorem State.modNvm_net (s : State) (f : Nvm → Nvm) : (s.modNvm f).net = s.net := rfl
@[simp] theorem State.modNvm_can (s : State) (f : Nvm → Nvm) : (s.modNvm f).can = s.can := rfl
@[simp] theorem State.modNvm_be (s : State) (f : Nvm → Nvm) : (s.modNvm f).be = s.be := rfl
@[simp] theorem State.modNvm_cp (s : State) (f : Nvm → Nvm) : (s.modNvm f).cp = s.cp := rfl
@[simp] theorem State.modNvm_scrub (s : State) (f : Nvm → Nvm) : (s.modNvm f).scrub = s.scrub := rfl
@[simp] theorem State.modNvm_cyc (s : State) (f : Nvm → Nvm) : (s.modNvm f).cyc = s.cyc := rfl
@[simp] theorem State.modNvm_freeCount (s : State) (f : Nvm → Nvm) : (s.modNvm f).freeCount = s.freeCount := rfl
@[simp] theorem State.modNvm_out (s : State) (f : Nvm → Nvm) : (s.modNvm f).out = s.out := rfl
@[simp] theorem State.modNvm_pending (s : State) (f : Nvm → Nvm) : (s.modNvm f).pending = s.pending := rfl
@[simp] theorem State.modNvm_word (s : State) (f : Nvm → Nvm) (x : Nat) : (s.modNvm f).word x = s.word x := rfl
@[simp] theorem State.modNvm_get (s : State) (f : Nvm → Nvm) (x : Fld) : (s.modNvm f).get x = s.get x := rfl
@[simp] theorem State.modNvm_flag (s : State) (f : Nvm → Nvm) (x : Fld) : (s.modNvm f).flag x = s.flag x := rfl
@[simp] theorem State.modNvm_shWord (s : State) (f : Nvm → Nvm) (x : Nat) : (s.modNvm f).shWord x = s.shWord x := rfl
@[simp] theorem State.modNvm_byte (s : State) (f : Nvm → Nvm) (x : Nat) : (s.modNvm f).byte x = s.byte x := rfl
@[simp] theorem State.modNvm_domOn (s : State) (f : Nvm → Nvm) (x : Nat) : (s.modNvm f).domOn x = s.domOn x := rfl
@[simp] theorem State.modNvm_now (s : State) (f : Nvm → Nvm) : (s.modNvm f).now = s.now := rfl

/-! modFe. -/

@[simp] theorem State.modFe_regs (s : State) (f : Fe → Fe) : (s.modFe f).regs = s.regs := rfl
@[simp] theorem State.modFe_shadow (s : State) (f : Fe → Fe) : (s.modFe f).shadow = s.shadow := rfl
@[simp] theorem State.modFe_mem (s : State) (f : Fe → Fe) : (s.modFe f).mem = s.mem := rfl
@[simp] theorem State.modFe_time (s : State) (f : Fe → Fe) : (s.modFe f).time = s.time := rfl
@[simp] theorem State.modFe_recd (s : State) (f : Fe → Fe) : (s.modFe f).recd = s.recd := rfl
@[simp] theorem State.modFe_ic (s : State) (f : Fe → Fe) : (s.modFe f).ic = s.ic := rfl
@[simp] theorem State.modFe_pwr (s : State) (f : Fe → Fe) : (s.modFe f).pwr = s.pwr := rfl
@[simp] theorem State.modFe_nvm (s : State) (f : Fe → Fe) : (s.modFe f).nvm = s.nvm := rfl
@[simp] theorem State.modFe_fe (s : State) (f : Fe → Fe) : (s.modFe f).fe = f s.fe := rfl
@[simp] theorem State.modFe_est (s : State) (f : Fe → Fe) : (s.modFe f).est = s.est := rfl
@[simp] theorem State.modFe_surv (s : State) (f : Fe → Fe) : (s.modFe f).surv = s.surv := rfl
@[simp] theorem State.modFe_trk (s : State) (f : Fe → Fe) : (s.modFe f).trk = s.trk := rfl
@[simp] theorem State.modFe_sk (s : State) (f : Fe → Fe) : (s.modFe f).sk = s.sk := rfl
@[simp] theorem State.modFe_jobs (s : State) (f : Fe → Fe) : (s.modFe f).jobs = s.jobs := rfl
@[simp] theorem State.modFe_alc (s : State) (f : Fe → Fe) : (s.modFe f).alc = s.alc := rfl
@[simp] theorem State.modFe_srv (s : State) (f : Fe → Fe) : (s.modFe f).srv = s.srv := rfl
@[simp] theorem State.modFe_dsf (s : State) (f : Fe → Fe) : (s.modFe f).dsf = s.dsf := rfl
@[simp] theorem State.modFe_syncEdge (s : State) (f : Fe → Fe) : (s.modFe f).syncEdge = s.syncEdge := rfl
@[simp] theorem State.modFe_ha (s : State) (f : Fe → Fe) : (s.modFe f).ha = s.ha := rfl
@[simp] theorem State.modFe_kz (s : State) (f : Fe → Fe) : (s.modFe f).kz = s.kz := rfl
@[simp] theorem State.modFe_gn (s : State) (f : Fe → Fe) : (s.modFe f).gn = s.gn := rfl
@[simp] theorem State.modFe_net (s : State) (f : Fe → Fe) : (s.modFe f).net = s.net := rfl
@[simp] theorem State.modFe_can (s : State) (f : Fe → Fe) : (s.modFe f).can = s.can := rfl
@[simp] theorem State.modFe_be (s : State) (f : Fe → Fe) : (s.modFe f).be = s.be := rfl
@[simp] theorem State.modFe_cp (s : State) (f : Fe → Fe) : (s.modFe f).cp = s.cp := rfl
@[simp] theorem State.modFe_scrub (s : State) (f : Fe → Fe) : (s.modFe f).scrub = s.scrub := rfl
@[simp] theorem State.modFe_cyc (s : State) (f : Fe → Fe) : (s.modFe f).cyc = s.cyc := rfl
@[simp] theorem State.modFe_freeCount (s : State) (f : Fe → Fe) : (s.modFe f).freeCount = s.freeCount := rfl
@[simp] theorem State.modFe_out (s : State) (f : Fe → Fe) : (s.modFe f).out = s.out := rfl
@[simp] theorem State.modFe_pending (s : State) (f : Fe → Fe) : (s.modFe f).pending = s.pending := rfl
@[simp] theorem State.modFe_word (s : State) (f : Fe → Fe) (x : Nat) : (s.modFe f).word x = s.word x := rfl
@[simp] theorem State.modFe_get (s : State) (f : Fe → Fe) (x : Fld) : (s.modFe f).get x = s.get x := rfl
@[simp] theorem State.modFe_flag (s : State) (f : Fe → Fe) (x : Fld) : (s.modFe f).flag x = s.flag x := rfl
@[simp] theorem State.modFe_shWord (s : State) (f : Fe → Fe) (x : Nat) : (s.modFe f).shWord x = s.shWord x := rfl
@[simp] theorem State.modFe_byte (s : State) (f : Fe → Fe) (x : Nat) : (s.modFe f).byte x = s.byte x := rfl
@[simp] theorem State.modFe_domOn (s : State) (f : Fe → Fe) (x : Nat) : (s.modFe f).domOn x = s.domOn x := rfl
@[simp] theorem State.modFe_now (s : State) (f : Fe → Fe) : (s.modFe f).now = s.now := rfl

/-! modStream. -/

@[simp] theorem State.modStream_regs (s : State) (n : Nat) (f : Stream → Stream) : (s.modStream n f).regs = s.regs := rfl
@[simp] theorem State.modStream_shadow (s : State) (n : Nat) (f : Stream → Stream) : (s.modStream n f).shadow = s.shadow := rfl
@[simp] theorem State.modStream_mem (s : State) (n : Nat) (f : Stream → Stream) : (s.modStream n f).mem = s.mem := rfl
@[simp] theorem State.modStream_time (s : State) (n : Nat) (f : Stream → Stream) : (s.modStream n f).time = s.time := rfl
@[simp] theorem State.modStream_recd (s : State) (n : Nat) (f : Stream → Stream) : (s.modStream n f).recd = s.recd := rfl
@[simp] theorem State.modStream_ic (s : State) (n : Nat) (f : Stream → Stream) : (s.modStream n f).ic = s.ic := rfl
@[simp] theorem State.modStream_pwr (s : State) (n : Nat) (f : Stream → Stream) : (s.modStream n f).pwr = s.pwr := rfl
@[simp] theorem State.modStream_nvm (s : State) (n : Nat) (f : Stream → Stream) : (s.modStream n f).nvm = s.nvm := rfl
@[simp] theorem State.modStream_est (s : State) (n : Nat) (f : Stream → Stream) : (s.modStream n f).est = s.est := rfl
@[simp] theorem State.modStream_surv (s : State) (n : Nat) (f : Stream → Stream) : (s.modStream n f).surv = s.surv := rfl
@[simp] theorem State.modStream_trk (s : State) (n : Nat) (f : Stream → Stream) : (s.modStream n f).trk = s.trk := rfl
@[simp] theorem State.modStream_sk (s : State) (n : Nat) (f : Stream → Stream) : (s.modStream n f).sk = s.sk := rfl
@[simp] theorem State.modStream_jobs (s : State) (n : Nat) (f : Stream → Stream) : (s.modStream n f).jobs = s.jobs := rfl
@[simp] theorem State.modStream_alc (s : State) (n : Nat) (f : Stream → Stream) : (s.modStream n f).alc = s.alc := rfl
@[simp] theorem State.modStream_srv (s : State) (n : Nat) (f : Stream → Stream) : (s.modStream n f).srv = s.srv := rfl
@[simp] theorem State.modStream_dsf (s : State) (n : Nat) (f : Stream → Stream) : (s.modStream n f).dsf = s.dsf := rfl
@[simp] theorem State.modStream_syncEdge (s : State) (n : Nat) (f : Stream → Stream) : (s.modStream n f).syncEdge = s.syncEdge := rfl
@[simp] theorem State.modStream_ha (s : State) (n : Nat) (f : Stream → Stream) : (s.modStream n f).ha = s.ha := rfl
@[simp] theorem State.modStream_kz (s : State) (n : Nat) (f : Stream → Stream) : (s.modStream n f).kz = s.kz := rfl
@[simp] theorem State.modStream_gn (s : State) (n : Nat) (f : Stream → Stream) : (s.modStream n f).gn = s.gn := rfl
@[simp] theorem State.modStream_net (s : State) (n : Nat) (f : Stream → Stream) : (s.modStream n f).net = s.net := rfl
@[simp] theorem State.modStream_can (s : State) (n : Nat) (f : Stream → Stream) : (s.modStream n f).can = s.can := rfl
@[simp] theorem State.modStream_be (s : State) (n : Nat) (f : Stream → Stream) : (s.modStream n f).be = s.be := rfl
@[simp] theorem State.modStream_cp (s : State) (n : Nat) (f : Stream → Stream) : (s.modStream n f).cp = s.cp := rfl
@[simp] theorem State.modStream_scrub (s : State) (n : Nat) (f : Stream → Stream) : (s.modStream n f).scrub = s.scrub := rfl
@[simp] theorem State.modStream_cyc (s : State) (n : Nat) (f : Stream → Stream) : (s.modStream n f).cyc = s.cyc := rfl
@[simp] theorem State.modStream_freeCount (s : State) (n : Nat) (f : Stream → Stream) : (s.modStream n f).freeCount = s.freeCount := rfl
@[simp] theorem State.modStream_out (s : State) (n : Nat) (f : Stream → Stream) : (s.modStream n f).out = s.out := rfl
@[simp] theorem State.modStream_pending (s : State) (n : Nat) (f : Stream → Stream) : (s.modStream n f).pending = s.pending := rfl
@[simp] theorem State.modStream_word (s : State) (n : Nat) (f : Stream → Stream) (x : Nat) : (s.modStream n f).word x = s.word x := rfl
@[simp] theorem State.modStream_get (s : State) (n : Nat) (f : Stream → Stream) (x : Fld) : (s.modStream n f).get x = s.get x := rfl
@[simp] theorem State.modStream_flag (s : State) (n : Nat) (f : Stream → Stream) (x : Fld) : (s.modStream n f).flag x = s.flag x := rfl
@[simp] theorem State.modStream_shWord (s : State) (n : Nat) (f : Stream → Stream) (x : Nat) : (s.modStream n f).shWord x = s.shWord x := rfl
@[simp] theorem State.modStream_byte (s : State) (n : Nat) (f : Stream → Stream) (x : Nat) : (s.modStream n f).byte x = s.byte x := rfl
@[simp] theorem State.modStream_domOn (s : State) (n : Nat) (f : Stream → Stream) (x : Nat) : (s.modStream n f).domOn x = s.domOn x := rfl
@[simp] theorem State.modStream_now (s : State) (n : Nat) (f : Stream → Stream) : (s.modStream n f).now = s.now := rfl

/-! modEst. -/

@[simp] theorem State.modEst_regs (s : State) (f : Est → Est) : (s.modEst f).regs = s.regs := rfl
@[simp] theorem State.modEst_shadow (s : State) (f : Est → Est) : (s.modEst f).shadow = s.shadow := rfl
@[simp] theorem State.modEst_mem (s : State) (f : Est → Est) : (s.modEst f).mem = s.mem := rfl
@[simp] theorem State.modEst_time (s : State) (f : Est → Est) : (s.modEst f).time = s.time := rfl
@[simp] theorem State.modEst_recd (s : State) (f : Est → Est) : (s.modEst f).recd = s.recd := rfl
@[simp] theorem State.modEst_ic (s : State) (f : Est → Est) : (s.modEst f).ic = s.ic := rfl
@[simp] theorem State.modEst_pwr (s : State) (f : Est → Est) : (s.modEst f).pwr = s.pwr := rfl
@[simp] theorem State.modEst_nvm (s : State) (f : Est → Est) : (s.modEst f).nvm = s.nvm := rfl
@[simp] theorem State.modEst_fe (s : State) (f : Est → Est) : (s.modEst f).fe = s.fe := rfl
@[simp] theorem State.modEst_est (s : State) (f : Est → Est) : (s.modEst f).est = f s.est := rfl
@[simp] theorem State.modEst_surv (s : State) (f : Est → Est) : (s.modEst f).surv = s.surv := rfl
@[simp] theorem State.modEst_trk (s : State) (f : Est → Est) : (s.modEst f).trk = s.trk := rfl
@[simp] theorem State.modEst_sk (s : State) (f : Est → Est) : (s.modEst f).sk = s.sk := rfl
@[simp] theorem State.modEst_jobs (s : State) (f : Est → Est) : (s.modEst f).jobs = s.jobs := rfl
@[simp] theorem State.modEst_alc (s : State) (f : Est → Est) : (s.modEst f).alc = s.alc := rfl
@[simp] theorem State.modEst_srv (s : State) (f : Est → Est) : (s.modEst f).srv = s.srv := rfl
@[simp] theorem State.modEst_dsf (s : State) (f : Est → Est) : (s.modEst f).dsf = s.dsf := rfl
@[simp] theorem State.modEst_syncEdge (s : State) (f : Est → Est) : (s.modEst f).syncEdge = s.syncEdge := rfl
@[simp] theorem State.modEst_ha (s : State) (f : Est → Est) : (s.modEst f).ha = s.ha := rfl
@[simp] theorem State.modEst_kz (s : State) (f : Est → Est) : (s.modEst f).kz = s.kz := rfl
@[simp] theorem State.modEst_gn (s : State) (f : Est → Est) : (s.modEst f).gn = s.gn := rfl
@[simp] theorem State.modEst_net (s : State) (f : Est → Est) : (s.modEst f).net = s.net := rfl
@[simp] theorem State.modEst_can (s : State) (f : Est → Est) : (s.modEst f).can = s.can := rfl
@[simp] theorem State.modEst_be (s : State) (f : Est → Est) : (s.modEst f).be = s.be := rfl
@[simp] theorem State.modEst_cp (s : State) (f : Est → Est) : (s.modEst f).cp = s.cp := rfl
@[simp] theorem State.modEst_scrub (s : State) (f : Est → Est) : (s.modEst f).scrub = s.scrub := rfl
@[simp] theorem State.modEst_cyc (s : State) (f : Est → Est) : (s.modEst f).cyc = s.cyc := rfl
@[simp] theorem State.modEst_freeCount (s : State) (f : Est → Est) : (s.modEst f).freeCount = s.freeCount := rfl
@[simp] theorem State.modEst_out (s : State) (f : Est → Est) : (s.modEst f).out = s.out := rfl
@[simp] theorem State.modEst_pending (s : State) (f : Est → Est) : (s.modEst f).pending = s.pending := rfl
@[simp] theorem State.modEst_word (s : State) (f : Est → Est) (x : Nat) : (s.modEst f).word x = s.word x := rfl
@[simp] theorem State.modEst_get (s : State) (f : Est → Est) (x : Fld) : (s.modEst f).get x = s.get x := rfl
@[simp] theorem State.modEst_flag (s : State) (f : Est → Est) (x : Fld) : (s.modEst f).flag x = s.flag x := rfl
@[simp] theorem State.modEst_shWord (s : State) (f : Est → Est) (x : Nat) : (s.modEst f).shWord x = s.shWord x := rfl
@[simp] theorem State.modEst_byte (s : State) (f : Est → Est) (x : Nat) : (s.modEst f).byte x = s.byte x := rfl
@[simp] theorem State.modEst_domOn (s : State) (f : Est → Est) (x : Nat) : (s.modEst f).domOn x = s.domOn x := rfl
@[simp] theorem State.modEst_now (s : State) (f : Est → Est) : (s.modEst f).now = s.now := rfl

/-! modTrk. -/

@[simp] theorem State.modTrk_regs (s : State) (f : Track → Track) : (s.modTrk f).regs = s.regs := rfl
@[simp] theorem State.modTrk_shadow (s : State) (f : Track → Track) : (s.modTrk f).shadow = s.shadow := rfl
@[simp] theorem State.modTrk_mem (s : State) (f : Track → Track) : (s.modTrk f).mem = s.mem := rfl
@[simp] theorem State.modTrk_time (s : State) (f : Track → Track) : (s.modTrk f).time = s.time := rfl
@[simp] theorem State.modTrk_recd (s : State) (f : Track → Track) : (s.modTrk f).recd = s.recd := rfl
@[simp] theorem State.modTrk_ic (s : State) (f : Track → Track) : (s.modTrk f).ic = s.ic := rfl
@[simp] theorem State.modTrk_pwr (s : State) (f : Track → Track) : (s.modTrk f).pwr = s.pwr := rfl
@[simp] theorem State.modTrk_nvm (s : State) (f : Track → Track) : (s.modTrk f).nvm = s.nvm := rfl
@[simp] theorem State.modTrk_fe (s : State) (f : Track → Track) : (s.modTrk f).fe = s.fe := rfl
@[simp] theorem State.modTrk_est (s : State) (f : Track → Track) : (s.modTrk f).est = s.est := rfl
@[simp] theorem State.modTrk_surv (s : State) (f : Track → Track) : (s.modTrk f).surv = s.surv := rfl
@[simp] theorem State.modTrk_trk (s : State) (f : Track → Track) : (s.modTrk f).trk = f s.trk := rfl
@[simp] theorem State.modTrk_sk (s : State) (f : Track → Track) : (s.modTrk f).sk = s.sk := rfl
@[simp] theorem State.modTrk_jobs (s : State) (f : Track → Track) : (s.modTrk f).jobs = s.jobs := rfl
@[simp] theorem State.modTrk_alc (s : State) (f : Track → Track) : (s.modTrk f).alc = s.alc := rfl
@[simp] theorem State.modTrk_srv (s : State) (f : Track → Track) : (s.modTrk f).srv = s.srv := rfl
@[simp] theorem State.modTrk_dsf (s : State) (f : Track → Track) : (s.modTrk f).dsf = s.dsf := rfl
@[simp] theorem State.modTrk_syncEdge (s : State) (f : Track → Track) : (s.modTrk f).syncEdge = s.syncEdge := rfl
@[simp] theorem State.modTrk_ha (s : State) (f : Track → Track) : (s.modTrk f).ha = s.ha := rfl
@[simp] theorem State.modTrk_kz (s : State) (f : Track → Track) : (s.modTrk f).kz = s.kz := rfl
@[simp] theorem State.modTrk_gn (s : State) (f : Track → Track) : (s.modTrk f).gn = s.gn := rfl
@[simp] theorem State.modTrk_net (s : State) (f : Track → Track) : (s.modTrk f).net = s.net := rfl
@[simp] theorem State.modTrk_can (s : State) (f : Track → Track) : (s.modTrk f).can = s.can := rfl
@[simp] theorem State.modTrk_be (s : State) (f : Track → Track) : (s.modTrk f).be = s.be := rfl
@[simp] theorem State.modTrk_cp (s : State) (f : Track → Track) : (s.modTrk f).cp = s.cp := rfl
@[simp] theorem State.modTrk_scrub (s : State) (f : Track → Track) : (s.modTrk f).scrub = s.scrub := rfl
@[simp] theorem State.modTrk_cyc (s : State) (f : Track → Track) : (s.modTrk f).cyc = s.cyc := rfl
@[simp] theorem State.modTrk_freeCount (s : State) (f : Track → Track) : (s.modTrk f).freeCount = s.freeCount := rfl
@[simp] theorem State.modTrk_out (s : State) (f : Track → Track) : (s.modTrk f).out = s.out := rfl
@[simp] theorem State.modTrk_pending (s : State) (f : Track → Track) : (s.modTrk f).pending = s.pending := rfl
@[simp] theorem State.modTrk_word (s : State) (f : Track → Track) (x : Nat) : (s.modTrk f).word x = s.word x := rfl
@[simp] theorem State.modTrk_get (s : State) (f : Track → Track) (x : Fld) : (s.modTrk f).get x = s.get x := rfl
@[simp] theorem State.modTrk_flag (s : State) (f : Track → Track) (x : Fld) : (s.modTrk f).flag x = s.flag x := rfl
@[simp] theorem State.modTrk_shWord (s : State) (f : Track → Track) (x : Nat) : (s.modTrk f).shWord x = s.shWord x := rfl
@[simp] theorem State.modTrk_byte (s : State) (f : Track → Track) (x : Nat) : (s.modTrk f).byte x = s.byte x := rfl
@[simp] theorem State.modTrk_domOn (s : State) (f : Track → Track) (x : Nat) : (s.modTrk f).domOn x = s.domOn x := rfl
@[simp] theorem State.modTrk_now (s : State) (f : Track → Track) : (s.modTrk f).now = s.now := rfl

/-! modSk. -/

@[simp] theorem State.modSk_regs (s : State) (f : Sk → Sk) : (s.modSk f).regs = s.regs := rfl
@[simp] theorem State.modSk_shadow (s : State) (f : Sk → Sk) : (s.modSk f).shadow = s.shadow := rfl
@[simp] theorem State.modSk_mem (s : State) (f : Sk → Sk) : (s.modSk f).mem = s.mem := rfl
@[simp] theorem State.modSk_time (s : State) (f : Sk → Sk) : (s.modSk f).time = s.time := rfl
@[simp] theorem State.modSk_recd (s : State) (f : Sk → Sk) : (s.modSk f).recd = s.recd := rfl
@[simp] theorem State.modSk_ic (s : State) (f : Sk → Sk) : (s.modSk f).ic = s.ic := rfl
@[simp] theorem State.modSk_pwr (s : State) (f : Sk → Sk) : (s.modSk f).pwr = s.pwr := rfl
@[simp] theorem State.modSk_nvm (s : State) (f : Sk → Sk) : (s.modSk f).nvm = s.nvm := rfl
@[simp] theorem State.modSk_fe (s : State) (f : Sk → Sk) : (s.modSk f).fe = s.fe := rfl
@[simp] theorem State.modSk_est (s : State) (f : Sk → Sk) : (s.modSk f).est = s.est := rfl
@[simp] theorem State.modSk_surv (s : State) (f : Sk → Sk) : (s.modSk f).surv = s.surv := rfl
@[simp] theorem State.modSk_trk (s : State) (f : Sk → Sk) : (s.modSk f).trk = s.trk := rfl
@[simp] theorem State.modSk_sk (s : State) (f : Sk → Sk) : (s.modSk f).sk = f s.sk := rfl
@[simp] theorem State.modSk_jobs (s : State) (f : Sk → Sk) : (s.modSk f).jobs = s.jobs := rfl
@[simp] theorem State.modSk_alc (s : State) (f : Sk → Sk) : (s.modSk f).alc = s.alc := rfl
@[simp] theorem State.modSk_srv (s : State) (f : Sk → Sk) : (s.modSk f).srv = s.srv := rfl
@[simp] theorem State.modSk_dsf (s : State) (f : Sk → Sk) : (s.modSk f).dsf = s.dsf := rfl
@[simp] theorem State.modSk_syncEdge (s : State) (f : Sk → Sk) : (s.modSk f).syncEdge = s.syncEdge := rfl
@[simp] theorem State.modSk_ha (s : State) (f : Sk → Sk) : (s.modSk f).ha = s.ha := rfl
@[simp] theorem State.modSk_kz (s : State) (f : Sk → Sk) : (s.modSk f).kz = s.kz := rfl
@[simp] theorem State.modSk_gn (s : State) (f : Sk → Sk) : (s.modSk f).gn = s.gn := rfl
@[simp] theorem State.modSk_net (s : State) (f : Sk → Sk) : (s.modSk f).net = s.net := rfl
@[simp] theorem State.modSk_can (s : State) (f : Sk → Sk) : (s.modSk f).can = s.can := rfl
@[simp] theorem State.modSk_be (s : State) (f : Sk → Sk) : (s.modSk f).be = s.be := rfl
@[simp] theorem State.modSk_cp (s : State) (f : Sk → Sk) : (s.modSk f).cp = s.cp := rfl
@[simp] theorem State.modSk_scrub (s : State) (f : Sk → Sk) : (s.modSk f).scrub = s.scrub := rfl
@[simp] theorem State.modSk_cyc (s : State) (f : Sk → Sk) : (s.modSk f).cyc = s.cyc := rfl
@[simp] theorem State.modSk_freeCount (s : State) (f : Sk → Sk) : (s.modSk f).freeCount = s.freeCount := rfl
@[simp] theorem State.modSk_out (s : State) (f : Sk → Sk) : (s.modSk f).out = s.out := rfl
@[simp] theorem State.modSk_pending (s : State) (f : Sk → Sk) : (s.modSk f).pending = s.pending := rfl
@[simp] theorem State.modSk_word (s : State) (f : Sk → Sk) (x : Nat) : (s.modSk f).word x = s.word x := rfl
@[simp] theorem State.modSk_get (s : State) (f : Sk → Sk) (x : Fld) : (s.modSk f).get x = s.get x := rfl
@[simp] theorem State.modSk_flag (s : State) (f : Sk → Sk) (x : Fld) : (s.modSk f).flag x = s.flag x := rfl
@[simp] theorem State.modSk_shWord (s : State) (f : Sk → Sk) (x : Nat) : (s.modSk f).shWord x = s.shWord x := rfl
@[simp] theorem State.modSk_byte (s : State) (f : Sk → Sk) (x : Nat) : (s.modSk f).byte x = s.byte x := rfl
@[simp] theorem State.modSk_domOn (s : State) (f : Sk → Sk) (x : Nat) : (s.modSk f).domOn x = s.domOn x := rfl
@[simp] theorem State.modSk_now (s : State) (f : Sk → Sk) : (s.modSk f).now = s.now := rfl

/-! modJobs. -/

@[simp] theorem State.modJobs_regs (s : State) (f : Jobs → Jobs) : (s.modJobs f).regs = s.regs := rfl
@[simp] theorem State.modJobs_shadow (s : State) (f : Jobs → Jobs) : (s.modJobs f).shadow = s.shadow := rfl
@[simp] theorem State.modJobs_mem (s : State) (f : Jobs → Jobs) : (s.modJobs f).mem = s.mem := rfl
@[simp] theorem State.modJobs_time (s : State) (f : Jobs → Jobs) : (s.modJobs f).time = s.time := rfl
@[simp] theorem State.modJobs_recd (s : State) (f : Jobs → Jobs) : (s.modJobs f).recd = s.recd := rfl
@[simp] theorem State.modJobs_ic (s : State) (f : Jobs → Jobs) : (s.modJobs f).ic = s.ic := rfl
@[simp] theorem State.modJobs_pwr (s : State) (f : Jobs → Jobs) : (s.modJobs f).pwr = s.pwr := rfl
@[simp] theorem State.modJobs_nvm (s : State) (f : Jobs → Jobs) : (s.modJobs f).nvm = s.nvm := rfl
@[simp] theorem State.modJobs_fe (s : State) (f : Jobs → Jobs) : (s.modJobs f).fe = s.fe := rfl
@[simp] theorem State.modJobs_est (s : State) (f : Jobs → Jobs) : (s.modJobs f).est = s.est := rfl
@[simp] theorem State.modJobs_surv (s : State) (f : Jobs → Jobs) : (s.modJobs f).surv = s.surv := rfl
@[simp] theorem State.modJobs_trk (s : State) (f : Jobs → Jobs) : (s.modJobs f).trk = s.trk := rfl
@[simp] theorem State.modJobs_sk (s : State) (f : Jobs → Jobs) : (s.modJobs f).sk = s.sk := rfl
@[simp] theorem State.modJobs_jobs (s : State) (f : Jobs → Jobs) : (s.modJobs f).jobs = f s.jobs := rfl
@[simp] theorem State.modJobs_alc (s : State) (f : Jobs → Jobs) : (s.modJobs f).alc = s.alc := rfl
@[simp] theorem State.modJobs_srv (s : State) (f : Jobs → Jobs) : (s.modJobs f).srv = s.srv := rfl
@[simp] theorem State.modJobs_dsf (s : State) (f : Jobs → Jobs) : (s.modJobs f).dsf = s.dsf := rfl
@[simp] theorem State.modJobs_syncEdge (s : State) (f : Jobs → Jobs) : (s.modJobs f).syncEdge = s.syncEdge := rfl
@[simp] theorem State.modJobs_ha (s : State) (f : Jobs → Jobs) : (s.modJobs f).ha = s.ha := rfl
@[simp] theorem State.modJobs_kz (s : State) (f : Jobs → Jobs) : (s.modJobs f).kz = s.kz := rfl
@[simp] theorem State.modJobs_gn (s : State) (f : Jobs → Jobs) : (s.modJobs f).gn = s.gn := rfl
@[simp] theorem State.modJobs_net (s : State) (f : Jobs → Jobs) : (s.modJobs f).net = s.net := rfl
@[simp] theorem State.modJobs_can (s : State) (f : Jobs → Jobs) : (s.modJobs f).can = s.can := rfl
@[simp] theorem State.modJobs_be (s : State) (f : Jobs → Jobs) : (s.modJobs f).be = s.be := rfl
@[simp] theorem State.modJobs_cp (s : State) (f : Jobs → Jobs) : (s.modJobs f).cp = s.cp := rfl
@[simp] theorem State.modJobs_scrub (s : State) (f : Jobs → Jobs) : (s.modJobs f).scrub = s.scrub := rfl
@[simp] theorem State.modJobs_cyc (s : State) (f : Jobs → Jobs) : (s.modJobs f).cyc = s.cyc := rfl
@[simp] theorem State.modJobs_freeCount (s : State) (f : Jobs → Jobs) : (s.modJobs f).freeCount = s.freeCount := rfl
@[simp] theorem State.modJobs_out (s : State) (f : Jobs → Jobs) : (s.modJobs f).out = s.out := rfl
@[simp] theorem State.modJobs_pending (s : State) (f : Jobs → Jobs) : (s.modJobs f).pending = s.pending := rfl
@[simp] theorem State.modJobs_word (s : State) (f : Jobs → Jobs) (x : Nat) : (s.modJobs f).word x = s.word x := rfl
@[simp] theorem State.modJobs_get (s : State) (f : Jobs → Jobs) (x : Fld) : (s.modJobs f).get x = s.get x := rfl
@[simp] theorem State.modJobs_flag (s : State) (f : Jobs → Jobs) (x : Fld) : (s.modJobs f).flag x = s.flag x := rfl
@[simp] theorem State.modJobs_shWord (s : State) (f : Jobs → Jobs) (x : Nat) : (s.modJobs f).shWord x = s.shWord x := rfl
@[simp] theorem State.modJobs_byte (s : State) (f : Jobs → Jobs) (x : Nat) : (s.modJobs f).byte x = s.byte x := rfl
@[simp] theorem State.modJobs_domOn (s : State) (f : Jobs → Jobs) (x : Nat) : (s.modJobs f).domOn x = s.domOn x := rfl
@[simp] theorem State.modJobs_now (s : State) (f : Jobs → Jobs) : (s.modJobs f).now = s.now := rfl

/-! modAlc. -/

@[simp] theorem State.modAlc_regs (s : State) (f : Alc → Alc) : (s.modAlc f).regs = s.regs := rfl
@[simp] theorem State.modAlc_shadow (s : State) (f : Alc → Alc) : (s.modAlc f).shadow = s.shadow := rfl
@[simp] theorem State.modAlc_mem (s : State) (f : Alc → Alc) : (s.modAlc f).mem = s.mem := rfl
@[simp] theorem State.modAlc_time (s : State) (f : Alc → Alc) : (s.modAlc f).time = s.time := rfl
@[simp] theorem State.modAlc_recd (s : State) (f : Alc → Alc) : (s.modAlc f).recd = s.recd := rfl
@[simp] theorem State.modAlc_ic (s : State) (f : Alc → Alc) : (s.modAlc f).ic = s.ic := rfl
@[simp] theorem State.modAlc_pwr (s : State) (f : Alc → Alc) : (s.modAlc f).pwr = s.pwr := rfl
@[simp] theorem State.modAlc_nvm (s : State) (f : Alc → Alc) : (s.modAlc f).nvm = s.nvm := rfl
@[simp] theorem State.modAlc_fe (s : State) (f : Alc → Alc) : (s.modAlc f).fe = s.fe := rfl
@[simp] theorem State.modAlc_est (s : State) (f : Alc → Alc) : (s.modAlc f).est = s.est := rfl
@[simp] theorem State.modAlc_surv (s : State) (f : Alc → Alc) : (s.modAlc f).surv = s.surv := rfl
@[simp] theorem State.modAlc_trk (s : State) (f : Alc → Alc) : (s.modAlc f).trk = s.trk := rfl
@[simp] theorem State.modAlc_sk (s : State) (f : Alc → Alc) : (s.modAlc f).sk = s.sk := rfl
@[simp] theorem State.modAlc_jobs (s : State) (f : Alc → Alc) : (s.modAlc f).jobs = s.jobs := rfl
@[simp] theorem State.modAlc_alc (s : State) (f : Alc → Alc) : (s.modAlc f).alc = f s.alc := rfl
@[simp] theorem State.modAlc_srv (s : State) (f : Alc → Alc) : (s.modAlc f).srv = s.srv := rfl
@[simp] theorem State.modAlc_dsf (s : State) (f : Alc → Alc) : (s.modAlc f).dsf = s.dsf := rfl
@[simp] theorem State.modAlc_syncEdge (s : State) (f : Alc → Alc) : (s.modAlc f).syncEdge = s.syncEdge := rfl
@[simp] theorem State.modAlc_ha (s : State) (f : Alc → Alc) : (s.modAlc f).ha = s.ha := rfl
@[simp] theorem State.modAlc_kz (s : State) (f : Alc → Alc) : (s.modAlc f).kz = s.kz := rfl
@[simp] theorem State.modAlc_gn (s : State) (f : Alc → Alc) : (s.modAlc f).gn = s.gn := rfl
@[simp] theorem State.modAlc_net (s : State) (f : Alc → Alc) : (s.modAlc f).net = s.net := rfl
@[simp] theorem State.modAlc_can (s : State) (f : Alc → Alc) : (s.modAlc f).can = s.can := rfl
@[simp] theorem State.modAlc_be (s : State) (f : Alc → Alc) : (s.modAlc f).be = s.be := rfl
@[simp] theorem State.modAlc_cp (s : State) (f : Alc → Alc) : (s.modAlc f).cp = s.cp := rfl
@[simp] theorem State.modAlc_scrub (s : State) (f : Alc → Alc) : (s.modAlc f).scrub = s.scrub := rfl
@[simp] theorem State.modAlc_cyc (s : State) (f : Alc → Alc) : (s.modAlc f).cyc = s.cyc := rfl
@[simp] theorem State.modAlc_freeCount (s : State) (f : Alc → Alc) : (s.modAlc f).freeCount = s.freeCount := rfl
@[simp] theorem State.modAlc_out (s : State) (f : Alc → Alc) : (s.modAlc f).out = s.out := rfl
@[simp] theorem State.modAlc_pending (s : State) (f : Alc → Alc) : (s.modAlc f).pending = s.pending := rfl
@[simp] theorem State.modAlc_word (s : State) (f : Alc → Alc) (x : Nat) : (s.modAlc f).word x = s.word x := rfl
@[simp] theorem State.modAlc_get (s : State) (f : Alc → Alc) (x : Fld) : (s.modAlc f).get x = s.get x := rfl
@[simp] theorem State.modAlc_flag (s : State) (f : Alc → Alc) (x : Fld) : (s.modAlc f).flag x = s.flag x := rfl
@[simp] theorem State.modAlc_shWord (s : State) (f : Alc → Alc) (x : Nat) : (s.modAlc f).shWord x = s.shWord x := rfl
@[simp] theorem State.modAlc_byte (s : State) (f : Alc → Alc) (x : Nat) : (s.modAlc f).byte x = s.byte x := rfl
@[simp] theorem State.modAlc_domOn (s : State) (f : Alc → Alc) (x : Nat) : (s.modAlc f).domOn x = s.domOn x := rfl
@[simp] theorem State.modAlc_now (s : State) (f : Alc → Alc) : (s.modAlc f).now = s.now := rfl

/-! modSrv. -/

@[simp] theorem State.modSrv_regs (s : State) (f : Servo → Servo) : (s.modSrv f).regs = s.regs := rfl
@[simp] theorem State.modSrv_shadow (s : State) (f : Servo → Servo) : (s.modSrv f).shadow = s.shadow := rfl
@[simp] theorem State.modSrv_mem (s : State) (f : Servo → Servo) : (s.modSrv f).mem = s.mem := rfl
@[simp] theorem State.modSrv_time (s : State) (f : Servo → Servo) : (s.modSrv f).time = s.time := rfl
@[simp] theorem State.modSrv_recd (s : State) (f : Servo → Servo) : (s.modSrv f).recd = s.recd := rfl
@[simp] theorem State.modSrv_ic (s : State) (f : Servo → Servo) : (s.modSrv f).ic = s.ic := rfl
@[simp] theorem State.modSrv_pwr (s : State) (f : Servo → Servo) : (s.modSrv f).pwr = s.pwr := rfl
@[simp] theorem State.modSrv_nvm (s : State) (f : Servo → Servo) : (s.modSrv f).nvm = s.nvm := rfl
@[simp] theorem State.modSrv_fe (s : State) (f : Servo → Servo) : (s.modSrv f).fe = s.fe := rfl
@[simp] theorem State.modSrv_est (s : State) (f : Servo → Servo) : (s.modSrv f).est = s.est := rfl
@[simp] theorem State.modSrv_surv (s : State) (f : Servo → Servo) : (s.modSrv f).surv = s.surv := rfl
@[simp] theorem State.modSrv_trk (s : State) (f : Servo → Servo) : (s.modSrv f).trk = s.trk := rfl
@[simp] theorem State.modSrv_sk (s : State) (f : Servo → Servo) : (s.modSrv f).sk = s.sk := rfl
@[simp] theorem State.modSrv_jobs (s : State) (f : Servo → Servo) : (s.modSrv f).jobs = s.jobs := rfl
@[simp] theorem State.modSrv_alc (s : State) (f : Servo → Servo) : (s.modSrv f).alc = s.alc := rfl
@[simp] theorem State.modSrv_srv (s : State) (f : Servo → Servo) : (s.modSrv f).srv = f s.srv := rfl
@[simp] theorem State.modSrv_dsf (s : State) (f : Servo → Servo) : (s.modSrv f).dsf = s.dsf := rfl
@[simp] theorem State.modSrv_syncEdge (s : State) (f : Servo → Servo) : (s.modSrv f).syncEdge = s.syncEdge := rfl
@[simp] theorem State.modSrv_ha (s : State) (f : Servo → Servo) : (s.modSrv f).ha = s.ha := rfl
@[simp] theorem State.modSrv_kz (s : State) (f : Servo → Servo) : (s.modSrv f).kz = s.kz := rfl
@[simp] theorem State.modSrv_gn (s : State) (f : Servo → Servo) : (s.modSrv f).gn = s.gn := rfl
@[simp] theorem State.modSrv_net (s : State) (f : Servo → Servo) : (s.modSrv f).net = s.net := rfl
@[simp] theorem State.modSrv_can (s : State) (f : Servo → Servo) : (s.modSrv f).can = s.can := rfl
@[simp] theorem State.modSrv_be (s : State) (f : Servo → Servo) : (s.modSrv f).be = s.be := rfl
@[simp] theorem State.modSrv_cp (s : State) (f : Servo → Servo) : (s.modSrv f).cp = s.cp := rfl
@[simp] theorem State.modSrv_scrub (s : State) (f : Servo → Servo) : (s.modSrv f).scrub = s.scrub := rfl
@[simp] theorem State.modSrv_cyc (s : State) (f : Servo → Servo) : (s.modSrv f).cyc = s.cyc := rfl
@[simp] theorem State.modSrv_freeCount (s : State) (f : Servo → Servo) : (s.modSrv f).freeCount = s.freeCount := rfl
@[simp] theorem State.modSrv_out (s : State) (f : Servo → Servo) : (s.modSrv f).out = s.out := rfl
@[simp] theorem State.modSrv_pending (s : State) (f : Servo → Servo) : (s.modSrv f).pending = s.pending := rfl
@[simp] theorem State.modSrv_word (s : State) (f : Servo → Servo) (x : Nat) : (s.modSrv f).word x = s.word x := rfl
@[simp] theorem State.modSrv_get (s : State) (f : Servo → Servo) (x : Fld) : (s.modSrv f).get x = s.get x := rfl
@[simp] theorem State.modSrv_flag (s : State) (f : Servo → Servo) (x : Fld) : (s.modSrv f).flag x = s.flag x := rfl
@[simp] theorem State.modSrv_shWord (s : State) (f : Servo → Servo) (x : Nat) : (s.modSrv f).shWord x = s.shWord x := rfl
@[simp] theorem State.modSrv_byte (s : State) (f : Servo → Servo) (x : Nat) : (s.modSrv f).byte x = s.byte x := rfl
@[simp] theorem State.modSrv_domOn (s : State) (f : Servo → Servo) (x : Nat) : (s.modSrv f).domOn x = s.domOn x := rfl
@[simp] theorem State.modSrv_now (s : State) (f : Servo → Servo) : (s.modSrv f).now = s.now := rfl

/-! modLoop. -/

@[simp] theorem State.modLoop_regs (s : State) (n : Nat) (f : Loop → Loop) : (s.modLoop n f).regs = s.regs := rfl
@[simp] theorem State.modLoop_shadow (s : State) (n : Nat) (f : Loop → Loop) : (s.modLoop n f).shadow = s.shadow := rfl
@[simp] theorem State.modLoop_mem (s : State) (n : Nat) (f : Loop → Loop) : (s.modLoop n f).mem = s.mem := rfl
@[simp] theorem State.modLoop_time (s : State) (n : Nat) (f : Loop → Loop) : (s.modLoop n f).time = s.time := rfl
@[simp] theorem State.modLoop_recd (s : State) (n : Nat) (f : Loop → Loop) : (s.modLoop n f).recd = s.recd := rfl
@[simp] theorem State.modLoop_ic (s : State) (n : Nat) (f : Loop → Loop) : (s.modLoop n f).ic = s.ic := rfl
@[simp] theorem State.modLoop_pwr (s : State) (n : Nat) (f : Loop → Loop) : (s.modLoop n f).pwr = s.pwr := rfl
@[simp] theorem State.modLoop_nvm (s : State) (n : Nat) (f : Loop → Loop) : (s.modLoop n f).nvm = s.nvm := rfl
@[simp] theorem State.modLoop_fe (s : State) (n : Nat) (f : Loop → Loop) : (s.modLoop n f).fe = s.fe := rfl
@[simp] theorem State.modLoop_est (s : State) (n : Nat) (f : Loop → Loop) : (s.modLoop n f).est = s.est := rfl
@[simp] theorem State.modLoop_surv (s : State) (n : Nat) (f : Loop → Loop) : (s.modLoop n f).surv = s.surv := rfl
@[simp] theorem State.modLoop_trk (s : State) (n : Nat) (f : Loop → Loop) : (s.modLoop n f).trk = s.trk := rfl
@[simp] theorem State.modLoop_sk (s : State) (n : Nat) (f : Loop → Loop) : (s.modLoop n f).sk = s.sk := rfl
@[simp] theorem State.modLoop_jobs (s : State) (n : Nat) (f : Loop → Loop) : (s.modLoop n f).jobs = s.jobs := rfl
@[simp] theorem State.modLoop_alc (s : State) (n : Nat) (f : Loop → Loop) : (s.modLoop n f).alc = s.alc := rfl
@[simp] theorem State.modLoop_dsf (s : State) (n : Nat) (f : Loop → Loop) : (s.modLoop n f).dsf = s.dsf := rfl
@[simp] theorem State.modLoop_syncEdge (s : State) (n : Nat) (f : Loop → Loop) : (s.modLoop n f).syncEdge = s.syncEdge := rfl
@[simp] theorem State.modLoop_ha (s : State) (n : Nat) (f : Loop → Loop) : (s.modLoop n f).ha = s.ha := rfl
@[simp] theorem State.modLoop_kz (s : State) (n : Nat) (f : Loop → Loop) : (s.modLoop n f).kz = s.kz := rfl
@[simp] theorem State.modLoop_gn (s : State) (n : Nat) (f : Loop → Loop) : (s.modLoop n f).gn = s.gn := rfl
@[simp] theorem State.modLoop_net (s : State) (n : Nat) (f : Loop → Loop) : (s.modLoop n f).net = s.net := rfl
@[simp] theorem State.modLoop_can (s : State) (n : Nat) (f : Loop → Loop) : (s.modLoop n f).can = s.can := rfl
@[simp] theorem State.modLoop_be (s : State) (n : Nat) (f : Loop → Loop) : (s.modLoop n f).be = s.be := rfl
@[simp] theorem State.modLoop_cp (s : State) (n : Nat) (f : Loop → Loop) : (s.modLoop n f).cp = s.cp := rfl
@[simp] theorem State.modLoop_scrub (s : State) (n : Nat) (f : Loop → Loop) : (s.modLoop n f).scrub = s.scrub := rfl
@[simp] theorem State.modLoop_cyc (s : State) (n : Nat) (f : Loop → Loop) : (s.modLoop n f).cyc = s.cyc := rfl
@[simp] theorem State.modLoop_freeCount (s : State) (n : Nat) (f : Loop → Loop) : (s.modLoop n f).freeCount = s.freeCount := rfl
@[simp] theorem State.modLoop_out (s : State) (n : Nat) (f : Loop → Loop) : (s.modLoop n f).out = s.out := rfl
@[simp] theorem State.modLoop_pending (s : State) (n : Nat) (f : Loop → Loop) : (s.modLoop n f).pending = s.pending := rfl
@[simp] theorem State.modLoop_word (s : State) (n : Nat) (f : Loop → Loop) (x : Nat) : (s.modLoop n f).word x = s.word x := rfl
@[simp] theorem State.modLoop_get (s : State) (n : Nat) (f : Loop → Loop) (x : Fld) : (s.modLoop n f).get x = s.get x := rfl
@[simp] theorem State.modLoop_flag (s : State) (n : Nat) (f : Loop → Loop) (x : Fld) : (s.modLoop n f).flag x = s.flag x := rfl
@[simp] theorem State.modLoop_shWord (s : State) (n : Nat) (f : Loop → Loop) (x : Nat) : (s.modLoop n f).shWord x = s.shWord x := rfl
@[simp] theorem State.modLoop_byte (s : State) (n : Nat) (f : Loop → Loop) (x : Nat) : (s.modLoop n f).byte x = s.byte x := rfl
@[simp] theorem State.modLoop_domOn (s : State) (n : Nat) (f : Loop → Loop) (x : Nat) : (s.modLoop n f).domOn x = s.domOn x := rfl
@[simp] theorem State.modLoop_now (s : State) (n : Nat) (f : Loop → Loop) : (s.modLoop n f).now = s.now := rfl

/-! modCap. -/

@[simp] theorem State.modCap_regs (s : State) (u : Nat) (f : Capture → Capture) : (s.modCap u f).regs = s.regs := rfl
@[simp] theorem State.modCap_shadow (s : State) (u : Nat) (f : Capture → Capture) : (s.modCap u f).shadow = s.shadow := rfl
@[simp] theorem State.modCap_mem (s : State) (u : Nat) (f : Capture → Capture) : (s.modCap u f).mem = s.mem := rfl
@[simp] theorem State.modCap_time (s : State) (u : Nat) (f : Capture → Capture) : (s.modCap u f).time = s.time := rfl
@[simp] theorem State.modCap_recd (s : State) (u : Nat) (f : Capture → Capture) : (s.modCap u f).recd = s.recd := rfl
@[simp] theorem State.modCap_ic (s : State) (u : Nat) (f : Capture → Capture) : (s.modCap u f).ic = s.ic := rfl
@[simp] theorem State.modCap_pwr (s : State) (u : Nat) (f : Capture → Capture) : (s.modCap u f).pwr = s.pwr := rfl
@[simp] theorem State.modCap_nvm (s : State) (u : Nat) (f : Capture → Capture) : (s.modCap u f).nvm = s.nvm := rfl
@[simp] theorem State.modCap_fe (s : State) (u : Nat) (f : Capture → Capture) : (s.modCap u f).fe = s.fe := rfl
@[simp] theorem State.modCap_est (s : State) (u : Nat) (f : Capture → Capture) : (s.modCap u f).est = s.est := rfl
@[simp] theorem State.modCap_surv (s : State) (u : Nat) (f : Capture → Capture) : (s.modCap u f).surv = s.surv := rfl
@[simp] theorem State.modCap_trk (s : State) (u : Nat) (f : Capture → Capture) : (s.modCap u f).trk = s.trk := rfl
@[simp] theorem State.modCap_sk (s : State) (u : Nat) (f : Capture → Capture) : (s.modCap u f).sk = s.sk := rfl
@[simp] theorem State.modCap_jobs (s : State) (u : Nat) (f : Capture → Capture) : (s.modCap u f).jobs = s.jobs := rfl
@[simp] theorem State.modCap_alc (s : State) (u : Nat) (f : Capture → Capture) : (s.modCap u f).alc = s.alc := rfl
@[simp] theorem State.modCap_dsf (s : State) (u : Nat) (f : Capture → Capture) : (s.modCap u f).dsf = s.dsf := rfl
@[simp] theorem State.modCap_syncEdge (s : State) (u : Nat) (f : Capture → Capture) : (s.modCap u f).syncEdge = s.syncEdge := rfl
@[simp] theorem State.modCap_ha (s : State) (u : Nat) (f : Capture → Capture) : (s.modCap u f).ha = s.ha := rfl
@[simp] theorem State.modCap_kz (s : State) (u : Nat) (f : Capture → Capture) : (s.modCap u f).kz = s.kz := rfl
@[simp] theorem State.modCap_gn (s : State) (u : Nat) (f : Capture → Capture) : (s.modCap u f).gn = s.gn := rfl
@[simp] theorem State.modCap_net (s : State) (u : Nat) (f : Capture → Capture) : (s.modCap u f).net = s.net := rfl
@[simp] theorem State.modCap_can (s : State) (u : Nat) (f : Capture → Capture) : (s.modCap u f).can = s.can := rfl
@[simp] theorem State.modCap_be (s : State) (u : Nat) (f : Capture → Capture) : (s.modCap u f).be = s.be := rfl
@[simp] theorem State.modCap_cp (s : State) (u : Nat) (f : Capture → Capture) : (s.modCap u f).cp = s.cp := rfl
@[simp] theorem State.modCap_scrub (s : State) (u : Nat) (f : Capture → Capture) : (s.modCap u f).scrub = s.scrub := rfl
@[simp] theorem State.modCap_cyc (s : State) (u : Nat) (f : Capture → Capture) : (s.modCap u f).cyc = s.cyc := rfl
@[simp] theorem State.modCap_freeCount (s : State) (u : Nat) (f : Capture → Capture) : (s.modCap u f).freeCount = s.freeCount := rfl
@[simp] theorem State.modCap_out (s : State) (u : Nat) (f : Capture → Capture) : (s.modCap u f).out = s.out := rfl
@[simp] theorem State.modCap_pending (s : State) (u : Nat) (f : Capture → Capture) : (s.modCap u f).pending = s.pending := rfl
@[simp] theorem State.modCap_word (s : State) (u : Nat) (f : Capture → Capture) (x : Nat) : (s.modCap u f).word x = s.word x := rfl
@[simp] theorem State.modCap_get (s : State) (u : Nat) (f : Capture → Capture) (x : Fld) : (s.modCap u f).get x = s.get x := rfl
@[simp] theorem State.modCap_flag (s : State) (u : Nat) (f : Capture → Capture) (x : Fld) : (s.modCap u f).flag x = s.flag x := rfl
@[simp] theorem State.modCap_shWord (s : State) (u : Nat) (f : Capture → Capture) (x : Nat) : (s.modCap u f).shWord x = s.shWord x := rfl
@[simp] theorem State.modCap_byte (s : State) (u : Nat) (f : Capture → Capture) (x : Nat) : (s.modCap u f).byte x = s.byte x := rfl
@[simp] theorem State.modCap_domOn (s : State) (u : Nat) (f : Capture → Capture) (x : Nat) : (s.modCap u f).domOn x = s.domOn x := rfl
@[simp] theorem State.modCap_now (s : State) (u : Nat) (f : Capture → Capture) : (s.modCap u f).now = s.now := rfl

/-! modDsf. -/

@[simp] theorem State.modDsf_regs (s : State) (n : Nat) (f : Dsf → Dsf) : (s.modDsf n f).regs = s.regs := rfl
@[simp] theorem State.modDsf_shadow (s : State) (n : Nat) (f : Dsf → Dsf) : (s.modDsf n f).shadow = s.shadow := rfl
@[simp] theorem State.modDsf_mem (s : State) (n : Nat) (f : Dsf → Dsf) : (s.modDsf n f).mem = s.mem := rfl
@[simp] theorem State.modDsf_time (s : State) (n : Nat) (f : Dsf → Dsf) : (s.modDsf n f).time = s.time := rfl
@[simp] theorem State.modDsf_recd (s : State) (n : Nat) (f : Dsf → Dsf) : (s.modDsf n f).recd = s.recd := rfl
@[simp] theorem State.modDsf_ic (s : State) (n : Nat) (f : Dsf → Dsf) : (s.modDsf n f).ic = s.ic := rfl
@[simp] theorem State.modDsf_pwr (s : State) (n : Nat) (f : Dsf → Dsf) : (s.modDsf n f).pwr = s.pwr := rfl
@[simp] theorem State.modDsf_nvm (s : State) (n : Nat) (f : Dsf → Dsf) : (s.modDsf n f).nvm = s.nvm := rfl
@[simp] theorem State.modDsf_fe (s : State) (n : Nat) (f : Dsf → Dsf) : (s.modDsf n f).fe = s.fe := rfl
@[simp] theorem State.modDsf_est (s : State) (n : Nat) (f : Dsf → Dsf) : (s.modDsf n f).est = s.est := rfl
@[simp] theorem State.modDsf_surv (s : State) (n : Nat) (f : Dsf → Dsf) : (s.modDsf n f).surv = s.surv := rfl
@[simp] theorem State.modDsf_trk (s : State) (n : Nat) (f : Dsf → Dsf) : (s.modDsf n f).trk = s.trk := rfl
@[simp] theorem State.modDsf_sk (s : State) (n : Nat) (f : Dsf → Dsf) : (s.modDsf n f).sk = s.sk := rfl
@[simp] theorem State.modDsf_jobs (s : State) (n : Nat) (f : Dsf → Dsf) : (s.modDsf n f).jobs = s.jobs := rfl
@[simp] theorem State.modDsf_alc (s : State) (n : Nat) (f : Dsf → Dsf) : (s.modDsf n f).alc = s.alc := rfl
@[simp] theorem State.modDsf_srv (s : State) (n : Nat) (f : Dsf → Dsf) : (s.modDsf n f).srv = s.srv := rfl
@[simp] theorem State.modDsf_syncEdge (s : State) (n : Nat) (f : Dsf → Dsf) : (s.modDsf n f).syncEdge = s.syncEdge := rfl
@[simp] theorem State.modDsf_ha (s : State) (n : Nat) (f : Dsf → Dsf) : (s.modDsf n f).ha = s.ha := rfl
@[simp] theorem State.modDsf_kz (s : State) (n : Nat) (f : Dsf → Dsf) : (s.modDsf n f).kz = s.kz := rfl
@[simp] theorem State.modDsf_gn (s : State) (n : Nat) (f : Dsf → Dsf) : (s.modDsf n f).gn = s.gn := rfl
@[simp] theorem State.modDsf_net (s : State) (n : Nat) (f : Dsf → Dsf) : (s.modDsf n f).net = s.net := rfl
@[simp] theorem State.modDsf_can (s : State) (n : Nat) (f : Dsf → Dsf) : (s.modDsf n f).can = s.can := rfl
@[simp] theorem State.modDsf_be (s : State) (n : Nat) (f : Dsf → Dsf) : (s.modDsf n f).be = s.be := rfl
@[simp] theorem State.modDsf_cp (s : State) (n : Nat) (f : Dsf → Dsf) : (s.modDsf n f).cp = s.cp := rfl
@[simp] theorem State.modDsf_scrub (s : State) (n : Nat) (f : Dsf → Dsf) : (s.modDsf n f).scrub = s.scrub := rfl
@[simp] theorem State.modDsf_cyc (s : State) (n : Nat) (f : Dsf → Dsf) : (s.modDsf n f).cyc = s.cyc := rfl
@[simp] theorem State.modDsf_freeCount (s : State) (n : Nat) (f : Dsf → Dsf) : (s.modDsf n f).freeCount = s.freeCount := rfl
@[simp] theorem State.modDsf_out (s : State) (n : Nat) (f : Dsf → Dsf) : (s.modDsf n f).out = s.out := rfl
@[simp] theorem State.modDsf_pending (s : State) (n : Nat) (f : Dsf → Dsf) : (s.modDsf n f).pending = s.pending := rfl
@[simp] theorem State.modDsf_word (s : State) (n : Nat) (f : Dsf → Dsf) (x : Nat) : (s.modDsf n f).word x = s.word x := rfl
@[simp] theorem State.modDsf_get (s : State) (n : Nat) (f : Dsf → Dsf) (x : Fld) : (s.modDsf n f).get x = s.get x := rfl
@[simp] theorem State.modDsf_flag (s : State) (n : Nat) (f : Dsf → Dsf) (x : Fld) : (s.modDsf n f).flag x = s.flag x := rfl
@[simp] theorem State.modDsf_shWord (s : State) (n : Nat) (f : Dsf → Dsf) (x : Nat) : (s.modDsf n f).shWord x = s.shWord x := rfl
@[simp] theorem State.modDsf_byte (s : State) (n : Nat) (f : Dsf → Dsf) (x : Nat) : (s.modDsf n f).byte x = s.byte x := rfl
@[simp] theorem State.modDsf_domOn (s : State) (n : Nat) (f : Dsf → Dsf) (x : Nat) : (s.modDsf n f).domOn x = s.domOn x := rfl
@[simp] theorem State.modDsf_now (s : State) (n : Nat) (f : Dsf → Dsf) : (s.modDsf n f).now = s.now := rfl

/-! modHa. -/

@[simp] theorem State.modHa_regs (s : State) (f : Ha → Ha) : (s.modHa f).regs = s.regs := rfl
@[simp] theorem State.modHa_shadow (s : State) (f : Ha → Ha) : (s.modHa f).shadow = s.shadow := rfl
@[simp] theorem State.modHa_mem (s : State) (f : Ha → Ha) : (s.modHa f).mem = s.mem := rfl
@[simp] theorem State.modHa_time (s : State) (f : Ha → Ha) : (s.modHa f).time = s.time := rfl
@[simp] theorem State.modHa_recd (s : State) (f : Ha → Ha) : (s.modHa f).recd = s.recd := rfl
@[simp] theorem State.modHa_ic (s : State) (f : Ha → Ha) : (s.modHa f).ic = s.ic := rfl
@[simp] theorem State.modHa_pwr (s : State) (f : Ha → Ha) : (s.modHa f).pwr = s.pwr := rfl
@[simp] theorem State.modHa_nvm (s : State) (f : Ha → Ha) : (s.modHa f).nvm = s.nvm := rfl
@[simp] theorem State.modHa_fe (s : State) (f : Ha → Ha) : (s.modHa f).fe = s.fe := rfl
@[simp] theorem State.modHa_est (s : State) (f : Ha → Ha) : (s.modHa f).est = s.est := rfl
@[simp] theorem State.modHa_surv (s : State) (f : Ha → Ha) : (s.modHa f).surv = s.surv := rfl
@[simp] theorem State.modHa_trk (s : State) (f : Ha → Ha) : (s.modHa f).trk = s.trk := rfl
@[simp] theorem State.modHa_sk (s : State) (f : Ha → Ha) : (s.modHa f).sk = s.sk := rfl
@[simp] theorem State.modHa_jobs (s : State) (f : Ha → Ha) : (s.modHa f).jobs = s.jobs := rfl
@[simp] theorem State.modHa_alc (s : State) (f : Ha → Ha) : (s.modHa f).alc = s.alc := rfl
@[simp] theorem State.modHa_srv (s : State) (f : Ha → Ha) : (s.modHa f).srv = s.srv := rfl
@[simp] theorem State.modHa_dsf (s : State) (f : Ha → Ha) : (s.modHa f).dsf = s.dsf := rfl
@[simp] theorem State.modHa_syncEdge (s : State) (f : Ha → Ha) : (s.modHa f).syncEdge = s.syncEdge := rfl
@[simp] theorem State.modHa_ha (s : State) (f : Ha → Ha) : (s.modHa f).ha = f s.ha := rfl
@[simp] theorem State.modHa_kz (s : State) (f : Ha → Ha) : (s.modHa f).kz = s.kz := rfl
@[simp] theorem State.modHa_gn (s : State) (f : Ha → Ha) : (s.modHa f).gn = s.gn := rfl
@[simp] theorem State.modHa_net (s : State) (f : Ha → Ha) : (s.modHa f).net = s.net := rfl
@[simp] theorem State.modHa_can (s : State) (f : Ha → Ha) : (s.modHa f).can = s.can := rfl
@[simp] theorem State.modHa_be (s : State) (f : Ha → Ha) : (s.modHa f).be = s.be := rfl
@[simp] theorem State.modHa_cp (s : State) (f : Ha → Ha) : (s.modHa f).cp = s.cp := rfl
@[simp] theorem State.modHa_scrub (s : State) (f : Ha → Ha) : (s.modHa f).scrub = s.scrub := rfl
@[simp] theorem State.modHa_cyc (s : State) (f : Ha → Ha) : (s.modHa f).cyc = s.cyc := rfl
@[simp] theorem State.modHa_freeCount (s : State) (f : Ha → Ha) : (s.modHa f).freeCount = s.freeCount := rfl
@[simp] theorem State.modHa_out (s : State) (f : Ha → Ha) : (s.modHa f).out = s.out := rfl
@[simp] theorem State.modHa_pending (s : State) (f : Ha → Ha) : (s.modHa f).pending = s.pending := rfl
@[simp] theorem State.modHa_word (s : State) (f : Ha → Ha) (x : Nat) : (s.modHa f).word x = s.word x := rfl
@[simp] theorem State.modHa_get (s : State) (f : Ha → Ha) (x : Fld) : (s.modHa f).get x = s.get x := rfl
@[simp] theorem State.modHa_flag (s : State) (f : Ha → Ha) (x : Fld) : (s.modHa f).flag x = s.flag x := rfl
@[simp] theorem State.modHa_shWord (s : State) (f : Ha → Ha) (x : Nat) : (s.modHa f).shWord x = s.shWord x := rfl
@[simp] theorem State.modHa_byte (s : State) (f : Ha → Ha) (x : Nat) : (s.modHa f).byte x = s.byte x := rfl
@[simp] theorem State.modHa_domOn (s : State) (f : Ha → Ha) (x : Nat) : (s.modHa f).domOn x = s.domOn x := rfl
@[simp] theorem State.modHa_now (s : State) (f : Ha → Ha) : (s.modHa f).now = s.now := rfl

/-! modKz. -/

@[simp] theorem State.modKz_regs (s : State) (f : Kz → Kz) : (s.modKz f).regs = s.regs := rfl
@[simp] theorem State.modKz_shadow (s : State) (f : Kz → Kz) : (s.modKz f).shadow = s.shadow := rfl
@[simp] theorem State.modKz_mem (s : State) (f : Kz → Kz) : (s.modKz f).mem = s.mem := rfl
@[simp] theorem State.modKz_time (s : State) (f : Kz → Kz) : (s.modKz f).time = s.time := rfl
@[simp] theorem State.modKz_recd (s : State) (f : Kz → Kz) : (s.modKz f).recd = s.recd := rfl
@[simp] theorem State.modKz_ic (s : State) (f : Kz → Kz) : (s.modKz f).ic = s.ic := rfl
@[simp] theorem State.modKz_pwr (s : State) (f : Kz → Kz) : (s.modKz f).pwr = s.pwr := rfl
@[simp] theorem State.modKz_nvm (s : State) (f : Kz → Kz) : (s.modKz f).nvm = s.nvm := rfl
@[simp] theorem State.modKz_fe (s : State) (f : Kz → Kz) : (s.modKz f).fe = s.fe := rfl
@[simp] theorem State.modKz_est (s : State) (f : Kz → Kz) : (s.modKz f).est = s.est := rfl
@[simp] theorem State.modKz_surv (s : State) (f : Kz → Kz) : (s.modKz f).surv = s.surv := rfl
@[simp] theorem State.modKz_trk (s : State) (f : Kz → Kz) : (s.modKz f).trk = s.trk := rfl
@[simp] theorem State.modKz_sk (s : State) (f : Kz → Kz) : (s.modKz f).sk = s.sk := rfl
@[simp] theorem State.modKz_jobs (s : State) (f : Kz → Kz) : (s.modKz f).jobs = s.jobs := rfl
@[simp] theorem State.modKz_alc (s : State) (f : Kz → Kz) : (s.modKz f).alc = s.alc := rfl
@[simp] theorem State.modKz_srv (s : State) (f : Kz → Kz) : (s.modKz f).srv = s.srv := rfl
@[simp] theorem State.modKz_dsf (s : State) (f : Kz → Kz) : (s.modKz f).dsf = s.dsf := rfl
@[simp] theorem State.modKz_syncEdge (s : State) (f : Kz → Kz) : (s.modKz f).syncEdge = s.syncEdge := rfl
@[simp] theorem State.modKz_ha (s : State) (f : Kz → Kz) : (s.modKz f).ha = s.ha := rfl
@[simp] theorem State.modKz_kz (s : State) (f : Kz → Kz) : (s.modKz f).kz = f s.kz := rfl
@[simp] theorem State.modKz_gn (s : State) (f : Kz → Kz) : (s.modKz f).gn = s.gn := rfl
@[simp] theorem State.modKz_net (s : State) (f : Kz → Kz) : (s.modKz f).net = s.net := rfl
@[simp] theorem State.modKz_can (s : State) (f : Kz → Kz) : (s.modKz f).can = s.can := rfl
@[simp] theorem State.modKz_be (s : State) (f : Kz → Kz) : (s.modKz f).be = s.be := rfl
@[simp] theorem State.modKz_cp (s : State) (f : Kz → Kz) : (s.modKz f).cp = s.cp := rfl
@[simp] theorem State.modKz_scrub (s : State) (f : Kz → Kz) : (s.modKz f).scrub = s.scrub := rfl
@[simp] theorem State.modKz_cyc (s : State) (f : Kz → Kz) : (s.modKz f).cyc = s.cyc := rfl
@[simp] theorem State.modKz_freeCount (s : State) (f : Kz → Kz) : (s.modKz f).freeCount = s.freeCount := rfl
@[simp] theorem State.modKz_out (s : State) (f : Kz → Kz) : (s.modKz f).out = s.out := rfl
@[simp] theorem State.modKz_pending (s : State) (f : Kz → Kz) : (s.modKz f).pending = s.pending := rfl
@[simp] theorem State.modKz_word (s : State) (f : Kz → Kz) (x : Nat) : (s.modKz f).word x = s.word x := rfl
@[simp] theorem State.modKz_get (s : State) (f : Kz → Kz) (x : Fld) : (s.modKz f).get x = s.get x := rfl
@[simp] theorem State.modKz_flag (s : State) (f : Kz → Kz) (x : Fld) : (s.modKz f).flag x = s.flag x := rfl
@[simp] theorem State.modKz_shWord (s : State) (f : Kz → Kz) (x : Nat) : (s.modKz f).shWord x = s.shWord x := rfl
@[simp] theorem State.modKz_byte (s : State) (f : Kz → Kz) (x : Nat) : (s.modKz f).byte x = s.byte x := rfl
@[simp] theorem State.modKz_domOn (s : State) (f : Kz → Kz) (x : Nat) : (s.modKz f).domOn x = s.domOn x := rfl
@[simp] theorem State.modKz_now (s : State) (f : Kz → Kz) : (s.modKz f).now = s.now := rfl

/-! modKch. -/

@[simp] theorem State.modKch_regs (s : State) (c : Nat) (f : KzCh → KzCh) : (s.modKch c f).regs = s.regs := rfl
@[simp] theorem State.modKch_shadow (s : State) (c : Nat) (f : KzCh → KzCh) : (s.modKch c f).shadow = s.shadow := rfl
@[simp] theorem State.modKch_mem (s : State) (c : Nat) (f : KzCh → KzCh) : (s.modKch c f).mem = s.mem := rfl
@[simp] theorem State.modKch_time (s : State) (c : Nat) (f : KzCh → KzCh) : (s.modKch c f).time = s.time := rfl
@[simp] theorem State.modKch_recd (s : State) (c : Nat) (f : KzCh → KzCh) : (s.modKch c f).recd = s.recd := rfl
@[simp] theorem State.modKch_ic (s : State) (c : Nat) (f : KzCh → KzCh) : (s.modKch c f).ic = s.ic := rfl
@[simp] theorem State.modKch_pwr (s : State) (c : Nat) (f : KzCh → KzCh) : (s.modKch c f).pwr = s.pwr := rfl
@[simp] theorem State.modKch_nvm (s : State) (c : Nat) (f : KzCh → KzCh) : (s.modKch c f).nvm = s.nvm := rfl
@[simp] theorem State.modKch_fe (s : State) (c : Nat) (f : KzCh → KzCh) : (s.modKch c f).fe = s.fe := rfl
@[simp] theorem State.modKch_est (s : State) (c : Nat) (f : KzCh → KzCh) : (s.modKch c f).est = s.est := rfl
@[simp] theorem State.modKch_surv (s : State) (c : Nat) (f : KzCh → KzCh) : (s.modKch c f).surv = s.surv := rfl
@[simp] theorem State.modKch_trk (s : State) (c : Nat) (f : KzCh → KzCh) : (s.modKch c f).trk = s.trk := rfl
@[simp] theorem State.modKch_sk (s : State) (c : Nat) (f : KzCh → KzCh) : (s.modKch c f).sk = s.sk := rfl
@[simp] theorem State.modKch_jobs (s : State) (c : Nat) (f : KzCh → KzCh) : (s.modKch c f).jobs = s.jobs := rfl
@[simp] theorem State.modKch_alc (s : State) (c : Nat) (f : KzCh → KzCh) : (s.modKch c f).alc = s.alc := rfl
@[simp] theorem State.modKch_srv (s : State) (c : Nat) (f : KzCh → KzCh) : (s.modKch c f).srv = s.srv := rfl
@[simp] theorem State.modKch_dsf (s : State) (c : Nat) (f : KzCh → KzCh) : (s.modKch c f).dsf = s.dsf := rfl
@[simp] theorem State.modKch_syncEdge (s : State) (c : Nat) (f : KzCh → KzCh) : (s.modKch c f).syncEdge = s.syncEdge := rfl
@[simp] theorem State.modKch_ha (s : State) (c : Nat) (f : KzCh → KzCh) : (s.modKch c f).ha = s.ha := rfl
@[simp] theorem State.modKch_gn (s : State) (c : Nat) (f : KzCh → KzCh) : (s.modKch c f).gn = s.gn := rfl
@[simp] theorem State.modKch_net (s : State) (c : Nat) (f : KzCh → KzCh) : (s.modKch c f).net = s.net := rfl
@[simp] theorem State.modKch_can (s : State) (c : Nat) (f : KzCh → KzCh) : (s.modKch c f).can = s.can := rfl
@[simp] theorem State.modKch_be (s : State) (c : Nat) (f : KzCh → KzCh) : (s.modKch c f).be = s.be := rfl
@[simp] theorem State.modKch_cp (s : State) (c : Nat) (f : KzCh → KzCh) : (s.modKch c f).cp = s.cp := rfl
@[simp] theorem State.modKch_scrub (s : State) (c : Nat) (f : KzCh → KzCh) : (s.modKch c f).scrub = s.scrub := rfl
@[simp] theorem State.modKch_cyc (s : State) (c : Nat) (f : KzCh → KzCh) : (s.modKch c f).cyc = s.cyc := rfl
@[simp] theorem State.modKch_freeCount (s : State) (c : Nat) (f : KzCh → KzCh) : (s.modKch c f).freeCount = s.freeCount := rfl
@[simp] theorem State.modKch_out (s : State) (c : Nat) (f : KzCh → KzCh) : (s.modKch c f).out = s.out := rfl
@[simp] theorem State.modKch_pending (s : State) (c : Nat) (f : KzCh → KzCh) : (s.modKch c f).pending = s.pending := rfl
@[simp] theorem State.modKch_word (s : State) (c : Nat) (f : KzCh → KzCh) (x : Nat) : (s.modKch c f).word x = s.word x := rfl
@[simp] theorem State.modKch_get (s : State) (c : Nat) (f : KzCh → KzCh) (x : Fld) : (s.modKch c f).get x = s.get x := rfl
@[simp] theorem State.modKch_flag (s : State) (c : Nat) (f : KzCh → KzCh) (x : Fld) : (s.modKch c f).flag x = s.flag x := rfl
@[simp] theorem State.modKch_shWord (s : State) (c : Nat) (f : KzCh → KzCh) (x : Nat) : (s.modKch c f).shWord x = s.shWord x := rfl
@[simp] theorem State.modKch_byte (s : State) (c : Nat) (f : KzCh → KzCh) (x : Nat) : (s.modKch c f).byte x = s.byte x := rfl
@[simp] theorem State.modKch_domOn (s : State) (c : Nat) (f : KzCh → KzCh) (x : Nat) : (s.modKch c f).domOn x = s.domOn x := rfl
@[simp] theorem State.modKch_now (s : State) (c : Nat) (f : KzCh → KzCh) : (s.modKch c f).now = s.now := rfl

/-! modGn. -/

@[simp] theorem State.modGn_regs (s : State) (f : Gnss → Gnss) : (s.modGn f).regs = s.regs := rfl
@[simp] theorem State.modGn_shadow (s : State) (f : Gnss → Gnss) : (s.modGn f).shadow = s.shadow := rfl
@[simp] theorem State.modGn_mem (s : State) (f : Gnss → Gnss) : (s.modGn f).mem = s.mem := rfl
@[simp] theorem State.modGn_time (s : State) (f : Gnss → Gnss) : (s.modGn f).time = s.time := rfl
@[simp] theorem State.modGn_recd (s : State) (f : Gnss → Gnss) : (s.modGn f).recd = s.recd := rfl
@[simp] theorem State.modGn_ic (s : State) (f : Gnss → Gnss) : (s.modGn f).ic = s.ic := rfl
@[simp] theorem State.modGn_pwr (s : State) (f : Gnss → Gnss) : (s.modGn f).pwr = s.pwr := rfl
@[simp] theorem State.modGn_nvm (s : State) (f : Gnss → Gnss) : (s.modGn f).nvm = s.nvm := rfl
@[simp] theorem State.modGn_fe (s : State) (f : Gnss → Gnss) : (s.modGn f).fe = s.fe := rfl
@[simp] theorem State.modGn_est (s : State) (f : Gnss → Gnss) : (s.modGn f).est = s.est := rfl
@[simp] theorem State.modGn_surv (s : State) (f : Gnss → Gnss) : (s.modGn f).surv = s.surv := rfl
@[simp] theorem State.modGn_trk (s : State) (f : Gnss → Gnss) : (s.modGn f).trk = s.trk := rfl
@[simp] theorem State.modGn_sk (s : State) (f : Gnss → Gnss) : (s.modGn f).sk = s.sk := rfl
@[simp] theorem State.modGn_jobs (s : State) (f : Gnss → Gnss) : (s.modGn f).jobs = s.jobs := rfl
@[simp] theorem State.modGn_alc (s : State) (f : Gnss → Gnss) : (s.modGn f).alc = s.alc := rfl
@[simp] theorem State.modGn_srv (s : State) (f : Gnss → Gnss) : (s.modGn f).srv = s.srv := rfl
@[simp] theorem State.modGn_dsf (s : State) (f : Gnss → Gnss) : (s.modGn f).dsf = s.dsf := rfl
@[simp] theorem State.modGn_syncEdge (s : State) (f : Gnss → Gnss) : (s.modGn f).syncEdge = s.syncEdge := rfl
@[simp] theorem State.modGn_ha (s : State) (f : Gnss → Gnss) : (s.modGn f).ha = s.ha := rfl
@[simp] theorem State.modGn_kz (s : State) (f : Gnss → Gnss) : (s.modGn f).kz = s.kz := rfl
@[simp] theorem State.modGn_gn (s : State) (f : Gnss → Gnss) : (s.modGn f).gn = f s.gn := rfl
@[simp] theorem State.modGn_net (s : State) (f : Gnss → Gnss) : (s.modGn f).net = s.net := rfl
@[simp] theorem State.modGn_can (s : State) (f : Gnss → Gnss) : (s.modGn f).can = s.can := rfl
@[simp] theorem State.modGn_be (s : State) (f : Gnss → Gnss) : (s.modGn f).be = s.be := rfl
@[simp] theorem State.modGn_cp (s : State) (f : Gnss → Gnss) : (s.modGn f).cp = s.cp := rfl
@[simp] theorem State.modGn_scrub (s : State) (f : Gnss → Gnss) : (s.modGn f).scrub = s.scrub := rfl
@[simp] theorem State.modGn_cyc (s : State) (f : Gnss → Gnss) : (s.modGn f).cyc = s.cyc := rfl
@[simp] theorem State.modGn_freeCount (s : State) (f : Gnss → Gnss) : (s.modGn f).freeCount = s.freeCount := rfl
@[simp] theorem State.modGn_out (s : State) (f : Gnss → Gnss) : (s.modGn f).out = s.out := rfl
@[simp] theorem State.modGn_pending (s : State) (f : Gnss → Gnss) : (s.modGn f).pending = s.pending := rfl
@[simp] theorem State.modGn_word (s : State) (f : Gnss → Gnss) (x : Nat) : (s.modGn f).word x = s.word x := rfl
@[simp] theorem State.modGn_get (s : State) (f : Gnss → Gnss) (x : Fld) : (s.modGn f).get x = s.get x := rfl
@[simp] theorem State.modGn_flag (s : State) (f : Gnss → Gnss) (x : Fld) : (s.modGn f).flag x = s.flag x := rfl
@[simp] theorem State.modGn_shWord (s : State) (f : Gnss → Gnss) (x : Nat) : (s.modGn f).shWord x = s.shWord x := rfl
@[simp] theorem State.modGn_byte (s : State) (f : Gnss → Gnss) (x : Nat) : (s.modGn f).byte x = s.byte x := rfl
@[simp] theorem State.modGn_domOn (s : State) (f : Gnss → Gnss) (x : Nat) : (s.modGn f).domOn x = s.domOn x := rfl
@[simp] theorem State.modGn_now (s : State) (f : Gnss → Gnss) : (s.modGn f).now = s.now := rfl

/-! modNet. -/

@[simp] theorem State.modNet_regs (s : State) (f : Net → Net) : (s.modNet f).regs = s.regs := rfl
@[simp] theorem State.modNet_shadow (s : State) (f : Net → Net) : (s.modNet f).shadow = s.shadow := rfl
@[simp] theorem State.modNet_mem (s : State) (f : Net → Net) : (s.modNet f).mem = s.mem := rfl
@[simp] theorem State.modNet_time (s : State) (f : Net → Net) : (s.modNet f).time = s.time := rfl
@[simp] theorem State.modNet_recd (s : State) (f : Net → Net) : (s.modNet f).recd = s.recd := rfl
@[simp] theorem State.modNet_ic (s : State) (f : Net → Net) : (s.modNet f).ic = s.ic := rfl
@[simp] theorem State.modNet_pwr (s : State) (f : Net → Net) : (s.modNet f).pwr = s.pwr := rfl
@[simp] theorem State.modNet_nvm (s : State) (f : Net → Net) : (s.modNet f).nvm = s.nvm := rfl
@[simp] theorem State.modNet_fe (s : State) (f : Net → Net) : (s.modNet f).fe = s.fe := rfl
@[simp] theorem State.modNet_est (s : State) (f : Net → Net) : (s.modNet f).est = s.est := rfl
@[simp] theorem State.modNet_surv (s : State) (f : Net → Net) : (s.modNet f).surv = s.surv := rfl
@[simp] theorem State.modNet_trk (s : State) (f : Net → Net) : (s.modNet f).trk = s.trk := rfl
@[simp] theorem State.modNet_sk (s : State) (f : Net → Net) : (s.modNet f).sk = s.sk := rfl
@[simp] theorem State.modNet_jobs (s : State) (f : Net → Net) : (s.modNet f).jobs = s.jobs := rfl
@[simp] theorem State.modNet_alc (s : State) (f : Net → Net) : (s.modNet f).alc = s.alc := rfl
@[simp] theorem State.modNet_srv (s : State) (f : Net → Net) : (s.modNet f).srv = s.srv := rfl
@[simp] theorem State.modNet_dsf (s : State) (f : Net → Net) : (s.modNet f).dsf = s.dsf := rfl
@[simp] theorem State.modNet_syncEdge (s : State) (f : Net → Net) : (s.modNet f).syncEdge = s.syncEdge := rfl
@[simp] theorem State.modNet_ha (s : State) (f : Net → Net) : (s.modNet f).ha = s.ha := rfl
@[simp] theorem State.modNet_kz (s : State) (f : Net → Net) : (s.modNet f).kz = s.kz := rfl
@[simp] theorem State.modNet_gn (s : State) (f : Net → Net) : (s.modNet f).gn = s.gn := rfl
@[simp] theorem State.modNet_net (s : State) (f : Net → Net) : (s.modNet f).net = f s.net := rfl
@[simp] theorem State.modNet_can (s : State) (f : Net → Net) : (s.modNet f).can = s.can := rfl
@[simp] theorem State.modNet_be (s : State) (f : Net → Net) : (s.modNet f).be = s.be := rfl
@[simp] theorem State.modNet_cp (s : State) (f : Net → Net) : (s.modNet f).cp = s.cp := rfl
@[simp] theorem State.modNet_scrub (s : State) (f : Net → Net) : (s.modNet f).scrub = s.scrub := rfl
@[simp] theorem State.modNet_cyc (s : State) (f : Net → Net) : (s.modNet f).cyc = s.cyc := rfl
@[simp] theorem State.modNet_freeCount (s : State) (f : Net → Net) : (s.modNet f).freeCount = s.freeCount := rfl
@[simp] theorem State.modNet_out (s : State) (f : Net → Net) : (s.modNet f).out = s.out := rfl
@[simp] theorem State.modNet_pending (s : State) (f : Net → Net) : (s.modNet f).pending = s.pending := rfl
@[simp] theorem State.modNet_word (s : State) (f : Net → Net) (x : Nat) : (s.modNet f).word x = s.word x := rfl
@[simp] theorem State.modNet_get (s : State) (f : Net → Net) (x : Fld) : (s.modNet f).get x = s.get x := rfl
@[simp] theorem State.modNet_flag (s : State) (f : Net → Net) (x : Fld) : (s.modNet f).flag x = s.flag x := rfl
@[simp] theorem State.modNet_shWord (s : State) (f : Net → Net) (x : Nat) : (s.modNet f).shWord x = s.shWord x := rfl
@[simp] theorem State.modNet_byte (s : State) (f : Net → Net) (x : Nat) : (s.modNet f).byte x = s.byte x := rfl
@[simp] theorem State.modNet_domOn (s : State) (f : Net → Net) (x : Nat) : (s.modNet f).domOn x = s.domOn x := rfl
@[simp] theorem State.modNet_now (s : State) (f : Net → Net) : (s.modNet f).now = s.now := rfl

/-! modCan. -/

@[simp] theorem State.modCan_regs (s : State) (c : Nat) (f : Can → Can) : (s.modCan c f).regs = s.regs := rfl
@[simp] theorem State.modCan_shadow (s : State) (c : Nat) (f : Can → Can) : (s.modCan c f).shadow = s.shadow := rfl
@[simp] theorem State.modCan_mem (s : State) (c : Nat) (f : Can → Can) : (s.modCan c f).mem = s.mem := rfl
@[simp] theorem State.modCan_time (s : State) (c : Nat) (f : Can → Can) : (s.modCan c f).time = s.time := rfl
@[simp] theorem State.modCan_recd (s : State) (c : Nat) (f : Can → Can) : (s.modCan c f).recd = s.recd := rfl
@[simp] theorem State.modCan_ic (s : State) (c : Nat) (f : Can → Can) : (s.modCan c f).ic = s.ic := rfl
@[simp] theorem State.modCan_pwr (s : State) (c : Nat) (f : Can → Can) : (s.modCan c f).pwr = s.pwr := rfl
@[simp] theorem State.modCan_nvm (s : State) (c : Nat) (f : Can → Can) : (s.modCan c f).nvm = s.nvm := rfl
@[simp] theorem State.modCan_fe (s : State) (c : Nat) (f : Can → Can) : (s.modCan c f).fe = s.fe := rfl
@[simp] theorem State.modCan_est (s : State) (c : Nat) (f : Can → Can) : (s.modCan c f).est = s.est := rfl
@[simp] theorem State.modCan_surv (s : State) (c : Nat) (f : Can → Can) : (s.modCan c f).surv = s.surv := rfl
@[simp] theorem State.modCan_trk (s : State) (c : Nat) (f : Can → Can) : (s.modCan c f).trk = s.trk := rfl
@[simp] theorem State.modCan_sk (s : State) (c : Nat) (f : Can → Can) : (s.modCan c f).sk = s.sk := rfl
@[simp] theorem State.modCan_jobs (s : State) (c : Nat) (f : Can → Can) : (s.modCan c f).jobs = s.jobs := rfl
@[simp] theorem State.modCan_alc (s : State) (c : Nat) (f : Can → Can) : (s.modCan c f).alc = s.alc := rfl
@[simp] theorem State.modCan_srv (s : State) (c : Nat) (f : Can → Can) : (s.modCan c f).srv = s.srv := rfl
@[simp] theorem State.modCan_dsf (s : State) (c : Nat) (f : Can → Can) : (s.modCan c f).dsf = s.dsf := rfl
@[simp] theorem State.modCan_syncEdge (s : State) (c : Nat) (f : Can → Can) : (s.modCan c f).syncEdge = s.syncEdge := rfl
@[simp] theorem State.modCan_ha (s : State) (c : Nat) (f : Can → Can) : (s.modCan c f).ha = s.ha := rfl
@[simp] theorem State.modCan_kz (s : State) (c : Nat) (f : Can → Can) : (s.modCan c f).kz = s.kz := rfl
@[simp] theorem State.modCan_gn (s : State) (c : Nat) (f : Can → Can) : (s.modCan c f).gn = s.gn := rfl
@[simp] theorem State.modCan_net (s : State) (c : Nat) (f : Can → Can) : (s.modCan c f).net = s.net := rfl
@[simp] theorem State.modCan_be (s : State) (c : Nat) (f : Can → Can) : (s.modCan c f).be = s.be := rfl
@[simp] theorem State.modCan_cp (s : State) (c : Nat) (f : Can → Can) : (s.modCan c f).cp = s.cp := rfl
@[simp] theorem State.modCan_scrub (s : State) (c : Nat) (f : Can → Can) : (s.modCan c f).scrub = s.scrub := rfl
@[simp] theorem State.modCan_cyc (s : State) (c : Nat) (f : Can → Can) : (s.modCan c f).cyc = s.cyc := rfl
@[simp] theorem State.modCan_freeCount (s : State) (c : Nat) (f : Can → Can) : (s.modCan c f).freeCount = s.freeCount := rfl
@[simp] theorem State.modCan_out (s : State) (c : Nat) (f : Can → Can) : (s.modCan c f).out = s.out := rfl
@[simp] theorem State.modCan_pending (s : State) (c : Nat) (f : Can → Can) : (s.modCan c f).pending = s.pending := rfl
@[simp] theorem State.modCan_word (s : State) (c : Nat) (f : Can → Can) (x : Nat) : (s.modCan c f).word x = s.word x := rfl
@[simp] theorem State.modCan_get (s : State) (c : Nat) (f : Can → Can) (x : Fld) : (s.modCan c f).get x = s.get x := rfl
@[simp] theorem State.modCan_flag (s : State) (c : Nat) (f : Can → Can) (x : Fld) : (s.modCan c f).flag x = s.flag x := rfl
@[simp] theorem State.modCan_shWord (s : State) (c : Nat) (f : Can → Can) (x : Nat) : (s.modCan c f).shWord x = s.shWord x := rfl
@[simp] theorem State.modCan_byte (s : State) (c : Nat) (f : Can → Can) (x : Nat) : (s.modCan c f).byte x = s.byte x := rfl
@[simp] theorem State.modCan_domOn (s : State) (c : Nat) (f : Can → Can) (x : Nat) : (s.modCan c f).domOn x = s.domOn x := rfl
@[simp] theorem State.modCan_now (s : State) (c : Nat) (f : Can → Can) : (s.modCan c f).now = s.now := rfl

/-! modBe. -/

@[simp] theorem State.modBe_regs (s : State) (f : Be → Be) : (s.modBe f).regs = s.regs := rfl
@[simp] theorem State.modBe_shadow (s : State) (f : Be → Be) : (s.modBe f).shadow = s.shadow := rfl
@[simp] theorem State.modBe_mem (s : State) (f : Be → Be) : (s.modBe f).mem = s.mem := rfl
@[simp] theorem State.modBe_time (s : State) (f : Be → Be) : (s.modBe f).time = s.time := rfl
@[simp] theorem State.modBe_recd (s : State) (f : Be → Be) : (s.modBe f).recd = s.recd := rfl
@[simp] theorem State.modBe_ic (s : State) (f : Be → Be) : (s.modBe f).ic = s.ic := rfl
@[simp] theorem State.modBe_pwr (s : State) (f : Be → Be) : (s.modBe f).pwr = s.pwr := rfl
@[simp] theorem State.modBe_nvm (s : State) (f : Be → Be) : (s.modBe f).nvm = s.nvm := rfl
@[simp] theorem State.modBe_fe (s : State) (f : Be → Be) : (s.modBe f).fe = s.fe := rfl
@[simp] theorem State.modBe_est (s : State) (f : Be → Be) : (s.modBe f).est = s.est := rfl
@[simp] theorem State.modBe_surv (s : State) (f : Be → Be) : (s.modBe f).surv = s.surv := rfl
@[simp] theorem State.modBe_trk (s : State) (f : Be → Be) : (s.modBe f).trk = s.trk := rfl
@[simp] theorem State.modBe_sk (s : State) (f : Be → Be) : (s.modBe f).sk = s.sk := rfl
@[simp] theorem State.modBe_jobs (s : State) (f : Be → Be) : (s.modBe f).jobs = s.jobs := rfl
@[simp] theorem State.modBe_alc (s : State) (f : Be → Be) : (s.modBe f).alc = s.alc := rfl
@[simp] theorem State.modBe_srv (s : State) (f : Be → Be) : (s.modBe f).srv = s.srv := rfl
@[simp] theorem State.modBe_dsf (s : State) (f : Be → Be) : (s.modBe f).dsf = s.dsf := rfl
@[simp] theorem State.modBe_syncEdge (s : State) (f : Be → Be) : (s.modBe f).syncEdge = s.syncEdge := rfl
@[simp] theorem State.modBe_ha (s : State) (f : Be → Be) : (s.modBe f).ha = s.ha := rfl
@[simp] theorem State.modBe_kz (s : State) (f : Be → Be) : (s.modBe f).kz = s.kz := rfl
@[simp] theorem State.modBe_gn (s : State) (f : Be → Be) : (s.modBe f).gn = s.gn := rfl
@[simp] theorem State.modBe_net (s : State) (f : Be → Be) : (s.modBe f).net = s.net := rfl
@[simp] theorem State.modBe_can (s : State) (f : Be → Be) : (s.modBe f).can = s.can := rfl
@[simp] theorem State.modBe_be (s : State) (f : Be → Be) : (s.modBe f).be = f s.be := rfl
@[simp] theorem State.modBe_cp (s : State) (f : Be → Be) : (s.modBe f).cp = s.cp := rfl
@[simp] theorem State.modBe_scrub (s : State) (f : Be → Be) : (s.modBe f).scrub = s.scrub := rfl
@[simp] theorem State.modBe_cyc (s : State) (f : Be → Be) : (s.modBe f).cyc = s.cyc := rfl
@[simp] theorem State.modBe_freeCount (s : State) (f : Be → Be) : (s.modBe f).freeCount = s.freeCount := rfl
@[simp] theorem State.modBe_out (s : State) (f : Be → Be) : (s.modBe f).out = s.out := rfl
@[simp] theorem State.modBe_pending (s : State) (f : Be → Be) : (s.modBe f).pending = s.pending := rfl
@[simp] theorem State.modBe_word (s : State) (f : Be → Be) (x : Nat) : (s.modBe f).word x = s.word x := rfl
@[simp] theorem State.modBe_get (s : State) (f : Be → Be) (x : Fld) : (s.modBe f).get x = s.get x := rfl
@[simp] theorem State.modBe_flag (s : State) (f : Be → Be) (x : Fld) : (s.modBe f).flag x = s.flag x := rfl
@[simp] theorem State.modBe_shWord (s : State) (f : Be → Be) (x : Nat) : (s.modBe f).shWord x = s.shWord x := rfl
@[simp] theorem State.modBe_byte (s : State) (f : Be → Be) (x : Nat) : (s.modBe f).byte x = s.byte x := rfl
@[simp] theorem State.modBe_domOn (s : State) (f : Be → Be) (x : Nat) : (s.modBe f).domOn x = s.domOn x := rfl
@[simp] theorem State.modBe_now (s : State) (f : Be → Be) : (s.modBe f).now = s.now := rfl

/-! modTask. -/

@[simp] theorem State.modTask_regs (s : State) (n : Nat) (f : Task → Task) : (s.modTask n f).regs = s.regs := rfl
@[simp] theorem State.modTask_shadow (s : State) (n : Nat) (f : Task → Task) : (s.modTask n f).shadow = s.shadow := rfl
@[simp] theorem State.modTask_mem (s : State) (n : Nat) (f : Task → Task) : (s.modTask n f).mem = s.mem := rfl
@[simp] theorem State.modTask_time (s : State) (n : Nat) (f : Task → Task) : (s.modTask n f).time = s.time := rfl
@[simp] theorem State.modTask_recd (s : State) (n : Nat) (f : Task → Task) : (s.modTask n f).recd = s.recd := rfl
@[simp] theorem State.modTask_ic (s : State) (n : Nat) (f : Task → Task) : (s.modTask n f).ic = s.ic := rfl
@[simp] theorem State.modTask_pwr (s : State) (n : Nat) (f : Task → Task) : (s.modTask n f).pwr = s.pwr := rfl
@[simp] theorem State.modTask_nvm (s : State) (n : Nat) (f : Task → Task) : (s.modTask n f).nvm = s.nvm := rfl
@[simp] theorem State.modTask_fe (s : State) (n : Nat) (f : Task → Task) : (s.modTask n f).fe = s.fe := rfl
@[simp] theorem State.modTask_est (s : State) (n : Nat) (f : Task → Task) : (s.modTask n f).est = s.est := rfl
@[simp] theorem State.modTask_surv (s : State) (n : Nat) (f : Task → Task) : (s.modTask n f).surv = s.surv := rfl
@[simp] theorem State.modTask_trk (s : State) (n : Nat) (f : Task → Task) : (s.modTask n f).trk = s.trk := rfl
@[simp] theorem State.modTask_sk (s : State) (n : Nat) (f : Task → Task) : (s.modTask n f).sk = s.sk := rfl
@[simp] theorem State.modTask_jobs (s : State) (n : Nat) (f : Task → Task) : (s.modTask n f).jobs = s.jobs := rfl
@[simp] theorem State.modTask_alc (s : State) (n : Nat) (f : Task → Task) : (s.modTask n f).alc = s.alc := rfl
@[simp] theorem State.modTask_srv (s : State) (n : Nat) (f : Task → Task) : (s.modTask n f).srv = s.srv := rfl
@[simp] theorem State.modTask_dsf (s : State) (n : Nat) (f : Task → Task) : (s.modTask n f).dsf = s.dsf := rfl
@[simp] theorem State.modTask_syncEdge (s : State) (n : Nat) (f : Task → Task) : (s.modTask n f).syncEdge = s.syncEdge := rfl
@[simp] theorem State.modTask_ha (s : State) (n : Nat) (f : Task → Task) : (s.modTask n f).ha = s.ha := rfl
@[simp] theorem State.modTask_kz (s : State) (n : Nat) (f : Task → Task) : (s.modTask n f).kz = s.kz := rfl
@[simp] theorem State.modTask_gn (s : State) (n : Nat) (f : Task → Task) : (s.modTask n f).gn = s.gn := rfl
@[simp] theorem State.modTask_net (s : State) (n : Nat) (f : Task → Task) : (s.modTask n f).net = s.net := rfl
@[simp] theorem State.modTask_can (s : State) (n : Nat) (f : Task → Task) : (s.modTask n f).can = s.can := rfl
@[simp] theorem State.modTask_cp (s : State) (n : Nat) (f : Task → Task) : (s.modTask n f).cp = s.cp := rfl
@[simp] theorem State.modTask_scrub (s : State) (n : Nat) (f : Task → Task) : (s.modTask n f).scrub = s.scrub := rfl
@[simp] theorem State.modTask_cyc (s : State) (n : Nat) (f : Task → Task) : (s.modTask n f).cyc = s.cyc := rfl
@[simp] theorem State.modTask_freeCount (s : State) (n : Nat) (f : Task → Task) : (s.modTask n f).freeCount = s.freeCount := rfl
@[simp] theorem State.modTask_out (s : State) (n : Nat) (f : Task → Task) : (s.modTask n f).out = s.out := rfl
@[simp] theorem State.modTask_pending (s : State) (n : Nat) (f : Task → Task) : (s.modTask n f).pending = s.pending := rfl
@[simp] theorem State.modTask_word (s : State) (n : Nat) (f : Task → Task) (x : Nat) : (s.modTask n f).word x = s.word x := rfl
@[simp] theorem State.modTask_get (s : State) (n : Nat) (f : Task → Task) (x : Fld) : (s.modTask n f).get x = s.get x := rfl
@[simp] theorem State.modTask_flag (s : State) (n : Nat) (f : Task → Task) (x : Fld) : (s.modTask n f).flag x = s.flag x := rfl
@[simp] theorem State.modTask_shWord (s : State) (n : Nat) (f : Task → Task) (x : Nat) : (s.modTask n f).shWord x = s.shWord x := rfl
@[simp] theorem State.modTask_byte (s : State) (n : Nat) (f : Task → Task) (x : Nat) : (s.modTask n f).byte x = s.byte x := rfl
@[simp] theorem State.modTask_domOn (s : State) (n : Nat) (f : Task → Task) (x : Nat) : (s.modTask n f).domOn x = s.domOn x := rfl
@[simp] theorem State.modTask_now (s : State) (n : Nat) (f : Task → Task) : (s.modTask n f).now = s.now := rfl

/-! modCp. -/

@[simp] theorem State.modCp_regs (s : State) (f : Cp → Cp) : (s.modCp f).regs = s.regs := rfl
@[simp] theorem State.modCp_shadow (s : State) (f : Cp → Cp) : (s.modCp f).shadow = s.shadow := rfl
@[simp] theorem State.modCp_mem (s : State) (f : Cp → Cp) : (s.modCp f).mem = s.mem := rfl
@[simp] theorem State.modCp_time (s : State) (f : Cp → Cp) : (s.modCp f).time = s.time := rfl
@[simp] theorem State.modCp_recd (s : State) (f : Cp → Cp) : (s.modCp f).recd = s.recd := rfl
@[simp] theorem State.modCp_ic (s : State) (f : Cp → Cp) : (s.modCp f).ic = s.ic := rfl
@[simp] theorem State.modCp_pwr (s : State) (f : Cp → Cp) : (s.modCp f).pwr = s.pwr := rfl
@[simp] theorem State.modCp_nvm (s : State) (f : Cp → Cp) : (s.modCp f).nvm = s.nvm := rfl
@[simp] theorem State.modCp_fe (s : State) (f : Cp → Cp) : (s.modCp f).fe = s.fe := rfl
@[simp] theorem State.modCp_est (s : State) (f : Cp → Cp) : (s.modCp f).est = s.est := rfl
@[simp] theorem State.modCp_surv (s : State) (f : Cp → Cp) : (s.modCp f).surv = s.surv := rfl
@[simp] theorem State.modCp_trk (s : State) (f : Cp → Cp) : (s.modCp f).trk = s.trk := rfl
@[simp] theorem State.modCp_sk (s : State) (f : Cp → Cp) : (s.modCp f).sk = s.sk := rfl
@[simp] theorem State.modCp_jobs (s : State) (f : Cp → Cp) : (s.modCp f).jobs = s.jobs := rfl
@[simp] theorem State.modCp_alc (s : State) (f : Cp → Cp) : (s.modCp f).alc = s.alc := rfl
@[simp] theorem State.modCp_srv (s : State) (f : Cp → Cp) : (s.modCp f).srv = s.srv := rfl
@[simp] theorem State.modCp_dsf (s : State) (f : Cp → Cp) : (s.modCp f).dsf = s.dsf := rfl
@[simp] theorem State.modCp_syncEdge (s : State) (f : Cp → Cp) : (s.modCp f).syncEdge = s.syncEdge := rfl
@[simp] theorem State.modCp_ha (s : State) (f : Cp → Cp) : (s.modCp f).ha = s.ha := rfl
@[simp] theorem State.modCp_kz (s : State) (f : Cp → Cp) : (s.modCp f).kz = s.kz := rfl
@[simp] theorem State.modCp_gn (s : State) (f : Cp → Cp) : (s.modCp f).gn = s.gn := rfl
@[simp] theorem State.modCp_net (s : State) (f : Cp → Cp) : (s.modCp f).net = s.net := rfl
@[simp] theorem State.modCp_can (s : State) (f : Cp → Cp) : (s.modCp f).can = s.can := rfl
@[simp] theorem State.modCp_be (s : State) (f : Cp → Cp) : (s.modCp f).be = s.be := rfl
@[simp] theorem State.modCp_cp (s : State) (f : Cp → Cp) : (s.modCp f).cp = f s.cp := rfl
@[simp] theorem State.modCp_scrub (s : State) (f : Cp → Cp) : (s.modCp f).scrub = s.scrub := rfl
@[simp] theorem State.modCp_cyc (s : State) (f : Cp → Cp) : (s.modCp f).cyc = s.cyc := rfl
@[simp] theorem State.modCp_freeCount (s : State) (f : Cp → Cp) : (s.modCp f).freeCount = s.freeCount := rfl
@[simp] theorem State.modCp_out (s : State) (f : Cp → Cp) : (s.modCp f).out = s.out := rfl
@[simp] theorem State.modCp_pending (s : State) (f : Cp → Cp) : (s.modCp f).pending = s.pending := rfl
@[simp] theorem State.modCp_word (s : State) (f : Cp → Cp) (x : Nat) : (s.modCp f).word x = s.word x := rfl
@[simp] theorem State.modCp_get (s : State) (f : Cp → Cp) (x : Fld) : (s.modCp f).get x = s.get x := rfl
@[simp] theorem State.modCp_flag (s : State) (f : Cp → Cp) (x : Fld) : (s.modCp f).flag x = s.flag x := rfl
@[simp] theorem State.modCp_shWord (s : State) (f : Cp → Cp) (x : Nat) : (s.modCp f).shWord x = s.shWord x := rfl
@[simp] theorem State.modCp_byte (s : State) (f : Cp → Cp) (x : Nat) : (s.modCp f).byte x = s.byte x := rfl
@[simp] theorem State.modCp_domOn (s : State) (f : Cp → Cp) (x : Nat) : (s.modCp f).domOn x = s.domOn x := rfl
@[simp] theorem State.modCp_now (s : State) (f : Cp → Cp) : (s.modCp f).now = s.now := rfl

/-! Elements after one was changed. -/

theorem State.task_modTask (s : State) (n m : Nat) (f : Task → Task) : (s.modTask n f).task m = if m = n then f (s.task n) else s.task m :=
  getD_padMod _ f n m _

@[simp] theorem State.task_modTask_same (s : State) (n : Nat) (f : Task → Task) : (s.modTask n f).task n = f (s.task n) := by
  simp [State.task_modTask]

theorem State.stream_modStream (s : State) (n m : Nat) (f : Stream → Stream) : (s.modStream n f).stream m = if m = n then f (s.stream n) else s.stream m :=
  getD_padMod _ f n m _

@[simp] theorem State.stream_modStream_same (s : State) (n : Nat) (f : Stream → Stream) : (s.modStream n f).stream n = f (s.stream n) := by
  simp [State.stream_modStream]

theorem State.loop_modLoop (s : State) (n m : Nat) (f : Loop → Loop) : (s.modLoop n f).loop m = if m = n then f (s.loop n) else s.loop m :=
  getD_padMod _ f n m _

@[simp] theorem State.loop_modLoop_same (s : State) (n : Nat) (f : Loop → Loop) : (s.modLoop n f).loop n = f (s.loop n) := by
  simp [State.loop_modLoop]

theorem State.cap_modCap (s : State) (n m : Nat) (f : Capture → Capture) : (s.modCap n f).cap m = if m = n then f (s.cap n) else s.cap m :=
  getD_padMod _ f n m _

@[simp] theorem State.cap_modCap_same (s : State) (n : Nat) (f : Capture → Capture) : (s.modCap n f).cap n = f (s.cap n) := by
  simp [State.cap_modCap]

theorem State.ch_modDsf (s : State) (n m : Nat) (f : Dsf → Dsf) : (s.modDsf n f).ch m = if m = n then f (s.ch n) else s.ch m :=
  getD_padMod _ f n m _

@[simp] theorem State.ch_modDsf_same (s : State) (n : Nat) (f : Dsf → Dsf) : (s.modDsf n f).ch n = f (s.ch n) := by
  simp [State.ch_modDsf]

theorem State.kch_modKch (s : State) (n m : Nat) (f : KzCh → KzCh) : (s.modKch n f).kch m = if m = n then f (s.kch n) else s.kch m :=
  getD_padMod _ f n m _

@[simp] theorem State.kch_modKch_same (s : State) (n : Nat) (f : KzCh → KzCh) : (s.modKch n f).kch n = f (s.kch n) := by
  simp [State.kch_modKch]

theorem State.canC_modCan (s : State) (n m : Nat) (f : Can → Can) : (s.modCan n f).canC m = if m = n then f (s.canC n) else s.canC m :=
  getD_padMod _ f n m _

@[simp] theorem State.canC_modCan_same (s : State) (n : Nat) (f : Can → Can) : (s.modCan n f).canC n = f (s.canC n) := by
  simp [State.canC_modCan]

theorem State.ptpPort_modPort (s : State) (n m : Nat) (f : PtpPort → PtpPort) : (s.modPort n f).ptpPort m = if m = n then f (s.ptpPort n) else s.ptpPort m :=
  getD_padMod _ f n m _

@[simp] theorem State.ptpPort_modPort_same (s : State) (n : Nat) (f : PtpPort → PtpPort) : (s.modPort n f).ptpPort n = f (s.ptpPort n) := by
  simp [State.ptpPort_modPort]

theorem State.proc_modProc (s : State) (n m : Nat) (f : Proc → Proc) : (s.modProc n f).proc m = if m = n then f (s.proc n) else s.proc m :=
  getD_padMod _ f n m _

@[simp] theorem State.proc_modProc_same (s : State) (n : Nat) (f : Proc → Proc) : (s.modProc n f).proc n = f (s.proc n) := by
  simp [State.proc_modProc]

/-! The end of a command. -/

/-- A command's outcome: its effect, with the queue as it was. -/
theorem State.ends_eq (s t : State) : s.ends t = .next (t.requeue s.pending) := rfl

/-- On an empty queue a tick passes. -/
theorem step_nil (s : State) (h : s.pending = []) : step s = .next s.idle := by
  unfold step; rw [h]

/-- A step runs the command at the front. -/
theorem step_cons (s : State) (c : Instr) (l : List Instr) (h : s.pending = c :: l) : step s = exec c { s with pending := l } := by
  unfold step; rw [h]

end Sys2Proof.Machine
end

