-- ==== Sys2Proof/Laws/Events.lean ====
section
/-!
SUPPORT. What counting, an arrival, a record and an event can do: they write the bookkeeping registers of the interrupt
controller, the recorder and the performance counters, the interrupt rings and the archive, and nothing else.
-/
namespace Sys2Proof.Machine

/-- Only bookkeeping lies between two states. -/
structure Kept (s t : State) : Prop where
  word : ∀ a, ¬ Book a → t.word a = s.word a
  shWord : ∀ a, ¬ Book a → t.shWord a = s.shWord a
  byte : ∀ a, ¬ s.BookMem a → t.byte a = s.byte a
  rest : t = { s with regs := t.regs, shadow := t.shadow, mem := t.mem, recd := t.recd, ic := t.ic }

/-- Outside the bookkeeping registers a field is kept. -/
theorem Kept.get {s t : State} (k : Kept s t) {f : Fld} (h : ¬ Book f.addr) : t.get f = s.get f := by
  simp [State.get, k.word _ h]

theorem Kept.flag {s t : State} (k : Kept s t) {f : Fld} (h : ¬ Book f.addr) : t.flag f = s.flag f := by
  simp [State.flag, k.get h]

theorem Kept.getSh {s t : State} (k : Kept s t) {f : Fld} (h : ¬ Book f.addr) : t.getSh f = s.getSh f := by
  simp [State.getSh, k.shWord _ h]

theorem not_book_ringBh (x l : Nat) (hx : x < 10) (hl : l < 8) : ¬ Book (R.RING_BH x l) := by
  simp only [Book, R.RING_BH]; omega

theorem not_book_ringBl (x l : Nat) (hx : x < 10) (hl : l < 8) : ¬ Book (R.RING_BL x l) := by
  simp only [Book, R.RING_BL]; omega

/-- The bookkeeping's own memory does not move. -/
theorem Kept.bookMem {s t : State} (k : Kept s t) (a : Nat) : t.BookMem a ↔ s.BookMem a := by
  have hbh : ∀ x l, x < 10 → l < 8 → t.word (R.RING_BH x l) = s.word (R.RING_BH x l) :=
    fun x l hx hl => k.word _ (not_book_ringBh x l hx hl)
  have hbl : ∀ x l, x < 10 → l < 8 → t.word (R.RING_BL x l) = s.word (R.RING_BL x l) :=
    fun x l hx hl => k.word _ (not_book_ringBl x l hx hl)
  have h1 : t.get F.REC_ARCH_BL_BASE = s.get F.REC_ARCH_BL_BASE := k.get (by simp [Book, F.REC_ARCH_BL_BASE, R.REC_ARCH_BL])
  have h2 : t.get F.REC_ARCH_BH_BASE = s.get F.REC_ARCH_BH_BASE := k.get (by simp [Book, F.REC_ARCH_BH_BASE, R.REC_ARCH_BH])
  have h3 : t.get F.REC_ARCH_CFG_SIZE_LOG2 = s.get F.REC_ARCH_CFG_SIZE_LOG2 :=
    k.get (by simp [Book, F.REC_ARCH_CFG_SIZE_LOG2, R.REC_ARCH_CFG])
  have h4 : t.flag F.REC_ARCH_CFG_EN = s.flag F.REC_ARCH_CFG_EN := k.flag (by simp [Book, F.REC_ARCH_CFG_EN, R.REC_ARCH_CFG])
  unfold State.BookMem
  rw [h1, h2, h3, h4]
  refine or_congr ?_ Iff.rfl
  refine exists_congr fun x => exists_congr fun l => ?_
  constructor
  · rintro ⟨hx, hl, h⟩
    refine ⟨hx, hl, ?_⟩
    simpa only [State.ringBase, State.ringSize, State.flag, State.get, F.RING_BH_EN, F.RING_BL_BASE_LO, F.RING_BH_BASE_HI,
      F.RING_BH_SIZE_LOG2, hbh x l hx hl, hbl x l hx hl] using h
  · rintro ⟨hx, hl, h⟩
    refine ⟨hx, hl, ?_⟩
    simpa only [State.ringBase, State.ringSize, State.flag, State.get, F.RING_BH_EN, F.RING_BL_BASE_LO, F.RING_BH_BASE_HI,
      F.RING_BH_SIZE_LOG2, hbh x l hx hl, hbl x l hx hl] using h

theorem Kept.refl (s : State) : Kept s s := ⟨fun _ _ => rfl, fun _ _ => rfl, fun _ _ => rfl, rfl⟩

theorem Kept.trans {s t u : State} (h : Kept s t) (g : Kept t u) : Kept s u where
  word a ha := (g.word a ha).trans (h.word a ha)
  shWord a ha := (g.shWord a ha).trans (h.shWord a ha)
  byte a ha := (g.byte a (fun hb => ha ((h.bookMem a).1 hb))).trans (h.byte a ha)
  rest := by rw [g.rest, h.rest]

/-! Each part of the bookkeeping. -/

theorem kept_setWord (s : State) (a : Nat) (v : Word) (h : Book a) : Kept s (s.setWord a v) where
  word b hb := State.word_setWord_ne s (by rintro rfl; exact hb h) v
  shWord _ _ := rfl
  byte _ _ := rfl
  rest := rfl

theorem kept_setShWord (s : State) (a : Nat) (v : Word) (h : Book a) : Kept s (s.setShWord a v) where
  word _ _ := rfl
  shWord b hb := by
    have : b ≠ a := by rintro rfl; exact hb h
    simp [State.shWord_setShWord, this]
  byte _ _ := rfl
  rest := rfl

theorem kept_set (s : State) (f : Fld) (v : Nat) (h : Book f.addr) : Kept s (s.set f v) := kept_setWord s _ _ h

theorem kept_setFlag (s : State) (f : Fld) (b : Bool) (h : Book f.addr) : Kept s (s.setFlag f b) := kept_setWord s _ _ h

theorem kept_bump (s : State) (f : Fld) (h : Book f.addr) : Kept s (s.bump f) := kept_setWord s _ _ h

theorem kept_recd (s : State) (r : Recorder) : Kept s { s with recd := r } :=
  ⟨fun _ _ => rfl, fun _ _ => rfl, fun _ _ => rfl, rfl⟩

theorem kept_modProc (s : State) (x : Nat) (f : Proc → Proc) : Kept s (s.modProc x f) :=
  ⟨fun _ _ => rfl, fun _ _ => rfl, fun _ _ => rfl, rfl⟩

theorem storeBytes_eq : ∀ (l : List Byte) (s : State) (a : Nat), s.storeBytes a l = { s with mem := (s.storeBytes a l).mem }
  | [], _, _ => rfl
  | b :: t, s, a => by
    have ih := storeBytes_eq t (s.setByte a b) (a + 1)
    simp only [State.storeBytes]
    rw [ih]; rfl

theorem kept_storeBytes (s : State) (a : Nat) (l : List Byte) (h : ∀ b, a ≤ b → b < a + l.length → s.BookMem b) :
    Kept s (s.storeBytes a l) where
  word b _ := by rw [storeBytes_eq]; rfl
  shWord b _ := by rw [storeBytes_eq]; rfl
  byte b hb := by
    apply State.byte_storeBytes_out
    by_contra hc
    exact hb (h b (by omega) (by omega))
  rest := by rw [storeBytes_eq]

theorem length_leBytes : ∀ n v : Nat, (leBytes n v).length = n
  | 0, _ => rfl
  | n + 1, v => by simp [leBytes, length_leBytes n]

theorem kept_pmuPut (s : State) (n v : Nat) (h : n < 256) : Kept s (s.pmuPut n v) :=
  (kept_setWord s _ _ (by simp only [Book, R.PMU_CNTL]; omega)).trans
    (kept_setShWord _ _ _ (by simp only [Book, R.PMU_CNTH]; omega))

theorem kept_pmuAddAt : ∀ (f : Nat) (s : State) (n k : Nat), n < 256 → Kept s (s.pmuAddAt n k f).1
  | 0, s, _, _, _ => Kept.refl s
  | f + 1, s, n, k, h => by
    unfold State.pmuAddAt
    have h0 := kept_pmuPut s n ((s.pmuVal n + k) % 2 ^ 48) h
    dsimp only
    split
    · exact h0
    · split
      · rename_i hc
        simp only [Bool.and_eq_true, decide_eq_true_eq] at hc
        exact h0.trans (kept_pmuAddAt f _ (n + 1) _ (by omega))
      · exact h0.trans (kept_setWord _ _ _ (by simp only [Book, R.PMU_OVF]; omega))

/-- Counting writes counters. -/
theorem kept_pmuRaw (s : State) (n k : Nat) (h : n < 256) : Kept s (s.pmuRaw n k).1 := by
  unfold State.pmuRaw
  split
  · exact Kept.refl s
  · exact kept_pmuAddAt _ _ _ _ h

theorem kept_refreshLine (s : State) (x : Nat) (h : x < 10) : Kept s (s.refreshLine x) :=
  (kept_setFlag s _ _ (by simp only [Book, F.IC_LEVEL_LINE, R.IC_LEVEL]; omega)).trans
    (kept_set _ _ _ (by simp only [Book, F.IC_LEVEL_DEPTH, R.IC_LEVEL]; omega))

theorem length_ringRecord (src level : Nat) (p l st : Bool) (c : Nat) (q : Byte) (t : Stamp) (i : Word) :
    (ringRecord src level p l st c q t i).length = 16 := by
  simp [ringRecord, length_leBytes]

/-- A wake shows in PWR_STAT alone. -/
theorem kept_wake (u : State) (x : Nat) : Kept u (if (u.proc x).doze then u.setDoze x false else u) := by
  split
  · unfold State.setDoze
    refine (kept_modProc u x _).trans (kept_set _ ⟨R.PWR_STAT, 2 + x, 1⟩ _ ?_)
    exact (by simp [Book, R.PWR_STAT] : Book R.PWR_STAT)
  · exact Kept.refl _

/-- Enqueueing writes the ring and the bookkeeping. -/
theorem kept_enqueue (s : State) (x l n : Nat) (info : Word) (posted sat : Bool) (hx : x < 10) (hl : l < 8) (hn : n < 512) :
    Kept s (s.enqueue x l n info posted sat) := by
  unfold State.enqueue
  split
  · exact ((kept_bump s _ (by simp only [Book, F.RING_OVF_OVF, R.RING_OVF]; omega)).trans
      (kept_setFlag _ _ _ (by simp only [Book, F.IC_CNT_LOST, R.IC_CNT]; omega))).trans (kept_pmuRaw _ _ _ (by decide))
  · rename_i hc
    simp only [Bool.or_eq_true, Bool.not_eq_true', decide_eq_true_eq, not_or, not_le] at hc
    have hen : s.flag (F.RING_BH_EN x l) = true := by simpa using hc.1
    have hpos : 0 < s.ringSize x l := Nat.two_pow_pos _
    dsimp only
    have k1 : Kept s (s.storeBytes (s.ringBase x l + 16 * (s.get (F.RING_IDX_TAIL x l) % s.ringSize x l))
        (ringRecord n l posted (s.flag (F.IC_CNT_LOST n)) sat (s.get (F.IC_CNT_COUNT n)) (s.ring x l).seq s.stamp info)) := by
      apply kept_storeBytes
      intro b h1 h2
      rw [length_ringRecord] at h2
      have := Nat.mod_lt (s.get (F.RING_IDX_TAIL x l)) hpos
      exact Or.inl ⟨x, l, hx, hl, hen, by omega, by omega⟩
    have k2 := k1.trans (kept_set _ (F.RING_IDX_TAIL x l) ((s.get (F.RING_IDX_TAIL x l) + 1) % (2 * s.ringSize x l))
      (by simp only [Book, F.RING_IDX_TAIL, R.RING_IDX]; omega))
    refine k2.trans ?_
    generalize State.set (State.storeBytes s _ _) _ _ = t
    have k3 : Kept t (t.modRing x l fun r => { r with seq := r.seq + 1, held := r.held ++ [(n, t.now)] }) := kept_modProc _ _ _
    refine k3.trans ?_
    generalize State.modRing t x l _ = u
    have k4 := kept_setFlag u (F.IC_CNT_LOST n) false (by simp only [Book, F.IC_CNT_LOST, R.IC_CNT]; omega)
    refine k4.trans ?_
    generalize State.setFlag u _ _ = v
    exact ((kept_wake v x).trans (kept_refreshLine _ x hx)).trans (kept_pmuRaw _ _ _ (by decide))

theorem icTarget_lt (s : State) (n : Nat) : s.icTarget n < 10 := by
  unfold State.icTarget; dsimp only; split <;> omega

theorem icAssigned_lt {n : Nat} (h : icAssigned n = true) : n < 512 := by
  simp [icAssigned] at h; omega

theorem get_lt (s : State) (f : Fld) : s.get f < 2 ^ f.w := Nat.mod_lt _ (Nat.two_pow_pos _)

/-- An arrival is bookkeeping. -/
theorem kept_arriveG (s : State) (n : Nat) (info : Word) (posted poll : Bool) : Kept s (s.arriveG n info posted poll) := by
  unfold State.arriveG
  split
  · exact Kept.refl s
  · rename_i hn
    have hn : n < 512 := icAssigned_lt (by simpa using hn)
    have k0 := kept_bump s (F.IC_CNT_COUNT n) (by simp only [Book, F.IC_CNT_COUNT, R.IC_CNT]; omega)
    refine k0.trans ?_
    dsimp only
    have hp := get_lt (s.bump (F.IC_CNT_COUNT n)) (F.IC_SRC_PRIO n)
    have hw : (F.IC_SRC_PRIO n).w = 3 := rfl
    rw [hw] at hp
    split
    · split
      · exact kept_enqueue _ _ _ _ _ _ _ (icTarget_lt _ _) (by decide) hn
      · exact Kept.refl _
    · split
      · exact Kept.refl _
      · exact kept_enqueue _ _ _ _ _ _ _ (icTarget_lt _ _) (by omega) hn

theorem kept_arrive (s : State) (n : Nat) (info : Word) : Kept s (s.arrive n info) := kept_arriveG s n info false false

theorem kept_foldl {β : Type} (f : State → β → State) (h : ∀ s b, Kept s (f s b)) : ∀ (l : List β) (s : State), Kept s (l.foldl f s)
  | [], s => Kept.refl s
  | b :: t, s => (h s b).trans (kept_foldl f h t (f s b))

/-- A counted event is bookkeeping. -/
theorem kept_pmu (s : State) (n : Nat) (h : n < 256) : Kept s (s.pmu n) := by
  unfold State.pmu
  exact (kept_pmuRaw s n 1 h).trans (kept_foldl _ (fun t c => kept_arrive t _ _) _ _)

theorem kept_refreshWindow (s : State) : Kept s s.refreshWindow := by
  unfold State.refreshWindow
  split
  · exact (kept_setWord s _ _ (by simp [Book, R.REC_CUR])).trans (kept_setFlag _ _ _ (by simp [Book, F.REC_CTL_WVALID, R.REC_CTL]))
  · exact kept_setFlag _ _ _ (by simp [Book, F.REC_CTL_WVALID, R.REC_CTL])

theorem kept_afterFree (s : State) (l : List Rec) : Kept s (s.afterFree l) := by
  unfold State.afterFree
  dsimp only
  refine Kept.trans ?_ (kept_set _ _ _ (by simp [Book, F.REC_STAT_FILL, R.REC_STAT]))
  refine Kept.trans ?_ (kept_refreshWindow _)
  split
  · exact kept_bump _ _ (by simp [Book, F.REC_CNT_SKIPPED, R.REC_CNT])
  · exact Kept.refl _

/-- Archiving writes the archive. -/
theorem kept_archive (s : State) (r : Rec) : Kept s (s.archive r) := by
  unfold State.archive
  split
  · exact Kept.refl s
  · rename_i hen
    have hen : s.flag F.REC_ARCH_CFG_EN = true := by simpa using hen
    split
    · exact kept_bump _ _ (by simp [Book, F.REC_CNT_ARCH_MISS, R.REC_CNT])
    · dsimp only
      refine Kept.trans ?_ (kept_set _ _ _ (by simp [Book, F.REC_ARCH_WIDX_WIDX, R.REC_ARCH_WIDX]))
      generalize hb : recBytes r ++ List.replicate (32 * recSlots r.vals.length - (recBytes r).length) 0 = bs
      generalize hs : 2 ^ s.get F.REC_ARCH_CFG_SIZE_LOG2 = size
      generalize ho : s.get F.REC_ARCH_BL_BASE + 2 ^ 32 * s.get F.REC_ARCH_BH_BASE = base
      have hpos : 0 < size := by rw [← hs]; exact Nat.two_pow_pos _
      generalize s.get F.REC_ARCH_WIDX_WIDX = w
      have key : ∀ (l : List Nat) (t : State), Kept s t →
          Kept s (l.foldl (fun t i => t.storeBytes (base + 32 * ((w + i) % size)) (bs.drop (32 * i) |>.take 32)) t) := by
        intro l
        induction l with
        | nil => intro t h; exact h
        | cons i l ih =>
          intro t h
          refine ih _ (h.trans (kept_storeBytes _ _ _ ?_))
          intro b h1 h2
          refine (h.bookMem b).2 (Or.inr ⟨hen, ?_, ?_⟩)
          · rw [ho]; omega
          · rw [ho, hs]
            have h3 : ((bs.drop (32 * i)).take 32).length ≤ 32 := by simp
            have := Nat.mod_lt (w + i) hpos
            omega
      exact key _ _ (Kept.refl s)

theorem dropFld_book (sev : Nat) : Book (dropFld sev).addr := by
  have h : (dropFld sev).addr = 0x40050014 ∨ (dropFld sev).addr = 0x40050018 := by
    by_cases h : sev < 4
    · exact Or.inl (by rw [dropFld, if_pos h]; rfl)
    · exact Or.inr (by rw [dropFld, if_neg h]; rfl)
  simp only [Book]; omega

theorem kept_putRec (s : State) (r : Rec) : Kept s (s.putRec r) := by
  unfold State.putRec
  extract_lets need before free freeable
  clear_value free freeable
  by_cases h : free + freeable < need
  · rw [if_pos h]
    exact (kept_bump s _ (dropFld_book _)).trans (kept_arrive _ _ _)
  · rw [if_neg h]
    have k : ∀ l, Kept s (State.archive (State.afterFree (State.pmu { s with recd := { s.recd with recs := l } } 204) before) r) :=
      fun l => ((kept_recd s { s.recd with recs := l }).trans
        (((kept_pmu _ 204 (by decide)).trans (kept_afterFree _ _)).trans (kept_archive _ _)))
    split
    · exact k _
    · exact ((k _).trans (kept_recd _ _)).trans (kept_setFlag _ _ _ (by simp [Book, F.REC_STAT_BUSY, R.REC_STAT]))

/-- A record is bookkeeping. -/
theorem kept_record (s : State) (e : Nat) (c : Word) (k : RecKind) : Kept s (s.record e c k) := by
  have ks : Kept s s.takeSeq := kept_setWord s _ _ (by simp [Book, R.REC_SEQ])
  unfold State.record
  dsimp only
  split
  · exact Kept.refl s
  · cases k with
    | none => exact Kept.refl s
    | crumb => exact ks.trans (kept_putRec _ _)
    | loaf =>
      dsimp only
      split
      · exact ((kept_bump s _ (by simp [Book, F.REC_CNT_COALESCED, R.REC_CNT])).trans (kept_pmu _ 205 (by decide))).trans
          (kept_recd _ _)
      · exact ks.trans (kept_putRec _ _)

/-- An event is bookkeeping. -/
theorem kept_event (s : State) (n : Nat) (i : Word) (k : RecKind) : Kept s (s.event n i k) :=
  (kept_arrive s n i).trans (kept_record _ _ _ _)

end Sys2Proof.Machine
end

