-- ==== Sys2Proof/Laws/Kept.lean ====
section
/-!
SUPPORT. One lemma per field for counting, arrivals, records and events, and for device time running on: what each leaves.
-/
namespace Sys2Proof.Machine

theorem pmuAddAt_rest : ∀ (f : Nat) (s : State) (n k : Nat),
    (s.pmuAddAt n k f).1 = { s with regs := (s.pmuAddAt n k f).1.regs, shadow := (s.pmuAddAt n k f).1.shadow }
  | 0, _, _, _ => rfl
  | f + 1, s, n, k => by
    simp only [State.pmuAddAt]
    split
    · rfl
    · split
      · rw [pmuAddAt_rest f]; rfl
      · rfl

theorem pmuRaw_rest (s : State) (n k : Nat) :
    (s.pmuRaw n k).1 = { s with regs := (s.pmuRaw n k).1.regs, shadow := (s.pmuRaw n k).1.shadow } := by
  unfold State.pmuRaw
  split
  · rfl
  · exact pmuAddAt_rest _ _ _ _

theorem pmu_rest (s : State) (n : Nat) :
    s.pmu n = { s with regs := (s.pmu n).regs, shadow := (s.pmu n).shadow, mem := (s.pmu n).mem, recd := (s.pmu n).recd, ic := (s.pmu n).ic } := by
  have h := (kept_foldl (fun t c => t.arrive 313 (BitVec.ofNat 32 c)) (fun t c => kept_arrive t _ _) (s.pmuRaw n 1).2
    (s.pmuRaw n 1).1).rest
  have e : s.pmu n = (s.pmuRaw n 1).2.foldl (fun t c => t.arrive 313 (BitVec.ofNat 32 c)) (s.pmuRaw n 1).1 := rfl
  rw [← e] at h
  rw [h, pmuRaw_rest]

theorem not_book_domStat : ¬ Book F.PWR_DOM_STAT_ON.addr := by simp [Book, F.PWR_DOM_STAT_ON, R.PWR_DOM_STAT]

theorem domOn_congr {s t : State} (h : t.get F.PWR_DOM_STAT_ON = s.get F.PWR_DOM_STAT_ON) (g : t.pwr = s.pwr) (d : Nat) :
    t.domOn d = s.domOn d := by simp [State.domOn, h, g]

/-! pmuRaw. -/

@[simp] theorem State.pmuRaw_nvm (s : State) (n k : Nat) : (s.pmuRaw n k).1.nvm = s.nvm := by rw [(pmuRaw_rest s n k)]
@[simp] theorem State.pmuRaw_pwr (s : State) (n k : Nat) : (s.pmuRaw n k).1.pwr = s.pwr := by rw [(pmuRaw_rest s n k)]
@[simp] theorem State.pmuRaw_fe (s : State) (n k : Nat) : (s.pmuRaw n k).1.fe = s.fe := by rw [(pmuRaw_rest s n k)]
@[simp] theorem State.pmuRaw_est (s : State) (n k : Nat) : (s.pmuRaw n k).1.est = s.est := by rw [(pmuRaw_rest s n k)]
@[simp] theorem State.pmuRaw_surv (s : State) (n k : Nat) : (s.pmuRaw n k).1.surv = s.surv := by rw [(pmuRaw_rest s n k)]
@[simp] theorem State.pmuRaw_trk (s : State) (n k : Nat) : (s.pmuRaw n k).1.trk = s.trk := by rw [(pmuRaw_rest s n k)]
@[simp] theorem State.pmuRaw_sk (s : State) (n k : Nat) : (s.pmuRaw n k).1.sk = s.sk := by rw [(pmuRaw_rest s n k)]
@[simp] theorem State.pmuRaw_jobs (s : State) (n k : Nat) : (s.pmuRaw n k).1.jobs = s.jobs := by rw [(pmuRaw_rest s n k)]
@[simp] theorem State.pmuRaw_alc (s : State) (n k : Nat) : (s.pmuRaw n k).1.alc = s.alc := by rw [(pmuRaw_rest s n k)]
@[simp] theorem State.pmuRaw_srv (s : State) (n k : Nat) : (s.pmuRaw n k).1.srv = s.srv := by rw [(pmuRaw_rest s n k)]
@[simp] theorem State.pmuRaw_dsf (s : State) (n k : Nat) : (s.pmuRaw n k).1.dsf = s.dsf := by rw [(pmuRaw_rest s n k)]
@[simp] theorem State.pmuRaw_syncEdge (s : State) (n k : Nat) : (s.pmuRaw n k).1.syncEdge = s.syncEdge := by rw [(pmuRaw_rest s n k)]
@[simp] theorem State.pmuRaw_ha (s : State) (n k : Nat) : (s.pmuRaw n k).1.ha = s.ha := by rw [(pmuRaw_rest s n k)]
@[simp] theorem State.pmuRaw_kz (s : State) (n k : Nat) : (s.pmuRaw n k).1.kz = s.kz := by rw [(pmuRaw_rest s n k)]
@[simp] theorem State.pmuRaw_gn (s : State) (n k : Nat) : (s.pmuRaw n k).1.gn = s.gn := by rw [(pmuRaw_rest s n k)]
@[simp] theorem State.pmuRaw_net (s : State) (n k : Nat) : (s.pmuRaw n k).1.net = s.net := by rw [(pmuRaw_rest s n k)]
@[simp] theorem State.pmuRaw_can (s : State) (n k : Nat) : (s.pmuRaw n k).1.can = s.can := by rw [(pmuRaw_rest s n k)]
@[simp] theorem State.pmuRaw_be (s : State) (n k : Nat) : (s.pmuRaw n k).1.be = s.be := by rw [(pmuRaw_rest s n k)]
@[simp] theorem State.pmuRaw_cp (s : State) (n k : Nat) : (s.pmuRaw n k).1.cp = s.cp := by rw [(pmuRaw_rest s n k)]
@[simp] theorem State.pmuRaw_scrub (s : State) (n k : Nat) : (s.pmuRaw n k).1.scrub = s.scrub := by rw [(pmuRaw_rest s n k)]
@[simp] theorem State.pmuRaw_cyc (s : State) (n k : Nat) : (s.pmuRaw n k).1.cyc = s.cyc := by rw [(pmuRaw_rest s n k)]
@[simp] theorem State.pmuRaw_freeCount (s : State) (n k : Nat) : (s.pmuRaw n k).1.freeCount = s.freeCount := by rw [(pmuRaw_rest s n k)]
@[simp] theorem State.pmuRaw_out (s : State) (n k : Nat) : (s.pmuRaw n k).1.out = s.out := by rw [(pmuRaw_rest s n k)]
@[simp] theorem State.pmuRaw_pending (s : State) (n k : Nat) : (s.pmuRaw n k).1.pending = s.pending := by rw [(pmuRaw_rest s n k)]
@[simp] theorem State.pmuRaw_time (s : State) (n k : Nat) : (s.pmuRaw n k).1.time = s.time := by rw [(pmuRaw_rest s n k)]
@[simp] theorem State.pmuRaw_now (s : State) (n k : Nat) : (s.pmuRaw n k).1.now = s.now := by simp [State.now]
@[simp] theorem State.pmuRaw_stamp (s : State) (n k : Nat) : (s.pmuRaw n k).1.stamp = s.stamp := by simp [State.stamp]

/-! pmu. -/

@[simp] theorem State.pmu_nvm (s : State) (n : Nat) : (s.pmu n).nvm = s.nvm := by rw [(pmu_rest s n)]
@[simp] theorem State.pmu_pwr (s : State) (n : Nat) : (s.pmu n).pwr = s.pwr := by rw [(pmu_rest s n)]
@[simp] theorem State.pmu_fe (s : State) (n : Nat) : (s.pmu n).fe = s.fe := by rw [(pmu_rest s n)]
@[simp] theorem State.pmu_est (s : State) (n : Nat) : (s.pmu n).est = s.est := by rw [(pmu_rest s n)]
@[simp] theorem State.pmu_surv (s : State) (n : Nat) : (s.pmu n).surv = s.surv := by rw [(pmu_rest s n)]
@[simp] theorem State.pmu_trk (s : State) (n : Nat) : (s.pmu n).trk = s.trk := by rw [(pmu_rest s n)]
@[simp] theorem State.pmu_sk (s : State) (n : Nat) : (s.pmu n).sk = s.sk := by rw [(pmu_rest s n)]
@[simp] theorem State.pmu_jobs (s : State) (n : Nat) : (s.pmu n).jobs = s.jobs := by rw [(pmu_rest s n)]
@[simp] theorem State.pmu_alc (s : State) (n : Nat) : (s.pmu n).alc = s.alc := by rw [(pmu_rest s n)]
@[simp] theorem State.pmu_srv (s : State) (n : Nat) : (s.pmu n).srv = s.srv := by rw [(pmu_rest s n)]
@[simp] theorem State.pmu_dsf (s : State) (n : Nat) : (s.pmu n).dsf = s.dsf := by rw [(pmu_rest s n)]
@[simp] theorem State.pmu_syncEdge (s : State) (n : Nat) : (s.pmu n).syncEdge = s.syncEdge := by rw [(pmu_rest s n)]
@[simp] theorem State.pmu_ha (s : State) (n : Nat) : (s.pmu n).ha = s.ha := by rw [(pmu_rest s n)]
@[simp] theorem State.pmu_kz (s : State) (n : Nat) : (s.pmu n).kz = s.kz := by rw [(pmu_rest s n)]
@[simp] theorem State.pmu_gn (s : State) (n : Nat) : (s.pmu n).gn = s.gn := by rw [(pmu_rest s n)]
@[simp] theorem State.pmu_net (s : State) (n : Nat) : (s.pmu n).net = s.net := by rw [(pmu_rest s n)]
@[simp] theorem State.pmu_can (s : State) (n : Nat) : (s.pmu n).can = s.can := by rw [(pmu_rest s n)]
@[simp] theorem State.pmu_be (s : State) (n : Nat) : (s.pmu n).be = s.be := by rw [(pmu_rest s n)]
@[simp] theorem State.pmu_cp (s : State) (n : Nat) : (s.pmu n).cp = s.cp := by rw [(pmu_rest s n)]
@[simp] theorem State.pmu_scrub (s : State) (n : Nat) : (s.pmu n).scrub = s.scrub := by rw [(pmu_rest s n)]
@[simp] theorem State.pmu_cyc (s : State) (n : Nat) : (s.pmu n).cyc = s.cyc := by rw [(pmu_rest s n)]
@[simp] theorem State.pmu_freeCount (s : State) (n : Nat) : (s.pmu n).freeCount = s.freeCount := by rw [(pmu_rest s n)]
@[simp] theorem State.pmu_out (s : State) (n : Nat) : (s.pmu n).out = s.out := by rw [(pmu_rest s n)]
@[simp] theorem State.pmu_pending (s : State) (n : Nat) : (s.pmu n).pending = s.pending := by rw [(pmu_rest s n)]
@[simp] theorem State.pmu_time (s : State) (n : Nat) : (s.pmu n).time = s.time := by rw [(pmu_rest s n)]
@[simp] theorem State.pmu_now (s : State) (n : Nat) : (s.pmu n).now = s.now := by simp [State.now]
@[simp] theorem State.pmu_stamp (s : State) (n : Nat) : (s.pmu n).stamp = s.stamp := by simp [State.stamp]
theorem State.pmu_word (s : State) (n : Nat) (hn : n < 256) {x : Nat} (h : ¬ Book x) : (s.pmu n).word x = s.word x := (kept_pmu s n hn).word x h
theorem State.pmu_shWord (s : State) (n : Nat) (hn : n < 256) {x : Nat} (h : ¬ Book x) : (s.pmu n).shWord x = s.shWord x := (kept_pmu s n hn).shWord x h
theorem State.pmu_get (s : State) (n : Nat) (hn : n < 256) {x : Fld} (h : ¬ Book x.addr) : (s.pmu n).get x = s.get x := (kept_pmu s n hn).get h
theorem State.pmu_flag (s : State) (n : Nat) (hn : n < 256) {x : Fld} (h : ¬ Book x.addr) : (s.pmu n).flag x = s.flag x := (kept_pmu s n hn).flag h
theorem State.pmu_domOn (s : State) (n : Nat) (hn : n < 256) (d : Nat) : (s.pmu n).domOn d = s.domOn d :=
  domOn_congr ((kept_pmu s n hn).get not_book_domStat) (State.pmu_pwr s n) d
theorem State.pmu_byte (s : State) (n : Nat) (hn : n < 256) {x : Nat} (h : ¬ s.BookMem x) : (s.pmu n).byte x = s.byte x := (kept_pmu s n hn).byte x h

/-! arriveG. -/

@[simp] theorem State.arriveG_nvm (s : State) (n : Nat) (i : Word) (p q : Bool) : (s.arriveG n i p q).nvm = s.nvm := by rw [(kept_arriveG s n i p q).rest]
@[simp] theorem State.arriveG_pwr (s : State) (n : Nat) (i : Word) (p q : Bool) : (s.arriveG n i p q).pwr = s.pwr := by rw [(kept_arriveG s n i p q).rest]
@[simp] theorem State.arriveG_fe (s : State) (n : Nat) (i : Word) (p q : Bool) : (s.arriveG n i p q).fe = s.fe := by rw [(kept_arriveG s n i p q).rest]
@[simp] theorem State.arriveG_est (s : State) (n : Nat) (i : Word) (p q : Bool) : (s.arriveG n i p q).est = s.est := by rw [(kept_arriveG s n i p q).rest]
@[simp] theorem State.arriveG_surv (s : State) (n : Nat) (i : Word) (p q : Bool) : (s.arriveG n i p q).surv = s.surv := by rw [(kept_arriveG s n i p q).rest]
@[simp] theorem State.arriveG_trk (s : State) (n : Nat) (i : Word) (p q : Bool) : (s.arriveG n i p q).trk = s.trk := by rw [(kept_arriveG s n i p q).rest]
@[simp] theorem State.arriveG_sk (s : State) (n : Nat) (i : Word) (p q : Bool) : (s.arriveG n i p q).sk = s.sk := by rw [(kept_arriveG s n i p q).rest]
@[simp] theorem State.arriveG_jobs (s : State) (n : Nat) (i : Word) (p q : Bool) : (s.arriveG n i p q).jobs = s.jobs := by rw [(kept_arriveG s n i p q).rest]
@[simp] theorem State.arriveG_alc (s : State) (n : Nat) (i : Word) (p q : Bool) : (s.arriveG n i p q).alc = s.alc := by rw [(kept_arriveG s n i p q).rest]
@[simp] theorem State.arriveG_srv (s : State) (n : Nat) (i : Word) (p q : Bool) : (s.arriveG n i p q).srv = s.srv := by rw [(kept_arriveG s n i p q).rest]
@[simp] theorem State.arriveG_dsf (s : State) (n : Nat) (i : Word) (p q : Bool) : (s.arriveG n i p q).dsf = s.dsf := by rw [(kept_arriveG s n i p q).rest]
@[simp] theorem State.arriveG_syncEdge (s : State) (n : Nat) (i : Word) (p q : Bool) : (s.arriveG n i p q).syncEdge = s.syncEdge := by rw [(kept_arriveG s n i p q).rest]
@[simp] theorem State.arriveG_ha (s : State) (n : Nat) (i : Word) (p q : Bool) : (s.arriveG n i p q).ha = s.ha := by rw [(kept_arriveG s n i p q).rest]
@[simp] theorem State.arriveG_kz (s : State) (n : Nat) (i : Word) (p q : Bool) : (s.arriveG n i p q).kz = s.kz := by rw [(kept_arriveG s n i p q).rest]
@[simp] theorem State.arriveG_gn (s : State) (n : Nat) (i : Word) (p q : Bool) : (s.arriveG n i p q).gn = s.gn := by rw [(kept_arriveG s n i p q).rest]
@[simp] theorem State.arriveG_net (s : State) (n : Nat) (i : Word) (p q : Bool) : (s.arriveG n i p q).net = s.net := by rw [(kept_arriveG s n i p q).rest]
@[simp] theorem State.arriveG_can (s : State) (n : Nat) (i : Word) (p q : Bool) : (s.arriveG n i p q).can = s.can := by rw [(kept_arriveG s n i p q).rest]
@[simp] theorem State.arriveG_be (s : State) (n : Nat) (i : Word) (p q : Bool) : (s.arriveG n i p q).be = s.be := by rw [(kept_arriveG s n i p q).rest]
@[simp] theorem State.arriveG_cp (s : State) (n : Nat) (i : Word) (p q : Bool) : (s.arriveG n i p q).cp = s.cp := by rw [(kept_arriveG s n i p q).rest]
@[simp] theorem State.arriveG_scrub (s : State) (n : Nat) (i : Word) (p q : Bool) : (s.arriveG n i p q).scrub = s.scrub := by rw [(kept_arriveG s n i p q).rest]
@[simp] theorem State.arriveG_cyc (s : State) (n : Nat) (i : Word) (p q : Bool) : (s.arriveG n i p q).cyc = s.cyc := by rw [(kept_arriveG s n i p q).rest]
@[simp] theorem State.arriveG_freeCount (s : State) (n : Nat) (i : Word) (p q : Bool) : (s.arriveG n i p q).freeCount = s.freeCount := by rw [(kept_arriveG s n i p q).rest]
@[simp] theorem State.arriveG_out (s : State) (n : Nat) (i : Word) (p q : Bool) : (s.arriveG n i p q).out = s.out := by rw [(kept_arriveG s n i p q).rest]
@[simp] theorem State.arriveG_pending (s : State) (n : Nat) (i : Word) (p q : Bool) : (s.arriveG n i p q).pending = s.pending := by rw [(kept_arriveG s n i p q).rest]
@[simp] theorem State.arriveG_time (s : State) (n : Nat) (i : Word) (p q : Bool) : (s.arriveG n i p q).time = s.time := by rw [(kept_arriveG s n i p q).rest]
@[simp] theorem State.arriveG_now (s : State) (n : Nat) (i : Word) (p q : Bool) : (s.arriveG n i p q).now = s.now := by simp [State.now]
@[simp] theorem State.arriveG_stamp (s : State) (n : Nat) (i : Word) (p q : Bool) : (s.arriveG n i p q).stamp = s.stamp := by simp [State.stamp]
theorem State.arriveG_word (s : State) (n : Nat) (i : Word) (p q : Bool) {x : Nat} (h : ¬ Book x) : (s.arriveG n i p q).word x = s.word x := (kept_arriveG s n i p q).word x h
theorem State.arriveG_shWord (s : State) (n : Nat) (i : Word) (p q : Bool) {x : Nat} (h : ¬ Book x) : (s.arriveG n i p q).shWord x = s.shWord x := (kept_arriveG s n i p q).shWord x h
theorem State.arriveG_get (s : State) (n : Nat) (i : Word) (p q : Bool) {x : Fld} (h : ¬ Book x.addr) : (s.arriveG n i p q).get x = s.get x := (kept_arriveG s n i p q).get h
theorem State.arriveG_flag (s : State) (n : Nat) (i : Word) (p q : Bool) {x : Fld} (h : ¬ Book x.addr) : (s.arriveG n i p q).flag x = s.flag x := (kept_arriveG s n i p q).flag h
@[simp] theorem State.arriveG_domOn (s : State) (n : Nat) (i : Word) (p q : Bool) (d : Nat) : (s.arriveG n i p q).domOn d = s.domOn d :=
  domOn_congr ((kept_arriveG s n i p q).get not_book_domStat) (State.arriveG_pwr s n i p q) d
theorem State.arriveG_byte (s : State) (n : Nat) (i : Word) (p q : Bool) {x : Nat} (h : ¬ s.BookMem x) : (s.arriveG n i p q).byte x = s.byte x := (kept_arriveG s n i p q).byte x h

/-! arrive. -/

@[simp] theorem State.arrive_nvm (s : State) (n : Nat) (i : Word) : (s.arrive n i).nvm = s.nvm := by rw [(kept_arrive s n i).rest]
@[simp] theorem State.arrive_pwr (s : State) (n : Nat) (i : Word) : (s.arrive n i).pwr = s.pwr := by rw [(kept_arrive s n i).rest]
@[simp] theorem State.arrive_fe (s : State) (n : Nat) (i : Word) : (s.arrive n i).fe = s.fe := by rw [(kept_arrive s n i).rest]
@[simp] theorem State.arrive_est (s : State) (n : Nat) (i : Word) : (s.arrive n i).est = s.est := by rw [(kept_arrive s n i).rest]
@[simp] theorem State.arrive_surv (s : State) (n : Nat) (i : Word) : (s.arrive n i).surv = s.surv := by rw [(kept_arrive s n i).rest]
@[simp] theorem State.arrive_trk (s : State) (n : Nat) (i : Word) : (s.arrive n i).trk = s.trk := by rw [(kept_arrive s n i).rest]
@[simp] theorem State.arrive_sk (s : State) (n : Nat) (i : Word) : (s.arrive n i).sk = s.sk := by rw [(kept_arrive s n i).rest]
@[simp] theorem State.arrive_jobs (s : State) (n : Nat) (i : Word) : (s.arrive n i).jobs = s.jobs := by rw [(kept_arrive s n i).rest]
@[simp] theorem State.arrive_alc (s : State) (n : Nat) (i : Word) : (s.arrive n i).alc = s.alc := by rw [(kept_arrive s n i).rest]
@[simp] theorem State.arrive_srv (s : State) (n : Nat) (i : Word) : (s.arrive n i).srv = s.srv := by rw [(kept_arrive s n i).rest]
@[simp] theorem State.arrive_dsf (s : State) (n : Nat) (i : Word) : (s.arrive n i).dsf = s.dsf := by rw [(kept_arrive s n i).rest]
@[simp] theorem State.arrive_syncEdge (s : State) (n : Nat) (i : Word) : (s.arrive n i).syncEdge = s.syncEdge := by rw [(kept_arrive s n i).rest]
@[simp] theorem State.arrive_ha (s : State) (n : Nat) (i : Word) : (s.arrive n i).ha = s.ha := by rw [(kept_arrive s n i).rest]
@[simp] theorem State.arrive_kz (s : State) (n : Nat) (i : Word) : (s.arrive n i).kz = s.kz := by rw [(kept_arrive s n i).rest]
@[simp] theorem State.arrive_gn (s : State) (n : Nat) (i : Word) : (s.arrive n i).gn = s.gn := by rw [(kept_arrive s n i).rest]
@[simp] theorem State.arrive_net (s : State) (n : Nat) (i : Word) : (s.arrive n i).net = s.net := by rw [(kept_arrive s n i).rest]
@[simp] theorem State.arrive_can (s : State) (n : Nat) (i : Word) : (s.arrive n i).can = s.can := by rw [(kept_arrive s n i).rest]
@[simp] theorem State.arrive_be (s : State) (n : Nat) (i : Word) : (s.arrive n i).be = s.be := by rw [(kept_arrive s n i).rest]
@[simp] theorem State.arrive_cp (s : State) (n : Nat) (i : Word) : (s.arrive n i).cp = s.cp := by rw [(kept_arrive s n i).rest]
@[simp] theorem State.arrive_scrub (s : State) (n : Nat) (i : Word) : (s.arrive n i).scrub = s.scrub := by rw [(kept_arrive s n i).rest]
@[simp] theorem State.arrive_cyc (s : State) (n : Nat) (i : Word) : (s.arrive n i).cyc = s.cyc := by rw [(kept_arrive s n i).rest]
@[simp] theorem State.arrive_freeCount (s : State) (n : Nat) (i : Word) : (s.arrive n i).freeCount = s.freeCount := by rw [(kept_arrive s n i).rest]
@[simp] theorem State.arrive_out (s : State) (n : Nat) (i : Word) : (s.arrive n i).out = s.out := by rw [(kept_arrive s n i).rest]
@[simp] theorem State.arrive_pending (s : State) (n : Nat) (i : Word) : (s.arrive n i).pending = s.pending := by rw [(kept_arrive s n i).rest]
@[simp] theorem State.arrive_time (s : State) (n : Nat) (i : Word) : (s.arrive n i).time = s.time := by rw [(kept_arrive s n i).rest]
@[simp] theorem State.arrive_now (s : State) (n : Nat) (i : Word) : (s.arrive n i).now = s.now := by simp [State.now]
@[simp] theorem State.arrive_stamp (s : State) (n : Nat) (i : Word) : (s.arrive n i).stamp = s.stamp := by simp [State.stamp]
theorem State.arrive_word (s : State) (n : Nat) (i : Word) {x : Nat} (h : ¬ Book x) : (s.arrive n i).word x = s.word x := (kept_arrive s n i).word x h
theorem State.arrive_shWord (s : State) (n : Nat) (i : Word) {x : Nat} (h : ¬ Book x) : (s.arrive n i).shWord x = s.shWord x := (kept_arrive s n i).shWord x h
theorem State.arrive_get (s : State) (n : Nat) (i : Word) {x : Fld} (h : ¬ Book x.addr) : (s.arrive n i).get x = s.get x := (kept_arrive s n i).get h
theorem State.arrive_flag (s : State) (n : Nat) (i : Word) {x : Fld} (h : ¬ Book x.addr) : (s.arrive n i).flag x = s.flag x := (kept_arrive s n i).flag h
@[simp] theorem State.arrive_domOn (s : State) (n : Nat) (i : Word) (d : Nat) : (s.arrive n i).domOn d = s.domOn d :=
  domOn_congr ((kept_arrive s n i).get not_book_domStat) (State.arrive_pwr s n i) d
theorem State.arrive_byte (s : State) (n : Nat) (i : Word) {x : Nat} (h : ¬ s.BookMem x) : (s.arrive n i).byte x = s.byte x := (kept_arrive s n i).byte x h

/-! record. -/

@[simp] theorem State.record_nvm (s : State) (n : Nat) (i : Word) (k : RecKind) : (s.record n i k).nvm = s.nvm := by rw [(kept_record s n i k).rest]
@[simp] theorem State.record_pwr (s : State) (n : Nat) (i : Word) (k : RecKind) : (s.record n i k).pwr = s.pwr := by rw [(kept_record s n i k).rest]
@[simp] theorem State.record_fe (s : State) (n : Nat) (i : Word) (k : RecKind) : (s.record n i k).fe = s.fe := by rw [(kept_record s n i k).rest]
@[simp] theorem State.record_est (s : State) (n : Nat) (i : Word) (k : RecKind) : (s.record n i k).est = s.est := by rw [(kept_record s n i k).rest]
@[simp] theorem State.record_surv (s : State) (n : Nat) (i : Word) (k : RecKind) : (s.record n i k).surv = s.surv := by rw [(kept_record s n i k).rest]
@[simp] theorem State.record_trk (s : State) (n : Nat) (i : Word) (k : RecKind) : (s.record n i k).trk = s.trk := by rw [(kept_record s n i k).rest]
@[simp] theorem State.record_sk (s : State) (n : Nat) (i : Word) (k : RecKind) : (s.record n i k).sk = s.sk := by rw [(kept_record s n i k).rest]
@[simp] theorem State.record_jobs (s : State) (n : Nat) (i : Word) (k : RecKind) : (s.record n i k).jobs = s.jobs := by rw [(kept_record s n i k).rest]
@[simp] theorem State.record_alc (s : State) (n : Nat) (i : Word) (k : RecKind) : (s.record n i k).alc = s.alc := by rw [(kept_record s n i k).rest]
@[simp] theorem State.record_srv (s : State) (n : Nat) (i : Word) (k : RecKind) : (s.record n i k).srv = s.srv := by rw [(kept_record s n i k).rest]
@[simp] theorem State.record_dsf (s : State) (n : Nat) (i : Word) (k : RecKind) : (s.record n i k).dsf = s.dsf := by rw [(kept_record s n i k).rest]
@[simp] theorem State.record_syncEdge (s : State) (n : Nat) (i : Word) (k : RecKind) : (s.record n i k).syncEdge = s.syncEdge := by rw [(kept_record s n i k).rest]
@[simp] theorem State.record_ha (s : State) (n : Nat) (i : Word) (k : RecKind) : (s.record n i k).ha = s.ha := by rw [(kept_record s n i k).rest]
@[simp] theorem State.record_kz (s : State) (n : Nat) (i : Word) (k : RecKind) : (s.record n i k).kz = s.kz := by rw [(kept_record s n i k).rest]
@[simp] theorem State.record_gn (s : State) (n : Nat) (i : Word) (k : RecKind) : (s.record n i k).gn = s.gn := by rw [(kept_record s n i k).rest]
@[simp] theorem State.record_net (s : State) (n : Nat) (i : Word) (k : RecKind) : (s.record n i k).net = s.net := by rw [(kept_record s n i k).rest]
@[simp] theorem State.record_can (s : State) (n : Nat) (i : Word) (k : RecKind) : (s.record n i k).can = s.can := by rw [(kept_record s n i k).rest]
@[simp] theorem State.record_be (s : State) (n : Nat) (i : Word) (k : RecKind) : (s.record n i k).be = s.be := by rw [(kept_record s n i k).rest]
@[simp] theorem State.record_cp (s : State) (n : Nat) (i : Word) (k : RecKind) : (s.record n i k).cp = s.cp := by rw [(kept_record s n i k).rest]
@[simp] theorem State.record_scrub (s : State) (n : Nat) (i : Word) (k : RecKind) : (s.record n i k).scrub = s.scrub := by rw [(kept_record s n i k).rest]
@[simp] theorem State.record_cyc (s : State) (n : Nat) (i : Word) (k : RecKind) : (s.record n i k).cyc = s.cyc := by rw [(kept_record s n i k).rest]
@[simp] theorem State.record_freeCount (s : State) (n : Nat) (i : Word) (k : RecKind) : (s.record n i k).freeCount = s.freeCount := by rw [(kept_record s n i k).rest]
@[simp] theorem State.record_out (s : State) (n : Nat) (i : Word) (k : RecKind) : (s.record n i k).out = s.out := by rw [(kept_record s n i k).rest]
@[simp] theorem State.record_pending (s : State) (n : Nat) (i : Word) (k : RecKind) : (s.record n i k).pending = s.pending := by rw [(kept_record s n i k).rest]
@[simp] theorem State.record_time (s : State) (n : Nat) (i : Word) (k : RecKind) : (s.record n i k).time = s.time := by rw [(kept_record s n i k).rest]
@[simp] theorem State.record_now (s : State) (n : Nat) (i : Word) (k : RecKind) : (s.record n i k).now = s.now := by simp [State.now]
@[simp] theorem State.record_stamp (s : State) (n : Nat) (i : Word) (k : RecKind) : (s.record n i k).stamp = s.stamp := by simp [State.stamp]
theorem State.record_word (s : State) (n : Nat) (i : Word) (k : RecKind) {x : Nat} (h : ¬ Book x) : (s.record n i k).word x = s.word x := (kept_record s n i k).word x h
theorem State.record_shWord (s : State) (n : Nat) (i : Word) (k : RecKind) {x : Nat} (h : ¬ Book x) : (s.record n i k).shWord x = s.shWord x := (kept_record s n i k).shWord x h
theorem State.record_get (s : State) (n : Nat) (i : Word) (k : RecKind) {x : Fld} (h : ¬ Book x.addr) : (s.record n i k).get x = s.get x := (kept_record s n i k).get h
theorem State.record_flag (s : State) (n : Nat) (i : Word) (k : RecKind) {x : Fld} (h : ¬ Book x.addr) : (s.record n i k).flag x = s.flag x := (kept_record s n i k).flag h
@[simp] theorem State.record_domOn (s : State) (n : Nat) (i : Word) (k : RecKind) (d : Nat) : (s.record n i k).domOn d = s.domOn d :=
  domOn_congr ((kept_record s n i k).get not_book_domStat) (State.record_pwr s n i k) d
theorem State.record_byte (s : State) (n : Nat) (i : Word) (k : RecKind) {x : Nat} (h : ¬ s.BookMem x) : (s.record n i k).byte x = s.byte x := (kept_record s n i k).byte x h

/-! event. -/

@[simp] theorem State.event_nvm (s : State) (n : Nat) (i : Word) (k : RecKind) : (s.event n i k).nvm = s.nvm := by rw [(kept_event s n i k).rest]
@[simp] theorem State.event_pwr (s : State) (n : Nat) (i : Word) (k : RecKind) : (s.event n i k).pwr = s.pwr := by rw [(kept_event s n i k).rest]
@[simp] theorem State.event_fe (s : State) (n : Nat) (i : Word) (k : RecKind) : (s.event n i k).fe = s.fe := by rw [(kept_event s n i k).rest]
@[simp] theorem State.event_est (s : State) (n : Nat) (i : Word) (k : RecKind) : (s.event n i k).est = s.est := by rw [(kept_event s n i k).rest]
@[simp] theorem State.event_surv (s : State) (n : Nat) (i : Word) (k : RecKind) : (s.event n i k).surv = s.surv := by rw [(kept_event s n i k).rest]
@[simp] theorem State.event_trk (s : State) (n : Nat) (i : Word) (k : RecKind) : (s.event n i k).trk = s.trk := by rw [(kept_event s n i k).rest]
@[simp] theorem State.event_sk (s : State) (n : Nat) (i : Word) (k : RecKind) : (s.event n i k).sk = s.sk := by rw [(kept_event s n i k).rest]
@[simp] theorem State.event_jobs (s : State) (n : Nat) (i : Word) (k : RecKind) : (s.event n i k).jobs = s.jobs := by rw [(kept_event s n i k).rest]
@[simp] theorem State.event_alc (s : State) (n : Nat) (i : Word) (k : RecKind) : (s.event n i k).alc = s.alc := by rw [(kept_event s n i k).rest]
@[simp] theorem State.event_srv (s : State) (n : Nat) (i : Word) (k : RecKind) : (s.event n i k).srv = s.srv := by rw [(kept_event s n i k).rest]
@[simp] theorem State.event_dsf (s : State) (n : Nat) (i : Word) (k : RecKind) : (s.event n i k).dsf = s.dsf := by rw [(kept_event s n i k).rest]
@[simp] theorem State.event_syncEdge (s : State) (n : Nat) (i : Word) (k : RecKind) : (s.event n i k).syncEdge = s.syncEdge := by rw [(kept_event s n i k).rest]
@[simp] theorem State.event_ha (s : State) (n : Nat) (i : Word) (k : RecKind) : (s.event n i k).ha = s.ha := by rw [(kept_event s n i k).rest]
@[simp] theorem State.event_kz (s : State) (n : Nat) (i : Word) (k : RecKind) : (s.event n i k).kz = s.kz := by rw [(kept_event s n i k).rest]
@[simp] theorem State.event_gn (s : State) (n : Nat) (i : Word) (k : RecKind) : (s.event n i k).gn = s.gn := by rw [(kept_event s n i k).rest]
@[simp] theorem State.event_net (s : State) (n : Nat) (i : Word) (k : RecKind) : (s.event n i k).net = s.net := by rw [(kept_event s n i k).rest]
@[simp] theorem State.event_can (s : State) (n : Nat) (i : Word) (k : RecKind) : (s.event n i k).can = s.can := by rw [(kept_event s n i k).rest]
@[simp] theorem State.event_be (s : State) (n : Nat) (i : Word) (k : RecKind) : (s.event n i k).be = s.be := by rw [(kept_event s n i k).rest]
@[simp] theorem State.event_cp (s : State) (n : Nat) (i : Word) (k : RecKind) : (s.event n i k).cp = s.cp := by rw [(kept_event s n i k).rest]
@[simp] theorem State.event_scrub (s : State) (n : Nat) (i : Word) (k : RecKind) : (s.event n i k).scrub = s.scrub := by rw [(kept_event s n i k).rest]
@[simp] theorem State.event_cyc (s : State) (n : Nat) (i : Word) (k : RecKind) : (s.event n i k).cyc = s.cyc := by rw [(kept_event s n i k).rest]
@[simp] theorem State.event_freeCount (s : State) (n : Nat) (i : Word) (k : RecKind) : (s.event n i k).freeCount = s.freeCount := by rw [(kept_event s n i k).rest]
@[simp] theorem State.event_out (s : State) (n : Nat) (i : Word) (k : RecKind) : (s.event n i k).out = s.out := by rw [(kept_event s n i k).rest]
@[simp] theorem State.event_pending (s : State) (n : Nat) (i : Word) (k : RecKind) : (s.event n i k).pending = s.pending := by rw [(kept_event s n i k).rest]
@[simp] theorem State.event_time (s : State) (n : Nat) (i : Word) (k : RecKind) : (s.event n i k).time = s.time := by rw [(kept_event s n i k).rest]
@[simp] theorem State.event_now (s : State) (n : Nat) (i : Word) (k : RecKind) : (s.event n i k).now = s.now := by simp [State.now]
@[simp] theorem State.event_stamp (s : State) (n : Nat) (i : Word) (k : RecKind) : (s.event n i k).stamp = s.stamp := by simp [State.stamp]
theorem State.event_word (s : State) (n : Nat) (i : Word) (k : RecKind) {x : Nat} (h : ¬ Book x) : (s.event n i k).word x = s.word x := (kept_event s n i k).word x h
theorem State.event_shWord (s : State) (n : Nat) (i : Word) (k : RecKind) {x : Nat} (h : ¬ Book x) : (s.event n i k).shWord x = s.shWord x := (kept_event s n i k).shWord x h
theorem State.event_get (s : State) (n : Nat) (i : Word) (k : RecKind) {x : Fld} (h : ¬ Book x.addr) : (s.event n i k).get x = s.get x := (kept_event s n i k).get h
theorem State.event_flag (s : State) (n : Nat) (i : Word) (k : RecKind) {x : Fld} (h : ¬ Book x.addr) : (s.event n i k).flag x = s.flag x := (kept_event s n i k).flag h
@[simp] theorem State.event_domOn (s : State) (n : Nat) (i : Word) (k : RecKind) (d : Nat) : (s.event n i k).domOn d = s.domOn d :=
  domOn_congr ((kept_event s n i k).get not_book_domStat) (State.event_pwr s n i k) d
theorem State.event_byte (s : State) (n : Nat) (i : Word) (k : RecKind) {x : Nat} (h : ¬ s.BookMem x) : (s.event n i k).byte x = s.byte x := (kept_event s n i k).byte x h

/-! Device time running on. -/

theorem occupancy_lt (s : State) : ∀ o ∈ s.occupancy, o.1 < 256 := by
  intro o ho
  simp only [State.occupancy, List.mem_append, List.mem_cons, List.not_mem_nil, or_false, List.mem_map, List.mem_range] at ho
  rcases ho with (h | h | h | h | h | h | h | h | h | h) | ⟨x, hx, h⟩ <;> subst h <;> simp <;> omega

theorem kept_foldl_mem {β : Type} (f : State → β → State) (P : β → Prop) (h : ∀ s b, P b → Kept s (f s b)) :
    ∀ (l : List β) (s : State), (∀ b ∈ l, P b) → Kept s (l.foldl f s)
  | [], s, _ => Kept.refl s
  | b :: t, s, hl => (h s b (hl b (by simp))).trans (kept_foldl_mem f P h t (f s b) fun c hc => hl c (by simp [hc]))

/-- The counting of a span of time is bookkeeping. -/
theorem kept_pmuSpan (s : State) (a b k : Nat) : Kept s (s.pmuSpan a b k) := by
  unfold State.pmuSpan
  dsimp only
  apply kept_foldl_mem _ (fun e : Nat × Nat => e.1 < 256)
  · intro t e he
    exact (kept_pmuRaw t e.1 e.2 he).trans (kept_foldl _ (fun t c => kept_arrive t _ _) _ _)
  · intro e he
    simp only [List.mem_append, List.mem_cons, List.not_mem_nil, or_false, List.mem_map] at he
    rcases he with (h | h) | ⟨o, ho, h⟩
    · subst h; exact (by decide : (0 : Nat) < 256)
    · subst h; exact (by decide : (1 : Nat) < 256)
    · subst h; exact occupancy_lt s o ho

/-- Ticks passing is the counting of a span of time, and a new time base. -/
theorem runTicks_eq (s : State) (k r : Nat) :
    ∃ (a b c : Nat) (t : TimeBase), s.runTicks k r = { s.pmuSpan a b c with time := t }
      ∧ t.count = BitVec.ofNat 64 (s.fineAfter k / 2 ^ 32 + r) := by
  unfold State.runTicks
  exact ⟨_, _, _, _, rfl, rfl⟩

/-- Time running on to a count is nothing, or ticks passing. -/
theorem advanceTo_cases (s : State) (n : Nat) :
    s.advanceTo n = s ∧ (n ≤ s.now ∨ s.timeRuns = false)
    ∨ s.now < n ∧ s.timeRuns = true ∧ s.advanceTo n = s.runTicks (s.ticksTo n) (n - s.fineAfter (s.ticksTo n) / 2 ^ 32) := by
  unfold State.advanceTo
  split
  · rename_i h; exact Or.inl ⟨rfl, by simpa using h⟩
  · rename_i h
    simp only [Bool.or_eq_true, decide_eq_true_eq, Bool.not_eq_true', not_or, not_le, Bool.not_eq_false] at h
    exact Or.inr ⟨h.1, h.2, rfl⟩

theorem kept_of_runTicks {s t : State} {a b c : Nat} {x : TimeBase} (h : t = { s.pmuSpan a b c with time := x }) :
    t = { s with regs := t.regs, shadow := t.shadow, mem := t.mem, recd := t.recd, ic := t.ic, time := t.time }
    ∧ (∀ a, ¬ Book a → t.word a = s.word a) ∧ (∀ a, ¬ Book a → t.shWord a = s.shWord a) ∧ ∀ a, ¬ s.BookMem a → t.byte a = s.byte a := by
  subst h
  have k := kept_pmuSpan s a b c
  refine ⟨?_, fun a h => k.word a h, fun a h => k.shWord a h, fun a h => k.byte a h⟩
  have h := k.rest
  generalize s.pmuSpan a b c = u at *
  rw [h]

/-- What time running on to a count leaves. -/
theorem advanceTo_kept (s : State) (n : Nat) :
    s.advanceTo n = { s with regs := (s.advanceTo n).regs, shadow := (s.advanceTo n).shadow, mem := (s.advanceTo n).mem, recd := (s.advanceTo n).recd, ic := (s.advanceTo n).ic, time := (s.advanceTo n).time }
    ∧ (∀ a, ¬ Book a → (s.advanceTo n).word a = s.word a) ∧ (∀ a, ¬ Book a → (s.advanceTo n).shWord a = s.shWord a)
    ∧ ∀ a, ¬ s.BookMem a → (s.advanceTo n).byte a = s.byte a := by
  rcases advanceTo_cases s n with ⟨h, _⟩ | ⟨_, _, h⟩
  · rw [h]; exact ⟨rfl, fun _ _ => rfl, fun _ _ => rfl, fun _ _ => rfl⟩
  · obtain ⟨a, b, c, t, g, _⟩ := runTicks_eq s (s.ticksTo n) (n - s.fineAfter (s.ticksTo n) / 2 ^ 32)
    rw [h]; exact kept_of_runTicks g

theorem advanceTo_rest (s : State) (n : Nat) :
    s.advanceTo n = { s with regs := (s.advanceTo n).regs, shadow := (s.advanceTo n).shadow, mem := (s.advanceTo n).mem, recd := (s.advanceTo n).recd, ic := (s.advanceTo n).ic, time := (s.advanceTo n).time } :=
  (advanceTo_kept s n).1

/-- The ticks before a count end no later than it. -/
theorem fineAfter_le (s : State) (n : Nat) (h : s.now < n) : s.fineAfter (s.ticksTo n) / 2 ^ 32 ≤ n := by
  have hf := s.time.frac.isLt
  have h1 : s.fine ≤ n * 2 ^ 32 := by
    unfold State.fine
    generalize s.now = a at *
    generalize s.time.sub = b
    generalize s.time.frac.toNat = c at *
    omega
  have h2 : s.ticksTo n * s.tickInc ≤ n * 2 ^ 32 - s.fine := Nat.div_mul_le_self _ _
  apply Nat.div_le_of_le_mul
  unfold State.fineAfter
  omega

/-- Where time runs it runs on to a later count, and never back. -/
theorem now_advanceTo (s : State) (n : Nat) (h : n < 2 ^ 64) : (s.advanceTo n).now = s.reached n := by
  rcases advanceTo_cases s n with ⟨e, g⟩ | ⟨g1, g2, e⟩
  · rw [e]; unfold State.reached
    rcases g with g | g
    · split <;> omega
    · simp [g]
  · obtain ⟨a, b, c, t, q, hc⟩ := runTicks_eq s (s.ticksTo n) (n - s.fineAfter (s.ticksTo n) / 2 ^ 32)
    rw [e, q]
    show t.count.toNat = _
    have hl := fineAfter_le s n g1
    rw [hc, Nat.add_sub_cancel' hl, BitVec.toNat_ofNat, Nat.mod_eq_of_lt h]
    simp only [State.reached, g2, if_true]
    omega

theorem State.advanceTo_word (s : State) (n : Nat) {x : Nat} (h : ¬ Book x) : (s.advanceTo n).word x = s.word x :=
  (advanceTo_kept s n).2.1 x h

theorem State.advanceTo_shWord (s : State) (n : Nat) {x : Nat} (h : ¬ Book x) : (s.advanceTo n).shWord x = s.shWord x :=
  (advanceTo_kept s n).2.2.1 x h

theorem State.advanceTo_byte (s : State) (n : Nat) {x : Nat} (h : ¬ s.BookMem x) : (s.advanceTo n).byte x = s.byte x :=
  (advanceTo_kept s n).2.2.2 x h

theorem State.advanceTo_get (s : State) (n : Nat) {x : Fld} (h : ¬ Book x.addr) : (s.advanceTo n).get x = s.get x := by
  simp [State.get, State.advanceTo_word s n h]

theorem State.advanceTo_flag (s : State) (n : Nat) {x : Fld} (h : ¬ Book x.addr) : (s.advanceTo n).flag x = s.flag x := by
  simp [State.flag, State.advanceTo_get s n h]

@[simp] theorem State.advanceTo_nvm (s : State) (n : Nat) : (s.advanceTo n).nvm = s.nvm := by rw [advanceTo_rest]
@[simp] theorem State.advanceTo_pwr (s : State) (n : Nat) : (s.advanceTo n).pwr = s.pwr := by rw [advanceTo_rest]
@[simp] theorem State.advanceTo_fe (s : State) (n : Nat) : (s.advanceTo n).fe = s.fe := by rw [advanceTo_rest]
@[simp] theorem State.advanceTo_est (s : State) (n : Nat) : (s.advanceTo n).est = s.est := by rw [advanceTo_rest]
@[simp] theorem State.advanceTo_surv (s : State) (n : Nat) : (s.advanceTo n).surv = s.surv := by rw [advanceTo_rest]
@[simp] theorem State.advanceTo_trk (s : State) (n : Nat) : (s.advanceTo n).trk = s.trk := by rw [advanceTo_rest]
@[simp] theorem State.advanceTo_sk (s : State) (n : Nat) : (s.advanceTo n).sk = s.sk := by rw [advanceTo_rest]
@[simp] theorem State.advanceTo_jobs (s : State) (n : Nat) : (s.advanceTo n).jobs = s.jobs := by rw [advanceTo_rest]
@[simp] theorem State.advanceTo_alc (s : State) (n : Nat) : (s.advanceTo n).alc = s.alc := by rw [advanceTo_rest]
@[simp] theorem State.advanceTo_srv (s : State) (n : Nat) : (s.advanceTo n).srv = s.srv := by rw [advanceTo_rest]
@[simp] theorem State.advanceTo_dsf (s : State) (n : Nat) : (s.advanceTo n).dsf = s.dsf := by rw [advanceTo_rest]
@[simp] theorem State.advanceTo_syncEdge (s : State) (n : Nat) : (s.advanceTo n).syncEdge = s.syncEdge := by rw [advanceTo_rest]
@[simp] theorem State.advanceTo_ha (s : State) (n : Nat) : (s.advanceTo n).ha = s.ha := by rw [advanceTo_rest]
@[simp] theorem State.advanceTo_kz (s : State) (n : Nat) : (s.advanceTo n).kz = s.kz := by rw [advanceTo_rest]
@[simp] theorem State.advanceTo_gn (s : State) (n : Nat) : (s.advanceTo n).gn = s.gn := by rw [advanceTo_rest]
@[simp] theorem State.advanceTo_net (s : State) (n : Nat) : (s.advanceTo n).net = s.net := by rw [advanceTo_rest]
@[simp] theorem State.advanceTo_can (s : State) (n : Nat) : (s.advanceTo n).can = s.can := by rw [advanceTo_rest]
@[simp] theorem State.advanceTo_be (s : State) (n : Nat) : (s.advanceTo n).be = s.be := by rw [advanceTo_rest]
@[simp] theorem State.advanceTo_cp (s : State) (n : Nat) : (s.advanceTo n).cp = s.cp := by rw [advanceTo_rest]
@[simp] theorem State.advanceTo_scrub (s : State) (n : Nat) : (s.advanceTo n).scrub = s.scrub := by rw [advanceTo_rest]
@[simp] theorem State.advanceTo_cyc (s : State) (n : Nat) : (s.advanceTo n).cyc = s.cyc := by rw [advanceTo_rest]
@[simp] theorem State.advanceTo_freeCount (s : State) (n : Nat) : (s.advanceTo n).freeCount = s.freeCount := by rw [advanceTo_rest]
@[simp] theorem State.advanceTo_out (s : State) (n : Nat) : (s.advanceTo n).out = s.out := by rw [advanceTo_rest]
@[simp] theorem State.advanceTo_pending (s : State) (n : Nat) : (s.advanceTo n).pending = s.pending := by rw [advanceTo_rest]
@[simp] theorem State.advanceTo_domOn (s : State) (n d : Nat) : (s.advanceTo n).domOn d = s.domOn d :=
  domOn_congr (State.advanceTo_get s n not_book_domStat) (State.advanceTo_pwr s n) d

/-! The end of a command, and frames. -/

/-- A command that ends in t completes with what holds of t, the queue apart. -/
theorem Completes.of {c : Instr} {s t : State} {P : State → Prop} (h : exec c s = s.ends t) (g : P (t.requeue s.pending)) :
    Completes c s P := ⟨_, h, g⟩

theorem Kept.same {s t : State} (k : Kept s t) (u : Part) (h1 : u ≠ .recd) (h2 : u ≠ .ic) : u.same s t := by
  have h := k.rest
  cases u <;> first | (exact absurd rfl h1) | (exact absurd rfl h2) | (simp only [Part.same]; rw [h])

/-- Bookkeeping is within every frame. -/
theorem Kept.frame {s t : State} (k : Kept s t) (W M : Nat → Prop) (U : List Part) : Frame W M U s t :=
  ⟨fun a h _ => k.word a h, fun a h _ => k.shWord a h, fun a h _ => k.byte a h, fun u _ h1 h2 => k.same u h1 h2⟩

theorem Frame.refl (W M : Nat → Prop) (U : List Part) (s : State) : Frame W M U s s := (Kept.refl s).frame W M U

theorem Part.same_trans (u : Part) {s t v : State} (h : u.same s t) (g : u.same t v) : u.same s v := by
  cases u <;> exact Eq.trans g h

/-- The bookkeeping's own memory stays where its configuration stays. -/
theorem bookMem_congr {s t : State} (h : ∀ a, 0x40040000 ≤ a → a < 0x40060000 → ¬ Book a → t.word a = s.word a) (a : Nat) :
    t.BookMem a ↔ s.BookMem a := by
  have hbh : ∀ x l, x < 10 → l < 8 → t.word (R.RING_BH x l) = s.word (R.RING_BH x l) :=
    fun x l hx hl => h _ (by simp only [R.RING_BH]; omega) (by simp only [R.RING_BH]; omega) (not_book_ringBh x l hx hl)
  have hbl : ∀ x l, x < 10 → l < 8 → t.word (R.RING_BL x l) = s.word (R.RING_BL x l) :=
    fun x l hx hl => h _ (by simp only [R.RING_BL]; omega) (by simp only [R.RING_BL]; omega) (not_book_ringBl x l hx hl)
  have ha : ∀ b, 0x40050020 ≤ b → b < 0x4005002C → t.word b = s.word b :=
    fun b h1 h2 => h b (by omega) (by omega) (by simp only [Book]; omega)
  have h1 : t.word R.REC_ARCH_CFG = s.word R.REC_ARCH_CFG := ha _ (by decide) (by decide)
  have h2 : t.word R.REC_ARCH_BL = s.word R.REC_ARCH_BL := ha _ (by decide) (by decide)
  have h3 : t.word R.REC_ARCH_BH = s.word R.REC_ARCH_BH := ha _ (by decide) (by decide)
  simp only [State.BookMem, State.flag, State.get, F.REC_ARCH_CFG_EN, F.REC_ARCH_BL_BASE, F.REC_ARCH_BH_BASE,
    F.REC_ARCH_CFG_SIZE_LOG2, h1, h2, h3]
  refine or_congr ?_ Iff.rfl
  refine exists_congr fun x => exists_congr fun l => ?_
  constructor
  · rintro ⟨hx, hl, g⟩
    refine ⟨hx, hl, ?_⟩
    simpa only [State.ringBase, State.ringSize, State.get, F.RING_BH_EN, F.RING_BL_BASE_LO, F.RING_BH_BASE_HI,
      F.RING_BH_SIZE_LOG2, hbh x l hx hl, hbl x l hx hl] using g
  · rintro ⟨hx, hl, g⟩
    refine ⟨hx, hl, ?_⟩
    simpa only [State.ringBase, State.ringSize, State.get, F.RING_BH_EN, F.RING_BL_BASE_LO, F.RING_BH_BASE_HI,
      F.RING_BH_SIZE_LOG2, hbh x l hx hl, hbl x l hx hl] using g

/-- Frames compose, where the registers of W are none of the interrupt controller's and the recorder's. -/
theorem Frame.trans {W M : Nat → Prop} {U : List Part} {s t v : State} (hW : ∀ a, W a → a < 0x40040000 ∨ 0x40060000 ≤ a)
    (h : Frame W M U s t) (g : Frame W M U t v) : Frame W M U s v where
  word a h1 h2 := (g.word a h1 h2).trans (h.word a h1 h2)
  shWord a h1 h2 := (g.shWord a h1 h2).trans (h.shWord a h1 h2)
  byte a h1 h2 := by
    have hb := bookMem_congr (s := s) (t := t) (fun b b1 b2 b3 => h.word b b3 (fun hw => by have := hW b hw; omega)) a
    exact (g.byte a (fun hc => h1 (hb.1 hc)) h2).trans (h.byte a h1 h2)
  part u h1 h2 h3 := u.same_trans (h.part u h1 h2 h3) (g.part u h1 h2 h3)

theorem frame_setWord {W M : Nat → Prop} {U : List Part} (s : State) (a : Nat) (v : Word) (h : W a) :
    Frame W M U s (s.setWord a v) where
  word b _ h2 := State.word_setWord_ne s (by rintro rfl; exact h2 h) v
  shWord _ _ _ := rfl
  byte _ _ _ := rfl
  part u _ _ _ := by cases u <;> rfl

theorem frame_setShWord {W M : Nat → Prop} {U : List Part} (s : State) (a : Nat) (v : Word) (h : W a) :
    Frame W M U s (s.setShWord a v) where
  word _ _ _ := rfl
  shWord b _ h2 := by
    have : b ≠ a := by rintro rfl; exact h2 h
    simp [State.shWord_setShWord, this]
  byte _ _ _ := rfl
  part u _ _ _ := by cases u <;> rfl

theorem frame_set {W M : Nat → Prop} {U : List Part} (s : State) (f : Fld) (v : Nat) (h : W f.addr) : Frame W M U s (s.set f v) :=
  frame_setWord s _ _ h

theorem frame_setFlag {W M : Nat → Prop} {U : List Part} (s : State) (f : Fld) (b : Bool) (h : W f.addr) :
    Frame W M U s (s.setFlag f b) := frame_setWord s _ _ h

theorem frame_bump {W M : Nat → Prop} {U : List Part} (s : State) (f : Fld) (h : W f.addr) : Frame W M U s (s.bump f) :=
  frame_setWord s _ _ h

theorem frame_advanceTo {W M : Nat → Prop} {U : List Part} (s : State) (n : Nat) (h : Part.time ∈ U) :
    Frame W M U s (s.advanceTo n) where
  word _ h1 _ := State.advanceTo_word s n h1
  shWord _ h1 _ := State.advanceTo_shWord s n h1
  byte _ h1 _ := State.advanceTo_byte s n h1
  part u h1 h2 h3 := by
    cases u <;> first | (exact absurd h h1) | (exact absurd rfl h2) | (exact absurd rfl h3) | (simp [Part.same])

theorem frame_requeue {W M : Nat → Prop} {U : List Part} {s t : State} (l : List Instr) (h : Frame W M U s t) :
    Frame W M U s (t.requeue l) :=
  ⟨h.word, h.shWord, h.byte, fun u h1 h2 h3 => by have := h.part u h1 h2 h3; cases u <;> exact this⟩

end Sys2Proof.Machine
end

