-- ==== Sys2Proof/Laws/Elements.lean ====
section
/-!
SUPPORT. The elements of the units' lists (tasks, streams, loops, captures, filter channels, lattice channels, CAN controllers, PTP
ports, processors) under the updates of other fields and under the bookkeeping.
-/
namespace Sys2Proof.Machine

/-! task. -/

@[simp] theorem State.setWord_task (s : State) (a : Nat) (v : Word) (x : Nat) : (s.setWord a v).task x = s.task x := rfl
@[simp] theorem State.setShWord_task (s : State) (a : Nat) (v : Word) (x : Nat) : (s.setShWord a v).task x = s.task x := rfl
@[simp] theorem State.set_task (s : State) (f : Fld) (v : Nat) (x : Nat) : (s.set f v).task x = s.task x := rfl
@[simp] theorem State.setFlag_task (s : State) (f : Fld) (b : Bool) (x : Nat) : (s.setFlag f b).task x = s.task x := rfl
@[simp] theorem State.bumpBy_task (s : State) (f : Fld) (n : Nat) (x : Nat) : (s.bumpBy f n).task x = s.task x := rfl
@[simp] theorem State.bump_task (s : State) (f : Fld) (x : Nat) : (s.bump f).task x = s.task x := rfl
@[simp] theorem State.set64_task (s : State) (a : Nat) (v : Word64) (x : Nat) : (s.set64 a v).task x = s.task x := rfl
@[simp] theorem State.seti_task (s : State) (a : Nat) (v : Int) (x : Nat) : (s.seti a v).task x = s.task x := rfl
@[simp] theorem State.setByte_task (s : State) (a : Nat) (v : Byte) (x : Nat) : (s.setByte a v).task x = s.task x := rfl
@[simp] theorem State.requeue_task (s : State) (l : List Instr) (x : Nat) : (s.requeue l).task x = s.task x := rfl
@[simp] theorem State.drawn_task (s : State) (x : Nat) : (s.drawn).task x = s.task x := rfl
@[simp] theorem State.emit_task (s : State) (o : Output) (x : Nat) : (s.emit o).task x = s.task x := rfl
@[simp] theorem State.modTime_task (s : State) (f : TimeBase → TimeBase) (x : Nat) : (s.modTime f).task x = s.task x := rfl
@[simp] theorem State.modPort_task (s : State) (p : Nat) (f : PtpPort → PtpPort) (x : Nat) : (s.modPort p f).task x = s.task x := rfl
@[simp] theorem State.modRef_task (s : State) (r : Nat) (f : RefSt → RefSt) (x : Nat) : (s.modRef r f).task x = s.task x := rfl
@[simp] theorem State.modProc_task (s : State) (p : Nat) (f : Proc → Proc) (x : Nat) : (s.modProc p f).task x = s.task x := rfl
@[simp] theorem State.modRing_task (s : State) (p l : Nat) (f : Ring → Ring) (x : Nat) : (s.modRing p l f).task x = s.task x := rfl
@[simp] theorem State.modPwr_task (s : State) (f : Power → Power) (x : Nat) : (s.modPwr f).task x = s.task x := rfl
@[simp] theorem State.modNvm_task (s : State) (f : Nvm → Nvm) (x : Nat) : (s.modNvm f).task x = s.task x := rfl
@[simp] theorem State.modFe_task (s : State) (f : Fe → Fe) (x : Nat) : (s.modFe f).task x = s.task x := rfl
@[simp] theorem State.modStream_task (s : State) (n : Nat) (f : Stream → Stream) (x : Nat) : (s.modStream n f).task x = s.task x := rfl
@[simp] theorem State.modEst_task (s : State) (f : Est → Est) (x : Nat) : (s.modEst f).task x = s.task x := rfl
@[simp] theorem State.modTrk_task (s : State) (f : Track → Track) (x : Nat) : (s.modTrk f).task x = s.task x := rfl
@[simp] theorem State.modSk_task (s : State) (f : Sk → Sk) (x : Nat) : (s.modSk f).task x = s.task x := rfl
@[simp] theorem State.modJobs_task (s : State) (f : Jobs → Jobs) (x : Nat) : (s.modJobs f).task x = s.task x := rfl
@[simp] theorem State.modAlc_task (s : State) (f : Alc → Alc) (x : Nat) : (s.modAlc f).task x = s.task x := rfl
@[simp] theorem State.modSrv_task (s : State) (f : Servo → Servo) (x : Nat) : (s.modSrv f).task x = s.task x := rfl
@[simp] theorem State.modLoop_task (s : State) (n : Nat) (f : Loop → Loop) (x : Nat) : (s.modLoop n f).task x = s.task x := rfl
@[simp] theorem State.modCap_task (s : State) (u : Nat) (f : Capture → Capture) (x : Nat) : (s.modCap u f).task x = s.task x := rfl
@[simp] theorem State.modDsf_task (s : State) (n : Nat) (f : Dsf → Dsf) (x : Nat) : (s.modDsf n f).task x = s.task x := rfl
@[simp] theorem State.modHa_task (s : State) (f : Ha → Ha) (x : Nat) : (s.modHa f).task x = s.task x := rfl
@[simp] theorem State.modKz_task (s : State) (f : Kz → Kz) (x : Nat) : (s.modKz f).task x = s.task x := rfl
@[simp] theorem State.modKch_task (s : State) (c : Nat) (f : KzCh → KzCh) (x : Nat) : (s.modKch c f).task x = s.task x := rfl
@[simp] theorem State.modGn_task (s : State) (f : Gnss → Gnss) (x : Nat) : (s.modGn f).task x = s.task x := rfl
@[simp] theorem State.modNet_task (s : State) (f : Net → Net) (x : Nat) : (s.modNet f).task x = s.task x := rfl
@[simp] theorem State.modCan_task (s : State) (c : Nat) (f : Can → Can) (x : Nat) : (s.modCan c f).task x = s.task x := rfl
@[simp] theorem State.modCp_task (s : State) (f : Cp → Cp) (x : Nat) : (s.modCp f).task x = s.task x := rfl
@[simp] theorem State.pmu_task (s : State) (n : Nat) (x : Nat) : (s.pmu n).task x = s.task x := by simp [State.task]
@[simp] theorem State.arrive_task (s : State) (n : Nat) (i : Word) (x : Nat) : (s.arrive n i).task x = s.task x := by simp [State.task]
@[simp] theorem State.record_task (s : State) (n : Nat) (i : Word) (k : RecKind) (x : Nat) : (s.record n i k).task x = s.task x := by simp [State.task]
@[simp] theorem State.event_task (s : State) (n : Nat) (i : Word) (k : RecKind) (x : Nat) : (s.event n i k).task x = s.task x := by simp [State.task]
@[simp] theorem State.advanceTo_task (s : State) (n : Nat) (x : Nat) : (s.advanceTo n).task x = s.task x := by simp [State.task]

/-! stream. -/

@[simp] theorem State.setWord_stream (s : State) (a : Nat) (v : Word) (x : Nat) : (s.setWord a v).stream x = s.stream x := rfl
@[simp] theorem State.setShWord_stream (s : State) (a : Nat) (v : Word) (x : Nat) : (s.setShWord a v).stream x = s.stream x := rfl
@[simp] theorem State.set_stream (s : State) (f : Fld) (v : Nat) (x : Nat) : (s.set f v).stream x = s.stream x := rfl
@[simp] theorem State.setFlag_stream (s : State) (f : Fld) (b : Bool) (x : Nat) : (s.setFlag f b).stream x = s.stream x := rfl
@[simp] theorem State.bumpBy_stream (s : State) (f : Fld) (n : Nat) (x : Nat) : (s.bumpBy f n).stream x = s.stream x := rfl
@[simp] theorem State.bump_stream (s : State) (f : Fld) (x : Nat) : (s.bump f).stream x = s.stream x := rfl
@[simp] theorem State.set64_stream (s : State) (a : Nat) (v : Word64) (x : Nat) : (s.set64 a v).stream x = s.stream x := rfl
@[simp] theorem State.seti_stream (s : State) (a : Nat) (v : Int) (x : Nat) : (s.seti a v).stream x = s.stream x := rfl
@[simp] theorem State.setByte_stream (s : State) (a : Nat) (v : Byte) (x : Nat) : (s.setByte a v).stream x = s.stream x := rfl
@[simp] theorem State.requeue_stream (s : State) (l : List Instr) (x : Nat) : (s.requeue l).stream x = s.stream x := rfl
@[simp] theorem State.drawn_stream (s : State) (x : Nat) : (s.drawn).stream x = s.stream x := rfl
@[simp] theorem State.emit_stream (s : State) (o : Output) (x : Nat) : (s.emit o).stream x = s.stream x := rfl
@[simp] theorem State.modTime_stream (s : State) (f : TimeBase → TimeBase) (x : Nat) : (s.modTime f).stream x = s.stream x := rfl
@[simp] theorem State.modPort_stream (s : State) (p : Nat) (f : PtpPort → PtpPort) (x : Nat) : (s.modPort p f).stream x = s.stream x := rfl
@[simp] theorem State.modRef_stream (s : State) (r : Nat) (f : RefSt → RefSt) (x : Nat) : (s.modRef r f).stream x = s.stream x := rfl
@[simp] theorem State.modProc_stream (s : State) (p : Nat) (f : Proc → Proc) (x : Nat) : (s.modProc p f).stream x = s.stream x := rfl
@[simp] theorem State.modRing_stream (s : State) (p l : Nat) (f : Ring → Ring) (x : Nat) : (s.modRing p l f).stream x = s.stream x := rfl
@[simp] theorem State.modPwr_stream (s : State) (f : Power → Power) (x : Nat) : (s.modPwr f).stream x = s.stream x := rfl
@[simp] theorem State.modNvm_stream (s : State) (f : Nvm → Nvm) (x : Nat) : (s.modNvm f).stream x = s.stream x := rfl
@[simp] theorem State.modEst_stream (s : State) (f : Est → Est) (x : Nat) : (s.modEst f).stream x = s.stream x := rfl
@[simp] theorem State.modTrk_stream (s : State) (f : Track → Track) (x : Nat) : (s.modTrk f).stream x = s.stream x := rfl
@[simp] theorem State.modSk_stream (s : State) (f : Sk → Sk) (x : Nat) : (s.modSk f).stream x = s.stream x := rfl
@[simp] theorem State.modJobs_stream (s : State) (f : Jobs → Jobs) (x : Nat) : (s.modJobs f).stream x = s.stream x := rfl
@[simp] theorem State.modAlc_stream (s : State) (f : Alc → Alc) (x : Nat) : (s.modAlc f).stream x = s.stream x := rfl
@[simp] theorem State.modSrv_stream (s : State) (f : Servo → Servo) (x : Nat) : (s.modSrv f).stream x = s.stream x := rfl
@[simp] theorem State.modLoop_stream (s : State) (n : Nat) (f : Loop → Loop) (x : Nat) : (s.modLoop n f).stream x = s.stream x := rfl
@[simp] theorem State.modCap_stream (s : State) (u : Nat) (f : Capture → Capture) (x : Nat) : (s.modCap u f).stream x = s.stream x := rfl
@[simp] theorem State.modDsf_stream (s : State) (n : Nat) (f : Dsf → Dsf) (x : Nat) : (s.modDsf n f).stream x = s.stream x := rfl
@[simp] theorem State.modHa_stream (s : State) (f : Ha → Ha) (x : Nat) : (s.modHa f).stream x = s.stream x := rfl
@[simp] theorem State.modKz_stream (s : State) (f : Kz → Kz) (x : Nat) : (s.modKz f).stream x = s.stream x := rfl
@[simp] theorem State.modKch_stream (s : State) (c : Nat) (f : KzCh → KzCh) (x : Nat) : (s.modKch c f).stream x = s.stream x := rfl
@[simp] theorem State.modGn_stream (s : State) (f : Gnss → Gnss) (x : Nat) : (s.modGn f).stream x = s.stream x := rfl
@[simp] theorem State.modNet_stream (s : State) (f : Net → Net) (x : Nat) : (s.modNet f).stream x = s.stream x := rfl
@[simp] theorem State.modCan_stream (s : State) (c : Nat) (f : Can → Can) (x : Nat) : (s.modCan c f).stream x = s.stream x := rfl
@[simp] theorem State.modBe_stream (s : State) (f : Be → Be) (x : Nat) : (s.modBe f).stream x = s.stream x := rfl
@[simp] theorem State.modTask_stream (s : State) (n : Nat) (f : Task → Task) (x : Nat) : (s.modTask n f).stream x = s.stream x := rfl
@[simp] theorem State.modCp_stream (s : State) (f : Cp → Cp) (x : Nat) : (s.modCp f).stream x = s.stream x := rfl
@[simp] theorem State.pmu_stream (s : State) (n : Nat) (x : Nat) : (s.pmu n).stream x = s.stream x := by simp [State.stream]
@[simp] theorem State.arrive_stream (s : State) (n : Nat) (i : Word) (x : Nat) : (s.arrive n i).stream x = s.stream x := by simp [State.stream]
@[simp] theorem State.record_stream (s : State) (n : Nat) (i : Word) (k : RecKind) (x : Nat) : (s.record n i k).stream x = s.stream x := by simp [State.stream]
@[simp] theorem State.event_stream (s : State) (n : Nat) (i : Word) (k : RecKind) (x : Nat) : (s.event n i k).stream x = s.stream x := by simp [State.stream]
@[simp] theorem State.advanceTo_stream (s : State) (n : Nat) (x : Nat) : (s.advanceTo n).stream x = s.stream x := by simp [State.stream]

/-! loop. -/

@[simp] theorem State.setWord_loop (s : State) (a : Nat) (v : Word) (x : Nat) : (s.setWord a v).loop x = s.loop x := rfl
@[simp] theorem State.setShWord_loop (s : State) (a : Nat) (v : Word) (x : Nat) : (s.setShWord a v).loop x = s.loop x := rfl
@[simp] theorem State.set_loop (s : State) (f : Fld) (v : Nat) (x : Nat) : (s.set f v).loop x = s.loop x := rfl
@[simp] theorem State.setFlag_loop (s : State) (f : Fld) (b : Bool) (x : Nat) : (s.setFlag f b).loop x = s.loop x := rfl
@[simp] theorem State.bumpBy_loop (s : State) (f : Fld) (n : Nat) (x : Nat) : (s.bumpBy f n).loop x = s.loop x := rfl
@[simp] theorem State.bump_loop (s : State) (f : Fld) (x : Nat) : (s.bump f).loop x = s.loop x := rfl
@[simp] theorem State.set64_loop (s : State) (a : Nat) (v : Word64) (x : Nat) : (s.set64 a v).loop x = s.loop x := rfl
@[simp] theorem State.seti_loop (s : State) (a : Nat) (v : Int) (x : Nat) : (s.seti a v).loop x = s.loop x := rfl
@[simp] theorem State.setByte_loop (s : State) (a : Nat) (v : Byte) (x : Nat) : (s.setByte a v).loop x = s.loop x := rfl
@[simp] theorem State.requeue_loop (s : State) (l : List Instr) (x : Nat) : (s.requeue l).loop x = s.loop x := rfl
@[simp] theorem State.drawn_loop (s : State) (x : Nat) : (s.drawn).loop x = s.loop x := rfl
@[simp] theorem State.emit_loop (s : State) (o : Output) (x : Nat) : (s.emit o).loop x = s.loop x := rfl
@[simp] theorem State.modTime_loop (s : State) (f : TimeBase → TimeBase) (x : Nat) : (s.modTime f).loop x = s.loop x := rfl
@[simp] theorem State.modPort_loop (s : State) (p : Nat) (f : PtpPort → PtpPort) (x : Nat) : (s.modPort p f).loop x = s.loop x := rfl
@[simp] theorem State.modRef_loop (s : State) (r : Nat) (f : RefSt → RefSt) (x : Nat) : (s.modRef r f).loop x = s.loop x := rfl
@[simp] theorem State.modProc_loop (s : State) (p : Nat) (f : Proc → Proc) (x : Nat) : (s.modProc p f).loop x = s.loop x := rfl
@[simp] theorem State.modRing_loop (s : State) (p l : Nat) (f : Ring → Ring) (x : Nat) : (s.modRing p l f).loop x = s.loop x := rfl
@[simp] theorem State.modPwr_loop (s : State) (f : Power → Power) (x : Nat) : (s.modPwr f).loop x = s.loop x := rfl
@[simp] theorem State.modNvm_loop (s : State) (f : Nvm → Nvm) (x : Nat) : (s.modNvm f).loop x = s.loop x := rfl
@[simp] theorem State.modFe_loop (s : State) (f : Fe → Fe) (x : Nat) : (s.modFe f).loop x = s.loop x := rfl
@[simp] theorem State.modStream_loop (s : State) (n : Nat) (f : Stream → Stream) (x : Nat) : (s.modStream n f).loop x = s.loop x := rfl
@[simp] theorem State.modEst_loop (s : State) (f : Est → Est) (x : Nat) : (s.modEst f).loop x = s.loop x := rfl
@[simp] theorem State.modTrk_loop (s : State) (f : Track → Track) (x : Nat) : (s.modTrk f).loop x = s.loop x := rfl
@[simp] theorem State.modSk_loop (s : State) (f : Sk → Sk) (x : Nat) : (s.modSk f).loop x = s.loop x := rfl
@[simp] theorem State.modJobs_loop (s : State) (f : Jobs → Jobs) (x : Nat) : (s.modJobs f).loop x = s.loop x := rfl
@[simp] theorem State.modAlc_loop (s : State) (f : Alc → Alc) (x : Nat) : (s.modAlc f).loop x = s.loop x := rfl
@[simp] theorem State.modDsf_loop (s : State) (n : Nat) (f : Dsf → Dsf) (x : Nat) : (s.modDsf n f).loop x = s.loop x := rfl
@[simp] theorem State.modHa_loop (s : State) (f : Ha → Ha) (x : Nat) : (s.modHa f).loop x = s.loop x := rfl
@[simp] theorem State.modKz_loop (s : State) (f : Kz → Kz) (x : Nat) : (s.modKz f).loop x = s.loop x := rfl
@[simp] theorem State.modKch_loop (s : State) (c : Nat) (f : KzCh → KzCh) (x : Nat) : (s.modKch c f).loop x = s.loop x := rfl
@[simp] theorem State.modGn_loop (s : State) (f : Gnss → Gnss) (x : Nat) : (s.modGn f).loop x = s.loop x := rfl
@[simp] theorem State.modNet_loop (s : State) (f : Net → Net) (x : Nat) : (s.modNet f).loop x = s.loop x := rfl
@[simp] theorem State.modCan_loop (s : State) (c : Nat) (f : Can → Can) (x : Nat) : (s.modCan c f).loop x = s.loop x := rfl
@[simp] theorem State.modBe_loop (s : State) (f : Be → Be) (x : Nat) : (s.modBe f).loop x = s.loop x := rfl
@[simp] theorem State.modTask_loop (s : State) (n : Nat) (f : Task → Task) (x : Nat) : (s.modTask n f).loop x = s.loop x := rfl
@[simp] theorem State.modCp_loop (s : State) (f : Cp → Cp) (x : Nat) : (s.modCp f).loop x = s.loop x := rfl
@[simp] theorem State.pmu_loop (s : State) (n : Nat) (x : Nat) : (s.pmu n).loop x = s.loop x := by simp [State.loop]
@[simp] theorem State.arrive_loop (s : State) (n : Nat) (i : Word) (x : Nat) : (s.arrive n i).loop x = s.loop x := by simp [State.loop]
@[simp] theorem State.record_loop (s : State) (n : Nat) (i : Word) (k : RecKind) (x : Nat) : (s.record n i k).loop x = s.loop x := by simp [State.loop]
@[simp] theorem State.event_loop (s : State) (n : Nat) (i : Word) (k : RecKind) (x : Nat) : (s.event n i k).loop x = s.loop x := by simp [State.loop]
@[simp] theorem State.advanceTo_loop (s : State) (n : Nat) (x : Nat) : (s.advanceTo n).loop x = s.loop x := by simp [State.loop]

/-! cap. -/

@[simp] theorem State.setWord_cap (s : State) (a : Nat) (v : Word) (x : Nat) : (s.setWord a v).cap x = s.cap x := rfl
@[simp] theorem State.setShWord_cap (s : State) (a : Nat) (v : Word) (x : Nat) : (s.setShWord a v).cap x = s.cap x := rfl
@[simp] theorem State.set_cap (s : State) (f : Fld) (v : Nat) (x : Nat) : (s.set f v).cap x = s.cap x := rfl
@[simp] theorem State.setFlag_cap (s : State) (f : Fld) (b : Bool) (x : Nat) : (s.setFlag f b).cap x = s.cap x := rfl
@[simp] theorem State.bumpBy_cap (s : State) (f : Fld) (n : Nat) (x : Nat) : (s.bumpBy f n).cap x = s.cap x := rfl
@[simp] theorem State.bump_cap (s : State) (f : Fld) (x : Nat) : (s.bump f).cap x = s.cap x := rfl
@[simp] theorem State.set64_cap (s : State) (a : Nat) (v : Word64) (x : Nat) : (s.set64 a v).cap x = s.cap x := rfl
@[simp] theorem State.seti_cap (s : State) (a : Nat) (v : Int) (x : Nat) : (s.seti a v).cap x = s.cap x := rfl
@[simp] theorem State.setByte_cap (s : State) (a : Nat) (v : Byte) (x : Nat) : (s.setByte a v).cap x = s.cap x := rfl
@[simp] theorem State.requeue_cap (s : State) (l : List Instr) (x : Nat) : (s.requeue l).cap x = s.cap x := rfl
@[simp] theorem State.drawn_cap (s : State) (x : Nat) : (s.drawn).cap x = s.cap x := rfl
@[simp] theorem State.emit_cap (s : State) (o : Output) (x : Nat) : (s.emit o).cap x = s.cap x := rfl
@[simp] theorem State.modTime_cap (s : State) (f : TimeBase → TimeBase) (x : Nat) : (s.modTime f).cap x = s.cap x := rfl
@[simp] theorem State.modPort_cap (s : State) (p : Nat) (f : PtpPort → PtpPort) (x : Nat) : (s.modPort p f).cap x = s.cap x := rfl
@[simp] theorem State.modRef_cap (s : State) (r : Nat) (f : RefSt → RefSt) (x : Nat) : (s.modRef r f).cap x = s.cap x := rfl
@[simp] theorem State.modProc_cap (s : State) (p : Nat) (f : Proc → Proc) (x : Nat) : (s.modProc p f).cap x = s.cap x := rfl
@[simp] theorem State.modRing_cap (s : State) (p l : Nat) (f : Ring → Ring) (x : Nat) : (s.modRing p l f).cap x = s.cap x := rfl
@[simp] theorem State.modPwr_cap (s : State) (f : Power → Power) (x : Nat) : (s.modPwr f).cap x = s.cap x := rfl
@[simp] theorem State.modNvm_cap (s : State) (f : Nvm → Nvm) (x : Nat) : (s.modNvm f).cap x = s.cap x := rfl
@[simp] theorem State.modFe_cap (s : State) (f : Fe → Fe) (x : Nat) : (s.modFe f).cap x = s.cap x := rfl
@[simp] theorem State.modStream_cap (s : State) (n : Nat) (f : Stream → Stream) (x : Nat) : (s.modStream n f).cap x = s.cap x := rfl
@[simp] theorem State.modEst_cap (s : State) (f : Est → Est) (x : Nat) : (s.modEst f).cap x = s.cap x := rfl
@[simp] theorem State.modTrk_cap (s : State) (f : Track → Track) (x : Nat) : (s.modTrk f).cap x = s.cap x := rfl
@[simp] theorem State.modSk_cap (s : State) (f : Sk → Sk) (x : Nat) : (s.modSk f).cap x = s.cap x := rfl
@[simp] theorem State.modJobs_cap (s : State) (f : Jobs → Jobs) (x : Nat) : (s.modJobs f).cap x = s.cap x := rfl
@[simp] theorem State.modAlc_cap (s : State) (f : Alc → Alc) (x : Nat) : (s.modAlc f).cap x = s.cap x := rfl
@[simp] theorem State.modDsf_cap (s : State) (n : Nat) (f : Dsf → Dsf) (x : Nat) : (s.modDsf n f).cap x = s.cap x := rfl
@[simp] theorem State.modHa_cap (s : State) (f : Ha → Ha) (x : Nat) : (s.modHa f).cap x = s.cap x := rfl
@[simp] theorem State.modKz_cap (s : State) (f : Kz → Kz) (x : Nat) : (s.modKz f).cap x = s.cap x := rfl
@[simp] theorem State.modKch_cap (s : State) (c : Nat) (f : KzCh → KzCh) (x : Nat) : (s.modKch c f).cap x = s.cap x := rfl
@[simp] theorem State.modGn_cap (s : State) (f : Gnss → Gnss) (x : Nat) : (s.modGn f).cap x = s.cap x := rfl
@[simp] theorem State.modNet_cap (s : State) (f : Net → Net) (x : Nat) : (s.modNet f).cap x = s.cap x := rfl
@[simp] theorem State.modCan_cap (s : State) (c : Nat) (f : Can → Can) (x : Nat) : (s.modCan c f).cap x = s.cap x := rfl
@[simp] theorem State.modBe_cap (s : State) (f : Be → Be) (x : Nat) : (s.modBe f).cap x = s.cap x := rfl
@[simp] theorem State.modTask_cap (s : State) (n : Nat) (f : Task → Task) (x : Nat) : (s.modTask n f).cap x = s.cap x := rfl
@[simp] theorem State.modCp_cap (s : State) (f : Cp → Cp) (x : Nat) : (s.modCp f).cap x = s.cap x := rfl
@[simp] theorem State.pmu_cap (s : State) (n : Nat) (x : Nat) : (s.pmu n).cap x = s.cap x := by simp [State.cap]
@[simp] theorem State.arrive_cap (s : State) (n : Nat) (i : Word) (x : Nat) : (s.arrive n i).cap x = s.cap x := by simp [State.cap]
@[simp] theorem State.record_cap (s : State) (n : Nat) (i : Word) (k : RecKind) (x : Nat) : (s.record n i k).cap x = s.cap x := by simp [State.cap]
@[simp] theorem State.event_cap (s : State) (n : Nat) (i : Word) (k : RecKind) (x : Nat) : (s.event n i k).cap x = s.cap x := by simp [State.cap]
@[simp] theorem State.advanceTo_cap (s : State) (n : Nat) (x : Nat) : (s.advanceTo n).cap x = s.cap x := by simp [State.cap]

/-! ch. -/

@[simp] theorem State.setWord_ch (s : State) (a : Nat) (v : Word) (x : Nat) : (s.setWord a v).ch x = s.ch x := rfl
@[simp] theorem State.setShWord_ch (s : State) (a : Nat) (v : Word) (x : Nat) : (s.setShWord a v).ch x = s.ch x := rfl
@[simp] theorem State.set_ch (s : State) (f : Fld) (v : Nat) (x : Nat) : (s.set f v).ch x = s.ch x := rfl
@[simp] theorem State.setFlag_ch (s : State) (f : Fld) (b : Bool) (x : Nat) : (s.setFlag f b).ch x = s.ch x := rfl
@[simp] theorem State.bumpBy_ch (s : State) (f : Fld) (n : Nat) (x : Nat) : (s.bumpBy f n).ch x = s.ch x := rfl
@[simp] theorem State.bump_ch (s : State) (f : Fld) (x : Nat) : (s.bump f).ch x = s.ch x := rfl
@[simp] theorem State.set64_ch (s : State) (a : Nat) (v : Word64) (x : Nat) : (s.set64 a v).ch x = s.ch x := rfl
@[simp] theorem State.seti_ch (s : State) (a : Nat) (v : Int) (x : Nat) : (s.seti a v).ch x = s.ch x := rfl
@[simp] theorem State.setByte_ch (s : State) (a : Nat) (v : Byte) (x : Nat) : (s.setByte a v).ch x = s.ch x := rfl
@[simp] theorem State.requeue_ch (s : State) (l : List Instr) (x : Nat) : (s.requeue l).ch x = s.ch x := rfl
@[simp] theorem State.drawn_ch (s : State) (x : Nat) : (s.drawn).ch x = s.ch x := rfl
@[simp] theorem State.emit_ch (s : State) (o : Output) (x : Nat) : (s.emit o).ch x = s.ch x := rfl
@[simp] theorem State.modTime_ch (s : State) (f : TimeBase → TimeBase) (x : Nat) : (s.modTime f).ch x = s.ch x := rfl
@[simp] theorem State.modPort_ch (s : State) (p : Nat) (f : PtpPort → PtpPort) (x : Nat) : (s.modPort p f).ch x = s.ch x := rfl
@[simp] theorem State.modRef_ch (s : State) (r : Nat) (f : RefSt → RefSt) (x : Nat) : (s.modRef r f).ch x = s.ch x := rfl
@[simp] theorem State.modProc_ch (s : State) (p : Nat) (f : Proc → Proc) (x : Nat) : (s.modProc p f).ch x = s.ch x := rfl
@[simp] theorem State.modRing_ch (s : State) (p l : Nat) (f : Ring → Ring) (x : Nat) : (s.modRing p l f).ch x = s.ch x := rfl
@[simp] theorem State.modPwr_ch (s : State) (f : Power → Power) (x : Nat) : (s.modPwr f).ch x = s.ch x := rfl
@[simp] theorem State.modNvm_ch (s : State) (f : Nvm → Nvm) (x : Nat) : (s.modNvm f).ch x = s.ch x := rfl
@[simp] theorem State.modFe_ch (s : State) (f : Fe → Fe) (x : Nat) : (s.modFe f).ch x = s.ch x := rfl
@[simp] theorem State.modStream_ch (s : State) (n : Nat) (f : Stream → Stream) (x : Nat) : (s.modStream n f).ch x = s.ch x := rfl
@[simp] theorem State.modEst_ch (s : State) (f : Est → Est) (x : Nat) : (s.modEst f).ch x = s.ch x := rfl
@[simp] theorem State.modTrk_ch (s : State) (f : Track → Track) (x : Nat) : (s.modTrk f).ch x = s.ch x := rfl
@[simp] theorem State.modSk_ch (s : State) (f : Sk → Sk) (x : Nat) : (s.modSk f).ch x = s.ch x := rfl
@[simp] theorem State.modJobs_ch (s : State) (f : Jobs → Jobs) (x : Nat) : (s.modJobs f).ch x = s.ch x := rfl
@[simp] theorem State.modAlc_ch (s : State) (f : Alc → Alc) (x : Nat) : (s.modAlc f).ch x = s.ch x := rfl
@[simp] theorem State.modSrv_ch (s : State) (f : Servo → Servo) (x : Nat) : (s.modSrv f).ch x = s.ch x := rfl
@[simp] theorem State.modLoop_ch (s : State) (n : Nat) (f : Loop → Loop) (x : Nat) : (s.modLoop n f).ch x = s.ch x := rfl
@[simp] theorem State.modCap_ch (s : State) (u : Nat) (f : Capture → Capture) (x : Nat) : (s.modCap u f).ch x = s.ch x := rfl
@[simp] theorem State.modHa_ch (s : State) (f : Ha → Ha) (x : Nat) : (s.modHa f).ch x = s.ch x := rfl
@[simp] theorem State.modKz_ch (s : State) (f : Kz → Kz) (x : Nat) : (s.modKz f).ch x = s.ch x := rfl
@[simp] theorem State.modKch_ch (s : State) (c : Nat) (f : KzCh → KzCh) (x : Nat) : (s.modKch c f).ch x = s.ch x := rfl
@[simp] theorem State.modGn_ch (s : State) (f : Gnss → Gnss) (x : Nat) : (s.modGn f).ch x = s.ch x := rfl
@[simp] theorem State.modNet_ch (s : State) (f : Net → Net) (x : Nat) : (s.modNet f).ch x = s.ch x := rfl
@[simp] theorem State.modCan_ch (s : State) (c : Nat) (f : Can → Can) (x : Nat) : (s.modCan c f).ch x = s.ch x := rfl
@[simp] theorem State.modBe_ch (s : State) (f : Be → Be) (x : Nat) : (s.modBe f).ch x = s.ch x := rfl
@[simp] theorem State.modTask_ch (s : State) (n : Nat) (f : Task → Task) (x : Nat) : (s.modTask n f).ch x = s.ch x := rfl
@[simp] theorem State.modCp_ch (s : State) (f : Cp → Cp) (x : Nat) : (s.modCp f).ch x = s.ch x := rfl
@[simp] theorem State.pmu_ch (s : State) (n : Nat) (x : Nat) : (s.pmu n).ch x = s.ch x := by simp [State.ch]
@[simp] theorem State.arrive_ch (s : State) (n : Nat) (i : Word) (x : Nat) : (s.arrive n i).ch x = s.ch x := by simp [State.ch]
@[simp] theorem State.record_ch (s : State) (n : Nat) (i : Word) (k : RecKind) (x : Nat) : (s.record n i k).ch x = s.ch x := by simp [State.ch]
@[simp] theorem State.event_ch (s : State) (n : Nat) (i : Word) (k : RecKind) (x : Nat) : (s.event n i k).ch x = s.ch x := by simp [State.ch]
@[simp] theorem State.advanceTo_ch (s : State) (n : Nat) (x : Nat) : (s.advanceTo n).ch x = s.ch x := by simp [State.ch]

/-! kch. -/

@[simp] theorem State.setWord_kch (s : State) (a : Nat) (v : Word) (x : Nat) : (s.setWord a v).kch x = s.kch x := rfl
@[simp] theorem State.setShWord_kch (s : State) (a : Nat) (v : Word) (x : Nat) : (s.setShWord a v).kch x = s.kch x := rfl
@[simp] theorem State.set_kch (s : State) (f : Fld) (v : Nat) (x : Nat) : (s.set f v).kch x = s.kch x := rfl
@[simp] theorem State.setFlag_kch (s : State) (f : Fld) (b : Bool) (x : Nat) : (s.setFlag f b).kch x = s.kch x := rfl
@[simp] theorem State.bumpBy_kch (s : State) (f : Fld) (n : Nat) (x : Nat) : (s.bumpBy f n).kch x = s.kch x := rfl
@[simp] theorem State.bump_kch (s : State) (f : Fld) (x : Nat) : (s.bump f).kch x = s.kch x := rfl
@[simp] theorem State.set64_kch (s : State) (a : Nat) (v : Word64) (x : Nat) : (s.set64 a v).kch x = s.kch x := rfl
@[simp] theorem State.seti_kch (s : State) (a : Nat) (v : Int) (x : Nat) : (s.seti a v).kch x = s.kch x := rfl
@[simp] theorem State.setByte_kch (s : State) (a : Nat) (v : Byte) (x : Nat) : (s.setByte a v).kch x = s.kch x := rfl
@[simp] theorem State.requeue_kch (s : State) (l : List Instr) (x : Nat) : (s.requeue l).kch x = s.kch x := rfl
@[simp] theorem State.drawn_kch (s : State) (x : Nat) : (s.drawn).kch x = s.kch x := rfl
@[simp] theorem State.emit_kch (s : State) (o : Output) (x : Nat) : (s.emit o).kch x = s.kch x := rfl
@[simp] theorem State.modTime_kch (s : State) (f : TimeBase → TimeBase) (x : Nat) : (s.modTime f).kch x = s.kch x := rfl
@[simp] theorem State.modPort_kch (s : State) (p : Nat) (f : PtpPort → PtpPort) (x : Nat) : (s.modPort p f).kch x = s.kch x := rfl
@[simp] theorem State.modRef_kch (s : State) (r : Nat) (f : RefSt → RefSt) (x : Nat) : (s.modRef r f).kch x = s.kch x := rfl
@[simp] theorem State.modProc_kch (s : State) (p : Nat) (f : Proc → Proc) (x : Nat) : (s.modProc p f).kch x = s.kch x := rfl
@[simp] theorem State.modRing_kch (s : State) (p l : Nat) (f : Ring → Ring) (x : Nat) : (s.modRing p l f).kch x = s.kch x := rfl
@[simp] theorem State.modPwr_kch (s : State) (f : Power → Power) (x : Nat) : (s.modPwr f).kch x = s.kch x := rfl
@[simp] theorem State.modNvm_kch (s : State) (f : Nvm → Nvm) (x : Nat) : (s.modNvm f).kch x = s.kch x := rfl
@[simp] theorem State.modFe_kch (s : State) (f : Fe → Fe) (x : Nat) : (s.modFe f).kch x = s.kch x := rfl
@[simp] theorem State.modStream_kch (s : State) (n : Nat) (f : Stream → Stream) (x : Nat) : (s.modStream n f).kch x = s.kch x := rfl
@[simp] theorem State.modEst_kch (s : State) (f : Est → Est) (x : Nat) : (s.modEst f).kch x = s.kch x := rfl
@[simp] theorem State.modTrk_kch (s : State) (f : Track → Track) (x : Nat) : (s.modTrk f).kch x = s.kch x := rfl
@[simp] theorem State.modSk_kch (s : State) (f : Sk → Sk) (x : Nat) : (s.modSk f).kch x = s.kch x := rfl
@[simp] theorem State.modJobs_kch (s : State) (f : Jobs → Jobs) (x : Nat) : (s.modJobs f).kch x = s.kch x := rfl
@[simp] theorem State.modAlc_kch (s : State) (f : Alc → Alc) (x : Nat) : (s.modAlc f).kch x = s.kch x := rfl
@[simp] theorem State.modSrv_kch (s : State) (f : Servo → Servo) (x : Nat) : (s.modSrv f).kch x = s.kch x := rfl
@[simp] theorem State.modLoop_kch (s : State) (n : Nat) (f : Loop → Loop) (x : Nat) : (s.modLoop n f).kch x = s.kch x := rfl
@[simp] theorem State.modCap_kch (s : State) (u : Nat) (f : Capture → Capture) (x : Nat) : (s.modCap u f).kch x = s.kch x := rfl
@[simp] theorem State.modDsf_kch (s : State) (n : Nat) (f : Dsf → Dsf) (x : Nat) : (s.modDsf n f).kch x = s.kch x := rfl
@[simp] theorem State.modHa_kch (s : State) (f : Ha → Ha) (x : Nat) : (s.modHa f).kch x = s.kch x := rfl
@[simp] theorem State.modGn_kch (s : State) (f : Gnss → Gnss) (x : Nat) : (s.modGn f).kch x = s.kch x := rfl
@[simp] theorem State.modNet_kch (s : State) (f : Net → Net) (x : Nat) : (s.modNet f).kch x = s.kch x := rfl
@[simp] theorem State.modCan_kch (s : State) (c : Nat) (f : Can → Can) (x : Nat) : (s.modCan c f).kch x = s.kch x := rfl
@[simp] theorem State.modBe_kch (s : State) (f : Be → Be) (x : Nat) : (s.modBe f).kch x = s.kch x := rfl
@[simp] theorem State.modTask_kch (s : State) (n : Nat) (f : Task → Task) (x : Nat) : (s.modTask n f).kch x = s.kch x := rfl
@[simp] theorem State.modCp_kch (s : State) (f : Cp → Cp) (x : Nat) : (s.modCp f).kch x = s.kch x := rfl
@[simp] theorem State.pmu_kch (s : State) (n : Nat) (x : Nat) : (s.pmu n).kch x = s.kch x := by simp [State.kch]
@[simp] theorem State.arrive_kch (s : State) (n : Nat) (i : Word) (x : Nat) : (s.arrive n i).kch x = s.kch x := by simp [State.kch]
@[simp] theorem State.record_kch (s : State) (n : Nat) (i : Word) (k : RecKind) (x : Nat) : (s.record n i k).kch x = s.kch x := by simp [State.kch]
@[simp] theorem State.event_kch (s : State) (n : Nat) (i : Word) (k : RecKind) (x : Nat) : (s.event n i k).kch x = s.kch x := by simp [State.kch]
@[simp] theorem State.advanceTo_kch (s : State) (n : Nat) (x : Nat) : (s.advanceTo n).kch x = s.kch x := by simp [State.kch]

/-! canC. -/

@[simp] theorem State.setWord_canC (s : State) (a : Nat) (v : Word) (x : Nat) : (s.setWord a v).canC x = s.canC x := rfl
@[simp] theorem State.setShWord_canC (s : State) (a : Nat) (v : Word) (x : Nat) : (s.setShWord a v).canC x = s.canC x := rfl
@[simp] theorem State.set_canC (s : State) (f : Fld) (v : Nat) (x : Nat) : (s.set f v).canC x = s.canC x := rfl
@[simp] theorem State.setFlag_canC (s : State) (f : Fld) (b : Bool) (x : Nat) : (s.setFlag f b).canC x = s.canC x := rfl
@[simp] theorem State.bumpBy_canC (s : State) (f : Fld) (n : Nat) (x : Nat) : (s.bumpBy f n).canC x = s.canC x := rfl
@[simp] theorem State.bump_canC (s : State) (f : Fld) (x : Nat) : (s.bump f).canC x = s.canC x := rfl
@[simp] theorem State.set64_canC (s : State) (a : Nat) (v : Word64) (x : Nat) : (s.set64 a v).canC x = s.canC x := rfl
@[simp] theorem State.seti_canC (s : State) (a : Nat) (v : Int) (x : Nat) : (s.seti a v).canC x = s.canC x := rfl
@[simp] theorem State.setByte_canC (s : State) (a : Nat) (v : Byte) (x : Nat) : (s.setByte a v).canC x = s.canC x := rfl
@[simp] theorem State.requeue_canC (s : State) (l : List Instr) (x : Nat) : (s.requeue l).canC x = s.canC x := rfl
@[simp] theorem State.drawn_canC (s : State) (x : Nat) : (s.drawn).canC x = s.canC x := rfl
@[simp] theorem State.emit_canC (s : State) (o : Output) (x : Nat) : (s.emit o).canC x = s.canC x := rfl
@[simp] theorem State.modTime_canC (s : State) (f : TimeBase → TimeBase) (x : Nat) : (s.modTime f).canC x = s.canC x := rfl
@[simp] theorem State.modPort_canC (s : State) (p : Nat) (f : PtpPort → PtpPort) (x : Nat) : (s.modPort p f).canC x = s.canC x := rfl
@[simp] theorem State.modRef_canC (s : State) (r : Nat) (f : RefSt → RefSt) (x : Nat) : (s.modRef r f).canC x = s.canC x := rfl
@[simp] theorem State.modProc_canC (s : State) (p : Nat) (f : Proc → Proc) (x : Nat) : (s.modProc p f).canC x = s.canC x := rfl
@[simp] theorem State.modRing_canC (s : State) (p l : Nat) (f : Ring → Ring) (x : Nat) : (s.modRing p l f).canC x = s.canC x := rfl
@[simp] theorem State.modPwr_canC (s : State) (f : Power → Power) (x : Nat) : (s.modPwr f).canC x = s.canC x := rfl
@[simp] theorem State.modNvm_canC (s : State) (f : Nvm → Nvm) (x : Nat) : (s.modNvm f).canC x = s.canC x := rfl
@[simp] theorem State.modFe_canC (s : State) (f : Fe → Fe) (x : Nat) : (s.modFe f).canC x = s.canC x := rfl
@[simp] theorem State.modStream_canC (s : State) (n : Nat) (f : Stream → Stream) (x : Nat) : (s.modStream n f).canC x = s.canC x := rfl
@[simp] theorem State.modEst_canC (s : State) (f : Est → Est) (x : Nat) : (s.modEst f).canC x = s.canC x := rfl
@[simp] theorem State.modTrk_canC (s : State) (f : Track → Track) (x : Nat) : (s.modTrk f).canC x = s.canC x := rfl
@[simp] theorem State.modSk_canC (s : State) (f : Sk → Sk) (x : Nat) : (s.modSk f).canC x = s.canC x := rfl
@[simp] theorem State.modJobs_canC (s : State) (f : Jobs → Jobs) (x : Nat) : (s.modJobs f).canC x = s.canC x := rfl
@[simp] theorem State.modAlc_canC (s : State) (f : Alc → Alc) (x : Nat) : (s.modAlc f).canC x = s.canC x := rfl
@[simp] theorem State.modSrv_canC (s : State) (f : Servo → Servo) (x : Nat) : (s.modSrv f).canC x = s.canC x := rfl
@[simp] theorem State.modLoop_canC (s : State) (n : Nat) (f : Loop → Loop) (x : Nat) : (s.modLoop n f).canC x = s.canC x := rfl
@[simp] theorem State.modCap_canC (s : State) (u : Nat) (f : Capture → Capture) (x : Nat) : (s.modCap u f).canC x = s.canC x := rfl
@[simp] theorem State.modDsf_canC (s : State) (n : Nat) (f : Dsf → Dsf) (x : Nat) : (s.modDsf n f).canC x = s.canC x := rfl
@[simp] theorem State.modHa_canC (s : State) (f : Ha → Ha) (x : Nat) : (s.modHa f).canC x = s.canC x := rfl
@[simp] theorem State.modKz_canC (s : State) (f : Kz → Kz) (x : Nat) : (s.modKz f).canC x = s.canC x := rfl
@[simp] theorem State.modKch_canC (s : State) (c : Nat) (f : KzCh → KzCh) (x : Nat) : (s.modKch c f).canC x = s.canC x := rfl
@[simp] theorem State.modGn_canC (s : State) (f : Gnss → Gnss) (x : Nat) : (s.modGn f).canC x = s.canC x := rfl
@[simp] theorem State.modNet_canC (s : State) (f : Net → Net) (x : Nat) : (s.modNet f).canC x = s.canC x := rfl
@[simp] theorem State.modBe_canC (s : State) (f : Be → Be) (x : Nat) : (s.modBe f).canC x = s.canC x := rfl
@[simp] theorem State.modTask_canC (s : State) (n : Nat) (f : Task → Task) (x : Nat) : (s.modTask n f).canC x = s.canC x := rfl
@[simp] theorem State.modCp_canC (s : State) (f : Cp → Cp) (x : Nat) : (s.modCp f).canC x = s.canC x := rfl
@[simp] theorem State.pmu_canC (s : State) (n : Nat) (x : Nat) : (s.pmu n).canC x = s.canC x := by simp [State.canC]
@[simp] theorem State.arrive_canC (s : State) (n : Nat) (i : Word) (x : Nat) : (s.arrive n i).canC x = s.canC x := by simp [State.canC]
@[simp] theorem State.record_canC (s : State) (n : Nat) (i : Word) (k : RecKind) (x : Nat) : (s.record n i k).canC x = s.canC x := by simp [State.canC]
@[simp] theorem State.event_canC (s : State) (n : Nat) (i : Word) (k : RecKind) (x : Nat) : (s.event n i k).canC x = s.canC x := by simp [State.canC]
@[simp] theorem State.advanceTo_canC (s : State) (n : Nat) (x : Nat) : (s.advanceTo n).canC x = s.canC x := by simp [State.canC]

/-! ptpPort. -/

@[simp] theorem State.setWord_ptpPort (s : State) (a : Nat) (v : Word) (x : Nat) : (s.setWord a v).ptpPort x = s.ptpPort x := rfl
@[simp] theorem State.setShWord_ptpPort (s : State) (a : Nat) (v : Word) (x : Nat) : (s.setShWord a v).ptpPort x = s.ptpPort x := rfl
@[simp] theorem State.set_ptpPort (s : State) (f : Fld) (v : Nat) (x : Nat) : (s.set f v).ptpPort x = s.ptpPort x := rfl
@[simp] theorem State.setFlag_ptpPort (s : State) (f : Fld) (b : Bool) (x : Nat) : (s.setFlag f b).ptpPort x = s.ptpPort x := rfl
@[simp] theorem State.bumpBy_ptpPort (s : State) (f : Fld) (n : Nat) (x : Nat) : (s.bumpBy f n).ptpPort x = s.ptpPort x := rfl
@[simp] theorem State.bump_ptpPort (s : State) (f : Fld) (x : Nat) : (s.bump f).ptpPort x = s.ptpPort x := rfl
@[simp] theorem State.set64_ptpPort (s : State) (a : Nat) (v : Word64) (x : Nat) : (s.set64 a v).ptpPort x = s.ptpPort x := rfl
@[simp] theorem State.seti_ptpPort (s : State) (a : Nat) (v : Int) (x : Nat) : (s.seti a v).ptpPort x = s.ptpPort x := rfl
@[simp] theorem State.setByte_ptpPort (s : State) (a : Nat) (v : Byte) (x : Nat) : (s.setByte a v).ptpPort x = s.ptpPort x := rfl
@[simp] theorem State.requeue_ptpPort (s : State) (l : List Instr) (x : Nat) : (s.requeue l).ptpPort x = s.ptpPort x := rfl
@[simp] theorem State.drawn_ptpPort (s : State) (x : Nat) : (s.drawn).ptpPort x = s.ptpPort x := rfl
@[simp] theorem State.emit_ptpPort (s : State) (o : Output) (x : Nat) : (s.emit o).ptpPort x = s.ptpPort x := rfl
@[simp] theorem State.modProc_ptpPort (s : State) (p : Nat) (f : Proc → Proc) (x : Nat) : (s.modProc p f).ptpPort x = s.ptpPort x := rfl
@[simp] theorem State.modRing_ptpPort (s : State) (p l : Nat) (f : Ring → Ring) (x : Nat) : (s.modRing p l f).ptpPort x = s.ptpPort x := rfl
@[simp] theorem State.modPwr_ptpPort (s : State) (f : Power → Power) (x : Nat) : (s.modPwr f).ptpPort x = s.ptpPort x := rfl
@[simp] theorem State.modNvm_ptpPort (s : State) (f : Nvm → Nvm) (x : Nat) : (s.modNvm f).ptpPort x = s.ptpPort x := rfl
@[simp] theorem State.modFe_ptpPort (s : State) (f : Fe → Fe) (x : Nat) : (s.modFe f).ptpPort x = s.ptpPort x := rfl
@[simp] theorem State.modStream_ptpPort (s : State) (n : Nat) (f : Stream → Stream) (x : Nat) : (s.modStream n f).ptpPort x = s.ptpPort x := rfl
@[simp] theorem State.modEst_ptpPort (s : State) (f : Est → Est) (x : Nat) : (s.modEst f).ptpPort x = s.ptpPort x := rfl
@[simp] theorem State.modTrk_ptpPort (s : State) (f : Track → Track) (x : Nat) : (s.modTrk f).ptpPort x = s.ptpPort x := rfl
@[simp] theorem State.modSk_ptpPort (s : State) (f : Sk → Sk) (x : Nat) : (s.modSk f).ptpPort x = s.ptpPort x := rfl
@[simp] theorem State.modJobs_ptpPort (s : State) (f : Jobs → Jobs) (x : Nat) : (s.modJobs f).ptpPort x = s.ptpPort x := rfl
@[simp] theorem State.modAlc_ptpPort (s : State) (f : Alc → Alc) (x : Nat) : (s.modAlc f).ptpPort x = s.ptpPort x := rfl
@[simp] theorem State.modSrv_ptpPort (s : State) (f : Servo → Servo) (x : Nat) : (s.modSrv f).ptpPort x = s.ptpPort x := rfl
@[simp] theorem State.modLoop_ptpPort (s : State) (n : Nat) (f : Loop → Loop) (x : Nat) : (s.modLoop n f).ptpPort x = s.ptpPort x := rfl
@[simp] theorem State.modCap_ptpPort (s : State) (u : Nat) (f : Capture → Capture) (x : Nat) : (s.modCap u f).ptpPort x = s.ptpPort x := rfl
@[simp] theorem State.modDsf_ptpPort (s : State) (n : Nat) (f : Dsf → Dsf) (x : Nat) : (s.modDsf n f).ptpPort x = s.ptpPort x := rfl
@[simp] theorem State.modHa_ptpPort (s : State) (f : Ha → Ha) (x : Nat) : (s.modHa f).ptpPort x = s.ptpPort x := rfl
@[simp] theorem State.modKz_ptpPort (s : State) (f : Kz → Kz) (x : Nat) : (s.modKz f).ptpPort x = s.ptpPort x := rfl
@[simp] theorem State.modKch_ptpPort (s : State) (c : Nat) (f : KzCh → KzCh) (x : Nat) : (s.modKch c f).ptpPort x = s.ptpPort x := rfl
@[simp] theorem State.modGn_ptpPort (s : State) (f : Gnss → Gnss) (x : Nat) : (s.modGn f).ptpPort x = s.ptpPort x := rfl
@[simp] theorem State.modNet_ptpPort (s : State) (f : Net → Net) (x : Nat) : (s.modNet f).ptpPort x = s.ptpPort x := rfl
@[simp] theorem State.modCan_ptpPort (s : State) (c : Nat) (f : Can → Can) (x : Nat) : (s.modCan c f).ptpPort x = s.ptpPort x := rfl
@[simp] theorem State.modBe_ptpPort (s : State) (f : Be → Be) (x : Nat) : (s.modBe f).ptpPort x = s.ptpPort x := rfl
@[simp] theorem State.modTask_ptpPort (s : State) (n : Nat) (f : Task → Task) (x : Nat) : (s.modTask n f).ptpPort x = s.ptpPort x := rfl
@[simp] theorem State.modCp_ptpPort (s : State) (f : Cp → Cp) (x : Nat) : (s.modCp f).ptpPort x = s.ptpPort x := rfl
@[simp] theorem State.pmu_ptpPort (s : State) (n : Nat) (x : Nat) : (s.pmu n).ptpPort x = s.ptpPort x := by simp [State.ptpPort]
@[simp] theorem State.arrive_ptpPort (s : State) (n : Nat) (i : Word) (x : Nat) : (s.arrive n i).ptpPort x = s.ptpPort x := by simp [State.ptpPort]
@[simp] theorem State.record_ptpPort (s : State) (n : Nat) (i : Word) (k : RecKind) (x : Nat) : (s.record n i k).ptpPort x = s.ptpPort x := by simp [State.ptpPort]
@[simp] theorem State.event_ptpPort (s : State) (n : Nat) (i : Word) (k : RecKind) (x : Nat) : (s.event n i k).ptpPort x = s.ptpPort x := by simp [State.ptpPort]

/-! proc. -/

@[simp] theorem State.setWord_proc (s : State) (a : Nat) (v : Word) (x : Nat) : (s.setWord a v).proc x = s.proc x := rfl
@[simp] theorem State.setShWord_proc (s : State) (a : Nat) (v : Word) (x : Nat) : (s.setShWord a v).proc x = s.proc x := rfl
@[simp] theorem State.set_proc (s : State) (f : Fld) (v : Nat) (x : Nat) : (s.set f v).proc x = s.proc x := rfl
@[simp] theorem State.setFlag_proc (s : State) (f : Fld) (b : Bool) (x : Nat) : (s.setFlag f b).proc x = s.proc x := rfl
@[simp] theorem State.bumpBy_proc (s : State) (f : Fld) (n : Nat) (x : Nat) : (s.bumpBy f n).proc x = s.proc x := rfl
@[simp] theorem State.bump_proc (s : State) (f : Fld) (x : Nat) : (s.bump f).proc x = s.proc x := rfl
@[simp] theorem State.set64_proc (s : State) (a : Nat) (v : Word64) (x : Nat) : (s.set64 a v).proc x = s.proc x := rfl
@[simp] theorem State.seti_proc (s : State) (a : Nat) (v : Int) (x : Nat) : (s.seti a v).proc x = s.proc x := rfl
@[simp] theorem State.setByte_proc (s : State) (a : Nat) (v : Byte) (x : Nat) : (s.setByte a v).proc x = s.proc x := rfl
@[simp] theorem State.requeue_proc (s : State) (l : List Instr) (x : Nat) : (s.requeue l).proc x = s.proc x := rfl
@[simp] theorem State.drawn_proc (s : State) (x : Nat) : (s.drawn).proc x = s.proc x := rfl
@[simp] theorem State.emit_proc (s : State) (o : Output) (x : Nat) : (s.emit o).proc x = s.proc x := rfl
@[simp] theorem State.modTime_proc (s : State) (f : TimeBase → TimeBase) (x : Nat) : (s.modTime f).proc x = s.proc x := rfl
@[simp] theorem State.modPort_proc (s : State) (p : Nat) (f : PtpPort → PtpPort) (x : Nat) : (s.modPort p f).proc x = s.proc x := rfl
@[simp] theorem State.modRef_proc (s : State) (r : Nat) (f : RefSt → RefSt) (x : Nat) : (s.modRef r f).proc x = s.proc x := rfl
@[simp] theorem State.modPwr_proc (s : State) (f : Power → Power) (x : Nat) : (s.modPwr f).proc x = s.proc x := rfl
@[simp] theorem State.modNvm_proc (s : State) (f : Nvm → Nvm) (x : Nat) : (s.modNvm f).proc x = s.proc x := rfl
@[simp] theorem State.modFe_proc (s : State) (f : Fe → Fe) (x : Nat) : (s.modFe f).proc x = s.proc x := rfl
@[simp] theorem State.modStream_proc (s : State) (n : Nat) (f : Stream → Stream) (x : Nat) : (s.modStream n f).proc x = s.proc x := rfl
@[simp] theorem State.modEst_proc (s : State) (f : Est → Est) (x : Nat) : (s.modEst f).proc x = s.proc x := rfl
@[simp] theorem State.modTrk_proc (s : State) (f : Track → Track) (x : Nat) : (s.modTrk f).proc x = s.proc x := rfl
@[simp] theorem State.modSk_proc (s : State) (f : Sk → Sk) (x : Nat) : (s.modSk f).proc x = s.proc x := rfl
@[simp] theorem State.modJobs_proc (s : State) (f : Jobs → Jobs) (x : Nat) : (s.modJobs f).proc x = s.proc x := rfl
@[simp] theorem State.modAlc_proc (s : State) (f : Alc → Alc) (x : Nat) : (s.modAlc f).proc x = s.proc x := rfl
@[simp] theorem State.modSrv_proc (s : State) (f : Servo → Servo) (x : Nat) : (s.modSrv f).proc x = s.proc x := rfl
@[simp] theorem State.modLoop_proc (s : State) (n : Nat) (f : Loop → Loop) (x : Nat) : (s.modLoop n f).proc x = s.proc x := rfl
@[simp] theorem State.modCap_proc (s : State) (u : Nat) (f : Capture → Capture) (x : Nat) : (s.modCap u f).proc x = s.proc x := rfl
@[simp] theorem State.modDsf_proc (s : State) (n : Nat) (f : Dsf → Dsf) (x : Nat) : (s.modDsf n f).proc x = s.proc x := rfl
@[simp] theorem State.modHa_proc (s : State) (f : Ha → Ha) (x : Nat) : (s.modHa f).proc x = s.proc x := rfl
@[simp] theorem State.modKz_proc (s : State) (f : Kz → Kz) (x : Nat) : (s.modKz f).proc x = s.proc x := rfl
@[simp] theorem State.modKch_proc (s : State) (c : Nat) (f : KzCh → KzCh) (x : Nat) : (s.modKch c f).proc x = s.proc x := rfl
@[simp] theorem State.modGn_proc (s : State) (f : Gnss → Gnss) (x : Nat) : (s.modGn f).proc x = s.proc x := rfl
@[simp] theorem State.modNet_proc (s : State) (f : Net → Net) (x : Nat) : (s.modNet f).proc x = s.proc x := rfl
@[simp] theorem State.modCan_proc (s : State) (c : Nat) (f : Can → Can) (x : Nat) : (s.modCan c f).proc x = s.proc x := rfl
@[simp] theorem State.modBe_proc (s : State) (f : Be → Be) (x : Nat) : (s.modBe f).proc x = s.proc x := rfl
@[simp] theorem State.modTask_proc (s : State) (n : Nat) (f : Task → Task) (x : Nat) : (s.modTask n f).proc x = s.proc x := rfl
@[simp] theorem State.modCp_proc (s : State) (f : Cp → Cp) (x : Nat) : (s.modCp f).proc x = s.proc x := rfl

/-! The named updates within a frame. -/

theorem frame_drawn {W M : Nat → Prop} {U : List Part} (s : State)  (h : Part.freeCount ∈ U) : Frame W M U s (s.drawn) :=
  ⟨fun _ _ _ => rfl, fun _ _ _ => rfl, fun _ _ _ => rfl, fun u h1 _ _ => by cases u <;> first | exact absurd h h1 | rfl⟩

theorem frame_emit {W M : Nat → Prop} {U : List Part} (s : State) (o : Output) (h : Part.out ∈ U) : Frame W M U s (s.emit o) :=
  ⟨fun _ _ _ => rfl, fun _ _ _ => rfl, fun _ _ _ => rfl, fun u h1 _ _ => by cases u <;> first | exact absurd h h1 | rfl⟩

theorem frame_modTime {W M : Nat → Prop} {U : List Part} (s : State) (f : TimeBase → TimeBase) (h : Part.time ∈ U) : Frame W M U s (s.modTime f) :=
  ⟨fun _ _ _ => rfl, fun _ _ _ => rfl, fun _ _ _ => rfl, fun u h1 _ _ => by cases u <;> first | exact absurd h h1 | rfl⟩

theorem frame_modPort {W M : Nat → Prop} {U : List Part} (s : State) (p : Nat) (f : PtpPort → PtpPort) (h : Part.time ∈ U) : Frame W M U s (s.modPort p f) :=
  ⟨fun _ _ _ => rfl, fun _ _ _ => rfl, fun _ _ _ => rfl, fun u h1 _ _ => by cases u <;> first | exact absurd h h1 | rfl⟩

theorem frame_modRef {W M : Nat → Prop} {U : List Part} (s : State) (r : Nat) (f : RefSt → RefSt) (h : Part.time ∈ U) : Frame W M U s (s.modRef r f) :=
  ⟨fun _ _ _ => rfl, fun _ _ _ => rfl, fun _ _ _ => rfl, fun u h1 _ _ => by cases u <;> first | exact absurd h h1 | rfl⟩

theorem frame_modPwr {W M : Nat → Prop} {U : List Part} (s : State) (f : Power → Power) (h : Part.pwr ∈ U) : Frame W M U s (s.modPwr f) :=
  ⟨fun _ _ _ => rfl, fun _ _ _ => rfl, fun _ _ _ => rfl, fun u h1 _ _ => by cases u <;> first | exact absurd h h1 | rfl⟩

theorem frame_modNvm {W M : Nat → Prop} {U : List Part} (s : State) (f : Nvm → Nvm) (h : Part.nvm ∈ U) : Frame W M U s (s.modNvm f) :=
  ⟨fun _ _ _ => rfl, fun _ _ _ => rfl, fun _ _ _ => rfl, fun u h1 _ _ => by cases u <;> first | exact absurd h h1 | rfl⟩

theorem frame_modFe {W M : Nat → Prop} {U : List Part} (s : State) (f : Fe → Fe) (h : Part.fe ∈ U) : Frame W M U s (s.modFe f) :=
  ⟨fun _ _ _ => rfl, fun _ _ _ => rfl, fun _ _ _ => rfl, fun u h1 _ _ => by cases u <;> first | exact absurd h h1 | rfl⟩

theorem frame_modStream {W M : Nat → Prop} {U : List Part} (s : State) (n : Nat) (f : Stream → Stream) (h : Part.fe ∈ U) : Frame W M U s (s.modStream n f) :=
  ⟨fun _ _ _ => rfl, fun _ _ _ => rfl, fun _ _ _ => rfl, fun u h1 _ _ => by cases u <;> first | exact absurd h h1 | rfl⟩

theorem frame_modEst {W M : Nat → Prop} {U : List Part} (s : State) (f : Est → Est) (h : Part.est ∈ U) : Frame W M U s (s.modEst f) :=
  ⟨fun _ _ _ => rfl, fun _ _ _ => rfl, fun _ _ _ => rfl, fun u h1 _ _ => by cases u <;> first | exact absurd h h1 | rfl⟩

theorem frame_modTrk {W M : Nat → Prop} {U : List Part} (s : State) (f : Track → Track) (h : Part.trk ∈ U) : Frame W M U s (s.modTrk f) :=
  ⟨fun _ _ _ => rfl, fun _ _ _ => rfl, fun _ _ _ => rfl, fun u h1 _ _ => by cases u <;> first | exact absurd h h1 | rfl⟩

theorem frame_modSk {W M : Nat → Prop} {U : List Part} (s : State) (f : Sk → Sk) (h : Part.sk ∈ U) : Frame W M U s (s.modSk f) :=
  ⟨fun _ _ _ => rfl, fun _ _ _ => rfl, fun _ _ _ => rfl, fun u h1 _ _ => by cases u <;> first | exact absurd h h1 | rfl⟩

theorem frame_modJobs {W M : Nat → Prop} {U : List Part} (s : State) (f : Jobs → Jobs) (h : Part.jobs ∈ U) : Frame W M U s (s.modJobs f) :=
  ⟨fun _ _ _ => rfl, fun _ _ _ => rfl, fun _ _ _ => rfl, fun u h1 _ _ => by cases u <;> first | exact absurd h h1 | rfl⟩

theorem frame_modAlc {W M : Nat → Prop} {U : List Part} (s : State) (f : Alc → Alc) (h : Part.alc ∈ U) : Frame W M U s (s.modAlc f) :=
  ⟨fun _ _ _ => rfl, fun _ _ _ => rfl, fun _ _ _ => rfl, fun u h1 _ _ => by cases u <;> first | exact absurd h h1 | rfl⟩

theorem frame_modSrv {W M : Nat → Prop} {U : List Part} (s : State) (f : Servo → Servo) (h : Part.srv ∈ U) : Frame W M U s (s.modSrv f) :=
  ⟨fun _ _ _ => rfl, fun _ _ _ => rfl, fun _ _ _ => rfl, fun u h1 _ _ => by cases u <;> first | exact absurd h h1 | rfl⟩

theorem frame_modLoop {W M : Nat → Prop} {U : List Part} (s : State) (n : Nat) (f : Loop → Loop) (h : Part.srv ∈ U) : Frame W M U s (s.modLoop n f) :=
  ⟨fun _ _ _ => rfl, fun _ _ _ => rfl, fun _ _ _ => rfl, fun u h1 _ _ => by cases u <;> first | exact absurd h h1 | rfl⟩

theorem frame_modCap {W M : Nat → Prop} {U : List Part} (s : State) (u : Nat) (f : Capture → Capture) (h : Part.srv ∈ U) : Frame W M U s (s.modCap u f) :=
  ⟨fun _ _ _ => rfl, fun _ _ _ => rfl, fun _ _ _ => rfl, fun u h1 _ _ => by cases u <;> first | exact absurd h h1 | rfl⟩

theorem frame_modDsf {W M : Nat → Prop} {U : List Part} (s : State) (n : Nat) (f : Dsf → Dsf) (h : Part.dsf ∈ U) : Frame W M U s (s.modDsf n f) :=
  ⟨fun _ _ _ => rfl, fun _ _ _ => rfl, fun _ _ _ => rfl, fun u h1 _ _ => by cases u <;> first | exact absurd h h1 | rfl⟩

theorem frame_modHa {W M : Nat → Prop} {U : List Part} (s : State) (f : Ha → Ha) (h : Part.ha ∈ U) : Frame W M U s (s.modHa f) :=
  ⟨fun _ _ _ => rfl, fun _ _ _ => rfl, fun _ _ _ => rfl, fun u h1 _ _ => by cases u <;> first | exact absurd h h1 | rfl⟩

theorem frame_modKz {W M : Nat → Prop} {U : List Part} (s : State) (f : Kz → Kz) (h : Part.kz ∈ U) : Frame W M U s (s.modKz f) :=
  ⟨fun _ _ _ => rfl, fun _ _ _ => rfl, fun _ _ _ => rfl, fun u h1 _ _ => by cases u <;> first | exact absurd h h1 | rfl⟩

theorem frame_modKch {W M : Nat → Prop} {U : List Part} (s : State) (c : Nat) (f : KzCh → KzCh) (h : Part.kz ∈ U) : Frame W M U s (s.modKch c f) :=
  ⟨fun _ _ _ => rfl, fun _ _ _ => rfl, fun _ _ _ => rfl, fun u h1 _ _ => by cases u <;> first | exact absurd h h1 | rfl⟩

theorem frame_modGn {W M : Nat → Prop} {U : List Part} (s : State) (f : Gnss → Gnss) (h : Part.gn ∈ U) : Frame W M U s (s.modGn f) :=
  ⟨fun _ _ _ => rfl, fun _ _ _ => rfl, fun _ _ _ => rfl, fun u h1 _ _ => by cases u <;> first | exact absurd h h1 | rfl⟩

theorem frame_modNet {W M : Nat → Prop} {U : List Part} (s : State) (f : Net → Net) (h : Part.net ∈ U) : Frame W M U s (s.modNet f) :=
  ⟨fun _ _ _ => rfl, fun _ _ _ => rfl, fun _ _ _ => rfl, fun u h1 _ _ => by cases u <;> first | exact absurd h h1 | rfl⟩

theorem frame_modCan {W M : Nat → Prop} {U : List Part} (s : State) (c : Nat) (f : Can → Can) (h : Part.can ∈ U) : Frame W M U s (s.modCan c f) :=
  ⟨fun _ _ _ => rfl, fun _ _ _ => rfl, fun _ _ _ => rfl, fun u h1 _ _ => by cases u <;> first | exact absurd h h1 | rfl⟩

theorem frame_modBe {W M : Nat → Prop} {U : List Part} (s : State) (f : Be → Be) (h : Part.be ∈ U) : Frame W M U s (s.modBe f) :=
  ⟨fun _ _ _ => rfl, fun _ _ _ => rfl, fun _ _ _ => rfl, fun u h1 _ _ => by cases u <;> first | exact absurd h h1 | rfl⟩

theorem frame_modTask {W M : Nat → Prop} {U : List Part} (s : State) (n : Nat) (f : Task → Task) (h : Part.be ∈ U) : Frame W M U s (s.modTask n f) :=
  ⟨fun _ _ _ => rfl, fun _ _ _ => rfl, fun _ _ _ => rfl, fun u h1 _ _ => by cases u <;> first | exact absurd h h1 | rfl⟩

theorem frame_modCp {W M : Nat → Prop} {U : List Part} (s : State) (f : Cp → Cp) (h : Part.cp ∈ U) : Frame W M U s (s.modCp f) :=
  ⟨fun _ _ _ => rfl, fun _ _ _ => rfl, fun _ _ _ => rfl, fun u h1 _ _ => by cases u <;> first | exact absurd h h1 | rfl⟩

end Sys2Proof.Machine
end

