-- ==== Sys2Proof/Laws/Writes.lean ====
section
/-!
SUPPORT. Guarded writes: a write of a permitted domain to a register whose domain is ON reaches the unit (R14, R357).
-/
namespace Sys2Proof.Machine

/-- A register exists in power domain p, and domain d may write it. -/
def passes (d : Dom) (a p : Nat) : Bool :=
  match regDesc a with
  | none => false
  | some r => r.dom == p && (domIn d r.writers || domIn d r.clearers)

/-- A permitted write to a powered register takes effect. -/
theorem writeGuard_pass (s : State) {d : Dom} {a p : Nat} (f : State → State × CpSt) (h : passes d a p = true)
    (hp : s.domOn p = true) : s.writeGuard d a f = f s := by
  cases hr : regDesc a with
  | none => simp [passes, hr] at h
  | some r =>
    rw [passes, hr] at h
    simp only [Bool.and_eq_true, beq_iff_eq, Bool.or_eq_true] at h
    have h2 : ¬(!(domIn d r.writers || domIn d r.clearers)) = true := by simpa [Classical.or_iff_not_imp_left] using h.2
    rw [State.writeGuard, hr]
    show (if _ then _ else _) = _
    rw [if_neg h2, h.1, if_pos hp]

/-- A keyed write with its key takes effect. -/
theorem keyGuard_pass (s : State) {v : Word} (f : State → State × CpSt) (h : v.toNat / 65536 = 0x5AFE) : s.keyGuard v f = f s := by
  simp [State.keyGuard, h]

/-- A keyed write without its key counts in SYS_KEYERR and is discarded (R13). -/
theorem keyGuard_fail (s : State) {v : Word} (f : State → State × CpSt) (h : v.toNat / 65536 ≠ 0x5AFE) :
    s.keyGuard v f = (s.bump F.SYS_KEYERR_COUNT, .denied) := by
  simp [State.keyGuard, h]

end Sys2Proof.Machine
end

