-- ==== Sys2Proof/Laws/BlockCode.lean ====
section
/-!
SUPPORT. What issuing an instruction, writing a result, a load, a store and a SYS can do (18_block_code).
-/
namespace Sys2Proof.Machine

theorem State.requeue_self (s : State) : s.requeue s.pending = s := rfl

/-- Register values after a register was written: g0 stays 0. -/
theorem Ctx.r_w (k : Ctx) (d x : BitVec 5) (v : Word64) : (k.w d v).r x = if x = d ∧ d ≠ 0 then v else k.r x := by
  unfold Ctx.w Ctx.r
  by_cases h : d = 0
  · have hn : ¬(x = d ∧ d ≠ 0) := fun c => c.2 h
    rw [if_pos h, if_neg hn]
  · rw [if_neg h]
    by_cases hx : x = 0
    · have hn : ¬(x = d ∧ d ≠ 0) := fun c => h (c.1 ▸ hx)
      rw [if_pos hx, if_neg hn, if_pos hx]
    · rw [if_neg hx, if_neg hx]
      show (padMod 0 d.toNat (fun _ => v) k.g).getD x.toNat 0 = _
      rw [getD_padMod]
      by_cases hd : x = d
      · rw [if_pos (by rw [hd]), if_pos ⟨hd, h⟩]
      · rw [if_neg (fun c => hd (BitVec.eq_of_toNat_eq c)), if_neg (fun c => hd c.1)]

@[simp] theorem Ctx.w_pc (k : Ctx) (d : BitVec 5) (v : Word64) : (k.w d v).pc = k.pc := by unfold Ctx.w; split <;> rfl
@[simp] theorem Ctx.w_sat (k : Ctx) (d : BitVec 5) (v : Word64) : (k.w d v).sat = k.sat := by unfold Ctx.w; split <;> rfl
@[simp] theorem Ctx.w_inv (k : Ctx) (d : BitVec 5) (v : Word64) : (k.w d v).inv = k.inv := by unfold Ctx.w; split <;> rfl
@[simp] theorem Ctx.w_iptr (k : Ctx) (d : BitVec 5) (v : Word64) : (k.w d v).iptr = k.iptr := by unfold Ctx.w; split <;> rfl
@[simp] theorem Ctx.w_stack (k : Ctx) (d : BitVec 5) (v : Word64) : (k.w d v).stack = k.stack := by unfold Ctx.w; split <;> rfl

/-- What writing a result does to a context. -/
theorem Ctx.wrote_res (k : Ctx) (d : BitVec 5) (r : FRes) : k.Wrote (k.res d r).next d r.v r.sat r.inv :=
  ⟨fun x => Ctx.r_w k d x r.v, by simp [Ctx.next, Ctx.res, Ctx.stick], by simp [Ctx.next, Ctx.res, Ctx.stick],
    by simp [Ctx.next, Ctx.res, Ctx.stick], by simp [Ctx.next, Ctx.res, Ctx.stick], by simp [Ctx.next, Ctx.res, Ctx.stick]⟩

/-- What writing a register does to a context. -/
theorem Ctx.wrote_w (k : Ctx) (d : BitVec 5) (v : Word64) : k.Wrote (k.w d v).next d v false false :=
  ⟨fun x => Ctx.r_w k d x v, by simp [Ctx.next], by simp [Ctx.next], by simp [Ctx.next], by simp [Ctx.next], by simp [Ctx.next]⟩

theorem Ctx.plain_res (k : Ctx) (d : BitVec 5) (v : Word64) {P : Word64 → Prop} (h : P v) :
    k.Plain d P (k.res d (plainR v)).next := ⟨v, Ctx.wrote_res k d (plainR v), h⟩

theorem Ctx.plain_w (k : Ctx) (d : BitVec 5) (v : Word64) {P : Word64 → Prop} (h : P v) : k.Plain d P (k.w d v).next :=
  ⟨v, Ctx.wrote_w k d v, h⟩

theorem satI_v (x : Int) : (satI x).v.toInt = max (-9223372036854775808) (min 9223372036854775807 x) := by
  simp only [satI, clampI, BitVec.toInt_ofInt]
  apply Int.bmod_eq_of_le <;> norm_num

theorem satI_sat (x : Int) : (satI x).sat = decide (x < -9223372036854775808 ∨ 9223372036854775807 < x) := by
  show decide (max (-9223372036854775808) (min 9223372036854775807 x) ≠ x) = _
  apply decide_eq_decide.2
  omega

/-- A saturating result. -/
theorem Ctx.saturated_satI (k : Ctx) (d : BitVec 5) (x : Int) : k.Saturated d x (k.res d (satI x)).next := by
  refine ⟨(satI x).v, ?_, satI_v x⟩
  have h := Ctx.wrote_res k d (satI x)
  rw [satI_sat] at h
  exact h

/-- A register field outside the bookkeeping is as it was after the issue was counted. -/
theorem book_engine (e : Fin 8) : 8 + e.val < 256 := by omega

theorem running_pmu (s : State) (m n : Nat) (h : m < 256) (hn : n < 8) : (s.pmu m).running n = s.running n := by
  have : (s.pmu m).get (engTask n) = s.get (engTask n) := State.pmu_get s m h (by simp only [Book, engTask]; omega)
  simp [State.running, this]

/-- An instruction that goes on leaves its task's context and counts one issue. -/
theorem issue_ok (s : State) (e : Fin 8) (n : Nat) (f : State → Nat → Ctx → CodeRes) (k : Ctx) (h : s.running e.val = some n)
    (hf : f (s.pmu (8 + e.val)) n (s.task n).ctx = .ok (s.pmu (8 + e.val), k)) :
    s.ends (s.issue e.val f) = .next (s.issued e.val n k) := by
  have hp : (s.issued e.val n k).pending = s.pending := by simp [State.issued]
  have e1 : s.issue e.val f = s.issued e.val n k := by
    simp only [State.issue, h, State.pmu_task, hf, State.issued]
  rw [State.ends, e1, ← hp, State.requeue_self]

/-- An instruction that traps ends its run from the counted state. -/
theorem issue_trap (s : State) (e : Fin 8) (n : Nat) (f : State → Nat → Ctx → CodeRes) (c : Fin 3) (h : s.running e.val = some n)
    (hf : f (s.pmu (8 + e.val)) n (s.task n).ctx = .error (c.val + 1)) :
    s.ends (s.issue e.val f) = .next (((s.pmu (8 + e.val)).trapRun e n (c.val + 1)).requeue s.pending) := by
  simp only [State.ends, State.issue, h, State.pmu_task, hf]

/-- A register instruction. -/
theorem issues_alu (s : State) (e : Fin 8) (n : Nat) (f : Ctx → Ctx) (h : s.running e.val = some n) :
    s.alu e f = .next (s.issued e.val n (f (s.task n).ctx).next) := issue_ok s e n _ _ h rfl

end Sys2Proof.Machine
end

