-- ==== Sys2Proof/Tests/Slice0.lean ====
section
/-!
SUPPORT. Tests: ill-formed commands that WellFormed refuses, words of block code written out from chapter 18, check values of the
Command Port's codes, and for each statement with hypotheses a state and operands that meet them.
-/
set_option maxRecDepth 100000

namespace Sys2Proof.Machine

/-! Well-formed commands: one ill-formed term for each check. -/

theorem test_wf_write_aligned : Instr.wf (.registerWrite .host 0x1500002 0) = false ∧ Instr.wf (.registerWrite .host 0x1500004 0) = true := by decide
theorem test_wf_read_aligned : Instr.wf (.readToClear .host 0x40000001) = false := by decide
theorem test_wf_ping_length : Instr.wf (.ping 0 0 0 (List.replicate 1024 0)) = false := by decide
theorem test_wf_wr_count : Instr.wf (.wrWords 0 0 0 0x1500000 2 [0]) = false ∧ Instr.wf (.wrWords 0 0 0 0x1500000 0 []) = false := by decide
theorem test_wf_img_data : Instr.wf (.imgData 0 0 0 0 []) = false := by decide
theorem test_wf_otp_stage : Instr.wf (.otpStage 0 0 0 0 (List.replicate 511 0)) = false := by decide
theorem test_wf_jamming : Instr.wf (.jammingIndicator []) = false := by decide
theorem test_wf_can_ident : Instr.wf (.canRemoteFrameReceive 0 0x800 false 0 0) = false := by decide
theorem test_wf_can_length : Instr.wf (.canFrameReceive 0 0 false false (List.replicate 9 0) 0) = false := by decide
theorem test_wf_fragment : Instr.wf (.checkpointFrameReceive 0 3 3 0 0 0 false true State.reset.ckptNow) = false := by decide
theorem test_wf_widths : Instr.wf (.sext 0 1 2 4) = false ∧ Instr.wf (.zext 0 1 2 4) = false ∧ Instr.wf (.satn 0 1 2 4) = false ∧ Instr.wf (.frnd 0 1 2 4) = false := by decide
theorem test_wf_burn : Instr.wf (.otpBurnComplete []) = false := by decide

/-! Words of block code, from the worked example of chapter 18. -/

theorem test_word_ld64 : beDecode 0 0x76080000 = some (.ld64 0 1 0 0 0) := by decide
theorem test_word_ldk : beDecode 0 0x4D380007 = some (.ldk 0 7 7) := by decide
theorem test_word_fclt : beDecode 0 0x5D288200 = some (.fclt 0 5 2 1) := by decide
theorem test_word_xori : beDecode 0 0x43318001 = some (.xori 0 6 6 1) := by decide
theorem test_word_and : beDecode 0 0x20210C00 = some (.andB 0 4 4 6) := by decide
theorem test_word_st64 : beDecode 0 0x7B200003 = some (.st64 0 4 0 0 3) := by decide
theorem test_word_lea : beDecode 0 0x7D400005 = some (.lea 0 8 0 0 5) := by decide
theorem test_word_ton : beDecode 0 0x86400000 = some (.ton 0 8) := by decide
theorem test_word_ret : beDecode 0 0x85000000 = some (.ret 0) := by decide

/-! The tables of R301, each entry written out byte by byte from its layout. -/
theorem test_io_entry : (tableEntries 16 4096 [0x68, 0x45, 0x23, 0x01, 0x40, 0, 0, 0, 0x45, 0x23, 0x11, 0x90, 8, 0, 0, 0]).map ioEntOf
    = [⟨0x4001234568, 0x12345, true, false, 9, 8⟩] := by decide
theorem test_symbol_entry : (tableEntries 16 16384 [0x44, 0x33, 0x22, 0x11, 8, 1, 0, 0x27, 0xDD, 0xCC, 0xBB, 0xAA, 0, 0, 0, 0]).map symEntOf
    = [⟨0x11223344, 0x108, true, 3, false, 2, 0xAABBCCDD⟩] := by decide
theorem test_carry_entries : (tableEntries 12 16384 [0x10, 0, 0, 0, 0x20, 0, 0, 0, 4, 0, 0, 0x80, 1, 2, 3]).map carryEntOf
    = [⟨0x10, 0x20, 4, true⟩] := by decide

/-! Codes: CRC-32C and CRC-8 of "123456789", and SHA-256 of "abc" (FIPS 180-4). -/

theorem test_crc32c : crc32c [0x31, 0x32, 0x33, 0x34, 0x35, 0x36, 0x37, 0x38, 0x39] = 0xE3069283 := by decide
theorem test_crc8 : crc8 [0x31, 0x32, 0x33, 0x34, 0x35, 0x36, 0x37, 0x38, 0x39] = 0xF4 := by decide
theorem test_sha256 : (sha256 [0x61, 0x62, 0x63]).take 4 = [0xBA, 0x78, 0x16, 0xBF] := by decide +kernel

/-! Witnesses of the statements' hypotheses. -/

/-! StepRunsFront. -/

theorem queue_cases : ({ State.reset with pending := [.timeNowRead, .cycleTick] } : State).pending = .timeNowRead :: [.cycleTick]
    ∧ State.reset.pending = [] ∧ State.reset.cp.resetDue = false ∧ ∀ p < 5, State.reset.txq p = [] := by decide

/-! QueueDrains. -/

theorem queue_two : 2 ≤ ({ State.reset with pending := [.timeNowRead, .cycleTick] } : State).pending.length := by decide

/-! StoresStayCanonical. -/

theorem canonical_step : State.reset.Canonical ∧ step State.reset = .next State.reset.tick :=
  ⟨by simp [State.Canonical, Nvm.Canonical, State.reset, Nvm.init, Memory.wf, mapWf, mapWfFrom], rfl⟩

/-! OtpBitsStay. -/

theorem canonical_burn : ({ State.reset with pending := [.otpBurnComplete []] } : State).Canonical :=
  by simp [State.Canonical, Nvm.Canonical, State.reset, Nvm.init, Memory.wf, mapWf, mapWfFrom]

/-! JobsStayNumbered. -/

theorem numbered_step : State.reset.JobsNumbered ∧ step State.reset = .next State.reset.tick :=
  ⟨by simp [State.JobsNumbered, State.reset, Jobs.init], rfl⟩

/-! BlockCodeRoundTrip. -/

theorem word_of_add : Instr.wf (.satn 3 1 2 3) = true ∧ beEncode (.satn 3 1 2 3) = some 0x29088003 ∧ beDecode 3 0x29088003 = some (.satn 3 1 2 3) := by decide

/-! CounterOverflow. -/

theorem counter_full : let p := (State.reset.setWord (R.PMU_CNTL 41) 0xFFFFFFFF).setShWord (R.PMU_CNTH 41) 0xFFFF
    let q := p.setFlag (F.PMU_CFG_CHAIN 41) true
    p.flag F.PMU_CTL_FREEZE = false ∧ p.flag (F.PMU_CFG_CHAIN 40) = false ∧ p.pmuVal 41 = 2 ^ 48 - 1 ∧ p.flag (F.PMU_CFG_CHAIN 41) = false
    ∧ q.flag (F.PMU_CFG_CHAIN 41) = true ∧ q.pmuVal 41 = 2 ^ 48 - 1 ∧ q.pmuVal 42 < 2 ^ 48 - 1 := by decide

/-! IntegerSaturates. -/

theorem running_engine0 : (State.reset.set (engTask 0) 3).running 0 = some 3 := by decide

/-! IntegerExactResults. -/

theorem running_engine7 : (State.reset.set (engTask 7) 15).running 7 = some 15 := by decide

/-! DivisionAndRemainder. -/

theorem divisor_zero_and_not : (({ Ctx.init with g := [0, 7, 0] } : Ctx).r 1 ≠ 0) ∧ (({ Ctx.init with g := [0, 7, 0] } : Ctx).r 2 = 0) := by decide

/-! ShiftsRotatesAndWidths. -/

theorem sub_codes : (0xC#4).getLsbD 2 = true ∧ (0xA#4).getLsbD 2 = false ∧ (0xB#4).toNat % 4 = 3 ∧ (0xB#4).getLsbD 2 = false
    ∧ 4 ≤ (4#4).toNat ∧ (2#4).toNat < 3 ∧ (3#4).toNat = 3 := by decide

/-! CompareInstructions. -/

theorem running_engine3 : (State.reset.set (engTask 3) 0).running 3 = some 0 := by decide

/-! ConstantsAddressesAndStatus. -/

theorem ldk_inside_and_outside : (0 : Int) ≤ ((0x1210 - 0x1210 % 8 : Nat) : Int) + (7#19).toInt * 8
    ∧ ((0x1210 - 0x1210 % 8 : Nat) : Int) + (7#19).toInt * 8 < 131072
    ∧ ((0x1210 - 0x1210 % 8 : Nat) : Int) + (0x7FDBD#19).toInt * 8 < 0 := by decide

/-! FloatingArithmetic. -/

theorem float_cases : fisNaN 0x7FF8000000000000 = true ∧ fisFin 0xBFF0000000000000 = true ∧ feq 0xBFF0000000000000 0 = false
    ∧ feq 0x8000000000000000 0 = true ∧ flt 0xBFF0000000000000 0 = true := by decide

/-! FloatingCompareAndConvert. -/

theorem float_parts : up 0x3FF8000000000000 = .fin false 6755399441055744 (-52) ∧ fisNaN 0xFFF8000000000001 = true ∧ fisNaN 0 = false := by decide

/-! LoadsAndTheirTraps. -/

theorem task_with_area : let s : State := { (State.reset.set (engTask 0) 3) with be := { Be.init with set := { progSetNone with globalLen := 64 } } }
    s.running 0 = some 3 ∧ s.instReach 3 56 8 = true ∧ s.instReach 3 64 8 = false := by decide

/-! StoresAndTheirTraps. -/

theorem task_with_output : let s : State := { (State.reset.set (engTask 5) 2) with be := { Be.init with set := { progSetNone with tasks := List.replicate 16 { taskDefNone with outp := (0, 128) } } } }
    s.running 5 = some 2 ∧ (s.taskDef 2).outp.2 = 128 := by decide

/-! BranchesAndCalls. -/

theorem stack_cases : ({ Ctx.init with stack := [(8, 0)] } : Ctx).stack.length < 16
    ∧ 16 ≤ ({ Ctx.init with stack := List.replicate 16 (8, 0) } : Ctx).stack.length ∧ Ctx.init.r 4 = 0 ∧ Ctx.init.stack = [] := by decide

/-! RunEndsAndTraps. -/

theorem running_engine2_decodes : (beDecode 2 0).isSome = true ∧ (beDecode 2 0xFFFFFFFF).isSome = false := by decide
theorem running_engine2 : (State.reset.set (engTask 2) 9).running 2 = some 9 := by decide

/-! LibraryBlocks. -/

theorem instance_in_reach : let s : State := { (State.reset.set (engTask 0) 3) with be := { Be.init with set := { progSetNone with globalLen := 80 } } }
    s.running 0 = some 3 ∧ (List.range 10).all (fun j => s.instReach 3 (8 * j) 8) = true ∧ s.instReach 3 80 8 = false ∧ s.instBase % 8 = 0
    ∧ (s.task 3).ctx.stack.length < 16 ∧ (5#5) ≠ 31 := by decide

/-! LibraryFunctions. -/

theorem function_arguments : fisNaN 0x3FE0000000000000 = false ∧ fisFin 0x7FF0000000000000 = false ∧ flt 0 0x3FE0000000000000 = true
    ∧ fle (0xC000000000000000 &&& 0x7FFFFFFFFFFFFFFF) 0x3FF0000000000000 = false ∧ (31#5) = 31 ∧ (30#5) ≠ 31 := by decide

/-! TaskRuntime. -/

theorem task_states : let on (s : State) : State := (((s.set F.PWR_DOM_STAT_ON 0x3FFF).set F.BE_CTRL_EN 1).set (F.BE_TCFG_EN 4) 1).set ⟨R.SYS_PERSONA, 0, 5⟩ (16 + 2)
    (on State.reset).mayRelease 4 = true ∧ (on State.reset).nextRelease 4 < 2 ^ 64 ∧ (on State.reset).flag (F.BE_TCFG_BASE 4) = false
    ∧ (on State.reset).tState 4 ≤ 1 ∧ (on State.reset).isMaster = false ∧ (on State.reset).flag (F.BE_TCFG_EN 5) = false
    ∧ ((on State.reset).set (F.BE_TSTAT_STATE 4) 5).tState 4 = 5 ∧ ((on State.reset).set (F.BE_TSTAT_STATE 4) 6).tState 4 = 6 := by decide
theorem copy_next : (({ State.reset with be := { Be.init with copies := [⟨7, 3, 4, true, [], false⟩] } } : State).nextCopy) = some (⟨7, 3, 4, true, [], false⟩, 7)
    ∧ (({ State.reset with be := { Be.init with copies := [⟨7, 3, 4, false, [], false⟩] } } : State).nextCopy) = some (⟨7, 3, 4, false, [], false⟩, 7) := by decide

/-- A symbol table of one entry, 16 bytes: ID, address, flags (bit 0 area, bits 2:1 size, bit 3 SAFE, bits 7:4 class), signature. -/
def symRow (ident addr flags : Nat) : List Byte := leBytes 4 ident ++ leBytes 3 addr ++ leBytes 1 flags ++ leBytes 8 0
/-! ForcesAndActivation. -/

theorem force_states : let y : SymEnt := ⟨0, 64, true, 3, false, 0, 0⟩
    let s : State := { (State.reset.set F.PWR_DOM_STAT_ON 4) with be := { Be.init with set := { progSetNone with symBytes := symRow 0 64 7 } } }
    s.domOn 2 = true ∧ s.be.set.syms.find? (fun y => y.ident == s.word R.BE_FNAME) = some y ∧ y.safe = false ∧ s.be.swAt = none ∧ s.be.forces.length < 256
    ∧ (s.modBe fun b => { b with swAt := some 5, staged := some progSetNone }).be.swAt = some 5 ∧ 5 + switchNs progSetNone < 2 ^ 64 := by decide

/-! ServoRequests. -/

theorem servo_requests : let s := (State.reset.set F.PWR_DOM_STAT_ON 0x3FFF)
    s.domOn 8 = true ∧ s.srvState 5 = 0 ∧ (s.loop 5).pend.isSome = false ∧ s.coefOk 5 = true
    ∧ (s.set (F.SRV_LSTAT_STATE 5) 2).srvState 5 = 2 ∧ (s.set (F.SRV_LSTAT_STATE 5) 1).srvState 5 = 1
    ∧ ((s.setShWord (R.SRV_LPH 5) 37).coefOk 5 = false) := by decide

/-! ServoPeriodsAndOutputs. -/

theorem servo_periods : let s := (State.reset.set F.PWR_DOM_STAT_ON 0x3FFF).set (F.SRV_LSTAT_STATE 5) 3
    s.domOn 8 = true ∧ s.nextPeriod 5 < 2 ^ 64 ∧ s.srvState 5 = 3 ∧ s.flag (F.SRV_LSTAT_FB_OK 5) = false
    ∧ max 1 (s.get (F.SRV_LTMO_FB_HOLD 5)) ≤ ({ Loop.init with holdN := 7 } : Loop).holdN + 1 ∧ (s.loop 5).pend = none ∧ (s.loop 5).tripDue = false ∧ (s.loop 5).fbNew = false ∧ (s.loop 5).outAt ≠ some (s.loop 5).perAt
    ∧ ((s.set (F.SRV_LIO_FB_KIND 5) 1).get (F.SRV_LIO_FB_KIND 5) ≠ 0)
    ∧ ((s.set (F.SRV_LCFG_SP_SRC 5) 1).get (F.SRV_LCFG_SP_SRC 5) = 1) ∧ s.flag (F.SRV_LSTAT_SP_STALE 5) = false
    ∧ (s.setFlag (F.SRV_LPL_PL_EN 5) true).flag (F.SRV_LPL_PL_EN 5) = true
    ∧ s.geti (R.SRV_OMIN 5) ≤ s.geti (R.SRV_OMAX 5) := by decide

/-! InjectionCaptureAndEncoders. -/

theorem late_frame : let s := ((((State.reset.set F.PWR_DOM_STAT_ON 0x3FFF).setFlag (F.ENC_CFG_EN 3) true).setFlag (F.ENC_CFG_MODE 3) true).set (F.SRV_LIO_FB_KIND 5) 1).set (F.SRV_LIO_FB_IDX 5) 3
    let s := s.modSrv fun v => { v with ssi := padMod none 3 (fun _ => some ⟨0, 90000, false⟩) v.ssi }
    s.srv.ssi.getD 3 none = some ⟨0, 90000, false⟩ ∧ s.reached ((s.loop 5).perAt + (s.get (F.SRV_LPH_OUT_PH 5) - 38) * 5 / 3) < 90000
    ∧ (s.loop 5).outAt ≠ some (s.loop 5).perAt ∧ s.get (F.SRV_LIO_FB_KIND 5) = 1 ∧ s.get (F.SRV_LIO_FB_IDX 5) = 3 ∧ s.timeRuns = true := by decide
theorem servo_units : let s := (State.reset.set F.PWR_DOM_STAT_ON 0x3FFF).setFlag (F.ENC_CFG_EN 3) true
    s.domOn 8 = true ∧ s.domOn 12 = true ∧ s.flag (F.ENC_CFG_EN 3) = true ∧ s.flag (F.ENC_CFG_MODE 3) = false
    ∧ (s.setFlag (F.ENC_CFG_MODE 3) true).flag (F.ENC_CFG_MODE 3) = true ∧ s.nextPeriod 3 < 2 ^ 64 
    ∧ s.capOk 0 = true ∧ (s.set (F.CAP_LEN_LEN 0) 0x1FFFF).capOk 0 = false ∧ (s.set (F.CAP_STAT_STATE 0) 2).get (F.CAP_STAT_STATE 0) = 2
    ∧ s.now + (sdiff (BitVec.ofNat 48 ((s.word (R.SRV_INJ_TSH 3)).toNat % 65536 * 2 ^ 32 + (s.word (R.SRV_INJ_TSL 3)).toNat)) s.stamp).toNat
        + 2 * (62500 * 2 ^ s.get (F.SRV_LCFG_RATE 3)) < 2 ^ 64 := by decide

/-! FilterControl. -/

theorem filter_control : let s := State.reset.set F.PWR_DOM_STAT_ON 0x3FFF
    let e := s.setFlag (F.DSF_CFG_EN 7) true
    s.domOn 12 = true ∧ s.flag (F.DSF_CFG_EN 7) = false ∧ e.flag (F.DSF_CFG_EN 7) = true ∧ e.get (F.DSF_CFG_SRC 7) ≠ 1
    ∧ (s.setFlag F.DSF_SYNC_CTRL_BALL_EN true).flag F.DSF_SYNC_CTRL_BALL_EN = true
    ∧ (s.setFlag F.DSF_SYNC_CTRL_ARMED true).flag F.DSF_SYNC_CTRL_ARMED = true ∧ sdiff s.syncAt s.stamp ≤ 0
    ∧ s.now + (sdiff s.syncAt s.stamp).toNat < 2 ^ 64 ∧ s.syncEdge = none
    ∧ 0 < sdiff ((s.setWord R.DSF_SYNC_ATL 1000000).syncAt) s.stamp
    ∧ s.get (F.DSF_BANKSTAT_PHASE 7) = 0 ∧ (s.set (F.DSF_BANKSTAT_PHASE 7) 1).get (F.DSF_BANKSTAT_PHASE 7) ≠ 0
    ∧ s.get F.DSF_COEF_SEL_CH < 24 ∧ s.bankIdle 0 false = false ∧ (s.setFlag F.DSF_COEF_SEL_BANK true).bankIdle 0 true = true
    ∧ e.flag (F.DSF_STAT_STUCK 7) = false ∧ (e.setFlag (F.DSF_STAT_STUCK 7) true).flag (F.DSF_STAT_STUCK 7) = true := by decide

/-! FilterSamples. -/

theorem filter_samples : let s := (State.reset.set F.PWR_DOM_STAT_ON 0x3FFF).setFlag (F.DSF_CFG_EN 7) true
    s.domOn 12 = true ∧ s.flag (F.DSF_CFG_EN 7) = true ∧ (s.ch 7).nextAt / 2 < 2 ^ 64 ∧ (s.ch 7).req = none ∧ s.flag (F.DSF_STAT_STUCK 7) = false
    ∧ s.flag (F.DSF_STAT_PROOFED 7) = false ∧ s.get (F.DSF_BANKSTAT_PHASE 7) = 0 ∧ (s.ch 7).left ≤ 1
    ∧ 1 < ((s.modDsf 7 fun c => { c with left := 9 }).ch 7).left ∧ (s.set (F.DSF_BANKSTAT_PHASE 7) 1).get (F.DSF_BANKSTAT_PHASE 7) = 1
    ∧ (let u := (s.set (F.DSF_BANKSTAT_PHASE 7) 2).modDsf 7 fun c => { c with fadeK := 31 }
       u.get (F.DSF_BANKSTAT_PHASE 7) = 2 ∧ u.fadeLen 7 ≤ (u.ch 7).fadeK + 1 ∧ u.flag (F.DSF_BANKSTAT_QVALID 7) = false ∧ (u.ch 7).req = none)
    ∧ ((s.modDsf 7 fun c => { c with skip := 0, rmsN := 2 ^ 10 - 1 }).ch 7).skip = 0
    ∧ 2 ^ (s.get (F.DSF_DETCFG_RMS_W 7) + 4) ≤ ((s.modDsf 7 fun c => { c with skip := 0, rmsN := 2 ^ 10 - 1 }).ch 7).rmsN + dsfDA (s.dcfg 7) * dsfDB (s.dcfg 7) := by decide

/-! SafetyRequestsAndTimers. -/

theorem safety_requests : let s := (State.reset.set F.PWR_DOM_STAT_ON 0x3FFF)
    let r := ((s.setFlag F.SYS_PERSONA_MATCH true).setFlag F.KZ_STAT_SC_ALIVE true).modKz fun k => { k with lowNs := 2000000, authAt := some 0 }
    s.domOn 1 = true ∧ s.domOn 4 = true ∧ s.domOn 5 = true ∧ s.kzState = 0 ∧ s.armReady = false ∧ r.armReady = true ∧ r.kzState = 0
    ∧ r.flag F.KZ_CFG_AUTOARM = true ∧ (r.set F.KZ_STAT_STATE 1).kzState = 1 ∧ (r.set F.KZ_STAT_STATE 2).kzState = 2
    ∧ (let u := r.set F.KZ_STAT_STATE 2
       u.kz.degAt + u.degMax < 2 ^ 64 ∧ u.get F.KZ_FAULT_ACTIVE = 0 ∧ u.timeRuns = true ∧ u.reached (u.kz.clrAt + u.get F.KZ_TIME_CLR_MS * 1000000) < u.kz.degAt + u.degMax)
    ∧ (r.set F.KZ_TRIP_TRIP 8).get F.KZ_TRIP_TRIP / 2 ^ 3 % 2 = 1 ∧ r.get F.KZ_SLTV_V = 0 ∧ r.get F.KZ_SSEV_V = 0
    ∧ (∀ x ∈ r.kz.rbNs, x < 50000) ∧ r.paramBad = false ∧ r.now < r.kz.scAt + 300000 ∧ (r.pwr.image.kz.map (·.1)).Nodup
    ∧ r.kz.authAt = some 0 ∧ (r.set ⟨R.SYS_PERSONA, 0, 5⟩ (16 + 2)).isMaster = false := by decide

/-! LatticeEvaluationAndTrips. -/

theorem lattice_evaluation : let s := (State.reset.set F.PWR_DOM_STAT_ON 0x3FFF)
    let e := ((((((s.setFlag (F.KZ_CH_EN 3) true).setFlag (F.KZ_CH_OUTCHK 3) true).set (F.KZ_CH_OUT_IDX 3) 4).setFlag (F.DSF_BOUT_CFG_EN 4) true).setWord
      (R.DSF_BOUT_VAL 4) 0x400000).setFlag F.KZ_SRT_SRT_EN true).modKch 3 fun q => { q with sltL := 99990000, sltGraceAt := some 0, graceAt := [some 0, none, none, none] }
    let f := e.modKz fun q => { q with swL := List.replicate 16 true, swC := List.replicate 16 true, rbNs := List.replicate 16 40000, cmpNs := 49990000, discAt := List.replicate 8 (some 0), srtL := 199 }
    f.domOn 5 = true ∧ f.now + 300000000 < 2 ^ 64 ∧ f.flag (F.KZ_CH_EN 3) = true ∧ f.flag (F.KZ_CH_OUTCHK 3) = true ∧ f.kzState ≠ 2
    ∧ above (f.tap 3).1 (f.tap 3).2.1 (f.get (F.KZ_LIM_OUT_LIM 3)) = true ∧ max 1 (f.get F.KZ_PERS_SLT_MS) * 1000000 ≤ (f.kch 3).sltL + 10000
    ∧ max 1 (f.get F.KZ_PERS_CMP_MS) * 1000000 ≤ f.kz.cmpNs + 10000 ∧ 40000 ≤ f.kz.rbNs.getD 2 0
    ∧ (0#16).getLsbD 2 ≠ (f.kz.swL.getD 2 false && f.kz.swC.getD 2 false) ∧ f.get F.KZ_OPT_OPT_EN / 2 ^ 2 % 2 = 1
    ∧ f.kz.discAt.getD 3 none = some 0 ∧ f.flag F.KZ_SRT_SRT_EN = true ∧ max 1 (f.get F.KZ_PERS_SRT_MS) ≤ f.kz.srtL + 1
    ∧ (f.set F.KZ_STAT_STATE 1).kzState = 1 ∧ (f.kch 3).sltGraceAt = some 0 ∧ f.get (F.KZ_CST_GRACE 3) = 0
    ∧ (let g := (f.set (F.KZ_CST_GRACE 3) 1).set (F.KZ_CST_ACTIVE 3) 1
       (g.kch 3).graceAt.getD 0 none = some 0 ∧ g.get (F.KZ_CST_GRACE 3) / 2 ^ 0 % 2 = 1 ∧ g.get (F.KZ_CST_ACTIVE 3) / 2 ^ 0 % 2 = 1)
    ∧ (let g := (s.setWord R.KZ_SRT_GAIN 0x3F800000)
       flt (f32to64 (g.word R.KZ_SRT_LIM)) (fabs (g.srtRate 0x400000)) = true)
    ∧ (Kz.init.rateBit true).rPhase = 1 ∧ { Kz.init with rSum := 0x1400000, rN := 5 }.rateMean = 0x400000 := by decide

/-! PairLinesAndCommands. -/

theorem pair_lines : let s := (State.reset.set F.PWR_DOM_STAT_ON 0x3FFF).set ⟨R.SYS_PERSONA, 0, 5⟩ (16 + 0)
    let act := s.set F.HA_STAT_STATE 2
    let run := s.setFlag F.SYS_CYC_CTRL_RUN true
    s.haOn = true ∧ s.pairEn = true ∧ s.hbSends = true ∧ s.now + 4000 < 2 ^ 64 ∧ s.haState = 0 ∧ act.haState = 2 ∧ s.run = false ∧ run.run = true
    ∧ s.hbValid (0x00#8 ++ 0x00#8 ++ 0x00000005#32 ++ 0x00#8 ++ 0x05#8 ++ 0xC5#8) = false
    ∧ run.haTerm < 0xFFFFFFFF ∧ run.drivingHeard = false ∧ run.ckUsable = false ∧ s.flag F.HA_CFG_PAIR_EN = true
    ∧ (act.setFlag F.HA_STAT_PCKOK true).flag F.HA_STAT_PCKOK = true ∧ (act.set F.HA_STAT_PSTATE 0).get F.HA_STAT_PSTATE = 0
    ∧ s.gnSleeps = true ∧ s.ha.refreshing = false ∧ s.get F.HA_CFG_REFRESH_MIN ≠ 0
    ∧ s.ha.refreshAt + min 239 (s.get F.HA_CFG_REFRESH_MIN) * 60000000000 < 2 ^ 64
    ∧ (let l : Line := ⟨[], true, 2, 0⟩
       let u := act.modHa fun h => { h with lines := [l, l], bothN := 2 }
       u.pairEn = true ∧ (u.line 0).loses u.perStart = true ∧ u.bothNext u.perStart = 3)
    ∧ (let u := s.modHa fun h => { h with lines := [⟨[(0, 0)], false, 3, 15⟩, ⟨[], false, 3, 0⟩], bothN := 9 }
       (u.line 0).returns u.perStart u.retN = true ∧ u.bothNext u.perStart = 0)
    ∧ ((s.modHa fun h => { h with ckRecv := some (3, 1) }).ha.ckRecv = some (3, 1) ∧ s.ha.ckSkip ≠ some 4 ∧ (4#32 - 3#32).toInt = 1 ∧ (2#32 - 3#32).toInt = -1) := by decide
theorem pair_heartbeat : let s := ((State.reset.set F.PWR_DOM_STAT_ON 0x3FFF).set ⟨R.SYS_PERSONA, 0, 5⟩ (16 + 0)).set F.SYS_PERSONA_NODE_ID 0
    let b : BitVec 64 := 0x00#8 ++ 0x00000005#32 ++ 0x00#8 ++ 0x05#8 ++ 0xC5#8
    s.hbValid (crc8 (leBytes 8 b.toNat) ++ b) = true ∧ s.netUp 2 = false ∧ (s.setFlag (F.NET_CFG_EN 2) true).netUp 2 = true := by decide

/-! SeizureOnSilence. -/

theorem seizure_on_silence : let l : Line := ⟨[], true, 2, 0⟩
    let c : Ckpt := ⟨0, 3, 1, [], ⟨[5], [], true, true, none, 0, 0, 0, true, none⟩, [], [], [], 77, State.reset.sk, [], [], [], 0, [], true, false, []⟩
    let s := ((State.reset.set F.PWR_DOM_STAT_ON 0x3FFF).set ⟨R.SYS_PERSONA, 0, 5⟩ (16 + 0)).modHa fun h => { h with lines := [l, l], bothN := 2, ckHeld := some (c, 100) }
    s.pairEn = true ∧ s.bothNext s.perStart = 3 ∧ s.haState = 0 ∧ s.ha.ckHeld = some (c, 100) ∧ s.ckUsable = true ∧ s.haTerm < 0xFFFFFFFF
    ∧ s.perStart + 4000 < 2 ^ 64 := by decide

/-! TwinFramesAndPorts. -/

theorem twin_ports : let s := ((State.reset.set F.PWR_DOM_STAT_ON 0x3FFF).setFlag (F.NET_CFG_EN 0) true).setFlag (F.ZAL_TLM_CFG_EN 3) true
    s.domOn 11 = true ∧ s.domOn 12 = true ∧ s.netUp 0 = true ∧ crcOk [] = false ∧ (∀ q ∈ s.net.twin, s.now ≤ q.openAt + q.win)
    ∧ s.cycNum.toNat % max 1 (s.get (F.ZAL_TLM_CFG_PERIOD 3)) = 0 ∧ s.net.tlmAt.getD 3 none ≠ some s.cycNum ∧ 3 < s.net.tlmAt.length
    ∧ s.t0 + s.get (F.ZAL_TLM_PH_PH_US 3) * 1000 < 2 ^ 64 ∧ s.txq 0 = [] ∧ s.flag (F.NET_STAT_LINK 0) ≠ true
    ∧ (s.modHa fun h => { h with relayDue := some 3500 }).ha.relayDue = some 3500
    ∧ (let q : TwinPend := ⟨1, 0, 7, [], 0, 0, 2000000, false, true⟩
       (s.modNet fun x => { x with twin := [q] }).firstPend = some q)
    ∧ (let e : TxEnt := ⟨some 1000, false, 5, 0x88B5, [1], none, 0, .none⟩
       let u := s.modNet fun x => { x with tx := [[e]] }
       u.dueEnt 0 = some e ∧ u.launchAt e = some 1000) := by decide
theorem twin_copy_checked : let s := ((((State.reset.set F.PWR_DOM_STAT_ON 0x3FFF).setFlag (F.NET_CFG_EN 0) true).set ⟨R.SYS_PERSONA, 0, 5⟩ (16 + 0)).set F.SYS_PERSONA_NODE_ID 0)
    let u := { s with fe := { s.fe with peers := [⟨5, 1, true, 1, 1, 0, 0, 0⟩] } }
    let h := leBytes 1 1 ++ leBytes 1 zCAP ++ leBytes 2 1 ++ leBytes 2 5 ++ leBytes 2 0x3FF ++ leBytes 4 9 ++ leBytes 2 3 ++ leBytes 2 4 ++ leBytes 4 0 ++ leBytes 2 0 ++ leBytes 2 0 ++ [1, 2, 3, 4]
    let b := h ++ leBytes 4 (safetyCode (u.word R.ZAL_SIG) h).toNat
    let b := b ++ leBytes 4 (crc32c b).toNat
    let z := zRead b
    crcOk b = true ∧ z.ver = 1 ∧ z.flags % 2 = 1 ∧ u.safetyOk b = true ∧ z.dst = 0x3FF ∧ u.twinAllowed z = true ∧ z.typ = zCAP
    ∧ u.seenOf z.src = none ∧ u.net.twin = [] := by decide

/-! GnssReceiver. -/

theorem gnss_receiver : let s := State.reset.set F.PWR_DOM_STAT_ON 0x3FFF
    let m := s.setFlag F.GN_CFG_AUTO false
    let w : Word := 0x80000000 ||| (0 + 4 * 5 + 2 ^ 15 + 2 ^ 19 * 10)
    s.domOn 9 = true ∧ s.domOn 10 = true ∧ s.now + 2000000000 < 2 ^ 64 ∧ s.flag F.GN_CFG_AUTO = true ∧ m.flag F.GN_CFG_AUTO = false
    ∧ m.gn.acq.length < 16 ∧ acqOk w (m.word R.GN_ACQ_DOP) = true ∧ acqOk 0x80000000 (m.word R.GN_ACQ_DOP) = false
    ∧ m.gn.searching = none ∧ m.gn.acq = []
    ∧ ((m.modGn fun g => { g with searching := some (w, 0, 0, true) }).gn.searching = some (w, 0, 0, true)) ∧ 0 + acqNs w 0 < 2 ^ 64
    ∧ signalOk ((F.GN_CH_CTRL_SYS 7).of 41) ((F.GN_CH_CTRL_SV 7).of 41) ((F.GN_CH_CTRL_SIG 7).of 41) = true ∧ (41 : Word).getLsbD 0 = true
    ∧ s.get (F.GN_CH_STAT_STATE 7) = 0 ∧ (s.set (F.GN_CH_STAT_STATE 7) 1).get (F.GN_CH_STAT_STATE 7) = 1
    ∧ (s.set (F.GN_CH_STAT_STATE 7) 3).get (F.GN_CH_STAT_STATE 7) = 3
    ∧ (s.modGn fun g => { g with lostAt := [(7, 5)] }).gn.lostAt.find? (fun e => e.1 == 7) = some (7, 5)
    ∧ (s.setFlag (F.GN_ANT_BIAS_EN 1) true).flag (F.GN_ANT_BIAS_EN 1) = true
    ∧ (s.set (F.GN_WB_CFG_MODE 8) 2).get (F.GN_WB_CFG_MODE 8) = 2 ∧ ((100 : Int) - s.wbCtr 8).natAbs ≤ s.get (F.GN_WB_CFG_SPAN_KHZ 8)
    ∧ s.get F.GN_TQ_TQ = 0 ∧ (s.set F.GN_TQ_TQ 1).get F.GN_TQ_TQ = 1 ∧ (s.set F.GN_TQ_TQ 2).get F.GN_TQ_TQ = 2 := by decide

/-! TimeBase. -/

theorem time_base : let s := (State.reset.set F.PWR_DOM_STAT_ON 0x3FFF)
    let p := (s.set F.TIME_REF_PRI 2).set F.TIME_REF_SEC 0
    let u := p.modTime fun t => { t with ptp := { t.ptp with since := some 5 }, measured := true, slewRem := 2 ^ 40, pps := [⟨true, 10, some 0, none, false⟩, ⟨true, 10, some 0, none, true⟩], tcap := [[], [(7, 3)]] }
    s.domOn 11 = true ∧ s.tq = 0 ∧ s.run = false ∧ p.priRef = 2 ∧ p.secRef = 0 ∧ (p.set F.TIME_STAT_TQ 1).tq = 1 ∧ (p.set F.TIME_STAT_TQ 2).tq = 2
    ∧ ((0 : Int).natAbs ≤ p.jumpMax) ∧ (p.jumpMax < (20000 : Int).natAbs) ∧ (p.set F.TIME_STAT_SRC 2).get F.TIME_STAT_SRC = 2
    ∧ u.time.ptp.since = some 5 ∧ 5 + u.lossNs < 2 ^ 64 ∧ (u.set F.TIME_STAT_TQ 3).tq = 3
    ∧ (u.fineAfter ((u.time.slewRem.natAbs - 20 * 2 ^ 32 + u.time.phase.natAbs - 1) / u.time.phase.natAbs) + (2 ^ 32 - 1)) / 2 ^ 32 < 2 ^ 64 ∧ (u.fineAfter (u.ppsOut 1).ticks + (2 ^ 32 - 1)) / 2 ^ 32 < 2 ^ 64 ∧ u.time.measured = true
    ∧ (s.setFlag F.SYS_CYC_CTRL_RUN true).run = true ∧ (s.set F.TIME_REF_PRI 0).priRef = 0 ∧ s.time.leapRef = false
    ∧ (s.modTime fun t => { t with leapRef := true }).time.leapRef = true ∧ (s.set F.TIME_LEAP_PEND 1).get F.TIME_LEAP_PEND = 1
    ∧ s.time.leapAt < 2 ^ 64 ∧ (s.setFlag (F.TIME_PPS_CFG_EN 1) true).flag (F.TIME_PPS_CFG_EN 1) = true ∧ s.ppsNext 1 < 2 ^ 64
    ∧ (u.ppsOut 1).high = true ∧ u.ppsNext 1 + 10 < 2 ^ 64 ∧ (s.set (F.TCAP_CFG_EDGE 2) 3).get (F.TCAP_CFG_EDGE 2) = 3 ∧ s.time.tcapLast.getD 2 none = none ∧ s.time.tcapEdge.getD 2 none = none
    ∧ s.get (F.TCAP_CFG_EDGE 2) = 0 ∧ s.time.tcap.getD 2 [] = [] ∧ u.time.tcap.getD 1 [] = (7, 3) :: [] := by decide

/-! PtpPorts. -/

theorem ptp_ports : let s := ((State.reset.set F.PWR_DOM_STAT_ON 0x3FFF).set F.TIME_PTP_ROLE 3).set (F.NET_CFG_EN 1) 1
    let u := s.modPort 1 fun x => { x with syncWait := some (9, 5), dreq := some (9, 6), lastSync := some (1, 2), pdreq := some (9, 3), pdwait := some (9, 1, 2, 3) }
    s.ptpRuns 1 = true ∧ (s.set (F.TIME_PTP_ST_PSTATE 1) 3).pstate 1 = 3 ∧ (s.set (F.TIME_PTP_ST_PSTATE 1) 2).pstate 1 = 2
    ∧ s.flag (F.TIME_PTP_CFG_P2P 1) = false ∧ (s.setFlag (F.TIME_PTP_CFG_P2P 1) true).flag (F.TIME_PTP_CFG_P2P 1) = true ∧ s.txq 1 = []
    ∧ (u.ptpPort 1).syncWait = some ((9 : BitVec 16).toNat, 5) ∧ (u.ptpPort 1).dreq = some ((9 : BitVec 16).toNat, 6)
    ∧ (u.ptpPort 1).lastSync = some (1, 2) ∧ (u.ptpPort 1).pdreq = some ((9 : BitVec 16).toNat, 3)
    ∧ (u.ptpPort 1).pdwait = some ((9 : BitVec 16).toNat, 1, 2, 3) := by decide

def ingressText (l : List Nat) : List Byte :=
  let t : List Byte := l.map fun c => BitVec.ofNat 8 c
  let x := (t.foldl (· ^^^ ·) 0#8).toNat
  let h (d : Nat) : Byte := BitVec.ofNat 8 (if d < 10 then 48 + d else 55 + d)
  [36] ++ t ++ [42, h (x / 16), h (x % 16), 13, 10]
/-- GPHDT,90.0,T -/
def ingressHdt : List Byte := ingressText [71, 80, 72, 68, 84, 44, 57, 48, 46, 48, 44, 84]
def ingressFrame : List Byte :=
  let b : List Byte := leBytes 2 0x5CA9 ++ [1, 0] ++ leBytes 2 9 ++ leBytes 2 28 ++ leBytes 8 77 ++ leBytes 24 5 ++ leBytes 4 1
  b ++ leBytes 4 (crc32c b).toNat
def ingressRtcm : List Byte :=
  let b : List Byte := [0xD3, 0, 4, 0x43, 0x20, 1, 2]
  b ++ (leBytes 3 (crc24q b).toNat).reverse
def ingressOn (kind port typ : Nat) : State :=
  (((((State.reset.set F.PWR_DOM_STAT_ON 0x3FFF).setFlag (F.UART_CFG_EN 3) true).setFlag (F.FE_SC_CFG_EN 9) true).set (F.FE_SC_CFG_SRC_KIND 9) kind).set
    (F.FE_SC_CFG_SRC_PORT 9) port).set (F.FE_SC_CFG_TYPE 9) typ
/-! StreamIngress. -/

theorem ingress_sentence : let s := ingressOn 1 3 4
    let x := readSentence (ingressHdt.map (s.uartBits 3))
    let g : GstWait := ⟨1, 3, 0x5047, 0, none, true, []⟩
    s.flag (F.UART_CFG_EN 3) = true ∧ s.get (F.UART_CFG_PARSE 3) = 0 ∧ (9, 4) ∈ s.sentenceStreams 1 3 x ∧ x.chars ≤ 82 ∧ x.proprietary = false
    ∧ x.sel = 4 ∧ x.sum = some true ∧ x.void = false ∧ (x.vals.lookup 4).isSome = true ∧ (s.stream 9).queue = []
    ∧ ({ s with fe := { s.fe with gst := [g] } }).gstOldest = some g := by decide
theorem ingress_refused : let s := ingressOn 1 3 4
    let x := readSentence ((ingressHdt.set 7 49).map (s.uartBits 3))
    let y := readSentence ((ingressText [71, 80, 72, 68, 84, 44, 44, 84]).map (s.uartBits 3))
    let z := readSentence ((ingressText [71, 80, 71, 83, 84, 44, 49, 50, 44, 44, 44, 44, 44, 49, 44, 50, 44, 51]).map (s.uartBits 3))
    (9, 4) ∈ s.sentenceStreams 1 3 x ∧ x.sum = some false ∧ (9, 4) ∈ s.sentenceStreams 1 3 y ∧ y.sum = some true ∧ y.vals.lookup 4 = none
    ∧ z.sel = 3 ∧ z.sum = some true ∧ z.chars ≤ 82 ∧ z.proprietary = false := by decide
theorem ingress_binary : let s := (ingressOn 1 3 6).set (F.UART_CFG_PARSE 3) 1
    let b := ingressFrame.map (s.uartBits 3)
    s.get (F.UART_CFG_PARSE 3) = 1 ∧ leNat (b.take 2) = 0x5CA9 ∧ 9 ∈ streamIds ∧ s.bound 9 1 3 (kindType (leNat ((b.drop 2).take 1))) = true
    ∧ s.selOk 9 1 = true ∧ s.instOk 9 0 = true ∧ leNat ((b.drop (b.length - 4)).take 4) = (crc32c (b.take (b.length - 4))).toNat
    ∧ binLenOk b = true ∧ binValid b = true := by decide
theorem ingress_rtcm : let s := (ingressOn 1 3 10).set (F.UART_CFG_PARSE 3) 2
    let b := ingressRtcm.map (s.uartBits 3)
    s.get (F.UART_CFG_PARSE 3) = 2 ∧ s.corrStream = some 9 ∧ s.bound 9 1 3 10 = true ∧ b.length = 4 + 6
    ∧ (crc24q (b.take 7)).toNat = leNat (b.drop 7).reverse ∧ leNat ((b.drop 3).take 2).reverse / 16 = 1074 ∧ rtcmOk 1074 = true ∧ rtcmOk 1075 = false := by decide
theorem ingress_pgn : let s := ((ingressOn 2 1 4).setFlag (F.CAN_CFG_EN 1) true).setFlag (F.CAN_CFG_PROFILE 1) true
    let e : FastPkt := ⟨1, 5, 129029, 0, 1, 43, 7, 0, []⟩
    s.n2kOn 1 = true ∧ s.canHears 1 = true ∧ s.canTalks 1 = true ∧ (s.set (F.CAN_CFG_MODE 1) 1).canTalks 1 = false ∧ (s.set (F.CAN_CFG_MODE 1) 1).canHears 1 = true ∧ 9 ∈ s.pgnStreams 1 127250 5 ∧ (s.can.getD 1 .init).sa ≠ 5 ∧ ({ s with fe := { s.fe with fast := [e] } }).fastOldest = some e
    ∧ (readPgn 127250 [0, 1, 2, 0, 0, 0, 0, 0]).void = false ∧ (readPgn 127250 [0, 1, 2, 0, 0, 0, 0, 1]).void = true
    ∧ (s.setFlag (F.CAN_NAMEST_EN 1 4) true).word (R.CAN_NAMEH 1 4) ++ (s.setFlag (F.CAN_NAMEST_EN 1 4) true).word (R.CAN_NAMEL 1 4) = (0 : Word64) := by decide
theorem ingress_flow : let s := ((ingressOn 3 2 4).setFlag (F.NET_CFG_EN 1) true).setFlag (F.NET_FLOW_CFG_EN 2) true
    let u := (((ingressOn 4 2 6).setFlag (F.NET_CFG_EN 1) true).setFlag (F.NET_FLOW_CFG_EN 2) true).set (F.NET_FLOW_CFG_KIND 2) 1
    s.netUp 1 = true ∧ s.flowOn 2 1 = true ∧ s.get (F.NET_FLOW_CFG_KIND 2) = 0 ∧ s.flowSrc 2 = 0 ∧ s.isRepeat (0, 5, 1) = false
    ∧ (9, 4) ∈ s.sentenceStreams 3 2 (readSentence ingressHdt)
    ∧ u.flowOn 2 1 = true ∧ u.get (F.NET_FLOW_CFG_UDP_PORT 2) = 0 ∧ u.get (F.NET_FLOW_IP_IP 2) = 0 ∧ u.bound 9 4 2 6 = true
    ∧ u.isRepeat (1, 0, 9) = false ∧ ({ u with fe := { u.fe with dedupe := [((1, 0, 9), 0)] } }).isRepeat (1, 0, 9) = true := by decide

/-! StreamContextsAndUarts. -/

theorem hello_layout :
    let h := leBytes 1 1 ++ leBytes 1 zHELLO ++ leBytes 2 0 ++ leBytes 2 5 ++ leBytes 2 0x3FF ++ leBytes 4 9 ++ leBytes 2 3 ++ leBytes 2 16 ++ leBytes 8 0 ++ List.replicate 16 0
    let b := h ++ leBytes 4 (crc32c h).toNat
    let z := zRead b
    crcOk b = true ∧ z.ver = 1 ∧ z.typ = 1 ∧ z.flags % 2 = 0 ∧ z.len = 16 ∧ b.length = 44 ∧ (readHello z).src = 5 ∧ (readHello z).sig = 0 ∧ crcOk [] = false := by decide
theorem contexts_and_uarts : let s := (((State.reset.set F.PWR_DOM_STAT_ON 0x3FFF).setFlag (F.UART_CFG_EN 3) true).set (F.UART_CFG_PARSE 3) 3).setFlag (F.NET_CFG_EN 1) true
    let u := { s with fe := { s.fe with peers := [⟨5, 1, false, 1, 1, 0, 0, 0⟩] } }
    s.domOn 7 = true ∧ s.domOn 11 = true ∧ s.domOn 12 = true ∧ s.flag (F.FE_SC_CFG_EN 9) = false ∧ s.flag (F.UART_CFG_EN 3) = true
    ∧ (s.setFlag (F.FE_SC_CFG_EN 9) true).flag (F.FE_SC_CFG_EN 9) = true ∧ s.get (F.UART_CFG_PARSE 3) = 3 ∧ (s.uart 3).rx = [] ∧ (s.uart 3).tx = []
    ∧ (s.set (F.UART_CFG_PAR 3) 1).get (F.UART_CFG_PAR 3) = 1 ∧ s.netUp 1 = true ∧ s.zalPort 1 = true ∧ (s.setFlag (F.NET_CFG_EN 2) true).netUp 2 = true ∧ (s.net.helloAt.getD 1 none).getD 0 = 0 ∧ s.ha.holdTx = false ∧ s.net.busy.getD 1 0 = 0 ∧ s.nodeId ≠ 5 ∧ (s.peer 5).state = 0 ∧ s.word R.ZAL_SIG = 0
    ∧ (u.peer 5).state = 1 ∧ (u.peer 5).mac = 0 ∧ s.flag F.ZAL_DISC_CTRL_HELLO_EN = true ∧ s.txq 1 = []
    ∧ s.run = false ∧ (s.setFlag F.SYS_CYC_CTRL_RUN true).run = true ∧ s.flag F.ZAL_DISC_CTRL_COMMISSION = false
    ∧ (u.setFlag F.ZAL_DISC_CTRL_COMMISSION true).flag F.ZAL_DISC_CTRL_COMMISSION = true := by decide

def cycRun : State := ((((State.reset.set F.PWR_DOM_STAT_ON 0x3FFF).set ⟨R.SYS_PERSONA, 0, 5⟩ (16 + 0)).setFlag F.SYS_CYC_CTRL_RUN true).set F.HA_STAT_STATE 2)
/-! CycleTicksAndPhases. -/

theorem cycle_ticks : let s := cycRun
    s.domOn 11 = true ∧ s.domOn 1 = true ∧ 5000 ≤ s.get F.SYS_CYC_PERIOD_PERIOD_US ∧ s.nextTick < 2 ^ 64 ∧ s.t0 + 2 * s.tDp < 2 ^ 64 ∧ s.haState ≠ 1
    ∧ s.estOn = true ∧ s.run = true ∧ ({ s with cyc := 3 }).cyc = 3 ∧ (∀ j ∈ s.jobs.jobs, j.unit ≠ 2 ∧ j.unit ≠ 7) ∧ s.est.inited = false
    ∧ (s.modTrk fun t => { t with asReady := true }).trk.asReady = true ∧ s.nextTick < 20000000000 ∧ s.matched = true
    ∧ (s.set F.HA_STAT_STATE 1).haState = 1 ∧ s.ha.tdAt + 50000 ≤ s.nextTick := by decide
theorem cycle_checkpoint_late : let s := cycRun
    (s.modHa fun h => { h with ckSend := some ⟨0, 0, 0, 20000000000, 0, true, s.ckptNow⟩ }).ha.ckSend = some ⟨0, 0, 0, 20000000000, 0, true, s.ckptNow⟩ := rfl
theorem cycle_starts : let s := State.reset.set ⟨R.SYS_PERSONA, 0, 5⟩ 16
    s.matched = true ∧ s.run = false ∧ (s.commitShadow [R.SYS_CYC_PERIOD, R.SYS_CYC_PHA, R.SYS_CYC_PHB, R.SYS_CYC_PHC, R.SYS_CYC_DLQP]).cycCheck = 0 := by decide
theorem cycle_start_refused : let s := (State.reset.set ⟨R.SYS_PERSONA, 0, 5⟩ 16).setShWord R.SYS_CYC_PHA 0
    s.matched = true ∧ s.run = false ∧ (s.commitShadow [R.SYS_CYC_PERIOD, R.SYS_CYC_PHA, R.SYS_CYC_PHB, R.SYS_CYC_PHC, R.SYS_CYC_DLQP]).cycCheck ≠ 0 := by decide
theorem spe_trips : let s := ((((cycRun.set F.KZ_STAT_STATE 1).setFlag F.KZ_AUTH_SPE_EN true).setFlag F.SK_OUT_FL_ENV_VALID true).set F.FE_EST_STAT_QUAL 0).setWord R.KZ_SPE_RTRIP 0x3F800000#32
    let s := { s with cyc := 4, est := { s.est with inited := true, x := [0x4024000000000000, 0] } }
    s.kzUp = true ∧ s.domOn 4 = true ∧ s.flag F.KZ_AUTH_SPE_EN = true ∧ s.flag F.SK_OUT_FL_ENV_VALID = true ∧ s.get F.FE_EST_STAT_QUAL ≤ 2
    ∧ flt (f32to64 (s.word R.KZ_SPE_RTRIP)) (fadd (segDist [vget s.est.x 0, vget s.est.x 1] [s.get64 (R.SK_OUT_ENV 0), s.get64 (R.SK_OUT_ENV 1)]
        [s.get64 (R.SK_OUT_ENV 2), s.get64 (R.SK_OUT_ENV 3)]) (fmul (f32to64 (s.word R.KZ_SPE_K)) (fmax (fsqrt (mget s.est.p 0 0)) (fsqrt (mget s.est.p 1 1))))) = true
    ∧ max 1 (s.get F.KZ_AUTH_SPE_N) ≤ (s.modKz fun k => { k with speN := 9 }).kz.speN + 1 := by decide

def estUp : State := (((State.reset.set F.PWR_DOM_STAT_ON 0x3FFF).set ⟨R.SYS_PERSONA, 0, 5⟩ 16).set F.HA_STAT_STATE 2).setFlag F.SYS_CYC_CTRL_RUN true
/-! QualitySteps. -/

theorem quality_snaps : let s := estUp.set F.FE_EST_STAT_QUAL 2
    s.domOn 7 = true ∧ s.get F.FE_EST_STAT_QUAL = 2 ∧ (s.modEst fun e => { e with drAt := some 0, cond := 0 }).est.drAt = some 0
    ∧ s.domOn 11 = true ∧ s.isMaster = true ∧ s.haState = 2 ∧ s.run = true ∧ s.est.resetReq = false ∧ s.nextTick < 2 ^ 64
    ∧ (let u := s.modTime fun t => { t with count := 900000000000 }
       max 1 ((u.commitShadow [R.FE_DRCFG]).get F.FE_DRCFG_DR_MAX) * 1000000000 < u.nextTick - 0)
    ∧ (s.modEst fun e => { e with cond := 0 }).est.cond < s.get F.FE_EST_STAT_QUAL
    ∧ 1 ≤ max 1 ((s.commitShadow [R.FE_DRCFG]).get F.FE_DRCFG_QUP_N) := by decide

/-! EstimatorSurvey. -/

theorem survey_runs : let s := State.reset.set F.PWR_DOM_STAT_ON 0x3FFF
    let u := (s.set F.FE_EST_STAT_QUAL 1).setFlag F.FE_SURV_CTRL_REC true
    u.get F.FE_EST_STAT_QUAL ≤ 1 ∧ u.flag F.FE_SURV_STAT_FULL = false ∧ u.word R.FE_OUT_CYC = u.cycNum
    ∧ max 1 (u.get F.FE_SURV_CTRL_DECIM) ≤ 100 ∧ u.get F.FE_SURV_STAT_EPOCHS < 4096
    ∧ ({ s.surv with again := true, runAt := some 5, againCyc := 7 }).runAt.isSome = true ∧ s.cycNum ≠ 7 ∧ (130 : Nat) % 128 ≠ 0
    ∧ (s.set F.JF_CFG_C3_QUOTA 4).slotsUsed 3 < (s.set F.JF_CFG_C3_QUOTA 4).slots 3 ∧ s.guarded = false := by decide

/-! TrackerModes. -/

theorem tracker_modes : let s := State.reset.set F.PWR_DOM_STAT_ON 0x3FFF
    s.domOn 7 = true ∧ (s.shWord R.TRK_CTRL).getLsbD 0 = false ∧ ((s.setShWord R.TRK_CTRL 1).shWord R.TRK_CTRL).getLsbD 0 = true
    ∧ (s.setFlag F.TRK_STAT_MODE false).flag F.TRK_STAT_MODE = false ∧ (s.setFlag F.TRK_STAT_MODE true).flag F.TRK_STAT_MODE = true := by decide

def passJob : Job := { internalJob 2 7 1 0 0 (some 5000000) 1 none .empty with ident := 3, status := 2 }
/-! TrackCoasting. -/

theorem track_coasts : let s := (((State.reset.set F.PWR_DOM_STAT_ON 0x3FFF).setFlag F.TRK_CTRL_EN true).set (F.TK_ST_STATE 7) 2).setFlag F.TRK_STAT_MODE false
    let u := (s.modJobs fun q => { q with jobs := [passJob] }).modTime fun t => { t with t0 := 90000000000 }
    let u := u.modTrk fun t => { t with passAssign := false }
    u.jobs.jobs.find? (fun k => k.unit == 2 && k.status == 2 && k.abort.isNone) = some passJob ∧ passJob.proc = 15 ∧ u.flag F.TRK_CTRL_EN = true
    ∧ u.coasted (stampOf u.t0) 7 = true ∧ u.est.rets = [] ∧ u.trk.passAssign = false ∧ u.flag F.TRK_STAT_MODE = false
    ∧ 1 ≤ (u.set F.TRK_STAT_HIGH 1).get F.TRK_STAT_HIGH := by decide

def skOn : State :=
  let s := ((((State.reset.set F.PWR_DOM_STAT_ON 0x3FFF).set ⟨R.SYS_PERSONA, 0, 5⟩ (16 + 0)).set F.HA_STAT_STATE 2).setFlag F.BE_CTRL_EN true).setFlag (F.BE_TCFG_EN 14) true
  let s := (s.setFlag (F.BE_TCFG_BASE 14) true).setFlag (F.BE_TCFG_PH_SEL 14) true
  { s with cyc := 5 }
/-! StationKeeping. -/

theorem sk_requests : let s := skOn
    s.domOn 2 = true ∧ (2 : BitVec 3) ≠ 7 ∧ fisFin (f32to64 0x3F000000#32) = true ∧ fisFin (f32to64 0x7FC00000#32) = false
    ∧ (s.setFlag F.SK_STAT_JOY_STALE false).flag F.SK_STAT_JOY_STALE = false ∧ s.sk.joyAt + s.get F.SK_TIME_JOY_TMO_MS * 1000000 < 2 ^ 64 := by decide
theorem sk_release_runs : let s := skOn
    s.isMaster = true ∧ s.skRuns = true ∧ s.mayRelease 14 = true ∧ s.tState 14 ≤ 1 ∧ s.nextRelease 14 < 2 ^ 64 ∧ s.nextRelease 14 ≤ s.cycleDue 14
    ∧ s.sk.req = none ∧ s.skMode ≠ 4 ∧ s.skMode ≠ 5 ∧ (s.set F.FE_OUT_Q_QUAL 4).get F.FE_OUT_Q_QUAL = 4 ∧ (s.set F.SK_STAT_MODE 4).skMode = 4 := by decide
theorem sk_release_takes : let s := (skOn.set F.FE_OUT_Q_QUAL 1).set F.SK_STAT_MODE 1
    let u := s.setFlag F.FE_OUT_Q_INIT true
    s.get F.FE_OUT_Q_QUAL ≤ 1 ∧ s.skCheck ⟨1, 2, false, false⟩ ≠ 0 ∧ s.skCheck ⟨1, 0, false, false⟩ = 0 ∧ u.skCheck ⟨2, 0, false, false⟩ = 0 ∧ u.skMode ≤ 2
    ∧ (s.modSk fun k => { k with req := some ⟨1, 0, false, false⟩ }).sk.req = some ⟨1, 0, false, false⟩ := by decide

def launchOn (persona : Nat) : State :=
  let s := (((State.reset.set F.PWR_DOM_STAT_ON 0x3FFF).set ⟨R.SYS_PERSONA, 0, 5⟩ (16 + persona)).set F.HA_STAT_STATE 2).setFlag F.ALC_CTRL_EN true
  { s with cyc := 5 }
/-! AllocationAndLaunch. -/

theorem master_launches : let s := launchOn 0
    s.domOn 6 = true ∧ s.t0 + 2 * s.tDp < 2 ^ 64 ∧ s.launchInstant < 2 ^ 64 ∧ s.drives = true ∧ 0 < s.cyc ∧ s.alc.running = false ∧ s.alc.stagedOk = false
    ∧ s.alc.launched = false ∧ (s.setShWord R.ALC_CTRL 1).alcShadow.flag F.ALC_CTRL_EN = true ∧ s.launchAhead = true ∧ s.flag F.ALC_CTRL_EN = true
    ∧ ({ s.alc with stagedOk := true }).stagedOk = true ∧ s.haOn = true
    ∧ ¬ max 1 ((s.set F.SYS_CYC_CTRL_MISS_MAX 3).get F.SYS_CYC_CTRL_MISS_MAX) ≤ s.alc.misses + 1
    ∧ max 1 ((s.set F.SYS_CYC_CTRL_MISS_MAX 1).get F.SYS_CYC_CTRL_MISS_MAX) ≤ s.alc.misses + 1 := by decide
theorem chain_off : let s := (launchOn 0).setShWord R.ALC_CTRL 0
    s.alcShadow.flag F.ALC_CTRL_EN = false ∧ s.drives = true := by decide
theorem head_launches : let s := launchOn 1
    s.isHead = true ∧ 0 < s.cyc ∧ s.alc.launched = false ∧ s.flag F.ALC_CTRL_EN = true ∧ s.alc.stagedOk = false ∧ s.alc.stopped = false
    ∧ ({ s.alc with stagedOk := true, accNow := true }).accNow = true ∧ ({ s.alc with stopped := true }).stopped = true := by decide

def jobAt (status kind : Nat) : Job :=
  { internalJob 0 kind 2 4 4 (some 5000000) 8 none (.lsq [[0x3FF0000000000000]] [0x3FF0000000000000]) with
    ident := 3, proc := 0, tag := 9, status := status, recAddr := 0x1500100, lanes := if status = 3 then [0] else [], done := 1, conv := 0 }
def jobsOn (l : List Job) : State := (State.reset.set F.PWR_DOM_STAT_ON 0x3FFF).modJobs fun q => { q with jobs := l, nextId := 9 }
def jobPoint : CheckPoint := ⟨false, 0, false⟩
/-! JobsAndRecords. -/

theorem jobs_submitted : let u := State.reset.set F.PWR_DOM_STAT_ON 0x3FFF
    let s := [(0, 0x00070023), (4, 0x00040004), (8, 8), (12, 0), (16, 5000), (32, 0x1500200), (40, 0x1500300), (56, 0x1500400)].foldl (fun t e => t.st (0x1500000 + e.1) 4 e.2) u
    let a := 0x1500000
    let w (n : Nat) : Nat := s.ld (a + 4 * n) 4
    s.domOn 6 = true ∧ subDom 0 = .svc ∧ s.get (F.JF_SUBH_ADDR_HI 0) = 0 ∧ a % 64 = 0 ∧ s.inSramOrDram a 64 = true ∧ s.classFull 2 = false
    ∧ descReserved w = true ∧ kindLimits (w 0 % 16) (w 1 % 65536) (w 1 / 65536) (w 3) = true ∧ maySubmit .svc (w 0 / 16 % 4) = true ∧ w 0 / 1024 % 2 = 0
    ∧ w 0 / 64 % 4 ≠ 3 ∧ w 8 % 8 = 0 ∧ s.inSramOrDram (w 8) 8 = true ∧ s.inSramOrDram (w 10) 8 = true ∧ w 0 / 512 % 2 = 0
    ∧ w 14 % 32 = 0 ∧ s.inSramOrDram (w 14) 32 = true ∧ w 0 / 16 % 4 = 2 := by decide
theorem jobs_run : let s := jobsOn [jobAt 2 1]
    let u := jobsOn [jobAt 1 1]
    let r := jobsOn [jobAt 3 1]
    s.job 3 = some (jobAt 2 1) ∧ (jobAt 2 1).iterates = true ∧ (jobAt 2 1).ending = none ∧ (jobAt 2 1).nextIs false = true ∧ jobPoint.ecc = false
    ∧ (jobAt 2 1).prob.nonfinite = false ∧ s.late (jobAt 2 1) = false ∧ (jobAt 2 1).abort = none
    ∧ u.firstJob ((u.waiting 0).filter fun k => !u.tooLate k) = some (jobAt 1 1) ∧ u.lanesFor (jobAt 1 1) = some [0]
    ∧ r.job 3 = some (jobAt 3 1) ∧ r.tooLate (jobAt 3 1) = false ∧ (jobAt 3 1).ganged = false ∧ 0 ∈ r.freeLanes ∧ r.waiting 0 = []
    ∧ max 1 (r.get F.JF_RESUME_IDLE_US) * 1000 < 2 ^ 64 := by decide
theorem jobs_work : let g := ((jobAt 2 1).work false).1
    g.done = 2 ∧ (g.converged false).1 = false := by decide
theorem jobs_numbered : (jobsOn [jobAt 1 3]).JobsNumbered := by simp [State.JobsNumbered, jobsOn, jobAt, State.modJobs]
theorem jobs_end : let s := jobsOn [jobAt 2 4]
    s.job 3 = some (jobAt 2 4) ∧ (jobAt 2 4).proc ≤ 10 ∧ (jobAt 2 4).irq = false ∧ s.late (jobAt 2 4) = false
    ∧ (jobAt 2 4).hasDl = true ∧ (s.full (jobAt 2 4).deadline + 1).toNat < 2 ^ 64 ∧ (jobAt 2 4).iterates = false
    ∧ s.jobs.jobs.find? (fun j => j.proc == 0 && j.tag == 9 && j.proc != 15) = some (jobAt 2 4) ∧ mayAbort .svc 0 2 = true ∧ mayAbort .host 0 2 = false
    ∧ (let u := s.modJobs fun q => { q with held := [.port (jobAt 0 1)] }
       u.jobs.held.find? u.heldFits = some (.port (jobAt 0 1)) ∧ (jobAt 0 1).cls ≠ 3) := by decide

def canUp : State := ((State.reset.set F.PWR_DOM_STAT_ON 0x3FFF).setFlag (F.CAN_CFG_EN 1) true)
def canTxUp : State := (canUp.setFlag (F.CAN_BCFG_EN 1 5) true).setFlag (F.CAN_BCFG_DIR 1 5) true
def canSlotAt (sof : Option Nat) : State := canTxUp.modCan 1 fun x => { x with slot := some ⟨5, 900000, 0, sof, none, 0, false, none⟩ }
/-! CanControllers. -/

theorem can_enables : let s := State.reset.set F.PWR_DOM_STAT_ON 0x3FFF
    s.domOn 12 = true ∧ s.flag (F.CAN_CFG_EN 1) = false ∧ (s.setWord (R.CAN_CFG 1) (0 &&& 0x7FFE)).canCheck 1 = true
    ∧ ((s.set (F.CAN_SCH_BC_US 1) 5).setWord (R.CAN_CFG 1) (0 &&& 0x7FFE)).canCheck 1 = false := by decide
theorem can_columns : let s := canTxUp.setWord (R.CAN_CELL 1 0) 0x85
    s.flag (F.CAN_CFG_EN 1) = true ∧ s.canOff 1 = false ∧ s.canHears 1 = true ∧ (s.canC 1).slot = none ∧ s.canRef 1 ≠ 2 ∧ (s.canNext 1).map (fun p => (p.1, p.2.1, p.2.2.1)) = some (0, 0, 0)
    ∧ s.canCell 1 0 0 0 = 0x85 ∧ s.canTx 1 5 = true ∧ canTxUp.canCell 1 0 0 0 < 128
    ∧ (s.set (F.CAN_CFG_REF_MODE 1) 1).canRef 1 = 1 ∧ (s.modCan 1 fun x => { x with evReq := [5] }).canTx 1 5 = true := by decide
theorem can_receives : let s := canUp.setFlag (F.CAN_BCFG_EN 1 7) true
    (List.range 64).find? (fun b => s.canMatch 1 b 0 false) = some 7 ∧ (List.range 64).find? (fun b => canUp.canMatch 1 b 0 false) = none
    ∧ (s.set (F.CAN_CFG_REF_MODE 1) 2).canRef 1 = 2 ∧ s.flag (F.CAN_STAT_REF_LOST 1) = false := by decide
theorem can_attempts : let s := canSlotAt (some 100)
    let u := canSlotAt none
    (s.canC 1).slot = some ⟨5, 900000, 0, some 100, none, 0, false, none⟩ ∧ s.canMode 1 ≠ 2 ∧ (s.set (F.CAN_CFG_MODE 1) 2).canMode 1 = 2 ∧ s.get (F.CAN_STAT_TEC 1) < 248
    ∧ 248 ≤ (s.set (F.CAN_STAT_TEC 1) 250).get (F.CAN_STAT_TEC 1) ∧ (u.canC 1).slot = some ⟨5, 900000, 0, none, none, 0, false, none⟩
    ∧ (s.canC 1).evReq = [] ∧ 2 * s.now < 2 * 100 + s.canSample 1
    ∧ 2 * 100 + s.canSample 1 ≤ 2 * (s.modTime fun t => { t with count := 9000 }).now
    ∧ (canTxUp.setFlag (F.CAN_BCFG_EVT 1 5) true).flag (F.CAN_BCFG_EVT 1 5) = true
    ∧ (canUp.set (F.CAN_STAT_ESTATE 1) 2).canOff 1 = true ∧ (canUp.setFlag (F.CAN_CFG_AUTO_REC 1) true).flag (F.CAN_CFG_AUTO_REC 1) = true
    ∧ canUp.now + 704 * canUp.canBit 1 < 2 ^ 64 := by decide

/-! PowerClocksResets. -/

theorem power_clocks : let s := State.reset.set F.PWR_DOM_STAT_ON 0x3FFF
    s.domOn 1 = true ∧ s.now + 1000000 < 2 ^ 64 ∧ (0x5AFE0001#32).toNat / 65536 = 0x5AFE ∧ (0x5AFE0001#32).getLsbD 0 = true
    ∧ ({ s.pwr with inReset := none, deep := true }).inReset = none ∧ ({ s.time with wdog := some 9 }).wdog = some 9 ∧ s.scrubNext < 2 ^ 64 ∧ (s.proc 0).doze = false
    ∧ (s.set ⟨R.SYS_PERSONA, 0, 5⟩ (16 + 0)).isMaster = true ∧ (s.setFlag F.HA_CFG_PAIR_EN true).flag F.HA_CFG_PAIR_EN = true
    ∧ (s.setFlag F.PWR_WAKE_WAKE_PIN true).flag F.PWR_WAKE_WAKE_PIN = true ∧ s.run = false ∧ s.get F.KZ_STAT_STATE ≠ 1 ∧ s.get F.KZ_STAT_STATE ≠ 2
    ∧ ¬ (1 ≤ s.haState ∧ s.haState ≤ 3) ∧ (s.set F.HA_STAT_STATE 2).haState = 2 ∧ (s.set F.HA_STAT_PSTATE 7).get F.HA_STAT_PSTATE = 7
    ∧ s.timeRuns = true ∧ (s.modPwr fun p => { p with prst := true }).pwr.prst = true ∧ s.domOn 13 = true ∧ 0 < (s.setWord (R.OTP_CFG 11) 1).dramBytes := by decide
theorem power_requests : let s := State.reset.set ⟨R.SYS_PERSONA, 0, 5⟩ (16 + 0)
    let bit (x k : Nat) : Bool := x / 2 ^ k % 2 == 1
    let ok (v : Nat) : Prop := ∀ k < 14, bit (s.get F.PWR_DOM_REQ_REQ) k ≠ bit v k → domWriters k .svc = true ∧ (if bit v k then s.mayOn k v else s.mayOff k v) = true
    ok (0x393F - 0x2000 + 0x40) ∧ ¬ ok 0x391F := by decide

/-- A smallest image: a header with four empty sections, its public key (the generator times 0x4812) and its signature. -/
def tinyImage : List Byte :=
  leBytes 4 0x1A6E4812 ++ leBytes 4 1 ++ leBytes 4 0x4812 ++ leBytes 4 256 ++ leBytes 4 0 ++ leBytes 4 0x11223344 ++ leBytes 4 0 ++ leBytes 4 4
    ++ [1, 2, 3, 5].flatMap (fun t => leBytes 4 t ++ leBytes 4 256 ++ leBytes 8 0) ++ List.replicate 160 0
    ++ beBytes 32 0x4aca8aa850b14479d45e07561bc656c685d931c4c331bacd1c90c084e3edb1e9 ++ beBytes 32 0x94e96c878a8265a775125035eec1c409c24322e3b946723d27bdc7de5fa065bb
    ++ beBytes 32 0x6b17d1f2e12c4247f8bce6e563a440f277037d812deb33a0f4a13945d898c296 ++ beBytes 32 0x5ee4ccaa0e5fa14d568de878186dabe4bc361ce849dd98a919249046b3ae5689
/-- A machine in boot with the smallest image in slot A and staged, its key in KEYHASH0. -/
def tinyState : State :=
  let cells : List Host.Cell := (tinyImage.zipIdx.map fun e => (e.2, e.1)).filter fun c => c.2 != 0xFF
  let s := [0x1cb7e06e, 0xa7fa0f35, 0x3f36ff97, 0x0ac07ca4, 0xfab795f4, 0x9b956489, 0x5c93280c, 0x20c25c9d].zipIdx.foldl (fun (t : State) (e : Nat × Nat) => t.setWord (R.OTP_CFG (12 + e.2)) (BitVec.ofNat 32 e.1)) State.reset
  { s with nvm := { s.nvm with flash := cells, imgBuf := cells }, pwr := { s.pwr with stage := .boot } }
/-! BootAndImages. -/

theorem boot_images : let s := State.reset.set F.PWR_DOM_STAT_ON 0x3FFF
    let p (st : BootStage) : State := { s with pwr := { s.pwr with stage := st, deep := false, rising := [(2, 20000)] } }
    let o (n : Nat) : CpOp := ⟨n, 1, 4, 0, 3, [3], [0, 0, 0], 0, false⟩
    let r (n : Nat) : State := s.modCp fun c => { c with op := some (o n) }
    (p .held).pwr.stage = .held ∧ (p .held).pwr.deep = false ∧ s.reached (s.pwr.heldAt + 10000) + 250000 < 2 ^ 64 ∧ s.now + 1000000000 < 2 ^ 64 ∧ (p .boot).pwr.stage = .boot ∧ s.nextSlot = some 0
    ∧ 0 < (s.setWord (R.OTP_CFG 11) 1).dramBytes ∧ 2 ∈ (p .done).pwr.rising.map (·.1) ∧ (p .boot).pwr.rising.find? (fun e => e.1 == 2) = some (2, 20000) ∧ (p .done).pwr.image.regs = [] ∧ s.gn.keep = [] ∧ s.domOn 2 = true
    ∧ (r 0x22).cp.op = some (o 0x22) ∧ (o 0x24).op = 0x24 ∧ mapWf (fun _ => (0xFF : Byte)) s.nvm.flash = true ∧ mapWf (fun _ => (0 : Byte)) s.nvm.otp = true
    ∧ (List.replicate 512 (0 : Byte)).length = 512 ∧ State.reset.domOn 7 = false ∧ s.domOn 7 = true := by decide
theorem boot_bad_slot : let s := State.reset
    s.verifyImage s.nvm.flash 0 true true ≠ 0 ∧ s.verifyImage s.nvm.imgBuf 0 true true ≠ 0 := by decide
theorem boot_good_slot : tinyState.verifyImage tinyState.nvm.flash 0 true true = 0 := by decide +kernel
theorem boot_good_image : tinyState.verifyImage tinyState.nvm.imgBuf 0 true true = 0 := boot_good_slot

def cpTest : State :=
  let s := ((State.reset.set F.PWR_DOM_STAT_ON 0x3FFF).setFlag F.SYS_PERSONA_MATCH true).setFlag F.SYS_BOOT_DONE true
  { s with pwr := { s.pwr with stage := .done } }
theorem cpTest_takes (op : Nat) (p : List Byte) : cpTest.Takes 1 0 op 1 p := ⟨by decide, by decide, by
  have h : (cpTest.cpRx 1).lastKey = none := by decide
  rw [h]; exact fun e => nomatch e⟩
/-! PortReads. -/

theorem port_reads : let s := cpTest.set ⟨R.SYS_PERSONA, 0, 5⟩ (16 + 0)
    s.cpLimited = false ∧ s.isMaster = true ∧ s.domOn 2 = true ∧ s.domOn 11 = true ∧ cpTest.cpMapped 0x1500000 4 = true ∧ cpTest.cpReadable 0x1500000 4 = true
    ∧ cpTest.cpMapped 0x1500001 4 = false ∧ cpTest.cpMapped 0 1 = true ∧ cpTest.region 0 = .rom ∧ State.reset.flag F.SYS_BOOT_DONE = false
    ∧ recAtOrAbove s.recd.recs (s.word R.REC_CUR) = none := by decide
theorem port_read_takes : cpTest.Takes 1 0 0x10 1 (leBytes 5 0x1500000 ++ leBytes 1 4) := cpTest_takes _ _

/-! PortWritesAndImages. -/

theorem port_writes : let s := (cpTest.set ⟨R.SYS_PERSONA, 0, 5⟩ (16 + 0)).setWord (R.OTP_CFG 11) 1
    let n : State := { s with nvm := { s.nvm with imgSize := some 9, commit := some ([], 384, 5) } }
    let b : State := { s with be := { s.be with staged := some progSetNone } }
    let v := s.setFlag F.OTP_STAT_VPP true
    s.cpLimited = false ∧ s.isMaster = true ∧ (regDesc R.GN_CFG).isSome = true ∧ (cpTest.set F.PWR_DOM_STAT_ON 0x3F).domOn 9 = false ∧ 0 < s.dramBytes
    ∧ n.nvm.imgSize = some 9 ∧ s.nvm.imgSize = none ∧ mapWf (fun _ => (0xFF : Byte)) s.nvm.imgBuf = true ∧ s.get F.BE_ACT_ASTATE = 0
    ∧ (s.set F.BE_ACT_ASTATE 1).get F.BE_ACT_ASTATE ≠ 0 ∧ s.be.staged = none ∧ b.be.staged = some progSetNone ∧ b.run = false ∧ progSetNone.base = 0
    ∧ n.nvm.commit = some ([], 384, 5) ∧ mapWf (fun _ => (0 : Byte)) s.nvm.otpStage = true ∧ s.domOn 2 = true ∧ v.flag F.OTP_STAT_VPP = true ∧ v.run = false
    ∧ (s.setFlag F.SYS_CYC_CTRL_RUN true).run = true ∧ s.cpField F.KZ_STAT_STATE ≠ 1 ∧ s.cpField F.KZ_STAT_STATE ≠ 2 := by decide
theorem port_otp_fits : let s := cpTest
    let u : State := { s with nvm := { s.nvm with otpStage := [(8, 1), (0xA, 3)] } }
    u.genFree = some 0 ∧ u.otpBadBlock = false ∧ s.genFree ≠ some 1 ∧ (let v := s.setWord (R.OTP_CFG 20) 7; (keyHash v.latchedBlock 1).any (fun x => x != 0) = true ∧ v.revoked 1 = false) := by decide

/-! PortControls. -/

theorem port_controls : let s := cpTest.set ⟨R.SYS_PERSONA, 0, 5⟩ (16 + 0)
    let r := (s.setFlag F.SYS_CYC_CTRL_RUN true).set F.HA_STAT_STATE 2
    let q := (r.set F.FE_SURV_STAT_EPOCHS 64).set F.FE_SURV_STAT_PSTATE 2
    s.cpLimited = false ∧ s.isMaster = true ∧ r.cpSkOpen = true ∧ s.cpSkOpen = false ∧ s.domOn 2 = true ∧ s.domOn 7 = true ∧ s.domOn 11 = true
    ∧ fisFin (f32to64 0x3F800000) = true ∧ 64 ≤ q.get F.FE_SURV_STAT_EPOCHS ∧ q.run = true ∧ s.run = false ∧ q.get F.FE_SURV_STAT_PSTATE = 2
    ∧ (q.set F.FE_EST_STAT_QUAL 1).get F.FE_EST_STAT_QUAL < 2 ∧ q.flag F.FE_SURV_STAT_STALE_PROP = false ∧ s.get F.FE_SURV_STAT_PSTATE ≠ 2
    ∧ s.pwr.inReset = none ∧ s.cpGone = true ∧ s.time.leapRef = false ∧ (s.modTime fun t => { t with leapRef := true }).time.leapRef = true ∧ s.recd.writing = none := by decide
theorem port_reset_taken : cpTest.Takes 1 0 0xF0 1 (leBytes 2 0x5AFE ++ leBytes 1 1) := cpTest_takes _ _

/-! PortPairAndForces. -/

theorem port_pair : let s := cpTest.set ⟨R.SYS_PERSONA, 0, 5⟩ 16
    let r := s.setFlag F.SYS_CYC_CTRL_RUN true
    let q := ((s.set F.HA_STAT_STATE 2).set F.HA_STAT_PSTATE 0).setFlag F.HA_STAT_PCKOK true
    s.cpLimited = false ∧ s.domOn 11 = true ∧ s.domOn 2 = true
    ∧ (r.isMaster = true ∧ (r.set F.HA_STAT_STATE 0).haState = 0 ∧ r.run = true ∧ r.haTerm ≠ 0xFFFFFFFF ∧ r.drivingHeard = false)
    ∧ (q.isMaster = true ∧ q.haState = 2 ∧ q.get F.HA_STAT_PSTATE = 0 ∧ q.flag F.HA_STAT_PCKOK = true) ∧ (s.set F.HA_STAT_STATE 4).haState = 4 := by decide
theorem port_forces : let y : SymEnt := ⟨0, 64, true, 3, false, 0, 0⟩
    let s : State := cpTest.modBe fun b => { b with set := { progSetNone with symBytes := symRow 0 64 7 } }
    s.cpLimited = false ∧ s.domOn 2 = true ∧ s.be.set.syms.find? (fun y => y.ident == 0) = some y ∧ y.safe = false ∧ s.be.forces.length < 256 ∧ s.be.swAt = none
    ∧ (s.modBe fun b => { b with forces := [⟨0, 0, true, 3, 1, 64, 5⟩] }).be.forces.any (fun f => f.ident == 0) = true := by decide

/-! PortReception. -/

theorem port_reception : let s := cpTest
    let busy := s.taken 1 0 0x22 3 []
    let pk := cpPacket 0 0 1 [7]
    let after := (s.modCp fun c => { c with rx := [⟨[], none, [], []⟩, ⟨pk.take 5, some [1, 0, 0, (crc32c (pk.take 8)).toNat, 0], [9], []⟩, ⟨[], none, [], []⟩] })
    s.cpServes 1 0 = true ∧ s.cpServes 2 4 = true ∧ State.reset.cpServes 1 0 = false ∧ (s.cpRx 1).part ++ pk = pk ∧ busy.cp.op.isSome = true ∧ busy.cpServes 1 0 = true
    ∧ s.cp.op = none ∧ (cpPacket 1 0 1 []).length = 11 ∧ (after.cpRx 1).part ++ pk.drop 5 = pk ∧ (after.cpRx 1).lastKey = some [1, 0, 0, (crc32c (pk.take 8)).toNat, 0]
    ∧ (after.cpRx 1).part ≠ [] ∧ (cpLen 0x7F).isNone = true ∧ crc8 ((0xD7 :: pk.tail).take 6) = pk.getD 6 0 ∧ crc8 ([0xD7, 1, 2, 3, 4, 5].take 6) ≠ 0 := by decide

/-! InterruptsRecorderCounters. -/

theorem interrupts : let s := State.reset.set F.PWR_DOM_STAT_ON 0x3FFF
    let r := (((s.set (F.IC_SRC_PRIO 22) 3).setFlag (F.RING_BH_EN 0 3) true).set (F.RING_BH_SIZE_LOG2 0 3) 4).set (F.RING_BL_BASE_LO 0 3) 0x1500000
    let a := r.arrive 22 5
    icAssigned 22 = true ∧ srcRec 22 = .none ∧ srcRec 20 = .crumb ∧ (s.evCfg 20).2.1 = false ∧ icAssigned 7 = false ∧ r.get (F.IC_SRC_PRIO 22) ≠ 0
    ∧ r.flag (F.IC_SRC_MASK 22) = false ∧ (r.ring 0 3).held.length < r.ringSize 0 3 ∧ s.get (F.IC_SRC_PRIO 22) = 0
    ∧ a.claimLevel 0 = some 3 ∧ s.claimLevel 0 = none ∧ a.flag (F.IC_LEVEL_LINE 0) = true ∧ (a.setFlag (F.IC_PIE_IE 0) true).flag (F.IC_PIE_IE 0) = true
    ∧ (s.proc 0).stack = [] ∧ ((a.claim 0 3).proc 0).stack.head? = some 0 ∧ s.domOn 1 = true := by decide
theorem recorder_counters : let s := State.reset.set F.PWR_DOM_STAT_ON 0x3FFF
    let u : State := { s with recd := { s.recd with writing := some 3, coal := some ⟨21, 5, 2, 0⟩, followOn := true } }
    let p := (s.setWord (R.PMU_CNTL 41) 0xFFFFFFFF).setShWord (R.PMU_CNTH 41) 0xFFFF
    s.recd.writing = none ∧ u.recd.writing.isSome = true ∧ u.recd.coal.isSome = true ∧ s.recd.coal = none ∧ s.recd.followOn = false ∧ u.recd.followOn = true
    ∧ (0x5AFE0001#32).toNat / 65536 = 0x5AFE ∧ (0x5AFE0001#32).getLsbD 0 = true ∧ s.run = false ∧ (s.setFlag F.SYS_CYC_CTRL_RUN true).run = true
    ∧ p.pmuVal 41 = 2 ^ 48 - 1 ∧ s.flag F.PMU_CTL_FREEZE = false ∧ (s.setFlag F.PMU_CTL_FREEZE true).flag F.PMU_CTL_FREEZE = true ∧ s.flag (F.PMU_CFG_CHAIN 40) = false
    ∧ (∀ o ∈ p.occupancy, o.1 ≠ 41) ∧ s.flag F.PMU_CTL_PMU_USER = false ∧ (s.setFlag F.PMU_CTL_PMU_USER true).flag F.PMU_CTL_PMU_USER = true := by decide

/-! AccessByAddress. -/

theorem access_regions : let s := State.reset.set F.PWR_DOM_STAT_ON 0x3FFF
    let u := s.setWord (R.OTP_CFG 11) 1
    s.region 0x1500000 = .sram ∧ s.region 0x2000000 = .unmapped ∧ s.region 0 = .rom ∧ u.region 0x104000000 = .dramUser ∧ mayWrite .host .sram = true ∧ mayWrite .block .sram = false
    ∧ mayRead .host .rom = false ∧ mayRead .host .sram = true ∧ s.domOn (regionDom .sram 0x1500000) = true ∧ State.reset.domOn (regionDom .inst 0x1000000) = false
    ∧ s.region 0x4000FFF0 = .regs ∧ regDesc 0x4000FFF0 = none ∧ (regDesc R.TIME_HOLD).isSome = true ∧ (regDesc R.CP_CNT0).isSome = true := by decide
theorem access_plain : ∀ q, regDesc R.TIME_HOLD = some q → domIn .host q.writers = true ∧ domIn .block q.writers = false ∧ domIn .block q.clearers = false := by decide

/-! TimeNowRead. -/

theorem net_is_on : (State.reset.set F.PWR_DOM_STAT_ON 0x3FFF).domOn 11 = true := by decide

end Sys2Proof.Machine
end

section
/-!
PROOFS of the family 01_one_cycle. Three statements of it fail, each at one clause: the launches of the cycle (O42, O48) leave out
that a full submit queue holds an internal unit's job, and the latching read of device time (O38) leaves out that the count
stands between two ticks.
-/
namespace Sys2Proof.Machine

/-- A command answers one state: what it completes with holds of it together. -/
theorem Completes.and {c : Instr} {s : State} {P Q : State → Prop} (h : Completes c s P) (g : Completes c s Q) :
    Completes c s fun t => P t ∧ Q t := by
  obtain ⟨t, ht, hP⟩ := h
  obtain ⟨u, hu, hQ⟩ := g
  rw [ht] at hu
  cases hu
  exact ⟨t, ht, hP, hQ⟩

/-! Device time between two ticks (R239, R240; log entry 231). -/

/-- The read latches the count's upper half as it was at the latest tick. -/
theorem timeNowRead_high (s : State) (h : s.domOn 11 = true) :
    Completes .timeNowRead s fun t => t.word R.TIME_NOWH = BitVec.ofNat 32 (s.fine / 2 ^ 64) := by
  refine Completes.of rfl ?_
  rw [State.requeue_word, State.inDomain, if_pos h]
  exact (State.word_setWord_ne _ (by decide) _).trans (State.word_setWord_same _ _ _)

/-- What O38 says of the upper half of the count. -/
theorem nowHigh_of_timeBase (H : Obligations.TimeBase) (s : State) (h : s.domOn 11 = true) :
    Completes .timeNowRead s fun t => (t.word R.TIME_NOWH).toNat = s.now / 2 ^ 32 := by
  obtain ⟨_, _, _, _, _, _, _, _, _, _, _, _, _, _, hread, _⟩ := H s .host 0 0 false 0 0 0 0 false 0 0 (Or.inl rfl) h
  obtain ⟨t, ht, hhigh, _⟩ := hread
  exact ⟨t, ht, hhigh⟩

/-- With NET ON, the instant at which the low half of the count has just wrapped, 6 ns after the tick at 4294967290 ns. -/
def lowHalfWrapped : State :=
  (State.reset.set F.PWR_DOM_STAT_ON 0x3FFF).modTime fun t => { t with count := 0x100000000, sub := 6 }

/-- Refutes O38, in its clause of TIME_NOW_READ: the read latches the count of the latest tick, whose upper half is still 0 when
the count of the present instant has wrapped its lower half since that tick. -/
theorem not_timeBase : ¬ Obligations.TimeBase := by
  intro H
  have hon : lowHalfWrapped.domOn 11 = true := by decide
  obtain ⟨t, _, hmodel, hstated⟩ := (timeNowRead_high _ hon).and (nowHigh_of_timeBase H _ hon)
  rw [hmodel] at hstated
  exact absurd hstated (by decide)

/-! A full submit queue holds what an internal unit submits (R114). -/

theorem foldl_keeps {α β γ : Type} (p : α → γ) (f : α → β → α) (h : ∀ a b, p (f a b) = p a) :
    ∀ (l : List β) (a : α), p (l.foldl f a) = p a
  | [], _ => rfl
  | b :: t, a => (foldl_keeps p f h t (f a b)).trans (h a b)

/-- Whether a class's queue is full is a matter of the fabric's jobs. -/
theorem classFull_congr {s t : State} (h : t.jobs = s.jobs) (c : Nat) : t.classFull c = s.classFull c := by
  simp only [State.classFull, h]

/-- Into a full queue no job comes. -/
theorem submitInternal_jobs_of_full (s : State) (j : Job) (h : s.classFull j.cls = true) :
    (s.submitInternal j).jobs.jobs = s.jobs.jobs := by
  rw [State.submitInternal, if_pos h]
  rfl

@[simp] theorem State.commitShadow_jobs (s : State) (l : List Nat) : (s.commitShadow l).jobs = s.jobs :=
  foldl_keeps State.jobs _ (fun _ _ => by rfl) l s

@[simp] theorem State.alcShadow_jobs (s : State) : s.alcShadow.jobs = s.jobs := by
  rw [State.alcShadow, State.modAlc_jobs, foldl_keeps State.jobs _ fun t k => t.commitShadow_jobs (alcSlotWords k),
    State.commitShadow_jobs]

@[simp] theorem State.showRec_jobs (s : State) (k : Nat) (r : Option InRec) : (s.showRec k r).jobs = s.jobs := by
  cases r with
  | none => rfl
  | some r =>
    rw [State.showRec, State.setWord_jobs]
    exact foldl_keeps State.jobs _ (fun _ _ => by rfl) _ s

@[simp] theorem State.latchSlot_jobs (s : State) (k : Nat) : (s.latchSlot k).1.jobs = s.jobs := by
  simp only [State.latchSlot, State.setFlag_jobs, State.showRec_jobs]

@[simp] theorem State.latchSlots_jobs (s : State) : s.latchSlots.jobs = s.jobs := by
  rw [State.latchSlots, State.modAlc_jobs, State.setFlag_jobs]
  exact foldl_keeps (fun x : State × List ASlot => x.1.jobs) _ (fun x k => x.1.latchSlot_jobs k) s.alcSlots (s, [])

theorem submitQp_jobs_of_full (s : State) (pass : Nat) (q : Qp) (h : s.classFull 1 = true) :
    (s.submitQp pass q).jobs.jobs = s.jobs.jobs :=
  submitInternal_jobs_of_full _ _ h

theorem startChain_jobs_of_full (s : State) (tau : List Word64) (dofs : List Nat) (h : s.classFull 1 = true) :
    (s.startChain tau dofs).jobs.jobs = s.jobs.jobs := by
  rw [State.startChain, submitQp_jobs_of_full]
  · rw [State.modAlc_jobs, State.latchSlots_jobs]
  · exact (classFull_congr (by rw [State.modAlc_jobs, State.latchSlots_jobs]) 1).trans h

/-- While the queue of C1 is full, QP_LAUNCH brings no job to the fabric. -/
theorem qpLaunch_jobs_of_full (s : State) (h : s.classFull 1 = true) :
    Completes .qpLaunch s fun t => t.jobs.jobs = s.jobs.jobs := by
  have hsh : (s.advanceTo s.atQp).alcShadow.jobs = s.jobs := by simp
  have hold : ∀ (u : State) (w : Word), ((u.setFlag F.SYS_CYC_STAT_DEM_OLD true).event 17 w .crumb).jobs = u.jobs := by simp
  have hchain : ∀ (u : State) (tau : List Word64) (dofs : List Nat), u.jobs = s.jobs →
      (u.startChain tau dofs).jobs.jobs = s.jobs.jobs := fun u tau dofs hu => by
    rw [startChain_jobs_of_full u tau dofs ((classFull_congr hu 1).trans h), hu]
  refine Completes.of rfl ?_
  rw [State.requeue_jobs]
  split
  · dsimp only
    split
    · rw [hsh]
    · split
      · exact hchain _ _ _ hsh
      · exact hchain _ _ _ ((hold _ _).trans hsh)
  · rfl

/-- While the queue of C1 is full, PROJECTION_PHASE brings no job to the fabric. -/
theorem projectionPhase_jobs_of_full (s : State) (h : s.classFull 1 = true) :
    Completes .projectionPhase s fun t => t.jobs.jobs = s.jobs.jobs := by
  refine Completes.of rfl ?_
  rw [State.requeue_jobs]
  split
  · have hadv : ∀ f : Est → Est, (({ s.advanceTo s.atProj with cyc := 2 } : State).modEst f).jobs = s.jobs :=
      fun _ => State.advanceTo_jobs s s.atProj
    exact (submitInternal_jobs_of_full _ _ ((classFull_congr (hadv _) 1).trans h)).trans (congrArg Jobs.jobs (hadv _))
  · rfl

/-- 64 C1 jobs of the service processor wait for their first dispatch: the 28 slots are taken, the queue is full (R114, R125). -/
def c1Waiting : List Job :=
  (List.range 64).map fun i => { newJob 0 0 1 1 4 4 (some 5000000) 8 with ident := i + 1, tag := i, status := if i < 28 then 1 else 0 }

/-- A driving MASTER in a cycle whose snap is taken, with every domain ON, allocation enabled, and the C1 queue full. -/
def c1QueueFull : State :=
  let s := ((State.reset.set F.PWR_DOM_STAT_ON 0x3FFF).set ⟨R.SYS_PERSONA, 0, 5⟩ 16).set F.HA_STAT_STATE 2
  { (s.setFlag F.SYS_CYC_CTRL_RUN true).setShWord R.ALC_CTRL 1 with cyc := 1, jobs := { Jobs.init with jobs := c1Waiting, nextId := 65 } }

theorem c1QueueFull_classFull : c1QueueFull.classFull 1 = true := by decide

theorem c1QueueFull_alcEn : c1QueueFull.alcShadow.flag F.ALC_CTRL_EN = true := by decide +kernel

/-- A job at the place after the last means that one came. -/
theorem no_new_job {α β : Type} {l m : List α} (h : m = l) {f : α → β} {x : β} : (m[l.length]?).map f ≠ some x := by
  subst h
  simp

/-- What O42 says of the projection phase in that state: a job comes. -/
theorem newJob_of_cycleTicksAndPhases (H : Obligations.CycleTicksAndPhases) :
    Completes .projectionPhase c1QueueFull fun t => ((t.jobs.jobs[c1QueueFull.jobs.jobs.length]?).map fun j =>
      (j.unit, j.kind, j.cls, j.proc, j.deadline)) = some (7, 6, 1, 15, stampOf c1QueueFull.atEst) := by
  obtain ⟨_, _, _, hproj, _⟩ := H c1QueueFull .host (by decide) (by decide) (Or.inl rfl) (by decide) (by decide) (by decide) (by decide)
  obtain ⟨t, ht, _, _, hjob⟩ := hproj (by decide) (by decide)
  exact ⟨t, ht, hjob⟩

/-- Refutes O42, in its clause of PROJECTION_PHASE: while 64 C1 jobs wait, the batch is held on its port and no job comes (R114). -/
theorem not_cycleTicksAndPhases : ¬ Obligations.CycleTicksAndPhases := by
  intro H
  obtain ⟨t, _, hkept, hjob⟩ := (projectionPhase_jobs_of_full _ c1QueueFull_classFull).and (newJob_of_cycleTicksAndPhases H)
  exact no_new_job hkept hjob

/-- What O48 says of QP_LAUNCH in that state: a job comes. -/
theorem newJob_of_allocationAndLaunch (H : Obligations.AllocationAndLaunch) :
    Completes .qpLaunch c1QueueFull fun t => ((t.jobs.jobs[c1QueueFull.jobs.jobs.length]?).map fun j =>
      (j.unit, j.kind, j.cls, j.proc, j.conv, j.iters, j.deadline)) = some (6, 3, 1, 15, 1, 64, stampOf c1QueueFull.atQpDl) := by
  obtain ⟨_, hqp, _⟩ := H c1QueueFull .host 0 (by decide) (Or.inl rfl) (by decide) (by decide)
  obtain ⟨t, ht, _, _, _, _, _, _, _, hjob⟩ := hqp (by decide) c1QueueFull_alcEn
  exact ⟨t, ht, hjob⟩

/-- Refutes O48, in its clause of QP_LAUNCH: while 64 C1 jobs wait, pass 0 is held on its port and no job comes (R114). -/
theorem not_allocationAndLaunch : ¬ Obligations.AllocationAndLaunch := by
  intro H
  obtain ⟨t, _, hkept, hjob⟩ := (qpLaunch_jobs_of_full _ c1QueueFull_classFull).and (newJob_of_allocationAndLaunch H)
  exact no_new_job hkept hjob

end Sys2Proof.Machine
end

section
/-!
PROOFS of the family 02_streams. Both statements fail, each at a clause that leaves a case out: what arrives without a checksum (O40)
leaves out the other streams of the same source, and a write of the offset tracker's configuration (O41) its reserved bits.
-/
namespace Sys2Proof.Machine

/-! A sentence without a checksum, and two streams of its source (R35, R40). -/

/-- With every domain ON, UART 3 takes sentences, and streams 9 and 10 take headings from it; stream 10 alone has NOSUM_OK. -/
def twoHeadingStreams : State :=
  [9, 10].foldl (fun s n => (((s.setFlag (F.FE_SC_CFG_EN n) true).set (F.FE_SC_CFG_SRC_KIND n) 1).set (F.FE_SC_CFG_SRC_PORT n) 3).set
      (F.FE_SC_CFG_TYPE n) 4)
    (((State.reset.set F.PWR_DOM_STAT_ON 0x3FFF).setFlag (F.UART_CFG_EN 3) true).setFlag (F.FE_SC_CFG_NOSUM_OK 10) true)

/-- `$GPHDT,90,T` and its CR LF: a heading without a checksum. -/
def headingWithoutSum : List Byte := [0x24, 0x47, 0x50, 0x48, 0x44, 0x54, 0x2C, 0x39, 0x30, 0x2C, 0x54, 0x0D, 0x0A]

/-- The sentence as UART 3 reads it. -/
def headingRead : Sentence := readSentence (headingWithoutSum.map (twoHeadingStreams.uartBits 3))

theorem headingRead_is_read : headingRead.chars ≤ 82 ∧ headingRead.proprietary = false ∧ 0 < headingRead.sel ∧ headingRead.sel ≤ 9 := by
  decide

theorem headingRead_for_stream9 : (9, 4) ∈ twoHeadingStreams.sentenceStreams 1 3 headingRead := by decide

/-- Stream 9 refuses it: it has no checksum, and NOSUM_OK of stream 9 is 0. -/
theorem headingRead_not_good :
    ¬ (headingRead.sum = some true ∨ headingRead.sum = none ∧ twoHeadingStreams.flag (F.FE_SC_CFG_NOSUM_OK 9) = true) := by
  decide

/-- The model delivers it to stream 10, which accepts a sentence without a checksum. -/
theorem stream10_takes_heading :
    Completes (.sentenceReceive 3 headingWithoutSum 0) twoHeadingStreams fun t => (t.stream 10).queue.length = 1 :=
  Completes.of rfl (by decide +kernel)

/-- What O40 says of the sentence that stream 9 refuses: no stream changes. -/
theorem streams_of_streamIngress (H : Obligations.StreamIngress) :
    Completes (.sentenceReceive 3 headingWithoutSum 0) twoHeadingStreams fun t => t.fe.streams = twoHeadingStreams.fe.streams := by
  obtain ⟨hsentence, _⟩ := H twoHeadingStreams 3 headingWithoutSum 0 9 4 0 0 0 ⟨0, 0, []⟩ 0 0 0 0 0 0 0 none 0 0 []
  obtain ⟨_, hbadsum, _⟩ := hsentence (by decide) headingRead_is_read
  obtain ⟨t, ht, hstreams, _⟩ := hbadsum headingRead_for_stream9 headingRead_not_good
  exact ⟨t, ht, hstreams⟩

/-- Refutes O40, in its clause of a sentence that counts BADSUM: the sentence without a checksum that stream 9 refuses is delivered
to stream 10, whose NOSUM_OK is 1 (R35, R40), so the streams do not stay as they were. -/
theorem not_streamIngress : ¬ Obligations.StreamIngress := by
  intro H
  obtain ⟨t, _, hone, hsame⟩ := stream10_takes_heading.and (streams_of_streamIngress H)
  rw [State.stream, hsame] at hone
  exact absurd hone (by decide)

/-! The reserved bits of FE_SC_OFSCFG (R13, R14, R54). -/

/-- FE_SC_OFSCFG's row of the register map: bits [11:9] are reserved. -/
def ofscfgRow : RegDesc := ⟨0x40110128, [(127, 0x100)], 3, 3, 7, 0xD0, 0xFFFFF1FF, 0, 0, 0, 0, 0, 0, 0⟩

theorem regDesc_ofscfg : ∀ n : Fin 128, n ≠ 0 → regDesc (R.FE_SC_OFSCFG n.val) = some ofscfgRow := by decide

/-- What a plain write of a domain named for it leaves in FE_SC_OFSCFG. -/
theorem writtenWord_ofscfg {d : Dom} (hd : d = .host ∨ d = .svc) (old v : Word) :
    writtenWord ofscfgRow d old v = (old &&& 0xE00) ||| (v &&& 0xFFFFF1FF) := by
  have hclears : ((old &&& 0xE00#32) ||| (v &&& 0xFFFFF1FF#32)) &&& ~~~(v &&& 0#32) = (old &&& 0xE00#32) ||| (v &&& 0xFFFFF1FF#32) := by
    rw [BitVec.and_zero, BitVec.not_zero, BitVec.and_allOnes]
  rcases hd with rfl | rfl <;> exact hclears

/-- Starting to learn writes FE_SC_OFSSTAT alone. -/
theorem learnStart_word (s : State) (n : Nat) {a : Nat} (h : a ≠ R.FE_SC_OFSSTAT n) : (s.learnStart n).word a = s.word a :=
  (State.word_setWord_ne _ h _).trans (State.word_setWord_ne _ h _)

/-- OFSCFG_WRITE leaves the reserved bits as they were and takes the others. -/
theorem ofscfgWrite_word (s : State) {d : Dom} (n : Fin 128) (v : Word) (hd : d = .host ∨ d = .svc) (hn : n ≠ 0)
    (hon : s.domOn 7 = true) : Completes (.ofscfgWrite d n v) s fun t =>
      t.word (R.FE_SC_OFSCFG n.val) = (s.word (R.FE_SC_OFSCFG n.val) &&& 0xE00) ||| (v &&& 0xFFFFF1FF) := by
  have hrow := regDesc_ofscfg n hn
  have hpass : passes d (R.FE_SC_OFSCFG n.val) 7 = true := by
    rw [passes, hrow]
    rcases hd with rfl | rfl <;> decide
  have hplain : s.plainWrite d (R.FE_SC_OFSCFG n.val) v
      = (s.setWord (R.FE_SC_OFSCFG n.val) ((s.word (R.FE_SC_OFSCFG n.val) &&& 0xE00) ||| (v &&& 0xFFFFF1FF)), .ok) := by
    simp only [State.plainWrite, hrow, writeGuard_pass s _ hpass hon, writtenWord_ofscfg hd]
  have hstat : R.FE_SC_OFSCFG n.val ≠ R.FE_SC_OFSSTAT n.val := by simp only [R.FE_SC_OFSCFG, R.FE_SC_OFSSTAT]; omega
  refine Completes.of rfl ?_
  have hval : n.val ≠ 0 := fun h => hn (Fin.ext h)
  rw [State.requeue_word, if_neg hval, ofscfgWrite, hplain, if_pos rfl, learnStart_word _ _ hstat,
    State.word_setWord_same]

/-- With every domain ON, after reset. -/
def domainsOn : State := State.reset.set F.PWR_DOM_STAT_ON 0x3FFF

/-- What O41 says of a write of the reserved bits of stream 9: the register holds them. -/
theorem ofscfg_of_streamContexts (H : Obligations.StreamContextsAndUarts) :
    Completes (.ofscfgWrite .host 9 0xE00) domainsOn fun t => t.word (R.FE_SC_OFSCFG (9 : Fin 128).val) = 0xE00 := by
  obtain ⟨hcontexts, _⟩ := H domainsOn 9 0xE00 .host 0 0 false false 0 [] 0
  obtain ⟨_, hnamed, _⟩ := hcontexts (by decide)
  obtain ⟨_, _, _, _, hofscfg⟩ := hnamed (by decide) (Or.inl rfl)
  obtain ⟨t, ht, hword, _⟩ := hofscfg
  exact ⟨t, ht, hword⟩

/-- Refutes O41, in its clause of OFSCFG_WRITE: bits [11:9] of FE_SC_OFSCFG are reserved and read 0, whatever is written (R13, R14). -/
theorem not_streamContextsAndUarts : ¬ Obligations.StreamContextsAndUarts := by
  intro H
  obtain ⟨t, _, hmodel, hstated⟩ :=
    (ofscfgWrite_word domainsOn 9 0xE00 (Or.inl rfl) (by decide) (by decide)).and (ofscfg_of_streamContexts H)
  rw [hmodel] at hstated
  exact absurd hstated (by decide)

end Sys2Proof.Machine
end

section
/-!
PROOFS of the family 03_projection_alignment. Its statement fails at the word that a write of FE_SURV_CTRL leaves (O44): a write
takes bits [16:0] and leaves the reserved bits [31:17] as they stood, and the statement does not ask that they read 0 before.
-/
namespace Sys2Proof.Machine

/-- A plain write that its register takes stores the written word. -/
theorem plainWrite_pass (s : State) {d : Dom} {a p : Nat} {r : RegDesc} (v : Word) (hrow : regDesc a = some r)
    (h : passes d a p = true) (hp : s.domOn p = true) :
    s.plainWrite d a v = (s.setWord a (writtenWord r d (s.word a) v), .ok) := by
  rw [State.plainWrite, hrow]
  exact writeGuard_pass s _ h hp

/-- A register apart from the one whose field was written. -/
theorem State.word_set_ne (s : State) (f : Fld) (n : Nat) {a : Nat} (h : a ≠ f.addr) : (s.set f n).word a = s.word a :=
  State.word_setWord_ne s h _

theorem State.word_setFlag_ne (s : State) (f : Fld) (b : Bool) {a : Nat} (h : a ≠ f.addr) : (s.setFlag f b).word a = s.word a :=
  s.word_set_ne f _ h

/-- Survey adjustment's own state is no register. -/
theorem State.word_withSurv (s : State) (u : Survey) (a : Nat) : ({ s with surv := u } : State).word a = s.word a := rfl

/-- FE_SURV_CTRL's row of the register map: bits [31:17] are reserved. -/
def survCtrlRow : RegDesc := ⟨0x40100018, [], 3, 3, 7, 0x64, 0x1FFFF, 0, 0, 0, 0, 0, 0, 0⟩

theorem regDesc_survCtrl : regDesc R.FE_SURV_CTRL = some survCtrlRow := by decide

/-- What a write of a domain named for it leaves in FE_SURV_CTRL. -/
theorem writtenWord_survCtrl {d : Dom} (hd : d = .host ∨ d = .svc) (old v : Word) :
    writtenWord survCtrlRow d old v = (old &&& 0xFFFE0000) ||| (v &&& 0x1FFFF) := by
  have hclears : ((old &&& 0xFFFE0000#32) ||| (v &&& 0x1FFFF#32)) &&& ~~~(v &&& 0#32)
      = (old &&& 0xFFFE0000#32) ||| (v &&& 0x1FFFF#32) := by
    rw [BitVec.and_zero, BitVec.not_zero, BitVec.and_allOnes]
  rcases hd with rfl | rfl <;> exact hclears

/-- SURVEY_REC_WRITE takes bits [16:0] of FE_SURV_CTRL and leaves the others, whether or not it discards the stored epochs: what it
discards stands in FE_SURV_STAT. -/
theorem surveyRecWrite_word (s : State) {d : Dom} (v : Word) (hd : d = .host ∨ d = .svc) (hon : s.domOn 7 = true) :
    Completes (.surveyRecWrite d v) s fun t =>
      t.word R.FE_SURV_CTRL = (s.word R.FE_SURV_CTRL &&& 0xFFFE0000) ||| (v &&& 0x1FFFF) := by
  have hpass : passes d R.FE_SURV_CTRL 7 = true := by rcases hd with rfl | rfl <;> decide
  have hstat : R.FE_SURV_CTRL ≠ R.FE_SURV_STAT := by decide
  refine Completes.of rfl ?_
  rw [State.requeue_word, survCtrlWrite, plainWrite_pass s v regDesc_survCtrl hpass hon, writtenWord_survCtrl hd]
  split
  · dsimp only
    rw [State.word_withSurv]
    rw [State.word_setFlag_ne, State.word_set_ne, State.word_setFlag_ne, State.word_set_ne, State.word_setWord_same]
    all_goals exact hstat
  · exact State.word_setWord_same _ _ _

/-- What O44 says of a write of 0 to FE_SURV_CTRL: the whole register reads 0 after it. -/
theorem survCtrl_of_estimatorSurvey (H : Obligations.EstimatorSurvey) (s : State) (hon : s.domOn 7 = true) :
    Completes (.surveyRecWrite .host 0) s fun t => t.word R.FE_SURV_CTRL = 0 := by
  obtain ⟨_, _, hrec, _⟩ := H s .host 0 hon (Or.inl rfl)
  obtain ⟨t, ht, hword, _⟩ := hrec
  exact ⟨t, ht, hword⟩

/-- With every domain ON, a reserved bit of FE_SURV_CTRL reads 1. -/
def survCtrlReservedSet : State := domainsOn.setWord R.FE_SURV_CTRL 0x80000000

/-- Refutes O44, in its clause of SURVEY_REC_WRITE: a write reaches no reserved bit (R13), so where bit 31 of FE_SURV_CTRL stands at 1
a write of 0 leaves it, and the register does not hold the written word's bits [16:0] alone. By R14 reserved bits read as 0; the
statement speaks of every state, and does not ask this of it. -/
theorem not_estimatorSurvey : ¬ Obligations.EstimatorSurvey := by
  intro H
  have hon : survCtrlReservedSet.domOn 7 = true := by decide
  obtain ⟨t, _, hmodel, hstated⟩ :=
    (surveyRecWrite_word survCtrlReservedSet 0 (Or.inl rfl) hon).and (survCtrl_of_estimatorSurvey H _ hon)
  rw [hmodel] at hstated
  exact absurd hstated (by decide)

end Sys2Proof.Machine
end

section
/-!
PROOFS of the family 04_estimator. Both statements fail at the same place: before the snap (O43), and after station-keeping's
publication (O47), the Command Port may answer a station-keeping operation (R324, R333), and its reply over UDP is counted among the
frames of the port that the operation came in on. The statements speak of every state, also of one whose operation names a port past
the five there are; the counter of that port then has the address of another register. PACKET_RECEIVE takes one of the five, so
these states are not meant: what both statements leave out is a premise on the running operation's port. Whether they hold with it
is not settled here.
-/
namespace Sys2Proof.Machine

/-! What is read of one register. -/

/-- A field of a register that has the same word. -/
theorem State.get_congr {s t : State} {f : Fld} (h : t.word f.addr = s.word f.addr) : t.get f = s.get f := congrArg f.of h

theorem State.isMaster_congr {s t : State} (h : t.word R.SYS_PERSONA = s.word R.SYS_PERSONA) : t.isMaster = s.isMaster := by
  have hmatch : t.get F.SYS_PERSONA_MATCH = s.get F.SYS_PERSONA_MATCH := State.get_congr h
  have hpersona : t.get F.SYS_PERSONA_PERSONA = s.get F.SYS_PERSONA_PERSONA := State.get_congr h
  simp only [State.isMaster, State.matched, State.persona, State.flag, hmatch, hpersona]

/-! One occurrence of a counted event (R386, R387). -/

/-- Counter n takes the next occurrence of its event: no freeze, no pair below it, no overflow (R387 to R389). -/
structure State.CountsAt (s : State) (n : Nat) : Prop where
  unfrozen : s.flag F.PMU_CTL_FREEZE = false
  unpaired : s.flag (F.PMU_CFG_CHAIN (n - 1)) = false
  room : s.pmuVal n + 1 < 2 ^ 48

theorem pmuAddAt_of_room {s : State} {n k : Nat} (h : s.pmuVal n + k < 2 ^ 48) (f : Nat) :
    s.pmuAddAt n k (f + 1) = (s.pmuPut n (s.pmuVal n + k), []) := by
  rw [State.pmuAddAt, Nat.mod_eq_of_lt h]
  exact if_pos (Nat.div_eq_of_lt h)

theorem pmu_eq_pmuPut {s : State} {n : Nat} (h : s.CountsAt n) : s.pmu n = s.pmuPut n (s.pmuVal n + 1) := by
  obtain ⟨hfreeze, hpair, hroom⟩ := h
  have hraw : s.pmuRaw n 1 = (s.pmuPut n (s.pmuVal n + 1), []) := by
    rw [State.pmuRaw, hfreeze, hpair, Bool.and_false]
    exact pmuAddAt_of_room hroom 255
  rw [State.pmu, hraw]
  rfl

theorem ofNat_pmuVal_add_one (s : State) (n : Nat) : BitVec.ofNat 32 (s.pmuVal n + 1) = s.word (R.PMU_CNTL n) + 1 := by
  have hone : (1 : Word).toNat = 1 := rfl
  refine BitVec.eq_of_toNat_eq ?_
  simp only [State.pmuVal, BitVec.toNat_ofNat, BitVec.toNat_add, hone]
  omega

/-- The occurrence shows in PMU_CNTLn and in no other register. -/
theorem word_pmu {s : State} {n : Nat} (h : s.CountsAt n) (a : Nat) :
    (s.pmu n).word a = if a = R.PMU_CNTL n then s.word a + 1 else s.word a := by
  rw [pmu_eq_pmuPut h, State.pmuPut, State.setShWord_word, State.word_setWord, ofNat_pmuVal_add_one]
  split
  · next ha => rw [ha]
  · rfl

/-! A Command Port reply over UDP on an idle port (R250, R318, R386). -/

/-- Nothing waits on port p, its transmitter is free, and no plant port is held. -/
structure State.PortIdle (s : State) (p : Nat) : Prop where
  empty : s.txq p = []
  free : s.net.busy.getD p 0 ≤ s.now
  unheld : s.ha.holdTx = false

/-- A Command Port reply that leaves is counted as a frame of its port, and writes no other register. -/
theorem word_leave {s : State} {p : Nat} (h : s.CountsAt (72 + p)) (t : Nat) {e : TxEnt} {src : Nat} (hfill : e.fill = .reply src)
    (hdesc : e.desc = none) (status a : Nat) :
    (s.leave p t e status).word a = if a = R.PMU_CNTL (72 + p) then s.word a + 1 else s.word a := by
  have hnet : ∀ f : Net → Net, (s.modNet f).CountsAt (72 + p) := fun _ => ⟨h.unfrozen, h.unpaired, h.room⟩
  have hegress : ∀ u : State, u.noteEgress p t e.fill = u := fun u => by rw [hfill]; rfl
  rw [State.leave, hegress, State.descDone, hdesc]
  exact (State.emit_word _ _ _).trans (word_pmu (hnet _) a)

theorem flush_of_empty {s : State} {p : Nat} (h : s.txq p = []) : s.flush p = s := by
  rw [State.flush, h]
  rfl

theorem txq_modTx (s : State) (p : Nat) (f : List TxEnt → List TxEnt) :
    (s.modNet fun x => { x with tx := padMod [] p f x.tx }).txq p = f (s.txq p) :=
  (getD_padMod [] f p p s.net.tx).trans (if_pos rfl)

/-- The one frame of a port whose transmitter is free leaves as it was given. -/
theorem flush_of_single {s : State} {p : Nat} {e : TxEnt} (hq : s.txq p = [e]) (hfree : s.net.busy.getD p 0 ≤ s.now)
    (hheld : s.ha.holdTx = false) (hlaunch : e.launch = none) (hsince : e.since = s.now) :
    s.flush p = (s.modNet fun x => { x with tx := padMod [] p (fun q => q.erase e) x.tx }).leave p s.now e 1 := by
  have hleaves : s.txFree p = [e] := by
    have hnot : s.txHeld p e = false := by simp [State.txHeld, hheld]
    simp [State.txFree, hq, hnot]
  have hfits : s.fits p s.now e = true := by simp [State.fits, State.nextLaunch, hleaves, State.launchAt, hlaunch]
  have hat : max e.since (s.net.busy.getD p 0) = s.now := by rw [hsince]; exact Nat.max_eq_left hfree
  rw [State.flush, hq]
  simp only [List.length_singleton, State.drain, hleaves, List.find?_cons, hlaunch, Option.isNone_none, hat, hfits, Nat.le_refl,
    decide_true, Bool.and_self, if_true]

/-- On an idle port a Command Port reply leaves at once: one more frame of that port. -/
theorem word_sendFill_reply {s : State} {p : Nat} (h : s.PortIdle p) (hc : s.CountsAt (72 + p)) (dst kind : Nat) (b : List Byte)
    (src a : Nat) :
    (s.sendFill p dst kind b (.reply src)).word a = if a = R.PMU_CNTL (72 + p) then s.word a + 1 else s.word a := by
  obtain ⟨hempty, hfree, hheld⟩ := h
  have hnet : ∀ f g : Net → Net, ((s.modNet f).modNet g).CountsAt (72 + p) := fun _ _ => ⟨hc.unfrozen, hc.unpaired, hc.room⟩
  rw [State.sendFill, State.queueTx, flush_of_empty hempty,
    flush_of_single (by rw [txq_modTx, hempty]; rfl) (by exact hfree) (by exact hheld) rfl rfl]
  exact word_leave (hnet _ _) _ rfl rfl 1 a

/-! A Command Port operation whose reply leaves at once. -/

/-- An operation runs that came over UDP, and the port of its reply is idle and counts the frame. -/
structure State.RepliesAtOnce (s : State) (o : CpOp) : Prop where
  runs : s.cp.op = some o
  udp : o.transport = 2
  idle : s.PortIdle o.via
  counts : s.CountsAt (72 + o.via)

theorem word_cpFinish {s : State} {o : CpOp} (h : s.RepliesAtOnce o) (st : CpSt) (body : List Byte) {a : Nat} (ha : a ≠ R.CP_STAT) :
    (s.cpFinish st body).word a = if a = R.PMU_CNTL (72 + o.via) then s.word a + 1 else s.word a := by
  obtain ⟨hruns, hudp, hidle, hcounts⟩ := h
  rw [State.cpFinish, hruns]
  dsimp only
  rw [hudp, State.showCp]
  exact (State.word_set_ne _ F.CP_STAT_BUSY _ ha).trans (word_sendFill_reply hidle hcounts _ _ _ _ a)

/-- After a release that took the request, the operation is answered with its result (R333). -/
theorem word_cpSkTaken {s : State} {o : CpOp} (h : s.RepliesAtOnce o) (hsk : 0x40 ≤ o.op ∧ o.op ≤ 0x43) (hreq : s.sk.req = none)
    {a : Nat} (ha : a ≠ R.CP_STAT) :
    s.cpSkTaken.word a = if a = R.PMU_CNTL (72 + o.via) then s.word a + 1 else s.word a := by
  have hanswers : ¬ ((!(0x40 ≤ o.op && o.op ≤ 0x43) || s.sk.req.isSome) = true) := by simp [hsk, hreq]
  have hreplies : ∀ k : Sk, ({ s with sk := k } : State).RepliesAtOnce o := fun _ =>
    ⟨h.runs, h.udp, ⟨h.idle.empty, h.idle.free, h.idle.unheld⟩, ⟨h.counts.unfrozen, h.counts.unpaired, h.counts.room⟩⟩
  rw [State.cpSkTaken, h.runs]
  dsimp only
  rw [if_neg hanswers]
  exact word_cpFinish (hreplies _) _ _ ha

/-- An operation whose request no release has taken in time is answered (R324). -/
theorem word_cpSkExpire {s : State} {o : CpOp} (h : s.RepliesAtOnce o) (hsk : 0x40 ≤ o.op ∧ o.op ≤ 0x43)
    (hlate : o.startAt + s.tDp + 300000 < s.now) {a : Nat} (ha : a ≠ R.CP_STAT) :
    s.cpSkExpire.word a = if a = R.PMU_CNTL (72 + o.via) then s.word a + 1 else s.word a := by
  rw [State.cpSkExpire, h.runs]
  dsimp only
  rw [if_pos (by simp [hsk, hlate])]
  exact word_cpFinish h _ _ ha

/-- A running SK_MODE operation that came over UDP on a port, begun at 0. -/
def skModeVia (port : Nat) : CpOp := ⟨0x40, 2, port, 0, 1, [], [], 0, false⟩

/-! The tick (R17). -/

/-- A tick up to the Command Port's answer. -/
def State.tickBegun (s : State) : State :=
  let s := (((s.advanceTo s.nextTick).showTick).pmu 2).ckAbandon.endSeizing
  if s.flag F.PMU_CTL_SNAP_TICK then s.pmuSnap else s

/-- The tick of a MASTER that does not drive once the Command Port has answered takes no snap: of the registers it changes HA_STAT
alone. -/
theorem word_cycleTick_of_not_driving {s u : State} (hu : s.tickBegun.cpSkExpire = u) (hnet : s.domOn 11 = true)
    (hmaster : s.isMaster = true) (humaster : u.isMaster = true) (hidle : u.drives = false) {a : Nat}
    (ha : a ≠ R.HA_STAT) : s.cycleTick.word a = u.word a := by
  have hmatched : s.matched = true := by rw [State.isMaster, Bool.and_eq_true] at hmaster; exact hmaster.1
  have hhead : u.isHead = false := by
    rw [State.isMaster, Bool.and_eq_true, beq_iff_eq] at humaster
    rw [State.isHead, humaster.2]; exact Bool.and_false _
  unfold State.cycleTick
  unfold State.tickBegun at hu
  simp only [hnet, hmatched, Bool.not_true, Bool.or_self, Bool.false_eq_true, if_false] at hu ⊢
  rw [hu]
  generalize hv : u.modAlc _ = v
  have hword : v.word a = u.word a := by rw [← hv]; rfl
  have hvidle : v.drives = false := by rw [← hv]; exact hidle
  have hvmaster : ∀ c, ({ v with cyc := c } : State).isMaster = true := fun _ => by subst hv; exact humaster
  have hvhead : ∀ c, ({ v with cyc := c } : State).isHead = false := fun _ => by subst hv; exact hhead
  simp only [hvidle, hvmaster, hvhead, Bool.or_self, Bool.and_false, Bool.false_and, Bool.true_or, Bool.false_eq_true, if_false, if_true]
  exact (State.word_set_ne _ F.HA_STAT_CKPT_VALID _ ha).trans hword

/-- A MASTER with every domain ON, ISOLATED, at Q2 since 0 s and at the tick at 900 s; an operation runs on the port whose counter of
frames sent has the address of HA_STAT. -/
def drExpired : State :=
  ((((estUp.set F.FE_EST_STAT_QUAL 2).set F.HA_STAT_STATE 3).modEst fun e => { e with drAt := some 0 }).modTime fun t =>
    { t with count := 900000000000 }).modCp fun c => { c with op := some (skModeVia 351673) }

theorem drExpired_counter : R.PMU_CNTL (72 + (skModeVia 351673).via) = R.HA_STAT := by decide

theorem drExpired_replies : drExpired.tickBegun.RepliesAtOnce (skModeVia 351673) where
  runs := by decide +kernel
  udp := rfl
  idle := ⟨by decide +kernel, by decide +kernel, by decide +kernel⟩
  counts := ⟨by decide +kernel, by decide +kernel, by decide +kernel⟩

theorem drExpired_late : 0 + drExpired.tickBegun.tDp + 300000 < drExpired.tickBegun.now := by decide +kernel

theorem drExpired_begun : F.HA_STAT_STATE.of (drExpired.tickBegun.word R.HA_STAT + 1) = 4 ∧ drExpired.tickBegun.isMaster = true
    ∧ drExpired.tickBegun.get F.FE_EST_STAT_QUAL = 2 := by decide +kernel

/-- The answer is counted in HA_STAT. -/
theorem drExpired_answered {a : Nat} (ha : a ≠ R.CP_STAT) : drExpired.tickBegun.cpSkExpire.word a
    = if a = R.HA_STAT then drExpired.tickBegun.word a + 1 else drExpired.tickBegun.word a := by
  rw [← drExpired_counter]
  exact word_cpSkExpire drExpired_replies (by decide) drExpired_late ha

/-- So the unit goes from ISOLATED to DEMOTED. -/
theorem drExpired_demoted : drExpired.tickBegun.cpSkExpire.drives = false := by
  have hstate : drExpired.tickBegun.cpSkExpire.haState = 4 :=
    (congrArg F.HA_STAT_STATE.of ((drExpired_answered (by decide)).trans (if_pos rfl))).trans drExpired_begun.1
  rw [State.drives, hstate]
  exact Bool.and_false _

/-- The tick takes no snap, and Q2 stays. -/
theorem drExpired_stays_q2 : Completes .drExpire drExpired fun t => t.get F.FE_EST_STAT_QUAL = 2 := by
  obtain ⟨_, hmaster, hqual⟩ := drExpired_begun
  have hkept : ∀ {a : Nat}, a ≠ R.CP_STAT → a ≠ R.HA_STAT → drExpired.tickBegun.cpSkExpire.word a = drExpired.tickBegun.word a :=
    fun hcp hha => (drExpired_answered hcp).trans (if_neg hha)
  have hmaster' : drExpired.tickBegun.cpSkExpire.isMaster = true :=
    (State.isMaster_congr (hkept (by decide) (by decide))).trans hmaster
  have htick : drExpired.cycleTick.word R.FE_EST_STAT = drExpired.tickBegun.word R.FE_EST_STAT :=
    (word_cycleTick_of_not_driving rfl (by decide +kernel) (by decide +kernel) hmaster' drExpired_demoted (by decide)).trans
      (hkept (by decide) (by decide))
  have hstays : drExpired.cycleTick.get F.FE_EST_STAT_QUAL = 2 := (State.get_congr (f := F.FE_EST_STAT_QUAL) htick).trans hqual
  have hat : drExpired.est.drAt = some 0 := rfl
  refine Completes.of rfl ?_
  rw [State.requeue_get, hat]
  dsimp only
  rw [if_pos (by decide +kernel), hstays]

/-- What O43 says of DR_EXPIRE in that state: Q2 ends. -/
theorem leaves_q2_of_qualitySteps (H : Obligations.QualitySteps) :
    Completes .drExpire drExpired fun t => t.get F.FE_EST_STAT_QUAL ≠ 2 := by
  obtain ⟨hexpire, _⟩ := H drExpired (by decide)
  obtain ⟨t, ht, _, hqual⟩ := hexpire 0 rfl (by decide) (by decide +kernel) (by decide +kernel)
  exact ⟨t, ht, hqual⟩

/-- Refutes O43, in its clause of DR_EXPIRE: before the snap the tick answers a station-keeping operation (R324), whose port is none
of the five; the frame sent is counted in HA_STAT, the unit is DEMOTED, and no snap judges the quality, which stays Q2. -/
theorem not_qualitySteps : ¬ Obligations.QualitySteps := by
  intro H
  obtain ⟨t, _, hmodel, hstated⟩ := drExpired_stays_q2.and (leaves_q2_of_qualitySteps H)
  exact hstated hmodel

/-! The DP core's release (R93). -/

/-- A release of task 14 on a MASTER up to the Command Port's answer. -/
def State.dpReleased (s : State) (due : Nat) : State :=
  let s := (s.advanceTo due).modTask 14 fun t => { t with handled := some due }
  let s := s.modTask 14 fun t => { t with stamp := stampOf due, relAt := due, begun := false }
  let s := (s.setTState 14 tCopyIn).setWord (R.BE_TRELL 14) ((stampOf due).truncate 32)
  ((s.askCopy 14 false).skRelease).speGate

/-- On a MASTER the release of a task 14 at rest runs the DP core, and then the Command Port answers. -/
theorem release_dpCore {s : State} (hmaster : s.isMaster = true) (hrest : s.tState 14 ≤ 1) (due : Nat) :
    s.release 14 due = (s.dpReleased due).cpSkTaken := by
  have hstate : ∀ f : Task → Task, ((s.advanceTo due).modTask 14 f).tState 14 = s.tState 14 := fun _ =>
    State.advanceTo_get s due (x := F.BE_TSTAT_STATE 14) (by simp only [Book, F.BE_TSTAT_STATE, R.BE_TSTAT]; omega)
  have hfault : s.tState 14 ≠ tFault := by rw [tFault]; omega
  have hbusy : ∀ f : Task → Task, ((s.advanceTo due).modTask 14 f).taskBusy 14 = false := fun f => by
    rw [State.taskBusy, hstate, decide_eq_false (by rw [tCopyIn]; omega), Bool.false_and]
  have hcopying : ∀ (f g : Task → Task) (v : Word),
      ((((((s.advanceTo due).modTask 14 f).modTask 14 g).setTState 14 tCopyIn).setWord (R.BE_TRELL 14) v).askCopy 14 false).isMaster
        = true := fun f g v => by
    refine (State.isMaster_congr ?_).trans hmaster
    refine (State.word_setWord_ne _ (by decide) _).trans ((State.word_set_ne _ _ _ (by decide)).trans ?_)
    exact State.advanceTo_word s due (by simp only [Book, R.SYS_PERSONA]; omega)
  rw [State.release]
  dsimp only
  rw [hstate, if_neg hfault, hbusy, if_neg Bool.false_ne_true, hcopying]
  rfl

/-- A task's release comes when the task may be released, one of BASE 1 in its cycle. -/
theorem exec_taskRelease {s : State} {n : Fin 16} (hmay : s.mayRelease n.val = true)
    (hcycle : s.flag (F.BE_TCFG_BASE n.val) = true → s.nextRelease n.val ≤ s.cycleDue n.val) :
    exec (.taskRelease n) s = s.ends (s.release n.val (s.nextRelease n.val)) := by
  have hnow : ¬ ((s.flag (F.BE_TCFG_BASE n.val) && decide (s.cycleDue n.val < s.nextRelease n.val)) = true) := by
    simpa using hcycle
  show s.ends (if !s.mayRelease n.val then s else _) = _
  rw [hmay]
  exact congrArg s.ends (if_neg hnow)

/-- A driving MASTER with every domain ON, in STANDBY at Q0 with no request, whose task 14 is due at PH_SK; an operation runs on the
port whose counter of frames sent has the address of SK_OUT_CYC. -/
def dpDue : State := (skOn.set F.FE_OUT_Q_QUAL 0).modCp fun c => { c with op := some (skModeVia 138744) }

theorem dpDue_counter : R.PMU_CNTL (72 + (skModeVia 138744).via) = R.SK_OUT_CYC := by decide

theorem dpReleased_replies : (dpDue.dpReleased (dpDue.nextRelease 14)).RepliesAtOnce (skModeVia 138744) where
  runs := by decide +kernel
  udp := rfl
  idle := ⟨by decide +kernel, by decide +kernel, by decide +kernel⟩
  counts := ⟨by decide +kernel, by decide +kernel, by decide +kernel⟩

theorem dpReleased_published : (dpDue.dpReleased (dpDue.nextRelease 14)).word R.SK_OUT_CYC = dpDue.cycNum
    ∧ (dpDue.dpReleased (dpDue.nextRelease 14)).sk.req = none := by decide +kernel

/-- The answer is counted in SK_OUT_CYC, which the release has just published. -/
theorem dpDue_counts_in_cyc : Completes (.taskRelease 14) dpDue fun t => t.word R.SK_OUT_CYC = dpDue.cycNum + 1 := by
  obtain ⟨hcyc, hreq⟩ := dpReleased_published
  refine Completes.of (exec_taskRelease (by decide +kernel) (by decide +kernel)) ?_
  rw [State.requeue_word]
  show (dpDue.release 14 (dpDue.nextRelease 14)).word R.SK_OUT_CYC = _
  rw [release_dpCore (by decide) (by decide), word_cpSkTaken dpReleased_replies (by decide) hreq (by decide),
    if_pos dpDue_counter.symm, hcyc]

/-- What O47 says of the release in that state: SK_OUT_CYC shows the cycle's number. -/
theorem cycleNumber_of_stationKeeping (H : Obligations.StationKeeping) :
    Completes (.taskRelease 14) dpDue fun t => t.word R.SK_OUT_CYC = dpDue.cycNum := by
  obtain ⟨_, _, _, _, _, _, _, _, hstays, _⟩ := H dpDue .host 0 false 0 0 (by decide) (Or.inl rfl)
  obtain ⟨t, ht, _, _, hcyc, _⟩ := hstays (by decide +kernel) rfl (by decide) (by decide) (by decide)
  exact ⟨t, ht, hcyc⟩

/-- Refutes O47, in its clause of a release without a request: after SK_OUT_CYC shows the cycle's number, the release answers a
station-keeping operation (R333), whose port is none of the five; the frame sent is counted in SK_OUT_CYC. -/
theorem not_stationKeeping : ¬ Obligations.StationKeeping := by
  intro H
  obtain ⟨t, _, hmodel, hstated⟩ := dpDue_counts_in_cyc.and (cycleNumber_of_stationKeeping H)
  rw [hmodel] at hstated
  exact absurd hstated (by decide)

end Sys2Proof.Machine
end

section
/-!
PROOFS of the family 05_reference_targets. Both statements fail. ASSIGN mode once entered (O45) leaves out the time between the
applied assignment and the next snap: TRK_STAT.MODE still stands at 1, but nothing is pending, and a trigger begins it anew. The
tracker's pass (O46) leaves out that the next job number is free: where a state is about to give the pass's own number again, the
ego-motion job takes it. No such state has its jobs numbered (State.JobsNumbered, the premise of O7): what O46 leaves out is that
premise. Whether it holds with it is not settled here.
-/
namespace Sys2Proof.Machine

/-! TRK_CTRL (R14, R82, R88). -/

/-- A write to the shadow copy that its register takes stores the written word there. -/
theorem shadowWrite_pass (s : State) {d : Dom} {a p : Nat} {r : RegDesc} (v : Word) (hrow : regDesc a = some r)
    (h : passes d a p = true) (hp : s.domOn p = true) :
    s.shadowWrite d a v = (s.setShWord a (writtenWord r d (s.shWord a) v), .ok) := by
  rw [State.shadowWrite, hrow]
  exact writeGuard_pass s _ h hp

/-- TRK_CTRL's row of the register map. -/
def trkCtrlRow : RegDesc := ⟨0x40130000, [], 3, 3, 7, 0x642C00, 0xFFFF01, 0, 0, 2, 0, 0, 0, 0⟩

theorem regDesc_trkCtrl : regDesc R.TRK_CTRL = some trkCtrlRow := by decide

/-- FORCE_ASSIGN takes the word as written to the shadow copy and asks for ASSIGN mode with cause 5. -/
theorem forceAssign_trkAssign (s : State) {d : Dom} (hd : d = .host ∨ d = .svc) (hon : s.domOn 7 = true) :
    exec (.forceAssign d) s
      = s.ends ((s.setShWord R.TRK_CTRL (writtenWord trkCtrlRow d (s.shWord R.TRK_CTRL) (s.shWord R.TRK_CTRL ||| 2))).trkAssign 5) := by
  have hpass : passes d R.TRK_CTRL 7 = true := by rcases hd with rfl | rfl <;> decide
  have hnamed : domIn d 3 = true := by rcases hd with rfl | rfl <;> decide
  show s.ends (trkCtrlWrite s d _).1 = _
  rw [trkCtrlWrite, shadowWrite_pass s _ regDesc_trkCtrl hpass hon]
  simp [hnamed]

/-! ASSIGN mode begun anew (R88, R90). -/

/-- Once the assignment is done, and NN mode begins at the next snap, a trigger enters ASSIGN mode anew with its own cause. -/
theorem trkAssign_cause_of_toNn {s : State} (h : s.trk.toNn = true) (cause : Nat) :
    (s.trkAssign cause).get F.TRK_STAT_CAUSE = cause % 8 := by
  have hbook : ¬ Book F.TRK_STAT_CAUSE.addr := by simp [Book, F.TRK_STAT_CAUSE, R.TRK_STAT]
  rw [State.trkAssign, h, Bool.not_true, Bool.and_false, if_neg Bool.false_ne_true, State.event_get _ _ _ _ hbook]
  exact State.get_set _ _ _ (by decide)

/-- Before that snap FORCE_ASSIGN shows its cause, whatever entered ASSIGN mode before. -/
theorem forceAssign_cause_of_toNn (s : State) {d : Dom} (hd : d = .host ∨ d = .svc) (hon : s.domOn 7 = true)
    (h : s.trk.toNn = true) : Completes (.forceAssign d) s fun t => t.get F.TRK_STAT_CAUSE = 5 :=
  Completes.of (forceAssign_trkAssign s hd hon) (trkAssign_cause_of_toNn (by exact h) 5)

/-- What O45 says of FORCE_ASSIGN in ASSIGN mode: TRK_STAT stays. -/
theorem trkStat_of_trackerModes (H : Obligations.TrackerModes) (s : State) (hon : s.domOn 7 = true)
    (hmode : s.flag F.TRK_STAT_MODE = true) : Completes (.forceAssign .host) s fun t => t.word R.TRK_STAT = s.word R.TRK_STAT := by
  obtain ⟨⟨t, ht, ⟨_, _, hstays⟩, _⟩, _⟩ := H s .host 0 hon (Or.inl rfl)
  exact ⟨t, ht, hstays hmode⟩

/-- With every domain ON, the start-up's assignment has been applied since the latest snap: TRK_STAT still shows ASSIGN mode and
cause 1, and NN mode begins at the next snap. -/
def assignApplied : State := domainsOn.applyAssign []

/-- Refutes O45, in its clause of ASSIGN mode entered once: after the assignment has been applied TRK_STAT.MODE stands at 1 until
the next snap, nothing is pending any more (R88, R90), and FORCE_ASSIGN in between enters ASSIGN mode anew, so that CAUSE goes
from 1 to 5. -/
theorem not_trackerModes : ¬ Obligations.TrackerModes := by
  intro H
  have hon : assignApplied.domOn 7 = true := by decide
  obtain ⟨t, _, hmodel, hstated⟩ := (forceAssign_cause_of_toNn assignApplied (Or.inl rfl) hon (by decide)).and
    (trkStat_of_trackerModes H _ hon (by decide))
  rw [State.get_congr (f := F.TRK_STAT_CAUSE) hstated] at hmodel
  exact absurd hmodel (by decide)

/-! The number of a new job (R113, R125). -/

@[simp] theorem State.showJobs_jobs (s : State) : s.showJobs.jobs = s.jobs :=
  foldl_keeps State.jobs _ (fun _ _ => by rfl) _ _

/-- There is a job with a number when some job of the fabric has it. -/
theorem job_isSome_iff (s : State) (n : Nat) : (s.job n).isSome = true ↔ n ∈ s.jobs.jobs.map (·.ident) := by
  simp [State.job]

/-- A job of a class that refuses none is taken in under the next number. -/
theorem takeJob_idents (s : State) {j : Job} (hcls : j.cls ≠ 3) :
    (s.takeJob j).jobs.jobs.map (·.ident) = s.jobs.jobs.map (·.ident) ++ [s.jobs.nextId] := by
  rw [State.takeJob, decide_eq_false hcls, Bool.false_and, Bool.false_and, if_neg Bool.false_ne_true, if_neg Bool.false_ne_true]
  dsimp only
  split_ifs <;> simp [State.giveSlot]

/-- While its queue has room, an internal unit's job of such a class has the next number. -/
theorem submitInternal_job_nextId {s : State} {j : Job} (hcls : j.cls ≠ 3) (hroom : s.classFull j.cls = false) :
    ((s.submitInternal j).job s.jobs.nextId).isSome = true := by
  rw [State.submitInternal, if_neg (by simp [hroom]), job_isSome_iff, takeJob_idents s hcls]
  exact List.mem_append_right _ (List.mem_singleton_self _)

/-- An ego-motion solution of one point is due (R78): a stream takes it, a ROT stream gives the rate of turn, and the job's queue has
room. -/
structure State.EgoByTurn (s : State) : Prop where
  named : s.egoStream.isSome = true
  point : s.egoPoints.length = 1
  turn : ((streamIds.find? fun n => s.counts n 5).bind s.projOf).isSome = true
  room : s.classFull 2 = false

/-- The ego-motion job takes the next number. -/
theorem egoSolve_job_nextId {s : State} (h : s.EgoByTurn) : (s.egoSolve.job s.jobs.nextId).isSome = true := by
  obtain ⟨hnamed, hpoint, hturn, hroom⟩ := h
  obtain ⟨n, hn⟩ := Option.isSome_iff_exists.mp hnamed
  obtain ⟨v, hv⟩ := Option.isSome_iff_exists.mp hturn
  obtain ⟨m, hm, hrate⟩ := Option.bind_eq_some_iff.mp hv
  have hstream : ∀ f : Est → Est, (s.modEst f).egoStream = some n := fun _ => hn
  have hone : decide (2 ≤ s.egoPoints.length) = false := by rw [hpoint]; rfl
  rw [State.egoSolve]
  dsimp only
  rw [hstream]
  dsimp only
  rw [hone, Bool.false_and, if_neg Bool.false_ne_true, if_pos hpoint, hm, Option.bind_some, hrate]
  exact submitInternal_job_nextId (show (2 : Nat) ≠ 3 by decide) hroom

/-! The end of the tracker's pass (R92). -/

theorem requeue_job (s : State) (l : List Instr) (n : Nat) : (s.requeue l).job n = s.job n := rfl

/-- The tracker's job done, its pass takes effect and the ego-motion solution follows (R78, R92). -/
theorem finishJob_trackerPass (s : State) {k : Job} (hunit : k.unit = 2) (hproc : k.proc = 15) (hwhole : k.iterates = false) :
    s.finishJob k 0 0 none = (s.endJob k 0 0).trackerPass.egoSolve := by
  have hload : s.loadUnrun k 0 = k := by simp [State.loadUnrun, hwhole]
  simp [State.finishJob, hload, hproc, State.consume, hunit]

/-- TRACK_COAST_EXPIRE ends the tracker's running job, where that frees the track. -/
theorem exec_trackCoastExpire {s : State} {k : Job} (j : Fin 64)
    (h : s.jobs.jobs.find? (fun i => i.unit == 2 && i.status == 2 && i.abort.isNone) = some k) :
    exec (.trackCoastExpire j) s
      = s.ends (if s.coasted (stampOf s.t0) j.val && (s.finishJob k 0 0 none).tkState j.val == 0 then s.finishJob k 0 0 none else s) := by
  show execTrackCoastExpire j s = _
  rw [execTrackCoastExpire, h]

/-! A pass whose number is given again. -/

/-- The tracker's pass runs under the number that the next job is to have, in a cycle whose ego-motion solution has the carrier-phase
velocity of one antenna and the rate of turn of stream 10. Track 7 is CONFIRMED, its last hit at 0 s, and the snap at 90 s. -/
def egoAfterPass : State :=
  let s := ((domainsOn.setFlag F.TRK_CTRL_EN true).set (F.TK_ST_STATE 7) 2).setFlag F.FE_EGO_CFG_TDCP_EN true
  let s := (((s.set F.FE_EGO_CFG_OUT_ID 9).setFlag (F.FE_SC_CFG_EN 9) true).set (F.FE_SC_CFG_TYPE 9) 11).set (F.FE_SC_CFG_SRC_KIND 9) 8
  let s := (s.set (F.FE_SC_STAT_STATE 10) 1).modStream 10 fun x => { x with cfg := (F.FE_SC_CFG_TYPE 10).into 5 0 }
  let s := s.modEst fun e => { e with tdcp := [(0, [0, 0, 0, one64])], proj := [⟨10, 5, true, [0]⟩] }
  (s.modTime fun t => { t with t0 := 90000000000 }).modJobs fun q => { q with jobs := [passJob], nextId := passJob.ident }

theorem egoAfterPass_egoByTurn : (egoAfterPass.endJob passJob 0 0).trackerPass.EgoByTurn where
  named := by decide +kernel
  point := by decide +kernel
  turn := by decide +kernel
  room := by decide +kernel

theorem egoAfterPass_nextId : (egoAfterPass.endJob passJob 0 0).trackerPass.jobs.nextId = passJob.ident := by decide +kernel

theorem egoAfterPass_coasted : egoAfterPass.coasted (stampOf egoAfterPass.t0) 7 = true := by decide

theorem egoAfterPass_runs :
    egoAfterPass.jobs.jobs.find? (fun i => i.unit == 2 && i.status == 2 && i.abort.isNone) = some passJob := by decide

/-- The pass frees track 7. -/
theorem egoAfterPass_freed : (egoAfterPass.finishJob passJob 0 0 none).tkState 7 = 0 := by decide +kernel

/-- The pass ends and the ego-motion job takes its number. -/
theorem egoAfterPass_finishJob : ((egoAfterPass.finishJob passJob 0 0 none).job passJob.ident).isSome = true := by
  rw [finishJob_trackerPass egoAfterPass rfl rfl rfl, ← egoAfterPass_nextId]
  exact egoSolve_job_nextId egoAfterPass_egoByTurn

/-- So TRACK_COAST_EXPIRE leaves a job under the number of the pass. -/
theorem egoAfterPass_job : Completes (.trackCoastExpire 7) egoAfterPass fun t => (t.job passJob.ident).isSome = true := by
  refine Completes.of (exec_trackCoastExpire 7 egoAfterPass_runs) ?_
  rw [requeue_job, if_pos (by rw [Bool.and_eq_true, beq_iff_eq]; exact ⟨egoAfterPass_coasted, egoAfterPass_freed⟩)]
  exact egoAfterPass_finishJob

/-- What O46 says of it: the pass's job is gone. -/
theorem job_of_trackCoasting (H : Obligations.TrackCoasting) :
    Completes (.trackCoastExpire 7) egoAfterPass fun t => t.job passJob.ident = none := by
  have hrets : egoAfterPass.est.rets = [] := rfl
  obtain ⟨t, ht, _, hgone, _⟩ := H egoAfterPass 7 passJob egoAfterPass_runs rfl (by decide) egoAfterPass_coasted (by simp [hrets])
  exact ⟨t, ht, hgone⟩

/-- Refutes O46, in its clause that the pass's job is gone: the statement speaks of every state, also of one whose next job number is
the pass's own (R113). There the ego-motion solution that follows the pass (R78, R92) is submitted under that number, and a job has
it again. -/
theorem not_trackCoasting : ¬ Obligations.TrackCoasting := by
  intro H
  obtain ⟨t, _, hmodel, hstated⟩ := egoAfterPass_job.and (job_of_trackCoasting H)
  rw [hstated] at hmodel
  exact absurd hmodel (by decide)

end Sys2Proof.Machine
end

section
/-!
PROOFS of the family 07_solver_array, submission. What a submission asks of its class's queue (O49) leaves out that a descriptor which
is dropped, or answered at once, waits for no entry of that queue.
-/
namespace Sys2Proof.Machine

/-! Submission (R113, R114). -/

/-- A processor may write the JF_SUBL of its own submit index. -/
theorem passes_subl : ∀ x : Fin 11, passes (subDom x.val) (R.JF_SUBL x.val) 6 = true := by decide

/-- An aligned descriptor whose record address is no place for a record is dropped with BADREC: the fabric's jobs and the
submissions that wait for an entry stay as they were. -/
theorem jobSubmit_jobs_of_badRec (s : State) (x : Fin 11) (v : Word) (hon : s.domOn 6 = true) (hv : v.toNat % 64 = 0)
    (hbad : s.descRec (v.toNat + 2 ^ 32 * s.get (F.JF_SUBH_ADDR_HI x.val)) = false) :
    Completes (.jobSubmit (subDom x.val) x v) s fun t => t.jobs = s.jobs := by
  refine Completes.of rfl ?_
  rw [State.requeue_jobs, subWrite, bne_self_eq_false, if_neg Bool.false_ne_true, writeGuard_pass s _ (passes_subl x) hon]
  simp only [hv, hbad, State.submitAt, ne_eq, not_true_eq_false, if_false, Bool.false_and, Bool.false_eq_true, Bool.not_false,
    if_true]
  split <;> rfl

/-- While 64 C1 jobs wait, a descriptor of class C1 lies at the start of the on-chip SRAM; its record address is 0, where no memory is. -/
def badRecInFullQueue : State := c1QueueFull.st 0x1500000 4 0x10

/-- What O49 says of its submission by the service processor: it is held on the bus. -/
theorem held_of_jobsAndRecords (H : Obligations.JobsAndRecords) :
    Completes (.jobSubmit .svc 0 0x1500000) badRecInFullQueue fun t =>
      t.jobs.held = badRecInFullQueue.jobs.held ++ [.bus 0 0x1500000] := by
  obtain ⟨hsubmit, _⟩ := H badRecInFullQueue .svc 0 0x1500000 0 0 ⟨false, 0, false⟩ false (by decide)
  obtain ⟨_, hhold, _⟩ := hsubmit rfl
  obtain ⟨t, ht, hjobs, _⟩ := hhold (by decide) (by decide) (by decide)
  exact ⟨t, ht, congrArg Jobs.held hjobs⟩

/-- Refutes O49, in its clause of a submission into a full queue: a descriptor whose REC_ADDR is invalid is dropped with BADREC
(R113), whatever its class's queue holds, and nothing is held. -/
theorem not_jobsAndRecords : ¬ Obligations.JobsAndRecords := by
  intro H
  obtain ⟨t, _, hdropped, hheld⟩ :=
    (jobSubmit_jobs_of_badRec badRecInFullQueue 0 0x1500000 (by decide) (by decide) (by decide)).and (held_of_jobsAndRecords H)
  rw [hdropped] at hheld
  simp at hheld

end Sys2Proof.Machine
end

section
/-!
PROOFS of the family 07_solver_array, what leaves the jobs alone (O7): the functions of the model up to the lattice that neither
submit, change nor end a job. One equation per function, in the model's order; the later sections unfold none of these functions.
The option -implicitDefEqProofs stands where the kernel would otherwise evaluate a state to compare two of its forms.
-/
namespace Sys2Proof.Machine

theorem foldl_jobs {β : Type} {f : State → β → State} (h : ∀ t b, (f t b).jobs = t.jobs) (l : List β) (s : State) :
    (l.foldl f s).jobs = s.jobs := foldl_keeps State.jobs f h l s

theorem State.storeBytes_jobs : ∀ (l : List Byte) (s : State) (a : Nat), (s.storeBytes a l).jobs = s.jobs
  | [], _, _ => rfl
  | b :: l, s, a => (State.storeBytes_jobs l (s.setByte a b) (a + 1)).trans (s.setByte_jobs a b)

theorem State.offAccess_jobs (s : State) (p : Nat) : (s.offAccess p).jobs = s.jobs := by
  unfold State.offAccess
  split <;> simp only [State.bump_jobs]

theorem State.writeGuard_jobs {f : State → State × CpSt} (h : ∀ t : State, (f t).1.jobs = t.jobs) (s : State) (d : Dom)
    (a : Nat) : (s.writeGuard d a f).1.jobs = s.jobs := by
  unfold State.writeGuard
  split
  · rfl
  · split_ifs <;> simp only [h, State.offAccess_jobs]

theorem State.inDomain_jobs {f : State → State} (h : ∀ t : State, (f t).jobs = t.jobs) (s : State) (d : Nat) :
    (s.inDomain d f).jobs = s.jobs := by
  unfold State.inDomain
  split_ifs <;> simp only [h, State.offAccess_jobs]

theorem State.keyGuard_jobs {f : State → State × CpSt} (h : ∀ t : State, (f t).1.jobs = t.jobs) (s : State) (v : Word) :
    (s.keyGuard v f).1.jobs = s.jobs := by
  unfold State.keyGuard
  split_ifs <;> simp only [h, State.bump_jobs]

theorem foldl_fst_jobs {α β : Type} {f : State × α → β → State × α} (h : ∀ t b, (f t b).1.jobs = t.1.jobs) (l : List β)
    (s : State × α) :
    (l.foldl f s).1.jobs = s.1.jobs := foldl_keeps (fun t => t.1.jobs) f h l s

/-! Machine/Ops: bus writes and stores. -/

theorem State.st_jobs (s : State) (a n v : Nat) : (s.st a n v).jobs = s.jobs := by simp only [State.st, State.storeBytes_jobs]

theorem State.plainWrite_jobs (s : State) (d : Dom) (a : Nat) (v : Word) : (s.plainWrite d a v).1.jobs = s.jobs := by
  simp -implicitDefEqProofs only [State.plainWrite]
  split <;> simp -implicitDefEqProofs only [State.setWord_jobs, State.writeGuard_jobs, implies_true]

theorem State.shadowWrite_jobs (s : State) (d : Dom) (a : Nat) (v : Word) : (s.shadowWrite d a v).1.jobs = s.jobs := by
  simp -implicitDefEqProofs only [State.shadowWrite]
  split <;> simp -implicitDefEqProofs only [State.setShWord_jobs, State.writeGuard_jobs, implies_true]

/-! Machine/Pmu: the performance counters. -/

theorem State.pmuAddAt_jobs (s : State) (n k f : Nat) : (s.pmuAddAt n k f).1.jobs = s.jobs := by
  rw [pmuAddAt_rest]

theorem State.pmuSnap_jobs (s : State) : s.pmuSnap.jobs = s.jobs := by
  simp -implicitDefEqProofs only [State.pmuSnap, State.setShWord_jobs, State.setWord_jobs, State.set_jobs, foldl_jobs,
    implies_true]

theorem pmuCntWrite_jobs (s : State) (d : Dom) (a : Nat) (v : Word) : (pmuCntWrite s d a v).1.jobs = s.jobs := by
  simp only [pmuCntWrite, State.setShWord_jobs, State.setWord_jobs, State.writeGuard_jobs, implies_true, apply_ite State.jobs,
    ite_self, apply_ite Prod.fst]

theorem State.pmuLatch_jobs (s : State) (a : Nat) : (s.pmuLatch a).jobs = s.jobs := by
  simp only [State.pmuLatch, State.setWord_jobs]

theorem State.pmuRead_jobs (s : State) (d : Dom) (a : Nat) : (s.pmuRead d a).1.jobs = s.jobs := by
  simp only [State.pmuRead, State.pmuLatch_jobs, State.setFlag_jobs, apply_ite State.jobs, ite_self, apply_ite Prod.fst]

/-! Machine/Events: events and their rings. -/

theorem State.refreshLine_jobs (s : State) (x : Nat) : (s.refreshLine x).jobs = s.jobs := by
  simp only [State.refreshLine, State.setFlag_jobs, State.set_jobs]

theorem State.setDoze_jobs (s : State) (x : Nat) (on : Bool) : (s.setDoze x on).jobs = s.jobs := by
  simp -implicitDefEqProofs only [State.setDoze, State.modProc_jobs, State.set_jobs]

theorem State.pmuSpan_jobs (s : State) (t0 t1 ticks : Nat) : (s.pmuSpan t0 t1 ticks).jobs = s.jobs := by
  simp only [State.pmuSpan, State.arrive_jobs, State.pmuRaw_jobs, foldl_jobs, implies_true]

theorem State.runTicks_jobs (s : State) (k rest : Nat) : (s.runTicks k rest).jobs = s.jobs := by
  simp only [State.runTicks, State.pmuSpan_jobs]

theorem State.advanceBy_jobs (s : State) (n : Nat) : (s.advanceBy n).jobs = s.jobs := by
  simp only [State.advanceBy, State.advanceTo_jobs]

theorem State.advanceTicks_jobs (s : State) (k : Nat) : (s.advanceTicks k).jobs = s.jobs := by
  simp only [State.advanceTicks, State.advanceTo_jobs]

theorem State.freezeSlip_jobs (s : State) (n : Nat) : (s.freezeSlip n).jobs = s.jobs := by
  simp only [State.freezeSlip, State.arrive_jobs, State.drawn_jobs, State.pmuAddAt_jobs, foldl_jobs, implies_true,
    apply_ite State.jobs, ite_self, apply_ite Prod.fst]

theorem pmuCtlWrite_jobs (s : State) (d : Dom) (v : Word) : (pmuCtlWrite s d v).1.jobs = s.jobs := by
  simp only [pmuCtlWrite, State.freezeSlip_jobs, State.pmuSnap_jobs, State.setWord_jobs, State.writeGuard_jobs, foldl_jobs,
    implies_true, apply_ite State.jobs, ite_self]

theorem State.refreshWindow_jobs (s : State) : s.refreshWindow.jobs = s.jobs := by
  simp only [State.refreshWindow]
  split <;> simp only [State.setFlag_jobs, State.setWord_jobs]

theorem State.afterFree_jobs (s : State) (before : List Rec) : (s.afterFree before).jobs = s.jobs := by
  simp only [State.afterFree, State.bump_jobs, State.refreshWindow_jobs, State.set_jobs, apply_ite State.jobs, ite_self]

theorem State.archive_jobs (s : State) (r : Rec) : (s.archive r).jobs = s.jobs := by
  simp only [State.archive, State.bump_jobs, State.set_jobs, State.storeBytes_jobs, foldl_jobs, implies_true,
    apply_ite State.jobs, ite_self]

theorem State.putRec_jobs (s : State) (r : Rec) : (s.putRec r).jobs = s.jobs := by
  simp only [State.putRec, State.afterFree_jobs, State.archive_jobs, State.arrive_jobs, State.bump_jobs, State.pmu_jobs,
    State.setFlag_jobs, apply_ite State.jobs, ite_self]

theorem State.takeSeq_jobs (s : State) : s.takeSeq.jobs = s.jobs := by simp only [State.takeSeq, State.setWord_jobs]

theorem State.loafEnd_jobs (s : State) : s.loafEnd.jobs = s.jobs := by
  simp -implicitDefEqProofs only [State.loafEnd, State.afterFree_jobs, State.setFlag_jobs]
  repeat' split
  · rfl
  all_goals simp -implicitDefEqProofs only [State.afterFree_jobs, State.putRec_jobs, State.setFlag_jobs, State.takeSeq_jobs]

/-! Machine/CanBuf: the CAN buffers. -/

theorem State.canEmit_jobs (s : State) (c ident : Nat) (ide fdf brs : Bool) (d : List Byte) :
    (s.canEmit c ident ide fdf brs d).jobs = s.jobs := by
  simp only [State.canEmit, State.emit_jobs]

theorem State.canState_jobs (s : State) (c : Nat) : (s.canState c).jobs = s.jobs := by
  simp only [State.canState, State.set_jobs, apply_ite State.jobs, ite_self]

theorem State.canHeard_jobs (s : State) (c : Nat) : (s.canHeard c).jobs = s.jobs := by
  simp only [State.canHeard, State.canState_jobs, State.modCan_jobs, State.pmu_jobs, State.set_jobs]

theorem State.canData_jobs (s : State) (c : Nat) : (s.canData c).jobs = s.jobs := by
  simp only [State.canData, State.canHeard_jobs, State.setFlag_jobs]

theorem State.canShowFt_jobs (s : State) (c b : Nat) : (s.canShowFt c b).jobs = s.jobs := by
  simp only [State.canShowFt, State.set_jobs]

theorem State.canCapture_jobs (s : State) (c b : Nat) : (s.canCapture c b).jobs = s.jobs := by
  simp -implicitDefEqProofs only [State.canCapture]
  repeat' split
  all_goals rfl

/-! Machine/Servo: the servo loops. -/

theorem State.capTrigger_jobs (s : State) (u : Nat) : (s.capTrigger u).jobs = s.jobs := by
  simp only [State.capTrigger, State.modCap_jobs, State.set_jobs, apply_ite State.jobs, ite_self]

theorem State.capOn_jobs (s : State) (k n : Nat) : (s.capOn k n).jobs = s.jobs := by
  simp only [State.capOn, State.capTrigger_jobs, foldl_jobs, implies_true, apply_ite State.jobs, ite_self]

theorem State.srvSticky_jobs (s : State) (n : Nat) (m : Nat) : (s.srvSticky n m).jobs = s.jobs := by
  simp only [State.srvSticky, State.arrive_jobs, State.capOn_jobs, State.modLoop_jobs, State.set_jobs, apply_ite State.jobs,
    ite_self]

theorem State.capSample_jobs (s : State) (n : Nat) : (s.capSample n).jobs = s.jobs := by
  simp only [State.capSample, State.modCap_jobs, foldl_jobs, implies_true, apply_ite State.jobs, ite_self]

theorem State.encBad_jobs (s : State) (c : Nat) : (s.encBad c).jobs = s.jobs := by simp only [State.encBad, State.modSrv_jobs]

theorem State.encLatched_jobs (s : State) (n : Nat) : (s.encLatched n).jobs = s.jobs := by
  simp only [State.encLatched, State.modSrv_jobs]

theorem State.srvGo_jobs (s : State) (n st : Nat) : (s.srvGo n st).jobs = s.jobs := by
  simp only [State.srvGo, State.capOn_jobs, State.event_jobs, State.modLoop_jobs, State.setFlag_jobs, State.set_jobs,
    apply_ite State.jobs, ite_self]

theorem State.showBout_jobs (s : State) : s.showBout.jobs = s.jobs := by
  refine foldl_jobs (fun t k => ?_) _ s
  split <;> simp only [State.emit_jobs, State.modDsf_jobs, State.set_jobs, apply_ite State.jobs, ite_self]

theorem State.srvDrive_jobs (s : State) (n : Nat) (u : Int) : (s.srvDrive n u).jobs = s.jobs := by
  simp only [State.srvDrive]
  split <;> simp only [State.canCapture_jobs, State.emit_jobs, State.modLoop_jobs, State.setWord_jobs, State.set_jobs,
    State.showBout_jobs, foldl_jobs, implies_true, apply_ite State.jobs, ite_self]

theorem lreqWrite_jobs (s : State) (d : Dom) (n : Nat) (v : Word) : (lreqWrite s d n v).1.jobs = s.jobs := by
  simp only [lreqWrite, State.modLoop_jobs, State.setFlag_jobs, State.set_jobs, State.writeGuard_jobs, implies_true,
    apply_ite State.jobs, ite_self, apply_ite Prod.fst]

theorem State.applyCommit_jobs (s : State) (n : Nat) : (s.applyCommit n).jobs = s.jobs := by
  simp -implicitDefEqProofs only [State.applyCommit, State.commitShadow_jobs, State.modLoop_jobs, State.setWord_jobs,
    apply_ite State.jobs, ite_self]

theorem State.ymReset_jobs (s : State) (n : Nat) : (s.ymReset n).jobs = s.jobs := by
  simp only [State.ymReset, State.modLoop_jobs, State.setWord_jobs]

theorem State.toOpen_jobs (s : State) (n : Nat) (out : Int) : (s.toOpen n out).jobs = s.jobs := by
  simp only [State.toOpen, State.modLoop_jobs, State.setWord_jobs, State.srvGo_jobs]

theorem State.toFault_jobs (s : State) (n cause : Nat) : (s.toFault n cause).jobs = s.jobs := by
  simp only [State.toFault, State.set_jobs, State.srvGo_jobs]

theorem State.applyReq_jobs (s : State) (n : Nat) : (s.applyReq n).jobs = s.jobs := by
  simp -implicitDefEqProofs only [State.applyReq]
  repeat' split
  · rfl
  · simp -implicitDefEqProofs only [State.modLoop_jobs, State.toOpen_jobs, State.ymReset_jobs]
  · rfl
  · rfl
  · simp -implicitDefEqProofs only [State.modLoop_jobs, State.srvGo_jobs]
  · simp -implicitDefEqProofs only [State.modLoop_jobs, State.toOpen_jobs]
  · simp -implicitDefEqProofs only [State.modLoop_jobs, State.set_jobs, State.toOpen_jobs, State.ymReset_jobs]
  · rfl
  · rfl
  · rfl
  · simp -implicitDefEqProofs only [State.modLoop_jobs, State.srvGo_jobs]
  · simp -implicitDefEqProofs only [State.modLoop_jobs, State.srvGo_jobs]

theorem State.injStart_jobs (s : State) (n : Nat) : (s.injStart n).jobs = s.jobs := by
  simp only [State.injStart, State.capOn_jobs, State.modLoop_jobs, State.setFlag_jobs, State.setWord_jobs, apply_ite State.jobs,
    ite_self]

theorem State.injEnd_jobs (s : State) (n : Nat) : (s.injEnd n).jobs = s.jobs := by
  simp only [State.injEnd, State.modLoop_jobs, State.setFlag_jobs]

theorem State.injCount_jobs (s : State) (n : Nat) : (s.injCount n).jobs = s.jobs := by
  simp only [State.injCount]
  split <;> simp only [State.injEnd_jobs, State.modLoop_jobs, State.setWord_jobs, apply_ite State.jobs, ite_self]

theorem State.takeEntry_jobs (s : State) (n k : Nat) : (s.takeEntry n k).jobs = s.jobs := by
  simp only [State.takeEntry, State.bump_jobs, State.modLoop_jobs, State.setFlag_jobs, State.srvSticky_jobs,
    apply_ite State.jobs, ite_self]

theorem State.servoTick_jobs (s : State) : s.servoTick.jobs = s.jobs := by
  simp only [State.servoTick, State.modLoop_jobs, State.modSrv_jobs, State.takeEntry_jobs, foldl_jobs, implies_true,
    apply_ite State.jobs, ite_self]

theorem State.takeDue_jobs (s : State) (n : Nat) : (s.takeDue n).jobs = s.jobs := by
  simp only [State.takeDue]
  split <;> simp only [State.modLoop_jobs, State.takeEntry_jobs, apply_ite State.jobs, ite_self]

theorem State.putEntry_jobs (s : State) (k : Nat) (v0 v1 : Word) (take : Stamp) (rep : Bool) :
    (s.putEntry k v0 v1 take rep).jobs = s.jobs := by
  simp only [State.putEntry, State.modSrv_jobs, State.setFlag_jobs, State.setWord_jobs, State.set_jobs]

theorem State.servoCount_jobs (s : State) (n : Nat) : (s.servoCount n).jobs = s.jobs := by
  simp only [State.servoCount, State.advanceTo_jobs, State.pmu_jobs]

theorem State.holdStep_jobs (s : State) (n : Nat) (ok : Bool) : (s.holdStep n ok).jobs = s.jobs := by
  simp -implicitDefEqProofs only [State.holdStep, State.toFault_jobs, apply_ite State.jobs]
  repeat' split
  · rfl
  · rfl
  · simp -implicitDefEqProofs only [State.bump_jobs, State.srvGo_jobs]
  · simp -implicitDefEqProofs only [State.srvGo_jobs]
  · simp -implicitDefEqProofs only [State.toFault_jobs]
  · rfl
  · rfl

theorem State.periodStart_jobs (s : State) (n : Nat) : (s.periodStart n).jobs = s.jobs := by
  simp only [State.periodStart, State.applyCommit_jobs, State.applyReq_jobs, State.holdStep_jobs, State.injCount_jobs,
    State.injStart_jobs, State.modLoop_jobs, State.servoCount_jobs, State.servoTick_jobs, State.setFlag_jobs,
    State.showBout_jobs, State.takeDue_jobs, apply_ite State.jobs, ite_self]

theorem State.latchFb_jobs (s : State) (n : Nat) : (s.latchFb n).1.jobs = s.jobs := by
  simp -implicitDefEqProofs only [State.latchFb]
  repeat' split
  all_goals rfl

theorem State.law154_jobs (s : State) (n latch : Nat) : (s.law154 n latch).1.jobs = s.jobs := by
  simp only [State.law154, State.modLoop_jobs, State.setWord_jobs, State.srvDrive_jobs]

theorem State.plausible_jobs (s : State) (n : Nat) (ok : Bool) : (s.plausible n ok).jobs = s.jobs := by
  simp only [State.plausible, State.bump_jobs, State.modLoop_jobs, State.setWord_jobs, State.srvSticky_jobs,
    apply_ite State.jobs, ite_self]

theorem State.moveEncs_jobs (s : State) (moved : List (Fin 12 × Int)) : (s.moveEncs moved).jobs = s.jobs := by
  simp only [State.moveEncs, State.setWord_jobs, foldl_jobs, implies_true, apply_ite State.jobs, ite_self]

theorem State.latchSsi_jobs (s : State) (n : Nat) : (s.latchSsi n).jobs = s.jobs := by
  refine foldl_jobs (fun t c => ?_) _ s
  split
  · rfl
  · simp only [State.bump_jobs, State.modSrv_jobs, apply_ite State.jobs, ite_self]

theorem State.latchPeriod_jobs (s : State) (n : Nat) : (s.latchPeriod n).1.jobs = s.jobs := by
  simp only [State.latchPeriod, State.latchFb_jobs, State.latchSsi_jobs, State.modLoop_jobs, State.setFlag_jobs,
    State.setWord_jobs, apply_ite State.jobs, ite_self]

theorem State.servoOutput_jobs (s : State) (n : Nat) (moved : List (Fin 12 × Int)) : (s.servoOutput n moved).jobs = s.jobs := by
  simp -implicitDefEqProofs only [State.servoOutput, State.capSample_jobs, State.encLatched_jobs, State.plausible_jobs,
    State.srvSticky_jobs, apply_ite State.jobs]
  repeat' split
  · rfl
  all_goals simp -implicitDefEqProofs only [State.advanceTo_jobs, State.latchPeriod_jobs, State.law154_jobs, State.modLoop_jobs,
    State.moveEncs_jobs, State.srvDrive_jobs]

theorem injCtrlWrite_jobs (s : State) (d : Dom) (n : Nat) (v : Word) : (injCtrlWrite s d n v).1.jobs = s.jobs := by
  simp only [injCtrlWrite, State.injEnd_jobs, State.modLoop_jobs, State.writeGuard_jobs, implies_true, apply_ite State.jobs,
    ite_self]

theorem capCtrlWrite_jobs (s : State) (d : Dom) (u : Nat) (v : Word) : (capCtrlWrite s d u v).1.jobs = s.jobs := by
  simp only [capCtrlWrite, State.capTrigger_jobs, State.modCap_jobs, State.setFlag_jobs, State.set_jobs, State.writeGuard_jobs,
    implies_true, apply_ite State.jobs, ite_self, apply_ite Prod.fst]

theorem tblAccess_jobs (s : State) (wr : Option (Dom × Word)) : (tblAccess s wr).1.jobs = s.jobs := by
  simp -implicitDefEqProofs only [tblAccess]
  split <;> simp -implicitDefEqProofs only [State.inDomain_jobs, State.modLoop_jobs, State.set_jobs, State.writeGuard_jobs,
    implies_true]

theorem encCfgWrite_jobs (s : State) (d : Dom) (c a : Nat) (v : Word) : (encCfgWrite s d c a v).1.jobs = s.jobs := by
  simp only [encCfgWrite, State.encBad_jobs, State.plainWrite_jobs, apply_ite State.jobs, ite_self, apply_ite Prod.fst]

/-! Machine/Transmit: frames on their way out. -/

theorem State.frameIn_jobs (s : State) (p : Nat) : (s.frameIn p).jobs = s.jobs := by
  simp only [State.frameIn, State.pmu_jobs, apply_ite State.jobs, ite_self]

theorem State.descDone_jobs (s : State) (e : TxEnt) (status : Nat) : (s.descDone e status).jobs = s.jobs := by
  simp only [State.descDone]
  split <;> simp only [State.setByte_jobs, State.st_jobs]

theorem State.noteEgress_jobs (s : State) (p t : Nat) (f : TxFill) : (s.noteEgress p t f).jobs = s.jobs := by
  simp only [State.noteEgress]
  split <;> rfl

theorem State.leave_jobs (s : State) (p t : Nat) (e : TxEnt) (status : Nat) : (s.leave p t e status).jobs = s.jobs := by
  simp only [State.leave, State.descDone_jobs, State.emit_jobs, State.modNet_jobs, State.noteEgress_jobs, State.pmu_jobs]

theorem State.drain_jobs (p : Nat) : ∀ (k : Nat) (s : State), (s.drain p k).jobs = s.jobs
  | 0, _ => rfl
  | k + 1, s => by
    unfold State.drain
    split
    · rfl
    · simp only [drain_jobs p k, State.leave_jobs, State.modNet_jobs, apply_ite State.jobs, ite_self]

theorem State.flush_jobs (s : State) (p : Nat) : (s.flush p).jobs = s.jobs := State.drain_jobs p _ s

theorem State.flushAll_jobs (s : State) : s.flushAll.jobs = s.jobs := by
  simp only [State.flushAll, State.flush_jobs, foldl_jobs, implies_true]

theorem State.queueTx_jobs (s : State) (p : Nat) (e : TxEnt) : (s.queueTx p e).jobs = s.jobs := by
  simp only [State.queueTx, State.flush_jobs, State.modNet_jobs]

theorem State.sendFill_jobs (s : State) (p dst kind : Nat) (b : List Byte) (f : TxFill) :
    (s.sendFill p dst kind b f).jobs = s.jobs := by
  simp only [State.sendFill, State.queueTx_jobs]

theorem State.sendPlain_jobs (s : State) (p dst kind : Nat) (b : List Byte) : (s.sendPlain p dst kind b).jobs = s.jobs := by
  simp only [State.sendPlain, State.sendFill_jobs]

theorem State.launchOne_jobs (s : State) (p : Nat) : (s.launchOne p).jobs = s.jobs := by
  simp only [State.launchOne]
  split <;> simp only [State.advanceTo_jobs, State.bump_jobs, State.descDone_jobs, State.flush_jobs, State.leave_jobs,
    State.modNet_jobs, apply_ite State.jobs, ite_self]

theorem State.launchDue_jobs (p : Nat) : ∀ (k : Nat) (s : State), (s.launchDue p k).jobs = s.jobs
  | 0, _ => rfl
  | k + 1, s => by
    unfold State.launchDue
    split
    · simp only [launchDue_jobs p k, State.launchOne_jobs, apply_ite State.jobs, ite_self]
    · rfl

theorem State.launchAll_jobs (s : State) (ps : List Nat) : (s.launchAll ps).jobs = s.jobs :=
  foldl_jobs (fun t p => State.launchDue_jobs p _ t) ps s

theorem State.releaseTx_jobs (s : State) : s.releaseTx.jobs = s.jobs := by
  simp only [State.releaseTx, State.flush_jobs, State.launchAll_jobs, State.modNet_jobs, foldl_jobs, implies_true,
    apply_ite State.jobs, ite_self]

theorem State.sendTwin_jobs (s : State) (typ flags dst : Nat) (payload : List Byte) (launch : Option Stamp) :
    (s.sendTwin typ flags dst payload launch).jobs = s.jobs := by
  simp only [State.sendTwin, State.bump_jobs, State.launchAll_jobs, State.modNet_jobs, State.queueTx_jobs, foldl_jobs,
    implies_true, apply_ite State.jobs, ite_self]

theorem State.dropCmds_jobs (s : State) : s.dropCmds.jobs = s.jobs := by simp only [State.dropCmds, State.modNet_jobs]

/-! Machine/Time: time and its references. -/

theorem State.setInc_jobs (s : State) (v : Int) : (s.setInc v).jobs = s.jobs := by
  simp only [State.setInc, State.event_jobs, State.setFlag_jobs, State.set_jobs, apply_ite State.jobs, ite_self]

theorem State.tick_jobs (s : State) : s.tick.jobs = s.jobs := by
  simp only [State.tick, State.runTicks_jobs, apply_ite State.jobs, ite_self]

theorem State.setTq_jobs (s : State) (q : Nat) : (s.setTq q).jobs = s.jobs := by
  simp only [State.setTq, State.event_jobs, State.set_jobs, apply_ite State.jobs, ite_self]

theorem State.setAcc_jobs (s : State) (ns : Nat) : (s.setAcc ns).jobs = s.jobs := by simp only [State.setAcc, State.setWord_jobs]

theorem State.setPhase_jobs (s : State) (ph : Int) : (s.setPhase ph).jobs = s.jobs := by
  simp only [State.setPhase, State.modTime_jobs, State.setInc_jobs]

theorem State.measure_jobs (s : State) (r : Nat) (ofs : Int) : (s.measure r ofs).jobs = s.jobs := by
  simp only [State.measure]
  split <;> simp only [State.drawn_jobs, State.modRef_jobs, State.modTime_jobs, apply_ite State.jobs, ite_self]

theorem State.discipline_jobs (s : State) (ofs : Int) : (s.discipline ofs).jobs = s.jobs := by
  simp only [State.discipline, State.drawn_jobs, State.setPhase_jobs]

theorem State.accFrom_jobs (s : State) (r : Nat) : (s.accFrom r).jobs = s.jobs := by
  simp only [State.accFrom, State.modTime_jobs, State.setAcc_jobs]

theorem State.slewDone_jobs (s : State) : s.slewDone.jobs = s.jobs := by
  simp only [State.slewDone, State.accFrom_jobs, State.discipline_jobs, State.setTq_jobs, apply_ite State.jobs, ite_self]

theorem State.slewBy_jobs (s : State) (ofs : Int) : (s.slewBy ofs).jobs = s.jobs := by
  simp only [State.slewBy, State.modTime_jobs, State.setPhase_jobs, State.slewDone_jobs]

theorem State.startSlew_jobs (s : State) (r : Nat) (ofs : Int) : (s.startSlew r ofs).jobs = s.jobs := by
  simp only [State.startSlew, State.measure_jobs, State.setAcc_jobs, State.setTq_jobs, State.set_jobs, State.slewBy_jobs]

theorem State.lockTo_jobs (s : State) (r : Nat) (ofs : Int) : (s.lockTo r ofs).jobs = s.jobs := by
  simp only [State.lockTo, State.accFrom_jobs, State.discipline_jobs, State.measure_jobs, State.setTq_jobs, State.set_jobs]

theorem State.refuseOfs_jobs (s : State) (r : Nat) : (s.refuseOfs r).jobs = s.jobs := by
  simp only [State.refuseOfs, State.modRef_jobs, State.setFlag_jobs]

theorem State.showOfs_jobs (s : State) (r : Nat) (fresh : Bool) : (s.showOfs r fresh).jobs = s.jobs := by
  simp only [State.showOfs, State.modTime_jobs, State.seti_jobs, apply_ite State.jobs, ite_self]

theorem State.noRef_jobs (s : State) : s.noRef.jobs = s.jobs := by
  simp only [State.noRef, State.modTime_jobs, State.setPhase_jobs, State.set_jobs]

theorem State.toHoldover_jobs (s : State) : s.toHoldover.jobs = s.jobs := by
  simp only [State.toHoldover, State.noRef_jobs, State.setAcc_jobs, State.setTq_jobs, apply_ite State.jobs, ite_self]

theorem State.takeOfs_jobs (s : State) (r : Nat) (ofs : Int) : (s.takeOfs r ofs).jobs = s.jobs := by
  simp only [State.takeOfs, State.refuseOfs_jobs, State.startSlew_jobs, apply_ite State.jobs, ite_self]

theorem State.setGnTq_jobs (s : State) (q : Nat) : (s.setGnTq q).jobs = s.jobs := by
  simp only [State.setGnTq, State.event_jobs, State.set_jobs, apply_ite State.jobs, ite_self]

theorem State.gnSlewDone_jobs (s : State) : s.gnSlewDone.jobs = s.jobs := by
  simp only [State.gnSlewDone, State.setGnTq_jobs, State.setWord_jobs, apply_ite State.jobs, ite_self]

theorem State.stepDone_jobs (s : State) : s.stepDone.jobs = s.jobs := by
  simp -implicitDefEqProofs only [State.stepDone, State.accFrom_jobs, State.modRef_jobs, State.modTime_jobs, State.noRef_jobs,
    State.record_jobs, State.setAcc_jobs, State.setFlag_jobs, State.setGnTq_jobs, State.setPhase_jobs, State.setTq_jobs,
    State.setWord_jobs, State.set_jobs, apply_ite State.jobs, ite_self]
  repeat' split
  · rfl
  · simp -implicitDefEqProofs only [State.modRef_jobs, State.record_jobs, State.setFlag_jobs]
  · rfl

theorem State.stepRefused_jobs (s : State) : s.stepRefused.1.jobs = s.jobs := by simp only [State.stepRefused, State.setFlag_jobs]

theorem timeRefWrite_jobs (s : State) (d : Dom) (v : Word) : (timeRefWrite s d v).1.jobs = s.jobs := by
  simp only [timeRefWrite, State.noRef_jobs, State.plainWrite_jobs, State.setAcc_jobs, State.setTq_jobs, apply_ite State.jobs,
    ite_self, apply_ite Prod.fst]

theorem timeIncWrite_jobs (s : State) (d : Dom) (hi : Bool) (v : Word) : (timeIncWrite s d hi v).1.jobs = s.jobs := by
  simp only [timeIncWrite, State.modTime_jobs, State.setInc_jobs, State.writeGuard_jobs, implies_true, apply_ite State.jobs,
    ite_self, apply_ite Prod.fst]

theorem State.readNow_jobs (s : State) : s.readNow.jobs = s.jobs := by
  simp -implicitDefEqProofs only [State.readNow, State.setWord_jobs]

theorem timeLeapWrite_jobs (s : State) (d : Dom) (v : Word) : (timeLeapWrite s d v).1.jobs = s.jobs := by
  simp only [timeLeapWrite, State.set_jobs, State.writeGuard_jobs, implies_true, apply_ite State.jobs, ite_self,
    apply_ite Prod.fst]

theorem State.leapFrom_jobs (s : State) (utc leap days : Nat) : (s.leapFrom utc leap days).jobs = s.jobs := by
  simp only [State.leapFrom, State.modTime_jobs, State.setFlag_jobs, State.set_jobs]

theorem State.setPstate_jobs (s : State) (p q : Nat) : (s.setPstate p q).jobs = s.jobs := by
  simp only [State.setPstate, State.modPort_jobs, State.set_jobs, apply_ite State.jobs, ite_self]

theorem ptpRoleWrite_jobs (s : State) (d : Dom) (v : Word) : (ptpRoleWrite s d v).1.jobs = s.jobs := by
  simp only [ptpRoleWrite, State.modPort_jobs, State.plainWrite_jobs, State.setPstate_jobs, foldl_jobs, implies_true,
    apply_ite State.jobs, ite_self]

theorem State.setMpd_jobs (s : State) (p : Nat) (d : Int) : (s.setMpd p d).jobs = s.jobs := by
  simp only [State.setMpd, State.modPort_jobs, State.seti_jobs]

theorem State.ptpSend_jobs (s : State) (p typ seq flags : Nat) (corr : Int) (logi : Nat) (body : List Byte) (f : TxFill) :
    (s.ptpSend p typ seq flags corr logi body f).jobs = s.jobs := by
  simp only [State.ptpSend, State.sendFill_jobs]

theorem State.bmcPort_jobs (s : State) (p : Nat) (timeout : Bool) : (s.bmcPort p timeout).jobs = s.jobs := by
  simp only [State.bmcPort, State.modPort_jobs, State.setPstate_jobs, apply_ite State.jobs, ite_self]

theorem State.annLeap_jobs (s : State) (p : Nat) (m : AnnMsg) : (s.annLeap p m).jobs = s.jobs := by
  simp only [State.annLeap, State.leapFrom_jobs, apply_ite State.jobs, ite_self]

theorem State.popCapture_jobs (s : State) (n : Nat) : (s.popCapture n).jobs = s.jobs := by
  simp -implicitDefEqProofs only [State.popCapture]
  split <;> simp -implicitDefEqProofs only [State.modTime_jobs, State.setFlag_jobs, State.setWord_jobs, State.set_jobs]

/-! Machine/Streams: the streams. -/

theorem State.showTrk_jobs (s : State) (n : Nat) : (s.showTrk n).jobs = s.jobs := by simp only [State.showTrk, State.setWord_jobs]

theorem State.setLstate_jobs (s : State) (n st : Nat) : (s.setLstate n st).jobs = s.jobs := by
  simp only [State.setLstate, State.set_jobs]

theorem State.trkLearn_jobs (s : State) (n : Nat) (d arr : Int) : (s.trkLearn n d arr).jobs = s.jobs := by
  simp only [State.trkLearn, State.modStream_jobs, State.set_jobs, State.showTrk_jobs, apply_ite State.jobs, ite_self]

theorem State.trkLocked_jobs (s : State) (n : Nat) (d : Int) : (s.trkLocked n d).jobs = s.jobs := by
  simp -implicitDefEqProofs only [State.trkLocked, State.bump_jobs, State.modStream_jobs, State.setLstate_jobs, State.seti_jobs,
    State.showTrk_jobs, apply_ite State.jobs, ite_self]

theorem State.offsetTrack_jobs (s : State) (n : Nat) (arr src : Int) : (s.offsetTrack n arr src).jobs = s.jobs := by
  simp -implicitDefEqProofs only [State.offsetTrack, apply_ite State.jobs]
  repeat' split
  · rfl
  · simp -implicitDefEqProofs only [State.trkLearn_jobs]
  · simp -implicitDefEqProofs only [State.trkLearn_jobs]
  · simp -implicitDefEqProofs only [State.trkLocked_jobs]
  · rfl

theorem State.queueWrite_jobs (s : State) (n : Nat) (e : Entry) : (s.queueWrite n e).jobs = s.jobs := by
  simp only [State.queueWrite, State.bump_jobs, State.modStream_jobs, State.offsetTrack_jobs, apply_ite State.jobs, ite_self]

theorem State.sentenceTo_jobs (s : State) (kind port : Nat) (x : Sentence) (tag : Option Int) (arr : Stamp) (n typ : Nat) :
    (s.sentenceTo kind port x tag arr n typ).jobs = s.jobs := by
  simp -implicitDefEqProofs only [State.sentenceTo, State.bump_jobs, apply_ite State.jobs]
  repeat' split
  · rfl
  · rfl
  · rfl
  · simp -implicitDefEqProofs only [State.queueWrite_jobs]
  · rfl

theorem State.gstWait_jobs (s : State) (kind port : Nat) (x : Sentence) (arr : Stamp) :
    (s.gstWait kind port x arr).jobs = s.jobs := by
  simp only [State.gstWait, State.modFe_jobs]

theorem State.sentence_jobs (s : State) (kind port : Nat) (x : Sentence) (tag : Option Int) (arr : Stamp) :
    (s.sentence kind port x tag arr).jobs = s.jobs := by
  simp only [State.sentence, State.gstWait_jobs, State.modFe_jobs, State.sentenceTo_jobs, foldl_jobs, implies_true,
    apply_ite State.jobs, ite_self]

theorem State.binTo_jobs (s : State) (b : List Byte) (whole : Bool) (arr : Stamp) (n : Nat) :
    (s.binTo b whole arr n).jobs = s.jobs := by
  simp only [State.binTo, State.bump_jobs, State.queueWrite_jobs, foldl_jobs, implies_true, apply_ite State.jobs, ite_self]

theorem State.binary_jobs (s : State) (kind port : Nat) (b : List Byte) (whole : Bool) (arr : Stamp) :
    (s.binary kind port b whole arr).jobs = s.jobs := by
  simp only [State.binary, State.binTo_jobs, foldl_jobs, implies_true, apply_ite State.jobs, ite_self]

theorem State.rtcm_jobs (s : State) (kind port : Nat) (b : List Byte) (whole : Bool) (arr : Stamp) :
    (s.rtcm kind port b whole arr).jobs = s.jobs := by
  simp only [State.rtcm]
  split <;> simp only [State.bump_jobs, State.queueWrite_jobs, apply_ite State.jobs, ite_self]

theorem State.n2kMessage_jobs (s : State) (c pgn sa : Nat) (b : List Byte) (arr : Stamp) :
    (s.n2kMessage c pgn sa b arr).jobs = s.jobs := by
  simp only [State.n2kMessage, State.bump_jobs, State.queueWrite_jobs, foldl_jobs, implies_true, apply_ite State.jobs, ite_self]

theorem State.dropFast_jobs (s : State) (c sa pgn : Nat) : (s.dropFast c sa pgn).jobs = s.jobs := by
  simp only [State.dropFast, State.modFe_jobs]

theorem State.fastLost_jobs (s : State) (e : FastPkt) : (s.fastLost e).jobs = s.jobs := by
  simp -implicitDefEqProofs only [State.fastLost, State.bump_jobs, foldl_jobs, implies_true]

theorem State.fastStep_jobs (s : State) (e : FastPkt) : (s.fastStep e).jobs = s.jobs := by
  simp only [State.fastStep, State.dropFast_jobs, State.modFe_jobs, State.n2kMessage_jobs, apply_ite State.jobs, ite_self]

theorem State.fastFrame_jobs (s : State) (c sa pgn : Nat) (b : List Byte) (arr : Stamp) :
    (s.fastFrame c sa pgn b arr).jobs = s.jobs := by
  simp -implicitDefEqProofs only [State.fastFrame, State.fastStep_jobs, apply_ite State.jobs]
  repeat' split
  · simp -implicitDefEqProofs only [State.dropFast_jobs, State.fastLost_jobs]
  · rfl
  · rfl
  · simp -implicitDefEqProofs only [State.fastStep_jobs]
  · simp -implicitDefEqProofs only [State.dropFast_jobs, State.fastLost_jobs]

theorem State.sendClaim_jobs (s : State) (c : Nat) : (s.sendClaim c).jobs = s.jobs := by
  simp only [State.sendClaim, State.canEmit_jobs]

theorem State.isoRequest_jobs (s : State) (c dst pgn : Nat) : (s.isoRequest c dst pgn).jobs = s.jobs := by
  simp only [State.isoRequest, State.sendClaim_jobs, apply_ite State.jobs, ite_self]

theorem State.claimNames_jobs (s : State) (c : Nat) (name : Word64) (sa : Nat) : (s.claimNames c name sa).jobs = s.jobs := by
  simp only [State.claimNames, State.setFlag_jobs, State.set_jobs, foldl_jobs, implies_true, apply_ite State.jobs, ite_self]

theorem State.addressClaim_jobs (s : State) (c : Nat) (name : Word64) (sa : Nat) : (s.addressClaim c name sa).jobs = s.jobs := by
  simp only [State.addressClaim, State.claimNames_jobs, State.modCan_jobs, State.sendClaim_jobs, apply_ite State.jobs, ite_self]

theorem State.n2kFrame_jobs (s : State) (c ident : Nat) (b : List Byte) (arr : Stamp) :
    (s.n2kFrame c ident b arr).jobs = s.jobs := by
  simp only [State.n2kFrame, State.addressClaim_jobs, State.fastFrame_jobs, State.isoRequest_jobs, State.n2kMessage_jobs,
    apply_ite State.jobs, ite_self]

theorem State.remember_jobs (s : State) (k : Nat × Nat × Nat) : (s.remember k).jobs = s.jobs := by
  simp only [State.remember, State.modFe_jobs]

theorem State.clearRuns_jobs (s : State) (n : Nat) : (s.clearRuns n).jobs = s.jobs := by
  simp only [State.clearRuns, State.modStream_jobs, State.set_jobs]

theorem State.learnStart_jobs (s : State) (n : Nat) : (s.learnStart n).jobs = s.jobs := by
  simp only [State.learnStart, State.setLstate_jobs]

theorem State.countTracks_jobs (s : State) : s.countTracks.jobs = s.jobs := by
  simp only [State.countTracks, State.set_jobs, apply_ite State.jobs, ite_self]

theorem State.freeTrack_jobs (s : State) (j : Nat) : (s.freeTrack j).jobs = s.jobs := by
  simp only [State.freeTrack, State.setWord_jobs]

theorem State.streamOff_jobs (s : State) (n : Nat) : (s.streamOff n).jobs = s.jobs := by
  simp -implicitDefEqProofs only [State.streamOff, State.clearRuns_jobs, State.countTracks_jobs, State.freeTrack_jobs,
    State.modStream_jobs, foldl_jobs, implies_true, apply_ite State.jobs, ite_self]

theorem fscCfgWrite_jobs (s : State) (d : Dom) (n : Nat) (v : Word) : (fscCfgWrite s d n v).1.jobs = s.jobs := by
  simp only [fscCfgWrite, State.learnStart_jobs, State.modStream_jobs, State.setWord_jobs, State.streamOff_jobs,
    State.writeGuard_jobs, implies_true, apply_ite State.jobs, ite_self, apply_ite Prod.fst]

theorem fscMatchWrite_jobs (s : State) (d : Dom) (n : Nat) (v : Word) : (fscMatchWrite s d n v).1.jobs = s.jobs := by
  simp only [fscMatchWrite, State.plainWrite_jobs, State.writeGuard_jobs, implies_true, apply_ite State.jobs, ite_self,
    apply_ite Prod.fst]

theorem ofscfgWrite_jobs (s : State) (d : Dom) (n : Nat) (v : Word) : (ofscfgWrite s d n v).1.jobs = s.jobs := by
  simp only [ofscfgWrite, State.learnStart_jobs, State.plainWrite_jobs, apply_ite State.jobs, ite_self, apply_ite Prod.fst]

theorem State.readOfsl_jobs (s : State) (n : Nat) : (s.readOfsl n).jobs = s.jobs := by
  simp only [State.readOfsl, State.setWord_jobs]

theorem State.modUart_jobs (s : State) (p : Nat) (f : Uart → Uart) : (s.modUart p f).jobs = s.jobs := by
  simp only [State.modUart, State.modFe_jobs, State.set_jobs]

theorem State.uartErr_jobs (s : State) (p : Nat) (f : Fld) : (s.uartErr p f).jobs = s.jobs := by
  simp only [State.uartErr, State.event_jobs, State.setFlag_jobs, apply_ite State.jobs, ite_self]

theorem State.uartHeard_jobs (s : State) (p : Nat) : (s.uartHeard p).jobs = s.jobs := by
  simp -implicitDefEqProofs only [State.uartHeard, State.bump_jobs, State.modUart_jobs, State.pmu_jobs, State.setFlag_jobs]

theorem State.uartItem_jobs (s : State) (p parse : Nat) (b : List Byte) (whole : Bool) (arr : Stamp) :
    (s.uartItem p parse b whole arr).jobs = s.jobs := by
  simp only [State.uartItem]
  split <;> simp only [State.binary_jobs, State.rtcm_jobs, State.sentence_jobs]

theorem State.uartParse_jobs (s : State) (p : Nat) (ch : Byte) (start : Nat) : (s.uartParse p ch start).jobs = s.jobs := by
  simp only [State.uartParse, State.modUart_jobs, State.uartItem_jobs, apply_ite State.jobs, ite_self]

theorem State.uartWhole_jobs (s : State) (p parse : Nat) (b : List Byte) (ago : Nat) :
    (s.uartWhole p parse b ago).jobs = s.jobs := by
  simp only [State.uartWhole, State.modUart_jobs, State.uartHeard_jobs, State.uartItem_jobs, foldl_jobs, implies_true,
    apply_ite State.jobs, ite_self]

theorem State.uartRead_jobs (s : State) (p : Nat) : (s.uartRead p).jobs = s.jobs := by
  simp -implicitDefEqProofs only [State.uartRead]
  split <;> simp -implicitDefEqProofs only [State.modUart_jobs, State.setWord_jobs]

theorem uartDataWrite_jobs (s : State) (d : Dom) (p : Nat) (v : Word) : (uartDataWrite s d p v).1.jobs = s.jobs := by
  simp only [uartDataWrite, State.emit_jobs, State.modUart_jobs, State.writeGuard_jobs, implies_true, apply_ite State.jobs,
    ite_self, apply_ite Prod.fst]

theorem uartCfgWrite_jobs (s : State) (d : Dom) (p : Nat) (v : Word) : (uartCfgWrite s d p v).1.jobs = s.jobs := by
  simp only [uartCfgWrite, State.modUart_jobs, State.plainWrite_jobs, State.writeGuard_jobs, implies_true, apply_ite State.jobs,
    ite_self, apply_ite Prod.fst]

theorem State.showSig_jobs (s : State) : s.showSig.jobs = s.jobs := by simp only [State.showSig, State.setWord_jobs]

theorem State.putPeer_jobs (s : State) (p : Peer) : (s.putPeer p).jobs = s.jobs := by
  simp only [State.putPeer, State.modFe_jobs, State.setWord_jobs]

theorem State.zalEvt_jobs (s : State) (f : Fld) : (s.zalEvt f).jobs = s.jobs := by
  simp only [State.zalEvt, State.event_jobs, State.setFlag_jobs, apply_ite State.jobs, ite_self]

theorem State.hello_jobs (s : State) (h : Hello) : (s.hello h).jobs = s.jobs := by
  simp -implicitDefEqProofs only [State.hello, State.zalEvt_jobs, apply_ite State.jobs]
  repeat' split
  · rfl
  · rfl
  · simp -implicitDefEqProofs only [State.putPeer_jobs, State.zalEvt_jobs]
  · simp -implicitDefEqProofs only [State.putPeer_jobs, State.zalEvt_jobs]
  · rfl
  · simp -implicitDefEqProofs only [State.putPeer_jobs, State.zalEvt_jobs]
  · simp -implicitDefEqProofs only [State.putPeer_jobs, State.zalEvt_jobs]

theorem discCtrlWrite_jobs (s : State) (d : Dom) (v : Word) : (discCtrlWrite s d v).1.jobs = s.jobs := by
  simp only [discCtrlWrite, State.putPeer_jobs, State.setWord_jobs, State.writeGuard_jobs, State.zalEvt_jobs, foldl_jobs,
    implies_true, apply_ite State.jobs, ite_self, apply_ite Prod.fst]

/-! Machine/Filter: the signal filters. -/

theorem State.setLeft_jobs (s : State) (n count : Nat) : (s.setLeft n count).jobs = s.jobs := by
  simp only [State.setLeft, State.modDsf_jobs, State.set_jobs]

theorem State.unproof_jobs (s : State) (n count : Nat) : (s.unproof n count).jobs = s.jobs := by
  simp -implicitDefEqProofs only [State.unproof, State.setFlag_jobs, State.setLeft_jobs, State.set_jobs]

theorem State.proofAll_jobs (s : State) (n : Nat) : (s.proofAll n).jobs = s.jobs := by
  simp -implicitDefEqProofs only [State.proofAll, State.unproof_jobs]

theorem State.endSwap_jobs (s : State) (n : Nat) : (s.endSwap n).jobs = s.jobs := by
  simp only [State.endSwap, State.bump_jobs, State.modDsf_jobs, State.setFlag_jobs, State.set_jobs, apply_ite State.jobs,
    ite_self]

theorem State.dsfRestart_jobs (s : State) (n : Nat) (baseHalf : Nat) : (s.dsfRestart n baseHalf).jobs = s.jobs := by
  simp only [State.dsfRestart, State.modDsf_jobs]

theorem State.dsfStart_jobs (s : State) (n : Nat) : (s.dsfStart n).jobs = s.jobs := by
  simp only [State.dsfStart, State.dsfRestart_jobs, State.proofAll_jobs, State.setFlag_jobs, State.set_jobs]

theorem State.dsfStop_jobs (s : State) (n : Nat) : (s.dsfStop n).jobs = s.jobs := by
  simp -implicitDefEqProofs only [State.dsfStop, State.endSwap_jobs, State.modDsf_jobs, State.setFlag_jobs, State.unproof_jobs]

theorem dsfCfgWrite_jobs (s : State) (d : Dom) (n : Nat) (v : Word) : (dsfCfgWrite s d n v).1.jobs = s.jobs := by
  simp -implicitDefEqProofs only [dsfCfgWrite, State.dsfStart_jobs, State.dsfStop_jobs, State.endSwap_jobs, State.modDsf_jobs,
    State.proofAll_jobs, State.setWord_jobs, State.set_jobs, State.writeGuard_jobs, implies_true, apply_ite State.jobs, ite_self,
    apply_ite Prod.fst]

theorem dsfEnsetWrite_jobs (s : State) (d : Dom) (v : Word) : (dsfEnsetWrite s d v).1.jobs = s.jobs := by
  simp only [dsfEnsetWrite, State.dsfStart_jobs, State.setFlag_jobs, State.writeGuard_jobs, foldl_jobs, implies_true,
    apply_ite State.jobs, ite_self]

theorem State.syncReset_jobs (s : State) (edge : Nat) : (s.syncReset edge).jobs = s.jobs := by
  simp -implicitDefEqProofs only [State.syncReset, State.bump_jobs, State.dsfRestart_jobs, State.endSwap_jobs,
    State.proofAll_jobs, State.setFlag_jobs, foldl_jobs, implies_true, apply_ite State.jobs, ite_self]

theorem syncCtrlWrite_jobs (s : State) (d : Dom) (v : Word) : (syncCtrlWrite s d v).1.jobs = s.jobs := by
  simp only [syncCtrlWrite, State.plainWrite_jobs, State.setFlag_jobs, apply_ite State.jobs, ite_self, apply_ite Prod.fst]

theorem bankReqWrite_jobs (s : State) (d : Dom) (n : Nat) (v : Word) : (bankReqWrite s d n v).1.jobs = s.jobs := by
  simp only [bankReqWrite, State.bump_jobs, State.modDsf_jobs, State.setFlag_jobs, State.writeGuard_jobs, implies_true,
    apply_ite State.jobs, ite_self, apply_ite Prod.fst]

theorem State.takeBank_jobs (s : State) (n : Nat) (b : Bool) : (s.takeBank n b).jobs = s.jobs := by
  simp -implicitDefEqProofs only [State.takeBank, State.bump_jobs, State.modDsf_jobs, State.setFlag_jobs, State.set_jobs,
    State.unproof_jobs, apply_ite State.jobs, ite_self]

theorem coefAccess_jobs (s : State) (wr : Option (Dom × Word)) : (coefAccess s wr).1.jobs = s.jobs := by
  simp only [coefAccess]
  split <;> simp only [State.bump_jobs, State.modDsf_jobs, State.set_jobs, State.writeGuard_jobs, implies_true,
    apply_ite State.jobs, ite_self, apply_ite Prod.fst]

theorem State.detect_jobs (s : State) (n : Nat) (x : Int) : (s.detect n x).jobs = s.jobs := by
  simp only [State.detect, State.modDsf_jobs, State.set_jobs, apply_ite State.jobs, ite_self]

theorem State.sincStep_jobs (s : State) (n : Nat) (bits : List Bool) : (s.sincStep n bits).jobs = s.jobs := by
  simp only [State.sincStep, State.detect_jobs, State.modDsf_jobs]

theorem State.firA_jobs (s : State) (n : Nat) : (s.firA n).jobs = s.jobs := by
  simp only [State.firA, State.modDsf_jobs, State.setFlag_jobs, apply_ite State.jobs, ite_self]

theorem State.threshold_jobs (s : State) (n : Nat) (x : Int) : (s.threshold n x).1.jobs = s.jobs := by
  simp only [State.threshold, State.bump_jobs, State.event_jobs, State.set_jobs, apply_ite State.jobs, ite_self,
    apply_ite Prod.fst]

theorem State.dsfStream_jobs (s : State) (n : Nat) (x : Int) (ts : Nat) : (s.dsfStream n x ts).jobs = s.jobs := by
  simp only [State.dsfStream, State.modDsf_jobs, State.queueWrite_jobs, foldl_jobs, implies_true, apply_ite State.jobs, ite_self]

theorem State.fadeEnd_jobs (s : State) (n : Nat) : (s.fadeEnd n).jobs = s.jobs := by
  simp only [State.fadeEnd, State.modDsf_jobs, State.setFlag_jobs, State.set_jobs, State.takeBank_jobs, apply_ite State.jobs,
    ite_self]

theorem State.proofCount_jobs (s : State) (n : Nat) : (s.proofCount n).jobs = s.jobs := by
  simp only [State.proofCount, State.modDsf_jobs, State.setFlag_jobs, State.setLeft_jobs, State.set_jobs, apply_ite State.jobs,
    ite_self]

theorem State.dsfSample_jobs (s : State) (n : Nat) (own pair : List Bool) : (s.dsfSample n own pair).jobs = s.jobs := by
  unfold State.dsfSample
  split
  · rfl
  · extract_lets w r1 d nx s₁ bits s₂ s₃ c act out old ph new f k ts
    have h₃ : s₃.jobs = s.jobs := by
      simp only [s₃, s₂, s₁, foldl_jobs, implies_true, State.firA_jobs, State.sincStep_jobs, State.modDsf_jobs, State.pmu_jobs,
        State.advanceTo_jobs]
    split
    next y sat _ =>
    extract_lets s₄ s₅ proofed s₆ r s₇ s₈ k' s₉
    have h₆ : s₆.jobs = s.jobs := by
      simp only [s₆, s₅, s₄, h₃, State.setFlag_jobs, State.set_jobs, State.modDsf_jobs, State.setWord_jobs, apply_ite State.jobs,
        ite_self]
    have h₇ : s₇.jobs = s.jobs := by
      simp only [s₇, r, h₆, State.dsfStream_jobs, State.threshold_jobs, State.modDsf_jobs, apply_ite State.jobs, ite_self]
    have h₉ : s₉.jobs = s.jobs := by
      simp only [s₉, s₈, h₇, State.proofCount_jobs, State.fadeEnd_jobs, State.modDsf_jobs, apply_ite State.jobs, ite_self]
    split
    · rw [State.takeBank_jobs, State.modDsf_jobs, h₉]
    · exact h₉

theorem dsfThrWrite_jobs (s : State) (d : Dom) (n a : Nat) (v : Word) : (dsfThrWrite s d n a v).1.jobs = s.jobs := by
  simp only [dsfThrWrite, State.modDsf_jobs, State.plainWrite_jobs, State.set_jobs, apply_ite State.jobs, ite_self,
    apply_ite Prod.fst]

theorem boutWrite_jobs (s : State) (d : Dom) (a : Nat) (v : Word) : (boutWrite s d a v).1.jobs = s.jobs := by
  simp only [boutWrite, State.plainWrite_jobs, State.showBout_jobs, apply_ite State.jobs, ite_self, apply_ite Prod.fst]

/-! Machine/Lattice: the safety lattice. -/

theorem State.stageCheck_jobs (s : State) (c : Nat) (v0 v1 : Word) : (s.stageCheck c v0 v1).1.jobs = s.jobs := by
  simp only [State.stageCheck, State.bump_jobs, State.event_jobs, apply_ite State.jobs, ite_self, apply_ite Prod.fst]

theorem State.entryCheck_jobs (s : State) (c : Nat) (v0 v1 : Word) : (s.entryCheck c v0 v1).1.jobs = s.jobs := by
  simp only [State.entryCheck, State.bump_jobs, apply_ite State.jobs, ite_self, apply_ite Prod.fst]

theorem State.switches_jobs (s : State) : s.switches.jobs = s.jobs := by
  simp only [State.switches, State.emit_jobs, State.modKz_jobs, foldl_jobs, implies_true, apply_ite State.jobs, ite_self]

theorem State.kzGo_jobs (s : State) (st : Nat) : (s.kzGo st).jobs = s.jobs := by
  simp only [State.kzGo, State.event_jobs, State.set_jobs, apply_ite State.jobs, ite_self]

theorem State.sltNow_jobs (s : State) : s.sltNow.jobs = s.jobs := by
  simp only [State.sltNow, State.setWord_jobs, foldl_jobs, implies_true, apply_ite State.jobs, ite_self]

theorem State.siPairs_jobs (s : State) : s.siPairs.jobs = s.jobs := by
  simp only [State.siPairs, State.modKz_jobs, State.set_jobs, foldl_jobs, implies_true, apply_ite State.jobs, ite_self]

theorem State.paramLoad_jobs (s : State) : s.paramLoad.jobs = s.jobs := by
  simp only [State.paramLoad, State.modKz_jobs, State.plainWrite_jobs, State.siPairs_jobs, State.sltNow_jobs, foldl_jobs,
    implies_true, apply_ite State.jobs, ite_self]

theorem State.paramDue_jobs (s : State) : s.paramDue.jobs = s.jobs := by
  simp only [State.paramDue, State.paramLoad_jobs, apply_ite State.jobs, ite_self]

theorem State.kzWithdraw_jobs (s : State) (why : Nat) : (s.kzWithdraw why).jobs = s.jobs := by
  simp only [State.kzWithdraw, State.kzGo_jobs, State.paramDue_jobs, State.set_jobs, State.switches_jobs, apply_ite State.jobs,
    ite_self]

theorem State.kzArm_jobs (s : State) : s.kzArm.jobs = s.jobs := by
  simp only [State.kzArm, State.kzGo_jobs, State.modKz_jobs, State.sltNow_jobs, State.switches_jobs]

theorem State.kzDegrade_jobs (s : State) : s.kzDegrade.jobs = s.jobs := by
  simp only [State.kzDegrade, State.kzGo_jobs, State.modKch_jobs, State.modKz_jobs, State.setFlag_jobs, State.set_jobs,
    State.sltNow_jobs, foldl_jobs, implies_true, apply_ite State.jobs, ite_self]

theorem State.kzRecover_jobs (s : State) : s.kzRecover.jobs = s.jobs := by
  simp -implicitDefEqProofs only [State.kzRecover, State.kzGo_jobs, State.modKch_jobs, State.setFlag_jobs, State.set_jobs,
    State.sltNow_jobs, foldl_jobs, implies_true]

theorem State.setFaults_jobs (s : State) (m : Nat) : (s.setFaults m).jobs = s.jobs := by
  simp only [State.setFaults, State.event_jobs, State.kzDegrade_jobs, State.kzWithdraw_jobs, State.modKz_jobs, State.set_jobs,
    apply_ite State.jobs, ite_self]

theorem State.kzLatch_jobs (s : State) (b : Nat) : (s.kzLatch b).jobs = s.jobs := by
  simp only [State.kzLatch, State.modKz_jobs, State.setFaults_jobs]

theorem State.speGate_jobs (s : State) : s.speGate.jobs = s.jobs := by
  simp only [State.speGate, State.modKz_jobs, State.setFlag_jobs, apply_ite State.jobs, ite_self]

theorem State.autoArm_jobs (s : State) : s.autoArm.jobs = s.jobs := by
  simp only [State.autoArm, State.kzArm_jobs, State.setFlag_jobs, apply_ite State.jobs, ite_self]

theorem State.kzTimers_jobs (s : State) : s.kzTimers.jobs = s.jobs := by
  simp only [State.kzTimers, State.kzRecover_jobs, State.kzWithdraw_jobs, State.set_jobs, apply_ite State.jobs, ite_self]

theorem State.latReceive_jobs (s : State) (x : LatIn) (c : Nat) : (s.latReceive x c).jobs = s.jobs := by
  simp -implicitDefEqProofs only [State.latReceive, State.modKch_jobs, apply_ite State.jobs]
  repeat' split
  all_goals rfl

theorem State.kzTrip_jobs (s : State) (c : Nat) : (s.kzTrip c).jobs = s.jobs := by
  simp only [State.kzTrip, State.event_jobs, State.set_jobs, apply_ite State.jobs, ite_self]

theorem State.checkOut_jobs (s : State) (c : Nat) : (s.checkOut c).1.jobs = s.jobs := by
  simp only [State.checkOut, State.kzTrip_jobs, State.modKch_jobs, State.set_jobs, apply_ite State.jobs, ite_self,
    apply_ite Prod.fst]

theorem State.kzSectors_jobs (s : State) (c : Nat) : (s.kzSectors c).jobs = s.jobs := by
  simp only [State.kzSectors, State.modKch_jobs, State.set_jobs, foldl_jobs, implies_true, apply_ite State.jobs, ite_self]

theorem State.kzSltGrace_jobs (s : State) (c : Nat) : (s.kzSltGrace c).jobs = s.jobs := by
  simp only [State.kzSltGrace]
  split <;> simp only [State.modKch_jobs, State.setFlag_jobs, apply_ite State.jobs, ite_self]

theorem State.rateIn_jobs (s : State) (x : LatIn) : (s.rateIn x).jobs = s.jobs := by
  simp only [State.rateIn, State.modKz_jobs, apply_ite State.jobs, ite_self]

theorem State.kzReadback_jobs (s : State) (x : LatIn) : (s.kzReadback x).jobs = s.jobs := by
  simp only [State.kzReadback, State.kzLatch_jobs, State.modKz_jobs, State.set_jobs, apply_ite State.jobs, ite_self]

theorem State.optJudge_jobs (s : State) : s.optJudge.jobs = s.jobs := by
  simp only [State.optJudge]
  split <;> simp only [State.kzLatch_jobs, State.modKz_jobs, apply_ite State.jobs, ite_self]

theorem State.latticeEval_jobs (s : State) (x : LatIn) : (s.latticeEval x).jobs = s.jobs := by
  simp -implicitDefEqProofs only [State.latticeEval, State.advanceTo_jobs, State.autoArm_jobs, State.checkOut_jobs,
    State.kzLatch_jobs, State.kzReadback_jobs, State.kzSectors_jobs, State.kzSltGrace_jobs, State.kzTimers_jobs,
    State.kzWithdraw_jobs, State.latReceive_jobs, State.modKch_jobs, State.modKz_jobs, State.optJudge_jobs, State.paramDue_jobs,
    State.rateIn_jobs, State.setFaults_jobs, State.setWord_jobs, State.siPairs_jobs, State.sltNow_jobs, State.speGate_jobs,
    State.switches_jobs, foldl_jobs, foldl_fst_jobs, implies_true, apply_ite State.jobs, ite_self]

theorem State.safeJudge_jobs (s : State) (req ch : Nat) : (s.safeJudge req ch).1.jobs = s.jobs := by
  unfold State.safeJudge
  split_ifs
  · simp -implicitDefEqProofs only [State.setFlag_jobs]
  · extract_lets st rest b ok s₁ rb sc keep kept sk s₂
    have h₁ : s₁.jobs = s.jobs := by simp -implicitDefEqProofs only [s₁, State.setFlag_jobs]
    split_ifs
    · exact h₁
    · have h₂ : s₂.jobs = s.jobs := by
        simp -implicitDefEqProofs only [s₂]
        split <;> simp -implicitDefEqProofs only [sk, State.kzArm_jobs, State.kzWithdraw_jobs, State.modKz_jobs,
          State.setFaults_jobs, State.set_jobs, h₁]
      rw [State.switches_jobs, h₂]

theorem safeReqWrite_jobs (s : State) (d : Dom) (v : Word) : (safeReqWrite s d v).1.jobs = s.jobs := by
  simp only [safeReqWrite, State.keyGuard_jobs, State.safeJudge_jobs, State.writeGuard_jobs, implies_true]

theorem State.setSwitch_jobs (s : State) (core : Bool) (k : Nat) (on : Bool) : (s.setSwitch core k on).jobs = s.jobs := by
  simp only [State.setSwitch, State.emit_jobs, State.modKz_jobs]

theorem State.srtBlock_jobs (s : State) : s.srtBlock.jobs = s.jobs := by
  simp -implicitDefEqProofs only [State.srtBlock, State.advanceTo_jobs, State.kzWithdraw_jobs, State.modKz_jobs,
    State.setFlag_jobs, apply_ite State.jobs, ite_self]

theorem State.speEval_jobs (s : State) : s.speEval.jobs = s.jobs := by
  simp only [State.speEval, State.event_jobs, State.kzWithdraw_jobs, State.modKz_jobs, State.setFlag_jobs, State.speGate_jobs,
    apply_ite State.jobs, ite_self]

end Sys2Proof.Machine
end

section
/-!
PROOFS of the family 07_solver_array, what leaves the jobs alone (O7): the functions of the model from the power domains on that
neither submit, change nor end a job, in the model's order.
-/
namespace Sys2Proof.Machine

/-! Machine/Power: domains and resets. -/

theorem State.pwrRefused_jobs (s : State) : s.pwrRefused.jobs = s.jobs := by
  simp only [State.pwrRefused, State.event_jobs, State.setFlag_jobs, apply_ite State.jobs, ite_self]

theorem State.shadowHeld_jobs (s : State) : s.shadowHeld.jobs = s.jobs := by
  simp only [State.shadowHeld, State.setFlag_jobs, apply_ite State.jobs, ite_self]

theorem State.timeKept_jobs (s : State) : s.timeKept.jobs = s.jobs := by
  simp only [State.timeKept, State.setTq_jobs, apply_ite State.jobs, ite_self]

theorem State.gpioReleased_jobs (s t : State) : (s.gpioReleased t).jobs = t.jobs := by
  simp only [State.gpioReleased, foldl_jobs, implies_true, State.emit_jobs, apply_ite State.jobs, ite_self]

theorem State.ppsReleased_jobs (s t : State) : (s.ppsReleased t).jobs = t.jobs := by
  simp only [State.ppsReleased, foldl_jobs, implies_true, State.emit_jobs, apply_ite State.jobs, ite_self]

theorem State.switchOn_jobs (s : State) (d : Nat) : (s.switchOn d).jobs = s.jobs := by
  simp only [State.switchOn, State.modPwr_jobs, State.set_jobs, apply_ite State.jobs, ite_self]

theorem State.kickWdog_jobs (s : State) : s.kickWdog.jobs = s.jobs := by simp only [State.kickWdog, State.modTime_jobs]

theorem wdogWrite_jobs (s : State) (d : Dom) (v : Word) : (wdogWrite s d v).1.jobs = s.jobs := by
  simp only [wdogWrite, State.set_jobs, State.writeGuard_jobs, implies_true, apply_ite State.jobs, ite_self, apply_ite Prod.fst]

theorem pforceWrite_jobs (s : State) (d : Dom) (v : Word) : (pforceWrite s d v).1.jobs = s.jobs := by
  simp only [pforceWrite, State.emit_jobs, State.keyGuard_jobs, State.modPwr_jobs, State.writeGuard_jobs, implies_true,
    apply_ite State.jobs, ite_self, apply_ite Prod.fst]

/-! Machine/Jobs: the solver fabric. -/

theorem State.jobIrq_jobs (s : State) (proc tag status reason : Nat) : (s.jobIrq proc tag status reason).jobs = s.jobs := by
  simp only [State.jobIrq, State.event_jobs, apply_ite State.jobs, ite_self]

theorem State.countStatus_jobs (s : State) (status : Nat) : (s.countStatus status).jobs = s.jobs := by
  simp only [State.countStatus]
  split <;> simp only [State.bump_jobs]

theorem State.writeOut_jobs (s : State) (j : Job) (i : Iter) : (s.writeOut j i).jobs = s.jobs := by
  simp only [State.writeOut, State.storeBytes_jobs, apply_ite State.jobs, ite_self]

theorem subHWrite_jobs (s : State) (d : Dom) (x : Nat) (v : Word) : (subHWrite s d x v).1.jobs = s.jobs := by
  simp only [subHWrite, State.offAccess_jobs, State.plainWrite_jobs, apply_ite State.jobs, ite_self, apply_ite Prod.fst]

theorem State.scratch_jobs (s : State) (j : Job) (corr : Nat) (ecc : Bool) : (s.scratch j corr ecc).1.jobs = s.jobs := by
  simp only [State.scratch, State.bumpBy_jobs, State.bump_jobs, apply_ite State.jobs, ite_self, apply_ite Prod.fst]

theorem State.factorWrite_jobs (s : State) (j : Job) : (s.factorWrite j).jobs = s.jobs := by
  simp only [State.factorWrite]
  split <;> simp only [State.storeBytes_jobs, apply_ite State.jobs, ite_self]

theorem State.stopUnit_jobs (s : State) (unit : Nat) : (s.stopUnit unit).jobs = s.jobs := by
  simp only [State.stopUnit, State.bump_jobs, State.setFlag_jobs, State.set_jobs]
  split <;> simp only [State.setFlag_jobs]

/-! Machine/Snap: the snap. -/

theorem State.setVec_jobs (s : State) (l : List Nat) (v : List Word64) : (s.setVec l v).jobs = s.jobs := by
  simp -implicitDefEqProofs only [State.setVec, State.set64_jobs, foldl_jobs, implies_true]

theorem State.lateEntry_jobs (s : State) (n : Nat) (prev : Stamp) (e : Entry) : (s.lateEntry n prev e).jobs = s.jobs := by
  simp only [State.lateEntry, State.bump_jobs, State.record_jobs, State.set_jobs, apply_ite State.jobs, ite_self]

theorem State.imageCfg_jobs (s : State) (n : Nat) : (s.imageCfg n).jobs = s.jobs := by
  simp only [State.imageCfg, State.modStream_jobs]

theorem State.latch_jobs (s : State) (n : Nat) (snap prev : Stamp) : (s.latch n snap prev).jobs = s.jobs := by
  simp only [State.latch]
  split <;> simp only [State.bumpBy_jobs, State.imageCfg_jobs, State.lateEntry_jobs, State.modStream_jobs, State.set_jobs,
    foldl_jobs, implies_true]

theorem State.evalStream_jobs (s : State) (n : Nat) (snap : Stamp) : (s.evalStream n snap).jobs = s.jobs := by
  simp only [State.evalStream, State.event_jobs, State.modStream_jobs, State.setWord_jobs, apply_ite State.jobs, ite_self]

theorem State.copyDescriptors_jobs (s : State) : s.copyDescriptors.jobs = s.jobs := by
  simp only [State.copyDescriptors, State.commitShadow_jobs, State.modStream_jobs, State.setFlag_jobs, State.set_jobs,
    foldl_jobs, implies_true, apply_ite State.jobs, ite_self]

theorem fdCommitWrite_jobs (s : State) (d : Dom) (v : Word) : (fdCommitWrite s d v).1.jobs = s.jobs := by
  simp only [fdCommitWrite, State.modStream_jobs, State.setFlag_jobs, State.writeGuard_jobs, implies_true, apply_ite State.jobs,
    ite_self, apply_ite Prod.fst]

theorem State.attitude_jobs (s : State) : s.attitude.jobs = s.jobs := by
  simp only [State.attitude, State.modEst_jobs, State.setFlag_jobs]

theorem State.projectStream_jobs (s : State) (n : Nat) : (s.projectStream n).jobs = s.jobs := by
  simp -implicitDefEqProofs only [State.projectStream, State.bump_jobs, State.modEst_jobs, State.pmu_jobs, foldl_jobs,
    implies_true, apply_ite State.jobs, ite_self]
  repeat' split
  · rfl
  · rfl
  · rfl
  · rfl
  · rfl
  · simp -implicitDefEqProofs only [State.modEst_jobs, State.pmu_jobs]
  · simp -implicitDefEqProofs only [State.modEst_jobs, State.pmu_jobs]

theorem State.crossChecks_jobs (s : State) : s.crossChecks.jobs = s.jobs := by
  unfold State.crossChecks
  extract_lets want bad good s₁ further s₂
  have h₂ : s₂.jobs = s.jobs := by simp only [s₂, s₁, State.setFlag_jobs, apply_ite State.jobs, ite_self]
  refine (foldl_jobs (fun t k => ?_) _ s₂).trans h₂
  dsimp only
  split
  · exact State.setWord_jobs ..
  · split
    · exact State.setWord_jobs ..
    · simp only [State.event_jobs, State.setWord_jobs, apply_ite State.jobs, ite_self]

theorem State.projectBatch_jobs (s : State) : s.projectBatch.jobs = s.jobs := by
  simp only [State.projectBatch, State.attitude_jobs, State.crossChecks_jobs, State.modEst_jobs, State.projectStream_jobs,
    State.set_jobs, foldl_jobs, implies_true]

/-! Machine/Tracker: the tracker. -/

theorem State.setTk_jobs (s : State) (j : Nat) (x : List Word64) (p : Mat) : (s.setTk j x p).jobs = s.jobs := by
  simp -implicitDefEqProofs only [State.setTk, State.modTrk_jobs, State.setVec_jobs, State.setWord_jobs, foldl_jobs, implies_true]

theorem State.trkAssign_jobs (s : State) (cause : Nat) : (s.trkAssign cause).jobs = s.jobs := by
  simp only [State.trkAssign, State.event_jobs, State.modTrk_jobs, State.setFlag_jobs, State.set_jobs, apply_ite State.jobs,
    ite_self]

theorem State.bindTo_jobs (s : State) (j k : Nat) : (s.bindTo j k).jobs = s.jobs := by
  simp only [State.bindTo, State.setFlag_jobs, State.set_jobs]

theorem State.tryBind_jobs (s : State) (j : Nat) : (s.tryBind j).jobs = s.jobs := by
  simp -implicitDefEqProofs only [State.tryBind, apply_ite State.jobs]
  repeat' split
  all_goals rfl

theorem State.commitTracker_jobs (s : State) : s.commitTracker.jobs = s.jobs := by
  simp only [State.commitTracker, State.commitShadow_jobs, State.countTracks_jobs, State.freeTrack_jobs, State.setFlag_jobs,
    State.set_jobs, foldl_jobs, implies_true, apply_ite State.jobs, ite_self]

theorem State.predictTrack_jobs (s : State) (dt : Word64) (j : Nat) : (s.predictTrack dt j).jobs = s.jobs := by
  simp only [State.predictTrack, State.setTk_jobs, apply_ite State.jobs, ite_self]

theorem State.updateTrack_jobs (s : State) (j : Nat) (r : Ret) : (s.updateTrack j r).jobs = s.jobs := by
  simp only [State.updateTrack, State.pmu_jobs, State.setFlag_jobs, State.setTk_jobs, State.setWord_jobs, State.set_jobs,
    apply_ite State.jobs, ite_self]

theorem State.openTrack_jobs (s : State) (r : Ret) (entry : Option Nat) : (s.openTrack r entry).jobs = s.jobs := by
  simp -implicitDefEqProofs only [State.openTrack]
  repeat' split
  · rfl
  all_goals simp -implicitDefEqProofs only [State.bindTo_jobs, State.modTrk_jobs, State.setTk_jobs, State.setWord_jobs,
    State.set_jobs, State.tryBind_jobs]

theorem State.trackStep_jobs (s : State) (j : Nat) (hit : Bool) : (s.trackStep j hit).jobs = s.jobs := by
  simp only [State.trackStep, State.freeTrack_jobs, State.modTrk_jobs, State.set_jobs, State.tryBind_jobs, apply_ite State.jobs,
    ite_self]

theorem State.coastOut_jobs (s : State) (snap : Stamp) : (s.coastOut snap).jobs = s.jobs := by
  simp only [State.coastOut, State.freeTrack_jobs, foldl_jobs, implies_true, apply_ite State.jobs, ite_self]

theorem State.bindTracks_jobs (s : State) : s.bindTracks.jobs = s.jobs := by
  simp only [State.bindTracks, State.tryBind_jobs, foldl_jobs, implies_true]

theorem State.keepYields_jobs (s : State) (ys : List Upd) : (s.keepYields ys).jobs = s.jobs := by
  simp only [State.keepYields, State.modTrk_jobs]

theorem State.nnPass_jobs (s : State) (rs : List Ret) (snap : Stamp) : (s.nnPass rs snap).jobs = s.jobs := by
  unfold State.nnPass
  simp only [State.bindTracks_jobs, State.coastOut_jobs, State.countTracks_jobs, State.keepYields_jobs, State.openTrack_jobs,
    State.trackStep_jobs, State.trkAssign_jobs, foldl_jobs, implies_true, apply_ite State.jobs, ite_self]
  refine foldl_jobs (fun t p => ?_) _ s
  split <;> simp only [State.updateTrack_jobs]

theorem State.applyAssign_jobs (s : State) (x : List Word64) : (s.applyAssign x).jobs = s.jobs := by
  unfold State.applyAssign
  simp only [State.bump_jobs, State.countTracks_jobs, State.modTrk_jobs, State.openTrack_jobs, State.set_jobs, foldl_jobs,
    implies_true]
  refine foldl_jobs (fun t p => ?_) _ s
  split <;> simp only [State.openTrack_jobs, State.trackStep_jobs, State.updateTrack_jobs, apply_ite State.jobs, ite_self]

theorem State.trackerPass_jobs (s : State) : s.trackerPass.jobs = s.jobs := by
  simp only [State.trackerPass, State.bindTracks_jobs, State.bumpBy_jobs, State.coastOut_jobs, State.countTracks_jobs,
    State.modTrk_jobs, State.nnPass_jobs, State.predictTrack_jobs, State.setFlag_jobs, State.setWord_jobs, foldl_jobs,
    implies_true, apply_ite State.jobs, ite_self]

theorem State.trackerSnap_jobs (s : State) : s.trackerSnap.jobs = s.jobs := by
  simp only [State.trackerSnap, State.commitTracker_jobs, State.modTrk_jobs, State.setFlag_jobs, apply_ite State.jobs, ite_self]

theorem trkCtrlWrite_jobs (s : State) (d : Dom) (v : Word) : (trkCtrlWrite s d v).1.jobs = s.jobs := by
  simp only [trkCtrlWrite, State.shadowWrite_jobs, State.trkAssign_jobs, apply_ite State.jobs, ite_self, apply_ite Prod.fst]

/-! Machine/Estimator: the estimator. -/

theorem State.setQual_jobs (s : State) (q : Nat) : (s.setQual q).jobs = s.jobs := by
  simp only [State.setQual, State.event_jobs, State.modEst_jobs, State.set_jobs, apply_ite State.jobs, ite_self]

theorem State.evalQuality_jobs (s : State) (snap : Nat) : (s.evalQuality snap).jobs = s.jobs := by
  simp only [State.evalQuality, State.modEst_jobs, State.setFlag_jobs, State.setQual_jobs, State.set_jobs, apply_ite State.jobs,
    ite_self]

theorem State.clearWeights_jobs (s : State) : s.clearWeights.jobs = s.jobs := by
  simp -implicitDefEqProofs only [State.clearWeights, State.modStream_jobs, foldl_jobs, implies_true]

theorem State.assignBiases_jobs (s : State) : s.assignBiases.jobs = s.jobs := by
  simp -implicitDefEqProofs only [State.assignBiases, State.clearWeights_jobs, State.modStream_jobs, State.setFlag_jobs,
    State.set_jobs, foldl_fst_jobs, implies_true, apply_ite State.jobs, ite_self]

theorem State.estReset_jobs (s : State) : s.estReset.jobs = s.jobs := by
  simp only [State.estReset, State.modEst_jobs, State.setFlag_jobs, State.setQual_jobs]

theorem State.keepEst_jobs (s : State) (x : List Word64) (p : Mat) : (s.keepEst x p).jobs = s.jobs := by
  simp only [State.keepEst, State.modEst_jobs]

theorem State.estInit_jobs (s : State) (snap : Nat) : (s.estInit snap).jobs = s.jobs := by
  unfold State.estInit
  split
  · rfl
  · split
    · rfl
    · simp only [State.clearWeights_jobs, State.keepEst_jobs, State.modEst_jobs, State.setFlag_jobs]

theorem State.posResetDue_jobs (s : State) : s.posResetDue.jobs = s.jobs := by simp only [State.posResetDue, State.modEst_jobs]

theorem State.estSnap_jobs (s : State) (snap : Nat) : (s.estSnap snap).jobs = s.jobs := by
  simp only [State.estSnap, State.commitShadow_jobs, State.estInit_jobs, State.estReset_jobs, State.evalQuality_jobs,
    State.posResetDue_jobs, apply_ite State.jobs, ite_self]

theorem estCtrlWrite_jobs (s : State) (d : Dom) (v : Word) : (estCtrlWrite s d v).1.jobs = s.jobs := by
  simp only [estCtrlWrite, State.modEst_jobs, State.plainWrite_jobs, apply_ite State.jobs, ite_self, apply_ite Prod.fst]

theorem State.timeUpdate_jobs (s : State) (o : KfOut) : (s.timeUpdate o).jobs = s.jobs := by
  simp only [State.timeUpdate, State.keepEst_jobs, State.modEst_jobs]

theorem State.posReset_jobs (s : State) : s.posReset.jobs = s.jobs := by
  simp -implicitDefEqProofs only [State.posReset, apply_ite State.jobs]
  repeat' split
  all_goals rfl

theorem State.gateFail_jobs (s : State) (n : Nat) : (s.gateFail n).jobs = s.jobs := by
  simp only [State.gateFail, State.bump_jobs, State.modStream_jobs, State.set_jobs, apply_ite State.jobs, ite_self]

theorem State.gatePass_jobs (s : State) (n : Nat) : (s.gatePass n).jobs = s.jobs := by
  simp only [State.gatePass, State.modStream_jobs, State.set_jobs, apply_ite State.jobs, ite_self]

theorem State.setWeight_jobs (s : State) (u : Upd) : (s.setWeight u).jobs = s.jobs := by
  simp only [State.setWeight, State.modEst_jobs, State.modStream_jobs]

theorem State.takeKf_jobs (s : State) (o : KfOut) : (s.takeKf o).jobs = s.jobs := by simp only [State.takeKf, State.keepEst_jobs]

theorem State.applyUpd_jobs (s : State) (u : Upd) (o : KfOut) (pass : Bool) : (s.applyUpd u o pass).jobs = s.jobs := by
  simp only [State.applyUpd, State.bump_jobs, State.gateFail_jobs, State.gatePass_jobs, State.setWord_jobs, State.takeKf_jobs,
    apply_ite State.jobs, ite_self]

theorem State.vote_jobs (s : State) (g : Nat) : (s.vote g).1.jobs = s.jobs := by
  simp only [State.vote]
  split <;> simp only [State.setFlag_jobs, apply_ite State.jobs, ite_self, apply_ite Prod.fst]

theorem State.votes_jobs (s : State) : s.votes.1.jobs = s.jobs := by
  simp only [State.votes, State.vote_jobs, foldl_fst_jobs, implies_true]

theorem State.voteFail_jobs (s : State) (n : Nat) : (s.voteFail n).jobs = s.jobs := by
  simp only [State.voteFail, State.bump_jobs, State.gateFail_jobs, apply_ite State.jobs, ite_self]

theorem State.publish_jobs (s : State) : s.publish.jobs = s.jobs := by
  simp only [State.publish, State.modEst_jobs, State.setFlag_jobs, State.setVec_jobs, State.setWord_jobs, State.set_jobs,
    apply_ite State.jobs, ite_self]

theorem State.egoDone_jobs (s : State) (ok : Bool) (p : Prob) (x : List Word64) : (s.egoDone ok p x).jobs = s.jobs := by
  simp only [State.egoDone]
  split <;> simp only [State.modEst_jobs, State.queueWrite_jobs, State.setFlag_jobs, apply_ite State.jobs, ite_self]

theorem State.survSnap_jobs (s : State) : s.survSnap.jobs = s.jobs := by
  simp only [State.survSnap, apply_ite State.jobs, ite_self]

theorem survCtrlWrite_jobs (s : State) (d : Dom) (v : Word) : (survCtrlWrite s d v).1.jobs = s.jobs := by
  simp only [survCtrlWrite, State.plainWrite_jobs, State.setFlag_jobs, State.set_jobs, apply_ite State.jobs, ite_self,
    apply_ite Prod.fst]

/-! Machine/StationKeeping: station keeping. -/

theorem State.skLatch_jobs (s : State) (r : SkReq) : (s.skLatch r).jobs = s.jobs := by
  simp only [State.skLatch, State.bump_jobs, State.modSk_jobs, apply_ite State.jobs, ite_self]

theorem skCmdWrite_jobs (s : State) (d : Dom) (v : Word) (cp : Bool) : (skCmdWrite s d v cp).1.jobs = s.jobs := by
  simp only [skCmdWrite, State.skLatch_jobs, State.writeGuard_jobs, implies_true, apply_ite State.jobs, ite_self,
    apply_ite Prod.fst]

theorem skCfgWrite_jobs (s : State) (d : Dom) (v : Word) : (skCfgWrite s d v).1.jobs = s.jobs := by
  simp only [skCfgWrite, State.plainWrite_jobs]

theorem joyWrite_jobs (s : State) (d : Dom) (i : Nat) (v : Word) : (joyWrite s d i v).1.jobs = s.jobs := by
  simp only [joyWrite, State.modSk_jobs, State.setFlag_jobs, State.setWord_jobs, State.writeGuard_jobs, implies_true,
    apply_ite State.jobs, ite_self, apply_ite Prod.fst]

theorem State.joyDemand_jobs (s : State) : s.joyDemand.jobs = s.jobs := by
  simp only [State.joyDemand]
  split <;> simp only [State.modSk_jobs, apply_ite State.jobs, ite_self]

theorem State.setStake_jobs (s : State) (ne : List Word64) (psi : Word64) : (s.setStake ne psi).jobs = s.jobs := by
  simp only [State.setStake, State.modSk_jobs, State.set64_jobs, State.setFlag_jobs, apply_ite State.jobs, ite_self]

theorem State.stakeTranslate_jobs (s : State) : s.stakeTranslate.jobs = s.jobs := by
  simp only [State.stakeTranslate, State.modEst_jobs, State.modSk_jobs, State.setFlag_jobs, State.setVec_jobs,
    apply_ite State.jobs, ite_self]

theorem State.startRun_jobs (s : State) (dest : List Word64) : (s.startRun dest).jobs = s.jobs := by
  simp only [State.startRun, State.modSk_jobs]

theorem State.aimRun_jobs (s : State) (dest : List Word64) : (s.aimRun dest).jobs = s.jobs := by
  simp only [State.aimRun, State.modSk_jobs]

theorem State.beginHalt_jobs (s : State) : s.beginHalt.jobs = s.jobs := by
  simp only [State.beginHalt, State.modSk_jobs, apply_ite State.jobs, ite_self]

theorem State.stepPos_jobs (s : State) (dt : Word64) : (s.stepPos dt).jobs = s.jobs := by
  simp only [State.stepPos, State.modSk_jobs]

theorem State.stepPsi_jobs (s : State) (dt : Word64) (brake : Bool) : (s.stepPsi dt brake).jobs = s.jobs := by
  simp only [State.stepPsi, State.modSk_jobs]

theorem State.beginLeg_jobs (s : State) (w : Nat) (pass : Bool) : (s.beginLeg w pass).jobs = s.jobs := by
  simp only [State.beginLeg, State.aimRun_jobs, State.modSk_jobs, State.set_jobs, State.startRun_jobs, apply_ite State.jobs,
    ite_self]

theorem State.setMode_jobs (s : State) (m : Nat) : (s.setMode m).jobs = s.jobs := by
  simp only [State.setMode, State.event_jobs, State.set_jobs, apply_ite State.jobs, ite_self]

theorem State.enterMode_jobs (s : State) (m : Nat) (keep : Bool) : (s.enterMode m keep).jobs = s.jobs := by
  simp only [State.enterMode]
  split <;> simp only [State.aimRun_jobs, State.beginLeg_jobs, State.modSk_jobs, State.setFlag_jobs, State.setMode_jobs,
    State.setStake_jobs, apply_ite State.jobs, ite_self]

theorem State.fall_jobs (s : State) (m : Nat) : (s.fall m).jobs = s.jobs := by
  simp -implicitDefEqProofs only [State.fall, State.beginHalt_jobs, State.bump_jobs, State.enterMode_jobs, State.modSk_jobs,
    State.setFlag_jobs, State.setVec_jobs, apply_ite State.jobs, ite_self]

theorem State.falls_jobs (s : State) : s.falls.jobs = s.jobs := by
  simp only [State.falls, State.beginHalt_jobs, State.fall_jobs, apply_ite State.jobs, ite_self]

theorem State.startMove_jobs (s : State) : s.startMove.jobs = s.jobs := by
  simp only [State.startMove, State.modSk_jobs, State.setFlag_jobs, State.startRun_jobs]

theorem State.skTake_jobs (s : State) : s.skTake.1.jobs = s.jobs := by
  simp only [State.skTake]
  split <;> simp only [State.beginHalt_jobs, State.bump_jobs, State.enterMode_jobs, State.modSk_jobs, State.setStake_jobs,
    State.set_jobs, State.startMove_jobs, apply_ite State.jobs, ite_self, apply_ite Prod.fst]

theorem State.stepWind_jobs (s : State) (dt : Word64) : (s.stepWind dt).jobs = s.jobs := by
  simp -implicitDefEqProofs only [State.stepWind, apply_ite State.jobs]
  repeat' split
  all_goals rfl

theorem State.stepVane_jobs (s : State) (dt : Word64) : (s.stepVane dt).jobs = s.jobs := by
  simp only [State.stepVane, State.modSk_jobs, apply_ite State.jobs, ite_self]

theorem State.followTarget_jobs (s : State) : s.followTarget.jobs = s.jobs := by
  simp only [State.followTarget, State.modSk_jobs, State.startRun_jobs]

theorem State.moveRest_jobs (s : State) : s.moveRest.jobs = s.jobs := by
  simp only [State.moveRest, State.modSk_jobs, State.setFlag_jobs, State.setStake_jobs, apply_ite State.jobs, ite_self]

theorem State.stepRef_jobs (s : State) (dt : Word64) : (s.stepRef dt).jobs = s.jobs := by
  simp only [State.stepRef]
  split <;> simp only [State.beginLeg_jobs, State.followTarget_jobs, State.modSk_jobs, State.moveRest_jobs, State.setMode_jobs,
    State.setStake_jobs, State.startRun_jobs, State.stepPos_jobs, State.stepPsi_jobs, State.stepVane_jobs, apply_ite State.jobs,
    ite_self]

theorem State.law_jobs (s : State) (dt : Word64) (prev : Nat) (entered : Bool) : (s.law dt prev entered).1.jobs = s.jobs := by
  simp only [State.law, State.modSk_jobs, State.setFlag_jobs, apply_ite State.jobs, ite_self]

theorem State.skPublish_jobs (s : State) (tau : List Word64) : (s.skPublish tau).jobs = s.jobs := by
  simp only [State.skPublish, State.setWord_jobs]
  split <;> simp only [State.setFlag_jobs, State.setVec_jobs, State.setWord_jobs, State.set_jobs]

theorem State.skRelease_jobs (s : State) : s.skRelease.jobs = s.jobs := by
  simp only [State.skRelease, State.falls_jobs, State.joyDemand_jobs, State.law_jobs, State.modSk_jobs, State.skPublish_jobs,
    State.skTake_jobs, State.stepRef_jobs, State.stepWind_jobs, apply_ite State.jobs, ite_self]

/-! Machine/Pair: the pair. -/

theorem State.haEvt_jobs (s : State) (i : Nat) : (s.haEvt i).jobs = s.jobs := by
  simp -implicitDefEqProofs only [State.haEvt, State.event_jobs, State.setFlag_jobs, apply_ite State.jobs, ite_self]

theorem State.adopt_jobs (s : State) (t src : Nat) : (s.adopt t src).jobs = s.jobs := by
  simp only [State.adopt, State.setWord_jobs, State.set_jobs]

theorem State.follow_jobs (s : State) (t src : Nat) : (s.follow t src).jobs = s.jobs := by
  simp only [State.follow, State.adopt_jobs, State.haEvt_jobs]

theorem State.showCk_jobs (s : State) : s.showCk.jobs = s.jobs := by simp only [State.showCk, State.setFlag_jobs]

theorem State.ckClear_jobs (s : State) : s.ckClear.jobs = s.jobs := by
  simp only [State.ckClear, State.modHa_jobs, State.showCk_jobs]

theorem State.ckEmit_jobs (s : State) (t : Nat) : (s.ckEmit t).jobs = s.jobs := by
  simp only [State.ckEmit]
  split <;> simp only [State.emit_jobs, State.modHa_jobs, State.pmu_jobs, foldl_jobs, implies_true]

theorem State.ckStop_jobs (s : State) : s.ckStop.jobs = s.jobs := by
  simp only [State.ckStop]
  split <;> simp only [State.ckEmit_jobs, State.modHa_jobs, State.modNet_jobs]

theorem State.sendCmds_jobs (s : State) (cyc : Word) (flags : Nat) (l : List Cmd) (launch : Option Stamp) :
    (s.sendCmds cyc flags l launch).jobs = s.jobs := by
  simp only [State.sendCmds, State.sendTwin_jobs, foldl_jobs, implies_true]

theorem State.ckptLoad_jobs (s : State) (c : Ckpt) : (s.ckptLoad c).jobs = s.jobs := by
  simp -implicitDefEqProofs only [State.ckptLoad, State.modEst_jobs, State.modStream_jobs, State.setByte_jobs,
    State.setFlag_jobs, State.setWord_jobs, foldl_jobs, implies_true, apply_ite State.jobs, ite_self]

theorem State.ckSent_jobs (s : State) (c : CkSend) : (s.ckSent c).jobs = s.jobs := by
  simp only [State.ckSent, State.advanceTo_jobs, State.ckEmit_jobs, State.modHa_jobs, State.setWord_jobs, State.set_jobs]

theorem State.ckAbandon_jobs (s : State) : s.ckAbandon.jobs = s.jobs := by
  simp only [State.ckAbandon]
  split <;> simp only [State.bump_jobs, State.ckSent_jobs, State.ckStop_jobs, State.event_jobs, State.setFlag_jobs,
    apply_ite State.jobs, ite_self]

theorem State.ckBad_jobs (s : State) (cyc : Word) : (s.ckBad cyc).jobs = s.jobs := by
  simp only [State.ckBad, State.bump_jobs, State.modHa_jobs]

theorem State.ckComplete_jobs (s : State) (crc : Bool) (total : Nat) (data : Ckpt) :
    (s.ckComplete crc total data).jobs = s.jobs := by
  simp only [State.ckComplete, State.ckBad_jobs, State.follow_jobs, State.modHa_jobs, State.setWord_jobs, State.set_jobs,
    State.showCk_jobs, apply_ite State.jobs, ite_self]

theorem State.ckFrame_jobs (s : State) (want frag nfrag : Nat) (cyc : Word) (total : Nat) (cut crc : Bool) (data : Ckpt) :
    (s.ckFrame want frag nfrag cyc total cut crc data).jobs = s.jobs := by
  simp only [State.ckFrame, State.ckBad_jobs, State.ckComplete_jobs, State.modHa_jobs, apply_ite State.jobs, ite_self]

theorem State.seizeBlocked_jobs (s : State) : s.seizeBlocked.jobs = s.jobs := by
  simp only [State.seizeBlocked, State.haEvt_jobs, State.setFlag_jobs, apply_ite State.jobs, ite_self]

theorem State.cres_jobs (s : State) (ok : Bool) : (s.cres ok).jobs = s.jobs := by simp only [State.cres, State.set_jobs]

theorem State.linesFrom_jobs (s : State) : s.linesFrom.jobs = s.jobs := by simp only [State.linesFrom, State.modHa_jobs]

/-! Machine/Block: the block engines. -/

theorem State.setTState_jobs (s : State) (n v : Nat) : (s.setTState n v).jobs = s.jobs := by
  simp only [State.setTState, State.set_jobs]

theorem State.markRun_jobs (s : State) (e : Nat) (on : Bool) : (s.markRun e on).jobs = s.jobs := by
  simp only [State.markRun, State.modBe_jobs]

theorem State.showBeDoze_jobs (s : State) : s.showBeDoze.jobs = s.jobs := by
  simp only [State.showBeDoze, State.setDoze_jobs, foldl_jobs, implies_true]

theorem beCtrlWrite_jobs (s : State) (d : Dom) (v : Word) : (beCtrlWrite s d v).1.jobs = s.jobs := by
  simp only [beCtrlWrite, State.plainWrite_jobs, State.showBeDoze_jobs]

theorem State.taskOn_jobs (s : State) (n : Nat) : (s.taskOn n).jobs = s.jobs := by
  simp -implicitDefEqProofs only [State.taskOn, State.modTask_jobs, State.setTState_jobs, State.set_jobs, apply_ite State.jobs,
    ite_self]

theorem State.taskOff_jobs (s : State) (n : Nat) : (s.taskOff n).jobs = s.jobs := by
  simp only [State.taskOff, State.setTState_jobs, apply_ite State.jobs, ite_self]

theorem tcfgWrite_jobs (s : State) (d : Dom) (n : Nat) (v : Word) : (tcfgWrite s d n v).1.jobs = s.jobs := by
  simp only [tcfgWrite, State.setFlag_jobs, State.setWord_jobs, State.showBeDoze_jobs, State.taskOff_jobs, State.taskOn_jobs,
    State.writeGuard_jobs, implies_true, apply_ite State.jobs, ite_self, apply_ite Prod.fst]

theorem tphWrite_jobs (s : State) (d : Dom) (n : Nat) (v : Word) : (tphWrite s d n v).1.jobs = s.jobs := by
  simp only [tphWrite, State.plainWrite_jobs, State.writeGuard_jobs, implies_true, apply_ite State.jobs, ite_self,
    apply_ite Prod.fst]

theorem State.trellRead_jobs (s : State) (n : Nat) : (s.trellRead n).jobs = s.jobs := by
  simp only [State.trellRead, State.set_jobs]

theorem State.beStore_jobs (s : State) (a : Nat) (l : List Byte) : (s.beStore a l).jobs = s.jobs := by
  simp -implicitDefEqProofs only [State.beStore, State.setByte_jobs, foldl_jobs, implies_true]

theorem State.applyForce_jobs (s : State) (f : Force) : (s.applyForce f).jobs = s.jobs := by
  simp only [State.applyForce, State.storeBytes_jobs]

theorem State.showForce_jobs (s : State) (f : Force) : (s.showForce f).jobs = s.jobs := by
  simp only [State.showForce, State.setWord_jobs]

theorem State.hideForce_jobs (s : State) (k : Nat) : (s.hideForce k).jobs = s.jobs := by
  simp -implicitDefEqProofs only [State.hideForce, State.setWord_jobs, foldl_jobs, implies_true]

theorem State.forceRes_jobs (s : State) (r : Nat) : (s.forceRes r).jobs = s.jobs := by simp only [State.forceRes, State.set_jobs]

theorem State.forceSet_jobs (s : State) (id : Word) (v : Word64) : (s.forceSet id v).1.jobs = s.jobs := by
  simp only [State.forceSet]
  split <;> simp only [State.applyForce_jobs, State.forceRes_jobs, State.modBe_jobs, State.showForce_jobs, apply_ite State.jobs,
    ite_self, apply_ite Prod.fst]

theorem State.forceDrop_jobs (s : State) (f : Force) : (s.forceDrop f).jobs = s.jobs := by
  simp only [State.forceDrop, State.hideForce_jobs, State.modBe_jobs]

theorem State.forceClear_jobs (s : State) (id : Word) : (s.forceClear id).1.jobs = s.jobs := by
  simp only [State.forceClear]
  split <;> simp only [State.applyForce_jobs, State.forceDrop_jobs, State.forceRes_jobs]

theorem State.forceClearAll_jobs (s : State) : s.forceClearAll.1.jobs = s.jobs := by
  simp only [State.forceClearAll, State.applyForce_jobs, State.forceDrop_jobs, State.forceRes_jobs, foldl_jobs, implies_true]

theorem State.forceOp_jobs (s : State) (op : Nat) (id : Word) (v : Word64) : (s.forceOp op id v).1.jobs = s.jobs := by
  simp only [State.forceOp]
  split <;> simp only [State.forceClearAll_jobs, State.forceClear_jobs, State.forceSet_jobs]

theorem fopWrite_jobs (s : State) (d : Dom) (v : Word) : (fopWrite s d v).1.jobs = s.jobs := by
  simp only [fopWrite, State.forceOp_jobs, State.keyGuard_jobs, State.modBe_jobs, State.writeGuard_jobs, implies_true,
    apply_ite State.jobs, ite_self, apply_ite Prod.fst]

/-! Machine/CanBus: the CAN buses. -/

theorem State.nameForget_jobs (s : State) (c n : Nat) : (s.nameForget c n).jobs = s.jobs := by
  simp only [State.nameForget, State.setFlag_jobs, State.set_jobs]

theorem State.greet_jobs (s : State) (c : Nat) : (s.greet c).jobs = s.jobs := by
  simp only [State.greet, State.canEmit_jobs, State.modCan_jobs, State.sendClaim_jobs]

theorem State.canStart_jobs (s : State) (c : Nat) : (s.canStart c).jobs = s.jobs := by
  simp -implicitDefEqProofs only [State.canStart, State.canShowFt_jobs, State.canState_jobs, State.greet_jobs, State.modCan_jobs,
    State.nameForget_jobs, State.set_jobs, foldl_jobs, implies_true, apply_ite State.jobs, ite_self]

theorem canCfgWrite_jobs (s : State) (d : Dom) (c : Nat) (v : Word) : (canCfgWrite s d c v).1.jobs = s.jobs := by
  simp only [canCfgWrite, State.canStart_jobs, State.modCan_jobs, State.setFlag_jobs, State.setWord_jobs, State.writeGuard_jobs,
    implies_true, apply_ite State.jobs, ite_self, apply_ite Prod.fst]

theorem canTimWrite_jobs (s : State) (d : Dom) (c a : Nat) (v : Word) : (canTimWrite s d c a v).1.jobs = s.jobs := by
  simp only [canTimWrite, State.plainWrite_jobs, State.writeGuard_jobs, implies_true, apply_ite State.jobs, ite_self,
    apply_ite Prod.fst]

theorem canNameWrite_jobs (s : State) (d : Dom) (c n a : Nat) (v : Word) : (canNameWrite s d c n a v).1.jobs = s.jobs := by
  simp only [canNameWrite, State.nameForget_jobs, State.plainWrite_jobs, State.writeGuard_jobs, implies_true,
    apply_ite State.jobs, ite_self, apply_ite Prod.fst]

theorem canNameEnWrite_jobs (s : State) (d : Dom) (c n : Nat) (v : Word) : (canNameEnWrite s d c n v).1.jobs = s.jobs := by
  simp only [canNameEnWrite, State.nameForget_jobs, State.plainWrite_jobs, apply_ite State.jobs, ite_self, apply_ite Prod.fst]

theorem canBufWrite_jobs (s : State) (d : Dom) (c b a : Nat) (v : Word) : (canBufWrite s d c b a v).1.jobs = s.jobs := by
  simp only [canBufWrite, State.canCapture_jobs, State.canShowFt_jobs, State.plainWrite_jobs, State.writeGuard_jobs,
    implies_true, apply_ite State.jobs, ite_self, apply_ite Prod.fst]

theorem State.canSlotEnd_jobs (s : State) (c code : Nat) (window : Bool) : (s.canSlotEnd c code window).jobs = s.jobs := by
  simp only [State.canSlotEnd]
  split <;> simp only [State.modCan_jobs, State.setFlag_jobs, State.set_jobs]

theorem State.canOffer_jobs (s : State) (c t : Nat) : (s.canOffer c t).jobs = s.jobs := by
  simp only [State.canOffer]
  split <;> simp only [State.modCan_jobs, apply_ite State.jobs, ite_self]

theorem canCellWrite_jobs (s : State) (d : Dom) (c a : Nat) (v : Word) : (canCellWrite s d c a v).1.jobs = s.jobs := by
  simp only [canCellWrite]
  split <;> simp only [State.modCan_jobs, State.plainWrite_jobs, apply_ite State.jobs, ite_self, apply_ite Prod.fst]

theorem State.canOpen_jobs (s : State) (c b win : Nat) (ref : Option Nat) : (s.canOpen c b win ref).jobs = s.jobs := by
  simp only [State.canOpen, State.modCan_jobs, State.set_jobs]

theorem State.canColumn_jobs (s : State) (c idle : Nat) : (s.canColumn c idle).jobs = s.jobs := by
  unfold State.canColumn
  split
  · rfl
  · next t r j win _ =>
    extract_lets s₁ s₂ s₃ cell refCol b s₄
    have h₂ : s₂.jobs = s.jobs := by
      simp only [s₂]
      split <;> simp only [s₁, State.canSlotEnd_jobs, State.advanceTo_jobs]
    have h₄ : s₄.jobs = s.jobs := by
      simp only [s₄]
      split_ifs
      · rw [State.canOpen_jobs, State.modCan_jobs, h₂]
      · rw [State.modCan_jobs, h₂]
      · rw [State.canOpen_jobs, State.modCan_jobs, h₂]
      · rw [State.modCan_jobs, h₂]
      · split <;> simp only [s₃, State.canOpen_jobs, State.modCan_jobs, apply_ite State.jobs, ite_self, h₂]
    split_ifs
    · rw [State.canSlotEnd_jobs, h₄]
    · rw [State.canOffer_jobs, h₄]

theorem State.canRefer_jobs (s : State) (c ident : Nat) (ide : Bool) (d : List Byte) (t0 : Nat) :
    (s.canRefer c ident ide d t0).jobs = s.jobs := by
  simp only [State.canRefer, State.modCan_jobs, State.setFlag_jobs, apply_ite State.jobs, ite_self]

theorem State.canStore_jobs (s : State) (c ident : Nat) (ide : Bool) (d : List Byte) (remote : Option Nat) (st : Stamp) :
    (s.canStore c ident ide d remote st).jobs = s.jobs := by
  simp -implicitDefEqProofs only [State.canStore]
  split <;> simp -implicitDefEqProofs only [State.bump_jobs, State.modCan_jobs, State.setWord_jobs, State.set_jobs, foldl_jobs,
    implies_true, apply_ite State.jobs, ite_self]

theorem State.canFrame_jobs (s : State) (c ident : Nat) (ide fdf : Bool) (d : List Byte) (t0 : Nat) :
    (s.canFrame c ident ide fdf d t0).jobs = s.jobs := by
  simp only [State.canFrame, State.canData_jobs, State.canRefer_jobs, State.canStore_jobs, State.n2kFrame_jobs,
    apply_ite State.jobs, ite_self]

theorem State.canRxRead_jobs (s : State) (c b : Nat) : (s.canRxRead c b).jobs = s.jobs := by
  simp only [State.canRxRead, State.modCan_jobs]

theorem State.canTecUp_jobs (s : State) (c : Nat) : (s.canTecUp c).jobs = s.jobs := by
  simp only [State.canTecUp, State.bump_jobs, State.canState_jobs, State.event_jobs, State.modCan_jobs, State.set_jobs,
    apply_ite State.jobs, ite_self]

theorem State.canAckErr_jobs (s : State) (c : Nat) : (s.canAckErr c).jobs = s.jobs := by
  simp only [State.canAckErr, State.bump_jobs, State.canTecUp_jobs, State.event_jobs, State.modCan_jobs, State.setFlag_jobs,
    apply_ite State.jobs, ite_self]

theorem State.canSent_jobs (s : State) (c : Nat) (w : CanSlot) (t0 : Nat) : (s.canSent c w t0).jobs = s.jobs := by
  simp only [State.canSent, State.canEmit_jobs, State.canSlotEnd_jobs, State.canState_jobs, State.canStore_jobs,
    State.modCan_jobs, State.pmu_jobs, State.setFlag_jobs, State.setWord_jobs, State.set_jobs, apply_ite State.jobs, ite_self]

theorem State.canAttempt_jobs (s : State) (c dur : Nat) (e : CanEnd) : (s.canAttempt c dur e).jobs = s.jobs := by
  unfold State.canAttempt
  split
  · rfl
  · split
    · simp only [State.advanceTo_jobs, State.canSlotEnd_jobs, apply_ite State.jobs, ite_self]
    · split_ifs
      · rfl
      · extract_lets w' s₁ s₂
        have h₁ : s₁.jobs = s.jobs := by rw [State.modCan_jobs, State.advanceTo_jobs]
        have h₂ : s₂.jobs = s.jobs := by
          simp only [s₂]
          split <;> simp only [State.bump_jobs, State.canAckErr_jobs, State.canTecUp_jobs, h₁]
        split <;> simp only [State.canOffer_jobs, State.canSent_jobs, State.canSlotEnd_jobs, apply_ite State.jobs, ite_self, h₁,
          h₂]

theorem canTxreqWrite_jobs (s : State) (d : Dom) (c : Nat) (v : Word) : (canTxreqWrite s d c v).1.jobs = s.jobs := by
  simp only [canTxreqWrite, State.modCan_jobs, State.set_jobs, State.writeGuard_jobs, implies_true, apply_ite State.jobs,
    ite_self, apply_ite Prod.fst]

theorem canCancelWrite_jobs (s : State) (d : Dom) (c : Nat) (v : Word) : (canCancelWrite s d c v).1.jobs = s.jobs := by
  refine State.writeGuard_jobs (fun t => ?_) s d (R.CAN_CANCEL c)
  extract_lets b t'
  have h : t'.jobs = t.jobs := by simp only [t', State.modCan_jobs, State.set_jobs, apply_ite State.jobs, ite_self]
  split
  · exact h
  · split_ifs
    · exact h
    · split
      · simp only [State.canSlotEnd_jobs, State.modCan_jobs, State.canCapture_jobs, apply_ite Prod.fst, apply_ite State.jobs,
          ite_self, h]
      · rw [State.canSlotEnd_jobs, h]

/-! Machine/Reply: replies. -/

theorem State.cpSend_jobs (s : State) (t via src : Nat) (b : List Byte) : (s.cpSend t via src b).jobs = s.jobs := by
  simp only [State.cpSend, State.emit_jobs, State.modCp_jobs, State.sendFill_jobs, apply_ite State.jobs, ite_self]

theorem State.showCp_jobs (s : State) : s.showCp.jobs = s.jobs := by
  simp only [State.showCp]
  split <;> simp only [State.setFlag_jobs, State.set_jobs]

theorem State.cpFinish_jobs (s : State) (st : CpSt) (body : List Byte) : (s.cpFinish st body).jobs = s.jobs := by
  simp only [State.cpFinish]
  split <;> simp only [State.cpSend_jobs, State.modCp_jobs, State.showCp_jobs]

theorem State.cpSkTaken_jobs (s : State) : s.cpSkTaken.jobs = s.jobs := by
  simp -implicitDefEqProofs only [State.cpSkTaken]
  split <;> simp -implicitDefEqProofs only [State.cpFinish_jobs, apply_ite State.jobs, ite_self]

theorem State.cpSkExpire_jobs (s : State) : s.cpSkExpire.jobs = s.jobs := by
  simp -implicitDefEqProofs only [State.cpSkExpire]
  split <;> simp -implicitDefEqProofs only [State.cpFinish_jobs, apply_ite State.jobs, ite_self]

/-! Machine/Alloc: the allocator. -/

theorem alcCommitWrite_jobs (s : State) (d : Dom) (v : Word) : (alcCommitWrite s d v).1.jobs = s.jobs := by
  simp only [alcCommitWrite, State.modAlc_jobs, State.writeGuard_jobs, implies_true, apply_ite State.jobs, ite_self]

theorem State.stageSlot_jobs (s : State) (a : ASlot) (f : List Word64) : (s.stageSlot a f).jobs = s.jobs := by
  simp -implicitDefEqProofs only [State.stageSlot, State.bump_jobs, State.modAlc_jobs, State.putEntry_jobs, State.set64_jobs,
    State.setFlag_jobs, foldl_jobs, implies_true, apply_ite State.jobs, ite_self]
  repeat' split
  · rfl
  · rfl
  · simp -implicitDefEqProofs only [State.setFlag_jobs, State.stageCheck_jobs]
  · rfl
  · simp -implicitDefEqProofs only [State.stageCheck_jobs]
  · rfl

theorem State.publishSf_jobs (s : State) (cut : Option Nat) : (s.publishSf cut).jobs = s.jobs := by
  simp -implicitDefEqProofs only [State.publishSf, State.bump_jobs, State.event_jobs, State.modAlc_jobs, State.modEst_jobs,
    State.record_jobs, State.setFlag_jobs, State.setVec_jobs, State.setWord_jobs, State.set_jobs, foldl_jobs, implies_true,
    apply_ite State.jobs, ite_self]

theorem State.sendCap_jobs (s : State) (w : List Word) : (s.sendCap w).jobs = s.jobs := by
  simp only [State.sendCap, State.sendTwin_jobs, foldl_jobs, implies_true]

theorem State.publishEnv_jobs (s : State) (sf : List Word64) (sfOn : Bool) : (s.publishEnv sf sfOn).jobs = s.jobs := by
  simp -implicitDefEqProofs only [State.publishEnv, State.modAlc_jobs, State.sendCap_jobs, State.setWord_jobs, foldl_jobs,
    implies_true]

theorem State.publishEnvNow_jobs (s : State) : s.publishEnvNow.jobs = s.jobs := by
  simp only [State.publishEnvNow, State.modAlc_jobs, State.publishEnv_jobs, apply_ite State.jobs, ite_self]

theorem State.stage_jobs (s : State) (x : List Word64) (cut : Option Nat) : (s.stage x cut).jobs = s.jobs := by
  simp only [State.stage, State.modAlc_jobs, State.publishEnv_jobs, State.publishSf_jobs, State.stageSlot_jobs, foldl_jobs,
    implies_true, apply_ite State.jobs, ite_self]

theorem State.launchCmds_jobs (s : State) (flags : Nat) (l : List Cmd) : (s.launchCmds flags l).jobs = s.jobs := by
  simp -implicitDefEqProofs only [State.launchCmds, State.launchDue_jobs, State.sendCmds_jobs, foldl_jobs, implies_true]

theorem State.noteSent_jobs (s : State) (l : List Cmd) (rep : Bool) : (s.noteSent l rep).jobs = s.jobs := by
  simp only [State.noteSent, State.modAlc_jobs]

theorem State.launchStaged_jobs (s : State) : s.launchStaged.jobs = s.jobs := by
  simp only [State.launchStaged, State.launchCmds_jobs, State.modAlc_jobs, State.noteSent_jobs]

theorem State.launchIdle_jobs (s : State) : s.launchIdle.jobs = s.jobs := by simp only [State.launchIdle, State.modAlc_jobs]

theorem State.repeatOwn_jobs (s : State) : s.repeatOwn.jobs = s.jobs := by
  simp only [State.repeatOwn, State.putEntry_jobs, foldl_jobs, implies_true]

theorem State.outMiss_jobs (s : State) : s.outMiss.jobs = s.jobs := by
  simp only [State.outMiss, State.bump_jobs, State.event_jobs, State.setFlag_jobs, apply_ite State.jobs, ite_self]

theorem State.launchMiss_jobs (s : State) : s.launchMiss.jobs = s.jobs := by
  simp only [State.launchMiss, State.launchCmds_jobs, State.modAlc_jobs, State.noteSent_jobs, State.outMiss_jobs, State.pmu_jobs,
    State.repeatOwn_jobs]

theorem State.headLaunch_jobs (s : State) : s.headLaunch.jobs = s.jobs := by
  simp only [State.headLaunch, State.advanceTo_jobs, State.event_jobs, State.launchIdle_jobs, State.launchMiss_jobs,
    State.launchStaged_jobs, State.modAlc_jobs, State.publishEnvNow_jobs, State.setFlag_jobs, apply_ite State.jobs, ite_self]

/-! Machine/Twin: the twin networks. -/

theorem State.twinEvt_jobs (s : State) (f : Fld) (k : RecKind) : (s.twinEvt f k).jobs = s.jobs := by
  simp only [State.twinEvt, State.event_jobs, State.setFlag_jobs, apply_ite State.jobs, ite_self]

theorem State.answerTwin_jobs (s : State) (typ : Nat) (z : ZFrame) : (s.answerTwin typ z).jobs = s.jobs := by
  simp only [State.answerTwin, State.sendTwin_jobs]

theorem State.gate_jobs (s : State) (z : ZFrame) : (s.gate z).1.jobs = s.jobs := by
  simp only [State.gate, State.answerTwin_jobs, State.bump_jobs, State.follow_jobs, State.haEvt_jobs, State.modHa_jobs,
    apply_ite State.jobs, ite_self, apply_ite Prod.fst]

theorem State.relayTakeover_jobs (s : State) : s.relayTakeover.jobs = s.jobs := by
  simp only [State.relayTakeover, State.releaseTx_jobs, State.repeatOwn_jobs, State.sendCmds_jobs, apply_ite State.jobs, ite_self]

theorem State.capAccept_jobs (s : State) (z : ZFrame) : (s.capAccept z).jobs = s.jobs := by
  simp only [State.capAccept, State.modAlc_jobs]

theorem State.syncArm_jobs (s : State) (at' : Stamp) : (State.syncArm s at').jobs = s.jobs := by
  simp only [State.syncArm, State.setFlag_jobs, State.setWord_jobs, apply_ite State.jobs, ite_self]

theorem State.syncAccept_jobs (s : State) (z : ZFrame) : (s.syncAccept z).jobs = s.jobs := by
  simp only [State.syncAccept, State.syncArm_jobs, apply_ite State.jobs, ite_self]

theorem State.showPend_jobs (s : State) : s.showPend.jobs = s.jobs := by simp only [State.showPend, State.set_jobs]

theorem State.closePend_jobs (s : State) (p : TwinPend) : (s.closePend p).jobs = s.jobs := by
  simp only [State.closePend, State.modNet_jobs, State.showPend_jobs]

theorem State.helloFrame_jobs (s : State) (p : Nat) (b : List Byte) : (s.helloFrame p b).jobs = s.jobs := by
  simp only [State.helloFrame, State.bump_jobs, State.hello_jobs, apply_ite State.jobs, ite_self]

theorem syncHWrite_jobs (s : State) (d : Dom) (v : Word) : (syncHWrite s d v).1.jobs = s.jobs := by
  simp only [syncHWrite, State.sendTwin_jobs, State.setWord_jobs, State.syncArm_jobs, State.writeGuard_jobs, implies_true,
    apply_ite State.jobs, ite_self, apply_ite Prod.fst]

theorem zalTreeWrite_jobs (s : State) (d : Dom) (v : Word) : (zalTreeWrite s d v).1.jobs = s.jobs := by
  simp only [zalTreeWrite, State.plainWrite_jobs, apply_ite State.jobs, ite_self, apply_ite Prod.fst]

theorem State.txRing_jobs (p : Nat) : ∀ (n : Nat) (s : State), (s.txRing p n).jobs = s.jobs
  | 0, _ => rfl
  | n + 1, s => by
    simp only [State.txRing, txRing_jobs p n, State.descDone_jobs, State.queueTx_jobs, State.set_jobs, apply_ite State.jobs,
      ite_self]

theorem txTailWrite_jobs (s : State) (d : Dom) (p : Nat) (v : Word) : (txTailWrite s d p v).1.jobs = s.jobs := by
  simp -implicitDefEqProofs only [txTailWrite, State.set_jobs, State.txRing_jobs, State.writeGuard_jobs, implies_true,
    apply_ite State.jobs, ite_self]

theorem State.report_jobs (s old : State) (n p : Nat) : (s.report old n p).jobs = s.jobs := by
  simp -implicitDefEqProofs only [State.report]
  split <;> simp -implicitDefEqProofs only [State.sendPlain_jobs, apply_ite State.jobs, ite_self]

theorem netCfgWrite_jobs (s : State) (d : Dom) (p : Nat) (v : Word) : (netCfgWrite s d p v).1.jobs = s.jobs := by
  simp -implicitDefEqProofs only [netCfgWrite, State.modNet_jobs, State.plainWrite_jobs, State.report_jobs, State.txRing_jobs,
    foldl_jobs, implies_true, apply_ite State.jobs, ite_self, apply_ite Prod.fst]

theorem flowCfgWrite_jobs (s : State) (d : Dom) (n : Nat) (v : Word) : (flowCfgWrite s d n v).1.jobs = s.jobs := by
  simp only [flowCfgWrite, State.plainWrite_jobs, State.report_jobs, foldl_jobs, implies_true]

/-! Machine/Cycle: the cycle. -/

theorem State.showTick_jobs (s : State) : s.showTick.jobs = s.jobs := by simp only [State.showTick, State.setWord_jobs]

theorem State.takeProposal_jobs (s : State) : s.takeProposal.jobs = s.jobs := by simp only [State.takeProposal, State.modEst_jobs]

theorem State.keepPrev_jobs (s : State) (prev : Nat) : (s.keepPrev prev).jobs = s.jobs := by
  simp only [State.keepPrev, State.modEst_jobs]

theorem State.snap_jobs (s : State) (prev : Nat) : (s.snap prev).jobs = s.jobs := by
  simp -implicitDefEqProofs only [State.snap, State.copyDescriptors_jobs, State.estSnap_jobs, State.evalStream_jobs,
    State.keepPrev_jobs, State.latch_jobs, State.modAlc_jobs, State.modHa_jobs, State.stakeTranslate_jobs, State.survSnap_jobs,
    State.takeProposal_jobs, State.trackerSnap_jobs, State.trkAssign_jobs, foldl_jobs, implies_true, apply_ite State.jobs,
    ite_self]

theorem State.readT0_jobs (s : State) : s.readT0.jobs = s.jobs := by simp only [State.readT0, State.setWord_jobs]

theorem State.takeNbias_jobs (s : State) : s.takeNbias.jobs = s.jobs := by
  simp -implicitDefEqProofs only [State.takeNbias, State.set_jobs, foldl_jobs, implies_true]

theorem State.runStart_jobs (s : State) : s.runStart.jobs = s.jobs := by
  simp only [State.runStart, State.assignBiases_jobs, State.commitShadow_jobs, State.estReset_jobs, State.modAlc_jobs,
    State.modEst_jobs, State.setFlag_jobs, State.set_jobs, State.takeNbias_jobs, State.trkAssign_jobs, apply_ite State.jobs,
    ite_self]

theorem State.deviceWake_jobs (s : State) : s.deviceWake.jobs = s.jobs := by
  simp only [State.deviceWake, State.setDoze_jobs, apply_ite State.jobs, ite_self]

theorem cycHeldWrite_jobs (s : State) (d : Dom) (a : Nat) (v : Word) : (cycHeldWrite s d a v).1.jobs = s.jobs := by
  simp only [cycHeldWrite, State.setWord_jobs, State.shadowWrite_jobs, apply_ite State.jobs, ite_self]

theorem mnCfgWrite_jobs (s : State) (d : Dom) (n : Nat) (v : Word) : (mnCfgWrite s d n v).1.jobs = s.jobs := by
  simp only [mnCfgWrite, State.shadowWrite_jobs]

/-! Machine/Complete: what a finished job causes. -/

theorem State.assignDone_jobs (s : State) (status : Nat) (x : List Word64) : (s.assignDone status x).jobs = s.jobs := by
  simp only [State.assignDone, State.applyAssign_jobs, State.bump_jobs, State.modTrk_jobs, apply_ite State.jobs, ite_self]

theorem State.kfRun_jobs (s : State) (j : Job) : (s.kfRun j).1.jobs = s.jobs := by
  simp -implicitDefEqProofs only [State.kfRun]
  split <;> simp -implicitDefEqProofs only [State.drawn_jobs]

theorem State.kfStore_jobs (s : State) (j : Job) (o : KfOut) : (s.kfStore j o).jobs = s.jobs := by
  simp only [State.kfStore, State.storeBytes_jobs, apply_ite State.jobs, ite_self]

theorem State.atDeadline_jobs (s : State) (j : Job) : (s.atDeadline j).jobs = s.jobs := by
  simp only [State.atDeadline, State.advanceTo_jobs]

/-! Machine/Gnss: the GNSS receiver. -/

theorem State.gnStream_jobs (s : State) (n typ : Nat) (vals : List Word64) (mode sats : Nat) :
    (s.gnStream n typ vals mode sats).jobs = s.jobs := by
  simp only [State.gnStream, State.queueWrite_jobs, foldl_jobs, implies_true]

theorem State.gnRing_jobs (s : State) (base log widx : Nat) (bytes : List Byte) :
    (s.gnRing base log widx bytes).jobs = s.jobs := by
  simp only [State.gnRing, State.storeBytes_jobs, apply_ite State.jobs, ite_self]

theorem State.obsRecord_jobs (s : State) (b : List Byte) : (s.obsRecord b).jobs = s.jobs := by
  simp only [State.obsRecord, State.gnRing_jobs, State.set_jobs]

theorem State.gnChannel_jobs (s : State) (c : Nat × Nat) : (s.gnChannel c).jobs = s.jobs := by
  simp only [State.gnChannel, State.set_jobs, apply_ite State.jobs, ite_self]

theorem State.showIso_jobs (s : State) : s.showIso.jobs = s.jobs := by
  simp -implicitDefEqProofs only [State.showIso, State.setWord_jobs, foldl_jobs, implies_true]

theorem State.gnIso_jobs (s : State) (g : GnssEpoch) : (s.gnIso g).jobs = s.jobs := by
  simp -implicitDefEqProofs only [State.gnIso, State.modGn_jobs, State.setWord_jobs, foldl_jobs, implies_true]

theorem State.gnssEpoch_jobs (s : State) (g : GnssEpoch) : (s.gnssEpoch g).jobs = s.jobs := by
  simp -implicitDefEqProofs only [State.gnssEpoch, State.modEst_jobs, State.obsRecord_jobs, foldl_jobs, implies_true,
    apply_ite State.jobs, ite_self]
  repeat' split
  all_goals simp -implicitDefEqProofs only [State.advanceTo_jobs, State.gnChannel_jobs, State.gnIso_jobs, State.gnStream_jobs,
    State.modGn_jobs, State.setFlag_jobs, State.set_jobs, foldl_jobs, implies_true]

theorem State.acqNext_jobs (s : State) : s.acqNext.jobs = s.jobs := by
  simp -implicitDefEqProofs only [State.acqNext, State.set_jobs]
  split <;> simp -implicitDefEqProofs only [State.modGn_jobs]

theorem acqReqWrite_jobs (s : State) (d : Dom) (v : Word) : (acqReqWrite s d v).1.jobs = s.jobs := by
  simp only [acqReqWrite, State.acqNext_jobs, State.modGn_jobs, State.setWord_jobs, State.set_jobs, State.writeGuard_jobs,
    implies_true, apply_ite State.jobs, ite_self, apply_ite Prod.fst]

theorem State.channelStart_jobs (s : State) (n : Nat) (w : Word) : (s.channelStart n w).jobs = s.jobs := by
  simp only [State.channelStart, State.modGn_jobs, State.setWord_jobs, State.set_jobs]

theorem State.channelStop_jobs (s : State) (n : Nat) : (s.channelStop n).jobs = s.jobs := by
  simp only [State.channelStop, State.modGn_jobs, State.set_jobs]

theorem chCtrlWrite_jobs (s : State) (d : Dom) (n : Nat) (v : Word) : (chCtrlWrite s d n v).1.jobs = s.jobs := by
  simp only [chCtrlWrite, State.channelStart_jobs, State.channelStop_jobs, State.setWord_jobs, State.writeGuard_jobs,
    implies_true, apply_ite State.jobs, ite_self, apply_ite Prod.fst]

theorem State.antenna_jobs (s : State) (a ma : Nat) : (s.antenna a ma).jobs = s.jobs := by
  simp only [State.antenna, State.event_jobs, State.setFlag_jobs, State.set_jobs, apply_ite State.jobs, ite_self]

theorem antWrite_jobs (s : State) (d : Dom) (a : Nat) (v : Word) : (antWrite s d a v).1.jobs = s.jobs := by
  simp only [antWrite, State.setFlag_jobs, State.set_jobs, State.writeGuard_jobs, implies_true, apply_ite State.jobs, ite_self]

theorem State.wbShow_jobs (s : State) (q : Nat) : (s.wbShow q).jobs = s.jobs := by
  simp -implicitDefEqProofs only [State.wbShow]
  split <;> simp -implicitDefEqProofs only [State.setFlag_jobs, State.setWord_jobs, State.seti_jobs]

theorem wbWrite_jobs (s : State) (d : Dom) (q off : Nat) (v : Word) : (wbWrite s d q off v).1.jobs = s.jobs := by
  simp only [wbWrite, State.plainWrite_jobs, State.set_jobs, State.wbShow_jobs, apply_ite State.jobs, ite_self]

theorem State.wbPath_jobs (s : State) (p : Nat) (lines : List (Int × Nat)) : (s.wbPath p lines).jobs = s.jobs := by
  refine foldl_fst_jobs (fun acc w => ?_) _ (s, lines)
  dsimp only
  split
  · rfl
  · generalize List.foldl _ _ _ = best
    cases best <;> simp only [State.event_jobs, State.setFlag_jobs, State.setWord_jobs, State.seti_jobs, apply_ite State.jobs,
      ite_self]

theorem State.jiPath_jobs (s : State) (p : Nat) (l : Int × Int) : (s.jiPath p l).jobs = s.jobs := by
  simp only [State.jiPath, State.event_jobs, State.modGn_jobs, State.set_jobs, apply_ite State.jobs, ite_self]

theorem jiCfgWrite_jobs (s : State) (d : Dom) (v : Word) : (jiCfgWrite s d v).1.jobs = s.jobs := by
  simp only [jiCfgWrite, State.modGn_jobs, State.setWord_jobs, State.writeGuard_jobs, implies_true, apply_ite State.jobs,
    ite_self]

theorem State.hdgDrop_jobs (s : State) : s.hdgDrop.jobs = s.jobs := by
  simp only [State.hdgDrop, State.setFlag_jobs, apply_ite State.jobs, ite_self]

theorem gnHdgWrite_jobs (s : State) (d : Dom) (v : Word) : (gnHdgWrite s d v).1.jobs = s.jobs := by
  simp only [gnHdgWrite, State.hdgDrop_jobs, State.plainWrite_jobs, apply_ite State.jobs, ite_self, apply_ite Prod.fst]

theorem State.gnWake_jobs (s : State) : s.gnWake.jobs = s.jobs := by
  simp only [State.gnWake, State.modGn_jobs, State.modTime_jobs, State.setFlag_jobs, State.showIso_jobs]

/-! Machine/Interrupt: the interrupt controller. -/

theorem State.claim_jobs (s : State) (x l : Nat) : (s.claim x l).jobs = s.jobs := by
  simp only [State.claim, State.modProc_jobs, State.modRing_jobs, State.refreshLine_jobs, State.setByte_jobs, State.setWord_jobs,
    State.set_jobs, apply_ite State.jobs, ite_self]

theorem State.complete_jobs (s : State) (x : Nat) : (s.complete x).jobs = s.jobs := by
  simp -implicitDefEqProofs only [State.complete]
  split <;> simp -implicitDefEqProofs only [State.bump_jobs, State.modProc_jobs, State.modRing_jobs, State.refreshLine_jobs,
    State.setFlag_jobs, State.set_jobs, apply_ite State.jobs, ite_self]

theorem icSwset_jobs (s : State) (d : Dom) (v : Word) : (icSwset s d v).1.jobs = s.jobs := by
  simp only [icSwset, State.arriveG_jobs, State.writeGuard_jobs, implies_true]

theorem State.recNext_jobs (s : State) : s.recNext.jobs = s.jobs := by
  simp only [State.recNext, State.drawn_jobs, State.refreshWindow_jobs, State.setWord_jobs, apply_ite State.jobs, ite_self]

theorem recCtlWrite_jobs (s : State) (d : Dom) (v : Word) : (recCtlWrite s d v).1.jobs = s.jobs := by
  simp only [recCtlWrite, State.plainWrite_jobs, State.recNext_jobs, apply_ite State.jobs, ite_self, apply_ite Prod.fst]

theorem recCurWrite_jobs (s : State) (d : Dom) (v : Word) : (recCurWrite s d v).1.jobs = s.jobs := by
  simp only [recCurWrite, State.refreshWindow_jobs, State.setWord_jobs, State.writeGuard_jobs, implies_true]

theorem State.recClear_jobs (s : State) (d : Dom) : (s.recClear d).1.jobs = s.jobs := by
  simp only [State.recClear, State.afterFree_jobs, State.record_jobs, State.setFlag_jobs, State.setWord_jobs,
    apply_ite State.jobs, ite_self, apply_ite Prod.fst]

theorem recClrWrite_jobs (s : State) (d : Dom) (v : Word) : (recClrWrite s d v).1.jobs = s.jobs := by
  simp only [recClrWrite, State.keyGuard_jobs, State.recClear_jobs, State.writeGuard_jobs, implies_true, apply_ite State.jobs,
    ite_self, apply_ite Prod.fst]

theorem ringWrite_jobs (s : State) (d : Dom) (x l off : Nat) (v : Word) : (ringWrite s d x l off v).1.jobs = s.jobs := by
  simp only [ringWrite, State.bump_jobs, State.setWord_jobs, apply_ite State.jobs, ite_self, apply_ite Prod.fst]

theorem icSrcWrite_jobs (s : State) (d : Dom) (n : Nat) (v : Word) : (icSrcWrite s d n v).1.jobs = s.jobs := by
  simp only [icSrcWrite, State.setWord_jobs, apply_ite State.jobs, ite_self, apply_ite Prod.fst]

theorem icPieWrite_jobs (s : State) (d : Dom) (x : Nat) (v : Word) : (icPieWrite s d x v).1.jobs = s.jobs := by
  simp only [icPieWrite, State.setWord_jobs, apply_ite State.jobs, ite_self, apply_ite Prod.fst]

theorem evcfgWrite_jobs (s : State) (d : Dom) (w : Nat) (v : Word) : (evcfgWrite s d w v).1.jobs = s.jobs := by
  simp only [evcfgWrite, State.setWord_jobs, apply_ite State.jobs, ite_self, apply_ite Prod.fst]

/-! Machine/Access: register accesses. -/

theorem State.gpioOut_jobs (s : State) (old : Word × Word) : (s.gpioOut old).jobs = s.jobs := by
  simp only [State.gpioOut, State.emit_jobs, foldl_jobs, implies_true, apply_ite State.jobs, ite_self]

theorem State.gpioIn_jobs (s : State) : s.gpioIn.jobs = s.jobs := by
  simp only [State.gpioIn, State.drawn_jobs, State.setWord_jobs]

theorem State.junction_jobs (s : State) : s.junction.jobs = s.jobs := by
  simp only [State.junction, State.drawn_jobs, State.setFlag_jobs, State.set_jobs]

theorem State.readEffect_jobs (s : State) (d : Dom) (a : Nat) : (s.readEffect d a).jobs = s.jobs := by
  simp -implicitDefEqProofs only [State.readEffect, State.canRxRead_jobs, State.gpioIn_jobs, State.junction_jobs,
    State.popCapture_jobs, State.readNow_jobs, State.readOfsl_jobs, State.readT0_jobs, State.set_jobs, State.trellRead_jobs,
    State.uartRead_jobs, apply_ite State.jobs, ite_self]
  repeat' split
  all_goals simp -implicitDefEqProofs only [State.bump_jobs, State.claim_jobs, State.setWord_jobs]

theorem State.clearRc_jobs (s : State) (r : RegDesc) (a : Nat) : (s.clearRc r a).jobs = s.jobs := by
  simp only [State.clearRc, State.setWord_jobs, apply_ite State.jobs, ite_self]

theorem State.regRead_jobs (s : State) (d : Dom) (a : Nat) : (s.regRead d a).1.jobs = s.jobs := by
  simp -implicitDefEqProofs only [State.regRead]
  split <;> simp -implicitDefEqProofs only [State.clearRc_jobs, State.offAccess_jobs, State.pmuRead_jobs, State.readEffect_jobs,
    coefAccess_jobs, tblAccess_jobs, apply_ite State.jobs, ite_self, apply_ite Prod.fst]

theorem State.busErr_jobs (s : State) : s.busErr.jobs = s.jobs := by simp only [State.busErr, State.bump_jobs]

theorem State.busRead_jobs (s : State) (d : Dom) (a : Nat) : (s.busRead d a).1.jobs = s.jobs := by
  simp -implicitDefEqProofs only [State.busRead]
  split <;> simp -implicitDefEqProofs only [State.busErr_jobs, State.offAccess_jobs, State.regRead_jobs, apply_ite State.jobs,
    ite_self, apply_ite Prod.fst]

/-! Machine/Engine: instructions of block code. -/

theorem State.askCopy_jobs (s : State) (n : Nat) (out : Bool) : (s.askCopy n out).jobs = s.jobs := by
  simp only [State.askCopy, State.modBe_jobs]

theorem State.runOn_jobs (s : State) (e n : Nat) : (s.runOn e n).jobs = s.jobs := by
  simp -implicitDefEqProofs only [State.runOn, State.markRun_jobs, State.modTask_jobs, State.setTState_jobs, State.set_jobs]

theorem State.schedule_jobs (s : State) (e : Nat) : (s.schedule e).jobs = s.jobs := by
  simp -implicitDefEqProofs only [State.schedule]
  split <;> simp -implicitDefEqProofs only [State.runOn_jobs, State.setTState_jobs, apply_ite State.jobs, ite_self]

theorem State.leaveRun_jobs (s : State) (e n : Nat) : (s.leaveRun e n).jobs = s.jobs := by
  simp only [State.leaveRun, State.markRun_jobs, State.modTask_jobs, State.setFlag_jobs, State.set_jobs]

theorem State.endRun_jobs (s : State) (e n : Nat) : (s.endRun e n).jobs = s.jobs := by
  simp only [State.endRun, State.askCopy_jobs, State.leaveRun_jobs, State.schedule_jobs, State.setTState_jobs]

theorem State.trapRun_jobs (s : State) (e n cause : Nat) : (s.trapRun e n cause).jobs = s.jobs := by
  simp -implicitDefEqProofs only [State.trapRun, State.arrive_jobs, State.bump_jobs, State.leaveRun_jobs, State.record_jobs,
    State.schedule_jobs, State.setTState_jobs, State.set_jobs, apply_ite State.jobs, ite_self]

theorem State.eccCorrected_jobs (s : State) (k : Nat) : (s.eccCorrected k).jobs = s.jobs := by
  simp only [State.eccCorrected, State.set_jobs, apply_ite State.jobs, ite_self]

theorem State.issue_jobs {f : State → Nat → Ctx → CodeRes} (hf : ∀ t n k u c, f t n k = .ok (u, c) → u.jobs = t.jobs)
    (s : State) (e : Nat) : (s.issue e f).jobs = s.jobs := by
  unfold State.issue
  split
  · rfl
  · dsimp only
    split
    · next n _ t c ht => rw [State.modTask_jobs, hf _ _ _ _ _ ht, State.pmu_jobs]
    · rw [State.trapRun_jobs, State.pmu_jobs]

/-! Machine/Runtime: tasks and their copies. -/

theorem State.release_jobs (s : State) (n due : Nat) : (s.release n due).jobs = s.jobs := by
  simp only [State.release, State.advanceTo_jobs, State.askCopy_jobs, State.bump_jobs, State.cpSkTaken_jobs, State.event_jobs,
    State.modTask_jobs, State.setTState_jobs, State.setWord_jobs, State.skRelease_jobs, State.speGate_jobs, apply_ite State.jobs,
    ite_self]

theorem State.copyInEntry_jobs (s : State) (n : Nat) (e : IoEnt) : (s.copyInEntry n e).jobs = s.jobs := by
  simp only [State.copyInEntry, State.beStore_jobs, State.busRead_jobs, foldl_fst_jobs, implies_true, apply_ite State.jobs,
    ite_self]

theorem State.inputDone_jobs (n : Nat) (s : State) : (State.inputDone n s).jobs = s.jobs := by
  simp only [State.inputDone, State.schedule_jobs, State.setTState_jobs]

theorem State.outputDone_jobs (n : Nat) (s : State) : (State.outputDone n s).jobs = s.jobs := by
  simp only [State.outputDone, State.modTask_jobs, State.setTState_jobs, State.set_jobs]

theorem State.storeSet_jobs (s : State) (p : ProgSet) (half : Nat → Nat) (area : Nat) :
    (s.storeSet p half area).jobs = s.jobs := by
  simp only [State.storeSet, State.storeBytes_jobs, foldl_jobs, implies_true]

theorem State.stageSet_jobs (s : State) (p : ProgSet) : (s.stageSet p).jobs = s.jobs := by
  simp only [State.stageSet, State.storeSet_jobs]

theorem State.loadTask_jobs (s : State) (n : Nat) (d : TaskDef) : (s.loadTask n d).jobs = s.jobs := by
  simp only [State.loadTask, State.modTask_jobs, State.setTState_jobs, State.setWord_jobs, apply_ite State.jobs, ite_self]

theorem State.loadSet_jobs (s : State) (p : ProgSet) : (s.loadSet p).jobs = s.jobs := by
  simp only [State.loadSet, State.loadTask_jobs, State.modBe_jobs, State.setWord_jobs, State.showBeDoze_jobs,
    State.storeSet_jobs, foldl_jobs, implies_true]

theorem State.copyMem_jobs (s : State) (src dst n : Nat) : (s.copyMem src dst n).jobs = s.jobs := by
  simp only [State.copyMem, State.storeBytes_jobs]

theorem State.carryData_jobs (s : State) (p : ProgSet) : (s.carryData p).jobs = s.jobs := by
  simp only [State.carryData, State.copyMem_jobs, State.storeBytes_jobs, foldl_jobs, implies_true, apply_ite State.jobs, ite_self]

theorem State.rebindForces_jobs (s : State) : s.rebindForces.jobs = s.jobs := by
  refine foldl_jobs (fun t f => ?_) _ s
  split <;> simp only [State.applyForce_jobs, State.bump_jobs, State.forceDrop_jobs, State.modBe_jobs, State.record_jobs,
    State.showForce_jobs]

theorem State.switchStart_jobs (s : State) (accept : Nat) : (s.switchStart accept).jobs = s.jobs := by
  simp only [State.switchStart, State.modBe_jobs, State.set_jobs]

/-! Machine/Nvm: the non-volatile memory. -/

theorem State.otpLoad_jobs (s : State) (vpp : Bool) : (s.otpLoad vpp).jobs = s.jobs := by
  simp -implicitDefEqProofs only [State.otpLoad, State.setFlag_jobs, State.setWord_jobs, State.set_jobs, foldl_jobs,
    implies_true, apply_ite State.jobs, ite_self]

/-! Machine/Boot: boot and images. -/

theorem State.setOn_jobs (s : State) (d : Nat) : (s.setOn d).jobs = s.jobs := by
  simp only [State.setOn, State.modPwr_jobs, State.set_jobs, apply_ite State.jobs, ite_self]

theorem State.dramReady_jobs (s : State) : s.dramReady.jobs = s.jobs := by
  simp -implicitDefEqProofs only [State.dramReady]
  split <;> simp -implicitDefEqProofs only [State.advanceTo_jobs, State.setOn_jobs]

theorem State.gnKeep_jobs (s : State) (a : Nat) (v : Word) : (s.gnKeep a v).jobs = s.jobs := by
  simp only [State.gnKeep, State.modGn_jobs]

theorem State.reloadApp1_jobs (s : State) : s.reloadApp1.jobs = s.jobs := by
  simp only [State.reloadApp1, State.storeBytes_jobs, foldl_jobs, implies_true]

theorem State.restoring_jobs (s : State) (n : Nat) : (s.restoring n).jobs = s.jobs := by
  simp only [State.restoring, State.modPwr_jobs]

/-! Machine/Library: the library functions. -/

theorem State.sysBlock_jobs (s : State) (e : Fin 8) (a : BitVec 5) (count : Nat) (f : Stamp → Vars → List (Nat × Word64)) :
    (s.sysBlock e a count f).jobs = s.jobs := by
  refine State.issue_jobs (fun t n k u c h => ?_) s e
  split at h
  · cases h
  · split_ifs at h
    cases h
    exact foldl_jobs (fun v w => State.beStore_jobs ..) _ t

theorem State.sysFun_jobs (s : State) (e : Fin 8) (a : BitVec 5) (f : Ctx → FRes) : (s.sysFun e a f).jobs = s.jobs := by
  refine State.issue_jobs (fun t n k u c h => ?_) s e
  split at h
  · cases h
  · cases h; rfl

theorem State.sys1_jobs (s : State) (e : Fin 8) (a : BitVec 5) (dom : Word64 → Bool) (f : Word64 → Word64) :
    (s.sys1 e a dom f).jobs = s.jobs := by
  simp only [State.sys1, State.sysFun_jobs]

theorem State.sys2_jobs (s : State) (e : Fin 8) (a : BitVec 5) (dom : Word64 → Word64 → Bool) (f : Word64 → Word64 → Word64) :
    (s.sys2 e a dom f).jobs = s.jobs := by
  simp only [State.sys2, State.sysFun_jobs]

/-! Machine/Port: the commands of the port. -/

theorem cpStatus_jobs (s : State) (st : CpSt) : (cpStatus s st).1.jobs = s.jobs := by simp only [cpStatus]

theorem State.cpKey_jobs {s : State} {f : State × CpAns} (h : f.1.jobs = s.jobs) (key : Nat) :
    (s.cpKey key f).1.jobs = s.jobs := by
  unfold State.cpKey
  split_ifs
  · exact h
  · simp only [State.bump_jobs, cpStatus_jobs]

theorem State.opIdentify_jobs (s : State) : s.opIdentify.1.jobs = s.jobs := by simp only [State.opIdentify]

theorem State.opStatus_jobs (s : State) : s.opStatus.1.jobs = s.jobs := by simp only [State.opStatus]

theorem State.cpUnmapped_jobs (s : State) (a n : Nat) : (s.cpUnmapped a n).jobs = s.jobs := by
  simp only [State.cpUnmapped, State.busErr_jobs, apply_ite State.jobs, ite_self]

theorem State.cpReadWords_jobs : ∀ (n : Nat) (s : State) (a : Nat), (s.cpReadWords a n).1.jobs = s.jobs
  | 0, _, _ => rfl
  | n + 1, s, a => by simp only [State.cpReadWords, cpReadWords_jobs n, State.busRead_jobs]

theorem State.opRd_jobs (s : State) (p : List Byte) : (s.opRd p).1.jobs = s.jobs := by
  simp -implicitDefEqProofs only [State.opRd, State.busErr_jobs, State.cpReadWords_jobs, State.cpUnmapped_jobs, cpStatus_jobs,
    apply_ite State.jobs, ite_self, apply_ite Prod.fst]

theorem State.opImgBegin_jobs (s : State) (p : List Byte) : (s.opImgBegin p).1.jobs = s.jobs := by
  simp only [State.opImgBegin, State.modNvm_jobs, cpStatus_jobs, apply_ite State.jobs, ite_self, apply_ite Prod.fst]

theorem State.opImgData_jobs (s : State) (p : List Byte) : (s.opImgData p).1.jobs = s.jobs := by
  simp -implicitDefEqProofs only [State.opImgData]
  split <;> simp -implicitDefEqProofs only [State.modNvm_jobs, cpStatus_jobs, apply_ite State.jobs, ite_self, apply_ite Prod.fst]

theorem State.opImgCommit_jobs (s : State) : s.opImgCommit.1.jobs = s.jobs := by
  simp only [State.opImgCommit, cpStatus_jobs, apply_ite State.jobs, ite_self, apply_ite Prod.fst]

theorem State.actRefused_jobs (s : State) (st : CpSt) : (s.actRefused st).1.jobs = s.jobs := by
  simp only [State.actRefused, State.set_jobs, cpStatus_jobs, apply_ite State.jobs, ite_self]

theorem State.opImgActivate_jobs (s : State) : s.opImgActivate.1.jobs = s.jobs := by
  simp -implicitDefEqProofs only [State.opImgActivate, cpStatus_jobs, apply_ite State.jobs, apply_ite Prod.fst]
  repeat' split
  · rfl
  · simp -implicitDefEqProofs only [State.actRefused_jobs]
  · simp -implicitDefEqProofs only [State.actRefused_jobs]
  · simp -implicitDefEqProofs only [State.actRefused_jobs]
  · simp -implicitDefEqProofs only [State.actRefused_jobs]
  · rfl
  · simp -implicitDefEqProofs only [State.actRefused_jobs]
  · simp -implicitDefEqProofs only [State.actRefused_jobs]
  · simp -implicitDefEqProofs only [State.actRefused_jobs]
  · rfl

theorem State.opImgFlash_jobs (s : State) (p : List Byte) : (s.opImgFlash p).1.jobs = s.jobs := by
  simp -implicitDefEqProofs only [State.opImgFlash]
  split <;> simp -implicitDefEqProofs only [cpStatus_jobs, apply_ite State.jobs, ite_self, apply_ite Prod.fst]

theorem State.opImgStatus_jobs (s : State) : s.opImgStatus.1.jobs = s.jobs := by simp only [State.opImgStatus]

theorem State.opOtpRead_jobs (s : State) (p : List Byte) : (s.opOtpRead p).1.jobs = s.jobs := by
  simp only [State.opOtpRead, cpStatus_jobs, apply_ite State.jobs, ite_self, apply_ite Prod.fst]

theorem State.opOtpStage_jobs (s : State) (p : List Byte) : (s.opOtpStage p).1.jobs = s.jobs := by
  simp only [State.opOtpStage, State.modNvm_jobs, cpStatus_jobs, apply_ite State.jobs, ite_self, apply_ite Prod.fst]

theorem State.opOtpBurn_jobs (s : State) (p : List Byte) : (s.opOtpBurn p).1.jobs = s.jobs := by
  simp only [State.opOtpBurn, State.cpKey_jobs, cpStatus_jobs, apply_ite State.jobs, ite_self, apply_ite Prod.fst]

theorem State.opOtpRevoke_jobs (s : State) (p : List Byte) : (s.opOtpRevoke p).1.jobs = s.jobs := by
  simp only [State.opOtpRevoke, State.cpKey_jobs, cpStatus_jobs, apply_ite State.jobs, ite_self, apply_ite Prod.fst]

theorem State.cpSkWrite_jobs (s : State) (v : Word) : (s.cpSkWrite v).1.jobs = s.jobs := by
  simp only [State.cpSkWrite, State.modCp_jobs, skCmdWrite_jobs, apply_ite State.jobs, ite_self, apply_ite Prod.fst]

theorem State.opSkMode_jobs (s : State) (p : List Byte) : (s.opSkMode p).1.jobs = s.jobs := by
  simp only [State.opSkMode, State.cpSkWrite_jobs, cpStatus_jobs, apply_ite State.jobs, ite_self, apply_ite Prod.fst]

theorem State.opSkStakeHere_jobs (s : State) : s.opSkStakeHere.1.jobs = s.jobs := by
  simp only [State.opSkStakeHere, State.cpSkWrite_jobs, apply_ite State.jobs, ite_self, apply_ite Prod.fst]

theorem State.opSkHalt_jobs (s : State) : s.opSkHalt.1.jobs = s.jobs := by
  simp only [State.opSkHalt, State.cpSkWrite_jobs, apply_ite State.jobs, ite_self, apply_ite Prod.fst]

theorem State.writeProposal_jobs (s : State) : s.writeProposal.jobs = s.jobs := by
  simp -implicitDefEqProofs only [State.writeProposal, State.modStream_jobs, State.setShWord_jobs, foldl_jobs, implies_true,
    apply_ite State.jobs, ite_self]

theorem State.opSurveyCommit_jobs (s : State) : s.opSurveyCommit.1.jobs = s.jobs := by
  simp only [State.opSurveyCommit, State.set_jobs, State.writeProposal_jobs, cpStatus_jobs, apply_ite State.jobs, ite_self,
    apply_ite Prod.fst]

theorem State.opSurveyDiscard_jobs (s : State) : s.opSurveyDiscard.1.jobs = s.jobs := by
  simp only [State.opSurveyDiscard, State.set_jobs, cpStatus_jobs, apply_ite State.jobs, ite_self, apply_ite Prod.fst]

theorem State.opSurveyStatus_jobs (s : State) : s.opSurveyStatus.1.jobs = s.jobs := by simp only [State.opSurveyStatus]

theorem State.opSelftest_jobs (s : State) (p : List Byte) : (s.opSelftest p).1.jobs = s.jobs := by
  simp only [State.opSelftest, cpStatus_jobs, apply_ite State.jobs, ite_self, apply_ite Prod.fst]

theorem State.opSelftestLast_jobs (s : State) : s.opSelftestLast.1.jobs = s.jobs := by simp only [State.opSelftestLast]

theorem State.opTimeGet_jobs (s : State) : s.opTimeGet.1.jobs = s.jobs := by simp only [State.opTimeGet, State.busRead_jobs]

theorem State.opPairStatus_jobs (s : State) : s.opPairStatus.1.jobs = s.jobs := by simp only [State.opPairStatus]

theorem State.cpRecords_jobs : ∀ (n : Nat) (s : State) (left : Nat), (s.cpRecords left n).1.jobs = s.jobs
  | 0, _, _ => rfl
  | n + 1, s, left => by
    unfold State.cpRecords
    split
    · rfl
    · simp only [cpRecords_jobs n, State.recNext_jobs, apply_ite Prod.fst, apply_ite State.jobs, ite_self]

theorem State.opRecRead_jobs (s : State) : s.opRecRead.1.jobs = s.jobs := by
  simp -implicitDefEqProofs only [State.opRecRead, State.cpRecords_jobs, State.refreshWindow_jobs]

theorem State.opForceList_jobs (s : State) (p : List Byte) : (s.opForceList p).1.jobs = s.jobs := by
  simp only [State.opForceList, cpStatus_jobs, apply_ite State.jobs, ite_self, apply_ite Prod.fst]

theorem State.fwDoze_jobs (s : State) (x : Nat) : (s.fwDoze x).jobs = s.jobs := by
  simp only [State.fwDoze, State.setDoze_jobs, apply_ite State.jobs, ite_self]

theorem State.cpPart_jobs (s : State) (t : Nat) (b : List Byte) : (s.cpPart t b).jobs = s.jobs := by
  simp only [State.cpPart, State.modCp_jobs]

end Sys2Proof.Machine
end

section
/-!
PROOFS of the family 07_solver_array, the numbers of the jobs (O7): the order of the jobs as a predicate of the
fabric alone, the ways in which the model changes the list of jobs, and one lemma for each function that reaches one of them.
-/
namespace Sys2Proof.Machine

/-- The jobs stand in the order of their numbers, each below the next number to give. -/
def Jobs.Numbered (q : Jobs) : Prop :=
  (q.jobs.map (·.ident)).Pairwise (· < ·) ∧ ∀ j ∈ q.jobs, j.ident < q.nextId

/-- The premise of O7 is a property of the fabric. -/
theorem State.jobsNumbered_iff (s : State) : s.JobsNumbered ↔ s.jobs.Numbered := Iff.rfl

/-- It speaks of the jobs' numbers alone, and some of them in their order are numbered too. -/
theorem Jobs.Numbered.of_sublist {q r : Jobs} (h : q.Numbered) (hn : r.nextId = q.nextId)
    (hs : (r.jobs.map (·.ident)).Sublist (q.jobs.map (·.ident))) : r.Numbered := by
  obtain ⟨hord, hlt⟩ := h
  refine ⟨hord.sublist hs, fun j hj => ?_⟩
  obtain ⟨k, hk, hkj⟩ := List.mem_map.mp (hs.subset (List.mem_map_of_mem hj))
  rw [hn, ← hkj]
  exact hlt k hk

/-- The job of the next number comes last. -/
theorem Jobs.Numbered.append {q r : Jobs} (h : q.Numbered) {j : Job} (hj : j.ident = q.nextId) (hl : r.jobs = q.jobs ++ [j])
    (hn : r.nextId = q.nextId + 1) : r.Numbered := by
  obtain ⟨hord, hlt⟩ := h
  constructor
  · simp only [hl, List.map_append, List.map_cons, List.map_nil, List.pairwise_append, List.mem_map, List.mem_singleton]
    exact ⟨hord, List.pairwise_singleton _ _, by rintro _ ⟨k, hk, rfl⟩ _ rfl; exact hj ▸ hlt k hk⟩
  · intro k hk
    rw [hl, List.mem_append, List.mem_singleton] at hk
    rcases hk with hk | rfl
    · exact hn ▸ Nat.lt_succ_of_lt (hlt k hk)
    · omega

theorem Jobs.Numbered.of_idents {q r : Jobs} (h : q.Numbered) (hn : r.nextId = q.nextId)
    (hi : r.jobs.map (·.ident) = q.jobs.map (·.ident)) : r.Numbered := h.of_sublist hn (hi ▸ List.Sublist.refl _)

theorem Jobs.init_numbered : Jobs.init.Numbered := ⟨List.Pairwise.nil, fun _ hj => nomatch hj⟩

theorem Jobs.Numbered.moved {q : Jobs} (h : q.Numbered) (d : Int) : (q.moved d).Numbered := by
  refine h.of_idents rfl ?_
  simp only [Jobs.moved, List.map_map]
  rfl

theorem State.putJob_numbered {s : State} (h : s.jobs.Numbered) (j : Job) : (s.putJob j).jobs.Numbered := by
  refine h.of_idents rfl ?_
  simp only [State.putJob, State.modJobs, List.map_map]
  refine List.map_congr_left fun k _ => ?_
  by_cases hk : k.ident = j.ident <;> simp [hk]

theorem foldl_numbered {β : Type} {f : State → β → State} (hf : ∀ t b, t.jobs.Numbered → (f t b).jobs.Numbered) :
    ∀ (l : List β) {s : State}, s.jobs.Numbered → (l.foldl f s).jobs.Numbered
  | [], _, h => h
  | b :: l, s, h => foldl_numbered hf l (hf s b h)

theorem foldl_fst_numbered {α β : Type} {f : State × α → β → State × α}
    (hf : ∀ t b, t.1.jobs.Numbered → (f t b).1.jobs.Numbered) :
    ∀ (l : List β) {s : State × α}, s.1.jobs.Numbered → (l.foldl f s).1.jobs.Numbered
  | [], _, h => h
  | b :: l, s, h => foldl_fst_numbered hf l (hf s b h)

theorem ite_numbered {p : Prop} [Decidable p] {s t : State} (hs : s.jobs.Numbered) (ht : t.jobs.Numbered) :
    (if p then s else t).jobs.Numbered := by
  split
  · exact hs
  · exact ht

theorem State.writeGuard_numbered {f : State → State × CpSt} (hf : ∀ t : State, t.jobs.Numbered → (f t).1.jobs.Numbered)
    {s : State}
    (h : s.jobs.Numbered) (d : Dom) (a : Nat) : (s.writeGuard d a f).1.jobs.Numbered := by
  unfold State.writeGuard
  split
  · exact h
  · split_ifs
    · simpa only [State.offAccess_jobs] using h
    · exact hf s h
    · simpa only [State.offAccess_jobs] using h

theorem State.keyGuard_numbered {f : State → State × CpSt} (hf : ∀ t : State, t.jobs.Numbered → (f t).1.jobs.Numbered) {s : State}
    (h : s.jobs.Numbered) (v : Word) : (s.keyGuard v f).1.jobs.Numbered := by
  unfold State.keyGuard
  split_ifs
  · exact hf s h
  · simpa only [State.bump_jobs] using h

theorem State.admitWaiting_numbered : ∀ (n c : Nat) {s : State}, s.jobs.Numbered → (s.admitWaiting c n).jobs.Numbered
  | 0, _, _, h => h
  | n + 1, c, s, h => by
    unfold State.admitWaiting
    split
    · exact h
    · split_ifs
      · refine admitWaiting_numbered n c ?_
        rw [State.pmu_jobs]
        exact putJob_numbered h _
      · exact h

theorem State.putRecord_numbered {s : State} (h : s.jobs.Numbered) (proc unit addr : Nat) (b : List Byte) :
    (s.putRecord proc unit addr b).jobs.Numbered := by
  unfold State.putRecord
  split_ifs
  · exact h
  · rwa [State.storeBytes_jobs]

/-- A register's write, where it has one of its own, leaves a state whose jobs are numbered. -/
def WriteNumbered (o : Option (State × CpSt)) : Prop := ∀ w, o = some w → w.1.jobs.Numbered

theorem writeNumbered_some (w : State × CpSt) : WriteNumbered (some w) ↔ w.1.jobs.Numbered :=
  ⟨fun h => h w rfl, fun h _ hw => Option.some.inj hw ▸ h⟩

theorem writeNumbered_none : WriteNumbered none := fun _ hw => nomatch hw

/-- Some of the jobs leave. -/
theorem State.filterJobs_numbered {s : State} (h : s.jobs.Numbered) (p : Job → Bool) (idle : Jobs → List Nat) :
    (s.modJobs fun q => { q with jobs := q.jobs.filter p, idleAt := idle q }).jobs.Numbered :=
  h.of_sublist rfl (List.filter_sublist.map _)

/-- A job of the next number comes. -/
theorem State.addJob_numbered {s : State} (h : s.jobs.Numbered) {j : Job} (hj : j.ident = s.jobs.nextId) :
    (s.modJobs fun q => { q with jobs := q.jobs ++ [j], nextId := q.nextId + 1 }).jobs.Numbered :=
  h.append hj rfl rfl

/-! Machine/Time: time and its references. -/

theorem State.moveSince_numbered {s : State} (h : s.jobs.Numbered) (d : Int) : (s.moveSince d).jobs.Numbered :=
  Jobs.Numbered.moved h d

theorem State.stepCount_numbered {s : State} (h : s.jobs.Numbered) (d : Int) : (s.stepCount d).jobs.Numbered := by
  simp only [State.stepCount, State.bump_jobs, State.modTime_jobs, State.setFlag_jobs, State.moveSince_numbered, h]

theorem State.firstOfs_numbered {s : State} (h : s.jobs.Numbered) (r : Nat) (ofs : Int) : (s.firstOfs r ofs).jobs.Numbered := by
  simp only [State.firstOfs, State.lockTo_jobs, State.modRef_jobs, State.record_jobs, State.stepCount_numbered, h]

theorem State.refOffset_numbered {s : State} (h : s.jobs.Numbered) (r : Nat) (ofs : Int) (sigma : Nat) :
    (s.refOffset r ofs sigma).jobs.Numbered := by
  simp only [State.refOffset, State.lockTo_jobs, State.measure_jobs, State.modRef_jobs, State.refuseOfs_jobs, State.showOfs_jobs,
    State.slewBy_jobs, State.startSlew_jobs, State.takeOfs_jobs, State.toHoldover_jobs, apply_ite State.jobs, ite_self]
  split
  · exact State.firstOfs_numbered (by rwa [State.modRef_jobs]) _ _
  · exact h

theorem State.gnSolution_numbered {s : State} (h : s.jobs.Numbered) (ofs : Int) (sigma : Nat) :
    (s.gnSolution ofs sigma).jobs.Numbered := by
  simp only [State.gnSolution, State.gnSlewDone_jobs, State.setFlag_jobs, State.setGnTq_jobs, State.setWord_jobs,
    State.seti_jobs, State.refOffset_numbered, apply_ite State.jobs, ite_self, h]

theorem timeStepWrite_numbered {s : State} (h : s.jobs.Numbered) (d : Dom) (v : Word) :
    (timeStepWrite s d v).1.jobs.Numbered := by
  refine State.writeGuard_numbered (fun t ht => State.keyGuard_numbered (fun u hu => ?_) ht v) h d R.TIME_STEP
  simp -implicitDefEqProofs only [State.modTime_jobs, State.setFlag_jobs, State.stepDone_jobs, State.stepRefused_jobs,
    State.stepCount_numbered, apply_ite State.jobs, apply_ite Jobs.Numbered, ite_self, apply_ite Prod.fst, hu]

theorem State.ptpOffset_numbered {s : State} (h : s.jobs.Numbered) (p : Nat) (origin : Int) (rx : Nat) :
    (s.ptpOffset p origin rx).jobs.Numbered := by
  unfold State.ptpOffset
  extract_lets x s₁ ofs offs s₂
  have h₁ : s₁.jobs.Numbered := by rwa [State.modPort_jobs]
  split
  · exact State.refOffset_numbered (by rwa [State.modPort_jobs]) _ _ _
  · exact h₁

/-! Machine/Power: domains and resets. -/

theorem State.unitsOff_numbered {s : State} (h : s.jobs.Numbered) (d : Nat) : (s.unitsOff d).jobs.Numbered := by
  unfold State.unitsOff
  split
  case h_4 => exact Jobs.init_numbered
  all_goals exact h

theorem State.domainOff_numbered {s : State} (h : s.jobs.Numbered) (d : Nat) : (s.domainOff d).jobs.Numbered := by
  simp only [State.domainOff, State.gpioReleased_jobs, State.ppsReleased_jobs, State.set_jobs, State.setGnTq_jobs,
    State.shadowHeld_jobs, State.timeKept_jobs, apply_ite State.jobs, ite_self]
  refine State.unitsOff_numbered ?_ d
  simpa only [State.gpioReleased_jobs, State.modPwr_jobs, State.ppsReleased_jobs, State.set_jobs, State.setGnTq_jobs,
    State.shadowHeld_jobs, State.timeKept_jobs, apply_ite State.jobs, ite_self, apply_ite Prod.fst] using h

theorem State.switchOff_numbered {s : State} (h : s.jobs.Numbered) (d : Nat) : (s.switchOff d).jobs.Numbered := by
  simp only [State.switchOff, State.set_jobs, State.domainOff_numbered, apply_ite State.jobs, ite_self, h]

theorem domReqWrite_numbered {s : State} (h : s.jobs.Numbered) (w : Dom) (v : Word) : (domReqWrite s w v).1.jobs.Numbered := by
  refine State.writeGuard_numbered (fun t ht => ?_) h w R.PWR_DOM_REQ
  dsimp only
  split_ifs
  · rwa [State.pwrRefused_jobs]
  · refine foldl_numbered (fun u d hu => ?_) _ ht
    split_ifs
    · rwa [State.switchOn_jobs]
    · exact State.switchOff_numbered hu d

theorem State.deviceReset_numbered (s : State) (k : ResetKind) : (s.deviceReset k).jobs.Numbered := by
  simp only [State.deviceReset, State.emit_jobs, State.gpioReleased_jobs, State.ppsReleased_jobs, State.record_jobs,
    State.set_jobs, State.setFlag_jobs, State.shadowHeld_jobs, foldl_jobs, implies_true, apply_ite State.jobs, ite_self]
  exact Jobs.init_numbered

theorem kickWrite_numbered {s : State} (h : s.jobs.Numbered) (d : Dom) (v : Word) : (kickWrite s d v).1.jobs.Numbered := by
  refine State.writeGuard_numbered (fun t ht => ?_) h d R.RST_KICK
  simp only [apply_ite Prod.fst, apply_ite State.jobs, apply_ite Jobs.Numbered, State.deviceReset_numbered, State.kickWdog_jobs,
    ht, ite_self]

theorem softWrite_numbered {s : State} (h : s.jobs.Numbered) (d : Dom) (v : Word) : (softWrite s d v).1.jobs.Numbered := by
  refine State.writeGuard_numbered (fun t ht => State.keyGuard_numbered (fun u hu => ?_) ht v) h d R.RST_SOFT
  simp only [apply_ite Prod.fst, apply_ite State.jobs, apply_ite Jobs.Numbered, State.deviceReset_numbered, hu, ite_self]

theorem pwrCtrlWrite_numbered {s : State} (h : s.jobs.Numbered) (d : Dom) (v : Word) : (pwrCtrlWrite s d v).1.jobs.Numbered := by
  refine State.writeGuard_numbered (fun t ht => State.keyGuard_numbered (fun u hu => ?_) ht v) h d R.PWR_CTRL
  dsimp only
  split_ifs
  · exact hu
  · rwa [State.pwrRefused_jobs]
  · exact foldl_numbered (fun w e hw => State.domainOff_numbered hw e) _ hu

/-! Machine/Jobs: the solver fabric. -/

theorem State.answer_numbered {s : State} (h : s.jobs.Numbered) (j : Job) (status reason : Nat) :
    (s.answer j status reason).jobs.Numbered := by
  simp only [State.answer, State.countStatus_jobs, State.jobIrq_jobs, State.setWord_jobs, State.putRecord_numbered,
    apply_ite State.jobs, ite_self, h]

theorem State.endJob_numbered {s : State} (h : s.jobs.Numbered) (j : Job) (status reason : Nat) :
    (s.endJob j status reason).jobs.Numbered := by
  simp only [State.endJob, State.jobIrq_jobs, State.showJobs_jobs, apply_ite State.jobs, ite_self]
  refine State.admitWaiting_numbered 64 _ (State.filterJobs_numbered ?_ _ _)
  simp only [State.countStatus_jobs, State.pmu_jobs, State.set_jobs, State.writeOut_jobs, State.putRecord_numbered,
    apply_ite State.jobs, ite_self, h]

theorem State.takeJob_numbered {s : State} (h : s.jobs.Numbered) (j : Job) : (s.takeJob j).jobs.Numbered := by
  simp only [State.takeJob, State.pmu_jobs, State.setWord_jobs, State.showJobs_jobs, apply_ite State.jobs, ite_self,
    apply_ite Jobs.Numbered]
  split_ifs
  · exact State.answer_numbered (by rwa [State.pmu_jobs, State.bump_jobs]) _ _ _
  · exact State.answer_numbered (by rwa [State.pmu_jobs, State.bump_jobs]) _ _ _
  · exact State.addJob_numbered h rfl
  · exact State.addJob_numbered h rfl

theorem State.submitInternal_numbered {s : State} (h : s.jobs.Numbered) (j : Job) : (s.submitInternal j).jobs.Numbered :=
  ite_numbered h (State.takeJob_numbered h j)

theorem State.submitAt_numbered {s : State} (h : s.jobs.Numbered) (x a : Nat) : (s.submitAt x a).jobs.Numbered := by
  simp only [State.submitAt, State.set_jobs, State.setWord_jobs, State.answer_numbered, State.takeJob_numbered,
    apply_ite State.jobs, apply_ite Jobs.Numbered, ite_self, h]

theorem subWrite_numbered {s : State} (h : s.jobs.Numbered) (d : Dom) (x : Nat) (v : Word) :
    (subWrite s d x v).1.jobs.Numbered := by
  unfold subWrite
  split
  · rwa [State.offAccess_jobs]
  · refine State.writeGuard_numbered (fun t ht => ?_) h d (R.JF_SUBL x)
    dsimp only
    split_ifs
    · exact ht
    · exact ht
    · exact State.submitAt_numbered ht _ _

theorem jfCfgWrite_numbered {s : State} (h : s.jobs.Numbered) (d : Dom) (v : Word) : (jfCfgWrite s d v).1.jobs.Numbered := by
  simp only [jfCfgWrite, State.plainWrite_jobs, State.showJobs_jobs, State.admitWaiting_numbered, apply_ite State.jobs,
    apply_ite Jobs.Numbered, ite_self, apply_ite Prod.fst, h]

theorem State.startJob_numbered {s : State} (h : s.jobs.Numbered) (j : Job) (lanes : List Nat) :
    (s.startJob j lanes).jobs.Numbered := by
  simp only [State.startJob, State.showJobs_jobs, State.putJob_numbered, h]

theorem State.suspend_numbered {s : State} (h : s.jobs.Numbered) (j : Job) : (s.suspend j).jobs.Numbered := by
  simp only [State.suspend, State.bump_jobs, State.showJobs_jobs]
  exact State.putJob_numbered h _

theorem State.abortJob_numbered {s : State} (h : s.jobs.Numbered) (j : Job) (reason : Nat) :
    (s.abortJob j reason).1.jobs.Numbered := by
  simp only [State.abortJob]
  split <;> simp only [State.endJob_numbered, State.putJob_numbered, apply_ite State.jobs, apply_ite Jobs.Numbered, ite_self,
    apply_ite Prod.fst, h]

theorem State.stopJob_numbered {s : State} (h : s.jobs.Numbered) (j : Job) : (s.stopJob j).jobs.Numbered := by
  simp only [State.stopJob, State.stopUnit_jobs, State.endJob_numbered, h]

theorem State.stopInternal_numbered {s : State} (h : s.jobs.Numbered) : s.stopInternal.jobs.Numbered := by
  refine foldl_numbered (fun t j ht => ?_) _ (foldl_numbered (fun t x ht => ?_) _ ?_)
  · split_ifs
    · exact State.putJob_numbered ht _
    · exact State.stopJob_numbered ht j
  · split
    · exact ht
    · simpa only [State.stopUnit_jobs] using State.answer_numbered ht _ 5 3
  · exact h

/-! Machine/Estimator: the estimator. -/

theorem State.submitKf_numbered {s : State} (hs : s.jobs.Numbered) (gate : Word) (h : Mat) (nu : List Word64) (r : Mat) :
    (s.submitKf gate h nu r).jobs.Numbered := State.submitInternal_numbered hs _

theorem State.runUpds_numbered : ∀ (l : List Upd) {s : State}, s.jobs.Numbered → (s.runUpds l).jobs.Numbered
  | [], _, hs => hs
  | u :: rest, s, hs => by
    unfold State.runUpds
    split_ifs
    · exact runUpds_numbered rest hs
    · refine runUpds_numbered rest ?_
      rwa [State.setWeight_jobs]
    · exact State.submitKf_numbered (s := s.modEst _) hs _ _ _ _

theorem State.estStart_numbered {s : State} (h : s.jobs.Numbered) : s.estStart.jobs.Numbered := by
  simp only [State.estStart, State.modEst_jobs, State.voteFail_jobs, State.votes_jobs, State.submitKf_numbered, foldl_jobs,
    implies_true, apply_ite State.jobs, apply_ite Jobs.Numbered, ite_self, h]

theorem State.kfDone_numbered {s : State} (h : s.jobs.Numbered) (out : Option (KfOut × Bool)) : (s.kfDone out).jobs.Numbered := by
  unfold State.kfDone
  split
  · exact h
  · split
    · exact h
    · split
      · refine State.runUpds_numbered _ ?_
        rwa [State.posReset_jobs, State.timeUpdate_jobs]
      · split
        · exact h
        · refine State.runUpds_numbered _ ?_
          rwa [State.applyUpd_jobs]

theorem State.egoSolve_numbered {s : State} (h : s.jobs.Numbered) : s.egoSolve.jobs.Numbered := by
  unfold State.egoSolve
  extract_lets ps fx t0 spread rot s₁ s₂ job
  have h₁ : s₁.jobs.Numbered := by rwa [State.modEst_jobs]
  have h₂ : s₂.jobs.Numbered := by rwa [State.set_jobs]
  split
  · exact h₁
  · split
    · exact State.submitInternal_numbered h₂ _
    · split
      · exact State.submitInternal_numbered (by rwa [State.modEst_jobs]) _
      · rwa [State.setFlag_jobs]

theorem State.survSubmit_numbered {s : State} (h : s.jobs.Numbered) : s.survSubmit.jobs.Numbered := by
  simp only [State.survSubmit, State.submitInternal_numbered, h]

theorem State.survRun_numbered {s : State} (h : s.jobs.Numbered) : s.survRun.jobs.Numbered :=
  State.survSubmit_numbered (by exact h)

/-! Machine/Pair: the pair. -/

theorem State.gnPower_numbered {s : State} (h : s.jobs.Numbered) (was : Bool) : (s.gnPower was).jobs.Numbered := by
  simp only [State.gnPower, State.modHa_jobs, State.switchOn_jobs, State.switchOff_numbered, apply_ite State.jobs,
    apply_ite Jobs.Numbered, ite_self, h]

theorem State.gnRefresh_numbered {s : State} (h : s.jobs.Numbered) : s.gnRefresh.jobs.Numbered := by
  unfold State.gnRefresh
  dsimp only
  split_ifs
  · exact h
  · rw [State.modHa_jobs]
    refine State.switchOff_numbered (State.switchOff_numbered ?_ 9) 10
    rwa [State.advanceTo_jobs]
  · exact h
  · rwa [State.switchOn_jobs, State.switchOn_jobs, State.modHa_jobs, State.advanceTo_jobs]

theorem State.haGo_numbered {s : State} (h : s.jobs.Numbered) (st : Nat) : (s.haGo st).jobs.Numbered := by
  unfold State.haGo
  extract_lets was s₁ s₂ s₃
  have h₁ : s₁.jobs.Numbered := State.gnPower_numbered (by rwa [State.set_jobs]) _
  have h₂ : s₂.jobs.Numbered := by simpa only [s₂, State.haEvt_jobs, apply_ite State.jobs, ite_self] using h₁
  have h₃ : s₃.jobs.Numbered := by
    simp only [s₃]
    split
    · split <;> simpa only [State.follow_jobs, apply_ite State.jobs, ite_self] using h₂
    · exact h₂
  rwa [State.switches_jobs, State.speGate_jobs]

theorem State.demote_numbered {s : State} (h : s.jobs.Numbered) (cause : Nat) : (s.demote cause).jobs.Numbered := by
  unfold State.demote
  split_ifs
  · exact h
  · rw [State.haEvt_jobs]
    refine State.haGo_numbered ?_ 4
    refine State.stopInternal_numbered (s := State.dropCmds _) ?_
    simpa only [State.bump_jobs, State.ckStop_jobs, State.dropCmds_jobs, State.haEvt_jobs, State.modEst_jobs, State.modHa_jobs,
      State.set_jobs, apply_ite State.jobs, ite_self] using h

theorem State.higherTerm_numbered {s : State} (h : s.jobs.Numbered) (t src : Nat) : (s.higherTerm t src).jobs.Numbered := by
  simp only [State.higherTerm, State.follow_jobs, State.demote_numbered, apply_ite State.jobs, apply_ite Jobs.Numbered, ite_self,
    h]

theorem State.heartbeat_numbered {s : State} (h : s.jobs.Numbered) (line : Nat) (b : BitVec 72) (until' : Nat) :
    (s.heartbeat line b until').jobs.Numbered := by
  unfold State.heartbeat
  extract_lets st t src now per s₁ s₂
  have h₂ : s₂.jobs.Numbered := by rwa [State.setFlag_jobs, State.set_jobs, State.modHa_jobs]
  split_ifs
  · rwa [State.follow_jobs]
  · exact h₂
  · exact State.higherTerm_numbered h₂ _ _
  · exact State.demote_numbered h₂ _
  · exact h₂
  · exact h₂

theorem State.lineShow_numbered {s : State} (h : s.jobs.Numbered) (i a n : Nat) (l : Line) :
    (s.lineShow i a n l).jobs.Numbered := by
  simp only [State.lineShow, State.bump_jobs, State.haEvt_jobs, State.setFlag_jobs, State.haGo_numbered, apply_ite State.jobs,
    apply_ite Jobs.Numbered, ite_self, h]

theorem State.seize_numbered {s : State} (h : s.jobs.Numbered) : s.seize.jobs.Numbered := by
  unfold State.seize
  rw [State.haEvt_jobs]
  refine State.haGo_numbered ?_ 1
  dsimp only
  split <;> simpa -implicitDefEqProofs only [State.adopt_jobs, State.bump_jobs, State.ckptLoad_jobs, State.estReset_jobs,
    State.haEvt_jobs, State.modHa_jobs, State.sendCmds_jobs, State.sendTwin_jobs, State.set_jobs, State.setFlag_jobs,
    State.setWord_jobs, apply_ite State.jobs, ite_self, apply_ite Prod.fst] using h

theorem State.bothSilent_numbered {s : State} (h : s.jobs.Numbered) : s.bothSilent.jobs.Numbered := by
  simp only [State.bothSilent]
  split <;> simp only [State.ckStop_jobs, State.seizeBlocked_jobs, State.haGo_numbered, State.seize_numbered,
    apply_ite State.jobs, apply_ite Jobs.Numbered, ite_self, h]

theorem State.periodEnd_numbered {s : State} (h : s.jobs.Numbered) : s.periodEnd.jobs.Numbered := by
  have hl : ∀ f : Ha → Ha, ∀ l k,
    ((((s.advanceTo (s.perStart + 4000)).modHa f).lineShow 0 s.perStart (s.advanceTo
    (s.perStart + 4000)).retN l).lineShow 1 s.perStart
      (s.advanceTo (s.perStart + 4000)).retN k).jobs.Numbered := fun f l k =>
    State.lineShow_numbered (State.lineShow_numbered (by rwa [State.modHa_jobs, State.advanceTo_jobs]) _ _ _ _) _ _ _ _
  unfold State.periodEnd
  dsimp only
  split_ifs
  · exact State.bothSilent_numbered (hl _ _ _)
  · exact hl _ _ _

theorem State.endSeizing_numbered {s : State} (h : s.jobs.Numbered) : s.endSeizing.jobs.Numbered := by
  simp only [State.endSeizing, State.modHa_jobs, State.haGo_numbered, apply_ite State.jobs, apply_ite Jobs.Numbered, ite_self, h]

theorem haCtrlWrite_numbered {s : State} (h : s.jobs.Numbered) (d : Dom) (v : Word) : (haCtrlWrite s d v).1.jobs.Numbered := by
  refine State.writeGuard_numbered (fun t ht => State.keyGuard_numbered (fun u hu => ?_) ht v) h d R.HA_CTRL
  simp -implicitDefEqProofs only [State.ckClear_jobs, State.cres_jobs, State.seizeBlocked_jobs, State.demote_numbered,
    State.haGo_numbered, State.seize_numbered, apply_ite State.jobs, apply_ite Jobs.Numbered, ite_self, apply_ite Prod.fst, hu]

theorem haCfgWrite_numbered {s : State} (h : s.jobs.Numbered) (d : Dom) (v : Word) : (haCfgWrite s d v).1.jobs.Numbered := by
  refine State.writeGuard_numbered (fun t ht => ?_) h d R.HA_CFG
  dsimp only
  split_ifs <;> simp only [State.ckClear_jobs, State.ckStop_jobs, State.linesFrom_jobs, State.plainWrite_jobs,
    State.gnPower_numbered, State.haGo_numbered, ht]

/-! Machine/Alloc: the allocator. -/

theorem State.submitQp_numbered {s : State} (h : s.jobs.Numbered) (pass : Nat) (q : Qp) : (s.submitQp pass q).jobs.Numbered :=
  State.submitInternal_numbered (by exact h) _

theorem State.startChain_numbered {s : State} (h : s.jobs.Numbered) (tau : List Word64) (dofs : List Nat) :
    (s.startChain tau dofs).jobs.Numbered := by
  simp only [State.startChain, State.latchSlots_jobs, State.modAlc_jobs, State.submitQp_numbered, h]

theorem State.qpDone_numbered {s : State} (h : s.jobs.Numbered) (status : Nat) (x : List Word64) (act : List (Nat × Word64)) :
    (s.qpDone status x act).jobs.Numbered := by
  unfold State.qpDone
  split
  · exact h
  · extract_lets a n s₁ s₂ s₃ s₄ s₅ done inTol t ds ids s₆
    have h₄ : s₄.jobs.Numbered := by
      simpa only [s₄, s₃, s₂, s₁, State.event_jobs, State.setFlag_jobs, State.bump_jobs, State.set_jobs, apply_ite State.jobs,
        ite_self] using h
    have hdone : (done s₄).jobs.Numbered := by simpa only [done, State.stage_jobs, State.set_jobs, State.setFlag_jobs] using h₄
    have h₆ : s₆.jobs.Numbered := by rwa [State.modAlc_jobs]
    split
    · rwa [State.stage_jobs, State.bump_jobs, State.set_jobs, State.setFlag_jobs]
    · split
      · split
        · exact hdone
        · split
          · exact State.submitQp_numbered h₄ _ _
          · exact hdone
      · split
        · exact hdone
        · split <;> exact State.submitQp_numbered h₆ _ _

theorem State.masterLaunch_numbered {s : State} (h : s.jobs.Numbered) : s.masterLaunch.jobs.Numbered := by
  simp only [State.masterLaunch, State.advanceTo_jobs, State.launchIdle_jobs, State.launchMiss_jobs, State.launchStaged_jobs,
    State.demote_numbered, apply_ite State.jobs, apply_ite Jobs.Numbered, ite_self, h]

theorem State.subAllocate_numbered {s : State} (h : s.jobs.Numbered) : s.subAllocate.jobs.Numbered := by
  unfold State.subAllocate
  dsimp only
  split_ifs
  · exact h
  · rwa [State.alcShadow_jobs]
  · refine State.startChain_numbered (foldl_numbered (fun t j ht => State.stopJob_numbered ht j) _ ?_) _ _
    rwa [State.alcShadow_jobs]

/-! Machine/Twin: the twin networks. -/

theorem State.takeForce_numbered {s : State} (h : s.jobs.Numbered) (z : ZFrame) (c : Cmd) : (s.takeForce z c).jobs.Numbered := by
  unfold State.takeForce
  dsimp only
  split_ifs
  · exact h
  · exact State.subAllocate_numbered (by exact h)

theorem State.cmdAccept_numbered {s : State} (h : s.jobs.Numbered) (z : ZFrame) (at' : Nat) :
    (s.cmdAccept z at').jobs.Numbered := by
  simp only [State.cmdAccept, State.answerTwin_jobs, State.relayTakeover_jobs, State.releaseTx_jobs, State.switches_jobs,
    apply_ite State.jobs, ite_self]
  refine foldl_numbered (fun t c ht => ?_) _ (by exact h)
  split_ifs <;> simp only [State.entryCheck_jobs, State.putEntry_jobs, State.takeForce_numbered, ht]

theorem State.deliver_numbered {s : State} (h : s.jobs.Numbered) (z : ZFrame) (at' : Nat) :
    (State.deliver s z at').jobs.Numbered := by
  simp only [State.deliver, State.capAccept_jobs, State.syncAccept_jobs, State.cmdAccept_numbered, State.higherTerm_numbered,
    apply_ite State.jobs, apply_ite Jobs.Numbered, ite_self, h]

theorem State.deliverCmp_numbered {s : State} (h : s.jobs.Numbered) (z : ZFrame) (at' : Nat) :
    (State.deliverCmp s z at').jobs.Numbered := by
  simp only [State.deliverCmp, State.answerTwin_jobs, State.bump_jobs, State.deliver_numbered, apply_ite State.jobs,
    apply_ite Jobs.Numbered, ite_self, h]

theorem State.expire_numbered {s : State} (h : s.jobs.Numbered) (p : TwinPend) : (s.expire p).jobs.Numbered := by
  simp only [State.expire, State.bump_jobs, State.closePend_jobs, State.modKz_jobs, State.twinEvt_jobs,
    State.deliverCmp_numbered, apply_ite State.jobs, apply_ite Jobs.Numbered, ite_self, h]

theorem State.expireOld_numbered : ∀ (n : Nat) {s : State}, s.jobs.Numbered → (s.expireOld n).jobs.Numbered
  | 0, _, h => h
  | n + 1, s, h => by
    unfold State.expireOld
    split
    · split_ifs
      · exact expireOld_numbered n (State.expire_numbered h _)
      · exact h
    · exact h

theorem State.mate_numbered {s : State} (h : s.jobs.Numbered) (p : TwinPend) (b : List Byte) : (s.mate p b).jobs.Numbered := by
  unfold State.mate
  split_ifs <;> simp only [State.bump_jobs, State.closePend_jobs, State.modKz_jobs, State.record_jobs, State.twinEvt_jobs,
    State.deliverCmp_numbered, apply_ite State.jobs, ite_self, h]

theorem State.openPend_numbered {s : State} (h : s.jobs.Numbered) (net : Nat) (z : ZFrame) (b : List Byte) :
    (s.openPend net z b).jobs.Numbered := by
  simp only [State.openPend, State.bump_jobs, State.gate_jobs, State.modNet_jobs, State.showPend_jobs, State.deliver_numbered,
    apply_ite State.jobs, apply_ite Jobs.Numbered, ite_self, apply_ite Prod.fst, h]

theorem State.twinCopy_numbered {s : State} (h : s.jobs.Numbered) (p : Nat) (b : List Byte) : (s.twinCopy p b).jobs.Numbered := by
  unfold State.twinCopy
  extract_lets u z net
  have hu : u.jobs.Numbered := State.expireOld_numbered 64 h
  refine ite_numbered (by rwa [State.bump_jobs]) <| ite_numbered hu <| ite_numbered (by rwa [State.bump_jobs]) <|
    ite_numbered (by rwa [State.twinEvt_jobs, State.bump_jobs]) <| ite_numbered hu <| ite_numbered (by rwa [State.bump_jobs]) ?_
  split
  · exact ite_numbered hu (State.mate_numbered hu _ _)
  · split
    · exact ite_numbered (by rwa [State.bump_jobs]) (State.openPend_numbered hu _ _ _)
    · exact State.openPend_numbered hu _ _ _

/-! Machine/Cycle: the cycle. -/

theorem State.cycleTick_numbered {s : State} (h : s.jobs.Numbered) : s.cycleTick.jobs.Numbered := by
  simp only [State.cycleTick, State.advanceTo_jobs, State.ckAbandon_jobs, State.cpSkExpire_jobs, State.modAlc_jobs,
    State.pmu_jobs, State.pmuSnap_jobs, State.publishEnvNow_jobs, State.sendCap_jobs, State.showCk_jobs, State.showTick_jobs,
    State.snap_jobs, State.endSeizing_numbered, apply_ite State.jobs, apply_ite Jobs.Numbered, ite_self, h]

theorem State.estCut_numbered {s : State} (h : s.jobs.Numbered) : s.estCut.jobs.Numbered := by
  unfold State.estCut
  dsimp only
  have hf : ((s.jobs.jobs.filter fun j => j.unit == 1).foldl (fun t j => t.endJob j 5 2) s).jobs.Numbered :=
    foldl_numbered (fun t j ht => State.endJob_numbered ht j 5 2) _ h
  split_ifs
  · exact h
  · exact hf
  · simpa only [State.bump_jobs, State.event_jobs, State.modEst_jobs, State.setFlag_jobs, foldl_jobs, foldl_fst_jobs,
      implies_true, apply_ite State.jobs, ite_self] using hf

theorem State.estimatePublish_numbered {s : State} (h : s.jobs.Numbered) : s.estimatePublish.jobs.Numbered := by
  simp only [State.estimatePublish, State.advanceTo_jobs, State.publish_jobs, State.speEval_jobs, State.estCut_numbered,
    apply_ite State.jobs, apply_ite Jobs.Numbered, ite_self, h]

theorem State.runStop_numbered {s : State} (h : s.jobs.Numbered) : s.runStop.jobs.Numbered := by
  have hs : (s.setFlag F.SYS_CYC_CTRL_RUN false).stopInternal.jobs.Numbered := State.stopInternal_numbered
    (by rwa [State.setFlag_jobs])
  simpa only [State.runStop, State.modAlc_jobs, State.modEst_jobs, State.modTrk_jobs, State.setFlag_jobs] using hs

theorem cycCtrlWrite_numbered {s : State} (h : s.jobs.Numbered) (d : Dom) (v : Word) : (cycCtrlWrite s d v).1.jobs.Numbered := by
  refine State.writeGuard_numbered (fun t ht => ?_) h d R.SYS_CYC_CTRL
  extract_lets t₁
  have h₁ : t₁.jobs.Numbered := by rwa [State.set_jobs]
  split
  · split
    · rwa [State.runStart_jobs, State.deviceWake_jobs]
    · exact h₁
  · split
    · exact State.runStop_numbered h₁
    · exact h₁

/-! Machine/Complete: what a finished job causes. -/

theorem State.survDone_numbered {s : State} (h : s.jobs.Numbered) (status : Nat) (x : List Word64) (reg : List Nat) :
    (s.survDone status x reg).jobs.Numbered := by
  simp only [State.survDone, State.cpFinish_jobs, State.set_jobs, State.setFlag_jobs, State.setWord_jobs, State.storeBytes_jobs,
    State.survSubmit_numbered, apply_ite State.jobs, apply_ite Jobs.Numbered, ite_self, h]

theorem State.batchDone_numbered {s : State} (h : s.jobs.Numbered) : s.batchDone.jobs.Numbered := by
  simp only [State.batchDone, State.projectBatch_jobs, State.egoSolve_numbered, State.submitInternal_numbered,
    apply_ite State.jobs, apply_ite Jobs.Numbered, ite_self, h]

theorem State.consume_numbered {s : State} (h : s.jobs.Numbered) (j : Job) (status reason : Nat) (kf : Option (KfOut × Bool)) :
    (s.consume j status reason kf).jobs.Numbered := by
  unfold State.consume
  extract_lets r
  split
  · rwa [State.stopUnit_jobs]
  · split
    · exact State.kfDone_numbered h kf
    · exact ite_numbered (State.egoSolve_numbered (by rwa [State.trackerPass_jobs])) h
    · rwa [State.assignDone_jobs]
    · rwa [State.egoDone_jobs]
    · exact State.survDone_numbered h ..
    · exact State.qpDone_numbered h ..
    · exact ite_numbered (State.batchDone_numbered h) h
    · exact h

theorem State.finishJob_numbered {s : State} (h : s.jobs.Numbered) (j : Job) (status reason : Nat) (kf : Option (KfOut × Bool)) :
    (s.finishJob j status reason kf).jobs.Numbered := by
  simp only [State.finishJob, State.consume_numbered, State.endJob_numbered, apply_ite State.jobs, apply_ite Jobs.Numbered,
    ite_self, h]

theorem State.kfEnd_numbered {s : State} (h : s.jobs.Numbered) (j : Job) : (s.kfEnd j).jobs.Numbered := by
  have hk := s.kfRun_jobs j
  unfold State.kfEnd
  split
  · next t hr => exact State.finishJob_numbered (by rw [hr] at hk; rwa [hk]) _ _ _ _
  · next t o pass hr => exact State.finishJob_numbered (by rw [hr] at hk; rwa [State.kfStore_jobs, hk]) _ _ _ _

theorem State.endSuspended_numbered {s : State} (h : s.jobs.Numbered) (j : Job) (corr : Nat) (ecc : Bool) :
    (s.endSuspended j corr ecc).jobs.Numbered := by
  simp only [State.endSuspended, State.scratch_jobs, State.finishJob_numbered, apply_ite State.jobs, apply_ite Jobs.Numbered,
    ite_self, h]

theorem jfAbortWith_numbered {s : State} (h : s.jobs.Numbered) (d : Dom) (v : Word) (corr : Nat) (ecc : Bool) :
    (jfAbortWith s d v corr ecc).1.jobs.Numbered := by
  refine State.writeGuard_numbered (fun t ht => ?_) h d R.JF_ABORT
  dsimp only
  split
  · rwa [State.set_jobs]
  · split
    · exact ht
    · rw [State.set_jobs]
      refine State.abortJob_numbered ?_ _ _
      split
      · rwa [State.scratch_jobs]
      · exact ht

theorem jfAbortWrite_numbered {s : State} (h : s.jobs.Numbered) (d : Dom) (v : Word) : (jfAbortWrite s d v).1.jobs.Numbered := by
  simp only [jfAbortWrite, jfAbortWith_numbered, h]

/-! Machine/Gnss: the GNSS receiver. -/

theorem gnCfgWrite_numbered {s : State} (h : s.jobs.Numbered) (d : Dom) (v : Word) : (gnCfgWrite s d v).1.jobs.Numbered := by
  refine State.writeGuard_numbered (fun t ht => ?_) h d R.GN_CFG
  simp only [State.hdgDrop_jobs, State.setWord_jobs, State.switchOff_numbered, apply_ite State.jobs, apply_ite Jobs.Numbered,
    ite_self, ht]

/-! Machine/Access: register accesses. -/

theorem writeSys_numbered {s : State} (h : s.jobs.Numbered) (d : Dom) (a : Nat) (v : Word) : WriteNumbered
    (writeSys s d a v) := by
  simp only [writeSys, State.complete_jobs, State.plainWrite_jobs, cycHeldWrite_jobs, evcfgWrite_jobs, icPieWrite_jobs,
    icSrcWrite_jobs, icSwset_jobs, pforceWrite_jobs, pmuCntWrite_jobs, pmuCtlWrite_jobs, recClrWrite_jobs, recCtlWrite_jobs,
    recCurWrite_jobs, ringWrite_jobs, safeReqWrite_jobs, wdogWrite_jobs, cycCtrlWrite_numbered, domReqWrite_numbered,
    kickWrite_numbered, pwrCtrlWrite_numbered, softWrite_numbered, apply_ite State.jobs, ite_self, apply_ite Prod.fst, h,
    apply_ite WriteNumbered, writeNumbered_some, writeNumbered_none]

theorem writeNet_numbered {s : State} (h : s.jobs.Numbered) (d : Dom) (a : Nat) (v : Word) : WriteNumbered
    (writeNet s d a v) := by
  simp only [writeNet, bankReqWrite_jobs, boutWrite_jobs, canBufWrite_jobs, canCancelWrite_jobs, canCellWrite_jobs,
    canCfgWrite_jobs, canNameEnWrite_jobs, canNameWrite_jobs, canTimWrite_jobs, canTxreqWrite_jobs, coefAccess_jobs,
    discCtrlWrite_jobs, dsfCfgWrite_jobs, dsfEnsetWrite_jobs, dsfThrWrite_jobs, flowCfgWrite_jobs, netCfgWrite_jobs,
    ptpRoleWrite_jobs, syncCtrlWrite_jobs, syncHWrite_jobs, timeIncWrite_jobs, timeLeapWrite_jobs, timeRefWrite_jobs,
    txTailWrite_jobs, uartCfgWrite_jobs, uartDataWrite_jobs, zalTreeWrite_jobs, timeStepWrite_numbered, ite_self, h,
    apply_ite WriteNumbered, writeNumbered_some, writeNumbered_none]

theorem writeFus_numbered {s : State} (h : s.jobs.Numbered) (d : Dom) (a : Nat) (v : Word) : WriteNumbered
    (writeFus s d a v) := by
  simp only [writeFus, State.shadowWrite_jobs, alcCommitWrite_jobs, capCtrlWrite_jobs, encCfgWrite_jobs, estCtrlWrite_jobs,
    fdCommitWrite_jobs, fscCfgWrite_jobs, fscMatchWrite_jobs, injCtrlWrite_jobs, lreqWrite_jobs, mnCfgWrite_jobs,
    ofscfgWrite_jobs, subHWrite_jobs, survCtrlWrite_jobs, tblAccess_jobs, trkCtrlWrite_jobs, jfAbortWrite_numbered,
    jfCfgWrite_numbered, subWrite_numbered, ite_self, h, apply_ite WriteNumbered, writeNumbered_some, writeNumbered_none]

theorem writeTop_numbered {s : State} (h : s.jobs.Numbered) (d : Dom) (a : Nat) (v : Word) : WriteNumbered
    (writeTop s d a v) := by
  simp only [writeTop, State.gpioOut_jobs, State.plainWrite_jobs, acqReqWrite_jobs, antWrite_jobs, beCtrlWrite_jobs,
    chCtrlWrite_jobs, fopWrite_jobs, gnHdgWrite_jobs, jiCfgWrite_jobs, joyWrite_jobs, skCfgWrite_jobs, skCmdWrite_jobs,
    tcfgWrite_jobs, tphWrite_jobs, wbWrite_jobs, gnCfgWrite_numbered, haCfgWrite_numbered, haCtrlWrite_numbered,
    apply_ite State.jobs, ite_self, apply_ite Prod.fst, h, apply_ite WriteNumbered, writeNumbered_some, writeNumbered_none]

theorem State.regWrite_numbered {s : State} (h : s.jobs.Numbered) (d : Dom) (a : Nat) (v : Word) :
    (s.regWrite d a v).1.jobs.Numbered := by
  unfold State.regWrite
  split
  · exact h
  · split
    · rwa [State.offAccess_jobs]
    · split
      · rwa [State.offAccess_jobs]
      · extract_lets w
        have hw : WriteNumbered w := by
          simp only [w, apply_ite WriteNumbered, writeSys_numbered h, writeNet_numbered h, writeFus_numbered h,
            writeTop_numbered h, ite_self]
        cases hr : w with
        | none => rwa [State.plainWrite_jobs]
        | some r => exact hw r hr

theorem State.busWrite_numbered {s : State} (h : s.jobs.Numbered) (d : Dom) (a : Nat) (v : Word) :
    (s.busWrite d a v).1.jobs.Numbered := by
  simp only [State.busWrite]
  split <;> simp only [State.busErr_jobs, State.offAccess_jobs, State.st_jobs, State.regWrite_numbered, apply_ite State.jobs,
    ite_self, apply_ite Prod.fst, h]

/-! Machine/Runtime: tasks and their copies. -/

theorem State.blockWrite_numbered {s : State} (h : s.jobs.Numbered) (eng a : Nat) (b : List Byte) :
    (s.blockWrite eng a b).jobs.Numbered :=
  foldl_numbered (fun _ _ ht => ite_numbered (by rwa [State.offAccess_jobs]) (State.busWrite_numbered ht ..)) _ h

theorem State.copyOutEntry_numbered {s : State} (h : s.jobs.Numbered) (n : Nat) (e : IoEnt × Nat) :
    (s.copyOutEntry n e).jobs.Numbered := by
  simp only [State.copyOutEntry, State.modTask_jobs, State.blockWrite_numbered, apply_ite State.jobs, apply_ite Jobs.Numbered,
    ite_self, h]

theorem State.takeSystem_numbered {s : State} (h : s.jobs.Numbered) (i : ImageCfg) : (s.takeSystem i).jobs.Numbered := by
  unfold State.takeSystem
  rw [State.paramDue_jobs, State.showSig_jobs, State.modPwr_jobs]
  exact ite_numbered h (foldl_numbered (fun _ _ ht => State.regWrite_numbered ht ..) _ h)

theorem State.switch_numbered {s : State} (h : s.jobs.Numbered) (p : ProgSet) (start : Nat) :
    (s.switch p start).jobs.Numbered := by
  unfold State.switch
  extract_lets aff rn ns fops s₁ s₂ es s₃ img s₄ s₅ s₆ s₇ s₈ s₉ s₁₀ s₁₁ s₁₂
  have h₃ : s₃.jobs = s.jobs := (foldl_jobs (fun _ _ => State.set_jobs ..) _ _).trans (by rw [State.carryData_jobs,
    State.advanceTo_jobs])
  have h₅ : s₅.jobs = s.jobs := (foldl_jobs (fun _ _ => State.loadTask_jobs ..) _ _).trans (by rw [State.modBe_jobs, h₃])
  have h₆ : s₆.jobs = s.jobs := by rw [State.set_jobs, State.set_jobs, State.setWord_jobs, h₅]
  have h₈ : s₈.jobs = s.jobs := by rw [State.set_jobs, State.rebindForces_jobs, h₆]
  have h₉ : s₉.jobs.Numbered := by rwa [State.set_jobs, State.set_jobs, State.set_jobs, h₈]
  clear_value img s₉
  have h₁₀ : s₁₀.jobs.Numbered := by
    cases img with
    | none => exact h₉
    | some i => exact State.takeSystem_numbered h₉ i
  have h₁₁ : s₁₁.jobs.Numbered := ite_numbered (by rwa [State.event_jobs]) h₁₀
  have h₁₂ : s₁₂.jobs.Numbered :=
    foldl_numbered (fun _ _ ht => by rwa [State.forceOp_jobs]) _ (by rwa [State.showBeDoze_jobs])
  exact ite_numbered (by rwa [State.cpFinish_jobs]) h₁₂

/-! Machine/Boot: boot and images. -/

theorem State.applyRegs_numbered {s : State} (h : s.jobs.Numbered) (dom : Option Nat) (l : List (Nat × Word)) :
    (s.applyRegs dom l).jobs.Numbered := by
  refine foldl_numbered (fun t e ht => ?_) l h
  split
  · exact ht
  · exact ite_numbered (State.regWrite_numbered ht ..) ht
  · exact State.regWrite_numbered ht ..

theorem State.gnConfig_numbered {s : State} (h : s.jobs.Numbered) (d : Dom) (a : Nat) (v : Word) :
    (s.gnConfig d a v).jobs.Numbered := by
  simp only [State.gnConfig, State.gnKeep_jobs, State.regWrite_numbered, apply_ite State.jobs, apply_ite Jobs.Numbered, ite_self,
    h]

theorem State.gnRestore_numbered {s : State} (h : s.jobs.Numbered) : s.gnRestore.jobs.Numbered :=
  ite_numbered (foldl_numbered (fun _ _ ht => State.regWrite_numbered ht ..) _ h) h

theorem State.applyGnss_numbered {s : State} (h : s.jobs.Numbered) (l : List (Nat × Word)) : (s.applyGnss l).jobs.Numbered := by
  simp only [State.applyGnss, State.gnKeep_jobs, State.gnRestore_numbered, foldl_jobs, implies_true, h]

theorem State.restore_numbered {s : State} (h : s.jobs.Numbered) (d : Nat) : (s.restore d).jobs.Numbered := by
  unfold State.restore
  extract_lets i s₁ s₂ s₃ s₄
  have h₁ : s₁.jobs.Numbered := by
    simpa only [s₁, apply_ite State.jobs, State.loadSet_jobs, State.reloadApp1_jobs, ite_self] using h
  have h₃ : s₃.jobs.Numbered := State.applyRegs_numbered (State.applyRegs_numbered (by rwa [State.restoring_jobs]) ..) ..
  have h₄ : s₄.jobs.Numbered := by
    simpa only [s₄, apply_ite State.jobs, State.gnWake_jobs, State.showSig_jobs, ite_self] using h₃
  exact ite_numbered (by rwa [State.paramLoad_jobs]) (ite_numbered (State.gnRestore_numbered h₄) h₄)

/-! Machine/Port: the commands of the port. -/

theorem State.cpWriteWords_numbered : ∀ (l : List Word) {s : State} (_ : s.jobs.Numbered) (a k : Nat),
    (s.cpWriteWords a k l).1.jobs.Numbered
  | [], _, h, _, _ => h
  | v :: l, s, h, a, k => by
    have hb := State.busWrite_numbered h .host a v
    unfold State.cpWriteWords
    dsimp only
    split_ifs
    · exact cpWriteWords_numbered l hb _ _
    · exact hb

theorem State.opWr_numbered {s : State} (h : s.jobs.Numbered) (p : List Byte) : (s.opWr p).1.jobs.Numbered := by
  simp only [State.opWr, State.cpUnmapped_jobs, cpStatus_jobs, State.cpWriteWords_numbered, apply_ite State.jobs,
    apply_ite Jobs.Numbered, ite_self, apply_ite Prod.fst, h]

theorem State.opRmw_numbered {s : State} (h : s.jobs.Numbered) (p : List Byte) : (s.opRmw p).1.jobs.Numbered := by
  simp only [State.opRmw, State.busErr_jobs, State.busRead_jobs, State.cpUnmapped_jobs, cpStatus_jobs, State.busWrite_numbered,
    apply_ite State.jobs, apply_ite Jobs.Numbered, ite_self, apply_ite Prod.fst, h]

theorem State.opGnConfig_numbered {s : State} (h : s.jobs.Numbered) (p : List Byte) : (s.opGnConfig p).1.jobs.Numbered := by
  simp only [State.opGnConfig, cpStatus_jobs, State.gnConfig_numbered, apply_ite State.jobs, apply_ite Jobs.Numbered, ite_self,
    apply_ite Prod.fst, h]

theorem State.opSkMove_numbered {s : State} (h : s.jobs.Numbered) (p : List Byte) : (s.opSkMove p).1.jobs.Numbered := by
  simp only [State.opSkMove, State.cpSkWrite_jobs, State.cpWriteWords_numbered, apply_ite State.jobs, apply_ite Jobs.Numbered,
    ite_self, apply_ite Prod.fst, h]

theorem State.opSkJoy_numbered {s : State} (h : s.jobs.Numbered) (p : List Byte) : (s.opSkJoy p).1.jobs.Numbered := by
  unfold State.opSkJoy
  rw [cpStatus_jobs]
  exact foldl_numbered (fun _ _ ht => State.busWrite_numbered ht ..) _ h

theorem State.opSurveyRec_numbered {s : State} (h : s.jobs.Numbered) (p : List Byte) : (s.opSurveyRec p).1.jobs.Numbered := by
  simp only [State.opSurveyRec, cpStatus_jobs, State.busWrite_numbered, apply_ite State.jobs, apply_ite Jobs.Numbered, ite_self,
    apply_ite Prod.fst, h]

theorem State.opSurveyRun_numbered {s : State} (h : s.jobs.Numbered) : s.opSurveyRun.1.jobs.Numbered := by
  simp only [State.opSurveyRun, cpStatus_jobs, State.survRun_numbered, apply_ite State.jobs, apply_ite Jobs.Numbered, ite_self,
    apply_ite Prod.fst, h]

theorem State.opTimeStep_numbered {s : State} (h : s.jobs.Numbered) (p : List Byte) : (s.opTimeStep p).1.jobs.Numbered := by
  simp only [State.opTimeStep, cpStatus_jobs, State.busWrite_numbered, State.cpWriteWords_numbered, apply_ite State.jobs,
    apply_ite Jobs.Numbered, ite_self, apply_ite Prod.fst, h]

theorem State.opTimeLeap_numbered {s : State} (h : s.jobs.Numbered) (p : List Byte) : (s.opTimeLeap p).1.jobs.Numbered := by
  simp only [State.opTimeLeap, cpStatus_jobs, State.busWrite_numbered, h]

theorem State.cpKeyed_numbered {s : State} (h : s.jobs.Numbered) (a bit : Nat) (p : List Byte) :
    (s.cpKeyed a bit p).1.jobs.Numbered := by
  simp only [State.cpKeyed, cpStatus_jobs, State.busWrite_numbered, h]

theorem State.cpForce_numbered {s : State} (h : s.jobs.Numbered) (op : Nat) (p : List Byte) :
    (s.cpForce op p).1.jobs.Numbered := by
  unfold State.cpForce
  rw [cpStatus_jobs]
  exact State.busWrite_numbered (State.cpWriteWords_numbered _ h ..) ..

theorem State.cpReset_numbered {s : State} (h : s.jobs.Numbered) : s.cpReset.jobs.Numbered := by
  simp only [State.cpReset, State.deviceReset_numbered, apply_ite State.jobs, apply_ite Jobs.Numbered, ite_self, h]

theorem State.opReset_numbered {s : State} (h : s.jobs.Numbered) (p : List Byte) : (s.opReset p).1.jobs.Numbered := by
  simp only [State.opReset, State.cpKey, cpStatus_jobs, State.bump_jobs, State.cpFinish_jobs, State.modCp_jobs,
    State.cpReset_numbered, apply_ite State.jobs, apply_ite Jobs.Numbered, ite_self, apply_ite Prod.fst, h]

theorem State.idle_numbered {s : State} (h : s.jobs.Numbered) : s.idle.jobs.Numbered := by
  simp only [State.idle, State.flushAll_jobs, State.fwDoze_jobs, State.tick_jobs, State.cpReset_numbered, h]

theorem State.cpExec_numbered {s : State} (h : s.jobs.Numbered) (op : Nat) (p : List Byte) : (s.cpExec op p).1.jobs.Numbered := by
  simp only [State.cpExec, State.opForceList_jobs, State.opIdentify_jobs, State.opImgActivate_jobs, State.opImgBegin_jobs,
    State.opImgCommit_jobs, State.opImgData_jobs, State.opImgFlash_jobs, State.opImgStatus_jobs, State.opOtpBurn_jobs,
    State.opOtpRead_jobs, State.opOtpRevoke_jobs, State.opOtpStage_jobs, State.opPairStatus_jobs, State.opRd_jobs,
    State.opRecRead_jobs, State.opSelftest_jobs, State.opSelftestLast_jobs, State.opSkHalt_jobs, State.opSkMode_jobs,
    State.opSkStakeHere_jobs, State.opStatus_jobs, State.opSurveyCommit_jobs, State.opSurveyDiscard_jobs,
    State.opSurveyStatus_jobs, State.opTimeGet_jobs, cpStatus_jobs, State.cpForce_numbered, State.cpKeyed_numbered,
    State.opGnConfig_numbered, State.opReset_numbered, State.opRmw_numbered, State.opSkJoy_numbered, State.opSkMove_numbered,
    State.opSurveyRec_numbered, State.opSurveyRun_numbered, State.opTimeLeap_numbered, State.opTimeStep_numbered,
    State.opWr_numbered, apply_ite State.jobs, apply_ite Jobs.Numbered, ite_self, apply_ite Prod.fst, h]

theorem State.cpRun_numbered {s : State} (h : s.jobs.Numbered) (o : CpOp) : (s.cpRun o).jobs.Numbered := by
  unfold State.cpRun
  extract_lets s₁ r
  have h₁ : s₁.jobs.Numbered := by rwa [State.showCp_jobs, State.modCp_jobs]
  have hr : r.1.jobs.Numbered := State.cpExec_numbered h₁ ..
  split
  · rwa [State.cpFinish_jobs]
  · split
    · rwa [State.cpFinish_jobs]
    · exact hr

theorem State.cpTake_numbered {s : State} (h : s.jobs.Numbered) (t via src : Nat) (b : List Byte) :
    (s.cpTake t via src b).jobs.Numbered := by
  simp only [State.cpTake]
  split <;> simp only [State.bump_jobs, State.cpSend_jobs, State.cpRun_numbered, apply_ite State.jobs, apply_ite Jobs.Numbered,
    ite_self, h]

theorem State.cpHunt_numbered (t : Nat) : ∀ (n : Nat) {s : State} (_ : s.jobs.Numbered) (b : List Byte),
    (s.cpHunt t b n).1.jobs.Numbered
  | 0, _, h, _ => h
  | n + 1, s, h, b => by
    unfold State.cpHunt
    split
    · exact h
    · split
      · exact h
      · dsimp only
        split_ifs
        · exact cpHunt_numbered t n h _
        · exact h
        · exact cpHunt_numbered t n (by rwa [State.bump_jobs]) _
        · exact cpHunt_numbered t n (by rwa [State.cpSend_jobs]) _
        · exact h
        · exact cpHunt_numbered t n (State.cpTake_numbered h _ _ _ _) _

theorem State.cpDatagram_numbered (via src n : Nat) : ∀ (k : Nat) {s : State} (_ : s.jobs.Numbered) (b : List Byte),
    (s.cpDatagram via src n b k).jobs.Numbered
  | 0, _, h, _ => h
  | k + 1, s, h, b => by
    unfold State.cpDatagram
    split
    · exact h
    · dsimp only
      split_ifs
      · exact cpDatagram_numbered via src n k h _
      · rwa [State.bump_jobs]
      · exact cpDatagram_numbered via src n k (by rwa [State.bump_jobs]) _
      · exact cpDatagram_numbered via src n k (by rwa [State.cpSend_jobs]) _
      · rwa [State.bump_jobs]
      · exact State.cpTake_numbered h _ _ _ _

theorem State.cpRequest_numbered {s : State} (h : s.jobs.Numbered) (t : Fin 3) (src : BitVec 48) (seq : Byte) (op : Nat)
    (p : List Byte) : (s.cpRequest t src seq op p).jobs.Numbered := by
  simp only [State.cpRequest, State.cpTake_numbered, apply_ite State.jobs, apply_ite Jobs.Numbered, ite_self, h]

end Sys2Proof.Machine
end

section
/-!
PROOFS of the family 07_solver_array, the steps of the machine and the numbers of the jobs (O7): one lemma per command, where the
command is more than a call of one function, then all commands, the idle step and the statement.
-/
namespace Sys2Proof.Machine

/-- An outcome answers only states whose jobs are numbered. -/
def Numbers (o : Host.Outcome State Fault Refusal) : Prop := ∀ t, o = .next t → t.jobs.Numbered

/-- The end of a command is about the queue alone. -/
theorem numbers_ends {s t : State} (h : t.jobs.Numbered) : Numbers (s.ends t) := by
  intro u hu
  cases hu
  exact h

theorem numbers_of_jobs {s t u : State} (ht : t.jobs = s.jobs) (h : s.jobs.Numbered) : Numbers (u.ends t) :=
  numbers_ends (ht ▸ h)

theorem loadOp_jobs {sp : BitVec 2} {d x : BitVec 5} {disp : BitVec 12} {size n : Nat} {f : Nat → Word64} {s t : State}
    {c k : Ctx}
    (h : loadOp sp d x disp size f s n c = .ok (t, k)) : t.jobs = s.jobs := by
  unfold loadOp at h
  split at h <;> cases h
  rfl

theorem storeOp_jobs {sp : BitVec 2} {x : BitVec 5} {disp : BitVec 12} {size v n : Nat} {sat : Bool} {s t : State} {c k : Ctx}
    (h : storeOp sp x disp size v sat s n c = .ok (t, k)) : t.jobs = s.jobs := by
  unfold storeOp at h
  split at h <;> cases h
  exact State.beStore_jobs ..

theorem State.alu_numbers {s : State} (h : s.jobs.Numbered) (e : Fin 8) (f : Ctx → Ctx) : Numbers (s.alu e f) :=
  numbers_of_jobs (State.issue_jobs (fun _ _ _ _ _ hu => by cases hu; rfl) s e) h

theorem State.moveEntries_numbered {f : State → IoEnt × Nat → State} (hf : ∀ t e, t.jobs.Numbered → (f t e).jobs.Numbered) :
    ∀ (l : List (IoEnt × Nat)) {s : State}, s.jobs.Numbered → (s.moveEntries f l).jobs.Numbered
  | [], _, h => h
  | e :: l, s, h => moveEntries_numbered hf l (hf _ e (by rwa [State.modBe_jobs, State.advanceTo_jobs]))

theorem State.copyOn_numbered {f : State → IoEnt × Nat → State} {done : State → State}
    (hf : ∀ t e, t.jobs.Numbered → (f t e).jobs.Numbered) (hdone : ∀ t, t.jobs.Numbered → (done t).jobs.Numbered)
    {s : State} (h : s.jobs.Numbered) (c : Copy) (k : Nat) : (s.copyOn c k f done).jobs.Numbered := by
  unfold State.copyOn
  extract_lets rest now s₁ s₂
  have h₂ : s₂.jobs.Numbered := State.moveEntries_numbered hf _ (by rwa [State.advanceTo_jobs, State.modBe_jobs])
  exact ite_numbered (hdone _ h₂) h₂

/-- An instruction that leaves the jobs alone in its processor's operation answers only numbered jobs. -/
theorem State.issue_numbers {s : State} (hs : s.jobs.Numbered) (e : Nat) {f : State → Nat → Ctx → CodeRes}
    (hf : ∀ t n k u c, f t n k = .ok (u, c) → u.jobs = t.jobs) : Numbers (s.ends (s.issue e f)) :=
  numbers_of_jobs (State.issue_jobs hf s e) hs

/-- The end of a survey out of time, from the instant its time is over: the jobs of its unit are aborted. -/
theorem surveyTimedOut_numbers {s : State} (hs : s.jobs.Numbered) (u : State) : Numbers (u.ends
    (let s : State := (s.jobs.jobs.filter fun j : Job => j.unit == 5).foldl (fun (u : State) j => (u.abortJob j 3).1) s
     let s : State := { s.set F.FE_SURV_STAT_PSTATE 0 with surv := { s.surv with runAt := none, again := false, prop := [] } }
     if s.cpRuns [0x51] then s.cpFinish .timeout [] else s)) := by
  extract_lets s₁ u₁ u₂ s₂
  have h₁ : s₁.jobs.Numbered := foldl_numbered (fun _ _ hu => State.abortJob_numbered hu ..) _ hs
  have h₂ : s₂.jobs.Numbered := by
    have h := State.set_jobs s₁ F.FE_SURV_STAT_PSTATE 0
    simp only [s₂]
    rwa [h]
  exact numbers_ends (ite_numbered (by rwa [State.cpFinish_jobs]) h₂)

/-- A held submission is taken. -/
theorem heldTaken_numbers {s : State} (h : s.jobs.Numbered) (u : State) (x : Held) : Numbers (u.ends
    (match x with
      | .bus x a => s.submitAt x a
      | .port j => s.takeJob j)) := by
  refine numbers_ends ?_
  split
  · exact State.submitAt_numbered h ..
  · exact State.takeJob_numbered h ..

theorem ite_numbers {p : Prop} [Decidable p] {s t : State} (hs : s.jobs.Numbered) (ht : t.jobs.Numbered) (u : State) :
    Numbers (u.ends (if p then s else t)) := numbers_ends (ite_numbered hs ht)

/-- The scrubber's state is not the jobs'. -/
theorem scrub_numbers {s t : State} (h : t.jobs = s.jobs) (hs : s.jobs.Numbered) (u : State) (x : Scrub) :
    Numbers (u.ends { t with scrub := x }) := numbers_of_jobs h hs

/-! Machine/Pmu: the performance counters. -/

theorem execPmuCounterRead_numbers {s : State} (hs : s.jobs.Numbered) (d : Dom) (n : Fin 256) (shadowBank : Bool) :
    Numbers (execPmuCounterRead d n shadowBank s) := by
  refine numbers_of_jobs ?_ hs
  simp only [State.inDomain_jobs, State.pmuRead_jobs, implies_true]

/-! Machine/Events: events and their rings. -/

theorem execCounterOverflow_numbers {s : State} (hs : s.jobs.Numbered) (n : Fin 256) : Numbers (execCounterOverflow n s) := by
  refine numbers_of_jobs ?_ hs
  simp only [State.advanceBy_jobs, State.advanceTicks_jobs, State.pmu_jobs, apply_ite State.jobs, ite_self]

/-! Machine/Servo: the servo loops. -/

theorem execServoTick_numbers {s : State} (hs : s.jobs.Numbered) : Numbers (execServoTick s) := by
  refine numbers_of_jobs ?_ hs
  simp -implicitDefEqProofs only [State.advanceTo_jobs, State.servoTick_jobs, apply_ite State.jobs, ite_self]

theorem execFbHoldExpire_numbers {s : State} (hs : s.jobs.Numbered) (n : Fin 24) : Numbers (execFbHoldExpire n s) := by
  refine numbers_of_jobs ?_ hs
  simp -implicitDefEqProofs only [State.periodStart_jobs, apply_ite State.jobs, ite_self]

theorem execSetpointTimeout_numbers {s : State} (hs : s.jobs.Numbered) (n : Fin 24) : Numbers (execSetpointTimeout n s) := by
  refine numbers_of_jobs ?_ hs
  simp -implicitDefEqProofs only [State.advanceTo_jobs, State.bump_jobs, State.setFlag_jobs, apply_ite State.jobs, ite_self]

theorem execPlausibilityMismatch_numbers {s : State} (hs : s.jobs.Numbered) (n : Fin 24) (moved : List (Fin 12 × Int)) :
    Numbers (execPlausibilityMismatch n moved s) := by
  refine numbers_of_jobs ?_ hs
  simp -implicitDefEqProofs only [State.servoOutput_jobs, apply_ite State.jobs, ite_self]

theorem execInjectionTstart_numbers {s : State} (hs : s.jobs.Numbered) (n : Fin 24) : Numbers (execInjectionTstart n s) := by
  refine numbers_of_jobs ?_ hs
  simp -implicitDefEqProofs only [State.advanceTo_jobs, State.periodStart_jobs, apply_ite State.jobs, ite_self]

theorem execInjectionEnd_numbers {s : State} (hs : s.jobs.Numbered) (n : Fin 24) : Numbers (execInjectionEnd n s) := by
  refine numbers_of_jobs ?_ hs
  split <;> simp only [State.periodStart_jobs, apply_ite State.jobs, ite_self]

theorem execCaptureTrigger_numbers {s : State} (hs : s.jobs.Numbered) (u : Fin 2) : Numbers (execCaptureTrigger u s) := by
  refine numbers_of_jobs ?_ hs
  split
  · rfl
  · split <;> simp only [State.capTrigger_jobs, State.advanceBy_jobs, apply_ite State.jobs, ite_self]

theorem execCaptureComplete_numbers {s : State} (hs : s.jobs.Numbered) (u : Fin 2) : Numbers (execCaptureComplete u s) := by
  refine numbers_of_jobs ?_ hs
  simp only [State.modCap_jobs, State.set_jobs, State.storeBytes_jobs, apply_ite State.jobs, ite_self]

theorem execEncoderIllegalTransition_numbers {s : State} (hs : s.jobs.Numbered) (c : Fin 12) :
    Numbers (execEncoderIllegalTransition c s) := by
  refine numbers_of_jobs ?_ hs
  simp -implicitDefEqProofs only [State.bump_jobs, State.encBad_jobs, apply_ite State.jobs, ite_self]

theorem execEncoderIndexPulse_numbers {s : State} (hs : s.jobs.Numbered) (c : Fin 12) : Numbers (execEncoderIndexPulse c s) := by
  refine numbers_of_jobs ?_ hs
  simp -implicitDefEqProofs only [State.setWord_jobs, apply_ite State.jobs, ite_self]

theorem execSsiFrame_numbers {s : State} (hs : s.jobs.Numbered) (c : Fin 12) (data : Word) (parityBad errBit : Bool) :
    Numbers (execSsiFrame c data parityBad errBit s) := by
  refine numbers_of_jobs ?_ hs
  simp -implicitDefEqProofs only [State.advanceTo_jobs, State.bump_jobs, State.encBad_jobs, State.modSrv_jobs,
    State.setWord_jobs, apply_ite State.jobs, ite_self]

/-! Machine/Transmit: frames on their way out. -/

theorem execScheduledLaunch_numbers {s : State} (hs : s.jobs.Numbered) (p : Fin 5) : Numbers (execScheduledLaunch p s) := by
  refine numbers_of_jobs ?_ hs
  simp -implicitDefEqProofs only [State.launchOne_jobs, apply_ite State.jobs, ite_self]

/-! Machine/Time: time and its references. -/

theorem execReferenceOffset_numbers {s : State} (hs : s.jobs.Numbered) (ptp : Bool) (ofs : Int) (sigma : Nat) :
    Numbers (execReferenceOffset ptp ofs sigma s) := by
  refine numbers_ends ?_
  simp -implicitDefEqProofs only [State.gnSolution_numbered, State.refOffset_numbered, apply_ite State.jobs, ite_self,
    apply_ite Jobs.Numbered, hs]

theorem execReferenceLoss_numbers {s : State} (hs : s.jobs.Numbered) : Numbers (execReferenceLoss s) := by
  refine numbers_of_jobs ?_ hs
  dsimp only
  split <;> simp only [State.advanceTo_jobs, State.toHoldover_jobs, apply_ite State.jobs, ite_self]

theorem execSlewEnd_numbers {s : State} (hs : s.jobs.Numbered) : Numbers (execSlewEnd s) := by
  refine numbers_of_jobs ?_ hs
  simp -implicitDefEqProofs only [State.advanceTicks_jobs, State.gnSlewDone_jobs, State.modTime_jobs, State.slewDone_jobs,
    apply_ite State.jobs, ite_self]

theorem execTimeNowRead_numbers {s : State} (hs : s.jobs.Numbered) : Numbers (execTimeNowRead s) := by
  refine numbers_of_jobs ?_ hs
  simp only [State.inDomain_jobs, State.readNow_jobs, implies_true]

theorem execLeapSecond_numbers {s : State} (hs : s.jobs.Numbered) : Numbers (execLeapSecond s) := by
  refine numbers_of_jobs ?_ hs
  simp only [State.advanceTo_jobs, State.set_jobs, apply_ite State.jobs, ite_self]

theorem execPtpSyncReceive_numbers {s : State} (hs : s.jobs.Numbered) (p : Fin 2) (seq : BitVec 16) (twoStep : Bool)
    (origin : Int) : Numbers (execPtpSyncReceive p seq twoStep origin s) := by
  refine numbers_ends ?_
  simp only [State.frameIn_jobs, State.modPort_jobs, State.ptpOffset_numbered, apply_ite State.jobs, ite_self,
    apply_ite Jobs.Numbered, hs]

theorem execPtpFollowUpReceive_numbers {s : State} (hs : s.jobs.Numbered) (p : Fin 2) (seq : BitVec 16) (origin : Int) :
    Numbers (execPtpFollowUpReceive p seq origin s) := by
  refine numbers_ends ?_
  dsimp only
  split <;> simp only [State.frameIn_jobs, State.ptpOffset_numbered, apply_ite State.jobs, ite_self, apply_ite Jobs.Numbered, hs]

theorem execPtpDelayRespReceive_numbers {s : State} (hs : s.jobs.Numbered) (p : Fin 2) (seq : BitVec 16) (t4 : Int) :
    Numbers (execPtpDelayRespReceive p seq t4 s) := by
  refine numbers_of_jobs ?_ hs
  extract_lets s₁
  have h₁ : s₁.jobs = s.jobs := by rw [State.flush_jobs, State.frameIn_jobs]
  split
  · exact h₁
  · split
    · rw [apply_ite State.jobs, State.setMpd_jobs, State.modPort_jobs, ite_self, h₁]
    · exact h₁

theorem execPtpPdelayRespReceive_numbers {s : State} (hs : s.jobs.Numbered) (p : Fin 2) (seq : BitVec 16) (twoStep : Bool)
    (t2 turn : Int) : Numbers (execPtpPdelayRespReceive p seq twoStep t2 turn s) := by
  refine numbers_of_jobs ?_ hs
  dsimp only
  split <;> simp only [State.flush_jobs, State.frameIn_jobs, State.modPort_jobs, State.setMpd_jobs, apply_ite State.jobs,
    ite_self]

theorem execPtpPdelayRespFollowUpReceive_numbers {s : State} (hs : s.jobs.Numbered) (p : Fin 2) (seq : BitVec 16) (t3 : Int) :
    Numbers (execPtpPdelayRespFollowUpReceive p seq t3 s) := by
  refine numbers_of_jobs ?_ hs
  dsimp only
  split <;> simp only [State.frameIn_jobs, State.modPort_jobs, State.setMpd_jobs, apply_ite State.jobs, ite_self]

theorem execPtpDelayReqReceive_numbers {s : State} (hs : s.jobs.Numbered) (p : Fin 2) (seq : BitVec 16) (corr : Int)
    (src : BitVec 80) : Numbers (execPtpDelayReqReceive p seq corr src s) := by
  refine numbers_of_jobs ?_ hs
  simp only [State.frameIn_jobs, State.ptpSend_jobs, apply_ite State.jobs, ite_self]

theorem execPtpPdelayReqReceive_numbers {s : State} (hs : s.jobs.Numbered) (p : Fin 2) (seq : BitVec 16) (corr : Int)
    (src : BitVec 80) : Numbers (execPtpPdelayReqReceive p seq corr src s) := by
  refine numbers_of_jobs ?_ hs
  simp only [State.frameIn_jobs, State.ptpSend_jobs, apply_ite State.jobs, ite_self]

theorem execPtpAnnounceReceive_numbers {s : State} (hs : s.jobs.Numbered) (p : Fin 2) (m : AnnMsg) :
    Numbers (execPtpAnnounceReceive p m s) := by
  refine numbers_of_jobs ?_ hs
  simp only [State.annLeap_jobs, State.bmcPort_jobs, State.frameIn_jobs, State.modPort_jobs, apply_ite State.jobs, ite_self]

theorem execPtpUnsupportedMessage_numbers {s : State} (hs : s.jobs.Numbered) (p : Fin 2) :
    Numbers (execPtpUnsupportedMessage p s) := by
  refine numbers_of_jobs ?_ hs
  simp only [State.bump_jobs, State.frameIn_jobs, apply_ite State.jobs, ite_self]

theorem execPtpSyncSend_numbers {s : State} (hs : s.jobs.Numbered) (p : Fin 2) : Numbers (execPtpSyncSend p s) := by
  refine numbers_of_jobs ?_ hs
  simp -implicitDefEqProofs only [State.modPort_jobs, State.ptpSend_jobs, apply_ite State.jobs, ite_self]

theorem execPtpAnnounceSend_numbers {s : State} (hs : s.jobs.Numbered) (p : Fin 2) : Numbers (execPtpAnnounceSend p s) := by
  refine numbers_of_jobs ?_ hs
  simp -implicitDefEqProofs only [State.modPort_jobs, State.ptpSend_jobs, apply_ite State.jobs, ite_self]

theorem execPtpDelayReqSend_numbers {s : State} (hs : s.jobs.Numbered) (p : Fin 2) : Numbers (execPtpDelayReqSend p s) := by
  refine numbers_of_jobs ?_ hs
  simp -implicitDefEqProofs only [State.modPort_jobs, State.ptpSend_jobs, apply_ite State.jobs, ite_self]

theorem execPtpPdelayReqSend_numbers {s : State} (hs : s.jobs.Numbered) (p : Fin 2) : Numbers (execPtpPdelayReqSend p s) := by
  refine numbers_of_jobs ?_ hs
  simp -implicitDefEqProofs only [State.modPort_jobs, State.ptpSend_jobs, apply_ite State.jobs, ite_self]

theorem execPtpAnnounceReceiptTimeout_numbers {s : State} (hs : s.jobs.Numbered) (p : Fin 2) :
    Numbers (execPtpAnnounceReceiptTimeout p s) := by
  refine numbers_of_jobs ?_ hs
  simp -implicitDefEqProofs only [State.advanceTo_jobs, State.bmcPort_jobs, State.modPort_jobs, apply_ite State.jobs, ite_self]

theorem execPpsEdge_numbers {s : State} (hs : s.jobs.Numbered) (k : Fin 2) : Numbers (execPpsEdge k s) := by
  refine numbers_of_jobs ?_ hs
  simp -implicitDefEqProofs only [State.advanceTo_jobs, State.emit_jobs, State.modTime_jobs, apply_ite State.jobs, ite_self]

theorem execPpsPulseEnd_numbers {s : State} (hs : s.jobs.Numbered) (k : Fin 2) : Numbers (execPpsPulseEnd k s) := by
  refine numbers_of_jobs ?_ hs
  simp -implicitDefEqProofs only [State.advanceTicks_jobs, State.emit_jobs, State.modTime_jobs, apply_ite State.jobs, ite_self]

theorem execTimeCaptureEdge_numbers {s : State} (hs : s.jobs.Numbered) (n : Fin 4) (rising : Bool) (fine : Fin 8) (lasts : Nat) :
    Numbers (execTimeCaptureEdge n rising fine lasts s) := by
  refine numbers_of_jobs ?_ hs
  simp only [State.bump_jobs, State.event_jobs, State.modTime_jobs, State.set_jobs, apply_ite State.jobs, ite_self]

theorem execCapTslRead_numbers {s : State} (hs : s.jobs.Numbered) (n : Fin 4) : Numbers (execCapTslRead n s) := by
  refine numbers_of_jobs ?_ hs
  simp only [State.inDomain_jobs, State.popCapture_jobs, implies_true]

/-! Machine/Streams: the streams. -/

theorem execGstMergeExpire_numbers {s : State} (hs : s.jobs.Numbered) : Numbers (execGstMergeExpire s) := by
  refine numbers_of_jobs ?_ hs
  split <;> simp only [State.advanceTo_jobs, State.modFe_jobs]

theorem execFastPacketTimeout_numbers {s : State} (hs : s.jobs.Numbered) : Numbers (execFastPacketTimeout s) := by
  refine numbers_of_jobs ?_ hs
  split <;> simp only [State.advanceTo_jobs, State.dropFast_jobs, State.fastLost_jobs]

theorem execIsoRequestReceive_numbers {s : State} (hs : s.jobs.Numbered) (c : Fin 4) (dst : Byte) (pgn : Nat) :
    Numbers (execIsoRequestReceive c dst pgn s) := by
  refine numbers_of_jobs ?_ hs
  simp -implicitDefEqProofs only [State.canData_jobs, State.isoRequest_jobs, apply_ite State.jobs, ite_self]

theorem execAddressClaimReceive_numbers {s : State} (hs : s.jobs.Numbered) (c : Fin 4) (name : Word64) (sa : Byte) :
    Numbers (execAddressClaimReceive c name sa s) := by
  refine numbers_of_jobs ?_ hs
  simp -implicitDefEqProofs only [State.addressClaim_jobs, State.canData_jobs, apply_ite State.jobs, ite_self]

theorem execPgnReceive_numbers {s : State} (hs : s.jobs.Numbered) (c : Fin 4) (x : PgnMsg) (ago : Nat) :
    Numbers (execPgnReceive c x ago s) := by
  refine numbers_of_jobs ?_ hs
  simp -implicitDefEqProofs only [State.canData_jobs, State.dropFast_jobs, State.n2kMessage_jobs, apply_ite State.jobs, ite_self]

theorem execUdpbcDatagram_numbers {s : State} (hs : s.jobs.Numbered) (p : Fin 2) (group : Fin 16) (binaryKind : Bool)
    (src : Word64) (line : Nat) (c : Option Int) (xs : List (List Byte)) (ago : Nat) :
    Numbers (execUdpbcDatagram p group binaryKind src line c xs ago s) := by
  refine numbers_of_jobs ?_ hs
  simp only [State.bump_jobs, State.frameIn_jobs, State.remember_jobs, State.sentence_jobs, foldl_jobs, implies_true,
    apply_ite State.jobs, ite_self]

theorem execFlowDatagram_numbers {s : State} (hs : s.jobs.Numbered) (p : Fin 2) (udp : BitVec 16) (ip : Word)
    (fs : List (List Byte)) (ago : Nat) : Numbers (execFlowDatagram p udp ip fs ago s) := by
  refine numbers_of_jobs ?_ hs
  simp only [State.binary_jobs, State.bump_jobs, State.frameIn_jobs, State.remember_jobs, State.rtcm_jobs, foldl_jobs,
    implies_true, apply_ite State.jobs, ite_self]

theorem execStreamEnable_numbers {s : State} (hs : s.jobs.Numbered) (d : Dom) (n : Fin 128) (v : Word) :
    Numbers (execStreamEnable d n v s) := by
  refine numbers_of_jobs ?_ hs
  simp -implicitDefEqProofs only [fscCfgWrite_jobs, apply_ite State.jobs, ite_self]

theorem execStreamDisable_numbers {s : State} (hs : s.jobs.Numbered) (d : Dom) (n : Fin 128) (v : Word) :
    Numbers (execStreamDisable d n v s) := by
  refine numbers_of_jobs ?_ hs
  simp -implicitDefEqProofs only [fscCfgWrite_jobs, apply_ite State.jobs, ite_self]

theorem execOfscfgWrite_numbers {s : State} (hs : s.jobs.Numbered) (d : Dom) (n : Fin 128) (v : Word) :
    Numbers (execOfscfgWrite d n v s) := by
  refine numbers_of_jobs ?_ hs
  simp -implicitDefEqProofs only [ofscfgWrite_jobs, apply_ite State.jobs, ite_self]

theorem execFeScOfslRead_numbers {s : State} (hs : s.jobs.Numbered) (n : Fin 128) : Numbers (execFeScOfslRead n s) := by
  refine numbers_of_jobs ?_ hs
  simp -implicitDefEqProofs only [State.inDomain_jobs, State.readOfsl_jobs, implies_true, apply_ite State.jobs, ite_self]

theorem execUartCharacterReceive_numbers {s : State} (hs : s.jobs.Numbered) (p : Fin 16) (ch : Byte) (ferr perr : Bool) :
    Numbers (execUartCharacterReceive p ch ferr perr s) := by
  refine numbers_of_jobs ?_ hs
  simp -implicitDefEqProofs only [State.bump_jobs, State.modUart_jobs, State.uartErr_jobs, State.uartHeard_jobs,
    State.uartParse_jobs, apply_ite State.jobs, ite_self]

theorem execUartBreak_numbers {s : State} (hs : s.jobs.Numbered) (p : Fin 16) : Numbers (execUartBreak p s) := by
  refine numbers_of_jobs ?_ hs
  simp -implicitDefEqProofs only [State.bump_jobs, State.modUart_jobs, State.uartErr_jobs, apply_ite State.jobs, ite_self]

theorem execUartDataRead_numbers {s : State} (hs : s.jobs.Numbered) (p : Fin 16) : Numbers (execUartDataRead p s) := by
  refine numbers_of_jobs ?_ hs
  simp only [State.inDomain_jobs, State.uartRead_jobs, implies_true]

theorem execHelloSend_numbers {s : State} (hs : s.jobs.Numbered) (p : Fin 4) : Numbers (execHelloSend p s) := by
  refine numbers_of_jobs ?_ hs
  simp -implicitDefEqProofs only [State.advanceTo_jobs, State.modNet_jobs, State.sendPlain_jobs, apply_ite State.jobs, ite_self]

theorem execPeerDetach_numbers {s : State} (hs : s.jobs.Numbered) (n : Fin 512) : Numbers (execPeerDetach n s) := by
  refine numbers_of_jobs ?_ hs
  simp only [State.advanceTo_jobs, State.putPeer_jobs, State.zalEvt_jobs, apply_ite State.jobs, ite_self]

/-! Machine/Filter: the signal filters. -/

theorem execSyncBallEdge_numbers {s : State} (hs : s.jobs.Numbered) : Numbers (execSyncBallEdge s) := by
  refine numbers_of_jobs ?_ hs
  simp -implicitDefEqProofs only [State.setFlag_jobs, State.syncReset_jobs, apply_ite State.jobs, ite_self]

theorem execSyncAtReached_numbers {s : State} (hs : s.jobs.Numbered) : Numbers (execSyncAtReached s) := by
  refine numbers_of_jobs ?_ hs
  simp -implicitDefEqProofs only [State.advanceBy_jobs, State.setFlag_jobs, State.syncReset_jobs, apply_ite State.jobs, ite_self]

theorem execProofingDone_numbers {s : State} (hs : s.jobs.Numbered) (n : Fin 24) (own pair : List Bool) :
    Numbers (execProofingDone n own pair s) := by
  refine numbers_of_jobs ?_ hs
  simp -implicitDefEqProofs only [State.dsfSample_jobs, apply_ite State.jobs, ite_self]

theorem execRmsBlockEnd_numbers {s : State} (hs : s.jobs.Numbered) (n : Fin 24) (own pair : List Bool) :
    Numbers (execRmsBlockEnd n own pair s) := by
  refine numbers_of_jobs ?_ hs
  simp only [State.dsfSample_jobs, apply_ite State.jobs, ite_self]

theorem execPrimeEnd_numbers {s : State} (hs : s.jobs.Numbered) (n : Fin 24) (own pair : List Bool) :
    Numbers (execPrimeEnd n own pair s) := by
  refine numbers_of_jobs ?_ hs
  simp -implicitDefEqProofs only [State.dsfSample_jobs, apply_ite State.jobs, ite_self]

theorem execFadeEnd_numbers {s : State} (hs : s.jobs.Numbered) (n : Fin 24) (own pair : List Bool) :
    Numbers (execFadeEnd n own pair s) := by
  refine numbers_of_jobs ?_ hs
  simp -implicitDefEqProofs only [State.dsfSample_jobs, apply_ite State.jobs, ite_self]

theorem execDataStuck_numbers {s : State} (hs : s.jobs.Numbered) (n : Fin 24) : Numbers (execDataStuck n s) := by
  refine numbers_of_jobs ?_ hs
  simp -implicitDefEqProofs only [State.setFlag_jobs, State.unproof_jobs, apply_ite State.jobs, ite_self]

theorem execDataActive_numbers {s : State} (hs : s.jobs.Numbered) (n : Fin 24) : Numbers (execDataActive n s) := by
  refine numbers_of_jobs ?_ hs
  simp -implicitDefEqProofs only [State.modDsf_jobs, State.proofAll_jobs, State.setFlag_jobs, apply_ite State.jobs, ite_self]

theorem execDsfTslRead_numbers {s : State} (hs : s.jobs.Numbered) (n : Fin 24) : Numbers (execDsfTslRead n s) := by
  refine numbers_of_jobs ?_ hs
  simp -implicitDefEqProofs only [State.inDomain_jobs, State.set_jobs, implies_true]

/-! Machine/Lattice: the safety lattice. -/

theorem execChannelTrip_numbers {s : State} (hs : s.jobs.Numbered) (c : Fin 24) (x : LatIn) : Numbers
    (execChannelTrip c x s) := by
  unfold execChannelTrip
  exact ite_numbers (by rwa [State.latticeEval_jobs]) hs s

theorem execDegradedTimeout_numbers {s : State} (hs : s.jobs.Numbered) : Numbers (execDegradedTimeout s) := by
  refine numbers_of_jobs ?_ hs
  simp -implicitDefEqProofs only [State.advanceTo_jobs, State.kzTimers_jobs, apply_ite State.jobs, ite_self]

theorem execDegradedClear_numbers {s : State} (hs : s.jobs.Numbered) : Numbers (execDegradedClear s) := by
  refine numbers_of_jobs ?_ hs
  simp -implicitDefEqProofs only [State.advanceTo_jobs, State.kzTimers_jobs, apply_ite State.jobs, ite_self]

theorem execAutoarm_numbers {s : State} (hs : s.jobs.Numbered) : Numbers (execAutoarm s) := by
  refine numbers_of_jobs ?_ hs
  simp -implicitDefEqProofs only [State.autoArm_jobs, apply_ite State.jobs, ite_self]

theorem execSafetyCoreHeartbeat_numbers {s : State} (hs : s.jobs.Numbered) : Numbers (execSafetyCoreHeartbeat s) := by
  refine numbers_of_jobs ?_ hs
  simp -implicitDefEqProofs only [State.autoArm_jobs, State.modKz_jobs, State.setFlag_jobs, State.switches_jobs,
    apply_ite State.jobs, ite_self]

theorem execSafetyCoreTimeout_numbers {s : State} (hs : s.jobs.Numbered) : Numbers (execSafetyCoreTimeout s) := by
  refine numbers_of_jobs ?_ hs
  simp -implicitDefEqProofs only [State.advanceTo_jobs, State.kzLatch_jobs, State.modKz_jobs, State.switches_jobs,
    apply_ite State.jobs, ite_self]

theorem execDisagreeFault_numbers {s : State} (hs : s.jobs.Numbered) (x : LatIn) : Numbers (execDisagreeFault x s) := by
  refine numbers_of_jobs ?_ hs
  simp -implicitDefEqProofs only [State.latticeEval_jobs, apply_ite State.jobs, ite_self]

theorem execReadbackFault_numbers {s : State} (hs : s.jobs.Numbered) (x : LatIn) : Numbers (execReadbackFault x s) := by
  refine numbers_of_jobs ?_ hs
  simp -implicitDefEqProofs only [State.latticeEval_jobs, apply_ite State.jobs, ite_self]

theorem execOscFault_numbers {s : State} (hs : s.jobs.Numbered) : Numbers (execOscFault s) := by
  refine numbers_of_jobs ?_ hs
  simp -implicitDefEqProofs only [State.advanceBy_jobs, State.autoArm_jobs, State.kzLatch_jobs, State.switches_jobs,
    apply_ite State.jobs, ite_self]

theorem execOffPulseTest_numbers {s : State} (hs : s.jobs.Numbered) (k : Fin 16) (low high : Bool) :
    Numbers (execOffPulseTest k low high s) := by
  refine numbers_of_jobs ?_ hs
  simp -implicitDefEqProofs only [State.advanceBy_jobs, State.advanceTo_jobs, State.kzLatch_jobs, State.modKz_jobs,
    State.setSwitch_jobs, State.switches_jobs, apply_ite State.jobs, ite_self]

theorem execSafeInputChange_numbers {s : State} (hs : s.jobs.Numbered) (i : Fin 16) (level : Bool) :
    Numbers (execSafeInputChange i level s) := by
  refine numbers_of_jobs ?_ hs
  simp -implicitDefEqProofs only [State.set_jobs, State.siPairs_jobs, State.switches_jobs, apply_ite State.jobs, ite_self]

theorem execSidiscFault_numbers {s : State} (hs : s.jobs.Numbered) (p : Fin 8) : Numbers (execSidiscFault p s) := by
  refine numbers_of_jobs ?_ hs
  dsimp only
  split <;> simp -implicitDefEqProofs only [State.advanceTo_jobs, State.set_jobs, State.setFaults_jobs, State.switches_jobs]

theorem execSrtTrip_numbers {s : State} (hs : s.jobs.Numbered) : Numbers (execSrtTrip s) := by
  refine numbers_of_jobs ?_ hs
  simp -implicitDefEqProofs only [State.srtBlock_jobs, apply_ite State.jobs, ite_self]

theorem execGraceEnd_numbers {s : State} (hs : s.jobs.Numbered) (c : Fin 24) : Numbers (execGraceEnd c s) := by
  refine numbers_of_jobs ?_ hs
  dsimp only
  split <;> simp only [State.advanceTo_jobs, State.kzSectors_jobs, State.kzSltGrace_jobs]

theorem execAuthTimeout_numbers {s : State} (hs : s.jobs.Numbered) : Numbers (execAuthTimeout s) := by
  refine numbers_of_jobs ?_ hs
  split <;> simp only [State.advanceTo_jobs, State.switches_jobs, apply_ite State.jobs, ite_self]

/-! Machine/Power: domains and resets. -/

theorem execRefclkWindow_numbers {s : State} (hs : s.jobs.Numbered) (edges : Nat) : Numbers (execRefclkWindow edges s) := by
  refine numbers_of_jobs ?_ hs
  simp only [State.advanceBy_jobs, State.bump_jobs, State.event_jobs, State.modPwr_jobs, State.setFlag_jobs,
    State.shadowHeld_jobs, apply_ite State.jobs, ite_self]

theorem execSafeOscWindow_numbers {s : State} (hs : s.jobs.Numbered) (cycles : Nat) : Numbers (execSafeOscWindow cycles s) := by
  refine numbers_of_jobs ?_ hs
  simp -implicitDefEqProofs only [State.event_jobs, State.setFlag_jobs, apply_ite State.jobs, ite_self]

theorem execPinReset_numbers {s : State} (hs : s.jobs.Numbered) (ns : Nat) : Numbers (execPinReset ns s) := by
  refine numbers_ends ?_
  simp -implicitDefEqProofs only [State.deviceReset_numbered, apply_ite State.jobs, ite_self, apply_ite Jobs.Numbered, hs]

theorem execPartnerForcedReset_numbers {s : State} (hs : s.jobs.Numbered) (ns : Nat) : Numbers (execPartnerForcedReset ns s) := by
  refine numbers_ends ?_
  simp -implicitDefEqProofs only [State.deviceReset_numbered, apply_ite State.jobs, ite_self, apply_ite Jobs.Numbered, hs]

theorem execWatchdogExpire_numbers {s : State} (hs : s.jobs.Numbered) : Numbers (execWatchdogExpire s) := by
  refine numbers_ends ?_
  split <;> simp only [State.deviceReset_numbered, apply_ite State.jobs, ite_self, apply_ite Jobs.Numbered, hs]

theorem execPrstOutPulseEnd_numbers {s : State} (hs : s.jobs.Numbered) : Numbers (execPrstOutPulseEnd s) := by
  refine numbers_of_jobs ?_ hs
  simp -implicitDefEqProofs only [State.advanceBy_jobs, State.emit_jobs, State.modPwr_jobs, apply_ite State.jobs, ite_self]

theorem execDeepWake_numbers {s : State} (hs : s.jobs.Numbered) (src : Fin 3) : Numbers (execDeepWake src s) := by
  refine numbers_ends ?_
  simp -implicitDefEqProofs only [State.advanceBy_jobs, State.deviceReset_numbered, apply_ite State.jobs, ite_self,
    apply_ite Jobs.Numbered, hs]

theorem execScrubBurst_numbers {s : State} (hs : s.jobs.Numbered) (corrected : Bool) : Numbers (execScrubBurst corrected s) := by
  refine numbers_of_jobs ?_ hs
  simp -implicitDefEqProofs only [State.advanceTo_jobs, State.pmu_jobs, State.setFlag_jobs, apply_ite State.jobs, ite_self]

theorem execScrubCapApply_numbers {s : State} (hs : s.jobs.Numbered) : Numbers (execScrubCapApply s) :=
  scrub_numbers (State.advanceTo_jobs ..) hs s _

/-! Machine/Jobs: the solver fabric. -/

theorem execSubmitHoldRelease_numbers {s : State} (hs : s.jobs.Numbered) : Numbers (execSubmitHoldRelease s) := by
  unfold execSubmitHoldRelease
  split
  · exact numbers_ends hs
  next x _ =>
    have h₁ : (s.modJobs fun q => { q with held := q.held.erase x }).jobs.Numbered := hs.of_idents rfl rfl
    exact heldTaken_numbers h₁ s x

theorem execJobDispatch_numbers {s : State} (hs : s.jobs.Numbered) : Numbers (execJobDispatch s) := by
  refine numbers_ends (foldl_numbered (fun t e ht => ?_) _ hs)
  split
  · exact ht
  · split
    · exact ht
    · exact State.startJob_numbered ht ..

theorem execJobCheckPoint_numbers {s : State} (hs : s.jobs.Numbered) (i : Nat) (c : CheckPoint) :
    Numbers (execJobCheckPoint i c s) := by
  refine numbers_ends ?_
  split
  · exact hs
  next j _ =>
    refine ite_numbered hs ?_
    have hb := s.scratch_jobs j c.corr c.ecc
    split
    next s₁ bad h₁ =>
    rw [h₁] at hb
    dsimp only
    have h₂ : (s₁.factorWrite (s₁.sparseRead j)).jobs.Numbered := by rwa [State.factorWrite_jobs, hb]
    have put (k : Job) := State.putJob_numbered h₂ k
    refine ite_numbered (put _) <| ite_numbered (put _) <| ite_numbered (put _) <| ite_numbered (put _) <|
      ite_numbered (put _) ?_
    split
    · exact put _
    · exact ite_numbered (State.suspend_numbered h₂ _) (put _)

/-! Machine/Estimator: the estimator. -/

theorem execSurveyEpochStore_numbers {s : State} (hs : s.jobs.Numbered) : Numbers (execSurveyEpochStore s) := by
  refine numbers_of_jobs ?_ hs
  simp -implicitDefEqProofs only [State.set_jobs, State.setFlag_jobs, State.storeBytes_jobs, apply_ite State.jobs, ite_self]

theorem execSurveyResubmit_numbers {s : State} (hs : s.jobs.Numbered) : Numbers (execSurveyResubmit s) := by
  refine numbers_ends ?_
  simp -implicitDefEqProofs only [State.survSubmit_numbered, apply_ite State.jobs, ite_self, apply_ite Jobs.Numbered, hs]

/-! Machine/StationKeeping: station keeping. -/

theorem execJoystickTimeout_numbers {s : State} (hs : s.jobs.Numbered) : Numbers (execJoystickTimeout s) := by
  refine numbers_of_jobs ?_ hs
  simp -implicitDefEqProofs only [State.advanceTo_jobs, State.modSk_jobs, State.setFlag_jobs, apply_ite State.jobs, ite_self]

/-! Machine/Pair: the pair. -/

theorem execGnssRefresh_numbers {s : State} (hs : s.jobs.Numbered) : Numbers (execGnssRefresh s) := by
  refine numbers_ends ?_
  simp -implicitDefEqProofs only [State.gnRefresh_numbered, apply_ite State.jobs, ite_self, apply_ite Jobs.Numbered, hs]

theorem execGnssRefreshEnd_numbers {s : State} (hs : s.jobs.Numbered) : Numbers (execGnssRefreshEnd s) := by
  refine numbers_ends ?_
  simp -implicitDefEqProofs only [State.gnRefresh_numbered, apply_ite State.jobs, ite_self, apply_ite Jobs.Numbered, hs]

theorem execHeartbeatSend_numbers {s : State} (hs : s.jobs.Numbered) : Numbers (execHeartbeatSend s) := by
  refine numbers_of_jobs ?_ hs
  simp -implicitDefEqProofs only [State.advanceTo_jobs, State.emit_jobs, State.modHa_jobs, State.sendPlain_jobs,
    apply_ite State.jobs, ite_self]

theorem execHeartbeatReceive_numbers {s : State} (hs : s.jobs.Numbered) (line : Fin 2) (b : BitVec 72) :
    Numbers (execHeartbeatReceive line b s) := by
  refine numbers_ends ?_
  simp only [State.frameIn_jobs, State.heartbeat_numbered, apply_ite State.jobs, ite_self, apply_ite Jobs.Numbered, hs]

theorem execCheckpointSend_numbers {s : State} (hs : s.jobs.Numbered) : Numbers (execCheckpointSend s) := by
  refine numbers_of_jobs ?_ hs
  simp -implicitDefEqProofs only [State.advanceTo_jobs, State.ckEmit_jobs, State.drawn_jobs, State.modHa_jobs, State.modNet_jobs,
    apply_ite State.jobs, ite_self]

theorem execCheckpointSendComplete_numbers {s : State} (hs : s.jobs.Numbered) : Numbers (execCheckpointSendComplete s) := by
  refine numbers_of_jobs ?_ hs
  split
  · rw [apply_ite State.jobs, State.ckSent_jobs, ite_self]
  · rfl

theorem execCheckpointFrameReceive_numbers {s : State} (hs : s.jobs.Numbered) (hb : BitVec 72) (frag nfrag : Nat) (cyc : Word)
    (total ns : Nat) (cut crc : Bool) (data : Ckpt) :
    Numbers (execCheckpointFrameReceive hb frag nfrag cyc total ns cut crc data s) := by
  refine numbers_ends ?_
  extract_lets s₁ s₂
  have h₁ : s₁.jobs.Numbered := by rwa [State.frameIn_jobs]
  have h₂ : s₂.jobs.Numbered := ite_numbered (State.heartbeat_numbered h₁ ..) h₁
  refine ite_numbered h₁ (ite_numbered h₂ ?_)
  split
  · rwa [State.ckFrame_jobs]
  · exact ite_numbered (by rwa [State.ckFrame_jobs]) (ite_numbered (by rwa [State.ckFrame_jobs, State.ckBad_jobs]) h₂)

theorem execHeartbeatPeriodEnd_numbers {s : State} (hs : s.jobs.Numbered) : Numbers (execHeartbeatPeriodEnd s) := by
  refine numbers_ends ?_
  simp -implicitDefEqProofs only [State.periodEnd_numbered, apply_ite State.jobs, ite_self, apply_ite Jobs.Numbered, hs]

theorem execLineLost_numbers {s : State} (hs : s.jobs.Numbered) (line : Fin 2) : Numbers (execLineLost line s) := by
  refine numbers_ends ?_
  simp -implicitDefEqProofs only [State.periodEnd_numbered, apply_ite State.jobs, ite_self, apply_ite Jobs.Numbered, hs]

theorem execLineReturn_numbers {s : State} (hs : s.jobs.Numbered) (line : Fin 2) : Numbers (execLineReturn line s) := by
  refine numbers_ends ?_
  simp -implicitDefEqProofs only [State.periodEnd_numbered, apply_ite State.jobs, ite_self, apply_ite Jobs.Numbered, hs]

theorem execBothLinesSilent_numbers {s : State} (hs : s.jobs.Numbered) : Numbers (execBothLinesSilent s) := by
  refine numbers_ends ?_
  simp -implicitDefEqProofs only [State.periodEnd_numbered, apply_ite State.jobs, ite_self, apply_ite Jobs.Numbered, hs]

theorem execHaTdlRead_numbers {s : State} (hs : s.jobs.Numbered) : Numbers (execHaTdlRead s) := by
  refine numbers_of_jobs ?_ hs
  simp -implicitDefEqProofs only [State.inDomain_jobs, State.set_jobs, implies_true]

theorem execHaLhblRead_numbers {s : State} (hs : s.jobs.Numbered) : Numbers (execHaLhblRead s) := by
  refine numbers_of_jobs ?_ hs
  simp -implicitDefEqProofs only [State.inDomain_jobs, State.set_jobs, implies_true]

/-! Machine/Block: the block engines. -/

theorem execBeTrellRead_numbers {s : State} (hs : s.jobs.Numbered) (n : Fin 16) : Numbers (execBeTrellRead n s) := by
  refine numbers_of_jobs ?_ hs
  simp only [State.inDomain_jobs, State.trellRead_jobs, implies_true]

/-! Machine/CanBus: the CAN buses. -/

theorem execCanColumnOpen_numbers {s : State} (hs : s.jobs.Numbered) (c : Fin 4) (idle : Nat) :
    Numbers (execCanColumnOpen c idle s) := by
  refine numbers_of_jobs ?_ hs
  simp -implicitDefEqProofs only [State.canColumn_jobs, apply_ite State.jobs, ite_self]

theorem execCanFrameReceive_numbers {s : State} (hs : s.jobs.Numbered) (c : Fin 4) (ident : BitVec 29) (ide fdf : Bool)
    (data : List Byte) (ago : Nat) : Numbers (execCanFrameReceive c ident ide fdf data ago s) := by
  refine numbers_of_jobs ?_ hs
  simp -implicitDefEqProofs only [State.canFrame_jobs, apply_ite State.jobs, ite_self]

theorem execCanRemoteFrameReceive_numbers {s : State} (hs : s.jobs.Numbered) (c : Fin 4) (ident : BitVec 29) (ide : Bool)
    (dlc : Fin 16) (ago : Nat) : Numbers (execCanRemoteFrameReceive c ident ide dlc ago s) := by
  refine numbers_of_jobs ?_ hs
  simp -implicitDefEqProofs only [State.canHeard_jobs, State.canStore_jobs, apply_ite State.jobs, ite_self]

theorem execCanRxStatusRead_numbers {s : State} (hs : s.jobs.Numbered) (c : Fin 4) (b : Fin 64) :
    Numbers (execCanRxStatusRead c b s) := by
  refine numbers_of_jobs ?_ hs
  simp only [State.canRxRead_jobs, State.inDomain_jobs, implies_true]

theorem execCanAttemptEnd_numbers {s : State} (hs : s.jobs.Numbered) (c : Fin 4) (dur : Nat) (how : Fin 5) :
    Numbers (execCanAttemptEnd c dur how s) := by
  refine numbers_of_jobs ?_ hs
  simp -implicitDefEqProofs only [State.canAttempt_jobs, apply_ite State.jobs, ite_self]

theorem execBusOffRecovery_numbers {s : State} (hs : s.jobs.Numbered) (c : Fin 4) : Numbers (execBusOffRecovery c s) := by
  refine numbers_of_jobs ?_ hs
  simp -implicitDefEqProofs only [State.advanceBy_jobs, State.greet_jobs, State.modCan_jobs, State.set_jobs,
    apply_ite State.jobs, ite_self]

theorem execReferenceFrameReceive_numbers {s : State} (hs : s.jobs.Numbered) (c : Fin 4) (data : List Byte) (ago : Nat) :
    Numbers (execReferenceFrameReceive c data ago s) := by
  refine numbers_of_jobs ?_ hs
  simp -implicitDefEqProofs only [State.canFrame_jobs, apply_ite State.jobs, ite_self]

theorem execRefLost_numbers {s : State} (hs : s.jobs.Numbered) (c : Fin 4) : Numbers (execRefLost c s) := by
  refine numbers_of_jobs ?_ hs
  simp -implicitDefEqProofs only [State.advanceTo_jobs, State.modCan_jobs, State.setFlag_jobs, apply_ite State.jobs, ite_self]

theorem execCanBusError_numbers {s : State} (hs : s.jobs.Numbered) (c : Fin 4) (dominant : Bool) :
    Numbers (execCanBusError c dominant s) := by
  refine numbers_of_jobs ?_ hs
  simp -implicitDefEqProofs only [State.bump_jobs, State.canState_jobs, State.set_jobs, apply_ite State.jobs, ite_self]

/-! Machine/Alloc: the allocator. -/

theorem execQpLaunch_numbers {s : State} (hs : s.jobs.Numbered) : Numbers (execQpLaunch s) := by
  refine numbers_ends ?_
  simp -implicitDefEqProofs only [State.advanceTo_jobs, State.alcShadow_jobs, State.event_jobs, State.setFlag_jobs,
    State.startChain_numbered, apply_ite State.jobs, ite_self, apply_ite Jobs.Numbered, hs]

theorem execCommandLaunch_numbers {s : State} (hs : s.jobs.Numbered) : Numbers (execCommandLaunch s) := by
  refine numbers_ends ?_
  simp -implicitDefEqProofs only [State.masterLaunch_numbered, apply_ite State.jobs, ite_self, apply_ite Jobs.Numbered, hs]

theorem execOutputMissDemote_numbers {s : State} (hs : s.jobs.Numbered) : Numbers (execOutputMissDemote s) := by
  refine numbers_ends ?_
  simp -implicitDefEqProofs only [State.masterLaunch_numbered, apply_ite State.jobs, ite_self, apply_ite Jobs.Numbered, hs]

theorem execHeadLaunch_numbers {s : State} (hs : s.jobs.Numbered) : Numbers (execHeadLaunch s) := by
  refine numbers_of_jobs ?_ hs
  simp -implicitDefEqProofs only [State.headLaunch_jobs, apply_ite State.jobs, ite_self]

theorem execHeadStop_numbers {s : State} (hs : s.jobs.Numbered) : Numbers (execHeadStop s) := by
  refine numbers_of_jobs ?_ hs
  simp -implicitDefEqProofs only [State.headLaunch_jobs, apply_ite State.jobs, ite_self]

/-! Machine/Twin: the twin networks. -/

theorem execHelloReceive_numbers {s : State} (hs : s.jobs.Numbered) (p : Fin 4) (b : List Byte) :
    Numbers (execHelloReceive p b s) := by
  refine numbers_of_jobs ?_ hs
  simp only [State.bump_jobs, State.frameIn_jobs, State.helloFrame_jobs, apply_ite State.jobs, ite_self]

theorem execTwinCopyReceive_numbers {s : State} (hs : s.jobs.Numbered) (p : Fin 4) (b : List Byte) :
    Numbers (execTwinCopyReceive p b s) := by
  refine numbers_ends ?_
  simp only [State.bump_jobs, State.frameIn_jobs, State.twinCopy_numbered, apply_ite State.jobs, ite_self,
    apply_ite Jobs.Numbered, hs]

theorem execTwinWinExpire_numbers {s : State} (hs : s.jobs.Numbered) : Numbers (execTwinWinExpire s) := by
  refine numbers_ends ?_
  split <;> simp only [State.advanceTo_jobs, State.expire_numbered, hs]

theorem execTermRelay_numbers {s : State} (hs : s.jobs.Numbered) : Numbers (execTermRelay s) := by
  refine numbers_of_jobs ?_ hs
  split <;> simp only [State.advanceTo_jobs, State.modHa_jobs, State.sendTwin_jobs]

theorem execTelemetrySend_numbers {s : State} (hs : s.jobs.Numbered) (k : Fin 8) : Numbers (execTelemetrySend k s) := by
  refine numbers_of_jobs ?_ hs
  simp only [State.advanceTo_jobs, State.modNet_jobs, State.sendPlain_jobs, foldl_jobs, implies_true, apply_ite State.jobs,
    ite_self]

theorem execArpRequest_numbers {s : State} (hs : s.jobs.Numbered) (p : Fin 5) (ip : Word) : Numbers (execArpRequest p ip s) := by
  refine numbers_of_jobs ?_ hs
  simp only [State.bump_jobs, State.frameIn_jobs, State.sendPlain_jobs, apply_ite State.jobs, ite_self]

theorem execLinkChange_numbers {s : State} (hs : s.jobs.Numbered) (p : Fin 5) (up : Bool) (speed : Fin 3) :
    Numbers (execLinkChange p up speed s) := by
  refine numbers_of_jobs ?_ hs
  simp -implicitDefEqProofs only [State.event_jobs, State.set_jobs, State.setFlag_jobs, apply_ite State.jobs, ite_self]

/-! Machine/Cycle: the cycle. -/

theorem execCheckpointAbandon_numbers {s : State} (hs : s.jobs.Numbered) : Numbers (execCheckpointAbandon s) := by
  refine numbers_ends ?_
  split <;> simp only [State.cycleTick_numbered, apply_ite State.jobs, ite_self, apply_ite Jobs.Numbered, hs]

theorem execFirstCycle_numbers {s : State} (hs : s.jobs.Numbered) : Numbers (execFirstCycle s) := by
  refine numbers_ends ?_
  simp -implicitDefEqProofs only [State.cycleTick_numbered, apply_ite State.jobs, ite_self, apply_ite Jobs.Numbered, hs]

theorem execDrExpire_numbers {s : State} (hs : s.jobs.Numbered) : Numbers (execDrExpire s) := by
  refine numbers_ends ?_
  split <;> simp only [State.cycleTick_numbered, apply_ite State.jobs, ite_self, apply_ite Jobs.Numbered, hs]

theorem execQualityUpgrade_numbers {s : State} (hs : s.jobs.Numbered) : Numbers (execQualityUpgrade s) := by
  refine numbers_ends ?_
  simp -implicitDefEqProofs only [State.cycleTick_numbered, apply_ite State.jobs, ite_self, apply_ite Jobs.Numbered, hs]

theorem execSysCycT0lRead_numbers {s : State} (hs : s.jobs.Numbered) : Numbers (execSysCycT0lRead s) := by
  refine numbers_of_jobs ?_ hs
  simp only [State.inDomain_jobs, State.readT0_jobs, implies_true]

theorem execProjectionPhase_numbers {s : State} (hs : s.jobs.Numbered) : Numbers (execProjectionPhase s) := by
  refine numbers_ends ?_
  simp -implicitDefEqProofs only [State.advanceTo_jobs, State.modEst_jobs, State.submitInternal_numbered, apply_ite State.jobs,
    ite_self, apply_ite Jobs.Numbered, hs]

theorem execEstimatorStart_numbers {s : State} (hs : s.jobs.Numbered) : Numbers (execEstimatorStart s) := by
  refine numbers_ends ?_
  simp -implicitDefEqProofs only [State.advanceTo_jobs, State.estStart_numbered, apply_ite State.jobs, ite_self,
    apply_ite Jobs.Numbered, hs]

theorem execSpeTrip_numbers {s : State} (hs : s.jobs.Numbered) : Numbers (execSpeTrip s) := by
  refine numbers_ends ?_
  simp -implicitDefEqProofs only [State.estimatePublish_numbered, apply_ite State.jobs, ite_self, apply_ite Jobs.Numbered, hs]

theorem execAssignLaunch_numbers {s : State} (hs : s.jobs.Numbered) : Numbers (execAssignLaunch s) := by
  refine numbers_ends ?_
  simp -implicitDefEqProofs only [State.advanceTo_jobs, State.modTrk_jobs, State.submitInternal_numbered, apply_ite State.jobs,
    ite_self, apply_ite Jobs.Numbered, hs]

/-! Machine/Complete: what a finished job causes. -/

theorem execSurveyTimeout_numbers {s : State} (hs : s.jobs.Numbered) : Numbers (execSurveyTimeout s) := by
  unfold execSurveyTimeout
  split
  · exact numbers_ends hs
  next t _ =>
    exact surveyTimedOut_numbers (s := s.advanceTo (t + 3000000000)) (by rwa [State.advanceTo_jobs]) s

theorem execJobComplete_numbers {s : State} (hs : s.jobs.Numbered) (i corr : Nat) (ecc : Bool) :
    Numbers (execJobComplete i corr ecc s) := by
  refine numbers_ends ?_
  split
  · exact hs
  next j _ =>
    refine ite_numbered hs ?_
    split
    · split
      · exact hs
      · exact State.finishJob_numbered hs ..
    · have hx : (if j.kind = 4 then s.scratch j corr ecc else (s, false)).1.jobs = s.jobs := by
        rw [apply_ite Prod.fst, apply_ite State.jobs, State.scratch_jobs, ite_self]
      split
      next s₁ bad h₁ =>
      rw [h₁] at hx
      have done (status reason : Nat) : (s₁.finishJob j status reason none).jobs.Numbered :=
        State.finishJob_numbered (by rwa [hx]) ..
      refine ite_numbered (done _ _) ?_
      split
      · exact done _ _
      · exact ite_numbered (done _ _) <| ite_numbered (done _ _) <|
          ite_numbered (State.kfEnd_numbered (by rwa [hx]) j) (done _ _)

theorem execJobDelayed_numbers {s : State} (hs : s.jobs.Numbered) (i corr : Nat) (ecc : Bool) :
    Numbers (execJobDelayed i corr ecc s) := by
  refine numbers_ends ?_
  split <;> simp only [State.atDeadline_jobs, State.endSuspended_numbered, State.finishJob_numbered, apply_ite State.jobs,
    ite_self, apply_ite Jobs.Numbered, hs]

theorem execJobResume_numbers {s : State} (hs : s.jobs.Numbered) (i corr : Nat) (ecc : Bool) :
    Numbers (execJobResume i corr ecc s) := by
  refine numbers_ends ?_
  split <;> simp only [State.advanceTo_jobs, State.scratch_jobs, State.showJobs_jobs, State.endSuspended_numbered,
    State.finishJob_numbered, State.putJob_numbered, apply_ite State.jobs, ite_self, apply_ite Jobs.Numbered, hs]

theorem execKfDeadlineAbort_numbers {s : State} (hs : s.jobs.Numbered) (i : Nat) : Numbers (execKfDeadlineAbort i s) := by
  refine numbers_ends ?_
  split <;> simp only [State.atDeadline_jobs, State.finishJob_numbered, apply_ite State.jobs, ite_self, apply_ite Jobs.Numbered,
    hs]

theorem execTrackCoastExpire_numbers {s : State} (hs : s.jobs.Numbered) (j : Fin 64) : Numbers (execTrackCoastExpire j s) := by
  refine numbers_ends ?_
  split <;> simp only [State.finishJob_numbered, apply_ite State.jobs, ite_self, apply_ite Jobs.Numbered, hs]

/-! Machine/Gnss: the GNSS receiver. -/

theorem execGnssEpoch_numbers {s : State} (hs : s.jobs.Numbered) (g : GnssEpoch) : Numbers (execGnssEpoch g s) := by
  refine numbers_of_jobs ?_ hs
  simp -implicitDefEqProofs only [State.gnssEpoch_jobs, apply_ite State.jobs, ite_self]

theorem execAutoSearch_numbers {s : State} (hs : s.jobs.Numbered) (req dop : Word) : Numbers (execAutoSearch req dop s) := by
  refine numbers_of_jobs ?_ hs
  simp only [State.modGn_jobs, apply_ite State.jobs, ite_self]

theorem execAcqComplete_numbers {s : State} (hs : s.jobs.Numbered) (k : AcqPeak) : Numbers (execAcqComplete k s) := by
  unfold execAcqComplete
  split
  · exact numbers_ends hs
  next q _ =>
    refine numbers_of_jobs ?_ hs
    rw [State.acqNext_jobs]
    generalize hs₁ : (s.advanceTo (q.2.2.1 + acqNs q.1 q.2.1)).pmu 177 = s₁
    have h₁ : s₁.jobs = s.jobs := by rw [← hs₁, State.pmu_jobs, State.advanceTo_jobs]
    generalize (s₁.get F.GN_ACQBUFL_BUF_LO + 2 ^ 32 * s₁.get F.GN_ACQBUFH_BUF_HI) / 4096 * 4096 = buf
    generalize hs₂ : (if s₁.domOn 13 && s₁.inSramOrDram buf 0x800000 then s₁.storeBytes buf (k.snap.take 0x800000) else s₁) = s₂
    have h₂ : s₂.jobs = s.jobs := by rw [← hs₂, apply_ite State.jobs, State.storeBytes_jobs, ite_self, h₁]
    split
    · extract_lets s₄ s₅
      have h₅ : s₅.jobs = s.jobs := by
        rw [State.setWord_jobs, State.set_jobs, State.set_jobs, State.set_jobs, State.modGn_jobs, h₂]
      split
      · split
        · exact h₅
        · rw [State.channelStart_jobs, h₅]
      · exact h₅
    · rw [State.set_jobs, State.modGn_jobs, h₂]

theorem execChannelPullInLock_numbers {s : State} (hs : s.jobs.Numbered) (n : Fin 192) : Numbers (execChannelPullInLock n s) := by
  refine numbers_of_jobs ?_ hs
  simp -implicitDefEqProofs only [State.set_jobs, apply_ite State.jobs, ite_self]

theorem execChannelLockLost_numbers {s : State} (hs : s.jobs.Numbered) (n : Fin 192) : Numbers (execChannelLockLost n s) := by
  refine numbers_of_jobs ?_ hs
  simp only [State.modGn_jobs, State.set_jobs, apply_ite State.jobs, ite_self]

theorem execChannelLostRelease_numbers {s : State} (hs : s.jobs.Numbered) (n : Fin 192) :
    Numbers (execChannelLostRelease n s) := by
  refine numbers_of_jobs ?_ hs
  split
  · rfl
  · split
    · rfl
    · rw [State.channelStop_jobs, State.setFlag_jobs, State.advanceTo_jobs]

theorem execWordRecord_numbers {s : State} (hs : s.jobs.Numbered) (u : WordUnit) : Numbers (execWordRecord u s) := by
  refine numbers_of_jobs ?_ hs
  split
  · rfl
  extract_lets lg w s₀ s₁ now key s₂ s₃ s₄
  have h₁ : s₁.jobs = s.jobs := by
    rw [apply_ite State.jobs, State.set_jobs, State.gnRing_jobs, ite_self]
  have h₂ : s₂.jobs = s.jobs := by
    rw [← h₁]
    simp only [s₂]
    split
    · rw [apply_ite State.jobs, State.modGn_jobs, ite_self]
    · rfl
  have h₃ : s₃.jobs = s.jobs := by
    rw [← h₂]
    simp only [s₃]
    split
    · rw [apply_ite State.jobs, State.modGn_jobs, ite_self]
    · rfl
  have h₄ : s₄.jobs = s.jobs := by
    rw [← h₃]
    simp only [s₄]
    split
    · rw [apply_ite State.jobs, State.leapFrom_jobs, ite_self]
    · rfl
  split
  · exact h₁
  · rw [apply_ite State.jobs, State.modGn_jobs, ite_self, h₄]

theorem execAntennaOpen_numbers {s : State} (hs : s.jobs.Numbered) (a : Fin 2) (ma : Byte) :
    Numbers (execAntennaOpen a ma s) := by
  refine numbers_of_jobs ?_ hs
  simp -implicitDefEqProofs only [State.antenna_jobs, apply_ite State.jobs, ite_self]

theorem execAntennaShort_numbers {s : State} (hs : s.jobs.Numbered) (a : Fin 2) (ma : Byte) :
    Numbers (execAntennaShort a ma s) := by
  refine numbers_of_jobs ?_ hs
  simp -implicitDefEqProofs only [State.advanceBy_jobs, State.antenna_jobs, State.event_jobs, State.set_jobs, State.setFlag_jobs,
    apply_ite State.jobs, ite_self]

theorem execWindbreakSearch_numbers {s : State} (hs : s.jobs.Numbered) (lines : List (Fin 4 × Int × Nat)) :
    Numbers (execWindbreakSearch lines s) := by
  refine numbers_of_jobs ?_ hs
  simp only [State.advanceTo_jobs, State.modGn_jobs, State.wbPath_jobs, foldl_jobs, implies_true, apply_ite State.jobs, ite_self]

theorem execJammingIndicator_numbers {s : State} (hs : s.jobs.Numbered) (levels : List (Int × Int)) :
    Numbers (execJammingIndicator levels s) := by
  refine numbers_of_jobs ?_ hs
  simp only [State.advanceTo_jobs, State.jiPath_jobs, State.modGn_jobs, foldl_jobs, implies_true, apply_ite State.jobs, ite_self]

theorem execGnssTimeSolution_numbers {s : State} (hs : s.jobs.Numbered) (ofs : Int) (sigma : Nat) :
    Numbers (execGnssTimeSolution ofs sigma s) := by
  refine numbers_ends ?_
  simp -implicitDefEqProofs only [State.gnSolution_numbered, apply_ite State.jobs, ite_self, apply_ite Jobs.Numbered, hs]

theorem execGnssTimeLoss_numbers {s : State} (hs : s.jobs.Numbered) : Numbers (execGnssTimeLoss s) := by
  refine numbers_of_jobs ?_ hs
  simp only [State.advanceTo_jobs, State.setGnTq_jobs, State.toHoldover_jobs, apply_ite State.jobs, ite_self]

/-! Machine/Interrupt: the interrupt controller. -/

theorem execInterruptEntry_numbers {s : State} (hs : s.jobs.Numbered) (x : Fin 10) : Numbers (execInterruptEntry x s) := by
  refine numbers_of_jobs ?_ hs
  simp -implicitDefEqProofs only [State.modProc_jobs, State.setFlag_jobs, apply_ite State.jobs, ite_self]

theorem execIcClaim_numbers {s : State} (hs : s.jobs.Numbered) (x : Fin 10) (m : Fin 11) : Numbers (execIcClaim x m s) := by
  refine numbers_of_jobs (State.inDomain_jobs (fun t => ?_) s 1) hs
  split
  · rfl
  · split
    · rw [State.claim_jobs]
    · rw [State.setWord_jobs, State.bump_jobs]

theorem execIcComplete_numbers {s : State} (hs : s.jobs.Numbered) (x : Fin 10) (m : Fin 11) : Numbers (execIcComplete x m s) := by
  refine numbers_of_jobs ?_ hs
  simp only [State.complete_jobs, State.inDomain_jobs, implies_true, apply_ite State.jobs, ite_self]

/-! Machine/Engine: instructions of block code. -/

theorem execTaskTrap_numbers {s : State} (hs : s.jobs.Numbered) (e : Fin 8) (cause : Fin 3) (corr : Nat) :
    Numbers (execTaskTrap e cause corr s) := by
  refine numbers_of_jobs ?_ hs
  split <;> simp only [State.eccCorrected_jobs, State.trapRun_jobs, apply_ite State.jobs, ite_self]

/-! Machine/Runtime: tasks and their copies. -/

theorem execTaskRelease_numbers {s : State} (hs : s.jobs.Numbered) (n : Fin 16) : Numbers (execTaskRelease n s) := by
  refine numbers_of_jobs ?_ hs
  simp -implicitDefEqProofs only [State.release_jobs, apply_ite State.jobs, ite_self]

theorem execInputCopyDone_numbers {s : State} (hs : s.jobs.Numbered) (n : Fin 16) (k : Nat) :
    Numbers (execInputCopyDone n k s) := by
  refine numbers_ends ?_
  split
  · exact hs
  · exact State.copyOn_numbered (fun _ _ ht => by rwa [State.copyInEntry_jobs])
      (fun _ ht => by rwa [State.inputDone_jobs]) hs _ _

theorem execOutputCopyDone_numbers {s : State} (hs : s.jobs.Numbered) (n : Fin 16) (k corr : Nat) :
    Numbers (execOutputCopyDone n k corr s) := by
  refine numbers_ends ?_
  split
  · exact hs
  · exact State.copyOn_numbered (fun _ _ ht => State.copyOutEntry_numbered ht ..)
      (fun _ ht => by rwa [State.outputDone_jobs]) (by rwa [State.eccCorrected_jobs]) _ _

theorem execActivationSwitch_numbers {s : State} (hs : s.jobs.Numbered) : Numbers (execActivationSwitch s) := by
  refine numbers_ends ?_
  split <;> simp only [State.switchStart_jobs, State.switch_numbered, apply_ite State.jobs, ite_self, hs]

theorem execActivationTimeout_numbers {s : State} (hs : s.jobs.Numbered) : Numbers (execActivationTimeout s) := by
  refine numbers_of_jobs ?_ hs
  split <;> simp only [State.advanceTo_jobs, State.cpFinish_jobs, State.modBe_jobs, State.set_jobs, apply_ite State.jobs,
    ite_self]

/-! Machine/Nvm: the non-volatile memory. -/

theorem execImgCommitComplete_numbers {s : State} (hs : s.jobs.Numbered) (fw1 fw2 : Bool) (img : ImageCfg) :
    Numbers (execImgCommitComplete fw1 fw2 img s) := by
  refine numbers_of_jobs ?_ hs
  simp -implicitDefEqProofs only [State.cpFinish_jobs, State.modBe_jobs, State.stageSet_jobs, apply_ite State.jobs, ite_self]

theorem execImgFlashComplete_numbers {s : State} (hs : s.jobs.Numbered) : Numbers (execImgFlashComplete s) := by
  refine numbers_of_jobs ?_ hs
  split <;> simp only [State.cpFinish_jobs, apply_ite State.jobs, ite_self]

theorem execOtpBurnComplete_numbers {s : State} (hs : s.jobs.Numbered) (read : List Byte) :
    Numbers (execOtpBurnComplete read s) := by
  refine numbers_of_jobs ?_ hs
  split <;> simp only [State.cpFinish_jobs, apply_ite State.jobs, ite_self]

theorem execOtpRevokeComplete_numbers {s : State} (hs : s.jobs.Numbered) (read : Byte) :
    Numbers (execOtpRevokeComplete read s) := by
  refine numbers_of_jobs ?_ hs
  split <;> simp only [State.cpFinish_jobs, apply_ite State.jobs, ite_self]

theorem execSelftestComplete_numbers {s : State} (hs : s.jobs.Numbered) (fail : BitVec 16) :
    Numbers (execSelftestComplete fail s) := by
  refine numbers_of_jobs ?_ hs
  split <;> simp only [State.cpFinish_jobs, State.modCp_jobs, State.trkAssign_jobs, apply_ite State.jobs, ite_self]

/-! Machine/Boot: boot and images. -/

theorem execBootStart_numbers {s : State} (hs : s.jobs.Numbered) (straps : BitVec 2) (vpp : Bool) :
    Numbers (execBootStart straps vpp s) := by
  refine numbers_of_jobs ?_ hs
  simp -implicitDefEqProofs only [State.advanceBy_jobs, State.advanceTo_jobs, State.gnWake_jobs, State.modPwr_jobs,
    State.otpLoad_jobs, State.set_jobs, State.setFlag_jobs, State.setOn_jobs, State.showBeDoze_jobs, foldl_jobs, implies_true,
    apply_ite State.jobs, ite_self]

theorem execSlotVerify_numbers {s : State} (hs : s.jobs.Numbered) (us : Fin 3001) (fw1 fw2 : Bool) (img : ImageCfg) :
    Numbers (execSlotVerify us fw1 fw2 img s) := by
  refine numbers_of_jobs ?_ hs
  split
  · rfl
  · split
    · rfl
    · extract_lets s₁ hd why img' why' s₂
      have h₂ : s₂.jobs = s.jobs := by rw [State.advanceBy_jobs, State.dramReady_jobs]
      split
      · rwa [State.modPwr_jobs]
      · split
        · rwa [State.set_jobs]
        · rwa [State.set_jobs]

theorem execFirmwareStart_numbers {s : State} (hs : s.jobs.Numbered) : Numbers (execFirmwareStart s) := by
  refine numbers_of_jobs ?_ hs
  simp -implicitDefEqProofs only [State.advanceBy_jobs, State.kickWdog_jobs, State.modPwr_jobs, apply_ite State.jobs, ite_self]

theorem execSectionsApplied_numbers {s : State} (hs : s.jobs.Numbered) : Numbers (execSectionsApplied s) := by
  refine numbers_ends (ite_numbered hs ?_)
  extract_lets k i hd s₁ s₂ s₃ s₄ s₅
  have h₁ : s₁.jobs.Numbered := by rwa [State.advanceBy_jobs]
  have h₂ : s₂.jobs.Numbered := by
    rw [State.showSig_jobs, State.loadSet_jobs]
    exact State.applyRegs_numbered (State.applyRegs_numbered h₁ ..) ..
  have h₃ : s₃.jobs.Numbered := by
    rw [State.paramLoad_jobs]
    exact State.applyGnss_numbered h₂ _
  have h₄ : s₄.jobs.Numbered := by rwa [State.setFlag_jobs, State.setFlag_jobs, State.set_jobs]
  have h₅ : s₅.jobs.Numbered := by rwa [State.modPwr_jobs, State.set_jobs]
  exact ite_numbered (cycCtrlWrite_numbered h₅ ..) h₅

theorem execDomainOn_numbers {s : State} (hs : s.jobs.Numbered) (d : Fin 14) : Numbers (execDomainOn d s) := by
  refine numbers_ends ?_
  split <;> simp only [State.advanceTo_jobs, State.setOn_jobs, State.gnPower_numbered, State.restore_numbered,
    apply_ite State.jobs, ite_self, apply_ite Jobs.Numbered, hs]

/-! Machine/Code: program sets. -/

theorem execSatn_numbers {s : State} (hs : s.jobs.Numbered) (e : Fin 8) (d a : BitVec 5) (sub : BitVec 4) :
    Numbers (execSatn e d a sub s) := by
  refine State.issue_numbers hs _ fun t n k u c hu => ?_
  split at hu
  · cases hu
  split at hu
  · cases hu
    exact t.drawn_jobs
  · cases hu
    rfl

theorem execSext_numbers {s : State} (hs : s.jobs.Numbered) (e : Fin 8) (d a : BitVec 5) (sub : BitVec 4) :
    Numbers (execSext e d a sub s) := by
  refine State.issue_numbers hs _ fun t n k u c hu => ?_
  split at hu
  · cases hu
  split at hu
  · cases hu
    exact t.drawn_jobs
  · cases hu
    rfl

theorem execZext_numbers {s : State} (hs : s.jobs.Numbered) (e : Fin 8) (d a : BitVec 5) (sub : BitVec 4) :
    Numbers (execZext e d a sub s) := by
  refine State.issue_numbers hs _ fun t n k u c hu => ?_
  split at hu
  · cases hu
  split at hu
  · cases hu
    exact t.drawn_jobs
  · cases hu
    rfl

theorem execLdk_numbers {s : State} (hs : s.jobs.Numbered) (e : Fin 8) (a : BitVec 5) (imm : BitVec 19) :
    Numbers (execLdk e a imm s) := by
  refine State.issue_numbers hs _ fun t n k u c hu => ?_
  dsimp only at hu
  split at hu
  · cases hu
  · cases hu
    rfl

theorem execFrnd_numbers {s : State} (hs : s.jobs.Numbered) (e : Fin 8) (d a : BitVec 5) (sub : BitVec 4) :
    Numbers (execFrnd e d a sub s) := by
  refine State.issue_numbers hs _ fun t n k u c hu => ?_
  split at hu
  · cases hu
  · cases hu
    rfl

theorem execLea_numbers {s : State} (hs : s.jobs.Numbered) (e : Fin 8) (d x : BitVec 5) (sp : BitVec 2) (disp : BitVec 12) :
    Numbers (execLea e d x sp disp s) := by
  refine State.issue_numbers hs _ fun t n k u c hu => ?_
  split at hu
  · cases hu
  · cases hu
    rfl

theorem execBr_numbers {s : State} (hs : s.jobs.Numbered) (e : Fin 8) (imm : BitVec 19) :
    Numbers (execBr e imm s) :=
  State.issue_numbers hs _ fun _ _ _ _ _ hu => by cases hu; rfl

theorem execBz_numbers {s : State} (hs : s.jobs.Numbered) (e : Fin 8) (a : BitVec 5) (imm : BitVec 19) :
    Numbers (execBz e a imm s) :=
  State.issue_numbers hs _ fun _ _ _ _ _ hu => by cases hu; rfl

theorem execBnz_numbers {s : State} (hs : s.jobs.Numbered) (e : Fin 8) (a : BitVec 5) (imm : BitVec 19) :
    Numbers (execBnz e a imm s) :=
  State.issue_numbers hs _ fun _ _ _ _ _ hu => by cases hu; rfl

theorem execCall_numbers {s : State} (hs : s.jobs.Numbered) (e : Fin 8) (imm : BitVec 19) : Numbers (execCall e imm s) := by
  refine State.issue_numbers hs _ fun t n k u c hu => ?_
  split at hu
  · cases hu
  · cases hu
    rfl

theorem execCallb_numbers {s : State} (hs : s.jobs.Numbered) (e : Fin 8) (a : BitVec 5) (imm : BitVec 19) :
    Numbers (execCallb e a imm s) := by
  refine State.issue_numbers hs _ fun t n k u c hu => ?_
  split at hu
  · cases hu
  · cases hu
    rfl

theorem execRet_numbers {s : State} (hs : s.jobs.Numbered) (e : Fin 8) : Numbers (execRet e s) := by
  refine State.issue_numbers hs _ fun t n k u c hu => ?_
  split at hu
  · cases hu
  · cases hu
    rfl

theorem execEndRun_numbers {s : State} (hs : s.jobs.Numbered) (e : Fin 8) : Numbers (execEndRun e s) := by
  refine numbers_of_jobs ?_ hs
  split <;> simp -implicitDefEqProofs only [State.endRun_jobs, State.pmu_jobs]

/-! Machine/Port: the commands of the port. -/

theorem execPacketReceive_numbers {s : State} (hs : s.jobs.Numbered) (t : Fin 3) (via : Fin 5) (src : BitVec 48) (b : List Byte) :
    Numbers (execPacketReceive t via src b s) := by
  refine numbers_ends ?_
  simp -implicitDefEqProofs only [State.cpPart_jobs, State.cpDatagram_numbered, State.cpHunt_numbered, apply_ite State.jobs,
    ite_self, apply_ite Jobs.Numbered, hs]

theorem execUartGapTimeout_numbers {s : State} (hs : s.jobs.Numbered) : Numbers (execUartGapTimeout s) := by
  refine numbers_of_jobs ?_ hs
  simp -implicitDefEqProofs only [State.bump_jobs, State.cpPart_jobs, apply_ite State.jobs, ite_self]

theorem execSpiCsRise_numbers {s : State} (hs : s.jobs.Numbered) (sent : Nat) : Numbers (execSpiCsRise sent s) := by
  refine numbers_ends ?_
  simp -implicitDefEqProofs only [State.bump_jobs, State.cpPart_jobs, State.emit_jobs, State.modCp_jobs, State.cpReset_numbered,
    apply_ite State.jobs, ite_self, apply_ite Jobs.Numbered, hs]

theorem exec_numbers {s : State} (h : s.jobs.Numbered) : ∀ i : Instr, Numbers (exec i s)
  | .taskTrap .. => execTaskTrap_numbers h _ _ _
  | .nop .. | .add .. | .sub .. | .addw .. | .subw .. | .mul .. | .mulw .. | .divS .. | .divu .. | .modS .. | .negS ..
  | .absS .. | .minS .. | .maxS .. | .limitS .. | .andB .. | .orB .. | .xorB .. | .notB .. | .shl .. | .shr .. | .sar ..
  | .rol .. | .ror .. | .bitx .. | .bits .. | .selB .. | .ceq .. | .cne .. | .clt .. | .cle .. | .cltu .. | .cleu ..
  | .addi .. | .andi .. | .ori .. | .xori .. | .shli .. | .shri .. | .sari .. | .ceqi .. | .clti .. | .movi .. | .fadd ..
  | .fsub .. | .fmul .. | .fdiv .. | .fsqrt .. | .fma .. | .fnms .. | .fabs .. | .fneg .. | .fmin .. | .fmax .. | .flimit ..
  | .fceq .. | .fclt .. | .fcle .. | .fcun .. | .itof .. | .ftoi .. | .f32 .. | .rdst .. | .clrst .. => State.alu_numbers h _ _
  | .satn .. => execSatn_numbers h _ _ _ _
  | .sext .. => execSext_numbers h _ _ _ _
  | .zext .. => execZext_numbers h _ _ _ _
  | .ldk .. => execLdk_numbers h _ _ _
  | .frnd .. => execFrnd_numbers h _ _ _ _
  | .ld8s .. | .ld8u .. | .ld16s .. | .ld16u .. | .ld32s .. | .ld32u .. | .ld64 .. | .ldf32 .. =>
    State.issue_numbers h _ fun _ _ _ _ _ => loadOp_jobs
  | .st8 .. | .st16 .. | .st32 .. | .st64 .. | .stf32 .. => State.issue_numbers h _ fun _ _ _ _ _ => storeOp_jobs
  | .lea .. => execLea_numbers h _ _ _ _ _
  | .br .. => execBr_numbers h _ _
  | .bz .. => execBz_numbers h _ _ _
  | .bnz .. => execBnz_numbers h _ _ _
  | .call .. => execCall_numbers h _ _
  | .callb .. => execCallb_numbers h _ _ _
  | .ret .. => execRet_numbers h _
  | .endRun .. => execEndRun_numbers h _
  | .ton .. | .tof .. | .tp .. | .rTrig .. | .fTrig .. | .ctu .. | .ctd .. | .ctud .. | .srBlock .. | .rsBlock .. =>
    numbers_of_jobs (State.sysBlock_jobs ..) h
  | .sinF .. | .cosF .. | .tanF .. | .asinF .. | .acosF .. | .atanF .. | .expF .. | .lnF .. | .logF .. =>
    numbers_of_jobs (State.sys1_jobs ..) h
  | .atan2F .. | .exptF .. => numbers_of_jobs (State.sys2_jobs ..) h
  | .registerWrite .. => numbers_ends (State.busWrite_numbered h ..)
  | .readToClear .. => numbers_of_jobs (State.busRead_jobs ..) h
  | .cycleTick => numbers_ends (State.cycleTick_numbered h ..)
  | .checkpointAbandon => execCheckpointAbandon_numbers h
  | .projectionPhase => execProjectionPhase_numbers h
  | .estimatorStart => execEstimatorStart_numbers h
  | .estimatePublish => numbers_ends (State.estimatePublish_numbered h ..)
  | .qpLaunch => execQpLaunch_numbers h
  | .commandLaunch => execCommandLaunch_numbers h
  | .outputMissDemote => execOutputMissDemote_numbers h
  | .checkpointSend => execCheckpointSend_numbers h
  | .assignLaunch => execAssignLaunch_numbers h
  | .runStart .. | .runStop .. => numbers_ends (cycCtrlWrite_numbered h ..)
  | .headLaunch => execHeadLaunch_numbers h
  | .headStop => execHeadStop_numbers h
  | .sentenceReceive .. | .binaryFrameReceive .. | .rtcmFrameReceive .. => numbers_of_jobs (State.uartWhole_jobs ..) h
  | .gstMergeExpire => execGstMergeExpire_numbers h
  | .pgnReceive .. => execPgnReceive_numbers h _ _ _
  | .fastPacketTimeout => execFastPacketTimeout_numbers h
  | .isoRequestReceive .. => execIsoRequestReceive_numbers h _ _ _
  | .addressClaimReceive .. => execAddressClaimReceive_numbers h _ _ _
  | .udpbcDatagram .. => execUdpbcDatagram_numbers h _ _ _ _ _ _ _ _
  | .flowDatagram .. => execFlowDatagram_numbers h _ _ _ _ _
  | .streamEnable .. => execStreamEnable_numbers h _ _ _
  | .streamDisable .. => execStreamDisable_numbers h _ _ _
  | .ofscfgWrite .. => execOfscfgWrite_numbers h _ _ _
  | .feScOfslRead .. => execFeScOfslRead_numbers h _
  | .uartCharacterReceive .. => execUartCharacterReceive_numbers h _ _ _ _
  | .uartBreak .. => execUartBreak_numbers h _
  | .uartDataRead .. => execUartDataRead_numbers h _
  | .uartDataWrite .. => numbers_of_jobs (uartDataWrite_jobs ..) h
  | .helloReceive .. => execHelloReceive_numbers h _ _
  | .helloSend .. => execHelloSend_numbers h _
  | .peerDetach .. => execPeerDetach_numbers h _
  | .commissionWrite .. => numbers_of_jobs (discCtrlWrite_jobs ..) h
  | .fdCommitWrite .. => numbers_of_jobs (fdCommitWrite_jobs ..) h
  | .drExpire => execDrExpire_numbers h
  | .qualityUpgrade => execQualityUpgrade_numbers h
  | .resetEst .. => numbers_of_jobs (estCtrlWrite_jobs ..) h
  | .surveyEpochStore => execSurveyEpochStore_numbers h
  | .surveyRecWrite .. => numbers_of_jobs (survCtrlWrite_jobs ..) h
  | .surveyResubmit => execSurveyResubmit_numbers h
  | .surveyTimeout => execSurveyTimeout_numbers h
  | .trackCoastExpire .. => execTrackCoastExpire_numbers h _
  | .forceAssign .. | .trackerEnable .. => numbers_of_jobs (trkCtrlWrite_jobs ..) h
  | .skCmdMode .. | .skCmdStakeHere .. | .skCmdMove .. | .skCmdHaltMove .. => numbers_of_jobs (skCmdWrite_jobs ..) h
  | .joystickWrite .. => numbers_of_jobs (joyWrite_jobs ..) h
  | .joystickTimeout => execJoystickTimeout_numbers h
  | .jobSubmit .. => numbers_ends (subWrite_numbered h ..)
  | .submitHoldRelease => execSubmitHoldRelease_numbers h
  | .jobDispatch => execJobDispatch_numbers h
  | .jobCheckPoint .. => execJobCheckPoint_numbers h _ _
  | .jobResume .. => execJobResume_numbers h _ _ _
  | .jobComplete .. => execJobComplete_numbers h _ _ _
  | .jobDelayed .. => execJobDelayed_numbers h _ _ _
  | .kfDeadlineAbort .. => execKfDeadlineAbort_numbers h _
  | .jobAbort .. => numbers_ends (jfAbortWith_numbered h ..)
  | .alcCommitWrite .. => numbers_of_jobs (alcCommitWrite_jobs ..) h
  | .srvEnable .. | .srvDisable .. | .srvOpen .. | .srvClose .. | .srvCommit .. => numbers_of_jobs (lreqWrite_jobs ..) h
  | .servoPeriodStart .. => numbers_of_jobs (State.periodStart_jobs ..) h
  | .servoOutput .. => numbers_of_jobs (State.servoOutput_jobs ..) h
  | .servoTick => execServoTick_numbers h
  | .fbHoldExpire .. => execFbHoldExpire_numbers h _
  | .setpointTimeout .. => execSetpointTimeout_numbers h _
  | .plausibilityMismatch .. => execPlausibilityMismatch_numbers h _ _
  | .injGo .. | .injStop .. => numbers_of_jobs (injCtrlWrite_jobs ..) h
  | .injectionTstart .. => execInjectionTstart_numbers h _
  | .injectionEnd .. => execInjectionEnd_numbers h _
  | .captureArm .. | .captureAbort .. => numbers_of_jobs (capCtrlWrite_jobs ..) h
  | .captureTrigger .. => execCaptureTrigger_numbers h _
  | .captureComplete .. => execCaptureComplete_numbers h _
  | .srvTblDataAccess .. => numbers_of_jobs (tblAccess_jobs ..) h
  | .encoderIllegalTransition .. => execEncoderIllegalTransition_numbers h _
  | .encoderIndexPulse .. => execEncoderIndexPulse_numbers h _
  | .ssiFrame .. => execSsiFrame_numbers h _ _ _ _
  | .encoderConfigWrite .. => numbers_of_jobs (encCfgWrite_jobs ..) h
  | .dsfOutputSample .. => numbers_of_jobs (State.dsfSample_jobs ..) h
  | .proofingDone .. => execProofingDone_numbers h _ _ _
  | .rmsBlockEnd .. => execRmsBlockEnd_numbers h _ _ _
  | .dataStuck .. => execDataStuck_numbers h _
  | .dataActive .. => execDataActive_numbers h _
  | .dsfEnable .. | .dsfSrcChange .. => numbers_of_jobs (dsfCfgWrite_jobs ..) h
  | .dsfEnsetWrite .. => numbers_of_jobs (dsfEnsetWrite_jobs ..) h
  | .syncBallEdge => execSyncBallEdge_numbers h
  | .syncArm .. => numbers_of_jobs (syncCtrlWrite_jobs ..) h
  | .syncAtReached => execSyncAtReached_numbers h
  | .bankRequest .. => numbers_of_jobs (bankReqWrite_jobs ..) h
  | .primeEnd .. => execPrimeEnd_numbers h _ _ _
  | .fadeEnd .. => execFadeEnd_numbers h _ _ _
  | .coefWrite .. => numbers_of_jobs (coefAccess_jobs ..) h
  | .dsfTslRead .. => execDsfTslRead_numbers h _
  | .heartbeatSend => execHeartbeatSend_numbers h
  | .heartbeatReceive .. => execHeartbeatReceive_numbers h _ _
  | .heartbeatPeriodEnd => execHeartbeatPeriodEnd_numbers h
  | .lineLost .. => execLineLost_numbers h _
  | .lineReturn .. => execLineReturn_numbers h _
  | .bothLinesSilent => execBothLinesSilent_numbers h
  | .firstCycle => execFirstCycle_numbers h
  | .checkpointFrameReceive .. => execCheckpointFrameReceive_numbers h _ _ _ _ _ _ _ _ _
  | .termRelay => execTermRelay_numbers h
  | .haCtrlGoActive .. | .haCtrlDemote .. | .haCtrlRejoin .. => numbers_ends (haCtrlWrite_numbered h ..)
  | .pairEnWrite .. => numbers_ends (haCfgWrite_numbered h ..)
  | .haTdlRead => execHaTdlRead_numbers h
  | .haLhblRead => execHaLhblRead_numbers h
  | .gnssRefresh => execGnssRefresh_numbers h
  | .gnssRefreshEnd => execGnssRefreshEnd_numbers h
  | .latticeEvaluation .. => numbers_of_jobs (State.latticeEval_jobs ..) h
  | .channelTrip .. => execChannelTrip_numbers h _ _
  | .degradedTimeout => execDegradedTimeout_numbers h
  | .degradedClear => execDegradedClear_numbers h
  | .autoarm => execAutoarm_numbers h
  | .armLattice .. | .withdraw .. | .clearTrip .. | .clearFaults .. => numbers_of_jobs (safeReqWrite_jobs ..) h
  | .safetyCoreHeartbeat => execSafetyCoreHeartbeat_numbers h
  | .safetyCoreTimeout => execSafetyCoreTimeout_numbers h
  | .disagreeFault .. => execDisagreeFault_numbers h _
  | .readbackFault .. => execReadbackFault_numbers h _
  | .oscFault => execOscFault_numbers h
  | .offPulseTest .. => execOffPulseTest_numbers h _ _ _
  | .safeInputChange .. => execSafeInputChange_numbers h _ _
  | .sidiscFault .. => execSidiscFault_numbers h _
  | .srtBlock => numbers_of_jobs (State.srtBlock_jobs ..) h
  | .srtTrip => execSrtTrip_numbers h
  | .speTrip => execSpeTrip_numbers h
  | .graceEnd .. => execGraceEnd_numbers h _
  | .safetyParamLoad => numbers_of_jobs (State.paramLoad_jobs ..) h
  | .authTimeout => execAuthTimeout_numbers h
  | .gnssEpoch .. => execGnssEpoch_numbers h _
  | .acqRequest .. => numbers_of_jobs (acqReqWrite_jobs ..) h
  | .autoSearch .. => execAutoSearch_numbers h _ _
  | .acqComplete .. => execAcqComplete_numbers h _
  | .channelAssign .. => numbers_of_jobs (chCtrlWrite_jobs ..) h
  | .channelLostRelease .. => execChannelLostRelease_numbers h _
  | .wordRecord .. => execWordRecord_numbers h _
  | .antennaShort .. => execAntennaShort_numbers h _ _
  | .windbreakSearch .. => execWindbreakSearch_numbers h _
  | .jammingIndicator .. => execJammingIndicator_numbers h _
  | .jiCal .. => numbers_of_jobs (jiCfgWrite_jobs ..) h
  | .gnssTimeSolution .. => execGnssTimeSolution_numbers h _ _
  | .gnssTimeLoss => execGnssTimeLoss_numbers h
  | .gnssSleep .. => numbers_ends (gnCfgWrite_numbered h ..)
  | .referenceOffset .. => execReferenceOffset_numbers h _ _ _
  | .referenceLoss => execReferenceLoss_numbers h
  | .slewEnd => execSlewEnd_numbers h
  | .timeStepByOffset .. | .timeStepToSet .. => numbers_ends (timeStepWrite_numbered h ..)
  | .priClear .. => numbers_of_jobs (timeRefWrite_jobs ..) h
  | .timeIncWrite .. => numbers_of_jobs (timeIncWrite_jobs ..) h
  | .timeNowRead => execTimeNowRead_numbers h
  | .sysCycT0lRead => execSysCycT0lRead_numbers h
  | .taiUtcWrite .. => numbers_of_jobs (timeLeapWrite_jobs ..) h
  | .leapSecond => execLeapSecond_numbers h
  | .ptpSyncReceive .. => execPtpSyncReceive_numbers h _ _ _ _
  | .ptpFollowUpReceive .. => execPtpFollowUpReceive_numbers h _ _ _
  | .ptpDelayReqReceive .. => execPtpDelayReqReceive_numbers h _ _ _ _
  | .ptpDelayRespReceive .. => execPtpDelayRespReceive_numbers h _ _ _
  | .ptpPdelayReqReceive .. => execPtpPdelayReqReceive_numbers h _ _ _ _
  | .ptpPdelayRespReceive .. => execPtpPdelayRespReceive_numbers h _ _ _ _ _
  | .ptpPdelayRespFollowUpReceive .. => execPtpPdelayRespFollowUpReceive_numbers h _ _ _
  | .ptpAnnounceReceive .. => execPtpAnnounceReceive_numbers h _ _
  | .ptpUnsupportedMessage .. => execPtpUnsupportedMessage_numbers h _
  | .ptpSyncSend .. => execPtpSyncSend_numbers h _
  | .ptpAnnounceSend .. => execPtpAnnounceSend_numbers h _
  | .ptpDelayReqSend .. => execPtpDelayReqSend_numbers h _
  | .ptpPdelayReqSend .. => execPtpPdelayReqSend_numbers h _
  | .scheduledLaunch .. => execScheduledLaunch_numbers h _
  | .ppsEdge .. => execPpsEdge_numbers h _
  | .ppsPulseEnd .. => execPpsPulseEnd_numbers h _
  | .timeCaptureEdge .. => execTimeCaptureEdge_numbers h _ _ _ _
  | .capTslRead .. => execCapTslRead_numbers h _
  | .twinCopyReceive .. => execTwinCopyReceive_numbers h _ _
  | .twinWinExpire => execTwinWinExpire_numbers h
  | .zalSyncGo .. => numbers_of_jobs (syncHWrite_jobs ..) h
  | .telemetrySend .. => execTelemetrySend_numbers h _
  | .txTailWrite .. => numbers_of_jobs (txTailWrite_jobs ..) h
  | .arpRequest .. => execArpRequest_numbers h _ _
  | .linkChange .. => execLinkChange_numbers h _ _ _
  | .canEnable .. => numbers_of_jobs (canCfgWrite_jobs ..) h
  | .canColumnOpen .. => execCanColumnOpen_numbers h _ _
  | .canAttemptEnd .. => execCanAttemptEnd_numbers h _ _ _
  | .canFrameReceive .. => execCanFrameReceive_numbers h _ _ _ _ _ _
  | .canRemoteFrameReceive .. => execCanRemoteFrameReceive_numbers h _ _ _ _ _
  | .canRxStatusRead .. => execCanRxStatusRead_numbers h _ _
  | .canTxreq .. => numbers_of_jobs (canTxreqWrite_jobs ..) h
  | .canCancel .. => numbers_of_jobs (canCancelWrite_jobs ..) h
  | .busOffRecovery .. => execBusOffRecovery_numbers h _
  | .referenceFrameReceive .. => execReferenceFrameReceive_numbers h _ _ _
  | .refLost .. => execRefLost_numbers h _
  | .taskRelease .. => execTaskRelease_numbers h _
  | .inputCopyDone .. => execInputCopyDone_numbers h _ _
  | .outputCopyDone .. => execOutputCopyDone_numbers h _ _ _
  | .taskEnable .. => numbers_of_jobs (tcfgWrite_jobs ..) h
  | .beTrellRead .. => execBeTrellRead_numbers h _
  | .activationSwitch => execActivationSwitch_numbers h
  | .activationTimeout => execActivationTimeout_numbers h
  | .fopSet .. | .fopClear .. | .fopClearAll .. => numbers_of_jobs (fopWrite_jobs ..) h
  | .packetReceive .. => execPacketReceive_numbers h _ _ _ _
  | .uartGapTimeout => execUartGapTimeout_numbers h
  | .spiCsRise .. => execSpiCsRise_numbers h _
  | .ping .. | .identify .. | .status .. | .rdWords .. | .wrWords .. | .rmw .. | .gnConfig .. | .imgBegin .. | .imgData ..
  | .imgCommit .. | .imgActivate .. | .imgFlash .. | .imgStatus .. | .otpRead .. | .otpStage .. | .otpBurn .. | .otpRevoke ..
  | .skMode .. | .skStakeHere .. | .skMove .. | .skHalt .. | .skJoy .. | .surveyRec .. | .surveyRun .. | .surveyCommit ..
  | .surveyDiscard .. | .surveyStatus .. | .selftest .. | .selftestLast .. | .timeGet .. | .timeStep .. | .timeLeap ..
  | .goActive .. | .demote .. | .rejoin .. | .pairStatus .. | .recRead .. | .recClear .. | .forceSet .. | .forceClear ..
  | .forceClearAll .. | .forceList .. | .resetDevice .. => numbers_ends (State.cpRequest_numbered h ..)
  | .bootStart .. => execBootStart_numbers h _ _
  | .slotVerify .. => execSlotVerify_numbers h _ _ _ _
  | .firmwareStart => execFirmwareStart_numbers h
  | .sectionsApplied => execSectionsApplied_numbers h
  | .refclkWindow .. => execRefclkWindow_numbers h _
  | .safeOscWindow .. => execSafeOscWindow_numbers h _
  | .domainPowerRequest .. => numbers_ends (domReqWrite_numbered h ..)
  | .domainOn .. => execDomainOn_numbers h _
  | .deepEntry .. => numbers_ends (pwrCtrlWrite_numbered h ..)
  | .deepWake .. => execDeepWake_numbers h _
  | .powerOnReset | .brownOutReset => numbers_ends (State.deviceReset_numbered ..)
  | .pinReset .. => execPinReset_numbers h _
  | .partnerForcedReset .. => execPartnerForcedReset_numbers h _
  | .watchdogExpire => execWatchdogExpire_numbers h
  | .watchdogKick .. => numbers_ends (kickWrite_numbered h ..)
  | .softReset .. => numbers_ends (softWrite_numbered h ..)
  | .partnerReset .. => numbers_of_jobs (pforceWrite_jobs ..) h
  | .interruptArrival .. => numbers_of_jobs (State.event_jobs ..) h
  | .interruptEntry .. => execInterruptEntry_numbers h _
  | .icClaim .. => execIcClaim_numbers h _ _
  | .icComplete .. => execIcComplete_numbers h _ _
  | .icSwset .. => numbers_of_jobs (icSwset_jobs ..) h
  | .loafWriteEnd => numbers_of_jobs (State.loafEnd_jobs ..) h
  | .recNext .. => numbers_of_jobs (recCtlWrite_jobs ..) h
  | .recCurWrite .. => numbers_of_jobs (recCurWrite_jobs ..) h
  | .recClrClear .. => numbers_of_jobs (recClrWrite_jobs ..) h
  | .counterOverflow .. => execCounterOverflow_numbers h _
  | .pmuFreeze .. | .pmuUnfreeze .. | .pmuSnap .. => numbers_of_jobs (pmuCtlWrite_jobs ..) h
  | .pmuCounterRead .. => execPmuCounterRead_numbers h _ _ _
  | .scrubBurst .. => execScrubBurst_numbers h _
  | .scrubCapApply => execScrubCapApply_numbers h
  | .selftestComplete .. => execSelftestComplete_numbers h _
  | .imgCommitComplete .. => execImgCommitComplete_numbers h _ _ _
  | .imgFlashComplete => execImgFlashComplete_numbers h
  | .otpBurnComplete .. => execOtpBurnComplete_numbers h _
  | .otpRevokeComplete .. => execOtpRevokeComplete_numbers h _
  | .checkpointSendComplete => execCheckpointSendComplete_numbers h
  | .antennaOpen .. => execAntennaOpen_numbers h _ _
  | .channelPullInLock .. => execChannelPullInLock_numbers h _
  | .channelLockLost .. => execChannelLockLost_numbers h _
  | .ptpAnnounceReceiptTimeout .. => execPtpAnnounceReceiptTimeout_numbers h _
  | .canBusError .. => execCanBusError_numbers h _ _
  | .prstOutPulseEnd => execPrstOutPulseEnd_numbers h

theorem numbers_next {s : State} (h : s.jobs.Numbered) : Numbers (.next s) := fun _ ht => Host.Outcome.next.inj ht ▸ h

theorem step_numbers {s : State} (h : s.jobs.Numbered) : Numbers (step s) := by
  unfold step
  split
  · exact numbers_next (State.idle_numbered h)
  next c rest _ => exact exec_numbers (s := { s with pending := rest }) h c

/-- Settles O7: no operation changes a job's number, a submission takes the next one and stands last, and whatever else happens
to the jobs takes some of them away. -/
theorem jobsStayNumbered : Obligations.JobsStayNumbered := fun s t h ht =>
  t.jobsNumbered_iff.mpr (step_numbers (s.jobsNumbered_iff.mp h) t ht)

end Sys2Proof.Machine
end

section
/-!
PROOFS of the family 09_thruster_servo, the injection, capture and encoder commands (O29). The statement fails in its clause of
INJECTION_TSTART. Short stamps compare by their signed 48-bit difference (R12): a TSTART that has come reads as ahead again once it
lies 2^47 ns back. The clause leaves out a TSTART that crosses this bound between the command and the period start that judges it.
-/
namespace Sys2Proof.Machine

/-- With every domain ON, 2^47 ns after the count began: loop 5 has an armed injection whose TSTART was at 1000 ns. -/
def injectionLongDue : State :=
  ((((domainsOn.modTime fun t => { t with count := 0x800000000000 }).setFlag (F.SRV_INJ_CFG_START 5) true).setWord (R.SRV_INJ_TSH 5)
    0).setWord (R.SRV_INJ_TSL 5) 1000).modLoop 5 fun l => { l with injArmed := true }

/-- TSTART has come (R12), but at the next period start, 19672 ns later, it reads as ahead, and the injection waits for it. -/
theorem injectionLongDue_stays_armed :
    sdiff 1000 injectionLongDue.stamp < 0
    ∧ Completes (.injectionTstart 5) injectionLongDue fun t => t.now = injectionLongDue.now + 19672 ∧ (t.loop 5).injArmed = true :=
  ⟨by decide, Completes.of rfl (by decide +kernel)⟩

/-- What O29 says of INJECTION_TSTART in that state: the injection was started or refused, and is armed no more. -/
theorem disarmed_of_injectionCaptureAndEncoders (H : Obligations.InjectionCaptureAndEncoders) :
    Completes (.injectionTstart 5) injectionLongDue fun t => (t.loop 5).injArmed = false := by
  obtain ⟨_, _, htstart, _⟩ := H injectionLongDue 5 0 0 .host 0 (Or.inl rfl) (by decide) (by decide)
  obtain ⟨t, ht, _, _, _, _, hdisarmed⟩ := htstart (by decide) (by decide) (by decide) (by decide)
  exact ⟨t, ht, hdisarmed⟩

/-- Refutes O29, in its clause of INJECTION_TSTART: an armed injection whose TSTART came almost 2^47 ns ago is still armed after the
next period start, at which its TSTART reads as ahead. -/
theorem not_injectionCaptureAndEncoders : ¬ Obligations.InjectionCaptureAndEncoders := by
  intro H
  obtain ⟨_, hstays⟩ := injectionLongDue_stays_armed
  obtain ⟨t, _, ⟨_, hmodel⟩, hstated⟩ := hstays.and (disarmed_of_injectionCaptureAndEncoders H)
  rw [hmodel] at hstated
  exact absurd hstated (by decide)

end Sys2Proof.Machine
end

section
/-!
PROOFS of the family 09_thruster_servo, what the servo engine's functions leave (O28): one relation between two states, and one lemma
per function that says which register bits it may write and which part of a loop's hidden state it keeps.
-/
namespace Sys2Proof.Machine

/-! The relation. -/

/-- Between two states only the bookkeeping, the register bits of W and what h does not show of the loops change, beside units
that the servo engine drives; device time and power stay. -/
structure Spares {α : Type} (W : Nat → Nat → Prop) (h : Loop → α) (s t : State) : Prop where
  bit : ∀ a i, ¬ Book a → ¬ W a i → t.get ⟨a, i, 1⟩ = s.get ⟨a, i, 1⟩
  loop : ∀ m, h (t.loop m) = h (s.loop m)
  time : t.time = s.time
  pwr : t.pwr = s.pwr

section
variable {α β : Type} {W V : Nat → Nat → Prop} {h : Loop → α} {k : Loop → β} {s t u : State}

theorem Spares.refl (s : State) : Spares W h s s := ⟨fun _ _ _ _ => rfl, fun _ => rfl, rfl, rfl⟩

theorem Spares.trans (p : Spares W h s t) (q : Spares W h t u) : Spares W h s u :=
  ⟨fun a i hb hw => (q.bit a i hb hw).trans (p.bit a i hb hw), fun m => (q.loop m).trans (p.loop m), q.time.trans p.time,
    q.pwr.trans p.pwr⟩

/-- More bits may be written, and less of a loop shown. -/
theorem Spares.mono (p : Spares W h s t) (hW : ∀ a i, W a i → V a i) (hk : ∀ l m, h l = h m → k l = k m) : Spares V k s t :=
  ⟨fun a i hb hv => p.bit a i hb fun hw => hv (hW a i hw), fun m => hk _ _ (p.loop m), p.time, p.pwr⟩

/-- The bits of a word are those of its fields. -/
theorem Fld.of_eq_of_bits {f : Fld} {v w : Word} (hbit : ∀ i, f.lo ≤ i → i < f.lo + f.w → Fld.of ⟨f.addr, i, 1⟩ v = Fld.of ⟨f.addr, i, 1⟩ w) :
    f.of v = f.of w := by
  refine Nat.eq_of_testBit_eq fun i => ?_
  simp only [Fld.of, Nat.testBit_mod_two_pow, Nat.testBit_div_two_pow]
  by_cases hi : i < f.w
  · have hb := hbit (i + f.lo) (by omega) (by omega)
    simp only [Fld.of, Nat.pow_one] at hb
    rw [Nat.testBit_eq_decide_div_mod_eq, Nat.testBit_eq_decide_div_mod_eq, hb]
  · simp [hi]

theorem Spares.get (p : Spares W h s t) {f : Fld} (hb : ¬ Book f.addr) (hw : ∀ i, f.lo ≤ i → i < f.lo + f.w → ¬ W f.addr i) :
    t.get f = s.get f := Fld.of_eq_of_bits fun i h1 h2 => p.bit f.addr i hb (hw i h1 h2)

theorem Spares.flag (p : Spares W h s t) {f : Fld} (hb : ¬ Book f.addr) (hw : ∀ i, f.lo ≤ i → i < f.lo + f.w → ¬ W f.addr i) :
    t.flag f = s.flag f := congrArg (· != 0) (p.get hb hw)

theorem Spares.word (p : Spares W h s t) {a : Nat} (hb : ¬ Book a) (hw : ∀ i, ¬ W a i) : t.word a = s.word a := by
  have hall : t.get ⟨a, 0, 32⟩ = s.get ⟨a, 0, 32⟩ := p.get hb fun i _ _ => hw i
  simp only [State.get, Fld.of, Nat.pow_zero, Nat.div_one] at hall
  refine BitVec.eq_of_toNat_eq ?_
  have h1 := (t.word a).isLt
  have h2 := (s.word a).isLt
  omega

theorem Spares.geti (p : Spares W h s t) {a : Nat} (hb : ¬ Book a) (hw : ∀ i, ¬ W a i) : t.geti a = s.geti a :=
  congrArg BitVec.toInt (p.word hb hw)

theorem Spares.now (p : Spares W h s t) : t.now = s.now := congrArg (fun x : TimeBase => x.count.toNat) p.time

/-! The steps it is made of. -/

/-- What changes neither registers, loops, time nor power. -/
theorem spares_of_same (hregs : t.regs = s.regs) (hloops : t.srv.loops = s.srv.loops) (htime : t.time = s.time)
    (hpwr : t.pwr = s.pwr) : Spares W h s t :=
  ⟨fun a i _ _ => by simp only [State.get, State.word, hregs], fun m => by simp only [State.loop, hloops], htime, hpwr⟩

theorem Spares.modCap (p : Spares W h s t) {n : Nat} {f : Capture → Capture} : Spares W h s (t.modCap n f) :=
  p.trans (spares_of_same rfl rfl rfl rfl)

theorem Kept.spares (b : Kept s t) : Spares W h s t :=
  ⟨fun _ _ hb _ => b.get hb, fun _ => by rw [b.rest]; rfl, by rw [b.rest], by rw [b.rest]⟩

theorem Spares.set (p : Spares W h s t) {f : Fld} {v : Nat} (hw : ∀ i, f.lo ≤ i → i < f.lo + f.w → W f.addr i) :
    Spares W h s (t.set f v) where
  bit a i hb hn := by
    refine Eq.trans ?_ (p.bit a i hb hn)
    by_cases ha : a = f.addr
    · subst ha
      have hout : ¬ (f.lo ≤ i ∧ i < f.lo + f.w) := fun hc => hn (hw i hc.1 hc.2)
      exact t.get_set_apart _ f v (by dsimp only; omega)
    · exact t.get_set_addr _ f v ha
  loop := p.loop
  time := p.time
  pwr := p.pwr

theorem Spares.setFlag (p : Spares W h s t) {f : Fld} {b : Bool} (hw : ∀ i, f.lo ≤ i → i < f.lo + f.w → W f.addr i) :
    Spares W h s (t.setFlag f b) := p.set hw

theorem Spares.bump (p : Spares W h s t) {f : Fld} (hw : ∀ i, f.lo ≤ i → i < f.lo + f.w → W f.addr i) : Spares W h s (t.bump f) :=
  p.set hw

theorem Spares.setWord (p : Spares W h s t) {a : Nat} {v : Word} (hw : ∀ i, W a i) : Spares W h s (t.setWord a v) where
  bit b i hb hn := (State.get_congr (State.word_setWord_ne t (fun hc : b = a => hn (hc.symm ▸ hw i)) v)).trans (p.bit b i hb hn)
  loop := p.loop
  time := p.time
  pwr := p.pwr

theorem Spares.modLoop (p : Spares W h s t) {n : Nat} {f : Loop → Loop} (hf : ∀ l, h (f l) = h l) : Spares W h s (t.modLoop n f) where
  bit := p.bit
  loop m := by
    rw [State.loop_modLoop]
    split
    · next hm => rw [hf, ← hm, p.loop m]
    · exact p.loop m
  time := p.time
  pwr := p.pwr

theorem spares_foldl {γ : Type} {f : State → γ → State} (l : List γ) (hf : ∀ s, ∀ b ∈ l, Spares W h s (f s b)) (s : State) :
    Spares W h s (l.foldl f s) := by
  induction l generalizing s with
  | nil => exact Spares.refl s
  | cons b l ih =>
    exact (hf s b (by simp)).trans (ih (fun t c hc => hf t c (by simp [hc])) (f s b))

theorem spares_ite {c : Prop} [Decidable c] (ht : c → Spares W h s t) (hu : ¬ c → Spares W h s u) : Spares W h s (if c then t else u) := by
  split
  · next hc => exact ht hc
  · next hc => exact hu hc

end

/-! Sets of register bits. -/

/-- The registers of the capture units, and those after them. -/
def CaptureBits (a _i : Nat) : Prop := 0x400EF000 ≤ a

/-- The sticky flags of the loops, beside the registers of the capture units. -/
def StickyBits (a i : Nat) : Prop := CaptureBits a i ∨ 0x400E0000 ≤ a ∧ a % 512 = 4 ∧ 16 ≤ i ∧ i ≤ 24

/-- The registers from CAN's to the encoders' that are no loop's; of the loops OPEN_OUT and the values shown beside U, SP_STALE,
INJ_RUN, INJ_REF, the sticky flags, NAN_CNT and INJ_EL. -/
def AsideBits (a i : Nat) : Prop :=
  0x400B8000 ≤ a ∧ (a < 0x400E0000 ∨ 0x400E3000 ≤ a ∨ (0x84 ≤ a % 512 ∧ a % 512 < 0xA4 ∧ a % 512 ≠ 0x94) ∨ a % 512 = 0x120
    ∨ (a % 512 = 4 ∧ (i = 7 ∨ i = 9 ∨ i = 10 ∨ 16 ≤ i ∧ i ≤ 24)) ∨ (a % 512 = 0xA4 ∧ 24 ≤ i))

theorem StickyBits.aside {a i : Nat} (h : StickyBits a i) : AsideBits a i := by
  simp only [StickyBits, CaptureBits, AsideBits] at *
  omega

theorem CaptureBits.aside {a i : Nat} (h : CaptureBits a i) : AsideBits a i := StickyBits.aside (.inl h)

end Sys2Proof.Machine
end

section
/-!
PROOFS of the family 09_thruster_servo, the functions beside a loop's state (O28): captures, sticky flags, command entries, injection
and the bitstream outputs.
-/
namespace Sys2Proof.Machine

/-- A loop's hidden state but for setpoint, sticky flags and injection, which go their own way beside its state. -/
def Loop.control (l : Loop) : Loop :=
  { l with due := none, sp := 0, spAt := 0, flagSeen := 0, flagArm := false, inj := none, injK := 0, injVal := 0, injArmed := false }

theorem spares_capTrigger (s : State) (u : Nat) : Spares CaptureBits id s (s.capTrigger u) := by
  unfold State.capTrigger
  refine spares_ite (fun _ => Spares.set (Spares.modCap (Spares.refl s)) ?_) (fun _ => Spares.refl s)
  intro i _ _
  simp only [CaptureBits, F.CAP_STAT_STATE, R.CAP_STAT]
  omega

theorem spares_capOn (s : State) (k n : Nat) : Spares CaptureBits id s (s.capOn k n) :=
  spares_foldl _ (fun t u _ => spares_ite (fun _ => spares_capTrigger t u) (fun _ => Spares.refl t)) s

@[simp] theorem State.capOn_loop (s : State) (k n m : Nat) : (s.capOn k n).loop m = s.loop m := (spares_capOn s k n).loop m

/-- Among what concerns the loops alone a trigger changes nothing. -/
theorem Spares.capOn {α : Type} {W : Nat → Nat → Prop} {h : Loop → α} {s t : State} (p : Spares W h s t)
    (hW : ∀ a i, CaptureBits a i → W a i) {k n : Nat} : Spares W h s (t.capOn k n) :=
  p.trans ((spares_capOn t k n).mono hW fun _ _ => congrArg h)

theorem spares_srvSticky (s : State) (n m : Nat) : Spares StickyBits Loop.control s (s.srvSticky n m) := by
  unfold State.srvSticky
  extract_lets old l arm new s₁ s₂
  have h₁ : Spares StickyBits Loop.control s s₁ := (Spares.refl s).modLoop fun _ => by rfl
  have h₂ : Spares StickyBits Loop.control s s₂ := by
    refine (h₁.set fun i h1 h2 => ?_).set fun i h1 h2 => ?_
    · simp only [StickyBits, F.SRV_LSTAT_SAT, R.SRV_LSTAT] at *; omega
    · simp only [StickyBits, F.SRV_LSTAT_PLAUS, R.SRV_LSTAT] at *; omega
  refine spares_ite (fun _ => h₁) fun _ => Spares.capOn ?_ fun _ _ => Or.inl
  exact spares_ite (fun _ => h₂.trans (kept_arrive _ _ _).spares) fun _ => h₂

theorem spares_takeEntry (s : State) (n k : Nat) : Spares AsideBits Loop.control s (s.takeEntry n k) := by
  unfold State.takeEntry
  extract_lets v0 v1 s₁ v r f x
  have h₁ : Spares AsideBits Loop.control s s₁ := (Spares.refl s).modLoop fun _ => by rfl
  refine spares_ite (fun _ => h₁.bump fun i h1 h2 => ?_) fun _ => ?_
  · simp only [AsideBits, F.SRV_LCNT_NAN_CNT, R.SRV_LCNT] at *; omega
  · generalize toSignal _ _ = y
    obtain ⟨sp, sat⟩ := y
    dsimp only
    have h₂ : Spares AsideBits Loop.control s ((s₁.modLoop n fun l => { l with sp := sp, spAt := s₁.now }).setFlag
        (F.SRV_LSTAT_SP_STALE n) false) := by
      refine (h₁.modLoop fun _ => by rfl).setFlag fun i h1 h2 => ?_
      simp only [AsideBits, F.SRV_LSTAT_SP_STALE, R.SRV_LSTAT] at *; omega
    exact spares_ite (fun _ => h₂.trans ((spares_srvSticky _ n 1).mono (fun _ _ => StickyBits.aside) fun _ _ e => e)) fun _ => h₂

theorem spares_servoTick (s : State) : Spares AsideBits Loop.control s s.servoTick := by
  have hput : ∀ t : State, ∀ f : Servo → Servo, (∀ v, (f v).loops = v.loops) → Spares AsideBits Loop.control t (t.modSrv f) :=
    fun t f hf => spares_of_same rfl (hf t.srv) rfl rfl
  unfold State.servoTick
  refine spares_ite (fun _ => Spares.refl s) fun _ => ?_
  refine Spares.trans (hput s _ fun _ => by rfl) (spares_foldl _ (fun t k _ => ?_) _)
  refine spares_ite (fun _ => Spares.refl t) fun _ => ?_
  refine Spares.trans (hput t _ fun _ => by rfl) (spares_foldl _ (fun t n _ => ?_) _)
  refine spares_ite (fun _ => Spares.refl t) fun _ => ?_
  exact spares_ite (fun _ => spares_takeEntry t n k) fun _ => (Spares.refl t).modLoop fun _ => by rfl

theorem spares_takeDue (s : State) (n : Nat) : Spares AsideBits Loop.control s (s.takeDue n) := by
  unfold State.takeDue
  split
  · exact Spares.refl s
  · exact spares_ite (fun _ => spares_takeEntry s n _) fun _ => (Spares.refl s).modLoop fun _ => by rfl

theorem aside_injRun (n : Nat) : ∀ i, (F.SRV_LSTAT_INJ_RUN n).lo ≤ i → i < (F.SRV_LSTAT_INJ_RUN n).lo + (F.SRV_LSTAT_INJ_RUN n).w →
    AsideBits (F.SRV_LSTAT_INJ_RUN n).addr i := by
  intro i h1 h2
  simp only [AsideBits, F.SRV_LSTAT_INJ_RUN, R.SRV_LSTAT] at *; omega

theorem aside_injEl (n i : Nat) : AsideBits (R.SRV_INJ_EL n) i := by simp only [AsideBits, R.SRV_INJ_EL]; omega

theorem spares_injEnd (s : State) (n : Nat) : Spares AsideBits Loop.control s (s.injEnd n) :=
  Spares.setFlag (Spares.modLoop (Spares.refl s) fun _ => by rfl) (aside_injRun n)

theorem spares_injCount (s : State) (n : Nat) : Spares AsideBits Loop.control s (s.injCount n) := by
  unfold State.injCount
  split
  · exact Spares.refl s
  · extract_lets k s₁
    have h₁ : Spares AsideBits Loop.control s s₁ := Spares.setWord (Spares.modLoop (Spares.refl s) fun _ => by rfl) (aside_injEl n)
    exact spares_ite (fun _ => h₁.trans (spares_injEnd s₁ n)) fun _ => h₁

theorem spares_injStart (s : State) (n : Nat) : Spares AsideBits Loop.control s (s.injStart n) := by
  unfold State.injStart
  refine spares_ite (fun _ => Spares.refl s) fun _ => ?_
  extract_lets tsl ts s₁ st half f0 f1 p s₂
  have h₁ : Spares AsideBits Loop.control s s₁ := (Spares.refl s).modLoop fun _ => by rfl
  have h₂ : Spares AsideBits Loop.control s s₂ := Spares.setFlag (h₁.modLoop fun _ => by rfl) (aside_injRun n)
  refine spares_ite (fun _ => Spares.refl s) fun _ => spares_ite (fun _ => h₁.setFlag fun i h3 h4 => ?_) fun _ =>
    spares_ite (fun _ => h₁) fun _ => Spares.capOn (h₂.setWord (aside_injEl n)) fun _ _ => CaptureBits.aside
  simp only [AsideBits, F.SRV_LSTAT_INJ_REF, R.SRV_LSTAT] at *; omega

theorem spares_showBout (s : State) : Spares AsideBits id s s.showBout := by
  unfold State.showBout
  refine spares_foldl _ (fun t k hk => ?_) s
  have hbout : ∀ i, AsideBits (R.DSF_BOUT_CFG k) i := by
    have := List.mem_range.1 hk
    intro i; simp only [AsideBits, R.DSF_BOUT_CFG]; omega
  extract_lets t₁ d
  have h₁ : Spares AsideBits id t t₁ := by
    simp only [t₁]
    split <;> exact Spares.set (Spares.set (Spares.refl t) fun i _ _ => hbout i) fun i _ _ => hbout i
  exact spares_ite (fun _ => h₁) fun _ => h₁.trans (spares_of_same rfl rfl rfl rfl)

end Sys2Proof.Machine
end

section
/-!
PROOFS of the family 09_thruster_servo, a loop's state (O28): its changes, the requests and the rules of HOLD, of which a period start
is made.
-/
namespace Sys2Proof.Machine

/-! What is written. -/

/-- A loop's STATE, beside the bits aside. -/
def StateBits (n a i : Nat) : Prop := AsideBits a i ∨ a = R.SRV_LSTAT n ∧ i < 3

/-- What a request writes: STATE, LRES, PEND and FCAUSE, beside the bits aside. -/
def RequestBits (n a i : Nat) : Prop := AsideBits a i ∨ a = R.SRV_LSTAT n ∧ (i < 7 ∨ i = 11 ∨ i = 12)

/-- What a COMMIT writes: the coefficient set, beside the bits aside. -/
def CommitBits (n a i : Nat) : Prop := AsideBits a i ∨ R.SRV_LCFG n ≤ a ∧ a < R.SRV_LCFG n + 100

/-- What the rules of HOLD write: STATE, FCAUSE and HOLD_CNT, beside the bits aside. -/
def HoldBits (n a i : Nat) : Prop := AsideBits a i ∨ a = R.SRV_LSTAT n ∧ (i < 3 ∨ i = 11 ∨ i = 12) ∨ a = R.SRV_LCNT n ∧ i < 8

theorem StateBits.request {n a i : Nat} : StateBits n a i → RequestBits n a i
  | .inl h => .inl h
  | .inr h => .inr ⟨h.1, by omega⟩

theorem StateBits.hold {n a i : Nat} : StateBits n a i → HoldBits n a i
  | .inl h => .inl h
  | .inr h => .inr (.inl ⟨h.1, by omega⟩)

/-! What is kept of a loop. -/

/-- What a change of state leaves of a loop's hidden state. -/
def Loop.lasting (l : Loop) : Loop := { l with inj := none, injVal := 0, holdN := 0, tripDue := false }

/-- What a request leaves: when the period started, and that nothing is pending. -/
def Loop.pending (l : Loop) : Nat × Bool × Option Nat := (l.perAt, l.commitPend, l.pend)

/-- What a COMMIT leaves that a period start turns on: its instant, the pending request and the rules of HOLD. -/
def Loop.waiting (l : Loop) : Nat × Option Nat × Bool × Nat := (l.perAt, l.pend, l.tripDue, l.holdN)

/-! A change of state (R157). -/

theorem spares_srvGo_of_ne {s : State} {n st : Nat} (hne : s.srvState n ≠ st) :
    Spares AsideBits Loop.lasting (s.set (F.SRV_LSTAT_STATE n) st) (s.srvGo n st) := by
  rw [State.srvGo, if_neg hne]
  refine Spares.capOn (Spares.trans ?_ (kept_event _ _ _ _).spares) fun _ _ => CaptureBits.aside
  exact Spares.modLoop (Spares.setFlag (Spares.refl _) (aside_injRun n)) fun _ => by rfl

theorem spares_srvGo (s : State) (n st : Nat) : Spares (StateBits n) Loop.lasting s (s.srvGo n st) := by
  by_cases h : s.srvState n = st
  · rw [State.srvGo, if_pos h]
    exact Spares.refl s
  · refine Spares.trans (Spares.set (Spares.refl s) fun i _ h2 => ?_) ((spares_srvGo_of_ne h).mono (fun _ _ => Or.inl) fun _ _ e => e)
    exact Or.inr ⟨rfl, by simp only [F.SRV_LSTAT_STATE] at h2; omega⟩

/-- Where the bits aside may change, STATE stays. -/
theorem Spares.srvState {α : Type} {h : Loop → α} {s t : State} (p : Spares AsideBits h s t) {n : Nat} (hn : n < 24) :
    t.srvState n = s.srvState n := by
  refine p.get ?_ fun i h1 h2 => ?_
  · simp only [Book, F.SRV_LSTAT_STATE, R.SRV_LSTAT]; omega
  · simp only [AsideBits, F.SRV_LSTAT_STATE, R.SRV_LSTAT] at *; omega

theorem srvState_srvGo (s : State) {n st : Nat} (hn : n < 24) (hst : st < 8) : (s.srvGo n st).srvState n = st := by
  by_cases h : s.srvState n = st
  · rw [State.srvGo, if_pos h, h]
  · rw [(spares_srvGo_of_ne h).srvState hn]
    exact (s.get_set (F.SRV_LSTAT_STATE n) st (by simp [F.SRV_LSTAT_STATE])).trans (Nat.mod_eq_of_lt hst)

/-- No change of state brings a plausibility trip. -/
theorem tripDue_srvGo {s : State} {n : Nat} (h : (s.loop n).tripDue = false) (st : Nat) : ((s.srvGo n st).loop n).tripDue = false := by
  unfold State.srvGo
  split
  · exact h
  · rw [State.capOn_loop, State.event_loop, State.loop_modLoop_same]

/-! Requests (R157, R158). -/

theorem spares_toOpen (s : State) (n : Nat) (out : Int) : Spares (StateBits n) Loop.pending s (s.toOpen n out) := by
  refine Spares.trans (Spares.modLoop (Spares.setWord (Spares.refl s) fun i => Or.inl ?_) fun _ => by rfl)
    ((spares_srvGo _ n 1).mono (fun _ _ h => h) fun _ _ => congrArg Loop.pending)
  simp only [AsideBits, R.SRV_OPEN_OUT]; omega

theorem spares_ymReset (s : State) (n : Nat) : Spares AsideBits Loop.pending s (s.ymReset n) := by
  refine Spares.setWord (Spares.modLoop (Spares.refl s) fun _ => by rfl) fun i => ?_
  simp only [AsideBits, R.SRV_YM]; omega

/-- The integrator with which a loop closes without a step of its output. -/
def State.closeInteg (s : State) (n : Nat) : Int :=
  let im := s.geti (R.SRV_IMAX n)
  let want := s.geti (R.SRV_OPEN_OUT n) - (s.srvFf n (.lit 0)).v
  if s.geti (R.SRV_KI n) ≠ 0 then clampI (-im) im want else 0

/-- What a pending request does when it is taken. -/
def State.carried (s : State) (n op : Nat) : State :=
  let st := s.srvState n
  match op with
  | 1 => if st = 0 then ((s.toOpen n (s.geti (R.SRV_OPEN_OUT n))).ymReset n) else s
  | 2 => if st = 0 then s else (s.srvGo n 0).modLoop n fun l => { l with offDue := true }
  | 3 =>
    if st = 2 || st = 3 then s.toOpen n (s.loop n).u
    else if st = 4 then ((s.set (F.SRV_LSTAT_FCAUSE n) 0).toOpen n (s.geti (R.SRV_SAFE_OUT n))).ymReset n
    else s
  | _ =>
    if st ≠ 1 then s
    else if !s.flag (F.SRV_LSTAT_FB_OK n) || (s.loop n).fbNew || s.get (F.SRV_LIO_FB_KIND n) = 0 then s.set (F.SRV_LSTAT_LRES n) 2
    else (s.modLoop n fun l => { l with lim := l.fb, d := 0, integ := s.closeInteg n }).srvGo n 2

theorem applyReq_of_none {s : State} {n : Nat} (h : (s.loop n).pend = none) : s.applyReq n = s := by
  rw [State.applyReq, h]

theorem applyReq_of_some {s : State} {n op : Nat} (h : (s.loop n).pend = some op) :
    s.applyReq n = (s.modLoop n fun l => { l with pend := none }).carried n op := by
  rw [State.applyReq, h]; rfl

theorem spares_carried (s : State) (n op : Nat) : Spares (RequestBits n) Loop.pending s (s.carried n op) := by
  have hopen : ∀ t : State, ∀ out, Spares (RequestBits n) Loop.pending t (t.toOpen n out) := fun t out =>
    (spares_toOpen t n out).mono (fun _ _ => StateBits.request) fun _ _ e => e
  have hgo : ∀ t : State, ∀ st, Spares (RequestBits n) Loop.pending t (t.srvGo n st) := fun t st =>
    (spares_srvGo t n st).mono (fun _ _ => StateBits.request) fun _ _ => congrArg Loop.pending
  have hym : ∀ t : State, Spares (RequestBits n) Loop.pending t (t.ymReset n) := fun t =>
    (spares_ymReset t n).mono (fun _ _ => Or.inl) fun _ _ e => e
  unfold State.carried
  dsimp only
  split
  · exact spares_ite (fun _ => (hopen s _).trans (hym _)) fun _ => Spares.refl s
  · exact spares_ite (fun _ => Spares.refl s) fun _ => (hgo s 0).modLoop fun _ => by rfl
  · refine spares_ite (fun _ => hopen s _) fun _ => spares_ite (fun _ => ?_) fun _ => Spares.refl s
    refine (Spares.trans (Spares.set (Spares.refl s) fun i h1 h2 => ?_) (hopen _ _)).trans (hym _)
    exact Or.inr ⟨rfl, by simp only [F.SRV_LSTAT_FCAUSE] at h1 h2; omega⟩
  · refine spares_ite (fun _ => Spares.refl s) fun _ => spares_ite (fun _ => Spares.set (Spares.refl s) fun i h1 h2 => ?_) fun _ => ?_
    · exact Or.inr ⟨rfl, by simp only [F.SRV_LSTAT_LRES] at h1 h2; omega⟩
    · exact Spares.trans (Spares.modLoop (Spares.refl s) fun _ => by rfl) (hgo _ 2)

/-- What does not write bit 8 of SRV_LSTAT leaves FB_OK. -/
theorem Spares.fbOk {α : Type} {W : Nat → Nat → Prop} {h : Loop → α} {s t : State} {n : Nat} (p : Spares W h s t) (hn : n < 24)
    (hW : ¬ W (R.SRV_LSTAT n) 8) : t.flag (F.SRV_LSTAT_FB_OK n) = s.flag (F.SRV_LSTAT_FB_OK n) := by
  refine p.flag ?_ fun i h1 h2 => ?_
  · simp only [Book, F.SRV_LSTAT_FB_OK, R.SRV_LSTAT]; omega
  · simp only [F.SRV_LSTAT_FB_OK] at *
    obtain rfl : i = 8 := by omega
    exact hW

theorem srvState_toOpen (s : State) {n : Nat} (hn : n < 24) (out : Int) : (s.toOpen n out).srvState n = 1 :=
  srvState_srvGo _ hn (by decide)

theorem srvState_ymReset (s : State) {n : Nat} (hn : n < 24) : (s.ymReset n).srvState n = s.srvState n := (spares_ymReset s n).srvState hn

section
variable {s : State} {n : Nat}

theorem carried_enable (hn : n < 24) (h : s.srvState n = 0) : (s.carried n 1).srvState n = 1 := by
  show (if s.srvState n = 0 then _ else _ : State).srvState n = 1
  rw [if_pos h, srvState_ymReset _ hn, srvState_toOpen _ hn]

theorem carried_disable (hn : n < 24) (h : s.srvState n ≠ 0) : (s.carried n 2).srvState n = 0 := by
  show (if s.srvState n = 0 then _ else _ : State).srvState n = 0
  rw [if_neg h]
  exact srvState_srvGo s hn (by decide)

theorem carried_open (hn : n < 24) (h : s.srvState n = 2 ∨ s.srvState n = 3 ∨ s.srvState n = 4) : (s.carried n 3).srvState n = 1 := by
  show (if s.srvState n = 2 || s.srvState n = 3 then _ else _ : State).srvState n = 1
  rcases h with h | h | h
  · rw [if_pos (by simp [h]), srvState_toOpen _ hn]
  · rw [if_pos (by simp [h]), srvState_toOpen _ hn]
  · rw [if_neg (by simp [h]), if_pos h, srvState_ymReset _ hn, srvState_toOpen _ hn]

/-- CLOSE from LOOP_OPEN without valid feedback is refused (R157). -/
theorem carried_close_refused (h : s.srvState n = 1) (hfb : s.flag (F.SRV_LSTAT_FB_OK n) = false) :
    s.carried n 4 = s.set (F.SRV_LSTAT_LRES n) 2 := by
  show (if s.srvState n ≠ 1 then _ else _ : State) = _
  rw [if_neg (not_not_intro h), hfb]
  rfl

/-- CLOSE from LOOP_OPEN with valid feedback closes the loop (R157). -/
theorem carried_close (hn : n < 24) (h : s.srvState n = 1) (hfb : s.flag (F.SRV_LSTAT_FB_OK n) = true)
    (hnew : (s.loop n).fbNew = false) (hkind : s.get (F.SRV_LIO_FB_KIND n) ≠ 0) (htrip : (s.loop n).tripDue = false) :
    (s.carried n 4).srvState n = 2 ∧ ((s.carried n 4).loop n).tripDue = false := by
  have hclosed : s.carried n 4 = (s.modLoop n fun l => { l with lim := l.fb, d := 0, integ := s.closeInteg n }).srvGo n 2 := by
    show (if s.srvState n ≠ 1 then _ else _ : State) = _
    rw [if_neg (not_not_intro h), hfb, hnew, if_neg (by simpa using hkind)]
  rw [hclosed]
  exact ⟨srvState_srvGo _ hn (by decide), tripDue_srvGo (by simpa using htrip) 2⟩

/-! COMMIT (R158). -/

theorem spares_commitShadow (s : State) (l : List Nat) {W : Nat → Nat → Prop} {α : Type} {h : Loop → α}
    (hl : ∀ a ∈ l, ∀ i, W a i) : Spares W h s (s.commitShadow l) :=
  spares_foldl l (fun t a ha => (Spares.refl t).setWord (hl a ha)) s

theorem spares_applyCommit (s : State) (n : Nat) : Spares (CommitBits n) Loop.waiting s (s.applyCommit n) := by
  unfold State.applyCommit
  refine spares_ite (fun _ => ?_) fun _ => Spares.refl s
  extract_lets src old s₁ new s₂ fb
  have h₁ : Spares (CommitBits n) Loop.waiting s s₁ := spares_commitShadow s _ fun a ha i => by
    simp only [srvShadow, wordsFrom, List.mem_map, List.mem_range] at ha
    obtain ⟨j, hj, rfl⟩ := ha
    exact Or.inr ⟨by omega, by omega⟩
  have h₂ : Spares (CommitBits n) Loop.waiting s s₂ := h₁.modLoop fun _ => by rfl
  refine spares_ite (fun _ => h₂) fun _ => Spares.setWord (h₂.modLoop fun l => ?_) fun i => Or.inl ?_
  · split <;> rfl
  · simp only [AsideBits, R.SRV_FB]; omega

theorem applyCommit_of_false (h : (s.loop n).commitPend = false) : s.applyCommit n = s := by
  rw [State.applyCommit, h]; rfl

theorem applyCommit_commitPend (s : State) (n : Nat) : ((s.applyCommit n).loop n).commitPend = false := by
  unfold State.applyCommit
  split
  · extract_lets src old s₁ new s₂ fb
    have h₂ : (s₂.loop n).commitPend = false := by simp only [s₂, State.loop_modLoop_same]
    split
    · exact h₂
    · rw [State.setWord_loop, State.loop_modLoop_same]
      split <;> exact h₂
  · next h => simpa using h

/-! HOLD (R157). -/

theorem spares_toFault (s : State) (n cause : Nat) : Spares (HoldBits n) Loop.lasting s (s.toFault n cause) := by
  refine Spares.trans (Spares.set (Spares.refl s) fun i h1 h2 => ?_) ((spares_srvGo _ n 4).mono (fun _ _ => StateBits.hold) fun _ _ e => e)
  exact Or.inr (Or.inl ⟨rfl, by simp only [F.SRV_LSTAT_FCAUSE] at h1 h2; omega⟩)

theorem spares_holdStep (s : State) (n : Nat) (ok : Bool) : Spares (HoldBits n) Loop.lasting s (s.holdStep n ok) := by
  have hgo : ∀ st, Spares (HoldBits n) Loop.lasting s (s.srvGo n st) := fun st =>
    (spares_srvGo s n st).mono (fun _ _ => StateBits.hold) fun _ _ e => e
  unfold State.holdStep
  refine spares_ite (fun _ => spares_toFault s n 2) fun _ => ?_
  split
  · refine spares_ite (fun _ => Spares.refl s) fun _ => Spares.bump (hgo 3) fun i h1 h2 => ?_
    exact Or.inr (Or.inr ⟨rfl, by simp only [F.SRV_LCNT_HOLD_CNT] at h2; omega⟩)
  · exact spares_ite (fun _ => hgo 2) fun _ => spares_ite (fun _ => spares_toFault s n 1) fun _ =>
      Spares.modLoop (Spares.refl s) fun _ => by rfl
  · exact Spares.refl s

/-- FAULT shows its cause. -/
theorem toFault_shows (s : State) (hn : n < 24) {cause : Nat} (hc : cause < 4) :
    (s.toFault n cause).srvState n = 4 ∧ (s.toFault n cause).get (F.SRV_LSTAT_FCAUSE n) = cause := by
  refine ⟨srvState_srvGo _ hn (by decide), ?_⟩
  refine ((spares_srvGo _ n 4).get ?_ fun i h1 h2 => ?_).trans ((s.get_set (F.SRV_LSTAT_FCAUSE n) cause (by simp [F.SRV_LSTAT_FCAUSE])).trans
    (Nat.mod_eq_of_lt hc))
  · simp only [Book, F.SRV_LSTAT_FCAUSE, R.SRV_LSTAT]; omega
  · simp only [StateBits, AsideBits, F.SRV_LSTAT_FCAUSE, R.SRV_LSTAT] at *; omega

/-- A plausibility trip faults a closed loop. -/
theorem holdStep_trip {ok : Bool} (htrip : (s.loop n).tripDue = true) (h : s.srvState n = 2 ∨ s.srvState n = 3) :
    s.holdStep n ok = s.toFault n 2 := by
  unfold State.holdStep
  exact if_pos (by simpa [htrip] using h)

/-- No rule of HOLD concerns another state than CLOSED and HOLD. -/
theorem holdStep_of_other {ok : Bool} (h2 : s.srvState n ≠ 2) (h3 : s.srvState n ≠ 3) : s.holdStep n ok = s := by
  unfold State.holdStep
  dsimp only
  rw [if_neg (by simp [h2, h3])]
  split
  · next h => exact absurd h h2
  · next h => exact absurd h h3
  · rfl

theorem holdStep_closed {ok : Bool} (htrip : (s.loop n).tripDue = false) (h : s.srvState n = 2) :
    s.holdStep n ok = if ok then s else (s.srvGo n 3).bump (F.SRV_LCNT_HOLD_CNT n) := by
  unfold State.holdStep
  simp [htrip, h]

theorem holdStep_hold {ok : Bool} (htrip : (s.loop n).tripDue = false) (h : s.srvState n = 3) :
    s.holdStep n ok = if ok then s.srvGo n 2
      else if max 1 (s.get (F.SRV_LTMO_FB_HOLD n)) ≤ (s.loop n).holdN + 1 then s.toFault n 1
      else s.modLoop n fun l => { l with holdN := (s.loop n).holdN + 1 } := by
  unfold State.holdStep
  simp [htrip, h]

end

end Sys2Proof.Machine
end

section
/-!
PROOFS of the family 09_thruster_servo, a loop's period start (O28, R150, R157): its instant, then the pending COMMIT and request, then
the rules of HOLD, then what runs beside the loop's state.
-/
namespace Sys2Proof.Machine

/-! The parts of a period start. -/

/-- The period start's instant is noted, and the servo tick that falls on it comes. -/
def State.periodBegun (s : State) (n : Nat) : State :=
  (if s.now % 125000 = 0 then s.servoTick else s).modLoop n fun l => { l with perAt := s.now, offDue := false }

/-- A loop has reached and begun its next period. -/
def State.periodOpened (s : State) (n : Nat) : State := (s.servoCount n).periodBegun n

/-- What was pending is carried out. -/
def State.requestTaken (s : State) (n : Nat) : State := ((s.applyCommit n).applyReq n).setFlag (F.SRV_LSTAT_PEND n) false

/-- The rules of HOLD and a plausibility trip act. -/
def State.holdJudged (s : State) (n : Nat) : State :=
  (s.holdStep n (s.flag (F.SRV_LSTAT_FB_OK n))).modLoop n fun l => { l with tripDue := false }

/-- What runs beside the loop's state: register values, a waiting command entry, injection, the bitstream outputs. -/
def State.periodRuns (s : State) (n : Nat) : State :=
  let s := s.modLoop n fun l => { l with openOut := s.geti (R.SRV_OPEN_OUT n),
                                         sp := if s.get (F.SRV_LCFG_SP_SRC n) = 0 then s.geti (R.SRV_SP n) else l.sp }
  (((s.takeDue n).injCount n).injStart n).showBout

theorem periodStart_eq {s : State} (hon : s.domOn 8 = true) (n : Nat) :
    s.periodStart n = (((s.periodOpened n).requestTaken n).holdJudged n).periodRuns n := by
  unfold State.periodStart
  rw [hon]
  rfl

/-! What the registers show of a loop. -/

/-- The fields of a loop that say how it stands are the same in two states. -/
structure SameLoop (n : Nat) (s t : State) : Prop where
  state : t.srvState n = s.srvState n
  fcause : t.get (F.SRV_LSTAT_FCAUSE n) = s.get (F.SRV_LSTAT_FCAUSE n)
  lres : t.get (F.SRV_LSTAT_LRES n) = s.get (F.SRV_LSTAT_LRES n)
  pend : t.flag (F.SRV_LSTAT_PEND n) = s.flag (F.SRV_LSTAT_PEND n)
  fbOk : t.flag (F.SRV_LSTAT_FB_OK n) = s.flag (F.SRV_LSTAT_FB_OK n)
  holdCnt : t.get (F.SRV_LCNT_HOLD_CNT n) = s.get (F.SRV_LCNT_HOLD_CNT n)
  out : t.word (R.SRV_U n) = s.word (R.SRV_U n)

theorem SameLoop.trans {n : Nat} {s t u : State} (p : SameLoop n s t) (q : SameLoop n t u) : SameLoop n s u :=
  ⟨q.state.trans p.state, q.fcause.trans p.fcause, q.lres.trans p.lres, q.pend.trans p.pend, q.fbOk.trans p.fbOk,
    q.holdCnt.trans p.holdCnt, q.out.trans p.out⟩

/-- Where neither STATE, LRES, PEND, FB_OK, FCAUSE, HOLD_CNT nor U may be written, a loop stands as it stood. -/
theorem Spares.sameLoop {α : Type} {W : Nat → Nat → Prop} {h : Loop → α} {s t : State} (p : Spares W h s t) {n : Nat} (hn : n < 24)
    (hstat : ∀ i, i < 7 ∨ i = 8 ∨ i = 11 ∨ i = 12 → ¬ W (R.SRV_LSTAT n) i) (hcnt : ∀ i, i < 8 → ¬ W (R.SRV_LCNT n) i)
    (hout : ∀ i, ¬ W (R.SRV_U n) i) : SameLoop n s t := by
  have hb : ¬ Book (R.SRV_LSTAT n) ∧ ¬ Book (R.SRV_LCNT n) ∧ ¬ Book (R.SRV_U n) := by
    simp only [Book, R.SRV_LSTAT, R.SRV_LCNT, R.SRV_U]; omega
  obtain ⟨hbs, hbc, hbu⟩ := hb
  refine ⟨p.get hbs fun i h1 h2 => hstat i ?_, p.get hbs fun i h1 h2 => hstat i ?_, p.get hbs fun i h1 h2 => hstat i ?_,
    p.flag hbs fun i h1 h2 => hstat i ?_, p.flag hbs fun i h1 h2 => hstat i ?_, p.get hbc fun i h1 h2 => hcnt i ?_, p.word hbu hout⟩
  · simp only [F.SRV_LSTAT_STATE] at h1 h2; omega
  · simp only [F.SRV_LSTAT_FCAUSE] at h1 h2; omega
  · simp only [F.SRV_LSTAT_LRES] at h1 h2; omega
  · simp only [F.SRV_LSTAT_PEND] at h1 h2; omega
  · simp only [F.SRV_LSTAT_FB_OK] at h1 h2; omega
  · simp only [F.SRV_LCNT_HOLD_CNT] at h2; omega

theorem Spares.sameLoop_aside {α : Type} {h : Loop → α} {s t : State} (p : Spares AsideBits h s t) {n : Nat} (hn : n < 24) :
    SameLoop n s t := by
  refine p.sameLoop hn (fun i hi => ?_) (fun i hi => ?_) fun i => ?_
  · simp only [AsideBits, R.SRV_LSTAT]; omega
  · simp only [AsideBits, R.SRV_LCNT]; omega
  · simp only [AsideBits, R.SRV_U]; omega

theorem Spares.sameLoop_commit {α : Type} {h : Loop → α} {s t : State} {n : Nat} (p : Spares (CommitBits n) h s t) (hn : n < 24) :
    SameLoop n s t := by
  refine p.sameLoop hn (fun i hi => ?_) (fun i hi => ?_) fun i => ?_
  · simp only [CommitBits, AsideBits, R.SRV_LSTAT, R.SRV_LCFG]; omega
  · simp only [CommitBits, AsideBits, R.SRV_LCNT, R.SRV_LCFG]; omega
  · simp only [CommitBits, AsideBits, R.SRV_U, R.SRV_LCFG]; omega

/-! The period is reached and begun. -/

/-- What the beginning of a period leaves of a loop's hidden state. -/
def Loop.begun (l : Loop) : Loop := { l.control with perAt := 0, offDue := false }

theorem spares_periodBegun (s : State) (n : Nat) : Spares AsideBits Loop.begun s (s.periodBegun n) := by
  refine Spares.modLoop (spares_ite (fun _ => ?_) fun _ => Spares.refl s) fun _ => by rfl
  exact (spares_servoTick s).mono (fun _ _ h => h) fun _ _ => congrArg Loop.begun

theorem periodBegun_perAt (s : State) (n : Nat) : ((s.periodBegun n).loop n).perAt = s.now := by
  rw [State.periodBegun, State.loop_modLoop_same]

section
variable {s : State} {n : Nat}

theorem servoCount_get (s : State) (hn : n < 24) {f : Fld} (hb : ¬ Book f.addr) : (s.servoCount n).get f = s.get f :=
  ((kept_pmu _ (128 + n) (by omega)).get hb).trans (State.advanceTo_get s _ hb)

theorem servoCount_loop (s : State) (n m : Nat) : (s.servoCount n).loop m = s.loop m := by
  rw [State.servoCount, State.pmu_loop, State.advanceTo_loop]

theorem servoCount_now (h : s.nextPeriod n < 2 ^ 64) : (s.servoCount n).now = s.reached (s.nextPeriod n) := by
  rw [State.servoCount, State.pmu_now, now_advanceTo s _ h]

theorem periodOpened_get (s : State) (hn : n < 24) {f : Fld} (hb : ¬ Book f.addr)
    (hw : ∀ i, f.lo ≤ i → i < f.lo + f.w → ¬ AsideBits f.addr i) : (s.periodOpened n).get f = s.get f :=
  ((spares_periodBegun _ n).get hb hw).trans (servoCount_get s hn hb)

theorem periodOpened_sameLoop (s : State) (hn : n < 24) : SameLoop n s (s.periodOpened n) := by
  have hb : ¬ Book (R.SRV_LSTAT n) ∧ ¬ Book (R.SRV_LCNT n) ∧ ¬ Book (R.SRV_U n) := by
    simp only [Book, R.SRV_LSTAT, R.SRV_LCNT, R.SRV_U]; omega
  obtain ⟨hbs, hbc, hbu⟩ := hb
  have hflag : ∀ f : Fld, ¬ Book f.addr → (s.servoCount n).flag f = s.flag f := fun f hf => congrArg (· != 0) (servoCount_get s hn hf)
  refine SameLoop.trans (t := s.servoCount n) ?_ ((spares_periodBegun _ n).sameLoop_aside hn)
  exact ⟨servoCount_get s hn hbs, servoCount_get s hn hbs, servoCount_get s hn hbs, hflag _ hbs, hflag _ hbs, servoCount_get s hn hbc,
    ((kept_pmu _ (128 + n) (by omega)).word _ hbu).trans (State.advanceTo_word s _ hbu)⟩

theorem periodOpened_loop (s : State) (n : Nat) : Loop.begun ((s.periodOpened n).loop n) = Loop.begun (s.loop n) :=
  ((spares_periodBegun _ n).loop n).trans (congrArg Loop.begun (servoCount_loop s n n))

/-! What was pending is carried out. -/

/-- The pending COMMIT is applied, and the pending request taken up. -/
def State.requestRead (s : State) (n : Nat) : State := (s.applyCommit n).modLoop n fun l => { l with pend := none }

theorem applyCommit_sameLoop (s : State) (hn : n < 24) : SameLoop n s (s.applyCommit n) := (spares_applyCommit s n).sameLoop_commit hn

theorem requestRead_sameLoop (s : State) (hn : n < 24) : SameLoop n s (s.requestRead n) := by
  obtain ⟨h1, h2, h3, h4, h5, h6, h7⟩ := applyCommit_sameLoop s hn
  exact ⟨h1, h2, h3, h4, h5, h6, h7⟩

theorem requestTaken_of_some {op : Nat} (hp : (s.loop n).pend = some op) :
    s.requestTaken n = ((s.requestRead n).carried n op).setFlag (F.SRV_LSTAT_PEND n) false := by
  have hcommit : ((s.applyCommit n).loop n).pend = some op := (congrArg (·.2.1) ((spares_applyCommit s n).loop n)).trans hp
  rw [State.requestTaken, applyReq_of_some hcommit]
  rfl

theorem requestTaken_of_none (hp : (s.loop n).pend = none) :
    s.requestTaken n = (s.applyCommit n).setFlag (F.SRV_LSTAT_PEND n) false := by
  have hcommit : ((s.applyCommit n).loop n).pend = none := (congrArg (·.2.1) ((spares_applyCommit s n).loop n)).trans hp
  rw [State.requestTaken, applyReq_of_none hcommit]

/-- A request leaves the instant of the period start, and nothing pending. -/
theorem requestTaken_pending (s : State) (n : Nat) : Loop.pending ((s.requestTaken n).loop n) = ((s.loop n).perAt, false, none) := by
  have hcommit : ((s.applyCommit n).loop n).perAt = (s.loop n).perAt := congrArg (·.1) ((spares_applyCommit s n).loop n)
  cases hp : (s.loop n).pend with
  | none =>
    have hpend : ((s.applyCommit n).loop n).pend = none := (congrArg (·.2.1) ((spares_applyCommit s n).loop n)).trans hp
    rw [requestTaken_of_none hp, State.setFlag_loop, Loop.pending, hcommit, applyCommit_commitPend, hpend]
  | some op =>
    rw [requestTaken_of_some hp, State.setFlag_loop, (spares_carried _ n op).loop n, State.requestRead, State.loop_modLoop_same,
      Loop.pending, hcommit, applyCommit_commitPend]

theorem requestTaken_pend (s : State) (n : Nat) : (s.requestTaken n).flag (F.SRV_LSTAT_PEND n) = false :=
  State.flag_setFlag _ _ false (by simp [F.SRV_LSTAT_PEND]) rfl

/-- PEND is none of the other fields of its register. -/
theorem setPend_get (t : State) (b : Bool) {f : Fld} (h : f.lo + f.w ≤ 6 ∨ 7 ≤ f.lo) :
    (t.setFlag (F.SRV_LSTAT_PEND n) b).get f = t.get f := t.get_set_apart f _ _ h

/-- What a COMMIT and a request write. -/
def TakenBits (n a i : Nat) : Prop := CommitBits n a i ∨ RequestBits n a i

theorem spares_requestTaken (s : State) (n : Nat) : Spares (TakenBits n) Loop.perAt s (s.requestTaken n) := by
  have hcommit : Spares (TakenBits n) Loop.perAt s (s.applyCommit n) :=
    (spares_applyCommit s n).mono (fun _ _ => Or.inl) fun _ _ => congrArg Prod.fst
  refine Spares.setFlag (hcommit.trans ?_) fun i h1 h2 => ?_
  · cases hp : ((s.applyCommit n).loop n).pend with
    | none => rw [applyReq_of_none hp]; exact Spares.refl _
    | some op =>
      rw [applyReq_of_some hp]
      exact Spares.trans (Spares.modLoop (Spares.refl _) fun _ => by rfl)
        ((spares_carried _ n op).mono (fun _ _ => Or.inr) fun _ _ => congrArg Prod.fst)
  · exact Or.inr (Or.inr ⟨rfl, by simp only [F.SRV_LSTAT_PEND] at h1 h2; omega⟩)

theorem requestTaken_fbOk (s : State) (hn : n < 24) : (s.requestTaken n).flag (F.SRV_LSTAT_FB_OK n) = s.flag (F.SRV_LSTAT_FB_OK n) :=
  (spares_requestTaken s n).fbOk hn (by simp only [TakenBits, CommitBits, RequestBits, AsideBits, R.SRV_LSTAT, R.SRV_LCFG]; omega)

theorem requestTaken_srvState {op : Nat} (hp : (s.loop n).pend = some op) :
    (s.requestTaken n).srvState n = ((s.requestRead n).carried n op).srvState n := by
  rw [requestTaken_of_some hp]
  exact setPend_get _ false (by simp [F.SRV_LSTAT_STATE])

theorem requestTaken_srvState_of_none (hn : n < 24) (hp : (s.loop n).pend = none) : (s.requestTaken n).srvState n = s.srvState n := by
  rw [requestTaken_of_none hp, ← (applyCommit_sameLoop s hn).state]
  exact setPend_get _ false (by simp [F.SRV_LSTAT_STATE])

theorem requestTaken_tripDue_of_none (hp : (s.loop n).pend = none) : ((s.requestTaken n).loop n).tripDue = (s.loop n).tripDue := by
  rw [requestTaken_of_none hp]
  exact congrArg (·.2.2.1) ((spares_applyCommit s n).loop n)

theorem requestTaken_holdCnt_of_none (hn : n < 24) (hp : (s.loop n).pend = none) :
    (s.requestTaken n).get (F.SRV_LCNT_HOLD_CNT n) = s.get (F.SRV_LCNT_HOLD_CNT n) := by
  rw [requestTaken_of_none hp, ← (applyCommit_sameLoop s hn).holdCnt]
  refine State.get_set_addr _ _ _ _ ?_
  simp only [F.SRV_LCNT_HOLD_CNT, F.SRV_LSTAT_PEND, R.SRV_LCNT, R.SRV_LSTAT]; omega

/-- With nothing pending a period start takes nothing up. -/
theorem requestTaken_of_nothing (hp : (s.loop n).pend = none) (hc : (s.loop n).commitPend = false) :
    s.requestTaken n = s.setFlag (F.SRV_LSTAT_PEND n) false := by
  rw [requestTaken_of_none hp, applyCommit_of_false hc]

theorem requestTaken_enable (hn : n < 24) (hp : (s.loop n).pend = some 1) (h : s.srvState n = 0) : (s.requestTaken n).srvState n = 1 := by
  rw [requestTaken_srvState hp, carried_enable hn ((requestRead_sameLoop s hn).state.trans h)]

theorem requestTaken_disable (hn : n < 24) (hp : (s.loop n).pend = some 2) (h : s.srvState n ≠ 0) : (s.requestTaken n).srvState n = 0 := by
  rw [requestTaken_srvState hp, carried_disable hn ((requestRead_sameLoop s hn).state.symm ▸ h)]

theorem requestTaken_open (hn : n < 24) (hp : (s.loop n).pend = some 3)
    (h : s.srvState n = 2 ∨ s.srvState n = 3 ∨ s.srvState n = 4) : (s.requestTaken n).srvState n = 1 := by
  rw [requestTaken_srvState hp, carried_open hn ((requestRead_sameLoop s hn).state.symm ▸ h)]

theorem requestTaken_close_refused (hn : n < 24) (hp : (s.loop n).pend = some 4) (h : s.srvState n = 1)
    (hfb : s.flag (F.SRV_LSTAT_FB_OK n) = false) :
    (s.requestTaken n).srvState n = 1 ∧ (s.requestTaken n).get (F.SRV_LSTAT_LRES n) = 2 := by
  obtain ⟨hstate, _, _, _, hok, _, _⟩ := requestRead_sameLoop s hn
  rw [requestTaken_srvState hp, requestTaken_of_some hp, carried_close_refused (hstate.trans h) (hok.trans hfb)]
  constructor
  · exact (State.get_set_apart _ _ _ _ (by simp [F.SRV_LSTAT_STATE, F.SRV_LSTAT_LRES])).trans (hstate.trans h)
  · rw [setPend_get _ false (by simp [F.SRV_LSTAT_LRES]), State.get_set _ _ _ (by simp [F.SRV_LSTAT_LRES])]
    rfl

theorem requestTaken_close (hn : n < 24) (hp : (s.loop n).pend = some 4) (h : s.srvState n = 1)
    (hfb : s.flag (F.SRV_LSTAT_FB_OK n) = true) (hc : (s.loop n).commitPend = false) (hnew : (s.loop n).fbNew = false)
    (hkind : s.get (F.SRV_LIO_FB_KIND n) ≠ 0) (htrip : (s.loop n).tripDue = false) :
    (s.requestTaken n).srvState n = 2 ∧ ((s.requestTaken n).loop n).tripDue = false := by
  have hread : s.requestRead n = s.modLoop n fun l => { l with pend := none } := by rw [State.requestRead, applyCommit_of_false hc]
  rw [requestTaken_srvState hp, requestTaken_of_some hp, State.setFlag_loop, hread]
  refine carried_close hn h hfb ?_ hkind ?_
  · rw [State.loop_modLoop_same]; exact hnew
  · rw [State.loop_modLoop_same]; exact htrip

/-! The rules of HOLD. -/

theorem spares_holdJudged (s : State) (n : Nat) : Spares (HoldBits n) Loop.lasting s (s.holdJudged n) :=
  (spares_holdStep s n _).modLoop fun _ => by rfl

theorem holdJudged_of_other (h2 : s.srvState n ≠ 2) (h3 : s.srvState n ≠ 3) :
    s.holdJudged n = s.modLoop n fun l => { l with tripDue := false } := by rw [State.holdJudged, holdStep_of_other h2 h3]

theorem holdJudged_tripDue (s : State) (n : Nat) : ((s.holdJudged n).loop n).tripDue = false := by
  rw [State.holdJudged, State.loop_modLoop_same]

theorem holdJudged_trip (hn : n < 24) (htrip : (s.loop n).tripDue = true) (h : s.srvState n = 2 ∨ s.srvState n = 3) :
    (s.holdJudged n).srvState n = 4 ∧ (s.holdJudged n).get (F.SRV_LSTAT_FCAUSE n) = 2 := by
  rw [State.holdJudged, holdStep_trip htrip h]
  exact toFault_shows s hn (by decide)

theorem holdJudged_closed_valid (htrip : (s.loop n).tripDue = false) (h : s.srvState n = 2)
    (hfb : s.flag (F.SRV_LSTAT_FB_OK n) = true) : (s.holdJudged n).srvState n = 2 := by
  rw [State.holdJudged, holdStep_closed htrip h, hfb]
  exact h

theorem holdJudged_closed_invalid (hn : n < 24) (htrip : (s.loop n).tripDue = false) (h : s.srvState n = 2)
    (hfb : s.flag (F.SRV_LSTAT_FB_OK n) = false) : (s.holdJudged n).srvState n = 3
      ∧ (s.holdJudged n).get (F.SRV_LCNT_HOLD_CNT n) = min 255 (s.get (F.SRV_LCNT_HOLD_CNT n) + 1) := by
  have hb : ¬ Book (R.SRV_LCNT n) := by simp only [Book, R.SRV_LCNT]; omega
  have hcnt : (s.srvGo n 3).get (F.SRV_LCNT_HOLD_CNT n) = s.get (F.SRV_LCNT_HOLD_CNT n) := by
    refine (spares_srvGo s n 3).get hb fun i _ h2 => ?_
    simp only [StateBits, AsideBits, F.SRV_LCNT_HOLD_CNT, R.SRV_LCNT, R.SRV_LSTAT] at *; omega
  rw [State.holdJudged, holdStep_closed htrip h, hfb]
  constructor
  · refine (State.get_set_addr _ _ _ _ ?_).trans (srvState_srvGo s hn (by decide))
    simp only [F.SRV_LSTAT_STATE, F.SRV_LCNT_HOLD_CNT, R.SRV_LSTAT, R.SRV_LCNT]; omega
  · rw [← hcnt]
    exact State.get_bump _ _ (by simp [F.SRV_LCNT_HOLD_CNT])

theorem holdJudged_hold_valid (hn : n < 24) (htrip : (s.loop n).tripDue = false) (h : s.srvState n = 3)
    (hfb : s.flag (F.SRV_LSTAT_FB_OK n) = true) : (s.holdJudged n).srvState n = 2 := by
  rw [State.holdJudged, holdStep_hold htrip h, hfb]
  exact srvState_srvGo s hn (by decide)

/-- HOLD ends in FAULT after FB_HOLD periods, and counts them until then. -/
theorem holdJudged_hold_invalid (hn : n < 24) (htrip : (s.loop n).tripDue = false) (h : s.srvState n = 3)
    (hfb : s.flag (F.SRV_LSTAT_FB_OK n) = false) :
    if max 1 (s.get (F.SRV_LTMO_FB_HOLD n)) ≤ (s.loop n).holdN + 1
    then (s.holdJudged n).srvState n = 4 ∧ (s.holdJudged n).get (F.SRV_LSTAT_FCAUSE n) = 1
    else (s.holdJudged n).srvState n = 3 ∧ ((s.holdJudged n).loop n).holdN = (s.loop n).holdN + 1 := by
  rw [State.holdJudged, holdStep_hold htrip h, hfb, if_neg Bool.false_ne_true]
  split
  · exact toFault_shows s hn (by decide)
  · refine ⟨h, ?_⟩
    rw [State.loop_modLoop_same, State.loop_modLoop_same]

end

end Sys2Proof.Machine
end

section
/-!
PROOFS of the family 09_thruster_servo, what a period start shows (O28): the parts put together, in terms of the state before it.
-/
namespace Sys2Proof.Machine

/-- What a loop keeps once the rules of HOLD have been judged. -/
def Loop.judged (l : Loop) : Nat × Bool × Option Nat × Bool × Nat := (l.perAt, l.commitPend, l.pend, l.tripDue, l.holdN)

theorem spares_periodRuns (s : State) (n : Nat) : Spares AsideBits Loop.judged s (s.periodRuns n) := by
  have hcontrol : ∀ {t u : State}, Spares AsideBits Loop.control t u → Spares AsideBits Loop.judged t u := fun p =>
    p.mono (fun _ _ h => h) fun _ _ => congrArg Loop.judged
  unfold State.periodRuns
  refine Spares.trans ?_ ((spares_showBout _).mono (fun _ _ h => h) fun _ _ => congrArg Loop.judged)
  refine Spares.trans ?_ (hcontrol (spares_injStart _ n))
  refine Spares.trans ?_ (hcontrol (spares_injCount _ n))
  exact Spares.trans (Spares.modLoop (Spares.refl s) fun _ => by rfl) (hcontrol (spares_takeDue _ n))

/-- A loop's next period up to the rules of HOLD. -/
def State.periodJudged (s : State) (n : Nat) : State := ((s.periodOpened n).requestTaken n).holdJudged n

section
variable {s : State} {n : Nat}

theorem spares_periodStart (hon : s.domOn 8 = true) : Spares AsideBits Loop.judged (s.periodJudged n) (s.periodStart n) := by
  rw [periodStart_eq hon]
  exact spares_periodRuns _ n

theorem periodStart_sameLoop (hon : s.domOn 8 = true) (hn : n < 24) : SameLoop n (s.periodJudged n) (s.periodStart n) :=
  (spares_periodStart hon).sameLoop_aside hn

/-! The instant (R150). -/

theorem srvPeriod_pos (s : State) (n : Nat) : 0 < s.srvPeriod n := Nat.mul_pos (by decide) (Nat.two_pow_pos _)

/-- The next period start lies on the grid of the loop's period, at most one period ahead. -/
theorem nextPeriod_spec (s : State) (n : Nat) :
    s.nextPeriod n % s.srvPeriod n = 0 ∧ s.now ≤ s.nextPeriod n ∧ s.nextPeriod n ≤ s.now + s.srvPeriod n := by
  have hpos := srvPeriod_pos s n
  unfold State.nextPeriod nextMultiple
  generalize s.srvPeriod n = p at *
  dsimp only
  split
  · next h =>
    simp only [Bool.and_eq_true, decide_eq_true_eq] at h
    exact ⟨h.1, le_refl _, Nat.le_add_right _ _⟩
  · rw [if_neg (by omega)]
    have hdiv := Nat.div_add_mod s.now p
    have hmod := Nat.mod_lt s.now hpos
    rw [Nat.add_mul, Nat.mul_comm (s.now / p), Nat.one_mul]
    refine ⟨?_, by omega, by omega⟩
    rw [Nat.add_mod_right, Nat.mul_mod_right]

theorem periodOpened_now (hstart : s.nextPeriod n < 2 ^ 64) : (s.periodOpened n).now = s.reached (s.nextPeriod n) :=
  (spares_periodBegun _ n).now.trans (servoCount_now hstart)

theorem periodStart_now (hon : s.domOn 8 = true) (hstart : s.nextPeriod n < 2 ^ 64) :
    (s.periodStart n).now = s.reached (s.nextPeriod n) := by
  rw [(spares_periodStart hon).now, State.periodJudged, (spares_holdJudged _ n).now, (spares_requestTaken _ n).now,
    periodOpened_now hstart]

/-! What is pending and when (R158). -/

theorem periodJudged_pending (hstart : s.nextPeriod n < 2 ^ 64) :
    Loop.pending ((s.periodJudged n).loop n) = (s.reached (s.nextPeriod n), false, none) := by
  have hperAt : ((s.periodOpened n).loop n).perAt = s.reached (s.nextPeriod n) := by
    rw [State.periodOpened, periodBegun_perAt, servoCount_now hstart]
  refine (congrArg Loop.pending ((spares_holdJudged _ n).loop n)).trans ?_
  rw [← hperAt]
  exact requestTaken_pending _ n

theorem periodStart_perAt (hon : s.domOn 8 = true) (hstart : s.nextPeriod n < 2 ^ 64) :
    ((s.periodStart n).loop n).perAt = s.reached (s.nextPeriod n) :=
  (congrArg (·.1) ((spares_periodStart hon).loop n)).trans (congrArg (·.1) (periodJudged_pending hstart))

theorem periodStart_commitPend (hon : s.domOn 8 = true) (hstart : s.nextPeriod n < 2 ^ 64) :
    ((s.periodStart n).loop n).commitPend = false :=
  (congrArg (·.2.1) ((spares_periodStart hon).loop n)).trans (congrArg (·.2.1) (periodJudged_pending hstart))

theorem periodStart_pend (hon : s.domOn 8 = true) (hstart : s.nextPeriod n < 2 ^ 64) : ((s.periodStart n).loop n).pend = none :=
  (congrArg (·.2.2.1) ((spares_periodStart hon).loop n)).trans (congrArg (·.2.2) (periodJudged_pending hstart))

theorem periodStart_tripDue (hon : s.domOn 8 = true) : ((s.periodStart n).loop n).tripDue = false :=
  (congrArg (·.2.2.2.1) ((spares_periodStart hon).loop n)).trans (holdJudged_tripDue _ n)

theorem periodStart_holdN (hon : s.domOn 8 = true) : ((s.periodStart n).loop n).holdN = ((s.periodJudged n).loop n).holdN :=
  congrArg (·.2.2.2.2) ((spares_periodStart hon).loop n)

theorem periodStart_showsPend (hon : s.domOn 8 = true) (hn : n < 24) : (s.periodStart n).flag (F.SRV_LSTAT_PEND n) = false := by
  rw [(periodStart_sameLoop hon hn).pend, State.periodJudged, ← requestTaken_pend (s.periodOpened n) n]
  refine (spares_holdJudged _ n).flag ?_ fun i h1 h2 => ?_
  · simp only [Book, F.SRV_LSTAT_PEND, R.SRV_LSTAT]; omega
  · simp only [HoldBits, AsideBits, F.SRV_LSTAT_PEND, R.SRV_LSTAT, R.SRV_LCNT] at *; omega

/-- What a loop's hidden state holds at the beginning of its period, beside its instant and what runs beside its state. -/
theorem periodOpened_keeps {β : Type} {f : Loop → β} (hf : ∀ l, f (Loop.begun l) = f l) : f ((s.periodOpened n).loop n) = f (s.loop n) := by
  rw [← hf, periodOpened_loop, hf]

/-! The state (R157). -/

/-- A request into a state that HOLD does not concern ends there. -/
theorem periodStart_srvState_of_taken (hon : s.domOn 8 = true) (hn : n < 24) {v : Nat} (h2 : v ≠ 2) (h3 : v ≠ 3)
    (h : ((s.periodOpened n).requestTaken n).srvState n = v) : (s.periodStart n).srvState n = v := by
  rw [(periodStart_sameLoop hon hn).state, State.periodJudged, holdJudged_of_other (h ▸ h2) (h ▸ h3)]
  exact h

theorem periodStart_enable (hon : s.domOn 8 = true) (hn : n < 24) (hp : (s.loop n).pend = some 1) (h : s.srvState n = 0) :
    (s.periodStart n).srvState n = 1 :=
  periodStart_srvState_of_taken hon hn (by decide) (by decide)
    (requestTaken_enable hn ((periodOpened_keeps (f := Loop.pend) fun _ => rfl).trans hp) ((periodOpened_sameLoop s hn).state.trans h))

theorem periodStart_disable (hon : s.domOn 8 = true) (hn : n < 24) (hp : (s.loop n).pend = some 2) (h : s.srvState n ≠ 0) :
    (s.periodStart n).srvState n = 0 :=
  periodStart_srvState_of_taken hon hn (by decide) (by decide)
    (requestTaken_disable hn ((periodOpened_keeps (f := Loop.pend) fun _ => rfl).trans hp) ((periodOpened_sameLoop s hn).state.symm ▸ h))

theorem periodStart_open (hon : s.domOn 8 = true) (hn : n < 24) (hp : (s.loop n).pend = some 3)
    (h : s.srvState n = 2 ∨ s.srvState n = 3 ∨ s.srvState n = 4) : (s.periodStart n).srvState n = 1 :=
  periodStart_srvState_of_taken hon hn (by decide) (by decide)
    (requestTaken_open hn ((periodOpened_keeps (f := Loop.pend) fun _ => rfl).trans hp) ((periodOpened_sameLoop s hn).state.symm ▸ h))

theorem periodStart_close_refused (hon : s.domOn 8 = true) (hn : n < 24) (hp : (s.loop n).pend = some 4) (h : s.srvState n = 1)
    (hfb : s.flag (F.SRV_LSTAT_FB_OK n) = false) :
    (s.periodStart n).srvState n = 1 ∧ (s.periodStart n).get (F.SRV_LSTAT_LRES n) = 2 := by
  obtain ⟨hstate, _, _, _, hok, _, _⟩ := periodOpened_sameLoop s hn
  obtain ⟨h1, hres⟩ := requestTaken_close_refused hn ((periodOpened_keeps (f := Loop.pend) fun _ => rfl).trans hp) (hstate.trans h)
    (hok.trans hfb)
  refine ⟨periodStart_srvState_of_taken hon hn (by decide) (by decide) h1, ?_⟩
  rw [(periodStart_sameLoop hon hn).lres, State.periodJudged, holdJudged_of_other (by omega) (by omega)]
  exact hres

theorem periodStart_close (hon : s.domOn 8 = true) (hn : n < 24) (hp : (s.loop n).pend = some 4) (h : s.srvState n = 1)
    (hfb : s.flag (F.SRV_LSTAT_FB_OK n) = true) (hc : (s.loop n).commitPend = false) (hnew : (s.loop n).fbNew = false)
    (hkind : s.get (F.SRV_LIO_FB_KIND n) ≠ 0) (htrip : (s.loop n).tripDue = false) : (s.periodStart n).srvState n = 2 := by
  obtain ⟨hstate, _, _, _, hok, _, _⟩ := periodOpened_sameLoop s hn
  have hkept : (s.periodOpened n).get (F.SRV_LIO_FB_KIND n) = s.get (F.SRV_LIO_FB_KIND n) := by
    refine periodOpened_get s hn ?_ fun i _ _ => ?_
    · simp only [Book, F.SRV_LIO_FB_KIND, R.SRV_LIO]; omega
    · simp only [AsideBits, F.SRV_LIO_FB_KIND, R.SRV_LIO]; omega
  obtain ⟨h2, ht⟩ := requestTaken_close hn ((periodOpened_keeps (f := Loop.pend) fun _ => rfl).trans hp) (hstate.trans h)
    (hok.trans hfb) ((periodOpened_keeps (f := Loop.commitPend) fun _ => rfl).trans hc)
    ((periodOpened_keeps (f := Loop.fbNew) fun _ => rfl).trans hnew) (hkept.symm ▸ hkind)
    ((periodOpened_keeps (f := Loop.tripDue) fun _ => rfl).trans htrip)
  rw [(periodStart_sameLoop hon hn).state, State.periodJudged]
  exact holdJudged_closed_valid ht h2 ((requestTaken_fbOk _ hn).trans (hok.trans hfb))

section
variable (hon : s.domOn 8 = true) (hn : n < 24) (hp : (s.loop n).pend = none)
include hn hp

/-- With no request pending, the state that the rules of HOLD judge. -/
theorem taken_of_none : ((s.periodOpened n).requestTaken n).srvState n = s.srvState n
    ∧ ((s.periodOpened n).requestTaken n).flag (F.SRV_LSTAT_FB_OK n) = s.flag (F.SRV_LSTAT_FB_OK n)
    ∧ (((s.periodOpened n).requestTaken n).loop n).tripDue = (s.loop n).tripDue := by
  obtain ⟨hstate, _, _, _, hok, _, _⟩ := periodOpened_sameLoop s hn
  have hp' : ((s.periodOpened n).loop n).pend = none := (periodOpened_keeps (f := Loop.pend) fun _ => rfl).trans hp
  exact ⟨(requestTaken_srvState_of_none hn hp').trans hstate, (requestTaken_fbOk _ hn).trans hok,
    (requestTaken_tripDue_of_none hp').trans (periodOpened_keeps (f := Loop.tripDue) fun _ => rfl)⟩

include hon

theorem periodStart_trip (htrip : (s.loop n).tripDue = true) (h : s.srvState n = 2 ∨ s.srvState n = 3) :
    (s.periodStart n).srvState n = 4 ∧ (s.periodStart n).get (F.SRV_LSTAT_FCAUSE n) = 2 := by
  obtain ⟨hstate, _, ht⟩ := taken_of_none hn hp
  rw [(periodStart_sameLoop hon hn).state, (periodStart_sameLoop hon hn).fcause]
  exact holdJudged_trip hn (ht.trans htrip) (hstate.symm ▸ h)

theorem periodStart_holds (htrip : (s.loop n).tripDue = false) (h : s.srvState n = 2) (hfb : s.flag (F.SRV_LSTAT_FB_OK n) = false) :
    (s.periodStart n).srvState n = 3
    ∧ (s.periodStart n).get (F.SRV_LCNT_HOLD_CNT n) = min 255 (s.get (F.SRV_LCNT_HOLD_CNT n) + 1) := by
  obtain ⟨hstate, hok, ht⟩ := taken_of_none hn hp
  have hp' : ((s.periodOpened n).loop n).pend = none := (periodOpened_keeps (f := Loop.pend) fun _ => rfl).trans hp
  rw [(periodStart_sameLoop hon hn).state, (periodStart_sameLoop hon hn).holdCnt, ← (periodOpened_sameLoop s hn).holdCnt,
    ← requestTaken_holdCnt_of_none hn hp']
  exact holdJudged_closed_invalid hn (ht.trans htrip) (hstate.trans h) (hok.trans hfb)

theorem periodStart_closes_again (htrip : (s.loop n).tripDue = false) (h : s.srvState n = 3)
    (hfb : s.flag (F.SRV_LSTAT_FB_OK n) = true) : (s.periodStart n).srvState n = 2 := by
  obtain ⟨hstate, hok, ht⟩ := taken_of_none hn hp
  rw [(periodStart_sameLoop hon hn).state]
  exact holdJudged_hold_valid hn (ht.trans htrip) (hstate.trans h) (hok.trans hfb)

/-- With no COMMIT pending, a loop in HOLD faults after FB_HOLD periods, and counts them until then. -/
theorem periodStart_hold (htrip : (s.loop n).tripDue = false) (h : s.srvState n = 3) (hfb : s.flag (F.SRV_LSTAT_FB_OK n) = false)
    (hc : (s.loop n).commitPend = false) :
    if max 1 (s.get (F.SRV_LTMO_FB_HOLD n)) ≤ (s.loop n).holdN + 1
    then (s.periodStart n).srvState n = 4 ∧ (s.periodStart n).get (F.SRV_LSTAT_FCAUSE n) = 1
    else (s.periodStart n).srvState n = 3 ∧ ((s.periodStart n).loop n).holdN = (s.loop n).holdN + 1 := by
  obtain ⟨hstate, hok, ht⟩ := taken_of_none hn hp
  have hp' : ((s.periodOpened n).loop n).pend = none := (periodOpened_keeps (f := Loop.pend) fun _ => rfl).trans hp
  have hc' : ((s.periodOpened n).loop n).commitPend = false := (periodOpened_keeps (f := Loop.commitPend) fun _ => rfl).trans hc
  have hjudged := holdJudged_hold_invalid hn (ht.trans htrip) (hstate.trans h) (hok.trans hfb)
  have hlimit : ((s.periodOpened n).requestTaken n).get (F.SRV_LTMO_FB_HOLD n) = s.get (F.SRV_LTMO_FB_HOLD n) := by
    rw [requestTaken_of_nothing hp' hc']
    refine (State.get_set_addr _ _ _ _ ?_).trans (periodOpened_get s hn ?_ fun i _ _ => ?_)
    · simp only [F.SRV_LTMO_FB_HOLD, F.SRV_LSTAT_PEND, R.SRV_LTMO, R.SRV_LSTAT]; omega
    · simp only [Book, F.SRV_LTMO_FB_HOLD, R.SRV_LTMO]; omega
    · simp only [AsideBits, F.SRV_LTMO_FB_HOLD, R.SRV_LTMO]; omega
  have hcount : (((s.periodOpened n).requestTaken n).loop n).holdN = (s.loop n).holdN := by
    rw [requestTaken_of_nothing hp' hc', State.setFlag_loop]
    exact periodOpened_keeps (f := Loop.holdN) fun _ => rfl
  rw [hlimit, hcount] at hjudged
  rw [(periodStart_sameLoop hon hn).state, (periodStart_sameLoop hon hn).fcause, periodStart_holdN hon]
  exact hjudged

theorem periodStart_stays (h : s.srvState n = 0 ∨ s.srvState n = 1 ∨ s.srvState n = 4
    ∨ (s.srvState n = 2 ∧ s.flag (F.SRV_LSTAT_FB_OK n) = true ∧ (s.loop n).tripDue = false)) :
    (s.periodStart n).srvState n = s.srvState n := by
  obtain ⟨hstate, hok, ht⟩ := taken_of_none hn hp
  by_cases h2 : s.srvState n = 2
  · obtain ⟨_, hfb, htrip⟩ := ((h.resolve_left (by omega)).resolve_left (by omega)).resolve_left (by omega)
    rw [(periodStart_sameLoop hon hn).state, h2]
    exact holdJudged_closed_valid (ht.trans htrip) (hstate.trans h2) (hok.trans hfb)
  · exact periodStart_srvState_of_taken hon hn h2 (by omega) hstate

end

/-- A period start writes no output. -/
theorem periodStart_out (hon : s.domOn 8 = true) (hn : n < 24) : (s.periodStart n).word (R.SRV_U n) = s.word (R.SRV_U n) := by
  have hb : ¬ Book (R.SRV_U n) := by simp only [Book, R.SRV_U]; omega
  rw [(periodStart_sameLoop hon hn).out, State.periodJudged, ← (periodOpened_sameLoop s hn).out]
  refine ((spares_holdJudged _ n).word hb fun i => ?_).trans ((spares_requestTaken _ n).word hb fun i => ?_)
  · simp only [HoldBits, AsideBits, R.SRV_U, R.SRV_LSTAT, R.SRV_LCNT]; omega
  · simp only [TakenBits, CommitBits, RequestBits, AsideBits, R.SRV_U, R.SRV_LSTAT, R.SRV_LCFG]; omega

end

end Sys2Proof.Machine
end

section
/-!
PROOFS of the family 09_thruster_servo, a loop's feedback latch and its output (O28): what the latch, the law, the output's destination
and the plausibility model write.
-/
namespace Sys2Proof.Machine

/-! What is written, and what is kept of a loop. -/

/-- What a feedback latch writes: FB_OK, beside the bits aside. -/
def LatchBits (n a i : Nat) : Prop := AsideBits a i ∨ a = R.SRV_LSTAT n ∧ i = 8

/-- What an output writes: U, beside the bits aside. -/
def DriveBits (n a i : Nat) : Prop := AsideBits a i ∨ a = R.SRV_U n

/-- What the plausibility model writes: PLAUS_CNT, beside the bits aside. -/
def PlausBits (n a i : Nat) : Prop := AsideBits a i ∨ a = R.SRV_LCNT n ∧ 8 ≤ i ∧ i < 16

/-- What a latch leaves of a loop's hidden state. -/
def Loop.unlatched (l : Loop) : Loop := { l with fb := 0, fbPrev := 0, fbNew := false, avg := [] }

/-- What an output leaves of a loop's hidden state. -/
def Loop.undriven (l : Loop) : Loop := { l with lim := 0, d := 0, integ := 0, injVal := 0, u := 0, uAt := 0, uOld := 0 }

/-- What the plausibility model leaves of a loop's hidden state. -/
def Loop.unjudged (l : Loop) : Loop := { l.control with ym := 0, plausN := 0, tripDue := false }

/-! The latch (R151, R159, R163). -/

theorem spares_moveEncs (s : State) (moved : List (Fin 12 × Int)) : Spares AsideBits id s (s.moveEncs moved) := by
  refine spares_foldl _ (fun t m _ => spares_ite (fun _ => Spares.setWord (Spares.refl t) fun i => ?_) fun _ => Spares.refl t) s
  simp only [AsideBits, R.ENC_POS]; omega

theorem spares_latchSsi (s : State) (n : Nat) : Spares AsideBits id s (s.latchSsi n) := by
  have hput : ∀ t : State, ∀ f : Servo → Servo, (∀ v, (f v).loops = v.loops) → Spares AsideBits id t (t.modSrv f) :=
    fun t f hf => spares_of_same rfl (hf t.srv) rfl rfl
  unfold State.latchSsi
  refine spares_foldl _ (fun t c _ => ?_) s
  dsimp only
  split
  · exact Spares.refl t
  · refine spares_ite (fun _ => Spares.refl t) fun _ => ?_
    refine Spares.trans (hput t _ fun _ => by rfl) (spares_ite (fun _ => Spares.refl _) fun _ => ?_)
    refine Spares.trans (Spares.bump (Spares.refl _) fun i _ _ => ?_) (hput _ _ fun _ => by rfl)
    simp only [AsideBits, F.ENC_CNT_LATE_CNT, R.ENC_CNT]; omega

theorem spares_latchFb (s : State) (n : Nat) : Spares AsideBits Loop.unlatched s (s.latchFb n).1 := by
  unfold State.latchFb
  extract_lets i raw₁ k win s₂ v raw₃
  split
  · exact Spares.refl s
  · have h₂ : Spares AsideBits Loop.unlatched s s₂ := (Spares.refl s).modLoop fun _ => by rfl
    split <;> exact h₂
  · exact Spares.refl s
  · exact Spares.refl s

theorem spares_latchPeriod (s : State) (n : Nat) : Spares (LatchBits n) Loop.unlatched s (s.latchPeriod n).1 := by
  have h₀ : Spares (LatchBits n) Loop.unlatched s ((s.latchSsi n).latchFb n).1 :=
    ((spares_latchSsi s n).mono (fun _ _ => Or.inl) fun _ _ => congrArg Loop.unlatched).trans
      ((spares_latchFb _ n).mono (fun _ _ => Or.inl) fun _ _ e => e)
  unfold State.latchPeriod
  generalize (s.latchSsi n).latchFb n = r at *
  obtain ⟨s₁, raw, ok⟩ := r
  dsimp only at *
  have h₂ : Spares (LatchBits n) Loop.unlatched s
      ((s₁.setFlag (F.SRV_LSTAT_FB_OK n) ok).setWord (R.SRV_RAW n) (BitVec.ofInt 32 raw)) := by
    refine Spares.setWord (h₀.setFlag fun i h1 h2 => ?_) fun i => Or.inl ?_
    · exact Or.inr ⟨rfl, by simp only [F.SRV_LSTAT_FB_OK] at h1 h2; omega⟩
    · simp only [AsideBits, R.SRV_RAW]; omega
  refine spares_ite (fun _ => Spares.setWord (h₂.modLoop fun _ => by rfl) fun i => Or.inl ?_) fun _ => h₂.modLoop fun _ => by rfl
  simp only [AsideBits, R.SRV_FB]; omega

/-! An output at its destination (R151, R178, R274). -/

theorem spares_canCapture (s : State) (c b : Nat) {W : Nat → Nat → Prop} {α : Type} {h : Loop → α} : Spares W h s (s.canCapture c b) := by
  unfold State.canCapture
  split
  · exact Spares.refl s
  · split
    · exact spares_ite (fun _ => spares_of_same rfl rfl rfl rfl) fun _ => Spares.refl s
    · exact Spares.refl s

/-- The output's value stands in U and in the loop; its destination lies aside. -/
theorem spares_srvDrive_of_set (s : State) (n : Nat) (u : Int) :
    Spares AsideBits Loop.undriven (s.setWord (R.SRV_U n) (BitVec.ofInt 32 u)) (s.srvDrive n u) := by
  unfold State.srvDrive
  extract_lets w now s₁ idx c b dofs s₂ s₃
  have h₁ : Spares AsideBits Loop.undriven (s.setWord (R.SRV_U n) (BitVec.ofInt 32 u)) s₁ := Spares.modLoop (Spares.refl _) fun _ => by rfl
  have hidx : idx < 2 ^ 8 := get_lt s₁ (F.SRV_LIO_OUT_IDX n)
  have h₃ : Spares AsideBits Loop.undriven (s.setWord (R.SRV_U n) (BitVec.ofInt 32 u)) s₃ := by
    refine (h₁.trans (spares_canCapture s₁ c b)).trans (spares_foldl _ (fun t i hi => ?_) s₂)
    refine spares_ite (fun _ => Spares.refl t) fun _ => Spares.set (Spares.refl t) fun j _ _ => ?_
    have hi := List.mem_range.1 hi
    have hdofs : dofs < 2 ^ 6 := get_lt s₁ (F.CAN_BCFG_DOFS c b)
    simp only [AsideBits, R.CAN_BDATA]; omega
  split
  · refine (h₁.trans ?_).trans ((spares_showBout _).mono (fun _ _ h => h) fun _ _ => congrArg Loop.undriven)
    exact spares_of_same rfl rfl rfl rfl
  · exact h₃.trans (spares_of_same rfl rfl rfl rfl)
  · exact h₁

theorem spares_srvDrive (s : State) (n : Nat) (u : Int) : Spares (DriveBits n) Loop.undriven s (s.srvDrive n u) :=
  (Spares.setWord (Spares.refl s) fun _ => Or.inr rfl).trans ((spares_srvDrive_of_set s n u).mono (fun _ _ => Or.inl) fun _ _ e => e)

theorem srvDrive_out (s : State) {n : Nat} (hn : n < 24) (u : Int) : (s.srvDrive n u).word (R.SRV_U n) = BitVec.ofInt 32 u := by
  refine ((spares_srvDrive_of_set s n u).word ?_ fun i => ?_).trans (State.word_setWord_same _ _ _)
  · simp only [Book, R.SRV_U]; omega
  · simp only [AsideBits, R.SRV_U]; omega

/-- The law of CLOSED ends in an output within OMIN and OMAX (R154, R156). -/
theorem law154_drives (s : State) (n latch : Nat) :
    ∃ t v, Spares AsideBits Loop.undriven s t ∧ (s.law154 n latch).1 = t.srvDrive n (s.omClamp n v) := by
  refine ⟨_, _, ?_, rfl⟩
  refine Spares.setWord (Spares.setWord (Spares.setWord (Spares.modLoop (Spares.refl s) fun _ => ?_) fun i => ?_) fun i => ?_) fun i => ?_
  · rfl
  · simp only [AsideBits, R.SRV_LIM]; omega
  · simp only [AsideBits, R.SRV_E]; omega
  · simp only [AsideBits, R.SRV_I]; omega

/-! The plausibility model (R160). -/

theorem spares_plausible (s : State) (n : Nat) (ok : Bool) : Spares (PlausBits n) Loop.unjudged s (s.plausible n ok) := by
  unfold State.plausible
  extract_lets l ym s₁ diff k trip s₂
  have h₁ : Spares (PlausBits n) Loop.unjudged s s₁ := by
    refine Spares.setWord (Spares.modLoop (Spares.refl s) fun _ => by rfl) fun i => Or.inl ?_
    simp only [AsideBits, R.SRV_YM]; omega
  have h₂ : Spares (PlausBits n) Loop.unjudged s s₂ := h₁.modLoop fun _ => by rfl
  refine spares_ite (fun _ => Spares.refl s) fun _ => spares_ite (fun _ => h₁) fun _ =>
    spares_ite (fun _ => h₁.modLoop fun _ => by rfl) fun _ => spares_ite (fun _ => h₁.modLoop fun _ => by rfl) fun _ => ?_
  refine Spares.bump (h₂.trans ((spares_srvSticky s₂ n 256).mono (fun _ _ h => Or.inl h.aside) fun _ _ => congrArg Loop.unjudged))
    fun i h3 h4 => Or.inr ⟨rfl, ?_⟩
  simp only [F.SRV_LCNT_PLAUS_CNT] at h3 h4; omega

theorem spares_encLatched (s : State) (n : Nat) {W : Nat → Nat → Prop} {α : Type} {h : Loop → α} : Spares W h s (s.encLatched n) :=
  spares_of_same rfl rfl rfl rfl

theorem spares_capSample (s : State) (n : Nat) {W : Nat → Nat → Prop} {α : Type} {h : Loop → α} : Spares W h s (s.capSample n) := by
  unfold State.capSample
  refine spares_foldl _ (fun t u _ => ?_) s
  extract_lets st
  refine spares_ite (fun _ => Spares.refl t) fun _ => spares_foldl _ (fun t j _ => ?_) t
  generalize t.capCh u j = x
  obtain ⟨l, sg⟩ := x
  dsimp only
  refine spares_ite (fun _ => Spares.refl t) fun _ => ?_
  exact spares_ite (fun _ => Spares.modCap (Spares.refl t)) fun _ => Spares.modCap (Spares.modCap (Spares.refl t))

end Sys2Proof.Machine
end

section
/-!
PROOFS of the family 09_thruster_servo, a loop's output instant (O28, R151): the latch is reached, then the output instant, then U is
written by the loop's state, then flags, plausibility and capture follow.
-/
namespace Sys2Proof.Machine

/-! The parts of an output instant. -/

/-- The instants of a period's feedback latch and of its output. -/
def State.latchAt (s : State) (n : Nat) : Nat := (s.loop n).perAt + (s.get (F.SRV_LPH_OUT_PH n) - 38) * 5 / 3
def State.outAt (s : State) (n : Nat) : Nat := (s.loop n).perAt + s.get (F.SRV_LPH_OUT_PH n) * 5 / 3

/-- The loop has reached its feedback latch, and takes its output of this period up. -/
def State.latchReached (s : State) (n : Nat) (moved : List (Fin 12 × Int)) : State :=
  ((s.modLoop n fun l => { l with outAt := some (s.loop n).perAt }).advanceTo (s.latchAt n)).moveEncs moved

/-- The loop has latched its feedback and reached its output instant. -/
def State.outReached (s : State) (n : Nat) (moved : List (Fin 12 × Int)) : State :=
  ((s.latchReached n moved).latchPeriod n).1.advanceTo (s.outAt n)

/-- The output by the loop's state, and the sticky flags of its stages beside those given. -/
def State.outWritten (s : State) (n latch : Nat) (ok : Bool) (m0 : Nat) : State × Nat :=
  match s.srvState n with
  | 1 =>
    let inj := s.injSignal n
    let add := match (s.loop n).inj with | some q => if q.point = 1 then inj else 0 | none => 0
    let s := s.modLoop n fun l => { l with injVal := inj }
    let u0 := Fx.of false ((s.loop n).openOut + add)
    let u := s.omClamp n u0.v
    (s.srvDrive n u, m0 + satBit u0.sat 6 + satBit (decide (u ≠ u0.v)) 7)
  | 2 => if ok then (let r := s.law154 n latch; (r.1, r.2 + m0)) else (s.srvDrive n (s.loop n).u, m0)
  | 3 => (s.srvDrive n (s.loop n).u, m0)
  | 4 => (s.srvDrive n (s.geti (R.SRV_SAFE_OUT n)), m0)
  | _ => (if (s.loop n).offDue then s.srvDrive n (s.geti (R.SRV_SAFE_OUT n)) else s, m0)

/-- What follows a written output: sticky flags, plausibility, the encoders' errors, capture. -/
def State.outFollowed (s : State) (n m : Nat) (ok : Bool) : State := (((s.srvSticky n m).plausible n ok).encLatched n).capSample n

/-- An output instant, once a period. -/
theorem servoOutput_eq {s : State} {n : Nat} (hon : s.domOn 8 = true) (hn : n < 24) (hout : (s.loop n).outAt ≠ some (s.loop n).perAt)
    (moved : List (Fin 12 × Int)) : ∃ m0 m, s.servoOutput n moved =
      ((s.outReached n moved).outWritten n (s.latchAt n) ((s.outReached n moved).flag (F.SRV_LSTAT_FB_OK n)) m0).1.outFollowed n m
        ((s.outReached n moved).flag (F.SRV_LSTAT_FB_OK n)) := by
  have hb : ¬ Book (F.SRV_LSTAT_FB_OK n).addr := by simp only [Book, F.SRV_LSTAT_FB_OK, R.SRV_LSTAT]; omega
  have hok : (s.outReached n moved).flag (F.SRV_LSTAT_FB_OK n) = ((s.latchReached n moved).latchPeriod n).1.flag (F.SRV_LSTAT_FB_OK n) :=
    State.advanceTo_flag _ _ hb
  rw [hok]
  refine ⟨satBit ((s.latchReached n moved).latchPeriod n).2 1, ((s.outReached n moved).outWritten n (s.latchAt n)
    (((s.latchReached n moved).latchPeriod n).1.flag (F.SRV_LSTAT_FB_OK n)) (satBit ((s.latchReached n moved).latchPeriod n).2 1)).2, ?_⟩
  unfold State.servoOutput
  dsimp only
  rw [if_neg (by simp [hon, hout])]
  rfl

/-- A second output in one period changes nothing. -/
theorem servoOutput_again {s : State} {n : Nat} (hout : (s.loop n).outAt = some (s.loop n).perAt) (moved : List (Fin 12 × Int)) :
    s.servoOutput n moved = s := by
  unfold State.servoOutput
  dsimp only
  rw [if_pos (by simp [hout])]

/-! The output instant is reached. -/

section
variable {s : State} {n : Nat} {moved : List (Fin 12 × Int)}

theorem spares_latched (s : State) (n : Nat) (moved : List (Fin 12 × Int)) :
    Spares (LatchBits n) Loop.unlatched ((s.modLoop n fun l => { l with outAt := some (s.loop n).perAt }).advanceTo (s.latchAt n))
      ((s.latchReached n moved).latchPeriod n).1 :=
  ((spares_moveEncs _ moved).mono (fun _ _ => Or.inl) fun _ _ => congrArg Loop.unlatched).trans (spares_latchPeriod _ n)

theorem outReached_get {f : Fld} (hb : ¬ Book f.addr) (hw : ∀ i, f.lo ≤ i → i < f.lo + f.w → ¬ LatchBits n f.addr i) :
    (s.outReached n moved).get f = s.get f :=
  (State.advanceTo_get _ _ hb).trans (((spares_latched s n moved).get hb hw).trans (State.advanceTo_get _ _ hb))

theorem outReached_word {a : Nat} (hb : ¬ Book a) (hw : ∀ i, ¬ LatchBits n a i) : (s.outReached n moved).word a = s.word a :=
  (State.advanceTo_word _ _ hb).trans (((spares_latched s n moved).word hb hw).trans (State.advanceTo_word _ _ hb))

/-- What the latch leaves of the loop, whose output of this period is taken up. -/
theorem outReached_loop : Loop.unlatched ((s.outReached n moved).loop n)
    = Loop.unlatched { s.loop n with outAt := some (s.loop n).perAt } := by
  rw [State.outReached, State.advanceTo_loop, (spares_latched s n moved).loop n, State.advanceTo_loop, State.loop_modLoop_same]

theorem outReached_keeps {β : Type} {f : Loop → β} (hf : ∀ l, f (Loop.unlatched l) = f l)
    (hout : f { s.loop n with outAt := some (s.loop n).perAt } = f (s.loop n)) : f ((s.outReached n moved).loop n) = f (s.loop n) := by
  rw [← hf, outReached_loop, hf, hout]

theorem timeRuns_congr {s t : State} (hstat : t.get F.PWR_DOM_STAT_ON = s.get F.PWR_DOM_STAT_ON) (hpwr : t.pwr = s.pwr) :
    t.timeRuns = s.timeRuns := by rw [State.timeRuns, State.timeRuns, domOn_congr hstat hpwr, hpwr]

theorem latchAt_le_outAt (s : State) (n : Nat) : s.latchAt n ≤ s.outAt n := by
  unfold State.latchAt State.outAt; omega

theorem outReached_now (hinst : s.outAt n < 2 ^ 64) : (s.outReached n moved).now = s.reached (s.outAt n) := by
  have hle := latchAt_le_outAt s n
  have hb := not_book_domStat
  have hstat : ((s.latchReached n moved).latchPeriod n).1.get F.PWR_DOM_STAT_ON = s.get F.PWR_DOM_STAT_ON := by
    refine ((spares_latched s n moved).get hb fun i _ _ => ?_).trans (State.advanceTo_get _ _ hb)
    simp only [LatchBits, AsideBits, F.PWR_DOM_STAT_ON, R.PWR_DOM_STAT, R.SRV_LSTAT]; omega
  have hpwr : ((s.latchReached n moved).latchPeriod n).1.pwr = s.pwr := by
    rw [(spares_latched s n moved).pwr, State.advanceTo_pwr, State.modLoop_pwr]
  have hnow : ((s.latchReached n moved).latchPeriod n).1.now = s.reached (s.latchAt n) :=
    (spares_latched s n moved).now.trans (now_advanceTo _ _ (by omega))
  rw [State.outReached, now_advanceTo _ _ hinst, State.reached, timeRuns_congr hstat hpwr, hnow]
  unfold State.reached
  split
  · omega
  · rfl

/-! U is written (R151). -/

theorem spares_outWritten (s : State) (n latch : Nat) (ok : Bool) (m0 : Nat) :
    Spares (DriveBits n) Loop.undriven s (s.outWritten n latch ok m0).1 := by
  unfold State.outWritten
  split
  · exact Spares.trans (Spares.modLoop (Spares.refl s) fun _ => by rfl) (spares_srvDrive _ n _)
  · split
    · obtain ⟨t, v, ht, hlaw⟩ := law154_drives s n latch
      dsimp only
      rw [hlaw]
      exact (ht.mono (fun _ _ => Or.inl) fun _ _ e => e).trans (spares_srvDrive t n _)
    · exact spares_srvDrive s n _
  · exact spares_srvDrive s n _
  · exact spares_srvDrive s n _
  · exact spares_ite (fun _ => spares_srvDrive s n _) fun _ => Spares.refl s

/-- The injection that an open output adds. -/
def State.injAdded (s : State) (n : Nat) : Int :=
  match (s.loop n).inj with
  | some q => if q.point = 1 then s.injSignal n else 0
  | none => 0

theorem outWritten_open {latch m0 : Nat} {ok : Bool} (hn : n < 24) (h : s.srvState n = 1) :
    (s.outWritten n latch ok m0).1.word (R.SRV_U n)
      = BitVec.ofInt 32 (s.omClamp n (sat32 ((s.loop n).openOut + s.injAdded n))) := by
  unfold State.outWritten
  rw [h]
  refine (srvDrive_out _ hn _).trans ?_
  rw [State.loop_modLoop_same]
  rfl

/-- In CLOSED with valid feedback the law ends in a value that OMIN and OMAX bound. -/
theorem outWritten_closed {latch m0 : Nat} (hn : n < 24) (h : s.srvState n = 2) :
    ∃ v, (s.outWritten n latch true m0).1.word (R.SRV_U n) = BitVec.ofInt 32 (s.omClamp n v) := by
  obtain ⟨t, v, _, hlaw⟩ := law154_drives s n latch
  unfold State.outWritten
  rw [h]
  refine ⟨v, ?_⟩
  show (State.law154 s n latch).1.word (R.SRV_U n) = _
  rw [hlaw]
  exact srvDrive_out t hn _

theorem outWritten_hold {latch m0 : Nat} {ok : Bool} (hn : n < 24) (h : s.srvState n = 3) :
    (s.outWritten n latch ok m0).1.word (R.SRV_U n) = BitVec.ofInt 32 (s.loop n).u := by
  unfold State.outWritten
  rw [h]
  exact srvDrive_out s hn _

theorem outWritten_fault {latch m0 : Nat} {ok : Bool} (hn : n < 24) (h : s.srvState n = 4) :
    (s.outWritten n latch ok m0).1.word (R.SRV_U n) = s.word (R.SRV_SAFE_OUT n) := by
  unfold State.outWritten
  rw [h]
  exact (srvDrive_out s hn _).trans (BitVec.ofInt_toInt)

theorem outWritten_disabled {latch m0 : Nat} {ok : Bool} (hn : n < 24) (h : s.srvState n = 0) :
    (s.outWritten n latch ok m0).1.word (R.SRV_U n)
      = if (s.loop n).offDue then s.word (R.SRV_SAFE_OUT n) else s.word (R.SRV_U n) := by
  unfold State.outWritten
  rw [h]
  show (if (s.loop n).offDue then s.srvDrive n (s.geti (R.SRV_SAFE_OUT n)) else s).word (R.SRV_U n) = _
  by_cases hd : (s.loop n).offDue = true
  · rw [if_pos hd, if_pos hd]
    exact (srvDrive_out s hn _).trans (BitVec.ofInt_toInt)
  · rw [if_neg hd, if_neg hd]

/-! What follows. -/

theorem spares_outFollowed (s : State) (n m : Nat) (ok : Bool) : Spares (PlausBits n) Loop.unjudged s (s.outFollowed n m ok) := by
  refine Spares.trans (Spares.trans (Spares.trans ?_ (spares_plausible _ n ok)) (spares_encLatched _ n)) (spares_capSample _ n)
  exact (spares_srvSticky s n m).mono (fun _ _ h => Or.inl h.aside) fun _ _ => congrArg Loop.unjudged

end

end Sys2Proof.Machine
end

section
/-!
PROOFS of the family 09_thruster_servo, what an output instant shows (O28): U by the loop's state, and the plausibility mismatch.
-/
namespace Sys2Proof.Machine

/-! Numbers of 32 bits. -/

/-- A value that two registers bound is itself when it is read back. -/
theorem toInt_ofInt_of_range {v : Int} (h1 : -2147483648 ≤ v) (h2 : v ≤ 2147483647) : (BitVec.ofInt 32 v).toInt = v := by
  rw [BitVec.toInt_ofInt]
  exact Int.bmod_eq_of_le (by omega) (by omega)

theorem geti_range (s : State) (a : Nat) : -2147483648 ≤ s.geti a ∧ s.geti a ≤ 2147483647 := by
  have h1 := BitVec.le_toInt (s.word a)
  have h2 := BitVec.toInt_lt (x := s.word a)
  unfold State.geti
  omega

theorem sat32_range (v : Int) : -2147483648 ≤ sat32 v ∧ sat32 v ≤ 2147483647 := by
  unfold sat32 clampI; omega

theorem omClamp_sat32_range (s : State) (n : Nat) (v : Int) :
    -2147483648 ≤ s.omClamp n (sat32 v) ∧ s.omClamp n (sat32 v) ≤ 2147483647 := by
  have h1 := geti_range s (R.SRV_OMIN n)
  have h2 := geti_range s (R.SRV_OMAX n)
  have h3 := sat32_range v
  unfold State.omClamp clampI
  omega

theorem omClamp_bounds {s : State} {n : Nat} (v : Int) (h : s.geti (R.SRV_OMIN n) ≤ s.geti (R.SRV_OMAX n)) :
    s.geti (R.SRV_OMIN n) ≤ s.omClamp n v ∧ s.omClamp n v ≤ s.geti (R.SRV_OMAX n) := by
  unfold State.omClamp clampI
  omega

/-! What is computed from registers and from the loop. -/

theorem injSignal_congr {s t : State} {n : Nat} (hinj : (t.loop n).inj = (s.loop n).inj) (hk : (t.loop n).injK = (s.loop n).injK)
    (hrate : t.get (F.SRV_LCFG_RATE n) = s.get (F.SRV_LCFG_RATE n)) : t.injSignal n = s.injSignal n := by
  rw [State.injSignal, State.injSignal, hinj, hk, State.srvPeriod, State.srvPeriod, hrate]

theorem plausSignal_congr {s t : State} {n : Nat} (hfb : (t.loop n).fb = (s.loop n).fb)
    (hprev : (t.loop n).fbPrev = (s.loop n).fbPrev) (hsrc : t.flag (F.SRV_LPL_PL_SRC n) = s.flag (F.SRV_LPL_PL_SRC n))
    (hrate : t.get (F.SRV_LCFG_RATE n) = s.get (F.SRV_LCFG_RATE n)) : t.plausSignal n = s.plausSignal n := by
  rw [State.plausSignal, State.plausSignal, hfb, hprev, hsrc, State.srvPeriod, State.srvPeriod, hrate]

section
variable {s : State} {n : Nat} {moved : List (Fin 12 × Int)}

/-- A configuration register of a loop is no bit of those that a period's output writes, and no bookkeeping. -/
theorem outReached_cfg {a : Nat} (h : 0x400E0000 ≤ a) (hr : a < 0x400E3000) (hlo : 8 ≤ a % 512) (hhi : a % 512 < 0x84) :
    (s.outReached n moved).word a = s.word a := by
  refine outReached_word ?_ fun i => ?_
  · simp only [Book]; omega
  · simp only [LatchBits, AsideBits, R.SRV_LSTAT]; omega

/-! Loop and registers from before the output instant to after it. -/

theorem outReached_srvState (hn : n < 24) : (s.outReached n moved).srvState n = s.srvState n := by
  refine outReached_get ?_ fun i h1 h2 => ?_
  · simp only [Book, F.SRV_LSTAT_STATE, R.SRV_LSTAT]; omega
  · simp only [LatchBits, AsideBits, F.SRV_LSTAT_STATE, R.SRV_LSTAT] at *; omega

theorem outReached_injAdded (hn : n < 24) : (s.outReached n moved).injAdded n = s.injAdded n := by
  have hinj : ((s.outReached n moved).loop n).inj = (s.loop n).inj := outReached_keeps (f := Loop.inj) (fun _ => rfl) rfl
  have hsignal : (s.outReached n moved).injSignal n = s.injSignal n :=
    injSignal_congr hinj (outReached_keeps (f := Loop.injK) (fun _ => rfl) rfl)
      (State.get_congr (outReached_cfg (by simp only [F.SRV_LCFG_RATE, R.SRV_LCFG]; omega)
        (by simp only [F.SRV_LCFG_RATE, R.SRV_LCFG]; omega) (by simp only [F.SRV_LCFG_RATE, R.SRV_LCFG]; omega)
        (by simp only [F.SRV_LCFG_RATE, R.SRV_LCFG]; omega)))
  rw [State.injAdded, State.injAdded, hinj, hsignal]

theorem outReached_geti {a : Nat} (h : 0x400E0000 ≤ a) (hr : a < 0x400E3000) (hlo : 8 ≤ a % 512) (hhi : a % 512 < 0x84) :
    (s.outReached n moved).geti a = s.geti a := congrArg BitVec.toInt (outReached_cfg h hr hlo hhi)

theorem outReached_omClamp (hn : n < 24) (v : Int) : (s.outReached n moved).omClamp n v = s.omClamp n v := by
  have hmin : (s.outReached n moved).geti (R.SRV_OMIN n) = s.geti (R.SRV_OMIN n) := by
    apply outReached_geti <;> simp only [R.SRV_OMIN] <;> omega
  have hmax : (s.outReached n moved).geti (R.SRV_OMAX n) = s.geti (R.SRV_OMAX n) := by
    apply outReached_geti <;> simp only [R.SRV_OMAX] <;> omega
  rw [State.omClamp, State.omClamp, hmin, hmax]

theorem outReached_safeOut (hn : n < 24) : (s.outReached n moved).word (R.SRV_SAFE_OUT n) = s.word (R.SRV_SAFE_OUT n) := by
  apply outReached_cfg <;> simp only [R.SRV_SAFE_OUT] <;> omega

end

/-- What the output instant writes once it is reached. -/
def OutBits (n a i : Nat) : Prop := DriveBits n a i ∨ PlausBits n a i

/-- How an output instant of state s that ends in state t comes about: it is reached in r, U is written in w. -/
structure OutInstant (s : State) (n : Nat) (moved : List (Fin 12 × Int)) (t : State) : Prop where
  all : Spares (OutBits n) Loop.outAt (s.outReached n moved) t
  out : ∃ m0, t.word (R.SRV_U n) = ((s.outReached n moved).outWritten n (s.latchAt n)
    ((s.outReached n moved).flag (F.SRV_LSTAT_FB_OK n)) m0).1.word (R.SRV_U n)

theorem servoOutput_instant {s : State} {n : Nat} (hon : s.domOn 8 = true) (hn : n < 24)
    (hout : (s.loop n).outAt ≠ some (s.loop n).perAt) (moved : List (Fin 12 × Int)) :
    OutInstant s n moved (s.servoOutput n moved) := by
  obtain ⟨m0, m, heq⟩ := servoOutput_eq hon hn hout moved
  rw [heq]
  have hfollowed := spares_outFollowed ((s.outReached n moved).outWritten n (s.latchAt n)
    ((s.outReached n moved).flag (F.SRV_LSTAT_FB_OK n)) m0).1 n m ((s.outReached n moved).flag (F.SRV_LSTAT_FB_OK n))
  refine ⟨((spares_outWritten _ n _ _ m0).mono (fun _ _ => Or.inl) fun _ _ => congrArg Loop.outAt).trans
    (hfollowed.mono (fun _ _ => Or.inr) fun _ _ => congrArg Loop.outAt), m0, hfollowed.word ?_ fun i => ?_⟩
  · simp only [Book, R.SRV_U]; omega
  · simp only [PlausBits, AsideBits, R.SRV_U, R.SRV_LCNT]; omega

section
variable {s t : State} {n : Nat} {moved : List (Fin 12 × Int)} (ho : OutInstant s n moved t) (hn : n < 24)
include ho

theorem OutInstant.now (hinst : s.outAt n < 2 ^ 64) : t.now = s.reached (s.outAt n) := ho.all.now.trans (outReached_now hinst)

theorem OutInstant.outAt : (t.loop n).outAt = some (s.loop n).perAt :=
  (ho.all.loop n).trans (congrArg Loop.outAt outReached_loop)

include hn

theorem OutInstant.stat {f : Fld} (ha : f.addr = R.SRV_LSTAT n) (hf : f.lo + f.w ≤ 7 ∨ f.lo = 8 ∧ f.w = 1) :
    t.get f = (s.outReached n moved).get f := by
  refine ho.all.get ?_ fun i h1 h2 => ?_
  · rw [ha]; simp only [Book, R.SRV_LSTAT]; omega
  · rw [ha]; simp only [OutBits, DriveBits, PlausBits, AsideBits, R.SRV_LSTAT, R.SRV_U, R.SRV_LCNT]; omega

theorem OutInstant.srvState : t.srvState n = s.srvState n :=
  (ho.stat hn (f := F.SRV_LSTAT_STATE n) rfl (Or.inl (by simp [F.SRV_LSTAT_STATE]))).trans (outReached_srvState hn)

theorem OutInstant.fbOk : t.flag (F.SRV_LSTAT_FB_OK n) = (s.outReached n moved).flag (F.SRV_LSTAT_FB_OK n) :=
  congrArg (· != 0) (ho.stat hn (f := F.SRV_LSTAT_FB_OK n) rfl (Or.inr ⟨rfl, rfl⟩))

theorem OutInstant.open (h : s.srvState n = 1) : t.geti (R.SRV_U n)
    = clampI (s.geti (R.SRV_OMIN n)) (s.geti (R.SRV_OMAX n)) (sat32 ((s.loop n).openOut + s.injAdded n)) := by
  obtain ⟨_, m0, hword⟩ := ho
  have hopen : ((s.outReached n moved).loop n).openOut = (s.loop n).openOut := outReached_keeps (f := Loop.openOut) (fun _ => rfl) rfl
  have hrange := omClamp_sat32_range s n ((s.loop n).openOut + s.injAdded n)
  rw [State.geti, hword, outWritten_open hn ((outReached_srvState hn).trans h), hopen, outReached_injAdded hn, outReached_omClamp hn,
    toInt_ofInt_of_range hrange.1 hrange.2]
  rfl

theorem OutInstant.closed (h : s.srvState n = 2) (hfb : t.flag (F.SRV_LSTAT_FB_OK n) = true)
    (hbounds : s.geti (R.SRV_OMIN n) ≤ s.geti (R.SRV_OMAX n)) :
    s.geti (R.SRV_OMIN n) ≤ t.geti (R.SRV_U n) ∧ t.geti (R.SRV_U n) ≤ s.geti (R.SRV_OMAX n) := by
  rw [ho.fbOk hn] at hfb
  obtain ⟨_, m0, hword⟩ := ho
  rw [hfb] at hword
  obtain ⟨v, hv⟩ := outWritten_closed (latch := s.latchAt n) (m0 := m0) hn ((outReached_srvState (moved := moved) hn).trans h)
  have hclamp := omClamp_bounds v hbounds
  have hmin := geti_range s (R.SRV_OMIN n)
  have hmax := geti_range s (R.SRV_OMAX n)
  have hu : t.geti (R.SRV_U n) = s.omClamp n v := by
    rw [State.geti, hword, hv, outReached_omClamp hn, toInt_ofInt_of_range (by omega) (by omega)]
  rw [hu]
  exact hclamp

theorem OutInstant.hold (h : s.srvState n = 3) : t.word (R.SRV_U n) = BitVec.ofInt 32 (s.loop n).u := by
  obtain ⟨_, m0, hword⟩ := ho
  rw [hword, outWritten_hold hn ((outReached_srvState hn).trans h), outReached_keeps (f := Loop.u) (fun _ => rfl) rfl]

theorem OutInstant.fault (h : s.srvState n = 4) : t.word (R.SRV_U n) = s.word (R.SRV_SAFE_OUT n) := by
  have hsafe := outReached_safeOut (s := s) (moved := moved) hn
  obtain ⟨_, m0, hword⟩ := ho
  rw [hword, outWritten_fault hn ((outReached_srvState hn).trans h), hsafe]

theorem OutInstant.disabled (h : s.srvState n = 0) :
    t.word (R.SRV_U n) = if (s.loop n).offDue then s.word (R.SRV_SAFE_OUT n) else s.word (R.SRV_U n) := by
  have hsafe := outReached_safeOut (s := s) (moved := moved) hn
  have hout : (s.outReached n moved).word (R.SRV_U n) = s.word (R.SRV_U n) := by
    refine outReached_word ?_ fun i => ?_
    · simp only [Book, R.SRV_U]; omega
    · simp only [LatchBits, AsideBits, R.SRV_LSTAT, R.SRV_U]; omega
  obtain ⟨_, m0, hword⟩ := ho
  rw [hword, outWritten_disabled hn ((outReached_srvState hn).trans h), hsafe, hout,
    outReached_keeps (f := Loop.offDue) (fun _ => rfl) rfl]

end

end Sys2Proof.Machine
end

section
/-!
PROOFS of the family 09_thruster_servo, the plausibility mismatch (O28, R160): the output instant at which a mismatch has lasted PL_N
periods.
-/
namespace Sys2Proof.Machine

theorem not_book_lstat {n : Nat} (hn : n < 24) : ¬ Book (R.SRV_LSTAT n) := by simp only [Book, R.SRV_LSTAT]; omega

/-- Setting the PLAUS flag among the sticky flags leaves it set (R156). -/
theorem srvSticky_plaus (s : State) {n : Nat} (hn : n < 24) : (s.srvSticky n 256).flag (F.SRV_LSTAT_PLAUS n) = true := by
  have hsat : s.get (F.SRV_LSTAT_SAT n) < 2 ^ 8 := get_lt s (F.SRV_LSTAT_SAT n)
  have hplaus : s.get (F.SRV_LSTAT_PLAUS n) < 2 ^ 1 := get_lt s (F.SRV_LSTAT_PLAUS n)
  have hbit : ∀ x : Nat, (x ||| 256) / 256 % 2 = 1 := fun x => by
    have h := Nat.testBit_or x 256 8
    rw [show Nat.testBit 256 8 = true from rfl, Bool.or_true, Nat.testBit_eq_decide_div_mod_eq] at h
    simpa using h
  unfold State.srvSticky
  extract_lets old l arm new s₁ s₂
  have hnew : new / 256 % 2 = 1 := hbit old
  split
  · next hsame =>
    have hset : s.get (F.SRV_LSTAT_PLAUS n) = 1 := by
      have hold : old = s.get (F.SRV_LSTAT_SAT n) + 256 * s.get (F.SRV_LSTAT_PLAUS n) := rfl
      omega
    show (s.get (F.SRV_LSTAT_PLAUS n) != 0) = true
    rw [hset]; rfl
  · have h₂ : s₂.get (F.SRV_LSTAT_PLAUS n) = 1 := (State.get_set _ _ _ (by simp [F.SRV_LSTAT_PLAUS])).trans hnew
    have h₃ : Spares CaptureBits id s₂
        ((if arm = true then s₂.arrive (184 + n) (s₂.word (R.SRV_LSTAT n)) else s₂).capOn 3 n) :=
      Spares.capOn (spares_ite (fun _ => (kept_arrive _ _ _).spares) fun _ => Spares.refl _) fun _ _ h => h
    rw [h₃.flag (not_book_lstat hn) fun i _ _ => by simp only [CaptureBits, F.SRV_LSTAT_PLAUS, R.SRV_LSTAT]; omega, State.flag, h₂]
    rfl

/-- What a mismatch that has lasted PL_N periods leaves: PLAUS and its count, the count of periods cleared, and with PL_TRIP a trip. -/
structure Mismatched (n : Nat) (s t : State) : Prop where
  flag : t.flag (F.SRV_LSTAT_PLAUS n) = true
  count : t.get (F.SRV_LCNT_PLAUS_CNT n) = min 255 (s.get (F.SRV_LCNT_PLAUS_CNT n) + 1)
  cleared : (t.loop n).plausN = 0
  trip : s.flag (F.SRV_LPL_PL_TRIP n) = true → (t.loop n).tripDue = true

/-- The model's value after one period (R160). -/
def State.ymNext (s : State) (n : Nat) : Int :=
  ((Fx.mul (.lit (s.geti (R.SRV_PL_A n))) (.lit (s.loop n).ym) 30).add (Fx.mul (.lit (s.geti (R.SRV_PL_B n))) (.lit (s.loop n).u) 30)).v

/-- The model has moved on by one period. -/
def State.ymMoved (s : State) (n : Nat) : State :=
  (s.modLoop n fun l => { l with ym := s.ymNext n }).setWord (R.SRV_YM n) (BitVec.ofInt 32 (s.ymNext n))

/-- The model has moved on, and the last tolerated mismatch is noted. -/
def State.mismatchNoted (s : State) (n : Nat) : State :=
  (s.ymMoved n).modLoop n fun l => { l with plausN := 0, tripDue := l.tripDue || s.flag (F.SRV_LPL_PL_TRIP n) }

section
variable {s : State} {n : Nat}

theorem ymMoved_geti (s : State) (n : Nat) : (s.ymMoved n).geti (R.SRV_YM n) = s.ymNext n := by
  obtain ⟨h1, h2⟩ : -2147483648 ≤ s.ymNext n ∧ s.ymNext n ≤ 2147483647 := sat32_range _
  rw [State.geti, State.ymMoved, State.word_setWord_same, toInt_ofInt_of_range h1 h2]

/-- With plausibility on, valid feedback and PL_N - 1 mismatched periods before, the model judges this period. -/
theorem plausible_eq (hen : s.flag (F.SRV_LPL_PL_EN n) = true) (hst : s.srvState n ≠ 0)
    (hlast : max 1 (s.get (F.SRV_LPL_PL_N n)) ≤ (s.loop n).plausN + 1) :
    s.plausible n true =
      if (((s.ymNext n - (s.ymMoved n).plausSignal n).natAbs : Nat) : Int) ≤ s.geti (R.SRV_PL_TOL n) then
        (s.ymMoved n).modLoop n fun l => { l with plausN := 0 }
      else ((s.mismatchNoted n).srvSticky n 256).bump (F.SRV_LCNT_PLAUS_CNT n) := by
  have hcfg : ∀ a, a ≠ R.SRV_YM n → (s.ymMoved n).word a = s.word a := fun a ha => State.word_setWord_ne _ ha _
  have hlpl : R.SRV_LPL n ≠ R.SRV_YM n := by simp only [R.SRV_LPL, R.SRV_YM]; omega
  have htol : (s.ymMoved n).geti (R.SRV_PL_TOL n) = s.geti (R.SRV_PL_TOL n) :=
    congrArg BitVec.toInt (hcfg _ (by simp only [R.SRV_PL_TOL, R.SRV_YM]; omega))
  have hN : (s.ymMoved n).get (F.SRV_LPL_PL_N n) = s.get (F.SRV_LPL_PL_N n) := State.get_congr (hcfg _ hlpl)
  have htrip : (s.ymMoved n).flag (F.SRV_LPL_PL_TRIP n) = s.flag (F.SRV_LPL_PL_TRIP n) :=
    congrArg (· != 0) (State.get_congr (f := F.SRV_LPL_PL_TRIP n) (hcfg _ hlpl))
  unfold State.plausible
  rw [if_neg (by simp [hen, hst])]
  show (if decide ((((s.ymNext n - (s.ymMoved n).plausSignal n).natAbs : Nat) : Int) ≤ (s.ymMoved n).geti (R.SRV_PL_TOL n)) then
      (s.ymMoved n).modLoop n fun l => { l with plausN := 0 }
    else if (s.loop n).plausN + 1 < max 1 ((s.ymMoved n).get (F.SRV_LPL_PL_N n)) then
      (s.ymMoved n).modLoop n fun l => { l with plausN := (s.loop n).plausN + 1 }
    else (((s.ymMoved n).modLoop n fun l => { l with plausN := 0, tripDue := l.tripDue || (s.ymMoved n).flag (F.SRV_LPL_PL_TRIP n)
      }).srvSticky n 256).bump (F.SRV_LCNT_PLAUS_CNT n)) = _
  rw [htol, hN, htrip, if_neg (by omega : ¬ (s.loop n).plausN + 1 < max 1 (s.get (F.SRV_LPL_PL_N n)))]
  simp only [decide_eq_true_eq]
  rfl

theorem plausSignal_modLoop (s : State) (n : Nat) {f : Loop → Loop} (hfb : ∀ l, (f l).fb = l.fb) (hprev : ∀ l, (f l).fbPrev = l.fbPrev) :
    (s.modLoop n f).plausSignal n = s.plausSignal n := by
  refine plausSignal_congr ?_ ?_ rfl rfl
  · rw [State.loop_modLoop_same, hfb]
  · rw [State.loop_modLoop_same, hprev]

/-- The model's judgement of a mismatch beyond PL_TOL. -/
theorem plausible_mismatched (hen : s.flag (F.SRV_LPL_PL_EN n) = true) (hst : s.srvState n ≠ 0)
    (hlast : max 1 (s.get (F.SRV_LPL_PL_N n)) ≤ (s.loop n).plausN + 1) (hn : n < 24)
    (hdiff : s.geti (R.SRV_PL_TOL n) < |(s.plausible n true).geti (R.SRV_YM n) - (s.plausible n true).plausSignal n|) :
    Mismatched n s (s.plausible n true) := by
  have heq := plausible_eq hen hst hlast
  by_cases hin : (((s.ymNext n - (s.ymMoved n).plausSignal n).natAbs : Nat) : Int) ≤ s.geti (R.SRV_PL_TOL n)
  · rw [if_pos hin] at heq
    have hym : ((s.ymMoved n).modLoop n fun l => { l with plausN := 0 }).geti (R.SRV_YM n) = s.ymNext n := ymMoved_geti s n
    rw [heq, hym, plausSignal_modLoop _ _ (fun _ => by rfl) (fun _ => by rfl), Int.abs_eq_natAbs] at hdiff
    exact absurd hin (not_le.mpr hdiff)
  · rw [if_neg hin] at heq
    rw [heq]
    have hloop : (((s.mismatchNoted n).srvSticky n 256).loop n).control = ((s.mismatchNoted n).loop n).control :=
      (spares_srvSticky _ n 256).loop n
    have hnoted : ((s.mismatchNoted n).loop n).plausN = 0
        ∧ ((s.mismatchNoted n).loop n).tripDue = (((s.ymMoved n).loop n).tripDue || s.flag (F.SRV_LPL_PL_TRIP n)) := by
      rw [State.mismatchNoted, State.loop_modLoop_same]
      exact ⟨rfl, rfl⟩
    have hcnt : ((s.mismatchNoted n).srvSticky n 256).get (F.SRV_LCNT_PLAUS_CNT n) = s.get (F.SRV_LCNT_PLAUS_CNT n) := by
      refine ((spares_srvSticky _ n 256).get ?_ fun i _ _ => ?_).trans (State.get_congr (State.word_setWord_ne _ ?_ _))
      · simp only [Book, F.SRV_LCNT_PLAUS_CNT, R.SRV_LCNT]; omega
      · simp only [StickyBits, CaptureBits, F.SRV_LCNT_PLAUS_CNT, R.SRV_LCNT]; omega
      · simp only [F.SRV_LCNT_PLAUS_CNT, R.SRV_LCNT, R.SRV_YM]; omega
    refine ⟨?_, ?_, ?_, fun htrip => ?_⟩
    · refine (congrArg (· != 0) (State.get_set_addr _ (F.SRV_LSTAT_PLAUS n) (F.SRV_LCNT_PLAUS_CNT n) _ ?_)).trans (srvSticky_plaus _ hn)
      simp only [F.SRV_LSTAT_PLAUS, F.SRV_LCNT_PLAUS_CNT, R.SRV_LSTAT, R.SRV_LCNT]; omega
    · rw [← hcnt]
      exact State.get_bump _ _ (by simp [F.SRV_LCNT_PLAUS_CNT])
    · exact (congrArg Loop.plausN hloop).trans hnoted.1
    · refine (congrArg Loop.tripDue hloop).trans (hnoted.2.trans ?_)
      rw [htrip, Bool.or_true]

end

end Sys2Proof.Machine
end

section
/-!
PROOFS of the family 09_thruster_servo, the loops' periods and outputs (O28).
-/
namespace Sys2Proof.Machine

/-! The plausibility mismatch at an output instant. -/

section
variable {s : State} {n : Nat} {moved : List (Fin 12 × Int)}

/-- At the output instant at which a mismatch has lasted PL_N periods, valid feedback and a difference beyond PL_TOL set PLAUS. -/
theorem servoOutput_mismatched (hon : s.domOn 8 = true) (hn : n < 24) (hout : (s.loop n).outAt ≠ some (s.loop n).perAt)
    (hen : s.flag (F.SRV_LPL_PL_EN n) = true) (hst : s.srvState n ≠ 0)
    (hlast : max 1 (s.get (F.SRV_LPL_PL_N n)) ≤ (s.loop n).plausN + 1)
    (hfb : (s.servoOutput n moved).flag (F.SRV_LSTAT_FB_OK n) = true)
    (hdiff : s.geti (R.SRV_PL_TOL n) < |(s.servoOutput n moved).geti (R.SRV_YM n) - (s.servoOutput n moved).plausSignal n|) :
    Mismatched n s (s.servoOutput n moved) := by
  have hok := (servoOutput_instant hon hn hout moved).fbOk hn
  rw [hfb] at hok
  obtain ⟨m0, m, heq⟩ := servoOutput_eq hon hn hout moved
  rw [← hok] at heq
  generalize hw : ((s.outReached n moved).outWritten n (s.latchAt n) true m0).1 = w at heq
  have hwrite : Spares (DriveBits n) Loop.plausN (s.outReached n moved) (w.srvSticky n m) := by
    rw [← hw]
    exact ((spares_outWritten _ n _ true m0).mono (fun _ _ h => h) fun _ _ => congrArg Loop.plausN).trans
      ((spares_srvSticky _ n m).mono (fun _ _ h => Or.inl h.aside) fun _ _ => congrArg Loop.plausN)
  have hafter : Spares (fun _ _ => False) id ((w.srvSticky n m).plausible n true) (s.servoOutput n moved) := by
    rw [heq]
    exact (spares_encLatched _ n).trans (spares_capSample _ n)
  generalize w.srvSticky n m = v at hwrite hafter
  have hcfg : ∀ a, 0x400E0000 ≤ a → a < 0x400E3000 → 8 ≤ a % 512 → a % 512 < 0x84 → v.word a = s.word a := fun a h1 h2 h3 h4 =>
    (hwrite.word (by simp only [Book]; omega) fun i => by simp only [DriveBits, AsideBits, R.SRV_U]; omega).trans
      (outReached_cfg h1 h2 h3 h4)
  have hlpl : v.word (R.SRV_LPL n) = s.word (R.SRV_LPL n) := by apply hcfg <;> simp only [R.SRV_LPL] <;> omega
  have htol : v.geti (R.SRV_PL_TOL n) = s.geti (R.SRV_PL_TOL n) := by
    refine congrArg BitVec.toInt ?_
    apply hcfg <;> simp only [R.SRV_PL_TOL] <;> omega
  have hflag : ∀ f : Fld, f.addr = R.SRV_LPL n → v.flag f = s.flag f := fun f hf =>
    congrArg (· != 0) (State.get_congr (hf.symm ▸ hlpl))
  have hstate : v.srvState n = s.srvState n := by
    refine (hwrite.get (not_book_lstat hn) fun i _ h2 => ?_).trans (outReached_srvState hn)
    simp only [DriveBits, AsideBits, F.SRV_LSTAT_STATE, R.SRV_LSTAT, R.SRV_U] at *; omega
  have hcount : v.get (F.SRV_LCNT_PLAUS_CNT n) = s.get (F.SRV_LCNT_PLAUS_CNT n) := by
    have hb : ¬ Book (R.SRV_LCNT n) := by simp only [Book, R.SRV_LCNT]; omega
    refine (hwrite.get hb fun i h1 h2 => ?_).trans (outReached_get hb fun i h1 h2 => ?_)
    · simp only [DriveBits, AsideBits, F.SRV_LCNT_PLAUS_CNT, R.SRV_LCNT, R.SRV_U] at *; omega
    · simp only [LatchBits, AsideBits, F.SRV_LCNT_PLAUS_CNT, R.SRV_LCNT, R.SRV_LSTAT] at *; omega
  have hplausN : (v.loop n).plausN = (s.loop n).plausN :=
    (hwrite.loop n).trans (outReached_keeps (f := Loop.plausN) (fun _ => rfl) rfl)
  have hkept : ∀ f : Fld, ¬ Book f.addr → (s.servoOutput n moved).get f = (v.plausible n true).get f := fun f hb =>
    hafter.get hb fun _ _ _ => id
  have hloop : (s.servoOutput n moved).loop n = (v.plausible n true).loop n := hafter.loop n
  have hb : ¬ Book (R.SRV_LPL n) ∧ ¬ Book (R.SRV_LCFG n) ∧ ¬ Book (R.SRV_LCNT n) ∧ ¬ Book (R.SRV_YM n) := by
    simp only [Book, R.SRV_LPL, R.SRV_LCFG, R.SRV_LCNT, R.SRV_YM]; omega
  obtain ⟨hbpl, hbcfg, hbcnt, hbym⟩ := hb
  have hym : (s.servoOutput n moved).geti (R.SRV_YM n) = (v.plausible n true).geti (R.SRV_YM n) := hafter.geti hbym fun _ => id
  have hsignal : (s.servoOutput n moved).plausSignal n = (v.plausible n true).plausSignal n :=
    plausSignal_congr (congrArg Loop.fb hloop) (congrArg Loop.fbPrev hloop) (congrArg (· != 0) (hkept (F.SRV_LPL_PL_SRC n) hbpl))
      (hkept (F.SRV_LCFG_RATE n) hbcfg)
  have hN : v.get (F.SRV_LPL_PL_N n) = s.get (F.SRV_LPL_PL_N n) := State.get_congr hlpl
  rw [hym, hsignal, ← htol] at hdiff
  obtain ⟨hflagged, hcounted, hcleared, htripped⟩ := plausible_mismatched ((hflag (F.SRV_LPL_PL_EN n) rfl).trans hen)
    (hstate.symm ▸ hst) (by rw [hN, hplausN]; exact hlast) hn hdiff
  exact ⟨(congrArg (· != 0) (hkept (F.SRV_LSTAT_PLAUS n) (not_book_lstat hn))).trans hflagged,
    (hkept (F.SRV_LCNT_PLAUS_CNT n) hbcnt).trans (hcount ▸ hcounted), (congrArg Loop.plausN hloop).trans hcleared,
    fun htrip => (congrArg Loop.tripDue hloop).trans (htripped ((hflag (F.SRV_LPL_PL_TRIP n) rfl).trans htrip))⟩

/-! The servo tick (R152) and the setpoint's age (R153). -/

/-- The servo tick's instant. -/
def State.tickDue (s : State) : Nat := if s.now % 125000 = 0 && s.now ≠ s.srv.tickAt then s.now else nextMultiple s.now 125000

theorem tickDue_spec (s : State) : s.tickDue % 125000 = 0 ∧ s.now ≤ s.tickDue ∧ s.tickDue ≤ s.now + 125000 := by
  unfold State.tickDue nextMultiple
  split
  · next h =>
    simp only [Bool.and_eq_true, decide_eq_true_eq] at h
    omega
  · rw [if_neg (by decide)]
    omega

end

/-! What a servo tick does with the command entries leaves its instant. -/

theorem capOn_tickAt (s : State) (k n : Nat) : (s.capOn k n).srv.tickAt = s.srv.tickAt := by
  refine foldl_keeps (fun t : State => t.srv.tickAt) _ (fun t u => ?_) _ s
  unfold State.capTrigger
  split
  · split
    · rw [State.set_srv]; rfl
    · rfl
  · rfl

theorem srvSticky_tickAt (s : State) (n m : Nat) : (s.srvSticky n m).srv.tickAt = s.srv.tickAt := by
  unfold State.srvSticky
  dsimp only
  split
  · rfl
  · rw [capOn_tickAt]
    split <;> simp only [State.arrive_srv, State.set_srv] <;> rfl

theorem takeEntry_tickAt (s : State) (n k : Nat) : (s.takeEntry n k).srv.tickAt = s.srv.tickAt := by
  unfold State.takeEntry
  extract_lets v0 v1 s₁ v r f x
  split
  · rw [State.bump_srv]; rfl
  · generalize toSignal _ _ = y
    obtain ⟨sp, sat⟩ := y
    dsimp only
    split
    · rw [srvSticky_tickAt, State.setFlag_srv]; rfl
    · rw [State.setFlag_srv]; rfl

theorem foldl_tickAt {β : Type} {f : State → β → State} (h : ∀ t b, (f t b).srv.tickAt = t.srv.tickAt) (l : List β) (s : State) :
    (l.foldl f s).srv.tickAt = s.srv.tickAt := foldl_keeps (fun t : State => t.srv.tickAt) f h l s

/-- A servo tick notes its instant. -/
theorem servoTick_tickAt (s : State) : s.servoTick.srv.tickAt = s.now := by
  unfold State.servoTick
  split
  · assumption
  · dsimp only
    rw [foldl_tickAt]
    · rfl
    · intro t k
      split
      · rfl
      · rw [foldl_tickAt]
        · rfl
        · intro u n
          split
          · rfl
          · split
            · exact takeEntry_tickAt u n k
            · rfl

end Sys2Proof.Machine
end

section
/-!
PROOFS of the family 09_thruster_servo, the periods, the outputs, the timeouts and the mismatch as commands (O28).
-/
namespace Sys2Proof.Machine

/-- A command that ends in t completes with what holds of t and does not look at the queue. -/
theorem Completes.of_ends {c : Instr} {s t : State} {P : State → Prop} (h : exec c s = s.ends t)
    (hqueue : ∀ (u : State) (l : List Instr), P u → P (u.requeue l)) (g : P t) : Completes c s P := Completes.of h (hqueue t _ g)

/-! The servo tick (R152). -/

theorem reached_of_runs {s : State} {k : Nat} (hruns : s.timeRuns = true) (hle : s.now ≤ k) : s.reached k = k := by
  rw [State.reached, if_pos hruns, max_eq_right hle]

theorem reached_le {s : State} {k : Nat} (hle : s.now ≤ k) : s.now ≤ s.reached k ∧ s.reached k ≤ k := by
  unfold State.reached
  split <;> omega

theorem servoTick_now {s : State} (hnow : s.now + 125000 < 2 ^ 64) : (s.advanceTo s.tickDue).servoTick.now = s.reached s.tickDue := by
  have hdue := (tickDue_spec s).2.2
  exact (spares_servoTick _).now.trans (now_advanceTo s _ (by omega))

theorem execServoTick_eq {s : State} (hon : s.domOn 8 = true) : exec .servoTick s = s.ends (s.advanceTo s.tickDue).servoTick := by
  show s.ends (if !s.domOn 8 then s else (s.advanceTo s.tickDue).servoTick) = _
  rw [hon]; rfl

theorem servoTick_completes {s : State} (hon : s.domOn 8 = true) {n : Nat} (hn : n < 24) (hnow : s.now + 125000 < 2 ^ 64) :
    Completes .servoTick s fun t => (s.timeRuns = true → t.now % 125000 = 0) ∧ s.now ≤ t.now ∧ t.now ≤ s.now + 125000
      ∧ t.srv.tickAt = t.now ∧ t.srvState n = s.srvState n := by
  obtain ⟨hgrid, hle, hmax⟩ := tickDue_spec s
  obtain ⟨hge, hreached⟩ := reached_le hle
  refine Completes.of_ends (execServoTick_eq hon) (fun _ _ h => h) ?_
  rw [servoTick_now hnow]
  refine ⟨fun hruns => ?_, hge, hreached.trans hmax, ?_, ?_⟩
  · rw [reached_of_runs hruns hle]; exact hgrid
  · rw [servoTick_tickAt, ← servoTick_now hnow, (spares_servoTick _).now]
  · exact ((spares_servoTick _).srvState hn).trans (State.advanceTo_get _ _ (not_book_lstat hn))

/-! A setpoint that no entry has renewed (R153). -/

theorem setpointTimeout_completes {s : State} (hon : s.domOn 8 = true) (n : Fin 24) (hsrc : s.get (F.SRV_LCFG_SP_SRC n.val) = 1)
    (hfresh : s.flag (F.SRV_LSTAT_SP_STALE n.val) = false)
    (hinst : (s.loop n.val).spAt + s.get (F.SRV_LTMO_SP_TMO_MS n.val) * 1000000 < 2 ^ 64) :
    Completes (.setpointTimeout n) s fun t => t.flag (F.SRV_LSTAT_SP_STALE n.val) = true
      ∧ t.get (F.SRV_LCNT_STALE_CNT n.val) = min 255 (s.get (F.SRV_LCNT_STALE_CNT n.val) + 1)
      ∧ t.now = s.reached ((s.loop n.val).spAt + s.get (F.SRV_LTMO_SP_TMO_MS n.val) * 1000000) := by
  have hexec : exec (.setpointTimeout n) s = s.ends (((s.advanceTo
      ((s.loop n.val).spAt + s.get (F.SRV_LTMO_SP_TMO_MS n.val) * 1000000)).setFlag (F.SRV_LSTAT_SP_STALE n.val) true).bump
      (F.SRV_LCNT_STALE_CNT n.val)) := by
    refine congrArg s.ends (if_pos ?_)
    simp [hsrc, hfresh, hon]
  generalize (s.loop n.val).spAt + s.get (F.SRV_LTMO_SP_TMO_MS n.val) * 1000000 = inst at hexec hinst ⊢
  have haddr : (F.SRV_LSTAT_SP_STALE n.val).addr ≠ (F.SRV_LCNT_STALE_CNT n.val).addr := by
    simp only [F.SRV_LSTAT_SP_STALE, F.SRV_LCNT_STALE_CNT, R.SRV_LSTAT, R.SRV_LCNT]; omega
  have hbook : ¬ Book (F.SRV_LCNT_STALE_CNT n.val).addr := by simp only [Book, F.SRV_LCNT_STALE_CNT, R.SRV_LCNT]; omega
  refine Completes.of_ends hexec (fun _ _ h => h) ⟨?_, ?_, ?_⟩
  · refine (congrArg (· != 0) (State.get_set_addr _ _ _ _ haddr)).trans ?_
    exact State.flag_setFlag _ _ _ (by simp [F.SRV_LSTAT_SP_STALE]) rfl
  · rw [State.get_bump _ _ (by simp [F.SRV_LCNT_STALE_CNT]), State.setFlag, State.get_set_addr _ _ _ _ haddr.symm,
      State.advanceTo_get _ _ hbook]
    rfl
  · rw [State.bump_now, State.setFlag_now, now_advanceTo s inst hinst]

section
variable {s : State} (hon : s.domOn 8 = true) (n : Fin 24)
include hon

/-! FB_HOLD periods without valid feedback (R157). -/

theorem fbHoldExpire_completes (hst : s.srvState n.val = 3) (hfb : s.flag (F.SRV_LSTAT_FB_OK n.val) = false)
    (htrip : (s.loop n.val).tripDue = false) (hheld : max 1 (s.get (F.SRV_LTMO_FB_HOLD n.val)) ≤ (s.loop n.val).holdN + 1)
    (hp : (s.loop n.val).pend = none) (hc : (s.loop n.val).commitPend = false) (hstart : s.nextPeriod n.val < 2 ^ 64) :
    Completes (.fbHoldExpire n) s fun t => t.srvState n.val = 4 ∧ t.get (F.SRV_LSTAT_FCAUSE n.val) = 1
      ∧ t.word (R.SRV_U n.val) = s.word (R.SRV_U n.val) ∧ (t.loop n.val).perAt = s.reached (s.nextPeriod n.val) := by
  have hexec : exec (.fbHoldExpire n) s = s.ends (s.periodStart n.val) := by
    refine congrArg s.ends (if_pos ?_)
    simp [hst, hfb, hheld]
  have hfault := periodStart_hold hon n.isLt hp htrip hst hfb hc
  rw [if_pos hheld] at hfault
  exact Completes.of_ends hexec (fun _ _ h => h)
    ⟨hfault.1, hfault.2, periodStart_out hon n.isLt, periodStart_perAt hon hstart⟩

/-! PL_N periods of mismatch (R160). -/

theorem plausibilityMismatch_completes (moved : List (Fin 12 × Int)) (hen : s.flag (F.SRV_LPL_PL_EN n.val) = true)
    (hlast : max 1 (s.get (F.SRV_LPL_PL_N n.val)) ≤ (s.loop n.val).plausN + 1) (hst : s.srvState n.val ≠ 0)
    (hout : (s.loop n.val).outAt ≠ some (s.loop n.val).perAt) :
    Completes (.plausibilityMismatch n moved) s fun t => t.flag (F.SRV_LSTAT_FB_OK n.val) = true →
      s.geti (R.SRV_PL_TOL n.val) < |t.geti (R.SRV_YM n.val) - t.plausSignal n.val| → Mismatched n.val s t := by
  have hexec : exec (.plausibilityMismatch n moved) s = s.ends (s.servoOutput n.val moved) := by
    refine congrArg s.ends (if_pos ?_)
    simp [hen, hlast]
  exact Completes.of_ends hexec (fun _ _ h hfb hdiff => let ⟨a, b, c, d⟩ := h hfb hdiff; ⟨a, b, c, d⟩)
    fun hfb hdiff => servoOutput_mismatched hon n.isLt hout hen hst hlast hfb hdiff

end

/-- Settles O28: the rules of the period start, of the output instant, of the servo tick and of the three timed events, each proved of
the state in which its command ends. -/
theorem servoPeriodsAndOutputs : Obligations.ServoPeriodsAndOutputs := by
  intro s n moved hon m st l fbOk start outAt
  have hn : m < 24 := n.isLt
  refine ⟨fun hstart => ?_, servoTick_completes hon hn, fun hout => ?_, fun hinst hout => ?_, fbHoldExpire_completes hon n,
    setpointTimeout_completes hon n, fun hen hlast hst hout => ?_⟩
  · obtain ⟨hgrid, hle, hmax⟩ := nextPeriod_spec s m
    refine Completes.of_ends (t := s.periodStart m) rfl (fun _ _ h => h) ?_
    exact ⟨periodStart_now hon hstart, hgrid, hle, hmax, periodStart_perAt hon hstart, periodStart_pend hon hstart,
      periodStart_commitPend hon hstart, periodStart_showsPend hon hn, periodStart_enable hon hn, periodStart_disable hon hn,
      periodStart_open hon hn, fun ht hp h => periodStart_trip hon hn hp ht h, periodStart_tripDue hon,
      fun ht hp h hfb hc hnew hkind => periodStart_close hon hn hp h hfb hc hnew hkind ht,
      fun hp h hfb => periodStart_close_refused hon hn hp h hfb, fun ht hp h hfb => periodStart_holds hon hn hp ht h hfb,
      fun ht hp h hfb => periodStart_closes_again hon hn hp ht h hfb, fun ht hp h hfb hc => periodStart_hold hon hn hp ht h hfb hc,
      fun hp h => periodStart_stays hon hn hp h⟩
  · exact Completes.of (congrArg s.ends (servoOutput_again hout moved)) (State.requeue_self s)
  · have ho := servoOutput_instant hon hn hout moved
    refine Completes.of_ends (t := s.servoOutput m moved) rfl (fun _ _ h => h) ?_
    generalize s.servoOutput m moved = t at ho
    refine ⟨ho.now hinst, fun h => ⟨(ho.srvState hn).trans h, ?_⟩, fun h _ hfb hle => ho.closed hn h hfb hle, fun h _ => ho.hold hn h,
      fun h => ⟨(ho.srvState hn).trans h, ho.fault hn h⟩, fun h => ⟨(ho.srvState hn).trans h, ho.disabled hn h⟩, ho.outAt⟩
    exact (ho.open hn h).trans rfl
  · refine (plausibilityMismatch_completes hon n moved hen hlast hst hout).imp fun t ht => ⟨ht.1, fun hfb hdiff => ?_⟩
    obtain ⟨hflag, hcount, hcleared, htrip⟩ := ht.2 hfb hdiff
    exact ⟨hflag, hcount, hcleared, htrip⟩

end Sys2Proof.Machine
end

section
/-!
PROOFS of the family 10_field_filters, a channel's own part of the state (O30): its 32 registers and its hidden state. What works on one
channel leaves the others, so a pass over all 24 does to each channel what its own step does.
-/
namespace Sys2Proof.Machine

/-! The registers of a channel. -/

/-- The registers of channel n, from DSF_CFG on. -/
def ChannelReg (n a : Nat) : Prop := R.DSF_CFG n ≤ a ∧ a < R.DSF_CFG n + 0x80

theorem not_channelReg_of_ne {m n a : Nat} (hmn : m ≠ n) (h : ChannelReg m a) : ¬ ChannelReg n a := by
  simp only [ChannelReg, R.DSF_CFG] at *
  omega

/-- Between two states only channel n changes, beside parts of the state that no channel reads. -/
structure OnlyChannel (n : Nat) (s t : State) : Prop where
  word : ∀ a, ¬ ChannelReg n a → t.word a = s.word a
  ch : ∀ m, m ≠ n → t.ch m = s.ch m
  time : t.time = s.time

/-- Two states show the same of channel n. -/
structure SameChannel (n : Nat) (s t : State) : Prop where
  word : ∀ a, ChannelReg n a → t.word a = s.word a
  ch : t.ch n = s.ch n

section
variable {n : Nat} {s t u : State}

theorem OnlyChannel.refl (s : State) : OnlyChannel n s s := ⟨fun _ _ => rfl, fun _ _ => rfl, rfl⟩

theorem OnlyChannel.trans (p : OnlyChannel n s t) (q : OnlyChannel n t u) : OnlyChannel n s u :=
  ⟨fun a h => (q.word a h).trans (p.word a h), fun m h => (q.ch m h).trans (p.ch m h), q.time.trans p.time⟩

theorem OnlyChannel.setWord (p : OnlyChannel n s t) {a : Nat} {v : Word} (ha : ChannelReg n a) : OnlyChannel n s (t.setWord a v) :=
  ⟨fun b hb => (State.word_setWord_ne t (fun h : b = a => hb (h ▸ ha)) v).trans (p.word b hb), p.ch, p.time⟩

theorem OnlyChannel.set (p : OnlyChannel n s t) {f : Fld} {v : Nat} (hf : ChannelReg n f.addr) : OnlyChannel n s (t.set f v) :=
  p.setWord hf

theorem OnlyChannel.setFlag (p : OnlyChannel n s t) {f : Fld} {b : Bool} (hf : ChannelReg n f.addr) :
    OnlyChannel n s (t.setFlag f b) := p.setWord hf

theorem OnlyChannel.bump (p : OnlyChannel n s t) {f : Fld} (hf : ChannelReg n f.addr) : OnlyChannel n s (t.bump f) := p.setWord hf

theorem OnlyChannel.modDsf (p : OnlyChannel n s t) {f : Dsf → Dsf} : OnlyChannel n s (t.modDsf n f) :=
  ⟨p.word, fun m hm => (State.ch_modDsf t n m f).trans ((if_neg hm).trans (p.ch m hm)), p.time⟩

theorem onlyChannel_ite {c : Prop} [Decidable c] (ht : OnlyChannel n s t) (hu : OnlyChannel n s u) :
    OnlyChannel n s (if c then t else u) := by
  split
  · exact ht
  · exact hu

theorem SameChannel.refl (s : State) : SameChannel n s s := ⟨fun _ _ => rfl, rfl⟩

theorem SameChannel.trans (p : SameChannel n s t) (q : SameChannel n t u) : SameChannel n s u :=
  ⟨fun a h => (q.word a h).trans (p.word a h), q.ch.trans p.ch⟩

theorem SameChannel.get (p : SameChannel n s t) {f : Fld} (hf : ChannelReg n f.addr) : t.get f = s.get f :=
  State.get_congr (p.word _ hf)

theorem SameChannel.flag (p : SameChannel n s t) {f : Fld} (hf : ChannelReg n f.addr) : t.flag f = s.flag f :=
  congrArg (· != 0) (p.get hf)

/-- What changes one channel alone leaves every other. -/
theorem OnlyChannel.sameChannel {m : Nat} (p : OnlyChannel n s t) (hmn : m ≠ n) : SameChannel m s t :=
  ⟨fun a ha => p.word a (not_channelReg_of_ne hmn ha), p.ch m hmn⟩

/-! A pass over channels. -/

variable {f : State → Nat → State}

theorem foldl_time (hf : ∀ s n, OnlyChannel n s (f s n)) (l : List Nat) (s : State) : (l.foldl f s).time = s.time :=
  foldl_keeps State.time f (fun s n => (hf s n).time) l s

theorem foldl_word_of_not_channelReg (hf : ∀ s n, OnlyChannel n s (f s n)) {a : Nat} :
    ∀ (l : List Nat), (∀ n ∈ l, ¬ ChannelReg n a) → ∀ s : State, (l.foldl f s).word a = s.word a
  | [], _, _ => rfl
  | m :: l, h, s =>
    (foldl_word_of_not_channelReg hf l (fun k hk => h k (by simp [hk])) (f s m)).trans ((hf s m).word a (h m (by simp)))

theorem sameChannel_foldl_of_notMem (hf : ∀ s n, OnlyChannel n s (f s n)) :
    ∀ (l : List Nat), n ∉ l → ∀ s : State, SameChannel n s (l.foldl f s)
  | [], _, s => SameChannel.refl s
  | m :: l, h, s => by
    obtain ⟨hm, hl⟩ := not_or.1 (mt List.mem_cons.2 h)
    exact ((hf s m).sameChannel hm).trans (sameChannel_foldl_of_notMem hf l hl (f s m))

/-- A pass takes a channel of its list from a state that shows of it what the pass began with, and leaves it as the channel's own
step does. -/
theorem sameChannel_foldl (hf : ∀ s n, OnlyChannel n s (f s n)) :
    ∀ (l : List Nat), l.Nodup → n ∈ l → ∀ s : State,
      ∃ u : State, u.time = s.time ∧ SameChannel n s u ∧ SameChannel n (f u n) (l.foldl f s)
  | m :: l, hnodup, hmem, s => by
    obtain ⟨hm, hl⟩ := List.nodup_cons.1 hnodup
    by_cases h : n = m
    · subst h
      exact ⟨s, rfl, SameChannel.refl s, sameChannel_foldl_of_notMem hf l hm (f s n)⟩
    · obtain ⟨u, htime, hbefore, hafter⟩ := sameChannel_foldl hf l hl ((List.mem_cons.1 hmem).resolve_left h) (f s m)
      exact ⟨u, htime.trans (hf s m).time, ((hf s m).sameChannel h).trans hbefore, hafter⟩

/-- A pass over all 24 channels. -/
theorem sameChannel_allChannels (hf : ∀ s n, OnlyChannel n s (f s n)) (hn : n < 24) (s : State) :
    ∃ u : State, u.time = s.time ∧ SameChannel n s u ∧ SameChannel n (f u n) ((List.range 24).foldl f s) :=
  sameChannel_foldl hf _ List.nodup_range (List.mem_range.2 hn) s

theorem allChannels_word (hf : ∀ s n, OnlyChannel n s (f s n)) {a : Nat} (ha : 0x400D0C00 ≤ a) (s : State) :
    ((List.range 24).foldl f s).word a = s.word a := by
  refine foldl_word_of_not_channelReg hf _ (fun n hn => ?_) s
  have := List.mem_range.1 hn
  simp only [ChannelReg, R.DSF_CFG]
  omega

end

/-! Fields apart from one that was written. -/

/-- Two fields share no bit. -/
def Fld.Apart (f g : Fld) : Prop := f.addr ≠ g.addr ∨ f.lo + f.w ≤ g.lo ∨ g.lo + g.w ≤ f.lo

section
variable {f g : Fld}

theorem apart_above (h : f.lo + f.w ≤ g.lo) : f.Apart g := Or.inr (Or.inl h)

theorem apart_below (h : g.lo + g.w ≤ f.lo) : f.Apart g := Or.inr (Or.inr h)

theorem get_set_of_apart (h : f.Apart g) (s : State) (v : Nat) : (s.set g v).get f = s.get f :=
  h.elim (State.get_set_addr s f g v) (State.get_set_apart s f g v)

theorem get_setFlag_of_apart (h : f.Apart g) (s : State) (b : Bool) : (s.setFlag g b).get f = s.get f := get_set_of_apart h s _

theorem get_bump_of_apart (h : f.Apart g) (s : State) : (s.bump g).get f = s.get f := get_set_of_apart h s _

theorem flag_set_of_apart (h : f.Apart g) (s : State) (v : Nat) : (s.set g v).flag f = s.flag f :=
  congrArg (· != 0) (get_set_of_apart h s v)

theorem flag_setFlag_of_apart (h : f.Apart g) (s : State) (b : Bool) : (s.setFlag g b).flag f = s.flag f := flag_set_of_apart h s _

theorem get_setWord_of_ne {a : Nat} (h : f.addr ≠ a) (s : State) (v : Word) : (s.setWord a v).get f = s.get f :=
  State.get_congr (State.word_setWord_ne s h v)

end

end Sys2Proof.Machine
end

section
/-!
PROOFS of the family 10_field_filters, what proofing, a restart and the end of a swap leave in a channel (O30; R168, R172, R177).
-/
namespace Sys2Proof.Machine

/-! What a proofing count begins with. -/

/-- Channel n proofs from the start: unproofed with its threshold state NORMAL, FILL and SETTLE samples ahead, the detectors
settling (R168, R170, R171). -/
def Proofing (settle n : Nat) (t : State) : Prop :=
  t.flag (F.DSF_STAT_PROOFED n) = false ∧ t.get (F.DSF_STAT_THR n) = 0 ∧ (t.ch n).left = dsfFill (t.dcfg n) + settle
    ∧ t.get (F.DSF_STAT_PCOUNT n) = min 65535 (t.ch n).left ∧ (t.ch n).skip = 3

/-- Channel n proofs with empty histories, its first decimation instant DELAY and one period after a base (R172, R173). -/
def Restarted (settle delay n base : Nat) (t : State) : Prop :=
  Proofing settle n t ∧ (t.ch n).bits = [] ∧ (t.ch n).lineA = [[], []] ∧ (t.ch n).lineB = [[], []]
    ∧ (t.ch n).nextAt = base + delay % (4 * dsfD (t.dcfg n)) * 25 + dsfD (t.dcfg n) * 100

/-- Two states agree in what shows that a channel proofs. -/
structure ProofsAlike (n : Nat) (s t : State) : Prop where
  proofed : t.flag (F.DSF_STAT_PROOFED n) = s.flag (F.DSF_STAT_PROOFED n)
  thr : t.get (F.DSF_STAT_THR n) = s.get (F.DSF_STAT_THR n)
  pcount : t.get (F.DSF_STAT_PCOUNT n) = s.get (F.DSF_STAT_PCOUNT n)
  dcfg : t.dcfg n = s.dcfg n
  ch : t.ch n = s.ch n

section
variable {settle delay n base : Nat} {s t : State}

theorem Proofing.alike (h : Proofing settle n s) (p : ProofsAlike n s t) : Proofing settle n t := by
  rw [Proofing, p.proofed, p.thr, p.pcount, p.dcfg, p.ch]
  exact h

theorem Restarted.alike (h : Restarted settle delay n base s) (p : ProofsAlike n s t) : Restarted settle delay n base t := by
  obtain ⟨hproofing, hrest⟩ := h
  refine ⟨hproofing.alike p, ?_⟩
  rw [p.dcfg, p.ch]
  exact hrest

theorem channelReg_cfg (n : Nat) : ChannelReg n (R.DSF_CFG n) := ⟨le_rfl, Nat.lt_add_of_pos_right (by decide)⟩

theorem channelReg_stat (n : Nat) : ChannelReg n (R.DSF_STAT n) := by simp only [ChannelReg, R.DSF_CFG, R.DSF_STAT]; omega

theorem channelReg_proof (n : Nat) : ChannelReg n (R.DSF_PROOF n) := by simp only [ChannelReg, R.DSF_CFG, R.DSF_PROOF]; omega

theorem channelReg_delay (n : Nat) : ChannelReg n (R.DSF_DELAY n) := by simp only [ChannelReg, R.DSF_CFG, R.DSF_DELAY]; omega

theorem SameChannel.proofsAlike (p : SameChannel n s t) : ProofsAlike n s t :=
  ⟨p.flag (channelReg_stat n), p.get (channelReg_stat n), p.get (channelReg_stat n), p.word _ (channelReg_cfg n), p.ch⟩

/-- ALIGNED says nothing of proofing. -/
theorem proofsAlike_setAligned (s : State) (n : Nat) (b : Bool) : ProofsAlike n s (s.setFlag (F.DSF_STAT_ALIGNED n) b) where
  proofed := flag_setFlag_of_apart (apart_above (by simp [F.DSF_STAT_PROOFED, F.DSF_STAT_ALIGNED])) s b
  thr := get_setFlag_of_apart (apart_below (by simp [F.DSF_STAT_THR, F.DSF_STAT_ALIGNED])) s b
  pcount := get_setFlag_of_apart (apart_below (by simp [F.DSF_STAT_PCOUNT, F.DSF_STAT_ALIGNED])) s b
  dcfg := State.word_setFlag_ne s _ b (by simp [F.DSF_STAT_ALIGNED, R.DSF_CFG, R.DSF_STAT])
  ch := State.setFlag_ch s _ b n

end

/-! unproof and proofAll (R168). -/

section
variable (s : State) (n count : Nat)

theorem onlyChannel_unproof : OnlyChannel n s (s.unproof n count) := by
  have hstat := channelReg_stat n
  rw [State.unproof, State.setLeft]
  exact ((((OnlyChannel.refl s).setFlag hstat).set hstat).modDsf).set hstat

theorem unproof_ch : (s.unproof n count).ch n = { s.ch n with left := count } := by
  rw [State.unproof, State.setLeft, State.set_ch, State.ch_modDsf_same, State.set_ch, State.setFlag_ch]

theorem unproof_word {a : Nat} (ha : a ≠ R.DSF_STAT n) : (s.unproof n count).word a = s.word a := by
  rw [State.unproof, State.setLeft, State.word_set_ne _ _ _ ha, State.modDsf_word, State.word_set_ne _ _ _ ha,
    State.word_setFlag_ne _ _ _ ha]

theorem unproof_proofed : (s.unproof n count).flag (F.DSF_STAT_PROOFED n) = false := by
  rw [State.unproof, State.setLeft, flag_set_of_apart (apart_above (by simp [F.DSF_STAT_PROOFED, F.DSF_STAT_THR])), State.modDsf_flag,
    flag_set_of_apart (apart_above (by simp [F.DSF_STAT_PROOFED, F.DSF_STAT_PCOUNT])),
    State.flag_setFlag _ _ _ (by simp [F.DSF_STAT_PROOFED]) rfl]

theorem unproof_thr : (s.unproof n count).get (F.DSF_STAT_THR n) = 0 := by
  rw [State.unproof, State.get_set _ _ _ (by simp [F.DSF_STAT_THR]), Nat.zero_mod]

theorem unproof_pcount : (s.unproof n count).get (F.DSF_STAT_PCOUNT n) = min 65535 count := by
  rw [State.unproof, State.setLeft, get_set_of_apart (apart_below (by simp [F.DSF_STAT_PCOUNT, F.DSF_STAT_THR])), State.modDsf_get,
    State.get_set _ _ _ (by simp [F.DSF_STAT_PCOUNT])]
  refine Nat.mod_eq_of_lt ?_
  simp only [F.DSF_STAT_PCOUNT]
  omega

/-- STUCK and ALIGNED stand between what proofing writes in DSF_STAT. -/
theorem unproof_flag {f : Fld} (hlo : 1 ≤ f.lo) (hhi : f.lo + f.w ≤ 4) : (s.unproof n count).flag f = s.flag f := by
  have hproofed : f.Apart (F.DSF_STAT_PROOFED n) := apart_below hlo
  have hpcount : f.lo + f.w ≤ 16 := hhi.trans (by decide)
  rw [State.unproof, State.setLeft, flag_set_of_apart (apart_above hhi), State.modDsf_flag, flag_set_of_apart (apart_above hpcount),
    flag_setFlag_of_apart hproofed]

end

section
variable (s : State) (n : Nat)

theorem proofAll_dcfg : (s.proofAll n).dcfg n = s.dcfg n := by
  have haddr : R.DSF_CFG n ≠ R.DSF_STAT n := by simp [R.DSF_CFG, R.DSF_STAT]
  rw [State.dcfg, State.proofAll, unproof_word _ _ _ haddr, State.dcfg]

theorem proofAll_ch : (s.proofAll n).ch n = { s.ch n with left := dsfFill (s.dcfg n) + s.get (F.DSF_PROOF_SETTLE n) } := by
  rw [State.proofAll, unproof_ch]

/-- FILL and SETTLE samples are counted, on a channel whose detectors settle already. -/
theorem proofAll_proofing (hskip : (s.ch n).skip = 3) : Proofing (s.get (F.DSF_PROOF_SETTLE n)) n (s.proofAll n) := by
  rw [Proofing, proofAll_dcfg, proofAll_ch, State.proofAll, unproof_proofed, unproof_thr, unproof_pcount]
  exact ⟨rfl, rfl, rfl, rfl, hskip⟩

/-- FILL and SETTLE samples are counted, and the detectors settle. -/
theorem proofAll_settles : Proofing (s.get (F.DSF_PROOF_SETTLE n)) n ((s.proofAll n).modDsf n fun c => { c with skip := 3 }) := by
  rw [Proofing, State.ch_modDsf_same, State.modDsf_flag, State.modDsf_get, State.modDsf_get, State.dcfg, State.modDsf_word, ← State.dcfg,
    proofAll_dcfg, proofAll_ch, State.proofAll, unproof_proofed, unproof_thr, unproof_pcount]
  exact ⟨rfl, rfl, rfl, rfl, rfl⟩

end

/-! dsfRestart (R172, R173). -/

section
variable (s : State) (n base : Nat)

theorem dsfRestart_ch : (s.dsfRestart n base).ch n = { s.ch n with
    bits := [], lineA := [[], []], lineB := [[], []], skip := 3,
    nextAt := base + s.get (F.DSF_DELAY_DELAY n) % (4 * dsfD (s.dcfg n)) * 25 + dsfD (s.dcfg n) * 100 } := by
  rw [State.dsfRestart, State.ch_modDsf_same]

theorem dsfRestart_word (a : Nat) : (s.dsfRestart n base).word a = s.word a := by rw [State.dsfRestart, State.modDsf_word]

theorem dsfRestart_get (f : Fld) : (s.dsfRestart n base).get f = s.get f := State.get_congr (dsfRestart_word s n base _)

theorem dsfRestart_proofAll_restarted :
    Restarted (s.get (F.DSF_PROOF_SETTLE n)) (s.get (F.DSF_DELAY_DELAY n)) n base ((s.dsfRestart n base).proofAll n) := by
  have hproofing := proofAll_proofing (s.dsfRestart n base) n (by rw [dsfRestart_ch])
  rw [dsfRestart_get] at hproofing
  refine ⟨hproofing, ?_⟩
  rw [proofAll_dcfg, proofAll_ch, dsfRestart_ch, State.dcfg, State.dcfg, dsfRestart_word]
  exact ⟨rfl, rfl, rfl, rfl⟩

theorem onlyChannel_restart : OnlyChannel n s ((s.dsfRestart n base).proofAll n) := by
  rw [State.proofAll, State.dsfRestart]
  exact (OnlyChannel.refl s).modDsf.trans (onlyChannel_unproof _ n _)

end

/-! dsfStart (R168, R172). -/

/-- A channel at its start, before its histories are cleared: ALIGNED and STUCK are 0 and FILL shows its length. -/
def State.startShown (s : State) (n : Nat) : State :=
  ((s.setFlag (F.DSF_STAT_ALIGNED n) false).setFlag (F.DSF_STAT_STUCK n) false).set (F.DSF_PROOF_FILL n) (dsfFill (s.dcfg n))

section
variable (s : State) (n : Nat)

theorem dsfStart_eq : s.dsfStart n = ((s.startShown n).dsfRestart n (s.ioEdge (2 * s.now) 100)).proofAll n := rfl

theorem startShown_get {f : Fld} (hstat : f.addr ≠ R.DSF_STAT n) (hfill : f.Apart (F.DSF_PROOF_FILL n)) :
    (s.startShown n).get f = s.get f := by
  rw [State.startShown, get_set_of_apart hfill, get_setFlag_of_apart (Or.inl hstat), get_setFlag_of_apart (Or.inl hstat)]

theorem startShown_aligned : (s.startShown n).flag (F.DSF_STAT_ALIGNED n) = false := by
  rw [State.startShown, flag_set_of_apart (Or.inl (by simp [F.DSF_STAT_ALIGNED, F.DSF_PROOF_FILL, R.DSF_STAT, R.DSF_PROOF])),
    flag_setFlag_of_apart (apart_below (by simp [F.DSF_STAT_ALIGNED, F.DSF_STAT_STUCK])),
    State.flag_setFlag _ _ _ (by simp [F.DSF_STAT_ALIGNED]) rfl]

theorem startShown_stuck : (s.startShown n).flag (F.DSF_STAT_STUCK n) = false := by
  rw [State.startShown, flag_set_of_apart (Or.inl (by simp [F.DSF_STAT_STUCK, F.DSF_PROOF_FILL, R.DSF_STAT, R.DSF_PROOF])),
    State.flag_setFlag _ _ _ (by simp [F.DSF_STAT_STUCK]) rfl]

theorem onlyChannel_dsfStart : OnlyChannel n s (s.dsfStart n) := by
  have hstat := channelReg_stat n
  have hproof := channelReg_proof n
  rw [dsfStart_eq, State.startShown]
  exact ((((OnlyChannel.refl s).setFlag hstat).setFlag hstat).set hproof).trans (onlyChannel_restart _ n _)

theorem dsfStart_restarted :
    Restarted (s.get (F.DSF_PROOF_SETTLE n)) (s.get (F.DSF_DELAY_DELAY n)) n (s.ioEdge (2 * s.now) 100) (s.dsfStart n) := by
  have hsettle : (s.startShown n).get (F.DSF_PROOF_SETTLE n) = s.get (F.DSF_PROOF_SETTLE n) :=
    startShown_get s n (by simp [F.DSF_PROOF_SETTLE, R.DSF_PROOF, R.DSF_STAT])
      (apart_above (by simp [F.DSF_PROOF_SETTLE, F.DSF_PROOF_FILL]))
  have hdelay : (s.startShown n).get (F.DSF_DELAY_DELAY n) = s.get (F.DSF_DELAY_DELAY n) :=
    startShown_get s n (by simp [F.DSF_DELAY_DELAY, R.DSF_DELAY, R.DSF_STAT])
      (Or.inl (by simp [F.DSF_DELAY_DELAY, F.DSF_PROOF_FILL, R.DSF_DELAY, R.DSF_PROOF]))
  rw [dsfStart_eq, ← hsettle, ← hdelay]
  exact dsfRestart_proofAll_restarted _ n _

/-- A started channel's STUCK and ALIGNED are those shown. -/
theorem dsfStart_flag {f : Fld} (hlo : 1 ≤ f.lo) (hhi : f.lo + f.w ≤ 4) : (s.dsfStart n).flag f = (s.startShown n).flag f := by
  rw [dsfStart_eq, State.proofAll, unproof_flag _ _ _ hlo hhi]
  exact congrArg (· != 0) (dsfRestart_get _ n _ f)

theorem dsfStart_aligned : (s.dsfStart n).flag (F.DSF_STAT_ALIGNED n) = false := by
  rw [dsfStart_flag s n (by simp [F.DSF_STAT_ALIGNED]) (by simp [F.DSF_STAT_ALIGNED]), startShown_aligned]

theorem dsfStart_stuck : (s.dsfStart n).flag (F.DSF_STAT_STUCK n) = false := by
  rw [dsfStart_flag s n (by simp [F.DSF_STAT_STUCK]) (by simp [F.DSF_STAT_STUCK]), startShown_stuck]

theorem dsfStart_dcfg : (s.dsfStart n).dcfg n = s.dcfg n := by
  have hproof : R.DSF_CFG n ≠ (F.DSF_PROOF_FILL n).addr := by simp [R.DSF_CFG, F.DSF_PROOF_FILL, R.DSF_PROOF]
  have haligned : R.DSF_CFG n ≠ (F.DSF_STAT_ALIGNED n).addr := by simp [R.DSF_CFG, F.DSF_STAT_ALIGNED, R.DSF_STAT]
  have hstuck : R.DSF_CFG n ≠ (F.DSF_STAT_STUCK n).addr := by simp [R.DSF_CFG, F.DSF_STAT_STUCK, R.DSF_STAT]
  rw [dsfStart_eq, proofAll_dcfg, State.dcfg, dsfRestart_word, State.startShown, State.word_set_ne _ _ _ hproof,
    State.word_setFlag_ne _ _ _ hstuck, State.word_setFlag_ne _ _ _ haligned, State.dcfg]

/-- EN is a bit of the configuration. -/
theorem flag_en (t : State) : t.flag (F.DSF_CFG_EN n) = ((F.DSF_CFG_EN n).of (t.dcfg n) != 0) := rfl

theorem dsfStart_en : (s.dsfStart n).flag (F.DSF_CFG_EN n) = s.flag (F.DSF_CFG_EN n) := by rw [flag_en, dsfStart_dcfg, flag_en]

end

/-! endSwap (R177). -/

section
variable (s : State) (n : Nat)

/-- The target of a running swap is active and no swap runs. -/
def State.swapDone : State := (s.set (F.DSF_BANKSTAT_ACTIVE n) (s.get (F.DSF_BANKSTAT_FADING n))).set (F.DSF_BANKSTAT_PHASE n) 0

/-- A queued request is counted as replaced. -/
def State.queueCounted : State := if s.flag (F.DSF_BANKSTAT_QVALID n) then s.bump (F.DSF_CNT_QREPL n) else s

theorem endSwap_of_idle (hidle : s.get (F.DSF_BANKSTAT_PHASE n) = 0) : s.endSwap n = s := if_pos hidle

theorem endSwap_of_swap (hswap : s.get (F.DSF_BANKSTAT_PHASE n) ≠ 0) : s.endSwap n =
    (((s.swapDone n).queueCounted n).setFlag (F.DSF_BANKSTAT_QVALID n) false).modDsf n fun c => { c with req := none, fadeK := 0 } :=
  if_neg hswap

theorem channelReg_bankstat : ChannelReg n (R.DSF_BANKSTAT n) := by simp only [ChannelReg, R.DSF_CFG, R.DSF_BANKSTAT]; omega

theorem onlyChannel_queueCounted : OnlyChannel n s (s.queueCounted n) := by
  have hcnt : ChannelReg n (R.DSF_CNT n) := by simp only [ChannelReg, R.DSF_CFG, R.DSF_CNT]; omega
  exact onlyChannel_ite ((OnlyChannel.refl s).bump hcnt) (OnlyChannel.refl s)

theorem queueCounted_ch (m : Nat) : (s.queueCounted n).ch m = s.ch m := by
  unfold State.queueCounted
  split
  · exact State.bump_ch s _ m
  · rfl

theorem queueCounted_word {a : Nat} (hcnt : a ≠ R.DSF_CNT n) : (s.queueCounted n).word a = s.word a := by
  unfold State.queueCounted
  split
  · exact State.word_set_ne s _ _ hcnt
  · rfl

theorem onlyChannel_endSwap : OnlyChannel n s (s.endSwap n) := by
  have hstat := channelReg_bankstat n
  have hdone : OnlyChannel n s (s.swapDone n) := ((OnlyChannel.refl s).set hstat).set hstat
  by_cases hidle : s.get (F.DSF_BANKSTAT_PHASE n) = 0
  · rw [endSwap_of_idle s n hidle]
    exact OnlyChannel.refl s
  · rw [endSwap_of_swap s n hidle]
    exact ((hdone.trans (onlyChannel_queueCounted _ n)).setFlag hstat).modDsf

theorem endSwap_word {a : Nat} (hstat : a ≠ R.DSF_BANKSTAT n) (hcnt : a ≠ R.DSF_CNT n) : (s.endSwap n).word a = s.word a := by
  by_cases hidle : s.get (F.DSF_BANKSTAT_PHASE n) = 0
  · rw [endSwap_of_idle s n hidle]
  · rw [endSwap_of_swap s n hidle, State.modDsf_word, State.word_setFlag_ne _ _ _ hstat, queueCounted_word _ n hcnt, State.swapDone,
      State.word_set_ne _ _ _ hstat, State.word_set_ne _ _ _ hstat]

theorem endSwap_ch : (s.endSwap n).ch n = if s.get (F.DSF_BANKSTAT_PHASE n) = 0 then s.ch n
    else { s.ch n with req := none, fadeK := 0 } := by
  by_cases hidle : s.get (F.DSF_BANKSTAT_PHASE n) = 0
  · rw [endSwap_of_idle s n hidle, if_pos hidle]
  · rw [endSwap_of_swap s n hidle, if_neg hidle, State.ch_modDsf_same, State.setFlag_ch, queueCounted_ch, State.swapDone, State.set_ch,
      State.set_ch]

/-- ACTIVE and PHASE stand beside what the end of a swap writes after them. -/
theorem endSwap_get_of_swap (hswap : s.get (F.DSF_BANKSTAT_PHASE n) ≠ 0) {f : Fld} (haddr : f.addr = R.DSF_BANKSTAT n)
    (hf : f.lo + f.w ≤ 4) : (s.endSwap n).get f = (s.swapDone n).get f := by
  have hcnt : f.addr ≠ R.DSF_CNT n := by simp [haddr, R.DSF_BANKSTAT, R.DSF_CNT]
  rw [endSwap_of_swap s n hswap, State.modDsf_get, get_setFlag_of_apart (apart_above hf)]
  exact State.get_congr (queueCounted_word _ n hcnt)

theorem endSwap_phase : (s.endSwap n).get (F.DSF_BANKSTAT_PHASE n) = 0 := by
  by_cases hidle : s.get (F.DSF_BANKSTAT_PHASE n) = 0
  · rw [endSwap_of_idle s n hidle, hidle]
  · rw [endSwap_get_of_swap s n hidle rfl (by simp [F.DSF_BANKSTAT_PHASE]), State.swapDone,
      State.get_set _ _ _ (by simp [F.DSF_BANKSTAT_PHASE]), Nat.zero_mod]

theorem endSwap_active : (s.endSwap n).get (F.DSF_BANKSTAT_ACTIVE n) =
    if s.get (F.DSF_BANKSTAT_PHASE n) = 0 then s.get (F.DSF_BANKSTAT_ACTIVE n) else s.get (F.DSF_BANKSTAT_FADING n) := by
  by_cases hidle : s.get (F.DSF_BANKSTAT_PHASE n) = 0
  · rw [endSwap_of_idle s n hidle, if_pos hidle]
  · rw [endSwap_get_of_swap s n hidle rfl (by simp [F.DSF_BANKSTAT_ACTIVE]), if_neg hidle, State.swapDone,
      get_set_of_apart (apart_above (by simp [F.DSF_BANKSTAT_ACTIVE, F.DSF_BANKSTAT_PHASE])),
      State.get_set _ _ _ (by simp [F.DSF_BANKSTAT_ACTIVE])]
    exact Nat.mod_eq_of_lt (get_lt s (F.DSF_BANKSTAT_FADING n))

end

end Sys2Proof.Machine
end

section
/-!
PROOFS of the family 10_field_filters, writes of DSF_CFG and DSF_ENSET (O30; R165, R168, R172, R177).
-/
namespace Sys2Proof.Machine

/-! DSF_CFG's row and its low bits. -/

theorem passes_dsfCfg {d : Dom} (hd : d = .host ∨ d = .svc) (n : Fin 24) : passes d (R.DSF_CFG n.val) 12 = true := by
  rcases hd with rfl | rfl
  · exact (by decide : ∀ n : Fin 24, passes .host (R.DSF_CFG n.val) 12 = true) n
  · exact (by decide : ∀ n : Fin 24, passes .svc (R.DSF_CFG n.val) 12 = true) n

/-- What a write of v leaves in DSF_CFG: while EN is 1 the filter fields stay (R165). -/
def State.cfgWritten (s : State) (n : Nat) (v : Word) : Word :=
  if s.flag (F.DSF_CFG_EN n) then (v &&& 0x0FFFFFFF#32 &&& ~~~ 0x0FFFFFF8#32) ||| (s.dcfg n &&& 0x0FFFFFF8#32) else v &&& 0x0FFFFFFF#32

/-- DSF_CFG written, and FILL with it. -/
def State.cfgStored (s : State) (n : Nat) (v : Word) : State :=
  (s.setWord (R.DSF_CFG n) (s.cfgWritten n v)).set (F.DSF_PROOF_FILL n) (dsfFill (s.cfgWritten n v))

section
variable (s : State) (n : Nat) (v : Word)

/-- EN and SRC, in the low three bits, are taken from every write. -/
theorem cfgWritten_low {i : Nat} (hi : i < 3) : (s.cfgWritten n v).getLsbD i = v.getLsbD i := by
  have hmask : (0x0FFFFFFF#32).getLsbD i = true := (by decide : ∀ j < 3, (0x0FFFFFFF#32).getLsbD j = true) i hi
  have hkeep : (0x0FFFFFF8#32).getLsbD i = false := (by decide : ∀ j < 3, (0x0FFFFFF8#32).getLsbD j = false) i hi
  have hword : i < 32 := by omega
  unfold State.cfgWritten
  split <;> simp only [BitVec.getLsbD_or, BitVec.getLsbD_and, BitVec.getLsbD_not, hmask, hkeep, hword, decide_true, Bool.not_false,
    Bool.and_true, Bool.and_false, Bool.or_false]

/-- A field is a matter of its bits. -/
theorem of_congr_bits {f : Fld} {w x : Word} (h : ∀ i, i < f.w → w.getLsbD (i + f.lo) = x.getLsbD (i + f.lo)) : f.of w = f.of x := by
  refine Nat.eq_of_testBit_eq fun i => ?_
  simp only [Fld.of, Nat.testBit_mod_two_pow, Nat.testBit_div_two_pow]
  by_cases hi : i < f.w
  · simp only [hi, decide_true, Bool.true_and]
    exact h i hi
  · simp only [hi, decide_false, Bool.false_and]

theorem of_cfgWritten {f : Fld} (hf : f.lo + f.w ≤ 3) : f.of (s.cfgWritten n v) = f.of v :=
  of_congr_bits fun _ _ => cfgWritten_low s n v (by omega)

theorem cfgStored_dcfg : (s.cfgStored n v).dcfg n = s.cfgWritten n v := by
  have haddr : R.DSF_CFG n ≠ (F.DSF_PROOF_FILL n).addr := by simp [R.DSF_CFG, F.DSF_PROOF_FILL, R.DSF_PROOF]
  rw [State.dcfg, State.cfgStored, State.word_set_ne _ _ _ haddr, State.word_setWord_same]

theorem cfgStored_en : (s.cfgStored n v).flag (F.DSF_CFG_EN n) = ((F.DSF_CFG_EN n).of v != 0) := by
  rw [flag_en, cfgStored_dcfg, of_cfgWritten s n v (by simp [F.DSF_CFG_EN])]

/-- SRC is a field of the configuration. -/
theorem get_src (t : State) : t.get (F.DSF_CFG_SRC n) = (F.DSF_CFG_SRC n).of (t.dcfg n) := rfl

theorem cfgStored_src : (s.cfgStored n v).get (F.DSF_CFG_SRC n) = (F.DSF_CFG_SRC n).of v := by
  rw [get_src, cfgStored_dcfg, of_cfgWritten s n v (by simp [F.DSF_CFG_SRC])]

theorem cfgStored_get {f : Fld} (hcfg : f.addr ≠ R.DSF_CFG n) (hfill : f.Apart (F.DSF_PROOF_FILL n)) :
    (s.cfgStored n v).get f = s.get f := by
  rw [State.cfgStored, get_set_of_apart hfill, get_setWord_of_ne hcfg]

theorem cfgStored_settle : (s.cfgStored n v).get (F.DSF_PROOF_SETTLE n) = s.get (F.DSF_PROOF_SETTLE n) :=
  cfgStored_get s n v (by simp [F.DSF_PROOF_SETTLE, R.DSF_PROOF, R.DSF_CFG]) (apart_above (by simp [F.DSF_PROOF_SETTLE, F.DSF_PROOF_FILL]))

theorem cfgStored_delay : (s.cfgStored n v).get (F.DSF_DELAY_DELAY n) = s.get (F.DSF_DELAY_DELAY n) :=
  cfgStored_get s n v (by simp [F.DSF_DELAY_DELAY, R.DSF_DELAY, R.DSF_CFG])
    (Or.inl (by simp [F.DSF_DELAY_DELAY, F.DSF_PROOF_FILL, R.DSF_DELAY, R.DSF_PROOF]))

theorem cfgStored_bankstat {f : Fld} (hf : f.addr = R.DSF_BANKSTAT n) : (s.cfgStored n v).get f = s.get f :=
  cfgStored_get s n v (by simp [hf, R.DSF_BANKSTAT, R.DSF_CFG]) (Or.inl (by simp [hf, F.DSF_PROOF_FILL, R.DSF_BANKSTAT, R.DSF_PROOF]))

end

/-! A write of DSF_CFG. -/

/-- The source a configuration selects: 3 is read as 0 (R164). -/
def dsfSrc (n : Nat) (w : Word) : Nat := if (F.DSF_CFG_SRC n).of w = 3 then 0 else (F.DSF_CFG_SRC n).of w

theorem getLsbD_zero_eq_en (n : Nat) (w : Word) : w.getLsbD 0 = ((F.DSF_CFG_EN n).of w != 0) := by
  simp only [F.DSF_CFG_EN, Fld.of, Nat.pow_zero, Nat.div_one, Nat.pow_one, BitVec.getLsbD, Nat.testBit_eq_decide_div_mod_eq]
  rcases Nat.mod_two_eq_zero_or_one w.toNat with h | h <;> rw [h] <;> rfl

theorem dsfSrc_cfgWritten (s : State) (n : Nat) (v : Word) : dsfSrc n (s.cfgWritten n v) = dsfSrc n v := by
  rw [dsfSrc, of_cfgWritten s n v (by simp [F.DSF_CFG_SRC]), dsfSrc]

section
variable {s : State} {d : Dom} {n : Fin 24} (hd : d = .host ∨ d = .svc) (hon : s.domOn 12 = true)
include hd hon

/-- What a write of DSF_CFG does beside storing it: EN going to 1 starts the channel, EN going to 0 stops it, and another source of a
running channel ends a swap and proofs anew. -/
theorem dsfCfgWrite_eq (v : Word) : (dsfCfgWrite s d n.val v).1 =
    if (F.DSF_CFG_EN n.val).of v != 0 && !s.flag (F.DSF_CFG_EN n.val) then (s.cfgStored n.val v).dsfStart n.val
    else if !((F.DSF_CFG_EN n.val).of v != 0) && s.flag (F.DSF_CFG_EN n.val) then (s.cfgStored n.val v).dsfStop n.val
    else if (F.DSF_CFG_EN n.val).of v != 0 && decide (dsfSrc n.val (s.dcfg n.val) ≠ dsfSrc n.val v) then
      (((s.cfgStored n.val v).endSwap n.val).proofAll n.val).modDsf n.val fun c => { c with skip := 3 }
    else s.cfgStored n.val v := by
  have hen : (s.cfgWritten n.val v).getLsbD 0 = ((F.DSF_CFG_EN n.val).of v != 0) := by
    rw [cfgWritten_low s n.val v (by decide), getLsbD_zero_eq_en n.val]
  rw [dsfCfgWrite, writeGuard_pass s _ (passes_dsfCfg hd n) hon, ← hen, ← dsfSrc_cfgWritten s n.val v]
  simp only [apply_ite Prod.fst]
  rfl

theorem dsfCfgWrite_starts {v : Word} (hoff : s.flag (F.DSF_CFG_EN n.val) = false) (hv : ((F.DSF_CFG_EN n.val).of v != 0) = true) :
    (dsfCfgWrite s d n.val v).1 = (s.cfgStored n.val v).dsfStart n.val := by
  rw [dsfCfgWrite_eq hd hon, hoff, hv]
  rfl

theorem dsfCfgWrite_srcChange {v : Word} (hrun : s.flag (F.DSF_CFG_EN n.val) = true) (hv : ((F.DSF_CFG_EN n.val).of v != 0) = true)
    (hsrc : dsfSrc n.val (s.dcfg n.val) ≠ dsfSrc n.val v) : (dsfCfgWrite s d n.val v).1 =
      (((s.cfgStored n.val v).endSwap n.val).proofAll n.val).modDsf n.val fun c => { c with skip := 3 } := by
  rw [dsfCfgWrite_eq hd hon, hrun, hv, decide_eq_true hsrc]
  rfl

/-- A write that moves neither EN nor, of a running channel, the source is stored. -/
theorem dsfCfgWrite_stores {v : Word} (hv : ((F.DSF_CFG_EN n.val).of v != 0) = s.flag (F.DSF_CFG_EN n.val))
    (hsrc : s.flag (F.DSF_CFG_EN n.val) = true → dsfSrc n.val (s.dcfg n.val) = dsfSrc n.val v) :
    (dsfCfgWrite s d n.val v).1 = s.cfgStored n.val v := by
  rw [dsfCfgWrite_eq hd hon, hv]
  cases hrun : s.flag (F.DSF_CFG_EN n.val) with
  | false => rfl
  | true =>
    rw [decide_eq_false (not_not.2 (hsrc hrun))]
    rfl

/-! DSF_ENABLE (R168). -/

omit hd hon in
theorem enableWord_en : ((F.DSF_CFG_EN n.val).of (s.dcfg n.val ||| 1#32) != 0) = true := by
  rw [← getLsbD_zero_eq_en n.val, BitVec.getLsbD_or]
  exact Bool.or_true _

omit hd hon in
theorem enableWord_src : dsfSrc n.val (s.dcfg n.val ||| 1#32) = dsfSrc n.val (s.dcfg n.val) := by
  have hof : (F.DSF_CFG_SRC n.val).of (s.dcfg n.val ||| 1#32) = (F.DSF_CFG_SRC n.val).of (s.dcfg n.val) := by
    refine of_congr_bits fun i hi => ?_
    have hone : (1#32).getLsbD (i + 1) = false := (by decide : ∀ j < 2, (1#32).getLsbD (j + 1) = false) i hi
    rw [BitVec.getLsbD_or]
    simp only [F.DSF_CFG_SRC, hone, Bool.or_false]
  rw [dsfSrc, hof, dsfSrc]

theorem dsfEnable_starts (hoff : s.flag (F.DSF_CFG_EN n.val) = false) : Completes (.dsfEnable d n) s fun t =>
    t.flag (F.DSF_CFG_EN n.val) = true
    ∧ Restarted (s.get (F.DSF_PROOF_SETTLE n.val)) (s.get (F.DSF_DELAY_DELAY n.val)) n.val (s.ioEdge (2 * s.now) 100) t
    ∧ t.flag (F.DSF_STAT_ALIGNED n.val) = false ∧ t.flag (F.DSF_STAT_STUCK n.val) = false := by
  have hexec : exec (.dsfEnable d n) s = s.ends ((s.cfgStored n.val (s.dcfg n.val ||| 1#32)).dsfStart n.val) :=
    congrArg s.ends (dsfCfgWrite_starts hd hon hoff enableWord_en)
  have hrestarted := dsfStart_restarted (s.cfgStored n.val (s.dcfg n.val ||| 1#32)) n.val
  rw [cfgStored_settle, cfgStored_delay] at hrestarted
  refine Completes.of_ends hexec (fun _ _ h => h) ⟨?_, hrestarted, dsfStart_aligned _ _, dsfStart_stuck _ _⟩
  rw [dsfStart_en, cfgStored_en, enableWord_en]

theorem dsfEnable_again (hrun : s.flag (F.DSF_CFG_EN n.val) = true) : Completes (.dsfEnable d n) s fun t =>
    t.flag (F.DSF_CFG_EN n.val) = true ∧ t.dsf = s.dsf := by
  have hexec : exec (.dsfEnable d n) s = s.ends (s.cfgStored n.val (s.dcfg n.val ||| 1#32)) :=
    congrArg s.ends (dsfCfgWrite_stores hd hon (enableWord_en.trans hrun.symm) fun _ => enableWord_src.symm)
  refine Completes.of_ends hexec (fun _ _ h => h) ⟨?_, rfl⟩
  rw [cfgStored_en, enableWord_en]

/-! DSF_SRC_CHANGE (R177). -/

omit hd hon in
theorem srcWord_en (src : Fin 4) :
    ((F.DSF_CFG_EN n.val).of ((F.DSF_CFG_SRC n.val).into src.val (s.dcfg n.val)) != 0) = s.flag (F.DSF_CFG_EN n.val) := by
  rw [Fld.of_into_ne _ _ _ _ (Or.inl (by simp [F.DSF_CFG_EN, F.DSF_CFG_SRC])), flag_en]

omit hd hon in
theorem srcWord_src (src : Fin 4) : (F.DSF_CFG_SRC n.val).of ((F.DSF_CFG_SRC n.val).into src.val (s.dcfg n.val)) = src.val := by
  rw [Fld.of_into _ _ _ (by simp [F.DSF_CFG_SRC])]
  exact Nat.mod_eq_of_lt src.isLt

theorem dsfSrcChange_restarts (src : Fin 4) (hrun : s.flag (F.DSF_CFG_EN n.val) = true)
    (hsrc : dsfSrc n.val (s.dcfg n.val) ≠ if src.val = 3 then 0 else src.val) : Completes (.dsfSrcChange d n src) s fun t =>
      t.get (F.DSF_CFG_SRC n.val) = src.val ∧ Proofing (s.get (F.DSF_PROOF_SETTLE n.val)) n.val t
      ∧ (t.ch n.val).req = (if s.get (F.DSF_BANKSTAT_PHASE n.val) = 0 then (s.ch n.val).req else none)
      ∧ t.get (F.DSF_BANKSTAT_PHASE n.val) = 0
      ∧ t.get (F.DSF_BANKSTAT_ACTIVE n.val) = (if s.get (F.DSF_BANKSTAT_PHASE n.val) = 0 then s.get (F.DSF_BANKSTAT_ACTIVE n.val)
          else s.get (F.DSF_BANKSTAT_FADING n.val)) := by
  generalize hv : (F.DSF_CFG_SRC n.val).into src.val (s.dcfg n.val) = v
  have hvsrc : (F.DSF_CFG_SRC n.val).of v = src.val := by rw [← hv, srcWord_src]
  have hven : ((F.DSF_CFG_EN n.val).of v != 0) = true := by rw [← hv, srcWord_en, hrun]
  have hexec : exec (.dsfSrcChange d n src) s = s.ends ((((s.cfgStored n.val v).endSwap n.val).proofAll n.val).modDsf n.val
      fun c => { c with skip := 3 }) := by
    rw [← dsfCfgWrite_srcChange hd hon hrun hven (by rw [dsfSrc, dsfSrc, hvsrc]; exact hsrc), ← hv]
    rfl
  have hget : ∀ f : Fld, f.addr ≠ R.DSF_STAT n.val → ((((s.cfgStored n.val v).endSwap n.val).proofAll n.val).modDsf n.val
      fun c => { c with skip := 3 }).get f = ((s.cfgStored n.val v).endSwap n.val).get f := fun f hf => by
    rw [State.modDsf_get, State.proofAll]
    exact State.get_congr (unproof_word _ _ _ hf)
  have hswap : ∀ f : Fld, f.addr ≠ R.DSF_BANKSTAT n.val → f.addr ≠ R.DSF_CNT n.val →
      ((s.cfgStored n.val v).endSwap n.val).get f = (s.cfgStored n.val v).get f := fun f h1 h2 =>
    State.get_congr (endSwap_word _ _ h1 h2)
  have hproofing := proofAll_settles ((s.cfgStored n.val v).endSwap n.val) n.val
  rw [hswap _ (by simp [F.DSF_PROOF_SETTLE, R.DSF_PROOF, R.DSF_BANKSTAT]) (by simp [F.DSF_PROOF_SETTLE, R.DSF_PROOF, R.DSF_CNT]),
    cfgStored_settle] at hproofing
  have hphase : (s.cfgStored n.val v).get (F.DSF_BANKSTAT_PHASE n.val) = s.get (F.DSF_BANKSTAT_PHASE n.val) :=
    cfgStored_bankstat s n.val v rfl
  refine Completes.of_ends hexec (fun _ _ h => h) ⟨?_, hproofing, ?_, ?_, ?_⟩
  · rw [hget _ (by simp [F.DSF_CFG_SRC, R.DSF_CFG, R.DSF_STAT]),
      hswap _ (by simp [F.DSF_CFG_SRC, R.DSF_CFG, R.DSF_BANKSTAT]) (by simp [F.DSF_CFG_SRC, R.DSF_CFG, R.DSF_CNT]), cfgStored_src, hvsrc]
  · rw [State.ch_modDsf_same, proofAll_ch, endSwap_ch, hphase]
    split <;> rfl
  · rw [hget _ (by simp [F.DSF_BANKSTAT_PHASE, R.DSF_BANKSTAT, R.DSF_STAT]), endSwap_phase]
  · rw [hget _ (by simp [F.DSF_BANKSTAT_ACTIVE, R.DSF_BANKSTAT, R.DSF_STAT]), endSwap_active, hphase,
      cfgStored_bankstat s n.val v (f := F.DSF_BANKSTAT_ACTIVE n.val) rfl,
      cfgStored_bankstat s n.val v (f := F.DSF_BANKSTAT_FADING n.val) rfl]

theorem dsfSrcChange_off (src : Fin 4) (hoff : s.flag (F.DSF_CFG_EN n.val) = false) : Completes (.dsfSrcChange d n src) s fun t =>
    t.get (F.DSF_CFG_SRC n.val) = src.val ∧ t.dsf = s.dsf := by
  have hexec : exec (.dsfSrcChange d n src) s = s.ends (s.cfgStored n.val ((F.DSF_CFG_SRC n.val).into src.val (s.dcfg n.val))) :=
    congrArg s.ends (dsfCfgWrite_stores hd hon (srcWord_en src) fun h => absurd h (by rw [hoff]; decide))
  refine Completes.of_ends hexec (fun _ _ h => h) ⟨?_, rfl⟩
  rw [cfgStored_src, srcWord_src]

end

/-! DSF_ENSET_WRITE (R172). -/

theorem passes_dsfEnset {d : Dom} (hd : d = .host ∨ d = .svc) : passes d R.DSF_ENSET 12 = true := by
  rcases hd with rfl | rfl <;> decide

/-- What a write of DSF_ENSET does with one channel: it starts a named one that is off. -/
def State.ensetChannel (v : Word) (t : State) (n : Nat) : State :=
  if v.getLsbD n && !t.flag (F.DSF_CFG_EN n) then (t.setFlag (F.DSF_CFG_EN n) true).dsfStart n else t

theorem onlyChannel_ensetChannel (v : Word) (t : State) (n : Nat) : OnlyChannel n t (t.ensetChannel v n) :=
  onlyChannel_ite (((OnlyChannel.refl t).setFlag (channelReg_cfg n)).trans (onlyChannel_dsfStart _ n)) (OnlyChannel.refl t)

theorem dsfEnsetWrite_eq {s : State} {d : Dom} (hd : d = .host ∨ d = .svc) (hon : s.domOn 12 = true) (v : Word) :
    (dsfEnsetWrite s d v).1 = (List.range 24).foldl (State.ensetChannel v) s := by
  rw [dsfEnsetWrite, writeGuard_pass s _ (passes_dsfEnset hd) hon]
  rfl

theorem ioEdge_congr {s t : State} (h : t.time = s.time) : t.ioEdge (2 * t.now) 100 = s.ioEdge (2 * s.now) 100 := by
  simp only [State.ioEdge, State.now, h]

theorem ensetChannel_starts {v : Word} {t : State} {n : Nat} (hoff : t.flag (F.DSF_CFG_EN n) = false) (hv : v.getLsbD n = true) :
    t.ensetChannel v n = (t.setFlag (F.DSF_CFG_EN n) true).dsfStart n := by
  rw [State.ensetChannel, hoff, hv]
  rfl

theorem ensetChannel_leaves {v : Word} {t : State} {n : Nat} (h : t.flag (F.DSF_CFG_EN n) = true ∨ v.getLsbD n = false) :
    t.ensetChannel v n = t := by
  refine if_neg ?_
  rcases h with h | h <;> rw [h] <;> simp

/-- A named channel that was off is started on the common edge. -/
theorem ensetChannel_restarted {v : Word} {t : State} {n : Nat} (hoff : t.flag (F.DSF_CFG_EN n) = false) (hv : v.getLsbD n = true) :
    Restarted (t.get (F.DSF_PROOF_SETTLE n)) (t.get (F.DSF_DELAY_DELAY n)) n (t.ioEdge (2 * t.now) 100) (t.ensetChannel v n) := by
  have h := dsfStart_restarted (t.setFlag (F.DSF_CFG_EN n) true) n
  rw [get_setFlag_of_apart (Or.inl (by simp [F.DSF_PROOF_SETTLE, F.DSF_CFG_EN, R.DSF_PROOF, R.DSF_CFG])),
    get_setFlag_of_apart (Or.inl (by simp [F.DSF_DELAY_DELAY, F.DSF_CFG_EN, R.DSF_DELAY, R.DSF_CFG])),
    ioEdge_congr (State.setFlag_time t _ true)] at h
  rw [ensetChannel_starts hoff hv]
  exact h

theorem ensetChannel_en (v : Word) (t : State) (n : Nat) :
    (t.ensetChannel v n).flag (F.DSF_CFG_EN n) = (t.flag (F.DSF_CFG_EN n) || v.getLsbD n) := by
  cases hen : t.flag (F.DSF_CFG_EN n) with
  | true => rw [ensetChannel_leaves (Or.inl hen), hen, Bool.true_or]
  | false =>
    cases hv : v.getLsbD n with
    | false => rw [ensetChannel_leaves (Or.inr hv), hen, Bool.or_false]
    | true => rw [ensetChannel_starts hen hv, dsfStart_en, State.flag_setFlag _ _ _ (by simp [F.DSF_CFG_EN]) rfl, Bool.or_true]

theorem dsfEnsetWrite_completes {s : State} {d : Dom} (hd : d = .host ∨ d = .svc) (hon : s.domOn 12 = true) (v : Word) :
    Completes (.dsfEnsetWrite d v) s fun t => ∀ k : Fin 24,
      t.flag (F.DSF_CFG_EN k.val) = (s.flag (F.DSF_CFG_EN k.val) || v.getLsbD k.val)
      ∧ (s.flag (F.DSF_CFG_EN k.val) = false → v.getLsbD k.val = true →
          Restarted (s.get (F.DSF_PROOF_SETTLE k.val)) (s.get (F.DSF_DELAY_DELAY k.val)) k.val (s.ioEdge (2 * s.now) 100) t)
      ∧ (s.flag (F.DSF_CFG_EN k.val) = true ∨ v.getLsbD k.val = false → t.ch k.val = s.ch k.val) := by
  refine Completes.of_ends (congrArg s.ends (dsfEnsetWrite_eq hd hon v)) (fun _ _ h => h) fun k => ?_
  obtain ⟨u, htime, hbefore, hafter⟩ := sameChannel_allChannels (onlyChannel_ensetChannel v) k.isLt s
  have hen : u.flag (F.DSF_CFG_EN k.val) = s.flag (F.DSF_CFG_EN k.val) := hbefore.flag (channelReg_cfg k.val)
  have hsettle : u.get (F.DSF_PROOF_SETTLE k.val) = s.get (F.DSF_PROOF_SETTLE k.val) := hbefore.get (channelReg_proof k.val)
  have hdelay : u.get (F.DSF_DELAY_DELAY k.val) = s.get (F.DSF_DELAY_DELAY k.val) := hbefore.get (channelReg_delay k.val)
  refine ⟨?_, fun hoff hv => ?_, fun h => ?_⟩
  · rw [hafter.flag (channelReg_cfg k.val), ensetChannel_en, hen]
  · have hrestarted := ensetChannel_restarted (hen.trans hoff) hv
    rw [hsettle, hdelay, ioEdge_congr htime] at hrestarted
    exact hrestarted.alike hafter.proofsAlike
  · rw [hafter.ch, ensetChannel_leaves (hen.symm ▸ h), hbefore.ch]

end Sys2Proof.Machine
end

section
/-!
PROOFS of the family 10_field_filters, SYNC and its sources (O30; R173, R177).
-/
namespace Sys2Proof.Machine

/-! A SYNC reset. -/

/-- What a SYNC reset does with one channel: an enabled one ends its swap and restarts from the edge, aligned. -/
def State.syncChannel (edge : Nat) (t : State) (n : Nat) : State :=
  if t.flag (F.DSF_CFG_EN n) then (((t.endSwap n).dsfRestart n edge).proofAll n).setFlag (F.DSF_STAT_ALIGNED n) true else t

/-- A SYNC reset counted, before the channels are reset. -/
def State.syncCounted (s : State) (edge : Nat) : State := { s.bump F.DSF_SYNC_CTRL_SYNC_CNT with syncEdge := some edge }

theorem syncReset_of_spent {s : State} {edge : Nat} (h : s.syncEdge = some edge) : s.syncReset edge = s := if_pos h

theorem syncReset_of_new {s : State} {edge : Nat} (h : s.syncEdge ≠ some edge) :
    s.syncReset edge = (List.range 24).foldl (State.syncChannel edge) (s.syncCounted edge) := if_neg h

section
variable (edge : Nat) (t : State) (n : Nat)

theorem onlyChannel_syncChannel : OnlyChannel n t (t.syncChannel edge n) :=
  onlyChannel_ite (((onlyChannel_endSwap t n).trans (onlyChannel_restart _ n edge)).setFlag (channelReg_stat n)) (OnlyChannel.refl t)

variable {edge t n}

theorem syncChannel_off (hoff : t.flag (F.DSF_CFG_EN n) = false) : t.syncChannel edge n = t := by
  rw [State.syncChannel, hoff]
  rfl

theorem syncChannel_on (hrun : t.flag (F.DSF_CFG_EN n) = true) :
    t.syncChannel edge n = (((t.endSwap n).dsfRestart n edge).proofAll n).setFlag (F.DSF_STAT_ALIGNED n) true := by
  rw [State.syncChannel, hrun]
  rfl

theorem syncChannel_restarted (hrun : t.flag (F.DSF_CFG_EN n) = true) :
    Restarted (t.get (F.DSF_PROOF_SETTLE n)) (t.get (F.DSF_DELAY_DELAY n)) n edge (t.syncChannel edge n) := by
  have hsettle : (t.endSwap n).get (F.DSF_PROOF_SETTLE n) = t.get (F.DSF_PROOF_SETTLE n) :=
    State.get_congr (endSwap_word t n (by simp [F.DSF_PROOF_SETTLE, R.DSF_PROOF, R.DSF_BANKSTAT])
      (by simp [F.DSF_PROOF_SETTLE, R.DSF_PROOF, R.DSF_CNT]))
  have hdelay : (t.endSwap n).get (F.DSF_DELAY_DELAY n) = t.get (F.DSF_DELAY_DELAY n) :=
    State.get_congr (endSwap_word t n (by simp [F.DSF_DELAY_DELAY, R.DSF_DELAY, R.DSF_BANKSTAT])
      (by simp [F.DSF_DELAY_DELAY, R.DSF_DELAY, R.DSF_CNT]))
  rw [syncChannel_on hrun, ← hsettle, ← hdelay]
  exact (dsfRestart_proofAll_restarted (t.endSwap n) n edge).alike (proofsAlike_setAligned _ n true)

theorem syncChannel_aligned (hrun : t.flag (F.DSF_CFG_EN n) = true) : (t.syncChannel edge n).flag (F.DSF_STAT_ALIGNED n) = true := by
  rw [syncChannel_on hrun, State.flag_setFlag _ _ _ (by simp [F.DSF_STAT_ALIGNED]) rfl]

theorem syncChannel_phase (hrun : t.flag (F.DSF_CFG_EN n) = true) : (t.syncChannel edge n).get (F.DSF_BANKSTAT_PHASE n) = 0 := by
  have haddr : (F.DSF_BANKSTAT_PHASE n).addr ≠ R.DSF_STAT n := by simp [F.DSF_BANKSTAT_PHASE, R.DSF_BANKSTAT, R.DSF_STAT]
  rw [syncChannel_on hrun, get_setFlag_of_apart (Or.inl haddr), ← endSwap_phase t n, ← dsfRestart_get (t.endSwap n) n edge,
    State.proofAll]
  exact State.get_congr (unproof_word _ n _ haddr)

end

/-- A SYNC reset of what s shows: it counts, and every enabled channel is aligned and restarted from the edge with no swap. -/
def Synced (s : State) (edge : Nat) (t : State) : Prop :=
  t.get F.DSF_SYNC_CTRL_SYNC_CNT = min (2 ^ F.DSF_SYNC_CTRL_SYNC_CNT.w - 1) (s.get F.DSF_SYNC_CTRL_SYNC_CNT + 1)
  ∧ ∀ k : Fin 24,
    (s.flag (F.DSF_CFG_EN k.val) = true → t.flag (F.DSF_STAT_ALIGNED k.val) = true
      ∧ Restarted (s.get (F.DSF_PROOF_SETTLE k.val)) (s.get (F.DSF_DELAY_DELAY k.val)) k.val edge t
      ∧ t.get (F.DSF_BANKSTAT_PHASE k.val) = 0)
    ∧ (s.flag (F.DSF_CFG_EN k.val) = false → t.ch k.val = s.ch k.val)

section
variable {s t : State} {edge : Nat}

theorem syncReset_word (hnew : s.syncEdge ≠ some edge) {a : Nat} (ha : 0x400D0C00 ≤ a) :
    (s.syncReset edge).word a = (s.bump F.DSF_SYNC_CTRL_SYNC_CNT).word a := by
  rw [syncReset_of_new hnew, allChannels_word (onlyChannel_syncChannel edge) ha]
  rfl

theorem syncReset_get (hnew : s.syncEdge ≠ some edge) {f : Fld} (hf : f.addr = R.DSF_SYNC_CTRL) :
    (s.syncReset edge).get f = (s.bump F.DSF_SYNC_CTRL_SYNC_CNT).get f :=
  State.get_congr (syncReset_word hnew (by rw [hf]; decide))

theorem syncReset_armed (hnew : s.syncEdge ≠ some edge) :
    (s.syncReset edge).flag F.DSF_SYNC_CTRL_ARMED = s.flag F.DSF_SYNC_CTRL_ARMED :=
  congrArg (· != 0) ((syncReset_get hnew rfl).trans (get_bump_of_apart (apart_above (by decide)) s))

theorem syncReset_now (hnew : s.syncEdge ≠ some edge) : (s.syncReset edge).now = s.now := by
  have htime : (s.syncReset edge).time = s.time := by
    rw [syncReset_of_new hnew, foldl_time (onlyChannel_syncChannel edge)]
    rfl
  rw [State.now, htime, State.now]

theorem sameChannel_syncCounted {k : Nat} (hk : k < 24) : SameChannel k s (s.syncCounted edge) where
  word a ha := by
    have haddr : a ≠ F.DSF_SYNC_CTRL_SYNC_CNT.addr := by
      simp only [ChannelReg, R.DSF_CFG, F.DSF_SYNC_CTRL_SYNC_CNT, R.DSF_SYNC_CTRL] at *
      omega
    exact State.word_set_ne s _ _ haddr
  ch := rfl

/-- A SYNC reset of a state that shows what s does of the channels and of SYNC_CNT. -/
theorem syncReset_synced (hsame : ∀ k < 24, SameChannel k s t)
    (hcnt : t.get F.DSF_SYNC_CTRL_SYNC_CNT = s.get F.DSF_SYNC_CTRL_SYNC_CNT) (hnew : t.syncEdge ≠ some edge) :
    Synced s edge (t.syncReset edge) := by
  refine ⟨?_, fun k => ?_⟩
  · rw [syncReset_get hnew rfl, State.get_bump _ _ (by decide), hcnt]
  · obtain ⟨u, _, hbefore, hafter⟩ := sameChannel_allChannels (onlyChannel_syncChannel edge) k.isLt (t.syncCounted edge)
    rw [← syncReset_of_new hnew] at hafter
    have hshown := ((hsame k.val k.isLt).trans (sameChannel_syncCounted k.isLt)).trans hbefore
    have hen : u.flag (F.DSF_CFG_EN k.val) = s.flag (F.DSF_CFG_EN k.val) := hshown.flag (channelReg_cfg k.val)
    have hsettle : u.get (F.DSF_PROOF_SETTLE k.val) = s.get (F.DSF_PROOF_SETTLE k.val) := hshown.get (channelReg_proof k.val)
    have hdelay : u.get (F.DSF_DELAY_DELAY k.val) = s.get (F.DSF_DELAY_DELAY k.val) := hshown.get (channelReg_delay k.val)
    refine ⟨fun hrun => ⟨?_, ?_, ?_⟩, fun hoff => ?_⟩
    · rw [hafter.flag (channelReg_stat k.val), syncChannel_aligned (hen.trans hrun)]
    · rw [← hsettle, ← hdelay]
      exact (syncChannel_restarted (hen.trans hrun)).alike hafter.proofsAlike
    · rw [hafter.get (channelReg_bankstat k.val), syncChannel_phase (hen.trans hrun)]
    · rw [hafter.ch, syncChannel_off (hen.trans hoff), hshown.ch]

/-- Clearing ARMED is no channel's concern. -/
theorem sameChannel_disarmed (k : Nat) (hk : k < 24) : SameChannel k s (s.setFlag F.DSF_SYNC_CTRL_ARMED false) where
  word a ha := by
    have haddr : a ≠ F.DSF_SYNC_CTRL_ARMED.addr := by
      simp only [ChannelReg, R.DSF_CFG, F.DSF_SYNC_CTRL_ARMED, R.DSF_SYNC_CTRL] at *
      omega
    exact State.word_setFlag_ne s _ _ haddr
  ch := rfl

theorem disarmed_count : (s.setFlag F.DSF_SYNC_CTRL_ARMED false).get F.DSF_SYNC_CTRL_SYNC_CNT = s.get F.DSF_SYNC_CTRL_SYNC_CNT :=
  get_setFlag_of_apart (apart_below (by decide)) s false

end

/-! SYNC_BALL_EDGE. -/

/-- An armed time of the edge is spent in it. -/
def State.armSpent (s : State) (edge : Nat) : State :=
  if s.flag F.DSF_SYNC_CTRL_ARMED && s.syncAtEdge == edge then s.setFlag F.DSF_SYNC_CTRL_ARMED false else s

section
variable {s : State} (hon : s.domOn 12 = true)

theorem armSpent_cases (s : State) (edge : Nat) :
    s.armSpent edge = s.setFlag F.DSF_SYNC_CTRL_ARMED false ∧ (s.flag F.DSF_SYNC_CTRL_ARMED && s.syncAtEdge == edge) = true
    ∨ s.armSpent edge = s ∧ (s.flag F.DSF_SYNC_CTRL_ARMED && s.syncAtEdge == edge) = false := by
  unfold State.armSpent
  split
  · next h => exact Or.inl ⟨rfl, h⟩
  · next h => exact Or.inr ⟨rfl, Bool.eq_false_iff.2 h⟩

theorem armSpent_same (s : State) (edge k : Nat) (hk : k < 24) : SameChannel k s (s.armSpent edge) := by
  rcases armSpent_cases s edge with ⟨h, _⟩ | ⟨h, _⟩ <;> rw [h]
  · exact sameChannel_disarmed k hk
  · exact SameChannel.refl s

theorem armSpent_count (s : State) (edge : Nat) :
    (s.armSpent edge).get F.DSF_SYNC_CTRL_SYNC_CNT = s.get F.DSF_SYNC_CTRL_SYNC_CNT := by
  rcases armSpent_cases s edge with ⟨h, _⟩ | ⟨h, _⟩ <;> rw [h]
  exact disarmed_count

theorem armSpent_armed (s : State) (edge : Nat) :
    (s.armSpent edge).flag F.DSF_SYNC_CTRL_ARMED = (s.flag F.DSF_SYNC_CTRL_ARMED && s.syncAtEdge != edge) := by
  rcases armSpent_cases s edge with ⟨h, hspent⟩ | ⟨h, hspent⟩ <;> rw [h]
  · obtain ⟨_, hedge⟩ := Bool.and_eq_true_iff.1 hspent
    rw [State.flag_setFlag _ _ _ (by decide) rfl, bne, hedge, Bool.not_true, Bool.and_false]
  · cases harmed : s.flag F.DSF_SYNC_CTRL_ARMED with
    | false => rfl
    | true =>
      rw [harmed, Bool.true_and] at hspent
      rw [bne, hspent]
      rfl

theorem armSpent_rest (s : State) (edge : Nat) :
    (s.armSpent edge).syncEdge = s.syncEdge ∧ (s.armSpent edge).now = s.now ∧ (s.armSpent edge).dsf = s.dsf := by
  rcases armSpent_cases s edge with ⟨h, _⟩ | ⟨h, _⟩ <;> rw [h]
  · exact ⟨rfl, rfl, rfl⟩
  · exact ⟨rfl, rfl, rfl⟩

include hon

theorem execSyncBallEdge_eq (hball : s.flag F.DSF_SYNC_CTRL_BALL_EN = true) : exec .syncBallEdge s =
    s.ends ((s.armSpent (s.ioEdge (2 * s.now) 25)).syncReset (s.ioEdge (2 * s.now) 25)) := by
  refine congrArg s.ends (if_pos ?_)
  rw [hon, hball]
  rfl

theorem syncBallEdge_resets (hball : s.flag F.DSF_SYNC_CTRL_BALL_EN = true) (hnew : s.syncEdge ≠ some (s.ioEdge (2 * s.now) 25)) :
    Completes .syncBallEdge s fun t => Synced s (s.ioEdge (2 * s.now) 25) t ∧ t.now = s.now
      ∧ t.flag F.DSF_SYNC_CTRL_ARMED = (s.flag F.DSF_SYNC_CTRL_ARMED && s.syncAtEdge != s.ioEdge (2 * s.now) 25) := by
  obtain ⟨hedge, hnow, _⟩ := armSpent_rest s (s.ioEdge (2 * s.now) 25)
  refine Completes.of_ends (execSyncBallEdge_eq hon hball) (fun _ _ h => h) ⟨?_, ?_, ?_⟩
  · exact syncReset_synced (armSpent_same s _) (armSpent_count s _) (hedge.symm ▸ hnew)
  · rw [syncReset_now (hedge.symm ▸ hnew), hnow]
  · rw [syncReset_armed (hedge.symm ▸ hnew), armSpent_armed]

theorem syncBallEdge_again (hball : s.flag F.DSF_SYNC_CTRL_BALL_EN = true) (hused : s.syncEdge = some (s.ioEdge (2 * s.now) 25)) :
    Completes .syncBallEdge s fun t => t.dsf = s.dsf ∧ t.get F.DSF_SYNC_CTRL_SYNC_CNT = s.get F.DSF_SYNC_CTRL_SYNC_CNT := by
  obtain ⟨hedge, _, hdsf⟩ := armSpent_rest s (s.ioEdge (2 * s.now) 25)
  have hexec := execSyncBallEdge_eq hon hball
  rw [syncReset_of_spent (hedge.trans hused)] at hexec
  exact Completes.of_ends hexec (fun _ _ h => h) ⟨hdsf, armSpent_count s _⟩

/-! SYNC_AT_REACHED. -/

theorem syncAtReached_resets (harmed : s.flag F.DSF_SYNC_CTRL_ARMED = true) (hinst : s.now + (sdiff s.syncAt s.stamp).toNat < 2 ^ 64)
    (hnew : s.syncEdge ≠ some s.syncAtEdge) : Completes .syncAtReached s fun t => Synced s s.syncAtEdge t
      ∧ t.now = s.reached (s.now + (sdiff s.syncAt s.stamp).toNat) ∧ t.flag F.DSF_SYNC_CTRL_ARMED = false := by
  have hpast : ∀ k, k ≤ s.now → s.advanceTo k = s := fun k hk => if_pos (by simp [hk])
  have hadvance : (if 0 < sdiff s.syncAt s.stamp then s.advanceBy (sdiff s.syncAt s.stamp).toNat else s)
      = s.advanceTo (s.now + (sdiff s.syncAt s.stamp).toNat) := by
    split
    · rfl
    · rw [hpast _ (by omega)]
  generalize s.now + (sdiff s.syncAt s.stamp).toNat = inst at hadvance hinst ⊢
  have hexec : exec .syncAtReached s = s.ends (((s.advanceTo inst).setFlag F.DSF_SYNC_CTRL_ARMED false).syncReset s.syncAtEdge) := by
    rw [← hadvance]
    refine congrArg s.ends (if_pos ?_)
    rw [hon, harmed]
    rfl
  have hsame : ∀ k < 24, SameChannel k s (s.advanceTo inst) := fun k hk => by
    refine ⟨fun a ha => State.advanceTo_word s inst ?_, State.advanceTo_ch s inst k⟩
    simp only [ChannelReg, R.DSF_CFG, Book] at *
    omega
  have hcnt : (s.advanceTo inst).get F.DSF_SYNC_CTRL_SYNC_CNT = s.get F.DSF_SYNC_CTRL_SYNC_CNT :=
    State.advanceTo_get s inst (by simp [Book, F.DSF_SYNC_CTRL_SYNC_CNT, R.DSF_SYNC_CTRL])
  have hedge : ((s.advanceTo inst).setFlag F.DSF_SYNC_CTRL_ARMED false).syncEdge ≠ some s.syncAtEdge := by
    rw [State.setFlag_syncEdge, State.advanceTo_syncEdge]
    exact hnew
  refine Completes.of_ends hexec (fun _ _ h => h) ⟨?_, ?_, ?_⟩
  · exact syncReset_synced (fun k hk => (hsame k hk).trans (sameChannel_disarmed k hk)) (disarmed_count.trans hcnt) hedge
  · rw [syncReset_now hedge, State.setFlag_now, now_advanceTo s inst hinst]
  · rw [syncReset_armed hedge, State.flag_setFlag _ _ _ (by decide) rfl]

end

/-! SYNC_ARM. -/

/-- DSF_SYNC_CTRL's row of the register map: BALL_EN is written, ARM_LATE cleared by a 1. -/
def syncCtrlRow : RegDesc := ⟨0x400DF100, [], 3, 3, 12, 0, 1, 8, 0xFFFF0000, 2, 0, 0, 0, 0⟩

theorem regDesc_syncCtrl : regDesc R.DSF_SYNC_CTRL = some syncCtrlRow := by decide

theorem passes_syncCtrl {d : Dom} (hd : d = .host ∨ d = .svc) : passes d R.DSF_SYNC_CTRL 12 = true := by
  rcases hd with rfl | rfl <;> decide

/-- Arming writes BALL_EN as it stands and clears nothing. -/
theorem writtenWord_arm {d : Dom} (hd : d = .host ∨ d = .svc) (old : Word) :
    writtenWord syncCtrlRow d old ((old &&& 1#32) ||| 2#32) = old := by
  have hstored : ((old &&& ~~~ 1#32) ||| (((old &&& 1#32) ||| 2#32) &&& 1#32)) &&& ~~~ (((old &&& 1#32) ||| 2#32) &&& 8#32) = old := by
    refine BitVec.eq_of_getLsbD_eq fun i hi => ?_
    have hbit : ∀ j < 32, ∀ b : Bool, (((b && !(1#32).getLsbD j) || (((b && (1#32).getLsbD j) || (2#32).getLsbD j) && (1#32).getLsbD j))
        && !(((b && (1#32).getLsbD j) || (2#32).getLsbD j) && (8#32).getLsbD j)) = b := by decide
    simp only [BitVec.getLsbD_or, BitVec.getLsbD_and, BitVec.getLsbD_not, hi, decide_true, Bool.true_and]
    exact hbit i hi _
  rcases hd with rfl | rfl <;> exact hstored

section
variable {s : State} {d : Dom} (hd : d = .host ∨ d = .svc) (hon : s.domOn 12 = true)
include hd hon

/-- DSF_SYNC_CTRL stored as it stands. -/
theorem execSyncArm_eq : exec (.syncArm d) s = s.ends (if sdiff s.syncAt s.stamp ≤ 0
    then (s.setWord R.DSF_SYNC_CTRL (s.word R.DSF_SYNC_CTRL)).setFlag F.DSF_SYNC_CTRL_ARM_LATE true
    else (s.setWord R.DSF_SYNC_CTRL (s.word R.DSF_SYNC_CTRL)).setFlag F.DSF_SYNC_CTRL_ARMED true) := by
  have hplain := plainWrite_pass s ((s.word R.DSF_SYNC_CTRL &&& 1#32) ||| 2#32) regDesc_syncCtrl (passes_syncCtrl hd) hon
  rw [writtenWord_arm hd] at hplain
  have harm : ((s.word R.DSF_SYNC_CTRL &&& 1#32) ||| 2#32).getLsbD 1 = true := by
    rw [BitVec.getLsbD_or]
    exact Bool.or_true _
  have hat : (s.setWord R.DSF_SYNC_CTRL (s.word R.DSF_SYNC_CTRL)).syncAt = s.syncAt := by
    rw [State.syncAt, State.word_setWord_ne _ (by decide), State.word_setWord_ne _ (by decide), State.syncAt]
  have hstamp : (s.setWord R.DSF_SYNC_CTRL (s.word R.DSF_SYNC_CTRL)).stamp = s.stamp := rfl
  refine congrArg s.ends ?_
  rw [syncCtrlWrite, hplain]
  simp only [harm, hat, hstamp, decide_true, Bool.and_self, if_true, apply_ite Prod.fst]

theorem syncArm_arms (hahead : 0 < sdiff s.syncAt s.stamp) : Completes (.syncArm d) s fun t =>
    t.flag F.DSF_SYNC_CTRL_ARMED = true ∧ t.dsf = s.dsf := by
  have hexec := execSyncArm_eq hd hon
  rw [if_neg (not_le.2 hahead)] at hexec
  exact Completes.of_ends hexec (fun _ _ h => h) ⟨State.flag_setFlag _ _ _ (by decide) rfl, rfl⟩

theorem syncArm_late (hlate : sdiff s.syncAt s.stamp ≤ 0) : Completes (.syncArm d) s fun t =>
    t.flag F.DSF_SYNC_CTRL_ARM_LATE = true ∧ t.flag F.DSF_SYNC_CTRL_ARMED = s.flag F.DSF_SYNC_CTRL_ARMED ∧ t.dsf = s.dsf := by
  have hexec := execSyncArm_eq hd hon
  rw [if_pos hlate] at hexec
  refine Completes.of_ends hexec (fun _ _ h => h) ⟨State.flag_setFlag _ _ _ (by decide) rfl, ?_, rfl⟩
  rw [flag_setFlag_of_apart (apart_above (by decide))]
  exact congrArg (· != 0) (State.get_congr (State.word_setWord_same s _ _))

end

end Sys2Proof.Machine
end

section
/-!
PROOFS of the family 10_field_filters, the banks, the data line and the stamp read (O30; R167, R168, R174 to R176).
-/
namespace Sys2Proof.Machine

/-! BANK_REQUEST (R175, R176). -/

theorem passes_bankreq {d : Dom} (hd : d = .host ∨ d = .svc) (n : Fin 24) : passes d (R.DSF_BANKREQ n.val) 12 = true := by
  rcases hd with rfl | rfl
  · exact (by decide : ∀ n : Fin 24, passes .host (R.DSF_BANKREQ n.val) 12 = true) n
  · exact (by decide : ∀ n : Fin 24, passes .svc (R.DSF_BANKREQ n.val) 12 = true) n

/-- A word's low bit is the bank it asks for. -/
theorem bankWord_getLsbD (bank : Bool) : (if bank then 1#32 else 0#32).getLsbD 0 = bank := by cases bank <;> rfl

/-- A replaced request is counted where one was queued. -/
theorem queueCounted_qrepl (s : State) (n : Nat) : (s.queueCounted n).get (F.DSF_CNT_QREPL n) =
    if s.flag (F.DSF_BANKSTAT_QVALID n) then min (2 ^ (F.DSF_CNT_QREPL n).w - 1) (s.get (F.DSF_CNT_QREPL n) + 1)
    else s.get (F.DSF_CNT_QREPL n) := by
  unfold State.queueCounted
  split
  · exact State.get_bump s _ (by simp [F.DSF_CNT_QREPL])
  · rfl

theorem queueCounted_dsf (s : State) (n : Nat) : (s.queueCounted n).dsf = s.dsf := by
  unfold State.queueCounted
  split
  · exact State.bump_dsf s _
  · rfl

section
variable {s : State} {d : Dom} (hd : d = .host ∨ d = .svc) (hon : s.domOn 12 = true) (n : Fin 24) (bank : Bool)
include hd hon

theorem bankReqWrite_eq : (bankReqWrite s d n.val (if bank then 1#32 else 0#32)).1 =
    if s.get (F.DSF_BANKSTAT_PHASE n.val) = 0 then s.modDsf n.val fun c => { c with req := some bank }
    else ((s.queueCounted n.val).setFlag (F.DSF_BANKSTAT_QVALID n.val) true).setFlag (F.DSF_BANKSTAT_QBANK n.val) bank := by
  rw [bankReqWrite, writeGuard_pass s _ (passes_bankreq hd n) hon, bankWord_getLsbD]
  simp only [apply_ite Prod.fst]
  rfl

theorem bankRequest_waits (hidle : s.get (F.DSF_BANKSTAT_PHASE n.val) = 0) : Completes (.bankRequest d n bank) s fun t =>
    t.ch n.val = { s.ch n.val with req := some bank } ∧ t.regs = s.regs := by
  have hwrite := bankReqWrite_eq hd hon n bank
  rw [if_pos hidle] at hwrite
  exact Completes.of_ends (congrArg s.ends hwrite) (fun _ _ h => h) ⟨State.ch_modDsf_same s _ _, rfl⟩

theorem bankRequest_queues (hswap : s.get (F.DSF_BANKSTAT_PHASE n.val) ≠ 0) : Completes (.bankRequest d n bank) s fun t =>
    t.flag (F.DSF_BANKSTAT_QVALID n.val) = true ∧ t.flag (F.DSF_BANKSTAT_QBANK n.val) = bank ∧ t.dsf = s.dsf
    ∧ t.get (F.DSF_CNT_QREPL n.val) = (if s.flag (F.DSF_BANKSTAT_QVALID n.val)
        then min (2 ^ (F.DSF_CNT_QREPL n.val).w - 1) (s.get (F.DSF_CNT_QREPL n.val) + 1) else s.get (F.DSF_CNT_QREPL n.val)) := by
  have hwrite := bankReqWrite_eq hd hon n bank
  rw [if_neg hswap] at hwrite
  have hcnt : (F.DSF_CNT_QREPL n.val).addr ≠ R.DSF_BANKSTAT n.val := by simp [F.DSF_CNT_QREPL, R.DSF_CNT, R.DSF_BANKSTAT]
  refine Completes.of_ends (congrArg s.ends hwrite) (fun _ _ h => h) ⟨?_, ?_, ?_, ?_⟩
  · rw [flag_setFlag_of_apart (apart_above (by simp [F.DSF_BANKSTAT_QVALID, F.DSF_BANKSTAT_QBANK])),
      State.flag_setFlag _ _ _ (by simp [F.DSF_BANKSTAT_QVALID]) rfl]
  · exact State.flag_setFlag _ _ _ (by simp [F.DSF_BANKSTAT_QBANK]) rfl
  · rw [State.setFlag_dsf, State.setFlag_dsf, queueCounted_dsf]
  · rw [get_setFlag_of_apart (Or.inl hcnt), get_setFlag_of_apart (Or.inl hcnt), queueCounted_qrepl]

end

/-! COEF_WRITE (R174). -/

theorem passes_coefData {d : Dom} (hd : d = .host ∨ d = .svc) : passes d R.DSF_COEF_DATA 12 = true := by
  rcases hd with rfl | rfl <;> decide

/-- A channel with a word loaded into a bank. -/
def Dsf.loaded (c : Dsf) (bank : Bool) (k : Nat) (v : Word) : Dsf :=
  if bank then { c with bankB := tblSet c.bankB k (v &&& 0xFFFFFF#32) } else { c with bankA := tblSet c.bankA k (v &&& 0xFFFFFF#32) }

theorem tblGet_tblSet (l : List (Nat × Word)) (k j : Nat) (v : Word) : tblGet (tblSet l k v) j = if j = k then v else tblGet l j :=
  mapGet_mapSet _ k j v l

/-- A coefficient is the low 24 bits of the word written. -/
theorem coefBits (v : Word) : ((v &&& 0xFFFFFF#32).truncate 24 : BitVec 24) = v.truncate 24 := by
  refine BitVec.eq_of_getLsbD_eq fun i hi => ?_
  have hmask : (0xFFFFFF#32).getLsbD i = true := (by decide : ∀ j < 24, (0xFFFFFF#32).getLsbD j = true) i hi
  simp only [BitVec.truncate_eq_setWidth, BitVec.getLsbD_setWidth, BitVec.getLsbD_and, hmask, Bool.and_true]

theorem loaded_coef (c : Dsf) (bank : Bool) (k : Nat) (v : Word) :
    (c.loaded bank k v).coef bank k = ((v.truncate 24 : BitVec 24)).toInt := by
  cases bank <;> simp only [Dsf.loaded, Dsf.coef, tblGet_tblSet, coefBits, if_true, Bool.false_eq_true, if_false]

theorem loaded_coef_other (c : Dsf) {bank b : Bool} {k j : Nat} (v : Word) (h : b ≠ bank ∨ j ≠ k) :
    (c.loaded bank k v).coef b j = c.coef b j := by
  by_cases hb : b = bank
  · subst hb
    have hj : j ≠ k := h.resolve_left (not_not.2 rfl)
    cases b <;> simp only [Dsf.loaded, Dsf.coef, tblGet_tblSet, hj, if_true, Bool.false_eq_true, if_false]
  · rw [Bool.eq_not_of_ne hb]
    cases bank <;> rfl

/-- The number of coefficients of the selected stage. -/
def State.coefTaps (s : State) : Nat :=
  if s.get F.DSF_COEF_SEL_STAGE = 0 then dsfNA (s.dcfg (s.get F.DSF_COEF_SEL_CH)) else dsfNB (s.dcfg (s.get F.DSF_COEF_SEL_CH))

/-- The index that an access moves on to. -/
def State.coefNext (s : State) : Nat :=
  if s.coefTaps ≤ s.get F.DSF_COEF_SEL_IDX + 1 then 0 else s.get F.DSF_COEF_SEL_IDX + 1

/-- No stage has more coefficients than IDX can name. -/
theorem coefTaps_le (s : State) : s.coefTaps ≤ 128 := by
  have hna : ∀ w, (F.DSF_CFG_NA 0).of w < 2 ^ 6 := fun _ => Nat.mod_lt _ (by decide)
  have hnb : ∀ w, (F.DSF_CFG_NB 0).of w < 2 ^ 7 := fun _ => Nat.mod_lt _ (by decide)
  unfold State.coefTaps dsfNA dsfNB
  split
  · have := hna (s.dcfg (s.get F.DSF_COEF_SEL_CH))
    dsimp only
    split <;> omega
  · have := hnb (s.dcfg (s.get F.DSF_COEF_SEL_CH))
    dsimp only
    split <;> omega

theorem get_coefNext (s t : State) : (t.set F.DSF_COEF_SEL_IDX s.coefNext).get F.DSF_COEF_SEL_IDX = s.coefNext := by
  rw [State.get_set _ _ _ (by decide)]
  refine Nat.mod_eq_of_lt ?_
  have hidx : s.coefTaps ≤ 2 ^ F.DSF_COEF_SEL_IDX.w := coefTaps_le s
  unfold State.coefNext
  split
  · exact Nat.two_pow_pos _
  · omega

section
variable {s : State} {d : Dom} (hd : d = .host ∨ d = .svc) (hon : s.domOn 12 = true) (v : Word)
include hd hon

theorem coefAccess_eq (hch : s.get F.DSF_COEF_SEL_CH < 24) : (coefAccess s (some (d, v))).1 =
    (if s.bankIdle (s.get F.DSF_COEF_SEL_CH) (s.flag F.DSF_COEF_SEL_BANK) then
      s.modDsf (s.get F.DSF_COEF_SEL_CH) fun c => c.loaded (s.flag F.DSF_COEF_SEL_BANK)
        (s.get F.DSF_COEF_SEL_IDX + 128 * s.get F.DSF_COEF_SEL_STAGE) v
    else s.bump (F.DSF_CNT_COEF_DISC (s.get F.DSF_COEF_SEL_CH))).set F.DSF_COEF_SEL_IDX s.coefNext := by
  rw [coefAccess]
  dsimp only
  rw [writeGuard_pass s _ (passes_coefData hd) hon, decide_eq_false (not_le.2 hch)]
  cases hidle : s.bankIdle (s.get F.DSF_COEF_SEL_CH) (s.flag F.DSF_COEF_SEL_BANK) <;> rfl

theorem coefWrite_loads (hch : s.get F.DSF_COEF_SEL_CH < 24)
    (hidle : s.bankIdle (s.get F.DSF_COEF_SEL_CH) (s.flag F.DSF_COEF_SEL_BANK) = true) : Completes (.coefWrite d v) s fun t =>
      t.get F.DSF_COEF_SEL_IDX = s.coefNext
      ∧ (t.ch (s.get F.DSF_COEF_SEL_CH)).coef (s.flag F.DSF_COEF_SEL_BANK)
          (s.get F.DSF_COEF_SEL_IDX + 128 * s.get F.DSF_COEF_SEL_STAGE) = ((v.truncate 24 : BitVec 24)).toInt
      ∧ ∀ b k, (b ≠ s.flag F.DSF_COEF_SEL_BANK ∨ k ≠ s.get F.DSF_COEF_SEL_IDX + 128 * s.get F.DSF_COEF_SEL_STAGE) →
          (t.ch (s.get F.DSF_COEF_SEL_CH)).coef b k = (s.ch (s.get F.DSF_COEF_SEL_CH)).coef b k := by
  have haccess := coefAccess_eq hd hon v hch
  rw [if_pos hidle] at haccess
  refine Completes.of_ends (congrArg s.ends haccess) (fun _ _ h => h) ⟨get_coefNext s _, ?_, fun b k hother => ?_⟩
  · rw [State.set_ch, State.ch_modDsf_same, loaded_coef]
  · rw [State.set_ch, State.ch_modDsf_same, loaded_coef_other _ _ hother]

theorem coefWrite_discards (hch : s.get F.DSF_COEF_SEL_CH < 24)
    (hbusy : s.bankIdle (s.get F.DSF_COEF_SEL_CH) (s.flag F.DSF_COEF_SEL_BANK) = false) : Completes (.coefWrite d v) s fun t =>
      t.get F.DSF_COEF_SEL_IDX = s.coefNext
      ∧ t.get (F.DSF_CNT_COEF_DISC (s.get F.DSF_COEF_SEL_CH)) = min (2 ^ (F.DSF_CNT_COEF_DISC (s.get F.DSF_COEF_SEL_CH)).w - 1)
          (s.get (F.DSF_CNT_COEF_DISC (s.get F.DSF_COEF_SEL_CH)) + 1)
      ∧ t.dsf = s.dsf := by
  have haccess := coefAccess_eq hd hon v hch
  rw [if_neg (Bool.eq_false_iff.1 hbusy)] at haccess
  have haddr : (F.DSF_CNT_COEF_DISC (s.get F.DSF_COEF_SEL_CH)).addr ≠ F.DSF_COEF_SEL_IDX.addr := by
    simp only [F.DSF_CNT_COEF_DISC, F.DSF_COEF_SEL_IDX, R.DSF_CNT, R.DSF_COEF_SEL]
    omega
  refine Completes.of_ends (congrArg s.ends haccess) (fun _ _ h => h) ⟨get_coefNext s _, ?_, rfl⟩
  rw [get_set_of_apart (Or.inl haddr), State.get_bump _ _ (by simp [F.DSF_CNT_COEF_DISC])]

end

/-! DATA_STUCK and DATA_ACTIVE (R168), DSF_TSL_READ (R167). -/

section
variable {s : State} (hon : s.domOn 12 = true) (n : Fin 24)
include hon

theorem dsfOn_of_en (hrun : s.flag (F.DSF_CFG_EN n.val) = true) : s.dsfOn n.val = true := by
  rw [State.dsfOn, hon, hrun]
  rfl

theorem dataStuck_unproofs (hrun : s.flag (F.DSF_CFG_EN n.val) = true) (hmoving : s.flag (F.DSF_STAT_STUCK n.val) = false)
    (hsrc : s.get (F.DSF_CFG_SRC n.val) ≠ 2) : Completes (.dataStuck n) s fun t =>
      t.flag (F.DSF_STAT_STUCK n.val) = true ∧ t.flag (F.DSF_STAT_PROOFED n.val) = false ∧ t.get (F.DSF_STAT_THR n.val) = 0
      ∧ t.get (F.DSF_STAT_PCOUNT n.val) = min 65535 (s.ch n.val).left ∧ (t.ch n.val).left = (s.ch n.val).left := by
  have hexec : exec (.dataStuck n) s =
      s.ends ((s.setFlag (F.DSF_STAT_STUCK n.val) true).unproof n.val (s.ch n.val).left) := by
    refine congrArg s.ends (if_pos ?_)
    rw [dsfOn_of_en hon n hrun, hmoving, decide_eq_true hsrc]
    rfl
  refine Completes.of_ends hexec (fun _ _ h => h)
    ⟨?_, unproof_proofed _ _ _, unproof_thr _ _ _, unproof_pcount _ _ _, by rw [unproof_ch]⟩
  rw [unproof_flag _ _ _ (by simp [F.DSF_STAT_STUCK]) (by simp [F.DSF_STAT_STUCK]),
    State.flag_setFlag _ _ _ (by simp [F.DSF_STAT_STUCK]) rfl]

theorem dataActive_proofs (hrun : s.flag (F.DSF_CFG_EN n.val) = true) (hstuck : s.flag (F.DSF_STAT_STUCK n.val) = true) :
    Completes (.dataActive n) s fun t =>
      t.flag (F.DSF_STAT_STUCK n.val) = false ∧ Proofing (s.get (F.DSF_PROOF_SETTLE n.val)) n.val t := by
  have hexec : exec (.dataActive n) s = s.ends (((s.setFlag (F.DSF_STAT_STUCK n.val) false).proofAll n.val).modDsf n.val
      fun c => { c with skip := 3 }) := by
    refine congrArg s.ends (if_pos ?_)
    rw [dsfOn_of_en hon n hrun, hstuck]
    rfl
  have hproofing := proofAll_settles (s.setFlag (F.DSF_STAT_STUCK n.val) false) n.val
  rw [get_setFlag_of_apart (Or.inl (by simp [F.DSF_PROOF_SETTLE, F.DSF_STAT_STUCK, R.DSF_PROOF, R.DSF_STAT]))] at hproofing
  refine Completes.of_ends hexec (fun _ _ h => h) ⟨?_, hproofing⟩
  rw [State.modDsf_flag, State.proofAll, unproof_flag _ _ _ (by simp [F.DSF_STAT_STUCK]) (by simp [F.DSF_STAT_STUCK]),
    State.flag_setFlag _ _ _ (by simp [F.DSF_STAT_STUCK]) rfl]

theorem dsfTslRead_latches : Completes (.dsfTslRead n) s fun t => t.get (F.DSF_TSH_TS_HI n.val) = (s.ch n.val).tsHi.toNat
    ∧ ∀ a, a ≠ R.DSF_TSH n.val → t.word a = s.word a := by
  have hexec : exec (.dsfTslRead n) s = s.ends (s.set (F.DSF_TSH_TS_HI n.val) (s.ch n.val).tsHi.toNat) :=
    congrArg s.ends (if_pos hon)
  refine Completes.of_ends hexec (fun _ _ h => h) ⟨?_, fun a ha => State.word_set_ne s _ _ ha⟩
  rw [State.get_set _ _ _ (by simp [F.DSF_TSH_TS_HI])]
  exact Nat.mod_eq_of_lt (s.ch n.val).tsHi.isLt

end

/-- Settles O30: one theorem per command, each of the state in which the command ends; SYNC's by one pass over the channels. -/
theorem filterControl : Obligations.FilterControl := by
  intro s n d v bank src hd hon
  exact ⟨dsfEnable_starts hd hon, dsfEnable_again hd hon, fun hrun hsrc => dsfSrcChange_restarts hd hon src hrun hsrc,
    dsfSrcChange_off hd hon src, dsfEnsetWrite_completes hd hon v, syncBallEdge_resets hon, syncBallEdge_again hon,
    syncArm_arms hd hon, syncArm_late hd hon, syncAtReached_resets hon, bankRequest_waits hd hon n bank, bankRequest_queues hd hon n bank,
    coefWrite_loads hd hon v, coefWrite_discards hd hon v, dataStuck_unproofs hon n, dataActive_proofs hon n, dsfTslRead_latches hon n⟩

end Sys2Proof.Machine
end

section
/-!
PROOFS of the family 10_field_filters, a channel's output sample (O31). The statement fails in its clause of the proofing count of an
unproofed channel, which asks that no request waits to be taken and leaves out one that is queued. A channel can be unproofed in FADE:
its data line was stuck and is active again (R168). At the sample that ends FADE the queued request is taken as a new one (R176), and
the count begins anew with FILL_AB and SETTLE (R168, R175).
-/
namespace Sys2Proof.Machine

/-- With every domain ON, channel 7 runs in the last sample of a fade from bank B to bank A, two samples short of being proofed; a
request for bank B is queued. -/
def fadeEndsUnproofed : State :=
  (((((domainsOn.setFlag (F.DSF_CFG_EN 7) true).set (F.DSF_BANKSTAT_PHASE 7) 2).setFlag (F.DSF_BANKSTAT_ACTIVE 7) true).setFlag
    (F.DSF_BANKSTAT_QVALID 7) true).setFlag (F.DSF_BANKSTAT_QBANK 7) true).modDsf 7 fun c => { c with fadeK := 31, left := 2 }

/-- The sample takes the queued request, and its priming count begins. -/
theorem fadeEndsUnproofed_left : Completes (.dsfOutputSample 7 [] []) fadeEndsUnproofed fun t =>
    (t.ch 7).left = dsfFillAB (fadeEndsUnproofed.dcfg 7) + fadeEndsUnproofed.get (F.DSF_PROOF_SETTLE 7) :=
  Completes.of rfl (by decide +kernel)

/-- What O31 says of that sample: the proofing count goes down by one. -/
theorem left_of_filterSamples (H : Obligations.FilterSamples) :
    Completes (.dsfOutputSample 7 [] []) fadeEndsUnproofed fun t => (t.ch 7).left = 1 := by
  obtain ⟨hsample, _⟩ := H fadeEndsUnproofed 7 [] [] (by decide) (by decide) (by decide)
  obtain ⟨t, ht, _, hcount, _⟩ := hsample
  exact ⟨t, ht, (hcount (by decide) (by decide) (by decide)).1⟩

/-- Refutes O31, in its clause of the proofing count: the sample that ends FADE takes the queued request, so an unproofed channel's
count does not go down by one but begins anew. -/
theorem not_filterSamples : ¬ Obligations.FilterSamples := by
  intro H
  obtain ⟨t, _, hmodel, hstated⟩ := fadeEndsUnproofed_left.and (left_of_filterSamples H)
  rw [hmodel] at hstated
  exact absurd hstated (by decide)

end Sys2Proof.Machine
end

section
/-!
PROOFS of the family 11_partner_pair, demotion (O34). The statement fails in its clause of HA_CTRL_DEMOTE, because it speaks of every
state, also of one whose solver fabric holds a job of no class of R112. JF_WAITMAX has one register a class, the model's class is any
number, and the longest wait of such a job is kept in whatever register lies at its place. Demotion stops the internal jobs after CRES
was written, and the end of that job may write over it.
-/
namespace Sys2Proof.Machine

/-- The number for which JF_WAITMAX would lie at HA_STAT. -/
def strayClass : Nat := (R.HA_STAT - R.JF_WAITMAX 0) / 4

theorem waitmax_strayClass : (F.JF_WAITMAX_MAX_NS strayClass).addr = R.HA_STAT := by decide

/-- An ACTIVE MASTER with NET ON, its partner in BIVOUAC with a usable checkpoint (so that DEMOTE is accepted). At 65,536 ns, HA_CTRL's
CRES being bit 16 of HA_STAT, a job of the tracker without a class waits since 0 ns. -/
def activeWithStrayJob : State :=
  let s := (domainsOn.setFlag F.SYS_PERSONA_MATCH true).set F.SYS_PERSONA_PERSONA 0
  let s := ((s.set F.HA_STAT_STATE 2).set F.HA_STAT_PSTATE 0).setFlag F.HA_STAT_PCKOK true
  (s.modTime fun t => { t with count := 65536 }).modJobs fun q =>
    { q with jobs := [{ internalJob 2 7 strayClass 0 0 none 1 none .empty with status := 1 }] }

/-- The demotion ends with the job's wait in HA_STAT, bit 16 set. -/
theorem activeWithStrayJob_cres :
    Completes (.haCtrlDemote .host 0x5AFE) activeWithStrayJob fun t => t.get F.HA_STAT_CRES = 1 :=
  Completes.of rfl (by decide +kernel)

/-- What O34 says of it: CRES is 0. -/
theorem cres_of_pairLinesAndCommands (H : Obligations.PairLinesAndCommands) :
    Completes (.haCtrlDemote .host 0x5AFE) activeWithStrayJob fun t => t.get F.HA_STAT_CRES = 0 := by
  obtain ⟨_, _, _, _, _, _, _, _, _, _, _, _, _, _, _, hdemote, _⟩ :=
    H activeWithStrayJob .host 0 false 0 0 (Or.inl rfl) (by decide) (by decide)
  obtain ⟨t, ht, _, _, hcres, _⟩ := hdemote (by decide) (by decide) (by decide)
  exact ⟨t, ht, hcres⟩

/-- Refutes O34, in its clause of an accepted HA_CTRL_DEMOTE: the end of a job of no class writes its wait over CRES. -/
theorem not_pairLinesAndCommands : ¬ Obligations.PairLinesAndCommands := by
  intro H
  obtain ⟨t, _, hmodel, hstated⟩ := activeWithStrayJob_cres.and (cres_of_pairLinesAndCommands H)
  rw [hstated] at hmodel
  exact absurd hmodel (by decide)

end Sys2Proof.Machine
end

section
/-!
PROOFS of the family 11_partner_pair, the seizure's frame and the frames it sends (O35): which registers and which parts of the state
its steps may change, device time standing still.
-/
namespace Sys2Proof.Machine

/-- Between two states only the bookkeeping, the registers of W and the parts of U change, beside memory and shadow words; device time
stands still. -/
structure Beside (W : Nat → Prop) (U : List Part) (s t : State) : Prop where
  word : ∀ a, ¬ Book a → ¬ W a → t.word a = s.word a
  part : ∀ u, u ∉ U → u ≠ .recd → u ≠ .ic → u ≠ .time → u.same s t
  now : t.now = s.now

section
variable {W V : Nat → Prop} {U X : List Part} {s t u : State}

theorem Beside.refl (s : State) : Beside W U s s := ⟨fun _ _ _ => rfl, fun p _ _ _ _ => by cases p <;> rfl, rfl⟩

theorem Beside.trans (p : Beside W U s t) (q : Beside W U t u) : Beside W U s u where
  word a hb hw := (q.word a hb hw).trans (p.word a hb hw)
  part v h1 h2 h3 h4 := v.same_trans (p.part v h1 h2 h3 h4) (q.part v h1 h2 h3 h4)
  now := q.now.trans p.now

theorem Beside.mono (p : Beside W U s t) (hW : ∀ a, W a → V a) (hU : U ⊆ X) : Beside V X s t where
  word a hb hv := p.word a hb fun hw => hv (hW a hw)
  part v h1 := p.part v fun hu => h1 (hU hu)
  now := p.now

theorem Beside.get (p : Beside W U s t) {f : Fld} (hb : ¬ Book f.addr) (hw : ¬ W f.addr) : t.get f = s.get f :=
  State.get_congr (p.word _ hb hw)

theorem Beside.flag (p : Beside W U s t) {f : Fld} (hb : ¬ Book f.addr) (hw : ¬ W f.addr) : t.flag f = s.flag f :=
  congrArg (· != 0) (p.get hb hw)

theorem Beside.same (p : Beside W U s t) (v : Part) (hv : v ∉ U) (hb : v ∉ [.recd, .ic, .time] := by decide) : v.same s t := by
  simp only [List.mem_cons, List.not_mem_nil, or_false, not_or] at hb
  exact p.part v hv hb.1 hb.2.1 hb.2.2

theorem Beside.ha (p : Beside W U s t) (h : Part.ha ∉ U := by decide) : t.ha = s.ha := p.same .ha h

theorem Beside.est (p : Beside W U s t) (h : Part.est ∉ U := by decide) : t.est = s.est := p.same .est h

theorem Beside.trk (p : Beside W U s t) (h : Part.trk ∉ U := by decide) : t.trk = s.trk := p.same .trk h

theorem Beside.alc (p : Beside W U s t) (h : Part.alc ∉ U := by decide) : t.alc = s.alc := p.same .alc h

/-! Where it comes from. -/

theorem Frame.beside {M : Nat → Prop} (p : Frame W M U s t) (hnow : t.now = s.now) : Beside W U s t :=
  ⟨p.word, fun v h1 h2 h3 _ => p.part v h1 h2 h3, hnow⟩

theorem Kept.beside (k : Kept s t) : Beside W U s t :=
  (k.frame W (fun _ => True) U).beside (by rw [k.rest]; rfl)

theorem beside_setWord (s : State) {a : Nat} (v : Word) (h : W a) : Beside W U s (s.setWord a v) :=
  (frame_setWord (M := fun _ => True) s a v h).beside rfl

theorem beside_set (s : State) {f : Fld} (v : Nat) (h : W f.addr) : Beside W U s (s.set f v) := beside_setWord s _ h

theorem beside_setFlag (s : State) {f : Fld} (b : Bool) (h : W f.addr) : Beside W U s (s.setFlag f b) := beside_setWord s _ h

theorem beside_bump (s : State) {f : Fld} (h : W f.addr) : Beside W U s (s.bump f) := beside_setWord s _ h

theorem beside_modHa (s : State) (f : Ha → Ha) (h : Part.ha ∈ U) : Beside W U s (s.modHa f) :=
  (frame_modHa (M := fun _ => True) s f h).beside rfl

theorem beside_modNet (s : State) (f : Net → Net) (h : Part.net ∈ U) : Beside W U s (s.modNet f) :=
  (frame_modNet (M := fun _ => True) s f h).beside rfl

theorem beside_modKz (s : State) (f : Kz → Kz) (h : Part.kz ∈ U) : Beside W U s (s.modKz f) :=
  (frame_modKz (M := fun _ => True) s f h).beside rfl

theorem beside_emit (s : State) (o : Output) (h : Part.out ∈ U) : Beside W U s (s.emit o) :=
  (frame_emit (M := fun _ => True) s o h).beside rfl

/-- Bytes of memory are none of its concern. -/
theorem beside_withMem (s : State) (m : Memory) : Beside W U s { s with mem := m } :=
  ⟨fun _ _ _ => rfl, fun v _ _ _ _ => by cases v <;> rfl, rfl⟩

theorem beside_ite {c : Prop} [Decidable c] (ht : c → Beside W U s t) (hu : ¬ c → Beside W U s u) :
    Beside W U s (if c then t else u) := by
  split
  · next h => exact ht h
  · next h => exact hu h

theorem beside_foldl {β : Type} {f : State → β → State} (l : List β) (hf : ∀ s, ∀ b ∈ l, Beside W U s (f s b)) (s : State) :
    Beside W U s (l.foldl f s) := by
  induction l generalizing s with
  | nil => exact Beside.refl s
  | cons b l ih => exact (hf s b (by simp)).trans (ih (fun t c hc => hf t c (by simp [hc])) (f s b))

end

/-! Frames leaving the ports (R250, R251, R258). -/

/-- The registers that sending frames writes: the counts of late launches, and of twin frames not sent. -/
def TxReg (a : Nat) : Prop := a = R.TWIN_CNT1 ∨ ∃ p < 5, a = R.TIME_LCNT p

theorem TxReg.bounds {a : Nat} (h : TxReg a) : 0x400700C4 ≤ a ∧ a < 0x400700D8 ∨ a = 0x4009000C := by
  rcases h with h | ⟨p, hp, h⟩
  · exact Or.inr h
  · simp only [R.TIME_LCNT] at h; omega

/-- Frames were queued, sent or dropped on the ports. -/
abbrev Sends (s t : State) : Prop := Beside TxReg [.net, .out] s t

theorem sends_modNet (s : State) (f : Net → Net) : Sends s (s.modNet f) := beside_modNet s f (by decide)

theorem sends_descDone (s : State) (e : TxEnt) (status : Nat) : Sends s (s.descDone e status) := by
  unfold State.descDone
  split
  · exact Beside.refl s
  · rw [State.st, storeBytes_eq]
    exact beside_withMem s _

theorem sends_noteEgress (s : State) (p t : Nat) (f : TxFill) : Sends s (s.noteEgress p t f) := by
  unfold State.noteEgress
  split
  all_goals exact ⟨fun _ _ _ => rfl, fun v _ _ _ h => by cases v <;> first | rfl | exact absurd rfl h, rfl⟩

/-- The earliest launch is that of the entry that leaves for it. -/
theorem launchAt_of_dueEnt {s : State} {p : Nat} {e : TxEnt} (h : s.dueEnt p = some e) : s.nextLaunch p = s.launchAt e := by
  unfold State.dueEnt at h
  split at h
  · exact absurd h (by simp)
  · next l hl =>
    rw [hl]
    exact (eq_of_beq (List.find?_some (p := fun e => s.launchAt e == some l) h)).symm

section
variable {p : Nat} (hp : p < 5)
include hp

theorem sends_leave (s : State) (t : Nat) (e : TxEnt) (status : Nat) : Sends s (s.leave p t e status) := by
  unfold State.leave
  extract_lets n s₁
  have h₁ : Sends s (s₁.pmu (72 + p)) := (sends_modNet s _).trans (kept_pmu s₁ _ (by omega)).beside
  have h₂ : Sends s ((s₁.pmu (72 + p)).emit (s₁.txOutput p t e)) := h₁.trans (beside_emit _ _ (by decide))
  exact (h₂.trans (sends_noteEgress _ p t e.fill)).trans (sends_descDone _ e status)

theorem sends_drain : ∀ (k : Nat) (s : State), Sends s (s.drain p k)
  | 0, s => Beside.refl s
  | k + 1, s => by
    unfold State.drain
    split
    · exact Beside.refl s
    · dsimp only
      split
      · exact ((sends_modNet s _).trans (sends_leave hp _ _ _ 1)).trans (sends_drain k _)
      · exact Beside.refl s

theorem sends_flush (s : State) : Sends s (s.flush p) := sends_drain hp _ s

theorem sends_queueTx (s : State) (e : TxEnt) : Sends s (s.queueTx p e) :=
  ((sends_flush hp s).trans (sends_modNet _ _)).trans (sends_flush hp _)

/-- A launch that is due lets no time pass. -/
theorem sends_launchOne {s : State} {l : Int} (hl : s.nextLaunch p = some l) (hdue : l ≤ s.now) : Sends s (s.launchOne p) := by
  unfold State.launchOne
  split
  · exact sends_flush hp s
  · next e he =>
    have hat : s.launchAt e = some l := (launchAt_of_dueEnt he).symm.trans hl
    have hstands : s.advanceTo l.toNat = s := by
      have : l.toNat ≤ s.now := by omega
      simp [State.advanceTo, this]
    have hcount : ∀ f : Fld, f.addr = R.TIME_LCNT p → TxReg f.addr := fun f hf => Or.inr ⟨p, hp, hf⟩
    extract_lets l' s₁ t late s₂
    have h₁ : Sends s s₁ := by
      simp only [s₁, l', hat, Option.getD_some, hstands]
      exact (sends_flush hp s).trans (sends_modNet _ _)
    refine Beside.trans (h₁.trans ?_) (sends_flush hp s₂)
    simp only [s₂]
    split
    · exact sends_leave hp s₁ t e 1
    · split
      · exact Beside.trans (beside_bump s₁ (hcount _ rfl)) (sends_descDone _ e 3)
      · exact Beside.trans (beside_bump s₁ (hcount _ rfl)) (sends_leave hp _ t e 2)

theorem sends_launchDue : ∀ (k : Nat) (s : State), Sends s (s.launchDue p k)
  | 0, s => Beside.refl s
  | k + 1, s => by
    unfold State.launchDue
    split
    · next l hl =>
      split
      · next hdue => exact (sends_launchOne hp hl hdue).trans (sends_launchDue k _)
      · exact Beside.refl s
    · exact Beside.refl s

end

theorem twinPorts_lt (s : State) : ∀ p ∈ s.twinPorts, p < 5 := by
  intro p hp
  have hmem : p ∈ (if s.flag (F.NET_CFG_RING 3) then [0, 3] else [0]) ++ [1] := List.mem_of_mem_filter hp
  split at hmem <;> simp only [List.mem_append, List.mem_cons, List.not_mem_nil, or_false] at hmem <;> omega

theorem sends_launchAll (s : State) {ps : List Nat} (h : ∀ p ∈ ps, p < 5) : Sends s (s.launchAll ps) :=
  beside_foldl ps (fun t p hp => sends_launchDue (h p hp) _ t) s

/-- A twin frame goes to its ports, or is counted as not sent. -/
theorem sends_sendTwin (s : State) (typ flags dst : Nat) (payload : List Byte) (launch : Option Stamp) :
    Sends s (s.sendTwin typ flags dst payload launch) := by
  unfold State.sendTwin
  split
  · exact beside_bump s (Or.inl rfl)
  · extract_lets b ps l e s₁
    have hports : ∀ p ∈ ps, p < 5 := twinPorts_lt s
    have hqueued : Sends s₁ (ps.foldl (fun t p => t.queueTx p e) s₁) :=
      beside_foldl ps (fun t p hp => sends_queueTx (hports p hp) t e) s₁
    exact ((sends_modNet s _).trans hqueued).trans (sends_launchAll _ hports)

theorem sends_sendCmds (s : State) (cyc : Word) (flags : Nat) (l : List Cmd) (launch : Option Stamp) :
    Sends s (s.sendCmds cyc flags l launch) :=
  beside_foldl _ (fun t _ _ => sends_sendTwin t _ _ _ _ _) s

end Sys2Proof.Machine
end

section
/-!
PROOFS of the family 11_partner_pair, what a seizing unit resumes from its checkpoint (O35; R185, R188).
-/
namespace Sys2Proof.Machine

/-! Loading a checkpoint (R188, step 3). -/

/-- The registers that a checkpoint carries lie below the lattice's and the pair's. -/
theorem ckptAddrs_lt : ∀ a ∈ ckptAddrs, a < 0x40300000 := by
  have hwords : ∀ base n : Nat, base + 4 * n ≤ 0x40300000 → ∀ a ∈ wordsFrom base n, a < 0x40300000 := by
    intro base n hle a hmem
    simp only [wordsFrom, List.mem_map, List.mem_range] at hmem
    omega
  have hrows : ∀ (n : Nat) (f : Nat → List Nat), (∀ k < n, ∀ a ∈ f k, a < 0x40300000) →
      ∀ a ∈ ((List.range n).map f).flatten, a < 0x40300000 := by
    intro n f hf a hmem
    simp only [List.mem_flatten, List.mem_map, List.mem_range] at hmem
    obtain ⟨_, ⟨k, hk, rfl⟩, ha⟩ := hmem
    exact hf k hk a ha
  simp only [ckptAddrs, List.forall_mem_append, List.forall_mem_singleton]
  refine ⟨⟨⟨⟨⟨⟨⟨⟨⟨by decide, hwords _ _ (by decide)⟩, hwords _ _ (by decide)⟩, ?_⟩, by decide⟩, hrows _ _ fun j hj => hwords _ _ ?_⟩,
    by decide⟩, hwords _ _ (by decide)⟩, hwords _ _ (by decide)⟩, hrows _ _ fun k hk => ?_⟩
  · simp only [List.mem_map, List.mem_range, R.FE_MN_CNT]
    omega
  · simp only [R.TK_ST]; omega
  · simp only [List.forall_mem_append, List.forall_mem_cons, List.cons_append]
    refine ⟨?_, hwords _ _ ?_, hwords _ _ ?_⟩
    · simp only [R.ALC_SLOT_ST]; omega
    · simp only [R.ALC_SLOT_U]; omega
    · simp only [R.ALC_LREC]; omega

/-- The registers and parts that loading a checkpoint changes. -/
def CkptReg (a : Nat) : Prop := a ∈ ckptAddrs ∨ a = R.FP_STAT

/-- What a unit holds of a checkpoint. -/
structure State.Resumes (s : State) (c : Ckpt) : Prop where
  x : s.est.x = c.est.x
  p : s.est.p = c.est.p
  inited : s.est.inited = c.est.inited
  org : s.est.org = c.est.org
  orgValid : s.flag F.FP_STAT_ORG_VALID = c.est.orgValid
  tracks : s.trk.tracks = c.trks
  lastPass : s.trk.lastPass = c.lastPass
  theta : s.alc.theta = c.theta
  cmds : s.alc.previous = c.cmds
  auth : s.alc.prevAuth = c.auth

theorem beside_setByte {W : Nat → Prop} {U : List Part} (s : State) (a : Nat) (b : Byte) : Beside W U s (s.setByte a b) :=
  beside_withMem s _

/-- Loading a checkpoint writes the registers it carries and ORG_VALID, and leaves the unit with its content. -/
theorem ckptLoad_spec (s : State) (c : Ckpt) :
    Beside CkptReg [.fe, .est, .trk, .sk, .alc] s (s.ckptLoad c) ∧ (s.ckptLoad c).Resumes c := by
  unfold State.ckptLoad
  extract_lets s₁ e s₂ s₃ s₄ trk sk s₅ held old alc s₆ rs s₇
  have h₁ : Beside CkptReg [.fe, .est, .trk, .sk, .alc] s s₁ :=
    beside_foldl _ (fun t b hb => beside_setWord t _ (Or.inl (by simpa using List.of_mem_filter hb))) s
  have h₃ : Beside CkptReg [.fe, .est, .trk, .sk, .alc] s₁ s₃ :=
    (Frame.beside (M := fun _ => True) (frame_modEst s₁ _ (by decide)) rfl).trans (beside_setFlag s₂ _ (Or.inr rfl))
  have h₄ : Beside (fun _ => False) [.fe] s₃ s₄ :=
    beside_foldl _ (fun t n _ => Frame.beside (M := fun _ => True) (frame_modStream t n _ (by decide)) rfl) s₃
  clear_value s₄ rs
  have h₇ : Beside CkptReg [.fe, .est, .trk, .sk, .alc] s₄ s₇ :=
    ⟨fun _ _ _ => rfl, fun v h _ _ _ => by cases v <;> first | rfl | exact absurd (by decide) h, rfl⟩
  have hbytes : Beside (fun _ => False) [] s₇ (c.image.foldl (fun t x =>
      let a := x.1 + t.areaOff x.1
      if inRanges rs a then t.setByte a x.2 else t) s₇) :=
    beside_foldl _ (fun t x _ => beside_ite (fun _ => beside_setByte t _ _) fun _ => Beside.refl t) s₇
  generalize c.image.foldl _ s₇ = z at hbytes ⊢
  have hall : Beside CkptReg [.fe, .est, .trk, .sk, .alc] s z :=
    (((h₁.trans h₃).trans (h₄.mono (fun _ => False.elim) (by decide))).trans h₇).trans
      (hbytes.mono (fun _ => False.elim) (by decide))
  have hest : z.est = s₃.est := hbytes.est.trans h₄.est
  have htrk : z.trk = s₇.trk := hbytes.trk
  have halc : z.alc = s₇.alc := hbytes.alc
  have hb : ¬ Book F.FP_STAT_ORG_VALID.addr := by simp [Book, F.FP_STAT_ORG_VALID, R.FP_STAT]
  have horg : z.flag F.FP_STAT_ORG_VALID = e.orgValid :=
    ((hbytes.flag hb id).trans (h₄.flag hb id)).trans (State.flag_setFlag s₂ _ _ (by decide) rfl)
  exact ⟨hall, by rw [hest]; rfl, by rw [hest]; rfl, by rw [hest]; rfl, by rw [hest]; rfl, horg, by rw [htrk], by rw [htrk],
    by rw [halc], by rw [halc], by rw [halc]⟩

end Sys2Proof.Machine
end

section
/-!
PROOFS of the family 11_partner_pair, the seizure (O35; R180, R187, R188).
-/
namespace Sys2Proof.Machine

/-! The pair's registers lie above what a seizure writes elsewhere. -/

/-- A register below those of the pair. -/
def BelowPair (a : Nat) : Prop := a < 0x40310000

section
variable {U : List Part} {s t : State}

theorem Beside.pairWord (p : Beside BelowPair U s t) {a : Nat} (h : 0x40310000 ≤ a) : t.word a = s.word a :=
  p.word a (by simp only [Book]; omega) (by simp only [BelowPair]; omega)

theorem Beside.pairGet (p : Beside BelowPair U s t) {f : Fld} (h : 0x40310000 ≤ f.addr) : t.get f = s.get f :=
  State.get_congr (p.pairWord h)

end

theorem TxReg.belowPair {a : Nat} (h : TxReg a) : BelowPair a := by
  have := h.bounds
  simp only [BelowPair]; omega

theorem CkptReg.belowPair {a : Nat} (h : CkptReg a) : BelowPair a := by
  rcases h with h | h
  · have := ckptAddrs_lt a h
    simp only [BelowPair]; omega
  · simp only [h, BelowPair, R.FP_STAT]; omega

/-! The pair's events (R195). -/

theorem beside_haEvt (s : State) (i : Nat) : Beside (· = R.HA_EVT) [] s (s.haEvt i) := by
  unfold State.haEvt
  exact beside_ite (fun _ => Beside.refl s) fun _ =>
    (beside_setFlag (W := (· = R.HA_EVT)) s (f := ⟨R.HA_EVT, i, 1⟩) true rfl).trans (kept_event _ _ _ _).beside

theorem haEvt_flag (s : State) {i : Nat} (hi : i < 32) : (s.haEvt i).flag ⟨R.HA_EVT, i, 1⟩ = true := by
  have hb : ¬ Book R.HA_EVT := by simp [Book, R.HA_EVT]
  unfold State.haEvt
  dsimp only
  split
  · assumption
  · exact ((kept_event _ _ _ _).flag hb).trans (State.flag_setFlag s _ true (by simp only; omega) rfl)

/-! SEIZING is entered. -/

/-- The registers beside STATE that show a new state outside BIVOUAC: the GNSS domains' requests, SPE's availability. -/
def GoReg (a : Nat) : Prop := a = R.PWR_DOM_REQ ∨ a = R.KZ_STAT ∨ a = R.KZ_FUNC

theorem GoReg.belowPair {a : Nat} (h : GoReg a) : BelowPair a := by
  rcases h with h | h | h <;> simp only [h, BelowPair] <;> decide

theorem beside_switchOn (s : State) (d : Nat) : Beside GoReg [.pwr] s (s.switchOn d) := by
  unfold State.switchOn
  extract_lets q s₁ due
  have h₁ : Beside GoReg [.pwr] s s₁ :=
    beside_ite (fun _ => Beside.refl s) fun _ => beside_set s _ (Or.inl rfl)
  exact h₁.trans (beside_ite (fun _ => Beside.refl s₁) fun _ => (frame_modPwr (M := fun _ => True) s₁ _ (by decide)).beside rfl)

theorem beside_speGate (s : State) : Beside GoReg [.kz] s s.speGate := by
  have hstat : GoReg F.KZ_STAT_SPE_AVAIL.addr := Or.inr (Or.inl rfl)
  have hfunc : GoReg F.KZ_FUNC_SPE_V.addr := Or.inr (Or.inr rfl)
  unfold State.speGate
  exact beside_ite (fun _ => beside_setFlag s true hstat) fun _ =>
    ((beside_setFlag s false hstat).trans (beside_setFlag _ false hfunc)).trans (beside_modKz _ _ (by decide))

theorem beside_switches (s : State) : Beside GoReg [.kz, .out] s s.switches := by
  unfold State.switches
  extract_lets ent l c old new s₁
  refine (beside_modKz s _ (by decide)).trans (beside_foldl _ (fun t k _ => ?_) s₁)
  exact beside_ite (fun _ => Beside.refl t) fun _ => beside_emit t _ (by decide)

/-- Outside BIVOUAC the GNSS domains are powered if they slept, and what the schedule of their sleep is not stays. -/
theorem gnPower_awake {s : State} (h : s.haState ≠ 0) (was : Bool) :
    Beside GoReg [.ha, .pwr] s (s.gnPower was) ∧ (s.gnPower was).ha.tdAt = s.ha.tdAt := by
  have hawake : s.gnSleeps = false := by simp [State.gnSleeps, h]
  unfold State.gnPower
  rw [if_neg (by simp [hawake])]
  have hon : Beside GoReg [.pwr] s ((s.switchOn 9).switchOn 10) := (beside_switchOn s 9).trans (beside_switchOn _ 10)
  split
  · refine ⟨(hon.mono (fun _ h => h) (by decide)).trans (beside_modHa _ _ (by decide)), ?_⟩
    show ((s.switchOn 9).switchOn 10).ha.tdAt = s.ha.tdAt
    rw [hon.ha]
  · exact ⟨Beside.refl s, rfl⟩

theorem haGo_seizing (s : State) :
    Beside GoReg [.ha, .pwr, .kz, .out] (s.set F.HA_STAT_STATE 1) (s.haGo 1) ∧ (s.haGo 1).ha.tdAt = s.ha.tdAt := by
  have hstate : (s.set F.HA_STAT_STATE 1).haState ≠ 0 := by
    rw [State.haState, State.get_set _ _ _ (by decide)]; decide
  obtain ⟨hpower, htd⟩ := gnPower_awake hstate s.gnSleeps
  unfold State.haGo
  simp only [OfNat.one_ne_ofNat, one_ne_zero, if_false]
  generalize (s.set F.HA_STAT_STATE 1).gnPower s.gnSleeps = u at hpower htd
  have hgate : Beside GoReg [.kz, .out] u u.speGate.switches :=
    ((beside_speGate u).mono (fun _ h => h) (by decide)).trans (beside_switches _)
  exact ⟨(hpower.mono (fun _ h => h) (by decide)).trans (hgate.mono (fun _ h => h) (by decide)),
    (congrArg Ha.tdAt hgate.ha).trans htd⟩

/-! The seizure sequence (R188). -/

/-- The term is raised, t_d taken and the seizure counted. -/
def State.seizeBegun (s : State) : State :=
  let now := s.now
  let s := (s.adopt (s.haTerm + 1) s.nodeId).setFlag F.HA_STAT_SEIZE_BLK false
  let s := ((s.setWord R.HA_TDL (BitVec.ofNat 32 now)).setWord R.HA_LHBL (BitVec.ofNat 32 s.ha.lastHb)).modHa fun h =>
    { h with tdAt := now, tdHi := BitVec.ofNat 16 (now / 2 ^ 32), lhbHi := BitVec.ofNat 16 (h.lastHb / 2 ^ 32), resume := true }
  s.bump F.HA_CNT0_SEIZE_CNT

/-- The TERM frame, the checkpoint and its command frames. -/
def State.ckptResumed (s : State) (c : Ckpt) : State :=
  let s := (s.sendTwin zTERM 0 0x3FF [] none).ckptLoad c
  let auth := s.flag F.SK_OUT_FL_AUTH_REQ
  (s.modHa fun h => { h with ckAuth := auth }).sendCmds c.cyc (4 + (if c.auth then 8 else 0) + (if c.rep then 2 else 0)) c.cmds none

theorem seize_eq {s : State} {c : Ckpt} {size : Nat} (hheld : s.ha.ckHeld = some (c, size)) (husable : s.ckUsable = true) :
    s.seize = ((s.seizeBegun.ckptResumed c).haGo 1).haEvt 0 := by
  unfold State.seize
  rw [if_pos husable, hheld]
  rfl

theorem seizeBegun_spec (s : State) : s.seizeBegun.word R.HA_TERM = BitVec.ofNat 32 (s.haTerm + 1)
    ∧ s.seizeBegun.get F.HA_TERMSRC_SRC = s.nodeId ∧ s.seizeBegun.flag F.HA_STAT_SEIZE_BLK = false
    ∧ s.seizeBegun.get F.HA_CNT0_SEIZE_CNT = min 255 (s.get F.HA_CNT0_SEIZE_CNT + 1) ∧ s.seizeBegun.ha.tdAt = s.now
    ∧ s.seizeBegun.now = s.now := by
  have hnode : s.nodeId % 2 ^ 9 = s.nodeId := Nat.mod_eq_of_lt (get_lt s F.SYS_PERSONA_NODE_ID)
  unfold State.seizeBegun
  extract_lets now s₁ s₂
  have hother : ∀ a, a ≠ R.HA_TERM → a ≠ R.HA_TERMSRC → a ≠ R.HA_STAT → a ≠ R.HA_TDL → a ≠ R.HA_LHBL → s₂.word a = s.word a := by
    intro a h1 h2 h3 h4 h5
    simp only [s₂, s₁, State.modHa_word, State.adopt]
    rw [State.word_setWord_ne _ h5, State.word_setWord_ne _ h4, State.word_setFlag_ne _ _ _ h3, State.word_set_ne _ _ _ h2,
      State.word_setWord_ne _ h1]
  have hlater : ∀ a, a ≠ R.HA_CNT0 → a ≠ R.HA_TDL → a ≠ R.HA_LHBL → (s₂.bump F.HA_CNT0_SEIZE_CNT).word a = s₁.word a := by
    intro a h1 h4 h5
    refine (State.word_setWord_ne _ h1 _).trans ?_
    simp only [s₂, State.modHa_word]
    rw [State.word_setWord_ne _ h5, State.word_setWord_ne _ h4]
  refine ⟨?_, ?_, ?_, ?_, rfl, rfl⟩
  · rw [hlater _ (by decide) (by decide) (by decide)]
    exact ((State.word_setFlag_ne _ _ _ (by decide)).trans (State.word_set_ne _ _ _ (by decide))).trans (State.word_setWord_same _ _ _)
  · rw [State.get_congr (hlater R.HA_TERMSRC (by decide) (by decide) (by decide))]
    exact (State.get_congr (State.word_setFlag_ne _ _ _ (by decide))).trans ((State.get_set _ _ _ (by decide)).trans hnode)
  · rw [State.flag, State.get_congr (hlater R.HA_STAT (by decide) (by decide) (by decide))]
    exact State.flag_setFlag _ F.HA_STAT_SEIZE_BLK false (by decide) rfl
  · rw [State.get_bump _ _ (by decide), State.get_congr (hother _ (by decide) (by decide) (by decide) (by decide) (by decide))]
    rfl

/-- What a unit holds of a checkpoint stays where these stay. -/
theorem State.Resumes.congr {s t : State} {c : Ckpt} (h : s.Resumes c) (hest : t.est = s.est) (htrk : t.trk = s.trk)
    (halc : t.alc = s.alc) (horg : t.flag F.FP_STAT_ORG_VALID = s.flag F.FP_STAT_ORG_VALID) : t.Resumes c :=
  ⟨hest ▸ h.x, hest ▸ h.p, hest ▸ h.inited, hest ▸ h.org, horg.trans h.orgValid, htrk ▸ h.tracks, htrk ▸ h.lastPass, halc ▸ h.theta,
    halc ▸ h.cmds, halc ▸ h.auth⟩

theorem not_book_orgValid : ¬ Book F.FP_STAT_ORG_VALID.addr := by simp [Book, F.FP_STAT_ORG_VALID, R.FP_STAT]

theorem not_txReg_orgValid : ¬ TxReg F.FP_STAT_ORG_VALID.addr := fun h => by
  have := h.bounds
  simp only [F.FP_STAT_ORG_VALID, R.FP_STAT] at this; omega

theorem ckptResumed_spec (s : State) (c : Ckpt) :
    Beside BelowPair [.net, .out, .fe, .est, .trk, .sk, .alc, .ha] s (s.ckptResumed c) ∧ (s.ckptResumed c).ha.tdAt = s.ha.tdAt
      ∧ (s.ckptResumed c).Resumes c := by
  have hterm := sends_sendTwin s zTERM 0 0x3FF [] none
  obtain ⟨hload, hresumes⟩ := ckptLoad_spec (s.sendTwin zTERM 0 0x3FF [] none) c
  unfold State.ckptResumed
  generalize State.ckptLoad _ c = s₁ at hload hresumes ⊢
  dsimp only
  generalize s₁.flag F.SK_OUT_FL_AUTH_REQ = auth
  have hcmds := sends_sendCmds (s₁.modHa fun h => { h with ckAuth := auth }) c.cyc
    (4 + (if c.auth then 8 else 0) + (if c.rep then 2 else 0)) c.cmds none
  refine ⟨?_, ?_, ?_⟩
  · refine Beside.trans ?_ (hcmds.mono (fun _ => TxReg.belowPair) (by decide))
    refine Beside.trans ?_ (beside_modHa s₁ _ (by decide))
    exact (hterm.mono (fun _ => TxReg.belowPair) (by decide)).trans (hload.mono (fun _ => CkptReg.belowPair) (by decide))
  · rw [hcmds.ha]
    show s₁.ha.tdAt = s.ha.tdAt
    rw [hload.ha, hterm.ha]
  · exact hresumes.congr hcmds.est hcmds.trk hcmds.alc
      (hcmds.flag not_book_orgValid not_txReg_orgValid)

/-- What a seizure from a checkpoint leaves. -/
structure Seized (s : State) (c : Ckpt) (t : State) : Prop where
  state : t.haState = 1
  term : t.haTerm = s.haTerm + 1
  src : t.get F.HA_TERMSRC_SRC = s.nodeId
  evt : t.flag F.HA_EVT_SEIZED = true
  count : t.get F.HA_CNT0_SEIZE_CNT = min 255 (s.get F.HA_CNT0_SEIZE_CNT + 1)
  unblocked : t.flag F.HA_STAT_SEIZE_BLK = false
  now : t.now = s.now
  tdAt : t.ha.tdAt = s.now
  resumes : t.Resumes c

theorem seize_seized {s : State} {c : Ckpt} {size : Nat} (hheld : s.ha.ckHeld = some (c, size)) (husable : s.ckUsable = true)
    (hterm : s.haTerm < 0xFFFFFFFF) : Seized s c s.seize := by
  obtain ⟨uterm, usrc, ublk, ucount, utd, unow⟩ := seizeBegun_spec s
  obtain ⟨hv, vtd, vresumes⟩ := ckptResumed_spec s.seizeBegun c
  rw [seize_eq hheld husable]
  generalize s.seizeBegun = u at *
  generalize u.ckptResumed c = v at *
  obtain ⟨hshown, gotd⟩ := haGo_seizing v
  have hevt := beside_haEvt (v.haGo 1) 0
  have hset : ((v.haGo 1).haEvt 0).flag F.HA_EVT_SEIZED = true := haEvt_flag _ (by decide)
  have hgo := hshown.mono (V := BelowPair) (fun _ => GoReg.belowPair) (List.Subset.refl _)
  generalize v.haGo 1 = w at *
  generalize w.haEvt 0 = t at *
  have hpair : ∀ a, 0x40310000 ≤ a → a ≠ R.HA_EVT → t.word a = w.word a := fun a ha he =>
    hevt.word a (by simp only [Book]; omega) he
  have hword : ∀ a, 0x40310000 ≤ a → a ≠ R.HA_EVT → a ≠ R.HA_STAT → t.word a = u.word a := fun a ha he hs =>
    ((hpair a ha he).trans (hgo.pairWord ha)).trans ((State.word_set_ne _ _ _ hs).trans (hv.pairWord ha))
  have hstat : t.word R.HA_STAT = (v.set F.HA_STAT_STATE 1).word R.HA_STAT :=
    (hpair _ (by decide) (by decide)).trans (hgo.pairWord (by decide))
  refine ⟨?_, ?_, ?_, hset, ?_, ?_, ?_, ?_, ?_⟩
  · exact (State.get_congr hstat).trans (State.get_set v _ 1 (by decide))
  · rw [State.haTerm, hword _ (by decide) (by decide) (by decide), uterm, BitVec.toNat_ofNat, Nat.mod_eq_of_lt (by omega)]
  · exact (State.get_congr (hword _ (by decide) (by decide) (by decide))).trans usrc
  · exact (State.get_congr (hword _ (by decide) (by decide) (by decide))).trans ucount
  · refine (congrArg (· != 0) ?_ : t.flag F.HA_STAT_SEIZE_BLK = u.flag F.HA_STAT_SEIZE_BLK).trans ublk
    exact ((State.get_congr hstat).trans (State.get_set_apart v _ _ 1 (by decide))).trans (hv.pairGet (by decide))
  · exact ((hevt.now.trans hgo.now).trans hv.now).trans unow
  · rw [hevt.ha, gotd, vtd, utd]
  · refine vresumes.congr (hevt.est.trans hgo.est) (hevt.trk.trans hgo.trk) (hevt.alc.trans hgo.alc) ?_
    refine (hevt.flag not_book_orgValid (by decide)).trans ((hshown.flag not_book_orgValid ?_).trans ?_)
    · simp only [GoReg]; decide
    · exact congrArg (· != 0) (State.get_set_addr v _ _ 1 (by decide))

end Sys2Proof.Machine
end

section
/-!
PROOFS of the family 11_partner_pair, the period end that completes the common silence (O35; R180, R183).
-/
namespace Sys2Proof.Machine

/-! What is computed from the pair's registers and hidden state. -/

theorem ckUsable_congr {s t : State} (hheld : t.ha.ckHeld = s.ha.ckHeld) (hcyc : t.word R.SYS_CYC_NUM = s.word R.SYS_CYC_NUM)
    (hcfg : t.word R.HA_CFG = s.word R.HA_CFG) : t.ckUsable = s.ckUsable := by
  have hage : t.get F.HA_CFG_CKPT_MAXAGE = s.get F.HA_CFG_CKPT_MAXAGE := State.get_congr hcfg
  unfold State.ckUsable
  rw [hheld]
  cases s.ha.ckHeld with
  | none => rfl
  | some e => exact decide_eq_decide.2 (by simp only [State.cycNum, hcyc, hage])

theorem retN_congr {s t : State} (hcfg : t.word R.HA_CFG = s.word R.HA_CFG) : t.retN = s.retN :=
  congrArg (max 1) (State.get_congr (f := F.HA_CFG_RET_N) hcfg)

theorem bothNext_congr {s t : State} (hha : t.ha = s.ha) (hcfg : t.word R.HA_CFG = s.word R.HA_CFG) (a : Nat) :
    t.bothNext a = s.bothNext a := by
  simp only [State.bothNext, hha, retN_congr hcfg]

/-- In a common silent period no line returns. -/
theorem not_returns_of_bothNext {s : State} {a : Nat} (h : s.bothNext a ≠ 0) (i : Nat) : (s.line i).returns a s.retN = false := by
  have hall : (s.ha.lines.all fun l => (!l.live && !l.returns a s.retN) || !l.loud a) = true := by
    by_contra hno
    exact h (if_neg hno)
  unfold State.line
  rw [List.getD_eq_getElem?_getD]
  cases hl : s.ha.lines[i]? with
  | none => rfl
  | some l =>
    have hsilent := List.all_eq_true.1 hall l (List.mem_of_getElem? hl)
    simp only [Bool.or_eq_true, Bool.and_eq_true, Bool.not_eq_true'] at hsilent
    rcases hsilent with ⟨_, hstays⟩ | hquiet
    · exact hstays
    · simp [Line.returns, hquiet]

/-! A line that does not return (R183). -/

/-- The registers that show a line's loss. -/
def LossReg (a : Nat) : Prop := a = R.HA_STAT ∨ a = R.HA_CNT0 ∨ a = R.HA_EVT

theorem LossReg.pair {a : Nat} (h : LossReg a) : 0x40310000 ≤ a := by
  rcases h with h | h | h <;> rw [h] <;> decide

/-- Such a line is lost or nothing is shown: neither STATE nor the count of seizures moves. -/
theorem lineShow_spec {s : State} {i a n : Nat} {l : Line} (h : l.returns a n = false) :
    Beside LossReg [] s (s.lineShow i a n l) ∧ (s.lineShow i a n l).haState = s.haState
      ∧ (s.lineShow i a n l).get F.HA_CNT0_SEIZE_CNT = s.get F.HA_CNT0_SEIZE_CNT := by
  unfold State.lineShow
  extract_lets f s'
  split
  · have hline : f.addr = R.HA_STAT ∧ 6 ≤ f.lo := by
      simp only [f]; split <;> decide
    have hcount : (if i = 0 then F.HA_CNT0_LOSS_A else F.HA_CNT0_LOSS_B).addr = R.HA_CNT0
        ∧ 8 ≤ (if i = 0 then F.HA_CNT0_LOSS_A else F.HA_CNT0_LOSS_B).lo := by
      split <;> decide
    generalize (if i = 0 then F.HA_CNT0_LOSS_A else F.HA_CNT0_LOSS_B) = g at hcount
    obtain ⟨hf, hflo⟩ := hline
    obtain ⟨hg, hglo⟩ := hcount
    have hevt := beside_haEvt ((s.setFlag f false).bump g) 2
    have hbook : ∀ a, 0x40310000 ≤ a → ¬ Book a := fun a ha => by simp only [Book]; omega
    refine ⟨?_, ?_, ?_⟩
    · exact ((beside_setFlag s false (Or.inl hf)).trans (beside_bump _ (Or.inr (Or.inl hg)))).trans
        (hevt.mono (fun _ h => Or.inr (Or.inr h)) (List.Subset.refl _))
    · refine (hevt.get (hbook _ (by decide)) (by decide)).trans ?_
      have hapart : F.HA_STAT_STATE.lo + F.HA_STAT_STATE.w ≤ f.lo := Nat.le_trans (by decide) hflo
      exact (State.get_set_addr _ _ g _ (by rw [hg]; decide)).trans (State.get_set_apart s _ f _ (Or.inl hapart))
    · refine (hevt.get (hbook _ (by decide)) (by decide)).trans ?_
      have hapart : F.HA_CNT0_SEIZE_CNT.lo + F.HA_CNT0_SEIZE_CNT.w ≤ g.lo := hglo
      exact (State.get_set_apart _ _ g _ (Or.inl hapart)).trans (State.get_set_addr s _ f _ (by rw [hf]; decide))
  · rw [if_neg (by simp [h])]
    exact ⟨Beside.refl s, rfl, rfl⟩

/-! The period end (R180, R183). -/

/-- The period that starts at a has ended and its lines are shown. -/
def State.linesJudged (s : State) (a : Nat) : State :=
  let s := s.advanceTo (a + 4000)
  let n := s.retN
  let ls := s.ha.lines
  let both := s.bothNext a
  let s := s.modHa fun h => { h with lines := ls.map fun l => l.after a n, bothN := both, perAt := some (a + 4000) }
  (s.lineShow 0 a n (ls.getD 0 ⟨[], false, 0, 0⟩)).lineShow 1 a n (ls.getD 1 ⟨[], false, 0, 0⟩)

theorem periodEnd_eq {s : State} (h : s.bothNext s.perStart = 3) : s.periodEnd = (s.linesJudged s.perStart).bothSilent := by
  have hcfg : (s.advanceTo (s.perStart + 4000)).word R.HA_CFG = s.word R.HA_CFG := State.advanceTo_word s _ (by simp [Book, R.HA_CFG])
  have hboth : (s.advanceTo (s.perStart + 4000)).bothNext s.perStart = 3 :=
    (bothNext_congr (State.advanceTo_ha s _) hcfg _).trans h
  show (if 3 ≤ (s.advanceTo (s.perStart + 4000)).bothNext s.perStart then (s.linesJudged s.perStart).bothSilent
    else s.linesJudged s.perStart) = _
  exact if_pos (by omega)

/-- Where no line returns, device time, losses and the periods' own state apart nothing changes. -/
structure Judged (s : State) (a : Nat) (t : State) : Prop where
  word : ∀ x, ¬ Book x → ¬ LossReg x → t.word x = s.word x
  state : t.haState = s.haState
  count : t.get F.HA_CNT0_SEIZE_CNT = s.get F.HA_CNT0_SEIZE_CNT
  now : t.now = (s.advanceTo (a + 4000)).now
  ckHeld : t.ha.ckHeld = s.ha.ckHeld

theorem linesJudged_judged {s : State} {a : Nat} (h : s.bothNext a ≠ 0) : Judged s a (s.linesJudged a) := by
  have hn : (s.advanceTo (a + 4000)).retN = s.retN := retN_congr (State.advanceTo_word s _ (by simp [Book, R.HA_CFG]))
  have hstays : ∀ i, ((s.advanceTo (a + 4000)).ha.lines.getD i ⟨[], false, 0, 0⟩).returns a (s.advanceTo (a + 4000)).retN = false := by
    intro i
    rw [hn, State.advanceTo_ha]
    exact not_returns_of_bothNext h i
  have hfld : ∀ f : Fld, ¬ Book f.addr → (s.advanceTo (a + 4000)).get f = s.get f := fun f hf => State.advanceTo_get s _ hf
  unfold State.linesJudged
  extract_lets s₁ n ls both s₂
  obtain ⟨h0, hst0, hc0⟩ := lineShow_spec (s := s₂) (hstays 0)
  obtain ⟨h1, hst1, hc1⟩ := lineShow_spec (s := s₂.lineShow 0 a n (ls.getD 0 ⟨[], false, 0, 0⟩)) (hstays 1)
  have hall := h0.trans h1
  refine ⟨fun x hb hl => (hall.word x hb hl).trans (State.advanceTo_word s _ hb), ?_, ?_, hall.now, ?_⟩
  · exact (hst1.trans hst0).trans (hfld _ (by simp [Book, F.HA_STAT_STATE, R.HA_STAT]))
  · exact (hc1.trans hc0).trans (hfld _ (by simp [Book, F.HA_CNT0_SEIZE_CNT, R.HA_CNT0]))
  · rw [hall.ha]
    exact (congrArg Ha.ckHeld (State.advanceTo_ha s _) : s₁.ha.ckHeld = s.ha.ckHeld)

/-- Settles O35: at the period end no line returns, so the unit stays in BIVOUAC with its checkpoint usable, and seizes; what a seizure
from a checkpoint leaves is `Seized`. -/
theorem seizureOnSilence : Obligations.SeizureOnSilence := by
  intro s c size hpair hboth hstate hheld husable hterm hinst
  have hexec : exec .bothLinesSilent s = s.ends s.periodEnd := by
    refine congrArg s.ends (if_pos ?_)
    simp [hpair, hboth]
  obtain ⟨hword, hst, hcnt, hnow, hck⟩ := linesJudged_judged (s := s) (a := s.perStart) (by omega)
  rw [periodEnd_eq hboth] at hexec
  generalize s.linesJudged s.perStart = u at *
  have hcyc : u.word R.SYS_CYC_NUM = s.word R.SYS_CYC_NUM := hword _ (by simp [Book, R.SYS_CYC_NUM]) (by simp only [LossReg]; decide)
  have hcfg : u.word R.HA_CFG = s.word R.HA_CFG := hword _ (by simp [Book, R.HA_CFG]) (by simp only [LossReg]; decide)
  have huse : u.ckUsable = true := (ckUsable_congr hck hcyc hcfg).trans husable
  have huterm : u.haTerm = s.haTerm :=
    congrArg BitVec.toNat (hword R.HA_TERM (by simp [Book, R.HA_TERM]) (by simp only [LossReg]; decide))
  have hnode : u.nodeId = s.nodeId :=
    State.get_congr (hword R.SYS_PERSONA (by simp [Book, R.SYS_PERSONA]) (by simp only [LossReg]; decide))
  have hseize : u.bothSilent = u.seize := by
    unfold State.bothSilent
    rw [hst, hstate]
    exact if_pos (by simp [huse, huterm, hterm])
  have hnow' : u.now = s.reached (s.perStart + 4000) := hnow.trans (now_advanceTo s _ hinst)
  have hz := seize_seized (hck.trans hheld) huse (by omega)
  rw [hseize] at hexec
  refine Completes.of_ends hexec (fun _ _ h => h) ?_
  generalize u.seize = t at hz
  refine ⟨hz.state, hz.term.trans (by rw [huterm]), hz.src.trans hnode, hz.evt, hz.count.trans (by rw [hcnt]), hz.unblocked,
    hz.now.trans hnow', hz.tdAt.trans hz.now.symm, ?_⟩
  obtain ⟨hx, hp, hi, ho, hv, htr, hl, hth, hcm, hau⟩ := hz.resumes
  exact ⟨hx, hp, hi, hv, ho, htr, hl, hth, hcm, hau⟩

end Sys2Proof.Machine
end

section
/-!
PROOFS of the family 11_partner_pair, twin copies (O36). The statement fails in its clause of a copy whose bytes differ from those of a
pending entry. That clause asks for the version, the TWIN flag and checks 1 to 4 of R260, and not for a TYPE of a twin frame (R258): a
frame of no TYPE with the TWIN flag counts UNSUP (R257; log entry 218), whatever entry is pending, and the entry stays.
-/
namespace Sys2Proof.Machine

/-- A frame of TYPE 0x16, which R258 does not list, with the TWIN flag and both its codes valid, from node 0 to every device. -/
def untypedTwin : List Byte := domainsOn.zaley 0x16 0 0x3FF true []

/-- An entry of node 0 with the BOOT and SEQ of that frame and other bytes, its first copy from network B. -/
def otherTwin : TwinPend := ⟨0, 0, 0, [], 1, 0, 50000, false, false⟩

/-- P0 is enabled, node 0 is an ADMITTED peer and the entry is pending. -/
def pendingOther : State :=
  ((domainsOn.setFlag (F.NET_CFG_EN 0) true).modFe fun f => { f with peers := [⟨0, 1, true, 0, 0, 0, 0, 0⟩] }).modNet fun x =>
    { x with twin := [otherTwin] }

/-- The frame counts UNSUP and no DISC. -/
theorem untypedTwin_disc :
    Completes (.twinCopyReceive 0 untypedTwin) pendingOther fun t => t.get (F.NET_CNT0_UNSUP 0) = 1 ∧ t.get F.TWIN_CNT0_DISC = 0 :=
  Completes.of rfl (by decide +kernel)

/-- It passes what O36 asks of a copy. -/
theorem untypedTwin_checked : let z := zRead untypedTwin
    crcOk untypedTwin = true ∧ z.ver = 1 ∧ z.flags % 2 = 1 ∧ pendingOther.safetyOk untypedTwin = true
      ∧ (z.dst = pendingOther.nodeId ∨ z.dst = 0x3FF) ∧ pendingOther.twinAllowed z = true := by
  decide +kernel

/-- What O36 says of it: DISC is counted. -/
theorem disc_of_twinFramesAndPorts (H : Obligations.TwinFramesAndPorts) :
    Completes (.twinCopyReceive 0 untypedTwin) pendingOther fun t => t.get F.TWIN_CNT0_DISC = 1 := by
  obtain ⟨hcopies, _⟩ := H pendingOther 0 untypedTwin .host 0 0 0 0 false 0 (Or.inl rfl) (by decide +kernel)
  obtain ⟨_, _, _, hmates⟩ := hcopies (by decide) (by decide +kernel) (by decide) (by decide) (by decide +kernel)
  obtain ⟨_, hdiffers⟩ := hmates otherTwin untypedTwin_checked (by decide +kernel) (by decide)
  obtain ⟨t, ht, _, _, hdisc, _⟩ := hdiffers (by decide +kernel)
  exact ⟨t, ht, hdisc⟩

/-- Refutes O36, in its clause of a copy that differs from a pending entry: one whose TYPE is no twin frame's counts UNSUP, not DISC. -/
theorem not_twinFramesAndPorts : ¬ Obligations.TwinFramesAndPorts := by
  intro H
  obtain ⟨t, _, ⟨_, hmodel⟩, hstated⟩ := untypedTwin_disc.and (disc_of_twinFramesAndPorts H)
  rw [hstated] at hmodel
  exact absurd hmodel (by decide)

end Sys2Proof.Machine
end

section
/-!
PROOFS of the family 12_kazso_lattice, the state after reset (O4; R199, R239, R336, R342, R365): what its empty stores read, and that they
are canonical.
-/
namespace Sys2Proof.Machine

theorem reset_word (a : Nat) : State.reset.word a = resetWord a := rfl

theorem reset_shWord (a : Nat) : State.reset.shWord a = resetWord a := rfl

theorem reset_byte (a : Nat) : State.reset.byte a = 0 := rfl

theorem reset_switches_open {k : Nat} (hk : k < 16) :
    State.reset.kz.swL.getD k true = false ∧ State.reset.kz.swC.getD k true = false := by
  have hopen : (List.replicate 16 false).getD k true = false := by
    rw [List.getD_eq_getElem _ _ (by simpa using hk), List.getElem_replicate]
  exact ⟨hopen, hopen⟩

theorem reset_canonical : State.reset.Canonical :=
  ⟨rfl, rfl, rfl, ⟨rfl, rfl, rfl, rfl, fun _ h => nomatch h⟩⟩

theorem reset_jobsNumbered : State.reset.JobsNumbered :=
  ⟨List.Pairwise.nil, fun _ h => nomatch h⟩

/-- Settles O4: the stores list nothing, so every register and hidden copy reads its reset word and every byte 0; the fields named are
those of the reset words. -/
theorem resetState : Obligations.ResetState := by
  have hpersona : State.reset.get F.SYS_PERSONA_PERSONA = 3 := by decide
  have hon : State.reset.get F.PWR_DOM_STAT_ON = 0 := by decide
  have hrun : State.reset.run = false := by decide
  have hoff : State.reset.kzState = 0 := by decide
  have hinc : State.reset.timeInc = 10 * 2 ^ 32 := by decide
  exact ⟨fun a => ⟨reset_word a, reset_shWord a⟩, hpersona, hon, hrun, hoff, hinc, fun _ hk => reset_switches_open hk, reset_byte,
    rfl, rfl, rfl, reset_canonical, reset_jobsNumbered⟩

end Sys2Proof.Machine
end

section
/-!
PROOFS of the family 12_kazso_lattice, the authority timeout (O32). The statement fails in its clause of AUTH_TIMEOUT, which unlike
those of the degraded timers does not ask that device time runs. While NET is not ON and REFCLK is stopped the count holds its value
(R246), so AUTH_TMO_MS does not pass and the entitlement of R198 stays.
-/
namespace Sys2Proof.Machine

theorem advanceTo_of_stopped {s : State} (h : s.timeRuns = false) (n : Nat) : s.advanceTo n = s := by
  simp [State.advanceTo, h]

theorem emit_entitled (s : State) (o : Output) : (s.emit o).entitled = s.entitled := rfl

theorem modKz_switches_entitled (s : State) (l c : List Bool) :
    (s.modKz fun k => { k with swL := l, swC := c }).entitled = s.entitled := rfl

/-- The entitlement (R198) is no matter of the switches it drives. -/
theorem switches_entitled (s : State) : s.switches.entitled = s.entitled := by
  unfold State.switches
  extract_lets ent l c old new s₁
  refine (foldl_keeps State.entitled _ (fun t k => ?_) _ s₁).trans (modKz_switches_entitled s l c)
  extract_lets a b
  split
  · rfl
  · exact emit_entitled t _

/-- With device time stopped AUTH_TIMEOUT leaves the entitlement as it was, whatever frame came last. -/
theorem authTimeout_entitled_of_stopped {s : State} (hstopped : s.timeRuns = false) (hmaster : s.isMaster = false) :
    Completes .authTimeout s fun t => t.entitled = s.entitled := by
  cases hat : s.kz.authAt with
  | none =>
    refine Completes.of (t := s) ?_ rfl
    show execAuthTimeout s = s.ends s
    simp [execAuthTimeout, hat]
  | some a =>
    refine Completes.of (t := s.switches) ?_ (switches_entitled s)
    show execAuthTimeout s = s.ends s.switches
    simp [execAuthTimeout, hat, hmaster, advanceTo_of_stopped hstopped]

/-- A device that is no MASTER, with SVC, the safety core's and the lattice's domains ON, NET not ON and REFCLK stopped; the latest
accepted command frame, with authority, came at the present instant. -/
def stoppedInAuthority : State :=
  ((State.reset.set F.PWR_DOM_STAT_ON 0x30).modPwr fun p => { p with refRuns := false }).modKz fun k =>
    { k with authAt := some 0, lastAuth := true }

/-- What O32 says of it: the entitlement ends. -/
theorem notEntitled_of_safetyRequestsAndTimers (H : Obligations.SafetyRequestsAndTimers) :
    Completes .authTimeout stoppedInAuthority fun t => t.entitled = false := by
  obtain ⟨_, _, _, _, _, _, _, _, _, _, _, _, _, _, _, _, htimeout⟩ :=
    H stoppedInAuthority .host 0 0 (Or.inl rfl) (by decide) (by decide) (by decide)
  obtain ⟨t, ht, _, hent, _⟩ := htimeout 0 rfl (by decide) (by decide)
  exact ⟨t, ht, hent⟩

/-- Refutes O32, in its clause of AUTH_TIMEOUT: with device time stopped the timeout is never reached, and the entitlement stays. -/
theorem not_safetyRequestsAndTimers : ¬ Obligations.SafetyRequestsAndTimers := by
  intro H
  have hstays := authTimeout_entitled_of_stopped (s := stoppedInAuthority) (by decide) (by decide)
  obtain ⟨t, _, hmodel, hstated⟩ := hstays.and (notEntitled_of_safetyRequestsAndTimers H)
  rw [hstated] at hmodel
  exact absurd hmodel (by decide)

end Sys2Proof.Machine
end

section
/-!
PROOFS of the family 12_kazso_lattice, a channel's trip (O33). The statement fails in its clause of CHANNEL_TRIP, because the evaluation
begins with a parameter block that waits (R218): at rest, as soon as the safety core's domain is ON, the safety core writes it before any
channel is checked, and a channel that it takes out of use does not trip.
-/
namespace Sys2Proof.Machine

/-- Channel 3 checks the block output 4, at half of full scale, and its violation lacks one evaluation to SLT_MS. The lattice is OFF,
and a changed parameter block that sets the channel's EN to 0 waits. -/
def tripWithBlockWaiting : State :=
  let s := (((domainsOn.setFlag (F.KZ_CH_EN 3) true).setFlag (F.KZ_CH_OUTCHK 3) true).set (F.KZ_CH_OUT_IDX 3) 4)
  let s := (s.setFlag (F.DSF_BOUT_CFG_EN 4) true).setWord (R.DSF_BOUT_VAL 4) 0x400000
  (s.modKch 3 fun q => { q with sltL := 99990000 }).modPwr fun p => { p with image := { p.image with kz := [(R.KZ_CH 3, 0)] } }

/-- An evaluation in which every output reads low and no receiver brings anything. -/
def quietEval : LatIn := ⟨[], 0, [], false⟩

/-- The block is written, and the channel does not trip. -/
theorem tripWithBlockWaiting_trip :
    Completes (.channelTrip 3 quietEval) tripWithBlockWaiting fun t => t.get F.KZ_TRIP_TRIP = 0 :=
  Completes.of rfl (by decide +kernel)

/-- What O33 says of it: bit 3 of KZ_TRIP sets. -/
theorem trip_of_latticeEvaluationAndTrips (H : Obligations.LatticeEvaluationAndTrips) :
    Completes (.channelTrip 3 quietEval) tripWithBlockWaiting fun t => t.get F.KZ_TRIP_TRIP / 2 ^ 3 % 2 = 1 := by
  obtain ⟨_, htrip, _⟩ := H tripWithBlockWaiting quietEval 3 0 0 false false false (by decide) (by decide)
  obtain ⟨t, ht, hbit, _⟩ := htrip (by decide) (by decide) (by decide) (by decide) (by decide)
  exact ⟨t, ht, hbit⟩

/-- Refutes O33, in its clause of CHANNEL_TRIP: the evaluation writes the waiting block first (R218), and with its EN 0 the channel is
not checked. -/
theorem not_latticeEvaluationAndTrips : ¬ Obligations.LatticeEvaluationAndTrips := by
  intro H
  obtain ⟨t, _, hmodel, hstated⟩ := tripWithBlockWaiting_trip.and (trip_of_latticeEvaluationAndTrips H)
  rw [hmodel] at hstated
  exact absurd hstated (by decide)

end Sys2Proof.Machine
end

section
/-!
PROOFS of the family 13 to 22, the words of block code (O8, O9; R307, R310 to R315): a format's word as a number, its fields, and the
decoder and the encoder arm by arm.
-/
namespace Sys2Proof.Machine

/-! The fields of a word (R307). -/

/-- Two bit vectors put together, as a number. -/
theorem toNat_append_add {m n : Nat} (x : BitVec m) (y : BitVec n) : (x ++ y).toNat = x.toNat * 2 ^ n + y.toNat := by
  rw [BitVec.toNat_append, ← Nat.shiftLeft_add_eq_or_of_lt y.isLt, Nat.shiftLeft_eq]

theorem wordR_toNat (op : BitVec 8) (d a b c : BitVec 5) (sub : BitVec 4) : (wordR op d a b c sub).toNat =
    op.toNat * 2 ^ 24 + d.toNat * 2 ^ 19 + a.toNat * 2 ^ 14 + b.toNat * 2 ^ 9 + c.toNat * 2 ^ 4 + sub.toNat := by
  have h : (wordR op d a b c sub).toNat = (op ++ (d ++ (a ++ (b ++ (c ++ sub))))).toNat := rfl
  simp only [h, toNat_append_add]
  omega

theorem wordI_toNat (op : BitVec 8) (d a : BitVec 5) (imm : BitVec 14) : (wordI op d a imm).toNat =
    op.toNat * 2 ^ 24 + d.toNat * 2 ^ 19 + a.toNat * 2 ^ 14 + imm.toNat := by
  have h : (wordI op d a imm).toNat = (op ++ (d ++ (a ++ imm))).toNat := rfl
  simp only [h, toNat_append_add]
  omega

theorem wordM_toNat (op : BitVec 8) (d x : BitVec 5) (sp : BitVec 2) (disp : BitVec 12) : (wordM op d x sp disp).toNat =
    op.toNat * 2 ^ 24 + d.toNat * 2 ^ 19 + x.toNat * 2 ^ 14 + sp.toNat * 2 ^ 12 + disp.toNat := by
  have h : (wordM op d x sp disp).toNat = (op ++ (d ++ (x ++ (sp ++ disp)))).toNat := rfl
  simp only [h, toNat_append_add]
  omega

theorem wordJ_toNat (op : BitVec 8) (a : BitVec 5) (imm : BitVec 19) : (wordJ op a imm).toNat =
    op.toNat * 2 ^ 24 + a.toNat * 2 ^ 19 + imm.toNat := by
  have h : (wordJ op a imm).toNat = (op ++ (a ++ imm)).toNat := rfl
  simp only [h, toNat_append_add]
  omega

section
variable (op : BitVec 8) (d a b c x : BitVec 5) (sub : BitVec 4) (i14 : BitVec 14) (i19 : BitVec 19) (sp : BitVec 2) (disp : BitVec 12)

/-- Fields of format R. -/
theorem fields_wordR : wOp (wordR op d a b c sub) = op ∧ wD (wordR op d a b c sub) = d ∧ wA (wordR op d a b c sub) = a
    ∧ wB (wordR op d a b c sub) = b ∧ wC (wordR op d a b c sub) = c ∧ wSub (wordR op d a b c sub) = sub := by
  refine ⟨?_, ?_, ?_, ?_, ?_, ?_⟩ <;> apply BitVec.eq_of_toNat_eq <;>
    simp only [wOp, wD, wA, wB, wC, wSub, BitVec.extractLsb'_toNat, wordR_toNat, Nat.shiftRight_eq_div_pow] <;> omega

/-- Fields of format I. -/
theorem fields_wordI : wOp (wordI op d a i14) = op ∧ wD (wordI op d a i14) = d ∧ wA (wordI op d a i14) = a
    ∧ wImm14 (wordI op d a i14) = i14 := by
  refine ⟨?_, ?_, ?_, ?_⟩ <;> apply BitVec.eq_of_toNat_eq <;>
    simp only [wOp, wD, wA, wImm14, BitVec.extractLsb'_toNat, wordI_toNat, Nat.shiftRight_eq_div_pow] <;> omega

/-- Fields of format M. -/
theorem fields_wordM : wOp (wordM op d x sp disp) = op ∧ wD (wordM op d x sp disp) = d ∧ wA (wordM op d x sp disp) = x
    ∧ wSp (wordM op d x sp disp) = sp ∧ wDisp (wordM op d x sp disp) = disp := by
  refine ⟨?_, ?_, ?_, ?_, ?_⟩ <;> apply BitVec.eq_of_toNat_eq <;>
    simp only [wOp, wD, wA, wSp, wDisp, BitVec.extractLsb'_toNat, wordM_toNat, Nat.shiftRight_eq_div_pow] <;> omega

/-- Fields of format J. -/
theorem fields_wordJ : wOp (wordJ op a i19) = op ∧ wD (wordJ op a i19) = a ∧ wImm19 (wordJ op a i19) = i19 := by
  refine ⟨?_, ?_, ?_⟩ <;> apply BitVec.eq_of_toNat_eq <;>
    simp only [wOp, wD, wImm19, BitVec.extractLsb'_toNat, wordJ_toNat, Nat.shiftRight_eq_div_pow] <;> omega

end

/-- A word is the word of its fields, in each format. -/
theorem word_of_fields (w : Word) : wordR (wOp w) (wD w) (wA w) (wB w) (wC w) (wSub w) = w ∧ wordI (wOp w) (wD w) (wA w) (wImm14 w) = w
    ∧ wordM (wOp w) (wD w) (wA w) (wSp w) (wDisp w) = w ∧ wordJ (wOp w) (wD w) (wImm19 w) = w := by
  refine ⟨?_, ?_, ?_, ?_⟩ <;> apply BitVec.eq_of_toNat_eq <;>
    simp only [wordR_toNat, wordI_toNat, wordM_toNat, wordJ_toNat, wOp, wD, wA, wB, wC, wSub, wImm14, wSp, wDisp, wImm19,
      BitVec.extractLsb'_toNat, Nat.shiftRight_eq_div_pow] <;> omega


/-- What WellFormed asks of SUB is that its unused bits are 0 (R307). -/
theorem sub_bit2_zero_iff (k : BitVec 4) : k.extractLsb' 2 1 = 0 ↔ (!k.getLsbD 2) = true := by decide +revert
theorem sub_high_zero_iff (k : BitVec 4) : k.extractLsb' 2 2 = 0 ↔ k.toNat < 4 := by decide +revert

section
variable (e : Fin 8) (d a : BitVec 5) (k : BitVec 4)

theorem wf_satn_iff : (Instr.satn e d a k).wf = true ↔ k.extractLsb' 2 1 = 0 := (sub_bit2_zero_iff k).symm

theorem wf_sext_iff : (Instr.sext e d a k).wf = true ↔ k.extractLsb' 2 2 = 0 := decide_eq_true_iff.trans (sub_high_zero_iff k).symm

theorem wf_zext_iff : (Instr.zext e d a k).wf = true ↔ k.extractLsb' 2 2 = 0 := decide_eq_true_iff.trans (sub_high_zero_iff k).symm

theorem wf_frnd_iff : (Instr.frnd e d a k).wf = true ↔ k.extractLsb' 2 2 = 0 := decide_eq_true_iff.trans (sub_high_zero_iff k).symm

end

/-- The word of a well-formed instruction decodes to it, on the engine that it names. -/
theorem exists_decode_of_encode {i : Instr} {w : Word} (hwf : i.wf = true) (h : beEncode i = some w) :
    ∃ e : Fin 8, beDecode e w = some i := by
  cases i
  all_goals injection h
  all_goals
    rename_i h
    have ho := congrArg (fun w => (wOp w).toNat) h
    have hd := congrArg wD h.symm
    have ha := congrArg wA h.symm
    have hb := congrArg wB h.symm
    have hc := congrArg wC h.symm
    have hs := congrArg wSub h.symm
    have hi := congrArg wImm14 h.symm
    have hsp := congrArg wSp h.symm
    have hdisp := congrArg wDisp h.symm
    have hj := congrArg wImm19 h.symm
    simp only [fields_wordR, fields_wordI, fields_wordM, fields_wordJ] at ho hd ha hb hc hs hi hsp hdisp hj
    clear h
    subst_vars
    constructor
  any_goals
    unfold beDecode
    rw [← ho]
  any_goals rfl
  any_goals exact congrArg (fun j : BitVec 19 => beDecodeSys _ _ j.toNat) hj
  any_goals simp only [wf_satn_iff, wf_sext_iff, wf_zext_iff, wf_frnd_iff] at hwf
  all_goals
    refine if_pos ?_
    simp [*]

theorem eq_ofNat_of_toNat {n : Nat} {x : BitVec n} {k : Nat} (h : x.toNat = k) : x = BitVec.ofNat n k := by simp [← h]

/-- A library entry's word is its SYS number with its register (R315). -/
theorem wf_encode_of_decodeSys {e : Fin 8} {w : Word} {i : Instr} (hop : wOp w = 0x86#8)
    (h : beDecodeSys e (wD w) (wImm19 w).toNat = some i) :
    i.wf = true ∧ beEncode i = some w := by
  obtain ⟨-, -, -, eJ⟩ := word_of_fields w
  rw [hop] at eJ
  unfold beDecodeSys at h
  split at h
  case h_22 => cases h
  all_goals
    rename_i hk
    rw [eq_ofNat_of_toNat hk] at eJ
    cases h
    exact ⟨rfl, congrArg some eJ⟩

/-- A word that decodes is the word of a well-formed instruction: its opcode and the fields that must be 0 stand in its format. -/
theorem wf_encode_of_decode {e : Fin 8} {w : Word} {i : Instr} (h : beDecode e w = some i) : i.wf = true ∧ beEncode i = some w := by
  unfold beDecode at h
  split at h
  case h_88 => exact wf_encode_of_decodeSys (eq_ofNat_of_toNat ‹_›) h
  case h_92 => cases h
  all_goals
    rename_i hop
    obtain ⟨eR, eI, eM, eJ⟩ := word_of_fields w
    rw [eq_ofNat_of_toNat hop] at eR eI eM eJ
    simp only [Option.ite_none_right_eq_some, Option.some.injEq, Bool.and_eq_true, decide_eq_true_eq] at h
  -- formats I and M, and J with both its fields in use
  any_goals (subst h; exact ⟨rfl, congrArg some (by assumption)⟩)
  -- formats R and J with unused fields
  all_goals
    obtain ⟨hz, rfl⟩ := h
    simp only [hz] at eR eJ
  -- SATN, SEXT, ZEXT and FRND, whose SUB may be other than 0
  case h_25 => exact ⟨(sub_bit2_zero_iff _).mp hz.2, congrArg some eR⟩
  case h_26 | h_27 | h_66 => exact ⟨decide_eq_true ((sub_high_zero_iff _).mp hz.2), congrArg some eR⟩
  all_goals exact ⟨rfl, congrArg some (by assumption)⟩

/-- Settles O9: each format's word has the fields it was put together from, and is the word of its fields; so an arm of the decoder and
the arm of the encoder with its opcode undo each other. -/
theorem blockCodeRoundTrip : Obligations.BlockCodeRoundTrip :=
  ⟨fun _ _ => exists_decode_of_encode, fun _ _ _ => wf_encode_of_decode⟩

/-- Settles O8: the decoder computed at the words of the worked example, and at words that spell nothing. -/
theorem blockCodeWords : Obligations.BlockCodeWords := fun _ => ⟨rfl, rfl, rfl, rfl, rfl, rfl, rfl, rfl, rfl, rfl, rfl, rfl, rfl⟩

end Sys2Proof.Machine
end

section
/-!
PROOFS of the family 13 to 22, the integer instructions of block code (O11, O12, O13, O15; R302, R310). An instruction that computes on
registers issues with the context it leaves, so each clause is an equation of its result.
-/
namespace Sys2Proof.Machine

/-- A command that computes on registers issues with the context its function leaves. -/
theorem Issues.alu {c : Instr} {s : State} {e : Fin 8} {n : Nat} {f : Ctx → Ctx} {P : Ctx → Prop} (hn : s.running e.val = some n)
    (hc : exec c s = s.alu e f) (hP : P (f (s.task n).ctx).next) : Issues c s e.val n P :=
  ⟨_, hc.trans (issues_alu s e n f hn), hP⟩

/-- A command whose function goes on from the counted state issues. -/
theorem Issues.ok {c : Instr} {s : State} {e : Fin 8} {n : Nat} {f : State → Nat → Ctx → CodeRes} {P : Ctx → Prop} {k : Ctx}
    (hn : s.running e.val = some n) (hc : exec c s = s.ends (s.issue e.val f))
    (hf : f (s.pmu (8 + e.val)) n (s.task n).ctx = .ok (s.pmu (8 + e.val), k)) (hP : P k) : Issues c s e.val n P :=
  ⟨k, hc.trans (issue_ok s e n f k hn hf), hP⟩

/-- A command whose function fails on the counted state traps. -/
theorem TrapsAs.of_error {c : Instr} {s : State} {e : Fin 8} {n : Nat} {f : State → Nat → Ctx → CodeRes} {cause : Fin 3}
    (hn : s.running e.val = some n) (hc : exec c s = s.ends (s.issue e.val f))
    (hf : f (s.pmu (8 + e.val)) n (s.task n).ctx = .error (cause.val + 1)) : TrapsAs c s e cause :=
  ⟨n, hn, hc.trans (issue_trap s e n f cause hn hf)⟩

/-- What writing a result does to a context, in terms of the result's value and flags. -/
theorem Ctx.Wrote.res_of {k : Ctx} {d : BitVec 5} {r : FRes} {v : Word64} {sat inv : Bool} (hv : r.v = v) (hs : r.sat = sat)
    (hi : r.inv = inv) : k.Wrote (k.res d r).next d v sat inv := by
  subst hv hs hi
  exact Ctx.wrote_res k d r

/-! Results of single instructions. -/

theorem toInt_min_ite (a b : Word64) : (if a.toInt ≤ b.toInt then a else b).toInt = min a.toInt b.toInt := by
  split <;> omega

theorem toInt_max_ite (a b : Word64) : (if a.toInt ≤ b.toInt then b else a).toInt = max a.toInt b.toInt := by
  split <;> omega

/-- A number between the ends of 64 bits is that of its word. -/
theorem toInt_ofInt64 {x : Int} (lo : -9223372036854775808 ≤ x) (hi : x ≤ 9223372036854775807) :
    (BitVec.ofInt 64 x).toInt = x := by
  rw [BitVec.toInt_ofInt]
  exact Int.bmod_eq_of_le (by omega) (by omega)

theorem toInt_range (a : Word64) : -9223372036854775808 ≤ a.toInt ∧ a.toInt ≤ 9223372036854775807 := by
  have h1 := a.le_toInt
  have h2 := a.toInt_lt
  omega

theorem toInt_limit (a b c : Word64) :
    (BitVec.ofInt 64 (min (max a.toInt b.toInt) c.toInt)).toInt = min (max a.toInt b.toInt) c.toInt := by
  have ha := toInt_range a
  have hb := toInt_range b
  have hc := toInt_range c
  exact toInt_ofInt64 (by omega) (by omega)

/-- Bits of an immediate of 14 bits, sign-extended. -/
theorem getLsbD_signExtend_imm (i : BitVec 14) {j : Nat} (hj : j < 64) : (i.signExtend 64).getLsbD j = i.getLsbD (min j 13) := by
  rw [BitVec.getLsbD_signExtend]
  by_cases h : j < 14
  · simp [hj, h, Nat.min_eq_left (show j ≤ 13 by omega)]
  · simp [hj, h, Nat.min_eq_right (show 13 ≤ j by omega), BitVec.msb_eq_getLsbD_last]

theorem toNat_bitx (a : Word64) (m : Nat) : ((a >>> m) &&& 1).toNat = a.toNat / 2 ^ m % 2 := by
  simp [BitVec.toNat_and, BitVec.toNat_ushiftRight, Nat.shiftRight_eq_div_pow, Nat.and_one_is_mod]

/-- A word with one bit put. -/
theorem getLsbD_bits (a : Word64) (c : Prop) [Decidable c] {m j : Nat} (hj : j < 64) :
    (if c then a ||| ((1 : Word64) <<< m) else a &&& ~~~((1 : Word64) <<< m)).getLsbD j
      = if j = m then decide c else a.getLsbD j := by
  have hbit : ((1 : Word64) <<< m).getLsbD j = decide (j = m) := by
    show (1#64 <<< m).getLsbD j = _
    rw [← BitVec.twoPow_eq, BitVec.getLsbD_twoPow]
    by_cases h : j = m
    · subst h; simp [hj]
    · simp [h, Ne.symm h]
  split
  · rw [BitVec.getLsbD_or, hbit]
    by_cases h : j = m <;> simp [*]
  · rw [BitVec.getLsbD_and, BitVec.getLsbD_not, hbit]
    by_cases h : j = m <;> simp [*]

/-- Settles O11: each of the six issues with the exact result of its operands, saturated. -/
theorem integerSaturates : Obligations.IntegerSaturates := by
  intro s e n d a b i hn
  refine ⟨.alu hn rfl (Ctx.saturated_satI ..), .alu hn rfl (Ctx.saturated_satI ..), .alu hn rfl (Ctx.saturated_satI ..),
    .alu hn rfl (Ctx.saturated_satI ..), .alu hn rfl ?_, .alu hn rfl (Ctx.saturated_satI ..)⟩
  rw [← Int.natCast_natAbs]
  exact Ctx.saturated_satI ..

/-- Settles O12: each instruction issues with its result, which is that of R310. -/
theorem integerExactResults : Obligations.IntegerExactResults := by
  intro s e n d a b c i hn
  dsimp only
  refine ⟨.alu hn rfl (Ctx.plain_res _ _ _ ?_), .alu hn rfl (Ctx.plain_res _ _ _ ?_), .alu hn rfl (Ctx.plain_res _ _ _ ?_),
    .alu hn rfl (Ctx.plain_res _ _ _ (toInt_min_ite ..)), .alu hn rfl (Ctx.plain_res _ _ _ (toInt_max_ite ..)),
    .alu hn rfl (Ctx.plain_res _ _ _ (toInt_limit ..)),
    .alu hn rfl (Ctx.plain_res _ _ _ ?_), .alu hn rfl (Ctx.plain_res _ _ _ ?_), .alu hn rfl (Ctx.plain_res _ _ _ ?_),
    .alu hn rfl (Ctx.plain_res _ _ _ ?_), .alu hn rfl (Ctx.plain_res _ _ _ ?_), .alu hn rfl (Ctx.plain_res _ _ _ ?_),
    .alu hn rfl (Ctx.plain_res _ _ _ ?_), .alu hn rfl (Ctx.plain_res _ _ _ (toNat_bitx ..)),
    .alu hn rfl (Ctx.plain_res _ _ _ fun j => getLsbD_bits _ _), .alu hn rfl (Ctx.plain_res _ _ _ ?_)⟩
  · exact BitVec.toNat_add ..
  · rw [BitVec.toNat_sub, Nat.add_comm]
  · exact BitVec.toNat_mul ..
  · exact fun j _ => BitVec.getLsbD_and
  · exact fun j _ => BitVec.getLsbD_or
  · exact fun j _ => BitVec.getLsbD_xor
  · intro j hj
    simp [hj]
  · intro j hj
    rw [BitVec.getLsbD_and, getLsbD_signExtend_imm i hj]
  · intro j hj
    rw [BitVec.getLsbD_or, getLsbD_signExtend_imm i hj]
  · intro j hj
    rw [BitVec.getLsbD_xor, getLsbD_signExtend_imm i hj]
  · exact ite_not ..

/-! Division (R310). -/

/-- A quotient truncated towards zero fits in 64 bits but for the least number by -1. -/
theorem tdiv_range {a b : Int} (ha : -9223372036854775808 ≤ a ∧ a ≤ 9223372036854775807) (hb : b ≠ 0)
    (hover : ¬ (a = -9223372036854775808 ∧ b = -1)) : -9223372036854775808 ≤ a.tdiv b ∧ a.tdiv b ≤ 9223372036854775807 := by
  have hle : (a.tdiv b).natAbs ≤ a.natAbs := by
    rw [Int.natAbs_tdiv]
    exact Nat.div_le_self ..
  by_cases hmin : a = -9223372036854775808
  · have hb2 : b ≠ -1 := fun h => hover ⟨hmin, h⟩
    by_cases h1 : b = 1
    · subst h1
      simp only [Int.tdiv_one]
      omega
    · have : (a.tdiv b).natAbs ≤ 4611686018427387904 := by
        rw [Int.natAbs_tdiv, hmin]
        exact Nat.div_le_of_le_mul (by omega)
      omega
  · omega

/-- The sign of a zero dividend's quotient. -/
theorem divR_zero_toInt (a : Word64) : (divR a 0).v.toInt
    = if 0 < a.toInt then 9223372036854775807 else if a.toInt < 0 then -9223372036854775808 else 0 := by
  simp only [divR, if_true]
  by_cases h1 : a.toInt < 0
  · rw [if_pos h1, if_neg (by omega), if_pos h1]; decide
  · by_cases h2 : a.toInt = 0
    · rw [if_neg h1, if_pos h2, if_neg (by omega), if_neg h1]; decide
    · rw [if_neg h1, if_neg h2, if_pos (by omega)]; decide

/-- DIV of the least number by -1 saturates; every other quotient is exact. -/
theorem divR_ne_zero {a b : Word64} (hb : b ≠ 0) :
    (divR a b).sat = decide (a.toInt = -9223372036854775808 ∧ b.toInt = -1) ∧ (divR a b).inv = false
    ∧ (divR a b).v.toInt = if a.toInt = -9223372036854775808 ∧ b.toInt = -1 then 9223372036854775807 else a.toInt.tdiv b.toInt := by
  have hb' : b.toInt ≠ 0 := fun h => hb (BitVec.eq_of_toInt_eq (by simpa using h))
  simp only [divR, if_neg hb, satI_v, satI_sat]
  by_cases h : a.toInt = -9223372036854775808 ∧ b.toInt = -1
  · rw [if_pos h, h.1, h.2]
    exact ⟨by decide, rfl, by decide⟩
  · obtain ⟨lo, hi⟩ := tdiv_range (toInt_range a) hb' h
    rw [if_neg h]
    refine ⟨?_, rfl, by omega⟩
    rw [decide_eq_decide]
    constructor
    · intro h'; omega
    · intro h'; exact absurd h' h

/-- The remainder has the sign of the dividend and fits. -/
theorem modR_toInt {a b : Word64} (hb : b ≠ 0) : (BitVec.ofInt 64 (a.toInt.tmod b.toInt)).toInt = a.toInt - b.toInt * a.toInt.tdiv b.toInt := by
  have hle : (a.toInt.tmod b.toInt).natAbs ≤ a.toInt.natAbs := by
    rw [Int.natAbs_tmod]
    exact Nat.mod_le ..
  have hlt : (a.toInt.tmod b.toInt).natAbs < b.toInt.natAbs := by
    have : b.toInt ≠ 0 := fun h => hb (BitVec.eq_of_toInt_eq (by simpa using h))
    rw [Int.natAbs_tmod]
    exact Nat.mod_lt _ (by omega)
  have ha := toInt_range a
  have hr := toInt_range b
  rw [toInt_ofInt64 (by omega) (by omega), Int.tmod_def]

/-- Settles O13: the three results of R310, for a zero divisor and for every other. -/
theorem divisionAndRemainder : Obligations.DivisionAndRemainder := by
  intro s e n d a b hn
  dsimp only
  refine ⟨fun hb => .alu hn rfl ⟨_, .res_of rfl ?_ ?_, ?_⟩, fun hb => .alu hn rfl ⟨_, .res_of rfl ?_ ?_, (divR_ne_zero hb).2.2⟩,
    fun hb => .alu hn rfl ⟨_, .res_of rfl ?_ ?_, ?_⟩, fun hb => .alu hn rfl ?_, fun hb => .alu hn rfl (.res_of ?_ ?_ ?_),
    fun hb => .alu hn rfl ?_⟩
  · simp [divR, hb]
  · simp [divR, hb]
  · rw [hb, divR_zero_toInt]
  · exact (divR_ne_zero hb).1
  · exact (divR_ne_zero hb).2.1
  · simp [divuR, hb]
  · simp [divuR, hb]
  · simp [divuR, hb]
  · rw [divuR, if_neg hb]
    exact Ctx.plain_res _ _ _ (BitVec.toNat_udiv ..)
  · simp [modR, hb]
  · simp [modR, hb]
  · simp [modR, hb]
  · rw [modR, if_neg hb]
    exact Ctx.plain_res _ _ _ (modR_toInt hb)

/-! Comparisons (R310). -/

/-- A register's truth value. -/
theorem boolW_cases (p : Prop) [Decidable p] : boolW (decide p) = 1 ∧ p ∨ boolW (decide p) = 0 ∧ ¬ p := by
  by_cases h : p
  · exact Or.inl ⟨by simp [boolW, h], h⟩
  · exact Or.inr ⟨by simp [boolW, h], h⟩

/-- A comparison issues with its truth value. -/
theorem Issues.truth {c : Instr} {s : State} {e : Fin 8} {n : Nat} {d : BitVec 5} {p : Ctx → Prop} [DecidablePred p] {q : Prop}
    (hn : s.running e.val = some n) (hc : exec c s = s.alu e fun k => k.res d (plainR (boolW (decide (p k)))))
    (hq : p (s.task n).ctx ↔ q) : Issues c s e.val n fun k' =>
      ∃ v : Word64, (s.task n).ctx.Wrote k' d v false false ∧ (v = 1 ∧ q ∨ v = 0 ∧ ¬ q) :=
  .alu hn hc ⟨_, Ctx.wrote_res .., propext hq ▸ boolW_cases (p (s.task n).ctx)⟩

theorem word_eq_iff_bits (a b : Word64) : a = b ↔ ∀ j < 64, a.getLsbD j = b.getLsbD j :=
  ⟨fun h _ _ => h ▸ rfl, BitVec.eq_of_getLsbD_eq⟩

theorem word_ne_iff_bits (a b : Word64) : a ≠ b ↔ ∃ j < 64, a.getLsbD j ≠ b.getLsbD j := by
  rw [ne_eq, word_eq_iff_bits]
  push Not
  rfl

theorem eq_imm_iff (a : Word64) (i : BitVec 14) : a = i.signExtend 64 ↔ a.toInt = i.toInt := by
  rw [← BitVec.toInt_inj, BitVec.toInt_signExtend_of_le (by decide)]

/-- Settles O15: each comparison issues with 1 where it holds and 0 where it does not. -/
theorem compareInstructions : Obligations.CompareInstructions := by
  intro s e n d a b i hn
  exact ⟨.truth (p := fun k => k.r a = k.r b) hn rfl (word_eq_iff_bits ..), .truth (p := fun k => k.r a ≠ k.r b) hn rfl (word_ne_iff_bits ..),
    .truth (p := fun k => (k.r a).toInt < (k.r b).toInt) hn rfl Iff.rfl, .truth (p := fun k => (k.r a).toInt ≤ (k.r b).toInt) hn rfl Iff.rfl,
    .truth (p := fun k => (k.r a).toNat < (k.r b).toNat) hn rfl Iff.rfl, .truth (p := fun k => (k.r a).toNat ≤ (k.r b).toNat) hn rfl Iff.rfl,
    .truth (p := fun k => k.r a = i.signExtend 64) hn rfl (eq_imm_iff ..), .truth (p := fun k => (k.r a).toInt < i.toInt) hn rfl Iff.rfl⟩

end Sys2Proof.Machine
end

section
/-!
PROOFS of the family 13 to 22, shifts, widths, constants and control (O14, O16, O21; R307, R310, R312 to R314).
-/
namespace Sys2Proof.Machine

/-! Shifts and rotates (R310). -/

theorem toNat_shl (a : Word64) (m : Nat) : (a <<< m).toNat = a.toNat * 2 ^ m % 2 ^ 64 := by
  rw [BitVec.toNat_shiftLeft, Nat.shiftLeft_eq]

theorem toNat_shr (a : Word64) (m : Nat) : (a >>> m).toNat = a.toNat / 2 ^ m := by
  rw [BitVec.toNat_ushiftRight, Nat.shiftRight_eq_div_pow]

theorem toInt_sar (a : Word64) (m : Nat) : (a.sshiftRight m).toInt = a.toInt / 2 ^ m := by
  rw [BitVec.toInt_sshiftRight, Int.shiftRight_eq_div_pow]
  norm_cast

theorem getLsbD_rol (a : Word64) {m j : Nat} (hm : m < 64) (hj : j < 64) :
    (a.rotateLeft m).getLsbD j = a.getLsbD ((j + (64 - m)) % 64) := by
  rw [BitVec.getLsbD_rotateLeft, Nat.mod_eq_of_lt hm]
  by_cases h : j < m
  · rw [decide_eq_true h, cond_true, show (j + (64 - m)) % 64 = 64 - m + j by omega]
  · rw [decide_eq_false h, cond_false, decide_eq_true hj, Bool.true_and, show (j + (64 - m)) % 64 = j - m by omega]

theorem getLsbD_ror (a : Word64) {m j : Nat} (hm : m < 64) (hj : j < 64) :
    (a.rotateRight m).getLsbD j = a.getLsbD ((j + m) % 64) := by
  rw [BitVec.getLsbD_rotateRight, Nat.mod_eq_of_lt hm]
  by_cases h : j < 64 - m
  · rw [decide_eq_true h, cond_true, show (j + m) % 64 = m + j by omega]
  · rw [decide_eq_false h, cond_false, decide_eq_true hj, Bool.true_and, show (j + m) % 64 = j - (64 - m) by omega]

/-! Widths (R310). -/

theorem clampI_range {lo hi x : Int} (hlo : -9223372036854775808 ≤ lo ∧ lo ≤ 9223372036854775807)
    (hx : -9223372036854775808 ≤ x ∧ x ≤ 9223372036854775807) :
    -9223372036854775808 ≤ clampI lo hi x ∧ clampI lo hi x ≤ 9223372036854775807 := by
  unfold clampI
  omega

/-- What SATN gives for a width that the spec names. -/
theorem toInt_satnR (a : Word64) {k : Nat} (hk : k < 3) (uns : Bool) : (satnR a k uns).v.toInt
    = if uns then max 0 (min (2 ^ (8 * 2 ^ k) - 1) a.toInt)
      else max (-2 ^ (8 * 2 ^ k - 1)) (min (2 ^ (8 * 2 ^ k - 1) - 1) a.toInt) := by
  have ha := toInt_range a
  rw [satnR, toInt_ofInt64]
  · interval_cases k <;> cases uns <;> rfl
  all_goals
    have h := clampI_range (lo := if uns then 0 else -((2 ^ (widthBits k - 1) : Nat) : Int))
      (hi := if uns then ((2 ^ widthBits k : Nat) : Int) - 1 else ((2 ^ (widthBits k - 1) : Nat) : Int) - 1)
      (by interval_cases k <;> cases uns <;> decide) ha
  · exact h.1
  · exact h.2

/-- SATN sets SAT when the value changed. -/
theorem satnR_sat (a : Word64) {k : Nat} (hk : k < 3) (uns : Bool) : (satnR a k uns).sat = decide ((satnR a k uns).v ≠ a) := by
  have h := toInt_satnR a hk uns
  have ha := toInt_range a
  show decide (_ ≠ a.toInt) = _
  rw [decide_eq_decide, not_iff_not, ← BitVec.toInt_inj, h]
  interval_cases k <;> cases uns <;> rfl

/-- A number of w bits, sign-extended, has its top bit from there on. -/
theorem getLsbD_sext (a : Word64) {w j : Nat} (h0 : 0 < w) (hw : w ≤ 64) (hj : j < 64) :
    (sext w a.toNat).getLsbD j = a.getLsbD (min j (w - 1)) := by
  rw [sext, BitVec.getLsbD_signExtend, decide_eq_true hj, Bool.true_and]
  by_cases h : j < w
  · rw [if_pos h, Nat.min_eq_left (by omega), BitVec.getLsbD_ofNat, decide_eq_true h, Bool.true_and]
    rfl
  · rw [if_neg h, Nat.min_eq_right (by omega), BitVec.msb_eq_getLsbD_last, BitVec.getLsbD_ofNat, decide_eq_true (by omega),
      Bool.true_and]
    rfl

theorem toNat_zext_mod (a : Word64) (w : Nat) : (zext (a.toNat % 2 ^ w)).toNat = a.toNat % 2 ^ w := by
  rw [zext, BitVec.toNat_ofNat, Nat.mod_eq_of_lt]
  exact Nat.lt_of_le_of_lt (Nat.mod_le ..) a.isLt

/-- An instruction that goes on from a state with an open value drawn. -/
theorem issue_drawn {s : State} {e : Fin 8} {n : Nat} {f : State → Nat → Ctx → CodeRes} {k : Ctx} (hn : s.running e.val = some n)
    (hf : f (s.pmu (8 + e.val)) n (s.task n).ctx = .ok ((s.pmu (8 + e.val)).drawn, k)) :
    s.ends (s.issue e.val f) = .next (s.issued e.val n k).drawn := by
  have hp : (s.issued e.val n k).drawn.pending = s.pending := by simp [State.issued]
  have h : s.issue e.val f = (s.issued e.val n k).drawn := by
    simp only [State.issue, hn, State.pmu_task, hf, State.issued]
    rfl
  rw [State.ends, h, ← hp, State.requeue_self]

theorem toNat_low2 (u : BitVec 4) : (u.extractLsb' 0 2).toNat = u.toNat % 4 := by simp

/-- Settles O14: shifts and rotates by the low six bits of the amount, then SATN, SEXT and ZEXT by their traps, their widths and the
width that the spec does not name. -/
theorem shiftsRotatesAndWidths : Obligations.ShiftsRotatesAndWidths := by
  intro s e n d a b i u hn
  have hm : ((s.task n).ctx.r b).toNat % 64 < 64 := Nat.mod_lt _ (by decide)
  have hwidth : u.toNat < 3 → 0 < 8 * 2 ^ (u.toNat % 4) ∧ 8 * 2 ^ (u.toNat % 4) ≤ 64 ∧ widthBits u.toNat = 8 * 2 ^ (u.toNat % 4) := by
    intro h
    generalize u.toNat = k at h
    interval_cases k <;> decide
  have hfree : (s.pmu (8 + e.val)).free = s.free := by simp [State.free]
  refine ⟨.alu hn rfl (Ctx.plain_res _ _ _ (toNat_shl ..)), .alu hn rfl (Ctx.plain_res _ _ _ (toNat_shl ..)),
    .alu hn rfl (Ctx.plain_res _ _ _ (toNat_shr ..)), .alu hn rfl (Ctx.plain_res _ _ _ (toNat_shr ..)),
    .alu hn rfl (Ctx.plain_res _ _ _ (toInt_sar ..)), .alu hn rfl (Ctx.plain_res _ _ _ (toInt_sar ..)),
    .alu hn rfl (Ctx.plain_res _ _ _ fun _ => getLsbD_rol _ hm), .alu hn rfl (Ctx.plain_res _ _ _ fun _ => getLsbD_ror _ hm),
    fun hu => .of_error hn rfl (if_pos hu), fun hu hk => ?satn, fun hu => ⟨.of_error hn rfl (if_pos hu), .of_error hn rfl (if_pos hu)⟩,
    fun hu => ?sext, fun hu => ?zext, fun hu hk => ?free, fun hu => ?frees⟩
  case satn =>
    have hk3 : u.toNat % 4 < 3 := by omega
    refine .ok hn rfl ((if_neg (Bool.eq_false_iff.mp hu)).trans (if_neg ?_))
      ⟨_, .res_of rfl (satnR_sat _ (toNat_low2 u ▸ hk3) _) rfl, toNat_low2 u ▸ toInt_satnR _ (toNat_low2 u ▸ hk3) _⟩
    exact fun h => hk (toNat_low2 u ▸ congrArg BitVec.toNat h)
  case sext =>
    obtain ⟨h0, h64, hw⟩ := hwidth hu
    refine .ok hn rfl ((if_neg (by omega)).trans (if_neg (fun h => by simp [h] at hu))) (Ctx.plain_w _ _ _ fun j hj => ?_)
    rw [hw]
    exact getLsbD_sext _ h0 h64 hj
  case zext =>
    obtain ⟨-, -, hw⟩ := hwidth hu
    refine .ok hn rfl ((if_neg (by omega)).trans (if_neg (fun h => by simp [h] at hu))) (Ctx.plain_w _ _ _ ?_)
    rw [hw]
    exact toNat_zext_mod ..
  case free =>
    refine ⟨_, issue_drawn hn ((if_neg (Bool.eq_false_iff.mp hu)).trans (if_pos ?_)), .res_of hfree (by rw [hfree]) rfl⟩
    exact BitVec.eq_of_toNat_eq ((toNat_low2 u).trans hk)
  case frees =>
    have h3 : u = 3 := BitVec.eq_of_toNat_eq hu
    subst h3
    exact ⟨⟨_, issue_drawn hn rfl, hfree ▸ Ctx.wrote_w ..⟩, ⟨_, issue_drawn hn rfl, hfree ▸ Ctx.wrote_w ..⟩⟩

/-! Constants, addresses and BSTAT (R310, R312, R313). -/

/-- A little-endian number is the sum of its bytes by their weights. -/
theorem leNat_map_range (f : Nat → Byte) : ∀ w : Nat, leNat ((List.range w).map f) = ((List.range w).map fun j => (f j).toNat * 256 ^ j).sum := by
  intro w
  induction w generalizing f with
  | zero => rfl
  | succ w ih =>
    rw [List.range_succ_eq_map, List.map_cons, List.map_map, List.map_cons, List.map_map, leNat, ih, List.sum_cons, pow_zero, mul_one,
      ← List.sum_map_mul_left]
    congr 2
    refine List.map_congr_left fun j _ => ?_
    simp only [Function.comp, pow_succ]
    ring

theorem leNat_lt : ∀ l : List Byte, leNat l < 256 ^ l.length
  | [] => by decide
  | b :: t => by
    have := leNat_lt t
    have hb := b.isLt
    rw [leNat, List.length_cons, pow_succ]
    omega

/-- A 64-bit word of memory is its eight bytes. -/
theorem toNat_ld64 (s : State) (a : Nat) : (s.ld64 a).toNat = ((List.range 8).map fun j => (s.byte (a + j)).toNat * 256 ^ j).sum := by
  rw [State.ld64, BitVec.toNat_ofNat, ← leNat_map_range, Nat.mod_eq_of_lt]
  · rfl
  · have h := leNat_lt (s.bytes a 8)
    rwa [State.bytes, List.length_map, List.length_range] at h

theorem codeBase_pmu (s : State) (e : Fin 8) (m : Nat) (hm : m < 256) :
    (s.pmu m).codeBase e.val = 0x1600000 + 0x40000 * e.val + 0x20000 * s.get (engHalf e.val) := by
  rw [State.codeBase, State.pmu_get s m hm (by simp only [Book, engHalf]; omega)]

theorem toNat_lea (ip : BitVec 24) (x : Word64) (disp : BitVec 12) :
    (BitVec.ofNat 64 ip.toNat + x + BitVec.ofNat 64 (8 * disp.toNat)).toNat = (ip.toNat + x.toNat + 8 * disp.toNat) % 2 ^ 64 := by
  simp only [BitVec.toNat_add, BitVec.toNat_ofNat]
  omega

theorem toNat_bstat (k : Ctx) : k.bstat.toNat = k.sat.toNat + 2 * k.inv.toNat := by
  unfold Ctx.bstat
  cases k.sat <;> cases k.inv <;> rfl

/-- Settles O16: each of the six by its result; LDK and LEA by their traps besides. -/
theorem constantsAddressesAndStatus : Obligations.ConstantsAddressesAndStatus := by
  intro s e n d x i sp disp hn
  have hp : (((s.task n).ctx.pc.toNat - (s.task n).ctx.pc.toNat % 8 : Nat) : Int) = ((s.task n).ctx.pc.toNat / 8 * 8 : Nat) := by
    congr 1
    omega
  dsimp only
  rw [hp]
  refine ⟨.alu hn rfl ⟨fun _ => rfl, rfl, rfl, rfl, rfl, rfl⟩, .alu hn rfl (Ctx.plain_w _ _ _ (BitVec.toInt_signExtend_of_le (by decide))),
    fun hlo hhi => .ok hn rfl (if_neg (by omega)) (Ctx.plain_w _ _ _ ?_), fun h => .of_error hn rfl (if_pos h),
    .ok hn rfl (if_neg (by simp)) (Ctx.plain_w _ _ _ (toNat_lea ..)), fun h => .of_error hn rfl (if_pos h),
    .alu hn rfl (Ctx.plain_w _ _ _ (toNat_bstat _)), .alu hn rfl ⟨rfl, rfl, rfl, rfl, rfl, fun _ => rfl⟩⟩
  rw [toNat_ld64, codeBase_pmu s e _ (book_engine e)]

/-! Branches and calls (R313, R314). -/

/-- A branch target: the sum of the statement is that of the model, modulo the size of a code half. -/
theorem branch_pc (pc : BitVec 17) (i : BitVec 19) : pc + (i.signExtend 17 <<< 2) = BitVec.ofInt 17 (pc.toNat + i.toInt * 4) := by
  have h : i.signExtend 17 <<< 2 = BitVec.ofInt 17 (i.toInt * 4) := by
    rw [BitVec.shiftLeft_eq_mul_twoPow, BitVec.ofInt_mul]
    rfl
  rw [h, BitVec.ofInt_add]
  congr 1
  exact BitVec.eq_of_toNat_eq (by simp)

/-- CALL and CALLB push where the stack has room. -/
theorem push_of_room {k : Ctx} (h : k.stack.length < 16) : k.push = some { k with stack := (k.pc + 4, k.iptr) :: k.stack } :=
  if_neg (by omega)

theorem push_of_full {k : Ctx} (h : 16 ≤ k.stack.length) : k.push = none := if_pos h

/-- CALL and CALLB where the stack has room: the code after the push runs. -/
theorem match_push_of_room {k : Ctx} {α : Type} {x : α} {f : Ctx → α} (h : k.stack.length < 16) :
    (match k.push with | none => x | some k' => f k') = f { k with stack := (k.pc + 4, k.iptr) :: k.stack } := by
  rw [push_of_room h]

/-- CALL and CALLB on a full stack: the trap. -/
theorem match_push_of_full {k : Ctx} {α : Type} {x : α} {f : Ctx → α} (h : 16 ≤ k.stack.length) :
    (match k.push with | none => x | some k' => f k') = x := by
  rw [push_of_full h]

/-- Settles O21: the context each of them leaves, and the traps of a full stack and an empty one. -/
theorem branchesAndCalls : Obligations.BranchesAndCalls := by
  intro s e n a i hn
  dsimp only
  rw [← branch_pc]
  refine ⟨.ok hn rfl rfl ⟨fun _ => rfl, rfl, rfl, rfl, rfl, rfl⟩, fun h => .ok hn rfl rfl ?_, fun h => .ok hn rfl rfl ?_,
    fun h => .ok hn rfl rfl ?_, fun h => .ok hn rfl rfl ?_,
    fun h => .ok hn rfl (match_push_of_room h) ⟨fun _ => rfl, rfl, rfl, rfl, rfl, rfl⟩,
    fun h => .ok hn rfl (match_push_of_room h) ⟨fun _ => rfl, rfl, rfl, rfl, rfl, rfl⟩,
    fun h => ⟨.of_error hn rfl (match_push_of_full h), .of_error hn rfl (match_push_of_full h)⟩,
    fun pc ip st h => ?ret, fun h => ?empty⟩
  · rw [if_pos h]
    exact ⟨fun _ => rfl, rfl, rfl, rfl, rfl, rfl⟩
  · rw [if_neg h]
    exact ⟨fun _ => rfl, rfl, rfl, rfl, rfl, rfl⟩
  · rw [if_pos h]
    exact ⟨fun _ => rfl, rfl, rfl, rfl, rfl, rfl⟩
  · rw [if_neg (not_not.mpr h)]
    exact ⟨fun _ => rfl, rfl, rfl, rfl, rfl, rfl⟩
  case ret =>
    refine .ok (k := { (s.task n).ctx with pc := pc, iptr := ip, stack := st }) hn rfl ?_ ⟨fun _ => rfl, rfl, rfl, rfl, rfl, rfl⟩
    rw [h]
  case empty =>
    refine .of_error hn rfl ?_
    rw [h]
    rfl

end Sys2Proof.Machine
end

-- ==== Floating-point block code ====
section
/-!
PROOFS. Floating-point block code (O17, O18): each instruction writes what the model's binary64 function gives; the special
values follow from what a bit pattern unpacks to.
-/
namespace Sys2Proof.Machine

/-! What a bit pattern unpacks to. -/

theorem fsign_iff (a : Word64) : fsign a = true ↔ 2 ^ 63 ≤ a.toNat := by
  rw [fsign, BitVec.getMsbD_eq_getLsbD, BitVec.getLsbD, Nat.testBit_eq_decide_div_mod_eq]
  have := a.isLt
  simp
  omega

theorem toNat_magnitude (a : Word64) : (a &&& 0x7FFFFFFFFFFFFFFF#64).toNat = a.toNat % 2 ^ 63 := by
  rw [BitVec.toNat_and]
  exact Nat.and_two_pow_sub_one_eq_mod a.toNat 63

/-- A pattern is a NaN, an infinity or a finite value, of the sign of its top bit; a finite value is zero where the other bits are. -/
theorem up_cases (a : Word64) : up a = .nan ∨ up a = .inf (fsign a)
    ∨ ∃ (m : Nat) (e : Int), up a = .fin (fsign a) m e ∧ (m = 0 ↔ a.toNat % 2 ^ 63 = 0) := by
  have hs : (a.toNat / 2 ^ (52 + 11) % 2 == 1) = fsign a := by
    rw [Bool.eq_iff_iff, fsign_iff, beq_iff_eq]
    have := a.isLt
    omega
  rw [up, unpack]
  simp only [fmt64, Nat.add_one_sub_one, hs, beq_iff_eq]
  by_cases h1 : a.toNat / 2 ^ 52 % 2 ^ 11 = 2 ^ 11 - 1
  · by_cases h2 : a.toNat % 2 ^ 52 = 0
    · exact .inr (.inl (by rw [if_pos h1, if_pos h2]))
    · exact .inl (by rw [if_pos h1, if_neg h2])
  · rw [if_neg h1]
    by_cases h3 : a.toNat / 2 ^ 52 % 2 ^ 11 = 0
    · rw [if_pos h3]
      exact .inr (.inr ⟨_, _, rfl, by omega⟩)
    · rw [if_neg h3]
      exact .inr (.inr ⟨_, _, rfl, by omega⟩)

theorem fisNaN_iff (a : Word64) : fisNaN a = true ↔ up a = .nan := beq_iff_eq

/-- The order key is the signed magnitude. -/
theorem forderKey_eq (a : Word64) : forderKey a = if fsign a then -((a.toNat % 2 ^ 63 : Nat) : Int) else ((a.toNat % 2 ^ 63 : Nat) : Int) := by
  rw [forderKey, toNat_magnitude]

theorem forderKey_eq_zero_iff (a : Word64) : forderKey a = 0 ↔ a.toNat % 2 ^ 63 = 0 := by
  rw [forderKey_eq]
  split <;> omega

/-- A pattern equal to zero is a signed zero. -/
theorem up_of_feq_zero {a : Word64} (h : feq a 0 = true) : ∃ e : Int, up a = .fin (fsign a) 0 e := by
  simp only [feq, Bool.and_eq_true, Bool.not_eq_true', decide_eq_true_eq] at h
  obtain ⟨⟨hn, -⟩, hk⟩ := h
  have hz : a.toNat % 2 ^ 63 = 0 := (forderKey_eq_zero_iff a).mp hk
  have hl := a.isLt
  obtain ha | ha : a = 0 ∨ a = 0x8000000000000000 := by
    rw [← BitVec.toNat_inj, ← BitVec.toNat_inj]
    simp
    omega
  · subst ha; exact ⟨-1074, by decide⟩
  · subst ha; exact ⟨-1074, by decide⟩

/-- A finite pattern not equal to zero has digits. -/
theorem up_of_feq_zero_false {a : Word64} (hf : fisFin a = true) (h : feq a 0 = false) :
    ∃ (m : Nat) (e : Int), up a = .fin (fsign a) m e ∧ m ≠ 0 := by
  rcases up_cases a with hu | hu | ⟨m, e, hu, hm⟩
  · simp [fisFin, hu] at hf
  · simp [fisFin, hu] at hf
  · refine ⟨m, e, hu, fun h0 => ?_⟩
    have hn : fisNaN a = false := by simp [fisNaN, hu]
    have hk : forderKey a = 0 := (forderKey_eq_zero_iff a).mpr (hm.mp h0)
    have h00 : fisNaN 0 = false := by decide
    have hk0 : forderKey 0 = 0 := by decide
    rw [feq, hn, h00, hk, hk0] at h
    exact absurd h (by decide)

/-- A pattern below zero has its sign bit and is not a zero. -/
theorem up_of_flt_zero {a : Word64} (h : flt a 0 = true) :
    up a = .inf true ∨ ∃ (m : Nat) (e : Int), up a = .fin true m e ∧ m ≠ 0 := by
  simp only [flt, Bool.and_eq_true, Bool.not_eq_true', decide_eq_true_eq] at h
  obtain ⟨⟨hn, -⟩, hk⟩ := h
  have h0 : forderKey 0 = 0 := by decide
  rw [h0, forderKey_eq] at hk
  have hs : fsign a = true := by
    by_contra hc
    rw [if_neg hc] at hk
    omega
  rw [if_pos hs] at hk
  rcases up_cases a with hu | hu | ⟨m, e, hu, hm⟩
  · rw [(fisNaN_iff a).mpr hu] at hn
    exact absurd hn (by decide)
  · exact .inl (hs ▸ hu)
  · exact .inr ⟨m, e, hs ▸ hu, fun h => by have := hm.mp h; omega⟩

/-! NaN operands give the default NaN and set nothing (R311). -/

theorem addU_nan_left (v : Unp) : addU .nan v = (nan64, noF) := rfl

theorem addU_nan_right (u : Unp) : addU u .nan = (nan64, noF) := by cases u <;> rfl

theorem mulExact_nan {u v : Unp} (h : u = .nan ∨ v = .nan) : mulExact u v = some .nan := by
  rcases h with rfl | rfl
  · rfl
  · cases u <;> rfl

theorem faddF_nan {a b : Word64} (h : up a = .nan ∨ up b = .nan) : faddF a b = (nan64, noF) := by
  rcases h with h | h
  · rw [faddF, h, addU_nan_left]
  · rw [faddF, h, addU_nan_right]

theorem fsubF_nan {a b : Word64} (h : up a = .nan ∨ up b = .nan) : fsubF a b = (nan64, noF) := by
  rcases h with h | h
  · rw [fsubF, h, addU_nan_left]
  · rw [fsubF, h, negU, addU_nan_right]

theorem fmulF_nan {a b : Word64} (h : up a = .nan ∨ up b = .nan) : fmulF a b = (nan64, noF) := by
  rw [fmulF, mulExact_nan h]
  decide

theorem fdivF_nan {a b : Word64} (h : up a = .nan ∨ up b = .nan) : fdivF a b = (nan64, noF) := by
  rw [fdivF]
  rcases h with h | h
  · rw [h]
  · rw [h]
    cases up a <;> rfl

theorem fmaF_nan_left {a b c : Word64} (h : up a = .nan ∨ up b = .nan) : fmaF a b c = (nan64, noF) := by
  rw [fmaF, mulExact_nan h]
  exact addU_nan_left _

theorem fnmsF_nan_left {a b c : Word64} (h : up a = .nan ∨ up b = .nan) : fnmsF a b c = (nan64, noF) := by
  rw [fnmsF, mulExact_nan h]
  exact addU_nan_right _

theorem fmaF_nan_right {a b c : Word64} (h : up c = .nan) : fmaF a b c = (nan64, noF) := by
  rw [fmaF, h]
  cases mulExact (up a) (up b) with
  | none => rfl
  | some u => exact addU_nan_right u

theorem fnmsF_nan_right {a b c : Word64} (h : up c = .nan) : fnmsF a b c = (nan64, noF) := by
  rw [fnmsF, h]
  cases mulExact (up a) (up b) <;> rfl

theorem fsqrtF_nan {a : Word64} (h : up a = .nan) : fsqrtF a = (nan64, noF) := by rw [fsqrtF, h]

/-! Divisions by zero and invalid operations (R311). -/

theorem fdivF_zero {a b : Word64} (hf : fisFin a = true) (ha : feq a 0 = false) (hb : feq b 0 = true) :
    fdivF a b = (if fsign a = fsign b then 0x7FF0000000000000 else 0xFFF0000000000000, ⟨false, true⟩) := by
  obtain ⟨m, e, hua, hm⟩ := up_of_feq_zero_false hf ha
  obtain ⟨e', hub⟩ := up_of_feq_zero hb
  simp only [fdivF, hua, hub, beq_self_eq_true, if_true, beq_iff_eq, if_neg hm]
  cases fsign a <;> cases fsign b <;> rfl

theorem fdivF_zero_zero {a b : Word64} (ha : feq a 0 = true) (hb : feq b 0 = true) : fdivF a b = (nan64, ⟨false, true⟩) := by
  obtain ⟨e, hua⟩ := up_of_feq_zero ha
  obtain ⟨e', hub⟩ := up_of_feq_zero hb
  rw [fdivF, hua, hub]
  rfl

theorem fsqrtF_neg {a : Word64} (h : flt a 0 = true) : fsqrtF a = (nan64, ⟨false, true⟩) := by
  rcases up_of_flt_zero h with hu | ⟨m, e, hu, hm⟩
  · rw [fsqrtF, hu]
    rfl
  · rw [fsqrtF, hu]
    exact (if_neg (by simpa using hm)).trans (if_pos rfl)

/-! The instructions. -/

/-- An instruction whose result is a pair of value and flags writes them. -/
theorem Issues.float {c : Instr} {s : State} {e : Fin 8} {n : Nat} {d : BitVec 5} {g : Ctx → Word64 × FFlags} {r : Word64 × FFlags}
    (hn : s.running e.val = some n) (hc : exec c s = s.alu e fun k => k.res d (ofF (g k))) (hr : g (s.task n).ctx = r) :
    Issues c s e.val n fun k' => (s.task n).ctx.Wrote k' d r.1 r.2.ovf r.2.inv :=
  .alu hn hc (hr ▸ Ctx.wrote_res ..)

/-- Settles O17: each instruction writes what its function gives, and the function's special values. -/
theorem floatingArithmetic : Obligations.FloatingArithmetic := by
  intro s e n d a b c u hn
  refine ⟨.float hn rfl rfl, .float hn rfl rfl, .float hn rfl rfl, .float hn rfl rfl, .float hn rfl rfl, .float hn rfl rfl, .float hn rfl rfl,
    .alu hn rfl (Ctx.wrote_res ..), .alu hn rfl (Ctx.wrote_res ..), fun hu => .ok hn rfl (if_neg (by omega)) (Ctx.wrote_w ..),
    fun hu => .of_error hn rfl (if_pos hu), ?nan, ?root, ?third, ?zero, ?zeros, ?neg, ?infs⟩
  case nan =>
    intro h
    rw [fisNaN_iff, fisNaN_iff] at h
    exact ⟨.float hn rfl (faddF_nan h), .float hn rfl (fsubF_nan h), .float hn rfl (fmulF_nan h), .float hn rfl (fdivF_nan h),
      .float hn rfl (fmaF_nan_left h), .float hn rfl (fnmsF_nan_left h)⟩
  case root => exact fun h => .float hn rfl (fsqrtF_nan ((fisNaN_iff _).mp h))
  case third =>
    intro h
    rw [fisNaN_iff] at h
    exact ⟨.float hn rfl (fmaF_nan_right h), .float hn rfl (fnmsF_nan_right h)⟩
  case zero => exact fun hf ha hb => .float hn rfl (fdivF_zero hf ha hb)
  case zeros => exact fun ha hb => .float hn rfl (fdivF_zero_zero ha hb)
  case neg => exact fun h => .float hn rfl (fsqrtF_neg h)
  case infs =>
    intro ha hb
    refine .float hn rfl ?_
    rw [ha, hb]
    decide

/-! Comparisons and conversions (R311). -/

theorem getLsbD_fabs (a : Word64) (j : Nat) (hj : j < 64) : (fabs a).getLsbD j = (a.getLsbD j && decide (j ≠ 63)) := by
  rw [fabs, BitVec.getLsbD_and]
  congr 1
  revert hj
  revert j
  decide

theorem getLsbD_fneg (a : Word64) (j : Nat) (hj : j < 64) : (fneg a).getLsbD j = (a.getLsbD j ^^ decide (j = 63)) := by
  rw [fneg, BitVec.getLsbD_xor]
  congr 1
  revert hj
  revert j
  decide

theorem fle_of_not_nan {a b : Word64} (ha : fisNaN a = false) (hb : fisNaN b = false) (h : forderKey a ≤ forderKey b) : fle a b = true := by
  rw [fle, ha, hb, decide_eq_true h]
  rfl

theorem flt_of_not_nan {a b : Word64} (ha : fisNaN a = false) (hb : fisNaN b = false) : flt a b = decide (forderKey a < forderKey b) := by
  rw [flt, ha, hb]
  rfl

/-- FMIN of two numbers is one of them, not above the other. -/
theorem fmin_number {a b : Word64} (ha : fisNaN a = false) (hb : fisNaN b = false) :
    (fmin a b = a ∧ fle a b = true) ∨ (fmin a b = b ∧ fle b a = true) := by
  simp only [fmin, ha, hb, Bool.false_eq_true, if_false, flt_of_not_nan ha hb, decide_eq_true_eq]
  by_cases hk : forderKey a = forderKey b
  · rw [if_pos hk]
    split
    · exact .inl ⟨rfl, fle_of_not_nan ha hb hk.le⟩
    · exact .inr ⟨rfl, fle_of_not_nan hb ha hk.ge⟩
  · rw [if_neg hk]
    split
    · exact .inl ⟨rfl, fle_of_not_nan ha hb (by omega)⟩
    · exact .inr ⟨rfl, fle_of_not_nan hb ha (by omega)⟩

/-- FMAX of two numbers is one of them, not below the other. -/
theorem fmax_number {a b : Word64} (ha : fisNaN a = false) (hb : fisNaN b = false) :
    (fmax a b = a ∧ fle b a = true) ∨ (fmax a b = b ∧ fle a b = true) := by
  simp only [fmax, ha, hb, Bool.false_eq_true, if_false, flt_of_not_nan ha hb, decide_eq_true_eq]
  by_cases hk : forderKey a = forderKey b
  · rw [if_pos hk]
    split
    · exact .inr ⟨rfl, fle_of_not_nan ha hb hk.le⟩
    · exact .inl ⟨rfl, fle_of_not_nan hb ha hk.ge⟩
  · rw [if_neg hk]
    split
    · exact .inr ⟨rfl, fle_of_not_nan ha hb (by omega)⟩
    · exact .inl ⟨rfl, fle_of_not_nan hb ha (by omega)⟩

/-- A comparison's truth value, 0 with a NaN. -/
theorem boolW_not_nan (a b : Word64) (p : Prop) [Decidable p] :
    boolW (!fisNaN a && !fisNaN b && decide p) = if (fisNaN a || fisNaN b) = true then 0 else if p then 1 else 0 := by
  cases fisNaN a <;> cases fisNaN b <;> simp [boolW]

/-- FTOI of a finite value: truncated, saturated, with SAT when it did not fit. -/
theorem ftoiR_fin {a : Word64} {g : Bool} {m : Nat} {x : Int} (h : up a = .fin g m x) : ftoiR a = satI (roundInt .zero g m x) := by
  rw [ftoiR, ftoSat, h]
  rfl

theorem ftoiR_nan {a : Word64} (h : fisNaN a = true) : ftoiR a = ⟨0, false, true⟩ := by
  rw [ftoiR, ftoSat, (fisNaN_iff a).mp h]
  rfl

theorem fmin_nan_left {a b : Word64} (ha : fisNaN a = true) (hb : fisNaN b = false) : fmin a b = b :=
  (if_pos ha).trans (if_neg (Bool.eq_false_iff.mp hb))

theorem fmin_nan_right {a b : Word64} (ha : fisNaN a = false) (hb : fisNaN b = true) : fmin a b = a :=
  (if_neg (Bool.eq_false_iff.mp ha)).trans (if_pos hb)

theorem fmin_nan {a b : Word64} (ha : fisNaN a = true) (hb : fisNaN b = true) : fmin a b = nan64 := (if_pos ha).trans (if_pos hb)

theorem fmax_nan_left {a b : Word64} (ha : fisNaN a = true) (hb : fisNaN b = false) : fmax a b = b :=
  (if_pos ha).trans (if_neg (Bool.eq_false_iff.mp hb))

theorem fmax_nan_right {a b : Word64} (ha : fisNaN a = false) (hb : fisNaN b = true) : fmax a b = a :=
  (if_neg (Bool.eq_false_iff.mp ha)).trans (if_pos hb)

theorem fmax_nan {a b : Word64} (ha : fisNaN a = true) (hb : fisNaN b = true) : fmax a b = nan64 := (if_pos ha).trans (if_pos hb)

/-- Settles O18: the results from the order of the patterns and from what they unpack to. -/
theorem floatingCompareAndConvert : Obligations.FloatingCompareAndConvert := by
  intro s e n d a b c hn
  refine ⟨.alu hn rfl (Ctx.plain_res _ _ _ (getLsbD_fabs _)), .alu hn rfl (Ctx.plain_res _ _ _ (getLsbD_fneg _)),
    .alu hn rfl (Ctx.plain_res _ _ _ ⟨fun h => fmin_number (Bool.or_eq_false_iff.mp h).1 (Bool.or_eq_false_iff.mp h).2,
      fmin_nan_left, fmin_nan_right, fmin_nan, ?minPos, ?minNeg⟩),
    .alu hn rfl (Ctx.plain_res _ _ _ ⟨fun h => fmax_number (Bool.or_eq_false_iff.mp h).1 (Bool.or_eq_false_iff.mp h).2,
      fmax_nan_left, fmax_nan_right, fmax_nan, ?maxPos, ?maxNeg⟩),
    .alu hn rfl (Ctx.wrote_res ..), .alu hn rfl (.res_of (boolW_not_nan ..) rfl rfl), .alu hn rfl (.res_of (boolW_not_nan ..) rfl rfl),
    .alu hn rfl (.res_of (boolW_not_nan ..) rfl rfl), .alu hn rfl (Ctx.wrote_res ..), fun ha => .alu hn rfl ?toNan,
    fun ha => .alu hn rfl ?toMax, fun ha => .alu hn rfl ?toMin, fun g m x hu => .alu hn rfl ?fin⟩
  case minPos | minNeg | maxPos | maxNeg =>
    intro ha hb
    rw [ha, hb]
    decide
  case toNan =>
    rw [ftoiR_nan ha]
    exact Ctx.wrote_res ..
  case toMax | toMin =>
    rw [ha]
    exact Ctx.wrote_res ..
  case fin =>
    rw [ftoiR_fin hu]
    exact Ctx.saturated_satI ..

end Sys2Proof.Machine
end

-- ==== Loads and stores of block code ====
section
/-!
PROOFS. The effective address of a load or a store, what it reads and what it leaves (O19, O20).
-/
namespace Sys2Proof.Machine

/-! The effective address (R305, R306). -/

/-- An access's offset in its space, modulo 2^64. -/
def Ctx.offset (k : Ctx) (sp : BitVec 2) (x : BitVec 5) (disp : BitVec 12) (w : Nat) : Nat :=
  ((if sp = 0 then k.iptr.toNat else 0) + (k.r x).toNat + disp.toNat * w) % 2 ^ 64

/-- The address of offset 0 of a space for a task. -/
def State.spaceBase (s : State) (n : Nat) (sp : BitVec 2) : Nat :=
  if sp = 0 ∨ sp = 1 then s.instBase else if sp = 2 then s.imgBase + (s.taskDef n).inp.1 else s.imgBase + (s.taskDef n).outp.1

/-- The bytes of an access are aligned and its task's to reach. -/
def State.Reaches (s : State) (n : Nat) (sp : BitVec 2) (off w : Nat) : Prop :=
  (s.spaceBase n sp + off) % w = 0
    ∧ (sp = 0 ∨ sp = 1 → off + w ≤ s.be.set.globalLen ∨ ((s.taskDef n).inst.1 ≤ off ∧ off + w ≤ (s.taskDef n).inst.1 + (s.taskDef n).inst.2))
    ∧ (sp = 2 → off + w ≤ (s.taskDef n).inp.2) ∧ (sp = 3 → off + w ≤ (s.taskDef n).outp.2)

theorem within_iff (off size : Nat) (r : Nat × Nat) : within off size r = true ↔ r.1 ≤ off ∧ off + size ≤ r.1 + r.2 := by
  simp [within]

theorem instReach_iff (s : State) (n off size : Nat) : s.instReach n off size = true
    ↔ off + size ≤ s.be.set.globalLen ∨ ((s.taskDef n).inst.1 ≤ off ∧ off + size ≤ (s.taskDef n).inst.1 + (s.taskDef n).inst.2) := by
  simp [State.instReach, within_iff]

theorem toNat_offset (k : Ctx) (sp : BitVec 2) (x : BitVec 5) (disp : BitVec 12) (w : Nat) :
    (if sp = 0 then k.r x + BitVec.ofNat 64 (disp.toNat * w) + BitVec.ofNat 64 k.iptr.toNat
      else k.r x + BitVec.ofNat 64 (disp.toNat * w)).toNat = k.offset sp x disp w := by
  rw [Ctx.offset]
  split
  · simp only [BitVec.toNat_add, BitVec.toNat_ofNat]
    omega
  · simp only [BitVec.toNat_add, BitVec.toNat_ofNat]
    omega

/-- An access of width w at an offset is permitted and aligned exactly where the effective address is that of the space's base. -/
theorem effective_eq (s : State) (n : Nat) (k : Ctx) (sp : BitVec 2) (x : BitVec 5) (disp : BitVec 12) (w : Nat) :
    (s.Reaches n sp (k.offset sp x disp w) w → s.effective n k sp x disp w = some (s.spaceBase n sp + k.offset sp x disp w))
    ∧ (¬ s.Reaches n sp (k.offset sp x disp w) w → s.effective n k sp x disp w = none) := by
  have hsp : ∀ v : BitVec 2, v = 0 ∨ v = 1 ∨ v = 2 ∨ v = 3 := by decide
  rw [State.effective]
  simp only [toNat_offset]
  generalize k.offset sp x disp w = o
  rcases hsp sp with rfl | rfl | rfl | rfl <;>
    simp +contextual [State.Reaches, State.spaceBase, within_iff, instReach_iff, imp_not_comm]

/-! Loads (R298, R312). -/

/-- The number a load of w bytes sees. -/
theorem beLoad_eq (s : State) (a w : Nat) :
    s.beLoad a w = ((List.range w).map fun j => ((s.forcedByte (a + j)).getD (s.byte (a + j))).toNat * 256 ^ j).sum :=
  leNat_map_range _ w

/-- A load of an address within reach writes its register; elsewhere it traps. -/
theorem load_settled {c : Instr} {s : State} {e : Fin 8} {n : Nat} {d x : BitVec 5} {sp : BitVec 2} {disp : BitVec 12} {w : Nat} {f : Nat → Word64}
    (hn : s.running e.val = some n) (hc : exec c s = s.ends (s.issue e.val fun t n k => loadOp sp d x disp w f t n k)) :
    let k := (s.task n).ctx
    let u := s.pmu (8 + e.val)
    let a := s.spaceBase n sp + k.offset sp x disp w
    (s.Reaches n sp (k.offset sp x disp w) w → Issues c s e.val n (k.Plain d fun v =>
      v = f ((List.range w).map fun j => ((u.forcedByte (a + j)).getD (u.byte (a + j))).toNat * 256 ^ j).sum))
    ∧ (¬ s.Reaches n sp (k.offset sp x disp w) w → TrapsAs c s e 1) := by
  have hu : (s.pmu (8 + e.val)).effective n = s.effective n := by
    unfold State.effective State.instReach State.taskDef State.instBase State.imgBase
    rw [State.pmu_be]
  refine ⟨fun h => .ok hn hc ?_ (Ctx.plain_w _ _ _ (congrArg f (beLoad_eq ..))), fun h => .of_error hn hc ?_⟩
  · rw [loadOp, hu, (effective_eq ..).1 h]
  · rw [loadOp, hu, (effective_eq ..).2 h]
    rfl

/-- Settles O19: each load by the effective address of its width. -/
theorem loadsAndTheirTraps : Obligations.LoadsAndTheirTraps := by
  intro s e n d x sp disp hn
  have load (c : Instr) (w : Nat) (f : Nat → Word64) (hc : exec c s = s.ends (s.issue e.val fun t n k => loadOp sp d x disp w f t n k)) :=
    load_settled hn hc
  exact ⟨load _ 1 (sext 8) rfl, load _ 1 zext rfl, load _ 2 (sext 16) rfl, load _ 2 zext rfl, load _ 4 (sext 32) rfl, load _ 4 zext rfl,
    load _ 8 zext rfl, load _ 4 (fun v => f32to64 (BitVec.ofNat 32 v)) rfl⟩

/-! Stores (R298, R312). -/

theorem getD_leBytes {w j : Nat} (v : Nat) (hj : j < w) : (leBytes w v).getD j 0 = BitVec.ofNat 8 (v / 256 ^ j) := by
  induction w generalizing v j with
  | zero => omega
  | succ w ih =>
    cases j with
    | zero => simp [leBytes]
    | succ j =>
      have h := ih (v / 256) (Nat.lt_of_succ_lt_succ hj)
      rw [Nat.div_div_eq_div_mul, ← Nat.pow_succ'] at h
      simpa [leBytes] using h

/-- A store through the force lookup changes memory alone. -/
theorem beStore_rest (s : State) (a : Nat) (l : List Byte) : s.beStore a l = { s with mem := (s.beStore a l).mem } := by
  unfold State.beStore
  generalize l.zipIdx = z
  induction z generalizing s with
  | nil => rfl
  | cons b z ih =>
    rw [List.foldl_cons, ih]
    rfl

@[simp] theorem beStore_forcedByte (s : State) (a : Nat) (l : List Byte) (b : Nat) : (s.beStore a l).forcedByte b = s.forcedByte b := by
  rw [beStore_rest]
  rfl

/-- A byte after a store through the force lookup: a stored one, unless it is forced; every other as it was. -/
theorem byte_beStore (s : State) (a : Nat) (l : List Byte) (b : Nat) :
    (s.beStore a l).byte b = if a ≤ b ∧ b < a + l.length then (s.forcedByte b).getD (l.getD (b - a) 0) else s.byte b := by
  have key : ∀ (l : List Byte) (s : State) (k : Nat),
      ((l.zipIdx k).foldl (fun t b => t.setByte (a + b.2) ((t.forcedByte (a + b.2)).getD b.1)) s).byte b
        = if a + k ≤ b ∧ b < a + k + l.length then (s.forcedByte b).getD (l.getD (b - (a + k)) 0) else s.byte b := by
    intro l
    induction l with
    | nil => intro s k; exact (if_neg (by simp)).symm
    | cons x l ih =>
      intro s k
      have hf : ∀ v, (s.setByte (a + k) v).forcedByte b = s.forcedByte b := fun _ => rfl
      rw [List.zipIdx_cons, List.foldl_cons, ih, hf, State.byte_setByte]
      by_cases hb : b = a + k
      · subst hb
        rw [if_neg (by omega), if_pos rfl, if_pos ⟨le_rfl, by simp⟩]
        simp
      · by_cases hi : a + (k + 1) ≤ b ∧ b < a + (k + 1) + l.length
        · rw [if_pos hi, if_pos (by simp; omega)]
          have : b - (a + k) = b - (a + (k + 1)) + 1 := by omega
          rw [this, List.getD_cons_succ]
        · rw [if_neg hi, if_neg hb, if_neg (by simp; omega)]
  exact key l s 0

/-- A command whose function goes on with memory changed leaves the issued state with that memory. -/
theorem issue_stored {s : State} {e : Fin 8} {n : Nat} {f : State → Nat → Ctx → CodeRes} {k : Ctx} {t : State}
    (hn : s.running e.val = some n) (ht : t = { s.pmu (8 + e.val) with mem := t.mem })
    (hf : f (s.pmu (8 + e.val)) n (s.task n).ctx = .ok (t, k)) :
    s.ends (s.issue e.val f) = .next { s.issued e.val n k with mem := t.mem } := by
  have hp : (s.issued e.val n k).pending = s.pending := by simp [State.issued]
  have h : s.issue e.val f = { s.issued e.val n k with mem := t.mem } := by
    simp only [State.issue, hn, State.pmu_task, hf, State.issued]
    rw [ht]
    rfl
  rw [State.ends, h, ← hp]
  rfl

/-- A store to an address within reach leaves its bytes there and nothing else; elsewhere it traps. -/
theorem store_settled {c : Instr} {s : State} {e : Fin 8} {n : Nat} {x : BitVec 5} {sp : BitVec 2} {disp : BitVec 12} {w v : Nat} {sat : Bool}
    {f : Ctx → Nat} {g : Ctx → Bool} (hn : s.running e.val = some n)
    (hc : exec c s = s.ends (s.issue e.val fun t n k => storeOp sp x disp w (f k) (g k) t n k))
    (hv : f (s.task n).ctx = v) (hs : g (s.task n).ctx = sat) :
    let k := (s.task n).ctx
    let u := s.pmu (8 + e.val)
    let a := s.spaceBase n sp + k.offset sp x disp w
    (s.Reaches n sp (k.offset sp x disp w) w → ∃ (t : State) (k' : Ctx), exec c s = .next t ∧ t = { s.issued e.val n k' with mem := t.mem }
        ∧ (∀ j < w, t.byte (a + j) = (u.forcedByte (a + j)).getD (BitVec.ofNat 8 (v / 256 ^ j)))
        ∧ (∀ b, b < a ∨ a + w ≤ b → t.byte b = u.byte b)
        ∧ (∀ r, k'.r r = k.r r) ∧ k'.pc = k.pc + 4 ∧ k'.sat = (k.sat || sat) ∧ k'.inv = k.inv ∧ k'.iptr = k.iptr ∧ k'.stack = k.stack)
    ∧ (¬ s.Reaches n sp (k.offset sp x disp w) w → TrapsAs c s e 1) := by
  intro k u a
  have hu : u.effective n = s.effective n := by
    unfold State.effective State.instReach State.taskDef State.instBase State.imgBase
    rw [State.pmu_be]
  subst hv hs
  refine ⟨fun h => ?_, fun h => .of_error hn hc ?_⟩
  · have hb := byte_beStore u a (leBytes w (f k))
    rw [length_leBytes] at hb
    refine ⟨_, (k.stick (g k) false).next, hc.trans (issue_stored (t := u.beStore a (leBytes w (f k))) hn (beStore_rest ..) ?_), rfl,
      fun j hj => ?_, fun b hj => ?_, fun _ => rfl, rfl, rfl, Bool.or_false _, rfl, rfl⟩
    · rw [storeOp, hu, (effective_eq ..).1 h]
    · refine (hb (a + j)).trans ((if_pos (by omega)).trans ?_)
      rw [Nat.add_sub_cancel_left, getD_leBytes _ hj]
    · exact (hb b).trans (if_neg (by omega))
  · rw [storeOp, hu, (effective_eq ..).2 h]
    rfl

/-- Settles O20: each store by the effective address of its width. -/
theorem storesAndTheirTraps : Obligations.StoresAndTheirTraps := by
  intro s e n d x sp disp hn
  exact ⟨store_settled hn rfl rfl rfl, store_settled hn rfl rfl rfl, store_settled hn rfl rfl rfl, store_settled hn rfl rfl rfl,
    store_settled hn rfl rfl rfl⟩

end Sys2Proof.Machine
end

-- ==== Library blocks and functions ====
section
/-!
PROOFS. What SYS does: the functions on registers (O24) and the blocks on their variables in memory (O23).
-/
namespace Sys2Proof.Machine

/-! What SYS asks first (R314, R315). -/

theorem sysCheck_register {a : BitVec 5} {k : Ctx} (h : a = 31) : sysCheck a k = some 1 := if_pos h

theorem sysCheck_full {a : BitVec 5} {k : Ctx} (h : a ≠ 31) (hf : 16 ≤ k.stack.length) : sysCheck a k = some 2 :=
  (if_neg h).trans (if_pos hf)

theorem sysCheck_room {a : BitVec 5} {k : Ctx} (h : a ≠ 31) (hf : k.stack.length < 16) : sysCheck a k = none :=
  (if_neg h).trans (if_neg (by omega))

/-! Functions. -/

theorem fisInf_iff (v : Word64) : fisInf v = true ↔ v = 0x7FF0000000000000 ∨ v = 0xFFF0000000000000 := by
  rw [fisInf, beq_iff_eq, ← BitVec.toNat_inj, ← BitVec.toNat_inj, ← BitVec.toNat_inj, fabs, toNat_magnitude]
  have := v.isLt
  simp [inf64]
  omega

/-- SYS of a function: its traps, and its result on a register. -/
theorem sysFun_settled {c : Instr} {s : State} {e : Fin 8} {n : Nat} {a : BitVec 5} {f : Ctx → FRes} (hn : s.running e.val = some n)
    (hc : exec c s = s.ends (s.sysFun e a f)) :
    let k := (s.task n).ctx
    (a = 31 → TrapsAs c s e 0) ∧ (a ≠ 31 → 16 ≤ k.stack.length → TrapsAs c s e 1)
      ∧ (a ≠ 31 → k.stack.length < 16 → ∀ r, f k = r → Issues c s e.val n fun k' => k.Wrote k' a r.v r.sat r.inv) := by
  refine ⟨fun h => .of_error hn hc ?_, fun h hf => .of_error hn hc ?_, fun h hf r hr => hr ▸ .ok hn hc ?_ (Ctx.wrote_res ..)⟩
  · rw [sysCheck_register h]
    rfl
  · rw [sysCheck_full h hf]
    rfl
  · rw [sysCheck_room h hf]

/-- A library function of x, and of y where it takes two arguments, whose domain and value on them are dom and v (R315). -/
def LibraryFunction (c : Instr) (s : State) (e : Fin 8) (n : Nat) (a : BitVec 5) (x y : Word64) (two : Bool) (dom : Prop) (v : Word64) : Prop :=
  let k := (s.task n).ctx
  (a = 31 → TrapsAs c s e 0) ∧ (a ≠ 31 → 16 ≤ k.stack.length → TrapsAs c s e 1)
    ∧ (a ≠ 31 → k.stack.length < 16 →
      let someNaN := fisNaN x = true ∨ (two = true ∧ fisNaN y = true)
      let allFin := fisFin x = true ∧ (two = true → fisFin y = true)
      (someNaN → Issues c s e.val n fun k' => k.Wrote k' a 0x7FF8000000000000 false false)
      ∧ (¬ someNaN → ¬ dom → Issues c s e.val n fun k' => k.Wrote k' a 0x7FF8000000000000 false true)
      ∧ (¬ someNaN → dom → (v = 0x7FF0000000000000 ∨ v = 0xFFF0000000000000) → allFin →
          Issues c s e.val n fun k' => k.Wrote k' a 0x7FF0000000000000 true false)
      ∧ (¬ someNaN → dom → ¬ ((v = 0x7FF0000000000000 ∨ v = 0xFFF0000000000000) ∧ allFin) →
          Issues c s e.val n fun k' => k.Wrote k' a v false false))

/-- What a library result is, by its arguments and its domain. -/
theorem libRes_cases (args : List Word64) (dom : Bool) (v : Word64) :
    (args.any fisNaN = true → libRes args dom v = ⟨nan64, false, false⟩)
    ∧ (args.any fisNaN = false → dom = false → libRes args dom v = ⟨nan64, false, true⟩)
    ∧ (args.any fisNaN = false → dom = true → fisInf v = true → args.all fisFin = true → libRes args dom v = ⟨inf64, true, false⟩)
    ∧ (args.any fisNaN = false → dom = true → ¬ (fisInf v = true ∧ args.all fisFin = true) → libRes args dom v = ⟨v, false, false⟩) := by
  refine ⟨fun hn => if_pos hn, fun hn hd => ?_, fun hn hd hi hf => ?_, fun hn hd h => ?_⟩
  · simp [libRes, hn, hd]
  · simp only [libRes, hn, hd, hi, hf]
    rfl
  · simp only [libRes, hn, hd, Bool.not_true, Bool.false_eq_true, if_false, Bool.and_eq_true, if_neg h]
    rfl

/-- A SYS function whose result is that of the library for its arguments. -/
theorem libraryFunction_of {c : Instr} {s : State} {e : Fin 8} {n : Nat} {a : BitVec 5} {f : Ctx → FRes} {x y v : Word64} {two d : Bool}
    {dom : Prop} (hn : s.running e.val = some n) (hc : exec c s = s.ends (s.sysFun e a f))
    (hf : f (s.task n).ctx = libRes (x :: if two then [y] else []) d v)
    (hd : fisNaN x = false → (two = true → fisNaN y = false) → (dom ↔ d = true)) : LibraryFunction c s e n a x y two dom v := by
  obtain ⟨hreg, hfull, hres⟩ := sysFun_settled hn hc
  refine ⟨hreg, hfull, fun ha hk => ?_⟩
  have hnan : ((x :: if two then [y] else []).any fisNaN = true) ↔ (fisNaN x = true ∨ (two = true ∧ fisNaN y = true)) := by
    cases two <;> simp
  have hfin : ((x :: if two then [y] else []).all fisFin = true) ↔ (fisFin x = true ∧ (two = true → fisFin y = true)) := by
    cases two <;> simp
  obtain ⟨hN, hD, hI, hV⟩ := libRes_cases (x :: if two then [y] else []) d v
  simp only [← hnan, ← hfin, ← fisInf_iff, Bool.not_eq_true]
  have hdom (h : (x :: if two then [y] else []).any fisNaN = false) : dom ↔ d = true :=
    hd (by simp at h; exact h.1) (by rintro rfl; simp at h; exact h.2)
  refine ⟨fun h => hres ha hk _ (hf.trans (hN h)), fun h hd' => hres ha hk _ (hf.trans (hD h ?_)),
    fun h hd' hi ha' => hres ha hk _ (hf.trans (hI h ((hdom h).mp hd') hi ha')), fun h hd' hi => hres ha hk _ (hf.trans (hV h ((hdom h).mp hd') hi))⟩
  exact Bool.eq_false_iff.mpr fun hd1 => hd' ((hdom h).mpr hd1)

/-- A number is above zero, a zero or below zero. -/
theorem flt_zero_of_not {x : Word64} (hx : fisNaN x = false) (hp : ¬ flt 0 x = true) (hz : ¬ feq x 0 = true) : flt x 0 = true := by
  have h0 : fisNaN 0 = false := by decide
  have hk : forderKey 0 = 0 := by decide
  simp only [flt, feq, hx, h0, hk, Bool.not_false, Bool.true_and, decide_eq_true_eq] at *
  omega

/-- EXPT's domain. -/
theorem powDom_iff {x y : Word64} (hx : fisNaN x = false) : (flt 0 x = true ∨ (feq x 0 = true ∧ fle 0 y = true)
    ∨ (flt x 0 = true ∧ ((y = 0x7FF0000000000000 ∨ y = 0xFFF0000000000000) ∨ feq (frnd .zero y) y = true))) ↔ powDom x y = true := by
  have h0 : fisNaN 0 = false := by decide
  have hk : forderKey 0 = 0 := by decide
  rw [powDom, ← fisInf_iff]
  by_cases hp : flt zero64 x = true
  · rw [if_pos hp]
    exact ⟨fun _ => rfl, fun _ => .inl hp⟩
  · rw [if_neg hp]
    by_cases hz : feq x zero64 = true
    · rw [if_pos hz]
      have hl : flt x 0 = false := by
        rw [show zero64 = (0 : Word64) from rfl, feq, hx, h0, hk] at hz
        rw [flt_of_not_nan hx h0, hk, of_decide_eq_true hz]
        decide
      refine ⟨fun h => ?_, fun h => .inr (.inl ⟨hz, h⟩)⟩
      rcases h with h | h | h
      · exact absurd h hp
      · exact h.2
      · exact absurd h.1 (by rw [hl]; decide)
    · rw [if_neg hz, Bool.or_eq_true]
      refine ⟨fun h => ?_, fun h => .inr (.inr ⟨flt_zero_of_not hx hp hz, h⟩)⟩
      rcases h with h | h | h
      · exact absurd h hp
      · exact absurd h.1 hz
      · exact h.2

/-- Settles O24: each function through its domain. -/
theorem libraryFunctions : Obligations.LibraryFunctions := by
  intro s e n a hn
  have one (c : Instr) (dom : Word64 → Bool) (D : Prop) (f : Word64 → Word64) (hc : exec c s = s.ends (s.sys1 e a dom f))
      (hD : D ↔ dom ((s.task n).ctx.r a) = true) :
      LibraryFunction c s e n a ((s.task n).ctx.r a) ((s.task n).ctx.r (a + 1)) false D (f ((s.task n).ctx.r a)) :=
    libraryFunction_of hn hc rfl fun _ _ => hD
  exact ⟨one _ fisFin _ fsin rfl .rfl, one _ fisFin _ fcos rfl .rfl, one _ fisFin _ ftan rfl .rfl, one _ inUnit _ fasin rfl .rfl,
    one _ inUnit _ facos rfl .rfl, one _ (fun _ => true) _ fatan rfl (by simp), libraryFunction_of hn rfl rfl (by simp),
    one _ (fun _ => true) _ fexp rfl (by simp), one _ posArg _ fln rfl .rfl, one _ posArg _ flog rfl .rfl,
    libraryFunction_of hn rfl rfl fun hx _ => powDom_iff hx⟩

end Sys2Proof.Machine
end

-- ==== Library blocks ====
section
/-!
PROOFS. The stateful library blocks (O23): what a block's rule reads and writes, its traps, and the rule of each of the ten.
-/
namespace Sys2Proof.Machine

/-! Stores of variables. -/

/-- Store 64-bit variables at their places in a block's area, through the force lookup. -/
def State.storeVars (s : State) (addr : Nat) (W : List (Nat × Word64)) : State :=
  W.foldl (fun u w => u.beStore (addr + 8 * w.1) (leBytes 8 w.2.toNat)) s

theorem storeVars_cons (s : State) (addr : Nat) (w : Nat × Word64) (W : List (Nat × Word64)) :
    s.storeVars addr (w :: W) = (s.beStore (addr + 8 * w.1) (leBytes 8 w.2.toNat)).storeVars addr W := by
  simp only [State.storeVars, List.foldl_cons]

theorem storeVars_rest (addr : Nat) (W : List (Nat × Word64)) (s : State) :
    s.storeVars addr W = { s with mem := (s.storeVars addr W).mem } := by
  induction W generalizing s with
  | nil => rfl
  | cons w W ih => rw [storeVars_cons, ih, beStore_rest]

/-- A byte outside the stored variables is as it was. -/
theorem byte_storeVars_out (addr b : Nat) (W : List (Nat × Word64)) (s : State)
    (h : ∀ w ∈ W, b < addr + 8 * w.1 ∨ addr + 8 * w.1 + 8 ≤ b) : (s.storeVars addr W).byte b = s.byte b := by
  induction W generalizing s with
  | nil => rfl
  | cons w W ih =>
    have hw := h w List.mem_cons_self
    rw [storeVars_cons, ih _ fun x hx => h x (List.mem_cons_of_mem _ hx), byte_beStore, length_leBytes, if_neg (by omega)]

/-- A byte of a stored variable, where no two variables have one place. -/
theorem byte_storeVars_in (addr : Nat) (W : List (Nat × Word64)) (s : State) (hW : (W.map Prod.fst).Nodup) : ∀ w ∈ W, ∀ j < 8,
    (s.storeVars addr W).byte (addr + 8 * w.1 + j) = (s.forcedByte (addr + 8 * w.1 + j)).getD (BitVec.ofNat 8 (w.2.toNat / 256 ^ j)) := by
  induction W generalizing s with
  | nil => simp
  | cons x W ih =>
    intro w hw j hj
    rw [List.map_cons, List.nodup_cons] at hW
    obtain ⟨hx, hW⟩ := hW
    rw [storeVars_cons]
    rcases List.mem_cons.mp hw with rfl | hw
    · have hout (y : Nat × Word64) (hy : y ∈ W) : addr + 8 * w.1 + j < addr + 8 * y.1 ∨ addr + 8 * y.1 + 8 ≤ addr + 8 * w.1 + j := by
        have : y.1 ≠ w.1 := fun h => hx (h ▸ List.mem_map_of_mem hy)
        omega
      rw [byte_storeVars_out _ _ W _ hout, byte_beStore, length_leBytes, if_pos (by omega), Nat.add_sub_cancel_left, getD_leBytes _ hj]
    · rw [ih _ hW w hw j hj, beStore_forcedByte]

/-! A block's area (R315). -/

/-- The offset of a variable does not wrap. -/
theorem toNat_blkOffset {base : Word64} {count j : Nat} (hb : base.toNat + 8 * count ≤ 2 ^ 64) (hj : j < count) :
    (base + BitVec.ofNat 64 (8 * j)).toNat = base.toNat + 8 * j := by
  rw [BitVec.toNat_add, BitVec.toNat_ofNat]
  omega

theorem blkAddr_of_reach {s : State} {n count j : Nat} {base : Word64} (hb : base.toNat + 8 * count ≤ 2 ^ 64) (hj : j < count)
    (hr : s.instReach n (base.toNat + 8 * j) 8 = true) (ha : (s.instBase + base.toNat + 8 * j) % 8 = 0) :
    s.blkAddr n base j = some (s.instBase + base.toNat + 8 * j) := by
  rw [State.blkAddr, toNat_blkOffset hb hj, ← Nat.add_assoc, hr, decide_eq_true ha]
  rfl

theorem blkAddr_of_not_reach {s : State} {n count j : Nat} {base : Word64} (hb : base.toNat + 8 * count ≤ 2 ^ 64) (hj : j < count)
    (hr : s.instReach n (base.toNat + 8 * j) 8 = false) : s.blkAddr n base j = none := by
  rw [State.blkAddr, toNat_blkOffset hb hj, hr]
  rfl

theorem blkAddr_pmu (s : State) (m n : Nat) : (s.pmu m).blkAddr n = s.blkAddr n := by
  unfold State.blkAddr State.instReach State.taskDef State.instBase
  rw [State.pmu_be]

/-- A block's run as the statement has it: what it writes, and its traps. -/
def BlockRuns (s : State) (e : Fin 8) (n : Nat) (a : BitVec 5) (c : Instr) (count : Nat) (W : List (Nat × Word64)) : Prop :=
  let k := (s.task n).ctx
  let base := (k.r a).toNat
  let addr := s.instBase + base
  (a ≠ 31 → k.stack.length < 16 → (base + 8 * count ≤ 2 ^ 64 ∧ ∀ j < count, s.instReach n (base + 8 * j) 8 = true ∧ (addr + 8 * j) % 8 = 0) →
      Completes c s (BlockWrote s e.val n addr W))
    ∧ (a = 31 → TrapsAs c s e 0) ∧ (a ≠ 31 → 16 ≤ k.stack.length → TrapsAs c s e 1)
    ∧ (a ≠ 31 → base + 8 * count ≤ 2 ^ 64 → (∃ j < count, s.instReach n (base + 8 * j) 8 = false) → TrapsAs c s e 1)

/-- The variables a block on this area reads, by place, with the issue counted. -/
def State.blockVar (s : State) (e : Fin 8) (n : Nat) (a : BitVec 5) (j : Nat) : Word64 :=
  BitVec.ofNat 64 ((s.pmu (8 + e.val)).beLoad (s.instBase + ((s.task n).ctx.r a).toNat + 8 * j) 8)

theorem blockRuns_of {s : State} {e : Fin 8} {n : Nat} {a : BitVec 5} {c : Instr} {count : Nat} {f : Stamp → Vars → List (Nat × Word64)}
    {W : List (Nat × Word64)} (hn : s.running e.val = some n) (hc : exec c s = s.ends (s.sysBlock e a count f))
    (hW : f (s.task n).stamp ((List.range count).map (s.blockVar e n a)) = W) (hd : (W.map Prod.fst).Nodup) (hl : ∀ w ∈ W, w.1 < count) :
    BlockRuns s e n a c count W := by
  refine ⟨fun ha hk hr => ?runs, fun h => .of_error hn hc ?reg, fun h hf => .of_error hn hc ?full, fun h hb hr => ?reach⟩
  case reg =>
    rw [sysCheck_register h]
    rfl
  case full =>
    rw [sysCheck_full h hf]
    rfl
  case reach =>
    by_cases hf : 16 ≤ (s.task n).ctx.stack.length
    · exact .of_error hn hc (by rw [sysCheck_full h hf]; rfl)
    · refine .of_error hn hc ?_
      obtain ⟨j, hj, hr⟩ := hr
      rw [sysCheck_room h (by omega), blkAddr_pmu]
      refine if_pos (List.any_eq_true.mpr ⟨j, List.mem_range.mpr hj, ?_⟩)
      rw [blkAddr_of_not_reach hb hj hr]
      rfl
  case runs =>
    obtain ⟨hb, hr⟩ := hr
    have haddr (j : Nat) (hj : j < count) := blkAddr_of_reach hb hj (hr j hj).1 (hr j hj).2
    have hall : ((List.range count).any fun j => (s.blkAddr n ((s.task n).ctx.r a) j).isNone) = false := by
      refine List.any_eq_false.mpr fun j hj => ?_
      simp [haddr j (List.mem_range.mp hj)]
    have hvars : ((List.range count).map fun j => zext ((s.pmu (8 + e.val)).beLoad ((s.blkAddr n ((s.task n).ctx.r a) j).getD 0) 8))
        = (List.range count).map (s.blockVar e n a) := by
      refine List.map_congr_left fun j hj => ?_
      rw [haddr j (List.mem_range.mp hj)]
      rfl
    have hstore (u : State) : W.foldl (fun (v : State) w => v.beStore ((s.blkAddr n ((s.task n).ctx.r a) w.1).getD 0) (leBytes 8 w.2.toNat)) u
        = u.storeVars (s.instBase + ((s.task n).ctx.r a).toNat) W :=
      List.foldl_ext _ _ _ fun v w hw => by rw [haddr w.1 (hl w hw), Option.getD_some]
    refine ⟨_, hc.trans (issue_stored (k := (s.task n).ctx.next) hn (storeVars_rest (s.instBase + ((s.task n).ctx.r a).toNat) W _) ?_),
      (s.task n).ctx.next, rfl, ⟨fun _ => rfl, rfl, rfl, rfl, rfl, rfl⟩, byte_storeVars_in _ W _ hd, fun b hb => byte_storeVars_out _ b W _ hb⟩
    rw [sysCheck_room ha hk, blkAddr_pmu]
    simp only [hall, Bool.false_eq_true, if_false, State.pmu_task, hvars, hW, hstore]

/-! Each rule on the variables V, as the statement has it. -/

section
variable (now : Stamp) (V : Nat → Word64)

/-- What a timer writes. -/
def timerVars (q : Bool) (et : Int) : List (Nat × Word64) :=
  [(2, if q then 1 else 0), (3, BitVec.ofInt 64 et), (4, if V 0 != 0 then 1 else 0), (5, BitVec.ofNat 64 now.toNat)]

theorem timerVars_places (q : Bool) (et : Int) : ((timerVars now V q et).map Prod.fst).Nodup ∧ ∀ w ∈ timerVars now V q et, w.1 < 6 := by
  simp [timerVars]

theorem timerOut_eq (q : Bool) (et : Int) : timerOut now (V 0 != 0) q et = timerVars now V q et := by
  have h : now.zeroExtend 64 = BitVec.ofNat 64 now.toNat := BitVec.eq_of_toNat_eq (by simp)
  rw [timerOut, timerVars, h]
  rfl

/-- The elapsed time: that of the last evaluation and the time since it, by the release stamps. -/
def elapsed : Int := (V 3).toInt + sdiff now (BitVec.ofNat 48 (V 5).toNat)

theorem tonRule_eq : tonRule now ((List.range 6).map V) =
    if !(V 0 != 0) then timerVars now V false 0 else if !(V 4 != 0) then timerVars now V (decide (max 0 (V 1).toInt ≤ 0)) 0
    else if max 0 (V 1).toInt ≤ elapsed now V then timerVars now V true (max 0 (V 1).toInt)
    else timerVars now V (V 2 != 0) (elapsed now V) := by
  simp only [← timerOut_eq]
  rfl

theorem tofRule_eq : tofRule now ((List.range 6).map V) =
    if V 0 != 0 then timerVars now V true 0 else if V 4 != 0 then timerVars now V (decide (0 < max 0 (V 1).toInt)) 0
    else if !(V 2 != 0) then timerVars now V false (V 3).toInt
    else if max 0 (V 1).toInt ≤ elapsed now V then timerVars now V false (max 0 (V 1).toInt)
    else timerVars now V true (elapsed now V) := by
  simp only [← timerOut_eq]
  rfl

theorem tpRule_eq : tpRule now ((List.range 6).map V) =
    if V 2 != 0 then (if max 0 (V 1).toInt ≤ elapsed now V then timerVars now V false (if V 0 != 0 then max 0 (V 1).toInt else 0)
      else timerVars now V true (elapsed now V))
    else if V 0 != 0 && !(V 4 != 0) then timerVars now V (decide (0 < max 0 (V 1).toInt)) 0
    else timerVars now V false (if V 0 != 0 then (V 3).toInt else 0) := by
  simp only [← timerOut_eq]
  rfl

theorem tonRule_places : ((tonRule now ((List.range 6).map V)).map Prod.fst).Nodup ∧ ∀ w ∈ tonRule now ((List.range 6).map V), w.1 < 6 := by
  rw [tonRule_eq]
  split_ifs <;> exact timerVars_places ..

theorem tofRule_places : ((tofRule now ((List.range 6).map V)).map Prod.fst).Nodup ∧ ∀ w ∈ tofRule now ((List.range 6).map V), w.1 < 6 := by
  rw [tofRule_eq]
  split_ifs <;> exact timerVars_places ..

theorem tpRule_places : ((tpRule now ((List.range 6).map V)).map Prod.fst).Nodup ∧ ∀ w ∈ tpRule now ((List.range 6).map V), w.1 < 6 := by
  rw [tpRule_eq]
  split_ifs <;> exact timerVars_places ..

theorem countUp_eq (v : Word64) : countUp v = if v.toInt = 9223372036854775807 then v else BitVec.ofInt 64 (v.toInt + 1) := by
  rw [countUp, BitVec.ofInt_add, BitVec.ofInt_toInt]
  rfl

theorem countDown_eq (v : Word64) : countDown v = if v.toInt = -9223372036854775808 then v else BitVec.ofInt 64 (v.toInt - 1) := by
  rw [countDown, Int.sub_eq_add_neg, BitVec.ofInt_add, BitVec.ofInt_toInt, BitVec.sub_eq_add_neg]
  rfl

/-- A truth value as a variable holds it. -/
def truthVar (p : Bool) : Word64 := if p then 1 else 0

theorem rTrigRule_eq : rTrigRule now ((List.range 3).map V) = [(1, truthVar (V 0 != 0 && !(V 2 != 0))), (2, truthVar (V 0 != 0))] := rfl

theorem fTrigRule_eq : fTrigRule now ((List.range 3).map V) = [(1, truthVar (!(V 0 != 0) && V 2 != 0)), (2, truthVar (V 0 != 0))] := rfl

/-- What CTU and CTD write, of Q and CV. -/
def counterVars (q : Bool) (cv : Word64) : List (Nat × Word64) := [(3, truthVar q), (4, cv), (5, truthVar (V 0 != 0))]

/-- CV of CTU, and of CTD. -/
def ctuValue : Word64 := if V 1 != 0 then 0 else if V 0 != 0 && !(V 5 != 0) then countUp (V 4) else V 4
def ctdValue : Word64 := if V 1 != 0 then V 2 else if V 0 != 0 && !(V 5 != 0) then countDown (V 4) else V 4

theorem ctuRule_eq : ctuRule now ((List.range 6).map V) = counterVars V (decide ((V 2).toInt ≤ (ctuValue V).toInt)) (ctuValue V) := rfl

theorem ctdRule_eq : ctdRule now ((List.range 6).map V) = counterVars V (decide ((ctdValue V).toInt ≤ 0)) (ctdValue V) := rfl

/-- CV of CTUD. -/
def ctudValue : Word64 := if V 2 != 0 then 0 else if V 3 != 0 then V 4
  else if (V 0 != 0 && !(V 8 != 0)) && !(V 1 != 0 && !(V 9 != 0)) then countUp (V 7)
  else if (V 1 != 0 && !(V 9 != 0)) && !(V 0 != 0 && !(V 8 != 0)) then countDown (V 7) else V 7

theorem ctudRule_eq : ctudRule now ((List.range 10).map V) = [(5, truthVar (decide ((V 4).toInt ≤ (ctudValue V).toInt))),
    (6, truthVar (decide ((ctudValue V).toInt ≤ 0))), (7, ctudValue V), (8, truthVar (V 0 != 0)), (9, truthVar (V 1 != 0))] := rfl

theorem srRule_eq : srRule now ((List.range 3).map V) = [(2, truthVar (V 0 != 0 || (!(V 1 != 0) && V 2 != 0)))] := rfl

theorem rsRule_eq : rsRule now ((List.range 3).map V) = [(2, truthVar (!(V 1 != 0) && (V 0 != 0 || V 2 != 0)))] := rfl

end

/-- A timer, whose rule writes places that differ. -/
theorem blockRuns_timer {s : State} {e : Fin 8} {n : Nat} {a : BitVec 5} {c : Instr} {f : Stamp → Vars → List (Nat × Word64)}
    {W : List (Nat × Word64)} (hn : s.running e.val = some n) (hc : exec c s = s.ends (s.sysBlock e a 6 f))
    (hW : f (s.task n).stamp ((List.range 6).map (s.blockVar e n a)) = W)
    (hp : ∀ now V, ((f now ((List.range 6).map V)).map Prod.fst).Nodup ∧ ∀ w ∈ f now ((List.range 6).map V), w.1 < 6) :
    BlockRuns s e n a c 6 W := by
  subst hW
  exact blockRuns_of hn hc rfl (hp _ _).1 (hp _ _).2

/-- Settles O23: each block by its rule on the variables it read. -/
theorem libraryBlocks : Obligations.LibraryBlocks := by
  intro s e n a hn
  simp only [← countUp_eq, ← countDown_eq]
  exact ⟨blockRuns_timer hn rfl (tonRule_eq ..) tonRule_places, blockRuns_timer hn rfl (tofRule_eq ..) tofRule_places,
    blockRuns_timer hn rfl (tpRule_eq ..) tpRule_places,
    blockRuns_of hn rfl (rTrigRule_eq ..) (by simp) (by simp), blockRuns_of hn rfl (fTrigRule_eq ..) (by simp) (by simp),
    blockRuns_of hn rfl (ctuRule_eq ..) (by simp) (by simp),
    blockRuns_of hn rfl (ctdRule_eq ..) (by simp) (by simp),
    blockRuns_of hn rfl (ctudRule_eq ..) (by simp) (by simp),
    blockRuns_of hn rfl (srRule_eq ..) (by simp) (by simp), blockRuns_of hn rfl (rsRule_eq ..) (by simp) (by simp)⟩

end Sys2Proof.Machine
end

-- ==== Performance counters ====
section
/-!
PROOFS. A counter's overflow (O10): what one more event does to a counter at its last value, and that no arrival takes back a
bit of PMU_OVF.
-/
namespace Sys2Proof.Machine

/-! Bits of PMU_OVF that stay. -/

/-- Every bit of PMU_OVF that is set before is set after. -/
def OvfStays (s t : State) : Prop :=
  ∀ w < 8, ∀ j, (s.word (R.PMU_OVF w)).getLsbD j = true → (t.word (R.PMU_OVF w)).getLsbD j = true

theorem OvfStays.refl (s : State) : OvfStays s s := fun _ _ _ h => h

theorem OvfStays.trans {s t u : State} (h : OvfStays s t) (g : OvfStays t u) : OvfStays s u := fun w hw j hj => g w hw j (h w hw j hj)

theorem ovfStays_setWord (s : State) {a : Nat} (v : Word) (h : a < 0x40060010 ∨ 0x40060030 ≤ a) : OvfStays s (s.setWord a v) := by
  intro w hw j hj
  rwa [State.word_setWord_ne s (by simp only [R.PMU_OVF]; omega) v]

theorem ovfStays_storeBytes (s : State) (a : Nat) (l : List Byte) : OvfStays s (s.storeBytes a l) := by
  intro w hw j hj
  rw [storeBytes_eq]
  exact hj

theorem ovfStays_pmuPut (s : State) (n v : Nat) : OvfStays s (s.pmuPut n v) :=
  (ovfStays_setWord s _ (.inr (by simp only [R.PMU_CNTL]; omega))).trans fun _ _ _ h => h

/-- Counting sets bits of PMU_OVF and clears none. -/
theorem ovfStays_pmuAddAt (f : Nat) : ∀ (s : State) (n k : Nat), OvfStays s (s.pmuAddAt n k f).1 := by
  induction f with
  | zero => exact fun s _ _ => .refl s
  | succ f ih =>
    intro s n k
    have hput := ovfStays_pmuPut s n ((s.pmuVal n + k) % 2 ^ 48)
    rw [State.pmuAddAt]
    split
    · exact hput
    · split
      · exact hput.trans (ih _ _ _)
      · refine hput.trans fun w _ j hj => ?_
        rw [State.word_setWord]
        split
        · rename_i hw
          rw [BitVec.getLsbD_or, ← hw, hj]
          rfl
        · exact hj

theorem ovfStays_pmuRaw (s : State) (n k : Nat) : OvfStays s (s.pmuRaw n k).1 := by
  rw [State.pmuRaw]
  split
  · exact .refl s
  · exact ovfStays_pmuAddAt _ _ _ _

theorem ovfStays_enqueue (s : State) {x l n : Nat} (info : Word) (posted sat : Bool) (hx : x < 10) (hl : l < 8) (hn : n < 512) :
    OvfStays s (s.enqueue x l n info posted sat) := by
  have hwake (u : State) : OvfStays u (if (u.proc x).doze then u.setDoze x false else u) := by
    split
    · exact ovfStays_setWord (u.modProc x _) _ (.inl (by simp [R.PWR_STAT]))
    · exact .refl u
  have hline (u : State) : OvfStays u (u.refreshLine x) :=
    (ovfStays_setWord u _ (.inl (by simp only [F.IC_LEVEL_LINE, R.IC_LEVEL]; omega))).trans
      (ovfStays_setWord _ _ (.inl (by simp only [F.IC_LEVEL_DEPTH, R.IC_LEVEL]; omega)))
  have hlost (u : State) (b : Bool) : OvfStays u (u.setFlag (F.IC_CNT_LOST n) b) :=
    ovfStays_setWord u _ (.inl (by simp only [F.IC_CNT_LOST, R.IC_CNT]; omega))
  have hring (u : State) (f : Ring → Ring) : OvfStays u (u.modRing x l f) := fun _ _ _ h => h
  rw [State.enqueue]
  split
  · have hbump : OvfStays s (s.bump (F.RING_OVF_OVF x l)) := ovfStays_setWord s _ (.inl (by simp only [F.RING_OVF_OVF, R.RING_OVF]; omega))
    exact (hbump.trans (hlost _ _)).trans (ovfStays_pmuRaw _ _ _)
  · dsimp only
    refine OvfStays.trans ?_ (ovfStays_pmuRaw _ _ _)
    refine OvfStays.trans ?_ (hline _)
    refine OvfStays.trans ?_ (hwake _)
    refine OvfStays.trans ?_ (hlost _ _)
    refine OvfStays.trans ?_ (hring _ _)
    refine OvfStays.trans ?_ (ovfStays_setWord _ _ (.inl (by simp only [F.RING_IDX_TAIL, R.RING_IDX]; omega)))
    exact ovfStays_storeBytes _ _ _

/-- No arrival takes back a bit of PMU_OVF. -/
theorem ovfStays_arrive (s : State) (n : Nat) (info : Word) : OvfStays s (s.arrive n info) := by
  rw [State.arrive, State.arriveG]
  split
  · exact .refl s
  · rename_i hn
    have hn : n < 512 := icAssigned_lt (by simpa using hn)
    have hp := get_lt (s.bump (F.IC_CNT_COUNT n)) (F.IC_SRC_PRIO n)
    have hcount : OvfStays s (s.bump (F.IC_CNT_COUNT n)) := ovfStays_setWord s _ (.inl (by simp only [F.IC_CNT_COUNT, R.IC_CNT]; omega))
    dsimp only
    split
    · exact hcount
    · split
      · exact hcount
      · exact hcount.trans (ovfStays_enqueue _ _ _ _ (icTarget_lt _ _) hp hn)

/-! A counter at its last value (R387, R388). -/

theorem pmuPut_word_ne (s : State) (n v : Nat) {a : Nat} (h : a ≠ R.PMU_CNTL n) : (s.pmuPut n v).word a = s.word a :=
  State.word_setWord_ne s h _

theorem pmuVal_pmuPut_ne (s : State) {n m : Nat} (v : Nat) (h : m ≠ n) : (s.pmuPut n v).pmuVal m = s.pmuVal m := by
  have hl : R.PMU_CNTL m ≠ R.PMU_CNTL n := by simp only [R.PMU_CNTL]; omega
  have hh : R.PMU_CNTH m ≠ R.PMU_CNTH n := by simp only [R.PMU_CNTH]; omega
  rw [State.pmuVal, pmuPut_word_ne s n v hl, State.pmuPut, State.shWord_setShWord, if_neg hh]
  rfl

/-- Counting below the last value. -/
theorem pmuAddAt_below (s : State) {n k f : Nat} (h : s.pmuVal n + k < 2 ^ 48) :
    s.pmuAddAt n k (f + 1) = (s.pmuPut n (s.pmuVal n + k), []) := by
  rw [State.pmuAddAt]
  rw [Nat.div_eq_of_lt h, Nat.mod_eq_of_lt h]
  rfl

/-- One more event of a counter at its last value. -/
theorem pmuAddAt_last (s : State) {n f : Nat} (hn : n < 256) (h : s.pmuVal n = 2 ^ 48 - 1) :
    s.pmuAddAt n 1 (f + 1) = if s.flag (F.PMU_CFG_CHAIN n) && decide (n < 255) then (s.pmuPut n 0).pmuAddAt (n + 1) 1 f
      else ((s.pmuPut n 0).setWord (R.PMU_OVF (n / 32)) (s.word (R.PMU_OVF (n / 32)) ||| BitVec.twoPow 32 (n % 32)),
        if s.flag (F.PMU_CFG_IRQ n) then [n] else []) := by
  have hcfg : (s.pmuPut n 0).word (R.PMU_CFG n) = s.word (R.PMU_CFG n) :=
    pmuPut_word_ne s n 0 (by simp only [R.PMU_CFG, R.PMU_CNTL]; omega)
  have hovf : (s.pmuPut n 0).word (R.PMU_OVF (n / 32)) = s.word (R.PMU_OVF (n / 32)) :=
    pmuPut_word_ne s n 0 (by simp only [R.PMU_OVF, R.PMU_CNTL]; omega)
  have hchain : (s.pmuPut n 0).flag (F.PMU_CFG_CHAIN n) = s.flag (F.PMU_CFG_CHAIN n) := congrArg (fun w => (F.PMU_CFG_CHAIN n).of w != 0) hcfg
  have hirq : (s.pmuPut n 0).flag (F.PMU_CFG_IRQ n) = s.flag (F.PMU_CFG_IRQ n) := congrArg (fun w => (F.PMU_CFG_IRQ n).of w != 0) hcfg
  have hbit : BitVec.ofNat 32 (2 ^ (n % 32)) = BitVec.twoPow 32 (n % 32) := BitVec.eq_of_toNat_eq (by simp)
  rw [State.pmuAddAt, h]
  simp only [Nat.reducePow, Nat.reduceSub, Nat.reduceAdd, Nat.reduceMod, Nat.reduceDiv, hchain, hovf, hirq, hbit]
  rfl

theorem div_lt_words {n : Nat} (h : n < 256) : n / 32 < 8 := by omega

/-- Settles O10: the counter returns to 0; without a chain its bit of PMU_OVF stays through the arrival, with one the next counter
counts. -/
theorem counterOverflow : Obligations.CounterOverflow := by
  intro s c n hfree hpair hv ovf counted marked
  have hn : n < 256 := c.isLt
  have hraw : s.pmuRaw n 1 = s.pmuAddAt n 1 256 := by
    refine if_neg ?_
    rcases hpair with h0 | h1
    · simp [hfree, h0]
    · simp [hfree, h1]
  have hlast := pmuAddAt_last s (f := 255) hn hv
  refine ⟨fun h2 => ?exec, fun hend => ?ends, fun hc h255 hlt => ?carry⟩
  case exec =>
    have hex : exec (.counterOverflow c) s = s.ends (s.pmu n) := by
      have hleft : 2 ^ 48 - s.pmuVal c.val = 1 := by rw [show s.pmuVal c.val = 2 ^ 48 - 1 from hv]; rfl
      refine congrArg s.ends ?_
      rw [hleft, hfree, if_neg (by decide), if_neg (show ¬ c.val = 0 by omega), if_neg (show ¬ c.val = 1 by omega), if_pos rfl]
    rw [hex, State.ends, ← State.pmu_pending s n]
    rfl
  case ends =>
    have hpmu : s.pmu n = if s.flag (F.PMU_CFG_IRQ n) then marked.arrive 313 (BitVec.ofNat 32 n) else marked := by
      rw [State.pmu, hraw, hlast, if_neg (by rcases hend with h | h <;> simp [h])]
      cases s.flag (F.PMU_CFG_IRQ n) <;> rfl
    refine ⟨?_, hpmu⟩
    have hmark : (marked.word (R.PMU_OVF (n / 32))).getLsbD (n % 32) = true := by
      rw [State.word_setWord_same, BitVec.getLsbD_or, BitVec.getLsbD_twoPow]
      simp [Nat.mod_lt]
    show ((s.pmu n).word _).getLsbD _ = true
    rw [hpmu]
    split
    · exact ovfStays_arrive marked 313 _ _ (div_lt_words hn) _ hmark
    · exact hmark
  case carry =>
    have hval : counted.pmuVal (n + 1) = s.pmuVal (n + 1) := pmuVal_pmuPut_ne s 0 (by omega)
    rw [State.pmu, hraw, hlast, if_pos (by simp [hc, h255]), pmuAddAt_below _ (by rw [hval]; omega), hval]
    rfl

end Sys2Proof.Machine
end

-- ==== The count's latching read ====
section
/-!
PROOFS. The latching read of device time (O60): it shows the count of the latest tick, which the statement leaves out.
-/
namespace Sys2Proof.Machine

/-- What O60 says of the upper half of the count. -/
theorem nowHigh_of_timeNowRead (H : Obligations.TimeNowRead) (s : State) (h : s.domOn 11 = true) :
    Completes .timeNowRead s fun t => t.word R.TIME_NOWH = s.time.count.extractLsb' 32 32 := by
  obtain ⟨_, hhigh, _, _, hexec, _⟩ := H s .host h
  exact ⟨_, hexec, hhigh⟩

/-- Refutes O60, in its clause of TIME_NOWH: the read latches the count of the latest tick, whose upper half is still 0 when the
count of the present instant has wrapped its lower half since that tick. -/
theorem not_timeNowRead : ¬ Obligations.TimeNowRead := by
  intro H
  have hon : lowHalfWrapped.domOn 11 = true := by decide
  obtain ⟨t, _, hmodel, hstated⟩ := (timeNowRead_high _ hon).and (nowHigh_of_timeNowRead H _ hon)
  rw [hmodel] at hstated
  exact absurd hstated (by decide)

end Sys2Proof.Machine
end

-- ==== The queue ====
section
/-!
PROOFS. A step answers a state from every state, and takes the command at the front of the queue and no other (O1, O3).
-/
namespace Sys2Proof.Machine

/-- Every command ends: its outcome is a state with the queue as it was. -/
theorem exec_ends (c : Instr) (s : State) : ∃ t : State, exec c s = s.ends t := by
  cases c <;> exact ⟨_, rfl⟩

/-- A step answers a state; with a command waiting, the queue has lost its front and no more. -/
theorem step_next (s : State) : ∃ t : State, step s = .next t ∧ (s.pending ≠ [] → t.pending = s.pending.tail) := by
  cases hq : s.pending with
  | nil => exact ⟨_, step_nil s hq, fun h => absurd rfl h⟩
  | cons c rest =>
    obtain ⟨t, ht⟩ := exec_ends c { s with pending := rest }
    exact ⟨_, (step_cons s c rest hq).trans ht, fun _ => rfl⟩

theorem run_succ {s t : State} (k : Nat) (h : step s = .next t) : Host.Core.run Sys2Proof.core (k + 1) s = Host.Core.run Sys2Proof.core k t := by
  simp only [Host.Core.run, Sys2Proof.core, h]

theorem safe_of_step (s : State) : s.Safe := by
  intro k
  induction k generalizing s with
  | zero => exact ⟨s, rfl⟩
  | succ k ih =>
    obtain ⟨t, ht, -⟩ := step_next s
    obtain ⟨u, hu⟩ := ih t
    exact ⟨u, (run_succ k ht).trans hu⟩

theorem run_drops (k : Nat) (s : State) (h : k ≤ s.pending.length) :
    ∃ t : State, Host.Core.run Sys2Proof.core k s = .next t ∧ t.pending = s.pending.drop k := by
  induction k generalizing s with
  | zero => exact ⟨s, rfl, rfl⟩
  | succ k ih =>
    obtain ⟨t, ht, hq⟩ := step_next s
    have hne : s.pending ≠ [] := List.ne_nil_of_length_pos (by omega)
    have hlen : k ≤ t.pending.length := by
      rw [hq hne, List.length_tail]
      omega
    obtain ⟨u, hu, hdrop⟩ := ih t hlen
    exact ⟨u, (run_succ k ht).trans hu, by rw [hdrop, hq hne, List.drop_tail]⟩

/-- Settles O3: by the steps, each of which takes the front command. -/
theorem queueDrains : Obligations.QueueDrains := fun s => ⟨safe_of_step s, fun k h => run_drops k s h⟩

/-! An empty queue: what comes about with no command waiting (log entry 52). -/

/-- A tick changes time and the bookkeeping, and nothing else. -/
theorem tick_rest (s : State) : s.tick =
    { s with regs := s.tick.regs, shadow := s.tick.shadow, mem := s.tick.mem, recd := s.tick.recd, ic := s.tick.ic, time := s.tick.time } := by
  rw [State.tick]
  split
  · obtain ⟨_, _, _, _, ht, -⟩ := runTicks_eq s 1 0
    exact (kept_of_runTicks ht).1
  · rfl

/-- A tick adds one increment where the count runs. -/
theorem fine_tick (s : State) : s.tick.fine = if s.timeRuns then (s.fine + s.tickInc) % 2 ^ 96 else s.fine := by
  rw [State.tick]
  split
  · show ((BitVec.ofNat 64 (s.fineAfter 1 / 2 ^ 32 + 0)).toNat - 0) * 2 ^ 32 + (BitVec.ofNat 32 (s.fineAfter 1)).toNat = _
    rw [State.fineAfter, BitVec.toNat_ofNat, BitVec.toNat_ofNat, Nat.one_mul]
    omega
  · rfl

/-- A processor that may doze shows it in the bookkeeping alone. -/
theorem kept_fwDoze (s : State) (x : Nat) : Kept s (s.fwDoze x) := by
  rw [State.fwDoze]
  split
  · rw [State.setDoze]
    refine (kept_modProc s x _).trans (kept_set _ ⟨R.PWR_STAT, 2 + x, 1⟩ _ ?_)
    exact (by simp [Book, R.PWR_STAT] : Book R.PWR_STAT)
  · exact .refl s

theorem flushAll_of_empty {s : State} (h : ∀ p < 5, s.txq p = []) : s.flushAll = s := by
  simp only [State.flushAll, List.range_succ, List.range_zero, List.nil_append, List.cons_append, List.foldl_cons, List.foldl_nil,
    flush_of_empty (h 0 (by decide)), flush_of_empty (h 1 (by decide)), flush_of_empty (h 2 (by decide)), flush_of_empty (h 3 (by decide)),
    flush_of_empty (h 4 (by decide))]

/-- With no frame waiting to leave and no reset waiting for its reply, a tick passes and the processors may doze. -/
theorem idle_of_calm {s : State} (hr : s.cp.resetDue = false) (hq : ∀ p < 5, s.txq p = []) : s.idle = (s.tick.fwDoze 0).fwDoze 1 := by
  have htx (p : Nat) : s.tick.txq p = s.txq p := by rw [tick_rest]; rfl
  have hdue : s.tick.cp.resetDue = false := by rw [tick_rest]; exact hr
  rw [State.idle, flushAll_of_empty fun p hp => (htx p).trans (hq p hp), State.cpReset, hdue]
  rfl

theorem tick_pending (s : State) : s.tick.pending = s.pending := by rw [tick_rest]

theorem descDone_pending (s : State) (e : TxEnt) (status : Nat) : (s.descDone e status).pending = s.pending := by
  rw [State.descDone]
  split
  · rfl
  · rw [State.st, storeBytes_eq]
    rfl

theorem noteEgress_pending (s : State) (p t : Nat) (f : TxFill) : (s.noteEgress p t f).pending = s.pending := by
  cases f <;> rfl

theorem leave_pending (s : State) (p t : Nat) (e : TxEnt) (status : Nat) : (s.leave p t e status).pending = s.pending := by
  rw [State.leave, descDone_pending, noteEgress_pending, State.emit_pending, State.pmu_pending, State.modNet_pending]

theorem drain_pending (p k : Nat) (s : State) : (s.drain p k).pending = s.pending := by
  induction k generalizing s with
  | zero => rfl
  | succ k ih =>
    rw [State.drain]
    split
    · rfl
    · dsimp only
      split
      · rw [ih, leave_pending, State.modNet_pending]
      · rfl

theorem flushAll_pending (s : State) : s.flushAll.pending = s.pending :=
  foldl_keeps State.pending _ (fun t p => drain_pending p _ t) _ s

theorem foldl_pending {β : Type} {f : State → β → State} (h : ∀ t b, (f t b).pending = t.pending) (l : List β) (s : State) :
    (l.foldl f s).pending = s.pending := foldl_keeps State.pending f h l s

theorem gpioReleased_pending (s t : State) : (s.gpioReleased t).pending = t.pending :=
  foldl_pending (fun t n => by split <;> rfl) _ t

theorem ppsReleased_pending (s t : State) : (s.ppsReleased t).pending = t.pending :=
  foldl_pending (fun t n => by split <;> rfl) _ t

theorem shadowHeld_pending (s : State) : s.shadowHeld.pending = s.pending := by
  rw [State.shadowHeld]
  split <;> rfl

/-- A reset leaves the queue. -/
theorem deviceReset_pending (s : State) (k : ResetKind) : (s.deviceReset k).pending = s.pending := by
  simp only [State.deviceReset, shadowHeld_pending, State.record_pending, State.set_pending, State.setFlag_pending, State.emit_pending,
    ppsReleased_pending, gpioReleased_pending, foldl_pending, implies_true, apply_ite State.pending, ite_self]

theorem idle_pending (s : State) : s.idle.pending = s.pending := by
  have hdoze (t : State) (x : Nat) : (t.fwDoze x).pending = t.pending := by rw [(kept_fwDoze t x).rest]
  have hreset (t : State) : t.cpReset.pending = t.pending := by
    rw [State.cpReset]
    split
    · exact deviceReset_pending t _
    · rfl
  rw [State.idle, hdoze, hdoze, hreset, flushAll_pending, tick_pending]

/-- What a tick with nothing waiting leaves: the bookkeeping apart, time alone has moved on. -/
theorem idle_rest {s : State} (hr : s.cp.resetDue = false) (hq : ∀ p < 5, s.txq p = []) :
    s.idle = { s with regs := s.idle.regs, shadow := s.idle.shadow, mem := s.idle.mem, recd := s.idle.recd, ic := s.idle.ic, time := s.tick.time } := by
  rw [idle_of_calm hr hq, ((kept_fwDoze s.tick 0).trans (kept_fwDoze _ 1)).rest]
  generalize (s.tick.fwDoze 0).fwDoze 1 = t
  rw [tick_rest s]

/-- Settles O1: the front command by the step's definition, the empty queue by the tick. -/
theorem stepRunsFront : Obligations.StepRunsFront := by
  refine ⟨fun c rest s h => step_cons s c rest h, fun s h => ⟨_, step_nil s h, (idle_pending s).trans h, fun hr hq => ?_⟩⟩
  have hfine : s.idle.fine = s.tick.fine := by
    unfold State.fine State.now
    rw [idle_rest hr hq]
  rw [hfine, fine_tick, idle_rest hr hq]
  exact ⟨rfl, rfl, rfl, rfl, rfl, rfl, rfl, rfl, rfl, rfl, rfl, rfl, rfl, rfl, rfl, rfl, rfl⟩

end Sys2Proof.Machine
end

-- ==== Runs of tasks ====
section
/-!
PROOFS. What leaving a run, choosing the next task and resuming it do to the state of a task, of its engine and of the copies
(17_block_runtime R286 to R289), and the ends of runs (O22).
-/
namespace Sys2Proof.Machine

/-! The next task of an engine (R288). -/

/-- The first ready task is a ready task of the engine. -/
theorem firstReady_some {s : State} {e m : Nat} (h : s.firstReady e = some m) :
    m < 16 ∧ s.tState m = 3 ∧ s.get (F.BE_TCFG_ENG m) = e := by
  have key : ∀ (l : List Nat) (o : Option Nat), l.foldl (fun (m : Option Nat) n =>
      match m with
      | none => some n
      | some k => if s.taskBefore n k then some n else some k) o = some m → m ∈ l ∨ o = some m := by
    intro l
    induction l with
    | nil => exact fun o h => .inr h
    | cons n l ih =>
      intro o h
      rcases ih _ h with hm | hm
      · exact .inl (List.mem_cons_of_mem _ hm)
      · cases o with
        | none => exact .inl (by rw [Option.some.inj hm]; exact List.mem_cons_self)
        | some k =>
          dsimp only at hm
          split at hm
          · exact .inl (by rw [Option.some.inj hm]; exact List.mem_cons_self)
          · exact .inr hm
  rcases key _ _ h with hm | hm
  · rw [List.mem_filter, List.mem_range, Bool.and_eq_true, beq_iff_eq, beq_iff_eq] at hm
    exact ⟨hm.1, hm.2.1, hm.2.2⟩
  · exact absurd hm (by simp)

/-- A free engine takes its first ready task, or stays free. -/
theorem schedule_of_free {s : State} {e : Nat} (h : s.running e = none) :
    s.schedule e = s ∨ ∃ m < 16, s.tState m = 3 ∧ s.schedule e = s.runOn e m := by
  rw [State.schedule, h]
  cases hm : s.firstReady e with
  | none => exact .inl rfl
  | some m => exact .inr ⟨m, (firstReady_some hm).1, (firstReady_some hm).2.1, rfl⟩

/-! Words, tasks and copies after the steps of a run. -/

theorem markRun_be (s : State) (e : Nat) (on : Bool) :
    (s.markRun e on).be = { s.be with since := (s.markRun e on).be.since, runs := (s.markRun e on).be.runs } := by
  rw [State.markRun, State.modBe]
  cases s.be.since.getD e none <;> cases on <;> rfl

theorem markRun_rest (s : State) (e : Nat) (on : Bool) : s.markRun e on = { s with be := (s.markRun e on).be } := rfl

theorem markRun_word (s : State) (e : Nat) (on : Bool) (a : Nat) : (s.markRun e on).word a = s.word a := rfl

theorem markRun_get (s : State) (e : Nat) (on : Bool) (f : Fld) : (s.markRun e on).get f = s.get f := rfl

theorem modTask_word (s : State) (n : Nat) (f : Task → Task) (a : Nat) : (s.modTask n f).word a = s.word a := rfl

theorem modTask_get (s : State) (n : Nat) (f : Task → Task) (x : Fld) : (s.modTask n f).get x = s.get x := rfl

theorem set_word_ne (s : State) (f : Fld) (v : Nat) {a : Nat} (h : a ≠ f.addr) : (s.set f v).word a = s.word a := State.word_setWord_ne s h _

theorem setFlag_word_ne (s : State) (f : Fld) (b : Bool) {a : Nat} (h : a ≠ f.addr) : (s.setFlag f b).word a = s.word a :=
  State.word_setWord_ne s h _

theorem runOn_word_ne (s : State) (e m : Nat) {a : Nat} (h1 : a ≠ R.BE_TSTAT m) (h2 : a ≠ (engTask e).addr) :
    (s.runOn e m).word a = s.word a := by
  rw [State.runOn, markRun_word, set_word_ne _ _ _ h2, State.setTState, set_word_ne _ (F.BE_TSTAT_STATE m) _ h1, modTask_word]

theorem runOn_mem (s : State) (e m : Nat) : (s.runOn e m).mem = s.mem := rfl

theorem runOn_copies (s : State) (e m : Nat) : (s.runOn e m).be.copies = s.be.copies := by
  rw [State.runOn, markRun_be]
  rfl

theorem runOn_task_ne (s : State) (e : Nat) {m n : Nat} (h : n ≠ m) : (s.runOn e m).task n = s.task n := by
  rw [State.runOn, State.task, markRun_be]
  exact (State.task_modTask ..).trans (if_neg h)

theorem runOn_running (s : State) (e : Nat) {m : Nat} (h : m < 16) : (s.runOn e m).running e = some m := by
  have hget : (s.runOn e m).get (engTask e) = m := by
    rw [State.runOn, markRun_get, State.get_set _ _ _ (show 0 + 5 ≤ 32 by decide)]
    exact Nat.mod_eq_of_lt (show m < 2 ^ 5 by omega)
  rw [State.running, hget, if_pos h]

theorem runOn_tState (s : State) (e m : Nat) (he : e < 8) : (s.runOn e m).tState m = 4 := by
  have hne : (F.BE_TSTAT_STATE m).addr ≠ (engTask e).addr := by simp only [F.BE_TSTAT_STATE, R.BE_TSTAT, engTask]; omega
  rw [State.tState, State.runOn, markRun_get, State.get_set_addr _ _ _ _ hne, State.setTState, State.get_set _ _ _ (show 0 + 3 ≤ 32 by decide)]
  rfl

/-- What scheduling a free engine leaves of a task that is not ready: everything that is its own. -/
structure SparesTask (e n : Nat) (s t : State) : Prop where
  word : ∀ a, (∀ m < 16, m ≠ n → a ≠ R.BE_TSTAT m) → a ≠ (engTask e).addr → t.word a = s.word a
  mem : t.mem = s.mem
  copies : t.be.copies = s.be.copies
  task : t.task n = s.task n
  running : t.running e ≠ some n

theorem schedule_spares {s : State} {e n : Nat} (h : s.running e = none) (hn : s.tState n ≠ 3) : SparesTask e n s (s.schedule e) := by
  rcases schedule_of_free h with hs | ⟨m, hm, hst, hs⟩
  · rw [hs]
    exact ⟨fun _ _ _ => rfl, rfl, rfl, rfl, by simp [h]⟩
  · have hmn : n ≠ m := fun heq => hn (heq ▸ hst)
    rw [hs]
    refine ⟨fun a h1 h2 => runOn_word_ne s e m (h1 m hm hmn.symm) h2, rfl, runOn_copies .., runOn_task_ne s e hmn, ?_⟩
    rw [runOn_running s e hm]
    exact fun heq => hmn (Option.some.inj heq).symm

/-! Leaving a run (R303). -/

theorem leaveRun_word_ne (s : State) (e n : Nat) {a : Nat} (h1 : a ≠ R.BE_TBSTAT n) (h2 : a ≠ (engTask e).addr) :
    (s.leaveRun e n).word a = s.word a := by
  rw [State.leaveRun, markRun_word, set_word_ne _ _ _ h2, modTask_word, setFlag_word_ne _ (F.BE_TBSTAT_INV n) _ h1,
    setFlag_word_ne _ (F.BE_TBSTAT_SAT n) _ h1]

theorem leaveRun_running (s : State) (e n : Nat) : (s.leaveRun e n).running e = none := by
  have hget : (s.leaveRun e n).get (engTask e) = 31 := by
    rw [State.leaveRun, markRun_get, State.get_set _ _ _ (show 0 + 5 ≤ 32 by decide)]
    rfl
  rw [State.running, hget]
  rfl

theorem leaveRun_copies (s : State) (e n : Nat) : (s.leaveRun e n).be.copies = s.be.copies := by
  rw [State.leaveRun, markRun_be]
  rfl

theorem leaveRun_stack (s : State) (e n : Nat) : ((s.leaveRun e n).task n).ctx.stack = [] := by
  rw [State.leaveRun, State.task, markRun_be]
  exact congrArg (fun t : Task => t.ctx.stack) (State.task_modTask_same ..)

/-- BE_TBSTAT takes BSTAT: a field of it after the run is as it was written. -/
theorem leaveRun_flag (s : State) {e : Nat} (he : e < 8) (n : Nat) {f : Fld} (hf : f.addr = R.BE_TBSTAT n) :
    (s.leaveRun e n).flag f
      = ((s.setFlag (F.BE_TBSTAT_SAT n) (s.task n).ctx.sat).setFlag (F.BE_TBSTAT_INV n) (s.task n).ctx.inv).flag f := by
  have hne : f.addr ≠ (engTask e).addr := by
    rw [hf]
    simp only [R.BE_TBSTAT, engTask]
    omega
  rw [State.leaveRun, State.flag, markRun_get, State.get_set_addr _ _ _ _ hne, modTask_get, State.flag]

theorem leaveRun_sat (s : State) {e : Nat} (he : e < 8) (n : Nat) : (s.leaveRun e n).flag (F.BE_TBSTAT_SAT n) = (s.task n).ctx.sat := by
  rw [leaveRun_flag s he n rfl, State.flag, State.setFlag, State.get_set_apart _ _ _ _ (.inl (show 0 + 1 ≤ 1 by decide)), ← State.flag,
    State.flag_setFlag _ _ _ (show 0 + 1 ≤ 32 by decide) rfl]

theorem leaveRun_inv (s : State) {e : Nat} (he : e < 8) (n : Nat) : (s.leaveRun e n).flag (F.BE_TBSTAT_INV n) = (s.task n).ctx.inv := by
  rw [leaveRun_flag s he n rfl, State.flag_setFlag _ _ _ (show 1 + 1 ≤ 32 by decide) rfl]

/-! A run's end (R286, R313). -/

/-- A task that has left its run and is in a state of its own that is not READY. -/
def State.endedIn (s : State) (e n st : Nat) : State := (s.leaveRun e n).setTState n st

section
variable {s : State} {e n st : Nat}

theorem endedIn_word_ne {a : Nat} (h1 : a ≠ R.BE_TBSTAT n) (h2 : a ≠ (engTask e).addr) (h3 : a ≠ R.BE_TSTAT n) :
    (s.endedIn e n st).word a = s.word a := by
  rw [State.endedIn, State.setTState, set_word_ne _ (F.BE_TSTAT_STATE n) _ h3, leaveRun_word_ne s e n h1 h2]

theorem endedIn_tState (h : st < 8) : (s.endedIn e n st).tState n = st := by
  rw [State.endedIn, State.tState, State.setTState, State.get_set _ _ _ (show 0 + 3 ≤ 32 by decide)]
  exact Nat.mod_eq_of_lt h

theorem endedIn_running (he : e < 8) : (s.endedIn e n st).running e = none := by
  have hne : (engTask e).addr ≠ (F.BE_TSTAT_STATE n).addr := by simp only [F.BE_TSTAT_STATE, R.BE_TSTAT, engTask]; omega
  have h := leaveRun_running s e n
  rw [State.running] at h
  rw [State.running, State.endedIn, State.setTState, State.get_set_addr _ _ _ _ hne]
  exact h

theorem endedIn_flags (he : e < 8) : (s.endedIn e n st).flag (F.BE_TBSTAT_SAT n) = (s.task n).ctx.sat
    ∧ (s.endedIn e n st).flag (F.BE_TBSTAT_INV n) = (s.task n).ctx.inv := by
  have hne : R.BE_TBSTAT n ≠ (F.BE_TSTAT_STATE n).addr := by simp only [F.BE_TSTAT_STATE, R.BE_TSTAT, R.BE_TBSTAT]; omega
  rw [← leaveRun_sat s he n, ← leaveRun_inv s he n, State.endedIn, State.setTState, State.flag, State.flag, State.flag, State.flag,
    State.get_set_addr _ (F.BE_TBSTAT_SAT n) _ _ hne, State.get_set_addr _ (F.BE_TBSTAT_INV n) _ _ hne]
  exact ⟨rfl, rfl⟩

theorem endedIn_copies : (s.endedIn e n st).be.copies = s.be.copies := leaveRun_copies s e n

theorem endedIn_stack : ((s.endedIn e n st).task n).ctx.stack = [] := by
  rw [State.endedIn, State.setTState, State.set_task]
  exact leaveRun_stack s e n

theorem endedIn_mem : (s.endedIn e n st).mem = s.mem := rfl

theorem endedIn_now : (s.endedIn e n st).now = s.now := rfl

end

/-- The registers of the block runtime. -/
def BeReg (a : Nat) : Prop := 0x40180000 ≤ a

/-- Between two states only the bookkeeping, the block runtime's registers and its hidden state change. -/
abbrev BeFrame (s t : State) : Prop := Frame BeReg (fun _ => False) [.be] s t

theorem BeFrame.trans {s t u : State} (h : BeFrame s t) (g : BeFrame t u) : BeFrame s u := Frame.trans (fun _ ha => .inr (by unfold BeReg at ha; omega)) h g

theorem beFrame_set (s : State) (f : Fld) (v : Nat) (h : 0x40180000 ≤ f.addr) : BeFrame s (s.set f v) := frame_set s f v h

theorem beFrame_setFlag (s : State) (f : Fld) (b : Bool) (h : 0x40180000 ≤ f.addr) : BeFrame s (s.setFlag f b) := frame_setFlag s f b h

theorem beFrame_modBe (s : State) (f : Be → Be) : BeFrame s (s.modBe f) where
  word _ _ _ := rfl
  shWord _ _ _ := rfl
  byte _ _ _ := rfl
  part u hu _ _ := by
    cases u with
    | be => exact absurd List.mem_cons_self hu
    | _ => rfl

theorem beFrame_kept {s t : State} (h : Kept s t) : BeFrame s t := h.frame _ _ _

theorem beFrame_modTask (s : State) (n : Nat) (f : Task → Task) : BeFrame s (s.modTask n f) := beFrame_modBe s _

theorem beFrame_markRun (s : State) (e : Nat) (on : Bool) : BeFrame s (s.markRun e on) := by
  rw [State.markRun]
  exact beFrame_modBe s _

theorem beFrame_engTask (s : State) (e v : Nat) : BeFrame s (s.set (engTask e) v) := beFrame_set s _ v (by simp only [engTask]; omega)

theorem beFrame_setTState (s : State) (n v : Nat) : BeFrame s (s.setTState n v) :=
  beFrame_set s _ v (by simp only [F.BE_TSTAT_STATE, R.BE_TSTAT]; omega)

theorem beFrame_leaveRun (s : State) (e n : Nat) : BeFrame s (s.leaveRun e n) := by
  rw [State.leaveRun]
  exact ((((beFrame_setFlag s (F.BE_TBSTAT_SAT n) _ (by simp only [F.BE_TBSTAT_SAT, R.BE_TBSTAT]; omega)).trans
    (beFrame_setFlag _ (F.BE_TBSTAT_INV n) _ (by simp only [F.BE_TBSTAT_INV, R.BE_TBSTAT]; omega))).trans (beFrame_modTask ..)).trans
    (beFrame_engTask ..)).trans (beFrame_markRun ..)

theorem beFrame_endedIn (s : State) (e n st : Nat) : BeFrame s (s.endedIn e n st) := (beFrame_leaveRun s e n).trans (beFrame_setTState ..)

theorem beFrame_runOn (s : State) (e m : Nat) : BeFrame s (s.runOn e m) := by
  rw [State.runOn]
  exact (((beFrame_modTask s ..).trans (beFrame_setTState ..)).trans (beFrame_engTask ..)).trans (beFrame_markRun ..)

theorem beFrame_schedule {s : State} {e : Nat} (h : s.running e = none) : BeFrame s (s.schedule e) := by
  rcases schedule_of_free h with hs | ⟨m, -, -, hs⟩
  · rw [hs]
    exact Frame.refl ..
  · rw [hs]
    exact beFrame_runOn ..

/-- What END and a trap leave of a task of context k and of its engine. -/
structure RunEnded (s : State) (e n st : Nat) (k : Ctx) (t : State) : Prop where
  state : t.get (F.BE_TSTAT_STATE n) = st
  sat : t.flag (F.BE_TBSTAT_SAT n) = k.sat
  inv : t.flag (F.BE_TBSTAT_INV n) = k.inv
  stack : (t.task n).ctx.stack = []
  running : t.running e ≠ some n
  frame : BeFrame s t

theorem runEnded_endedIn {s u : State} {e n st : Nat} (hs : BeFrame s u) (he : e < 8) (hst : st < 8) :
    RunEnded s e n st (u.task n).ctx (u.endedIn e n st) where
  state := endedIn_tState hst
  sat := (endedIn_flags he).1
  inv := (endedIn_flags he).2
  stack := endedIn_stack
  running := by simp [endedIn_running he]
  frame := hs.trans (beFrame_endedIn u e n st)

/-- What leaves the task's words, its state and its engine leaves the ended run. -/
theorem RunEnded.step {s t u : State} {e n st : Nat} {k : Ctx} (h : RunEnded s e n st k t) (h1 : u.word (R.BE_TBSTAT n) = t.word (R.BE_TBSTAT n))
    (h2 : u.get (F.BE_TSTAT_STATE n) = t.get (F.BE_TSTAT_STATE n)) (h3 : u.task n = t.task n) (h4 : u.running e ≠ some n) (h5 : BeFrame t u) :
    RunEnded s e n st k u where
  state := h2.trans h.state
  sat := (congrArg (fun w => (F.BE_TBSTAT_SAT n).of w != 0) h1).trans h.sat
  inv := (congrArg (fun w => (F.BE_TBSTAT_INV n).of w != 0) h1).trans h.inv
  stack := h3 ▸ h.stack
  running := h4
  frame := h.frame.trans h5

section
variable {s t u : State} {e n st : Nat} {k : Ctx}

/-- The bookkeeping leaves an ended run. -/
theorem RunEnded.kept (h : RunEnded s e n st k t) (g : Kept t u) (he : e < 8) : RunEnded s e n st k u := by
  refine h.step (g.word _ ?_) (g.get ?_) ?_ ?_ (beFrame_kept g)
  · simp only [Book, R.BE_TBSTAT]
    omega
  · simp only [Book, F.BE_TSTAT_STATE, R.BE_TSTAT]
    omega
  · rw [State.task, g.rest, State.task]
  · have hr : u.get (engTask e) = t.get (engTask e) := g.get (by simp only [Book, engTask]; omega)
    rw [State.running, hr]
    exact h.running

/-- The next task's start leaves an ended run. -/
theorem RunEnded.schedule (h : RunEnded s e n st k t) (hfree : t.running e = none) (hst : st ≠ 3) (hn : n < 16) (he : e < 8) :
    RunEnded s e n st k (t.schedule e) := by
  have g := schedule_spares (n := n) hfree (by rw [State.tState, h.state]; exact hst)
  refine h.step (g.word _ ?_ ?_) (State.get_congr (g.word _ ?_ ?_)) g.task g.running (beFrame_schedule hfree)
  · intro m _ _
    simp only [R.BE_TBSTAT, R.BE_TSTAT]
    omega
  · simp only [R.BE_TBSTAT, engTask]
    omega
  · intro m _ hm
    simp only [F.BE_TSTAT_STATE, R.BE_TSTAT]
    omega
  · simp only [F.BE_TSTAT_STATE, R.BE_TSTAT, engTask]
    omega

end

theorem askCopy_word (s : State) (n : Nat) (out : Bool) (a : Nat) : (s.askCopy n out).word a = s.word a := rfl

theorem askCopy_get (s : State) (n : Nat) (out : Bool) (f : Fld) : (s.askCopy n out).get f = s.get f := rfl

theorem askCopy_task (s : State) (n : Nat) (out : Bool) (m : Nat) : (s.askCopy n out).task m = s.task m := rfl

theorem askCopy_running (s : State) (n : Nat) (out : Bool) (e : Nat) : (s.askCopy n out).running e = s.running e := rfl

/-- A copy asked for comes last in the mover's list. -/
theorem askCopy_copies (s : State) (n : Nat) (out : Bool) :
    (s.askCopy n out).be.copies = s.be.copies ++ [⟨s.now, s.get (F.BE_TCFG_PRIO n), n, out, s.ioEntries n out, false⟩] := rfl

theorem beFrame_askCopy (s : State) (n : Nat) (out : Bool) : BeFrame s (s.askCopy n out) := by
  rw [State.askCopy]
  exact beFrame_modBe s _

/-- The end of a run by END: its task waits for the output copy it asked for. -/
theorem endRun_ended {s u : State} {e n : Nat} (hu : BeFrame s u) (hn : n < 16) (he : e < 8) :
    RunEnded s e n 5 (u.task n).ctx (u.endRun e n)
      ∧ ∃ c : Copy, (u.endRun e n).be.copies = u.be.copies ++ [c] ∧ c.task = n ∧ c.out = true ∧ c.req = u.now := by
  have hfree : ((u.endedIn e n 5).askCopy n true).running e = none := (askCopy_running ..).trans (endedIn_running he)
  have hend : RunEnded s e n 5 (u.task n).ctx ((u.endedIn e n 5).askCopy n true) :=
    (runEnded_endedIn hu he (by decide)).step (askCopy_word ..) (askCopy_get ..) (askCopy_task ..) (by simp [hfree]) (beFrame_askCopy ..)
  have hst : ((u.endedIn e n 5).askCopy n true).tState n ≠ 3 := by
    rw [State.tState, hend.state]
    decide
  have hcopies : (u.endRun e n).be.copies = u.be.copies
      ++ [⟨u.now, (u.endedIn e n 5).get (F.BE_TCFG_PRIO n), n, true, (u.endedIn e n 5).ioEntries n true, false⟩] := by
    rw [← endedIn_now (e := e) (n := n) (st := 5), ← endedIn_copies (s := u) (e := e) (n := n) (st := 5), ← askCopy_copies]
    exact (schedule_spares hfree hst).copies
  exact ⟨hend.schedule hfree (by decide) hn he, _, hcopies, rfl, rfl, rfl⟩

/-- A trap's task and BE_ECC before the trap is reported, and after. -/
def State.trapMarked (u : State) (e n cause : Nat) : State :=
  if cause = 3 then ((u.endedIn e n tFault).set (F.BE_TSTAT_TRAP n) cause).bump F.BE_ECC_UNCORR
  else (u.endedIn e n tFault).set (F.BE_TSTAT_TRAP n) cause

def State.trapArrived (u : State) (e n cause : Nat) : State :=
  if cause = 3 then (u.trapMarked e n cause).arrive 305 ((u.trapMarked e n cause).word R.BE_ECC) else u.trapMarked e n cause

def State.trapReported (u : State) (e n cause : Nat) : State :=
  (u.trapArrived e n cause).record 305 ((u.trapArrived e n cause).word R.BE_ECC) .loaf

theorem trapRun_eq (u : State) (e n cause : Nat) : u.trapRun e n cause = (u.trapReported e n cause).schedule e := by
  rw [State.trapReported, State.trapArrived, State.trapMarked, State.trapRun]
  by_cases hc : cause = 3
  · simp only [if_pos hc, State.endedIn]
  · simp only [if_neg hc, State.endedIn]

/-- A trap's reports are bookkeeping. -/
theorem kept_trapReported (u : State) (e n cause : Nat) : Kept (u.trapMarked e n cause) (u.trapReported e n cause) := by
  refine Kept.trans ?_ (kept_record _ 305 _ .loaf)
  rw [State.trapArrived]
  split
  · exact kept_arrive ..
  · exact .refl _

theorem trapMarked_get {u : State} {e n cause : Nat} {f : Fld} (h : f.addr ≠ R.BE_ECC) :
    (u.trapMarked e n cause).get f = ((u.endedIn e n tFault).set (F.BE_TSTAT_TRAP n) cause).get f := by
  rw [State.trapMarked]
  split
  · exact State.get_set_addr _ _ _ _ h
  · rfl

/-- BE_ECC once the trap is marked: of an ECC trap, one more uncorrected error. -/
theorem trapMarked_ecc {u : State} {e n cause : Nat} (hn : n < 16) (he : e < 8) :
    (u.trapMarked e n cause).get F.BE_ECC_CORR = u.get F.BE_ECC_CORR
      ∧ (cause ≠ 3 → (u.trapMarked e n cause).get F.BE_ECC_UNCORR = u.get F.BE_ECC_UNCORR)
      ∧ (cause = 3 → (u.trapMarked e n cause).get F.BE_ECC_UNCORR = min 255 (u.get F.BE_ECC_UNCORR + 1)) := by
  have hw : ((u.endedIn e n tFault).set (F.BE_TSTAT_TRAP n) cause).word R.BE_ECC = u.word R.BE_ECC := by
    rw [set_word_ne _ (F.BE_TSTAT_TRAP n) _ (by simp only [R.BE_ECC, F.BE_TSTAT_TRAP, R.BE_TSTAT]; omega), endedIn_word_ne]
    · simp only [R.BE_ECC, R.BE_TBSTAT]; omega
    · simp only [R.BE_ECC, engTask]; omega
    · simp only [R.BE_ECC, R.BE_TSTAT]; omega
  have hc : ((u.endedIn e n tFault).set (F.BE_TSTAT_TRAP n) cause).get F.BE_ECC_CORR = u.get F.BE_ECC_CORR := State.get_congr hw
  have hu : ((u.endedIn e n tFault).set (F.BE_TSTAT_TRAP n) cause).get F.BE_ECC_UNCORR = u.get F.BE_ECC_UNCORR := State.get_congr hw
  rw [State.trapMarked]
  refine ⟨?_, fun h => ?_, fun h => ?_⟩
  · split
    · rw [State.bump, State.bumpBy, State.get_set_apart _ _ _ _ (.inl (by decide)), hc]
    · exact hc
  · rw [if_neg h, hu]
  · rw [if_pos h, State.get_bump _ _ (by decide), hu]
    rfl

theorem trapMarked_running {u : State} {e n cause : Nat} (he : e < 8) : (u.trapMarked e n cause).running e = none := by
  have h1 : (engTask e).addr ≠ R.BE_ECC := by simp only [engTask, R.BE_ECC]; omega
  have h2 : (engTask e).addr ≠ (F.BE_TSTAT_TRAP n).addr := by simp only [F.BE_TSTAT_TRAP, R.BE_TSTAT, engTask]; omega
  have h := endedIn_running (s := u) (n := n) (st := tFault) he
  rw [State.running] at h ⊢
  rwa [trapMarked_get h1, State.get_set_addr _ _ _ _ h2]

theorem trapMarked_rest (u : State) (e n cause : Nat) :
    (u.trapMarked e n cause).be = (u.endedIn e n tFault).be ∧ BeFrame (u.endedIn e n tFault) (u.trapMarked e n cause) := by
  have hset : BeFrame (u.endedIn e n tFault) ((u.endedIn e n tFault).set (F.BE_TSTAT_TRAP n) cause) :=
    beFrame_set _ (F.BE_TSTAT_TRAP n) _ (by simp only [F.BE_TSTAT_TRAP, R.BE_TSTAT]; omega)
  rw [State.trapMarked]
  split
  · exact ⟨by rw [State.bump_be, State.set_be], hset.trans (frame_bump _ F.BE_ECC_UNCORR (by simp [BeReg, F.BE_ECC_UNCORR, R.BE_ECC]))⟩
  · exact ⟨State.set_be .., hset⟩

/-- A trap: its task is in FAULT with the cause, no copy is asked for, and BE_ECC shows an ECC trap. -/
theorem trapRun_ended {s u : State} {e n cause : Nat} (hu : BeFrame s u) (hn : n < 16) (he : e < 8) (hc : cause < 8) :
    let t := u.trapRun e n cause
    RunEnded s e n 6 (u.task n).ctx t ∧ t.get (F.BE_TSTAT_TRAP n) = cause ∧ t.be.copies = u.be.copies
      ∧ t.get F.BE_ECC_CORR = u.get F.BE_ECC_CORR ∧ (cause ≠ 3 → t.get F.BE_ECC_UNCORR = u.get F.BE_ECC_UNCORR)
      ∧ (cause = 3 → t.get F.BE_ECC_UNCORR = min 255 (u.get F.BE_ECC_UNCORR + 1)) := by
  have hstat : (F.BE_TSTAT_TRAP n).addr ≠ R.BE_ECC := by simp only [F.BE_TSTAT_TRAP, R.BE_TSTAT, R.BE_ECC]; omega
  have htb : (F.BE_TBSTAT_SAT n).addr ≠ R.BE_ECC := by simp only [F.BE_TBSTAT_SAT, R.BE_TBSTAT, R.BE_ECC]; omega
  have htbs : (F.BE_TBSTAT_SAT n).addr ≠ (F.BE_TSTAT_TRAP n).addr := by simp only [F.BE_TBSTAT_SAT, R.BE_TBSTAT, F.BE_TSTAT_TRAP, R.BE_TSTAT]; omega
  obtain ⟨hbe, hframe⟩ := trapMarked_rest u e n cause
  obtain ⟨hcorr, hsame, hmore⟩ := trapMarked_ecc (u := u) (cause := cause) hn he
  have hword : (u.trapMarked e n cause).word (R.BE_TBSTAT n) = (u.endedIn e n tFault).word (R.BE_TBSTAT n) := by
    rw [State.trapMarked]
    split
    · exact (set_word_ne _ F.BE_ECC_UNCORR _ htb).trans (set_word_ne _ (F.BE_TSTAT_TRAP n) _ htbs)
    · exact set_word_ne _ (F.BE_TSTAT_TRAP n) _ htbs
  have hstate : (u.trapMarked e n cause).get (F.BE_TSTAT_STATE n) = (u.endedIn e n tFault).get (F.BE_TSTAT_STATE n) :=
    (trapMarked_get (f := F.BE_TSTAT_STATE n) hstat).trans
      (State.get_set_apart _ (F.BE_TSTAT_STATE n) (F.BE_TSTAT_TRAP n) _ (.inl (show 0 + 3 ≤ 3 by decide)))
  have hmarked : RunEnded s e n 6 (u.task n).ctx (u.trapMarked e n cause) :=
    (runEnded_endedIn (st := tFault) hu he (by decide)).step hword hstate (by rw [State.task, hbe, State.task]) (by simp [trapMarked_running he]) hframe
  have hkept := kept_trapReported u e n cause
  have hrep := hmarked.kept hkept he
  have hfree : (u.trapReported e n cause).running e = none := by
    have h := trapMarked_running (u := u) (n := n) (cause := cause) he
    rw [State.running] at h ⊢
    rwa [hkept.get (by simp only [Book, engTask]; omega)]
  have hspare := schedule_spares (n := n) hfree (by rw [State.tState, hrep.state]; decide)
  have hecc (f : Fld) (hf : f.addr = R.BE_ECC) : ((u.trapReported e n cause).schedule e).get f = (u.trapMarked e n cause).get f := by
    refine (State.get_congr (hspare.word _ (fun m _ _ => ?_) ?_)).trans (hkept.get ?_) <;> rw [hf]
    · simp only [R.BE_ECC, R.BE_TSTAT]; omega
    · simp only [R.BE_ECC, engTask]; omega
    · simp [Book, R.BE_ECC]
  have htrap : ((u.trapReported e n cause).schedule e).get (F.BE_TSTAT_TRAP n) = cause := by
    refine (State.get_congr (hspare.word _ (fun m _ hm => ?_) ?_)).trans ((hkept.get ?_).trans ((trapMarked_get hstat).trans ?_))
    · simp only [F.BE_TSTAT_TRAP, R.BE_TSTAT]; omega
    · simp only [F.BE_TSTAT_TRAP, R.BE_TSTAT, engTask]; omega
    · simp only [F.BE_TSTAT_TRAP, R.BE_TSTAT, Book]; omega
    · rw [State.get_set _ _ _ (show 3 + 3 ≤ 32 by decide)]
      exact Nat.mod_eq_of_lt hc
  have hcopies : ((u.trapReported e n cause).schedule e).be.copies = u.be.copies := by
    rw [hspare.copies, hkept.rest]
    exact (congrArg Be.copies hbe).trans endedIn_copies
  rw [trapRun_eq]
  exact ⟨hrep.schedule hfree (by decide) hn he, htrap, hcopies, (hecc _ rfl).trans hcorr, fun h => (hecc _ rfl).trans (hsame h),
    fun h => (hecc _ rfl).trans (hmore h)⟩

/-- The corrected errors met before a trap are counted in BE_ECC. -/
theorem eccCorrected_spec (s : State) (k : Nat) : (s.eccCorrected k).get F.BE_ECC_CORR = min 65535 (s.get F.BE_ECC_CORR + k)
    ∧ (s.eccCorrected k).get F.BE_ECC_UNCORR = s.get F.BE_ECC_UNCORR ∧ BeFrame s (s.eccCorrected k) ∧ (s.eccCorrected k).be = s.be := by
  have hlt : s.get F.BE_ECC_CORR < 65536 := get_lt s _
  rw [State.eccCorrected]
  split
  · exact ⟨by omega, rfl, Frame.refl .., rfl⟩
  · refine ⟨?_, State.get_set_apart _ _ _ _ (.inr (by decide)), beFrame_set _ F.BE_ECC_CORR _ (by decide), rfl⟩
    rw [State.get_set _ _ _ (by decide)]
    exact Nat.mod_eq_of_lt (show _ < 2 ^ 16 by omega)

theorem running_lt {s : State} {e n : Nat} (h : s.running e = some n) : n < 16 := by
  rw [State.running] at h
  split at h
  · rw [← Option.some.inj h]
    assumption
  · cases h

/-- Settles O22: END by the ended run, a trap by the ended run and BE_ECC. -/
theorem runEndsAndTraps : Obligations.RunEndsAndTraps := by
  intro s e n c corr hr
  have hn := running_lt hr
  refine ⟨?stop, fun hc hd => ?spelled, fun hd => ?trap⟩
  case stop =>
    have hkept := kept_pmu s (8 + e.val) (book_engine e)
    obtain ⟨hend, cp, hcp, htask, hout, hreq⟩ := endRun_ended (beFrame_kept hkept) hn e.isLt
    refine Completes.of (t := (s.pmu (8 + e.val)).endRun e n) ?_ ⟨hend.state, ⟨cp, ?_, htask, hout, ?_⟩, ?_, ?_, hend.stack, hend.running,
      fun a ha => hend.frame.byte a ha not_false⟩
    · show s.ends (match s.running e.val with | none => s | some n => (s.pmu (8 + e.val)).endRun e n) = _
      rw [hr]
    · exact hcp.trans (by rw [State.pmu_be])
    · exact hreq.trans (State.pmu_now ..)
    · exact hend.sat.trans (by rw [State.pmu_task])
    · exact hend.inv.trans (by rw [State.pmu_task])
  case spelled =>
    refine Completes.of (t := s) ?_ rfl
    show s.ends (match s.running e.val with
      | none => s
      | some n => if c.val = 0 && (beDecode e (s.codeWord e (s.task n).ctx)).isSome then s else (s.eccCorrected corr).trapRun e n (c.val + 1)) = _
    rw [hr]
    subst hc
    simp only [hd]
    rfl
  case trap =>
    obtain ⟨hcorr, huncorr, hframe, hbe⟩ := eccCorrected_spec s corr
    have hcause := c.isLt
    obtain ⟨hend, htrap, hcopies, hc1, hc2, hc3⟩ := trapRun_ended (cause := c.val + 1) hframe hn e.isLt (by omega)
    refine Completes.of (t := (s.eccCorrected corr).trapRun e n (c.val + 1)) ?_ ⟨hend.state, htrap, hcopies.trans (by rw [hbe]), hc1.trans hcorr,
      fun h => (hc2 (by omega)).trans huncorr, fun h => (hc3 (by omega)).trans (by rw [huncorr]), ?_, ?_, hend.stack, hend.running,
      fun a ha => hend.frame.byte a ha not_false⟩
    · show s.ends (match s.running e.val with
        | none => s
        | some n => if c.val = 0 && (beDecode e (s.codeWord e (s.task n).ctx)).isSome then s
          else (s.eccCorrected corr).trapRun e n (c.val + 1)) = _
      rw [hr]
      refine congrArg s.ends (if_neg fun h => ?_)
      simp only [Bool.and_eq_true, decide_eq_true_eq] at h
      have := hd (Fin.ext h.1)
      rw [h.2] at this
      cases this
    · exact hend.sat.trans (by rw [State.task, hbe, State.task])
    · exact hend.inv.trans (by rw [State.task, hbe, State.task])

end Sys2Proof.Machine
end

-- ==== Releases with device time stopped ====
section
/-!
PROOFS. The block runtime's statement (O25) fails in its clause of a release: a release that comes while device time is held asks
for its copy at the instant that stands.
-/
namespace Sys2Proof.Machine

-- The states below are concrete, and the kernel evaluates the model on them, one after another.
set_option Elab.async false

/-- The block runtime on, task 0 off its instant, and device time held: NET off and REFCLK stopped, 1 ns after a servo tick. -/
def heldBetweenTicks : State :=
  ((((State.reset.set F.PWR_DOM_STAT_ON 4).setFlag F.BE_CTRL_EN true).setFlag (F.BE_TCFG_EN 0) true).modPwr fun p => { p with refRuns := false }).modTime
    fun t => { t with count := 1 }

/-- The release asks for its input copy at the instant at which device time stands. -/
theorem taskRelease_held : Completes (.taskRelease 0) heldBetweenTicks fun t => t.be.copies.map Copy.req = [1] :=
  Completes.of rfl (by decide +kernel)

/-- What O25 says of the copy's request. -/
theorem request_of_taskRuntime (H : Obligations.TaskRuntime) :
    Completes (.taskRelease 0) heldBetweenTicks fun t => ∃ due, due % 125000 = 0 ∧ t.be.copies.map Copy.req = [due] := by
  obtain ⟨-, hrelease, -⟩ := H heldBetweenTicks 0 .host
  obtain ⟨hidle, -⟩ := hrelease (by decide +kernel) (by decide +kernel) (by decide +kernel)
  obtain ⟨t, ht, due, hfits, -, -, -, -, -, -, -, hcopies⟩ := hidle (by decide +kernel) (by decide +kernel)
  have hnone : heldBetweenTicks.be.copies = [] := by decide +kernel
  rw [hnone] at hcopies
  refine ⟨t, ht, due, hfits.1, ?_⟩
  have h := congrArg (List.map fun x : Nat × Bool × Nat => x.2.2) hcopies
  rwa [List.map_map] at h

/-- Refutes O25, in its clause of TASK_RELEASE: with NET off and REFCLK stopped device time is held, and the copy of a release is asked
for at the instant that stands, which is no servo tick. -/
theorem not_taskRuntime : ¬ Obligations.TaskRuntime := by
  intro H
  obtain ⟨t, -, hmodel, due, hdue, hstated⟩ := taskRelease_held.and (request_of_taskRuntime H)
  rw [hmodel] at hstated
  obtain rfl : 1 = due := by simpa using hstated
  exact absurd hdue (by decide)

end Sys2Proof.Machine
end

-- ==== Delay responses while a request still waits ====
section
/-!
PROOFS. The PTP ports' statement (O39) fails in its clause of a Delay_Resp: before the response is read, the frames that have started
to leave are taken as sent, and a Delay_Req among them replaces the request the port had kept.
-/
namespace Sys2Proof.Machine

-- The states below are concrete, and the kernel evaluates the model on them, one after another.
set_option Elab.async false

/-- A Delay_Req with sequence number 8 that has waited for the transmitter since the start of device time. -/
def waitingDelayReq : TxEnt := ⟨none, false, 0, 0x88F7, [], none, 0, .dreq 8⟩

/-- An ordinary clock's port 0 that took a Sync and sent the Delay_Req with sequence number 7, with a second one queued. -/
def secondDelayReqWaits : State :=
  (((((State.reset.set F.PWR_DOM_STAT_ON (2 ^ 11)).setFlag (F.NET_CFG_EN 0) true).set F.TIME_PTP_ROLE 1).modPort 0 fun x =>
    { x with dreq := some (7, 0), lastSync := some (0, 0) })).modNet fun x => { x with tx := [[waitingDelayReq]] }

/-- The queued request leaves first, and the port waits for its answer. -/
theorem ptpDelayRespReceive_secondDelayReqWaits :
    Completes (.ptpDelayRespReceive 0 7 0) secondDelayReqWaits fun t => (t.ptpPort 0).dreq = some (8, 0) :=
  Completes.of rfl (by decide +kernel)

/-- What O39 says of the response. -/
theorem dreq_none_of_ptpPorts (H : Obligations.PtpPorts) :
    Completes (.ptpDelayRespReceive 0 7 0) secondDelayReqWaits fun t => (t.ptpPort 0).dreq = none := by
  obtain ⟨-, -, -, -, hresp, -⟩ := H secondDelayReqWaits 0 7 0 0 0 0 0 ⟨0, 0, 0, 0, 0, 0, 0, 0, 0, false, 0⟩ (by decide +kernel)
  obtain ⟨t, ht, -, hdreq⟩ := hresp 0 0 0 (by decide +kernel) (by decide +kernel) (by decide +kernel)
  exact ⟨t, ht, hdreq⟩

/-- Refutes O39, in its clause of the E2E delay measurement: a second Delay_Req that leaves as the response comes in is the one the port
then waits for, so the response of the first ends no wait. -/
theorem not_ptpPorts : ¬ Obligations.PtpPorts := by
  intro H
  obtain ⟨t, -, hmodel, hstated⟩ := ptpDelayRespReceive_secondDelayReqWaits.and (dreq_none_of_ptpPorts H)
  rw [hmodel] at hstated
  exact absurd hstated (by decide)

end Sys2Proof.Machine
end

-- ==== Resets of a device that kept time ====
section
/-!
PROOFS. The statement of power, clocks and resets (O51) fails in what it says of the registers of class A: a reset that takes the time
base out of LOCKED writes a loaf, which takes the next SEQ.
-/
namespace Sys2Proof.Machine

-- The states below are concrete, and the kernel evaluates the model on them, one after another.
set_option Elab.async false

/-- A running device whose time base is LOCKED. -/
def lockedDevice : State := (State.reset.set F.TIME_STAT_TQ 1).modPwr fun p => { p with inReset := none }

/-- The loaf of the time base's change takes SEQ 0. -/
theorem pinReset_lockedDevice : Completes (.pinReset 100) lockedDevice fun t => t.word R.REC_SEQ = 1 :=
  Completes.of rfl (by decide +kernel)

/-- What O51 says of REC_SEQ, a register of class A, over a pin reset. -/
theorem recSeq_of_powerClocksResets (H : Obligations.PowerClocksResets) :
    Completes (.pinReset 100) lockedDevice fun t => t.word R.REC_SEQ = lockedDevice.word R.REC_SEQ := by
  obtain ⟨-, -, -, -, hresets, -⟩ := H lockedDevice .host 0 0 100 0 false
  obtain ⟨-, -, hpin, -⟩ := hresets (by decide +kernel)
  obtain ⟨t, ht, ⟨-, -, -, -, -, -, -, -, -, -, -, hkept, -⟩, -⟩ := hpin (Nat.le_refl _)
  obtain ⟨r, hr, hall⟩ : ∃ r, regDesc R.REC_SEQ = some r ∧ r.clsA = allBits :=
    ⟨⟨0x40050004, [], 0, 0, 0, 0, 0, 0, 0, 0, 0, allBits, 0, 0⟩, by decide +kernel, rfl⟩
  exact ⟨t, ht, hkept (by decide) _ r hr hall (by decide) (by decide)⟩

/-- Refutes O51, in its clause of what a reset keeps: a pin reset takes a LOCKED time base to NONE, which writes a loaf, and REC_SEQ, of
class A, counts on. -/
theorem not_powerClocksResets : ¬ Obligations.PowerClocksResets := by
  intro H
  obtain ⟨t, -, hmodel, hstated⟩ := pinReset_lockedDevice.and (recSeq_of_powerClocksResets H)
  rw [hmodel] at hstated
  exact absurd hstated (by decide +kernel)

end Sys2Proof.Machine
end

-- ==== Sections that reset the device ====
section
/-!
PROOFS. The statement of boot and images (O52) fails in its clause of the sections applied: the GNSS section is written after the
program set is loaded, as SVC and to any register, and a write that resets the device leaves no program set active.
-/
namespace Sys2Proof.Machine

-- The states below are concrete, and the kernel evaluates the model on them, one after another.
set_option Elab.async false

/-- An image whose GNSS section holds a keyed write of RST_SOFT. -/
def resettingImage : ImageCfg := { imageNone with gnss := [(R.RST_SOFT, 0x5AFE0001)], prog := { progSetNone with psig := 1 } }

/-- The firmware runs on that image, with SVC, the block runtime and the receiver on. -/
def firmwareOnResettingImage : State :=
  (State.reset.set F.PWR_DOM_STAT_ON (2 ^ 1 + 2 ^ 2 + 2 ^ 9 + 2 ^ 10)).modPwr fun p => { p with stage := .firmware, inReset := none, image := resettingImage }

/-- The reset leaves the program set of reset active. -/
theorem sectionsApplied_resettingImage : Completes .sectionsApplied firmwareOnResettingImage fun t => t.be.set.psig = 0 :=
  Completes.of rfl (by decide +kernel)

/-- What O52 says of the active program set. -/
theorem activeSet_of_bootAndImages (H : Obligations.BootAndImages) :
    Completes .sectionsApplied firmwareOnResettingImage fun t => t.be.set = resettingImage.prog := by
  obtain ⟨-, -, -, happlied, -⟩ := H firmwareOnResettingImage 0 false false false 0 imageNone 0 [] 0 0 0
  obtain ⟨t, ht, -, -, -, -, -, hset⟩ := happlied (by decide +kernel) (by decide +kernel)
  exact ⟨t, ht, hset⟩

/-- Refutes O52, in its clause of the sections applied: a GNSS section that makes a soft reset leaves the image's program set not
active. -/
theorem not_bootAndImages : ¬ Obligations.BootAndImages := by
  intro H
  obtain ⟨t, -, hmodel, hstated⟩ := sectionsApplied_resettingImage.and (activeSet_of_bootAndImages H)
  rw [hstated] at hmodel
  exact absurd hmodel (by decide)

end Sys2Proof.Machine
end

-- ==== A reply behind a Delay_Req ====
section
/-!
PROOFS. The statement of the Command Port's reads (O53) fails in what it says of the time base: on UDP a reply goes behind what waits in
P4's queue, and a frame that leaves before it can have its egress time kept.
-/
namespace Sys2Proof.Machine

-- The states below are concrete, and the kernel evaluates the model on them, one after another.
set_option Elab.async false

/-- The Command Port runs after boot, and a Delay_Req waits in P4's queue. -/
def delayReqBeforeReply : State :=
  ((((State.reset.set F.PWR_DOM_STAT_ON (2 ^ 1 + 2 ^ 11)).setFlag F.SYS_PERSONA_MATCH true).setFlag F.SYS_BOOT_DONE true).modPwr fun p => { p with stage := .done, inReset := none }).modNet
    fun x => { x with tx := [[], [], [], [], [waitingDelayReq]] }

/-- The Delay_Req leaves before the reply. -/
theorem ping_delayReqBeforeReply : Completes (.ping 2 0 0 []) delayReqBeforeReply fun t => (t.ptpPort 4).dreq = some (8, 0) :=
  Completes.of rfl (by decide +kernel)

/-- What O53 says of the time base. -/
theorem time_of_portReads (H : Obligations.PortReads) :
    Completes (.ping 2 0 0 []) delayReqBeforeReply fun t => t.time = delayReqBeforeReply.time := by
  obtain ⟨hping, -⟩ := H delayReqBeforeReply 2 0 0 [] 0 0 0 0 0
  obtain ⟨t, ht, body, -, -, -, htime, -⟩ := hping (by decide) ⟨by decide +kernel, by decide +kernel, by decide +kernel⟩
  exact ⟨t, ht, htime⟩

/-- Refutes O53, in its clause that a request changes nothing of the time base: a Delay_Req in P4's queue leaves before the reply of a
PING, and its egress time is kept. -/
theorem not_portReads : ¬ Obligations.PortReads := by
  intro H
  obtain ⟨t, -, hmodel, hstated⟩ := ping_delayReqBeforeReply.and (time_of_portReads H)
  rw [State.ptpPort, hstated] at hmodel
  exact absurd hmodel (by decide +kernel)

end Sys2Proof.Machine
end

-- ==== A counter of cycles with device time stopped ====
section
/-!
PROOFS. The statement of interrupts, recorder and counters (O58) fails in its clause of an overflow: counter 0 counts as device time
runs on, and while device time is held it does not overflow.
-/
namespace Sys2Proof.Machine

-- The states below are concrete, and the kernel evaluates the model on them, one after another.
set_option Elab.async false

/-- Counter 0 at its last value, with NET off and REFCLK stopped. -/
def heldAtLastCycle : State := (State.reset.pmuPut 0 (2 ^ 48 - 1)).modPwr fun p => { p with refRuns := false }

/-- Device time is held, and the counter's bit of PMU_OVF stays 0. -/
theorem counterOverflow_heldAtLastCycle : Completes (.counterOverflow 0) heldAtLastCycle fun t => t.word (R.PMU_OVF 0) = 0 :=
  Completes.of rfl (by decide +kernel)

/-- What O58 says of that bit. -/
theorem overflow_of_interruptsRecorderCounters (H : Obligations.InterruptsRecorderCounters) :
    Completes (.counterOverflow 0) heldAtLastCycle fun t => (t.word (R.PMU_OVF 0)).getLsbD 0 = true := by
  obtain ⟨-, -, -, -, -, -, -, -, -, -, -, -, hoverflow, -⟩ := H heldAtLastCycle 0 0 0 0 0 .host 0 false
  obtain ⟨t, ht, hspills, -⟩ := hoverflow (by decide +kernel) (fun h => absurd h.1 (by decide)) (by decide +kernel) (by decide +kernel)
    (by decide +kernel)
  exact ⟨t, ht, hspills (.inl (by decide +kernel))⟩

/-- Refutes O58, in its clause of a counter's overflow: with NET off and REFCLK stopped device time is held, and counter 0 stays at its
last value. -/
theorem not_interruptsRecorderCounters : ¬ Obligations.InterruptsRecorderCounters := by
  intro H
  obtain ⟨t, -, hmodel, hstated⟩ := counterOverflow_heldAtLastCycle.and (overflow_of_interruptsRecorderCounters H)
  rw [hmodel] at hstated
  exact absurd hstated (by decide)

end Sys2Proof.Machine
end

-- ==== How the Command Port receives ====
section
/-!
PROOFS. How the Command Port receives (O57): the bytes of a packet are hunted for its SYNC and taken whole; a packet taken is answered
by the transport it came on; bytes of no packet are kept, dropped or counted.
-/
namespace Sys2Proof.Machine

/-! A request's bytes (R322). -/

/-- A packet with any CRC. -/
def cpFrame (flags op seq : Byte) (p : List Byte) (c : Nat) : List Byte :=
  let h := leBytes 1 0xD7 ++ leBytes 1 flags.toNat ++ leBytes 1 op.toNat ++ leBytes 1 seq.toNat ++ leBytes 2 p.length
  h ++ [crc8 h] ++ p ++ leBytes 4 c

/-- What the CRC of a packet stands over. -/
def cpBody (flags op seq : Byte) (p : List Byte) : List Byte :=
  let h := leBytes 1 0xD7 ++ leBytes 1 flags.toNat ++ leBytes 1 op.toNat ++ leBytes 1 seq.toNat ++ leBytes 2 p.length
  h ++ [crc8 h] ++ p

theorem leBytes_one_toNat (b : Byte) : leBytes 1 b.toNat = [b] := by simp [leBytes]

theorem leNat_leBytes : ∀ (n v : Nat), v < 256 ^ n → leNat (leBytes n v) = v
  | 0, v, h => by simp at h; simp [leBytes, leNat, h]
  | n + 1, v, h => by
    rw [Nat.pow_succ] at h
    rw [leBytes, leNat, leNat_leBytes n (v / 256) (Nat.div_lt_of_lt_mul (by omega)), BitVec.toNat_ofNat]
    exact Nat.mod_add_div v 256

theorem length_cpBody (flags op seq : Byte) (p : List Byte) : (cpBody flags op seq p).length = 7 + p.length := by
  simp [cpBody, length_leBytes]
  omega

theorem cpFrame_eq (flags op seq : Byte) (p : List Byte) (c : Nat) : cpFrame flags op seq p c = cpBody flags op seq p ++ leBytes 4 c := rfl

theorem length_cpFrame (flags op seq : Byte) (p : List Byte) (c : Nat) : (cpFrame flags op seq p c).length = 11 + p.length := by
  rw [cpFrame_eq, List.length_append, length_cpBody, length_leBytes]
  omega

theorem cpPacket_eq (flags op seq : Byte) (p : List Byte) :
    cpPacket flags.toNat op.toNat seq.toNat p = cpFrame flags op seq p (crc32c (cpBody flags op seq p)).toNat := rfl

theorem take_cpFrame (flags op seq : Byte) (p : List Byte) (c : Nat) : (cpFrame flags op seq p c).take (7 + p.length) = cpBody flags op seq p := by
  rw [cpFrame_eq, ← length_cpBody flags op seq p, List.take_left']
  rfl

theorem cpFrame_cons (flags op seq : Byte) (p : List Byte) (c : Nat) : ∃ x, cpFrame flags op seq p c = 0xD7 :: flags :: op :: seq
    :: BitVec.ofNat 8 p.length :: BitVec.ofNat 8 (p.length / 256) :: x :: (p ++ leBytes 4 c)
    ∧ x = crc8 [0xD7, flags, op, seq, BitVec.ofNat 8 p.length, BitVec.ofNat 8 (p.length / 256)] := by
  refine ⟨_, ?_, rfl⟩
  simp [cpFrame, leBytes]

theorem cpFrame_fields (flags op seq : Byte) (p : List Byte) (c : Nat) (hp : p.length ≤ 1024) (hc : c < 2 ^ 32) :
    blkField (cpFrame flags op seq p c) 1 1 = flags.toNat ∧ blkField (cpFrame flags op seq p c) 2 1 = op.toNat
    ∧ blkField (cpFrame flags op seq p c) 3 1 = seq.toNat ∧ blkField (cpFrame flags op seq p c) 4 2 = p.length
    ∧ blkField (cpFrame flags op seq p c) (7 + p.length) 4 = c ∧ ((cpFrame flags op seq p c).drop 7).take p.length = p
    ∧ crc8 ((cpFrame flags op seq p c).take 6) = (cpFrame flags op seq p c).getD 6 0 := by
  obtain ⟨x, hx, hcrc⟩ := cpFrame_cons flags op seq p c
  have hcrc32 : blkField (cpFrame flags op seq p c) (7 + p.length) 4 = c := by
    rw [blkField, cpFrame_eq, ← length_cpBody flags op seq p, List.drop_left', List.take_of_length_le (by rw [length_leBytes]), leNat_leBytes 4 c hc]
    rfl
  refine ⟨?_, ?_, ?_, ?_, hcrc32, ?_, ?_⟩ <;> rw [hx]
  · simp [blkField, leNat]
  · simp [blkField, leNat]
  · simp [blkField, leNat]
  · simp only [blkField, List.drop_succ_cons, List.drop_zero, List.take_succ_cons, List.take_zero, leNat, BitVec.toNat_ofNat]
    omega
  · simp
  · simp [hcrc]

theorem cpHunt_nil (s : State) (t : Nat) : ∀ n, s.cpHunt t [] n = (s, [])
  | 0 => rfl
  | n + 1 => by rw [State.cpHunt]; split <;> rfl

theorem cpHunt_frame {s : State} (h : s.pwr.stage ≠ .held) (t : Nat) (flags op seq : Byte) (p : List Byte) {c : Nat} (hp : p.length ≤ 1024) (hc : c < 2 ^ 32)
    (n : Nat) : s.cpHunt t (cpFrame flags op seq p c) (n + 1) = (s.cpTake t 0 0 (cpFrame flags op seq p c), []) := by
  obtain ⟨-, -, -, hlen, -, -, hcrc⟩ := cpFrame_fields flags op seq p c hp hc
  have hl := length_cpFrame flags op seq p c
  obtain ⟨x, hx, -⟩ := cpFrame_cons flags op seq p c
  obtain ⟨rest, hr⟩ : ∃ rest, cpFrame flags op seq p c = 0xD7 :: rest := ⟨_, hx⟩
  have hdrop : (cpFrame flags op seq p c).drop (11 + p.length) = [] := List.drop_eq_nil_of_le hl.le
  have htake : (cpFrame flags op seq p c).take (11 + p.length) = cpFrame flags op seq p c := List.take_of_length_le hl.le
  rw [hr] at hlen hcrc hl hdrop htake ⊢
  rw [State.cpHunt, if_neg h]
  dsimp only
  rw [if_neg (by simp), if_neg (by omega), if_neg (by simpa using hcrc), hlen, if_neg (by omega), if_neg (by omega), hdrop, htake, cpHunt_nil]

theorem cpHunt_noSync {s : State} (h : s.pwr.stage ≠ .held) (t : Nat) : ∀ (b : List Byte), (∀ x ∈ b, x ≠ 0xD7) → ∀ n, b.length < n → s.cpHunt t b n = (s, [])
  | [], _, n, _ => cpHunt_nil s t n
  | x :: rest, hx, n + 1, hn => by
    rw [State.cpHunt, if_neg h]
    dsimp only
    rw [if_pos (hx x (by simp)), cpHunt_noSync h t rest (fun y hy => hx y (by simp [hy])) n (by simpa using hn)]

/-- Bytes short of a whole packet are kept. -/
theorem cpHunt_short {s : State} (h : s.pwr.stage ≠ .held) (t : Nat) (flags op seq : Byte) (p : List Byte) {c : Nat} (hp : p.length ≤ 1024) (hc : c < 2 ^ 32)
    {m : Nat} (hm : 0 < m) (hshort : m < 11 + p.length) (n : Nat) :
    s.cpHunt t ((cpFrame flags op seq p c).take m) (n + 1) = (s, (cpFrame flags op seq p c).take m) := by
  obtain ⟨-, -, -, hlen, -, -, hcrc⟩ := cpFrame_fields flags op seq p c hp hc
  have hl := length_cpFrame flags op seq p c
  obtain ⟨x, hx, -⟩ := cpFrame_cons flags op seq p c
  have hlm : ((cpFrame flags op seq p c).take m).length = m := by rw [List.length_take, hl]; omega
  obtain ⟨rest, hr⟩ : ∃ rest, (cpFrame flags op seq p c).take m = 0xD7 :: rest := by
    obtain ⟨k, rfl⟩ : ∃ k, m = k + 1 := ⟨m - 1, by omega⟩
    exact ⟨_, by rw [hx]; rfl⟩
  by_cases h7 : m < 7
  · rw [hr] at hlm ⊢
    rw [State.cpHunt, if_neg h]
    dsimp only
    rw [if_neg (by simp), if_pos (by omega)]
  · have hcrc' : crc8 (((cpFrame flags op seq p c).take m).take 6) = ((cpFrame flags op seq p c).take m).getD 6 0 := by
      rw [List.take_take, Nat.min_eq_left (by omega), hcrc, List.getD_eq_getElem?_getD, List.getD_eq_getElem?_getD, List.getElem?_take_of_lt (by omega)]
    have hlen' : blkField ((cpFrame flags op seq p c).take m) 4 2 = p.length := by
      rw [← hlen, blkField, blkField, List.drop_take, List.take_take, Nat.min_eq_left (by omega)]
    rw [hr] at hlm hcrc' hlen' ⊢
    rw [State.cpHunt, if_neg h]
    dsimp only
    rw [if_neg (by simp), if_neg (by omega), if_neg (by simpa using hcrc'), hlen', if_neg (by omega), if_pos (by omega)]

theorem cpDatagram_frame (s : State) (via src : Nat) (flags op seq : Byte) (p : List Byte) {c : Nat} (hp : p.length ≤ 1024) (hc : c < 2 ^ 32) (n : Nat) :
    s.cpDatagram via src (cpFrame flags op seq p c).length (cpFrame flags op seq p c) (n + 1) = s.cpTake 2 via src (cpFrame flags op seq p c) := by
  obtain ⟨-, -, -, hlen, -, -, hcrc⟩ := cpFrame_fields flags op seq p c hp hc
  have hl := length_cpFrame flags op seq p c
  obtain ⟨x, hx, -⟩ := cpFrame_cons flags op seq p c
  obtain ⟨rest, hr⟩ : ∃ rest, cpFrame flags op seq p c = 0xD7 :: rest := ⟨_, hx⟩
  rw [hr] at hlen hcrc hl ⊢
  rw [State.cpDatagram]
  rw [if_neg (by simp), if_neg (by omega), if_neg (by simpa using hcrc)]
  dsimp only
  rw [hlen, if_neg (by omega), if_neg (by simp; simpa using hl)]

theorem cpDatagram_noSync (s : State) (via src n : Nat) : ∀ (b : List Byte), (∀ x ∈ b, x ≠ 0xD7) → ∀ k, s.cpDatagram via src n b k = s
  | _, _, 0 => rfl
  | [], _, k + 1 => rfl
  | x :: rest, hx, k + 1 => by
    rw [State.cpDatagram, if_pos (hx x (by simp)), cpDatagram_noSync s via src n rest (fun y hy => hx y (by simp [hy])) k]

/-- The bytes before a datagram's SYNC are passed over. -/
theorem cpDatagram_append (s : State) (via src n : Nat) (b : List Byte) : ∀ (j : List Byte), (∀ x ∈ j, x ≠ 0xD7) → ∀ k,
    s.cpDatagram via src n (j ++ b) (j.length + k) = s.cpDatagram via src n b k
  | [], _, k => by simp
  | x :: rest, hx, k => by
    rw [List.length_cons, Nat.add_right_comm, List.cons_append, State.cpDatagram, if_pos (hx x (by simp)),
      cpDatagram_append s via src n b rest (fun y hy => hx y (by simp [hy])) k]

/-- A whole packet in a datagram of another length. -/
theorem cpDatagram_longer (s : State) (via src : Nat) (flags op seq : Byte) (p : List Byte) {c : Nat} (hp : p.length ≤ 1024) (hc : c < 2 ^ 32) {n : Nat}
    (hn : n ≠ 11 + p.length) (k : Nat) : s.cpDatagram via src n (cpFrame flags op seq p c) (k + 1) = s.bump F.CP_CNT1_UDP_LEN := by
  obtain ⟨-, -, -, hlen, -, -, hcrc⟩ := cpFrame_fields flags op seq p c hp hc
  have hl := length_cpFrame flags op seq p c
  obtain ⟨x, hx, -⟩ := cpFrame_cons flags op seq p c
  obtain ⟨rest, hr⟩ : ∃ rest, cpFrame flags op seq p c = 0xD7 :: rest := ⟨_, hx⟩
  rw [hr] at hlen hcrc hl ⊢
  rw [State.cpDatagram, if_neg (by simp), if_neg (by omega), if_neg (by simpa using hcrc)]
  dsimp only
  rw [hlen, if_neg (by omega), if_pos (by simp [hn])]

/-! A reply on its way out (R318, R319, R250). -/

theorem descDone_rest (s : State) (e : TxEnt) (status : Nat) : s.descDone e status = { s with mem := (s.descDone e status).mem } := by
  unfold State.descDone
  split
  · rfl
  · rw [State.st, storeBytes_eq]
    rfl

theorem noteEgress_rest (s : State) (p t : Nat) (f : TxFill) : s.noteEgress p t f = { s with time := (s.noteEgress p t f).time } := by
  unfold State.noteEgress
  split <;> rfl

theorem leave_net (s : State) (p t : Nat) (e : TxEnt) (status : Nat) : (s.leave p t e status).net.tx = s.net.tx := by
  rw [State.leave, descDone_rest, noteEgress_rest]
  simp

theorem leave_out (s : State) (p t : Nat) (e : TxEnt) (status : Nat) : ∃ u, (s.leave p t e status).out = State.txOutput u p t e :: s.out := by
  refine ⟨s.modNet fun x => { x with busy := padMod 0 p (fun _ => t + s.frameNs p e) x.busy }, ?_⟩
  rw [State.leave, descDone_rest, noteEgress_rest]
  simp only [State.emit_out, State.pmu_out, State.modNet_out]

theorem txOutput_reply (s : State) (p t : Nat) {e : TxEnt} {src : Nat} (h : e.fill = .reply src) : s.txOutput p t e = .reply 2 src (e.bytes.drop 8) := by
  rw [State.txOutput, h]

/-- Does an entry stand that may leave without a launch time? -/
def freeEnt (s : State) (p : Nat) (l : List TxEnt) : Option TxEnt := (l.filter fun e => !s.txHeld p e).find? fun e => e.launch.isNone

theorem freeEnt_eq (s : State) (p : Nat) : (s.txFree p).find? (fun e => e.launch.isNone) = freeEnt s p (s.txq p) := rfl

theorem drain_of_none {s : State} {p : Nat} (h : freeEnt s p (s.txq p) = none) : ∀ k, s.drain p k = s
  | 0 => rfl
  | k + 1 => by rw [State.drain, freeEnt_eq, h]

theorem freeEnt_congr {s t : State} {p : Nat} (h : t.ha = s.ha) (l : List TxEnt) : freeEnt t p l = freeEnt s p l := by
  simp only [freeEnt, State.txHeld, h]

theorem freeEnt_mem {s : State} {p : Nat} {l : List TxEnt} {e : TxEnt} (h : freeEnt s p l = some e) : e ∈ l :=
  List.mem_of_mem_filter (List.mem_of_find?_eq_some h)

/-- An entry at the end of the queue that leaves there leaves nothing behind it that may go. -/
theorem freeEnt_of_last {s : State} {p : Nat} {l : List TxEnt} {e : TxEnt} (h : freeEnt s p (l ++ [e]) = some e) (hl : e ∉ l) : freeEnt s p l = none := by
  rw [freeEnt, List.filter_append, List.find?_append] at h
  cases hl' : freeEnt s p l with
  | none => rfl
  | some f =>
    rw [freeEnt] at hl'
    rw [hl', Option.some_or, Option.some.injEq] at h
    exact absurd (h ▸ freeEnt_mem hl') hl

theorem leave_ha {p : Nat} (hp : p < 5) (s : State) (t : Nat) (e : TxEnt) (status : Nat) : (s.leave p t e status).ha = s.ha := (sends_leave hp s t e status).ha

/-- The last entry of a queue, a reply without launch time, leaves last or waits there. -/
theorem drain_last {p : Nat} (hp : p < 5) {e : TxEnt} {src : Nat} (hfill : e.fill = .reply src) : ∀ (k : Nat) (s : State) (l : List TxEnt),
    s.txq p = l ++ [e] → (s.drain p k).out.head? = some (.reply 2 src (e.bytes.drop 8)) ∨ e ∈ (s.drain p k).txq p
  | 0, s, l, hq => .inr (by rw [State.drain, hq]; simp)
  | k + 1, s, l, hq => by
    rw [State.drain, freeEnt_eq, hq]
    split
    · exact .inr (by rw [hq]; simp)
    · next f hf =>
      dsimp only
      split
      · have htx : ∀ (u : State) (t : Nat), u.txq p = (l ++ [e]).erase f → (u.leave p t f 1).txq p = (l ++ [e]).erase f := fun u t hu => by
          rw [State.txq, leave_net]
          exact hu
        have hstart : (s.modNet fun x => { x with tx := padMod [] p (fun q => q.erase f) x.tx }).txq p = (l ++ [e]).erase f := by
          rw [txq_modTx, hq]
        have hleft := htx _ (max f.since (s.net.busy.getD p 0)) hstart
        by_cases hfl : f ∈ l
        · rw [List.erase_append_left _ hfl] at hleft
          exact drain_last hp hfill k _ _ hleft
        · obtain rfl : f = e := by
            have := freeEnt_mem hf
            simpa [hfl] using this
          rw [List.erase_append_right _ hfl, List.erase_cons_head, List.append_nil] at hleft
          have hnone := freeEnt_of_last hf hfl
          refine .inl ?_
          rw [drain_of_none (by rw [hleft, freeEnt_congr (s := s) (by rw [leave_ha hp]; rfl), hnone])]
          obtain ⟨u, hu⟩ := leave_out (s.modNet fun x => { x with tx := padMod [] p (fun q => q.erase f) x.tx }) p (max f.since (s.net.busy.getD p 0)) f 1
          rw [hu, txOutput_reply _ _ _ hfill]
          rfl
      · exact .inr (by rw [hq]; simp)

theorem sendFill_reply {p : Nat} (hp : p < 5) (s : State) (dst kind : Nat) (b : List Byte) (src : Nat) :
    (s.sendFill p dst kind b (.reply src)).out.head? = some (.reply 2 src (b.drop 8))
      ∨ ∃ e ∈ (s.sendFill p dst kind b (.reply src)).txq p, e.fill = .reply src ∧ e.bytes.drop 8 = b.drop 8 := by
  have h := drain_last hp (e := ⟨none, false, dst, kind, b, none, s.now, .reply src⟩) (src := src) rfl
    (((s.flush p).modNet fun x => { x with tx := padMod [] p (fun q => q ++ [⟨none, false, dst, kind, b, none, s.now, .reply src⟩]) x.tx }).txq p).length
    ((s.flush p).modNet fun x => { x with tx := padMod [] p (fun q => q ++ [⟨none, false, dst, kind, b, none, s.now, .reply src⟩]) x.tx })
    ((s.flush p).txq p) (txq_modTx _ _ _)
  exact h.imp id fun hm => ⟨_, hm, rfl, rfl⟩

/-- Reply bytes were sent on a transport: what that leaves of the rest. -/
structure CpSent (tr via src : Nat) (y : List Byte) (s t : State) : Prop where
  spi : tr = 0 → (t.cpRx 0).waiting = (s.cpRx 0).waiting ++ [y] ∧ t.out = s.out
  uart : tr = 1 → t.out = .reply 1 0 y :: s.out
  udp : tr = 2 → t.out.head? = some (.reply 2 src y) ∨ ∃ e ∈ t.txq via, e.fill = .reply src ∧ e.bytes.drop 8 = y
  op : t.cp.op = s.cp.op
  part : ∀ k, (t.cpRx k).part = (s.cpRx k).part
  nvm : t.nvm = s.nvm
  stage : t.pwr = s.pwr
  word : ∀ a, ¬ Book a → ¬ TxReg a → t.word a = s.word a
  here : tr ≠ 2 → t.mem = s.mem ∧ t.regs = s.regs

theorem udpBytes_drop (a b : Nat) (y : List Byte) : (udpBytes a b y).drop 8 = y := by
  simp [udpBytes, beBytes, leBytes]

theorem cpSent_cpSend {tr via src : Nat} (hvia : via < 5) (htr : tr < 3) (s : State) (y : List Byte) : CpSent tr via (src) y s (s.cpSend tr via src y) := by
  have h3 : tr = 0 ∨ tr = 1 ∨ tr = 2 := by omega
  rcases h3 with rfl | rfl | rfl
  · refine ⟨fun _ => ⟨?_, rfl⟩, by simp, by simp, rfl, fun k => ?_, rfl, rfl, fun _ _ _ => rfl, fun _ => ⟨rfl, rfl⟩⟩
    · exact congrArg CpRx.waiting ((getD_padMod _ _ 0 0 s.cp.rx).trans (if_pos rfl))
    · refine (congrArg CpRx.part (getD_padMod _ _ 0 k s.cp.rx)).trans ?_
      split
      · next hk => rw [hk]; rfl
      · rfl
  · exact ⟨by simp, fun _ => rfl, by simp, rfl, fun _ => rfl, rfl, rfl, fun _ _ _ => rfl, fun _ => ⟨rfl, rfl⟩⟩
  · have hb : Sends s (s.cpSend 2 via src y) := sends_queueTx hvia s _
    have hcp : (s.cpSend 2 via src y).cp = s.cp := hb.same .cp (by decide)
    refine ⟨by simp, by simp, fun _ => ?_, by rw [hcp], fun k => by rw [State.cpRx, hcp]; rfl, hb.same .nvm (by decide), hb.same .pwr (by decide),
      hb.word, by simp⟩
    have h := sendFill_reply hvia s 0 17 (udpBytes 47110 (src % 65536) y) src
    rw [udpBytes_drop] at h
    exact h

/-! What the statement says of a state after bytes arrived. -/

/-- A reply's bytes have left on a transport, or wait there. -/
def CpReplies (tr via src : Nat) (y : List Byte) (s t : State) : Prop :=
  (tr = 0 → (t.cpRx 0).waiting = (s.cpRx 0).waiting ++ [y] ∧ t.out = s.out) ∧ (tr = 1 → t.out = .reply 1 0 y :: s.out)
    ∧ (tr = 2 → t.out.head? = some (.reply 2 src y) ∨ ∃ e ∈ t.txq via, e.fill = .reply src ∧ e.bytes.drop 8 = y)

/-- Only the port's counters and its reception changed. -/
def CpQuiet (s t : State) : Prop :=
  t.mem = s.mem ∧ t.nvm = s.nvm ∧ t.cp.op = s.cp.op ∧ ∀ r, r ≠ R.CP_CNT0 → r ≠ R.CP_CNT1 → t.word r = s.word r

/-- The operation goes on as it was; and off the network nothing else moved. -/
def CpCalm (tr : Nat) (s t : State) : Prop := t.cp.op = s.cp.op ∧ t.nvm = s.nvm ∧ (tr ≠ 2 → CpQuiet s t)

/-- No part of a packet is left. -/
def CpRest (tr : Nat) (t : State) : Prop := tr ≠ 2 → (t.cpRx tr).part = []

/-- The end of an arrival: the bytes of a packet not yet whole are none, but on UDP, which keeps none. -/
def State.cpDone (s : State) (tr : Nat) : State := if tr = 2 then s else s.cpPart tr []

theorem cpRx_cpPart (s : State) (tr k : Nat) (b : List Byte) :
    (s.cpPart tr b).cpRx k = if k = tr then { s.cpRx k with part := b } else s.cpRx k := by
  refine (getD_padMod _ _ tr k s.cp.rx).trans ?_
  split
  · next h => rw [h]; rfl
  · rfl

theorem cpDone_rest (s : State) (tr : Nat) : CpRest tr (s.cpDone tr) := by
  intro h
  rw [State.cpDone, if_neg h, cpRx_cpPart, if_pos rfl]

theorem cpDone_cases (s : State) (tr : Nat) : s.cpDone tr = s ∨ s.cpDone tr = s.cpPart tr [] := by
  rw [State.cpDone]
  split
  · exact .inl rfl
  · exact .inr rfl

theorem CpReplies.done {tr via src : Nat} {y : List Byte} {s t : State} (h : CpReplies tr via src y s t) (k : Nat) : CpReplies tr via src y s (t.cpDone k) := by
  obtain ⟨hspi, huart, hudp⟩ := h
  rcases cpDone_cases t k with hk | hk <;> rw [hk]
  · exact ⟨hspi, huart, hudp⟩
  · refine ⟨fun h => ⟨?_, (hspi h).2⟩, huart, hudp⟩
    rw [cpRx_cpPart]
    split
    · exact (hspi h).1
    · exact (hspi h).1

theorem CpQuiet.done {s t : State} (h : CpQuiet s t) (k : Nat) : CpQuiet s (t.cpDone k) := by
  rcases cpDone_cases t k with hk | hk <;> rw [hk]
  · exact h
  · exact h

theorem CpCalm.done {tr : Nat} {s t : State} (h : CpCalm tr s t) (k : Nat) : CpCalm tr s (t.cpDone k) := by
  obtain ⟨hop, hnvm, hquiet⟩ := h
  refine ⟨?_, ?_, fun hk => (hquiet hk).done k⟩ <;> rcases cpDone_cases t k with hk | hk <;> rw [hk]
  · exact hop
  · exact hop
  · exact hnvm
  · exact hnvm

theorem cpDone_get (s : State) (tr : Nat) (f : Fld) : (s.cpDone tr).get f = s.get f := by
  rcases cpDone_cases s tr with hk | hk <;> rw [hk]
  rfl

theorem cpDone_out (s : State) (tr : Nat) : (s.cpDone tr).out = s.out := by
  rcases cpDone_cases s tr with hk | hk <;> rw [hk]
  rfl

theorem CpSent.replies {tr via src : Nat} {y : List Byte} {s t : State} (h : CpSent tr via src y s t) : CpReplies tr via src y s t :=
  ⟨h.spi, h.uart, h.udp⟩

/-- A reply sent after a counter counted. -/
theorem CpSent.calm {tr via src : Nat} {y : List Byte} {s t : State} {f : Fld} (hf : f.addr = R.CP_CNT0 ∨ f.addr = R.CP_CNT1)
    (h : CpSent tr via src y (s.bump f) t) : CpCalm tr s t := by
  refine ⟨h.op, h.nvm, fun hk => ⟨(h.here hk).1, h.nvm, h.op, fun r h0 h1 => ?_⟩⟩
  have hne : r ≠ f.addr := by rcases hf with hf | hf <;> rw [hf] <;> assumption
  have hword : t.word r = (s.bump f).word r := congrArg (mapGet resetWord r) (h.here hk).2
  exact hword.trans (State.word_setWord_ne s hne _)

theorem not_book_cpCnt : ∀ a, a = R.CP_CNT0 ∨ a = R.CP_CNT1 → ¬ Book a ∧ ¬ TxReg a := by
  intro a ha
  have h : a = 0x40030008 ∨ a = 0x4003000C := ha
  exact ⟨by simp only [Book]; omega, fun hb => by have := hb.bounds; omega⟩

theorem CpSent.counted {tr via src : Nat} {y : List Byte} {s t : State} {f : Fld} (hf : f.addr = R.CP_CNT0 ∨ f.addr = R.CP_CNT1)
    (hw : f.w = 8) (hlo : f.lo + f.w ≤ 32) (h : CpSent tr via src y (s.bump f) t) : t.get f = min 255 (s.get f + 1) := by
  obtain ⟨hbook, htx⟩ := not_book_cpCnt f.addr hf
  rw [State.get_congr (h.word f.addr hbook htx), State.get_bump s f hlo, hw]
  rfl

/-- A counter of the port that counts changes nothing else. -/
theorem quiet_bump (s : State) {f : Fld} (hf : f.addr = R.CP_CNT0 ∨ f.addr = R.CP_CNT1) : CpQuiet s (s.bump f) :=
  ⟨rfl, rfl, rfl, fun r h0 h1 => State.word_setWord_ne s (by rcases hf with hf | hf <;> rw [hf] <;> assumption) _⟩

theorem CpQuiet.refl (s : State) : CpQuiet s s := ⟨rfl, rfl, rfl, fun _ _ _ => rfl⟩

/-! A whole packet. -/

/-- Off the network a reply names no port and no source. -/
def cpVia (tr via : Nat) : Nat := if tr = 2 then via else 0

theorem cpSent_of {tr via src : Nat} (hvia : via < 5) (htr : tr < 3) (s : State) (y : List Byte) :
    CpSent tr via src y s (s.cpSend tr (cpVia tr via) (cpVia tr src) y) := by
  by_cases h : tr = 2
  · rw [cpVia, cpVia, if_pos h, if_pos h]
    exact cpSent_cpSend hvia htr s y
  · rw [cpVia, cpVia, if_neg h, if_neg h]
    obtain ⟨hspi, huart, -, hop, hpart, hnvm, hstage, hword, hhere⟩ := cpSent_cpSend (tr := tr) (src := 0) (show 0 < 5 by decide) htr s y
    exact ⟨hspi, huart, fun h' => absurd h' h, hop, hpart, hnvm, hstage, hword, hhere⟩

theorem stage_of_serves {s : State} {tr via : Nat} (h : s.cpServes tr via = true) : s.pwr.stage ≠ .held := by
  simp only [State.cpServes, Bool.and_eq_true, bne_iff_ne, ne_eq] at h
  exact h.1.1.2

/-- Bytes that complete a packet, or a datagram of it, are taken as that packet. -/
theorem exec_packetReceive_frame {s : State} {tr : Fin 3} {via : Fin 5} {src : BitVec 48} {b : List Byte} {flags op seq : Byte} {p : List Byte} {c : Nat}
    (hserves : s.cpServes tr.val via.val = true) (hp : p.length ≤ 1024) (hc : c < 2 ^ 32)
    (hb : if tr.val = 2 then b = cpFrame flags op seq p c else (s.cpRx tr.val).part ++ b = cpFrame flags op seq p c) :
    exec (.packetReceive tr via src b) s
      = s.ends ((s.cpTake tr.val (cpVia tr.val via.val) (cpVia tr.val src.toNat) (cpFrame flags op seq p c)).cpDone tr.val) := by
  have hexec : exec (.packetReceive tr via src b) s = execPacketReceive tr via src b s := rfl
  rw [hexec, execPacketReceive, hserves]
  by_cases h : tr.val = 2
  · rw [if_pos h] at hb
    rw [hb, State.cpDone, cpVia, cpVia, if_pos h, if_pos h, if_pos h, if_neg (by simp), if_pos h, cpDatagram_frame s _ _ flags op seq p hp hc, h]
  · rw [if_neg h] at hb
    dsimp only
    rw [hb, State.cpDone, cpVia, cpVia, if_neg h, if_neg h, if_neg h, if_neg (by simp), if_neg h,
      cpHunt_frame (stage_of_serves hserves) _ flags op seq p hp hc]

section
variable {s : State} {t via src : Nat} {flags op seq : Byte} {p : List Byte} {c : Nat} (hp : p.length ≤ 1024) (hc : c < 2 ^ 32)
include hp hc

/-- While an operation runs, a packet is answered BUSY. -/
theorem cpTake_busy {o : CpOp} (ho : s.cp.op = some o) : s.cpTake t via src (cpFrame flags op seq p c)
    = (s.bump F.CP_CNT0_BUSY_SENT).cpSend t via src
        (cpReplyBytes op.toNat seq.toNat .busy (leBytes 1 o.op ++ leBytes 1 (o.op / 128) ++ leBytes 2 (s.msSince o.startAt 16))) := by
  obtain ⟨hflags, hop, hseq, hlen, hcrc, -, -⟩ := cpFrame_fields flags op seq p c hp hc
  rw [State.cpTake, ho]
  dsimp only
  rw [hop, hseq]

/-- With none running, a wrong CRC is answered so; a packet from outside is dropped; the request answered last is answered again;
another one runs. -/
theorem cpTake_idle (ho : s.cp.op = none) : s.cpTake t via src (cpFrame flags op seq p c)
    = if c ≠ (crc32c (cpBody flags op seq p)).toNat then (s.bump F.CP_CNT0_BAD_CRC).cpSend t via src (cpReplyBytes op.toNat seq.toNat .badCrc [])
      else if flags.toNat % 2 = 1 then s.bump F.CP_CNT1_REPLY_IN
      else if (s.cpRx t).lastKey = some [seq.toNat, op.toNat, flags.toNat, c, if t = 2 then src else 0] then
        (s.bump F.CP_CNT0_DUP).cpSend t via src (s.cpRx t).lastReply
      else s.cpRun ⟨op.toNat, t, via, src, seq.toNat, [seq.toNat, op.toNat, flags.toNat, c, if t = 2 then src else 0], p, s.now, false⟩ := by
  obtain ⟨hflags, hop, hseq, hlen, hcrc, hpay, -⟩ := cpFrame_fields flags op seq p c hp hc
  rw [State.cpTake, ho]
  dsimp only
  rw [hlen, hop, hseq, hflags, hcrc, hpay, take_cpFrame]

end

theorem crc_lt (w : Word) : w.toNat < 2 ^ 32 := w.isLt

/-! A request that is answered at once. -/

/-- The operation that runs has been answered and the reply is kept. -/
structure CpAnswered (tr via src : Nat) (key : List Nat) (y : List Byte) (s t : State) : Prop where
  replies : CpReplies tr via src y s t
  idle : t.cp.op = none
  kept : (t.cpRx tr).lastKey = some key
  mem : tr ≠ 2 → t.mem = s.mem

theorem cpRx_ended (s : State) (k : Nat) (f : CpRx → CpRx) (j : Nat) :
    (s.modCp fun c => { c with op := none, rx := padMod ⟨[], none, [], []⟩ k f c.rx }).cpRx j = if j = k then f (s.cpRx j) else s.cpRx j := by
  refine (getD_padMod _ _ k j s.cp.rx).trans ?_
  split
  · next h => rw [h]; rfl
  · rfl

/-- Showing the operation that runs touches CP_STAT alone. -/
theorem showCp_rest (s : State) : s.showCp = { s with regs := s.showCp.regs } := by
  unfold State.showCp
  split <;> rfl

theorem cpAnswered_cpFinish {s : State} {o : CpOp} {via src : Nat} (hvia : via < 5) (htr : o.transport < 3) (ho : s.cp.op = some o)
    (hov : o.via = cpVia o.transport via) (hos : o.src = cpVia o.transport src) (st : CpSt) (body : List Byte) :
    CpAnswered o.transport via src o.key (cpReplyBytes o.op o.seq st body) s (s.cpFinish st body) := by
  obtain ⟨hspi, huart, hudp, -, -, -, -, -, hhere⟩ := cpSent_of (src := src) hvia htr s (cpReplyBytes o.op o.seq st body)
  have hrx := cpRx_ended (s.cpSend o.transport (cpVia o.transport via) (cpVia o.transport src) (cpReplyBytes o.op o.seq st body)) o.transport
    fun r => { r with lastKey := some o.key, lastReply := cpReplyBytes o.op o.seq st body }
  rw [State.cpFinish, ho]
  dsimp only
  rw [hov, hos, showCp_rest]
  refine ⟨⟨fun h => ⟨?_, (hspi h).2⟩, huart, hudp⟩, rfl, ?_, fun h => (hhere h).1⟩
  · refine ((congrArg CpRx.waiting (hrx 0)).trans ?_).trans (hspi h).1
    split <;> rfl
  · exact (congrArg CpRx.lastKey (hrx o.transport)).trans (by rw [if_pos rfl])

theorem CpAnswered.done {tr via src : Nat} {key : List Nat} {y : List Byte} {s t : State} (h : CpAnswered tr via src key y s t) (k : Nat) :
    CpAnswered tr via src key y s (t.cpDone k) := by
  obtain ⟨hreplies, hidle, hkept, hmem⟩ := h
  refine ⟨hreplies.done k, ?_, ?_, fun h => ?_⟩ <;> rcases cpDone_cases t k with hk | hk <;> rw [hk]
  · exact hidle
  · exact hidle
  · exact hkept
  · rw [cpRx_cpPart]
    split
    · exact hkept
    · exact hkept
  · exact hmem h
  · exact hmem h

/-- A request taken, once it is turned away or answered. -/
theorem cpAnswered_cpRun {s : State} {o : CpOp} {via src : Nat} (hvia : via < 5) (htr : o.transport < 3)
    (hov : o.via = cpVia o.transport via) (hos : o.src = cpVia o.transport src) {st : CpSt} {body : List Byte}
    (h : s.cpRun o = ((s.modCp fun c => { c with op := some o }).showCp).cpFinish st body) :
    CpAnswered o.transport via src o.key (cpReplyBytes o.op o.seq st body) s (s.cpRun o) := by
  obtain ⟨⟨hspi, huart, hudp⟩, hidle, hkept, hmem⟩ := cpAnswered_cpFinish (s := (s.modCp fun c => { c with op := some o }).showCp) (via := via) (src := src)
    hvia htr (by rw [showCp_rest]; rfl) hov hos st body
  rw [h]
  rw [showCp_rest (s.modCp fun c => { c with op := some o })] at hspi huart hmem ⊢
  rw [showCp_rest (s.modCp fun c => { c with op := some o })] at hudp hidle hkept
  exact ⟨⟨hspi, huart, hudp⟩, hidle, hkept, hmem⟩

theorem cpRun_ping {s : State} {o : CpOp} (hop : o.op = 0) (hlen : o.payload.length ≤ 1023) :
    s.cpRun o = ((s.modCp fun c => { c with op := some o }).showCp).cpFinish .ok o.payload := by
  have hgate (u : State) : u.cpGate 0 o.payload.length = none := by
    simp [State.cpGate, cpLen, hlen]
  have hexec (u : State) : u.cpExec 0 o.payload = (u, some (.ok, o.payload)) := rfl
  rw [State.cpRun, hop, hgate]
  dsimp only
  rw [hexec]

theorem cpRun_badOpcode {s : State} {o : CpOp} (hop : cpLen o.op = none) :
    s.cpRun o = ((s.modCp fun c => { c with op := some o }).showCp).cpFinish .badOpcode [] := by
  have hgate (u : State) : u.cpGate o.op o.payload.length = some .badOpcode := by rw [State.cpGate, hop]
  rw [State.cpRun, hgate]

theorem CpReplies.requeue {tr via src : Nat} {y : List Byte} {s t : State} (h : CpReplies tr via src y s t) (l : List Instr) :
    CpReplies tr via src y s (t.requeue l) := h

theorem CpAnswered.requeue {tr via src : Nat} {key : List Nat} {y : List Byte} {s t : State} (h : CpAnswered tr via src key y s t) (l : List Instr) :
    CpAnswered tr via src key y s (t.requeue l) := ⟨h.replies, h.idle, h.kept, h.mem⟩

/-- The bytes of one packet arrive, after the part already received or as one datagram. -/
def CpArrives (s : State) (tr : Fin 3) (via : Fin 5) (flags op seq : Byte) (p b : List Byte) : Prop :=
  s.cpServes tr.val via.val = true ∧ p.length ≤ 1024
    ∧ if tr.val = 2 then b = cpPacket flags.toNat op.toNat seq.toNat p
      else (s.cpRx tr.val).part ++ b = cpPacket flags.toNat op.toNat seq.toNat p ∧ b ≠ []

/-- A packet's CRC. -/
def cpCrc (flags op seq : Byte) (p : List Byte) : Nat := (crc32c (cpBody flags op seq p)).toNat

theorem cpCrc_lt (flags op seq : Byte) (p : List Byte) : cpCrc flags op seq p < 2 ^ 32 := (crc32c (cpBody flags op seq p)).isLt

theorem cpCrc_eq (flags op seq : Byte) (p : List Byte) : ¬ cpCrc flags op seq p ≠ (crc32c (cpBody flags op seq p)).toNat := fun h => h rfl

/-- The key of R325 of a packet. -/
def cpKey (tr : Fin 3) (src : BitVec 48) (flags op seq : Byte) (p : List Byte) : List Nat :=
  [seq.toNat, op.toNat, flags.toNat, cpCrc flags op seq p, if tr.val = 2 then src.toNat else 0]

section
variable {s : State} {tr : Fin 3} {via : Fin 5} {src : BitVec 48} {flags op seq : Byte} {p b : List Byte}

theorem CpArrives.exec (h : CpArrives s tr via flags op seq p b) (src : BitVec 48) : Machine.exec (.packetReceive tr via src b) s
    = s.ends ((s.cpTake tr.val (cpVia tr.val via.val) (cpVia tr.val src.toNat) (cpFrame flags op seq p (cpCrc flags op seq p))).cpDone tr.val) := by
  obtain ⟨hserves, hp, hb⟩ := h
  refine exec_packetReceive_frame hserves hp (cpCrc_lt _ _ _ _) ?_
  split at hb
  · next htr => rw [if_pos htr, hb, cpPacket_eq]; rfl
  · next htr => rw [if_neg htr, hb.1, cpPacket_eq]; rfl

theorem keySrc (tr : Fin 3) (src : BitVec 48) : (if tr.val = 2 then cpVia tr.val src.toNat else 0) = if tr.val = 2 then src.toNat else 0 := by
  unfold cpVia
  split <;> rfl

/-- R326: a packet that arrives while an operation runs. -/
theorem packetReceive_busy (h : CpArrives s tr via flags op seq p b) {o : CpOp} (ho : s.cp.op = some o) :
    Completes (.packetReceive tr via src b) s fun t =>
      CpReplies tr.val via.val src.toNat (cpReplyBytes op.toNat seq.toNat .busy (leBytes 1 o.op ++ leBytes 1 (o.op / 128) ++ leBytes 2 (s.msSince o.startAt 16))) s t
        ∧ t.get F.CP_CNT0_BUSY_SENT = min 255 (s.get F.CP_CNT0_BUSY_SENT + 1) ∧ CpCalm tr.val s t ∧ CpRest tr.val t := by
  refine .of (h.exec src) ?_
  rw [cpTake_busy h.2.1 (cpCrc_lt _ _ _ _) ho]
  have hsent := cpSent_of (src := src.toNat) via.isLt tr.isLt (s.bump F.CP_CNT0_BUSY_SENT)
    (cpReplyBytes op.toNat seq.toNat .busy (leBytes 1 o.op ++ leBytes 1 (o.op / 128) ++ leBytes 2 (s.msSince o.startAt 16)))
  exact ⟨hsent.replies.done _, (cpDone_get _ _ _).trans (hsent.counted (.inl rfl) rfl (by decide)), (hsent.calm (.inl rfl)).done _, cpDone_rest _ _⟩

/-- R320: a packet from outside with the reply's flag. -/
theorem packetReceive_replyIn (h : CpArrives s tr via flags op seq p b) (ho : s.cp.op = none) (hflag : flags.getLsbD 0 = true) :
    Completes (.packetReceive tr via src b) s fun t => t.out = s.out ∧ t.get F.CP_CNT1_REPLY_IN = min 255 (s.get F.CP_CNT1_REPLY_IN + 1)
      ∧ CpQuiet s t ∧ CpRest tr.val t := by
  have hodd : flags.toNat % 2 = 1 := by simpa [BitVec.getLsbD, Nat.testBit_zero] using hflag
  refine .of (h.exec src) ?_
  rw [cpTake_idle h.2.1 (cpCrc_lt _ _ _ _) ho, if_neg (cpCrc_eq _ _ _ _), if_pos hodd]
  exact ⟨cpDone_out _ _, (cpDone_get _ _ _).trans (State.get_bump s F.CP_CNT1_REPLY_IN (by decide)), (quiet_bump s (.inr rfl)).done _, cpDone_rest _ _⟩

/-- R325: the request answered last arrives again. -/
theorem packetReceive_dup (h : CpArrives s tr via flags op seq p b) (ho : s.cp.op = none) (hflag : flags.getLsbD 0 = false)
    (hkey : (s.cpRx tr.val).lastKey = some (cpKey tr src flags op seq p)) :
    Completes (.packetReceive tr via src b) s fun t => CpReplies tr.val via.val src.toNat (s.cpRx tr.val).lastReply s t
      ∧ t.get F.CP_CNT0_DUP = min 255 (s.get F.CP_CNT0_DUP + 1) ∧ CpCalm tr.val s t ∧ CpRest tr.val t := by
  have heven : flags.toNat % 2 ≠ 1 := by simpa [BitVec.getLsbD, Nat.testBit_zero] using hflag
  refine .of (h.exec src) ?_
  rw [cpTake_idle h.2.1 (cpCrc_lt _ _ _ _) ho, if_neg (cpCrc_eq _ _ _ _), if_neg heven, if_pos (by rw [hkey, keySrc]; rfl)]
  have hsent := cpSent_of (src := src.toNat) via.isLt tr.isLt (s.bump F.CP_CNT0_DUP) (s.cpRx tr.val).lastReply
  exact ⟨hsent.replies.done _, (cpDone_get _ _ _).trans (hsent.counted (.inl rfl) rfl (by decide)), (hsent.calm (.inl rfl)).done _, cpDone_rest _ _⟩

/-- A new request that is turned away or answered at once. -/
theorem packetReceive_answer (h : CpArrives s tr via flags op seq p b) (ho : s.cp.op = none) (hflag : flags.getLsbD 0 = false)
    (hkey : (s.cpRx tr.val).lastKey ≠ some (cpKey tr src flags op seq p)) {st : CpSt} {body : List Byte}
    (hrun : ∀ o : CpOp, o.op = op.toNat → o.payload = p → s.cpRun o = ((s.modCp fun c => { c with op := some o }).showCp).cpFinish st body) :
    Completes (.packetReceive tr via src b) s fun t =>
      CpAnswered tr.val via.val src.toNat (cpKey tr src flags op seq p) (cpReplyBytes op.toNat seq.toNat st body) s t ∧ CpRest tr.val t := by
  have heven : flags.toNat % 2 ≠ 1 := by simpa [BitVec.getLsbD, Nat.testBit_zero] using hflag
  refine .of (h.exec src) ?_
  rw [cpTake_idle h.2.1 (cpCrc_lt _ _ _ _) ho, if_neg (cpCrc_eq _ _ _ _), if_neg heven, if_neg (by rw [keySrc]; exact hkey), keySrc]
  refine ⟨?_, cpDone_rest _ _⟩
  exact CpAnswered.requeue (CpAnswered.done (cpAnswered_cpRun (o := ⟨op.toNat, tr.val, cpVia tr.val via.val, cpVia tr.val src.toNat, seq.toNat, cpKey tr src flags op seq p, p, s.now, false⟩)
    via.isLt tr.isLt rfl rfl (hrun _ rfl rfl)) _) _

/-- R320: a packet whose CRC is another. -/
theorem packetReceive_badCrc {c : Word} (hserves : s.cpServes tr.val via.val = true) (ho : s.cp.op = none) (hp : p.length ≤ 1024)
    (hc : c.toNat ≠ cpCrc flags op seq p) (hpart : if tr.val = 2 then True else (s.cpRx tr.val).part = [])
    (hb : b = cpFrame flags op seq p c.toNat) :
    Completes (.packetReceive tr via src b) s fun t => CpReplies tr.val via.val src.toNat (cpReplyBytes op.toNat seq.toNat .badCrc []) s t
      ∧ t.get F.CP_CNT0_BAD_CRC = min 255 (s.get F.CP_CNT0_BAD_CRC + 1) ∧ CpCalm tr.val s t ∧ CpRest tr.val t := by
  have harrives : if tr.val = 2 then b = cpFrame flags op seq p c.toNat else (s.cpRx tr.val).part ++ b = cpFrame flags op seq p c.toNat := by
    split at hpart
    · next htr => rw [if_pos htr]; exact hb
    · next htr => rw [if_neg htr, hpart]; exact hb
  refine .of (exec_packetReceive_frame hserves hp c.isLt harrives) ?_
  rw [cpTake_idle hp c.isLt ho, if_pos (show c.toNat ≠ (crc32c (cpBody flags op seq p)).toNat from hc)]
  have hsent := cpSent_of (src := src.toNat) via.isLt tr.isLt (s.bump F.CP_CNT0_BAD_CRC) (cpReplyBytes op.toNat seq.toNat .badCrc [])
  exact ⟨hsent.replies.done _, (cpDone_get _ _ _).trans (hsent.counted (.inl rfl) rfl (by decide)), (hsent.calm (.inl rfl)).done _, cpDone_rest _ _⟩

end

/-! Bytes of no whole packet. -/

section
variable {s : State} {tr : Fin 3} {via : Fin 5} {src : BitVec 48} {b : List Byte} (hserves : s.cpServes tr.val via.val = true)
include hserves

/-- Off the network, bytes of which no packet comes are those left. -/
theorem exec_packetReceive_left (htr : tr.val ≠ 2) (hpart : (s.cpRx tr.val).part = []) {left : List Byte}
    (hunt : s.cpHunt tr.val b (b.length + 1) = (s, left)) : exec (.packetReceive tr via src b) s = s.ends (s.cpPart tr.val left) := by
  have hexec : exec (.packetReceive tr via src b) s = execPacketReceive tr via src b s := rfl
  rw [hexec, execPacketReceive, hserves, if_neg (by simp), if_neg htr]
  dsimp only
  rw [hpart, List.nil_append, hunt]

theorem part_of_left (htr : tr.val ≠ 2) (hpart : (s.cpRx tr.val).part = []) {left : List Byte}
    (hunt : s.cpHunt tr.val b (b.length + 1) = (s, left)) : Completes (.packetReceive tr via src b) s fun t =>
      (t.cpRx tr.val).part = left ∧ t.out = s.out ∧ t.regs = s.regs ∧ CpQuiet s t := by
  refine .of (exec_packetReceive_left hserves htr hpart hunt) ⟨?_, rfl, rfl, CpQuiet.refl s⟩
  exact congrArg CpRx.part ((cpRx_cpPart s tr.val tr.val left).trans (if_pos rfl))

theorem exec_packetReceive_datagram (htr : tr.val = 2) :
    exec (.packetReceive tr via src b) s = s.ends (s.cpDatagram via.val src.toNat b.length b (b.length + 1)) := by
  have hexec : exec (.packetReceive tr via src b) s = execPacketReceive tr via src b s := rfl
  rw [hexec, execPacketReceive, hserves, if_neg (by simp), if_pos htr]

end

/-! Datagrams that begin with a SYNC. -/

theorem datagram_hdrErr (s : State) (via src n : Nat) {b : List Byte} (hlen : 7 ≤ b.length) (hcrc : crc8 (b.take 6) ≠ b.getD 6 0)
    (hsync : b.headD 0 = 0xD7) (hrest : ∀ x ∈ b.tail, x ≠ 0xD7) (k : Nat) : s.cpDatagram via src n b (k + 1) = s.bump F.CP_CNT0_HDR_ERR := by
  match b, hsync with
  | x :: rest, hsync =>
    rw [State.cpDatagram, if_neg (by simpa using hsync), if_neg (by omega), if_pos hcrc, cpDatagram_noSync _ _ _ _ rest hrest]

theorem datagram_udpLen (s : State) (via src : Nat) {b : List Byte} (hsync : b.headD 0 = 0xD7)
    (h : b.length < 7 ∨ (crc8 (b.take 6) = b.getD 6 0 ∧ blkField b 4 2 ≤ 1024 ∧ b.length ≠ 11 + blkField b 4 2)) (k : Nat) :
    s.cpDatagram via src b.length b (k + 1) = s.bump F.CP_CNT1_UDP_LEN := by
  match b, hsync with
  | [], hsync => exact absurd hsync (by decide)
  | x :: rest, hsync =>
    rw [State.cpDatagram, if_neg (by simpa using hsync)]
    split
    · rfl
    · next h7 =>
      obtain ⟨hcrc, hlen, hne⟩ := h.resolve_left h7
      rw [if_neg (by simpa using hcrc)]
      dsimp only
      rw [if_neg (by omega), if_pos (by simpa using hne)]

theorem datagram_tooLong (s : State) (via src n : Nat) (op seq : Byte) (len : BitVec 16) (p : List Byte) (hlen : 1024 < len.toNat)
    (hrest : ∀ x ∈ p, x ≠ 0xD7) (k : Nat) :
    let h := leBytes 1 0xD7 ++ leBytes 1 0 ++ leBytes 1 op.toNat ++ leBytes 1 seq.toNat ++ leBytes 2 len.toNat
    s.cpDatagram via src n (h ++ [crc8 h] ++ p) (k + 1) = s.cpSend 2 via src (cpReplyBytes op.toNat seq.toNat .badParam []) := by
  intro h
  have hh : h = [0xD7, 0, op, seq, BitVec.ofNat 8 len.toNat, BitVec.ofNat 8 (len.toNat / 256)] := by
    simp [h, leBytes]
  have hl := len.isLt
  have hfield : blkField (0xD7 :: 0 :: op :: seq :: BitVec.ofNat 8 len.toNat :: BitVec.ofNat 8 (len.toNat / 256) :: crc8 h :: p) 4 2 = len.toNat := by
    simp only [blkField, List.drop_succ_cons, List.drop_zero, List.take_succ_cons, List.take_zero, leNat, BitVec.toNat_ofNat]
    omega
  have hb : h ++ [crc8 h] ++ p = 0xD7 :: 0 :: op :: seq :: BitVec.ofNat 8 len.toNat :: BitVec.ofNat 8 (len.toNat / 256) :: crc8 h :: p := by
    rw [hh]; rfl
  rw [hb, State.cpDatagram, if_neg (by simp), if_neg (by simp), if_neg (by rw [hh]; simp)]
  dsimp only
  rw [hfield, if_pos hlen]
  have hop : blkField (0xD7 :: 0 :: op :: seq :: BitVec.ofNat 8 len.toNat :: BitVec.ofNat 8 (len.toNat / 256) :: crc8 h :: p) 2 1 = op.toNat := by
    simp [blkField, leNat]
  have hseq : blkField (0xD7 :: 0 :: op :: seq :: BitVec.ofNat 8 len.toNat :: BitVec.ofNat 8 (len.toNat / 256) :: crc8 h :: p) 3 1 = seq.toNat := by
    simp [blkField, leNat]
  rw [hop, hseq]
  exact cpDatagram_noSync _ _ _ _ _ hrest _

theorem CpQuiet.requeue {s t : State} (h : CpQuiet s t) (l : List Instr) : CpQuiet s (t.requeue l) := h

/-- Bytes on a transport that is not served are lost. -/
theorem packetReceive_unserved {s : State} {tr : Fin 3} {via : Fin 5} {src : BitVec 48} {b : List Byte} (h : s.cpServes tr.val via.val = false) :
    Completes (.packetReceive tr via src b) s fun t => t = s := by
  have hexec : exec (.packetReceive tr via src b) s = s.ends s := by
    have h0 : exec (.packetReceive tr via src b) s = execPacketReceive tr via src b s := rfl
    rw [h0, execPacketReceive, h, if_pos (by simp)]
  exact .of hexec rfl

/-- A datagram the port only counts (R323). -/
theorem datagram_counted {s : State} {tr : Fin 3} {via : Fin 5} {src : BitVec 48} {b : List Byte} (hserves : s.cpServes tr.val via.val = true) (htr : tr.val = 2)
    {f : Fld} (hf : f = F.CP_CNT0_HDR_ERR ∨ f = F.CP_CNT1_UDP_LEN)
    (h : s.cpDatagram via.val src.toNat b.length b (b.length + 1) = s.bump f) :
    Completes (.packetReceive tr via src b) s fun t => t.out = s.out ∧ t.get f = min 255 (s.get f + 1) ∧ CpQuiet s t := by
  refine .of ((exec_packetReceive_datagram hserves htr).trans (congrArg s.ends h)) ?_
  rcases hf with rfl | rfl
  · exact ⟨rfl, State.get_bump s F.CP_CNT0_HDR_ERR (by decide), (quiet_bump s (.inl rfl)).requeue _⟩
  · exact ⟨rfl, State.get_bump s F.CP_CNT1_UDP_LEN (by decide), (quiet_bump s (.inr rfl)).requeue _⟩

/-- A gap inside a packet on the UART discards it (R320). -/
theorem uartGap_inside {s : State} (h : (s.cpRx 1).part ≠ []) : Completes .uartGapTimeout s fun t =>
    t.get F.CP_CNT1_GAP = min 255 (s.get F.CP_CNT1_GAP + 1) ∧ (t.cpRx 1).part = [] ∧ t.out = s.out ∧ CpQuiet s t := by
  have hexec : exec .uartGapTimeout s = s.ends ((s.bump F.CP_CNT1_GAP).cpPart 1 []) := by
    have h0 : exec .uartGapTimeout s = execUartGapTimeout s := rfl
    rw [h0, execUartGapTimeout, if_neg (by simpa using h)]
  refine .of hexec ⟨State.get_bump s F.CP_CNT1_GAP (by decide), ?_, rfl, (quiet_bump s (.inr rfl)).requeue _⟩
  exact congrArg CpRx.part ((cpRx_cpPart (s.bump F.CP_CNT1_GAP) 1 1 []).trans (if_pos rfl))

theorem uartGap_outside {s : State} (h : (s.cpRx 1).part = []) : Completes .uartGapTimeout s fun t => t = s := by
  have hexec : exec .uartGapTimeout s = s.ends s := by
    have h0 : exec .uartGapTimeout s = execUartGapTimeout s := rfl
    rw [h0, execUartGapTimeout, if_pos (by simpa using h)]
  exact .of hexec rfl

/-! CP_nCS rises (R319). -/

theorem stillWaiting_suffix : ∀ (n : Nat) (w : List (List Byte)), stillWaiting n w <:+ w
  | _, [] => List.suffix_rfl
  | n, b :: t => by
    rw [stillWaiting]
    split
    · exact (stillWaiting_suffix _ t).trans (List.suffix_cons b t)
    · exact List.suffix_rfl

theorem stillWaiting_zero : ∀ (w : List (List Byte)), (∀ y ∈ w, y ≠ []) → stillWaiting 0 w = w
  | [], _ => rfl
  | b :: t, h => by
    have hb : b.length ≠ 0 := fun hl => h b (by simp) (List.eq_nil_of_length_eq_zero hl)
    rw [stillWaiting, if_neg (by omega)]

/-- The first reply stays whole unless its last byte was clocked out. -/
theorem stillWaiting_head (n : Nat) {w : List (List Byte)} {y : List Byte} (h : w.head? = some y) :
    if n < y.length then stillWaiting n w = w else (stillWaiting n w).length < w.length := by
  match w, h with
  | b :: t, h =>
    obtain rfl : b = y := by simpa using h
    rw [stillWaiting]
    by_cases hn : n < b.length
    · rw [if_pos hn, if_neg (by omega)]
    · rw [if_neg hn, if_pos (by omega)]
      have hle := (stillWaiting_suffix (n - b.length) t).length_le
      rw [List.length_cons]
      omega

/-- The bytes on CP_MISO: the waiting replies', then 0x00. -/
def misoBytes (l : List Byte) (sent : Nat) : List Byte := l.take sent ++ List.replicate (sent - (l.take sent).length) 0

theorem misoBytes_spec (l : List Byte) (sent : Nat) : (misoBytes l sent).length = sent
    ∧ (misoBytes l sent).take l.length = l.take sent ∧ ∀ z ∈ (misoBytes l sent).drop l.length, z = 0 := by
  rcases Nat.le_total sent l.length with h | h
  · have hm : misoBytes l sent = l.take sent := by simp [misoBytes, h]
    have hlen : (l.take sent).length = sent := by simp [h]
    rw [hm, List.take_of_length_le (hlen.le.trans h), List.drop_eq_nil_of_le (hlen.le.trans h)]
    exact ⟨hlen, rfl, by simp⟩
  · have hm : misoBytes l sent = l ++ List.replicate (sent - l.length) 0 := by rw [misoBytes, List.take_of_length_le h]
    rw [hm, List.take_of_length_le h, List.take_left, List.drop_left]
    exact ⟨by simp; omega, rfl, fun z hz => List.eq_of_mem_replicate hz⟩

/-- A packet in progress on SPI is discarded and counted. -/
def State.csAbort (s : State) : State := if (s.cpRx 0).part.isEmpty then s else (s.bump F.CP_CNT1_ABORT).cpPart 0 []

/-- The bytes clocked out are given. -/
def State.csOut (s : State) (sent : Nat) : State := if sent = 0 then s else s.emit (.reply 0 0 (misoBytes (s.cpRx 0).waiting.flatten sent))

theorem csAbort_spec (s : State) : CpQuiet s s.csAbort ∧ (s.csAbort.cpRx 0).part = [] ∧ (s.csAbort.cpRx 0).waiting = (s.cpRx 0).waiting
    ∧ (if (s.cpRx 0).part = [] then s.csAbort.regs = s.regs else s.csAbort.get F.CP_CNT1_ABORT = min 255 (s.get F.CP_CNT1_ABORT + 1))
    ∧ s.csAbort.out = s.out ∧ s.csAbort.cp.resetDue = s.cp.resetDue := by
  have hrx : ((s.bump F.CP_CNT1_ABORT).cpPart 0 []).cpRx 0 = { s.cpRx 0 with part := [] } := (cpRx_cpPart (s.bump F.CP_CNT1_ABORT) 0 0 []).trans (if_pos rfl)
  by_cases hpart : (s.cpRx 0).part = []
  · rw [if_pos hpart, State.csAbort, if_pos (by simpa using hpart)]
    exact ⟨CpQuiet.refl s, hpart, rfl, rfl, rfl, rfl⟩
  · rw [if_neg hpart, State.csAbort, if_neg (by simpa using hpart)]
    exact ⟨quiet_bump s (.inr rfl), congrArg CpRx.part hrx, (congrArg CpRx.waiting hrx).trans rfl, State.get_bump s F.CP_CNT1_ABORT (by decide), rfl, rfl⟩

theorem exec_spiCsRise {s : State} {sent : Nat} (hdom : s.domOn 1 = true) (hheld : s.pwr.stage ≠ .held) (hdue : s.cp.resetDue = false) :
    exec (.spiCsRise sent) s = s.ends ((s.csOut sent).csAbort.modCp fun c =>
      { c with rx := padMod ⟨[], none, [], []⟩ 0 (fun r => { r with waiting := stillWaiting sent r.waiting }) c.rx }) := by
  have h0 : exec (.spiCsRise sent) s = execSpiCsRise sent s := rfl
  rw [h0, execSpiCsRise, if_neg (by simp [hdom, hheld])]
  have hcp : (s.csOut sent).csAbort.cp.resetDue = false := by
    obtain ⟨-, -, -, -, -, hkept⟩ := csAbort_spec (s.csOut sent)
    rw [hkept, ← hdue, State.csOut]
    split <;> rfl
  refine congrArg s.ends ((if_neg ?_).trans rfl)
  have hnot (g : Bool) : ¬ ((s.csOut sent).csAbort.cp.resetDue && g) = true := by simp [hcp]
  exact hnot _

theorem spiCsRise_still {s : State} {sent : Nat} (h : s.domOn 1 = false ∨ s.pwr.stage = .held) : Completes (.spiCsRise sent) s fun t => t = s := by
  have hexec : exec (.spiCsRise sent) s = s.ends s := by
    have h0 : exec (.spiCsRise sent) s = execSpiCsRise sent s := rfl
    rw [h0, execSpiCsRise, if_pos (by simpa using h)]
  exact .of hexec rfl

theorem spiCsRise_gone {s : State} {sent : Nat} (hdom : s.domOn 1 = true) (hheld : s.pwr.stage ≠ .held) (hdue : s.cp.resetDue = false) :
    Completes (.spiCsRise sent) s fun t => CpQuiet s t ∧ (t.cpRx 0).part = []
      ∧ (if (s.cpRx 0).part = [] then t.regs = s.regs else t.get F.CP_CNT1_ABORT = min 255 (s.get F.CP_CNT1_ABORT + 1))
      ∧ t.out = (if sent = 0 then s.out else .reply 0 0 (misoBytes (s.cpRx 0).waiting.flatten sent) :: s.out)
      ∧ (t.cpRx 0).waiting = stillWaiting sent (s.cpRx 0).waiting := by
  refine .of (exec_spiCsRise hdom hheld hdue) ?_
  obtain ⟨l, hl, hgiven⟩ : ∃ l, l = (if sent = 0 then s.out else .reply 0 0 (misoBytes (s.cpRx 0).waiting.flatten sent) :: s.out)
      ∧ s.csOut sent = { s with out := l } := by
    refine ⟨_, rfl, ?_⟩
    rw [State.csOut]
    split <;> rfl
  rw [hgiven, ← hl]
  obtain ⟨hquiet, hpart, hwait, habort, hout, -⟩ := csAbort_spec { s with out := l }
  have hrx (u : State) : (u.modCp fun c => { c with rx := padMod ⟨[], none, [], []⟩ 0 (fun r => { r with waiting := stillWaiting sent r.waiting }) c.rx }).cpRx 0
      = { u.cpRx 0 with waiting := stillWaiting sent (u.cpRx 0).waiting } := (getD_padMod _ _ 0 0 u.cp.rx).trans (if_pos rfl)
  exact ⟨hquiet, (congrArg CpRx.part (hrx _)).trans hpart, habort, hout, (congrArg CpRx.waiting (hrx _)).trans (congrArg (stillWaiting sent) hwait)⟩

/-- Settles O57: one lemma for each way bytes arrive. -/
theorem portReception : Obligations.PortReception := by
  intro s tr via src flags op seq p b c len m sent
  dsimp only
  have hcrc : (crc32c ((cpPacket flags.toNat op.toNat seq.toNat p).take (7 + p.length))).toNat = cpCrc flags op seq p := by
    rw [cpPacket_eq, take_cpFrame]
    rfl
  have hbody : (cpPacket flags.toNat op.toNat seq.toNat p).take (7 + p.length) = cpBody flags op seq p := by rw [cpPacket_eq, take_cpFrame]
  have hpk : (cpPacket flags.toNat op.toNat seq.toNat p).length = 11 + p.length := by rw [cpPacket_eq, length_cpFrame]
  rw [hcrc, hbody]
  refine ⟨packetReceive_unserved, fun h o ho => packetReceive_busy h ho, fun h ho => ⟨fun hf => packetReceive_replyIn h ho hf,
    fun hf hkey => packetReceive_dup h ho hf hkey, ?_, ?_⟩, fun hs ho hp hc hpart hb => packetReceive_badCrc hs ho hp hc hpart hb,
    fun hs htr hpart => ⟨?_, ?_⟩, fun hs htr hsync => ⟨?_, ?_, ?_⟩, fun hs htr => ⟨?_, ?_⟩, uartGap_inside, uartGap_outside, spiCsRise_still, ?_⟩
  · rintro rfl rfl hlen hkey
    obtain ⟨t, ht, ⟨hreplies, hidle, hkept, hmem⟩, hrest⟩ := packetReceive_answer (via := via) (src := src) h ho rfl hkey (st := .ok) (body := p)
      fun o hop hpay => hpay ▸ cpRun_ping hop (hpay ▸ hlen)
    exact ⟨t, ht, hreplies, hidle, hkept, hmem, hrest⟩
  · intro hf hlen hkey
    obtain ⟨t, ht, ⟨hreplies, hidle, hkept, hmem⟩, hrest⟩ := packetReceive_answer (via := via) (src := src) h ho hf hkey (st := .badOpcode) (body := [])
      fun o hop _ => cpRun_badOpcode (hop ▸ Option.isNone_iff_eq_none.mp hlen)
    exact ⟨t, ht, hreplies, hidle, hmem, hrest⟩
  · intro hp hm hshort hb
    refine part_of_left hs htr hpart ?_
    rw [hb, cpPacket_eq]
    exact cpHunt_short (stage_of_serves hs) _ flags op seq p hp (cpCrc_lt flags op seq p) hm (hpk ▸ hshort) _
  · intro hno
    exact part_of_left hs htr hpart (cpHunt_noSync (stage_of_serves hs) _ b hno _ (Nat.lt_succ_self _))
  · intro hlen hbad hno
    exact datagram_counted hs htr (.inl rfl) (datagram_hdrErr s _ _ _ hlen hbad hsync hno _)
  · intro hbad
    exact datagram_counted hs htr (.inr rfl) (datagram_udpLen s _ _ hsync hbad _)
  · intro hlen hb hno
    have hgram : s.cpDatagram via.val src.toNat b.length b (b.length + 1) = s.cpSend 2 via.val src.toNat (cpReplyBytes op.toNat seq.toNat .badParam []) := by
      rw [hb]
      exact datagram_tooLong s _ _ _ op seq len p hlen hno _
    have hsent := cpSent_cpSend (tr := 2) (src := src.toNat) via.isLt (by decide) s (cpReplyBytes op.toNat seq.toNat .badParam [])
    refine .of ((exec_packetReceive_datagram hs htr).trans (congrArg s.ends hgram)) ⟨?_, hsent.op, hsent.nvm, fun h => absurd htr h⟩
    rw [htr]
    exact hsent.replies.requeue _
  · intro hno
    exact .of ((exec_packetReceive_datagram hs htr).trans (congrArg s.ends (cpDatagram_noSync s _ _ _ b hno _))) rfl
  · intro j hj hno hp hb
    refine datagram_counted hs htr (.inr rfl) ?_
    have hjl := List.length_pos_of_ne_nil hj
    rw [hb, List.length_append, Nat.add_assoc, cpDatagram_append s _ _ _ _ j hno, cpPacket_eq]
    refine cpDatagram_longer s _ _ flags op seq p hp (cpCrc_lt flags op seq p) ?_ _
    rw [length_cpFrame]
    omega
  · intro hdom hheld hdue
    obtain ⟨t, ht, hquiet, hpart, habort, hout, hwait⟩ := spiCsRise_gone (sent := sent) hdom hheld hdue
    obtain ⟨hlen, htake, hzero⟩ := misoBytes_spec (s.cpRx 0).waiting.flatten sent
    refine ⟨t, ht, hquiet, hpart, habort, ?_, ?_, hwait ▸ stillWaiting_suffix _ _, fun y hy => ?_⟩
    · rw [hout]
      split
      · rfl
      · exact ⟨_, hlen, rfl, htake, hzero⟩
    · rintro rfl hne
      rw [hwait, stillWaiting_zero _ hne]
    · rw [hwait]
      exact stillWaiting_head sent hy
end Sys2Proof.Machine
end

-- ==== Counts of interrupt sources and the state of a CAN controller ====
section
/-!
PROOFS of the CAN controllers (O50): what was set up of a controller, its error counters, the ends of a slot, and how often an interrupt
source came.
-/
namespace Sys2Proof.Machine

/-! The registers of a controller that no event writes. -/

/-- A register of the CAN controllers that holds what a program set up, or of a buffer what it holds beside status and stamp. -/
def CanSetup (a : Nat) : Prop :=
  0x400B0000 ≤ a ∧ (a < 0x400B8000 ∧ a % 0x1000 ≠ 0x10 ∧ a % 0x1000 ≠ 0x14 ∨ 0x400B8000 ≤ a ∧ a % 0x80 ≠ 0x0C ∧ a % 0x80 ≠ 0x10 ∧ a % 0x80 ≠ 0x14)

/-- Two states agree in what was set up of the CAN controllers. -/
def CanAlike (s t : State) : Prop := ∀ a, CanSetup a → t.word a = s.word a

theorem CanSetup.not_book {a : Nat} (h : CanSetup a) : ¬ Book a := by
  simp only [CanSetup] at h
  simp only [Book]
  omega

section
variable {s t u : State}

theorem CanAlike.refl (s : State) : CanAlike s s := fun _ _ => rfl

theorem CanAlike.trans (h : CanAlike s t) (g : CanAlike t u) : CanAlike s u := fun a ha => (g a ha).trans (h a ha)

theorem CanAlike.kept (h : CanAlike s t) (k : Kept t u) : CanAlike s u := h.trans fun a ha => k.word a ha.not_book

theorem canAlike_advanceTo (s : State) (n : Nat) : CanAlike s (s.advanceTo n) := fun _ ha => State.advanceTo_word s n ha.not_book

theorem CanAlike.setWord (h : CanAlike s t) {a : Nat} (ha : ¬ CanSetup a) (v : Word) : CanAlike s (t.setWord a v) :=
  h.trans fun b hb => State.word_setWord_ne t (by rintro rfl; exact ha hb) v

theorem CanAlike.set (h : CanAlike s t) {f : Fld} (hf : ¬ CanSetup f.addr) (v : Nat) : CanAlike s (t.set f v) := h.setWord hf _

theorem CanAlike.setFlag (h : CanAlike s t) {f : Fld} (hf : ¬ CanSetup f.addr) (b : Bool) : CanAlike s (t.setFlag f b) := h.setWord hf _

theorem CanAlike.bump (h : CanAlike s t) {f : Fld} (hf : ¬ CanSetup f.addr) : CanAlike s (t.bump f) := h.setWord hf _

theorem CanAlike.modCan (h : CanAlike s t) (c : Nat) (f : Can → Can) : CanAlike s (t.modCan c f) := h

theorem CanAlike.get (h : CanAlike s t) {f : Fld} (hf : CanSetup f.addr) : t.get f = s.get f := State.get_congr (h _ hf)

theorem CanAlike.flag (h : CanAlike s t) {f : Fld} (hf : CanSetup f.addr) : t.flag f = s.flag f := congrArg (· != 0) (h.get hf)

end

/-! Where the registers lie. -/

section
variable {n : Nat}

theorem not_setup_stat (n : Nat) : ¬ CanSetup (R.CAN_STAT n) := by simp only [CanSetup, R.CAN_STAT]; omega

theorem not_setup_cnt (n : Nat) : ¬ CanSetup (R.CAN_CNT n) := by simp only [CanSetup, R.CAN_CNT]; omega

theorem not_setup_bst (n b : Nat) : ¬ CanSetup (R.CAN_BST n b) := by simp only [CanSetup, R.CAN_BST]; omega

theorem not_setup_bstampl (n b : Nat) : ¬ CanSetup (R.CAN_BSTAMPL n b) := by simp only [CanSetup, R.CAN_BSTAMPL]; omega

theorem not_setup_bstamph (n b : Nat) : ¬ CanSetup (R.CAN_BSTAMPH n b) := by simp only [CanSetup, R.CAN_BSTAMPH]; omega

theorem setup_cfg (hn : n < 4) : CanSetup (R.CAN_CFG n) := by simp only [CanSetup, R.CAN_CFG]; omega

theorem setup_nbt (hn : n < 4) : CanSetup (R.CAN_NBT n) := by simp only [CanSetup, R.CAN_NBT]; omega

theorem setup_dbt (hn : n < 4) : CanSetup (R.CAN_DBT n) := by simp only [CanSetup, R.CAN_DBT]; omega

theorem setup_sch (hn : n < 4) : CanSetup (R.CAN_SCH n) := by simp only [CanSetup, R.CAN_SCH]; omega

theorem setup_bcfg (n b : Nat) : CanSetup (R.CAN_BCFG n b) := by simp only [CanSetup, R.CAN_BCFG]; omega

theorem setup_bid (n b : Nat) : CanSetup (R.CAN_BID n b) := by simp only [CanSetup, R.CAN_BID]; omega

theorem setup_bmask (n b : Nat) : CanSetup (R.CAN_BMASK n b) := by simp only [CanSetup, R.CAN_BMASK]; omega

theorem bst_ne_stat (n b : Nat) : R.CAN_STAT n ≠ R.CAN_BST n b := by simp only [R.CAN_STAT, R.CAN_BST]; omega

theorem bst_ne_cnt (n b : Nat) : R.CAN_CNT n ≠ R.CAN_BST n b := by simp only [R.CAN_CNT, R.CAN_BST]; omega

theorem stat_ne_cnt (n : Nat) : R.CAN_STAT n ≠ R.CAN_CNT n := by simp only [R.CAN_STAT, R.CAN_CNT]; omega

theorem not_book_stat (hn : n < 4) : ¬ Book (R.CAN_STAT n) := by simp only [Book, R.CAN_STAT]; omega

theorem not_book_cnt (hn : n < 4) : ¬ Book (R.CAN_CNT n) := by simp only [Book, R.CAN_CNT]; omega

theorem not_book_buf {a : Nat} (ha : 0x400B8000 ≤ a) : ¬ Book a := by simp only [Book]; omega

end

/-! What the controllers compute of their set-up. -/

section
variable {s t : State} {n : Nat} (hn : n < 4) (h : CanAlike s t)
include hn h

theorem CanAlike.canN2k : t.canN2k n = s.canN2k n := h.flag (setup_cfg hn)

theorem CanAlike.canMode : t.canMode n = s.canMode n := congrArg (· % 3) (h.get (setup_cfg hn))

theorem CanAlike.canRef : t.canRef n = s.canRef n := congrArg (· % 3) (h.get (setup_cfg hn))

theorem CanAlike.canBit : t.canBit n = s.canBit n := by
  simp only [State.canBit, State.get1, h.canN2k hn, h.get (f := F.CAN_NBT_NTSEG1 n) (setup_nbt hn), h.get (f := F.CAN_NBT_NTSEG2 n) (setup_nbt hn),
    h.get (f := F.CAN_NBT_NBRP n) (setup_nbt hn)]

theorem CanAlike.canDBit : t.canDBit n = s.canDBit n := by
  simp only [State.canDBit, State.get1, h.get (f := F.CAN_DBT_DTSEG1 n) (setup_dbt hn), h.get (f := F.CAN_DBT_DTSEG2 n) (setup_dbt hn),
    h.get (f := F.CAN_DBT_DBRP n) (setup_dbt hn)]

theorem CanAlike.canFd (b : Nat) : t.canFd n b = s.canFd n b := by
  simp only [State.canFd, h.canN2k hn, h.flag (f := F.CAN_BCFG_FDF n b) (setup_bcfg n b), h.flag (f := F.CAN_CFG_FD_EN n) (setup_cfg hn)]

theorem CanAlike.canFt (b : Nat) : t.canFt n b = s.canFt n b := by
  simp only [State.canFt, h.canN2k hn, h.canFd hn, h.canBit hn, h.canDBit hn, h.flag (f := F.CAN_BCFG_IDE n b) (setup_bcfg n b),
    h.flag (f := F.CAN_BCFG_BRS n b) (setup_bcfg n b), h.get (f := F.CAN_BCFG_DLC n b) (setup_bcfg n b)]

theorem CanAlike.canTx (b : Nat) : t.canTx n b = s.canTx n b := by
  simp only [State.canTx, h.canN2k hn, h.flag (f := F.CAN_BCFG_EN n b) (setup_bcfg n b), h.flag (f := F.CAN_BCFG_DIR n b) (setup_bcfg n b)]

theorem CanAlike.canIdent (b k : Nat) (ide : Bool) : t.canIdent n b k ide = s.canIdent n b k ide := by
  simp only [State.canIdent, h.canN2k hn, h.flag (f := F.CAN_BCFG_IDE n b) (setup_bcfg n b), h.get (f := F.CAN_BMASK_MASK n b) (setup_bmask n b),
    h.get (f := F.CAN_BID_ID n b) (setup_bid n b)]

theorem CanAlike.canMatch (b k : Nat) (ide : Bool) : t.canMatch n b k ide = s.canMatch n b k ide := by
  simp only [State.canMatch, h.canN2k hn, h.canIdent hn, h.flag (f := F.CAN_BCFG_EN n b) (setup_bcfg n b), h.flag (f := F.CAN_BCFG_DIR n b) (setup_bcfg n b)]

end

/-! The error counters (R270, R279). -/

/-- What an operation of a controller leaves, beside the hidden state: the set-up, what was put out and device time. -/
structure CanStill (s t : State) : Prop where
  alike : CanAlike s t
  out : t.out = s.out
  now : t.now = s.now

section
variable {s t u : State}

theorem CanStill.refl (s : State) : CanStill s s := ⟨CanAlike.refl s, rfl, rfl⟩

theorem CanStill.trans (h : CanStill s t) (g : CanStill t u) : CanStill s u := ⟨h.alike.trans g.alike, g.out.trans h.out, g.now.trans h.now⟩

theorem Kept.canStill (k : Kept s t) : CanStill s t :=
  ⟨(CanAlike.refl s).kept k, k.same .out (by decide) (by decide), congrArg (fun b => b.count.toNat) (k.same .time (by decide) (by decide))⟩

theorem canStill_setWord (s : State) {a : Nat} (v : Word) (ha : ¬ CanSetup a) : CanStill s (s.setWord a v) := ⟨(CanAlike.refl s).setWord ha v, rfl, rfl⟩

theorem canStill_set (s : State) {f : Fld} (v : Nat) (hf : ¬ CanSetup f.addr) : CanStill s (s.set f v) := canStill_setWord s _ hf

theorem canStill_setFlag (s : State) {f : Fld} (b : Bool) (hf : ¬ CanSetup f.addr) : CanStill s (s.setFlag f b) := canStill_setWord s _ hf

theorem canStill_bump (s : State) {f : Fld} (hf : ¬ CanSetup f.addr) : CanStill s (s.bump f) := canStill_setWord s _ hf

theorem canStill_modCan (s : State) (c : Nat) (f : Can → Can) : CanStill s (s.modCan c f) := ⟨CanAlike.refl s, rfl, rfl⟩

end

section
variable {n : Nat} (s : State)

theorem canState_eq : s.canState n = s ∨ s.canState n = s.set (F.CAN_STAT_ESTATE n) (if 128 ≤ s.get (F.CAN_STAT_TEC n) || 128 ≤ s.get (F.CAN_STAT_REC n) then 1 else 0) := by
  rw [State.canState]
  split
  · exact .inl rfl
  · exact .inr rfl

theorem canStill_canState : CanStill s (s.canState n) := by
  rcases canState_eq (n := n) s with h | h <;> rw [h]
  · exact .refl s
  · exact canStill_set s _ (not_setup_stat n)

theorem canState_can : (s.canState n).can = s.can := by
  rcases canState_eq (n := n) s with h | h <;> rw [h]
  rfl

theorem canState_word {a : Nat} (ha : a ≠ R.CAN_STAT n) : (s.canState n).word a = s.word a := by
  rcases canState_eq (n := n) s with h | h <;> rw [h]
  exact State.word_set_ne s _ _ ha

/-- The fields of CAN_STAT beside the error state stay. -/
theorem canState_get {f : Fld} (hf : 2 ≤ f.lo) : (s.canState n).get f = s.get f := by
  rcases canState_eq (n := n) s with h | h <;> rw [h]
  exact get_set_of_apart (f := f) (g := F.CAN_STAT_ESTATE n) (apart_below hf) s _

theorem canState_flag {f : Fld} (hf : 2 ≤ f.lo) : (s.canState n).flag f = s.flag f := congrArg (· != 0) (canState_get s hf)

/-- The error state shown, out of bus-off. -/
theorem canState_estate (h : s.canOff n = false) : (s.canState n).get (F.CAN_STAT_ESTATE n)
    = if 128 ≤ s.get (F.CAN_STAT_TEC n) ∨ 128 ≤ s.get (F.CAN_STAT_REC n) then 1 else 0 := by
  rw [State.canState, if_neg (by simp [h]), State.get_set _ _ _ (show 0 + 2 ≤ 32 by decide)]
  simp only [Bool.or_eq_true, decide_eq_true_eq]
  split <;> rfl

theorem canState_off (h : s.canOff n = false) : (s.canState n).canOff n = false := by
  rw [State.canOff, canState_estate s h]
  split <;> rfl

theorem stat_get_lt_tec : s.get (F.CAN_STAT_TEC n) < 256 := get_lt s (F.CAN_STAT_TEC n)

/-- A transmit error below bus-off. -/
theorem canTecUp_low (h : s.get (F.CAN_STAT_TEC n) < 248) : s.canTecUp n = (s.set (F.CAN_STAT_TEC n) (s.get (F.CAN_STAT_TEC n) + 8)).canState n := by
  rw [State.canTecUp]
  exact if_pos (by omega)

/-- What a transmit error below bus-off leaves. -/
theorem canTecUp_spec (h : s.get (F.CAN_STAT_TEC n) < 248) (hoff : s.canOff n = false) : CanStill s (s.canTecUp n) ∧ (s.canTecUp n).can = s.can
    ∧ (∀ a, a ≠ R.CAN_STAT n → (s.canTecUp n).word a = s.word a) ∧ (s.canTecUp n).canOff n = false
    ∧ (s.canTecUp n).get (F.CAN_STAT_TEC n) = s.get (F.CAN_STAT_TEC n) + 8 ∧ (s.canTecUp n).flag (F.CAN_STAT_LONELY n) = s.flag (F.CAN_STAT_LONELY n) := by
  have hset : (s.set (F.CAN_STAT_TEC n) (s.get (F.CAN_STAT_TEC n) + 8)).canOff n = false := by
    rw [State.canOff, get_set_of_apart (apart_above (show 0 + 2 ≤ 16 by decide))]
    exact hoff
  rw [canTecUp_low s h]
  refine ⟨(canStill_set s _ (not_setup_stat n)).trans (canStill_canState _), canState_can _, fun a ha => ?_, canState_off _ hset, ?_, ?_⟩
  · rw [canState_word _ ha, State.word_set_ne _ _ _ ha]
  · rw [canState_get _ (show 2 ≤ 16 by decide), State.get_set _ _ _ (show 16 + 8 ≤ 32 by decide)]
    exact Nat.mod_eq_of_lt (show s.get (F.CAN_STAT_TEC n) + 8 < 256 by omega)
  · rw [canState_flag _ (show 2 ≤ 2 by decide), flag_set_of_apart (apart_above (show 2 + 1 ≤ 16 by decide))]

/-- The counters of a controller gone bus-off, and whether its recovery may run. -/
def State.canBusOff (s : State) (n : Nat) : State :=
  let t := ((s.set (F.CAN_STAT_TEC n) 255).set (F.CAN_STAT_ESTATE n) 2).bump (F.CAN_CNT_BUSOFF n)
  t.modCan n fun x => { x with recover := t.flag (F.CAN_CFG_AUTO_REC n) }

/-- A transmit error at which the controller goes bus-off. -/
theorem canTecUp_high (h : 248 ≤ s.get (F.CAN_STAT_TEC n)) :
    s.canTecUp n = (s.canBusOff n).event (260 + n) ((s.canBusOff n).word (R.CAN_STAT n)) .none := by
  rw [State.canTecUp]
  exact if_neg (by omega)

end

/-! The ends of a slot (R276, R279). -/

section
variable {n : Nat} {s : State} {w : CanSlot}

theorem canSlotEnd_eq (h : (s.canC n).slot = some w) (code : Nat) (window : Bool) : s.canSlotEnd n code window
    = (((s.set (F.CAN_BST_CODE n w.buf) code).setFlag (F.CAN_BST_ENDBY n w.buf) window).set (F.CAN_BST_TRIES n w.buf) (min 63 w.tries)).modCan n
        fun x => { x with slot := none } := by
  rw [State.canSlotEnd, h]

/-- What the end of a slot leaves. -/
structure SlotEnded (n b code : Nat) (window : Bool) (s t : State) : Prop where
  slot : (t.canC n).slot = none
  code : t.get (F.CAN_BST_CODE n b) = code
  endby : t.flag (F.CAN_BST_ENDBY n b) = window
  still : CanStill s t
  word : ∀ a, a ≠ R.CAN_BST n b → t.word a = s.word a
  unread : (t.canC n).unread = (s.canC n).unread
  evReq : (t.canC n).evReq = (s.canC n).evReq

theorem slotEnded_canSlotEnd (h : (s.canC n).slot = some w) {code : Nat} (hcode : code < 16) (window : Bool) :
    SlotEnded n w.buf code window s (s.canSlotEnd n code window) := by
  rw [canSlotEnd_eq h]
  refine ⟨?_, ?_, ?_, ?_, fun a ha => ?_, ?_, ?_⟩
  · rw [State.canC_modCan_same]
  · rw [State.modCan_get, get_set_of_apart (apart_above (show 0 + 4 ≤ 5 by decide)), get_setFlag_of_apart (apart_above (show 0 + 4 ≤ 4 by decide)),
      State.get_set _ _ _ (show 0 + 4 ≤ 32 by decide)]
    exact Nat.mod_eq_of_lt hcode
  · rw [State.modCan_flag, flag_set_of_apart (apart_above (show 4 + 1 ≤ 5 by decide)), State.flag_setFlag _ _ _ (show 4 + 1 ≤ 32 by decide) rfl]
  · have hbst := not_setup_bst n w.buf
    exact (((canStill_set s code hbst).trans (canStill_setFlag _ window hbst)).trans (canStill_set _ _ hbst)).trans (canStill_modCan _ n _)
  · rw [State.modCan_word, State.word_set_ne _ _ _ ha, State.word_setFlag_ne _ _ _ ha, State.word_set_ne _ _ _ ha]
  · rw [State.canC_modCan_same]
    rfl
  · rw [State.canC_modCan_same]
    rfl

/-- A slot is offered from an instant on. -/
theorem canOffer_eq (h : (s.canC n).slot = some w) (t : Nat) : s.canOffer n t = s.modCan n fun x =>
    { x with slot := some { w with sof := if s.canOff n = true ∨ s.canMode n = 1 ∨ w.winEnd < t + s.canFt n w.buf then none else some t } } := by
  rw [State.canOffer, h]
  by_cases hno : s.canOff n = true ∨ s.canMode n = 1 ∨ w.winEnd < t + s.canFt n w.buf
  · have hno' : (s.canOff n || decide (s.canMode n = 1) || decide (w.winEnd < t + s.canFt n w.buf)) = true := by simpa [or_assoc] using hno
    simp only [if_pos hno]
    exact if_pos hno'
  · have hno' : ¬ (s.canOff n || decide (s.canMode n = 1) || decide (w.winEnd < t + s.canFt n w.buf)) = true := by simpa [or_assoc] using hno
    simp only [if_neg hno]
    exact if_neg hno'

end

/-! An attempt without success (R276, R279). -/

/-- The end of an attempt without success, its errors counted: the slot ends or is offered again. -/
def State.canFailed (s : State) (n : Nat) (w : CanSlot) (t : Nat) : State :=
  if w.late then s.canSlotEnd n 4 false
  else if s.canOff n then s.canSlotEnd n 9 true
  else if s.get (F.CAN_SCH_RETRY_MAX n) < w.tries then s.canSlotEnd n (failCode w.fail) false
  else if w.winEnd < t + s.canFt n w.buf then s.canSlotEnd n (failCode w.fail) true
  else s.canOffer n t

theorem failCode_lt (k : Nat) : failCode k < 16 := by
  unfold failCode
  split <;> decide

/-- How a slot goes on after a failure. -/
def SlotFailed (n : Nat) (w : CanSlot) (t : Nat) (s v : State) : Prop :=
  if s.get (F.CAN_SCH_RETRY_MAX n) < w.tries then SlotEnded n w.buf (failCode w.fail) false s v
  else if w.winEnd < t + s.canFt n w.buf then SlotEnded n w.buf (failCode w.fail) true s v
  else (v.canC n).slot.map (fun y => (y.buf, y.tries)) = some (w.buf, w.tries) ∧ v.regs = s.regs ∧ v.time = s.time

theorem slotFailed_canFailed {n t : Nat} {s : State} {w : CanSlot} (h : (s.canC n).slot = some w) (hlate : w.late = false) (hoff : s.canOff n = false) :
    SlotFailed n w t s (s.canFailed n w t) := by
  rw [State.canFailed, if_neg (by simp [hlate]), if_neg (by simp [hoff]), SlotFailed]
  split
  · exact slotEnded_canSlotEnd h (failCode_lt _) false
  · split
    · exact slotEnded_canSlotEnd h (failCode_lt _) true
    · rw [canOffer_eq h]
      refine ⟨?_, rfl, rfl⟩
      rw [State.canC_modCan_same]
      rfl

theorem SlotFailed.word {n t : Nat} {s v : State} {w : CanSlot} (h : SlotFailed n w t s v) {a : Nat} (ha : a ≠ R.CAN_BST n w.buf) : v.word a = s.word a := by
  rw [SlotFailed] at h
  split at h
  · exact h.word a ha
  · split at h
    · exact h.word a ha
    · exact congrArg (mapGet resetWord a) h.2.1

theorem SlotFailed.now {n t : Nat} {s v : State} {w : CanSlot} (h : SlotFailed n w t s v) : v.now = s.now := by
  rw [SlotFailed] at h
  split at h
  · exact h.still.now
  · split at h
    · exact h.still.now
    · exact congrArg (fun b => b.count.toNat) h.2.2

/-! How often a source came (R368). -/

/-- The arrivals counted of a source are as before. -/
def CameAsBefore (m : Nat) (s t : State) : Prop := t.get (F.IC_CNT_COUNT m) = s.get (F.IC_CNT_COUNT m)

section
variable {m : Nat} {s t u : State}

theorem CameAsBefore.refl (s : State) : CameAsBefore m s s := rfl

theorem CameAsBefore.trans (h : CameAsBefore m s t) (g : CameAsBefore m t u) : CameAsBefore m s u := Eq.trans g h

theorem cameAsBefore_setWord (s : State) {a : Nat} (v : Word) (h : R.IC_CNT m ≠ a) : CameAsBefore m s (s.setWord a v) :=
  State.get_congr (State.word_setWord_ne s h v)

theorem cameAsBefore_lost (s : State) (n : Nat) (b : Bool) : CameAsBefore m s (s.setFlag (F.IC_CNT_LOST n) b) :=
  get_setFlag_of_apart (f := F.IC_CNT_COUNT m) (g := F.IC_CNT_LOST n) (apart_above (show 0 + 8 ≤ 8 by decide)) s b

theorem cameAsBefore_foldl {β : Type} (f : State → β → State) : ∀ (l : List β), (∀ s, ∀ b ∈ l, CameAsBefore m s (f s b)) → ∀ s : State,
    CameAsBefore m s (l.foldl f s)
  | [], _, s => .refl s
  | b :: l, h, s => (h s b (by simp)).trans (cameAsBefore_foldl f l (fun t c hc => h t c (by simp [hc])) (f s b))

end

section
variable {m : Nat} (hm : m < 512)
include hm

theorem cameAsBefore_pmuPut (s : State) (n v : Nat) : CameAsBefore m s (s.pmuPut n v) :=
  cameAsBefore_setWord s _ (by simp only [R.IC_CNT, R.PMU_CNTL]; omega)

theorem cameAsBefore_pmuAddAt (f : Nat) : ∀ (s : State) (n k : Nat), CameAsBefore m s (s.pmuAddAt n k f).1 := by
  induction f with
  | zero => exact fun s _ _ => .refl s
  | succ f ih =>
    intro s n k
    have hput := cameAsBefore_pmuPut hm s n ((s.pmuVal n + k) % 2 ^ 48)
    rw [State.pmuAddAt]
    split
    · exact hput
    · split
      · exact hput.trans (ih _ _ _)
      · exact hput.trans (cameAsBefore_setWord _ _ (by simp only [R.IC_CNT, R.PMU_OVF]; omega))

theorem cameAsBefore_pmuRaw (s : State) (n k : Nat) : CameAsBefore m s (s.pmuRaw n k).1 := by
  rw [State.pmuRaw]
  split
  · exact .refl s
  · exact cameAsBefore_pmuAddAt hm _ _ _ _

theorem cameAsBefore_enqueue (s : State) {x l n : Nat} (info : Word) (posted sat : Bool) (hx : x < 10) (hl : l < 8) :
    CameAsBefore m s (s.enqueue x l n info posted sat) := by
  have hring (u : State) (f : Ring → Ring) : CameAsBefore m u (u.modRing x l f) := .refl u
  have hbytes (u : State) (a : Nat) (b : List Byte) : CameAsBefore m u (u.storeBytes a b) := by rw [storeBytes_eq]; exact .refl u
  have hwake (u : State) : CameAsBefore m u (if (u.proc x).doze then u.setDoze x false else u) := by
    split
    · exact cameAsBefore_setWord (u.modProc x _) _ (by simp only [R.IC_CNT, R.PWR_STAT]; omega)
    · exact .refl u
  have hline (u : State) : CameAsBefore m u (u.refreshLine x) :=
    (cameAsBefore_setWord u _ (by simp only [R.IC_CNT, F.IC_LEVEL_LINE, R.IC_LEVEL]; omega)).trans
      (cameAsBefore_setWord _ _ (by simp only [R.IC_CNT, F.IC_LEVEL_DEPTH, R.IC_LEVEL]; omega))
  rw [State.enqueue]
  split
  · have hbump : CameAsBefore m s (s.bump (F.RING_OVF_OVF x l)) :=
      cameAsBefore_setWord s _ (by simp only [R.IC_CNT, F.RING_OVF_OVF, R.RING_OVF]; omega)
    exact (hbump.trans (cameAsBefore_lost _ n true)).trans (cameAsBefore_pmuRaw hm _ _ _)
  · dsimp only
    refine CameAsBefore.trans ?_ (cameAsBefore_pmuRaw hm _ _ _)
    refine CameAsBefore.trans ?_ (hline _)
    refine CameAsBefore.trans ?_ (hwake _)
    refine CameAsBefore.trans ?_ (cameAsBefore_lost _ n false)
    refine CameAsBefore.trans ?_ (hring _ _)
    exact (hbytes _ _ _).trans (cameAsBefore_setWord _ _ (by simp only [R.IC_CNT, F.RING_IDX_TAIL, R.RING_IDX]; omega))

/-- An arrival: the source's own count, and what else it brings. -/
theorem arrive_cases (s : State) {n : Nat} (hn : icAssigned n = true) (info : Word) : CameAsBefore m (s.bump (F.IC_CNT_COUNT n)) (s.arrive n info) := by
  have hp := get_lt (s.bump (F.IC_CNT_COUNT n)) (F.IC_SRC_PRIO n)
  rw [State.arrive, State.arriveG, if_neg (by simp [hn])]
  dsimp only
  split
  · exact .refl _
  · split
    · exact .refl _
    · exact cameAsBefore_enqueue hm _ _ _ _ (icTarget_lt _ _) hp

/-- An arrival is counted. -/
theorem came_arrive (s : State) (hn : icAssigned m = true) (info : Word) :
    (s.arrive m info).get (F.IC_CNT_COUNT m) = min 255 (s.get (F.IC_CNT_COUNT m) + 1) :=
  Eq.trans (arrive_cases hm s hn info) (State.get_bump s (F.IC_CNT_COUNT m) (show 0 + 8 ≤ 32 by decide))

/-- An arrival of another source is not. -/
theorem cameAsBefore_arrive (s : State) {n : Nat} (h : m ≠ n) (info : Word) : CameAsBefore m s (s.arrive n info) := by
  cases hn : icAssigned n with
  | false =>
    rw [State.arrive, State.arriveG, hn]
    exact .refl s
  | true => exact (cameAsBefore_setWord s _ (by simp only [R.IC_CNT, F.IC_CNT_COUNT]; omega)).trans (arrive_cases hm s hn info)

theorem cameAsBefore_overflows (h : m ≠ 313) (l : List Nat) (s : State) :
    CameAsBefore m s (l.foldl (fun (t : State) c => t.arrive 313 (BitVec.ofNat 32 c)) s) :=
  cameAsBefore_foldl _ l (fun t _ _ => cameAsBefore_arrive hm t h _) s

theorem cameAsBefore_pmu (h : m ≠ 313) (s : State) (n : Nat) : CameAsBefore m s (s.pmu n) :=
  (cameAsBefore_pmuRaw hm s n 1).trans (cameAsBefore_overflows hm h _ _)

/-- Of the sources only 313, a counter's overflow, comes while device time runs on. -/
theorem cameAsBefore_advanceTo (h : m ≠ 313) (s : State) (n : Nat) : CameAsBefore m s (s.advanceTo n) := by
  rcases advanceTo_cases s n with ⟨e, _⟩ | ⟨_, _, e⟩
  · rw [e]
    exact .refl s
  · obtain ⟨a, b, c, t, g, _⟩ := runTicks_eq s (s.ticksTo n) (n - s.fineAfter (s.ticksTo n) / 2 ^ 32)
    rw [e, g]
    refine (show CameAsBefore m s (s.pmuSpan a b c) from ?_)
    rw [State.pmuSpan]
    exact cameAsBefore_foldl _ _ (fun t e _ => (cameAsBefore_pmuRaw hm t e.1 e.2).trans (cameAsBefore_overflows hm h _ _)) s

end

/-- An event without record is an arrival. -/
theorem event_none (s : State) (n : Nat) (info : Word) : s.event n info .none = s.arrive n info := by
  rw [State.event, State.record]
  split <;> rfl

/-! Bus-off (R270). -/

section
variable {n : Nat} (hn : n < 4) (s : State)
include hn

/-- What the error leaves at which the controller goes bus-off. -/
theorem canTecUp_busOff (h : 248 ≤ s.get (F.CAN_STAT_TEC n)) : ((s.canTecUp n).canC n).slot = (s.canC n).slot ∧ (s.canTecUp n).canOff n = true
    ∧ (s.canTecUp n).get (F.CAN_CNT_BUSOFF n) = min 255 (s.get (F.CAN_CNT_BUSOFF n) + 1)
    ∧ (s.canTecUp n).get (F.IC_CNT_COUNT (260 + n)) = min 255 (s.get (F.IC_CNT_COUNT (260 + n)) + 1) := by
  have hset (g : Fld) (hg : g.addr ≠ R.CAN_STAT n) : ((s.set (F.CAN_STAT_TEC n) 255).set (F.CAN_STAT_ESTATE n) 2).get g = s.get g :=
    (State.get_set_addr _ g (F.CAN_STAT_ESTATE n) _ hg).trans (State.get_set_addr s g (F.CAN_STAT_TEC n) _ hg)
  rw [canTecUp_high s h]
  refine ⟨?_, ?_, ?_, ?_⟩
  · rw [State.canC, State.event_can]
    exact (congrArg Can.slot (State.canC_modCan_same _ n _)).trans rfl
  · rw [State.canOff, State.event_get _ _ _ _ (x := F.CAN_STAT_ESTATE n) (not_book_stat hn), State.canBusOff, State.modCan_get,
      State.bump, State.bumpBy, State.get_set_addr _ _ (F.CAN_CNT_BUSOFF n) _ (stat_ne_cnt n), State.get_set _ _ _ (show 0 + 2 ≤ 32 by decide)]
    rfl
  · rw [State.event_get _ _ _ _ (x := F.CAN_CNT_BUSOFF n) (not_book_cnt hn), State.canBusOff, State.modCan_get, State.get_bump _ _ (show 24 + 8 ≤ 32 by decide),
      hset (F.CAN_CNT_BUSOFF n) (stat_ne_cnt n).symm]
    rfl
  · rw [event_none, came_arrive (by omega) _ (by simp [icAssigned]; omega), State.canBusOff, State.modCan_get, State.bump, State.bumpBy,
      State.get_set_addr _ _ (F.CAN_CNT_BUSOFF n) _ (by simp only [F.IC_CNT_COUNT, R.IC_CNT, F.CAN_CNT_BUSOFF, R.CAN_CNT]; omega),
      hset _ (by simp only [F.IC_CNT_COUNT, R.IC_CNT, R.CAN_STAT]; omega)]

end

end Sys2Proof.Machine
end

-- ==== Attempts of a CAN controller ====
section
/-!
PROOFS of the CAN controllers (O50): how an attempt ends, on the bus or in loopback.
-/
namespace Sys2Proof.Machine

/-! An attempt ends (R276). -/

/-- The slot once another attempt of it has been made. -/
def CanSlot.tried (w : CanSlot) (d : List Byte) (fail : Nat) : CanSlot := { w with copy := some d, tries := w.tries + 1, fail := fail }

/-- What an attempt of a slot sends. -/
def State.canSends (s : State) (n : Nat) (w : CanSlot) : List Byte := w.copy.getD (s.canPayload n w.buf w.refRow)

/-- The state at an attempt's end, before its outcome shows. -/
def State.canTried (s : State) (n : Nat) (w : CanSlot) (t fail : Nat) : State :=
  (s.advanceTo t).modCan n fun x => { x with slot := some (w.tried (s.canSends n w) fail) }

section
variable {s : State} {n : Nat} {w : CanSlot}

theorem canAlike_canTried (s : State) (n : Nat) (w : CanSlot) (t fail : Nat) : CanAlike s (s.canTried n w t fail) := canAlike_advanceTo s t

theorem canTried_word (t fail : Nat) {a : Nat} (ha : ¬ Book a) : (s.canTried n w t fail).word a = s.word a := State.advanceTo_word s t ha

theorem canTried_canC (t fail : Nat) : (s.canTried n w t fail).canC n = { s.canC n with slot := some (w.tried (s.canSends n w) fail) } := by
  rw [State.canTried, State.canC_modCan_same, State.canC, State.advanceTo_can]
  rfl

theorem canTried_out (t fail : Nat) : (s.canTried n w t fail).out = s.out := State.advanceTo_out s t

theorem canTried_now (fail : Nat) {t : Nat} (ht : t < 2 ^ 64) : (s.canTried n w t fail).now = s.reached t := now_advanceTo s t ht

theorem canTried_off (hn : n < 4) (t fail : Nat) : (s.canTried n w t fail).canOff n = s.canOff n :=
  congrArg (· == 2) (State.get_congr (f := F.CAN_STAT_ESTATE n) (canTried_word t fail (not_book_stat hn)))

variable {t0 dur : Nat} (hslot : (s.canC n).slot = some w) (hsof : w.sof = some t0)
include hslot hsof

theorem canAttempt_sent : s.canAttempt n dur .sent = (s.canTried n w (t0 + dur) w.fail).canSent n (w.tried (s.canSends n w) w.fail) t0 := by
  rw [State.canAttempt, hslot]
  obtain ⟨buf, winEnd, tries, sof, copy, fail, late, refRow⟩ := w
  subst hsof
  dsimp only
  rw [if_neg (by decide)]
  rfl

theorem canAttempt_noAck : s.canAttempt n dur .noAck
    = ((s.canTried n w (t0 + dur) 1).canAckErr n).canFailed n (w.tried (s.canSends n w) 1) (t0 + dur) := by
  rw [State.canAttempt, hslot]
  obtain ⟨buf, winEnd, tries, sof, copy, fail, late, refRow⟩ := w
  subst hsof
  dsimp only
  rw [if_neg (by decide)]
  rfl

theorem canAttempt_lostArb : s.canAttempt n dur .lostArb
    = (s.canTried n w (t0 + dur) 2).canFailed n (w.tried (s.canSends n w) 2) (t0 + dur) := by
  rw [State.canAttempt, hslot]
  obtain ⟨buf, winEnd, tries, sof, copy, fail, late, refRow⟩ := w
  subst hsof
  dsimp only
  rw [if_neg (by decide)]
  rfl

theorem canAttempt_error : s.canAttempt n dur .error
    = (((s.canTried n w (t0 + dur) 3).bump (F.CAN_CNT_BUSERR n)).canTecUp n).canFailed n (w.tried (s.canSends n w) 3) (t0 + dur) := by
  rw [State.canAttempt, hslot]
  obtain ⟨buf, winEnd, tries, sof, copy, fail, late, refRow⟩ := w
  subst hsof
  dsimp only
  rw [if_neg (by decide)]
  rfl

end

theorem canAttempt_notStarted {s : State} {n dur : Nat} {w : CanSlot} (hslot : (s.canC n).slot = some w) (hsof : w.sof = none) :
    s.canAttempt n dur .notStarted = (s.advanceTo (w.winEnd - s.canFt n w.buf)).canSlotEnd n (failCode w.fail) true := by
  rw [State.canAttempt, hslot]
  dsimp only
  rw [hsof]
  rfl

/-- CAN_ATTEMPT_END of a controller that runs. -/
theorem exec_canAttemptEnd {s : State} {c : Fin 4} (hon : s.canOn c.val = true) (dur : Nat) :
    exec (.canAttemptEnd c dur 0) s = s.ends (s.canAttempt c.val dur .sent) ∧ exec (.canAttemptEnd c dur 1) s = s.ends (s.canAttempt c.val dur .noAck)
    ∧ exec (.canAttemptEnd c dur 2) s = s.ends (s.canAttempt c.val dur .lostArb) ∧ exec (.canAttemptEnd c dur 3) s = s.ends (s.canAttempt c.val dur .error)
    ∧ exec (.canAttemptEnd c dur 4) s = s.ends (s.canAttempt c.val dur .notStarted) := by
  have h (how : Fin 5) : exec (.canAttemptEnd c dur how) s = execCanAttemptEnd c dur how s := rfl
  refine ⟨?_, ?_, ?_, ?_, ?_⟩ <;> rw [h, execCanAttemptEnd, if_pos hon] <;> rfl

/-! An acknowledge error (R279). -/

/-- What an acknowledge error below bus-off leaves. -/
structure AckErred (n : Nat) (s t : State) : Prop where
  still : CanStill s t
  slot : (t.canC n).slot = (s.canC n).slot
  off : t.canOff n = false
  ackerr : t.get (F.CAN_CNT_ACKERR n) = min 255 (s.get (F.CAN_CNT_ACKERR n) + 1)
  rises : s.get (F.CAN_STAT_ESTATE n) ≠ 1 → t.get (F.CAN_STAT_TEC n) = s.get (F.CAN_STAT_TEC n) + 8
  stays : s.get (F.CAN_STAT_ESTATE n) = 1 → t.get (F.CAN_STAT_TEC n) = s.get (F.CAN_STAT_TEC n)
  lonely : (s.canC n).ackRun = 15 → t.flag (F.CAN_STAT_LONELY n) = true

/-- The acknowledge errors in a row: the 16th sets LONELY. -/
def State.canLonely (s : State) (n : Nat) : State :=
  let t := s.modCan n fun x => { x with ackRun := x.ackRun + 1 }
  if (t.canC n).ackRun = 16 && !t.flag (F.CAN_STAT_LONELY n) then
    (t.setFlag (F.CAN_STAT_LONELY n) true).event (256 + n) ((t.setFlag (F.CAN_STAT_LONELY n) true).word (R.CAN_STAT n)) .crumb
  else t

theorem canAckErr_eq (s : State) (n : Nat) : s.canAckErr n
    = (if (s.bump (F.CAN_CNT_ACKERR n)).get (F.CAN_STAT_ESTATE n) = 1 then s.bump (F.CAN_CNT_ACKERR n) else (s.bump (F.CAN_CNT_ACKERR n)).canTecUp n).canLonely n := rfl

section
variable {n : Nat} (hn : n < 4) (s : State)
include hn

theorem canLonely_spec : CanStill s (s.canLonely n) ∧ ((s.canLonely n).canC n).slot = (s.canC n).slot
    ∧ (∀ a, ¬ Book a → a ≠ R.CAN_STAT n → (s.canLonely n).word a = s.word a)
    ∧ (∀ f : Fld, f.addr = R.CAN_STAT n → f.Apart (F.CAN_STAT_LONELY n) → (s.canLonely n).get f = s.get f)
    ∧ ((s.canC n).ackRun = 15 → (s.canLonely n).flag (F.CAN_STAT_LONELY n) = true) := by
  have hslot (t : State) (ht : t.can = (s.modCan n fun x => { x with ackRun := x.ackRun + 1 }).can) : (t.canC n).slot = (s.canC n).slot := by
    rw [State.canC, ht]
    change ((s.modCan n _).canC n).slot = _
    rw [State.canC_modCan_same]
  have hstat := not_book_stat hn
  rw [State.canLonely]
  rw [State.canC_modCan_same]
  split
  · refine ⟨?_, hslot _ (by rw [State.event_can]; rfl), fun a hb ha => ?_, fun f hf hap => ?_, fun _ => ?_⟩
    · exact ((canStill_modCan s n _).trans (canStill_setFlag _ true (not_setup_stat n))).trans (kept_event _ _ _ _).canStill
    · rw [State.event_word _ _ _ _ hb, State.word_setFlag_ne _ _ _ ha, State.modCan_word]
    · rw [State.event_get _ _ _ _ (hf ▸ hstat), get_setFlag_of_apart hap, State.modCan_get]
    · rw [State.event_flag _ _ _ _ hstat, State.flag_setFlag _ _ _ (show 2 + 1 ≤ 32 by decide) rfl]
  · next hno =>
    refine ⟨canStill_modCan s n _, hslot _ rfl, fun _ _ _ => rfl, fun _ _ _ => rfl, fun hrun => ?_⟩
    rw [hrun] at hno
    simpa using hno

theorem ackErred_canAckErr (htec : s.get (F.CAN_STAT_TEC n) < 248) (hoff : s.canOff n = false) : AckErred n s (s.canAckErr n) := by
  have hest : (s.bump (F.CAN_CNT_ACKERR n)).get (F.CAN_STAT_ESTATE n) = s.get (F.CAN_STAT_ESTATE n) := State.get_set_addr _ _ _ _ (stat_ne_cnt n)
  have htec' : (s.bump (F.CAN_CNT_ACKERR n)).get (F.CAN_STAT_TEC n) = s.get (F.CAN_STAT_TEC n) := State.get_set_addr _ _ _ _ (stat_ne_cnt n)
  have hoff' : (s.bump (F.CAN_CNT_ACKERR n)).canOff n = false := (congrArg (· == 2) hest).trans hoff
  have hack : (s.bump (F.CAN_CNT_ACKERR n)).get (F.CAN_CNT_ACKERR n) = min 255 (s.get (F.CAN_CNT_ACKERR n) + 1) := State.get_bump s _ (show 0 + 8 ≤ 32 by decide)
  have hbump : CanStill s (s.bump (F.CAN_CNT_ACKERR n)) := canStill_bump s (not_setup_cnt n)
  have hcnt : F.CAN_CNT_ACKERR n = ⟨R.CAN_CNT n, 0, 8⟩ := rfl
  rw [canAckErr_eq, hest]
  split
  · next h1 =>
    obtain ⟨hstill, hslot, hword, hget, hlonely⟩ := canLonely_spec hn (s.bump (F.CAN_CNT_ACKERR n))
    refine ⟨hbump.trans hstill, hslot, ?_, ?_, fun h => absurd h1 h, fun _ => ?_, hlonely⟩
    · rw [State.canOff, hget (F.CAN_STAT_ESTATE n) rfl (apart_above (show 0 + 2 ≤ 2 by decide))]
      exact hoff'
    · exact (State.get_congr (f := F.CAN_CNT_ACKERR n) (hword _ (not_book_cnt hn) (stat_ne_cnt n).symm)).trans hack
    · rw [hget (F.CAN_STAT_TEC n) rfl (apart_below (show 2 + 1 ≤ 16 by decide)), htec']
  · next h1 =>
    obtain ⟨hup, hcan, hsame, hupoff, huptec, -⟩ := canTecUp_spec (n := n) (s.bump (F.CAN_CNT_ACKERR n)) (htec' ▸ htec) hoff'
    obtain ⟨hstill, hslot, hword, hget, hlonely⟩ := canLonely_spec hn ((s.bump (F.CAN_CNT_ACKERR n)).canTecUp n)
    have hcanC : ((s.bump (F.CAN_CNT_ACKERR n)).canTecUp n).canC n = s.canC n := congrArg (fun l => l.getD n .init) hcan
    refine ⟨(hbump.trans hup).trans hstill, hslot.trans (congrArg Can.slot hcanC), ?_, ?_, fun _ => ?_, fun h => absurd h h1, ?_⟩
    · rw [State.canOff, hget (F.CAN_STAT_ESTATE n) rfl (apart_above (show 0 + 2 ≤ 2 by decide))]
      exact hupoff
    · refine (State.get_congr (f := F.CAN_CNT_ACKERR n) (hword _ (not_book_cnt hn) (stat_ne_cnt n).symm)).trans ?_
      exact (State.get_congr (f := F.CAN_CNT_ACKERR n) (hsame _ (stat_ne_cnt n).symm)).trans hack
    · rw [hget (F.CAN_STAT_TEC n) rfl (apart_below (show 2 + 1 ≤ 16 by decide)), huptec, htec']
    · rw [hcanC] at hlonely
      exact hlonely

end

/-- A slot has ended. -/
def SlotGone (n b code : Nat) (window : Bool) (t : State) : Prop :=
  (t.canC n).slot = none ∧ t.get (F.CAN_BST_CODE n b) = code ∧ t.flag (F.CAN_BST_ENDBY n b) = window

theorem SlotEnded.gone {n b code : Nat} {window : Bool} {s t : State} (h : SlotEnded n b code window s t) : SlotGone n b code window t :=
  ⟨h.slot, h.code, h.endby⟩

/-- What an attempt without success leaves of its slot. -/
def SlotRetried (s : State) (n : Nat) (w : CanSlot) (dur code : Nat) (t : State) : Prop :=
  if s.get (F.CAN_SCH_RETRY_MAX n) < w.tries + 1 then SlotGone n w.buf code false t
  else if w.winEnd < w.sof.getD 0 + dur + s.canFt n w.buf then SlotGone n w.buf code true t
  else (t.canC n).slot.map (fun y => (y.buf, y.tries)) = some (w.buf, w.tries + 1)

theorem SlotFailed.retried {n t0 dur fail : Nat} {s u v : State} {w : CanSlot} {d : List Byte} (hn : n < 4) (hsof : w.sof = some t0) (ha : CanAlike s u)
    (h : SlotFailed n (w.tried d fail) (t0 + dur) u v) : SlotRetried s n w dur (failCode fail) v := by
  rw [SlotFailed, ha.get (f := F.CAN_SCH_RETRY_MAX n) (setup_sch hn)] at h
  rw [SlotRetried, hsof]
  by_cases hretry : s.get (F.CAN_SCH_RETRY_MAX n) < w.tries + 1
  · rw [if_pos (show s.get (F.CAN_SCH_RETRY_MAX n) < (w.tried d fail).tries from hretry)] at h
    rw [if_pos hretry]
    exact h.gone
  · rw [if_neg (show ¬ s.get (F.CAN_SCH_RETRY_MAX n) < (w.tried d fail).tries from hretry)] at h
    rw [if_neg hretry]
    have hft : u.canFt n (w.tried d fail).buf = s.canFt n w.buf := ha.canFt hn _
    rw [hft] at h
    by_cases hwin : w.winEnd < t0 + dur + s.canFt n w.buf
    · rw [if_pos (show (w.tried d fail).winEnd < t0 + dur + s.canFt n w.buf from hwin)] at h
      exact (if_pos hwin).mpr h.gone
    · rw [if_neg (show ¬ (w.tried d fail).winEnd < t0 + dur + s.canFt n w.buf from hwin)] at h
      exact (if_neg hwin).mpr h.1

section
variable {s : State} {c : Fin 4} {dur t0 : Nat} {w : CanSlot} (hon : s.canOn c.val = true) (hslot : (s.canC c.val).slot = some w) (hsof : w.sof = some t0)
  (hlate : w.late = false)
include hon hslot hsof hlate

section
variable (hoff : s.canOff c.val = false)

section
include hoff

/-- An attempt without acknowledge. -/
theorem attempt_noAck (hdue : t0 + dur < 2 ^ 64) (htec : s.get (F.CAN_STAT_TEC c.val) < 248) : Completes (.canAttemptEnd c dur 1) s fun t =>
    t.now = s.reached (t0 + dur) ∧ SlotRetried s c.val w dur 7 t ∧ t.get (F.CAN_CNT_ACKERR c.val) = min 255 (s.get (F.CAN_CNT_ACKERR c.val) + 1)
      ∧ (s.get (F.CAN_STAT_ESTATE c.val) ≠ 1 → t.get (F.CAN_STAT_TEC c.val) = s.get (F.CAN_STAT_TEC c.val) + 8)
      ∧ (s.get (F.CAN_STAT_ESTATE c.val) = 1 → t.get (F.CAN_STAT_TEC c.val) = s.get (F.CAN_STAT_TEC c.val))
      ∧ ((s.canC c.val).ackRun = 15 → t.flag (F.CAN_STAT_LONELY c.val) = true) := by
  have hn := c.isLt
  obtain ⟨-, hexec, -⟩ := exec_canAttemptEnd hon dur
  rw [canAttempt_noAck hslot hsof] at hexec
  have hstat (f : Fld) (hf : f.addr = R.CAN_STAT c.val) : (s.canTried c.val w (t0 + dur) 1).get f = s.get f :=
    State.get_congr (canTried_word _ _ (hf ▸ not_book_stat hn))
  have hcnt : (s.canTried c.val w (t0 + dur) 1).get (F.CAN_CNT_ACKERR c.val) = s.get (F.CAN_CNT_ACKERR c.val) :=
    State.get_congr (canTried_word _ _ (not_book_cnt hn))
  have herr := ackErred_canAckErr hn (s.canTried c.val w (t0 + dur) 1) (by rw [hstat _ rfl]; exact htec) ((canTried_off hn _ _).trans hoff)
  have hsl : (((s.canTried c.val w (t0 + dur) 1).canAckErr c.val).canC c.val).slot = some (w.tried (s.canSends c.val w) 1) := by
    rw [herr.slot, canTried_canC]
  have hfail := slotFailed_canFailed (t := t0 + dur) hsl hlate herr.off
  have halike := (canAlike_canTried s c.val w (t0 + dur) 1).trans herr.still.alike
  have hback {f : Fld} (hf : f.addr ≠ R.CAN_BST c.val w.buf) := State.get_congr (f := f) (hfail.word hf)
  refine .of_ends hexec (fun _ _ h => h) ⟨?_, hfail.retried hn hsof halike, ?_, fun h => ?_, fun h => ?_, fun h => ?_⟩
  · exact hfail.now.trans (herr.still.now.trans (canTried_now 1 hdue))
  · exact (hback (f := F.CAN_CNT_ACKERR c.val) (bst_ne_cnt _ _)).trans (herr.ackerr.trans (by rw [hcnt]))
  · refine (hback (f := F.CAN_STAT_TEC c.val) (bst_ne_stat _ _)).trans ((herr.rises ?_).trans (by rw [hstat _ rfl]))
    rwa [hstat _ rfl]
  · refine (hback (f := F.CAN_STAT_TEC c.val) (bst_ne_stat _ _)).trans ((herr.stays ?_).trans (by rw [hstat _ rfl]))
    rwa [hstat _ rfl]
  · refine (congrArg (· != 0) (hback (f := F.CAN_STAT_LONELY c.val) (bst_ne_stat _ _))).trans (herr.lonely ?_)
    rw [canTried_canC]
    exact h

/-- An attempt that lost arbitration. -/
theorem attempt_lostArb : Completes (.canAttemptEnd c dur 2) s fun t =>
    SlotRetried s c.val w dur 5 t ∧ t.get (F.CAN_STAT_TEC c.val) = s.get (F.CAN_STAT_TEC c.val) := by
  have hn := c.isLt
  obtain ⟨-, -, hexec, -⟩ := exec_canAttemptEnd hon dur
  rw [canAttempt_lostArb hslot hsof] at hexec
  have hsl : ((s.canTried c.val w (t0 + dur) 2).canC c.val).slot = some (w.tried (s.canSends c.val w) 2) := by rw [canTried_canC]
  have hfail := slotFailed_canFailed (t := t0 + dur) hsl hlate ((canTried_off hn _ _).trans hoff)
  refine .of_ends hexec (fun _ _ h => h) ⟨hfail.retried hn hsof (canAlike_canTried s c.val w (t0 + dur) 2), ?_⟩
  refine (State.get_congr (f := F.CAN_STAT_TEC c.val) (hfail.word (bst_ne_stat _ _))).trans ?_
  exact State.get_congr (f := F.CAN_STAT_TEC c.val) (canTried_word _ _ (not_book_stat hn))

/-- An attempt that met another bus error. -/
theorem attempt_error (htec : s.get (F.CAN_STAT_TEC c.val) < 248) : Completes (.canAttemptEnd c dur 3) s fun t =>
    SlotRetried s c.val w dur 6 t ∧ t.get (F.CAN_STAT_TEC c.val) = s.get (F.CAN_STAT_TEC c.val) + 8
      ∧ t.get (F.CAN_CNT_BUSERR c.val) = min 255 (s.get (F.CAN_CNT_BUSERR c.val) + 1) := by
  have hn := c.isLt
  obtain ⟨-, -, -, hexec, -⟩ := exec_canAttemptEnd hon dur
  rw [canAttempt_error hslot hsof] at hexec
  have hstat (f : Fld) (hf : f.addr = R.CAN_STAT c.val) : ((s.canTried c.val w (t0 + dur) 3).bump (F.CAN_CNT_BUSERR c.val)).get f = s.get f :=
    (State.get_set_addr _ f (F.CAN_CNT_BUSERR c.val) _ (hf ▸ stat_ne_cnt _)).trans (State.get_congr (canTried_word _ _ (hf ▸ not_book_stat hn)))
  have hcnt : ((s.canTried c.val w (t0 + dur) 3).bump (F.CAN_CNT_BUSERR c.val)).get (F.CAN_CNT_BUSERR c.val) = min 255 (s.get (F.CAN_CNT_BUSERR c.val) + 1) :=
    (State.get_bump _ (F.CAN_CNT_BUSERR c.val) (show 8 + 8 ≤ 32 by decide)).trans
      (by rw [State.get_congr (f := F.CAN_CNT_BUSERR c.val) (canTried_word (s := s) (w := w) (t0 + dur) 3 (not_book_cnt hn))]; rfl)
  obtain ⟨hup, hcan, hsame, hupoff, huptec, -⟩ := canTecUp_spec (n := c.val) ((s.canTried c.val w (t0 + dur) 3).bump (F.CAN_CNT_BUSERR c.val))
    (by rw [hstat _ rfl]; exact htec) ((congrArg (· == 2) (hstat (F.CAN_STAT_ESTATE c.val) rfl)).trans hoff)
  have hsl : ((((s.canTried c.val w (t0 + dur) 3).bump (F.CAN_CNT_BUSERR c.val)).canTecUp c.val).canC c.val).slot = some (w.tried (s.canSends c.val w) 3) := by
    rw [State.canC, hcan]
    exact congrArg Can.slot (canTried_canC (t0 + dur) 3)
  have hfail := slotFailed_canFailed (t := t0 + dur) hsl hlate hupoff
  have halike := ((canAlike_canTried s c.val w (t0 + dur) 3).bump (f := F.CAN_CNT_BUSERR c.val) (not_setup_cnt _)).trans hup.alike
  refine .of_ends hexec (fun _ _ h => h) ⟨hfail.retried hn hsof halike, ?_, ?_⟩
  · exact (State.get_congr (f := F.CAN_STAT_TEC c.val) (hfail.word (bst_ne_stat _ _))).trans (huptec.trans (by rw [hstat _ rfl]))
  · refine (State.get_congr (f := F.CAN_CNT_BUSERR c.val) (hfail.word (bst_ne_cnt _ _))).trans ?_
    exact (State.get_congr (f := F.CAN_CNT_BUSERR c.val) (hsame _ (stat_ne_cnt _).symm)).trans hcnt

end

/-- The error at which the controller goes bus-off. -/
theorem attempt_busOff (htec : 248 ≤ s.get (F.CAN_STAT_TEC c.val)) : Completes (.canAttemptEnd c dur 3) s fun t =>
    SlotGone c.val w.buf 9 true t ∧ t.canOff c.val = true ∧ t.get (F.CAN_CNT_BUSOFF c.val) = min 255 (s.get (F.CAN_CNT_BUSOFF c.val) + 1)
      ∧ t.get (F.IC_CNT_COUNT (260 + c.val)) = min 255 (s.get (F.IC_CNT_COUNT (260 + c.val)) + 1) := by
  have hn := c.isLt
  obtain ⟨-, -, -, hexec, -⟩ := exec_canAttemptEnd hon dur
  rw [canAttempt_error hslot hsof] at hexec
  have hback (f : Fld) (hf : f.addr ≠ R.CAN_CNT c.val) (hcame : (s.advanceTo (t0 + dur)).get f = s.get f) :
      ((s.canTried c.val w (t0 + dur) 3).bump (F.CAN_CNT_BUSERR c.val)).get f = s.get f :=
    (State.get_set_addr _ f (F.CAN_CNT_BUSERR c.val) _ hf).trans hcame
  have hbusoff : ((s.canTried c.val w (t0 + dur) 3).bump (F.CAN_CNT_BUSERR c.val)).get (F.CAN_CNT_BUSOFF c.val) = s.get (F.CAN_CNT_BUSOFF c.val) :=
    (get_bump_of_apart (f := F.CAN_CNT_BUSOFF c.val) (g := F.CAN_CNT_BUSERR c.val) (apart_below (show 8 + 8 ≤ 24 by decide)) _).trans
      (State.advanceTo_get s _ (not_book_cnt hn))
  obtain ⟨hslot', hisoff, hcount, hcame⟩ := canTecUp_busOff hn ((s.canTried c.val w (t0 + dur) 3).bump (F.CAN_CNT_BUSERR c.val))
    (by rw [hback _ (stat_ne_cnt _) (State.advanceTo_get s _ (not_book_stat hn))]; exact htec)
  have hsl : ((((s.canTried c.val w (t0 + dur) 3).bump (F.CAN_CNT_BUSERR c.val)).canTecUp c.val).canC c.val).slot = some (w.tried (s.canSends c.val w) 3) := by
    rw [hslot']
    exact congrArg Can.slot (canTried_canC (t0 + dur) 3)
  have hend := slotEnded_canSlotEnd hsl (show 9 < 16 by decide) true
  have hfailed (u : State) (hu : u.canOff c.val = true) : u.canFailed c.val (w.tried (s.canSends c.val w) 3) (t0 + dur) = u.canSlotEnd c.val 9 true := by
    rw [State.canFailed, if_neg (show ¬ (w.tried (s.canSends c.val w) 3).late = true by simp [CanSlot.tried, hlate]), if_pos hu]
  rw [hfailed _ hisoff] at hexec
  refine .of_ends hexec (fun _ _ h => h) ⟨hend.gone, ?_, ?_, ?_⟩
  · exact (congrArg (· == 2) (State.get_congr (f := F.CAN_STAT_ESTATE c.val) (hend.word _ (bst_ne_stat _ _)))).trans hisoff
  · exact (State.get_congr (f := F.CAN_CNT_BUSOFF c.val) (hend.word _ (bst_ne_cnt _ _))).trans (hcount.trans (by rw [hbusoff]))
  · refine (State.get_congr (f := F.IC_CNT_COUNT (260 + c.val)) (hend.word _ ?_)).trans (hcame.trans ?_)
    · simp only [F.IC_CNT_COUNT, R.IC_CNT, R.CAN_BST]; omega
    · rw [hback _ (by simp only [F.IC_CNT_COUNT, R.IC_CNT, R.CAN_CNT]; omega)]
      exact cameAsBefore_advanceTo (by omega) (by omega) s _

end

end

theorem stampOf_low (t : Nat) : (stampOf t).truncate 32 = BitVec.ofNat 32 t := by
  apply BitVec.eq_of_toNat_eq
  simp [stampOf]

/-! A frame was sent (R270, R276). -/

/-- What a sent frame shows: its stamp, the counters, and its slot's end. -/
def State.canMarked (s : State) (n : Nat) (w : CanSlot) (t0 : Nat) : State :=
  let t := (s.setWord (R.CAN_BSTAMPL n w.buf) ((stampOf t0).truncate 32)).setWord (R.CAN_BSTAMPH n w.buf) ((stampOf t0 >>> 32).truncate 32)
  let t := ((t.set (F.CAN_STAT_TEC n) (t.get (F.CAN_STAT_TEC n) - 1)).setFlag (F.CAN_STAT_LONELY n) false).canState n
  (t.modCan n fun x => { x with ackRun := 0 }).canSlotEnd n (if w.late then 3 else 2) false

/-- The identifier on the bus of what a buffer sends. -/
def State.canSentId (s : State) (n b : Nat) : Nat :=
  if s.flag (F.CAN_BCFG_IDE n b) || s.canN2k n then s.get (F.CAN_BID_ID n b) else s.get (F.CAN_BID_ID n b) % 2048

theorem canSent_bus {s : State} {n : Nat} (h : s.canMode n ≠ 2) (w : CanSlot) (t0 : Nat) : s.canSent n w t0
    = ((s.canEmit n (s.canSentId n w.buf) (s.flag (F.CAN_BCFG_IDE n w.buf) || s.canN2k n) (s.canFd n w.buf) (s.flag (F.CAN_BCFG_BRS n w.buf))
        (w.copy.getD [])).pmu (88 + n)).canMarked n w t0 := by
  have hloop : (s.canMode n == 2) = false := by simpa using h
  rw [State.canSent, hloop]
  rfl

theorem canSent_loop {s : State} {n : Nat} (h : s.canMode n = 2) (w : CanSlot) (t0 : Nat) : s.canSent n w t0
    = ((s.pmu (88 + n)).canMarked n w t0).canStore n (s.canSentId n w.buf) (s.flag (F.CAN_BCFG_IDE n w.buf) || s.canN2k n) (w.copy.getD []) none (stampOf t0) := by
  have hloop : (s.canMode n == 2) = true := by simpa using h
  rw [State.canSent, hloop]
  rfl

/-- What a sent frame leaves. -/
structure SentMarked (n b t0 : Nat) (s t : State) : Prop where
  gone : SlotGone n b 2 false t
  still : CanStill s t
  tec : t.get (F.CAN_STAT_TEC n) = s.get (F.CAN_STAT_TEC n) - 1
  lonely : t.flag (F.CAN_STAT_LONELY n) = false
  stamp : t.word (R.CAN_BSTAMPL n b) = BitVec.ofNat 32 t0
  unread : (t.canC n).unread = (s.canC n).unread

theorem sentMarked_canMarked {s : State} {n t0 : Nat} {w : CanSlot} (hslot : (s.canC n).slot = some w) (hlate : w.late = false) :
    SentMarked n w.buf t0 s (s.canMarked n w t0) := by
  have hstat (t : State) (v v' : Word) (f : Fld) (hf : f.addr = R.CAN_STAT n) :
      ((t.setWord (R.CAN_BSTAMPL n w.buf) v).setWord (R.CAN_BSTAMPH n w.buf) v').get f = t.get f :=
    (get_setWord_of_ne (by rw [hf]; simp only [R.CAN_STAT, R.CAN_BSTAMPH]; omega) _ _).trans
      (get_setWord_of_ne (by rw [hf]; simp only [R.CAN_STAT, R.CAN_BSTAMPL]; omega) _ _)
  have hlow (v v' : Word) : ((s.setWord (R.CAN_BSTAMPL n w.buf) v).setWord (R.CAN_BSTAMPH n w.buf) v').word (R.CAN_BSTAMPL n w.buf) = v := by
    rw [State.word_setWord_ne _ (by simp only [R.CAN_BSTAMPL, R.CAN_BSTAMPH]; omega), State.word_setWord_same]
  rw [State.canMarked, hlate]
  generalize hp : (s.setWord (R.CAN_BSTAMPL n w.buf) ((stampOf t0).truncate 32)).setWord (R.CAN_BSTAMPH n w.buf) ((stampOf t0 >>> 32).truncate 32) = p
  have hpstill : CanStill s p := hp ▸ (canStill_setWord s _ (not_setup_bstampl n w.buf)).trans (canStill_setWord _ _ (not_setup_bstamph n w.buf))
  have hpcan : p.can = s.can := hp ▸ rfl
  have hptec : p.get (F.CAN_STAT_TEC n) = s.get (F.CAN_STAT_TEC n) := hp ▸ hstat s _ _ _ rfl
  have hplow : p.word (R.CAN_BSTAMPL n w.buf) = BitVec.ofNat 32 t0 := hp ▸ (hlow _ _).trans (stampOf_low t0)
  generalize hq : (p.set (F.CAN_STAT_TEC n) (p.get (F.CAN_STAT_TEC n) - 1)).setFlag (F.CAN_STAT_LONELY n) false = q
  have hqstill : CanStill p q := hq ▸ (canStill_set p _ (not_setup_stat n)).trans (canStill_setFlag _ false (not_setup_stat n))
  have hqcan : q.can = p.can := hq ▸ rfl
  have hqtec : q.get (F.CAN_STAT_TEC n) = p.get (F.CAN_STAT_TEC n) - 1 := by
    rw [← hq, get_setFlag_of_apart (apart_below (show 2 + 1 ≤ 16 by decide)), State.get_set _ _ _ (show 16 + 8 ≤ 32 by decide)]
    have := get_lt p (F.CAN_STAT_TEC n)
    exact Nat.mod_eq_of_lt (lt_of_le_of_lt (Nat.sub_le _ _) this)
  have hqlonely : q.flag (F.CAN_STAT_LONELY n) = false := by rw [← hq, State.flag_setFlag _ _ _ (show 2 + 1 ≤ 32 by decide) rfl]
  have hqword {a : Nat} (ha : a ≠ R.CAN_STAT n) : q.word a = p.word a := by rw [← hq, State.word_setFlag_ne _ _ _ ha, State.word_set_ne _ _ _ ha]
  have hcanC : ((q.canState n).modCan n fun x => { x with ackRun := 0 }).canC n = { s.canC n with ackRun := 0 } := by
    rw [State.canC_modCan_same, State.canC, canState_can, hqcan, hpcan]
    rfl
  have hend := slotEnded_canSlotEnd (s := (q.canState n).modCan n fun x => { x with ackRun := 0 }) (w := w) (n := n) (by rw [hcanC]; exact hslot)
    (code := 2) (by decide) false
  refine ⟨hend.gone, ?_, ?_, ?_, ?_, hend.unread.trans (by rw [hcanC])⟩
  · exact (((hpstill.trans hqstill).trans (canStill_canState q)).trans (canStill_modCan _ n _)).trans hend.still
  · refine (State.get_congr (f := F.CAN_STAT_TEC n) (hend.word _ (bst_ne_stat _ _))).trans ?_
    rw [State.modCan_get, canState_get _ (show 2 ≤ 16 by decide), hqtec, hptec]
  · refine (congrArg (· != 0) (State.get_congr (f := F.CAN_STAT_LONELY n) (hend.word _ (bst_ne_stat _ _)))).trans ?_
    exact (canState_flag q (f := F.CAN_STAT_LONELY n) (show 2 ≤ 2 by decide)).trans hqlonely
  · have hne : R.CAN_BSTAMPL n w.buf ≠ R.CAN_STAT n := by simp only [R.CAN_BSTAMPL, R.CAN_STAT]; omega
    refine (hend.word _ (by simp only [R.CAN_BSTAMPL, R.CAN_BST]; omega)).trans ?_
    rw [State.modCan_word, canState_word _ hne, hqword hne, hplow]

/-! A received frame's buffer (R273). -/

/-- What a received frame leaves of the buffer it goes to. -/
structure FrameStored (n b : Nat) (st : Stamp) (s t : State) : Prop where
  code : t.get (F.CAN_BST_CODE n b) = if b ∈ (s.canC n).unread then 11 else 10
  unread : b ∈ (t.canC n).unread
  low : t.word (R.CAN_BSTAMPL n b) = BitVec.ofNat 32 st.toNat
  high : t.word (R.CAN_BSTAMPH n b) = BitVec.ofNat 32 (st.toNat / 2 ^ 32)

/-- The words of a frame's data go to its buffer. -/
def State.canDataWords (s : State) (n b : Nat) (l : List (Word × Nat)) : State := l.foldl (fun t w => t.setWord (R.CAN_BDATA n b w.2) w.1) s

theorem canDataWords_regs : ∀ (l : List (Word × Nat)) (s : State) (n b : Nat), s.canDataWords n b l = { s with regs := (s.canDataWords n b l).regs }
  | [], _, _, _ => rfl
  | e :: l, s, n, b => canDataWords_regs l (s.setWord (R.CAN_BDATA n b e.2) e.1) n b

theorem canDataWords_word (n b : Nat) : ∀ (l : List (Word × Nat)) (s : State) {a : Nat}, (∀ e ∈ l, a ≠ R.CAN_BDATA n b e.2) → (s.canDataWords n b l).word a = s.word a
  | [], _, _, _ => rfl
  | e :: l, s, a, h => (canDataWords_word n b l (s.setWord (R.CAN_BDATA n b e.2) e.1) fun x hx => h x (by simp [hx])).trans (State.word_setWord_ne s (h e (by simp)) _)

theorem bdata_inj {n b i j : Nat} (h : i ≠ j) : R.CAN_BDATA n b i ≠ R.CAN_BDATA n b j := by simp only [R.CAN_BDATA]; omega

/-- The data words hold the frame's words in order. -/
theorem canDataWords_zipIdx (n b i : Nat) : ∀ (l : List Word) (s : State) (k : Nat), k ≤ i → i < k + l.length →
    (s.canDataWords n b (l.zipIdx k)).word (R.CAN_BDATA n b i) = l.getD (i - k) 0
  | [], _, _, _, h => absurd h (by simp; omega)
  | w :: l, s, k, hk, h => by
    rw [List.zipIdx_cons]
    change ((s.setWord (R.CAN_BDATA n b k) w).canDataWords n b (l.zipIdx (k + 1))).word _ = _
    by_cases hki : k = i
    · subst hki
      rw [canDataWords_word, State.word_setWord_same]
      · simp
      · intro e he
        have := List.le_snd_of_mem_zipIdx he
        exact bdata_inj (by omega)
    · rw [canDataWords_zipIdx n b i l _ (k + 1) (by omega) (by simp only [List.length_cons] at h; omega)]
      obtain ⟨j, rfl⟩ : ∃ j, i = k + 1 + j := ⟨i - (k + 1), by omega⟩
      rw [show k + 1 + j - (k + 1) = j by omega, show k + 1 + j - k = j + 1 by omega, List.getD_cons_succ]

theorem canWords_getD : ∀ (m : Nat) (d : List Byte) (i : Nat), i < m → (canWords d m).getD i 0 = BitVec.ofNat 32 (leNat ((d.drop (4 * i)).take 4))
  | m + 1, d, 0, _ => rfl
  | m + 1, d, i + 1, h => by
    rw [canWords, List.getD_cons_succ, canWords_getD m (d.drop 4) i (by omega), List.drop_drop]
    congr 4
    omega

theorem length_canWords : ∀ (m : Nat) (d : List Byte), (canWords d m).length = m
  | 0, _ => rfl
  | m + 1, d => by rw [canWords, List.length_cons, length_canWords m]

/-- The registers of a buffer that a received frame writes. -/
def CanBufReg (n b a : Nat) : Prop := a = R.CAN_BST n b ∨ a = R.CAN_BSTAMPL n b ∨ a = R.CAN_BSTAMPH n b ∨ a = R.CAN_BCFG n b ∨ ∃ i < 16, a = R.CAN_BDATA n b i

/-- The frame's DLC, stamp and status. -/
def State.canStamped (s : State) (n b dlc : Nat) (lost : Bool) (st : Stamp) : State :=
  ((((s.set (F.CAN_BCFG_DLC n b) dlc).setWord (R.CAN_BSTAMPL n b) (st.truncate 32)).setWord (R.CAN_BSTAMPH n b) ((st >>> 32).truncate 32)).set
    (F.CAN_BST_CODE n b) (if lost then 11 else 10)).modCan n fun x => { x with unread := b :: x.unread.filter (· != b) }

section
variable {s : State} {n : Nat} {ident : Nat} {ide : Bool}

theorem canStore_none (h : ((List.range 64).find? fun b => s.canMatch n b ident ide) = none) (d : List Byte) (remote : Option Nat) (st : Stamp) :
    s.canStore n ident ide d remote st = s.bump (F.CAN_CNT_NOMATCH n) := by
  rw [State.canStore, h]

theorem canStore_data {b : Nat} (h : ((List.range 64).find? fun b => s.canMatch n b ident ide) = some b) (d : List Byte) (st : Stamp) :
    s.canStore n ident ide d none st = (s.canDataWords n b (canWords d ((d.length + 3) / 4)).zipIdx).canStamped n b (lenDlc d.length)
      ((s.canC n).unread.contains b) st := by
  rw [State.canStore, h]
  rfl

theorem canStore_remote {b : Nat} (h : ((List.range 64).find? fun b => s.canMatch n b ident ide) = some b) (d : List Byte) (dlc : Nat) (st : Stamp) :
    s.canStore n ident ide d (some dlc) st = s.canStamped n b dlc ((s.canC n).unread.contains b) st := by
  rw [State.canStore, h]
  rfl

theorem canStamped_word {a b : Nat} (ha : ¬ CanBufReg n b a ∨ ∃ i, a = R.CAN_BDATA n b i) (dlc : Nat) (lost : Bool) (st : Stamp) :
    (s.canStamped n b dlc lost st).word a = s.word a := by
  have hne : a ≠ R.CAN_BST n b ∧ a ≠ R.CAN_BSTAMPL n b ∧ a ≠ R.CAN_BSTAMPH n b ∧ a ≠ R.CAN_BCFG n b := by
    rcases ha with ha | ⟨i, rfl⟩
    · simp only [CanBufReg, not_or] at ha
      exact ⟨ha.1, ha.2.1, ha.2.2.1, ha.2.2.2.1⟩
    · simp only [R.CAN_BDATA, R.CAN_BST, R.CAN_BSTAMPL, R.CAN_BSTAMPH, R.CAN_BCFG]
      omega
  obtain ⟨h1, h2, h3, h4⟩ := hne
  rw [State.canStamped, State.modCan_word, State.word_set_ne _ _ _ h1, State.word_setWord_ne _ h3, State.word_setWord_ne _ h2, State.word_set_ne _ _ _ h4]

theorem canStamped_canC (b dlc : Nat) (lost : Bool) (st : Stamp) :
    (s.canStamped n b dlc lost st).canC n = { s.canC n with unread := b :: (s.canC n).unread.filter (· != b) } := by
  rw [State.canStamped, State.canC_modCan_same]
  rfl

theorem stamp_high (st : Stamp) : ((st >>> 32).truncate 32 : Word) = BitVec.ofNat 32 (st.toNat / 2 ^ 32) := by
  apply BitVec.eq_of_toNat_eq
  simp [Nat.shiftRight_eq_div_pow]

theorem frameStored_canStamped (b dlc : Nat) (st : Stamp) (u : State) :
    FrameStored n b st u (s.canStamped n b dlc ((u.canC n).unread.contains b) st) := by
  refine ⟨?_, ?_, ?_, ?_⟩
  · rw [State.canStamped, State.modCan_get, State.get_set _ _ _ (show 0 + 4 ≤ 32 by decide)]
    by_cases hb : b ∈ (u.canC n).unread
    · simp [hb, F.CAN_BST_CODE]
    · simp [hb, F.CAN_BST_CODE]
  · rw [canStamped_canC]
    simp
  · rw [State.canStamped, State.modCan_word, State.word_set_ne _ _ _ (by simp only [F.CAN_BST_CODE, R.CAN_BST, R.CAN_BSTAMPL]; omega),
      State.word_setWord_ne _ (by simp only [R.CAN_BSTAMPH, R.CAN_BSTAMPL]; omega), State.word_setWord_same]
    apply BitVec.eq_of_toNat_eq
    simp
  · rw [State.canStamped, State.modCan_word, State.word_set_ne _ _ _ (by simp only [F.CAN_BST_CODE, R.CAN_BST, R.CAN_BSTAMPH]; omega),
      State.word_setWord_same, stamp_high]

/-- The fields of a buffer's configuration beside the DLC stay. -/
theorem canStamped_bcfg (k : Nat) {b : Nat} {f : Fld} (haddr : f.addr = R.CAN_BCFG n b) (hf : f.Apart (F.CAN_BCFG_DLC n k)) (dlc : Nat) (lost : Bool) (st : Stamp) :
    (s.canStamped n k dlc lost st).get f = s.get f := by
  have hne (a : Nat) (ha : a % 0x80 ≠ 0) : f.addr ≠ a := by
    rw [haddr]
    rintro rfl
    simp only [R.CAN_BCFG] at ha
    omega
  rw [State.canStamped, State.modCan_get, State.get_set_addr _ _ (F.CAN_BST_CODE n k) _ (hne _ (by simp only [F.CAN_BST_CODE, R.CAN_BST]; omega)),
    get_setWord_of_ne (hne _ (by simp only [R.CAN_BSTAMPH]; omega)), get_setWord_of_ne (hne _ (by simp only [R.CAN_BSTAMPL]; omega)), get_set_of_apart hf]

theorem canStamped_dlc {b dlc : Nat} (h : dlc < 16) (lost : Bool) (st : Stamp) : (s.canStamped n b dlc lost st).get (F.CAN_BCFG_DLC n b) = dlc := by
  rw [State.canStamped, State.modCan_get, State.get_set_addr _ _ _ _ (by simp only [F.CAN_BST_CODE, F.CAN_BCFG_DLC, R.CAN_BST, R.CAN_BCFG]; omega),
    get_setWord_of_ne (by simp only [F.CAN_BCFG_DLC, R.CAN_BCFG, R.CAN_BSTAMPH]; omega),
    get_setWord_of_ne (by simp only [F.CAN_BCFG_DLC, R.CAN_BCFG, R.CAN_BSTAMPL]; omega), State.get_set _ _ _ (show 6 + 4 ≤ 32 by decide)]
  exact Nat.mod_eq_of_lt h

end

theorem canEmit_out (s : State) (n ident : Nat) (ide fdf brs : Bool) (d : List Byte) :
    ∃ esi, (s.canEmit n ident ide fdf brs d).out = .can n ident ide fdf (fdf && brs) esi d :: s.out := ⟨_, rfl⟩

section
variable {s : State} {c : Fin 4} {dur t0 : Nat} {w : CanSlot} (hon : s.canOn c.val = true) (hslot : (s.canC c.val).slot = some w)
include hon hslot

section
variable (hsof : w.sof = some t0) (hlate : w.late = false)
include hsof hlate

/-- A frame sent on the bus. -/
theorem attempt_sent (hdue : t0 + dur < 2 ^ 64) (hmode : s.canMode c.val ≠ 2) : Completes (.canAttemptEnd c dur 0) s fun t =>
    t.now = s.reached (t0 + dur) ∧ SlotGone c.val w.buf 2 false t ∧ t.get (F.CAN_STAT_TEC c.val) = s.get (F.CAN_STAT_TEC c.val) - 1
      ∧ t.flag (F.CAN_STAT_LONELY c.val) = false ∧ t.word (R.CAN_BSTAMPL c.val w.buf) = BitVec.ofNat 32 t0
      ∧ ∃ esi, t.out = .can c.val (s.canSentId c.val w.buf) (s.flag (F.CAN_BCFG_IDE c.val w.buf) || s.canN2k c.val) (s.canFd c.val w.buf)
          (s.canFd c.val w.buf && s.flag (F.CAN_BCFG_BRS c.val w.buf)) esi (s.canSends c.val w) :: s.out := by
  have hn := c.isLt
  have halike := canAlike_canTried s c.val w (t0 + dur) w.fail
  obtain ⟨hexec, -⟩ := exec_canAttemptEnd hon dur
  rw [canAttempt_sent hslot hsof, canSent_bus (by rw [halike.canMode hn]; exact hmode)] at hexec
  have hid : (s.canTried c.val w (t0 + dur) w.fail).canSentId c.val w.buf = s.canSentId c.val w.buf := by
    simp only [State.canSentId, halike.canN2k hn, halike.flag (f := F.CAN_BCFG_IDE c.val w.buf) (setup_bcfg _ _),
      halike.get (f := F.CAN_BID_ID c.val w.buf) (setup_bid _ _)]
  have hbuf : (w.tried (s.canSends c.val w) w.fail).buf = w.buf := rfl
  rw [hbuf, hid, halike.canN2k hn, halike.canFd hn, halike.flag (f := F.CAN_BCFG_IDE c.val w.buf) (setup_bcfg _ _),
    halike.flag (f := F.CAN_BCFG_BRS c.val w.buf) (setup_bcfg _ _)] at hexec
  generalize hu : State.canEmit (s.canTried c.val w (t0 + dur) w.fail) _ _ _ _ _ _ = u at hexec
  have hkept : Kept u (u.pmu (88 + c.val)) := kept_pmu u _ (by omega)
  have hslot' : ((u.pmu (88 + c.val)).canC c.val).slot = some (w.tried (s.canSends c.val w) w.fail) := by
    rw [State.canC, State.pmu_can, ← hu]
    exact congrArg Can.slot (canTried_canC (t0 + dur) w.fail)
  have hmark := sentMarked_canMarked (t0 := t0) hslot' hlate
  have htec : (u.pmu (88 + c.val)).get (F.CAN_STAT_TEC c.val) = s.get (F.CAN_STAT_TEC c.val) :=
    (hkept.get (f := F.CAN_STAT_TEC c.val) (not_book_stat hn)).trans (hu ▸ State.advanceTo_get s _ (not_book_stat hn))
  refine .of_ends hexec (fun _ _ h => h) ⟨?_, hmark.gone, hmark.tec.trans (by rw [htec]), hmark.lonely, hmark.stamp, ?_⟩
  · exact (hmark.still.now.trans hkept.canStill.now).trans (hu ▸ canTried_now (n := c.val) (w := w) w.fail hdue)
  · obtain ⟨esi, hesi⟩ := canEmit_out (s.canTried c.val w (t0 + dur) w.fail) c.val (s.canSentId c.val w.buf)
      (s.flag (F.CAN_BCFG_IDE c.val w.buf) || s.canN2k c.val) (s.canFd c.val w.buf) (s.flag (F.CAN_BCFG_BRS c.val w.buf))
      ((w.tried (s.canSends c.val w) w.fail).copy.getD [])
    rw [hu, canTried_out] at hesi
    exact ⟨esi, (hmark.still.out.trans hkept.canStill.out).trans hesi⟩

/-- A frame sent to itself in loopback. -/
theorem attempt_loop (hmode : s.canMode c.val = 2) : Completes (.canAttemptEnd c dur 0) s fun t =>
    t.out = s.out ∧ (t.canC c.val).slot = none
      ∧ ∀ k, ((List.range 64).find? fun b => s.canMatch c.val b (s.canSentId c.val w.buf) (s.flag (F.CAN_BCFG_IDE c.val w.buf) || s.canN2k c.val)) = some k →
          10 ≤ t.get (F.CAN_BST_CODE c.val k) ∧ k ∈ (t.canC c.val).unread := by
  have hn := c.isLt
  have halike := canAlike_canTried s c.val w (t0 + dur) w.fail
  obtain ⟨hexec, -⟩ := exec_canAttemptEnd hon dur
  rw [canAttempt_sent hslot hsof, canSent_loop (by rw [halike.canMode hn]; exact hmode)] at hexec
  have hid : (s.canTried c.val w (t0 + dur) w.fail).canSentId c.val w.buf = s.canSentId c.val w.buf := by
    simp only [State.canSentId, halike.canN2k hn, halike.flag (f := F.CAN_BCFG_IDE c.val w.buf) (setup_bcfg _ _),
      halike.get (f := F.CAN_BID_ID c.val w.buf) (setup_bid _ _)]
  have hbuf : (w.tried (s.canSends c.val w) w.fail).buf = w.buf := rfl
  rw [hbuf, hid, halike.canN2k hn, halike.flag (f := F.CAN_BCFG_IDE c.val w.buf) (setup_bcfg _ _)] at hexec
  generalize hu : s.canTried c.val w (t0 + dur) w.fail = u at hexec halike
  have hkept : Kept u (u.pmu (88 + c.val)) := kept_pmu u _ (by omega)
  have hslot' : ((u.pmu (88 + c.val)).canC c.val).slot = some (w.tried (s.canSends c.val w) w.fail) := by
    rw [State.canC, State.pmu_can, ← hu]
    exact congrArg Can.slot (canTried_canC (t0 + dur) w.fail)
  have hmark := sentMarked_canMarked (t0 := t0) hslot' hlate
  generalize hv : (u.pmu (88 + c.val)).canMarked c.val (w.tried (s.canSends c.val w) w.fail) t0 = v at hexec hmark
  have hvalike : CanAlike s v := (halike.trans hkept.canStill.alike).trans hmark.still.alike
  have hvout : v.out = s.out := (hmark.still.out.trans hkept.canStill.out).trans (hu ▸ canTried_out (t0 + dur) w.fail)
  have hfind : (fun b => v.canMatch c.val b (s.canSentId c.val w.buf) (s.flag (F.CAN_BCFG_IDE c.val w.buf) || s.canN2k c.val))
      = fun b => s.canMatch c.val b (s.canSentId c.val w.buf) (s.flag (F.CAN_BCFG_IDE c.val w.buf) || s.canN2k c.val) := funext fun b => hvalike.canMatch hn b _ _
  cases hk : ((List.range 64).find? fun b => s.canMatch c.val b (s.canSentId c.val w.buf) (s.flag (F.CAN_BCFG_IDE c.val w.buf) || s.canN2k c.val)) with
  | none =>
    rw [canStore_none (by rw [hfind]; exact hk)] at hexec
    exact .of_ends hexec (fun _ _ h => h) ⟨hvout, hmark.gone.1, fun k h => absurd h (by simp)⟩
  | some b =>
    rw [canStore_data (by rw [hfind]; exact hk)] at hexec
    generalize hl : List.zipIdx (canWords _ _) = l at hexec
    generalize lenDlc _ = dlc at hexec
    have hcanC : (v.canDataWords c.val b l).canC c.val = v.canC c.val := by rw [canDataWords_regs]; rfl
    have hstored := frameStored_canStamped (s := v.canDataWords c.val b l) (n := c.val) b dlc (stampOf t0) v
    refine .of_ends hexec (fun _ _ h => h) ⟨?_, ?_, fun k h => ?_⟩
    · have hout : (v.canDataWords c.val b l).out = v.out := by rw [canDataWords_regs]
      exact hout.trans hvout
    · refine (congrArg Can.slot (canStamped_canC b dlc _ _)).trans ?_
      rw [hcanC]
      exact hmark.gone.1
    · obtain rfl : b = k := by simpa using h
      refine ⟨?_, hstored.unread⟩
      refine (show 10 ≤ _ from ?_).trans_eq hstored.code.symm
      split <;> decide

end

/-- No attempt could start, and the slot ends when FT no longer fits. -/
theorem attempt_notStarted (hsof : w.sof = none) (hdue : w.winEnd < 2 ^ 64) : Completes (.canAttemptEnd c dur 4) s fun t =>
    t.now = s.reached (w.winEnd - s.canFt c.val w.buf) ∧ SlotGone c.val w.buf (failCode w.fail) true t := by
  obtain ⟨-, -, -, -, hexec⟩ := exec_canAttemptEnd hon dur
  rw [canAttempt_notStarted hslot hsof] at hexec
  have hsl : ((s.advanceTo (w.winEnd - s.canFt c.val w.buf)).canC c.val).slot = some w := by
    rw [State.canC, State.advanceTo_can]
    exact hslot
  have hend := slotEnded_canSlotEnd hsl (failCode_lt w.fail) true
  exact .of_ends hexec (fun _ _ h => h) ⟨hend.still.now.trans (now_advanceTo s _ (by omega)), hend.gone⟩

end

/-! Requests and cancellation (R277, R280). -/

/-- The powered registers of a controller's requests, which the host and the service processor write. -/
theorem passes_can {d : Dom} (hd : d = .host ∨ d = .svc) (c : Fin 4) :
    passes d (R.CAN_CFG c.val) 12 = true ∧ passes d (R.CAN_TXREQ c.val) 12 = true ∧ passes d (R.CAN_CANCEL c.val) 12 = true := by
  rcases hd with rfl | rfl <;> revert c <;> decide

end Sys2Proof.Machine
end

-- ==== Requests and columns of a CAN controller ====
section
/-!
PROOFS of the CAN controllers (O50): requests, cancellation, recovery, references that stay out, and the columns that open.
-/
namespace Sys2Proof.Machine

section
variable {s : State} {d : Dom} {c : Fin 4} {b : Fin 64} (hdom : s.domOn 12 = true) (hd : d = .host ∨ d = .svc)

theorem buf_ofNat (b : Fin 64) : (BitVec.ofNat 32 b.val).toNat % 64 = b.val := by
  have := b.isLt
  rw [BitVec.toNat_ofNat]
  omega

section
include hdom hd

/-- A write of CAN_CANCEL with no request of its buffer. -/
theorem exec_canCancel_slot (hev : b.val ∉ (s.canC c.val).evReq) {w : CanSlot} (hslot : (s.canC c.val).slot = some w) (hbuf : w.buf = b.val) :
    exec (.canCancel d c b) s = s.ends (match w.sof with
      | some t => if 2 * s.now < 2 * t + s.canSample c.val then s.canSlotEnd c.val 4 false
          else (s.canCapture c.val b.val).modCan c.val fun x => { x with slot := x.slot.map fun y => { y with late := true } }
      | none => s.canSlotEnd c.val 4 false) := by
  have h : exec (.canCancel d c b) s = execCanCancel d c b s := rfl
  rw [h, execCanCancel, canCancelWrite, writeGuard_pass s _ (passes_can hd c).2.2 hdom, buf_ofNat]
  have hno : ¬ (s.canC c.val).evReq.contains b.val = true := by simpa using hev
  dsimp only
  rw [if_neg hno, hslot]
  dsimp only
  rw [if_neg (by simp [hbuf])]
  cases w.sof with
  | none => rfl
  | some t =>
    dsimp only
    split <;> rfl

theorem cancel_late {w : CanSlot} (hev : b.val ∉ (s.canC c.val).evReq) (hslot : (s.canC c.val).slot = some w) (hbuf : w.buf = b.val) {t0 : Nat}
    (hsof : w.sof = some t0) (hpast : 2 * t0 + s.canSample c.val ≤ 2 * s.now) :
    Completes (.canCancel d c b) s fun t => (t.canC c.val).slot.map (fun y => (y.buf, y.late)) = some (b.val, true) := by
  have hexec := exec_canCancel_slot hdom hd hev hslot hbuf
  rw [hsof] at hexec
  dsimp only at hexec
  rw [if_neg (by omega)] at hexec
  have hcap : ((s.canCapture c.val b.val).canC c.val).slot.map CanSlot.buf = some b.val := by
    rw [State.canCapture, hslot]
    dsimp only
    split
    · split
      · rw [State.canC_modCan_same]
        exact congrArg some hbuf
      · rw [hslot]
        exact congrArg some hbuf
    · rw [hslot]
      exact congrArg some hbuf
  refine .of_ends hexec (fun _ _ h => h) ?_
  refine (congrArg (fun x => Option.map (fun y => (y.buf, y.late)) (Can.slot x)) (State.canC_modCan_same _ c.val _)).trans ?_
  obtain ⟨y, hy, hyb⟩ := Option.map_eq_some_iff.mp hcap
  rw [hy]
  exact congrArg (fun k => some (k, true)) hyb

theorem cancel_slot {w : CanSlot} (hev : b.val ∉ (s.canC c.val).evReq) (hslot : (s.canC c.val).slot = some w) (hbuf : w.buf = b.val)
    (hearly : ∀ t0, w.sof = some t0 → 2 * s.now < 2 * t0 + s.canSample c.val) : Completes (.canCancel d c b) s (SlotGone c.val b.val 4 false) := by
  have hexec := exec_canCancel_slot hdom hd hev hslot hbuf
  have hend := (slotEnded_canSlotEnd hslot (show 4 < 16 by decide) false).gone
  rw [hbuf] at hend
  refine .of (hexec.trans (congrArg s.ends ?_)) hend
  cases hsof : w.sof with
  | none => rfl
  | some t => exact if_pos (hearly t hsof)

theorem cancel_request (hslot : (s.canC c.val).slot = none) (hev : b.val ∈ (s.canC c.val).evReq) :
    Completes (.canCancel d c b) s fun t => b.val ∉ (t.canC c.val).evReq ∧ t.get (F.CAN_BST_CODE c.val b.val) = 4 := by
  have hexec : exec (.canCancel d c b) s = s.ends ((s.set (F.CAN_BST_CODE c.val b.val) 4).modCan c.val fun x => { x with evReq := x.evReq.filter (· != b.val) }) := by
    have h : exec (.canCancel d c b) s = execCanCancel d c b s := rfl
    rw [h, execCanCancel, canCancelWrite, writeGuard_pass s _ (passes_can hd c).2.2 hdom, buf_ofNat]
    have hyes : (s.canC c.val).evReq.contains b.val = true := by simpa using hev
    dsimp only
    rw [if_pos hyes, State.canC_modCan_same]
    dsimp only
    rw [show ((s.set (F.CAN_BST_CODE c.val b.val) 4).canC c.val).slot = none from hslot]
  refine .of_ends hexec (fun _ _ h => h) ⟨?_, ?_⟩
  · refine fun hmem => ?_
    have hmem' : b.val ∈ ((s.canC c.val).evReq.filter (· != b.val)) := 
      (congrArg (fun x => b.val ∈ Can.evReq x) (State.canC_modCan_same (s.set (F.CAN_BST_CODE c.val b.val) 4) c.val _)).mp hmem
    simp at hmem'
  · exact (State.get_set s _ 4 (show 0 + 4 ≤ 32 by decide)).trans rfl

theorem txreq_queued (hon : s.flag (F.CAN_CFG_EN c.val) = true) (htx : s.canTx c.val b.val = true) (hevt : s.flag (F.CAN_BCFG_EVT c.val b.val) = true)
    (hev : b.val ∉ (s.canC c.val).evReq) : Completes (.canTxreq d c b) s fun t =>
      (t.canC c.val).evReq = (s.canC c.val).evReq ++ [b.val] ∧ t.get (F.CAN_BST_CODE c.val b.val) = 1 := by
  have hexec : exec (.canTxreq d c b) s = s.ends ((s.set (F.CAN_BST_CODE c.val b.val) 1).modCan c.val fun x => { x with evReq := x.evReq ++ [b.val] }) := by
    have h : exec (.canTxreq d c b) s = execCanTxreq d c b s := rfl
    rw [h, execCanTxreq, canTxreqWrite, writeGuard_pass s _ (passes_can hd c).2.1 hdom, buf_ofNat]
    dsimp only
    rw [if_pos (by simp [hon, htx, hevt, hev])]
  refine .of_ends hexec (fun _ _ h => h) ⟨?_, (State.get_set s _ 1 (show 0 + 4 ≤ 32 by decide)).trans rfl⟩
  exact congrArg Can.evReq (State.canC_modCan_same _ c.val _)

end

include hdom in
/-- A read of a buffer's status marks its frame read, and no other's. -/
theorem rxStatusRead_marks : Completes (.canRxStatusRead c b) s fun t =>
    b.val ∉ (t.canC c.val).unread ∧ ∀ k, k ≠ b.val → (k ∈ (t.canC c.val).unread ↔ k ∈ (s.canC c.val).unread) := by
  have hexec : exec (.canRxStatusRead c b) s = s.ends (s.canRxRead c.val b.val) := by
    have h : exec (.canRxStatusRead c b) s = execCanRxStatusRead c b s := rfl
    rw [h, execCanRxStatusRead, State.inDomain, if_pos hdom]
  have hunread : ((s.canRxRead c.val b.val).canC c.val).unread = (s.canC c.val).unread.filter (· != b.val) := by
    rw [State.canRxRead, State.canC_modCan_same]
  refine .of_ends hexec (fun _ _ h => h) ?_
  rw [hunread]
  refine ⟨by simp, fun k hk => by simp [hk]⟩

end

/-! Bus-off recovery and a lost reference (R270, R278). -/

section
variable {s : State} {c : Fin 4} (hon : s.canOn c.val = true)
include hon

theorem refLost_forgets (href : s.canRef c.val = 2) (hlost : s.flag (F.CAN_STAT_REF_LOST c.val) = false)
    (hdue : (s.canC c.val).refAt + 2 * s.get (F.CAN_SCH_BC_US c.val) * 1000 < 2 ^ 64) : Completes (.refLost c) s fun t =>
      t.now = s.reached ((s.canC c.val).refAt + 2 * s.get (F.CAN_SCH_BC_US c.val) * 1000)
        ∧ t.flag (F.CAN_STAT_REF_LOST c.val) = true ∧ (t.canC c.val).refRow = none := by
  have hexec : exec (.refLost c) s = s.ends (((s.advanceTo ((s.canC c.val).refAt + 2 * s.get (F.CAN_SCH_BC_US c.val) * 1000)).setFlag
      (F.CAN_STAT_REF_LOST c.val) true).modCan c.val fun x => { x with refRow := none }) := by
    have h : exec (.refLost c) s = execRefLost c s := rfl
    rw [h, execRefLost, if_pos (by simp [hon, href, hlost])]
  refine .of_ends hexec (fun _ _ h => h) ⟨now_advanceTo s _ hdue, ?_, ?_⟩
  · exact State.flag_setFlag (s.advanceTo _) _ true (show 4 + 1 ≤ 32 by decide) rfl
  · exact congrArg Can.refRow (State.canC_modCan_same _ c.val _)

theorem recovery_ends (hoff : s.canOff c.val = true) (hmay : (s.canC c.val).recover = true ∨ s.flag (F.CAN_CFG_AUTO_REC c.val) = true)
    (hdue : s.now + 704 * s.canBit c.val < 2 ^ 64) : Completes (.busOffRecovery c) s fun t =>
      t.now = s.reached (s.now + 704 * s.canBit c.val) ∧ t.get (F.CAN_STAT_TEC c.val) = 0 ∧ t.get (F.CAN_STAT_REC c.val) = 0
        ∧ t.get (F.CAN_STAT_ESTATE c.val) = 0 := by
  have hbits : s.now + 1408 * s.canBit c.val / 2 = s.now + 704 * s.canBit c.val := by omega
  have hexec : exec (.busOffRecovery c) s = s.ends (
      let t := (((s.advanceTo (s.now + 704 * s.canBit c.val)).set (F.CAN_STAT_TEC c.val) 0).set (F.CAN_STAT_REC c.val) 0).set (F.CAN_STAT_ESTATE c.val) 0
      let t := t.modCan c.val fun x => { x with recover := false }
      if (t.canC c.val).greet then t.greet c.val else t) := by
    have h : exec (.busOffRecovery c) s = execBusOffRecovery c s := rfl
    rw [h, execBusOffRecovery, if_pos (by simpa [hon, hoff] using hmay), State.advanceBy, hbits]
  have hrest : ∀ t : State, (if (t.canC c.val).greet then t.greet c.val else t).regs = t.regs ∧ (if (t.canC c.val).greet then t.greet c.val else t).time = t.time := by
    intro t
    split
    · exact ⟨rfl, rfl⟩
    · exact ⟨rfl, rfl⟩
  refine .of hexec ?_
  dsimp only
  generalize hu : (((s.advanceTo (s.now + 704 * s.canBit c.val)).set (F.CAN_STAT_TEC c.val) 0).set (F.CAN_STAT_REC c.val) 0).set (F.CAN_STAT_ESTATE c.val) 0 = u
  obtain ⟨hregs, htime⟩ := hrest (u.modCan c.val fun x => { x with recover := false })
  have hget (f : Fld) : ((if ((u.modCan c.val fun x => { x with recover := false }).canC c.val).greet then
      (u.modCan c.val fun x => { x with recover := false }).greet c.val else u.modCan c.val fun x => { x with recover := false }).requeue s.pending).get f = u.get f :=
    congrArg (fun r => f.of (mapGet resetWord f.addr r)) hregs
  rw [hget, hget, hget]
  refine ⟨(congrArg (fun b => b.count.toNat) htime).trans (hu ▸ now_advanceTo s _ hdue), ?_, ?_, ?_⟩
  · rw [← hu, get_set_of_apart (apart_below (show 0 + 2 ≤ 16 by decide)), get_set_of_apart (apart_above (show 16 + 8 ≤ 24 by decide)),
      State.get_set _ _ _ (show 16 + 8 ≤ 32 by decide), Nat.zero_mod]
  · rw [← hu, get_set_of_apart (apart_below (show 0 + 2 ≤ 24 by decide)), State.get_set _ _ _ (show 24 + 8 ≤ 32 by decide), Nat.zero_mod]
  · rw [← hu, State.get_set _ _ _ (show 0 + 2 ≤ 32 by decide), Nat.zero_mod]

end

/-! A column opens (R275 to R278). -/

/-- The state at a column's opening. -/
def State.canAtColumn (s : State) (n t : Nat) : State := (s.advanceTo t).modCan n fun x => { x with colAt := some t }

/-- Whom the column at an opening serves: the reference, an enabled cell's buffer, or the oldest event request. -/
def State.canServed (s : State) (n : Nat) (p : Nat × Nat × Nat × Nat) : State :=
  let cell := s.canCell n p.2.1 p.2.2.1 p.1
  if s.canRef n = 1 && p.2.2.1 = 0 then
    if s.canTx n (s.get (F.CAN_CFG_REF_BUF n)) then s.canOpen n (s.get (F.CAN_CFG_REF_BUF n)) p.2.2.2 (some p.2.1) else s
  else if 128 ≤ cell then (if s.canTx n (cell % 64) then s.canOpen n (cell % 64) p.2.2.2 none else s)
  else match (s.canC n).evReq with
    | [] => s
    | b :: rest => (if s.canTx n b then s.canOpen n b p.2.2.2 none else s).modCan n fun x => { x with evReq := rest }

theorem canColumn_eq {s : State} {n idle : Nat} {p : Nat × Nat × Nat × Nat} (hnext : s.canNext n = some p) (hslot : (s.canC n).slot = none) :
    s.canColumn n idle = if ((s.canAtColumn n p.1).canServed n p).canOff n then ((s.canAtColumn n p.1).canServed n p).canSlotEnd n 9 true
      else ((s.canAtColumn n p.1).canServed n p).canOffer n (((s.canAtColumn n p.1).canServed n p).now + idle) := by
  obtain ⟨t, r, j, win⟩ := p
  have hnone : ((s.advanceTo t).canC n).slot = none := by
    rw [State.canC, State.advanceTo_can]
    exact hslot
  rw [State.canColumn, hnext]
  dsimp only
  rw [hnone]
  rfl

section
variable {s : State} {n t : Nat}

theorem canAtColumn_alike (s : State) (n t : Nat) : CanAlike s (s.canAtColumn n t) := canAlike_advanceTo s t

theorem canAtColumn_canC : (s.canAtColumn n t).canC n = { s.canC n with colAt := some t } := by
  rw [State.canAtColumn, State.canC_modCan_same, State.canC, State.advanceTo_can]
  rfl

theorem canAtColumn_off (hn : n < 4) : (s.canAtColumn n t).canOff n = s.canOff n :=
  congrArg (· == 2) (State.advanceTo_get (x := F.CAN_STAT_ESTATE n) s t (not_book_stat hn))

theorem setup_cell (hn : n < 4) {k : Nat} (hk : k < 0x200) : CanSetup (R.CAN_CELL n k) := by simp only [CanSetup, R.CAN_CELL]; omega

/-- The cell that an opening finds. -/
theorem canAtColumn_canCell (hn : n < 4) {r j : Nat} (hr : r < 64) (hj : j < 32) (u : Nat) : (s.canAtColumn n t).canCell n r j u = s.canCell n r j u := by
  have h := canAtColumn_alike s n t
  have hcycle : (s.canAtColumn n t).canCycle n u = s.canCycle n u := by
    simp only [State.canCycle, State.canRows, h.canRef hn, h.get (f := F.CAN_SCH_BC_US n) (setup_sch hn), h.get (f := F.CAN_SCH_NROW n) (setup_sch hn), canAtColumn_canC]
  have hword : (s.canAtColumn n t).word (R.CAN_CELL n (8 * r + j / 4)) = s.word (R.CAN_CELL n (8 * r + j / 4)) := h _ (setup_cell hn (by omega))
  simp only [State.canCell, hcycle, hword, canAtColumn_canC]

end

theorem canCycle_row {s : State} {n t : Nat} {q : Nat × Nat × Nat} (h : s.canCycle n t = some q) : q.1 < 64 := by
  have hrows (k : Nat) : k % s.canRows n < 64 := by
    have hpos : 0 < s.canRows n := by simp only [State.canRows]; omega
    have hle : s.canRows n ≤ 64 := by simp only [State.canRows]; omega
    exact (Nat.mod_lt k hpos).trans_le hle
  rw [State.canCycle] at h
  split at h
  · split at h
    · split at h
      · obtain rfl := Option.some.inj h
        exact hrows _
      · exact absurd h (by simp)
    · exact absurd h (by simp)
  · split at h
    · exact absurd h (by simp)
    · obtain rfl := Option.some.inj h
      exact hrows _

/-- An opening found in a cycle lies in the cycle's row and in a column in use. -/
theorem opening_bounds {s : State} {n : Nat} {q : Nat × Nat × Nat} {ts : List Nat} {f : (Nat × Nat) × Nat → Bool} {win : (Nat × Nat) × Nat → Nat} {p : Nat × Nat × Nat × Nat}
    (hq : q.1 < 64) (h : ((((s.canCols n).zip ts).zipIdx.find? f).map fun e => (e.1.2, q.1, e.1.1, win e)) = some p) : p.2.1 < 64 ∧ p.2.2.1 < 32 := by
  obtain ⟨e, he, rfl⟩ := Option.map_eq_some_iff.mp h
  have hmem : e.1 ∈ (s.canCols n).zip ts := by
    obtain ⟨i, hi, hei⟩ := List.mem_iff_getElem.mp (List.mem_of_find?_eq_some he)
    rw [← hei, List.getElem_zipIdx]
    exact List.getElem_mem _
  have hcol : e.1.1 ∈ s.canCols n := (List.of_mem_zip (a := e.1.1) (b := e.1.2) hmem).1
  exact ⟨hq, List.mem_range.mp (List.mem_of_mem_filter hcol)⟩

/-- The row and column of the next opening lie in the matrix. -/
theorem canNext_bounds {s : State} {n : Nat} {p : Nat × Nat × Nat × Nat} (h : s.canNext n = some p) : p.2.1 < 64 ∧ p.2.2.1 < 32 := by
  rw [State.canNext] at h
  dsimp only at h
  split at h
  · exact absurd h (by simp)
  · next q hq =>
    split at h
    · next r hr =>
      obtain rfl := Option.some.inj h
      exact opening_bounds (canCycle_row hq) hr
    · split at h
      · exact absurd h (by simp)
      · split at h
        · exact absurd h (by simp)
        · next q' hq' => exact opening_bounds (canCycle_row hq') h

/-! The slot a column opens. -/

/-- A column's slot: what it shows, and where its attempt starts. -/
def SlotOpened (s : State) (n idle b win : Nat) (r : Option Nat) (at' : Nat) (t : State) : Prop :=
  t.get (F.CAN_BST_CODE n b) = 1
    ∧ (t.canC n).slot = some ⟨b, win, 0, if s.canMode n ≠ 1 ∧ at' + idle + s.canFt n b ≤ win then some (at' + idle) else none, none, 0, false, r⟩

theorem slotOpened_canOffer {s v : State} {n idle b win at' : Nat} {r : Option Nat} (hn : n < 4) (ha : CanAlike s v) (hoff : v.canOff n = false) (hnow : v.now = at')
    (hslot : (v.canC n).slot = some ⟨b, win, 0, none, none, 0, false, r⟩) (hcode : v.get (F.CAN_BST_CODE n b) = 1) :
    SlotOpened s n idle b win r at' (v.canOffer n (v.now + idle)) ∧ (v.canOffer n (v.now + idle)).now = at'
      ∧ ((v.canOffer n (v.now + idle)).canC n).evReq = (v.canC n).evReq := by
  rw [canOffer_eq hslot]
  refine ⟨⟨hcode, ?_⟩, hnow, ?_⟩
  · rw [State.canC_modCan_same, hnow]
    dsimp only
    rw [ha.canMode hn, ha.canFt hn, hoff]
    by_cases h : s.canMode n ≠ 1 ∧ at' + idle + s.canFt n b ≤ win
    · have hno : ¬ (false = true ∨ s.canMode n = 1 ∨ win < at' + idle + s.canFt n b) := by
        obtain ⟨hmode, hle⟩ := h
        rintro (h | h | h)
        · exact absurd h (by decide)
        · exact hmode h
        · omega
      rw [if_pos h, if_neg hno]
    · have hyes : false = true ∨ s.canMode n = 1 ∨ win < at' + idle + s.canFt n b := by
        by_cases hmode : s.canMode n = 1
        · exact .inr (.inl hmode)
        · exact .inr (.inr (by have := not_and.mp h hmode; omega))
      rw [if_neg h, if_pos hyes]
  · rw [State.canC_modCan_same]

section
variable {s : State} {n b win : Nat} {r : Option Nat}

theorem canOpen_spec : CanAlike s (s.canOpen n b win r) ∧ (s.canOpen n b win r).now = s.now ∧ (s.canOpen n b win r).canOff n = s.canOff n
    ∧ (s.canOpen n b win r).canC n = { s.canC n with slot := some ⟨b, win, 0, none, none, 0, false, r⟩ } ∧ (s.canOpen n b win r).get (F.CAN_BST_CODE n b) = 1 := by
  refine ⟨(CanAlike.refl s).set (not_setup_bst n b) 1, rfl, ?_, ?_, ?_⟩
  · exact congrArg (· == 2) (State.get_set_addr s (F.CAN_STAT_ESTATE n) (F.CAN_BST_CODE n b) 1 (bst_ne_stat n b))
  · rw [State.canOpen, State.canC_modCan_same]
    rfl
  · exact (State.get_set s (F.CAN_BST_CODE n b) 1 (show 0 + 4 ≤ 32 by decide)).trans rfl

end

section
variable {s : State} {c : Fin 4} {idle : Nat} {p : Nat × Nat × Nat × Nat} (hon : s.canOn c.val = true) (hnext : s.canNext c.val = some p)
  (hoff : s.canOff c.val = false) (hslot : (s.canC c.val).slot = none) (hdue : p.1 < 2 ^ 64) (href : s.canRef c.val ≠ 2 ∨ s.flag (F.CAN_STAT_REF_LOST c.val) = false)
include hon hnext hoff hslot hdue href

/-- A column that serves a buffer opens its slot. -/
theorem column_opens {b : Nat} {r : Option Nat} {v : State} (hserved : (s.canAtColumn c.val p.1).canServed c.val p = v)
    (halike : CanAlike (s.canAtColumn c.val p.1) v) (hnow : v.now = (s.canAtColumn c.val p.1).now)
    (hkeep : v.canOff c.val = (s.canAtColumn c.val p.1).canOff c.val) (hvslot : (v.canC c.val).slot = some ⟨b, p.2.2.2, 0, none, none, 0, false, r⟩)
    (hcode : v.get (F.CAN_BST_CODE c.val b) = 1) : Completes (.canColumnOpen c idle) s fun t => t.now = s.reached p.1
      ∧ SlotOpened s c.val idle b p.2.2.2 r (s.reached p.1) t ∧ (t.canC c.val).evReq = (v.canC c.val).evReq := by
  have hn := c.isLt
  have hvoff : v.canOff c.val = false := hkeep.trans ((canAtColumn_off hn).trans hoff)
  have hexec : exec (.canColumnOpen c idle) s = s.ends (s.canColumn c.val idle) := by
    have h : exec (.canColumnOpen c idle) s = execCanColumnOpen c idle s := rfl
    have hgo : (s.canOn c.val && !(s.canRef c.val == 2 && s.flag (F.CAN_STAT_REF_LOST c.val))) = true := by
      rcases href with h | h <;> simp [hon, h]
    rw [h, execCanColumnOpen, if_pos hgo]
  rw [canColumn_eq hnext hslot, hserved, if_neg (by rw [hvoff]; decide)] at hexec
  obtain ⟨hopened, htime, hev⟩ := slotOpened_canOffer (idle := idle) hn ((canAtColumn_alike s c.val p.1).trans halike) hvoff
    (hnow.trans (now_advanceTo s p.1 hdue)) hvslot hcode
  exact .of_ends hexec (fun _ _ h => h) ⟨htime, hopened, hev⟩

theorem column_reference (h1 : s.canRef c.val = 1 ∧ p.2.2.1 = 0) (htx : s.canTx c.val (s.get (F.CAN_CFG_REF_BUF c.val)) = true) :
    Completes (.canColumnOpen c idle) s fun t => t.now = s.reached p.1
      ∧ SlotOpened s c.val idle (s.get (F.CAN_CFG_REF_BUF c.val)) p.2.2.2 (some p.2.1) (s.reached p.1) t := by
  have hn := c.isLt
  have ha := canAtColumn_alike s c.val p.1
  have hserved : (s.canAtColumn c.val p.1).canServed c.val p
      = (s.canAtColumn c.val p.1).canOpen c.val (s.get (F.CAN_CFG_REF_BUF c.val)) p.2.2.2 (some p.2.1) := by
    rw [State.canServed, if_pos (by simp [ha.canRef hn, h1]), ha.get (f := F.CAN_CFG_REF_BUF c.val) (setup_cfg hn), if_pos (by rw [ha.canTx hn]; exact htx)]
  obtain ⟨halike, hnow, hkeep, hcanC, hcode⟩ := canOpen_spec (s := s.canAtColumn c.val p.1) (b := s.get (F.CAN_CFG_REF_BUF c.val)) (win := p.2.2.2)
    (r := some p.2.1) (n := c.val)
  obtain ⟨t, ht, htime, hopened, -⟩ := column_opens hon hnext hoff hslot hdue href (idle := idle) hserved halike hnow hkeep (by rw [hcanC]) hcode
  exact ⟨t, ht, htime, hopened⟩

variable (h1 : ¬ (s.canRef c.val = 1 ∧ p.2.2.1 = 0))
include h1

theorem column_cell (hcell : 128 ≤ s.canCell c.val p.2.1 p.2.2.1 p.1) (htx : s.canTx c.val (s.canCell c.val p.2.1 p.2.2.1 p.1 % 64) = true) :
    Completes (.canColumnOpen c idle) s fun t => t.now = s.reached p.1
      ∧ SlotOpened s c.val idle (s.canCell c.val p.2.1 p.2.2.1 p.1 % 64) p.2.2.2 none (s.reached p.1) t ∧ (t.canC c.val).evReq = (s.canC c.val).evReq := by
  have hn := c.isLt
  have ha := canAtColumn_alike s c.val p.1
  obtain ⟨hr, hj⟩ := canNext_bounds hnext
  have hserved : (s.canAtColumn c.val p.1).canServed c.val p
      = (s.canAtColumn c.val p.1).canOpen c.val (s.canCell c.val p.2.1 p.2.2.1 p.1 % 64) p.2.2.2 none := by
    rw [State.canServed, canAtColumn_canCell hn hr hj, if_neg (by simpa [ha.canRef hn] using h1), if_pos hcell, if_pos (by rw [ha.canTx hn]; exact htx)]
  obtain ⟨halike, hnow, hkeep, hcanC, hcode⟩ := canOpen_spec (s := s.canAtColumn c.val p.1) (b := s.canCell c.val p.2.1 p.2.2.1 p.1 % 64) (win := p.2.2.2)
    (r := none) (n := c.val)
  obtain ⟨t, ht, htime, hopened, hev⟩ := column_opens hon hnext hoff hslot hdue href (idle := idle) hserved halike hnow hkeep (by rw [hcanC]) hcode
  exact ⟨t, ht, htime, hopened, hev.trans (by rw [hcanC, canAtColumn_canC])⟩

theorem column_request {e : Nat} {l : List Nat} (hev : (s.canC c.val).evReq = e :: l) (hcell : s.canCell c.val p.2.1 p.2.2.1 p.1 < 128)
    (htx : s.canTx c.val e = true) : Completes (.canColumnOpen c idle) s fun t => t.now = s.reached p.1
      ∧ SlotOpened s c.val idle e p.2.2.2 none (s.reached p.1) t ∧ (t.canC c.val).evReq = l := by
  have hn := c.isLt
  have ha := canAtColumn_alike s c.val p.1
  obtain ⟨hr, hj⟩ := canNext_bounds hnext
  have hev' : ((s.canAtColumn c.val p.1).canC c.val).evReq = e :: l := by rw [canAtColumn_canC]; exact hev
  have hserved : (s.canAtColumn c.val p.1).canServed c.val p
      = ((s.canAtColumn c.val p.1).canOpen c.val e p.2.2.2 none).modCan c.val fun x => { x with evReq := l } := by
    rw [State.canServed, canAtColumn_canCell hn hr hj, if_neg (by simpa [ha.canRef hn] using h1), if_neg (by omega), hev']
    dsimp only
    rw [if_pos (by rw [ha.canTx hn]; exact htx)]
  obtain ⟨halike, hnow, hkeep, hcanC, hcode⟩ := canOpen_spec (s := s.canAtColumn c.val p.1) (b := e) (win := p.2.2.2) (r := none) (n := c.val)
  obtain ⟨t, ht, htime, hopened, hleft⟩ := column_opens hon hnext hoff hslot hdue href (idle := idle) hserved halike hnow hkeep
    (by rw [State.canC_modCan_same, hcanC]) hcode
  exact ⟨t, ht, htime, hopened, hleft.trans (by rw [State.canC_modCan_same])⟩

end

end Sys2Proof.Machine
end

-- ==== Frames at a CAN controller ====
section
/-!
PROOFS of the CAN controllers (O50): a received frame, its buffer, and what it does in the NMEA 2000 profile.
-/
namespace Sys2Proof.Machine

/-! What a message writes in the streams (R36, R44, R54). -/

/-- The registers of the streams. -/
def StreamReg (a : Nat) : Prop := 0x40110000 ≤ a ∧ a < 0x40118000

/-- Only streams changed. -/
abbrev Streams (s t : State) : Prop := Beside StreamReg [.fe] s t

theorem streams_modStream (s : State) (n : Nat) (f : Stream → Stream) : Streams s (s.modStream n f) :=
  (frame_modStream (M := fun _ => True) s n f (by decide)).beside rfl

theorem streams_modFe (s : State) (f : Fe → Fe) : Streams s (s.modFe f) := (frame_modFe (M := fun _ => True) s f (by decide)).beside rfl

section
variable {n : Nat} (hn : n < 128)
include hn

theorem streamReg_cnt : StreamReg (R.FE_SC_CNT n) := by simp only [StreamReg, R.FE_SC_CNT]; omega

theorem streamReg_ofsstat : StreamReg (R.FE_SC_OFSSTAT n) := by simp only [StreamReg, R.FE_SC_OFSSTAT]; omega

theorem streamReg_ofsl : StreamReg (R.FE_SC_OFSL n) := by simp only [StreamReg, R.FE_SC_OFSL]; omega

theorem streamReg_per : StreamReg (R.FE_SC_PER n) := by simp only [StreamReg, R.FE_SC_PER]; omega

theorem streamReg_dev : StreamReg (R.FE_SC_DEV n) := by simp only [StreamReg, R.FE_SC_DEV]; omega

theorem streams_showTrk (s : State) : Streams s (s.showTrk n) := beside_setWord s _ (streamReg_ofsl hn)

theorem streams_trkLearn (s : State) (d arr : Int) : Streams s (s.trkLearn n d arr) := by
  have hstat := streamReg_ofsstat hn
  unfold State.trkLearn
  extract_lets lc t t₁ t₂ s₁ ln pl s₂ per s₃ s₄
  have h₁ : Streams s s₁ := Beside.trans (t := s.modStream n fun x => { x with trk := t₂ }) (streams_modStream s n _) (beside_set _ _ hstat)
  split
  · exact h₁
  · have h₃ : Streams s s₃ := h₁.trans (Beside.trans (t := s₂) (streams_modStream s₁ n _) (beside_set s₂ _ (streamReg_per hn)))
    have h₄ : Streams s₃ s₄ := beside_ite (fun _ => Beside.trans (Beside.trans (streams_modStream s₃ n _) (beside_set _ _ hstat)) (streams_showTrk hn _))
      fun _ => .refl s₃
    exact (h₃.trans h₄).trans (beside_set s₄ _ hstat)

theorem streams_trkLocked (s : State) (d : Int) : Streams s (s.trkLocked n d) := by
  have hstat := streamReg_ofsstat hn
  unfold State.trkLocked
  extract_lets dev s₁
  have h₁ : Streams s s₁ := beside_setWord s _ (streamReg_dev hn)
  have hskew : Streams s₁ ((s₁.setLstate n 3).bump (F.FE_SC_OFSSTAT_SKEW_CNT n)) :=
    Beside.trans (Beside.trans (beside_set s₁ _ hstat) (beside_set _ _ hstat)) (beside_bump (s₁.setLstate n 3) hstat)
  split
  · exact h₁.trans hskew
  · exact h₁.trans (Beside.trans (streams_modStream s₁ n _) (streams_showTrk hn _))

theorem streams_offsetTrack (s : State) (arr src : Int) : Streams s (s.offsetTrack n arr src) := by
  rw [State.offsetTrack]
  dsimp only
  split
  · exact .refl s
  · split
    · exact streams_trkLearn hn s _ _
    · exact streams_trkLearn hn s _ _
    · exact streams_trkLocked hn s _
    · exact .refl s

/-- An entry in a stream's queue. -/
theorem streams_queueWrite (s : State) (e : Entry) : Streams s (s.queueWrite n e) := by
  unfold State.queueWrite
  extract_lets q e' s₁ q' s₂
  have h₁ : Streams s s₁ := beside_ite (fun _ => beside_bump s (streamReg_cnt hn)) fun _ => .refl s
  have h₂ : Streams s s₂ := h₁.trans (streams_modStream s₁ n _)
  exact h₂.trans (beside_ite (fun _ => streams_offsetTrack hn s₂ _ _) fun _ => .refl s₂)

end

theorem streamIds_lt {n : Nat} (h : n ∈ streamIds) : n < 128 := by
  simp only [streamIds, List.mem_map, List.mem_range] at h
  omega

theorem pgnStreams_lt (s : State) (c pgn sa : Nat) : ∀ n ∈ s.pgnStreams c pgn sa, n < 128 := by
  intro n h
  rw [State.pgnStreams] at h
  exact streamIds_lt (List.mem_of_mem_filter h)

theorem streams_n2kMessage (s : State) (c pgn sa : Nat) (b : List Byte) (arr : Stamp) : Streams s (s.n2kMessage c pgn sa b arr) :=
  beside_foldl _ (fun t n hn => beside_ite (fun _ => beside_bump t (streamReg_cnt (pgnStreams_lt s c pgn sa n hn)))
    fun _ => streams_queueWrite (pgnStreams_lt s c pgn sa n hn) t _) s

theorem streams_fastLost (s : State) (e : FastPkt) : Streams s (s.fastLost e) :=
  beside_foldl _ (fun t n hn => beside_bump t (streamReg_cnt (pgnStreams_lt s e.ctl e.pgn e.sa n hn))) s

theorem streams_fastStep (s : State) (e : FastPkt) : Streams s (s.fastStep e) := by
  rw [State.fastStep]
  have hdrop : Streams s (s.dropFast e.ctl e.sa e.pgn) := streams_modFe s _
  exact hdrop.trans (beside_ite (fun _ => streams_n2kMessage _ _ _ _ _ _) fun _ => streams_modFe _ _)

theorem streams_fastFrame (s : State) (c sa pgn : Nat) (b : List Byte) (arr : Stamp) : Streams s (s.fastFrame c sa pgn b arr) := by
  have hlost (e : FastPkt) : Streams s ((s.dropFast c sa pgn).fastLost e) := (streams_modFe s _).trans (streams_fastLost _ e)
  rw [State.fastFrame]
  dsimp only
  split
  · split
    · exact (hlost _).trans (streams_fastStep _ _)
    · exact streams_fastStep s _
  · split
    · exact .refl s
    · split
      · exact streams_fastStep s _
      · exact hlost _

/-! What a frame does in the profile (R44, R282). -/

/-- The registers of the controllers beside the NAME tables. -/
def CanOwn (a : Nat) : Prop := 0x400B0000 ≤ a ∧ a < 0x400C0000 ∧ (a < 0x400B8000 → a % 0x1000 < 0x200 ∨ 0x400 ≤ a % 0x1000)

/-- What a frame leaves of the controllers once it has been received, beside the NAME tables and the addresses. -/
structure CanSettled (s t : State) : Prop where
  word : ∀ a, CanOwn a → t.word a = s.word a
  unread : ∀ m, (t.canC m).unread = (s.canC m).unread
  refRow : ∀ m, (t.canC m).refRow = (s.canC m).refRow
  refAt : ∀ m, (t.canC m).refAt = (s.canC m).refAt

section
variable {s t u : State}

theorem CanSettled.refl (s : State) : CanSettled s s := ⟨fun _ _ => rfl, fun _ => rfl, fun _ => rfl, fun _ => rfl⟩

theorem CanSettled.trans (h : CanSettled s t) (g : CanSettled t u) : CanSettled s u :=
  ⟨fun a ha => (g.word a ha).trans (h.word a ha), fun m => (g.unread m).trans (h.unread m), fun m => (g.refRow m).trans (h.refRow m),
    fun m => (g.refAt m).trans (h.refAt m)⟩

theorem CanOwn.not_book {a : Nat} (h : CanOwn a) : ¬ Book a := by
  simp only [CanOwn] at h
  simp only [Book]
  omega

theorem Beside.canSettled (p : Streams s t) : CanSettled s t := by
  have hcan : t.can = s.can := p.same .can (by decide)
  have hcanC (m : Nat) : t.canC m = s.canC m := congrArg (fun l => l.getD m .init) hcan
  refine ⟨fun a ha => p.word a ha.not_book fun hs => ?_, fun m => by rw [hcanC], fun m => by rw [hcanC], fun m => by rw [hcanC]⟩
  simp only [CanOwn, StreamReg] at ha hs
  omega

theorem canSettled_names (s : State) {a : Nat} (v : Word) (ha : ¬ CanOwn a) : CanSettled s (s.setWord a v) :=
  ⟨fun b hb => State.word_setWord_ne s (by rintro rfl; exact ha hb) v, fun _ => rfl, fun _ => rfl, fun _ => rfl⟩

theorem not_canOwn_namest {c i : Nat} (hc : c < 4) (hi : i < 32) : ¬ CanOwn (R.CAN_NAMEST c i) := by
  simp only [CanOwn, R.CAN_NAMEST]
  omega

theorem canSettled_foldl {β : Type} (l : List β) (f : State → β → State) (hf : ∀ s, ∀ b ∈ l, CanSettled s (f s b)) (s : State) : CanSettled s (l.foldl f s) := by
  induction l generalizing s with
  | nil => exact .refl s
  | cons b l ih => exact (hf s b (by simp)).trans (ih (fun t c hc => hf t c (by simp [hc])) (f s b))

theorem canSettled_claimNames (s : State) {c : Nat} (hc : c < 4) (name : Word64) (sa : Nat) : CanSettled s (s.claimNames c name sa) := by
  refine canSettled_foldl _ _ (fun t i hi => ?_) s
  have hno := not_canOwn_namest hc (List.mem_range.mp hi)
  dsimp only
  split
  · exact .refl t
  · split
    · exact (canSettled_names t _ hno).trans (canSettled_names _ _ hno)
    · split
      · exact canSettled_names t _ hno
      · exact .refl t

theorem canSettled_modCan (s : State) (c : Nat) {f : Can → Can} (hf : ∀ x, (f x).unread = x.unread ∧ (f x).refRow = x.refRow ∧ (f x).refAt = x.refAt) :
    CanSettled s (s.modCan c f) := by
  have hcanC (m : Nat) : ((s.modCan c f).canC m).unread = (s.canC m).unread ∧ ((s.modCan c f).canC m).refRow = (s.canC m).refRow
      ∧ ((s.modCan c f).canC m).refAt = (s.canC m).refAt := by
    rw [State.canC_modCan]
    split
    · next h => rw [h]; exact hf _
    · exact ⟨rfl, rfl, rfl⟩
  exact ⟨fun _ _ => rfl, fun m => (hcanC m).1, fun m => (hcanC m).2.1, fun m => (hcanC m).2.2⟩

theorem canSettled_sendClaim (s : State) (c : Nat) : CanSettled s (s.sendClaim c) := ⟨fun _ _ => rfl, fun _ => rfl, fun _ => rfl, fun _ => rfl⟩

theorem canSettled_addressClaim (s : State) {c : Nat} (hc : c < 4) (name : Word64) (sa : Nat) : CanSettled s (s.addressClaim c name sa) := by
  have hnames := canSettled_claimNames s hc name sa
  rw [State.addressClaim]
  dsimp only
  split
  · exact .refl s
  · split
    · exact hnames
    · split
      · exact hnames.trans (canSettled_sendClaim _ c)
      · exact (hnames.trans (canSettled_modCan (f := fun x => { x with sa := 254 }) _ c fun _ => ⟨rfl, rfl, rfl⟩)).trans (canSettled_sendClaim _ c)

theorem canSettled_isoRequest (s : State) (c dst pgn : Nat) : CanSettled s (s.isoRequest c dst pgn) := by
  rw [State.isoRequest]
  split
  · exact canSettled_sendClaim s c
  · exact .refl s

theorem canSettled_n2kFrame (s : State) {c : Nat} (hc : c < 4) (ident : Nat) (b : List Byte) (arr : Stamp) : CanSettled s (s.n2kFrame c ident b arr) := by
  rw [State.n2kFrame]
  split
  · exact .refl s
  · split
    · split
      · exact canSettled_addressClaim s hc _ _
      · exact .refl s
    · split
      · exact canSettled_isoRequest s _ _ _
      · split
        · exact (streams_fastFrame s _ _ _ _ _).canSettled
        · exact (streams_n2kMessage s _ _ _ _ _).canSettled

end

/-! A frame is heard (R270, R279). -/

section
variable {n : Nat} (hn : n < 4) (s : State)

theorem canHeard_eq : s.canHeard n = (((s.set (F.CAN_STAT_REC n) (if 128 ≤ s.get (F.CAN_STAT_REC n) then 127 else s.get (F.CAN_STAT_REC n) - 1)).canState n).pmu
    (92 + n)).modCan n fun x => { x with ackRun := 0 } := rfl

/-- What a frame without error leaves of the counters. -/
structure CanHeardBy (n : Nat) (s t : State) : Prop where
  alike : CanAlike s t
  recv : t.get (F.CAN_STAT_REC n) = if 128 ≤ s.get (F.CAN_STAT_REC n) then 127 else s.get (F.CAN_STAT_REC n) - 1
  word : ∀ a, ¬ Book a → a ≠ R.CAN_STAT n → t.word a = s.word a
  unread : (t.canC n).unread = (s.canC n).unread

include hn

theorem canHeard_heard : CanHeardBy n s (s.canHeard n) ∧ (s.canHeard n).flag (F.CAN_STAT_LONELY n) = s.flag (F.CAN_STAT_LONELY n) := by
  have hstat := not_book_stat hn
  rw [canHeard_eq]
  generalize hv : (if 128 ≤ s.get (F.CAN_STAT_REC n) then 127 else s.get (F.CAN_STAT_REC n) - 1) = v
  have hlt : v < 256 := by
    have h : s.get (F.CAN_STAT_REC n) < 2 ^ 8 := get_lt s (F.CAN_STAT_REC n)
    rw [← hv]
    split <;> omega
  have hk := kept_pmu ((s.set (F.CAN_STAT_REC n) v).canState n) (92 + n) (by omega)
  have hcanC : ((((s.set (F.CAN_STAT_REC n) v).canState n).pmu (92 + n)).canC n) = s.canC n := by
    rw [State.canC, State.pmu_can, canState_can]
    rfl
  refine ⟨⟨?_, ?_, fun a hb ha => ?_, ?_⟩, ?_⟩
  · exact (((canStill_set s v (not_setup_stat n)).trans (canStill_canState _)).alike.kept hk).modCan n _
  · rw [State.modCan_get, hk.get (f := F.CAN_STAT_REC n) hstat, canState_get _ (show 2 ≤ 24 by decide), State.get_set _ _ _ (show 24 + 8 ≤ 32 by decide), hv]
    exact Nat.mod_eq_of_lt hlt
  · rw [State.modCan_word, hk.word a hb, canState_word _ ha, State.word_set_ne _ _ _ ha]
  · rw [State.canC_modCan_same, hcanC]
  · rw [State.modCan_flag, hk.flag (f := F.CAN_STAT_LONELY n) hstat, canState_flag _ (show 2 ≤ 2 by decide), flag_set_of_apart (apart_above (show 2 + 1 ≤ 24 by decide))]

theorem canData_heard : CanHeardBy n s (s.canData n) ∧ (s.canData n).flag (F.CAN_STAT_LONELY n) = false := by
  obtain ⟨⟨halike, hrec, hword, hunread⟩, -⟩ := canHeard_heard hn s
  rw [State.canData]
  refine ⟨⟨halike.setFlag (f := F.CAN_STAT_LONELY n) (not_setup_stat n) false, ?_, fun a hb ha => ?_, hunread⟩, ?_⟩
  · exact (get_setFlag_of_apart (f := F.CAN_STAT_REC n) (g := F.CAN_STAT_LONELY n) (apart_below (show 2 + 1 ≤ 24 by decide)) _ false).trans hrec
  · rw [State.word_setFlag_ne _ _ _ ha, hword a hb ha]
  · exact State.flag_setFlag _ _ false (show 2 + 1 ≤ 32 by decide) rfl

end

/-! A reference starts the basic cycle (R278). -/

section
variable {s : State} {n ident t0 : Nat} {ide : Bool} {d : List Byte}

theorem canRefer_cases : s.canRefer n ident ide d t0 = s
    ∨ s.canRefer n ident ide d t0 = (s.setFlag (F.CAN_STAT_REF_LOST n) false).modCan n fun x => { x with refAt := t0, refRow := some (d.headD 0).toNat } := by
  rw [State.canRefer]
  split
  · exact .inr rfl
  · exact .inl rfl

theorem canRefer_word {a : Nat} (ha : a ≠ R.CAN_STAT n) : (s.canRefer n ident ide d t0).word a = s.word a := by
  rcases canRefer_cases (s := s) (n := n) (ident := ident) (ide := ide) (d := d) (t0 := t0) with h | h <;> rw [h]
  exact State.word_setFlag_ne s _ _ ha

theorem canRefer_unread : ((s.canRefer n ident ide d t0).canC n).unread = (s.canC n).unread := by
  rcases canRefer_cases (s := s) (n := n) (ident := ident) (ide := ide) (d := d) (t0 := t0) with h | h <;> rw [h]
  rw [State.canC_modCan_same]
  rfl

/-- The fields of CAN_STAT beside REF_LOST stay. -/
theorem canRefer_get {f : Fld} (hf : f.Apart (F.CAN_STAT_REF_LOST n)) : (s.canRefer n ident ide d t0).get f = s.get f := by
  rcases canRefer_cases (s := s) (n := n) (ident := ident) (ide := ide) (d := d) (t0 := t0) with h | h <;> rw [h]
  exact get_setFlag_of_apart hf s false

end

/-! Frames at a controller that hears (R273, R278). -/

/-- The buffer a frame goes to. -/
def State.canTarget (s : State) (n ident : Nat) (ide : Bool) : Option Nat := (List.range 64).find? fun b => s.canMatch n b ident ide

theorem canTarget_lt {s : State} {n ident k : Nat} {ide : Bool} (h : s.canTarget n ident ide = some k) : k < 64 :=
  List.mem_range.mp (List.mem_of_find?_eq_some h)

theorem CanAlike.canTarget {s t : State} {n : Nat} (hn : n < 4) (h : CanAlike s t) (ident : Nat) (ide : Bool) : t.canTarget n ident ide = s.canTarget n ident ide :=
  congrArg (fun f => (List.range 64).find? f) (funext fun b => h.canMatch hn b ident ide)

theorem canOwn_stat {n : Nat} (hn : n < 4) : CanOwn (R.CAN_STAT n) := by simp only [CanOwn, R.CAN_STAT]; omega

theorem canOwn_cnt {n : Nat} (hn : n < 4) : CanOwn (R.CAN_CNT n) := by simp only [CanOwn, R.CAN_CNT]; omega

theorem canOwn_buf {n b : Nat} (hn : n < 4) (hb : b < 64) : CanOwn (R.CAN_BCFG n b) ∧ CanOwn (R.CAN_BST n b) ∧ CanOwn (R.CAN_BSTAMPL n b) ∧ CanOwn (R.CAN_BSTAMPH n b)
    ∧ ∀ i < 16, CanOwn (R.CAN_BDATA n b i) := by
  simp only [CanOwn, R.CAN_BCFG, R.CAN_BST, R.CAN_BSTAMPL, R.CAN_BSTAMPH, R.CAN_BDATA]
  exact ⟨by omega, by omega, by omega, by omega, fun i hi => by omega⟩

/-- The registers of a buffer are not a controller's. -/
theorem canBufReg_ne {n b a : Nat} (h : CanBufReg n b a) : 0x400B8000 ≤ a := by
  rcases h with rfl | rfl | rfl | rfl | ⟨i, _, rfl⟩
  · simp only [R.CAN_BST]; omega
  · simp only [R.CAN_BSTAMPL]; omega
  · simp only [R.CAN_BSTAMPH]; omega
  · simp only [R.CAN_BCFG]; omega
  · simp only [R.CAN_BDATA]; omega

/-- The words of a payload of 64 bytes at most lie in the data of its buffer. -/
theorem dataWords_lt {d : List Byte} (hd : d.length ≤ 64) : ∀ e ∈ (canWords d ((d.length + 3) / 4)).zipIdx, e.2 < 16 := by
  intro e he
  have h := List.snd_lt_of_mem_zipIdx he
  rw [length_canWords] at h
  omega

theorem stat_not_buf {n : Nat} (hn : n < 4) (b : Nat) : ¬ CanBufReg n b (R.CAN_STAT n) := by
  intro h
  have := canBufReg_ne h
  simp only [R.CAN_STAT] at this
  omega

/-- What a data frame in its buffer leaves. -/
theorem canStore_stored {s : State} {n k ident : Nat} {ide : Bool} {d : List Byte} (h : s.canTarget n ident ide = some k) (hd : d.length ≤ 8) (st : Stamp) :
    FrameStored n k st s (s.canStore n ident ide d none st) ∧ (s.canStore n ident ide d none st).get (F.CAN_BCFG_DLC n k) = d.length
      ∧ (∀ i, 4 * i < d.length → (s.canStore n ident ide d none st).word (R.CAN_BDATA n k i) = BitVec.ofNat 32 (leNat ((d.drop (4 * i)).take 4)))
      ∧ ∀ a, ¬ CanBufReg n k a → (s.canStore n ident ide d none st).word a = s.word a := by
  have hdlc : lenDlc d.length = d.length := by rw [lenDlc, if_pos hd]
  have hcan (l : List (Word × Nat)) : ((s.canDataWords n k l).canC n).unread = (s.canC n).unread := by
    rw [canDataWords_regs]
    rfl
  rw [canStore_data h, hdlc]
  refine ⟨frameStored_canStamped (s := s.canDataWords n k _) k _ st s, canStamped_dlc (by omega) _ st, fun i hi => ?_, fun a ha => ?_⟩
  · rw [canStamped_word (.inr ⟨i, rfl⟩), canDataWords_zipIdx n k i _ s 0 (by omega) (by rw [length_canWords]; omega), Nat.sub_zero, canWords_getD _ _ _ (by omega)]
  · rw [canStamped_word (.inl ha), canDataWords_word n k _ s fun e hmem he => ha (.inr (.inr (.inr (.inr ⟨e.2, dataWords_lt (by omega) e hmem, he⟩))))]

/-- What a remote frame leaves. -/
theorem canStore_remoteStored {s : State} {n k ident dlc : Nat} {ide : Bool} (h : s.canTarget n ident ide = some k) (hd : dlc < 16) (st : Stamp) :
    FrameStored n k st s (s.canStore n ident ide [] (some dlc) st) ∧ (s.canStore n ident ide [] (some dlc) st).get (F.CAN_BCFG_DLC n k) = dlc
      ∧ (∀ i, (s.canStore n ident ide [] (some dlc) st).word (R.CAN_BDATA n k i) = s.word (R.CAN_BDATA n k i))
      ∧ ∀ a, ¬ CanBufReg n k a → (s.canStore n ident ide [] (some dlc) st).word a = s.word a := by
  rw [canStore_remote h]
  exact ⟨frameStored_canStamped k _ st s, canStamped_dlc hd _ st, fun i => canStamped_word (.inr ⟨i, rfl⟩) _ _ _, fun a ha => canStamped_word (.inl ha) _ _ _⟩

/-- What selects a buffer stays when a frame is stored. -/
theorem canStore_setup {n : Nat} (hn : n < 4) (s : State) (ident : Nat) (ide : Bool) {d : List Byte} (hd : d.length ≤ 8) (st : Stamp) (b : Nat) :
    (s.canStore n ident ide d none st).word (R.CAN_CFG n) = s.word (R.CAN_CFG n) ∧ (s.canStore n ident ide d none st).word (R.CAN_BID n b) = s.word (R.CAN_BID n b)
      ∧ (s.canStore n ident ide d none st).word (R.CAN_BMASK n b) = s.word (R.CAN_BMASK n b)
      ∧ (s.canStore n ident ide d none st).flag (F.CAN_BCFG_IDE n b) = s.flag (F.CAN_BCFG_IDE n b) := by
  cases h : s.canTarget n ident ide with
  | none =>
    rw [canStore_none h]
    have hne {a : Nat} (ha : a ≠ R.CAN_CNT n) : (s.bump (F.CAN_CNT_NOMATCH n)).word a = s.word a := State.word_setWord_ne s ha _
    refine ⟨hne (by simp only [R.CAN_CFG, R.CAN_CNT]; omega), hne (by simp only [R.CAN_BID, R.CAN_CNT]; omega), hne (by simp only [R.CAN_BMASK, R.CAN_CNT]; omega), ?_⟩
    exact congrArg (· != 0) (State.get_congr (f := F.CAN_BCFG_IDE n b) (hne (by simp only [F.CAN_BCFG_IDE, R.CAN_BCFG, R.CAN_CNT]; omega)))
  | some k =>
    have hwords {a : Nat} (ha : ¬ CanBufReg n k a) : (s.canStore n ident ide d none st).word a = s.word a := by
      rw [canStore_data h, canStamped_word (.inl ha), canDataWords_word n k _ s fun e hmem he => ha (.inr (.inr (.inr (.inr ⟨e.2, dataWords_lt (by omega) e hmem, he⟩))))]
    have hbuf {a : Nat} (ha : 0x400B8000 ≤ a) (hlo : 4 ≤ a % 0x80 ∧ a % 0x80 < 0x0C) : ¬ CanBufReg n k a := by
      rintro (rfl | rfl | rfl | rfl | ⟨i, hi, rfl⟩)
      · simp only [R.CAN_BST] at hlo; omega
      · simp only [R.CAN_BSTAMPL] at hlo; omega
      · simp only [R.CAN_BSTAMPH] at hlo; omega
      · simp only [R.CAN_BCFG] at hlo; omega
      · simp only [R.CAN_BDATA] at hlo; omega
    refine ⟨hwords fun hr => ?_, hwords (hbuf (by simp only [R.CAN_BID]; omega) (by simp only [R.CAN_BID]; omega)),
      hwords (hbuf (by simp only [R.CAN_BMASK]; omega) (by simp only [R.CAN_BMASK]; omega)), congrArg (· != 0) ?_⟩
    · have := canBufReg_ne hr
      simp only [R.CAN_CFG] at this
      omega
    · rw [canStore_data h, canStamped_bcfg k rfl (apart_above (show 2 + 1 ≤ 6 by decide))]
      refine State.get_congr (f := F.CAN_BCFG_IDE n b) (canDataWords_word n k _ s fun e hmem he => ?_)
      have hlt := dataWords_lt (by omega) e hmem
      simp only [F.CAN_BCFG_IDE, R.CAN_BCFG, R.CAN_BDATA] at he
      omega

/-- A classical data frame: it is heard, stored or counted, may be a reference, and is read in the profile. -/
theorem canFrame_eq (s : State) (n ident : Nat) (ide : Bool) (d : List Byte) (t0 : Nat) : s.canFrame n ident ide false d t0
    = (let t := ((s.canData n).canStore n ident ide (d.take 8) none (stampOf t0)).canRefer n ident ide d t0
       if ide then t.n2kFrame n ident (d.take 8) (stampOf t0) else t) := rfl

/-- What comes after a frame was stored leaves its buffer and the counters. -/
theorem canSettled_frame {n : Nat} (hn : n < 4) (t : State) (ident : Nat) (ide : Bool) (b : List Byte) (st : Stamp) :
    CanSettled t (if ide then t.n2kFrame n ident b st else t) := by
  split
  · exact canSettled_n2kFrame t hn ident b st
  · exact .refl t

section
variable {s : State} {c : Fin 4} (hears : s.canHears c.val = true)
include hears

theorem exec_canFrameReceive (ident : BitVec 29) (ide : Bool) (d : List Byte) (ago : Nat) :
    exec (.canFrameReceive c ident ide false d ago) s = s.ends (s.canFrame c.val ident.toNat ide false d (s.now - ago)) := by
  have h : exec (.canFrameReceive c ident ide false d ago) s = execCanFrameReceive c ident ide false d ago s := rfl
  rw [h, execCanFrameReceive, if_pos hears]

/-- A data frame goes to the lowest buffer that matches. -/
theorem frame_stored {ident : BitVec 29} {ide : Bool} {k : Nat} (hk : s.canTarget c.val ident.toNat ide = some k) (d : List Byte) (ago : Nat) :
    Completes (.canFrameReceive c ident ide false d ago) s fun t =>
      t.get (F.CAN_STAT_REC c.val) = (if 128 ≤ s.get (F.CAN_STAT_REC c.val) then 127 else s.get (F.CAN_STAT_REC c.val) - 1)
        ∧ FrameStored c.val k (s.stampAgo ago) s t ∧ t.flag (F.CAN_STAT_LONELY c.val) = false ∧ t.get (F.CAN_BCFG_DLC c.val k) = min 8 d.length
        ∧ ∀ i < 2, 4 * i < d.length → t.word (R.CAN_BDATA c.val k i) = BitVec.ofNat 32 (leNat (((d.take 8).drop (4 * i)).take 4)) := by
  have hn := c.isLt
  have hk64 := canTarget_lt hk
  obtain ⟨hheard, hlonely⟩ := canData_heard hn s
  have hlen : (d.take 8).length = min 8 d.length := List.length_take
  have hk' : (s.canData c.val).canTarget c.val ident.toNat ide = some k := by rw [hheard.alike.canTarget hn]; exact hk
  obtain ⟨⟨hcode, hunread, hlow, hhigh⟩, hdlc, hdata, hrest⟩ := canStore_stored (d := d.take 8) hk' (by omega) (s.stampAgo ago)
  have hset := canSettled_frame hn (((s.canData c.val).canStore c.val ident.toNat ide (d.take 8) none (s.stampAgo ago)).canRefer c.val ident.toNat ide d (s.now - ago))
    ident.toNat ide (d.take 8) (s.stampAgo ago)
  obtain ⟨hbcfg, hbst, hbl, hbh, hbd⟩ := canOwn_buf hn hk64
  have hbuf {a : Nat} (ha : 0x400B8000 ≤ a) (hown : CanOwn a) := (hset.word a hown).trans (canRefer_word (by simp only [R.CAN_STAT]; omega))
  have hstat {f : Fld} (hf : f.addr = R.CAN_STAT c.val) (hap : f.Apart (F.CAN_STAT_REF_LOST c.val)) :=
    (State.get_congr (f := f) (hset.word _ (hf ▸ canOwn_stat hn))).trans ((canRefer_get hap).trans (State.get_congr (hrest _ (hf ▸ stat_not_buf hn k))))
  refine .of (exec_canFrameReceive hears ident ide d ago) ?_
  rw [canFrame_eq]
  refine ⟨?_, ⟨?_, ?_, ?_, ?_⟩, ?_, ?_, fun i hi hlt => ?_⟩
  · exact (hstat (f := F.CAN_STAT_REC c.val) rfl (apart_below (show 4 + 1 ≤ 24 by decide))).trans hheard.recv
  · refine (State.get_congr (f := F.CAN_BST_CODE c.val k) (hbuf (by simp only [F.CAN_BST_CODE, R.CAN_BST]; omega) hbst)).trans (hcode.trans ?_)
    rw [hheard.unread]
  · have h := (hset.unread c.val).trans canRefer_unread
    exact h ▸ hunread
  · exact (hbuf (by simp only [R.CAN_BSTAMPL]; omega) hbl).trans hlow
  · exact (hbuf (by simp only [R.CAN_BSTAMPH]; omega) hbh).trans hhigh
  · exact (congrArg (· != 0) (hstat (f := F.CAN_STAT_LONELY c.val) rfl (apart_above (show 2 + 1 ≤ 4 by decide)))).trans hlonely
  · exact (State.get_congr (f := F.CAN_BCFG_DLC c.val k) (hbuf (by simp only [F.CAN_BCFG_DLC, R.CAN_BCFG]; omega) hbcfg)).trans (hdlc.trans hlen)
  · exact (hbuf (by simp only [R.CAN_BDATA]; omega) (hbd i (by omega))).trans (hdata i (by omega))

/-- A data frame without a buffer is counted. -/
theorem frame_dropped {ident : BitVec 29} {ide : Bool} (hk : s.canTarget c.val ident.toNat ide = none) (d : List Byte) (ago : Nat) :
    Completes (.canFrameReceive c ident ide false d ago) s fun t =>
      t.get (F.CAN_STAT_REC c.val) = (if 128 ≤ s.get (F.CAN_STAT_REC c.val) then 127 else s.get (F.CAN_STAT_REC c.val) - 1)
        ∧ t.get (F.CAN_CNT_NOMATCH c.val) = min 255 (s.get (F.CAN_CNT_NOMATCH c.val) + 1) := by
  have hn := c.isLt
  obtain ⟨hheard, -⟩ := canData_heard hn s
  have hk' : (s.canData c.val).canTarget c.val ident.toNat ide = none := by rw [hheard.alike.canTarget hn]; exact hk
  have hset := canSettled_frame hn (((s.canData c.val).bump (F.CAN_CNT_NOMATCH c.val)).canRefer c.val ident.toNat ide d (s.now - ago))
    ident.toNat ide (d.take 8) (s.stampAgo ago)
  refine .of (exec_canFrameReceive hears ident ide d ago) ?_
  rw [canFrame_eq, canStore_none hk']
  refine ⟨?_, ?_⟩
  · refine (State.get_congr (f := F.CAN_STAT_REC c.val) (hset.word _ (canOwn_stat hn))).trans ?_
    rw [canRefer_get (f := F.CAN_STAT_REC c.val) (apart_below (show 4 + 1 ≤ 24 by decide)), State.bump, State.bumpBy, State.get_set_addr _ _ (F.CAN_CNT_NOMATCH c.val) _ (stat_ne_cnt _)]
    exact hheard.recv
  · refine (State.get_congr (f := F.CAN_CNT_NOMATCH c.val) (hset.word _ (canOwn_cnt hn))).trans ?_
    refine (State.get_congr (f := F.CAN_CNT_NOMATCH c.val) (canRefer_word (stat_ne_cnt _).symm)).trans ?_
    rw [State.get_bump _ _ (show 16 + 8 ≤ 32 by decide), State.get_congr (f := F.CAN_CNT_NOMATCH c.val) (hheard.word _ (not_book_cnt hn) (stat_ne_cnt _).symm)]
    rfl

/-- A remote frame leaves the data. -/
theorem remote_stored {ident : BitVec 29} {ide : Bool} {k : Nat} (hk : s.canTarget c.val ident.toNat ide = some k) (dlc : Fin 16) (ago : Nat) :
    Completes (.canRemoteFrameReceive c ident ide dlc ago) s fun t =>
      t.get (F.CAN_STAT_REC c.val) = (if 128 ≤ s.get (F.CAN_STAT_REC c.val) then 127 else s.get (F.CAN_STAT_REC c.val) - 1)
        ∧ FrameStored c.val k (s.stampAgo ago) s t ∧ t.flag (F.CAN_STAT_LONELY c.val) = s.flag (F.CAN_STAT_LONELY c.val)
        ∧ t.get (F.CAN_BCFG_DLC c.val k) = dlc.val ∧ ∀ i < 16, t.word (R.CAN_BDATA c.val k i) = s.word (R.CAN_BDATA c.val k i) := by
  have hn := c.isLt
  obtain ⟨hheard, hlonely⟩ := canHeard_heard hn s
  have hk' : (s.canHeard c.val).canTarget c.val ident.toNat ide = some k := by rw [hheard.alike.canTarget hn]; exact hk
  obtain ⟨⟨hcode, hunread, hlow, hhigh⟩, hdlc, hdata, hrest⟩ := canStore_remoteStored hk' dlc.isLt (s.stampAgo ago)
  have hexec : exec (.canRemoteFrameReceive c ident ide dlc ago) s
      = s.ends ((s.canHeard c.val).canStore c.val ident.toNat ide [] (some dlc.val) (s.stampAgo ago)) := by
    have h : exec (.canRemoteFrameReceive c ident ide dlc ago) s = execCanRemoteFrameReceive c ident ide dlc ago s := rfl
    rw [h, execCanRemoteFrameReceive, if_pos hears]
  refine .of hexec ⟨?_, ⟨?_, hunread, hlow, hhigh⟩, ?_, hdlc, fun i hi => (hdata i).trans ?_⟩
  · exact (State.get_congr (f := F.CAN_STAT_REC c.val) (hrest _ (stat_not_buf hn k))).trans hheard.recv
  · exact hcode.trans (by rw [hheard.unread])
  · exact (congrArg (· != 0) (State.get_congr (f := F.CAN_STAT_LONELY c.val) (hrest _ (stat_not_buf hn k)))).trans hlonely
  · exact hheard.word _ (not_book_buf (by simp only [R.CAN_BDATA]; omega)) (by simp only [R.CAN_BDATA, R.CAN_STAT]; omega)

/-- An error detected while receiving. -/
theorem busError_counts (dominant : Bool) : Completes (.canBusError c dominant) s fun t =>
    t.get (F.CAN_CNT_BUSERR c.val) = min 255 (s.get (F.CAN_CNT_BUSERR c.val) + 1)
      ∧ t.get (F.CAN_STAT_REC c.val) = min 128 (s.get (F.CAN_STAT_REC c.val) + if dominant then 8 else 1)
      ∧ t.get (F.CAN_STAT_ESTATE c.val) = if 128 ≤ s.get (F.CAN_STAT_TEC c.val) ∨ 128 ≤ t.get (F.CAN_STAT_REC c.val) then 1 else 0 := by
  have hexec : exec (.canBusError c dominant) s = s.ends (((s.bump (F.CAN_CNT_BUSERR c.val)).set (F.CAN_STAT_REC c.val)
      (min 128 (s.get (F.CAN_STAT_REC c.val) + if dominant then 8 else 1))).canState c.val) := by
    have h : exec (.canBusError c dominant) s = execCanBusError c dominant s := rfl
    rw [h, execCanBusError, if_pos hears]
  generalize hv : min 128 (s.get (F.CAN_STAT_REC c.val) + if dominant then 8 else 1) = v at hexec ⊢
  have hoff : s.canOff c.val = false := by
    rw [State.canHears] at hears
    simpa using (Bool.and_eq_true_iff.mp (Bool.and_eq_true_iff.mp hears).1).2
  generalize hu : (s.bump (F.CAN_CNT_BUSERR c.val)).set (F.CAN_STAT_REC c.val) v = u at hexec
  have hrec : u.get (F.CAN_STAT_REC c.val) = v := by
    rw [← hu, State.get_set _ _ _ (show 24 + 8 ≤ 32 by decide)]
    exact Nat.mod_eq_of_lt (show v < 256 by omega)
  have hback {f : Fld} (hf : f.addr = R.CAN_STAT c.val) (hap : f.Apart (F.CAN_STAT_REC c.val)) : u.get f = s.get f := by
    rw [← hu, get_set_of_apart hap, State.bump, State.bumpBy, State.get_set_addr _ _ (F.CAN_CNT_BUSERR c.val) _ (by rw [hf]; exact stat_ne_cnt _)]
  have htec : u.get (F.CAN_STAT_TEC c.val) = s.get (F.CAN_STAT_TEC c.val) := hback rfl (apart_above (show 16 + 8 ≤ 24 by decide))
  have huoff : u.canOff c.val = false := (congrArg (· == 2) (hback (f := F.CAN_STAT_ESTATE c.val) rfl (apart_above (show 0 + 2 ≤ 24 by decide)))).trans hoff
  have hcnt : u.get (F.CAN_CNT_BUSERR c.val) = min 255 (s.get (F.CAN_CNT_BUSERR c.val) + 1) := by
    rw [← hu, State.get_set_addr _ _ (F.CAN_STAT_REC c.val) _ (stat_ne_cnt _).symm, State.get_bump _ _ (show 8 + 8 ≤ 32 by decide)]
    rfl
  have hrec' : (u.canState c.val).get (F.CAN_STAT_REC c.val) = v := (canState_get u (show 2 ≤ 24 by decide)).trans hrec
  refine .of hexec ⟨?_, hrec', ?_⟩
  · exact (State.get_congr (f := F.CAN_CNT_BUSERR c.val) (canState_word u (stat_ne_cnt _).symm)).trans hcnt
  · refine (canState_estate u huoff).trans ?_
    rw [htec, hrec]
    exact if_congr (or_congr_right (by rw [← hrec']; rfl)) rfl rfl

/-- A reference starts the basic cycle. -/
theorem reference_starts (href : s.canRef c.val = 2) (d : List Byte) (ago : Nat) : Completes (.referenceFrameReceive c d ago) s fun t =>
    t.flag (F.CAN_STAT_REF_LOST c.val) = false ∧ (t.canC c.val).refRow = some (d.headD 0).toNat ∧ (t.canC c.val).refAt = s.now - ago := by
  have hn := c.isLt
  have hexec : exec (.referenceFrameReceive c d ago) s = s.ends (s.canFrame c.val (s.get (F.CAN_BID_ID c.val (s.get (F.CAN_CFG_REF_BUF c.val))))
      (s.flag (F.CAN_BCFG_IDE c.val (s.get (F.CAN_CFG_REF_BUF c.val))) || s.canN2k c.val) false d (s.now - ago)) := by
    have h : exec (.referenceFrameReceive c d ago) s = execReferenceFrameReceive c d ago s := rfl
    rw [h, execReferenceFrameReceive, if_pos (by simp [hears, href])]
  refine .of_ends hexec (fun _ _ h => h) ?_
  generalize hb : s.get (F.CAN_CFG_REF_BUF c.val) = b
  generalize hid : s.get (F.CAN_BID_ID c.val b) = ident
  generalize hide : (s.flag (F.CAN_BCFG_IDE c.val b) || s.canN2k c.val) = ide
  have hset := canSettled_frame hn (((s.canData c.val).canStore c.val ident ide (d.take 8) none (stampOf (s.now - ago))).canRefer c.val ident ide d (s.now - ago))
    ident ide (d.take 8) (stampOf (s.now - ago))
  have hrefer : ((s.canData c.val).canStore c.val ident ide (d.take 8) none (stampOf (s.now - ago))).canRefer c.val ident ide d (s.now - ago)
      = (((s.canData c.val).canStore c.val ident ide (d.take 8) none (stampOf (s.now - ago))).setFlag (F.CAN_STAT_REF_LOST c.val) false).modCan c.val
          fun x => { x with refAt := s.now - ago, refRow := some (d.headD 0).toNat } := by
    obtain ⟨hcfg, hbid, hmask, hideKept⟩ := canStore_setup hn (s.canData c.val) ident ide (d := d.take 8) (by simp) (stampOf (s.now - ago)) b
    have halike := (canData_heard hn s).1.alike
    have hbuf : ((s.canData c.val).canStore c.val ident ide (d.take 8) none (stampOf (s.now - ago))).get (F.CAN_CFG_REF_BUF c.val) = b :=
      ((State.get_congr (f := F.CAN_CFG_REF_BUF c.val) hcfg).trans (halike.get (f := F.CAN_CFG_REF_BUF c.val) (setup_cfg hn))).trans hb
    have hmode : ((s.canData c.val).canStore c.val ident ide (d.take 8) none (stampOf (s.now - ago))).canRef c.val = 2 :=
      (congrArg (· % 3) ((State.get_congr (f := F.CAN_CFG_REF_MODE c.val) hcfg).trans (halike.get (f := F.CAN_CFG_REF_MODE c.val) (setup_cfg hn)))).trans href
    have hn2k : ((s.canData c.val).canStore c.val ident ide (d.take 8) none (stampOf (s.now - ago))).canN2k c.val = s.canN2k c.val :=
      (congrArg (· != 0) (State.get_congr (f := F.CAN_CFG_PROFILE c.val) hcfg)).trans (halike.canN2k hn)
    have hmatch : ((s.canData c.val).canStore c.val ident ide (d.take 8) none (stampOf (s.now - ago))).canIdent c.val b ident ide = true := by
      rw [State.canIdent, hideKept, halike.flag (f := F.CAN_BCFG_IDE c.val b) (setup_bcfg _ _), hn2k, hide,
        State.get_congr (f := F.CAN_BID_ID c.val b) hbid, halike.get (f := F.CAN_BID_ID c.val b) (setup_bid _ _), hid]
      simp
    rw [State.canRefer, hbuf, hmode, hmatch]
    rfl
  rw [canFrame_eq]
  refine ⟨?_, (hset.refRow c.val).trans ?_, (hset.refAt c.val).trans ?_⟩
  · refine (congrArg (· != 0) (State.get_congr (f := F.CAN_STAT_REF_LOST c.val) (hset.word _ (canOwn_stat hn)))).trans ?_
    rw [hrefer]
    exact State.flag_setFlag _ _ false (show 4 + 1 ≤ 32 by decide) rfl
  · rw [hrefer, State.canC_modCan_same]
  · rw [hrefer, State.canC_modCan_same]

end

end Sys2Proof.Machine
end

-- ==== Enabling a CAN controller ====
section
/-!
PROOFS of the CAN controllers (O50): the start, and the statement.
-/
namespace Sys2Proof.Machine

/-! Enabling (R270, R271, R282). -/

/-- The registers a start shows frame times and forgotten names in. -/
def CanShown (a : Nat) : Prop := 0x400B0000 ≤ a ∧ a < 0x400C0000 ∧ (a < 0x400B8000 → 0x200 ≤ a % 0x1000)

/-- A start's counters and hidden state. -/
def State.canCleared (s : State) (n : Nat) : State :=
  let now := s.now
  let off := s.canOff n
  let t := if off then s else ((s.set (F.CAN_STAT_TEC n) 0).set (F.CAN_STAT_REC n) 0).canState n
  let sa0 := if t.canN2k n then (Config.n2kAddress n).toNat else (t.canC n).sa
  t.modCan n fun x => { x with slot := none, evReq := [], ackRun := 0, colAt := none, refAt := now, refRow := none, recover := off, sa := sa0 }

/-- A start's frame times and names. -/
def State.canShows (s : State) (n : Nat) : State :=
  (List.range 32).foldl (fun t i => t.nameForget n i) ((List.range 64).foldl (fun t b => t.canShowFt n b) s)

theorem canStart_eq (s : State) (n : Nat) : s.canStart n
    = if !((s.canCleared n).canShows n).canN2k n || ((s.canCleared n).canShows n).canMode n ≠ 0 then (s.canCleared n).canShows n
      else if s.canOff n then ((s.canCleared n).canShows n).modCan n fun x => { x with greet := true } else ((s.canCleared n).canShows n).greet n := rfl

theorem beside_canShows {n : Nat} (hn : n < 4) (s : State) : Beside CanShown [] s (s.canShows n) := by
  refine (beside_foldl (List.range 64) (fun t b hb => beside_set t _ ?_) s).trans (beside_foldl (List.range 32) (fun t i hi => ?_) _)
  · have := List.mem_range.mp hb
    simp only [CanShown, F.CAN_BST_FT_NS, R.CAN_BST]
    omega
  · have hreg : CanShown (R.CAN_NAMEST n i) := by
      have := List.mem_range.mp hi
      simp only [CanShown, R.CAN_NAMEST]
      omega
    exact (beside_set t 255 hreg).trans (beside_setFlag _ false hreg)

theorem not_shown_stat {n : Nat} (hn : n < 4) : ¬ CanShown (R.CAN_STAT n) := by simp only [CanShown, R.CAN_STAT]; omega

theorem not_shown_cfg {n : Nat} (hn : n < 4) : ¬ CanShown (R.CAN_CFG n) := by simp only [CanShown, R.CAN_CFG]; omega

theorem not_book_cfg {n : Nat} (hn : n < 4) : ¬ Book (R.CAN_CFG n) := by simp only [Book, R.CAN_CFG]; omega

section
variable {n : Nat} (s : State)

theorem canCleared_canC : ((s.canCleared n).canC n).slot = none ∧ ((s.canCleared n).canC n).evReq = [] := by
  rw [State.canCleared, State.canC_modCan_same]
  exact ⟨rfl, rfl⟩

theorem canCleared_out : (s.canCleared n).out = s.out := by
  rw [State.canCleared]
  split
  · rfl
  · exact (canStill_canState _).out

theorem canCleared_word {a : Nat} (ha : a ≠ R.CAN_STAT n) : (s.canCleared n).word a = s.word a := by
  rw [State.canCleared]
  split
  · rfl
  · rw [State.modCan_word, canState_word _ ha, State.word_set_ne _ _ _ ha, State.word_set_ne _ _ _ ha]

theorem canCleared_cfgerr : (s.canCleared n).flag (F.CAN_STAT_CFGERR n) = s.flag (F.CAN_STAT_CFGERR n) := by
  have hstate : (((s.set (F.CAN_STAT_TEC n) 0).set (F.CAN_STAT_REC n) 0).canState n).flag (F.CAN_STAT_CFGERR n) = s.flag (F.CAN_STAT_CFGERR n) := by
    rw [canState_flag _ (show 2 ≤ 3 by decide), flag_set_of_apart (apart_above (show 3 + 1 ≤ 24 by decide)),
      flag_set_of_apart (apart_above (show 3 + 1 ≤ 16 by decide))]
  rw [State.canCleared, State.modCan_flag]
  split
  · exact rfl
  · exact hstate

/-- Out of bus-off the counters start at 0. -/
theorem canCleared_counters (hoff : s.canOff n = false) : (s.canCleared n).get (F.CAN_STAT_TEC n) = 0 ∧ (s.canCleared n).get (F.CAN_STAT_REC n) = 0
    ∧ (s.canCleared n).get (F.CAN_STAT_ESTATE n) = 0 := by
  have htec : ((s.set (F.CAN_STAT_TEC n) 0).set (F.CAN_STAT_REC n) 0).get (F.CAN_STAT_TEC n) = 0 := by
    rw [get_set_of_apart (apart_above (show 16 + 8 ≤ 24 by decide)), State.get_set _ _ _ (show 16 + 8 ≤ 32 by decide), Nat.zero_mod]
  have hrec : ((s.set (F.CAN_STAT_TEC n) 0).set (F.CAN_STAT_REC n) 0).get (F.CAN_STAT_REC n) = 0 := by
    rw [State.get_set _ _ _ (show 24 + 8 ≤ 32 by decide), Nat.zero_mod]
  have hestate : ((s.set (F.CAN_STAT_TEC n) 0).set (F.CAN_STAT_REC n) 0).canOff n = false := by
    rw [State.canOff, get_set_of_apart (apart_above (show 0 + 2 ≤ 24 by decide)), get_set_of_apart (apart_above (show 0 + 2 ≤ 16 by decide))]
    exact hoff
  rw [State.canCleared, hoff]
  refine ⟨(canState_get _ (show 2 ≤ 16 by decide)).trans htec, (canState_get _ (show 2 ≤ 24 by decide)).trans hrec, (canState_estate _ hestate).trans ?_⟩
  rw [htec, hrec]
  rfl

end

/-- Setting EN leaves the other fields of CAN_CFG and gives the word its bit 0. -/
theorem into_en (n : Nat) (v : Word) : (F.CAN_CFG_EN n).into 1 v = v ||| 1 := by
  change (v &&& ~~~1#32) ||| 1#32 = v ||| 1#32
  rw [BitVec.or_comm, BitVec.or_comm v]
  refine BitVec.eq_of_getLsbD_eq fun i hi => ?_
  rw [BitVec.getLsbD_or, BitVec.getLsbD_or, BitVec.getLsbD_and, BitVec.getLsbD_not]
  cases h : (1#32 : Word).getLsbD i <;> simp [hi]

/-- The bits of CAN_CFG that a write sets hold no EN. -/
theorem cfg_en_masked (v : Word) : (v ||| 1) &&& 0x7FFE = v &&& 0x7FFE := by
  rw [BitVec.and_comm, BitVec.and_or_distrib_left, show (0x7FFE : Word) &&& 1 = 0#32 from rfl, BitVec.or_zero, BitVec.and_comm]

/-- A classical frame with a 29-bit identifier. -/
theorem classical_out (s : State) (n ident : Nat) (d : List Byte) :
    (s.canEmit n ident true false false d).out = .can n ident true false false false d :: s.out := rfl

/-- What the controller puts out as it starts, with its address. -/
def greeting (n sa : Nat) (name : List Byte) : List Output :=
  [.can n (pgnId 59904 255 sa) true false false false [0, 0xEE, 0], .can n (pgnId 60928 255 sa) true false false false name]

theorem greet_spec (s : State) (n : Nat) : (s.greet n).regs = s.regs ∧ (s.greet n).out = greeting n (s.canC n).sa s.ownName ++ s.out
    ∧ ((s.greet n).canC n).sa = (s.canC n).sa ∧ ((s.greet n).canC n).slot = (s.canC n).slot ∧ ((s.greet n).canC n).evReq = (s.canC n).evReq := by
  have hcanC : (s.greet n).canC n = { s.canC n with greet := false } := State.canC_modCan_same s n fun x => { x with greet := false }
  have hsa : ((s.modCan n fun x => { x with greet := false }).canC n).sa = (s.canC n).sa := (congrArg Can.sa hcanC).trans rfl
  have hclaim (t : State) : (t.sendClaim n).out = .can n (pgnId 60928 255 (t.canC n).sa) true false false false t.ownName :: t.out := classical_out t n _ _
  have hout : (s.greet n).out = greeting n (s.canC n).sa s.ownName ++ s.out := by
    rw [State.greet, classical_out, hclaim, hsa, show leBytes 3 60928 = [0, 0xEE, 0] from rfl]
    rfl
  exact ⟨rfl, hout, (congrArg Can.sa hcanC).trans rfl, (congrArg Can.slot hcanC).trans rfl, (congrArg Can.evReq hcanC).trans rfl⟩

/-- How a start ends: with a greeting, or one that waits for the recovery. -/
theorem started_spec {n : Nat} {s w t : State}
    (ht : t = if !s.canN2k n || s.canMode n ≠ 0 then w else if s.canOff n then w.modCan n fun x => { x with greet := true } else w.greet n)
    (hname : w.ownName = s.ownName) (hout : w.out = s.out) (hslot : (w.canC n).slot = none) (hev : (w.canC n).evReq = []) :
    t.regs = w.regs ∧ (t.canC n).slot = none ∧ (t.canC n).evReq = []
      ∧ t.out = if s.canN2k n = true ∧ s.canMode n = 0 ∧ s.canOff n = false then greeting n (t.canC n).sa s.ownName ++ s.out else s.out := by
  by_cases hprofile : s.canN2k n = true ∧ s.canMode n = 0
  · obtain ⟨h1, h2⟩ := hprofile
    rw [if_neg (by simp [h1, h2])] at ht
    cases hoff : s.canOff n with
    | true =>
      rw [if_pos hoff] at ht
      rw [ht, if_neg (by simp)]
      exact ⟨rfl, by rw [State.canC_modCan_same]; exact hslot, by rw [State.canC_modCan_same]; exact hev, hout⟩
    | false =>
      obtain ⟨hregs, hgreet, hsa, hgslot, hgev⟩ := greet_spec w n
      rw [if_neg (by simp [hoff])] at ht
      rw [ht, if_pos ⟨h1, h2, rfl⟩]
      exact ⟨hregs, hgslot.trans hslot, hgev.trans hev, by rw [hgreet, hsa, hname, hout]⟩
  · have hno : ¬ (s.canN2k n = true ∧ s.canMode n = 0 ∧ s.canOff n = false) := fun h => hprofile ⟨h.1, h.2.1⟩
    have hyes : (!s.canN2k n || decide (s.canMode n ≠ 0)) = true := by
      cases h : s.canN2k n with
      | false => rfl
      | true => simpa [h] using hprofile
    rw [if_pos hyes] at ht
    rw [ht, if_neg hno]
    exact ⟨rfl, hslot, hev, hout⟩

/-- What a start leaves. -/
theorem canStart_spec {n : Nat} (hn : n < 4) (s : State) : (∀ a, ¬ Book a → ¬ CanShown a → a ≠ R.CAN_STAT n → (s.canStart n).word a = s.word a)
    ∧ (s.canStart n).word (R.CAN_STAT n) = (s.canCleared n).word (R.CAN_STAT n)
    ∧ ((s.canStart n).canC n).slot = none ∧ ((s.canStart n).canC n).evReq = []
    ∧ (s.canStart n).out = if s.canN2k n = true ∧ s.canMode n = 0 ∧ s.canOff n = false then greeting n ((s.canStart n).canC n).sa s.ownName ++ s.out else s.out := by
  have hshows := beside_canShows hn (s.canCleared n)
  have hword {a : Nat} (hb : ¬ Book a) (hs : ¬ CanShown a) (hst : a ≠ R.CAN_STAT n) : ((s.canCleared n).canShows n).word a = s.word a :=
    (hshows.word a hb hs).trans (canCleared_word s hst)
  have hstat : ((s.canCleared n).canShows n).word (R.CAN_STAT n) = (s.canCleared n).word (R.CAN_STAT n) := hshows.word _ (not_book_stat hn) (not_shown_stat hn)
  have hcfg : ((s.canCleared n).canShows n).word (R.CAN_CFG n) = s.word (R.CAN_CFG n) :=
    hword (not_book_cfg hn) (not_shown_cfg hn) (by simp only [R.CAN_CFG, R.CAN_STAT]; omega)
  have hn2k : ((s.canCleared n).canShows n).canN2k n = s.canN2k n := congrArg (fun w => (F.CAN_CFG_PROFILE n).of w != 0) hcfg
  have hmode : ((s.canCleared n).canShows n).canMode n = s.canMode n := congrArg (fun w => (F.CAN_CFG_MODE n).of w % 3) hcfg
  have hname : ((s.canCleared n).canShows n).ownName = s.ownName := by
    have hotp (k : Nat) (hk : k < 8) : ((s.canCleared n).canShows n).word (R.OTP_CFG k) = s.word (R.OTP_CFG k) := by
      refine hword ?_ ?_ ?_
      · simp only [Book, R.OTP_CFG]; omega
      · simp only [CanShown, R.OTP_CFG]; omega
      · simp only [R.OTP_CFG, R.CAN_STAT]; omega
    rw [State.ownName, hotp 6 (by decide), hotp 7 (by decide)]
    rfl
  have hout : ((s.canCleared n).canShows n).out = s.out := (hshows.same .out (by decide)).trans (canCleared_out s)
  have hcanC : ((s.canCleared n).canShows n).canC n = (s.canCleared n).canC n := congrArg (fun l => l.getD n .init) (hshows.same .can (by decide))
  obtain ⟨hslot, hev⟩ := canCleared_canC (n := n) s
  rw [← hcanC] at hslot hev
  have hstart := canStart_eq s n
  rw [hn2k, hmode] at hstart
  obtain ⟨hregs, hnone, hnil, hgreets⟩ := started_spec hstart hname hout hslot hev
  have hsame (a : Nat) : (s.canStart n).word a = ((s.canCleared n).canShows n).word a := by rw [State.word, hregs, State.word]
  exact ⟨fun a hb hs hst => (hsame a).trans (hword hb hs hst), (hsame _).trans hstat, hnone, hnil, hgreets⟩

section
variable {s : State} {d : Dom} {c : Fin 4} {v : Word} (hdom : s.domOn 12 = true) (hd : d = .host ∨ d = .svc)
include hdom hd

/-- CAN_CFG as a write leaves it before EN. -/
theorem exec_canEnable (hen : s.flag (F.CAN_CFG_EN c.val) = false) : exec (.canEnable d c v) s = s.ends (
    if !(s.setWord (R.CAN_CFG c.val) (v &&& 0x7FFE)).canCheck c.val then (s.setWord (R.CAN_CFG c.val) (v &&& 0x7FFE)).setFlag (F.CAN_STAT_CFGERR c.val) true
    else (((s.setWord (R.CAN_CFG c.val) (v &&& 0x7FFE)).setFlag (F.CAN_STAT_CFGERR c.val) false).setFlag (F.CAN_CFG_EN c.val) true).canStart c.val) := by
  have h : exec (.canEnable d c v) s = execCanEnable d c v s := rfl
  have hlow : (v ||| 1#32).getLsbD 0 = true := by simp
  rw [h, execCanEnable, canCfgWrite, writeGuard_pass s _ (passes_can hd c).1 hdom]
  dsimp only
  rw [hlow, hen, show (v ||| 1#32) &&& 0x7FFE#32 = v &&& 0x7FFE from cfg_en_masked v]
  simp only [Bool.false_eq_true, if_false, Bool.not_true]
  split <;> rfl

theorem enable_badConfig (hen : s.flag (F.CAN_CFG_EN c.val) = false) (hbad : (s.setWord (R.CAN_CFG c.val) (v &&& 0x7FFE)).canCheck c.val = false) :
    Completes (.canEnable d c v) s fun t => t.flag (F.CAN_CFG_EN c.val) = false ∧ t.flag (F.CAN_STAT_CFGERR c.val) = true ∧ t.out = s.out := by
  have hexec := exec_canEnable hdom hd (v := v) hen
  rw [hbad] at hexec
  refine .of_ends hexec (fun _ _ h => h) ⟨?_, State.flag_setFlag _ _ true (show 3 + 1 ≤ 32 by decide) rfl, rfl⟩
  refine (flag_setFlag_of_apart (f := F.CAN_CFG_EN c.val) (g := F.CAN_STAT_CFGERR c.val)
    (.inl (by simp only [F.CAN_CFG_EN, F.CAN_STAT_CFGERR, R.CAN_CFG, R.CAN_STAT]; omega)) _ true).trans ?_
  have hword : (s.setWord (R.CAN_CFG c.val) (v &&& 0x7FFE)).word (R.CAN_CFG c.val) = v &&& 0x7FFE := State.word_setWord_same s _ _
  have hbit : ((F.CAN_CFG_EN c.val).of (v &&& 0x7FFE) != 0) = false := by
    have hand : (v &&& 0x7FFE).toNat % 2 = 0 := by
      rw [BitVec.toNat_and, show (0x7FFE : Word).toNat = 0x7FFE from rfl]
      exact (Nat.and_mod_two_pow (n := 1)).trans (Nat.and_zero _)
    change (((v &&& 0x7FFE).toNat / 2 ^ 0 % 2 ^ 1) != 0) = false
    rw [pow_zero, Nat.div_one, pow_one, hand]
    rfl
  exact (congrArg (fun w => (F.CAN_CFG_EN c.val).of w != 0) hword).trans hbit

theorem enable_starts (hen : s.flag (F.CAN_CFG_EN c.val) = false) (hgood : (s.setWord (R.CAN_CFG c.val) (v &&& 0x7FFE)).canCheck c.val = true) :
    Completes (.canEnable d c v) s fun t => t.word (R.CAN_CFG c.val) = (v &&& 0x7FFE) ||| 1 ∧ t.flag (F.CAN_STAT_CFGERR c.val) = false
      ∧ (t.canC c.val).slot = none ∧ (t.canC c.val).evReq = []
      ∧ (s.canOff c.val = false → t.get (F.CAN_STAT_TEC c.val) = 0 ∧ t.get (F.CAN_STAT_REC c.val) = 0 ∧ t.get (F.CAN_STAT_ESTATE c.val) = 0)
      ∧ t.out = if (s.setWord (R.CAN_CFG c.val) (v &&& 0x7FFE)).canN2k c.val = true ∧ (s.setWord (R.CAN_CFG c.val) (v &&& 0x7FFE)).canMode c.val = 0
          ∧ s.canOff c.val = false then greeting c.val (t.canC c.val).sa s.ownName ++ s.out else s.out := by
  have hn := c.isLt
  have hexec := exec_canEnable hdom hd (v := v) hen
  rw [hgood, if_neg (by decide)] at hexec
  have hcs : R.CAN_CFG c.val ≠ R.CAN_STAT c.val := by simp only [R.CAN_CFG, R.CAN_STAT]; omega
  generalize hp : s.setWord (R.CAN_CFG c.val) (v &&& 0x7FFE) = p at hexec ⊢
  have hpcfg : p.word (R.CAN_CFG c.val) = v &&& 0x7FFE := hp ▸ State.word_setWord_same s _ _
  have hpword {a : Nat} (ha : a ≠ R.CAN_CFG c.val) : p.word a = s.word a := hp ▸ State.word_setWord_ne s ha _
  generalize hu : (p.setFlag (F.CAN_STAT_CFGERR c.val) false).setFlag (F.CAN_CFG_EN c.val) true = u at hexec
  have hucfg : u.word (R.CAN_CFG c.val) = (v &&& 0x7FFE) ||| 1 := by
    rw [← hu]
    refine (State.word_setWord_same _ _ _).trans ?_
    rw [show (p.setFlag (F.CAN_STAT_CFGERR c.val) false).word (F.CAN_CFG_EN c.val).addr = p.word (R.CAN_CFG c.val) from State.word_setFlag_ne p _ false hcs, hpcfg]
    exact into_en c.val _
  have hapart {f : Fld} (haddr : f.addr = R.CAN_CFG c.val) (hlo : 1 ≤ f.lo) : u.get f = p.get f := by
    rw [← hu, get_setFlag_of_apart (g := F.CAN_CFG_EN c.val) (apart_below hlo), get_setFlag_of_apart (.inl (by rw [haddr]; exact hcs))]
  have hun2k : u.canN2k c.val = p.canN2k c.val := congrArg (· != 0) (hapart (f := F.CAN_CFG_PROFILE c.val) rfl (by simp [F.CAN_CFG_PROFILE]))
  have humode : u.canMode c.val = p.canMode c.val := congrArg (· % 3) (hapart (f := F.CAN_CFG_MODE c.val) rfl (by simp [F.CAN_CFG_MODE]))
  have hustat {f : Fld} (haddr : f.addr = R.CAN_STAT c.val) (hap : f.Apart (F.CAN_STAT_CFGERR c.val)) : u.get f = s.get f := by
    rw [← hu, get_setFlag_of_apart (.inl (by rw [haddr]; exact hcs.symm)), get_setFlag_of_apart hap]
    exact State.get_congr (hpword (by rw [haddr]; exact hcs.symm))
  have huoff : u.canOff c.val = s.canOff c.val := congrArg (· == 2) (hustat (f := F.CAN_STAT_ESTATE c.val) rfl (apart_above (show 0 + 2 ≤ 3 by decide)))
  have hucfgerr : u.flag (F.CAN_STAT_CFGERR c.val) = false := by
    rw [← hu, flag_setFlag_of_apart (.inl hcs.symm), State.flag_setFlag _ _ _ (show 3 + 1 ≤ 32 by decide) rfl]
  have huname : u.ownName = s.ownName := by
    have hotp (k : Nat) (hk : k < 8) : u.word (R.OTP_CFG k) = s.word (R.OTP_CFG k) := by
      rw [← hu, State.word_setFlag_ne _ _ _ (by simp only [F.CAN_CFG_EN, R.OTP_CFG, R.CAN_CFG]; omega),
        State.word_setFlag_ne _ _ _ (by simp only [F.CAN_STAT_CFGERR, R.OTP_CFG, R.CAN_STAT]; omega), hpword (by simp only [R.OTP_CFG, R.CAN_CFG]; omega)]
    rw [State.ownName, hotp 6 (by decide), hotp 7 (by decide)]
    rfl
  have huout : u.out = s.out := by rw [← hu, ← hp]; rfl
  obtain ⟨hword, hstat, hslot, hev, hout⟩ := canStart_spec hn u
  have hcfgerr := canCleared_cfgerr (n := c.val) u
  have hcleared := canCleared_counters (n := c.val) u
  generalize u.canCleared c.val = v₁ at hstat hcfgerr hcleared
  generalize u.canStart c.val = w at hexec hword hstat hslot hev hout
  refine .of_ends hexec (fun _ _ h => h) ⟨?_, ?_, hslot, hev, fun hoff => ?_, ?_⟩
  · exact (hword _ (not_book_cfg hn) (not_shown_cfg hn) hcs).trans hucfg
  · exact (congrArg (fun w => (F.CAN_STAT_CFGERR c.val).of w != 0) hstat).trans (hcfgerr.trans hucfgerr)
  · obtain ⟨htec, hrec, hest⟩ := hcleared (huoff.trans hoff)
    exact ⟨(congrArg (F.CAN_STAT_TEC c.val).of hstat).trans htec, (congrArg (F.CAN_STAT_REC c.val).of hstat).trans hrec,
      (congrArg (F.CAN_STAT_ESTATE c.val).of hstat).trans hest⟩
  · rw [hun2k, humode, huoff, huname, huout] at hout
    exact hout

theorem enable_enabled (hen : s.flag (F.CAN_CFG_EN c.val) = true) : Completes (.canEnable d c v) s fun t => t = s := by
  have hexec : exec (.canEnable d c v) s = s.ends s := by
    have h : exec (.canEnable d c v) s = execCanEnable d c v s := rfl
    have hlow : (v ||| 1#32).getLsbD 0 = true := by simp
    rw [h, execCanEnable, canCfgWrite, writeGuard_pass s _ (passes_can hd c).1 hdom]
    dsimp only
    rw [hlow, hen]
    rfl
  exact .of hexec rfl

end

theorem canOn_of {s : State} {n : Nat} (hdom : s.domOn 12 = true) (hen : s.flag (F.CAN_CFG_EN n) = true) : s.canOn n = true := by
  rw [State.canOn, hdom, hen]
  rfl

/-- Settles O50: one lemma for each way a controller is enabled, a column opens, a frame arrives and an attempt or a request ends. -/
theorem canControllers : Obligations.CanControllers := by
  intro s d c v idle ago dur b ident ide dominant data dlc hdom hd
  dsimp only
  refine ⟨fun hen => ⟨enable_starts hdom hd hen, enable_badConfig hdom hd hen⟩, enable_enabled hdom hd, ?_, fun hears => ⟨?_, ?_, ?_, ?_, ?_⟩,
    rxStatusRead_marks hdom, ?_, txreq_queued hdom hd, cancel_request hdom hd, fun hen => recovery_ends (canOn_of hdom hen), fun hen => refLost_forgets (canOn_of hdom hen)⟩
  · intro p hnext hen hoff hslot hdue href
    have hon := canOn_of hdom hen
    exact ⟨column_reference hon hnext hoff hslot hdue href, fun h1 => column_cell hon hnext hoff hslot hdue href h1,
      fun e l hev h1 => column_request hon hnext hoff hslot hdue href h1 hev⟩
  · intro k hk
    obtain ⟨t, ht, hrec, ⟨hcode, hunread, hlow, hhigh⟩, hlonely, hdlc, hdata⟩ := frame_stored hears hk data ago
    exact ⟨t, ht, hrec, ⟨hcode, hunread, hlow, hhigh⟩, hlonely, hdlc, hdata⟩
  · exact fun hk => frame_dropped hears hk data ago
  · intro k hk
    obtain ⟨t, ht, hrec, ⟨hcode, hunread, hlow, hhigh⟩, hlonely, hdlc, hdata⟩ := remote_stored hears hk dlc ago
    exact ⟨t, ht, hrec, ⟨hcode, hunread, hlow, hhigh⟩, hlonely, hdlc, hdata⟩
  · exact fun href => reference_starts hears href data ago
  · exact busError_counts hears dominant
  · intro w hslot hen hlate
    have hon := canOn_of hdom hen
    refine ⟨fun t0 hsof hdue => ⟨attempt_sent hon hslot hsof hlate hdue, attempt_loop hon hslot hsof hlate, fun hoff htec => ⟨?_, ?_, ?_⟩, fun htec hoff => ?_⟩,
      attempt_notStarted hon hslot, fun hbuf hev => ⟨fun t0 hsof => cancel_late hdom hd hev hslot hbuf hsof, cancel_slot hdom hd hev hslot hbuf⟩⟩
    · obtain ⟨t, ht, hnow, hretry, hack, hrises, hstays, hlonely⟩ := attempt_noAck hon hslot hsof hlate hoff hdue htec
      exact ⟨t, ht, hnow, hretry, hack, fun h _ => hrises h, hstays, hlonely⟩
    · exact attempt_lostArb hon hslot hsof hlate hoff
    · obtain ⟨t, ht, hretry, htecUp, hcount⟩ := attempt_error hon hslot hsof hlate hoff htec
      exact ⟨t, ht, hretry, fun _ => htecUp, hcount⟩
    · exact attempt_busOff hon hslot hsof hlate htec

end Sys2Proof.Machine
end

-- ==== GNSS_SLEEP with a register entered twice ====
section
/-!
PROOFS. The GNSS receiver's statement (O37) fails in its clause of GNSS_SLEEP, which it makes of every state, canonical or not: where the
register file holds two entries of PWR_DOM_REQ, the first of them equal to the reset value, the power-down drops the first and the second
shows.
-/
namespace Sys2Proof.Machine

-- The state below is concrete, and the kernel evaluates the model on it, one step after another.
set_option Elab.async false

/-- GNBB and GNRF are on; PWR_DOM_REQ is entered twice, at its reset value, which asks for neither, and with every domain asked for. -/
def requestEnteredTwice : State :=
  { State.reset with regs := [(R.PWR_DOM_REQ, resetWord R.PWR_DOM_REQ), (R.PWR_DOM_REQ, 0x3FFF), (R.PWR_DOM_STAT, 0x600)] }

/-- After the sleep GNBB is asked for. -/
theorem gnssSleep_requestEnteredTwice :
    Completes (.gnssSleep .host 0) requestEnteredTwice fun t => t.get F.PWR_DOM_REQ_REQ / 2 ^ 9 % 2 = 1 :=
  Completes.of rfl (by decide +kernel)

/-- What O37 says of the request. -/
theorem request_of_gnssReceiver (H : Obligations.GnssReceiver) :
    Completes (.gnssSleep .host 0) requestEnteredTwice fun t => t.get F.PWR_DOM_REQ_REQ / 2 ^ 9 % 2 = 0 := by
  obtain ⟨-, -, -, -, -, -, -, -, -, -, -, -, -, -, -, -, -, -, -, -, -, -, hsleep⟩ :=
    H requestEnteredTwice .host 0 0 ⟨[], none, [], [], none, [], [], [], [], (0, 0), []⟩ ⟨0, 0, 0, 0, []⟩ 0
      ⟨0, 0, 0, false, false, 0, 0, 0, [], none, none, none, false⟩ 0 0 0 [] 0 0 0 0 (.inl rfl) (by decide +kernel) (by decide +kernel)
      (by decide +kernel)
  obtain ⟨t, ht, -, -, hreq, -⟩ := hsleep
  exact ⟨t, ht, hreq⟩

/-- Refutes O37, in its clause of GNSS_SLEEP: from a register file with two entries of PWR_DOM_REQ, the first at its reset value, the
sleep leaves GNBB's request bit at 1. -/
theorem not_gnssReceiver : ¬ Obligations.GnssReceiver := by
  intro H
  obtain ⟨t, -, hmodel, hstated⟩ := gnssSleep_requestEnteredTwice.and (request_of_gnssReceiver H)
  exact absurd (hmodel.symm.trans hstated) (by decide)

end Sys2Proof.Machine
end

-- ==== What leaves the non-volatile memory alone, up to the lattice ====
section
/-!
PROOFS. What leaves the non-volatile memory alone (O6): the functions of the model up to the lattice that neither write it nor can reset
the device. One equation per function, in the model's order; the later sections unfold none of these functions.
The option -implicitDefEqProofs stands where the kernel would otherwise evaluate a state to compare two of its forms.
-/
namespace Sys2Proof.Machine

theorem State.commitShadow_nvm (s : State) (l : List Nat) : (s.commitShadow l).nvm = s.nvm :=
  foldl_keeps State.nvm _ (fun _ _ => by rfl) l s

theorem State.alcShadow_nvm (s : State) : s.alcShadow.nvm = s.nvm := by
  rw [State.alcShadow, State.modAlc_nvm, foldl_keeps State.nvm _ fun t k => t.commitShadow_nvm (alcSlotWords k),
    State.commitShadow_nvm]

theorem foldl_nvm {β : Type} {f : State → β → State} (h : ∀ t b, (f t b).nvm = t.nvm) (l : List β) (s : State) :
    (l.foldl f s).nvm = s.nvm := foldl_keeps State.nvm f h l s

theorem State.storeBytes_nvm : ∀ (l : List Byte) (s : State) (a : Nat), (s.storeBytes a l).nvm = s.nvm
  | [], _, _ => rfl
  | b :: l, s, a => (State.storeBytes_nvm l (s.setByte a b) (a + 1)).trans (s.setByte_nvm a b)

theorem State.offAccess_nvm (s : State) (p : Nat) : (s.offAccess p).nvm = s.nvm := by
  unfold State.offAccess
  split <;> simp only [State.bump_nvm]

theorem State.writeGuard_nvm {f : State → State × CpSt} (h : ∀ t : State, (f t).1.nvm = t.nvm) (s : State) (d : Dom)
    (a : Nat) : (s.writeGuard d a f).1.nvm = s.nvm := by
  unfold State.writeGuard
  split
  · rfl
  · split_ifs <;> simp only [h, State.offAccess_nvm]

theorem State.inDomain_nvm {f : State → State} (h : ∀ t : State, (f t).nvm = t.nvm) (s : State) (d : Nat) :
    (s.inDomain d f).nvm = s.nvm := by
  unfold State.inDomain
  split_ifs <;> simp only [h, State.offAccess_nvm]

theorem State.keyGuard_nvm {f : State → State × CpSt} (h : ∀ t : State, (f t).1.nvm = t.nvm) (s : State) (v : Word) :
    (s.keyGuard v f).1.nvm = s.nvm := by
  unfold State.keyGuard
  split_ifs <;> simp only [h, State.bump_nvm]

theorem foldl_fst_nvm {α β : Type} {f : State × α → β → State × α} (h : ∀ t b, (f t b).1.nvm = t.1.nvm) (l : List β)
    (s : State × α) :
    (l.foldl f s).1.nvm = s.1.nvm := foldl_keeps (fun t => t.1.nvm) f h l s

/-! Machine/Ops: bus writes and stores. -/

theorem State.st_nvm (s : State) (a n v : Nat) : (s.st a n v).nvm = s.nvm := by simp only [State.st, State.storeBytes_nvm]

theorem State.plainWrite_nvm (s : State) (d : Dom) (a : Nat) (v : Word) : (s.plainWrite d a v).1.nvm = s.nvm := by
  simp -implicitDefEqProofs only [State.plainWrite]
  split <;> simp -implicitDefEqProofs only [State.setWord_nvm, State.writeGuard_nvm, implies_true]

theorem State.shadowWrite_nvm (s : State) (d : Dom) (a : Nat) (v : Word) : (s.shadowWrite d a v).1.nvm = s.nvm := by
  simp -implicitDefEqProofs only [State.shadowWrite]
  split <;> simp -implicitDefEqProofs only [State.setShWord_nvm, State.writeGuard_nvm, implies_true]

/-! Machine/Pmu: the performance counters. -/

theorem State.pmuAddAt_nvm (s : State) (n k f : Nat) : (s.pmuAddAt n k f).1.nvm = s.nvm := by
  rw [pmuAddAt_rest]

theorem State.pmuSnap_nvm (s : State) : s.pmuSnap.nvm = s.nvm := by
  simp -implicitDefEqProofs only [State.pmuSnap, State.setShWord_nvm, State.setWord_nvm, State.set_nvm, foldl_nvm,
    implies_true]

theorem pmuCntWrite_nvm (s : State) (d : Dom) (a : Nat) (v : Word) : (pmuCntWrite s d a v).1.nvm = s.nvm := by
  simp only [pmuCntWrite, State.setShWord_nvm, State.setWord_nvm, State.writeGuard_nvm, implies_true, apply_ite State.nvm,
    ite_self, apply_ite Prod.fst]

theorem State.pmuLatch_nvm (s : State) (a : Nat) : (s.pmuLatch a).nvm = s.nvm := by
  simp only [State.pmuLatch, State.setWord_nvm]

theorem State.pmuRead_nvm (s : State) (d : Dom) (a : Nat) : (s.pmuRead d a).1.nvm = s.nvm := by
  simp only [State.pmuRead, State.pmuLatch_nvm, State.setFlag_nvm, apply_ite State.nvm, ite_self, apply_ite Prod.fst]

/-! Machine/Events: events and their rings. -/

theorem State.refreshLine_nvm (s : State) (x : Nat) : (s.refreshLine x).nvm = s.nvm := by
  simp only [State.refreshLine, State.setFlag_nvm, State.set_nvm]

theorem State.setDoze_nvm (s : State) (x : Nat) (on : Bool) : (s.setDoze x on).nvm = s.nvm := by
  simp -implicitDefEqProofs only [State.setDoze, State.modProc_nvm, State.set_nvm]

theorem State.pmuSpan_nvm (s : State) (t0 t1 ticks : Nat) : (s.pmuSpan t0 t1 ticks).nvm = s.nvm := by
  simp only [State.pmuSpan, State.arrive_nvm, State.pmuRaw_nvm, foldl_nvm, implies_true]

theorem State.runTicks_nvm (s : State) (k rest : Nat) : (s.runTicks k rest).nvm = s.nvm := by
  simp only [State.runTicks, State.pmuSpan_nvm]

theorem State.advanceBy_nvm (s : State) (n : Nat) : (s.advanceBy n).nvm = s.nvm := by
  simp only [State.advanceBy, State.advanceTo_nvm]

theorem State.advanceTicks_nvm (s : State) (k : Nat) : (s.advanceTicks k).nvm = s.nvm := by
  simp only [State.advanceTicks, State.advanceTo_nvm]

theorem State.freezeSlip_nvm (s : State) (n : Nat) : (s.freezeSlip n).nvm = s.nvm := by
  simp only [State.freezeSlip, State.arrive_nvm, State.drawn_nvm, State.pmuAddAt_nvm, foldl_nvm, implies_true,
    apply_ite State.nvm, ite_self, apply_ite Prod.fst]

theorem pmuCtlWrite_nvm (s : State) (d : Dom) (v : Word) : (pmuCtlWrite s d v).1.nvm = s.nvm := by
  simp only [pmuCtlWrite, State.freezeSlip_nvm, State.pmuSnap_nvm, State.setWord_nvm, State.writeGuard_nvm, foldl_nvm,
    implies_true, apply_ite State.nvm, ite_self]

theorem State.refreshWindow_nvm (s : State) : s.refreshWindow.nvm = s.nvm := by
  simp only [State.refreshWindow]
  split <;> simp only [State.setFlag_nvm, State.setWord_nvm]

theorem State.afterFree_nvm (s : State) (before : List Rec) : (s.afterFree before).nvm = s.nvm := by
  simp only [State.afterFree, State.bump_nvm, State.refreshWindow_nvm, State.set_nvm, apply_ite State.nvm, ite_self]

theorem State.archive_nvm (s : State) (r : Rec) : (s.archive r).nvm = s.nvm := by
  simp only [State.archive, State.bump_nvm, State.set_nvm, State.storeBytes_nvm, foldl_nvm, implies_true,
    apply_ite State.nvm, ite_self]

theorem State.putRec_nvm (s : State) (r : Rec) : (s.putRec r).nvm = s.nvm := by
  simp only [State.putRec, State.afterFree_nvm, State.archive_nvm, State.arrive_nvm, State.bump_nvm, State.pmu_nvm,
    State.setFlag_nvm, apply_ite State.nvm, ite_self]

theorem State.takeSeq_nvm (s : State) : s.takeSeq.nvm = s.nvm := by simp only [State.takeSeq, State.setWord_nvm]

theorem State.loafEnd_nvm (s : State) : s.loafEnd.nvm = s.nvm := by
  simp -implicitDefEqProofs only [State.loafEnd, State.afterFree_nvm, State.setFlag_nvm]
  repeat' split
  · rfl
  all_goals simp -implicitDefEqProofs only [State.afterFree_nvm, State.putRec_nvm, State.setFlag_nvm, State.takeSeq_nvm]

/-! Machine/CanBuf: the CAN buffers. -/

theorem State.canEmit_nvm (s : State) (c ident : Nat) (ide fdf brs : Bool) (d : List Byte) :
    (s.canEmit c ident ide fdf brs d).nvm = s.nvm := by
  simp only [State.canEmit, State.emit_nvm]

theorem State.canState_nvm (s : State) (c : Nat) : (s.canState c).nvm = s.nvm := by
  simp only [State.canState, State.set_nvm, apply_ite State.nvm, ite_self]

theorem State.canHeard_nvm (s : State) (c : Nat) : (s.canHeard c).nvm = s.nvm := by
  simp only [State.canHeard, State.canState_nvm, State.modCan_nvm, State.pmu_nvm, State.set_nvm]

theorem State.canData_nvm (s : State) (c : Nat) : (s.canData c).nvm = s.nvm := by
  simp only [State.canData, State.canHeard_nvm, State.setFlag_nvm]

theorem State.canShowFt_nvm (s : State) (c b : Nat) : (s.canShowFt c b).nvm = s.nvm := by
  simp only [State.canShowFt, State.set_nvm]

theorem State.canCapture_nvm (s : State) (c b : Nat) : (s.canCapture c b).nvm = s.nvm := by
  simp -implicitDefEqProofs only [State.canCapture]
  repeat' split
  all_goals rfl

/-! Machine/Servo: the servo loops. -/

theorem State.capTrigger_nvm (s : State) (u : Nat) : (s.capTrigger u).nvm = s.nvm := by
  simp only [State.capTrigger, State.modCap_nvm, State.set_nvm, apply_ite State.nvm, ite_self]

theorem State.capOn_nvm (s : State) (k n : Nat) : (s.capOn k n).nvm = s.nvm := by
  simp only [State.capOn, State.capTrigger_nvm, foldl_nvm, implies_true, apply_ite State.nvm, ite_self]

theorem State.srvSticky_nvm (s : State) (n : Nat) (m : Nat) : (s.srvSticky n m).nvm = s.nvm := by
  simp only [State.srvSticky, State.arrive_nvm, State.capOn_nvm, State.modLoop_nvm, State.set_nvm, apply_ite State.nvm,
    ite_self]

theorem State.capSample_nvm (s : State) (n : Nat) : (s.capSample n).nvm = s.nvm := by
  simp only [State.capSample, State.modCap_nvm, foldl_nvm, implies_true, apply_ite State.nvm, ite_self]

theorem State.encBad_nvm (s : State) (c : Nat) : (s.encBad c).nvm = s.nvm := by simp only [State.encBad, State.modSrv_nvm]

theorem State.encLatched_nvm (s : State) (n : Nat) : (s.encLatched n).nvm = s.nvm := by
  simp only [State.encLatched, State.modSrv_nvm]

theorem State.srvGo_nvm (s : State) (n st : Nat) : (s.srvGo n st).nvm = s.nvm := by
  simp only [State.srvGo, State.capOn_nvm, State.event_nvm, State.modLoop_nvm, State.setFlag_nvm, State.set_nvm,
    apply_ite State.nvm, ite_self]

theorem State.showBout_nvm (s : State) : s.showBout.nvm = s.nvm := by
  refine foldl_nvm (fun t k => ?_) _ s
  split <;> simp only [State.emit_nvm, State.modDsf_nvm, State.set_nvm, apply_ite State.nvm, ite_self]

theorem State.srvDrive_nvm (s : State) (n : Nat) (u : Int) : (s.srvDrive n u).nvm = s.nvm := by
  simp only [State.srvDrive]
  split <;> simp only [State.canCapture_nvm, State.emit_nvm, State.modLoop_nvm, State.setWord_nvm, State.set_nvm,
    State.showBout_nvm, foldl_nvm, implies_true, apply_ite State.nvm, ite_self]

theorem lreqWrite_nvm (s : State) (d : Dom) (n : Nat) (v : Word) : (lreqWrite s d n v).1.nvm = s.nvm := by
  simp only [lreqWrite, State.modLoop_nvm, State.setFlag_nvm, State.set_nvm, State.writeGuard_nvm, implies_true,
    apply_ite State.nvm, ite_self, apply_ite Prod.fst]

theorem State.applyCommit_nvm (s : State) (n : Nat) : (s.applyCommit n).nvm = s.nvm := by
  simp -implicitDefEqProofs only [State.applyCommit, State.commitShadow_nvm, State.modLoop_nvm, State.setWord_nvm,
    apply_ite State.nvm, ite_self]

theorem State.ymReset_nvm (s : State) (n : Nat) : (s.ymReset n).nvm = s.nvm := by
  simp only [State.ymReset, State.modLoop_nvm, State.setWord_nvm]

theorem State.toOpen_nvm (s : State) (n : Nat) (out : Int) : (s.toOpen n out).nvm = s.nvm := by
  simp only [State.toOpen, State.modLoop_nvm, State.setWord_nvm, State.srvGo_nvm]

theorem State.toFault_nvm (s : State) (n cause : Nat) : (s.toFault n cause).nvm = s.nvm := by
  simp only [State.toFault, State.set_nvm, State.srvGo_nvm]

theorem State.applyReq_nvm (s : State) (n : Nat) : (s.applyReq n).nvm = s.nvm := by
  simp -implicitDefEqProofs only [State.applyReq]
  repeat' split
  · rfl
  · simp -implicitDefEqProofs only [State.modLoop_nvm, State.toOpen_nvm, State.ymReset_nvm]
  · rfl
  · rfl
  · simp -implicitDefEqProofs only [State.modLoop_nvm, State.srvGo_nvm]
  · simp -implicitDefEqProofs only [State.modLoop_nvm, State.toOpen_nvm]
  · simp -implicitDefEqProofs only [State.modLoop_nvm, State.set_nvm, State.toOpen_nvm, State.ymReset_nvm]
  · rfl
  · rfl
  · rfl
  · simp -implicitDefEqProofs only [State.modLoop_nvm, State.srvGo_nvm]
  · simp -implicitDefEqProofs only [State.modLoop_nvm, State.srvGo_nvm]

theorem State.injStart_nvm (s : State) (n : Nat) : (s.injStart n).nvm = s.nvm := by
  simp only [State.injStart, State.capOn_nvm, State.modLoop_nvm, State.setFlag_nvm, State.setWord_nvm, apply_ite State.nvm,
    ite_self]

theorem State.injEnd_nvm (s : State) (n : Nat) : (s.injEnd n).nvm = s.nvm := by
  simp only [State.injEnd, State.modLoop_nvm, State.setFlag_nvm]

theorem State.injCount_nvm (s : State) (n : Nat) : (s.injCount n).nvm = s.nvm := by
  simp only [State.injCount]
  split <;> simp only [State.injEnd_nvm, State.modLoop_nvm, State.setWord_nvm, apply_ite State.nvm, ite_self]

theorem State.takeEntry_nvm (s : State) (n k : Nat) : (s.takeEntry n k).nvm = s.nvm := by
  simp only [State.takeEntry, State.bump_nvm, State.modLoop_nvm, State.setFlag_nvm, State.srvSticky_nvm,
    apply_ite State.nvm, ite_self]

theorem State.servoTick_nvm (s : State) : s.servoTick.nvm = s.nvm := by
  simp only [State.servoTick, State.modLoop_nvm, State.modSrv_nvm, State.takeEntry_nvm, foldl_nvm, implies_true,
    apply_ite State.nvm, ite_self]

theorem State.takeDue_nvm (s : State) (n : Nat) : (s.takeDue n).nvm = s.nvm := by
  simp only [State.takeDue]
  split <;> simp only [State.modLoop_nvm, State.takeEntry_nvm, apply_ite State.nvm, ite_self]

theorem State.putEntry_nvm (s : State) (k : Nat) (v0 v1 : Word) (take : Stamp) (rep : Bool) :
    (s.putEntry k v0 v1 take rep).nvm = s.nvm := by
  simp only [State.putEntry, State.modSrv_nvm, State.setFlag_nvm, State.setWord_nvm, State.set_nvm]

theorem State.servoCount_nvm (s : State) (n : Nat) : (s.servoCount n).nvm = s.nvm := by
  simp only [State.servoCount, State.advanceTo_nvm, State.pmu_nvm]

theorem State.holdStep_nvm (s : State) (n : Nat) (ok : Bool) : (s.holdStep n ok).nvm = s.nvm := by
  simp -implicitDefEqProofs only [State.holdStep, State.toFault_nvm, apply_ite State.nvm]
  repeat' split
  · rfl
  · rfl
  · simp -implicitDefEqProofs only [State.bump_nvm, State.srvGo_nvm]
  · simp -implicitDefEqProofs only [State.srvGo_nvm]
  · simp -implicitDefEqProofs only [State.toFault_nvm]
  · rfl
  · rfl

theorem State.periodStart_nvm (s : State) (n : Nat) : (s.periodStart n).nvm = s.nvm := by
  simp only [State.periodStart, State.applyCommit_nvm, State.applyReq_nvm, State.holdStep_nvm, State.injCount_nvm,
    State.injStart_nvm, State.modLoop_nvm, State.servoCount_nvm, State.servoTick_nvm, State.setFlag_nvm,
    State.showBout_nvm, State.takeDue_nvm, apply_ite State.nvm, ite_self]

theorem State.latchFb_nvm (s : State) (n : Nat) : (s.latchFb n).1.nvm = s.nvm := by
  simp -implicitDefEqProofs only [State.latchFb]
  repeat' split
  all_goals rfl

theorem State.law154_nvm (s : State) (n latch : Nat) : (s.law154 n latch).1.nvm = s.nvm := by
  simp only [State.law154, State.modLoop_nvm, State.setWord_nvm, State.srvDrive_nvm]

theorem State.plausible_nvm (s : State) (n : Nat) (ok : Bool) : (s.plausible n ok).nvm = s.nvm := by
  simp only [State.plausible, State.bump_nvm, State.modLoop_nvm, State.setWord_nvm, State.srvSticky_nvm,
    apply_ite State.nvm, ite_self]

theorem State.moveEncs_nvm (s : State) (moved : List (Fin 12 × Int)) : (s.moveEncs moved).nvm = s.nvm := by
  simp only [State.moveEncs, State.setWord_nvm, foldl_nvm, implies_true, apply_ite State.nvm, ite_self]

theorem State.latchSsi_nvm (s : State) (n : Nat) : (s.latchSsi n).nvm = s.nvm := by
  refine foldl_nvm (fun t c => ?_) _ s
  split
  · rfl
  · simp only [State.bump_nvm, State.modSrv_nvm, apply_ite State.nvm, ite_self]

theorem State.latchPeriod_nvm (s : State) (n : Nat) : (s.latchPeriod n).1.nvm = s.nvm := by
  simp only [State.latchPeriod, State.latchFb_nvm, State.latchSsi_nvm, State.modLoop_nvm, State.setFlag_nvm,
    State.setWord_nvm, apply_ite State.nvm, ite_self]

theorem State.servoOutput_nvm (s : State) (n : Nat) (moved : List (Fin 12 × Int)) : (s.servoOutput n moved).nvm = s.nvm := by
  simp -implicitDefEqProofs only [State.servoOutput, State.capSample_nvm, State.encLatched_nvm, State.plausible_nvm,
    State.srvSticky_nvm, apply_ite State.nvm]
  repeat' split
  · rfl
  all_goals simp -implicitDefEqProofs only [State.advanceTo_nvm, State.latchPeriod_nvm, State.law154_nvm, State.modLoop_nvm,
    State.moveEncs_nvm, State.srvDrive_nvm]

theorem injCtrlWrite_nvm (s : State) (d : Dom) (n : Nat) (v : Word) : (injCtrlWrite s d n v).1.nvm = s.nvm := by
  simp only [injCtrlWrite, State.injEnd_nvm, State.modLoop_nvm, State.writeGuard_nvm, implies_true, apply_ite State.nvm,
    ite_self]

theorem capCtrlWrite_nvm (s : State) (d : Dom) (u : Nat) (v : Word) : (capCtrlWrite s d u v).1.nvm = s.nvm := by
  simp only [capCtrlWrite, State.capTrigger_nvm, State.modCap_nvm, State.setFlag_nvm, State.set_nvm, State.writeGuard_nvm,
    implies_true, apply_ite State.nvm, ite_self, apply_ite Prod.fst]

theorem tblAccess_nvm (s : State) (wr : Option (Dom × Word)) : (tblAccess s wr).1.nvm = s.nvm := by
  simp -implicitDefEqProofs only [tblAccess]
  split <;> simp -implicitDefEqProofs only [State.inDomain_nvm, State.modLoop_nvm, State.set_nvm, State.writeGuard_nvm,
    implies_true]

theorem encCfgWrite_nvm (s : State) (d : Dom) (c a : Nat) (v : Word) : (encCfgWrite s d c a v).1.nvm = s.nvm := by
  simp only [encCfgWrite, State.encBad_nvm, State.plainWrite_nvm, apply_ite State.nvm, ite_self, apply_ite Prod.fst]

/-! Machine/Transmit: frames on their way out. -/

theorem State.frameIn_nvm (s : State) (p : Nat) : (s.frameIn p).nvm = s.nvm := by
  simp only [State.frameIn, State.pmu_nvm, apply_ite State.nvm, ite_self]

theorem State.descDone_nvm (s : State) (e : TxEnt) (status : Nat) : (s.descDone e status).nvm = s.nvm := by
  simp only [State.descDone]
  split <;> simp only [State.setByte_nvm, State.st_nvm]

theorem State.noteEgress_nvm (s : State) (p t : Nat) (f : TxFill) : (s.noteEgress p t f).nvm = s.nvm := by
  simp only [State.noteEgress]
  split <;> rfl

theorem State.leave_nvm (s : State) (p t : Nat) (e : TxEnt) (status : Nat) : (s.leave p t e status).nvm = s.nvm := by
  simp only [State.leave, State.descDone_nvm, State.emit_nvm, State.modNet_nvm, State.noteEgress_nvm, State.pmu_nvm]

theorem State.drain_nvm (p : Nat) : ∀ (k : Nat) (s : State), (s.drain p k).nvm = s.nvm
  | 0, _ => rfl
  | k + 1, s => by
    unfold State.drain
    split
    · rfl
    · simp only [drain_nvm p k, State.leave_nvm, State.modNet_nvm, apply_ite State.nvm, ite_self]

theorem State.flush_nvm (s : State) (p : Nat) : (s.flush p).nvm = s.nvm := State.drain_nvm p _ s

theorem State.flushAll_nvm (s : State) : s.flushAll.nvm = s.nvm := by
  simp only [State.flushAll, State.flush_nvm, foldl_nvm, implies_true]

theorem State.queueTx_nvm (s : State) (p : Nat) (e : TxEnt) : (s.queueTx p e).nvm = s.nvm := by
  simp only [State.queueTx, State.flush_nvm, State.modNet_nvm]

theorem State.sendFill_nvm (s : State) (p dst kind : Nat) (b : List Byte) (f : TxFill) :
    (s.sendFill p dst kind b f).nvm = s.nvm := by
  simp only [State.sendFill, State.queueTx_nvm]

theorem State.sendPlain_nvm (s : State) (p dst kind : Nat) (b : List Byte) : (s.sendPlain p dst kind b).nvm = s.nvm := by
  simp only [State.sendPlain, State.sendFill_nvm]

theorem State.launchOne_nvm (s : State) (p : Nat) : (s.launchOne p).nvm = s.nvm := by
  simp only [State.launchOne]
  split <;> simp only [State.advanceTo_nvm, State.bump_nvm, State.descDone_nvm, State.flush_nvm, State.leave_nvm,
    State.modNet_nvm, apply_ite State.nvm, ite_self]

theorem State.launchDue_nvm (p : Nat) : ∀ (k : Nat) (s : State), (s.launchDue p k).nvm = s.nvm
  | 0, _ => rfl
  | k + 1, s => by
    unfold State.launchDue
    split
    · simp only [launchDue_nvm p k, State.launchOne_nvm, apply_ite State.nvm, ite_self]
    · rfl

theorem State.launchAll_nvm (s : State) (ps : List Nat) : (s.launchAll ps).nvm = s.nvm :=
  foldl_nvm (fun t p => State.launchDue_nvm p _ t) ps s

theorem State.releaseTx_nvm (s : State) : s.releaseTx.nvm = s.nvm := by
  simp only [State.releaseTx, State.flush_nvm, State.launchAll_nvm, State.modNet_nvm, foldl_nvm, implies_true,
    apply_ite State.nvm, ite_self]

theorem State.sendTwin_nvm (s : State) (typ flags dst : Nat) (payload : List Byte) (launch : Option Stamp) :
    (s.sendTwin typ flags dst payload launch).nvm = s.nvm := by
  simp only [State.sendTwin, State.bump_nvm, State.launchAll_nvm, State.modNet_nvm, State.queueTx_nvm, foldl_nvm,
    implies_true, apply_ite State.nvm, ite_self]

theorem State.dropCmds_nvm (s : State) : s.dropCmds.nvm = s.nvm := by simp only [State.dropCmds, State.modNet_nvm]

/-! Machine/Time: time and its references. -/

theorem State.setInc_nvm (s : State) (v : Int) : (s.setInc v).nvm = s.nvm := by
  simp only [State.setInc, State.event_nvm, State.setFlag_nvm, State.set_nvm, apply_ite State.nvm, ite_self]

theorem State.tick_nvm (s : State) : s.tick.nvm = s.nvm := by
  simp only [State.tick, State.runTicks_nvm, apply_ite State.nvm, ite_self]

theorem State.setTq_nvm (s : State) (q : Nat) : (s.setTq q).nvm = s.nvm := by
  simp only [State.setTq, State.event_nvm, State.set_nvm, apply_ite State.nvm, ite_self]

theorem State.setAcc_nvm (s : State) (ns : Nat) : (s.setAcc ns).nvm = s.nvm := by simp only [State.setAcc, State.setWord_nvm]

theorem State.setPhase_nvm (s : State) (ph : Int) : (s.setPhase ph).nvm = s.nvm := by
  simp only [State.setPhase, State.modTime_nvm, State.setInc_nvm]

theorem State.measure_nvm (s : State) (r : Nat) (ofs : Int) : (s.measure r ofs).nvm = s.nvm := by
  simp only [State.measure]
  split <;> simp only [State.drawn_nvm, State.modRef_nvm, State.modTime_nvm, apply_ite State.nvm, ite_self]

theorem State.discipline_nvm (s : State) (ofs : Int) : (s.discipline ofs).nvm = s.nvm := by
  simp only [State.discipline, State.drawn_nvm, State.setPhase_nvm]

theorem State.accFrom_nvm (s : State) (r : Nat) : (s.accFrom r).nvm = s.nvm := by
  simp only [State.accFrom, State.modTime_nvm, State.setAcc_nvm]

theorem State.slewDone_nvm (s : State) : s.slewDone.nvm = s.nvm := by
  simp only [State.slewDone, State.accFrom_nvm, State.discipline_nvm, State.setTq_nvm, apply_ite State.nvm, ite_self]

theorem State.slewBy_nvm (s : State) (ofs : Int) : (s.slewBy ofs).nvm = s.nvm := by
  simp only [State.slewBy, State.modTime_nvm, State.setPhase_nvm, State.slewDone_nvm]

theorem State.startSlew_nvm (s : State) (r : Nat) (ofs : Int) : (s.startSlew r ofs).nvm = s.nvm := by
  simp only [State.startSlew, State.measure_nvm, State.setAcc_nvm, State.setTq_nvm, State.set_nvm, State.slewBy_nvm]

theorem State.lockTo_nvm (s : State) (r : Nat) (ofs : Int) : (s.lockTo r ofs).nvm = s.nvm := by
  simp only [State.lockTo, State.accFrom_nvm, State.discipline_nvm, State.measure_nvm, State.setTq_nvm, State.set_nvm]

theorem State.refuseOfs_nvm (s : State) (r : Nat) : (s.refuseOfs r).nvm = s.nvm := by
  simp only [State.refuseOfs, State.modRef_nvm, State.setFlag_nvm]

theorem State.showOfs_nvm (s : State) (r : Nat) (fresh : Bool) : (s.showOfs r fresh).nvm = s.nvm := by
  simp only [State.showOfs, State.modTime_nvm, State.seti_nvm, apply_ite State.nvm, ite_self]

theorem State.noRef_nvm (s : State) : s.noRef.nvm = s.nvm := by
  simp only [State.noRef, State.modTime_nvm, State.setPhase_nvm, State.set_nvm]

theorem State.toHoldover_nvm (s : State) : s.toHoldover.nvm = s.nvm := by
  simp only [State.toHoldover, State.noRef_nvm, State.setAcc_nvm, State.setTq_nvm, apply_ite State.nvm, ite_self]

theorem State.takeOfs_nvm (s : State) (r : Nat) (ofs : Int) : (s.takeOfs r ofs).nvm = s.nvm := by
  simp only [State.takeOfs, State.refuseOfs_nvm, State.startSlew_nvm, apply_ite State.nvm, ite_self]

theorem State.setGnTq_nvm (s : State) (q : Nat) : (s.setGnTq q).nvm = s.nvm := by
  simp only [State.setGnTq, State.event_nvm, State.set_nvm, apply_ite State.nvm, ite_self]

theorem State.gnSlewDone_nvm (s : State) : s.gnSlewDone.nvm = s.nvm := by
  simp only [State.gnSlewDone, State.setGnTq_nvm, State.setWord_nvm, apply_ite State.nvm, ite_self]

theorem State.stepDone_nvm (s : State) : s.stepDone.nvm = s.nvm := by
  simp -implicitDefEqProofs only [State.stepDone, State.accFrom_nvm, State.modRef_nvm, State.modTime_nvm, State.noRef_nvm,
    State.record_nvm, State.setAcc_nvm, State.setFlag_nvm, State.setGnTq_nvm, State.setPhase_nvm, State.setTq_nvm,
    State.setWord_nvm, State.set_nvm, apply_ite State.nvm, ite_self]
  repeat' split
  · rfl
  · simp -implicitDefEqProofs only [State.modRef_nvm, State.record_nvm, State.setFlag_nvm]
  · rfl

theorem State.stepRefused_nvm (s : State) : s.stepRefused.1.nvm = s.nvm := by simp only [State.stepRefused, State.setFlag_nvm]

theorem timeRefWrite_nvm (s : State) (d : Dom) (v : Word) : (timeRefWrite s d v).1.nvm = s.nvm := by
  simp only [timeRefWrite, State.noRef_nvm, State.plainWrite_nvm, State.setAcc_nvm, State.setTq_nvm, apply_ite State.nvm,
    ite_self, apply_ite Prod.fst]

theorem timeIncWrite_nvm (s : State) (d : Dom) (hi : Bool) (v : Word) : (timeIncWrite s d hi v).1.nvm = s.nvm := by
  simp only [timeIncWrite, State.modTime_nvm, State.setInc_nvm, State.writeGuard_nvm, implies_true, apply_ite State.nvm,
    ite_self, apply_ite Prod.fst]

theorem State.readNow_nvm (s : State) : s.readNow.nvm = s.nvm := by
  simp -implicitDefEqProofs only [State.readNow, State.setWord_nvm]

theorem timeLeapWrite_nvm (s : State) (d : Dom) (v : Word) : (timeLeapWrite s d v).1.nvm = s.nvm := by
  simp only [timeLeapWrite, State.set_nvm, State.writeGuard_nvm, implies_true, apply_ite State.nvm, ite_self,
    apply_ite Prod.fst]

theorem State.leapFrom_nvm (s : State) (utc leap days : Nat) : (s.leapFrom utc leap days).nvm = s.nvm := by
  simp only [State.leapFrom, State.modTime_nvm, State.setFlag_nvm, State.set_nvm]

theorem State.setPstate_nvm (s : State) (p q : Nat) : (s.setPstate p q).nvm = s.nvm := by
  simp only [State.setPstate, State.modPort_nvm, State.set_nvm, apply_ite State.nvm, ite_self]

theorem ptpRoleWrite_nvm (s : State) (d : Dom) (v : Word) : (ptpRoleWrite s d v).1.nvm = s.nvm := by
  simp only [ptpRoleWrite, State.modPort_nvm, State.plainWrite_nvm, State.setPstate_nvm, foldl_nvm, implies_true,
    apply_ite State.nvm, ite_self]

theorem State.setMpd_nvm (s : State) (p : Nat) (d : Int) : (s.setMpd p d).nvm = s.nvm := by
  simp only [State.setMpd, State.modPort_nvm, State.seti_nvm]

theorem State.ptpSend_nvm (s : State) (p typ seq flags : Nat) (corr : Int) (logi : Nat) (body : List Byte) (f : TxFill) :
    (s.ptpSend p typ seq flags corr logi body f).nvm = s.nvm := by
  simp only [State.ptpSend, State.sendFill_nvm]

theorem State.bmcPort_nvm (s : State) (p : Nat) (timeout : Bool) : (s.bmcPort p timeout).nvm = s.nvm := by
  simp only [State.bmcPort, State.modPort_nvm, State.setPstate_nvm, apply_ite State.nvm, ite_self]

theorem State.annLeap_nvm (s : State) (p : Nat) (m : AnnMsg) : (s.annLeap p m).nvm = s.nvm := by
  simp only [State.annLeap, State.leapFrom_nvm, apply_ite State.nvm, ite_self]

theorem State.popCapture_nvm (s : State) (n : Nat) : (s.popCapture n).nvm = s.nvm := by
  simp -implicitDefEqProofs only [State.popCapture]
  split <;> simp -implicitDefEqProofs only [State.modTime_nvm, State.setFlag_nvm, State.setWord_nvm, State.set_nvm]

/-! Machine/Streams: the streams. -/

theorem State.showTrk_nvm (s : State) (n : Nat) : (s.showTrk n).nvm = s.nvm := by simp only [State.showTrk, State.setWord_nvm]

theorem State.setLstate_nvm (s : State) (n st : Nat) : (s.setLstate n st).nvm = s.nvm := by
  simp only [State.setLstate, State.set_nvm]

theorem State.trkLearn_nvm (s : State) (n : Nat) (d arr : Int) : (s.trkLearn n d arr).nvm = s.nvm := by
  simp only [State.trkLearn, State.modStream_nvm, State.set_nvm, State.showTrk_nvm, apply_ite State.nvm, ite_self]

theorem State.trkLocked_nvm (s : State) (n : Nat) (d : Int) : (s.trkLocked n d).nvm = s.nvm := by
  simp -implicitDefEqProofs only [State.trkLocked, State.bump_nvm, State.modStream_nvm, State.setLstate_nvm, State.seti_nvm,
    State.showTrk_nvm, apply_ite State.nvm, ite_self]

theorem State.offsetTrack_nvm (s : State) (n : Nat) (arr src : Int) : (s.offsetTrack n arr src).nvm = s.nvm := by
  simp -implicitDefEqProofs only [State.offsetTrack, apply_ite State.nvm]
  repeat' split
  · rfl
  · simp -implicitDefEqProofs only [State.trkLearn_nvm]
  · simp -implicitDefEqProofs only [State.trkLearn_nvm]
  · simp -implicitDefEqProofs only [State.trkLocked_nvm]
  · rfl

theorem State.queueWrite_nvm (s : State) (n : Nat) (e : Entry) : (s.queueWrite n e).nvm = s.nvm := by
  simp only [State.queueWrite, State.bump_nvm, State.modStream_nvm, State.offsetTrack_nvm, apply_ite State.nvm, ite_self]

theorem State.sentenceTo_nvm (s : State) (kind port : Nat) (x : Sentence) (tag : Option Int) (arr : Stamp) (n typ : Nat) :
    (s.sentenceTo kind port x tag arr n typ).nvm = s.nvm := by
  simp -implicitDefEqProofs only [State.sentenceTo, State.bump_nvm, apply_ite State.nvm]
  repeat' split
  · rfl
  · rfl
  · rfl
  · simp -implicitDefEqProofs only [State.queueWrite_nvm]
  · rfl

theorem State.gstWait_nvm (s : State) (kind port : Nat) (x : Sentence) (arr : Stamp) :
    (s.gstWait kind port x arr).nvm = s.nvm := by
  simp only [State.gstWait, State.modFe_nvm]

theorem State.sentence_nvm (s : State) (kind port : Nat) (x : Sentence) (tag : Option Int) (arr : Stamp) :
    (s.sentence kind port x tag arr).nvm = s.nvm := by
  simp only [State.sentence, State.gstWait_nvm, State.modFe_nvm, State.sentenceTo_nvm, foldl_nvm, implies_true,
    apply_ite State.nvm, ite_self]

theorem State.binTo_nvm (s : State) (b : List Byte) (whole : Bool) (arr : Stamp) (n : Nat) :
    (s.binTo b whole arr n).nvm = s.nvm := by
  simp only [State.binTo, State.bump_nvm, State.queueWrite_nvm, foldl_nvm, implies_true, apply_ite State.nvm, ite_self]

theorem State.binary_nvm (s : State) (kind port : Nat) (b : List Byte) (whole : Bool) (arr : Stamp) :
    (s.binary kind port b whole arr).nvm = s.nvm := by
  simp only [State.binary, State.binTo_nvm, foldl_nvm, implies_true, apply_ite State.nvm, ite_self]

theorem State.rtcm_nvm (s : State) (kind port : Nat) (b : List Byte) (whole : Bool) (arr : Stamp) :
    (s.rtcm kind port b whole arr).nvm = s.nvm := by
  simp only [State.rtcm]
  split <;> simp only [State.bump_nvm, State.queueWrite_nvm, apply_ite State.nvm, ite_self]

theorem State.n2kMessage_nvm (s : State) (c pgn sa : Nat) (b : List Byte) (arr : Stamp) :
    (s.n2kMessage c pgn sa b arr).nvm = s.nvm := by
  simp only [State.n2kMessage, State.bump_nvm, State.queueWrite_nvm, foldl_nvm, implies_true, apply_ite State.nvm, ite_self]

theorem State.dropFast_nvm (s : State) (c sa pgn : Nat) : (s.dropFast c sa pgn).nvm = s.nvm := by
  simp only [State.dropFast, State.modFe_nvm]

theorem State.fastLost_nvm (s : State) (e : FastPkt) : (s.fastLost e).nvm = s.nvm := by
  simp -implicitDefEqProofs only [State.fastLost, State.bump_nvm, foldl_nvm, implies_true]

theorem State.fastStep_nvm (s : State) (e : FastPkt) : (s.fastStep e).nvm = s.nvm := by
  simp only [State.fastStep, State.dropFast_nvm, State.modFe_nvm, State.n2kMessage_nvm, apply_ite State.nvm, ite_self]

theorem State.fastFrame_nvm (s : State) (c sa pgn : Nat) (b : List Byte) (arr : Stamp) :
    (s.fastFrame c sa pgn b arr).nvm = s.nvm := by
  simp -implicitDefEqProofs only [State.fastFrame, State.fastStep_nvm, apply_ite State.nvm]
  repeat' split
  · simp -implicitDefEqProofs only [State.dropFast_nvm, State.fastLost_nvm]
  · rfl
  · rfl
  · simp -implicitDefEqProofs only [State.fastStep_nvm]
  · simp -implicitDefEqProofs only [State.dropFast_nvm, State.fastLost_nvm]

theorem State.sendClaim_nvm (s : State) (c : Nat) : (s.sendClaim c).nvm = s.nvm := by
  simp only [State.sendClaim, State.canEmit_nvm]

theorem State.isoRequest_nvm (s : State) (c dst pgn : Nat) : (s.isoRequest c dst pgn).nvm = s.nvm := by
  simp only [State.isoRequest, State.sendClaim_nvm, apply_ite State.nvm, ite_self]

theorem State.claimNames_nvm (s : State) (c : Nat) (name : Word64) (sa : Nat) : (s.claimNames c name sa).nvm = s.nvm := by
  simp only [State.claimNames, State.setFlag_nvm, State.set_nvm, foldl_nvm, implies_true, apply_ite State.nvm, ite_self]

theorem State.addressClaim_nvm (s : State) (c : Nat) (name : Word64) (sa : Nat) : (s.addressClaim c name sa).nvm = s.nvm := by
  simp only [State.addressClaim, State.claimNames_nvm, State.modCan_nvm, State.sendClaim_nvm, apply_ite State.nvm, ite_self]

theorem State.n2kFrame_nvm (s : State) (c ident : Nat) (b : List Byte) (arr : Stamp) :
    (s.n2kFrame c ident b arr).nvm = s.nvm := by
  simp only [State.n2kFrame, State.addressClaim_nvm, State.fastFrame_nvm, State.isoRequest_nvm, State.n2kMessage_nvm,
    apply_ite State.nvm, ite_self]

theorem State.remember_nvm (s : State) (k : Nat × Nat × Nat) : (s.remember k).nvm = s.nvm := by
  simp only [State.remember, State.modFe_nvm]

theorem State.clearRuns_nvm (s : State) (n : Nat) : (s.clearRuns n).nvm = s.nvm := by
  simp only [State.clearRuns, State.modStream_nvm, State.set_nvm]

theorem State.learnStart_nvm (s : State) (n : Nat) : (s.learnStart n).nvm = s.nvm := by
  simp only [State.learnStart, State.setLstate_nvm]

theorem State.countTracks_nvm (s : State) : s.countTracks.nvm = s.nvm := by
  simp only [State.countTracks, State.set_nvm, apply_ite State.nvm, ite_self]

theorem State.freeTrack_nvm (s : State) (j : Nat) : (s.freeTrack j).nvm = s.nvm := by
  simp only [State.freeTrack, State.setWord_nvm]

theorem State.streamOff_nvm (s : State) (n : Nat) : (s.streamOff n).nvm = s.nvm := by
  simp -implicitDefEqProofs only [State.streamOff, State.clearRuns_nvm, State.countTracks_nvm, State.freeTrack_nvm,
    State.modStream_nvm, foldl_nvm, implies_true, apply_ite State.nvm, ite_self]

theorem fscCfgWrite_nvm (s : State) (d : Dom) (n : Nat) (v : Word) : (fscCfgWrite s d n v).1.nvm = s.nvm := by
  simp only [fscCfgWrite, State.learnStart_nvm, State.modStream_nvm, State.setWord_nvm, State.streamOff_nvm,
    State.writeGuard_nvm, implies_true, apply_ite State.nvm, ite_self, apply_ite Prod.fst]

theorem fscMatchWrite_nvm (s : State) (d : Dom) (n : Nat) (v : Word) : (fscMatchWrite s d n v).1.nvm = s.nvm := by
  simp only [fscMatchWrite, State.plainWrite_nvm, State.writeGuard_nvm, implies_true, apply_ite State.nvm, ite_self,
    apply_ite Prod.fst]

theorem ofscfgWrite_nvm (s : State) (d : Dom) (n : Nat) (v : Word) : (ofscfgWrite s d n v).1.nvm = s.nvm := by
  simp only [ofscfgWrite, State.learnStart_nvm, State.plainWrite_nvm, apply_ite State.nvm, ite_self, apply_ite Prod.fst]

theorem State.readOfsl_nvm (s : State) (n : Nat) : (s.readOfsl n).nvm = s.nvm := by
  simp only [State.readOfsl, State.setWord_nvm]

theorem State.modUart_nvm (s : State) (p : Nat) (f : Uart → Uart) : (s.modUart p f).nvm = s.nvm := by
  simp only [State.modUart, State.modFe_nvm, State.set_nvm]

theorem State.uartErr_nvm (s : State) (p : Nat) (f : Fld) : (s.uartErr p f).nvm = s.nvm := by
  simp only [State.uartErr, State.event_nvm, State.setFlag_nvm, apply_ite State.nvm, ite_self]

theorem State.uartHeard_nvm (s : State) (p : Nat) : (s.uartHeard p).nvm = s.nvm := by
  simp -implicitDefEqProofs only [State.uartHeard, State.bump_nvm, State.modUart_nvm, State.pmu_nvm, State.setFlag_nvm]

theorem State.uartItem_nvm (s : State) (p parse : Nat) (b : List Byte) (whole : Bool) (arr : Stamp) :
    (s.uartItem p parse b whole arr).nvm = s.nvm := by
  simp only [State.uartItem]
  split <;> simp only [State.binary_nvm, State.rtcm_nvm, State.sentence_nvm]

theorem State.uartParse_nvm (s : State) (p : Nat) (ch : Byte) (start : Nat) : (s.uartParse p ch start).nvm = s.nvm := by
  simp only [State.uartParse, State.modUart_nvm, State.uartItem_nvm, apply_ite State.nvm, ite_self]

theorem State.uartWhole_nvm (s : State) (p parse : Nat) (b : List Byte) (ago : Nat) :
    (s.uartWhole p parse b ago).nvm = s.nvm := by
  simp only [State.uartWhole, State.modUart_nvm, State.uartHeard_nvm, State.uartItem_nvm, foldl_nvm, implies_true,
    apply_ite State.nvm, ite_self]

theorem State.uartRead_nvm (s : State) (p : Nat) : (s.uartRead p).nvm = s.nvm := by
  simp -implicitDefEqProofs only [State.uartRead]
  split <;> simp -implicitDefEqProofs only [State.modUart_nvm, State.setWord_nvm]

theorem uartDataWrite_nvm (s : State) (d : Dom) (p : Nat) (v : Word) : (uartDataWrite s d p v).1.nvm = s.nvm := by
  simp only [uartDataWrite, State.emit_nvm, State.modUart_nvm, State.writeGuard_nvm, implies_true, apply_ite State.nvm,
    ite_self, apply_ite Prod.fst]

theorem uartCfgWrite_nvm (s : State) (d : Dom) (p : Nat) (v : Word) : (uartCfgWrite s d p v).1.nvm = s.nvm := by
  simp only [uartCfgWrite, State.modUart_nvm, State.plainWrite_nvm, State.writeGuard_nvm, implies_true, apply_ite State.nvm,
    ite_self, apply_ite Prod.fst]

theorem State.showSig_nvm (s : State) : s.showSig.nvm = s.nvm := by simp only [State.showSig, State.setWord_nvm]

theorem State.putPeer_nvm (s : State) (p : Peer) : (s.putPeer p).nvm = s.nvm := by
  simp only [State.putPeer, State.modFe_nvm, State.setWord_nvm]

theorem State.zalEvt_nvm (s : State) (f : Fld) : (s.zalEvt f).nvm = s.nvm := by
  simp only [State.zalEvt, State.event_nvm, State.setFlag_nvm, apply_ite State.nvm, ite_self]

theorem State.hello_nvm (s : State) (h : Hello) : (s.hello h).nvm = s.nvm := by
  simp -implicitDefEqProofs only [State.hello, State.zalEvt_nvm, apply_ite State.nvm]
  repeat' split
  · rfl
  · rfl
  · simp -implicitDefEqProofs only [State.putPeer_nvm, State.zalEvt_nvm]
  · simp -implicitDefEqProofs only [State.putPeer_nvm, State.zalEvt_nvm]
  · rfl
  · simp -implicitDefEqProofs only [State.putPeer_nvm, State.zalEvt_nvm]
  · simp -implicitDefEqProofs only [State.putPeer_nvm, State.zalEvt_nvm]

theorem discCtrlWrite_nvm (s : State) (d : Dom) (v : Word) : (discCtrlWrite s d v).1.nvm = s.nvm := by
  simp only [discCtrlWrite, State.putPeer_nvm, State.setWord_nvm, State.writeGuard_nvm, State.zalEvt_nvm, foldl_nvm,
    implies_true, apply_ite State.nvm, ite_self, apply_ite Prod.fst]

/-! Machine/Filter: the signal filters. -/

theorem State.setLeft_nvm (s : State) (n count : Nat) : (s.setLeft n count).nvm = s.nvm := by
  simp only [State.setLeft, State.modDsf_nvm, State.set_nvm]

theorem State.unproof_nvm (s : State) (n count : Nat) : (s.unproof n count).nvm = s.nvm := by
  simp -implicitDefEqProofs only [State.unproof, State.setFlag_nvm, State.setLeft_nvm, State.set_nvm]

theorem State.proofAll_nvm (s : State) (n : Nat) : (s.proofAll n).nvm = s.nvm := by
  simp -implicitDefEqProofs only [State.proofAll, State.unproof_nvm]

theorem State.endSwap_nvm (s : State) (n : Nat) : (s.endSwap n).nvm = s.nvm := by
  simp only [State.endSwap, State.bump_nvm, State.modDsf_nvm, State.setFlag_nvm, State.set_nvm, apply_ite State.nvm,
    ite_self]

theorem State.dsfRestart_nvm (s : State) (n : Nat) (baseHalf : Nat) : (s.dsfRestart n baseHalf).nvm = s.nvm := by
  simp only [State.dsfRestart, State.modDsf_nvm]

theorem State.dsfStart_nvm (s : State) (n : Nat) : (s.dsfStart n).nvm = s.nvm := by
  simp only [State.dsfStart, State.dsfRestart_nvm, State.proofAll_nvm, State.setFlag_nvm, State.set_nvm]

theorem State.dsfStop_nvm (s : State) (n : Nat) : (s.dsfStop n).nvm = s.nvm := by
  simp -implicitDefEqProofs only [State.dsfStop, State.endSwap_nvm, State.modDsf_nvm, State.setFlag_nvm, State.unproof_nvm]

theorem dsfCfgWrite_nvm (s : State) (d : Dom) (n : Nat) (v : Word) : (dsfCfgWrite s d n v).1.nvm = s.nvm := by
  simp -implicitDefEqProofs only [dsfCfgWrite, State.dsfStart_nvm, State.dsfStop_nvm, State.endSwap_nvm, State.modDsf_nvm,
    State.proofAll_nvm, State.setWord_nvm, State.set_nvm, State.writeGuard_nvm, implies_true, apply_ite State.nvm, ite_self,
    apply_ite Prod.fst]

theorem dsfEnsetWrite_nvm (s : State) (d : Dom) (v : Word) : (dsfEnsetWrite s d v).1.nvm = s.nvm := by
  simp only [dsfEnsetWrite, State.dsfStart_nvm, State.setFlag_nvm, State.writeGuard_nvm, foldl_nvm, implies_true,
    apply_ite State.nvm, ite_self]

theorem State.syncReset_nvm (s : State) (edge : Nat) : (s.syncReset edge).nvm = s.nvm := by
  simp -implicitDefEqProofs only [State.syncReset, State.bump_nvm, State.dsfRestart_nvm, State.endSwap_nvm,
    State.proofAll_nvm, State.setFlag_nvm, foldl_nvm, implies_true, apply_ite State.nvm, ite_self]

theorem syncCtrlWrite_nvm (s : State) (d : Dom) (v : Word) : (syncCtrlWrite s d v).1.nvm = s.nvm := by
  simp only [syncCtrlWrite, State.plainWrite_nvm, State.setFlag_nvm, apply_ite State.nvm, ite_self, apply_ite Prod.fst]

theorem bankReqWrite_nvm (s : State) (d : Dom) (n : Nat) (v : Word) : (bankReqWrite s d n v).1.nvm = s.nvm := by
  simp only [bankReqWrite, State.bump_nvm, State.modDsf_nvm, State.setFlag_nvm, State.writeGuard_nvm, implies_true,
    apply_ite State.nvm, ite_self, apply_ite Prod.fst]

theorem State.takeBank_nvm (s : State) (n : Nat) (b : Bool) : (s.takeBank n b).nvm = s.nvm := by
  simp -implicitDefEqProofs only [State.takeBank, State.bump_nvm, State.modDsf_nvm, State.setFlag_nvm, State.set_nvm,
    State.unproof_nvm, apply_ite State.nvm, ite_self]

theorem coefAccess_nvm (s : State) (wr : Option (Dom × Word)) : (coefAccess s wr).1.nvm = s.nvm := by
  simp only [coefAccess]
  split <;> simp only [State.bump_nvm, State.modDsf_nvm, State.set_nvm, State.writeGuard_nvm, implies_true,
    apply_ite State.nvm, ite_self, apply_ite Prod.fst]

theorem State.detect_nvm (s : State) (n : Nat) (x : Int) : (s.detect n x).nvm = s.nvm := by
  simp only [State.detect, State.modDsf_nvm, State.set_nvm, apply_ite State.nvm, ite_self]

theorem State.sincStep_nvm (s : State) (n : Nat) (bits : List Bool) : (s.sincStep n bits).nvm = s.nvm := by
  simp only [State.sincStep, State.detect_nvm, State.modDsf_nvm]

theorem State.firA_nvm (s : State) (n : Nat) : (s.firA n).nvm = s.nvm := by
  simp only [State.firA, State.modDsf_nvm, State.setFlag_nvm, apply_ite State.nvm, ite_self]

theorem State.threshold_nvm (s : State) (n : Nat) (x : Int) : (s.threshold n x).1.nvm = s.nvm := by
  simp only [State.threshold, State.bump_nvm, State.event_nvm, State.set_nvm, apply_ite State.nvm, ite_self,
    apply_ite Prod.fst]

theorem State.dsfStream_nvm (s : State) (n : Nat) (x : Int) (ts : Nat) : (s.dsfStream n x ts).nvm = s.nvm := by
  simp only [State.dsfStream, State.modDsf_nvm, State.queueWrite_nvm, foldl_nvm, implies_true, apply_ite State.nvm, ite_self]

theorem State.fadeEnd_nvm (s : State) (n : Nat) : (s.fadeEnd n).nvm = s.nvm := by
  simp only [State.fadeEnd, State.modDsf_nvm, State.setFlag_nvm, State.set_nvm, State.takeBank_nvm, apply_ite State.nvm,
    ite_self]

theorem State.proofCount_nvm (s : State) (n : Nat) : (s.proofCount n).nvm = s.nvm := by
  simp only [State.proofCount, State.modDsf_nvm, State.setFlag_nvm, State.setLeft_nvm, State.set_nvm, apply_ite State.nvm,
    ite_self]

theorem State.dsfSample_nvm (s : State) (n : Nat) (own pair : List Bool) : (s.dsfSample n own pair).nvm = s.nvm := by
  unfold State.dsfSample
  split
  · rfl
  · extract_lets w r1 d nx s₁ bits s₂ s₃ c act out old ph new f k ts
    have h₃ : s₃.nvm = s.nvm := by
      simp only [s₃, s₂, s₁, foldl_nvm, implies_true, State.firA_nvm, State.sincStep_nvm, State.modDsf_nvm, State.pmu_nvm,
        State.advanceTo_nvm]
    split
    next y sat _ =>
    extract_lets s₄ s₅ proofed s₆ r s₇ s₈ k' s₉
    have h₆ : s₆.nvm = s.nvm := by
      simp only [s₆, s₅, s₄, h₃, State.setFlag_nvm, State.set_nvm, State.modDsf_nvm, State.setWord_nvm, apply_ite State.nvm,
        ite_self]
    have h₇ : s₇.nvm = s.nvm := by
      simp only [s₇, r, h₆, State.dsfStream_nvm, State.threshold_nvm, State.modDsf_nvm, apply_ite State.nvm, ite_self]
    have h₉ : s₉.nvm = s.nvm := by
      simp only [s₉, s₈, h₇, State.proofCount_nvm, State.fadeEnd_nvm, State.modDsf_nvm, apply_ite State.nvm, ite_self]
    split
    · rw [State.takeBank_nvm, State.modDsf_nvm, h₉]
    · exact h₉

theorem dsfThrWrite_nvm (s : State) (d : Dom) (n a : Nat) (v : Word) : (dsfThrWrite s d n a v).1.nvm = s.nvm := by
  simp only [dsfThrWrite, State.modDsf_nvm, State.plainWrite_nvm, State.set_nvm, apply_ite State.nvm, ite_self,
    apply_ite Prod.fst]

theorem boutWrite_nvm (s : State) (d : Dom) (a : Nat) (v : Word) : (boutWrite s d a v).1.nvm = s.nvm := by
  simp only [boutWrite, State.plainWrite_nvm, State.showBout_nvm, apply_ite State.nvm, ite_self, apply_ite Prod.fst]

/-! Machine/Lattice: the safety lattice. -/

theorem State.stageCheck_nvm (s : State) (c : Nat) (v0 v1 : Word) : (s.stageCheck c v0 v1).1.nvm = s.nvm := by
  simp only [State.stageCheck, State.bump_nvm, State.event_nvm, apply_ite State.nvm, ite_self, apply_ite Prod.fst]

theorem State.entryCheck_nvm (s : State) (c : Nat) (v0 v1 : Word) : (s.entryCheck c v0 v1).1.nvm = s.nvm := by
  simp only [State.entryCheck, State.bump_nvm, apply_ite State.nvm, ite_self, apply_ite Prod.fst]

theorem State.switches_nvm (s : State) : s.switches.nvm = s.nvm := by
  simp only [State.switches, State.emit_nvm, State.modKz_nvm, foldl_nvm, implies_true, apply_ite State.nvm, ite_self]

theorem State.kzGo_nvm (s : State) (st : Nat) : (s.kzGo st).nvm = s.nvm := by
  simp only [State.kzGo, State.event_nvm, State.set_nvm, apply_ite State.nvm, ite_self]

theorem State.sltNow_nvm (s : State) : s.sltNow.nvm = s.nvm := by
  simp only [State.sltNow, State.setWord_nvm, foldl_nvm, implies_true, apply_ite State.nvm, ite_self]

theorem State.siPairs_nvm (s : State) : s.siPairs.nvm = s.nvm := by
  simp only [State.siPairs, State.modKz_nvm, State.set_nvm, foldl_nvm, implies_true, apply_ite State.nvm, ite_self]

theorem State.paramLoad_nvm (s : State) : s.paramLoad.nvm = s.nvm := by
  simp only [State.paramLoad, State.modKz_nvm, State.plainWrite_nvm, State.siPairs_nvm, State.sltNow_nvm, foldl_nvm,
    implies_true, apply_ite State.nvm, ite_self]

theorem State.paramDue_nvm (s : State) : s.paramDue.nvm = s.nvm := by
  simp only [State.paramDue, State.paramLoad_nvm, apply_ite State.nvm, ite_self]

theorem State.kzWithdraw_nvm (s : State) (why : Nat) : (s.kzWithdraw why).nvm = s.nvm := by
  simp only [State.kzWithdraw, State.kzGo_nvm, State.paramDue_nvm, State.set_nvm, State.switches_nvm, apply_ite State.nvm,
    ite_self]

theorem State.kzArm_nvm (s : State) : s.kzArm.nvm = s.nvm := by
  simp only [State.kzArm, State.kzGo_nvm, State.modKz_nvm, State.sltNow_nvm, State.switches_nvm]

theorem State.kzDegrade_nvm (s : State) : s.kzDegrade.nvm = s.nvm := by
  simp only [State.kzDegrade, State.kzGo_nvm, State.modKch_nvm, State.modKz_nvm, State.setFlag_nvm, State.set_nvm,
    State.sltNow_nvm, foldl_nvm, implies_true, apply_ite State.nvm, ite_self]

theorem State.kzRecover_nvm (s : State) : s.kzRecover.nvm = s.nvm := by
  simp -implicitDefEqProofs only [State.kzRecover, State.kzGo_nvm, State.modKch_nvm, State.setFlag_nvm, State.set_nvm,
    State.sltNow_nvm, foldl_nvm, implies_true]

theorem State.setFaults_nvm (s : State) (m : Nat) : (s.setFaults m).nvm = s.nvm := by
  simp only [State.setFaults, State.event_nvm, State.kzDegrade_nvm, State.kzWithdraw_nvm, State.modKz_nvm, State.set_nvm,
    apply_ite State.nvm, ite_self]

theorem State.kzLatch_nvm (s : State) (b : Nat) : (s.kzLatch b).nvm = s.nvm := by
  simp only [State.kzLatch, State.modKz_nvm, State.setFaults_nvm]

theorem State.speGate_nvm (s : State) : s.speGate.nvm = s.nvm := by
  simp only [State.speGate, State.modKz_nvm, State.setFlag_nvm, apply_ite State.nvm, ite_self]

theorem State.autoArm_nvm (s : State) : s.autoArm.nvm = s.nvm := by
  simp only [State.autoArm, State.kzArm_nvm, State.setFlag_nvm, apply_ite State.nvm, ite_self]

theorem State.kzTimers_nvm (s : State) : s.kzTimers.nvm = s.nvm := by
  simp only [State.kzTimers, State.kzRecover_nvm, State.kzWithdraw_nvm, State.set_nvm, apply_ite State.nvm, ite_self]

theorem State.latReceive_nvm (s : State) (x : LatIn) (c : Nat) : (s.latReceive x c).nvm = s.nvm := by
  simp -implicitDefEqProofs only [State.latReceive, State.modKch_nvm, apply_ite State.nvm]
  repeat' split
  all_goals rfl

theorem State.kzTrip_nvm (s : State) (c : Nat) : (s.kzTrip c).nvm = s.nvm := by
  simp only [State.kzTrip, State.event_nvm, State.set_nvm, apply_ite State.nvm, ite_self]

theorem State.checkOut_nvm (s : State) (c : Nat) : (s.checkOut c).1.nvm = s.nvm := by
  simp only [State.checkOut, State.kzTrip_nvm, State.modKch_nvm, State.set_nvm, apply_ite State.nvm, ite_self,
    apply_ite Prod.fst]

theorem State.kzSectors_nvm (s : State) (c : Nat) : (s.kzSectors c).nvm = s.nvm := by
  simp only [State.kzSectors, State.modKch_nvm, State.set_nvm, foldl_nvm, implies_true, apply_ite State.nvm, ite_self]

theorem State.kzSltGrace_nvm (s : State) (c : Nat) : (s.kzSltGrace c).nvm = s.nvm := by
  simp only [State.kzSltGrace]
  split <;> simp only [State.modKch_nvm, State.setFlag_nvm, apply_ite State.nvm, ite_self]

theorem State.rateIn_nvm (s : State) (x : LatIn) : (s.rateIn x).nvm = s.nvm := by
  simp only [State.rateIn, State.modKz_nvm, apply_ite State.nvm, ite_self]

theorem State.kzReadback_nvm (s : State) (x : LatIn) : (s.kzReadback x).nvm = s.nvm := by
  simp only [State.kzReadback, State.kzLatch_nvm, State.modKz_nvm, State.set_nvm, apply_ite State.nvm, ite_self]

theorem State.optJudge_nvm (s : State) : s.optJudge.nvm = s.nvm := by
  simp only [State.optJudge]
  split <;> simp only [State.kzLatch_nvm, State.modKz_nvm, apply_ite State.nvm, ite_self]

theorem State.latticeEval_nvm (s : State) (x : LatIn) : (s.latticeEval x).nvm = s.nvm := by
  simp -implicitDefEqProofs only [State.latticeEval, State.advanceTo_nvm, State.autoArm_nvm, State.checkOut_nvm,
    State.kzLatch_nvm, State.kzReadback_nvm, State.kzSectors_nvm, State.kzSltGrace_nvm, State.kzTimers_nvm,
    State.kzWithdraw_nvm, State.latReceive_nvm, State.modKch_nvm, State.modKz_nvm, State.optJudge_nvm, State.paramDue_nvm,
    State.rateIn_nvm, State.setFaults_nvm, State.setWord_nvm, State.siPairs_nvm, State.sltNow_nvm, State.speGate_nvm,
    State.switches_nvm, foldl_nvm, foldl_fst_nvm, implies_true, apply_ite State.nvm, ite_self]

theorem State.safeJudge_nvm (s : State) (req ch : Nat) : (s.safeJudge req ch).1.nvm = s.nvm := by
  unfold State.safeJudge
  split_ifs
  · simp -implicitDefEqProofs only [State.setFlag_nvm]
  · extract_lets st rest b ok s₁ rb sc keep kept sk s₂
    have h₁ : s₁.nvm = s.nvm := by simp -implicitDefEqProofs only [s₁, State.setFlag_nvm]
    split_ifs
    · exact h₁
    · have h₂ : s₂.nvm = s.nvm := by
        simp -implicitDefEqProofs only [s₂]
        split <;> simp -implicitDefEqProofs only [sk, State.kzArm_nvm, State.kzWithdraw_nvm, State.modKz_nvm,
          State.setFaults_nvm, State.set_nvm, h₁]
      rw [State.switches_nvm, h₂]

theorem safeReqWrite_nvm (s : State) (d : Dom) (v : Word) : (safeReqWrite s d v).1.nvm = s.nvm := by
  simp only [safeReqWrite, State.keyGuard_nvm, State.safeJudge_nvm, State.writeGuard_nvm, implies_true]

theorem State.setSwitch_nvm (s : State) (core : Bool) (k : Nat) (on : Bool) : (s.setSwitch core k on).nvm = s.nvm := by
  simp only [State.setSwitch, State.emit_nvm, State.modKz_nvm]

theorem State.srtBlock_nvm (s : State) : s.srtBlock.nvm = s.nvm := by
  simp -implicitDefEqProofs only [State.srtBlock, State.advanceTo_nvm, State.kzWithdraw_nvm, State.modKz_nvm,
    State.setFlag_nvm, apply_ite State.nvm, ite_self]

theorem State.speEval_nvm (s : State) : s.speEval.nvm = s.nvm := by
  simp only [State.speEval, State.event_nvm, State.kzWithdraw_nvm, State.modKz_nvm, State.setFlag_nvm, State.speGate_nvm,
    apply_ite State.nvm, ite_self]

end Sys2Proof.Machine
end

-- ==== What leaves the non-volatile memory alone, from the power domains on ====
section
/-!
PROOFS. What leaves the non-volatile memory alone (O6): the functions of the model from the power domains on, in the model's order; of
those that write another part of it, that they leave the OTP array alone.
-/
namespace Sys2Proof.Machine

/-! Machine/Power: domains and resets. -/

theorem State.pwrRefused_nvm (s : State) : s.pwrRefused.nvm = s.nvm := by
  simp only [State.pwrRefused, State.event_nvm, State.setFlag_nvm, apply_ite State.nvm, ite_self]

theorem State.shadowHeld_nvm (s : State) : s.shadowHeld.nvm = s.nvm := by
  simp only [State.shadowHeld, State.setFlag_nvm, apply_ite State.nvm, ite_self]

theorem State.timeKept_nvm (s : State) : s.timeKept.nvm = s.nvm := by
  simp only [State.timeKept, State.setTq_nvm, apply_ite State.nvm, ite_self]

theorem State.gpioReleased_nvm (s t : State) : (s.gpioReleased t).nvm = t.nvm := by
  simp only [State.gpioReleased, foldl_nvm, implies_true, State.emit_nvm, apply_ite State.nvm, ite_self]

theorem State.ppsReleased_nvm (s t : State) : (s.ppsReleased t).nvm = t.nvm := by
  simp only [State.ppsReleased, foldl_nvm, implies_true, State.emit_nvm, apply_ite State.nvm, ite_self]

theorem State.switchOn_nvm (s : State) (d : Nat) : (s.switchOn d).nvm = s.nvm := by
  simp only [State.switchOn, State.modPwr_nvm, State.set_nvm, apply_ite State.nvm, ite_self]

theorem State.kickWdog_nvm (s : State) : s.kickWdog.nvm = s.nvm := by simp only [State.kickWdog, State.modTime_nvm]

theorem wdogWrite_nvm (s : State) (d : Dom) (v : Word) : (wdogWrite s d v).1.nvm = s.nvm := by
  simp only [wdogWrite, State.set_nvm, State.writeGuard_nvm, implies_true, apply_ite State.nvm, ite_self, apply_ite Prod.fst]

theorem pforceWrite_nvm (s : State) (d : Dom) (v : Word) : (pforceWrite s d v).1.nvm = s.nvm := by
  simp only [pforceWrite, State.emit_nvm, State.keyGuard_nvm, State.modPwr_nvm, State.writeGuard_nvm, implies_true,
    apply_ite State.nvm, ite_self, apply_ite Prod.fst]

/-! Machine/Jobs: the solver fabric. -/

theorem State.jobIrq_nvm (s : State) (proc tag status reason : Nat) : (s.jobIrq proc tag status reason).nvm = s.nvm := by
  simp only [State.jobIrq, State.event_nvm, apply_ite State.nvm, ite_self]

theorem State.countStatus_nvm (s : State) (status : Nat) : (s.countStatus status).nvm = s.nvm := by
  simp only [State.countStatus]
  split <;> simp only [State.bump_nvm]

theorem State.writeOut_nvm (s : State) (j : Job) (i : Iter) : (s.writeOut j i).nvm = s.nvm := by
  simp only [State.writeOut, State.storeBytes_nvm, apply_ite State.nvm, ite_self]

theorem subHWrite_nvm (s : State) (d : Dom) (x : Nat) (v : Word) : (subHWrite s d x v).1.nvm = s.nvm := by
  simp only [subHWrite, State.offAccess_nvm, State.plainWrite_nvm, apply_ite State.nvm, ite_self, apply_ite Prod.fst]

theorem State.scratch_nvm (s : State) (j : Job) (corr : Nat) (ecc : Bool) : (s.scratch j corr ecc).1.nvm = s.nvm := by
  simp only [State.scratch, State.bumpBy_nvm, State.bump_nvm, apply_ite State.nvm, ite_self, apply_ite Prod.fst]

theorem State.factorWrite_nvm (s : State) (j : Job) : (s.factorWrite j).nvm = s.nvm := by
  simp only [State.factorWrite]
  split <;> simp only [State.storeBytes_nvm, apply_ite State.nvm, ite_self]

theorem State.stopUnit_nvm (s : State) (unit : Nat) : (s.stopUnit unit).nvm = s.nvm := by
  simp only [State.stopUnit, State.bump_nvm, State.setFlag_nvm, State.set_nvm]
  split <;> simp only [State.setFlag_nvm]

/-! Machine/Snap: the snap. -/

theorem State.setVec_nvm (s : State) (l : List Nat) (v : List Word64) : (s.setVec l v).nvm = s.nvm := by
  simp -implicitDefEqProofs only [State.setVec, State.set64_nvm, foldl_nvm, implies_true]

theorem State.lateEntry_nvm (s : State) (n : Nat) (prev : Stamp) (e : Entry) : (s.lateEntry n prev e).nvm = s.nvm := by
  simp only [State.lateEntry, State.bump_nvm, State.record_nvm, State.set_nvm, apply_ite State.nvm, ite_self]

theorem State.imageCfg_nvm (s : State) (n : Nat) : (s.imageCfg n).nvm = s.nvm := by
  simp only [State.imageCfg, State.modStream_nvm]

theorem State.latch_nvm (s : State) (n : Nat) (snap prev : Stamp) : (s.latch n snap prev).nvm = s.nvm := by
  simp only [State.latch]
  split <;> simp only [State.bumpBy_nvm, State.imageCfg_nvm, State.lateEntry_nvm, State.modStream_nvm, State.set_nvm,
    foldl_nvm, implies_true]

theorem State.evalStream_nvm (s : State) (n : Nat) (snap : Stamp) : (s.evalStream n snap).nvm = s.nvm := by
  simp only [State.evalStream, State.event_nvm, State.modStream_nvm, State.setWord_nvm, apply_ite State.nvm, ite_self]

theorem State.copyDescriptors_nvm (s : State) : s.copyDescriptors.nvm = s.nvm := by
  simp only [State.copyDescriptors, State.commitShadow_nvm, State.modStream_nvm, State.setFlag_nvm, State.set_nvm,
    foldl_nvm, implies_true, apply_ite State.nvm, ite_self]

theorem fdCommitWrite_nvm (s : State) (d : Dom) (v : Word) : (fdCommitWrite s d v).1.nvm = s.nvm := by
  simp only [fdCommitWrite, State.modStream_nvm, State.setFlag_nvm, State.writeGuard_nvm, implies_true, apply_ite State.nvm,
    ite_self, apply_ite Prod.fst]

theorem State.attitude_nvm (s : State) : s.attitude.nvm = s.nvm := by
  simp only [State.attitude, State.modEst_nvm, State.setFlag_nvm]

theorem State.projectStream_nvm (s : State) (n : Nat) : (s.projectStream n).nvm = s.nvm := by
  simp -implicitDefEqProofs only [State.projectStream, State.bump_nvm, State.modEst_nvm, State.pmu_nvm, foldl_nvm,
    implies_true, apply_ite State.nvm, ite_self]
  repeat' split
  · rfl
  · rfl
  · rfl
  · rfl
  · rfl
  · simp -implicitDefEqProofs only [State.modEst_nvm, State.pmu_nvm]
  · simp -implicitDefEqProofs only [State.modEst_nvm, State.pmu_nvm]

theorem State.crossChecks_nvm (s : State) : s.crossChecks.nvm = s.nvm := by
  unfold State.crossChecks
  extract_lets want bad good s₁ further s₂
  have h₂ : s₂.nvm = s.nvm := by simp only [s₂, s₁, State.setFlag_nvm, apply_ite State.nvm, ite_self]
  refine (foldl_nvm (fun t k => ?_) _ s₂).trans h₂
  dsimp only
  split
  · exact State.setWord_nvm ..
  · split
    · exact State.setWord_nvm ..
    · simp only [State.event_nvm, State.setWord_nvm, apply_ite State.nvm, ite_self]

theorem State.projectBatch_nvm (s : State) : s.projectBatch.nvm = s.nvm := by
  simp only [State.projectBatch, State.attitude_nvm, State.crossChecks_nvm, State.modEst_nvm, State.projectStream_nvm,
    State.set_nvm, foldl_nvm, implies_true]

/-! Machine/Tracker: the tracker. -/

theorem State.setTk_nvm (s : State) (j : Nat) (x : List Word64) (p : Mat) : (s.setTk j x p).nvm = s.nvm := by
  simp -implicitDefEqProofs only [State.setTk, State.modTrk_nvm, State.setVec_nvm, State.setWord_nvm, foldl_nvm, implies_true]

theorem State.trkAssign_nvm (s : State) (cause : Nat) : (s.trkAssign cause).nvm = s.nvm := by
  simp only [State.trkAssign, State.event_nvm, State.modTrk_nvm, State.setFlag_nvm, State.set_nvm, apply_ite State.nvm,
    ite_self]

theorem State.bindTo_nvm (s : State) (j k : Nat) : (s.bindTo j k).nvm = s.nvm := by
  simp only [State.bindTo, State.setFlag_nvm, State.set_nvm]

theorem State.tryBind_nvm (s : State) (j : Nat) : (s.tryBind j).nvm = s.nvm := by
  simp -implicitDefEqProofs only [State.tryBind, apply_ite State.nvm]
  repeat' split
  all_goals rfl

theorem State.commitTracker_nvm (s : State) : s.commitTracker.nvm = s.nvm := by
  simp only [State.commitTracker, State.commitShadow_nvm, State.countTracks_nvm, State.freeTrack_nvm, State.setFlag_nvm,
    State.set_nvm, foldl_nvm, implies_true, apply_ite State.nvm, ite_self]

theorem State.predictTrack_nvm (s : State) (dt : Word64) (j : Nat) : (s.predictTrack dt j).nvm = s.nvm := by
  simp only [State.predictTrack, State.setTk_nvm, apply_ite State.nvm, ite_self]

theorem State.updateTrack_nvm (s : State) (j : Nat) (r : Ret) : (s.updateTrack j r).nvm = s.nvm := by
  simp only [State.updateTrack, State.pmu_nvm, State.setFlag_nvm, State.setTk_nvm, State.setWord_nvm, State.set_nvm,
    apply_ite State.nvm, ite_self]

theorem State.openTrack_nvm (s : State) (r : Ret) (entry : Option Nat) : (s.openTrack r entry).nvm = s.nvm := by
  simp -implicitDefEqProofs only [State.openTrack]
  repeat' split
  · rfl
  all_goals simp -implicitDefEqProofs only [State.bindTo_nvm, State.modTrk_nvm, State.setTk_nvm, State.setWord_nvm,
    State.set_nvm, State.tryBind_nvm]

theorem State.trackStep_nvm (s : State) (j : Nat) (hit : Bool) : (s.trackStep j hit).nvm = s.nvm := by
  simp only [State.trackStep, State.freeTrack_nvm, State.modTrk_nvm, State.set_nvm, State.tryBind_nvm, apply_ite State.nvm,
    ite_self]

theorem State.coastOut_nvm (s : State) (snap : Stamp) : (s.coastOut snap).nvm = s.nvm := by
  simp only [State.coastOut, State.freeTrack_nvm, foldl_nvm, implies_true, apply_ite State.nvm, ite_self]

theorem State.bindTracks_nvm (s : State) : s.bindTracks.nvm = s.nvm := by
  simp only [State.bindTracks, State.tryBind_nvm, foldl_nvm, implies_true]

theorem State.keepYields_nvm (s : State) (ys : List Upd) : (s.keepYields ys).nvm = s.nvm := by
  simp only [State.keepYields, State.modTrk_nvm]

theorem State.nnPass_nvm (s : State) (rs : List Ret) (snap : Stamp) : (s.nnPass rs snap).nvm = s.nvm := by
  unfold State.nnPass
  simp only [State.bindTracks_nvm, State.coastOut_nvm, State.countTracks_nvm, State.keepYields_nvm, State.openTrack_nvm,
    State.trackStep_nvm, State.trkAssign_nvm, foldl_nvm, implies_true, apply_ite State.nvm, ite_self]
  refine foldl_nvm (fun t p => ?_) _ s
  split <;> simp only [State.updateTrack_nvm]

theorem State.applyAssign_nvm (s : State) (x : List Word64) : (s.applyAssign x).nvm = s.nvm := by
  unfold State.applyAssign
  simp only [State.bump_nvm, State.countTracks_nvm, State.modTrk_nvm, State.openTrack_nvm, State.set_nvm, foldl_nvm,
    implies_true]
  refine foldl_nvm (fun t p => ?_) _ s
  split <;> simp only [State.openTrack_nvm, State.trackStep_nvm, State.updateTrack_nvm, apply_ite State.nvm, ite_self]

theorem State.trackerPass_nvm (s : State) : s.trackerPass.nvm = s.nvm := by
  simp only [State.trackerPass, State.bindTracks_nvm, State.bumpBy_nvm, State.coastOut_nvm, State.countTracks_nvm,
    State.modTrk_nvm, State.nnPass_nvm, State.predictTrack_nvm, State.setFlag_nvm, State.setWord_nvm, foldl_nvm,
    implies_true, apply_ite State.nvm, ite_self]

theorem State.trackerSnap_nvm (s : State) : s.trackerSnap.nvm = s.nvm := by
  simp only [State.trackerSnap, State.commitTracker_nvm, State.modTrk_nvm, State.setFlag_nvm, apply_ite State.nvm, ite_self]

theorem trkCtrlWrite_nvm (s : State) (d : Dom) (v : Word) : (trkCtrlWrite s d v).1.nvm = s.nvm := by
  simp only [trkCtrlWrite, State.shadowWrite_nvm, State.trkAssign_nvm, apply_ite State.nvm, ite_self, apply_ite Prod.fst]

/-! Machine/Estimator: the estimator. -/

theorem State.setQual_nvm (s : State) (q : Nat) : (s.setQual q).nvm = s.nvm := by
  simp only [State.setQual, State.event_nvm, State.modEst_nvm, State.set_nvm, apply_ite State.nvm, ite_self]

theorem State.evalQuality_nvm (s : State) (snap : Nat) : (s.evalQuality snap).nvm = s.nvm := by
  simp only [State.evalQuality, State.modEst_nvm, State.setFlag_nvm, State.setQual_nvm, State.set_nvm, apply_ite State.nvm,
    ite_self]

theorem State.clearWeights_nvm (s : State) : s.clearWeights.nvm = s.nvm := by
  simp -implicitDefEqProofs only [State.clearWeights, State.modStream_nvm, foldl_nvm, implies_true]

theorem State.assignBiases_nvm (s : State) : s.assignBiases.nvm = s.nvm := by
  simp -implicitDefEqProofs only [State.assignBiases, State.clearWeights_nvm, State.modStream_nvm, State.setFlag_nvm,
    State.set_nvm, foldl_fst_nvm, implies_true, apply_ite State.nvm, ite_self]

theorem State.estReset_nvm (s : State) : s.estReset.nvm = s.nvm := by
  simp only [State.estReset, State.modEst_nvm, State.setFlag_nvm, State.setQual_nvm]

theorem State.keepEst_nvm (s : State) (x : List Word64) (p : Mat) : (s.keepEst x p).nvm = s.nvm := by
  simp only [State.keepEst, State.modEst_nvm]

theorem State.estInit_nvm (s : State) (snap : Nat) : (s.estInit snap).nvm = s.nvm := by
  unfold State.estInit
  split
  · rfl
  · split
    · rfl
    · simp only [State.clearWeights_nvm, State.keepEst_nvm, State.modEst_nvm, State.setFlag_nvm]

theorem State.posResetDue_nvm (s : State) : s.posResetDue.nvm = s.nvm := by simp only [State.posResetDue, State.modEst_nvm]

theorem State.estSnap_nvm (s : State) (snap : Nat) : (s.estSnap snap).nvm = s.nvm := by
  simp only [State.estSnap, State.commitShadow_nvm, State.estInit_nvm, State.estReset_nvm, State.evalQuality_nvm,
    State.posResetDue_nvm, apply_ite State.nvm, ite_self]

theorem estCtrlWrite_nvm (s : State) (d : Dom) (v : Word) : (estCtrlWrite s d v).1.nvm = s.nvm := by
  simp only [estCtrlWrite, State.modEst_nvm, State.plainWrite_nvm, apply_ite State.nvm, ite_self, apply_ite Prod.fst]

theorem State.timeUpdate_nvm (s : State) (o : KfOut) : (s.timeUpdate o).nvm = s.nvm := by
  simp only [State.timeUpdate, State.keepEst_nvm, State.modEst_nvm]

theorem State.posReset_nvm (s : State) : s.posReset.nvm = s.nvm := by
  simp -implicitDefEqProofs only [State.posReset, apply_ite State.nvm]
  repeat' split
  all_goals rfl

theorem State.gateFail_nvm (s : State) (n : Nat) : (s.gateFail n).nvm = s.nvm := by
  simp only [State.gateFail, State.bump_nvm, State.modStream_nvm, State.set_nvm, apply_ite State.nvm, ite_self]

theorem State.gatePass_nvm (s : State) (n : Nat) : (s.gatePass n).nvm = s.nvm := by
  simp only [State.gatePass, State.modStream_nvm, State.set_nvm, apply_ite State.nvm, ite_self]

theorem State.setWeight_nvm (s : State) (u : Upd) : (s.setWeight u).nvm = s.nvm := by
  simp only [State.setWeight, State.modEst_nvm, State.modStream_nvm]

theorem State.takeKf_nvm (s : State) (o : KfOut) : (s.takeKf o).nvm = s.nvm := by simp only [State.takeKf, State.keepEst_nvm]

theorem State.applyUpd_nvm (s : State) (u : Upd) (o : KfOut) (pass : Bool) : (s.applyUpd u o pass).nvm = s.nvm := by
  simp only [State.applyUpd, State.bump_nvm, State.gateFail_nvm, State.gatePass_nvm, State.setWord_nvm, State.takeKf_nvm,
    apply_ite State.nvm, ite_self]

theorem State.vote_nvm (s : State) (g : Nat) : (s.vote g).1.nvm = s.nvm := by
  simp only [State.vote]
  split <;> simp only [State.setFlag_nvm, apply_ite State.nvm, ite_self, apply_ite Prod.fst]

theorem State.votes_nvm (s : State) : s.votes.1.nvm = s.nvm := by
  simp only [State.votes, State.vote_nvm, foldl_fst_nvm, implies_true]

theorem State.voteFail_nvm (s : State) (n : Nat) : (s.voteFail n).nvm = s.nvm := by
  simp only [State.voteFail, State.bump_nvm, State.gateFail_nvm, apply_ite State.nvm, ite_self]

theorem State.publish_nvm (s : State) : s.publish.nvm = s.nvm := by
  simp only [State.publish, State.modEst_nvm, State.setFlag_nvm, State.setVec_nvm, State.setWord_nvm, State.set_nvm,
    apply_ite State.nvm, ite_self]

theorem State.egoDone_nvm (s : State) (ok : Bool) (p : Prob) (x : List Word64) : (s.egoDone ok p x).nvm = s.nvm := by
  simp only [State.egoDone]
  split <;> simp only [State.modEst_nvm, State.queueWrite_nvm, State.setFlag_nvm, apply_ite State.nvm, ite_self]

theorem State.survSnap_nvm (s : State) : s.survSnap.nvm = s.nvm := by
  simp only [State.survSnap, apply_ite State.nvm, ite_self]

theorem survCtrlWrite_nvm (s : State) (d : Dom) (v : Word) : (survCtrlWrite s d v).1.nvm = s.nvm := by
  simp only [survCtrlWrite, State.plainWrite_nvm, State.setFlag_nvm, State.set_nvm, apply_ite State.nvm, ite_self,
    apply_ite Prod.fst]

/-! Machine/StationKeeping: station keeping. -/

theorem State.skLatch_nvm (s : State) (r : SkReq) : (s.skLatch r).nvm = s.nvm := by
  simp only [State.skLatch, State.bump_nvm, State.modSk_nvm, apply_ite State.nvm, ite_self]

theorem skCmdWrite_nvm (s : State) (d : Dom) (v : Word) (cp : Bool) : (skCmdWrite s d v cp).1.nvm = s.nvm := by
  simp only [skCmdWrite, State.skLatch_nvm, State.writeGuard_nvm, implies_true, apply_ite State.nvm, ite_self,
    apply_ite Prod.fst]

theorem skCfgWrite_nvm (s : State) (d : Dom) (v : Word) : (skCfgWrite s d v).1.nvm = s.nvm := by
  simp only [skCfgWrite, State.plainWrite_nvm]

theorem joyWrite_nvm (s : State) (d : Dom) (i : Nat) (v : Word) : (joyWrite s d i v).1.nvm = s.nvm := by
  simp only [joyWrite, State.modSk_nvm, State.setFlag_nvm, State.setWord_nvm, State.writeGuard_nvm, implies_true,
    apply_ite State.nvm, ite_self, apply_ite Prod.fst]

theorem State.joyDemand_nvm (s : State) : s.joyDemand.nvm = s.nvm := by
  simp only [State.joyDemand]
  split <;> simp only [State.modSk_nvm, apply_ite State.nvm, ite_self]

theorem State.setStake_nvm (s : State) (ne : List Word64) (psi : Word64) : (s.setStake ne psi).nvm = s.nvm := by
  simp only [State.setStake, State.modSk_nvm, State.set64_nvm, State.setFlag_nvm, apply_ite State.nvm, ite_self]

theorem State.stakeTranslate_nvm (s : State) : s.stakeTranslate.nvm = s.nvm := by
  simp only [State.stakeTranslate, State.modEst_nvm, State.modSk_nvm, State.setFlag_nvm, State.setVec_nvm,
    apply_ite State.nvm, ite_self]

theorem State.startRun_nvm (s : State) (dest : List Word64) : (s.startRun dest).nvm = s.nvm := by
  simp only [State.startRun, State.modSk_nvm]

theorem State.aimRun_nvm (s : State) (dest : List Word64) : (s.aimRun dest).nvm = s.nvm := by
  simp only [State.aimRun, State.modSk_nvm]

theorem State.beginHalt_nvm (s : State) : s.beginHalt.nvm = s.nvm := by
  simp only [State.beginHalt, State.modSk_nvm, apply_ite State.nvm, ite_self]

theorem State.stepPos_nvm (s : State) (dt : Word64) : (s.stepPos dt).nvm = s.nvm := by
  simp only [State.stepPos, State.modSk_nvm]

theorem State.stepPsi_nvm (s : State) (dt : Word64) (brake : Bool) : (s.stepPsi dt brake).nvm = s.nvm := by
  simp only [State.stepPsi, State.modSk_nvm]

theorem State.beginLeg_nvm (s : State) (w : Nat) (pass : Bool) : (s.beginLeg w pass).nvm = s.nvm := by
  simp only [State.beginLeg, State.aimRun_nvm, State.modSk_nvm, State.set_nvm, State.startRun_nvm, apply_ite State.nvm,
    ite_self]

theorem State.setMode_nvm (s : State) (m : Nat) : (s.setMode m).nvm = s.nvm := by
  simp only [State.setMode, State.event_nvm, State.set_nvm, apply_ite State.nvm, ite_self]

theorem State.enterMode_nvm (s : State) (m : Nat) (keep : Bool) : (s.enterMode m keep).nvm = s.nvm := by
  simp only [State.enterMode]
  split <;> simp only [State.aimRun_nvm, State.beginLeg_nvm, State.modSk_nvm, State.setFlag_nvm, State.setMode_nvm,
    State.setStake_nvm, apply_ite State.nvm, ite_self]

theorem State.fall_nvm (s : State) (m : Nat) : (s.fall m).nvm = s.nvm := by
  simp -implicitDefEqProofs only [State.fall, State.beginHalt_nvm, State.bump_nvm, State.enterMode_nvm, State.modSk_nvm,
    State.setFlag_nvm, State.setVec_nvm, apply_ite State.nvm, ite_self]

theorem State.falls_nvm (s : State) : s.falls.nvm = s.nvm := by
  simp only [State.falls, State.beginHalt_nvm, State.fall_nvm, apply_ite State.nvm, ite_self]

theorem State.startMove_nvm (s : State) : s.startMove.nvm = s.nvm := by
  simp only [State.startMove, State.modSk_nvm, State.setFlag_nvm, State.startRun_nvm]

theorem State.skTake_nvm (s : State) : s.skTake.1.nvm = s.nvm := by
  simp only [State.skTake]
  split <;> simp only [State.beginHalt_nvm, State.bump_nvm, State.enterMode_nvm, State.modSk_nvm, State.setStake_nvm,
    State.set_nvm, State.startMove_nvm, apply_ite State.nvm, ite_self, apply_ite Prod.fst]

theorem State.stepWind_nvm (s : State) (dt : Word64) : (s.stepWind dt).nvm = s.nvm := by
  simp -implicitDefEqProofs only [State.stepWind, apply_ite State.nvm]
  repeat' split
  all_goals rfl

theorem State.stepVane_nvm (s : State) (dt : Word64) : (s.stepVane dt).nvm = s.nvm := by
  simp only [State.stepVane, State.modSk_nvm, apply_ite State.nvm, ite_self]

theorem State.followTarget_nvm (s : State) : s.followTarget.nvm = s.nvm := by
  simp only [State.followTarget, State.modSk_nvm, State.startRun_nvm]

theorem State.moveRest_nvm (s : State) : s.moveRest.nvm = s.nvm := by
  simp only [State.moveRest, State.modSk_nvm, State.setFlag_nvm, State.setStake_nvm, apply_ite State.nvm, ite_self]

theorem State.stepRef_nvm (s : State) (dt : Word64) : (s.stepRef dt).nvm = s.nvm := by
  simp only [State.stepRef]
  split <;> simp only [State.beginLeg_nvm, State.followTarget_nvm, State.modSk_nvm, State.moveRest_nvm, State.setMode_nvm,
    State.setStake_nvm, State.startRun_nvm, State.stepPos_nvm, State.stepPsi_nvm, State.stepVane_nvm, apply_ite State.nvm,
    ite_self]

theorem State.law_nvm (s : State) (dt : Word64) (prev : Nat) (entered : Bool) : (s.law dt prev entered).1.nvm = s.nvm := by
  simp only [State.law, State.modSk_nvm, State.setFlag_nvm, apply_ite State.nvm, ite_self]

theorem State.skPublish_nvm (s : State) (tau : List Word64) : (s.skPublish tau).nvm = s.nvm := by
  simp only [State.skPublish, State.setWord_nvm]
  split <;> simp only [State.setFlag_nvm, State.setVec_nvm, State.setWord_nvm, State.set_nvm]

theorem State.skRelease_nvm (s : State) : s.skRelease.nvm = s.nvm := by
  simp only [State.skRelease, State.falls_nvm, State.joyDemand_nvm, State.law_nvm, State.modSk_nvm, State.skPublish_nvm,
    State.skTake_nvm, State.stepRef_nvm, State.stepWind_nvm, apply_ite State.nvm, ite_self]

/-! Machine/Pair: the pair. -/

theorem State.haEvt_nvm (s : State) (i : Nat) : (s.haEvt i).nvm = s.nvm := by
  simp -implicitDefEqProofs only [State.haEvt, State.event_nvm, State.setFlag_nvm, apply_ite State.nvm, ite_self]

theorem State.adopt_nvm (s : State) (t src : Nat) : (s.adopt t src).nvm = s.nvm := by
  simp only [State.adopt, State.setWord_nvm, State.set_nvm]

theorem State.follow_nvm (s : State) (t src : Nat) : (s.follow t src).nvm = s.nvm := by
  simp only [State.follow, State.adopt_nvm, State.haEvt_nvm]

theorem State.showCk_nvm (s : State) : s.showCk.nvm = s.nvm := by simp only [State.showCk, State.setFlag_nvm]

theorem State.ckClear_nvm (s : State) : s.ckClear.nvm = s.nvm := by
  simp only [State.ckClear, State.modHa_nvm, State.showCk_nvm]

theorem State.ckEmit_nvm (s : State) (t : Nat) : (s.ckEmit t).nvm = s.nvm := by
  simp only [State.ckEmit]
  split <;> simp only [State.emit_nvm, State.modHa_nvm, State.pmu_nvm, foldl_nvm, implies_true]

theorem State.ckStop_nvm (s : State) : s.ckStop.nvm = s.nvm := by
  simp only [State.ckStop]
  split <;> simp only [State.ckEmit_nvm, State.modHa_nvm, State.modNet_nvm]

theorem State.sendCmds_nvm (s : State) (cyc : Word) (flags : Nat) (l : List Cmd) (launch : Option Stamp) :
    (s.sendCmds cyc flags l launch).nvm = s.nvm := by
  simp only [State.sendCmds, State.sendTwin_nvm, foldl_nvm, implies_true]

theorem State.ckptLoad_nvm (s : State) (c : Ckpt) : (s.ckptLoad c).nvm = s.nvm := by
  simp -implicitDefEqProofs only [State.ckptLoad, State.modEst_nvm, State.modStream_nvm, State.setByte_nvm,
    State.setFlag_nvm, State.setWord_nvm, foldl_nvm, implies_true, apply_ite State.nvm, ite_self]

theorem State.ckSent_nvm (s : State) (c : CkSend) : (s.ckSent c).nvm = s.nvm := by
  simp only [State.ckSent, State.advanceTo_nvm, State.ckEmit_nvm, State.modHa_nvm, State.setWord_nvm, State.set_nvm]

theorem State.ckAbandon_nvm (s : State) : s.ckAbandon.nvm = s.nvm := by
  simp only [State.ckAbandon]
  split <;> simp only [State.bump_nvm, State.ckSent_nvm, State.ckStop_nvm, State.event_nvm, State.setFlag_nvm,
    apply_ite State.nvm, ite_self]

theorem State.ckBad_nvm (s : State) (cyc : Word) : (s.ckBad cyc).nvm = s.nvm := by
  simp only [State.ckBad, State.bump_nvm, State.modHa_nvm]

theorem State.ckComplete_nvm (s : State) (crc : Bool) (total : Nat) (data : Ckpt) :
    (s.ckComplete crc total data).nvm = s.nvm := by
  simp only [State.ckComplete, State.ckBad_nvm, State.follow_nvm, State.modHa_nvm, State.setWord_nvm, State.set_nvm,
    State.showCk_nvm, apply_ite State.nvm, ite_self]

theorem State.ckFrame_nvm (s : State) (want frag nfrag : Nat) (cyc : Word) (total : Nat) (cut crc : Bool) (data : Ckpt) :
    (s.ckFrame want frag nfrag cyc total cut crc data).nvm = s.nvm := by
  simp only [State.ckFrame, State.ckBad_nvm, State.ckComplete_nvm, State.modHa_nvm, apply_ite State.nvm, ite_self]

theorem State.seizeBlocked_nvm (s : State) : s.seizeBlocked.nvm = s.nvm := by
  simp only [State.seizeBlocked, State.haEvt_nvm, State.setFlag_nvm, apply_ite State.nvm, ite_self]

theorem State.cres_nvm (s : State) (ok : Bool) : (s.cres ok).nvm = s.nvm := by simp only [State.cres, State.set_nvm]

theorem State.linesFrom_nvm (s : State) : s.linesFrom.nvm = s.nvm := by simp only [State.linesFrom, State.modHa_nvm]

/-! Machine/Block: the block engines. -/

theorem State.setTState_nvm (s : State) (n v : Nat) : (s.setTState n v).nvm = s.nvm := by
  simp only [State.setTState, State.set_nvm]

theorem State.markRun_nvm (s : State) (e : Nat) (on : Bool) : (s.markRun e on).nvm = s.nvm := by
  simp only [State.markRun, State.modBe_nvm]

theorem State.showBeDoze_nvm (s : State) : s.showBeDoze.nvm = s.nvm := by
  simp only [State.showBeDoze, State.setDoze_nvm, foldl_nvm, implies_true]

theorem beCtrlWrite_nvm (s : State) (d : Dom) (v : Word) : (beCtrlWrite s d v).1.nvm = s.nvm := by
  simp only [beCtrlWrite, State.plainWrite_nvm, State.showBeDoze_nvm]

theorem State.taskOn_nvm (s : State) (n : Nat) : (s.taskOn n).nvm = s.nvm := by
  simp -implicitDefEqProofs only [State.taskOn, State.modTask_nvm, State.setTState_nvm, State.set_nvm, apply_ite State.nvm,
    ite_self]

theorem State.taskOff_nvm (s : State) (n : Nat) : (s.taskOff n).nvm = s.nvm := by
  simp only [State.taskOff, State.setTState_nvm, apply_ite State.nvm, ite_self]

theorem tcfgWrite_nvm (s : State) (d : Dom) (n : Nat) (v : Word) : (tcfgWrite s d n v).1.nvm = s.nvm := by
  simp only [tcfgWrite, State.setFlag_nvm, State.setWord_nvm, State.showBeDoze_nvm, State.taskOff_nvm, State.taskOn_nvm,
    State.writeGuard_nvm, implies_true, apply_ite State.nvm, ite_self, apply_ite Prod.fst]

theorem tphWrite_nvm (s : State) (d : Dom) (n : Nat) (v : Word) : (tphWrite s d n v).1.nvm = s.nvm := by
  simp only [tphWrite, State.plainWrite_nvm, State.writeGuard_nvm, implies_true, apply_ite State.nvm, ite_self,
    apply_ite Prod.fst]

theorem State.trellRead_nvm (s : State) (n : Nat) : (s.trellRead n).nvm = s.nvm := by
  simp only [State.trellRead, State.set_nvm]

theorem State.beStore_nvm (s : State) (a : Nat) (l : List Byte) : (s.beStore a l).nvm = s.nvm := by
  simp -implicitDefEqProofs only [State.beStore, State.setByte_nvm, foldl_nvm, implies_true]

theorem State.applyForce_nvm (s : State) (f : Force) : (s.applyForce f).nvm = s.nvm := by
  simp only [State.applyForce, State.storeBytes_nvm]

theorem State.showForce_nvm (s : State) (f : Force) : (s.showForce f).nvm = s.nvm := by
  simp only [State.showForce, State.setWord_nvm]

theorem State.hideForce_nvm (s : State) (k : Nat) : (s.hideForce k).nvm = s.nvm := by
  simp -implicitDefEqProofs only [State.hideForce, State.setWord_nvm, foldl_nvm, implies_true]

theorem State.forceRes_nvm (s : State) (r : Nat) : (s.forceRes r).nvm = s.nvm := by simp only [State.forceRes, State.set_nvm]

theorem State.forceSet_nvm (s : State) (id : Word) (v : Word64) : (s.forceSet id v).1.nvm = s.nvm := by
  simp only [State.forceSet]
  split <;> simp only [State.applyForce_nvm, State.forceRes_nvm, State.modBe_nvm, State.showForce_nvm, apply_ite State.nvm,
    ite_self, apply_ite Prod.fst]

theorem State.forceDrop_nvm (s : State) (f : Force) : (s.forceDrop f).nvm = s.nvm := by
  simp only [State.forceDrop, State.hideForce_nvm, State.modBe_nvm]

theorem State.forceClear_nvm (s : State) (id : Word) : (s.forceClear id).1.nvm = s.nvm := by
  simp only [State.forceClear]
  split <;> simp only [State.applyForce_nvm, State.forceDrop_nvm, State.forceRes_nvm]

theorem State.forceClearAll_nvm (s : State) : s.forceClearAll.1.nvm = s.nvm := by
  simp only [State.forceClearAll, State.applyForce_nvm, State.forceDrop_nvm, State.forceRes_nvm, foldl_nvm, implies_true]

theorem State.forceOp_nvm (s : State) (op : Nat) (id : Word) (v : Word64) : (s.forceOp op id v).1.nvm = s.nvm := by
  simp only [State.forceOp]
  split <;> simp only [State.forceClearAll_nvm, State.forceClear_nvm, State.forceSet_nvm]

theorem fopWrite_nvm (s : State) (d : Dom) (v : Word) : (fopWrite s d v).1.nvm = s.nvm := by
  simp only [fopWrite, State.forceOp_nvm, State.keyGuard_nvm, State.modBe_nvm, State.writeGuard_nvm, implies_true,
    apply_ite State.nvm, ite_self, apply_ite Prod.fst]

/-! Machine/CanBus: the CAN buses. -/

theorem State.nameForget_nvm (s : State) (c n : Nat) : (s.nameForget c n).nvm = s.nvm := by
  simp only [State.nameForget, State.setFlag_nvm, State.set_nvm]

theorem State.greet_nvm (s : State) (c : Nat) : (s.greet c).nvm = s.nvm := by
  simp only [State.greet, State.canEmit_nvm, State.modCan_nvm, State.sendClaim_nvm]

theorem State.canStart_nvm (s : State) (c : Nat) : (s.canStart c).nvm = s.nvm := by
  simp -implicitDefEqProofs only [State.canStart, State.canShowFt_nvm, State.canState_nvm, State.greet_nvm, State.modCan_nvm,
    State.nameForget_nvm, State.set_nvm, foldl_nvm, implies_true, apply_ite State.nvm, ite_self]

theorem canCfgWrite_nvm (s : State) (d : Dom) (c : Nat) (v : Word) : (canCfgWrite s d c v).1.nvm = s.nvm := by
  simp only [canCfgWrite, State.canStart_nvm, State.modCan_nvm, State.setFlag_nvm, State.setWord_nvm, State.writeGuard_nvm,
    implies_true, apply_ite State.nvm, ite_self, apply_ite Prod.fst]

theorem canTimWrite_nvm (s : State) (d : Dom) (c a : Nat) (v : Word) : (canTimWrite s d c a v).1.nvm = s.nvm := by
  simp only [canTimWrite, State.plainWrite_nvm, State.writeGuard_nvm, implies_true, apply_ite State.nvm, ite_self,
    apply_ite Prod.fst]

theorem canNameWrite_nvm (s : State) (d : Dom) (c n a : Nat) (v : Word) : (canNameWrite s d c n a v).1.nvm = s.nvm := by
  simp only [canNameWrite, State.nameForget_nvm, State.plainWrite_nvm, State.writeGuard_nvm, implies_true,
    apply_ite State.nvm, ite_self, apply_ite Prod.fst]

theorem canNameEnWrite_nvm (s : State) (d : Dom) (c n : Nat) (v : Word) : (canNameEnWrite s d c n v).1.nvm = s.nvm := by
  simp only [canNameEnWrite, State.nameForget_nvm, State.plainWrite_nvm, apply_ite State.nvm, ite_self, apply_ite Prod.fst]

theorem canBufWrite_nvm (s : State) (d : Dom) (c b a : Nat) (v : Word) : (canBufWrite s d c b a v).1.nvm = s.nvm := by
  simp only [canBufWrite, State.canCapture_nvm, State.canShowFt_nvm, State.plainWrite_nvm, State.writeGuard_nvm,
    implies_true, apply_ite State.nvm, ite_self, apply_ite Prod.fst]

theorem State.canSlotEnd_nvm (s : State) (c code : Nat) (window : Bool) : (s.canSlotEnd c code window).nvm = s.nvm := by
  simp only [State.canSlotEnd]
  split <;> simp only [State.modCan_nvm, State.setFlag_nvm, State.set_nvm]

theorem State.canOffer_nvm (s : State) (c t : Nat) : (s.canOffer c t).nvm = s.nvm := by
  simp only [State.canOffer]
  split <;> simp only [State.modCan_nvm, apply_ite State.nvm, ite_self]

theorem canCellWrite_nvm (s : State) (d : Dom) (c a : Nat) (v : Word) : (canCellWrite s d c a v).1.nvm = s.nvm := by
  simp only [canCellWrite]
  split <;> simp only [State.modCan_nvm, State.plainWrite_nvm, apply_ite State.nvm, ite_self, apply_ite Prod.fst]

theorem State.canOpen_nvm (s : State) (c b win : Nat) (ref : Option Nat) : (s.canOpen c b win ref).nvm = s.nvm := by
  simp only [State.canOpen, State.modCan_nvm, State.set_nvm]

theorem State.canColumn_nvm (s : State) (c idle : Nat) : (s.canColumn c idle).nvm = s.nvm := by
  unfold State.canColumn
  split
  · rfl
  · next t r j win _ =>
    extract_lets s₁ s₂ s₃ cell refCol b s₄
    have h₂ : s₂.nvm = s.nvm := by
      simp only [s₂]
      split <;> simp only [s₁, State.canSlotEnd_nvm, State.advanceTo_nvm]
    have h₄ : s₄.nvm = s.nvm := by
      simp only [s₄]
      split_ifs
      · rw [State.canOpen_nvm, State.modCan_nvm, h₂]
      · rw [State.modCan_nvm, h₂]
      · rw [State.canOpen_nvm, State.modCan_nvm, h₂]
      · rw [State.modCan_nvm, h₂]
      · split <;> simp only [s₃, State.canOpen_nvm, State.modCan_nvm, apply_ite State.nvm, ite_self, h₂]
    split_ifs
    · rw [State.canSlotEnd_nvm, h₄]
    · rw [State.canOffer_nvm, h₄]

theorem State.canRefer_nvm (s : State) (c ident : Nat) (ide : Bool) (d : List Byte) (t0 : Nat) :
    (s.canRefer c ident ide d t0).nvm = s.nvm := by
  simp only [State.canRefer, State.modCan_nvm, State.setFlag_nvm, apply_ite State.nvm, ite_self]

theorem State.canStore_nvm (s : State) (c ident : Nat) (ide : Bool) (d : List Byte) (remote : Option Nat) (st : Stamp) :
    (s.canStore c ident ide d remote st).nvm = s.nvm := by
  simp -implicitDefEqProofs only [State.canStore]
  split <;> simp -implicitDefEqProofs only [State.bump_nvm, State.modCan_nvm, State.setWord_nvm, State.set_nvm, foldl_nvm,
    implies_true, apply_ite State.nvm, ite_self]

theorem State.canFrame_nvm (s : State) (c ident : Nat) (ide fdf : Bool) (d : List Byte) (t0 : Nat) :
    (s.canFrame c ident ide fdf d t0).nvm = s.nvm := by
  simp only [State.canFrame, State.canData_nvm, State.canRefer_nvm, State.canStore_nvm, State.n2kFrame_nvm,
    apply_ite State.nvm, ite_self]

theorem State.canRxRead_nvm (s : State) (c b : Nat) : (s.canRxRead c b).nvm = s.nvm := by
  simp only [State.canRxRead, State.modCan_nvm]

theorem State.canTecUp_nvm (s : State) (c : Nat) : (s.canTecUp c).nvm = s.nvm := by
  simp only [State.canTecUp, State.bump_nvm, State.canState_nvm, State.event_nvm, State.modCan_nvm, State.set_nvm,
    apply_ite State.nvm, ite_self]

theorem State.canAckErr_nvm (s : State) (c : Nat) : (s.canAckErr c).nvm = s.nvm := by
  simp only [State.canAckErr, State.bump_nvm, State.canTecUp_nvm, State.event_nvm, State.modCan_nvm, State.setFlag_nvm,
    apply_ite State.nvm, ite_self]

theorem State.canSent_nvm (s : State) (c : Nat) (w : CanSlot) (t0 : Nat) : (s.canSent c w t0).nvm = s.nvm := by
  simp only [State.canSent, State.canEmit_nvm, State.canSlotEnd_nvm, State.canState_nvm, State.canStore_nvm,
    State.modCan_nvm, State.pmu_nvm, State.setFlag_nvm, State.setWord_nvm, State.set_nvm, apply_ite State.nvm, ite_self]

theorem State.canAttempt_nvm (s : State) (c dur : Nat) (e : CanEnd) : (s.canAttempt c dur e).nvm = s.nvm := by
  unfold State.canAttempt
  split
  · rfl
  · split
    · simp only [State.advanceTo_nvm, State.canSlotEnd_nvm, apply_ite State.nvm, ite_self]
    · split_ifs
      · rfl
      · extract_lets w' s₁ s₂
        have h₁ : s₁.nvm = s.nvm := by rw [State.modCan_nvm, State.advanceTo_nvm]
        have h₂ : s₂.nvm = s.nvm := by
          simp only [s₂]
          split <;> simp only [State.bump_nvm, State.canAckErr_nvm, State.canTecUp_nvm, h₁]
        split <;> simp only [State.canOffer_nvm, State.canSent_nvm, State.canSlotEnd_nvm, apply_ite State.nvm, ite_self, h₁,
          h₂]

theorem canTxreqWrite_nvm (s : State) (d : Dom) (c : Nat) (v : Word) : (canTxreqWrite s d c v).1.nvm = s.nvm := by
  simp only [canTxreqWrite, State.modCan_nvm, State.set_nvm, State.writeGuard_nvm, implies_true, apply_ite State.nvm,
    ite_self, apply_ite Prod.fst]

theorem canCancelWrite_nvm (s : State) (d : Dom) (c : Nat) (v : Word) : (canCancelWrite s d c v).1.nvm = s.nvm := by
  refine State.writeGuard_nvm (fun t => ?_) s d (R.CAN_CANCEL c)
  extract_lets b t'
  have h : t'.nvm = t.nvm := by simp only [t', State.modCan_nvm, State.set_nvm, apply_ite State.nvm, ite_self]
  split
  · exact h
  · split_ifs
    · exact h
    · split
      · simp only [State.canSlotEnd_nvm, State.modCan_nvm, State.canCapture_nvm, apply_ite Prod.fst, apply_ite State.nvm,
          ite_self, h]
      · rw [State.canSlotEnd_nvm, h]

/-! Machine/Reply: replies. -/

theorem State.cpSend_nvm (s : State) (t via src : Nat) (b : List Byte) : (s.cpSend t via src b).nvm = s.nvm := by
  simp only [State.cpSend, State.emit_nvm, State.modCp_nvm, State.sendFill_nvm, apply_ite State.nvm, ite_self]

theorem State.showCp_nvm (s : State) : s.showCp.nvm = s.nvm := by
  simp only [State.showCp]
  split <;> simp only [State.setFlag_nvm, State.set_nvm]

theorem State.cpFinish_nvm (s : State) (st : CpSt) (body : List Byte) : (s.cpFinish st body).nvm = s.nvm := by
  simp only [State.cpFinish]
  split <;> simp only [State.cpSend_nvm, State.modCp_nvm, State.showCp_nvm]

theorem State.cpSkTaken_nvm (s : State) : s.cpSkTaken.nvm = s.nvm := by
  simp -implicitDefEqProofs only [State.cpSkTaken]
  split <;> simp -implicitDefEqProofs only [State.cpFinish_nvm, apply_ite State.nvm, ite_self]

theorem State.cpSkExpire_nvm (s : State) : s.cpSkExpire.nvm = s.nvm := by
  simp -implicitDefEqProofs only [State.cpSkExpire]
  split <;> simp -implicitDefEqProofs only [State.cpFinish_nvm, apply_ite State.nvm, ite_self]

/-! Machine/Alloc: the allocator. -/

theorem alcCommitWrite_nvm (s : State) (d : Dom) (v : Word) : (alcCommitWrite s d v).1.nvm = s.nvm := by
  simp only [alcCommitWrite, State.modAlc_nvm, State.writeGuard_nvm, implies_true, apply_ite State.nvm, ite_self]

theorem State.stageSlot_nvm (s : State) (a : ASlot) (f : List Word64) : (s.stageSlot a f).nvm = s.nvm := by
  simp -implicitDefEqProofs only [State.stageSlot, State.bump_nvm, State.modAlc_nvm, State.putEntry_nvm, State.set64_nvm,
    State.setFlag_nvm, foldl_nvm, implies_true, apply_ite State.nvm, ite_self]
  repeat' split
  · rfl
  · rfl
  · simp -implicitDefEqProofs only [State.setFlag_nvm, State.stageCheck_nvm]
  · rfl
  · simp -implicitDefEqProofs only [State.stageCheck_nvm]
  · rfl

theorem State.publishSf_nvm (s : State) (cut : Option Nat) : (s.publishSf cut).nvm = s.nvm := by
  simp -implicitDefEqProofs only [State.publishSf, State.bump_nvm, State.event_nvm, State.modAlc_nvm, State.modEst_nvm,
    State.record_nvm, State.setFlag_nvm, State.setVec_nvm, State.setWord_nvm, State.set_nvm, foldl_nvm, implies_true,
    apply_ite State.nvm, ite_self]

theorem State.sendCap_nvm (s : State) (w : List Word) : (s.sendCap w).nvm = s.nvm := by
  simp only [State.sendCap, State.sendTwin_nvm, foldl_nvm, implies_true]

theorem State.publishEnv_nvm (s : State) (sf : List Word64) (sfOn : Bool) : (s.publishEnv sf sfOn).nvm = s.nvm := by
  simp -implicitDefEqProofs only [State.publishEnv, State.modAlc_nvm, State.sendCap_nvm, State.setWord_nvm, foldl_nvm,
    implies_true]

theorem State.publishEnvNow_nvm (s : State) : s.publishEnvNow.nvm = s.nvm := by
  simp only [State.publishEnvNow, State.modAlc_nvm, State.publishEnv_nvm, apply_ite State.nvm, ite_self]

theorem State.stage_nvm (s : State) (x : List Word64) (cut : Option Nat) : (s.stage x cut).nvm = s.nvm := by
  simp only [State.stage, State.modAlc_nvm, State.publishEnv_nvm, State.publishSf_nvm, State.stageSlot_nvm, foldl_nvm,
    implies_true, apply_ite State.nvm, ite_self]

theorem State.launchCmds_nvm (s : State) (flags : Nat) (l : List Cmd) : (s.launchCmds flags l).nvm = s.nvm := by
  simp -implicitDefEqProofs only [State.launchCmds, State.launchDue_nvm, State.sendCmds_nvm, foldl_nvm, implies_true]

theorem State.noteSent_nvm (s : State) (l : List Cmd) (rep : Bool) : (s.noteSent l rep).nvm = s.nvm := by
  simp only [State.noteSent, State.modAlc_nvm]

theorem State.launchStaged_nvm (s : State) : s.launchStaged.nvm = s.nvm := by
  simp only [State.launchStaged, State.launchCmds_nvm, State.modAlc_nvm, State.noteSent_nvm]

theorem State.launchIdle_nvm (s : State) : s.launchIdle.nvm = s.nvm := by simp only [State.launchIdle, State.modAlc_nvm]

theorem State.repeatOwn_nvm (s : State) : s.repeatOwn.nvm = s.nvm := by
  simp only [State.repeatOwn, State.putEntry_nvm, foldl_nvm, implies_true]

theorem State.outMiss_nvm (s : State) : s.outMiss.nvm = s.nvm := by
  simp only [State.outMiss, State.bump_nvm, State.event_nvm, State.setFlag_nvm, apply_ite State.nvm, ite_self]

theorem State.launchMiss_nvm (s : State) : s.launchMiss.nvm = s.nvm := by
  simp only [State.launchMiss, State.launchCmds_nvm, State.modAlc_nvm, State.noteSent_nvm, State.outMiss_nvm, State.pmu_nvm,
    State.repeatOwn_nvm]

theorem State.headLaunch_nvm (s : State) : s.headLaunch.nvm = s.nvm := by
  simp only [State.headLaunch, State.advanceTo_nvm, State.event_nvm, State.launchIdle_nvm, State.launchMiss_nvm,
    State.launchStaged_nvm, State.modAlc_nvm, State.publishEnvNow_nvm, State.setFlag_nvm, apply_ite State.nvm, ite_self]

/-! Machine/Twin: the twin networks. -/

theorem State.twinEvt_nvm (s : State) (f : Fld) (k : RecKind) : (s.twinEvt f k).nvm = s.nvm := by
  simp only [State.twinEvt, State.event_nvm, State.setFlag_nvm, apply_ite State.nvm, ite_self]

theorem State.answerTwin_nvm (s : State) (typ : Nat) (z : ZFrame) : (s.answerTwin typ z).nvm = s.nvm := by
  simp only [State.answerTwin, State.sendTwin_nvm]

theorem State.gate_nvm (s : State) (z : ZFrame) : (s.gate z).1.nvm = s.nvm := by
  simp only [State.gate, State.answerTwin_nvm, State.bump_nvm, State.follow_nvm, State.haEvt_nvm, State.modHa_nvm,
    apply_ite State.nvm, ite_self, apply_ite Prod.fst]

theorem State.relayTakeover_nvm (s : State) : s.relayTakeover.nvm = s.nvm := by
  simp only [State.relayTakeover, State.releaseTx_nvm, State.repeatOwn_nvm, State.sendCmds_nvm, apply_ite State.nvm, ite_self]

theorem State.capAccept_nvm (s : State) (z : ZFrame) : (s.capAccept z).nvm = s.nvm := by
  simp only [State.capAccept, State.modAlc_nvm]

theorem State.syncArm_nvm (s : State) (at' : Stamp) : (State.syncArm s at').nvm = s.nvm := by
  simp only [State.syncArm, State.setFlag_nvm, State.setWord_nvm, apply_ite State.nvm, ite_self]

theorem State.syncAccept_nvm (s : State) (z : ZFrame) : (s.syncAccept z).nvm = s.nvm := by
  simp only [State.syncAccept, State.syncArm_nvm, apply_ite State.nvm, ite_self]

theorem State.showPend_nvm (s : State) : s.showPend.nvm = s.nvm := by simp only [State.showPend, State.set_nvm]

theorem State.closePend_nvm (s : State) (p : TwinPend) : (s.closePend p).nvm = s.nvm := by
  simp only [State.closePend, State.modNet_nvm, State.showPend_nvm]

theorem State.helloFrame_nvm (s : State) (p : Nat) (b : List Byte) : (s.helloFrame p b).nvm = s.nvm := by
  simp only [State.helloFrame, State.bump_nvm, State.hello_nvm, apply_ite State.nvm, ite_self]

theorem syncHWrite_nvm (s : State) (d : Dom) (v : Word) : (syncHWrite s d v).1.nvm = s.nvm := by
  simp only [syncHWrite, State.sendTwin_nvm, State.setWord_nvm, State.syncArm_nvm, State.writeGuard_nvm, implies_true,
    apply_ite State.nvm, ite_self, apply_ite Prod.fst]

theorem zalTreeWrite_nvm (s : State) (d : Dom) (v : Word) : (zalTreeWrite s d v).1.nvm = s.nvm := by
  simp only [zalTreeWrite, State.plainWrite_nvm, apply_ite State.nvm, ite_self, apply_ite Prod.fst]

theorem State.txRing_nvm (p : Nat) : ∀ (n : Nat) (s : State), (s.txRing p n).nvm = s.nvm
  | 0, _ => rfl
  | n + 1, s => by
    simp only [State.txRing, txRing_nvm p n, State.descDone_nvm, State.queueTx_nvm, State.set_nvm, apply_ite State.nvm,
      ite_self]

theorem txTailWrite_nvm (s : State) (d : Dom) (p : Nat) (v : Word) : (txTailWrite s d p v).1.nvm = s.nvm := by
  simp -implicitDefEqProofs only [txTailWrite, State.set_nvm, State.txRing_nvm, State.writeGuard_nvm, implies_true,
    apply_ite State.nvm, ite_self]

theorem State.report_nvm (s old : State) (n p : Nat) : (s.report old n p).nvm = s.nvm := by
  simp -implicitDefEqProofs only [State.report]
  split <;> simp -implicitDefEqProofs only [State.sendPlain_nvm, apply_ite State.nvm, ite_self]

theorem netCfgWrite_nvm (s : State) (d : Dom) (p : Nat) (v : Word) : (netCfgWrite s d p v).1.nvm = s.nvm := by
  simp -implicitDefEqProofs only [netCfgWrite, State.modNet_nvm, State.plainWrite_nvm, State.report_nvm, State.txRing_nvm,
    foldl_nvm, implies_true, apply_ite State.nvm, ite_self, apply_ite Prod.fst]

theorem flowCfgWrite_nvm (s : State) (d : Dom) (n : Nat) (v : Word) : (flowCfgWrite s d n v).1.nvm = s.nvm := by
  simp only [flowCfgWrite, State.plainWrite_nvm, State.report_nvm, foldl_nvm, implies_true]

/-! Machine/Cycle: the cycle. -/

theorem State.showTick_nvm (s : State) : s.showTick.nvm = s.nvm := by simp only [State.showTick, State.setWord_nvm]

theorem State.takeProposal_nvm (s : State) : s.takeProposal.nvm = s.nvm := by simp only [State.takeProposal, State.modEst_nvm]

theorem State.keepPrev_nvm (s : State) (prev : Nat) : (s.keepPrev prev).nvm = s.nvm := by
  simp only [State.keepPrev, State.modEst_nvm]

theorem State.snap_nvm (s : State) (prev : Nat) : (s.snap prev).nvm = s.nvm := by
  simp -implicitDefEqProofs only [State.snap, State.copyDescriptors_nvm, State.estSnap_nvm, State.evalStream_nvm,
    State.keepPrev_nvm, State.latch_nvm, State.modAlc_nvm, State.modHa_nvm, State.stakeTranslate_nvm, State.survSnap_nvm,
    State.takeProposal_nvm, State.trackerSnap_nvm, State.trkAssign_nvm, foldl_nvm, implies_true, apply_ite State.nvm,
    ite_self]

theorem State.readT0_nvm (s : State) : s.readT0.nvm = s.nvm := by simp only [State.readT0, State.setWord_nvm]

theorem State.takeNbias_nvm (s : State) : s.takeNbias.nvm = s.nvm := by
  simp -implicitDefEqProofs only [State.takeNbias, State.set_nvm, foldl_nvm, implies_true]

theorem State.runStart_nvm (s : State) : s.runStart.nvm = s.nvm := by
  simp only [State.runStart, State.assignBiases_nvm, State.commitShadow_nvm, State.estReset_nvm, State.modAlc_nvm,
    State.modEst_nvm, State.setFlag_nvm, State.set_nvm, State.takeNbias_nvm, State.trkAssign_nvm, apply_ite State.nvm,
    ite_self]

theorem State.deviceWake_nvm (s : State) : s.deviceWake.nvm = s.nvm := by
  simp only [State.deviceWake, State.setDoze_nvm, apply_ite State.nvm, ite_self]

theorem cycHeldWrite_nvm (s : State) (d : Dom) (a : Nat) (v : Word) : (cycHeldWrite s d a v).1.nvm = s.nvm := by
  simp only [cycHeldWrite, State.setWord_nvm, State.shadowWrite_nvm, apply_ite State.nvm, ite_self]

theorem mnCfgWrite_nvm (s : State) (d : Dom) (n : Nat) (v : Word) : (mnCfgWrite s d n v).1.nvm = s.nvm := by
  simp only [mnCfgWrite, State.shadowWrite_nvm]

/-! Machine/Complete: what a finished job causes. -/

theorem State.assignDone_nvm (s : State) (status : Nat) (x : List Word64) : (s.assignDone status x).nvm = s.nvm := by
  simp only [State.assignDone, State.applyAssign_nvm, State.bump_nvm, State.modTrk_nvm, apply_ite State.nvm, ite_self]

theorem State.kfRun_nvm (s : State) (j : Job) : (s.kfRun j).1.nvm = s.nvm := by
  simp -implicitDefEqProofs only [State.kfRun]
  split <;> simp -implicitDefEqProofs only [State.drawn_nvm]

theorem State.kfStore_nvm (s : State) (j : Job) (o : KfOut) : (s.kfStore j o).nvm = s.nvm := by
  simp only [State.kfStore, State.storeBytes_nvm, apply_ite State.nvm, ite_self]

theorem State.atDeadline_nvm (s : State) (j : Job) : (s.atDeadline j).nvm = s.nvm := by
  simp only [State.atDeadline, State.advanceTo_nvm]

/-! Machine/Gnss: the GNSS receiver. -/

theorem State.gnStream_nvm (s : State) (n typ : Nat) (vals : List Word64) (mode sats : Nat) :
    (s.gnStream n typ vals mode sats).nvm = s.nvm := by
  simp only [State.gnStream, State.queueWrite_nvm, foldl_nvm, implies_true]

theorem State.gnRing_nvm (s : State) (base log widx : Nat) (bytes : List Byte) :
    (s.gnRing base log widx bytes).nvm = s.nvm := by
  simp only [State.gnRing, State.storeBytes_nvm, apply_ite State.nvm, ite_self]

theorem State.obsRecord_nvm (s : State) (b : List Byte) : (s.obsRecord b).nvm = s.nvm := by
  simp only [State.obsRecord, State.gnRing_nvm, State.set_nvm]

theorem State.gnChannel_nvm (s : State) (c : Nat × Nat) : (s.gnChannel c).nvm = s.nvm := by
  simp only [State.gnChannel, State.set_nvm, apply_ite State.nvm, ite_self]

theorem State.showIso_nvm (s : State) : s.showIso.nvm = s.nvm := by
  simp -implicitDefEqProofs only [State.showIso, State.setWord_nvm, foldl_nvm, implies_true]

theorem State.gnIso_nvm (s : State) (g : GnssEpoch) : (s.gnIso g).nvm = s.nvm := by
  simp -implicitDefEqProofs only [State.gnIso, State.modGn_nvm, State.setWord_nvm, foldl_nvm, implies_true]

theorem State.gnssEpoch_nvm (s : State) (g : GnssEpoch) : (s.gnssEpoch g).nvm = s.nvm := by
  simp -implicitDefEqProofs only [State.gnssEpoch, State.modEst_nvm, State.obsRecord_nvm, foldl_nvm, implies_true,
    apply_ite State.nvm, ite_self]
  repeat' split
  all_goals simp -implicitDefEqProofs only [State.advanceTo_nvm, State.gnChannel_nvm, State.gnIso_nvm, State.gnStream_nvm,
    State.modGn_nvm, State.setFlag_nvm, State.set_nvm, foldl_nvm, implies_true]

theorem State.acqNext_nvm (s : State) : s.acqNext.nvm = s.nvm := by
  simp -implicitDefEqProofs only [State.acqNext, State.set_nvm]
  split <;> simp -implicitDefEqProofs only [State.modGn_nvm]

theorem acqReqWrite_nvm (s : State) (d : Dom) (v : Word) : (acqReqWrite s d v).1.nvm = s.nvm := by
  simp only [acqReqWrite, State.acqNext_nvm, State.modGn_nvm, State.setWord_nvm, State.set_nvm, State.writeGuard_nvm,
    implies_true, apply_ite State.nvm, ite_self, apply_ite Prod.fst]

theorem State.channelStart_nvm (s : State) (n : Nat) (w : Word) : (s.channelStart n w).nvm = s.nvm := by
  simp only [State.channelStart, State.modGn_nvm, State.setWord_nvm, State.set_nvm]

theorem State.channelStop_nvm (s : State) (n : Nat) : (s.channelStop n).nvm = s.nvm := by
  simp only [State.channelStop, State.modGn_nvm, State.set_nvm]

theorem chCtrlWrite_nvm (s : State) (d : Dom) (n : Nat) (v : Word) : (chCtrlWrite s d n v).1.nvm = s.nvm := by
  simp only [chCtrlWrite, State.channelStart_nvm, State.channelStop_nvm, State.setWord_nvm, State.writeGuard_nvm,
    implies_true, apply_ite State.nvm, ite_self, apply_ite Prod.fst]

theorem State.antenna_nvm (s : State) (a ma : Nat) : (s.antenna a ma).nvm = s.nvm := by
  simp only [State.antenna, State.event_nvm, State.setFlag_nvm, State.set_nvm, apply_ite State.nvm, ite_self]

theorem antWrite_nvm (s : State) (d : Dom) (a : Nat) (v : Word) : (antWrite s d a v).1.nvm = s.nvm := by
  simp only [antWrite, State.setFlag_nvm, State.set_nvm, State.writeGuard_nvm, implies_true, apply_ite State.nvm, ite_self]

theorem State.wbShow_nvm (s : State) (q : Nat) : (s.wbShow q).nvm = s.nvm := by
  simp -implicitDefEqProofs only [State.wbShow]
  split <;> simp -implicitDefEqProofs only [State.setFlag_nvm, State.setWord_nvm, State.seti_nvm]

theorem wbWrite_nvm (s : State) (d : Dom) (q off : Nat) (v : Word) : (wbWrite s d q off v).1.nvm = s.nvm := by
  simp only [wbWrite, State.plainWrite_nvm, State.set_nvm, State.wbShow_nvm, apply_ite State.nvm, ite_self]

theorem State.wbPath_nvm (s : State) (p : Nat) (lines : List (Int × Nat)) : (s.wbPath p lines).nvm = s.nvm := by
  refine foldl_fst_nvm (fun acc w => ?_) _ (s, lines)
  dsimp only
  split
  · rfl
  · generalize List.foldl _ _ _ = best
    cases best <;> simp only [State.event_nvm, State.setFlag_nvm, State.setWord_nvm, State.seti_nvm, apply_ite State.nvm,
      ite_self]

theorem State.jiPath_nvm (s : State) (p : Nat) (l : Int × Int) : (s.jiPath p l).nvm = s.nvm := by
  simp only [State.jiPath, State.event_nvm, State.modGn_nvm, State.set_nvm, apply_ite State.nvm, ite_self]

theorem jiCfgWrite_nvm (s : State) (d : Dom) (v : Word) : (jiCfgWrite s d v).1.nvm = s.nvm := by
  simp only [jiCfgWrite, State.modGn_nvm, State.setWord_nvm, State.writeGuard_nvm, implies_true, apply_ite State.nvm,
    ite_self]

theorem State.hdgDrop_nvm (s : State) : s.hdgDrop.nvm = s.nvm := by
  simp only [State.hdgDrop, State.setFlag_nvm, apply_ite State.nvm, ite_self]

theorem gnHdgWrite_nvm (s : State) (d : Dom) (v : Word) : (gnHdgWrite s d v).1.nvm = s.nvm := by
  simp only [gnHdgWrite, State.hdgDrop_nvm, State.plainWrite_nvm, apply_ite State.nvm, ite_self, apply_ite Prod.fst]

theorem State.gnWake_nvm (s : State) : s.gnWake.nvm = s.nvm := by
  simp only [State.gnWake, State.modGn_nvm, State.modTime_nvm, State.setFlag_nvm, State.showIso_nvm]

/-! Machine/Interrupt: the interrupt controller. -/

theorem State.claim_nvm (s : State) (x l : Nat) : (s.claim x l).nvm = s.nvm := by
  simp only [State.claim, State.modProc_nvm, State.modRing_nvm, State.refreshLine_nvm, State.setByte_nvm, State.setWord_nvm,
    State.set_nvm, apply_ite State.nvm, ite_self]

theorem State.complete_nvm (s : State) (x : Nat) : (s.complete x).nvm = s.nvm := by
  simp -implicitDefEqProofs only [State.complete]
  split <;> simp -implicitDefEqProofs only [State.bump_nvm, State.modProc_nvm, State.modRing_nvm, State.refreshLine_nvm,
    State.setFlag_nvm, State.set_nvm, apply_ite State.nvm, ite_self]

theorem icSwset_nvm (s : State) (d : Dom) (v : Word) : (icSwset s d v).1.nvm = s.nvm := by
  simp only [icSwset, State.arriveG_nvm, State.writeGuard_nvm, implies_true]

theorem State.recNext_nvm (s : State) : s.recNext.nvm = s.nvm := by
  simp only [State.recNext, State.drawn_nvm, State.refreshWindow_nvm, State.setWord_nvm, apply_ite State.nvm, ite_self]

theorem recCtlWrite_nvm (s : State) (d : Dom) (v : Word) : (recCtlWrite s d v).1.nvm = s.nvm := by
  simp only [recCtlWrite, State.plainWrite_nvm, State.recNext_nvm, apply_ite State.nvm, ite_self, apply_ite Prod.fst]

theorem recCurWrite_nvm (s : State) (d : Dom) (v : Word) : (recCurWrite s d v).1.nvm = s.nvm := by
  simp only [recCurWrite, State.refreshWindow_nvm, State.setWord_nvm, State.writeGuard_nvm, implies_true]

theorem State.recClear_nvm (s : State) (d : Dom) : (s.recClear d).1.nvm = s.nvm := by
  simp only [State.recClear, State.afterFree_nvm, State.record_nvm, State.setFlag_nvm, State.setWord_nvm,
    apply_ite State.nvm, ite_self, apply_ite Prod.fst]

theorem recClrWrite_nvm (s : State) (d : Dom) (v : Word) : (recClrWrite s d v).1.nvm = s.nvm := by
  simp only [recClrWrite, State.keyGuard_nvm, State.recClear_nvm, State.writeGuard_nvm, implies_true, apply_ite State.nvm,
    ite_self, apply_ite Prod.fst]

theorem ringWrite_nvm (s : State) (d : Dom) (x l off : Nat) (v : Word) : (ringWrite s d x l off v).1.nvm = s.nvm := by
  simp only [ringWrite, State.bump_nvm, State.setWord_nvm, apply_ite State.nvm, ite_self, apply_ite Prod.fst]

theorem icSrcWrite_nvm (s : State) (d : Dom) (n : Nat) (v : Word) : (icSrcWrite s d n v).1.nvm = s.nvm := by
  simp only [icSrcWrite, State.setWord_nvm, apply_ite State.nvm, ite_self, apply_ite Prod.fst]

theorem icPieWrite_nvm (s : State) (d : Dom) (x : Nat) (v : Word) : (icPieWrite s d x v).1.nvm = s.nvm := by
  simp only [icPieWrite, State.setWord_nvm, apply_ite State.nvm, ite_self, apply_ite Prod.fst]

theorem evcfgWrite_nvm (s : State) (d : Dom) (w : Nat) (v : Word) : (evcfgWrite s d w v).1.nvm = s.nvm := by
  simp only [evcfgWrite, State.setWord_nvm, apply_ite State.nvm, ite_self, apply_ite Prod.fst]

/-! Machine/Access: register accesses. -/

theorem State.gpioOut_nvm (s : State) (old : Word × Word) : (s.gpioOut old).nvm = s.nvm := by
  simp only [State.gpioOut, State.emit_nvm, foldl_nvm, implies_true, apply_ite State.nvm, ite_self]

theorem State.gpioIn_nvm (s : State) : s.gpioIn.nvm = s.nvm := by
  simp only [State.gpioIn, State.drawn_nvm, State.setWord_nvm]

theorem State.junction_nvm (s : State) : s.junction.nvm = s.nvm := by
  simp only [State.junction, State.drawn_nvm, State.setFlag_nvm, State.set_nvm]

theorem State.readEffect_nvm (s : State) (d : Dom) (a : Nat) : (s.readEffect d a).nvm = s.nvm := by
  simp -implicitDefEqProofs only [State.readEffect, State.canRxRead_nvm, State.gpioIn_nvm, State.junction_nvm,
    State.popCapture_nvm, State.readNow_nvm, State.readOfsl_nvm, State.readT0_nvm, State.set_nvm, State.trellRead_nvm,
    State.uartRead_nvm, apply_ite State.nvm, ite_self]
  repeat' split
  all_goals simp -implicitDefEqProofs only [State.bump_nvm, State.claim_nvm, State.setWord_nvm]

theorem State.clearRc_nvm (s : State) (r : RegDesc) (a : Nat) : (s.clearRc r a).nvm = s.nvm := by
  simp only [State.clearRc, State.setWord_nvm, apply_ite State.nvm, ite_self]

theorem State.regRead_nvm (s : State) (d : Dom) (a : Nat) : (s.regRead d a).1.nvm = s.nvm := by
  simp -implicitDefEqProofs only [State.regRead]
  split <;> simp -implicitDefEqProofs only [State.clearRc_nvm, State.offAccess_nvm, State.pmuRead_nvm, State.readEffect_nvm,
    coefAccess_nvm, tblAccess_nvm, apply_ite State.nvm, ite_self, apply_ite Prod.fst]

theorem State.busErr_nvm (s : State) : s.busErr.nvm = s.nvm := by simp only [State.busErr, State.bump_nvm]

theorem State.busRead_nvm (s : State) (d : Dom) (a : Nat) : (s.busRead d a).1.nvm = s.nvm := by
  simp -implicitDefEqProofs only [State.busRead]
  split <;> simp -implicitDefEqProofs only [State.busErr_nvm, State.offAccess_nvm, State.regRead_nvm, apply_ite State.nvm,
    ite_self, apply_ite Prod.fst]

/-! Machine/Engine: instructions of block code. -/

theorem State.askCopy_nvm (s : State) (n : Nat) (out : Bool) : (s.askCopy n out).nvm = s.nvm := by
  simp only [State.askCopy, State.modBe_nvm]

theorem State.runOn_nvm (s : State) (e n : Nat) : (s.runOn e n).nvm = s.nvm := by
  simp -implicitDefEqProofs only [State.runOn, State.markRun_nvm, State.modTask_nvm, State.setTState_nvm, State.set_nvm]

theorem State.schedule_nvm (s : State) (e : Nat) : (s.schedule e).nvm = s.nvm := by
  simp -implicitDefEqProofs only [State.schedule]
  split <;> simp -implicitDefEqProofs only [State.runOn_nvm, State.setTState_nvm, apply_ite State.nvm, ite_self]

theorem State.leaveRun_nvm (s : State) (e n : Nat) : (s.leaveRun e n).nvm = s.nvm := by
  simp only [State.leaveRun, State.markRun_nvm, State.modTask_nvm, State.setFlag_nvm, State.set_nvm]

theorem State.endRun_nvm (s : State) (e n : Nat) : (s.endRun e n).nvm = s.nvm := by
  simp only [State.endRun, State.askCopy_nvm, State.leaveRun_nvm, State.schedule_nvm, State.setTState_nvm]

theorem State.trapRun_nvm (s : State) (e n cause : Nat) : (s.trapRun e n cause).nvm = s.nvm := by
  simp -implicitDefEqProofs only [State.trapRun, State.arrive_nvm, State.bump_nvm, State.leaveRun_nvm, State.record_nvm,
    State.schedule_nvm, State.setTState_nvm, State.set_nvm, apply_ite State.nvm, ite_self]

theorem State.eccCorrected_nvm (s : State) (k : Nat) : (s.eccCorrected k).nvm = s.nvm := by
  simp only [State.eccCorrected, State.set_nvm, apply_ite State.nvm, ite_self]

theorem State.issue_nvm {f : State → Nat → Ctx → CodeRes} (hf : ∀ t n k u c, f t n k = .ok (u, c) → u.nvm = t.nvm)
    (s : State) (e : Nat) : (s.issue e f).nvm = s.nvm := by
  unfold State.issue
  split
  · rfl
  · dsimp only
    split
    · next n _ t c ht => rw [State.modTask_nvm, hf _ _ _ _ _ ht, State.pmu_nvm]
    · rw [State.trapRun_nvm, State.pmu_nvm]

/-! Machine/Runtime: tasks and their copies. -/

theorem State.release_nvm (s : State) (n due : Nat) : (s.release n due).nvm = s.nvm := by
  simp only [State.release, State.advanceTo_nvm, State.askCopy_nvm, State.bump_nvm, State.cpSkTaken_nvm, State.event_nvm,
    State.modTask_nvm, State.setTState_nvm, State.setWord_nvm, State.skRelease_nvm, State.speGate_nvm, apply_ite State.nvm,
    ite_self]

theorem State.copyInEntry_nvm (s : State) (n : Nat) (e : IoEnt) : (s.copyInEntry n e).nvm = s.nvm := by
  simp only [State.copyInEntry, State.beStore_nvm, State.busRead_nvm, foldl_fst_nvm, implies_true, apply_ite State.nvm,
    ite_self]

theorem State.inputDone_nvm (n : Nat) (s : State) : (State.inputDone n s).nvm = s.nvm := by
  simp only [State.inputDone, State.schedule_nvm, State.setTState_nvm]

theorem State.outputDone_nvm (n : Nat) (s : State) : (State.outputDone n s).nvm = s.nvm := by
  simp only [State.outputDone, State.modTask_nvm, State.setTState_nvm, State.set_nvm]

theorem State.storeSet_nvm (s : State) (p : ProgSet) (half : Nat → Nat) (area : Nat) :
    (s.storeSet p half area).nvm = s.nvm := by
  simp only [State.storeSet, State.storeBytes_nvm, foldl_nvm, implies_true]

theorem State.stageSet_nvm (s : State) (p : ProgSet) : (s.stageSet p).nvm = s.nvm := by
  simp only [State.stageSet, State.storeSet_nvm]

theorem State.loadTask_nvm (s : State) (n : Nat) (d : TaskDef) : (s.loadTask n d).nvm = s.nvm := by
  simp only [State.loadTask, State.modTask_nvm, State.setTState_nvm, State.setWord_nvm, apply_ite State.nvm, ite_self]

theorem State.loadSet_nvm (s : State) (p : ProgSet) : (s.loadSet p).nvm = s.nvm := by
  simp only [State.loadSet, State.loadTask_nvm, State.modBe_nvm, State.setWord_nvm, State.showBeDoze_nvm,
    State.storeSet_nvm, foldl_nvm, implies_true]

theorem State.copyMem_nvm (s : State) (src dst n : Nat) : (s.copyMem src dst n).nvm = s.nvm := by
  simp only [State.copyMem, State.storeBytes_nvm]

theorem State.carryData_nvm (s : State) (p : ProgSet) : (s.carryData p).nvm = s.nvm := by
  simp only [State.carryData, State.copyMem_nvm, State.storeBytes_nvm, foldl_nvm, implies_true, apply_ite State.nvm, ite_self]

theorem State.rebindForces_nvm (s : State) : s.rebindForces.nvm = s.nvm := by
  refine foldl_nvm (fun t f => ?_) _ s
  split <;> simp only [State.applyForce_nvm, State.bump_nvm, State.forceDrop_nvm, State.modBe_nvm, State.record_nvm,
    State.showForce_nvm]

theorem State.switchStart_nvm (s : State) (accept : Nat) : (s.switchStart accept).nvm = s.nvm := by
  simp only [State.switchStart, State.modBe_nvm, State.set_nvm]

/-! Machine/Nvm: the non-volatile memory. -/

theorem State.otpLoad_otp (s : State) (vpp : Bool) : (s.otpLoad vpp).nvm.otp = s.nvm.otp := by
  simp -implicitDefEqProofs only [State.otpLoad, State.setFlag_nvm, State.setWord_nvm, State.set_nvm, foldl_nvm,
    implies_true, apply_ite State.nvm, ite_self]

/-! Machine/Boot: boot and images. -/

theorem State.setOn_nvm (s : State) (d : Nat) : (s.setOn d).nvm = s.nvm := by
  simp only [State.setOn, State.modPwr_nvm, State.set_nvm, apply_ite State.nvm, ite_self]

theorem State.dramReady_nvm (s : State) : s.dramReady.nvm = s.nvm := by
  simp -implicitDefEqProofs only [State.dramReady]
  split <;> simp -implicitDefEqProofs only [State.advanceTo_nvm, State.setOn_nvm]

theorem State.gnKeep_nvm (s : State) (a : Nat) (v : Word) : (s.gnKeep a v).nvm = s.nvm := by
  simp only [State.gnKeep, State.modGn_nvm]

theorem State.reloadApp1_nvm (s : State) : s.reloadApp1.nvm = s.nvm := by
  simp only [State.reloadApp1, State.storeBytes_nvm, foldl_nvm, implies_true]

theorem State.restoring_nvm (s : State) (n : Nat) : (s.restoring n).nvm = s.nvm := by
  simp only [State.restoring, State.modPwr_nvm]

/-! Machine/Library: the library functions. -/

theorem State.sysBlock_nvm (s : State) (e : Fin 8) (a : BitVec 5) (count : Nat) (f : Stamp → Vars → List (Nat × Word64)) :
    (s.sysBlock e a count f).nvm = s.nvm := by
  refine State.issue_nvm (fun t n k u c h => ?_) s e
  split at h
  · cases h
  · split_ifs at h
    cases h
    exact foldl_nvm (fun v w => State.beStore_nvm ..) _ t

theorem State.sysFun_nvm (s : State) (e : Fin 8) (a : BitVec 5) (f : Ctx → FRes) : (s.sysFun e a f).nvm = s.nvm := by
  refine State.issue_nvm (fun t n k u c h => ?_) s e
  split at h
  · cases h
  · cases h; rfl

theorem State.sys1_nvm (s : State) (e : Fin 8) (a : BitVec 5) (dom : Word64 → Bool) (f : Word64 → Word64) :
    (s.sys1 e a dom f).nvm = s.nvm := by
  simp only [State.sys1, State.sysFun_nvm]

theorem State.sys2_nvm (s : State) (e : Fin 8) (a : BitVec 5) (dom : Word64 → Word64 → Bool) (f : Word64 → Word64 → Word64) :
    (s.sys2 e a dom f).nvm = s.nvm := by
  simp only [State.sys2, State.sysFun_nvm]

/-! Machine/Port: the commands of the port. -/

theorem cpStatus_nvm (s : State) (st : CpSt) : (cpStatus s st).1.nvm = s.nvm := by simp only [cpStatus]

theorem State.cpKey_nvm {s : State} {f : State × CpAns} (h : f.1.nvm = s.nvm) (key : Nat) :
    (s.cpKey key f).1.nvm = s.nvm := by
  unfold State.cpKey
  split_ifs
  · exact h
  · simp only [State.bump_nvm, cpStatus_nvm]

theorem State.opIdentify_nvm (s : State) : s.opIdentify.1.nvm = s.nvm := by simp only [State.opIdentify]

theorem State.opStatus_nvm (s : State) : s.opStatus.1.nvm = s.nvm := by simp only [State.opStatus]

theorem State.cpUnmapped_nvm (s : State) (a n : Nat) : (s.cpUnmapped a n).nvm = s.nvm := by
  simp only [State.cpUnmapped, State.busErr_nvm, apply_ite State.nvm, ite_self]

theorem State.cpReadWords_nvm : ∀ (n : Nat) (s : State) (a : Nat), (s.cpReadWords a n).1.nvm = s.nvm
  | 0, _, _ => rfl
  | n + 1, s, a => by simp only [State.cpReadWords, cpReadWords_nvm n, State.busRead_nvm]

theorem State.opRd_nvm (s : State) (p : List Byte) : (s.opRd p).1.nvm = s.nvm := by
  simp -implicitDefEqProofs only [State.opRd, State.busErr_nvm, State.cpReadWords_nvm, State.cpUnmapped_nvm, cpStatus_nvm,
    apply_ite State.nvm, ite_self, apply_ite Prod.fst]

theorem State.opImgBegin_otp (s : State) (p : List Byte) : (s.opImgBegin p).1.nvm.otp = s.nvm.otp := by
  simp only [State.opImgBegin, State.modNvm_nvm, cpStatus_nvm, apply_ite State.nvm, apply_ite Nvm.otp, ite_self, apply_ite Prod.fst]

theorem State.opImgData_otp (s : State) (p : List Byte) : (s.opImgData p).1.nvm.otp = s.nvm.otp := by
  simp -implicitDefEqProofs only [State.opImgData]
  split <;> simp -implicitDefEqProofs only [State.modNvm_nvm, cpStatus_nvm, apply_ite State.nvm, apply_ite Nvm.otp, ite_self,
    apply_ite Prod.fst]

theorem State.opImgCommit_nvm (s : State) : s.opImgCommit.1.nvm = s.nvm := by
  simp only [State.opImgCommit, cpStatus_nvm, apply_ite State.nvm, ite_self, apply_ite Prod.fst]

theorem State.actRefused_nvm (s : State) (st : CpSt) : (s.actRefused st).1.nvm = s.nvm := by
  simp only [State.actRefused, State.set_nvm, cpStatus_nvm, apply_ite State.nvm, ite_self]

theorem State.opImgActivate_nvm (s : State) : s.opImgActivate.1.nvm = s.nvm := by
  simp -implicitDefEqProofs only [State.opImgActivate, cpStatus_nvm, apply_ite State.nvm, apply_ite Prod.fst]
  repeat' split
  · rfl
  · simp -implicitDefEqProofs only [State.actRefused_nvm]
  · simp -implicitDefEqProofs only [State.actRefused_nvm]
  · simp -implicitDefEqProofs only [State.actRefused_nvm]
  · simp -implicitDefEqProofs only [State.actRefused_nvm]
  · rfl
  · simp -implicitDefEqProofs only [State.actRefused_nvm]
  · simp -implicitDefEqProofs only [State.actRefused_nvm]
  · simp -implicitDefEqProofs only [State.actRefused_nvm]
  · rfl

theorem State.opImgFlash_nvm (s : State) (p : List Byte) : (s.opImgFlash p).1.nvm = s.nvm := by
  simp -implicitDefEqProofs only [State.opImgFlash]
  split <;> simp -implicitDefEqProofs only [cpStatus_nvm, apply_ite State.nvm, ite_self, apply_ite Prod.fst]

theorem State.opImgStatus_nvm (s : State) : s.opImgStatus.1.nvm = s.nvm := by simp only [State.opImgStatus]

theorem State.opOtpRead_nvm (s : State) (p : List Byte) : (s.opOtpRead p).1.nvm = s.nvm := by
  simp only [State.opOtpRead, cpStatus_nvm, apply_ite State.nvm, ite_self, apply_ite Prod.fst]

theorem State.opOtpStage_otp (s : State) (p : List Byte) : (s.opOtpStage p).1.nvm.otp = s.nvm.otp := by
  simp only [State.opOtpStage, State.modNvm_nvm, cpStatus_nvm, apply_ite State.nvm, apply_ite Nvm.otp, ite_self, apply_ite Prod.fst]

theorem State.opOtpBurn_nvm (s : State) (p : List Byte) : (s.opOtpBurn p).1.nvm = s.nvm := by
  simp only [State.opOtpBurn, State.cpKey_nvm, cpStatus_nvm, apply_ite State.nvm, ite_self, apply_ite Prod.fst]

theorem State.opOtpRevoke_nvm (s : State) (p : List Byte) : (s.opOtpRevoke p).1.nvm = s.nvm := by
  simp only [State.opOtpRevoke, State.cpKey_nvm, cpStatus_nvm, apply_ite State.nvm, ite_self, apply_ite Prod.fst]

theorem State.cpSkWrite_nvm (s : State) (v : Word) : (s.cpSkWrite v).1.nvm = s.nvm := by
  simp only [State.cpSkWrite, State.modCp_nvm, skCmdWrite_nvm, apply_ite State.nvm, ite_self, apply_ite Prod.fst]

theorem State.opSkMode_nvm (s : State) (p : List Byte) : (s.opSkMode p).1.nvm = s.nvm := by
  simp only [State.opSkMode, State.cpSkWrite_nvm, cpStatus_nvm, apply_ite State.nvm, ite_self, apply_ite Prod.fst]

theorem State.opSkStakeHere_nvm (s : State) : s.opSkStakeHere.1.nvm = s.nvm := by
  simp only [State.opSkStakeHere, State.cpSkWrite_nvm, apply_ite State.nvm, ite_self, apply_ite Prod.fst]

theorem State.opSkHalt_nvm (s : State) : s.opSkHalt.1.nvm = s.nvm := by
  simp only [State.opSkHalt, State.cpSkWrite_nvm, apply_ite State.nvm, ite_self, apply_ite Prod.fst]

theorem State.writeProposal_nvm (s : State) : s.writeProposal.nvm = s.nvm := by
  simp -implicitDefEqProofs only [State.writeProposal, State.modStream_nvm, State.setShWord_nvm, foldl_nvm, implies_true,
    apply_ite State.nvm, ite_self]

theorem State.opSurveyCommit_nvm (s : State) : s.opSurveyCommit.1.nvm = s.nvm := by
  simp only [State.opSurveyCommit, State.set_nvm, State.writeProposal_nvm, cpStatus_nvm, apply_ite State.nvm, ite_self,
    apply_ite Prod.fst]

theorem State.opSurveyDiscard_nvm (s : State) : s.opSurveyDiscard.1.nvm = s.nvm := by
  simp only [State.opSurveyDiscard, State.set_nvm, cpStatus_nvm, apply_ite State.nvm, ite_self, apply_ite Prod.fst]

theorem State.opSurveyStatus_nvm (s : State) : s.opSurveyStatus.1.nvm = s.nvm := by simp only [State.opSurveyStatus]

theorem State.opSelftest_nvm (s : State) (p : List Byte) : (s.opSelftest p).1.nvm = s.nvm := by
  simp only [State.opSelftest, cpStatus_nvm, apply_ite State.nvm, ite_self, apply_ite Prod.fst]

theorem State.opSelftestLast_nvm (s : State) : s.opSelftestLast.1.nvm = s.nvm := by simp only [State.opSelftestLast]

theorem State.opTimeGet_nvm (s : State) : s.opTimeGet.1.nvm = s.nvm := by simp only [State.opTimeGet, State.busRead_nvm]

theorem State.opPairStatus_nvm (s : State) : s.opPairStatus.1.nvm = s.nvm := by simp only [State.opPairStatus]

theorem State.cpRecords_nvm : ∀ (n : Nat) (s : State) (left : Nat), (s.cpRecords left n).1.nvm = s.nvm
  | 0, _, _ => rfl
  | n + 1, s, left => by
    unfold State.cpRecords
    split
    · rfl
    · simp only [cpRecords_nvm n, State.recNext_nvm, apply_ite Prod.fst, apply_ite State.nvm, ite_self]

theorem State.opRecRead_nvm (s : State) : s.opRecRead.1.nvm = s.nvm := by
  simp -implicitDefEqProofs only [State.opRecRead, State.cpRecords_nvm, State.refreshWindow_nvm]

theorem State.opForceList_nvm (s : State) (p : List Byte) : (s.opForceList p).1.nvm = s.nvm := by
  simp only [State.opForceList, cpStatus_nvm, apply_ite State.nvm, ite_self, apply_ite Prod.fst]

theorem State.fwDoze_nvm (s : State) (x : Nat) : (s.fwDoze x).nvm = s.nvm := by
  simp only [State.fwDoze, State.setDoze_nvm, apply_ite State.nvm, ite_self]

theorem State.cpPart_nvm (s : State) (t : Nat) (b : List Byte) : (s.cpPart t b).nvm = s.nvm := by
  simp only [State.cpPart, State.modCp_nvm]

end Sys2Proof.Machine
end

-- ==== The OTP array through the functions of the machine ====
section
/-!
PROOFS. The OTP array's bits (O6): that an array has grown from another as a predicate of the non-volatile memory alone, what a burn
adds to it, the burn that a reset cuts short, and one lemma for each function that can reach such a reset.
-/
namespace Sys2Proof.Machine

/-! The OTP array. -/

/-- The bytes of an OTP array. -/
def otpByte (o : List Host.Cell) (a : Nat) : Byte := mapGet (fun _ => 0) a o

/-- Every bit of the array o₀ is 1 still, and outside the configuration generations and the revocation bytes nothing was burned. -/
def Nvm.OtpFrom (o₀ : List Host.Cell) (n : Nvm) : Prop :=
  mapWf (fun _ => (0 : Byte)) n.otp = true ∧ ∀ a, otpByte o₀ a &&& otpByte n.otp a = otpByte o₀ a
    ∧ (a < 0x200 ∨ 0xA04 ≤ a → otpByte n.otp a = otpByte o₀ a)

theorem rangeFrom_length (d : Byte) : ∀ (n a : Nat) (l : List Host.Cell), (rangeFrom d a n l).length = n
  | 0, _, _ => rfl
  | n + 1, a, [] => congrArg (· + 1) (rangeFrom_length d n (a + 1) [])
  | n + 1, a, (k, v) :: t => by
    unfold rangeFrom
    split
    · exact congrArg (· + 1) (rangeFrom_length d n (a + 1) t)
    · exact congrArg (· + 1) (rangeFrom_length d n (a + 1) ((k, v) :: t))

/-- Below its first key a store reads its default. -/
theorem mapGet_of_wfFrom {d : Byte} : ∀ (l : List Host.Cell) {lo a : Nat}, mapWfFrom (fun _ => d) lo l = true → a < lo →
    mapGet (fun _ => d) a l = d
  | [], _, _, _, _ => rfl
  | (k, v) :: t, lo, a, h, ha => by
    simp only [mapWfFrom, Bool.and_eq_true, decide_eq_true_eq] at h
    rw [mapGet, if_neg (by omega)]
    exact mapGet_of_wfFrom t h.2 (by omega)

theorem rangeFrom_getD {d : Byte} : ∀ (n : Nat) {a : Nat} (l : List Host.Cell) {i : Nat}, mapWfFrom (fun _ => d) a l = true → i < n →
    (rangeFrom d a n l).getD i d = mapGet (fun _ => d) (a + i) l
  | n + 1, a, [], 0, _, _ => rfl
  | n + 1, a, [], i + 1, h, hi => by
    rw [rangeFrom, List.getD_cons_succ, rangeFrom_getD n [] rfl (by omega)]
    rfl
  | n + 1, a, (k, v) :: t, i, h, hi => by
    have hw := h
    simp only [mapWfFrom, Bool.and_eq_true, decide_eq_true_eq] at hw
    obtain ⟨⟨hk, -⟩, ht⟩ := hw
    unfold rangeFrom
    split
    · next hka =>
      subst hka
      cases i with
      | zero => rw [List.getD_cons_zero, mapGet, if_pos (Nat.add_zero k)]
      | succ i =>
        rw [List.getD_cons_succ, rangeFrom_getD n t ht (by omega), mapGet, if_neg (by omega), Nat.add_right_comm, Nat.add_assoc]
    · next hka =>
      have hrest : mapWfFrom (fun _ => d) (a + 1) ((k, v) :: t) = true := by
        simp only [mapWfFrom, Bool.and_eq_true, decide_eq_true_eq] at h ⊢
        exact ⟨⟨by omega, h.1.2⟩, h.2⟩
      cases i with
      | zero => exact (mapGet_of_wfFrom _ hrest (by omega)).symm
      | succ i => rw [List.getD_cons_succ, rangeFrom_getD n _ hrest (by omega), Nat.add_right_comm, Nat.add_assoc]

/-- The entries from an address on read as the whole store does there. -/
theorem mapGet_dropWhile {d : Byte} (a : Nat) : ∀ (l : List Host.Cell) {lo : Nat}, mapWfFrom (fun _ => d) lo l = true →
    mapWfFrom (fun _ => d) a (l.dropWhile fun c => decide (c.1 < a)) = true
      ∧ ∀ x, a ≤ x → mapGet (fun _ => d) x (l.dropWhile fun c => decide (c.1 < a)) = mapGet (fun _ => d) x l
  | [], _, _ => ⟨rfl, fun _ _ => rfl⟩
  | (k, v) :: t, lo, h => by
    have hw := h
    simp only [mapWfFrom, Bool.and_eq_true, decide_eq_true_eq] at hw
    obtain ⟨⟨-, hv⟩, ht⟩ := hw
    by_cases hka : k < a
    · obtain ⟨hwf, hget⟩ := mapGet_dropWhile a t ht
      rw [List.dropWhile_cons_of_pos (by simpa using hka)]
      refine ⟨hwf, fun x hx => (hget x hx).trans ?_⟩
      rw [mapGet, if_neg (by omega)]
    · rw [List.dropWhile_cons_of_neg (by simpa using hka)]
      refine ⟨?_, fun _ _ => rfl⟩
      simp only [mapWfFrom, Bool.and_eq_true, decide_eq_true_eq]
      exact ⟨⟨by omega, hv⟩, ht⟩

/-- A byte of a range of a canonical store. -/
theorem storeRange_getD {d : Byte} {l : List Host.Cell} (h : mapWf (fun _ => d) l = true) (a : Nat) {i n : Nat} (hi : i < n) :
    (storeRange d l a n).getD i d = mapGet (fun _ => d) (a + i) l := by
  obtain ⟨hwf, hget⟩ := mapGet_dropWhile (d := d) a l h
  rw [storeRange, rangeFrom_getD n _ hwf hi, hget _ (by omega)]

theorem storeRange_length (d : Byte) (l : List Host.Cell) (a n : Nat) : (storeRange d l a n).length = n := rangeFrom_length d n a _

/-- Bytes put into a store, from their index on. -/
theorem mapGet_putFrom (d : Byte) (a x : Nat) : ∀ (b : List Byte) (i : Nat) (l : List Host.Cell),
    mapGet (fun _ => d) x ((b.zipIdx i).foldl (fun m e => mapSet (fun _ => d) (a + e.2) e.1 m) l)
      = if a + i ≤ x ∧ x < a + i + b.length then b.getD (x - (a + i)) d else mapGet (fun _ => d) x l
  | [], i, l => by simp
  | c :: b, i, l => by
    rw [List.zipIdx_cons, List.foldl_cons, mapGet_putFrom d a x b (i + 1), mapGet_mapSet, List.length_cons]
    by_cases hx : x = a + i
    · rw [if_neg (by omega), if_pos hx, if_pos (by omega), hx, Nat.sub_self, List.getD_cons_zero]
    · by_cases hin : a + (i + 1) ≤ x ∧ x < a + (i + 1) + b.length
      · rw [if_pos hin, if_pos (by omega), show x - (a + i) = x - (a + (i + 1)) + 1 by omega, List.getD_cons_succ]
      · rw [if_neg hin, if_neg hx, if_neg (by omega)]

theorem mapGet_storePut (d : Byte) (l : List Host.Cell) (a : Nat) (b : List Byte) (x : Nat) :
    mapGet (fun _ => d) x (storePut d l a b) = if a ≤ x ∧ x < a + b.length then b.getD (x - a) d else mapGet (fun _ => d) x l :=
  mapGet_putFrom d a x b 0 l

theorem mapWf_storePut {d : Byte} {l : List Host.Cell} (h : mapWf (fun _ => d) l = true) (a : Nat) (b : List Byte) :
    mapWf (fun _ => d) (storePut d l a b) = true := by
  unfold storePut
  generalize b.zipIdx = e
  induction e generalizing l with
  | nil => exact h
  | cons x e ih => exact ih (mapWf_mapSet _ _ h)

@[simp] theorem State.showJobs_nvm (s : State) : s.showJobs.nvm = s.nvm := foldl_keeps State.nvm _ (fun _ _ => by rfl) _ _

@[simp] theorem State.showRec_nvm (s : State) (k : Nat) (r : Option InRec) : (s.showRec k r).nvm = s.nvm := by
  cases r with
  | none => rfl
  | some r =>
    rw [State.showRec, State.setWord_nvm]
    exact foldl_keeps State.nvm _ (fun _ _ => by rfl) _ s

@[simp] theorem State.latchSlot_nvm (s : State) (k : Nat) : (s.latchSlot k).1.nvm = s.nvm := by
  simp only [State.latchSlot, State.setFlag_nvm, State.showRec_nvm]

@[simp] theorem State.latchSlots_nvm (s : State) : s.latchSlots.nvm = s.nvm := by
  rw [State.latchSlots, State.modAlc_nvm, State.setFlag_nvm]
  exact foldl_keeps (fun x : State × List ASlot => x.1.nvm) _ (fun x k => x.1.latchSlot_nvm k) s.alcSlots (s, [])

section
variable {o₀ : List Host.Cell}

/-- It speaks of the array alone. -/
theorem Nvm.OtpFrom.of_otp {n m : Nvm} (h : n.OtpFrom o₀) (hotp : m.otp = n.otp) : m.OtpFrom o₀ := by
  rw [Nvm.OtpFrom, hotp]
  exact h

/-- Bytes burned over the generations or the revocation bytes, the old bits among theirs. -/
theorem Nvm.OtpFrom.burned {n m : Nvm} (h : n.OtpFrom o₀) {a : Nat} {b : List Byte} (hlo : 0x200 ≤ a) (hhi : a + b.length ≤ 0xA04)
    (hbits : ∀ i < b.length, otpByte n.otp (a + i) &&& b.getD i 0 = otpByte n.otp (a + i)) (hm : m.otp = storePut 0 n.otp a b) :
    m.OtpFrom o₀ := by
  obtain ⟨hwf, hget⟩ := h
  rw [Nvm.OtpFrom, hm]
  refine ⟨mapWf_storePut hwf a b, fun x => ?_⟩
  obtain ⟨hgrown, hout⟩ := hget x
  rw [otpByte, otpByte, mapGet_storePut]
  split
  · next hx =>
    refine ⟨?_, fun h => by omega⟩
    have hb := hbits (x - a) (by omega)
    rw [show a + (x - a) = x by omega] at hb
    change otpByte o₀ x &&& _ = otpByte o₀ x
    rw [← hgrown, BitVec.and_assoc, hb]
  · exact ⟨hgrown, hout⟩

theorem and_or_self (x y : Byte) : x &&& (x ||| y) = x := by
  ext i
  simp +contextual

/-- A byte of the array, read as a range. -/
theorem otpBytes_getD {s : State} (h : s.nvm.OtpFrom o₀) (a : Nat) {i n : Nat} (hi : i < n) :
    (s.otpBytes a n).getD i 0 = otpByte s.nvm.otp (a + i) := storeRange_getD h.1 a hi

theorem otpBytes_length (s : State) (a n : Nat) : (s.otpBytes a n).length = n := storeRange_length 0 _ a n

/-- Bytes with those of a block of the array or-ed in hold its bits. -/
theorem burned_getD {s : State} (h : s.nvm.OtpFrom o₀) (a : Nat) {n : Nat} (y : List Byte) (i : Nat)
    (hi : i < (List.zipWith (fun x y => x ||| y) (s.otpBytes a n) y).length) :
    otpByte s.nvm.otp (a + i) &&& (List.zipWith (fun x y => x ||| y) (s.otpBytes a n) y).getD i 0 = otpByte s.nvm.otp (a + i) := by
  have hn : i < n := by
    rw [List.length_zipWith, otpBytes_length] at hi
    omega
  have hx := otpBytes_getD h a hn
  rw [List.getD_eq_getElem _ _ hi, List.getElem_zipWith]
  rw [List.getD_eq_getElem _ _ (by rw [otpBytes_length]; exact hn)] at hx
  rw [hx, and_or_self]

theorem State.putJob_otpFrom {s : State} (h : s.nvm.OtpFrom o₀) (j : Job) : (s.putJob j).nvm.OtpFrom o₀ := h


/-! A burn cut short by a reset (R364). -/

theorem cutBurn_length (s : State) (g : Nat) {want : List Byte} (hwant : want.length = 512) : (s.cutBurn g want).length = 512 := by
  unfold State.cutBurn
  extract_lets old got
  have hold : old.length = 512 := otpBytes_length s _ 512
  have hgot : got.length = 512 := by
    simp only [got, List.length_zipWith, hold, hwant, State.freeBytes, List.length_map, List.length_range]
    decide
  split
  · rw [List.length_append, List.length_take, List.length_drop, hold, hgot]
    decide
  · exact hgot

/-- The block's old bits are among those that a burn cut short leaves. -/
theorem cutBurn_getD {s : State} (h : s.nvm.OtpFrom o₀) (g : Nat) {want : List Byte} {i : Nat} (hi : i < (s.cutBurn g want).length) :
    otpByte s.nvm.otp (0x200 + 0x200 * g + i) &&& (s.cutBurn g want).getD i 0 = otpByte s.nvm.otp (0x200 + 0x200 * g + i) := by
  have hgot (j : Nat) := burned_getD h (0x200 + 0x200 * g) (n := 512) (List.zipWith (fun a b => a &&& b) want (s.freeBytes 512)) j
  have hold (j : Nat) (hj : j < 512) := otpBytes_getD h (0x200 + 0x200 * g) hj
  unfold State.cutBurn at hi ⊢
  extract_lets old got at hi
  extract_lets
  have hlen : old.length = 512 := otpBytes_length s _ 512
  split at hi
  · next hvalid =>
    rw [if_pos hvalid]
    rw [List.length_append, List.length_take, List.length_drop, hlen] at hi
    by_cases hj : i < 4
    · have htake : (old.take 4 ++ got.drop 4).getD i 0 = old.getD i 0 := by
        rw [List.getD_append _ _ _ _ (by rw [List.length_take, hlen]; omega), List.getD_eq_getElem?_getD, List.getElem?_take_of_lt hj,
          ← List.getD_eq_getElem?_getD]
      rw [htake]
      exact (congrArg (otpByte s.nvm.otp (0x200 + 0x200 * g + i) &&& ·) (hold i (by omega))).trans BitVec.and_self
    · have hdrop : (old.take 4 ++ got.drop 4).getD i 0 = got.getD i 0 := by
        rw [List.getD_append_right _ _ _ _ (by rw [List.length_take, hlen]; omega), List.length_take, hlen, List.getD_eq_getElem?_getD,
          List.getElem?_drop, List.getD_eq_getElem?_getD, show 4 + (i - min 4 512) = i by omega]
      rw [hdrop]
      exact hgot i (show i < got.length by omega)
  · next hvalid =>
    rw [if_neg hvalid]
    exact hgot i hi

theorem State.cutWrites_otpFrom {s : State} (h : s.nvm.OtpFrom o₀) : s.cutWrites.OtpFrom o₀ := by
  have hkeep : ({ Nvm.init with otp := s.nvm.otp, flash := s.nvm.flash } : Nvm).OtpFrom o₀ := h.of_otp rfl
  unfold State.cutWrites
  dsimp only
  split
  · exact hkeep
  · split
    · next o _ _ =>
      have hg : leNat (o.payload.drop 2 |>.take 1) % 4 < 4 := Nat.mod_lt _ (by decide)
      generalize leNat (o.payload.drop 2 |>.take 1) % 4 = g at hg ⊢
      have hlen : (s.cutBurn g s.stageBytes).length = 512 := cutBurn_length s g (storeRange_length 0 _ 0 512)
      exact Nvm.OtpFrom.burned h (by omega) (by omega) (fun i hi => cutBurn_getD h g hi) rfl
    · split
      · next o _ _ _ =>
        have hg : leNat (o.payload.drop 2 |>.take 1) % 4 < 4 := Nat.mod_lt _ (by decide)
        generalize leNat (o.payload.drop 2 |>.take 1) % 4 = g at hg ⊢
        have hlen : (List.zipWith (fun x y => x ||| y) (s.otpBytes (0xA00 + g) 1) (s.freeBytes 1)).length ≤ 1 := by
          rw [List.length_zipWith, otpBytes_length]
          omega
        exact Nvm.OtpFrom.burned h (by omega) (by omega) (fun i hi => burned_getD h (0xA00 + g) _ i hi) rfl
      · split
        · exact hkeep.of_otp rfl
        · exact hkeep


theorem foldl_otpFrom {β : Type} {f : State → β → State} (hf : ∀ t b, t.nvm.OtpFrom o₀ → (f t b).nvm.OtpFrom o₀) :
    ∀ (l : List β) {s : State}, s.nvm.OtpFrom o₀ → (l.foldl f s).nvm.OtpFrom o₀
  | [], _, h => h
  | b :: l, s, h => foldl_otpFrom hf l (hf s b h)

theorem foldl_fst_otpFrom {α β : Type} {f : State × α → β → State × α}
    (hf : ∀ t b, t.1.nvm.OtpFrom o₀ → (f t b).1.nvm.OtpFrom o₀) :
    ∀ (l : List β) {s : State × α}, s.1.nvm.OtpFrom o₀ → (l.foldl f s).1.nvm.OtpFrom o₀
  | [], _, h => h
  | b :: l, s, h => foldl_fst_otpFrom hf l (hf s b h)

theorem ite_otpFrom {p : Prop} [Decidable p] {s t : State} (hs : s.nvm.OtpFrom o₀) (ht : t.nvm.OtpFrom o₀) :
    (if p then s else t).nvm.OtpFrom o₀ := by
  split
  · exact hs
  · exact ht

theorem State.writeGuard_otpFrom {f : State → State × CpSt} (hf : ∀ t : State, t.nvm.OtpFrom o₀ → (f t).1.nvm.OtpFrom o₀)
    {s : State}
    (h : s.nvm.OtpFrom o₀) (d : Dom) (a : Nat) : (s.writeGuard d a f).1.nvm.OtpFrom o₀ := by
  unfold State.writeGuard
  split
  · exact h
  · split_ifs
    · simpa only [State.offAccess_nvm] using h
    · exact hf s h
    · simpa only [State.offAccess_nvm] using h

theorem State.keyGuard_otpFrom {f : State → State × CpSt} (hf : ∀ t : State, t.nvm.OtpFrom o₀ → (f t).1.nvm.OtpFrom o₀) {s : State}
    (h : s.nvm.OtpFrom o₀) (v : Word) : (s.keyGuard v f).1.nvm.OtpFrom o₀ := by
  unfold State.keyGuard
  split_ifs
  · exact hf s h
  · simpa only [State.bump_nvm] using h

theorem State.admitWaiting_otpFrom : ∀ (n c : Nat) {s : State}, s.nvm.OtpFrom o₀ → (s.admitWaiting c n).nvm.OtpFrom o₀
  | 0, _, _, h => h
  | n + 1, c, s, h => by
    unfold State.admitWaiting
    split
    · exact h
    · split_ifs
      · refine admitWaiting_otpFrom n c ?_
        rw [State.pmu_nvm]
        exact putJob_otpFrom h _
      · exact h

theorem State.putRecord_otpFrom {s : State} (h : s.nvm.OtpFrom o₀) (proc unit addr : Nat) (b : List Byte) :
    (s.putRecord proc unit addr b).nvm.OtpFrom o₀ := by
  unfold State.putRecord
  split_ifs
  · exact h
  · rwa [State.storeBytes_nvm]

/-- A register's write, where it has one of its own, leaves such an array. -/
def WriteOtpFrom (o₀ : List Host.Cell) (o : Option (State × CpSt)) : Prop := ∀ w, o = some w → w.1.nvm.OtpFrom o₀

theorem writeOtpFrom_some (w : State × CpSt) : WriteOtpFrom o₀ (some w) ↔ w.1.nvm.OtpFrom o₀ :=
  ⟨fun h => h w rfl, fun h _ hw => Option.some.inj hw ▸ h⟩

theorem writeOtpFrom_none : WriteOtpFrom o₀ none := fun _ hw => nomatch hw

/-! Machine/Time: time and its references. -/

theorem State.moveSince_otpFrom {s : State} (h : s.nvm.OtpFrom o₀) (d : Int) : (s.moveSince d).nvm.OtpFrom o₀ := h

theorem State.stepCount_otpFrom {s : State} (h : s.nvm.OtpFrom o₀) (d : Int) : (s.stepCount d).nvm.OtpFrom o₀ := by
  simp only [State.stepCount, State.bump_nvm, State.modTime_nvm, State.setFlag_nvm, State.moveSince_otpFrom, h]

theorem State.firstOfs_otpFrom {s : State} (h : s.nvm.OtpFrom o₀) (r : Nat) (ofs : Int) : (s.firstOfs r ofs).nvm.OtpFrom o₀ := by
  simp only [State.firstOfs, State.lockTo_nvm, State.modRef_nvm, State.record_nvm, State.stepCount_otpFrom, h]

theorem State.refOffset_otpFrom {s : State} (h : s.nvm.OtpFrom o₀) (r : Nat) (ofs : Int) (sigma : Nat) :
    (s.refOffset r ofs sigma).nvm.OtpFrom o₀ := by
  simp only [State.refOffset, State.lockTo_nvm, State.measure_nvm, State.modRef_nvm, State.refuseOfs_nvm, State.showOfs_nvm,
    State.slewBy_nvm, State.startSlew_nvm, State.takeOfs_nvm, State.toHoldover_nvm, apply_ite State.nvm, ite_self]
  split
  · exact State.firstOfs_otpFrom (by rwa [State.modRef_nvm]) _ _
  · exact h

theorem State.gnSolution_otpFrom {s : State} (h : s.nvm.OtpFrom o₀) (ofs : Int) (sigma : Nat) :
    (s.gnSolution ofs sigma).nvm.OtpFrom o₀ := by
  simp only [State.gnSolution, State.gnSlewDone_nvm, State.setFlag_nvm, State.setGnTq_nvm, State.setWord_nvm,
    State.seti_nvm, State.refOffset_otpFrom, apply_ite State.nvm, ite_self, h]

theorem timeStepWrite_otpFrom {s : State} (h : s.nvm.OtpFrom o₀) (d : Dom) (v : Word) :
    (timeStepWrite s d v).1.nvm.OtpFrom o₀ := by
  refine State.writeGuard_otpFrom (fun t ht => State.keyGuard_otpFrom (fun u hu => ?_) ht v) h d R.TIME_STEP
  simp -implicitDefEqProofs only [State.modTime_nvm, State.setFlag_nvm, State.stepDone_nvm, State.stepRefused_nvm,
    State.stepCount_otpFrom, apply_ite State.nvm, apply_ite (Nvm.OtpFrom o₀), ite_self, apply_ite Prod.fst, hu]

theorem State.ptpOffset_otpFrom {s : State} (h : s.nvm.OtpFrom o₀) (p : Nat) (origin : Int) (rx : Nat) :
    (s.ptpOffset p origin rx).nvm.OtpFrom o₀ := by
  unfold State.ptpOffset
  extract_lets x s₁ ofs offs s₂
  have h₁ : s₁.nvm.OtpFrom o₀ := by rwa [State.modPort_nvm]
  split
  · exact State.refOffset_otpFrom (by rwa [State.modPort_nvm]) _ _ _
  · exact h₁

/-! Machine/Power: domains and resets. -/

theorem State.unitsOff_otpFrom {s : State} (h : s.nvm.OtpFrom o₀) (d : Nat) : (s.unitsOff d).nvm.OtpFrom o₀ := by
  unfold State.unitsOff
  split
  case h_4 => exact h
  all_goals exact h

theorem State.domainOff_otpFrom {s : State} (h : s.nvm.OtpFrom o₀) (d : Nat) : (s.domainOff d).nvm.OtpFrom o₀ := by
  simp only [State.domainOff, State.gpioReleased_nvm, State.ppsReleased_nvm, State.set_nvm, State.setGnTq_nvm,
    State.shadowHeld_nvm, State.timeKept_nvm, apply_ite State.nvm, ite_self]
  refine State.unitsOff_otpFrom ?_ d
  simpa only [State.gpioReleased_nvm, State.modPwr_nvm, State.ppsReleased_nvm, State.set_nvm, State.setGnTq_nvm,
    State.shadowHeld_nvm, State.timeKept_nvm, apply_ite State.nvm, ite_self, apply_ite Prod.fst] using h

theorem State.switchOff_otpFrom {s : State} (h : s.nvm.OtpFrom o₀) (d : Nat) : (s.switchOff d).nvm.OtpFrom o₀ := by
  simp only [State.switchOff, State.set_nvm, State.domainOff_otpFrom, apply_ite State.nvm, ite_self, h]

theorem domReqWrite_otpFrom {s : State} (h : s.nvm.OtpFrom o₀) (w : Dom) (v : Word) : (domReqWrite s w v).1.nvm.OtpFrom o₀ := by
  refine State.writeGuard_otpFrom (fun t ht => ?_) h w R.PWR_DOM_REQ
  dsimp only
  split_ifs
  · rwa [State.pwrRefused_nvm]
  · refine foldl_otpFrom (fun u d hu => ?_) _ ht
    split_ifs
    · rwa [State.switchOn_nvm]
    · exact State.switchOff_otpFrom hu d

theorem State.deviceReset_otpFrom {s : State} (h : s.nvm.OtpFrom o₀) (k : ResetKind) : (s.deviceReset k).nvm.OtpFrom o₀ := by
  simp only [State.deviceReset, State.emit_nvm, State.gpioReleased_nvm, State.ppsReleased_nvm, State.record_nvm,
    State.set_nvm, State.setFlag_nvm, State.shadowHeld_nvm, foldl_nvm, implies_true, apply_ite State.nvm, ite_self]
  exact State.cutWrites_otpFrom h

theorem kickWrite_otpFrom {s : State} (h : s.nvm.OtpFrom o₀) (d : Dom) (v : Word) : (kickWrite s d v).1.nvm.OtpFrom o₀ := by
  refine State.writeGuard_otpFrom (fun t ht => ?_) h d R.RST_KICK
  simp only [apply_ite Prod.fst, apply_ite State.nvm, apply_ite (Nvm.OtpFrom o₀), State.deviceReset_otpFrom, State.kickWdog_nvm,
    ht, ite_self]

theorem softWrite_otpFrom {s : State} (h : s.nvm.OtpFrom o₀) (d : Dom) (v : Word) : (softWrite s d v).1.nvm.OtpFrom o₀ := by
  refine State.writeGuard_otpFrom (fun t ht => State.keyGuard_otpFrom (fun u hu => ?_) ht v) h d R.RST_SOFT
  simp only [apply_ite Prod.fst, apply_ite State.nvm, apply_ite (Nvm.OtpFrom o₀), State.deviceReset_otpFrom, hu, ite_self]

theorem pwrCtrlWrite_otpFrom {s : State} (h : s.nvm.OtpFrom o₀) (d : Dom) (v : Word) : (pwrCtrlWrite s d v).1.nvm.OtpFrom o₀ := by
  refine State.writeGuard_otpFrom (fun t ht => State.keyGuard_otpFrom (fun u hu => ?_) ht v) h d R.PWR_CTRL
  dsimp only
  split_ifs
  · exact hu
  · rwa [State.pwrRefused_nvm]
  · exact foldl_otpFrom (fun w e hw => State.domainOff_otpFrom hw e) _ hu

/-! Machine/Jobs: the solver fabric. -/

theorem State.answer_otpFrom {s : State} (h : s.nvm.OtpFrom o₀) (j : Job) (status reason : Nat) :
    (s.answer j status reason).nvm.OtpFrom o₀ := by
  simp only [State.answer, State.countStatus_nvm, State.jobIrq_nvm, State.setWord_nvm, State.putRecord_otpFrom,
    apply_ite State.nvm, ite_self, h]

theorem State.endJob_otpFrom {s : State} (h : s.nvm.OtpFrom o₀) (j : Job) (status reason : Nat) :
    (s.endJob j status reason).nvm.OtpFrom o₀ := by
  simp only [State.endJob, State.jobIrq_nvm, State.showJobs_nvm, apply_ite State.nvm, ite_self]
  refine State.admitWaiting_otpFrom 64 _ ?_
  simp only [State.modJobs_nvm, State.countStatus_nvm, State.pmu_nvm, State.set_nvm, State.writeOut_nvm, State.putRecord_otpFrom,
    apply_ite State.nvm, ite_self, h]

theorem State.takeJob_otpFrom {s : State} (h : s.nvm.OtpFrom o₀) (j : Job) : (s.takeJob j).nvm.OtpFrom o₀ := by
  simp only [State.takeJob, State.pmu_nvm, State.setWord_nvm, State.showJobs_nvm, apply_ite State.nvm, ite_self,
    apply_ite (Nvm.OtpFrom o₀)]
  split_ifs
  · exact State.answer_otpFrom (by rwa [State.pmu_nvm, State.bump_nvm]) _ _ _
  · exact State.answer_otpFrom (by rwa [State.pmu_nvm, State.bump_nvm]) _ _ _
  · exact h
  · exact h

theorem State.submitInternal_otpFrom {s : State} (h : s.nvm.OtpFrom o₀) (j : Job) : (s.submitInternal j).nvm.OtpFrom o₀ :=
  ite_otpFrom h (State.takeJob_otpFrom h j)

theorem State.submitAt_otpFrom {s : State} (h : s.nvm.OtpFrom o₀) (x a : Nat) : (s.submitAt x a).nvm.OtpFrom o₀ := by
  simp only [State.submitAt, State.set_nvm, State.setWord_nvm, State.answer_otpFrom, State.takeJob_otpFrom,
    apply_ite State.nvm, apply_ite (Nvm.OtpFrom o₀), ite_self, h]

theorem subWrite_otpFrom {s : State} (h : s.nvm.OtpFrom o₀) (d : Dom) (x : Nat) (v : Word) :
    (subWrite s d x v).1.nvm.OtpFrom o₀ := by
  unfold subWrite
  split
  · rwa [State.offAccess_nvm]
  · refine State.writeGuard_otpFrom (fun t ht => ?_) h d (R.JF_SUBL x)
    dsimp only
    split_ifs
    · exact ht
    · exact ht
    · exact State.submitAt_otpFrom ht _ _

theorem jfCfgWrite_otpFrom {s : State} (h : s.nvm.OtpFrom o₀) (d : Dom) (v : Word) : (jfCfgWrite s d v).1.nvm.OtpFrom o₀ := by
  simp only [jfCfgWrite, State.plainWrite_nvm, State.showJobs_nvm, State.admitWaiting_otpFrom, apply_ite State.nvm,
    apply_ite (Nvm.OtpFrom o₀), ite_self, apply_ite Prod.fst, h]

theorem State.startJob_otpFrom {s : State} (h : s.nvm.OtpFrom o₀) (j : Job) (lanes : List Nat) :
    (s.startJob j lanes).nvm.OtpFrom o₀ := by
  simp only [State.startJob, State.showJobs_nvm, State.putJob_otpFrom, h]

theorem State.suspend_otpFrom {s : State} (h : s.nvm.OtpFrom o₀) (j : Job) : (s.suspend j).nvm.OtpFrom o₀ := by
  simp only [State.suspend, State.bump_nvm, State.showJobs_nvm]
  exact h

theorem State.abortJob_otpFrom {s : State} (h : s.nvm.OtpFrom o₀) (j : Job) (reason : Nat) :
    (s.abortJob j reason).1.nvm.OtpFrom o₀ := by
  simp only [State.abortJob]
  split <;> simp only [State.endJob_otpFrom, State.putJob_otpFrom, apply_ite State.nvm, apply_ite (Nvm.OtpFrom o₀), ite_self,
    apply_ite Prod.fst, h]

theorem State.stopJob_otpFrom {s : State} (h : s.nvm.OtpFrom o₀) (j : Job) : (s.stopJob j).nvm.OtpFrom o₀ := by
  simp only [State.stopJob, State.stopUnit_nvm, State.endJob_otpFrom, h]

theorem State.stopInternal_otpFrom {s : State} (h : s.nvm.OtpFrom o₀) : s.stopInternal.nvm.OtpFrom o₀ := by
  refine foldl_otpFrom (fun t j ht => ?_) _ (foldl_otpFrom (fun t x ht => ?_) _ ?_)
  · split_ifs
    · exact State.putJob_otpFrom ht _
    · exact State.stopJob_otpFrom ht j
  · split
    · exact ht
    · simpa only [State.stopUnit_nvm] using State.answer_otpFrom ht _ 5 3
  · exact h

/-! Machine/Estimator: the estimator. -/

theorem State.submitKf_otpFrom {s : State} (hs : s.nvm.OtpFrom o₀) (gate : Word) (h : Mat) (nu : List Word64) (r : Mat) :
    (s.submitKf gate h nu r).nvm.OtpFrom o₀ := State.submitInternal_otpFrom hs _

theorem State.runUpds_otpFrom : ∀ (l : List Upd) {s : State}, s.nvm.OtpFrom o₀ → (s.runUpds l).nvm.OtpFrom o₀
  | [], _, hs => hs
  | u :: rest, s, hs => by
    unfold State.runUpds
    split_ifs
    · exact runUpds_otpFrom rest hs
    · refine runUpds_otpFrom rest ?_
      rwa [State.setWeight_nvm]
    · exact State.submitKf_otpFrom (s := s.modEst _) hs _ _ _ _

theorem State.estStart_otpFrom {s : State} (h : s.nvm.OtpFrom o₀) : s.estStart.nvm.OtpFrom o₀ := by
  simp only [State.estStart, State.modEst_nvm, State.voteFail_nvm, State.votes_nvm, State.submitKf_otpFrom, foldl_nvm,
    implies_true, apply_ite State.nvm, apply_ite (Nvm.OtpFrom o₀), ite_self, h]

theorem State.kfDone_otpFrom {s : State} (h : s.nvm.OtpFrom o₀) (out : Option (KfOut × Bool)) : (s.kfDone out).nvm.OtpFrom o₀ := by
  unfold State.kfDone
  split
  · exact h
  · split
    · exact h
    · split
      · refine State.runUpds_otpFrom _ ?_
        rwa [State.posReset_nvm, State.timeUpdate_nvm]
      · split
        · exact h
        · refine State.runUpds_otpFrom _ ?_
          rwa [State.applyUpd_nvm]

theorem State.egoSolve_otpFrom {s : State} (h : s.nvm.OtpFrom o₀) : s.egoSolve.nvm.OtpFrom o₀ := by
  unfold State.egoSolve
  extract_lets ps fx t0 spread rot s₁ s₂ job
  have h₁ : s₁.nvm.OtpFrom o₀ := by rwa [State.modEst_nvm]
  have h₂ : s₂.nvm.OtpFrom o₀ := by rwa [State.set_nvm]
  split
  · exact h₁
  · split
    · exact State.submitInternal_otpFrom h₂ _
    · split
      · exact State.submitInternal_otpFrom (by rwa [State.modEst_nvm]) _
      · rwa [State.setFlag_nvm]

theorem State.survSubmit_otpFrom {s : State} (h : s.nvm.OtpFrom o₀) : s.survSubmit.nvm.OtpFrom o₀ := by
  simp only [State.survSubmit, State.submitInternal_otpFrom, h]

theorem State.survRun_otpFrom {s : State} (h : s.nvm.OtpFrom o₀) : s.survRun.nvm.OtpFrom o₀ :=
  State.survSubmit_otpFrom (by exact h)

/-! Machine/Pair: the pair. -/

theorem State.gnPower_otpFrom {s : State} (h : s.nvm.OtpFrom o₀) (was : Bool) : (s.gnPower was).nvm.OtpFrom o₀ := by
  simp only [State.gnPower, State.modHa_nvm, State.switchOn_nvm, State.switchOff_otpFrom, apply_ite State.nvm,
    apply_ite (Nvm.OtpFrom o₀), ite_self, h]

theorem State.gnRefresh_otpFrom {s : State} (h : s.nvm.OtpFrom o₀) : s.gnRefresh.nvm.OtpFrom o₀ := by
  unfold State.gnRefresh
  dsimp only
  split_ifs
  · exact h
  · rw [State.modHa_nvm]
    refine State.switchOff_otpFrom (State.switchOff_otpFrom ?_ 9) 10
    rwa [State.advanceTo_nvm]
  · exact h
  · rwa [State.switchOn_nvm, State.switchOn_nvm, State.modHa_nvm, State.advanceTo_nvm]

theorem State.haGo_otpFrom {s : State} (h : s.nvm.OtpFrom o₀) (st : Nat) : (s.haGo st).nvm.OtpFrom o₀ := by
  unfold State.haGo
  extract_lets was s₁ s₂ s₃
  have h₁ : s₁.nvm.OtpFrom o₀ := State.gnPower_otpFrom (by rwa [State.set_nvm]) _
  have h₂ : s₂.nvm.OtpFrom o₀ := by simpa only [s₂, State.haEvt_nvm, apply_ite State.nvm, ite_self] using h₁
  have h₃ : s₃.nvm.OtpFrom o₀ := by
    simp only [s₃]
    split
    · split <;> simpa only [State.follow_nvm, apply_ite State.nvm, ite_self] using h₂
    · exact h₂
  rwa [State.switches_nvm, State.speGate_nvm]

theorem State.demote_otpFrom {s : State} (h : s.nvm.OtpFrom o₀) (cause : Nat) : (s.demote cause).nvm.OtpFrom o₀ := by
  unfold State.demote
  split_ifs
  · exact h
  · rw [State.haEvt_nvm]
    refine State.haGo_otpFrom ?_ 4
    refine State.stopInternal_otpFrom (s := State.dropCmds _) ?_
    simpa only [State.bump_nvm, State.ckStop_nvm, State.dropCmds_nvm, State.haEvt_nvm, State.modEst_nvm, State.modHa_nvm,
      State.set_nvm, apply_ite State.nvm, ite_self] using h

theorem State.higherTerm_otpFrom {s : State} (h : s.nvm.OtpFrom o₀) (t src : Nat) : (s.higherTerm t src).nvm.OtpFrom o₀ := by
  simp only [State.higherTerm, State.follow_nvm, State.demote_otpFrom, apply_ite State.nvm, apply_ite (Nvm.OtpFrom o₀), ite_self,
    h]

theorem State.heartbeat_otpFrom {s : State} (h : s.nvm.OtpFrom o₀) (line : Nat) (b : BitVec 72) (until' : Nat) :
    (s.heartbeat line b until').nvm.OtpFrom o₀ := by
  unfold State.heartbeat
  extract_lets st t src now per s₁ s₂
  have h₂ : s₂.nvm.OtpFrom o₀ := by rwa [State.setFlag_nvm, State.set_nvm, State.modHa_nvm]
  split_ifs
  · rwa [State.follow_nvm]
  · exact h₂
  · exact State.higherTerm_otpFrom h₂ _ _
  · exact State.demote_otpFrom h₂ _
  · exact h₂
  · exact h₂

theorem State.lineShow_otpFrom {s : State} (h : s.nvm.OtpFrom o₀) (i a n : Nat) (l : Line) :
    (s.lineShow i a n l).nvm.OtpFrom o₀ := by
  simp only [State.lineShow, State.bump_nvm, State.haEvt_nvm, State.setFlag_nvm, State.haGo_otpFrom, apply_ite State.nvm,
    apply_ite (Nvm.OtpFrom o₀), ite_self, h]

theorem State.seize_otpFrom {s : State} (h : s.nvm.OtpFrom o₀) : s.seize.nvm.OtpFrom o₀ := by
  unfold State.seize
  rw [State.haEvt_nvm]
  refine State.haGo_otpFrom ?_ 1
  dsimp only
  split <;> simpa -implicitDefEqProofs only [State.adopt_nvm, State.bump_nvm, State.ckptLoad_nvm, State.estReset_nvm,
    State.haEvt_nvm, State.modHa_nvm, State.sendCmds_nvm, State.sendTwin_nvm, State.set_nvm, State.setFlag_nvm,
    State.setWord_nvm, apply_ite State.nvm, ite_self, apply_ite Prod.fst] using h

theorem State.bothSilent_otpFrom {s : State} (h : s.nvm.OtpFrom o₀) : s.bothSilent.nvm.OtpFrom o₀ := by
  simp only [State.bothSilent]
  split <;> simp only [State.ckStop_nvm, State.seizeBlocked_nvm, State.haGo_otpFrom, State.seize_otpFrom,
    apply_ite State.nvm, apply_ite (Nvm.OtpFrom o₀), ite_self, h]

theorem State.periodEnd_otpFrom {s : State} (h : s.nvm.OtpFrom o₀) : s.periodEnd.nvm.OtpFrom o₀ := by
  have hl : ∀ f : Ha → Ha, ∀ l k,
    ((((s.advanceTo (s.perStart + 4000)).modHa f).lineShow 0 s.perStart (s.advanceTo
    (s.perStart + 4000)).retN l).lineShow 1 s.perStart
      (s.advanceTo (s.perStart + 4000)).retN k).nvm.OtpFrom o₀ := fun f l k =>
    State.lineShow_otpFrom (State.lineShow_otpFrom (by rwa [State.modHa_nvm, State.advanceTo_nvm]) _ _ _ _) _ _ _ _
  unfold State.periodEnd
  dsimp only
  split_ifs
  · exact State.bothSilent_otpFrom (hl _ _ _)
  · exact hl _ _ _

theorem State.endSeizing_otpFrom {s : State} (h : s.nvm.OtpFrom o₀) : s.endSeizing.nvm.OtpFrom o₀ := by
  simp only [State.endSeizing, State.modHa_nvm, State.haGo_otpFrom, apply_ite State.nvm, apply_ite (Nvm.OtpFrom o₀), ite_self, h]

theorem haCtrlWrite_otpFrom {s : State} (h : s.nvm.OtpFrom o₀) (d : Dom) (v : Word) : (haCtrlWrite s d v).1.nvm.OtpFrom o₀ := by
  refine State.writeGuard_otpFrom (fun t ht => State.keyGuard_otpFrom (fun u hu => ?_) ht v) h d R.HA_CTRL
  simp -implicitDefEqProofs only [State.ckClear_nvm, State.cres_nvm, State.seizeBlocked_nvm, State.demote_otpFrom,
    State.haGo_otpFrom, State.seize_otpFrom, apply_ite State.nvm, apply_ite (Nvm.OtpFrom o₀), ite_self, apply_ite Prod.fst, hu]

theorem haCfgWrite_otpFrom {s : State} (h : s.nvm.OtpFrom o₀) (d : Dom) (v : Word) : (haCfgWrite s d v).1.nvm.OtpFrom o₀ := by
  refine State.writeGuard_otpFrom (fun t ht => ?_) h d R.HA_CFG
  dsimp only
  split_ifs <;> simp only [State.ckClear_nvm, State.ckStop_nvm, State.linesFrom_nvm, State.plainWrite_nvm,
    State.gnPower_otpFrom, State.haGo_otpFrom, ht]

/-! Machine/Alloc: the allocator. -/

theorem State.submitQp_otpFrom {s : State} (h : s.nvm.OtpFrom o₀) (pass : Nat) (q : Qp) : (s.submitQp pass q).nvm.OtpFrom o₀ :=
  State.submitInternal_otpFrom (by exact h) _

theorem State.startChain_otpFrom {s : State} (h : s.nvm.OtpFrom o₀) (tau : List Word64) (dofs : List Nat) :
    (s.startChain tau dofs).nvm.OtpFrom o₀ := by
  simp only [State.startChain, State.latchSlots_nvm, State.modAlc_nvm, State.submitQp_otpFrom, h]

theorem State.qpDone_otpFrom {s : State} (h : s.nvm.OtpFrom o₀) (status : Nat) (x : List Word64) (act : List (Nat × Word64)) :
    (s.qpDone status x act).nvm.OtpFrom o₀ := by
  unfold State.qpDone
  split
  · exact h
  · extract_lets a n s₁ s₂ s₃ s₄ s₅ done inTol t ds ids s₆
    have h₄ : s₄.nvm.OtpFrom o₀ := by
      simpa only [s₄, s₃, s₂, s₁, State.event_nvm, State.setFlag_nvm, State.bump_nvm, State.set_nvm, apply_ite State.nvm,
        ite_self] using h
    have hdone : (done s₄).nvm.OtpFrom o₀ := by simpa only [done, State.stage_nvm, State.set_nvm, State.setFlag_nvm] using h₄
    have h₆ : s₆.nvm.OtpFrom o₀ := by rwa [State.modAlc_nvm]
    split
    · rwa [State.stage_nvm, State.bump_nvm, State.set_nvm, State.setFlag_nvm]
    · split
      · split
        · exact hdone
        · split
          · exact State.submitQp_otpFrom h₄ _ _
          · exact hdone
      · split
        · exact hdone
        · split <;> exact State.submitQp_otpFrom h₆ _ _

theorem State.masterLaunch_otpFrom {s : State} (h : s.nvm.OtpFrom o₀) : s.masterLaunch.nvm.OtpFrom o₀ := by
  simp only [State.masterLaunch, State.advanceTo_nvm, State.launchIdle_nvm, State.launchMiss_nvm, State.launchStaged_nvm,
    State.demote_otpFrom, apply_ite State.nvm, apply_ite (Nvm.OtpFrom o₀), ite_self, h]

theorem State.subAllocate_otpFrom {s : State} (h : s.nvm.OtpFrom o₀) : s.subAllocate.nvm.OtpFrom o₀ := by
  unfold State.subAllocate
  dsimp only
  split_ifs
  · exact h
  · rwa [State.alcShadow_nvm]
  · refine State.startChain_otpFrom (foldl_otpFrom (fun t j ht => State.stopJob_otpFrom ht j) _ ?_) _ _
    rwa [State.alcShadow_nvm]

/-! Machine/Twin: the twin networks. -/

theorem State.takeForce_otpFrom {s : State} (h : s.nvm.OtpFrom o₀) (z : ZFrame) (c : Cmd) : (s.takeForce z c).nvm.OtpFrom o₀ := by
  unfold State.takeForce
  dsimp only
  split_ifs
  · exact h
  · exact State.subAllocate_otpFrom (by exact h)

theorem State.cmdAccept_otpFrom {s : State} (h : s.nvm.OtpFrom o₀) (z : ZFrame) (at' : Nat) :
    (s.cmdAccept z at').nvm.OtpFrom o₀ := by
  simp only [State.cmdAccept, State.answerTwin_nvm, State.relayTakeover_nvm, State.releaseTx_nvm, State.switches_nvm,
    apply_ite State.nvm, ite_self]
  refine foldl_otpFrom (fun t c ht => ?_) _ (by exact h)
  split_ifs <;> simp only [State.entryCheck_nvm, State.putEntry_nvm, State.takeForce_otpFrom, ht]

theorem State.deliver_otpFrom {s : State} (h : s.nvm.OtpFrom o₀) (z : ZFrame) (at' : Nat) :
    (State.deliver s z at').nvm.OtpFrom o₀ := by
  simp only [State.deliver, State.capAccept_nvm, State.syncAccept_nvm, State.cmdAccept_otpFrom, State.higherTerm_otpFrom,
    apply_ite State.nvm, apply_ite (Nvm.OtpFrom o₀), ite_self, h]

theorem State.deliverCmp_otpFrom {s : State} (h : s.nvm.OtpFrom o₀) (z : ZFrame) (at' : Nat) :
    (State.deliverCmp s z at').nvm.OtpFrom o₀ := by
  simp only [State.deliverCmp, State.answerTwin_nvm, State.bump_nvm, State.deliver_otpFrom, apply_ite State.nvm,
    apply_ite (Nvm.OtpFrom o₀), ite_self, h]

theorem State.expire_otpFrom {s : State} (h : s.nvm.OtpFrom o₀) (p : TwinPend) : (s.expire p).nvm.OtpFrom o₀ := by
  simp only [State.expire, State.bump_nvm, State.closePend_nvm, State.modKz_nvm, State.twinEvt_nvm,
    State.deliverCmp_otpFrom, apply_ite State.nvm, apply_ite (Nvm.OtpFrom o₀), ite_self, h]

theorem State.expireOld_otpFrom : ∀ (n : Nat) {s : State}, s.nvm.OtpFrom o₀ → (s.expireOld n).nvm.OtpFrom o₀
  | 0, _, h => h
  | n + 1, s, h => by
    unfold State.expireOld
    split
    · split_ifs
      · exact expireOld_otpFrom n (State.expire_otpFrom h _)
      · exact h
    · exact h

theorem State.mate_otpFrom {s : State} (h : s.nvm.OtpFrom o₀) (p : TwinPend) (b : List Byte) : (s.mate p b).nvm.OtpFrom o₀ := by
  unfold State.mate
  split_ifs <;> simp only [State.bump_nvm, State.closePend_nvm, State.modKz_nvm, State.record_nvm, State.twinEvt_nvm,
    State.deliverCmp_otpFrom, apply_ite State.nvm, ite_self, h]

theorem State.openPend_otpFrom {s : State} (h : s.nvm.OtpFrom o₀) (net : Nat) (z : ZFrame) (b : List Byte) :
    (s.openPend net z b).nvm.OtpFrom o₀ := by
  simp only [State.openPend, State.bump_nvm, State.gate_nvm, State.modNet_nvm, State.showPend_nvm, State.deliver_otpFrom,
    apply_ite State.nvm, apply_ite (Nvm.OtpFrom o₀), ite_self, apply_ite Prod.fst, h]

theorem State.twinCopy_otpFrom {s : State} (h : s.nvm.OtpFrom o₀) (p : Nat) (b : List Byte) : (s.twinCopy p b).nvm.OtpFrom o₀ := by
  unfold State.twinCopy
  extract_lets u z net
  have hu : u.nvm.OtpFrom o₀ := State.expireOld_otpFrom 64 h
  refine ite_otpFrom (by rwa [State.bump_nvm]) <| ite_otpFrom hu <| ite_otpFrom (by rwa [State.bump_nvm]) <|
    ite_otpFrom (by rwa [State.twinEvt_nvm, State.bump_nvm]) <| ite_otpFrom hu <| ite_otpFrom (by rwa [State.bump_nvm]) ?_
  split
  · exact ite_otpFrom hu (State.mate_otpFrom hu _ _)
  · split
    · exact ite_otpFrom (by rwa [State.bump_nvm]) (State.openPend_otpFrom hu _ _ _)
    · exact State.openPend_otpFrom hu _ _ _

/-! Machine/Cycle: the cycle. -/

theorem State.cycleTick_otpFrom {s : State} (h : s.nvm.OtpFrom o₀) : s.cycleTick.nvm.OtpFrom o₀ := by
  simp only [State.cycleTick, State.advanceTo_nvm, State.ckAbandon_nvm, State.cpSkExpire_nvm, State.modAlc_nvm,
    State.pmu_nvm, State.pmuSnap_nvm, State.publishEnvNow_nvm, State.sendCap_nvm, State.showCk_nvm, State.showTick_nvm,
    State.snap_nvm, State.endSeizing_otpFrom, apply_ite State.nvm, apply_ite (Nvm.OtpFrom o₀), ite_self, h]

theorem State.estCut_otpFrom {s : State} (h : s.nvm.OtpFrom o₀) : s.estCut.nvm.OtpFrom o₀ := by
  unfold State.estCut
  dsimp only
  have hf : ((s.jobs.jobs.filter fun j => j.unit == 1).foldl (fun t j => t.endJob j 5 2) s).nvm.OtpFrom o₀ :=
    foldl_otpFrom (fun t j ht => State.endJob_otpFrom ht j 5 2) _ h
  split_ifs
  · exact h
  · exact hf
  · simpa only [State.bump_nvm, State.event_nvm, State.modEst_nvm, State.setFlag_nvm, foldl_nvm, foldl_fst_nvm,
      implies_true, apply_ite State.nvm, ite_self] using hf

theorem State.estimatePublish_otpFrom {s : State} (h : s.nvm.OtpFrom o₀) : s.estimatePublish.nvm.OtpFrom o₀ := by
  simp only [State.estimatePublish, State.advanceTo_nvm, State.publish_nvm, State.speEval_nvm, State.estCut_otpFrom,
    apply_ite State.nvm, apply_ite (Nvm.OtpFrom o₀), ite_self, h]

theorem State.runStop_otpFrom {s : State} (h : s.nvm.OtpFrom o₀) : s.runStop.nvm.OtpFrom o₀ := by
  have hs : (s.setFlag F.SYS_CYC_CTRL_RUN false).stopInternal.nvm.OtpFrom o₀ := State.stopInternal_otpFrom
    (by rwa [State.setFlag_nvm])
  simpa only [State.runStop, State.modAlc_nvm, State.modEst_nvm, State.modTrk_nvm, State.setFlag_nvm] using hs

theorem cycCtrlWrite_otpFrom {s : State} (h : s.nvm.OtpFrom o₀) (d : Dom) (v : Word) : (cycCtrlWrite s d v).1.nvm.OtpFrom o₀ := by
  refine State.writeGuard_otpFrom (fun t ht => ?_) h d R.SYS_CYC_CTRL
  extract_lets t₁
  have h₁ : t₁.nvm.OtpFrom o₀ := by rwa [State.set_nvm]
  split
  · split
    · rwa [State.runStart_nvm, State.deviceWake_nvm]
    · exact h₁
  · split
    · exact State.runStop_otpFrom h₁
    · exact h₁

/-! Machine/Complete: what a finished job causes. -/

theorem State.survDone_otpFrom {s : State} (h : s.nvm.OtpFrom o₀) (status : Nat) (x : List Word64) (reg : List Nat) :
    (s.survDone status x reg).nvm.OtpFrom o₀ := by
  simp only [State.survDone, State.cpFinish_nvm, State.set_nvm, State.setFlag_nvm, State.setWord_nvm, State.storeBytes_nvm,
    State.survSubmit_otpFrom, apply_ite State.nvm, apply_ite (Nvm.OtpFrom o₀), ite_self, h]

theorem State.batchDone_otpFrom {s : State} (h : s.nvm.OtpFrom o₀) : s.batchDone.nvm.OtpFrom o₀ := by
  simp only [State.batchDone, State.projectBatch_nvm, State.egoSolve_otpFrom, State.submitInternal_otpFrom,
    apply_ite State.nvm, apply_ite (Nvm.OtpFrom o₀), ite_self, h]

theorem State.consume_otpFrom {s : State} (h : s.nvm.OtpFrom o₀) (j : Job) (status reason : Nat) (kf : Option (KfOut × Bool)) :
    (s.consume j status reason kf).nvm.OtpFrom o₀ := by
  unfold State.consume
  extract_lets r
  split
  · rwa [State.stopUnit_nvm]
  · split
    · exact State.kfDone_otpFrom h kf
    · exact ite_otpFrom (State.egoSolve_otpFrom (by rwa [State.trackerPass_nvm])) h
    · rwa [State.assignDone_nvm]
    · rwa [State.egoDone_nvm]
    · exact State.survDone_otpFrom h ..
    · exact State.qpDone_otpFrom h ..
    · exact ite_otpFrom (State.batchDone_otpFrom h) h
    · exact h

theorem State.finishJob_otpFrom {s : State} (h : s.nvm.OtpFrom o₀) (j : Job) (status reason : Nat) (kf : Option (KfOut × Bool)) :
    (s.finishJob j status reason kf).nvm.OtpFrom o₀ := by
  simp only [State.finishJob, State.consume_otpFrom, State.endJob_otpFrom, apply_ite State.nvm, apply_ite (Nvm.OtpFrom o₀),
    ite_self, h]

theorem State.kfEnd_otpFrom {s : State} (h : s.nvm.OtpFrom o₀) (j : Job) : (s.kfEnd j).nvm.OtpFrom o₀ := by
  have hk := s.kfRun_nvm j
  unfold State.kfEnd
  split
  · next t hr => exact State.finishJob_otpFrom (by rw [hr] at hk; rwa [hk]) _ _ _ _
  · next t o pass hr => exact State.finishJob_otpFrom (by rw [hr] at hk; rwa [State.kfStore_nvm, hk]) _ _ _ _

theorem State.endSuspended_otpFrom {s : State} (h : s.nvm.OtpFrom o₀) (j : Job) (corr : Nat) (ecc : Bool) :
    (s.endSuspended j corr ecc).nvm.OtpFrom o₀ := by
  simp only [State.endSuspended, State.scratch_nvm, State.finishJob_otpFrom, apply_ite State.nvm, apply_ite (Nvm.OtpFrom o₀),
    ite_self, h]

theorem jfAbortWith_otpFrom {s : State} (h : s.nvm.OtpFrom o₀) (d : Dom) (v : Word) (corr : Nat) (ecc : Bool) :
    (jfAbortWith s d v corr ecc).1.nvm.OtpFrom o₀ := by
  refine State.writeGuard_otpFrom (fun t ht => ?_) h d R.JF_ABORT
  dsimp only
  split
  · rwa [State.set_nvm]
  · split
    · exact ht
    · rw [State.set_nvm]
      refine State.abortJob_otpFrom ?_ _ _
      split
      · rwa [State.scratch_nvm]
      · exact ht

theorem jfAbortWrite_otpFrom {s : State} (h : s.nvm.OtpFrom o₀) (d : Dom) (v : Word) : (jfAbortWrite s d v).1.nvm.OtpFrom o₀ := by
  simp only [jfAbortWrite, jfAbortWith_otpFrom, h]

/-! Machine/Gnss: the GNSS receiver. -/

theorem gnCfgWrite_otpFrom {s : State} (h : s.nvm.OtpFrom o₀) (d : Dom) (v : Word) : (gnCfgWrite s d v).1.nvm.OtpFrom o₀ := by
  refine State.writeGuard_otpFrom (fun t ht => ?_) h d R.GN_CFG
  simp only [State.hdgDrop_nvm, State.setWord_nvm, State.switchOff_otpFrom, apply_ite State.nvm, apply_ite (Nvm.OtpFrom o₀),
    ite_self, ht]

/-! Machine/Access: register accesses. -/

theorem writeSys_otpFrom {s : State} (h : s.nvm.OtpFrom o₀) (d : Dom) (a : Nat) (v : Word) : WriteOtpFrom o₀
    (writeSys s d a v) := by
  simp only [writeSys, State.complete_nvm, State.plainWrite_nvm, cycHeldWrite_nvm, evcfgWrite_nvm, icPieWrite_nvm,
    icSrcWrite_nvm, icSwset_nvm, pforceWrite_nvm, pmuCntWrite_nvm, pmuCtlWrite_nvm, recClrWrite_nvm, recCtlWrite_nvm,
    recCurWrite_nvm, ringWrite_nvm, safeReqWrite_nvm, wdogWrite_nvm, cycCtrlWrite_otpFrom, domReqWrite_otpFrom,
    kickWrite_otpFrom, pwrCtrlWrite_otpFrom, softWrite_otpFrom, apply_ite State.nvm, ite_self, apply_ite Prod.fst, h,
    apply_ite (WriteOtpFrom o₀), writeOtpFrom_some, writeOtpFrom_none]

theorem writeNet_otpFrom {s : State} (h : s.nvm.OtpFrom o₀) (d : Dom) (a : Nat) (v : Word) : WriteOtpFrom o₀
    (writeNet s d a v) := by
  simp only [writeNet, bankReqWrite_nvm, boutWrite_nvm, canBufWrite_nvm, canCancelWrite_nvm, canCellWrite_nvm,
    canCfgWrite_nvm, canNameEnWrite_nvm, canNameWrite_nvm, canTimWrite_nvm, canTxreqWrite_nvm, coefAccess_nvm,
    discCtrlWrite_nvm, dsfCfgWrite_nvm, dsfEnsetWrite_nvm, dsfThrWrite_nvm, flowCfgWrite_nvm, netCfgWrite_nvm,
    ptpRoleWrite_nvm, syncCtrlWrite_nvm, syncHWrite_nvm, timeIncWrite_nvm, timeLeapWrite_nvm, timeRefWrite_nvm,
    txTailWrite_nvm, uartCfgWrite_nvm, uartDataWrite_nvm, zalTreeWrite_nvm, timeStepWrite_otpFrom, ite_self, h,
    apply_ite (WriteOtpFrom o₀), writeOtpFrom_some, writeOtpFrom_none]

theorem writeFus_otpFrom {s : State} (h : s.nvm.OtpFrom o₀) (d : Dom) (a : Nat) (v : Word) : WriteOtpFrom o₀
    (writeFus s d a v) := by
  simp only [writeFus, State.shadowWrite_nvm, alcCommitWrite_nvm, capCtrlWrite_nvm, encCfgWrite_nvm, estCtrlWrite_nvm,
    fdCommitWrite_nvm, fscCfgWrite_nvm, fscMatchWrite_nvm, injCtrlWrite_nvm, lreqWrite_nvm, mnCfgWrite_nvm,
    ofscfgWrite_nvm, subHWrite_nvm, survCtrlWrite_nvm, tblAccess_nvm, trkCtrlWrite_nvm, jfAbortWrite_otpFrom,
    jfCfgWrite_otpFrom, subWrite_otpFrom, ite_self, h, apply_ite (WriteOtpFrom o₀), writeOtpFrom_some, writeOtpFrom_none]

theorem writeTop_otpFrom {s : State} (h : s.nvm.OtpFrom o₀) (d : Dom) (a : Nat) (v : Word) : WriteOtpFrom o₀
    (writeTop s d a v) := by
  simp only [writeTop, State.gpioOut_nvm, State.plainWrite_nvm, acqReqWrite_nvm, antWrite_nvm, beCtrlWrite_nvm,
    chCtrlWrite_nvm, fopWrite_nvm, gnHdgWrite_nvm, jiCfgWrite_nvm, joyWrite_nvm, skCfgWrite_nvm, skCmdWrite_nvm,
    tcfgWrite_nvm, tphWrite_nvm, wbWrite_nvm, gnCfgWrite_otpFrom, haCfgWrite_otpFrom, haCtrlWrite_otpFrom,
    apply_ite State.nvm, ite_self, apply_ite Prod.fst, h, apply_ite (WriteOtpFrom o₀), writeOtpFrom_some, writeOtpFrom_none]

theorem State.regWrite_otpFrom {s : State} (h : s.nvm.OtpFrom o₀) (d : Dom) (a : Nat) (v : Word) :
    (s.regWrite d a v).1.nvm.OtpFrom o₀ := by
  unfold State.regWrite
  split
  · exact h
  · split
    · rwa [State.offAccess_nvm]
    · split
      · rwa [State.offAccess_nvm]
      · extract_lets w
        have hw : WriteOtpFrom o₀ w := by
          simp only [w, apply_ite (WriteOtpFrom o₀), writeSys_otpFrom h, writeNet_otpFrom h, writeFus_otpFrom h,
            writeTop_otpFrom h, ite_self]
        cases hr : w with
        | none => rwa [State.plainWrite_nvm]
        | some r => exact hw r hr

theorem State.busWrite_otpFrom {s : State} (h : s.nvm.OtpFrom o₀) (d : Dom) (a : Nat) (v : Word) :
    (s.busWrite d a v).1.nvm.OtpFrom o₀ := by
  simp only [State.busWrite]
  split <;> simp only [State.busErr_nvm, State.offAccess_nvm, State.st_nvm, State.regWrite_otpFrom, apply_ite State.nvm,
    ite_self, apply_ite Prod.fst, h]

/-! Machine/Runtime: tasks and their copies. -/

theorem State.blockWrite_otpFrom {s : State} (h : s.nvm.OtpFrom o₀) (eng a : Nat) (b : List Byte) :
    (s.blockWrite eng a b).nvm.OtpFrom o₀ :=
  foldl_otpFrom (fun _ _ ht => ite_otpFrom (by rwa [State.offAccess_nvm]) (State.busWrite_otpFrom ht ..)) _ h

theorem State.copyOutEntry_otpFrom {s : State} (h : s.nvm.OtpFrom o₀) (n : Nat) (e : IoEnt × Nat) :
    (s.copyOutEntry n e).nvm.OtpFrom o₀ := by
  simp only [State.copyOutEntry, State.modTask_nvm, State.blockWrite_otpFrom, apply_ite State.nvm, apply_ite (Nvm.OtpFrom o₀),
    ite_self, h]

theorem State.takeSystem_otpFrom {s : State} (h : s.nvm.OtpFrom o₀) (i : ImageCfg) : (s.takeSystem i).nvm.OtpFrom o₀ := by
  unfold State.takeSystem
  rw [State.paramDue_nvm, State.showSig_nvm, State.modPwr_nvm]
  exact ite_otpFrom h (foldl_otpFrom (fun _ _ ht => State.regWrite_otpFrom ht ..) _ h)

theorem State.switch_otpFrom {s : State} (h : s.nvm.OtpFrom o₀) (p : ProgSet) (start : Nat) :
    (s.switch p start).nvm.OtpFrom o₀ := by
  unfold State.switch
  extract_lets aff rn ns fops s₁ s₂ es s₃ img s₄ s₅ s₆ s₇ s₈ s₉ s₁₀ s₁₁ s₁₂
  have h₃ : s₃.nvm = s.nvm := (foldl_nvm (fun _ _ => State.set_nvm ..) _ _).trans (by rw [State.carryData_nvm,
    State.advanceTo_nvm])
  have h₅ : s₅.nvm = s.nvm := (foldl_nvm (fun _ _ => State.loadTask_nvm ..) _ _).trans (by rw [State.modBe_nvm, h₃])
  have h₆ : s₆.nvm = s.nvm := by rw [State.set_nvm, State.set_nvm, State.setWord_nvm, h₅]
  have h₈ : s₈.nvm = s.nvm := by rw [State.set_nvm, State.rebindForces_nvm, h₆]
  have h₉ : s₉.nvm.OtpFrom o₀ := by rwa [State.set_nvm, State.set_nvm, State.set_nvm, h₈]
  clear_value img s₉
  have h₁₀ : s₁₀.nvm.OtpFrom o₀ := by
    cases img with
    | none => exact h₉
    | some i => exact State.takeSystem_otpFrom h₉ i
  have h₁₁ : s₁₁.nvm.OtpFrom o₀ := ite_otpFrom (by rwa [State.event_nvm]) h₁₀
  have h₁₂ : s₁₂.nvm.OtpFrom o₀ :=
    foldl_otpFrom (fun _ _ ht => by rwa [State.forceOp_nvm]) _ (by rwa [State.showBeDoze_nvm])
  exact ite_otpFrom (by rwa [State.cpFinish_nvm]) h₁₂

/-! Machine/Boot: boot and images. -/

theorem State.applyRegs_otpFrom {s : State} (h : s.nvm.OtpFrom o₀) (dom : Option Nat) (l : List (Nat × Word)) :
    (s.applyRegs dom l).nvm.OtpFrom o₀ := by
  refine foldl_otpFrom (fun t e ht => ?_) l h
  split
  · exact ht
  · exact ite_otpFrom (State.regWrite_otpFrom ht ..) ht
  · exact State.regWrite_otpFrom ht ..

theorem State.gnConfig_otpFrom {s : State} (h : s.nvm.OtpFrom o₀) (d : Dom) (a : Nat) (v : Word) :
    (s.gnConfig d a v).nvm.OtpFrom o₀ := by
  simp only [State.gnConfig, State.gnKeep_nvm, State.regWrite_otpFrom, apply_ite State.nvm, apply_ite (Nvm.OtpFrom o₀), ite_self,
    h]

theorem State.gnRestore_otpFrom {s : State} (h : s.nvm.OtpFrom o₀) : s.gnRestore.nvm.OtpFrom o₀ :=
  ite_otpFrom (foldl_otpFrom (fun _ _ ht => State.regWrite_otpFrom ht ..) _ h) h

theorem State.applyGnss_otpFrom {s : State} (h : s.nvm.OtpFrom o₀) (l : List (Nat × Word)) : (s.applyGnss l).nvm.OtpFrom o₀ := by
  simp only [State.applyGnss, State.gnKeep_nvm, State.gnRestore_otpFrom, foldl_nvm, implies_true, h]

theorem State.restore_otpFrom {s : State} (h : s.nvm.OtpFrom o₀) (d : Nat) : (s.restore d).nvm.OtpFrom o₀ := by
  unfold State.restore
  extract_lets i s₁ s₂ s₃ s₄
  have h₁ : s₁.nvm.OtpFrom o₀ := by
    simpa only [s₁, apply_ite State.nvm, State.loadSet_nvm, State.reloadApp1_nvm, ite_self] using h
  have h₃ : s₃.nvm.OtpFrom o₀ := State.applyRegs_otpFrom (State.applyRegs_otpFrom (by rwa [State.restoring_nvm]) ..) ..
  have h₄ : s₄.nvm.OtpFrom o₀ := by
    simpa only [s₄, apply_ite State.nvm, State.gnWake_nvm, State.showSig_nvm, ite_self] using h₃
  exact ite_otpFrom (by rwa [State.paramLoad_nvm]) (ite_otpFrom (State.gnRestore_otpFrom h₄) h₄)

/-! Machine/Port: the commands of the port. -/

theorem State.cpWriteWords_otpFrom : ∀ (l : List Word) {s : State} (_ : s.nvm.OtpFrom o₀) (a k : Nat),
    (s.cpWriteWords a k l).1.nvm.OtpFrom o₀
  | [], _, h, _, _ => h
  | v :: l, s, h, a, k => by
    have hb := State.busWrite_otpFrom h .host a v
    unfold State.cpWriteWords
    dsimp only
    split_ifs
    · exact cpWriteWords_otpFrom l hb _ _
    · exact hb

theorem State.opWr_otpFrom {s : State} (h : s.nvm.OtpFrom o₀) (p : List Byte) : (s.opWr p).1.nvm.OtpFrom o₀ := by
  simp only [State.opWr, State.cpUnmapped_nvm, cpStatus_nvm, State.cpWriteWords_otpFrom, apply_ite State.nvm,
    apply_ite (Nvm.OtpFrom o₀), ite_self, apply_ite Prod.fst, h]

theorem State.opRmw_otpFrom {s : State} (h : s.nvm.OtpFrom o₀) (p : List Byte) : (s.opRmw p).1.nvm.OtpFrom o₀ := by
  simp only [State.opRmw, State.busErr_nvm, State.busRead_nvm, State.cpUnmapped_nvm, cpStatus_nvm, State.busWrite_otpFrom,
    apply_ite State.nvm, apply_ite (Nvm.OtpFrom o₀), ite_self, apply_ite Prod.fst, h]

theorem State.opGnConfig_otpFrom {s : State} (h : s.nvm.OtpFrom o₀) (p : List Byte) : (s.opGnConfig p).1.nvm.OtpFrom o₀ := by
  simp only [State.opGnConfig, cpStatus_nvm, State.gnConfig_otpFrom, apply_ite State.nvm, apply_ite (Nvm.OtpFrom o₀), ite_self,
    apply_ite Prod.fst, h]

theorem State.opSkMove_otpFrom {s : State} (h : s.nvm.OtpFrom o₀) (p : List Byte) : (s.opSkMove p).1.nvm.OtpFrom o₀ := by
  simp only [State.opSkMove, State.cpSkWrite_nvm, State.cpWriteWords_otpFrom, apply_ite State.nvm, apply_ite (Nvm.OtpFrom o₀),
    ite_self, apply_ite Prod.fst, h]

theorem State.opSkJoy_otpFrom {s : State} (h : s.nvm.OtpFrom o₀) (p : List Byte) : (s.opSkJoy p).1.nvm.OtpFrom o₀ := by
  unfold State.opSkJoy
  rw [cpStatus_nvm]
  exact foldl_otpFrom (fun _ _ ht => State.busWrite_otpFrom ht ..) _ h

theorem State.opSurveyRec_otpFrom {s : State} (h : s.nvm.OtpFrom o₀) (p : List Byte) : (s.opSurveyRec p).1.nvm.OtpFrom o₀ := by
  simp only [State.opSurveyRec, cpStatus_nvm, State.busWrite_otpFrom, apply_ite State.nvm, apply_ite (Nvm.OtpFrom o₀), ite_self,
    apply_ite Prod.fst, h]

theorem State.opSurveyRun_otpFrom {s : State} (h : s.nvm.OtpFrom o₀) : s.opSurveyRun.1.nvm.OtpFrom o₀ := by
  simp only [State.opSurveyRun, cpStatus_nvm, State.survRun_otpFrom, apply_ite State.nvm, apply_ite (Nvm.OtpFrom o₀), ite_self,
    apply_ite Prod.fst, h]

theorem State.opTimeStep_otpFrom {s : State} (h : s.nvm.OtpFrom o₀) (p : List Byte) : (s.opTimeStep p).1.nvm.OtpFrom o₀ := by
  simp only [State.opTimeStep, cpStatus_nvm, State.busWrite_otpFrom, State.cpWriteWords_otpFrom, apply_ite State.nvm,
    apply_ite (Nvm.OtpFrom o₀), ite_self, apply_ite Prod.fst, h]

theorem State.opTimeLeap_otpFrom {s : State} (h : s.nvm.OtpFrom o₀) (p : List Byte) : (s.opTimeLeap p).1.nvm.OtpFrom o₀ := by
  simp only [State.opTimeLeap, cpStatus_nvm, State.busWrite_otpFrom, h]

theorem State.cpKeyed_otpFrom {s : State} (h : s.nvm.OtpFrom o₀) (a bit : Nat) (p : List Byte) :
    (s.cpKeyed a bit p).1.nvm.OtpFrom o₀ := by
  simp only [State.cpKeyed, cpStatus_nvm, State.busWrite_otpFrom, h]

theorem State.cpForce_otpFrom {s : State} (h : s.nvm.OtpFrom o₀) (op : Nat) (p : List Byte) :
    (s.cpForce op p).1.nvm.OtpFrom o₀ := by
  unfold State.cpForce
  rw [cpStatus_nvm]
  exact State.busWrite_otpFrom (State.cpWriteWords_otpFrom _ h ..) ..

theorem State.cpReset_otpFrom {s : State} (h : s.nvm.OtpFrom o₀) : s.cpReset.nvm.OtpFrom o₀ := by
  simp only [State.cpReset, State.deviceReset_otpFrom, apply_ite State.nvm, apply_ite (Nvm.OtpFrom o₀), ite_self, h]

theorem State.opReset_otpFrom {s : State} (h : s.nvm.OtpFrom o₀) (p : List Byte) : (s.opReset p).1.nvm.OtpFrom o₀ := by
  simp only [State.opReset, State.cpKey, cpStatus_nvm, State.bump_nvm, State.cpFinish_nvm, State.modCp_nvm,
    State.cpReset_otpFrom, apply_ite State.nvm, apply_ite (Nvm.OtpFrom o₀), ite_self, apply_ite Prod.fst, h]

theorem State.idle_otpFrom {s : State} (h : s.nvm.OtpFrom o₀) : s.idle.nvm.OtpFrom o₀ := by
  simp only [State.idle, State.flushAll_nvm, State.fwDoze_nvm, State.tick_nvm, State.cpReset_otpFrom, h]

theorem State.opImgBegin_otpFrom {s : State} (h : s.nvm.OtpFrom o₀) (p : List Byte) : (s.opImgBegin p).1.nvm.OtpFrom o₀ :=
  h.of_otp (State.opImgBegin_otp ..)

theorem State.opImgData_otpFrom {s : State} (h : s.nvm.OtpFrom o₀) (p : List Byte) : (s.opImgData p).1.nvm.OtpFrom o₀ :=
  h.of_otp (State.opImgData_otp ..)

theorem State.opOtpStage_otpFrom {s : State} (h : s.nvm.OtpFrom o₀) (p : List Byte) : (s.opOtpStage p).1.nvm.OtpFrom o₀ :=
  h.of_otp (State.opOtpStage_otp ..)

theorem State.cpExec_otpFrom {s : State} (h : s.nvm.OtpFrom o₀) (op : Nat) (p : List Byte) : (s.cpExec op p).1.nvm.OtpFrom o₀ := by
  simp only [State.cpExec, State.opForceList_nvm, State.opIdentify_nvm, State.opImgActivate_nvm, State.opImgBegin_otpFrom,
    State.opImgCommit_nvm, State.opImgData_otpFrom, State.opImgFlash_nvm, State.opImgStatus_nvm, State.opOtpBurn_nvm,
    State.opOtpRead_nvm, State.opOtpRevoke_nvm, State.opOtpStage_otpFrom, State.opPairStatus_nvm, State.opRd_nvm,
    State.opRecRead_nvm, State.opSelftest_nvm, State.opSelftestLast_nvm, State.opSkHalt_nvm, State.opSkMode_nvm,
    State.opSkStakeHere_nvm, State.opStatus_nvm, State.opSurveyCommit_nvm, State.opSurveyDiscard_nvm,
    State.opSurveyStatus_nvm, State.opTimeGet_nvm, cpStatus_nvm, State.cpForce_otpFrom, State.cpKeyed_otpFrom,
    State.opGnConfig_otpFrom, State.opReset_otpFrom, State.opRmw_otpFrom, State.opSkJoy_otpFrom, State.opSkMove_otpFrom,
    State.opSurveyRec_otpFrom, State.opSurveyRun_otpFrom, State.opTimeLeap_otpFrom, State.opTimeStep_otpFrom,
    State.opWr_otpFrom, apply_ite State.nvm, apply_ite (Nvm.OtpFrom o₀), ite_self, apply_ite Prod.fst, h]

theorem State.cpRun_otpFrom {s : State} (h : s.nvm.OtpFrom o₀) (o : CpOp) : (s.cpRun o).nvm.OtpFrom o₀ := by
  unfold State.cpRun
  extract_lets s₁ r
  have h₁ : s₁.nvm.OtpFrom o₀ := by rwa [State.showCp_nvm, State.modCp_nvm]
  have hr : r.1.nvm.OtpFrom o₀ := State.cpExec_otpFrom h₁ ..
  split
  · rwa [State.cpFinish_nvm]
  · split
    · rwa [State.cpFinish_nvm]
    · exact hr

theorem State.cpTake_otpFrom {s : State} (h : s.nvm.OtpFrom o₀) (t via src : Nat) (b : List Byte) :
    (s.cpTake t via src b).nvm.OtpFrom o₀ := by
  simp only [State.cpTake]
  split <;> simp only [State.bump_nvm, State.cpSend_nvm, State.cpRun_otpFrom, apply_ite State.nvm, apply_ite (Nvm.OtpFrom o₀),
    ite_self, h]

theorem State.cpHunt_otpFrom (t : Nat) : ∀ (n : Nat) {s : State} (_ : s.nvm.OtpFrom o₀) (b : List Byte),
    (s.cpHunt t b n).1.nvm.OtpFrom o₀
  | 0, _, h, _ => h
  | n + 1, s, h, b => by
    unfold State.cpHunt
    split
    · exact h
    · split
      · exact h
      · dsimp only
        split_ifs
        · exact cpHunt_otpFrom t n h _
        · exact h
        · exact cpHunt_otpFrom t n (by rwa [State.bump_nvm]) _
        · exact cpHunt_otpFrom t n (by rwa [State.cpSend_nvm]) _
        · exact h
        · exact cpHunt_otpFrom t n (State.cpTake_otpFrom h _ _ _ _) _

theorem State.cpDatagram_otpFrom (via src n : Nat) : ∀ (k : Nat) {s : State} (_ : s.nvm.OtpFrom o₀) (b : List Byte),
    (s.cpDatagram via src n b k).nvm.OtpFrom o₀
  | 0, _, h, _ => h
  | k + 1, s, h, b => by
    unfold State.cpDatagram
    split
    · exact h
    · dsimp only
      split_ifs
      · exact cpDatagram_otpFrom via src n k h _
      · rwa [State.bump_nvm]
      · exact cpDatagram_otpFrom via src n k (by rwa [State.bump_nvm]) _
      · exact cpDatagram_otpFrom via src n k (by rwa [State.cpSend_nvm]) _
      · rwa [State.bump_nvm]
      · exact State.cpTake_otpFrom h _ _ _ _

theorem State.cpRequest_otpFrom {s : State} (h : s.nvm.OtpFrom o₀) (t : Fin 3) (src : BitVec 48) (seq : Byte) (op : Nat)
    (p : List Byte) : (s.cpRequest t src seq op p).nvm.OtpFrom o₀ := by
  simp only [State.cpRequest, State.cpTake_otpFrom, apply_ite State.nvm, apply_ite (Nvm.OtpFrom o₀), ite_self, h]

end

end Sys2Proof.Machine
end

-- ==== The OTP array through a step ====
section
/-!
PROOFS. The OTP array's bits through the steps of the machine (O6): one lemma per command, where the command is more than a call of one
function, then all commands, the idle step and the statement.
-/
namespace Sys2Proof.Machine

section
variable {o₀ : List Host.Cell}

/-- An outcome answers only states that keep the array's bits. -/
def OtpKept (o₀ : List Host.Cell) (o : Host.Outcome State Fault Refusal) : Prop := ∀ t, o = .next t → t.nvm.OtpFrom o₀

/-- The end of a command is about the queue alone. -/
theorem otpKept_ends {s t : State} (h : t.nvm.OtpFrom o₀) : OtpKept o₀ (s.ends t) := by
  intro u hu
  cases hu
  exact h

theorem otpKept_of_nvm {s t u : State} (ht : t.nvm = s.nvm) (h : s.nvm.OtpFrom o₀) : OtpKept o₀ (u.ends t) :=
  otpKept_ends (ht ▸ h)

theorem loadOp_nvm {sp : BitVec 2} {d x : BitVec 5} {disp : BitVec 12} {size n : Nat} {f : Nat → Word64} {s t : State}
    {c k : Ctx}
    (h : loadOp sp d x disp size f s n c = .ok (t, k)) : t.nvm = s.nvm := by
  unfold loadOp at h
  split at h <;> cases h
  rfl

theorem storeOp_nvm {sp : BitVec 2} {x : BitVec 5} {disp : BitVec 12} {size v n : Nat} {sat : Bool} {s t : State} {c k : Ctx}
    (h : storeOp sp x disp size v sat s n c = .ok (t, k)) : t.nvm = s.nvm := by
  unfold storeOp at h
  split at h <;> cases h
  exact State.beStore_nvm ..

theorem State.alu_otpKept {s : State} (h : s.nvm.OtpFrom o₀) (e : Fin 8) (f : Ctx → Ctx) : OtpKept o₀ (s.alu e f) :=
  otpKept_of_nvm (State.issue_nvm (fun _ _ _ _ _ hu => by cases hu; rfl) s e) h

theorem State.moveEntries_otpFrom {f : State → IoEnt × Nat → State} (hf : ∀ t e, t.nvm.OtpFrom o₀ → (f t e).nvm.OtpFrom o₀) :
    ∀ (l : List (IoEnt × Nat)) {s : State}, s.nvm.OtpFrom o₀ → (s.moveEntries f l).nvm.OtpFrom o₀
  | [], _, h => h
  | e :: l, s, h => moveEntries_otpFrom hf l (hf _ e (by rwa [State.modBe_nvm, State.advanceTo_nvm]))

theorem State.copyOn_otpFrom {f : State → IoEnt × Nat → State} {done : State → State}
    (hf : ∀ t e, t.nvm.OtpFrom o₀ → (f t e).nvm.OtpFrom o₀) (hdone : ∀ t, t.nvm.OtpFrom o₀ → (done t).nvm.OtpFrom o₀)
    {s : State} (h : s.nvm.OtpFrom o₀) (c : Copy) (k : Nat) : (s.copyOn c k f done).nvm.OtpFrom o₀ := by
  unfold State.copyOn
  extract_lets rest now s₁ s₂
  have h₂ : s₂.nvm.OtpFrom o₀ := State.moveEntries_otpFrom hf _ (by rwa [State.advanceTo_nvm, State.modBe_nvm])
  exact ite_otpFrom (hdone _ h₂) h₂

/-- An instruction that leaves the memory alone in its processor's operation keeps the array. -/
theorem State.issue_otpKept {s : State} (hs : s.nvm.OtpFrom o₀) (e : Nat) {f : State → Nat → Ctx → CodeRes}
    (hf : ∀ t n k u c, f t n k = .ok (u, c) → u.nvm = t.nvm) : OtpKept o₀ (s.ends (s.issue e f)) :=
  otpKept_of_nvm (State.issue_nvm hf s e) hs

/-- The end of a survey out of time, from the instant its time is over: the jobs of its unit are aborted. -/
theorem surveyTimedOut_otpKept {s : State} (hs : s.nvm.OtpFrom o₀) (u : State) : OtpKept o₀ (u.ends
    (let s : State := (s.jobs.jobs.filter fun j : Job => j.unit == 5).foldl (fun (u : State) j => (u.abortJob j 3).1) s
     let s : State := { s.set F.FE_SURV_STAT_PSTATE 0 with surv := { s.surv with runAt := none, again := false, prop := [] } }
     if s.cpRuns [0x51] then s.cpFinish .timeout [] else s)) := by
  extract_lets s₁ u₁ u₂ s₂
  have h₁ : s₁.nvm.OtpFrom o₀ := foldl_otpFrom (fun _ _ hu => State.abortJob_otpFrom hu ..) _ hs
  have h₂ : s₂.nvm.OtpFrom o₀ := by
    have h := State.set_nvm s₁ F.FE_SURV_STAT_PSTATE 0
    simp only [s₂]
    rwa [h]
  exact otpKept_ends (ite_otpFrom (by rwa [State.cpFinish_nvm]) h₂)

/-- A held submission is taken. -/
theorem heldTaken_otpKept {s : State} (h : s.nvm.OtpFrom o₀) (u : State) (x : Held) : OtpKept o₀ (u.ends
    (match x with
      | .bus x a => s.submitAt x a
      | .port j => s.takeJob j)) := by
  refine otpKept_ends ?_
  split
  · exact State.submitAt_otpFrom h ..
  · exact State.takeJob_otpFrom h ..

theorem ite_otpKept {p : Prop} [Decidable p] {s t : State} (hs : s.nvm.OtpFrom o₀) (ht : t.nvm.OtpFrom o₀) (u : State) :
    OtpKept o₀ (u.ends (if p then s else t)) := otpKept_ends (ite_otpFrom hs ht)

/-- The scrubber's state is not the memory's. -/
theorem scrub_otpKept {s t : State} (h : t.nvm = s.nvm) (hs : s.nvm.OtpFrom o₀) (u : State) (x : Scrub) :
    OtpKept o₀ (u.ends { t with scrub := x }) := otpKept_of_nvm h hs

/-! Machine/Pmu: the performance counters. -/

theorem execPmuCounterRead_otpKept {s : State} (hs : s.nvm.OtpFrom o₀) (d : Dom) (n : Fin 256) (shadowBank : Bool) :
    OtpKept o₀ (execPmuCounterRead d n shadowBank s) := by
  refine otpKept_of_nvm ?_ hs
  simp only [State.inDomain_nvm, State.pmuRead_nvm, implies_true]

/-! Machine/Events: events and their rings. -/

theorem execCounterOverflow_otpKept {s : State} (hs : s.nvm.OtpFrom o₀) (n : Fin 256) : OtpKept o₀ (execCounterOverflow n s) := by
  refine otpKept_of_nvm ?_ hs
  simp only [State.advanceBy_nvm, State.advanceTicks_nvm, State.pmu_nvm, apply_ite State.nvm, ite_self]

/-! Machine/Servo: the servo loops. -/

theorem execServoTick_otpKept {s : State} (hs : s.nvm.OtpFrom o₀) : OtpKept o₀ (execServoTick s) := by
  refine otpKept_of_nvm ?_ hs
  simp -implicitDefEqProofs only [State.advanceTo_nvm, State.servoTick_nvm, apply_ite State.nvm, ite_self]

theorem execFbHoldExpire_otpKept {s : State} (hs : s.nvm.OtpFrom o₀) (n : Fin 24) : OtpKept o₀ (execFbHoldExpire n s) := by
  refine otpKept_of_nvm ?_ hs
  simp -implicitDefEqProofs only [State.periodStart_nvm, apply_ite State.nvm, ite_self]

theorem execSetpointTimeout_otpKept {s : State} (hs : s.nvm.OtpFrom o₀) (n : Fin 24) : OtpKept o₀ (execSetpointTimeout n s) := by
  refine otpKept_of_nvm ?_ hs
  simp -implicitDefEqProofs only [State.advanceTo_nvm, State.bump_nvm, State.setFlag_nvm, apply_ite State.nvm, ite_self]

theorem execPlausibilityMismatch_otpKept {s : State} (hs : s.nvm.OtpFrom o₀) (n : Fin 24) (moved : List (Fin 12 × Int)) :
    OtpKept o₀ (execPlausibilityMismatch n moved s) := by
  refine otpKept_of_nvm ?_ hs
  simp -implicitDefEqProofs only [State.servoOutput_nvm, apply_ite State.nvm, ite_self]

theorem execInjectionTstart_otpKept {s : State} (hs : s.nvm.OtpFrom o₀) (n : Fin 24) : OtpKept o₀ (execInjectionTstart n s) := by
  refine otpKept_of_nvm ?_ hs
  simp -implicitDefEqProofs only [State.advanceTo_nvm, State.periodStart_nvm, apply_ite State.nvm, ite_self]

theorem execInjectionEnd_otpKept {s : State} (hs : s.nvm.OtpFrom o₀) (n : Fin 24) : OtpKept o₀ (execInjectionEnd n s) := by
  refine otpKept_of_nvm ?_ hs
  split <;> simp only [State.periodStart_nvm, apply_ite State.nvm, ite_self]

theorem execCaptureTrigger_otpKept {s : State} (hs : s.nvm.OtpFrom o₀) (u : Fin 2) : OtpKept o₀ (execCaptureTrigger u s) := by
  refine otpKept_of_nvm ?_ hs
  split
  · rfl
  · split <;> simp only [State.capTrigger_nvm, State.advanceBy_nvm, apply_ite State.nvm, ite_self]

theorem execCaptureComplete_otpKept {s : State} (hs : s.nvm.OtpFrom o₀) (u : Fin 2) : OtpKept o₀ (execCaptureComplete u s) := by
  refine otpKept_of_nvm ?_ hs
  simp only [State.modCap_nvm, State.set_nvm, State.storeBytes_nvm, apply_ite State.nvm, ite_self]

theorem execEncoderIllegalTransition_otpKept {s : State} (hs : s.nvm.OtpFrom o₀) (c : Fin 12) :
    OtpKept o₀ (execEncoderIllegalTransition c s) := by
  refine otpKept_of_nvm ?_ hs
  simp -implicitDefEqProofs only [State.bump_nvm, State.encBad_nvm, apply_ite State.nvm, ite_self]

theorem execEncoderIndexPulse_otpKept {s : State} (hs : s.nvm.OtpFrom o₀) (c : Fin 12) : OtpKept o₀ (execEncoderIndexPulse c s) := by
  refine otpKept_of_nvm ?_ hs
  simp -implicitDefEqProofs only [State.setWord_nvm, apply_ite State.nvm, ite_self]

theorem execSsiFrame_otpKept {s : State} (hs : s.nvm.OtpFrom o₀) (c : Fin 12) (data : Word) (parityBad errBit : Bool) :
    OtpKept o₀ (execSsiFrame c data parityBad errBit s) := by
  refine otpKept_of_nvm ?_ hs
  simp -implicitDefEqProofs only [State.advanceTo_nvm, State.bump_nvm, State.encBad_nvm, State.modSrv_nvm,
    State.setWord_nvm, apply_ite State.nvm, ite_self]

/-! Machine/Transmit: frames on their way out. -/

theorem execScheduledLaunch_otpKept {s : State} (hs : s.nvm.OtpFrom o₀) (p : Fin 5) : OtpKept o₀ (execScheduledLaunch p s) := by
  refine otpKept_of_nvm ?_ hs
  simp -implicitDefEqProofs only [State.launchOne_nvm, apply_ite State.nvm, ite_self]

/-! Machine/Time: time and its references. -/

theorem execReferenceOffset_otpKept {s : State} (hs : s.nvm.OtpFrom o₀) (ptp : Bool) (ofs : Int) (sigma : Nat) :
    OtpKept o₀ (execReferenceOffset ptp ofs sigma s) := by
  refine otpKept_ends ?_
  simp -implicitDefEqProofs only [State.gnSolution_otpFrom, State.refOffset_otpFrom, apply_ite State.nvm, ite_self,
    apply_ite (Nvm.OtpFrom o₀), hs]

theorem execReferenceLoss_otpKept {s : State} (hs : s.nvm.OtpFrom o₀) : OtpKept o₀ (execReferenceLoss s) := by
  refine otpKept_of_nvm ?_ hs
  dsimp only
  split <;> simp only [State.advanceTo_nvm, State.toHoldover_nvm, apply_ite State.nvm, ite_self]

theorem execSlewEnd_otpKept {s : State} (hs : s.nvm.OtpFrom o₀) : OtpKept o₀ (execSlewEnd s) := by
  refine otpKept_of_nvm ?_ hs
  simp -implicitDefEqProofs only [State.advanceTicks_nvm, State.gnSlewDone_nvm, State.modTime_nvm, State.slewDone_nvm,
    apply_ite State.nvm, ite_self]

theorem execTimeNowRead_otpKept {s : State} (hs : s.nvm.OtpFrom o₀) : OtpKept o₀ (execTimeNowRead s) := by
  refine otpKept_of_nvm ?_ hs
  simp only [State.inDomain_nvm, State.readNow_nvm, implies_true]

theorem execLeapSecond_otpKept {s : State} (hs : s.nvm.OtpFrom o₀) : OtpKept o₀ (execLeapSecond s) := by
  refine otpKept_of_nvm ?_ hs
  simp only [State.advanceTo_nvm, State.set_nvm, apply_ite State.nvm, ite_self]

theorem execPtpSyncReceive_otpKept {s : State} (hs : s.nvm.OtpFrom o₀) (p : Fin 2) (seq : BitVec 16) (twoStep : Bool)
    (origin : Int) : OtpKept o₀ (execPtpSyncReceive p seq twoStep origin s) := by
  refine otpKept_ends ?_
  simp only [State.frameIn_nvm, State.modPort_nvm, State.ptpOffset_otpFrom, apply_ite State.nvm, ite_self,
    apply_ite (Nvm.OtpFrom o₀), hs]

theorem execPtpFollowUpReceive_otpKept {s : State} (hs : s.nvm.OtpFrom o₀) (p : Fin 2) (seq : BitVec 16) (origin : Int) :
    OtpKept o₀ (execPtpFollowUpReceive p seq origin s) := by
  refine otpKept_ends ?_
  dsimp only
  split <;> simp only [State.frameIn_nvm, State.ptpOffset_otpFrom, apply_ite State.nvm, ite_self, apply_ite (Nvm.OtpFrom o₀), hs]

theorem execPtpDelayRespReceive_otpKept {s : State} (hs : s.nvm.OtpFrom o₀) (p : Fin 2) (seq : BitVec 16) (t4 : Int) :
    OtpKept o₀ (execPtpDelayRespReceive p seq t4 s) := by
  refine otpKept_of_nvm ?_ hs
  extract_lets s₁
  have h₁ : s₁.nvm = s.nvm := by rw [State.flush_nvm, State.frameIn_nvm]
  split
  · exact h₁
  · split
    · rw [apply_ite State.nvm, State.setMpd_nvm, State.modPort_nvm, ite_self, h₁]
    · exact h₁

theorem execPtpPdelayRespReceive_otpKept {s : State} (hs : s.nvm.OtpFrom o₀) (p : Fin 2) (seq : BitVec 16) (twoStep : Bool)
    (t2 turn : Int) : OtpKept o₀ (execPtpPdelayRespReceive p seq twoStep t2 turn s) := by
  refine otpKept_of_nvm ?_ hs
  dsimp only
  split <;> simp only [State.flush_nvm, State.frameIn_nvm, State.modPort_nvm, State.setMpd_nvm, apply_ite State.nvm,
    ite_self]

theorem execPtpPdelayRespFollowUpReceive_otpKept {s : State} (hs : s.nvm.OtpFrom o₀) (p : Fin 2) (seq : BitVec 16) (t3 : Int) :
    OtpKept o₀ (execPtpPdelayRespFollowUpReceive p seq t3 s) := by
  refine otpKept_of_nvm ?_ hs
  dsimp only
  split <;> simp only [State.frameIn_nvm, State.modPort_nvm, State.setMpd_nvm, apply_ite State.nvm, ite_self]

theorem execPtpDelayReqReceive_otpKept {s : State} (hs : s.nvm.OtpFrom o₀) (p : Fin 2) (seq : BitVec 16) (corr : Int)
    (src : BitVec 80) : OtpKept o₀ (execPtpDelayReqReceive p seq corr src s) := by
  refine otpKept_of_nvm ?_ hs
  simp only [State.frameIn_nvm, State.ptpSend_nvm, apply_ite State.nvm, ite_self]

theorem execPtpPdelayReqReceive_otpKept {s : State} (hs : s.nvm.OtpFrom o₀) (p : Fin 2) (seq : BitVec 16) (corr : Int)
    (src : BitVec 80) : OtpKept o₀ (execPtpPdelayReqReceive p seq corr src s) := by
  refine otpKept_of_nvm ?_ hs
  simp only [State.frameIn_nvm, State.ptpSend_nvm, apply_ite State.nvm, ite_self]

theorem execPtpAnnounceReceive_otpKept {s : State} (hs : s.nvm.OtpFrom o₀) (p : Fin 2) (m : AnnMsg) :
    OtpKept o₀ (execPtpAnnounceReceive p m s) := by
  refine otpKept_of_nvm ?_ hs
  simp only [State.annLeap_nvm, State.bmcPort_nvm, State.frameIn_nvm, State.modPort_nvm, apply_ite State.nvm, ite_self]

theorem execPtpUnsupportedMessage_otpKept {s : State} (hs : s.nvm.OtpFrom o₀) (p : Fin 2) :
    OtpKept o₀ (execPtpUnsupportedMessage p s) := by
  refine otpKept_of_nvm ?_ hs
  simp only [State.bump_nvm, State.frameIn_nvm, apply_ite State.nvm, ite_self]

theorem execPtpSyncSend_otpKept {s : State} (hs : s.nvm.OtpFrom o₀) (p : Fin 2) : OtpKept o₀ (execPtpSyncSend p s) := by
  refine otpKept_of_nvm ?_ hs
  simp -implicitDefEqProofs only [State.modPort_nvm, State.ptpSend_nvm, apply_ite State.nvm, ite_self]

theorem execPtpAnnounceSend_otpKept {s : State} (hs : s.nvm.OtpFrom o₀) (p : Fin 2) : OtpKept o₀ (execPtpAnnounceSend p s) := by
  refine otpKept_of_nvm ?_ hs
  simp -implicitDefEqProofs only [State.modPort_nvm, State.ptpSend_nvm, apply_ite State.nvm, ite_self]

theorem execPtpDelayReqSend_otpKept {s : State} (hs : s.nvm.OtpFrom o₀) (p : Fin 2) : OtpKept o₀ (execPtpDelayReqSend p s) := by
  refine otpKept_of_nvm ?_ hs
  simp -implicitDefEqProofs only [State.modPort_nvm, State.ptpSend_nvm, apply_ite State.nvm, ite_self]

theorem execPtpPdelayReqSend_otpKept {s : State} (hs : s.nvm.OtpFrom o₀) (p : Fin 2) : OtpKept o₀ (execPtpPdelayReqSend p s) := by
  refine otpKept_of_nvm ?_ hs
  simp -implicitDefEqProofs only [State.modPort_nvm, State.ptpSend_nvm, apply_ite State.nvm, ite_self]

theorem execPtpAnnounceReceiptTimeout_otpKept {s : State} (hs : s.nvm.OtpFrom o₀) (p : Fin 2) :
    OtpKept o₀ (execPtpAnnounceReceiptTimeout p s) := by
  refine otpKept_of_nvm ?_ hs
  simp -implicitDefEqProofs only [State.advanceTo_nvm, State.bmcPort_nvm, State.modPort_nvm, apply_ite State.nvm, ite_self]

theorem execPpsEdge_otpKept {s : State} (hs : s.nvm.OtpFrom o₀) (k : Fin 2) : OtpKept o₀ (execPpsEdge k s) := by
  refine otpKept_of_nvm ?_ hs
  simp -implicitDefEqProofs only [State.advanceTo_nvm, State.emit_nvm, State.modTime_nvm, apply_ite State.nvm, ite_self]

theorem execPpsPulseEnd_otpKept {s : State} (hs : s.nvm.OtpFrom o₀) (k : Fin 2) : OtpKept o₀ (execPpsPulseEnd k s) := by
  refine otpKept_of_nvm ?_ hs
  simp -implicitDefEqProofs only [State.advanceTicks_nvm, State.emit_nvm, State.modTime_nvm, apply_ite State.nvm, ite_self]

theorem execTimeCaptureEdge_otpKept {s : State} (hs : s.nvm.OtpFrom o₀) (n : Fin 4) (rising : Bool) (fine : Fin 8) (lasts : Nat) :
    OtpKept o₀ (execTimeCaptureEdge n rising fine lasts s) := by
  refine otpKept_of_nvm ?_ hs
  simp only [State.bump_nvm, State.event_nvm, State.modTime_nvm, State.set_nvm, apply_ite State.nvm, ite_self]

theorem execCapTslRead_otpKept {s : State} (hs : s.nvm.OtpFrom o₀) (n : Fin 4) : OtpKept o₀ (execCapTslRead n s) := by
  refine otpKept_of_nvm ?_ hs
  simp only [State.inDomain_nvm, State.popCapture_nvm, implies_true]

/-! Machine/Streams: the streams. -/

theorem execGstMergeExpire_otpKept {s : State} (hs : s.nvm.OtpFrom o₀) : OtpKept o₀ (execGstMergeExpire s) := by
  refine otpKept_of_nvm ?_ hs
  split <;> simp only [State.advanceTo_nvm, State.modFe_nvm]

theorem execFastPacketTimeout_otpKept {s : State} (hs : s.nvm.OtpFrom o₀) : OtpKept o₀ (execFastPacketTimeout s) := by
  refine otpKept_of_nvm ?_ hs
  split <;> simp only [State.advanceTo_nvm, State.dropFast_nvm, State.fastLost_nvm]

theorem execIsoRequestReceive_otpKept {s : State} (hs : s.nvm.OtpFrom o₀) (c : Fin 4) (dst : Byte) (pgn : Nat) :
    OtpKept o₀ (execIsoRequestReceive c dst pgn s) := by
  refine otpKept_of_nvm ?_ hs
  simp -implicitDefEqProofs only [State.canData_nvm, State.isoRequest_nvm, apply_ite State.nvm, ite_self]

theorem execAddressClaimReceive_otpKept {s : State} (hs : s.nvm.OtpFrom o₀) (c : Fin 4) (name : Word64) (sa : Byte) :
    OtpKept o₀ (execAddressClaimReceive c name sa s) := by
  refine otpKept_of_nvm ?_ hs
  simp -implicitDefEqProofs only [State.addressClaim_nvm, State.canData_nvm, apply_ite State.nvm, ite_self]

theorem execPgnReceive_otpKept {s : State} (hs : s.nvm.OtpFrom o₀) (c : Fin 4) (x : PgnMsg) (ago : Nat) :
    OtpKept o₀ (execPgnReceive c x ago s) := by
  refine otpKept_of_nvm ?_ hs
  simp -implicitDefEqProofs only [State.canData_nvm, State.dropFast_nvm, State.n2kMessage_nvm, apply_ite State.nvm, ite_self]

theorem execUdpbcDatagram_otpKept {s : State} (hs : s.nvm.OtpFrom o₀) (p : Fin 2) (group : Fin 16) (binaryKind : Bool)
    (src : Word64) (line : Nat) (c : Option Int) (xs : List (List Byte)) (ago : Nat) :
    OtpKept o₀ (execUdpbcDatagram p group binaryKind src line c xs ago s) := by
  refine otpKept_of_nvm ?_ hs
  simp only [State.bump_nvm, State.frameIn_nvm, State.remember_nvm, State.sentence_nvm, foldl_nvm, implies_true,
    apply_ite State.nvm, ite_self]

theorem execFlowDatagram_otpKept {s : State} (hs : s.nvm.OtpFrom o₀) (p : Fin 2) (udp : BitVec 16) (ip : Word)
    (fs : List (List Byte)) (ago : Nat) : OtpKept o₀ (execFlowDatagram p udp ip fs ago s) := by
  refine otpKept_of_nvm ?_ hs
  simp only [State.binary_nvm, State.bump_nvm, State.frameIn_nvm, State.remember_nvm, State.rtcm_nvm, foldl_nvm,
    implies_true, apply_ite State.nvm, ite_self]

theorem execStreamEnable_otpKept {s : State} (hs : s.nvm.OtpFrom o₀) (d : Dom) (n : Fin 128) (v : Word) :
    OtpKept o₀ (execStreamEnable d n v s) := by
  refine otpKept_of_nvm ?_ hs
  simp -implicitDefEqProofs only [fscCfgWrite_nvm, apply_ite State.nvm, ite_self]

theorem execStreamDisable_otpKept {s : State} (hs : s.nvm.OtpFrom o₀) (d : Dom) (n : Fin 128) (v : Word) :
    OtpKept o₀ (execStreamDisable d n v s) := by
  refine otpKept_of_nvm ?_ hs
  simp -implicitDefEqProofs only [fscCfgWrite_nvm, apply_ite State.nvm, ite_self]

theorem execOfscfgWrite_otpKept {s : State} (hs : s.nvm.OtpFrom o₀) (d : Dom) (n : Fin 128) (v : Word) :
    OtpKept o₀ (execOfscfgWrite d n v s) := by
  refine otpKept_of_nvm ?_ hs
  simp -implicitDefEqProofs only [ofscfgWrite_nvm, apply_ite State.nvm, ite_self]

theorem execFeScOfslRead_otpKept {s : State} (hs : s.nvm.OtpFrom o₀) (n : Fin 128) : OtpKept o₀ (execFeScOfslRead n s) := by
  refine otpKept_of_nvm ?_ hs
  simp -implicitDefEqProofs only [State.inDomain_nvm, State.readOfsl_nvm, implies_true, apply_ite State.nvm, ite_self]

theorem execUartCharacterReceive_otpKept {s : State} (hs : s.nvm.OtpFrom o₀) (p : Fin 16) (ch : Byte) (ferr perr : Bool) :
    OtpKept o₀ (execUartCharacterReceive p ch ferr perr s) := by
  refine otpKept_of_nvm ?_ hs
  simp -implicitDefEqProofs only [State.bump_nvm, State.modUart_nvm, State.uartErr_nvm, State.uartHeard_nvm,
    State.uartParse_nvm, apply_ite State.nvm, ite_self]

theorem execUartBreak_otpKept {s : State} (hs : s.nvm.OtpFrom o₀) (p : Fin 16) : OtpKept o₀ (execUartBreak p s) := by
  refine otpKept_of_nvm ?_ hs
  simp -implicitDefEqProofs only [State.bump_nvm, State.modUart_nvm, State.uartErr_nvm, apply_ite State.nvm, ite_self]

theorem execUartDataRead_otpKept {s : State} (hs : s.nvm.OtpFrom o₀) (p : Fin 16) : OtpKept o₀ (execUartDataRead p s) := by
  refine otpKept_of_nvm ?_ hs
  simp only [State.inDomain_nvm, State.uartRead_nvm, implies_true]

theorem execHelloSend_otpKept {s : State} (hs : s.nvm.OtpFrom o₀) (p : Fin 4) : OtpKept o₀ (execHelloSend p s) := by
  refine otpKept_of_nvm ?_ hs
  simp -implicitDefEqProofs only [State.advanceTo_nvm, State.modNet_nvm, State.sendPlain_nvm, apply_ite State.nvm, ite_self]

theorem execPeerDetach_otpKept {s : State} (hs : s.nvm.OtpFrom o₀) (n : Fin 512) : OtpKept o₀ (execPeerDetach n s) := by
  refine otpKept_of_nvm ?_ hs
  simp only [State.advanceTo_nvm, State.putPeer_nvm, State.zalEvt_nvm, apply_ite State.nvm, ite_self]

/-! Machine/Filter: the signal filters. -/

theorem execSyncBallEdge_otpKept {s : State} (hs : s.nvm.OtpFrom o₀) : OtpKept o₀ (execSyncBallEdge s) := by
  refine otpKept_of_nvm ?_ hs
  simp -implicitDefEqProofs only [State.setFlag_nvm, State.syncReset_nvm, apply_ite State.nvm, ite_self]

theorem execSyncAtReached_otpKept {s : State} (hs : s.nvm.OtpFrom o₀) : OtpKept o₀ (execSyncAtReached s) := by
  refine otpKept_of_nvm ?_ hs
  simp -implicitDefEqProofs only [State.advanceBy_nvm, State.setFlag_nvm, State.syncReset_nvm, apply_ite State.nvm, ite_self]

theorem execProofingDone_otpKept {s : State} (hs : s.nvm.OtpFrom o₀) (n : Fin 24) (own pair : List Bool) :
    OtpKept o₀ (execProofingDone n own pair s) := by
  refine otpKept_of_nvm ?_ hs
  simp -implicitDefEqProofs only [State.dsfSample_nvm, apply_ite State.nvm, ite_self]

theorem execRmsBlockEnd_otpKept {s : State} (hs : s.nvm.OtpFrom o₀) (n : Fin 24) (own pair : List Bool) :
    OtpKept o₀ (execRmsBlockEnd n own pair s) := by
  refine otpKept_of_nvm ?_ hs
  simp only [State.dsfSample_nvm, apply_ite State.nvm, ite_self]

theorem execPrimeEnd_otpKept {s : State} (hs : s.nvm.OtpFrom o₀) (n : Fin 24) (own pair : List Bool) :
    OtpKept o₀ (execPrimeEnd n own pair s) := by
  refine otpKept_of_nvm ?_ hs
  simp -implicitDefEqProofs only [State.dsfSample_nvm, apply_ite State.nvm, ite_self]

theorem execFadeEnd_otpKept {s : State} (hs : s.nvm.OtpFrom o₀) (n : Fin 24) (own pair : List Bool) :
    OtpKept o₀ (execFadeEnd n own pair s) := by
  refine otpKept_of_nvm ?_ hs
  simp -implicitDefEqProofs only [State.dsfSample_nvm, apply_ite State.nvm, ite_self]

theorem execDataStuck_otpKept {s : State} (hs : s.nvm.OtpFrom o₀) (n : Fin 24) : OtpKept o₀ (execDataStuck n s) := by
  refine otpKept_of_nvm ?_ hs
  simp -implicitDefEqProofs only [State.setFlag_nvm, State.unproof_nvm, apply_ite State.nvm, ite_self]

theorem execDataActive_otpKept {s : State} (hs : s.nvm.OtpFrom o₀) (n : Fin 24) : OtpKept o₀ (execDataActive n s) := by
  refine otpKept_of_nvm ?_ hs
  simp -implicitDefEqProofs only [State.modDsf_nvm, State.proofAll_nvm, State.setFlag_nvm, apply_ite State.nvm, ite_self]

theorem execDsfTslRead_otpKept {s : State} (hs : s.nvm.OtpFrom o₀) (n : Fin 24) : OtpKept o₀ (execDsfTslRead n s) := by
  refine otpKept_of_nvm ?_ hs
  simp -implicitDefEqProofs only [State.inDomain_nvm, State.set_nvm, implies_true]

/-! Machine/Lattice: the safety lattice. -/

theorem execChannelTrip_otpKept {s : State} (hs : s.nvm.OtpFrom o₀) (c : Fin 24) (x : LatIn) : OtpKept o₀
    (execChannelTrip c x s) := by
  unfold execChannelTrip
  exact ite_otpKept (by rwa [State.latticeEval_nvm]) hs s

theorem execDegradedTimeout_otpKept {s : State} (hs : s.nvm.OtpFrom o₀) : OtpKept o₀ (execDegradedTimeout s) := by
  refine otpKept_of_nvm ?_ hs
  simp -implicitDefEqProofs only [State.advanceTo_nvm, State.kzTimers_nvm, apply_ite State.nvm, ite_self]

theorem execDegradedClear_otpKept {s : State} (hs : s.nvm.OtpFrom o₀) : OtpKept o₀ (execDegradedClear s) := by
  refine otpKept_of_nvm ?_ hs
  simp -implicitDefEqProofs only [State.advanceTo_nvm, State.kzTimers_nvm, apply_ite State.nvm, ite_self]

theorem execAutoarm_otpKept {s : State} (hs : s.nvm.OtpFrom o₀) : OtpKept o₀ (execAutoarm s) := by
  refine otpKept_of_nvm ?_ hs
  simp -implicitDefEqProofs only [State.autoArm_nvm, apply_ite State.nvm, ite_self]

theorem execSafetyCoreHeartbeat_otpKept {s : State} (hs : s.nvm.OtpFrom o₀) : OtpKept o₀ (execSafetyCoreHeartbeat s) := by
  refine otpKept_of_nvm ?_ hs
  simp -implicitDefEqProofs only [State.autoArm_nvm, State.modKz_nvm, State.setFlag_nvm, State.switches_nvm,
    apply_ite State.nvm, ite_self]

theorem execSafetyCoreTimeout_otpKept {s : State} (hs : s.nvm.OtpFrom o₀) : OtpKept o₀ (execSafetyCoreTimeout s) := by
  refine otpKept_of_nvm ?_ hs
  simp -implicitDefEqProofs only [State.advanceTo_nvm, State.kzLatch_nvm, State.modKz_nvm, State.switches_nvm,
    apply_ite State.nvm, ite_self]

theorem execDisagreeFault_otpKept {s : State} (hs : s.nvm.OtpFrom o₀) (x : LatIn) : OtpKept o₀ (execDisagreeFault x s) := by
  refine otpKept_of_nvm ?_ hs
  simp -implicitDefEqProofs only [State.latticeEval_nvm, apply_ite State.nvm, ite_self]

theorem execReadbackFault_otpKept {s : State} (hs : s.nvm.OtpFrom o₀) (x : LatIn) : OtpKept o₀ (execReadbackFault x s) := by
  refine otpKept_of_nvm ?_ hs
  simp -implicitDefEqProofs only [State.latticeEval_nvm, apply_ite State.nvm, ite_self]

theorem execOscFault_otpKept {s : State} (hs : s.nvm.OtpFrom o₀) : OtpKept o₀ (execOscFault s) := by
  refine otpKept_of_nvm ?_ hs
  simp -implicitDefEqProofs only [State.advanceBy_nvm, State.autoArm_nvm, State.kzLatch_nvm, State.switches_nvm,
    apply_ite State.nvm, ite_self]

theorem execOffPulseTest_otpKept {s : State} (hs : s.nvm.OtpFrom o₀) (k : Fin 16) (low high : Bool) :
    OtpKept o₀ (execOffPulseTest k low high s) := by
  refine otpKept_of_nvm ?_ hs
  simp -implicitDefEqProofs only [State.advanceBy_nvm, State.advanceTo_nvm, State.kzLatch_nvm, State.modKz_nvm,
    State.setSwitch_nvm, State.switches_nvm, apply_ite State.nvm, ite_self]

theorem execSafeInputChange_otpKept {s : State} (hs : s.nvm.OtpFrom o₀) (i : Fin 16) (level : Bool) :
    OtpKept o₀ (execSafeInputChange i level s) := by
  refine otpKept_of_nvm ?_ hs
  simp -implicitDefEqProofs only [State.set_nvm, State.siPairs_nvm, State.switches_nvm, apply_ite State.nvm, ite_self]

theorem execSidiscFault_otpKept {s : State} (hs : s.nvm.OtpFrom o₀) (p : Fin 8) : OtpKept o₀ (execSidiscFault p s) := by
  refine otpKept_of_nvm ?_ hs
  dsimp only
  split <;> simp -implicitDefEqProofs only [State.advanceTo_nvm, State.set_nvm, State.setFaults_nvm, State.switches_nvm]

theorem execSrtTrip_otpKept {s : State} (hs : s.nvm.OtpFrom o₀) : OtpKept o₀ (execSrtTrip s) := by
  refine otpKept_of_nvm ?_ hs
  simp -implicitDefEqProofs only [State.srtBlock_nvm, apply_ite State.nvm, ite_self]

theorem execGraceEnd_otpKept {s : State} (hs : s.nvm.OtpFrom o₀) (c : Fin 24) : OtpKept o₀ (execGraceEnd c s) := by
  refine otpKept_of_nvm ?_ hs
  dsimp only
  split <;> simp only [State.advanceTo_nvm, State.kzSectors_nvm, State.kzSltGrace_nvm]

theorem execAuthTimeout_otpKept {s : State} (hs : s.nvm.OtpFrom o₀) : OtpKept o₀ (execAuthTimeout s) := by
  refine otpKept_of_nvm ?_ hs
  split <;> simp only [State.advanceTo_nvm, State.switches_nvm, apply_ite State.nvm, ite_self]

/-! Machine/Power: domains and resets. -/

theorem execRefclkWindow_otpKept {s : State} (hs : s.nvm.OtpFrom o₀) (edges : Nat) : OtpKept o₀ (execRefclkWindow edges s) := by
  refine otpKept_of_nvm ?_ hs
  simp only [State.advanceBy_nvm, State.bump_nvm, State.event_nvm, State.modPwr_nvm, State.setFlag_nvm,
    State.shadowHeld_nvm, apply_ite State.nvm, ite_self]

theorem execSafeOscWindow_otpKept {s : State} (hs : s.nvm.OtpFrom o₀) (cycles : Nat) : OtpKept o₀ (execSafeOscWindow cycles s) := by
  refine otpKept_of_nvm ?_ hs
  simp -implicitDefEqProofs only [State.event_nvm, State.setFlag_nvm, apply_ite State.nvm, ite_self]

theorem execPinReset_otpKept {s : State} (hs : s.nvm.OtpFrom o₀) (ns : Nat) : OtpKept o₀ (execPinReset ns s) := by
  refine otpKept_ends ?_
  simp -implicitDefEqProofs only [State.deviceReset_otpFrom, apply_ite State.nvm, ite_self, apply_ite (Nvm.OtpFrom o₀), hs]

theorem execPartnerForcedReset_otpKept {s : State} (hs : s.nvm.OtpFrom o₀) (ns : Nat) : OtpKept o₀ (execPartnerForcedReset ns s) := by
  refine otpKept_ends ?_
  simp -implicitDefEqProofs only [State.deviceReset_otpFrom, apply_ite State.nvm, ite_self, apply_ite (Nvm.OtpFrom o₀), hs]

theorem execWatchdogExpire_otpKept {s : State} (hs : s.nvm.OtpFrom o₀) : OtpKept o₀ (execWatchdogExpire s) := by
  refine otpKept_ends ?_
  split <;> simp only [State.advanceBy_nvm, State.deviceReset_otpFrom, apply_ite State.nvm, ite_self, apply_ite (Nvm.OtpFrom o₀), hs]

theorem execPrstOutPulseEnd_otpKept {s : State} (hs : s.nvm.OtpFrom o₀) : OtpKept o₀ (execPrstOutPulseEnd s) := by
  refine otpKept_of_nvm ?_ hs
  simp -implicitDefEqProofs only [State.advanceBy_nvm, State.emit_nvm, State.modPwr_nvm, apply_ite State.nvm, ite_self]

theorem execDeepWake_otpKept {s : State} (hs : s.nvm.OtpFrom o₀) (src : Fin 3) : OtpKept o₀ (execDeepWake src s) := by
  refine otpKept_ends ?_
  simp -implicitDefEqProofs only [State.advanceBy_nvm, State.deviceReset_otpFrom, apply_ite State.nvm, ite_self,
    apply_ite (Nvm.OtpFrom o₀), hs]

theorem execScrubBurst_otpKept {s : State} (hs : s.nvm.OtpFrom o₀) (corrected : Bool) : OtpKept o₀ (execScrubBurst corrected s) := by
  refine otpKept_of_nvm ?_ hs
  simp -implicitDefEqProofs only [State.advanceTo_nvm, State.pmu_nvm, State.setFlag_nvm, apply_ite State.nvm, ite_self]

theorem execScrubCapApply_otpKept {s : State} (hs : s.nvm.OtpFrom o₀) : OtpKept o₀ (execScrubCapApply s) :=
  scrub_otpKept (State.advanceTo_nvm ..) hs s _

/-! Machine/Jobs: the solver fabric. -/

theorem execSubmitHoldRelease_otpKept {s : State} (hs : s.nvm.OtpFrom o₀) : OtpKept o₀ (execSubmitHoldRelease s) := by
  unfold execSubmitHoldRelease
  split
  · exact otpKept_ends hs
  next x _ =>
    have h₁ : (s.modJobs fun q => { q with held := q.held.erase x }).nvm.OtpFrom o₀ := hs
    exact heldTaken_otpKept h₁ s x

theorem execJobDispatch_otpKept {s : State} (hs : s.nvm.OtpFrom o₀) : OtpKept o₀ (execJobDispatch s) := by
  refine otpKept_ends (foldl_otpFrom (fun t e ht => ?_) _ hs)
  split
  · exact ht
  · split
    · exact ht
    · exact State.startJob_otpFrom ht ..

theorem execJobCheckPoint_otpKept {s : State} (hs : s.nvm.OtpFrom o₀) (i : Nat) (c : CheckPoint) :
    OtpKept o₀ (execJobCheckPoint i c s) := by
  refine otpKept_ends ?_
  split
  · exact hs
  next j _ =>
    refine ite_otpFrom hs ?_
    have hb := s.scratch_nvm j c.corr c.ecc
    split
    next s₁ bad h₁ =>
    rw [h₁] at hb
    dsimp only
    have h₂ : (s₁.factorWrite (s₁.sparseRead j)).nvm.OtpFrom o₀ := by rwa [State.factorWrite_nvm, hb]
    have put (k : Job) := State.putJob_otpFrom h₂ k
    refine ite_otpFrom (put _) <| ite_otpFrom (put _) <| ite_otpFrom (put _) <| ite_otpFrom (put _) <|
      ite_otpFrom (put _) ?_
    split
    · exact put _
    · exact ite_otpFrom (State.suspend_otpFrom h₂ _) (put _)

/-! Machine/Estimator: the estimator. -/

theorem execSurveyEpochStore_otpKept {s : State} (hs : s.nvm.OtpFrom o₀) : OtpKept o₀ (execSurveyEpochStore s) := by
  refine otpKept_of_nvm ?_ hs
  simp -implicitDefEqProofs only [State.set_nvm, State.setFlag_nvm, State.storeBytes_nvm, apply_ite State.nvm, ite_self]

theorem execSurveyResubmit_otpKept {s : State} (hs : s.nvm.OtpFrom o₀) : OtpKept o₀ (execSurveyResubmit s) := by
  refine otpKept_ends ?_
  simp -implicitDefEqProofs only [State.survSubmit_otpFrom, apply_ite State.nvm, ite_self, apply_ite (Nvm.OtpFrom o₀), hs]

/-! Machine/StationKeeping: station keeping. -/

theorem execJoystickTimeout_otpKept {s : State} (hs : s.nvm.OtpFrom o₀) : OtpKept o₀ (execJoystickTimeout s) := by
  refine otpKept_of_nvm ?_ hs
  simp -implicitDefEqProofs only [State.advanceTo_nvm, State.modSk_nvm, State.setFlag_nvm, apply_ite State.nvm, ite_self]

/-! Machine/Pair: the pair. -/

theorem execGnssRefresh_otpKept {s : State} (hs : s.nvm.OtpFrom o₀) : OtpKept o₀ (execGnssRefresh s) := by
  refine otpKept_ends ?_
  simp -implicitDefEqProofs only [State.gnRefresh_otpFrom, apply_ite State.nvm, ite_self, apply_ite (Nvm.OtpFrom o₀), hs]

theorem execGnssRefreshEnd_otpKept {s : State} (hs : s.nvm.OtpFrom o₀) : OtpKept o₀ (execGnssRefreshEnd s) := by
  refine otpKept_ends ?_
  simp -implicitDefEqProofs only [State.gnRefresh_otpFrom, apply_ite State.nvm, ite_self, apply_ite (Nvm.OtpFrom o₀), hs]

theorem execHeartbeatSend_otpKept {s : State} (hs : s.nvm.OtpFrom o₀) : OtpKept o₀ (execHeartbeatSend s) := by
  refine otpKept_of_nvm ?_ hs
  simp -implicitDefEqProofs only [State.advanceTo_nvm, State.emit_nvm, State.modHa_nvm, State.sendPlain_nvm,
    apply_ite State.nvm, ite_self]

theorem execHeartbeatReceive_otpKept {s : State} (hs : s.nvm.OtpFrom o₀) (line : Fin 2) (b : BitVec 72) :
    OtpKept o₀ (execHeartbeatReceive line b s) := by
  refine otpKept_ends ?_
  simp only [State.frameIn_nvm, State.heartbeat_otpFrom, apply_ite State.nvm, ite_self, apply_ite (Nvm.OtpFrom o₀), hs]

theorem execCheckpointSend_otpKept {s : State} (hs : s.nvm.OtpFrom o₀) : OtpKept o₀ (execCheckpointSend s) := by
  refine otpKept_of_nvm ?_ hs
  simp -implicitDefEqProofs only [State.advanceTo_nvm, State.ckEmit_nvm, State.drawn_nvm, State.modHa_nvm, State.modNet_nvm,
    apply_ite State.nvm, ite_self]

theorem execCheckpointSendComplete_otpKept {s : State} (hs : s.nvm.OtpFrom o₀) : OtpKept o₀ (execCheckpointSendComplete s) := by
  refine otpKept_of_nvm ?_ hs
  split
  · rw [apply_ite State.nvm, State.ckSent_nvm, ite_self]
  · rfl

theorem execCheckpointFrameReceive_otpKept {s : State} (hs : s.nvm.OtpFrom o₀) (hb : BitVec 72) (frag nfrag : Nat) (cyc : Word)
    (total ns : Nat) (cut crc : Bool) (data : Ckpt) :
    OtpKept o₀ (execCheckpointFrameReceive hb frag nfrag cyc total ns cut crc data s) := by
  refine otpKept_ends ?_
  extract_lets s₁ s₂
  have h₁ : s₁.nvm.OtpFrom o₀ := by rwa [State.frameIn_nvm]
  have h₂ : s₂.nvm.OtpFrom o₀ := ite_otpFrom (State.heartbeat_otpFrom h₁ ..) h₁
  refine ite_otpFrom h₁ (ite_otpFrom h₂ ?_)
  split
  · rwa [State.ckFrame_nvm]
  · exact ite_otpFrom (by rwa [State.ckFrame_nvm]) (ite_otpFrom (by rwa [State.ckFrame_nvm, State.ckBad_nvm]) h₂)

theorem execHeartbeatPeriodEnd_otpKept {s : State} (hs : s.nvm.OtpFrom o₀) : OtpKept o₀ (execHeartbeatPeriodEnd s) := by
  refine otpKept_ends ?_
  simp -implicitDefEqProofs only [State.periodEnd_otpFrom, apply_ite State.nvm, ite_self, apply_ite (Nvm.OtpFrom o₀), hs]

theorem execLineLost_otpKept {s : State} (hs : s.nvm.OtpFrom o₀) (line : Fin 2) : OtpKept o₀ (execLineLost line s) := by
  refine otpKept_ends ?_
  simp -implicitDefEqProofs only [State.periodEnd_otpFrom, apply_ite State.nvm, ite_self, apply_ite (Nvm.OtpFrom o₀), hs]

theorem execLineReturn_otpKept {s : State} (hs : s.nvm.OtpFrom o₀) (line : Fin 2) : OtpKept o₀ (execLineReturn line s) := by
  refine otpKept_ends ?_
  simp -implicitDefEqProofs only [State.periodEnd_otpFrom, apply_ite State.nvm, ite_self, apply_ite (Nvm.OtpFrom o₀), hs]

theorem execBothLinesSilent_otpKept {s : State} (hs : s.nvm.OtpFrom o₀) : OtpKept o₀ (execBothLinesSilent s) := by
  refine otpKept_ends ?_
  simp -implicitDefEqProofs only [State.periodEnd_otpFrom, apply_ite State.nvm, ite_self, apply_ite (Nvm.OtpFrom o₀), hs]

theorem execHaTdlRead_otpKept {s : State} (hs : s.nvm.OtpFrom o₀) : OtpKept o₀ (execHaTdlRead s) := by
  refine otpKept_of_nvm ?_ hs
  simp -implicitDefEqProofs only [State.inDomain_nvm, State.set_nvm, implies_true]

theorem execHaLhblRead_otpKept {s : State} (hs : s.nvm.OtpFrom o₀) : OtpKept o₀ (execHaLhblRead s) := by
  refine otpKept_of_nvm ?_ hs
  simp -implicitDefEqProofs only [State.inDomain_nvm, State.set_nvm, implies_true]

/-! Machine/Block: the block engines. -/

theorem execBeTrellRead_otpKept {s : State} (hs : s.nvm.OtpFrom o₀) (n : Fin 16) : OtpKept o₀ (execBeTrellRead n s) := by
  refine otpKept_of_nvm ?_ hs
  simp only [State.inDomain_nvm, State.trellRead_nvm, implies_true]

/-! Machine/CanBus: the CAN buses. -/

theorem execCanColumnOpen_otpKept {s : State} (hs : s.nvm.OtpFrom o₀) (c : Fin 4) (idle : Nat) :
    OtpKept o₀ (execCanColumnOpen c idle s) := by
  refine otpKept_of_nvm ?_ hs
  simp -implicitDefEqProofs only [State.canColumn_nvm, apply_ite State.nvm, ite_self]

theorem execCanFrameReceive_otpKept {s : State} (hs : s.nvm.OtpFrom o₀) (c : Fin 4) (ident : BitVec 29) (ide fdf : Bool)
    (data : List Byte) (ago : Nat) : OtpKept o₀ (execCanFrameReceive c ident ide fdf data ago s) := by
  refine otpKept_of_nvm ?_ hs
  simp -implicitDefEqProofs only [State.canFrame_nvm, apply_ite State.nvm, ite_self]

theorem execCanRemoteFrameReceive_otpKept {s : State} (hs : s.nvm.OtpFrom o₀) (c : Fin 4) (ident : BitVec 29) (ide : Bool)
    (dlc : Fin 16) (ago : Nat) : OtpKept o₀ (execCanRemoteFrameReceive c ident ide dlc ago s) := by
  refine otpKept_of_nvm ?_ hs
  simp -implicitDefEqProofs only [State.canHeard_nvm, State.canStore_nvm, apply_ite State.nvm, ite_self]

theorem execCanRxStatusRead_otpKept {s : State} (hs : s.nvm.OtpFrom o₀) (c : Fin 4) (b : Fin 64) :
    OtpKept o₀ (execCanRxStatusRead c b s) := by
  refine otpKept_of_nvm ?_ hs
  simp only [State.canRxRead_nvm, State.inDomain_nvm, implies_true]

theorem execCanAttemptEnd_otpKept {s : State} (hs : s.nvm.OtpFrom o₀) (c : Fin 4) (dur : Nat) (how : Fin 5) :
    OtpKept o₀ (execCanAttemptEnd c dur how s) := by
  refine otpKept_of_nvm ?_ hs
  simp -implicitDefEqProofs only [State.canAttempt_nvm, apply_ite State.nvm, ite_self]

theorem execBusOffRecovery_otpKept {s : State} (hs : s.nvm.OtpFrom o₀) (c : Fin 4) : OtpKept o₀ (execBusOffRecovery c s) := by
  refine otpKept_of_nvm ?_ hs
  simp -implicitDefEqProofs only [State.advanceBy_nvm, State.greet_nvm, State.modCan_nvm, State.set_nvm,
    apply_ite State.nvm, ite_self]

theorem execReferenceFrameReceive_otpKept {s : State} (hs : s.nvm.OtpFrom o₀) (c : Fin 4) (data : List Byte) (ago : Nat) :
    OtpKept o₀ (execReferenceFrameReceive c data ago s) := by
  refine otpKept_of_nvm ?_ hs
  simp -implicitDefEqProofs only [State.canFrame_nvm, apply_ite State.nvm, ite_self]

theorem execRefLost_otpKept {s : State} (hs : s.nvm.OtpFrom o₀) (c : Fin 4) : OtpKept o₀ (execRefLost c s) := by
  refine otpKept_of_nvm ?_ hs
  simp -implicitDefEqProofs only [State.advanceTo_nvm, State.modCan_nvm, State.setFlag_nvm, apply_ite State.nvm, ite_self]

theorem execCanBusError_otpKept {s : State} (hs : s.nvm.OtpFrom o₀) (c : Fin 4) (dominant : Bool) :
    OtpKept o₀ (execCanBusError c dominant s) := by
  refine otpKept_of_nvm ?_ hs
  simp -implicitDefEqProofs only [State.bump_nvm, State.canState_nvm, State.set_nvm, apply_ite State.nvm, ite_self]

/-! Machine/Alloc: the allocator. -/

theorem execQpLaunch_otpKept {s : State} (hs : s.nvm.OtpFrom o₀) : OtpKept o₀ (execQpLaunch s) := by
  refine otpKept_ends ?_
  simp -implicitDefEqProofs only [State.advanceTo_nvm, State.alcShadow_nvm, State.event_nvm, State.setFlag_nvm,
    State.startChain_otpFrom, apply_ite State.nvm, ite_self, apply_ite (Nvm.OtpFrom o₀), hs]

theorem execCommandLaunch_otpKept {s : State} (hs : s.nvm.OtpFrom o₀) : OtpKept o₀ (execCommandLaunch s) := by
  refine otpKept_ends ?_
  simp -implicitDefEqProofs only [State.masterLaunch_otpFrom, apply_ite State.nvm, ite_self, apply_ite (Nvm.OtpFrom o₀), hs]

theorem execOutputMissDemote_otpKept {s : State} (hs : s.nvm.OtpFrom o₀) : OtpKept o₀ (execOutputMissDemote s) := by
  refine otpKept_ends ?_
  simp -implicitDefEqProofs only [State.masterLaunch_otpFrom, apply_ite State.nvm, ite_self, apply_ite (Nvm.OtpFrom o₀), hs]

theorem execHeadLaunch_otpKept {s : State} (hs : s.nvm.OtpFrom o₀) : OtpKept o₀ (execHeadLaunch s) := by
  refine otpKept_of_nvm ?_ hs
  simp -implicitDefEqProofs only [State.headLaunch_nvm, apply_ite State.nvm, ite_self]

theorem execHeadStop_otpKept {s : State} (hs : s.nvm.OtpFrom o₀) : OtpKept o₀ (execHeadStop s) := by
  refine otpKept_of_nvm ?_ hs
  simp -implicitDefEqProofs only [State.headLaunch_nvm, apply_ite State.nvm, ite_self]

/-! Machine/Twin: the twin networks. -/

theorem execHelloReceive_otpKept {s : State} (hs : s.nvm.OtpFrom o₀) (p : Fin 4) (b : List Byte) :
    OtpKept o₀ (execHelloReceive p b s) := by
  refine otpKept_of_nvm ?_ hs
  simp only [State.bump_nvm, State.frameIn_nvm, State.helloFrame_nvm, apply_ite State.nvm, ite_self]

theorem execTwinCopyReceive_otpKept {s : State} (hs : s.nvm.OtpFrom o₀) (p : Fin 4) (b : List Byte) :
    OtpKept o₀ (execTwinCopyReceive p b s) := by
  refine otpKept_ends ?_
  simp only [State.bump_nvm, State.frameIn_nvm, State.twinCopy_otpFrom, apply_ite State.nvm, ite_self,
    apply_ite (Nvm.OtpFrom o₀), hs]

theorem execTwinWinExpire_otpKept {s : State} (hs : s.nvm.OtpFrom o₀) : OtpKept o₀ (execTwinWinExpire s) := by
  refine otpKept_ends ?_
  split <;> simp only [State.advanceTo_nvm, State.expire_otpFrom, hs]

theorem execTermRelay_otpKept {s : State} (hs : s.nvm.OtpFrom o₀) : OtpKept o₀ (execTermRelay s) := by
  refine otpKept_of_nvm ?_ hs
  split <;> simp only [State.advanceTo_nvm, State.modHa_nvm, State.sendTwin_nvm]

theorem execTelemetrySend_otpKept {s : State} (hs : s.nvm.OtpFrom o₀) (k : Fin 8) : OtpKept o₀ (execTelemetrySend k s) := by
  refine otpKept_of_nvm ?_ hs
  simp only [State.advanceTo_nvm, State.modNet_nvm, State.sendPlain_nvm, foldl_nvm, implies_true, apply_ite State.nvm,
    ite_self]

theorem execArpRequest_otpKept {s : State} (hs : s.nvm.OtpFrom o₀) (p : Fin 5) (ip : Word) : OtpKept o₀ (execArpRequest p ip s) := by
  refine otpKept_of_nvm ?_ hs
  simp only [State.bump_nvm, State.frameIn_nvm, State.sendPlain_nvm, apply_ite State.nvm, ite_self]

theorem execLinkChange_otpKept {s : State} (hs : s.nvm.OtpFrom o₀) (p : Fin 5) (up : Bool) (speed : Fin 3) :
    OtpKept o₀ (execLinkChange p up speed s) := by
  refine otpKept_of_nvm ?_ hs
  simp -implicitDefEqProofs only [State.event_nvm, State.set_nvm, State.setFlag_nvm, apply_ite State.nvm, ite_self]

/-! Machine/Cycle: the cycle. -/

theorem execCheckpointAbandon_otpKept {s : State} (hs : s.nvm.OtpFrom o₀) : OtpKept o₀ (execCheckpointAbandon s) := by
  refine otpKept_ends ?_
  split <;> simp only [State.cycleTick_otpFrom, apply_ite State.nvm, ite_self, apply_ite (Nvm.OtpFrom o₀), hs]

theorem execFirstCycle_otpKept {s : State} (hs : s.nvm.OtpFrom o₀) : OtpKept o₀ (execFirstCycle s) := by
  refine otpKept_ends ?_
  simp -implicitDefEqProofs only [State.cycleTick_otpFrom, apply_ite State.nvm, ite_self, apply_ite (Nvm.OtpFrom o₀), hs]

theorem execDrExpire_otpKept {s : State} (hs : s.nvm.OtpFrom o₀) : OtpKept o₀ (execDrExpire s) := by
  refine otpKept_ends ?_
  split <;> simp only [State.cycleTick_otpFrom, apply_ite State.nvm, ite_self, apply_ite (Nvm.OtpFrom o₀), hs]

theorem execQualityUpgrade_otpKept {s : State} (hs : s.nvm.OtpFrom o₀) : OtpKept o₀ (execQualityUpgrade s) := by
  refine otpKept_ends ?_
  simp -implicitDefEqProofs only [State.cycleTick_otpFrom, apply_ite State.nvm, ite_self, apply_ite (Nvm.OtpFrom o₀), hs]

theorem execSysCycT0lRead_otpKept {s : State} (hs : s.nvm.OtpFrom o₀) : OtpKept o₀ (execSysCycT0lRead s) := by
  refine otpKept_of_nvm ?_ hs
  simp only [State.inDomain_nvm, State.readT0_nvm, implies_true]

theorem execProjectionPhase_otpKept {s : State} (hs : s.nvm.OtpFrom o₀) : OtpKept o₀ (execProjectionPhase s) := by
  refine otpKept_ends ?_
  simp -implicitDefEqProofs only [State.advanceTo_nvm, State.modEst_nvm, State.submitInternal_otpFrom, apply_ite State.nvm,
    ite_self, apply_ite (Nvm.OtpFrom o₀), hs]

theorem execEstimatorStart_otpKept {s : State} (hs : s.nvm.OtpFrom o₀) : OtpKept o₀ (execEstimatorStart s) := by
  refine otpKept_ends ?_
  simp -implicitDefEqProofs only [State.advanceTo_nvm, State.estStart_otpFrom, apply_ite State.nvm, ite_self,
    apply_ite (Nvm.OtpFrom o₀), hs]

theorem execSpeTrip_otpKept {s : State} (hs : s.nvm.OtpFrom o₀) : OtpKept o₀ (execSpeTrip s) := by
  refine otpKept_ends ?_
  simp -implicitDefEqProofs only [State.estimatePublish_otpFrom, apply_ite State.nvm, ite_self, apply_ite (Nvm.OtpFrom o₀), hs]

theorem execAssignLaunch_otpKept {s : State} (hs : s.nvm.OtpFrom o₀) : OtpKept o₀ (execAssignLaunch s) := by
  refine otpKept_ends ?_
  simp -implicitDefEqProofs only [State.advanceTo_nvm, State.modTrk_nvm, State.submitInternal_otpFrom, apply_ite State.nvm,
    ite_self, apply_ite (Nvm.OtpFrom o₀), hs]

/-! Machine/Complete: what a finished job causes. -/

theorem execSurveyTimeout_otpKept {s : State} (hs : s.nvm.OtpFrom o₀) : OtpKept o₀ (execSurveyTimeout s) := by
  unfold execSurveyTimeout
  split
  · exact otpKept_ends hs
  next t _ =>
    exact surveyTimedOut_otpKept (s := s.advanceTo (t + 3000000000)) (by rwa [State.advanceTo_nvm]) s

theorem execJobComplete_otpKept {s : State} (hs : s.nvm.OtpFrom o₀) (i corr : Nat) (ecc : Bool) :
    OtpKept o₀ (execJobComplete i corr ecc s) := by
  refine otpKept_ends ?_
  split
  · exact hs
  next j _ =>
    refine ite_otpFrom hs ?_
    split
    · split
      · exact hs
      · exact State.finishJob_otpFrom hs ..
    · have hx : (if j.kind = 4 then s.scratch j corr ecc else (s, false)).1.nvm = s.nvm := by
        rw [apply_ite Prod.fst, apply_ite State.nvm, State.scratch_nvm, ite_self]
      split
      next s₁ bad h₁ =>
      rw [h₁] at hx
      have done (status reason : Nat) : (s₁.finishJob j status reason none).nvm.OtpFrom o₀ :=
        State.finishJob_otpFrom (by rwa [hx]) ..
      refine ite_otpFrom (done _ _) ?_
      split
      · exact done _ _
      · exact ite_otpFrom (done _ _) <| ite_otpFrom (done _ _) <|
          ite_otpFrom (State.kfEnd_otpFrom (by rwa [hx]) j) (done _ _)

theorem execJobDelayed_otpKept {s : State} (hs : s.nvm.OtpFrom o₀) (i corr : Nat) (ecc : Bool) :
    OtpKept o₀ (execJobDelayed i corr ecc s) := by
  refine otpKept_ends ?_
  split <;> simp only [State.atDeadline_nvm, State.endSuspended_otpFrom, State.finishJob_otpFrom, apply_ite State.nvm,
    ite_self, apply_ite (Nvm.OtpFrom o₀), hs]

theorem execJobResume_otpKept {s : State} (hs : s.nvm.OtpFrom o₀) (i corr : Nat) (ecc : Bool) :
    OtpKept o₀ (execJobResume i corr ecc s) := by
  refine otpKept_ends ?_
  split <;> simp only [State.advanceTo_nvm, State.scratch_nvm, State.showJobs_nvm, State.endSuspended_otpFrom,
    State.finishJob_otpFrom, State.putJob_otpFrom, apply_ite State.nvm, ite_self, apply_ite (Nvm.OtpFrom o₀), hs]

theorem execKfDeadlineAbort_otpKept {s : State} (hs : s.nvm.OtpFrom o₀) (i : Nat) : OtpKept o₀ (execKfDeadlineAbort i s) := by
  refine otpKept_ends ?_
  split <;> simp only [State.atDeadline_nvm, State.finishJob_otpFrom, apply_ite State.nvm, ite_self, apply_ite (Nvm.OtpFrom o₀),
    hs]

theorem execTrackCoastExpire_otpKept {s : State} (hs : s.nvm.OtpFrom o₀) (j : Fin 64) : OtpKept o₀ (execTrackCoastExpire j s) := by
  refine otpKept_ends ?_
  split <;> simp only [State.finishJob_otpFrom, apply_ite State.nvm, ite_self, apply_ite (Nvm.OtpFrom o₀), hs]

/-! Machine/Gnss: the GNSS receiver. -/

theorem execGnssEpoch_otpKept {s : State} (hs : s.nvm.OtpFrom o₀) (g : GnssEpoch) : OtpKept o₀ (execGnssEpoch g s) := by
  refine otpKept_of_nvm ?_ hs
  simp -implicitDefEqProofs only [State.gnssEpoch_nvm, apply_ite State.nvm, ite_self]

theorem execAutoSearch_otpKept {s : State} (hs : s.nvm.OtpFrom o₀) (req dop : Word) : OtpKept o₀ (execAutoSearch req dop s) := by
  refine otpKept_of_nvm ?_ hs
  simp only [State.modGn_nvm, apply_ite State.nvm, ite_self]

theorem execAcqComplete_otpKept {s : State} (hs : s.nvm.OtpFrom o₀) (k : AcqPeak) : OtpKept o₀ (execAcqComplete k s) := by
  unfold execAcqComplete
  split
  · exact otpKept_ends hs
  next q _ =>
    refine otpKept_of_nvm ?_ hs
    rw [State.acqNext_nvm]
    generalize hs₁ : (s.advanceTo (q.2.2.1 + acqNs q.1 q.2.1)).pmu 177 = s₁
    have h₁ : s₁.nvm = s.nvm := by rw [← hs₁, State.pmu_nvm, State.advanceTo_nvm]
    generalize (s₁.get F.GN_ACQBUFL_BUF_LO + 2 ^ 32 * s₁.get F.GN_ACQBUFH_BUF_HI) / 4096 * 4096 = buf
    generalize hs₂ : (if s₁.domOn 13 && s₁.inSramOrDram buf 0x800000 then s₁.storeBytes buf (k.snap.take 0x800000) else s₁) = s₂
    have h₂ : s₂.nvm = s.nvm := by rw [← hs₂, apply_ite State.nvm, State.storeBytes_nvm, ite_self, h₁]
    split
    · extract_lets s₄ s₅
      have h₅ : s₅.nvm = s.nvm := by
        rw [State.setWord_nvm, State.set_nvm, State.set_nvm, State.set_nvm, State.modGn_nvm, h₂]
      split
      · split
        · exact h₅
        · rw [State.channelStart_nvm, h₅]
      · exact h₅
    · rw [State.set_nvm, State.modGn_nvm, h₂]

theorem execChannelPullInLock_otpKept {s : State} (hs : s.nvm.OtpFrom o₀) (n : Fin 192) : OtpKept o₀ (execChannelPullInLock n s) := by
  refine otpKept_of_nvm ?_ hs
  simp -implicitDefEqProofs only [State.set_nvm, apply_ite State.nvm, ite_self]

theorem execChannelLockLost_otpKept {s : State} (hs : s.nvm.OtpFrom o₀) (n : Fin 192) : OtpKept o₀ (execChannelLockLost n s) := by
  refine otpKept_of_nvm ?_ hs
  simp only [State.modGn_nvm, State.set_nvm, apply_ite State.nvm, ite_self]

theorem execChannelLostRelease_otpKept {s : State} (hs : s.nvm.OtpFrom o₀) (n : Fin 192) :
    OtpKept o₀ (execChannelLostRelease n s) := by
  refine otpKept_of_nvm ?_ hs
  split
  · rfl
  · split
    · rfl
    · rw [State.channelStop_nvm, State.setFlag_nvm, State.advanceTo_nvm]

theorem execWordRecord_otpKept {s : State} (hs : s.nvm.OtpFrom o₀) (u : WordUnit) : OtpKept o₀ (execWordRecord u s) := by
  refine otpKept_of_nvm ?_ hs
  split
  · rfl
  extract_lets lg w s₀ s₁ now key s₂ s₃ s₄
  have h₁ : s₁.nvm = s.nvm := by
    rw [apply_ite State.nvm, State.set_nvm, State.gnRing_nvm, ite_self]
  have h₂ : s₂.nvm = s.nvm := by
    rw [← h₁]
    simp only [s₂]
    split
    · rw [apply_ite State.nvm, State.modGn_nvm, ite_self]
    · rfl
  have h₃ : s₃.nvm = s.nvm := by
    rw [← h₂]
    simp only [s₃]
    split
    · rw [apply_ite State.nvm, State.modGn_nvm, ite_self]
    · rfl
  have h₄ : s₄.nvm = s.nvm := by
    rw [← h₃]
    simp only [s₄]
    split
    · rw [apply_ite State.nvm, State.leapFrom_nvm, ite_self]
    · rfl
  split
  · exact h₁
  · rw [apply_ite State.nvm, State.modGn_nvm, ite_self, h₄]

theorem execAntennaOpen_otpKept {s : State} (hs : s.nvm.OtpFrom o₀) (a : Fin 2) (ma : Byte) :
    OtpKept o₀ (execAntennaOpen a ma s) := by
  refine otpKept_of_nvm ?_ hs
  simp -implicitDefEqProofs only [State.antenna_nvm, apply_ite State.nvm, ite_self]

theorem execAntennaShort_otpKept {s : State} (hs : s.nvm.OtpFrom o₀) (a : Fin 2) (ma : Byte) :
    OtpKept o₀ (execAntennaShort a ma s) := by
  refine otpKept_of_nvm ?_ hs
  simp -implicitDefEqProofs only [State.advanceBy_nvm, State.antenna_nvm, State.event_nvm, State.set_nvm, State.setFlag_nvm,
    apply_ite State.nvm, ite_self]

theorem execWindbreakSearch_otpKept {s : State} (hs : s.nvm.OtpFrom o₀) (lines : List (Fin 4 × Int × Nat)) :
    OtpKept o₀ (execWindbreakSearch lines s) := by
  refine otpKept_of_nvm ?_ hs
  simp only [State.advanceTo_nvm, State.modGn_nvm, State.wbPath_nvm, foldl_nvm, implies_true, apply_ite State.nvm, ite_self]

theorem execJammingIndicator_otpKept {s : State} (hs : s.nvm.OtpFrom o₀) (levels : List (Int × Int)) :
    OtpKept o₀ (execJammingIndicator levels s) := by
  refine otpKept_of_nvm ?_ hs
  simp only [State.advanceTo_nvm, State.jiPath_nvm, State.modGn_nvm, foldl_nvm, implies_true, apply_ite State.nvm, ite_self]

theorem execGnssTimeSolution_otpKept {s : State} (hs : s.nvm.OtpFrom o₀) (ofs : Int) (sigma : Nat) :
    OtpKept o₀ (execGnssTimeSolution ofs sigma s) := by
  refine otpKept_ends ?_
  simp -implicitDefEqProofs only [State.gnSolution_otpFrom, apply_ite State.nvm, ite_self, apply_ite (Nvm.OtpFrom o₀), hs]

theorem execGnssTimeLoss_otpKept {s : State} (hs : s.nvm.OtpFrom o₀) : OtpKept o₀ (execGnssTimeLoss s) := by
  refine otpKept_of_nvm ?_ hs
  simp only [State.advanceTo_nvm, State.setGnTq_nvm, State.toHoldover_nvm, apply_ite State.nvm, ite_self]

/-! Machine/Interrupt: the interrupt controller. -/

theorem execInterruptEntry_otpKept {s : State} (hs : s.nvm.OtpFrom o₀) (x : Fin 10) : OtpKept o₀ (execInterruptEntry x s) := by
  refine otpKept_of_nvm ?_ hs
  simp -implicitDefEqProofs only [State.modProc_nvm, State.setFlag_nvm, apply_ite State.nvm, ite_self]

theorem execIcClaim_otpKept {s : State} (hs : s.nvm.OtpFrom o₀) (x : Fin 10) (m : Fin 11) : OtpKept o₀ (execIcClaim x m s) := by
  refine otpKept_of_nvm (State.inDomain_nvm (fun t => ?_) s 1) hs
  split
  · rfl
  · split
    · rw [State.claim_nvm]
    · rw [State.setWord_nvm, State.bump_nvm]

theorem execIcComplete_otpKept {s : State} (hs : s.nvm.OtpFrom o₀) (x : Fin 10) (m : Fin 11) : OtpKept o₀ (execIcComplete x m s) := by
  refine otpKept_of_nvm ?_ hs
  simp only [State.complete_nvm, State.inDomain_nvm, implies_true, apply_ite State.nvm, ite_self]

/-! Machine/Engine: instructions of block code. -/

theorem execTaskTrap_otpKept {s : State} (hs : s.nvm.OtpFrom o₀) (e : Fin 8) (cause : Fin 3) (corr : Nat) :
    OtpKept o₀ (execTaskTrap e cause corr s) := by
  refine otpKept_of_nvm ?_ hs
  split <;> simp only [State.eccCorrected_nvm, State.trapRun_nvm, apply_ite State.nvm, ite_self]

/-! Machine/Runtime: tasks and their copies. -/

theorem execTaskRelease_otpKept {s : State} (hs : s.nvm.OtpFrom o₀) (n : Fin 16) : OtpKept o₀ (execTaskRelease n s) := by
  refine otpKept_of_nvm ?_ hs
  simp -implicitDefEqProofs only [State.release_nvm, apply_ite State.nvm, ite_self]

theorem execInputCopyDone_otpKept {s : State} (hs : s.nvm.OtpFrom o₀) (n : Fin 16) (k : Nat) :
    OtpKept o₀ (execInputCopyDone n k s) := by
  refine otpKept_ends ?_
  split
  · exact hs
  · exact State.copyOn_otpFrom (fun _ _ ht => by rwa [State.copyInEntry_nvm])
      (fun _ ht => by rwa [State.inputDone_nvm]) hs _ _

theorem execOutputCopyDone_otpKept {s : State} (hs : s.nvm.OtpFrom o₀) (n : Fin 16) (k corr : Nat) :
    OtpKept o₀ (execOutputCopyDone n k corr s) := by
  refine otpKept_ends ?_
  split
  · exact hs
  · exact State.copyOn_otpFrom (fun _ _ ht => State.copyOutEntry_otpFrom ht ..)
      (fun _ ht => by rwa [State.outputDone_nvm]) (by rwa [State.eccCorrected_nvm]) _ _

theorem execActivationSwitch_otpKept {s : State} (hs : s.nvm.OtpFrom o₀) : OtpKept o₀ (execActivationSwitch s) := by
  refine otpKept_ends ?_
  split <;> simp only [State.switchStart_nvm, State.switch_otpFrom, apply_ite State.nvm, ite_self, hs]

theorem execActivationTimeout_otpKept {s : State} (hs : s.nvm.OtpFrom o₀) : OtpKept o₀ (execActivationTimeout s) := by
  refine otpKept_of_nvm ?_ hs
  split <;> simp only [State.advanceTo_nvm, State.cpFinish_nvm, State.modBe_nvm, State.set_nvm, apply_ite State.nvm,
    ite_self]

/-! Machine/Nvm: the non-volatile memory. -/

theorem execImgCommitComplete_otpKept {s : State} (hs : s.nvm.OtpFrom o₀) (fw1 fw2 : Bool) (img : ImageCfg) :
    OtpKept o₀ (execImgCommitComplete fw1 fw2 img s) := by
  unfold execImgCommitComplete
  refine otpKept_ends (ite_otpFrom hs (ite_otpFrom (by rwa [State.cpFinish_nvm]) ?_))
  extract_lets h i n s₁ s₂
  have h₁ : s₁.nvm.OtpFrom o₀ := hs.of_otp rfl
  have h₂ : s₂.nvm = s₁.nvm := by
    simp only [s₂, apply_ite State.nvm, State.modBe_nvm, State.stageSet_nvm, ite_self]
  rwa [State.cpFinish_nvm, h₂]

theorem execImgFlashComplete_otpKept {s : State} (hs : s.nvm.OtpFrom o₀) : OtpKept o₀ (execImgFlashComplete s) := by
  refine otpKept_ends ?_
  split
  · refine ite_otpFrom hs ?_
    rw [State.cpFinish_nvm]
    exact hs.of_otp rfl
  · exact hs

/-- A burn adds bits to its generation's block. -/
theorem execOtpBurnComplete_otpKept {s : State} (hs : s.nvm.OtpFrom o₀) (read : List Byte) :
    OtpKept o₀ (execOtpBurnComplete read s) := by
  refine otpKept_ends ?_
  split
  · exact hs
  next o _ =>
    refine ite_otpFrom hs ?_
    have hg : leNat (o.payload.drop 2 |>.take 1) % 4 < 4 := Nat.mod_lt _ (by decide)
    extract_lets g want old got n s₁ m s₂
    have hlen : got.length ≤ 512 := (List.length_zipWith ..).trans_le ((Nat.min_le_left ..).trans (otpBytes_length s _ 512).le)
    have h₁ : s₁.nvm.OtpFrom o₀ :=
      hs.burned (a := 0x200 + 0x200 * g) (b := got) (by omega) (by omega) (fun i hi => burned_getD hs (0x200 + 0x200 * g) _ i hi) rfl
    rw [State.cpFinish_nvm]
    exact h₁.of_otp rfl

/-- A revocation adds bits to its byte. -/
theorem execOtpRevokeComplete_otpKept {s : State} (hs : s.nvm.OtpFrom o₀) (read : Byte) :
    OtpKept o₀ (execOtpRevokeComplete read s) := by
  refine otpKept_ends ?_
  split
  · exact hs
  next o _ =>
    refine ite_otpFrom hs ?_
    have hk : leNat (o.payload.drop 2 |>.take 1) % 4 < 4 := Nat.mod_lt _ (by decide)
    extract_lets k got n s₁
    have hgot : [got] = List.zipWith (fun x y => x ||| y) (s.otpBytes (0xA00 + k) 1) [read] := by
      have hlen := otpBytes_length s (0xA00 + k) 1
      simp only [got]
      match s.otpBytes (0xA00 + k) 1, hlen with
      | [x], _ => rfl
    rw [State.cpFinish_nvm]
    refine hs.burned (a := 0xA00 + k) (b := [got]) (by omega) (show 0xA00 + k + 1 ≤ 0xA04 by omega) (fun i hi => ?_) rfl
    rw [hgot] at hi ⊢
    exact burned_getD hs _ _ i hi

theorem execSelftestComplete_otpKept {s : State} (hs : s.nvm.OtpFrom o₀) (fail : BitVec 16) :
    OtpKept o₀ (execSelftestComplete fail s) := by
  refine otpKept_of_nvm ?_ hs
  split <;> simp only [State.cpFinish_nvm, State.modCp_nvm, State.trkAssign_nvm, apply_ite State.nvm, ite_self]

/-! Machine/Boot: boot and images. -/

theorem execBootStart_otpKept {s : State} (hs : s.nvm.OtpFrom o₀) (straps : BitVec 2) (vpp : Bool) :
    OtpKept o₀ (execBootStart straps vpp s) := by
  refine otpKept_ends (hs.of_otp ?_)
  simp -implicitDefEqProofs only [State.advanceBy_nvm, State.advanceTo_nvm, State.gnWake_nvm, State.modPwr_nvm,
    State.otpLoad_otp, State.set_nvm, State.setFlag_nvm, State.setOn_nvm, State.showBeDoze_nvm, foldl_nvm, implies_true,
    apply_ite State.nvm, apply_ite Nvm.otp, ite_self]

theorem execSlotVerify_otpKept {s : State} (hs : s.nvm.OtpFrom o₀) (us : Fin 3001) (fw1 fw2 : Bool) (img : ImageCfg) :
    OtpKept o₀ (execSlotVerify us fw1 fw2 img s) := by
  refine otpKept_of_nvm ?_ hs
  split
  · rfl
  · split
    · rfl
    · extract_lets s₁ hd why img' why' s₂
      have h₂ : s₂.nvm = s.nvm := by rw [State.advanceBy_nvm, State.dramReady_nvm]
      split
      · rwa [State.modPwr_nvm]
      · split
        · rwa [State.set_nvm]
        · rwa [State.set_nvm]

theorem execFirmwareStart_otpKept {s : State} (hs : s.nvm.OtpFrom o₀) : OtpKept o₀ (execFirmwareStart s) := by
  refine otpKept_of_nvm ?_ hs
  simp -implicitDefEqProofs only [State.advanceBy_nvm, State.kickWdog_nvm, State.modPwr_nvm, apply_ite State.nvm, ite_self]

theorem execSectionsApplied_otpKept {s : State} (hs : s.nvm.OtpFrom o₀) : OtpKept o₀ (execSectionsApplied s) := by
  refine otpKept_ends (ite_otpFrom hs ?_)
  extract_lets k i hd s₁ s₂ s₃ s₄ s₅
  have h₁ : s₁.nvm.OtpFrom o₀ := by rwa [State.advanceBy_nvm]
  have h₂ : s₂.nvm.OtpFrom o₀ := by
    rw [State.showSig_nvm, State.loadSet_nvm]
    exact State.applyRegs_otpFrom (State.applyRegs_otpFrom h₁ ..) ..
  have h₃ : s₃.nvm.OtpFrom o₀ := by
    rw [State.paramLoad_nvm]
    exact State.applyGnss_otpFrom h₂ _
  have h₄ : s₄.nvm.OtpFrom o₀ := by rwa [State.setFlag_nvm, State.setFlag_nvm, State.set_nvm]
  have h₅ : s₅.nvm.OtpFrom o₀ := by rwa [State.modPwr_nvm, State.set_nvm]
  exact ite_otpFrom (cycCtrlWrite_otpFrom h₅ ..) h₅

theorem execDomainOn_otpKept {s : State} (hs : s.nvm.OtpFrom o₀) (d : Fin 14) : OtpKept o₀ (execDomainOn d s) := by
  refine otpKept_ends ?_
  split <;> simp only [State.advanceTo_nvm, State.setOn_nvm, State.gnPower_otpFrom, State.restore_otpFrom,
    apply_ite State.nvm, ite_self, apply_ite (Nvm.OtpFrom o₀), hs]

/-! Machine/Code: program sets. -/

theorem execSatn_otpKept {s : State} (hs : s.nvm.OtpFrom o₀) (e : Fin 8) (d a : BitVec 5) (sub : BitVec 4) :
    OtpKept o₀ (execSatn e d a sub s) := by
  refine State.issue_otpKept hs _ fun t n k u c hu => ?_
  split at hu
  · cases hu
  split at hu
  · cases hu
    exact t.drawn_nvm
  · cases hu
    rfl

theorem execSext_otpKept {s : State} (hs : s.nvm.OtpFrom o₀) (e : Fin 8) (d a : BitVec 5) (sub : BitVec 4) :
    OtpKept o₀ (execSext e d a sub s) := by
  refine State.issue_otpKept hs _ fun t n k u c hu => ?_
  split at hu
  · cases hu
  split at hu
  · cases hu
    exact t.drawn_nvm
  · cases hu
    rfl

theorem execZext_otpKept {s : State} (hs : s.nvm.OtpFrom o₀) (e : Fin 8) (d a : BitVec 5) (sub : BitVec 4) :
    OtpKept o₀ (execZext e d a sub s) := by
  refine State.issue_otpKept hs _ fun t n k u c hu => ?_
  split at hu
  · cases hu
  split at hu
  · cases hu
    exact t.drawn_nvm
  · cases hu
    rfl

theorem execLdk_otpKept {s : State} (hs : s.nvm.OtpFrom o₀) (e : Fin 8) (a : BitVec 5) (imm : BitVec 19) :
    OtpKept o₀ (execLdk e a imm s) := by
  refine State.issue_otpKept hs _ fun t n k u c hu => ?_
  dsimp only at hu
  split at hu
  · cases hu
  · cases hu
    rfl

theorem execFrnd_otpKept {s : State} (hs : s.nvm.OtpFrom o₀) (e : Fin 8) (d a : BitVec 5) (sub : BitVec 4) :
    OtpKept o₀ (execFrnd e d a sub s) := by
  refine State.issue_otpKept hs _ fun t n k u c hu => ?_
  split at hu
  · cases hu
  · cases hu
    rfl

theorem execLea_otpKept {s : State} (hs : s.nvm.OtpFrom o₀) (e : Fin 8) (d x : BitVec 5) (sp : BitVec 2) (disp : BitVec 12) :
    OtpKept o₀ (execLea e d x sp disp s) := by
  refine State.issue_otpKept hs _ fun t n k u c hu => ?_
  split at hu
  · cases hu
  · cases hu
    rfl

theorem execBr_otpKept {s : State} (hs : s.nvm.OtpFrom o₀) (e : Fin 8) (imm : BitVec 19) :
    OtpKept o₀ (execBr e imm s) :=
  State.issue_otpKept hs _ fun _ _ _ _ _ hu => by cases hu; rfl

theorem execBz_otpKept {s : State} (hs : s.nvm.OtpFrom o₀) (e : Fin 8) (a : BitVec 5) (imm : BitVec 19) :
    OtpKept o₀ (execBz e a imm s) :=
  State.issue_otpKept hs _ fun _ _ _ _ _ hu => by cases hu; rfl

theorem execBnz_otpKept {s : State} (hs : s.nvm.OtpFrom o₀) (e : Fin 8) (a : BitVec 5) (imm : BitVec 19) :
    OtpKept o₀ (execBnz e a imm s) :=
  State.issue_otpKept hs _ fun _ _ _ _ _ hu => by cases hu; rfl

theorem execCall_otpKept {s : State} (hs : s.nvm.OtpFrom o₀) (e : Fin 8) (imm : BitVec 19) : OtpKept o₀ (execCall e imm s) := by
  refine State.issue_otpKept hs _ fun t n k u c hu => ?_
  split at hu
  · cases hu
  · cases hu
    rfl

theorem execCallb_otpKept {s : State} (hs : s.nvm.OtpFrom o₀) (e : Fin 8) (a : BitVec 5) (imm : BitVec 19) :
    OtpKept o₀ (execCallb e a imm s) := by
  refine State.issue_otpKept hs _ fun t n k u c hu => ?_
  split at hu
  · cases hu
  · cases hu
    rfl

theorem execRet_otpKept {s : State} (hs : s.nvm.OtpFrom o₀) (e : Fin 8) : OtpKept o₀ (execRet e s) := by
  refine State.issue_otpKept hs _ fun t n k u c hu => ?_
  split at hu
  · cases hu
  · cases hu
    rfl

theorem execEndRun_otpKept {s : State} (hs : s.nvm.OtpFrom o₀) (e : Fin 8) : OtpKept o₀ (execEndRun e s) := by
  refine otpKept_of_nvm ?_ hs
  split <;> simp -implicitDefEqProofs only [State.endRun_nvm, State.pmu_nvm]

/-! Machine/Port: the commands of the port. -/

theorem execPacketReceive_otpKept {s : State} (hs : s.nvm.OtpFrom o₀) (t : Fin 3) (via : Fin 5) (src : BitVec 48) (b : List Byte) :
    OtpKept o₀ (execPacketReceive t via src b s) := by
  refine otpKept_ends ?_
  simp -implicitDefEqProofs only [State.cpPart_nvm, State.cpDatagram_otpFrom, State.cpHunt_otpFrom, apply_ite State.nvm,
    ite_self, apply_ite (Nvm.OtpFrom o₀), hs]

theorem execUartGapTimeout_otpKept {s : State} (hs : s.nvm.OtpFrom o₀) : OtpKept o₀ (execUartGapTimeout s) := by
  refine otpKept_of_nvm ?_ hs
  simp -implicitDefEqProofs only [State.bump_nvm, State.cpPart_nvm, apply_ite State.nvm, ite_self]

theorem execSpiCsRise_otpKept {s : State} (hs : s.nvm.OtpFrom o₀) (sent : Nat) : OtpKept o₀ (execSpiCsRise sent s) := by
  refine otpKept_ends ?_
  simp -implicitDefEqProofs only [State.bump_nvm, State.cpPart_nvm, State.emit_nvm, State.modCp_nvm, State.cpReset_otpFrom,
    apply_ite State.nvm, ite_self, apply_ite (Nvm.OtpFrom o₀), hs]

theorem exec_otpKept {s : State} (h : s.nvm.OtpFrom o₀) : ∀ i : Instr, OtpKept o₀ (exec i s)
  | .taskTrap .. => execTaskTrap_otpKept h _ _ _
  | .nop .. | .add .. | .sub .. | .addw .. | .subw .. | .mul .. | .mulw .. | .divS .. | .divu .. | .modS .. | .negS ..
  | .absS .. | .minS .. | .maxS .. | .limitS .. | .andB .. | .orB .. | .xorB .. | .notB .. | .shl .. | .shr .. | .sar ..
  | .rol .. | .ror .. | .bitx .. | .bits .. | .selB .. | .ceq .. | .cne .. | .clt .. | .cle .. | .cltu .. | .cleu ..
  | .addi .. | .andi .. | .ori .. | .xori .. | .shli .. | .shri .. | .sari .. | .ceqi .. | .clti .. | .movi .. | .fadd ..
  | .fsub .. | .fmul .. | .fdiv .. | .fsqrt .. | .fma .. | .fnms .. | .fabs .. | .fneg .. | .fmin .. | .fmax .. | .flimit ..
  | .fceq .. | .fclt .. | .fcle .. | .fcun .. | .itof .. | .ftoi .. | .f32 .. | .rdst .. | .clrst .. => State.alu_otpKept h _ _
  | .satn .. => execSatn_otpKept h _ _ _ _
  | .sext .. => execSext_otpKept h _ _ _ _
  | .zext .. => execZext_otpKept h _ _ _ _
  | .ldk .. => execLdk_otpKept h _ _ _
  | .frnd .. => execFrnd_otpKept h _ _ _ _
  | .ld8s .. | .ld8u .. | .ld16s .. | .ld16u .. | .ld32s .. | .ld32u .. | .ld64 .. | .ldf32 .. =>
    State.issue_otpKept h _ fun _ _ _ _ _ => loadOp_nvm
  | .st8 .. | .st16 .. | .st32 .. | .st64 .. | .stf32 .. => State.issue_otpKept h _ fun _ _ _ _ _ => storeOp_nvm
  | .lea .. => execLea_otpKept h _ _ _ _ _
  | .br .. => execBr_otpKept h _ _
  | .bz .. => execBz_otpKept h _ _ _
  | .bnz .. => execBnz_otpKept h _ _ _
  | .call .. => execCall_otpKept h _ _
  | .callb .. => execCallb_otpKept h _ _ _
  | .ret .. => execRet_otpKept h _
  | .endRun .. => execEndRun_otpKept h _
  | .ton .. | .tof .. | .tp .. | .rTrig .. | .fTrig .. | .ctu .. | .ctd .. | .ctud .. | .srBlock .. | .rsBlock .. =>
    otpKept_of_nvm (State.sysBlock_nvm ..) h
  | .sinF .. | .cosF .. | .tanF .. | .asinF .. | .acosF .. | .atanF .. | .expF .. | .lnF .. | .logF .. =>
    otpKept_of_nvm (State.sys1_nvm ..) h
  | .atan2F .. | .exptF .. => otpKept_of_nvm (State.sys2_nvm ..) h
  | .registerWrite .. => otpKept_ends (State.busWrite_otpFrom h ..)
  | .readToClear .. => otpKept_of_nvm (State.busRead_nvm ..) h
  | .cycleTick => otpKept_ends (State.cycleTick_otpFrom h ..)
  | .checkpointAbandon => execCheckpointAbandon_otpKept h
  | .projectionPhase => execProjectionPhase_otpKept h
  | .estimatorStart => execEstimatorStart_otpKept h
  | .estimatePublish => otpKept_ends (State.estimatePublish_otpFrom h ..)
  | .qpLaunch => execQpLaunch_otpKept h
  | .commandLaunch => execCommandLaunch_otpKept h
  | .outputMissDemote => execOutputMissDemote_otpKept h
  | .checkpointSend => execCheckpointSend_otpKept h
  | .assignLaunch => execAssignLaunch_otpKept h
  | .runStart .. | .runStop .. => otpKept_ends (cycCtrlWrite_otpFrom h ..)
  | .headLaunch => execHeadLaunch_otpKept h
  | .headStop => execHeadStop_otpKept h
  | .sentenceReceive .. | .binaryFrameReceive .. | .rtcmFrameReceive .. => otpKept_of_nvm (State.uartWhole_nvm ..) h
  | .gstMergeExpire => execGstMergeExpire_otpKept h
  | .pgnReceive .. => execPgnReceive_otpKept h _ _ _
  | .fastPacketTimeout => execFastPacketTimeout_otpKept h
  | .isoRequestReceive .. => execIsoRequestReceive_otpKept h _ _ _
  | .addressClaimReceive .. => execAddressClaimReceive_otpKept h _ _ _
  | .udpbcDatagram .. => execUdpbcDatagram_otpKept h _ _ _ _ _ _ _ _
  | .flowDatagram .. => execFlowDatagram_otpKept h _ _ _ _ _
  | .streamEnable .. => execStreamEnable_otpKept h _ _ _
  | .streamDisable .. => execStreamDisable_otpKept h _ _ _
  | .ofscfgWrite .. => execOfscfgWrite_otpKept h _ _ _
  | .feScOfslRead .. => execFeScOfslRead_otpKept h _
  | .uartCharacterReceive .. => execUartCharacterReceive_otpKept h _ _ _ _
  | .uartBreak .. => execUartBreak_otpKept h _
  | .uartDataRead .. => execUartDataRead_otpKept h _
  | .uartDataWrite .. => otpKept_of_nvm (uartDataWrite_nvm ..) h
  | .helloReceive .. => execHelloReceive_otpKept h _ _
  | .helloSend .. => execHelloSend_otpKept h _
  | .peerDetach .. => execPeerDetach_otpKept h _
  | .commissionWrite .. => otpKept_of_nvm (discCtrlWrite_nvm ..) h
  | .fdCommitWrite .. => otpKept_of_nvm (fdCommitWrite_nvm ..) h
  | .drExpire => execDrExpire_otpKept h
  | .qualityUpgrade => execQualityUpgrade_otpKept h
  | .resetEst .. => otpKept_of_nvm (estCtrlWrite_nvm ..) h
  | .surveyEpochStore => execSurveyEpochStore_otpKept h
  | .surveyRecWrite .. => otpKept_of_nvm (survCtrlWrite_nvm ..) h
  | .surveyResubmit => execSurveyResubmit_otpKept h
  | .surveyTimeout => execSurveyTimeout_otpKept h
  | .trackCoastExpire .. => execTrackCoastExpire_otpKept h _
  | .forceAssign .. | .trackerEnable .. => otpKept_of_nvm (trkCtrlWrite_nvm ..) h
  | .skCmdMode .. | .skCmdStakeHere .. | .skCmdMove .. | .skCmdHaltMove .. => otpKept_of_nvm (skCmdWrite_nvm ..) h
  | .joystickWrite .. => otpKept_of_nvm (joyWrite_nvm ..) h
  | .joystickTimeout => execJoystickTimeout_otpKept h
  | .jobSubmit .. => otpKept_ends (subWrite_otpFrom h ..)
  | .submitHoldRelease => execSubmitHoldRelease_otpKept h
  | .jobDispatch => execJobDispatch_otpKept h
  | .jobCheckPoint .. => execJobCheckPoint_otpKept h _ _
  | .jobResume .. => execJobResume_otpKept h _ _ _
  | .jobComplete .. => execJobComplete_otpKept h _ _ _
  | .jobDelayed .. => execJobDelayed_otpKept h _ _ _
  | .kfDeadlineAbort .. => execKfDeadlineAbort_otpKept h _
  | .jobAbort .. => otpKept_ends (jfAbortWith_otpFrom h ..)
  | .alcCommitWrite .. => otpKept_of_nvm (alcCommitWrite_nvm ..) h
  | .srvEnable .. | .srvDisable .. | .srvOpen .. | .srvClose .. | .srvCommit .. => otpKept_of_nvm (lreqWrite_nvm ..) h
  | .servoPeriodStart .. => otpKept_of_nvm (State.periodStart_nvm ..) h
  | .servoOutput .. => otpKept_of_nvm (State.servoOutput_nvm ..) h
  | .servoTick => execServoTick_otpKept h
  | .fbHoldExpire .. => execFbHoldExpire_otpKept h _
  | .setpointTimeout .. => execSetpointTimeout_otpKept h _
  | .plausibilityMismatch .. => execPlausibilityMismatch_otpKept h _ _
  | .injGo .. | .injStop .. => otpKept_of_nvm (injCtrlWrite_nvm ..) h
  | .injectionTstart .. => execInjectionTstart_otpKept h _
  | .injectionEnd .. => execInjectionEnd_otpKept h _
  | .captureArm .. | .captureAbort .. => otpKept_of_nvm (capCtrlWrite_nvm ..) h
  | .captureTrigger .. => execCaptureTrigger_otpKept h _
  | .captureComplete .. => execCaptureComplete_otpKept h _
  | .srvTblDataAccess .. => otpKept_of_nvm (tblAccess_nvm ..) h
  | .encoderIllegalTransition .. => execEncoderIllegalTransition_otpKept h _
  | .encoderIndexPulse .. => execEncoderIndexPulse_otpKept h _
  | .ssiFrame .. => execSsiFrame_otpKept h _ _ _ _
  | .encoderConfigWrite .. => otpKept_of_nvm (encCfgWrite_nvm ..) h
  | .dsfOutputSample .. => otpKept_of_nvm (State.dsfSample_nvm ..) h
  | .proofingDone .. => execProofingDone_otpKept h _ _ _
  | .rmsBlockEnd .. => execRmsBlockEnd_otpKept h _ _ _
  | .dataStuck .. => execDataStuck_otpKept h _
  | .dataActive .. => execDataActive_otpKept h _
  | .dsfEnable .. | .dsfSrcChange .. => otpKept_of_nvm (dsfCfgWrite_nvm ..) h
  | .dsfEnsetWrite .. => otpKept_of_nvm (dsfEnsetWrite_nvm ..) h
  | .syncBallEdge => execSyncBallEdge_otpKept h
  | .syncArm .. => otpKept_of_nvm (syncCtrlWrite_nvm ..) h
  | .syncAtReached => execSyncAtReached_otpKept h
  | .bankRequest .. => otpKept_of_nvm (bankReqWrite_nvm ..) h
  | .primeEnd .. => execPrimeEnd_otpKept h _ _ _
  | .fadeEnd .. => execFadeEnd_otpKept h _ _ _
  | .coefWrite .. => otpKept_of_nvm (coefAccess_nvm ..) h
  | .dsfTslRead .. => execDsfTslRead_otpKept h _
  | .heartbeatSend => execHeartbeatSend_otpKept h
  | .heartbeatReceive .. => execHeartbeatReceive_otpKept h _ _
  | .heartbeatPeriodEnd => execHeartbeatPeriodEnd_otpKept h
  | .lineLost .. => execLineLost_otpKept h _
  | .lineReturn .. => execLineReturn_otpKept h _
  | .bothLinesSilent => execBothLinesSilent_otpKept h
  | .firstCycle => execFirstCycle_otpKept h
  | .checkpointFrameReceive .. => execCheckpointFrameReceive_otpKept h _ _ _ _ _ _ _ _ _
  | .termRelay => execTermRelay_otpKept h
  | .haCtrlGoActive .. | .haCtrlDemote .. | .haCtrlRejoin .. => otpKept_ends (haCtrlWrite_otpFrom h ..)
  | .pairEnWrite .. => otpKept_ends (haCfgWrite_otpFrom h ..)
  | .haTdlRead => execHaTdlRead_otpKept h
  | .haLhblRead => execHaLhblRead_otpKept h
  | .gnssRefresh => execGnssRefresh_otpKept h
  | .gnssRefreshEnd => execGnssRefreshEnd_otpKept h
  | .latticeEvaluation .. => otpKept_of_nvm (State.latticeEval_nvm ..) h
  | .channelTrip .. => execChannelTrip_otpKept h _ _
  | .degradedTimeout => execDegradedTimeout_otpKept h
  | .degradedClear => execDegradedClear_otpKept h
  | .autoarm => execAutoarm_otpKept h
  | .armLattice .. | .withdraw .. | .clearTrip .. | .clearFaults .. => otpKept_of_nvm (safeReqWrite_nvm ..) h
  | .safetyCoreHeartbeat => execSafetyCoreHeartbeat_otpKept h
  | .safetyCoreTimeout => execSafetyCoreTimeout_otpKept h
  | .disagreeFault .. => execDisagreeFault_otpKept h _
  | .readbackFault .. => execReadbackFault_otpKept h _
  | .oscFault => execOscFault_otpKept h
  | .offPulseTest .. => execOffPulseTest_otpKept h _ _ _
  | .safeInputChange .. => execSafeInputChange_otpKept h _ _
  | .sidiscFault .. => execSidiscFault_otpKept h _
  | .srtBlock => otpKept_of_nvm (State.srtBlock_nvm ..) h
  | .srtTrip => execSrtTrip_otpKept h
  | .speTrip => execSpeTrip_otpKept h
  | .graceEnd .. => execGraceEnd_otpKept h _
  | .safetyParamLoad => otpKept_of_nvm (State.paramLoad_nvm ..) h
  | .authTimeout => execAuthTimeout_otpKept h
  | .gnssEpoch .. => execGnssEpoch_otpKept h _
  | .acqRequest .. => otpKept_of_nvm (acqReqWrite_nvm ..) h
  | .autoSearch .. => execAutoSearch_otpKept h _ _
  | .acqComplete .. => execAcqComplete_otpKept h _
  | .channelAssign .. => otpKept_of_nvm (chCtrlWrite_nvm ..) h
  | .channelLostRelease .. => execChannelLostRelease_otpKept h _
  | .wordRecord .. => execWordRecord_otpKept h _
  | .antennaShort .. => execAntennaShort_otpKept h _ _
  | .windbreakSearch .. => execWindbreakSearch_otpKept h _
  | .jammingIndicator .. => execJammingIndicator_otpKept h _
  | .jiCal .. => otpKept_of_nvm (jiCfgWrite_nvm ..) h
  | .gnssTimeSolution .. => execGnssTimeSolution_otpKept h _ _
  | .gnssTimeLoss => execGnssTimeLoss_otpKept h
  | .gnssSleep .. => otpKept_ends (gnCfgWrite_otpFrom h ..)
  | .referenceOffset .. => execReferenceOffset_otpKept h _ _ _
  | .referenceLoss => execReferenceLoss_otpKept h
  | .slewEnd => execSlewEnd_otpKept h
  | .timeStepByOffset .. | .timeStepToSet .. => otpKept_ends (timeStepWrite_otpFrom h ..)
  | .priClear .. => otpKept_of_nvm (timeRefWrite_nvm ..) h
  | .timeIncWrite .. => otpKept_of_nvm (timeIncWrite_nvm ..) h
  | .timeNowRead => execTimeNowRead_otpKept h
  | .sysCycT0lRead => execSysCycT0lRead_otpKept h
  | .taiUtcWrite .. => otpKept_of_nvm (timeLeapWrite_nvm ..) h
  | .leapSecond => execLeapSecond_otpKept h
  | .ptpSyncReceive .. => execPtpSyncReceive_otpKept h _ _ _ _
  | .ptpFollowUpReceive .. => execPtpFollowUpReceive_otpKept h _ _ _
  | .ptpDelayReqReceive .. => execPtpDelayReqReceive_otpKept h _ _ _ _
  | .ptpDelayRespReceive .. => execPtpDelayRespReceive_otpKept h _ _ _
  | .ptpPdelayReqReceive .. => execPtpPdelayReqReceive_otpKept h _ _ _ _
  | .ptpPdelayRespReceive .. => execPtpPdelayRespReceive_otpKept h _ _ _ _ _
  | .ptpPdelayRespFollowUpReceive .. => execPtpPdelayRespFollowUpReceive_otpKept h _ _ _
  | .ptpAnnounceReceive .. => execPtpAnnounceReceive_otpKept h _ _
  | .ptpUnsupportedMessage .. => execPtpUnsupportedMessage_otpKept h _
  | .ptpSyncSend .. => execPtpSyncSend_otpKept h _
  | .ptpAnnounceSend .. => execPtpAnnounceSend_otpKept h _
  | .ptpDelayReqSend .. => execPtpDelayReqSend_otpKept h _
  | .ptpPdelayReqSend .. => execPtpPdelayReqSend_otpKept h _
  | .scheduledLaunch .. => execScheduledLaunch_otpKept h _
  | .ppsEdge .. => execPpsEdge_otpKept h _
  | .ppsPulseEnd .. => execPpsPulseEnd_otpKept h _
  | .timeCaptureEdge .. => execTimeCaptureEdge_otpKept h _ _ _ _
  | .capTslRead .. => execCapTslRead_otpKept h _
  | .twinCopyReceive .. => execTwinCopyReceive_otpKept h _ _
  | .twinWinExpire => execTwinWinExpire_otpKept h
  | .zalSyncGo .. => otpKept_of_nvm (syncHWrite_nvm ..) h
  | .telemetrySend .. => execTelemetrySend_otpKept h _
  | .txTailWrite .. => otpKept_of_nvm (txTailWrite_nvm ..) h
  | .arpRequest .. => execArpRequest_otpKept h _ _
  | .linkChange .. => execLinkChange_otpKept h _ _ _
  | .canEnable .. => otpKept_of_nvm (canCfgWrite_nvm ..) h
  | .canColumnOpen .. => execCanColumnOpen_otpKept h _ _
  | .canAttemptEnd .. => execCanAttemptEnd_otpKept h _ _ _
  | .canFrameReceive .. => execCanFrameReceive_otpKept h _ _ _ _ _ _
  | .canRemoteFrameReceive .. => execCanRemoteFrameReceive_otpKept h _ _ _ _ _
  | .canRxStatusRead .. => execCanRxStatusRead_otpKept h _ _
  | .canTxreq .. => otpKept_of_nvm (canTxreqWrite_nvm ..) h
  | .canCancel .. => otpKept_of_nvm (canCancelWrite_nvm ..) h
  | .busOffRecovery .. => execBusOffRecovery_otpKept h _
  | .referenceFrameReceive .. => execReferenceFrameReceive_otpKept h _ _ _
  | .refLost .. => execRefLost_otpKept h _
  | .taskRelease .. => execTaskRelease_otpKept h _
  | .inputCopyDone .. => execInputCopyDone_otpKept h _ _
  | .outputCopyDone .. => execOutputCopyDone_otpKept h _ _ _
  | .taskEnable .. => otpKept_of_nvm (tcfgWrite_nvm ..) h
  | .beTrellRead .. => execBeTrellRead_otpKept h _
  | .activationSwitch => execActivationSwitch_otpKept h
  | .activationTimeout => execActivationTimeout_otpKept h
  | .fopSet .. | .fopClear .. | .fopClearAll .. => otpKept_of_nvm (fopWrite_nvm ..) h
  | .packetReceive .. => execPacketReceive_otpKept h _ _ _ _
  | .uartGapTimeout => execUartGapTimeout_otpKept h
  | .spiCsRise .. => execSpiCsRise_otpKept h _
  | .ping .. | .identify .. | .status .. | .rdWords .. | .wrWords .. | .rmw .. | .gnConfig .. | .imgBegin .. | .imgData ..
  | .imgCommit .. | .imgActivate .. | .imgFlash .. | .imgStatus .. | .otpRead .. | .otpStage .. | .otpBurn .. | .otpRevoke ..
  | .skMode .. | .skStakeHere .. | .skMove .. | .skHalt .. | .skJoy .. | .surveyRec .. | .surveyRun .. | .surveyCommit ..
  | .surveyDiscard .. | .surveyStatus .. | .selftest .. | .selftestLast .. | .timeGet .. | .timeStep .. | .timeLeap ..
  | .goActive .. | .demote .. | .rejoin .. | .pairStatus .. | .recRead .. | .recClear .. | .forceSet .. | .forceClear ..
  | .forceClearAll .. | .forceList .. | .resetDevice .. => otpKept_ends (State.cpRequest_otpFrom h ..)
  | .bootStart .. => execBootStart_otpKept h _ _
  | .slotVerify .. => execSlotVerify_otpKept h _ _ _ _
  | .firmwareStart => execFirmwareStart_otpKept h
  | .sectionsApplied => execSectionsApplied_otpKept h
  | .refclkWindow .. => execRefclkWindow_otpKept h _
  | .safeOscWindow .. => execSafeOscWindow_otpKept h _
  | .domainPowerRequest .. => otpKept_ends (domReqWrite_otpFrom h ..)
  | .domainOn .. => execDomainOn_otpKept h _
  | .deepEntry .. => otpKept_ends (pwrCtrlWrite_otpFrom h ..)
  | .deepWake .. => execDeepWake_otpKept h _
  | .powerOnReset | .brownOutReset => otpKept_ends (State.deviceReset_otpFrom h _)
  | .pinReset .. => execPinReset_otpKept h _
  | .partnerForcedReset .. => execPartnerForcedReset_otpKept h _
  | .watchdogExpire => execWatchdogExpire_otpKept h
  | .watchdogKick .. => otpKept_ends (kickWrite_otpFrom h ..)
  | .softReset .. => otpKept_ends (softWrite_otpFrom h ..)
  | .partnerReset .. => otpKept_of_nvm (pforceWrite_nvm ..) h
  | .interruptArrival .. => otpKept_of_nvm (State.event_nvm ..) h
  | .interruptEntry .. => execInterruptEntry_otpKept h _
  | .icClaim .. => execIcClaim_otpKept h _ _
  | .icComplete .. => execIcComplete_otpKept h _ _
  | .icSwset .. => otpKept_of_nvm (icSwset_nvm ..) h
  | .loafWriteEnd => otpKept_of_nvm (State.loafEnd_nvm ..) h
  | .recNext .. => otpKept_of_nvm (recCtlWrite_nvm ..) h
  | .recCurWrite .. => otpKept_of_nvm (recCurWrite_nvm ..) h
  | .recClrClear .. => otpKept_of_nvm (recClrWrite_nvm ..) h
  | .counterOverflow .. => execCounterOverflow_otpKept h _
  | .pmuFreeze .. | .pmuUnfreeze .. | .pmuSnap .. => otpKept_of_nvm (pmuCtlWrite_nvm ..) h
  | .pmuCounterRead .. => execPmuCounterRead_otpKept h _ _ _
  | .scrubBurst .. => execScrubBurst_otpKept h _
  | .scrubCapApply => execScrubCapApply_otpKept h
  | .selftestComplete .. => execSelftestComplete_otpKept h _
  | .imgCommitComplete .. => execImgCommitComplete_otpKept h _ _ _
  | .imgFlashComplete => execImgFlashComplete_otpKept h
  | .otpBurnComplete .. => execOtpBurnComplete_otpKept h _
  | .otpRevokeComplete .. => execOtpRevokeComplete_otpKept h _
  | .checkpointSendComplete => execCheckpointSendComplete_otpKept h
  | .antennaOpen .. => execAntennaOpen_otpKept h _ _
  | .channelPullInLock .. => execChannelPullInLock_otpKept h _
  | .channelLockLost .. => execChannelLockLost_otpKept h _
  | .ptpAnnounceReceiptTimeout .. => execPtpAnnounceReceiptTimeout_otpKept h _
  | .canBusError .. => execCanBusError_otpKept h _ _
  | .prstOutPulseEnd => execPrstOutPulseEnd_otpKept h

theorem otpKept_next {s : State} (h : s.nvm.OtpFrom o₀) : OtpKept o₀ (.next s) := fun _ ht => Host.Outcome.next.inj ht ▸ h

theorem step_otpKept {s : State} (h : s.nvm.OtpFrom o₀) : OtpKept o₀ (step s) := by
  unfold step
  split
  · exact otpKept_next (State.idle_otpFrom h)
  next c rest _ => exact exec_otpKept (s := { s with pending := rest }) h c

end

/-- A state's own array has all its bits. -/
theorem State.Canonical.otpFrom {s : State} (h : s.Canonical) : s.nvm.OtpFrom s.nvm.otp := by
  obtain ⟨-, -, -, hotp, -⟩ := h
  exact ⟨hotp, fun _ => ⟨BitVec.and_self, fun _ => rfl⟩⟩

/-- Settles O6: each command either leaves the OTP array alone or ors bits into a configuration generation or a revocation byte,
the burn that a reset cuts short among them. -/
theorem otpBitsStay : Obligations.OtpBitsStay := by
  intro s t hs ht
  obtain ⟨-, hbits⟩ := step_otpKept hs.otpFrom t ht
  exact ⟨fun a => (hbits a).1, fun a => (hbits a).2⟩

end Sys2Proof.Machine
end
